-- ==== Sys2Proof/Word.lean ====
section
/-!
DEFINITION. The word types of the SQ7300 and the index types of its units.
Registers are 32 bits wide (R8), the byte address space is 24 bits wide (R39).
-/
namespace Sys2Proof

/-- A register or memory word (R8). -/
abbrev Word := BitVec 32
/-- One byte of a memory window. -/
abbrev Byte := BitVec 8
/-- A byte address of the 24-bit device space (R39, Table 17-1). -/
abbrev Addr := BitVec 24

/-- Motion axis 0 to 15 (Table 0-5). -/
abbrev AxisIx := Fin 16
/-- Leg 0 to 31 (R225). -/
abbrev LegIx := Fin 32
/-- Burin lane 0 to 7 (Table 0-5). -/
abbrev LaneIx := Fin 8
/-- Code-task slot of a lane (R71). -/
abbrev SlotIx := Fin 16
/-- Feedback interface FB0 to FB7 (chapter 6). -/
abbrev FbIx := Fin 8
/-- CAN port (chapter 14). -/
abbrev PortIx := Fin 2
/-- DMA channel (chapter 15). -/
abbrev ChanIx := Fin 64
/-- Data register of a lane (R319). -/
abbrev DReg := Fin 16
/-- Accumulator of a lane (R319). -/
abbrev AccReg := Fin 4
/-- Pointer or modifier of a lane (R319). -/
abbrev PReg := Fin 8

end Sys2Proof
end

