-- ==== Sys2Proof/Machine/Operands.lean ====
section
/-!
DEFINITION. The operand forms of the commands: who issues a command, what an event brings with it
from outside the block (a sampled level, a frame, a measured value), and the address form of a lane's
memory instruction (Table 13-6).
-/
namespace Sys2Proof

/-- The two masters (R46 to R49, chapter 17). -/
inductive Master where
  | host
  | manager
  deriving DecidableEq, Repr

/-- Who may lock a receive slot (R346). -/
inductive Reader where
  | host
  | manager
  | lane (l : LaneIx)
  | dma (c : ChanIx)
  deriving DecidableEq, Repr

/-- Address form of LD, ST, LD2, ST2 and SACST (Table 13-6): `post m` is AM = 0, post-modify by Mm;
`offs o` is AM = 1, address Pn + OFFSET with the pointer kept. -/
inductive AddrForm where
  | post (m : PReg)
  | offs (o : BitVec 10)
  deriving DecidableEq, Repr

/-- What a conversion that completes was made for (R128, R135, R136, R137, R146). -/
inductive ConvKind where
  /-- The channel's ordinary conversion; on a shunt channel, sample A of R128 or the six-step sample. -/
  | sampleA
  /-- Sample B of R128. -/
  | sampleB
  /-- An offset sample: of the V7 window (R136), of the capture (R135), of the refresh (R137). -/
  | offset
  /-- The reference conversion that the SAR makes once per frame (R146), as its deviation in LSB. -/
  | reference
  deriving DecidableEq, Repr

/-- What the surroundings and the self checks show while a step of Table 19-1 completes. -/
structure BootInfo where
  /-- The reference is a CMOS clock on XIN (CLK_STATUS.XMODE, step 3). -/
  cmosClock : Bool
  /-- VIO is present at step 5 (R448). -/
  vio : Bool
  /-- Levels of PERS1, PERS0 (R448). -/
  pers : BitVec 2
  /-- Level of AUTOLD (R448). -/
  autold : Bool
  /-- The supervisor's ROM check passed and the SRAM write-back had no uncorrectable error (R450). -/
  checksOk : Bool
  /-- Bit l: lane l failed its three self-test passes (R450). -/
  laneFail : BitVec 8
  /-- PLINK's one-way delay in ticks as bring-up measures it at step 4 (R24, R253). -/
  delay : BitVec 16
  deriving DecidableEq, Repr

/-- A safety function that a SEL_HOST bit or a safety input selects (R291, R293). -/
inductive SafeFn where
  | sls
  | sos
  | sdiPos
  | sdiNeg
  deriving DecidableEq, Repr

/-- A CAN frame as it stands on the bus, in the fields of words 0 and 1 of Table 14-2 and its data. -/
structure CanFrame where
  /-- Word 0 of the record: RTR, XTD and the identifier. -/
  word0 : Word
  esi : Bool
  brs : Bool
  fdf : Bool
  dlc : BitVec 4
  data : List Byte
  deriving DecidableEq, Repr

/-- What one housekeeping round converted (R425, R426). -/
structure HkRound where
  /-- The four control-die sensors as converted together in the slot of channel 0 (R426). -/
  s0 : List Int
  /-- The 24 channels of Table 18-1 as converted in their own slots; channels 0, 22 and 23 are formed
  by the sequencer and their entries here are not used. -/
  ch : List Int
  deriving DecidableEq, Repr

/-- A retirable channel named as READMIT names it: class of Table 2-8 and index. -/
structure ChanId where
  cls : Nat
  idx : Nat
  deriving DecidableEq, Repr

/-- Outcome of an absolute acquisition (R159, R160). -/
structure AbsResult where
  word : BitVec 40
  /-- ERR, WARN, S1, S0 of an ABS_CRC cycle (R159). -/
  status : BitVec 4
  /-- Parity or CRC-8 matched. -/
  checkOk : Bool
  /-- Measured line delay in ticks (R159). -/
  delay : Nat
  deriving DecidableEq, Repr

end Sys2Proof
end

