-- ==== Sys2Proof/Syntax.lean ====
section
/-!
DEFINITION. The commands of the SQ7300: one constructor per row of spec/opcode_table.json (lane instructions first), each with
what its sender or its surroundings bring with it. The rule named is the row's own.
-/
namespace Sys2Proof

inductive Instr where
  /-- NOP (R336): Does nothing. -/
  | nop (l : LaneIx)
  /-- ADD (R336): Dd = Da + Db, wrapping. -/
  | add (l : LaneIx) (d : DReg) (a : DReg) (b : DReg)
  /-- SUB (R336): Dd = Da − Db, wrapping. -/
  | sub (l : LaneIx) (d : DReg) (a : DReg) (b : DReg)
  /-- ADDS (R336): Dd = Da + Db, saturating. -/
  | adds (l : LaneIx) (d : DReg) (a : DReg) (b : DReg)
  /-- SUBS (R336): Dd = Da − Db, saturating. -/
  | subs (l : LaneIx) (d : DReg) (a : DReg) (b : DReg)
  /-- AND (R336): Bitwise AND. -/
  | and (l : LaneIx) (d : DReg) (a : DReg) (b : DReg)
  /-- OR (R336): Bitwise OR. -/
  | or (l : LaneIx) (d : DReg) (a : DReg) (b : DReg)
  /-- XOR (R336): Bitwise XOR. -/
  | xor (l : LaneIx) (d : DReg) (a : DReg) (b : DReg)
  /-- ASH (R336): Arithmetic shift of Da by clamped Db. -/
  | ash (l : LaneIx) (d : DReg) (a : DReg) (b : DReg)
  /-- LSH (R336): Logical shift of Da by clamped Db. -/
  | lsh (l : LaneIx) (d : DReg) (a : DReg) (b : DReg)
  /-- MIN (R336): Signed minimum. -/
  | min (l : LaneIx) (d : DReg) (a : DReg) (b : DReg)
  /-- MAX (R336): Signed maximum. -/
  | max (l : LaneIx) (d : DReg) (a : DReg) (b : DReg)
  /-- ABS (R336): Saturating absolute value. -/
  | abs (l : LaneIx) (d : DReg) (a : DReg)
  /-- NEG (R336): Saturating negation. -/
  | neg (l : LaneIx) (d : DReg) (a : DReg)
  /-- SLT (R336): Dd = 1 if Da < Db signed. -/
  | slt (l : LaneIx) (d : DReg) (a : DReg) (b : DReg)
  /-- SLTU (R336): Dd = 1 if Da < Db unsigned. -/
  | sltu (l : LaneIx) (d : DReg) (a : DReg) (b : DReg)
  /-- SEQ (R336): Dd = 1 if Da = Db. -/
  | seq (l : LaneIx) (d : DReg) (a : DReg) (b : DReg)
  /-- SELNZ (R336): Dd = Da if Dc ≠ 0, else Db. -/
  | selnz (l : LaneIx) (d : DReg) (a : DReg) (b : DReg) (c : DReg)
  /-- MUL (R336): Low 32 bits of Da × Db, timed as a multiplier result. -/
  | mul (l : LaneIx) (d : DReg) (a : DReg) (b : DReg)
  /-- CLS (R336): Counts the bits below bit 31 equal to bit 31. -/
  | cls (l : LaneIx) (d : DReg) (a : DReg)
  /-- MOV (R336): Dd = Da. -/
  | mov (l : LaneIx) (d : DReg) (a : DReg)
  /-- ADDI (R335): Dd = Da + IMM16. -/
  | addi (l : LaneIx) (d : DReg) (a : DReg) (imm : BitVec 16)
  /-- MOVI (R335): Dd = sign-extended IMM16. -/
  | movi (l : LaneIx) (d : DReg) (imm : BitVec 16)
  /-- MOVHI (R335): Dd[31:16] = IMM16. -/
  | movhi (l : LaneIx) (d : DReg) (imm : BitVec 16)
  /-- ANDI (R335): Dd = Da AND zero-extended IMM16. -/
  | andi (l : LaneIx) (d : DReg) (a : DReg) (imm : BitVec 16)
  /-- ORI (R335): Dd = Da OR zero-extended IMM16. -/
  | ori (l : LaneIx) (d : DReg) (a : DReg) (imm : BitVec 16)
  /-- ASHI (R335): Arithmetic shift of Da by IMM16. -/
  | ashi (l : LaneIx) (d : DReg) (a : DReg) (imm : BitVec 16)
  /-- LSHI (R335): Logical shift of Da by IMM16. -/
  | lshi (l : LaneIx) (d : DReg) (a : DReg) (imm : BitVec 16)
  /-- LD (R321): Loads Dd from the data store or crossbar, stopping on a forbidden access. -/
  | ld (l : LaneIx) (d : DReg) (p : PReg) (sp : Bool) (f : AddrForm)
  /-- ST (R323): Stores Dd locally at once or into the commit buffer. -/
  | st (l : LaneIx) (d : DReg) (p : PReg) (sp : Bool) (f : AddrForm)
  /-- LD2 (R335): Loads Dd and Dd+1 from two consecutive words. -/
  | ld2 (l : LaneIx) (d : DReg) (p : PReg) (sp : Bool) (f : AddrForm)
  /-- ST2 (R335): Stores Dd and Dd+1 to two consecutive words. -/
  | st2 (l : LaneIx) (d : DReg) (p : PReg) (sp : Bool) (f : AddrForm)
  /-- LDSIG (R324): Reads a signal named by a Table 4-2 selector. -/
  | ldsig (l : LaneIx) (d : DReg) (sel : BitVec 16)
  /-- SACST (R326): Stores the rounded, scaled, saturated accumulator to memory. -/
  | sacst (l : LaneIx) (acc : AccReg) (p : PReg) (sp : Bool) (f : AddrForm) (s : BitVec 6)
  /-- MPY (R325): ACCn = fractional product of Da and Db. -/
  | mpy (l : LaneIx) (acc : AccReg) (a : DReg) (b : DReg)
  /-- MAC (R325): Adds the fractional product to ACCn. -/
  | mac (l : LaneIx) (acc : AccReg) (a : DReg) (b : DReg)
  /-- MSU (R325): Subtracts the fractional product from ACCn. -/
  | msu (l : LaneIx) (acc : AccReg) (a : DReg) (b : DReg)
  /-- MPYI (R325): ACCn = integer product. -/
  | mpyi (l : LaneIx) (acc : AccReg) (a : DReg) (b : DReg)
  /-- MACI (R325): Adds the integer product to ACCn. -/
  | maci (l : LaneIx) (acc : AccReg) (a : DReg) (b : DReg)
  /-- MSUI (R325): Subtracts the integer product from ACCn. -/
  | msui (l : LaneIx) (acc : AccReg) (a : DReg) (b : DReg)
  /-- SAC (R326): Dd = rounded, scaled, saturated accumulator. -/
  | sac (l : LaneIx) (d : DReg) (acc : AccReg) (s : BitVec 6)
  /-- MPYR (R326): Dd = rounded fractional product. -/
  | mpyr (l : LaneIx) (d : DReg) (a : DReg) (b : DReg)
  /-- MOVA (R336): ACCn = sign-extension of Da:Db. -/
  | mova (l : LaneIx) (acc : AccReg) (a : DReg) (b : DReg)
  /-- ADDA (R336): ACCn = ACCn + ACCb. -/
  | adda (l : LaneIx) (acc : AccReg) (accb : AccReg)
  /-- SUBA (R336): ACCn = ACCn − ACCb. -/
  | suba (l : LaneIx) (acc : AccReg) (accb : AccReg)
  /-- ASHA (R336): ACCn shifted by S, saturating at 72 bits. -/
  | asha (l : LaneIx) (acc : AccReg) (s : BitVec 6)
  /-- CLRA (R336): ACCn = 0. -/
  | clra (l : LaneIx) (acc : AccReg)
  /-- ADDAD (R336): Adds sign-extended Da:Db to ACCn. -/
  | addad (l : LaneIx) (acc : AccReg) (a : DReg) (b : DReg)
  /-- SUBAD (R336): Subtracts sign-extended Da:Db from ACCn. -/
  | subad (l : LaneIx) (acc : AccReg) (a : DReg) (b : DReg)
  /-- RDL (R336): Dd = ACCn[31:0]. -/
  | rdl (l : LaneIx) (d : DReg) (acc : AccReg)
  /-- RDH (R336): Dd = ACCn[63:32]. -/
  | rdh (l : LaneIx) (d : DReg) (acc : AccReg)
  /-- RDG (R336): Dd = sign-extended guard bits of ACCn. -/
  | rdg (l : LaneIx) (d : DReg) (acc : AccReg)
  /-- SATA (R336): Clamps ACCn to the signed 64-bit range. -/
  | sata (l : LaneIx) (acc : AccReg)
  /-- B (R335): Branches to TARGET after the delay slot. -/
  | b (l : LaneIx) (target : BitVec 12)
  /-- CALL (R335): Pushes the return index and branches to TARGET. -/
  | call (l : LaneIx) (target : BitVec 12)
  /-- RET (R335): Pops the return stack and branches. -/
  | ret (l : LaneIx)
  /-- BEQZ (R335): Branches when Da = 0. -/
  | beqz (l : LaneIx) (a : DReg) (target : BitVec 12)
  /-- BNEZ (R335): Branches when Da ≠ 0. -/
  | bnez (l : LaneIx) (a : DReg) (target : BitVec 12)
  /-- BLTZ (R335): Branches when Da < 0. -/
  | bltz (l : LaneIx) (a : DReg) (target : BitVec 12)
  /-- BGEZ (R335): Branches when Da ≥ 0. -/
  | bgez (l : LaneIx) (a : DReg) (target : BitVec 12)
  /-- BGTZ (R335): Branches when Da > 0. -/
  | bgtz (l : LaneIx) (a : DReg) (target : BitVec 12)
  /-- BLEZ (R335): Branches when Da ≤ 0. -/
  | blez (l : LaneIx) (a : DReg) (target : BitVec 12)
  /-- LOOPI (R330): Starts a hardware loop with an immediate count. -/
  | loopi (l : LaneIx) (lvl : Bool) (len : BitVec 10) (count : BitVec 15)
  /-- LOOPR (R330): Starts a hardware loop with a clamped register count. -/
  | loopr (l : LaneIx) (lvl : Bool) (len : BitVec 10) (a : DReg) (mx : BitVec 11)
  /-- LOOP_COUNT_EXPIRY (R330): LC reaches 0 after the last body instruction and execution continues after LE. -/
  | loopCountExpiry (l : LaneIx) (lvl : Bool)
  /-- MOVP (R335): Pn = IMM20. -/
  | movp (l : LaneIx) (p : PReg) (imm : BitVec 20)
  /-- MOVM (R335): Mm = IMM16. -/
  | movm (l : LaneIx) (p : PReg) (imm : BitVec 16)
  /-- PREG_SET_P (R335): Pn = Da[19:0]. -/
  | pregSetP (l : LaneIx) (p : PReg) (a : DReg)
  /-- PREG_GET_P (R335): Dd = Pn zero-extended. -/
  | pregGetP (l : LaneIx) (p : PReg) (d : DReg)
  /-- PREG_ADD_M (R335): Pn = Pn + Mm. -/
  | pregAddM (l : LaneIx) (p : PReg) (mm : PReg)
  /-- PREG_SET_M (R335): Mm = Da[15:0]. -/
  | pregSetM (l : LaneIx) (mm : PReg) (a : DReg)
  /-- PREG_GET_M (R335): Dd = Mm sign-extended. -/
  | pregGetM (l : LaneIx) (mm : PReg) (d : DReg)
  /-- SAVEL (R332): Copies the loop registers into Dd to Dd+2. -/
  | savel (l : LaneIx) (d : DReg)
  /-- RESTL (R332): Restores the loop registers from Dd to Dd+2. -/
  | restl (l : LaneIx) (d : DReg)
  /-- END (R323): Ends the activation and applies the commit buffer to plate memory. -/
  | end_ (l : LaneIx)
  /-- CLRSAT (R335): Clears LSR.SAT. -/
  | clrsat (l : LaneIx)
  /-- SYS_READ_LSR (R335): Dd = LSR. -/
  | sysReadLsr (l : LaneIx) (d : DReg)
  /-- POWER_ON (R444): VIN rising through 7.8 V or VAUX entering range brings the always-on domain out of reset and starts the power-up sequence at t0. -/
  | powerOn (byVin : Bool) (madr : BitVec 2)
  /-- POWER_UP_STEP_COMPLETE (R445): Completion of a timed step of the power-up sequence of Table 19-1 moves the device to the next step. -/
  | powerUpStepComplete (info : BootInfo)
  /-- VIO_WAIT_TIMEOUT (R448): VIO absent for 100 ms at step 5 makes the device default the straps and set BOOT_STATUS.NO_VIO. -/
  | vioWaitTimeout
  /-- VIN_LOCKOUT (R446): VIN falling below 7.2 V resets the core domain and returns power-up to step 2 while TIME.TICK keeps counting. -/
  | vinLockout
  /-- RST_N_RESET (R459): A low level of at least 1 µs on RST_N resets the core domain, removes gates, applies brakes and restarts at step 2. -/
  | rstNReset
  /-- WATCHDOG_RESET (R459): The supervisor watchdog unserved for 10 ms resets the core domain and restarts at step 2. -/
  | watchdogReset
  /-- FRAME_BOUNDARY (R22): At B_k edges begin, the sample set is latched, counters update, a due strike applies, the next frame length is fixed and a power or operating-point change starts. -/
  | frameBoundary
  /-- SAMPLE_PUBLISH (R19): At B_k + 32 the sample set is published, live commands are read and frame-synchronous tasks are released. -/
  | samplePublish
  /-- PROFILE_PASS (R172): The profile and gearing unit takes the live MOT and GROUP registers and computes the next set-points for every motion axis and group. -/
  | profilePass
  /-- COMMIT_CUTOFF (R19): At B_{k+1} − L_c committed outputs are converted to edges and edge commands start over PLINK. -/
  | commitCutoff
  /-- TASK_DISPATCH (R72): A free lane takes the next ready urgent, frame-synchronous or background work and runs it. -/
  | taskDispatch (lane : LaneIx)
  /-- URGENT_TRIGGER (R74): A rising edge of an urgent task's trigger event releases the task or holds and merges it. -/
  | urgentTrigger (lane : LaneIx) (slot : SlotIx)
  /-- URGENT_HOLD_EXPIRY (R74): The minimum inter-arrival time of a held urgent trigger elapses and the task is released. -/
  | urgentHoldExpiry (lane : LaneIx) (slot : SlotIx)
  /-- URGENT_PREEMPTION (R332): A released urgent task preempts the work in progress after the current instruction or delay slot. -/
  | urgentPreemption (lane : LaneIx)
  /-- BOUND_ABORT (R75): An activation reaching TASK_BOUND is stopped uncommitted and counts as a lane fault. -/
  | boundAbort (lane : LaneIx)
  /-- BACKGROUND_SLICE_END (R333): A background slice ends after 256 instructions and its loop registers are saved. -/
  | backgroundSliceEnd (lane : LaneIx)
  /-- SELFTEST_PASS_DONE (R89): A lane completes a self-test pass and compares it with the fused signature. -/
  | selftestPassDone (lane : LaneIx) (ok : Bool)
  /-- SELFTEST_LATE (R89): SELFTEST_PERIOD runs out with a pass incomplete, setting SELFTEST_LATE and logging. -/
  | selftestLate (lane : LaneIx)
  /-- TIME_REF_LOST (R15): No reference edge for 2 µs puts the PLL in holdover, removes all gates and applies SBC. -/
  | timeRefLost
  /-- PLL_RELOCK (R15): The PLL relocks to a returned reference and HOLDOVER clears. -/
  | pllRelock
  /-- OP_RAMP_END (R31): The core-voltage ramp of an operating-point change ends and the new point is in force. -/
  | opRampEnd
  /-- PLINK_SYNC (R24): A SYNC frame aligns the power die's tick counter to TIME.TICK. -/
  | plinkSync (frame : BitVec 40)
  /-- PLINK_SET (R250): A SET frame loads a power-die setting, gate removal or override. -/
  | plinkSet (frame : BitVec 40)
  /-- PLINK_EDGE (R251): An EDGE frame is resolved to a target tick and queued, or discarded as late or overflowing. -/
  | plinkEdge (frame : BitVec 40)
  /-- PLINK_IDLE (R250): An IDLE frame keeps the link alive when no other frame is due. -/
  | plinkIdle (frame : BitVec 40) (up : Bool)
  /-- EDGE_EXECUTE (R251): The power die executes a queued edge at its target tick subject to interlocks. -/
  | edgeExecute (leg : LegIx)
  /-- LEGSTAT (R250): An uplink LEGSTAT frame reports a leg's VDS, BSUV, XCMD and dead times to the control die. -/
  | legstat (frame : BitVec 40)
  /-- DCL (R250): An uplink DCL frame reports comparator states, VIN flags and VIN. -/
  | dcl (frame : BitVec 40)
  /-- PLINK_HK (R250): An uplink HK frame delivers a power-die housekeeping value. -/
  | plinkHk (frame : BitVec 40)
  /-- DIAG (R250): An uplink DIAG frame delivers a PRECHECK step result. -/
  | diag (frame : BitVec 40)
  /-- ECHO (R250): An uplink ECHO frame loops back the last SYNC body for delay measurement. -/
  | echo (frame : BitVec 40)
  /-- PLINK_LOST (R253): No valid frame for 1 µs or three failed frames turn all internal gates off and raise PLINK_LOST. -/
  | plinkLost
  /-- PLINK_LINK_UP (R253): Link bring-up completes, PLINK_LOCK returns and power-die settings are resent. -/
  | plinkLinkUp (delay : BitVec 16)
  /-- VDS_BLANK_END (R261): A switch's blanking time ends and its VDS monitor starts watching. -/
  | vdsBlankEnd (leg : LegIx) (high : Bool)
  /-- VDS_TRIP (R261): VDS above the trip level for 48 ns turns the switch off, reports the trip and counts a leg fault. -/
  | vdsTrip (leg : LegIx) (high : Bool)
  /-- BSUV (R259): A bootstrap supply below 7.0 V turns that high side off and counts a BSUV onset. -/
  | bsuv (leg : LegIx)
  /-- CPUV (R260): VCP below 8.0 V above VDRN turns every charge-pump-class high side off. -/
  | cpuv
  /-- CPUV_RELEASE (R260): VCP above 8.5 V lets charge-pump high sides follow their commands again. -/
  | cpuvRelease
  /-- VGD_UV (R256): VGD below 8.0 V turns all internal legs off and raises VGD_UV. -/
  | vgdUv
  /-- VGD_RELEASE (R256): VGD above 8.5 V releases the drivers and legs resume under R480. -/
  | vgdRelease
  /-- VIN_OV (R264): VIN above 67 V turns all internal legs off and raises VIN_OV. -/
  | vinOv
  /-- VIN_OV_RELEASE (R264): VIN below 66 V releases the drivers and legs resume under R480. -/
  | vinOvRelease
  /-- DCL_COMPARATOR_CHANGE (R265): A DC-link comparator sets or clears after 250 ns, forcing or releasing the chopper. -/
  | dclComparatorChange (n : Fin 4) (set : Bool)
  /-- PWM_SNAPSHOT (R233): 64 ticks before a reload the generator freezes a snapshot of the leg's shadow. -/
  | pwmSnapshot (leg : LegIx)
  /-- PWM_RELOAD (R233): At the reload instant a leg takes period and duty from its snapshot when armed. -/
  | pwmReload (leg : LegIx)
  /-- PWM_DUTY_WRITE (R232): A DUTY write enters the shadow, is counted late inside the freeze window, or is ignored while a source delivers. -/
  | pwmDutyWrite (leg : LegIx) (v : Word)
  /-- PWM_PERIOD_WRITE (R247): A PERIOD write enters the shadow of a free leg; an out-of-range value is refused at reload. -/
  | pwmPeriodWrite (leg : LegIx) (v : Word)
  /-- PWM_UPDATE_CONTROL (R235): A CTRL write sets UPD_ARM or UPD_ONCE for the leg's reloads. -/
  | pwmUpdateControl (leg : LegIx) (v : Word)
  /-- PWM_OVERRIDE (R243): A CTRL write setting OVR_EN drives a leg's switches directly, or clearing it returns the leg to OFF. -/
  | pwmOverride (leg : LegIx) (v : Word)
  /-- NODE_CROSSING (R237): The switching node crosses its threshold and adaptive dead time turns the incoming switch on. -/
  | nodeCrossing (leg : LegIx) (ns : Nat)
  /-- DEADTIME_EXPIRY (R237): DT_MAX passes without a node crossing and the transition is hard-switched. -/
  | deadtimeExpiry (leg : LegIx)
  /-- CHOPPER_SWITCH_FAULT (R268): SWFB reports a fault later than CHOP_BLANK after PWMH went active, judging the chopper faulty. -/
  | chopperSwitchFault
  /-- CHOPPER_TEST_EXPIRY (R268): CHOP_TIME passes in a test window without the DC link falling by CHOP_STEP, judging the chopper faulty. -/
  | chopperTestExpiry
  /-- PRECHECK_STEP (R271): A settle interval of the off-state test ends, nodes are read and the next step or the result follows. -/
  | precheckStep (u : Byte) (v : Byte) (w : Byte) (compOk : Bool) (supplyOk : Bool)
  /-- STAGE_OPEN (R44): Opens a stage owned by the issuer with every staged half set equal to its live half. -/
  | stageOpen (m : Master) (seq : Byte) (arg8 : Byte)
  /-- STAGE_DISCARD (R66): Closes the stage without applying it, abandoning a proof or cancelling an armed strike. -/
  | stageDiscard (m : Master) (seq : Byte) (arg8 : Byte)
  /-- PROOF (R57): Starts proof of the candidate configuration. -/
  | proof (m : Master) (seq : Byte) (arg8 : Byte)
  /-- STRIKE (R61): Arms a strike of a proved stage at the first boundary at least two frames later. -/
  | strike (m : Master) (seq : Byte) (arg8 : Byte)
  /-- STRIKE_AT (R64): Arms a strike of a proved stage at a network time. -/
  | strikeAt (m : Master) (seq : Byte) (arg8 : Byte)
  /-- PROOF_STRIKE (R53): Proves the candidate and arms a strike if the proof passes. -/
  | proofStrike (m : Master) (seq : Byte) (arg8 : Byte)
  /-- PRECHECK (R270): Starts the off-state diagnostics of a disabled axis on internal legs. -/
  | precheck (m : Master) (seq : Byte) (arg8 : Byte)
  /-- SAFE_STOP (R68): Applies STOP_REACT to one axis or all axes from either master in any state. -/
  | safeStop (m : Master) (seq : Byte) (arg8 : Byte)
  /-- CLEAR_EVENTS (R52): Clears PAGE_FAULT bits whose cause has ended and the counters cleared by it. -/
  | clearEvents (m : Master) (seq : Byte) (arg8 : Byte)
  /-- READMIT (R55): Marks a retired channel as readmitted in the host's stage. -/
  | readmit (m : Master) (seq : Byte) (arg8 : Byte)
  /-- SAVE_IMAGE (R439): Starts storing the configuration in force as an image in the impression log. -/
  | saveImage (m : Master) (seq : Byte) (arg8 : Byte)
  /-- STAGED_WRITE (R45): A write to a staged register goes to the stage and marks the page dirty, or is discarded. -/
  | stagedWrite (m : Master) (addr : Addr) (v : Word)
  /-- PROOF_DONE (R60): A proof completes, the stage becomes PROVED or FAILED and PROOF_RESULT is written. -/
  | proofDone
  /-- STAGE_EXPIRED (R48): The owning master makes no access for longer than the lease and the stage is discarded. -/
  | stageExpired
  /-- RETRY_WINDOW_EXPIRY (R284): A channel not back in service when RETRY_WIN ends counts a further onset. -/
  | retryWindowExpiry (c : ChanId)
  /-- REPROOF_DONE (R91): The re-proof after a retirement completes and writes REPROOF_RESULT. -/
  | reproofDone
  /-- POWER_REQ (R83): A write to SCHED.POWER_REQ requests a power state or is refused. -/
  | powerReq (v : Word)
  /-- AXIS_ENABLE (R277): Takes a DISABLED axis to READY and starts offset capture. -/
  | axisEnable (axis : AxisIx)
  /-- AXIS_RUN (R277): Takes a READY axis to RUN at the next boundary. -/
  | axisRun (axis : AxisIx)
  /-- AXIS_STOP (R277): Takes a running axis to STOPPING and to READY at rest. -/
  | axisStop (axis : AxisIx)
  /-- AXIS_DISABLE (R277): Takes a READY axis to DISABLED. -/
  | axisDisable (axis : AxisIx)
  /-- AXIS_CLEAR (R277): Takes a faulted axis to DISABLED, or RETIRED when it uses a retired channel. -/
  | axisClear (axis : AxisIx)
  /-- OFFSET_CAPTURE_DONE (R135): 256 offset samples are taken and OFFSET0 and OFFSET1 are set, permitting RUN. -/
  | offsetCaptureDone (axis : AxisIx)
  /-- BURNISHER_OFFSET_UPDATE (R136): After 1024 V7 samples the mean is accepted as OFFSET0 or rejected with SENSE_OFFSET. -/
  | burnisherOffsetUpdate (axis : AxisIx)
  /-- SD_OFFSET_REFRESH (R137): A READY sigma-delta axis with legs off for 5 ms refreshes its offsets. -/
  | sdOffsetRefresh (axis : AxisIx)
  /-- SD_STREAM_STALL (R146): A sigma-delta bitstream without a transition for 64 modulator clocks is a channel fault. -/
  | sdStreamStall (ch : Fin 8)
  /-- CATCH_TIME_EXPIRY (R143): CATCH_TIME ends without observer lock and the forced start begins. -/
  | catchTimeExpiry (axis : AxisIx)
  /-- RESTART_TIMEOUT (R140): A restart attempt not succeeded within CATCH_TIME + START_TIMEOUT fails and the axis goes to FAULT. -/
  | restartTimeout (axis : AxisIx)
  /-- FB_EDGE_ACCEPTED (R152): A line level held for FILT ticks is accepted, stamped and counted under the interface mode. -/
  | fbEdgeAccepted (fb : FbIx) (stamp : Nat) (zba : BitVec 3)
  /-- ABS_ACQUISITION_START (R159): At B_k − ACQ_LEAD an SSI or ABS_CRC acquisition starts. -/
  | absAcquisitionStart (fb : FbIx) (idle : Bool)
  /-- ABS_ACQUISITION_DONE (R160): The last bit is checked and the word is extended to a 64-bit position or faulted. -/
  | absAcquisitionDone (fb : FbIx) (r : AbsResult)
  /-- ABS_TIMEOUT_EXPIRY (R164): The data line does not return idle or the start pattern does not arrive within TIMEOUT, an ACQ fault. -/
  | absTimeoutExpiry (fb : FbIx)
  /-- FB_LINE_FAULT (R164): A used pair below 150 mV for more than 1 µs is a LINE fault and puts the interface in retry. -/
  | fbLineFault (fb : FbIx)
  /-- FB_REACQUIRE (R165): The re-acquisition condition of Table 6-3 is met and VALID returns at the next boundary. -/
  | fbReacquire (fb : FbIx)
  /-- FB_STANDSTILL (R161): Edge age reaching STANDSTILL sets the speed to 0 and STANDSTILL. -/
  | fbStandstill (fb : FbIx)
  /-- FB_LOST (R166): VALID = 0 in more than RIDE sample sets raises FB_LOST on every axis that uses the interface. -/
  | fbLost (fb : FbIx)
  /-- POS_LOAD (R158): A write of 1 to LOAD_CMD loads POS_LOAD at the next boundary or is refused. -/
  | posLoad (fb : FbIx) (v : Word)
  /-- MOVE_ABS (R177): Starts a profile move to TARGET. -/
  | moveAbs (axis : AxisIx)
  /-- MOVE_REL (R177): Starts a profile move to POS_SP + TARGET. -/
  | moveRel (axis : AxisIx)
  /-- JOG (R180): Runs the axis toward JOG_V under the limits. -/
  | jog (axis : AxisIx)
  /-- MOT_STOP (R176): Decelerates to rest, abandoning the target or disengaging the gear. -/
  | motStop (axis : AxisIx)
  /-- GEAR_ENGAGE (R192): Engages the gear at once with GEAR_NUM / GEAR_DEN without a step. -/
  | gearEngage (axis : AxisIx)
  /-- GEAR_ARM (R192): Arms an engagement or ratio change at SWITCH_POS of the master. -/
  | gearArm (axis : AxisIx)
  /-- GEAR_DISENGAGE (R176): Disengages the gear and decelerates at DEC. -/
  | gearDisengage (axis : AxisIx)
  /-- SWITCH_CANCEL (R176): Disarms a pending gear switch. -/
  | switchCancel (axis : AxisIx)
  /-- STEP_PULSE (R181): A scheduled step pulse or direction change is emitted on STEP and DIR. -/
  | stepPulse (axis : AxisIx)
  /-- PUSH (R184): Queues the assembled segment of a path group or refuses it. -/
  | push (g : Fin 4)
  /-- FLUSH (R186): Brings the path to rest at PATH_ACC and discards the queue. -/
  | flush (g : Fin 4)
  /-- COMPARE_ARM (R188): A write of ARM = 1 arms a compare unit, or disarms it as passed. -/
  | compareArm (axis : AxisIx) (unit : Fin 2) (v : Word)
  /-- COMPARE_PULSE_END (R189): PULSE_US after a firing the compare output pulse ends. -/
  | comparePulseEnd (axis : AxisIx) (unit : Fin 2)
  /-- LATCH_ARM (R190): A write to LATCHu_CTRL arms a position latch. -/
  | latchArm (axis : AxisIx) (unit : Fin 2) (v : Word)
  /-- SHARE_REF (R207): A received SHARE_REF supplies T_TOT and PRESENT for the share group. -/
  | shareRef (port : PortIx) (node : BitVec 10) (group : Byte) (tTot : Word) (present : Word) (stamp : BitVec 64) (sq : BitVec 16) (bridged : Bool)
  /-- SHARE_STAT (R208): A received SHARE_STAT updates the leader's view of a node's slots and CRC. -/
  | shareStat (port : PortIx) (node : BitVec 10) (group : Byte) (slots : Word) (crc : BitVec 16)
  /-- MAINS_LOSS_QUALIFIED (R211): A loss condition held for LOSS_TIME requests RESCUE and starts the rescue sequence. -/
  | mainsLossQualified
  /-- MAINS_RETURN_QUALIFIED (R213): No loss condition for RETURN_TIME qualifies mains return and may end the sequence. -/
  | mainsReturnQualified
  /-- RESCUE_START (R211): A write of 1 to RESCUE_CMD.START starts the rescue sequence in RESCUE. -/
  | rescueStart
  /-- RESCUE_BRAKE_HOLD_EXPIRY (R212): BRAKE_HOLD_T after SBC the rescue axis gates are removed. -/
  | rescueBrakeHoldExpiry
  /-- RESCUE_SETTLE_EXPIRY (R212): SETTLE_TIME ends and the converter starts. -/
  | rescueSettleExpiry
  /-- CONVERTER_READY (R214): UDC within ±5 % of CONV_UDC for 20 ms makes the converter ready and starts the test. -/
  | converterReady
  /-- CONVERTER_TIMEOUT (R214): The converter not ready within READY_TIMEOUT aborts the sequence. -/
  | converterTimeout
  /-- RESCUE_BRAKE_LIFT_EXPIRY (R215): BRAKE_LIFT_T ends and averaging of TORQUE_EST begins. -/
  | rescueBrakeLiftExpiry
  /-- RESCUE_TEST_DONE (R216): TEST_T ends, HOLD_TQ sets the light direction and the target landing is chosen. -/
  | rescueTestDone
  /-- RESCUE_TRAVEL_TIMEOUT (R216): AT_TARGET not reached within TRAVEL_MAX aborts the sequence. -/
  | rescueTravelTimeout
  /-- ASC_RELEASE (R221): Speed below ASC_SPEED / 100 for 100 ms ends the active short circuit with gate removal. -/
  | ascRelease (axis : AxisIx)
  /-- STO_DEMAND (R286): STOIN low for STO_FILT removes gates, stops steps and applies brakes on STO_AXES. -/
  | stoDemand
  /-- STO_RELEASE (R286): STOIN healthy for 10 ms ends the STO demand and clears STO_ACTIVE. -/
  | stoRelease
  /-- STO_READBACK (R289): 10 µs after a STO demand the outputs are read back, raising STO_PATH if unconfirmed. -/
  | stoReadback (confirmed : Bool)
  /-- STO_TEST_DUE (R290): The hours since the last STOIN demand reach STO_TEST_MAX. -/
  | stoTestDue
  /-- SEL_HOST (R291): A write to SEL_HOST selects or deselects SLS, SOS or SDI for an axis. -/
  | selHost (v : Word)
  /-- SAFETY_MONITOR_START (R293): SEL_DELAY after selection the SLS, SOS or SDI monitoring begins. -/
  | safetyMonitorStart (axis : AxisIx) (fn : SafeFn)
  /-- SS1_TIMEOUT (R292): SS1_TMAX passes and SS1 ends with STO. -/
  | ss1Timeout (axis : AxisIx)
  /-- BRAKE_RELEASE (R279): BRK_REL_T after entering RUN the brake output is energised. -/
  | brakeRelease (axis : AxisIx)
  /-- BRAKE_SET_EXPIRY (R279): BRK_SET_T after SBC the legs stop or STO follows. -/
  | brakeSetExpiry (axis : AxisIx)
  /-- BRAKE_FB_TIMEOUT (R298): The brake feedback input does not show the new state within BRK_FB_T. -/
  | brakeFbTimeout (slot : Fin 8) (axis : AxisIx)
  /-- TEST_PULSE (R295): A TP0 or TP1 low pulse runs and the inputs it feeds are checked. -/
  | testPulse (tp : Fin 2) (low : BitVec 16) (high : BitVec 16) (followed : Bool)
  /-- DEGRADED_EXPIRED (R301): DEG_WIN after entry to DEGRADED the source DEGRADED_EXPIRED is raised. -/
  | degradedExpired (axis : AxisIx)
  /-- FLINK_UPLINK_FRAME (R306): An uplink frame delivers STO, VOK, DI samples and VSAG to the control die. -/
  | flinkUplinkFrame (frame : BitVec 25)
  /-- FLINK_DOWNLINK_FRAME (R311): A downlink frame sets the field outputs and TP levels on the field die. -/
  | flinkDownlinkFrame
  /-- FLINK_AUX_WORD (R307): A complete 64-frame auxiliary word is received and applied. -/
  | flinkAuxWord (down : Bool) (w : BitVec 64)
  /-- FLINK_LOST (R29): No valid frame for 4 µs turns field outputs off and invalidates inputs. -/
  | flinkLost
  /-- FLINK_RECOVERED (R29): 1000 consecutive valid frames return IN_VALID to 1. -/
  | flinkRecovered
  /-- DI_DEBOUNCE_ACCEPT (R308): DEB consecutive valid samples accept a new input level. -/
  | diDebounceAccept (di : Fin 16)
  /-- OPEN_WIRE_SET (R310): Input current below 0.25 mA for 10 ms sets the open-wire bit. -/
  | openWireSet (di : Fin 16)
  /-- OPEN_WIRE_CLEAR (R310): Input current at or above 0.35 mA for 10 ms clears the open-wire bit. -/
  | openWireClear (di : Fin 16)
  /-- DO_THERMAL_OFF (R312): An overloaded output reaching its thermal limit is switched off. -/
  | doThermalOff (n : Fin 8)
  /-- DO_THERMAL_RETRY (R312): 100 ms after a thermal switch-off the output is switched on again. -/
  | doThermalRetry (n : Fin 8)
  /-- VF_SAG (R314): VF below 19.2 V sets VF_SAG and FLT. -/
  | vfSag
  /-- VF_CUT (R314): VF below 15.0 V for more than 200 µs turns all field outputs off. -/
  | vfCut
  /-- VF_RESTORED (R314): VF above 18.0 V for 20 ms after a cut restores the outputs. -/
  | vfRestored
  /-- CAN_FRAME_RECEIVED (R345): A valid frame is taken by Bilva or delivered to the receive window or DMA. -/
  | canFrameReceived (port : PortIx) (f : CanFrame)
  /-- CAN_TX_REQUEST (R347): A write of 1 to a TX_REQ bit requests a transmit buffer or is refused. -/
  | canTxRequest (port : PortIx) (v : Word)
  /-- CAN_TX_ABORT (R347): A write of 1 to a TX_ABORT bit withdraws a request not yet in arbitration. -/
  | canTxAbort (port : PortIx) (v : Word)
  /-- CAN_TX_DONE (R347): A frame completes transmission, setting TX_DONE and clearing TX_REQ. -/
  | canTxDone (port : PortIx) (tdc : Byte)
  /-- CAN_BUSOFF (R351): The transmit error counter exceeds 255, the port enters bus-off and counts an onset. -/
  | canBusoff (port : PortIx)
  /-- CAN_RECOVER (R350): A write of CMD.RECOVER starts bus-off recovery under HOST recovery. -/
  | canRecover (port : PortIx)
  /-- CAN_RECOVERED (R350): The recovery sequence ends and the port is error-active again. -/
  | canRecovered (port : PortIx)
  /-- RX_SLOT_LOCK (R346): A read of word 0 of an unread receive slot locks it to the reader. -/
  | rxSlotLock (port : PortIx) (slot : Fin 128) (reader : Reader)
  /-- RX_SLOT_RELEASE (R346): The locking reader's read of word 19 frees the slot. -/
  | rxSlotRelease (port : PortIx) (slot : Fin 128) (reader : Reader)
  /-- BILVA_SYNC (R359): A received SYNC is stamped as t2 by the time interrupt. -/
  | bilvaSync (port : PortIx) (node : BitVec 10) (sq : Byte)
  /-- FOLLOW_UP (R360): A matching FOLLOW_UP completes a time exchange and drives the slave state machine and rate. -/
  | followUp (port : PortIx) (node : BitVec 10) (sq : Byte) (t1 : BitVec 64) (gm : BitVec 16) (hops : Byte) (stepGen : Byte)
  /-- TIME_CTRL (R363): A received TIME_CTRL with a newer STEP_GEN acts as RELOCK. -/
  | timeCtrl (port : PortIx) (node : BitVec 10) (sub : Byte) (stepGen : Byte)
  /-- BILVA_STRIKE_AT (R368): A received STRIKE_AT is ignored or armed as a strike and answered with STRIKE_ACK. -/
  | bilvaStrikeAt (port : PortIx) (node : BitVec 10) (t : BitVec 64) (tag : BitVec 16) (orig : BitVec 16)
  /-- STRIKE_CANCEL (R368): A received STRIKE_CANCEL with a matching tag cancels the armed strike. -/
  | strikeCancel (port : PortIx) (node : BitVec 10) (tag : BitVec 16) (orig : BitVec 16)
  /-- STRIKE_ACK (R369): A received STRIKE_ACK for this originator is counted or recorded as a refusal. -/
  | strikeAck (port : PortIx) (node : BitVec 10) (tag : BitVec 16) (orig : BitVec 16) (code : Byte) (st : Byte)
  /-- BILVA_FORWARD (R355): A bridge forwards a queued frame to its other port. -/
  | bilvaForward (port : PortIx)
  /-- SYNC_SEND (R358): Every 100 ms a grandmaster, bridge or backup master sends SYNC and FOLLOW_UP. -/
  | syncSend (port : PortIx)
  /-- MASTER_LOSS (R362): No accepted exchange for 300 ms declares master loss. -/
  | masterLoss
  /-- BACKUP_MASTER_START (R362): A backup slave hearing no SYNC for p × 100 ms after master loss starts sending SYNC. -/
  | backupMasterStart
  /-- HOLDOVER_EXPIRY (R360): HOLD_MAX passes without an accepted exchange and the node goes UNLOCKED. -/
  | holdoverExpiry
  /-- RELOCK (R363): Permits one step of network time at the next exchange. -/
  | relock
  /-- NT_SET (R358): Steps a grandmaster's network time to NT_SET. -/
  | ntSet
  /-- BCAST_RELOCK (R363): A grandmaster increments STEP_GEN and sends TIME_CTRL. -/
  | bcastRelock
  /-- NETSTRIKE_SEND (R367): Sends STRIKE_AT with NETSTRIKE_T and tag, clears the acks and optionally applies it locally. -/
  | netstrikeSend (loc : Bool)
  /-- NETSTRIKE_CANCEL (R367): Sends STRIKE_CANCEL with the tag. -/
  | netstrikeCancel
  /-- TIME_PULSE (R370): A time-pulse output's active edge or end falls due. -/
  | timePulse (out : Fin 4) (active : Bool)
  /-- TELEMETRY_SEND (R440): Each PERIOD the configured telemetry records are sent or counted as skipped. -/
  | telemetrySend
  /-- DMA_GO (R390): Starts a SOFT channel, or restarts a channel in ERROR or IDLE. -/
  | dmaGo (c : ChanIx)
  /-- DMA_STOP (R390): Completes the burst in progress, writes back STOPPED and sets the channel IDLE. -/
  | dmaStop (c : ChanIx)
  /-- DMA_KICK (R381): Makes a waiting channel re-read its descriptor. -/
  | dmaKick (c : ChanIx)
  /-- DMA_RESUME (R389): Ends a DMA halt and lets channels not in ERROR continue. -/
  | dmaResume
  /-- DMA_AUTO_RESUME (R389): AUTO_RESUME ms after a halt the device resumes the engine. -/
  | dmaAutoResume
  /-- DMA_REQUEST (R380): An assertion of a request line releases work on its channel. -/
  | dmaRequest (line : Byte)
  /-- DMA_PERIOD_TRIGGER (R380): Every PERIOD ticks a PERIOD channel releases one descriptor. -/
  | dmaPeriodTrigger (c : ChanIx)
  /-- DMA_BURST (R383): A granted channel performs one burst and ends descriptors as they complete. -/
  | dmaBurst
  /-- TRACE_ARM (R398): Clears segment headers and starts segment 0 in PRE. -/
  | traceArm
  /-- TRACE_STOP (R398): Ends a capture in PRE or POST. -/
  | traceStop
  /-- TRACE_FORCE (R398): Forces a trigger in PRE. -/
  | traceForce
  /-- TRACE_CLEAR (R399): Returns a DONE capture to IDLE. -/
  | traceClear
  /-- TRACE_SAMPLE (R395): At a sample tick the probes are sampled, stored, checked against masks and triggers. -/
  | traceSample
  /-- TRACE_SEQ_WINDOW_EXPIRY (R401): The SEQ window opened by unit 0 closes after SEQ_WIN ticks. -/
  | traceSeqWindowExpiry
  /-- HOST_WRITE_FRAME (R411): A complete host write frame is checked and its words applied in address order. -/
  | hostWriteFrame (cmd : Byte) (addr : Addr) (ws : List Word) (hcrc : BitVec 16)
  /-- HOST_READ_FRAME (R412): A complete host read frame reads its words and returns STATUS, data and DCRC. -/
  | hostReadFrame (cmd : Byte) (addr : Addr) (hcrc : BitVec 16) (lateFrom : Nat)
  /-- HOST_FRAME_ABORT (R413): CS_N rising before the end of HCRC abandons the frame. -/
  | hostFrameAbort
  /-- MGMT_WRITE (R416): A management write transaction is checked and applied at P or refused whole. -/
  | mgmtWrite (addr : Addr) (len : Byte) (bytes : List Byte)
  /-- MGMT_READ (R418): A management read transaction returns COUNT, data and PEC. -/
  | mgmtRead (addr : Addr) (len : Byte)
  /-- MGMT_BUS_TIMEOUT (R417): SCL held low for more than 35 ms abandons the transaction. -/
  | mgmtBusTimeout
  /-- ALERT_RESPONSE (R419): The device answers the SMBus Alert Response Address while MALERT_N is asserted. -/
  | alertResponse
  /-- PAIR_LOW_READ (R6): A read of the low word of a live 64-bit register copies the high word into the master's holding register. -/
  | pairLowRead (m : Master) (addr : Addr)
  /-- PAIR_LOW_WRITE (R6): A write of the low word of a 64-bit register is held until the high word. -/
  | pairLowWrite (m : Master) (addr : Addr) (v : Word)
  /-- PAIR_HIGH_WRITE (R6): A write of the high word applies both words of a 64-bit register together. -/
  | pairHighWrite (m : Master) (addr : Addr) (v : Word)
  /-- LANE_CODE_WRITE (R339): A write to a lane instruction store is accepted outside protected code ranges or refused. -/
  | laneCodeWrite (m : Master) (addr : Addr) (v : Word)
  /-- REGISTER_WRITE (R7): A write to a register with no row of its own acts under its access code. -/
  | registerWrite (m : Master) (addr : Addr) (v : Word)
  /-- HK_ROUND_END (R425): A housekeeping round ends, publishes 24 channels, updates rates and sets the thermal level. -/
  | hkRoundEnd (r : HkRound)
  /-- THERMAL_COMPARATOR_TRIP (R431): A die's own comparator at its absolute limit latches SHUTDOWN and runs the shutdown sequence. -/
  | thermalComparatorTrip
  /-- AIN_TRIM_UPDATE (R434): After 1024 reference conversions the AIN offset and gain trims move by at most 2 LSB. -/
  | ainTrimUpdate (conv : Fin 2) (offset : Int) (gain : Int)
  /-- SCRUB_STEP (R432): The scraper checks 16 words, corrects single-bit errors and handles uncorrectable ones. -/
  | scrubStep (ce : BitVec 16) (ue : BitVec 16)
  /-- LOG_ENTRY_COMMIT (R437): A queued entry is written into its slot, opening the next sector when slot 14 fills. -/
  | logEntryCommit (verified : Bool)
  /-- LOG_WEAR_COPY (R438): A sector of the stored image is copied forward ahead of the head. -/
  | logWearCopy (verified : Bool)
  /-- IMAGE_SAVE_DONE (R439): An image save completes with its header written last, or fails. -/
  | imageSaveDone (verified : Bool)
  /-- TAP_RESET (R477): TMS high for five TCK periods resets the test logic. -/
  | tapReset
  /-- BYPASS (R477): The IEEE 1149.1 BYPASS instruction. -/
  | bypass
  /-- SAMPLE_PRELOAD (R477): The IEEE 1149.1 SAMPLE/PRELOAD instruction. -/
  | samplePreload
  /-- EXTEST (R477): Drives the STO removal input and lets balls be toggled; leaving it resets the core domain. -/
  | extest
  /-- IDCODE (R477): Returns the IDCODE 0x2730_07AB on stepping C1. -/
  | idcode
  /-- VIN_RISING (R445): VIN rising through 7.8 V while the always-on domain is already up lets the power-up sequence leave step 2. -/
  | vinRising
  /-- POWER_OFF (R36): VIN and VAUX are both removed, so the always-on domain loses power, TIME.TICK stops and a latched thermal shutdown ends. -/
  | powerOff
  /-- REF_RETURN (R15): Reference edges again arrive within 2 µs of each other and REF_OK returns to 1 before the PLL relocks. -/
  | refReturn
  /-- VF_SAG_CLEAR (R314): VF rising above 19.5 V clears VF_SAG and the FLT condition it caused. -/
  | vfSagClear
  /-- CAN_BUS_ERROR (R350): A protocol error detected on the bus updates the error counters, setting WARN or PASSIVE, or begins bus integration. -/
  | canBusError (port : PortIx) (tec : BitVec 9) (rec : Byte) (integ : Bool)
  /-- EXTERNAL_LEG_EDGE (R226): The control die drives the PWMH and PWML balls of an external leg at a commanded tick and triggers the sample instants placed there. -/
  | externalLegEdge (leg : LegIx) (rise : Bool)
  /-- REPEATER_TRANSITION (R169): An ENC repeater in EMULATE mode emits a scheduled quadrature transition at MIN_EDGE spacing. -/
  | repeaterTransition (r : Fin 2)
  /-- ADC_CONVERSION_DONE (R146): A shunt, AIN or reference SAR conversion, or a sigma-delta decimation, completes and is stored, summed for offsets or checked for a channel fault. -/
  | adcConversionDone (ch : Fin 32) (code : Int) (kind : ConvKind) (stamp : Nat)
  /-- CORE_SUPPLY_LOSS (R420): VCORE falling below its range takes the fabric down with DOWN_REASON = 2. -/
  | coreSupplyLoss
  /-- VIO_LOSS (R414): The host I/O supply goes down, the host port stops and HIRQ_N goes inactive. -/
  | vioLoss
  /-- VIO_RETURN (R422): The host I/O supply returns, the host port serves frames again and HIRQ_N follows its condition. -/
  | vioReturn
  deriving DecidableEq, Repr

end Sys2Proof
end

