-- ==== Sys2Proof/Decode.lean ====
section
/-!
DEFINITION. The command that a word spells by the bits of spec/opcode_table.json. The table gives bits to none of its rows:
a command reaches the block over a port, a link or a pin, and no word of the table spells one.
-/
namespace Sys2Proof

/-- The command that a table word spells: none, since no row has bits. -/
def decodeTableWord (_nbits _w : Nat) : Option Instr := none

end Sys2Proof
end

