-- ==== Sys2Proof/Config.lean ====
section
/-!
DEFINITION. What the manual leaves open: free values with no body, so that nothing in Lean can evaluate them. Each is
named in the assumption log. Fixed facts of one device (the fused grade) stand here too.
-/
namespace Sys2Proof.Config

/-- Fused grade (R2): 0 is SQ7300-B, 1 is SQ7300-H. Log entry 10. -/
opaque gradeH : Bool

/-- Sine and cosine of an angle in units of 2^-32 turn, as the commutation task uses them (R122, R123): the manual
states neither table nor rounding. Result in units of 2^-31. Log entry 12. -/
opaque sinQ31 : BitVec 32 → Int
opaque cosQ31 : BitVec 32 → Int
/-- The two-argument arc tangent of R138, in units of 2^-32 turn. Log entry 12. -/
opaque atan2 : Int → Int → BitVec 32
/-- The observer gains l1 to l5 of R197: index, stiffness, bandwidth and masses as the manual names them. The manual
places the eigenvalues and states no arithmetic. Log entry 13. -/
opaque ropeGain : Fin 5 → Rat → Rat → Rat → Rat → Rat → Rat → Rat
/-- Rounding of the square root of a non-negative rational where the manual states none. Log entry 12. -/
opaque sqrtRat : Rat → Rat
/-- The number pi as the fabric takes it in electrical speeds (R123, R138). Log entry 12. -/
opaque pi : Rat
/-- One boundary of a jerk-limited profile (R178 with JERK not 0): position and speed at the next boundary, from position,
speed, acceleration, target or speed goal and the limits. Log entry 14. -/
opaque jerkStep : Bool → Int → Int → Int → Int → Nat → Nat → Nat → Nat → Nat → Int × Int × Int
/-- Instructions that a system task of the lane ROM executes beyond what the tables bound (R85, USED_MAX): the manual
gives bounds, not counts. Log entry 16. -/
opaque romInstr : Nat → Nat
/-- A voltage the manual does not define where UDC is 0 (R125). Log entry 12. -/
opaque dutyAtZeroUdc : Nat → Int
/-- The next word that a scan of a retired or ECC-bad source delivers (R433, R387 excepted). Log entry 17. -/
opaque freeWord : Nat → BitVec 32
/-- Sector 0 to 5 of a Hall code under HALL_OFS and REV (R154): the manual names the two fields and states no map. Log
entry 18. -/
opaque hallSector : Fin 8 → Fin 8 → Bool → Fin 6
/-- The tick of arrival of an entry in the log when the tick is not running. Log entry 17. -/
opaque bootCount : Nat

/-- Battery current in mA at full scale of the converter's current command (R214): the manual gives the controller in Q1.31 and
states no full scale. Log entry 26. -/
opaque convFs : Nat

/-- Share of a member, in mN·m, while the slots in PRESENT have no weight (R206 divides by their sum): of T_TOT and the member's
weight. Log entry 27. -/
opaque shareNoWeight : Int → Nat → Int

/-- A node's BACKUP_PRIO is lower than this node's (R362): no message carries it. Log entry 28. -/
opaque lowerBackup : BitVec 10 → Bool

/-- Bound of the safety-check task of a drive axis, in instructions per frame: R70 names the task and no rule gives its cost.
Log entry 16. -/
opaque safetyCheckBound : Nat

end Sys2Proof.Config
end

