-- ==== Sys2Proof/Machine/State.lean ====
section
/-!
DEFINITION. The state of the SQ7300 as plain data. Every register of the register map has one home: `regs` (live
registers), `cfg` (staged registers, value in force) and `stg` (the open stage); the structures below hold what the
manual gives the device beside its registers. A field's default is its value at reset.
-/
namespace Sys2Proof.Machine

/-- Why the block stops. No rule of the manual stops the block, and no meaning raises one. -/
inductive Fault where
  /-- Raised by nobody: the device answers every access (R9, R40). Safe. -/
  | none
  deriving DecidableEq, Repr

/-- Why a command has no meaning here. -/
inductive Refusal where
  /-- Raised by Dispatch.lean alone, for a row without a meaning yet. Safe. -/
  | notModelled (mnemonic : String)
  deriving DecidableEq, Repr

/-- Where the power-up sequence of Table 19-1 stands. -/
inductive Phase where
  /-- No supply: the always-on domain is in reset. -/
  | off
  /-- Step n of Table 19-1 is in progress; `step 2` waits for VIN (R445, R446). -/
  | step (n : Nat)
  /-- Step 9 is done: FABRIC_UP = 1. -/
  | up
  /-- The sequence has stopped (R450). -/
  | stopped
  /-- Thermal latch: the core domain is held in reset (R431). -/
  | latched
  /-- VCORE is below its range (R420). -/
  | coreLost
  deriving DecidableEq, Repr

/-- The instruction of the scan chain (R477). -/
inductive TapInstr where
  | bypass
  | samplePreload
  | extest
  | idcode
  deriving DecidableEq, Repr

/-- Power domains, straps and reset (chapter 19, R35 to R37). -/
structure PowerSt where
  phase : Phase := .off
  /-- VIN has risen through 7.8 V and not fallen below 7.2 V since. -/
  vinOk : Bool := false
  /-- VIO is present. -/
  vio : Bool := false
  /-- BOOT_STATUS.SOURCE of the restart in progress (R459, R460). -/
  source : Nat := 0
  /-- The always-on domain has seen a PLL lock since it came up (R13). -/
  locked : Bool := false
  madr : BitVec 2 := 0
  pers : BitVec 2 := 0
  autold : Bool := false
  noVio : Bool := false
  cmosClock : Bool := false
  thermLatch : Bool := false
  /-- Configuration chosen at step 7: 0 reset, 1 personality, 2 image; and its result codes (R451, R452). -/
  config : Nat := 0
  autoCode : Byte := 0xFF
  persCode : Byte := 0xFF
  /-- The removal input of the STO path is driven (R421, R431, R459, R477). -/
  removal : Bool := false
  /-- The personality logic runs (R453); the axis-0 sequence it is in. -/
  persOn : Bool := false
  persSeq : Nat := 0
  tap : TapInstr := .idcode
  /-- Word last shifted out on TDO or answered by a port that has no register for it. -/
  tdo : Word := 0
  deriving DecidableEq, Repr

/-- One accepted time exchange (R361). -/
structure Exchange where
  t1 : Nat
  t2 : Nat
  deriving DecidableEq, Repr

/-- Time states (Table 14-4, R374). -/
inductive NtState where
  | unlocked
  | acquiring
  | locked
  | holdover
  | grandmaster
  deriving DecidableEq, Repr

/-- Timebase, frame and network time (chapters 1 and 14). -/
structure TimeSt where
  /-- TIME.TICK, shown modulo 2^64. -/
  tick : Nat := 0
  /-- The counter runs. -/
  ticking : Bool := false
  pllLock : Bool := false
  refOk : Bool := false
  holdover : Bool := false
  plinkLock : Bool := false
  /-- A frame grid is running (R447); B_0 of a grid that has yet to start. -/
  grid : Bool := false
  b0 : Option Nat := none
  frameCount : Nat := 0
  frameStart : Nat := 0
  /-- L_k and L_{k+1}. -/
  curLen : Nat := 12500
  nextLen : Nat := 12500
  /-- L_c in force (R26). -/
  lead : Nat := 64
  /-- In frame k: the sample set is published; the profile pass is done; the cut-off has passed. -/
  published : Bool := false
  passed : Bool := false
  cut : Bool := false
  -- network time
  /-- NB in units of 2^-16 ns, TB, and rho in 0.01 ppm (R357). -/
  nb : Nat := 0
  tb : Nat := 0
  rho : Int := 0
  nt : NtState := .unlocked
  stepOk : Bool := true
  lockRun : Nat := 0
  hist : List Exchange := []
  /-- Frequency term of the last exchange, as a rational (R361). -/
  freq : Rat := 0
  master : Option (BitVec 10) := none
  /-- Grandmaster named by the last FOLLOW_UP. -/
  gm : BitVec 16 := 0
  hops : Byte := 0
  stepGen : Byte := 0
  depthExceeded : Bool := false
  masterJump : Bool := false
  errHigh : Bool := false
  rateClamped : Bool := false
  /-- SYNC heard: port, node, sequence, t2 (R359). -/
  sync : Option (Fin 2 × BitVec 10 × Byte × Nat) := none
  /-- Tick of the last accepted exchange and of the last SYNC heard. -/
  lastAcc : Nat := 0
  lastSync : Nat := 0
  /-- Master loss is declared; this node sends SYNC as a backup (R362). -/
  lost : Bool := false
  backup : Bool := false
  /-- Next SYNC sequence per port. -/
  syncSeq : List Byte := [0, 0]
  /-- Pulses of TPO0 to TPO3 that run, and the tick at which each last started (R370). -/
  tpo : BitVec 4 := 0
  tpoStart : List Nat := [0, 0, 0, 0]
  deriving DecidableEq, Repr

/-- Stage states (Table 2-3). -/
inductive StageState where
  | closed
  | opened
  | proving
  | proved
  | failed
  | armed
  deriving DecidableEq, Repr

/-- When an armed strike falls due (R61, R64). -/
inductive Due where
  | tick (t : Nat)
  | net (t : Nat)
  deriving DecidableEq, Repr

/-- Outcome of a proof (R59). -/
structure ProofOut where
  code : Byte
  page : Byte
  offset : BitVec 12
  demand : Word
  budget : Word
  deriving DecidableEq, Repr

/-- Stage, proof and strike (chapter 2). The staged words stand in `State.stg`, with those of pages that a takeover has
moved away from under them (R107). -/
structure StageSt where
  state : StageState := .closed
  owner : Option Master := none
  /-- Pages written in the present stage. -/
  dirty : List Nat := []
  failedHere : Option Nat := none
  readmits : List ChanId := []
  due : Option Due := none
  /-- The commit frame is running. -/
  commit : Bool := false
  /-- Tag of a strike armed over Bilva (R368). -/
  tag : Option (BitVec 16) := none
  /-- A proof in progress: its outcome, judged on the snapshot of R57, and whether it arms a strike. -/
  proof : Option (ProofOut × Bool) := none
  voided : Bool := false
  /-- LIVE_GEN per page, pages 0 to 95. -/
  liveGen : List (Nat × Word) := []
  /-- SAVE_IMAGE in progress: snapshot taken (R439). -/
  save : Option Bool := none
  /-- A re-proof in progress, its outcome (R91). -/
  reproof : Option ProofOut := none
  /-- Takeovers since the last strike: target lane, and the lane whose code and data ranges it holds beside its own (R340). -/
  copied : List (LaneIx × LaneIx) := []
  /-- Words that a takeover has moved, as their live mirrors still show them until the cut-off of the takeover frame (Table 3-4). -/
  shown : List (Nat × Word) := []
  deriving DecidableEq, Repr

/-- What a master holds (R6, R51, R53). -/
structure MasterSt where
  /-- Code of the command whose DONE is 0. -/
  busy : Option Byte := none
  busySeq : Byte := 0
  /-- Read holding registers: address of a low word read and the high word taken with it. -/
  rHold : List (Nat × Word) := []
  /-- Write holding registers: address of a low word and the value written. -/
  wHold : List (Nat × Word) := []
  /-- Tick of the last accepted access (R48). -/
  lastAccess : Nat := 0
  prevLost : Bool := false
  prevRefused : Bool := false
  prevUnmapped : Bool := false
  /-- Answer of the last frame or transaction: status, data words, check code. -/
  outStatus : Word := 0
  outData : List Word := []
  outCrc : BitVec 16 := 0
  /-- COUNT of the last management read (R416). -/
  outCount : Nat := 0
  deriving DecidableEq, Repr

/-- Axis states (Table 5-8). -/
inductive AxState where
  | disabled
  | precheck
  | ready
  | run
  | degraded
  | stopping
  | fault
  | retired
  deriving DecidableEq, Repr

/-- What stands in force on an axis, by rank (R281, Table 11-11). -/
inductive React where
  | regenClamp
  | degraded
  | ss1
  | ss1Sbc
  | asc
  | sto
  deriving DecidableEq, Repr

/-- A running SS1 (R292), with the settings taken at its start (R281). -/
structure Ss1 where
  start : Nat
  v0 : Nat
  env : Nat
  dec : Nat
  tol : Nat
  /-- Tick at which SS1 ends with STO. -/
  limit : Nat
  deriving DecidableEq, Repr

/-- A monitor of R293. -/
structure Monitor where
  selected : Bool := false
  running : Bool := false
  /-- Reference position: p0 of SOS, r of SDI. -/
  ref : Int := 0
  deriving DecidableEq, Repr

/-- An axis (chapters 5, 7, 11). -/
structure AxisSt where
  state : AxState := .disabled
  /-- AXIS_RUN accepted, taken at the next boundary. -/
  runPending : Bool := false
  /-- Offsets are being taken (R135). -/
  capturing : Bool := false
  react : Option React := none
  /-- Reactions raised since the last boundary: reaction, source ID, is a demand. -/
  raised : List (React × Nat × Bool) := []
  /-- A fault reaction took part (R282). -/
  faulty : Bool := false
  ss1 : Option Ss1 := none
  /-- Brake applied, on an axis that has one (de-energised without power); gates removed by STO; low sides on by active
  short circuit. -/
  sbc : Bool := true
  sto : Bool := false
  asc : Bool := false
  ladder : Nat := 0
  /-- The AXIS_STOP in progress ends in READY. -/
  stopToReady : Bool := false
  /-- The brake-set delay after an AXIS_STOP or DEGRADED is running. -/
  settling : Bool := false
  /-- DEGRADED has been used since AXIS_CLEAR (R301); consecutive frames above DEG_SPEED. -/
  degUsed : Bool := false
  degOver : Nat := 0
  /-- The substitute speed and position of R300 are in use; the position, in 2^-16 counts. -/
  sub : Bool := false
  subPos : Int := 0
  /-- RECONFIG_FAIL ends in RETIRED (R278). -/
  toRetired : Bool := false
  sls : Monitor := {}
  sos : Monitor := {}
  sdiPos : Monitor := {}
  sdiNeg : Monitor := {}
  /-- Consecutive disagreeing frames of R299; frames the observer has been unlocked. -/
  xcRun : Nat := 0
  unlockRun : Nat := 0
  /-- Consecutive cut-offs missed (R23), boundaries outside DEV_WIN (R182). -/
  missRun : Nat := 0
  devRun : Nat := 0
  /-- Its tasks are shed in RESCUE (R82). -/
  shed : Bool := false
  deriving DecidableEq, Repr

/-- Angle source in use (Table 5-8). -/
inductive AngleSrc where
  | feedback
  | observer
  | forced
  deriving DecidableEq, Repr

/-- Start and restart of a sensorless axis (R140, R143). -/
inductive Restart where
  | idle
  | catching
  /-- Forced start: waiting for a non-zero reference. -/
  | waiting
  | forced
  | handOver
  deriving DecidableEq, Repr

/-- A conversion: code, configuration word of the channel at its acquisition tick, that tick (R22). -/
structure Samp where
  code : Int := 0
  cfg : Word := 0
  tick : Nat := 0
  deriving DecidableEq, Repr

/-- A drive axis (chapter 5). Integrators are Q1.63, everything else Q1.31 unless stated. -/
structure DriveSt where
  -- commands taken at publication (R118)
  torqueCmd : Int := 0
  idCmd : Int := 0
  tLim : Int := 0
  speedLim : Int := 0
  idInt : Int := 0
  iqInt : Int := 0
  /-- Rotor-frame vector of the last task, before the limiter, and lambda * 256. -/
  vd : Int := 0
  vq : Int := 0
  lam : Nat := 256
  /-- Measured currents. -/
  id : Int := 0
  iq : Int := 0
  ia : Int := 0
  ib : Int := 0
  torqueEst : Int := 0
  -- observer (R138)
  fa : Int := 0
  fb : Int := 0
  th : BitVec 32 := 0
  w : Int := 0
  err : Int := 0
  lockRun : Nat := 0
  obsLocked : Bool := false
  losRun : Nat := 0
  losNow : Bool := false
  obsSpeed : Int := 0
  reseed : Bool := false
  -- angle in use
  angleSrc : AngleSrc := .feedback
  theta : BitVec 32 := 0
  thetaTick : Nat := 0
  speed : Int := 0
  restart : Restart := .idle
  restarting : Bool := false
  attempts : List Nat := []
  forcedAngle : BitVec 32 := 0
  forcedW : Int := 0
  invalidRun : Nat := 0
  iValid : Bool := false
  switching : Bool := false
  /-- Sum and count of offset samples, per channel of the axis (R135 to R137). -/
  ofsSum0 : Int := 0
  ofsSum1 : Int := 0
  ofsCnt0 : Nat := 0
  ofsCnt1 : Nat := 0
  /-- Means that wait for the next boundary, for OFFSET0 and OFFSET1 (R136, R137). -/
  ofsNew : Option Int := none
  ofsNew1 : Option Int := none
  /-- Conversions for sample A and B since the last boundary, and those of the present sample set (R128). -/
  sampA : Option Samp := none
  sampB : Option Samp := none
  latA : Option Samp := none
  latB : Option Samp := none
  /-- Phases of the samples of the sampling period: max, mid, min (0 U, 1 V, 2 W). -/
  phMax : Nat := 0
  phMid : Nat := 1
  phMin : Nat := 2
  /-- The same phases of the pattern in effect in this frame, and of the pattern that the present sample set was taken in (R19, R20). -/
  ordNow : List Nat := [0, 1, 2]
  ordLat : List Nat := [0, 1, 2]
  /-- Output committed in this frame: duties of U, V, W in 2^-31 of the period, per carrier period. -/
  duties : List (Int × Int × Int) := []
  /-- Six-step output per carrier period: high phase, low phase, duty of the high phase in 2^-31 (R127). -/
  six : List (Nat × Nat × Int) := []
  /-- Shifts of the max and min pulse in the sampling period, in ticks (R128). -/
  shiftA : Nat := 0
  shiftB : Nat := 0
  /-- Mean stationary vectors committed in the last two frames, newest first (R138). -/
  vHist : List (Int × Int) := []
  /-- Declarations of loss of synchronism that start a restart attempt at the next boundary (R140). -/
  losPend : Bool := false
  /-- A declaration of this frame for the cross-check (R141). -/
  losSeen : Bool := false
  /-- The reference of R119, steps 1 to 5, of the last task. -/
  refR : Int := 0
  /-- K_TI at the strike, in Q8.24 (R120). -/
  kTi : Int := 0
  deriving DecidableEq, Repr

/-- A loop context state (Table 4-5). -/
inductive CtxState where
  | off
  | opened
  | ramp
  | closed
  | held
  deriving DecidableEq, Repr

/-- A loop context (chapter 4). -/
structure CtxSt where
  state : CtxState := .off
  /-- Integrator, Q1.63. -/
  i : Int := 0
  rv : Int := 0
  fbPrev : Int := 0
  dv : Int := 0
  u : Int := 0
  uPrev : Int := 0
  x1 : Int := 0
  x2 : Int := 0
  y1 : Int := 0
  y2 : Int := 0
  /-- Newest and previous outputs, and executions of the consumer since (R104). -/
  yNew : Int := 0
  yOld : Int := 0
  rampI : Nat := 0
  sat : Bool := false
  oSat : Bool := false
  iSat : Bool := false
  lost : Bool := false
  /-- p + D + FF of the last execution, for selection (R114). -/
  rest : Int := 0
  /-- Output in force at its destination from the last boundary, and the one computed in this frame. -/
  force : Option Int := none
  next : Option Int := none
  done : Bool := false
  /-- Settings or coefficients changed at the last strike (R113). -/
  fresh : Bool := false
  /-- Output that took effect at the last boundary, as LDSIG reads it (R324). -/
  yB : Int := 0
  /-- CLOSE_REQ as taken at the last boundary (R110). -/
  closeReq : Bool := false
  deriving DecidableEq, Repr

/-- Feedback interface states (Table 6-6). -/
inductive FbState where
  | off
  | running
  | retry
  | retired
  deriving DecidableEq, Repr

/-- A feedback interface (chapter 6). Positions are Q48.16 as integers. -/
structure FbSt where
  state : FbState := .off
  valid : Bool := false
  referenced : Bool := false
  /-- Position as counted or unwrapped, with the offset of a load, which is kept beside it (R158). -/
  pos : Int := 0
  loadOfs : Int := 0
  /-- Latched in the last sample set: position, speed, acquisition tick. -/
  sPos : Int := 0
  sSpeed : Int := 0
  sTick : Nat := 0
  dirDown : Bool := false
  standstill : Bool := false
  countMethod : Bool := false
  lineOk : Bool := true
  /-- Levels of Z, B, A after the filter. -/
  zba : BitVec 3 := 0
  /-- Stamps of count edges, newest first, with the counts each stands for (R161); stamp of the newest edge of all. -/
  edges : List (Nat × Nat) := []
  lastEdge : Option Nat := none
  m : Nat := 0
  /-- A reversal since the last boundary. -/
  reversed : Bool := false
  /-- Integer counts (or words) and ticks latched, newest first, for the count method. -/
  hist : List (Int × Nat) := []
  /-- Recent edges, newest first: stamp and signed change of the position. -/
  trail : List (Nat × Int) := []
  /-- Speed and method reported at the boundary before (R162). -/
  vPrev : Int := 0
  methPrev : Bool := false
  /-- WHEEL: stamp of the last tooth edge, last interval, counts since the last reference. -/
  lastTooth : Option Nat := none
  lastIvl : Nat := 0
  sinceRef : Option Nat := none
  /-- Position at the previous index (R156). -/
  idxPos : Option Int := none
  loadPending : Bool := false
  /-- An acquisition runs, since its tick; tick of the last one that runs or has run (R159). -/
  acq : Option Nat := none
  lastAcq : Nat := 0
  /-- SSI: the line has yet to return high after the last clock (R159). -/
  tail : Bool := false
  /-- A first word has been taken; the word last taken; in retry, the last good word and how many in a row (Table 6-3). -/
  firstWord : Bool := false
  lastWord : Nat := 0
  goodRun : Nat := 0
  goodWord : Option Nat := none
  /-- Fault bits whose retry waits for re-acquisition, and the tick of the last of them. -/
  cause : BitVec 8 := 0
  lastFault : Nat := 0
  /-- Consecutive sample sets with VALID = 0; FB_LOST is raised. -/
  ride : Nat := 0
  lostRaised : Bool := false
  deriving DecidableEq, Repr

/-- An encoder repeater (R169, R170). -/
structure RepSt where
  /-- Levels of Z, B, A. -/
  out : BitVec 3 := 0
  /-- EMULATE: output count emitted, count to reach, tick of the last transition. -/
  count : Int := 0
  target : Int := 0
  last : Nat := 0
  lag : Bool := false
  held : Bool := false
  deriving DecidableEq, Repr

/-- What a motion axis is doing (Table 7-5). -/
inductive MotActive where
  | idle
  | move
  | jog
  | stop
  | quickStop
  | gear
  | group
  deriving DecidableEq, Repr

/-- A motion axis (chapter 7). Positions are Q48.16, speeds in the speed format. -/
structure MotSt where
  active : MotActive := .idle
  moving : Bool := false
  atTarget : Bool := false
  /-- Code of the command that waits for B_k + 32 (R176). -/
  pending : Option Nat := none
  /-- p_k, v_k; p_{k+1}, v_{k+1}; acceleration for a jerk-limited profile. -/
  p0 : Int := 0
  v0 : Int := 0
  p : Int := 0
  v : Int := 0
  a : Int := 0
  /-- Exact planned position and speed at B_{k+1}, in counts and counts/s (R178). -/
  pr : Rat := 0
  vr : Rat := 0
  target : Int := 0
  /-- The planned motion ends at B_{k+1} (R178). -/
  ending : Bool := false
  limitRaised : Bool := false
  -- gear
  engaged : Bool := false
  num : Int := 1
  den : Nat := 1
  s0 : Int := 0
  m0 : Int := 0
  /-- Master value of the last pass. -/
  mLast : Int := 0
  /-- A switch is armed: position, direction, ratio; it was late and applies in the next pass. -/
  armed : Bool := false
  armPos : Int := 0
  armDir : Nat := 0
  armNum : Int := 1
  armDen : Nat := 1
  armLate : Bool := false
  /-- The interface master was invalid in the last pass; its last valid position, speed and tick (R193). -/
  masterBad : Bool := false
  gPos : Int := 0
  gSpeed : Int := 0
  gTick : Nat := 0
  -- step output
  stepPos : Int := 0
  /-- Pulses scheduled: tick and direction (true = up). -/
  pulses : List (Nat × Bool) := []
  /-- How many of them are carried over from earlier frames (STEP_LAG). -/
  carried : Nat := 0
  stepDirUp : Bool := true
  lastPulse : Nat := 0
  /-- POS_ACT of the last two sample sets with their ticks, newest first. -/
  act : Int := 0
  actTick : Nat := 0
  actOld : Int := 0
  actOldTick : Nat := 0
  deriving DecidableEq, Repr

/-- A compare unit (R187 to R189). -/
structure CmpSt where
  armed : Bool := false
  /-- Side at arming for BOTH: -1 below, 1 above, 0 on it. -/
  side : Int := 0
  /-- The position reached the target while the interface was invalid (R189). -/
  missed : Bool := false
  /-- An output pulse runs, from the tick of its firing (R189). -/
  pulse : Option Nat := none
  deriving DecidableEq, Repr

/-- A position latch (R190). -/
structure LatchSt where
  armed : Bool := false
  /-- Events captured whose position is not yet shown, oldest first: latch tick, and the position where it is exact. -/
  waiting : List (Nat × Option Int) := []
  /-- A field input shows a new level that is not yet accepted: tick of the sample, and the position where it is exact. -/
  cand : Option (Nat × Option Int) := none
  deriving DecidableEq, Repr

/-- A queued path segment (Table 7-3). -/
structure Seg where
  words : List Word
  deriving DecidableEq, Repr

/-- A path group (R183 to R186). -/
structure GroupSt where
  queue : List Seg := []
  /-- Segments pushed since the last take at B_k + 32. -/
  fresh : List Seg := []
  /-- Segment starts of the members in Q48.16; distance along the present segment in counts; path speed in counts/s. -/
  starts : List Int := [0, 0, 0, 0]
  dist : Rat := 0
  speed : Rat := 0
  /-- A FLUSH is to be taken; the path is being brought to rest by it, or at PATH_QSTOP. -/
  flushReq : Bool := false
  flushing : Bool := false
  stopping : Bool := false
  moving : Bool := false
  /-- Events that set at B_{k+1}: segments ended, last tag, queue empty, stopped. -/
  ended : Nat := 0
  tag : Nat := 0
  empty : Bool := false
  stopped : Bool := false
  deriving DecidableEq, Repr

/-- A queued edge on the power die (R251). -/
structure QEdge where
  rise : Bool
  tick : Nat
  deriving DecidableEq, Repr

/-- One planned carrier period of a leg. -/
structure PeriodSt where
  start : Nat := 0
  hatch : Nat := 0
  refCnt : Nat := 0
  refreshed : Bool := false
  capped : Bool := false
  clamped : Bool := false
  deriving DecidableEq, Repr

/-- A leg, both dies (chapters 9, 10). -/
structure LegSt where
  -- generator
  /-- DUTY, PERIOD and CTRL as frozen for the next reload (R233). -/
  snapshot : Option (Word × Word × Word) := none
  /-- Start of the next period, which is the next reload of an external leg. -/
  nextReload : Nat := 0
  /-- Period in force in ticks, duty in force as DUTY_MODE reads it, and whether a source of R228 delivers it. -/
  period : Nat := 5000
  duty : Word := 0
  fromSource : Bool := false
  /-- Level last commanded, none while both switches are off; edges commanded and not yet executed: tick, rise or fall. -/
  level : Option Bool := none
  plan : List (Nat × Bool) := []
  /-- Ticks at which both switches of the leg go off: the third phase of a six-step axis (R127). -/
  offAt : List Nat := []
  /-- A delivered duty of R228 in 65536ths, from the boundary at which it enters the shadow. -/
  delivered : Option Nat := none
  /-- UPD_ONCE was written in the freeze window and arms the reload after the next (R234). -/
  lateOnce : Bool := false
  hatch : Nat := 0
  refCnt : Nat := 0
  /-- Periods planned last, newest first: start, hatch index, and what STATUS shows of each (Table 9-9). -/
  periods : List PeriodSt := []
  /-- The master of a PERIOD write that no snapshot holds yet, and of the one that the snapshot holds (R247). -/
  perNew : Option Master := none
  perSnap : Option Master := none
  /-- LEG_CTRL, DEADTIME, REFRESH, PHASE, TON_TOFF, OUT_CFG that stay in use until the first reload after a strike (R245). -/
  old : Option (List Word) := none
  /-- Gate drive removed, MODE = OFF included (R226). -/
  gateOff : Bool := true
  chopForced : Bool := false
  -- switches, and the tick each was turned on
  hsOn : Bool := false
  lsOn : Bool := false
  hsTick : Nat := 0
  lsTick : Nat := 0
  /-- A turn-on waits for its dead time: high side?, commanded tick; tick of the node's crossing (R237). -/
  incoming : Option (Bool × Nat) := none
  crossed : Option Nat := none
  hardR : Bool := false
  hardF : Bool := false
  /-- Dead times applied in the last rising and falling transition, ns. -/
  dtRise : Nat := 0
  dtFall : Nat := 0
  /-- The cross-command interlock is active (R244, R263). -/
  cross : Bool := false
  -- power die
  queue : List QEdge := []
  /-- Off until its next valid EDGE (R251, R252). -/
  waitEdge : Bool := false
  vdsHoldH : Bool := false
  vdsHoldL : Bool := false
  watchH : Bool := false
  watchL : Bool := false
  bsuv : Bool := false
  -- service
  retry : Bool := false
  retired : Bool := false
  deriving DecidableEq, Repr

/-- The power die and its link (chapter 10). -/
structure PowerDieSt where
  /-- Measured one-way delay in ticks; body of the last SYNC; settings received by index. -/
  delay : BitVec 16 := 0
  lastSync : BitVec 28 := 0
  settings : List (Nat × BitVec 16) := []
  upOk : Bool := false
  dnOk : Bool := false
  vgdUv : Bool := false
  vinOv : Bool := false
  cpuv : Bool := false
  /-- Comparators DCL0 to DCL3. -/
  dcl : BitVec 4 := 0
  deriving DecidableEq, Repr

/-- Work running on a lane bank. -/
inductive Bank where
  | f
  | u
  | b
  deriving DecidableEq, Repr

/-- A result in flight (R328): issue slots left, destination. -/
inductive InFlight where
  | d (left : Nat) (r : DReg) (v : Word)
  | acc (left : Nat) (r : AccReg) (v : BitVec 72)
  deriving DecidableEq, Repr

/-- The banked registers of a lane (Table 13-1). -/
structure BankSt where
  d : List Word := List.replicate 16 0
  acc : List (BitVec 72) := List.replicate 4 0
  p : List (BitVec 20) := List.replicate 8 0
  m : List (BitVec 16) := List.replicate 8 0
  sat : Bool := false
  stack : List (BitVec 12) := []
  inFlight : List InFlight := []
  /-- A taken branch waits for its delay slot. -/
  branch : Option (BitVec 12) := none
  pc : BitVec 12 := 0
  /-- Slot of the code task whose activation runs. -/
  slot : Option SlotIx := none
  executed : Nat := 0
  /-- Crossbar stores of the activation: word address, value (R323). -/
  commit : List (BitVec 20 × Word) := []
  deriving DecidableEq, Repr

/-- Loop registers (Table 13-1). -/
structure LoopRegs where
  lc0 : BitVec 16 := 0
  lc1 : BitVec 16 := 0
  ls0 : BitVec 12 := 0
  ls1 : BitVec 12 := 0
  le0 : BitVec 12 := 0
  le1 : BitVec 12 := 0
  deriving DecidableEq, Repr

/-- Released work of a lane (R72). -/
inductive Work where
  | safety (a : Nat)
  | commut (a : Nat)
  | ctx (c : Nat)
  | converter
  | code (s : Nat)
  deriving DecidableEq, Repr

/-- Lane states (Table 3-7). -/
inductive LaneState where
  | active
  | spare
  | takeover
  | retired
  | idle
  deriving DecidableEq, Repr

/-- A lane (chapters 3, 13). -/
structure LaneSt where
  state : LaneState := .idle
  bankF : BankSt := {}
  bankU : BankSt := {}
  bankB : BankSt := {}
  /-- The bank that executes, while an activation or slice is in progress. -/
  running : Option Bank := none
  loops : LoopRegs := {}
  /-- Save area of bank B (R333). -/
  bSave : LoopRegs := {}
  sliceCount : Nat := 0
  /-- Slot of the last background activation. -/
  lastB : Nat := 15
  /-- Work released in this frame and not committed, in the order of R72. -/
  ready : List Work := []
  /-- Urgent slots released; held triggers; tick of the last release. -/
  urgent : List Nat := []
  held : List Nat := []
  lastRel : List (Nat × Nat) := []
  plan : Nat := 15
  used : Nat := 0
  /-- Slices of the self-test pass done; tick at which the period started. -/
  stSlices : Nat := 0
  stStart : Nat := 0
  /-- Retired lanes whose work this lane takes over at its next release (R90). -/
  takes : List Nat := []
  /-- The bank that the urgent activation preempted (R332). -/
  under : Option Bank := none
  /-- The activation whose fault has the lane in retry until it is released again (R88). -/
  retryOf : Option Work := none
  /-- Work stopped in this frame without a commit (R75), kept for the cut-off. -/
  missed : List Work := []
  deriving DecidableEq, Repr

/-- A rope model (R196 to R202), SI units. -/
structure RopeSt where
  xm : Rat := 0
  vm : Rat := 0
  xl : Rat := 0
  vl : Rat := 0
  fs : Rat := 0
  fr : Rat := 0
  running : Bool := false
  settle : Nat := 0
  slackRun : Nat := 0
  okRun : Nat := 0
  slack : Bool := false
  window : List Rat := []
  snatchHold : Nat := 0
  /-- Damping term of the present frame, Q1.31 of T_FS. -/
  damp : Int := 0
  deriving DecidableEq, Repr

/-- A share group (R204 to R209). -/
structure ShareSt where
  tTot : Int := 0
  present : BitVec 32 := 0
  /-- Reference received: stamp, total, present. -/
  refs : List (Nat × Int × BitVec 32) := []
  missRun : Nat := 0
  sq : BitVec 16 := 0
  /-- Leader's view: node, frames since its last SHARE_STAT, slots, CRC agrees. -/
  nodes : List (Nat × Nat × BitVec 32 × Bool) := []
  statFrames : Nat := 0
  statNow : Bool := false
  mismatch : Bool := false
  /-- A total has been applied. -/
  applied : Bool := false
  /-- The last reference was reused (R207); W_P / W_ALL is below MIN_CAP (R209). -/
  holding : Bool := false
  capLow : Bool := false
  /-- Node of the last SHARE_REF of the group; local members in RUN or DEGRADED at the last boundary. -/
  leaderNode : Option Nat := none
  lastMask : BitVec 32 := 0
  deriving DecidableEq, Repr

/-- Rescue states (Table 8-2). -/
inductive RescueSeq where
  | idle
  | stopping
  | settle
  | converter
  | test
  | travel
  | landing
  | done
  | aborted
  deriving DecidableEq, Repr

/-- The rescue sequence and its converter (R211 to R218). -/
structure RescueSt where
  sq : RescueSeq := .idle
  start : Nat := 0
  mainsOk : Bool := false
  /-- A loss is qualified and no return since; the mains-OK input or UDC has shown a loss since tick; neither does since tick. -/
  lost : Bool := false
  lossSince : Option Nat := none
  lossUdc : Option Nat := none
  okSince : Option Nat := none
  uSet : Rat := 0
  vInt : Int := 0
  iInt : Int := 0
  convOn : Bool := false
  /-- Converter duty of this frame in 65536ths, which is in force from the next boundary. -/
  convDuty : Nat := 0
  /-- TEST: position at brake release; sum and count of TORQUE_EST. -/
  relPos : Int := 0
  released : Bool := false
  sum : Int := 0
  cnt : Nat := 0
  averaging : Bool := false
  target : Option Nat := none
  deriving DecidableEq, Repr

/-- The brake chopper (R267 to R269). -/
structure ChopSt where
  judged : Bool := false
  /-- Delivered duty in 65536ths. -/
  duty : Nat := 0
  testFail : Bool := false
  vdsTrip : Bool := false
  /-- An open test window: UDC_0 in mV, tick at which it fails. -/
  window : Option (Int × Nat) := none
  /-- At the last boundary the chopper was forced or at a duty of at least one half. -/
  wasHigh : Bool := false
  deriving DecidableEq, Repr

/-- A DMA channel state (Table 15-6). -/
inductive DmaState where
  | idle
  | run
  | wait
  | halted
  | error
  deriving DecidableEq, Repr

/-- A DMA channel (chapter 15). -/
structure DmaSt where
  state : DmaState := .idle
  cur : Nat := 0
  next : Nat := 0
  pend : Nat := 0
  /-- The loaded descriptor words 0 to 5, beats done, underflow seen. -/
  desc : Option (List Word) := none
  beats : Nat := 0
  under : Bool := false
  /-- Work released: descriptors to end before the next trigger. -/
  granted : Bool := false
  /-- The record a line holds for the channel. -/
  record : Option (List Word) := none
  lastTrig : Nat := 0
  deriving DecidableEq, Repr

/-- A transmit frame waiting in the Bilva queue. -/
structure TxFrame where
  f : CanFrame
  /-- Forwarded traffic counts in FWD_COUNT. -/
  fwd : Bool := false
  /-- A SYNC of this node: its sequence. -/
  sync : Option Byte := none
  deriving DecidableEq, Repr

/-- A CAN port (chapter 14). -/
structure CanSt where
  tec : Nat := 0
  recErr : Nat := 0
  passive : Bool := false
  busOff : Bool := false
  recovering : Bool := false
  integrating : Bool := false
  txReq : BitVec 16 := 0
  /-- The buffer in arbitration. -/
  sending : Option (Fin 16) := none
  bilva : List TxFrame := []
  /-- Forwarding queue toward this port (R355). -/
  fwdQ : List CanFrame := []
  /-- Unread slots in ring order, next slot to write; locks. -/
  unread : List Nat := []
  nextSlot : Nat := 0
  locks : List (Nat × Reader) := []
  sqNo : BitVec 16 := 0
  retired : Bool := false
  deriving DecidableEq, Repr

/-- A field input (R308). -/
structure DiSt where
  raw : Bool := false
  level : Bool := false
  /-- Consecutive valid samples of the new level and the tick of the first. -/
  cnt : Nat := 0
  first : Nat := 0
  openWire : Bool := false
  /-- Open-wire bit of the field die. -/
  wire : Bool := false
  /-- Inputs have been invalid and no level is accepted since (R309). -/
  stale : Bool := false
  deriving DecidableEq, Repr

/-- A field output (R311, R312). -/
structure DoSt where
  /-- Bit sent (DO_STATE), tick of its last change; level read back. -/
  sent : Bool := false
  change : Nat := 0
  readback : Bool := false
  thermalOff : Bool := false
  /-- Low readbacks in a row, in uplink words. -/
  lowRun : Nat := 0
  retry : Bool := false
  retired : Bool := false
  deriving DecidableEq, Repr

/-- FLINK and the field die (chapter 12). -/
structure FieldSt where
  flinkUp : Bool := false
  /-- Consecutive valid uplink frames while FLINK is lost. -/
  recoverCnt : Nat := 0
  cut : Bool := false
  sag : Bool := false
  /-- STOIN demand accepted by the field die, as last reported. -/
  sto : Bool := true
  tpFollowed : BitVec 2 := 3
  /-- Downlink word last received, and the word the field die applies (R307). -/
  dnLast : Option (BitVec 64) := none
  dnApplied : Option (BitVec 64) := none
  /-- Outputs are permitted since this tick (R315). -/
  outSince : Nat := 0
  /-- Start tick of the last uplink and downlink frame. -/
  lastUp : Nat := 0
  lastDn : Nat := 0
  /-- FLT as last judged. -/
  flt : Bool := false
  deriving DecidableEq, Repr

/-- A safety input slot (R294 to R298). -/
structure SinSt where
  fault : Bool := false
  passes : Nat := 0
  deriving DecidableEq, Repr

/-- The STO path and the safety page's own state (R276 to R304). -/
structure SafetySt where
  stoActive : Bool := true
  stoHealthySince : Option Nat := none
  stoOut : Bool := false
  stoPath : Bool := false
  /-- Sources active: ID and axis (16 = no axis). -/
  srcs : List (Nat × Nat) := []
  lastStoTick : Nat := 0
  oteOff : Bool := false
  deriving DecidableEq, Repr

/-- Trace capture states (Table 16-3). -/
inductive TraceState where
  | idle
  | pre
  | post
  | done
  deriving DecidableEq, Repr

/-- The tracing unit (chapter 16). -/
structure TraceSt where
  state : TraceState := .idle
  seg : Nat := 0
  segSeq : Nat := 0
  /-- Stored samples in the segment; slot of the next one. -/
  stored : Nat := 0
  slot : Nat := 0
  /-- Underlying samples in the present stored sample, with the words so far (stipple). -/
  under : Nat := 0
  acc : List Word := []
  accTick : Nat := 0
  trigTick : Nat := 0
  trigUnit : Nat := 0
  /-- Number of the trigger sample since the segment started. -/
  trigSample : Option Nat := none
  trigSampleTick : Nat := 0
  pre : Nat := 0
  after : Nat := 0
  pendTrig : Option (Nat × Nat) := none
  /-- TIME.RATE at the trigger; network time of the trigger sample. -/
  rate : Int := 0
  trigNt : Int := 0
  /-- Probe and number of the newest stored sample in which it was invalid; the newest in which network time was not valid. -/
  bad : List (Nat × Nat) := []
  ntBad : Option Nat := none
  maskFail : BitVec 16 := 0
  maskIdx : Option Nat := none
  maskSeen : Bool := false
  /-- Last values of the probes, for COND 2, 3 and 7. -/
  last : List (Nat × Word) := []
  /-- Tick at which unit 0 last opened the SEQ window; segments closed since ARM. -/
  seqOpen : Option Nat := none
  closed : Nat := 0
  armGen : Word := 0
  lastSample : Nat := 0
  deriving DecidableEq, Repr

/-- Thermal levels (Table 18-2). -/
inductive Level where
  | normal
  | warn
  | throttle
  | shutdown
  deriving DecidableEq, Repr

/-- Housekeeping (chapter 18). -/
structure HkSt where
  level : Level := .normal
  /-- Level in force since the last boundary (R428). -/
  inForce : Level := .normal
  calm : Nat := 0
  rounds : Nat := 0
  /-- Tick at which the last round ended; the round in progress is timed by the RC oscillator (R425). -/
  lastEnd : Nat := 0
  rcTimed : Bool := true
  histCtrl : List Int := []
  histPwr : List Int := []
  disagree : List Nat := [0, 0, 0, 0]
  agree : List Nat := [0, 0, 0, 0]
  excluded : BitVec 4 := 0
  divided : Bool := false
  ainOfs : List Int := [0, 0]
  ainGain : List Int := [0, 0]
  /-- Trims that wait for the next boundary (R434). -/
  ainNew : List (Option (Int × Int)) := [none, none]
  /-- Power-die readings of PLINK HK frames: channel, value. -/
  pwr : List (Nat × Nat) := []
  deriving DecidableEq, Repr

/-- An entry of the impression log waiting in the queue (R437). -/
structure LogEntry where
  kind : Nat
  cls : Nat
  master : Nat
  code : Nat
  detail : Word
  tick : Nat
  deriving DecidableEq, Repr

/-- The impression log beside its 64 KiB of cells (R435 to R439). -/
structure LogSt where
  queue : List LogEntry := []
  head : Nat := 0
  slot : Nat := 0
  opened : Bool := false
  lostSince : Nat := 0
  /-- Sectors of the stored image in order; of a save in progress; of a copy in progress. -/
  image : List Nat := []
  saving : List (List Word) := []
  copying : List Nat := []
  boot : Nat := 0
  deriving DecidableEq, Repr

/-- Fault history of a retirable channel (R284). -/
structure ChanSt where
  onsets : List Nat := []
  retry : Option Nat := none
  retired : Bool := false
  deriving DecidableEq, Repr

/-- A deadline that an event row stands for. -/
inductive Timer where
  | offsetCapture (a : Nat)
  | sdRefresh (a : Nat)
  | catchTime (a : Nat)
  | restart (a : Nat)
  | brakeRelease (a : Nat)
  | brakeSet (a : Nat)
  | brakeFb (slot a : Nat)
  | ss1 (a : Nat)
  | degraded (a : Nat)
  | monitor (a f : Nat)
  | ascRelease (a : Nat)
  | rescueHold
  | rescueSettle
  | converterReady
  | converterTimeout
  | rescueLift
  | rescueTest
  | rescueTravel
  | rescueFinal
  | mainsLoss
  | mainsReturn
  | stoRelease
  | stoReadback
  | stoTest
  | opRamp
  | precheck
  | urgentHold (l s : Nat)
  | doRetry (n : Nat)
  | vfRestore
  | masterLoss
  | backup
  | holdover
  | syncSend (p : Nat)
  | telemetry
  | dmaResume
  | seqWindow
  | cmpPulse (a u : Nat)
  | selftest (l : Nat)
  | vdsHold (l : Nat)
  deriving DecidableEq, Repr

/-- The operating point, the power state and the background account (chapter 3). -/
structure SchedSt where
  /-- POWER_STATE: 0 NORMAL, 1 ECONOMY, 2 RESCUE, 3 HALTED. -/
  state : Nat := 0
  request : Option Nat := none
  rescueReq : Bool := false
  point : Nat := 0
  target : Nat := 0
  ramping : Bool := false
  /-- BG_ACCOUNT in pJ. -/
  account : Int := 0
  executed : Nat := 0
  deriving DecidableEq, Repr

/-- PRECHECK in progress (R270, R271). -/
structure PrecheckSt where
  axis : Option AxisIx := none
  step : Nat := 0
  deriving DecidableEq, Repr

/-- What sample set k holds beside the feedback interfaces (R19). -/
structure SampleSt where
  /-- Codes of the 32 ADC channels with the gain or configuration word they were taken under. -/
  adc : List Samp := List.replicate 32 {}
  /-- Most recent completed conversion per channel. -/
  live : List Samp := List.replicate 32 {}
  valid : BitVec 32 := 0
  hk : List Int := List.replicate 24 0
  deriving DecidableEq, Repr

structure State where
  /-- Live registers by byte address: strictly rising, no entry equal to the register's reset value. -/
  regs : List (Nat × Word) := []
  /-- Staged registers, value in force, by the address of the staged half. -/
  cfg : List (Nat × Word) := []
  /-- Words of the open stage that differ from the value in force. -/
  stg : List (Nat × Word) := []
  /-- Plate memory, lane stores, trace buffer, message memory and the impression log, by byte address. -/
  mem : List Host.Cell := []
  /-- Word addresses (byte address of the word) with an uncorrectable error. -/
  eccBad : List Nat := []
  power : PowerSt := {}
  time : TimeSt := {}
  stage : StageSt := {}
  host : MasterSt := {}
  mgr : MasterSt := {}
  axes : List AxisSt := List.replicate 16 {}
  drives : List DriveSt := List.replicate 8 {}
  ctxs : List CtxSt := List.replicate 128 {}
  fbs : List FbSt := List.replicate 8 {}
  mots : List MotSt := List.replicate 16 {}
  cmps : List CmpSt := List.replicate 32 {}
  latches : List LatchSt := List.replicate 32 {}
  groups : List GroupSt := List.replicate 4 {}
  legs : List LegSt := List.replicate 32 {}
  lanes : List LaneSt := List.replicate 8 {}
  ropes : List RopeSt := List.replicate 4 {}
  shares : List ShareSt := List.replicate 2 {}
  rescue : RescueSt := {}
  chop : ChopSt := {}
  pdie : PowerDieSt := {}
  dma : List DmaSt := List.replicate 64 {}
  dmaLast : Nat := 63
  dmaHalted : Bool := false
  cans : List CanSt := List.replicate 2 {}
  dis : List DiSt := List.replicate 16 {}
  dos : List DoSt := List.replicate 8 {}
  field : FieldSt := {}
  sins : List SinSt := List.replicate 8 {}
  safety : SafetySt := {}
  trace : TraceSt := {}
  hk : HkSt := {}
  log : LogSt := {}
  chans : List (Nat × ChanSt) := []
  timers : List (Timer × Nat) := []
  sched : SchedSt := {}
  precheck : PrecheckSt := {}
  samples : SampleSt := {}
  reps : List RepSt := List.replicate 2 {}
  /-- The model's own: free values taken so far (log entry 11). -/
  free : Nat := 0
  /-- Commands waiting, first in, first out. -/
  pending : List Instr := []
  deriving DecidableEq, Repr

/-- The device with no supply: every register at the value of its Reset column, nothing in memory. -/
def State.reset : State := {}

end Sys2Proof.Machine
end

