-- ==== Sys2Proof/Machine/Bits.lean ====
section
/-!
DEFINITION. Bit fields, saturation, rounding, check codes and the sparse maps that registers and memory are kept in.
-/
namespace Sys2Proof.Machine

/-- Field [hi:lo] of a word, as a number. -/
def fld (w : Word) (hi lo : Nat) : Nat := (w.toNat >>> lo) % 2 ^ (hi + 1 - lo)

/-- Bit i of a word. -/
def bt (w : Word) (i : Nat) : Bool := w.toNat.testBit i

/-- Field [hi:lo] of a word as a two's complement number. -/
def sfld (w : Word) (hi lo : Nat) : Int :=
  let n := fld w hi lo
  if n < 2 ^ (hi - lo) then n else (n : Int) - (2 ^ (hi + 1 - lo) : Nat)

/-- A number as a word, modulo 2^32. -/
def nw (n : Nat) : Word := BitVec.ofNat 32 n

/-- An integer as a word, modulo 2^32. -/
def iw (i : Int) : Word := BitVec.ofInt 32 i

/-- The word with field [hi:lo] replaced. -/
def putFld (w : Word) (hi lo v : Nat) : Word :=
  let m := (2 ^ (hi + 1 - lo) - 1) <<< lo
  nw (w.toNat - (w.toNat &&& m) + ((v <<< lo) &&& m))

/-- The word with bit i set or cleared. -/
def putBt (w : Word) (i : Nat) (b : Bool) : Word := putFld w i i b.toNat

/-- Number of a truth value placed at bit i. -/
def bitAt (i : Nat) (b : Bool) : Nat := if b then 2 ^ i else 0

/-- Value saturated into [lo, hi]. -/
def clampI (lo hi x : Int) : Int := if x < lo then lo else if hi < x then hi else x

/-- Value saturated to a signed number of n bits. -/
def satS (n : Nat) (x : Int) : Int := clampI (-(2 ^ (n - 1) : Nat)) ((2 ^ (n - 1) : Nat) - 1) x

/-- Quotient rounded to nearest, halves away from zero. -/
def roundDiv (a : Int) (b : Nat) : Int :=
  if b = 0 then 0
  else if 0 ≤ a then (2 * a + b) / (2 * b) else -((-2 * a + b) / (2 * b))

/-- A rational rounded to nearest, halves away from zero. -/
def roundRat (q : Rat) : Int := roundDiv q.num q.den

/-- A rational rounded toward minus infinity. -/
def floorRat (q : Rat) : Int := q.num / (q.den : Int)

/-- Quotient rounded up. -/
def ceilDiv (a b : Nat) : Nat := if b = 0 then 0 else (a + b - 1) / b

/-- Sign of an integer as -1, 0, 1. -/
def sgn (x : Int) : Int := if x < 0 then -1 else if x = 0 then 0 else 1

/-- Arithmetic shift right with rounding, halves away from zero: a / 2^n. -/
def roundShift (a : Int) (n : Nat) : Int := roundDiv a (2 ^ n)

/-- Difference of two ticks or positions of 2^64, as signed. -/
def wrap64 (x : Int) : Int :=
  let m : Int := (2 ^ 64 : Nat)
  let r := x % m
  if r < (2 ^ 63 : Nat) then r else r - m

/-- Difference of two numbers of 2^32, as signed. -/
def wrap32 (x : Int) : Int :=
  let m : Int := (2 ^ 32 : Nat)
  let r := x % m
  if r < (2 ^ 31 : Nat) then r else r - m

/-- High and low word of a 64-bit quantity. -/
def hiW (x : Int) : Word := iw (x / (2 ^ 32 : Nat))
/-- Low word of a 64-bit quantity. -/
def loW (x : Int) : Word := iw x

/-- A signed 64-bit quantity from its low and high word. -/
def pair64 (lo hi : Word) : Int := hi.toInt * (2 ^ 32 : Nat) + (lo.toNat : Int)

/-- An unsigned 64-bit quantity from its low and high word. -/
def upair64 (lo hi : Word) : Nat := hi.toNat * 2 ^ 32 + lo.toNat



/-- Milliseconds and microseconds in ticks of 4 ns (R13). -/
def msT (n : Nat) : Nat := 250000 * n
/-- Microseconds in ticks. -/
def usT (n : Nat) : Nat := 250 * n
/-- Seconds in ticks. -/
def secT (n : Nat) : Nat := 250000000 * n

/-- The bits of n, most significant first. -/
def bitsMsb : Nat → Nat → List Bool
  | 0, _ => []
  | k + 1, n => n.testBit k :: bitsMsb k n

/-- One bit of an unreflected CRC of the given width. -/
def crcStep (width poly : Nat) (c : Nat) (b : Bool) : Nat :=
  let top := (c.testBit (width - 1)) != b
  let sh := (c <<< 1) % 2 ^ width
  if top then sh ^^^ poly else sh

/-- An unreflected CRC over bits, first bit first. -/
def crcBits (width poly init : Nat) (bits : List Bool) : Nat := bits.foldl (crcStep width poly) init

/-- CRC-8 of R249. -/
def crc8 (bits : List Bool) : Nat := crcBits 8 0x2F 0xFF bits
/-- CRC-5 of R306. -/
def crc5 (bits : List Bool) : Nat := crcBits 5 0x05 0x1F bits
/-- CRC-16/CCITT of R409. -/
def crc16 (bits : List Bool) : Nat := crcBits 16 0x1021 0xFFFF bits
/-- SMBus CRC-8 of R416. -/
def crcPec (bits : List Bool) : Nat := crcBits 8 0x07 0x00 bits

/-- Bits of a list of bytes, each most significant bit first. -/
def byteBits (bs : List Byte) : List Bool := bs.flatMap fun b => bitsMsb 8 b.toNat

/-- One bit of the reflected CRC-32 of IEEE 802.3. -/
def crc32Step (c : Nat) (b : Bool) : Nat :=
  let t := (c.testBit 0) != b
  let sh := c >>> 1
  if t then sh ^^^ 0xEDB88320 else sh

/-- CRC-32 (IEEE 802.3) over words, each least significant byte first (little-endian memory, R8). -/
def crc32 (ws : List Word) : Word :=
  let bits := ws.flatMap fun w => (List.range 32).map fun i => bt w i
  nw (bits.foldl crc32Step 0xFFFFFFFF ^^^ 0xFFFFFFFF)

/-- The four bytes of a word, least significant first (R8). -/
def wordBytes (w : Word) : List Byte :=
  [w.extractLsb' 0 8, w.extractLsb' 8 8, w.extractLsb' 16 8, w.extractLsb' 24 8]

/-- A word from up to four bytes, least significant first; missing bytes are 0. -/
def bytesWord (bs : List Byte) : Word :=
  nw ((bs.getD 0 0).toNat + (bs.getD 1 0).toNat * 2 ^ 8 + (bs.getD 2 0).toNat * 2 ^ 16 + (bs.getD 3 0).toNat * 2 ^ 24)

/-- Bytes of a list of words. -/
def wordsBytes (ws : List Word) : List Byte := ws.flatMap wordBytes

/-- What a sparse map holds at a key, if listed. -/
def mapFind {α : Type} : List (Nat × α) → Nat → Option α
  | [], _ => none
  | (k, v) :: m, a => if a = k then some v else if a < k then none else mapFind m a

/-- The map with a key removed. -/
def mapDel {α : Type} : List (Nat × α) → Nat → List (Nat × α)
  | [], _ => []
  | (k, v) :: m, a => if a = k then m else if a < k then (k, v) :: m else (k, v) :: mapDel m a

/-- The map with a key listed, keys rising. -/
def mapPut {α : Type} : List (Nat × α) → Nat → α → List (Nat × α)
  | [], a, x => [(a, x)]
  | (k, v) :: m, a, x =>
    if a = k then (a, x) :: m else if a < k then (a, x) :: (k, v) :: m else (k, v) :: mapPut m a x

/-- The map with a key set to x, where an unlisted key reads d. -/
def mapSet {α : Type} [DecidableEq α] (m : List (Nat × α)) (a : Nat) (x d : α) : List (Nat × α) :=
  if x = d then mapDel m a else mapPut m a x

/-- Keys strictly rising from above a bound. -/
def risingFrom {α : Type} : Nat → List (Nat × α) → Bool
  | _, [] => true
  | b, (k, _) :: m => decide (b ≤ k) && risingFrom (k + 1) m

end Sys2Proof.Machine
end

