-- ==== Sys2Proof/Machine/RegMap.lean ====
section
/-!
DEFINITION. The register map: every register of every page as the register tables of chapters 1 to 19 list it, with its
access code (Table 0-4), its reset value and the bits that are not reserved (R9). `stride` and `reps` spell a row that
a table gives for several indices.
-/
namespace Sys2Proof.Machine

/-- Access codes of Table 0-4; LM is the mirror of ST (R43). -/
inductive Acc where
  | ro
  | rw
  | w1c
  | wo
  | st
  deriving DecidableEq, Repr

/-- One row of a register table. -/
structure RegRow where
  off : Nat
  stride : Nat
  reps : Nat
  acc : Acc
  reset : Word
  mask : Word
  deriving DecidableEq, Repr

/-- Registers of the SYS page. -/
def rowsSys : List RegRow :=
  [ ⟨0x000, 0x4, 1, .ro, 0x00000000, 0xFFFFFFFF⟩,
    ⟨0x004, 0x4, 1, .ro, 0x00000000, 0xFFFFFFFF⟩,
    ⟨0x008, 0x4, 1, .rw, 0x00000000, 0x00000000⟩,
    ⟨0x00C, 0x4, 1, .ro, 0x00000000, 0xFFFFFFFF⟩,
    ⟨0x010, 0x4, 1, .w1c, 0x00000000, 0x0000001F⟩,
    ⟨0x014, 0x4, 1, .rw, 0x00000000, 0x0000001F⟩,
    ⟨0x018, 0x4, 1, .ro, 0x00000000, 0xFFFFFFFF⟩,
    ⟨0x01C, 0x4, 1, .ro, 0x00000000, 0xFFFFFFFF⟩,
    ⟨0x020, 0x4, 1, .ro, 0x00000000, 0xFFFFFFFF⟩,
    ⟨0x024, 0x4, 1, .wo, 0x00000000, 0xFFFFFFFF⟩,
    ⟨0x028, 0x4, 1, .rw, 0x00000000, 0xFFFFFFFF⟩,
    ⟨0x02C, 0x4, 1, .rw, 0x00000000, 0xFFFFFFFF⟩,
    ⟨0x030, 0x4, 1, .ro, 0x00008000, 0xFFFFFFFF⟩,
    ⟨0x034, 0x4, 1, .ro, 0x00000000, 0xFFFFFFFF⟩,
    ⟨0x038, 0x4, 1, .ro, 0x00000000, 0xFFFFFFFF⟩,
    ⟨0x03C, 0x4, 1, .ro, 0x00000000, 0xFFFFFFFF⟩,
    ⟨0x040, 0x4, 1, .ro, 0x00000000, 0xFFFFFFFF⟩,
    ⟨0x044, 0x4, 1, .rw, 0x000003E8, 0xFFFFFFFF⟩,
    ⟨0x048, 0x4, 1, .ro, 0x00000000, 0xFFFFFFFF⟩,
    ⟨0x04C, 0x4, 1, .ro, 0x00000000, 0xFFFFFFFF⟩,
    ⟨0x050, 0x4, 1, .ro, 0x00000000, 0xFFFFFFFF⟩,
    ⟨0x054, 0x4, 1, .ro, 0x00000000, 0xFFFFFFFF⟩,
    ⟨0x058, 0x4, 1, .ro, 0x00000000, 0xFFFFFFFF⟩,
    ⟨0x05C, 0x4, 1, .ro, 0x00000000, 0xFFFFFFFF⟩,
    ⟨0x060, 0x4, 1, .ro, 0x00000000, 0xFFFFFFFF⟩,
    ⟨0x064, 0x4, 1, .ro, 0x00000000, 0xFFFFFFFF⟩,
    ⟨0x070, 0x4, 1, .ro, 0x00000000, 0xFFFFFFFF⟩,
    ⟨0x074, 0x4, 1, .ro, 0x00000000, 0xFFFFFFFF⟩,
    ⟨0x078, 0x4, 1, .ro, 0x00000000, 0xFF000000⟩,
    ⟨0x100, 0x4, 1, .st, 0x00000031, 0x000000FF⟩ ]

/-- Registers, part 0, of the TIME page. -/
def rowsTimePart0 : List RegRow :=
  [ ⟨0x000, 0x4, 1, .ro, 0x00000000, 0xFFFFFFFF⟩,
    ⟨0x004, 0x4, 1, .ro, 0x00000000, 0xFFFFFFFF⟩,
    ⟨0x008, 0x4, 1, .rw, 0x00000000, 0x00000000⟩,
    ⟨0x00C, 0x4, 1, .ro, 0x00000000, 0xFFFFFFFF⟩,
    ⟨0x010, 0x4, 1, .w1c, 0x00000000, 0x00000000⟩,
    ⟨0x014, 0x4, 1, .rw, 0x00000000, 0x00000000⟩,
    ⟨0x018, 0x4, 1, .ro, 0x00000000, 0xFFFFFFFF⟩,
    ⟨0x01C, 0x4, 1, .ro, 0x00000000, 0xFFFFFFFF⟩,
    ⟨0x020, 0x4, 1, .ro, 0x00000000, 0xFFFFFFFF⟩,
    ⟨0x024, 0x4, 1, .ro, 0x00000000, 0xFFFFFFFF⟩,
    ⟨0x028, 0x4, 1, .ro, 0x00000000, 0xFFFFFFFF⟩,
    ⟨0x02C, 0x4, 1, .ro, 0x00000000, 0xFFFFFFFF⟩,
    ⟨0x030, 0x4, 1, .ro, 0x00000000, 0xFFFFFFFF⟩,
    ⟨0x034, 0x4, 1, .ro, 0x00000000, 0xFFFFFFFF⟩,
    ⟨0x038, 0x4, 1, .ro, 0x00000000, 0xFFFFFFFF⟩,
    ⟨0x03C, 0x4, 1, .ro, 0x000030D4, 0xFFFFFFFF⟩,
    ⟨0x040, 0x4, 1, .ro, 0x00000040, 0xFFFFFFFF⟩,
    ⟨0x044, 0x4, 1, .ro, 0x00000000, 0xFFFFFFFF⟩,
    ⟨0x048, 0x4, 1, .ro, 0x00000000, 0xFFFFFFFF⟩,
    ⟨0x060, 0x4, 1, .ro, 0x00000000, 0xFFFFFFFF⟩,
    ⟨0x064, 0x4, 1, .ro, 0x00000000, 0xFFFFFFFF⟩,
    ⟨0x068, 0x4, 1, .ro, 0x00000000, 0xFFFFFFFF⟩,
    ⟨0x06C, 0x4, 1, .ro, 0x00000000, 0xFFFFFFFF⟩,
    ⟨0x070, 0x4, 1, .ro, 0x00000000, 0xFFFFFFFF⟩,
    ⟨0x074, 0x4, 1, .ro, 0x00000000, 0xFFFFFFFF⟩,
    ⟨0x078, 0x4, 1, .wo, 0x00000000, 0x00000007⟩,
    ⟨0x07C, 0x4, 1, .rw, 0x00000000, 0xFFFFFFFF⟩,
    ⟨0x080, 0x4, 1, .rw, 0x00000000, 0xFFFFFFFF⟩,
    ⟨0x084, 0x4, 1, .ro, 0x00000000, 0xFFFFFFFF⟩,
    ⟨0x088, 0x4, 1, .ro, 0x00000000, 0xFFFFFFFF⟩,
    ⟨0x08C, 0x4, 1, .ro, 0x00000000, 0xFFFFFFFF⟩,
    ⟨0x100, 0x4, 1, .st, 0x000030D4, 0xFFFFFFFF⟩,
    ⟨0x104, 0x4, 1, .st, 0x00000000, 0x00000001⟩,
    ⟨0x140, 0x4, 1, .st, 0x00320000, 0xFFFF0F17⟩,
    ⟨0x144, 0x4, 1, .st, 0x03E803E8, 0xFFFFFFFF⟩,
    ⟨0x148, 0x4, 1, .st, 0x00000000, 0xFFFFFFFF⟩,
    ⟨0x14C, 0x4, 1, .st, 0x00000000, 0xFFFFFFFF⟩,
    ⟨0x160, 0x10, 4, .st, 0x00000000, 0x00000033⟩,
    ⟨0x164, 0x10, 4, .st, 0x3B9ACA00, 0xFFFFFFFF⟩,
    ⟨0x168, 0x10, 4, .st, 0x00002710, 0xFFFFFFFF⟩ ]

/-- Registers, part 1, of the TIME page. -/
def rowsTimePart1 : List RegRow :=
  [ ⟨0x16C, 0x10, 4, .st, 0x00000000, 0xFFFFFFFF⟩ ]

/-- Registers of the TIME page. -/
def rowsTime : List RegRow := rowsTimePart0 ++ rowsTimePart1

/-- Registers of the SCHED page. -/
def rowsSched : List RegRow :=
  [ ⟨0x000, 0x4, 1, .ro, 0x00000000, 0xFFFFFFFF⟩,
    ⟨0x004, 0x4, 1, .ro, 0x00000008, 0x000000FF⟩,
    ⟨0x008, 0x4, 1, .rw, 0x00000000, 0x00000000⟩,
    ⟨0x00C, 0x4, 1, .ro, 0x00000000, 0xFFFFFFFF⟩,
    ⟨0x010, 0x4, 1, .w1c, 0x00000000, 0x0000001F⟩,
    ⟨0x014, 0x4, 1, .rw, 0x00000000, 0x0000001F⟩,
    ⟨0x018, 0x4, 1, .ro, 0x00000000, 0x00000003⟩,
    ⟨0x01C, 0x4, 1, .ro, 0x00000000, 0xFFFFFFFF⟩,
    ⟨0x020, 0x4, 1, .ro, 0x00000000, 0xFFFFFFFF⟩,
    ⟨0x024, 0x4, 1, .rw, 0x00000000, 0x00000003⟩,
    ⟨0x028, 0x4, 1, .ro, 0x00000000, 0x00000103⟩,
    ⟨0x02C, 0x4, 1, .ro, 0x00000000, 0xFFFFFFFF⟩,
    ⟨0x030, 0x4, 1, .ro, 0x00000000, 0xFFFFFFFF⟩,
    ⟨0x034, 0x4, 1, .ro, 0x00000000, 0xFFFFFFFF⟩,
    ⟨0x038, 0x4, 1, .ro, 0x00000000, 0x0000FFFF⟩,
    ⟨0x03C, 0x4, 1, .ro, 0x00000000, 0xFFFFFFFF⟩,
    ⟨0x040, 0x4, 1, .ro, 0x00000000, 0x3FFFFFFF⟩,
    ⟨0x044, 0x4, 1, .ro, 0x00000000, 0x3FFFFFFF⟩,
    ⟨0x100, 0x4, 1, .st, 0x00000007, 0x00000007⟩,
    ⟨0x104, 0x4, 1, .st, 0x0000000F, 0x0000030F⟩,
    ⟨0x108, 0x4, 1, .st, 0x0000FFFF, 0xFFFFFFFF⟩,
    ⟨0x10C, 0x4, 1, .st, 0x00000013, 0x0000007F⟩,
    ⟨0x110, 0x4, 1, .st, 0x00000640, 0x0000FFFF⟩,
    ⟨0x114, 0x4, 1, .st, 0x00000384, 0x0000FFFF⟩,
    ⟨0x118, 0x4, 1, .st, 0x00000190, 0x0000FFFF⟩,
    ⟨0x11C, 0x4, 1, .st, 0x00000550, 0x0000FFFF⟩,
    ⟨0x120, 0x4, 1, .st, 0x000004B0, 0x0000FFFF⟩,
    ⟨0x124, 0x4, 1, .st, 0x000005DC, 0x0000FFFF⟩,
    ⟨0x128, 0x4, 1, .st, 0x000005DC, 0x0000FFFF⟩,
    ⟨0x12C, 0x4, 1, .st, 0x000005DC, 0x0000FFFF⟩,
    ⟨0x130, 0x4, 1, .st, 0x000003E8, 0x0000FFFF⟩ ]

/-- Registers of the HK page. -/
def rowsHk : List RegRow :=
  [ ⟨0x000, 0x4, 1, .ro, 0x00000000, 0xFFFFFFFF⟩,
    ⟨0x004, 0x4, 1, .ro, 0x00000018, 0x000000FF⟩,
    ⟨0x008, 0x4, 1, .rw, 0x00000000, 0x00000000⟩,
    ⟨0x00C, 0x4, 1, .ro, 0x00000000, 0xFFFFFFFF⟩,
    ⟨0x010, 0x4, 1, .w1c, 0x00000000, 0x0000003F⟩,
    ⟨0x014, 0x4, 1, .rw, 0x00000000, 0x0000003F⟩,
    ⟨0x018, 0x4, 1, .ro, 0x00000000, 0x0000000F⟩,
    ⟨0x01C, 0x4, 1, .ro, 0x00000000, 0xFFFFFFFF⟩,
    ⟨0x020, 0x4, 1, .ro, 0x00000000, 0x0000070F⟩,
    ⟨0x024, 0x4, 1, .ro, 0x00000000, 0xFFFFFFFF⟩,
    ⟨0x040, 0x4, 24, .ro, 0x00000000, 0xFFFFFFFF⟩,
    ⟨0x0A0, 0x4, 1, .ro, 0x00000000, 0xFFFFFFFF⟩,
    ⟨0x0A4, 0x4, 1, .ro, 0x00000000, 0xFFFFFFFF⟩,
    ⟨0x0A8, 0x4, 1, .ro, 0x00000000, 0x80FFFFFF⟩,
    ⟨0x0AC, 0x4, 1, .ro, 0x00000000, 0xFFFFFFFF⟩,
    ⟨0x0B0, 0x4, 1, .ro, 0x00000000, 0x0000FFFF⟩,
    ⟨0x100, 0x4, 1, .st, 0x087006E0, 0xFFFFFFFF⟩,
    ⟨0x104, 0x4, 1, .st, 0x09600780, 0xFFFFFFFF⟩,
    ⟨0x108, 0x4, 1, .st, 0x03E80008, 0xFFFF003F⟩,
    ⟨0x10C, 0x4, 1, .st, 0x00000000, 0x00FFFFFF⟩,
    ⟨0x110, 0x4, 1, .st, 0x0000003C, 0x00000FFF⟩,
    ⟨0x114, 0x4, 1, .st, 0x03E80000, 0xFFFF010F⟩,
    ⟨0x118, 0x4, 1, .st, 0x00000000, 0x00000FFF⟩,
    ⟨0x11C, 0x4, 1, .st, 0x00000000, 0x0000FFFF⟩ ]

/-- Registers of the SAFE page. -/
def rowsSafe : List RegRow :=
  [ ⟨0x000, 0x4, 1, .ro, 0x00000000, 0xFFFFFFFF⟩,
    ⟨0x004, 0x4, 1, .ro, 0x00000810, 0x0000FFFF⟩,
    ⟨0x008, 0x4, 1, .rw, 0x00000000, 0x00000000⟩,
    ⟨0x00C, 0x4, 1, .ro, 0x00000100, 0xFFFFFFFF⟩,
    ⟨0x010, 0x4, 1, .w1c, 0x00000000, 0x000000FF⟩,
    ⟨0x014, 0x4, 1, .rw, 0x00000000, 0x000000FF⟩,
    ⟨0x018, 0x4, 1, .ro, 0x00000000, 0x0000001F⟩,
    ⟨0x01C, 0x4, 1, .ro, 0x00000000, 0xFFFFFFFF⟩,
    ⟨0x020, 0x4, 1, .wo, 0x00000000, 0x000F000F⟩,
    ⟨0x024, 0x4, 1, .ro, 0x00000000, 0x000F0FFF⟩,
    ⟨0x028, 0x4, 1, .ro, 0x00000100, 0x000103FF⟩,
    ⟨0x02C, 0x4, 1, .ro, 0x00000000, 0x0000FFFF⟩,
    ⟨0x030, 0x4, 1, .ro, 0x00000000, 0xFFFFFFFF⟩,
    ⟨0x034, 0x4, 1, .ro, 0x00000000, 0xFFFFFFFF⟩,
    ⟨0x038, 0x4, 1, .rw, 0x00000000, 0xFFFFFFFF⟩,
    ⟨0x040, 0x4, 16, .ro, 0xF0000000, 0xFFFFFFFF⟩,
    ⟨0x080, 0x4, 16, .ro, 0x00000000, 0x000007FF⟩,
    ⟨0x0C0, 0x4, 8, .ro, 0x00000000, 0xFFFFFFFF⟩,
    ⟨0x0E0, 0x4, 1, .ro, 0x00000000, 0xFFFFFFFF⟩,
    ⟨0x0E4, 0x4, 1, .ro, 0x00000000, 0xFFFFFFFF⟩,
    ⟨0x100, 0x4, 1, .st, 0x030A0064, 0x0FFFFFFF⟩,
    ⟨0x104, 0x4, 1, .st, 0xFFFF0005, 0xFFFF000F⟩,
    ⟨0x108, 0x4, 1, .st, 0x000000A8, 0x00003FFF⟩,
    ⟨0x10C, 0x4, 1, .st, 0x00000000, 0x00000017⟩,
    ⟨0x110, 0x4, 1, .st, 0x00641432, 0xFFFFFFFF⟩,
    ⟨0x120, 0x4, 8, .st, 0x00000000, 0xFFFF730F⟩,
    ⟨0x140, 0x4, 8, .st, 0x00000000, 0xFFFFFFFF⟩,
    ⟨0x200, 0x40, 16, .st, 0x20000000, 0xF0371F00⟩,
    ⟨0x204, 0x40, 16, .st, 0x07D00080, 0xFFFF00FF⟩,
    ⟨0x208, 0x40, 16, .st, 0x00010000, 0xFFFFFFFF⟩,
    ⟨0x20C, 0x40, 16, .st, 0x7FFFFFFF, 0xFFFFFFFF⟩,
    ⟨0x210, 0x40, 16, .st, 0x00004000, 0xFFFFFFFF⟩,
    ⟨0x214, 0x40, 16, .st, 0x00000100, 0xFFFFFFFF⟩,
    ⟨0x218, 0x40, 16, .st, 0x00000100, 0xFFFFFFFF⟩,
    ⟨0x21C, 0x40, 16, .st, 0x14080000, 0xFFFF0000⟩,
    ⟨0x220, 0x40, 16, .st, 0x00020000, 0xFFFFFFFF⟩,
    ⟨0x224, 0x40, 16, .st, 0x00001F40, 0x0000FFFF⟩,
    ⟨0x228, 0x40, 16, .st, 0x00100000, 0xFFFFFFFF⟩,
    ⟨0x22C, 0x40, 16, .st, 0x00000000, 0xFFFFFFFF⟩,
    ⟨0x230, 0x40, 16, .st, 0x012C01F4, 0xFFFFFFFF⟩ ]

/-- Registers of the FIO page. -/
def rowsFio : List RegRow :=
  [ ⟨0x000, 0x4, 1, .ro, 0x00000000, 0xFFFFFFFF⟩,
    ⟨0x004, 0x4, 1, .ro, 0x00020810, 0x00FFFFFF⟩,
    ⟨0x008, 0x4, 1, .rw, 0x00000000, 0x00000000⟩,
    ⟨0x00C, 0x4, 1, .ro, 0x000004C0, 0xFFFFFFFF⟩,
    ⟨0x010, 0x4, 1, .w1c, 0x00000000, 0xFFFF003F⟩,
    ⟨0x014, 0x4, 1, .rw, 0x00000000, 0xFFFF003F⟩,
    ⟨0x018, 0x4, 1, .ro, 0x00000000, 0x0000FF0F⟩,
    ⟨0x01C, 0x4, 1, .ro, 0x00000000, 0xFFFFFFFF⟩,
    ⟨0x020, 0x4, 1, .ro, 0x000004C0, 0xFFFFFFFF⟩,
    ⟨0x024, 0x4, 1, .ro, 0x00000000, 0x0000FFFF⟩,
    ⟨0x028, 0x4, 1, .ro, 0x00000000, 0x0000FFFF⟩,
    ⟨0x02C, 0x4, 1, .ro, 0x00000000, 0x0000FFFF⟩,
    ⟨0x030, 0x4, 1, .rw, 0x00000000, 0x000000FF⟩,
    ⟨0x034, 0x4, 1, .ro, 0x00000000, 0x000000FF⟩,
    ⟨0x038, 0x4, 1, .ro, 0x00000000, 0x000000FF⟩,
    ⟨0x03C, 0x4, 1, .ro, 0x00000000, 0x0000FFFF⟩,
    ⟨0x040, 0x4, 1, .ro, 0x00000000, 0x0000FFFF⟩,
    ⟨0x044, 0x4, 1, .ro, 0x00000000, 0x0000FFFF⟩,
    ⟨0x100, 0x4, 16, .st, 0x03E80010, 0xFFFF0330⟩,
    ⟨0x140, 0x4, 1, .st, 0x000000FF, 0x000000FF⟩,
    ⟨0x144, 0x4, 1, .st, 0x00000000, 0x0000FFFF⟩ ]

/-- Registers of the PLINK page. -/
def rowsPlink : List RegRow :=
  [ ⟨0x000, 0x4, 1, .ro, 0x00000000, 0xFFFFFFFF⟩,
    ⟨0x004, 0x4, 1, .ro, 0x00000C04, 0x0000FF0F⟩,
    ⟨0x008, 0x4, 1, .rw, 0x00000000, 0x00000000⟩,
    ⟨0x00C, 0x4, 1, .ro, 0x00000000, 0xFFFFFFFF⟩,
    ⟨0x010, 0x4, 1, .w1c, 0x00000000, 0x00003FFF⟩,
    ⟨0x014, 0x4, 1, .rw, 0x00000000, 0x00003FFF⟩,
    ⟨0x018, 0x4, 1, .ro, 0x00000000, 0x0000001F⟩,
    ⟨0x01C, 0x4, 1, .ro, 0x00000000, 0xFFFFFFFF⟩,
    ⟨0x020, 0x4, 1, .ro, 0x00000000, 0xFFFF0007⟩,
    ⟨0x024, 0x4, 1, .ro, 0x00000000, 0xFFFFFFFF⟩,
    ⟨0x028, 0x4, 1, .ro, 0x00000000, 0xFFFFFFFF⟩,
    ⟨0x02C, 0x4, 1, .ro, 0x00000000, 0x0001FFFF⟩,
    ⟨0x030, 0x4, 1, .ro, 0x00000000, 0x0000000F⟩,
    ⟨0x034, 0x4, 1, .ro, 0x00000000, 0xE301FFFF⟩,
    ⟨0x038, 0x4, 1, .ro, 0x00000000, 0xFF003777⟩,
    ⟨0x03C, 0x4, 1, .ro, 0x00000000, 0x00FFFFFF⟩,
    ⟨0x100, 0x4, 4, .st, 0x00000000, 0xB100FFFF⟩,
    ⟨0x110, 0x4, 4, .st, 0x00000000, 0x000FFFFF⟩,
    ⟨0x120, 0x4, 1, .st, 0x000186A0, 0x000FFFFF⟩,
    ⟨0x124, 0x4, 1, .st, 0x000186A0, 0x000FFFFF⟩,
    ⟨0x128, 0x4, 1, .st, 0x00FE00FA, 0x00FFFFFF⟩,
    ⟨0x12C, 0x4, 1, .st, 0x0000DAC0, 0x000FFFFF⟩,
    ⟨0x130, 0x4, 1, .st, 0x0000EA60, 0x000FFFFF⟩,
    ⟨0x134, 0x4, 1, .st, 0x003207D0, 0xFFFFFFFF⟩,
    ⟨0x138, 0x4, 1, .st, 0x01F4CC33, 0xFFFFFFFF⟩ ]

/-- Registers of the NVLOG page. -/
def rowsNvlog : List RegRow :=
  [ ⟨0x000, 0x4, 1, .ro, 0x00000000, 0xFFFFFFFF⟩,
    ⟨0x004, 0x4, 1, .ro, 0x00000100, 0x0000FFFF⟩,
    ⟨0x008, 0x4, 1, .rw, 0x00000000, 0x00000000⟩,
    ⟨0x00C, 0x4, 1, .ro, 0x00000001, 0xFFFFFFFF⟩,
    ⟨0x010, 0x4, 1, .w1c, 0x00000000, 0x0000000F⟩,
    ⟨0x014, 0x4, 1, .rw, 0x00000000, 0x0000000F⟩,
    ⟨0x018, 0x4, 1, .ro, 0x00000000, 0x00000001⟩,
    ⟨0x01C, 0x4, 1, .ro, 0x00000000, 0xFFFFFFFF⟩,
    ⟨0x020, 0x4, 1, .ro, 0x00000001, 0xFFF0FF07⟩,
    ⟨0x024, 0x4, 1, .ro, 0x00000000, 0xFFFFFFFF⟩,
    ⟨0x028, 0x4, 1, .ro, 0x00000000, 0xFFFFFFFF⟩,
    ⟨0x02C, 0x4, 1, .ro, 0x00000000, 0x0000FFFF⟩,
    ⟨0x030, 0x4, 1, .ro, 0x00000000, 0x0000FFFF⟩,
    ⟨0x034, 0x4, 1, .ro, 0x00000000, 0x00001FFF⟩,
    ⟨0x038, 0x4, 1, .ro, 0x00000000, 0xFFFFFFFF⟩,
    ⟨0x03C, 0x4, 1, .ro, 0x00000000, 0xFFFFFFFF⟩,
    ⟨0x040, 0x4, 1, .ro, 0x00000000, 0xFFFFFFFF⟩,
    ⟨0x044, 0x4, 1, .ro, 0x00000000, 0xFFFFFFFF⟩ ]

/-- Registers of the HOST page. -/
def rowsHost : List RegRow :=
  [ ⟨0x000, 0x4, 1, .ro, 0x00000000, 0xFFFFFFFF⟩,
    ⟨0x004, 0x4, 1, .ro, 0x00004050, 0x0000FFFF⟩,
    ⟨0x008, 0x4, 1, .rw, 0x00000000, 0x00000000⟩,
    ⟨0x00C, 0x4, 1, .ro, 0x00000000, 0xFFFFFFFF⟩,
    ⟨0x010, 0x4, 1, .w1c, 0x00000000, 0x00000007⟩,
    ⟨0x014, 0x4, 1, .rw, 0x00000000, 0x00000007⟩,
    ⟨0x018, 0x4, 1, .ro, 0x00000000, 0xFFFFFFFF⟩,
    ⟨0x01C, 0x4, 1, .ro, 0x00000000, 0xFFFFFFFF⟩,
    ⟨0x020, 0x4, 1, .ro, 0x00000000, 0x00000101⟩,
    ⟨0x024, 0x4, 1, .ro, 0x00000000, 0x0000FFFF⟩,
    ⟨0x028, 0x4, 1, .ro, 0x00000000, 0x0000FFFF⟩,
    ⟨0x02C, 0x4, 1, .ro, 0x00000000, 0xFFFFFFFF⟩,
    ⟨0x030, 0x4, 1, .ro, 0x00000000, 0xF0FFFFFF⟩,
    ⟨0x040, 0x4, 1, .rw, 0xFFFFFFFF, 0xFFFFFFFF⟩,
    ⟨0x044, 0x4, 1, .rw, 0xFFFFFFFF, 0xFFFFFFFF⟩,
    ⟨0x048, 0x4, 1, .rw, 0x00FFFFFF, 0x00FFFFFF⟩,
    ⟨0x100, 0x4, 1, .st, 0x00002000, 0x0000FF01⟩ ]

/-- Registers of the MGMT page. -/
def rowsMgmt : List RegRow :=
  [ ⟨0x000, 0x4, 1, .ro, 0x00000000, 0xFFFFFFFF⟩,
    ⟨0x004, 0x4, 1, .ro, 0x00000000, 0x0000007F⟩,
    ⟨0x008, 0x4, 1, .rw, 0x00000000, 0x00000000⟩,
    ⟨0x00C, 0x4, 1, .ro, 0x00000000, 0xFFFFFFFF⟩,
    ⟨0x010, 0x4, 1, .w1c, 0x00000000, 0x0000001F⟩,
    ⟨0x014, 0x4, 1, .rw, 0x00000000, 0x0000001F⟩,
    ⟨0x018, 0x4, 1, .ro, 0x00000000, 0x00000001⟩,
    ⟨0x01C, 0x4, 1, .ro, 0x00000000, 0xFFFFFFFF⟩,
    ⟨0x020, 0x4, 1, .ro, 0x00000000, 0xF0000103⟩,
    ⟨0x024, 0x4, 1, .wo, 0x00000000, 0xFFFFFFFF⟩,
    ⟨0x028, 0x4, 1, .rw, 0x00000000, 0xFFFFFFFF⟩,
    ⟨0x02C, 0x4, 1, .rw, 0x00000000, 0xFFFFFFFF⟩,
    ⟨0x030, 0x4, 1, .ro, 0x00008000, 0xFFFFFFFF⟩,
    ⟨0x034, 0x4, 1, .ro, 0x00000000, 0x0000FFFF⟩,
    ⟨0x038, 0x4, 1, .ro, 0x00000000, 0x0000FFFF⟩,
    ⟨0x03C, 0x4, 1, .ro, 0x00000000, 0xFFFFFFFF⟩,
    ⟨0x040, 0x4, 1, .rw, 0xFFFFFFFF, 0xFFFFFFFF⟩,
    ⟨0x044, 0x4, 1, .rw, 0xFFFFFFFF, 0xFFFFFFFF⟩,
    ⟨0x048, 0x4, 1, .rw, 0x00FFFFFF, 0x00FFFFFF⟩,
    ⟨0x050, 0x4, 1, .ro, 0x00000000, 0xFFFFFFFF⟩,
    ⟨0x054, 0x4, 1, .ro, 0x00000000, 0xFFFFFFFF⟩,
    ⟨0x058, 0x4, 1, .ro, 0x00000000, 0x0001FFFF⟩,
    ⟨0x05C, 0x4, 1, .ro, 0x00000000, 0x0000FFFF⟩,
    ⟨0x100, 0x4, 1, .st, 0x00000000, 0x00000001⟩ ]

/-- Registers of the DMA page. -/
def rowsDma : List RegRow :=
  [ ⟨0x000, 0x4, 1, .ro, 0x00000000, 0xFFFFFFFF⟩,
    ⟨0x004, 0x4, 1, .ro, 0x00001040, 0x0000FFFF⟩,
    ⟨0x008, 0x4, 1, .rw, 0x00000000, 0x00000000⟩,
    ⟨0x00C, 0x4, 1, .ro, 0x00000000, 0xFFFFFFFF⟩,
    ⟨0x010, 0x4, 1, .w1c, 0x00000000, 0x00000007⟩,
    ⟨0x014, 0x4, 1, .rw, 0x00000000, 0x00000007⟩,
    ⟨0x018, 0x4, 1, .ro, 0x00000000, 0x00000003⟩,
    ⟨0x01C, 0x4, 1, .ro, 0x00000000, 0xFFFFFFFF⟩,
    ⟨0x020, 0x4, 1, .ro, 0x00000000, 0x003F0101⟩,
    ⟨0x024, 0x4, 1, .ro, 0x00000000, 0x80FFFFFF⟩,
    ⟨0x028, 0x4, 1, .ro, 0x00000000, 0x0000000F⟩,
    ⟨0x02C, 0x4, 1, .wo, 0x00000000, 0x00000001⟩,
    ⟨0x030, 0x4, 1, .ro, 0x00000000, 0xFFFFFFFF⟩,
    ⟨0x034, 0x4, 1, .ro, 0x00000000, 0xFFFFFFFF⟩,
    ⟨0x038, 0x4, 1, .ro, 0x00000000, 0x0000FFFF⟩,
    ⟨0x100, 0x4, 1, .st, 0x00000000, 0xFFFF0001⟩,
    ⟨0x104, 0x4, 1, .st, 0x00000000, 0x0000FFFF⟩ ]

/-- Registers of the TRACE page. -/
def rowsTrace : List RegRow :=
  [ ⟨0x000, 0x4, 1, .ro, 0x00000000, 0xFFFFFFFF⟩,
    ⟨0x004, 0x4, 1, .ro, 0x04041010, 0xFFFFFFFF⟩,
    ⟨0x008, 0x4, 1, .rw, 0x00000000, 0x00000000⟩,
    ⟨0x00C, 0x4, 1, .ro, 0x00000000, 0xFFFFFFFF⟩,
    ⟨0x010, 0x4, 1, .w1c, 0x00000000, 0x0000001F⟩,
    ⟨0x014, 0x4, 1, .rw, 0x00000000, 0x0000001F⟩,
    ⟨0x018, 0x4, 1, .ro, 0x00000000, 0x00000001⟩,
    ⟨0x01C, 0x4, 1, .ro, 0x00000000, 0xFFFFFFFF⟩,
    ⟨0x020, 0x4, 1, .ro, 0x00000000, 0x0F1F0107⟩,
    ⟨0x024, 0x4, 1, .wo, 0x00000000, 0x0000000F⟩,
    ⟨0x028, 0x4, 1, .ro, 0x00000000, 0xFFFFFFFF⟩,
    ⟨0x02C, 0x4, 1, .ro, 0x00000000, 0x0000FFFF⟩,
    ⟨0x030, 0x4, 1, .ro, 0x00000000, 0x0000FFFF⟩,
    ⟨0x034, 0x4, 1, .ro, 0x00000000, 0x0000FFFF⟩,
    ⟨0x100, 0x4, 1, .st, 0x00010000, 0x001F3607⟩,
    ⟨0x104, 0x4, 1, .st, 0x000000FA, 0x00FFFFFF⟩,
    ⟨0x108, 0x4, 1, .st, 0x00000000, 0x003F0700⟩,
    ⟨0x10C, 0x4, 1, .st, 0x00000002, 0x0000FFFF⟩,
    ⟨0x110, 0x4, 1, .st, 0x00030000, 0x0003FFFF⟩,
    ⟨0x114, 0x4, 1, .st, 0x00000000, 0x0003FFFF⟩,
    ⟨0x118, 0x4, 1, .st, 0x00000000, 0x0003FFFF⟩,
    ⟨0x11C, 0x4, 1, .st, 0x00000000, 0x01FFFFFF⟩,
    ⟨0x120, 0x4, 1, .st, 0x00000000, 0x0000FFFF⟩,
    ⟨0x140, 0x4, 16, .st, 0x00000000, 0x8000FFFF⟩,
    ⟨0x180, 0x20, 4, .st, 0x00000000, 0xFF3F1FFF⟩,
    ⟨0x184, 0x20, 4, .st, 0x00000000, 0xFFFFFFFF⟩,
    ⟨0x188, 0x20, 4, .st, 0x00000000, 0xFFFFFFFF⟩,
    ⟨0x18C, 0x20, 4, .st, 0x00000000, 0xFFFFFFFF⟩,
    ⟨0x190, 0x20, 4, .st, 0x00000000, 0xFFFFFFFF⟩,
    ⟨0x200, 0x10, 4, .st, 0x00000000, 0x8FFF000F⟩,
    ⟨0x204, 0x10, 4, .st, 0x00100000, 0x00FFFFFF⟩ ]

/-- Registers of the CAN page. -/
def rowsCan : List RegRow :=
  [ ⟨0x000, 0x4, 1, .ro, 0x00000000, 0xFFFFFFFF⟩,
    ⟨0x004, 0x4, 1, .ro, 0x00001080, 0x0000FFFF⟩,
    ⟨0x008, 0x4, 1, .rw, 0x00000000, 0x00000000⟩,
    ⟨0x00C, 0x4, 1, .ro, 0x00000000, 0xFFFFFFFF⟩,
    ⟨0x010, 0x4, 1, .w1c, 0x00000000, 0x0000007F⟩,
    ⟨0x014, 0x4, 1, .rw, 0x00000000, 0x0000007F⟩,
    ⟨0x018, 0x4, 1, .ro, 0x00000000, 0x00000003⟩,
    ⟨0x01C, 0x4, 1, .ro, 0x00000000, 0xFFFFFFFF⟩,
    ⟨0x020, 0x4, 1, .ro, 0x00000000, 0x0003FFFF⟩,
    ⟨0x024, 0x4, 1, .wo, 0x00000000, 0x00000001⟩,
    ⟨0x028, 0x4, 1, .rw, 0x00000000, 0x0000FFFF⟩,
    ⟨0x02C, 0x4, 1, .wo, 0x00000000, 0x0000FFFF⟩,
    ⟨0x030, 0x4, 1, .w1c, 0x00000000, 0x0000FFFF⟩,
    ⟨0x034, 0x4, 1, .ro, 0x00000000, 0x00FF007F⟩,
    ⟨0x038, 0x4, 1, .ro, 0x00000000, 0x0000FFFF⟩,
    ⟨0x03C, 0x4, 1, .ro, 0x00000000, 0xFFFFFFFF⟩,
    ⟨0x040, 0x4, 1, .ro, 0x00000000, 0x000000FF⟩,
    ⟨0x100, 0x4, 1, .st, 0x00000000, 0x003F0FFF⟩,
    ⟨0x104, 0x4, 1, .st, 0x3E7E1F00, 0xFFFF7F1F⟩,
    ⟨0x108, 0x4, 1, .st, 0x040D0400, 0x0F1F0F1F⟩,
    ⟨0x10C, 0x4, 1, .st, 0x0000000F, 0x0000007F⟩,
    ⟨0x110, 0x4, 1, .st, 0x00000080, 0x000000FF⟩ ]

/-- Registers of the BILVA page. -/
def rowsBilva : List RegRow :=
  [ ⟨0x000, 0x4, 1, .ro, 0x00000000, 0xFFFFFFFF⟩,
    ⟨0x004, 0x4, 1, .ro, 0x00000402, 0x0000FF0F⟩,
    ⟨0x008, 0x4, 1, .rw, 0x00000000, 0x00000000⟩,
    ⟨0x00C, 0x4, 1, .ro, 0x00000000, 0xFFFFFFFF⟩,
    ⟨0x010, 0x4, 1, .w1c, 0x00000000, 0x0000001F⟩,
    ⟨0x014, 0x4, 1, .rw, 0x00000000, 0x0000001F⟩,
    ⟨0x018, 0x4, 1, .ro, 0x00000000, 0x00000001⟩,
    ⟨0x01C, 0x4, 1, .ro, 0x00000000, 0xFFFFFFFF⟩,
    ⟨0x020, 0x4, 1, .ro, 0x00000000, 0x03FF0003⟩,
    ⟨0x024, 0x4, 1, .rw, 0x00000000, 0xFFFFFFFF⟩,
    ⟨0x028, 0x4, 1, .rw, 0x00000000, 0xFFFFFFFF⟩,
    ⟨0x02C, 0x4, 1, .rw, 0x00000000, 0x0000FFFF⟩,
    ⟨0x030, 0x4, 1, .wo, 0x00000000, 0x00000007⟩,
    ⟨0x034, 0x4, 1, .ro, 0x00000000, 0xFFFFFFFF⟩,
    ⟨0x038, 0x4, 1, .ro, 0x00000000, 0x03FF00FF⟩,
    ⟨0x03C, 0x4, 1, .rw, 0x00000000, 0x0001FFFF⟩,
    ⟨0x040, 0x4, 1, .ro, 0x00000000, 0xFFFFFFFF⟩,
    ⟨0x044, 0x4, 1, .ro, 0x00000000, 0x0000FFFF⟩,
    ⟨0x048, 0x4, 1, .ro, 0x00000000, 0x0000FFFF⟩,
    ⟨0x100, 0x4, 1, .st, 0x00000000, 0x03FF0F03⟩,
    ⟨0x104, 0x4, 1, .st, 0x00000000, 0x0000FFFF⟩ ]

/-- Registers of the ADC page. -/
def rowsAdc : List RegRow :=
  [ ⟨0x000, 0x4, 1, .ro, 0x00000000, 0xFFFFFFFF⟩,
    ⟨0x004, 0x4, 1, .ro, 0x00100808, 0x00FFFFFF⟩,
    ⟨0x008, 0x4, 1, .rw, 0x00000000, 0x00000000⟩,
    ⟨0x00C, 0x4, 1, .ro, 0x00000000, 0xFFFFFFFF⟩,
    ⟨0x010, 0x4, 1, .w1c, 0x00000000, 0x00000000⟩,
    ⟨0x014, 0x4, 1, .rw, 0x00000000, 0x00000000⟩,
    ⟨0x018, 0x4, 1, .ro, 0x00000000, 0xFFFFFFFF⟩,
    ⟨0x01C, 0x4, 1, .ro, 0x00000000, 0xFFFFFFFF⟩,
    ⟨0x020, 0x4, 8, .ro, 0x00000000, 0xFFFFFFFF⟩,
    ⟨0x040, 0x4, 8, .ro, 0x00000000, 0xFFFFFFFF⟩,
    ⟨0x060, 0x4, 16, .ro, 0x00000000, 0x00003FFF⟩,
    ⟨0x100, 0x4, 8, .st, 0x00000000, 0x00000017⟩,
    ⟨0x120, 0x4, 8, .st, 0x01400080, 0xFFFF91FF⟩,
    ⟨0x140, 0x4, 16, .st, 0x09C40000, 0xFFFF0001⟩,
    ⟨0x180, 0x4, 1, .st, 0x00000000, 0x00000003⟩ ]

/-- Registers, part 0, of the AXIS page. -/
def rowsAxisPart0 : List RegRow :=
  [ ⟨0x000, 0x4, 1, .ro, 0x00000000, 0xFFFFFFFF⟩,
    ⟨0x004, 0x4, 1, .ro, 0x00000001, 0x00000001⟩,
    ⟨0x008, 0x4, 1, .rw, 0x00000000, 0x00000000⟩,
    ⟨0x00C, 0x4, 1, .ro, 0x00000000, 0xFFFFFFFF⟩,
    ⟨0x010, 0x4, 1, .w1c, 0x00000000, 0x0000003F⟩,
    ⟨0x014, 0x4, 1, .rw, 0x00000000, 0x0000003F⟩,
    ⟨0x018, 0x4, 1, .ro, 0x00000000, 0x0000000F⟩,
    ⟨0x01C, 0x4, 1, .ro, 0x00000000, 0xFFFFFFFF⟩,
    ⟨0x020, 0x4, 1, .rw, 0x00000000, 0xFFFFFFFF⟩,
    ⟨0x024, 0x4, 1, .rw, 0x00000000, 0xFFFFFFFF⟩,
    ⟨0x028, 0x4, 1, .rw, 0x7FFFFFFF, 0xFFFFFFFF⟩,
    ⟨0x02C, 0x4, 1, .rw, 0x7FFFFFFF, 0x7FFFFFFF⟩,
    ⟨0x030, 0x4, 1, .ro, 0x00000000, 0xFFFFFFFF⟩,
    ⟨0x034, 0x4, 1, .ro, 0x00000000, 0xFFFFFFFF⟩,
    ⟨0x038, 0x4, 1, .ro, 0x00000000, 0xFFFFFFFF⟩,
    ⟨0x03C, 0x4, 1, .ro, 0x00000000, 0xFFFFFFFF⟩,
    ⟨0x040, 0x4, 1, .ro, 0x00000000, 0xFFFFFFFF⟩,
    ⟨0x044, 0x4, 1, .ro, 0x00000000, 0xFFFFFFFF⟩,
    ⟨0x048, 0x4, 1, .ro, 0x00000000, 0xFFFFFFFF⟩,
    ⟨0x04C, 0x4, 1, .ro, 0x00000000, 0xFFFFFFFF⟩,
    ⟨0x050, 0x4, 1, .ro, 0x00000000, 0xFFFFFFFF⟩,
    ⟨0x054, 0x4, 1, .ro, 0x00000000, 0xFFFFFFFF⟩,
    ⟨0x058, 0x4, 1, .ro, 0x00000000, 0x0000FFFF⟩,
    ⟨0x05C, 0x4, 1, .ro, 0x00000000, 0xFFFFFFFF⟩,
    ⟨0x060, 0x4, 1, .ro, 0x00000000, 0xFFFFFFFF⟩,
    ⟨0x064, 0x4, 1, .ro, 0x00000000, 0xFFFFFFFF⟩,
    ⟨0x068, 0x4, 1, .ro, 0x00000000, 0xFFFFFFFF⟩,
    ⟨0x06C, 0x4, 1, .ro, 0x00000000, 0xFFFFFFFF⟩,
    ⟨0x070, 0x4, 1, .ro, 0x00000000, 0xFFFFFFFF⟩,
    ⟨0x074, 0x4, 1, .ro, 0x00000000, 0xFFFFFFFF⟩,
    ⟨0x078, 0x4, 1, .ro, 0x00000000, 0xFFFFFF03⟩,
    ⟨0x07C, 0x4, 1, .ro, 0x00000000, 0x0000FFFF⟩,
    ⟨0x100, 0x4, 1, .st, 0x00000000, 0x0000FFF3⟩,
    ⟨0x104, 0x4, 1, .st, 0x00000000, 0x001F1F1F⟩,
    ⟨0x108, 0x4, 1, .st, 0x00000000, 0x00070707⟩,
    ⟨0x10C, 0x4, 1, .st, 0x00000000, 0x00FF0007⟩,
    ⟨0x110, 0x4, 1, .st, 0x00002710, 0x001FFFFF⟩,
    ⟨0x114, 0x4, 1, .st, 0x0000EA60, 0x0001FFFF⟩,
    ⟨0x118, 0x4, 1, .st, 0x000003E8, 0x00FFFFFF⟩,
    ⟨0x11C, 0x4, 1, .st, 0xFFFFFFFF, 0xFFFFFFFF⟩ ]

/-- Registers, part 1, of the AXIS page. -/
def rowsAxisPart1 : List RegRow :=
  [ ⟨0x120, 0x4, 1, .st, 0x0000FFFF, 0x0000FFFF⟩,
    ⟨0x124, 0x4, 1, .st, 0x00000001, 0x000000FF⟩,
    ⟨0x128, 0x4, 1, .st, 0x00001000, 0x01FFFFFF⟩,
    ⟨0x12C, 0x4, 1, .st, 0x00000000, 0xFFFFFFFF⟩,
    ⟨0x130, 0x4, 1, .st, 0x00000000, 0x00FFFFFF⟩,
    ⟨0x134, 0x4, 1, .st, 0x00000000, 0x00FFFFFF⟩,
    ⟨0x138, 0x4, 1, .st, 0x00000000, 0x00FFFFFF⟩,
    ⟨0x13C, 0x4, 1, .st, 0x00000000, 0x00FFFFFF⟩,
    ⟨0x140, 0x4, 1, .st, 0x00000000, 0xFFFFFFFF⟩,
    ⟨0x144, 0x4, 1, .st, 0x00000000, 0xFFFFFFFF⟩,
    ⟨0x148, 0x4, 1, .st, 0x00000000, 0xFFFFFFFF⟩,
    ⟨0x14C, 0x4, 1, .st, 0x00000000, 0xFFFFFFFF⟩,
    ⟨0x150, 0x4, 1, .st, 0x0000F5C3, 0x0000FFFF⟩,
    ⟨0x154, 0x4, 1, .st, 0x01000096, 0xFFFF03FF⟩,
    ⟨0x158, 0x4, 1, .st, 0x000003E8, 0x00FFFFFF⟩,
    ⟨0x15C, 0x4, 1, .st, 0x00010000, 0xFFFFFFFF⟩,
    ⟨0x160, 0x4, 1, .st, 0x0000BB80, 0x0001FFFF⟩,
    ⟨0x180, 0x4, 8, .st, 0x00000000, 0xFFFFFFFF⟩,
    ⟨0x1A0, 0x4, 1, .st, 0x10000000, 0xFFFFFFFF⟩,
    ⟨0x1A4, 0x4, 1, .st, 0x00000000, 0xFFFFFFFF⟩,
    ⟨0x1A8, 0x4, 1, .st, 0x00000000, 0xFFFFFFFF⟩,
    ⟨0x1AC, 0x4, 1, .st, 0x00010000, 0xFFFFFFFF⟩,
    ⟨0x1B0, 0x4, 1, .st, 0x1E032000, 0xFFFFFFFF⟩,
    ⟨0x1B4, 0x4, 1, .st, 0xFFFFFFFF, 0xFFFFFFFF⟩,
    ⟨0x1B8, 0x4, 1, .st, 0xC7D00014, 0xFFFFFFFF⟩,
    ⟨0x1BC, 0x4, 1, .st, 0x100003E8, 0xFFFFFFFF⟩,
    ⟨0x1C0, 0x4, 1, .st, 0x00100000, 0xFFFFFFFF⟩ ]

/-- Registers of the AXIS page. -/
def rowsAxis : List RegRow := rowsAxisPart0 ++ rowsAxisPart1

/-- Registers, part 0, of the FB page. -/
def rowsFbPart0 : List RegRow :=
  [ ⟨0x000, 0x4, 1, .ro, 0x00000000, 0xFFFFFFFF⟩,
    ⟨0x004, 0x4, 1, .ro, 0x00000000, 0x000001FF⟩,
    ⟨0x008, 0x4, 1, .rw, 0x00000000, 0x00000000⟩,
    ⟨0x00C, 0x4, 1, .ro, 0x00000000, 0xFFFFFFFF⟩,
    ⟨0x010, 0x4, 1, .w1c, 0x00000000, 0x0000007F⟩,
    ⟨0x014, 0x4, 1, .rw, 0x00000000, 0x0000007F⟩,
    ⟨0x018, 0x4, 1, .ro, 0x00000000, 0xFFFFFFFF⟩,
    ⟨0x01C, 0x4, 1, .ro, 0x00000000, 0xFFFFFFFF⟩,
    ⟨0x020, 0x4, 1, .ro, 0x00000000, 0xFFFFFFFF⟩,
    ⟨0x024, 0x4, 1, .ro, 0x00000000, 0xFFFFFFFF⟩,
    ⟨0x028, 0x4, 1, .ro, 0x00000000, 0xFFFFFFFF⟩,
    ⟨0x02C, 0x4, 1, .ro, 0x00000000, 0xFFFFFFFF⟩,
    ⟨0x030, 0x4, 1, .ro, 0x00000000, 0xFFFFFFFF⟩,
    ⟨0x034, 0x4, 1, .ro, 0x00000000, 0xFFFFFFFF⟩,
    ⟨0x038, 0x4, 1, .ro, 0x00000000, 0xFFFFFFFF⟩,
    ⟨0x03C, 0x4, 1, .ro, 0x00000000, 0xFFFFFFFF⟩,
    ⟨0x040, 0x4, 1, .rw, 0x00000000, 0xFFFFFFFF⟩,
    ⟨0x044, 0x4, 1, .rw, 0x00000000, 0xFFFFFFFF⟩,
    ⟨0x048, 0x4, 1, .wo, 0x00000000, 0x00000001⟩,
    ⟨0x04C, 0x4, 1, .ro, 0x00000000, 0xFFFFFFFF⟩,
    ⟨0x050, 0x4, 1, .ro, 0x00000000, 0x00000FFF⟩,
    ⟨0x054, 0x4, 1, .ro, 0x00000000, 0x0000FFFF⟩,
    ⟨0x058, 0x4, 1, .ro, 0x00000000, 0x0000FFFF⟩,
    ⟨0x05C, 0x4, 1, .ro, 0x00000000, 0xFFFFFFFF⟩,
    ⟨0x060, 0x4, 1, .ro, 0x00000000, 0x00000003⟩,
    ⟨0x064, 0x4, 1, .ro, 0x00000000, 0xFFFFFFFF⟩,
    ⟨0x100, 0x4, 1, .st, 0x00002800, 0x1FFFFF17⟩,
    ⟨0x104, 0x4, 1, .st, 0x00000000, 0xFFFFFFFF⟩,
    ⟨0x108, 0x4, 1, .st, 0x00001000, 0x01FFFFFF⟩,
    ⟨0x10C, 0x4, 1, .st, 0x00000002, 0x0000FFFF⟩,
    ⟨0x110, 0x4, 1, .st, 0x00000100, 0x00001F03⟩,
    ⟨0x114, 0x4, 1, .st, 0x00100000, 0xFFFFFFFF⟩,
    ⟨0x118, 0x4, 1, .st, 0x000C0000, 0xFFFFFFFF⟩,
    ⟨0x11C, 0x4, 1, .st, 0x00000032, 0x0000FFFF⟩,
    ⟨0x120, 0x4, 1, .st, 0x00003C01, 0x0000FF13⟩,
    ⟨0x124, 0x4, 1, .st, 0x00FA0019, 0x0FFF00FF⟩,
    ⟨0x128, 0x4, 1, .st, 0x13881A00, 0xFFFFFFFF⟩,
    ⟨0x12C, 0x4, 1, .st, 0x00010000, 0xFFFFFFFF⟩,
    ⟨0x130, 0x4, 1, .st, 0x00000000, 0x0000000F⟩,
    ⟨0x180, 0x4, 1, .st, 0x00190000, 0xFFFF0F37⟩ ]

/-- Registers, part 1, of the FB page. -/
def rowsFbPart1 : List RegRow :=
  [ ⟨0x184, 0x4, 1, .st, 0x00000000, 0x01FFFFFF⟩ ]

/-- Registers of the FB page. -/
def rowsFb : List RegRow := rowsFbPart0 ++ rowsFbPart1

/-- Registers, part 0, of the MOT page. -/
def rowsMotPart0 : List RegRow :=
  [ ⟨0x000, 0x4, 1, .ro, 0x00000000, 0xFFFFFFFF⟩,
    ⟨0x004, 0x4, 1, .ro, 0x00000000, 0x00000003⟩,
    ⟨0x008, 0x4, 1, .rw, 0x00000000, 0x00000000⟩,
    ⟨0x00C, 0x4, 1, .ro, 0x00000000, 0xFFFFFFFF⟩,
    ⟨0x010, 0x4, 1, .w1c, 0x00000000, 0x000007FF⟩,
    ⟨0x014, 0x4, 1, .rw, 0x00000000, 0x000007FF⟩,
    ⟨0x018, 0x4, 1, .ro, 0x00000000, 0x00000003⟩,
    ⟨0x01C, 0x4, 1, .ro, 0x00000000, 0xFFFFFFFF⟩,
    ⟨0x020, 0x4, 1, .wo, 0x00000000, 0x0000000F⟩,
    ⟨0x024, 0x4, 1, .rw, 0x00000000, 0xFFFFFFFF⟩,
    ⟨0x028, 0x4, 1, .rw, 0x00000000, 0xFFFFFFFF⟩,
    ⟨0x02C, 0x4, 1, .rw, 0x00000000, 0x7FFFFFFF⟩,
    ⟨0x030, 0x4, 1, .rw, 0x00000000, 0xFFFFFFFF⟩,
    ⟨0x034, 0x4, 1, .rw, 0x00000000, 0xFFFFFFFF⟩,
    ⟨0x038, 0x4, 1, .rw, 0x00000000, 0xFFFFFFFF⟩,
    ⟨0x03C, 0x4, 1, .rw, 0x00000000, 0xFFFFFFFF⟩,
    ⟨0x040, 0x4, 1, .ro, 0x00000000, 0xFFFFFFFF⟩,
    ⟨0x044, 0x4, 1, .ro, 0x00000000, 0xFFFFFFFF⟩,
    ⟨0x048, 0x4, 1, .ro, 0x00000000, 0xFFFFFFFF⟩,
    ⟨0x04C, 0x4, 1, .ro, 0x00000000, 0xFFFFFFFF⟩,
    ⟨0x050, 0x4, 1, .ro, 0x00000000, 0xFFFFFFFF⟩,
    ⟨0x054, 0x4, 1, .ro, 0x00000000, 0xFFFFFFFF⟩,
    ⟨0x058, 0x4, 1, .ro, 0x00000000, 0xFFFFFFFF⟩,
    ⟨0x05C, 0x4, 1, .ro, 0x00000000, 0xFFFFFFFF⟩,
    ⟨0x060, 0x4, 1, .ro, 0x00000000, 0xFFFFFFFF⟩,
    ⟨0x068, 0x4, 1, .rw, 0x00000001, 0xFFFFFFFF⟩,
    ⟨0x06C, 0x4, 1, .rw, 0x00000001, 0xFFFFFFFF⟩,
    ⟨0x070, 0x4, 1, .rw, 0x00000000, 0xFFFFFFFF⟩,
    ⟨0x074, 0x4, 1, .rw, 0x00000000, 0xFFFFFFFF⟩,
    ⟨0x078, 0x4, 1, .rw, 0x00000000, 0x00000013⟩,
    ⟨0x07C, 0x4, 1, .ro, 0x00000000, 0xFFFFFFFF⟩,
    ⟨0x080, 0x20, 2, .rw, 0x00000000, 0xFFFFFFFF⟩,
    ⟨0x084, 0x20, 2, .rw, 0x00000000, 0xFFFFFFFF⟩,
    ⟨0x088, 0x20, 2, .rw, 0x00000000, 0x00110311⟩,
    ⟨0x08C, 0x20, 2, .rw, 0x00000000, 0xFFFFFFFF⟩,
    ⟨0x090, 0x20, 2, .ro, 0x00000000, 0xFFFFFFFF⟩,
    ⟨0x094, 0x20, 2, .ro, 0x00000000, 0xFFFFFFFF⟩,
    ⟨0x098, 0x20, 2, .ro, 0x00000000, 0xFFFF0007⟩,
    ⟨0x0C0, 0x20, 2, .rw, 0x00000000, 0x00000003⟩,
    ⟨0x0C4, 0x20, 2, .ro, 0x00000000, 0xFFFFFFFF⟩ ]

/-- Registers, part 1, of the MOT page. -/
def rowsMotPart1 : List RegRow :=
  [ ⟨0x0C8, 0x20, 2, .ro, 0x00000000, 0xFFFFFFFF⟩,
    ⟨0x0CC, 0x20, 2, .ro, 0x00000000, 0xFFFFFFFF⟩,
    ⟨0x0D0, 0x20, 2, .ro, 0x00000000, 0xFFFFFFFF⟩,
    ⟨0x0D4, 0x20, 2, .ro, 0x00000000, 0xFFFF0007⟩,
    ⟨0x0F8, 0x4, 1, .ro, 0x00000000, 0x0000FFFF⟩,
    ⟨0x100, 0x4, 1, .st, 0x0F000000, 0x0F0F3137⟩,
    ⟨0x104, 0x4, 1, .st, 0x00989680, 0xFFFFFFFF⟩,
    ⟨0x108, 0x4, 1, .st, 0x00000000, 0xFFFFFFFF⟩,
    ⟨0x10C, 0x4, 1, .st, 0x00000003, 0x000000FF⟩,
    ⟨0x110, 0x4, 1, .st, 0x00000001, 0xFFFFFFFF⟩,
    ⟨0x114, 0x4, 1, .st, 0x00000001, 0xFFFFFFFF⟩,
    ⟨0x118, 0x4, 1, .st, 0x00FA00FA, 0xFFFFFFFF⟩,
    ⟨0x11C, 0x4, 1, .st, 0x000001F4, 0x0000FFFF⟩,
    ⟨0x120, 0x4, 1, .st, 0x000A0000, 0xFFFF0017⟩,
    ⟨0x124, 0x4, 1, .st, 0x000A0000, 0xFFFF0017⟩,
    ⟨0x128, 0x4, 1, .st, 0x00000000, 0x0003F0FF⟩,
    ⟨0x12C, 0x4, 1, .st, 0x00000000, 0x0003F0FF⟩ ]

/-- Registers of the MOT page. -/
def rowsMot : List RegRow := rowsMotPart0 ++ rowsMotPart1

/-- Registers of the GROUP page. -/
def rowsGroup : List RegRow :=
  [ ⟨0x000, 0x4, 1, .ro, 0x00000000, 0xFFFFFFFF⟩,
    ⟨0x004, 0x4, 1, .ro, 0x00001004, 0x0000FFFF⟩,
    ⟨0x008, 0x4, 1, .rw, 0x00000000, 0x00000000⟩,
    ⟨0x00C, 0x4, 1, .ro, 0x00000000, 0xFFFFFFFF⟩,
    ⟨0x010, 0x4, 1, .w1c, 0x00000000, 0x0000FFFF⟩,
    ⟨0x014, 0x4, 1, .rw, 0x00000000, 0x0000FFFF⟩,
    ⟨0x018, 0x4, 1, .ro, 0x00000000, 0xFFFFFFFF⟩,
    ⟨0x01C, 0x4, 1, .ro, 0x00000000, 0xFFFFFFFF⟩,
    ⟨0x020, 0x30, 4, .rw, 0x00000000, 0xFFFFFFFF⟩,
    ⟨0x024, 0x30, 4, .rw, 0x00000000, 0xFFFFFFFF⟩,
    ⟨0x028, 0x30, 4, .rw, 0x00000000, 0xFFFFFFFF⟩,
    ⟨0x02C, 0x30, 4, .rw, 0x00000000, 0xFFFFFFFF⟩,
    ⟨0x030, 0x30, 4, .rw, 0x00000000, 0xFFFFFFFF⟩,
    ⟨0x034, 0x30, 4, .rw, 0x00000000, 0xFFFFFFFF⟩,
    ⟨0x038, 0x30, 4, .rw, 0x00000000, 0xFFFFFFFF⟩,
    ⟨0x03C, 0x30, 4, .rw, 0x00000000, 0xFFFFFFFF⟩,
    ⟨0x040, 0x30, 4, .wo, 0x00000000, 0x00000003⟩,
    ⟨0x044, 0x30, 4, .rw, 0x000003E8, 0x00000FFF⟩,
    ⟨0x048, 0x30, 4, .ro, 0x00000000, 0xFF1FFFFF⟩,
    ⟨0x04C, 0x30, 4, .ro, 0x00000000, 0xFFFFFFFF⟩,
    ⟨0x100, 0x10, 4, .st, 0x00000000, 0xFF07FFFF⟩,
    ⟨0x104, 0x10, 4, .st, 0x00000000, 0xFFFFFFFF⟩,
    ⟨0x108, 0x10, 4, .st, 0x00000000, 0xFFFFFFFF⟩,
    ⟨0x10C, 0x10, 4, .st, 0x00989680, 0xFFFFFFFF⟩ ]

/-- Registers, part 0, of the HOIST page. -/
def rowsHoistPart0 : List RegRow :=
  [ ⟨0x000, 0x4, 1, .ro, 0x00000000, 0xFFFFFFFF⟩,
    ⟨0x004, 0x4, 1, .ro, 0x00200204, 0x00FF0F0F⟩,
    ⟨0x008, 0x4, 1, .rw, 0x00000000, 0x00000000⟩,
    ⟨0x00C, 0x4, 1, .ro, 0xFF000000, 0xFFFFFFFF⟩,
    ⟨0x010, 0x4, 1, .w1c, 0x00000000, 0x0000FFFF⟩,
    ⟨0x014, 0x4, 1, .rw, 0x00000000, 0x0000FFFF⟩,
    ⟨0x018, 0x4, 1, .ro, 0x00000000, 0x00001FCF⟩,
    ⟨0x01C, 0x4, 1, .ro, 0x00000000, 0xFFFFFFFF⟩,
    ⟨0x020, 0x20, 4, .ro, 0x00000000, 0xFFFFFFFF⟩,
    ⟨0x024, 0x20, 4, .ro, 0x00000000, 0xFFFFFFFF⟩,
    ⟨0x028, 0x20, 4, .ro, 0x00000000, 0xFFFFFFFF⟩,
    ⟨0x02C, 0x20, 4, .ro, 0x00000000, 0xFFFFFFFF⟩,
    ⟨0x030, 0x20, 4, .ro, 0x00000000, 0xFFFFFFFF⟩,
    ⟨0x034, 0x20, 4, .ro, 0x00000000, 0xFFFFFFFF⟩,
    ⟨0x038, 0x20, 4, .ro, 0x00000000, 0x0000FFFF⟩,
    ⟨0x03C, 0x20, 4, .ro, 0x00000000, 0x000000FC⟩,
    ⟨0x0A0, 0x10, 2, .ro, 0x00000000, 0x00FF00F1⟩,
    ⟨0x0A4, 0x10, 2, .ro, 0x00000000, 0xFFFFFFFF⟩,
    ⟨0x0A8, 0x10, 2, .ro, 0x00000000, 0xFFFFFFFF⟩,
    ⟨0x0AC, 0x10, 2, .ro, 0x00000000, 0xFFFFFFFF⟩,
    ⟨0x0C0, 0x4, 1, .wo, 0x00000000, 0x00000001⟩,
    ⟨0x0C4, 0x4, 1, .ro, 0xFF000000, 0xFFFFFFFF⟩,
    ⟨0x0C8, 0x4, 1, .ro, 0x00000000, 0xFFFFFFFF⟩,
    ⟨0x0CC, 0x4, 1, .ro, 0x00000000, 0xFFFFFFFF⟩,
    ⟨0x0D0, 0x4, 1, .ro, 0x00000000, 0xFFFFFFFF⟩,
    ⟨0x0D4, 0x4, 1, .ro, 0x00000000, 0xFFFFFFFF⟩,
    ⟨0x0D8, 0x4, 1, .ro, 0x00000000, 0xFFFFFFFF⟩,
    ⟨0x0E0, 0x4, 1, .ro, 0x00000000, 0x00010000⟩,
    ⟨0x100, 0x40, 4, .st, 0x00000100, 0xFFFF3F73⟩,
    ⟨0x104, 0x40, 4, .st, 0x000007D0, 0xFFFFFFFF⟩,
    ⟨0x108, 0x40, 4, .st, 0x00000000, 0xFFFFFFFF⟩,
    ⟨0x10C, 0x40, 4, .st, 0x000003E8, 0xFFFFFFFF⟩,
    ⟨0x110, 0x40, 4, .st, 0x000F4240, 0xFFFFFFFF⟩,
    ⟨0x114, 0x40, 4, .st, 0x00001770, 0xFFFFFFFF⟩,
    ⟨0x118, 0x40, 4, .st, 0x000003E8, 0xFFFFFFFF⟩,
    ⟨0x11C, 0x40, 4, .st, 0x00000064, 0xFFFFFFFF⟩,
    ⟨0x120, 0x40, 4, .st, 0x00000000, 0xFFFFFFFF⟩,
    ⟨0x124, 0x40, 4, .st, 0x00000190, 0x0000FFFF⟩,
    ⟨0x128, 0x40, 4, .st, 0x0CCCCCCD, 0xFFFFFFFF⟩,
    ⟨0x12C, 0x40, 4, .st, 0x140000C8, 0xFFFFFFFF⟩ ]

/-- Registers, part 1, of the HOIST page. -/
def rowsHoistPart1 : List RegRow :=
  [ ⟨0x130, 0x40, 4, .st, 0x140007D0, 0xFFFFFFFF⟩,
    ⟨0x134, 0x40, 4, .st, 0xFFFFFFFF, 0xFFFFFFFF⟩,
    ⟨0x200, 0x100, 2, .st, 0x80040000, 0xFFFF0F17⟩,
    ⟨0x204, 0x100, 2, .st, 0x00000000, 0x0000FFFF⟩,
    ⟨0x208, 0x100, 2, .st, 0x000003E8, 0xFFFFFFFF⟩,
    ⟨0x20C, 0x100, 2, .st, 0x00000310, 0x0000FFFF⟩,
    ⟨0x280, 0x4, 32, .st, 0x00000000, 0xFFFFFFC7⟩,
    ⟨0x380, 0x4, 32, .st, 0x00000000, 0xFFFFFFC7⟩,
    ⟨0x400, 0x4, 1, .st, 0x0000000F, 0x8FFE770F⟩,
    ⟨0x404, 0x4, 1, .st, 0x07D00014, 0xFFFFFFFF⟩,
    ⟨0x408, 0x4, 1, .st, 0x00000000, 0x000FFFFF⟩,
    ⟨0x40C, 0x4, 1, .st, 0x000000FE, 0x00000FFF⟩,
    ⟨0x410, 0x4, 1, .st, 0x00009C40, 0x000FFFFF⟩,
    ⟨0x414, 0x4, 1, .st, 0x0000EA60, 0x000FFFFF⟩,
    ⟨0x418, 0x4, 1, .st, 0x003200C8, 0xFFFFFFFF⟩,
    ⟨0x41C, 0x4, 1, .st, 0x03E803E8, 0xFFFFFFFF⟩,
    ⟨0x420, 0x4, 1, .st, 0x00000000, 0xFFFFFFFF⟩,
    ⟨0x424, 0x4, 1, .st, 0x00000000, 0xFFFFFFFF⟩,
    ⟨0x428, 0x4, 1, .st, 0x00000000, 0xFFFFFFFF⟩,
    ⟨0x42C, 0x4, 1, .st, 0x00000000, 0xFFFFFFFF⟩,
    ⟨0x430, 0x4, 1, .st, 0x01F4012C, 0xFFFFFFFF⟩,
    ⟨0x434, 0x4, 1, .st, 0x019000C8, 0xFFFFFFFF⟩,
    ⟨0x438, 0x4, 1, .st, 0x0000028F, 0x0000FFFF⟩,
    ⟨0x43C, 0x4, 1, .st, 0x00000100, 0xFFFFFFFF⟩,
    ⟨0x440, 0x4, 1, .st, 0x00000000, 0xFFFFFFFF⟩,
    ⟨0x444, 0x4, 1, .st, 0x00000000, 0xFFFFFFFF⟩,
    ⟨0x448, 0x4, 1, .st, 0x00000000, 0xFFFFFFFF⟩,
    ⟨0x44C, 0x4, 1, .st, 0x0001D4C0, 0x000FFFFF⟩,
    ⟨0x450, 0x4, 1, .st, 0x00000000, 0x0000003F⟩,
    ⟨0x454, 0x4, 1, .st, 0x00000100, 0xFFFFFFFF⟩,
    ⟨0x460, 0x8, 32, .st, 0x00000000, 0xFFFFFFFF⟩,
    ⟨0x464, 0x8, 32, .st, 0x00000000, 0xFFFFFFFF⟩,
    ⟨0x580, 0x4, 1, .st, 0x00000000, 0x000FFFFF⟩,
    ⟨0x584, 0x4, 1, .st, 0x00000000, 0x000FFFFF⟩,
    ⟨0x588, 0x4, 8, .st, 0x00C80001, 0xFFFF0003⟩,
    ⟨0x5A8, 0x4, 8, .st, 0x00000000, 0xFFFFFFFF⟩ ]

/-- Registers of the HOIST page. -/
def rowsHoist : List RegRow := rowsHoistPart0 ++ rowsHoistPart1

/-- Registers of the PWM page. -/
def rowsPwm : List RegRow :=
  [ ⟨0x000, 0x4, 1, .ro, 0x00000000, 0xFFFFFFFF⟩,
    ⟨0x004, 0x4, 1, .ro, 0x00000000, 0x0001FFFF⟩,
    ⟨0x008, 0x4, 1, .rw, 0x00000000, 0x00000000⟩,
    ⟨0x00C, 0x4, 1, .ro, 0x00000000, 0xFFFFFFFF⟩,
    ⟨0x010, 0x4, 1, .w1c, 0x00000000, 0x00FFFFFF⟩,
    ⟨0x014, 0x4, 1, .rw, 0x00000000, 0x00FFFFFF⟩,
    ⟨0x018, 0x4, 1, .ro, 0x00000000, 0x0000FFFF⟩,
    ⟨0x01C, 0x4, 1, .ro, 0x00000000, 0xFFFFFFFF⟩,
    ⟨0x020, 0x18, 8, .rw, 0x00000000, 0x001FFFFF⟩,
    ⟨0x024, 0x18, 8, .rw, 0x00001388, 0x0001FFFF⟩,
    ⟨0x028, 0x18, 8, .rw, 0x00000001, 0x00000133⟩,
    ⟨0x02C, 0x18, 8, .ro, 0x00000000, 0xFFFFFFFF⟩,
    ⟨0x030, 0x18, 8, .ro, 0x00000000, 0x0000FFFF⟩,
    ⟨0x034, 0x18, 8, .ro, 0x00000000, 0xFFFFFFFF⟩,
    ⟨0x100, 0x20, 8, .st, 0x00020000, 0x01733337⟩,
    ⟨0x104, 0x20, 8, .st, 0x00050A7D, 0x803FFFFF⟩,
    ⟨0x108, 0x20, 8, .st, 0x00000064, 0x001F03FF⟩,
    ⟨0x10C, 0x20, 8, .st, 0x00000000, 0x0001FFFF⟩,
    ⟨0x110, 0x20, 8, .st, 0x000000FA, 0x0001FFFF⟩,
    ⟨0x114, 0x20, 8, .st, 0x00000000, 0x0000001B⟩ ]

/-- Registers of the GD page. -/
def rowsGd : List RegRow :=
  [ ⟨0x000, 0x4, 1, .ro, 0x00000000, 0xFFFFFFFF⟩,
    ⟨0x004, 0x4, 1, .ro, 0x00000000, 0x0000FFFF⟩,
    ⟨0x008, 0x4, 1, .rw, 0x00000000, 0x00000000⟩,
    ⟨0x00C, 0x4, 1, .ro, 0x00000000, 0x0000003F⟩,
    ⟨0x010, 0x4, 1, .w1c, 0x00000000, 0x003F3F3F⟩,
    ⟨0x014, 0x4, 1, .rw, 0x00000000, 0x003F3F3F⟩,
    ⟨0x018, 0x4, 1, .ro, 0x00000000, 0x003F3F3F⟩,
    ⟨0x01C, 0x4, 1, .ro, 0x00000000, 0xFFFFFFFF⟩,
    ⟨0x020, 0x10, 6, .ro, 0x00000000, 0xFFFFFFFF⟩,
    ⟨0x024, 0x10, 6, .ro, 0x00000000, 0x0000FFFF⟩,
    ⟨0x028, 0x10, 6, .ro, 0x00000000, 0xFFFFFFFF⟩,
    ⟨0x02C, 0x10, 6, .ro, 0x00000000, 0x0000FFFF⟩,
    ⟨0x100, 0x10, 6, .st, 0x00000003, 0x00000113⟩,
    ⟨0x104, 0x10, 6, .st, 0x00006767, 0x0000FFFF⟩,
    ⟨0x108, 0x10, 6, .st, 0x00009903, 0x0000FF0F⟩,
    ⟨0x10C, 0x10, 6, .st, 0x00000028, 0x00000FFF⟩ ]

/-- Registers of the LOOP page. -/
def rowsLoop : List RegRow :=
  [ ⟨0x000, 0x4, 1, .ro, 0x00000000, 0xFFFFFFFF⟩,
    ⟨0x004, 0x4, 1, .ro, 0x00000000, 0x0000FFFF⟩,
    ⟨0x008, 0x4, 1, .rw, 0x00000000, 0x00000000⟩,
    ⟨0x00C, 0x4, 1, .ro, 0x00000000, 0x0000FFFF⟩,
    ⟨0x010, 0x4, 1, .w1c, 0x00000000, 0xFFFFFFFF⟩,
    ⟨0x014, 0x4, 1, .rw, 0x00000000, 0xFFFFFFFF⟩,
    ⟨0x018, 0x4, 1, .ro, 0x00000000, 0x0000FFFF⟩,
    ⟨0x01C, 0x4, 1, .ro, 0x00000000, 0xFFFFFFFF⟩,
    ⟨0x020, 0x4, 16, .rw, 0x00000000, 0xFFFFFFFF⟩,
    ⟨0x060, 0x4, 16, .ro, 0x00000000, 0xFFFFFFFF⟩,
    ⟨0x0A0, 0x4, 16, .ro, 0x00000000, 0xFFFFFFFF⟩,
    ⟨0x0E0, 0x4, 1, .rw, 0x00000000, 0x0000FFFF⟩,
    ⟨0x0E4, 0x4, 1, .ro, 0x00000000, 0x0000FFFF⟩,
    ⟨0x100, 0x70, 16, .st, 0x00000000, 0x1F3F077F⟩,
    ⟨0x104, 0x70, 16, .st, 0x0000001F, 0x00003F1F⟩,
    ⟨0x108, 0x70, 16, .st, 0x00000000, 0xFFFFFFFF⟩,
    ⟨0x10C, 0x70, 16, .st, 0x00000000, 0xFFFFFFFF⟩,
    ⟨0x110, 0x70, 16, .st, 0x00000000, 0x001F001F⟩,
    ⟨0x114, 0x70, 16, .st, 0x00000000, 0xFFFFFFFF⟩,
    ⟨0x118, 0x70, 16, .st, 0x00000000, 0xFFFFFFFF⟩,
    ⟨0x11C, 0x70, 16, .st, 0x00000000, 0xFFFFFFFF⟩,
    ⟨0x120, 0x70, 16, .st, 0x7FFFFFFF, 0xFFFFFFFF⟩,
    ⟨0x124, 0x70, 16, .st, 0x00000000, 0xFFFFFFFF⟩,
    ⟨0x128, 0x70, 16, .st, 0x00000000, 0xFFFFFFFF⟩,
    ⟨0x12C, 0x70, 16, .st, 0x00000000, 0xFFFFFFFF⟩,
    ⟨0x130, 0x70, 16, .st, 0x00000000, 0xFFFFFFFF⟩,
    ⟨0x134, 0x70, 16, .st, 0x00000000, 0xFFFFFFFF⟩,
    ⟨0x138, 0x70, 16, .st, 0x00000000, 0xFFFFFFFF⟩,
    ⟨0x13C, 0x70, 16, .st, 0x00000000, 0xFFFFFFFF⟩,
    ⟨0x140, 0x70, 16, .st, 0x7FFFFFFF, 0xFFFFFFFF⟩,
    ⟨0x144, 0x70, 16, .st, 0x80000000, 0xFFFFFFFF⟩,
    ⟨0x148, 0x70, 16, .st, 0x7FFFFFFF, 0xFFFFFFFF⟩,
    ⟨0x14C, 0x70, 16, .st, 0x80000000, 0xFFFFFFFF⟩,
    ⟨0x150, 0x70, 16, .st, 0x00000000, 0xFFFFFFFF⟩,
    ⟨0x154, 0x70, 16, .st, 0x00000000, 0xFFFFFFFF⟩,
    ⟨0x158, 0x70, 16, .st, 0x00000000, 0xFFFFFFFF⟩,
    ⟨0x15C, 0x70, 16, .st, 0x00000000, 0xFFFFFFFF⟩ ]

/-- Registers of the DMACH page. -/
def rowsDmach : List RegRow :=
  [ ⟨0x000, 0x4, 1, .ro, 0x00000000, 0xFFFFFFFF⟩,
    ⟨0x004, 0x4, 1, .ro, 0x00000000, 0x0000FFFF⟩,
    ⟨0x008, 0x4, 1, .rw, 0x00000000, 0x00000000⟩,
    ⟨0x00C, 0x4, 1, .ro, 0x00000000, 0x000000FF⟩,
    ⟨0x010, 0x4, 1, .w1c, 0x00000000, 0x0000FFFF⟩,
    ⟨0x014, 0x4, 1, .rw, 0x00000000, 0x0000FFFF⟩,
    ⟨0x018, 0x4, 1, .ro, 0x00000000, 0x000000FF⟩,
    ⟨0x01C, 0x4, 1, .ro, 0x00000000, 0xFFFFFFFF⟩,
    ⟨0x020, 0x18, 8, .wo, 0x00000000, 0x00000007⟩,
    ⟨0x024, 0x18, 8, .ro, 0x00000000, 0xFF00FF07⟩,
    ⟨0x028, 0x18, 8, .ro, 0x00000000, 0xFFFFFFFF⟩,
    ⟨0x02C, 0x18, 8, .ro, 0x00000000, 0xFFFFFFFF⟩,
    ⟨0x030, 0x18, 8, .ro, 0x00000000, 0xFFFFFFFF⟩,
    ⟨0x100, 0x20, 8, .st, 0x00000000, 0xFCFF3721⟩,
    ⟨0x104, 0x20, 8, .st, 0x00100000, 0x00FFFFFF⟩,
    ⟨0x108, 0x20, 8, .st, 0x00000001, 0x000001FF⟩,
    ⟨0x10C, 0x20, 8, .st, 0x00000000, 0x00FFFFFF⟩,
    ⟨0x110, 0x20, 8, .st, 0x00000000, 0x00FFFFFF⟩,
    ⟨0x114, 0x20, 8, .st, 0x00000000, 0x003F0700⟩,
    ⟨0x118, 0x20, 8, .st, 0x000000FA, 0x00FFFFFF⟩ ]

/-- Registers of the LANE page. -/
def rowsLane : List RegRow :=
  [ ⟨0x000, 0x4, 1, .ro, 0x00000000, 0xFFFFFFFF⟩,
    ⟨0x004, 0x4, 1, .ro, 0x08001000, 0x0FFF1FFF⟩,
    ⟨0x008, 0x4, 1, .rw, 0x00000000, 0x00000000⟩,
    ⟨0x00C, 0x4, 1, .ro, 0x000000F4, 0xFFFFFFFF⟩,
    ⟨0x010, 0x4, 1, .w1c, 0x00000000, 0x00000000⟩,
    ⟨0x014, 0x4, 1, .rw, 0x00000000, 0x00000000⟩,
    ⟨0x018, 0x4, 1, .ro, 0x00000000, 0x0000001F⟩,
    ⟨0x01C, 0x4, 1, .ro, 0x00000000, 0xFFFFFFFF⟩,
    ⟨0x020, 0x4, 1, .ro, 0x000000F4, 0xFFFFFFFF⟩,
    ⟨0x024, 0x4, 1, .ro, 0x00000000, 0xFFFFFFFF⟩,
    ⟨0x028, 0x4, 1, .ro, 0x00000000, 0xFFFFFFFF⟩,
    ⟨0x02C, 0x4, 1, .ro, 0x00000000, 0xFFFFFFFF⟩,
    ⟨0x030, 0x4, 1, .ro, 0x00000000, 0xFFFFFFFF⟩,
    ⟨0x034, 0x4, 1, .ro, 0x00000000, 0x0000FFFF⟩,
    ⟨0x038, 0x4, 1, .ro, 0x00000000, 0x0000FFFF⟩,
    ⟨0x100, 0x4, 1, .st, 0x00000000, 0x1FFF0FFF⟩,
    ⟨0x104, 0x4, 1, .st, 0x00000000, 0x0FFF07FF⟩,
    ⟨0x200, 0x10, 16, .st, 0x00000000, 0x003F070F⟩,
    ⟨0x204, 0x10, 16, .st, 0x00000000, 0xFF1F0FFF⟩,
    ⟨0x208, 0x10, 16, .st, 0x00000000, 0x000FFFFF⟩,
    ⟨0x20C, 0x10, 16, .st, 0x00000000, 0x00FFFFFF⟩ ]

/-- Page n of Table 2-1, with the page number of instance 0 of its type; none where R40 leaves the page unmapped. -/
def pageRows (p : Nat) : Option (Nat × List RegRow) :=
  if p = 0x00 then some (0x00, rowsSys)
  else if p = 0x01 then some (0x01, rowsTime)
  else if p = 0x02 then some (0x02, rowsSched)
  else if p = 0x03 then some (0x03, rowsHk)
  else if p = 0x04 then some (0x04, rowsSafe)
  else if p = 0x05 then some (0x05, rowsFio)
  else if p = 0x06 then some (0x06, rowsPlink)
  else if p = 0x07 then some (0x07, rowsNvlog)
  else if p = 0x08 then some (0x08, rowsHost)
  else if p = 0x09 then some (0x09, rowsMgmt)
  else if p = 0x0A then some (0x0A, rowsDma)
  else if p = 0x0B then some (0x0B, rowsTrace)
  else if 0x0C ≤ p ∧ p < 0x0E then some (0x0C, rowsCan)
  else if p = 0x0E then some (0x0E, rowsBilva)
  else if p = 0x0F then some (0x0F, rowsAdc)
  else if 0x10 ≤ p ∧ p < 0x18 then some (0x10, rowsAxis)
  else if 0x18 ≤ p ∧ p < 0x20 then some (0x18, rowsFb)
  else if 0x20 ≤ p ∧ p < 0x30 then some (0x20, rowsMot)
  else if p = 0x30 then some (0x30, rowsGroup)
  else if p = 0x31 then some (0x31, rowsHoist)
  else if 0x34 ≤ p ∧ p < 0x38 then some (0x34, rowsPwm)
  else if 0x38 ≤ p ∧ p < 0x3A then some (0x38, rowsGd)
  else if 0x40 ≤ p ∧ p < 0x48 then some (0x40, rowsLoop)
  else if 0x48 ≤ p ∧ p < 0x50 then some (0x48, rowsDmach)
  else if 0x50 ≤ p ∧ p < 0x58 then some (0x50, rowsLane)
  else none

end Sys2Proof.Machine
end

