-- ==== Sys2Proof/Machine/RegNames.lean ====
section
/-!
DEFINITION. The names of the register map: page numbers (Table 2-1) and byte offsets in a page, as the register tables give
them. A name whose table row carries an index is a function of that index.
-/
namespace Sys2Proof.Machine

/-- Page number of SYS (Table 2-1). -/
abbrev pgSys : Nat := 0x00
/-- Page number of TIME (Table 2-1). -/
abbrev pgTime : Nat := 0x01
/-- Page number of SCHED (Table 2-1). -/
abbrev pgSched : Nat := 0x02
/-- Page number of HK (Table 2-1). -/
abbrev pgHk : Nat := 0x03
/-- Page number of SAFE (Table 2-1). -/
abbrev pgSafe : Nat := 0x04
/-- Page number of FIO (Table 2-1). -/
abbrev pgFio : Nat := 0x05
/-- Page number of PLINK (Table 2-1). -/
abbrev pgPlink : Nat := 0x06
/-- Page number of NVLOG (Table 2-1). -/
abbrev pgNvlog : Nat := 0x07
/-- Page number of HOST (Table 2-1). -/
abbrev pgHost : Nat := 0x08
/-- Page number of MGMT (Table 2-1). -/
abbrev pgMgmt : Nat := 0x09
/-- Page number of DMA (Table 2-1). -/
abbrev pgDma : Nat := 0x0A
/-- Page number of TRACE (Table 2-1). -/
abbrev pgTrace : Nat := 0x0B
/-- Page number of CANn (Table 2-1). -/
abbrev pgCan (n : Nat) : Nat := 0x0C + n
/-- Page number of BILVA (Table 2-1). -/
abbrev pgBilva : Nat := 0x0E
/-- Page number of ADC (Table 2-1). -/
abbrev pgAdc : Nat := 0x0F
/-- Page number of AXISn (Table 2-1). -/
abbrev pgAxis (n : Nat) : Nat := 0x10 + n
/-- Page number of FBn (Table 2-1). -/
abbrev pgFb (n : Nat) : Nat := 0x18 + n
/-- Page number of MOTn (Table 2-1). -/
abbrev pgMot (n : Nat) : Nat := 0x20 + n
/-- Page number of GROUP (Table 2-1). -/
abbrev pgGroup : Nat := 0x30
/-- Page number of HOIST (Table 2-1). -/
abbrev pgHoist : Nat := 0x31
/-- Page number of PWMn (Table 2-1). -/
abbrev pgPwm (n : Nat) : Nat := 0x34 + n
/-- Page number of GDn (Table 2-1). -/
abbrev pgGd (n : Nat) : Nat := 0x38 + n
/-- Page number of LOOPn (Table 2-1). -/
abbrev pgLoop (n : Nat) : Nat := 0x40 + n
/-- Page number of DMACHn (Table 2-1). -/
abbrev pgDmach (n : Nat) : Nat := 0x48 + n
/-- Page number of LANEn (Table 2-1). -/
abbrev pgLane (n : Nat) : Nat := 0x50 + n

/-- Offset of a common register (Table 2-2). -/
abbrev pageId : Nat := 0x000
/-- Offset of a common register (Table 2-2). -/
abbrev pageCaps : Nat := 0x004
/-- Offset of a common register (Table 2-2). -/
abbrev pageCtrl : Nat := 0x008
/-- Offset of a common register (Table 2-2). -/
abbrev pageStatus : Nat := 0x00C
/-- Offset of a common register (Table 2-2). -/
abbrev pageEvent : Nat := 0x010
/-- Offset of a common register (Table 2-2). -/
abbrev pageEventEn : Nat := 0x014
/-- Offset of a common register (Table 2-2). -/
abbrev pageFault : Nat := 0x018
/-- Offset of a common register (Table 2-2). -/
abbrev pageStage : Nat := 0x01C

abbrev SYS.DEVICE_ID : Nat := 0x020
abbrev SYS.CMD : Nat := 0x024
abbrev SYS.CMD_ARG0 : Nat := 0x028
abbrev SYS.CMD_ARG1 : Nat := 0x02C
abbrev SYS.CMD_RESULT : Nat := 0x030
abbrev SYS.PROOF_RESULT : Nat := 0x034
abbrev SYS.PROOF_DEMAND : Nat := 0x038
abbrev SYS.PROOF_BUDGET : Nat := 0x03C
abbrev SYS.STAGE_STATUS : Nat := 0x040
abbrev SYS.STAGE_LEASE : Nat := 0x044
abbrev SYS.STRIKE_GEN : Nat := 0x048
abbrev SYS.REFUSED_COUNT : Nat := 0x04C
abbrev SYS.STRIKE_TICK_LO : Nat := 0x050
abbrev SYS.STRIKE_TICK_HI : Nat := 0x054
abbrev SYS.STRIKE_DUE_LO : Nat := 0x058
abbrev SYS.STRIKE_DUE_HI : Nat := 0x05C
abbrev SYS.GLOBAL_STATUS : Nat := 0x060
abbrev SYS.BOOT_STATUS : Nat := 0x064
abbrev SYS.IRQ_SUM0 : Nat := 0x070
abbrev SYS.IRQ_SUM1 : Nat := 0x074
abbrev SYS.IRQ_SUM2 : Nat := 0x078
abbrev SYS.STAGE_LAYOUT : Nat := 0x100
abbrev TIME.TICK_LO : Nat := 0x020
abbrev TIME.TICK_HI : Nat := 0x024
abbrev TIME.FRAME_COUNT_LO : Nat := 0x028
abbrev TIME.FRAME_COUNT_HI : Nat := 0x02C
abbrev TIME.FRAME_START_LO : Nat := 0x030
abbrev TIME.FRAME_START_HI : Nat := 0x034
abbrev TIME.FRAME_PHASE : Nat := 0x038
abbrev TIME.CUR_FRAME_LEN : Nat := 0x03C
abbrev TIME.COMMIT_LEAD : Nat := 0x040
abbrev TIME.CLK_STATUS : Nat := 0x044
abbrev TIME.OVERRUN_COUNT : Nat := 0x048
abbrev TIME.NT_LO : Nat := 0x060
abbrev TIME.NT_HI : Nat := 0x064
abbrev TIME.NT_STATUS : Nat := 0x068
abbrev TIME.RATE : Nat := 0x06C
abbrev TIME.LAST_ERR : Nat := 0x070
abbrev TIME.SYNC_COUNT : Nat := 0x074
abbrev TIME.NT_CMD : Nat := 0x078
abbrev TIME.NT_SET_LO : Nat := 0x07C
abbrev TIME.NT_SET_HI : Nat := 0x080
abbrev TIME.FRAME_NT_LO : Nat := 0x084
abbrev TIME.FRAME_NT_HI : Nat := 0x088
abbrev TIME.ALIGN_ERR : Nat := 0x08C
abbrev TIME.FRAME_LEN : Nat := 0x100
abbrev TIME.FRAME_ALIGN : Nat := 0x104
abbrev TIME.NT_CFG : Nat := 0x140
abbrev TIME.NT_TIMES : Nat := 0x144
abbrev TIME.PATH_DELAY : Nat := 0x148
abbrev TIME.ALIGN_OFS : Nat := 0x14C
abbrev TIME.TPO_CFG (n : Nat) : Nat := 0x160 + 0x10 * n
abbrev TIME.TPO_PERIOD (n : Nat) : Nat := 0x164 + 0x10 * n
abbrev TIME.TPO_WIDTH (n : Nat) : Nat := 0x168 + 0x10 * n
abbrev TIME.TPO_OFS (n : Nat) : Nat := 0x16C + 0x10 * n
abbrev SCHED.OP_STATUS : Nat := 0x020
abbrev SCHED.POWER_REQ : Nat := 0x024
abbrev SCHED.POWER_STATUS : Nat := 0x028
abbrev SCHED.BG_ACCOUNT : Nat := 0x02C
abbrev SCHED.REPROOF_RESULT : Nat := 0x030
abbrev SCHED.LANE_STATE : Nat := 0x034
abbrev SCHED.SHED_COUNT : Nat := 0x038
abbrev SCHED.FABRIC_PWR : Nat := 0x03C
abbrev SCHED.EPI : Nat := 0x040
abbrev SCHED.LEAK : Nat := 0x044
abbrev SCHED.STATE_EN : Nat := 0x100
abbrev SCHED.PLACE : Nat := 0x104
abbrev SCHED.ESSENTIAL_AXES : Nat := 0x108
abbrev SCHED.BG_ESSENTIAL : Nat := 0x10C
abbrev SCHED.PWR_MAX_NORMAL : Nat := 0x110
abbrev SCHED.PWR_MAX_ECONOMY : Nat := 0x114
abbrev SCHED.PWR_MAX_RESCUE : Nat := 0x118
abbrev SCHED.TA_DESIGN : Nat := 0x11C
abbrev SCHED.THETA_JA : Nat := 0x120
abbrev SCHED.OTHER_NORMAL : Nat := 0x124
abbrev SCHED.OTHER_ECONOMY : Nat := 0x128
abbrev SCHED.OTHER_RESCUE : Nat := 0x12C
abbrev SCHED.SELFTEST_PERIOD : Nat := 0x130
abbrev HK.STATUS : Nat := 0x020
abbrev HK.ROUND_COUNT : Nat := 0x024
abbrev HK.CH (n : Nat) : Nat := 0x040 + 0x4 * n
abbrev HK.ECC_CE : Nat := 0x0A0
abbrev HK.ECC_UE : Nat := 0x0A4
abbrev HK.ECC_LAST : Nat := 0x0A8
abbrev HK.SCRUB_STATUS : Nat := 0x0AC
abbrev HK.TELE_SKIPPED : Nat := 0x0B0
abbrev HK.WARN_T : Nat := 0x100
abbrev HK.THR_T : Nat := 0x104
abbrev HK.THROTTLE_CFG : Nat := 0x108
abbrev HK.THR_LEGS : Nat := 0x10C
abbrev HK.SCRUB_CFG : Nat := 0x110
abbrev HK.TELE_CFG : Nat := 0x114
abbrev HK.TELE_SIGBASE : Nat := 0x118
abbrev HK.FAULT_CFG : Nat := 0x11C
abbrev SAFE.AXIS_CMD : Nat := 0x020
abbrev SAFE.AXIS_CMD_RESULT : Nat := 0x024
abbrev SAFE.SAFE_STATUS : Nat := 0x028
abbrev SAFE.SIN_STATUS : Nat := 0x02C
abbrev SAFE.STO_COUNT : Nat := 0x030
abbrev SAFE.PARAM_CRC : Nat := 0x034
abbrev SAFE.SEL_HOST : Nat := 0x038
abbrev SAFE.AXSTAT (n : Nat) : Nat := 0x040 + 0x4 * n
abbrev SAFE.LAST_SRC (n : Nat) : Nat := 0x080 + 0x4 * n
abbrev SAFE.XC_DIFF (n : Nat) : Nat := 0x0C0 + 0x4 * n
abbrev SAFE.SRC_ACTIVE0 : Nat := 0x0E0
abbrev SAFE.SRC_ACTIVE1 : Nat := 0x0E4
abbrev SAFE.RETRY : Nat := 0x100
abbrev SAFE.STO_CFG : Nat := 0x104
abbrev SAFE.STO_TEST : Nat := 0x108
abbrev SAFE.OTE : Nat := 0x10C
abbrev SAFE.TP_CFG : Nat := 0x110
abbrev SAFE.SIN_CFG (n : Nat) : Nat := 0x120 + 0x4 * n
abbrev SAFE.REACT (n : Nat) : Nat := 0x140 + 0x4 * n
abbrev SAFE.AX_CFG (n : Nat) : Nat := 0x200 + 0x40 * n
abbrev SAFE.SS1_CFG (n : Nat) : Nat := 0x204 + 0x40 * n
abbrev SAFE.SS1_TOL (n : Nat) : Nat := 0x208 + 0x40 * n
abbrev SAFE.SLS_LIM (n : Nat) : Nat := 0x20C + 0x40 * n
abbrev SAFE.REST_V (n : Nat) : Nat := 0x210 + 0x40 * n
abbrev SAFE.SOS_WIN (n : Nat) : Nat := 0x214 + 0x40 * n
abbrev SAFE.SDI_TOL (n : Nat) : Nat := 0x218 + 0x40 * n
abbrev SAFE.XC_CFG (n : Nat) : Nat := 0x21C + 0x40 * n
abbrev SAFE.XC_ABS (n : Nat) : Nat := 0x220 + 0x40 * n
abbrev SAFE.DEG_CFG (n : Nat) : Nat := 0x224 + 0x40 * n
abbrev SAFE.DEG_SPEED (n : Nat) : Nat := 0x228 + 0x40 * n
abbrev SAFE.BRK_CFG (n : Nat) : Nat := 0x22C + 0x40 * n
abbrev SAFE.BRK_SEL (n : Nat) : Nat := 0x230 + 0x40 * n
abbrev FIO.STATUS : Nat := 0x020
abbrev FIO.DI_STATE : Nat := 0x024
abbrev FIO.DI_RAW : Nat := 0x028
abbrev FIO.DI_OPEN : Nat := 0x02C
abbrev FIO.DO_CMD : Nat := 0x030
abbrev FIO.DO_STATE : Nat := 0x034
abbrev FIO.DO_READBACK : Nat := 0x038
abbrev FIO.VF_MV : Nat := 0x03C
abbrev FIO.FIELD_TEMP : Nat := 0x040
abbrev FIO.FLINK_CRC : Nat := 0x044
abbrev FIO.DI_CFG (n : Nat) : Nat := 0x100 + 0x4 * n
abbrev FIO.DO_CFG : Nat := 0x140
abbrev FIO.FAULT_CFG : Nat := 0x144
abbrev PLINK.LINK_STATUS : Nat := 0x020
abbrev PLINK.CRC_COUNT : Nat := 0x024
abbrev PLINK.RAILS : Nat := 0x028
abbrev PLINK.VIN_MV : Nat := 0x02C
abbrev PLINK.DCL_STATE : Nat := 0x030
abbrev PLINK.CHOP_STATUS : Nat := 0x034
abbrev PLINK.PRECHECK_RESULT : Nat := 0x038
abbrev PLINK.PRECHECK_NODES : Nat := 0x03C
abbrev PLINK.DCL_CFG (n : Nat) : Nat := 0x100 + 0x4 * n
abbrev PLINK.DCL_TH (n : Nat) : Nat := 0x110 + 0x4 * n
abbrev PLINK.DCS_FS0 : Nat := 0x120
abbrev PLINK.DCS_FS1 : Nat := 0x124
abbrev PLINK.CHOP_CFG : Nat := 0x128
abbrev PLINK.CHOP_ON : Nat := 0x12C
abbrev PLINK.CHOP_FULL : Nat := 0x130
abbrev PLINK.CHOP_TEST : Nat := 0x134
abbrev PLINK.PRECHECK_CFG : Nat := 0x138
abbrev NVLOG.STATUS : Nat := 0x020
abbrev NVLOG.SEQ : Nat := 0x024
abbrev NVLOG.ENTRY_COUNT : Nat := 0x028
abbrev NVLOG.LOST : Nat := 0x02C
abbrev NVLOG.BOOT : Nat := 0x030
abbrev NVLOG.IMAGE_SIZE : Nat := 0x034
abbrev NVLOG.IMAGE_GEN : Nat := 0x038
abbrev NVLOG.IMAGE_CRC : Nat := 0x03C
abbrev NVLOG.WEAR_MAX : Nat := 0x040
abbrev NVLOG.WEAR_MIN : Nat := 0x044
abbrev HOST.STATUS : Nat := 0x020
abbrev HOST.CRC_ERRORS : Nat := 0x024
abbrev HOST.ABORT_COUNT : Nat := 0x028
abbrev HOST.FRAME_COUNT : Nat := 0x02C
abbrev HOST.LAST_ERR : Nat := 0x030
abbrev HOST.IRQ_MASK0 : Nat := 0x040
abbrev HOST.IRQ_MASK1 : Nat := 0x044
abbrev HOST.IRQ_MASK2 : Nat := 0x048
abbrev HOST.CFG : Nat := 0x100
abbrev MGMT.STATUS : Nat := 0x020
abbrev MGMT.CMD : Nat := 0x024
abbrev MGMT.CMD_ARG0 : Nat := 0x028
abbrev MGMT.CMD_ARG1 : Nat := 0x02C
abbrev MGMT.CMD_RESULT : Nat := 0x030
abbrev MGMT.PEC_ERRORS : Nat := 0x034
abbrev MGMT.REFUSED_COUNT : Nat := 0x038
abbrev MGMT.LAST_ERR : Nat := 0x03C
abbrev MGMT.ALERT_MASK0 : Nat := 0x040
abbrev MGMT.ALERT_MASK1 : Nat := 0x044
abbrev MGMT.ALERT_MASK2 : Nat := 0x048
abbrev MGMT.SNAP_STATUS : Nat := 0x050
abbrev MGMT.SNAP_TEMP : Nat := 0x054
abbrev MGMT.SNAP_VIN : Nat := 0x058
abbrev MGMT.DOWN_COUNT : Nat := 0x05C
abbrev MGMT.CFG : Nat := 0x100
abbrev DMA.STATUS : Nat := 0x020
abbrev DMA.ERR_ADDR : Nat := 0x024
abbrev DMA.ERR_INFO : Nat := 0x028
abbrev DMA.CMD : Nat := 0x02C
abbrev DMA.ACTIVE_LO : Nat := 0x030
abbrev DMA.ACTIVE_HI : Nat := 0x034
abbrev DMA.HALT_COUNT : Nat := 0x038
abbrev DMA.CFG : Nat := 0x100
abbrev DMA.FAULT_CFG : Nat := 0x104
abbrev TRACE.STATUS : Nat := 0x020
abbrev TRACE.CMD : Nat := 0x024
abbrev TRACE.SAMPLE_COUNT : Nat := 0x028
abbrev TRACE.TRIG_IGNORED : Nat := 0x02C
abbrev TRACE.STREAM_DROP : Nat := 0x030
abbrev TRACE.SEG_VALID : Nat := 0x034
abbrev TRACE.CFG : Nat := 0x100
abbrev TRACE.PERIOD : Nat := 0x104
abbrev TRACE.FRAME_PACE : Nat := 0x108
abbrev TRACE.REDUCE : Nat := 0x10C
abbrev TRACE.SEG_WORDS : Nat := 0x110
abbrev TRACE.POST : Nat := 0x114
abbrev TRACE.PRE_MIN : Nat := 0x118
abbrev TRACE.TRIG_CFG : Nat := 0x11C
abbrev TRACE.FAULT_CFG : Nat := 0x120
abbrev TRACE.PROBE_CFG (n : Nat) : Nat := 0x140 + 0x4 * n
abbrev TRACE.TU_CFG (n : Nat) : Nat := 0x180 + 0x20 * n
abbrev TRACE.TU_A (n : Nat) : Nat := 0x184 + 0x20 * n
abbrev TRACE.TU_B (n : Nat) : Nat := 0x188 + 0x20 * n
abbrev TRACE.TU_C (n : Nat) : Nat := 0x18C + 0x20 * n
abbrev TRACE.TU_D (n : Nat) : Nat := 0x190 + 0x20 * n
abbrev TRACE.MASK_CFG (n : Nat) : Nat := 0x200 + 0x10 * n
abbrev TRACE.MASK_BASE (n : Nat) : Nat := 0x204 + 0x10 * n
abbrev CAN.ERR_CNT : Nat := 0x020
abbrev CAN.CMD : Nat := 0x024
abbrev CAN.TX_REQ : Nat := 0x028
abbrev CAN.TX_ABORT : Nat := 0x02C
abbrev CAN.TX_DONE : Nat := 0x030
abbrev CAN.RX_STATUS : Nat := 0x034
abbrev CAN.RX_OVERFLOW : Nat := 0x038
abbrev CAN.FRAME_COUNT : Nat := 0x03C
abbrev CAN.TDC_MEAS : Nat := 0x040
abbrev CAN.CFG : Nat := 0x100
abbrev CAN.NBT : Nat := 0x104
abbrev CAN.DBT : Nat := 0x108
abbrev CAN.TDC : Nat := 0x10C
abbrev CAN.RX_WIN : Nat := 0x110
abbrev BILVA.NODE_STATUS : Nat := 0x020
abbrev BILVA.NETSTRIKE_T_LO : Nat := 0x024
abbrev BILVA.NETSTRIKE_T_HI : Nat := 0x028
abbrev BILVA.NETSTRIKE_TAG : Nat := 0x02C
abbrev BILVA.NETSTRIKE_CMD : Nat := 0x030
abbrev BILVA.NETSTRIKE_ACKS : Nat := 0x034
abbrev BILVA.NETSTRIKE_LAST_NAK : Nat := 0x038
abbrev BILVA.ACCEPT : Nat := 0x03C
abbrev BILVA.FWD_COUNT : Nat := 0x040
abbrev BILVA.FWD_DROP : Nat := 0x044
abbrev BILVA.BAD_COUNT : Nat := 0x048
abbrev BILVA.CFG : Nat := 0x100
abbrev BILVA.FAULT_CFG : Nat := 0x104
abbrev ADC.SHUNT_RAW (n : Nat) : Nat := 0x020 + 0x4 * n
abbrev ADC.SD_RAW (n : Nat) : Nat := 0x040 + 0x4 * n
abbrev ADC.AIN_RAW (n : Nat) : Nat := 0x060 + 0x4 * n
abbrev ADC.SHUNT_CFG (n : Nat) : Nat := 0x100 + 0x4 * n
abbrev ADC.SD_CFG (n : Nat) : Nat := 0x120 + 0x4 * n
abbrev ADC.AIN_CFG (n : Nat) : Nat := 0x140 + 0x4 * n
abbrev ADC.SDC_CTRL : Nat := 0x180
abbrev AXIS.TORQUE_CMD : Nat := 0x020
abbrev AXIS.ID_CMD : Nat := 0x024
abbrev AXIS.T_LIM : Nat := 0x028
abbrev AXIS.SPEED_LIM : Nat := 0x02C
abbrev AXIS.ANGLE : Nat := 0x030
abbrev AXIS.SPEED : Nat := 0x034
abbrev AXIS.ID : Nat := 0x038
abbrev AXIS.IQ : Nat := 0x03C
abbrev AXIS.ID_REF : Nat := 0x040
abbrev AXIS.IQ_REF : Nat := 0x044
abbrev AXIS.VD : Nat := 0x048
abbrev AXIS.VQ : Nat := 0x04C
abbrev AXIS.UDC : Nat := 0x050
abbrev AXIS.TORQUE_EST : Nat := 0x054
abbrev AXIS.ADV_ANGLE : Nat := 0x058
abbrev AXIS.DEPTH : Nat := 0x05C
abbrev AXIS.LIMITED_COUNT : Nat := 0x060
abbrev AXIS.OFFSET0 : Nat := 0x064
abbrev AXIS.OFFSET1 : Nat := 0x068
abbrev AXIS.OBS_ANGLE : Nat := 0x06C
abbrev AXIS.OBS_SPEED : Nat := 0x070
abbrev AXIS.OBS_EMF : Nat := 0x074
abbrev AXIS.OBS_STATUS : Nat := 0x078
abbrev AXIS.RESTART_COUNT : Nat := 0x07C
abbrev AXIS.CFG : Nat := 0x100
abbrev AXIS.LEGS : Nat := 0x104
abbrev AXIS.SENSE_SEL : Nat := 0x108
abbrev AXIS.SOURCES : Nat := 0x10C
abbrev AXIS.I_FS : Nat := 0x110
abbrev AXIS.U_FS : Nat := 0x114
abbrev AXIS.T_FS : Nat := 0x118
abbrev AXIS.CUR_LIMIT : Nat := 0x11C
abbrev AXIS.I_TRIP : Nat := 0x120
abbrev AXIS.POLE_PAIRS : Nat := 0x124
abbrev AXIS.CPR : Nat := 0x128
abbrev AXIS.ANGLE_OFS : Nat := 0x12C
abbrev AXIS.RS : Nat := 0x130
abbrev AXIS.LD : Nat := 0x134
abbrev AXIS.LQ : Nat := 0x138
abbrev AXIS.PSI : Nat := 0x13C
abbrev AXIS.KP_D : Nat := 0x140
abbrev AXIS.KI_D : Nat := 0x144
abbrev AXIS.KP_Q : Nat := 0x148
abbrev AXIS.KI_Q : Nat := 0x14C
abbrev AXIS.MOD_MAX : Nat := 0x150
abbrev AXIS.SHUNT_CFG : Nat := 0x154
abbrev AXIS.R_SHUNT : Nat := 0x158
abbrev AXIS.CLAMP_BAND : Nat := 0x15C
abbrev AXIS.UDC_FIXED : Nat := 0x160
abbrev AXIS.ADV_PT (n : Nat) : Nat := 0x180 + 0x4 * n
abbrev AXIS.OBS_GAIN : Nat := 0x1A0
abbrev AXIS.PLL_KP : Nat := 0x1A4
abbrev AXIS.PLL_KI : Nat := 0x1A8
abbrev AXIS.OBS_MIN_SPEED : Nat := 0x1AC
abbrev AXIS.LOS_CFG : Nat := 0x1B0
abbrev AXIS.ACC_LIM : Nat := 0x1B4
abbrev AXIS.RESTART_CFG : Nat := 0x1B8
abbrev AXIS.START_CFG : Nat := 0x1BC
abbrev AXIS.START_ACC : Nat := 0x1C0
abbrev FB.POS_LO : Nat := 0x020
abbrev FB.POS_HI : Nat := 0x024
abbrev FB.SPEED : Nat := 0x028
abbrev FB.ACQ_TICK_LO : Nat := 0x02C
abbrev FB.ACQ_TICK_HI : Nat := 0x030
abbrev FB.EDGE_AGE : Nat := 0x034
abbrev FB.INDEX_POS_LO : Nat := 0x038
abbrev FB.INDEX_POS_HI : Nat := 0x03C
abbrev FB.POS_LOAD_LO : Nat := 0x040
abbrev FB.POS_LOAD_HI : Nat := 0x044
abbrev FB.LOAD_CMD : Nat := 0x048
abbrev FB.RAW_LO : Nat := 0x04C
abbrev FB.RAW_HI : Nat := 0x050
abbrev FB.FAULT_COUNT : Nat := 0x054
abbrev FB.LINE_DELAY : Nat := 0x058
abbrev FB.INDEX_DIFF : Nat := 0x05C
abbrev FB.REP_STATUS : Nat := 0x060
abbrev FB.STATUS : Nat := 0x064
abbrev FB.CFG : Nat := 0x100
abbrev FB.INDEX_VALUE : Nat := 0x104
abbrev FB.COUNTS_PER_INDEX : Nat := 0x108
abbrev FB.INDEX_TOL : Nat := 0x10C
abbrev FB.SPEED_CFG : Nat := 0x110
abbrev FB.SPD_HI : Nat := 0x114
abbrev FB.SPD_LO : Nat := 0x118
abbrev FB.STANDSTILL : Nat := 0x11C
abbrev FB.WHEEL : Nat := 0x120
abbrev FB.ABS_CFG : Nat := 0x124
abbrev FB.ABS_TIMING : Nat := 0x128
abbrev FB.MAX_STEP : Nat := 0x12C
abbrev FB.HALL_CFG : Nat := 0x130
abbrev FB.REP_CFG : Nat := 0x180
abbrev FB.REP_ZPER : Nat := 0x184
abbrev MOT.CMD : Nat := 0x020
abbrev MOT.TARGET_LO : Nat := 0x024
abbrev MOT.TARGET_HI : Nat := 0x028
abbrev MOT.V_MAX : Nat := 0x02C
abbrev MOT.ACC : Nat := 0x030
abbrev MOT.DEC : Nat := 0x034
abbrev MOT.JERK : Nat := 0x038
abbrev MOT.JOG_V : Nat := 0x03C
abbrev MOT.POS_SP_LO : Nat := 0x040
abbrev MOT.POS_SP_HI : Nat := 0x044
abbrev MOT.SPEED_SP : Nat := 0x048
abbrev MOT.DEVIATION : Nat := 0x04C
abbrev MOT.POS_ACT_LO : Nat := 0x050
abbrev MOT.POS_ACT_HI : Nat := 0x054
abbrev MOT.STATUS : Nat := 0x058
abbrev MOT.STEP_POS_LO : Nat := 0x05C
abbrev MOT.STEP_POS_HI : Nat := 0x060
abbrev MOT.GEAR_NUM : Nat := 0x068
abbrev MOT.GEAR_DEN : Nat := 0x06C
abbrev MOT.SWITCH_POS_LO : Nat := 0x070
abbrev MOT.SWITCH_POS_HI : Nat := 0x074
abbrev MOT.GEAR_CTRL : Nat := 0x078
abbrev MOT.GEAR_PHASE_ERR : Nat := 0x07C
abbrev MOT.CMP_POS_LO (n : Nat) : Nat := 0x080 + 0x20 * n
abbrev MOT.CMP_POS_HI (n : Nat) : Nat := 0x084 + 0x20 * n
abbrev MOT.CMP_CTRL (n : Nat) : Nat := 0x088 + 0x20 * n
abbrev MOT.CMP_INC (n : Nat) : Nat := 0x08C + 0x20 * n
abbrev MOT.CMP_TICK_LO (n : Nat) : Nat := 0x090 + 0x20 * n
abbrev MOT.CMP_TICK_HI (n : Nat) : Nat := 0x094 + 0x20 * n
abbrev MOT.CMP_STATUS (n : Nat) : Nat := 0x098 + 0x20 * n
abbrev MOT.LATCH_CTRL (n : Nat) : Nat := 0x0C0 + 0x20 * n
abbrev MOT.LATCH_POS_LO (n : Nat) : Nat := 0x0C4 + 0x20 * n
abbrev MOT.LATCH_POS_HI (n : Nat) : Nat := 0x0C8 + 0x20 * n
abbrev MOT.LATCH_TICK_LO (n : Nat) : Nat := 0x0CC + 0x20 * n
abbrev MOT.LATCH_TICK_HI (n : Nat) : Nat := 0x0D0 + 0x20 * n
abbrev MOT.LATCH_STATUS (n : Nat) : Nat := 0x0D4 + 0x20 * n
abbrev MOT.CMD_RESULT : Nat := 0x0F8
abbrev MOT.CFG : Nat := 0x100
abbrev MOT.QSTOP_DEC : Nat := 0x104
abbrev MOT.DEV_WIN : Nat := 0x108
abbrev MOT.DEV_FRAMES : Nat := 0x10C
abbrev MOT.FB_NUM : Nat := 0x110
abbrev MOT.FB_DEN : Nat := 0x114
abbrev MOT.STEP_TIMING : Nat := 0x118
abbrev MOT.STEP_MIN_PERIOD : Nat := 0x11C
abbrev MOT.CMP_OUT0 : Nat := 0x120
abbrev MOT.CMP_OUT1 : Nat := 0x124
abbrev MOT.LATCH_SRC0 : Nat := 0x128
abbrev MOT.LATCH_SRC1 : Nat := 0x12C
abbrev GROUP.SEG_W (g i : Nat) : Nat := 0x020 + 0x30 * g + 4 * i
abbrev GROUP.PUSH (n : Nat) : Nat := 0x040 + 0x30 * n
abbrev GROUP.FEED_OVR (n : Nat) : Nat := 0x044 + 0x30 * n
abbrev GROUP.QSTATUS (n : Nat) : Nat := 0x048 + 0x30 * n
abbrev GROUP.PATH_SPEED (n : Nat) : Nat := 0x04C + 0x30 * n
abbrev GROUP.MEMBERS (n : Nat) : Nat := 0x100 + 0x10 * n
abbrev GROUP.PATH_VMAX (n : Nat) : Nat := 0x104 + 0x10 * n
abbrev GROUP.PATH_ACC (n : Nat) : Nat := 0x108 + 0x10 * n
abbrev GROUP.PATH_QSTOP (n : Nat) : Nat := 0x10C + 0x10 * n
abbrev HOIST.ROPE_LEN (n : Nat) : Nat := 0x020 + 0x20 * n
abbrev HOIST.ROPE_K (n : Nat) : Nat := 0x024 + 0x20 * n
abbrev HOIST.ROPE_FORCE (n : Nat) : Nat := 0x028 + 0x20 * n
abbrev HOIST.LOAD_FORCE (n : Nat) : Nat := 0x02C + 0x20 * n
abbrev HOIST.STRETCH_V (n : Nat) : Nat := 0x030 + 0x20 * n
abbrev HOIST.DAMP_TQ (n : Nat) : Nat := 0x034 + 0x20 * n
abbrev HOIST.ROPE_FREQ (n : Nat) : Nat := 0x038 + 0x20 * n
abbrev HOIST.ROPE_STATUS (n : Nat) : Nat := 0x03C + 0x20 * n
abbrev HOIST.SHARE_STATUS (n : Nat) : Nat := 0x0A0 + 0x10 * n
abbrev HOIST.PRESENT (n : Nat) : Nat := 0x0A4 + 0x10 * n
abbrev HOIST.T_TOT (n : Nat) : Nat := 0x0A8 + 0x10 * n
abbrev HOIST.REF_COUNT (n : Nat) : Nat := 0x0AC + 0x10 * n
abbrev HOIST.RESCUE_CMD : Nat := 0x0C0
abbrev HOIST.RESCUE_STATUS : Nat := 0x0C4
abbrev HOIST.HOLD_TQ : Nat := 0x0C8
abbrev HOIST.RESCUE_TIME : Nat := 0x0CC
abbrev HOIST.BAT_MV : Nat := 0x0D0
abbrev HOIST.BAT_MA : Nat := 0x0D4
abbrev HOIST.RESCUE_COUNT : Nat := 0x0D8
abbrev HOIST.LADDER_STATUS : Nat := 0x0E0
abbrev HOIST.ROPE_CFG (n : Nat) : Nat := 0x100 + 0x40 * n
abbrev HOIST.TRAVEL_NM (n : Nat) : Nat := 0x104 + 0x40 * n
abbrev HOIST.LEN0 (n : Nat) : Nat := 0x108 + 0x40 * n
abbrev HOIST.LEN_MIN (n : Nat) : Nat := 0x10C + 0x40 * n
abbrev HOIST.LEN_MAX (n : Nat) : Nat := 0x110 + 0x40 * n
abbrev HOIST.EA_FALL (n : Nat) : Nat := 0x114 + 0x40 * n
abbrev HOIST.MASS_L (n : Nat) : Nat := 0x118 + 0x40 * n
abbrev HOIST.MASS_M (n : Nat) : Nat := 0x11C + 0x40 * n
abbrev HOIST.C_ROPE (n : Nat) : Nat := 0x120 + 0x40 * n
abbrev HOIST.OBS_BW (n : Nat) : Nat := 0x124 + 0x40 * n
abbrev HOIST.DAMP_MAX (n : Nat) : Nat := 0x128 + 0x40 * n
abbrev HOIST.SLACK (n : Nat) : Nat := 0x12C + 0x40 * n
abbrev HOIST.SNATCH (n : Nat) : Nat := 0x130 + 0x40 * n
abbrev HOIST.SNATCH_MAX (n : Nat) : Nat := 0x134 + 0x40 * n
abbrev HOIST.SHARE_CFG (n : Nat) : Nat := 0x200 + 0x100 * n
abbrev HOIST.SRC (n : Nat) : Nat := 0x204 + 0x100 * n
abbrev HOIST.GROUP_T_FS (n : Nat) : Nat := 0x208 + 0x100 * n
abbrev HOIST.STAT_CFG (n : Nat) : Nat := 0x20C + 0x100 * n
abbrev HOIST.SLOT (g i : Nat) : Nat := 0x280 + 0x100 * g + 4 * i
abbrev HOIST.RESCUE_CFG : Nat := 0x400
abbrev HOIST.TRIG_TIME : Nat := 0x404
abbrev HOIST.TRIG_UDC : Nat := 0x408
abbrev HOIST.BAT_SRC : Nat := 0x40C
abbrev HOIST.BAT_MIN : Nat := 0x410
abbrev HOIST.CONV_UDC : Nat := 0x414
abbrev HOIST.CONV_LIM : Nat := 0x418
abbrev HOIST.CONV_RAMP : Nat := 0x41C
abbrev HOIST.CONV_KP_V : Nat := 0x420
abbrev HOIST.CONV_KI_V : Nat := 0x424
abbrev HOIST.CONV_KP_I : Nat := 0x428
abbrev HOIST.CONV_KI_I : Nat := 0x42C
abbrev HOIST.RESCUE_TIMES : Nat := 0x430
abbrev HOIST.TEST_TIMES : Nat := 0x434
abbrev HOIST.BAL_T : Nat := 0x438
abbrev HOIST.TEST_SLIP : Nat := 0x43C
abbrev HOIST.RESCUE_V : Nat := 0x440
abbrev HOIST.RESCUE_ACC : Nat := 0x444
abbrev HOIST.RESCUE_JERK : Nat := 0x448
abbrev HOIST.TRAVEL_MAX : Nat := 0x44C
abbrev HOIST.LANDINGS : Nat := 0x450
abbrev HOIST.LAND_TOL : Nat := 0x454
abbrev HOIST.LAND_LO (n : Nat) : Nat := 0x460 + 0x8 * n
abbrev HOIST.LAND_HI (n : Nat) : Nat := 0x464 + 0x8 * n
abbrev HOIST.OV_ASC : Nat := 0x580
abbrev HOIST.OV_STO : Nat := 0x584
abbrev HOIST.LADDER (n : Nat) : Nat := 0x588 + 0x4 * n
abbrev HOIST.ASC_SPEED (n : Nat) : Nat := 0x5A8 + 0x4 * n
abbrev PWM.DUTY (n : Nat) : Nat := 0x020 + 0x18 * n
abbrev PWM.PERIOD (n : Nat) : Nat := 0x024 + 0x18 * n
abbrev PWM.CTRL (n : Nat) : Nat := 0x028 + 0x18 * n
abbrev PWM.STATUS (n : Nat) : Nat := 0x02C + 0x18 * n
abbrev PWM.LATE_UPDATES (n : Nat) : Nat := 0x030 + 0x18 * n
abbrev PWM.DT_MEAS (n : Nat) : Nat := 0x034 + 0x18 * n
abbrev PWM.LEG_CTRL (n : Nat) : Nat := 0x100 + 0x20 * n
abbrev PWM.DEADTIME (n : Nat) : Nat := 0x104 + 0x20 * n
abbrev PWM.REFRESH (n : Nat) : Nat := 0x108 + 0x20 * n
abbrev PWM.PHASE (n : Nat) : Nat := 0x10C + 0x20 * n
abbrev PWM.TON_TOFF (n : Nat) : Nat := 0x110 + 0x20 * n
abbrev PWM.OUT_CFG (n : Nat) : Nat := 0x114 + 0x20 * n
abbrev GD.LEG_STATUS (n : Nat) : Nat := 0x020 + 0x10 * n
abbrev GD.VBS (n : Nat) : Nat := 0x024 + 0x10 * n
abbrev GD.TRIP_COUNT (n : Nat) : Nat := 0x028 + 0x10 * n
abbrev GD.XCMD_COUNT (n : Nat) : Nat := 0x02C + 0x10 * n
abbrev GD.GD_CFG (n : Nat) : Nat := 0x100 + 0x10 * n
abbrev GD.DRIVE (n : Nat) : Nat := 0x104 + 0x10 * n
abbrev GD.VDS (n : Nat) : Nat := 0x108 + 0x10 * n
abbrev GD.QG (n : Nat) : Nat := 0x10C + 0x10 * n
abbrev LOOP.SP_LIVE (n : Nat) : Nat := 0x020 + 0x4 * n
abbrev LOOP.OUT (n : Nat) : Nat := 0x060 + 0x4 * n
abbrev LOOP.STATUS (n : Nat) : Nat := 0x0A0 + 0x4 * n
abbrev LOOP.CLOSE_REQ : Nat := 0x0E0
abbrev LOOP.SAT_SUM : Nat := 0x0E4
abbrev LOOP.CFG (n : Nat) : Nat := 0x100 + 0x70 * n
abbrev LOOP.BIND (n : Nat) : Nat := 0x104 + 0x70 * n
abbrev LOOP.SRC (n : Nat) : Nat := 0x108 + 0x70 * n
abbrev LOOP.ROUTE (n : Nat) : Nat := 0x10C + 0x70 * n
abbrev LOOP.SHIFT (n : Nat) : Nat := 0x110 + 0x70 * n
abbrev LOOP.KP (n : Nat) : Nat := 0x114 + 0x70 * n
abbrev LOOP.KI (n : Nat) : Nat := 0x118 + 0x70 * n
abbrev LOOP.KD (n : Nat) : Nat := 0x11C + 0x70 * n
abbrev LOOP.DF (n : Nat) : Nat := 0x120 + 0x70 * n
abbrev LOOP.KT (n : Nat) : Nat := 0x124 + 0x70 * n
abbrev LOOP.FF_GAIN (n : Nat) : Nat := 0x128 + 0x70 * n
abbrev LOOP.B0 (n : Nat) : Nat := 0x12C + 0x70 * n
abbrev LOOP.B1 (n : Nat) : Nat := 0x130 + 0x70 * n
abbrev LOOP.B2 (n : Nat) : Nat := 0x134 + 0x70 * n
abbrev LOOP.A1 (n : Nat) : Nat := 0x138 + 0x70 * n
abbrev LOOP.A2 (n : Nat) : Nat := 0x13C + 0x70 * n
abbrev LOOP.OUT_MAX (n : Nat) : Nat := 0x140 + 0x70 * n
abbrev LOOP.OUT_MIN (n : Nat) : Nat := 0x144 + 0x70 * n
abbrev LOOP.I_MAX (n : Nat) : Nat := 0x148 + 0x70 * n
abbrev LOOP.I_MIN (n : Nat) : Nat := 0x14C + 0x70 * n
abbrev LOOP.SS_STEP (n : Nat) : Nat := 0x150 + 0x70 * n
abbrev LOOP.SLEW (n : Nat) : Nat := 0x154 + 0x70 * n
abbrev LOOP.DEADBAND (n : Nat) : Nat := 0x158 + 0x70 * n
abbrev LOOP.I_PRESET (n : Nat) : Nat := 0x15C + 0x70 * n
abbrev DMACH.CH_CMD (n : Nat) : Nat := 0x020 + 0x18 * n
abbrev DMACH.CH_STATUS (n : Nat) : Nat := 0x024 + 0x18 * n
abbrev DMACH.DONE_COUNT (n : Nat) : Nat := 0x028 + 0x18 * n
abbrev DMACH.LAST_TICK (n : Nat) : Nat := 0x02C + 0x18 * n
abbrev DMACH.ZERO_BEATS (n : Nat) : Nat := 0x030 + 0x18 * n
abbrev DMACH.CH_CFG (n : Nat) : Nat := 0x100 + 0x20 * n
abbrev DMACH.RING_BASE (n : Nat) : Nat := 0x104 + 0x20 * n
abbrev DMACH.RING_LEN (n : Nat) : Nat := 0x108 + 0x20 * n
abbrev DMACH.BUF_BASE (n : Nat) : Nat := 0x10C + 0x20 * n
abbrev DMACH.BUF_BYTES (n : Nat) : Nat := 0x110 + 0x20 * n
abbrev DMACH.FRAME_PACE (n : Nat) : Nat := 0x114 + 0x20 * n
abbrev DMACH.PERIOD (n : Nat) : Nat := 0x118 + 0x20 * n
abbrev LANE.STATUS : Nat := 0x020
abbrev LANE.DEMAND : Nat := 0x024
abbrev LANE.BUDGET : Nat := 0x028
abbrev LANE.USED_MAX : Nat := 0x02C
abbrev LANE.SELFTEST_COUNT : Nat := 0x030
abbrev LANE.BOUND_ABORTS : Nat := 0x034
abbrev LANE.URGENT_MERGED : Nat := 0x038
abbrev LANE.CODE_RANGE : Nat := 0x100
abbrev LANE.DATA_RANGE : Nat := 0x104
abbrev LANE.TASK_CFG (n : Nat) : Nat := 0x200 + 0x10 * n
abbrev LANE.TASK_ENTRY (n : Nat) : Nat := 0x204 + 0x10 * n
abbrev LANE.TASK_BOUND (n : Nat) : Nat := 0x208 + 0x10 * n
abbrev LANE.TASK_ARRIVAL (n : Nat) : Nat := 0x20C + 0x10 * n

end Sys2Proof.Machine
end

