-- ==== Sys2Proof/Machine/Ops.lean ====
section
/-!
DEFINITION. The named operations over State: the units' own records, registers (live, in force, staged), memory, events,
the impression-log queue, refusals and deadlines. Every meaning is written over these.
-/
namespace Sys2Proof.Machine

/-- What every meaning that completes answers. -/
abbrev Out := Host.Outcome State Fault Refusal

/-- An operation repeated for the indices 0 to n - 1. -/
def forN (n : Nat) (f : Nat → State → State) (s : State) : State := (List.range n).foldl (fun s i => f i s) s

/-- An operation repeated over a list. -/
def forL {α : Type} (l : List α) (f : α → State → State) (s : State) : State := l.foldl (fun s i => f i s) s

/-! Records of the units. -/

/-- Axis a. -/
def State.ax (s : State) (a : Nat) : AxisSt := s.axes.getD a {}
/-- Axis a changed. -/
def State.onAx (s : State) (a : Nat) (f : AxisSt → AxisSt) : State := { s with axes := s.axes.modify a f }
/-- Drive a. -/
def State.dr (s : State) (a : Nat) : DriveSt := s.drives.getD a {}
/-- Drive a changed. -/
def State.onDr (s : State) (a : Nat) (f : DriveSt → DriveSt) : State := { s with drives := s.drives.modify a f }
/-- Loop context c. -/
def State.cx (s : State) (c : Nat) : CtxSt := s.ctxs.getD c {}
/-- Loop context c changed. -/
def State.onCx (s : State) (c : Nat) (f : CtxSt → CtxSt) : State := { s with ctxs := s.ctxs.modify c f }
/-- Feedback interface n. -/
def State.fb (s : State) (n : Nat) : FbSt := s.fbs.getD n {}
/-- Feedback interface n changed. -/
def State.onFb (s : State) (n : Nat) (f : FbSt → FbSt) : State := { s with fbs := s.fbs.modify n f }
/-- Motion axis a. -/
def State.mt (s : State) (a : Nat) : MotSt := s.mots.getD a {}
/-- Motion axis a changed. -/
def State.onMt (s : State) (a : Nat) (f : MotSt → MotSt) : State := { s with mots := s.mots.modify a f }
/-- Compare unit u of axis a stands at 2a + u. -/
def State.cm (s : State) (i : Nat) : CmpSt := s.cmps.getD i {}
/-- Compare unit changed. -/
def State.onCm (s : State) (i : Nat) (f : CmpSt → CmpSt) : State := { s with cmps := s.cmps.modify i f }
/-- Latch u of axis a stands at 2a + u. -/
def State.la (s : State) (i : Nat) : LatchSt := s.latches.getD i {}
/-- Latch changed. -/
def State.onLa (s : State) (i : Nat) (f : LatchSt → LatchSt) : State := { s with latches := s.latches.modify i f }
/-- Path group g. -/
def State.gr (s : State) (g : Nat) : GroupSt := s.groups.getD g {}
/-- Path group g changed. -/
def State.onGr (s : State) (g : Nat) (f : GroupSt → GroupSt) : State := { s with groups := s.groups.modify g f }
/-- Leg l. -/
def State.lg (s : State) (l : Nat) : LegSt := s.legs.getD l {}
/-- Leg l changed. -/
def State.onLg (s : State) (l : Nat) (f : LegSt → LegSt) : State := { s with legs := s.legs.modify l f }
/-- Lane n. -/
def State.ln (s : State) (n : Nat) : LaneSt := s.lanes.getD n {}
/-- Lane n changed. -/
def State.onLn (s : State) (n : Nat) (f : LaneSt → LaneSt) : State := { s with lanes := s.lanes.modify n f }
/-- Rope model r. -/
def State.rp (s : State) (r : Nat) : RopeSt := s.ropes.getD r {}
/-- Rope model r changed. -/
def State.onRp (s : State) (r : Nat) (f : RopeSt → RopeSt) : State := { s with ropes := s.ropes.modify r f }
/-- Share group g. -/
def State.sh (s : State) (g : Nat) : ShareSt := s.shares.getD g {}
/-- Share group g changed. -/
def State.onSh (s : State) (g : Nat) (f : ShareSt → ShareSt) : State := { s with shares := s.shares.modify g f }
/-- DMA channel c. -/
def State.dm (s : State) (c : Nat) : DmaSt := s.dma.getD c {}
/-- DMA channel c changed. -/
def State.onDm (s : State) (c : Nat) (f : DmaSt → DmaSt) : State := { s with dma := s.dma.modify c f }
/-- CAN port p. -/
def State.cn (s : State) (p : Nat) : CanSt := s.cans.getD p {}
/-- CAN port p changed. -/
def State.onCn (s : State) (p : Nat) (f : CanSt → CanSt) : State := { s with cans := s.cans.modify p f }
/-- Field input i. -/
def State.di (s : State) (i : Nat) : DiSt := s.dis.getD i {}
/-- Field input i changed. -/
def State.onDi (s : State) (i : Nat) (f : DiSt → DiSt) : State := { s with dis := s.dis.modify i f }
/-- Field output n. -/
def State.fo (s : State) (n : Nat) : DoSt := s.dos.getD n {}
/-- Field output n changed. -/
def State.onFo (s : State) (n : Nat) (f : DoSt → DoSt) : State := { s with dos := s.dos.modify n f }
/-- Safety input slot i. -/
def State.si (s : State) (i : Nat) : SinSt := s.sins.getD i {}
/-- Safety input slot i changed. -/
def State.onSi (s : State) (i : Nat) (f : SinSt → SinSt) : State := { s with sins := s.sins.modify i f }
/-- Timebase and network time changed. -/
def State.onTime (s : State) (f : TimeSt → TimeSt) : State := { s with time := f s.time }
/-- Stage changed. -/
def State.onStage (s : State) (f : StageSt → StageSt) : State := { s with stage := f s.stage }
/-- Power and reset changed. -/
def State.onPower (s : State) (f : PowerSt → PowerSt) : State := { s with power := f s.power }
/-- Safety page's own state changed. -/
def State.onSafe (s : State) (f : SafetySt → SafetySt) : State := { s with safety := f s.safety }
/-- Scheduler changed. -/
def State.onSched (s : State) (f : SchedSt → SchedSt) : State := { s with sched := f s.sched }
/-- Field link changed. -/
def State.onField (s : State) (f : FieldSt → FieldSt) : State := { s with field := f s.field }
/-- Rescue sequence changed. -/
def State.onRescue (s : State) (f : RescueSt → RescueSt) : State := { s with rescue := f s.rescue }
/-- Chopper changed. -/
def State.onChop (s : State) (f : ChopSt → ChopSt) : State := { s with chop := f s.chop }
/-- Power die changed. -/
def State.onPdie (s : State) (f : PowerDieSt → PowerDieSt) : State := { s with pdie := f s.pdie }
/-- Tracing unit changed. -/
def State.onTrace (s : State) (f : TraceSt → TraceSt) : State := { s with trace := f s.trace }
/-- Housekeeping changed. -/
def State.onHk (s : State) (f : HkSt → HkSt) : State := { s with hk := f s.hk }
/-- Impression log changed. -/
def State.onLog (s : State) (f : LogSt → LogSt) : State := { s with log := f s.log }
/-- A master's own state. -/
def State.mstr (s : State) (m : Master) : MasterSt :=
  match m with
  | .host => s.host
  | .manager => s.mgr
/-- A master's own state changed. -/
def State.onMstr (s : State) (m : Master) (f : MasterSt → MasterSt) : State :=
  match m with
  | .host => { s with host := f s.host }
  | .manager => { s with mgr := f s.mgr }

/-- Present tick. -/
def State.now (s : State) : Nat := s.time.tick

/-- A free value's index, and the state with it taken (log entry 11). -/
def State.takeFree (s : State) : Nat × State := (s.free, { s with free := s.free + 1 })

/-! Registers. -/

/-- Page and offset of a byte address below 0x10_0000. -/
def pageOf (a : Nat) : Nat := a / 4096
/-- Offset in the page. -/
def offOf (a : Nat) : Nat := a % 4096
/-- Byte address of a register. -/
def regAddr (p o : Nat) : Nat := p * 4096 + o

/-- Whether a row covers an offset. -/
def RegRow.covers (r : RegRow) (o : Nat) : Bool :=
  decide (r.off ≤ o) && decide ((o - r.off) % r.stride = 0) && decide ((o - r.off) / r.stride < r.reps)

/-- A register that a page does not hold although others of its type do: the repeaters' on FB2 to FB7 (R171), the step output's on
MOT0 to MOT7 (R194), OUT_CFG on legs 0 to 11 (Table 9-6). -/
def regAbsent (p0 p o : Nat) : Bool :=
  let n := p - p0
  if p0 = 0x18 then decide (2 ≤ n) && (o == FB.REP_CFG || o == FB.REP_ZPER || o == FB.REP_STATUS)
  else if p0 = 0x20 then decide (n < 8) && (o == MOT.STEP_TIMING || o == MOT.STEP_MIN_PERIOD || o == MOT.STEP_POS_LO || o == MOT.STEP_POS_HI)
  else if p0 = 0x34 then (List.range 8).any fun j => o == PWM.OUT_CFG j && decide (8 * n + j < 12)
  else false

/-- The register at an offset of a page: instance 0 page of the type and the row. -/
def rowAt (p o : Nat) : Option (Nat × RegRow) :=
  match pageRows p with
  | none => none
  | some (p0, rows) =>
    if regAbsent p0 p o then none
    else match rows.find? (fun r => r.covers o) with
    | none => none
    | some r => some (p0, r)

/-- Reset code of REACTn (Table 11-3, and the tables that continue it). -/
def reactReset (n : Nat) : Word :=
  match n with
  | 0 => 0x33333003
  | 1 => 0x33330233
  | 2 => 0x31330013
  | 3 => 0x20020000
  | 4 => 0x00333022
  | _ => 0

/-- Reset value of a register that its row gives per instance of the page (Tables 5-2, 5-9, 11-3 and the PAGE_CAPS rows);
none where the row's own value holds. -/
def resetByPage (p0 p o : Nat) : Option Word :=
  let n := p - p0
  if p0 = 0x10 then
    if o = AXIS.CFG then some (nw (n * 256))
    else if o = AXIS.LEGS then some (nw ((3 * n + 2) * 2 ^ 16 + (3 * n + 1) * 2 ^ 8 + 3 * n))
    else if o = AXIS.SENSE_SEL then some (nw n)
    else if o = AXIS.SOURCES then some (nw (0x00FE0000 + n))
    else none
  else if p0 = 0x18 ∧ o = pageCaps then some (if n < 2 then 0x1FF else 0xFF)
  else if p0 = 0x20 ∧ o = pageCaps then some (if n < 8 then 1 else 2)
  else if p0 = 0x34 ∧ o = pageCaps then some (nw (n * 0x800 + 8 + (if n = 3 then 0x10000 else 0)))
  else if p0 = 0x38 ∧ o = pageCaps then some (nw (n * 0x600 + 6))
  else if p0 = 0x40 ∧ o = pageCaps then some (nw (n * 0x1000 + 0x10))
  else if p0 = 0x48 ∧ o = pageCaps then some (nw (n * 0x800 + 8))
  else if p0 = 0x04 ∧ SAFE.REACT 0 ≤ o ∧ o < SAFE.REACT 8 then some (reactReset ((o - SAFE.REACT 0) / 4))
  else if p0 = 0x00 ∧ o = SYS.DEVICE_ID then some (if Config.gradeH then 0x73001131 else 0x73001031)
  else if p0 = 0x02 ∧ o = SCHED.EPI then some (nw (150 * 2 ^ 20 + 190 * 2 ^ 10 + 240))
  else if p0 = 0x02 ∧ o = SCHED.LEAK then some (nw (100 * 2 ^ 20 + 130 * 2 ^ 10 + 180))
  else none

/-- Reset value of the register at a page and offset (0 where there is none, R9). -/
def regReset (p o : Nat) : Word :=
  match rowAt p o with
  | none => 0
  | some (p0, r) => (resetByPage p0 p o).getD r.reset

/-- Live register. -/
def State.lv (s : State) (p o : Nat) : Word := (mapFind s.regs (regAddr p o)).getD (regReset p o)

/-- Live register written, from the device's side. -/
def State.setLv (s : State) (p o : Nat) (v : Word) : State :=
  { s with regs := mapSet s.regs (regAddr p o) v (regReset p o) }

/-- Staged register: value in force (R43). -/
def State.cf (s : State) (p o : Nat) : Word := (mapFind s.cfg (regAddr p o)).getD (regReset p o)

/-- Value in force written: a strike, a takeover, an image load. -/
def State.setCf (s : State) (p o : Nat) (v : Word) : State :=
  { s with cfg := mapSet s.cfg (regAddr p o) v (regReset p o) }

/-- Staged register: value in the stage, which is the value in force while no stage is open (R44). -/
def State.cd (s : State) (p o : Nat) : Word := (mapFind s.stg (regAddr p o)).getD (s.cf p o)

/-- Staged value written (R45). -/
def State.setCd (s : State) (p o : Nat) (v : Word) : State :=
  { s with stg := mapSet s.stg (regAddr p o) v (s.cf p o) }

/-- Live register of 64 bits, written as a pair. -/
def State.setPair (s : State) (p o : Nat) (x : Int) : State := (s.setLv p o (loW x)).setLv p (o + 4) (hiW x)

/-- Live register with its bits changed by a function. -/
def State.onLv (s : State) (p o : Nat) (f : Word → Word) : State := s.setLv p o (f (s.lv p o))

/-- A counter of 16 bits that saturates. -/
def State.inc16 (s : State) (p o : Nat) : State :=
  s.onLv p o fun w => nw (w.toNat / 2 ^ 16 * 2 ^ 16 + min (w.toNat % 2 ^ 16 + 1) 0xFFFF)

/-- A counter of 32 bits that wraps. -/
def State.inc32 (s : State) (p o : Nat) : State := s.onLv p o (· + 1)

/-- Bits of a page's PAGE_EVENT set (R10). -/
def State.eventRaw (s : State) (p bits : Nat) : State := s.onLv p pageEvent (· ||| nw bits)

/-- TU_CFG of trigger unit u in force (Table 16-7). -/
def State.tuCfg (s : State) (u : Nat) : Word := s.cf pgTrace (TRACE.TU_CFG u)

/-- A trigger is accepted in PRE once PRE_MIN samples are stored, FORCE (unit 4) at any time; another is counted (R398). Of several at
one tick the lowest unit is named (R401). -/
def State.traceTrigger (s : State) (u tick : Nat) : State :=
  if s.trace.state = .pre then
    if u = 4 ∨ fld (s.cf pgTrace TRACE.PRE_MIN) 17 0 ≤ s.trace.stored then
      ({ s with trace := { s.trace with state := .post, pendTrig := some (u, tick), trigUnit := u, trigTick := tick, rate := s.time.rho } }).eventRaw pgTrace 1
    else s.inc16 pgTrace TRACE.TRIG_IGNORED
  else match s.trace.pendTrig with
    | some (v, t) => if t = tick ∧ u < v then { s with trace := { s.trace with pendTrig := some (u, tick), trigUnit := u } } else s
    | none => s

/-- A trigger unit fires (R401). -/
def State.traceFire (s : State) (u tick : Nat) : State :=
  let tc := s.cf pgTrace TRACE.TRIG_CFG
  let win := fld tc 23 0
  if !bt tc 24 then s.traceTrigger u tick
  else if u = 0 then { s with trace := { s.trace with seqOpen := some tick } }
  else match s.trace.seqOpen with
    | some t => if win = 0 ∨ tick ≤ t + win then s.traceTrigger u tick else s
    | none => s

/-- The enabled trigger units of a KIND that a test accepts fire at a tick (Table 16-4). -/
def State.traceKind (s : State) (kind tick : Nat) (hit : Nat → Word → Bool) : State :=
  if s.trace.state = .pre ∨ s.trace.pendTrig.isSome then
    forN 4 (fun u s => let w := s.tuCfg u; if bt w 31 && fld w 30 28 == kind && hit u w then s.traceFire u tick else s) s
  else s

/-- Events of a page set (R10); each is seen by the tracing unit (Table 16-4, KIND 4). -/
def State.event (s : State) (p bits : Nat) : State :=
  (s.eventRaw p bits).traceKind 4 s.now fun _ w => fld w 7 0 == p && bits.testBit (fld w 12 8)
/-- Sticky fault bits of a page set. -/
def State.pfault (s : State) (p bits : Nat) : State := s.onLv p pageFault (· ||| nw bits)

/-! Memory: every byte outside the register pages that a window of Table 17-1 holds. -/

/-- First address after the plate memory, the trace buffer, the message memory. -/
def isPlate (a : Nat) : Bool := decide (0x100000 ≤ a ∧ a < 0x180000)
/-- Lane stores: code words 0x0000 to 0x3FFF, data 0x4000 to 0x5FFF of each slot (R40). -/
def isLaneStore (a : Nat) : Bool := decide (0x180000 ≤ a ∧ a < 0x1C0000 ∧ a % 0x8000 < 0x6000)
/-- Trace buffer. -/
def isTraceBuf (a : Nat) : Bool := decide (0x200000 ≤ a ∧ a < 0x2C0000)
/-- Message memory. -/
def isMsgMem (a : Nat) : Bool := decide (0x300000 ≤ a ∧ a < 0x308000)
/-- Window of the impression log. -/
def isLogWin (a : Nat) : Bool := decide (0x400000 ≤ a ∧ a < 0x410000)
/-- A byte that a memory window holds. -/
def isMem (a : Nat) : Bool := isPlate a || isLaneStore a || isTraceBuf a || isMsgMem a || isLogWin a

/-- What a byte that nothing has written reads as: 0 after the write-back of power-up step 6, and in a log sector never
opened TYPE = 0xFF (R435). -/
def memDefault (a : Nat) : Byte := if isLogWin a && a % 256 == 3 then 0xFF else 0

/-- Canonical form of memory: addresses strictly rising, no entry equal to what an unlisted address reads as. -/
def memWf (m : List Host.Cell) : Bool := risingFrom 0 m && m.all fun c => c.2 != memDefault c.1

/-- One byte. -/
def memByte (m : List Host.Cell) (a : Nat) : Byte := (mapFind m a).getD (memDefault a)
/-- One byte written. -/
def memPut (m : List Host.Cell) (a : Nat) (b : Byte) : List Host.Cell := mapSet m a b (memDefault a)

/-- Byte at an address. -/
def State.byteAt (s : State) (a : Nat) : Byte := memByte s.mem a
/-- Word at an address, least significant byte first. -/
def State.wordAt (s : State) (a : Nat) : Word :=
  bytesWord [s.byteAt a, s.byteAt (a + 1), s.byteAt (a + 2), s.byteAt (a + 3)]
/-- Byte written. -/
def State.putByte (s : State) (a : Nat) (b : Byte) : State := { s with mem := memPut s.mem a b }
/-- Bytes written from an address on. -/
def State.putBytes (s : State) (a : Nat) : List Byte → State
  | [] => s
  | b :: bs => (s.putByte a b).putBytes (a + 1) bs
/-- Word written; the write gives it valid check bits. -/
def State.putWord (s : State) (a : Nat) (w : Word) : State :=
  { s.putBytes a (wordBytes w) with eccBad := s.eccBad.filter (· ≠ a) }
/-- Consecutive words written. -/
def State.putWords (s : State) (a : Nat) : List Word → State
  | [] => s
  | w :: ws => (s.putWord a w).putWords (a + 4) ws
/-- Consecutive words. -/
def State.wordsAt (s : State) (a n : Nat) : List Word := (List.range n).map fun i => s.wordAt (a + 4 * i)

/-- Byte address of signal-table word i (Table 15-3 and R324 name it by index). -/
def sigAddr (i : Nat) : Nat := 0x17C000 + 4 * i
/-- Byte address of code word i of lane n. -/
def codeAddr (n i : Nat) : Nat := 0x180000 + 0x8000 * n + 4 * i
/-- Byte address of data word i of lane n. -/
def dataAddr (n i : Nat) : Nat := 0x184000 + 0x8000 * n + 4 * i

/-! The impression-log queue and refusals. -/

/-- Classes of Table 18-5. -/
abbrev clsInfo : Nat := 0
abbrev clsWarn : Nat := 1
abbrev clsAxis : Nat := 2
abbrev clsDevice : Nat := 3
abbrev clsSafety : Nat := 4

/-- An entry arrives at the queue of 64 (R437): dropped and counted when it is full; KIND 8 goes ahead of every other. -/
def State.logAdd (s : State) (kind cls master code : Nat) (detail : Word) : State :=
  let e : LogEntry := { kind := kind, cls := cls, master := master, code := code, detail := detail, tick := s.now }
  if kind = 8 then s.onLog fun g => { g with queue := e :: g.queue }
  else if s.log.queue.length < 64 then s.onLog fun g => { g with queue := g.queue ++ [e] }
  else ((s.onLog fun g => { g with lostSince := g.lostSince + 1 }).inc16 pgNvlog NVLOG.LOST).event pgNvlog 2

/-- A master as the log and OWNER fields code it. -/
def masterCode (m : Master) : Nat :=
  match m with
  | .host => 1
  | .manager => 2

/-- A command or write refused (R67): counted, flagged, marked for the master's next STATUS (R411) and logged. -/
def State.refuse (s : State) (m : Master) (code cmd addr : Nat) : State :=
  let s := ((s.inc16 pgSys SYS.REFUSED_COUNT).event pgSys 8).onMstr m fun x => { x with prevRefused := true }
  s.logAdd 2 clsInfo (masterCode m) cmd (nw (code * 2 ^ 24 + addr % 2 ^ 24))

/-- Result codes (Table 2-14). -/
abbrev eNone : Nat := 0
abbrev eState : Nat := 1
abbrev eOwned : Nat := 2
abbrev eRange : Nat := 3
abbrev eConflict : Nat := 4
abbrev eDeadline : Nat := 5
abbrev eBudget : Nat := 6
abbrev eRetired : Nat := 7
abbrev eCrc : Nat := 8
abbrev eSafety : Nat := 9
abbrev eBusy : Nat := 10

/-! Deadlines. -/

/-- When a deadline falls due, if it runs. -/
def State.due (s : State) (t : Timer) : Option Nat := (s.timers.find? fun x => x.1 = t).map (·.2)
/-- A deadline stopped. -/
def State.stopT (s : State) (t : Timer) : State := { s with timers := s.timers.filter fun x => x.1 ≠ t }
/-- A deadline started. -/
def State.startT (s : State) (t : Timer) (at_ : Nat) : State :=
  let s' := s.stopT t
  { s' with timers := (t, at_) :: s'.timers }
/-- The tick advanced to an instant, never back. -/
def State.reach (s : State) (t : Nat) : State := s.onTime fun x => { x with tick := max x.tick t }
/-- A deadline expires: the tick reaches it and it no longer runs; a deadline that does not run expires without effect. -/
def State.expire (s : State) (t : Timer) (f : State → State) : State :=
  match s.due t with
  | none => s
  | some d => f ((s.reach d).stopT t)

/-- The fabric is up: every page answers (R449). -/
def State.up (s : State) : Bool := s.power.phase = .up
/-- The core domain is out of reset with PLINK and FLINK started: step 4 of Table 19-1 is done. -/
def State.linked (s : State) : Bool :=
  match s.power.phase with
  | .up => true
  | .step n => decide (5 ≤ n)
  | _ => false

end Sys2Proof.Machine
end

