-- ==== Sys2Proof/Machine/Units.lean ====
section
/-!
DEFINITION. What a configuration says: fields of the staged registers as functions of a configuration reader, which is the
configuration in force or the candidate (live registers read as they stand), and what follows from them without the machine's state (carriers, commit lead,
compute window, lane budget).
-/
namespace Sys2Proof.Machine

/-- A configuration: the staged register at a page and offset. -/
abbrev Cfg := Nat → Nat → Word

/-- The configuration in force, with the live registers. -/
def State.force (s : State) : Cfg := fun p o => if o < 0x100 then s.lv p o else s.cf p o
/-- The candidate of the open stage (R57), with the live registers. -/
def State.cand (s : State) : Cfg := fun p o =>
  if o < 0x100 then s.lv p o else if s.stage.dirty.contains p then s.cd p o else s.cf p o

/-! Timebase and lanes. -/

/-- FRAME_LEN (R16). -/
def frameLen (c : Cfg) : Nat := (c pgTime TIME.FRAME_LEN).toNat
/-- FRAME_ALIGN.MODE = NET (R18). -/
def netMode (c : Cfg) : Bool := bt (c pgTime TIME.FRAME_ALIGN) 0
/-- Shortest frame the mode allows (R18). -/
def shortFrame (c : Cfg) : Nat := frameLen c - (netMode c).toNat

/-! Legs (Tables 9-6, 9-7, 10-6). -/

/-- LEG_CTRL of leg l. -/
def legCtrl (c : Cfg) (l : Nat) : Word := c (pgPwm (l / 8)) (PWM.LEG_CTRL (l % 8))
/-- MODE: 0 OFF, 1 PWM, 2 LOW, 3 HIGH, 4 AXIS. -/
def legMode (c : Cfg) (l : Nat) : Nat := fld (legCtrl c l) 2 0
/-- ALIGN. -/
def legAlign (c : Cfg) (l : Nat) : Nat := fld (legCtrl c l) 5 4
/-- CARRIER: 0 FIXED, 1 COT, 2 COFF. -/
def legCarrier (c : Cfg) (l : Nat) : Nat := fld (legCtrl c l) 9 8
/-- DUTY_MODE = FRACTION. -/
def legFraction (c : Cfg) (l : Nat) : Bool := bt (legCtrl c l) 12
/-- HATCH. -/
def legHatch (c : Cfg) (l : Nat) : Bool := bt (legCtrl c l) 13
/-- FDIV. -/
def legFdiv (c : Cfg) (l : Nat) : Nat := fld (legCtrl c l) 17 16
/-- FUNC: 0 GENERAL, 1 CONVERTER, 2 CHOPPER, 3 BRAKE. -/
def legFunc (c : Cfg) (l : Nat) : Nat := fld (legCtrl c l) 22 20
/-- High side of charge-pump class (R240, R258). -/
def legPump (c : Cfg) (l : Nat) : Bool :=
  if l < 12 then bt (c (pgGd (l / 6)) (GD.GD_CFG (l % 6))) 8 else bt (legCtrl c l) 24
/-- DEADTIME. -/
def legDead (c : Cfg) (l : Nat) : Word := c (pgPwm (l / 8)) (PWM.DEADTIME (l % 8))
/-- DT_MAX. -/
def legDtMax (c : Cfg) (l : Nat) : Nat := fld (legDead c l) 7 0
/-- REF_N. -/
def legRefN (c : Cfg) (l : Nat) : Nat := fld (c (pgPwm (l / 8)) (PWM.REFRESH (l % 8))) 20 16
/-- REF_T. -/
def legRefT (c : Cfg) (l : Nat) : Nat := fld (c (pgPwm (l / 8)) (PWM.REFRESH (l % 8))) 9 0
/-- PHASE. -/
def legPhase (c : Cfg) (l : Nat) : Nat := fld (c (pgPwm (l / 8)) (PWM.PHASE (l % 8))) 16 0
/-- TON_TOFF. -/
def legTon (c : Cfg) (l : Nat) : Nat := fld (c (pgPwm (l / 8)) (PWM.TON_TOFF (l % 8))) 16 0
/-- OUT_CFG. -/
def legOut (c : Cfg) (l : Nat) : Word := c (pgPwm (l / 8)) (PWM.OUT_CFG (l % 8))

/-- Carrier periods per frame of a frame-locked leg (R229). -/
def legDiv (c : Cfg) (l : Nat) : Nat := if legFdiv c l = 0 then 1 else 2 ^ (legFdiv c l - 1)

/-- Live PERIOD of leg l. -/
def legPeriodReg (c : Cfg) (l : Nat) : Nat := fld (c (pgPwm (l / 8)) (PWM.PERIOD (l % 8))) 16 0

/-- Period in ticks that R26, R27, R131 and R257 take for leg l: frame-locked, or FRAME_LEN in LOW and HIGH mode; the PERIOD
register of a free leg (R229). -/
def legP (c : Cfg) (l : Nat) : Nat :=
  if legMode c l = 2 ∨ legMode c l = 3 then frameLen c
  else if legFdiv c l = 0 then legPeriodReg c l
  else frameLen c / legDiv c l

/-- Leg l counts with bootstrap refresh (R240, R242). -/
def legRefreshed (c : Cfg) (l : Nat) : Bool :=
  !legPump c l && decide (1 ≤ legRefN c l ∧ legRefN c l ≤ 16) && decide (legMode c l ≠ 2)

/-- E1 of R26: commands in one carrier period over the enabled legs 0 to 11. -/
def edgeCount (c : Cfg) : Nat :=
  ((List.range 12).map fun l => if legMode c l = 0 then 0 else if legRefreshed c l then 4 else 2).sum

/-- Commit lead L_c (R26). -/
def commitLead (c : Cfg) : Nat := if edgeCount c = 0 then 64 else 25 * edgeCount c + 128

/-- Link sum of R27. -/
def linkSum (c : Cfg) : Rat :=
  ((List.range 12).map fun l =>
    if legMode c l = 0 ∨ legP c l = 0 then (0 : Rat)
    else if legRefreshed c l then 50 * (1 + 1 / (legRefN c l : Rat)) / legP c l
    else 50 / (legP c l : Rat)).sum

/-- Compute window W of the shortest frame (R19, R21). -/
def window (c : Cfg) : Nat := shortFrame c - 32 - commitLead c

/-- SCHED.STATE_EN: bit 0 reads 1. -/
def stateEn (c : Cfg) (st : Nat) : Bool := st == 0 || bt (c pgSched SCHED.STATE_EN) st

/-- Guaranteed rate in M instructions/s at an operating point (Table 1-2). -/
def rateAt (point : Nat) : Nat := if point = 0 then 240 else if point = 1 then 170 else 110

/-- Slowest operating point an enabled power state reaches (R21); state s runs at point s. -/
def slowPoint (c : Cfg) : Nat := if stateEn c 2 then 2 else if stateEn c 1 then 1 else 0

/-- Lane budget (R21): floor(0.85 S_g W 4 ns). -/
def laneBudget (c : Cfg) : Nat := 85 * rateAt (slowPoint c) * window c * 4 / 100000

/-! Drive axes (Tables 5-6, 5-7). -/

/-- AXIS.CFG. -/
def axCfg (c : Cfg) (a : Nat) : Word := c (pgAxis a) AXIS.CFG
/-- COMM: 0 OFF, 1 FOC, 2 SIX_STEP; a motion-only axis has none. -/
def axComm (c : Cfg) (a : Nat) : Nat := if a < 8 then fld (axCfg c a) 1 0 else 0
/-- ANGLE: 0 FB, 1 FB_OBS, 2 OBS. -/
def axAngle (c : Cfg) (a : Nat) : Nat := if a < 8 then fld (axCfg c a) 5 4 else 0
/-- SENSE = sigma-delta. -/
def axSd (c : Cfg) (a : Nat) : Bool := bt (axCfg c a) 6
/-- LOAD_CLASS = gravity load: a hoist-class axis (R142). -/
def axHoist (c : Cfg) (a : Nat) : Bool := decide (a < 8) && bt (axCfg c a) 7
/-- LANE of the commutation task. -/
def axLane (c : Cfg) (a : Nat) : Nat := fld (axCfg c a) 10 8
/-- ADV_N. -/
def axAdvN (c : Cfg) (a : Nat) : Nat := fld (axCfg c a) 15 12
/-- Legs U, V, W. -/
def axLegs (c : Cfg) (a : Nat) : List Nat :=
  let w := c (pgAxis a) AXIS.LEGS
  [fld w 4 0, fld w 12 8, fld w 20 16]
/-- Legs the axis uses: none while COMM = OFF (R116). -/
def axUsedLegs (c : Cfg) (a : Nat) : List Nat := if axComm c a = 0 then [] else axLegs c a
/-- The drive axis whose LEGS name leg l. -/
def legAxis (c : Cfg) (l : Nat) : Option Nat := (List.range 8).find? fun a => (axUsedLegs c a).contains l
/-- ADC channels (READMIT numbering) of the current samples: shunt n, or sigma-delta 8 + n. -/
def axSense (c : Cfg) (a : Nat) : List Nat :=
  let w := c (pgAxis a) AXIS.SENSE_SEL
  if axComm c a = 0 then [] else if axSd c a then [8 + fld w 10 8, 8 + fld w 18 16] else [fld w 2 0]
/-- SOURCES.UDC_SRC. -/
def axUdcSrc (c : Cfg) (a : Nat) : Nat := fld (c (pgAxis a) AXIS.SOURCES) 23 16
/-- MOT.CFG. -/
def motCfg (c : Cfg) (a : Nat) : Word := c (pgMot a) MOT.CFG
/-- SOURCE: 0 OFF, 1 PROFILE, 2 GEAR, 3 GROUP. -/
def motSource (c : Cfg) (a : Nat) : Nat := fld (motCfg c a) 2 0
/-- STEP_EN, on axes 8 to 15 (R181). -/
def motStepEn (c : Cfg) (a : Nat) : Bool := decide (8 ≤ a) && bt (motCfg c a) 4
/-- The feedback interface of an axis: SOURCES.FB, or CFG.FB (R175). -/
def axFb (c : Cfg) (a : Nat) : Option Nat :=
  if a < 8 then some (fld (c (pgAxis a) AXIS.SOURCES) 2 0)
  else
    let n := fld (motCfg c a) 27 24
    if n < 8 then some n else none
/-- CPR and pole pairs. -/
def axCpr (c : Cfg) (a : Nat) : Nat := (c (pgAxis a) AXIS.CPR).toNat
/-- Pole pairs. -/
def axPp (c : Cfg) (a : Nat) : Nat := (c (pgAxis a) AXIS.POLE_PAIRS).toNat

/-! Safety settings (Tables 11-8 to 11-10). -/

/-- Offset of a register of axis block a. -/
def axBlk (a o : Nat) : Nat := 0x200 + 0x40 * a + (o - 0x200)
/-- Register of axis block a, named by its offset in block 0. -/
def safeAx (c : Cfg) (a o : Nat) : Word := c pgSafe (axBlk a o)
/-- AX_CFG of axis a. -/
def axSafe (c : Cfg) (a : Nat) : Word := safeAx c a (SAFE.AX_CFG 0)
/-- BRK_KIND: 0 none, 1 leg 24 + BRK_IDX, 2 field output BRK_IDX. -/
def brkKind (c : Cfg) (a : Nat) : Nat := fld (axSafe c a) 21 20
/-- BRK_IDX. -/
def brkIdx (c : Cfg) (a : Nat) : Nat := fld (axSafe c a) 18 16
/-- The axis has a brake. -/
def hasBrake (c : Cfg) (a : Nat) : Bool := brkKind c a == 1 || brkKind c a == 2
/-- The axis whose brake is leg l. -/
def legBrakeAxis (c : Cfg) (l : Nat) : Option Nat :=
  (List.range 16).find? fun a => brkKind c a == 1 && 24 + brkIdx c a == l
/-- The axis whose brake is field output n. -/
def doBrakeAxis (c : Cfg) (n : Nat) : Option Nat :=
  (List.range 16).find? fun a => brkKind c a == 2 && brkIdx c a == n
/-- SIN_CFG of slot i. -/
def sinCfg (c : Cfg) (i : Nat) : Word := c pgSafe (SAFE.SIN_CFG i)
/-- FUNC of slot i. -/
def sinFunc (c : Cfg) (i : Nat) : Nat := fld (sinCfg c i) 14 12
/-- Axis a is in the mask of slot i. -/
def sinHas (c : Cfg) (i a : Nat) : Bool := bt (sinCfg c i) (16 + a)

/-! Loop contexts (Tables 4-6 to 4-8). -/

/-- A register of context x, named by its offset in block 0. -/
def ctxReg (c : Cfg) (x o : Nat) : Word := c (pgLoop (x / 16)) (o + 0x70 * (x % 16))
/-- CFG. -/
def ctxCfg (c : Cfg) (x : Nat) : Word := ctxReg c x (LOOP.CFG 0)
/-- EN. -/
def ctxEn (c : Cfg) (x : Nat) : Bool := bt (ctxCfg c x) 0
/-- STRUCT. -/
def ctxStruct (c : Cfg) (x : Nat) : Nat := fld (ctxCfg c x) 3 1
/-- A filter: BIQUAD or LOWPASS1. -/
def ctxFilter (c : Cfg) (x : Nat) : Bool := decide (4 ≤ ctxStruct c x)
/-- LANE. -/
def ctxLane (c : Cfg) (x : Nat) : Nat := fld (ctxCfg c x) 6 4
/-- DIV_LOG2. -/
def ctxDivL (c : Cfg) (x : Nat) : Nat := fld (ctxCfg c x) 10 8
/-- PHASE. -/
def ctxPhase (c : Cfg) (x : Nat) : Nat := fld (ctxCfg c x) 21 16
/-- BIND.AXIS, none for 0x1F. -/
def ctxAxis (c : Cfg) (x : Nat) : Option Nat :=
  let n := fld (ctxReg c x (LOOP.BIND 0)) 4 0
  if n < 16 then some n else none
/-- Selection set of a member (R114). -/
def ctxSet (c : Cfg) (x : Nat) : Option Nat :=
  let w := ctxReg c x (LOOP.BIND 0)
  if ctxEn c x && bt w 12 then some (fld w 11 8) else none
/-- SP_SRC. -/
def ctxSp (c : Cfg) (x : Nat) : Nat := fld (ctxReg c x (LOOP.SRC 0)) 31 16
/-- FB_SRC. -/
def ctxFbS (c : Cfg) (x : Nat) : Nat := fld (ctxReg c x (LOOP.SRC 0)) 15 0
/-- FF_SRC. -/
def ctxFf (c : Cfg) (x : Nat) : Nat := fld (ctxReg c x (LOOP.ROUTE 0)) 15 0
/-- OUT_DST. -/
def ctxDst (c : Cfg) (x : Nat) : Nat := fld (ctxReg c x (LOOP.ROUTE 0)) 31 16
/-- Kind of a selector (Tables 4-2, 4-3). -/
def selKind (sel : Nat) : Nat := sel / 4096
/-- Index of a selector. -/
def selIdx (sel : Nat) : Nat := sel % 4096
/-- Selector of kind POSITION: AXIS quantities 0 and 5. -/
def selPos (sel : Nat) : Bool := selKind sel == 3 && (selIdx sel % 16 == 0 || selIdx sel % 16 == 5)
/-- Selector of kind RAW: AXIS quantities 1 and 6, and HK. -/
def selRaw (sel : Nat) : Bool := (selKind sel == 3 && (selIdx sel % 16 == 1 || selIdx sel % 16 == 6)) || selKind sel == 5
/-- Contexts that a context reads. -/
def ctxReads (c : Cfg) (x : Nat) : List Nat :=
  ([ctxSp c x, ctxFbS c x, ctxFf c x].filter fun q => selKind q == 1).map selIdx
/-- Essential (R106). -/
def ctxEssential (c : Cfg) (x : Nat) : Bool :=
  match ctxAxis c x with
  | some a => bt (c pgSched SCHED.ESSENTIAL_AXES) a
  | none => bt (ctxCfg c x) 24

/-- Bound of a context (R105, Table 4-4). -/
def ctxBound (c : Cfg) (x : Nat) : Nat :=
  let base := [32, 44, 60, 72, 40, 26].getD (ctxStruct c x) 0
  let pos := ([ctxSp c x, ctxFbS c x, ctxFf c x].filter selPos).length * 10
  base + pos
    + (if ctxFf c x = 0 then 0 else 12)
    + (if bt (ctxCfg c x) 27 then 8 else 0)
    + (if ctxReg c x (LOOP.SS_STEP 0) = 0 then 0 else 8)
    + (if ctxReg c x (LOOP.SLEW 0) = 0 then 0 else 8)
    + (if ctxReg c x (LOOP.DEADBAND 0) = 0 then 0 else 6)
    + (if (ctxSet c x).isSome then 10 else 0)

/-- Bound of the commutation task of axis a (R144, Table 5-4). -/
def axBound (c : Cfg) (a : Nat) : Nat :=
  let foc := axComm c a == 1
  let n := match axLegs c a with
    | l :: _ => if legFdiv c l = 0 then ceilDiv (frameLen c) (legP c l) else legDiv c l
    | [] => 0
  (if foc then 760 else 320) + (if axSd c a then 60 else 120) + n * (if foc then 165 else 40)
    + (if axAngle c a = 0 then 0 else 300) + (if bt (axCfg c a) 11 then 30 else 0)
    + (if axAdvN c a = 0 then 0 else 40)

/-- Dependency depth of a context (R102), followed for at most n steps. -/
def ctxDepth (c : Cfg) : Nat → Nat → Nat
  | 0, _ => 0
  | n + 1, x => (ctxReads c x).foldl (fun d y => max d (ctxDepth c n y + 1)) 0

/-! Code tasks (Tables 3-6, 3-8). -/

/-- TASK_CFG of slot s on lane n. -/
def taskCfg (c : Cfg) (n s : Nat) : Word := c (pgLane n) (LANE.TASK_CFG s)
/-- EN. -/
def taskEn (c : Cfg) (n s : Nat) : Bool := bt (taskCfg c n s) 0
/-- CLASS: 0 frame-synchronous, 1 urgent, 2 background. -/
def taskCls (c : Cfg) (n s : Nat) : Nat := fld (taskCfg c n s) 2 1
/-- ESSENTIAL. -/
def taskEss (c : Cfg) (n s : Nat) : Bool := bt (taskCfg c n s) 3
/-- DIV_LOG2. -/
def taskDivL (c : Cfg) (n s : Nat) : Nat := fld (taskCfg c n s) 10 8
/-- PHASE. -/
def taskPhase (c : Cfg) (n s : Nat) : Nat := fld (taskCfg c n s) 21 16
/-- Entry instruction. -/
def taskEntry (c : Cfg) (n s : Nat) : Nat := fld (c (pgLane n) (LANE.TASK_ENTRY s)) 11 0
/-- TASK_BOUND. -/
def taskBound (c : Cfg) (n s : Nat) : Nat := fld (c (pgLane n) (LANE.TASK_BOUND s)) 19 0
/-- TASK_ARRIVAL. -/
def taskArrival (c : Cfg) (n s : Nat) : Nat := fld (c (pgLane n) (LANE.TASK_ARRIVAL s)) 23 0
/-- CODE_BASE and CODE_WORDS. -/
def codeRange (c : Cfg) (n : Nat) : Nat × Nat :=
  (fld (c (pgLane n) LANE.CODE_RANGE) 11 0, fld (c (pgLane n) LANE.CODE_RANGE) 28 16)
/-- DATA_BASE and DATA_WORDS. -/
def dataRange (c : Cfg) (n : Nat) : Nat × Nat :=
  (fld (c (pgLane n) LANE.DATA_RANGE) 10 0, fld (c (pgLane n) LANE.DATA_RANGE) 27 16)

/-! Fault handling settings. -/

/-- RETRY_WIN in ticks. -/
def retryWin (c : Cfg) : Nat := msT (fld (c pgSafe SAFE.RETRY) 15 0)
/-- COUNT_WIN in ticks. -/
def countWin (c : Cfg) : Nat := secT (fld (c pgSafe SAFE.RETRY) 23 16)
/-- K. -/
def onsetK (c : Cfg) : Nat := fld (c pgSafe SAFE.RETRY) 27 24

/-- States in which an axis is in motion or may be: RUN, DEGRADED, STOPPING. -/
def AxState.moving (x : AxState) : Bool := x = .run || x = .degraded || x = .stopping

/-- Code of an axis state (Table 5-8). -/
def AxState.code (x : AxState) : Nat :=
  match x with
  | .disabled => 0
  | .precheck => 1
  | .ready => 2
  | .run => 3
  | .degraded => 4
  | .stopping => 5
  | .fault => 6
  | .retired => 7

/-- Any axis in motion. -/
def State.anyMoving (s : State) : Bool := s.axes.any fun x => x.state.moving

/-- A retirable channel as a key: class and index of Table 2-8. -/
def chanKey (cls idx : Nat) : Nat := cls * 256 + idx
/-- Fault history of a channel. -/
def State.chan (s : State) (cls idx : Nat) : ChanSt := (mapFind s.chans (chanKey cls idx)).getD {}
/-- A channel is retired (R285). -/
def State.chRet (s : State) (cls idx : Nat) : Bool := (s.chan cls idx).retired
/-- Fault history changed. -/
def State.onChan (s : State) (cls idx : Nat) (f : ChanSt → ChanSt) : State :=
  { s with chans := mapSet s.chans (chanKey cls idx) (f (s.chan cls idx)) {} }

end Sys2Proof.Machine
end

