-- ==== Sys2Proof/Machine/React.lean ====
section
/-!
DEFINITION. Fault sources, demands and reactions (chapter 11): how a source is raised and ends, how reactions that meet on one
axis rank, what each does to the axis, its legs and its brake, and how the onsets of a retirable channel count.
-/
namespace Sys2Proof.Machine

/-! Source IDs of Table 11-3 and the tables that continue it. -/
abbrev srcSto : Nat := 0
abbrev srcSafeStop : Nat := 1
abbrev srcSinFault : Nat := 2
abbrev srcStoPath : Nat := 3
abbrev srcXcheck : Nat := 4
abbrev srcSls : Nat := 5
abbrev srcSdi : Nat := 6
abbrev srcSos : Nat := 7
abbrev srcSs1 : Nat := 8
abbrev srcBrakeFb : Nat := 9
abbrev srcDegExp : Nat := 10
abbrev srcStoTest : Nat := 11
abbrev srcTimeRef : Nat := 12
abbrev srcPlink : Nat := 13
abbrev srcVgdUv : Nat := 14
abbrev srcVinOv : Nat := 15
abbrev srcOverCur : Nat := 16
abbrev srcCurInv : Nat := 17
abbrev srcOffset : Nat := 18
abbrev srcObsLos : Nat := 19
abbrev srcRestart : Nat := 20
abbrev srcFbLost : Nat := 21
abbrev srcLostStep : Nat := 22
abbrev srcVds : Nat := 23
abbrev srcXcmd : Nat := 24
abbrev srcCpuv : Nat := 25
abbrev srcChop : Nat := 26
abbrev srcPrecheck : Nat := 27
abbrev srcSlack : Nat := 28
abbrev srcSnatch : Nat := 29
abbrev srcRopeRange : Nat := 30
abbrev srcShareLeader : Nat := 31
abbrev srcShareCap : Nat := 32
abbrev srcShareMis : Nat := 33
abbrev srcRescue : Nat := 34
abbrev srcOverrun : Nat := 35
abbrev srcTaskLost : Nat := 36
abbrev srcReconfig : Nat := 37
abbrev srcVfSag : Nat := 40
abbrev srcVfCut : Nat := 41
abbrev srcFlink : Nat := 42
abbrev srcFio : Nat := 43
abbrev srcBusoff : Nat := 44
abbrev srcNtInvalid : Nat := 45
abbrev srcNtJump : Nat := 46
abbrev srcNodeConf : Nat := 47
abbrev srcDmaBus : Nat := 48
abbrev srcDmaDesc : Nat := 49
abbrev srcTraceMask : Nat := 50
abbrev srcTempWarn : Nat := 51
abbrev srcTempThr : Nat := 52
abbrev srcTjOver : Nat := 53
abbrev srcThermal : Nat := 54
abbrev srcSupply : Nat := 55
abbrev srcEcc : Nat := 56
abbrev srcHkSensor : Nat := 57
abbrev srcLogFail : Nat := 58

/-- Class of a source: 0 INFO, 1 WARN, 2 AXIS, 3 DEVICE, 4 SAFETY. -/
def srcClass (n : Nat) : Nat :=
  if n ≤ 10 then clsSafety
  else if n = 11 then clsWarn
  else if n ≤ 15 then clsDevice
  else if n = 18 ∨ n = 24 ∨ n = 25 ∨ n = 26 ∨ n = 29 ∨ n = 30 then clsWarn
  else if n = 19 then clsInfo
  else if n ≤ 37 then clsAxis
  else if n = 42 ∨ n = 54 ∨ n = 56 then clsDevice
  else clsWarn

/-- REACT code of a source (R283): 0 where it has none. LOST_STEP is fixed at 3 on axes 8 to 15. -/
def reactCode (c : Cfg) (src a : Nat) : Nat :=
  if src = srcLostStep ∧ 8 ≤ a ∧ a < 16 then 3
  else fld (c pgSafe (SAFE.REACT (src / 8))) (4 * (src % 8) + 3) (4 * (src % 8))

/-- A reaction code as a reaction; LOG and codes without a reaction give none. -/
def codeReact (n : Nat) : Option React :=
  if n = 1 then some .ss1 else if n = 2 then some .ss1Sbc else if n = 3 then some .sto else none

/-- Rank of R281. -/
def React.rank (r : React) : Nat :=
  match r with
  | .sto => 6
  | .asc => 5
  | .ss1Sbc => 4
  | .ss1 => 3
  | .degraded => 2
  | .regenClamp => 1

/-- Code of AXSTAT.REACT (Table 11-11). -/
def React.code (r : React) : Nat :=
  match r with
  | .ss1 => 1
  | .ss1Sbc => 2
  | .sto => 3
  | .degraded => 4
  | .asc => 5
  | .regenClamp => 6

/-- Axes of a mask in the upper or lower half of a word. -/
def maskAxes (w : Word) (lo : Nat) : List Nat := (List.range 16).filter fun a => bt w (lo + a)

/-- Axes that use a leg among 0 to 11. -/
def internalAxes (c : Cfg) : List Nat := (List.range 8).filter fun a => (axUsedLegs c a).any (· < 12)

/-- Axes on which a source without an axis of its own acts (Table 11-3 and the tables that continue it; STO_TEST_DUE acts on
STO_AXES: log entry 20). -/
def srcScope (c : Cfg) (src : Nat) : List Nat :=
  if src = srcSto ∨ src = srcStoTest then maskAxes (c pgSafe SAFE.STO_CFG) 16
  else if src = srcStoPath ∨ src = srcTimeRef ∨ src = srcThermal then List.range 16
  else if src = srcPlink ∨ src = srcVgdUv ∨ src = srcVinOv then internalAxes c
  else if src = srcCpuv then
    (List.range 8).filter fun a => (axUsedLegs c a).any fun l => l < 12 && legPump c l
  else if 40 ≤ src ∧ src ≤ 43 then maskAxes (c pgFio FIO.FAULT_CFG) 0
  else if 44 ≤ src ∧ src ≤ 47 then maskAxes (c pgBilva BILVA.FAULT_CFG) 0
  else if 48 ≤ src ∧ src ≤ 49 then maskAxes (c pgDma DMA.FAULT_CFG) 0
  else if src = 50 then maskAxes (c pgTrace TRACE.FAULT_CFG) 0
  else if 51 ≤ src ∧ src ≤ 58 then maskAxes (c pgHk HK.FAULT_CFG) 0
  else []

/-! Quantities of an axis. -/

/-- Speed of a feedback interface as an axis takes it: axes 8 to 15 scale it with the position (R175; log entry 21). -/
def State.fbSpeedOf (s : State) (a n : Nat) : Int :=
  let v := (s.fb n).sSpeed
  if a < 8 then v
  else
    let den := (s.cf (pgMot a) MOT.FB_DEN).toNat
    roundDiv (v * (s.cf (pgMot a) MOT.FB_NUM).toInt) den

/-- SPEED of an axis as the safety functions take it (R278, R291): the feedback, its substitute in DEGRADED, the observer of a
sensorless axis; SPEED_SP on axes 8 to 15 without feedback. -/
def State.axSpeed (s : State) (a : Nat) : Int :=
  if a < 8 then
    if (s.ax a).sub || axAngle s.force a == 2 then (s.dr a).obsSpeed
    else match axFb s.force a with
      | some n => s.fbSpeedOf a n
      | none => 0
  else match axFb s.force a with
    | some n => s.fbSpeedOf a n
    | none => (s.mt a).v0

/-- POS_ACT of an axis (R175, R300). -/
def State.axPos (s : State) (a : Nat) : Int :=
  if a < 8 then
    if (s.ax a).sub then (s.ax a).subPos
    else match axFb s.force a with
      | some n => (s.fb n).sPos
      | none => 0
  else match axFb s.force a with
    | some n =>
      roundDiv ((s.fb n).sPos * (s.cf (pgMot a) MOT.FB_NUM).toInt) (s.cf (pgMot a) MOT.FB_DEN).toNat
    | none => if motStepEn s.force a then (s.mt a).stepPos * 65536 else (s.mt a).p0

/-! Brakes and gates. -/

/-- A brake-feedback slot watches axis a. -/
def brakeSlots (c : Cfg) (a : Nat) : List Nat := (List.range 8).filter fun i => sinFunc c i == 7 && sinHas c i a

/-- BRK_FB_T in ticks. -/
def brkFbT (c : Cfg) (a : Nat) : Nat := msT (fld (safeAx c a (SAFE.BRK_SEL 0)) 31 16)
/-- BRK_REL_T in ticks. -/
def brkRelT (c : Cfg) (a : Nat) : Nat := msT (fld (safeAx c a (SAFE.BRK_CFG 0)) 31 16)
/-- BRK_SET_T in ticks. -/
def brkSetT (c : Cfg) (a : Nat) : Nat := msT (fld (safeAx c a (SAFE.BRK_CFG 0)) 15 0)

/-- The brake inputs of an axis are read BRK_FB_T after a change (R298). -/
def State.watchBrake (s : State) (a : Nat) : State :=
  forL (brakeSlots s.force a) (fun i s => s.startT (.brakeFb i a) (s.now + brkFbT s.force a)) s

/-- SBC: the brake is applied at once (R279). -/
def State.sbcIssue (s : State) (a : Nat) : State :=
  let s := s.stopT (.brakeRelease a)
  if hasBrake s.force a && !(s.ax a).sbc then
    (s.onAx a fun x => { x with sbc := true }).watchBrake a
  else s.onAx a fun x => { x with sbc := true }

/-- The brake is released (R279). -/
def State.brakeOff (s : State) (a : Nat) : State :=
  if hasBrake s.force a && (s.ax a).sbc then
    (s.onAx a fun x => { x with sbc := false }).watchBrake a
  else s.onAx a fun x => { x with sbc := false }

/-- Both switches of a leg off at once. -/
def State.legOff (s : State) (l : Nat) : State :=
  s.onLg l fun x => { x with hsOn := false, lsOn := false, incoming := none, gateOff := true }

/-- Every leg of the axis off; its step output stopped (Table 11-2). -/
def State.gatesOff (s : State) (a : Nat) : State :=
  let s := forL (axUsedLegs s.force a) (fun l s => s.legOff l) s
  s.onMt a fun m => { m with pulses := [], carried := 0 }

/-- LAST_SRC of an axis. -/
def State.setLastSrc (s : State) (a src : Nat) : State :=
  s.setLv pgSafe (SAFE.LAST_SRC a) (nw (srcClass src * 256 + src))

/-- The state in which STO leaves an axis: FAULT if a fault reaction took part (R282), RETIRED after RECONFIG_FAIL (R278),
else DISABLED. -/
def State.settleSto (s : State) (a : Nat) : State :=
  s.onAx a fun x =>
    { x with
      state := if x.state = .retired ∨ x.toRetired then .retired else if x.faulty then .fault else .disabled
      ss1 := none, stopToReady := false, settling := false, runPending := false, capturing := false, sub := false
      toRetired := false }

/-- STO on an axis at once: gates removed, brake applied; the state follows at the next boundary (R280, R286). -/
def State.stoNow (s : State) (a : Nat) : State :=
  let s := ((s.gatesOff a).sbcIssue a).onAx a fun x => { x with sto := true, asc := false, ss1 := none }
  forL [Timer.ss1 a, .brakeSet a, .degraded a, .restart a, .catchTime a] (fun t s => s.stopT t) s

/-- SS1 has ended: STO under Table 11-2; for SS1, SBC first and STO BRK_SET_T later (R292). -/
def State.ss1End (s : State) (a : Nat) : State :=
  let s := s.stopT (.ss1 a)
  let s := s.onAx a fun x => { x with ss1 := none }
  if (s.ax a).react = some .ss1 ∧ brkSetT s.force a ≠ 0 then
    (s.sbcIssue a).startT (.brakeSet a) (s.now + brkSetT s.force a)
  else ((s.stoNow a).settleSto a).onAx a fun x => { x with react := some .sto }

/-- SS1 starts (R292), with the settings in force kept for its length (R281); an axis that switches nothing ends it at once
(log entry 22). -/
def State.ss1Start (s : State) (a tmax : Nat) : State :=
  let c := s.force
  if (s.ax a).state.moving then
    let cfg := safeAx c a (SAFE.SS1_CFG 0)
    let r : Ss1 :=
      { start := s.now, v0 := (s.axSpeed a).natAbs, env := fld cfg 7 0, dec := (c (pgMot a) MOT.QSTOP_DEC).toNat,
        tol := (safeAx c a (SAFE.SS1_TOL 0)).toNat, limit := s.now + tmax }
    (s.onAx a fun x => { x with state := .stopping, ss1 := some r, stopToReady := false }).startT (.ss1 a) (s.now + tmax)
  else s.ss1End a

/-- SS1_TMAX in ticks. -/
def ss1Tmax (c : Cfg) (a : Nat) : Nat := msT (fld (safeAx c a (SAFE.SS1_CFG 0)) 31 16)

/-- A reaction enters into force on an axis (Table 11-2, R281, R300). -/
def State.enterReact (s : State) (a : Nat) (r : React) : State :=
  let running := (s.ax a).ss1.isSome
  let s := s.onAx a fun x => { x with react := some r }
  match r with
  | .sto => (s.stoNow a).settleSto a
  | .asc => s.onAx a fun x => { x with asc := true }
  | .ss1Sbc => if running then s.sbcIssue a else (s.sbcIssue a).ss1Start a (ss1Tmax s.force a)
  | .ss1 => if running then s else s.ss1Start a (ss1Tmax s.force a)
  | .degraded =>
    let s := s.onAx a fun x => { x with state := .degraded, degUsed := true, degOver := 0, sub := true, subPos := s.axPos a }
    (s.event pgSafe 0x80).startT (.degraded a)
      (s.now + msT (fld (safeAx s.force a (SAFE.DEG_CFG 0)) 15 0))
  | .regenClamp => s

/-- A reaction or demand acts on an axis (R281, R282): a stronger one replaces a weaker one, a weaker or equal one changes
nothing but that the axis then ends in FAULT if it is a fault's. An axis whose gates are off already enters RETIRED after
RECONFIG_FAIL (R278). -/
def State.applyReact (s : State) (a : Nat) (r : React) (src : Nat) (dem : Bool) : State :=
  if (s.ax a).state = .retired then s
  else
    let s := s.onAx a fun x => { x with faulty := x.faulty || !dem }
    let wins := match (s.ax a).react with
      | some r0 => decide (r0.rank < r.rank)
      | none => true
    if wins then
      if dem && (s.ax a).state = .disabled && r != .sto then s
      else (s.setLastSrc a src).enterReact a r
    else if (s.ax a).toRetired ∧ ((s.ax a).state = .disabled ∨ (s.ax a).state = .fault) then s.settleSto a
    else if (s.ax a).state = .disabled ∧ !dem then s.onAx a fun x => { x with state := .fault }
    else s

/-- A reaction or demand waits for the next boundary. -/
def State.pushReact (s : State) (a : Nat) (r : React) (src : Nat) (dem : Bool) : State :=
  s.onAx a fun x => { x with raised := x.raised ++ [(r, src, dem)] }

/-- The strongest of the reactions raised, the lowest source ID among equals (R281). -/
def strongest (l : List (React × Nat × Bool)) : Option (React × Nat × Bool) :=
  l.foldl (fun best x =>
    match best with
    | none => some x
    | some b =>
      if b.1.rank < x.1.rank ∨ (b.1.rank = x.1.rank ∧ x.2.1 < b.2.1) then some x else some b) none

/-- The reactions raised on an axis since the last boundary take effect (R281). -/
def State.settleReacts (s : State) (a : Nat) : State :=
  let l := (s.ax a).raised
  match strongest l with
  | none => s
  | some (r, src, dem) =>
    let s := s.onAx a fun x => { x with raised := [], faulty := x.faulty || l.any fun y => !y.2.2 }
    s.applyReact a r src dem

/-! Sources. -/

/-- A source is active on an axis (16 = none of its own). -/
def State.srcOn (s : State) (src a : Nat) : Bool := s.safety.srcs.contains (src, a)

/-- A source ends. -/
def State.clearSrc (s : State) (src a : Nat) : State :=
  s.onSafe fun x => { x with srcs := x.srcs.filter (· ≠ (src, a)) }

/-- A source that turns OTE off (R304): STO_PATH, SPEED_XCHECK, SIN_FAULT, BRAKE_FB and every DEVICE source. -/
def oteSrc (src : Nat) : Bool :=
  src == srcStoPath || src == srcXcheck || src == srcSinFault || src == srcBrakeFb || srcClass src == clsDevice

/-- A source whose onset is logged and flagged (R283), with no reaction. -/
def State.noteSrc (s : State) (src a master : Nat) : State :=
  let s := s.onSafe fun x => { x with srcs := x.srcs ++ [(src, a)], oteOff := x.oteOff || oteSrc src }
  (s.logAdd 1 (srcClass src) master src 0).event pgSafe 1

/-- A source is raised: its onset, and its reaction at the next boundary on the axes concerned (R280, R283). -/
def State.raise (s : State) (src a : Nat) : State :=
  if s.srcOn src a then s
  else
    let s := s.noteSrc src a 0
    let axes := if a < 16 then [a] else srcScope s.force src
    forL axes (fun b s =>
      match codeReact (reactCode s.force src b) with
      | none => s
      | some r => s.pushReact b r src false) s

/-- A source whose reaction acts at once where it is STO: TIME_REF_LOST, PLINK_LOST, VGD_UV, VIN_OV, VDS_TRIP, TASK_LOST,
STO_PATH (R15, R253, Table 10-3, R90, R289). -/
def State.raiseNow (s : State) (src a : Nat) : State :=
  if s.srcOn src a then s
  else
    let s := s.noteSrc src a 0
    let axes := if a < 16 then [a] else srcScope s.force src
    forL axes (fun b s =>
      match codeReact (reactCode s.force src b) with
      | none => s
      | some .sto => if (s.ax b).state = .retired then s else (s.stoNow b).pushReact b .sto src false
      | some r => s.pushReact b r src false) s

/-- A source that ends as soon as it has acted: its next occurrence is a new onset. -/
def State.raisePulse (s : State) (src a : Nat) : State := (s.raise src a).clearSrc src a

/-- A source active on an axis: of its own, or of the device with a reaction on it (Table 11-1, AXIS_CLEAR). -/
def State.anySrc (s : State) (a : Nat) : Bool :=
  s.safety.srcs.any fun x =>
    x.2 == a || (x.2 == 16 && (srcScope s.force x.1).contains a && reactCode s.force x.1 a != 0)

/-! States of an axis. -/

/-- An axis leaves RUN, DEGRADED and STOPPING: SBC is issued, its legs stop (R126, R279). -/
def State.leaveMotion (s : State) (a : Nat) (st : AxState) : State :=
  ((s.gatesOff a).sbcIssue a).onAx a fun x =>
    { x with state := st, ss1 := none, stopToReady := false, settling := false, runPending := false, sub := false }

/-- IN_VALID (R29, R314, R315). -/
def State.inValid (s : State) : Bool := s.field.flinkUp && !s.field.cut

/-- DI_STATE of an input: a broken wire counts as low (R310). -/
def State.diOn (s : State) (i : Nat) : Bool := (s.di i).level && !(s.di i).openWire

/-- A safety input reads low: also while inputs are invalid, and until a level is accepted again after that (R29, R294, R309). -/
def State.slotReadsLow (s : State) (i : Nat) : Bool :=
  let d := fld (sinCfg s.force i) 3 0
  !s.diOn d || !s.inValid || (s.di d).stale

/-- The safety input slot demands or selects: low, or with a SIN_FAULT (R294, R297). -/
def State.slotLow (s : State) (i : Nat) : Bool := decide (sinFunc s.force i ≠ 0) && ((s.si i).fault || s.slotReadsLow i)

/-- A STO, SS1 or SAFE_STOP demand or a SIN_FAULT acts on the axis (Table 11-1). -/
def State.demandOn (s : State) (a : Nat) : Bool :=
  (s.safety.stoActive && bt (s.cf pgSafe SAFE.STO_CFG) (16 + a))
  || s.safety.stoPath
  || ((List.range 8).any fun i =>
      sinHas s.force i a && ((s.slotLow i && (sinFunc s.force i == 1 || sinFunc s.force i == 2))
        || (s.si i).fault))
  || ((s.ax a).raised.any fun x => x.2.2)
  || ((s.ax a).state.moving && (s.ax a).react.isSome)

/-! Onsets, retry and retirement of channels (R284, R285). -/

/-- Onsets still in the count window. -/
def State.onsetsIn (s : State) (cls idx : Nat) : List Nat :=
  (s.chan cls idx).onsets.filter fun t => s.now ≤ t + countWin s.force

end Sys2Proof.Machine
end

