-- ==== Sys2Proof/Machine/RulesCore.lean ====
section
/-!
DEFINITION. The ranges that proof examines in check 2 (R58, Table 2-15) for the pages of the lanes, loops, axes, feedback,
motion, PWM, gate drive, safety and housekeeping. Each function gives the offsets of a page at which a field in use lies
outside its documented range or encoding.
-/
namespace Sys2Proof.Machine

/-- A register that breaks a check: page and offset. -/
abbrev Breach := Nat × Nat

/-- Outside lo to hi. -/
def outR (x lo hi : Nat) : Bool := decide (x < lo) || decide (hi < x)

/-- Offsets of the conditions that hold. -/
def offsWhere (l : List (Nat × Bool)) : List Nat := (l.filter (·.2)).map (·.1)

/-- A speed or limit in the speed format that must be positive. -/
def notPos (w : Word) : Bool := decide (w.toInt ≤ 0)

/-- TIME: R16 (the network-time ranges stand with chapter 14). -/
def rangeFrame (c : Cfg) : List Nat :=
  offsWhere [(TIME.FRAME_LEN, outR (frameLen c) 2500 250000 || decide (frameLen c % 4 ≠ 0))]

/-- SCHED: Table 3-5. -/
def rangeSched (c : Cfg) : List Nat :=
  let r := fun o => c pgSched o
  offsWhere [
    (SCHED.PLACE, let n := fld (r SCHED.PLACE) 3 0; decide (8 ≤ n ∧ n ≠ 15)),
    (SCHED.PWR_MAX_NORMAL, outR (r SCHED.PWR_MAX_NORMAL).toNat 100 4000),
    (SCHED.PWR_MAX_ECONOMY, outR (r SCHED.PWR_MAX_ECONOMY).toNat 100 4000),
    (SCHED.PWR_MAX_RESCUE, outR (r SCHED.PWR_MAX_RESCUE).toNat 100 4000),
    (SCHED.TA_DESIGN, let t := sfld (r SCHED.TA_DESIGN) 15 0; decide (t < -640 ∨ 1680 < t)),
    (SCHED.THETA_JA, outR (r SCHED.THETA_JA).toNat 100 10000),
    (SCHED.SELFTEST_PERIOD, outR (r SCHED.SELFTEST_PERIOD).toNat 10 10000) ]

/-- LANE: Tables 3-6 and 3-8. -/
def rangeLane (c : Cfg) (n : Nat) : List Nat :=
  offsWhere [
    (LANE.CODE_RANGE, decide (4096 < (codeRange c n).2)),
    (LANE.DATA_RANGE, decide (2048 < (dataRange c n).2)) ]
  ++ (List.range 16).flatMap fun s =>
    if taskEn c n s then
      offsWhere [
        (LANE.TASK_CFG s, taskCls c n s == 3 || decide (6 < taskDivL c n s) || decide (2 ^ taskDivL c n s ≤ taskPhase c n s)),
        (LANE.TASK_BOUND s, taskBound c n s == 0),
        (LANE.TASK_ARRIVAL s, taskCls c n s == 1 && decide (taskArrival c n s < 250)) ]
    else []

/-- A signal selector outside Table 4-2. -/
def badSel (q : Nat) : Bool :=
  let i := selIdx q
  match selKind q with
  | 0 => i != 0
  | 1 => decide (128 ≤ i)
  | 2 => decide (128 ≤ i)
  | 3 => decide (256 ≤ i) || decide (6 < i % 16) || (decide (8 ≤ i / 16) && decide (2 ≤ i % 16 ∧ i % 16 ≤ 4))
  | 4 => decide (32 ≤ i)
  | 5 => decide (24 ≤ i)
  | 6 => false
  | _ => true

/-- A destination outside Table 4-3. -/
def badDst (q : Nat) : Bool :=
  let i := selIdx q
  match selKind q with
  | 0 => i != 0
  | 3 => decide (128 ≤ i) || decide (2 < i % 16)
  | 6 => false
  | 7 => outR i 24 31
  | _ => true

/-- Context x: R94 to R97, R100, R111, Tables 4-7 and 4-8; offsets in the page. -/
def rangeCtx (c : Cfg) (x : Nat) : List Nat :=
  if !ctxEn c x then []
  else
    let b := 0x70 * (x % 16)
    let r := fun o => ctxReg c x o
    let st := ctxStruct c x
    let integ := decide (1 ≤ st ∧ st ≤ 3)
    let ax := fld (r (LOOP.BIND 0)) 4 0
    (offsWhere [
      (LOOP.CFG 0, decide (6 ≤ st) || fld (ctxCfg c x) 26 25 == 3 || decide (6 < ctxDivL c x)
        || decide (2 ^ ctxDivL c x ≤ ctxPhase c x)),
      (LOOP.BIND 0, decide (16 ≤ ax ∧ ax ≠ 31)),
      (LOOP.SRC 0, badSel (ctxSp c x) || badSel (ctxFbS c x)),
      (LOOP.ROUTE 0, badSel (ctxFf c x) || badDst (ctxDst c x)),
      (LOOP.DF 0, decide (st ≤ 3) && notPos (r (LOOP.DF 0))),
      (LOOP.B0 0, st == 5 && outR (r (LOOP.B0 0)).toNat 1 0x40000000),
      (LOOP.OUT_MIN 0, decide ((r (LOOP.OUT_MAX 0)).toInt ≤ (r (LOOP.OUT_MIN 0)).toInt)),
      (LOOP.I_MIN 0, integ && decide ((r (LOOP.I_MAX 0)).toInt < (r (LOOP.I_MIN 0)).toInt)),
      (LOOP.SS_STEP 0, bt (r (LOOP.SS_STEP 0)) 31),
      (LOOP.SLEW 0, bt (r (LOOP.SLEW 0)) 31),
      (LOOP.DEADBAND 0, decide (st ≤ 3) && bt (r (LOOP.DEADBAND 0)) 31),
      (LOOP.I_PRESET 0, integ && (decide ((r (LOOP.I_PRESET 0)).toInt < (r (LOOP.I_MIN 0)).toInt)
        || decide ((r (LOOP.I_MAX 0)).toInt < (r (LOOP.I_PRESET 0)).toInt))) ]).map (· + b)

/-- A DC-link source (AXIS.SOURCES.UDC_SRC). -/
def badUdc (n : Nat) : Bool := decide (16 ≤ n) && n != 0xFE && n != 0xFF

/-- K_TI of R120, as a rational. -/
def kTi (c : Cfg) (a : Nat) : Rat :=
  let r := fun o => ((c (pgAxis a) o).toNat : Rat)
  r AXIS.T_FS / ((3 / 2) * r AXIS.POLE_PAIRS * r AXIS.PSI / 1000000 * r AXIS.I_FS)

/-- F and beta of advance point i. -/
def advPt (c : Cfg) (a i : Nat) : Nat × Nat :=
  let w := c (pgAxis a) (AXIS.ADV_PT i)
  (fld w 31 16, fld w 15 0)

/-- AXIS a: R116, R120 to R122, Tables 5-6 and 5-7. -/
def rangeAxis (c : Cfg) (a : Nat) : List Nat :=
  let r := fun o => c (pgAxis a) o
  let cfgBad := fld (axCfg c a) 1 0 == 3 || (axComm c a != 0 && (axAngle c a == 3 || decide (8 < axAdvN c a)))
  if axComm c a = 0 then []
  else
    let foc := axComm c a == 1
    let obs := axAngle c a != 0
    let n := axAdvN c a
    offsWhere [
      (AXIS.CFG, cfgBad),
      (AXIS.LEGS, (axLegs c a).any (24 ≤ ·)),
      (AXIS.SOURCES, badUdc (axUdcSrc c a)),
      (AXIS.I_FS, outR (r AXIS.I_FS).toNat 100 2000000),
      (AXIS.U_FS, outR (r AXIS.U_FS).toNat 1000 100000),
      (AXIS.T_FS, outR (r AXIS.T_FS).toNat 1 16000000),
      (AXIS.POLE_PAIRS, outR (axPp c a) 1 64),
      (AXIS.CPR, outR (axCpr c a) 1 16777216),
      (AXIS.PSI, foc && ((r AXIS.PSI).toNat == 0 || decide (128 ≤ kTi c a))),
      (AXIS.MOD_MAX, decide ((r AXIS.MOD_MAX).toNat < 0x8000)),
      (AXIS.SHUNT_CFG, !axSd c a && outR (fld (r AXIS.SHUNT_CFG) 9 0) 75 1000),
      (AXIS.R_SHUNT, (r AXIS.R_SHUNT).toNat == 0),
      (AXIS.CLAMP_BAND, notPos (r AXIS.CLAMP_BAND)) ]
    ++ offsWhere ((List.range (min n 8)).map fun i =>
        (AXIS.ADV_PT i, decide (0x4000 < (advPt c a i).2) || (i != 0 && decide ((advPt c a i).1 ≤ (advPt c a (i - 1)).1))))
    ++ (if obs then offsWhere [
      (AXIS.OBS_GAIN, notPos (r AXIS.OBS_GAIN)),
      (AXIS.OBS_MIN_SPEED, notPos (r AXIS.OBS_MIN_SPEED)),
      (AXIS.LOS_CFG, outR (fld (r AXIS.LOS_CFG) 31 24) 5 100 || fld (r AXIS.LOS_CFG) 23 16 == 0),
      (AXIS.RESTART_CFG, outR (fld (r AXIS.RESTART_CFG) 29 16) 100 10000 || outR (fld (r AXIS.RESTART_CFG) 15 0) 1 1000) ]
      else [])

/-- ADC: Table 5-9. -/
def rangeAdc (c : Cfg) : List Nat :=
  (List.range 8).flatMap (fun n => offsWhere [
    (ADC.SHUNT_CFG n, bt (c pgAdc (ADC.SHUNT_CFG n)) 4 && decide (5 < fld (c pgAdc (ADC.SHUNT_CFG n)) 2 0)) ])
  ++ (List.range 8).flatMap (fun n => offsWhere [
    (ADC.SD_CFG n, bt (c pgAdc (ADC.SD_CFG n)) 15 && outR (fld (c pgAdc (ADC.SD_CFG n)) 8 0) 32 256) ])

/-- FB.CFG of interface n. -/
def fbCfg (c : Cfg) (n : Nat) : Word := c (pgFb n) FB.CFG
/-- MODE (Table 6-1). -/
def fbMode (c : Cfg) (n : Nat) : Nat := fld (fbCfg c n) 2 0
/-- SSI or ABS_CRC. -/
def fbAbs (c : Cfg) (n : Nat) : Bool := decide (6 ≤ fbMode c n)
/-- QUAD, STEP_DIR or UP_DOWN. -/
def fbIdxMode (c : Cfg) (n : Nat) : Bool := decide (1 ≤ fbMode c n ∧ fbMode c n ≤ 3)
/-- BITS. -/
def absBits (c : Cfg) (n : Nat) : Nat := fld (c (pgFb n) FB.ABS_CFG) 5 0
/-- CLK_DIV. -/
def absClk (c : Cfg) (n : Nat) : Nat := fld (c (pgFb n) FB.ABS_CFG) 27 16
/-- PARITY. -/
def absPar (c : Cfg) (n : Nat) : Bool := bt (c (pgFb n) FB.ABS_CFG) 7
/-- Transfer time T_x of R160. -/
def absTx (c : Cfg) (n : Nat) : Nat :=
  if fbMode c n = 6 then (absBits c n + (absPar c n).toNat + 1) * absClk c n else (absBits c n + 16) * absClk c n + 500
/-- TIMEOUT. -/
def absTimeout (c : Cfg) (n : Nat) : Nat := fld (c (pgFb n) FB.ABS_TIMING) 31 16
/-- ACQ_LEAD. -/
def absLead (c : Cfg) (n : Nat) : Nat := fld (c (pgFb n) FB.ABS_TIMING) 15 0
/-- COUNT_WIN in frames. -/
def fbWin (c : Cfg) (n : Nat) : Nat := fld (c (pgFb n) FB.SPEED_CFG) 12 8
/-- REP_CFG of repeater n. -/
def repCfg (c : Cfg) (n : Nat) : Word := c (pgFb n) FB.REP_CFG
/-- MODE of repeater n: 0 OFF, 1 PASS, 2 EMULATE. -/
def repMode (c : Cfg) (n : Nat) : Nat := if n < 2 then fld (repCfg c n) 5 4 else 0

/-- FB n: Tables 6-4 and 6-5, R152, R159, R162, R169. -/
def rangeFb (c : Cfg) (n : Nat) : List Nat :=
  let r := fun o => c (pgFb n) o
  let m := fbMode c n
  let incr := decide (1 ≤ m ∧ m ≤ 5)
  (if m = 0 then [] else offsWhere [
    (FB.CFG, decide (fld (fbCfg c n) 23 16 < 2)),
    (FB.COUNTS_PER_INDEX, fbIdxMode c n && fld (fbCfg c n) 25 24 == 3 && outR (r FB.COUNTS_PER_INDEX).toNat 1 16777216),
    (FB.SPEED_CFG, outR (fbWin c n) 1 16 || (incr && fld (r FB.SPEED_CFG) 1 0 == 3)),
    (FB.SPD_HI, incr && notPos (r FB.SPD_HI)),
    (FB.SPD_LO, incr && (notPos (r FB.SPD_LO) || decide ((r FB.SPD_HI).toInt ≤ (r FB.SPD_LO).toInt))),
    (FB.STANDSTILL, incr && outR (r FB.STANDSTILL).toNat 1 1000),
    (FB.WHEEL, m == 4 && (decide (fld (r FB.WHEEL) 15 8 < 8)
      || (!bt (r FB.WHEEL) 4 && outR (fld (r FB.WHEEL) 1 0) 1 2))),
    (FB.ABS_CFG, decide (6 ≤ m) && (outR (absBits c n) 8 40 || outR (absClk c n) (if m = 6 then 125 else 25) 2000)),
    (FB.ABS_TIMING, decide (6 ≤ m) && decide (absTimeout c n < 250)),
    (FB.MAX_STEP, decide (6 ≤ m) && outR (r FB.MAX_STEP).toNat 1 0x80000000),
    (FB.HALL_CFG, m == 5 && decide (5 < fld (r FB.HALL_CFG) 2 0)) ])
  ++ (if n < 2 then offsWhere [
    (FB.REP_CFG, repMode c n == 3 || (repMode c n == 2 && decide (fld (repCfg c n) 31 16 < 25))) ] else [])

/-- MOT a: Tables 7-4 and 7-6, R181. -/
def rangeMot (c : Cfg) (a : Nat) : List Nat :=
  let r := fun o => c (pgMot a) o
  let src := motSource c a
  let step := motStepEn c a
  let hi := fld (r MOT.STEP_TIMING) 31 16
  let latchBad := fun (w : Word) =>
    let k := fld w 15 12
    let i := fld w 7 0
    decide (3 < k) || (k != 0 && fld w 17 16 == 3) || (k == 1 && decide (8 ≤ i)) || (k == 2 && decide (16 ≤ i))
      || (k == 3 && decide (1 < i % 16))
  offsWhere [
    (MOT.CFG, decide (4 ≤ src) || (src == 2 && decide (2 ≤ fld (r MOT.CFG) 13 12))
      || (src == 2 && fld (r MOT.CFG) 13 12 == 0 && decide (8 ≤ fld (r MOT.CFG) 19 16))
      || (decide (8 ≤ a) && src != 0 && decide (8 ≤ fld (r MOT.CFG) 27 24) && fld (r MOT.CFG) 27 24 != 15)),
    (MOT.QSTOP_DEC, (r MOT.QSTOP_DEC).toNat == 0),
    (MOT.DEV_FRAMES, (r MOT.DEV_WIN).toNat != 0 && (r MOT.DEV_FRAMES).toNat == 0),
    (MOT.FB_DEN, decide (8 ≤ a) && src != 0 && (axFb c a).isSome && (r MOT.FB_DEN).toNat == 0),
    (MOT.STEP_TIMING, step && (decide (hi < 25) || decide (fld (r MOT.STEP_TIMING) 15 0 < 25))),
    (MOT.STEP_MIN_PERIOD, step && decide ((r MOT.STEP_MIN_PERIOD).toNat < 2 * hi)),
    (MOT.CMP_OUT0, bt (r MOT.CMP_OUT0) 4 && fld (r MOT.CMP_OUT0) 31 16 == 0),
    (MOT.CMP_OUT1, bt (r MOT.CMP_OUT1) 4 && fld (r MOT.CMP_OUT1) 31 16 == 0),
    (MOT.LATCH_SRC0, latchBad (r MOT.LATCH_SRC0)),
    (MOT.LATCH_SRC1, latchBad (r MOT.LATCH_SRC1)) ]

/-- MEMBERS of group g: COUNT and the members in use. -/
def grpCount (c : Cfg) (g : Nat) : Nat := fld (c pgGroup (GROUP.MEMBERS g)) 18 16
/-- Members of group g. -/
def grpMembers (c : Cfg) (g : Nat) : List Nat :=
  let w := c pgGroup (GROUP.MEMBERS g)
  (List.range (min (grpCount c g) 4)).map fun i => fld w (4 * i + 3) (4 * i)

/-- GROUP: Table 7-7. -/
def rangeGroup (c : Cfg) : List Nat :=
  (List.range 4).flatMap fun g =>
    if grpCount c g = 0 then []
    else offsWhere [
      (GROUP.PATH_VMAX g, notPos (c pgGroup (GROUP.PATH_VMAX g))),
      (GROUP.PATH_ACC g, (c pgGroup (GROUP.PATH_ACC g)).toNat == 0),
      (GROUP.PATH_QSTOP g, (c pgGroup (GROUP.PATH_QSTOP g)).toNat == 0) ]

/-- Leg l of a PWM page: R231, R238, R246; offsets in the page. -/
def rangeLeg (c : Cfg) (l : Nat) : List Nat :=
  let j := l % 8
  let w := legCtrl c l
  let d := legDead c l
  let vary := legCarrier c l == 1 || legCarrier c l == 2
  if legMode c l = 0 then []
  else offsWhere [
    (PWM.LEG_CTRL j, decide (5 ≤ legMode c l) || legAlign c l == 3 || legCarrier c l == 3 || decide (4 ≤ fld w 22 20)),
    (PWM.DEADTIME j, outR (legDtMax c l) 2 250 || outR (fld d 15 8) 2 250 || decide (legDtMax c l < fld d 15 8)),
    (PWM.REFRESH j, !legPump c l && (decide (16 < legRefN c l) || outR (legRefT c l) 50 500)),
    (PWM.PHASE j, if vary then decide (125000 < legPhase c l) else decide (legP c l ≤ legPhase c l)),
    (PWM.TON_TOFF j, vary && outR (legTon c l) 25 62500) ]

/-- Leg l of a GD page: Table 10-6; offsets in the page. -/
def rangeGd (c : Cfg) (l : Nat) : List Nat :=
  if legMode c l = 0 then []
  else offsWhere [(GD.QG (l % 6), (c (pgGd (l / 6)) (GD.QG (l % 6))).toNat == 0)]

/-- The chopper leg (R266). -/
def chopLeg (c : Cfg) : Option Nat :=
  (List.range 8).map (· + 24) |>.find? fun l => legMode c l != 0 && legFunc c l == 2

/-- PLINK: Table 10-9, R267. -/
def rangePlink (c : Cfg) : List Nat :=
  let r := fun o => c pgPlink o
  let chop := (chopLeg c).isSome
  ((List.range 4).flatMap fun n => offsWhere [
    (PLINK.DCL_CFG n, bt (r (PLINK.DCL_CFG n)) 31 && fld (r (PLINK.DCL_CFG n)) 29 28 == 3) ])
  ++ offsWhere [
    (PLINK.CHOP_CFG, chop && (badUdc (fld (r PLINK.CHOP_CFG) 23 16) || outR (fld (r PLINK.CHOP_CFG) 15 0) 25 2500)),
    (PLINK.CHOP_FULL, chop && decide ((r PLINK.CHOP_FULL).toNat ≤ (r PLINK.CHOP_ON).toNat)),
    (PLINK.CHOP_TEST, chop && (outR (fld (r PLINK.CHOP_TEST) 31 16) 1 10000 || fld (r PLINK.CHOP_TEST) 15 0 == 0)),
    (PLINK.PRECHECK_CFG, outR (fld (r PLINK.PRECHECK_CFG) 31 16) 100 10000
      || decide (fld (r PLINK.PRECHECK_CFG) 15 8 ≤ fld (r PLINK.PRECHECK_CFG) 7 0)) ]

/-- SAFE: Table 11-6, Tables 11-8 to 11-10; reaction codes 4 to 15 (Table 11-2). -/
def rangeSafe (c : Cfg) : List Nat :=
  let r := fun o => c pgSafe o
  offsWhere [
    (SAFE.RETRY, outR (onsetK c) 1 15 || outR (fld (r SAFE.RETRY) 15 0) 10 1000 || fld (r SAFE.RETRY) 23 16 == 0),
    (SAFE.STO_CFG, outR (fld (r SAFE.STO_CFG) 3 0) 1 12),
    (SAFE.STO_TEST, decide (8760 < (r SAFE.STO_TEST).toNat)),
    (SAFE.TP_CFG, outR (fld (r SAFE.TP_CFG) 31 16) 10 1000 || outR (fld (r SAFE.TP_CFG) 15 8) 10 100) ]
  ++ ((List.range 8).flatMap fun i => offsWhere [
    (SAFE.SIN_CFG i, sinFunc c i != 0 && fld (sinCfg c i) 9 8 == 3) ])
  ++ ((List.range 8).flatMap fun i => offsWhere [
    (SAFE.REACT i, (List.range 8).any fun m => decide (3 < fld (r (SAFE.REACT i)) (4 * m + 3) (4 * m))) ])
  ++ (List.range 16).flatMap fun a =>
    let q := fun o => safeAx c a o
    let xc := bt (axSafe c a) 8
    let deg := bt (axSafe c a) 9
    offsWhere [
      (SAFE.AX_CFG a, outR (fld (axSafe c a) 31 28) 1 3 || brkKind c a == 3),
      (SAFE.SS1_CFG a, outR (fld (q (SAFE.SS1_CFG 0)) 31 16) 10 60000),
      (SAFE.SLS_LIM a, bt (axSafe c a) 12 && notPos (q (SAFE.SLS_LIM 0))),
      (SAFE.REST_V a, notPos (q (SAFE.REST_V 0))),
      (SAFE.XC_CFG a, xc && (outR (fld (q (SAFE.XC_CFG 0)) 31 24) 1 100 || fld (q (SAFE.XC_CFG 0)) 23 16 == 0)),
      (SAFE.XC_ABS a, xc && notPos (q (SAFE.XC_ABS 0))),
      (SAFE.DEG_CFG a, deg && outR (fld (q (SAFE.DEG_CFG 0)) 15 0) 1000 60000),
      (SAFE.DEG_SPEED a, deg && notPos (q (SAFE.DEG_SPEED 0))),
      (SAFE.BRK_CFG a, hasBrake c a && (decide (5000 < fld (q (SAFE.BRK_CFG 0)) 31 16)
        || decide (5000 < fld (q (SAFE.BRK_CFG 0)) 15 0))),
      (SAFE.BRK_SEL a, (hasBrake c a && outR (fld (q (SAFE.BRK_SEL 0)) 31 16) 10 5000)
        || decide (10000 < fld (q (SAFE.BRK_SEL 0)) 15 0)) ]

/-- HK: Table 18-9, R428. -/
def rangeHk (c : Cfg) : List Nat :=
  let r := fun o => c pgHk o
  let w := r HK.WARN_T
  let t := r HK.THR_T
  offsWhere [
    (HK.WARN_T, decide (sfld t 31 16 ≤ sfld w 31 16) || decide (sfld t 15 0 ≤ sfld w 15 0)),
    (HK.THR_T, decide (2560 < sfld t 31 16) || decide (2160 < sfld t 15 0)),
    (HK.THROTTLE_CFG, decide (fld (r HK.THROTTLE_CFG) 31 16 < 16) || decide (fld (r HK.THROTTLE_CFG) 5 0 < 2)),
    (HK.SCRUB_CFG, outR (r HK.SCRUB_CFG).toNat 1 3600),
    (HK.TELE_CFG, fld (r HK.TELE_CFG) 3 0 != 0 && outR (fld (r HK.TELE_CFG) 31 16) 10 60000),
    (HK.TELE_SIGBASE, bt (r HK.TELE_CFG) 3 && decide (4080 < (r HK.TELE_SIGBASE).toNat)) ]

end Sys2Proof.Machine
end

