-- ==== Sys2Proof/Machine/RulesAgree.lean ====
section
/-!
DEFINITION. Checks 3 to 7 of Table 2-15 for the pages of the lanes, loops, axes, feedback, motion, PWM, gate drive, safety and
housekeeping: a change refused in the present state, a retired channel used, a resource claimed twice, pages that disagree, a
safety rule broken. Each function gives the registers reported.
-/
namespace Sys2Proof.Machine

/-- Registers of the conditions that hold. -/
def breachesWhere (l : List (Breach × Bool)) : List Breach := (l.filter (·.2)).map (·.1)

/-- The candidate value of a staged register differs from the value in force. -/
def State.chg (s : State) (p o : Nat) : Bool := s.cand p o != s.cf p o
/-- They differ in bits of a mask. -/
def State.chgIn (s : State) (p o m : Nat) : Bool := (s.cand p o &&& nw m) != (s.cf p o &&& nw m)

/-- A drive axis in motion uses feedback interface n (R168). -/
def State.fbInMotion (s : State) (n : Nat) : Bool :=
  (List.range 16).any fun a =>
    (s.ax a).state.moving && (axFb s.force a == some n && (decide (8 ≤ a) || axComm s.force a != 0)
      || (motSource s.force a == 2 && fld (motCfg s.force a) 13 12 == 0 && fld (motCfg s.force a) 19 16 == n))

/-- A context counts as closed for R113: in RAMP, CLOSED or HELD; a filter, when it delivers to a destination or a context
that reads it, through at most n others, is closed. -/
def State.ctxClosed (s : State) : Nat → Nat → Bool
  | 0, _ => false
  | n + 1, x =>
    let st := (s.cx x).state
    let live := st = .ramp ∨ st = .closed ∨ st = .held
    if !ctxEn s.force x || !decide live then false
    else if ctxFilter s.force x then
      ctxDst s.force x != 0 || (List.range 128).any fun y =>
        ctxEn s.force y && (ctxReads s.force y).contains x && s.ctxClosed n y
    else true

/-- Check 3 on the contexts (R113). -/
def stateCtx (s : State) (x : Nat) : List Breach :=
  let p := pgLoop (x / 16)
  let b := 0x70 * (x % 16)
  if !(List.range 24).any (fun i => s.chg p (LOOP.CFG 0 + b + 4 * i)) then []
  else if !s.ctxClosed 128 x then []
  else breachesWhere
    ([((p, LOOP.CFG 0 + b), s.chgIn p (LOOP.CFG 0 + b) 0x1E3F077F)]
    ++ ([LOOP.BIND 0, LOOP.SRC 0, LOOP.ROUTE 0, LOOP.SHIFT 0, LOOP.KP 0, LOOP.KI 0, LOOP.KD 0, LOOP.DF 0, LOOP.KT 0,
        LOOP.FF_GAIN 0, LOOP.B0 0, LOOP.B1 0, LOOP.B2 0, LOOP.A1 0, LOOP.A2 0].map fun o => ((p, o + b), s.chg p (o + b))))

/-- Check 3: changes refused in the present state of the axes, groups, legs and power (R16, R83, R113, R147, R168, R194, R195,
R245, R273, R302). -/
def stateCore (s : State) : List Breach :=
  let c := s.force
  let any := s.anyMoving
  breachesWhere [
    ((pgTime, TIME.FRAME_LEN), any && s.chg pgTime TIME.FRAME_LEN),
    ((pgSched, SCHED.STATE_EN), s.sched.state == 2 && bt (s.cf pgSched SCHED.STATE_EN) 2 && !bt (s.cand pgSched SCHED.STATE_EN) 2) ]
  ++ (if any then breachesWhere
      ((([SAFE.RETRY, SAFE.STO_CFG, SAFE.STO_TEST, SAFE.OTE, SAFE.TP_CFG]
        ++ (List.range 8).map SAFE.SIN_CFG ++ (List.range 8).map SAFE.REACT)).map fun o => ((pgSafe, o), s.chg pgSafe o))
    else [])
  ++ ((List.range 16).flatMap fun a =>
    if (s.ax a).state.moving then
      breachesWhere ((List.range 13).map fun i => ((pgSafe, SAFE.AX_CFG a + 4 * i), s.chg pgSafe (SAFE.AX_CFG a + 4 * i)))
    else [])
  ++ ((List.range 8).flatMap fun a =>
    if (s.ax a).state.moving then
      breachesWhere
        (((pgAxis a, AXIS.CFG), s.chgIn (pgAxis a) AXIS.CFG 0xF8FF)
        :: ([AXIS.LEGS, AXIS.SENSE_SEL, AXIS.SOURCES, AXIS.POLE_PAIRS, AXIS.CPR, AXIS.ANGLE_OFS, AXIS.I_FS, AXIS.U_FS,
          AXIS.T_FS].map fun o => ((pgAxis a, o), s.chg (pgAxis a) o)))
      ++ (axSense c a ++ (if axUdcSrc c a < 16 ∧ axComm c a ≠ 0 then [16 + axUdcSrc c a] else [])).flatMap fun ch =>
        let o := if ch < 8 then ADC.SHUNT_CFG ch else if ch < 16 then ADC.SD_CFG (ch - 8) else ADC.AIN_CFG (ch - 16)
        breachesWhere [((pgAdc, o), s.chg pgAdc o),
          ((pgAdc, ADC.SDC_CTRL), decide (8 ≤ ch ∧ ch < 16) && s.chg pgAdc ADC.SDC_CTRL)]
    else [])
  ++ ((List.range 8).flatMap fun n =>
    if s.fbInMotion n then breachesWhere [
      ((pgFb n, FB.CFG), s.chgIn (pgFb n) FB.CFG 0x717),
      ((pgFb n, FB.WHEEL), s.chg (pgFb n) FB.WHEEL),
      ((pgFb n, FB.ABS_CFG), s.chg (pgFb n) FB.ABS_CFG),
      ((pgFb n, FB.HALL_CFG), s.chg (pgFb n) FB.HALL_CFG) ]
    else [])
  ++ breachesWhere ((List.range 16).map fun a => ((pgMot a, MOT.CFG), (s.ax a).state.moving && s.chg (pgMot a) MOT.CFG))
  ++ breachesWhere ((List.range 4).map fun g =>
    ((pgGroup, GROUP.MEMBERS g), !((s.gr g).queue.isEmpty && (s.gr g).fresh.isEmpty) && s.chg pgGroup (GROUP.MEMBERS g)))
  ++ ((List.range 32).flatMap fun l =>
    let axm := match legAxis c l with
      | some a => (s.ax a).state.moving && legMode c l == 4
      | none => false
    if axm || (s.rescue.convOn && legFunc c l == 1 && legMode c l != 0) then
      breachesWhere ([PWM.LEG_CTRL 0, PWM.DEADTIME 0, PWM.REFRESH 0, PWM.PHASE 0, PWM.TON_TOFF 0, PWM.OUT_CFG 0].map fun o =>
        ((pgPwm (l / 8), o + 0x20 * (l % 8)), s.chg (pgPwm (l / 8)) (o + 0x20 * (l % 8))))
    else [])
  ++ ((List.range 12).flatMap fun l =>
    match legAxis c l with
    | some a => breachesWhere [((pgGd (l / 6), GD.GD_CFG (l % 6)),
        (s.ax a).state.moving && s.chgIn (pgGd (l / 6)) (GD.GD_CFG (l % 6)) 0x110)]
    | none => [])
  ++ (List.range 128).flatMap (stateCtx s)

/-- ADC channels that a selector of Table 4-2 reads. -/
def selAdc (q : Nat) : List Nat := if selKind q = 4 then [selIdx q] else []

/-- Check 4: a retired channel used (E_RETIRED), with `ret` telling the channels that count as retired. -/
def retiredCore (c : Cfg) (ret : Nat → Nat → Bool) : List Breach :=
  breachesWhere [
    ((pgPlink, PLINK.CHOP_CFG), (chopLeg c).isSome && decide (fld (c pgPlink PLINK.CHOP_CFG) 23 16 < 16)
      && ret 2 (16 + fld (c pgPlink PLINK.CHOP_CFG) 23 16)) ]
  ++ ((List.range 8).flatMap fun a =>
    if axComm c a = 0 then []
    else breachesWhere [
      ((pgAxis a, AXIS.CFG), ret 5 (axLane c a)),
      ((pgAxis a, AXIS.LEGS), (axLegs c a).any fun l => if l < 12 then ret 3 l else ret 4 l),
      ((pgAxis a, AXIS.SENSE_SEL), (axSense c a).any fun ch => ret 2 ch),
      ((pgAxis a, AXIS.SOURCES), (axAngle c a != 2 && (axFb c a).any fun n => ret 1 n)
        || (decide (axUdcSrc c a < 16) && ret 2 (16 + axUdcSrc c a))) ])
  ++ breachesWhere ((List.range 16).map fun a =>
    ((pgMot a, MOT.CFG), motSource c a != 0 && ((decide (8 ≤ a) && (axFb c a).any fun n => ret 1 n)
      || (motSource c a == 2 && fld (motCfg c a) 13 12 == 0 && ret 1 (fld (motCfg c a) 19 16)))))
  ++ breachesWhere ((List.range 32).map fun l =>
    ((pgPwm (l / 8), PWM.LEG_CTRL (l % 8)), legMode c l != 0 && (if l < 12 then ret 3 l else ret 4 l)))
  ++ ((List.range 128).flatMap fun x =>
    if !ctxEn c x then []
    else
      let p := pgLoop (x / 16)
      let b := 0x70 * (x % 16)
      breachesWhere [
        ((p, LOOP.CFG 0 + b), ret 5 (ctxLane c x)),
        ((p, LOOP.SRC 0 + b), (selAdc (ctxSp c x) ++ selAdc (ctxFbS c x)).any fun ch => ret 2 ch),
        ((p, LOOP.ROUTE 0 + b), (selAdc (ctxFf c x)).any fun ch => ret 2 ch) ])
  ++ (List.range 8).flatMap fun n =>
    if ret 5 n then breachesWhere ((List.range 16).map fun i => ((pgLane n, LANE.TASK_CFG i), taskEn c n i)) else []

/-- A claim of check 5: kind of resource, index, and the register that claims it. -/
abbrev Claim := Nat × Nat × Breach

/-- Claims of the axes, brakes and contexts (R58, R100, R116, R279): kinds 0 leg, 1 feedback interface, 2 ADC channel,
3 field output, 4 destination. -/
def claimsCore (c : Cfg) : List Claim :=
  ((List.range 16).flatMap fun a =>
    if brkKind c a = 1 then [((0, 24 + brkIdx c a, (pgSafe, SAFE.AX_CFG a)) : Claim)]
    else if brkKind c a = 2 then [(3, brkIdx c a, (pgSafe, SAFE.AX_CFG a))] else [])
  ++ (if bt (c pgSafe SAFE.OTE) 4 then [((3, fld (c pgSafe SAFE.OTE) 2 0, (pgSafe, SAFE.OTE)) : Claim)] else [])
  ++ ((List.range 8).flatMap fun a =>
    if axComm c a = 0 then []
    else (axLegs c a).map (fun l => ((0, l, (pgAxis a, AXIS.LEGS)) : Claim))
      ++ (axSense c a).map (fun ch => (2, ch, (pgAxis a, AXIS.SENSE_SEL)))
      ++ (axFb c a).toList.map (fun n => (1, n, (pgAxis a, AXIS.SOURCES))))
  ++ ((List.range 16).flatMap fun a =>
    let w0 := c (pgMot a) MOT.CMP_OUT0
    let w1 := c (pgMot a) MOT.CMP_OUT1
    (if bt w0 4 then [((3, fld w0 2 0, (pgMot a, MOT.CMP_OUT0)) : Claim)] else [])
    ++ (if bt w1 4 && !(bt w0 4 && fld w0 2 0 == fld w1 2 0) then [(3, fld w1 2 0, (pgMot a, MOT.CMP_OUT1))] else []))
  ++ (List.range 128).flatMap fun x =>
    if !ctxEn c x || ctxDst c x == 0 then []
    else
      let first := match ctxSet c x with
        | none => true
        | some g => !(List.range x).any fun y => ctxSet c y == some g && ctxDst c y == ctxDst c x
      if first then [(4, ctxDst c x, (pgLoop (x / 16), LOOP.ROUTE 0 + 0x70 * (x % 16)))] else []

/-- Order of registers: by page, then offset. -/
def Breach.lt (x y : Breach) : Bool := decide (x.1 < y.1) || (x.1 == y.1 && decide (x.2 < y.2))

/-- The lowest register of a list. -/
def firstBreach (l : List Breach) : Option Breach :=
  l.foldl (fun best x => match best with
    | none => some x
    | some b => if Breach.lt x b then some x else some b) none

/-- Claims that an earlier or equal register already made: the later claims of check 5. -/
def laterClaims : List Claim → List Breach
  | [] => []
  | (k, i, b) :: rest =>
    (rest.filterMap fun x => if x.1 = k ∧ x.2.1 = i then some (if Breach.lt x.2.2 b then b else x.2.2) else none)
      ++ laterClaims rest

/-- Members of selection set g. -/
def setMembers (c : Cfg) (g : Nat) : List Nat := (List.range 128).filter fun x => ctxSet c x == some g

/-- Context x is reached from y through CONTEXT sources, in at most n steps. -/
def ctxReaches (c : Cfg) : Nat → Nat → Nat → Bool
  | 0, _, _ => false
  | n + 1, y, x => (ctxReads c y).any fun z => z == x || ctxReaches c n z x

/-- Check 6 on a context (R96, R98, R100, R103, R104, R106, R111). -/
def agreeCtx (c : Cfg) (x : Nat) : List Breach :=
  if !ctxEn c x then []
  else
    let p := pgLoop (x / 16)
    let b := 0x70 * (x % 16)
    let at' := fun o => (p, o + b)
    let filt := ctxFilter c x
    let bad := fun y => !ctxEn c y || ctxLane c y != ctxLane c x || (ctxSet c y).isSome || y == x || ctxReaches c 8 y x
      || (ctxEssential c x && !ctxEssential c y)
    let ctxIn := fun q => selKind q == 1 && bad (selIdx q)
    let sp := ctxSp c x
    let ramp := bt (ctxCfg c x) 27
    breachesWhere [
      (at' (LOOP.CFG 0), (ramp && !(selKind sp == 1 && decide (ctxDivL c x < ctxDivL c (selIdx sp))
          && ctxPhase c (selIdx sp) % 2 ^ ctxDivL c x == ctxPhase c x))
        || (bt (ctxCfg c x) 28 && ctxDst c x == 0)),
      (at' (LOOP.BIND 0), filt && (ctxSet c x).isSome),
      (at' (LOOP.SRC 0), ctxIn sp || ctxIn (ctxFbS c x)
        || (if filt then ctxFbS c x != 0 || selPos sp else selPos sp != selPos (ctxFbS c x))),
      (at' (LOOP.ROUTE 0), ctxIn (ctxFf c x) || (filt && ctxFf c x != 0) || selPos (ctxFf c x)
        || (selKind (ctxDst c x) == 7 && !legFraction c (selIdx (ctxDst c x)))),
      (at' (LOOP.SS_STEP 0), filt && ctxReg c x (LOOP.SS_STEP 0) != 0) ]

/-- Check 6 on selection set g (R114). -/
def agreeSet (c : Cfg) (g : Nat) : List Breach :=
  match setMembers c g with
  | [] => []
  | x :: rest =>
    let reg := fun y => (pgLoop (y / 16), LOOP.BIND 0 + 0x70 * (y % 16))
    let n := rest.length + 1
    let mode := fun y => bt (ctxReg c y (LOOP.BIND 0)) 13
    breachesWhere ((reg x, decide (n < 2) || decide (8 < n) || ctxDst c x == 0 || ctxFilter c x)
      :: rest.map fun y =>
        (reg y, ctxFilter c y || ctxLane c y != ctxLane c x || ctxDivL c y != ctxDivL c x || ctxPhase c y != ctxPhase c x
          || ctxAxis c y != ctxAxis c x || mode y != mode x || ctxDst c y != ctxDst c x))

/-- Longest dead time the legs of an axis can apply, plus 16 ticks: G of R130. -/
def axGap (c : Cfg) (a : Nat) : Nat := 16 + ((axLegs c a).map (legDtMax c)).foldl max 0

/-- Current range of a sense channel in mA (R145, R150), for the axis's shunt resistance. -/
def senseRange (c : Cfg) (a : Nat) (ch : Nat) : Rat :=
  let rs : Rat := ((c (pgAxis a) AXIS.R_SHUNT).toNat : Rat) / 1000000
  if ch < 8 then 1250 / (2 ^ fld (c pgAdc (ADC.SHUNT_CFG ch)) 2 0 : Nat) / rs
  else (fld (c pgAdc (ADC.SD_CFG (ch - 8))) 31 16 : Rat) / rs

/-- Check 6 on drive axis a (R116, R131, R134, R145, R150, R154). -/
def agreeAxis (c : Cfg) (a : Nat) : List Breach :=
  if axComm c a = 0 then []
  else
    let p := pgAxis a
    let l0 := (axLegs c a).headD 0
    let per := legP c l0
    let ch := axSense c a
    let sd := fun n => c pgAdc (ADC.SD_CFG (n - 8))
    let en := fun n => if n < 8 then bt (c pgAdc (ADC.SHUNT_CFG n)) 4 else bt (sd n) 15
    let trip : Rat := ((c p AXIS.I_TRIP).toNat : Rat) / 65536 * ((c p AXIS.I_FS).toNat : Rat)
    let sdBad := axSd c a && (match ch with
      | [x, y] => x == y || fld (sd x) 8 0 != fld (sd y) 8 0 || bt (sd x) 12 != bt (sd y) 12
          || decide (per * 2 < 3 * fld (sd x) 8 0 * 25) || !bt (c pgAdc ADC.SDC_CTRL) (bt (sd x) 12).toNat
      | _ => false)
    breachesWhere [
      ((p, AXIS.CFG), axComm c a == 2 && axAngle c a != 0),
      ((p, AXIS.SENSE_SEL), sdBad || ch.any fun n => !en n),
      ((p, AXIS.I_TRIP), ch.any fun n => decide (senseRange c a n < trip)),
      ((p, AXIS.CPR), axAngle c a != 2 && (axFb c a).any fun n => fbMode c n == 5 && axCpr c a != 6 * axPp c a),
      ((p, AXIS.SHUNT_CFG), !axSd c a && decide (per < 4 * (fld (c p AXIS.SHUNT_CFG) 9 0 + axGap c a))) ]

/-- Check 6 on feedback interface n (R160, R169). -/
def agreeFb (c : Cfg) (n : Nat) : List Breach :=
  let src := fld (repCfg c n) 2 0
  breachesWhere [
    ((pgFb n, FB.ABS_TIMING), fbAbs c n && (decide (absLead c n < absTx c n + 32) || decide (frameLen c < absTx c n + absTimeout c n))),
    ((pgFb n, FB.REP_CFG), (repMode c n == 1 && fbAbs c src) || (repMode c n == 2 && fbMode c src == 0)) ]

/-- A gear chain from axis a comes back to it within n masters (R191). -/
def gearCycle (c : Cfg) : Nat → Nat → Nat → Bool
  | 0, _, _ => false
  | n + 1, a, b =>
    if motSource c b == 2 && fld (motCfg c b) 13 12 == 1 then
      let m := fld (motCfg c b) 19 16
      m == a || gearCycle c n a m
    else false

/-- Check 6 on motion axis a (R181 to R183, R191). -/
def agreeMot (c : Cfg) (a : Nat) : List Breach :=
  let w := motCfg c a
  let src := motSource c a
  let inGroups := (List.range 4).filter fun g => (grpMembers c g).contains a
  breachesWhere [
    ((pgMot a, MOT.CFG), (decide (a < 8) && bt w 4)
      || (src == 2 && ((fld w 13 12 == 0 && fbMode c (fld w 19 16) == 0) || gearCycle c 16 a a))
      || (src == 3 && inGroups.isEmpty)),
    ((pgMot a, MOT.DEV_WIN), decide (8 ≤ a) && src != 0 && c (pgMot a) MOT.DEV_WIN != 0 && !((axFb c a).isSome && motStepEn c a)) ]

/-- Bound of a pass of the profile and gearing unit (R173): groups in use count as queued. -/
def passBound (c : Cfg) : Nat :=
  80 + 24 * ((List.range 16).filter fun a => motSource c a != 0).length
    + 48 * ((List.range 4).filter fun g => grpCount c g != 0).length

/-- Check 6 on the path groups and the pass (R173, R183). -/
def agreeGroup (c : Cfg) : List Breach :=
  ((List.range 4).flatMap fun g =>
    let n := grpCount c g
    let m := grpMembers c g
    breachesWhere [((pgGroup, GROUP.MEMBERS g), n != 0 && (outR n 2 4 || !m.Nodup || m.any (fun a => motSource c a != 3)
      || (List.range g).any fun h => grpCount c h != 0 && (grpMembers c h).any fun a => m.contains a))])
  ++ (if window c < passBound c then
      ((List.range 16).filter fun a => motSource c a != 0).getLast?.toList.map fun a => (pgMot a, MOT.CFG)
    else [])

/-- Check 6 on leg l (Table 2-15, R227, R229, R231, R238, R242, R246, R266, R302). -/
def agreeLeg (c : Cfg) (l : Nat) : List Breach :=
  let p := pgPwm (l / 8)
  let j := l % 8
  let m := legMode c l
  if m = 0 then
    breachesWhere [((p, PWM.LEG_CTRL j), (legAxis c l).isSome || (legBrakeAxis c l).isSome)]
  else
    let fd := legFdiv c l
    let car := legCarrier c l
    let per := legP c l
    let fn := legFunc c l
    let mates := match legAxis c l with
      | some a => (axLegs c a).filter (· < l)
      | none => []
    let ctrl :=
      (m == 4 && (legAxis c l).isNone) || (m != 4 && (legAxis c l).isSome)
      || (fd == 0 && (decide (l < 12) || m == 4)) || (m == 4 && legAlign c l != 0)
      || (m == 4 && mates.any fun k => legFdiv c k != fd)
      || (fd != 0 && outR per 1250 125000 && (m == 1 || m == 4))
      || (car != 0 && (decide (l < 24) || !legFraction c l || legHatch c l || fd != 0))
      || (legPump c l && (m == 1 || m == 4) && (decide (per < 125000) || car != 0) && fn != 2)
      || (!legPump c l && m == 3 && legRefN c l == 0)
      || (fn != 0 && decide (l < 24)) || (fn == 2 && (chopLeg c).any fun k => decide (k < l))
      || (fd == 0 && car == 0 && m == 1 && outR (legPeriodReg c l) 1250 125000)
      || (fn == 2 && (m != 1 || !legFraction c l || !legPump c l))
      || (fn == 3 && (legBrakeAxis c l).isNone) || (fn != 3 && (legBrakeAxis c l).isSome)
    breachesWhere [
      ((p, PWM.LEG_CTRL j), ctrl),
      ((p, PWM.DEADTIME j), decide (12 ≤ l) && bt (legDead c l) 31 && !bt (legOut c l) 3),
      ((p, PWM.PHASE j), m == 4 && legPhase c l != 0) ]

/-- Switching rate of R257 in Hz. -/
def legRate (c : Cfg) (l : Nat) : Rat :=
  if legMode c l = 1 ∨ legMode c l = 4 then 250000000 / (legP c l : Rat)
  else if legMode c l = 3 ∧ !legPump c l ∧ legRefN c l ≠ 0 then 250000000 / ((legRefN c l * frameLen c : Nat) : Rat)
  else 0

/-- Check 6 on the charge pump and VGD loads (R257) and the link sum (R27), over legs 0 to 11. -/
def agreeInternal (c : Cfg) : List Breach :=
  let on := (List.range 12).filter fun l => legMode c l != 0
  let qg := fun l => ((c (pgGd (l / 6)) (GD.QG (l % 6))).toNat : Rat)
  let pump := on.filter fun l => legPump c l
  let icp : Rat := (pump.map fun l => qg l * legRate c l / 1000000 + 2 / 10).sum
  let ivgd : Rat := (on.map fun l => 2 * qg l * legRate c l / 1000000 + (if legPump c l then 0 else 1 / 10)).sum + 2 * icp + 10
  let last := fun (x : List Nat) => x.getLast?.toList.map fun l => (pgGd (l / 6), GD.QG (l % 6))
  (if 10 < icp then last pump else [])
  ++ (if 150 < ivgd then last on else [])
  ++ (if (3 : Rat) / 5 < linkSum c then on.head?.toList.map fun l => (pgPwm (l / 8), PWM.LEG_CTRL (l % 8)) else [])

/-- Defined PAGE_EVENT bits of a page (R71). -/
def eventBits (p : Nat) : Nat :=
  match pageRows p with
  | none => 0
  | some (_, rows) => match rows.find? fun r => r.off = pageEvent with
    | some r => r.mask.toNat
    | none => 0

/-- Check 6 on lane n (R71) and on its being the spare (R92). -/
def agreeLane (c : Cfg) (n : Nat) : List Breach :=
  let spare := fld (c pgSched SCHED.PLACE) 3 0 == n
  let (cb, cw) := codeRange c n
  let (db, dw) := dataRange c n
  breachesWhere [
    ((pgLane n, LANE.CODE_RANGE), decide (4096 < cb + cw)),
    ((pgLane n, LANE.DATA_RANGE), decide (2048 < db + dw)) ]
  ++ (List.range 16).flatMap fun i =>
    if !taskEn c n i then []
    else
      let w := c (pgLane n) (LANE.TASK_ENTRY i)
      breachesWhere [
        ((pgLane n, LANE.TASK_CFG i), spare),
        ((pgLane n, LANE.TASK_ENTRY i), outR (taskEntry c n i) cb (cb + cw - 1) || cw == 0
          || (taskCls c n i == 1 && !(eventBits (fld w 31 24)).testBit (fld w 20 16))) ]

/-- Check 6 on the spare lane: system tasks placed on it (R92). -/
def agreeSpare (c : Cfg) : List Breach :=
  let n := fld (c pgSched SCHED.PLACE) 3 0
  if 8 ≤ n then []
  else
    breachesWhere ((List.range 8).map fun a => ((pgAxis a, AXIS.CFG), axComm c a != 0 && axLane c a == n))
    ++ breachesWhere ((List.range 128).map fun x =>
      ((pgLoop (x / 16), LOOP.CFG 0 + 0x70 * (x % 16)), ctxEn c x && ctxLane c x == n))

/-- Debounce of field input d in ticks (R308). -/
def diDebounce (c : Cfg) (d : Nat) : Nat := usT (fld (c pgFio (FIO.DI_CFG d)) 31 16)
/-- TP_WIDTH, TP_DELAY, TP_PERIOD in ticks. -/
def tpWidth (c : Cfg) : Nat := usT (10 * fld (c pgSafe SAFE.TP_CFG) 15 8)
/-- TP_DELAY in ticks. -/
def tpDelay (c : Cfg) : Nat := usT (fld (c pgSafe SAFE.TP_CFG) 7 0)

/-- The enable bit of AX_CFG that a slot function needs: SLS, SOS, SDI. -/
def funcEnable (c : Cfg) (f a : Nat) : Bool :=
  if f = 3 then bt (axSafe c a) 12 else if f = 4 then bt (axSafe c a) 11
  else if f = 5 ∨ f = 6 then bt (axSafe c a) 10 else true

/-- Check 6 on the safety page (R291, R296, R302). -/
def agreeSafe (c : Cfg) : List Breach :=
  breachesWhere [((pgSafe, SAFE.TP_CFG), decide (tpWidth c ≤ tpDelay c))]
  ++ ((List.range 8).flatMap fun i =>
    let f := sinFunc c i
    let d := fld (sinCfg c i) 3 0
    breachesWhere [((pgSafe, SAFE.SIN_CFG i), f != 0 && (decide (diDebounce c d ≤ tpWidth c + tpDelay c)
      || (List.range i).any (fun k => sinFunc c k != 0 && fld (sinCfg c k) 3 0 == d)
      || (List.range 16).any fun a => sinHas c i a && !funcEnable c f a))])
  ++ breachesWhere ((List.range 16).map fun a =>
    ((pgSafe, SAFE.AX_CFG a), decide (8 ≤ a) && fld (axSafe c a) 12 10 != 0))

/-- Check 6 on housekeeping (R429, R430). -/
def agreeHk (c : Cfg) : List Breach :=
  let w := c pgHk HK.THR_LEGS
  let skip := fld (c pgHk HK.THROTTLE_CFG) 5 0
  breachesWhere [
    ((pgHk, HK.THROTTLE_CFG), decide (msT (c pgSched SCHED.SELFTEST_PERIOD).toNat < 48 * skip * frameLen c)),
    ((pgHk, HK.THR_LEGS), (List.range 24).any fun l => bt w l && (legMode c l == 0 || legFdiv c l == 0
      || (legAxis c l).any fun a => (axLegs c a).any fun k => !bt w k)) ]

/-- Check 6 over these pages. -/
def agreeCore (c : Cfg) : List Breach :=
  ((List.range 8).flatMap (agreeLane c)) ++ agreeSpare c ++ agreeSafe c ++ agreeHk c ++ agreeInternal c
  ++ ((List.range 8).flatMap (agreeAxis c)) ++ ((List.range 8).flatMap (agreeFb c)) ++ ((List.range 16).flatMap (agreeMot c))
  ++ agreeGroup c ++ ((List.range 32).flatMap (agreeLeg c)) ++ ((List.range 128).flatMap (agreeCtx c))
  ++ (List.range 16).flatMap (agreeSet c)

/-- Reactions Table 11-3 and its continuations permit for a source, as codes; a fixed source permits its reset code. -/
def permitted (src : Nat) : List Nat :=
  if src = srcXcheck ∨ src = srcSls ∨ src = srcSdi ∨ src = srcSos ∨ src = srcRestart ∨ src = srcSlack ∨ src = srcShareLeader
    ∨ src = srcShareCap ∨ src = srcShareMis ∨ src = srcOverrun then [2, 3]
  else if src = srcOverCur ∨ src = srcCurInv ∨ src = srcFbLost ∨ src = srcLostStep ∨ src = srcVds ∨ src = srcReconfig then [1, 2, 3]
  else if src = srcStoTest ∨ src = srcOffset ∨ src = srcXcmd ∨ src = srcCpuv ∨ src = srcSnatch ∨ src = srcRopeRange
    ∨ src = srcVfCut ∨ src = srcFlink ∨ src = srcBusoff ∨ src = srcNtInvalid ∨ src = srcNodeConf ∨ src = srcDmaBus
    ∨ src = srcDmaDesc ∨ src = srcTraceMask ∨ src = srcTempThr ∨ src = srcTjOver ∨ src = srcSupply then [0, 1, 2, 3]
  else [fld (reactReset (src / 8)) (4 * (src % 8) + 3) (4 * (src % 8))]

/-- Bits of REACTn that a write can change: the fields of sources that are not fixed (R283). -/
def reactMask (n : Nat) : Nat :=
  ((List.range 8).map fun m => if (permitted (8 * n + m)).length ≤ 1 then 0 else 15 * 16 ^ m).sum

/-- Check 7 over these pages (R142, R266, R283, R296, R299, R302). -/
def safetyCore (c : Cfg) : List Breach :=
  ((List.range 8).flatMap fun i =>
    breachesWhere [((pgSafe, SAFE.SIN_CFG i), decide (1 ≤ sinFunc c i ∧ sinFunc c i ≤ 6) && fld (sinCfg c i) 9 8 == 0)])
  ++ ((List.range 8).flatMap fun n =>
    breachesWhere [((pgSafe, SAFE.REACT n), (List.range 8).any fun m =>
      !(permitted (8 * n + m)).contains (fld (c pgSafe (SAFE.REACT n)) (4 * m + 3) (4 * m)))])
  ++ ((List.range 16).flatMap fun a =>
    let w := axSafe c a
    breachesWhere [((pgSafe, SAFE.AX_CFG a),
      (bt w 8 && axAngle c a != 1) || (fld w 12 9 != 0 && !bt w 8)
      || (axHoist c a && axComm c a != 0 && (!hasBrake c a || (brakeSlots c a).isEmpty)))])
  ++ (List.range 8).flatMap fun a =>
    breachesWhere [((pgAxis a, AXIS.CFG), axHoist c a && axComm c a != 0 && (axAngle c a == 2 || (chopLeg c).isNone))]

end Sys2Proof.Machine
end

