-- ==== Sys2Proof/Machine/RulesRest.lean ====
section
/-!
DEFINITION. Checks 2 to 7 of Table 2-15 for the pages of chapters 8, 12, 14, 15, 16 and 17: hoist, field I/O, CAN, Bilva, network
time, DMA, tracing and the host port; and what their settings say (descriptors, share slots, probes).
-/
namespace Sys2Proof.Machine

/-! Hoist (Tables 8-5 to 8-7). -/

/-- ROPE_CFG of model r. -/
def ropeCfg (c : Cfg) (r : Nat) : Word := c pgHoist (HOIST.ROPE_CFG r)
/-- EN of model r. -/
def ropeEn (c : Cfg) (r : Nat) : Bool := bt (ropeCfg c r) 0
/-- AXIS of model r. -/
def ropeAxis (c : Cfg) (r : Nat) : Nat := fld (ropeCfg c r) 6 4
/-- The model bound to a drive axis. -/
def axRope (c : Cfg) (a : Nat) : Option Nat := (List.range 4).find? fun r => ropeEn c r && ropeAxis c r == a
/-- SHARE_CFG of group g. -/
def shareCfg (c : Cfg) (g : Nat) : Word := c pgHoist (HOIST.SHARE_CFG g)
/-- EN of group g. -/
def shareEn (c : Cfg) (g : Nat) : Bool := bt (shareCfg c g) 0
/-- SPAN = NET. -/
def shareNet (c : Cfg) (g : Nat) : Bool := bt (shareCfg c g) 1
/-- LEADER. -/
def shareLeader (c : Cfg) (g : Nat) : Bool := bt (shareCfg c g) 2
/-- Slot i of group g. -/
def slotW (c : Cfg) (g i : Nat) : Word := c pgHoist (HOIST.SLOT g i)
/-- WEIGHT of a slot. -/
def slotWeight (c : Cfg) (g i : Nat) : Nat := fld (slotW c g i) 31 16
/-- NODE of a slot. -/
def slotNode (c : Cfg) (g i : Nat) : Nat := fld (slotW c g i) 15 6
/-- AXIS of a slot. -/
def slotAxis (c : Cfg) (g i : Nat) : Nat := fld (slotW c g i) 2 0
/-- Node number of the device (R352). -/
def nodeNo (c : Cfg) : Nat := fld (c pgBilva BILVA.CFG) 25 16
/-- Slots in use of group g. -/
def slotsUsed (c : Cfg) (g : Nat) : List Nat :=
  if shareEn c g then (List.range 32).filter fun i => slotWeight c g i != 0 else []
/-- Local slots of group g (R204). -/
def slotsLocal (c : Cfg) (g : Nat) : List Nat := (slotsUsed c g).filter fun i => slotNode c g i == nodeNo c
/-- Local member axes of group g. -/
def shareAxes (c : Cfg) (g : Nat) : List Nat := (slotsLocal c g).map (slotAxis c g)
/-- The share group and slot of a local axis. -/
def axShare (c : Cfg) (a : Nat) : Option (Nat × Nat) :=
  ((List.range 2).flatMap fun g => (slotsLocal c g).map fun i => (g, i)).find? fun x => slotAxis c x.1 x.2 == a
/-- RESCUE_CFG. -/
def rescueCfg (c : Cfg) : Word := c pgHoist HOIST.RESCUE_CFG
/-- Rescue in use. -/
def rescueEn (c : Cfg) : Bool := bt (rescueCfg c) 31
/-- Rescue axis. -/
def rescueAxis (c : Cfg) : Nat := fld (rescueCfg c) 10 8
/-- Lane of the converter task. -/
def rescueLane (c : Cfg) : Nat := fld (rescueCfg c) 14 12
/-- Converter legs. -/
def convLegs (c : Cfg) : List Nat := if rescueEn c then ((List.range 4).filter fun n => bt (rescueCfg c) n).map (· + 24) else []
/-- Landings in use. -/
def landings (c : Cfg) : Nat := fld (c pgHoist HOIST.LANDINGS) 5 0
/-- Landing n, Q48.16. -/
def landing (c : Cfg) (n : Nat) : Int := pair64 (c pgHoist (HOIST.LAND_LO n)) (c pgHoist (HOIST.LAND_HI n))
/-- STEPS of the ladder of axis a. -/
def ladSteps (c : Cfg) (a : Nat) : Nat := fld (c pgHoist (HOIST.LADDER a)) 1 0
/-- OV_ASC and OV_STO in mV. -/
def ovAsc (c : Cfg) : Nat := fld (c pgHoist HOIST.OV_ASC) 19 0
/-- OV_STO in mV. -/
def ovSto (c : Cfg) : Nat := fld (c pgHoist HOIST.OV_STO) 19 0
/-- Longest frame allowed under R18. -/
def longFrame (c : Cfg) : Nat := frameLen c + (netMode c).toNat

/-- HOIST: R203, R219, R222, Tables 8-6 and 8-7. -/
def rangeHoist (c : Cfg) : List Nat :=
  let h := fun o => (c pgHoist o)
  ((List.range 4).flatMap fun r =>
    if !ropeEn c r then []
    else offsWhere [
      (HOIST.ROPE_CFG r, outR (fld (ropeCfg c r) 13 8) 1 32),
      (HOIST.TRAVEL_NM r, (h (HOIST.TRAVEL_NM r)).toNat == 0),
      (HOIST.LEN_MIN r, decide ((h (HOIST.LEN_MIN r)).toNat < 100)
        || decide ((h (HOIST.LEN_MAX r)).toNat ≤ (h (HOIST.LEN_MIN r)).toNat)),
      (HOIST.EA_FALL r, (h (HOIST.EA_FALL r)).toNat == 0),
      (HOIST.MASS_L r, (h (HOIST.MASS_L r)).toNat == 0),
      (HOIST.MASS_M r, (h (HOIST.MASS_M r)).toNat == 0),
      (HOIST.OBS_BW r, decide (fld (h (HOIST.OBS_BW r)) 15 0 < 10)),
      (HOIST.DAMP_MAX r, fld (ropeCfg c r) 31 16 != 0 && bt (h (HOIST.DAMP_MAX r)) 31),
      (HOIST.SLACK r, fld (h (HOIST.SLACK r)) 31 24 == 0),
      (HOIST.SNATCH r, fld (h (HOIST.SNATCH r)) 31 24 == 0) ])
  ++ ((List.range 2).flatMap fun g =>
    if !shareEn c g then []
    else offsWhere [
      (HOIST.SHARE_CFG g, fld (shareCfg c g) 23 16 == 0),
      (HOIST.SRC g, shareLeader c g && badSel (fld (h (HOIST.SRC g)) 15 0)),
      (HOIST.GROUP_T_FS g, notPos (h (HOIST.GROUP_T_FS g))),
      (HOIST.STAT_CFG g, shareNet c g && (decide (fld (h (HOIST.STAT_CFG g)) 15 8 < 2) || fld (h (HOIST.STAT_CFG g)) 7 0 == 0)) ])
  ++ (if rescueEn c then
      let n := landings c
      offsWhere [
        (HOIST.TRIG_TIME, outR (fld (h HOIST.TRIG_TIME) 31 16) 100 60000 || outR (fld (h HOIST.TRIG_TIME) 15 0) 1 10000),
        (HOIST.BAT_SRC, decide (16 ≤ fld (h HOIST.BAT_SRC) 7 0) && fld (h HOIST.BAT_SRC) 7 0 != 0xFE),
        (HOIST.CONV_UDC, outR (fld (h HOIST.CONV_UDC) 19 0) 10000 1000000),
        (HOIST.CONV_RAMP, fld (h HOIST.CONV_RAMP) 15 0 == 0),
        (HOIST.TEST_TIMES, outR (fld (h HOIST.TEST_TIMES) 15 0) 20 5000),
        (HOIST.RESCUE_V, notPos (h HOIST.RESCUE_V)),
        (HOIST.RESCUE_ACC, (h HOIST.RESCUE_ACC).toNat == 0),
        (HOIST.LANDINGS, outR n 2 32) ]
      ++ offsWhere ((List.range (min n 32)).map fun i =>
        (HOIST.LAND_LO i, i != 0 && decide (landing c i ≤ landing c (i - 1))))
    else [])
  ++ offsWhere [(HOIST.OV_ASC, ((List.range 8).any fun a => decide (2 ≤ ladSteps c a))
      && !(decide (0 < ovAsc c) && decide (ovAsc c < ovSto c)))]

/-- Check 3 on the hoist page (R203, R210, R219). -/
def stateHoist (s : State) : List Breach :=
  let c := s.force
  let d := s.cand
  let moving := fun a => (s.ax a).state.moving
  ((List.range 4).flatMap fun r =>
    let mv := (ropeEn c r && moving (ropeAxis c r)) || (ropeEn d r && moving (ropeAxis d r))
    breachesWhere [
      ((pgHoist, HOIST.ROPE_CFG r), mv && s.chgIn pgHoist (HOIST.ROPE_CFG r) 0x73),
      ((pgHoist, HOIST.TRAVEL_NM r), mv && s.chg pgHoist (HOIST.TRAVEL_NM r)),
      ((pgHoist, HOIST.LEN0 r), mv && s.chg pgHoist (HOIST.LEN0 r)) ])
  ++ ((List.range 2).flatMap fun g =>
    let mv := (shareAxes c g).any moving
    breachesWhere ((HOIST.SHARE_CFG g :: HOIST.GROUP_T_FS g :: (List.range 32).map (HOIST.SLOT g)).map fun o =>
      ((pgHoist, o), mv && s.chg pgHoist o)))
  ++ (if s.rescue.sq = .idle ∨ s.rescue.sq = .done ∨ s.rescue.sq = .aborted then []
    else breachesWhere ((List.range 88).map fun i =>
      ((pgHoist, HOIST.RESCUE_CFG + 4 * i), s.chg pgHoist (HOIST.RESCUE_CFG + 4 * i))))

/-- Check 6 on the rope models (R196, R197). -/
def agreeRope (c : Cfg) (r : Nat) : List Breach :=
  if !ropeEn c r then []
  else breachesWhere [
    ((pgHoist, HOIST.ROPE_CFG r), axComm c (ropeAxis c r) == 0
      || (List.range r).any fun q => ropeEn c q && ropeAxis c q == ropeAxis c r),
    ((pgHoist, HOIST.OBS_BW r), decide (5 * 250000000 < fld (c pgHoist (HOIST.OBS_BW r)) 15 0 * longFrame c)) ]

/-- Check 6 on a share group (R204, R210). -/
def agreeShare (c : Cfg) (g : Nat) : List Breach :=
  if !shareEn c g then []
  else
    let used := slotsUsed c g
    let loc := slotsLocal c g
    let nodesTo := fun (i : Nat) => ((used.filter (· ≤ i)).map (slotNode c g)).dedup.length
    breachesWhere ([
      ((pgHoist, HOIST.SHARE_CFG g), shareNet c g && (!netMode c || decide (frameLen c < 62500))),
      ((pgHoist, HOIST.SRC g), shareLeader c g && selKind (fld (c pgHoist (HOIST.SRC g)) 15 0) == 0) ]
    ++ used.map fun i =>
      let a := slotAxis c g i
      let isLoc := loc.contains i
      ((pgHoist, HOIST.SLOT g i),
        (isLoc && decide (4 ≤ (loc.filter (· < i)).length))
        || (decide (8 < nodesTo i) && decide (nodesTo i ≠ ((used.filter (· < i)).map (slotNode c g)).dedup.length))
        || (!shareNet c g && !isLoc)
        || (isLoc && (((loc.filter (· < i)).map (slotAxis c g)).contains a
          || (List.range g).any (fun k => (shareAxes c k).contains a)
          || axComm c a == 0
          || (List.range 128).any fun x => ctxEn c x && ctxDst c x == 0x3000 + 16 * a))))

/-- Check 6 on the rescue (R219) and on a spare lane that holds its converter task (R92). -/
def agreeRescue (c : Cfg) : List Breach :=
  if !rescueEn c then []
  else
    let a := rescueAxis c
    breachesWhere [((pgHoist, HOIST.RESCUE_CFG),
      !stateEn c 2 || !bt (c pgSched SCHED.ESSENTIAL_AXES) a || motSource c a != 1
      || !((List.range 128).any fun x => ctxEn c x && ctxAxis c x == some a
        && [ctxSp c x, ctxFbS c x, ctxFf c x].any fun q => q == 0x3000 + 16 * a + 5 || q == 0x3000 + 16 * a + 6)
      || (convLegs c).isEmpty || (convLegs c).any (fun l => !legFraction c l)
      || (List.range 2).any (fun g => shareNet c g && (shareAxes c g).contains a)
      || fld (c pgSched SCHED.PLACE) 3 0 == rescueLane c)]

/-- Check 7 on the hoist page (R219, R222). -/
def safetyHoist (c : Cfg) : List Breach :=
  let a := rescueAxis c
  breachesWhere ([((pgHoist, HOIST.RESCUE_CFG), rescueEn c && (!hasBrake c a || !axHoist c a || axAngle c a == 2))]
  ++ (List.range 8).map fun b =>
    ((pgHoist, HOIST.LADDER b), axHoist c b && axComm c b != 0 && (decide (ladSteps c b < 2)
      || (ladSteps c b == 2 && (axComm c b != 1 || (c (pgAxis b) AXIS.PSI).toNat == 0)))))

/-! Network time and time pulses (Tables 14-10 and 14-11). -/

/-- ROLE: 0 SLAVE, 1 GRANDMASTER, 2 BRIDGE. -/
def ntRole (c : Cfg) : Nat := fld (c pgTime TIME.NT_CFG) 1 0
/-- SYNC_PORT. -/
def syncPort (c : Cfg) : Nat := fld (c pgTime TIME.NT_CFG) 2 2
/-- Bilva on a port. -/
def bilvaEn (c : Cfg) (p : Nat) : Bool := bt (c pgBilva BILVA.CFG) p
/-- BRIDGE. -/
def bridgeEn (c : Cfg) : Bool := bt (c pgBilva BILVA.CFG) 8
/-- CAN.CFG of port p. -/
def canCfg (c : Cfg) (p : Nat) : Word := c (pgCan p) CAN.CFG
/-- EN of port p. -/
def canEn (c : Cfg) (p : Nat) : Bool := bt (canCfg c p) 0
/-- MODE: 0 NORMAL, 1 RESTRICTED, 2 MONITOR, 3 LOOPBACK. -/
def canMode (c : Cfg) (p : Nat) : Nat := fld (canCfg c p) 2 1
/-- FD_EN. -/
def canFd (c : Cfg) (p : Nat) : Bool := bt (canCfg c p) 3
/-- MODE of time pulse n: 0 OFF, 1 NET, 2 LOCAL, 3 FRAME. -/
def tpoMode (c : Cfg) (n : Nat) : Nat := fld (c pgTime (TIME.TPO_CFG n)) 1 0

/-- TIME, network part: Tables 14-10 and 14-11, R370. -/
def rangeNt (c : Cfg) : List Nat :=
  let r := fun o => c pgTime o
  offsWhere [
    (TIME.NT_CFG, ntRole c == 3 || outR (fld (r TIME.NT_CFG) 31 16) 1 1000),
    (TIME.NT_TIMES, outR (fld (r TIME.NT_TIMES) 31 16) 100 60000 || outR (fld (r TIME.NT_TIMES) 15 0) 100 10000),
    (TIME.PATH_DELAY, decide (5000 < fld (r TIME.PATH_DELAY) 31 16) || decide (5000 < fld (r TIME.PATH_DELAY) 15 0)),
    (TIME.ALIGN_OFS, netMode c && decide (frameLen c * 4 ≤ (r TIME.ALIGN_OFS).toNat)) ]
  ++ (List.range 4).flatMap fun n =>
    let m := tpoMode c n
    let p := (r (TIME.TPO_PERIOD n)).toNat
    let w := (r (TIME.TPO_WIDTH n)).toNat
    let o := (r (TIME.TPO_OFS n)).toNat
    let grid := m == 1 || m == 2
    offsWhere [
      (TIME.TPO_PERIOD n, grid && (decide (p < 1000) || (m == 2 && p % 4 != 0))),
      (TIME.TPO_WIDTH n, (grid && (decide (w < 20) || decide (p < w + 20) || (m == 2 && w % 4 != 0)))
        || (m == 3 && (decide (w < 20) || decide (shortFrame c * 4 < w + 20)))),
      (TIME.TPO_OFS n, grid && (decide (p ≤ o) || (m == 2 && o % 4 != 0))) ]

/-- Check 3 on network time: while a STRIKE_AT is armed (chapter 14). -/
def stateNt (s : State) : List Breach :=
  let armed := match s.stage.due with
    | some (.net _) => true
    | _ => false
  breachesWhere [
    ((pgTime, TIME.NT_CFG), armed && s.chgIn pgTime TIME.NT_CFG 7),
    ((pgTime, TIME.PATH_DELAY), armed && s.chg pgTime TIME.PATH_DELAY) ]

/-- Check 6 on network time (R358). -/
def agreeNt (c : Cfg) : List Breach :=
  let role := ntRole c
  let ports := if role = 1 then (List.range 2).filter (bilvaEn c) else if role = 2 then [0, 1] else []
  breachesWhere [((pgTime, TIME.NT_CFG), ports.any fun p => canMode c p != 0)]

/-! Field I/O. -/

/-- FIO: R308. -/
def rangeFio (c : Cfg) : List Nat :=
  offsWhere ((List.range 16).map fun d => (FIO.DI_CFG d, fld (c pgFio (FIO.DI_CFG d)) 31 16 == 0))

/-- Claims on field outputs, with the registers that make them. -/
def doClaims (c : Cfg) : List (Nat × Breach) :=
  ((claimsCore c).filterMap fun x => if x.1 = 3 then some (x.2.1, x.2.2) else none)
  ++ (if rescueEn c && bt (rescueCfg c) 27 then [(fld (rescueCfg c) 26 24, (pgHoist, HOIST.RESCUE_CFG))] else [])

/-- Check 6 on field outputs: a claim on an output with EN = 0 (R311). -/
def agreeFio (c : Cfg) : List Breach :=
  breachesWhere [((pgFio, FIO.DO_CFG), (doClaims c).any fun x => !bt (c pgFio FIO.DO_CFG) x.1)]

/-! CAN and Bilva. -/

/-- Time quanta times BRP of a nominal bit, in CAN clocks. -/
def nomClocks (c : Cfg) (p : Nat) : Nat :=
  let w := c (pgCan p) CAN.NBT
  (fld w 4 0 + 1) * (3 + fld w 24 16 + fld w 14 8)
/-- CAN clocks of a data bit. -/
def datClocks (c : Cfg) (p : Nat) : Nat :=
  let w := c (pgCan p) CAN.DBT
  (fld w 4 0 + 1) * (3 + fld w 20 16 + fld w 11 8)

/-- CAN p: R342, Tables 14-7 and 14-8. -/
def rangeCan (c : Cfg) (p : Nat) : List Nat :=
  if !canEn c p then []
  else
    let n := c (pgCan p) CAN.NBT
    let d := c (pgCan p) CAN.DBT
    offsWhere [
      (CAN.CFG, fld (canCfg c p) 10 9 == 3),
      (CAN.NBT, outR (fld n 24 16) 1 255 || decide (nomClocks c p < 80) || decide (fld n 14 8 < fld n 31 25)),
      (CAN.DBT, canFd c p && (decide (datClocks c p < 10) || decide (nomClocks c p < datClocks c p)
        || decide (fld d 11 8 < fld d 27 24))),
      (CAN.RX_WIN, outR (fld (c (pgCan p) CAN.RX_WIN) 7 0) 1 128) ]

/-! DMA (Tables 15-1 to 15-6). -/

/-- A staged register of channel ch. -/
def dmaReg (c : Cfg) (ch o : Nat) : Word := c (pgDmach (ch / 8)) (o + 0x20 * (ch % 8))
/-- CH_CFG. -/
def dmaCfg (c : Cfg) (ch : Nat) : Word := dmaReg c ch (DMACH.CH_CFG 0)
/-- EN. -/
def dmaEn (c : Cfg) (ch : Nat) : Bool := bt (dmaCfg c ch) 0
/-- TRIG: 0 SOFT, 1 REQUEST, 2 FRAME, 3 PERIOD, 4 CHAIN. -/
def dmaTrig (c : Cfg) (ch : Nat) : Nat := fld (dmaCfg c ch) 10 8
/-- REQ. -/
def dmaReq (c : Cfg) (ch : Nat) : Nat := fld (dmaCfg c ch) 23 16
/-- BUF_SIDE = 1: the source is buffered. -/
def dmaBufSrc (c : Cfg) (ch : Nat) : Bool := bt (dmaCfg c ch) 5
/-- CHAIN_SRC. -/
def dmaChain (c : Cfg) (ch : Nat) : Nat := fld (dmaCfg c ch) 31 26
/-- RING_BASE. -/
def ringBase (c : Cfg) (ch : Nat) : Nat := fld (dmaReg c ch (DMACH.RING_BASE 0)) 23 0
/-- RING_LEN. -/
def ringLen (c : Cfg) (ch : Nat) : Nat := fld (dmaReg c ch (DMACH.RING_LEN 0)) 8 0
/-- BUF_BASE. -/
def bufBase (c : Cfg) (ch : Nat) : Nat := fld (dmaReg c ch (DMACH.BUF_BASE 0)) 23 0
/-- BUF_BYTES. -/
def bufBytes (c : Cfg) (ch : Nat) : Nat := fld (dmaReg c ch (DMACH.BUF_BYTES 0)) 23 0
/-- SERVICE. -/
def dmaService (c : Cfg) : Bool := bt (c pgDma DMA.CFG) 0

/-- Word i of a descriptor. -/
def dW (d : List Word) (i : Nat) : Word := d.getD i 0
/-- SRC_ADDR, DST_ADDR. -/
def dSrc (d : List Word) : Nat := fld (dW d 0) 23 0
/-- DST_ADDR. -/
def dDst (d : List Word) : Nat := fld (dW d 1) 23 0
/-- Element size in bytes. -/
def dSize (d : List Word) : Nat := 2 ^ fld (dW d 2) 17 16
/-- COUNT. -/
def dCount (d : List Word) : Nat := fld (dW d 2) 15 0
/-- SRC_STRIDE. -/
def dSrcStep (d : List Word) : Int := sfld (dW d 3) 15 0
/-- DST_STRIDE. -/
def dDstStep (d : List Word) : Int := sfld (dW d 3) 31 16
/-- NEXT. -/
def dNext (d : List Word) : Nat := fld (dW d 4) 8 0
/-- Beats per burst. -/
def dBurst (d : List Word) : Nat := fld (dW d 5) 7 4 + 1
/-- VALID. -/
def dValid (d : List Word) : Bool := bt (dW d 5) 0

/-- Extent of a descriptor on its buffered side, first and last byte (R376). -/
def dExtent (service bufSrc : Bool) (d : List Word) : Int × Int :=
  let a : Int := if bufSrc then dSrc d else dDst d
  let st := if bufSrc then dSrcStep d else dDstStep d
  let n : Int := dCount d
  let w : Int := dSize d
  if service then (a, a + 4 * (ceilDiv (dCount d * dSize d) 4 : Int) - 1)
  else if 0 < st then (a, a + (n - 1) * st + w - 1)
  else (a + (n - 1) * st, a + w - 1)

/-- Words of a stored sample (R396): position probes take two, every probe two in stipple mode. -/
def traceWords (c : Cfg) : Nat :=
  ((List.range 16).map fun p =>
    let w := c pgTrace (TRACE.PROBE_CFG p)
    if !bt w 31 then 0 else if selPos (fld w 15 0) || bt (c pgTrace TRACE.CFG) 9 then 2 else 1).sum

/-- The CAN ports that route to DMA channel ch (R345). -/
def canRoutes (c : Cfg) (ch : Nat) : List Nat :=
  (List.range 2).filter fun p => canEn c p && fld (canCfg c p) 10 9 != 0 && fld (canCfg c p) 21 16 == ch

/-- A descriptor is valid for channel ch (R377, R405). -/
def descValid (c : Cfg) (ch : Nat) (d : List Word) : Bool :=
  let w := dSize d
  let n := dCount d
  let line := dmaReq c ch != 0
  let bufSrc := dmaBufSrc c ch
  let bst := if bufSrc then dSrcStep d else dDstStep d
  let (lo, hi) := dExtent (dmaService c) bufSrc d
  let side := fun (a : Nat) (st : Int) =>
    a % w == 0 && (n == 1 || st % (w : Int) == 0) && (decide (0x100000 ≤ a) || (w == 4 && (st == 4 || st == 0)))
  fld (dW d 2) 17 16 != 3 && n != 0 && decide (dNext d < ringLen c ch)
    && (line || side (dSrc d) (dSrcStep d)) && side (dDst d) (dDstStep d)
    && decide (w ≤ bst.natAbs)
    && decide ((bufBase c ch : Int) ≤ lo) && decide (hi < (bufBase c ch : Int) + bufBytes c ch)
    && ((canRoutes c ch).isEmpty || (w == 4 && decide (80 ≤ n * 4)))
    && (dmaReq c ch != 0x10 || decide (64 ≤ n * w)) && (dmaReq c ch != 0x11 || decide (4 * traceWords c ≤ n * w))

/-- The descriptors of the ring as they stand (R375). -/
def State.ringDescs (s : State) (c : Cfg) (ch : Nat) : List (List Word) :=
  (List.range (ringLen c ch)).map fun i => s.wordsAt (ringBase c ch + 32 * i) 8

/-- The memory window or register page an address lies in, as a number; none where unmapped. -/
def windowOf (a : Nat) : Option Nat :=
  if a < 0x100000 then (if (pageRows (pageOf a)).isSome then some (pageOf a) else none)
  else if isPlate a then some 0x1000
  else if isLaneStore a then some (0x1001 + (a - 0x180000) / 0x8000)
  else if isTraceBuf a then some 0x1010
  else if isMsgMem a then some 0x1011
  else if isLogWin a then some 0x1012
  else none

/-- DMA and DMACH channel ch: Table 15-2 and Table 15-6; offsets in the channel's page. -/
def rangeDmaCh (c : Cfg) (ch : Nat) : List Nat :=
  if !dmaEn c ch then []
  else
    let j := ch % 8
    let q := dmaReq c ch
    let pace := dmaReg c ch (DMACH.FRAME_PACE 0)
    let base := ringBase c ch
    offsWhere [
      (DMACH.CH_CFG j, !(q == 0 || q == 1 || q == 2 || q == 0x10 || q == 0x11)),
      (DMACH.RING_BASE j, base % 32 != 0 || !isPlate base || outR (ringLen c ch) 1 256
        || decide (0x180000 < base + 32 * ringLen c ch) || decide (5 ≤ dmaTrig c ch)
        || (dmaTrig c ch == 3 && decide (fld (dmaReg c ch (DMACH.PERIOD 0)) 23 0 < 250))),
      (DMACH.FRAME_PACE j, dmaTrig c ch == 2 && (decide (6 < fld pace 10 8) || decide (2 ^ fld pace 10 8 ≤ fld pace 21 16))) ]

/-- DMA: Table 15-5. -/
def rangeDma (c : Cfg) : List Nat := offsWhere [(DMA.CFG, decide (10000 < fld (c pgDma DMA.CFG) 31 16))]

/-- Check 3 on DMA: SERVICE = 1 (R386). -/
def stateDma (s : State) : List Breach :=
  breachesWhere [((pgDma, DMA.CFG), s.chgIn pgDma DMA.CFG 1 && dmaService s.cand
    && ((s.axes.any fun x => x.state ≠ .disabled)
      || (List.range 32).any fun l => legMode s.force l != 0 || legMode s.cand l != 0))]

/-- A CHAIN_SRC walk from channel ch returns to x within n steps. -/
def chainCycle (c : Cfg) : Nat → Nat → Nat → Bool
  | 0, _, _ => false
  | n + 1, x, ch => dmaTrig c ch == 4 && (dmaChain c ch == x || (dmaEn c (dmaChain c ch) && chainCycle c n x (dmaChain c ch)))

/-- Two byte ranges meet. -/
def meets (a n b m : Nat) : Bool := decide (a < b + m) && decide (b < a + n)

/-- Check 6 on DMA channel ch (Table 15-2, R377, R405). -/
def agreeDmaCh (s : State) (c : Cfg) (ch : Nat) : List Breach :=
  if !dmaEn c ch then []
  else
    let p := pgDmach (ch / 8)
    let j := ch % 8
    let b := ringBase c ch
    let n := 32 * ringLen c ch
    let others := (List.range 64).filter fun k => dmaEn c k
    breachesWhere [
      ((p, DMACH.CH_CFG j), dmaTrig c ch == 4 && (dmaChain c ch == ch || !dmaEn c (dmaChain c ch) || chainCycle c 64 ch ch)),
      ((p, DMACH.RING_BASE j),
        !(s.ringDescs c ch).all (descValid c ch)
        || (decide (0 < bufBytes c ch) && (windowOf (bufBase c ch) == none
          || windowOf (bufBase c ch) != windowOf (bufBase c ch + bufBytes c ch - 1)))
        || others.any (fun k => (k != ch && meets b n (ringBase c k) (32 * ringLen c k)) || meets b n (bufBase c k) (bufBytes c k))
        || (dmaTrig c ch == 1) != (dmaReq c ch != 0)) ]

/-- Claims of request lines (Table 15-2), kind 5. -/
def claimsDma (c : Cfg) : List Claim :=
  (List.range 64).flatMap fun ch =>
    if dmaEn c ch && dmaReq c ch != 0 then [((5, dmaReq c ch, (pgDmach (ch / 8), DMACH.CH_CFG (ch % 8))) : Claim)] else []

/-- Check 6 on CAN p and Bilva (R342, R345, R353, R355). -/
def agreeCan (s : State) (c : Cfg) : List Breach :=
  let b := c pgBilva BILVA.CFG
  breachesWhere (((List.range 2).map fun p =>
    ((pgCan p, CAN.CFG), canEn c p && ((canFd c p && decide (datClocks c p < 40) && !bt (canCfg c p) 6)
      || (fld (canCfg c p) 10 9 != 0 && dmaEn c (fld (canCfg c p) 21 16)
        && (s.ringDescs c (fld (canCfg c p) 21 16)).any fun d => decide (dCount d * dSize d < 80)))))
  ++ [((pgBilva, BILVA.CFG), ((List.range 2).any fun p => bilvaEn c p && !canFd c p)
      || (bt b 8 && !((List.range 2).all fun p => bilvaEn c p && canMode c p == 0)))])

/-! Tracing (Tables 16-1 to 16-7). -/

/-- Enabled probes. -/
def probes (c : Cfg) : List Nat := (List.range 16).filter fun p => bt (c pgTrace (TRACE.PROBE_CFG p)) 31
/-- Selector of a probe. -/
def probeSel (c : Cfg) (p : Nat) : Nat := fld (c pgTrace (TRACE.PROBE_CFG p)) 15 0
/-- EN of TRACE.CFG. -/
def traceEn (c : Cfg) : Bool := bt (c pgTrace TRACE.CFG) 0
/-- CLK: 0 FRAME, 1 LOCAL, 2 NET. -/
def traceClk (c : Cfg) : Nat := fld (c pgTrace TRACE.CFG) 2 1
/-- STIPPLE. -/
def traceStipple (c : Cfg) : Bool := bt (c pgTrace TRACE.CFG) 9
/-- Stored-sample period in ticks (R396). -/
def tracePs (c : Cfg) : Nat :=
  (if traceClk c = 0 then frameLen c * 2 ^ fld (c pgTrace TRACE.FRAME_PACE) 10 8 else fld (c pgTrace TRACE.PERIOD) 23 0)
    * (if traceStipple c then fld (c pgTrace TRACE.REDUCE) 15 0 else 1)
/-- SEG_COUNT, SEG_WORDS, POST, PRE_MIN. -/
def segCount (c : Cfg) : Nat := fld (c pgTrace TRACE.CFG) 20 16
/-- SEG_WORDS. -/
def segWords (c : Cfg) : Nat := fld (c pgTrace TRACE.SEG_WORDS) 17 0
/-- POST. -/
def tracePost (c : Cfg) : Nat := fld (c pgTrace TRACE.POST) 17 0
/-- PRE_MIN. -/
def tracePreMin (c : Cfg) : Nat := fld (c pgTrace TRACE.PRE_MIN) 17 0
/-- Capacity of a segment in stored samples (R397). -/
def segCap (c : Cfg) : Nat := if traceWords c = 0 then 0 else (segWords c - 16) / traceWords c
/-- TU_CFG of unit u. -/
def tuCfg (c : Cfg) (u : Nat) : Word := c pgTrace (TRACE.TU_CFG u)
/-- EN and KIND of unit u. -/
def tuEn (c : Cfg) (u : Nat) : Bool := bt (tuCfg c u) 31
/-- KIND. -/
def tuKind (c : Cfg) (u : Nat) : Nat := fld (tuCfg c u) 30 28
/-- COND. -/
def tuCond (c : Cfg) (u : Nat) : Nat := fld (tuCfg c u) 27 24
/-- INDEX. -/
def tuIdx (c : Cfg) (u : Nat) : Nat := fld (tuCfg c u) 7 0
/-- MASK_CFG of unit m. -/
def maskCfg (c : Cfg) (m : Nat) : Word := c pgTrace (TRACE.MASK_CFG m)
/-- LEN. -/
def maskLen (c : Cfg) (m : Nat) : Nat := fld (maskCfg c m) 27 16 + 1
/-- MASK_BASE. -/
def maskBase (c : Cfg) (m : Nat) : Nat := fld (c pgTrace (TRACE.MASK_BASE m)) 23 0

/-- TRACE: R394 to R403, Table 16-7. -/
def rangeTrace (c : Cfg) : List Nat :=
  if !traceEn c then []
  else
    let pace := c pgTrace TRACE.FRAME_PACE
    offsWhere [
      (TRACE.CFG, traceClk c == 3 || outR (segCount c) 1 16),
      (TRACE.PERIOD, traceClk c != 0 && decide (fld (c pgTrace TRACE.PERIOD) 23 0 < 25)),
      (TRACE.FRAME_PACE, traceClk c == 0 && (decide (6 < fld pace 10 8) || decide (2 ^ fld pace 10 8 ≤ fld pace 21 16))),
      (TRACE.REDUCE, traceStipple c && decide (fld (c pgTrace TRACE.REDUCE) 15 0 < 2)),
      (TRACE.SEG_WORDS, outR (segWords c) 64 196608 || segWords c % 16 != 0) ]
    ++ offsWhere ((probes c).map fun p =>
      (TRACE.PROBE_CFG p, if selKind (probeSel c p) = 8 then decide (3 < selIdx (probeSel c p)) else badSel (probeSel c p)))
    ++ offsWhere ((List.range 4).map fun u =>
      let k := tuKind c u
      let cd := tuCond c u
      (TRACE.TU_CFG u, tuEn c u && (decide (5 < k)
        || (k == 1 && (decide (7 < cd) || decide (15 < tuIdx c u)))
        || (k == 2 && (decide (1 < tuIdx c u) || fld (tuCfg c u) 21 16 % 4 != 0 || decide (60 < fld (tuCfg c u) 21 16)))
        || (k == 3 && (decide (4 < cd) || decide (7 < tuIdx c u))) || (k == 5 && decide (1 < cd)))))
    ++ offsWhere ((List.range 4).map fun m =>
      (TRACE.MASK_BASE m, bt (maskCfg c m) 31 && (maskBase c m % 8 != 0 || !isPlate (maskBase c m)
        || decide (0x180000 < maskBase c m + 8 * maskLen c m))))

/-- Check 3 on tracing (R399). -/
def stateTrace (s : State) : List Breach :=
  if s.trace.state = .pre ∨ s.trace.state = .post then
    breachesWhere (((pgTime, TIME.FRAME_LEN), traceClk s.force == 0 && s.chg pgTime TIME.FRAME_LEN)
      :: (List.range 80).map fun i => ((pgTrace, TRACE.CFG + 4 * i), s.chg pgTrace (TRACE.CFG + 4 * i)))
  else []

/-- Check 6 on tracing (R396, R397, R400 to R403). -/
def agreeTrace (c : Cfg) : List Breach :=
  if !traceEn c then []
  else
    let cap := segCap c
    let post := tracePost c
    let sq := bt (c pgTrace TRACE.TRIG_CFG) 24
    let at' := fun o => (pgTrace, o)
    breachesWhere ([
      (at' TRACE.CFG, (probes c).isEmpty || decide (tracePs c < 4 * traceWords c)),
      (at' TRACE.SEG_WORDS, decide (196608 < segCount c * segWords c) || decide (cap < 2)),
      (at' TRACE.POST, decide (cap - 1 < post)),
      (at' TRACE.PRE_MIN, decide (cap - 1 - post < tracePreMin c)),
      (at' TRACE.TRIG_CFG, sq && (!tuEn c 0 || !(tuEn c 1 || tuEn c 2 || tuEn c 3))) ]
    ++ (probes c).map (fun p => (at' (TRACE.PROBE_CFG p), traceStipple c && selPos (probeSel c p)))
    ++ (List.range 4).map (fun u => (at' (TRACE.TU_CFG u), tuEn c u
        && ((tuKind c u == 2 && !canEn c (tuIdx c u))
          || (tuKind c u == 3 && (!fbAbs c (tuIdx c u)
            || ((tuCond c u == 2 || tuCond c u == 3) && fbMode c (tuIdx c u) != 7))))))
    ++ (List.range 4).map (fun m =>
      let q := probeSel c (fld (maskCfg c m) 3 0)
      (at' (TRACE.MASK_CFG m), bt (maskCfg c m) 31 && (decide (post + 1 < maskLen c m) || selPos q || selKind q == 8))))

/-! The ports. -/

/-- HOST: Table 17-6. -/
def rangeHost (c : Cfg) : List Nat := offsWhere [(HOST.CFG, decide (fld (c pgHost HOST.CFG) 15 8 < 8))]

/-! All pages. -/

/-- Check 2 on one page: offsets outside their range. -/
def rangePage (c : Cfg) (p : Nat) : List Nat :=
  if p = pgTime then rangeFrame c ++ rangeNt c
  else if p = pgSched then rangeSched c
  else if p = pgHk then rangeHk c
  else if p = pgSafe then rangeSafe c
  else if p = pgFio then rangeFio c
  else if p = pgPlink then rangePlink c
  else if p = pgHost then rangeHost c
  else if p = pgDma then rangeDma c
  else if p = pgTrace then rangeTrace c
  else if p = 0x0C ∨ p = 0x0D then rangeCan c (p - 0x0C)
  else if p = pgAdc then rangeAdc c
  else if 0x10 ≤ p ∧ p < 0x18 then rangeAxis c (p - 0x10)
  else if 0x18 ≤ p ∧ p < 0x20 then rangeFb c (p - 0x18)
  else if 0x20 ≤ p ∧ p < 0x30 then rangeMot c (p - 0x20)
  else if p = pgGroup then rangeGroup c
  else if p = pgHoist then rangeHoist c
  else if 0x34 ≤ p ∧ p < 0x38 then (List.range 8).flatMap fun j => rangeLeg c (8 * (p - 0x34) + j)
  else if 0x38 ≤ p ∧ p < 0x3A then (List.range 6).flatMap fun j => rangeGd c (6 * (p - 0x38) + j)
  else if 0x40 ≤ p ∧ p < 0x48 then (List.range 16).flatMap fun j => rangeCtx c (16 * (p - 0x40) + j)
  else if 0x48 ≤ p ∧ p < 0x50 then (List.range 8).flatMap fun j => rangeDmaCh c (8 * (p - 0x48) + j)
  else if 0x50 ≤ p ∧ p < 0x58 then rangeLane c (p - 0x50)
  else []

/-- Check 3: changes refused in the present state. -/
def checkState (s : State) : Option Breach :=
  firstBreach (stateCore s ++ stateHoist s ++ stateNt s ++ stateDma s ++ stateTrace s)

/-- Registers that use a retired field output, converter leg, lane, CAN port or battery input. -/
def retiredRest (c : Cfg) (ret : Nat → Nat → Bool) : List Breach :=
  breachesWhere ([
    ((pgBilva, BILVA.CFG), (List.range 2).any fun p => bilvaEn c p && ret 6 p),
    ((pgHoist, HOIST.RESCUE_CFG), rescueEn c && (ret 5 (rescueLane c) || (convLegs c).any (ret 4))),
    ((pgHoist, HOIST.BAT_SRC), rescueEn c && ((decide (fld (c pgHoist HOIST.BAT_SRC) 7 0 < 16)
      && ret 2 (16 + fld (c pgHoist HOIST.BAT_SRC) 7 0)) || ret 2 (16 + fld (c pgHoist HOIST.BAT_SRC) 11 8))) ]
  ++ (doClaims c).map fun x => (x.2, ret 7 x.1))

/-- Check 4. -/
def checkRetired (c : Cfg) (ret : Nat → Nat → Bool) : Option Breach := firstBreach (retiredCore c ret ++ retiredRest c ret)

/-- Claims of the rescue (R214, R311). -/
def claimsHoist (c : Cfg) : List Claim :=
  (convLegs c).map (fun l => ((0, l, (pgHoist, HOIST.RESCUE_CFG)) : Claim))
  ++ (if rescueEn c && bt (rescueCfg c) 27 then [((3, fld (rescueCfg c) 26 24, (pgHoist, HOIST.RESCUE_CFG)) : Claim)] else [])

/-- Check 5. -/
def checkClaims (c : Cfg) : Option Breach := firstBreach (laterClaims (claimsCore c ++ claimsHoist c ++ claimsDma c))

/-- Check 6. -/
def checkAgree (s : State) (c : Cfg) : Option Breach :=
  firstBreach (agreeCore c ++ agreeNt c ++ agreeFio c ++ agreeCan s c ++ agreeTrace c ++ agreeRescue c
    ++ ((List.range 4).flatMap (agreeRope c)) ++ ((List.range 2).flatMap (agreeShare c))
    ++ (List.range 64).flatMap (agreeDmaCh s c))

/-- Check 7. -/
def checkSafety (c : Cfg) : Option Breach := firstBreach (safetyCore c ++ safetyHoist c)

end Sys2Proof.Machine
end

