-- ==== Sys2Proof/Machine/LaneCode.lean ====
section
/-!
DEFINITION. Burin code: the words of lane instructions (R334 to R336, Tables 13-6 to 13-9), and what proof accepts of them: the
static rules of Table 13-10 and the bound of R338.
-/
namespace Sys2Proof.Machine

/-! Fields of an instruction word, as numbers. -/

/-- Field [lo + len - 1 : lo] of a word's number. -/
def wf (n lo len : Nat) : Nat := n / 2 ^ lo % 2 ^ len
/-- Register field. -/
def wD (n lo : Nat) : DReg := Fin.ofNat 16 (wf n lo 4)
/-- Pointer or modifier field. -/
def wP (n lo : Nat) : PReg := Fin.ofNat 8 (wf n lo 3)
/-- Accumulator field. -/
def wA (n lo : Nat) : AccReg := Fin.ofNat 4 (wf n lo 2)
/-- One bit. -/
def wB (n i : Nat) : Bool := wf n i 1 == 1

/-- Address form of format M at its place: AM, Mm, OFFSET and the bits reserved in each. -/
def formM (n : Nat) : Option AddrForm :=
  if wB n 17 then (if wf n 10 7 = 0 then some (.offs (BitVec.ofNat 10 (wf n 0 10))) else none)
  else if wf n 0 14 = 0 then some (.post (wP n 14)) else none
/-- Address form of format X. -/
def formX (n : Nat) : Option AddrForm :=
  if wB n 19 then (if wf n 18 1 = 0 ∧ wf n 6 2 = 0 then some (.offs (BitVec.ofNat 10 (wf n 8 10))) else none)
  else if wf n 6 10 = 0 then some (.post (wP n 16)) else none

/-- ALU functions (Table 13-8); FN 0x00 is NOP, all fields 0. -/
def decodeAlu (l : LaneIx) (n : Nat) : Option Instr :=
  let d := wD n 22
  let a := wD n 18
  let b := wD n 14
  if wf n 6 4 ≠ 0 then none
  else match wf n 0 6 with
  | 0 => if n = 0 then some (.nop l) else none
  | 1 => some (.add l d a b)
  | 2 => some (.sub l d a b)
  | 3 => some (.adds l d a b)
  | 4 => some (.subs l d a b)
  | 5 => some (.and l d a b)
  | 6 => some (.or l d a b)
  | 7 => some (.xor l d a b)
  | 8 => some (.ash l d a b)
  | 9 => some (.lsh l d a b)
  | 10 => some (.min l d a b)
  | 11 => some (.max l d a b)
  | 12 => some (.abs l d a)
  | 13 => some (.neg l d a)
  | 14 => some (.slt l d a b)
  | 15 => some (.sltu l d a b)
  | 16 => some (.seq l d a b)
  | 17 => some (.selnz l d a b (wD n 10))
  | 18 => some (.mul l d a b)
  | 19 => some (.cls l d a)
  | 20 => some (.mov l d a)
  | _ => none

/-- Accumulator functions (Table 13-9). -/
def decodeAcc (l : LaneIx) (n : Nat) : Option Instr :=
  let x := wA n 24
  let y := wA n 22
  let a := wD n 18
  let b := wD n 14
  if wf n 6 2 ≠ 0 then none
  else match wf n 0 6 with
  | 1 => some (.mova l x a b)
  | 2 => some (.adda l x y)
  | 3 => some (.suba l x y)
  | 4 => some (.asha l x (BitVec.ofNat 6 (wf n 8 6)))
  | 5 => some (.clra l x)
  | 6 => some (.addad l x a b)
  | 7 => some (.subad l x a b)
  | 8 => some (.rdl l a x)
  | 9 => some (.rdh l a x)
  | 10 => some (.rdg l a x)
  | 11 => some (.sata l x)
  | _ => none

/-- PREG functions (Table 13-7). -/
def decodePreg (l : LaneIx) (n : Nat) : Option Instr :=
  let p := wP n 23
  let d := wD n 19
  if wf n 6 10 ≠ 0 then none
  else match wf n 0 6 with
  | 1 => some (.pregSetP l p d)
  | 2 => some (.pregGetP l p d)
  | 3 => some (.pregAddM l p (wP n 16))
  | 4 => some (.pregSetM l p d)
  | 5 => some (.pregGetM l p d)
  | _ => none

/-- SYS functions (Table 13-7): every field but Dd of FN 0x03 is 0. -/
def decodeSys (l : LaneIx) (n : Nat) : Option Instr :=
  if wf n 6 16 ≠ 0 then none
  else match wf n 0 6, wf n 22 4 with
  | 1, 0 => some (.end_ l)
  | 2, 0 => some (.clrsat l)
  | 3, d => some (.sysReadLsr l (Fin.ofNat 16 d))
  | _, _ => none

/-- Shift immediates of ASHI and LSHI: -32 to 31 (Table 13-7). -/
def shiftImm (n : Nat) : Bool := decide (wf n 0 16 ≤ 31) || decide (65504 ≤ wf n 0 16)

/-- Format I. -/
def decodeI (l : LaneIx) (n op : Nat) : Option Instr :=
  let d := wD n 22
  let a := wD n 18
  let imm := BitVec.ofNat 16 (wf n 0 16)
  if wf n 16 2 ≠ 0 then none
  else match op with
  | 0x01 => some (.addi l d a imm)
  | 0x02 => if wf n 18 4 = 0 then some (.movi l d imm) else none
  | 0x03 => if wf n 18 4 = 0 then some (.movhi l d imm) else none
  | 0x04 => some (.andi l d a imm)
  | 0x05 => some (.ori l d a imm)
  | 0x06 => if shiftImm n then some (.ashi l d a imm) else none
  | 0x07 => if shiftImm n then some (.lshi l d a imm) else none
  | 0x38 => if wf n 18 4 = 0 ∧ wf n 0 16 = 0 then some (.savel l d) else none
  | 0x39 => if wf n 18 4 = 0 ∧ wf n 0 16 = 0 then some (.restl l d) else none
  | _ => none

/-- Format M. -/
def decodeM (l : LaneIx) (n op : Nat) : Option Instr :=
  let d := wD n 22
  let p := wP n 19
  let sp := wB n 18
  match formM n with
  | none => none
  | some f =>
    match op with
    | 0x08 => some (.ld l d p sp f)
    | 0x09 => some (.st l d p sp f)
    | 0x0A => some (.ld2 l d p sp f)
    | 0x0B => some (.st2 l d p sp f)
    | _ => none

/-- Multiplier instructions and SAC: the other named fields are 0 (Table 13-7). -/
def decodeMul (l : LaneIx) (n op : Nat) : Option Instr :=
  let x := wA n 24
  let a := wD n 18
  let b := wD n 14
  if wf n 22 2 ≠ 0 ∨ wf n 0 8 ≠ 0 then none
  else if op = 0x16 then (if wf n 14 4 = 0 then some (.sac l a x (BitVec.ofNat 6 (wf n 8 6))) else none)
  else if wf n 8 6 ≠ 0 then none
  else match op with
  | 0x10 => some (.mpy l x a b)
  | 0x11 => some (.mac l x a b)
  | 0x12 => some (.msu l x a b)
  | 0x13 => some (.mpyi l x a b)
  | 0x14 => some (.maci l x a b)
  | 0x15 => some (.msui l x a b)
  | _ => none

/-- Format B. -/
def decodeB (l : LaneIx) (n op : Nat) : Option Instr :=
  let a := wD n 22
  let t := BitVec.ofNat 12 (wf n 0 12)
  if wf n 12 10 ≠ 0 then none
  else match op with
  | 0x20 => if wf n 22 4 = 0 then some (.b l t) else none
  | 0x21 => if wf n 22 4 = 0 then some (.call l t) else none
  | 0x22 => if wf n 22 4 = 0 ∧ wf n 0 12 = 0 then some (.ret l) else none
  | 0x23 => some (.beqz l a t)
  | 0x24 => some (.bnez l a t)
  | 0x25 => some (.bltz l a t)
  | 0x26 => some (.bgez l a t)
  | 0x27 => some (.bgtz l a t)
  | 0x28 => some (.blez l a t)
  | _ => none

/-- Decoder of lane instructions, total on any word: none where the word is undefined or a reserved field is not 0 (R334). -/
def decodeLaneWord (l : LaneIx) (w : Word) : Option Instr :=
  let n := w.toNat
  let op := wf n 26 6
  if op = 0x00 then decodeAlu l n
  else if op ≤ 0x07 ∨ op = 0x38 ∨ op = 0x39 then decodeI l n op
  else if op ≤ 0x0B then decodeM l n op
  else if op = 0x0C then
    (if wf n 16 6 = 0 then some (.ldsig l (wD n 22) (BitVec.ofNat 16 (wf n 0 16))) else none)
  else if op = 0x0D then
    match formX n with
    | none => none
    | some f => some (.sacst l (wA n 24) (wP n 21) (wB n 20) f (BitVec.ofNat 6 (wf n 0 6)))
  else if 0x10 ≤ op ∧ op ≤ 0x16 then decodeMul l n op
  else if op = 0x17 then decodeAcc l n
  else if op = 0x18 then
    (if wf n 0 14 = 0 then some (.mpyr l (wD n 22) (wD n 18) (wD n 14)) else none)
  else if 0x20 ≤ op ∧ op ≤ 0x28 then decodeB l n op
  else if op = 0x2A then some (.loopi l (wB n 25) (BitVec.ofNat 10 (wf n 15 10)) (BitVec.ofNat 15 (wf n 0 15)))
  else if op = 0x2B then
    some (.loopr l (wB n 25) (BitVec.ofNat 10 (wf n 15 10)) (wD n 11) (BitVec.ofNat 11 (wf n 0 11)))
  else if op = 0x30 then (if wf n 20 3 = 0 then some (.movp l (wP n 23) (BitVec.ofNat 20 (wf n 0 20))) else none)
  else if op = 0x31 then (if wf n 16 7 = 0 then some (.movm l (wP n 23) (BitVec.ofNat 16 (wf n 0 16))) else none)
  else if op = 0x32 then decodePreg l n
  else if op = 0x3A then decodeSys l n
  else none

/-! The encoder, from the same tables. -/

/-- Format R. -/
def encR (op d a b c fn : Nat) : Word := nw (op * 2 ^ 26 + d * 2 ^ 22 + a * 2 ^ 18 + b * 2 ^ 14 + c * 2 ^ 10 + fn)
/-- Format I. -/
def encI (op d a imm : Nat) : Word := nw (op * 2 ^ 26 + d * 2 ^ 22 + a * 2 ^ 18 + imm)
/-- Address form in format M. -/
def encFormM (f : AddrForm) : Nat :=
  match f with
  | .post m => m.val * 2 ^ 14
  | .offs o => 2 ^ 17 + o.toNat
/-- Format M. -/
def encM (op d p : Nat) (sp : Bool) (f : AddrForm) : Word :=
  nw (op * 2 ^ 26 + d * 2 ^ 22 + p * 2 ^ 19 + sp.toNat * 2 ^ 18 + encFormM f)
/-- Address form in format X. -/
def encFormX (f : AddrForm) : Nat :=
  match f with
  | .post m => m.val * 2 ^ 16
  | .offs o => 2 ^ 19 + o.toNat * 2 ^ 8
/-- Format A. -/
def encA (op x y a b s fn : Nat) : Word :=
  nw (op * 2 ^ 26 + x * 2 ^ 24 + y * 2 ^ 22 + a * 2 ^ 18 + b * 2 ^ 14 + s * 2 ^ 8 + fn)
/-- Format B. -/
def encB (op a t : Nat) : Word := nw (op * 2 ^ 26 + a * 2 ^ 22 + t)
/-- Format Q. -/
def encQ (p d m fn : Nat) : Word := nw (0x32 * 2 ^ 26 + p * 2 ^ 23 + d * 2 ^ 19 + m * 2 ^ 16 + fn)

/-- The word of a lane instruction; none for a command that is not one. Fields that an instruction does not use are 0. -/
def encodeLane (i : Instr) : Option Word :=
  match i with
  | .nop _ => some 0
  | .add _ d a b => some (encR 0 d.val a.val b.val 0 1)
  | .sub _ d a b => some (encR 0 d.val a.val b.val 0 2)
  | .adds _ d a b => some (encR 0 d.val a.val b.val 0 3)
  | .subs _ d a b => some (encR 0 d.val a.val b.val 0 4)
  | .and _ d a b => some (encR 0 d.val a.val b.val 0 5)
  | .or _ d a b => some (encR 0 d.val a.val b.val 0 6)
  | .xor _ d a b => some (encR 0 d.val a.val b.val 0 7)
  | .ash _ d a b => some (encR 0 d.val a.val b.val 0 8)
  | .lsh _ d a b => some (encR 0 d.val a.val b.val 0 9)
  | .min _ d a b => some (encR 0 d.val a.val b.val 0 10)
  | .max _ d a b => some (encR 0 d.val a.val b.val 0 11)
  | .abs _ d a => some (encR 0 d.val a.val 0 0 12)
  | .neg _ d a => some (encR 0 d.val a.val 0 0 13)
  | .slt _ d a b => some (encR 0 d.val a.val b.val 0 14)
  | .sltu _ d a b => some (encR 0 d.val a.val b.val 0 15)
  | .seq _ d a b => some (encR 0 d.val a.val b.val 0 16)
  | .selnz _ d a b c => some (encR 0 d.val a.val b.val c.val 17)
  | .mul _ d a b => some (encR 0 d.val a.val b.val 0 18)
  | .cls _ d a => some (encR 0 d.val a.val 0 0 19)
  | .mov _ d a => some (encR 0 d.val a.val 0 0 20)
  | .addi _ d a imm => some (encI 1 d.val a.val imm.toNat)
  | .andi _ d a imm => some (encI 4 d.val a.val imm.toNat)
  | .ori _ d a imm => some (encI 5 d.val a.val imm.toNat)
  | .ashi _ d a imm => some (encI 6 d.val a.val imm.toNat)
  | .lshi _ d a imm => some (encI 7 d.val a.val imm.toNat)
  | .movi _ d imm => some (encI 2 d.val 0 imm.toNat)
  | .movhi _ d imm => some (encI 3 d.val 0 imm.toNat)
  | .savel _ d => some (encI 56 d.val 0 0)
  | .restl _ d => some (encI 57 d.val 0 0)
  | .ld _ d p sp f => some (encM 8 d.val p.val sp f)
  | .st _ d p sp f => some (encM 9 d.val p.val sp f)
  | .ld2 _ d p sp f => some (encM 10 d.val p.val sp f)
  | .st2 _ d p sp f => some (encM 11 d.val p.val sp f)
  | .ldsig _ d sel => some (encI 0x0C d.val 0 sel.toNat)
  | .sacst _ x p sp f s =>
    some (nw (0x0D * 2 ^ 26 + x.val * 2 ^ 24 + p.val * 2 ^ 21 + sp.toNat * 2 ^ 20 + encFormX f + s.toNat))
  | .mpy _ x a b => some (encA 16 x.val 0 a.val b.val 0 0)
  | .mac _ x a b => some (encA 17 x.val 0 a.val b.val 0 0)
  | .msu _ x a b => some (encA 18 x.val 0 a.val b.val 0 0)
  | .mpyi _ x a b => some (encA 19 x.val 0 a.val b.val 0 0)
  | .maci _ x a b => some (encA 20 x.val 0 a.val b.val 0 0)
  | .msui _ x a b => some (encA 21 x.val 0 a.val b.val 0 0)
  | .sac _ d x s => some (encA 0x16 x.val 0 d.val 0 s.toNat 0)
  | .mova _ x a b => some (encA 0x17 x.val 0 a.val b.val 0 1)
  | .adda _ x y => some (encA 0x17 x.val y.val 0 0 0 2)
  | .suba _ x y => some (encA 0x17 x.val y.val 0 0 0 3)
  | .asha _ x s => some (encA 0x17 x.val 0 0 0 s.toNat 4)
  | .clra _ x => some (encA 0x17 x.val 0 0 0 0 5)
  | .addad _ x a b => some (encA 0x17 x.val 0 a.val b.val 0 6)
  | .subad _ x a b => some (encA 0x17 x.val 0 a.val b.val 0 7)
  | .rdl _ d x => some (encA 0x17 x.val 0 d.val 0 0 8)
  | .rdh _ d x => some (encA 0x17 x.val 0 d.val 0 0 9)
  | .rdg _ d x => some (encA 0x17 x.val 0 d.val 0 0 10)
  | .sata _ x => some (encA 0x17 x.val 0 0 0 0 11)
  | .mpyr _ d a b => some (encR 0x18 d.val a.val b.val 0 0)
  | .b _ t => some (encB 0x20 0 t.toNat)
  | .call _ t => some (encB 0x21 0 t.toNat)
  | .ret _ => some (encB 0x22 0 0)
  | .beqz _ a t => some (encB 35 a.val t.toNat)
  | .bnez _ a t => some (encB 36 a.val t.toNat)
  | .bltz _ a t => some (encB 37 a.val t.toNat)
  | .bgez _ a t => some (encB 38 a.val t.toNat)
  | .bgtz _ a t => some (encB 39 a.val t.toNat)
  | .blez _ a t => some (encB 40 a.val t.toNat)
  | .loopi _ lvl len count => some (nw (0x2A * 2 ^ 26 + lvl.toNat * 2 ^ 25 + len.toNat * 2 ^ 15 + count.toNat))
  | .loopr _ lvl len a mx =>
    some (nw (0x2B * 2 ^ 26 + lvl.toNat * 2 ^ 25 + len.toNat * 2 ^ 15 + a.val * 2 ^ 11 + mx.toNat))
  | .movp _ p imm => some (nw (0x30 * 2 ^ 26 + p.val * 2 ^ 23 + imm.toNat))
  | .movm _ p imm => some (nw (0x31 * 2 ^ 26 + p.val * 2 ^ 23 + imm.toNat))
  | .pregSetP _ p a => some (encQ p.val a.val 0 1)
  | .pregGetP _ p d => some (encQ p.val d.val 0 2)
  | .pregAddM _ p m => some (encQ p.val 0 m.val 3)
  | .pregSetM _ m a => some (encQ m.val a.val 0 4)
  | .pregGetM _ m d => some (encQ m.val d.val 0 5)
  | .end_ _ => some (encR 0x3A 0 0 0 0 1)
  | .clrsat _ => some (encR 0x3A 0 0 0 0 2)
  | .sysReadLsr _ d => some (encR 0x3A d.val 0 0 0 3)
  | _ => none

/-! What an instruction does to the flow and to registers in time (R328, Table 13-4). -/

/-- Flow of an instruction. -/
inductive Flow where
  | next
  | jump (t : Nat)
  | cond (t : Nat)
  | call (t : Nat)
  | ret
  | stop
  | loop (lvl : Bool) (len n : Nat)
  deriving DecidableEq, Repr

/-- Flow; a loop's count is COUNT or MAX. -/
def flowOf (i : Instr) : Flow :=
  match i with
  | .b _ t => .jump t.toNat
  | .beqz _ _ t | .bnez _ _ t | .bltz _ _ t | .bgez _ _ t | .bgtz _ _ t | .blez _ _ t => .cond t.toNat
  | .call _ t => .call t.toNat
  | .ret _ => .ret
  | .end_ _ => .stop
  | .loopi _ lvl len n => .loop lvl (len.toNat + 1) n.toNat
  | .loopr _ lvl len _ mx => .loop lvl (len.toNat + 1) mx.toNat
  | _ => .next

/-- The instruction has a delay slot. -/
def Flow.delayed (f : Flow) : Bool :=
  match f with
  | .jump _ | .cond _ | .call _ | .ret => true
  | _ => false

/-- Instructions that may not stand in a delay slot (rule 2). -/
def ctlInstr (i : Instr) : Bool :=
  match i with
  | .savel _ _ | .restl _ _ => true
  | _ => flowOf i != .next

/-- A multiplier instruction on an accumulator. -/
def multInstr (i : Instr) : Option Nat :=
  match i with
  | .mpy _ x _ _ | .mac _ x _ _ | .msu _ x _ _ | .mpyi _ x _ _ | .maci _ x _ _ | .msui _ x _ _ => some x.val
  | _ => none

/-- Another instruction that writes an accumulator. -/
def accInstr (i : Instr) : Option Nat :=
  match i with
  | .mova _ x _ _ | .adda _ x _ | .suba _ x _ | .asha _ x _ | .clra _ x | .addad _ x _ _ | .subad _ x _ _ | .sata _ x => some x.val
  | _ => none

/-- Data registers an instruction writes. -/
def dWrites (i : Instr) : List Nat :=
  match i with
  | .add _ d _ _ | .sub _ d _ _ | .adds _ d _ _ | .subs _ d _ _ | .and _ d _ _ | .or _ d _ _ | .xor _ d _ _ | .ash _ d _ _
  | .lsh _ d _ _ | .min _ d _ _ | .max _ d _ _ | .slt _ d _ _ | .sltu _ d _ _ | .seq _ d _ _ | .mul _ d _ _
  | .mpyr _ d _ _ => [d.val]
  | .selnz _ d _ _ _ => [d.val]
  | .abs _ d _ | .neg _ d _ | .cls _ d _ | .mov _ d _ | .movi _ d _ | .movhi _ d _ => [d.val]
  | .addi _ d _ _ | .andi _ d _ _ | .ori _ d _ _ | .ashi _ d _ _ | .lshi _ d _ _ => [d.val]
  | .ld _ d _ _ _ => [d.val]
  | .ld2 _ d _ _ _ => [d.val, d.val + 1]
  | .ldsig _ d sel => if selPos sel.toNat then [d.val, d.val + 1] else [d.val]
  | .sac _ d _ _ | .rdl _ d _ | .rdh _ d _ | .rdg _ d _ => [d.val]
  | .pregGetP _ _ d | .pregGetM _ _ d => [d.val]
  | .savel _ d => [d.val, d.val + 1, d.val + 2]
  | .sysReadLsr _ d => [d.val]
  | _ => []

/-- Exposed slots of a data result (Table 13-4). -/
def dSlots (i : Instr) : Nat :=
  match i with
  | .ld _ _ _ _ _ | .ld2 _ _ _ _ _ | .ldsig _ _ _ => 1
  | .mpyr _ _ _ _ | .mul _ _ _ _ => 2
  | _ => 0

/-- Cost in instruction times (R338, R34). -/
def instrCost (i : Instr) : Nat :=
  match i with
  | .ld2 _ _ _ sp _ | .st2 _ _ _ sp _ => if sp then 12 else 1
  | .ld _ _ _ sp _ | .st _ _ _ sp _ => if sp then 6 else 1
  | .sacst _ _ _ sp _ _ => if sp then 6 else 1
  | .ldsig _ _ _ => 6
  | .end_ _ => 3
  | _ => 1

/-- Crossbar store words (rule 15). -/
def instrStores (i : Instr) : Nat :=
  match i with
  | .st _ _ _ sp _ | .sacst _ _ _ sp _ _ => sp.toNat
  | .st2 _ _ _ sp _ => 2 * sp.toNat
  | _ => 0

/-! Code as proof reads it. -/

/-- A piece of code: the decoded instruction at each index inside lo to hi - 1. -/
structure Code where
  lo : Nat
  hi : Nat
  word : Nat → Option Instr

/-- Instruction at an index; none outside the code range and where the word is undefined. -/
def Code.at (k : Code) (i : Nat) : Option Instr := if k.lo ≤ i ∧ i < k.hi then k.word i else none
/-- Flow at an index; an index without an instruction ends there. -/
def Code.flow (k : Code) (i : Nat) : Flow := ((k.at i).map flowOf).getD .stop

/-- A place in code: an index, and whether it is the delay slot of the instruction before it. -/
abbrev Place := Nat × Bool

/-- Places that follow within a routine: a call returns to the instruction after its delay slot; a loop is followed by its body and
by the instruction after it. -/
def Code.nexts (k : Code) (x : Place) : List Place :=
  let (i, slot) := x
  if slot then
    match k.flow (i - 1) with
    | .jump t => [(t, false)]
    | .cond t => [(t, false), (i + 1, false)]
    | .call _ => [(i + 1, false)]
    | _ => []
  else
    let f := k.flow i
    if f.delayed then [(i + 1, true)]
    else match f with
      | .stop => []
      | .loop _ len _ => [(i + 1, false), (i + len + 1, false)]
      | _ => [(i + 1, false)]

/-- Places reached from a frontier, with those seen, following a successor function. -/
def reachFrom {α : Type} [BEq α] (succ : α → List α) : Nat → List α → List α → List α
  | 0, _, seen => seen
  | n + 1, front, seen =>
    match front with
    | [] => seen
    | x :: rest => if seen.contains x then reachFrom succ n rest seen else reachFrom succ n (succ x ++ rest) (x :: seen)

/-- Places of a routine. -/
def Code.places (k : Code) (root : Nat) : List Place := reachFrom k.nexts (16 * (k.hi - k.lo) + 16) [(root, false)] []

/-- Call targets of a list of places. -/
def Code.callsOf (k : Code) (ps : List Place) : List Nat :=
  (ps.filterMap fun x => match k.flow x.1 with
    | .call t => if x.2 then none else some t
    | _ => none).dedup

/-- Routines called from a routine, through at most n calls. -/
def Code.callees (k : Code) : Nat → Nat → List Nat
  | 0, _ => []
  | n + 1, root =>
    let ts := k.callsOf (k.places root)
    (ts ++ ts.flatMap (k.callees n)).dedup

/-- Depth of calls below a routine, followed for at most n. -/
def Code.depth (k : Code) : Nat → Nat → Nat
  | 0, _ => 0
  | n + 1, root => (k.callsOf (k.places root)).foldl (fun d t => max d (k.depth n t + 1)) 0

/-- Loop instructions of a list of places: index, last instruction of the body, level. -/
def Code.loopsOf (k : Code) (ps : List Place) : List (Nat × Nat × Bool) :=
  ps.filterMap fun x => match k.flow x.1 with
    | .loop lvl len _ => some (x.1, x.1 + len, lvl)
    | _ => none

/-- Inside the body of a loop. -/
def inBody (b : Nat × Nat × Bool) (i : Nat) : Bool := decide (b.1 < i) && decide (i ≤ b.2.1)

/-- Successors for the exposed slots: also the entry of a called routine, the return points of the calls given, and the return to
the first instruction of a body. -/
def Code.issues (k : Code) (all : List Place) (loops : List (Nat × Nat × Bool)) (x : Place) : List Place :=
  let (i, slot) := x
  let back := (loops.filter fun b => b.2.1 == i).map fun b => ((b.1 + 1, false) : Place)
  if slot then
    match k.flow (i - 1) with
    | .call t => [(t, false)]
    | .ret => all.filterMap fun y => match k.flow y.1 with
        | .call t => if !y.2 && (k.places t).contains (i - 1, false) then some (y.1 + 2, false) else none
        | _ => none
    | _ => k.nexts x
  else k.nexts x ++ back

/-- Rules 10 and 11 at a place: what it produces against the one or two instructions issued next. -/
def Code.slotsOk (k : Code) (succ : Place → List Place) (x : Place) : Bool :=
  match k.at x.1 with
  | none => true
  | some i =>
    let s1 := succ x
    let s2 := s1.flatMap succ
    let clean := fun (n : Nat) (bad : Instr → Bool) =>
      ((if 1 ≤ n then s1 else []) ++ (if 2 ≤ n then s2 else [])).all fun y => match k.at y.1 with
        | none => true
        | some j => !bad j
    clean (dSlots i) (fun j => (dWrites j).any fun d => (dWrites i).contains d)
      && (match multInstr i with
        | none => true
        | some a => clean 2 fun j => accInstr j == some a)

/-- Rules 1 to 7, 12 and 13 at a place of a routine, with the loops of the whole task; `main` for the routine of the task's entry (rule 9). -/
def Code.placeOk (k : Code) (main : Bool) (loops : List (Nat × Nat × Bool)) (x : Place) : Bool :=
  let i := x.1
  let inR := fun t => decide (k.lo ≤ t) && decide (t < k.hi)
  match k.at i with
  | none => false
  | some ins =>
    let f := flowOf ins
    let branchOk := fun (t : Nat) (call : Bool) =>
      inR t && (call || decide (i + 1 < t))
        && loops.all fun b => if inBody b i then call || inBody b t else !inBody b t
    !(x.2 && ctlInstr ins)
      && (k.nexts x).all (fun y => inR y.1)
      && (match f with
        | .jump t => branchOk t false
        | .cond t => branchOk t false
        | .call t => branchOk t true
        | .ret => !main && loops.all fun b => !inBody b i
        | .stop => main
        | .loop lvl len _ =>
          let e := i + len
          inR (i + 1) && inR e
            && !((k.flow e).delayed || k.flow e == .stop || (match k.flow e with | .loop _ _ _ => true | _ => false)
              || (decide (i + 1 < e) && (k.flow (e - 1)).delayed))
            && loops.all fun b => !inBody b i || (b.2.2 != lvl && lvl && decide (e < b.2.1))
        | .next => true)
      && (match ins with
        | .ld2 _ d _ _ _ | .st2 _ d _ _ _ => decide (d.val < 15)
        | .ldsig _ d sel => !badSel sel.toNat && (!selPos sel.toNat || decide (d.val < 15))
        | .savel _ d | .restl _ d => decide (d.val < 14)
        | _ => true)

/-- Rule 8 for a routine: calls from its bodies reach no loop of that level or of level 0. -/
def Code.callsOk (k : Code) (ps : List Place) : Bool :=
  let loops := k.loopsOf ps
  ps.all fun x => match k.flow x.1 with
    | .call t =>
      x.2 || loops.all fun b => !inBody b x.1 ||
        ((t :: k.callees 4 t).flatMap fun u => k.loopsOf (k.places u)).all fun q => q.2.2 != b.2.2 && q.2.2
    | _ => true

/-- Sum of two costs where both exist. -/
def addO (a b : Option Nat) : Option Nat :=
  match a, b with
  | some x, some y => some (x + y)
  | _, _ => none

/-- Largest sum of a cost from each of the n indices from i on, to the end of the routine (R338), from the last index down: `acc`
holds the values after them, `sub` gives a called routine's, `body` a body's. -/
def Code.table (k : Code) (cost : Instr → Nat) (sub : Nat → Option Nat) (body : Nat → Nat → Option Nat) :
    Nat → Nat → List (Option Nat) → List (Option Nat)
  | 0, _, acc => acc
  | n + 1, i, acc =>
    let later := k.table cost sub body n (i + 1) acc
    let look := fun t => if t ≤ i then none else later.getD (t - (i + 1)) none
    let v : Option Nat :=
      match k.at i with
      | none => none
      | some ins =>
        let here := addO (some (cost ins)) ((k.at (i + 1)).map cost)
        match flowOf ins with
        | .stop => some (cost ins)
        | .jump t => addO here (look t)
        | .cond t => addO here (match look t, look (i + 2) with
            | some x, some y => some (max x y)
            | _, _ => none)
        | .call t => addO here (addO (sub t) (look (i + 2)))
        | .ret => here
        | .loop _ len m => addO (some (cost ins)) (addO ((body i len).map (m * ·)) (look (i + len + 1)))
        | .next => addO (some (cost ins)) (look (i + 1))
    v :: later

/-- Sum through the body of the loop instruction at i, bodies nested at most n deep. -/
def Code.body (k : Code) (cost : Instr → Nat) (sub : Nat → Option Nat) : Nat → Nat → Nat → Option Nat
  | 0, _, _ => none
  | n + 1, i, len => (k.table cost sub (k.body cost sub n) len (i + 1) [some 0]).getD 0 none

/-- Sums from every index of the code range, calls nested at most n deep. -/
def Code.sums (k : Code) (cost : Instr → Nat) : Nat → List (Option Nat)
  | 0 => []
  | n + 1 =>
    let below := k.sums cost n
    let sub := fun t => if t < k.lo then none else below.getD (t - k.lo) none
    k.table cost sub (k.body cost sub 2) (k.hi - k.lo) k.lo []

/-- Largest sum from an entry. -/
def Code.sumAt (k : Code) (cost : Instr → Nat) (entry : Nat) : Option Nat :=
  if entry < k.lo then none else (k.sums cost 5).getD (entry - k.lo) none

/-- What SAVEL, RESTL and loop instructions do to the state of rule 14: 0 no SAVEL yet, 1 saved, 2 a loop instruction since. -/
def saveStep (i : Instr) (q : Nat) : Nat :=
  match i with
  | .savel _ _ => max q 1
  | .restl _ _ => min q 1
  | _ => match flowOf i with
    | .loop _ _ _ => 2
    | _ => q

/-- Rule 14 for a routine entered in state q: the states in which it returns; none where the rule is broken. -/
def Code.saves (k : Code) : Nat → Nat → Nat → Option (List Nat)
  | 0, _, _ => none
  | n + 1, root, q0 =>
    let after := fun (x : Place) (q : Nat) => match k.at x.1 with
      | none => q
      | some i => saveStep i q
    let succ := fun (y : Place × Nat) =>
      let q := after y.1 y.2
      match y.1.2, k.flow (y.1.1 - 1) with
      | true, .call t => ((k.saves n t q).getD []).map fun r => (((y.1.1 + 1, false) : Place), r)
      | _, _ => (k.nexts y.1).map fun z => (z, q)
    let seen := reachFrom succ (64 * (k.hi - k.lo) + 64) [((root, false), q0)] []
    let bad := seen.any fun y => match k.flow y.1.1 with
      | .loop _ _ _ => y.2 == 0
      | .stop => y.2 == 2
      | _ => y.1.2 && (match k.flow (y.1.1 - 1) with
        | .call t => (k.saves n t (after y.1 y.2)).isNone
        | _ => false)
    if bad then none
    else some ((seen.filterMap fun y =>
      if y.1.2 && k.flow (y.1.1 - 1) == .ret then some (after y.1 y.2) else none).dedup)

/-- The bound proof computes for code entered at an index (R337, R338): none where the accounting cannot bound it. -/
def Code.bound (k : Code) (entry : Nat) (urgent : Bool) : Option Nat :=
  let mainPs := k.places entry
  let subs := k.callees 5 entry
  let routines := (true, mainPs) :: subs.map fun t => (false, k.places t)
  let all := routines.flatMap (·.2)
  let loops := k.loopsOf all
  let succ := k.issues all loops
  let ok := decide (k.depth 6 entry ≤ 4)
    && routines.all (fun r => r.2.all (k.placeOk r.1 loops) && k.callsOk r.2)
    && all.all (k.slotsOk succ)
    && (match k.sumAt instrStores entry with
      | some n => decide (n ≤ 64)
      | none => false)
    && (!urgent || (k.saves 5 entry 0).isSome)
  if ok then k.sumAt instrCost entry else none

/-- The code of lane n under a configuration, as its store stands. -/
def State.laneCode (s : State) (c : Cfg) (n : Nat) : Code :=
  let (b, w) := codeRange c n
  { lo := b, hi := b + w, word := fun i => decodeLaneWord (Fin.ofNat 8 n) (s.wordAt (codeAddr n i)) }

/-- R78 for slot i of lane n: the computed bound, if the code can be bounded. -/
def State.taskCodeBound (s : State) (c : Cfg) (n i : Nat) : Option Nat :=
  (s.laneCode c n).bound (taskEntry c n i) (taskCls c n i == 1)

end Sys2Proof.Machine
end

