-- ==== Sys2Proof/Machine/Proof.lean ====
section
/-!
DEFINITION. Proof (R57 to R59, R76 to R79, R84, R91): the demand of every lane, the takeover plans, the energy and heat budget,
and the outcome of a proof of the candidate or of a re-proof of the configuration in force.
-/
namespace Sys2Proof.Machine

/-- A frame-synchronous task as admission counts it: bound, DIV_LOG2, PHASE. -/
abbrev FsTask := Nat × Nat × Nat
/-- An urgent task: bound, minimum inter-arrival time. -/
abbrev UrTask := Nat × Nat

/-- Axis a is essential (R70). -/
def axEssential (c : Cfg) (a : Nat) : Bool := bt (c pgSched SCHED.ESSENTIAL_AXES) a

/-- Bound of the commutation task of axis a with its rope model and its share (R144, R198, R206). -/
def commBound (c : Cfg) (a : Nat) : Nat :=
  axBound c a + (if (axRope c a).isSome then 260 else 0) + (if (axShare c a).isSome then 40 else 0)

/-- Frame-synchronous tasks on lane n (R70, R198, R206, R214); `ess` keeps those that run in RESCUE. -/
def fsTasks (c : Cfg) (n : Nat) (ess : Bool) : List FsTask :=
  let axes := (List.range 8).filter fun a => axComm c a != 0 && axLane c a == n
  axes.map (fun _ => ((Config.safetyCheckBound, 0, 0) : FsTask))
  ++ (axes.filter fun a => !ess || axEssential c a).map (fun a => (commBound c a, 0, 0))
  ++ ((List.range 128).filter fun x => ctxEn c x && ctxLane c x == n && (!ess || ctxEssential c x)).map
      (fun x => (ctxBound c x, ctxDivL c x, ctxPhase c x))
  ++ (if rescueEn c && rescueLane c == n then [((180, 0, 0) : FsTask)] else [])
  ++ ((List.range 16).filter fun i => taskEn c n i && taskCls c n i == 0 && (!ess || taskEss c n i)).map
      (fun i => (taskBound c n i, taskDivL c n i, taskPhase c n i))

/-- Urgent tasks on lane n. -/
def urTasks (c : Cfg) (n : Nat) (ess : Bool) : List UrTask :=
  ((List.range 16).filter fun i => taskEn c n i && taskCls c n i == 1 && (!ess || taskEss c n i)).map
    fun i => (taskBound c n i, taskArrival c n i)

/-- Demand of a set of tasks (R76). -/
def demandOf (c : Cfg) (fs : List FsTask) (ur : List UrTask) : Nat :=
  ((List.range 64).map fun p =>
    ((fs.filter fun t => p % 2 ^ t.2.1 == t.2.2).map fun t => t.1 + 4).sum).foldl max 0
  + (ur.map fun t => (window c / t.2 + 1) * (t.1 + 8)).sum

/-- Demand of lane n. -/
def laneDemand (c : Cfg) (n : Nat) : Nat := demandOf c (fsTasks c n false) (urTasks c n false)
/-- Demand of lane n in power state st (R84). -/
def laneDemandIn (c : Cfg) (n st : Nat) : Nat := demandOf c (fsTasks c n (st == 2)) (urTasks c n (st == 2))

/-- Lane n has a task. -/
def laneHasTask (c : Cfg) (n : Nat) : Bool :=
  !(fsTasks c n false).isEmpty || (List.range 16).any fun i => taskEn c n i
/-- The spare lane (SCHED.PLACE). -/
def spareLane (c : Cfg) : Option Nat :=
  let n := fld (c pgSched SCHED.PLACE) 3 0
  if n < 8 then some n else none
/-- Lane n is active: it has a task and is not retired. -/
def laneActive (c : Cfg) (ret : Nat → Nat → Bool) (n : Nat) : Bool := !ret 5 n && laneHasTask c n

/-- Copy cost C_L of lane n (R79). -/
def copyCost (c : Cfg) (n : Nat) : Nat := ceilDiv ((codeRange c n).2 + (dataRange c n).2) 4 + 64

/-- Lane g may take lane n over (R79). -/
def canTake (c : Cfg) (n g : Nat) : Bool :=
  let apart := fun (x y : Nat × Nat) => !meets x.1 x.2 y.1 y.2
  let used := fun m => ((List.range 16).filter fun i => taskEn c m i).length
  apart (codeRange c n) (codeRange c g) && apart (dataRange c n) (dataRange c g)
    && decide (used n + used g ≤ 16)
    && decide (demandOf c (fsTasks c n false ++ fsTasks c g false) (urTasks c n false ++ urTasks c g false) + copyCost c n
      ≤ laneBudget c)

/-- Takeover plan of lane n: its target (R79). -/
def lanePlan (c : Cfg) (ret : Nat → Nat → Bool) (n : Nat) : Option Nat :=
  let cands := match spareLane c with
    | some g => if ret 5 g then none else some [g]
    | none => none
  let cands := cands.getD
    (if bt (c pgSched SCHED.PLACE) 8 then (List.range 8).filter fun g => g != n && laneActive c ret g else [])
  cands.find? (canTake c n)

/-- Fused figure of an operating point: EPI in pJ or LEAK in mW. -/
def fused (w : Word) (point : Nat) : Nat := fld w (10 * point + 9) (10 * point)

/-- Predicted fabric power of power state st, in mW (R84). -/
def fabricPower (c : Cfg) (st : Nat) : Rat :=
  (fused (c pgSched SCHED.LEAK) st + 30 : Nat)
    + ((fused (c pgSched SCHED.EPI) st * ((List.range 8).map fun n => laneDemandIn c n st).sum : Nat) : Rat) / (4 * shortFrame c : Nat)

/-- PWR_MAX of a power state. -/
def pwrMax (c : Cfg) (st : Nat) : Nat := fld (c pgSched (SCHED.PWR_MAX_NORMAL + 4 * st)) 15 0

/-- Heat ceiling of a power state in mW (R84). -/
def heatCeiling (c : Cfg) (st : Nat) : Int :=
  floorRat (((2000 - sfld (c pgSched SCHED.TA_DESIGN) 15 0) * 100000 : Int)
    / (16 * (c pgSched SCHED.THETA_JA).toNat : Nat) : Rat) - (fld (c pgSched (SCHED.OTHER_NORMAL + 4 * st)) 15 0 : Nat)

/-- A failure of checks 1 to 7. -/
def failAt (code : Nat) (b : Breach) : ProofOut :=
  { code := BitVec.ofNat 8 code, page := BitVec.ofNat 8 b.1, offset := BitVec.ofNat 12 b.2, demand := 0, budget := 0 }

/-- Check 8 on the computed bounds (R78). -/
def boundFailure (s : State) (c : Cfg) : Option ProofOut :=
  ((List.range 8).flatMap fun n => (List.range 16).map fun i => (n, i)).findSome? fun x =>
    let (n, i) := x
    if !taskEn c n i then none
    else
      let out := fun (d : Word) => some
        { code := 5, page := BitVec.ofNat 8 (pgLane n), offset := BitVec.ofNat 12 (LANE.TASK_BOUND i), demand := d
          budget := nw (taskBound c n i) : ProofOut }
      match s.taskCodeBound c n i with
      | none => out 0xFFFFFFFF
      | some b => if taskBound c n i < b then out (nw b) else none

/-- A report of a lane: its page, demand and budget (R59). -/
def laneReport (c : Cfg) (code n : Nat) : ProofOut :=
  { code := BitVec.ofNat 8 code, page := BitVec.ofNat 8 (pgLane n), offset := 0, demand := nw (laneDemand c n), budget := nw (laneBudget c) }

/-- Check 8 on the demands and the plans (R77, R79). -/
def laneFailure (c : Cfg) (ret : Nat → Nat → Bool) : Option ProofOut :=
  let lanes := (List.range 8).filter fun n => !ret 5 n
  match lanes.find? fun n => decide (laneBudget c < laneDemand c n) with
  | some n => some (laneReport c 5 n)
  | none =>
    if bt (c pgSched SCHED.PLACE) 9 then
      (lanes.find? fun n => laneActive c ret n && (lanePlan c ret n).isNone).map (laneReport c 5)
    else none

/-- Check 9 (R84). -/
def energyFailure (c : Cfg) : Option ProofOut :=
  ([0, 1, 2].filter (stateEn c)).findSome? fun st =>
    let p := fabricPower c st
    let out := fun (o : Nat) (lim : Int) => some
      { code := 6, page := BitVec.ofNat 8 pgSched, offset := BitVec.ofNat 12 o, demand := iw (floorRat p), budget := iw lim : ProofOut }
    if (pwrMax c st : Rat) < p then out (SCHED.PWR_MAX_NORMAL + 4 * st) (pwrMax c st)
    else if ((heatCeiling c st : Int) : Rat) < p then out (SCHED.OTHER_NORMAL + 4 * st) (heatCeiling c st)
    else none

/-- The lane that a pass names: the least margin, the lowest number among equals (R59). -/
def leastMargin (c : Cfg) (ret : Nat → Nat → Bool) : ProofOut :=
  let margin := fun n => (laneBudget c : Int) - laneDemand c n
  match ((List.range 8).filter fun n => !ret 5 n).foldl (fun best n => match best with
      | none => some n
      | some b => if margin n < margin b then some n else some b) none with
  | some n => laneReport c 0 n
  | none => { code := 0, page := 0, offset := 0, demand := 0, budget := 0 }

/-- Checks 4 to 9 on a configuration with a set of retired channels. -/
def lateChecks (s : State) (c : Cfg) (ret : Nat → Nat → Bool) : ProofOut :=
  ((((((((checkRetired c ret).map (failAt 7)).orElse fun _ => (checkClaims c).map (failAt 4)).orElse
    fun _ => (checkAgree s c).map (failAt 4)).orElse fun _ => (checkSafety c).map (failAt 9)).orElse
    fun _ => boundFailure s c).orElse fun _ => laneFailure c ret).orElse fun _ => energyFailure c).getD (leastMargin c ret)

/-- Check 2 on the dirty pages, ascending. -/
def checkRange (s : State) : Option Breach :=
  firstBreach (s.stage.dirty.flatMap fun p => (rangePage s.cand p).map fun o => (p, o))

/-- Channels retired in the snapshot: those retired, less those readmitted in the stage (R57). -/
def State.retSnap (s : State) (cls idx : Nat) : Bool :=
  s.chRet cls idx && !s.stage.readmits.contains { cls := cls, idx := idx }

/-- The outcome of a proof of the candidate, judged on the present state (R57, R58). -/
def State.proofOut (s : State) : ProofOut :=
  if fld (s.cand pgSys SYS.STAGE_LAYOUT) 7 0 ≠ 0x31 then failAt 3 (pgSys, SYS.STAGE_LAYOUT)
  else match checkRange s with
    | some b => failAt 3 b
    | none => match checkState s with
      | some b => failAt 1 b
      | none => lateChecks s s.cand s.retSnap

/-- The outcome of a re-proof of the configuration in force (R91). -/
def State.reproofOut (s : State) : ProofOut := lateChecks s s.force s.chRet

/-- PROOF_RESULT in the layout of Table 2-9. -/
def ProofOut.word (o : ProofOut) : Word := nw (o.code.toNat * 2 ^ 24 + o.page.toNat * 2 ^ 16 + o.offset.toNat)

/-- The takeover plans of every lane, computed for the configuration in force (R79, R91). -/
def State.setPlans (s : State) : State :=
  forN 8 (fun n s => s.onLn n fun x =>
    { x with plan := if laneActive s.force s.chRet n then (lanePlan s.force s.chRet n).getD 15 else 15 }) s

/-- Lane states that follow from the configuration (Table 3-7): a lane with work is ACTIVE, the spare SPARE, another IDLE. -/
def State.setLaneStates (s : State) : State :=
  forN 8 (fun n s => s.onLn n fun x =>
    { x with state := if s.chRet 5 n then .retired else if laneHasTask s.force n then .active
        else if spareLane s.force == some n then .spare else .idle }) s

end Sys2Proof.Machine
end

