-- ==== Sys2Proof/Machine/Channels.lean ====
section
/-!
DEFINITION. Retirable channels (R284, R285), the void of a proof by a retirement (R63), the re-proof that follows it (R91) and
the takeover of a retired lane (R90).
-/
namespace Sys2Proof.Machine

/-- Channels retired at present (SYS.GLOBAL_STATUS.RETIRED). -/
def State.retiredCount (s : State) : Nat := (s.chans.filter fun x => x.2.retired).length

/-- The commit frame has started, or the stage is not one a retirement touches: otherwise the proof becomes void (R63). -/
def State.voidProof (s : State) : State :=
  if s.stage.commit then s
  else match s.stage.state with
    | .proving => s.onStage fun g => { g with voided := true }
    | .proved => s.onStage fun g => { g with state := .opened, proof := none }
    | .armed => (s.onStage fun g => { g with state := .opened, proof := none, due := none, tag := none }).event pgSys 4
    | _ => s

/-- A re-proof starts against the present set of retired channels; one that runs is abandoned (R91). None before the proof of
step 8 of Table 19-1. -/
def State.startReproof (s : State) : State :=
  if s.up then s.onStage fun g => { g with reproof := some s.reproofOut } else s

/-- Axes with a system task on lane n, or with a context bound to them there. -/
def laneAxes (c : Cfg) (n : Nat) : List Nat :=
  (List.range 16).filter fun a => (axComm c a != 0 && axLane c a == n)
    || (List.range 128).any fun x => ctxEn c x && ctxAxis c x == some a && ctxLane c x == n

/-- No lane takes lane n's work: the axes with a task there react at once (R90). -/
def State.loseLane (s : State) (n : Nat) : State :=
  let s := forL (laneAxes s.force n) (fun a s => s.raiseNow srcTaskLost a) s
  if laneHasTask s.force n then s.pfault pgSched 1 else s

/-- Lane n stops at its retirement: nothing runs on it, its urgent triggers are held for the target (R90, step 1). Work it was to take
over is lost with it. -/
def State.stopLane (s : State) (n : Nat) : State :=
  let l := s.ln n
  let s := s.onLn n fun x => { x with state := .retired, running := none, under := none, urgent := [], held := [], takes := [] }
  let s := forL l.takes (fun m s => s.loseLane m) (s.pfault (pgLane n) 0x10)
  if l.plan < 8 then
    (s.onLn l.plan fun x => { x with takes := x.takes ++ [n] }).onLn n fun x => { x with held := (l.urgent ++ l.held).dedup }
  else (s.loseLane n).startReproof

/-- A channel is retired (R285): its class's effect, the count, the log entry, the void of a proof, the re-proof. -/
def State.retire (s : State) (cls idx : Nat) : State :=
  if s.chRet cls idx then s
  else
    let s := s.onChan cls idx fun x => { x with retired := true, retry := none }
    let s := s.logAdd 3 clsWarn 0 0 (nw (cls * 256 + idx))
    let s := s.voidProof
    match cls with
    | 1 => (s.onFb idx fun x => { x with state := .retired, valid := false, acq := none }).startReproof
    | 3 => (((s.legOff idx).onLg idx fun x => { x with retired := true, retry := false }).pfault (pgGd (idx / 6))
        (2 ^ (16 + idx % 6))).startReproof
    | 4 => (((s.legOff idx).onLg idx fun x => { x with retired := true, retry := false }).pfault (pgPwm (idx / 8))
        (2 ^ (idx % 8))).startReproof
    | 5 => s.stopLane idx
    | 6 => ((s.onCn idx fun x => { x with retired := true, sending := none }).pfault (pgCan idx) 2).startReproof
    | 7 => ((s.onFo idx fun x => { x with retired := true, retry := false }).pfault pgFio (2 ^ (8 + idx))).startReproof
    | _ => s.startReproof

/-- A channel goes into retry: its class's effect (R284). -/
def State.intoRetry (s : State) (cls idx : Nat) : State :=
  match cls with
  | 1 => s.onFb idx fun x => { x with state := .retry, valid := false }
  | 3 => s.onLg idx fun x => { x with retry := true }
  | 4 => s.onLg idx fun x => { x with retry := true }
  | 7 => s.onFo idx fun x => { x with retry := true }
  | _ => s

/-- An onset of a channel (R284): it counts in the window, and the K-th of the last COUNT_WIN retires the channel; otherwise the
channel is in retry for RETRY_WIN, or, where `window` is false, until its own rule ends it (R351). -/
def State.onsetWith (s : State) (cls idx : Nat) (window : Bool) : State :=
  if s.chRet cls idx then s
  else
    let ons := s.onsetsIn cls idx ++ [s.now]
    let s := s.onChan cls idx fun x => { x with onsets := ons }
    if onsetK s.force ≤ ons.length then s.retire cls idx
    else
      let till := s.now + retryWin s.force
      (s.onChan cls idx fun x => { x with retry := if window then some till else none }).intoRetry cls idx

/-- An onset with its retry window. -/
def State.onset (s : State) (cls idx : Nat) : State := s.onsetWith cls idx true

/-- A channel in retry. -/
def State.inRetry (s : State) (cls idx : Nat) : Bool := (s.chan cls idx).retry.isSome

/-- A channel is back in service by its own rule. -/
def State.backInService (s : State) (cls idx : Nat) : State :=
  if s.chRet cls idx then s else s.onChan cls idx fun x => { x with retry := none }

/-- A lane fault (R88): an onset while the lane is in service. The fault of an activation keeps the lane in retry until that
activation is released again; any other fault ends at once. -/
def State.laneFault (s : State) (n faultBit : Nat) (w : Option Work) : State :=
  let s := s.pfault (pgLane n) faultBit
  if (s.ln n).retryOf.isSome then s
  else ((s.onset 5 n).backInService 5 n).onLn n fun x => { x with retryOf := w }

/-- Activations released on lane n: one of them restarts the task that has the lane in retry (R88). -/
def State.laneRestart (s : State) (n : Nat) (l : List Work) : State :=
  s.onLn n fun x => { x with retryOf := x.retryOf.filter fun w => !l.contains w }

/-- Axes concerned by a failed re-proof (Table 3-9). -/
def concernedAxes (c : Cfg) (p o : Nat) : List Nat :=
  let byLeg := fun (l : Nat) =>
    (List.range 16).filter fun a => (axUsedLegs c a).contains l || (brkKind c a == 1 && 24 + brkIdx c a == l)
      || ((convLegs c).contains l && a == rescueAxis c)
  let bound := fun (x : Nat) => (ctxAxis c x).toList
  if 0x10 ≤ p ∧ p < 0x18 then [p - 0x10]
  else if 0x20 ≤ p ∧ p < 0x30 then [p - 0x20]
  else if 0x18 ≤ p ∧ p < 0x20 then
    let n := p - 0x18
    (List.range 16).filter fun a => axFb c a == some n
      || (motSource c a == 2 && fld (motCfg c a) 13 12 == 0 && fld (motCfg c a) 19 16 == n)
  else if p = pgAdc then
    let ch := if o < ADC.SD_CFG 0 then (o - ADC.SHUNT_CFG 0) / 4
      else if o < ADC.AIN_CFG 0 then 8 + (o - ADC.SD_CFG 0) / 4 else 16 + (o - ADC.AIN_CFG 0) / 4
    (List.range 16).filter fun a => (decide (a < 8) && ((axSense c a).contains ch || (axComm c a != 0 && 16 + axUdcSrc c a == ch)))
      || (List.range 128).any fun x => ctxEn c x && ctxAxis c x == some a
        && (selAdc (ctxSp c x) ++ selAdc (ctxFbS c x) ++ selAdc (ctxFf c x)).contains ch
  else if 0x34 ≤ p ∧ p < 0x38 then byLeg (8 * (p - 0x34) + (o - 0x100) / 0x20)
  else if 0x38 ≤ p ∧ p < 0x3A then
    byLeg (6 * (p - 0x38) + (o - 0x100) / 0x10)
  else if 0x50 ≤ p ∧ p < 0x58 then laneAxes c (p - 0x50)
  else if 0x40 ≤ p ∧ p < 0x48 then
    let x := 16 * (p - 0x40) + (o - LOOP.CFG 0) / 0x70
    (bound x ++ ((List.range 128).filter fun y => ctxEn c y && ctxReaches c 8 y x).flatMap bound).dedup
  else if p = pgSched then List.range 16
  else if p = pgHoist then
    if o < 0x200 then [ropeAxis c ((o - 0x100) / 0x40)]
    else if o < 0x400 then shareAxes c ((o - 0x200) / 0x100)
    else if o < 0x580 then [rescueAxis c]
    else [(o - HOIST.LADDER 0) / 4 % 8]
  else if p = pgFio then
    (maskAxes (c pgFio FIO.FAULT_CFG) 0
      ++ (if o < FIO.DO_CFG then
            (List.range 16).filter fun a => (List.range 8).any fun i =>
              sinFunc c i != 0 && sinHas c i a && fld (sinCfg c i) 3 0 == (o - FIO.DI_CFG 0) / 4
          else (List.range 16).filter fun a => brkKind c a == 2
            || bt (c (pgMot a) MOT.CMP_OUT0) 4 || bt (c (pgMot a) MOT.CMP_OUT1) 4)).dedup
  else if p = 0x0C ∨ p = 0x0D ∨ p = pgBilva then
    (((List.range 2).filter fun g => shareEn c g && shareNet c g
      && (p == pgBilva || fld (shareCfg c g) 4 4 == p - 0x0C)).flatMap (shareAxes c)
      ++ maskAxes (c pgBilva BILVA.FAULT_CFG) 0).dedup
  else if p = pgDma then maskAxes (c pgDma DMA.FAULT_CFG) 0
  else if p = pgTrace then maskAxes (c pgTrace TRACE.FAULT_CFG) 0
  else if p = pgHk then maskAxes (c pgHk HK.FAULT_CFG) 0
  else []

/-- A re-proof completes (R91): its result, the new plans, and on a failure the reaction of RECONFIG_FAIL on the axes concerned,
which then follow R278; a configuration that proves ends the source (log entry 38). -/
def State.finishReproof (s : State) (o : ProofOut) : State :=
  let s := (s.setLv pgSched SCHED.REPROOF_RESULT o.word).onStage fun g => { g with reproof := none }
  let s := s.setPlans
  if o.code = 0 then s.onSafe fun x => { x with srcs := x.srcs.filter fun y => y.1 ≠ srcReconfig }
  else
    let axes := concernedAxes s.force o.page.toNat o.offset.toNat
    let s := (s.event pgSched 4).pfault pgSched 2
    forL axes (fun a s => ((s.onAx a fun x => { x with toRetired := true }).clearSrc srcReconfig a).raise srcReconfig a) s

/-! Takeover (R90, Table 3-4). -/

/-- Free slots of lane g in ascending order. -/
def freeSlots (c : Cfg) (g : Nat) : List Nat := (List.range 16).filter fun i => !taskEn c g i

/-- Lanes whose ranges lane n holds: its own, and those it took over since the last strike (R340). -/
def State.rangesOf (s : State) (n : Nat) : List Nat :=
  n :: (s.stage.copied.filter fun x => x.1.val = n).map fun x => x.2.val
/-- A code index lies in a code range in force on lane n. -/
def State.inCode (s : State) (n i : Nat) : Bool :=
  (s.rangesOf n).any fun m => let r := codeRange s.force m; decide (r.1 ≤ i ∧ i < r.1 + r.2)
/-- A data index lies in a data range in force on lane n. -/
def State.inData (s : State) (n i : Nat) : Bool :=
  (s.rangesOf n).any fun m => let r := dataRange s.force m; decide (r.1 ≤ i ∧ i < r.1 + r.2)

/-- A range of words copied from one lane's store to the same indices of another's; true where a word of it is uncorrectable. -/
def State.copyWords (s : State) (src dst : Nat → Nat) (b n : Nat) : State × Bool :=
  let bad := (List.range n).any fun i => s.eccBad.contains (src (b + i))
  (forN n (fun i s => s.putWord (dst (b + i)) (s.wordAt (src (b + i)))) s, bad)

/-- A register in force moved by a takeover: its staged half and, until the cut-off, its live mirror read as before (R107, Table 3-4). -/
def State.moveCf (s : State) (p o : Nat) (v : Word) : State :=
  let live := s.cf p o
  let old := s.cd p o
  let s := (s.setCf p o v).setCd p o old
  s.onStage fun g => { g with shown := if (mapFind g.shown (regAddr p o)).isSome then g.shown else mapPut g.shown (regAddr p o) live }

/-- The target's release after the retirement: the code and data ranges of lane n are copied to lane g and the tasks move in the
live pages (Table 3-4 steps 2 and 4; R340). -/
def State.takeover (s : State) (n g : Nat) : State :=
  let c := s.force
  let held := s.rangesOf n
  let (s, bad) := held.foldl (fun (x : State × Bool) m =>
    let (cb, cw) := codeRange c m
    let (db, dw) := dataRange c m
    let (s1, b1) := x.1.copyWords (codeAddr n) (codeAddr g) cb cw
    let (s2, b2) := s1.copyWords (dataAddr n) (dataAddr g) db dw
    (s2, x.2 || b1 || b2)) (s, false)
  let moved := (List.range 16).filter (taskEn c n)
  let s := forL (moved.zip (freeSlots c g)) (fun x s =>
    let s := forL [LANE.TASK_CFG 0, LANE.TASK_ENTRY 0, LANE.TASK_BOUND 0, LANE.TASK_ARRIVAL 0] (fun o s =>
      s.moveCf (pgLane g) (o + 0x10 * x.2) (c (pgLane n) (o + 0x10 * x.1))) s
    let mv := fun (l : List Nat) => if (s.ln n).held.contains x.1 then l ++ [x.2] else l
    (s.moveCf (pgLane n) (LANE.TASK_CFG x.1) (putBt (c (pgLane n) (LANE.TASK_CFG x.1)) 0 false)).onLn g fun y =>
      { y with urgent := mv y.urgent }) s
  let s := forN 8 (fun a s =>
    if axComm c a ≠ 0 ∧ axLane c a = n then s.moveCf (pgAxis a) AXIS.CFG (putFld (axCfg c a) 10 8 g) else s) s
  let s := forN 128 (fun x s =>
    if ctxEn c x ∧ ctxLane c x = n then
      s.moveCf (pgLoop (x / 16)) (LOOP.CFG 0 + 0x70 * (x % 16)) (putFld (ctxCfg c x) 6 4 g) else s) s
  let s := if rescueEn c ∧ rescueLane c = n then s.moveCf pgHoist HOIST.RESCUE_CFG (putFld (rescueCfg c) 14 12 g) else s
  let s := s.onLn n fun x => { x with held := [] }
  let s := s.onStage fun x => { x with copied := x.copied ++ held.map fun m => (Fin.ofNat 8 g, Fin.ofNat 8 m) }
  if bad then forL (laneAxes c n) (fun a s => s.raiseNow srcTaskLost a) s else s

end Sys2Proof.Machine
end

