-- ==== Sys2Proof/Machine/Commands.lean ====
section
/-!
DEFINITION. The command path of both masters (R51 to R55, R67), the stage's life (R45 to R49, R60 to R66) and network time as a
count (R357).
-/
namespace Sys2Proof.Machine

/-! Network time. -/

/-- Network time at tick t in units of 2^-16 ns (R357). -/
def State.ntFine (s : State) (t : Nat) : Int :=
  (s.time.nb : Int) + (((t : Int) - s.time.tb) * 262144 * (100000000 + s.time.rho)) / 100000000
/-- Network time at tick t, rounded down to whole ns. -/
def State.ntAt (s : State) (t : Nat) : Int := s.ntFine t / 65536
/-- Network time is valid (R365). -/
def State.ntValid (s : State) : Bool := s.time.nt = .locked ∨ s.time.nt = .holdover ∨ s.time.nt = .grandmaster

/-! Commands. -/

/-- Page that holds a master's command registers. -/
def cmdPage (m : Master) : Nat :=
  match m with
  | .host => pgSys
  | .manager => pgMgmt
/-- Offsets of CMD_RESULT and the arguments agree with the SYS page (R51). -/
def resultOff (m : Master) : Nat :=
  match m with
  | .host => SYS.CMD_RESULT
  | .manager => MGMT.CMD_RESULT

/-- CMD_RESULT in the layout of Table 2-7. -/
def resultWord (seq code : Nat) (done acc : Bool) (res : Nat) : Word :=
  nw (seq * 2 ^ 24 + code * 2 ^ 16 + bitAt 15 done + bitAt 14 acc + res)

/-- CMD_RESULT written; MGMT.PAGE_EVENT.CMD_DONE sets when the manager's command is done. -/
def State.setResult (s : State) (m : Master) (seq code : Nat) (done acc : Bool) (res : Nat) : State :=
  let s := s.setLv (cmdPage m) (resultOff m) (resultWord seq code done acc res)
  if m = .manager ∧ done then s.event pgMgmt 1 else s

/-- The master's first and second argument word. -/
def State.arg0 (s : State) (m : Master) : Word := s.lv (cmdPage m) SYS.CMD_ARG0
/-- Second argument word. -/
def State.arg1 (s : State) (m : Master) : Word := s.lv (cmdPage m) SYS.CMD_ARG1

/-- An accepted access of a master (R48). -/
def State.touch (s : State) (m : Master) : State := s.onMstr m fun x => { x with lastAccess := s.now }

/-- A refusal while the fabric is down: counted in MGMT.REFUSED_COUNT, not logged (R420). -/
def State.downRefuse (s : State) : State := (s.inc16 pgMgmt MGMT.REFUSED_COUNT).event pgMgmt 16

/-- A refusal of a master's write or command, with the MGMT event of a manager's. -/
def State.refuseBy (s : State) (m : Master) (code cmd addr : Nat) : State :=
  let s := s.refuse m code cmd addr
  if m = .manager then s.event pgMgmt 16 else s

/-- The master's command completes, with its own result (R53). -/
def State.complete (s : State) (m : Master) (res : Nat) : State :=
  match (s.mstr m).busy with
  | none => s
  | some code =>
    (s.onMstr m fun x => { x with busy := none }).setResult m (s.mstr m).busySeq.toNat code.toNat true true res

/-- An accepted command that ends at once. -/
def State.accept (s : State) (m : Master) (seq : Byte) (code : Nat) : State :=
  s.setResult m seq.toNat code true true eNone

/-- An accepted command that leaves DONE = 0. -/
def State.begin_ (s : State) (m : Master) (seq : Byte) (code : Nat) : State :=
  (s.onMstr m fun x => { x with busy := some (BitVec.ofNat 8 code), busySeq := seq }).setResult m seq.toNat code false true eNone

/-- Codes the manager may issue (Table 2-6). -/
def mgrCode (code : Nat) : Bool := decide (1 ≤ code ∧ code ≤ 6) || code == 8

/-- First test of R54 that fails. -/
def firstFail (tests : List (Bool × Nat)) : Option Nat := (tests.find? (·.1)).map (·.2)

/-- A command runs the tests of R53 and R54 in order: `tests` are tests 2 to 5, each with its refusal code. STAGE_DISCARD and
SAFE_STOP pass the test of R53; a SAFE_STOP issued then leaves CMD_RESULT unchanged. -/
def State.command (s : State) (m : Master) (seq : Byte) (code : Nat) (tests : List (Bool × Nat)) (run : State → State) : State :=
  if !s.up then
    match m with
    | .host => s
    | .manager => s.downRefuse.setResult m seq.toNat code true false eState
  else
    let busy := (s.mstr m).busy.isSome
    if busy && code ≠ 2 && code ≠ 8 then s.refuseBy m eBusy code (regAddr (cmdPage m) SYS.CMD)
    else
      let bad := if m = .manager ∧ !mgrCode code then some eRange else firstFail tests
      match bad with
      | some e =>
        let s := s.refuseBy m e code (regAddr (cmdPage m) SYS.CMD)
        if busy then s else s.setResult m seq.toNat code true false e
      | none => run (s.touch m)

/-- A code that Table 2-6 does not hold, or that the manager may not issue (R52). -/
def State.badCommand (s : State) (m : Master) (seq : Byte) (code : Nat) : State :=
  s.command m seq code [(true, eRange)] id

/-! The stage. -/

/-- The other master owns the stage (R47). -/
def State.ownedByOther (s : State) (m : Master) : Bool :=
  match s.stage.owner with
  | none => false
  | some o => decide (o ≠ m)

/-- The stage closes: its words, dirty pages and readmissions are gone. -/
def State.closeStage (s : State) : State :=
  { s with
    stg := []
    stage := { s.stage with
      state := .closed, owner := none, dirty := [], readmits := [], due := none, commit := false, tag := none, proof := none
      voided := false } }

/-- Stage state as coded (Table 2-3). -/
def StageState.code (x : StageState) : Nat :=
  match x with
  | .closed => 0
  | .opened => 1
  | .proving => 2
  | .proved => 3
  | .failed => 4
  | .armed => 5

/-- First boundary at or after a tick, from the lengths fixed so far (R16, R61). -/
def State.boundaryFrom (s : State) (t : Nat) : Nat :=
  let b1 := s.time.frameStart + s.time.curLen
  let b2 := b1 + s.time.nextLen
  if t ≤ b1 then b1 else if t ≤ b2 then b2 else b2 + ceilDiv (t - b2) (frameLen s.force) * frameLen s.force

/-- A strike is armed now (R61). -/
def State.armStrike (s : State) : State :=
  let t := s.now + 2 * frameLen s.force
  (s.onStage fun g => { g with state := .armed, due := some (.tick t), proof := none }).setPair pgSys SYS.STRIKE_DUE_LO (s.boundaryFrom t)

/-- The refusal of a STRIKE_AT with network time T, if any (R64). -/
def State.strikeAtFail (s : State) (t : Nat) : Option Nat :=
  let now := s.ntAt s.now
  if !s.ntValid then some eState
  else if (t : Int) < now + 8 * frameLen s.force ∨ now + 60000000000 < (t : Int) then some eRange
  else none

/-- A STRIKE_AT is armed (R64). -/
def State.armStrikeAt (s : State) (t : Nat) (tag : Option (BitVec 16)) : State :=
  (s.onStage fun g => { g with state := .armed, due := some (.net t), tag := tag, proof := none }).setPair pgSys SYS.STRIKE_DUE_LO t

/-- Network time has become invalid or a jump was refused: an armed STRIKE_AT is cancelled (R65). -/
def State.cancelStrikeAt (s : State) : State :=
  match s.stage.due with
  | some (.net _) => (s.onStage fun g => { g with state := .proved, due := none, tag := none, commit := false }).event pgSys 4
  | _ => s

/-- The stage commands refused in a state (Table 2-13): code for closed, opened, proving, proved, failed, armed, commit. -/
def State.stageTest (s : State) (row : List Nat) : Bool × Nat :=
  let i := if s.stage.state = .armed ∧ s.stage.commit then 6 else s.stage.state.code
  let e := row.getD i 0
  (e != 0, e)

/-- A proof of the candidate starts; its outcome is judged on the present state (R57). -/
def State.startProof (s : State) (m : Master) (seq : Byte) (code : Nat) (arms : Bool) : State :=
  let o := s.proofOut
  (s.onStage fun g => { g with state := .proving, proof := some (o, arms), voided := false }).begin_ m seq code

/-- STAGE_OPEN (R44, R47). -/
def execStageOpen (m : Master) (seq arg8 : Byte) (s : State) : Out :=
  let _ := arg8
  .next (s.command m seq 0x01 [(s.ownedByOther m, eOwned), s.stageTest [0, 1, 1, 1, 1, 1, 1]] fun s =>
    ({ s with stg := [], stage := { s.stage with state := .opened, owner := some m, dirty := [], readmits := [], voided := false } }).accept
      m seq 0x01)

/-- STAGE_DISCARD: in PROVING the proof and its command are abandoned (R48); an armed strike is cancelled without STRIKE_ABORT. -/
def execStageDiscard (m : Master) (seq arg8 : Byte) (s : State) : Out :=
  let _ := arg8
  .next (s.command m seq 0x02 [(s.ownedByOther m, eOwned), s.stageTest [1, 0, 0, 0, 0, 0, 10]] fun s =>
    let b := if s.stage.state = .proving then none else (s.mstr m).busy
    (s.closeStage.onMstr m fun x => { x with busy := b }).accept m seq 0x02)

/-- PROOF (R57, R60). -/
def execProof (m : Master) (seq arg8 : Byte) (s : State) : Out :=
  let _ := arg8
  .next (s.command m seq 0x03 [(s.ownedByOther m, eOwned), s.stageTest [1, 0, 10, 0, 0, 1, 1]] fun s => s.startProof m seq 0x03 false)

/-- STRIKE (R61). -/
def execStrike (m : Master) (seq arg8 : Byte) (s : State) : Out :=
  let _ := arg8
  .next (s.command m seq 0x04 [(s.ownedByOther m, eOwned), s.stageTest [1, 1, 10, 0, 1, 1, 1]] fun s => s.armStrike.accept m seq 0x04)

/-- STRIKE_AT (R64): T in ARG0 and ARG1. -/
def execStrikeAt (m : Master) (seq arg8 : Byte) (s : State) : Out :=
  let _ := arg8
  let t := upair64 (s.arg0 m) (s.arg1 m)
  let bad := s.strikeAtFail t
  .next (s.command m seq 0x05 [(s.ownedByOther m, eOwned), s.stageTest [1, 1, 10, 0, 1, 1, 1], (bad.isSome, bad.getD 0)]
    fun s => (s.armStrikeAt t none).accept m seq 0x05)

/-- PROOF_STRIKE (R53, R61). -/
def execProofStrike (m : Master) (seq arg8 : Byte) (s : State) : Out :=
  let _ := arg8
  .next (s.command m seq 0x06 [(s.ownedByOther m, eOwned), s.stageTest [1, 0, 10, 0, 0, 1, 1]] fun s => s.startProof m seq 0x06 true)

/-- Page made dirty by a readmission, none for a class or index out of range (Table 2-8). -/
def readmitPage (cls idx : Nat) : Option Nat :=
  if cls = 1 ∧ idx < 8 then some (pgFb idx)
  else if cls = 2 ∧ idx < 32 then some pgAdc
  else if cls = 3 ∧ idx < 12 then some (pgGd (idx / 6))
  else if cls = 4 ∧ 12 ≤ idx ∧ idx < 32 then some (pgPwm (idx / 8))
  else if cls = 5 ∧ idx < 8 then some (pgLane idx)
  else if cls = 6 ∧ idx < 2 then some (pgCan idx)
  else if cls = 7 ∧ idx < 8 then some pgFio
  else none

/-- A page becomes dirty. -/
def State.markDirty (s : State) (p : Nat) : State :=
  s.onStage fun g => { g with dirty := if g.dirty.contains p then g.dirty else (p :: g.dirty).mergeSort }

/-- READMIT (R55). -/
def execReadmit (m : Master) (seq arg8 : Byte) (s : State) : Out :=
  let _ := arg8
  let cls := fld (s.arg0 m) 15 8
  let idx := fld (s.arg0 m) 7 0
  .next (s.command m seq 0x0A [(s.ownedByOther m, eOwned), s.stageTest [1, 0, 10, 0, 0, 1, 1],
      ((readmitPage cls idx).isNone, eRange), (!s.chRet cls idx, eState)] fun s =>
    let s := s.onStage fun g =>
      { g with readmits := ({ cls := cls, idx := idx } : ChanId) :: g.readmits.filter (· ≠ { cls := cls, idx := idx }), state := .opened }
    (s.markDirty ((readmitPage cls idx).getD 0)).accept m seq 0x0A)

/-- Bits of a staged register that a write changes: reserved bits read 0; bits that read 1 and ignore writes keep their value
(R9, Table 3-5, R283). -/
def stagedValue (p o : Nat) (v : Word) : Word :=
  match rowAt p o with
  | none => 0
  | some (_, r) =>
    let v := v &&& r.mask
    if p = pgSched ∧ o = SCHED.STATE_EN then v ||| 1
    else if p = pgSched ∧ o = SCHED.BG_ESSENTIAL then v ||| 3
    else if p = pgSafe ∧ SAFE.REACT 0 ≤ o ∧ o < SAFE.REACT 8 then
      let n := (o - SAFE.REACT 0) / 4
      let k := nw (reactMask n)
      (v &&& k) ||| (reactReset n &&& ~~~k)
    else v

/-- Why a staged write is discarded (R45, R46), if it is. -/
def State.stagedFail (s : State) (m : Master) (p : Nat) : Option Nat :=
  if (p == pgMgmt) != (m == .manager) then some eRange
  else if s.ownedByOther m then some eOwned
  else match s.stage.state with
    | .opened | .proved | .failed => none
    | .proving => some eBusy
    | _ => some eState

/-- A write to a staged register (R45): into the stage, the page dirty, an earlier proof void; or discarded and counted. -/
def State.stagedWrite (s : State) (m : Master) (a : Nat) (v : Word) : State :=
  let p := pageOf a
  let o := offOf a
  if !s.up then (if m = .manager then s.downRefuse else s)
  else match s.stagedFail m p with
    | some e => s.refuseBy m e 0 a
    | none =>
      let s := (s.touch m).setCd p o (stagedValue p o v)
      (s.onStage fun g => { g with state := .opened, proof := none }).markDirty p

/-- Access code of the register at an address, none where there is none. -/
def accAt (a : Nat) : Option Acc := (rowAt (pageOf a) (offOf a)).map fun x => x.2.acc

/-- STAGED_WRITE (R45): a write that reaches a staged register. -/
def execStagedWrite (m : Master) (addr : Addr) (v : Word) (s : State) : Out :=
  if addr.toNat < 0x100000 ∧ accAt addr.toNat = some .st then .next (s.stagedWrite m addr.toNat v) else .next s

/-- The registers of a proof's outcome (R59). -/
def State.writeProof (s : State) (o : ProofOut) : State :=
  let s := ((s.setLv pgSys SYS.PROOF_RESULT o.word).setLv pgSys SYS.PROOF_DEMAND o.demand).setLv pgSys SYS.PROOF_BUDGET o.budget
  if o.code = 0 then s else s.onStage fun g => { g with failedHere := some o.page.toNat }

/-- PROOF_DONE (R60): the stage becomes PROVED or FAILED, or OPEN when the proof was voided (R63); a PROOF_STRIKE that passes arms. -/
def execProofDone (s : State) : Out :=
  match s.stage.state, s.stage.proof, s.stage.owner with
  | .proving, some (o, arms), some m =>
    let s := (s.writeProof o).event pgSys 1
    let s := s.onStage fun g => { g with proof := none }
    if s.stage.voided then
      .next ((s.onStage fun g => { g with state := .opened, voided := false }).complete m eRetired)
    else if o.code = 0 then
      let s := s.onStage fun g => { g with state := .proved }
      .next ((if arms then s.armStrike else s).complete m eNone)
    else .next ((s.onStage fun g => { g with state := .failed }).complete m o.code.toNat)
  | _, _, _ => .next s

/-- STAGE_EXPIRED (R48): the lease of the owner runs out; a proof in progress is abandoned with E_STATE. -/
def execStageExpired (s : State) : Out :=
  let lease := (s.lv pgSys SYS.STAGE_LEASE).toNat
  match s.stage.owner with
  | some m =>
    if lease = 0 ∨ s.stage.state = .armed ∨ !s.up then .next s
    else
      let s := s.reach ((s.mstr m).lastAccess + msT lease)
      let s := if s.stage.state = .proving then s.complete m eState else s
      .next ((s.closeStage.event pgSys 16).logAdd 11 clsInfo (masterCode m) 0 0)
  | none => .next s

/-- RETRY_WINDOW_EXPIRY (R284): the channel is not back in service and counts a further onset; a leg held off for the window is
re-armed (R262, R268). -/
def execRetryWindowExpiry (c : ChanId) (s : State) : Out :=
  match (s.chan c.cls c.idx).retry with
  | some t =>
    let s := s.reach t
    if c.cls = 3 ∨ c.cls = 4 then
      .next ((s.onLg c.idx fun x => { x with retry := false, vdsHoldH := false, vdsHoldL := false }).backInService c.cls c.idx)
    else .next (s.onset c.cls c.idx)
  | none => .next s

/-- REPROOF_DONE (R91). -/
def execReproofDone (s : State) : Out :=
  match s.stage.reproof with
  | some o => .next (s.finishReproof o)
  | none => .next s

/-! The commit frame and the strike. -/

/-- At the start of frame k, whether it is the commit frame: the next boundary is the one the armed strike applies at (R61, R64). -/
def State.commitDue (s : State) : Bool :=
  let b := s.time.frameStart + s.time.curLen
  match s.stage.state, s.stage.due with
  | .armed, some (.tick t) => decide (t ≤ b)
  | .armed, some (.net t) => decide ((t : Int) ≤ s.ntAt b)
  | _, _ => false

/-- Start of the commit frame: check 3 is repeated; a failure cancels the strike (R63). -/
def State.enterCommit (s : State) : State :=
  if !s.commitDue then s
  else match checkState s with
    | none => s.onStage fun g => { g with commit := true }
    | some b =>
      ((s.onStage fun g => { g with state := .failed, due := none, tag := none }).writeProof (failAt 1 b)).event pgSys 4

/-- The staged half of every dirty page becomes its live half (R62), with the bookkeeping of the same step. The stage closes. -/
def State.applyStage (s : State) : State :=
  let owner := s.stage.owner
  let dirty := s.stage.dirty
  let gen := s.lv pgSys SYS.STRIKE_GEN + 1
  let s := (s.stg.filter fun x => dirty.contains (pageOf x.1)).foldl (fun s x => s.setCf (pageOf x.1) (offOf x.1) x.2) s
  let s := (s.setLv pgSys SYS.STRIKE_GEN gen).setPair pgSys SYS.STRIKE_TICK_LO s.time.frameStart
  let s := s.onStage fun g =>
    { g with liveGen := dirty.foldl (fun l p => mapPut l p gen) g.liveGen, failedHere := none, copied := [], shown := [] }
  let s := s.closeStage.event pgSys 2
  s.logAdd 5 clsInfo ((owner.map masterCode).getD 0) (gen.toNat % 256) 0

end Sys2Proof.Machine
end

