-- ==== Sys2Proof/Machine/NvLog.lean ====
section
/-!
DEFINITION. The impression log (R435 to R439): sectors, entries, the stored image, and their commands.
-/
namespace Sys2Proof.Machine

/-- Byte address of word w of sector k. -/
def secAddr (k w : Nat) : Nat := 0x400000 + 256 * k + 4 * w
/-- Word w of sector k. -/
def State.secW (s : State) (k w : Nat) : Word := s.wordAt (secAddr k w)
/-- TYPE of sector k: 1 events, 2 image, 0xFF free. -/
def State.secType (s : State) (k : Nat) : Nat := fld (s.secW k 0) 31 24
/-- SEQ of the sector opened last. -/
def State.lastSeq (s : State) : Nat := (List.range 256).foldl (fun m k => max m (s.secW k 1).toNat) 0
/-- First sector after k in ring order that the stored image does not hold. -/
def State.nextSector (s : State) (k : Nat) : Nat :=
  (((List.range 256).map fun i => (k + 1 + i) % 256).find? fun j => !s.log.image.contains j).getD ((k + 1) % 256)
/-- Oldest event sector: the least SEQ among the event sectors. -/
def State.oldestSector (s : State) : Nat :=
  (((List.range 256).filter fun k => s.secType k = 1).foldl (fun (best : Option Nat) k => match best with
    | none => some k
    | some b => if (s.secW k 1).toNat < (s.secW b 1).toNat then some k else some b) none).getD 0

/-- A sector is opened with a TYPE and part index (Table 18-4): SEQ one greater than the last, WRITES counted, its words 4 to 63. -/
def State.openSector (s : State) (k type part : Nat) (body : List Word) : State :=
  let seq := s.lastSeq + 1
  let writes := s.secW k 2 + 1
  let check := if type = 2 then crc32 ((List.range 60).map fun i => body.getD i 0) else 0
  s.putWords (secAddr k 0) ([nw (type * 2 ^ 24 + part * 2 ^ 16), nw seq, writes, check]
    ++ (List.range 60).map fun i => body.getD i 0)

/-- A sector is freed: TYPE 0xFF, WRITES kept, the rest 0 (R435). -/
def State.freeSector (s : State) (k : Nat) : State :=
  s.putWords (secAddr k 0) ([0xFF000000, 0, s.secW k 2] ++ List.replicate 61 0)

/-- The next event sector becomes the head (R437). -/
def State.openHead (s : State) : State :=
  let k := if s.log.opened then s.nextSector s.log.head else s.nextSector 255
  let s := s.openSector k 1 0 []
  (s.onLog fun g => { g with head := k, slot := 0, opened := true }).setLv pgNvlog NVLOG.SEQ (s.secW k 1)

/-- Word 0 of an entry without its CRC-8. -/
def LogEntry.word0 (e : LogEntry) : Nat := e.kind * 2 ^ 24 + e.cls * 2 ^ 21 + e.master * 2 ^ 19 + e.code % 256 * 2 ^ 8
/-- The four words of an entry (Table 18-5, R436). -/
def LogEntry.words (e : LogEntry) (boot : Nat) : List Word :=
  let rest := [e.detail, nw e.tick, nw (boot % 65536 * 2 ^ 16 + e.tick / 2 ^ 32 % 65536)]
  let c := crc8 (byteBits (wordsBytes (nw e.word0 :: rest)))
  nw (e.word0 + c) :: rest

/-- The log's write failed its verification: LOG_FAIL (R441). -/
def State.logFail (s : State) : State := (s.pfault pgNvlog 1).raisePulse srcLogFail 16

/-- After an entry has left the queue, the entry that tells how many were lost (R437). -/
def State.reportLost (s : State) : State :=
  if s.log.lostSince = 0 then s
  else
    let n := s.log.lostSince
    (s.onLog fun g => { g with lostSince := 0 }).logAdd 14 clsWarn 0 0 (nw n)

/-- LOG_ENTRY_COMMIT (R437): the first entry of the queue is written into the next free slot; filling slot 14 opens the next sector. -/
def execLogEntryCommit (verified : Bool) (s : State) : Out :=
  match s.log.queue with
  | [] => .next s
  | e :: rest =>
    let s := if s.log.opened then s else s.openHead
    let s := s.onLog fun g => { g with queue := rest }
    let at_ := secAddr s.log.head (4 + 4 * s.log.slot)
    let slot := s.log.slot
    let s :=
      if verified then
        ((s.putWords at_ (e.words s.log.boot)).inc32 pgNvlog NVLOG.ENTRY_COUNT).event pgNvlog 1
      else
        let k := s.free
        ({ s with free := k + 4 }.putWords at_ ((List.range 4).map fun i => Config.freeWord (k + i))).logFail
    let s := if slot = 14 then s.openHead else s.onLog fun g => { g with slot := slot + 1 }
    .next s.reportLost

/-! The stored image. -/

/-- Words from an address on as runs of at most 256, each with its leading word (R439). -/
def runsOf (a : Nat) (ws : List Word) : List Word :=
  (List.range (ceilDiv ws.length 256)).flatMap fun i =>
    let part := (ws.drop (256 * i)).take 256
    nw ((part.length - 1) * 2 ^ 24 + a + 1024 * i) :: part

/-- Consecutive staged words of one page gathered into groups, ascending. -/
def groupWords : List (Nat × Word) → List (Nat × List Word)
  | [] => []
  | (a, w) :: rest =>
    match groupWords rest with
    | (b, ws) :: more => if b = a + 4 ∧ pageOf a = pageOf b then (a, w :: ws) :: more else (a, [w]) :: (b, ws) :: more
    | [] => [(a, [w])]

/-- The image body: memory runs, then page runs (R439). -/
def State.imageBody (s : State) : List Word :=
  let c := s.force
  let lanes := (List.range 8).flatMap fun n =>
    let (cb, cw) := codeRange c n
    let (db, dw) := dataRange c n
    if cw = 0 then []
    else runsOf (codeAddr n cb) (s.wordsAt (codeAddr n cb) cw) ++ runsOf (dataAddr n db) (s.wordsAt (dataAddr n db) dw)
  let rings := (List.range 64).flatMap fun ch =>
    if dmaEn c ch then runsOf (ringBase c ch) ((s.ringDescs c ch).flatMap fun d => d.take 6 ++ [0, 0]) else []
  let masks := (List.range 4).flatMap fun m =>
    if bt (maskCfg c m) 31 then runsOf (maskBase c m) (s.wordsAt (maskBase c m) (2 * maskLen c m)) else []
  let pages := (groupWords (s.cfg.filter fun x => pageOf x.1 ≠ pgMgmt)).flatMap fun x => runsOf x.1 x.2
  lanes ++ rings ++ masks ++ pages

/-- The image's sectors, words 4 to 63 of each; none when the body is larger than 3836 words. -/
def State.imageSectors (s : State) : List (List Word) :=
  let body := s.imageBody
  let n := if body.length ≤ 56 then 1 else 1 + ceilDiv (body.length - 56) 60
  if 3836 < body.length then []
  else
    let head := [nw (n * 2 ^ 16 + 0x31), nw body.length, nw (s.log.boot % 65536 * 2 ^ 16 + (s.lv pgSys SYS.STRIKE_GEN).toNat % 65536), crc32 body]
    (head ++ body.take 56) :: (List.range (n - 1)).map fun i => (body.drop (56 + 60 * i)).take 60

/-- SAVE_IMAGE (R68, R439). -/
def execSaveImage (m : Master) (seq arg8 : Byte) (s : State) : Out :=
  let _ := arg8
  .next (s.command m seq 0x0B [(decide (2 ≤ s.sched.state), eState)] fun s =>
    (s.onStage fun g => { g with save := some false }).begin_ m seq 0x0B)

/-- Step 2 of the first boundary after acceptance, after any strike: the snapshot (R439). -/
def State.takeImage (s : State) : State :=
  match s.stage.save with
  | some false => (s.onStage fun g => { g with save := some true }).onLog fun g => { g with saving := s.imageSectors }
  | _ => s

/-- Registers of the stored image, from its part 0. -/
def State.imageRegs (s : State) : State :=
  match s.log.image with
  | [] => s
  | k :: _ =>
    ((s.setLv pgNvlog NVLOG.IMAGE_SIZE (s.secW k 5 &&& 0x1FFF)).setLv pgNvlog NVLOG.IMAGE_GEN (s.secW k 6)).setLv pgNvlog
      NVLOG.IMAGE_CRC (s.secW k 7)

/-- Image sectors written at the next sectors after the head, part by part, the old image freed after them (R438, R439). -/
def State.placeImage (s : State) (parts : List (List Word)) : State :=
  let old := s.log.image
  let (s, new) := parts.zipIdx.foldl (fun (x : State × List Nat) part =>
    let from_ := (x.2.getLast?).getD x.1.log.head
    let k := ((List.range 256).map fun i => (from_ + 1 + i) % 256).find? fun j => !old.contains j && j != x.1.log.head
    match k with
    | none => x
    | some k => (x.1.openSector k 2 part.2 part.1, x.2 ++ [k])) (s, [])
  let s := forL old (fun k s => s.freeSector k) s
  (s.onLog fun g => { g with image := new }).imageRegs

/-- IMAGE_SAVE_DONE (R439). -/
def execImageSaveDone (verified : Bool) (s : State) : Out :=
  match s.stage.save with
  | some true =>
    let parts := s.log.saving
    let s := (s.onStage fun g => { g with save := none }).onLog fun g => { g with saving := [] }
    if parts.isEmpty then .next ((s.event pgNvlog 8).complete .host eRange)
    else if !verified then .next ((s.event pgNvlog 8).logFail.complete .host eCrc)
    else .next ((((s.placeImage parts).event pgNvlog 4).logAdd 10 clsInfo (masterCode .host) 0 0).complete .host eNone)
  | _ => .next s

/-- LOG_WEAR_COPY (R438): the stored image is copied forward to the sectors after the head; the old sectors are freed once the copy
is verified. -/
def execLogWearCopy (verified : Bool) (s : State) : Out :=
  if s.log.image.isEmpty ∨ !s.log.opened then .next s
  else if !verified then .next s.logFail
  else .next (s.placeImage (s.log.image.map fun k => s.wordsAt (secAddr k 4) 60))

/-- IMAGE_VALID: an image whose part 0 was written. -/
def State.imageValid (s : State) : Bool := !s.log.image.isEmpty

/-- The stored image's body as it stands in its sectors. -/
def State.storedBody (s : State) : List Word :=
  let all := s.log.image.flatMap fun k => s.wordsAt (secAddr k 4) 60
  (all.drop 4).take (all.getD 1 0).toNat

/-- Runs of a body: first address and words; fuel is the body's length. -/
def bodyRuns : Nat → List Word → List (Nat × List Word)
  | 0, _ => []
  | _, [] => []
  | n + 1, h :: rest => (fld h 23 0, rest.take (fld h 31 24 + 1)) :: bodyRuns n (rest.drop (fld h 31 24 + 1))

/-- Why the stored image is not valid at power-up (R451): E_CRC, or E_RANGE for its layout version. -/
def State.imageBad (s : State) : Option Nat :=
  match s.log.image with
  | [] => some eCrc
  | k :: _ =>
    if crc32 s.storedBody ≠ s.secW k 7 then some eCrc
    else if fld (s.secW k 4) 7 0 ≠ 0x31 then some eRange
    else none

/-- NVLOG.STATUS (Table 18-10). -/
def State.nvStatus (s : State) : Word :=
  nw (s.log.head * 2 ^ 24 + s.log.slot * 2 ^ 20 + (if s.log.opened then s.oldestSector else 0) * 2 ^ 8 + bitAt 2 s.imageValid
    + bitAt 1 (s.stage.save == some true) + (!bt (s.lv pgNvlog pageFault) 0).toNat)

/-- Step 7 of Table 19-1: the log is scanned, BOOT increments, a KIND 9 entry is committed. -/
def State.bootLog (s : State) (source : Nat) : State :=
  let s := if s.log.opened then s else s.openHead
  let s := s.onLog fun g => { g with boot := g.boot + 1 }
  let s := s.setLv pgNvlog NVLOG.BOOT (nw (s.log.boot % 65536))
  match execLogEntryCommit true (s.onLog fun g =>
    { g with queue := ({ kind := 9, cls := clsInfo, master := 0, code := 0, detail := nw source, tick := s.now } : LogEntry) :: g.queue }) with
  | .next t => t.imageRegs
  | _ => s

end Sys2Proof.Machine
end

