-- ==== Sys2Proof/Machine/Signals.lean ====
section
/-!
DEFINITION. Signals (R97, Table 4-2) and ADC channels (R149, R150): what a selector reads and whether its block reports it valid.
-/
namespace Sys2Proof.Machine

/-- Gain of a shunt channel under its configuration word (Table 5-9). -/
def shuntGain (w : Word) : Nat := 2 ^ fld w 2 0

/-- A code of ADC channel ch as Q1.31 of the channel's input range: shunt 14 bits signed, sigma-delta Q1.31, AIN 14 bits unsigned. -/
def adcQ31 (ch : Nat) (code : Int) : Int := if ch < 8 then code * 262144 else if ch < 16 then code else code * 131072

/-- Configuration word of ADC channel ch. -/
def adcCfg (c : Cfg) (ch : Nat) : Word :=
  if ch < 8 then c pgAdc (ADC.SHUNT_CFG ch) else if ch < 16 then c pgAdc (ADC.SD_CFG (ch - 8)) else c pgAdc (ADC.AIN_CFG (ch - 16))

/-- EN of ADC channel ch. -/
def adcEn (c : Cfg) (ch : Nat) : Bool :=
  bt (adcCfg c ch) (if ch < 8 then 4 else if ch < 16 then 15 else 0)

/-- Offset of the RAW register of ADC channel ch. -/
def adcRawOff (ch : Nat) : Nat :=
  if ch < 8 then ADC.SHUNT_RAW ch else if ch < 16 then ADC.SD_RAW (ch - 8) else ADC.AIN_RAW (ch - 16)

/-- ADC channel ch is neither in retry nor retired (R145, R149). -/
def State.adcGood (s : State) (ch : Nat) : Bool := !s.chRet 2 ch && !s.inRetry 2 ch

/-- Value in mV of an AIN channel in the sample set: FS_MV at full code 16383 (Table 5-9), under the range it was taken with. -/
def State.ainMv (s : State) (n : Nat) : Int :=
  let x := s.samples.adc.getD (16 + n) {}
  roundDiv (x.code * (fld x.cfg 31 16 : Nat)) 16383

/-- Output of a context as a consumer sees it: 0 while it does not deliver (R103). -/
def State.ctxOut (s : State) (x : Nat) : Int :=
  match (s.cx x).state with
  | .ramp | .closed => (s.cx x).yNew
  | .held => (s.cx x).u
  | _ => 0

/-- Quantity q of axis a (Table 4-2). -/
def State.axQuantity (s : State) (a q : Nat) : Int :=
  match q with
  | 0 => s.axPos a
  | 1 => s.axSpeed a
  | 2 => (s.dr a).id
  | 3 => (s.dr a).iq
  | 4 => (s.dr a).torqueEst
  | 5 => (s.mt a).p0
  | 6 => (s.mt a).v0
  | _ => 0

/-- Value of a selector at this instant, unscaled; a CONTEXT selector reads the output in force since the last boundary (R324). -/
def State.signal (s : State) (sel : Nat) : Int :=
  let i := selIdx sel
  match selKind sel with
  | 1 => (s.cx i).yB
  | 2 => (s.lv (pgLoop (i / 16)) (LOOP.SP_LIVE (i % 16))).toInt
  | 3 => s.axQuantity (i / 16 % 16) (i % 16)
  | 4 => adcQ31 i (s.samples.adc.getD i {}).code
  | 5 => s.samples.hk.getD i 0
  | 6 => (s.wordAt (sigAddr i)).toInt
  | _ => 0

/-- Position and speed of an axis are reported valid: its interface is valid, or a substitute is in use (R112, R140, R300). -/
def State.axFbValid (s : State) (a : Nat) : Bool :=
  if a < 8 ∧ (s.ax a).sub then true
  else match axFb s.force a with
    | some n => (s.fb n).valid
    | none => true

/-- The signal is invalid or its channel retired (R112). -/
def State.signalBad (s : State) (sel : Nat) : Bool :=
  let i := selIdx sel
  match selKind sel with
  | 1 => (s.cx i).state = .held
  | 3 =>
    let a := i / 16 % 16
    let q := i % 16
    if q = 0 then !s.axFbValid a
    else if q = 1 then
      if a < 8 ∧ axAngle s.force a = 2 then (s.dr a).restarting else !s.axFbValid a
    else if 2 ≤ q ∧ q ≤ 4 then (axSense s.force a).any fun ch => !s.adcGood ch
    else false
  | 4 => !s.adcGood i
  | _ => false

end Sys2Proof.Machine
end

