-- ==== Sys2Proof/Machine/Loop.lean ====
section
/-!
DEFINITION. Loop contexts (chapter 4): their execution (R98 to R112), selection (R114), what the boundary does with them, and the
LOOP page as it reads (R115).
-/
namespace Sys2Proof.Machine

/-- A sum of products stored under sat(): value in Q1.31 from a numerator over 2^n, with the flag of a clamp (R108). -/
def satStore (x : Int) (n : Nat) : Int × Bool :=
  let r := roundShift x n
  (satS 32 r, satS 32 r != r)

/-- A Q8.24 gain. -/
def ctxGain (c : Cfg) (x o : Nat) : Int := (ctxReg c x o).toInt

/-- POS_SHIFT and RAW_SHIFT. -/
def ctxPosShift (c : Cfg) (x : Nat) : Nat := fld (ctxReg c x (LOOP.SHIFT 0)) 20 16
/-- RAW_SHIFT. -/
def ctxRawShift (c : Cfg) (x : Nat) : Nat := fld (ctxReg c x (LOOP.SHIFT 0)) 4 0

/-- A source of context x: POSITION unscaled, RAW scaled under saturation, Q1.31 as it stands (R98). -/
def State.ctxSource (s : State) (x sel : Nat) : Int × Bool :=
  let v := if selKind sel = 1 then s.ctxOut (selIdx sel) else s.signal sel
  if selRaw sel then
    let r := v * (2 ^ ctxRawShift s.force x : Nat)
    (satS 32 r, satS 32 r != r)
  else (v, false)

/-- Number of the consumer's execution since its source executed (R104). -/
def State.rampIndex (s : State) (x : Nat) : Nat :=
  if (s.cx (selIdx (ctxSp s.force x))).done then 1 else (s.cx x).rampI + 1

/-- Set-point of a context after interpolation (R104), with the number of this execution in rampI. -/
def State.ctxSetPoint (s : State) (x : Nat) : Int × Bool :=
  let c := s.force
  let sel := ctxSp c x
  if bt (ctxCfg c x) 27 ∧ selKind sel = 1 then
    let y := s.cx (selIdx sel)
    let n := 2 ^ (ctxDivL c (selIdx sel) - ctxDivL c x)
    if y.state = .ramp ∨ y.state = .closed then
      (y.yOld + roundDiv ((y.yNew - y.yOld) * ((s.cx x).rampI : Nat)) n, false)
    else (0, false)
  else s.ctxSource x sel

/-- The context takes positions (R98). -/
def ctxPos (c : Cfg) (x : Nat) : Bool := selPos (ctxSp c x)

/-- Difference of two source values in Q1.31, before saturation (R98). -/
def ctxDiff (c : Cfg) (x : Nat) (d : Int) : Int :=
  if ctxPos c x then roundDiv (wrap64 d * (2 ^ ctxPosShift c x : Nat)) 65536 else d

/-- SS_STEP in the units of the ramp variable (R111); a step below one unit is one unit. -/
def ctxStep (c : Cfg) (x : Nat) : Int :=
  let st := (ctxReg c x (LOOP.SS_STEP 0)).toNat
  if ctxPos c x then max 1 (roundDiv ((st * 65536 : Nat) : Int) (2 ^ ctxPosShift c x)) else st

/-- The output that delivers to a destination, a HELD context's held output included (R101, R111). -/
def State.delivering (s : State) (dst : Nat) : Option Int :=
  (List.range 128).findSome? fun x => if ctxEn s.force x && ctxDst s.force x == dst then (s.cx x).force else none

/-- A Q1.31 torque as a Q1.31 current: times K_TI, with saturation (R119, R120). -/
def State.torqueToIq (s : State) (a : Nat) (t : Int) : Int := satS 32 (roundShift (t * (s.dr a).kTi) 24)

/-- Base Iq reference of R119, step 1. -/
def State.iqBase (s : State) (a : Nat) : Int :=
  (s.delivering (0x3000 + 16 * a)).getD (s.torqueToIq a (s.dr a).torqueCmd)
/-- Base Id reference. -/
def State.idBase (s : State) (a : Nat) : Int := (s.delivering (0x3000 + 16 * a + 1)).getD (s.dr a).idCmd

/-- Value in force at a destination (R111). -/
def State.destValue (s : State) (dst : Nat) : Int :=
  let i := selIdx dst
  match selKind dst with
  | 3 =>
    let a := i / 16
    match i % 16 with
    | 0 => s.iqBase a
    | 1 => s.idBase a
    | _ => (s.delivering dst).getD (s.dr a).tLim
  | 6 => (s.wordAt (sigAddr i)).toInt
  | 7 => (((s.lg i).delivered.getD (fld (s.lg i).duty 15 0) * 32768 : Nat) : Int)
  | _ => 0

/-- The integrator clamped so that its upper word stays within the I limits; the flag tells a clip (R108). -/
def clampInt (c : Cfg) (x : Nat) (i : Int) : Int × Bool :=
  let hi := (ctxReg c x (LOOP.I_MAX 0)).toInt
  let lo := (ctxReg c x (LOOP.I_MIN 0)).toInt
  let up := i / (2 ^ 32 : Nat)
  if hi < up then (hi * (2 ^ 32 : Nat), true) else if up < lo then (lo * (2 ^ 32 : Nat), true) else (i, false)

/-- The context has an integrator. -/
def ctxIntegrates (c : Cfg) (x : Nat) : Bool := ctxStruct c x == 1 || ctxStruct c x == 2 || ctxStruct c x == 3

/-- One biquad (Table 4-1), its result under sat() and its new history. -/
def biquad (c : Cfg) (x : Nat) (y : CtxSt) (v : Int) : Int × Bool × CtxSt :=
  let k := fun o => ctxGain c x o
  let (r, f) := satStore (k (LOOP.B0 0) * v + k (LOOP.B1 0) * y.x1 + k (LOOP.B2 0) * y.x2 - k (LOOP.A1 0) * y.y1 - k (LOOP.A2 0) * y.y2) 30
  (r, f, { y with x2 := y.x1, x1 := v, y2 := y.y1, y1 := r })

/-- OUT limits and SLEW: the output and whether it was cut (R108). -/
def ctxLimit (c : Cfg) (x : Nat) (uPrev v : Int) : Int × Bool :=
  let u := clampI (ctxReg c x (LOOP.OUT_MIN 0)).toInt (ctxReg c x (LOOP.OUT_MAX 0)).toInt v
  let sl := (ctxReg c x (LOOP.SLEW 0)).toInt
  let u := if sl = 0 then u else clampI (uPrev - sl) (uPrev + sl) u
  (u, u != v)

/-- DEADBAND on the error. -/
def ctxDeadband (c : Cfg) (x : Nat) (e : Int) : Int :=
  let d := (ctxReg c x (LOOP.DEADBAND 0)).toInt
  if d = 0 then e else sgn e * max (e.natAbs - d) 0

/-- Derivative state after this execution (PID). -/
def ctxDeriv (c : Cfg) (x : Nat) (y : CtxSt) (fb : Int) : Int :=
  if ctxStruct c x ≠ 2 then 0
  else
    let df := ctxGain c x (LOOP.DF 0)
    let t := -(ctxGain c x (LOOP.KD 0) * ctxDiff c x (fb - y.fbPrev)) - y.dv * (2 ^ 24 : Nat)
    satS 32 (y.dv + roundShift (df * t) 55)

/-- What one controller execution starts from: set-point after the soft start, error, feed-forward. -/
structure CtxIn where
  sp : Int
  fb : Int
  e : Int
  ff : Int
  sat : Bool
  deriving DecidableEq, Repr

/-- Set-point, error and feed-forward of an execution; `rv` moves first when the soft start runs (R98, R108). -/
def State.ctxIn (s : State) (x : Nat) (sp : Int) (f0 : Bool) : CtxIn :=
  let c := s.force
  let (fb, f1) := s.ctxSource x (ctxFbS c x)
  let d := ctxDiff c x (sp - fb)
  let e0 := satS 32 d
  let (fs, f2) := s.ctxSource x (ctxFf c x)
  let (ff, f3) := satStore (ctxGain c x (LOOP.FF_GAIN 0) * fs) 24
  { sp := sp, fb := fb, e := ctxDeadband c x e0, ff := ff, sat := f0 || f1 || f2 || f3 || (e0 != d) }

/-- Integrator preset of R111. -/
def State.ctxPreset (s : State) (x : Nat) (i : CtxIn) : Int :=
  let c := s.force
  if !bt (ctxCfg c x) 28 then (ctxReg c x (LOOP.I_PRESET 0)).toInt * (2 ^ 32 : Nat)
  else
    let p := roundShift (ctxGain c x (LOOP.KP 0) * i.e) 24
    (clampInt c x ((s.destValue (ctxDst c x) - p - i.ff) * (2 ^ 32 : Nat))).1

/-- SAT of a context sets; the page event when it goes from 0 to 1. -/
def State.ctxSat (s : State) (x : Nat) (f : Bool) : State :=
  if f && !(s.cx x).sat then (s.onCx x fun y => { y with sat := true }).event (pgLoop (x / 16)) (2 ^ (x % 16)) else s

/-- The result of an execution: the output is new, and at the destination from the next boundary unless a selection set delivers. -/
def State.ctxDone (s : State) (x : Nat) (out : Option Int) : State :=
  let own := (ctxSet s.force x).isNone
  s.onCx x fun y => { y with yOld := y.yNew, yNew := out.getD 0, next := if own then out else none, done := true }

/-- One delivering execution of a controller (R108). -/
def State.runController (s : State) (x : Nat) (i : CtxIn) : State :=
  let c := s.force
  let y := s.cx x
  let st := ctxStruct c x
  let pi := ctxIntegrates c x
  let kp := ctxGain c x (LOOP.KP 0)
  let dv := ctxDeriv c x y i.fb
  let iNew := if pi then y.i + ctxGain c x (LOOP.KI 0) * i.e * 256 else 0
  let rest := kp * i.e + (dv + i.ff) * (2 ^ 24 : Nat)
  let (v, f1) := satStore (rest + (iNew / (2 ^ 32 : Nat)) * (2 ^ 24 : Nat)) 24
  let (v, f2, y) := if st = 3 then biquad c x y v else (v, false, y)
  let (u, cut) := ctxLimit c x y.uPrev v
  let aw := fld (ctxCfg c x) 26 25
  let iNew := if pi && aw == 0 && u != v && sgn i.e == sgn (v - u) then y.i else iNew
  let iNew := if pi && aw == 1 then iNew + ctxGain c x (LOOP.KT 0) * (u - v) * 256 else iNew
  let (iFin, clip) := if pi then clampInt c x iNew else (0, false)
  let up := iFin / (2 ^ 32 : Nat)
  let atLim := pi && (up == (ctxReg c x (LOOP.I_MAX 0)).toInt || up == (ctxReg c x (LOOP.I_MIN 0)).toInt)
  let s := s.onCx x fun z =>
    { z with
      i := iFin, fbPrev := i.fb, dv := dv, u := u, uPrev := u, x1 := y.x1, x2 := y.x2, y1 := y.y1, y2 := y.y2, oSat := cut
      iSat := atLim, rest := roundShift rest 24 }
  (s.ctxSat x (i.sat || f1 || f2 || cut || clip)).ctxDone x (some u)

/-- One execution of an OPEN controller: its sources are read, the derivative follows, the integrator stays at its preset (R109, R111). -/
def State.runOpen (s : State) (x : Nat) (i : CtxIn) : State :=
  let c := s.force
  let dv := ctxDeriv c x (s.cx x) i.fb
  let pre := if ctxIntegrates c x then s.ctxPreset x i else 0
  let s := s.onCx x fun y =>
    { y with state := .opened, i := pre, fbPrev := i.fb, dv := dv, u := 0, oSat := false, iSat := false, lost := false }
  s.ctxDone x none

/-- The set-point moved by the soft start from rv (R108, R111). -/
def rampTo (c : Cfg) (x : Nat) (rv sp : Int) : Int := rv + clampI (-ctxStep c x) (ctxStep c x) (sp - rv)

/-- R110 calls for the controller to be closed. -/
def State.wantClosed (s : State) (x : Nat) : Bool :=
  match ctxAxis s.force x with
  | some a => (s.ax a).state.moving
  | none => (s.cx x).closeReq

/-- A controller executes (R108 to R112). -/
def State.runCtl (s : State) (x : Nat) : State :=
  let c := s.force
  let y := s.cx x
  let (sp, f) := s.ctxSetPoint x
  let soft := (ctxReg c x (LOOP.SS_STEP 0)).toNat != 0
  let closing := y.state != .ramp && y.state != .closed
  let (fb, _) := s.ctxSource x (ctxFbS c x)
  let rv0 := if closing then fb else y.rv
  let ramping := soft && (closing || y.state == .ramp)
  let rv := if ramping then rampTo c x rv0 sp else sp
  let i := s.ctxIn x rv f
  if !s.wantClosed x then s.runOpen x i
  else
    let s := if closing then
        let pre := if ctxIntegrates c x then s.ctxPreset x i else 0
        s.onCx x fun z => { z with i := pre, dv := 0, uPrev := 0, x1 := 0, x2 := 0, y1 := 0, y2 := 0 }
      else s
    let s := s.onCx x fun z => { z with rv := rv, state := if ramping ∧ rv ≠ sp then .ramp else .closed }
    s.runController x i

/-- A filter executes (R108). -/
def State.runFilter (s : State) (x : Nat) : State :=
  let c := s.force
  let y := if (s.cx x).state = .held then { s.cx x with x1 := 0, x2 := 0, y1 := 0, y2 := 0 } else s.cx x
  let (v, f) := s.ctxSetPoint x
  let (r, g, y) :=
    if ctxStruct c x = 4 then biquad c x y v
    else
      let (r, g) := satStore (y.y1 * (2 ^ 30 : Nat) + ctxGain c x (LOOP.B0 0) * (v - y.y1)) 30
      (r, g, { y with y1 := r })
  let (u, cut) := ctxLimit c x y.uPrev r
  let s := s.onCx x fun _ => { y with state := .closed, u := u, uPrev := u, oSat := cut }
  (s.ctxSat x (f || g || cut)).ctxDone x (some u)

/-- A context is HELD: its last output stays, its integrator is frozen (R112). -/
def State.runHeld (s : State) (x : Nat) : State :=
  let s := if (s.cx x).state = .held then s
    else ((s.onCx x fun y => { y with state := .held }).event (pgLoop (x / 16)) (2 ^ (16 + x % 16))).pfault (pgLoop (x / 16)) (2 ^ (x % 16))
  s.onCx x fun y => { y with next := y.force, done := true }

/-- A selection set delivers after its last member (R114). -/
def State.select (s : State) (g : Nat) : State :=
  let c := s.force
  let ms := setMembers c g
  let act := ms.filter fun x => (s.cx x).state = .ramp || (s.cx x).state = .closed
  match act with
  | [] => s
  | m0 :: _ =>
    let mag := bt (ctxReg c m0 (LOOP.BIND 0)) 13
    let key := fun x => if mag then (((s.cx x).u.natAbs : Nat) : Int) else (s.cx x).u
    let w0 := act.foldl (fun b x => if key x < key b then x else b) m0
    let sg := fun (v : Int) => if v < 0 then (-1 : Int) else 1
    let w := if mag then sg (s.cx m0).u * (s.cx w0).u.natAbs else (s.cx w0).u
    let s := forL act (fun x s =>
      if x = w0 then s.onCx x fun y => { y with lost := false }
      else
        let y := s.cx x
        let t := if mag then sg y.u * w.natAbs else w
        let (i, clip) := clampInt c x ((t - y.rest) * (2 ^ 32 : Nat))
        (s.onCx x fun z => { z with lost := true, i := if ctxIntegrates c x then i else 0 }).ctxSat x (clip && ctxIntegrates c x)) s
    s.onCx (ms.headD m0) fun y => { y with next := some w }

/-- The settings of a strike reach a context in its first execution after it: I within the new limits (R113). -/
def State.takeFresh (s : State) (x : Nat) : State :=
  if !(s.cx x).fresh then s
  else
    let (i, clip) := clampInt s.force x (s.cx x).i
    let keep := ctxIntegrates s.force x
    (s.onCx x fun y => { y with fresh := false, i := if keep then i else y.i }).ctxSat x (clip && keep)

/-- A loop context executes on its lane (R102, R108 to R114). -/
def State.runCtx (s : State) (x : Nat) : State :=
  let c := s.force
  if !ctxEn c x then s
  else
    let s := s.takeFresh x
    let s := s.onCx x fun y => { y with rampI := s.rampIndex x }
    let bad := [ctxSp c x, ctxFbS c x, ctxFf c x].any s.signalBad
    let s := if bad then s.runHeld x else if ctxFilter c x then s.runFilter x else s.runCtl x
    match ctxSet c x with
    | some g => if (setMembers c g).all fun m => (s.cx m).done then s.select g else s
    | none => s

/-- Released contexts of a lane in the sequencer's order: by depth, then by number (R102). -/
def ctxOrder (c : Cfg) (n : Nat) (released : Nat → Bool) : List Nat :=
  let l := (List.range 128).filter fun x => ctxEn c x && ctxLane c x == n && released x
  (List.range 129).flatMap fun d => l.filter fun x => ctxDepth c 128 x == d

/-- A boundary: outputs committed in the frame take effect, CLOSE_REQ is taken (R100, R110). -/
def State.ctxBoundary (s : State) : State :=
  forN 128 (fun x s =>
    if !ctxEn s.force x then s
    else
      let y := s.cx x
      let s := if y.done then
          let s := s.onCx x fun y => { y with force := y.next }
          match y.next with
          | some v => if selKind (ctxDst s.force x) = 6 then s.putWord (sigAddr (selIdx (ctxDst s.force x))) (iw v) else s
          | none => s
        else s
      s.onCx x fun y =>
        { y with yB := y.yNew, done := false, closeReq := bt (s.lv (pgLoop (x / 16)) LOOP.CLOSE_REQ) (x % 16) }) s

/-- Code of a context state (Table 4-5). -/
def CtxState.code (x : CtxState) : Nat :=
  match x with
  | .off => 0
  | .opened => 1
  | .ramp => 2
  | .closed => 3
  | .held => 4

/-- STATUS of a context (Table 4-9). -/
def State.ctxStatus (s : State) (x : Nat) : Word :=
  let y := s.cx x
  let b := if ctxEn s.force x then ctxBound s.force x else 0
  nw (b * 2 ^ 20 + bitAt 11 y.lost + bitAt 10 y.iSat + bitAt 9 y.oSat + bitAt 8 y.sat + bitAt 7 (y.state == .ramp) + y.state.code)

/-- OUT as it reads (Table 4-5). -/
def State.ctxShown (s : State) (x : Nat) : Word :=
  match (s.cx x).state with
  | .ramp | .closed | .held => iw (s.cx x).u
  | _ => 0

/-- LOOP page n as it reads where it shows the contexts' state. -/
def State.viewLoop (s : State) (n o : Nat) : Option Word :=
  let bitsOf := fun (f : CtxSt → Bool) => nw ((List.range 16).map fun j => bitAt j (f (s.cx (16 * n + j)))).sum
  if o = pageStatus then some (bitsOf fun y => y.state == .ramp || y.state == .closed)
  else if o = LOOP.SAT_SUM then some (bitsOf fun y => y.sat)
  else if LOOP.OUT 0 ≤ o ∧ o < LOOP.OUT 16 then some (s.ctxShown (16 * n + (o - LOOP.OUT 0) / 4))
  else if LOOP.STATUS 0 ≤ o ∧ o < LOOP.STATUS 16 then some (s.ctxStatus (16 * n + (o - LOOP.STATUS 0) / 4))
  else none

/-- CLEAR_EVENTS on the LOOP pages: SAT clears; a HELD bit clears once the context has left HELD. -/
def State.clearLoop (s : State) : State :=
  forN 128 (fun x s =>
    let s := s.onCx x fun y => { y with sat := false }
    if (s.cx x).state = .held then s else s.onLv (pgLoop (x / 16)) pageFault fun w => putBt w (x % 16) false) s

/-- Contexts follow a strike: newly enabled ones start OPEN (a filter CLOSED at its first execution), disabled ones are OFF; `changed`
tells which registers of the context differ, by offset in its block (R113). -/
def State.ctxStrike (s : State) (was : Nat → Bool) (changed : Nat → Nat → Bool) : State :=
  forN 128 (fun x s =>
    if !ctxEn s.force x then (if was x then s.onCx x fun _ => {} else s)
    else
      let s := if was x then s else s.onCx x fun _ => { state := .opened }
      let coef := [LOOP.B0 0, LOOP.B1 0, LOOP.B2 0, LOOP.A1 0, LOOP.A2 0].any (changed x)
      let any_ := (List.range 28).any fun i => changed x (LOOP.CFG 0 + 4 * i)
      let s := if any_ then s.onCx x fun y => { y with fresh := true } else s
      if coef && ctxFilter s.force x then s.onCx x fun y => { y with x1 := 0, x2 := 0, y1 := 0, y2 := 0 } else s) s

end Sys2Proof.Machine
end

