-- ==== Sys2Proof/Machine/Rope.lean ====
section
/-!
DEFINITION. What the commutation task of an axis takes from the HOIST page: the rope model with its damping, slack and snatch
(R196 to R202), the share of a group's torque (R206) and the regeneration clamp of the ladder (R221).
-/
namespace Sys2Proof.Machine

/-- The axis switches its legs (R126). -/
def State.axSwitching (s : State) (a : Nat) : Bool :=
  axComm s.force a != 0 && (s.ax a).state.moving && !(s.ax a).sto && !(s.ax a).asc

/-- A torque in mN·m in Q1.31 of T_FS of axis a. -/
def toTfs (c : Cfg) (a : Nat) (mNm : Rat) : Int :=
  satS 32 (roundRat (mNm / (max 1 (c (pgAxis a) AXIS.T_FS).toNat : Nat) * (2 ^ 31 : Nat)))

/-! Rope model. Registers of model r by their offset in block 0; units are SI. -/

/-- Staged register of model r. -/
def ropeReg (c : Cfg) (r o : Nat) : Word := c pgHoist (o + 0x40 * r)
/-- TRAVEL_NM in metres per count. -/
def ropeTravel (c : Cfg) (r : Nat) : Rat := ((ropeReg c r (HOIST.TRAVEL_NM 0)).toNat : Rat) / 1000000000
/-- r_e (R197). -/
def ropeRe (c : Cfg) (r : Nat) : Rat :=
  ropeTravel c r * ((c (pgAxis (ropeAxis c r)) AXIS.CPR).toNat : Rat) / (2 * Config.pi)
/-- MASS_L and MASS_M. -/
def ropeML (c : Cfg) (r : Nat) : Rat := ((ropeReg c r (HOIST.MASS_L 0)).toNat : Rat)
/-- MASS_M. -/
def ropeMM (c : Cfg) (r : Nat) : Rat := ((ropeReg c r (HOIST.MASS_M 0)).toNat : Rat)
/-- OBS_BW in rad/s. -/
def ropeBw (c : Cfg) (r : Nat) : Rat := (fld (ropeReg c r (HOIST.OBS_BW 0)) 15 0 : Rat) / 10

/-- Free rope length in mm, and whether the clamp acts (R196). -/
def ropeLen (c : Cfg) (r : Nat) (pos : Int) : Rat × Bool :=
  let x : Rat := (pos : Rat) / 65536 * ropeTravel c r * 1000
  let l := ((ropeReg c r (HOIST.LEN0 0)).toInt : Rat) + (if bt (ropeCfg c r) 1 then -x else x)
  let lo : Rat := ((ropeReg c r (HOIST.LEN_MIN 0)).toNat : Rat)
  let hi : Rat := ((ropeReg c r (HOIST.LEN_MAX 0)).toNat : Rat)
  if l < lo then (lo, true) else if hi < l then (hi, true) else (l, false)

/-- Stiffness in N/m for a length in mm. -/
def ropeK (c : Cfg) (r : Nat) (len : Rat) : Rat :=
  (fld (ropeCfg c r) 13 8 : Rat) * ((ropeReg c r (HOIST.EA_FALL 0)).toNat : Rat) * 1000000 / len

/-- One frame of the observer (R197) from drive force, stiffness, frame period and measured position. -/
def ropeStep (c : Cfg) (r : Nat) (x : RopeSt) (fd k tf xmeas : Rat) : RopeSt :=
  let cr : Rat := ((ropeReg c r (HOIST.C_ROPE 0)).toNat : Rat)
  let g := fun (i : Fin 5) => Config.ropeGain i k (ropeBw c r) (ropeMM c r) (ropeML c r) cr tf
  let fr := k * (x.xm - x.xl) + cr * (x.vm - x.vl)
  let xm := x.xm + x.vm * tf
  let vm := x.vm + (fd - fr) / ropeMM c r * tf
  let xl := x.xl + x.vl * tf
  let vl := x.vl + (fr - x.fs) / ropeML c r * tf
  let e := xmeas - xm
  let xm := xm + g 0 * e
  let vm := vm + g 1 * e
  let xl := xl + g 2 * e
  let vl := vl + g 3 * e
  { x with xm := xm, vm := vm, xl := xl, vl := vl, fs := x.fs + g 4 * e, fr := k * (xm - xl) + cr * (vm - vl) }

/-- Damping term in Q1.31 of T_FS, and whether DAMP_MAX acts (R200). -/
def ropeDamp (c : Cfg) (r : Nat) (x : RopeSt) (k : Rat) : Int × Bool :=
  let zeta : Rat := (fld (ropeCfg c r) 31 16 : Rat) / 65536
  if zeta = 0 then (0, false)
  else
    let d := 2 * zeta * Config.sqrtRat (k * ropeML c r * ropeMM c r / (ropeML c r + ropeMM c r))
    let t := -d * (x.vm - x.vl) * ropeRe c r
    let q := toTfs c (ropeAxis c r) (t * 1000)
    let mx : Int := ((ropeReg c r (HOIST.DAMP_MAX 0)).toNat : Nat)
    (clampI (-mx) mx q, decide (mx < q ∨ q < -mx))

/-- ROPE_STATUS bits kept between frames. -/
def ropeStatus (valid settling slack snatch clamped lim : Bool) : Word :=
  nw (bitAt 7 valid + bitAt 6 settling + bitAt 5 slack + bitAt 4 snatch + bitAt 3 clamped + bitAt 2 lim)

/-- The slack test (R201). -/
def State.ropeSlack (s : State) (r : Nat) : State :=
  let w := ropeReg s.force r (HOIST.SLACK 0)
  let n := fld w 31 24
  let x := s.rp r
  if x.fr < (fld w 23 0 : Rat) then
    let s := s.onRp r fun x => { x with slackRun := x.slackRun + 1, okRun := 0 }
    if n < x.slackRun + 1 ∧ !x.slack then
      (((s.onRp r fun x => { x with slack := true }).event pgHoist (2 ^ r)).pfault pgHoist (2 ^ r)).raise srcSlack (ropeAxis s.force r)
    else s
  else
    let s := s.onRp r fun x => { x with slackRun := 0, okRun := x.okRun + 1 }
    if x.slack ∧ n ≤ x.okRun + 1 then (s.onRp r fun x => { x with slack := false }).clearSrc srcSlack (ropeAxis s.force r) else s

/-- The snatch test (R202). -/
def State.ropeSnatch (s : State) (r : Nat) : State :=
  let w := ropeReg s.force r (HOIST.SNATCH 0)
  let n := fld w 31 24
  let x := s.rp r
  let win := (x.fr :: x.window).take n
  let low := win.foldl (fun m f => if f < m then f else m) x.fr
  let hit := decide ((fld w 23 0 : Rat) < x.fr - low) || decide (((ropeReg s.force r (HOIST.SNATCH_MAX 0)).toNat : Rat) < x.fr)
  let s := s.onRp r fun x => { x with window := win }
  if hit && x.snatchHold == 0 then
    ((s.onRp r fun x => { x with snatchHold := n }).event pgHoist (2 ^ (4 + r))).raisePulse srcSnatch (ropeAxis s.force r)
  else s.onRp r fun x => { x with snatchHold := x.snatchHold - 1 }

/-- The rope model of axis a in one frame (R196 to R202). -/
def State.runRope (s : State) (a : Nat) : State :=
  let c := s.force
  match axRope c a with
  | none => s
  | some r =>
    let fb := (axFb c a).map s.fb
    let ok := match fb with
      | some f => f.valid && f.referenced
      | none => false
    let pos := match fb with
      | some f => f.sPos
      | none => 0
    let (len, clamped) := ropeLen c r pos
    let k := ropeK c r len
    let freq := Config.sqrtRat (k * (1 / ropeML c r + 1 / ropeMM c r)) / (2 * Config.pi) * 100
    let s := ((s.setLv pgHoist (HOIST.ROPE_LEN r) (iw (roundRat len))).setLv pgHoist (HOIST.ROPE_K r) (iw (roundRat k))).setLv pgHoist
      (HOIST.ROPE_FREQ r) (nw (min 0xFFFF (roundRat freq).toNat))
    let s := if clamped then s.raise srcRopeRange a else s.clearSrc srcRopeRange a
    if !(ok && s.axSwitching a) then
      let s := s.onRp r fun x => { x with running := false, damp := 0, slackRun := 0, okRun := 0, window := [], snatchHold := x.snatchHold - 1 }
      (s.setLv pgHoist (HOIST.DAMP_TQ r) 0).setLv pgHoist (HOIST.ROPE_STATUS r)
        (ropeStatus false false (s.rp r).slack (decide (0 < (s.rp r).snatchHold)) clamped false)
    else
      let xmeas : Rat := (pos : Rat) / 65536 * ropeTravel c r
      let tf : Rat := (s.time.curLen : Rat) * 4 / 1000000000
      let s := if (s.rp r).running then s
        else s.onRp r fun x =>
          { x with running := true, xm := xmeas, xl := xmeas - x.fs / k, vm := 0, vl := 0,
                   settle := (-floorRat (-(5 / (ropeBw c r * tf)))).toNat, window := [], slackRun := 0, okRun := 0 }
      let fd := ((s.dr a).torqueEst : Rat) / (2 ^ 31 : Nat) * ((c (pgAxis a) AXIS.T_FS).toNat : Rat) / 1000 / ropeRe c r
      let x := ropeStep c r (s.rp r) fd k tf xmeas
      let (damp, lim) := ropeDamp c r x k
      let settling := decide (0 < x.settle)
      let s := s.onRp r fun _ => { x with damp := damp, settle := x.settle - 1 }
      let s := if settling then s.onRp r fun x => { x with snatchHold := x.snatchHold - 1 } else (s.ropeSlack r).ropeSnatch r
      let s := (s.setLv pgHoist (HOIST.ROPE_FORCE r) (iw (roundRat x.fr))).setLv pgHoist (HOIST.LOAD_FORCE r) (iw (roundRat x.fs))
      let s := s.setLv pgHoist (HOIST.STRETCH_V r) (iw (satS 32 (roundRat ((x.vm - x.vl) / ropeTravel c r * 16))))
      (s.setLv pgHoist (HOIST.DAMP_TQ r) (iw damp)).setLv pgHoist (HOIST.ROPE_STATUS r)
        (ropeStatus true settling (s.rp r).slack (decide (0 < (s.rp r).snatchHold)) clamped lim)

/-- Damping term of axis a in this frame (R200). -/
def State.ropeTorque (s : State) (a : Nat) : Int :=
  match axRope s.force a with
  | some r => (s.rp r).damp
  | none => 0

/-! Share of a torque (R206). -/

/-- Sum of the weights of the slots in a bitmap. -/
def weightSum (c : Cfg) (g : Nat) (present : BitVec 32) : Nat :=
  ((slotsUsed c g).map fun i => if present.getLsbD i then slotWeight c g i else 0).sum

/-- TORQUE_CMD of a member, from the total last applied; none for an axis in no group. -/
def State.shareTorque (s : State) (a : Nat) : Option Int :=
  let c := s.force
  match axShare c a with
  | none => none
  | some (g, i) =>
    let x := s.sh g
    if !x.applied || x.mismatch then some 0
    else
      let wp := weightSum c g x.present
      let w := slotWeight c g i
      if wp = 0 then some (toTfs c a (Config.shareNoWeight x.tTot w))
      else some (toTfs c a ((x.tTot : Rat) / (2 ^ 31 : Nat) * ((c pgHoist (HOIST.GROUP_T_FS g)).toNat : Rat) * (w : Rat) / (wp : Rat)))

/-! Ladder (R221). -/

/-- The regeneration clamp acts on axis a: step 1 with no stronger reaction, or step 3. -/
def State.regenClamped (s : State) (a : Nat) : Bool :=
  let x := s.ax a
  x.ladder == 3 || (x.ladder == 1 && (x.react == none || x.react == some .regenClamp || x.react == some .degraded))

end Sys2Proof.Machine
end

