-- ==== Sys2Proof/Machine/Commut.lean ====
section
/-!
DEFINITION. Commutation and current control (chapter 5): the system task of a drive axis in one frame, its angle, references,
current loop, limiter, observer, restart sequence and faults, and the AXIS page as it reads.
-/
namespace Sys2Proof.Machine

/-! Settings. -/

/-- I_FS in mA, U_FS in mV, T_FS in mN m. -/
def axIfs (c : Cfg) (a : Nat) : Nat := (c (pgAxis a) AXIS.I_FS).toNat
/-- U_FS. -/
def axUfs (c : Cfg) (a : Nat) : Nat := (c (pgAxis a) AXIS.U_FS).toNat
/-- A Q8.24 gain of the AXIS page. -/
def axGain (c : Cfg) (a o : Nat) : Int := (c (pgAxis a) o).toInt
/-- A positive register of the AXIS page. -/
def axNat (c : Cfg) (a o : Nat) : Nat := (c (pgAxis a) o).toNat
/-- T_MIN. -/
def axTmin (c : Cfg) (a : Nat) : Nat := fld (c (pgAxis a) AXIS.SHUNT_CFG) 9 0
/-- OFS_STEP_MAX. -/
def axOfsStep (c : Cfg) (a : Nat) : Nat := fld (c (pgAxis a) AXIS.SHUNT_CFG) 31 16
/-- CATCH_TIME in ticks. -/
def catchTime (c : Cfg) (a : Nat) : Nat := msT (fld (c (pgAxis a) AXIS.RESTART_CFG) 15 0)
/-- START_TIMEOUT in ticks. -/
def startTimeout (c : Cfg) (a : Nat) : Nat := msT (fld (c (pgAxis a) AXIS.START_CFG) 15 0)

/-- K_TI as Q8.24, evaluated at the strike (R120). -/
def kTiOf (c : Cfg) (a : Nat) : Int :=
  let den := 3 * axPp c a * axNat c a AXIS.PSI * axIfs c a
  if den = 0 then 0
  else roundRat (((2 * axNat c a AXIS.T_FS * 1000000 * 2 ^ 24 : Nat) : Rat) / (den : Rat))

/-! The angle. -/

/-- Electrical angle of a feedback position (R117). -/
def thetaFb (c : Cfg) (a : Nat) (pos : Int) : BitVec 32 :=
  let m : Nat := axCpr c a * 65536
  if m = 0 then 0
  else
    let r := (pos % (m : Int)).toNat
    BitVec.ofNat 32 (r * axPp c a * 2 ^ 32 / m + (c (pgAxis a) AXIS.ANGLE_OFS).toNat)

/-- Electrical angle per tick at a speed of the speed format, in 2^-32 turn (R125). -/
def dThetaPerTick (c : Cfg) (a : Nat) (speed : Int) : Rat :=
  if axCpr c a = 0 then 0
  else ((speed * (axPp c a : Nat) * (2 ^ 32 : Nat) : Int) : Rat) / ((16 * axCpr c a * 250000000 : Nat) : Rat)

/-- An angle extrapolated over ticks. -/
def extrapolate (c : Cfg) (a : Nat) (th : BitVec 32) (speed : Int) (dt : Rat) : BitVec 32 :=
  th + BitVec.ofInt 32 (roundRat (dThetaPerTick c a speed * dt))

/-- Electrical speed in rad/s at a speed of the speed format (R117, R123). -/
def elecRad (c : Cfg) (a : Nat) (speed : Int) : Rat :=
  if axCpr c a = 0 then 0
  else 2 * Config.pi * ((speed * (axPp c a : Nat) : Int) : Rat) / ((16 * axCpr c a : Nat) : Rat)

/-- The observer supplies the angle (R116, R142, R300). -/
def State.obsInUse (s : State) (a : Nat) : Bool := axAngle s.force a == 2 || (s.ax a).sub

/-- Speed of the angle source in use. -/
def State.angleSpeed (s : State) (a : Nat) : Int :=
  let d := s.dr a
  if d.restart = .forced then d.forcedW
  else if s.obsInUse a then d.obsSpeed
  else match axFb s.force a with
    | some n => (s.fb n).sSpeed
    | none => 0

/-- Feedback angle at a tick (R117, R123). -/
def State.fbAngle (s : State) (a t : Nat) : BitVec 32 :=
  let c := s.force
  match axFb c a with
  | some n => extrapolate c a (thetaFb c a (s.fb n).sPos) (s.fb n).sSpeed ((t : Rat) - ((s.fb n).sTick : Rat))
  | none => 0

/-! Measured currents. -/

/-- Shunt current in mA from a code (R150). -/
def shuntMa (c : Cfg) (a : Nat) (ofs : Int) (x : Samp) : Rat :=
  ((x.code * 16 - ofs : Int) : Rat) / 16 * 1250 / 8192 / (shuntGain x.cfg : Rat) * 1000000 / (max 1 (axNat c a AXIS.R_SHUNT) : Nat)

/-- Sigma-delta current in mA (R133). -/
def sdMa (c : Cfg) (a : Nat) (ofs : Int) (x : Samp) : Rat :=
  ((x.code * 16 - ofs : Int) : Rat) / 16 / (2 ^ 31 : Nat) * (fld x.cfg 31 16 : Nat) * 1000000 / (max 1 (axNat c a AXIS.R_SHUNT) : Nat)

/-- mA as Q1.31 of I_FS before saturation. -/
def toIfs (c : Cfg) (a : Nat) (ma : Rat) : Int := roundRat (ma / (max 1 (axIfs c a) : Nat) * (2 ^ 31 : Nat))

/-- What a sample set gives an axis: currents of U, V, W in Q1.31 before saturation, the mean tick, and a saturated conversion. -/
structure Currents where
  u : Int
  v : Int
  w : Int
  tick : Nat
  satur : Bool
  deriving DecidableEq, Repr

/-- A conversion at an end of its converter's range. -/
def satCode (ch : Nat) (code : Int) : Bool :=
  if ch < 8 then code == 8191 || code == -8192
  else code == ((2 ^ 31 - 1 : Nat) : Int) || code == -((2 ^ 31 : Nat) : Int)

/-- Phase p of three values given to the max, mid and min phase of an order. -/
def byPhase (ord : List Nat) (mx md mn : Int) (p : Nat) : Int :=
  if p = ord.getD 0 0 then mx else if p = ord.getD 1 1 then md else mn

/-- Currents of sample set k; none where a sample is missing or a channel is out of service (R129, R133, R145). -/
def State.currents (s : State) (a : Nat) : Option Currents :=
  let c := s.force
  let d := s.dr a
  let o0 := (s.lv (pgAxis a) AXIS.OFFSET0).toInt
  let o1 := (s.lv (pgAxis a) AXIS.OFFSET1).toInt
  if (axSense c a).any (fun ch => !s.adcGood ch) then none
  else match axSense c a with
    | [x, y] =>
      let sx := s.samples.adc.getD x {}
      let sy := s.samples.adc.getD y {}
      let iu := toIfs c a (sdMa c a o0 sx)
      let iv := toIfs c a (sdMa c a o1 sy)
      some { u := iu, v := iv, w := -(iu + iv), tick := sx.tick, satur := satCode x sx.code || satCode y sy.code }
    | [x] =>
      let pick := if d.switching then (d.latA, if axComm c a = 2 then d.latA else d.latB)
        else
          let z := s.samples.adc.getD x {}
          (some z, some z)
      match pick with
      | (some p, some q) =>
        let ia := toIfs c a (shuntMa c a o0 p)
        let ib := toIfs c a (shuntMa c a o0 q)
        let f := byPhase d.ordLat ia (ib - ia) (-ib)
        some { u := f 0, v := f 1, w := f 2, tick := (p.tick + q.tick) / 2, satur := satCode x p.code || satCode x q.code }
      | _ => none
    | _ => none

/-- Stationary and rotor-frame currents (R123): Clarke keeps the amplitude. -/
def clarke (u v : Int) : Int × Int := (u, roundRat (((u + 2 * v : Int) : Rat) / Config.sqrtRat 3))
/-- A vector turned by minus an angle, in Q1.31. -/
def park (x y : Int) (th : BitVec 32) : Int × Int :=
  let cs := Config.cosQ31 th
  let sn := Config.sinQ31 th
  (satS 32 (roundShift (x * cs + y * sn) 31), satS 32 (roundShift (y * cs - x * sn) 31))
/-- A vector turned by an angle, unsaturated. -/
def unpark (x y : Int) (th : BitVec 32) : Int × Int :=
  let cs := Config.cosQ31 th
  let sn := Config.sinQ31 th
  (roundShift (x * cs - y * sn) 31, roundShift (x * sn + y * cs) 31)

/-! References (R119 to R122). -/

/-- Phase advance at an electrical frequency in 0.1 Hz, in 2^-16 turn, rounded to nearest (R122). -/
def advance (c : Cfg) (a : Nat) (f : Rat) : Nat :=
  let n := axAdvN c a
  if n = 0 then 0
  else
    let p0 := advPt c a 0
    let pl := advPt c a (n - 1)
    if f < (p0.1 : Rat) then (if p0.1 = 0 then p0.2 else (roundRat ((p0.2 : Rat) * f / (p0.1 : Rat))).toNat)
    else if (pl.1 : Rat) ≤ f then pl.2
    else
      match (List.range (n - 1)).find? fun i => decide (((advPt c a i).1 : Rat) ≤ f ∧ f < ((advPt c a (i + 1)).1 : Rat)) with
      | some i =>
        let x := advPt c a i
        let y := advPt c a (i + 1)
        (roundRat ((x.2 : Rat) + ((y.2 : Rat) - (x.2 : Rat)) * (f - (x.1 : Rat)) / ((y.1 : Rat) - (x.1 : Rat)))).toNat
      | none => pl.2

/-- Electrical frequency in 0.1 Hz (R117). -/
def elecDeciHz (c : Cfg) (a : Nat) (speed : Int) : Rat :=
  if axCpr c a = 0 then 0 else ((10 * speed.natAbs * axPp c a : Nat) : Rat) / ((16 * axCpr c a : Nat) : Rat)

/-- References of one frame: Id, Iq, advance, cut by a limit, clamp active, and Iq of steps 1 to 5. -/
structure Refs where
  id : Int
  iq : Int
  beta : Nat
  cut : Bool
  clampOn : Bool
  r : Int
  deriving DecidableEq, Repr

/-- Steps 1 to 5 of R119. -/
def State.refsFor (s : State) (a : Nat) : Refs :=
  let c := s.force
  let d := s.dr a
  let iq0 := satS 32 (s.iqBase a + s.torqueToIq a (s.ropeTorque a))
  let id0 := s.idBase a
  let lim := match s.delivering (0x3000 + 16 * a + 2) with
    | some v => min d.tLim v
    | none => d.tLim
  let tl := s.torqueToIq a (max 0 lim)
  let iq1 := clampI (-tl) tl iq0
  let w := (s.angleSpeed a).natAbs
  let wl := if (s.ax a).sub then min d.speedLim.toNat (safeAx c a (SAFE.DEG_SPEED 0)).toNat else d.speedLim.toNat
  let iqMax : Int := (fld (c (pgAxis a) AXIS.CUR_LIMIT) 31 16 * 32768 : Nat)
  let idMax : Int := (fld (c (pgAxis a) AXIS.CUR_LIMIT) 15 0 * 32768 : Nat)
  let over_ := decide (wl < w)
  let band := max 1 (axNat c a AXIS.CLAMP_BAND)
  let cl : Int := roundRat ((iqMax : Rat) * max 0 (1 - (((w - wl : Nat) : Rat) / (band : Rat))))
  let iq2 := if over_ && sgn iq1 == sgn (s.angleSpeed a) then clampI (-cl) cl iq1 else iq1
  let beta := advance c a (elecDeciHz c a (s.angleSpeed a))
  let th : BitVec 32 := BitVec.ofNat 32 (beta * 65536)
  let foc := axComm c a == 1
  let iq3 := if foc && beta != 0 then roundShift (iq2 * Config.cosQ31 th) 31 else iq2
  let id3 := if foc && beta != 0 then id0 - roundShift (iq2.natAbs * Config.sinQ31 th) 31 else id0
  let id4 := clampI (-idMax) idMax id3
  let iq4 := clampI (-iqMax) iqMax iq3
  { id := id4, iq := iq4, beta := beta, cut := iq1 != iq0 || iq2 != iq1 || id4 != id3 || iq4 != iq3, clampOn := over_, r := iq4 }

/-- Step 6 of R119, after the regeneration clamp of R221. -/
def State.overrides (s : State) (a : Nat) (r : Refs) : Refs :=
  let r := if s.regenClamped a && sgn r.iq * sgn (s.angleSpeed a) == -1 then { r with iq := 0 } else r
  let c := s.force
  let d := s.dr a
  let st : Int := min (fld (c (pgAxis a) AXIS.START_CFG) 31 16 * 32768 : Nat) (fld (c (pgAxis a) AXIS.CUR_LIMIT) 31 16 * 32768 : Nat)
  if !s.axSwitching a || d.restart = .catching || d.restart = .waiting then { r with id := 0, iq := 0 }
  else if d.restart = .forced ∨ d.restart = .handOver then { r with id := 0, iq := sgn r.r * st }
  else r

/-! Voltage, limiter and duties. -/

/-- UDC in mV (R124). -/
def State.udcMv (s : State) (a : Nat) : Int :=
  let c := s.force
  let n := axUdcSrc c a
  if n < 16 then s.ainMv n
  else if n = 0xFE then s.samples.hk.getD 7 0 * 4
  else axNat c a AXIS.UDC_FIXED

/-- A voltage in mV as Q1.31 of U_FS. -/
def toUfs (c : Cfg) (a : Nat) (mv : Rat) : Rat := mv / (max 1 (axUfs c a) : Nat) * (2 ^ 31 : Nat)

/-- V_max of R124 in Q1.31 of U_FS. -/
def State.vMax (s : State) (a : Nat) : Int :=
  let c := s.force
  roundRat (toUfs c a ((fld (c (pgAxis a) AXIS.MOD_MAX) 15 0 : Nat) / 65536 * (s.udcMv a : Rat) / Config.sqrtRat 3))

/-- Carrier periods of the axis's legs in frame k+1, and the period in ticks (R125, R229, R430). -/
def State.carriers (s : State) (a : Nat) : Nat × Rat :=
  let c := s.force
  match axLegs c a with
  | l :: _ =>
    if legFdiv c l = 0 then
      let p := legP c l
      (ceilDiv (frameLen c) p, (p : Rat))
    else
      let d := if s.hk.inForce = .throttle && bt (c pgHk HK.THR_LEGS) l && decide (1 < legDiv c l) then legDiv c l / 2 else legDiv c l
      (d, (s.time.nextLen : Rat) / (d : Rat))
  | [] => (1, (s.time.nextLen : Rat))

/-- Duties of a stationary vector in Q1.31 of U_FS, in 2^-31 (R125). -/
def State.dutiesOf (s : State) (a : Nat) (x y : Int) : Int × Int × Int :=
  let c := s.force
  let udc := toUfs c a (s.udcMv a)
  let h := ((y : Rat) * Config.sqrtRat 3) / 2
  let vu : Rat := x
  let vv := -(x : Rat) / 2 + h
  let vw := -(x : Rat) / 2 - h
  let mid := (max vu (max vv vw) + min vu (min vv vw)) / 2
  let one : Int := (2 ^ 31 : Nat)
  let f := fun (p : Nat) (v : Rat) =>
    if udc = 0 then clampI 0 one (Config.dutyAtZeroUdc p)
    else clampI 0 one (roundRat ((1 / 2 + (v - mid) / udc) * (2 ^ 31 : Nat)))
  (f 0 vu, f 1 vv, f 2 vw)

/-- Duties scaled toward one half by n / 256 (R130). -/
def scaleDuty (n : Nat) (d : Int × Int × Int) : Int × Int × Int :=
  let h : Int := (2 ^ 30 : Nat)
  let f := fun (v : Int) => h + roundDiv ((v - h) * (n : Nat)) 256
  (f d.1, f d.2.1, f d.2.2)

/-- Phases by falling duty, equal duties ordered U, V, W (R128). -/
def phaseOrder (d : Int × Int × Int) : List Nat :=
  let v := fun p => if p = 0 then d.1 else if p = 1 then d.2.1 else d.2.2
  ([0, 1, 2] : List Nat).mergeSort fun p q => decide (v q ≤ v p)

/-- Duty of a phase as a fraction. -/
def dutyOf (d : Int × Int × Int) (p : Nat) : Rat :=
  ((if p = 0 then d.1 else if p = 1 then d.2.1 else d.2.2 : Int) : Rat) / (2 ^ 31 : Nat)

/-- Shifts of the max and min pulse (R128). -/
def shiftsOf (p : Rat) (tmin : Nat) (d : Int × Int × Int) : Nat × Nat :=
  match phaseOrder d with
  | [x, y, z] =>
    let up := fun (q : Rat) => (-(floorRat (-(max 0 ((tmin : Rat) - q))))).toNat
    (up ((dutyOf d x - dutyOf d y) * p / 2), up ((dutyOf d y - dutyOf d z) * p / 2))
  | _ => (0, 0)

/-- The pattern of the sampling period fits (R130). -/
def patternFits (p : Rat) (tmin g : Nat) (d : Int × Int × Int) : Bool :=
  match phaseOrder d with
  | [x, y, z] =>
    let (sa, sb) := shiftsOf p tmin d
    let dx := dutyOf d x
    let dy := dutyOf d y
    let dz := dutyOf d z
    decide ((g : Rat) ≤ p / 2 - dx * p / 2 - sa) && decide (p / 2 + dz * p / 2 + sb ≤ p - g)
      && decide (((sa + sb : Nat) : Rat) ≤ (dx + dz) * p / 2) && decide ((sb : Rat) ≤ (dy + dz) * p / 2)
  | _ => true

/-- The largest n from 256 down at which the pattern fits (R130). -/
def limiter (p : Rat) (tmin g : Nat) (d : Int × Int × Int) : Nat :=
  (((List.range 257).reverse).find? fun n => patternFits p tmin g (scaleDuty n d)).getD 0

/-! Loss of synchronism, restart (R139 to R143). -/

/-- A declaration of loss of synchronism acts (R139 to R142, R300). -/
def State.declareLos (s : State) (a : Nat) : State :=
  let c := s.force
  let s := ((s.event (pgAxis a) 16).raisePulse srcObsLos a).onDr a fun d => { d with losRun := 0, losNow := true, losSeen := true }
  if !s.obsInUse a then s.onDr a fun d => { d with reseed := true }
  else if (s.ax a).state.moving then
    if axHoist c a then (s.stoNow a).pushReact a .sto srcObsLos false
    else
      let w := msT (fld (c (pgAxis a) AXIS.RESTART_CFG) 29 16)
      let recent := (s.dr a).attempts.filter fun t => s.now ≤ t + w
      if fld (c (pgAxis a) AXIS.RESTART_CFG) 31 30 ≤ recent.length then (s.raise srcRestart a).pfault (pgAxis a) 8
      else (s.onDr a fun d => { d with attempts := recent ++ [s.now], losPend := true }).inc16 (pgAxis a) AXIS.RESTART_COUNT
  else s

/-- A restart attempt or the start of R143 has succeeded. -/
def State.restartDone (s : State) (a : Nat) : State :=
  let was := (s.dr a).restarting
  let s := (s.onDr a fun d => { d with restart := .idle, restarting := false, angleSrc := .observer })
  let s := (s.stopT (.catchTime a)).stopT (.restart a)
  if was then (s.event (pgAxis a) 32).clearSrc srcRestart a else s

/-- The catch of R140 and R143 begins. -/
def State.startCatch (s : State) (a : Nat) (attempt : Bool) : State :=
  let c := s.force
  let s := (s.onDr a fun d => { d with restart := .catching, restarting := attempt, losPend := false }).startT (.catchTime a)
    (s.now + catchTime c a)
  if attempt then s.startT (.restart a) (s.now + catchTime c a + startTimeout c a) else s

/-- One frame of the start sequence, after the observer (R143). -/
def State.runStart (s : State) (a : Nat) (prevTh : BitVec 32) : State :=
  let c := s.force
  let d := s.dr a
  match d.restart with
  | .idle => s
  | .catching => if d.obsLocked then s.restartDone a else s
  | .waiting => if d.refR = 0 then s else s.onDr a fun d => { d with restart := .forced, forcedAngle := 0, forcedW := 0, angleSrc := .forced }
  | .forced =>
    let w := satS 32 (d.forcedW + roundRat (((axNat c a AXIS.START_ACC * 16 * s.time.curLen : Nat) : Rat) / 250000000))
    let th := extrapolate c a d.forcedAngle w s.time.curLen
    let s := s.onDr a fun d => { d with forcedW := w, forcedAngle := th }
    if (axNat c a AXIS.OBS_MIN_SPEED : Int) ≤ w ∧ d.obsLocked then s.onDr a fun d => { d with restart := .handOver } else s
  | .handOver =>
    let off := wrap32 (d.forcedAngle.toInt - prevTh.toInt)
    let left := off - clampI (-(2 ^ 24 : Nat)) (2 ^ 24 : Nat) off
    let s := s.onDr a fun d => { d with forcedAngle := d.th + BitVec.ofInt 32 left }
    if left = 0 then s.restartDone a else s

/-! The observer (R138). -/

/-- Observer speed in the speed format from its speed in angle per frame. -/
def obsSpeedOf (c : Cfg) (a len : Nat) (w : Int) : Int :=
  satS 32 (roundRat (((w * (axCpr c a * 16 * 250000000 : Nat) : Int) : Rat) / ((2 ^ 32 * max 1 (axPp c a) * max 1 len : Nat) : Rat)))

/-- One frame of the observer on stationary currents ia, ib. -/
def State.runObserver (s : State) (a : Nat) (ia ib : Int) (seedTh : BitVec 32) (seedSpeed : Int) : State :=
  let c := s.force
  let d := s.dr a
  let len := s.time.curLen
  if d.reseed && axAngle c a != 2 then
    let w := roundRat (dThetaPerTick c a seedSpeed * (len : Nat))
    s.onDr a fun d =>
      { d with th := seedTh, w := w, err := 0, reseed := false, obsSpeed := obsSpeedOf c a len w, ia := ia, ib := ib, losNow := false }
  else
    let ifs : Rat := axIfs c a
    let ufs : Rat := (max 1 (axUfs c a) : Nat)
    let drop := fun (i i0 : Int) =>
      (axNat c a AXIS.RS : Rat) * i * ifs / ufs / 1000000 + (axNat c a AXIS.LQ : Rat) * (i - i0 : Int) * ifs / ufs / ((4 * max 1 len : Nat) : Rat)
    let v := d.vHist.getD 1 (0, 0)
    let ea := (v.1 : Rat) - drop ia d.ia
    let eb := (v.2 : Rat) - drop ib d.ib
    let g : Rat := (axNat c a AXIS.OBS_GAIN : Rat) / (2 ^ 31 : Nat)
    let fa := satS 32 (roundRat ((d.fa : Rat) + g * (ea - d.fa)))
    let fb := satS 32 (roundRat ((d.fb : Rat) + g * (eb - d.fb)))
    let err := wrap32 ((Config.atan2 fb fa).toInt - (d.th.toInt + sgn d.w * (2 ^ 30 : Nat)))
    let w := d.w + roundShift (axGain c a AXIS.PLL_KI * err) 24
    let th := d.th + BitVec.ofInt 32 (w + roundShift (axGain c a AXIS.PLL_KP * err) 24)
    let spd := obsSpeedOf c a len w
    let emf : Int := roundRat (Config.sqrtRat ((fa * fa + fb * fb : Int) : Rat))
    let lim := fld (c (pgAxis a) AXIS.LOS_CFG) 15 0 * 65536
    let fast := decide (axNat c a AXIS.OBS_MIN_SPEED ≤ spd.natAbs)
    let good := fast && decide (4 * err.natAbs ≤ lim)
    let run := if good then min (d.lockRun + 1) 8 else 0
    let we := (elecRad c a spd) / 1000
    let idMa : Rat := (d.id : Rat) * ifs / (2 ^ 31 : Nat)
    let flux : Rat := (axNat c a AXIS.PSI : Rat) + ((axNat c a AXIS.LD : Rat) - (axNat c a AXIS.LQ : Rat)) * idMa / 1000000
    let ex := toUfs c a ((if we < 0 then -we else we) * flux)
    let dev := (emf : Rat) - ex
    let tol := (fld (c (pgAxis a) AXIS.LOS_CFG) 31 24 : Nat)
    let c1 := decide ((tol : Rat) / 100 * ex < (if dev < 0 then -dev else dev))
    let c2 := decide (lim < err.natAbs)
    let c3 := decide (((axNat c a AXIS.ACC_LIM * 16 * len : Nat) : Rat) / 250000000 < (((spd - d.obsSpeed).natAbs : Nat) : Rat))
    let los := if fast && (d.restart == .idle) && (c1 || c2 || c3) then d.losRun + 1 else 0
    let s := (s.onDr a fun d =>
      { d with
        fa := fa, fb := fb, err := err, w := w, th := th, obsSpeed := spd, lockRun := run, obsLocked := run == 8, losRun := min los 255
        losNow := false, ia := ia, ib := ib }).setLv (pgAxis a) AXIS.OBS_EMF (iw (satS 32 emf))
    if fld (c (pgAxis a) AXIS.LOS_CFG) 23 16 < los then s.declareLos a else s

/-! The current loop. -/

/-- Integrator advanced unless its own component was cut in the direction of its error (R124), in Q1.63. -/
def advInt (i ki e : Int) (cut : Bool) (v : Int) : Int :=
  if cut && sgn e == sgn v then i else satS 64 (i + ki * e * 256)

/-- An axis that does not switch applies no vector (R126). -/
def State.noVector (s : State) (a : Nat) : State :=
  let s := s.onDr a fun d =>
    { d with vd := 0, vq := 0, lam := 256, duties := [], six := [], shiftA := 0, shiftB := 0, vHist := [(0, 0), d.vHist.getD 0 (0, 0)] }
  (s.onLv (pgAxis a) AXIS.DEPTH fun w => nw (fld w 15 0)).onLv (pgAxis a) pageStatus fun w => putBt w 7 false

/-- FOC output of a frame: rotor vector after the limit, duties of every carrier period, the limiter (R123 to R132). -/
def State.runFoc (s : State) (a : Nat) (rf : Refs) (valid : Bool) (ths : BitVec 32) (ts : Nat) : State :=
  let c := s.force
  let d := s.dr a
  let vm := s.vMax a
  let we := elecRad c a (s.angleSpeed a)
  let k : Rat := (axIfs c a : Rat) / (max 1 (axUfs c a) : Nat) / 1000000000
  let dec := bt (axCfg c a) 11
  let ffd : Int := if dec then roundRat (-(we * (axNat c a AXIS.LQ : Rat) * d.iq * k)) else 0
  let ffq : Int :=
    if dec then roundRat (we * ((axNat c a AXIS.LD : Rat) * d.id * k + toUfs c a ((axNat c a AXIS.PSI : Rat) / 1000))) else 0
  let ed := rf.id - d.id
  let eq := rf.iq - d.iq
  let m24 : Int := (2 ^ 24 : Nat)
  let m32 : Int := (2 ^ 32 : Nat)
  let vd0 := satS 32 (roundShift (axGain c a AXIS.KP_D * ed + (d.idInt / m32 + ffd) * m24) 24)
  let vq0 := satS 32 (roundShift (axGain c a AXIS.KP_Q * eq + (d.iqInt / m32 + ffq) * m24) 24)
  let cutV := decide (vm * vm < vd0 * vd0 + vq0 * vq0)
  let vd1 := if cutV then clampI (-vm) vm vd0 else vd0
  let vq1 := if cutV then sgn vq0 * roundRat (Config.sqrtRat ((vm * vm - vd1 * vd1 : Int) : Rat)) else vq0
  let vd := if valid then vd1 else d.vd
  let vq := if valid then vq1 else d.vq
  let (n, p) := s.carriers a
  let b1 := s.time.frameStart + s.time.curLen
  let spd := s.angleSpeed a
  let vecs := (List.range n).map fun i =>
    let th := extrapolate c a ths spd ((b1 : Rat) + p * (i : Nat) + p / 2 - (ts : Rat))
    unpark vd vq th
  let raw := vecs.map fun v => s.dutiesOf a v.1 v.2
  let lastD := raw.getLastD (0, 0, 0)
  let lam := if axSd c a then 256 else limiter p (axTmin c a) (axGap c a) lastD
  let ds := raw.map (scaleDuty lam)
  let sh := if axSd c a then (0, 0) else shiftsOf p (axTmin c a) (ds.getLastD (0, 0, 0))
  let ord := phaseOrder (ds.getLastD (0, 0, 0))
  let mean := fun (f : Int × Int → Int) => roundDiv ((vecs.map f).sum * (lam : Nat)) (256 * max 1 n)
  let s := s.onDr a fun d =>
    { d with
      vd := vd, vq := vq, lam := lam, duties := ds, six := [], shiftA := sh.1, shiftB := sh.2, phMax := ord.getD 0 0, phMid := ord.getD 1 1
      phMin := ord.getD 2 2, vHist := [(mean (·.1), mean (·.2)), d.vHist.getD 0 (0, 0)]
      idInt := if valid then advInt d.idInt (axGain c a AXIS.KI_D) ed (vd1 != vd0 || (decide (lam < 256) && vd1 != 0)) vd0 else d.idInt
      iqInt := if valid then advInt d.iqInt (axGain c a AXIS.KI_Q) eq (vq1 != vq0 || (decide (lam < 256) && vq1 != 0)) vq0 else d.iqInt }
  let loss := 65536 - lam * 256
  let worst := max (fld (s.lv (pgAxis a) AXIS.DEPTH) 15 0) (min loss 65535)
  let s := s.setLv (pgAxis a) AXIS.DEPTH (nw (min loss 65535 * 65536 + worst))
  let s := if lam < 256 then s.inc32 (pgAxis a) AXIS.LIMITED_COUNT else s
  s.onLv (pgAxis a) pageStatus fun w => putBt w 7 (valid && cutV)

/-- High and low phase of a sector (Table 5-2), swapped for negative torque (R127). -/
def sixPhases (sector : Nat) (neg : Bool) : Nat × Nat :=
  let h := ([0, 0, 1, 1, 2, 2] : List Nat).getD sector 0
  let l := ([1, 2, 2, 0, 0, 1] : List Nat).getD sector 0
  if neg then (l, h) else (h, l)

/-- Six-step output of a frame (R127). -/
def State.runSix (s : State) (a : Nat) (rf : Refs) (valid : Bool) (idc : Int) (ths : BitVec 32) (ts : Nat) : State :=
  let c := s.force
  let d := s.dr a
  let m24 : Int := (2 ^ 24 : Nat)
  let e := (rf.iq.natAbs : Int) - idc
  let v0 := satS 32 (roundShift (axGain c a AXIS.KP_Q * e + (d.iqInt / (2 ^ 32 : Nat)) * m24) 24)
  let vm := s.vMax a
  let v1 := clampI (-vm) vm v0
  let v := if valid then v1 else d.vq
  let udc := toUfs c a (s.udcMv a)
  let (n, p) := s.carriers a
  let one : Int := (2 ^ 31 : Nat)
  let d0 : Int := if udc = 0 then clampI 0 one (Config.dutyAtZeroUdc 0) else clampI 0 one (roundRat ((v : Rat) / udc * (2 ^ 31 : Nat)))
  let least : Int := roundRat ((axTmin c a : Rat) / (if p = 0 then 1 else p) * (2 ^ 31 : Nat))
  let short := !axSd c a && decide (d0 < least)
  let duty := if short then least else d0
  let spd := s.angleSpeed a
  let b1 := s.time.frameStart + s.time.curLen
  let out := (List.range n).map fun i =>
    let th := extrapolate c a ths spd ((b1 : Rat) + p * (i : Nat) + p / 2 - (ts : Rat))
    let x := (th + BitVec.ofInt 32 (sgn spd * (rf.beta * 65536 : Nat))).toNat
    let sec := ((x * 12 / 2 ^ 32 + 1) / 2) % 6
    let (h, l) := sixPhases sec (decide (rf.iq < 0))
    (h, l, duty)
  let last := out.getLastD (0, 1, 0)
  let s := s.onDr a fun d =>
    { d with
      vd := 0, vq := v, lam := 256, duties := [], six := out, shiftA := 0, shiftB := 0
      phMax := last.1, phMid := 3 - last.1 - last.2.1, phMin := last.2.1
      iqInt := if valid then advInt d.iqInt (axGain c a AXIS.KI_Q) e (v1 != v0) v0 else d.iqInt }
  let s := if short then s.inc32 (pgAxis a) AXIS.LIMITED_COUNT else s
  s.onLv (pgAxis a) pageStatus fun w => putBt w 7 (valid && v1 != v0)

/-- Torque estimate in Q1.31 of T_FS (R120). -/
def torqueEst (c : Cfg) (a : Nat) (id iq : Int) : Int :=
  let ifs : Rat := axIfs c a
  let q : Rat := (iq : Rat) * ifs / (2 ^ 31 : Nat)
  let dd : Rat := (id : Rat) * ifs / (2 ^ 31 : Nat)
  let t := 3 / 2 * (axPp c a : Rat) * ((axNat c a AXIS.PSI : Rat) * q / 1000000
    + ((axNat c a AXIS.LD : Rat) - (axNat c a AXIS.LQ : Rat)) * dd * q / 1000000000000)
  satS 32 (roundRat (t / (max 1 (axNat c a AXIS.T_FS) : Nat) * (2 ^ 31 : Nat)))

/-- The sample set is invalid (R145): the second in a row raises CUR_INVALID. -/
def State.currentFaults (s : State) (a : Nat) (cur : Option Currents) : State :=
  let c := s.force
  match cur with
  | none =>
    let s := s.onDr a fun d => { d with iValid := false, invalidRun := d.invalidRun + 1 }
    if 2 ≤ (s.dr a).invalidRun then
      if s.srcOn srcCurInv a then s else ((s.raise srcCurInv a).event (pgAxis a) 8).pfault (pgAxis a) 2
    else s
  | some x =>
    let s := (s.onDr a fun d => { d with iValid := true, invalidRun := 0 }).clearSrc srcCurInv a
    let trip := fld (c (pgAxis a) AXIS.I_TRIP) 15 0 * 32768
    if x.satur || [x.u, x.v, x.w].any (fun i => decide (trip < i.natAbs)) then
      if s.srcOn srcOverCur a then s else ((s.raise srcOverCur a).event (pgAxis a) 4).pfault (pgAxis a) 4
    else s.clearSrc srcOverCur a

/-- The commutation task of drive axis a (R116 to R145). -/
def State.runComm (s : State) (a : Nat) : State :=
  let c := s.force
  let comm := axComm c a
  if comm = 0 then s
  else
    let cur := s.currents a
    let s := s.currentFaults a cur
    let ts := match cur with
      | some x => x.tick
      | none => (s.dr a).thetaTick
    let fbTh := s.fbAngle a ts
    let fbSpd := match axFb c a with
      | some n => (s.fb n).sSpeed
      | none => 0
    let (ia, ib) := match cur with
      | some x => clarke (satS 32 x.u) (satS 32 x.v)
      | none => ((s.dr a).ia, (s.dr a).ib)
    let prevTh := (s.dr a).th
    let s := if axAngle c a = 0 ∨ cur.isNone then s else s.runObserver a ia ib fbTh fbSpd
    let s := if axAngle c a = 2 then s.runStart a prevTh else s
    let d := s.dr a
    let ths := if d.restart = .forced ∨ d.restart = .handOver then d.forcedAngle else if s.obsInUse a then d.th else fbTh
    let src : AngleSrc := if d.restart = .forced ∨ d.restart = .handOver then .forced else if s.obsInUse a then .observer else .feedback
    let (idm, iqm) := match cur with
      | some _ => park ia ib ths
      | none => (d.id, d.iq)
    let s := s.onDr a fun d =>
      { d with id := idm, iq := iqm, theta := ths, thetaTick := ts, angleSrc := src, torqueEst := torqueEst c a idm iqm, speed := s.angleSpeed a }
    let s := s.runRope a
    let rf0 := s.refsFor a
    let s := s.onDr a fun d => { d with refR := rf0.r }
    let rf := s.overrides a rf0
    let s := ((s.setLv (pgAxis a) AXIS.ID_REF (iw rf.id)).setLv (pgAxis a) AXIS.IQ_REF (iw rf.iq)).setLv (pgAxis a) AXIS.ADV_ANGLE (nw rf.beta)
    let s := s.onLv (pgAxis a) pageStatus fun w => putBt (putBt w 9 rf.cut) 8 rf.clampOn
    let s := s.setLv (pgAxis a) AXIS.UDC (iw (s.udcMv a))
    if !s.axSwitching a then s.noVector a
    else if comm = 1 then s.runFoc a rf cur.isSome ths ts
    else
      let idc := match cur with
        | some x =>
          byPhase [0, 1, 2] (satS 32 x.u) (satS 32 x.v) (satS 32 x.w) ((s.dr a).ordLat.getD 0 0)
        | none => 0
      s.runSix a rf cur.isSome idc ths ts

/-- A committed output was missed: the pattern of the previous frame repeats (R23). -/
def State.repeatPattern (s : State) (a : Nat) : State :=
  s.onDr a fun d => { d with vHist := [d.vHist.getD 0 (0, 0), d.vHist.getD 0 (0, 0)] }

/-- The axis starts to switch at the first boundary of RUN (R126, R143). -/
def State.startSwitching (s : State) (a : Nat) : State :=
  let s := s.onDr a fun d => { d with idInt := 0, iqInt := 0, fa := 0, fb := 0 }
  if axComm s.force a ≠ 0 ∧ axAngle s.force a = 2 then s.startCatch a false else s

/-- CATCH_TIME_EXPIRY: CATCH_TIME ends without lock; the forced start follows (R143), in a restart attempt only below
OBS_MIN_SPEED (R140). -/
def execCatchTimeExpiry (axis : AxisIx) (s : State) : Out :=
  let a := axis.val
  .next (s.expire (.catchTime a) fun s =>
    let d := s.dr a
    if d.restart ≠ .catching ∨ d.obsLocked then s
    else if d.restarting ∧ axNat s.force a AXIS.OBS_MIN_SPEED ≤ d.obsSpeed.natAbs then s
    else s.onDr a fun d => { d with restart := .waiting })

/-- RESTART_TIMEOUT: the attempt has failed (R140, R145). -/
def execRestartTimeout (axis : AxisIx) (s : State) : Out :=
  let a := axis.val
  .next (s.expire (.restart a) fun s =>
    if (s.dr a).restarting then
      ((s.onDr a fun d => { d with restart := .idle, restarting := false }).raise srcRestart a).pfault (pgAxis a) 8
    else s)

/-- Code of an angle source. -/
def AngleSrc.code (x : AngleSrc) : Nat :=
  match x with
  | .feedback => 0
  | .observer => 1
  | .forced => 2

/-- AXIS page a as it reads where it shows the axis's state (Tables 5-6, 5-8). -/
def State.viewAxis (s : State) (a o : Nat) : Option Word :=
  let d := s.dr a
  if o = pageStatus then
    let flags := fld (s.lv (pgAxis a) pageStatus) 9 7
    some (nw ((s.ax a).state.code * 65536 + flags * 128 + bitAt 6 (decide (d.lam < 256)) + d.angleSrc.code * 16 + bitAt 3 d.obsLocked
      + bitAt 2 d.restarting + bitAt 1 d.iValid + bitAt 0 (s.axSwitching a)))
  else if o = AXIS.ANGLE then some d.theta
  else if o = AXIS.SPEED then some (iw d.speed)
  else if o = AXIS.ID then some (iw d.id)
  else if o = AXIS.IQ then some (iw d.iq)
  else if o = AXIS.VD then some (iw d.vd)
  else if o = AXIS.VQ then some (iw d.vq)
  else if o = AXIS.TORQUE_EST then some (iw d.torqueEst)
  else if o = AXIS.OBS_ANGLE then some d.th
  else if o = AXIS.OBS_SPEED then some (iw d.obsSpeed)
  else if o = AXIS.OBS_STATUS then
    some (nw ((d.err / 65536 % 65536).toNat * 65536 + min d.losRun 255 * 256 + bitAt 1 d.losNow + bitAt 0 d.obsLocked))
  else none

end Sys2Proof.Machine
end

