-- ==== Sys2Proof/Machine/Measure.lean ====
section
/-!
DEFINITION. Compare units and position latches (R187 to R190): what fires or captures, at which tick, and what it writes.
-/
namespace Sys2Proof.Machine

/-- A position of the interface of axis a as POS_ACT shows it (R175). -/
def State.scaleAct (s : State) (a : Nat) (p : Int) : Int :=
  if a < 8 then p else roundDiv (p * (s.cf (pgMot a) MOT.FB_NUM).toInt) (s.cf (pgMot a) MOT.FB_DEN).toNat

/-- POS_ACT of axis a at this instant: the internal count where it comes from an interface. -/
def State.actNow (s : State) (a : Nat) : Int :=
  if a < 8 ∧ (s.ax a).sub then (s.ax a).subPos
  else match axFb s.force a with
    | some n => s.scaleAct a (s.fb n).pos
    | none => s.axPos a

/-- Axes whose POS_ACT comes from interface n. -/
def State.actAxes (s : State) (n : Nat) : List Nat :=
  (List.range 16).filter fun a => axFb s.force a == some n && !(decide (a < 8) && (s.ax a).sub)

/-- POS_ACT of axis a at a tick, where it is exact: an incremental interface, by the stamps of its edges (R190). -/
def State.actAt (s : State) (a tick : Nat) : Option Int :=
  if a < 8 ∧ (s.ax a).sub then none
  else match axFb s.force a with
    | none => none
    | some n =>
      if fbAbs s.force n ∨ fbMode s.force n = 0 then none
      else
        let later := (((s.fb n).trail.filter fun e => decide (tick < e.1)).map (·.2)).sum
        some (s.scaleAct a ((s.fb n).pos - later))

/-! Latches. -/

/-- LATCH_SRC of latch u of axis a. -/
def latchSrc (c : Cfg) (a u : Nat) : Word := c (pgMot a) (if u = 0 then MOT.LATCH_SRC0 else MOT.LATCH_SRC1)

/-- EDGE admits an edge: rising, falling, both. -/
def latchEdge (w : Word) (rising : Bool) : Bool :=
  match fld w 17 16 with
  | 0 => rising
  | 1 => !rising
  | _ => true

/-- An event reaches latch u of axis a at a tick: captured if the latch is armed; ONCE disarms. -/
def State.latchHit (s : State) (a u tick : Nat) (pos : Option Int) : State :=
  let i := 2 * a + u
  if (s.la i).armed then
    s.onLa i fun x =>
      { x with waiting := x.waiting ++ [(tick, pos)], armed := bt (s.lv (pgMot a) (MOT.LATCH_CTRL u)) 1 }
  else s

/-- An event of a kind and index reaches the latches whose LATCH_SRC names it. -/
def State.latchEvent (s : State) (kind : Nat) (hits : Nat → Bool) (tick : Nat) : State :=
  forN 16 (fun a s => forN 2 (fun u s =>
    let w := latchSrc s.force a u
    if fld w 15 12 = kind ∧ hits (fld w 7 0) then s.latchHit a u tick (s.actAt a tick) else s) s) s

/-- An accepted edge of Z of interface n (R190). -/
def State.latchZ (s : State) (n tick : Nat) (rising : Bool) : State :=
  forN 16 (fun a s => forN 2 (fun u s =>
    let w := latchSrc s.force a u
    if fld w 15 12 = 1 ∧ fld w 7 0 = n ∧ latchEdge w rising then s.latchHit a u tick (s.actAt a tick) else s) s) s

/-- A field input first shows a new level (R190): the position is kept until its debounce accepts the level or drops it. -/
def State.latchDiSeen (s : State) (i tick : Nat) : State :=
  forN 16 (fun a s => forN 2 (fun u s =>
    let w := latchSrc s.force a u
    if fld w 15 12 = 2 ∧ fld w 7 0 = i then s.onLa (2 * a + u) fun x => { x with cand := some (tick, s.actAt a tick) } else s) s) s

/-- The debounce of a field input accepts its new level (R190). -/
def State.latchDi (s : State) (i tick : Nat) (rising : Bool) : State :=
  forN 16 (fun a s => forN 2 (fun u s =>
    let w := latchSrc s.force a u
    if fld w 15 12 = 2 ∧ fld w 7 0 = i then
      let x := s.la (2 * a + u)
      let s := s.onLa (2 * a + u) fun x => { x with cand := none }
      if latchEdge w rising then
        match x.cand with
        | some (t, p) => s.latchHit a u t p
        | none => s.latchHit a u tick (s.actAt a tick)
      else s
    else s) s) s

/-- An edge of interface n that is accepted late moves the exact positions taken at or after its stamp (R190). -/
def State.latchLate (s : State) (n stamp : Nat) : State :=
  forL (s.actAxes n) (fun a s => forN 2 (fun u s =>
    s.onLa (2 * a + u) fun x =>
      let fix := fun (e : Nat × Option Int) => if stamp ≤ e.1 ∧ e.2.isSome then (e.1, s.actAt a e.1) else e
      let near := fun (e : Nat × Option Int) => decide (s.now ≤ e.1 + 512)
      { x with
        waiting := x.waiting.map fun e => if near e then fix e else e
        cand := x.cand.map fun e => if near e then fix e else e }) s) s

/-- A captured position is shown: LATCH_POS, LATCH_TICK, the count, DONE, OVERRUN and the event. -/
def State.latchShow (s : State) (a u tick : Nat) (pos : Int) : State :=
  let p := pgMot a
  let s := (s.setPair p (MOT.LATCH_POS_LO u) pos).setPair p (MOT.LATCH_TICK_LO u) tick
  let s := s.onLv p (MOT.LATCH_STATUS u) fun w =>
    let lost := bt w 2 || (bt w 1 && bt (s.lv p (MOT.LATCH_CTRL u)) 1)
    nw ((fld w 31 16 + 1) % 2 ^ 16 * 2 ^ 16 + bitAt 2 lost + 2)
  s.event p (2 ^ (5 + u))

/-- Positions that are known at this boundary are shown: exact ones, and those that the last two sample sets bracket (R190). -/
def State.latchBoundary (s : State) (a : Nat) : State :=
  forN 2 (fun u s =>
    let m := s.mt a
    let w := (s.la (2 * a + u)).waiting
    let known := fun (e : Nat × Option Int) => e.2.isSome || decide (e.1 ≤ m.actTick)
    let s := s.onLa (2 * a + u) fun x => { x with waiting := w.filter fun e => !known e }
    forL (w.filter known) (fun e s =>
      let dt : Int := (m.actTick : Int) - m.actOldTick
      let p := e.2.getD (if dt ≤ 0 then m.act else m.actOld + roundRat (((m.act - m.actOld) * ((e.1 : Int) - m.actOldTick) : Int) / (dt : Rat)))
      s.latchShow a u e.1 p) s) s

/-- LATCH_ARM (R190): ARM = 1 arms the latch and clears what the last capture left; ARM = 0 disarms it (log entry 24). -/
def execLatchArm (axis : AxisIx) (unit : Fin 2) (v : Word) (s : State) : Out :=
  if !s.up then .next s
  else
    let a := axis.val
    let u := unit.val
    let s := s.setLv (pgMot a) (MOT.LATCH_CTRL u) (v &&& 2)
    if bt v 0 then
      .next ((s.onLa (2 * a + u) fun x => { x with armed := true, waiting := [] }).onLv (pgMot a) (MOT.LATCH_STATUS u) fun w => w &&& 0xFFFF0000)
    else .next (s.onLa (2 * a + u) fun x => { x with armed := false })

/-! Compare units. -/

/-- CMP_CTRL of unit u of axis a. -/
def State.cmpCtrl (s : State) (a u : Nat) : Word := s.lv (pgMot a) (MOT.CMP_CTRL u)
/-- CMP_POS. -/
def State.cmpPos (s : State) (a u : Nat) : Int :=
  pair64 (s.lv (pgMot a) (MOT.CMP_POS_LO u)) (s.lv (pgMot a) (MOT.CMP_POS_HI u))
/-- CMP_OUT. -/
def cmpOut (c : Cfg) (a u : Nat) : Word := c (pgMot a) (if u = 0 then MOT.CMP_OUT0 else MOT.CMP_OUT1)

/-- A unit fires at a tick (R187, R189): its registers, its output pulse, the latches that name it. It is disarmed. -/
def State.cmpFire (s : State) (a u tick : Nat) : State :=
  let p := pgMot a
  let s := s.onCm (2 * a + u) fun x => { x with armed := false, missed := false }
  let s := s.onLv p (MOT.CMP_STATUS u) fun w => nw ((fld w 31 16 + 1) % 2 ^ 16 * 2 ^ 16 + fld w 2 2 * 4 + 2)
  let s := (s.setPair p (MOT.CMP_TICK_LO u) tick).event p (2 ^ (1 + u))
  let o := cmpOut s.force a u
  let s := if bt o 4 then
      (s.onCm (2 * a + u) fun x => { x with pulse := some tick }).startT (.cmpPulse a u) (tick + usT (fld o 31 16))
    else s
  s.latchEvent 3 (fun i => i / 16 == a && i % 2 == u) tick

/-- The target is already behind (R188). -/
def cmpPassed (dir : Nat) (pos t : Int) : Bool := (dir == 1 && decide (t ≤ pos)) || (dir == 2 && decide (pos ≤ t))

/-- A unit is armed at a tick with the position it starts from (R188); with an interface that is invalid the test waits (R189).
AUTO arms again after each firing, for at most n firings at one instant (log entry 24). -/
def State.cmpArm (s : State) : Nat → Nat → Nat → Nat → Int → Bool → State
  | 0, _, _, _, _, _ => s
  | n + 1, a, u, tick, pos, valid =>
    let w := s.cmpCtrl a u
    let t := s.cmpPos a u
    let s := s.onCm (2 * a + u) fun x => { x with armed := true, side := sgn (pos - t), missed := false }
    if cmpPassed (fld w 9 8) pos t then
      if !valid then s.onCm (2 * a + u) fun x => { x with missed := true }
      else if bt w 20 then
        let s := s.cmpFire a u tick
        if bt w 4 then
          (s.setPair (pgMot a) (MOT.CMP_POS_LO u) (t + (s.lv (pgMot a) (MOT.CMP_INC u)).toInt * 65536)).cmpArm n a u tick pos valid
        else s
      else
        ((s.onCm (2 * a + u) fun x => { x with armed := false }).onLv (pgMot a) (MOT.CMP_STATUS u) (· ||| 4)).event
          (pgMot a) (2 ^ (3 + u))
    else s

/-- Firings that re-arming at one instant is followed for: one for each whole count the target can lie behind, and one more. -/
def cmpFuel (pos t : Int) : Nat := (pos - t).natAbs / 65536 + 2

/-- An armed unit is reached by a move of its position (R187). -/
def cmpReached (dir : Nat) (side before after t : Int) : Bool :=
  match dir with
  | 1 => decide (before < t ∧ t ≤ after)
  | 2 => decide (t < before ∧ after ≤ t)
  | 3 => (decide (side < 0) && decide (t ≤ after)) || (decide (0 < side) && decide (after ≤ t))
  | _ => false

/-- The position of a unit moves from one value to another at a tick (R187 to R189). -/
def State.cmpMove (s : State) (a u tick : Nat) (before after : Int) (valid : Bool) : State :=
  let i := 2 * a + u
  let x := s.cm i
  let w := s.cmpCtrl a u
  let t := s.cmpPos a u
  if !x.armed then s
  else if cmpReached (fld w 9 8) x.side before after t then
    if !valid then s.onCm i fun x => { x with missed := true }
    else
      let s := s.cmpFire a u tick
      if bt w 4 then
        let t' := t + (s.lv (pgMot a) (MOT.CMP_INC u)).toInt * 65536
        (s.setPair (pgMot a) (MOT.CMP_POS_LO u) t').cmpArm (cmpFuel after t') a u tick after true
      else s
  else if x.side = 0 ∧ after ≠ t then s.onCm i fun x => { x with side := sgn (after - t) }
  else s

/-- POS_ACT of an axis moves: its units with SRC = 1 (R187). -/
def State.cmpActual (s : State) (a tick : Nat) (before after : Int) : State :=
  forN 2 (fun u s => if bt (s.cmpCtrl a u) 16 then s.cmpMove a u tick before after (s.axFbValid a) else s) s

/-- The set-point of an axis moves over frame k+1, of the length given: its units with SRC = 0 (R187). -/
def State.cmpSetPoint (s : State) (a b1 len : Nat) (before after : Int) : State :=
  forN 2 (fun u s =>
    if bt (s.cmpCtrl a u) 16 then s
    else
      let d := after - before
      let tick := b1 + (if d = 0 then 0 else roundRat (((s.cmpPos a u - before) * len : Int) / (d : Rat))).toNat
      s.cmpMove a u tick before after true) s

/-- The interface of a unit that was reached while it was invalid is valid again: R188 applies at the boundary (R189). -/
def State.cmpValidAgain (s : State) (a : Nat) : State :=
  forN 2 (fun u s =>
    if (s.cm (2 * a + u)).missed && s.axFbValid a then
      s.cmpArm (cmpFuel (s.actNow a) (s.cmpPos a u)) a u s.time.frameStart (s.actNow a) true
    else s) s

/-- COMPARE_ARM (R188): a write of CMP_CTRL. ARM = 1 arms at once; ARM = 0 disarms. The bits of the last firing clear
(log entry 24). -/
def execCompareArm (axis : AxisIx) (unit : Fin 2) (v : Word) (s : State) : Out :=
  if !s.up then .next s
  else
    let a := axis.val
    let u := unit.val
    let s := s.setLv (pgMot a) (MOT.CMP_CTRL u) (v &&& 0x00110310)
    if bt v 0 then
      let actual := bt v 16
      let pos := if actual then s.actNow a else (s.mt a).p0
      let s := s.onLv (pgMot a) (MOT.CMP_STATUS u) (· &&& 0xFFFF0000)
      .next (s.cmpArm (cmpFuel pos (s.cmpPos a u)) a u s.now pos (!actual || s.axFbValid a))
    else .next (s.onCm (2 * a + u) fun x => { x with armed := false, missed := false })

/-- COMPARE_PULSE_END (R189): PULSE_US after the last firing the pulse ends. -/
def execComparePulseEnd (axis : AxisIx) (unit : Fin 2) (s : State) : Out :=
  .next (s.expire (.cmpPulse axis.val unit.val) fun s => s.onCm (2 * axis.val + unit.val) fun x => { x with pulse := none })

/-- A compare pulse drives field output n now (R189). -/
def State.cmpDrives (s : State) (n : Nat) : Bool :=
  (List.range 32).any fun i =>
    let o := cmpOut s.force (i / 2) (i % 2)
    bt o 4 && fld o 2 0 == n && (match (s.cm i).pulse with | some t => decide (t ≤ s.now) | none => false)

/-- Field output n is claimed by a compare unit (R189). -/
def cmpClaims (c : Cfg) (n : Nat) : Bool :=
  (List.range 32).any fun i => let o := cmpOut c (i / 2) (i % 2); bt o 4 && fld o 2 0 == n

end Sys2Proof.Machine
end

