-- ==== Sys2Proof/Machine/Feedback.lean ====
section
/-!
DEFINITION. The feedback interfaces (chapter 6): counting, index, absolute words, speed, faults and re-acquisition, position
loads and the repeaters.
-/
namespace Sys2Proof.Machine

/-- DIR_INV. -/
def fbInv (c : Cfg) (n : Nat) : Bool := bt (fbCfg c n) 4
/-- REF_REQ. -/
def fbRefReq (c : Cfg) (n : Nat) : Bool := bt (fbCfg c n) 28
/-- FILT. -/
def fbFilt (c : Cfg) (n : Nat) : Nat := fld (fbCfg c n) 23 16
/-- RIDE. -/
def fbRide (c : Cfg) (n : Nat) : Nat := fld (fbCfg c n) 15 12
/-- PER_N: 1, 2 or 4 intervals. -/
def fbPerN (c : Cfg) (n : Nat) : Nat := 2 ^ fld (c (pgFb n) FB.SPEED_CFG) 1 0
/-- STANDSTILL in ticks. -/
def fbStill (c : Cfg) (n : Nat) : Nat := msT (fld (c (pgFb n) FB.STANDSTILL) 15 0)
/-- An incremental mode. -/
def fbIncr (c : Cfg) (n : Nat) : Bool := decide (1 ≤ fbMode c n ∧ fbMode c n ≤ 5)

/-- Whole counts of a Q48.16 position. -/
def wholeCounts (p : Int) : Int := p / 65536

/-- Axes that use interface n as their feedback: enabled drive axes by SOURCES.FB, motion axes by CFG.FB. -/
def fbUsers (c : Cfg) (n : Nat) : List Nat :=
  (List.range 16).filter fun a => axFb c a == some n && (decide (8 ≤ a) || axComm c a != 0)

/-- REFERENCED sets, with its event. -/
def State.fbSetRef (s : State) (n : Nat) : State :=
  if (s.fb n).referenced then s else (s.onFb n fun x => { x with referenced := true }).event (pgFb n) 16

/-- A fault of interface n (R164): its bit, the count, the retry. In retry it is a further cause and no onset (log entry 6). -/
def State.fbFault (s : State) (n bit : Nat) : State :=
  let s := s.pfault (pgFb n) (2 ^ bit)
  let s := s.onFb n fun x =>
    { x with
      cause := x.cause ||| BitVec.ofNat 8 (2 ^ bit), lastFault := s.now, goodRun := 0, goodWord := none
      referenced := x.referenced && !(decide (bit < 2) && fbIncr s.force n) }
  if (s.fb n).state = .running then
    ((s.inc16 (pgFb n) FB.FAULT_COUNT).event (pgFb n) 4).onset 1 n
  else s

/-- The interface starts as at power-up (R167): counts from 0 and not referenced, no word taken. -/
def State.fbStart (s : State) (n : Nat) : State :=
  s.onFb n fun x =>
    { state := if fbMode s.force n = 0 then .off else if s.chRet 1 n then .retired else .running, zba := x.zba, lineOk := true }

/-! Counting. -/

/-- Quadrature state of A and B, A leading B forward. -/
def quadIdx (z : BitVec 3) : Nat :=
  match z.getLsbD 0, z.getLsbD 1 with
  | false, false => 0
  | true, false => 1
  | true, true => 2
  | false, true => 3

/-- A Hall code (U + 2V + 4W) names a sector. -/
def hallValid (z : BitVec 3) : Bool := z != 0 && z != 7

/-- Sector of a Hall code under HALL_CFG (R154). -/
def hallSectorOf (c : Cfg) (n : Nat) (z : BitVec 3) : Nat :=
  let w := c (pgFb n) FB.HALL_CFG
  (Config.hallSector (Fin.ofNat 8 z.toNat) (Fin.ofNat 8 (fld w 2 0)) (bt w 3)).val

/-- What accepted levels count (R154): a signed count before DIR_INV, or an illegal transition. -/
def fbCounts (c : Cfg) (n : Nat) (old new : BitVec 3) : Option Int :=
  let rise := fun i => !old.getLsbD i && new.getLsbD i
  match fbMode c n with
  | 1 =>
    match (quadIdx new + 4 - quadIdx old) % 4 with
    | 0 => some 0
    | 1 => some 1
    | 3 => some (-1)
    | _ => none
  | 2 => some (if rise 0 then (if new.getLsbD 1 then 1 else -1) else 0)
  | 3 => some ((rise 0).toNat - (rise 1).toNat : Int)
  | 5 =>
    if old = new then some 0
    else if !hallValid new then none
    else if !hallValid old then some 0
    else match (hallSectorOf c n new + 6 - hallSectorOf c n old) % 6 with
      | 0 => some 0
      | 1 => some 1
      | 5 => some (-1)
      | _ => none
  | _ => some 0

/-- One count edge at a stamp (R161): the position, the direction, the edges in the present direction, a reversal. -/
def State.fbEdge (s : State) (n stamp : Nat) (cnt : Int) : State :=
  let d := if fbInv s.force n then -cnt else cnt
  s.onFb n fun x =>
    let down := decide (d < 0)
    let rev := x.lastEdge.isSome && down != x.dirDown
    { x with
      pos := x.pos + d * 65536
      trail := ((stamp, d * 65536) :: x.trail).filter fun e => decide (stamp ≤ e.1 + 512)
      dirDown := down, standstill := false, lastEdge := some stamp, reversed := x.reversed || rev
      methPrev := x.methPrev && !rev
      edges := if rev then [(stamp, cnt.natAbs)] else ((stamp, cnt.natAbs) :: x.edges).take 6
      m := if rev then 1 else x.m + 1 }

/-- The position is set without a count: an index load, a reference, a position load. The count history moves with it, so that
the speed does not (log entry 48). -/
def State.fbSetPos (s : State) (n : Nat) (p : Int) : State :=
  s.onFb n fun x =>
    let d := wholeCounts p - wholeCounts x.pos
    { x with pos := p, hist := x.hist.map fun h => (h.1 + d, h.2), idxPos := x.idxPos.map (· + (p - x.pos)) }

/-- INDEX_VALUE as a position. -/
def indexValue (c : Cfg) (n : Nat) : Int := (c (pgFb n) FB.INDEX_VALUE).toInt * 65536

/-- A tooth edge of the WHEEL mode (R155). -/
def State.fbTooth (s : State) (n stamp : Nat) : State :=
  let w := s.cf (pgFb n) FB.WHEEL
  let gap := fld w 1 0
  let x := s.fb n
  let ivl := match x.lastTooth with
    | some t => stamp - t
    | none => 0
  let known := x.lastIvl ≠ 0 ∧ ivl ≠ 0
  let extra := bt w 4 && decide known && decide (2 * ivl < x.lastIvl)
  let miss := !bt w 4 && decide known && decide ((2 * gap + 1) * x.lastIvl < 2 * ivl)
  let cnt := if extra then 0 else if miss then gap + 1 else 1
  let s := if extra then s else s.fbEdge n stamp cnt
  let s := s.onFb n fun y =>
    { y with
      lastTooth := if extra then y.lastTooth else some stamp, lastIvl := if extra ∨ ivl = 0 then y.lastIvl else ivl
      sinceRef := x.sinceRef.map (· + cnt) }
  if !(extra || miss) then s
  else
    let since := (s.fb n).sinceRef
    let s := s.onFb n fun y => { y with sinceRef := some 0 }
    let s := if (s.fb n).referenced then s else (s.fbSetPos n (indexValue s.force n)).fbSetRef n
    match since with
    | none => s
    | some k =>
      if k = fld w 15 8 then s.onFb n fun y => { y with cause := y.cause &&& ~~~(BitVec.ofNat 8 64) }
      else s.fbFault n 6

/-- The gate of the index holds (R156). -/
def indexGate (c : Cfg) (n : Nat) (z : BitVec 3) : Bool :=
  match fld (fbCfg c n) 27 26 with
  | 0 => true
  | 1 => z.getLsbD 0 && z.getLsbD 1
  | 2 => z.getLsbD 0
  | _ => z.getLsbD 1

/-- A gated rising edge of Z (R156). -/
def State.fbIndex (s : State) (n : Nat) : State :=
  let c := s.force
  let mode := fld (fbCfg c n) 25 24
  if mode = 0 then s
  else
    let p := (s.fb n).pos
    let s := (s.setPair (pgFb n) FB.INDEX_POS_LO p).event (pgFb n) 32
    let prev := (s.fb n).idxPos
    let s := s.onFb n fun x => { x with idxPos := some p }
    let s := if mode ≠ 1 ∧ !(s.fb n).referenced then (s.fbSetPos n (indexValue c n)).fbSetRef n else s
    match prev with
    | none => s
    | some q =>
      if mode ≠ 3 then s
      else
        let diff : Int := ((wholeCounts (p - q)).natAbs : Int) - (c (pgFb n) FB.COUNTS_PER_INDEX).toNat
        let s := s.setLv (pgFb n) FB.INDEX_DIFF (iw diff)
        if (fld (c (pgFb n) FB.INDEX_TOL) 15 0) < diff.natAbs then s.fbFault n 5
        else s.onFb n fun x => { x with cause := x.cause &&& ~~~(BitVec.ofNat 8 32) }

/-- The first valid Hall code after a start or a re-acquisition (R154, R157): the sector in the present electrical turn. -/
def State.hallFirst (s : State) (n : Nat) : State :=
  let x := s.fb n
  if fbMode s.force n = 5 ∧ !x.referenced ∧ hallValid x.zba ∧ x.state = .running then
    let k := hallSectorOf s.force n x.zba
    let k := if fbInv s.force n then (6 - k) % 6 else k
    (s.fbSetPos n ((wholeCounts x.pos / 6 * 6 + (k : Nat)) * 65536)).fbSetRef n
  else s

/-! Speed. -/

/-- Sum of the counts of the first k edges: what the k newest intervals stand for. -/
def edgeWeight (l : List (Nat × Nat)) (k : Nat) : Nat := ((l.take k).map (·.2)).sum

/-- Period-method speed at a boundary (R161). -/
def fbPeriodSpeed (c : Cfg) (n bk : Nat) (x : FbSt) : Int :=
  match x.edges with
  | (te, _) :: (t1, _) :: _ =>
    if x.m < 2 then 0
    else
      let k := min (fbPerN c n) (x.m - 1)
      let tk := ((x.edges.drop k).headD (t1, 0)).1
      let v : Int := roundDiv (4000000000 * (edgeWeight x.edges k : Nat)) (te - tk)
      let age := bk - te
      let v := if te - t1 < age then min v (roundDiv 4000000000 age) else v
      if x.dirDown then -v else v
  | _ => 0

/-- Count-method speed over a window of frames, or as many as the history holds (R161, R163; log entry 49). -/
def fbCountSpeed (win : Nat) (h : List (Int × Nat)) : Int :=
  match h with
  | (c0, t0) :: rest =>
    match (rest.take win).getLast? with
    | some (cw, tw) => roundDiv (4000000000 * (c0 - cw)) (t0 - tw)
    | none => 0
  | [] => 0

/-- Method and speed of sample set k from the edges stamped before B_k (R161 to R163). -/
def State.fbForm (s : State) (n : Nat) : State :=
  let c := s.force
  let bk := s.time.frameStart
  let x := s.fb n
  if fbAbs c n then s.onFb n fun x => { x with sSpeed := fbCountSpeed (fbWin c n) x.hist, countMethod := true }
  else
    let still := match x.lastEdge with
      | some t => decide (fbStill c n ≤ bk - t)
      | none => true
    let vp := fbPeriodSpeed c n bk x
    let vc := fbCountSpeed (fbWin c n) x.hist
    let q : Int := roundDiv 4000000000 (fbWin c n * s.time.curLen)
    let hi := (c (pgFb n) FB.SPD_HI).toInt
    let lo := (c (pgFb n) FB.SPD_LO).toInt
    let (meth, v) :=
      if still then (false, (0 : Int))
      else if x.m < 2 then (x.methPrev, 0)
      else if !x.methPrev && decide (hi ≤ (x.vPrev.natAbs : Int)) then (true, clampI (x.vPrev - q) (x.vPrev + q) vc)
      else if x.methPrev && decide ((x.vPrev.natAbs : Int) < lo) then (false, clampI (x.vPrev - q) (x.vPrev + q) vp)
      else (x.methPrev, if x.methPrev then vc else vp)
    s.onFb n fun x => { x with sSpeed := v, countMethod := meth }

/-- Sample set k of interface n (R161, R165): VALID, position and tick, the count history, the speed. -/
def State.fbBoundary (s : State) (n : Nat) : State :=
  let c := s.force
  let bk := s.time.frameStart
  let x := s.fb n
  if x.state = .off then s
  else
    -- a position load applies (R158)
    let s := if x.loadPending then
        let v := pair64 (s.lv (pgFb n) FB.POS_LOAD_LO) (s.lv (pgFb n) FB.POS_LOAD_HI)
        let v := if fbAbs c n then wholeCounts v * 65536 else v
        let s := s.onFb n fun y => { y with loadPending := false, loadOfs := if fbAbs c n then v - (y.pos - y.loadOfs) else 0 }
        ((if fbAbs c n then s.onFb n fun y => { y with pos := v } else s.fbSetPos n v).fbSetRef n).event (pgFb n) 64
      else s
    let x := s.fb n
    let ok := decide (x.state = .running) && (!fbAbs c n || x.firstWord) && (!fbRefReq c n || x.referenced)
    let s := s.onFb n fun y =>
      { y with valid := ok, vPrev := y.sSpeed, methPrev := y.countMethod && !y.reversed
               hist := if fbAbs c n then y.hist else ((wholeCounts y.pos, bk) :: y.hist).take 18 }
    let s := if ok then (s.onFb n fun y => { y with sPos := y.pos, sTick := if fbAbs c n then y.lastAcq else bk }).fbForm n else s
    let s := if x.reversed then (s.onFb n fun y => { y with reversed := false }).event (pgFb n) 1 else s
    if ok then
      let s := s.onFb n fun y => { y with ride := 0, lostRaised := false }
      forL (List.range 16) (fun a s => if axFb c a = some n then s.clearSrc srcFbLost a else s) s
    else s.onFb n fun y => { y with ride := min (y.ride + 1) 255 }

/-- An edge stamped before B_k that is accepted before the sample set is published belongs to it (R161, log entry 47). -/
def State.fbResample (s : State) (n stamp : Nat) : State :=
  let x := s.fb n
  if stamp < s.time.frameStart ∧ !s.time.published ∧ x.valid ∧ fbIncr s.force n then
    let s := s.onFb n fun y =>
      { y with
        sPos := y.pos, methPrev := y.methPrev && !y.reversed
        hist := match y.hist with
          | h :: t => (wholeCounts y.pos, h.2) :: t
          | [] => [] }
    s.fbForm n
  else s

/-- FB_EDGE_ACCEPTED (R152, R154 to R157): the levels of Z, B and A held for FILT ticks since the stamp are accepted; count, then
index, then the compare units and latches that follow the interface. -/
def execFbEdgeAccepted (fb : FbIx) (stamp : Nat) (zba : BitVec 3) (s : State) : Out :=
  let n := fb.val
  let c := s.force
  if !s.up || fbMode c n == 0 || fbMode c n > 5 || (s.fb n).state = .off || (s.fb n).state = .retired then
    .next (s.onFb n fun x => { x with zba := zba })
  else
    let s := s.reach (stamp + fbFilt c n)
    let old := (s.fb n).zba
    let axes := s.actAxes n
    let before := axes.map fun a => s.actNow a
    let s := s.onFb n fun x => { x with zba := zba }
    let s :=
      if fbMode c n = 4 then
        if !old.getLsbD 0 && zba.getLsbD 0 then s.fbTooth n stamp else s
      else match fbCounts c n old zba with
        | none => s.fbFault n 1
        | some 0 => s
        | some d =>
          let s := s.fbEdge n stamp d
          if fbMode c n = 5 ∧ (s.fb n).state = .retry then s.onFb n fun x => { x with goodRun := x.goodRun + 1 } else s
    let s := s.latchLate n stamp
    let after := axes.map fun a => s.actNow a
    let s := s.hallFirst n
    let zRise := !old.getLsbD 2 && zba.getLsbD 2
    let s := if fbIdxMode c n && zRise && indexGate c n zba then s.fbIndex n else s
    let s := forL (axes.zip (before.zip after)) (fun x s => if x.2.1 = x.2.2 then s else s.cmpActual x.1 stamp x.2.1 x.2.2) s
    let s := if old.getLsbD 2 != zba.getLsbD 2 then s.latchZ n stamp zRise else s
    let s := s.fbResample n stamp
    .next (forN 2 (fun r s =>
      if repMode c r = 1 ∧ fld (repCfg c r) 2 0 = n ∧ (s.fb n).valid then
        { s with reps := s.reps.modify r fun x => { x with out := zba } }
      else s) s)

/-- FB_STANDSTILL (R161): at the first boundary at which the age of the newest edge reaches STANDSTILL. -/
def execFbStandstill (fb : FbIx) (s : State) : Out :=
  let n := fb.val
  let x := s.fb n
  match x.lastEdge with
  | some t =>
    if s.up && fbIncr s.force n && !x.standstill && decide (fbStill s.force n ≤ s.time.frameStart - t) then
      .next ((s.onFb n fun y =>
        { y with standstill := true, m := 0, edges := [], methPrev := false, countMethod := false, sSpeed := if y.valid then 0 else y.sSpeed }).event
          (pgFb n) 2)
    else .next s
  | none => .next s

/-- FB_LINE_FAULT (R164): the line monitor flags a pair that the mode uses and receives differentially. -/
def execFbLineFault (fb : FbIx) (s : State) : Out :=
  let n := fb.val
  let w := fbCfg s.force n
  let used : List Nat := match fbMode s.force n with
    | 0 => []
    | 4 => [8]
    | 6 | 7 => [9]
    | _ => [8, 9, 10]
  if s.up && bt w 11 && used.any (fun i => !bt w i) && ((s.fb n).state = .running || (s.fb n).state = .retry) then
    .next ((s.onFb n fun x => { x with lineOk := false }).fbFault n 0)
  else .next s

/-- FB_REACQUIRE (R165): the conditions of Table 6-3 are met for every fault of the retry: 1 ms without a fault for LINE and
SEQUENCE (two legal sector changes serve in HALL), good words for the absolute modes, an index or reference in place. -/
def execFbReacquire (fb : FbIx) (s : State) : Out :=
  let n := fb.val
  let c := s.force
  let x := s.fb n
  if !s.up || x.state != .retry then .next s
  else
    let timed := x.cause &&& 3 != 0
    let words := x.cause &&& 0x9C != 0
    let rest := x.cause &&& 0x60 != 0
    if rest || (words && decide (x.goodRun < 2)) then .next s
    else
      let s := if timed && !(fbMode c n == 5 && x.cause == 2 && decide (2 ≤ x.goodRun)) then s.reach (x.lastFault + msT 1) else s
      let s := s.onFb n fun y => { y with lineOk := true, cause := 0, state := .running }
      let s := s.hallFirst n
      if fbRefReq c n && !(s.fb n).referenced then .next (s.onFb n fun y => { y with state := .retry })
      else
        .next (((s.onFb n fun y =>
          { y with m := 0, edges := [], hist := if fbAbs c n then y.hist else [], sSpeed := 0, vPrev := 0, methPrev := false, countMethod := false,
                   goodRun := 0, goodWord := none }).event (pgFb n) 8).backInService 1 n)

/-! Absolute encoders. -/

/-- Gray code of k bits converted. -/
def grayToBin : Nat → Nat → Nat
  | 0, _ => 0
  | k + 1, w => let h := grayToBin k (w >>> 1); (h <<< 1) ||| ((h ^^^ w) &&& 1)

/-- Difference of two words of b bits as R160 takes it. -/
def wordDiff (b new old : Nat) : Int :=
  let d := (new + 2 ^ b - old % 2 ^ b) % 2 ^ b
  if d < 2 ^ (b - 1) then d else (d : Int) - (2 ^ b : Nat)

/-- ABS_ACQUISITION_START (R159): at B_{k+1} − ACQ_LEAD the data line is tested and the acquisition starts. -/
def execAbsAcquisitionStart (fb : FbIx) (idle : Bool) (s : State) : Out :=
  let n := fb.val
  let c := s.force
  let x := s.fb n
  if !s.up || !fbAbs c n || !s.time.grid || x.acq.isSome || (x.state != .running && x.state != .retry) then .next s
  else
    let t := s.time.frameStart + s.time.curLen - absLead c n
    let s := s.reach t
    if idle then .next (s.onFb n fun y => { y with acq := some t, lastAcq := t, tail := false })
    else .next (s.fbFault n 2)

/-- A word extends the position (R160): from the word before, or first, plus the offset of a load. -/
def State.fbWord (s : State) (n w : Nat) : State :=
  let c := s.force
  let x := s.fb n
  let sg : Int := if fbInv c n then -1 else 1
  let d := if x.firstWord then sg * wordDiff (absBits c n) w x.lastWord else 0
  let pos := if x.firstWord then x.pos + d * 65536 else sg * (w : Int) * 65536 + x.loadOfs
  let s := s.onFb n fun y =>
    { y with
      pos := pos, firstWord := true, lastWord := w, dirDown := if d = 0 then y.dirDown else decide (d < 0)
      hist := ((wholeCounts (pos - y.loadOfs), y.lastAcq) :: y.hist).take 18 }
  s.fbSetRef n

/-- The tracing unit sees an acquisition of interface n (Table 16-4, KIND 3): the conditions that hold, and the word. -/
def State.traceAbs (s : State) (n : Nat) (conds : List Nat) (w : Nat) : State :=
  s.traceKind 3 s.now fun u tu =>
    fld tu 7 0 == n && conds.contains (fld tu 27 24)
      && (fld tu 27 24 != 0 || (nw w ^^^ s.cf pgTrace (TRACE.TU_A u)) &&& s.cf pgTrace (TRACE.TU_B u) == 0)

/-- ABS_ACQUISITION_DONE (R159, R160): the answer is checked; a good word extends the position, in retry from the second good
word on. -/
def execAbsAcquisitionDone (fb : FbIx) (r : AbsResult) (s : State) : Out :=
  let n := fb.val
  let c := s.force
  let x := s.fb n
  match x.acq with
  | none => .next s
  | some t =>
    if !s.up then .next s
    else
      let ssi := fbMode c n == 6
      let s := s.reach (t + absTx c n)
      let raw := r.word.toNat % 2 ^ absBits c n
      let w := if ssi && bt (c (pgFb n) FB.ABS_CFG) 6 then grayToBin (absBits c n) raw else raw
      let s := s.onFb n fun y => { y with acq := none, tail := ssi }
      let s := (s.setLv (pgFb n) FB.RAW_LO (nw w)).setLv (pgFb n) FB.RAW_HI
        (nw (w / 2 ^ 32 + (if ssi then 0 else r.status.toNat * 256)))
      let s := if ssi then s else s.setLv (pgFb n) FB.LINE_DELAY (nw (min r.delay 0xFFFF))
      let s := if ssi then s
        else s.traceAbs n ((if r.status.getLsbD 3 then [2] else []) ++ (if r.status.getLsbD 2 then [3] else [])) w
      if !ssi && decide (500 < r.delay) then .next ((s.fbFault n 2).traceAbs n [4] w)
      else if !r.checkOk && (!ssi || absPar c n) then .next ((s.fbFault n 3).traceAbs n [1] w)
      else if !ssi && r.status.getLsbD 3 then .next (s.fbFault n 7)
      else
        let step := (c (pgFb n) FB.MAX_STEP).toNat
        let near := fun (old : Nat) => decide ((wordDiff (absBits c n) w old).natAbs ≤ step)
        let axes := s.actAxes n
        let before := axes.map fun a => s.actNow a
        let moved := fun (s : State) =>
          forL (axes.zip before) (fun y s => if x.firstWord ∧ s.actNow y.1 ≠ y.2 then s.cmpActual y.1 t y.2 (s.actNow y.1) else s) s
        let s := s.traceAbs n [0] w
        if x.state = .retry then
          match x.goodWord with
          | some g =>
            if near g then .next (moved ((s.onFb n fun y => { y with goodRun := y.goodRun + 1, goodWord := some w }).fbWord n w))
            else .next (s.onFb n fun y => { y with goodRun := 1, goodWord := some w })
          | none => .next (s.onFb n fun y => { y with goodRun := 1, goodWord := some w })
        else if x.firstWord && !near x.lastWord then .next (s.fbFault n 4)
        else .next (moved (s.fbWord n w))

/-- ABS_TIMEOUT_EXPIRY (R159, R164): SSI, the data line has not returned high within TIMEOUT of the last clock; ABS_CRC, no complete
start pattern within TIMEOUT of the second falling clock edge. -/
def execAbsTimeoutExpiry (fb : FbIx) (s : State) : Out :=
  let n := fb.val
  let c := s.force
  let x := s.fb n
  if !s.up then .next s
  else if fbMode c n = 6 ∧ x.tail then
    .next ((((s.reach (x.lastAcq + absTx c n + absTimeout c n)).onFb n fun y => { y with tail := false }).fbFault n 2).traceAbs n [4] 0)
  else if fbMode c n = 7 ∧ x.acq.isSome then
    .next ((((s.reach (x.lastAcq + absClk c n + absTimeout c n)).onFb n fun y => { y with acq := none }).fbFault n 2).traceAbs n [4] 0)
  else .next s

/-! Position loads and repeaters. -/

/-- A write to LOAD_CMD by a master (R158). -/
def State.loadCmd (s : State) (m : Master) (n : Nat) (v : Word) : State :=
  if !bt v 0 then s
  else
    let c := s.force
    let busy := (List.range 8).any fun a =>
      (s.ax a).state.moving && axComm c a != 0 && axAngle c a != 2 && axFb c a == some n
    let st := (s.fb n).state
    if busy || st = .retry || st = .retired then s.refuseBy m eState 0 (regAddr (pgFb n) FB.LOAD_CMD)
    else s.onFb n fun x => { x with loadPending := true }

/-- POS_LOAD (R158), as the host writes it. -/
def execPosLoad (fb : FbIx) (v : Word) (s : State) : Out :=
  if s.up then .next ((s.touch .host).loadCmd .host fb.val v) else .next s

/-- Levels of A and B for an output count; A = B = 1 stands at the counts that are multiples of four (log entry 24). -/
def repLevels (zper : Nat) (n : Int) : BitVec 3 :=
  match (n % 4).toNat with
  | 0 => if zper ≠ 0 ∧ n % (zper : Int) = 0 then 7 else 3
  | 1 => 2
  | 2 => 0
  | _ => 1

/-- A repeater at a boundary (R169, R170): off, passing, or the change of the last two sample sets to be emitted. -/
def State.repBoundary (s : State) (r : Nat) : State :=
  let c := s.force
  let src := fld (repCfg c r) 2 0
  let ok := (s.fb src).valid
  let on := fun (f : RepSt → RepSt) => { s with reps := s.reps.modify r f }
  match repMode c r with
  | 1 => if ok then on fun x => { x with held := false, out := (s.fb src).zba } else on fun x => { x with held := true }
  | 2 =>
    if ok then
      on fun x => { x with held := false, lag := x.count != x.target, target := wholeCounts (s.fb src).sPos / (2 ^ fld (repCfg c r) 11 8 : Nat) }
    else on fun x => { x with held := true }
  | _ => on fun x => { x with out := 0, held := false, lag := false }

/-- REPEATER_TRANSITION (R169): one transition toward the count to reach, MIN_EDGE after the last. -/
def execRepeaterTransition (r : Fin 2) (s : State) : Out :=
  let c := s.force
  let x := s.reps.getD r.val {}
  if !s.up || repMode c r.val != 2 || x.held || x.count == x.target then .next s
  else
    let s := s.reach (x.last + fld (repCfg c r.val) 31 16)
    let n := x.count + sgn (x.target - x.count)
    let zper := fld (c (pgFb r.val) FB.REP_ZPER) 24 0
    .next { s with reps := s.reps.modify r.val fun x =>
      { x with count := n, last := s.now, out := repLevels zper n, lag := x.lag && n != x.target } }

/-- EMULATE starts from the source's present count. -/
def State.repStart (s : State) (r : Nat) : State :=
  let k := wholeCounts (s.fb (fld (repCfg s.force r) 2 0)).sPos / (2 ^ fld (repCfg s.force r) 11 8 : Nat)
  { s with reps := s.reps.modify r fun _ => { count := k, target := k, out := if repMode s.force r = 0 then 0 else repLevels 0 k } }

/-- STATUS (Table 6-6). -/
def State.fbStatus (s : State) (n : Nat) : Word :=
  let x := s.fb n
  let st : Nat := match x.state with
    | .off => 0
    | .running => 1
    | .retry => 2
    | .retired => 3
  nw (min (s.onsetsIn 1 n).length 255 * 2 ^ 16 + st * 256 + bitAt 7 x.referenced + bitAt 6 x.dirDown + bitAt 5 x.standstill
    + bitAt 4 x.countMethod + bitAt 3 (decide (x.state ≠ .off) && x.lineOk) + bitAt 2 x.valid)

/-- Read-only registers of page FB n that the interface's state shows. -/
def State.viewFb (s : State) (n o : Nat) : Option Word :=
  let x := s.fb n
  if o = FB.POS_LO then some (loW x.sPos)
  else if o = FB.POS_HI then some (hiW x.sPos)
  else if o = FB.SPEED then some (iw x.sSpeed)
  else if o = FB.ACQ_TICK_LO then some (loW x.sTick)
  else if o = FB.ACQ_TICK_HI then some (hiW x.sTick)
  else if o = FB.EDGE_AGE then some (match x.lastEdge with
    | some t => nw (min (s.time.frameStart - t) 0xFFFFFFFF)
    | none => 0)
  else if o = FB.RAW_LO ∧ !fbAbs s.force n then some (nw x.zba.toNat)
  else if o = FB.REP_STATUS then
    let r := s.reps.getD n {}
    some (if n < 2 then nw (bitAt 1 r.held + bitAt 0 r.lag) else 0)
  else if o = FB.STATUS ∨ o = pageStatus then some (s.fbStatus n)
  else none

end Sys2Proof.Machine
end

