-- ==== Sys2Proof/Machine/Motion.lean ====
section
/-!
DEFINITION. The profile and gearing unit (R172 to R180, R191 to R193), the step outputs and the deviation window (R181, R182),
path groups (R183 to R186).
-/
namespace Sys2Proof.Machine

/-! Arithmetic of the planner: exact rationals, square roots and stored values taken to 2^-96 (log entry 25). -/

/-- Largest multiple of 2^-96 that is not above q. -/
def q96 (q : Rat) : Rat := (floorRat (q * (2 ^ 96 : Nat)) : Rat) / (2 ^ 96 : Nat)

/-- Square root of a non-negative rational, rounded down to 2^-96; exact where it is a rational square of that grid. -/
def sqrtHi (q : Rat) : Rat := (Nat.sqrt ((q * (2 ^ 192 : Nat)).num.toNat / (q * (2 ^ 192 : Nat)).den) : Rat) / (2 ^ 96 : Nat)

/-- Greater and smaller of two rationals. -/
def rmax (a b : Rat) : Rat := if a < b then b else a
/-- Smaller of two rationals. -/
def rmin (a b : Rat) : Rat := if a < b then a else b
/-- Magnitude. -/
def rabs (a : Rat) : Rat := if a < 0 then -a else a

/-- A value below which a remaining distance counts as covered. -/
def tiny : Rat := 1 / (2 ^ 60 : Nat)

/-- Motion over a time h toward the end of a stretch r from speed u, with cruise speed vm, acceleration ac, deceleration de and
speed e at the end: distance, speed, the time left over where the end is reached, and the deceleration used. All are
magnitudes. A deceleration that cannot meet the end is raised to the smallest that does (R179). -/
def trapStep (r u vm ac de e h : Rat) : Rat × Rat × Option Rat × Rat :=
  let need := if tiny < r then (u * u - e * e) / (2 * r) else 0
  let d := rmax de need
  let fast := decide (vm < u)
  let t0 := if fast then (u - vm) / d else 0
  let d0 := if fast then (u * u - vm * vm) / (2 * d) else 0
  if fast && decide (h < t0) && decide (u * u - e * e < 2 * d * r) then (u * h - d * h * h / 2, u - d * h, none, d)
  else
    let u1 := if fast ∧ u * u - e * e < 2 * d * r then vm else u
    let d1 := if fast ∧ u * u - e * e < 2 * d * r then d0 else 0
    let h1 := if fast ∧ u * u - e * e < 2 * d * r then h - t0 else h
    let r1 := r - d1
    if r1 ≤ tiny ∧ u1 ≤ e + tiny then (r, e, some h1, d)
    else if 2 * d * r1 ≤ u1 * u1 - e * e then
      let t := if u1 + e = 0 then 0 else 2 * r1 / (u1 + e)
      let dd := if t = 0 then d else (u1 - e) / t
      if h1 < t then (d1 + u1 * h1 - dd * h1 * h1 / 2, u1 - dd * h1, none, rmax d dd) else (r, e, some (h1 - t), rmax d dd)
    else
      let vq := (2 * ac * d * r1 + d * u1 * u1 + ac * e * e) / (ac + d)
      let vp := if vm * vm ≤ vq then rmax vm u1 else rmax u1 (sqrtHi vq)
      if vp = 0 then (d1, 0, none, d)
      else
        let ta := (vp - u1) / ac
        let da := (vp * vp - u1 * u1) / (2 * ac)
        let td := (vp - e) / d
        let dd := (vp * vp - e * e) / (2 * d)
        let tc := (r1 - da - dd) / vp
        if h1 < ta then (d1 + u1 * h1 + ac * h1 * h1 / 2, u1 + ac * h1, none, d)
        else if h1 < ta + tc then (d1 + da + vp * (h1 - ta), vp, none, d)
        else if h1 < ta + tc + td then
          let x := h1 - ta - tc
          (d1 + da + vp * tc + vp * x - d * x * x / 2, vp - d * x, none, d)
        else (r, e, some (h1 - ta - tc - td), d)

/-- Speed followed toward a goal over a time h (R176, R180): signed distance and speed. -/
def trackStep (u goal ac de h : Rat) : Rat × Rat :=
  let sg : Rat := if u < 0 then -1 else if 0 < u then 1 else if goal < 0 then -1 else 1
  let x := u * sg
  let g := goal * sg
  let low := rmax g 0
  if low < x then
    let t := (x - low) / de
    if h ≤ t then (sg * (x * h - de * h * h / 2), sg * (x - de * h))
    else
      let d1 := (x * x - low * low) / (2 * de)
      let rest := h - t
      if g < 0 then
        let ta := -g / ac
        if rest ≤ ta then (sg * (d1 - ac * rest * rest / 2), -sg * ac * rest)
        else (sg * (d1 - g * g / (2 * ac) + g * (rest - ta)), sg * g)
      else (sg * (d1 + low * rest), sg * low)
  else
    let ta := (g - x) / ac
    if h ≤ ta then (sg * (x * h + ac * h * h / 2), sg * (x + ac * h))
    else (sg * ((g * g - x * x) / (2 * ac) + g * (h - ta)), sg * g)

/-! Settings. -/

/-- A speed register in counts/s. -/
def speedQ (w : Int) : Rat := (w : Rat) / 16
/-- A speed in counts/s in the speed format. -/
def toSpeed (v : Rat) : Int := satS 32 (roundRat (v * 16))
/-- A limit: 0 counts as 1 (R177). -/
def limit1 (w : Word) : Nat := max 1 w.toNat
/-- Length of a frame in seconds. -/
def frameSec (len : Nat) : Rat := (len : Rat) / 250000000
/-- Change of a position, in Q48.16, at a speed in the speed format over a number of ticks. -/
def posAdvance (v : Int) (ticks : Int) : Int := roundRat ((v * ticks * 4096 : Int) / (250000000 : Rat))

/-- The axis moves under its set-points: RUN or DEGRADED. -/
def AxState.runs (x : AxState) : Bool := x = .run || x = .degraded

/-! Commands (R176). -/

/-- Result of a command against the source and state in force, if it is refused. -/
def State.motFail (s : State) (a code : Nat) : Option Nat :=
  let m := s.mt a
  let src := motSource s.force a
  let run := (s.ax a).state.runs
  let bad := fun (ok : Bool) => if ok then none else some eState
  let den := if s.lv (pgMot a) MOT.GEAR_DEN = 0 then some eRange else none
  match code with
  | 1 | 2 => bad (src == 1 && run && !m.moving)
  | 3 => bad (src == 1 && run && (m.active == .idle || m.active == .jog))
  | 4 => bad ((src == 1 || src == 2) && run)
  | 5 => (bad (src == 2 && run && !m.engaged)).or den
  | 6 => (bad (src == 2 && run)).or den
  | 7 => bad (src == 2 && m.engaged)
  | 8 => bad (src == 2 && m.armed)
  | _ => some eRange

/-- CMD_RESULT of a motion axis. -/
def State.motResult (s : State) (a code res : Nat) : State := s.setLv (pgMot a) MOT.CMD_RESULT (nw (code % 256 * 256 + res))

/-- The rescue sequence holds the rescue axis: SEQ is STOPPING to LANDING (R217, R277). -/
def State.rescueBusy (s : State) : Bool := decide (s.rescue.sq ≠ .idle ∧ s.rescue.sq ≠ .done ∧ s.rescue.sq ≠ .aborted)

/-- Commands of both masters for axis a are refused: by the rescue sequence or the personality logic (R217, R277, R453). -/
def State.axLocked (s : State) (a : Nat) : Bool :=
  (rescueEn s.force && a == rescueAxis s.force && s.rescueBusy) || (a == 0 && s.power.persOn)

/-- A write to MOT.CMD by a master: pending until B_k + 32, or refused at once (R176). -/
def State.motCmd (s : State) (m : Master) (a code : Nat) : State :=
  let bad := if s.axLocked a then some eState else if (s.mt a).pending.isSome then some eBusy else s.motFail a code
  match bad with
  | some e => (s.refuseBy m e 0 (regAddr (pgMot a) MOT.CMD)).motResult a code e
  | none => s.onMt a fun x => { x with pending := some code }

/-- A motion command as the host writes it. -/
def State.hostMot (s : State) (a code : Nat) : State := if s.up then (s.touch .host).motCmd .host a code else s

/-- MOVE_ABS (Table 7-1). -/
def execMoveAbs (axis : AxisIx) (s : State) : Out := .next (s.hostMot axis.val 1)
/-- MOVE_REL (Table 7-1). -/
def execMoveRel (axis : AxisIx) (s : State) : Out := .next (s.hostMot axis.val 2)
/-- JOG (Table 7-1, R180). -/
def execJog (axis : AxisIx) (s : State) : Out := .next (s.hostMot axis.val 3)
/-- STOP (Table 7-1). -/
def execMotStop (axis : AxisIx) (s : State) : Out := .next (s.hostMot axis.val 4)
/-- GEAR_ENGAGE (Table 7-1, R192). -/
def execGearEngage (axis : AxisIx) (s : State) : Out := .next (s.hostMot axis.val 5)
/-- GEAR_ARM (Table 7-1, R192). -/
def execGearArm (axis : AxisIx) (s : State) : Out := .next (s.hostMot axis.val 6)
/-- GEAR_DISENGAGE (Table 7-1). -/
def execGearDisengage (axis : AxisIx) (s : State) : Out := .next (s.hostMot axis.val 7)
/-- SWITCH_CANCEL (Table 7-1). -/
def execSwitchCancel (axis : AxisIx) (s : State) : Out := .next (s.hostMot axis.val 8)

/-- A move is taken (R177, R178). -/
def State.startMove (s : State) (a : Nat) (target : Int) : State :=
  s.onMt a fun m =>
    { m with active := .move, moving := true, target := target, pr := (m.p0 : Rat) / 65536, vr := 0, a := 0, ending := false, limitRaised := false }

/-- Side of a switch position on which the master stands; a switch already behind it (R192, R188). -/
def switchBehind (dir : Nat) (m pos : Int) : Bool := (dir == 1 && decide (pos ≤ m)) || (dir == 2 && decide (m ≤ pos))

/-- GEAR_ARM is taken with the master value of this pass. -/
def State.armSwitch (s : State) (a : Nat) (m : Int) : State :=
  let p := pgMot a
  let pos := pair64 (s.lv p MOT.SWITCH_POS_LO) (s.lv p MOT.SWITCH_POS_HI)
  let w := s.lv p MOT.GEAR_CTRL
  let dir := fld w 1 0
  let behind := switchBehind dir m pos
  let s := s.onMt a fun x =>
    { x with
      armed := !behind || bt w 4, armPos := pos, armDir := dir, armNum := (s.lv p MOT.GEAR_NUM).toInt, armDen := (s.lv p MOT.GEAR_DEN).toNat
      armLate := behind && bt w 4 }
  if behind && !bt w 4 then s.event p 256 else s

/-- Value and speed of the master of a geared axis in this pass (R191, R193), with the interface's validity. -/
def State.gearMaster (s : State) (a : Nat) : Int × Int × Bool :=
  let w := motCfg s.force a
  let i := fld w 19 16
  let b0 := s.time.frameStart
  let b1 := b0 + s.time.curLen
  if fld w 13 12 = 1 then ((s.mt i).p, (s.mt i).v, true)
  else
    let x := s.fb i
    if x.valid then
      (if bt w 8 then x.sPos + posAdvance x.sSpeed ((b1 : Int) - x.sTick) else x.sPos, x.sSpeed, true)
    else
      let m := s.mt a
      let t : Nat := if bt w 8 then b1 else b0
      (m.gPos + posAdvance m.gSpeed ((t : Int) - m.gTick), m.gSpeed, false)

/-- Set-point of the gear formula for a master value (R191). -/
def gearSet (m : MotSt) (x : Int) : Int := m.s0 + roundRat (((x - m.m0) * m.num : Int) / (max 1 m.den : Nat))

/-- A switch applies: the reference pair and the ratio (R192). -/
def State.gearSwitch (s : State) (a : Nat) (mx : Int) : State :=
  (s.onMt a fun m =>
    { m with
      s0 := if m.engaged then gearSet m mx else m.p0, m0 := mx, num := m.armNum, den := m.armDen, engaged := true, armed := false, armLate := false
      active := .gear }).event (pgMot a) 128

/-- A command of this pass is taken (R176): tested again, its result written, its effect begun. -/
def State.takeMot (s : State) (a : Nat) (mx : Int) : State :=
  match (s.mt a).pending with
  | none => s
  | some code =>
    let s := s.onMt a fun m => { m with pending := none }
    match s.motFail a code with
    | some e => (s.refuse .host e 0 (regAddr (pgMot a) MOT.CMD)).motResult a code e
    | none =>
      let s := (s.motResult a code eNone).onMt a fun m => { m with atTarget := false }
      let p := pgMot a
      let tgt := pair64 (s.lv p MOT.TARGET_LO) (s.lv p MOT.TARGET_HI)
      match code with
      | 1 => s.startMove a tgt
      | 2 => s.startMove a ((s.mt a).p0 + tgt)
      | 3 => s.onMt a fun m =>
          { m with active := .jog, moving := true, pr := if m.active = .jog then m.pr else (m.p0 : Rat) / 65536
                   vr := if m.active = .jog then m.vr else 0, limitRaised := false }
      | 4 => s.onMt a fun m =>
          if m.active = .idle then m
          else
            { m with active := .stop, engaged := false, limitRaised := false
                     pr := if m.active = .gear then (m.p0 : Rat) / 65536 else m.pr, vr := if m.active = .gear then speedQ m.v0 else m.vr }
      | 5 => s.onMt a fun m =>
          { m with engaged := true, active := .gear, s0 := m.p0, m0 := mx, num := (s.lv p MOT.GEAR_NUM).toInt, den := (s.lv p MOT.GEAR_DEN).toNat }
      | 6 => s.armSwitch a mx
      | 7 => s.onMt a fun m => { m with engaged := false, active := .stop, pr := (m.p0 : Rat) / 65536, vr := speedQ m.v0 }
      | _ => s.onMt a fun m => { m with armed := false, armLate := false }

/-- One frame of a point-to-point move (R178, R179). -/
def State.moveStep (s : State) (a : Nat) (h : Rat) : State :=
  let m := s.mt a
  let r := fun o => s.lv (pgMot a) o
  let vmax : Rat := (fld (r MOT.V_MAX) 30 0 : Rat) / 16
  let jerk := (r MOT.JERK).toNat
  let t : Rat := (m.target : Rat) / 65536
  let sg : Rat := if t < m.pr then -1 else 1
  if jerk ≠ 0 then
    let j := Config.jerkStep true m.p0 m.v0 m.a m.target (fld (r MOT.V_MAX) 30 0) (limit1 (r MOT.ACC)) (limit1 (r MOT.DEC)) jerk s.time.curLen
    let p := if m.p0 ≤ m.target then clampI m.p0 m.target j.1 else clampI m.target m.p0 j.1
    let done := decide (p = m.target)
    s.onMt a fun m =>
      { m with p := p, v := if done then 0 else satS 32 j.2.1, a := if done then 0 else j.2.2, ending := done
               pr := (p : Rat) / 65536, vr := if done then 0 else speedQ j.2.1 }
  else
    let de : Rat := limit1 (r MOT.DEC)
    let (d, v, left, used) := trapStep (rabs (t - m.pr)) (rabs m.vr) vmax (limit1 (r MOT.ACC)) de 0 h
    let ended := left.isSome || decide (rabs (t - m.pr) - d ≤ tiny)
    let pr := if ended then t else q96 (m.pr + sg * d)
    let vr := if ended then 0 else q96 (sg * v)
    s.onMt a fun m =>
      { m with
        pr := pr, vr := vr, p := if ended then m.target else roundRat (pr * 65536), v := toSpeed vr, ending := ended
        limitRaised := decide (de + de / (2 ^ 40 : Nat) < used) }

/-- One frame of a speed followed to a goal: jog, stop, quick stop (R176, R180). -/
def State.trackAxis (s : State) (a : Nat) (goal : Int) (ac de jerk : Nat) (h : Rat) : State :=
  let m := s.mt a
  if jerk ≠ 0 then
    let j := Config.jerkStep false m.p0 m.v0 m.a goal (fld (s.lv (pgMot a) MOT.V_MAX) 30 0) ac de jerk s.time.curLen
    s.onMt a fun m => { m with p := j.1, v := satS 32 j.2.1, a := j.2.2, pr := (j.1 : Rat) / 65536, vr := speedQ j.2.1 }
  else
    let (d, v) := trackStep m.vr (speedQ goal) ac de h
    let pr := q96 (m.pr + d)
    s.onMt a fun m => { m with pr := pr, vr := q96 v, p := roundRat (pr * 65536), v := toSpeed v }

/-- One frame of a geared axis (R191 to R193). -/
def State.gearStep (s : State) (a : Nat) : State :=
  let (mx, mv, ok) := s.gearMaster a
  let m := s.mt a
  let s :=
    if ok ∧ m.masterBad then
      let ext := m.gPos + posAdvance m.gSpeed
        ((if bt (motCfg s.force a) 8 then s.time.frameStart + s.time.curLen else s.time.frameStart : Nat) - (m.gTick : Int))
      let s := (s.onMt a fun m => { m with m0 := m.m0 + (mx - ext) }).setLv (pgMot a) MOT.GEAR_PHASE_ERR
        (iw (roundRat (((mx - ext) * m.num : Int) / ((max 1 m.den : Nat) * 65536 : Rat))))
      if m.engaged then s.event (pgMot a) 512 else s
    else s
  let i := fld (motCfg s.force a) 19 16
  let s := s.onMt a fun m =>
    if fld (motCfg s.force a) 13 12 = 1 then { m with masterBad := false }
    else if ok then { m with masterBad := false, gPos := (s.fb i).sPos, gSpeed := (s.fb i).sSpeed, gTick := (s.fb i).sTick }
    else { m with masterBad := true }
  let m := s.mt a
  let crossed := m.armed && !m.armLate &&
    ((m.armDir != 2 && decide (m.mLast < m.armPos ∧ m.armPos ≤ mx)) || (m.armDir != 1 && decide (m.armPos < m.mLast ∧ mx ≤ m.armPos)))
  let late := m.armed && m.armLate
  let s := s.takeMot a mx
  let s := if (crossed || late) && (s.mt a).armed then s.gearSwitch a (if late then mx else m.armPos) else s
  let s := s.onMt a fun m => { m with mLast := mx }
  let m := s.mt a
  if m.engaged then
    s.onMt a fun m => { m with p := gearSet m mx, v := satS 32 (roundRat ((mv * m.num : Int) / (max 1 m.den : Nat))) }
  else s

/-- Deceleration of a quick stop: QSTOP_DEC, as it stood when an SS1 started (R281). -/
def State.quickDec (s : State) (a : Nat) : Nat :=
  match (s.ax a).ss1 with
  | some r => max 1 r.dec
  | none => limit1 (s.cf (pgMot a) MOT.QSTOP_DEC)

/-- What a profile or a disengaged gear does in one frame by its activity. -/
def State.profileStep (s : State) (a : Nat) (h : Rat) : State :=
  let r := fun o => s.lv (pgMot a) o
  let vmax := fld (r MOT.V_MAX) 30 0
  match (s.mt a).active with
  | .move => s.moveStep a h
  | .jog =>
    s.trackAxis a (clampI (-(vmax : Int)) vmax (r MOT.JOG_V).toInt) (limit1 (r MOT.ACC)) (limit1 (r MOT.DEC)) (r MOT.JERK).toNat h
  | .stop =>
    let s := s.trackAxis a 0 (limit1 (r MOT.ACC)) (limit1 (r MOT.DEC)) (r MOT.JERK).toNat h
    s.onMt a fun m => { m with ending := m.vr == 0 }
  | .quickStop =>
    let s := s.trackAxis a 0 1 (s.quickDec a) 0 h
    s.onMt a fun m => { m with ending := m.vr == 0 }
  | _ => s.onMt a fun m => { m with p := m.p0, v := 0 }

/-- The move, jog or gear is abandoned and the speed falls at QSTOP_DEC (R180, R193). -/
def State.quickStop (s : State) (a : Nat) : State :=
  s.onMt a fun m =>
    if m.active = .quickStop ∨ (m.active = .idle ∧ m.v0 = 0) then { m with engaged := false, armed := false }
    else
      { m with
        engaged := false, armed := false, armLate := false, limitRaised := false
        pr := if m.active = .move ∨ m.active = .jog ∨ m.active = .stop then m.pr else (m.p0 : Rat) / 65536
        vr := if m.active = .move ∨ m.active = .jog ∨ m.active = .stop then m.vr else speedQ m.v0, active := .quickStop }

/-- One frame of a motion axis that is no group member (R172 to R180). -/
def State.axisPass (s : State) (a : Nat) (h : Rat) : State :=
  let st := (s.ax a).state
  let src := motSource s.force a
  let s := s.onMt a fun m => { m with ending := false }
  if src = 3 then s.takeMot a 0
  else if st.runs ∧ src = 2 then
    let s := s.gearStep a
    if (s.mt a).engaged then s else s.profileStep a h
  else
    let s := s.takeMot a 0
    if st.runs then s.profileStep a h
    else if st = .stopping then (s.quickStop a).profileStep a h
    else s.onMt a fun m => { m with p := m.p0, v := 0 }

/-! Path groups (R183 to R186). -/

/-- Word i of a segment. -/
def Seg.w (x : Seg) (i : Nat) : Word := x.words.getD i 0
/-- TYPE: 1 LINE, 2 ARC_CW, 3 ARC_CCW. -/
def Seg.type (x : Seg) : Nat := fld (x.w 0) 31 28
/-- End delta of member i in counts. -/
def Seg.delta (x : Seg) (i : Nat) : Int := (x.w (2 + i)).toInt
/-- FEED in counts/s. -/
def Seg.feed (x : Seg) : Rat := speedQ (x.w 1).toInt
/-- Largest path speed at the end of the segment. -/
def Seg.junc (x : Seg) : Rat := x.feed * (fld (x.w 0) 15 0 : Nat) / 65536

/-- Square of a radius of an arc. -/
def sqLen (x y : Int) : Rat := ((x * x + y * y : Int) : Rat)
/-- Radius at the start. -/
def Seg.radius (x : Seg) : Rat := sqrtHi (sqLen (x.w 6).toInt (x.w 7).toInt)
/-- Radius at the end. -/
def Seg.radiusEnd (x : Seg) : Rat := sqrtHi (sqLen (x.delta 0 - (x.w 6).toInt) (x.delta 1 - (x.w 7).toInt))

/-- Angle swept by an arc, in units of 2^-32 turn, counter-clockwise positive. -/
def Seg.sweep (x : Seg) : Int :=
  let cx := (x.w 6).toInt
  let cy := (x.w 7).toInt
  let a0 := Config.atan2 (-cy) (-cx)
  let a1 := Config.atan2 (x.delta 1 - cy) (x.delta 0 - cx)
  let whole : Int := (2 ^ 32 : Nat)
  if x.delta 0 = 0 ∧ x.delta 1 = 0 then (if x.type = 3 then whole else -whole)
  else if x.type = 3 then ((a1 - a0).toNat : Int) else -((a0 - a1).toNat : Int)

/-- Length of a segment (R183): Euclidean over the members' count changes, along the circle in the arc plane. -/
def Seg.len (x : Seg) : Rat :=
  let rest := sqLen (x.delta 2) (x.delta 3)
  if x.type = 1 then sqrtHi (sqLen (x.delta 0) (x.delta 1) + rest)
  else
    let arc := x.radius * 2 * Config.pi * (x.sweep.natAbs : Nat) / (2 ^ 32 : Nat)
    sqrtHi (arc * arc + rest)

/-- PATH_ACC and PATH_QSTOP of a group. -/
def pathAcc (c : Cfg) (g : Nat) : Rat := (limit1 (c pgGroup (GROUP.PATH_ACC g)) : Nat)
/-- PATH_QSTOP. -/
def pathQstop (c : Cfg) (g : Nat) : Rat := (limit1 (c pgGroup (GROUP.PATH_QSTOP g)) : Nat)

/-- Square of the largest path speed in a segment under an override in per mille (R185). -/
def segLimitSq (c : Cfg) (g ovr : Nat) (x : Seg) : Rat :=
  let v := rmin (rmax 0 x.feed * (min ovr 2000 : Nat) / 1000) (speedQ (c pgGroup (GROUP.PATH_VMAX g)).toInt)
  if x.type = 1 then v * v else rmin (v * v) (pathAcc c g * x.radius)

/-- Square of the largest speed at the end of a segment, with the segments after it (R185): the junction, the next segment's
limit, and a stop at the end of the last. -/
def juncSq (c : Cfg) (g ovr : Nat) : Seg → List Seg → Rat
  | _, [] => 0
  | x, y :: rest =>
    rmin (x.junc * x.junc) (rmin (segLimitSq c g ovr y) (juncSq c g ovr y rest + 2 * pathAcc c g * y.len))

/-- One stretch of the path toward the end of a segment with r left, at deceleration ac that no end speed raises: distance, speed,
the time left over where the end is reached. -/
def pathStep (r u vm ac e h : Rat) : Rat × Rat × Option Rat :=
  if 2 * ac * r + tiny < u * u - e * e then
    let ue := sqrtHi (rmax 0 (u * u - 2 * ac * r))
    let t := (u - ue) / ac
    if h < t then (u * h - ac * h * h / 2, u - ac * h, none) else (r, ue, some (h - t))
  else let x := trapStep r u vm ac ac e h; (x.1, x.2.1, x.2.2.1)

/-- A group's path over the rest of a frame, following at most n segment ends: queue, segment starts, distance, speed, segments
ended, last tag. -/
def pathRun (c : Cfg) (g ovr : Nat) (stopAcc : Option Rat) : Nat → List Seg → List Int → Rat → Rat → Rat → Nat → Nat →
    List Seg × List Int × Rat × Rat × Nat × Nat
  | 0, q, st, d, u, _, k, tag => (q, st, d, u, k, tag)
  | n + 1, q, st, d, u, h, k, tag =>
    match q with
    | [] => ([], st, 0, 0, k, tag)
    | x :: rest =>
      let r := rmax 0 (x.len - d)
      let (dd, v, left) := match stopAcc with
        | none => pathStep r u (sqrtHi (segLimitSq c g ovr x)) (pathAcc c g) (sqrtHi (juncSq c g ovr x rest)) h
        | some ac =>
          let s0 := u * u / (2 * ac)
          if s0 ≤ r then
            let t := u / ac
            if h < t then (u * h - ac * h * h / 2, u - ac * h, none) else (s0, 0, none)
          else pathStep r u u ac (sqrtHi (rmax 0 (u * u - 2 * ac * r))) h
      let ended := left.isSome || (stopAcc.isNone && decide (r - dd ≤ tiny))
      if ended then
        pathRun c g ovr stopAcc n rest (st.mapIdx fun i p => p + x.delta i * 65536) 0 (if rest.isEmpty then 0 else q96 v) (left.getD 0)
          (k + 1) (fld (x.w 0) 23 16)
      else (q, st, q96 (d + dd), q96 v, k, tag)

/-- Set-point and speed of member i at a distance along a segment. -/
def segPoint (x : Seg) (start : Int) (d u : Rat) (i : Nat) : Int × Int :=
  let len := x.len
  let f := if len = 0 then 1 else d / len
  if x.type = 1 ∨ 2 ≤ i then
    let dx : Rat := (x.delta i : Rat)
    (start + roundRat (dx * f * 65536), toSpeed (if len = 0 then 0 else u * dx / len))
  else
    let sx : Rat := -((x.w 6).toInt : Rat)
    let sy : Rat := -((x.w 7).toInt : Rat)
    let th : BitVec 32 := BitVec.ofInt 32 (roundRat (x.sweep * f))
    let co : Rat := (Config.cosQ31 th : Rat) / (2 ^ 31 : Nat)
    let si : Rat := (Config.sinQ31 th : Rat) / (2 ^ 31 : Nat)
    let px := sx * co - sy * si
    let py := sx * si + sy * co
    let w : Rat := if len = 0 then 0 else 2 * Config.pi * x.sweep / (2 ^ 32 : Nat) * u / len
    if i = 0 then (start + roundRat ((px - sx) * 65536), toSpeed (-w * py)) else (start + roundRat ((py - sy) * 65536), toSpeed (w * px))

/-- The group's set-points in one frame (R185, R186). -/
def State.groupPass (s : State) (g : Nat) (h : Rat) : State :=
  let c := s.force
  let mem := grpMembers c g
  if mem.isEmpty then s
  else
    let x := s.gr g
    let fit := mem.all fun a => (s.ax a).state.runs
    let halt := !fit && (x.moving || !x.queue.isEmpty || !x.fresh.isEmpty)
    let x := if x.queue.isEmpty then { x with starts := mem.map fun a => (s.mt a).p0, dist := 0, speed := 0 } else x
    let x := { x with queue := x.queue ++ x.fresh, fresh := [], stopping := x.stopping || halt, flushing := x.flushing || x.flushReq, flushReq := false }
    let ovr := fld (s.lv pgGroup (GROUP.FEED_OVR g)) 11 0
    let stopAcc := if x.stopping then some (pathQstop c g) else if x.flushing then some (pathAcc c g) else none
    let busy := !x.queue.isEmpty
    let (q, st, d, u, k, tag) := pathRun c g ovr stopAcc 18 x.queue x.starts x.dist x.speed h 0 x.tag
    let rest := decide (u = 0)
    let drop := rest && (x.stopping || x.flushing)
    let put := fun (s : State) =>
      match q with
      | [] => forL (mem.zip st) (fun y s => s.onMt y.1 fun m => { m with p := y.2, v := 0, active := .group }) s
      | sg :: _ =>
        forL ((mem.zip st).zipIdx) (fun y s =>
          let (p, v) := segPoint sg y.1.2 d u y.2
          s.onMt y.1.1 fun m => { m with p := p, v := v, active := .group }) s
    let s := if busy then put s else forL mem (fun a s => s.onMt a fun m => { m with p := m.p0, v := 0 }) s
    s.onGr g fun _ =>
      { x with
        queue := if drop then [] else q, starts := st, dist := if drop then 0 else d, speed := u, moving := !rest || (busy && !q.isEmpty && !drop && ovr != 0)
        ended := x.ended + k, tag := tag, empty := x.empty || (busy && q.isEmpty && rest), stopped := x.stopped || (x.stopping && rest)
        stopping := x.stopping && !rest, flushing := x.flushing && !rest }

/-- QSTATUS of a group. -/
def State.qstatus (s : State) (g res : Nat) : State :=
  s.onLv pgGroup (GROUP.QSTATUS g) fun w => putFld w 31 24 res

/-- Why a push is refused (R184), if it is. -/
def State.pushFail (s : State) (g : Nat) : Option Nat :=
  let c := s.force
  let n := grpCount c g
  let x := s.gr g
  let sg : Seg := { words := (List.range 8).map fun i => s.lv pgGroup (GROUP.SEG_W g i) }
  let tol : Rat := (fld (c pgGroup (GROUP.MEMBERS g)) 31 24 : Nat)
  let arc := sg.type == 2 || sg.type == 3
  if n = 0 ∨ !((grpMembers c g).all fun a => (s.ax a).state.runs) then some eState
  else if 16 ≤ x.queue.length + x.fresh.length then some eBusy
  else if sg.type = 0 ∨ 3 < sg.type ∨ (sg.w 1).toInt ≤ 0 ∨ ((List.range 4).any fun i => decide (n ≤ i) && sg.delta i != 0) then some eRange
  else if arc && (sg.radius == 0 || decide (tol < rabs (sg.radius - sg.radiusEnd))
      || (sg.delta 0 == 0 && sg.delta 1 == 0 && !bt (sg.w 0) 27)) then some eRange
  else none

/-- A PUSH by a master (R184). -/
def State.pushBy (s : State) (m : Master) (g : Nat) : State :=
  match s.pushFail g with
  | some e => (((s.refuseBy m e 0 (regAddr pgGroup (GROUP.PUSH g))).event pgGroup (2 ^ (4 * g + 2))).qstatus g e)
  | none =>
    let sg : Seg := { words := (List.range 8).map fun i => s.lv pgGroup (GROUP.SEG_W g i) }
    (s.onGr g fun x => { x with fresh := x.fresh ++ [sg] }).qstatus g eNone

/-- A FLUSH by a master (R186). -/
def State.flushBy (s : State) (g : Nat) : State := s.onGr g fun x => { x with flushReq := true }

/-- PUSH (R184), as the host writes it. -/
def execPush (g : Fin 4) (s : State) : Out := if s.up then .next ((s.touch .host).pushBy .host g.val) else .next s
/-- FLUSH (R186), as the host writes it. -/
def execFlush (g : Fin 4) (s : State) : Out := if s.up then .next ((s.touch .host).flushBy g.val) else .next s

/-! The pass. -/

/-- Number of masters above an axis in its gear chain, followed for at most n. -/
def gearDepth (c : Cfg) : Nat → Nat → Nat
  | 0, _ => 0
  | n + 1, a =>
    if motSource c a == 2 && fld (motCfg c a) 13 12 == 1 then gearDepth c n (fld (motCfg c a) 19 16) + 1 else 0

/-- PROFILE_PASS (R172, R173): groups and gear masters before the axes that follow them; set-points for B_{k+1}; the compare units of
the set-points (R187). -/
def execProfilePass (s : State) : Out :=
  if !s.up || !s.time.grid || s.time.passed then .next s
  else
    let c := s.force
    let s := (s.reach (s.time.frameStart + 32)).onTime fun t => { t with passed := true }
    let h := frameSec s.time.curLen
    let s := forN 4 (fun g s => s.groupPass g h) s
    let s := forN 17 (fun d s => forN 16 (fun a s => if gearDepth c 16 a = d then s.axisPass a h else s) s) s
    let b1 := s.time.frameStart + s.time.curLen
    .next (forN 16 (fun a s =>
      let m := s.mt a
      if m.p0 = m.p then s else s.cmpSetPoint a b1 s.time.nextLen m.p0 m.p) s)

/-! The boundary. -/

/-- Pulses of frame k+1 that move STEP_POS between two whole counts (R181). -/
def stepPlan (hi setup minp bk len : Nat) (last : Nat × Bool) (n : Int) : List (Nat × Bool) :=
  let up := decide (0 < n)
  let k := n.natAbs
  ((List.range k).foldl (fun (acc : List (Nat × Bool) × (Nat × Bool)) i =>
    let t := bk + (roundDiv ((2 * i + 1) * len : Nat) (2 * k)).toNat
    let first := acc.2.1 + (if acc.2.2 = up then minp else 2 * hi + setup)
    let e := (max t first, up)
    (e :: acc.1, e)) ([], last)).1.reverse

/-- Step outputs of axis a at a boundary, for a set-point that moved from p to q (R181). -/
def State.stepBoundary (s : State) (a : Nat) (p q : Int) : State :=
  if !motStepEn s.force a then s
  else
    let tim := s.cf (pgMot a) MOT.STEP_TIMING
    s.onMt a fun m =>
      let last := m.pulses.getLast?.getD (m.lastPulse, m.stepDirUp)
      let new := stepPlan (fld tim 31 16) (fld tim 15 0) (fld (s.cf (pgMot a) MOT.STEP_MIN_PERIOD) 15 0) s.time.frameStart s.time.curLen last
        (wholeCounts q - wholeCounts p)
      { m with carried := m.pulses.length, pulses := m.pulses ++ new }

/-- STEP_PULSE (R181): the next scheduled direction change, or the next pulse. -/
def execStepPulse (axis : AxisIx) (s : State) : Out :=
  let a := axis.val
  let m := s.mt a
  match m.pulses with
  | [] => .next s
  | (t, up) :: rest =>
    if !s.up then .next s
    else if up ≠ m.stepDirUp then
      .next ((s.reach (t - fld (s.cf (pgMot a) MOT.STEP_TIMING) 15 0)).onMt a fun m => { m with stepDirUp := up })
    else
      let before := s.actNow a
      let s := (s.reach t).onMt a fun m =>
        { m with pulses := rest, carried := m.carried - 1, lastPulse := t, stepPos := if up then m.stepPos + 1 else m.stepPos - 1 }
      .next (if (axFb s.force a).isNone then s.cmpActual a t before (s.actNow a) else s)

/-- The level of the DIR output of axis a: high for counting up, low when CFG.DIR_INV = 1 (R181). -/
def State.dirLevel (s : State) (a : Nat) : Bool := (s.mt a).stepDirUp != bt (s.cf (pgMot a) MOT.CFG) 5

/-- DEVIATION and the deviation window at a boundary (R182). -/
def State.devBoundary (s : State) (a : Nat) : State :=
  let c := s.force
  let win := (c (pgMot a) MOT.DEV_WIN).toNat
  let act := wholeCounts (s.axPos a)
  let dev : Int :=
    if a < 8 then wholeCounts (s.mt a).p0 - act
    else if motStepEn c a && (axFb c a).isSome then (s.mt a).stepPos - act else 0
  let s := s.setLv (pgMot a) MOT.DEVIATION (iw (satS 32 dev))
  if win = 0 ∨ !(s.ax a).state.moving then (s.onAx a fun x => { x with devRun := 0 }).clearSrc srcLostStep a
  else if !s.axFbValid a then s
  else if win < dev.natAbs then
    let s := s.onAx a fun x => { x with devRun := min (x.devRun + 1) 256 }
    if fld (c (pgMot a) MOT.DEV_FRAMES) 7 0 < (s.ax a).devRun then (s.pfault (pgMot a) 1).raiseNow srcLostStep a else s
  else (s.onAx a fun x => { x with devRun := 0 }).clearSrc srcLostStep a

/-- Motion axis a at boundary B_{k+1}: the set-point of the pass becomes POS_SP, or POS_SP takes POS_ACT (R172, R174, R178). `was`: the
axis was in RUN, DEGRADED or STOPPING in the frame that ended. -/
def State.motBoundary (s : State) (a : Nat) (was : Bool) : State :=
  let m := s.mt a
  let bk := s.time.frameStart
  let tick := match axFb s.force a with
    | some n => if a < 8 ∧ (s.ax a).sub then bk else (s.fb n).sTick
    | none => bk
  let s := if was ∧ (s.ax a).state.moving then
      let s := s.onMt a fun x =>
        { x with
          p0 := x.p, v0 := x.v
          moving := x.moving && !x.ending, active := if x.ending then .idle else x.active
          atTarget := x.atTarget || (x.ending && x.active == .move), limitRaised := x.limitRaised && !x.ending, ending := false }
      let s := if m.ending ∧ m.active = .move then s.event (pgMot a) 1 else s
      s.stepBoundary a m.p0 m.p
    else
      let p := s.axPos a
      s.onMt a fun x =>
        { x with
          p0 := p, p := p, v0 := 0, v := 0, a := 0, pr := (p : Rat) / 65536, vr := 0, active := .idle, moving := false, ending := false
          limitRaised := false, engaged := false, armed := false, armLate := false, pulses := [], carried := 0
          stepPos := if (axFb s.force a).isSome ∧ (s.ax a).state.moving then wholeCounts p else x.stepPos }
  let act := s.axPos a
  let s := if ((axFb s.force a).isNone && !motStepEn s.force a || (decide (a < 8) && (s.ax a).sub)) && m.act != act then
      s.cmpActual a bk m.act act
    else s
  let s := s.onMt a fun x => { x with actOld := x.act, actOldTick := x.actTick, act := act, actTick := tick }
  ((s.cmpValidAgain a).latchBoundary a).devBoundary a

/-- A path group at a boundary: the events of the frame (R185, R186). -/
def State.groupBoundary (s : State) (g : Nat) : State :=
  let x := s.gr g
  let s := s.event pgGroup (bitAt (4 * g) (x.ended != 0) + bitAt (4 * g + 1) x.empty + bitAt (4 * g + 3) x.stopped)
  let s := if x.ended = 0 then s else s.onLv pgGroup (GROUP.QSTATUS g) fun w => putFld w 7 0 x.tag
  s.onGr g fun y => { y with ended := 0, empty := false, stopped := false }

/-- FB_LOST on a master interface (R193): the slave disengages and decelerates at QSTOP_DEC. -/
def State.masterLost (s : State) (n : Nat) : State :=
  forN 16 (fun a s =>
    let w := motCfg s.force a
    if motSource s.force a = 2 ∧ fld w 13 12 = 0 ∧ fld w 19 16 = n ∧ (s.mt a).engaged then
      ((s.quickStop a).event (pgMot a) 1024).pfault (pgMot a) 2
    else s) s

/-! Views. -/

/-- Code of STATUS.ACTIVE (Table 7-5). -/
def MotActive.code (x : MotActive) : Nat :=
  match x with
  | .idle => 0
  | .move => 1
  | .jog => 2
  | .stop => 3
  | .quickStop => 4
  | .gear => 5
  | .group => 6

/-- STATUS (Table 7-5). -/
def State.motStatus (s : State) (a : Nat) : Word :=
  let m := s.mt a
  nw ((s.ax a).state.code * 2 ^ 16 + bitAt 11 m.pending.isSome + bitAt 10 (decide (0 < m.carried)) + bitAt 9 m.limitRaised + bitAt 8 m.engaged
    + bitAt 7 m.armed + bitAt 6 m.atTarget + bitAt 5 m.moving + m.active.code)

/-- Read-only registers and ARM bits of page MOT a that the axis's state shows. -/
def State.viewMot (s : State) (a o : Nat) : Option Word :=
  let m := s.mt a
  if o = MOT.POS_SP_LO then some (loW m.p0)
  else if o = MOT.POS_SP_HI then some (hiW m.p0)
  else if o = MOT.SPEED_SP then some (iw m.v0)
  else if o = MOT.POS_ACT_LO then some (loW (s.axPos a))
  else if o = MOT.POS_ACT_HI then some (hiW (s.axPos a))
  else if o = MOT.STATUS ∨ o = pageStatus then some (s.motStatus a)
  else if o = MOT.STEP_POS_LO then some (loW m.stepPos)
  else if o = MOT.STEP_POS_HI then some (hiW m.stepPos)
  else if o = MOT.CMP_CTRL 0 ∨ o = MOT.CMP_CTRL 1 then
    let u := (o - MOT.CMP_CTRL 0) / 0x20
    some (putBt (s.lv (pgMot a) o) 0 (s.cm (2 * a + u)).armed)
  else if o = MOT.CMP_STATUS 0 ∨ o = MOT.CMP_STATUS 1 then
    let u := (o - MOT.CMP_STATUS 0) / 0x20
    some (putBt (s.lv (pgMot a) o) 0 (s.cm (2 * a + u)).armed)
  else if o = MOT.LATCH_CTRL 0 ∨ o = MOT.LATCH_CTRL 1 then
    let u := (o - MOT.LATCH_CTRL 0) / 0x20
    some (putBt (s.lv (pgMot a) o) 0 (s.la (2 * a + u)).armed)
  else if o = MOT.LATCH_STATUS 0 ∨ o = MOT.LATCH_STATUS 1 then
    let u := (o - MOT.LATCH_STATUS 0) / 0x20
    some (putBt (s.lv (pgMot a) o) 0 (s.la (2 * a + u)).armed)
  else none

/-- Read-only registers of page GROUP that the groups' state shows. -/
def State.viewGroup (s : State) (o : Nat) : Option Word :=
  if o = pageStatus then some (nw (((List.range 4).map fun g => bitAt g (s.gr g).moving).sum))
  else match (List.range 4).find? fun g => o == GROUP.QSTATUS g || o == GROUP.PATH_SPEED g with
    | some g =>
      if o = GROUP.PATH_SPEED g then some (iw (toSpeed (s.gr g).speed))
      else some (putFld (s.lv pgGroup o) 20 16 ((s.gr g).queue.length + (s.gr g).fresh.length))
    | none => none

end Sys2Proof.Machine
end

