-- ==== Sys2Proof/Machine/Pwm.lean ====
section
/-!
DEFINITION. The PWM generator (chapter 9): removal of gate drive, shadow, snapshot and reload, placement of edges, dead time,
refresh, overrides, and the commit of the internal legs' edges.
-/
namespace Sys2Proof.Machine

/-- The settings that leg l works with: those of before the strike until its first reload after it (R245). -/
def State.legUse (s : State) (l : Nat) : Cfg :=
  match (s.lg l).old with
  | none => s.force
  | some ws => fun p o =>
    let b := PWM.LEG_CTRL (l % 8)
    if p = pgPwm (l / 8) ∧ b ≤ o ∧ o < b + 24 then ws.getD ((o - b) / 4) 0 else s.force p o

/-- The six staged registers of leg l in force. -/
def State.legWords (s : State) (l : Nat) : List Word :=
  (List.range 6).map fun i => s.cf (pgPwm (l / 8)) (PWM.LEG_CTRL (l % 8) + 4 * i)

/-! Sources and removal. -/

/-- A comparator with ACT = 1 is set (R265, R267). -/
def State.dclForcing (s : State) : Bool :=
  (List.range 4).any fun n => s.pdie.dcl.toNat.testBit n && bt (s.cf pgPlink (PLINK.DCL_CFG n)) 31 && bt (s.cf pgPlink (PLINK.DCL_CFG n)) 24

/-- Fraction-mode duty of a Q1.31 output (Table 4-3, kind LEG). -/
def legFractionOf (y : Int) : Nat := (clampI 0 0xFFFFFFFF y).toNat / 2 ^ 15

/-- The duty that source 1, 2 or 3 of R228 delivers to leg l. -/
def State.legSource (s : State) (l : Nat) : Option Nat :=
  match s.delivering (0x7000 + l) with
  | some y => some (legFractionOf y)
  | none =>
    if (convLegs s.force).contains l && s.rescue.convOn then some s.rescue.convDuty
    else if legFunc s.force l = 2 then some s.chop.duty else none

/-- The settings choose a source for leg l: it is no leg for CTRL overrides (R243). -/
def State.legClaimed (s : State) (l : Nat) : Bool := (s.lg l).delivered.isSome || (s.legSource l).isSome

/-- A removal of all gates acts on leg l (R15, R253, R256, R264, R276, R480). -/
def State.legsDown (s : State) (l : Nat) : Bool :=
  !s.up || s.power.removal || s.time.holdover || (decide (l < 12) && (!s.time.plinkLock || s.pdie.vgdUv || s.pdie.vinOv))

/-- The leg is to drive its switches: its mode and whoever it serves (R226 to R228, R480, Table 11-2). -/
def State.legWanted (s : State) (l : Nat) : Bool :=
  let c := s.legUse l
  let x := s.lg l
  legMode c l != 0 && !x.retired && !s.legsDown l && !(x.retry && (x.vdsHoldH || x.vdsHoldL) && legFunc c l == 2)
    && (match legAxis c l with
      | some a => (s.axSwitching a || (s.ax a).asc) && !(s.ax a).sto
      | none => legMode c l != 4)
    && (legFunc c l != 3 || (match legBrakeAxis s.force l with
      | some a => !(s.ax a).sbc
      | none => true))
    && (legFunc c l != 1 || !(convLegs s.force).contains l || s.rescue.convOn)

/-- Carrier periods per frame of leg l, halved while THROTTLE divides it (R229, R430): for the coming frame on an internal leg. -/
def State.legPeriods (s : State) (c : Cfg) (l : Nat) : Nat :=
  if legMode c l = 2 ∨ legMode c l = 3 then 1
  else
    let d := legDiv c l
    if (if l < 12 then s.hk.inForce = .throttle else s.hk.divided) && bt (s.cf pgHk HK.THR_LEGS) l && decide (1 < d) then d / 2 else d

/-- The leg's periods are tied to the frame. -/
def legLocked (c : Cfg) (l : Nat) : Bool := legMode c l == 2 || legMode c l == 3 || (legFdiv c l != 0 && legCarrier c l == 0)

/-! Duty and edges. -/

/-- rev(h) of R236. -/
def rev4 (h : Nat) : Nat := (h % 2) * 8 + (h / 2 % 2) * 4 + (h / 4 % 2) * 2 + h / 8 % 2

/-- Whole tick of an edge at e sixteenths, hatched or at its floor (R236). -/
def hatchTick (on : Bool) (h e : Nat) : Nat := e / 16 + (if on && decide (rev4 h < e % 16) then 1 else 0)

/-- High-side time in 1/16 tick that a DUTY value asks for in a period of p ticks (R232). -/
def dutyTime (fraction hatch : Bool) (p : Nat) (duty : Word) : Nat :=
  if fraction then (roundDiv (min (fld duty 16 0) 65536 * 16 * p : Nat) 65536).toNat
  else
    let d := fld duty 20 0
    min (if hatch then d else (d + 8) / 16 * 16) (16 * p)

/-- Period of a COT or COFF carrier and whether it was clamped (R231). -/
def varPeriod (cot : Bool) (ton d : Nat) : Nat × Bool :=
  if d = 0 then (125000, false)
  else if 65536 ≤ d then (max 1250 ton, false)
  else
    let p := (roundDiv (ton * 65536 : Nat) (if cot then d else 65536 - d)).toNat
    (min 125000 (max 1250 p), decide (p < 1250 ∨ 125000 < p))

/-- What a leg does in one carrier period: the level at its start and the edges in 1/16 tick from there. -/
structure Pattern where
  start : Bool
  edges : List (Nat × Bool)
  deriving DecidableEq, Repr

/-- Placement of a high time of d sixteenths in a period of p ticks (R230): CENTRE, EDGE_LEAD, EDGE_TRAIL. -/
def placePulse (align p d : Nat) : Pattern :=
  if d = 0 then { start := false, edges := [] }
  else if 16 * p ≤ d then { start := true, edges := [] }
  else match align with
    | 1 => { start := true, edges := [(d, false)] }
    | 2 => { start := false, edges := [(16 * p - d, true)] }
    | _ => let r := (16 * p - d) / 2; { start := false, edges := [(r, true), (r + d, false)] }

/-- A refresh interval of t ticks at the period start (R240): the high interval ends where it did, or at the period end. -/
def refreshPulse (p t d : Nat) (x : Pattern) : Pattern :=
  let hi := min d (16 * (p - t))
  let stop := match x.edges.find? fun e => !e.2 with
    | some e => e.1
    | none => 16 * p
  let go := max (16 * t) (stop - hi)
  { start := false, edges := [(go, true)] ++ (if stop = 16 * p then [] else [(stop, false)]) }

/-- Phase 0, 1, 2 of leg l on its axis. -/
def legPhaseIx (c : Cfg) (a l : Nat) : Nat := (axLegs c a).findIdx fun x => x == l

/-- Pattern of an AXIS leg in carrier period i of n (R125, R127, R128): none while both switches are off. -/
def State.axisPattern (s : State) (a l i n p : Nat) : Option (Pattern × Nat × Bool) :=
  let c := s.legUse l
  let d := s.dr a
  let ph := legPhaseIx c a l
  let one : Nat := 2 ^ 31
  if axComm c a = 2 then
    match (d.six.drop i).head?.or d.six.getLast? with
    | none => none
    | some (h, lo, duty) =>
      if ph = h then
        let t := (roundDiv (duty * (16 * p : Nat)) one).toNat
        some (placePulse 0 p t, t, false)
      else if ph = lo then some ({ start := false, edges := [] }, 0, false) else none
  else
    let t3 := ((d.duties.drop i).head?.or d.duties.getLast?).getD (2 ^ 30, 2 ^ 30, 2 ^ 30)
    let v := if ph = 0 then t3.1 else if ph = 1 then t3.2.1 else t3.2.2
    let t := (roundDiv (v * (16 * p : Nat)) one).toNat
    if i + 1 = n && !axSd c a then
      let t := (t + 8) / 16 * 16
      let r : Int := ((16 * p - t) / 2 / 16 * 16 : Nat)
      let sh : Int := if ph = d.phMax then -(d.shiftA * 16 : Nat) else if ph = d.phMin then (d.shiftB * 16 : Nat) else 0
      let r := (r + sh).toNat
      if t = 0 ∨ 16 * p ≤ t then some (placePulse 0 p t, t, true)
      else some ({ start := false, edges := [(r, true), (r + t, false)] }, t, true)
    else some (placePulse 0 p t, t, false)

/-- Ticks of a pattern, with the edge at the start that a change of level there needs; the level it leaves. -/
def patternEdges (hatch : Bool) (h start : Nat) (level : Option Bool) (x : Pattern) : List (Nat × Bool) × Bool :=
  let first := if level = some x.start then [] else [(start, x.start)]
  let es := x.edges.map fun e => (start + hatchTick hatch h e.1, e.2)
  (first ++ es, (es.getLast?.map (·.2)).getD x.start)

/-- One carrier period of leg l from a tick on: duty, class rules, edges (R230 to R232, R236, R240). -/
def State.legPeriod (s : State) (l start i n p : Nat) : State :=
  let c := s.legUse l
  let x := s.lg l
  let w := legCtrl c l
  let mode := legMode c l
  let car := legCarrier c l
  let frac := legFraction c l || x.fromSource
  let hatchOn := legHatch c l && car == 0
  let axis := if mode = 4 then legAxis c l else none
  let cotD := min (fld x.duty 16 0) 65536
  let (p, clamped) := if car = 0 ∨ mode ≠ 1 then (p, false) else varPeriod (car == 1) (legTon c l) cotD
  let whole := (if mode = 3 then 16 * p else 0 : Nat)
  let cot : Pattern × Nat :=
    if cotD = 0 then ({ start := false, edges := [] }, 0)
    else if 65536 ≤ cotD then ({ start := true, edges := [] }, 16 * p)
    else
      let t := 16 * legTon c l
      if car = 1 then ({ start := true, edges := if t < 16 * p then [(t, false)] else [] }, min t (16 * p))
      else ({ start := false, edges := if t < 16 * p then [(t, true)] else [] }, 16 * p - t)
  let pat : Option (Pattern × Nat × Bool) :=
    match axis with
    | some a => if (s.ax a).asc then some ({ start := false, edges := [] }, 0, false) else s.axisPattern a l i n p
    | none =>
      if mode = 2 ∨ mode = 3 then some (placePulse 0 p whole, whole, false)
      else if car ≠ 0 then some (cot.1, cot.2, false)
      else
        let d := dutyTime frac (legHatch c l) p x.duty
        some (placePulse (fld w 5 4) p d, d, false)
  match pat with
  | none => s.onLg l fun x =>
    { x with
      offAt := x.offAt ++ [start], level := none, period := p, hatch := (x.hatch + 1) % 16
      periods := { start := start, hatch := x.hatch, refCnt := x.refCnt } :: x.periods.take 8 }
  | some (pt, d, keep) =>
    let t := legRefT c l
    let boot := !legPump c l
    let short := decide (16 * p - d < 16 * t)
    let cap := boot && legRefN c l == 0 && mode != 2 && decide (16 * (p - t) < d)
    let d' := if cap then 16 * (p - t) else d
    let pt := if !cap then pt
      else if car = 2 then { start := false, edges := [(16 * p - d', true)] }
      else if car = 1 then { start := true, edges := [(d', false)] }
      else placePulse (fld w 5 4) p d'
    let cnt := if boot && legRefN c l != 0 && mode != 2 && short then x.refCnt + 1 else 0
    let fresh := boot && legRefN c l != 0 && decide (legRefN c l ≤ cnt)
    let pt := if fresh then refreshPulse p t d' pt else pt
    let (es, lev) := patternEdges (hatchOn && !keep) x.hatch start x.level pt
    let s := s.onLg l fun x =>
      { x with
        period := p, plan := x.plan ++ es, level := some lev, refCnt := if fresh then 0 else cnt
        hatch := if keep then x.hatch else (x.hatch + 1) % 16
        periods := { start := start, hatch := x.hatch, refCnt := if fresh then 0 else cnt, refreshed := fresh, capped := cap
                     clamped := clamped } :: x.periods.take 8 }
    if cap then s.event (pgPwm (l / 8)) (2 ^ (8 + l % 8)) else s

/-! Shadow, snapshot, reload (R233 to R235, R247). -/

/-- Reload instant of leg l: the next period start, or the commit cut-off of an internal leg. -/
def State.reloadAt (s : State) (l : Nat) : Nat :=
  if l < 12 then s.time.frameStart + s.time.curLen - s.time.lead else (s.lg l).nextReload

/-- The shadow of leg l as it stands. -/
def State.legShadow (s : State) (l : Nat) : Word × Word × Word :=
  let p := pgPwm (l / 8)
  (s.lv p (PWM.DUTY (l % 8)), s.lv p (PWM.PERIOD (l % 8)), s.lv p (PWM.CTRL (l % 8)))

/-- PWM_SNAPSHOT (R233): 64 ticks before the reload the shadow is frozen. -/
def execPwmSnapshot (leg : LegIx) (s : State) : Out :=
  let l := leg.val
  if !s.up || !s.time.grid || legMode (if l < 12 then s.force else s.legUse l) l == 0 || (s.lg l).snapshot.isSome then .next s
  else
    let s := s.reach (s.reloadAt l - 64)
    .next (s.onLg l fun x => { x with snapshot := some (s.legShadow l), perSnap := x.perNew.or x.perSnap, perNew := none })

/-- The reload takes the snapshot (R228, R233, R247): a delivered duty always; DUTY and PERIOD together where armed. -/
def State.takeShadow (s : State) (l : Nat) : State :=
  let c := s.legUse l
  let pg := pgPwm (l / 8)
  let (duty, per, ctrl) := (s.lg l).snapshot.getD (s.legShadow l)
  let arm := bt ctrl 0 || bt ctrl 1
  let free := legFdiv c l == 0 && legCarrier c l == 0
  let badP := decide (fld per 16 0 < 1250 ∨ 125000 < fld per 16 0)
  let s := match (s.lg l).delivered with
    | some d => s.onLg l fun x => { x with duty := nw d, fromSource := true }
    | none => if arm then s.onLg l fun x => { x with duty := duty, fromSource := false } else s.onLg l fun x => { x with fromSource := false }
  let s := if (s.lg l).snapshot.isSome then s else s.onLg l fun x => { x with perSnap := x.perNew.or x.perSnap, perNew := none }
  let s := if arm && free then
      if badP then
        match (s.lg l).perSnap with
        | some m => (s.refuseBy m eRange 0 (regAddr pg (PWM.PERIOD (l % 8)))).onLg l fun x => { x with perSnap := none }
        | none => s
      else s.onLg l fun x => { x with period := fld per 16 0, perSnap := none }
    else s
  let s := if bt ctrl 1 then s.onLv pg (PWM.CTRL (l % 8)) fun w => putBt w 1 (s.lg l).lateOnce else s
  s.onLg l fun x => { x with snapshot := none, lateOnce := false }

/-- What is done for the coming frame on leg l is done under the configuration in force (R22, R245). -/
def State.withNew (s : State) (l : Nat) (f : State → State) : State :=
  let old := (s.lg l).old
  (f (s.onLg l fun x => { x with old := none })).onLg l fun x => { x with old := old }

/-- PWM_RELOAD (R233): of an external leg at its period start, with the new settings of a strike before it (R245) and the edges of the
period; of an internal leg at the commit cut-off, for every period of frame k+1. -/
def execPwmReload (leg : LegIx) (s : State) : Out :=
  let l := leg.val
  if !s.up || !s.time.grid || legMode (if l < 12 then s.force else s.legUse l) l == 0 then .next s
  else if l < 12 then .next ((s.reach (s.reloadAt l)).withNew l fun s => s.takeShadow l)
  else if (s.lg l).gateOff then .next s
  else
    let t := (s.lg l).nextReload
    let s := (s.reach t).onLg l fun x => { x with old := none, chopForced := x.chopForced && s.dclForcing }
    let s := s.takeShadow l
    let c := s.legUse l
    if legMode c l = 0 then .next ((s.legOff l).onLg l fun x => { x with plan := [], level := none })
    else
      let n := s.legPeriods c l
      let locked := legLocked c l
      let ph := if legMode c l = 1 ∨ legMode c l = 4 then legPhase c l else 0
      let p := if legMode c l = 2 ∨ legMode c l = 3 then frameLen c else if locked then frameLen c / n else (s.lg l).period
      let i := if locked ∧ p ≠ 0 then (t - s.time.frameStart - ph) / p else 0
      let s := s.legPeriod l t i n p
      let next := if !locked then t + (s.lg l).period
        else if i + 1 < n then t + p else s.time.frameStart + s.time.curLen + ph
      let s := s.onLg l fun x => { x with nextReload := next }
      .next (if (s.lg l).offAt.isEmpty then s
        else s.onLg l fun x => { x with offAt := [], hsOn := false, lsOn := false, incoming := none, plan := [] })

/-- Edges of frame k+1 of an internal leg, from the values taken at the cut-off (R20, R229, R233). -/
def State.legCommit (s : State) (l : Nat) : State :=
  let c := s.force
  if legMode c l = 0 then s
  else s.withNew l fun s =>
    let n := s.legPeriods c l
    let p := if legMode c l = 2 ∨ legMode c l = 3 then frameLen c else frameLen c / n
    let b1 := s.time.frameStart + s.time.curLen + (if legMode c l = 1 then legPhase c l else 0)
    forN n (fun i s => s.legPeriod l (b1 + i * p) i n p) s

/-- A leg at a boundary (R226, R228, R480): the delivered duty, gate drive that begins or ends. -/
def State.legBoundary (s : State) (l : Nat) : State :=
  let b := s.time.frameStart
  let s := s.onLg l fun x => { x with delivered := if legMode s.force l = 1 then s.legSource l else none }
  let s := if l < 12 then s.onLg l fun x => { x with plan := x.plan.filter fun e => decide (b ≤ e.1) } else s
  let s := if s.legWanted l then
      if (s.lg l).gateOff then
        let c := s.legUse l
        let ph := if legMode c l = 1 ∧ 12 ≤ l then legPhase c l else 0
        s.onLg l fun x => { x with gateOff := false, nextReload := b + ph, level := if l < 12 then x.level else none, cross := false }
      else s
    else if (s.lg l).gateOff ∨ bt (s.lv (pgPwm (l / 8)) (PWM.CTRL (l % 8))) 8 then s
    else (s.legOff l).onLg l fun x => { x with plan := [], level := none, offAt := [], snapshot := none }
  let x := s.lg l
  let s := if x.retry && !x.vdsHoldH && !x.vdsHoldL then
      ((s.onLg l fun x => { x with retry := false }).backInService 3 l).backInService 4 l
    else s
  if x.offAt.any fun t => decide (t ≤ b) then
    s.onLg l fun x => { x with hsOn := false, lsOn := false, incoming := none, offAt := x.offAt.filter fun t => decide (b < t) }
  else s

/-- The mode of a leg has just become other than OFF: its hatch index starts at 0 (R236). -/
def State.legEnter (s : State) (l : Nat) : State := s.onLg l fun x => { x with hatch := 0, refCnt := 0, periods := [] }

/-! Switches and dead time (R237 to R239). -/

/-- A switch may be turned on: gate drive, trips, supplies of the high side (R254, R259, R260). -/
def State.mayTurnOn (s : State) (l : Nat) (high : Bool) : Bool :=
  let x := s.lg l
  !x.waitEdge && !x.cross && !x.retired
    && (if high then !x.vdsHoldH && !x.bsuv && !(s.pdie.cpuv && decide (l < 12) && legPump s.force l) else !x.vdsHoldL)

/-- A switch turns on. A switch that CYCLE holds off is free at its commanded turn-on, which puts the leg
back into service (R262, R284). -/
def State.turnOn (s : State) (l : Nat) (high : Bool) : State :=
  let cycle := decide (l < 12) && !bt (s.cf (pgGd (l / 6)) (GD.GD_CFG (l % 6))) 4
  let s := if cycle then
      let s := s.onLg l fun x => if high then { x with vdsHoldH := false } else { x with vdsHoldL := false }
      let x := s.lg l
      if x.retry && !x.vdsHoldH && !x.vdsHoldL then (s.onLg l fun x => { x with retry := false }).backInService 3 l else s
    else s
  let s := s.onLg l fun x => { x with incoming := none, crossed := none }
  if s.mayTurnOn l high && (!(s.lg l).gateOff || bt (s.lv (pgPwm (l / 8)) (PWM.CTRL (l % 8))) 8) then
    s.onLg l fun x => if high then { x with hsOn := true, hsTick := s.now } else { x with lsOn := true, lsTick := s.now }
  else s

/-- A commanded edge at a tick: the conducting switch goes off at once, the other waits for its dead time; the chopper has no low side
and no dead time (R237, R266). -/
def State.legEdge (s : State) (l : Nat) (rise : Bool) (t : Nat) : State :=
  if (s.lg l).gateOff ∨ (s.lg l).waitEdge then s
  else if 12 ≤ l ∧ legFunc (s.legUse l) l = 2 then
    if rise then s.turnOn l true
    else if (s.lg l).chopForced then s else s.onLg l fun x => { x with hsOn := false }
  else
    s.onLg l fun x =>
      { x with
        hsOn := x.hsOn && rise, lsOn := x.lsOn && !rise, watchH := x.watchH && rise, watchL := x.watchL && !rise
        incoming := if (if rise then x.hsOn else x.lsOn) then none else some (rise, t), crossed := none }

/-- EXTERNAL_LEG_EDGE (R226): the next commanded edge of an external leg. -/
def execExternalLegEdge (leg : LegIx) (rise : Bool) (s : State) : Out :=
  let l := leg.val
  match (s.lg l).plan with
  | (t, r) :: rest =>
    if s.up && decide (12 ≤ l) && r == rise then .next (((s.reach t).onLg l fun x => { x with plan := rest }).legEdge l rise t) else .next s
  | [] => .next s

/-- ADAPT of leg l. -/
def legAdapt (c : Cfg) (l : Nat) : Bool := bt (legDead c l) 31

/-- The incoming switch turns on at a tick; the dead time applied is kept in ns (R238). -/
def State.endDead (s : State) (l : Nat) (rise : Bool) (t on : Nat) (hard : Bool) : State :=
  let s := (s.reach on).onLg l fun x =>
    if rise then { x with dtRise := 4 * (on - t), hardR := hard } else { x with dtFall := 4 * (on - t), hardF := hard }
  s.turnOn l rise

/-- NODE_CROSSING (R237): the node crosses so many ns after the commanded tick; with ADAPT the turn-on follows it. -/
def execNodeCrossing (leg : LegIx) (ns : Nat) (s : State) : Out :=
  let l := leg.val
  let c := s.legUse l
  match (s.lg l).incoming with
  | none => .next s
  | some (rise, t) =>
    let tx := t + ceilDiv ns 4
    let dtMin := fld (legDead c l) 15 8
    let dtAdd := fld (legDead c l) 21 16
    if !s.up ∨ t + legDtMax c l < tx then .next s
    else if legAdapt c l then .next (s.endDead l rise t (max (t + dtMin) (min (tx + dtAdd) (t + legDtMax c l))) false)
    else .next ((s.reach tx).onLg l fun x => { x with crossed := some tx })

/-- DEADTIME_EXPIRY (R237): DT_MAX after the commanded tick the switch turns on, hard-switched where the node has not crossed. -/
def execDeadtimeExpiry (leg : LegIx) (s : State) : Out :=
  let l := leg.val
  let c := s.legUse l
  match (s.lg l).incoming with
  | none => .next s
  | some (rise, t) =>
    if !s.up then .next s
    else
      let sensed := decide (l < 12) || bt (legOut c l) 3
      .next (s.endDead l rise t (t + legDtMax c l) (sensed && (s.lg l).crossed.isNone))

/-! Writes to the live registers (R232 to R235, R243, R247). -/

/-- A write inside the freeze window is late (R234). -/
def State.lateWrite (s : State) (l : Nat) : State :=
  if (s.lg l).snapshot.isSome then (s.inc16 (pgPwm (l / 8)) (PWM.LATE_UPDATES (l % 8))).event (pgPwm (l / 8)) (2 ^ (l % 8)) else s

/-- A write to DUTY (R228, R232). -/
def State.dutyWrite (s : State) (l : Nat) (v : Word) : State :=
  if (s.lg l).delivered.isSome then s else (s.lateWrite l).setLv (pgPwm (l / 8)) (PWM.DUTY (l % 8)) (v &&& 0x1FFFFF)

/-- A write to PERIOD by a master (R229, R247). -/
def State.periodWrite (s : State) (m : Master) (l : Nat) (v : Word) : State :=
  if legFdiv s.force l ≠ 0 then s
  else ((s.lateWrite l).setLv (pgPwm (l / 8)) (PWM.PERIOD (l % 8)) (v &&& 0x1FFFF)).onLg l fun x => { x with perNew := some m }

/-- Both switches of a leg are asked for at once (R244, R263): an onset of the leg, both off. -/
def State.crossCommand (s : State) (l : Nat) : State :=
  let s := s.onLg l fun x => { x with hsOn := false, lsOn := false, incoming := none, cross := true }
  if l < 12 then
    let g := pgGd (l / 6)
    let s := ((s.event g (2 ^ (16 + l % 6))).pfault g (2 ^ (8 + l % 6))).inc16 g (GD.XCMD_COUNT (l % 6))
    (match legAxis s.force l with
      | some a => s.raisePulse srcXcmd a
      | none => s.raisePulse srcXcmd 16).onset 3 l
  else
    let p := pgPwm (l / 8)
    (((s.event p (2 ^ (16 + l % 8))).pfault p (2 ^ (8 + l % 8))).raisePulse srcXcmd 16).onset 4 l

/-- The override of CTRL drives the switches (R243); every removal of the gates stands above it. -/
def State.driveOverride (s : State) (l : Nat) (v : Word) : State :=
  let hs := bt v 4
  let ls := bt v 5
  if hs && ls then s.crossCommand l
  else
    let s := s.onLg l fun x => { x with cross := false, incoming := none, hsOn := false, lsOn := false }
    if s.legsDown l ∨ (s.lg l).retired then s
    else if hs then s.turnOn l true else if ls then s.turnOn l false else s

/-- A write to CTRL by a master (R234, R235, R243): OVR_EN only on a leg that is OFF and that no source claims. -/
def State.pwmCtrlWrite (s : State) (m : Master) (l : Nat) (v : Word) : State :=
  let pg := pgPwm (l / 8)
  let was := bt (s.lv pg (PWM.CTRL (l % 8))) 8
  if bt v 8 && (legMode (s.legUse l) l != 0 || s.legClaimed l) then s.refuseBy m eState 0 (regAddr pg (PWM.CTRL (l % 8)))
  else
    let s := s.lateWrite l
    let s := if (s.lg l).snapshot.isSome then s.onLg l fun x => { x with lateOnce := bt v 1 } else s
    let s := s.setLv pg (PWM.CTRL (l % 8)) (v &&& 0x133)
    if bt v 8 then s.driveOverride l v
    else if was then (s.legOff l).onLg l fun x => { x with cross := false } else s

/-- PWM_DUTY_WRITE (R232), as the host writes it. -/
def execPwmDutyWrite (leg : LegIx) (v : Word) (s : State) : Out :=
  if s.up then .next ((s.touch .host).dutyWrite leg.val v) else .next s
/-- PWM_PERIOD_WRITE (R247), as the host writes it. -/
def execPwmPeriodWrite (leg : LegIx) (v : Word) (s : State) : Out :=
  if s.up then .next ((s.touch .host).periodWrite .host leg.val v) else .next s
/-- PWM_UPDATE_CONTROL (R235): a CTRL write for UPD_ARM and UPD_ONCE, which leaves the override bits as they are. -/
def execPwmUpdateControl (leg : LegIx) (v : Word) (s : State) : Out :=
  let old := s.lv (pgPwm (leg.val / 8)) (PWM.CTRL (leg.val % 8))
  if s.up then .next ((s.touch .host).pwmCtrlWrite .host leg.val ((v &&& 3) ||| (old &&& 0x130))) else .next s
/-- PWM_OVERRIDE (R243): a CTRL write that sets or clears OVR_EN. -/
def execPwmOverride (leg : LegIx) (v : Word) (s : State) : Out :=
  if s.up then .next ((s.touch .host).pwmCtrlWrite .host leg.val v) else .next s

/-! Views. -/

/-- STATE of STATUS (Table 9-9). -/
def State.legState (s : State) (l : Nat) : Nat :=
  let x := s.lg l
  let m := legMode (s.legUse l) l
  if x.retired then 7
  else if bt (s.lv (pgPwm (l / 8)) (PWM.CTRL (l % 8))) 8 then 6
  else if m = 1 then (if x.delivered.isSome then 5 else 1)
  else if m ≤ 4 then m else 0

/-- STATUS of leg l (Table 9-9). -/
def State.legStatus (s : State) (l : Nat) : Word :=
  let x := s.lg l
  let q := (x.periods.find? fun q => decide (q.start ≤ s.now)).getD {}
  nw (q.hatch * 2 ^ 24 + bitAt 13 x.gateOff + min q.refCnt 31 * 256 + bitAt 7 x.hardF + bitAt 6 x.hardR + bitAt 5 q.clamped + bitAt 4 q.capped
    + bitAt 3 q.refreshed + s.legState l)

/-- PWM page n as it reads where it shows the legs' state. -/
def State.viewPwm (s : State) (n o : Nat) : Option Word :=
  let c := s.force
  if o = pageStatus then
    some (nw ((List.range 8).map fun j => bitAt j (!(s.lg (8 * n + j)).gateOff)).sum)
  else if 0x20 ≤ o ∧ o < 0xE0 then
    let j := (o - 0x20) / 0x18
    let l := 8 * n + j
    let x := s.lg l
    match (o - 0x20) % 0x18 with
    | 0x00 => x.delivered.map nw
    | 0x04 => if legFdiv c l = 0 then none else some (nw (legP c l))
    | 0x0C => some (s.legStatus l)
    | 0x14 => some (nw (min x.dtRise 65535 * 65536 + min x.dtFall 65535))
    | _ => none
  else none

end Sys2Proof.Machine
end

