-- ==== Sys2Proof/Machine/Axes.lean ====
section
/-!
DEFINITION. Axis commands (R277, Table 11-1), the entry to READY, current-sense offsets (R135 to R137), ADC conversions and their
faults (R146, R149), and the AXIS and ADC pages.
-/
namespace Sys2Proof.Machine

/-! Background work (R82, R85, R86, Tables 3-2 and 3-3). -/

/-- Energy of a background slice at the operating point in force, in pJ (R85). -/
def State.sliceCost (s : State) : Int := (256 * fused (s.lv pgSched SCHED.EPI) s.sched.point : Nat)

/-- A background item is essential (R87). -/
def bgEssential (c : Cfg) (item : Nat) : Bool := decide (item < 2) || bt (c pgSched SCHED.BG_ESSENTIAL) item

/-- A background item may start: power state, thermal level, energy account. -/
def State.bgOn (s : State) (item : Nat) : Bool :=
  let ess := bgEssential s.force item
  (match s.sched.state with
    | 2 => ess
    | 3 => item == 0
    | _ => true)
  && (match s.hk.inForce with
    | .normal => true
    | .warn => ess
    | _ => decide (item < 2))
  && decide (s.sliceCost ≤ s.sched.account)

/-! Entry to READY. -/

/-- Duration of the capture of R135 in ticks: 256 samples at 10 us. -/
def captureT : Nat := 256 * usT 10
/-- Duration of a refresh of R137: 1024 samples at 10 us. -/
def refreshT : Nat := 1024 * usT 10

/-- The axis enters READY from DISABLED or PRECHECK: its offsets are taken and the observer is seeded (R135, R138). -/
def State.enterReady (s : State) (a : Nat) : State :=
  let c := s.force
  let s := s.onAx a fun x =>
    { x with state := .ready, react := none, faulty := false, sto := false, asc := false, sub := false, capturing := !(axSense c a).isEmpty }
  let s := s.onDr a fun d =>
    { d with ofsSum0 := 0, ofsSum1 := 0, ofsCnt0 := 0, ofsCnt1 := 0, ofsNew := none, ofsNew1 := none, reseed := d.reseed || axAngle c a == 1 }
  if (axSense c a).isEmpty then s
  else
    let s := s.startT (.offsetCapture a) (s.now + captureT)
    if axSd c a then s.startT (.sdRefresh a) (s.now + max captureT (msT 5) + refreshT) else s

/-! Channels of an axis. -/

/-- Retirable channels that a configuration gives an axis, as class and index. -/
def axChannels (c : Cfg) (a : Nat) : List (Nat × Nat) :=
  (axUsedLegs c a).map (fun l => (if l < 12 then 3 else 4, l))
    ++ (axSense c a).map (fun ch => (2, ch))
    ++ (if axComm c a ≠ 0 ∧ axUdcSrc c a < 16 then [(2, 16 + axUdcSrc c a)] else [])
    ++ (if axComm c a ≠ 0 ∧ axAngle c a ≠ 2 ∨ 8 ≤ a then (axFb c a).toList.map (fun n => (1, n)) else [])
    ++ (if brkKind c a = 1 then [(4, 24 + brkIdx c a)] else if brkKind c a = 2 then [(7, brkIdx c a)] else [])

/-- The axis uses a retired channel. -/
def State.usesRetired (s : State) (a : Nat) : Bool := (axChannels s.force a).any fun x => s.chRet x.1 x.2

/-! Axis commands. -/

/-- The service personality is in force: AXIS_ENABLE is refused until a strike clears SERVICE (R457). -/
def State.serviceMode (s : State) : Bool := s.power.pers == 3 && bt (s.cf pgDma DMA.CFG) 0

/-- Why an axis command is refused (Table 11-1, R83, R457), if it is. -/
def State.axFail (s : State) (a code : Nat) : Option Nat :=
  let x := s.ax a
  let bad := fun (ok : Bool) => if ok then none else some eState
  let hold := s.demandOn a || decide (s.sched.request = some 3)
  match code with
    | 1 => bad (decide (x.state = .disabled) && !hold && !s.serviceMode)
    | 2 => if x.state = .ready ∧ x.capturing then some eBusy else bad (decide (x.state = .ready) && !hold)
    | 3 => bad x.state.runs
    | 4 => bad (decide (x.state = .ready))
    | 5 => bad (decide (x.state = .fault) && !s.anySrc a)
    | _ => some eRange

/-- AXIS_CMD_RESULT. -/
def State.axResult (s : State) (a code res : Nat) : State :=
  s.setLv pgSafe SAFE.AXIS_CMD_RESULT (nw (a * 2 ^ 16 + code * 2 ^ 8 + res))

/-- What an accepted axis command does (Table 11-1). -/
def State.axEffect (s : State) (a code : Nat) : State :=
  match code with
  | 1 => s.enterReady a
  | 2 => s.onAx a fun x => { x with runPending := true }
  | 3 => s.onAx a fun x => { x with state := .stopping, stopToReady := true }
  | 4 => ((s.stopT (.offsetCapture a)).stopT (.sdRefresh a)).onAx a fun x =>
      { x with state := .disabled, capturing := false, runPending := false }
  | _ =>
    s.onAx a fun x =>
      { x with
        state := if s.usesRetired a then .retired else .disabled
        react := none, faulty := false, degUsed := false, asc := false, sub := false, ladder := 0 }

/-- A write to SAFE.AXIS_CMD (R277). -/
def State.axisCmd (s : State) (m : Master) (a code : Nat) : State :=
  match (if s.axLocked a then some eState else s.axFail a code) with
  | some e => (s.refuseBy m e 0 (regAddr pgSafe SAFE.AXIS_CMD)).axResult a code e
  | none => (s.axEffect a code).axResult a code eNone

/-- An axis command as the host writes it. -/
def State.hostAxis (s : State) (a code : Nat) : State := if s.up then (s.touch .host).axisCmd .host a code else s

/-- AXIS_ENABLE. -/
def execAxisEnable (axis : AxisIx) (s : State) : Out := .next (s.hostAxis axis.val 1)
/-- AXIS_RUN. -/
def execAxisRun (axis : AxisIx) (s : State) : Out := .next (s.hostAxis axis.val 2)
/-- AXIS_STOP. -/
def execAxisStop (axis : AxisIx) (s : State) : Out := .next (s.hostAxis axis.val 3)
/-- AXIS_DISABLE. -/
def execAxisDisable (axis : AxisIx) (s : State) : Out := .next (s.hostAxis axis.val 4)
/-- AXIS_CLEAR. -/
def execAxisClear (axis : AxisIx) (s : State) : Out := .next (s.hostAxis axis.val 5)

/-! ADC channels (R146, R149). -/

/-- A fault of ADC channel ch. -/
def State.adcFault (s : State) (ch : Nat) : State := (s.pfault pgAdc (2 ^ ch)).onset 2 ch

/-- ADC channel ch works again (R284). -/
def State.adcBack (s : State) (ch : Nat) : State := if s.inRetry 2 ch then s.backInService 2 ch else s

/-- Drive axis whose current samples channel ch takes. -/
def senseAxis (c : Cfg) (ch : Nat) : Option Nat := (List.range 8).find? fun a => (axSense c a).contains ch

/-- A code in the range of the channel's converter. -/
def adcCode (ch : Nat) (code : Int) : Int :=
  if ch < 8 then satS 14 code else if ch < 16 then satS 32 code else clampI 0 16383 code

/-- A conversion of the channel's input: the raw register and the newest conversion. -/
def State.adcTake (s : State) (ch : Nat) (x : Samp) : State :=
  let s := s.setLv pgAdc (adcRawOff ch) (iw x.code)
  { s with samples := { s.samples with live := s.samples.live.set ch x } }

/-- An offset sample counts for axis a now: the capture of R135, the V7 window of a switching shunt axis (R136), or the refresh of a
sigma-delta axis in READY (R137). -/
def State.offsetCounts (s : State) (a stamp : Nat) : Bool :=
  (s.ax a).capturing
    || (s.bgOn 2 && (if axSd s.force a then
          decide ((s.ax a).state = .ready) && (match s.due (.sdRefresh a) with
            | some t => decide (t ≤ stamp + refreshT)
            | none => false)
        else s.axSwitching a))

/-- An offset sample of sense channel ch. -/
def State.offsetSample (s : State) (ch : Nat) (code : Int) (stamp : Nat) : State :=
  match senseAxis s.force ch with
  | none => s
  | some a =>
    if s.offsetCounts a stamp then
      if (axSense s.force a).head? = some ch then s.onDr a fun d => { d with ofsSum0 := d.ofsSum0 + code, ofsCnt0 := d.ofsCnt0 + 1 }
      else s.onDr a fun d => { d with ofsSum1 := d.ofsSum1 + code, ofsCnt1 := d.ofsCnt1 + 1 }
    else s.onDr a fun d => { d with ofsSum0 := 0, ofsSum1 := 0, ofsCnt0 := 0, ofsCnt1 := 0 }

/-- ADC_CONVERSION_DONE (R128, R135 to R137, R146, R149): a conversion of an enabled channel. -/
def execAdcConversionDone (ch : Fin 32) (code : Int) (kind : ConvKind) (stamp : Nat) (s : State) : Out :=
  let n := ch.val
  if !s.up || !adcEn s.force n || s.chRet 2 n then .next s
  else
    let s := s.reach stamp
    let x : Samp := { code := adcCode n code, cfg := adcCfg s.force n, tick := stamp }
    match kind with
    | .reference =>
      if 8 ≤ n ∧ n < 16 then .next s
      else if 16 < code.natAbs then .next (if s.inRetry 2 n then s else s.adcFault n) else .next (s.adcBack n)
    | .sampleA =>
      let s := s.adcTake n x
      let s := if n < 8 then (match senseAxis s.force n with
          | some a => s.onDr a fun d => { d with sampA := some x }
          | none => s) else s
      .next (if 8 ≤ n ∧ n < 16 then s.adcBack n else s)
    | .sampleB =>
      let s := s.adcTake n x
      .next (if n < 8 then (match senseAxis s.force n with
        | some a => s.onDr a fun d => { d with sampB := some x }
        | none => s) else s)
    | .offset => .next ((s.adcTake n x).offsetSample n x.code stamp)

/-- SD_STREAM_STALL (R146): no transition for 64 modulator clocks, or the clock lost. -/
def execSdStreamStall (ch : Fin 8) (s : State) : Out :=
  let n := 8 + ch.val
  if !s.up || !adcEn s.force n || s.chRet 2 n || s.inRetry 2 n then .next s else .next (s.adcFault n)

/-! Offsets. -/

/-- Mean in 1/16 LSB. -/
def meanOfs (sum : Int) (cnt : Nat) : Int := roundDiv (sum * 16) cnt

/-- An offset beyond 256 LSB is a fault of its channel (R137). -/
def State.offsetRange (s : State) (ch : Nat) (m : Int) : State := if 4096 < m.natAbs then s.adcFault ch else s

/-- The offsets of axis a are taken (R135): the means become the offsets. -/
def State.captureDone (s : State) (a : Nat) : State :=
  s.expire (.offsetCapture a) fun s =>
    if !(s.ax a).capturing then s
    else
      let d := s.dr a
      let s := s.onAx a fun x => { x with capturing := false }
      let s := s.onDr a fun d => { d with ofsSum0 := 0, ofsSum1 := 0, ofsCnt0 := 0, ofsCnt1 := 0 }
      let put := fun (s : State) (o ch : Nat) (sum : Int) (cnt : Nat) =>
        if cnt = 0 then s else (s.setLv (pgAxis a) o (iw (meanOfs sum cnt))).offsetRange ch (meanOfs sum cnt)
      match axSense s.force a with
      | [x] => put s AXIS.OFFSET0 x d.ofsSum0 d.ofsCnt0
      | [x, y] => put (put s AXIS.OFFSET0 x d.ofsSum0 d.ofsCnt0) AXIS.OFFSET1 y d.ofsSum1 d.ofsCnt1
      | _ => s

/-- The acceptance rule of R136 for one mean: taken at the next boundary, or rejected. -/
def State.judgeOffset (s : State) (a k ch : Nat) (m : Int) : State :=
  let old := (s.lv (pgAxis a) (if k = 0 then AXIS.OFFSET0 else AXIS.OFFSET1)).toInt
  let s := s.offsetRange ch m
  if (m - old).natAbs ≤ axOfsStep s.force a then
    s.onDr a fun d => if k = 0 then { d with ofsNew := some m } else { d with ofsNew1 := some m }
  else ((s.event (pgAxis a) 2).pfault (pgAxis a) 1).raisePulse srcOffset a

/-- BURNISHER_OFFSET_UPDATE (R136): the mean of 1024 samples of the V7 windows. -/
def execBurnisherOffsetUpdate (axis : AxisIx) (s : State) : Out :=
  let a := axis.val
  match axSense s.force a with
  | [x] =>
    if !s.up || (s.ax a).capturing || (s.dr a).ofsCnt0 < 1024 then .next s
    else
      let m := meanOfs (s.dr a).ofsSum0 (s.dr a).ofsCnt0
      let s := s.onDr a fun d => { d with ofsSum0 := 0, ofsCnt0 := 0 }
      .next (if s.bgOn 2 then s.judgeOffset a 0 x m else s)
  | _ => .next s

/-- SD_OFFSET_REFRESH (R137): the means of 1024 samples of a sigma-delta pair in READY; the next refresh follows. -/
def execSdOffsetRefresh (axis : AxisIx) (s : State) : Out :=
  let a := axis.val
  .next (s.expire (.sdRefresh a) fun s =>
    match axSense s.force a with
    | [x, y] =>
      if (s.ax a).state ≠ .ready then s
      else
        let d := s.dr a
        let s := (s.onDr a fun d => { d with ofsSum0 := 0, ofsSum1 := 0, ofsCnt0 := 0, ofsCnt1 := 0 }).startT (.sdRefresh a) (s.now + refreshT)
        if d.ofsCnt0 < 1024 ∨ d.ofsCnt1 < 1024 ∨ !s.bgOn 2 then s
        else (s.judgeOffset a 0 x (meanOfs d.ofsSum0 d.ofsCnt0)).judgeOffset a 1 y (meanOfs d.ofsSum1 d.ofsCnt1)
    | _ => s)

/-- The boundary's part of the current path: accepted offsets, sample set k (R19, R128, R136). -/
def State.adcBoundary (s : State) : State :=
  let s := forN 8 (fun a s =>
    let d := s.dr a
    let put := fun (s : State) (o : Nat) (v : Option Int) =>
      match v with
      | some m => (s.setLv (pgAxis a) o (iw m)).event (pgAxis a) 1
      | none => s
    let s := put (put s AXIS.OFFSET0 d.ofsNew) AXIS.OFFSET1 d.ofsNew1
    s.onDr a fun d =>
      { d with
        ofsNew := none, ofsNew1 := none, latA := d.sampA, latB := d.sampB, sampA := none, sampB := none, switching := s.axSwitching a, ordLat := d.ordNow
        ordNow := [d.phMax, d.phMid, d.phMin] }) s
  { s with samples := { s.samples with adc := s.samples.live } }

/-! Views. -/

/-- ADC page as it reads where it shows the channels' state. -/
def State.viewAdc (s : State) (o : Nat) : Option Word :=
  if o = pageStatus then some (nw ((List.range 32).map fun ch => bitAt ch (adcEn s.force ch && s.adcGood ch)).sum) else none

end Sys2Proof.Machine
end

