-- ==== Sys2Proof/Machine/Rescue.lean ====
section
/-!
DEFINITION. The rescue sequence and its converter (R211 to R219), the entry of an axis to RUN, the end of a master's SAFE_STOP and the
loss of a feedback interface (R166, R300), which the sequence follows.
-/
namespace Sys2Proof.Machine

/-! The sequence's registers. -/

/-- Code of a rescue state (Table 8-2). -/
def RescueSeq.code (x : RescueSeq) : Nat :=
  match x with
  | .idle => 0
  | .stopping => 1
  | .settle => 2
  | .converter => 3
  | .test => 4
  | .travel => 5
  | .landing => 6
  | .done => 7
  | .aborted => 8

/-- SEQ changed. -/
def State.setSeq (s : State) (x : RescueSeq) : State := s.onRescue fun r => { r with sq := x }

/-- A register of the rescue in force. -/
def State.resc (s : State) (o : Nat) : Word := s.cf pgHoist o

/-- UDC of the rescue axis in mV. -/
def State.rescueUdc (s : State) : Int := s.udcMv (rescueAxis s.force)

/-- The converter stops: its legs go off with it. -/
def State.convStop (s : State) : State :=
  let s := (s.stopT .converterReady).stopT .converterTimeout
  let s := s.onRescue fun r => { r with convOn := false, convDuty := 0 }
  forL (convLegs s.force) (fun l s => s.legOff l) s

/-- Deadlines of the sequence stopped. -/
def State.rescueQuiet (s : State) : State :=
  forL [Timer.rescueHold, .rescueSettle, .converterReady, .converterTimeout, .rescueLift, .rescueTest, .rescueTravel] (fun t s => s.stopT t) s

/-- The device itself requests NORMAL (R213). -/
def State.askNormal (s : State) : State := s.onSched fun x => { x with request := some 0 }

/-- The sequence aborts (R218). Reasons 1 and 2 bring their own reaction; every other cause removes the gates. -/
def State.rescueAbort (s : State) (reason : Nat) : State :=
  if !s.rescueBusy then s
  else
    let a := rescueAxis s.force
    let s := (s.rescueQuiet.sbcIssue a).setSeq .aborted
    let s := s.onLv pgHoist HOIST.RESCUE_STATUS fun w => putFld w 19 16 reason
    let s := s.onLv pgHoist HOIST.RESCUE_COUNT fun w => nw ((fld w 31 16 + 1) % 65536 * 65536 + fld w 15 0)
    let s := ((s.event pgHoist 0x4000).pfault pgHoist 0x1000).raise srcRescue a
    let s := s.onAx a fun x => { x with runPending := false }
    if reason = 1 ∨ reason = 2 then s else (s.stoNow a).pushReact a .sto srcRescue false

/-! Start and stop of the sequence. -/

/-- BRAKE_HOLD_T in ticks. -/
def State.holdT (s : State) : Nat := msT (fld (s.resc HOIST.RESCUE_TIMES) 15 0)

/-- SETTLE begins: the gates are off (Table 8-2). -/
def State.rescueSettle (s : State) : State :=
  (s.setSeq .settle).startT .rescueSettle (s.now + msT (fld (s.resc HOIST.RESCUE_TIMES) 31 16))

/-- The sequence starts in STOPPING (R211, R212). -/
def State.rescueBegin (s : State) : State :=
  let a := rescueAxis s.force
  let s := s.onRescue fun r => { r with sq := .stopping, start := s.now, released := false, averaging := false, sum := 0, cnt := 0, target := none }
  let s := (s.onLv pgHoist HOIST.RESCUE_STATUS fun _ => 0).event pgHoist 0x1000
  let s := s.onMt a fun m => { m with pending := none }
  if (s.ax a).state.runs then
    s.onAx a fun x => { x with state := .stopping, stopToReady := false, runPending := false }
  else if (s.ax a).state.moving then s
  else
    let s := if (s.ax a).state = .ready then
        (s.sbcIssue a).onAx a fun x => { x with state := .disabled, capturing := false, runPending := false }
      else s
    s.rescueSettle

/-- RESCUE_START (R211): accepted only in RESCUE with SEQ = IDLE, and with the rescue in use. -/
def State.rescueStartBy (s : State) (m : Master) : State :=
  if s.sched.state = 2 ∧ s.rescue.sq = .idle ∧ rescueEn s.force then s.rescueBegin
  else s.refuseBy m eState 0 (regAddr pgHoist HOIST.RESCUE_CMD)

/-- RESCUE_START as the host writes it. -/
def execRescueStart (s : State) : Out := if s.up then .next ((s.touch .host).rescueStartBy .host) else .next s

/-- MAINS_LOSS_QUALIFIED (R211): RESCUE is requested at the next boundary. -/
def execMainsLossQualified (s : State) : Out :=
  .next (s.expire .mainsLoss fun s =>
    if !rescueEn s.force ∨ s.rescue.lost then s
    else
      let s := s.onRescue fun r => { r with lost := true, mainsOk := false }
      (s.onSched fun x => { x with rescueReq := true }).event pgHoist 0x400)

/-- MAINS_RETURN_QUALIFIED (R211, R213): it ends a sequence in STOPPING or SETTLE; in DONE and ABORTED it requests NORMAL. -/
def execMainsReturnQualified (s : State) : Out :=
  .next (s.expire .mainsReturn fun s =>
    if !rescueEn s.force ∨ s.rescue.mainsOk then s
    else
      let s := (s.onRescue fun r => { r with lost := false, mainsOk := true }).event pgHoist 0x800
      match s.rescue.sq with
      | .stopping => (s.setSeq .idle).askNormal
      | .settle => ((s.stopT .rescueSettle).setSeq .idle).askNormal
      | .done | .aborted => s.askNormal
      | _ => s)

/-- RESCUE_BRAKE_HOLD_EXPIRY (Table 8-2): the gates of the rescue axis are removed; SETTLE follows STOPPING, DONE follows LANDING. -/
def execRescueBrakeHoldExpiry (s : State) : Out :=
  .next (s.expire .rescueHold fun s =>
    let a := rescueAxis s.force
    let s := s.leaveMotion a .disabled
    match s.rescue.sq with
    | .stopping => s.rescueSettle
    | .landing =>
      let s := (s.convStop.setSeq .done).event pgHoist 0x2000
      s.onLv pgHoist HOIST.RESCUE_COUNT fun w => nw (fld w 31 16 * 65536 + (fld w 15 0 + 1) % 65536)
    | _ => s)

/-- RESCUE_SETTLE_EXPIRY: the converter starts from the present UDC (R214). -/
def execRescueSettleExpiry (s : State) : Out :=
  .next (s.expire .rescueSettle fun s =>
    if s.rescue.sq ≠ .settle then s
    else
      let s := (s.setSeq .converter).onRescue fun r =>
        { r with convOn := true, convDuty := 0, uSet := (s.rescueUdc : Rat), vInt := 0, iInt := 0 }
      s.startT .converterTimeout (s.now + msT (fld (s.resc HOIST.CONV_RAMP) 31 16)))

/-- CONVERTER_READY (R214): UDC has stayed in its band for 20 ms; the axis is to enter RUN at the next boundary (R215). -/
def execConverterReady (s : State) : Out :=
  .next (s.expire .converterReady fun s =>
    if s.rescue.sq ≠ .converter then s
    else
      let a := rescueAxis s.force
      ((s.stopT .converterTimeout).setSeq .test).onAx a fun x => { x with runPending := true })

/-- CONVERTER_TIMEOUT (R214): not ready within READY_TIMEOUT. -/
def execConverterTimeout (s : State) : Out :=
  .next (s.expire .converterTimeout fun s => if s.rescue.sq = .converter then s.rescueAbort 3 else s)

/-! Test and travel (R215, R216). -/

/-- RESCUE_BRAKE_LIFT_EXPIRY (R215, step 3): the averaging begins. -/
def execRescueBrakeLiftExpiry (s : State) : Out :=
  .next (s.expire .rescueLift fun s =>
    if s.rescue.sq ≠ .test then s
    else (s.onRescue fun r => { r with averaging := true, sum := 0, cnt := 0 }).startT .rescueTest
      (s.now + msT (fld (s.resc HOIST.TEST_TIMES) 15 0)))

/-- The nearest landing beyond a position in a direction. -/
def landingAhead (c : Cfg) (p : Int) (up : Bool) : Option Nat :=
  let l := List.range (min (landings c) 32)
  if up then l.find? fun n => decide (p < landing c n) else l.reverse.find? fun n => decide (landing c n < p)

/-- LANDING begins: SBC, and the gates off BRAKE_HOLD_T later. -/
def State.rescueLand (s : State) : State :=
  ((s.stopT .rescueTravel).setSeq .landing |>.sbcIssue (rescueAxis s.force)).startT .rescueHold (s.now + s.holdT)

/-- The target is chosen and the move is issued (R216). -/
def State.rescueTravel (s : State) (up : Bool) : State :=
  let c := s.force
  let a := rescueAxis c
  let p := s.axPos a
  let tol := (s.resc HOIST.LAND_TOL).toNat * 65536
  let dir := fun (s : State) (up : Bool) => s.onLv pgHoist HOIST.RESCUE_STATUS fun w => putBt w 8 (!up)
  match (List.range (min (landings c) 32)).find? fun n => decide ((p - landing c n).natAbs ≤ tol) with
  | some n => ((dir s up).onRescue fun r => { r with target := some n }).rescueLand
  | none =>
    let pick := match landingAhead c p up with
      | some n => some (n, up)
      | none => (landingAhead c p (!up)).map fun n => (n, !up)
    match pick with
    | none => s
    | some (n, d) =>
      let s := (dir s d).onRescue fun r => { r with target := some n, sq := .travel }
      let m := pgMot a
      let s := s.setPair m MOT.TARGET_LO (landing c n)
      let s := ((s.setLv m MOT.V_MAX (s.resc HOIST.RESCUE_V)).setLv m MOT.ACC (s.resc HOIST.RESCUE_ACC)).setLv m MOT.DEC (s.resc HOIST.RESCUE_ACC)
      let s := (s.setLv m MOT.JERK (s.resc HOIST.RESCUE_JERK)).onMt a fun x => { x with pending := some 1 }
      s.startT .rescueTravel (s.now + msT (fld (s.resc HOIST.TRAVEL_MAX) 19 0))

/-- RESCUE_TEST_DONE (R215): HOLD_TQ, the light direction, the target. -/
def execRescueTestDone (s : State) : Out :=
  .next (s.expire .rescueTest fun s =>
    if s.rescue.sq ≠ .test ∨ !s.rescue.averaging then s
    else
      let hold := roundDiv s.rescue.sum s.rescue.cnt
      let bal := decide (hold.natAbs < fld (s.resc HOIST.BAL_T) 15 0 * 32768) || hold == 0
      let up := if bal then !bt (rescueCfg s.force) 17 else decide (hold < 0)
      let s := (s.setLv pgHoist HOIST.HOLD_TQ (iw hold)).onLv pgHoist HOIST.RESCUE_STATUS fun w => putBt w 9 bal
      (s.onRescue fun r => { r with averaging := false }).rescueTravel up)

/-- RESCUE_TRAVEL_TIMEOUT (R216). -/
def execRescueTravelTimeout (s : State) : Out :=
  .next (s.expire .rescueTravel fun s => if s.rescue.sq = .travel then s.rescueAbort 6 else s)

/-! Entry to RUN (Table 11-1, R279). -/

/-- The axis enters RUN at a boundary: its legs start switching; the brake is released BRK_REL_T later, by the rescue at once. -/
def State.enterRun (s : State) (a : Nat) : State :=
  let s := (s.onAx a fun x =>
    { x with state := .run, runPending := false, react := none, sto := false, asc := false, faulty := false }).startSwitching a
  if s.rescue.sq = .test ∧ a = rescueAxis s.force then
    let s := (s.brakeOff a).onRescue fun r => { r with released := true, relPos := s.axPos a }
    s.startT .rescueLift (s.now + msT (fld (s.resc HOIST.TEST_TIMES) 31 16))
  else if brkRelT s.force a = 0 then s.brakeOff a
  else s.startT (.brakeRelease a) (s.now + brkRelT s.force a)

/-- AXIS_RUN and the rescue test take effect at a boundary. -/
def State.runBoundary (s : State) (a : Nat) : State :=
  if !(s.ax a).runPending then s
  else if s.rescue.sq = .test ∧ a = rescueAxis s.force then
    if (s.ax a).state = .disabled ∧ !s.demandOn a then s.enterRun a else s.rescueAbort 1
  else if (s.ax a).state = .ready ∧ !s.demandOn a then s.enterRun a
  else s.onAx a fun x => { x with runPending := false }

/-! The converter task (R214). -/

/-- A PI with AW = CLAMP on an error in Q1.31 (R108): output and new integrator for a clamp of the sum with `add`. -/
def convPi (kp ki e i add lo hi : Int) : Int × Int :=
  let i1 := satS 64 (i + ki * e * 256)
  let v := satS 32 (roundShift (kp * e + i1 / (2 ^ 32 : Nat) * (2 ^ 24 : Nat)) 24) + add
  let u := clampI lo hi v
  (u, if u != v && sgn e == sgn (v - u) then i else i1)

/-- Battery voltage in mV and current in mA of the sample set. -/
def State.battery (s : State) : Int × Int :=
  let w := s.resc HOIST.BAT_SRC
  (if fld w 7 0 < 16 then s.ainMv (fld w 7 0) else s.samples.hk.getD 7 0 * 4, s.ainMv (fld w 11 8))

/-- mA as Q1.31 of the converter's full scale (log entry 26). -/
def convQ (ma : Int) : Int := roundDiv (ma * (2 ^ 31 : Nat)) (max 1 Config.convFs)

/-- One frame of the converter. -/
def State.runConverter (s : State) : State :=
  if !s.rescue.convOn then s
  else
    let g := fun o => (s.resc o).toInt
    let udc := s.rescueUdc
    let goal : Rat := (fld (s.resc HOIST.CONV_UDC) 19 0 : Nat)
    let ramp : Rat := ((fld (s.resc HOIST.CONV_RAMP) 15 0 * s.time.curLen : Nat) : Rat) / 250000
    let u := rmin goal (s.rescue.uSet + ramp)
    let (mv, ma) := s.battery
    let q31 : Rat := (2 ^ 31 : Nat)
    let e1 := satS 32 (roundRat ((u - udc) / (if goal = 0 then 1 else goal) * q31))
    let lim := s.resc HOIST.CONV_LIM
    let (cmd, vi) := convPi (g HOIST.CONV_KP_V) (g HOIST.CONV_KI_V) e1 s.rescue.vInt 0 (-(convQ (100 * fld lim 31 16 : Nat))) (convQ (100 * fld lim 15 0 : Nat))
    let e2 := satS 32 (cmd - convQ ma)
    let base : Int := if u = 0 then Config.dutyAtZeroUdc 1 else roundRat ((1 - mv / u) * q31)
    let (d, ii) := convPi (g HOIST.CONV_KP_I) (g HOIST.CONV_KI_I) e2 s.rescue.iInt base 0 (roundRat (95 / 100 * q31))
    let s := s.onRescue fun r => { r with uSet := u, vInt := vi, iInt := ii, convDuty := (roundShift d 15).toNat }
    let s := (s.setLv pgHoist HOIST.BAT_MV (iw mv)).setLv pgHoist HOIST.BAT_MA (iw ma)
    let inBand := decide ((((udc : Rat) - goal) * 20 ≤ goal) ∧ ((goal - udc) * 20 ≤ goal))
    let s := if s.rescue.sq = .converter then
        if inBand then (if (s.due .converterReady).isSome then s else s.startT .converterReady (s.now + msT 20)) else s.stopT .converterReady
      else s
    if mv < (fld (s.resc HOIST.BAT_MIN) 19 0 : Nat) then s.rescueAbort 3 else s

/-! The sequence at a boundary. -/

/-- Loss conditions at a boundary: the deadlines of R211 start and stop with them. -/
def State.mainsBoundary (s : State) : State :=
  let c := s.force
  if !rescueEn c then s
  else
    let w := rescueCfg c
    let d := s.di (fld w 23 20)
    let lowDi := bt w 19 && !s.diOn (fld w 23 20)
    let lowU := bt w 18 && decide (s.rescueUdc < (fld (c pgHoist HOIST.TRIG_UDC) 19 0 : Nat))
    let keep := fun (on : Bool) (x : Option Nat) (t : Nat) => if on then some (x.getD t) else none
    let s := s.onRescue fun r =>
      { r with
        lossSince := keep lowDi r.lossSince d.first, lossUdc := keep lowU r.lossUdc s.now, okSince := keep (!lowDi && !lowU) r.okSince s.now }
    let r := s.rescue
    let lt := msT (fld (c pgHoist HOIST.TRIG_TIME) 15 0)
    let s := match (r.lossSince.toList ++ r.lossUdc.toList).min? with
      | some t => if r.lost then s else s.startT .mainsLoss (t + lt)
      | none => s.stopT .mainsLoss
    match r.okSince with
    | some t => if r.mainsOk then s else s.startT .mainsReturn (t + msT (fld (c pgHoist HOIST.TRIG_TIME) 31 16))
    | none => s.stopT .mainsReturn

/-- The sequence's own conditions at a boundary (Table 8-2, R214 to R218). -/
def State.rescueBoundary (s : State) : State :=
  let c := s.force
  let a := rescueAxis c
  let s := if s.rescue.convOn && !s.rescueBusy && !s.axSwitching a then s.convStop else s
  if !s.rescueBusy then s
  else
    let x := s.ax a
    if x.state = .fault then s.rescueAbort 7
    else if s.rescue.convOn && (convLegs c).any (fun l => (s.lg l).retry || (s.lg l).retired) then s.rescueAbort 3
    else match s.rescue.sq with
      | .stopping => if x.state = .disabled then s.rescueSettle else s
      | .test =>
        if s.chop.judged then s.rescueAbort 5
        else if s.rescue.released && decide ((s.resc HOIST.TEST_SLIP).toNat * 65536 < (s.axPos a - s.rescue.relPos).natAbs) then s.rescueAbort 4
        else if s.rescue.averaging then s.onRescue fun r => { r with sum := r.sum + (s.dr a).torqueEst, cnt := r.cnt + 1 }
        else s
      | .travel =>
        if s.chop.judged then s.rescueAbort 5
        else if (s.mt a).pending.isNone && (s.mt a).atTarget then s.rescueLand
        else s
      | _ => s

/-! FB_LOST. -/

/-- FB_LOST on one axis (R166, R300): DEGRADED first where it is allowed, else the reaction of the source. -/
def State.fbLostAxis (s : State) (a : Nat) : State :=
  if s.srcOn srcFbLost a then s
  else
    let x := s.ax a
    let deg := decide (a < 8) && bt (axSafe s.force a) 9 && !x.degUsed && (x.state == .run || x.state == .stopping) && (s.dr a).obsLocked
    if deg then
      let s := s.noteSrc srcFbLost a 0
      if x.ss1.isSome then s.onAx a fun x => { x with sub := true, subPos := s.axPos a, degUsed := true }
      else s.applyReact a .degraded srcFbLost false
    else
      let s := s.raise srcFbLost a
      if rescueEn s.force ∧ a = rescueAxis s.force ∧ s.rescue.sq = .travel then s.rescueAbort 8 else s

/-- FB_LOST (R166): VALID has been 0 in more than RIDE consecutive sample sets. -/
def execFbLost (fb : FbIx) (s : State) : Out :=
  let n := fb.val
  if !s.up || (s.fb n).state = .off || (s.fb n).ride ≤ fbRide s.force n || (s.fb n).lostRaised then .next s
  else
    let s := s.onFb n fun x => { x with lostRaised := true }
    .next ((forL (fbUsers s.force n) (fun a s => s.fbLostAxis a) s).masterLost n)

/-! Views. -/

/-- RESCUE_STATUS (Table 8-8). -/
def State.rescueStatus (s : State) : Word :=
  let w := s.lv pgHoist HOIST.RESCUE_STATUS
  nw (s.rescue.target.getD 0xFF * 2 ^ 24 + fld w 19 16 * 2 ^ 16 + fld w 9 8 * 2 ^ 8 + bitAt 4 s.rescue.mainsOk + s.rescue.sq.code)

end Sys2Proof.Machine
end

