-- ==== Sys2Proof/Machine/Gate.lean ====
section
/-!
DEFINITION. The power die and its link (chapter 10): PLINK frames, edge execution, switch protection, supplies, DC-link comparators,
the brake chopper and PRECHECK.
-/
namespace Sys2Proof.Machine

/-! Frames (R249, R250). -/

/-- Type of a PLINK frame. -/
def plType (f : BitVec 40) : Nat := f.toNat / 2 ^ 36
/-- Bits [hi:lo] of a PLINK frame. -/
def plFld (f : BitVec 40) (hi lo : Nat) : Nat := (f.toNat >>> lo) % 2 ^ (hi + 1 - lo)
/-- The CRC-8 over bits [39:8] matches. -/
def plCrcOk (f : BitVec 40) : Bool := crc8 (bitsMsb 32 (f.toNat / 256)) == f.toNat % 256

/-- A count in the upper or lower half of a register, saturating. -/
def State.incHalf (s : State) (p o : Nat) (upper : Bool) : State :=
  s.onLv p o fun w =>
    let h := w.toNat / 2 ^ 16
    let l := w.toNat % 2 ^ 16
    if upper then nw (min (h + 1) 0xFFFF * 2 ^ 16 + l) else nw (h * 2 ^ 16 + min (l + 1) 0xFFFF)

/-- A downlink frame fails (R252): both switches off on every internal leg that is switching, until its next valid EDGE. -/
def State.downFail (s : State) : State :=
  let s := forN 12 (fun l s =>
    if (s.lg l).gateOff then s else s.onLg l fun x => { x with hsOn := false, lsOn := false, incoming := none, waitEdge := true }) s
  ((s.incHalf pgPlink PLINK.CRC_COUNT true).event pgPlink 0x80).onPdie fun x => { x with dnOk := false }

/-- An uplink frame fails (R252). -/
def State.upFail (s : State) : State :=
  ((s.incHalf pgPlink PLINK.CRC_COUNT false).event pgPlink 0x40).onPdie fun x => { x with upOk := false }

/-- A downlink frame of a type is taken, if it is one (R249). -/
def State.down (s : State) (f : BitVec 40) (ty : Nat) (run : State → State) : Out :=
  if !s.linked then .next s
  else if !plCrcOk f || plType f != ty then .next s.downFail
  else .next (run (s.onPdie fun x => { x with dnOk := true }))

/-- An uplink frame of a type is taken, if it is one (R249). -/
def State.uplink (s : State) (f : BitVec 40) (ty : Nat) (run : State → State) : Out :=
  if !s.linked then .next s
  else if !plCrcOk f || plType f != ty then .next s.upFail
  else .next (run (s.onPdie fun x => { x with upOk := true }))

/-- PLINK_SYNC: the boundary tick's low bits (R24). -/
def execPlinkSync (frame : BitVec 40) (s : State) : Out :=
  s.down frame 1 fun s => s.onPdie fun x => { x with lastSync := BitVec.ofNat 28 (plFld frame 35 8) }

/-- PLINK_SET: a power-die setting by index. -/
def execPlinkSet (frame : BitVec 40) (s : State) : Out :=
  s.down frame 2 fun s => s.onPdie fun x =>
    { x with settings := mapPut x.settings (plFld frame 35 24) (BitVec.ofNat 16 (plFld frame 23 8)) }

/-- The queue with an edge in target order. -/
def insertEdge : List QEdge → QEdge → List QEdge
  | [], e => [e]
  | x :: q, e => if e.tick < x.tick then e :: x :: q else x :: insertEdge q e

/-- PLINK_EDGE (R251): a command in time and with room goes into the leg's queue. -/
def execPlinkEdge (frame : BitVec 40) (s : State) : Out :=
  s.down frame 3 fun s =>
    let l := plFld frame 35 32
    let d := (plFld frame 28 8 + 2 ^ 21 - s.now % 2 ^ 21) % 2 ^ 21
    if 12 ≤ l then s
    else if d = 0 ∨ 2 ^ 20 < d ∨ 32 ≤ (s.lg l).queue.length then
      (s.onLg l fun x => { x with hsOn := false, lsOn := false, incoming := none, waitEdge := true }).event pgPlink 0x2000
    else s.onLg l fun x => { x with queue := insertEdge x.queue { rise := plFld frame 31 31 == 1, tick := s.now + d }, waitEdge := false }

/-- PLINK_IDLE, in either direction. -/
def execPlinkIdle (frame : BitVec 40) (up : Bool) (s : State) : Out := if up then s.uplink frame 0 id else s.down frame 0 id

/-- ECHO: the loopback of bring-up. -/
def execEcho (frame : BitVec 40) (s : State) : Out := s.uplink frame 1 id

/-- EDGE_EXECUTE (R251): the first queued edge of an internal leg, at its target tick. -/
def execEdgeExecute (leg : LegIx) (s : State) : Out :=
  let l := leg.val
  match (s.lg l).queue with
  | [] => .next s
  | e :: q =>
    if !s.linked || 12 ≤ l then .next s
    else
      let s := (s.reach e.tick).onLg l fun x => { x with queue := q }
      let off := (s.lg l).offAt.any fun t => decide (t ≤ e.tick)
      let s := if off then s.onLg l fun x =>
          { x with hsOn := false, lsOn := false, incoming := none, offAt := x.offAt.filter fun t => decide (e.tick < t) }
        else s
      .next (s.legEdge l e.rise e.tick)

/-! Switch protection (R259 to R262). -/

/-- Page and index of an internal leg. -/
def gdOf (l : Nat) : Nat × Nat := (pgGd (l / 6), l % 6)

/-- BSUV on a leg (R259): its high side turns off alone. -/
def State.bsuvOn (s : State) (l : Nat) : State :=
  if 12 ≤ l ∨ (s.lg l).bsuv ∨ legPump s.force l then s
  else
    let (p, j) := gdOf l
    let s := s.onLg l fun x => { x with bsuv := true, hsOn := false, watchH := false }
    (s.incHalf p (GD.TRIP_COUNT j) true).event p (2 ^ (8 + j))

/-- BSUV: the bootstrap supply of an internal high side falls below 7.0 V. -/
def execBsuv (leg : LegIx) (s : State) : Out := if s.linked then .next (s.bsuvOn leg.val) else .next s

/-- LEGSTAT: dead times and BSUV of a leg as reported. A trip or a cross-command that it carries has had its effect at VDS_TRIP and
PWM_OVERRIDE. -/
def execLegstat (frame : BitVec 40) (s : State) : Out :=
  s.uplink frame 4 fun s =>
    let l := plFld frame 35 32
    if 12 ≤ l then s
    else
      let s := s.onLg l fun x => { x with dtRise := plFld frame 27 18, dtFall := plFld frame 17 8 }
      if plFld frame 29 29 = 1 then s.bsuvOn l else s.onLg l fun x => { x with bsuv := false }

/-- Blanking time in ticks (Table 10-2). -/
def blankT (code : Nat) : Nat := ceilDiv ((code + 1) * 125) 2

/-- VDS_BLANK_END (R261): the monitor of a switch that is on begins to watch. -/
def execVdsBlankEnd (leg : LegIx) (high : Bool) (s : State) : Out :=
  let l := leg.val
  let x := s.lg l
  let (p, j) := gdOf l
  if !s.linked || 12 ≤ l || !(if high then x.hsOn else x.lsOn) || !bt (s.cf p (GD.GD_CFG j)) (if high then 0 else 1) then .next s
  else
    let s := s.reach ((if high then x.hsTick else x.lsTick) + blankT (fld (s.cf p (GD.VDS j)) 3 0))
    .next (s.onLg l fun x => if high then { x with watchH := true } else { x with watchL := true })

/-- VDS_TRIP (R261, R262): a watched switch turns off and is held; the leg counts an onset and its axis takes the reaction. -/
def execVdsTrip (leg : LegIx) (high : Bool) (s : State) : Out :=
  let l := leg.val
  let x := s.lg l
  if !s.linked || 12 ≤ l || !(if high then x.hsOn && x.watchH else x.lsOn && x.watchL) then .next s
  else
    let (p, j) := gdOf l
    let s := s.onLg l fun x =>
      if high then { x with hsOn := false, watchH := false, vdsHoldH := true } else { x with lsOn := false, watchL := false, vdsHoldL := true }
    let s := ((s.event p (2 ^ j)).pfault p (2 ^ j)).incHalf p (GD.TRIP_COUNT j) false
    let a := (legAxis s.force l).getD 16
    .next ((((s.raiseNow srcVds a).clearSrc srcVds a)).onset 3 l)

/-! Supplies (R253, R256, R260, R264). -/

/-- Both switches of all twelve internal legs off. -/
def State.internalOff (s : State) : State := forN 12 (fun l s => s.legOff l) s

/-- PLINK_LOST (R253). -/
def execPlinkLost (s : State) : Out :=
  if !s.linked || !s.time.plinkLock then .next s
  else
    let s := s.internalOff.onTime fun t => { t with plinkLock := false }
    let s := forN 12 (fun l s => s.onLg l fun x => { x with queue := [], waitEdge := true }) s
    let s := (s.onPdie fun x => { x with upOk := false, dnOk := false }).event pgPlink 0x20
    .next ((s.pfault pgPlink 1).raiseNow srcPlink 16)

/-- PLINK_LINK_UP (R253): the link has come up again by itself; `delay` is the measured one-way delay in ticks. -/
def execPlinkLinkUp (delay : BitVec 16) (s : State) : Out :=
  if !s.linked || s.time.plinkLock then .next s
  else
    let s := (s.onTime fun t => { t with plinkLock := true }).onPdie fun x => { x with delay := delay, upOk := true, dnOk := true }
    .next ((s.event pgPlink 0x10).clearSrc srcPlink 16)

/-- CPUV (R260): every charge-pump-class high side off. -/
def State.cpuvSet (s : State) (on : Bool) : State :=
  if on = s.pdie.cpuv then s
  else if on then
    let s := (s.onPdie fun x => { x with cpuv := true }).event pgPlink 0x400
    let s := forN 12 (fun l s => if legPump s.force l then s.onLg l fun x => { x with hsOn := false, watchH := false } else s) s
    s.raise srcCpuv 16
  else (s.onPdie fun x => { x with cpuv := false }).clearSrc srcCpuv 16

/-- VGD undervoltage and its end (R256). -/
def State.vgdSet (s : State) (on : Bool) : State :=
  if on = s.pdie.vgdUv then s
  else if on then
    (((s.onPdie fun x => { x with vgdUv := true }).internalOff.event pgPlink 0x100).pfault pgPlink 2).raiseNow srcVgdUv 16
  else (s.onPdie fun x => { x with vgdUv := false }).clearSrc srcVgdUv 16

/-- VIN overvoltage and its end (R264). -/
def State.vinSet (s : State) (on : Bool) : State :=
  if on = s.pdie.vinOv then s
  else if on then
    (((s.onPdie fun x => { x with vinOv := true }).internalOff.event pgPlink 0x200).pfault pgPlink 4).raiseNow srcVinOv 16
  else (s.onPdie fun x => { x with vinOv := false }).clearSrc srcVinOv 16

/-- CPUV: VCP falls below 8.0 V above VDRN. -/
def execCpuv (s : State) : Out := if s.linked then .next (s.cpuvSet true) else .next s
/-- CPUV_RELEASE: VCP is above 8.5 V again. -/
def execCpuvRelease (s : State) : Out := if s.linked then .next (s.cpuvSet false) else .next s
/-- VGD_UV: VGD falls below 8.0 V. -/
def execVgdUv (s : State) : Out := if s.linked then .next (s.vgdSet true) else .next s
/-- VGD_RELEASE: VGD exceeds 8.5 V. -/
def execVgdRelease (s : State) : Out := if s.linked then .next (s.vgdSet false) else .next s
/-- VIN_OV: VIN exceeds 67 V. -/
def execVinOv (s : State) : Out := if s.linked then .next (s.vinSet true) else .next s
/-- VIN_OV_RELEASE: VIN falls below 66 V. -/
def execVinOvRelease (s : State) : Out := if s.linked then .next (s.vinSet false) else .next s

/-! DC-link comparators and the chopper (R265 to R269). -/

/-- A comparator that is enabled sets or clears; ACT forces the chopper on at once (R265, R267). -/
def State.dclChange (s : State) (n : Nat) (on : Bool) : State :=
  if !bt (s.cf pgPlink (PLINK.DCL_CFG n)) 31 || s.pdie.dcl.toNat.testBit n == on then s
  else
    let s := s.onPdie fun x => { x with dcl := if on then x.dcl ||| BitVec.ofNat 4 (2 ^ n) else x.dcl &&& ~~~(BitVec.ofNat 4 (2 ^ n)) }
    let s := s.event pgPlink (2 ^ n)
    match chopLeg s.force with
    | none => s
    | some l =>
      if on && bt (s.cf pgPlink (PLINK.DCL_CFG n)) 24 && !(s.lg l).gateOff then
        (s.onLg l fun x => { x with chopForced := true }).turnOn l true
      else s

/-- DCL_COMPARATOR_CHANGE (R265). -/
def execDclComparatorChange (n : Fin 4) (set : Bool) (s : State) : Out := if s.linked then .next (s.dclChange n.val set) else .next s

/-- DCL: comparator states, supply flags and VIN as reported. -/
def execDcl (frame : BitVec 40) (s : State) : Out :=
  s.uplink frame 5 fun s =>
    let s := forN 4 (fun n s => s.dclChange n (plFld frame (32 + n) (32 + n) == 1)) s
    let s := ((s.vinSet (plFld frame 31 31 == 1)).vgdSet (plFld frame 30 30 == 1)).cpuvSet (plFld frame 29 29 == 1)
    s.setLv pgPlink PLINK.VIN_MV (nw (4 * plFld frame 23 8))

/-- HK: a power-die housekeeping reading. -/
def execPlinkHk (frame : BitVec 40) (s : State) : Out :=
  s.uplink frame 6 fun s => s.onHk fun x => { x with pwr := mapPut x.pwr (plFld frame 35 30) (plFld frame 29 8) }

/-- UDC in mV of the chopper in sample set k; UDC_FIXED is a register of an axis, so 0xFF leaves the value open (log entry 12). -/
def State.chopUdc (s : State) : Int × State :=
  let n := fld (s.cf pgPlink PLINK.CHOP_CFG) 23 16
  if n < 16 then (s.ainMv n, s)
  else if n = 0xFE then (s.samples.hk.getD 7 0 * 4, s)
  else
    let (k, s) := s.takeFree
    ((Config.freeWord k).toInt, s)

/-- The chopper control of a frame (R267): the duty delivered from the next boundary, in 65536ths. -/
def State.chopPublish (s : State) : State :=
  match chopLeg s.force with
  | none => s
  | some _ =>
    let (u, s) := s.chopUdc
    let on : Int := (s.cf pgPlink PLINK.CHOP_ON).toNat
    let full : Int := (s.cf pgPlink PLINK.CHOP_FULL).toNat
    s.onChop fun x => { x with duty := (clampI 0 65536 (roundDiv ((u - on) * 65536) (full - on).toNat)).toNat }

/-- The chopper is judged faulty (R268); the rescue aborts in TEST and TRAVEL (R218). -/
def State.chopJudge (s : State) (l : Nat) : State :=
  let s := (s.onChop fun x => { x with judged := true, window := none }).onLg l fun x => { x with hsOn := false, vdsHoldH := true }
  let s := (((s.event pgPlink 0x800).pfault pgPlink 8).raise srcChop 16).onset 4 l
  if s.rescue.sq = .test ∨ s.rescue.sq = .travel then s.rescueAbort 5 else s

/-- The judgement ends (R269). -/
def State.chopClear (s : State) : State :=
  (s.onChop fun x => { x with judged := false, testFail := false, vdsTrip := false }).clearSrc srcChop 16

/-- CHOPPER_SWITCH_FAULT (R268): the external stage reports a fault CHOP_BLANK after the switch was driven. -/
def execChopperSwitchFault (s : State) : Out :=
  match chopLeg s.force with
  | some l =>
    if s.up && (s.lg l).hsOn then
      let s := s.reach ((s.lg l).hsTick + fld (s.cf pgPlink PLINK.CHOP_CFG) 15 0)
      .next ((s.onChop fun x => { x with vdsTrip := true }).chopJudge l)
    else .next s
  | none => .next s

/-- The test window at a boundary, on the sample set of that boundary (R268, R269). -/
def State.chopBoundary (s : State) : State :=
  match chopLeg s.force with
  | none => s
  | some l =>
    let high := !(s.lg l).gateOff && ((s.lg l).chopForced || decide (0x8000 ≤ (s.lg l).delivered.getD 0))
    let (u, s) := s.chopUdc
    let w := fld (s.cf pgPlink PLINK.CHOP_TEST) 31 16 * 25000
    let stepMv : Int := fld (s.cf pgPlink PLINK.CHOP_TEST) 15 0
    let was := s.chop.wasHigh
    let s := s.onChop fun x => { x with wasHigh := high }
    match s.chop.window with
    | none => if high && !was then s.onChop fun x => { x with window := some (u, s.now + w) } else s
    | some (u0, _) =>
      if u ≤ u0 - stepMv then
        let s := s.onChop fun x => { x with window := none }
        if s.chRet 4 l then s else s.chopClear
      else if high then s else s.onChop fun x => { x with window := none }

/-- CHOPPER_TEST_EXPIRY (R268): CHOP_TIME has passed and the test window fails. -/
def execChopperTestExpiry (s : State) : Out :=
  match chopLeg s.force, s.chop.window with
  | some l, some (_, t) => if s.up then .next (((s.reach t).onChop fun x => { x with testFail := true }).chopJudge l) else .next s
  | _, _ => .next s

/-! PRECHECK (R270, R271). -/

/-- PRECHECK is accepted for axis a (R83, R270). -/
def State.precheckOk (s : State) (a : Nat) : Bool :=
  decide ((s.ax a).state = .disabled) && s.sched.request != some 3
    && (axLegs s.force a).all fun l => decide (l < 12) && !s.chRet 3 l

/-- PRECHECK: the axis is in ARG8. -/
def execPrecheck (m : Master) (seq arg8 : Byte) (s : State) : Out :=
  let a := arg8.toNat
  .next (s.command m seq 0x07 [(decide (7 < a), eRange), (!s.precheckOk a, eState)] fun s =>
    let s := { s with precheck := { axis := some (Fin.ofNat 16 a), step := 1 } }
    let s := ((s.onAx a fun x => { x with state := .precheck }).setLv pgPlink PLINK.PRECHECK_RESULT (nw (a * 2 ^ 28))).startT .precheck s.now
    s.begin_ m seq 0x07)

/-- Failing bits of step n of Table 10-4 on the readings of U, V, W. -/
def precheckBits (n lo hi u v w : Nat) (compOk supplyOk : Bool) : Nat :=
  match n with
  | 1 => bitAt 13 (!compOk) + bitAt 12 (!supplyOk)
  | 2 => bitAt 8 (decide (lo < u)) + bitAt 9 (decide (lo < v)) + bitAt 10 (decide (lo < w))
  | 3 => bitAt 4 (decide (u < hi)) + bitAt 5 (decide (v < hi)) + bitAt 6 (decide (w < hi))
  | 4 => bitAt 0 (decide (lo < u))
  | 5 => bitAt 1 (decide (lo < v))
  | _ => bitAt 2 (decide (lo < w))

/-- The last step is read: the command completes and the axis leaves PRECHECK (R271). -/
def State.precheckEnd (s : State) (a : Nat) : State :=
  let s := ({ s with precheck := {} }).event pgPlink 0x1000
  let here := decide ((s.ax a).state = .precheck)
  if fld (s.lv pgPlink PLINK.PRECHECK_RESULT) 27 0 = 0 then
    let s := if !here then s else if s.demandOn a then s.onAx a fun x => { x with state := .disabled } else s.enterReady a
    s.complete .host eNone
  else
    let s := if here then (s.onAx a fun x => { x with state := .fault, faulty := true }).setLastSrc a srcPrecheck else s
    ((s.pfault pgPlink 16).raisePulse srcPrecheck a).complete .host eSafety

/-- PRECHECK_STEP (Table 10-4): the readings of the nodes in 1/256 of VDRN, and the two checks of step 1. -/
def execPrecheckStep (u v w : Byte) (compOk supplyOk : Bool) (s : State) : Out :=
  .next (s.expire .precheck fun s =>
    match s.precheck.axis with
    | none => s
    | some a =>
      let n := s.precheck.step
      let cfg := s.cf pgPlink PLINK.PRECHECK_CFG
      let settle := usT (fld cfg 31 16)
      let bad := precheckBits n (fld cfg 7 0) (fld cfg 15 8) u.toNat v.toNat w.toNat compOk supplyOk
      let s := s.onLv pgPlink PLINK.PRECHECK_RESULT fun r =>
        let r := r ||| nw bad
        if bad ≠ 0 ∧ fld r 27 24 = 0 then putFld r 27 24 n else r
      let s := if n = 1 then s
        else s.setLv pgPlink PLINK.PRECHECK_NODES (nw (u.toNat * 2 ^ 16 + v.toNat * 2 ^ 8 + w.toNat))
      if 6 ≤ n then s.precheckEnd a.val
      else
        let s := { s with precheck := { s.precheck with step := n + 1 } }
        s.startT .precheck (s.now + settle + (if n = 1 then usT 100 else 0)))

/-- DIAG: a PRECHECK step result as reported. -/
def execDiag (frame : BitVec 40) (s : State) : Out :=
  s.uplink frame 7 fun s => s.onLv pgPlink PLINK.PRECHECK_RESULT fun r => putFld r 27 0 (plFld frame 35 8)

/-! Views. -/

/-- LEG_STATUS of leg l (Table 10-8). -/
def State.gdStatus (s : State) (l : Nat) : Word :=
  let x := s.lg l
  let st := if x.retired then 3 else if x.retry then 2 else if x.gateOff then 0 else 1
  nw (bitAt 7 x.gateOff + bitAt 6 x.hsOn + bitAt 5 x.lsOn + bitAt 4 (x.bsuv || (s.pdie.cpuv && legPump s.force l)) + bitAt 3 x.cross
    + bitAt 2 (x.vdsHoldH || x.vdsHoldL) + st)

/-- GD page n as it reads where it shows the legs' state. -/
def State.viewGd (s : State) (n o : Nat) : Option Word :=
  if o = pageStatus then some (nw ((List.range 6).map fun j => bitAt j (!(s.lg (6 * n + j)).gateOff)).sum)
  else if 0x20 ≤ o ∧ o < 0x80 ∧ o % 0x10 = 0 then some (s.gdStatus (6 * n + (o - 0x20) / 0x10))
  else none

/-- LINK_STATUS. -/
def State.linkStatus (s : State) : Word :=
  nw (s.pdie.delay.toNat * 2 ^ 16 + bitAt 2 s.pdie.dnOk + bitAt 1 s.pdie.upOk + bitAt 0 s.time.plinkLock)

/-- CHOP_STATUS. -/
def State.chopStatus (s : State) : Word :=
  let x := s.chop
  let forced := (chopLeg s.force).isSome && s.dclForcing
  let duty := match chopLeg s.force with
    | some l => (s.lg l).delivered.getD 0
    | none => 0
  nw (bitAt 31 x.testFail + bitAt 30 x.vdsTrip + bitAt 29 x.judged + bitAt 25 x.window.isSome + bitAt 24 forced + min duty 65536)

/-- PLINK page as it reads where it shows the power die's state. -/
def State.viewPlink (s : State) (o : Nat) : Option Word :=
  if o = pageStatus ∨ o = PLINK.LINK_STATUS then some s.linkStatus
  else if o = PLINK.DCL_STATE then some (nw s.pdie.dcl.toNat)
  else if o = PLINK.CHOP_STATUS then some s.chopStatus
  else none

end Sys2Proof.Machine
end

