-- ==== Sys2Proof/Machine/SafeFns.lean ====
section
/-!
DEFINITION. Safety functions (chapter 11): STO, SAFE_STOP, SS1, SLS, SOS, SDI, the cross-check, DEGRADED, safety inputs and test
pulses, brakes, and an axis's part of a frame boundary.
-/
namespace Sys2Proof.Machine

/-! SAFE_STOP (R282, R68, R421). -/

/-- STOP_REACT of an axis. -/
def stopReact (c : Cfg) (a : Nat) : React := (codeReact (fld (axSafe c a) 31 28)).getD .sto

/-- SAFE_STOP on an axis: the demand acts at the next boundary; the rescue aborts. -/
def State.safeStopAxis (s : State) (a : Nat) : State :=
  let s := s.pushReact a (stopReact s.force a) srcSafeStop true
  if rescueEn s.force ∧ a = rescueAxis s.force then s.rescueAbort 2 else s

/-- SAFE_STOP while the fabric is down (R421): the removal input of the STO path is driven and every brake applied. -/
def State.safeStopDown (s : State) : State :=
  let s := s.onPower fun p => { p with removal := true }
  let s := forN 16 (fun a s => s.onAx a fun x => { x with sbc := true, sto := true }) s
  forN 32 (fun l s => s.legOff l) s

/-- SAFE_STOP. -/
def execSafeStop (m : Master) (seq arg8 : Byte) (s : State) : Out :=
  let a := arg8.toNat
  if !s.up then
    if m = .manager ∧ s.power.phase ≠ .off then .next (s.safeStopDown.setResult .manager seq.toNat 8 true true eNone) else .next s
  else
    .next (s.command m seq 0x08 [(decide (16 ≤ a ∧ a ≠ 0xFF), eRange)] fun s =>
      let src := if a < 16 then a else 16
      let s := ((s.noteSrc srcSafeStop src (masterCode m)).clearSrc srcSafeStop src).event pgSafe 8
      let s := forL (if a < 16 then [a] else List.range 16) (fun b s => s.safeStopAxis b) s
      if (s.mstr m).busy.isSome then s else s.accept m seq 0x08)

/-! STO (R286 to R290). -/

/-- Axes that STOIN acts on. -/
def stoAxes (c : Cfg) : List Nat := maskAxes (c pgSafe SAFE.STO_CFG) 16

/-- The readback of R289 follows every STO demand. -/
def State.readback (s : State) : State := s.startT .stoReadback (s.now + usT 10)

/-- A STO demand from STOIN (R286). -/
def State.stoDemandNow (s : State) : State :=
  let s := s.onSafe fun x => { x with stoActive := true, stoOut := false, stoHealthySince := none, lastStoTick := s.now }
  let s := (s.stopT .stoRelease).onField fun f => { f with sto := true }
  let s := ((s.clearSrc srcSto 16).noteSrc srcSto 16 0).clearSrc srcStoTest 16
  let s := (s.event pgSafe 2).onLv pgSafe SAFE.STO_COUNT fun w => nw (fld w 31 16 * 65536 + (fld w 15 0 + 1) % 65536)
  let axes := stoAxes s.force
  let s := forL axes (fun a s => if (s.ax a).state = .retired then s.stoNow a else (s.stoNow a).pushReact a .sto srcSto true) s
  let s := if rescueEn s.force ∧ axes.contains (rescueAxis s.force) then s.rescueAbort 1 else s
  s.readback

/-- STO_DEMAND: STOIN has been low for STO_FILT. A demand that is active already is no new one. -/
def execStoDemand (s : State) : Out :=
  if !s.linked || (s.field.sto && s.safety.stoActive) then .next s else .next s.stoDemandNow

/-- STOIN is healthy again, from a tick on (R286). -/
def State.stoHealthy (s : State) (t : Nat) : State :=
  let s := s.onField fun f => { f with sto := false }
  if s.safety.stoActive ∧ s.safety.stoHealthySince = none then
    (s.onSafe fun x => { x with stoHealthySince := some t }).startT .stoRelease (t + msT 10)
  else s

/-- STO_RELEASE (R286): the first boundary after STOIN has been healthy for 10 ms. -/
def execStoRelease (s : State) : Out :=
  match s.due .stoRelease with
  | none => .next s
  | some t =>
    if !s.linked || s.field.sto then .next s
    else
      let s := (s.stopT .stoRelease).reach (s.boundaryFrom t)
      let s := s.onSafe fun x => { x with stoActive := false, stoOut := !x.stoPath }
      .next ((s.clearSrc srcSto 16).event pgSafe 4)

/-- STO_PATH (R289): STO on every axis until a reset. -/
def State.stoPathFail (s : State) : State :=
  let s := (s.onSafe fun x => { x with stoPath := true, stoOut := false }).pfault pgSafe 16
  s.raiseNow srcStoPath 16

/-- STO_READBACK (R289): the outputs that a STO demand removes are read back. -/
def execStoReadback (confirmed : Bool) (s : State) : Out :=
  .next (s.expire .stoReadback fun s => if confirmed then s else s.stoPathFail)

/-- One hour in ticks. -/
def hourT : Nat := secT 3600

/-- Hours since the last STO demand, while the count runs (R290). -/
def State.stoHours (s : State) : Nat :=
  if fld (s.cf pgSafe SAFE.STO_TEST) 13 0 = 0 then 0 else min ((s.now - s.safety.lastStoTick) / hourT) 0xFFFF

/-- STO_TEST_DUE (R290). -/
def execStoTestDue (s : State) : Out :=
  let mx := fld (s.cf pgSafe SAFE.STO_TEST) 13 0
  if !s.linked || mx == 0 || s.srcOn srcStoTest 16 then .next s
  else .next (((s.reach (s.safety.lastStoTick + mx * hourT)).pfault pgSafe 8).raise srcStoTest 16)

/-! Selected functions (R291, R293). -/

/-- Functions as SEL_HOST numbers them. -/
def fnIx (f : SafeFn) : Nat :=
  match f with
  | .sls => 0
  | .sos => 1
  | .sdiPos => 2
  | .sdiNeg => 3

/-- Function f (0 SLS, 1 SOS, 2 SDI_POS, 3 SDI_NEG) is enabled on axis a. -/
def fnEn (c : Cfg) (a f : Nat) : Bool := bt (axSafe c a) (if f = 0 then 12 else if f = 1 then 11 else 10)

/-- A write to SEL_HOST (R291). -/
def State.selHost (s : State) (m : Master) (v : Word) : State :=
  let bad := (List.range 8).any fun a => (List.range 4).any fun f => bt v (4 * a + f) && !fnEn s.force a f
  if bad then s.refuseBy m eState 0 (regAddr pgSafe SAFE.SEL_HOST) else s.setLv pgSafe SAFE.SEL_HOST v

/-- SEL_HOST as the host writes it. -/
def execSelHost (v : Word) (s : State) : Out := if s.up then .next ((s.touch .host).selHost .host v) else .next s

/-- Monitor f of an axis. -/
def AxisSt.mon (x : AxisSt) (f : Nat) : Monitor := if f = 0 then x.sls else if f = 1 then x.sos else if f = 2 then x.sdiPos else x.sdiNeg
/-- Monitor f of an axis changed. -/
def AxisSt.setMon (x : AxisSt) (f : Nat) (m : Monitor) : AxisSt :=
  match f with
  | 0 => { x with sls := m }
  | 1 => { x with sos := m }
  | 2 => { x with sdiPos := m }
  | _ => { x with sdiNeg := m }

/-- Function f is selected on axis a: by an input that demands it, or by the host. -/
def State.selected (s : State) (a f : Nat) : Bool :=
  bt (s.lv pgSafe SAFE.SEL_HOST) (4 * a + f) || (List.range 8).any fun i => sinFunc s.force i == f + 3 && sinHas s.force i a && s.slotLow i

/-- Violation source of function f. -/
def fnSrc (f : Nat) : Nat := if f = 0 then srcSls else if f = 1 then srcSos else srcSdi

/-- SEL_DELAY in ticks. -/
def selDelay (c : Cfg) (a : Nat) : Nat := msT (fld (safeAx c a (SAFE.BRK_SEL 0)) 15 0)

/-- Selection of function f on axis a at a boundary. -/
def State.selectFn (s : State) (a f : Nat) : State :=
  let on := s.selected a f
  let m := (s.ax a).mon f
  if on == m.selected then s
  else if on then (s.onAx a fun x => x.setMon f { selected := true }).startT (.monitor a f) (s.now + selDelay s.force a)
  else
    let s := (s.onAx a fun x => x.setMon f {}).stopT (.monitor a f)
    if (List.range 4).any (fun g => fnSrc g == fnSrc f && ((s.ax a).mon g).selected) then s else s.clearSrc (fnSrc f) a

/-- A limit is exceeded: LIMIT_VIOL, the source, its reaction. -/
def State.violate (s : State) (a src : Nat) : State := if s.srcOn src a then s else (s.event pgSafe 16).raise src a

/-- The test of function f at a boundary (R293). -/
def State.testFn (s : State) (a f : Nat) : State :=
  let m := (s.ax a).mon f
  if !m.running then s
  else
    let c := s.force
    let pos := s.axPos a
    let tol : Int := ((safeAx c a (SAFE.SDI_TOL 0)).toNat * 65536 : Nat)
    let r := if f = 2 then max m.ref pos else if f = 3 then min m.ref pos else m.ref
    let s := s.onAx a fun x => x.setMon f { m with ref := r }
    let bad : Bool := match f with
      | 0 => decide ((safeAx c a (SAFE.SLS_LIM 0)).toNat < (s.axSpeed a).natAbs)
      | 1 => decide ((safeAx c a (SAFE.SOS_WIN 0)).toNat * 65536 < (pos - m.ref).natAbs)
      | 2 => decide (pos < r - tol)
      | _ => decide (r + tol < pos)
    if bad then s.violate a (fnSrc f) else s

/-- SAFETY_MONITOR_START (R293): SEL_DELAY after the selection. -/
def execSafetyMonitorStart (axis : AxisIx) (fn : SafeFn) (s : State) : Out :=
  let a := axis.val
  let f := fnIx fn
  .next (s.expire (.monitor a f) fun s =>
    let m := (s.ax a).mon f
    if m.selected then s.onAx a fun x => x.setMon f { m with running := true, ref := s.axPos a } else s)

/-! SS1 and rest (R278, R292). -/

/-- The axis is at rest. -/
def State.atRest (s : State) (a : Nat) : Bool :=
  decide ((s.axSpeed a).natAbs ≤ (safeAx s.force a (SAFE.REST_V 0)).toNat) && !(s.mt a).moving && (s.mt a).pulses.isEmpty

/-- The speed envelope of a running SS1 at a boundary. -/
def State.testSs1 (s : State) (a : Nat) : State :=
  match (s.ax a).ss1 with
  | none => s
  | some r =>
    let t : Rat := ((s.now - r.start : Nat) : Rat) / 250000000
    let lim := rmax ((r.v0 : Rat) - (r.env : Rat) / 256 * (16 * r.dec : Nat) * t) 0 + (r.tol : Nat)
    if r.env ≠ 0 ∧ lim < ((s.axSpeed a).natAbs : Rat) then s.violate a srcSs1 else s

/-- SS1_TIMEOUT (R292). -/
def execSs1Timeout (axis : AxisIx) (s : State) : Out :=
  .next (s.expire (.ss1 axis.val) fun s => if (s.ax axis.val).ss1.isSome then s.ss1End axis.val else s)

/-- An AXIS_STOP ends in READY: the brake-set delay has passed (R279). -/
def State.stopReady (s : State) (a : Nat) : State :=
  let s := s.leaveMotion a .ready
  if axSd s.force a ∧ !(axSense s.force a).isEmpty then s.startT (.sdRefresh a) (s.now + msT 5 + refreshT) else s

/-- DEGRADED ends near rest: STO, and FAULT with FB_LOST as the source (R301). -/
def State.degradedEnd (s : State) (a : Nat) : State :=
  ((((s.stoNow a).onAx a fun x => { x with faulty := true }).settleSto a).onAx a fun x => { x with react := some .sto }).setLastSrc a srcFbLost

/-- BRAKE_SET_EXPIRY: BRK_SET_T after SBC (R279, R301, Table 11-2). -/
def execBrakeSetExpiry (axis : AxisIx) (s : State) : Out :=
  let a := axis.val
  .next (s.expire (.brakeSet a) fun s =>
    let x := s.ax a
    if x.settling ∧ x.stopToReady ∧ x.react ≠ some .degraded then s.stopReady a
    else if x.settling then s.degradedEnd a
    else if x.react = some .ss1 then ((s.stoNow a).settleSto a).onAx a fun x => { x with react := some .sto }
    else s)

/-- What happens on an axis that is at rest, or near rest in DEGRADED (R278, R279, R292, R301, R212). -/
def State.restBoundary (s : State) (a : Nat) : State :=
  let x := s.ax a
  let c := s.force
  let settle := fun (s : State) (done : State → State) =>
    let s := s.sbcIssue a
    if brkSetT c a = 0 then done s
    else (s.onAx a fun x => { x with settling := true }).startT (.brakeSet a) (s.now + brkSetT c a)
  if x.settling then s
  else if x.react = some .degraded then
    if decide (a < 8) && decide ((s.dr a).obsSpeed.natAbs < axNat c a AXIS.OBS_MIN_SPEED) then settle s fun s => s.degradedEnd a else s
  else if x.state ≠ .stopping ∨ !s.atRest a then s
  else if x.ss1.isSome then s.ss1End a
  else if x.stopToReady then settle s fun s => s.stopReady a
  else if x.react.isNone ∧ rescueEn c ∧ a = rescueAxis c ∧ (s.due .rescueHold).isNone then
    (s.sbcIssue a).startT .rescueHold (s.now + s.holdT)
  else s

/-! Brakes (R279, R298). -/

/-- BRAKE_RELEASE (R279): BRK_REL_T after the axis entered RUN. -/
def execBrakeRelease (axis : AxisIx) (s : State) : Out :=
  .next (s.expire (.brakeRelease axis.val) fun s => if (s.ax axis.val).state.moving then s.brakeOff axis.val else s)

/-- The brake input shows the state of the brake. -/
def State.brakeShown (s : State) (i a : Nat) : Bool := s.slotReadsLow i == (s.ax a).sbc

/-- BRAKE_FB_TIMEOUT (R298). -/
def execBrakeFbTimeout (slot : Fin 8) (axis : AxisIx) (s : State) : Out :=
  .next (s.expire (.brakeFb slot.val axis.val) fun s =>
    if (brakeSlots s.force axis.val).contains slot.val && !s.brakeShown slot.val axis.val then s.raise srcBrakeFb axis.val else s)

/-! Safety inputs (R294 to R297). -/

/-- A SIN_FAULT of slot i. -/
def State.sinFault (s : State) (i : Nat) : State :=
  let s := s.onSi i fun x => { x with fault := true, passes := 0 }
  ((s.event pgSafe 64).pfault pgSafe 2).raise srcSinFault 16

/-- TEST_PULSE (R295): one low pulse of TP0 or TP1 has ended. Bit i of `low`: input i read low in the interval; bit i of `high`: it
read high throughout; `followed`: the output followed its pulse. -/
def execTestPulse (tp : Fin 2) (low high : BitVec 16) (followed : Bool) (s : State) : Out :=
  if !s.linked then .next s
  else
    let s := s.onField fun f =>
      { f with tpFollowed := if followed then f.tpFollowed ||| BitVec.ofNat 2 (2 ^ tp.val) else f.tpFollowed &&& ~~~(BitVec.ofNat 2 (2 ^ tp.val)) }
    .next (forN 8 (fun i s =>
      let w := sinCfg s.force i
      let d := fld w 3 0
      let src := fld w 9 8
      if sinFunc s.force i = 0 ∨ src = 0 then s
      else if src = tp.val + 1 then
        if !followed then s.sinFault i
        else if !s.diOn d then s
        else if low.getLsbD d then s.onSi i fun x => { x with passes := x.passes + 1 }
        else s.sinFault i
      else if s.diOn d && !high.getLsbD d then s.sinFault i
      else s) s)

/-- CLEAR_EVENTS ends the SIN_FAULT of an input that has passed three pulses of its own source in a row (R297). -/
def State.clearSin (s : State) : State :=
  let s := forN 8 (fun i s => s.onSi i fun x => if x.fault && decide (3 ≤ x.passes) then { fault := false, passes := 0 } else x) s
  if s.sins.any (·.fault) then s else s.clearSrc srcSinFault 16

/-- Demands of the safety inputs on axis a at a boundary (R282, R288). -/
def State.slotDemands (s : State) (a : Nat) : State :=
  let any := fun (f : Nat) => (List.range 8).any fun i => sinFunc s.force i == f && sinHas s.force i a && s.slotLow i
  let x := s.ax a
  let under := fun (r : React) => match x.react with
    | some q => decide (q.rank < r.rank)
    | none => true
  if any 1 && under .sto && x.state != .retired then
    let s := (s.pushReact a .sto srcSto true).readback
    if rescueEn s.force ∧ a = rescueAxis s.force then s.rescueAbort 1 else s
  else if any 2 && under .ss1 && (x.state.moving || x.state == .ready) then s.pushReact a .ss1 srcSto true
  else s

/-! Cross-check and DEGRADED (R299 to R301). -/

/-- The cross-check at a boundary. -/
def State.crossCheck (s : State) (a : Nat) : State :=
  let c := s.force
  if !bt (axSafe c a) 8 || (s.ax a).sub then s
  else
    let d := s.dr a
    let spd := s.axSpeed a
    let dif := spd - d.obsSpeed
    let mn := axNat c a AXIS.OBS_MIN_SPEED
    let cfg := safeAx c a (SAFE.XC_CFG 0)
    let frames := fld cfg 23 16
    let unl := if d.obsLocked then 0 else min ((s.ax a).unlockRun + 1) 256
    let valid := s.axFbValid a
    let bad := (d.obsLocked && valid
          && decide (100 * (safeAx c a (SAFE.XC_ABS 0)).toNat + fld cfg 31 24 * spd.natAbs < 100 * dif.natAbs))
      || (d.obsLocked && decide (2 * mn ≤ d.obsSpeed.natAbs ∧ spd.natAbs < mn))
      || (s.axSwitching a && decide (2 * mn ≤ spd.natAbs ∧ frames ≤ unl))
      || d.losSeen
    let s := (s.setLv pgSafe (SAFE.XC_DIFF a) (iw (satS 32 dif))).onDr a fun d => { d with losSeen := false }
    let s := s.onAx a fun x => { x with unlockRun := unl, xcRun := if bad then min (x.xcRun + 1) 256 else 0 }
    if frames < (s.ax a).xcRun then
      if s.srcOn srcXcheck a then s else ((s.event pgSafe 32).pfault pgSafe 4).raise srcXcheck a
    else if bad then s else s.clearSrc srcXcheck a

/-- DEGRADED at a boundary: the substitute position and the speed limit (R300). -/
def State.degBoundary (s : State) (a prevLen : Nat) : State :=
  if !(s.ax a).sub then s
  else
    let v := (s.dr a).obsSpeed
    let fast := decide ((safeAx s.force a (SAFE.DEG_SPEED 0)).toNat < v.natAbs)
    let s := s.onAx a fun x => { x with subPos := x.subPos + posAdvance v prevLen, degOver := if fast then min (x.degOver + 1) 2 else 0 }
    if (s.ax a).react = some .degraded ∧ 2 ≤ (s.ax a).degOver then s.violate a srcSls else s

/-- DEGRADED_EXPIRED (R301). -/
def execDegradedExpired (axis : AxisIx) (s : State) : Out :=
  let a := axis.val
  .next (s.expire (.degraded a) fun s =>
    if (s.ax a).react = some .degraded then (s.pfault pgSafe 1).raisePulse srcDegExp a else s)

/-! The axis at a boundary. -/

/-- A demand has ended on an axis that it left in DISABLED; sources end with what they judged (log entry 38). -/
def State.endDemand (s : State) (a : Nat) : State :=
  let x := s.ax a
  let s := if x.state = .disabled ∧ !x.faulty ∧ x.react.isSome ∧ !s.demandOn a then
      s.onAx a fun x => { x with react := none, asc := false }
    else s
  let s := if (s.ax a).ss1.isNone then s.clearSrc srcSs1 a else s
  let s := if s.srcOn srcBrakeFb a ∧ (brakeSlots s.force a).all (fun i => s.brakeShown i a) then s.clearSrc srcBrakeFb a else s
  if s.srcOn srcSls a ∧ !(s.ax a).sls.selected ∧ !(s.ax a).sub then s.clearSrc srcSls a else s

/-- Everything chapter 11 does on axis a at B_k; `prevLen` is L_{k-1}. -/
def State.axisBoundary (s : State) (prevLen a : Nat) : State :=
  let s := s.degBoundary a prevLen
  let s := s.slotDemands a
  let s := if a < 8 then forN 4 (fun f s => (s.selectFn a f).testFn a f) s else s
  let s := s.testSs1 a
  let s := if a < 8 then s.crossCheck a else s
  let s := s.settleReacts a
  let s := s.runBoundary a
  (s.restBoundary a).endDemand a

/-! Views. -/

/-- OTE is on (R304). -/
def State.oteOn (s : State) : Bool := s.up && !s.safety.oteOff

/-- SAFE_STATUS. -/
def State.safeStatus (s : State) : Word :=
  nw (bitAt 16 (bt (s.cf pgSafe SAFE.OTE) 4 && s.oteOn) + bitAt 9 (!s.field.sto) + bitAt 8 s.safety.stoActive
    + ((List.range 8).map fun i => bitAt i (s.slotLow i)).sum)

/-- AXSTAT of axis a (Table 11-11). -/
def State.axStat (s : State) (a : Nat) : Word :=
  let x := s.ax a
  let left := match s.due (.degraded a) with
    | some t => min ((t - s.now) / 250000) 65535
    | none => 0
  nw ((x.react.map React.code).getD 0xF * 2 ^ 28 + x.state.code * 2 ^ 24 + bitAt 23 (x.sbc && hasBrake s.force a) + bitAt 22 x.sto
    + bitAt 21 x.ss1.isSome + bitAt 20 x.sls.selected + bitAt 19 x.sos.selected + bitAt 18 x.sdiPos.selected + bitAt 17 x.sdiNeg.selected
    + bitAt 16 (decide (x.react = some .degraded)) + (if x.react = some .degraded then left else 0))

/-- SRC_ACTIVE0 or SRC_ACTIVE1. -/
def State.srcWord (s : State) (n : Nat) : Word :=
  nw ((List.range 32).map fun i => bitAt i (s.safety.srcs.any fun x => x.1 == 32 * n + i)).sum

/-- PARAM_CRC (R305). -/
def State.paramCrc (s : State) : Word := crc32 ((List.range 320).map fun i => s.cf pgSafe (0x100 + 4 * i))

/-- SAFE page as it reads where it shows the safety state. -/
def State.viewSafe (s : State) (o : Nat) : Option Word :=
  if o = pageStatus ∨ o = SAFE.SAFE_STATUS then some s.safeStatus
  else if o = SAFE.SIN_STATUS then
    some (nw ((List.range 8).map fun i => bitAt (8 + i) (s.si i).fault + bitAt i (s.di (fld (sinCfg s.force i) 3 0)).raw).sum)
  else if o = SAFE.STO_COUNT then some (nw (s.stoHours * 65536 + fld (s.lv pgSafe SAFE.STO_COUNT) 15 0))
  else if o = SAFE.PARAM_CRC then some s.paramCrc
  else if o = SAFE.SRC_ACTIVE0 then some (s.srcWord 0)
  else if o = SAFE.SRC_ACTIVE1 then some (s.srcWord 1)
  else if SAFE.AXSTAT 0 ≤ o ∧ o < SAFE.AXSTAT 16 then some (s.axStat ((o - SAFE.AXSTAT 0) / 4))
  else none

end Sys2Proof.Machine
end

