-- ==== Sys2Proof/Machine/Field.lean ====
section
/-!
DEFINITION. Field inputs and outputs (chapter 12): FLINK frames and auxiliary words, debounce, open-wire watch, the outputs with
their claims, the field supply and the common fault bit.
-/
namespace Sys2Proof.Machine

/-! Permission and the common fault bit (R315, R316). -/

/-- One millisecond has passed since a tick. -/
def State.msPast (s : State) (t : Nat) : Bool := decide (t + msT 1 ≤ s.now)

/-- Readback of output n counts: the bit is 1, outputs are permitted, and 1 ms has passed since the change and the return (R312, R315). -/
def State.outJudged (s : State) (n : Nat) : Bool :=
  let o := s.fo n
  o.sent && s.inValid && s.msPast o.change && s.msPast s.field.outSince

/-- OPEN_EN of input i in force. -/
def openEn (c : Cfg) (i : Nat) : Bool := bt (c pgFio (FIO.DI_CFG i)) 5

/-- A condition of R316 holds. -/
def State.fltNow (s : State) : Bool :=
  s.field.sag || s.field.tpFollowed != 3
  || (List.range 8).any (fun n => (!(s.fo n).sent && (s.fo n).readback) || (s.outJudged n && !(s.fo n).readback))
  || (List.range 16).any fun i => openEn s.force i && (s.di i).openWire

/-- FLT judged (R316). -/
def State.judgeFlt (s : State) : State :=
  let f := s.fltNow
  let was := s.field.flt
  let s := s.onField fun x => { x with flt := f }
  if f && !was then ((s.event pgFio 1).pfault pgFio 1).raise srcFio 16
  else if was && !f then s.clearSrc srcFio 16
  else s

/-- Inputs become invalid: no level is accepted until DEB samples after they are valid again (R309). -/
def State.inputsLost (s : State) : State := forN 16 (fun i s => s.onDi i fun d => { d with cnt := 0, stale := true }) s

/-! Field supply (R314). -/

/-- VSAG as reported. -/
def State.sagSet (s : State) (v : Bool) : State :=
  if v == s.field.sag then s
  else
    let s := s.onField fun f => { f with sag := v }
    if v then ((s.event pgFio 2).pfault pgFio 2).raise srcVfSag 16 else s.clearSrc srcVfSag 16

/-- A cut by the supply, or its end, as reported by VOK. -/
def State.cutSet (s : State) (v : Bool) : State :=
  if v == s.field.cut then s
  else
    let s := s.onField fun f => { f with cut := v, outSince := s.now }
    if v then (((s.event pgFio 4).pfault pgFio 4).raise srcVfCut 16).inputsLost
    else (s.event pgFio 8).clearSrc srcVfCut 16

/-- VF_SAG. -/
def execVfSag (s : State) : Out := if s.linked then .next (s.sagSet true).judgeFlt else .next s
/-- VF_SAG_CLEAR. -/
def execVfSagClear (s : State) : Out := if s.linked then .next (s.sagSet false).judgeFlt else .next s
/-- VF_CUT. -/
def execVfCut (s : State) : Out := if s.linked then .next (s.cutSet true).judgeFlt else .next s
/-- VF_RESTORED. -/
def execVfRestored (s : State) : Out := if s.linked then .next (s.cutSet false).judgeFlt else .next s

/-! Uplink (R306 to R309). -/

/-- The CRC-5 of a FLINK frame holds. -/
def flinkOk (f : BitVec 25) : Bool := crc5 (bitsMsb 20 (f.toNat / 32)) == f.toNat % 32

/-- One valid sample of input i, taken at tick t (R308). -/
def State.diSample (s : State) (t i : Nat) (b : Bool) : State :=
  let d := s.di i
  let run := d.cnt != 0 && d.raw == b
  let s := s.onDi i fun d =>
    { d with
      raw := b
      cnt := if b == d.level && !d.stale then 0 else if run then d.cnt + 1 else 1
      first := if run then d.first else t }
  if b != d.level && !run then s.latchDiSeen i t else s

/-- An uplink frame that passes its CRC while FLINK is up. -/
def State.uplinkFrame (s : State) (t : Nat) (f : BitVec 25) : State :=
  let bit := fun i => f.getLsbD i
  let s := if bit 23 then (if s.field.sto && s.safety.stoActive then s else s.stoDemandNow) else s.stoHealthy t
  let s := (s.cutSet (!bit 22)).sagSet (bit 5)
  let s := if s.inValid then forN 16 (fun i s => s.diSample t i (bit (6 + i))) s else s
  s.judgeFlt

/-- FLINK_UPLINK_FRAME: the next frame to start at a multiple of 250 ticks (R28). -/
def execFlinkUplinkFrame (frame : BitVec 25) (s : State) : Out :=
  if !s.linked then .next s
  else
    let t := max (s.field.lastUp + 250) (s.now / 250 * 250)
    let s := (s.reach t).onField fun f => { f with lastUp := t }
    if !flinkOk frame then .next ((s.inc16 pgFio FIO.FLINK_CRC).onField fun f => { f with recoverCnt := 0 })
    else if !s.field.flinkUp then .next (s.onField fun f => { f with recoverCnt := f.recoverCnt + 1 })
    else .next (s.uplinkFrame t frame)

/-- EDGE of an input asks for the event of this edge. -/
def diEdge (c : Cfg) (i : Nat) (rising : Bool) : Bool := bt (c pgFio (FIO.DI_CFG i)) (if rising then 8 else 9)

/-- The level of input i is accepted (R308): DEB consecutive valid samples have shown it. -/
def State.diAccept (s : State) (i : Nat) : State :=
  let d := s.di i
  if !s.linked || d.cnt == 0 || decide (d.cnt < fld (s.cf pgFio (FIO.DI_CFG i)) 31 16) then s
  else
    let s := s.onDi i fun x => { x with level := x.raw, cnt := 0, stale := false }
    if d.raw == d.level then s
    else
      let s := if diEdge s.force i d.raw then s.event pgFio (2 ^ (16 + i)) else s
      s.latchDi i d.first d.raw

/-! Link loss (R29). -/

/-- FLINK_LOST: outputs off on the field side, inputs invalid, a STOIN that is not heard counts as a demand. -/
def execFlinkLost (s : State) : Out :=
  if !s.linked || !s.field.flinkUp then .next s
  else
    let s := s.reach (s.field.lastUp + 1000)
    let s := s.onField fun f => { f with flinkUp := false, recoverCnt := 0, dnLast := none, dnApplied := none, outSince := s.now }
    let s := (((s.event pgFio 16).pfault pgFio 8).raise srcFlink 16).inputsLost
    let s := forN 16 (fun i s => s.onDi i fun d => { d with wire := false }) s
    let s := if s.field.sto && s.safety.stoActive then s else s.stoDemandNow
    .next s.judgeFlt

/-- FLINK_RECOVERED: after 1000 consecutive valid frames. -/
def execFlinkRecovered (s : State) : Out :=
  if !s.linked || s.field.flinkUp || decide (s.field.recoverCnt < 1000) then .next s
  else
    let s := s.onField fun f => { f with flinkUp := true, recoverCnt := 0, outSince := s.now }
    .next ((s.event pgFio 32).clearSrc srcFlink 16).judgeFlt

/-! Outputs (R311, R312). -/

/-- A function that claims output n, with the level it asks for (R189, R212, R279, R304). -/
def State.doClaim (s : State) (n : Nat) : Option Bool :=
  let c := s.force
  let ote := c pgSafe SAFE.OTE
  let rc := rescueCfg c
  match doBrakeAxis c n with
  | some a => some (!(s.ax a).sbc)
  | none =>
    if bt ote 4 ∧ fld ote 2 0 = n then some s.oteOn
    else if rescueEn c ∧ bt rc 27 ∧ fld rc 26 24 = n then some (s.rescue.sq == .done)
    else if cmpClaims c n then some (s.cmpDrives n)
    else none

/-- The bit that goes to output n. -/
def State.doBit (s : State) (n : Nat) : Bool :=
  bt (s.cf pgFio FIO.DO_CFG) n && !(s.fo n).retired && (s.doClaim n).getD (bt (s.lv pgFio FIO.DO_CMD) n)

/-- FLINK_DOWNLINK_FRAME: the bits of the next downlink frame. -/
def execFlinkDownlinkFrame (s : State) : Out :=
  if !s.linked then .next s
  else
    let t := max (s.field.lastDn + 250) (s.now / 250 * 250)
    let s := (s.reach t).onField fun f => { f with lastDn := t }
    let s := forN 8 (fun n s =>
      let b := s.doBit n
      s.onFo n fun o => if o.sent == b then o else { o with sent := b, change := t, lowRun := 0 }) s
    .next s.judgeFlt

/-- The field die drives output n (R311, R312). -/
def State.foDriven (s : State) (n : Nat) : Bool := (s.fo n).sent && s.inValid && !(s.fo n).thermalOff

/-- DO_THERMAL_OFF. -/
def execDoThermalOff (n : Fin 8) (s : State) : Out :=
  if !s.linked || !s.foDriven n.val then .next s
  else .next ((s.onFo n.val fun o => { o with thermalOff := true }).startT (.doRetry n.val) (s.now + msT 100))

/-- DO_THERMAL_RETRY: 100 ms after the switch-off. -/
def execDoThermalRetry (n : Fin 8) (s : State) : Out :=
  .next (s.expire (.doRetry n.val) fun s => s.onFo n.val fun o => { o with thermalOff := false })

/-- Readback of output n in one uplink word (R312). -/
def State.readDo (s : State) (n : Nat) (high : Bool) : State :=
  let s := s.onFo n fun o => { o with readback := high }
  if high then
    let s := s.onFo n fun o => { o with lowRun := 0 }
    if (s.fo n).retry then (s.backInService 7 n).onFo n fun o => { o with retry := false } else s
  else if !s.outJudged n then s.onFo n fun o => { o with lowRun := 0 }
  else
    let s := s.onFo n fun o => { o with lowRun := o.lowRun + 1 }
    if (s.fo n).lowRun = 2 ∧ !(s.fo n).retry ∧ !(s.fo n).retired then s.onset 7 n else s

/-! Auxiliary words (R307). -/

/-- A complete uplink word. -/
def State.upWord (s : State) (w : BitVec 64) : State :=
  let n := w.toNat
  let tpWas := s.field.tpFollowed
  let s := forN 16 (fun i s => s.onDi i fun d => { d with openWire := n.testBit (48 + i) }) s
  let s := s.onField fun f => { f with tpFollowed := BitVec.ofNat 2 (n / 2 ^ 38) }
  let s := s.setLv pgFio FIO.VF_MV (nw (n / 2 ^ 16 % 65536))
  let s := s.setLv pgFio FIO.FIELD_TEMP (nw ((BitVec.ofNat 8 (n / 256)).toInt * 16 % 65536).toNat)
  let s := forN 8 (fun k s => s.readDo k (n.testBit (40 + k))) s
  let s := forN 2 (fun tp s =>
    if tpWas.getLsbD tp && !n.testBit (38 + tp) then
      forN 8 (fun i s => if sinFunc s.force i ≠ 0 ∧ fld (sinCfg s.force i) 9 8 = tp + 1 then s.sinFault i else s) s
    else s) s
  s.judgeFlt

/-- A complete downlink word: applied with its second identical copy. -/
def State.downWord (s : State) (w : BitVec 64) : State :=
  if s.field.dnLast = some w then
    let s := s.onField fun f => { f with dnApplied := some w }
    forN 16 (fun i s => if w.getLsbD (32 + i) then s else s.onDi i fun d => { d with wire := false }) s
  else s.onField fun f => { f with dnLast := some w }

/-- FLINK_AUX_WORD. -/
def execFlinkAuxWord (down : Bool) (w : BitVec 64) (s : State) : Out :=
  if !s.linked || !s.field.flinkUp then .next s else .next (if down then s.downWord w else s.upWord w)

/-- The field die watches input i for a broken wire (R307, R310). -/
def State.wireWatched (s : State) (i : Nat) : Bool :=
  match s.field.dnApplied with
  | some w => w.getLsbD (32 + i)
  | none => false

/-- OPEN_WIRE_SET: the bit goes to the control die with the next uplink word. -/
def execOpenWireSet (di : Fin 16) (s : State) : Out :=
  if s.linked && s.wireWatched di.val then .next (s.onDi di.val fun d => { d with wire := true }) else .next s

/-- OPEN_WIRE_CLEAR. -/
def execOpenWireClear (di : Fin 16) (s : State) : Out :=
  if s.linked then .next (s.onDi di.val fun d => { d with wire := false }) else .next s

/-! View. -/

/-- FIO.STATUS (Table 12-8). -/
def State.fioStatus (s : State) : Word :=
  let f := s.field
  nw (bitAt 10 f.flinkUp + bitAt 9 f.cut + bitAt 8 f.sag + bitAt 7 s.inValid + bitAt 6 s.inValid + bitAt 0 f.flt)

/-- FIO page as it reads where it shows the field I/O. -/
def State.viewFio (s : State) (o : Nat) : Option Word :=
  let ins := fun (g : Nat → Bool) => nw ((List.range 16).map fun i => bitAt i (g i)).sum
  let outs := fun (g : Nat → Bool) => nw ((List.range 8).map fun i => bitAt i (g i)).sum
  if o = pageStatus ∨ o = FIO.STATUS then some s.fioStatus
  else if o = FIO.DI_STATE then some (ins s.diOn)
  else if o = FIO.DI_RAW then some (ins fun i => (s.di i).raw)
  else if o = FIO.DI_OPEN then some (ins fun i => (s.di i).openWire)
  else if o = FIO.DO_STATE then some (outs fun n => (s.fo n).sent)
  else if o = FIO.DO_READBACK then some (outs fun n => (s.fo n).readback)
  else none

end Sys2Proof.Machine
end

