-- ==== Sys2Proof/Machine/Hoist.lean ====
section
/-!
DEFINITION. Share groups (R204 to R209) and the overvoltage ladder (R220, R221), with the HOIST page as it reads.
-/
namespace Sys2Proof.Machine

/-! Share groups. -/

/-- MISS_MAX, LOSS_N and STAT_DIV of group g. -/
def missMax (c : Cfg) (g : Nat) : Nat := fld (shareCfg c g) 23 16
/-- LOSS_N. -/
def lossN (c : Cfg) (g : Nat) : Nat := fld (c pgHoist (HOIST.STAT_CFG g)) 15 8
/-- STAT_DIV. -/
def statDiv (c : Cfg) (g : Nat) : Nat := fld (c pgHoist (HOIST.STAT_CFG g)) 7 0

/-- CRC-16 over the slot table, GROUP_T_FS and FRAME_LEN (R208). -/
def slotCrc (c : Cfg) (g : Nat) : BitVec 16 :=
  let ws := (List.range 32).map (slotW c g) ++ [c pgHoist (HOIST.GROUP_T_FS g), nw (frameLen c)]
  BitVec.ofNat 16 (crc16 (byteBits (wordsBytes ws)))

/-- Slots of a list as a bitmap. -/
def slotMap (l : List Nat) : BitVec 32 := BitVec.ofNat 32 (l.map fun i => 2 ^ i).sum

/-- Local slots whose axis is in RUN or DEGRADED. -/
def State.localRun (s : State) (g : Nat) : BitVec 32 :=
  slotMap ((slotsLocal s.force g).filter fun i => (s.ax (slotAxis s.force g i)).state.runs)

/-- PRESENT as the leader or a local group forms it (R208). -/
def State.presentOf (s : State) (g : Nat) : BitVec 32 :=
  let c := s.force
  slotMap ((slotsUsed c g).filter fun i =>
    if slotNode c g i = nodeNo c then (s.localRun g).getLsbD i
    else (s.sh g).nodes.any fun n =>
      n.1 == slotNode c g i && decide (n.2.1 < lossN c g * statDiv c g) && n.2.2.1.getLsbD i && n.2.2.2)

/-- SHARE_MISMATCH on the local members (R207, R209). -/
def State.shareMismatch (s : State) (g : Nat) (on : Bool) : State :=
  let was := (s.sh g).mismatch
  let s := s.onSh g fun x => { x with mismatch := on }
  if on && !was then forL (shareAxes s.force g) (fun a s => s.raise srcShareMis a) (s.pfault pgHoist (2 ^ (6 + g)))
  else if was && !on then forL (shareAxes s.force g) (fun a s => s.clearSrc srcShareMis a) s
  else s

/-- A total and PRESENT are applied (R206, R208, R209). -/
def State.applyShare (s : State) (g : Nat) (t : Int) (present : BitVec 32) : State :=
  let c := s.force
  let x := s.sh g
  let wAll := ((slotsUsed c g).map (slotWeight c g)).sum
  let low := decide (weightSum c g present * 256 < fld (shareCfg c g) 31 24 * wAll)
  let s := if present != x.present then s.event pgHoist (2 ^ (8 + g)) else s
  let s := if low && x.applied && !x.capLow then
      forL (shareAxes c g) (fun a s => s.raise srcShareCap a) (s.pfault pgHoist (2 ^ (10 + g)))
    else if low then s
    else forL (shareAxes c g) (fun a s => s.clearSrc srcShareCap a) s
  s.onSh g fun x => { x with tTot := t, present := present, applied := true, capLow := low, holding := false, missRun := 0 }

/-- A valid reference ends the loss of the leader. -/
def State.leaderHeard (s : State) (g : Nat) : State := forL (shareAxes s.force g) (fun a s => s.clearSrc srcShareLeader a) s

/-- No valid reference for this frame (R207). -/
def State.shareMiss (s : State) (g : Nat) : State :=
  let s := s.onSh g fun x => { x with missRun := x.missRun + 1, holding := true }
  let s := s.incHalf pgHoist (HOIST.REF_COUNT g) false
  if missMax s.force g ≤ (s.sh g).missRun ∧ !(shareAxes s.force g).any (s.srcOn srcShareLeader) then
    forL (shareAxes s.force g) (fun a s => s.raise srcShareLeader a) (s.pfault pgHoist (2 ^ (8 + g)))
  else s

/-- A stamp names the boundary at tick b: it is nearest to that boundary's network time. -/
def State.stampIs (s : State) (stamp b : Nat) : Bool :=
  decide ((2 * ((stamp : Int) - s.ntAt b)).natAbs < 4 * frameLen s.force)

/-- Local slots of a group as SHARE_STAT reports them: absent while the table disagrees (R209). -/
def State.statSlots (s : State) (g : Nat) : BitVec 32 := if (s.sh g).mismatch then 0 else s.localRun g

/-- Messages of a group that fall due at B_k + 32: SHARE_REF (total, PRESENT, stamp, sequence) and SHARE_STAT (R205, R208). -/
structure ShareOut where
  ref : Option (Int × BitVec 32 × Nat × BitVec 16)
  stat : Bool
  deriving DecidableEq, Repr

/-- A share group at B_k + 32 (R205, R207, R208). -/
def State.sharePublish (s : State) (g : Nat) : State × ShareOut :=
  let c := s.force
  if !shareEn c g then (s, { ref := none, stat := false })
  else
    let total := s.signal (fld (c pgHoist (HOIST.SRC g)) 15 0)
    if !shareNet c g then (s.applyShare g total (s.presentOf g), { ref := none, stat := false })
    else
      let run := s.localRun g
      let x := s.sh g
      let s := s.onSh g fun x => { x with nodes := x.nodes.map fun n => (n.1, n.2.1 + 1, n.2.2), statFrames := x.statFrames + 1 }
      let stat := !(slotsLocal c g).isEmpty && (run != x.lastMask || decide (statDiv c g ≤ x.statFrames + 1))
      let s := s.onSh g fun x => { x with lastMask := run, statFrames := if stat then 0 else x.statFrames }
      let b1 := s.time.frameStart + s.time.curLen
      let (s, ref) :=
        if shareLeader c g then
          let stamp := (s.ntAt (b1 + s.time.nextLen)).toNat
          let present := s.presentOf g
          let sq := x.sq + 1
          (s.onSh g fun x => { x with sq := sq, refs := x.refs ++ [(stamp, total, present)] }, some (total, present, stamp, sq))
        else (s, none)
      let s := match (s.sh g).refs.find? fun r => s.stampIs r.1 b1 with
        | some (_, t, p) => (s.applyShare g t p).leaderHeard g
        | none => s.shareMiss g
      (s.onSh g fun x => { x with refs := x.refs.filter fun r => decide (s.ntAt b1 < (r.1 : Int)) && !s.stampIs r.1 b1 },
        { ref := ref, stat := stat })

/-- The group of a GROUP_ID on a port. -/
def groupOf (c : Cfg) (port : Nat) (id : Byte) : Option Nat :=
  (List.range 2).find? fun g =>
    shareEn c g && shareNet c g && fld (shareCfg c g) 11 8 == id.toNat && (bt (shareCfg c g) 4).toNat == port

/-- SHARE_REF (R205, R207): one that comes through a bridge is ignored. -/
def execShareRef (port : PortIx) (node : BitVec 10) (group : Byte) (tTot present : Word) (stamp : BitVec 64) (sq : BitVec 16)
    (bridged : Bool) (s : State) : Out :=
  let c := s.force
  if !s.up || bridged || !bilvaEn c port.val || node.toNat == nodeNo c then .next s
  else match groupOf c port.val group with
    | none => .next s
    | some g =>
      let x := s.sh g
      let two := match x.leaderNode with
        | some n => n != node.toNat
        | none => false
      let s := if shareLeader c g || two then s.shareMismatch g true else s
      let s := s.onSh g fun x => { x with leaderNode := some node.toNat, sq := sq }
      let b1 := s.time.frameStart + s.time.curLen
      let late := if s.time.published then s.stampIs stamp.toNat b1 || decide ((stamp.toNat : Int) < s.ntAt b1)
        else decide ((stamp.toNat : Int) < s.ntAt b1) && !s.stampIs stamp.toNat b1
      if late then .next (s.incHalf pgHoist (HOIST.REF_COUNT g) true)
      else .next (s.onSh g fun x => { x with refs := x.refs ++ [(stamp.toNat, tTot.toInt, present)] })

/-- SHARE_STAT (R208, R209): the leader's view of a node; a member compares its CRC with the leader's. -/
def execShareStat (port : PortIx) (node : BitVec 10) (group : Byte) (slots : Word) (crc : BitVec 16) (s : State) : Out :=
  let c := s.force
  if !s.up || !bilvaEn c port.val || node.toNat == nodeNo c then .next s
  else match groupOf c port.val group with
    | none => .next s
    | some g =>
      let ok := crc == slotCrc c g
      if shareLeader c g then
        .next (s.onSh g fun x => { x with nodes := (node.toNat, 0, slots, ok) :: x.nodes.filter fun n => n.1 ≠ node.toNat })
      else if (s.sh g).leaderNode = some node.toNat then .next (s.shareMismatch g (!ok))
      else .next s

/-! Ladder. -/

/-- ASC_SPEED of axis a. -/
def ascSpeed (c : Cfg) (a : Nat) : Nat := (c pgHoist (HOIST.ASC_SPEED a)).toNat

/-- A step is entered: LADDER_STEP and an entry at INFO class (R221). -/
def State.ladderStep (s : State) (a n : Nat) : State :=
  (((s.onAx a fun x => { x with ladder := n }).setLastSrc a srcChop).event pgHoist 0x8000).logAdd 12 clsInfo 0 n (nw a)

/-- The axis qualifies for active short circuit. -/
def State.ascQualifies (s : State) (a : Nat) : Bool :=
  axComm s.force a == 1 && axNat s.force a AXIS.PSI != 0 && decide ((s.axSpeed a).natAbs ≤ ascSpeed s.force a)

/-- The reaction in force is weaker than r. -/
def State.weaker (s : State) (a : Nat) (r : React) : Bool :=
  match (s.ax a).react with
  | some q => decide (q.rank < r.rank)
  | none => true

/-- The ladder of axis a at a boundary (R220, R221). -/
def State.ladderBoundary (s : State) (a : Nat) : State :=
  let c := s.force
  let n := ladSteps c a
  let x := s.ax a
  let udc := s.udcMv a
  let s :=
    if !s.chop.judged || !x.state.moving then
      let s := if x.ladder = 1 then s.onAx a fun x => { x with ladder := 0 } else s
      if x.react = some .regenClamp then s.onAx a fun x => { x with react := none } else s
    else
      let asc := decide (2 ≤ n) && decide ((ovAsc c : Int) < udc)
      if asc && s.ascQualifies a && s.weaker a .asc then
        let s := s.ladderStep a 2
        let s := s.onAx a fun x => { x with state := .fault, faulty := true, ss1 := none, asc := true, react := some .asc, stopToReady := false,
                                            settling := false, sub := false }
        let s := s.stopT (.ss1 a)
        if axHoist c a then s.sbcIssue a else s
      else if n = 3 ∧ ((ovSto c : Int) < udc ∨ (asc && !s.ascQualifies a)) ∧ s.weaker a .ss1Sbc then
        let running := x.ss1.isSome
        let s := ((s.ladderStep a 3).sbcIssue a).onAx a fun x => { x with faulty := true, react := some .ss1Sbc }
        if running then s else s.ss1Start a (msT (fld (c pgHoist (HOIST.LADDER a)) 31 16))
      else if 1 ≤ n ∧ x.ladder = 0 ∧ (x.react = none ∨ x.react = some .degraded) then
        let s := s.ladderStep a 1
        if x.react = none then s.onAx a fun x => { x with react := some .regenClamp } else s
      else s
  if (s.ax a).asc then
    if 100 * (s.axSpeed a).natAbs < ascSpeed c a then
      if (s.due (.ascRelease a)).isSome then s else s.startT (.ascRelease a) (s.now + msT 100)
    else s.stopT (.ascRelease a)
  else s

/-- ASC_RELEASE (R221): the gates of an axis in active short circuit are removed. -/
def execAscRelease (axis : AxisIx) (s : State) : Out :=
  let a := axis.val
  .next (s.expire (.ascRelease a) fun s =>
    if (s.ax a).asc then (s.gatesOff a).onAx a fun x => { x with asc := false, sto := true } else s)

/-! View. -/

/-- SHARE_STATUS of group g. -/
def State.shareStatus (s : State) (g : Nat) : Word :=
  let x := s.sh g
  let sat := (shareAxes s.force g).any fun a => bt (s.lv (pgAxis a) pageStatus) 9
  let cnt := ((List.range 32).filter fun i => x.present.getLsbD i).length
  nw (cnt * 65536 + bitAt 7 (shareEn s.force g && sat) + bitAt 6 x.mismatch + bitAt 5 x.capLow + bitAt 4 x.holding
    + bitAt 0 (shareEn s.force g && x.applied))

/-- HOIST page as it reads where it shows the units above. -/
def State.viewHoist (s : State) (o : Nat) : Option Word :=
  if o = pageStatus ∨ o = HOIST.RESCUE_STATUS then some s.rescueStatus
  else if o = HOIST.RESCUE_TIME then some (if s.rescue.sq = .idle then 0 else nw ((s.now - s.rescue.start) / 250000))
  else if o = HOIST.LADDER_STATUS then
    some (nw (bitAt 16 s.chop.judged + ((List.range 8).map fun a => (s.ax a).ladder * 4 ^ a).sum))
  else if o = HOIST.SHARE_STATUS 0 then some (s.shareStatus 0)
  else if o = HOIST.SHARE_STATUS 1 then some (s.shareStatus 1)
  else if o = HOIST.PRESENT 0 then some (s.sh 0).present
  else if o = HOIST.PRESENT 1 then some (s.sh 1).present
  else if o = HOIST.T_TOT 0 then some (iw (s.sh 0).tTot)
  else if o = HOIST.T_TOT 1 then some (iw (s.sh 1).tTot)
  else none

end Sys2Proof.Machine
end

