-- ==== Sys2Proof/Machine/Can.lean ====
section
/-!
DEFINITION. The CAN FD ports (R341 to R351): records, the receive window, transmission, error states, and what Bilva takes from and gives
to a port (R352 to R355).
-/
namespace Sys2Proof.Machine

/-! Frames and records. -/

/-- Data bytes of a DLC: of an FD frame, or of a classical one. -/
def dlcBytes (fdf : Bool) (dlc : Nat) : Nat := if fdf then [0, 1, 2, 3, 4, 5, 6, 7, 8, 12, 16, 20, 24, 32, 48, 64].getD dlc 0 else min dlc 8

/-- The DLC of an FD length. -/
def dlcOf (n : Nat) : Nat := ([0, 1, 2, 3, 4, 5, 6, 7, 8, 12, 16, 20, 24, 32, 48, 64].findIdx? (n ≤ ·)).getD 15

/-- The record of Table 14-2: words 1 and 2 as the port writes them. -/
def recordOf (f : CanFrame) (w1hi tick : Nat) (bilva : Bool) : List Word :=
  let n := if bt f.word0 30 then 0 else dlcBytes f.fdf f.dlc.toNat
  let b := f.data.take n
  [putBt f.word0 31 false, nw (w1hi * 2 ^ 16 + bitAt 8 bilva + bitAt 6 f.esi + bitAt 5 f.brs + bitAt 4 f.fdf + f.dlc.toNat), nw tick, 0]
    ++ (List.range 16).map fun i => bytesWord ((b.drop (4 * i)).take 4)

/-- The frame of a transmit record. -/
def frameOf (ws : List Word) : CanFrame :=
  let w1 := ws.getD 1 0
  let fdf := bt w1 4
  let dlc := fld w1 3 0
  { word0 := putBt (ws.getD 0 0) 31 false, esi := bt w1 6, brs := bt w1 5, fdf := fdf, dlc := BitVec.ofNat 4 dlc
    data := (wordsBytes (ws.drop 4)).take (dlcBytes fdf dlc) }

/-- Identifier for arbitration: an 11-bit one compares in [28:18] (R347). -/
def idKey (w0 : Word) : Nat := fld w0 28 0

/-- Byte address of receive slot i, and of transmit buffer b, of port p. -/
def rxAddr (p i : Nat) : Nat := 0x300000 + p * 0x2800 + 80 * i
/-- Transmit buffer b of port p. -/
def txAddr (p b : Nat) : Nat := 0x305000 + p * 0x500 + 80 * b

/-- Slots of the receive window. -/
def rxWin (c : Cfg) (p : Nat) : Nat := fld (c (pgCan p) CAN.RX_WIN) 7 0

/-- Port p takes part in the bus. -/
def State.canOn (s : State) (p : Nat) : Bool := s.up && canEn s.force p && !(s.cn p).retired && !(s.cn p).busOff

/-- The tracing unit sees a frame received or sent on port p (Table 16-4, KIND 2). -/
def State.traceCan (s : State) (p : Nat) (f : CanFrame) : State :=
  s.traceKind 2 s.now fun u tu =>
    let r := fun o => s.cf pgTrace (o u)
    let ofs := fld tu 21 16
    let w := bytesWord ((f.data.drop ofs).take 4)
    fld tu 7 0 == p && (putBt f.word0 31 false ^^^ r TRACE.TU_A) &&& r TRACE.TU_B == 0
      && (if f.data.length < ofs + 4 then r TRACE.TU_D == 0 else (w ^^^ r TRACE.TU_C) &&& r TRACE.TU_D == 0)

/-! Reception (R345, R346). -/

/-- A frame is lost for want of a slot. -/
def State.rxOverflow (s : State) (p : Nat) : State := (s.inc16 (pgCan p) CAN.RX_OVERFLOW).event (pgCan p) 64

/-- A record is written into slot i, which is then the newest unread slot. -/
def State.rxPut (s : State) (p i : Nat) (ws : List Word) : State :=
  (s.putWords (rxAddr p i) ws).onCn p fun x => { x with unread := x.unread.filter (· ≠ i) ++ [i], nextSlot := (i + 1) % rxWin s.force p }

/-- A record goes to the receive window (R346). -/
def State.rxWindow (s : State) (p : Nat) (ws : List Word) : State :=
  let x := s.cn p
  let i := x.nextSlot % max 1 (rxWin s.force p)
  if !x.unread.contains i then (s.rxPut p i ws).event (pgCan p) 16
  else
    let s := s.rxOverflow p
    if !bt (canCfg s.force p) 11 then s
    else match x.unread.find? fun j => !x.locks.any (·.1 = j) with
      | some j => (s.rxPut p j ws).event (pgCan p) 16
      | none => s

/-- A record goes to a DMA channel, whose line holds one (R382). -/
def State.rxDma (s : State) (p : Nat) (only : Bool) (ws : List Word) : State :=
  let ch := fld (canCfg s.force p) 21 16
  if (s.dm ch).record.isSome then (if only then s.rxOverflow p else s)
  else (s.onDm ch fun d => { d with record := some ws }).event (pgCan p) 16

/-- A frame is delivered under RX_ROUTE (R345). -/
def State.deliver (s : State) (p : Nat) (f : CanFrame) (bilva : Bool) : State :=
  let n := (s.cn p).sqNo
  let s := s.onCn p fun x => { x with sqNo := x.sqNo + 1 }
  let ws := recordOf f n.toNat s.now bilva
  match fld (canCfg s.force p) 10 9 with
  | 0 => s.rxWindow p ws
  | 1 => s.rxDma p true ws
  | 2 => (s.rxWindow p ws).rxDma p false ws
  | _ => s

/-! Bilva frames (R352 to R355). -/

/-- Fields of a Bilva identifier: node, type, sub-field. -/
def bNode (w0 : Word) : Nat := fld w0 25 16
/-- Type. -/
def bType (w0 : Word) : Nat := fld w0 15 8

/-- Length of a defined type (Table 14-3); none for one that is not defined. -/
def bLenOk (t n : Nat) : Bool :=
  match t with
  | 0x01 => n == 0
  | 0x02 => n == 12
  | 0x03 => n == 1
  | 0x10 => n == 20
  | 0x11 => n == 8
  | 0x20 => n == 12
  | 0x21 => n == 4
  | 0x22 => n == 8
  | 0x30 => decide (8 ≤ n)
  | _ => decide (0x80 ≤ t)

/-- Types a bridge forwards (Table 14-3, R355). -/
def bForwards (c : Cfg) (t : Nat) : Bool :=
  let w := c pgBilva BILVA.CFG
  t == 0x03 || t == 0x20 || t == 0x21 || t == 0x22 || (t == 0x30 && bt w 10) || (decide (0x80 ≤ t) && bt w 11)

/-- NODE_CONFLICT (R353). -/
def State.nodeConflict (s : State) : State := ((s.event pgBilva 1).pfault pgBilva 1).raise srcNodeConf 16

/-- A frame waits to be forwarded to port q: of 64 the oldest goes (R355). -/
def State.toForward (s : State) (q : Nat) (f : CanFrame) : State :=
  let full := decide (64 ≤ (s.cn q).fwdQ.length)
  let s := s.onCn q fun x => { x with fwdQ := (if full then x.fwdQ.drop 1 else x.fwdQ) ++ [f] }
  if full then (s.inc16 pgBilva BILVA.FWD_DROP).event pgBilva 4 else s

/-- A frame taken by Bilva on port p; what a message does is its own command. -/
def State.bilvaTake (s : State) (p : Nat) (f : CanFrame) : State :=
  let c := s.force
  let t := bType f.word0
  if bNode f.word0 = nodeNo c then s.nodeConflict
  else if !bLenOk t f.data.length then (s.inc16 pgBilva BILVA.BAD_COUNT).event pgBilva 2
  else
    let s := if bridgeEn c && bForwards c t then s.toForward (1 - p) f else s
    if bt (c pgBilva BILVA.CFG) 9 then s.deliver p f true else s

/-- A valid frame of the bus, as a node that takes part in it receives it. -/
def State.canReceive (s : State) (p : Nat) (f : CanFrame) : State :=
  let c := s.force
  let s := s.onCn p fun x => { x with integrating := false }
  let s := s.onLv (pgCan p) CAN.FRAME_COUNT fun w => nw (fld w 31 16 * 65536 + (fld w 15 0 + 1) % 65536)
  let s := s.traceCan p f
  if bilvaEn c p && bt f.word0 29 && f.fdf then s.bilvaTake p f else s.deliver p f false

/-- CAN_FRAME_RECEIVED. -/
def execCanFrameReceived (port : PortIx) (f : CanFrame) (s : State) : Out :=
  let p := port.val
  if !s.canOn p || (f.fdf && !canFd s.force p) then .next s else .next (s.canReceive p f)

/-! Locks (R346). -/

/-- A reader reads word 0 of a slot. -/
def State.rxLock (s : State) (p i : Nat) (r : Reader) : State :=
  let x := s.cn p
  let held := x.locks.find? fun l => l.2 = r
  let s := match held with
    | some l => if l.1 = i then s else s.onCn p fun x => { x with locks := x.locks.filter fun l => l.2 ≠ r }
    | none => s
  let x := s.cn p
  if x.unread.contains i && !x.locks.any (·.1 = i) then s.onCn p fun x => { x with locks := x.locks ++ [(i, r)] } else s

/-- A reader reads word 19 of a slot. -/
def State.rxRelease (s : State) (p i : Nat) (r : Reader) : State :=
  if (s.cn p).locks.contains (i, r) then
    s.onCn p fun x => { x with locks := x.locks.filter (· ≠ (i, r)), unread := x.unread.filter (· ≠ i) }
  else s

/-- RX_SLOT_LOCK. -/
def execRxSlotLock (port : PortIx) (slot : Fin 128) (reader : Reader) (s : State) : Out :=
  if s.up && decide (slot.val < rxWin s.force port.val) then .next (s.rxLock port.val slot.val reader) else .next s

/-- RX_SLOT_RELEASE. -/
def execRxSlotRelease (port : PortIx) (slot : Fin 128) (reader : Reader) (s : State) : Out :=
  if s.up then .next (s.rxRelease port.val slot.val reader) else .next s

/-- What a read of a word of message memory does to a slot of the receive windows. -/
def State.msgRead (s : State) (a : Nat) (r : Reader) : State :=
  if a < 0x300000 ∨ 0x305000 ≤ a then s
  else
    let p := (a - 0x300000) / 0x2800
    let o := (a - 0x300000) % 0x2800
    let i := o / 80
    if rxWin s.force p ≤ i then s
    else if o % 80 = 0 then s.rxLock p i r
    else if o % 80 = 76 then s.rxRelease p i r
    else s

/-! Transmission (R347 to R349). -/

/-- The record of transmit buffer b of port p. -/
def State.txRecord (s : State) (p b : Nat) : List Word := s.wordsAt (txAddr p b) 20

/-- A record is a Bilva frame of the host (R348). -/
def hostBilva (c : Cfg) (p : Nat) (ws : List Word) : Bool := bilvaEn c p && bt (ws.getD 0 0) 29 && bt (ws.getD 1 0) 4

/-- Why a request is refused (R347 to R349). -/
def State.txFail (s : State) (p b : Nat) : Option Nat :=
  let c := s.force
  let ws := s.txRecord p b
  let w1 := ws.getD 1 0
  let mode := canMode c p
  if mode = 1 ∨ mode = 2 then some eState
  else if (bt w1 4 && !canFd c p) || (!bt w1 4 && decide (8 < fld w1 3 0)) || (bt w1 4 && bt (ws.getD 0 0) 30) then some eRange
  else if hostBilva c p ws && decide (bType (ws.getD 0 0) < 0x80) then some eRange
  else none

/-- The frame that buffer b sends: BRS only with BRS_EN; an application frame carries the device's own node number (R341, R348). -/
def State.txFrame (s : State) (p b : Nat) : CanFrame :=
  let ws := s.txRecord p b
  let f := frameOf ws
  let f := { f with brs := f.brs && bt (canCfg s.force p) 4, esi := (s.cn p).passive }
  if hostBilva s.force p ws then { f with word0 := putFld f.word0 25 16 (nodeNo s.force) } else f

/-- Frames waiting on port p: identifier, and buffer b or 16 + position in the Bilva queue. -/
def State.txWaiting (s : State) (p : Nat) : List (Nat × Nat) :=
  ((List.range 16).filter fun b => (s.cn p).txReq.getLsbD b).map (fun b => (idKey (s.txFrame p b).word0, b))
    ++ (s.cn p).bilva.mapIdx fun i f => (idKey f.f.word0, 16 + i)

/-- The frame that wins the arbitration: the lowest identifier, equal ones in buffer order. -/
def State.txWinner (s : State) (p : Nat) : Option Nat :=
  ((s.txWaiting p).foldl (fun best x =>
    match best with
    | none => some x
    | some y => if x.1 < y.1 then some x else some y) none).map (·.2)

/-- Arbitration of the next host frame begins, where none runs and a host frame wins. -/
def State.txStart (s : State) (p : Nat) : State :=
  if !s.canOn p ∨ (s.cn p).sending.isSome then s
  else match s.txWinner p with
    | some k => if h : k < 16 then s.onCn p fun x => { x with sending := some ⟨k, h⟩ } else s
    | none => s

/-- A write of 1s to TX_REQ (R347). -/
def State.canTxReq (s : State) (m : Master) (p : Nat) (v : Word) : State :=
  (forN 16 (fun b s =>
    if !bt v b then s
    else match s.txFail p b with
      | some e => s.refuseBy m e 0 (regAddr (pgCan p) CAN.TX_REQ)
      | none => s.onCn p fun x => { x with txReq := x.txReq ||| BitVec.ofNat 16 (2 ^ b) }) s).txStart p

/-- A write of 1s to TX_ABORT. -/
def State.canTxAbort (s : State) (p : Nat) (v : Word) : State :=
  s.onCn p fun x =>
    let keep := match x.sending with
      | some b => BitVec.ofNat 16 (2 ^ b.val)
      | none => 0
    { x with txReq := x.txReq &&& (~~~(v.extractLsb' 0 16) ||| keep) }

/-- CAN_TX_REQUEST. -/
def execCanTxRequest (port : PortIx) (v : Word) (s : State) : Out :=
  if s.up then .next ((s.touch .host).canTxReq .host port.val v) else .next s

/-- CAN_TX_ABORT. -/
def execCanTxAbort (port : PortIx) (v : Word) (s : State) : Out :=
  if s.up then .next ((s.touch .host).canTxAbort port.val v) else .next s

/-- A Bilva frame of this device joins the queue of port p; nothing goes out on a port that only listens (R349). -/
def State.bilvaSend (s : State) (p prio type sub : Nat) (data : List Byte) (sync : Option Byte) : State :=
  let c := s.force
  if !bilvaEn c p || !canEn c p || (s.cn p).retired || canMode c p == 1 || canMode c p == 2 then s
  else
    let w0 := nw (2 ^ 29 + prio * 2 ^ 26 + nodeNo c * 2 ^ 16 + type * 2 ^ 8 + sub % 256)
    let f : CanFrame := { word0 := w0, esi := (s.cn p).passive, brs := bt (canCfg c p) 4, fdf := true,
                          dlc := BitVec.ofNat 4 (dlcOf data.length), data := data }
    s.onCn p fun x => { x with bilva := x.bilva ++ [{ f := f, fwd := false, sync := sync }] }

/-- Little-endian bytes of a number. -/
def leBytes (n v : Nat) : List Byte := (List.range n).map fun i => BitVec.ofNat 8 (v / 2 ^ (8 * i))

/-- FOLLOW_UP to the SYNC of sequence q on port p, whose frame ended at tick t (R359, R364). -/
def State.sendFollowUp (s : State) (p : Nat) (q : Byte) (t : Nat) : State :=
  let x := s.time
  let gm := x.nt = .grandmaster
  let gmNode := if gm then nodeNo s.force else x.gm.toNat
  let hops := if gm then 0 else x.hops.toNat + 1
  s.bilvaSend p 1 0x02 q.toNat
    (leBytes 8 (s.ntAt t).toNat ++ leBytes 2 gmNode ++ leBytes 1 hops ++ leBytes 1 x.stepGen.toNat) none

/-- CAN_TX_DONE: the frame in arbitration, or the winner, completes. -/
def execCanTxDone (port : PortIx) (tdc : Byte) (s : State) : Out :=
  let p := port.val
  let k := match (s.cn p).sending with
    | some b => some b.val
    | none => s.txWinner p
  match k with
  | none => .next s
  | some k =>
    if !s.canOn p then .next s
    else
      let c := s.force
      let q := (s.cn p).bilva.getD (k - 16) { f := s.txFrame p k }
      let f := if k < 16 then s.txFrame p k else q.f
      let s := s.onLv (pgCan p) CAN.FRAME_COUNT fun w => nw ((fld w 31 16 + 1) % 65536 * 65536 + fld w 15 0)
      let s := if bt (canCfg c p) 6 && f.fdf then s.setLv (pgCan p) CAN.TDC_MEAS (nw tdc.toNat) else s
      let s := s.traceCan p f
      let s := s.onCn p fun x => { x with sending := none }
      let s :=
        if k < 16 then
          ((s.onCn p fun x => { x with txReq := x.txReq &&& ~~~(BitVec.ofNat 16 (2 ^ k)) }).onLv (pgCan p) CAN.TX_DONE
            fun w => w ||| nw (2 ^ k)).event (pgCan p) 32
        else
          let s := s.onCn p fun x => { x with bilva := x.bilva.eraseIdx (k - 16) }
          let s := if q.fwd then s.onLv pgBilva BILVA.FWD_COUNT fun w =>
              if p = 1 then nw ((fld w 31 16 + 1) % 65536 * 65536 + fld w 15 0) else nw (fld w 31 16 * 65536 + (fld w 15 0 + 1) % 65536)
            else s
          match q.sync with
          | some n => s.sendFollowUp p n s.now
          | none => s
      let s := if canMode c p = 3 then s.canReceive p f else s
      .next (s.txStart p)

/-! Fault confinement (R350, R351). -/

/-- Error state of a port: 0 active, 1 passive, 2 bus-off. -/
def CanSt.errState (x : CanSt) : Nat := if x.busOff then 2 else if x.passive then 1 else 0

/-- Bus-off is entered: an onset of class 0x06; under HOST the retry window waits for RECOVER. -/
def State.canOff (s : State) (p : Nat) : State :=
  if (s.cn p).busOff then s
  else
    let auto := !bt (canCfg s.force p) 8
    let s := s.onCn p fun x => { x with busOff := true, passive := true, recovering := auto, sending := none }
    (((s.event (pgCan p) 4).pfault (pgCan p) 1).raise srcBusoff 16).onsetWith 6 p auto

/-- CAN_BUSOFF. -/
def execCanBusoff (port : PortIx) (s : State) : Out :=
  let p := port.val
  if !s.canOn p then .next s else .next ((s.onCn p fun x => { x with tec := max x.tec 256 }).canOff p)

/-- CAN_BUS_ERROR: the counters as the error leaves them, or bus integration under PEX_EN. RESTRICTED and MONITOR leave the counters
(R349); SINGLE_SHOT does not repeat the frame (R341). -/
def execCanBusError (port : PortIx) (tec : BitVec 9) (rec : Byte) (integ : Bool) (s : State) : Out :=
  let p := port.val
  let cfg := canCfg s.force p
  let mode := canMode s.force p
  if !s.canOn p then .next s
  else if integ && bt cfg 5 then .next (s.onCn p fun x => { x with integrating := true, sending := none })
  else if mode = 1 ∨ mode = 2 then .next s
  else
    let x := s.cn p
    let t := tec.toNat
    let r := rec.toNat
    let warn := decide (96 ≤ t ∨ 96 ≤ r) && !decide (96 ≤ x.tec ∨ 96 ≤ x.recErr)
    let passive := decide (128 ≤ t ∨ 128 ≤ r)
    let s := if warn then s.event (pgCan p) 1 else s
    let s := if passive && !x.passive then s.event (pgCan p) 2 else s
    let s := s.onCn p fun x => { x with tec := t, recErr := r, passive := passive }
    let s := match x.sending with
      | some b => if bt cfg 7 then s.onCn p fun x => { x with sending := none, txReq := x.txReq &&& ~~~(BitVec.ofNat 16 (2 ^ b.val)) } else s
      | none => s
    .next (if 255 < t then s.canOff p else s)

/-- RECOVER is written (R350, R351): under HOST recovery the sequence starts and with it the retry window. -/
def State.canRecover (s : State) (p : Nat) : State :=
  let x := s.cn p
  if x.busOff && !x.recovering && !x.retired && bt (canCfg s.force p) 8 then
    (s.onCn p fun x => { x with recovering := true }).onChan 6 p fun c => { c with retry := some (s.now + retryWin s.force) }
  else s

/-- CAN_RECOVER. -/
def execCanRecover (port : PortIx) (s : State) : Out := if s.up then .next ((s.touch .host).canRecover port.val) else .next s

/-- CAN_RECOVERED: 128 occurrences of 11 recessive bits. -/
def execCanRecovered (port : PortIx) (s : State) : Out :=
  let p := port.val
  if !s.up || !(s.cn p).recovering || (s.cn p).retired then .next s
  else
    let s := s.onCn p fun x => { x with busOff := false, recovering := false, passive := false, tec := 0, recErr := 0 }
    let s := (s.event (pgCan p) 8).backInService 6 p
    let s := if (s.cn 0).busOff || (s.cn 1).busOff then s else s.clearSrc srcBusoff 16
    .next (s.txStart p)

/-! Forwarding. -/

/-- BILVA_FORWARD: the oldest frame that waits for a port joins its queue, while the item "Bilva bridging" may run (R355). -/
def execBilvaForward (port : PortIx) (s : State) : Out :=
  let p := port.val
  match (s.cn p).fwdQ with
  | [] => .next s
  | f :: q =>
    if !s.up || !bridgeEn s.force || !s.bgOn 4 then .next s
    else .next (s.onCn p fun x => { x with fwdQ := q, bilva := x.bilva ++ [{ f := f, fwd := true, sync := none }] })

/-! View. -/

/-- ERR_CNT of port p. -/
def State.errCnt (s : State) (p : Nat) : Word :=
  let x := s.cn p
  nw (x.errState * 65536 + min x.recErr 255 * 256 + min x.tec 255)

/-- CAN page p as it reads where it shows the port. -/
def State.viewCan (s : State) (p o : Nat) : Option Word :=
  let x := s.cn p
  if o = pageStatus ∨ o = CAN.ERR_CNT then some (s.errCnt p)
  else if o = CAN.TX_REQ then some (nw x.txReq.toNat)
  else if o = CAN.RX_STATUS then some (nw (x.unread.length * 65536 + x.unread.headD 0))
  else none

end Sys2Proof.Machine
end

