-- ==== Sys2Proof/Machine/Bilva.lean ====
section
/-!
DEFINITION. Network time as a node keeps it (R357 to R366), the network strike (R367 to R369), the time pulses (R370), the share messages
a device sends (R205, R208), and the TIME and BILVA pages as they read.
-/
namespace Sys2Proof.Machine

/-! Settings (Table 14-11). -/

/-- NT_CFG. -/
def ntCfg (c : Cfg) : Word := c pgTime TIME.NT_CFG
/-- BACKUP_PRIO. -/
def backupPrio (c : Cfg) : Nat := fld (ntCfg c) 11 8
/-- JUMP_TH in ns. -/
def jumpTh (c : Cfg) : Nat := fld (ntCfg c) 31 16 * 1000
/-- LOCK_TH in ns. -/
def lockTh (c : Cfg) : Nat := fld (c pgTime TIME.NT_TIMES) 15 0
/-- HOLD_MAX in ticks. -/
def holdMax (c : Cfg) : Nat := msT (fld (c pgTime TIME.NT_TIMES) 31 16)
/-- PATH_DELAY of port p in ns. -/
def pathDelay (c : Cfg) (p : Nat) : Nat := fld (c pgTime TIME.PATH_DELAY) (16 * p + 15) (16 * p)

/-- Ports with Bilva enabled. -/
def bilvaPorts (c : Cfg) : List Nat := (List.range 2).filter (bilvaEn c)

/-- A message goes out on every Bilva port. -/
def State.bilvaAll (s : State) (prio type sub : Nat) (data : List Byte) : State :=
  forL (bilvaPorts s.force) (fun p s => s.bilvaSend p prio type sub data none) s

/-! States of network time (Table 14-4, R365). -/

/-- The time state changes: leaving the valid ones raises NT_INVALID and cancels a STRIKE_AT; reaching one ends the source. -/
def State.setNt (s : State) (x : NtState) : State :=
  let was := s.ntValid
  let s := s.onTime fun t => { t with nt := x }
  if was && !s.ntValid then (s.raise srcNtInvalid 16).cancelStrikeAt
  else if !was && s.ntValid then s.clearSrc srcNtInvalid 16
  else s

/-- A jump of network time, made or refused, cancels a STRIKE_AT (R65, R363). -/
def State.ntJump (s : State) : State := s.cancelStrikeAt

/-- The base pair moves to a tick without a step, and the rate changes (R357). -/
def State.setRate (s : State) (rho : Int) (clamped : Bool) : State :=
  let nb := (s.ntFine s.now).toNat
  s.onTime fun t => { t with nb := nb, tb := s.now, rho := rho, rateClamped := clamped }

/-- RELOCK acts on a slave or bridge: its time is given up and one step is permitted (R360, R363). -/
def State.relockNode (s : State) : State :=
  let s := s.onTime fun t => { t with stepOk := true }
  let s := s.stopT .holdover
  if s.time.nt = .unlocked then s else (s.setNt .unlocked).ntJump

/-- RELOCK by a master. -/
def State.relockBy (s : State) (m : Master) : State :=
  if ntRole s.force = 1 then s.refuseBy m eState 0 (regAddr pgTime TIME.NT_CMD) else s.relockNode

/-- RELOCK. -/
def execRelock (s : State) : Out := if s.up then .next ((s.touch .host).relockBy .host) else .next s

/-- SET (R358): a grandmaster's time steps to NT_SET; it stays valid. -/
def State.ntSetBy (s : State) (m : Master) : State :=
  if s.time.nt ≠ .grandmaster then s.refuseBy m eState 0 (regAddr pgTime TIME.NT_CMD)
  else
    let v := upair64 (s.lv pgTime TIME.NT_SET_LO) (s.lv pgTime TIME.NT_SET_HI)
    (s.onTime fun t => { t with nb := v * 65536, tb := s.now, rho := 0 }).ntJump

/-- NT_SET. -/
def execNtSet (s : State) : Out := if s.up then .next ((s.touch .host).ntSetBy .host) else .next s

/-- BCAST_RELOCK (R363). -/
def State.bcastBy (s : State) (m : Master) : State :=
  if ntRole s.force ≠ 1 then s.refuseBy m eState 0 (regAddr pgTime TIME.NT_CMD)
  else
    let s := s.onTime fun t => { t with stepGen := t.stepGen + 1 }
    s.bilvaAll 2 0x03 0x01 [s.time.stepGen]

/-- BCAST_RELOCK. -/
def execBcastRelock (s : State) : Out := if s.up then .next ((s.touch .host).bcastBy .host) else .next s

/-- A STEP_GEN received: a newer one is taken and acts as RELOCK (R363). -/
def State.stepGenHeard (s : State) (g : Byte) : State :=
  let d := (g - s.time.stepGen).toNat
  if d = 0 ∨ 128 ≤ d then s
  else
    let s := s.onTime fun t => { t with stepGen := g }
    if ntRole s.force = 1 then s else s.relockNode

/-- A Bilva message of another node arrives on a Bilva port; one with this node's number raises NODE_CONFLICT (R353). -/
def State.bilvaFrom (s : State) (p : Nat) (node : BitVec 10) (act : State → State) : State :=
  if !s.up || !bilvaEn s.force p || !s.canOn p then s
  else if node.toNat = nodeNo s.force then s.nodeConflict
  else act s

/-- TIME_CTRL. -/
def execTimeCtrl (port : PortIx) (node : BitVec 10) (sub : Byte) (stepGen : Byte) (s : State) : Out :=
  .next (s.bilvaFrom port.val node fun s => if sub = 1 then s.stepGenHeard stepGen else s)

/-! Exchanges (R359 to R362, R364). -/

/-- BILVA_SYNC: t2 is the tick of the end of the frame; a backup master stops for one of lower BACKUP_PRIO (R362). -/
def execBilvaSync (port : PortIx) (node : BitVec 10) (sq : Byte) (s : State) : Out :=
  .next (s.bilvaFrom port.val node fun s =>
    if ntRole s.force = 1 ∨ port.val ≠ syncPort s.force then s
    else s.onTime fun t => { t with sync := some (port, node, sq, s.now), lastSync := s.now, backup := t.backup && !Config.lowerBackup node })

/-- The exchange is refused: a jump (R360). -/
def State.jumpRefused (s : State) (new : Bool) : State :=
  let s := s.onLv pgTime TIME.SYNC_COUNT fun w => nw ((fld w 31 16 + 1) % 65536 * 65536 + fld w 15 0)
  let s := (s.raisePulse srcNtJump 16).ntJump
  let s := if new then s.onTime fun t => { t with masterJump := true } else s
  if s.time.nt = .locked then (s.setNt .holdover).startT .holdover (s.time.lastAcc + holdMax s.force) else s

/-- The exchange is accepted: counted, and the loss of the master ends. -/
def State.exchangeAccepted (s : State) : State :=
  let s := s.onLv pgTime TIME.SYNC_COUNT fun w => nw (fld w 31 16 * 65536 + (fld w 15 0 + 1) % 65536)
  let s := s.onTime fun t => { t with lastAcc := s.now, lost := false, masterJump := false }
  ((s.stopT .holdover).stopT .backup).startT .masterLoss (s.now + msT 300)

/-- Rate correction (R361). -/
def State.correctRate (s : State) (t1 t2 : Nat) (err : Int) : State :=
  let h := s.time.hist.take 8
  let f : Rat := match h.getLast? with
    | none => s.time.freq
    | some o =>
      let d : Int := 4 * ((t2 : Int) - o.t2)
      if d = 0 then s.time.freq else (((t1 : Int) - o.t1 - d : Int) : Rat) / (d : Rat)
  let raw := roundRat (f * 100000000 + (err : Rat) / 2)
  let rho := clampI (-20000) 20000 raw
  let s := s.setRate rho (rho != raw)
  s.onTime fun t => { t with freq := f, hist := (⟨t1, t2⟩ :: t.hist).take 8 }

/-- A complete exchange (Table 14-4): t1 and t2 with the path delay. -/
def State.exchange (s : State) (node : BitVec 10) (t1 t2 pd : Nat) : State :=
  let c := s.force
  let err : Int := (t1 : Int) + pd - s.ntAt t2
  let new := match s.time.master with
    | some n => n != node
    | none => false
  let s := s.onTime fun t => { t with master := some node, hist := if new then [] else t.hist }
  if s.time.nt = .unlocked then
    if !s.time.stepOk then s
    else
      let s := (s.setLv pgTime TIME.LAST_ERR (iw (satS 32 err))).exchangeAccepted
      let s := s.onTime fun t =>
        { t with nb := (t1 + pd) * 65536, tb := t2, rho := 0, stepOk := false, lockRun := 0, freq := 0, hist := [⟨t1, t2⟩],
                 rateClamped := false, errHigh := false }
      (s.setNt .acquiring).ntJump
  else
    let s := s.setLv pgTime TIME.LAST_ERR (iw (satS 32 err))
    if jumpTh c < err.natAbs then s.jumpRefused new
    else
      let s := (s.exchangeAccepted).correctRate t1 t2 err
      let high := decide (lockTh c < err.natAbs)
      match s.time.nt with
      | .acquiring =>
        let n := if high then 0 else s.time.lockRun + 1
        let s := s.onTime fun t => { t with lockRun := n }
        if 2 ≤ n then s.setNt .locked else s
      | _ => (s.onTime fun t => { t with errHigh := high }).setNt .locked

/-- FOLLOW_UP (R359 to R364): one without its SYNC, or later than 10 ms after it, is discarded. -/
def execFollowUp (port : PortIx) (node : BitVec 10) (sq : Byte) (t1 : BitVec 64) (gm : BitVec 16) (hops : Byte) (stepGen : Byte)
    (s : State) : Out :=
  .next (s.bilvaFrom port.val node fun s =>
    let c := s.force
    if ntRole c = 1 then s.stepGenHeard stepGen
    else match s.time.sync with
      | some (p, n, q, t2) =>
        if p ≠ port ∨ n ≠ node ∨ q ≠ sq ∨ t2 + msT 10 < s.now then s.stepGenHeard stepGen
        else
          let s := s.onTime fun t =>
            { t with sync := none, gm := gm, hops := hops, depthExceeded := ntRole c == 2 && decide (4 ≤ hops.toNat),
                     backup := t.backup && decide (t.hops.toNat + 1 ≤ hops.toNat) }
          (s.stepGenHeard stepGen).exchange node t1.toNat t2 (pathDelay c port.val)
      | none => s.stepGenHeard stepGen)

/-- MASTER_LOSS (R362): 300 ms without an accepted exchange. -/
def execMasterLoss (s : State) : Out :=
  .next (s.expire .masterLoss fun s =>
    let c := s.force
    let s := s.onTime fun t => { t with lost := true }
    let s := match s.time.nt with
      | .acquiring => (s.onTime fun t => { t with stepOk := true }).setNt .unlocked
      | .locked => (s.setNt .holdover).startT .holdover (s.time.lastAcc + holdMax c)
      | _ => s
    if ntRole c = 0 ∧ backupPrio c ≠ 0 then s.startT .backup (s.now + msT (100 * backupPrio c)) else s)

/-- BACKUP_MASTER_START (R362): no SYNC has been heard since the loss was declared. -/
def execBackupMasterStart (s : State) : Out :=
  .next (s.expire .backup fun s =>
    if s.time.lost && decide (s.time.lastSync + msT (100 * backupPrio s.force) ≤ s.now) then s.onTime fun t => { t with backup := true }
    else s)

/-- HOLDOVER_EXPIRY (R360): HOLD_MAX without an accepted exchange. -/
def execHoldoverExpiry (s : State) : Out :=
  .next (s.expire .holdover fun s =>
    if s.time.nt = .holdover then (s.onTime fun t => { t with stepOk := bt (ntCfg s.force) 4 }).setNt .unlocked else s)

/-- This node sends SYNC on port p (R358, R362, R364). -/
def State.sendsSync (s : State) (p : Nat) : Bool :=
  let c := s.force
  bilvaEn c p && (match ntRole c with
    | 1 => s.time.nt == .grandmaster
    | 2 => p != syncPort c && (s.time.nt == .locked || s.time.nt == .holdover) && !s.time.depthExceeded
    | _ => s.time.backup && p == syncPort c)

/-- SYNC_SEND: every 100 ms. Its FOLLOW_UP goes out when the frame has ended (CAN_TX_DONE). -/
def execSyncSend (port : PortIx) (s : State) : Out :=
  let p := port.val
  if !s.up || !s.sendsSync p then .next (s.stopT (.syncSend p))
  else
    let s := match s.due (.syncSend p) with
      | some t => s.reach t
      | none => s
    let q := s.time.syncSeq.getD p 0
    let s := s.bilvaSend p 0 0x01 q.toNat [] (some q)
    let s := s.onTime fun t => { t with syncSeq := t.syncSeq.set p (q + 1) }
    .next (s.startT (.syncSend p) (s.now + msT 100))

/-- The role in force after a strike (R358): GRANDMASTER takes the tick time; a node that loses it is UNLOCKED. -/
def State.ntRoleBoundary (s : State) : State :=
  if ntRole s.force = 1 then
    if s.time.nt = .grandmaster then s
    else
      let s := s.onTime fun t => { t with nb := 4 * s.now * 65536, tb := s.now, rho := 0, master := none, hops := 0, backup := false }
      (((s.stopT .masterLoss).stopT .holdover).stopT .backup).setNt .grandmaster
  else if s.time.nt = .grandmaster then s.setNt .unlocked
  else s

/-! Frame alignment (R366). -/

/-- Distance of a network time (2^-16 ns) from the nearest target, signed. -/
def State.alignErr (s : State) (nt : Int) : Int :=
  let c := s.force
  let per : Int := (frameLen c * 4 * 65536 : Nat)
  let ofs : Int := ((c pgTime TIME.ALIGN_OFS).toNat * 65536 : Nat)
  let r := (nt - ofs) % (max 1 per)
  if 2 * r ≤ per then r else r - per

/-- L_{k+1} (R17, R18, R366): one tick is added or taken where that alone is nearest to a target. -/
def State.nextLength (s : State) : Nat :=
  let c := s.force
  let n := frameLen c
  if !netMode c || !s.ntValid then n
  else
    let b := s.time.frameStart + s.time.curLen
    let d := fun (l : Nat) => (s.alignErr (s.ntFine (b + l))).natAbs
    if d (n - 1) < d n ∧ d (n - 1) < d (n + 1) then n - 1
    else if d (n + 1) < d n ∧ d (n + 1) < d (n - 1) then n + 1
    else n

/-- ALIGN_ERR in ns at B_k. -/
def State.alignErrNs (s : State) : Int := s.alignErr (s.ntFine s.time.frameStart) / 65536

/-- ALIGNED (R366). -/
def State.aligned (s : State) : Bool :=
  netMode s.force && s.ntValid && decide (s.alignErrNs.natAbs ≤ 4 ∧ s.time.rho.natAbs * frameLen s.force ≤ 100000000)

/-! Network strike (R367 to R369). -/

/-- STRIKE_ACK goes out. -/
def State.strikeAckSend (s : State) (tag orig : BitVec 16) (code : Nat) : State :=
  s.bilvaAll 4 0x22 0 (leBytes 2 tag.toNat ++ leBytes 2 orig.toNat ++ leBytes 1 code ++ leBytes 1 s.stage.state.code ++ leBytes 2 0)

/-- A STRIKE_AT message acts on this device (R368). -/
def State.netStrike (s : State) (t : Nat) (tag orig : BitVec 16) : State :=
  let acc := s.lv pgBilva BILVA.ACCEPT
  if !bt acc 16 || fld acc 15 0 != tag.toNat || (s.stage.state = .armed && s.stage.tag = some tag) then s
  else
    let code := if s.stage.owner ≠ some .host then eOwned
      else if s.stage.state ≠ .proved then eState
      else (s.strikeAtFail t).getD eNone
    let s := if code = eNone then s.armStrikeAt t (some tag) else s.refuse .host code 0x05 (regAddr pgSys SYS.CMD)
    s.strikeAckSend tag orig code

/-- BILVA_STRIKE_AT. -/
def execBilvaStrikeAt (port : PortIx) (node : BitVec 10) (t : BitVec 64) (tag orig : BitVec 16) (s : State) : Out :=
  .next (s.bilvaFrom port.val node fun s => s.netStrike t.toNat tag orig)

/-- STRIKE_CANCEL: an armed strike of the tag is cancelled. -/
def execStrikeCancel (port : PortIx) (node : BitVec 10) (tag orig : BitVec 16) (s : State) : Out :=
  let _ := orig
  .next (s.bilvaFrom port.val node fun s => if s.stage.tag = some tag then s.cancelStrikeAt else s)

/-- STRIKE_ACK (R369). -/
def execStrikeAck (port : PortIx) (node : BitVec 10) (tag orig : BitVec 16) (code : Byte) (st : Byte) (s : State) : Out :=
  let _ := st
  .next (s.bilvaFrom port.val node fun s =>
    if orig.toNat ≠ nodeNo s.force ∨ tag.toNat ≠ fld (s.lv pgBilva BILVA.NETSTRIKE_TAG) 15 0 then s
    else if code = 0 then (s.incHalf pgBilva BILVA.NETSTRIKE_ACKS false).event pgBilva 8
    else ((s.incHalf pgBilva BILVA.NETSTRIKE_ACKS true).setLv pgBilva BILVA.NETSTRIKE_LAST_NAK
      (nw (node.toNat * 65536 + code.toNat))).event pgBilva 16)

/-- A write of SEND (R367). -/
def State.netSend (s : State) (loc : Bool) : State :=
  let t := upair64 (s.lv pgBilva BILVA.NETSTRIKE_T_LO) (s.lv pgBilva BILVA.NETSTRIKE_T_HI)
  let tag := BitVec.ofNat 16 (fld (s.lv pgBilva BILVA.NETSTRIKE_TAG) 15 0)
  let orig := nodeNo s.force
  let s := (s.setLv pgBilva BILVA.NETSTRIKE_ACKS 0).bilvaAll 2 0x20 0 (leBytes 8 t ++ leBytes 2 tag.toNat ++ leBytes 2 orig)
  if loc then s.netStrike t tag (BitVec.ofNat 16 orig) else s

/-- NETSTRIKE_SEND. -/
def execNetstrikeSend (loc : Bool) (s : State) : Out := if s.up then .next ((s.touch .host).netSend loc) else .next s

/-- A write of CANCEL (R367). -/
def State.netCancel (s : State) : State :=
  s.bilvaAll 2 0x21 0 (leBytes 2 (fld (s.lv pgBilva BILVA.NETSTRIKE_TAG) 15 0) ++ leBytes 2 (nodeNo s.force))

/-- NETSTRIKE_CANCEL. -/
def execNetstrikeCancel (s : State) : Out := if s.up then .next ((s.touch .host).netCancel) else .next s

/-! Share messages (R205, R208). -/

/-- What a share group sends at B_k + 32. -/
def State.shareSend (s : State) (g : Nat) : State :=
  let (s, o) := s.sharePublish g
  let c := s.force
  let p := (bt (shareCfg c g) 4).toNat
  let id := fld (shareCfg c g) 11 8
  let s := match o.ref with
    | some (t, present, stamp, sq) =>
      s.bilvaSend p 1 0x10 id (leBytes 4 (iw t).toNat ++ leBytes 4 present.toNat ++ leBytes 8 stamp ++ leBytes 2 sq.toNat ++ leBytes 2 0) none
    | none => s
  if o.stat then
    s.bilvaSend p 3 0x11 id (leBytes 4 (s.statSlots g).toNat ++ leBytes 2 (slotCrc c g).toNat ++ leBytes 2 0) none
  else s

/-! Time pulses (R370). -/

/-- Tick whose network time (or tick time) is nearest to a time in ns. -/
def State.tickOfNt (s : State) (ns : Int) : Nat :=
  let d : Rat := ((ns * 65536 - (s.time.nb : Int) : Int) : Rat) / 262144 / (1 + (s.time.rho : Rat) / 100000000)
  ((s.time.tb : Int) + roundRat d).toNat

/-- A pulse of output n is permitted: NET needs valid time, and HOLD_OK in HOLDOVER. -/
def State.tpoOk (s : State) (n : Nat) : Bool :=
  match tpoMode s.force n with
  | 0 => false
  | 1 => s.ntValid && (s.time.nt != .holdover || bt (s.force pgTime (TIME.TPO_CFG n)) 5)
  | _ => true

/-- Tick of the next active edge of output n. -/
def State.tpoNext (s : State) (n : Nat) : Nat :=
  let c := s.force
  let per : Int := ((c pgTime (TIME.TPO_PERIOD n)).toNat : Nat)
  let ofs : Int := ((c pgTime (TIME.TPO_OFS n)).toNat : Nat)
  let last := s.time.tpoStart.getD n 0
  let after := fun (t : Int) => ofs + ((t - ofs) / max 1 per + 1) * per
  match tpoMode c n with
  | 1 =>
    let t := s.tickOfNt (after (s.ntAt s.now - 4))
    if t ≤ last then s.tickOfNt (after (s.ntAt s.now - 4 + per)) else t
  | 2 =>
    let t := (after (4 * (s.now : Int) - 4)).toNat / 4
    if t ≤ last then (after (4 * (s.now : Int) - 4 + per)).toNat / 4 else t
  | _ => if last < s.time.frameStart then s.time.frameStart else s.time.frameStart + s.time.curLen

/-- TIME_PULSE: the active edge of an output, or the end of its pulse after WIDTH. -/
def execTimePulse (out : Fin 4) (active : Bool) (s : State) : Out :=
  let n := out.val
  if !s.up || !s.tpoOk n then .next s
  else if active then
    let s := s.reach (s.tpoNext n)
    .next (s.onTime fun t => { t with tpo := t.tpo ||| BitVec.ofNat 4 (2 ^ n), tpoStart := t.tpoStart.set n s.now })
  else if s.time.tpo.getLsbD n then
    let s := s.reach (s.time.tpoStart.getD n 0 + ((s.cf pgTime (TIME.TPO_WIDTH n)).toNat + 2) / 4)
    .next (s.onTime fun t => { t with tpo := t.tpo &&& ~~~(BitVec.ofNat 4 (2 ^ n)) })
  else .next s

/-- Level of ball TPOn: the pulse where it is permitted, inverted by POL. -/
def State.tpoLevel (s : State) (n : Nat) : Bool := (s.time.tpo.getLsbD n && s.tpoOk n) != bt (s.force pgTime (TIME.TPO_CFG n)) 4

/-! Views. -/

/-- Code of a time state. -/
def NtState.code (x : NtState) : Nat :=
  match x with
  | .unlocked => 0
  | .acquiring => 1
  | .locked => 2
  | .holdover => 3
  | .grandmaster => 4

/-- NT_STATUS. -/
def State.ntStatus (s : State) : Word :=
  let t := s.time
  nw (bitAt 31 t.depthExceeded + bitAt 30 t.masterJump + bitAt 29 t.errHigh + bitAt 28 t.rateClamped + (t.master.getD 0).toNat * 65536
    + t.stepGen.toNat * 256 + t.hops.toNat % 8 * 32 + bitAt 4 s.aligned + bitAt 3 s.ntValid + t.nt.code)

/-- CLK_STATUS (Table 1-8). -/
def State.clkStatus (s : State) : Word :=
  let t := s.time
  nw (bitAt 4 s.power.cmosClock + bitAt 3 t.plinkLock + bitAt 2 t.holdover + bitAt 1 t.refOk + bitAt 0 t.pllLock)

/-- TIME page as it reads where it shows the timebase. -/
def State.viewTime (s : State) (o : Nat) : Option Word :=
  let t := s.time
  let nt := s.ntAt t.tick
  if o = TIME.TICK_LO then some (nw t.tick)
  else if o = TIME.TICK_HI then some (hiW t.tick)
  else if o = TIME.FRAME_COUNT_LO then some (nw t.frameCount)
  else if o = TIME.FRAME_COUNT_HI then some (hiW t.frameCount)
  else if o = TIME.FRAME_START_LO then some (nw t.frameStart)
  else if o = TIME.FRAME_START_HI then some (hiW t.frameStart)
  else if o = TIME.FRAME_PHASE then some (nw (t.tick - t.frameStart))
  else if o = TIME.CUR_FRAME_LEN then some (nw t.curLen)
  else if o = TIME.COMMIT_LEAD then some (nw t.lead)
  else if o = TIME.CLK_STATUS then some s.clkStatus
  else if o = TIME.NT_LO then some (loW nt)
  else if o = TIME.NT_HI then some (hiW nt)
  else if o = TIME.NT_STATUS then some s.ntStatus
  else if o = TIME.RATE then some (iw t.rho)
  else if o = TIME.FRAME_NT_LO then some (loW (s.ntAt t.frameStart))
  else if o = TIME.FRAME_NT_HI then some (hiW (s.ntAt t.frameStart))
  else if o = TIME.ALIGN_ERR then some (if netMode s.force then iw (satS 32 s.alignErrNs) else 0)
  else none

/-- NODE_STATUS. -/
def State.nodeStatus (s : State) : Word :=
  nw (nodeNo s.force * 65536 + bitAt 1 (bridgeEn s.force) + bitAt 0 (bt (s.lv pgBilva pageFault) 0))

/-- BILVA page as it reads where it shows the node. -/
def State.viewBilva (s : State) (o : Nat) : Option Word := if o = pageStatus ∨ o = BILVA.NODE_STATUS then some s.nodeStatus else none

end Sys2Proof.Machine
end

