-- ==== Sys2Proof/Machine/View.lean ====
section
/-!
DEFINITION. What a read of a register shows: the rendered registers of SYS, SCHED, HK, NVLOG, HOST, MGMT, DMA, DMACH, TRACE and LANE,
the common page registers (R41 to R44, Tables 2-2 and 2-3), the interrupt summaries (R50, R414, R419), and the one view over all pages.
-/
namespace Sys2Proof.Machine

/-- Pages of Table 2-1, ascending. -/
def allPages : List Nat := (List.range 0x58).filter fun p => (pageRows p).isSome

/-- A page has an enabled event set (R50). -/
def State.pageIrq (s : State) (p : Nat) : Bool := (s.lv p pageEvent &&& s.lv p pageEventEn) != 0

/-- SYS.IRQ_SUMn. -/
def State.irqSum (s : State) (n : Nat) : Word := nw ((List.range 32).map fun i => bitAt i (s.pageIrq (32 * n + i))).sum

/-- IRQ_SUM under the three mask words at an offset of a page. -/
def State.irqMasked (s : State) (p o : Nat) : Bool := (List.range 3).any fun n => (s.irqSum n &&& s.lv p (o + 4 * n)) != 0

/-- The HIRQ_N condition (R414): inactive until power-up ends and while VIO is down. -/
def State.hirq (s : State) : Bool := s.up && s.power.vio && s.irqMasked pgHost HOST.IRQ_MASK0

/-- The MALERT_N condition (R419). -/
def State.malert (s : State) : Bool :=
  (s.up && s.irqMasked pgMgmt MGMT.ALERT_MASK0) || s.pageIrq pgMgmt

/-- OWNER as coded. -/
def State.ownerCode (s : State) : Nat :=
  match s.stage.owner with
  | none => 0
  | some m => masterCode m

/-- PAGE_STAGE of a page (Table 2-3). -/
def State.pageStageWord (s : State) (p : Nat) : Word :=
  let gen := (mapFind s.stage.liveGen p).getD 0
  nw (gen.toNat % 65536 * 65536 + s.stage.state.code * 16 + s.ownerCode * 4 + bitAt 1 (s.stage.failedHere == some p)
    + bitAt 0 (s.stage.dirty.contains p))

/-- SYS.STAGE_STATUS (Table 2-10). -/
def State.stageStatus (s : State) : Word :=
  let at_ := match s.stage.due with
    | some (.net _) => true
    | _ => false
  nw (s.stage.dirty.length * 65536 + bitAt 8 at_ + bitAt 7 s.stage.commit + s.stage.state.code * 16 + s.ownerCode * 4)

/-- SYS.GLOBAL_STATUS (Table 2-11). -/
def State.globalStatus (s : State) : Word :=
  nw (min s.retiredCount 255 * 65536 + s.power.pers.toNat * 4096 + bitAt 11 (s.power.config == 2) + bitAt 10 s.safety.stoActive
    + bitAt 9 (allPages.any fun p => s.lv p pageFault != 0) + s.sched.state)

/-- Registers of the SYS page that are rendered. -/
def State.viewSys (s : State) (o : Nat) : Option Word :=
  if o = SYS.STAGE_STATUS then some s.stageStatus
  else if o = SYS.GLOBAL_STATUS then some s.globalStatus
  else if o = SYS.IRQ_SUM0 then some (s.irqSum 0)
  else if o = SYS.IRQ_SUM1 then some (s.irqSum 1)
  else if o = SYS.IRQ_SUM2 then some (s.irqSum 2)
  else none

/-- Lane states as coded (Table 3-7). -/
def LaneState.code (x : LaneState) : Nat :=
  match x with
  | .active => 0
  | .spare => 1
  | .takeover => 2
  | .retired => 3
  | .idle => 4

/-- Housekeeping channel as last published (R425). -/
def State.hkCh (s : State) (n : Nat) : Int := s.samples.hk.getD n 0

/-- The power state whose limits and energy count: HALTED is taken as RESCUE (R85). -/
def energyState (st : Nat) : Nat := if st = 3 then 2 else st

/-- SCHED.OP_STATUS (Table 1-3): before the first round VCORE_MV holds its reset value. -/
def State.opStatus (s : State) : Word :=
  let v := if s.hk.rounds = 0 then 900 else (s.hkCh 11).toNat
  nw (v % 65536 * 65536 + s.sched.target * 256 + bitAt 2 s.sched.ramping + s.sched.point)

/-- SCHED.POWER_STATUS. -/
def State.powerStatus (s : State) : Word :=
  nw (bitAt 8 (s.sched.request.isSome || s.sched.rescueReq) + s.sched.state)

/-- Registers of the SCHED page that are rendered. -/
def State.viewSched (s : State) (o : Nat) : Option Word :=
  if o = SCHED.OP_STATUS then some s.opStatus
  else if o = SCHED.POWER_STATUS ∨ o = pageStatus then some s.powerStatus
  else if o = SCHED.BG_ACCOUNT then some (iw (s.sched.account / 1000))
  else if o = SCHED.LANE_STATE then some (nw ((List.range 8).map fun n => (s.ln n).state.code * 16 ^ n).sum)
  else if o = SCHED.FABRIC_PWR then
    some (nw ((floorRat (fabricPower s.force (energyState s.sched.state))).toNat % 65536 * 65536 + (s.hkCh 16).toNat % 65536))
  else none

/-- LANE.STATUS (Table 3-7). -/
def State.laneStatus (s : State) (n : Nat) : Word :=
  nw (min (s.onsetsIn 5 n).length 255 * 256 + (s.ln n).plan * 16 + (s.ln n).state.code)

/-- Registers of a LANE page that are rendered. -/
def State.viewLane (s : State) (n o : Nat) : Option Word :=
  if o = pageStatus ∨ o = LANE.STATUS then some (s.laneStatus n)
  else if o = LANE.DEMAND then some (if s.chRet 5 n then 0 else nw (laneDemand s.force n))
  else if o = LANE.BUDGET then some (nw (laneBudget s.force))
  else none

/-- Thermal level as coded (Table 18-2). -/
def Level.code (x : Level) : Nat :=
  match x with
  | .normal => 0
  | .warn => 1
  | .throttle => 2
  | .shutdown => 3

/-- Registers of the HK page that are rendered. -/
def State.viewHk (s : State) (o : Nat) : Option Word :=
  if o = pageStatus ∨ o = HK.STATUS then some (nw (bitAt 10 s.hk.divided + s.hk.level.code * 256 + s.hk.excluded.toNat))
  else if o = HK.ROUND_COUNT then some (nw s.hk.rounds)
  else if HK.CH 0 ≤ o ∧ o < HK.CH 24 then some (iw (s.hkCh ((o - HK.CH 0) / 4)))
  else none

/-- Highest or lowest WRITES of any sector. -/
def State.wear (s : State) (hi : Bool) : Nat :=
  (List.range 256).foldl (fun a k => let w := (s.secW k 2).toNat; if hi then max a w else min a w) (s.secW 0 2).toNat

/-- Registers of the NVLOG page that are rendered (Table 18-10). -/
def State.viewNvlog (s : State) (o : Nat) : Option Word :=
  let part0 := s.log.image.head?
  let img := fun (w : Nat) => match part0 with
    | some k => s.secW k w
    | none => 0
  if o = pageStatus ∨ o = NVLOG.STATUS then some s.nvStatus
  else if o = NVLOG.SEQ then some (if s.log.opened then s.secW s.log.head 1 else 0)
  else if o = NVLOG.BOOT then some (nw (s.log.boot % 65536))
  else if o = NVLOG.IMAGE_SIZE then some (nw (fld (img 5) 12 0))
  else if o = NVLOG.IMAGE_GEN then some (img 6)
  else if o = NVLOG.IMAGE_CRC then some (img 7)
  else if o = NVLOG.WEAR_MAX then some (nw (s.wear true))
  else if o = NVLOG.WEAR_MIN then some (nw (s.wear false))
  else none

/-- Registers of the HOST page that are rendered: bit 8 of STATUS is kept by the port. -/
def State.viewHost (s : State) (o : Nat) : Option Word :=
  if o = pageStatus ∨ o = HOST.STATUS then some (putBt (s.lv pgHost HOST.STATUS) 0 s.hirq) else none

/-- MGMT.STATUS.DOWN_REASON (R420, R431, R445): VIN below lockout holds until VIN rises. -/
def State.downReason (s : State) : Nat :=
  match s.power.phase with
  | .up => 0
  | .off => 0
  | .latched => 3
  | .coreLost => 2
  | .stopped => 1
  | .step _ => if s.power.source = 1 ∧ !s.power.vinOk then 4 else 1

/-- MGMT.STATUS (Table 17-7). -/
def State.mgmtStatus (s : State) : Word :=
  nw (s.downReason * 2 ^ 28 + bitAt 8 s.power.thermLatch + bitAt 1 s.power.vio + bitAt 0 s.up)

/-- The 7-bit address in force (R415). -/
def State.mgmtAddr (s : State) : Nat := 0x5A + s.power.madr.toNat

/-- Registers of the MGMT page that are rendered. -/
def State.viewMgmt (s : State) (o : Nat) : Option Word :=
  if o = pageStatus ∨ o = MGMT.STATUS then some s.mgmtStatus
  else if o = pageCaps then some (nw s.mgmtAddr)
  else none

/-- DMA channel states as coded (Table 15-6). -/
def DmaState.code (x : DmaState) : Nat :=
  match x with
  | .idle => 0
  | .run => 1
  | .wait => 2
  | .halted => 3
  | .error => 4

/-- Work in progress on a channel. -/
def State.dmaActive (s : State) (c : Nat) : Bool := (s.dm c).granted

/-- DMA.STATUS: ERR_CH is kept in the register. -/
def State.dmaStatus (s : State) : Word :=
  putBt (putBt (s.lv pgDma DMA.STATUS) 8 (bt (s.cf pgDma DMA.CFG) 0)) 0 s.dmaHalted

/-- Registers of the DMA page that are rendered. -/
def State.viewDma (s : State) (o : Nat) : Option Word :=
  let act := fun (b : Nat) => nw ((List.range 32).map fun i => bitAt i (s.dmaActive (b + i))).sum
  if o = pageStatus ∨ o = DMA.STATUS then some s.dmaStatus
  else if o = DMA.ACTIVE_LO then some (act 0)
  else if o = DMA.ACTIVE_HI then some (act 32)
  else none

/-- Registers of a DMACH page that are rendered. -/
def State.viewDmach (s : State) (n o : Nat) : Option Word :=
  if o = pageStatus then some (nw ((List.range 8).map fun j => bitAt j ((s.dm (8 * n + j)).state != .idle)).sum)
  else match (List.range 8).find? fun j => o == DMACH.CH_STATUS j with
    | some j =>
      let x := s.dm (8 * n + j)
      some (nw (x.cur % 256 * 2 ^ 24 + x.pend * 256 + x.state.code))
    | none => none

/-- Capture states as coded (Table 16-3). -/
def TraceState.code (x : TraceState) : Nat :=
  match x with
  | .idle => 0
  | .pre => 1
  | .post => 2
  | .done => 3

/-- Registers of the TRACE page that are rendered. -/
def State.viewTrace (s : State) (o : Nat) : Option Word :=
  let t := s.trace
  if o = pageStatus ∨ o = TRACE.STATUS then
    some (nw (t.seg * 2 ^ 24 + min t.closed 16 * 65536 + bitAt 8 t.maskSeen + t.state.code))
  else none

/-- The rendered registers of every page. -/
def State.viewPage (s : State) (p o : Nat) : Option Word :=
  if p = pgSys then s.viewSys o
  else if p = pgTime then s.viewTime o
  else if p = pgSched then s.viewSched o
  else if p = pgHk then s.viewHk o
  else if p = pgSafe then s.viewSafe o
  else if p = pgFio then s.viewFio o
  else if p = pgPlink then s.viewPlink o
  else if p = pgNvlog then s.viewNvlog o
  else if p = pgHost then s.viewHost o
  else if p = pgMgmt then s.viewMgmt o
  else if p = pgDma then s.viewDma o
  else if p = pgTrace then s.viewTrace o
  else if p = pgBilva then s.viewBilva o
  else if p = pgAdc then s.viewAdc o
  else if p = pgGroup then s.viewGroup o
  else if p = pgHoist then s.viewHoist o
  else if 0x0C ≤ p ∧ p < 0x0E then s.viewCan (p - 0x0C) o
  else if 0x10 ≤ p ∧ p < 0x18 then s.viewAxis (p - 0x10) o
  else if 0x18 ≤ p ∧ p < 0x20 then s.viewFb (p - 0x18) o
  else if 0x20 ≤ p ∧ p < 0x30 then s.viewMot (p - 0x20) o
  else if 0x34 ≤ p ∧ p < 0x38 then s.viewPwm (p - 0x34) o
  else if 0x38 ≤ p ∧ p < 0x3A then s.viewGd (p - 0x38) o
  else if 0x40 ≤ p ∧ p < 0x48 then s.viewLoop (p - 0x40) o
  else if 0x48 ≤ p ∧ p < 0x50 then s.viewDmach (p - 0x48) o
  else if 0x50 ≤ p ∧ p < 0x58 then s.viewLane (p - 0x50) o
  else none

/-- PAGE_ID (R41): first page of the type, position in it, layout version. -/
def pageIdWord (p0 p : Nat) : Word := nw (p0 * 65536 + (p - p0) * 256 + 0x31)

/-- What a register reads: a reserved offset reads 0, the live mirror reads the value in force, a staged register the stage (R43, R44),
a WO register 0 (Table 0-4). -/
def State.regRead (s : State) (p o : Nat) : Word :=
  if 0x900 ≤ o then
    match rowAt p (o - 0x800) with
    | some (_, r) => if r.acc = .st then (mapFind s.stage.shown (regAddr p (o - 0x800))).getD (s.cf p (o - 0x800)) else 0
    | none => 0
  else match rowAt p o with
    | none => 0
    | some (p0, r) =>
      if o = pageId then pageIdWord p0 p
      else if o = pageStage then s.pageStageWord p
      else match r.acc with
        | .wo => 0
        | .st => s.cd p o
        | _ => (s.viewPage p o).getD (s.lv p o)

end Sys2Proof.Machine
end

