-- ==== Sys2Proof/Machine/Dma.lean ====
section
/-!
DEFINITION. DMA channels (chapter 15) without their beats: triggers, the loading, checking and writing back of descriptors, the
commands GO, STOP, KICK and RESUME, and the bus-error halt.
-/
namespace Sys2Proof.Machine

/-- Page, and offset of a register of channel ch given for index 0. -/
def dmaPage (ch : Nat) : Nat := pgDmach (ch / 8)
/-- Offset of a live register of channel ch. -/
def dmaLive (ch o : Nat) : Nat := o + 0x18 * (ch % 8)

/-- Byte address of descriptor i of channel ch (R375). -/
def descAddr (c : Cfg) (ch i : Nat) : Nat := ringBase c ch + 32 * i

/-- RESULT codes of word 6 (Table 15-1). -/
abbrev dmaOk : Nat := 0
abbrev dmaUnder : Nat := 1
abbrev dmaDescErr : Nat := 2
abbrev dmaBusErr : Nat := 3
abbrev dmaStopped : Nat := 4

/-- The write-back of words 5 to 7 and what the channel shows of it (R375, R379); NEXT names the descriptor that follows. -/
def State.dmaWriteBack (s : State) (ch : Nat) (d : List Word) (elements result : Nat) : State :=
  let c := s.force
  let a := descAddr c ch (s.dm ch).cur
  let t := nw s.now
  let s := s.putWords (a + 20) [putBt (dW d 5) 0 false, nw (elements * 65536 + result * 256 + 1), t]
  let s := (s.inc32 (dmaPage ch) (dmaLive ch (DMACH.DONE_COUNT 0))).setLv (dmaPage ch) (dmaLive ch (DMACH.LAST_TICK 0)) t
  let s := s.onDm ch fun x => { x with desc := none, beats := 0, under := false, granted := false, next := dNext d }
  if bt (dW d 5) 1 then s.event (dmaPage ch) (2 ^ (ch % 8)) else s

/-- The channel enters ERROR: event and fault bit of the channel. -/
def State.dmaError (s : State) (ch : Nat) : State :=
  ((s.onDm ch fun x => { x with state := .error, granted := false }).event (dmaPage ch) (2 ^ (8 + ch % 8))).pfault (dmaPage ch) (2 ^ (ch % 8))

/-- A bus error at an address (R387, R388): the engine halts; the first error is recorded. -/
def State.dmaHalt (s : State) (ch addr info : Nat) (write : Bool) : State :=
  let s := s.dmaError ch
  if s.dmaHalted then s
  else
    let s := { s with dmaHalted := true, dma := s.dma.map fun (x : DmaSt) => if x.state = DmaState.run then { x with state := DmaState.halted } else x }
    let s := ((s.onLv pgDma DMA.STATUS fun w => putFld w 21 16 ch).setLv pgDma DMA.ERR_ADDR (nw (bitAt 31 write + addr))).setLv pgDma
      DMA.ERR_INFO (nw info)
    let s := (((s.inc16 pgDma DMA.HALT_COUNT).event pgDma 1).pfault pgDma 1).raisePulse srcDmaBus 16
    let ms := fld (s.cf pgDma DMA.CFG) 31 16
    if ms = 0 then s else s.startT .dmaResume (s.now + msT ms)

/-- The descriptor named next is loaded whole and checked (R379, R381). -/
def State.dmaStart (s : State) (ch : Nat) : State :=
  let c := s.force
  let i := (s.dm ch).next
  let a := descAddr c ch i
  let s := s.onDm ch fun x => { x with cur := i }
  match (List.range 8).find? fun k => s.eccBad.contains (a + 4 * k) with
  | some k => s.dmaHalt ch (a + 4 * k) 3 false
  | none =>
    let d := s.wordsAt a 8
    if !dValid d then s.onDm ch fun x => { x with state := .wait, granted := false }
    else if !descValid c ch d then
      let s := (s.dmaWriteBack ch d 0 dmaDescErr).dmaError ch
      ((s.event pgDma 2).pfault pgDma 2).raisePulse srcDmaDesc 16
    else
      s.onDm ch fun x =>
        { x with state := (if s.dmaHalted then .halted else .run), granted := true, desc := some d, beats := 0, under := false }

/-- PENDING counts a trigger that finds the channel busy; beyond 255 it is missed (R380). -/
def State.dmaPend (s : State) (ch : Nat) : State :=
  if (s.dm ch).pend < 255 then s.onDm ch fun x => { x with pend := x.pend + 1 }
  else s.incHalf (dmaPage ch) (dmaLive ch (DMACH.ZERO_BEATS 0)) true

/-- Work is released on a channel (R380, R381, R388). -/
def State.dmaTrigger (s : State) (ch : Nat) : State :=
  if !dmaEn s.force ch then s
  else match (s.dm ch).state with
    | .error => s
    | _ => if s.dmaHalted || (s.dm ch).granted then s.dmaPend ch else s.dmaStart ch

/-- A trigger that waits is taken as soon as the channel is free and the engine runs. -/
def State.dmaTakePending (s : State) (ch : Nat) : State :=
  let x := s.dm ch
  if !s.dmaHalted && !x.granted && decide (0 < x.pend) && decide (x.state = .run) && dmaEn s.force ch then
    (s.onDm ch fun x => { x with pend := x.pend - 1 }).dmaStart ch
  else s

/-- A descriptor ends after its last beat (R380): chained channels are triggered, STOP makes the channel IDLE, a SOFT channel goes on
in ring order. -/
def State.dmaEnd (s : State) (ch elements result : Nat) : State :=
  match (s.dm ch).desc with
  | none => s
  | some d =>
    let c := s.force
    let s := s.dmaWriteBack ch d elements result
    let s := if result = dmaOk then
        forN 64 (fun k s => if dmaEn c k && dmaTrig c k == 4 && dmaChain c k == ch then s.dmaTrigger k else s) s
      else s
    if bt (dW d 5) 2 then s.onDm ch fun x => { x with state := .idle }
    else if dmaTrig c ch = 0 then s.dmaStart ch
    else s.dmaTakePending ch

/-- GO (R380, R389, R390): releases work on a SOFT channel; a channel of another trigger leaves ERROR or IDLE and takes triggers. -/
def State.dmaGo (s : State) (ch : Nat) : State :=
  let c := s.force
  if !dmaEn c ch then s
  else
    let s := if (s.dm ch).state = .error then s.onDm ch fun x => { x with state := .idle } else s
    if dmaTrig c ch = 0 then s.dmaTrigger ch
    else if (s.dm ch).state = .idle then
      (s.onDm ch fun x => { x with state := if s.dmaHalted then .halted else .run }).dmaTakePending ch
    else s

/-- STOP (R390). -/
def State.dmaStop (s : State) (ch : Nat) : State :=
  let s := match (s.dm ch).desc with
    | some d => s.dmaWriteBack ch d (s.dm ch).beats dmaStopped
    | none => s
  if (s.dm ch).state = .error then s
  else s.onDm ch fun x => { x with state := .idle, granted := false, pend := 0 }

/-- KICK (R381): a channel in WAIT reads its descriptor again. -/
def State.dmaKick (s : State) (ch : Nat) : State :=
  if (s.dm ch).state = .wait ∧ dmaEn s.force ch then s.dmaStart ch else s

/-- A write of CH_CMD: STOP before GO and KICK. -/
def State.chCmd (s : State) (ch : Nat) (v : Word) : State :=
  let s := if bt v 1 then s.dmaStop ch else s
  let s := if bt v 0 then s.dmaGo ch else s
  if bt v 2 then s.dmaKick ch else s

/-- The halt ends (R389): every channel that is not in ERROR goes on and takes its pending triggers. -/
def State.dmaResumeNow (s : State) : State :=
  let s := { s with dmaHalted := false, dma := s.dma.map fun (x : DmaSt) => if x.state = DmaState.halted then { x with state := DmaState.run } else x }
  let s := (s.stopT .dmaResume).event pgDma 4
  forN 64 (fun ch s =>
    let x := s.dm ch
    if x.granted || x.pend == 0 || x.state == .error then s
    else (s.onDm ch fun x => { x with pend := x.pend - 1 }).dmaStart ch) s

/-- A write of DMA.CMD (R389). -/
def State.dmaCmd (s : State) (m : Master) (v : Word) : State :=
  if !bt v 0 then s
  else if s.dmaHalted then s.dmaResumeNow
  else s.refuseBy m eState 0 (regAddr pgDma DMA.CMD)

/-- DMA_GO, as the host writes it. -/
def execDmaGo (c : ChanIx) (s : State) : Out := if s.up then .next ((s.touch .host).dmaGo c.val) else .next s
/-- DMA_STOP. -/
def execDmaStop (c : ChanIx) (s : State) : Out := if s.up then .next ((s.touch .host).dmaStop c.val) else .next s
/-- DMA_KICK. -/
def execDmaKick (c : ChanIx) (s : State) : Out := if s.up then .next ((s.touch .host).dmaKick c.val) else .next s
/-- DMA_RESUME. -/
def execDmaResume (s : State) : Out := if s.up then .next ((s.touch .host).dmaCmd .host 1) else .next s
/-- DMA_AUTO_RESUME (R389): AUTO_RESUME ms after the halt. -/
def execDmaAutoResume (s : State) : Out := .next (s.expire .dmaResume fun s => s.dmaResumeNow)

/-- DMA_REQUEST (R380, R382): a request line is asserted for each channel that it holds a record for. -/
def execDmaRequest (line : Byte) (s : State) : Out :=
  if !s.up then .next s
  else
    .next (forN 64 (fun ch s =>
      let c := s.force
      if dmaEn c ch && dmaTrig c ch == 1 && dmaReq c ch == line.toNat && (s.dm ch).record.isSome then s.dmaTrigger ch else s) s)

/-- DMA_PERIOD_TRIGGER (R380): PERIOD ticks since the last, counted from the strike that enabled the channel. -/
def execDmaPeriodTrigger (c : ChanIx) (s : State) : Out :=
  let ch := c.val
  if s.up && dmaEn s.force ch && dmaTrig s.force ch == 3 then
    let t := (s.dm ch).lastTrig + fld (dmaReg s.force ch (DMACH.PERIOD 0)) 23 0
    .next (((s.reach t).onDm ch fun x => { x with lastTrig := t }).dmaTrigger ch)
  else .next s

/-- FRAME triggers at B_k + 32 (R380). -/
def State.dmaFrame (s : State) : State :=
  forN 64 (fun ch s =>
    let c := s.force
    let w := dmaReg c ch (DMACH.FRAME_PACE 0)
    if dmaEn c ch && dmaTrig c ch == 2 && s.time.frameCount % 2 ^ fld w 10 8 == fld w 21 16 then s.dmaTrigger ch else s) s

/-- A strike that changes a channel's staged registers stops it (R390): under the configuration before the strike. -/
def State.dmaStrikeStop (s : State) (changed : Nat → Nat → Bool) : State :=
  forN 64 (fun ch s =>
    if (List.range 7).any fun i => changed (dmaPage ch) (DMACH.CH_CFG 0 + 0x20 * (ch % 8) + 4 * i) then
      (s.dmaStop ch).onDm ch fun x => { x with state := .idle, next := 0, cur := 0, lastTrig := s.time.frameStart }
    else s) s

end Sys2Proof.Machine
end

