-- ==== Sys2Proof/Machine/Trace.lean ====
section
/-!
DEFINITION. The tracing unit (chapter 16): probes, the sample clock, storage in segments, triggers on samples and on time, mask
envelopes, the segment header and its delivery by DMA, and the commands of R399.
-/
namespace Sys2Proof.Machine

/-! Probes (R394). -/

/-- Word of a LINES source (Table 16-1). -/
def State.traceLines (s : State) (i : Nat) : Word :=
  match i with
  | 0 => nw (((List.range 8).map fun n => bitAt (16 + n) (s.fo n).sent).sum + ((List.range 16).map fun n => bitAt n (s.di n).raw).sum)
  | 1 => nw ((List.range 32).map fun l => bitAt l (!(s.lg l).gateOff && (s.lg l).level == some true)).sum
  | 2 => nw ((List.range 32).map fun l => bitAt l (!(s.lg l).gateOff && (s.lg l).level == some false)).sum
  | _ => nw ((List.range 8).map fun n => (s.fb n).zba.toNat * 8 ^ n).sum

/-- Value of a probe's selector at this tick. -/
def State.traceValue (s : State) (sel : Nat) : Int :=
  if selKind sel = 8 then (s.traceLines (selIdx sel)).toInt
  else if selKind sel = 4 then adcQ31 (selIdx sel) (s.samples.live.getD (selIdx sel) {}).code
  else s.signal sel

/-- The source of a selector is reported invalid or retired. -/
def State.traceBad (s : State) (sel : Nat) : Bool := selKind sel != 8 && s.signalBad sel

/-- The word a trigger or a mask compares: the integer count of a position. -/
def State.traceWord (s : State) (sel : Nat) : Word :=
  if selPos sel then iw (s.traceValue sel / 65536) else iw (s.traceValue sel)

/-- The words of one underlying sample of a probe. -/
def State.traceWordsOf (s : State) (sel : Nat) : List Word :=
  if selPos sel then [loW (s.traceValue sel), hiW (s.traceValue sel)] else [iw (s.traceValue sel)]

/-- Two underlying samples of a probe merged into minimum and maximum, or AND and OR (R402). -/
def stippleMerge (lines : Bool) (lo hi v : Word) : List Word :=
  if lines then [lo &&& v, hi ||| v] else [if v.toInt < lo.toInt then v else lo, if hi.toInt < v.toInt then v else hi]

/-- The stored sample so far with one more underlying sample, over the enabled probes. -/
def stippleAdd (c : Cfg) (first : Bool) (acc : List Word) (vs : List (Nat × Word)) : List Word :=
  (vs.zipIdx.map fun x =>
    let lines := selKind (probeSel c x.1.1) == 8
    if first then [x.1.2, x.1.2] else stippleMerge lines (acc.getD (2 * x.2) 0) (acc.getD (2 * x.2 + 1) 0) x.1.2).flatten

/-! Delivery by DMA (R405). -/

/-- A record for the channels on a request line; dropped where one is still held. -/
def State.traceRecord (s : State) (line : Nat) (ws : List Word) : State :=
  forN 64 (fun ch s =>
    let c := s.force
    if dmaEn c ch && dmaTrig c ch == 1 && dmaReq c ch == line then
      if (s.dm ch).record.isSome then (s.inc16 pgTrace TRACE.STREAM_DROP).event pgTrace 16
      else s.onDm ch fun x => { x with record := some ws }
    else s) s

/-! Segments (R397, R398). -/

/-- First byte of segment i. -/
def segAddr (c : Cfg) (i : Nat) : Nat := 0x200000 + 4 * (i * segWords c)

/-- A segment starts in PRE. -/
def TraceSt.segStart (t : TraceSt) (i : Nat) : TraceSt :=
  { t with
    state := .pre, seg := i, stored := 0, slot := 0, under := 0, acc := [], trigSample := none, trigSampleTick := 0, trigNt := 0
    trigTick := 0, trigUnit := 0, pre := 0, after := 0, pendTrig := none, rate := 0, bad := [], ntBad := none, maskFail := 0, maskIdx := none }

/-- The header of the present segment (Table 16-2). -/
def State.traceHeader (s : State) (stopped : Bool) : List Word :=
  let c := s.force
  let t := s.trace
  let cap := segCap c
  let pre := if t.trigSample.isSome then t.pre else min t.stored (cap - 1 - tracePost c)
  let tr := t.trigSample.getD t.stored
  let first := if cap = 0 then 0 else (tr - pre) % cap
  let inSeg := fun (i : Nat) => decide (tr - pre ≤ i)
  let nt := match t.ntBad with
    | none => true
    | some i => !inSeg i
  let badBits := (t.bad.map fun b => if inSeg b.2 then 2 ^ b.1 else 0).sum
  let ntTrig : Int := if nt then t.trigNt else 0
  [ nw (2 ^ 31 + bitAt 30 t.maskIdx.isSome + bitAt 29 stopped + bitAt 28 nt + bitAt 27 (traceStipple c) + t.trigUnit * 2 ^ 24 + t.segSeq % 65536),
    nw first, nw pre, nw t.after, nw t.trigSampleTick, hiW t.trigSampleTick, nw t.trigTick, hiW t.trigTick,
    loW ntTrig, hiW ntTrig, iw t.rate, nw (tracePs c), nw (t.maskFail.toNat * 65536 + badBits),
    (match t.maskIdx with
      | some j => nw j
      | none => 0xFFFFFFFF),
    nw (((probes c).map fun p => 2 ^ (16 + p)).sum + traceWords c % 256),
    nw (nodeNo c % 1024 * 65536 + fld t.armGen 15 0) ]

/-- The present segment closes: its header is written, and the capture goes to the next segment, to DONE, or after STOP to IDLE. -/
def State.traceClose (s : State) (stopped : Bool) : State :=
  let c := s.force
  let t := s.trace
  let h := s.traceHeader stopped
  let s := (s.putWords (segAddr c t.seg) h).onLv pgTrace TRACE.SEG_VALID fun w => w ||| nw (2 ^ t.seg)
  let s := ((s.event pgTrace 2).traceRecord 0x10 h).onTrace fun t => { t with segSeq := t.segSeq + 1, closed := t.closed + 1, pendTrig := none }
  if stopped then s.onTrace fun t => { t with state := .idle }
  else if bt (c pgTrace TRACE.CFG) 13 && t.maskIdx.isSome then (s.onTrace fun t => { t with state := .done }).event pgTrace 4
  else if t.seg + 1 < segCount c then s.onTrace fun x => x.segStart (t.seg + 1)
  else if bt (c pgTrace TRACE.CFG) 12 then s.onTrace fun x => x.segStart 0
  else (s.onTrace fun t => { t with state := .done }).event pgTrace 4

/-- The offset of a probe's words in a stored sample. -/
def probeOfs (c : Cfg) (p : Nat) : Nat :=
  (((probes c).filter (· < p)).map fun q => if selPos (probeSel c q) || traceStipple c then 2 else 1).sum

/-- Mask unit m on the stored sample that stands i after the trigger sample (R403). -/
def State.traceMask (s : State) (m i : Nat) (ws : List Word) : State :=
  let c := s.force
  let p := fld (maskCfg c m) 3 0
  if !bt (maskCfg c m) 31 || decide (maskLen c m ≤ i) || !(probes c).contains p then s
  else
    let lo := ws.getD (probeOfs c p) 0
    let hi := if traceStipple c then ws.getD (probeOfs c p + 1) 0 else lo
    let a := maskBase c m + 8 * i
    if (s.wordAt a).toInt ≤ lo.toInt ∧ hi.toInt ≤ (s.wordAt (a + 4)).toInt then s
    else
      let s := s.onTrace fun t => { t with maskFail := t.maskFail ||| BitVec.ofNat 16 (2 ^ p) }
      if s.trace.maskIdx.isSome then s
      else
        let s := s.onTrace fun t => { t with maskIdx := some (t.pre + i), maskSeen := true }
        ((s.event pgTrace 8).pfault pgTrace 1).raisePulse srcTraceMask 16

/-- A stored sample is complete (R397, R398). -/
def State.traceStore (s : State) (ws : List Word) : State :=
  let c := s.force
  let t := s.trace
  let cap := segCap c
  let s := s.putWords (segAddr c t.seg + 4 * (16 + t.slot * traceWords c)) ws
  let s := s.inc32 pgTrace TRACE.SAMPLE_COUNT
  let s := if bt (c pgTrace TRACE.CFG) 10 then s.traceRecord 0x11 ws else s
  let s := s.onTrace fun t => { t with stored := t.stored + 1, slot := if cap = 0 then 0 else (t.slot + 1) % cap, under := 0, acc := [] }
  match t.trigSample with
  | none => s
  | some k =>
    let i := t.stored - k
    let s := forN 4 (fun m s => s.traceMask m i ws) s
    let s := s.onTrace fun t => { t with after := i }
    if tracePost c ≤ i then s.traceClose false else s

/-! Sampling (R395, R400 to R402). -/

/-- First multiple of p after a tick; the latest not after the present one when several have passed. -/
def nextMultiple (last now p : Nat) : Nat :=
  if p = 0 then now else max ((last / p + 1) * p) (now / p * p)

/-- Tick of the next underlying sample, if one is to come in this frame (R395). -/
def State.traceNext (s : State) : Option Nat :=
  let c := s.force
  let p := fld (c pgTrace TRACE.PERIOD) 23 0
  let last := s.trace.lastSample
  match traceClk c with
  | 0 =>
    let w := c pgTrace TRACE.FRAME_PACE
    let t := s.time.frameStart + 32
    if s.time.grid && decide (last < t) && s.time.frameCount % 2 ^ fld w 10 8 == fld w 21 16 then some t else none
  | 1 => some (nextMultiple last s.now p)
  | _ =>
    if s.ntValid then
      let n : Int := 4 * p
      let k := (s.ntAt last * 2 + n) / (2 * n)
      let t := s.tickOfNt ((k + 1) * n)
      some (if last < t then t else s.tickOfNt ((k + 2) * n))
    else some (last + p)

/-- COND of a PROBE unit on value v, previous value w (Table 16-4). -/
def probeFires (cond : Nat) (a b v : Word) (w : Option Word) : Bool :=
  let x := v.toInt
  match cond with
  | 0 => decide (a.toInt < x)
  | 1 => decide (x < a.toInt)
  | 2 => w.any fun w => decide (w.toInt ≤ a.toInt ∧ a.toInt < x)
  | 3 => w.any fun w => decide (a.toInt ≤ w.toInt ∧ x < a.toInt)
  | 4 => decide (a.toInt ≤ x ∧ x ≤ b.toInt)
  | 5 => decide (x < a.toInt ∨ b.toInt < x)
  | 6 => (v ^^^ a) &&& b == 0
  | _ => w.any fun w => (v ^^^ w) &&& b != 0

/-- Tick at which a TIME unit fires after the last sample and not after tick t. -/
def State.timeFires (s : State) (u t : Nat) : Option Nat :=
  let c := s.force
  let w := s.tuCfg u
  let due : Nat := upair64 (c pgTrace (TRACE.TU_A u)) (c pgTrace (TRACE.TU_B u))
  let last := s.trace.lastSample
  if !bt w 31 || fld w 30 28 != 5 then none
  else if fld w 27 24 = 1 then (if last < due ∧ due ≤ t then some due else none)
  else if s.ntValid ∧ s.ntAt last < due ∧ (due : Int) ≤ s.ntAt t then
    let x := s.tickOfNt due
    some (min t (if s.ntAt x < due then x + 1 else if (due : Int) ≤ s.ntAt (x - 1) then x - 1 else x))
  else none

/-- The trigger units of KIND TIME between two samples, earliest first. -/
def State.traceTimes (s : State) (t : Nat) : State :=
  let fires := ((List.range 4).filterMap fun u => (s.timeFires u t).map fun x => (x, u)).mergeSort fun a b => a.1 < b.1 || (a.1 == b.1 && a.2 ≤ b.2)
  if s.trace.state = .pre then forL fires (fun x s => s.traceFire x.2 x.1) s else s

/-- The PROBE units on the underlying sample at tick t. -/
def State.traceProbes (s : State) (t : Nat) : State :=
  let c := s.force
  s.traceKind 1 t fun u w =>
    let p := fld w 7 0
    (probes c).contains p && !s.traceBad (probeSel c p)
      && probeFires (fld w 27 24) (c pgTrace (TRACE.TU_A u)) (c pgTrace (TRACE.TU_B u)) (s.traceWord (probeSel c p))
        ((s.trace.last.find? fun x => x.1 == p).map (·.2))

/-- One underlying sample at tick t. -/
def State.traceTake (s : State) (t : Nat) : State :=
  let c := s.force
  let s := (s.traceTimes t).traceProbes t
  let x := s.trace
  let first := x.under = 0
  let accTick := if first then t else x.accTick
  let isTrig := match x.pendTrig with
    | some (_, tt) => x.trigSample.isNone && decide (tt ≤ t)
    | none => false
  let cap := segCap c
  let newBad := ((probes c).filter fun p => s.traceBad (probeSel c p)).map fun p => (p, x.stored)
  let vals := (probes c).map fun p => (p, s.traceWord (probeSel c p))
  let s := s.onTrace fun x =>
    { x with
      accTick := accTick, lastSample := t, last := vals
      bad := newBad ++ x.bad.filter fun b => !newBad.any fun y => y.1 == b.1
      ntBad := if s.ntValid then x.ntBad else some x.stored
      pre := if isTrig then min x.stored (cap - 1 - tracePost c) else x.pre
      trigSample := if isTrig then some x.stored else x.trigSample
      trigSampleTick := if isTrig then accTick else x.trigSampleTick
      trigNt := if isTrig then s.ntAt accTick else x.trigNt
      pendTrig := if isTrig then none else x.pendTrig }
  if traceStipple c then
    let acc := stippleAdd c first x.acc vals
    if x.under + 1 < fld (c pgTrace TRACE.REDUCE) 15 0 then s.onTrace fun x => { x with under := x.under + 1, acc := acc }
    else s.traceStore acc
  else s.traceStore ((probes c).map fun p => s.traceWordsOf (probeSel c p)).flatten

/-- TRACE_SAMPLE (R395). -/
def execTraceSample (s : State) : Out :=
  if s.up && (s.trace.state == .pre || s.trace.state == .post) then
    match s.traceNext with
    | some t => .next ((s.reach t).traceTake t)
    | none => .next s
  else .next s

/-- TRACE_SEQ_WINDOW_EXPIRY (R401): the window that unit 0 opened ends SEQ_WIN ticks later. -/
def execTraceSeqWindowExpiry (s : State) : Out :=
  let win := fld (s.cf pgTrace TRACE.TRIG_CFG) 23 0
  match s.trace.seqOpen with
  | some t => if win = 0 then .next s else .next ((s.reach (t + win)).onTrace fun x => { x with seqOpen := none })
  | none => .next s

/-! Commands (R399). -/

/-- ARM: VALID is cleared in every header and segment 0 starts. -/
def State.traceArm (s : State) : State :=
  let c := s.force
  let s := forN (segCount c) (fun i s => s.putWord (segAddr c i) (putBt (s.wordAt (segAddr c i)) 31 false)) s
  let s := (s.setLv pgTrace TRACE.SEG_VALID 0).setLv pgTrace TRACE.SAMPLE_COUNT 0
  s.onTrace fun t =>
    { t.segStart 0 with segSeq := 0, closed := 0, maskSeen := false, seqOpen := none, last := [], armGen := s.lv pgSys SYS.STRIKE_GEN, lastSample := s.now }

/-- ARM is refused while EN = 0, outside IDLE and DONE, and on the network grid without a valid network time. -/
def State.armFails (s : State) : Bool :=
  (s.trace.state != .idle && s.trace.state != .done) || !traceEn s.force || (traceClk s.force == 2 && !s.ntValid)

/-- STOP: in PRE the segment is not written; in POST it closes. -/
def State.traceStop (s : State) : State :=
  if s.trace.state = .pre then s.onTrace fun t => { t with state := .idle, pendTrig := none } else s.traceClose true

/-- A write of TRACE.CMD, its bits in the order ARM, STOP, FORCE, CLEAR. -/
def State.traceCmd (s : State) (m : Master) (v : Word) : State :=
  let no := fun (s : State) => s.refuseBy m eState 0 (regAddr pgTrace TRACE.CMD)
  let live := fun (s : State) => s.trace.state == .pre || s.trace.state == .post
  let s := if bt v 0 then (if s.armFails then no s else s.traceArm) else s
  let s := if bt v 1 then (if live s then s.traceStop else no s) else s
  let s := if bt v 2 then (if live s then s.traceTrigger 4 s.now else no s) else s
  if bt v 3 then (if s.trace.state == .done then s.onTrace fun t => { t with state := .idle } else no s) else s

/-- TRACE.CMD as the host writes it. -/
def State.hostTrace (s : State) (v : Word) : State := if s.up then (s.touch .host).traceCmd .host v else s

/-- TRACE_ARM. -/
def execTraceArm (s : State) : Out := .next (s.hostTrace 1)
/-- TRACE_STOP. -/
def execTraceStop (s : State) : Out := .next (s.hostTrace 2)
/-- TRACE_FORCE. -/
def execTraceForce (s : State) : Out := .next (s.hostTrace 4)
/-- TRACE_CLEAR. -/
def execTraceClear (s : State) : Out := .next (s.hostTrace 8)

end Sys2Proof.Machine
end

