-- ==== Sys2Proof/Machine/LaneExec.lean ====
section
/-!
DEFINITION. What a Burin instruction does to the bank that executes it (chapter 13): operands, arithmetic, the address view, the effect
of each instruction as plain data, and the stop of an activation.
-/
namespace Sys2Proof.Machine

/-! The bank that executes. -/

/-- A bank of a lane. -/
def LaneSt.bank (x : LaneSt) (bk : Bank) : BankSt :=
  match bk with
  | .f => x.bankF
  | .u => x.bankU
  | .b => x.bankB

/-- A bank changed. -/
def LaneSt.setBank (x : LaneSt) (bk : Bank) (k : BankSt) : LaneSt :=
  match bk with
  | .f => { x with bankF := k }
  | .u => { x with bankU := k }
  | .b => { x with bankB := k }

/-- D register. -/
def BankSt.dReg (k : BankSt) (i : Nat) : Word := k.d.getD i 0
/-- Accumulator as its 72 bits. -/
def BankSt.aReg (k : BankSt) (i : Nat) : BitVec 72 := k.acc.getD i 0
/-- Pointer. -/
def BankSt.pReg (k : BankSt) (i : Nat) : BitVec 20 := k.p.getD i 0
/-- Modifier. -/
def BankSt.mReg (k : BankSt) (i : Nat) : BitVec 16 := k.m.getD i 0

/-! Arithmetic (R325 to R327). -/

/-- A value saturated to 32 bits, and whether it was clamped. -/
def clip32 (x : Int) : Word × Bool := (iw (satS 32 x), satS 32 x != x)
/-- A value saturated to 72 bits, and whether it was clamped. -/
def clip72 (x : Int) : BitVec 72 × Bool := (BitVec.ofInt 72 (satS 72 x), satS 72 x != x)
/-- Arithmetic shift by a count, rounding toward minus infinity to the right. -/
def shiftInt (x s : Int) : Int := if 0 ≤ s then x * 2 ^ s.toNat else x / 2 ^ (-s).toNat
/-- ASH of a word, wrapping. -/
def ashWord (w : Word) (s : Int) : Word := iw (shiftInt w.toInt s)
/-- LSH of a word, wrapping. -/
def lshWord (w : Word) (s : Int) : Word := nw (shiftInt w.toNat s).toNat
/-- A shift count from a register, clamped to -32 to 31 (Table 13-8). -/
def shiftCount (w : Word) : Int := clampI (-32) 31 w.toInt
/-- Da:Db as a signed 64-bit number. -/
def wordPair (hi lo : Word) : Int := pair64 lo hi
/-- SAC: v * 2^S / 2^32 rounded, before saturation (R326). -/
def sacValue (v : BitVec 72) (s : BitVec 6) : Int :=
  let e : Int := s.toInt - 32
  if 0 ≤ e then v.toInt * 2 ^ e.toNat else roundDiv v.toInt (2 ^ (-e).toNat)
/-- Number of bits below bit 31 that equal bit 31 in an unbroken run (Table 13-8). -/
def clsRun (w : Word) : Nat → Nat
  | 0 => 0
  | n + 1 => if bt w n == bt w 31 then 1 + clsRun w n else 0
/-- CLS. -/
def clsWord (w : Word) : Word := nw (clsRun w 31)

/-! Effects. -/

/-- What one instruction does. -/
structure LaneEff where
  /-- Results seen by the next instruction. -/
  d : List (Nat × Word) := []
  acc : List (Nat × BitVec 72) := []
  p : List (Nat × BitVec 20) := []
  m : List (Nat × BitVec 16) := []
  sat : Bool := false
  clrSat : Bool := false
  /-- Results in exposed slots (R328). -/
  fly : List InFlight := []
  loops : Option LoopRegs := none
  stack : Option (List (BitVec 12)) := none
  /-- A taken branch, which acts after its delay slot. -/
  branch : Option (BitVec 12) := none
  /-- A loop with a count of 0: execution continues here. -/
  skip : Option (BitVec 12) := none
  /-- Stores: crossbar or local, lane address, value. -/
  stores : List (Bool × Nat × Word) := []
  /-- The instruction cannot be executed: the activation stops (R322). -/
  stop : Bool := false
  /-- The instruction read a word of the lane's store with an uncorrectable error (R88). -/
  ecc : Bool := false
  ended : Bool := false
  deriving DecidableEq, Repr

/-- An instruction's effect from the state, the lane, the executing bank and its registers. -/
abbrev LaneOp := State → Nat → Bank → BankSt → LaneEff

/-- A result in Dd at once. -/
def effD (d : DReg) (w : Word) : LaneEff := { d := [(d.val, w)] }
/-- A saturating result in Dd. -/
def effSat (d : DReg) (r : Word × Bool) : LaneEff := { d := [(d.val, r.1)], sat := r.2 }
/-- A multiplier result in Dd. -/
def effMulD (d : DReg) (r : Word × Bool) : LaneEff := { fly := [.d 2 d r.1], sat := r.2 }
/-- A result in an accumulator at once. -/
def effAcc (a : AccReg) (r : BitVec 72 × Bool) : LaneEff := { acc := [(a.val, r.1)], sat := r.2 }
/-- A multiplier result in an accumulator. -/
def effMulA (a : AccReg) (r : BitVec 72 × Bool) : LaneEff := { fly := [.acc 2 a r.1], sat := r.2 }

/-- The accumulator as the chain of R328 takes it: the latest result in flight, or the register. -/
def BankSt.chain (k : BankSt) (a : AccReg) : BitVec 72 :=
  k.inFlight.foldl (fun v x => match x with
    | .acc _ r w => if r = a then w else v
    | _ => v) (k.aReg a.val)

/-- Product of two registers, doubled for the fractional instructions. -/
def product (k : BankSt) (frac : Bool) (a b : DReg) : Int :=
  (k.dReg a.val).toInt * (k.dReg b.val).toInt * (if frac then 2 else 1)

/-! The address view (Table 13-3). -/

/-- Lane address of a form, and the pointer after it. -/
def laneAddr (k : BankSt) (p : PReg) (f : AddrForm) : Nat × List (Nat × BitVec 20) :=
  let v := k.pReg p.val
  match f with
  | .post m => (v.toNat, [(p.val, v + (k.mReg m.val).signExtend 20)])
  | .offs o => ((v + o.signExtend 20).toNat, [])

/-- A load is allowed. -/
def State.laneMayLoad (s : State) (n : Nat) (sp : Bool) (a : Nat) : Bool := if sp then decide (a < 0x60000) else s.inData n a
/-- A store is allowed. -/
def State.laneMayStore (s : State) (n : Nat) (sp : Bool) (a : Nat) : Bool :=
  if sp then decide (0x50000 ≤ a ∧ a < 0x60000) else s.inData n a

/-- The word a load returns: a buffered crossbar word, a register, plate memory or the data store (R322, R323). -/
def State.laneLoad (s : State) (n : Nat) (k : BankSt) (sp : Bool) (a : Nat) : Word :=
  if !sp then s.wordAt (dataAddr n a)
  else match k.commit.find? fun x => x.1.toNat == a with
    | some x => x.2
    | none =>
      if a < 0x40000 then s.regRead (pageOf (4 * a)) (offOf (4 * a))
      else if s.eccBad.contains (4 * a) then 0
      else s.wordAt (4 * a)

/-- A load touches a data-store word with an uncorrectable error. -/
def State.laneBad (s : State) (n : Nat) (sp : Bool) (a : Nat) : Bool := !sp && s.eccBad.contains (dataAddr n a)

/-- Stores from an address on: allowed, or the stop. -/
def storeEff (s : State) (n : Nat) (sp : Bool) (a : Nat) (ps : List (Nat × BitVec 20)) (ws : List Word) : LaneEff :=
  let as := (List.range ws.length).map fun i => (a + i) % 2 ^ 20
  if as.all (s.laneMayStore n sp) then { stores := (as.zip ws).map fun x => (sp, x.1, x.2), p := ps } else { stop := true }

/-- Loads from an address on into consecutive registers. -/
def loadEff (s : State) (n : Nat) (k : BankSt) (d : DReg) (sp : Bool) (a len : Nat) (ps : List (Nat × BitVec 20)) : LaneEff :=
  let as := (List.range len).map fun i => (a + i) % 2 ^ 20
  if !as.all (s.laneMayLoad n sp) || decide (16 < d.val + len) then { stop := true }
  else if as.any (s.laneBad n sp) then { ecc := true }
  else { fly := as.zipIdx.map fun x => .d 1 (Fin.ofNat 16 (d.val + x.2)) (s.laneLoad n k sp x.1), p := ps }

/-! ALU (Tables 13-7 and 13-8). -/

/-- NOP. -/
def opNop : LaneOp := fun _ _ _ _ => {}
/-- ADD. -/
def opAdd (d a b : DReg) : LaneOp := fun _ _ _ k => effD d (k.dReg a.val + k.dReg b.val)
/-- SUB. -/
def opSub (d a b : DReg) : LaneOp := fun _ _ _ k => effD d (k.dReg a.val - k.dReg b.val)
/-- ADDS. -/
def opAdds (d a b : DReg) : LaneOp := fun _ _ _ k => effSat d (clip32 ((k.dReg a.val).toInt + (k.dReg b.val).toInt))
/-- SUBS. -/
def opSubs (d a b : DReg) : LaneOp := fun _ _ _ k => effSat d (clip32 ((k.dReg a.val).toInt - (k.dReg b.val).toInt))
/-- AND. -/
def opAnd (d a b : DReg) : LaneOp := fun _ _ _ k => effD d (k.dReg a.val &&& k.dReg b.val)
/-- OR. -/
def opOr (d a b : DReg) : LaneOp := fun _ _ _ k => effD d (k.dReg a.val ||| k.dReg b.val)
/-- XOR. -/
def opXor (d a b : DReg) : LaneOp := fun _ _ _ k => effD d (k.dReg a.val ^^^ k.dReg b.val)
/-- ASH. -/
def opAsh (d a b : DReg) : LaneOp := fun _ _ _ k => effD d (ashWord (k.dReg a.val) (shiftCount (k.dReg b.val)))
/-- LSH. -/
def opLsh (d a b : DReg) : LaneOp := fun _ _ _ k => effD d (lshWord (k.dReg a.val) (shiftCount (k.dReg b.val)))
/-- MIN. -/
def opMin (d a b : DReg) : LaneOp := fun _ _ _ k => effD d (if (k.dReg a.val).toInt ≤ (k.dReg b.val).toInt then k.dReg a.val else k.dReg b.val)
/-- MAX. -/
def opMax (d a b : DReg) : LaneOp := fun _ _ _ k => effD d (if (k.dReg b.val).toInt ≤ (k.dReg a.val).toInt then k.dReg a.val else k.dReg b.val)
/-- ABS. -/
def opAbs (d a : DReg) : LaneOp := fun _ _ _ k => effSat d (clip32 ((k.dReg a.val).toInt.natAbs : Int))
/-- NEG. -/
def opNeg (d a : DReg) : LaneOp := fun _ _ _ k => effSat d (clip32 (-(k.dReg a.val).toInt))
/-- SLT. -/
def opSlt (d a b : DReg) : LaneOp := fun _ _ _ k => effD d (if (k.dReg a.val).toInt < (k.dReg b.val).toInt then 1 else 0)
/-- SLTU. -/
def opSltu (d a b : DReg) : LaneOp := fun _ _ _ k => effD d (if (k.dReg a.val).toNat < (k.dReg b.val).toNat then 1 else 0)
/-- SEQ. -/
def opSeq (d a b : DReg) : LaneOp := fun _ _ _ k => effD d (if k.dReg a.val = k.dReg b.val then 1 else 0)
/-- SELNZ. -/
def opSelnz (d a b c : DReg) : LaneOp := fun _ _ _ k => effD d (if k.dReg c.val = 0 then k.dReg b.val else k.dReg a.val)
/-- MUL. -/
def opMul (d a b : DReg) : LaneOp := fun _ _ _ k => effMulD d (k.dReg a.val * k.dReg b.val, false)
/-- CLS. -/
def opCls (d a : DReg) : LaneOp := fun _ _ _ k => effD d (clsWord (k.dReg a.val))
/-- MOV. -/
def opMov (d a : DReg) : LaneOp := fun _ _ _ k => effD d (k.dReg a.val)
/-- ADDI. -/
def opAddi (d a : DReg) (imm : BitVec 16) : LaneOp := fun _ _ _ k => effD d (k.dReg a.val + imm.signExtend 32)
/-- MOVI. -/
def opMovi (d : DReg) (imm : BitVec 16) : LaneOp := fun _ _ _ _ => effD d (imm.signExtend 32)
/-- MOVHI. -/
def opMovhi (d : DReg) (imm : BitVec 16) : LaneOp := fun _ _ _ k => effD d (imm ++ (k.dReg d.val).extractLsb' 0 16)
/-- ANDI. -/
def opAndi (d a : DReg) (imm : BitVec 16) : LaneOp := fun _ _ _ k => effD d (k.dReg a.val &&& imm.zeroExtend 32)
/-- ORI. -/
def opOri (d a : DReg) (imm : BitVec 16) : LaneOp := fun _ _ _ k => effD d (k.dReg a.val ||| imm.zeroExtend 32)
/-- ASHI. -/
def opAshi (d a : DReg) (imm : BitVec 16) : LaneOp := fun _ _ _ k => effD d (ashWord (k.dReg a.val) imm.toInt)
/-- LSHI. -/
def opLshi (d a : DReg) (imm : BitVec 16) : LaneOp := fun _ _ _ k => effD d (lshWord (k.dReg a.val) imm.toInt)

/-! Memory. -/

/-- LD. -/
def opLd (d : DReg) (p : PReg) (sp : Bool) (f : AddrForm) : LaneOp := fun s n _ k =>
  let (a, ps) := laneAddr k p f
  loadEff s n k d sp a 1 ps
/-- ST. -/
def opSt (d : DReg) (p : PReg) (sp : Bool) (f : AddrForm) : LaneOp := fun s n _ k =>
  let (a, ps) := laneAddr k p f
  storeEff s n sp a ps [k.dReg d.val]
/-- LD2. -/
def opLd2 (d : DReg) (p : PReg) (sp : Bool) (f : AddrForm) : LaneOp := fun s n _ k =>
  let (a, ps) := laneAddr k p f
  loadEff s n k d sp a 2 ps
/-- ST2. -/
def opSt2 (d : DReg) (p : PReg) (sp : Bool) (f : AddrForm) : LaneOp := fun s n _ k =>
  let (a, ps) := laneAddr k p f
  if d.val = 15 then { stop := true } else storeEff s n sp a ps [k.dReg d.val, k.dReg (d.val + 1)]
/-- LDSIG (R324). -/
def opLdsig (d : DReg) (sel : BitVec 16) : LaneOp := fun s _ _ _ =>
  let x := s.signal sel.toNat
  if selPos sel.toNat then
    if d.val = 15 then { stop := true } else { fly := [.d 1 d (loW x), .d 1 (Fin.ofNat 16 (d.val + 1)) (hiW x)] }
  else { fly := [.d 1 d (iw x)] }
/-- SACST (R326). -/
def opSacst (acc : AccReg) (p : PReg) (sp : Bool) (f : AddrForm) (sh : BitVec 6) : LaneOp := fun s n _ k =>
  let (a, ps) := laneAddr k p f
  let r := clip32 (sacValue (k.aReg acc.val) sh)
  let e := storeEff s n sp a ps [r.1]
  if e.stop then e else { e with sat := r.2 }

/-! Multiplier and accumulators (R325, R326, Table 13-9). -/

/-- MPY. -/
def opMpy (acc : AccReg) (a b : DReg) : LaneOp := fun _ _ _ k => effMulA acc (clip72 (product k true a b))
/-- MAC. -/
def opMac (acc : AccReg) (a b : DReg) : LaneOp := fun _ _ _ k => effMulA acc (clip72 ((k.chain acc).toInt + product k true a b))
/-- MSU. -/
def opMsu (acc : AccReg) (a b : DReg) : LaneOp := fun _ _ _ k => effMulA acc (clip72 ((k.chain acc).toInt - product k true a b))
/-- MPYI. -/
def opMpyi (acc : AccReg) (a b : DReg) : LaneOp := fun _ _ _ k => effMulA acc (clip72 (product k false a b))
/-- MACI. -/
def opMaci (acc : AccReg) (a b : DReg) : LaneOp := fun _ _ _ k => effMulA acc (clip72 ((k.chain acc).toInt + product k false a b))
/-- MSUI. -/
def opMsui (acc : AccReg) (a b : DReg) : LaneOp := fun _ _ _ k => effMulA acc (clip72 ((k.chain acc).toInt - product k false a b))
/-- SAC. -/
def opSac (d : DReg) (acc : AccReg) (sh : BitVec 6) : LaneOp := fun _ _ _ k => effSat d (clip32 (sacValue (k.aReg acc.val) sh))
/-- MPYR. -/
def opMpyr (d a b : DReg) : LaneOp := fun _ _ _ k => effMulD d (clip32 (roundDiv (product k false a b) (2 ^ 31)))
/-- MOVA. -/
def opMova (acc : AccReg) (a b : DReg) : LaneOp := fun _ _ _ k => effAcc acc (BitVec.ofInt 72 (wordPair (k.dReg a.val) (k.dReg b.val)), false)
/-- ADDA. -/
def opAdda (acc accb : AccReg) : LaneOp := fun _ _ _ k => effAcc acc (clip72 ((k.aReg acc.val).toInt + (k.aReg accb.val).toInt))
/-- SUBA. -/
def opSuba (acc accb : AccReg) : LaneOp := fun _ _ _ k => effAcc acc (clip72 ((k.aReg acc.val).toInt - (k.aReg accb.val).toInt))
/-- ASHA. -/
def opAsha (acc : AccReg) (sh : BitVec 6) : LaneOp := fun _ _ _ k => effAcc acc (clip72 (shiftInt (k.aReg acc.val).toInt sh.toInt))
/-- CLRA. -/
def opClra (acc : AccReg) : LaneOp := fun _ _ _ _ => effAcc acc (0, false)
/-- ADDAD. -/
def opAddad (acc : AccReg) (a b : DReg) : LaneOp := fun _ _ _ k =>
  effAcc acc (clip72 ((k.aReg acc.val).toInt + wordPair (k.dReg a.val) (k.dReg b.val)))
/-- SUBAD. -/
def opSubad (acc : AccReg) (a b : DReg) : LaneOp := fun _ _ _ k =>
  effAcc acc (clip72 ((k.aReg acc.val).toInt - wordPair (k.dReg a.val) (k.dReg b.val)))
/-- RDL. -/
def opRdl (d : DReg) (acc : AccReg) : LaneOp := fun _ _ _ k => effD d ((k.aReg acc.val).extractLsb' 0 32)
/-- RDH. -/
def opRdh (d : DReg) (acc : AccReg) : LaneOp := fun _ _ _ k => effD d ((k.aReg acc.val).extractLsb' 32 32)
/-- RDG. -/
def opRdg (d : DReg) (acc : AccReg) : LaneOp := fun _ _ _ k => effD d (((k.aReg acc.val).extractLsb' 64 8).signExtend 32)
/-- SATA. -/
def opSata (acc : AccReg) : LaneOp := fun _ _ _ k =>
  let v := (k.aReg acc.val).toInt
  effAcc acc (BitVec.ofInt 72 (satS 64 v), satS 64 v != v)

/-! Flow (R328, R330). -/

/-- B. -/
def opB (t : BitVec 12) : LaneOp := fun _ _ _ _ => { branch := some t }
/-- CALL: the index of the instruction after the delay slot is pushed; a full stack stops the activation. -/
def opCall (t : BitVec 12) : LaneOp := fun _ _ _ k =>
  if 4 ≤ k.stack.length then { stop := true } else { branch := some t, stack := some ((k.pc + 2) :: k.stack) }
/-- RET. -/
def opRet : LaneOp := fun _ _ _ k =>
  match k.stack with
  | [] => { stop := true }
  | t :: r => { branch := some t, stack := some r }
/-- A conditional branch. -/
def branchIf (c : Bool) (t : BitVec 12) : LaneEff := if c then { branch := some t } else {}
/-- BEQZ. -/
def opBeqz (a : DReg) (t : BitVec 12) : LaneOp := fun _ _ _ k => branchIf (k.dReg a.val == 0) t
/-- BNEZ. -/
def opBnez (a : DReg) (t : BitVec 12) : LaneOp := fun _ _ _ k => branchIf (k.dReg a.val != 0) t
/-- BLTZ. -/
def opBltz (a : DReg) (t : BitVec 12) : LaneOp := fun _ _ _ k => branchIf (decide ((k.dReg a.val).toInt < 0)) t
/-- BGEZ. -/
def opBgez (a : DReg) (t : BitVec 12) : LaneOp := fun _ _ _ k => branchIf (decide (0 ≤ (k.dReg a.val).toInt)) t
/-- BGTZ. -/
def opBgtz (a : DReg) (t : BitVec 12) : LaneOp := fun _ _ _ k => branchIf (decide (0 < (k.dReg a.val).toInt)) t
/-- BLEZ. -/
def opBlez (a : DReg) (t : BitVec 12) : LaneOp := fun _ _ _ k => branchIf (decide ((k.dReg a.val).toInt ≤ 0)) t

/-- A loop of a level starts: `len` is LEN - 1 as encoded; a count of 0 skips the body. -/
def loopEff (g : LoopRegs) (lvl : Bool) (pc : BitVec 12) (len : BitVec 10) (count : Nat) : LaneEff :=
  let first := pc + 1
  let last := first + len.zeroExtend 12
  let n := BitVec.ofNat 16 count
  let g := if lvl then { g with ls1 := first, le1 := last, lc1 := n } else { g with ls0 := first, le0 := last, lc0 := n }
  { loops := some g, skip := if count = 0 then some (last + 1) else none }
/-- LOOPI. -/
def opLoopi (lvl : Bool) (len : BitVec 10) (count : BitVec 15) : LaneOp := fun s n _ k => loopEff (s.ln n).loops lvl k.pc len count.toNat
/-- LOOPR: min(max(Da, 0), MAX). -/
def opLoopr (lvl : Bool) (len : BitVec 10) (a : DReg) (mx : BitVec 11) : LaneOp := fun s n _ k =>
  loopEff (s.ln n).loops lvl k.pc len (min (k.dReg a.val).toInt.toNat mx.toNat)

/-! Pointers, loop registers, system (Table 13-7). -/

/-- MOVP. -/
def opMovp (p : PReg) (imm : BitVec 20) : LaneOp := fun _ _ _ _ => { p := [(p.val, imm)] }
/-- MOVM. -/
def opMovm (m : PReg) (imm : BitVec 16) : LaneOp := fun _ _ _ _ => { m := [(m.val, imm)] }
/-- PREG 0x01: Pn = Da[19:0]. -/
def opPregSetP (p : PReg) (a : DReg) : LaneOp := fun _ _ _ k => { p := [(p.val, (k.dReg a.val).extractLsb' 0 20)] }
/-- PREG 0x02: Dd = Pn, zero-extended. -/
def opPregGetP (p : PReg) (d : DReg) : LaneOp := fun _ _ _ k => effD d ((k.pReg p.val).zeroExtend 32)
/-- PREG 0x03: Pn = Pn + Mm. -/
def opPregAddM (p m : PReg) : LaneOp := fun _ _ _ k => { p := [(p.val, k.pReg p.val + (k.mReg m.val).signExtend 20)] }
/-- PREG 0x04: Mm = Da[15:0]. -/
def opPregSetM (m : PReg) (a : DReg) : LaneOp := fun _ _ _ k => { m := [(m.val, (k.dReg a.val).extractLsb' 0 16)] }
/-- PREG 0x05: Dd = Mm, sign-extended. -/
def opPregGetM (m : PReg) (d : DReg) : LaneOp := fun _ _ _ k => effD d ((k.mReg m.val).signExtend 32)

/-- SAVEL (Table 13-5). -/
def opSavel (d : DReg) : LaneOp := fun s n _ _ =>
  let g := (s.ln n).loops
  let pack := fun (hi lo : Nat) => nw (hi * 65536 + lo)
  if 13 < d.val then { stop := true }
  else { d := [(d.val, pack g.lc1.toNat g.lc0.toNat), (d.val + 1, pack g.le0.toNat g.ls0.toNat), (d.val + 2, pack g.le1.toNat g.ls1.toNat)] }
/-- RESTL. -/
def opRestl (d : DReg) : LaneOp := fun _ _ _ k =>
  let w := fun (i : Nat) => k.dReg (d.val + i)
  if 13 < d.val then { stop := true }
  else { loops := some { lc0 := (w 0).extractLsb' 0 16, lc1 := (w 0).extractLsb' 16 16, ls0 := (w 1).extractLsb' 0 12, le0 := (w 1).extractLsb' 16 12,
                         ls1 := (w 2).extractLsb' 0 12, le1 := (w 2).extractLsb' 16 12 } }
/-- END. -/
def opEnd : LaneOp := fun _ _ _ _ => { ended := true }
/-- CLRSAT. -/
def opClrsat : LaneOp := fun _ _ _ _ => { clrSat := true }
/-- LSR of a bank (Table 13-2). -/
def laneLsr (g : LoopRegs) (bk : Bank) (sat : Bool) : Word :=
  let n := match bk with
    | .f => 0
    | .u => 1
    | .b => 2
  nw (bitAt 9 (g.lc1 != 0) + bitAt 8 (g.lc0 != 0) + n * 16 + bitAt 0 sat)
/-- SYS 0x03: Dd = LSR. -/
def opSysReadLsr (d : DReg) : LaneOp := fun s n bk k => effD d (laneLsr (s.ln n).loops bk k.sat)

end Sys2Proof.Machine
end

