-- ==== Sys2Proof/Machine/Lane.lean ====
section
/-!
DEFINITION. The issue of one instruction by a lane (R319 to R333): the fetch check, the pipeline, loops, delay slots, the commit buffer,
the end and the stop of an activation; and the meaning of every instruction row.
-/
namespace Sys2Proof.Machine

/-! Registers of a bank after an instruction. -/

/-- A result lands in its register. -/
def BankSt.land (k : BankSt) (x : InFlight) : BankSt :=
  match x with
  | .d _ r v => { k with d := k.d.set r.val v }
  | .acc _ r v => { k with acc := k.acc.set r.val v }

/-- Issue slots left of a result. -/
def InFlight.left (x : InFlight) : Nat :=
  match x with
  | .d n _ _ => n
  | .acc n _ _ => n

/-- The result one slot later. -/
def InFlight.tick (x : InFlight) : InFlight :=
  match x with
  | .d n r v => .d (n - 1) r v
  | .acc n r v => .acc (n - 1) r v

/-- An exposed slot ends: results whose last slot it was land. -/
def BankSt.age (k : BankSt) : BankSt :=
  let xs := k.inFlight.map InFlight.tick
  { (xs.filter fun x => x.left == 0).foldl BankSt.land k with inFlight := xs.filter fun x => x.left != 0 }

/-- Every result in flight lands: the lane leaves the bank (R329). -/
def BankSt.flush (k : BankSt) : BankSt := { k.inFlight.foldl BankSt.land k with inFlight := [] }

/-- A crossbar store in the commit buffer (R323). -/
def bufferStore (l : List (BitVec 20 × Word)) (a : Nat) (w : Word) : List (BitVec 20 × Word) :=
  l.filter (fun x => x.1.toNat != a) ++ [(BitVec.ofNat 20 a, w)]

/-- The register results of an effect, after the slot has ended. -/
def BankSt.results (k : BankSt) (e : LaneEff) : BankSt :=
  let k := k.age
  { k with
    d := e.d.foldl (fun l x => l.set x.1 x.2) k.d
    acc := e.acc.foldl (fun l x => l.set x.1 x.2) k.acc
    p := e.p.foldl (fun l x => l.set x.1 x.2) k.p
    m := e.m.foldl (fun l x => l.set x.1 x.2) k.m
    sat := (k.sat && !e.clrSat) || e.sat
    stack := e.stack.getD k.stack
    inFlight := k.inFlight ++ e.fly
    commit := (e.stores.filter (·.1)).foldl (fun l x => bufferStore l x.2.1 x.2.2) k.commit }

/-- Where the lane goes on after the instruction at pc, and its loop registers (R328, R330): a branch after its delay slot, the start
of a loop body, or the next instruction. -/
def laneNext (g : LoopRegs) (pc : BitVec 12) (pending skip : Option (BitVec 12)) : BitVec 12 × LoopRegs :=
  match pending, skip with
  | some t, _ => (t, g)
  | none, some t => (t, g)
  | none, none =>
    if pc = g.le1 ∧ g.lc1 ≠ 0 then
      let g := { g with lc1 := g.lc1 - 1 }
      (if g.lc1 = 0 then pc + 1 else g.ls1, g)
    else if pc = g.le0 ∧ g.lc0 ≠ 0 then
      let g := { g with lc0 := g.lc0 - 1 }
      (if g.lc0 = 0 then pc + 1 else g.ls0, g)
    else (pc + 1, g)

/-! The end of an activation. -/

/-- The lane leaves the executing bank: the preempted one goes on, if there is one (R331, R332). -/
def LaneSt.leave (x : LaneSt) : LaneSt := { x with running := x.under, under := none }

/-- The activation in a bank is over: its results land, its buffer is empty. -/
def BankSt.over (k : BankSt) : BankSt := { k.flush with slot := none, commit := [], branch := none, executed := 0 }

/-- END (R323, R72): the commit buffer is applied to plate memory, and the work is committed. -/
def State.laneEnd (s : State) (n : Nat) (bk : Bank) : State :=
  let k := (s.ln n).bank bk
  let i := (k.slot.map (·.val)).getD 0
  let s := forL k.commit (fun x s => s.putWord (4 * x.1.toNat) x.2) s
  s.onLn n fun x =>
    let x := (x.setBank bk k.over).leave
    match bk with
    | .f => { x with ready := x.ready.filter (· ≠ .code i) }
    | .u => x
    | .b => x

/-- The activation is stopped (R75, R322): its buffer is discarded, and the work counts as missed. -/
def State.laneDrop (s : State) (n : Nat) (bk : Bank) : State :=
  let k := (s.ln n).bank bk
  let i := (k.slot.map (·.val)).getD 0
  s.onLn n fun x =>
    let x := (x.setBank bk k.over).leave
    match bk with
    | .f => { x with ready := x.ready.filter (· ≠ .code i), missed := x.missed ++ [.code i] }
    | .u => x
    | .b => x

/-- The activation in a bank. -/
def State.bankWork (s : State) (n : Nat) (bk : Bank) : Option Work := ((s.ln n).bank bk).slot.map fun i => .code i.val

/-- A stop by the bound or by an instruction that cannot be executed: BOUND_ABORTS and a lane fault. -/
def State.laneStop (s : State) (n : Nat) (bk : Bank) : State :=
  ((s.laneDrop n bk).inc16 (pgLane n) LANE.BOUND_ABORTS).laneFault n 4 (s.bankWork n bk)

/-- A stop by an uncorrectable word of the lane's store (R88, R433). -/
def State.laneEccStop (s : State) (n : Nat) (bk : Bank) : State := (s.laneDrop n bk).laneFault n 8 (s.bankWork n bk)

/-! One instruction. -/

/-- The local stores of an effect take effect at once (R323). -/
def State.localStores (s : State) (n : Nat) (e : LaneEff) : State :=
  forL (e.stores.filter fun x => !x.1) (fun x s => s.putWord (dataAddr n x.2.1) x.2.2) s

/-- An instruction of the executing bank completes with effect e. -/
def State.laneApply (s : State) (n : Nat) (bk : Bank) (e : LaneEff) : State :=
  let x := s.ln n
  let k := x.bank bk
  let (pc, g) := laneNext (e.loops.getD x.loops) k.pc k.branch e.skip
  let k' := { k.results e with pc := pc, branch := e.branch, executed := k.executed + 1 }
  let s := (s.localStores n e).onSched fun h => { h with executed := h.executed + 1 }
  s.onLn n fun x =>
    { x.setBank bk k' with loops := g, used := x.used + 1, sliceCount := if bk = .b then x.sliceCount + 1 else x.sliceCount }

/-- The word that the lane issues next, with its bank: none while no code task runs, or its bound or slice has run out (R73, R75). -/
def State.laneTurn (s : State) (n : Nat) : Option (Bank × BankSt) :=
  let x := s.ln n
  match x.running with
  | none => none
  | some bk =>
    let k := x.bank bk
    match k.slot with
    | none => none
    | some i =>
      if taskBound s.force n i.val ≤ k.executed then none
      else if bk = .b ∧ 256 ≤ x.sliceCount ∧ k.branch.isNone then none
      else some (bk, k)

/-- The lane issues instruction i where that is the instruction its pc holds; a fetch that fails stops the activation (R322). -/
def State.laneStep (s : State) (l : LaneIx) (i : Instr) (op : LaneOp) : State :=
  let n := l.val
  match s.laneTurn n with
  | none => s
  | some (bk, k) =>
    if !s.up then s
    else if !s.inCode n k.pc.toNat then s.laneStop n bk
    else if s.eccBad.contains (codeAddr n k.pc.toNat) then s.laneEccStop n bk
    else match decodeLaneWord l (s.wordAt (codeAddr n k.pc.toNat)) with
      | none => s.laneStop n bk
      | some j =>
        if j ≠ i then s
        else
          let e := op s n bk k
          if e.stop then s.laneStop n bk
          else if e.ecc then s.laneEccStop n bk
          else if e.ended then (s.laneApply n bk e).laneEnd n bk
          else s.laneApply n bk e

/-! The instruction rows. -/

/-- nop as a step of lane l. -/
def execNop (l : LaneIx) (s : State) : Out := .next (s.laneStep l (.nop l) opNop)
/-- add as a step of lane l. -/
def execAdd (l : LaneIx) (d : DReg) (a : DReg) (b : DReg) (s : State) : Out := .next (s.laneStep l (.add l d a b) (opAdd d a b))
/-- sub as a step of lane l. -/
def execSub (l : LaneIx) (d : DReg) (a : DReg) (b : DReg) (s : State) : Out := .next (s.laneStep l (.sub l d a b) (opSub d a b))
/-- adds as a step of lane l. -/
def execAdds (l : LaneIx) (d : DReg) (a : DReg) (b : DReg) (s : State) : Out := .next (s.laneStep l (.adds l d a b) (opAdds d a b))
/-- subs as a step of lane l. -/
def execSubs (l : LaneIx) (d : DReg) (a : DReg) (b : DReg) (s : State) : Out := .next (s.laneStep l (.subs l d a b) (opSubs d a b))
/-- and as a step of lane l. -/
def execAnd (l : LaneIx) (d : DReg) (a : DReg) (b : DReg) (s : State) : Out := .next (s.laneStep l (.and l d a b) (opAnd d a b))
/-- or as a step of lane l. -/
def execOr (l : LaneIx) (d : DReg) (a : DReg) (b : DReg) (s : State) : Out := .next (s.laneStep l (.or l d a b) (opOr d a b))
/-- xor as a step of lane l. -/
def execXor (l : LaneIx) (d : DReg) (a : DReg) (b : DReg) (s : State) : Out := .next (s.laneStep l (.xor l d a b) (opXor d a b))
/-- ash as a step of lane l. -/
def execAsh (l : LaneIx) (d : DReg) (a : DReg) (b : DReg) (s : State) : Out := .next (s.laneStep l (.ash l d a b) (opAsh d a b))
/-- lsh as a step of lane l. -/
def execLsh (l : LaneIx) (d : DReg) (a : DReg) (b : DReg) (s : State) : Out := .next (s.laneStep l (.lsh l d a b) (opLsh d a b))
/-- min as a step of lane l. -/
def execMin (l : LaneIx) (d : DReg) (a : DReg) (b : DReg) (s : State) : Out := .next (s.laneStep l (.min l d a b) (opMin d a b))
/-- max as a step of lane l. -/
def execMax (l : LaneIx) (d : DReg) (a : DReg) (b : DReg) (s : State) : Out := .next (s.laneStep l (.max l d a b) (opMax d a b))
/-- abs as a step of lane l. -/
def execAbs (l : LaneIx) (d : DReg) (a : DReg) (s : State) : Out := .next (s.laneStep l (.abs l d a) (opAbs d a))
/-- neg as a step of lane l. -/
def execNeg (l : LaneIx) (d : DReg) (a : DReg) (s : State) : Out := .next (s.laneStep l (.neg l d a) (opNeg d a))
/-- slt as a step of lane l. -/
def execSlt (l : LaneIx) (d : DReg) (a : DReg) (b : DReg) (s : State) : Out := .next (s.laneStep l (.slt l d a b) (opSlt d a b))
/-- sltu as a step of lane l. -/
def execSltu (l : LaneIx) (d : DReg) (a : DReg) (b : DReg) (s : State) : Out := .next (s.laneStep l (.sltu l d a b) (opSltu d a b))
/-- seq as a step of lane l. -/
def execSeq (l : LaneIx) (d : DReg) (a : DReg) (b : DReg) (s : State) : Out := .next (s.laneStep l (.seq l d a b) (opSeq d a b))
/-- selnz as a step of lane l. -/
def execSelnz (l : LaneIx) (d : DReg) (a : DReg) (b : DReg) (c : DReg) (s : State) : Out := .next (s.laneStep l (.selnz l d a b c) (opSelnz d a b c))
/-- mul as a step of lane l. -/
def execMul (l : LaneIx) (d : DReg) (a : DReg) (b : DReg) (s : State) : Out := .next (s.laneStep l (.mul l d a b) (opMul d a b))
/-- cls as a step of lane l. -/
def execCls (l : LaneIx) (d : DReg) (a : DReg) (s : State) : Out := .next (s.laneStep l (.cls l d a) (opCls d a))
/-- mov as a step of lane l. -/
def execMov (l : LaneIx) (d : DReg) (a : DReg) (s : State) : Out := .next (s.laneStep l (.mov l d a) (opMov d a))
/-- addi as a step of lane l. -/
def execAddi (l : LaneIx) (d : DReg) (a : DReg) (imm : BitVec 16) (s : State) : Out := .next (s.laneStep l (.addi l d a imm) (opAddi d a imm))
/-- movi as a step of lane l. -/
def execMovi (l : LaneIx) (d : DReg) (imm : BitVec 16) (s : State) : Out := .next (s.laneStep l (.movi l d imm) (opMovi d imm))
/-- movhi as a step of lane l. -/
def execMovhi (l : LaneIx) (d : DReg) (imm : BitVec 16) (s : State) : Out := .next (s.laneStep l (.movhi l d imm) (opMovhi d imm))
/-- andi as a step of lane l. -/
def execAndi (l : LaneIx) (d : DReg) (a : DReg) (imm : BitVec 16) (s : State) : Out := .next (s.laneStep l (.andi l d a imm) (opAndi d a imm))
/-- ori as a step of lane l. -/
def execOri (l : LaneIx) (d : DReg) (a : DReg) (imm : BitVec 16) (s : State) : Out := .next (s.laneStep l (.ori l d a imm) (opOri d a imm))
/-- ashi as a step of lane l. -/
def execAshi (l : LaneIx) (d : DReg) (a : DReg) (imm : BitVec 16) (s : State) : Out := .next (s.laneStep l (.ashi l d a imm) (opAshi d a imm))
/-- lshi as a step of lane l. -/
def execLshi (l : LaneIx) (d : DReg) (a : DReg) (imm : BitVec 16) (s : State) : Out := .next (s.laneStep l (.lshi l d a imm) (opLshi d a imm))
/-- ld as a step of lane l. -/
def execLd (l : LaneIx) (d : DReg) (p : PReg) (sp : Bool) (f : AddrForm) (s : State) : Out := .next (s.laneStep l (.ld l d p sp f) (opLd d p sp f))
/-- st as a step of lane l. -/
def execSt (l : LaneIx) (d : DReg) (p : PReg) (sp : Bool) (f : AddrForm) (s : State) : Out := .next (s.laneStep l (.st l d p sp f) (opSt d p sp f))
/-- ld2 as a step of lane l. -/
def execLd2 (l : LaneIx) (d : DReg) (p : PReg) (sp : Bool) (f : AddrForm) (s : State) : Out := .next (s.laneStep l (.ld2 l d p sp f) (opLd2 d p sp f))
/-- st2 as a step of lane l. -/
def execSt2 (l : LaneIx) (d : DReg) (p : PReg) (sp : Bool) (f : AddrForm) (s : State) : Out := .next (s.laneStep l (.st2 l d p sp f) (opSt2 d p sp f))
/-- ldsig as a step of lane l. -/
def execLdsig (l : LaneIx) (d : DReg) (sel : BitVec 16) (s : State) : Out := .next (s.laneStep l (.ldsig l d sel) (opLdsig d sel))
/-- sacst as a step of lane l. -/
def execSacst (l : LaneIx) (acc : AccReg) (p : PReg) (sp : Bool) (f : AddrForm) (sh : BitVec 6) (s : State) : Out := .next (s.laneStep l (.sacst l acc p sp f sh) (opSacst acc p sp f sh))
/-- mpy as a step of lane l. -/
def execMpy (l : LaneIx) (acc : AccReg) (a : DReg) (b : DReg) (s : State) : Out := .next (s.laneStep l (.mpy l acc a b) (opMpy acc a b))
/-- mac as a step of lane l. -/
def execMac (l : LaneIx) (acc : AccReg) (a : DReg) (b : DReg) (s : State) : Out := .next (s.laneStep l (.mac l acc a b) (opMac acc a b))
/-- msu as a step of lane l. -/
def execMsu (l : LaneIx) (acc : AccReg) (a : DReg) (b : DReg) (s : State) : Out := .next (s.laneStep l (.msu l acc a b) (opMsu acc a b))
/-- mpyi as a step of lane l. -/
def execMpyi (l : LaneIx) (acc : AccReg) (a : DReg) (b : DReg) (s : State) : Out := .next (s.laneStep l (.mpyi l acc a b) (opMpyi acc a b))
/-- maci as a step of lane l. -/
def execMaci (l : LaneIx) (acc : AccReg) (a : DReg) (b : DReg) (s : State) : Out := .next (s.laneStep l (.maci l acc a b) (opMaci acc a b))
/-- msui as a step of lane l. -/
def execMsui (l : LaneIx) (acc : AccReg) (a : DReg) (b : DReg) (s : State) : Out := .next (s.laneStep l (.msui l acc a b) (opMsui acc a b))
/-- sac as a step of lane l. -/
def execSac (l : LaneIx) (d : DReg) (acc : AccReg) (sh : BitVec 6) (s : State) : Out := .next (s.laneStep l (.sac l d acc sh) (opSac d acc sh))
/-- mpyr as a step of lane l. -/
def execMpyr (l : LaneIx) (d : DReg) (a : DReg) (b : DReg) (s : State) : Out := .next (s.laneStep l (.mpyr l d a b) (opMpyr d a b))
/-- mova as a step of lane l. -/
def execMova (l : LaneIx) (acc : AccReg) (a : DReg) (b : DReg) (s : State) : Out := .next (s.laneStep l (.mova l acc a b) (opMova acc a b))
/-- adda as a step of lane l. -/
def execAdda (l : LaneIx) (acc : AccReg) (accb : AccReg) (s : State) : Out := .next (s.laneStep l (.adda l acc accb) (opAdda acc accb))
/-- suba as a step of lane l. -/
def execSuba (l : LaneIx) (acc : AccReg) (accb : AccReg) (s : State) : Out := .next (s.laneStep l (.suba l acc accb) (opSuba acc accb))
/-- asha as a step of lane l. -/
def execAsha (l : LaneIx) (acc : AccReg) (sh : BitVec 6) (s : State) : Out := .next (s.laneStep l (.asha l acc sh) (opAsha acc sh))
/-- clra as a step of lane l. -/
def execClra (l : LaneIx) (acc : AccReg) (s : State) : Out := .next (s.laneStep l (.clra l acc) (opClra acc))
/-- addad as a step of lane l. -/
def execAddad (l : LaneIx) (acc : AccReg) (a : DReg) (b : DReg) (s : State) : Out := .next (s.laneStep l (.addad l acc a b) (opAddad acc a b))
/-- subad as a step of lane l. -/
def execSubad (l : LaneIx) (acc : AccReg) (a : DReg) (b : DReg) (s : State) : Out := .next (s.laneStep l (.subad l acc a b) (opSubad acc a b))
/-- rdl as a step of lane l. -/
def execRdl (l : LaneIx) (d : DReg) (acc : AccReg) (s : State) : Out := .next (s.laneStep l (.rdl l d acc) (opRdl d acc))
/-- rdh as a step of lane l. -/
def execRdh (l : LaneIx) (d : DReg) (acc : AccReg) (s : State) : Out := .next (s.laneStep l (.rdh l d acc) (opRdh d acc))
/-- rdg as a step of lane l. -/
def execRdg (l : LaneIx) (d : DReg) (acc : AccReg) (s : State) : Out := .next (s.laneStep l (.rdg l d acc) (opRdg d acc))
/-- sata as a step of lane l. -/
def execSata (l : LaneIx) (acc : AccReg) (s : State) : Out := .next (s.laneStep l (.sata l acc) (opSata acc))
/-- b as a step of lane l. -/
def execB (l : LaneIx) (target : BitVec 12) (s : State) : Out := .next (s.laneStep l (.b l target) (opB target))
/-- call as a step of lane l. -/
def execCall (l : LaneIx) (target : BitVec 12) (s : State) : Out := .next (s.laneStep l (.call l target) (opCall target))
/-- ret as a step of lane l. -/
def execRet (l : LaneIx) (s : State) : Out := .next (s.laneStep l (.ret l) opRet)
/-- beqz as a step of lane l. -/
def execBeqz (l : LaneIx) (a : DReg) (target : BitVec 12) (s : State) : Out := .next (s.laneStep l (.beqz l a target) (opBeqz a target))
/-- bnez as a step of lane l. -/
def execBnez (l : LaneIx) (a : DReg) (target : BitVec 12) (s : State) : Out := .next (s.laneStep l (.bnez l a target) (opBnez a target))
/-- bltz as a step of lane l. -/
def execBltz (l : LaneIx) (a : DReg) (target : BitVec 12) (s : State) : Out := .next (s.laneStep l (.bltz l a target) (opBltz a target))
/-- bgez as a step of lane l. -/
def execBgez (l : LaneIx) (a : DReg) (target : BitVec 12) (s : State) : Out := .next (s.laneStep l (.bgez l a target) (opBgez a target))
/-- bgtz as a step of lane l. -/
def execBgtz (l : LaneIx) (a : DReg) (target : BitVec 12) (s : State) : Out := .next (s.laneStep l (.bgtz l a target) (opBgtz a target))
/-- blez as a step of lane l. -/
def execBlez (l : LaneIx) (a : DReg) (target : BitVec 12) (s : State) : Out := .next (s.laneStep l (.blez l a target) (opBlez a target))
/-- loopi as a step of lane l. -/
def execLoopi (l : LaneIx) (lvl : Bool) (len : BitVec 10) (count : BitVec 15) (s : State) : Out := .next (s.laneStep l (.loopi l lvl len count) (opLoopi lvl len count))
/-- loopr as a step of lane l. -/
def execLoopr (l : LaneIx) (lvl : Bool) (len : BitVec 10) (a : DReg) (mx : BitVec 11) (s : State) : Out := .next (s.laneStep l (.loopr l lvl len a mx) (opLoopr lvl len a mx))
/-- movp as a step of lane l. -/
def execMovp (l : LaneIx) (p : PReg) (imm : BitVec 20) (s : State) : Out := .next (s.laneStep l (.movp l p imm) (opMovp p imm))
/-- movm as a step of lane l. -/
def execMovm (l : LaneIx) (p : PReg) (imm : BitVec 16) (s : State) : Out := .next (s.laneStep l (.movm l p imm) (opMovm p imm))
/-- pregSetP as a step of lane l. -/
def execPregSetP (l : LaneIx) (p : PReg) (a : DReg) (s : State) : Out := .next (s.laneStep l (.pregSetP l p a) (opPregSetP p a))
/-- pregGetP as a step of lane l. -/
def execPregGetP (l : LaneIx) (p : PReg) (d : DReg) (s : State) : Out := .next (s.laneStep l (.pregGetP l p d) (opPregGetP p d))
/-- pregAddM as a step of lane l. -/
def execPregAddM (l : LaneIx) (p : PReg) (mm : PReg) (s : State) : Out := .next (s.laneStep l (.pregAddM l p mm) (opPregAddM p mm))
/-- pregSetM as a step of lane l. -/
def execPregSetM (l : LaneIx) (mm : PReg) (a : DReg) (s : State) : Out := .next (s.laneStep l (.pregSetM l mm a) (opPregSetM mm a))
/-- pregGetM as a step of lane l. -/
def execPregGetM (l : LaneIx) (mm : PReg) (d : DReg) (s : State) : Out := .next (s.laneStep l (.pregGetM l mm d) (opPregGetM mm d))
/-- savel as a step of lane l. -/
def execSavel (l : LaneIx) (d : DReg) (s : State) : Out := .next (s.laneStep l (.savel l d) (opSavel d))
/-- restl as a step of lane l. -/
def execRestl (l : LaneIx) (d : DReg) (s : State) : Out := .next (s.laneStep l (.restl l d) (opRestl d))
/-- end as a step of lane l. -/
def execEnd (l : LaneIx) (s : State) : Out := .next (s.laneStep l (.end_ l) opEnd)
/-- clrsat as a step of lane l. -/
def execClrsat (l : LaneIx) (s : State) : Out := .next (s.laneStep l (.clrsat l) opClrsat)
/-- sysReadLsr as a step of lane l. -/
def execSysReadLsr (l : LaneIx) (d : DReg) (s : State) : Out := .next (s.laneStep l (.sysReadLsr l d) (opSysReadLsr d))

/-- The lane and the effect of an instruction row. -/
def laneTable (i : Instr) : Option (Nat × LaneOp) :=
  match i with
  | .nop l => some (l.val, opNop)
  | .add l d a b => some (l.val, opAdd d a b)
  | .sub l d a b => some (l.val, opSub d a b)
  | .adds l d a b => some (l.val, opAdds d a b)
  | .subs l d a b => some (l.val, opSubs d a b)
  | .and l d a b => some (l.val, opAnd d a b)
  | .or l d a b => some (l.val, opOr d a b)
  | .xor l d a b => some (l.val, opXor d a b)
  | .ash l d a b => some (l.val, opAsh d a b)
  | .lsh l d a b => some (l.val, opLsh d a b)
  | .min l d a b => some (l.val, opMin d a b)
  | .max l d a b => some (l.val, opMax d a b)
  | .abs l d a => some (l.val, opAbs d a)
  | .neg l d a => some (l.val, opNeg d a)
  | .slt l d a b => some (l.val, opSlt d a b)
  | .sltu l d a b => some (l.val, opSltu d a b)
  | .seq l d a b => some (l.val, opSeq d a b)
  | .selnz l d a b c => some (l.val, opSelnz d a b c)
  | .mul l d a b => some (l.val, opMul d a b)
  | .cls l d a => some (l.val, opCls d a)
  | .mov l d a => some (l.val, opMov d a)
  | .addi l d a imm => some (l.val, opAddi d a imm)
  | .movi l d imm => some (l.val, opMovi d imm)
  | .movhi l d imm => some (l.val, opMovhi d imm)
  | .andi l d a imm => some (l.val, opAndi d a imm)
  | .ori l d a imm => some (l.val, opOri d a imm)
  | .ashi l d a imm => some (l.val, opAshi d a imm)
  | .lshi l d a imm => some (l.val, opLshi d a imm)
  | .ld l d p sp f => some (l.val, opLd d p sp f)
  | .st l d p sp f => some (l.val, opSt d p sp f)
  | .ld2 l d p sp f => some (l.val, opLd2 d p sp f)
  | .st2 l d p sp f => some (l.val, opSt2 d p sp f)
  | .ldsig l d sel => some (l.val, opLdsig d sel)
  | .sacst l acc p sp f s => some (l.val, opSacst acc p sp f s)
  | .mpy l acc a b => some (l.val, opMpy acc a b)
  | .mac l acc a b => some (l.val, opMac acc a b)
  | .msu l acc a b => some (l.val, opMsu acc a b)
  | .mpyi l acc a b => some (l.val, opMpyi acc a b)
  | .maci l acc a b => some (l.val, opMaci acc a b)
  | .msui l acc a b => some (l.val, opMsui acc a b)
  | .sac l d acc s => some (l.val, opSac d acc s)
  | .mpyr l d a b => some (l.val, opMpyr d a b)
  | .mova l acc a b => some (l.val, opMova acc a b)
  | .adda l acc accb => some (l.val, opAdda acc accb)
  | .suba l acc accb => some (l.val, opSuba acc accb)
  | .asha l acc s => some (l.val, opAsha acc s)
  | .clra l acc => some (l.val, opClra acc)
  | .addad l acc a b => some (l.val, opAddad acc a b)
  | .subad l acc a b => some (l.val, opSubad acc a b)
  | .rdl l d acc => some (l.val, opRdl d acc)
  | .rdh l d acc => some (l.val, opRdh d acc)
  | .rdg l d acc => some (l.val, opRdg d acc)
  | .sata l acc => some (l.val, opSata acc)
  | .b l target => some (l.val, opB target)
  | .call l target => some (l.val, opCall target)
  | .ret l => some (l.val, opRet)
  | .beqz l a target => some (l.val, opBeqz a target)
  | .bnez l a target => some (l.val, opBnez a target)
  | .bltz l a target => some (l.val, opBltz a target)
  | .bgez l a target => some (l.val, opBgez a target)
  | .bgtz l a target => some (l.val, opBgtz a target)
  | .blez l a target => some (l.val, opBlez a target)
  | .loopi l lvl len count => some (l.val, opLoopi lvl len count)
  | .loopr l lvl len a mx => some (l.val, opLoopr lvl len a mx)
  | .movp l p imm => some (l.val, opMovp p imm)
  | .movm l p imm => some (l.val, opMovm p imm)
  | .pregSetP l p a => some (l.val, opPregSetP p a)
  | .pregGetP l p d => some (l.val, opPregGetP p d)
  | .pregAddM l p mm => some (l.val, opPregAddM p mm)
  | .pregSetM l mm a => some (l.val, opPregSetM mm a)
  | .pregGetM l mm d => some (l.val, opPregGetM mm d)
  | .savel l d => some (l.val, opSavel d)
  | .restl l d => some (l.val, opRestl d)
  | .end_ l => some (l.val, opEnd)
  | .clrsat l => some (l.val, opClrsat)
  | .sysReadLsr l d => some (l.val, opSysReadLsr d)
  | _ => none

/-- The instruction that the lane's pc holds, as a command. -/
def State.laneHeld (s : State) (l : LaneIx) : Option Instr :=
  match s.laneTurn l.val with
  | none => none
  | some (_, k) => decodeLaneWord l (s.wordAt (codeAddr l.val k.pc.toNat))

/-- LOOP_COUNT_EXPIRY (R330): the instruction at LE of a level completes in its last iteration, and the loop ends. -/
def execLoopCountExpiry (l : LaneIx) (lvl : Bool) (s : State) : Out :=
  let n := l.val
  let g := (s.ln n).loops
  match s.laneTurn n, s.laneHeld l with
  | some (_, k), some i =>
    let le := if lvl then g.le1 else g.le0
    let lc := if lvl then g.lc1 else g.lc0
    if k.pc = le ∧ lc = 1 ∧ k.branch.isNone then
      match laneTable i with
      | some (_, op) => .next (s.laneStep l i op)
      | none => .next s
    else .next s
  | _, _ => .next s

end Sys2Proof.Machine
end

