-- ==== Sys2Proof/Machine/Power.lean ====
section
/-!
DEFINITION. CLEAR_EVENTS (R52): the PAGE_FAULT bits whose cause has ended and the counters it names; requests for a power state
(R81, R83).
-/
namespace Sys2Proof.Machine

/-- A source is active on some axis, or on the device. -/
def State.srcAny (s : State) (src : Nat) : Bool := s.safety.srcs.any fun x => x.1 == src

/-- A source is active on an axis of a list. -/
def State.srcIn (s : State) (src : Nat) (axes : List Nat) : Bool := axes.any (s.srcOn src)

/-- The cause of a PAGE_FAULT bit of the TIME to BILVA pages still holds. -/
def State.faultHeldLow (s : State) (p b : Nat) : Bool :=
  let c := s.force
  if p = pgSched then
    if b = 1 then s.srcAny srcReconfig else (List.range 8).any fun n => s.chRet 5 n && laneHasTask c n
  else if p = pgHk then
    if b = 3 then s.hk.excluded != 0 else if b = 2 then s.srcAny srcSupply else if b = 0 then s.srcAny srcTjOver else false
  else if p = pgSafe then
    if b = 4 then s.safety.stoPath else if b = 3 then s.srcAny srcStoTest else if b = 2 then s.srcAny srcXcheck
    else if b = 1 then s.sins.any (·.fault) else false
  else if p = pgFio then
    if 8 ≤ b then s.chRet 7 (b - 8) else if b = 3 then !s.field.flinkUp else if b = 2 then s.field.cut
    else if b = 1 then s.field.sag else s.field.flt
  else if p = pgPlink then
    if b = 3 then s.chop.judged else if b = 2 then s.pdie.vinOv else if b = 1 then s.pdie.vgdUv
    else if b = 0 then s.srcAny srcPlink else false
  else if p = pgMgmt then s.power.thermLatch
  else if p = pgDma then b == 0 && s.dmaHalted
  else if p = 0x0C ∨ p = 0x0D then (if b = 1 then s.chRet 6 (p - 0x0C) else (s.cn (p - 0x0C)).busOff)
  else false

/-- The cause of a PAGE_FAULT bit of the ADC page and the pages above it still holds. -/
def State.faultHeldHigh (s : State) (p b : Nat) : Bool :=
  let c := s.force
  if p = pgAdc then s.chRet 2 b || s.inRetry 2 b
  else if p < 0x18 then
    if b = 3 then s.srcOn srcRestart (p - 0x10) else if b = 2 then s.srcOn srcOverCur (p - 0x10)
    else if b = 1 then s.srcOn srcCurInv (p - 0x10) else false
  else if p < 0x20 then
    let x := s.fb (p - 0x18)
    x.state == .retired || (x.state == .retry && x.cause.getLsbD b)
  else if p < 0x30 then (if b = 1 then (s.mt (p - 0x20)).masterBad else s.srcOn srcLostStep (p - 0x20))
  else if p = pgHoist then
    if b = 12 then s.srcAny srcRescue
    else if 10 ≤ b then s.srcIn srcShareCap (shareAxes c (b - 10))
    else if 8 ≤ b then s.srcIn srcShareLeader (shareAxes c (b - 8))
    else if 6 ≤ b then (s.sh (b - 6)).mismatch
    else (s.rp b).slack
  else if 0x34 ≤ p ∧ p < 0x38 then
    if 8 ≤ b then (s.lg (8 * (p - 0x34) + b - 8)).cross else s.chRet 4 (8 * (p - 0x34) + b)
  else if 0x38 ≤ p ∧ p < 0x3A then
    let l := 6 * (p - 0x38)
    if 16 ≤ b then s.chRet 3 (l + b - 16) else if 8 ≤ b then (s.lg (l + b - 8)).cross
    else (s.lg (l + b)).vdsHoldH || (s.lg (l + b)).vdsHoldL
  else if 0x48 ≤ p ∧ p < 0x50 then (s.dm (8 * (p - 0x48) + b)).state == .error
  else if 0x50 ≤ p ∧ p < 0x58 then b == 4 && s.chRet 5 (p - 0x50)
  else false

/-- The cause of PAGE_FAULT bit b of page p still holds. The LOOP pages have their own rule. -/
def State.faultHeld (s : State) (p b : Nat) : Bool := if p < pgAdc then s.faultHeldLow p b else s.faultHeldHigh p b

/-- PAGE_FAULT bits whose cause has ended clear. -/
def State.clearFaults (s : State) : State :=
  let s := forL (allPages.filter fun p => !(decide (0x40 ≤ p) && decide (p < 0x48))) (fun p s =>
    if s.lv p pageFault = 0 then s
    else s.onLv p pageFault fun w => nw ((List.range 32).map fun b => bitAt b (bt w b && s.faultHeld p b)).sum) s
  s.clearLoop

/-- Counters of single pages that CLEAR_EVENTS clears, as page and offset. -/
def clearedOne : List (Nat × Nat) :=
  [(pgTime, TIME.OVERRUN_COUNT), (pgSys, SYS.REFUSED_COUNT), (pgSched, SCHED.SHED_COUNT), (pgPlink, PLINK.CRC_COUNT),
   (pgFio, FIO.FLINK_CRC), (pgBilva, BILVA.FWD_DROP), (pgBilva, BILVA.BAD_COUNT), (pgDma, DMA.HALT_COUNT),
   (pgTrace, TRACE.TRIG_IGNORED), (pgTrace, TRACE.STREAM_DROP), (pgHost, HOST.CRC_ERRORS), (pgHost, HOST.ABORT_COUNT),
   (pgMgmt, MGMT.PEC_ERRORS), (pgMgmt, MGMT.REFUSED_COUNT), (pgHk, HK.ECC_CE), (pgHk, HK.ECC_UE), (pgHk, HK.TELE_SKIPPED),
   (pgNvlog, NVLOG.LOST), (pgHoist, HOIST.REF_COUNT 0), (pgHoist, HOIST.REF_COUNT 1), (pgCan 0, CAN.RX_OVERFLOW),
   (pgCan 1, CAN.RX_OVERFLOW)]

/-- Counters of pages with several instances that CLEAR_EVENTS clears. -/
def clearedMany : List (Nat × Nat) :=
  ((List.range 8).flatMap fun n =>
    [(pgLane n, LANE.USED_MAX), (pgLane n, LANE.BOUND_ABORTS), (pgLane n, LANE.URGENT_MERGED), (pgAxis n, AXIS.RESTART_COUNT),
     (pgFb n, FB.FAULT_COUNT)])
  ++ ((List.range 4).flatMap fun n => (List.range 8).map fun j => (pgPwm n, PWM.LATE_UPDATES j))
  ++ ((List.range 2).flatMap fun n => (List.range 6).flatMap fun j => [(pgGd n, GD.TRIP_COUNT j), (pgGd n, GD.XCMD_COUNT j)])
  ++ ((List.range 8).flatMap fun n => (List.range 8).map fun j => (pgDmach n, DMACH.ZERO_BEATS j))

/-- The counters named as cleared by CLEAR_EVENTS, and DEPTH_LOSS_MAX. -/
def State.clearCounters (s : State) : State :=
  let s := forL (clearedOne ++ clearedMany) (fun x s => s.setLv x.1 x.2 0) s
  forN 8 (fun a s => s.onLv (pgAxis a) AXIS.DEPTH fun w => putFld w 15 0 0) s

/-- Latched conditions that end at CLEAR_EVENTS: SIN_FAULT (R297), the chopper's judgement (R269), two leaders of a share group,
NODE_CONFLICT; then OTE, where no source holds it off (R304). -/
def State.clearLatched (s : State) : State :=
  let s := s.clearSin
  let s := match chopLeg s.force with
    | some l => if s.chop.judged && !s.inRetry 4 l && !s.chRet 4 l then s.chopClear else s
    | none => s
  let s := forN 2 (fun g s =>
    if shareLeader s.force g && (s.sh g).mismatch then (s.shareMismatch g false).onSh g fun x => { x with leaderNode := none } else s) s
  let s := s.clearSrc srcNodeConf 16
  if s.safety.srcs.any fun x => oteSrc x.1 then s else s.onSafe fun x => { x with oteOff := false }

/-- CLEAR_EVENTS as a whole. -/
def State.clearAll (s : State) : State := s.clearLatched.clearFaults.clearCounters

/-- CLEAR_EVENTS (R52, Table 2-6). -/
def execClearEvents (m : Master) (seq arg8 : Byte) (s : State) : Out :=
  let _ := arg8
  .next (s.command m seq 0x09 [] fun s => s.clearAll.accept m seq 0x09)

/-! Requests for a power state. -/

/-- A power state cannot be requested now (R83, R213). -/
def State.powerBad (s : State) (st : Nat) : Bool :=
  (decide (st ≤ 2) && !stateEn s.force st)
  || (st == 3 && s.axes.any fun x => x.state != .disabled)
  || (s.sched.state == 3 && (st == 1 || st == 2))
  || (rescueEn s.force && s.rescueBusy && (st == 0 || st == 1))

/-- A write of POWER_REQ (R81, R83): refused without effect, or the request in place of an earlier one. Naming the state in force
leaves no change to wait for. -/
def State.powerReq (s : State) (m : Master) (v : Word) : State :=
  let st := fld v 1 0
  if s.powerBad st then s.refuseBy m eState 0 (regAddr pgSched SCHED.POWER_REQ)
  else (s.setLv pgSched SCHED.POWER_REQ (nw st)).onSched fun x => { x with request := if st = s.sched.state then none else some st }

/-- POWER_REQ (R83). -/
def execPowerReq (v : Word) (s : State) : Out := if s.up then .next ((s.touch .host).powerReq .host v) else .next s

end Sys2Proof.Machine
end

