-- ==== Sys2Proof/Machine/Bus.lean ====
section
/-!
DEFINITION. One access of a master to one word: access codes (R7 to R10, R43), pairs (R6), registers whose write is an action, and the
memory windows (R339, R346, R435). Frames, transactions and DMA beats are made of these.
-/
namespace Sys2Proof.Machine

/-- The state of an outcome. -/
def outSt (o : Out) (s : State) : State :=
  match o with
  | .next t => t
  | _ => s

/-! Addresses. -/

/-- An address that Table 2-1 or a memory window holds (R40). -/
def isMapped (a : Nat) : Bool := isMem a || (decide (a < 0x100000) && (pageRows (pageOf a)).isSome)

/-- The supervisor's Bilva area of message memory (R346). -/
def isBilvaArea (a : Nat) : Bool := decide (0x305A00 ≤ a ∧ a < 0x308000)

/-- A word of a lane instruction store. -/
def isLaneCode (a : Nat) : Bool := isLaneStore a && decide (a % 0x8000 < 0x4000)

/-- Low words of the live 64-bit registers of a page type, by its first page (R6). -/
def pairLows (p0 : Nat) : List Nat :=
  if p0 = pgSys then [SYS.STRIKE_TICK_LO, SYS.STRIKE_DUE_LO]
  else if p0 = pgTime then [TIME.TICK_LO, TIME.FRAME_COUNT_LO, TIME.FRAME_START_LO, TIME.NT_LO, TIME.NT_SET_LO, TIME.FRAME_NT_LO]
  else if p0 = pgDma then [DMA.ACTIVE_LO]
  else if p0 = pgBilva then [BILVA.NETSTRIKE_T_LO]
  else if p0 = 0x18 then [FB.POS_LO, FB.ACQ_TICK_LO, FB.INDEX_POS_LO, FB.POS_LOAD_LO, FB.RAW_LO]
  else if p0 = 0x20 then
    [MOT.TARGET_LO, MOT.POS_SP_LO, MOT.POS_ACT_LO, MOT.STEP_POS_LO, MOT.SWITCH_POS_LO, MOT.CMP_POS_LO 0, MOT.CMP_POS_LO 1,
     MOT.CMP_TICK_LO 0, MOT.CMP_TICK_LO 1, MOT.LATCH_POS_LO 0, MOT.LATCH_POS_LO 1, MOT.LATCH_TICK_LO 0, MOT.LATCH_TICK_LO 1]
  else []

/-- An offset of a page is the low word of a live 64-bit register. -/
def isPairLow (p o : Nat) : Bool :=
  match rowAt p o with
  | some (p0, _) => (pairLows p0).contains o
  | none => false

/-- An offset of a page is the high word of one. -/
def isPairHigh (p o : Nat) : Bool := decide (4 ≤ o) && isPairLow p (o - 4)

/-! Reads. -/

/-- Word of a memory window as a reader takes it: the Bilva area reads 0 (R346); an uncorrectable word of the plate memory is a bus
error whose read returns 0 (R387, R433), one of a lane store a free value (log entry 17). -/
def State.memRead (s : State) (a : Nat) : State × Word :=
  if isBilvaArea a then (s, 0)
  else if s.eccBad.contains a then
    if isPlate a then (s, 0)
    else
      let (i, s) := s.takeFree
      (s, Config.freeWord i)
  else (s, s.wordAt a)

/-- What a read of a master takes and does: the holding register of a pair (R6), the slot lock of a receive window (R346). -/
def State.busRead (s : State) (m : Master) (a : Nat) : State × Word :=
  let s := s.touch m
  if a < 0x100000 then
    let p := pageOf a
    let o := offOf a
    match (if isPairHigh p o then (s.mstr m).rHold.find? fun x => x.1 == a - 4 else none) with
    | some (k, w) => (s.onMstr m fun x => { x with rHold := x.rHold.filter fun y => y.1 ≠ k }, w)
    | none =>
      let v := s.regRead p o
      if isPairLow p o then
        let hi := s.regRead p (o + 4)
        (s.onMstr m fun x => { x with rHold := (a, hi) :: x.rHold.filter fun y => y.1 ≠ a }, v)
      else (s, v)
  else
    let (s, v) := s.memRead a
    (s.msgRead a (match m with | .host => .host | .manager => .manager), v)

/-! Writes that are actions. -/

/-- A write of SYS.CMD or MGMT.CMD (Tables 2-5, 2-6). -/
def State.sysCmd (s : State) (m : Master) (v : Word) : State :=
  let seq := BitVec.ofNat 8 (fld v 31 24)
  let arg8 := BitVec.ofNat 8 (fld v 23 16)
  match fld v 7 0 with
  | 0x01 => outSt (execStageOpen m seq arg8 s) s
  | 0x02 => outSt (execStageDiscard m seq arg8 s) s
  | 0x03 => outSt (execProof m seq arg8 s) s
  | 0x04 => outSt (execStrike m seq arg8 s) s
  | 0x05 => outSt (execStrikeAt m seq arg8 s) s
  | 0x06 => outSt (execProofStrike m seq arg8 s) s
  | 0x07 => outSt (execPrecheck m seq arg8 s) s
  | 0x08 => outSt (execSafeStop m seq arg8 s) s
  | 0x09 => outSt (execClearEvents m seq arg8 s) s
  | 0x0A => outSt (execReadmit m seq arg8 s) s
  | 0x0B => outSt (execSaveImage m seq arg8 s) s
  | code => s.badCommand m seq code

/-- Registers of a MOT page that the rescue sequence holds (R217): TARGET, V_MAX, ACC, DEC, JERK, JOG_V. -/
def motHeld (o : Nat) : Bool :=
  [MOT.TARGET_LO, MOT.TARGET_LO + 4, MOT.V_MAX, MOT.ACC, MOT.DEC, MOT.JERK, MOT.JOG_V].contains o

/-- A write to a MOT page is refused by the rescue sequence. -/
def State.motRefused (s : State) (p o : Nat) : Bool :=
  decide (0x20 ≤ p ∧ p < 0x30) && motHeld o && rescueEn s.force && p == pgMot (rescueAxis s.force) && s.rescueBusy

/-- Registers of the pages below AXIS0 whose write is more than a store; none for every other. -/
def State.actLow (s : State) (m : Master) (p o : Nat) (v : Word) : Option State :=
  if (p = pgSys ∧ o = SYS.CMD) ∨ (p = pgMgmt ∧ o = MGMT.CMD) then some (s.sysCmd m v)
  else if p = pgTime ∧ o = TIME.NT_CMD then
    let s := if bt v 0 then s.relockBy m else s
    let s := if bt v 1 then s.ntSetBy m else s
    some (if bt v 2 then s.bcastBy m else s)
  else if p = pgSched ∧ o = SCHED.POWER_REQ then some (s.powerReq m v)
  else if p = pgSafe ∧ o = SAFE.AXIS_CMD then some (s.axisCmd m (fld v 19 16) (fld v 3 0))
  else if p = pgSafe ∧ o = SAFE.SEL_HOST then some (s.selHost m v)
  else if p = pgDma ∧ o = DMA.CMD then some (s.dmaCmd m v)
  else if p = pgTrace ∧ o = TRACE.CMD then some (s.traceCmd m v)
  else if p = pgCan 0 ∨ p = pgCan 1 then
    let q := p - pgCan 0
    if o = CAN.CMD then some (if bt v 0 then s.canRecover q else s)
    else if o = CAN.TX_REQ then some (s.canTxReq m q v)
    else if o = CAN.TX_ABORT then some (s.canTxAbort q v)
    else none
  else if p = pgBilva ∧ o = BILVA.NETSTRIKE_CMD then
    let s := if bt v 0 then s.netSend (bt v 2) else s
    some (if bt v 1 then s.netCancel else s)
  else none

/-- Registers of the pages from AXIS0 up whose write is more than a store. -/
def State.actHigh (s : State) (m : Master) (p o : Nat) (v : Word) : Option State :=
  if 0x18 ≤ p ∧ p < 0x20 then if o = FB.LOAD_CMD then some (s.loadCmd m (p - 0x18) v) else none
  else if 0x20 ≤ p ∧ p < 0x30 then
    let a := p - 0x20
    if o = MOT.CMD then some (s.motCmd m a (fld v 3 0))
    else if o = MOT.CMP_CTRL 0 then some (outSt (execCompareArm (Fin.ofNat 16 a) 0 v s) s)
    else if o = MOT.CMP_CTRL 1 then some (outSt (execCompareArm (Fin.ofNat 16 a) 1 v s) s)
    else if o = MOT.LATCH_CTRL 0 then some (outSt (execLatchArm (Fin.ofNat 16 a) 0 v s) s)
    else if o = MOT.LATCH_CTRL 1 then some (outSt (execLatchArm (Fin.ofNat 16 a) 1 v s) s)
    else none
  else if p = pgGroup then
    match (List.range 4).find? fun g => o == GROUP.PUSH g with
    | some g =>
      let s := if bt v 0 then s.pushBy m g else s
      some (if bt v 1 then s.flushBy g else s)
    | none => none
  else if p = pgHoist then
    if o = HOIST.RESCUE_CMD then some (if bt v 0 then s.rescueStartBy m else s) else none
  else if 0x34 ≤ p ∧ p < 0x38 then
    match (List.range 8).find? fun j => decide (PWM.DUTY j ≤ o ∧ o ≤ PWM.CTRL j) with
    | some j =>
      let l := 8 * (p - 0x34) + j
      if o = PWM.DUTY j then some (s.dutyWrite l v)
      else if o = PWM.PERIOD j then some (s.periodWrite m l v)
      else some (s.pwmCtrlWrite m l v)
    | none => none
  else if 0x48 ≤ p ∧ p < 0x50 then
    match (List.range 8).find? fun j => o == DMACH.CH_CMD j with
    | some j => some (s.chCmd (8 * (p - 0x48) + j) v)
    | none => none
  else none

/-- A live register written with a word, under its access code (R7, R9). -/
def State.liveWrite (s : State) (m : Master) (p o : Nat) (v : Word) : State :=
  match rowAt p o with
  | none => s
  | some (_, r) =>
    match (if p < 0x10 then s.actLow m p o v else s.actHigh m p o v) with
    | some t => t
    | none =>
      match r.acc with
      | .rw => s.setLv p o (v &&& r.mask)
      | .w1c => s.onLv p o fun w => w &&& ~~~v
      | _ => s

/-- A write to a live register by a master that may write it: the low word of a pair is held, the high word applies both (R6). -/
def State.pairWrite (s : State) (m : Master) (a : Nat) (v : Word) : State :=
  let p := pageOf a
  let o := offOf a
  let rw := accAt a == some .rw
  if s.motRefused p o then s.refuseBy m eState 0 a
  else
    let s := s.touch m
    if rw && isPairLow p o then s.onMstr m fun x => { x with wHold := (a, v) :: x.wHold.filter fun y => y.1 ≠ a }
    else
      match (if rw && isPairHigh p o then (s.mstr m).wHold.find? fun x => x.1 == a - 4 else none) with
      | some (k, w) =>
        let s := s.onMstr m fun x => { x with wHold := x.wHold.filter fun y => y.1 ≠ k }
        (s.liveWrite m p (o - 4) w).liveWrite m p o v
      | none => s.liveWrite m p o v

/-! Memory windows. -/

/-- A write of a lane instruction store is refused (R339, R340): its index lies in a code range in force, copied ones included, or in
the range staged in an open stage. -/
def State.codeHeld (s : State) (a : Nat) : Bool :=
  let n := (a - 0x180000) / 0x8000
  let i := a % 0x8000 / 4
  let staged := codeRange s.cand n
  s.inCode n i || (s.stage.state != .closed && decide (staged.1 ≤ i ∧ i < staged.1 + staged.2))

/-- A word written to a memory window by a master. -/
def State.memWrite (s : State) (m : Master) (a : Nat) (v : Word) : State :=
  if isLogWin a then s.refuseBy m eRange 0 a
  else if isLaneCode a && s.codeHeld a then s.refuseBy m eState 0 a
  else
    let s := s.touch m
    if isMem a && !isBilvaArea a then s.putWord a v else s

/-! One write of a master. -/

/-- A write of one word while the fabric is down: the host's is not applied (R449); the manager's reaches the RW and WO registers of
the MGMT page, and is refused elsewhere (R420). -/
def State.downWrite (s : State) (m : Master) (a : Nat) (v : Word) : State :=
  match m with
  | .host => s
  | .manager =>
    if s.power.phase = .off then s
    else if a < 0x100000 ∧ pageOf a = pgMgmt ∧ accAt a ≠ some .st then s.liveWrite .manager pgMgmt (offOf a) v
    else s.downRefuse

/-- A write of one word by a master (R7, R45, R46, R418). -/
def State.busWrite (s : State) (m : Master) (a : Nat) (v : Word) : State :=
  if !s.up then s.downWrite m a v
  else if a < 0x100000 then
    if accAt a = some .st then s.stagedWrite m a v
    else if (pageOf a == pgMgmt) != (m == .manager) then
      (if (pageRows (pageOf a)).isSome || m == .manager then s.refuseBy m eRange 0 a else s)
    else s.pairWrite m a v
  else if m = .manager then s.refuseBy m eRange 0 a
  else s.memWrite m a v

/-! The rows of single accesses. -/

/-- REGISTER_WRITE (R7): a whole aligned word (R8). -/
def execRegisterWrite (m : Master) (addr : Addr) (v : Word) (s : State) : Out :=
  .next (if addr.toNat % 4 = 0 then s.busWrite m addr.toNat v else s)

/-- LANE_CODE_WRITE (R339). -/
def execLaneCodeWrite (m : Master) (addr : Addr) (v : Word) (s : State) : Out :=
  .next (if addr.toNat % 4 = 0 ∧ isLaneCode addr.toNat then s.busWrite m addr.toNat v else s)

/-- PAIR_LOW_READ (R6): the word read is the master's answer. -/
def execPairLowRead (m : Master) (addr : Addr) (s : State) : Out :=
  let a := addr.toNat
  if s.up && decide (a < 0x100000) && isPairLow (pageOf a) (offOf a) then
    let (s, v) := s.busRead m a
    .next (s.onMstr m fun x => { x with outData := [v] })
  else .next s

/-- PAIR_LOW_WRITE (R6). -/
def execPairLowWrite (m : Master) (addr : Addr) (v : Word) (s : State) : Out :=
  let a := addr.toNat
  .next (if a < 0x100000 ∧ isPairLow (pageOf a) (offOf a) then s.busWrite m a v else s)

/-- PAIR_HIGH_WRITE (R6). -/
def execPairHighWrite (m : Master) (addr : Addr) (v : Word) (s : State) : Out :=
  let a := addr.toNat
  .next (if a < 0x100000 ∧ isPairHigh (pageOf a) (offOf a) then s.busWrite m a v else s)

end Sys2Proof.Machine
end

