-- ==== Sys2Proof/Machine/Ports.lean ====
section
/-!
DEFINITION. The two ports: host frames (R408 to R413, R449) and management transactions (R415 to R421), with the answers they send.
-/
namespace Sys2Proof.Machine

/-- Bytes of a word, most significant first (R408). -/
def wordBytesMsb (w : Word) : List Byte := (wordBytes w).reverse

/-- Bytes of an address, most significant first. -/
def addrBytes (a : Nat) : List Byte := [BitVec.ofNat 8 (a / 65536), BitVec.ofNat 8 (a / 256), BitVec.ofNat 8 a]

/-- LAST_ERR of a port: cause and address (R413, R424). -/
def State.lastErr (s : State) (m : Master) (cause a : Nat) : State :=
  match m with
  | .host => s.setLv pgHost HOST.LAST_ERR (nw (cause * 2 ^ 28 + a % 2 ^ 24))
  | .manager => s.setLv pgMgmt MGMT.LAST_ERR (nw (cause * 2 ^ 28 + a % 2 ^ 24))

/-- Causes of LAST_ERR. -/
abbrev errCrc : Nat := 1
abbrev errAlign : Nat := 2
abbrev errRange : Nat := 3
abbrev errUnmapped : Nat := 4
abbrev errRefused : Nat := 5
abbrev errPec : Nat := 6

/-- One word of an accepted burst is written: an unmapped address and a refused write are recorded for the port (R411, R413). -/
def State.portWrite (s : State) (m : Master) (a : Nat) (v : Word) : State :=
  let was := (s.mstr m).prevRefused
  let s := (s.onMstr m fun x => { x with prevRefused := false }).busWrite m a v
  let bad := (s.mstr m).prevRefused
  let s := s.onMstr m fun x => { x with prevRefused := was || bad }
  if bad then s.lastErr m errRefused a
  else if !isMapped a then (s.onMstr m fun x => { x with prevUnmapped := true }).lastErr m errUnmapped a
  else s

/-- The words of a burst are written in ascending address order. -/
def State.portWrites (s : State) (m : Master) (a : Nat) : List Word → State
  | [] => s
  | w :: ws => (s.portWrite m a w).portWrites m (a + 4) ws

/-- One word of a burst is read; an unmapped address is recorded (R413). -/
def State.portRead (s : State) (m : Master) (a : Nat) : State × Word :=
  if isMapped a then s.busRead m a else ((s.touch m).lastErr m errUnmapped a, 0)

/-- The words of a burst are read in ascending address order. -/
def State.portReads (s : State) (m : Master) (a : Nat) : Nat → State × List Word
  | 0 => (s, [])
  | n + 1 =>
    let (s, w) := s.portRead m a
    let (s, ws) := s.portReads m (a + 4) n
    (s, w :: ws)

/-! Host frames. -/

/-- Words of a frame: LEN + 1. -/
def cmdWords (cmd : Byte) : Nat := cmd.toNat % 64 + 1
/-- READ. -/
def cmdRead (cmd : Byte) : Bool := cmd.getLsbD 7
/-- QUAD. -/
def cmdQuad (cmd : Byte) : Bool := cmd.getLsbD 6

/-- HCRC over CMD, ADDR and WDATA (R409). -/
def frameCrc (cmd : Byte) (a : Nat) (ws : List Word) : Nat := crc16 (byteBits (cmd :: addrBytes a ++ ws.flatMap wordBytesMsb))

/-- A burst of n words from a crosses a 4 KiB boundary (R410). -/
def crosses (a n : Nat) : Bool := decide (0x1000 < a % 0x1000 + 4 * n)

/-- Bits [2:0] of STATUS: RANGE, ALIGN, CRC_ERR (R410). -/
def frameBad (crcOk : Bool) (a n : Nat) : Nat := bitAt 2 (crosses a n) + bitAt 1 (a % 4 != 0) + bitAt 0 (!crcOk)

/-- First cause of a refused frame. -/
def badCause (bad : Nat) : Nat := if bad.testBit 0 then errCrc else if bad.testBit 1 then errAlign else errRange

/-- A refused frame (R410, R413): nothing of it is executed. -/
def State.frameRefused (s : State) (bad a : Nat) : State :=
  let s := s.onMstr .host fun x => { x with prevLost := true }
  if !s.up then s
  else
    let s := (s.lastErr .host (badCause bad) a).event pgHost (1 + bitAt 1 (bad.testBit 0))
    if bad.testBit 0 then s.inc16 pgHost HOST.CRC_ERRORS else s

/-- The flags of the frame before, as they stand in STATUS (Table 17-3); they are taken by this frame. -/
def State.takePrev (s : State) : State × Nat :=
  let x := s.mstr .host
  (s.onMstr .host fun x => { x with prevLost := false, prevRefused := false, prevUnmapped := false },
   bitAt 11 x.prevUnmapped + bitAt 10 x.prevRefused + bitAt 9 x.prevLost)

/-- A frame completes: STATUS, data and DCRC go out, the frame counts (Tables 17-1, 17-3, 17-6). SEQ shows FRAME_COUNT before the
frame completes (log entry 55). -/
def State.frameEnd (s : State) (cmd : Byte) (prev bits : Nat) (data : List Word) : State :=
  let count := s.lv pgHost HOST.FRAME_COUNT
  let st := nw (fld count 7 0 * 2 ^ 24 + bitAt 15 s.hirq + prev + bits)
  let s := s.onMstr .host fun x =>
    { x with outStatus := st, outData := data, outCrc := BitVec.ofNat 16 (crc16 (byteBits ((st :: data).flatMap wordBytesMsb))) }
  if s.up then (s.setLv pgHost HOST.FRAME_COUNT (count + 1)).onLv pgHost HOST.STATUS fun w => putBt w 8 (cmdQuad cmd) else s

/-- HOST_FRAME_ABORT (R413): CS_N rose before the end of HCRC. -/
def State.frameAbort (s : State) : State :=
  let s := s.onMstr .host fun x => { x with prevLost := true, prevRefused := false, prevUnmapped := false }
  if s.up then (s.inc16 pgHost HOST.ABORT_COUNT).event pgHost 4 else s

/-- The host port is in service: the host I/O domain and the core domain have their supplies. -/
def State.hostPort (s : State) : Bool := s.power.vio && s.power.phase != .off

/-- HOST_WRITE_FRAME (R410, R411): too few words are a frame cut short (R413). Before step 9 no write is applied (R449). -/
def execHostWriteFrame (cmd : Byte) (addr : Addr) (ws : List Word) (hcrc : BitVec 16) (s : State) : Out :=
  let a := addr.toNat
  let n := cmdWords cmd
  if !s.hostPort || cmdRead cmd then .next s
  else if ws.length < n then .next s.frameAbort
  else
    let ws := ws.take n
    let bad := frameBad (frameCrc cmd a ws == hcrc.toNat) a n
    let (s, prev) := s.takePrev
    let s := if bad ≠ 0 then s.frameRefused bad a else if s.up then s.portWrites .host a ws else s
    .next (s.frameEnd cmd prev bad [])

/-- HOST_READ_FRAME (R410, R412): the words from index `lateFrom` on are not ready when due and are sent as 0. -/
def execHostReadFrame (cmd : Byte) (addr : Addr) (hcrc : BitVec 16) (lateFrom : Nat) (s : State) : Out :=
  let a := addr.toNat
  let n := cmdWords cmd
  if !s.hostPort || !cmdRead cmd then .next s
  else
    let bad := frameBad (frameCrc cmd a [] == hcrc.toNat) a n
    let (s, prev) := s.takePrev
    if bad ≠ 0 then .next ((s.frameRefused bad a).frameEnd cmd prev bad (List.replicate n 0))
    else if !s.up then .next (s.frameEnd cmd prev 0 (List.replicate n 0))
    else
      let unmapped := (List.range n).any fun i => !isMapped (a + 4 * i)
      let (s, data) := s.portReads .host a n
      let sent := data.take lateFrom ++ List.replicate (n - lateFrom) 0
      .next (s.frameEnd cmd prev (bitAt 4 (decide (lateFrom < n)) + bitAt 3 unmapped) sent)

/-- HOST_FRAME_ABORT (R413). -/
def execHostFrameAbort (s : State) : Out := .next (if s.hostPort then s.frameAbort else s)

/-! Management transactions. -/

/-- Words of a management burst. -/
def mgmtWords (len : Byte) : Nat := len.toNat + 1

/-- The burst rules of R410 on a management burst; more than 16 words are refused like RANGE (log entry 55). -/
def burstCause (a : Nat) (len : Byte) : Option Nat :=
  if a % 4 ≠ 0 then some errAlign
  else if 15 < len.toNat ∨ crosses a (mgmtWords len) then some errRange
  else none

/-- Bytes of a transaction up to LEN (Table 17-5). -/
def State.mgmtHead (s : State) (a : Nat) (len : Byte) : List Byte :=
  BitVec.ofNat 8 (2 * s.mgmtAddr) :: addrBytes a ++ [len]

/-- PEC over bytes (R416). -/
def pecOf (bs : List Byte) : Nat := crcPec (byteBits bs)

/-- Words of bytes, each least significant byte first. -/
def bytesWords : Nat → List Byte → List Word
  | 0, _ => []
  | n + 1, bs => bytesWord (bs.take 4) :: bytesWords n (bs.drop 4)

/-- An address that the manager may write (R418): the RW, WO and W1C registers and the staged range of the MGMT page. -/
def mgrMay (a : Nat) : Bool :=
  decide (a < 0x100000) && pageOf a == pgMgmt &&
    (decide (0x100 ≤ offOf a ∧ offOf a < 0x800) ||
      (match accAt a with
        | some .rw => true
        | some .wo => true
        | some .w1c => true
        | _ => false))

/-- A transaction refused whole for its form. -/
def State.mgmtRefused (s : State) (cause a : Nat) : State := (s.lastErr .manager cause a).event pgMgmt 16

/-- A transaction of the manager reaches an address it may not write: E_RANGE under R67 (R418), or its count while the fabric is down
(R420). -/
def State.mgmtForbidden (s : State) (a : Nat) : State :=
  let s := if s.up then s.refuseBy .manager eRange 0 a else s.downRefuse
  s.lastErr .manager errRefused a

/-- The words of an accepted write are applied at P (R416); while the fabric is down a staged one is refused (R420). -/
def State.mgmtApply (s : State) (a : Nat) : List Word → State
  | [] => s
  | w :: ws =>
    let s := if !s.up ∧ accAt a = some .st then s.downRefuse.lastErr .manager errRefused a else s.portWrite .manager a w
    s.mgmtApply (a + 4) ws

/-- MGMT_WRITE (R416, R418, R420): `bytes` are the bytes after LEN. -/
def execMgmtWrite (addr : Addr) (len : Byte) (bytes : List Byte) (s : State) : Out :=
  let a := addr.toNat
  let n := 4 * mgmtWords len
  if s.power.phase = .off then .next s
  else
    let s := s.touch .manager
    let data := bytes.take n
    let good := pecOf (s.mgmtHead a len ++ data)
    let withPec := decide (bytes.length = n + 1)
    if bytes.length ≠ n ∧ !withPec then .next (s.mgmtRefused errRefused a)
    else if withPec && (bytes.getD n 0).toNat != good then
      .next (((s.mgmtRefused errPec a).inc16 pgMgmt MGMT.PEC_ERRORS).event pgMgmt 2)
    else if !withPec && bt (s.cf pgMgmt MGMT.CFG) 0 then .next (s.mgmtRefused errPec a)
    else match burstCause a len with
      | some e => .next (s.mgmtRefused e a)
      | none =>
        match (List.range (mgmtWords len)).find? fun i => !mgrMay (a + 4 * i) with
        | some i => .next (s.mgmtForbidden (a + 4 * i))
        | none => .next (s.mgmtApply a (bytesWords (mgmtWords len) data))

/-- A word is served to the manager while the fabric is down: the MGMT page and SYS.DEVICE_ID (R420). -/
def servedDown (a : Nat) : Bool := decide (a < 0x100000) && (pageOf a == pgMgmt || a == regAddr pgSys SYS.DEVICE_ID)

/-- What a management read sends: COUNT in bytes (log entry 55), data, PEC. -/
def State.mgmtAnswer (s : State) (a : Nat) (len : Byte) (data : List Word) : State :=
  let count := 4 * data.length
  let bytes := s.mgmtHead a len ++ [BitVec.ofNat 8 (2 * s.mgmtAddr + 1), BitVec.ofNat 8 count] ++ wordsBytes data
  s.onMstr .manager fun x => { x with outData := data, outCount := count, outCrc := BitVec.ofNat 16 (pecOf bytes) }

/-- MGMT_READ (R416, R418, R420). -/
def execMgmtRead (addr : Addr) (len : Byte) (s : State) : Out :=
  let a := addr.toNat
  if s.power.phase = .off then .next s
  else
    let s := s.touch .manager
    match burstCause a len with
    | some e => .next ((s.mgmtRefused e a).mgmtAnswer a len [])
    | none =>
      if !s.up && (List.range (mgmtWords len)).any fun i => !servedDown (a + 4 * i) then .next (s.mgmtAnswer a len [])
      else
        let (s, data) := s.portReads .manager a (mgmtWords len)
        .next (s.mgmtAnswer a len data)

/-- MGMT_BUS_TIMEOUT (R417): the port is idle again and no word of the transaction is applied. -/
def execMgmtBusTimeout (s : State) : Out := .next s

/-- ALERT_RESPONSE (R419): answered with the device's own address in bits [7:1] while MALERT_N is asserted. -/
def execAlertResponse (s : State) : Out :=
  if s.power.phase ≠ .off ∧ s.malert then
    .next (s.onMstr .manager fun x => { x with outData := [nw (2 * s.mgmtAddr)], outCount := 1 })
  else .next s

end Sys2Proof.Machine
end

