-- ==== Sys2Proof/Machine/DmaRun.lean ====
section
/-!
DEFINITION. DMA_BURST: arbitration (R383), beats in normal and service mode (R384 to R386), bus errors (R387, R388) and records taken from a
request line (R382).
-/
namespace Sys2Proof.Machine

/-! Beats. -/

/-- ERR_INFO codes (Table 15-5). -/
abbrev infoUnmapped : Nat := 1
abbrev infoWrite : Nat := 2
abbrev infoEcc : Nat := 3
abbrev infoStore : Nat := 4

/-- A whole aligned word is read by channel ch (R385, R387): the word and the bus error, if it is one. -/
def State.dmaReadWord (s : State) (ch a : Nat) : State × Word × Option Nat :=
  if !isMapped a || isBilvaArea a then (s, 0, some infoUnmapped)
  else if s.eccBad.contains a then (s, 0, some infoEcc)
  else if a < 0x100000 then (s, s.regRead (pageOf a) (offOf a), none)
  else (s.msgRead a (.dma (Fin.ofNat 64 ch)), s.wordAt a, none)

/-- Why a write to an address is a bus error (R387), if it is one. -/
def State.dmaWriteBad (s : State) (a : Nat) : Option Nat :=
  if !isMapped a then some infoUnmapped
  else if isBilvaArea a || isLogWin a then some infoWrite
  else if isLaneCode a && s.codeHeld a then some infoStore
  else if a < 0x100000 then
    if 0x900 ≤ offOf a then some infoWrite
    else match accAt a with
      | some .ro => some infoWrite
      | some .st => some infoWrite
      | _ => none
  else none

/-- Bytes written at an address inside one word: a register takes them as a whole word, a memory changes only these bytes (R385). -/
def State.dmaWriteBytes (s : State) (a : Nat) (bs : List Byte) : State :=
  if a < 0x100000 then
    if pageOf a = pgMgmt then s.refuseBy .host eRange 0 a else s.liveWrite .host (pageOf a) (offOf a) (bytesWord bs)
  else if bs.length = 4 then s.putWord a (bytesWord bs)
  else s.putBytes a bs

/-- A burst under way: the state, the first bus error (address, code, is a write), elements moved without error, a beat was
zero-filled. -/
structure DmaBeats where
  s : State
  err : Option (Nat × Nat × Bool) := none
  good : Nat := 0
  zero : Bool := false

/-- An error joins a burst: the first one is kept. -/
def DmaBeats.fail (b : DmaBeats) (a info : Nat) (write : Bool) : DmaBeats :=
  { b with err := some (b.err.getD (a, info, write)) }

/-- Address of element i from a base with a stride. -/
def stepAddr (base : Nat) (step : Int) (i : Nat) : Nat := ((base : Int) + step * i).toNat

/-- Element i is read from the source in normal form, as its bytes: from a request line a word of the record, 0 where there is none
(R382, R384), else its byte lanes of the aligned word (R385). -/
def DmaBeats.element (b : DmaBeats) (ch : Nat) (d : List Word) (i : Nat) : DmaBeats × List Byte × Bool :=
  let w := dSize d
  if dmaTrig b.s.force ch = 1 then
    match ((b.s.dm ch).record.getD [])[i]? with
    | some v => (b, (wordBytes v).take w, true)
    | none =>
      ({ b with s := b.s.incHalf (dmaPage ch) (dmaLive ch (DMACH.ZERO_BEATS 0)) false, zero := true }, List.replicate w 0, true)
  else
    let a := stepAddr (dSrc d) (dSrcStep d) i
    let (s, v, e) := b.s.dmaReadWord ch (a - a % 4)
    let bs := ((wordBytes v).drop (a % 4)).take w
    match e with
    | some info => ({ b with s := s }.fail (a - a % 4) info false, bs, false)
    | none => ({ b with s := s }, bs, true)

/-- Bytes written at an address; true where the write took effect. -/
def DmaBeats.put (b : DmaBeats) (a : Nat) (bs : List Byte) : DmaBeats × Bool :=
  match b.s.dmaWriteBad (a - a % 4) with
  | some info => (b.fail (a - a % 4) info true, false)
  | none => ({ b with s := b.s.dmaWriteBytes a bs }, true)

/-- One element in normal service (R385). -/
def DmaBeats.move (b : DmaBeats) (ch : Nat) (d : List Word) (i : Nat) : DmaBeats :=
  let (b, bs, ok) := b.element ch d i
  let (b, done) := b.put (stepAddr (dDst d) (dDstStep d) i) bs
  { b with good := b.good + (ok && done).toNat }

/-- One packed word j of n elements whose destination is buffered (R386): unused bytes are written as 0. -/
def DmaBeats.pack (b : DmaBeats) (ch : Nat) (d : List Word) (n j : Nat) : DmaBeats :=
  let k := 4 / dSize d
  let items := (List.range k).filterMap fun e => if k * j + e < n then some (k * j + e) else none
  let (b, bs, ok) := items.foldl (fun (x : DmaBeats × List Byte × Nat) i =>
    let (b, bs, r) := x.1.element ch d i
    (b, x.2.1 ++ bs, x.2.2 + r.toNat)) (b, [], 0)
  let (b, done) := b.put (dDst d + 4 * j) (bs ++ List.replicate (4 - bs.length) 0)
  { b with good := b.good + (if done then ok else 0) }

/-- One packed word j of n elements whose source is buffered (R386). -/
def DmaBeats.unpack (b : DmaBeats) (ch : Nat) (d : List Word) (n j : Nat) : DmaBeats :=
  let w := dSize d
  let k := 4 / w
  let (s, v, e) := b.s.dmaReadWord ch (dSrc d + 4 * j)
  let b := match e with
    | some info => { b with s := s }.fail (dSrc d + 4 * j) info false
    | none => { b with s := s }
  (List.range k).foldl (fun (b : DmaBeats) x =>
    let i := k * j + x
    if n ≤ i then b
    else
      let (b, done) := b.put (stepAddr (dDst d) (dDstStep d) i) (((wordBytes v).drop (w * x)).take w)
      { b with good := b.good + (done && e.isNone).toNat }) b

/-! Bursts. -/

/-- Elements of the descriptor of channel ch: a record ends it with its own words (R382). -/
def State.dmaTotal (s : State) (ch : Nat) (d : List Word) : Nat :=
  match (if dmaTrig s.force ch = 1 then (s.dm ch).record else none) with
  | some r => min (dCount d) r.length
  | none => dCount d

/-- Channels that compete for a burst (R383). -/
def State.dmaReady (s : State) : List Nat :=
  (List.range 64).filter fun ch => (s.dm ch).granted && (s.dm ch).desc.isSome && (s.dm ch).state == .run

/-- The channel that is granted: the highest PRIO, round-robin in ascending number from the last one granted (R383). -/
def State.dmaGrant (s : State) : Option Nat :=
  let l := s.dmaReady
  let prio := fun ch => fld (dmaCfg s.force ch) 13 12
  let top := l.foldl (fun m ch => max m (prio ch)) 0
  let l := l.filter fun ch => prio ch == top
  (l.find? fun ch => decide (s.dmaLast < ch)).orElse fun _ => l.head?

/-- One burst of a descriptor: min(BURST, remaining) beats on the side that is not packed in normal service, packed words in service
mode (R383 to R386). Answers the elements the burst passed over. -/
def State.dmaBeats (s : State) (ch : Nat) (d : List Word) : DmaBeats × Nat :=
  let n := s.dmaTotal ch d
  let from_ := (s.dm ch).beats
  if dmaService s.force then
    let k := 4 / dSize d
    let j0 := from_ / k
    let js := (List.range (dBurst d)).filterMap fun j => if k * (j0 + j) < n then some (j0 + j) else none
    let f := if dmaBufSrc s.force ch && dmaTrig s.force ch != 1 then fun (b : DmaBeats) j => b.unpack ch d n j
      else fun (b : DmaBeats) j => b.pack ch d n j
    (js.foldl f { s := s }, min n (k * (j0 + js.length)) - from_)
  else
    let m := min (dBurst d) (n - from_)
    ((List.range m).foldl (fun (b : DmaBeats) i => b.move ch d (from_ + i)) { s := s }, m)

/-- What follows a burst: a bus error halts the engine (R388), the last beat ends the descriptor and takes the record. -/
def State.dmaBurstEnd (s : State) (ch : Nat) (d : List Word) (b : DmaBeats) (passed n : Nat) : State :=
  let done := (s.dm ch).beats
  let t := b.s.onDm ch fun x => { x with under := x.under || b.zero }
  match b.err with
  | some (a, info, write) => (t.dmaWriteBack ch d (done + b.good) dmaBusErr).dmaHalt ch a info write
  | none =>
    if n ≤ done + passed then
      let res := if (t.dm ch).under then dmaUnder else dmaOk
      let t := if dmaTrig s.force ch = 1 then t.onDm ch fun x => { x with record := none } else t
      t.dmaEnd ch n res
    else t.onDm ch fun x => { x with beats := done + passed }

/-- DMA_BURST. -/
def execDmaBurst (s : State) : Out :=
  if !s.up || s.dmaHalted then .next s
  else match s.dmaGrant with
    | none => .next s
    | some ch =>
      match (s.dm ch).desc with
      | none => .next s
      | some d =>
        let s := { s with dmaLast := ch }
        let (b, passed) := s.dmaBeats ch d
        .next (s.dmaBurstEnd ch d b passed (s.dmaTotal ch d))

end Sys2Proof.Machine
end

