-- ==== Sys2Proof/Machine/Tasks.lean ====
section
/-!
DEFINITION. Work of the lanes (R69 to R75, R88 to R90, R320, R331 to R333): dispatch, urgent triggers, preemption, the bound of an
activation, background slices, self-test passes, and the takeover of a retired lane at the target's release.
-/
namespace Sys2Proof.Machine

/-! Which tasks run in a power state (R70, R82, Table 3-2). -/

/-- The tasks of an axis run: in every state with lane work, but those of an axis shed in RESCUE. -/
def State.axisRuns (s : State) (a : Nat) : Bool := s.sched.state != 3 && (s.sched.state != 2 || !(s.ax a).shed)

/-- A context runs: with the axis it serves, or in RESCUE when it is essential itself (R106). -/
def State.ctxRuns (s : State) (x : Nat) : Bool :=
  match ctxAxis s.force x with
  | some a => s.axisRuns a
  | none => s.sched.state != 3 && (s.sched.state != 2 || ctxEssential s.force x)

/-- A code task of lane n runs: in RESCUE when its slot is ESSENTIAL. -/
def State.codeRuns (s : State) (n i : Nat) : Bool := s.sched.state != 3 && (s.sched.state != 2 || taskEss s.force n i)

/-- A task with DIV and PHASE is released in the present frame (Table 3-1). -/
def State.phaseHit (s : State) (divL phase : Nat) : Bool := s.time.frameCount % 2 ^ divL == phase

/-- Work that lane n releases in the present frame, in the order of R72. -/
def State.released (s : State) (n : Nat) : List Work :=
  let c := s.force
  let axes := (List.range 8).filter fun a => axComm c a != 0 && axLane c a == n
  if s.sched.state = 3 then []
  else
    axes.map .safety
    ++ (axes.filter s.axisRuns).map .commut
    ++ (ctxOrder c n fun x => s.phaseHit (ctxDivL c x) (ctxPhase c x) && s.ctxRuns x).map .ctx
    ++ (if rescueEn c && rescueLane c == n then [.converter] else [])
    ++ ((List.range 16).filter fun i =>
        taskEn c n i && taskCls c n i == 0 && s.phaseHit (taskDivL c n i) (taskPhase c n i) && s.codeRuns n i).map .code

/-- Axes whose outputs a piece of work computes (R23). -/
def State.workAxes (s : State) (w : Work) : List Nat :=
  match w with
  | .commut a => [a]
  | .ctx x => (ctxAxis s.force x).toList
  | .converter => [rescueAxis s.force]
  | .safety _ => []
  | .code _ => []

/-! Dispatch. -/

/-- Instructions executed by lane n on system work. -/
def State.spend (s : State) (n k : Nat) : State :=
  (s.onLn n fun x => { x with used := x.used + k }).onSched fun h => { h with executed := h.executed + k }

/-- Instructions of one activation of a system task: at most its bound, else free (log entry 16). -/
def State.romSpend (s : State) (n bound : Nat) : State :=
  let (i, s) := s.takeFree
  s.spend n (min (Config.romInstr i) bound)

/-- An activation starts in a bank (R320): LSR cleared, return stack empty. -/
def BankSt.start (k : BankSt) (slot entry : Nat) : BankSt :=
  { k with slot := some (Fin.ofNat 16 slot), pc := BitVec.ofNat 12 entry, sat := false, stack := [], branch := none, executed := 0,
           commit := [] }

/-- The activation of slot i of lane n is dispatched into a bank (R320): LC0 and LC1 are 0 for banks F and B. -/
def State.beginTask (s : State) (n : Nat) (bk : Bank) (i : Nat) : State :=
  let entry := taskEntry s.force n i
  (s.laneRestart n [.code i]).onLn n fun x =>
    let x := x.setBank bk ((x.bank bk).start i entry)
    { x with running := some bk, loops := if bk = .u then x.loops else { x.loops with lc0 := 0, lc1 := 0 },
             sliceCount := if bk = .b then 0 else x.sliceCount }

/-- The lowest urgent slot that waits begins in bank U; the bank it preempts, if any, goes on after it (R72, R331). -/
def State.beginUrgent (s : State) (n : Nat) (under : Option Bank) : State :=
  match (s.ln n).urgent with
  | [] => s
  | x :: xs =>
    let i := xs.foldl min x
    (s.onLn n fun y => { y with urgent := y.urgent.erase i, under := under }).beginTask n .u i

/-- One piece of released work: system tasks run whole, a code task begins in bank F. -/
def State.runWork (s : State) (n : Nat) (w : Work) : State :=
  let c := s.force
  let done := fun (s : State) => s.onLn n fun x => { x with ready := x.ready.erase w }
  match w with
  | .safety _ => (done s).romSpend n Config.safetyCheckBound
  | .commut a =>
    let s := (done s).romSpend n (commBound c a)
    let s := match s.shareTorque a with
      | some v => s.onDr a fun d => { d with torqueCmd := v }
      | none => s
    s.runComm a
  | .ctx x => ((done s).romSpend n (ctxBound c x)).runCtx x
  | .converter => ((done s).romSpend n 180).runConverter
  | .code i => s.beginTask n .f i

/-- Background slices start only in the frames that the thermal level permits (R429). -/
def State.skipFrame (s : State) : Bool :=
  s.hk.inForce = .throttle && s.time.frameCount % fld (s.cf pgHk HK.THROTTLE_CFG) 5 0 != 0

/-- Time for a slice is left before the next release: 256 instruction times at the guaranteed rate of the point in force (R73). -/
def State.sliceFits (s : State) : Bool :=
  decide (s.now * rateAt s.sched.point + 256 * 250 ≤ (s.time.frameStart + s.time.curLen + 32) * rateAt s.sched.point)

/-- Lane n may start a background slice (R73). -/
def State.sliceMay (s : State) (n : Nat) : Bool :=
  s.time.published && !s.time.cut && (s.ln n).ready.isEmpty && (s.ln n).missed.isEmpty && s.sliceFits && !s.skipFrame

/-- A background code task of slot i of lane n may run a slice (R82, R86, R87). -/
def State.bgCodeMay (s : State) (n i : Nat) : Bool :=
  taskEn s.force n i && taskCls s.force n i == 2
  && (s.bgOn 6 && (taskEss s.force n i || (s.sched.state != 2 && s.hk.inForce = .normal)))

/-- A slice of the self-test pass of lane n is due (R89). -/
def State.selftestMay (s : State) (n : Nat) : Bool :=
  s.bgOn 1 && decide ((s.ln n).stStart ≤ s.now) && decide ((s.ln n).stSlices < 48)

/-- Background slots of lane n after slot i, in a ring. -/
def ringAfter (i : Nat) : List Nat := (List.range 16).map fun k => (i + 1 + k) % 16

/-- A background slice: the self-test first, in the order of Table 3-3, then the code task in progress, or the next one (R333). -/
def State.beginSlice (s : State) (n : Nat) : State :=
  if s.selftestMay n then (s.onLn n fun x => { x with stSlices := x.stSlices + 1 }).spend n 256
  else
    let k := (s.ln n).bankB
    match k.slot with
    | some i =>
      if s.bgCodeMay n i.val then s.onLn n fun x => { x with running := some .b, loops := x.bSave, sliceCount := 0 }
      else if taskEn s.force n i.val && taskCls s.force n i.val == 2 then s
      else s.onLn n fun x => { x with bankB := x.bankB.over }
    | none =>
      match (ringAfter (s.ln n).lastB).find? (s.bgCodeMay n) with
      | some i => (s.onLn n fun x => { x with lastB := i }).beginTask n .b i
      | none => s

/-- TASK_DISPATCH (R72): a free lane takes the first work that is ready. -/
def execTaskDispatch (lane : LaneIx) (s : State) : Out :=
  let n := lane.val
  let x := s.ln n
  if !s.up || s.chRet 5 n || x.running.isSome || s.sched.state == 3 then .next s
  else if !x.urgent.isEmpty then .next (s.beginUrgent n none)
  else match x.ready with
    | w :: _ => .next (s.runWork n w)
    | [] => if s.sliceMay n then .next (s.beginSlice n) else .next s

/-! Urgent tasks. -/

/-- The urgent task of slot i is released. -/
def State.urgentRelease (s : State) (n i : Nat) : State :=
  s.onLn n fun x => { x with urgent := x.urgent ++ [i], lastRel := mapPut x.lastRel i s.now }

/-- A trigger of the urgent task in slot i of lane n (R74, R90). -/
def State.urgentFire (s : State) (n i : Nat) : State :=
  let c := s.force
  let x := s.ln n
  if !s.up || !taskEn c n i || taskCls c n i != 1 || !s.codeRuns n i then s
  else if s.chRet 5 n then
    if (s.lanes.any fun y => y.takes.contains n) then s.onLn n fun y => { y with held := if y.held.contains i then y.held else y.held ++ [i] }
    else s
  else match mapFind x.lastRel i with
    | some t =>
      if t + taskArrival c n i ≤ s.now then s.urgentRelease n i
      else if (s.due (.urgentHold n i)).isSome then s.inc16 (pgLane n) LANE.URGENT_MERGED
      else s.startT (.urgentHold n i) (t + taskArrival c n i)
    | none => s.urgentRelease n i

/-- URGENT_TRIGGER (R74): released, held until its inter-arrival time has elapsed, or merged into the one held. -/
def execUrgentTrigger (lane : LaneIx) (slot : SlotIx) (s : State) : Out := .next (s.urgentFire lane.val slot.val)

/-- URGENT_HOLD_EXPIRY (R74): the held trigger releases its task. -/
def execUrgentHoldExpiry (lane : LaneIx) (slot : SlotIx) (s : State) : Out :=
  let n := lane.val
  let i := slot.val
  .next (s.expire (.urgentHold n i) fun s =>
    if s.up && !s.chRet 5 n && taskEn s.force n i && taskCls s.force n i == 1 && s.codeRuns n i then s.urgentRelease n i else s)

/-- URGENT_PREEMPTION (R329, R332): a released urgent task takes the lane at the instruction boundary, never between a branch and its
delay slot; results in flight land in the bank that issued them. -/
def execUrgentPreemption (lane : LaneIx) (s : State) : Out :=
  let n := lane.val
  let x := s.ln n
  match x.running with
  | some bk =>
    if !s.up || x.urgent.isEmpty || bk == .u || (x.bank bk).branch.isSome then .next s
    else .next ((s.onLn n fun y => y.setBank bk (y.bank bk).flush).beginUrgent n (some bk))
  | none => .next s

/-! Bounds and slices. -/

/-- BOUND_ABORT (R75): the activation that runs has executed TASK_BOUND instructions without its END. -/
def execBoundAbort (lane : LaneIx) (s : State) : Out :=
  let n := lane.val
  match (s.ln n).running with
  | none => .next s
  | some bk =>
    let k := (s.ln n).bank bk
    match k.slot with
    | some i => if s.up && decide (taskBound s.force n i.val ≤ k.executed) then .next (s.laneStop n bk) else .next s
    | none => .next s

/-- BACKGROUND_SLICE_END (R333): after the instruction with which the count reaches 256, or its delay slot, the loop registers go to
bank B's save area. -/
def execBackgroundSliceEnd (lane : LaneIx) (s : State) : Out :=
  let n := lane.val
  let x := s.ln n
  if x.running = some .b ∧ 256 ≤ x.sliceCount ∧ x.bankB.branch.isNone ∧ s.up then
    .next (s.onLn n fun y => { y with bSave := y.loops, bankB := y.bankB.flush, running := none, sliceCount := 0 })
  else .next s

/-! Self-test (R88, R89). -/

/-- SELFTEST_PERIOD in ticks. -/
def selftestPeriod (c : Cfg) : Nat := msT (fld (c pgSched SCHED.SELFTEST_PERIOD) 15 0)

/-- The lane runs one pass per SELFTEST_PERIOD: an active lane, and every lane in THROTTLE (R89, R429). -/
def State.stPaced (s : State) (n : Nat) : Bool := (s.ln n).state = .active || (s.ln n).state = .takeover || s.hk.inForce = .throttle

/-- A self-test period of lane n starts. -/
def State.stPeriod (s : State) (n start : Nat) : State :=
  let s := s.onLn n fun x => { x with stStart := start }
  if (s.ln n).state = .active ∨ (s.ln n).state = .takeover then s.startT (.selftest n) (start + selftestPeriod s.force)
  else s.stopT (.selftest n)

/-- The periods that follow a change of the lane states: a lane that becomes active starts one (R89). -/
def State.stArm (s : State) : State :=
  forN 8 (fun n s =>
    if (s.ln n).state = .active then
      if (s.due (.selftest n)).isSome then s else s.stPeriod n s.now
    else s.stopT (.selftest n)) s

/-- SELFTEST_PASS_DONE (R88, R89): 48 slices are done; a mismatch is a lane fault, and the pass restarts at once. -/
def execSelftestPassDone (lane : LaneIx) (ok : Bool) (s : State) : Out :=
  let n := lane.val
  if !s.up || s.chRet 5 n || (s.ln n).stSlices < 48 then .next s
  else
    let s := s.onLn n fun x => { x with stSlices := 0 }
    if ok then
      let s := s.inc32 (pgLane n) LANE.SELFTEST_COUNT
      .next (s.stPeriod n (if s.stPaced n then (s.ln n).stStart + selftestPeriod s.force else s.now))
    else .next ((s.onLn n fun x => { x with stStart := s.now }).laneFault n 1 none)

/-- SELFTEST_LATE (R89): the period has run out with the pass incomplete. -/
def execSelftestLate (lane : LaneIx) (s : State) : Out :=
  let n := lane.val
  .next (s.expire (.selftest n) fun s =>
    let s := (s.event pgSched 8).logAdd 15 clsWarn 0 n 0
    (s.onLn n fun x => { x with stStart := s.now }).startT (.selftest n) (s.now + selftestPeriod s.force))

/-! Release, cut-off and takeover on the lanes (R19, R23, R90). -/

/-- The target lane g takes over the lanes it is to take, at its release (Table 3-4, step 2). -/
def State.takeRelease (s : State) (g : Nat) : State :=
  if (s.ln g).takes.isEmpty then s
  else
    let s := forL (s.ln g).takes (fun m s => (s.takeover m g).spend g (copyCost s.force m)) s
    s.onLn g fun x => { x with takes := [], state := .takeover }

/-- Frame-synchronous release of every lane (step 5 of Table 1-1). -/
def State.releaseAll (s : State) : State :=
  let s := forN 8 (fun g s => s.takeRelease g) s
  forN 8 (fun n s =>
    if s.chRet 5 n then s.onLn n fun x => { x with ready := [], missed := [] }
    else
      let l := s.released n
      (s.laneRestart n l).onLn n fun x => { x with ready := l, missed := [] }) s

/-- An activation that has not committed by the cut-off (R23): its axes repeat their pattern, or its outputs keep their values; the
overrun counts against the lane. -/
def State.missWork (s : State) (n : Nat) (w : Work) : State :=
  let s := forL (s.workAxes w) (fun a s => s.repeatPattern a) s
  (s.inc16 pgTime TIME.OVERRUN_COUNT).laneFault n 2 (some w)

/-- The cut-off on lane n: what is not committed is missed, and a frame-synchronous activation still running is dropped. -/
def State.cutLane (s : State) (n : Nat) : State :=
  let x := s.ln n
  let work := x.missed ++ x.ready
  let s := s.onLn n fun x =>
    let f := { x.bankF with slot := none, commit := [], branch := none, executed := 0, inFlight := [] }
    { x with ready := [], missed := [], bankF := f
             running := if x.running = some .f then none else x.running, under := if x.under = some .f then none else x.under }
  let s := forL work (fun w s => s.missWork n w) s
  let m := (s.lv (pgLane n) LANE.USED_MAX).toNat
  let s := if m < x.used then s.setLv (pgLane n) LANE.USED_MAX (nw x.used) else s
  s.onLn n fun x => { x with used := 0 }

/-- Axes that miss an output at this cut-off. -/
def State.missAxes (s : State) : List Nat :=
  ((List.range 8).flatMap fun n => ((s.ln n).missed ++ (s.ln n).ready).flatMap s.workAxes).dedup

/-- The cut-off on every lane, and the axes that have missed two in a row (R23). -/
def State.cutAll (s : State) : State :=
  let axes := s.missAxes
  let s := forN 8 (fun n s => s.cutLane n) s
  forN 16 (fun a s =>
    if axes.contains a then
      let s := s.onAx a fun x => { x with missRun := x.missRun + 1 }
      if 2 ≤ (s.ax a).missRun then s.raise srcOverrun a else s
    else (s.onAx a fun x => { x with missRun := 0 }).clearSrc srcOverrun a) s

/-- The cut-off of the takeover frame (Table 3-4, steps 3 to 5). -/
def State.takeCut (s : State) : State :=
  if s.lanes.any (fun x => x.state = .takeover) then (((s.event pgSched 2).setLaneStates.stArm).onStage fun g => { g with shown := [] }).startReproof else s

end Sys2Proof.Machine
end

