-- ==== Sys2Proof/Machine/Pers.lean ====
section
/-!
DEFINITION. The personality logic P1 and P2 (R453 to R456): the commands that the supervisor core gives axis 0 from the field inputs,
and the rows on which it acts beside the frame boundary and the housekeeping round.
-/
namespace Sys2Proof.Machine

/-- The sequence of axis 0 under the logic, kept in persSeq. -/
abbrev seqIdle : Nat := 0
/-- The axis is to be enabled as soon as it can be. -/
abbrev seqEnable : Nat := 1
/-- Enabled; AXIS_RUN follows when the offsets are taken. -/
abbrev seqReady : Nat := 2
/-- AXIS_RUN is issued; the motion command follows in RUN. -/
abbrev seqRun : Nat := 3
/-- In motion under the logic. -/
abbrev seqMove : Nat := 4
/-- STOP is issued; AXIS_STOP follows at rest. -/
abbrev seqStop : Nat := 5
/-- AXIS_STOP is issued; P1 disables the axis in READY. -/
abbrev seqLeave : Nat := 6

/-- The sequence moves on. -/
def State.setPers (s : State) (n : Nat) : State := s.onPower fun p => { p with persSeq := n }

/-- A command of the logic to axis 0 where the axis would take it (log entry 30). -/
def State.persAxis (s : State) (code next : Nat) : State :=
  if (s.axFail 0 code).isSome then s else ((s.axEffect 0 code).axResult 0 code eNone).setPers next

/-- A motion command of the logic to axis 0 where the unit would take it. -/
def State.persMot (s : State) (code next : Nat) : State :=
  if (s.mt 0).pending.isSome || (s.motFail 0 code).isSome then s else (s.onMt 0 fun x => { x with pending := some code }).setPers next

/-- JOG_V of P2 (R456): from the AIN0 code, 0 below 328, negated while DI1 is high. -/
def State.fanSpeed (s : State) : Int :=
  let c : Int := (s.lv pgAdc (adcRawOff 16)).toInt
  let v := if c < 328 then 0 else roundDiv (c * 1638400) 16383
  if s.diOn 1 then -v else v

/-- JOG_V is written. -/
def State.setFan (s : State) : State := s.setLv (pgMot 0) MOT.JOG_V (iw s.fanSpeed)

/-- What the logic does next, from the state of axis 0 and of DI0 (R455, R456). -/
def State.persAct (s : State) : State :=
  let p1 := s.power.pers == 1
  let x := s.ax 0
  let on := s.diOn 0
  let seq := s.power.persSeq
  if x.state = .fault ∨ x.state = .retired then s.setPers seqIdle
  else if seq = seqIdle then
    if !p1 && on then (if x.state = .ready then s.setPers seqReady else s.setPers seqEnable) else s
  else if seq = seqEnable then
    if !on then s.setPers seqIdle else s.persAxis 1 seqReady
  else if seq = seqReady then
    if !on then (if p1 then s.persAxis 4 seqIdle else s.setPers seqIdle)
    else if x.state = .ready then s.persAxis 2 seqRun
    else s.setPers seqIdle
  else if seq = seqRun then
    if x.state = .run then (if on then s.persMot (if p1 then 5 else 3) seqMove else s.persMot 4 seqStop)
    else if x.state = .ready then s
    else s.setPers seqIdle
  else if seq = seqMove then
    if !x.state.moving then s.setPers seqIdle else if on then s else s.persMot 4 seqStop
  else if seq = seqStop then
    if !x.state.moving then s.setPers seqIdle
    else if (s.mt 0).pending.isNone && !(s.mt 0).moving then s.persAxis 3 seqLeave
    else s
  else
    if x.state = .ready then (if p1 then s.persAxis 4 seqIdle else s.setPers seqIdle)
    else if x.state.moving then s
    else s.setPers seqIdle

/-- The logic acts, while it runs: as often as its sequence can move on at once. -/
def State.persRun (s : State) : State := if s.up && s.power.persOn then s.persAct.persAct.persAct else s

/-- An accepted edge of a field input, as the logic takes it: P1 starts on a rise of DI0; DI1 (P1) or DI2 (P2) rising clears. -/
def State.persEdge (s : State) (i : Nat) (rise : Bool) : State :=
  if !(s.up && s.power.persOn) then s
  else
    let p1 := s.power.pers == 1
    let s := if p1 && i == 0 && rise && s.power.persSeq == seqIdle then s.setPers seqEnable else s
    let s := if rise && i == (if p1 then 1 else 2) then
        (if (s.axFail 0 5).isSome then s else (s.axEffect 0 5).axResult 0 5 eNone).clearAll
      else s
    s.persRun

/-- At the end of a housekeeping round P2 sets the speed (R456). -/
def State.persRound (s : State) : State := if s.up && s.power.persOn && s.power.pers == 2 then s.setFan.persRun else s

/-- DI_DEBOUNCE_ACCEPT (R308, R453). -/
def execDiDebounceAccept (di : Fin 16) (s : State) : Out :=
  let was := (s.di di.val).level
  let t := s.diAccept di.val
  let now := (t.di di.val).level
  .next (if was == now then t else t.persEdge di.val now)

/-- OFFSET_CAPTURE_DONE (R135, R455). -/
def execOffsetCaptureDone (axis : AxisIx) (s : State) : Out := .next (s.captureDone axis.val).persRun

end Sys2Proof.Machine
end

