-- ==== Sys2Proof/Machine/Frames.lean ====
section
/-!
DEFINITION. The frame (R16 to R23, Table 1-1): the boundary with its strike, power state, thermal level and energy account, the
publication of the sample set, and the commit cut-off.
-/
namespace Sys2Proof.Machine

/-! The strike (R61, R62, step 2 of Table 1-1). -/

/-- A readmitted channel is back in service with its history cleared (R55). -/
def State.readmit (s : State) (master : Nat) (ch : ChanId) : State :=
  let i := ch.idx
  let s := { s with chans := mapDel s.chans (chanKey ch.cls i) }
  let s := match ch.cls with
    | 1 => s.fbStart i
    | 3 | 4 =>
      let s := s.onLg i fun x => { x with retired := false, retry := false, vdsHoldH := false, vdsHoldL := false }
      if chopLeg s.force = some i then s.chopClear else s
    | 5 => s.onLn i fun _ => {}
    | 6 => s.onCn i fun _ => {}
    | 7 => s.onFo i fun x => { x with retired := false, retry := false }
    | _ => s
  s.logAdd 4 clsInfo master 0 (nw (ch.cls * 256 + i))

/-- Units of the feedback, motion and field pages after a strike: `changed` tells which staged registers differ. -/
def State.strikeIo (s : State) (changed : Nat → Nat → Bool) (oldMode : Nat → Nat) : State :=
  let s := forN 8 (fun n s => if fbMode s.force n ≠ oldMode n then s.fbStart n else s) s
  let s := forN 2 (fun r s => if changed (pgFb r) FB.REP_CFG then s.repStart r else s) s
  let s := forN 16 (fun i s => if changed pgFio (FIO.DI_CFG i) then s.onDi i fun d => { d with cnt := 0 } else s) s
  let s := forN 2 (fun p s => if changed (pgCan p) CAN.CFG then s.onCn p fun x => { ({} : CanSt) with retired := x.retired } else s) s
  let s := forN 4 (fun r s => if changed pgHoist (HOIST.ROPE_CFG r) then s.onRp r fun _ => {} else s) s
  let s := forN 2 (fun g s => if changed pgHoist (HOIST.SHARE_CFG g) then s.onSh g fun _ => {} else s) s
  let w := s.cf pgHk HK.TELE_CFG
  if fld w 3 0 = 0 then s.stopT .telemetry
  else if changed pgHk HK.TELE_CFG then s.startT .telemetry (s.now + msT (fld w 31 16)) else s

/-- Legs after a strike (R245): one whose settings change works on with the old ones until its first reload, or B_{m+1}. -/
def State.strikeLegs (s : State) (changed : Nat → Nat → Bool) (old : Nat → List Word) (oldMode : Nat → Nat) : State :=
  forN 32 (fun l s =>
    let b := PWM.LEG_CTRL (l % 8)
    let diff := (List.range 6).any fun i => changed (pgPwm (l / 8)) (b + 4 * i)
    let s := if diff && oldMode l != 0 && !(s.lg l).gateOff && (s.lg l).old.isNone then s.onLg l fun x => { x with old := some (old l) } else s
    if oldMode l = 0 ∧ legMode s.force l ≠ 0 then s.legEnter l else s) s

/-- What follows from a configuration newly in force: lead, plans, lane states, K_TI, the role, sources that end (log entry 38). -/
def State.newConfig (s : State) : State :=
  let s := s.onTime fun t => { t with lead := commitLead s.force }
  let s := forN 8 (fun a s => s.onDr a fun d => { d with kTi := kTiOf s.force a }) s
  let s := (s.setPlans.setLaneStates.stArm).ntRoleBoundary
  let s := forN 8 (fun n s => s.onLn n fun x => { x with retryOf := none }) s
  let s := s.onSafe fun x => { x with srcs := x.srcs.filter fun y => y.1 ≠ srcReconfig }
  let lost := fun (a : Nat) => (List.range 8).any fun n => s.chRet 5 n && (laneAxes s.force n).contains a
  forN 16 (fun a s => if lost a then s else s.clearSrc srcTaskLost a) s

/-- A strike applies at B_m (R62): DMA channels it changes stop first (R390); readmitted channels return; axes that waited in RETIRED for
them enter DISABLED (R278); the personality logic stops at a master's strike (R453). -/
def State.strike (s : State) : State :=
  let changed := fun (p o : Nat) => s.cand p o != s.cf p o
  let owner := s.stage.owner
  let readmits := s.stage.readmits.reverse
  let wasCtx := fun (x : Nat) => ctxEn s.force x
  let oldLegs := fun (l : Nat) => s.legWords l
  let oldLegMode := fun (l : Nat) => legMode s.force l
  let oldFbMode := fun (n : Nat) => fbMode s.force n
  let t := (s.dmaStrikeStop changed).applyStage
  let t := forL readmits (fun ch t => t.readmit ((owner.map masterCode).getD 0) ch) t
  let t := t.strikeIo changed oldFbMode
  let t := t.ctxStrike wasCtx fun x o => changed (pgLoop (x / 16)) (o + 0x70 * (x % 16))
  let t := (t.strikeLegs changed oldLegs oldLegMode).newConfig
  let t := if readmits.isEmpty then t
    else forN 16 (fun a t =>
      if (t.ax a).state = .retired ∧ !t.usesRetired a then
        t.onAx a fun x => { x with state := .disabled, react := none, faulty := false, asc := false, toRetired := false }
      else t) t
  if owner.isSome ∧ t.power.persOn then
    (t.onPower fun p => { p with persOn := false }).onLv pgSys SYS.BOOT_STATUS fun w => putBt w 5 false
  else t

/-! Power states (R80 to R83, step 4 of Table 1-1). -/

/-- Core voltage of an operating point in mV (Table 1-2). -/
def vcoreMv (point : Nat) : Nat := if point = 0 then 900 else if point = 1 then 800 else 720

/-- A change of the operating point starts (R31): 10 mV/us, the lower point's guarantee in force meanwhile. -/
def State.startRamp (s : State) (point : Nat) : State :=
  if point = s.sched.point then s.onSched fun x => { x with target := point }
  else
    let d := ((vcoreMv point : Int) - vcoreMv s.sched.point).natAbs
    (s.onSched fun x => { x with point := max x.point point, target := point, ramping := true }).startT .opRamp (s.now + 25 * d)

/-- RESCUE starts: axes in motion or ready that are not essential are stopped (R82). -/
def State.enterRescue (s : State) : State :=
  forN 16 (fun a s =>
    let st := (s.ax a).state
    if !axEssential s.force a ∧ (st = .run ∨ st = .degraded ∨ st = .ready) then s.pushReact a (stopReact s.force a) srcSafeStop true else s) s

/-- RESCUE is left (R213). -/
def State.leaveRescue (s : State) : State :=
  let s := forN 16 (fun a s => s.onAx a fun x => { x with shed := false }) s
  if s.rescue.sq = .done ∨ s.rescue.sq = .aborted then (s.setSeq .idle).clearSrc srcRescue (rescueAxis s.force) else s

/-- A power state takes effect (R81). -/
def State.enterPower (s : State) (st : Nat) : State :=
  let was := s.sched.state
  let s := s.onSched fun x => { x with state := st, request := none }
  let s := ((s.event pgSched 1).logAdd 6 clsInfo 0 st 0).startRamp (min st 2)
  let s := if was = 2 then s.leaveRescue else s
  if st = 2 then s.enterRescue
  else if st = 3 then forN 8 (fun n s => s.onLn n fun x => { x with ready := [], urgent := [], missed := [] }) s
  else s

/-- Requests and triggers at a boundary (R81, R211): none during a ramp; the rescue trigger prevails. -/
def State.powerBoundary (s : State) : State :=
  if s.sched.ramping then s
  else if s.sched.rescueReq ∧ s.sched.state ≠ 3 then
    let s := s.onSched fun x => { x with rescueReq := false, request := none }
    let s := if s.sched.state = 2 then s else s.enterPower 2
    if rescueEn s.force ∧ s.rescue.sq = .idle then s.rescueBegin else s
  else
    let s := s.onSched fun x => { x with rescueReq := false }
    match s.sched.request with
    | some st => if st = s.sched.state then s.onSched fun x => { x with request := none } else s.enterPower st
    | none => s

/-- Axes whose tasks are shed in RESCUE: not essential and no longer stopping (R82). -/
def State.shedBoundary (s : State) : State :=
  if s.sched.state ≠ 2 then s
  else
    forN 16 (fun a s =>
      let st := (s.ax a).state
      if axEssential s.force a then s.onAx a fun x => { x with shed := false }
      else if !(s.ax a).shed ∧ (st = .disabled ∨ st = .fault ∨ st = .retired) then
        ((s.onAx a fun x => { x with shed := true }).inc16 pgSched SCHED.SHED_COUNT).event pgSched 16
      else s) s

/-- The energy account in pJ (R85): debit of the frame that ended, at the point it ran at; credit of the one that starts; cap. -/
def State.accountBoundary (s : State) (prevLen prevPoint : Nat) : State :=
  let c := s.force
  let w := fun (o : Nat) => fused (s.lv pgSched o) prevPoint
  let debit := (w SCHED.LEAK + 30) * prevLen * 4 + w SCHED.EPI * s.sched.executed
  let p := pwrMax c (energyState s.sched.state)
  s.onSched fun x => { x with executed := 0, account := min (x.account - debit + (p * s.time.curLen * 4 : Nat)) (p * 1024000 : Nat) }

/-! The boundary (Table 1-1). -/

/-- Tick of the next boundary, where a grid runs or waits to start (R447). -/
def State.nextBoundary (s : State) : Option Nat :=
  match s.time.b0 with
  | some t => some t
  | none => if s.time.grid then some (s.time.frameStart + s.time.curLen) else none

/-- The frame's own registers at step 1: FRAME_START, FRAME_COUNT, L_k. -/
def State.frameOpen (s : State) (t : Nat) : State :=
  (s.reach t).onTime fun x =>
    { x with
      frameStart := t, frameCount := if x.b0.isSome then 0 else x.frameCount + 1, curLen := x.nextLen, grid := true, b0 := none
      published := false, passed := false, cut := false }

/-- Trims of the AIN converters take effect at a boundary (R434). -/
def State.trimBoundary (s : State) : State :=
  s.onHk fun h =>
    let get := fun (i : Nat) => (h.ainNew.getD i none)
    { h with
      ainOfs := (List.range 2).map fun i => ((get i).map (·.1)).getD (h.ainOfs.getD i 0)
      ainGain := (List.range 2).map fun i => ((get i).map (·.2)).getD (h.ainGain.getD i 0)
      ainNew := [none, none] }

/-- Step 1: outputs of frame k-1 take effect, sample set k is latched; `was` tells which axes were in motion. -/
def State.frameLatch (s : State) (was : Nat → Bool) : State :=
  let s := forN 12 (fun l s => s.onLg l fun x => { x with old := none }) s
  let s := s.onHk fun h => { h with divided := decide (h.inForce = .throttle) && (s.cf pgHk HK.THR_LEGS) != 0 }
  let s := s.trimBoundary.ctxBoundary.adcBoundary
  let s := forN 2 (fun r s => s.repBoundary r) (forN 8 (fun n s => s.fbBoundary n) s)
  forN 4 (fun g s => s.groupBoundary g) (forN 16 (fun a s => s.motBoundary a (was a)) s)

/-- Steps 2 to 4: the strike, the image snapshot, L_{k+1}, the thermal level, the power state, the account. -/
def State.frameApply (s : State) (prevLen : Nat) : State :=
  let point := s.sched.point
  let s := (if s.stage.commit then s.strike else s).takeImage
  let s := s.onTime fun x => { x with nextLen := s.nextLength }
  let s := s.onHk fun h => { h with inForce := h.level }
  s.powerBoundary.accountBoundary prevLen point

/-- Axes, safety functions and legs at the boundary, after step 4. -/
def State.frameAxes (s : State) (prevLen : Nat) (was : Nat → Bool) : State :=
  let s := forN 16 (fun a s => s.axisBoundary prevLen a) s.mainsBoundary
  let s := (forN 8 (fun a s => s.ladderBoundary a) s.shedBoundary).rescueBoundary
  let s := forN 16 (fun a s => if was a ∧ !(s.ax a).state.moving then s.motBoundary a false else s) s
  let s := forN 32 (fun l s => s.legBoundary l) s.chopBoundary
  s.judgeFlt.persRun

/-- The boundary at tick t. Before step 9 of Table 19-1 the grid runs FREE at 12 500 ticks and nothing else happens (R447). -/
def State.boundaryAt (s : State) (t : Nat) : State :=
  let prev := s.time.curLen
  let was := fun (a : Nat) => (s.ax a).state.moving
  let s := s.frameOpen t
  if !s.up then s.onTime fun x => { x with nextLen := 12500 }
  else (((s.frameLatch was).frameApply prev).frameAxes prev was).enterCommit

/-- FRAME_BOUNDARY (R22): B_k. -/
def execFrameBoundary (s : State) : Out :=
  match s.nextBoundary with
  | some t => .next (s.boundaryAt t)
  | none => .next s

/-! Publication and cut-off. -/

/-- The live command registers of a drive axis are read (R118). -/
def State.readCommands (s : State) : State :=
  forN 8 (fun a s =>
    let r := fun (o : Nat) => (s.lv (pgAxis a) o).toInt
    s.onDr a fun d =>
      { d with torqueCmd := r AXIS.TORQUE_CMD, idCmd := r AXIS.ID_CMD, tLim := r AXIS.T_LIM, speedLim := r AXIS.SPEED_LIM }) s

/-- SAMPLE_PUBLISH (R19): B_k + 32. -/
def execSamplePublish (s : State) : Out :=
  if !s.up || !s.time.grid || s.time.published then .next s
  else
    let s := ((s.reach (s.time.frameStart + 32)).readCommands).onTime fun x => { x with published := true }
    let s := forN 2 (fun g s => s.shareSend g) s
    .next (s.chopPublish.releaseAll).dmaFrame

/-- COMMIT_CUTOFF (R19, R23): B_{k+1} - L_c. -/
def execCommitCutoff (s : State) : Out :=
  if !s.up || !s.time.published || s.time.cut then .next s
  else
    let s := s.reach (s.time.frameStart + s.time.curLen - s.time.lead)
    let s := forN 12 (fun l s => s.legCommit l) s.cutAll
    .next (s.takeCut.onTime fun x => { x with cut := true })

end Sys2Proof.Machine
end

