-- ==== Sys2Proof/Machine/Reset.lean ====
section
/-!
DEFINITION. Supplies, resets of the core domain and what each keeps (R35 to R37, R444, R446, R459, Table 19-4), the latched thermal
shutdown (R431), the reference monitor (R14, R15), and the test access port (R477).
-/
namespace Sys2Proof.Machine

/-! Reset of the core domain. -/

/-- FABRIC_UP changes to 0 (R420). -/
def State.fabricDown (s : State) : State :=
  (s.event pgMgmt 4).onLv pgMgmt MGMT.DOWN_COUNT fun w => nw ((w.toNat + 1) % 65536)

/-- Registers of the pages that a reset of the core domain keeps: MGMT and NVLOG (Table 19-4). -/
def keptRegs (m : List (Nat × Word)) : List (Nat × Word) := m.filter fun x => pageOf x.1 = pgMgmt ∨ pageOf x.1 = pgNvlog

/-- What the always-on housekeeping keeps (R425, R459): the level and the rounds with their history. -/
def HkSt.kept (h : HkSt) : HkSt :=
  { level := h.level, calm := h.calm, rounds := h.rounds, lastEnd := h.lastEnd, rcTimed := h.rcTimed,
    histCtrl := h.histCtrl, histPwr := h.histPwr, pwr := h.pwr }

/-- The state with the core domain reset (Table 19-4): the always-on domain, the MGMT page, TIME.TICK, the thermal latch and the
impression log are kept; the removal input of the STO path is driven and every brake output applied (R459). -/
def State.coreClear (s : State) : State :=
  { regs := keptRegs s.regs
    cfg := s.cfg.filter fun x => pageOf x.1 = pgMgmt
    mem := s.mem.filter fun c => isLogWin c.1
    power := { s.power with
      pers := 0, autold := false, noVio := false, config := 0, autoCode := 0xFF, persCode := 0xFF, persOn := false, persSeq := 0
      removal := true }
    time := { tick := s.time.tick, ticking := s.time.ticking, pllLock := s.time.pllLock, refOk := s.time.refOk, holdover := s.time.holdover }
    mgr := { s.mgr with busy := none, lastAccess := 0 }
    hk := s.hk.kept
    samples := { hk := s.samples.hk }
    log := { s.log with saving := [], copying := [] }
    free := s.free
    pending := s.pending }

/-- A reset of the core domain (R459, R420): a command of the manager that was under way ends with E_STATE (log entry 31). -/
def State.coreReset (s : State) (source : Nat) (phase : Phase) : State :=
  let s := if s.up then s.fabricDown else s
  let s := s.complete .manager eState
  s.coreClear.onPower fun p => { p with phase := phase, source := source }

/-- The always-on domain is out of reset. -/
def State.alwaysOn (s : State) : Bool := s.power.phase ≠ .off

/-- A restart of the core domain from a given source at step 2; a latched thermal shutdown holds the core domain in reset (R36). -/
def State.restartAt (s : State) (source : Nat) : State :=
  if s.power.phase = .off ∨ s.power.thermLatch then s else s.coreReset source (.step 2)

/-- RST_N_RESET (R459). -/
def execRstNReset (s : State) : Out := .next (s.restartAt 2)

/-- The supervisor core has started: it serves the watchdog (step 6 of Table 19-1). -/
def State.supervised (s : State) : Bool :=
  match s.power.phase with
  | .up => true
  | .step n => decide (6 ≤ n)
  | _ => false

/-- WATCHDOG_RESET (R459). -/
def execWatchdogReset (s : State) : Out := if s.supervised then .next (s.restartAt 3) else .next s

/-- VIN_LOCKOUT (R446): VIN below 7.2 V with VAUX present. -/
def execVinLockout (s : State) : Out :=
  if !s.power.vinOk then .next s else .next ((s.onPower fun p => { p with vinOk := false }).restartAt 1)

/-- VIN_RISING (R445): VIN through 7.8 V while the always-on domain is up. -/
def execVinRising (s : State) : Out := if s.alwaysOn then .next (s.onPower fun p => { p with vinOk := true }) else .next s

/-- Step 2 of Table 19-1 is done: VCORE is there. -/
def State.coreAlive (s : State) : Bool :=
  match s.power.phase with
  | .up => true
  | .stopped => true
  | .step n => decide (3 ≤ n)
  | _ => false

/-- CORE_SUPPLY_LOSS (R420, R35): VCORE below its range holds the core domain in reset. -/
def execCoreSupplyLoss (s : State) : Out := if s.coreAlive then .next (s.coreReset s.power.source .coreLost) else .next s

/-- VIO_LOSS (R414, R35): the host I/O domain is down. -/
def execVioLoss (s : State) : Out := .next (s.onPower fun p => { p with vio := false })

/-- VIO_RETURN (R422). -/
def execVioReturn (s : State) : Out := .next (s.onPower fun p => { p with vio := true })

/-- POWER_ON (R444): the always-on domain leaves reset; MADR is sampled (R415). `byVin` tells which of the two events it was. -/
def execPowerOn (byVin : Bool) (madr : BitVec 2) (s : State) : Out :=
  if s.alwaysOn then .next s
  else .next (s.onPower fun p => { p with phase := .step 1, madr := madr, source := 0, vinOk := byVin })

/-- POWER_OFF (R36, Table 19-4): everything but the impression log is gone; VIO has a supply of its own. -/
def execPowerOff (s : State) : Out :=
  .next
    { State.reset with
      mem := s.mem.filter fun c => isLogWin c.1
      power := { vio := s.power.vio }
      log := { head := s.log.head, slot := s.log.slot, opened := s.log.opened, image := s.log.image, boot := s.log.boot }
      free := s.free
      pending := s.pending }

/-! Thermal shutdown. -/

/-- A new thermal level with its event and entry (R428, Table 18-11). -/
def State.setLevel (s : State) (l : Level) : State :=
  let up := decide (s.hk.level.code < l.code)
  if s.hk.level = l then s
  else ((s.onHk fun h => { h with level := l, calm := 0 }).event pgHk (if up then 2 else 1)).logAdd 7 (if up then clsWarn else clsInfo) 0
    l.code 0

/-- SNAP_STATUS at the latch: GLOBAL_STATUS as last seen, with the power state HALTED (R431). -/
def State.snapHalted (s : State) : State :=
  if s.up then s.setLv pgMgmt MGMT.SNAP_STATUS (putFld s.globalStatus 1 0 3)
  else s.onLv pgMgmt MGMT.SNAP_STATUS fun w => putFld w 1 0 3

/-- The THERMAL entry is committed ahead of every other (step 5 of Table 18-3, R437). -/
def State.commitThermal (s : State) : State :=
  match execLogEntryCommit true (s.logAdd 8 clsDevice 0 3 0) with
  | .next t => t
  | _ => s

/-- The shutdown of Table 18-3: the latch, the entry, the core domain held in reset. -/
def State.thermalShutdown (s : State) : State :=
  if !s.alwaysOn ∨ s.power.thermLatch then s
  else
    let s := (s.setLevel .shutdown).pfault pgMgmt 1
    let s := if s.up then s.noteSrc srcThermal 16 0 else s
    let s := s.snapHalted.commitThermal
    (s.coreReset s.power.source .latched).onPower fun p => { p with thermLatch := true }

/-- THERMAL_COMPARATOR_TRIP (R431). -/
def execThermalComparatorTrip (s : State) : Out := .next s.thermalShutdown

/-! The reference monitor. -/

/-- TIME_REF_LOST (R15): every gate goes; SBC and FAULT by the source, whose reaction is fixed. -/
def execTimeRefLost (s : State) : Out :=
  if !s.time.refOk then .next s
  else
    let s := (s.onTime fun t => { t with refOk := false, pllLock := false, holdover := true }).onHk fun h => { h with rcTimed := true }
    if !s.up then .next s
    else .next ((forN 32 (fun l s => s.legOff l) s).raiseNow srcTimeRef 16)

/-- REF_RETURN (R15): REF_OK returns before the PLL relocks. -/
def execRefReturn (s : State) : Out := if s.time.holdover then .next (s.onTime fun t => { t with refOk := true }) else .next s

/-- PLL_RELOCK (R15, R480): PLL_LOCK and HOLDOVER change together; TIME_REF_LOST ends. -/
def execPllRelock (s : State) : Out :=
  if s.time.holdover && s.time.refOk then
    .next ((s.onTime fun t => { t with pllLock := true, holdover := false }).clearSrc srcTimeRef 16)
  else .next s

/-- OP_RAMP_END (R31): the target point is in force. -/
def execOpRampEnd (s : State) : Out := .next (s.expire .opRamp fun s => s.onSched fun x => { x with point := x.target, ramping := false })

/-! The test access port. -/

/-- An instruction is loaded. Leaving EXTEST resets the core domain with SOURCE = RST_N (R477). -/
def State.tapLoad (s : State) (i : TapInstr) : State :=
  let s := if s.power.tap = .extest ∧ i ≠ .extest then s.restartAt 2 else s
  s.onPower fun p => { p with tap := i }

/-- What TDO shifts out next. -/
def State.setTdo (s : State) (w : Word) : State := s.onPower fun p => { p with tdo := w }

/-- A scan of the balls: their levels are free (log entry 10). -/
def State.scanBalls (s : State) : State :=
  let (i, s) := s.takeFree
  s.setTdo (Config.freeWord i)

/-- TAP_RESET (R477): the test logic is reset; IDCODE is the instruction then loaded (IEEE 1149.1). -/
def execTapReset (s : State) : Out := if s.alwaysOn then .next (s.tapLoad .idcode) else .next s

/-- BYPASS (R477): the bypass bit captures 0. -/
def execBypass (s : State) : Out := if s.alwaysOn then .next ((s.tapLoad .bypass).setTdo 0) else .next s

/-- SAMPLE_PRELOAD (R477). -/
def execSamplePreload (s : State) : Out := if s.alwaysOn then .next (s.tapLoad .samplePreload).scanBalls else .next s

/-- IDCODE (R477). -/
def execIdcode (s : State) : Out := if s.alwaysOn then .next ((s.tapLoad .idcode).setTdo 0x273007AB) else .next s

/-- EXTEST (R477): the removal input of the STO path is driven and no internal leg switches. -/
def execExtest (s : State) : Out :=
  if s.alwaysOn then
    .next (forN 32 (fun l s => s.legOff l) ((s.tapLoad .extest).onPower fun p => { p with removal := true })).scanBalls
  else .next s

end Sys2Proof.Machine
end

