-- ==== Sys2Proof/Machine/Startup.lean ====
section
/-!
DEFINITION. The power-up sequence (R445 to R452, Table 19-1) and the settings of the personalities (R453, R457, R458, Table 19-2).
-/
namespace Sys2Proof.Machine

/-! The ownerless stage (R451). -/

/-- A word of the ownerless stage. -/
def State.bootReg (s : State) (p o : Nat) (v : Word) : State := (s.setCd p o (stagedValue p o v)).markDirty p

/-- A field of a register of the ownerless stage. -/
def State.bootFld (s : State) (p o hi lo v : Nat) : State := s.bootReg p o (putFld (s.cd p o) hi lo v)

/-- The ownerless stage is open. -/
def State.bootOpen (s : State) : State := s.closeStage.onStage fun g => { g with state := .opened }

/-- 2 pi, to more digits than the rounding of R458 needs. -/
def twoPi : Rat := 628318530717958647693 / 100000000000000000000

/-- A gain in Q8.24. -/
def gainQ24 (r : Rat) : Word := iw (roundRat (r * 16777216))

/-- The current-loop gains of axis 0 for a bandwidth of 1 kHz (R458). -/
def State.bootGains (s : State) : State :=
  let p := pgAxis 0
  let r : Rat := ((s.cd p AXIS.I_FS).toNat : Rat) / (s.cd p AXIS.U_FS).toNat
  let kp := gainQ24 (twoPi * 1000 * (s.cd p AXIS.LQ).toNat / 1000000000 * r)
  let ki := gainQ24 (twoPi * 1000 * (s.cd p AXIS.RS).toNat / 1000000 * (50 / 1000000) * r)
  (((s.bootReg p AXIS.KP_D kp).bootReg p AXIS.KP_Q kp).bootReg p AXIS.KI_D ki).bootReg p AXIS.KI_Q ki

/-- The motor of axis 0: pole pairs, PSI in uWb, RS in uOhm, LD = LQ in nH, I_FS in mA. -/
def State.bootMotor (s : State) (pp psi rs l ifs : Nat) : State :=
  let p := pgAxis 0
  ((((((((s.bootReg p AXIS.POLE_PAIRS (nw pp)).bootReg p AXIS.CPR 4096).bootReg p AXIS.ANGLE_OFS 0).bootReg p AXIS.PSI (nw psi)).bootReg
    p AXIS.RS (nw rs)).bootReg p AXIS.LD (nw l)).bootReg p AXIS.LQ (nw l)).bootReg p AXIS.I_FS (nw ifs)).bootFld p AXIS.CUR_LIMIT 31 16 0x8000

/-- Legs, axis 0 and its channels as P1 and P2 share them; `angle` is CFG.ANGLE, `fb` SOURCES.FB, `deb` the debounce time in us. -/
def State.bootDrive (s : State) (angle fb deb : Nat) : State :=
  let s := forN 3 (fun l s => ((s.bootFld (pgPwm 0) (PWM.LEG_CTRL l) 2 0 4).bootFld (pgPwm 0) (PWM.LEG_CTRL l) 17 16 2).bootFld (pgPwm 0)
    (PWM.LEG_CTRL l) 5 4 0) s
  let p := pgAxis 0
  let s := (((s.bootFld p AXIS.CFG 1 0 1).bootFld p AXIS.CFG 5 4 angle).bootFld p AXIS.CFG 6 6 0).bootFld p AXIS.CFG 7 7 0
  let s := (s.bootFld p AXIS.SOURCES 2 0 fb).bootFld p AXIS.SOURCES 23 16 0xFE
  let s := s.bootReg pgAdc (ADC.SHUNT_CFG 0) 0x12
  forN 3 (fun i s => s.bootFld pgFio (FIO.DI_CFG i) 31 16 deb) s

/-- Context 1 of LOOP0: the PI speed loop of axis 0, into its Iq reference; bound to axis 0 (log entry 32). -/
def State.bootSpeedLoop (s : State) (cfg : Nat) (sp : Nat) : State :=
  let p := pgLoop 0
  ((((((s.bootReg p (LOOP.CFG 1) (nw cfg)).bootReg p (LOOP.BIND 1) 0).bootReg p (LOOP.SRC 1) (nw (sp * 65536 + 0x3001))).bootReg
    p (LOOP.ROUTE 1) 0x30000000).bootReg p (LOOP.SHIFT 1) 8).bootReg p (LOOP.KP 1) (gainQ24 8)).bootReg p (LOOP.KI 1) (gainQ24 (5 / 100))

/-- P1, step follower (Table 19-2). FB1's FILT, which the table does not give, is taken as FB0's (log entry 32). -/
def State.bootP1 (s : State) : State :=
  let s := ((s.bootDrive 0 1 1000).bootMotor 4 20000 500000 1200000 10000).bootGains
  let s := (s.bootFld (pgFb 0) FB.CFG 2 0 2).bootFld (pgFb 0) FB.CFG 23 16 25
  let s := (s.bootFld (pgFb 1) FB.CFG 2 0 7).bootFld (pgFb 1) FB.CFG 23 16 25
  let s := (s.bootFld (pgFb 1) FB.ABS_CFG 5 0 24).bootFld (pgFb 1) FB.ABS_CFG 27 16 50
  let s := (s.bootFld (pgFb 1) FB.ABS_TIMING 15 0 2600).bootFld (pgFb 1) FB.ABS_TIMING 31 16 5000
  let s := ((s.bootFld (pgMot 0) MOT.CFG 2 0 2).bootFld (pgMot 0) MOT.CFG 19 16 0).bootFld (pgMot 0) MOT.CFG 13 12 0
  let s := (s.bootReg (pgMot 0) MOT.DEV_WIN 64).bootReg (pgMot 0) MOT.DEV_FRAMES 3
  let p := pgLoop 0
  let s := ((((s.bootReg p (LOOP.CFG 0) 0x101).bootReg p (LOOP.BIND 0) 0).bootReg p (LOOP.SRC 0) 0x30053000).bootReg p (LOOP.SHIFT 0)
    0x100000).bootReg p (LOOP.KP 0) (gainQ24 (625 / 100))
  s.bootSpeedLoop 0x18000003 0x1000

/-- P2, fan drive (Table 19-2). -/
def State.bootP2 (s : State) : State :=
  let s := ((s.bootDrive 2 0 10000).bootMotor 2 50000 200000 800000 20000).bootGains
  let s := s.bootReg pgAdc (ADC.AIN_CFG 0) 0x09C40001
  let s := (s.bootFld (pgMot 0) MOT.CFG 2 0 1).bootReg (pgMot 0) MOT.DEV_WIN 0
  s.bootSpeedLoop 0x3 0x3006

/-- P3, service (R457). -/
def State.bootP3 (s : State) : State := (s.bootFld pgDma DMA.CFG 0 0 1).bootReg pgFio FIO.DO_CFG 0

/-- The settings of a personality in the ownerless stage. -/
def State.bootPers (s : State) (n : Nat) : State :=
  if n = 1 then s.bootOpen.bootP1 else if n = 2 then s.bootOpen.bootP2 else s.bootOpen.bootP3

/-- The live registers that P2 sets beside its stage (Table 19-2). -/
def State.persLive (s : State) : State :=
  if s.power.config = 1 ∧ s.power.pers = 2 then
    ((s.setLv (pgMot 0) MOT.V_MAX 1638400).setLv (pgMot 0) MOT.ACC 10240).setLv (pgMot 0) MOT.DEC 10240
  else s

/-! Steps 1 to 6. -/

/-- Step 3: the reference is sensed and the PLL locks; on the first lock the tick starts at 0; B_0 (R13, R447). -/
def State.bootLock (s : State) (cmosClock : Bool) : State :=
  let t := if s.power.locked then s.time.tick else 0
  (s.onTime fun x =>
    { x with
      tick := t, ticking := true, pllLock := true, refOk := true, holdover := false, b0 := some (ceilDiv t 12500 * 12500)
      curLen := 12500, nextLen := 12500 }).onPower fun p => { p with locked := true, cmosClock := cmosClock }

/-- Step 4: PLINK is up (R253). -/
def State.bootLink (s : State) (delay : BitVec 16) : State :=
  (s.onTime fun t => { t with plinkLock := true }).onPdie fun x => { x with delay := delay, upOk := true, dnOk := true }

/-- Step 5: the straps are sampled where VIO is there (R448). -/
def State.bootStraps (s : State) (i : BootInfo) : State :=
  s.onPower fun p => { p with pers := i.pers, autold := i.autold, noVio := false }

/-- Step 6: a failed check stops the sequence with a KIND 13 entry (R450); lanes that failed their passes are retired. -/
def State.bootChecks (s : State) (i : BootInfo) : State :=
  if !i.checksOk then
    let s := s.logAdd 13 clsDevice 0 4 0
    let s := match execLogEntryCommit true s with
      | .next t => t
      | _ => s
    s.onPower fun p => { p with phase := .stopped }
  else
    let s := { s with mem := s.mem.filter fun c => isLogWin c.1, eccBad := [] }
    let s := forN 8 (fun n s => if i.laneFail.getLsbD n then s.retire 5 n else s) s
    s.onPower fun p => { p with phase := .step 7 }

/-! Steps 7 to 9. -/

/-- The stored image is placed: its memory runs written, its page runs in the ownerless stage (R451). -/
def State.bootImage (s : State) : State :=
  let body := s.storedBody
  forL (bodyRuns body.length body) (fun r s =>
    if r.1 < 0x100000 then
      forL (r.2.zipIdx) (fun x s => s.bootReg (pageOf r.1) (offOf r.1 + 4 * x.2) x.1) s
    else s.putWords r.1 r.2) s.bootOpen

/-- An image is to be tried: AUTOLD, and not the service personality (R452). -/
def State.bootAuto (s : State) : Bool := s.power.autold && s.power.pers != 3

/-- Step 7: the log, and the check of the stored image, which is placed when it is valid (R451). -/
def State.bootScan (s : State) : State :=
  let s := s.bootLog s.power.source
  let s :=
    if !s.bootAuto then s
    else match s.imageBad with
      | some e => s.onPower fun p => { p with autoCode := BitVec.ofNat 8 e }
      | none => s.bootImage.onPower fun p => { p with autoCode := 0 }
  s.onPower fun p => { p with phase := .step 8 }

/-- A proof of the ownerless stage: its registers and its event (R59, R60). -/
def State.bootProve (s : State) : Nat × State :=
  let o := s.proofOut
  (o.code.toNat, (s.writeProof o).event pgSys 1)

/-- The stored image, where step 7 placed one, is proved; a failure discards the stage (R451). -/
def State.bootProveImage (s : State) : State :=
  if s.bootAuto ∧ s.power.autoCode = 0 then
    let (e, s) := s.bootProve
    if e = 0 then s.onPower fun p => { p with config := 2 } else s.closeStage.onPower fun p => { p with autoCode := BitVec.ofNat 8 e }
  else s

/-- The personality is proved where no image is taken (R452). -/
def State.bootProvePers (s : State) : State :=
  let n := s.power.pers.toNat
  if s.power.config = 2 ∨ n = 0 then s
  else
    let (e, s) := (s.bootPers n).bootProve
    let s := s.onPower fun p => { p with persCode := BitVec.ofNat 8 e }
    if e = 0 then s.onPower fun p => { p with config := 1 } else s.closeStage

/-- BOOT_STATUS (R460, Table 19-5). -/
def State.bootStatus (s : State) : Word :=
  let p := s.power
  nw (p.source * 2 ^ 28 + p.config * 2 ^ 24 + p.autoCode.toNat * 2 ^ 16 + p.persCode.toNat * 2 ^ 8 + bitAt 5 p.persOn + bitAt 4 p.noVio
    + bitAt 2 p.autold + p.pers.toNat)

/-- FABRIC_UP (step 9, R420, R460). The removal input is released unless EXTEST drives it. -/
def State.fabricUp (s : State) : State :=
  let s := s.onPower fun p =>
    { p with phase := .up, removal := decide (p.tap = .extest), persOn := decide (p.config = 1) && (p.pers == 1 || p.pers == 2) }
  (s.setLv pgSys SYS.BOOT_STATUS s.bootStatus).event pgMgmt 8

/-- The frame grid brought to an instant: the boundary at or before it (R447). -/
def State.gridTo (s : State) (t : Nat) : State :=
  match s.time.b0 with
  | some b =>
    if t < b then s
    else s.onTime fun x => { x with b0 := none, grid := true, frameCount := (t - b) / 12500, frameStart := b + (t - b) / 12500 * 12500 }
  | none =>
    let n := (t - s.time.frameStart) / 12500
    s.onTime fun x => { x with frameCount := x.frameCount + n, frameStart := x.frameStart + n * 12500 }

/-- Step 9 with nothing to strike: at the end of step 8. -/
def State.bootPlain (s : State) : State := ((s.gridTo s.now).newConfig).fabricUp

/-- Step 8: proof of the chosen configuration; with one, the strike is armed for B_m (R61); with none, step 9 follows at once. -/
def State.bootProof (s : State) : State :=
  let s := s.bootProveImage.bootProvePers
  if s.power.config = 0 then s.bootPlain
  else
    let t := s.now + 25000
    (s.onStage fun g => { g with state := .armed, due := some (.tick t) }).onPower fun p => { p with phase := .step 9 }

/-- Step 9: the configuration strikes at B_m, the first boundary at or after t_a + 25 000. -/
def State.bootStrike (s : State) : State :=
  let due := match s.stage.due with
    | some (.tick t) => t
    | _ => s.now
  let first := (s.time.b0).getD s.time.frameStart
  let m := if due ≤ first then first else first + ceilDiv (due - first) 12500 * 12500
  let s := if m = first then s else s.gridTo (m - 12500)
  let s := (s.onStage fun g => { g with commit := true }).onPower fun p => { p with phase := .up }
  (s.boundaryAt m).persLive.fabricUp

/-- POWER_UP_STEP_COMPLETE (R445, Table 19-1). VCORE that returns completes step 2 again (R420). -/
def execPowerUpStepComplete (info : BootInfo) (s : State) : Out :=
  let goTo := fun (n : Nat) (s : State) => s.onPower fun p => { p with phase := .step n }
  match s.power.phase with
  | .step 1 => .next (goTo 2 s)
  | .step 2 => if s.power.vinOk then .next (goTo 3 s) else .next s
  | .coreLost => if s.power.vinOk then .next (goTo 3 s) else .next s
  | .step 3 => .next (goTo 4 (s.bootLock info.cmosClock))
  | .step 4 => .next (goTo 5 (s.bootLink info.delay))
  | .step 5 => if info.vio || s.power.vio then .next (goTo 6 ((s.bootStraps info).onPower fun p => { p with vio := true })) else .next s
  | .step 6 => .next (s.bootChecks info)
  | .step 7 => .next s.bootScan
  | .step 8 => .next s.bootProof
  | .step 9 => .next s.bootStrike
  | _ => .next s

/-- VIO_WAIT_TIMEOUT (R448): 100 ms at step 5 without VIO. -/
def execVioWaitTimeout (s : State) : Out :=
  if s.power.phase = .step 5 ∧ !s.power.vio then
    .next (s.onPower fun p => { p with pers := 0, autold := false, noVio := true, phase := .step 6 })
  else .next s

end Sys2Proof.Machine
end

