-- ==== Sys2Proof/Machine/Hk.lean ====
section
/-!
DEFINITION. Housekeeping (chapter 18): the round with its rates, levels, supplies and sensors, the scraper, the trims of the AIN
converters, and telemetry.
-/
namespace Sys2Proof.Machine

/-! What a round converts. -/

/-- TJ_CTRL: the highest of S0 to S3 that is not excluded (R426). -/
def State.tjCtrl (s : State) (r : HkRound) : Int :=
  let l := ((List.range 4).filter fun i => !s.hk.excluded.getLsbD i).map fun i => r.s0.getD i 0
  match l with
  | [] => r.s0.foldl max (r.s0.getD 0 0)
  | x :: xs => xs.foldl max x

/-- A rate over 64 rounds in 1/16 K/s (R427): of the present reading and the readings before it, newest first. -/
def hkRate (now : Int) (hist : List Int) : Int :=
  if hist.length < 64 then 0 else roundDiv ((now - hist.getD 63 0) * 1000000) 65536

/-- The 24 channels that a round publishes (Table 18-1). -/
def State.hkChannels (s : State) (r : HkRound) : List Int :=
  let tj := s.tjCtrl r
  let pw := r.ch.getD 1 0
  (List.range 24).map fun n =>
    satS 16 (if n = 0 then tj else if n = 22 then hkRate tj s.hk.histCtrl else if n = 23 then hkRate pw s.hk.histPwr else r.ch.getD n 0)

/-! Thermal levels (R428, Table 18-2). -/

/-- Thresholds of a level on the two dies, and on the rates. -/
def levelLimits (c : Cfg) (l : Nat) : Int × Int × Int :=
  if l = 1 then (sfld (c pgHk HK.WARN_T) 15 0, sfld (c pgHk HK.WARN_T) 31 16, 320)
  else if l = 2 then (sfld (c pgHk HK.THR_T) 15 0, sfld (c pgHk HK.THR_T) 31 16, 640)
  else (2240, 2640, 1280)

/-- An entry condition of level l holds. -/
def levelHolds (c : Cfg) (ch : List Int) (l : Nat) : Bool :=
  let (tc, tp, rt) := levelLimits c l
  decide (tc ≤ ch.getD 0 0) || decide (tp ≤ ch.getD 1 0) || decide (rt ≤ ch.getD 22 0) || decide (rt ≤ ch.getD 23 0)

/-- A round that counts towards leaving level l: no condition, and both dies at least 5 degrees below its thresholds. -/
def levelCalm (c : Cfg) (ch : List Int) (l : Nat) : Bool :=
  let (tc, tp, _) := levelLimits c l
  !levelHolds c ch l && decide (ch.getD 0 0 + 80 ≤ tc) && decide (ch.getD 1 0 + 80 ≤ tp)

/-- A level by its code. -/
def levelOf (n : Nat) : Level := if n = 0 then .normal else if n = 1 then .warn else if n = 2 then .throttle else .shutdown

/-- The highest level whose entry condition holds. -/
def levelEntered (c : Cfg) (ch : List Int) : Nat := if levelHolds c ch 3 then 3 else if levelHolds c ch 2 then 2 else if levelHolds c ch 1 then 1 else 0

/-- The level after a round below SHUTDOWN: up at once, down after LEAVE_ROUNDS calm rounds. -/
def State.levelStep (s : State) (ch : List Int) : State :=
  let c := s.force
  let now := s.hk.level.code
  let e := levelEntered c ch
  if now < e then s.setLevel (levelOf e)
  else if now = 0 then s
  else if levelCalm c ch now then
    let n := s.hk.calm + 1
    if fld (c pgHk HK.THROTTLE_CFG) 31 16 ≤ n then s.setLevel (levelOf e) else s.onHk fun h => { h with calm := n }
  else s.onHk fun h => { h with calm := 0 }

/-- A source of the device follows a condition. -/
def State.follow (s : State) (src : Nat) (on : Bool) : State :=
  if on then s.raise src 16 else s.clearSrc src 16

/-! Supplies and sensors (R434, R441). -/

/-- Voltage outside a range, in mV. -/
def outside (v lo hi : Int) : Bool := decide (v < lo) || decide (hi < v)

/-- A supply out of range (R441). -/
def State.supplyBad (s : State) (ch : List Int) : Bool :=
  let v := fun (n : Nat) => ch.getD n 0
  let p : Int := vcoreMv s.sched.point
  outside (v 10) 3000 3600 || (v 8 != 0 && outside (v 8) 3000 3600) || (outside (v 9) 1620 1980 && outside (v 9) 2970 3630)
    || (!s.sched.ramping && decide (p < 20 * ((v 11 - p).natAbs : Int)))

/-- SUPPLY_RANGE. -/
def State.supplyCheck (s : State) (ch : List Int) : State :=
  let bad := s.supplyBad ch
  let s := if bad && !s.srcOn srcSupply 16 then (s.event pgHk 16).pfault pgHk 4 else s
  s.follow srcSupply bad

/-- Median of three. -/
def median3 (l : List Int) : Int := (l.mergeSort (fun a b => decide (a ≤ b))).getD 1 0

/-- Sensor i differs from the median of the other three by more than 8 degrees. -/
def sensorOff (ch : List Int) (i : Nat) : Bool :=
  let others := ((List.range 4).filter (· ≠ i)).map fun j => ch.getD (3 + j) 0
  decide (128 < (ch.getD (3 + i) 0 - median3 others).natAbs)

/-- The agreement test of sensor i: excluded after 10 rounds in disagreement, back after 1000 in agreement. -/
def State.sensorTest (s : State) (ch : List Int) (i : Nat) : State :=
  let off := sensorOff ch i
  let d := if off then s.hk.disagree.getD i 0 + 1 else 0
  let g := if off then 0 else s.hk.agree.getD i 0 + 1
  let was := s.hk.excluded.getLsbD i
  let s := s.onHk fun h => { h with disagree := h.disagree.set i d, agree := h.agree.set i g }
  if !was ∧ 10 ≤ d then
    ((s.onHk fun h => { h with excluded := h.excluded ||| BitVec.ofNat 4 (2 ^ i) }).event pgHk 32).pfault pgHk 8
  else if was ∧ 1000 ≤ g then s.onHk fun h => { h with excluded := h.excluded &&& ~~~BitVec.ofNat 4 (2 ^ i) }
  else s

/-- Sensor agreement, while the burnisher runs (R434). -/
def State.sensorCheck (s : State) (ch : List Int) : State :=
  if !s.bgOn 2 then s
  else
    let s := forN 4 (fun i s => s.sensorTest ch i) s
    s.follow srcHkSensor (s.hk.excluded != 0)

/-! The round. -/

/-- The results of a round are published together, with the snapshot of the MGMT page (R425). -/
def State.hkPublish (s : State) (ch : List Int) : State :=
  let s := { s with samples := { s.samples with hk := ch } }
  let s := s.onHk fun h =>
    { h with rounds := h.rounds + 1, histCtrl := (ch.getD 0 0 :: h.histCtrl).take 64, histPwr := (ch.getD 1 0 :: h.histPwr).take 64 }
  let s := s.setLv pgMgmt MGMT.SNAP_TEMP (nw ((iw (ch.getD 1 0)).toNat % 65536 * 65536 + (iw (ch.getD 0 0)).toNat % 65536))
  s.setLv pgMgmt MGMT.SNAP_VIN (nw ((4 * ch.getD 7 0).toNat % 131072))

/-- What a round does on the HK page, which answers while the fabric is up. -/
def State.hkSources (s : State) (ch : List Int) : State :=
  if !s.up then s
  else
    let hot := decide (2000 ≤ ch.getD 0 0)
    let s := ((s.follow srcTempWarn (decide (1 ≤ s.hk.level.code))).follow srcTempThr (decide (2 ≤ s.hk.level.code)))
    let s := (if hot then s.pfault pgHk 1 else s).follow srcTjOver hot
    let s := (s.supplyCheck ch).sensorCheck ch
    s.setLv pgMgmt MGMT.SNAP_STATUS s.globalStatus

/-- End of a round (R425): 256 000 ticks after its start, which is the first multiple of 256 000 at or after the end of the round
before it; a round timed by the RC oscillator ends at the present tick, one in progress at a lock included. -/
def State.roundEnd (s : State) : State :=
  let due := (ceilDiv s.hk.lastEnd 256000 + 1) * 256000
  let rc := s.hk.rcTimed
  let s := if rc then s else s.reach due
  s.onHk fun h => { h with lastEnd := if rc then s.now else due, rcTimed := !s.time.pllLock }

/-- HK_ROUND_END (R425 to R428, R431, R434, R441, R456). -/
def execHkRoundEnd (r : HkRound) (s : State) : Out :=
  if !s.alwaysOn then .next s
  else
    let s := s.roundEnd
    let ch := s.hkChannels r
    let s := s.hkPublish ch
    if levelHolds s.force ch 3 then .next s.thermalShutdown
    else if s.power.thermLatch then .next s
    else .next ((s.levelStep ch).hkSources ch).persRound

/-- AIN_TRIM_UPDATE (R434): each trim moves by at most 2 LSB, from the next boundary. -/
def execAinTrimUpdate (conv : Fin 2) (offset : Int) (gain : Int) (s : State) : Out :=
  if !s.up || !s.bgOn 2 then .next s
  else
    let mv := fun (old new : Int) => clampI (old - 2) (old + 2) new
    .next (s.onHk fun h =>
      { h with ainNew := h.ainNew.set conv.val (some (mv (h.ainOfs.getD conv.val 0) offset, mv (h.ainGain.getD conv.val 0) gain)) })

/-! Scraper (R432, R433). -/

/-- Address of word i of a pass, and its region: plate memory, lane stores, trace buffer, message memory. -/
def scrubWord (i : Nat) : Nat × Nat :=
  if i < 131072 then (0x100000 + 4 * i, 0)
  else if i < 180224 then
    let j := i - 131072
    (0x180000 + 0x8000 * (j / 6144) + 4 * (j % 6144), 1)
  else if i < 376832 then (0x200000 + 4 * (i - 180224), 2)
  else (0x300000 + 4 * (i - 376832), 3)

/-- One of the four counts of ECC_CE or ECC_UE, which saturate. -/
def State.eccCount (s : State) (o region : Nat) : State :=
  s.onLv pgHk o fun w => putFld w (8 * region + 7) (8 * region) (min (fld w (8 * region + 7) (8 * region) + 1) 0xFF)

/-- A single-bit error corrected at an address of a region (R432). -/
def State.eccFixed (s : State) (a region : Nat) : State := ((s.eccCount HK.ECC_CE region).setLv pgHk HK.ECC_LAST (nw a)).event pgHk 4

/-- An uncorrectable word (R433). -/
def State.eccBroken (s : State) (a region : Nat) : State :=
  let s := ((s.eccCount HK.ECC_UE region).setLv pgHk HK.ECC_LAST (nw (2 ^ 31 + a))).event pgHk 8
  let s := s.logAdd 13 (if region = 0 then clsDevice else clsWarn) 0 region (nw (2 ^ 31 + a))
  let keep := fun (s : State) => { s with eccBad := if s.eccBad.contains a then s.eccBad else a :: s.eccBad }
  if region = 0 then ((keep s).pfault pgHk 2).raisePulse srcEcc 16
  else if region = 1 then (keep s).laneFault ((a - 0x180000) / 0x8000) 8 none
  else s.putWord a 0

/-- Word i of the step: uncorrectable now or since before, or corrected. -/
def State.scrubOne (s : State) (step : Nat) (ce ue : BitVec 16) (i : Nat) : State :=
  let (a, region) := scrubWord (16 * step + i)
  if ue.getLsbD i || s.eccBad.contains a then s.eccBroken a region
  else if ce.getLsbD i then s.eccFixed a region
  else s

/-- SCRUB_STEP (R432): 16 words; a pass is 24 064 steps. -/
def execScrubStep (ce : BitVec 16) (ue : BitVec 16) (s : State) : Out :=
  if !s.up then .next s
  else
    let w := s.lv pgHk HK.SCRUB_STATUS
    let step := fld w 15 0
    let s := forN 16 (fun i s => s.scrubOne step ce ue i) s
    let next := if step = 24063 then nw ((fld w 31 16 + 1) % 65536 * 65536) else nw (fld w 31 16 * 65536 + step + 1)
    .next (s.setLv pgHk HK.SCRUB_STATUS next)

/-! Telemetry (R440, Table 18-6). -/

/-- Two bytes of a housekeeping channel. -/
def State.teleCh (s : State) (n : Nat) : List Byte := leBytes 2 ((iw (s.hkCh n)).toNat % 65536)

/-- Payload of a telemetry record. -/
def State.teleData (s : State) (n : Nat) : List Byte :=
  if n = 0 then [0, 1, 2, 22, 23].flatMap s.teleCh ++ [BitVec.ofNat 8 s.hk.level.code, BitVec.ofNat 8 s.sched.state]
  else if n = 1 then [7, 14, 12, 11, 16, 15].flatMap s.teleCh
  else if n = 2 then
    wordBytes s.globalStatus ++ wordBytes (s.regRead pgSafe SAFE.SRC_ACTIVE0) ++ wordBytes (s.regRead pgSafe SAFE.SRC_ACTIVE1)
  else wordsBytes (s.wordsAt (sigAddr (fld (s.cf pgHk HK.TELE_SIGBASE) 11 0)) 16)

/-- TELEMETRY_SEND (R440): the records that are due are sent, or counted while the item is held back. -/
def execTelemetrySend (s : State) : Out :=
  match s.due .telemetry with
  | none => .next s
  | some t =>
    let w := s.cf pgHk HK.TELE_CFG
    let s := s.expire .telemetry fun s => s.startT .telemetry (t + msT (fld w 31 16))
    .next (forN 4 (fun n s =>
      if !bt w n then s
      else if s.bgOn 5 then s.bilvaSend (fld w 8 8) 6 0x30 n (s.teleData n) none
      else s.inc16 pgHk HK.TELE_SKIPPED) s)

end Sys2Proof.Machine
end

