-- ==== Sys2Proof/Machine/Dispatch.lean ====
section
/-!
DEFINITION. The dispatch: one arm per command, each one direct call of the command's meaning.
-/
namespace Sys2Proof.Machine

def exec (i : Instr) (s : State) : Host.Outcome State Fault Refusal :=
  match i with
  | .nop l => Sys2Proof.Machine.execNop l s
  | .add l d a b => Sys2Proof.Machine.execAdd l d a b s
  | .sub l d a b => Sys2Proof.Machine.execSub l d a b s
  | .adds l d a b => Sys2Proof.Machine.execAdds l d a b s
  | .subs l d a b => Sys2Proof.Machine.execSubs l d a b s
  | .and l d a b => Sys2Proof.Machine.execAnd l d a b s
  | .or l d a b => Sys2Proof.Machine.execOr l d a b s
  | .xor l d a b => Sys2Proof.Machine.execXor l d a b s
  | .ash l d a b => Sys2Proof.Machine.execAsh l d a b s
  | .lsh l d a b => Sys2Proof.Machine.execLsh l d a b s
  | .min l d a b => Sys2Proof.Machine.execMin l d a b s
  | .max l d a b => Sys2Proof.Machine.execMax l d a b s
  | .abs l d a => Sys2Proof.Machine.execAbs l d a s
  | .neg l d a => Sys2Proof.Machine.execNeg l d a s
  | .slt l d a b => Sys2Proof.Machine.execSlt l d a b s
  | .sltu l d a b => Sys2Proof.Machine.execSltu l d a b s
  | .seq l d a b => Sys2Proof.Machine.execSeq l d a b s
  | .selnz l d a b c => Sys2Proof.Machine.execSelnz l d a b c s
  | .mul l d a b => Sys2Proof.Machine.execMul l d a b s
  | .cls l d a => Sys2Proof.Machine.execCls l d a s
  | .mov l d a => Sys2Proof.Machine.execMov l d a s
  | .addi l d a imm => Sys2Proof.Machine.execAddi l d a imm s
  | .movi l d imm => Sys2Proof.Machine.execMovi l d imm s
  | .movhi l d imm => Sys2Proof.Machine.execMovhi l d imm s
  | .andi l d a imm => Sys2Proof.Machine.execAndi l d a imm s
  | .ori l d a imm => Sys2Proof.Machine.execOri l d a imm s
  | .ashi l d a imm => Sys2Proof.Machine.execAshi l d a imm s
  | .lshi l d a imm => Sys2Proof.Machine.execLshi l d a imm s
  | .ld l d p sp f => Sys2Proof.Machine.execLd l d p sp f s
  | .st l d p sp f => Sys2Proof.Machine.execSt l d p sp f s
  | .ld2 l d p sp f => Sys2Proof.Machine.execLd2 l d p sp f s
  | .st2 l d p sp f => Sys2Proof.Machine.execSt2 l d p sp f s
  | .ldsig l d sel => Sys2Proof.Machine.execLdsig l d sel s
  | .sacst l acc p sp f sh => Sys2Proof.Machine.execSacst l acc p sp f sh s
  | .mpy l acc a b => Sys2Proof.Machine.execMpy l acc a b s
  | .mac l acc a b => Sys2Proof.Machine.execMac l acc a b s
  | .msu l acc a b => Sys2Proof.Machine.execMsu l acc a b s
  | .mpyi l acc a b => Sys2Proof.Machine.execMpyi l acc a b s
  | .maci l acc a b => Sys2Proof.Machine.execMaci l acc a b s
  | .msui l acc a b => Sys2Proof.Machine.execMsui l acc a b s
  | .sac l d acc sh => Sys2Proof.Machine.execSac l d acc sh s
  | .mpyr l d a b => Sys2Proof.Machine.execMpyr l d a b s
  | .mova l acc a b => Sys2Proof.Machine.execMova l acc a b s
  | .adda l acc accb => Sys2Proof.Machine.execAdda l acc accb s
  | .suba l acc accb => Sys2Proof.Machine.execSuba l acc accb s
  | .asha l acc sh => Sys2Proof.Machine.execAsha l acc sh s
  | .clra l acc => Sys2Proof.Machine.execClra l acc s
  | .addad l acc a b => Sys2Proof.Machine.execAddad l acc a b s
  | .subad l acc a b => Sys2Proof.Machine.execSubad l acc a b s
  | .rdl l d acc => Sys2Proof.Machine.execRdl l d acc s
  | .rdh l d acc => Sys2Proof.Machine.execRdh l d acc s
  | .rdg l d acc => Sys2Proof.Machine.execRdg l d acc s
  | .sata l acc => Sys2Proof.Machine.execSata l acc s
  | .b l target => Sys2Proof.Machine.execB l target s
  | .call l target => Sys2Proof.Machine.execCall l target s
  | .ret l => Sys2Proof.Machine.execRet l s
  | .beqz l a target => Sys2Proof.Machine.execBeqz l a target s
  | .bnez l a target => Sys2Proof.Machine.execBnez l a target s
  | .bltz l a target => Sys2Proof.Machine.execBltz l a target s
  | .bgez l a target => Sys2Proof.Machine.execBgez l a target s
  | .bgtz l a target => Sys2Proof.Machine.execBgtz l a target s
  | .blez l a target => Sys2Proof.Machine.execBlez l a target s
  | .loopi l lvl len count => Sys2Proof.Machine.execLoopi l lvl len count s
  | .loopr l lvl len a mx => Sys2Proof.Machine.execLoopr l lvl len a mx s
  | .loopCountExpiry l lvl => Sys2Proof.Machine.execLoopCountExpiry l lvl s
  | .movp l p imm => Sys2Proof.Machine.execMovp l p imm s
  | .movm l p imm => Sys2Proof.Machine.execMovm l p imm s
  | .pregSetP l p a => Sys2Proof.Machine.execPregSetP l p a s
  | .pregGetP l p d => Sys2Proof.Machine.execPregGetP l p d s
  | .pregAddM l p mm => Sys2Proof.Machine.execPregAddM l p mm s
  | .pregSetM l mm a => Sys2Proof.Machine.execPregSetM l mm a s
  | .pregGetM l mm d => Sys2Proof.Machine.execPregGetM l mm d s
  | .savel l d => Sys2Proof.Machine.execSavel l d s
  | .restl l d => Sys2Proof.Machine.execRestl l d s
  | .end_ l => Sys2Proof.Machine.execEnd l s
  | .clrsat l => Sys2Proof.Machine.execClrsat l s
  | .sysReadLsr l d => Sys2Proof.Machine.execSysReadLsr l d s
  | .powerOn byVin madr => Sys2Proof.Machine.execPowerOn byVin madr s
  | .powerUpStepComplete info => Sys2Proof.Machine.execPowerUpStepComplete info s
  | .vioWaitTimeout => Sys2Proof.Machine.execVioWaitTimeout s
  | .vinLockout => Sys2Proof.Machine.execVinLockout s
  | .rstNReset => Sys2Proof.Machine.execRstNReset s
  | .watchdogReset => Sys2Proof.Machine.execWatchdogReset s
  | .frameBoundary => Sys2Proof.Machine.execFrameBoundary s
  | .samplePublish => Sys2Proof.Machine.execSamplePublish s
  | .profilePass => Sys2Proof.Machine.execProfilePass s
  | .commitCutoff => Sys2Proof.Machine.execCommitCutoff s
  | .taskDispatch lane => Sys2Proof.Machine.execTaskDispatch lane s
  | .urgentTrigger lane slot => Sys2Proof.Machine.execUrgentTrigger lane slot s
  | .urgentHoldExpiry lane slot => Sys2Proof.Machine.execUrgentHoldExpiry lane slot s
  | .urgentPreemption lane => Sys2Proof.Machine.execUrgentPreemption lane s
  | .boundAbort lane => Sys2Proof.Machine.execBoundAbort lane s
  | .backgroundSliceEnd lane => Sys2Proof.Machine.execBackgroundSliceEnd lane s
  | .selftestPassDone lane ok => Sys2Proof.Machine.execSelftestPassDone lane ok s
  | .selftestLate lane => Sys2Proof.Machine.execSelftestLate lane s
  | .timeRefLost => Sys2Proof.Machine.execTimeRefLost s
  | .pllRelock => Sys2Proof.Machine.execPllRelock s
  | .opRampEnd => Sys2Proof.Machine.execOpRampEnd s
  | .plinkSync frame => Sys2Proof.Machine.execPlinkSync frame s
  | .plinkSet frame => Sys2Proof.Machine.execPlinkSet frame s
  | .plinkEdge frame => Sys2Proof.Machine.execPlinkEdge frame s
  | .plinkIdle frame up => Sys2Proof.Machine.execPlinkIdle frame up s
  | .edgeExecute leg => Sys2Proof.Machine.execEdgeExecute leg s
  | .legstat frame => Sys2Proof.Machine.execLegstat frame s
  | .dcl frame => Sys2Proof.Machine.execDcl frame s
  | .plinkHk frame => Sys2Proof.Machine.execPlinkHk frame s
  | .diag frame => Sys2Proof.Machine.execDiag frame s
  | .echo frame => Sys2Proof.Machine.execEcho frame s
  | .plinkLost => Sys2Proof.Machine.execPlinkLost s
  | .plinkLinkUp delay => Sys2Proof.Machine.execPlinkLinkUp delay s
  | .vdsBlankEnd leg high => Sys2Proof.Machine.execVdsBlankEnd leg high s
  | .vdsTrip leg high => Sys2Proof.Machine.execVdsTrip leg high s
  | .bsuv leg => Sys2Proof.Machine.execBsuv leg s
  | .cpuv => Sys2Proof.Machine.execCpuv s
  | .cpuvRelease => Sys2Proof.Machine.execCpuvRelease s
  | .vgdUv => Sys2Proof.Machine.execVgdUv s
  | .vgdRelease => Sys2Proof.Machine.execVgdRelease s
  | .vinOv => Sys2Proof.Machine.execVinOv s
  | .vinOvRelease => Sys2Proof.Machine.execVinOvRelease s
  | .dclComparatorChange n set => Sys2Proof.Machine.execDclComparatorChange n set s
  | .pwmSnapshot leg => Sys2Proof.Machine.execPwmSnapshot leg s
  | .pwmReload leg => Sys2Proof.Machine.execPwmReload leg s
  | .pwmDutyWrite leg v => Sys2Proof.Machine.execPwmDutyWrite leg v s
  | .pwmPeriodWrite leg v => Sys2Proof.Machine.execPwmPeriodWrite leg v s
  | .pwmUpdateControl leg v => Sys2Proof.Machine.execPwmUpdateControl leg v s
  | .pwmOverride leg v => Sys2Proof.Machine.execPwmOverride leg v s
  | .nodeCrossing leg ns => Sys2Proof.Machine.execNodeCrossing leg ns s
  | .deadtimeExpiry leg => Sys2Proof.Machine.execDeadtimeExpiry leg s
  | .chopperSwitchFault => Sys2Proof.Machine.execChopperSwitchFault s
  | .chopperTestExpiry => Sys2Proof.Machine.execChopperTestExpiry s
  | .precheckStep u v w compOk supplyOk => Sys2Proof.Machine.execPrecheckStep u v w compOk supplyOk s
  | .stageOpen m seq arg8 => Sys2Proof.Machine.execStageOpen m seq arg8 s
  | .stageDiscard m seq arg8 => Sys2Proof.Machine.execStageDiscard m seq arg8 s
  | .proof m seq arg8 => Sys2Proof.Machine.execProof m seq arg8 s
  | .strike m seq arg8 => Sys2Proof.Machine.execStrike m seq arg8 s
  | .strikeAt m seq arg8 => Sys2Proof.Machine.execStrikeAt m seq arg8 s
  | .proofStrike m seq arg8 => Sys2Proof.Machine.execProofStrike m seq arg8 s
  | .precheck m seq arg8 => Sys2Proof.Machine.execPrecheck m seq arg8 s
  | .safeStop m seq arg8 => Sys2Proof.Machine.execSafeStop m seq arg8 s
  | .clearEvents m seq arg8 => Sys2Proof.Machine.execClearEvents m seq arg8 s
  | .readmit m seq arg8 => Sys2Proof.Machine.execReadmit m seq arg8 s
  | .saveImage m seq arg8 => Sys2Proof.Machine.execSaveImage m seq arg8 s
  | .stagedWrite m addr v => Sys2Proof.Machine.execStagedWrite m addr v s
  | .proofDone => Sys2Proof.Machine.execProofDone s
  | .stageExpired => Sys2Proof.Machine.execStageExpired s
  | .retryWindowExpiry c => Sys2Proof.Machine.execRetryWindowExpiry c s
  | .reproofDone => Sys2Proof.Machine.execReproofDone s
  | .powerReq v => Sys2Proof.Machine.execPowerReq v s
  | .axisEnable axis => Sys2Proof.Machine.execAxisEnable axis s
  | .axisRun axis => Sys2Proof.Machine.execAxisRun axis s
  | .axisStop axis => Sys2Proof.Machine.execAxisStop axis s
  | .axisDisable axis => Sys2Proof.Machine.execAxisDisable axis s
  | .axisClear axis => Sys2Proof.Machine.execAxisClear axis s
  | .offsetCaptureDone axis => Sys2Proof.Machine.execOffsetCaptureDone axis s
  | .burnisherOffsetUpdate axis => Sys2Proof.Machine.execBurnisherOffsetUpdate axis s
  | .sdOffsetRefresh axis => Sys2Proof.Machine.execSdOffsetRefresh axis s
  | .sdStreamStall ch => Sys2Proof.Machine.execSdStreamStall ch s
  | .catchTimeExpiry axis => Sys2Proof.Machine.execCatchTimeExpiry axis s
  | .restartTimeout axis => Sys2Proof.Machine.execRestartTimeout axis s
  | .fbEdgeAccepted fb stamp zba => Sys2Proof.Machine.execFbEdgeAccepted fb stamp zba s
  | .absAcquisitionStart fb idle => Sys2Proof.Machine.execAbsAcquisitionStart fb idle s
  | .absAcquisitionDone fb r => Sys2Proof.Machine.execAbsAcquisitionDone fb r s
  | .absTimeoutExpiry fb => Sys2Proof.Machine.execAbsTimeoutExpiry fb s
  | .fbLineFault fb => Sys2Proof.Machine.execFbLineFault fb s
  | .fbReacquire fb => Sys2Proof.Machine.execFbReacquire fb s
  | .fbStandstill fb => Sys2Proof.Machine.execFbStandstill fb s
  | .fbLost fb => Sys2Proof.Machine.execFbLost fb s
  | .posLoad fb v => Sys2Proof.Machine.execPosLoad fb v s
  | .moveAbs axis => Sys2Proof.Machine.execMoveAbs axis s
  | .moveRel axis => Sys2Proof.Machine.execMoveRel axis s
  | .jog axis => Sys2Proof.Machine.execJog axis s
  | .motStop axis => Sys2Proof.Machine.execMotStop axis s
  | .gearEngage axis => Sys2Proof.Machine.execGearEngage axis s
  | .gearArm axis => Sys2Proof.Machine.execGearArm axis s
  | .gearDisengage axis => Sys2Proof.Machine.execGearDisengage axis s
  | .switchCancel axis => Sys2Proof.Machine.execSwitchCancel axis s
  | .stepPulse axis => Sys2Proof.Machine.execStepPulse axis s
  | .push g => Sys2Proof.Machine.execPush g s
  | .flush g => Sys2Proof.Machine.execFlush g s
  | .compareArm axis unit v => Sys2Proof.Machine.execCompareArm axis unit v s
  | .comparePulseEnd axis unit => Sys2Proof.Machine.execComparePulseEnd axis unit s
  | .latchArm axis unit v => Sys2Proof.Machine.execLatchArm axis unit v s
  | .shareRef port node group tTot present stamp sq bridged => Sys2Proof.Machine.execShareRef port node group tTot present stamp sq bridged s
  | .shareStat port node group slots crc => Sys2Proof.Machine.execShareStat port node group slots crc s
  | .mainsLossQualified => Sys2Proof.Machine.execMainsLossQualified s
  | .mainsReturnQualified => Sys2Proof.Machine.execMainsReturnQualified s
  | .rescueStart => Sys2Proof.Machine.execRescueStart s
  | .rescueBrakeHoldExpiry => Sys2Proof.Machine.execRescueBrakeHoldExpiry s
  | .rescueSettleExpiry => Sys2Proof.Machine.execRescueSettleExpiry s
  | .converterReady => Sys2Proof.Machine.execConverterReady s
  | .converterTimeout => Sys2Proof.Machine.execConverterTimeout s
  | .rescueBrakeLiftExpiry => Sys2Proof.Machine.execRescueBrakeLiftExpiry s
  | .rescueTestDone => Sys2Proof.Machine.execRescueTestDone s
  | .rescueTravelTimeout => Sys2Proof.Machine.execRescueTravelTimeout s
  | .ascRelease axis => Sys2Proof.Machine.execAscRelease axis s
  | .stoDemand => Sys2Proof.Machine.execStoDemand s
  | .stoRelease => Sys2Proof.Machine.execStoRelease s
  | .stoReadback confirmed => Sys2Proof.Machine.execStoReadback confirmed s
  | .stoTestDue => Sys2Proof.Machine.execStoTestDue s
  | .selHost v => Sys2Proof.Machine.execSelHost v s
  | .safetyMonitorStart axis fn => Sys2Proof.Machine.execSafetyMonitorStart axis fn s
  | .ss1Timeout axis => Sys2Proof.Machine.execSs1Timeout axis s
  | .brakeRelease axis => Sys2Proof.Machine.execBrakeRelease axis s
  | .brakeSetExpiry axis => Sys2Proof.Machine.execBrakeSetExpiry axis s
  | .brakeFbTimeout slot axis => Sys2Proof.Machine.execBrakeFbTimeout slot axis s
  | .testPulse tp low high followed => Sys2Proof.Machine.execTestPulse tp low high followed s
  | .degradedExpired axis => Sys2Proof.Machine.execDegradedExpired axis s
  | .flinkUplinkFrame frame => Sys2Proof.Machine.execFlinkUplinkFrame frame s
  | .flinkDownlinkFrame => Sys2Proof.Machine.execFlinkDownlinkFrame s
  | .flinkAuxWord down w => Sys2Proof.Machine.execFlinkAuxWord down w s
  | .flinkLost => Sys2Proof.Machine.execFlinkLost s
  | .flinkRecovered => Sys2Proof.Machine.execFlinkRecovered s
  | .diDebounceAccept di => Sys2Proof.Machine.execDiDebounceAccept di s
  | .openWireSet di => Sys2Proof.Machine.execOpenWireSet di s
  | .openWireClear di => Sys2Proof.Machine.execOpenWireClear di s
  | .doThermalOff n => Sys2Proof.Machine.execDoThermalOff n s
  | .doThermalRetry n => Sys2Proof.Machine.execDoThermalRetry n s
  | .vfSag => Sys2Proof.Machine.execVfSag s
  | .vfCut => Sys2Proof.Machine.execVfCut s
  | .vfRestored => Sys2Proof.Machine.execVfRestored s
  | .canFrameReceived port f => Sys2Proof.Machine.execCanFrameReceived port f s
  | .canTxRequest port v => Sys2Proof.Machine.execCanTxRequest port v s
  | .canTxAbort port v => Sys2Proof.Machine.execCanTxAbort port v s
  | .canTxDone port tdc => Sys2Proof.Machine.execCanTxDone port tdc s
  | .canBusoff port => Sys2Proof.Machine.execCanBusoff port s
  | .canRecover port => Sys2Proof.Machine.execCanRecover port s
  | .canRecovered port => Sys2Proof.Machine.execCanRecovered port s
  | .rxSlotLock port slot reader => Sys2Proof.Machine.execRxSlotLock port slot reader s
  | .rxSlotRelease port slot reader => Sys2Proof.Machine.execRxSlotRelease port slot reader s
  | .bilvaSync port node sq => Sys2Proof.Machine.execBilvaSync port node sq s
  | .followUp port node sq t1 gm hops stepGen => Sys2Proof.Machine.execFollowUp port node sq t1 gm hops stepGen s
  | .timeCtrl port node sub stepGen => Sys2Proof.Machine.execTimeCtrl port node sub stepGen s
  | .bilvaStrikeAt port node t tag orig => Sys2Proof.Machine.execBilvaStrikeAt port node t tag orig s
  | .strikeCancel port node tag orig => Sys2Proof.Machine.execStrikeCancel port node tag orig s
  | .strikeAck port node tag orig code st => Sys2Proof.Machine.execStrikeAck port node tag orig code st s
  | .bilvaForward port => Sys2Proof.Machine.execBilvaForward port s
  | .syncSend port => Sys2Proof.Machine.execSyncSend port s
  | .masterLoss => Sys2Proof.Machine.execMasterLoss s
  | .backupMasterStart => Sys2Proof.Machine.execBackupMasterStart s
  | .holdoverExpiry => Sys2Proof.Machine.execHoldoverExpiry s
  | .relock => Sys2Proof.Machine.execRelock s
  | .ntSet => Sys2Proof.Machine.execNtSet s
  | .bcastRelock => Sys2Proof.Machine.execBcastRelock s
  | .netstrikeSend loc => Sys2Proof.Machine.execNetstrikeSend loc s
  | .netstrikeCancel => Sys2Proof.Machine.execNetstrikeCancel s
  | .timePulse out active => Sys2Proof.Machine.execTimePulse out active s
  | .telemetrySend => Sys2Proof.Machine.execTelemetrySend s
  | .dmaGo c => Sys2Proof.Machine.execDmaGo c s
  | .dmaStop c => Sys2Proof.Machine.execDmaStop c s
  | .dmaKick c => Sys2Proof.Machine.execDmaKick c s
  | .dmaResume => Sys2Proof.Machine.execDmaResume s
  | .dmaAutoResume => Sys2Proof.Machine.execDmaAutoResume s
  | .dmaRequest line => Sys2Proof.Machine.execDmaRequest line s
  | .dmaPeriodTrigger c => Sys2Proof.Machine.execDmaPeriodTrigger c s
  | .dmaBurst => Sys2Proof.Machine.execDmaBurst s
  | .traceArm => Sys2Proof.Machine.execTraceArm s
  | .traceStop => Sys2Proof.Machine.execTraceStop s
  | .traceForce => Sys2Proof.Machine.execTraceForce s
  | .traceClear => Sys2Proof.Machine.execTraceClear s
  | .traceSample => Sys2Proof.Machine.execTraceSample s
  | .traceSeqWindowExpiry => Sys2Proof.Machine.execTraceSeqWindowExpiry s
  | .hostWriteFrame cmd addr ws hcrc => Sys2Proof.Machine.execHostWriteFrame cmd addr ws hcrc s
  | .hostReadFrame cmd addr hcrc lateFrom => Sys2Proof.Machine.execHostReadFrame cmd addr hcrc lateFrom s
  | .hostFrameAbort => Sys2Proof.Machine.execHostFrameAbort s
  | .mgmtWrite addr len bytes => Sys2Proof.Machine.execMgmtWrite addr len bytes s
  | .mgmtRead addr len => Sys2Proof.Machine.execMgmtRead addr len s
  | .mgmtBusTimeout => Sys2Proof.Machine.execMgmtBusTimeout s
  | .alertResponse => Sys2Proof.Machine.execAlertResponse s
  | .pairLowRead m addr => Sys2Proof.Machine.execPairLowRead m addr s
  | .pairLowWrite m addr v => Sys2Proof.Machine.execPairLowWrite m addr v s
  | .pairHighWrite m addr v => Sys2Proof.Machine.execPairHighWrite m addr v s
  | .laneCodeWrite m addr v => Sys2Proof.Machine.execLaneCodeWrite m addr v s
  | .registerWrite m addr v => Sys2Proof.Machine.execRegisterWrite m addr v s
  | .hkRoundEnd r => Sys2Proof.Machine.execHkRoundEnd r s
  | .thermalComparatorTrip => Sys2Proof.Machine.execThermalComparatorTrip s
  | .ainTrimUpdate conv offset gain => Sys2Proof.Machine.execAinTrimUpdate conv offset gain s
  | .scrubStep ce ue => Sys2Proof.Machine.execScrubStep ce ue s
  | .logEntryCommit verified => Sys2Proof.Machine.execLogEntryCommit verified s
  | .logWearCopy verified => Sys2Proof.Machine.execLogWearCopy verified s
  | .imageSaveDone verified => Sys2Proof.Machine.execImageSaveDone verified s
  | .tapReset => Sys2Proof.Machine.execTapReset s
  | .bypass => Sys2Proof.Machine.execBypass s
  | .samplePreload => Sys2Proof.Machine.execSamplePreload s
  | .extest => Sys2Proof.Machine.execExtest s
  | .idcode => Sys2Proof.Machine.execIdcode s
  | .vinRising => Sys2Proof.Machine.execVinRising s
  | .powerOff => Sys2Proof.Machine.execPowerOff s
  | .refReturn => Sys2Proof.Machine.execRefReturn s
  | .vfSagClear => Sys2Proof.Machine.execVfSagClear s
  | .canBusError port tec rec integ => Sys2Proof.Machine.execCanBusError port tec rec integ s
  | .externalLegEdge leg rise => Sys2Proof.Machine.execExternalLegEdge leg rise s
  | .repeaterTransition r => Sys2Proof.Machine.execRepeaterTransition r s
  | .adcConversionDone ch code kind stamp => Sys2Proof.Machine.execAdcConversionDone ch code kind stamp s
  | .coreSupplyLoss => Sys2Proof.Machine.execCoreSupplyLoss s
  | .vioLoss => Sys2Proof.Machine.execVioLoss s
  | .vioReturn => Sys2Proof.Machine.execVioReturn s

end Sys2Proof.Machine
end

