-- ==== Sys2Proof/Machine/Step.lean ====
section
/-!
DEFINITION. One step: the command at the front of the queue is taken and executed on the state with the queue's rest; on an
empty queue one tick of the timebase passes (log entry 2).
-/
namespace Sys2Proof.Machine

/-- One tick of 4 ns with no command waiting (R13): the tick counter counts while the timebase runs. -/
def State.idle (s : State) : State :=
  if s.time.ticking then { s with time := { s.time with tick := s.time.tick + 1 } } else s

/-- One step. -/
def step (s : State) : Host.Outcome State Fault Refusal :=
  match s.pending with
  | [] => .next s.idle
  | c :: rest => exec c { s with pending := rest }

/-- The command that a table word spells, put at the front of the queue; the table gives its rows no bits. -/
def State.withFetchWord (s : State) (nbits w : Nat) : State :=
  match decodeTableWord nbits w with
  | none => s
  | some c => { s with pending := c :: s.pending }

end Sys2Proof.Machine
end

