-- ==== Sys2Proof/Safety.lean ====
section
/-!
DEFINITION. What counts as a well-kept state of the block, in the terms the statements use.
-/
namespace Sys2Proof.Safety

/-- Memory is in its canonical form, so that equal memories are equal data. -/
def MemoryOk (s : Machine.State) : Prop := Machine.memWf s.mem = true

/-- A sparse map lists each key once, keys rising. -/
def MapOk {α : Type} (m : List (Nat × α)) : Prop := Machine.risingFrom 0 m = true

/-- How many units of each kind the state holds: axes, drives, loop contexts, feedback interfaces, motion axes, compare units,
latches, path groups, legs, lanes, rope models, share groups, DMA channels, CAN ports, field inputs, field outputs, safety inputs,
repeaters. -/
def unitCounts (s : Machine.State) : List Nat :=
  [s.axes.length, s.drives.length, s.ctxs.length, s.fbs.length, s.mots.length, s.cmps.length, s.latches.length, s.groups.length,
   s.legs.length, s.lanes.length, s.ropes.length, s.shares.length, s.dma.length, s.cans.length, s.dis.length, s.dos.length,
   s.sins.length, s.reps.length]

/-- The block is whole: canonical memory, every register map with one entry per address, every unit present. -/
structure Whole (s : Machine.State) : Prop where
  /-- Memory is canonical. -/
  mem : MemoryOk s
  /-- Live registers that differ from reset, once each. -/
  regs : MapOk s.regs
  /-- Values in force that differ from reset, once each. -/
  cfg : MapOk s.cfg
  /-- Words of the stage, once each. -/
  stg : MapOk s.stg
  /-- Channel records, once each. -/
  chans : MapOk s.chans
  /-- 16 axes, 8 drives, 128 contexts, and so on (Table 2-1). -/
  units : unitCounts s = [16, 8, 128, 8, 16, 32, 32, 4, 32, 8, 4, 2, 64, 2, 16, 8, 8, 2]

/-- Both switches of leg l are off and none is due to turn on. -/
def LegIsOff (s : Machine.State) (l : Nat) : Prop := (s.lg l).hsOn = false ∧ (s.lg l).lsOn = false ∧ (s.lg l).incoming = none

/-- Bit i of a page's PAGE_EVENT is set (R10, R42). -/
def Flagged (s : Machine.State) (p i : Nat) : Prop := Machine.bt (s.lv p Machine.pageEvent) i = true

/-- The parts of State, one for each field. -/
inductive Part where
  | regs
  | cfg
  | stg
  | mem
  | eccBad
  | power
  | time
  | stage
  | host
  | mgr
  | axes
  | drives
  | ctxs
  | fbs
  | mots
  | cmps
  | latches
  | groups
  | legs
  | lanes
  | ropes
  | shares
  | rescue
  | chop
  | pdie
  | dma
  | dmaLast
  | dmaHalted
  | cans
  | dis
  | dos
  | field
  | sins
  | safety
  | trace
  | hk
  | log
  | chans
  | timers
  | sched
  | precheck
  | samples
  | reps
  | free
  | pending
  deriving DecidableEq, Repr

/-- A part is the same in two states. -/
def Part.same (f : Part) (s t : Machine.State) : Prop :=
  match f with
  | .regs => t.regs = s.regs
  | .cfg => t.cfg = s.cfg
  | .stg => t.stg = s.stg
  | .mem => t.mem = s.mem
  | .eccBad => t.eccBad = s.eccBad
  | .power => t.power = s.power
  | .time => t.time = s.time
  | .stage => t.stage = s.stage
  | .host => t.host = s.host
  | .mgr => t.mgr = s.mgr
  | .axes => t.axes = s.axes
  | .drives => t.drives = s.drives
  | .ctxs => t.ctxs = s.ctxs
  | .fbs => t.fbs = s.fbs
  | .mots => t.mots = s.mots
  | .cmps => t.cmps = s.cmps
  | .latches => t.latches = s.latches
  | .groups => t.groups = s.groups
  | .legs => t.legs = s.legs
  | .lanes => t.lanes = s.lanes
  | .ropes => t.ropes = s.ropes
  | .shares => t.shares = s.shares
  | .rescue => t.rescue = s.rescue
  | .chop => t.chop = s.chop
  | .pdie => t.pdie = s.pdie
  | .dma => t.dma = s.dma
  | .dmaLast => t.dmaLast = s.dmaLast
  | .dmaHalted => t.dmaHalted = s.dmaHalted
  | .cans => t.cans = s.cans
  | .dis => t.dis = s.dis
  | .dos => t.dos = s.dos
  | .field => t.field = s.field
  | .sins => t.sins = s.sins
  | .safety => t.safety = s.safety
  | .trace => t.trace = s.trace
  | .hk => t.hk = s.hk
  | .log => t.log = s.log
  | .chans => t.chans = s.chans
  | .timers => t.timers = s.timers
  | .sched => t.sched = s.sched
  | .precheck => t.precheck = s.precheck
  | .samples => t.samples = s.samples
  | .reps => t.reps = s.reps
  | .free => t.free = s.free
  | .pending => t.pending = s.pending

/-- From s to t nothing changes but the parts named. -/
def Only (fs : List Part) (s t : Machine.State) : Prop := ∀ f, f ∉ fs → f.same s t

end Sys2Proof.Safety
end

