-- ==== Sys2Proof/WellFormed.lean ====
section
/-!
DEFINITION. Which commands are well formed: what a row's operands must satisfy beyond their types. Every other command is well
formed at every value of its operands; what the device refuses (a misaligned frame, a range) is no matter of form but an effect.
-/
namespace Sys2Proof

/-- Immediate of ASHI and LSHI: -32 to 31 (Table 13-7). -/
def shiftImmOk (imm : BitVec 16) : Bool := decide (imm.toNat ≤ 31) || decide (65504 ≤ imm.toNat)

/-- Byte address of a whole word (R8). -/
def wordAligned (a : Addr) : Bool := decide (a.toNat % 4 = 0)

/-- Data of a CAN frame: at most 64 bytes, at most 8 without FD (Table 14-2). -/
def canDataOk (f : CanFrame) : Bool := decide (f.data.length ≤ if f.fdf then 64 else 8)

/-- Well-formed command. -/
def Instr.wellFormed (i : Instr) : Bool :=
  match i with
  | .ashi _ _ _ imm => shiftImmOk imm
  | .lshi _ _ _ imm => shiftImmOk imm
  | .stagedWrite _ addr _ => wordAligned addr
  | .pairLowRead _ addr => wordAligned addr
  | .pairLowWrite _ addr _ => wordAligned addr
  | .pairHighWrite _ addr _ => wordAligned addr
  | .laneCodeWrite _ addr _ => wordAligned addr
  | .registerWrite _ addr _ => wordAligned addr
  | .canFrameReceived _ f => canDataOk f
  | .hkRoundEnd r => decide (r.s0.length = 4) && decide (r.ch.length = 24)
  | _ => true

end Sys2Proof
end

