-- ==== Sys2Proof/Certificates/Slice0/Obligations.lean ====
section
/-!
DEFINITION. The statements for the provers. First the words they are written in: what a command does and what it leaves, and what it
means that a lane issues an instruction.
-/
namespace Sys2Proof.Claims

open Sys2Proof Sys2Proof.Machine Sys2Proof.Safety

/-- Command c at s answers a next state that has property P, and nothing changes from s to it but the parts fs. -/
def Does (c : Instr) (s : State) (fs : List Part) (P : State → Prop) : Prop := ∃ t, exec c s = .next t ∧ P t ∧ Only fs s t

/-- Command c at s answers a next state that has property P. -/
def Answers (c : Instr) (s : State) (P : State → Prop) : Prop := ∃ t, exec c s = .next t ∧ P t

/-- Lane l issues instruction i from bank bk, whose registers are k: the fabric is up, code runs within its bound and slice, and the
word at the bank's pc lies in the code range, has no uncorrectable error and is i's. -/
structure Issues (s : State) (l : LaneIx) (i : Instr) (bk : Bank) (k : BankSt) : Prop where
  /-- The fabric is up. -/
  up : s.up = true
  /-- The bank that issues, and its registers. -/
  turn : s.laneTurn l.val = some (bk, k)
  /-- The fetch is in the code range (R322). -/
  code : s.inCode l.val k.pc.toNat = true
  /-- The word is readable (R88). -/
  ecc : s.eccBad.contains (codeAddr l.val k.pc.toNat) = false
  /-- The word is i's (R334). -/
  word : decodeLaneWord l (s.wordAt (codeAddr l.val k.pc.toNat)) = some i

/-- State s after bank bk of lane n has issued one instruction that leaves registers k' in the bank and loop registers g in the lane:
the instruction counts, a branch taken before this one acts now, and `br` waits for its delay slot (R328, R330). -/
def goesOn (s : State) (n : Nat) (bk : Bank) (k k' : BankSt) (g : LoopRegs) (skip br : Option (BitVec 12)) : State :=
  let x := laneNext g k.pc k.branch skip
  { s with
    lanes := s.lanes.modify n fun y =>
      { y.setBank bk { k' with pc := x.1, branch := br, executed := k.executed + 1 } with
        loops := x.2, used := y.used + 1, sliceCount := if bk = .b then y.sliceCount + 1 else y.sliceCount }
    sched := { s.sched with executed := s.sched.executed + 1 } }

/-- The usual case: no branch, the loop registers as they are. -/
def goesBy (s : State) (n : Nat) (bk : Bank) (k k' : BankSt) : State := goesOn s n bk k k' (s.ln n).loops none none

/-- An integer clamped to 32 bits (R326). -/
def sat32 (x : Int) : Word := BitVec.ofInt 32 (max (-2 ^ 31) (min (2 ^ 31 - 1) x))
/-- Whether the clamp acts. -/
def clamps32 (x : Int) : Bool := decide (x < -2 ^ 31 ∨ 2 ^ 31 - 1 < x)
/-- An integer clamped to 72 bits (R325). -/
def sat72 (x : Int) : BitVec 72 := BitVec.ofInt 72 (max (-2 ^ 71) (min (2 ^ 71 - 1) x))
/-- Whether the clamp acts. -/
def clamps72 (x : Int) : Bool := decide (x < -2 ^ 71 ∨ 2 ^ 71 - 1 < x)

/-- A register of the executing bank, with the results landed whose last exposed slot this is (R328). -/
def withD (k : BankSt) (d : DReg) (w : Word) : BankSt := { k.age with d := k.age.d.set d.val w }
/-- The same with a sticky SAT. -/
def withDSat (k : BankSt) (d : DReg) (x : Int) : BankSt := { withD k d (sat32 x) with sat := k.sat || clamps32 x }
/-- A D register that a multiplier result reaches two slots later (Table 13-4). -/
def withDMul (k : BankSt) (d : DReg) (w : Word) (sat : Bool) : BankSt :=
  { k.age with inFlight := k.age.inFlight ++ [.d 2 d w], sat := k.sat || sat }
/-- An accumulator changed at once. -/
def withAcc (k : BankSt) (a : AccReg) (v : BitVec 72) (sat : Bool) : BankSt :=
  { k.age with acc := k.age.acc.set a.val v, sat := k.sat || sat }
/-- An accumulator that a multiplier result reaches two slots later (Table 13-4). -/
def withAccMul (k : BankSt) (a : AccReg) (x : Int) : BankSt :=
  { k.age with inFlight := k.age.inFlight ++ [.acc 2 a (sat72 x)], sat := k.sat || clamps72 x }

/-- The live registers of t are those of s, but register o of page p, which f changes. -/
def OneReg (s : State) (p o : Nat) (f : Word → Word) (t : State) : Prop :=
  ∀ q r, r < 4096 → t.lv q r = if q = p ∧ r = o then f (s.lv p o) else s.lv q r
/-- A 16-bit count in a register's lower half, saturating; the upper half stays. -/
def countUp (w : Word) : Word := nw (w.toNat / 2 ^ 16 * 2 ^ 16 + min (w.toNat % 2 ^ 16 + 1) 0xFFFF)
/-- The same in the upper half. -/
def countUpHigh (w : Word) : Word := nw (min (w.toNat / 2 ^ 16 + 1) 0xFFFF * 2 ^ 16 + w.toNat % 2 ^ 16)

/-- The entry of a row of Table 2-13 for the stage's present state: CLOSED, OPEN, PROVING, PROVED, FAILED, ARMED, Commit. -/
def stageRow (s : State) (row : List Nat) : Nat :=
  match s.stage.state with
  | .closed => row.getD 0 0
  | .opened => row.getD 1 0
  | .proving => row.getD 2 0
  | .proved => row.getD 3 0
  | .failed => row.getD 4 0
  | .armed => if s.stage.commit then row.getD 6 0 else row.getD 5 0

/-- A command of master m ends with a CMD_RESULT (Table 2-7): DONE, ACCEPTED, RESULT. -/
def Reports (m : Master) (seq : Byte) (code : Nat) (done acc : Bool) (res : Nat) (t : State) : Prop :=
  t.lv (cmdPage m) (resultOff m) = resultWord seq.toNat code done acc res

/-- A refusal of R67: no side effect but REFUSED_COUNT, CMD_REFUSED, the log entry and what the master is told. -/
def Refuses (c : Instr) (m : Master) (s : State) (P : State → Prop) : Prop :=
  Does c s [.regs, .host, .mgr, .trace, .log] fun t =>
    t.lv pgSys SYS.REFUSED_COUNT = countUp (s.lv pgSys SYS.REFUSED_COUNT) ∧ Flagged t pgSys 3 ∧ (t.mstr m).prevRefused = true ∧
      (t.mstr m).busy = (s.mstr m).busy ∧ P t

/-- From s to t a channel has counted one onset at tick `now` (R284): the K-th in the window retires it, and otherwise it is in retry until the
retry window has passed. -/
def CountsOnset (s : State) (cls idx now : Nat) (t : State) : Prop :=
  let n := ((s.chan cls idx).onsets.filter fun x => now ≤ x + countWin s.force).length + 1
  (onsetK s.force ≤ n → t.chRet cls idx = true) ∧
    (n < onsetK s.force → t.chRet cls idx = false ∧ (t.chan cls idx).retry = some (now + retryWin s.force))

/-- From s to t feedback interface n has had a fault at tick `now` (R164): its bit is set, and where the interface was running it counts an
onset. -/
def FeedbackFault (s : State) (n bit now : Nat) (t : State) : Prop :=
  bt (t.lv (pgFb n) pageFault) bit = true ∧
    ((s.fb n).state = .running → s.chRet 1 n = false → Flagged t (pgFb n) 2 ∧ CountsOnset s 1 n now t)

/-- From s to t the rescue sequence has ended in ABORTED with REASON r (R218): the brake is applied and the gates of the rescue axis are off, and
RESCUE_ABORT is active on it. -/
def RescueAborted (s : State) (r : Nat) (t : State) : Prop :=
  let a := rescueAxis s.force
  t.rescue.sq = .aborted ∧ fld (t.lv pgHoist HOIST.RESCUE_STATUS) 19 16 = r ∧ Flagged t pgHoist 14 ∧ bt (t.lv pgHoist pageFault) 12 = true ∧
    t.srcOn srcRescue a = true ∧ (t.ax a).sbc = true ∧ (t.ax a).sto = true ∧ (t.ax a).runPending = false ∧
    ∀ l ∈ axUsedLegs s.force a, LegIsOff t l

/-- From s to t the common fault bit of the field I/O has been judged (R316): FLT is what the conditions give, and its rise and fall begin and end
FIO_FAULT. -/
def FaultJudged (s t : State) : Prop :=
  t.field.flt = t.fltNow ∧ (s.field.flt = false → t.field.flt = true → t.srcOn srcFio 16 = true ∧ Flagged t pgFio 0) ∧
    (s.field.flt = true → t.field.flt = false → t.srcOn srcFio 16 = false)

/-- From s to t port p has gone bus-off (R350, R351): under AUTO it recovers by itself and its onset has the usual retry window. -/
def EntersBusOff (s : State) (p : Nat) (t : State) : Prop :=
  (t.cn p).busOff = true ∧ (t.cn p).passive = true ∧ (t.cn p).sending = none ∧ (t.cn p).recovering = !bt (canCfg s.force p) 8 ∧
    Flagged t (pgCan p) 2 ∧ bt (t.lv (pgCan p) pageFault) 0 = true ∧ t.srcOn srcBusoff 16 = true ∧
    (bt (canCfg s.force p) 8 = false → s.chRet 6 p = false → CountsOnset s 6 p s.now t)

/-- The host frame that is in arbitration on port p is the one that wins it, if one does (R347). -/
def Arbitrates (t : State) (p : Nat) : Prop := (t.cn p).sending.map (·.val) = (t.txWinner p).filter (· < 16)

/-- From s to t a Bilva message of this node joins the queue of port p, where the port may send (R349, R352). -/
def Queues (s : State) (p type sub : Nat) (data : List Byte) (t : State) : Prop :=
  bilvaEn s.force p = true → canEn s.force p = true → (s.cn p).retired = false → canMode s.force p ≠ 1 → canMode s.force p ≠ 2 →
    ∃ f, (t.cn p).bilva = (s.cn p).bilva ++ [f] ∧ bType f.f.word0 = type ∧ bNode f.f.word0 = nodeNo s.force ∧ fld f.f.word0 7 0 = sub ∧
      f.f.data = data ∧ f.fwd = false

/-- From s to t an armed STRIKE_AT has been cancelled, if there was one (R65). -/
def StrikeCancelled (s t : State) : Prop :=
  ∀ T, s.stage.due = some (.net T) → t.stage.state = .proved ∧ t.stage.due = none ∧ t.stage.tag = none ∧ Flagged t pgSys 2

/-- From s to t channel ch has loaded the descriptor that NEXT names (R379, R381): a word with an uncorrectable error is a bus error, VALID = 0 is WAIT, an
inadmissible one is written back as DESC_ERR, and any other is granted. -/
def DmaLoads (s : State) (ch : Nat) (t : State) : Prop :=
  let a := descAddr s.force ch (s.dm ch).next
  let d := s.wordsAt a 8
  let clean := ∀ k < 8, s.eccBad.contains (a + 4 * k) = false
  (t.dm ch).cur = (s.dm ch).next ∧
    (¬ clean → (t.dm ch).state = .error ∧ t.dmaHalted = true) ∧
    (clean → dValid d = false → (t.dm ch).state = .wait ∧ (t.dm ch).granted = false) ∧
    (clean → dValid d = true → descValid s.force ch d = false → (t.dm ch).state = .error ∧ Flagged t pgDma 1 ∧
      bt (t.lv pgDma pageFault) 1 = true ∧ t.wordAt (a + 24) = nw (2 * 256 + 1)) ∧
    (clean → dValid d = true → descValid s.force ch d = true → (t.dm ch).granted = true ∧ (t.dm ch).desc = some d ∧ (t.dm ch).beats = 0 ∧
      (t.dm ch).state = if s.dmaHalted then .halted else .run)

/-- From s to t a trigger has reached channel ch (R380, R388): one in ERROR ignores it, one that is busy or halted counts it, up to 255, and any other
loads its next descriptor. -/
def DmaTriggered (s : State) (ch : Nat) (t : State) : Prop :=
  let x := s.dm ch
  let busy := s.dmaHalted = true ∨ x.granted = true
  (x.state = .error → (t.dm ch).state = .error ∧ (t.dm ch).pend = x.pend) ∧
    (x.state ≠ .error → busy → x.pend < 255 → (t.dm ch).pend = x.pend + 1 ∧ (t.dm ch).state = x.state) ∧
    (x.state ≠ .error → busy → 255 ≤ x.pend → (t.dm ch).pend = x.pend ∧
      t.lv (dmaPage ch) (dmaLive ch (DMACH.ZERO_BEATS 0)) = countUpHigh (s.lv (dmaPage ch) (dmaLive ch (DMACH.ZERO_BEATS 0)))) ∧
    (x.state ≠ .error → ¬ busy → DmaLoads s ch t)

/-- A word of a memory window that the host may write (R339, R346, R435). -/
def Writable (s : State) (a : Nat) : Prop :=
  0x100000 ≤ a ∧ isMem a = true ∧ isLogWin a = false ∧ isBilvaArea a = false ∧ (isLaneCode a = true → s.codeHeld a = false)

/-- A live register whose write by master m is a plain store or clear: it has a row with access code x, is no command or action, and no half of a
pair. -/
def Plain (s : State) (m : Master) (a : Nat) (x : Acc) (r : RegRow) : Prop :=
  a < 0x100000 ∧ a % 4 = 0 ∧ (∃ p0, rowAt (pageOf a) (offOf a) = some (p0, r)) ∧ r.acc = x ∧ (pageOf a = pgMgmt ↔ m = .manager) ∧
    isPairLow (pageOf a) (offOf a) = false ∧ isPairHigh (pageOf a) (offOf a) = false ∧ s.motRefused (pageOf a) (offOf a) = false ∧
    ∀ v, (if pageOf a < 0x10 then s.actLow m (pageOf a) (offOf a) v else s.actHigh m (pageOf a) (offOf a) v) = none

/-- The bound of a piece of work that runs whole (R70, R103, R198, R214). -/
def workBound (c : Cfg) (w : Work) : Nat :=
  match w with
  | .safety _ => Config.safetyCheckBound
  | .commut a => commBound c a
  | .ctx x => ctxBound c x
  | .converter => 180
  | .code _ => 0

/-- Wherever lane l issues i, the next state is s with the bank as f leaves it, and nothing else changed. -/
def Issued (i : LaneIx → Instr) (f : BankSt → BankSt) : Prop :=
  ∀ l s bk k, Issues s l (i l) bk k → exec (i l) s = .next (goesBy s l.val bk k (f k))

/-- Wherever lane l issues i, execution goes on at t after the delay slot if c holds, and otherwise at the next instruction. -/
def BranchesIf (i : LaneIx → Instr) (t : BitVec 12) (c : BankSt → Bool) : Prop :=
  ∀ l s bk k, Issues s l (i l) bk k →
    exec (i l) s = .next (goesOn s l.val bk k k.age (s.ln l.val).loops none (if c k then some t else none))

end Sys2Proof.Claims

open Sys2Proof Sys2Proof.Machine Sys2Proof.Safety Sys2Proof.Claims

/-! The block as a whole. -/

/-- A step takes the command at the front of the queue and executes it on the state with the queue's rest. -/
def Obligations.StepRunsTheFrontCommand : Prop :=
  ∀ (c : Instr) (rest : List Instr) (s : State),
    step { s with pending := c :: rest } = exec c { s with pending := rest }

/-- On an empty queue one tick of 4 ns passes while the timebase runs, and nothing else changes (the model's choice, log entry 2). -/
def Obligations.IdleStepIsOneTick : Prop :=
  ∀ s : State, s.pending = [] →
    ∃ t, step s = .next t ∧ t.time.tick = (if s.time.ticking then s.time.tick + 1 else s.time.tick) ∧
      t.time = { s.time with tick := t.time.tick } ∧ Only [.time] s t

/-- No command faults or is refused: in every state each answers a next state. It leaves the queue as it is, and the index of the next free
value does not fall. -/
def Obligations.EveryCommandCompletes : Prop :=
  ∀ (c : Instr) (s : State), ∃ t, exec c s = .next t ∧ t.pending = s.pending ∧ s.free ≤ t.free

/-- From every state that is whole a step gives a state that is whole: memory in its canonical form, every register map with its keys
rising, every unit present. -/
def Obligations.StepKeepsTheBlockWhole : Prop :=
  ∀ s t : State, Whole s → step s = .next t → Whole t

/-- The state without supply is whole. -/
def Obligations.ResetIsWhole : Prop := Whole State.reset

/-- What reset leaves: every live register and every value in force at its reset value, the stage closed and empty, no command waiting, the
lane registers of Table 13-1 at 0 with empty return stacks, and memory reading 0 but for the TYPE byte of a log sector. That reset is the
state without supply is the model's choice (log entry 1). -/
def Obligations.ResetValues : Prop :=
  (∀ p o, State.reset.lv p o = regReset p o ∧ State.reset.cf p o = regReset p o ∧ State.reset.cd p o = regReset p o) ∧
  State.reset.stage.state = .closed ∧ State.reset.stage.owner = none ∧ State.reset.pending = [] ∧ State.reset.power.phase = .off ∧
  State.reset.up = false ∧
  (∀ l : LaneIx, ∀ bk : Bank, let k := (State.reset.ln l.val).bank bk
    (∀ i < 16, k.dReg i = 0) ∧ (∀ i < 4, k.aReg i = 0) ∧ (∀ i < 8, k.pReg i = 0 ∧ k.mReg i = 0) ∧ k.sat = false ∧ k.stack = [] ∧
      k.commit = []) ∧
  (∀ l : LaneIx, (State.reset.ln l.val).loops = {}) ∧
  (∀ a, isLogWin a = false → State.reset.byteAt a = 0)

/-- R43, R63: the values in force change only where a strike, a takeover or an image load acts (frame boundaries, the release of a frame's
work, power-up) and where a reset or the loss of supply clears them; every other command leaves all of them.
Memory changes only by the commands that write it: lane stores and END, bus writes of a master, the DMA engine, the tracing unit, the
CAN receive window, the impression log, the scraper, takeovers, and the resets; every other command leaves every byte.
A lane instruction, whatever it meets, leaves the configuration in force, the stage's words, the masters, the DMA channels, the loop
contexts, the time and the queue. Where the lane issues it without a stop, an end or a local store it changes nothing but that lane and
the count of executed instructions. -/
def Obligations.FamilyFrames : Prop :=
  (∀ (c : Instr) (s t : State), exec c s = .next t →
     match c with
     | .frameBoundary | .samplePublish | .powerUpStepComplete _ | .vinLockout | .rstNReset | .watchdogReset | .coreSupplyLoss
     | .thermalComparatorTrip | .hkRoundEnd _ | .tapReset | .bypass | .samplePreload | .extest | .idcode | .powerOff => True
     | _ => t.cfg = s.cfg) ∧
  (∀ (c : Instr) (s t : State), exec c s = .next t →
     match c with
     | .st .. | .st2 .. | .sacst .. | .end_ .. | .loopCountExpiry .. | .canFrameReceived .. | .canTxDone .. | .dmaGo .. | .dmaStop ..
     | .dmaKick .. | .dmaResume | .dmaAutoResume | .dmaRequest .. | .dmaPeriodTrigger .. | .dmaBurst | .traceArm | .traceStop | .traceForce
     | .traceClear | .traceSample | .hostWriteFrame .. | .mgmtWrite .. | .pairLowWrite .. | .pairHighWrite .. | .laneCodeWrite ..
     | .registerWrite .. | .frameBoundary | .samplePublish | .powerUpStepComplete _ | .vinLockout | .rstNReset | .watchdogReset
     | .coreSupplyLoss | .thermalComparatorTrip | .hkRoundEnd _ | .tapReset | .bypass | .samplePreload | .extest | .idcode | .powerOff
     | .scrubStep .. | .logEntryCommit _ | .logWearCopy _ | .imageSaveDone _ => True
     | _ => ∀ a, t.byteAt a = s.byteAt a) ∧
  (∀ (i : Instr) (l : LaneIx) (f : LaneOp) (s t : State), laneTable i = some (l.val, f) → exec i s = .next t →
     Only [.mem, .eccBad, .regs, .stage, .axes, .fbs, .mots, .legs, .lanes, .cans, .dos, .safety, .trace, .log, .chans, .timers,
         .sched] s t ∧
       (∀ bk k, s.laneTurn l.val = some (bk, k) → ∀ e, Issues s l i bk k → f s l.val bk k = e → e.stop = false → e.ecc = false → e.ended = false →
         (∀ x ∈ e.stores, x.1 = true) → Only [.lanes, .sched] s t ∧ ∀ n, n ≠ l.val → t.ln n = s.ln n))

/-! Lane instructions (chapter 13). -/

/-- R327, R336: wrapping sums and differences, the logical instructions and the immediates put their result into Dd at once; SAT keeps
its value.
R327, Table 13-8: ADDS, SUBS, ABS and NEG saturate to 32 bits and set SAT when they clamp; MIN, MAX, the comparisons, SELNZ and CLS
leave SAT. CLS counts the unbroken run below bit 31 (log entry 43).
R327, Table 13-8: a shift by a count from -32 to 31, which a register count is clamped to; a negative count shifts right, ASH and
ASHI arithmetically, LSH and LSHI logically; the result wraps and SAT keeps its value. -/
def Obligations.LaneArithmetic : Prop :=
  ((∀ d a b, Issued (.add · d a b) fun k => withD k d (k.dReg a.val + k.dReg b.val)) ∧
   (∀ d a b, Issued (.sub · d a b) fun k => withD k d (k.dReg a.val - k.dReg b.val)) ∧
   (∀ d a b, Issued (.and · d a b) fun k => withD k d (k.dReg a.val &&& k.dReg b.val)) ∧
   (∀ d a b, Issued (.or · d a b) fun k => withD k d (k.dReg a.val ||| k.dReg b.val)) ∧
   (∀ d a b, Issued (.xor · d a b) fun k => withD k d (k.dReg a.val ^^^ k.dReg b.val)) ∧
   (∀ d a, Issued (.mov · d a) fun k => withD k d (k.dReg a.val)) ∧
   (∀ d a imm, Issued (.addi · d a imm) fun k => withD k d (k.dReg a.val + imm.signExtend 32)) ∧
   (∀ d imm, Issued (.movi · d imm) fun k => withD k d (imm.signExtend 32)) ∧
   (∀ d imm, Issued (.movhi · d imm) fun k => withD k d (imm ++ (k.dReg d.val).truncate 16)) ∧
   (∀ d a imm, Issued (.andi · d a imm) fun k => withD k d (k.dReg a.val &&& imm.zeroExtend 32)) ∧
   (∀ d a imm, Issued (.ori · d a imm) fun k => withD k d (k.dReg a.val ||| imm.zeroExtend 32))) ∧
  ((∀ d a b, Issued (.adds · d a b) fun k => withDSat k d ((k.dReg a.val).toInt + (k.dReg b.val).toInt)) ∧
   (∀ d a b, Issued (.subs · d a b) fun k => withDSat k d ((k.dReg a.val).toInt - (k.dReg b.val).toInt)) ∧
   (∀ d a, Issued (.abs · d a) fun k => withDSat k d ((k.dReg a.val).toInt.natAbs : Int)) ∧
   (∀ d a, Issued (.neg · d a) fun k => withDSat k d (-(k.dReg a.val).toInt)) ∧
   (∀ d a b, Issued (.min · d a b) fun k => withD k d (if (k.dReg a.val).slt (k.dReg b.val) then k.dReg a.val else k.dReg b.val)) ∧
   (∀ d a b, Issued (.max · d a b) fun k => withD k d (if (k.dReg a.val).slt (k.dReg b.val) then k.dReg b.val else k.dReg a.val)) ∧
   (∀ d a b, Issued (.slt · d a b) fun k => withD k d (if (k.dReg a.val).slt (k.dReg b.val) then 1 else 0)) ∧
   (∀ d a b, Issued (.sltu · d a b) fun k => withD k d (if (k.dReg a.val).ult (k.dReg b.val) then 1 else 0)) ∧
   (∀ d a b, Issued (.seq · d a b) fun k => withD k d (if k.dReg a.val = k.dReg b.val then 1 else 0)) ∧
   (∀ d a b c, Issued (.selnz · d a b c) fun k => withD k d (if k.dReg c.val ≠ 0 then k.dReg a.val else k.dReg b.val)) ∧
   (∀ d a, ∃ n : BankSt → Nat, Issued (.cls · d a) (fun k => withD k d (BitVec.ofNat 32 (n k))) ∧
     ∀ k, n k ≤ 31 ∧ (∀ j, 31 - n k ≤ j → j ≤ 31 → (k.dReg a.val).getLsbD j = (k.dReg a.val).getLsbD 31) ∧
       (n k < 31 → (k.dReg a.val).getLsbD (30 - n k) ≠ (k.dReg a.val).getLsbD 31))) ∧
  ((∀ d a b, Issued (.ash · d a b) fun k =>
     let n := max (-32) (min 31 (k.dReg b.val).toInt)
     withD k d (if 0 ≤ n then k.dReg a.val <<< n.toNat else (k.dReg a.val).sshiftRight (-n).toNat)) ∧
   (∀ d a b, Issued (.lsh · d a b) fun k =>
     let n := max (-32) (min 31 (k.dReg b.val).toInt)
     withD k d (if 0 ≤ n then k.dReg a.val <<< n.toNat else k.dReg a.val >>> (-n).toNat)) ∧
   (∀ d a (imm : BitVec 16), shiftImmOk imm → Issued (.ashi · d a imm) fun k =>
     withD k d (if 0 ≤ imm.toInt then k.dReg a.val <<< imm.toInt.toNat else (k.dReg a.val).sshiftRight (-imm.toInt).toNat)) ∧
   (∀ d a (imm : BitVec 16), shiftImmOk imm → Issued (.lshi · d a imm) fun k =>
     withD k d (if 0 ≤ imm.toInt then k.dReg a.val <<< imm.toInt.toNat else k.dReg a.val >>> (-imm.toInt).toNat)))

/-- R325, R328: the six multiplier instructions set, add to or subtract from an accumulator the product of two signed words, doubled for
the fractional ones; the chain takes the latest result that is still in flight; a result beyond 72 bits saturates and sets SAT; 255
full-scale fractional products do not overflow. -/
def Obligations.LaneMultiplyAccumulate : Prop :=
  (∀ acc a b, Issued (.mpy · acc a b) fun k => withAccMul k acc (2 * (k.dReg a.val).toInt * (k.dReg b.val).toInt)) ∧
  (∀ acc a b, Issued (.mac · acc a b) fun k =>
    withAccMul k acc ((k.chain acc).toInt + 2 * (k.dReg a.val).toInt * (k.dReg b.val).toInt)) ∧
  (∀ acc a b, Issued (.msu · acc a b) fun k =>
    withAccMul k acc ((k.chain acc).toInt - 2 * (k.dReg a.val).toInt * (k.dReg b.val).toInt)) ∧
  (∀ acc a b, Issued (.mpyi · acc a b) fun k => withAccMul k acc ((k.dReg a.val).toInt * (k.dReg b.val).toInt)) ∧
  (∀ acc a b, Issued (.maci · acc a b) fun k => withAccMul k acc ((k.chain acc).toInt + (k.dReg a.val).toInt * (k.dReg b.val).toInt)) ∧
  (∀ acc a b, Issued (.msui · acc a b) fun k => withAccMul k acc ((k.chain acc).toInt - (k.dReg a.val).toInt * (k.dReg b.val).toInt)) ∧
  (∀ a b : Word, clamps72 (255 * (2 * a.toInt * b.toInt)) = false ∧ clamps72 (-(255 * (2 * a.toInt * b.toInt))) = false) ∧
  (∀ (k : BankSt) acc, (∀ n v, .acc n acc v ∉ k.inFlight) → k.chain acc = k.aReg acc.val) ∧
  (∀ (k : BankSt) xs n acc v, k.inFlight = xs ++ [.acc n acc v] → k.chain acc = v)

/-- R326: SAC, SACST and MPYR deliver a rounded, scaled accumulator or product, clamped to 32 bits. round() goes to the nearest integer,
halves away from zero; SAT sets when the clamp acts. SACST in the data store takes effect at once, in the crossbar through the commit
buffer. -/
def Obligations.LaneScaledResults : Prop :=
  (∀ d acc (sh : BitVec 6), Issued (.sac · d acc sh) fun k => withDSat k d (sacValue (k.aReg acc.val) sh)) ∧
  (∀ (v : BitVec 72) (sh : BitVec 6),
    let q : Rat := v.toInt * (2 : Rat) ^ sh.toInt / 2 ^ 32
    |(sacValue v sh : Rat) - q| ≤ 1 / 2 ∧ (|(sacValue v sh : Rat) - q| = 1 / 2 → |q| < |(sacValue v sh : Rat)|)) ∧
  (∀ d a b, Issued (.mpyr · d a b) fun k =>
    let x := roundDiv ((k.dReg a.val).toInt * (k.dReg b.val).toInt) (2 ^ 31)
    withDMul k d (sat32 x) (clamps32 x)) ∧
  (∀ (x : Int) (n : Nat), 0 < n →
    let q : Rat := x / n
    |(roundDiv x n : Rat) - q| ≤ 1 / 2 ∧ (|(roundDiv x n : Rat) - q| = 1 / 2 → |q| < |(roundDiv x n : Rat)|)) ∧
  (∀ a b : Word, clamps32 (roundDiv (a.toInt * b.toInt) (2 ^ 31)) = true ↔ a = 0x80000000#32 ∧ b = 0x80000000#32) ∧
  (∀ acc p f (sh : BitVec 6) l s bk k, Issues s l (.sacst l acc p false f sh) bk k →
    let a := (laneAddr k p f).1
    let x := sacValue (k.aReg acc.val) sh
    s.inData l.val a = true →
    exec (.sacst l acc p false f sh) s =
      .next (goesBy (s.putWord (dataAddr l.val a) (sat32 x)) l.val bk k
        { k.age with p := (laneAddr k p f).2.foldl (fun y z => y.set z.1 z.2) k.age.p, sat := k.sat || clamps32 x })) ∧
  (∀ acc p f (sh : BitVec 6) l s bk k, Issues s l (.sacst l acc p true f sh) bk k →
    let a := (laneAddr k p f).1
    let x := sacValue (k.aReg acc.val) sh
    0x50000 ≤ a → a < 0x60000 →
    exec (.sacst l acc p true f sh) s =
      .next (goesBy s l.val bk k
        { k.age with
          p := (laneAddr k p f).2.foldl (fun y z => y.set z.1 z.2) k.age.p
          sat := k.sat || clamps32 x
          commit := k.commit.filter (fun y => y.1.toNat != a) ++ [(BitVec.ofNat 20 a, sat32 x)] }))

/-- R336, Table 13-9: what the accumulator functions write, at once; ADDA, SUBA, ADDAD, SUBAD and ASHA clamp to 72 bits and SATA to 64,
and each sets SAT when it clamps; MUL is timed as a multiplier result.
R332, R335, Tables 13-2 and 13-5: pointers, modifiers, the loop registers in D registers, LSR and NOP.
R328, Table 13-4: a load's result is in its register from the second instruction after it on, a multiplier's from the third. -/
def Obligations.LaneRegisters : Prop :=
  ((∀ acc a b, Issued (.mova · acc a b) fun k => withAcc k acc ((k.dReg a.val ++ k.dReg b.val).signExtend 72) false) ∧
   (∀ acc accb, Issued (.adda · acc accb) fun k =>
     let x := (k.aReg acc.val).toInt + (k.aReg accb.val).toInt
     withAcc k acc (sat72 x) (clamps72 x)) ∧
   (∀ acc accb, Issued (.suba · acc accb) fun k =>
     let x := (k.aReg acc.val).toInt - (k.aReg accb.val).toInt
     withAcc k acc (sat72 x) (clamps72 x)) ∧
   (∀ acc (sh : BitVec 6), Issued (.asha · acc sh) fun k =>
     let x := if 0 ≤ sh.toInt then (k.aReg acc.val).toInt * 2 ^ sh.toInt.toNat else (k.aReg acc.val).toInt / 2 ^ (-sh.toInt).toNat
     withAcc k acc (sat72 x) (clamps72 x)) ∧
   (∀ acc, Issued (.clra · acc) fun k => withAcc k acc 0 false) ∧
   (∀ acc a b, Issued (.addad · acc a b) fun k =>
     let x := (k.aReg acc.val).toInt + (k.dReg a.val ++ k.dReg b.val).toInt
     withAcc k acc (sat72 x) (clamps72 x)) ∧
   (∀ acc a b, Issued (.subad · acc a b) fun k =>
     let x := (k.aReg acc.val).toInt - (k.dReg a.val ++ k.dReg b.val).toInt
     withAcc k acc (sat72 x) (clamps72 x)) ∧
   (∀ d acc, Issued (.rdl · d acc) fun k => withD k d ((k.aReg acc.val).truncate 32)) ∧
   (∀ d acc, Issued (.rdh · d acc) fun k => withD k d ((k.aReg acc.val >>> 32).truncate 32)) ∧
   (∀ d acc, Issued (.rdg · d acc) fun k => withD k d (((k.aReg acc.val).sshiftRight 64).truncate 32)) ∧
   (∀ acc, Issued (.sata · acc) fun k =>
     let x := (k.aReg acc.val).toInt
     withAcc k acc (BitVec.ofInt 72 (max (-2 ^ 63) (min (2 ^ 63 - 1) x))) (decide (x < -2 ^ 63 ∨ 2 ^ 63 - 1 < x))) ∧
   (∀ d a b, Issued (.mul · d a b) fun k => withDMul k d (k.dReg a.val * k.dReg b.val) false)) ∧
  (Issued .nop (fun k => k.age) ∧
   (∀ p imm, Issued (.movp · p imm) fun k => { k.age with p := k.age.p.set p.val imm }) ∧
   (∀ m imm, Issued (.movm · m imm) fun k => { k.age with m := k.age.m.set m.val imm }) ∧
   (∀ p a, Issued (.pregSetP · p a) fun k => { k.age with p := k.age.p.set p.val ((k.dReg a.val).truncate 20) }) ∧
   (∀ p d, Issued (.pregGetP · p d) fun k => withD k d ((k.pReg p.val).zeroExtend 32)) ∧
   (∀ p m, Issued (.pregAddM · p m) fun k => { k.age with p := k.age.p.set p.val (k.pReg p.val + (k.mReg m.val).signExtend 20) }) ∧
   (∀ m a, Issued (.pregSetM · m a) fun k => { k.age with m := k.age.m.set m.val ((k.dReg a.val).truncate 16) }) ∧
   (∀ m d, Issued (.pregGetM · m d) fun k => withD k d ((k.mReg m.val).signExtend 32)) ∧
   Issued .clrsat (fun k => { k.age with sat := false }) ∧
   (∀ (d : DReg) l s bk k, Issues s l (.savel l d) bk k → d.val ≤ 13 →
     let g := (s.ln l.val).loops
     exec (.savel l d) s =
       .next (goesBy s l.val bk k
         { k.age with
           d := ((k.age.d.set d.val (g.lc1 ++ g.lc0)).set (d.val + 1) ((g.le0.zeroExtend 16) ++ (g.ls0.zeroExtend 16))).set (d.val + 2)
             ((g.le1.zeroExtend 16) ++ (g.ls1.zeroExtend 16)) })) ∧
   (∀ (d : DReg) l s bk k, Issues s l (.restl l d) bk k → d.val ≤ 13 →
     let w := fun i => k.dReg (d.val + i)
     exec (.restl l d) s =
       .next (goesOn s l.val bk k k.age
         { lc0 := (w 0).truncate 16, lc1 := (w 0 >>> 16).truncate 16, ls0 := (w 1).truncate 12, le0 := (w 1 >>> 16).truncate 12,
           ls1 := (w 2).truncate 12, le1 := (w 2 >>> 16).truncate 12 } none none)) ∧
   (∀ (d : DReg) l s bk k, Issues s l (.sysReadLsr l d) bk k →
     ∃ w : Word, exec (.sysReadLsr l d) s = .next (goesBy s l.val bk k (withD k d w)) ∧
       w.getLsbD 9 = decide ((s.ln l.val).loops.lc1 ≠ 0) ∧ w.getLsbD 8 = decide ((s.ln l.val).loops.lc0 ≠ 0) ∧
       (w >>> 4).truncate 2 = (match bk with
         | .f => 0#2
         | .u => 1#2
         | .b => 2#2) ∧ w.getLsbD 0 = k.sat ∧ w &&& 0xFFFFFCCE#32 = 0)) ∧
  ((∀ (k : BankSt) r v, k.inFlight = [.d 1 r v] → k.age.d = k.d.set r.val v ∧ k.age.inFlight = [] ∧ k.age.acc = k.acc) ∧
   (∀ (k : BankSt) r v, k.inFlight = [.d 2 r v] → k.age.d = k.d ∧ k.age.inFlight = [.d 1 r v] ∧ k.age.acc = k.acc) ∧
   (∀ (k : BankSt) r v, k.inFlight = [.acc 2 r v] → k.age.acc = k.acc ∧ k.age.inFlight = [.acc 1 r v] ∧ k.age.d = k.d) ∧
   (∀ (k : BankSt) r v, k.inFlight = [.acc 1 r v] → k.age.acc = k.acc.set r.val v ∧ k.age.inFlight = [] ∧ k.age.d = k.d) ∧
   (∀ k : BankSt, k.inFlight = [] → k.age = k) ∧
   (∀ (k : BankSt), k.age.p = k.p ∧ k.age.m = k.m ∧ k.age.sat = k.sat ∧ k.age.stack = k.stack ∧ k.age.commit = k.commit))

/-- R321 to R324, R328: a load that Table 13-3 allows brings the word of the data store, of a register page, of plate memory or of the
commit buffer into Dd, where the second instruction after it sees it; the pointer is changed once; memory stays. LDSIG takes the
signal of its selector, a position into Dd and Dd+1.
R321, R323: a store that Table 13-3 allows writes its words in the data store at once, and every byte outside them stays; in the
crossbar it goes to the commit buffer, a second store to a buffered word replaces the first, and no byte of memory changes. -/
def Obligations.LaneMemory : Prop :=
  ((∀ d p sp f l s bk k, Issues s l (.ld l d p sp f) bk k →
     let a := (laneAddr k p f).1
     s.laneMayLoad l.val sp a = true → s.laneBad l.val sp a = false →
     exec (.ld l d p sp f) s =
       .next (goesBy s l.val bk k
         { k.age with
           p := (laneAddr k p f).2.foldl (fun y z => y.set z.1 z.2) k.age.p
           inFlight := k.age.inFlight ++ [.d 1 d (s.laneLoad l.val k sp a)] })) ∧
   (∀ d e p sp f l s bk k, Issues s l (.ld2 l d p sp f) bk k → e.val = d.val + 1 →
     let a := (laneAddr k p f).1
     let b := (a + 1) % 2 ^ 20
     s.laneMayLoad l.val sp a = true → s.laneMayLoad l.val sp b = true → s.laneBad l.val sp a = false → s.laneBad l.val sp b = false →
     exec (.ld2 l d p sp f) s =
       .next (goesBy s l.val bk k
         { k.age with
           p := (laneAddr k p f).2.foldl (fun y z => y.set z.1 z.2) k.age.p
           inFlight := k.age.inFlight ++ [.d 1 d (s.laneLoad l.val k sp a), .d 1 e (s.laneLoad l.val k sp b)] })) ∧
   (∀ d (sel : BitVec 16) l s bk k, Issues s l (.ldsig l d sel) bk k → selPos sel.toNat = false →
     exec (.ldsig l d sel) s =
       .next (goesBy s l.val bk k { k.age with inFlight := k.age.inFlight ++ [.d 1 d (BitVec.ofInt 32 (s.signal sel.toNat))] })) ∧
   (∀ d e (sel : BitVec 16) l s bk k, Issues s l (.ldsig l d sel) bk k → selPos sel.toNat = true → e.val = d.val + 1 →
     exec (.ldsig l d sel) s =
       .next (goesBy s l.val bk k
         { k.age with
           inFlight := k.age.inFlight ++ [.d 1 d (BitVec.ofInt 32 (s.signal sel.toNat)), .d 1 e (BitVec.ofInt 32 (s.signal sel.toNat / 2 ^ 32))] })) ∧
   (∀ (s : State) n k a w, (BitVec.ofNat 20 a, w) ∈ k.commit → (∀ x ∈ k.commit, x.1.toNat = a → x.2 = w) → a < 2 ^ 20 →
     s.laneLoad n k true a = w) ∧
   (∀ (s : State) n k a, (∀ x ∈ k.commit, x.1.toNat ≠ a) → 0x40000 ≤ a → s.eccBad.contains (4 * a) = false →
     s.laneLoad n k true a = s.wordAt (4 * a)) ∧
   (∀ (s : State) n k a, s.laneLoad n k false a = s.wordAt (dataAddr n a))) ∧
  ((∀ d p f l s bk k, Issues s l (.st l d p false f) bk k →
     let a := (laneAddr k p f).1
     s.inData l.val a = true →
     exec (.st l d p false f) s =
       .next (goesBy (s.putWord (dataAddr l.val a) (k.dReg d.val)) l.val bk k
         { k.age with p := (laneAddr k p f).2.foldl (fun y z => y.set z.1 z.2) k.age.p })) ∧
   (∀ d p f l s bk k, Issues s l (.st l d p true f) bk k →
     let a := (laneAddr k p f).1
     0x50000 ≤ a → a < 0x60000 →
     exec (.st l d p true f) s =
       .next (goesBy s l.val bk k
         { k.age with
           p := (laneAddr k p f).2.foldl (fun y z => y.set z.1 z.2) k.age.p
           commit := k.commit.filter (fun x => x.1.toNat != a) ++ [(BitVec.ofNat 20 a, k.dReg d.val)] })) ∧
   (∀ d p f l s bk k, Issues s l (.st2 l d p false f) bk k → d.val < 15 →
     let a := (laneAddr k p f).1
     let b := (a + 1) % 2 ^ 20
     s.inData l.val a = true → s.inData l.val b = true →
     exec (.st2 l d p false f) s =
       .next (goesBy ((s.putWord (dataAddr l.val a) (k.dReg d.val)).putWord (dataAddr l.val b) (k.dReg (d.val + 1))) l.val bk k
         { k.age with p := (laneAddr k p f).2.foldl (fun y z => y.set z.1 z.2) k.age.p })) ∧
   (∀ d p f l s bk k, Issues s l (.st2 l d p true f) bk k → d.val < 15 →
     let a := (laneAddr k p f).1
     let b := a + 1
     0x50000 ≤ a → b < 0x60000 →
     exec (.st2 l d p true f) s =
       .next (goesBy s l.val bk k
         { k.age with
           p := (laneAddr k p f).2.foldl (fun y z => y.set z.1 z.2) k.age.p
           commit := (k.commit.filter (fun x => x.1.toNat != a) ++ [(BitVec.ofNat 20 a, k.dReg d.val)]).filter (fun x => x.1.toNat != b) ++
             [(BitVec.ofNat 20 b, k.dReg (d.val + 1))] })) ∧
   (∀ (s : State) n bk k k' a w x, MemoryOk s → (x < dataAddr n a ∨ dataAddr n a + 4 ≤ x) →
     (goesBy (s.putWord (dataAddr n a) w) n bk k k').byteAt x = s.byteAt x) ∧
   (∀ (s : State) n bk k k' a v b w x, MemoryOk s → (x < dataAddr n a ∨ dataAddr n a + 4 ≤ x) → (x < dataAddr n b ∨ dataAddr n b + 4 ≤ x) →
     (goesBy ((s.putWord (dataAddr n a) v).putWord (dataAddr n b) w) n bk k k').byteAt x = s.byteAt x) ∧
   (∀ (s : State) n bk k k' x, (goesBy s n bk k k').byteAt x = s.byteAt x))

/-- R328, Table 13-7: branches act after their delay slot; CALL pushes the index of the instruction after the delay slot and RET takes
it; a conditional branch tests Da as a signed number.
R322: an access that Table 13-3 forbids, a RET with an empty return stack, a CALL with a full one, and a register number past D15
stop the activation under R75 (the last by inference, log entry 121); the access has no effect on memory.
R323, R72: END applies the commit buffer to plate memory, word by word in order, empties it and lets every result in flight land; the
lane is free, or goes on with what was preempted, and the frame-synchronous task is no longer ready. -/
def Obligations.LaneControl : Prop :=
  ((∀ t, BranchesIf (.b · t) t fun _ => true) ∧
   (∀ a t, BranchesIf (.beqz · a t) t fun k => decide (k.dReg a.val = 0)) ∧
   (∀ a t, BranchesIf (.bnez · a t) t fun k => decide (k.dReg a.val ≠ 0)) ∧
   (∀ a t, BranchesIf (.bltz · a t) t fun k => decide ((k.dReg a.val).toInt < 0)) ∧
   (∀ a t, BranchesIf (.bgez · a t) t fun k => decide ((k.dReg a.val).toInt ≥ 0)) ∧
   (∀ a t, BranchesIf (.bgtz · a t) t fun k => decide ((k.dReg a.val).toInt > 0)) ∧
   (∀ a t, BranchesIf (.blez · a t) t fun k => decide ((k.dReg a.val).toInt ≤ 0)) ∧
   (∀ t l s bk k, Issues s l (.call l t) bk k → k.stack.length < 4 →
     exec (.call l t) s = .next (goesOn s l.val bk k { k.age with stack := (k.pc + 2) :: k.stack } (s.ln l.val).loops none (some t))) ∧
   (∀ t r l s bk k, Issues s l (.ret l) bk k → k.stack = t :: r →
     exec (.ret l) s = .next (goesOn s l.val bk k { k.age with stack := r } (s.ln l.val).loops none (some t))) ∧
   (∀ (g : LoopRegs) pc t skip, laneNext g pc (some t) skip = (t, g)) ∧
   (∀ (g : LoopRegs) pc, pc ≠ g.le0 → pc ≠ g.le1 → laneNext g pc none none = (pc + 1, g))) ∧
  ((∀ d p sp f l s bk k, Issues s l (.ld l d p sp f) bk k → s.laneMayLoad l.val sp (laneAddr k p f).1 = false →
     exec (.ld l d p sp f) s = .next (s.laneStop l.val bk)) ∧
   (∀ d p sp f l s bk k, Issues s l (.ld2 l d p sp f) bk k →
     d.val = 15 ∨ s.laneMayLoad l.val sp (laneAddr k p f).1 = false ∨ s.laneMayLoad l.val sp (((laneAddr k p f).1 + 1) % 2 ^ 20) = false →
     exec (.ld2 l d p sp f) s = .next (s.laneStop l.val bk)) ∧
   (∀ d p sp f l s bk k, Issues s l (.st l d p sp f) bk k → s.laneMayStore l.val sp ((laneAddr k p f).1 % 2 ^ 20) = false →
     exec (.st l d p sp f) s = .next (s.laneStop l.val bk)) ∧
   (∀ d p sp f l s bk k, Issues s l (.st2 l d p sp f) bk k →
     d.val = 15 ∨ s.laneMayStore l.val sp ((laneAddr k p f).1 % 2 ^ 20) = false ∨
       s.laneMayStore l.val sp (((laneAddr k p f).1 + 1) % 2 ^ 20) = false →
     exec (.st2 l d p sp f) s = .next (s.laneStop l.val bk)) ∧
   (∀ acc p sp f sh l s bk k, Issues s l (.sacst l acc p sp f sh) bk k → s.laneMayStore l.val sp ((laneAddr k p f).1 % 2 ^ 20) = false →
     exec (.sacst l acc p sp f sh) s = .next (s.laneStop l.val bk)) ∧
   (∀ l s bk k, Issues s l (.ret l) bk k → k.stack = [] → exec (.ret l) s = .next (s.laneStop l.val bk)) ∧
   (∀ t l s bk k, Issues s l (.call l t) bk k → 4 ≤ k.stack.length → exec (.call l t) s = .next (s.laneStop l.val bk)) ∧
   (∀ (s : State) n bk, (s.laneStop n bk).mem = s.mem ∧ (s.laneStop n bk).eccBad = s.eccBad)) ∧
  ((∀ l s bk k, Issues s l (.end_ l) bk k → l.val < s.lanes.length →
     Does (.end_ l) s [.mem, .eccBad, .lanes, .sched] fun t =>
       t.mem = (forL k.commit (fun x s => s.putWord (4 * x.1.toNat) x.2) s).mem ∧
       (t.ln l.val).running = (s.ln l.val).under ∧ (t.ln l.val).under = none ∧
       ((t.ln l.val).bank bk).commit = [] ∧ ((t.ln l.val).bank bk).slot = none ∧ ((t.ln l.val).bank bk).inFlight = [] ∧
       (bk = .f → ∀ w ∈ (t.ln l.val).ready, ∀ i, k.slot = some i → w ≠ .code i.val)) ∧
   (∀ l s bk k x, Issues s l (.end_ l) bk k → MemoryOk s → (∀ y ∈ k.commit, x < 4 * y.1.toNat ∨ 4 * y.1.toNat + 4 ≤ x) →
     Answers (.end_ l) s fun t => t.byteAt x = s.byteAt x))

/-- R330: LOOPI and LOOPR set LS, LE and LC of their level, and a count of 0 skips the body. After the instruction at LE the lane takes
one from LC and goes on at LS, or after LE once LC is 0, which is LOOP_COUNT_EXPIRY. -/
def Obligations.LaneLoops : Prop :=
  (∀ lvl (len : BitVec 10) (count : BitVec 15) l s bk k, Issues s l (.loopi l lvl len count) bk k →
    let g := (s.ln l.val).loops
    let first := k.pc + 1
    let last := k.pc + (len.zeroExtend 12 + 1)
    let g' := if lvl then { g with ls1 := first, le1 := last, lc1 := count.zeroExtend 16 }
      else { g with ls0 := first, le0 := last, lc0 := count.zeroExtend 16 }
    exec (.loopi l lvl len count) s = .next (goesOn s l.val bk k k.age g' (if count = 0 then some (last + 1) else none) none)) ∧
  (∀ lvl (len : BitVec 10) a (mx : BitVec 11) l s bk k, Issues s l (.loopr l lvl len a mx) bk k →
    let g := (s.ln l.val).loops
    let first := k.pc + 1
    let last := k.pc + (len.zeroExtend 12 + 1)
    let count : Int := min (max (k.dReg a.val).toInt 0) mx.toNat
    let n := BitVec.ofInt 16 count
    let g' := if lvl then { g with ls1 := first, le1 := last, lc1 := n } else { g with ls0 := first, le0 := last, lc0 := n }
    exec (.loopr l lvl len a mx) s = .next (goesOn s l.val bk k k.age g' (if count = 0 then some (last + 1) else none) none)) ∧
  (∀ (g : LoopRegs) pc, pc = g.le1 → g.lc1 ≠ 0 →
    laneNext g pc none none = (if g.lc1 = 1 then pc + 1 else g.ls1, { g with lc1 := g.lc1 - 1 })) ∧
  (∀ (g : LoopRegs) pc, pc = g.le0 → g.lc0 ≠ 0 → pc ≠ g.le1 ∨ g.lc1 = 0 →
    laneNext g pc none none = (if g.lc0 = 1 then pc + 1 else g.ls0, { g with lc0 := g.lc0 - 1 })) ∧
  (∀ l lvl s bk k i f, Issues s l i bk k → laneTable i = some (l.val, f) →
    k.pc = (if lvl then (s.ln l.val).loops.le1 else (s.ln l.val).loops.le0) →
    (if lvl then (s.ln l.val).loops.lc1 else (s.ln l.val).loops.lc0) = 1 → k.branch = none →
    exec (.loopCountExpiry l lvl) s = exec i s ∧
      ∀ e, f s l.val bk k = e → e.stop = false → e.ecc = false → e.ended = false → e.loops = none → e.skip = none →
        (lvl = false → (s.ln l.val).loops.le1 ≠ k.pc ∨ (s.ln l.val).loops.lc1 = 0) → l.val < s.lanes.length →
        Answers (.loopCountExpiry l lvl) s fun t =>
          ((t.ln l.val).bank bk).pc = k.pc + 1 ∧ (if lvl then (t.ln l.val).loops.lc1 else (t.ln l.val).loops.lc0) = 0)

/-- R334 to R336: the words of the lane instructions lose no operand: what a lane reads back from the word of a well-formed instruction is
that instruction. -/
def Obligations.LaneWordsRoundTrip : Prop :=
  ∀ (l : LaneIx) (i : Instr) (w : Word) f, i.wellFormed = true → laneTable i = some (l.val, f) → encodeLane i = some w →
    decodeLaneWord l w = some i

/-- R334 to R336: a few words written out from Tables 13-6 to 13-9, and the instruction that each is. -/
def Obligations.LaneWordsAreRead : Prop :=
  decodeLaneWord 3 0x00000000#32 = some (.nop 3) ∧
  decodeLaneWord 0 (0b000000_0001_0010_0000_1010_1000_000001#32) = none ∧
  decodeLaneWord 0 (0b000000_0101_0010_0011_0000_0000_000001#32) = some (.add 0 5 2 3) ∧
  decodeLaneWord 1 (0b000001_0001_0010_00_1111111111111111#32) = some (.addi 1 1 2 (-1)) ∧
  decodeLaneWord 2 (0b001000_0100_011_1_0_101_00000000000000#32) = some (.ld 2 4 3 true (.post 5)) ∧
  decodeLaneWord 2 (0b001001_0100_011_0_1_0000000_1111111110#32) = some (.st 2 4 3 false (.offs (-2))) ∧
  decodeLaneWord 7 (0b010001_10_00_0001_0010_000000_00000000#32) = some (.mac 7 2 1 2) ∧
  decodeLaneWord 7 (0b010111_01_00_0000_0000_100000_00_000100#32) = some (.asha 7 1 (-32)) ∧
  decodeLaneWord 4 (0b100011_1111_0000000000_000000000111#32) = some (.beqz 4 15 7) ∧
  decodeLaneWord 4 (0b101010_1_0000000111_000000000000101#32) = some (.loopi 4 true 7 5) ∧
  decodeLaneWord 5 (0b110010_110_0000_010_0000000000_000011#32) = some (.pregAddM 5 6 2) ∧
  decodeLaneWord 6 (0b111010_0000_0000000000000000_000001#32) = some (.end_ 6)

/-! Supply, power-up, resets, test access port, timebase (chapters 1 and 19). -/

/-- R444 to R446, R448, R422: what the supplies do. POWER_ON brings the always-on domain out of reset at step 1; VIN rising is noted; VIO may
come and go; 100 ms at step 5 without VIO the device goes on with PERS = 0, AUTOLD = 0 and NO_VIO. Nothing else changes.
R445, R447, R448, R450, Table 19-1: what the completion of each step leaves. Step 2 waits for VIN and step 5 for VIO; at step 3 the PLL
locks, the tick starts at 0 on the first lock and the first boundary is the first multiple of 12 500 ticks not before it; at step 6 a
failed check stops the sequence, and otherwise memory reads 0 outside the log; step 9 is FABRIC_UP. -/
def Obligations.PowerUp : Prop :=
  ((∀ byVin madr s, s.power.phase = .off →
     exec (.powerOn byVin madr) s =
       .next { s with power := { s.power with phase := .step 1, madr := madr, source := 0, vinOk := byVin } }) ∧
   (∀ s, s.power.phase ≠ .off → exec .vinRising s = .next { s with power := { s.power with vinOk := true } }) ∧
   (∀ s, exec .vioLoss s = .next { s with power := { s.power with vio := false } }) ∧
   (∀ s, exec .vioReturn s = .next { s with power := { s.power with vio := true } }) ∧
   (∀ s, s.power.phase = .step 5 → s.power.vio = false →
     exec .vioWaitTimeout s =
       .next { s with power := { s.power with pers := 0, autold := false, noVio := true, phase := .step 6 } })) ∧
  ((∀ i s, s.power.phase = .step 1 → exec (.powerUpStepComplete i) s = .next { s with power := { s.power with phase := .step 2 } }) ∧
   (∀ i s, s.power.phase = .step 2 ∨ s.power.phase = .coreLost → s.power.vinOk = true →
     exec (.powerUpStepComplete i) s = .next { s with power := { s.power with phase := .step 3 } }) ∧
   (∀ i s, s.power.phase = .step 2 ∨ s.power.phase = .coreLost → s.power.vinOk = false → exec (.powerUpStepComplete i) s = .next s) ∧
   (∀ i s, s.power.phase = .step 3 → Does (.powerUpStepComplete i) s [.power, .time] fun t =>
     t.power.phase = .step 4 ∧ t.time.ticking = true ∧ t.time.pllLock = true ∧ t.time.refOk = true ∧ t.time.holdover = false ∧
       t.time.tick = (if s.power.locked then s.time.tick else 0) ∧
       ∃ b, t.time.b0 = some b ∧ b % 12500 = 0 ∧ t.time.tick ≤ b ∧ b < t.time.tick + 12500) ∧
   (∀ i s, s.power.phase = .step 4 → Does (.powerUpStepComplete i) s [.power, .time, .pdie] fun t =>
     t.power.phase = .step 5 ∧ t.time = { s.time with plinkLock := true } ∧ t.pdie.delay = i.delay) ∧
   (∀ i s, s.power.phase = .step 5 → i.vio = true ∨ s.power.vio = true →
     exec (.powerUpStepComplete i) s =
       .next { s with power := { s.power with pers := i.pers, autold := i.autold, noVio := false, vio := true, phase := .step 6 } }) ∧
   (∀ i s, s.power.phase = .step 5 → i.vio = false → s.power.vio = false → exec (.powerUpStepComplete i) s = .next s) ∧
   (∀ i s, s.power.phase = .step 6 → i.checksOk = true → Answers (.powerUpStepComplete i) s fun t =>
     t.power.phase = .step 7 ∧ t.eccBad = [] ∧ (∀ a, isLogWin a = false → t.byteAt a = 0) ∧
       (i.laneFail = 0 → Only [.mem, .eccBad, .power] s t)) ∧
   (∀ i s, s.power.phase = .step 6 → i.checksOk = false → Answers (.powerUpStepComplete i) s fun t => t.power.phase = .stopped) ∧
   (∀ i s, s.power.phase = .step 7 → Answers (.powerUpStepComplete i) s fun t => t.power.phase = .step 8) ∧
   (∀ i s, s.power.phase = .step 8 → Answers (.powerUpStepComplete i) s fun t =>
     (t.power.phase = .up ∨ t.power.phase = .step 9 ∧ t.stage.state = .armed) ∧
       (s.power.autold = false → s.power.pers = 0 → s.power.config = 0 → t.power.phase = .up)) ∧
   (∀ i s, s.power.phase = .step 9 → Answers (.powerUpStepComplete i) s fun t =>
     t.up = true ∧ t.power.removal = decide (t.power.tap = .extest)))

/-- R35, R420, R446, R459, Table 19-4: a reset of the core domain, by whichever event, restarts power-up at its step with its source, drives
the removal input, clears the stage, the axes, the legs, the lanes, the deadlines and every register but those of MGMT and NVLOG, and
keeps the tick, the image of MGMT, the impression log and the commands that wait. A latched thermal shutdown holds it.
R431, R36, Table 18-3 and Table 19-4: the thermal comparator latches the shutdown and holds the core domain in reset; the removal of all
supply leaves only the impression log, the level of VIO and the commands that wait. -/
def Obligations.ResetsAndShutdown : Prop :=
  ((∀ c source phase, (c = Instr.rstNReset ∧ source = (fun _ : State => 2) ∧ phase = fun _ : State => Phase.step 2) ∨
       (c = Instr.watchdogReset ∧ source = (fun _ => 3) ∧ phase = fun _ => Phase.step 2) ∨
       (c = Instr.vinLockout ∧ source = (fun _ => 1) ∧ phase = fun _ => Phase.step 2) ∨
       (c = Instr.coreSupplyLoss ∧ source = (fun s : State => s.power.source) ∧ phase = fun _ => Phase.coreLost) →
     ∀ s : State, s.power.phase ≠ .off → s.power.thermLatch = false →
       (c = .watchdogReset → s.supervised = true) → (c = .vinLockout → s.power.vinOk = true) → (c = .coreSupplyLoss → s.coreAlive = true) →
       Answers c s fun t =>
         t.power.phase = phase s ∧ t.power.source = source s ∧ t.power.removal = true ∧ t.up = false ∧ (c = .vinLockout → t.power.vinOk = false) ∧
           t.time.tick = s.time.tick ∧ t.stg = [] ∧ t.stage = State.reset.stage ∧ t.axes = State.reset.axes ∧ t.legs = State.reset.legs ∧
           t.lanes = State.reset.lanes ∧ t.timers = [] ∧ t.cfg = s.cfg.filter (fun x => pageOf x.1 = pgMgmt) ∧
           (∀ p o, o < 4096 → p ≠ pgMgmt → p ≠ pgNvlog → t.lv p o = regReset p o) ∧
           (∀ a, t.byteAt a = if isLogWin a then memByte (s.mem.filter fun x => isLogWin x.1) a else 0) ∧ t.pending = s.pending) ∧
   (∀ c, c = Instr.rstNReset ∨ c = Instr.watchdogReset → ∀ s : State, s.power.thermLatch = true → exec c s = .next s)) ∧
  ((∀ s : State, s.power.phase ≠ .off → s.power.thermLatch = false → Answers .thermalComparatorTrip s fun t =>
     t.power.phase = .latched ∧ t.power.thermLatch = true ∧ t.power.removal = true ∧ t.hk.level = .shutdown ∧
       t.axes = State.reset.axes ∧ t.legs = State.reset.legs ∧ t.lanes = State.reset.lanes ∧ t.stage = State.reset.stage ∧
       t.time.tick = s.time.tick) ∧
   (∀ s : State, s.power.thermLatch = true → exec .thermalComparatorTrip s = .next s) ∧
   (∀ s : State, Answers .powerOff s fun t =>
     t.power.phase = .off ∧ t.power.thermLatch = false ∧ t.power.vio = s.power.vio ∧ t.regs = [] ∧ t.cfg = [] ∧ t.stg = [] ∧
       t.axes = State.reset.axes ∧ t.legs = State.reset.legs ∧ t.lanes = State.reset.lanes ∧ t.time = State.reset.time ∧ t.timers = [] ∧
       t.log.head = s.log.head ∧ t.log.slot = s.log.slot ∧ t.log.image = s.log.image ∧ t.pending = s.pending ∧
       (∀ a, isLogWin a = false → t.byteAt a = 0)))

/-- R477: the test access port. IDCODE shifts out 0x273007AB and BYPASS 0; SAMPLE/PRELOAD and EXTEST scan balls whose levels are free (log
entry 10); EXTEST drives the removal input and turns the internal legs off; leaving EXTEST resets the core domain with SOURCE = RST_N.
R15: the loss of the reference puts the PLL in holdover, turns every leg off and raises TIME_REF_LOST; REF_OK returns before the relock,
with which PLL_LOCK and HOLDOVER change together and the source ends. -/
def Obligations.TestPortAndReference : Prop :=
  ((∀ s : State, s.power.phase ≠ .off → s.power.tap ≠ .extest →
     exec .tapReset s = .next { s with power := { s.power with tap := .idcode } } ∧
     exec .idcode s = .next { s with power := { s.power with tap := .idcode, tdo := 0x273007AB } } ∧
     exec .bypass s = .next { s with power := { s.power with tap := .bypass, tdo := 0 } } ∧
     exec .samplePreload s =
       .next { s with power := { s.power with tap := .samplePreload, tdo := Config.freeWord s.free }, free := s.free + 1 }) ∧
   (∀ s : State, s.power.phase ≠ .off → s.legs.length = 32 → Does .extest s [.power, .legs, .free] fun t =>
     t.power.tap = .extest ∧ t.power.removal = true ∧ t.power.tdo = Config.freeWord s.free ∧ t.free = s.free + 1 ∧ ∀ l < 12, LegIsOff t l) ∧
   (∀ c i, (c = Instr.tapReset ∧ i = TapInstr.idcode) ∨ (c = Instr.idcode ∧ i = TapInstr.idcode) ∨ (c = Instr.bypass ∧ i = TapInstr.bypass) ∨
       (c = Instr.samplePreload ∧ i = TapInstr.samplePreload) →
     ∀ s : State, s.power.phase ≠ .off → s.power.tap = .extest → s.power.thermLatch = false → Answers c s fun t =>
       t.power.tap = i ∧ t.power.phase = .step 2 ∧ t.power.source = 2 ∧ t.axes = State.reset.axes ∧ t.stage = State.reset.stage)) ∧
  ((∀ s : State, s.time.refOk = true → s.up = true → s.legs.length = 32 →
     Does .timeRefLost s [.regs, .time, .axes, .mots, .legs, .safety, .trace, .hk, .log, .timers] fun t =>
       t.time = { s.time with refOk := false, pllLock := false, holdover := true } ∧ (∀ l < 32, LegIsOff t l) ∧ t.srcOn srcTimeRef 16 = true) ∧
   (∀ s : State, s.time.holdover = true → exec .refReturn s = .next { s with time := { s.time with refOk := true } }) ∧
   (∀ s : State, s.time.holdover = true → s.time.refOk = true → Does .pllRelock s [.time, .safety] fun t =>
     t.time = { s.time with pllLock := true, holdover := false } ∧ t.srcOn srcTimeRef 16 = false ∧
       ∀ src a, (src, a) ≠ (srcTimeRef, 16) → t.srcOn src a = s.srcOn src a) ∧
   (∀ (s : State) d, s.due .opRamp = some d → Does .opRampEnd s [.sched, .timers, .time] fun t =>
     t.sched.point = s.sched.target ∧ t.sched.ramping = false ∧ t.due .opRamp = none ∧ t.time.tick = max s.time.tick d))

/-! Frames, tasks and self-tests (chapters 1 and 3). -/

/-- R22, R447, Table 1-1, step 1: a frame boundary opens the frame: FRAME_START, FRAME_COUNT, L_k; nothing is published or cut yet. Before
step 9 of Table 19-1 the grid runs at 12 500 ticks and nothing else happens; without a grid there is no boundary.
R19, R118, R172: the sample set is published at B_k + 32, the axes' commands are read then and the profiles pass; from the commit
cut-off on no lane has work of this frame left. -/
def Obligations.Frames : Prop :=
  ((∀ (s : State) b, s.nextBoundary = some b → s.up = false → exec .frameBoundary s = .next { s with time := { s.time with
       tick := max s.time.tick b, frameStart := b, frameCount := if s.time.b0.isSome then 0 else s.time.frameCount + 1,
       curLen := s.time.nextLen, nextLen := 12500, grid := true, b0 := none, published := false, passed := false, cut := false } }) ∧
   (∀ (s : State) b, s.nextBoundary = some b → s.up = true → Answers .frameBoundary s fun t =>
     t.time.tick = max s.time.tick b ∧ t.time.frameStart = b ∧ t.time.curLen = s.time.nextLen ∧ t.time.grid = true ∧ t.time.b0 = none ∧
       t.time.frameCount = (if s.time.b0.isSome then 0 else s.time.frameCount + 1) ∧
       t.time.published = false ∧ t.time.passed = false ∧ t.time.cut = false ∧ t.up = true ∧ t.hk.inForce = s.hk.level ∧
       t.sched.executed = 0) ∧
   (∀ s : State, s.nextBoundary = none → exec .frameBoundary s = .next s)) ∧
  ((∀ s : State, Whole s → s.up = true → s.time.grid = true → s.time.published = false → Does .samplePublish s [.regs, .cfg, .stg, .mem,
      .eccBad, .time, .stage, .axes, .drives, .mots, .legs, .lanes, .shares, .chop, .dma, .dmaHalted, .cans, .safety, .trace, .log, .timers, .sched, .free] fun t =>
     t.time = { s.time with tick := max s.time.tick (s.time.frameStart + 32), published := true } ∧
       (∀ a < 8, (t.dr a).torqueCmd = (s.lv (pgAxis a) AXIS.TORQUE_CMD).toInt ∧ (t.dr a).idCmd = (s.lv (pgAxis a) AXIS.ID_CMD).toInt ∧
         (t.dr a).tLim = (s.lv (pgAxis a) AXIS.T_LIM).toInt ∧ (t.dr a).speedLim = (s.lv (pgAxis a) AXIS.SPEED_LIM).toInt) ∧
       ∀ n < 8, (t.ln n).missed = []) ∧
   (∀ s : State, s.up = true → s.time.grid = true → s.time.passed = false → Does .profilePass s [.regs, .time, .host, .mgr, .mots,
       .cmps, .latches, .groups, .trace, .log, .timers] fun t =>
     t.time = { s.time with tick := max s.time.tick (s.time.frameStart + 32), passed := true }) ∧
   (∀ s : State, Whole s → s.up = true → s.time.published = true → s.time.cut = false → Does .commitCutoff s [.regs, .time, .stage,
       .axes, .drives, .fbs, .mots, .legs, .lanes, .cans, .dos, .safety, .trace, .log, .chans, .timers] fun t =>
     t.time = { s.time with tick := max s.time.tick (s.time.frameStart + s.time.curLen - s.time.lead), cut := true } ∧
       ∀ n < 8, (t.ln n).ready = [] ∧ (t.ln n).missed = [] ∧ (t.ln n).used = 0))

/-- R72, R73, R320, R331: what a free lane takes: the lowest urgent slot, in bank U; else the first piece of work ready, a code task in
bank F with LC0 and LC1 at 0, a system task whole within its bound; else, where a slice may start, a slice of the self-test or of a
background task.
R75, R329, R332, R333: a released urgent task takes the lane at an instruction boundary that is no delay slot, and results in flight
land in the bank that issued them; an activation that reaches TASK_BOUND is stopped uncommitted; a background slice ends with its count
at 256, the loop registers in the bank's save area.
R88, R89: a self-test pass of 48 slices counts, or is a lane fault where its result differs from the signature; one still incomplete
when its period runs out is flagged, and the next period starts. -/
def Obligations.TaskActivations : Prop :=
  (∀ (l : LaneIx) (s : State), Whole s → s.up = true → s.chRet 5 l.val = false → (s.ln l.val).running = none → s.sched.state ≠ 3 →
     let x := s.ln l.val
     let started := fun (k : BankSt) (i : Nat) => k.slot = some (Fin.ofNat 16 i) ∧ k.pc = BitVec.ofNat 12 (taskEntry s.force l.val i) ∧
       k.sat = false ∧ k.stack = [] ∧ k.branch = none ∧ k.executed = 0 ∧ k.commit = []
     (x.urgent ≠ [] → Does (.taskDispatch l) s [.lanes] fun t => ∃ i ∈ x.urgent, (∀ j ∈ x.urgent, i ≤ j) ∧
       (t.ln l.val).running = some .u ∧ (t.ln l.val).urgent = x.urgent.erase i ∧ started (t.ln l.val).bankU i ∧ (t.ln l.val).loops = x.loops) ∧
     (∀ i rest, x.urgent = [] → x.ready = .code i :: rest → Does (.taskDispatch l) s [.lanes] fun t =>
       (t.ln l.val).running = some .f ∧ (t.ln l.val).ready = x.ready ∧ started (t.ln l.val).bankF i ∧
         (t.ln l.val).loops = { x.loops with lc0 := 0, lc1 := 0 }) ∧
     (∀ w rest, x.urgent = [] → x.ready = w :: rest → (∀ i, w ≠ .code i) → Does (.taskDispatch l) s [.regs, .axes, .drives, .ctxs,
         .mots, .legs, .lanes, .ropes, .rescue, .safety, .trace, .log, .timers, .sched, .free] fun t =>
       (t.ln l.val).running = none ∧ (t.ln l.val).ready = rest ∧ t.free = s.free + 1 ∧
         let n := min (Config.romInstr s.free) (workBound s.force w)
         (t.ln l.val).used = x.used + n ∧ t.sched.executed = s.sched.executed + n) ∧
     (x.urgent = [] → x.ready = [] → s.sliceMay l.val = true → s.selftestMay l.val = true →
       Does (.taskDispatch l) s [.lanes, .sched] fun t =>
         t.ln l.val = { x with stSlices := x.stSlices + 1, used := x.used + 256 } ∧ t.sched.executed = s.sched.executed + 256) ∧
     (∀ i, x.urgent = [] → x.ready = [] → s.sliceMay l.val = true → s.selftestMay l.val = false → x.bankB.slot = some i →
       s.bgCodeMay l.val i.val = true → Does (.taskDispatch l) s [.lanes] fun t =>
         t.ln l.val = { x with running := some .b, loops := x.bSave, sliceCount := 0 }) ∧
     (∀ i, x.urgent = [] → x.ready = [] → s.sliceMay l.val = true → s.selftestMay l.val = false → x.bankB.slot = none →
       (ringAfter x.lastB).find? (s.bgCodeMay l.val) = some i → Does (.taskDispatch l) s [.lanes] fun t =>
         (t.ln l.val).running = some .b ∧ (t.ln l.val).lastB = i ∧ started (t.ln l.val).bankB i ∧ (t.ln l.val).sliceCount = 0) ∧
     (x.urgent = [] → x.ready = [] → s.sliceMay l.val = false → exec (.taskDispatch l) s = .next s)) ∧
  ((∀ (l : LaneIx) (s : State) bk, Whole s → s.up = true → (s.ln l.val).running = some bk → bk ≠ .u → (s.ln l.val).urgent ≠ [] →
     ((s.ln l.val).bank bk).branch = none → Does (.urgentPreemption l) s [.lanes] fun t =>
       ∃ i ∈ (s.ln l.val).urgent, (∀ j ∈ (s.ln l.val).urgent, i ≤ j) ∧ (t.ln l.val).urgent = (s.ln l.val).urgent.erase i ∧
         (t.ln l.val).running = some .u ∧ (t.ln l.val).under = some bk ∧ (t.ln l.val).bank bk = ((s.ln l.val).bank bk).flush ∧
         (t.ln l.val).bankU.slot = some (Fin.ofNat 16 i) ∧ (t.ln l.val).loops = (s.ln l.val).loops) ∧
   (∀ (l : LaneIx) (s : State) bk i, Whole s → s.up = true → (s.ln l.val).running = some bk → ((s.ln l.val).bank bk).slot = some i →
     taskBound s.force l.val i.val ≤ ((s.ln l.val).bank bk).executed → Does (.boundAbort l) s [.regs, .stage, .axes, .fbs, .mots, .legs,
         .lanes, .cans, .dos, .safety, .trace, .log, .chans, .timers] fun t =>
       ((t.ln l.val).bank bk).slot = none ∧ ((t.ln l.val).bank bk).commit = []) ∧
   (∀ (l : LaneIx) (s : State), Whole s → s.up = true → (s.ln l.val).running = some .b → 256 ≤ (s.ln l.val).sliceCount →
     (s.ln l.val).bankB.branch = none → Does (.backgroundSliceEnd l) s [.lanes] fun t =>
       t.ln l.val = { s.ln l.val with bSave := (s.ln l.val).loops, bankB := (s.ln l.val).bankB.flush, running := none, sliceCount := 0 })) ∧
  ((∀ (l : LaneIx) (s : State), Whole s → s.up = true → s.chRet 5 l.val = false → 48 ≤ (s.ln l.val).stSlices →
     (Does (.selftestPassDone l true) s [.regs, .lanes, .timers] fun t =>
       (t.ln l.val).stSlices = 0 ∧ OneReg s (pgLane l.val) LANE.SELFTEST_COUNT (· + 1) t) ∧
     (Does (.selftestPassDone l false) s [.regs, .stage, .axes, .fbs, .mots, .legs, .lanes, .cans, .dos, .safety, .trace, .log, .chans,
         .timers] fun t => (t.ln l.val).stSlices = 0 ∧ (t.ln l.val).stStart = s.now)) ∧
   (∀ (l : LaneIx) (s : State) d, Whole s → s.due (.selftest l.val) = some d → Does (.selftestLate l) s [.regs, .time, .lanes, .trace, .log, .timers] fun t =>
     t.time = { s.time with tick := max s.time.tick d } ∧ Flagged t pgSched 3 ∧ (t.ln l.val).stStart = max s.time.tick d ∧
       t.due (.selftest l.val) = some (max s.time.tick d + msT (fld (s.cf pgSched SCHED.SELFTEST_PERIOD) 15 0))))

/-- R74: an urgent trigger that comes within the inter-arrival time of the task's last release is held; the task is released when that
time has elapsed; a second trigger while one is held is merged into it, and URGENT_MERGED counts. -/
def Obligations.UrgentTriggers : Prop :=
  ∀ (l : LaneIx) (i : SlotIx) (s : State), Whole s → s.up = true → s.chRet 5 l.val = false → taskEn s.force l.val i.val = true →
    taskCls s.force l.val i.val = 1 → s.codeRuns l.val i.val = true →
    let x := s.ln l.val
    let due := fun (t0 : Nat) => t0 + taskArrival s.force l.val i.val
    (mapFind x.lastRel i.val = none ∨ (∃ t0, mapFind x.lastRel i.val = some t0 ∧ due t0 ≤ s.now) →
      Does (.urgentTrigger l i) s [.lanes] fun t =>
        t.ln l.val = { x with urgent := x.urgent ++ [i.val], lastRel := mapPut x.lastRel i.val s.now }) ∧
    (∀ t0, mapFind x.lastRel i.val = some t0 → s.now < due t0 → s.due (.urgentHold l.val i.val) = none →
      Does (.urgentTrigger l i) s [.timers] fun t => t.due (.urgentHold l.val i.val) = some (due t0)) ∧
    (∀ t0 d, mapFind x.lastRel i.val = some t0 → s.now < due t0 → s.due (.urgentHold l.val i.val) = some d →
      Does (.urgentTrigger l i) s [.regs] (OneReg s (pgLane l.val) LANE.URGENT_MERGED countUp)) ∧
    (∀ d, s.due (.urgentHold l.val i.val) = some d → Does (.urgentHoldExpiry l i) s [.lanes, .time, .timers] fun t =>
      t.time = { s.time with tick := max s.time.tick d } ∧ t.due (.urgentHold l.val i.val) = none ∧
        t.ln l.val = { x with urgent := x.urgent ++ [i.val], lastRel := mapPut x.lastRel i.val (max s.time.tick d) })

/-! The PWM generator (chapter 9). -/

/-- R228, R232, R234, R235, R247: the host's writes to a leg's shadow. One to DUTY keeps 21 bits and is ignored while a source delivers the
duty; one to PERIOD keeps 17 bits and is ignored where FDIV gives the period; UPD_ARM and UPD_ONCE are written without the override. A
write inside the freeze window is late.
R243, R244: an override on a leg that is OFF and that nothing claims drives its switches; both at once is a cross-command, which turns
both off; a leg in use refuses it; the end of the override turns both off. -/
def Obligations.LegWrites : Prop :=
  (∀ (leg : LegIx) (v : Word) (s : State), Whole s → s.up = true →
     let x := s.lg leg.val
     let p := pgPwm (leg.val / 8)
     let j := leg.val % 8
     (x.delivered.isSome → exec (.pwmDutyWrite leg v) s = .next (s.touch .host)) ∧
     (x.delivered = none → x.snapshot = none → Does (.pwmDutyWrite leg v) s [.regs, .host] fun t =>
       OneReg s p (PWM.DUTY j) (fun _ => v &&& 0x1FFFFF) t ∧ t.host = { s.host with lastAccess := s.now }) ∧
     (x.delivered = none → x.snapshot.isSome → Does (.pwmDutyWrite leg v) s [.regs, .host, .trace] fun t =>
       t.lv p (PWM.DUTY j) = v &&& 0x1FFFFF ∧ Flagged t p j) ∧
     (legFdiv s.force leg.val ≠ 0 → exec (.pwmPeriodWrite leg v) s = .next (s.touch .host)) ∧
     (legFdiv s.force leg.val = 0 → x.snapshot = none → Does (.pwmPeriodWrite leg v) s [.regs, .host, .legs] fun t =>
       OneReg s p (PWM.PERIOD j) (fun _ => v &&& 0x1FFFF) t ∧ t.lg leg.val = { x with perNew := some .host }) ∧
     (x.snapshot = none → bt (s.lv p (PWM.CTRL j)) 8 = false → Does (.pwmUpdateControl leg v) s [.regs, .host] fun t =>
       OneReg s p (PWM.CTRL j) (fun w => v &&& 3 ||| w &&& 0x30) t) ∧
     (x.snapshot.isSome → bt (s.lv p (PWM.CTRL j)) 8 = false → Does (.pwmUpdateControl leg v) s [.regs, .host, .legs, .trace] fun t =>
       t.lv p (PWM.CTRL j) = v &&& 3 ||| s.lv p (PWM.CTRL j) &&& 0x30 ∧ Flagged t p j ∧ t.lg leg.val = { x with lateOnce := bt v 1 })) ∧
  (∀ (leg : LegIx) (v : Word) (s : State), Whole s → s.up = true →
     let x := s.lg leg.val
     let p := pgPwm (leg.val / 8)
     let idle := legMode (s.legUse leg.val) leg.val = 0 ∧ s.legClaimed leg.val = false
     (bt v 8 = true → ¬ idle → exec (.pwmOverride leg v) s =
       .next ((s.touch .host).refuseBy .host eState 0 (regAddr p (PWM.CTRL (leg.val % 8))))) ∧
     (bt v 8 = true → idle → bt v 4 = true → bt v 5 = true → Does (.pwmOverride leg v) s [.regs, .stage, .host, .mgr, .axes, .fbs,
         .mots, .legs, .lanes, .cans, .dos, .safety, .trace, .log, .chans, .timers] fun t => LegIsOff t leg.val) ∧
     (bt v 8 = true → idle → bt v 4 = false → bt v 5 = false → x.snapshot = none → Does (.pwmOverride leg v) s [.regs, .host, .legs] fun t =>
       LegIsOff t leg.val ∧ (t.lg leg.val).cross = false ∧ OneReg s p (PWM.CTRL (leg.val % 8)) (fun _ => v &&& 0x133) t) ∧
     (bt v 8 = true → idle → bt v 4 = true → bt v 5 = false → x.snapshot = none → s.legsDown leg.val = false → x.retired = false →
       x.waitEdge = false → x.vdsHoldH = false → x.bsuv = false → s.pdie.cpuv = false → x.retry = false →
       Does (.pwmOverride leg v) s [.regs, .host, .legs] fun t =>
         (t.lg leg.val).hsOn = true ∧ (t.lg leg.val).hsTick = s.now ∧ (t.lg leg.val).lsOn = false ∧
           OneReg s p (PWM.CTRL (leg.val % 8)) (fun _ => v &&& 0x133) t) ∧
     (bt v 8 = true → idle → bt v 4 = false → bt v 5 = true → x.snapshot = none → s.legsDown leg.val = false → x.retired = false →
       x.waitEdge = false → x.vdsHoldL = false → x.retry = false →
       Does (.pwmOverride leg v) s [.regs, .host, .legs] fun t =>
         (t.lg leg.val).lsOn = true ∧ (t.lg leg.val).lsTick = s.now ∧ (t.lg leg.val).hsOn = false) ∧
     (bt v 8 = false → bt (s.lv p (PWM.CTRL (leg.val % 8))) 8 = true → x.snapshot = none →
       Does (.pwmOverride leg v) s [.regs, .host, .legs] fun t => LegIsOff t leg.val ∧ (t.lg leg.val).gateOff = true))

/-- R233, R235: the shadow of a leg is frozen 64 ticks before the reload, and the reload takes it: a delivered duty always, the shadow's
where UPD_ARM or UPD_ONCE arms it, and otherwise the duty stays.
R226, R237, R238: a commanded edge turns the conducting switch off at once; the other turns on when its dead time has passed, DT_MAX
after the edge, or as ADAPT follows the node's crossing; the dead time applied is kept in ns. -/
def Obligations.LegSwitching : Prop :=
  (∀ (leg : LegIx) (s : State), Whole s → s.up = true → s.time.grid = true →
     legMode (if leg.val < 12 then s.force else s.legUse leg.val) leg.val ≠ 0 →
     let x := s.lg leg.val
     let sh := x.snapshot.getD (s.legShadow leg.val)
     ((x.snapshot = none → Does (.pwmSnapshot leg) s [.time, .legs] fun t =>
         t.time = { s.time with tick := max s.time.tick (s.reloadAt leg.val - 64) } ∧
           t.lg leg.val = { x with snapshot := some (s.legShadow leg.val), perSnap := x.perNew.or x.perSnap, perNew := none }) ∧
       (leg.val < 12 ∨ x.gateOff = false → Does (.pwmReload leg) s [.regs, .time, .host, .mgr, .legs, .trace, .log] fun t =>
         t.time = { s.time with tick := max s.time.tick (s.reloadAt leg.val) } ∧ (t.lg leg.val).snapshot = none ∧
           (t.lg leg.val).lateOnce = false ∧ (t.lg leg.val).fromSource = x.delivered.isSome ∧
           (t.lg leg.val).duty = match x.delivered with
             | some d => nw d
             | none => if bt sh.2.2 0 || bt sh.2.2 1 then sh.1 else x.duty))) ∧
  (∀ (leg : LegIx) (s : State), Whole s → s.up = true →
     let x := s.lg leg.val
     let c := s.legUse leg.val
     let free := x.waitEdge = false ∧ x.cross = false ∧ x.retired = false ∧ x.gateOff = false ∧ x.vdsHoldH = false ∧ x.vdsHoldL = false ∧
       x.bsuv = false ∧ s.pdie.cpuv = false ∧ x.retry = false
     (∀ rise t0 rest, 12 ≤ leg.val → x.plan = (t0, rise) :: rest → x.gateOff = false → x.waitEdge = false → legFunc c leg.val ≠ 2 →
       Does (.externalLegEdge leg rise) s [.time, .legs] fun t =>
         t.time = { s.time with tick := max s.time.tick t0 } ∧
           t.lg leg.val = { x with
             plan := rest, hsOn := x.hsOn && rise, lsOn := x.lsOn && !rise, watchH := x.watchH && rise, watchL := x.watchL && !rise,
             incoming := if (if rise then x.hsOn else x.lsOn) then none else some (rise, t0), crossed := none }) ∧
     (∀ rise t0, x.incoming = some (rise, t0) →
       (Does (.deadtimeExpiry leg) s [.time, .legs, .chans] fun t =>
         t.time = { s.time with tick := max s.time.tick (t0 + legDtMax c leg.val) } ∧ (t.lg leg.val).incoming = none ∧
           (if rise then (t.lg leg.val).dtRise else (t.lg leg.val).dtFall) = 4 * legDtMax c leg.val ∧
           (free → (if rise then (t.lg leg.val).hsOn else (t.lg leg.val).lsOn) = true ∧
             (if rise then (t.lg leg.val).hsTick else (t.lg leg.val).lsTick) = t.time.tick)) ∧
       (∀ ns, t0 + ceilDiv ns 4 ≤ t0 + legDtMax c leg.val → legAdapt c leg.val = false → Does (.nodeCrossing leg ns) s [.time, .legs] fun t =>
         t.lg leg.val = { x with crossed := some (t0 + ceilDiv ns 4) }) ∧
       (∀ ns, t0 + ceilDiv ns 4 ≤ t0 + legDtMax c leg.val → legAdapt c leg.val = true → Does (.nodeCrossing leg ns) s [.time, .legs, .chans] fun t =>
         let on := max (t0 + fld (legDead c leg.val) 15 8)
           (min (t0 + ceilDiv ns 4 + fld (legDead c leg.val) 21 16) (t0 + legDtMax c leg.val))
         t.time = { s.time with tick := max s.time.tick on } ∧ (t.lg leg.val).incoming = none ∧
           (if rise then (t.lg leg.val).dtRise else (t.lg leg.val).dtFall) = 4 * (on - t0) ∧
           (free → (if rise then (t.lg leg.val).hsOn else (t.lg leg.val).lsOn) = true))))

/-! The power die and its link (chapter 10). -/

/-- R249, R251, R252: downlink frames. A good SYNC, SET or IDLE is noted; an EDGE in time and with room joins the leg's queue in target
order and lets the leg go on, one too late or too early turns the leg off until the next. A frame that fails turns every switching
internal leg off until its next EDGE, and is counted and flagged.
R250, R252, R263, R265, R271: uplink frames. ECHO and IDLE are noted; LEGSTAT brings dead times and BSUV of a leg, DCL the comparators,
the supply flags and VIN in steps of 4 mV, HK a reading, DIAG a result of PRECHECK. One that fails is discarded, counted and flagged.
R253: the loss of PLINK turns both switches of the twelve internal legs off, empties their queues, clears PLINK_LOCK and raises
PLINK_LOST; the link comes up again by itself with its delay measured, and the source ends. -/
def Obligations.PowerDieLink : Prop :=
  (∀ s : State, Whole s → s.linked = true →
     (∀ f, plCrcOk f = true → plType f = 1 → exec (.plinkSync f) s =
       .next { s with pdie := { s.pdie with dnOk := true, lastSync := BitVec.ofNat 28 (plFld f 35 8) } }) ∧
     (∀ f, plCrcOk f = true → plType f = 2 → exec (.plinkSet f) s = .next { s with pdie := { s.pdie with
       dnOk := true, settings := mapPut s.pdie.settings (plFld f 35 24) (BitVec.ofNat 16 (plFld f 23 8)) } }) ∧
     (∀ f, plCrcOk f = true → plType f = 0 → exec (.plinkIdle f false) s = .next { s with pdie := { s.pdie with dnOk := true } }) ∧
     (∀ f, plCrcOk f = true → plType f = 3 → plFld f 35 32 < 12 →
       let l := plFld f 35 32
       let d := (plFld f 28 8 + 2 ^ 21 - s.now % 2 ^ 21) % 2 ^ 21
       (0 < d → d ≤ 2 ^ 20 → (s.lg l).queue.length < 32 → Does (.plinkEdge f) s [.pdie, .legs] fun t =>
         t.pdie = { s.pdie with dnOk := true } ∧ t.lg l = { s.lg l with
           queue := insertEdge (s.lg l).queue { rise := plFld f 31 31 == 1, tick := s.now + d }, waitEdge := false }) ∧
       (d = 0 ∨ 2 ^ 20 < d ∨ 32 ≤ (s.lg l).queue.length → Does (.plinkEdge f) s [.regs, .legs, .pdie, .trace] fun t =>
         LegIsOff t l ∧ (t.lg l).waitEdge = true ∧ Flagged t pgPlink 13)) ∧
     (∀ f c, (c = Instr.plinkSync f ∧ plType f ≠ 1) ∨ (c = .plinkSet f ∧ plType f ≠ 2) ∨ (c = .plinkEdge f ∧ plType f ≠ 3) ∨
         (c = .plinkIdle f false ∧ plType f ≠ 0) ∨
         (plCrcOk f = false ∧ (c = .plinkSync f ∨ c = .plinkSet f ∨ c = .plinkEdge f ∨ c = .plinkIdle f false)) →
       Does c s [.regs, .legs, .pdie, .trace] fun t => t.pdie = { s.pdie with dnOk := false } ∧ Flagged t pgPlink 7 ∧
         t.lv pgPlink PLINK.CRC_COUNT = countUpHigh (s.lv pgPlink PLINK.CRC_COUNT) ∧
         ∀ l < 12, (s.lg l).gateOff = false → LegIsOff t l ∧ (t.lg l).waitEdge = true)) ∧
  (∀ s : State, Whole s → s.linked = true →
     (∀ f c, plCrcOk f = true → (c = Instr.plinkIdle f true ∧ plType f = 0) ∨ (c = .echo f ∧ plType f = 1) →
       exec c s = .next { s with pdie := { s.pdie with upOk := true } }) ∧
     (∀ f, plCrcOk f = true → plType f = 4 → plFld f 35 32 < 12 →
       let l := plFld f 35 32
       let y := { s.lg l with dtRise := plFld f 27 18, dtFall := plFld f 17 8 }
       (plFld f 29 29 = 0 → Does (.legstat f) s [.pdie, .legs] fun t => t.lg l = { y with bsuv := false }) ∧
       (plFld f 29 29 = 1 → (s.lg l).bsuv = false → legPump s.force l = false → Does (.legstat f) s [.regs, .legs, .pdie, .trace] fun t =>
         t.lg l = { y with bsuv := true, hsOn := false, watchH := false } ∧ Flagged t (pgGd (l / 6)) (8 + l % 6))) ∧
     (∀ f, plCrcOk f = true → plType f = 5 → Does (.dcl f) s [.regs, .axes, .mots, .legs, .pdie, .safety, .trace, .log, .chans,
         .timers] fun t =>
       t.pdie.upOk = true ∧ t.pdie.vinOv = (plFld f 31 31 == 1) ∧ t.pdie.vgdUv = (plFld f 30 30 == 1) ∧ t.pdie.cpuv = (plFld f 29 29 == 1) ∧
         t.lv pgPlink PLINK.VIN_MV = nw (4 * plFld f 23 8) ∧
         ∀ n < 4, bt (s.cf pgPlink (PLINK.DCL_CFG n)) 31 = true → t.pdie.dcl.toNat.testBit n = (plFld f (32 + n) (32 + n) == 1)) ∧
     (∀ f, plCrcOk f = true → plType f = 6 → exec (.plinkHk f) s = .next { s with
       pdie := { s.pdie with upOk := true }, hk := { s.hk with pwr := mapPut s.hk.pwr (plFld f 35 30) (plFld f 29 8) } }) ∧
     (∀ f, plCrcOk f = true → plType f = 7 → Does (.diag f) s [.pdie, .regs] fun t =>
       t.pdie = { s.pdie with upOk := true } ∧ OneReg s pgPlink PLINK.PRECHECK_RESULT (fun r => putFld r 27 0 (plFld f 35 8)) t) ∧
     (∀ f c n, (n = 4 ∧ c = Instr.legstat f) ∨ (n = 5 ∧ c = .dcl f) ∨ (n = 6 ∧ c = .plinkHk f) ∨ (n = 7 ∧ c = .diag f) ∨
         (n = 1 ∧ c = .echo f) ∨ (n = 0 ∧ c = .plinkIdle f true) → plCrcOk f = false ∨ plType f ≠ n →
       Does c s [.regs, .pdie, .trace] fun t => t.pdie = { s.pdie with upOk := false } ∧ Flagged t pgPlink 6 ∧
         t.lv pgPlink PLINK.CRC_COUNT = countUp (s.lv pgPlink PLINK.CRC_COUNT))) ∧
  (∀ s : State, Whole s → s.linked = true →
     (s.time.plinkLock = true → Does .plinkLost s [.regs, .time, .axes, .mots, .legs, .pdie, .safety, .trace, .log, .timers] fun t =>
       t.time = { s.time with plinkLock := false } ∧ t.pdie = { s.pdie with upOk := false, dnOk := false } ∧ Flagged t pgPlink 5 ∧
         t.srcOn srcPlink 16 = true ∧ ∀ l < 12, LegIsOff t l ∧ (t.lg l).queue = [] ∧ (t.lg l).waitEdge = true) ∧
     (∀ d, s.time.plinkLock = false → Does (.plinkLinkUp d) s [.regs, .time, .pdie, .safety, .trace] fun t =>
       t.time = { s.time with plinkLock := true } ∧ t.pdie = { s.pdie with delay := d, upOk := true, dnOk := true } ∧ Flagged t pgPlink 4 ∧
         t.srcOn srcPlink 16 = false))

/-- R256, R264: VGD undervoltage and VIN overvoltage turn both switches of the twelve internal legs off and raise their source; the end of
either ends the source. A condition that holds already is no new one.
R251, R259, R261, R262, R265: the first queued edge of an internal leg executes at its target; a switch is watched from the end of its
blanking time; a trip turns that switch off and holds it; a bootstrap undervoltage turns the high side off alone; a comparator that is
enabled changes, and with ACT forces the chopper on. -/
def Obligations.GateProtection : Prop :=
  (∀ s : State, Whole s → s.linked = true →
     (s.pdie.vgdUv = false → Does .vgdUv s [.regs, .axes, .mots, .legs, .pdie, .safety, .trace, .log,
         .timers] fun t => t.pdie = { s.pdie with vgdUv := true } ∧ Flagged t pgPlink 8 ∧
       t.srcOn srcVgdUv 16 = true ∧ ∀ l < 12, LegIsOff t l) ∧
     (s.pdie.vgdUv = true → exec .vgdUv s = .next s ∧ Does .vgdRelease s [.pdie, .safety] fun t =>
       t.pdie = { s.pdie with vgdUv := false } ∧ t.srcOn srcVgdUv 16 = false ∧
         ∀ src a, (src, a) ≠ (srcVgdUv, 16) → t.srcOn src a = s.srcOn src a) ∧
     (s.pdie.vinOv = false → Does .vinOv s [.regs, .axes, .mots, .legs, .pdie, .safety, .trace, .log,
         .timers] fun t => t.pdie = { s.pdie with vinOv := true } ∧ Flagged t pgPlink 9 ∧
       t.srcOn srcVinOv 16 = true ∧ ∀ l < 12, LegIsOff t l) ∧
     (s.pdie.vinOv = true → exec .vinOv s = .next s ∧ Does .vinOvRelease s [.pdie, .safety] fun t =>
       t.pdie = { s.pdie with vinOv := false } ∧ t.srcOn srcVinOv 16 = false ∧
         ∀ src a, (src, a) ≠ (srcVinOv, 16) → t.srcOn src a = s.srcOn src a)) ∧
  (∀ s : State, Whole s → s.linked = true →
     (∀ leg e q, leg.val < 12 → (s.lg leg.val).queue = e :: q → (s.lg leg.val).gateOff = false → (s.lg leg.val).waitEdge = false →
       (∀ x ∈ (s.lg leg.val).offAt, e.tick < x) → Does (.edgeExecute leg) s [.time, .legs] fun t =>
         let x := s.lg leg.val
         t.time = { s.time with tick := max s.time.tick e.tick } ∧ t.lg leg.val = { x with
           queue := q, hsOn := x.hsOn && e.rise, lsOn := x.lsOn && !e.rise, watchH := x.watchH && e.rise, watchL := x.watchL && !e.rise,
           incoming := if (if e.rise then x.hsOn else x.lsOn) then none else some (e.rise, e.tick), crossed := none }) ∧
     (∀ leg high, leg.val < 12 →
       let x := s.lg leg.val
       let p := pgGd (leg.val / 6)
       let j := leg.val % 6
       ((if high then x.hsOn else x.lsOn) = true → bt (s.cf p (GD.GD_CFG j)) (if high then 0 else 1) = true →
         Does (.vdsBlankEnd leg high) s [.time, .legs] fun t =>
           t.time = { s.time with
             tick := max s.time.tick ((if high then x.hsTick else x.lsTick) + blankT (fld (s.cf p (GD.VDS j)) 3 0)) } ∧
           t.lg leg.val = if high then { x with watchH := true } else { x with watchL := true }) ∧
       ((if high then x.hsOn && x.watchH else x.lsOn && x.watchL) = true → Does (.vdsTrip leg high) s [.regs, .stage, .axes, .fbs,
           .mots, .legs, .lanes, .cans, .dos, .safety, .trace, .log, .chans, .timers] fun t =>
         (if high then (t.lg leg.val).hsOn else (t.lg leg.val).lsOn) = false ∧
           (if high then (t.lg leg.val).vdsHoldH else (t.lg leg.val).vdsHoldL) = true ∧ Flagged t p j)) ∧
     (∀ leg : LegIx, leg.val < 12 → (s.lg leg.val).bsuv = false → legPump s.force leg.val = false → Does (.bsuv leg) s [.regs, .legs, .trace] fun t =>
       t.lg leg.val = { s.lg leg.val with bsuv := true, hsOn := false, watchH := false } ∧ Flagged t (pgGd (leg.val / 6)) (8 + leg.val % 6)) ∧
     (∀ (n : Fin 4) on, bt (s.cf pgPlink (PLINK.DCL_CFG n.val)) 31 = true → s.pdie.dcl.toNat.testBit n.val = !on →
       Does (.dclComparatorChange n on) s [.regs, .legs, .pdie, .trace, .chans] fun t =>
         t.pdie.dcl.toNat.testBit n.val = on ∧ (∀ m < 4, m ≠ n.val → t.pdie.dcl.toNat.testBit m = s.pdie.dcl.toNat.testBit m) ∧
           Flagged t pgPlink n.val ∧
           (∀ l, chopLeg s.force = some l → on = true → bt (s.cf pgPlink (PLINK.DCL_CFG n.val)) 24 = true → (s.lg l).gateOff = false →
             (t.lg l).chopForced = true)))

/-- R260: when VCP falls, every charge-pump-class high side turns off and may not turn on, CPUV sets and the source CPUV of class WARN is
raised; once VCP is back, the high sides may turn on again as they could before, and the source ends. -/
def Obligations.ChargePump : Prop :=
  srcClass srcCpuv = clsWarn ∧
  ∀ s : State, Whole s → s.linked = true →
    (s.pdie.cpuv = false → Does .cpuv s [.regs, .axes, .legs, .pdie, .safety, .trace,
        .log] fun t => t.pdie = { s.pdie with cpuv := true } ∧ Flagged t pgPlink 10 ∧
      t.srcOn srcCpuv 16 = true ∧ ∀ l < 12, legPump s.force l = true → (t.lg l).hsOn = false ∧ t.mayTurnOn l true = false) ∧
    (s.pdie.cpuv = true → exec .cpuv s = .next s ∧ Does .cpuvRelease s [.pdie, .safety] fun t =>
      t.pdie = { s.pdie with cpuv := false } ∧ t.srcOn srcCpuv 16 = false ∧ t.legs = s.legs ∧
        ∀ l < 12, legPump s.force l = true →
          let x := s.lg l
          t.mayTurnOn l true = (!x.waitEdge && !x.cross && !x.retired && (!x.vdsHoldH && !x.bsuv)))

/-- R268: a switch fault or a failed test window judges the chopper faulty: its switch goes off, the judgement shows, CHOPPER_FAULT is
raised.
R270, R271, Table 10-4: PRECHECK takes a disabled axis whose legs are internal and in service into its test; every step runs in turn and
its failing bits add up; after the last, a clean result takes the axis to READY unless a demand acts on it, and a failing one to FAULT. -/
def Obligations.ChopperAndPrecheck : Prop :=
  (∀ (s : State) l, Whole s → s.up = true → chopLeg s.force = some l →
     ((s.lg l).hsOn = true → Does .chopperSwitchFault s [.regs, .time, .stage, .axes, .fbs, .mots, .legs, .lanes, .rescue, .chop, .cans,
         .dos, .safety, .trace, .log, .chans, .timers] fun t =>
       t.chop = { s.chop with vdsTrip := true, judged := true, window := none } ∧ (t.lg l).hsOn = false ∧ Flagged t pgPlink 11 ∧
         t.srcOn srcChop 16 = true ∧
         t.time.tick = max s.time.tick ((s.lg l).hsTick + fld (s.cf pgPlink PLINK.CHOP_CFG) 15 0)) ∧
     (∀ u d, s.chop.window = some (u, d) → Does .chopperTestExpiry s [.regs, .time, .stage, .axes, .fbs, .mots, .legs, .lanes, .rescue,
         .chop, .cans, .dos, .safety, .trace, .log, .chans, .timers] fun t =>
       t.chop = { s.chop with testFail := true, judged := true, window := none } ∧ (t.lg l).hsOn = false ∧ Flagged t pgPlink 11 ∧
         t.srcOn srcChop 16 = true ∧ t.time.tick = max s.time.tick d)) ∧
  ((∀ (seq arg8 : Byte) (s : State), Whole s → s.up = true → s.host.busy = none → arg8.toNat ≤ 7 → s.precheckOk arg8.toNat = true →
     Does (.precheck .host seq arg8) s [.regs, .host, .axes, .timers, .precheck] fun t =>
       t.precheck = { axis := some (Fin.ofNat 16 arg8.toNat), step := 1 } ∧
         t.ax arg8.toNat = { s.ax arg8.toNat with state := .precheck } ∧ t.due .precheck = some s.now ∧ t.host.busy = some 7 ∧
         t.host.busySeq = seq ∧ t.lv pgPlink PLINK.PRECHECK_RESULT = nw (arg8.toNat * 2 ^ 28) ∧
         t.lv pgSys SYS.CMD_RESULT = resultWord seq.toNat 7 false true eNone) ∧
   (∀ (u v w : Byte) comp supply (s : State) d a, Whole s → s.due .precheck = some d → s.precheck.axis = some a →
     let n := s.precheck.step
     let bad := precheckBits n (fld (s.cf pgPlink PLINK.PRECHECK_CFG) 7 0) (fld (s.cf pgPlink PLINK.PRECHECK_CFG) 15 8)
       u.toNat v.toNat w.toNat comp supply
     let r := s.lv pgPlink PLINK.PRECHECK_RESULT ||| nw bad
     let r' := if bad ≠ 0 ∧ fld r 27 24 = 0 then putFld r 27 24 n else r
     (n < 6 → Does (.precheckStep u v w comp supply) s [.regs, .time, .timers, .precheck] fun t =>
       t.time = { s.time with tick := max s.time.tick d } ∧ t.precheck = { s.precheck with step := n + 1 } ∧
         t.lv pgPlink PLINK.PRECHECK_RESULT = r' ∧
         t.due .precheck = some (max s.time.tick d + usT (fld (s.cf pgPlink PLINK.PRECHECK_CFG) 31 16) + if n = 1 then usT 100 else 0)) ∧
     (6 ≤ n → Does (.precheckStep u v w comp supply) s [.regs, .time, .host, .mgr, .axes, .drives, .safety, .trace, .log, .timers,
         .precheck] fun t =>
       t.precheck = {} ∧ Flagged t pgPlink 12 ∧ t.due .precheck = none ∧
         ((s.ax a.val).state = .precheck → (t.ax a.val).state =
           if fld r' 27 0 ≠ 0 then .fault else if s.demandOn a.val then .disabled else .ready))))

/-! Stage, proof and strike (chapter 2). -/

/-- R45, R46, R47: a staged write goes into the stage if one is open, the writer owns it, its state is OPEN, PROVED or FAILED, and the page is
the writer's: the page becomes dirty, the stage OPEN, an earlier proof void. Any other is discarded and counts as a refused command:
E_RANGE for a page that the writer may not stage, E_OWNED if the other master owns the stage, E_BUSY in PROVING, else E_STATE. -/
def Obligations.StagedWrites : Prop :=
  ∀ (m : Master) (addr : Addr) (v : Word) (s : State), Whole s → s.up = true → addr.toNat < 0x100000 → accAt addr.toNat = some .st →
    let p := pageOf addr.toNat
    let mine := (p = pgMgmt ↔ m = .manager)
    let ready := s.stage.state = .opened ∨ s.stage.state = .proved ∨ s.stage.state = .failed
    let refused := fun (e : Nat) => Does (.stagedWrite m addr v) s [.regs, .host, .mgr, .trace, .log] fun t =>
      t = s.refuseBy m e 0 addr.toNat ∧ t.lv pgSys SYS.REFUSED_COUNT = countUp (s.lv pgSys SYS.REFUSED_COUNT) ∧ Flagged t pgSys 3 ∧
        (t.mstr m).prevRefused = true
    (mine → ready → s.stage.owner = some m → Does (.stagedWrite m addr v) s [.stg, .stage, .host, .mgr] fun t =>
      t.stage.state = .opened ∧ t.stage.proof = none ∧ t.stage.owner = some m ∧ (∀ q, q ∈ t.stage.dirty ↔ q = p ∨ q ∈ s.stage.dirty) ∧
        ∀ q o, o < 4096 → t.cd q o = if regAddr q o = addr.toNat then stagedValue p (offOf addr.toNat) v else s.cd q o) ∧
    (¬ mine → refused eRange) ∧
    (∀ o, mine → s.stage.owner = some o → o ≠ m → refused eOwned) ∧
    (mine → s.stage.owner = some m ∨ s.stage.owner = none → s.stage.state = .proving → refused eBusy) ∧
    (mine → s.stage.owner = some m ∨ s.stage.owner = none → s.stage.state = .closed ∨ s.stage.state = .armed → refused eState)

/-- R47, R53, R54, R66, R67, Table 2-13: the refusals of the stage commands: E_BUSY for a command while an earlier one of the same master is
not done, but STAGE_DISCARD; E_OWNED while the other master owns the stage; else the code of the stage's state. -/
def Obligations.StageRefusals : Prop :=
  ∀ (m : Master) (seq arg8 : Byte) (s : State) (c : Instr) (code : Nat) (row : List Nat), Whole s → s.up = true →
    (c = .stageOpen m seq arg8 ∧ code = 1 ∧ row = [0, 1, 1, 1, 1, 1, 1]) ∨
      (c = .stageDiscard m seq arg8 ∧ code = 2 ∧ row = [1, 0, 0, 0, 0, 0, 10]) ∨
      (c = .proof m seq arg8 ∧ code = 3 ∧ row = [1, 0, 10, 0, 0, 1, 1]) ∨ (c = .strike m seq arg8 ∧ code = 4 ∧ row = [1, 1, 10, 0, 1, 1, 1]) ∨
      (c = .strikeAt m seq arg8 ∧ code = 5 ∧ row = [1, 1, 10, 0, 1, 1, 1]) ∨
      (c = .proofStrike m seq arg8 ∧ code = 6 ∧ row = [1, 0, 10, 0, 0, 1, 1]) ∨
      (c = .readmit .host seq arg8 ∧ m = .host ∧ code = 10 ∧ row = [1, 0, 10, 0, 0, 1, 1]) →
    ((s.mstr m).busy.isSome → code ≠ 2 → Refuses c m s fun t => t.lv (cmdPage m) (resultOff m) = s.lv (cmdPage m) (resultOff m)) ∧
    ((s.mstr m).busy = none → s.ownedByOther m = true → Refuses c m s (Reports m seq code true false eOwned)) ∧
    ((s.mstr m).busy = none → s.ownedByOther m = false → stageRow s row ≠ 0 →
      Refuses c m s (Reports m seq code true false (stageRow s row)))

/-- R44, R48, R57, R60, R61, R64, R66: the stage commands where Table 2-13 accepts them, and what each leaves of the stage. -/
def Obligations.StageCommands : Prop :=
  ∀ (m : Master) (seq arg8 : Byte) (s : State), Whole s → s.up = true → s.ownedByOther m = false →
    let idle := (s.mstr m).busy = none
    let T := upair64 (s.arg0 m) (s.arg1 m)
    let may := s.stage.state = .opened ∨ s.stage.state = .proved ∨ s.stage.state = .failed
    (idle → s.stage.state = .closed → Does (.stageOpen m seq arg8) s [.regs, .stg, .stage, .host, .mgr, .trace, .log] fun t =>
      t.stg = [] ∧ t.stage = { s.stage with state := .opened, owner := some m, dirty := [], readmits := [], voided := false } ∧
        Reports m seq 1 true true eNone t) ∧
    (s.stage.state ≠ .closed → (s.stage.state = .armed → s.stage.commit = false) → Does (.stageDiscard m seq arg8) s [.regs, .stg,
        .stage, .host, .mgr, .trace, .log] fun t =>
      t.stg = [] ∧ t.stage.state = .closed ∧ t.stage.owner = none ∧ t.stage.dirty = [] ∧ t.stage.readmits = [] ∧ t.stage.due = none ∧
        t.stage.proof = none ∧ (t.mstr m).busy = (if s.stage.state = .proving then none else (s.mstr m).busy) ∧
        Reports m seq 2 true true eNone t ∧ ∀ p i, p = pgSys → Flagged t p i → Flagged s p i) ∧
    (∀ c code arms, idle → may → (c = Instr.proof m seq arg8 ∧ code = 3 ∧ arms = false) ∨ (c = .proofStrike m seq arg8 ∧ code = 6 ∧ arms = true) →
        Does c s [.regs, .stage, .host, .mgr, .trace, .log] fun t =>
        t.stage = { s.stage with state := .proving, proof := some ((s.touch m).proofOut, arms), voided := false } ∧
          (t.mstr m).busy = some (BitVec.ofNat 8 code) ∧ (t.mstr m).busySeq = seq ∧ Reports m seq code false true eNone t) ∧
    (idle → s.stage.state = .proved → Does (.strike m seq arg8) s [.regs, .stage, .host, .mgr, .trace, .log] fun t =>
      t.stage = { s.stage with state := .armed, due := some (.tick (s.now + 2 * frameLen s.force)), proof := none } ∧
        Reports m seq 4 true true eNone t) ∧
    (idle → s.stage.state = .proved →
        (s.strikeAtFail T = none → Does (.strikeAt m seq arg8) s [.regs, .stage, .host, .mgr, .trace, .log] fun t =>
          t.stage = { s.stage with state := .armed, due := some (.net T), tag := none, proof := none } ∧
            t.lv pgSys SYS.STRIKE_DUE_LO = loW T ∧ t.lv pgSys SYS.STRIKE_DUE_HI = hiW T ∧ Reports m seq 5 true true eNone t) ∧
        (s.ntValid = false → Refuses (.strikeAt m seq arg8) m s (Reports m seq 5 true false eState)) ∧
        (s.ntValid = true → (T : Int) < s.ntAt s.now + 8 * frameLen s.force ∨ s.ntAt s.now + 60000000000 < (T : Int) →
          Refuses (.strikeAt m seq arg8) m s (Reports m seq 5 true false eRange))) ∧
    (m = .host → idle → may →
      let ch : ChanId := ⟨fld (s.arg0 .host) 15 8, fld (s.arg0 .host) 7 0⟩
      (∀ p, readmitPage ch.cls ch.idx = some p → s.chRet ch.cls ch.idx = true → Does (.readmit .host seq arg8) s [.regs, .stage, .host, .mgr, .trace, .log] fun t =>
        t.stage.state = .opened ∧ t.stage.readmits = ch :: s.stage.readmits.filter (· ≠ ch) ∧ p ∈ t.stage.dirty ∧
          Reports .host seq 10 true true eNone t) ∧
      (∀ p, readmitPage ch.cls ch.idx = some p → s.chRet ch.cls ch.idx = false →
        Refuses (.readmit .host seq arg8) .host s (Reports .host seq 10 true false eState)) ∧
      (readmitPage ch.cls ch.idx = none → Refuses (.readmit .host seq arg8) .host s (Reports .host seq 10 true false eRange)))

/-- R48, R60, R63, R91: a proof that is done reports its outcome and leaves the stage PROVED, FAILED or, for one voided meanwhile, OPEN, a
PROOF_STRIKE that passes ARMED; a stage whose lease runs out closes; a re-proof ends with its result.
R55, R284, R285, R262, R268: at the end of its retry window a channel that is not back in service counts a further onset; a leg held off
for the window may turn on again and is back in service. -/
def Obligations.ProofsAndRetries : Prop :=
  ((∀ (s : State) o arms m code, Whole s → s.stage.state = .proving → s.stage.proof = some (o, arms) → s.stage.owner = some m →
     (s.mstr m).busy = some code → Does .proofDone s [.regs, .stage, .host, .mgr, .trace] fun t =>
       t.stage.proof = none ∧ (t.mstr m).busy = none ∧ Flagged t pgSys 0 ∧ t.lv pgSys SYS.PROOF_RESULT = o.word ∧
         t.lv pgSys SYS.PROOF_DEMAND = o.demand ∧ t.lv pgSys SYS.PROOF_BUDGET = o.budget ∧
         (if s.stage.voided then t.stage.state = .opened ∧ Reports m (s.mstr m).busySeq code.toNat true true eRetired t
           else if o.code = 0 then t.stage.state = (if arms then .armed else .proved) ∧
             Reports m (s.mstr m).busySeq code.toNat true true eNone t
           else t.stage.state = .failed ∧ Reports m (s.mstr m).busySeq code.toNat true true o.code.toNat t)) ∧
   (∀ (s : State) m, Whole s → s.up = true → s.stage.owner = some m → s.stage.state ≠ .armed → (s.lv pgSys SYS.STAGE_LEASE).toNat ≠ 0 →
     Does .stageExpired s [.regs, .stg, .time, .stage, .host, .mgr, .trace, .log] fun t =>
       t.time = { s.time with tick := max s.time.tick ((s.mstr m).lastAccess + msT (s.lv pgSys SYS.STAGE_LEASE).toNat) } ∧ t.stg = [] ∧
         t.stage.state = .closed ∧ t.stage.owner = none ∧ Flagged t pgSys 4 ∧
         (s.stage.state = .proving → (t.mstr m).busy = none ∧
           ∀ code, (s.mstr m).busy = some code → Reports m (s.mstr m).busySeq code.toNat true true eState t)) ∧
   (∀ (s : State) o, Whole s → s.stage.reproof = some o → Does .reproofDone s [.regs, .stage, .axes, .lanes, .safety, .trace, .log] fun t =>
     t.stage.reproof = none ∧ t.lv pgSched SCHED.REPROOF_RESULT = o.word ∧
       (o.code = 0 → (∀ a, t.srcOn srcReconfig a = false) ∧ t.axes = s.axes) ∧
       (o.code ≠ 0 → Flagged t pgSched 2 ∧ ∀ a ∈ concernedAxes s.force o.page.toNat o.offset.toNat, t.srcOn srcReconfig a = true))) ∧
  (∀ (c : ChanId) (s : State) d, Whole s → (s.chan c.cls c.idx).retry = some d → s.chRet c.cls c.idx = false →
     (c.cls = 3 ∨ c.cls = 4 → c.idx < 32 → Does (.retryWindowExpiry c) s [.time, .legs, .chans] fun t =>
       t.time = { s.time with tick := max s.time.tick d } ∧ (t.chan c.cls c.idx).retry = none ∧
         t.lg c.idx = { s.lg c.idx with retry := false, vdsHoldH := false, vdsHoldL := false }) ∧
     (c.cls ≠ 3 → c.cls ≠ 4 → Does (.retryWindowExpiry c) s [.regs, .time, .stage, .axes, .fbs, .mots, .legs, .lanes, .cans, .dos,
         .safety, .trace, .log, .chans, .timers] fun t =>
       t.time = { s.time with tick := max s.time.tick d } ∧ CountsOnset s c.cls c.idx (max s.time.tick d) t))

/-- R52, R68, R81, R83, R276, R439: SAFE_STOP is accepted from either master in every state, leaves the stage as it is, and leaves a command
in progress its CMD_RESULT; SAVE_IMAGE waits for its snapshot unless in RESCUE or HALTED; CLEAR_EVENTS clears the counters it names; a
request for a power state stands until the next boundary, or is refused without effect. -/
def Obligations.DeviceCommands : Prop :=
  (∀ m (seq arg8 : Byte) (s : State), Whole s → s.up = true → arg8.toNat < 16 ∨ arg8 = 0xFF →
    Does (.safeStop m seq arg8) s [.regs, .host, .mgr, .axes, .mots, .legs, .rescue, .safety, .trace, .log, .timers] fun t =>
      Flagged t pgSafe 3 ∧ t.stage = s.stage ∧
        ((s.mstr m).busy = none → Reports m seq 8 true true eNone t) ∧
        ((s.mstr m).busy.isSome → t.lv (cmdPage m) (resultOff m) = s.lv (cmdPage m) (resultOff m))) ∧
  (∀ m (seq arg8 : Byte) (s : State), Whole s → s.up = true → 16 ≤ arg8.toNat → arg8 ≠ 0xFF → (s.mstr m).busy = none →
    Refuses (.safeStop m seq arg8) m s (Reports m seq 8 true false eRange)) ∧
  (∀ (seq arg8 : Byte) (s : State), Whole s → s.up = true → s.host.busy = none →
    (s.sched.state < 2 → Does (.saveImage .host seq arg8) s [.regs, .stage, .host] fun t =>
      t.stage = { s.stage with save := some false } ∧ t.host.busy = some 0x0B ∧ t.host.busySeq = seq ∧ Reports .host seq 11 false true eNone t) ∧
    (2 ≤ s.sched.state → Refuses (.saveImage .host seq arg8) .host s (Reports .host seq 11 true false eState))) ∧
  (∀ (seq arg8 : Byte) (s : State), Whole s → s.up = true → s.host.busy = none → Does (.clearEvents .host seq arg8) s [.regs, .host,
      .mgr, .axes, .ctxs, .shares, .chop, .sins, .safety, .trace, .log] fun t =>
    Reports .host seq 9 true true eNone t ∧ (∀ x ∈ clearedOne ++ clearedMany, t.lv x.1 x.2 = 0) ∧ t.srcOn srcNodeConf 16 = false ∧
      ∀ p i, Flagged s p i → Flagged t p i) ∧
  (∀ (v : Word) (s : State), Whole s → s.up = true →
    (s.powerBad (fld v 1 0) = false → Does (.powerReq v) s [.regs, .host, .sched] fun t =>
      t.sched = { s.sched with request := if fld v 1 0 = s.sched.state then none else some (fld v 1 0) } ∧
        OneReg s pgSched SCHED.POWER_REQ (fun _ => nw (fld v 1 0)) t) ∧
    (s.powerBad (fld v 1 0) = true → Refuses (.powerReq v) .host s fun t => t.sched = s.sched))

/-! Axes, currents, feedback and motion (chapters 5, 6, 7 and 11). -/

/-- R277, Table 11-1: the axis commands in the states that accept them; any other is refused without effect. AXIS_RUN takes effect at the next
boundary. -/
def Obligations.AxisCommands : Prop :=
  ∀ (axis : AxisIx) (s : State), Whole s → s.up = true →
    let a := axis.val
    let x := s.ax a
    let held := s.demandOn a = true ∨ s.sched.request = some 3
    let reports := fun (code res : Nat) (t : State) => t.lv pgSafe SAFE.AXIS_CMD_RESULT = nw (a * 2 ^ 16 + code * 2 ^ 8 + res)
    (s.axLocked a = false →
      (x.state = .disabled → ¬ held → s.serviceMode = false → Does (.axisEnable axis) s [.regs, .host, .axes, .drives, .timers] fun t =>
        t.ax a = { x with
          state := .ready, react := none, faulty := false, sto := false, asc := false, sub := false,
          capturing := !(axSense s.force a).isEmpty } ∧ reports 1 eNone t) ∧
      (x.state = .ready → x.capturing = false → ¬ held → Does (.axisRun axis) s [.regs, .host, .axes] fun t =>
        t.ax a = { x with runPending := true } ∧ reports 2 eNone t) ∧
      (x.state = .run ∨ x.state = .degraded → Does (.axisStop axis) s [.regs, .host, .axes] fun t =>
        t.ax a = { x with state := .stopping, stopToReady := true } ∧ reports 3 eNone t) ∧
      (x.state = .ready → Does (.axisDisable axis) s [.regs, .host, .axes, .timers] fun t =>
        t.ax a = { x with state := .disabled, capturing := false, runPending := false } ∧ t.due (.offsetCapture a) = none ∧
          t.due (.sdRefresh a) = none ∧ reports 4 eNone t) ∧
      (x.state = .fault → s.anySrc a = false → Does (.axisClear axis) s [.regs, .host, .axes] fun t =>
        t.ax a = { x with
          state := if s.usesRetired a then .retired else .disabled, react := none, faulty := false, degUsed := false, asc := false,
          sub := false, ladder := 0 } ∧ reports 5 eNone t)) ∧
    (∀ c code e, (c = Instr.axisEnable axis ∧ code = 1 ∧ e = eState ∧ (x.state ≠ .disabled ∨ held)) ∨
        (c = .axisRun axis ∧ code = 2 ∧ e = eBusy ∧ x.state = .ready ∧ x.capturing = true ∧ s.axLocked a = false) ∨
        (c = .axisRun axis ∧ code = 2 ∧ e = eState ∧ (x.state ≠ .ready ∨ (x.capturing = false ∧ held))) ∨
        (c = .axisStop axis ∧ code = 3 ∧ e = eState ∧ x.state ≠ .run ∧ x.state ≠ .degraded) ∨
        (c = .axisDisable axis ∧ code = 4 ∧ e = eState ∧ x.state ≠ .ready) ∨
        (c = .axisClear axis ∧ code = 5 ∧ e = eState ∧ (x.state ≠ .fault ∨ s.anySrc a = true)) ∨
        (e = eState ∧ s.axLocked a = true ∧ ((c = .axisEnable axis ∧ code = 1) ∨ (c = .axisRun axis ∧ code = 2) ∨
          (c = .axisStop axis ∧ code = 3) ∨ (c = .axisDisable axis ∧ code = 4) ∨ (c = .axisClear axis ∧ code = 5))) →
      Refuses c .host s (reports code e))

/-- R128, R135, R146, R149: a conversion of an enabled channel in service: the raw register and the sample; an offset sample counts or starts the
sums anew; a reference outside ±16 LSB is a fault of the channel, as is a stalled stream.
R135 to R137: the offsets of an axis are the mean of its capture; while it runs, and at a refresh, a mean of 1024 samples within OFFSET_STEP is
taken at the next boundary, and one outside it is rejected and flagged.
R140, R143, R145: CATCH_TIME without lock waits for the forced start; a restart that fails raises RESTART. -/
def Obligations.CurrentSensing : Prop :=
  ((∀ (ch : Fin 32) (code : Int) (stamp : Nat) (s : State), Whole s → s.up = true → adcEn s.force ch.val = true → s.chRet 2 ch.val = false →
     let n := ch.val
     let x : Samp := { code := adcCode n code, cfg := adcCfg s.force n, tick := stamp }
     let taken := fun (t : State) => t.time = { s.time with tick := max s.time.tick stamp } ∧
       OneReg s pgAdc (adcRawOff n) (fun _ => iw x.code) t ∧ t.samples = { s.samples with live := s.samples.live.set n x }
     (∀ k, k = ConvKind.sampleA ∨ k = .sampleB → Does (.adcConversionDone ch code k stamp) s [.regs, .time, .samples, .drives, .chans] fun t =>
       taken t ∧ (n < 8 → t.chans = s.chans) ∧
         (∀ a, n < 8 → senseAxis s.force n = some a →
           t.dr a = if k = .sampleA then { s.dr a with sampA := some x } else { s.dr a with sampB := some x }) ∧
         (8 ≤ n → n < 16 → k = .sampleA → (t.chan 2 n).retry = none)) ∧
     (Does (.adcConversionDone ch code .offset stamp) s [.regs, .time, .samples, .drives] fun t =>
       taken t ∧ ∀ a, senseAxis s.force n = some a → t.dr a =
         if s.offsetCounts a stamp then
           if (axSense s.force a).head? = some n then { s.dr a with ofsSum0 := (s.dr a).ofsSum0 + x.code, ofsCnt0 := (s.dr a).ofsCnt0 + 1 }
           else { s.dr a with ofsSum1 := (s.dr a).ofsSum1 + x.code, ofsCnt1 := (s.dr a).ofsCnt1 + 1 }
         else { s.dr a with ofsSum0 := 0, ofsSum1 := 0, ofsCnt0 := 0, ofsCnt1 := 0 }) ∧
     (n < 8 ∨ 16 ≤ n →
       (code.natAbs ≤ 16 → Does (.adcConversionDone ch code .reference stamp) s [.time, .chans] fun t => (t.chan 2 n).retry = none) ∧
       (16 < code.natAbs → s.inRetry 2 n = false → Does (.adcConversionDone ch code .reference stamp) s [.regs, .time, .stage, .axes,
           .drives, .fbs, .mots, .legs, .lanes, .cans, .dos, .safety, .trace, .log, .chans, .timers, .samples] fun t =>
         bt (t.lv pgAdc pageFault) n = true ∧ CountsOnset s 2 n (max s.time.tick stamp) t))) ∧
   (∀ (ch : Fin 8) (s : State), Whole s → s.up = true → adcEn s.force (8 + ch.val) = true → s.chRet 2 (8 + ch.val) = false →
     s.inRetry 2 (8 + ch.val) = false → Does (.sdStreamStall ch) s [.regs, .stage, .axes, .fbs, .mots, .legs, .lanes, .cans, .dos,
         .safety, .trace, .log, .chans, .timers] fun t =>
       bt (t.lv pgAdc pageFault) (8 + ch.val) = true ∧ CountsOnset s 2 (8 + ch.val) s.now t)) ∧
  ((∀ (axis : AxisIx) (s : State) d x, Whole s → axis.val < 8 → s.due (.offsetCapture axis.val) = some d → (s.ax axis.val).capturing = true →
     axSense s.force axis.val = [x] → (s.dr axis.val).ofsCnt0 ≠ 0 →
     let m := meanOfs (s.dr axis.val).ofsSum0 (s.dr axis.val).ofsCnt0
     m.natAbs ≤ 4096 → s.power.persOn = false → Does (.offsetCaptureDone axis) s [.regs, .time, .axes, .drives, .timers] fun t =>
       t.time = { s.time with tick := max s.time.tick d } ∧ t.ax axis.val = { s.ax axis.val with capturing := false } ∧
         t.dr axis.val = { s.dr axis.val with ofsSum0 := 0, ofsSum1 := 0, ofsCnt0 := 0, ofsCnt1 := 0 } ∧
         OneReg s (pgAxis axis.val) AXIS.OFFSET0 (fun _ => iw m) t) ∧
   (∀ (axis : AxisIx) (s : State) x, Whole s → axis.val < 8 → s.up = true → axSense s.force axis.val = [x] → (s.ax axis.val).capturing = false →
     1024 ≤ (s.dr axis.val).ofsCnt0 → s.bgOn 2 = true →
     let m := meanOfs (s.dr axis.val).ofsSum0 (s.dr axis.val).ofsCnt0
     let old := (s.lv (pgAxis axis.val) AXIS.OFFSET0).toInt
     m.natAbs ≤ 4096 →
       ((m - old).natAbs ≤ axOfsStep s.force axis.val → Does (.burnisherOffsetUpdate axis) s [.drives] fun t =>
         t.dr axis.val = { s.dr axis.val with ofsSum0 := 0, ofsCnt0 := 0, ofsNew := some m }) ∧
       (axOfsStep s.force axis.val < (m - old).natAbs → Does (.burnisherOffsetUpdate axis) s [.regs, .stage, .axes, .drives, .fbs,
           .mots, .legs, .lanes, .cans, .dos, .safety, .trace, .log, .chans, .timers] fun t =>
         t.dr axis.val = { s.dr axis.val with ofsSum0 := 0, ofsCnt0 := 0 } ∧ Flagged t (pgAxis axis.val) 1 ∧
           bt (t.lv (pgAxis axis.val) pageFault) 0 = true)) ∧
   (∀ (axis : AxisIx) (s : State) d x y, Whole s → axis.val < 8 → s.due (.sdRefresh axis.val) = some d → axSense s.force axis.val = [x, y] →
     (s.ax axis.val).state = .ready → 1024 ≤ (s.dr axis.val).ofsCnt0 → 1024 ≤ (s.dr axis.val).ofsCnt1 → s.bgOn 2 = true →
     let m0 := meanOfs (s.dr axis.val).ofsSum0 (s.dr axis.val).ofsCnt0
     let m1 := meanOfs (s.dr axis.val).ofsSum1 (s.dr axis.val).ofsCnt1
     m0.natAbs ≤ 4096 → m1.natAbs ≤ 4096 → (m0 - (s.lv (pgAxis axis.val) AXIS.OFFSET0).toInt).natAbs ≤ axOfsStep s.force axis.val →
     (m1 - (s.lv (pgAxis axis.val) AXIS.OFFSET1).toInt).natAbs ≤ axOfsStep s.force axis.val →
       Does (.sdOffsetRefresh axis) s [.time, .drives, .timers] fun t =>
         t.dr axis.val = { s.dr axis.val with
           ofsSum0 := 0, ofsSum1 := 0, ofsCnt0 := 0, ofsCnt1 := 0, ofsNew := some m0, ofsNew1 := some m1 } ∧
           t.due (.sdRefresh axis.val) = some (max s.time.tick d + refreshT))) ∧
  (∀ (axis : AxisIx) (s : State) d, Whole s → axis.val < 8 →
     let x := s.dr axis.val
     (s.due (.catchTime axis.val) = some d → x.restart = .catching → x.obsLocked = false →
       (x.restarting = true → x.obsSpeed.natAbs < axNat s.force axis.val AXIS.OBS_MIN_SPEED) →
       Does (.catchTimeExpiry axis) s [.time, .drives, .timers] fun t =>
         t.time = { s.time with tick := max s.time.tick d } ∧ t.due (.catchTime axis.val) = none ∧ t.dr axis.val = { x with restart := .waiting }) ∧
     (s.due (.restart axis.val) = some d → x.restarting = true → Does (.restartTimeout axis) s [.regs, .time, .axes, .drives, .safety,
         .trace, .log, .timers] fun t =>
       t.time = { s.time with tick := max s.time.tick d } ∧ t.dr axis.val = { x with restart := .idle, restarting := false } ∧
         t.srcOn srcRestart axis.val = true ∧ bt (t.lv (pgAxis axis.val) pageFault) 3 = true))

/-- R152, R154, R157, R161: accepted levels of an interface in service count by its mode, in the direction of DIR_INV; an illegal transition is a
fault; one out of service only follows its levels.
R159, R160, R164: an acquisition of an absolute interface starts ACQ_LEAD before the boundary, or is a fault where the line is not idle; its word is
shown, and extends the position where it is good; a late answer, a check that fails, a reported error and a jump beyond MAX_STEP are faults, as
is a line that does not answer in TIMEOUT. -/
def Obligations.FeedbackPositions : Prop :=
  (∀ (fb : FbIx) (stamp : Nat) (zba : BitVec 3) (s : State), Whole s →
     let n := fb.val
     let x := s.fb n
     let now := max s.time.tick (stamp + fbFilt s.force n)
     (s.up = true → x.state = .off ∨ x.state = .retired → exec (.fbEdgeAccepted fb stamp zba) s =
       .next { s with fbs := s.fbs.modify n fun x => { x with zba := zba } }) ∧
     (∀ d : Int, s.up = true → 1 ≤ fbMode s.force n → fbMode s.force n ≤ 3 → x.state = .running ∨ x.state = .retry →
       fbCounts s.force n x.zba zba = some d → zba.getLsbD 2 = x.zba.getLsbD 2 → Does (.fbEdgeAccepted fb stamp zba) s [.regs, .time,
           .stage, .axes, .fbs, .mots, .cmps, .latches, .legs, .lanes, .cans, .dos, .safety, .trace, .log, .chans, .timers, .reps] fun t =>
         t.time.tick = now ∧ (t.fb n).zba = zba ∧ (t.fb n).state = x.state ∧
           (t.fb n).pos = x.pos + (if fbInv s.force n then -d else d) * 65536 ∧
           (d ≠ 0 → (t.fb n).lastEdge = some stamp ∧ (t.fb n).standstill = false ∧ (t.fb n).dirDown = decide ((if fbInv s.force n then -d else d) < 0))) ∧
     (s.up = true → fbMode s.force n = 1 ∨ fbMode s.force n = 5 → x.state = .running → fbCounts s.force n x.zba zba = none →
       Does (.fbEdgeAccepted fb stamp zba) s [.regs, .time, .stage, .axes, .fbs, .mots, .cmps, .latches, .legs, .lanes, .cans, .dos,
           .safety, .trace, .log, .chans, .timers, .reps] fun t => t.time.tick = now ∧ (t.fb n).zba = zba ∧ FeedbackFault s n 1 now t)) ∧
  (∀ (fb : FbIx) (s : State), Whole s → s.up = true →
     let n := fb.val
     let c := s.force
     let x := s.fb n
     (fbAbs c n = true → s.time.grid = true → x.acq = none → x.state = .running ∨ x.state = .retry →
       let at_ := s.time.frameStart + s.time.curLen - absLead c n
       (Does (.absAcquisitionStart fb true) s [.time, .fbs] fun t => t.time = { s.time with tick := max s.time.tick at_ } ∧
         t.fb n = { x with acq := some at_, lastAcq := at_, tail := false }) ∧
       (Does (.absAcquisitionStart fb false) s [.regs, .time, .stage, .axes, .fbs, .mots, .legs, .lanes, .cans, .dos, .safety, .trace,
           .log, .chans, .timers] (FeedbackFault s n 2 (max s.time.tick at_)))) ∧
     (∀ (r : AbsResult) t0, x.acq = some t0 → fbMode c n = 6 ∨ fbMode c n = 7 →
       let ssi := fbMode c n = 6
       let raw := r.word.toNat % 2 ^ absBits c n
       let w := if ssi ∧ bt (c (pgFb n) FB.ABS_CFG) 6 = true then grayToBin (absBits c n) raw else raw
       let now := max s.time.tick (t0 + absTx c n)
       let late := ¬ ssi ∧ 500 < r.delay
       let unchecked := r.checkOk = false ∧ (ssi → absPar c n = true)
       let failing := ¬ ssi ∧ r.status.getLsbD 3 = true
       let near := fun (old : Nat) => (wordDiff (absBits c n) w old).natAbs ≤ (c (pgFb n) FB.MAX_STEP).toNat
       Does (.absAcquisitionDone fb r) s [.regs, .time, .stage, .axes, .fbs, .mots, .cmps, .latches, .legs, .lanes, .cans, .dos,
           .safety, .trace, .log, .chans, .timers] fun t =>
         t.time = { s.time with tick := now } ∧ (t.fb n).acq = none ∧ t.lv (pgFb n) FB.RAW_LO = nw w ∧
           (late → FeedbackFault s n 2 now t) ∧
           (¬ late → unchecked → FeedbackFault s n 3 now t) ∧
           (¬ late → ¬ unchecked → failing → FeedbackFault s n 7 now t) ∧
           (¬ late → ¬ unchecked → ¬ failing → x.state = .running → x.firstWord = true → ¬ near x.lastWord → FeedbackFault s n 4 now t) ∧
           (¬ late → ¬ unchecked → ¬ failing → x.state = .running → x.firstWord = true → near x.lastWord →
             (t.fb n).lastWord = w ∧ (t.fb n).state = .running ∧
               (t.fb n).pos = x.pos + (if fbInv c n then -1 else 1) * wordDiff (absBits c n) w x.lastWord * 65536) ∧
           (¬ late → ¬ unchecked → ¬ failing → x.state = .running → x.firstWord = false →
             (t.fb n).lastWord = w ∧ (t.fb n).firstWord = true ∧ (t.fb n).referenced = true ∧
               (t.fb n).pos = (if fbInv c n then -1 else 1) * (w : Int) * 65536 + x.loadOfs) ∧
           (¬ late → ¬ unchecked → ¬ failing → x.state = .retry → x.goodWord = none → (t.fb n).goodRun = 1 ∧ (t.fb n).goodWord = some w)) ∧
     (fbMode c n = 6 → x.tail = true → Does (.absTimeoutExpiry fb) s [.regs, .time, .stage, .axes, .fbs, .mots, .legs, .lanes, .cans,
         .dos, .safety, .trace, .log, .chans, .timers] fun t =>
       (t.fb n).tail = false ∧ FeedbackFault s n 2 (max s.time.tick (x.lastAcq + absTx c n + absTimeout c n)) t) ∧
     (fbMode c n = 7 → x.acq.isSome → Does (.absTimeoutExpiry fb) s [.regs, .time, .stage, .axes, .fbs, .mots, .legs, .lanes, .cans,
         .dos, .safety, .trace, .log, .chans, .timers] fun t =>
       (t.fb n).acq = none ∧ FeedbackFault s n 2 (max s.time.tick (x.lastAcq + absClk c n + absTimeout c n)) t))

/-- R158, R161, R164 to R166, R169: line faults, re-acquisition, standstill, loss, the load of a position, and the transitions of a repeater. -/
def Obligations.FeedbackService : Prop :=
  ∀ (fb : FbIx) (s : State), Whole s → s.up = true →
    let n := fb.val
    let c := s.force
    let x := s.fb n
    (bt (fbCfg c n) 11 = true → (∃ i, bt (fbCfg c n) i = false ∧
        ((fbMode c n = 4 ∧ i = 8) ∨ (6 ≤ fbMode c n ∧ fbMode c n ≤ 7 ∧ i = 9) ∨ ((1 ≤ fbMode c n ∧ fbMode c n ≤ 3 ∨ fbMode c n = 5) ∧ 8 ≤ i ∧ i ≤ 10))) →
      x.state = .running ∨ x.state = .retry → Does (.fbLineFault fb) s [.regs, .stage, .axes, .fbs, .mots, .legs, .lanes, .cans, .dos,
          .safety, .trace, .log, .chans, .timers] fun t =>
        (t.fb n).lineOk = false ∧ FeedbackFault s n 0 s.now t) ∧
    (x.state = .retry → x.cause &&& 0x60 = 0 → (x.cause &&& 0x9C ≠ 0 → 2 ≤ x.goodRun) → fbMode c n ≠ 5 → (fbRefReq c n = true → x.referenced = true) →
      Does (.fbReacquire fb) s [.regs, .time, .fbs, .trace, .chans] fun t => (t.fb n).state = .running ∧ (t.fb n).cause = 0 ∧ (t.fb n).lineOk = true ∧ Flagged t (pgFb n) 3 ∧
        (t.chan 1 n).retry = (if s.chRet 1 n then (s.chan 1 n).retry else none) ∧
        t.time = { s.time with tick := if x.cause &&& 3 = 0 then s.time.tick else max s.time.tick (x.lastFault + msT 1) }) ∧
    (∀ t0, x.lastEdge = some t0 → fbIncr c n = true → x.standstill = false → fbStill c n ≤ s.time.frameStart - t0 →
      Does (.fbStandstill fb) s [.regs, .fbs, .trace] fun t => Flagged t (pgFb n) 1 ∧ t.fb n = { x with
        standstill := true, m := 0, edges := [], methPrev := false, countMethod := false, sSpeed := if x.valid then 0 else x.sSpeed }) ∧
    (x.state ≠ .off → fbRide c n < x.ride → x.lostRaised = false → Does (.fbLost fb) s [.regs, .axes, .fbs, .mots, .legs, .rescue,
        .safety, .trace, .log, .timers] fun t =>
      (t.fb n).lostRaised = true ∧ ∀ a ∈ fbUsers c n, t.srcOn srcFbLost a = true) ∧
    (∀ v, bt v 0 = true →
      let busy := x.state = .retry ∨ x.state = .retired ∨
        ∃ a < 8, (s.ax a).state.moving = true ∧ axComm c a ≠ 0 ∧ axAngle c a ≠ 2 ∧ axFb c a = some n
      (¬ busy → Does (.posLoad fb v) s [.host, .fbs] fun t => t.fb n = { x with loadPending := true }) ∧
      (busy → Refuses (.posLoad fb v) .host s fun t => t.fb n = x)) ∧
    (∀ (r : Fin 2), repMode c r.val = 2 →
      let y := s.reps.getD r.val {}
      let k := y.count + sgn (y.target - y.count)
      y.held = false → y.count ≠ y.target → Does (.repeaterTransition r) s [.time, .reps] fun t =>
        t.time = { s.time with tick := max s.time.tick (y.last + fld (repCfg c r.val) 31 16) } ∧ t.reps.getD r.val {} = { y with
          count := k, last := t.time.tick, out := repLevels (fld (c (pgFb r.val) FB.REP_ZPER) 24 0) k, lag := y.lag && k != y.target })

/-- R176, R184, R186, Table 7-1: a motion command that the axis takes in its present state waits for B_k + 32, and any other is refused: E_BUSY behind one
that waits, E_STATE or E_RANGE by the table; a segment joins its group's queue; a flush is noted. -/
def Obligations.MotionCommands : Prop :=
  (∀ (axis : AxisIx) (s : State) (c : Instr) (code : Nat), Whole s → s.up = true →
    let a := axis.val
    let m := s.mt a
    let src := motSource s.force a
    let run := (s.ax a).state = .run ∨ (s.ax a).state = .degraded
    let ratio := s.lv (pgMot a) MOT.GEAR_DEN ≠ 0
    let may := (((c = .moveAbs axis ∧ code = 1) ∨ (c = .moveRel axis ∧ code = 2)) ∧ src = 1 ∧ run ∧ m.moving = false) ∨
      (c = .jog axis ∧ code = 3 ∧ src = 1 ∧ run ∧ (m.active = .idle ∨ m.active = .jog)) ∨
      (c = .motStop axis ∧ code = 4 ∧ (src = 1 ∨ src = 2) ∧ run) ∨ (c = .gearEngage axis ∧ code = 5 ∧ src = 2 ∧ run ∧ m.engaged = false ∧ ratio) ∨
      (c = .gearArm axis ∧ code = 6 ∧ src = 2 ∧ run ∧ ratio) ∨ (c = .gearDisengage axis ∧ code = 7 ∧ src = 2 ∧ m.engaged = true) ∨
      (c = .switchCancel axis ∧ code = 8 ∧ src = 2 ∧ m.armed = true)
    let is := (c = .moveAbs axis ∧ code = 1) ∨ (c = .moveRel axis ∧ code = 2) ∨ (c = .jog axis ∧ code = 3) ∨ (c = .motStop axis ∧ code = 4) ∨
      (c = .gearEngage axis ∧ code = 5) ∨ (c = .gearArm axis ∧ code = 6) ∨ (c = .gearDisengage axis ∧ code = 7) ∨ (c = .switchCancel axis ∧ code = 8)
    let reports := fun (e : Nat) (t : State) => t.lv (pgMot a) MOT.CMD_RESULT = nw (code * 256 + e)
    (may → s.axLocked a = false → m.pending = none → Does c s [.host, .mots] fun t => t.mt a = { m with pending := some code }) ∧
    (is → s.axLocked a = true → Refuses c .host s (reports eState)) ∧
    (is → s.axLocked a = false → m.pending.isSome → Refuses c .host s (reports eBusy)) ∧
    (is → ¬ may → s.axLocked a = false → m.pending = none → Refuses c .host s fun t => reports eState t ∨ (reports eRange t ∧ ¬ ratio))) ∧
  (∀ (g : Fin 4) (s : State), Whole s → s.up = true →
    (s.pushFail g.val = none → Does (.push g) s [.regs, .host, .groups] fun t =>
      t.gr g.val = { s.gr g.val with fresh := (s.gr g.val).fresh ++ [{ words := (List.range 8).map fun i => s.lv pgGroup (GROUP.SEG_W g.val i) }] } ∧
        OneReg s pgGroup (GROUP.QSTATUS g.val) (fun w => putFld w 31 24 eNone) t) ∧
    (∀ e, s.pushFail g.val = some e → Refuses (.push g) .host s fun t =>
      Flagged t pgGroup (4 * g.val + 2) ∧ fld (t.lv pgGroup (GROUP.QSTATUS g.val)) 31 24 = e) ∧
    (Does (.flush g) s [.host, .groups] fun t => t.gr g.val = { s.gr g.val with flushReq := true }))

/-- R181, R187 to R190: the next step pulse, or the change of direction before it; arming a compare unit or a latch, a target already passed included; the
end of a compare pulse. -/
def Obligations.StepCompareLatch : Prop :=
  ∀ (axis : AxisIx) (u : Fin 2) (s : State), Whole s →
    let a := axis.val
    let m := s.mt a
    let k := 2 * a + u.val
    let p := pgMot a
    (∀ t0 up rest, s.up = true → m.pulses = (t0, up) :: rest →
      (up ≠ m.stepDirUp → Does (.stepPulse axis) s [.time, .mots] fun t => t.mt a = { m with stepDirUp := up } ∧
        t.time = { s.time with tick := max s.time.tick (t0 - fld (s.cf p MOT.STEP_TIMING) 15 0) }) ∧
      (up = m.stepDirUp → Does (.stepPulse axis) s [.regs, .time, .mots, .cmps, .latches, .trace,
          .timers] fun t => t.time = { s.time with tick := max s.time.tick t0 } ∧ t.mt a = { m with
        pulses := rest, carried := m.carried - 1, lastPulse := t0, stepPos := if up then m.stepPos + 1 else m.stepPos - 1 })) ∧
    (∀ v, s.up = true →
      let pos := if bt v 16 then s.actNow a else m.p0
      let target := s.cmpPos a u.val
      let valid := bt v 16 = true → s.axFbValid a = true
      (bt v 0 = false → Does (.compareArm axis u v) s [.regs, .cmps] fun t => OneReg s p (MOT.CMP_CTRL u.val) (fun _ => v &&& 0x00110310) t ∧
        t.cm k = { s.cm k with armed := false, missed := false }) ∧
      (bt v 0 = true → cmpPassed (fld v 9 8) pos target = false → Does (.compareArm axis u v) s [.regs, .cmps] fun t =>
        t.cm k = { s.cm k with armed := true, side := sgn (pos - target), missed := false } ∧
          t.lv p (MOT.CMP_CTRL u.val) = v &&& 0x00110310 ∧ t.lv p (MOT.CMP_STATUS u.val) = s.lv p (MOT.CMP_STATUS u.val) &&& 0xFFFF0000) ∧
      (bt v 0 = true → cmpPassed (fld v 9 8) pos target = true → valid → bt v 20 = false → Does (.compareArm axis u v) s [.regs, .cmps, .latches, .trace, .timers] fun t =>
        (t.cm k).armed = false ∧ bt (t.lv p (MOT.CMP_STATUS u.val)) 2 = true ∧ Flagged t p (3 + u.val)) ∧
      (bt v 0 = true → cmpPassed (fld v 9 8) pos target = true → valid → bt v 20 = true → bt v 4 = false →
        Does (.compareArm axis u v) s [.regs, .cmps, .latches, .trace, .timers] fun t => (t.cm k).armed = false ∧ Flagged t p (1 + u.val) ∧
          t.lv p (MOT.CMP_TICK_LO u.val) = loW s.now) ∧
      (bt v 0 = true → Does (.latchArm axis u v) s [.regs, .latches] fun t => t.la k = { s.la k with armed := true, waiting := [] } ∧
        t.lv p (MOT.LATCH_CTRL u.val) = v &&& 2 ∧ t.lv p (MOT.LATCH_STATUS u.val) = s.lv p (MOT.LATCH_STATUS u.val) &&& 0xFFFF0000) ∧
      (bt v 0 = false → Does (.latchArm axis u v) s [.regs, .latches] fun t => t.la k = { s.la k with armed := false } ∧
        OneReg s p (MOT.LATCH_CTRL u.val) (fun _ => v &&& 2) t)) ∧
    (∀ d, s.due (.cmpPulse a u.val) = some d → Does (.comparePulseEnd axis u) s [.time, .cmps, .timers] fun t =>
      t.time = { s.time with tick := max s.time.tick d } ∧ t.due (.cmpPulse a u.val) = none ∧ t.cm k = { s.cm k with pulse := none })

/-! Hoists: rescue and share groups (chapter 8). -/

/-- R211 to R213, Table 8-2: a qualified mains loss asks for RESCUE at the next boundary; a qualified return ends a sequence in STOPPING or SETTLE
and asks for NORMAL, as it does in DONE and ABORTED; RESCUE_START starts the sequence in RESCUE with SEQ = IDLE and the rescue in use, and is
refused otherwise. -/
def Obligations.RescueTriggers : Prop :=
  ∀ s : State, Whole s →
    let a := rescueAxis s.force
    (∀ d, s.due .mainsLoss = some d → rescueEn s.force = true → s.rescue.lost = false → Does .mainsLossQualified s [.regs, .time, .rescue, .trace, .timers, .sched] fun t =>
      t.time = { s.time with tick := max s.time.tick d } ∧ t.rescue = { s.rescue with lost := true, mainsOk := false } ∧
        t.sched = { s.sched with rescueReq := true } ∧ Flagged t pgHoist 10) ∧
    (∀ d, s.due .mainsReturn = some d → rescueEn s.force = true → s.rescue.mainsOk = false →
      Does .mainsReturnQualified s [.regs, .time, .rescue, .trace, .timers, .sched] fun t =>
        let ends := s.rescue.sq = .stopping ∨ s.rescue.sq = .settle
        let asks := ends ∨ s.rescue.sq = .done ∨ s.rescue.sq = .aborted
        t.time = { s.time with tick := max s.time.tick d } ∧ t.rescue.lost = false ∧ t.rescue.mainsOk = true ∧ Flagged t pgHoist 11 ∧
          (ends → t.rescue.sq = .idle) ∧ (¬ ends → t.rescue.sq = s.rescue.sq) ∧ (asks → t.sched = { s.sched with request := some 0 }) ∧
          (¬ asks → t.sched = s.sched)) ∧
    (s.up = true → s.sched.state = 2 → s.rescue.sq = .idle → rescueEn s.force = true → Does .rescueStart s [.regs, .host, .mgr, .axes,
        .mots, .rescue, .trace, .log, .timers] fun t =>
      Flagged t pgHoist 12 ∧ t.rescue.start = s.now ∧ t.rescue.target = none ∧ (t.mt a).pending = none ∧
        ((s.ax a).state.runs = true → t.rescue.sq = .stopping ∧ (t.ax a).state = .stopping) ∧
        ((s.ax a).state = .stopping → t.rescue.sq = .stopping ∧ t.ax a = s.ax a) ∧
        ((s.ax a).state = .ready → (t.ax a).state = .disabled ∧ (t.ax a).sbc = true) ∧
        ((s.ax a).state.moving = false → t.rescue.sq = .settle ∧
          t.due .rescueSettle = some (s.now + msT (fld (s.cf pgHoist HOIST.RESCUE_TIMES) 31 16)))) ∧
    (s.up = true → s.sched.state ≠ 2 ∨ s.rescue.sq ≠ .idle ∨ rescueEn s.force = false →
      Refuses .rescueStart .host s fun t => t.rescue = s.rescue ∧ t.axes = s.axes)

/-- R212, R214 to R216, R218, Table 8-2: each expiry of the sequence in the state that waits for it, and what it leaves: the states in their order, the
converter and its deadlines, HOLD_TQ, the balanced flag, the landing and the move, and the aborts of its two deadlines. -/
def Obligations.RescueSequence : Prop :=
  ∀ (s : State) (d : Nat), Whole s →
    let a := rescueAxis s.force
    let q := s.rescue.sq
    let now := max s.time.tick d
    let at_ := fun t : State => t.time = { s.time with tick := now }
    let w := fun o => s.cf pgHoist o
    (s.due .rescueHold = some d → Does .rescueBrakeHoldExpiry s [.regs, .time, .axes, .mots, .legs, .rescue, .trace, .timers] fun t =>
      at_ t ∧ (t.ax a).state = .disabled ∧ (t.ax a).sbc = true ∧ (∀ l ∈ axUsedLegs s.force a, LegIsOff t l) ∧
        (q = .stopping → t.rescue.sq = .settle ∧ t.due .rescueSettle = some (now + msT (fld (w HOIST.RESCUE_TIMES) 31 16))) ∧
        (q = .landing → t.rescue.sq = .done ∧ t.rescue.convOn = false ∧ Flagged t pgHoist 13 ∧ (∀ l ∈ convLegs s.force, LegIsOff t l) ∧
          fld (t.lv pgHoist HOIST.RESCUE_COUNT) 15 0 = (fld (s.lv pgHoist HOIST.RESCUE_COUNT) 15 0 + 1) % 65536)) ∧
    (s.due .rescueSettle = some d → q = .settle → Does .rescueSettleExpiry s [.time, .rescue, .timers] fun t =>
      at_ t ∧ t.rescue = { s.rescue with
        sq := .converter, convOn := true, convDuty := 0, uSet := (s.rescueUdc : Rat), vInt := 0, iInt := 0 } ∧
        t.due .converterTimeout = some (now + msT (fld (w HOIST.CONV_RAMP) 31 16))) ∧
    (s.due .converterReady = some d → q = .converter → Does .converterReady s [.time, .axes, .rescue, .timers] fun t =>
      at_ t ∧ t.rescue = { s.rescue with sq := .test } ∧ t.ax a = { s.ax a with runPending := true } ∧ t.due .converterTimeout = none) ∧
    (s.due .converterTimeout = some d → q = .converter → Does .converterTimeout s [.regs, .time, .axes, .mots, .legs, .rescue, .safety,
        .trace, .log, .timers] fun t => at_ t ∧ RescueAborted s 3 t) ∧
    (s.due .rescueLift = some d → q = .test → Does .rescueBrakeLiftExpiry s [.time, .rescue, .timers] fun t =>
      at_ t ∧ t.rescue = { s.rescue with averaging := true, sum := 0, cnt := 0 } ∧
        t.due .rescueTest = some (now + msT (fld (w HOIST.TEST_TIMES) 15 0))) ∧
    (s.due .rescueTest = some d → q = .test → s.rescue.averaging = true → Does .rescueTestDone s [.regs, .time, .axes, .mots, .rescue, .timers] fun t =>
      let hold := roundDiv s.rescue.sum s.rescue.cnt
      let bal := hold.natAbs < fld (w HOIST.BAL_T) 15 0 * 32768 ∨ hold = 0
      let up := if bal then !bt (w HOIST.RESCUE_CFG) 17 else decide (hold < 0)
      let here := (List.range (min (landings s.force) 32)).find? fun n =>
        decide ((s.axPos a - landing s.force n).natAbs ≤ (w HOIST.LAND_TOL).toNat * 65536)
      let goes := fun (n : Nat) (up : Bool) => t.rescue.target = some n ∧ t.rescue.sq = .travel ∧
        bt (t.lv pgHoist HOIST.RESCUE_STATUS) 8 = !up ∧ t.lv (pgMot a) MOT.TARGET_LO = loW (landing s.force n) ∧
        t.lv (pgMot a) MOT.TARGET_HI = hiW (landing s.force n) ∧ t.lv (pgMot a) MOT.V_MAX = w HOIST.RESCUE_V ∧
        t.lv (pgMot a) MOT.ACC = w HOIST.RESCUE_ACC ∧ t.lv (pgMot a) MOT.DEC = w HOIST.RESCUE_ACC ∧
        t.lv (pgMot a) MOT.JERK = w HOIST.RESCUE_JERK ∧ (t.mt a).pending = some 1 ∧
        t.due .rescueTravel = some (now + msT (fld (w HOIST.TRAVEL_MAX) 19 0))
      at_ t ∧ t.rescue.averaging = false ∧ t.lv pgHoist HOIST.HOLD_TQ = iw hold ∧
        (bt (t.lv pgHoist HOIST.RESCUE_STATUS) 9 = true ↔ bal) ∧
        (∀ n, here = some n → t.rescue.target = some n ∧ t.rescue.sq = .landing ∧ (t.ax a).sbc = true ∧
          t.due .rescueHold = some (now + msT (fld (w HOIST.RESCUE_TIMES) 15 0))) ∧
        (here = none → ∀ n, landingAhead s.force (s.axPos a) up = some n → goes n up) ∧
        (here = none → landingAhead s.force (s.axPos a) up = none → ∀ n, landingAhead s.force (s.axPos a) (!up) = some n → goes n (!up))) ∧
    (s.due .rescueTravel = some d → q = .travel → Does .rescueTravelTimeout s [.regs, .time, .axes, .mots, .legs, .rescue, .safety,
        .trace, .log, .timers] fun t => at_ t ∧ RescueAborted s 6 t)

/-- R205, R207 to R209, R221: what arrives of a share group: a reference is kept for its boundary, or counts as late; a second leader is a mismatch on
every local member; the leader notes a node's report, and a member holds its CRC against the leader's; ASC_RELEASE removes the gates. -/
def Obligations.ShareMessages : Prop :=
  (∀ (port : PortIx) (node : BitVec 10) (group : Byte) (tot present : Word) (stamp : BitVec 64) (sq : BitVec 16) (bridged : Bool) (s : State) (g : Nat),
    Whole s → s.up = true → bilvaEn s.force port.val = true → node.toNat ≠ nodeNo s.force → groupOf s.force port.val group = some g →
    let b1 := s.time.frameStart + s.time.curLen
    let late := (stamp.toNat : Int) < s.ntAt b1 ∧ s.stampIs stamp.toNat b1 = false ∨ s.time.published = true ∧ s.stampIs stamp.toNat b1 = true ∨
      s.time.published = true ∧ (stamp.toNat : Int) < s.ntAt b1
    let two := shareLeader s.force g = true ∨ ∃ n, (s.sh g).leaderNode = some n ∧ n ≠ node.toNat
    (bridged = true → exec (.shareRef port node group tot present stamp sq bridged) s = .next s) ∧
    (bridged = false → Does (.shareRef port node group tot present stamp sq bridged) s [.regs, .axes, .shares, .safety, .trace, .log] fun t =>
      (t.sh g).leaderNode = some node.toNat ∧ (t.sh g).sq = sq ∧
        (late → (t.sh g).refs = (s.sh g).refs ∧ t.lv pgHoist (HOIST.REF_COUNT g) = countUpHigh (s.lv pgHoist (HOIST.REF_COUNT g))) ∧
        (¬ late → (t.sh g).refs = (s.sh g).refs ++ [(stamp.toNat, tot.toInt, present)] ∧
          t.lv pgHoist (HOIST.REF_COUNT g) = s.lv pgHoist (HOIST.REF_COUNT g)) ∧
        (two → (t.sh g).mismatch = true ∧
          ((s.sh g).mismatch = false → bt (t.lv pgHoist pageFault) (6 + g) = true ∧ ∀ a ∈ shareAxes s.force g, t.srcOn srcShareMis a = true)) ∧
        (¬ two → (t.sh g).mismatch = (s.sh g).mismatch ∧ t.safety = s.safety))) ∧
  (∀ (port : PortIx) (node : BitVec 10) (group : Byte) (slots : Word) (crc : BitVec 16) (s : State) (g : Nat),
    Whole s → s.up = true → bilvaEn s.force port.val = true → node.toNat ≠ nodeNo s.force → groupOf s.force port.val group = some g →
    (shareLeader s.force g = true → Does (.shareStat port node group slots crc) s [.shares] fun t =>
      t.sh g = { s.sh g with
        nodes := (node.toNat, 0, slots, crc == slotCrc s.force g) :: (s.sh g).nodes.filter fun n => n.1 ≠ node.toNat }) ∧
    (shareLeader s.force g = false → (s.sh g).leaderNode = some node.toNat → Does (.shareStat port node group slots crc) s [.regs, .axes, .shares, .safety, .trace, .log] fun t =>
      ((t.sh g).mismatch = true ↔ crc ≠ slotCrc s.force g) ∧
        (crc = slotCrc s.force g → (s.sh g).mismatch = true → ∀ a ∈ shareAxes s.force g, t.srcOn srcShareMis a = false) ∧
        (crc ≠ slotCrc s.force g → (s.sh g).mismatch = false → bt (t.lv pgHoist pageFault) (6 + g) = true ∧
          ∀ a ∈ shareAxes s.force g, t.srcOn srcShareMis a = true)) ∧
    (shareLeader s.force g = false → (s.sh g).leaderNode ≠ some node.toNat → exec (.shareStat port node group slots crc) s = .next s)) ∧
  (∀ (axis : AxisIx) (s : State) d, Whole s → s.due (.ascRelease axis.val) = some d → (s.ax axis.val).asc = true →
    Does (.ascRelease axis) s [.time, .axes, .mots, .legs, .timers] fun t =>
      t.time = { s.time with tick := max s.time.tick d } ∧ (t.ax axis.val).asc = false ∧ (t.ax axis.val).sto = true ∧
        (t.ax axis.val).state = (s.ax axis.val).state ∧ ∀ l ∈ axUsedLegs s.force axis.val, LegIsOff t l)

/-! Safety functions (chapter 11). -/

/-- R286, R289, R290: a demand from STOIN acts on every axis of STO_AXES at once and is read back 10 µs later; a demand that is active is no new one; it
ends at the first boundary 10 ms after STOIN is healthy; a readback that fails is STO_PATH; a test of the path falls due. -/
def Obligations.SafeTorqueOff : Prop :=
  ∀ s : State, Whole s →
    (s.linked = true → ¬ (s.field.sto = true ∧ s.safety.stoActive = true) → Does .stoDemand s [.regs, .axes, .mots, .legs, .rescue,
        .field, .safety, .trace, .log, .timers] fun t =>
      t.safety.stoActive = true ∧ t.safety.stoOut = false ∧ t.safety.lastStoTick = s.now ∧ t.field = { s.field with sto := true } ∧
        Flagged t pgSafe 1 ∧ t.srcOn srcSto 16 = true ∧ t.srcOn srcStoTest 16 = false ∧ t.due .stoRelease = none ∧
        t.due .stoReadback = some (s.now + usT 10) ∧
        fld (t.lv pgSafe SAFE.STO_COUNT) 15 0 = (fld (s.lv pgSafe SAFE.STO_COUNT) 15 0 + 1) % 65536 ∧
        ∀ a ∈ stoAxes s.force, (t.ax a).sto = true ∧ (t.ax a).sbc = true ∧ (∀ l ∈ axUsedLegs s.force a, LegIsOff t l) ∧
          ((s.ax a).state ≠ .retired → (React.sto, srcSto, true) ∈ (t.ax a).raised)) ∧
    (s.linked = true → s.field.sto = true → s.safety.stoActive = true → exec .stoDemand s = .next s) ∧
    (∀ d, s.due .stoRelease = some d → s.linked = true → s.field.sto = false → Does .stoRelease s [.regs, .time, .safety, .trace, .timers] fun t =>
      t.time = { s.time with tick := max s.time.tick (s.boundaryFrom d) } ∧ t.due .stoRelease = none ∧ t.safety.stoActive = false ∧
        t.safety.stoOut = !s.safety.stoPath ∧ t.srcOn srcSto 16 = false ∧ Flagged t pgSafe 2) ∧
    (∀ d, s.due .stoRelease = some d → s.field.sto = true → exec .stoRelease s = .next s) ∧
    (∀ d, s.due .stoReadback = some d →
      let at_ := fun t : State => t.time = { s.time with tick := max s.time.tick d } ∧ t.due .stoReadback = none
      Does (.stoReadback true) s [.time, .timers] at_ ∧
      Does (.stoReadback false) s [.regs, .time, .axes, .mots, .legs, .safety, .trace, .log, .timers] fun t =>
        at_ t ∧ t.safety.stoPath = true ∧ t.safety.stoOut = false ∧ t.srcOn srcStoPath 16 = true ∧ bt (t.lv pgSafe pageFault) 4 = true ∧
          (s.srcOn srcStoPath 16 = false → ∀ a < 16, codeReact (reactCode s.force srcStoPath a) = some .sto → (s.ax a).state ≠ .retired →
            (t.ax a).sto = true ∧ (t.ax a).sbc = true ∧ ∀ l ∈ axUsedLegs s.force a, LegIsOff t l)) ∧
    (let hours := fld (s.cf pgSafe SAFE.STO_TEST) 13 0
     s.linked = true → hours ≠ 0 → s.srcOn srcStoTest 16 = false → Does .stoTestDue s [.regs, .time, .axes, .safety, .trace, .log] fun t =>
      t.time = { s.time with tick := max s.time.tick (s.safety.lastStoTick + hours * hourT) } ∧ bt (t.lv pgSafe pageFault) 3 = true ∧
        t.srcOn srcStoTest 16 = true ∧ Flagged t pgSafe 0)

/-- R291 to R293, R301: SEL_HOST takes a selection of enabled functions and refuses any other whole; a selected monitor starts SEL_DELAY later from
the present position; the end of SS1 applies the brake first where one needs time, and otherwise is STO; the end of DEGRADED is a fault. -/
def Obligations.SafetySelections : Prop :=
  (∀ (v : Word) (s : State), Whole s → s.up = true →
    ((∀ a < 8, ∀ f < 4, bt v (4 * a + f) = true → fnEn s.force a f = true) → Does (.selHost v) s [.regs, .host] fun t =>
      OneReg s pgSafe SAFE.SEL_HOST (fun _ => v) t) ∧
    (∀ a < 8, ∀ f < 4, bt v (4 * a + f) = true → fnEn s.force a f = false → Refuses (.selHost v) .host s fun t =>
      t.lv pgSafe SAFE.SEL_HOST = s.lv pgSafe SAFE.SEL_HOST)) ∧
  (∀ (axis : AxisIx) (s : State) (d : Nat), Whole s →
    let a := axis.val
    let x := s.ax a
    let now := max s.time.tick d
    let at_ := fun t : State => t.time = { s.time with tick := now }
    (∀ fn, s.due (.monitor a (fnIx fn)) = some d →
      let m := x.mon (fnIx fn)
      Does (.safetyMonitorStart axis fn) s [.time, .axes, .timers] fun t => at_ t ∧ t.due (.monitor a (fnIx fn)) = none ∧
        (m.selected = true → t.ax a = x.setMon (fnIx fn) { m with running := true, ref := s.axPos a }) ∧
        (m.selected = false → t.axes = s.axes)) ∧
    (s.due (.ss1 a) = some d → x.ss1.isSome →
      (x.react = some .ss1 → brkSetT s.force a ≠ 0 → Does (.ss1Timeout axis) s [.time, .axes, .mots, .legs, .timers] fun t =>
        at_ t ∧ (t.ax a).ss1 = none ∧ (t.ax a).sbc = true ∧ (t.ax a).state = x.state ∧
          t.due (.brakeSet a) = some (now + brkSetT s.force a)) ∧
      (x.react ≠ some .ss1 ∨ brkSetT s.force a = 0 → Does (.ss1Timeout axis) s [.time, .axes, .mots, .legs, .timers] fun t =>
        at_ t ∧ (t.ax a).ss1 = none ∧ (t.ax a).sbc = true ∧ (t.ax a).sto = true ∧ (t.ax a).react = some .sto ∧
          (t.ax a).state = (if x.state = .retired ∨ x.toRetired = true then .retired else if x.faulty then .fault else .disabled) ∧
          ∀ l ∈ axUsedLegs s.force a, LegIsOff t l)) ∧
    (s.due (.degraded a) = some d → x.react = some .degraded → Does (.degradedExpired axis) s [.regs, .time, .axes, .safety, .trace,
        .log, .timers] fun t =>
      at_ t ∧ bt (t.lv pgSafe pageFault) 0 = true ∧ t.srcOn srcDegExp a = false ∧
        (s.srcOn srcDegExp a = false → Flagged t pgSafe 0 ∧
          ∀ r, codeReact (reactCode s.force srcDegExp a) = some r → (r, srcDegExp, false) ∈ (t.ax a).raised)))

/-- R279, R298, R301: the brake is released BRK_REL_T after RUN and applied before the gates go; its inputs are held against it BRK_FB_T after every
change.
R295, R297: a test pulse passes on an input of its own source that read low in it; a pulse that an input or the output does not follow, and a low on
an input of the other source, is a SIN_FAULT of the slot; slots out of use and inputs that are off stay as they are. -/
def Obligations.BrakesAndTestPulses : Prop :=
  (∀ (axis : AxisIx) (s : State) (d : Nat), Whole s →
     let a := axis.val
     let x := s.ax a
     let now := max s.time.tick d
     let at_ := fun t : State => t.time = { s.time with tick := now }
     let off := fun t : State => ∀ l ∈ axUsedLegs s.force a, LegIsOff t l
     (s.due (.brakeRelease a) = some d → Does (.brakeRelease axis) s [.time, .axes, .timers] fun t => at_ t ∧
       (x.state.moving = true → t.ax a = { x with sbc := false } ∧
         (hasBrake s.force a = true → x.sbc = true → ∀ i ∈ brakeSlots s.force a, t.due (.brakeFb i a) = some (now + brkFbT s.force a))) ∧
       (x.state.moving = false → t.axes = s.axes)) ∧
     (s.due (.brakeSet a) = some d → Does (.brakeSetExpiry axis) s [.regs, .time, .axes, .mots, .legs, .timers] fun t => at_ t ∧
       (x.settling = true → x.stopToReady = true → x.react ≠ some .degraded →
         (t.ax a).state = .ready ∧ (t.ax a).sbc = true ∧ (t.ax a).settling = false ∧ off t) ∧
       (x.settling = true → x.stopToReady = false ∨ x.react = some .degraded →
         (t.ax a).state = (if x.state = .retired ∨ x.toRetired = true then .retired else .fault) ∧ (t.ax a).react = some .sto ∧
           (t.ax a).sto = true ∧ (t.ax a).sbc = true ∧ fld (t.lv pgSafe (SAFE.LAST_SRC a)) 7 0 = srcFbLost ∧ off t) ∧
       (x.settling = false → x.react = some .ss1 →
         (t.ax a).state = (if x.state = .retired ∨ x.toRetired = true then .retired else if x.faulty then .fault else .disabled) ∧
           (t.ax a).react = some .sto ∧ (t.ax a).sto = true ∧ (t.ax a).sbc = true ∧ off t)) ∧
     (∀ slot : Fin 8, s.due (.brakeFb slot.val a) = some d → Does (.brakeFbTimeout slot axis) s [.regs, .time, .axes, .safety, .trace,
         .log, .timers] fun t => at_ t ∧
       (slot.val ∈ brakeSlots s.force a → s.brakeShown slot.val a = false → t.srcOn srcBrakeFb a = true ∧ (s.srcOn srcBrakeFb a = false →
         Flagged t pgSafe 0 ∧ ∀ r, codeReact (reactCode s.force srcBrakeFb a) = some r → (r, srcBrakeFb, false) ∈ (t.ax a).raised)) ∧
       (slot.val ∉ brakeSlots s.force a ∨ s.brakeShown slot.val a = true → t.axes = s.axes ∧ t.safety = s.safety))) ∧
  (∀ (tp : Fin 2) (low high : BitVec 16) (followed : Bool) (s : State), Whole s → s.linked = true →
     Does (.testPulse tp low high followed) s [.regs, .axes, .field, .sins, .safety, .trace, .log] fun t =>
       (∀ n : Fin 2, t.field.tpFollowed.getLsbD n.val = if n = tp then followed else s.field.tpFollowed.getLsbD n.val) ∧
         ∀ i < 8,
           let w := sinCfg s.force i
           let di := fld w 3 0
           let own := sinFunc s.force i ≠ 0 ∧ fld w 9 8 = tp.val + 1
           let other := sinFunc s.force i ≠ 0 ∧ fld w 9 8 ≠ 0 ∧ fld w 9 8 ≠ tp.val + 1
           let fault := t.si i = ⟨true, 0⟩ ∧ t.srcOn srcSinFault 16 = true ∧ Flagged t pgSafe 6 ∧ bt (t.lv pgSafe pageFault) 1 = true
           (own → followed = false → fault) ∧
           (own → followed = true → s.diOn di = true → low.getLsbD di = false → fault) ∧
           (own → followed = true → s.diOn di = true → low.getLsbD di = true → t.si i = { s.si i with passes := (s.si i).passes + 1 }) ∧
           (own → followed = true → s.diOn di = false → t.si i = s.si i) ∧
           (other → s.diOn di = true → high.getLsbD di = false → fault) ∧
           (other → s.diOn di = false ∨ high.getLsbD di = true → t.si i = s.si i) ∧
           (¬ own → ¬ other → t.si i = s.si i))

/-! Field inputs and outputs (chapter 12). -/

/-- R28, R29, R286, R306 to R309, R311, R315, R316: FLINK's frames start at multiples of 250 ticks. An uplink frame with a bad CRC counts and is not
used; while the link is down good frames only count towards its recovery; a good one carries STOIN, VOK, VSAG and a sample of every input. A
downlink frame carries every output's bit. The loss of the link stops inputs and outputs and is a demand; it is up again after 1000 frames. -/
def Obligations.FieldLink : Prop :=
  ∀ s : State, Whole s → s.linked = true →
    (∀ frame : BitVec 25,
      let at_ := max (s.field.lastUp + 250) (s.now / 250 * 250)
      let now := max s.now at_
      let timed := fun t : State => t.time = { s.time with tick := now } ∧ t.field.lastUp = at_
      (flinkOk frame = false → Does (.flinkUplinkFrame frame) s [.regs, .time, .field] fun t => timed t ∧ t.field.recoverCnt = 0 ∧
        OneReg s pgFio FIO.FLINK_CRC countUp t) ∧
      (flinkOk frame = true → s.field.flinkUp = false → Does (.flinkUplinkFrame frame) s [.time, .field] fun t =>
        timed t ∧ t.field = { s.field with lastUp := at_, recoverCnt := s.field.recoverCnt + 1 }) ∧
      (flinkOk frame = true → s.field.flinkUp = true → Does (.flinkUplinkFrame frame) s [.regs, .time, .axes, .mots, .latches, .legs,
          .rescue, .dis, .field, .safety, .trace, .log, .timers] fun t =>
        timed t ∧ FaultJudged s t ∧ t.field.sag = frame.getLsbD 5 ∧ t.field.cut = !frame.getLsbD 22 ∧ t.field.sto = frame.getLsbD 23 ∧
          (frame.getLsbD 23 = true → t.safety.stoActive = true) ∧
          (frame.getLsbD 23 = false → s.safety.stoActive = true → s.safety.stoHealthySince = none →
            t.due .stoRelease = some (at_ + msT 10)) ∧
          ∀ i < 16,
            let b := frame.getLsbD (6 + i)
            let d := s.di i
            (t.di i).level = d.level ∧
              (frame.getLsbD 22 = true → (t.di i).raw = b ∧ (t.di i).cnt =
                if b = d.level ∧ d.stale = false then 0 else if d.cnt ≠ 0 ∧ d.raw = b then d.cnt + 1 else 1) ∧
              (frame.getLsbD 22 = false → (t.di i).raw = d.raw ∧ (s.field.cut = false → (t.di i).stale = true ∧ (t.di i).cnt = 0)))) ∧
    (let at_ := max (s.field.lastDn + 250) (s.now / 250 * 250)
     Does .flinkDownlinkFrame s [.regs, .time, .axes, .dos, .field, .safety, .trace, .log] fun t =>
      t.time = { s.time with tick := max s.now at_ } ∧ t.field.lastDn = at_ ∧ FaultJudged s t ∧
        ∀ n < 8,
          let b := (s.reach at_).doBit n
          t.fo n = if (s.fo n).sent = b then s.fo n else { s.fo n with sent := b, change := at_, lowRun := 0 }) ∧
    (s.field.flinkUp = true → Does .flinkLost s [.regs, .time, .axes, .mots, .legs, .rescue, .dis, .field, .safety, .trace, .log,
        .timers] fun t =>
      t.time = { s.time with tick := max s.now (s.field.lastUp + 1000) } ∧ t.field.flinkUp = false ∧ t.field.dnApplied = none ∧
        t.field.sto = true ∧ t.safety.stoActive = true ∧ t.srcOn srcFlink 16 = true ∧ bt (t.lv pgFio pageFault) 3 = true ∧ Flagged t pgFio 4 ∧
        FaultJudged s t ∧ ∀ i < 16, (t.di i).stale = true ∧ (t.di i).cnt = 0 ∧ (t.di i).wire = false ∧ (t.di i).level = (s.di i).level) ∧
    (s.field.flinkUp = false → exec .flinkLost s = .next s) ∧
    (s.field.flinkUp = false → 1000 ≤ s.field.recoverCnt → Does .flinkRecovered s [.regs, .axes, .field, .safety, .trace, .log] fun t =>
      t.field.flinkUp = true ∧ t.field.recoverCnt = 0 ∧ t.field.outSince = s.now ∧ Flagged t pgFio 5 ∧ t.srcOn srcFlink 16 = false ∧
        FaultJudged s t) ∧
    (s.field.flinkUp = true ∨ s.field.recoverCnt < 1000 → exec .flinkRecovered s = .next s)

/-- R307, R308, R310, R312, R314: a level is accepted after DEB samples, with the event of its edge; an auxiliary uplink word carries open wires, test
pulses, readbacks and measurements, and the second low readback of an output that should be high is an onset; a downlink word is applied with
its second copy; the field die watches the wires that it names. -/
def Obligations.FieldChannels : Prop :=
  ∀ s : State, Whole s → s.linked = true →
    (∀ di : Fin 16,
      let d := s.di di.val
      let deb := fld (s.cf pgFio (FIO.DI_CFG di.val)) 31 16
      (d.cnt ≠ 0 → deb ≤ d.cnt → Does (.diDebounceAccept di) s [.regs, .power, .axes, .drives, .ctxs, .mots, .latches, .shares, .chop,
          .dis, .sins, .safety, .trace, .log, .timers] fun t =>
        t.di di.val = { d with level := d.raw, cnt := 0, stale := false } ∧
          (d.raw ≠ d.level → diEdge s.force di.val d.raw = true → Flagged t pgFio (16 + di.val))) ∧
      (d.cnt = 0 ∨ d.cnt < deb → exec (.diDebounceAccept di) s = .next s) ∧
      (s.wireWatched di.val = true → Does (.openWireSet di) s [.dis] fun t => t.di di.val = { d with wire := true }) ∧
      (s.wireWatched di.val = false → exec (.openWireSet di) s = .next s) ∧
      (Does (.openWireClear di) s [.dis] fun t => t.di di.val = { d with wire := false })) ∧
    (∀ n : Fin 8,
      (s.foDriven n.val = true → Does (.doThermalOff n) s [.dos, .timers] fun t =>
        t.fo n.val = { s.fo n.val with thermalOff := true } ∧ t.due (.doRetry n.val) = some (s.now + msT 100)) ∧
      (s.foDriven n.val = false → exec (.doThermalOff n) s = .next s) ∧
      (∀ d, s.due (.doRetry n.val) = some d → Does (.doThermalRetry n) s [.time, .dos, .timers] fun t =>
        t.time = { s.time with tick := max s.time.tick d } ∧ t.fo n.val = { s.fo n.val with thermalOff := false })) ∧
    (∀ w : BitVec 64, s.field.flinkUp = true →
      (s.field.dnLast ≠ some w → Does (.flinkAuxWord true w) s [.field] fun t => t.field = { s.field with dnLast := some w }) ∧
      (s.field.dnLast = some w → Does (.flinkAuxWord true w) s [.field, .dis] fun t =>
        t.field = { s.field with dnApplied := some w } ∧
          ∀ i < 16, t.di i = if w.getLsbD (32 + i) then s.di i else { s.di i with wire := false }) ∧
      Does (.flinkAuxWord false w) s [.regs, .stage, .axes, .fbs, .mots, .legs, .lanes, .cans, .dis, .dos, .field, .sins, .safety,
          .trace, .log, .chans, .timers] fun t =>
        FaultJudged s t ∧ t.field.tpFollowed = w.extractLsb' 38 2 ∧ t.lv pgFio FIO.VF_MV = nw (w.extractLsb' 16 16).toNat ∧
          t.lv pgFio FIO.FIELD_TEMP = nw ((w.extractLsb' 8 8).toInt * 16 % 65536).toNat ∧
          (∀ i < 16, t.di i = { s.di i with openWire := w.getLsbD (48 + i) }) ∧
          (∀ n < 8,
            let high := w.getLsbD (40 + n)
            let o := s.fo n
            (t.fo n).readback = high ∧
              (high = true → (t.fo n).lowRun = 0 ∧ (t.fo n).retry = false) ∧
              (high = false → s.outJudged n = true → o.lowRun = 1 → o.retry = false → o.retired = false → s.chRet 7 n = false →
                CountsOnset s 7 n s.now t)) ∧
          (∀ tp < 2, s.field.tpFollowed.getLsbD tp = true → w.getLsbD (38 + tp) = false → ∀ i < 8, sinFunc s.force i ≠ 0 →
            fld (sinCfg s.force i) 9 8 = tp + 1 → t.si i = ⟨true, 0⟩ ∧ t.srcOn srcSinFault 16 = true)) ∧
    (Does .vfSag s [.regs, .axes, .field, .safety, .trace, .log] fun t => t.field.sag = true ∧ FaultJudged s t ∧
      (s.field.sag = false → t.srcOn srcVfSag 16 = true ∧ bt (t.lv pgFio pageFault) 1 = true ∧ Flagged t pgFio 1)) ∧
    (Does .vfSagClear s [.regs, .axes, .field, .safety, .trace, .log] fun t => t.field.sag = false ∧ FaultJudged s t ∧
      (s.field.sag = true → t.srcOn srcVfSag 16 = false)) ∧
    (Does .vfCut s [.regs, .axes, .dis, .field, .safety, .trace, .log] fun t => t.field.cut = true ∧ FaultJudged s t ∧
      (s.field.cut = false → t.field.outSince = s.now ∧ t.srcOn srcVfCut 16 = true ∧ bt (t.lv pgFio pageFault) 2 = true ∧ Flagged t pgFio 2 ∧
        ∀ i < 16, (t.di i).stale = true ∧ (t.di i).cnt = 0)) ∧
    (Does .vfRestored s [.regs, .axes, .dis, .field, .safety, .trace, .log] fun t => t.field.cut = false ∧ FaultJudged s t ∧
      (s.field.cut = true → t.field.outSince = s.now ∧ t.srcOn srcVfCut 16 = false ∧ Flagged t pgFio 3))

/-! CAN FD ports (chapter 14). -/

/-- R342, R345, R346, R353 to R355, R382: a frame of the bus counts and is delivered under RX_ROUTE: into the next slot of the receive window, over the
oldest unlocked one with OVERWRITE, or lost with RX_OVERFLOW; or to a DMA channel, whose line holds one record. A Bilva frame of this device's own
number is a conflict, one of a wrong length counts, and a bridge forwards the types of its list. Readers lock and release slots. -/
def Obligations.CanReception : Prop :=
  ∀ (port : PortIx) (s : State), Whole s →
    let p := port.val
    let c := s.force
    let x := s.cn p
    (∀ f : CanFrame,
      let heard := s.canOn p = true ∧ (f.fdf = true → canFd c p = true)
      let bilva := bilvaEn c p = true ∧ bt f.word0 29 = true ∧ f.fdf = true
      let route := fld (canCfg c p) 10 9
      let i := x.nextSlot % max 1 (rxWin c p)
      let record := recordOf f x.sqNo.toNat s.now false
      (¬ heard → exec (.canFrameReceived port f) s = .next s) ∧
      (heard → Does (.canFrameReceived port f) s [.regs, .mem, .eccBad, .axes, .dma, .cans, .safety, .trace, .log] fun t =>
        fld (t.lv (pgCan p) CAN.FRAME_COUNT) 15 0 = (fld (s.lv (pgCan p) CAN.FRAME_COUNT) 15 0 + 1) % 65536 ∧ (t.cn p).integrating = false ∧
          (¬ bilva → (t.cn p).sqNo = x.sqNo + 1) ∧
          (¬ bilva → route = 0 ∨ route = 2 → i ∉ x.unread →
            t.wordsAt (rxAddr p i) 20 = record ∧ (t.cn p).unread = x.unread ++ [i] ∧ Flagged t (pgCan p) 4) ∧
          (¬ bilva → route = 0 ∨ route = 2 → i ∈ x.unread →
            t.lv (pgCan p) CAN.RX_OVERFLOW = countUp (s.lv (pgCan p) CAN.RX_OVERFLOW) ∧ Flagged t (pgCan p) 6 ∧
              (bt (canCfg c p) 11 = false → t.mem = s.mem ∧ (t.cn p).unread = x.unread) ∧
              (∀ j, bt (canCfg c p) 11 = true → (x.unread.find? fun j => !x.locks.any (·.1 = j)) = some j →
                t.wordsAt (rxAddr p j) 20 = record ∧ (t.cn p).unread = x.unread.filter (· ≠ j) ++ [j])) ∧
          (¬ bilva → route = 1 →
            let ch := fld (canCfg c p) 21 16
            t.mem = s.mem ∧ ((s.dm ch).record = none → (t.dm ch).record = some record ∧ Flagged t (pgCan p) 4) ∧
              ((s.dm ch).record.isSome → (t.dm ch).record = (s.dm ch).record ∧
                t.lv (pgCan p) CAN.RX_OVERFLOW = countUp (s.lv (pgCan p) CAN.RX_OVERFLOW) ∧ Flagged t (pgCan p) 6)) ∧
          (bilva → bNode f.word0 = nodeNo c → t.srcOn srcNodeConf 16 = true ∧ Flagged t pgBilva 0 ∧ t.mem = s.mem) ∧
          (bilva → bNode f.word0 ≠ nodeNo c → bLenOk (bType f.word0) f.data.length = false →
            t.lv pgBilva BILVA.BAD_COUNT = countUp (s.lv pgBilva BILVA.BAD_COUNT) ∧ Flagged t pgBilva 1 ∧ t.mem = s.mem) ∧
          (bilva → bNode f.word0 ≠ nodeNo c → bLenOk (bType f.word0) f.data.length = true → bridgeEn c = true →
            bForwards c (bType f.word0) = true →
              let q := (s.cn (1 - p)).fwdQ
              (t.cn (1 - p)).fwdQ = (if 64 ≤ q.length then q.drop 1 else q) ++ [f]))) ∧
    (∀ (slot : Fin 128) (r : Reader), s.up = true → slot.val < rxWin c p → Does (.rxSlotLock port slot r) s [.cans] fun t =>
      let kept := match x.locks.find? fun l => l.2 = r with
        | some l => if l.1 = slot.val then x.locks else x.locks.filter fun l => l.2 ≠ r
        | none => x.locks
      t.cn p = { x with
        locks := if slot.val ∈ x.unread ∧ ¬ kept.any (·.1 = slot.val) then kept ++ [(slot.val, r)] else kept }) ∧
    (∀ (slot : Fin 128) (r : Reader), s.up = true → (slot.val, r) ∈ x.locks → Does (.rxSlotRelease port slot r) s [.cans] fun t =>
      t.cn p = { x with locks := x.locks.filter (· ≠ (slot.val, r)), unread := x.unread.filter (· ≠ slot.val) }) ∧
    (∀ (slot : Fin 128) (r : Reader), (slot.val, r) ∉ x.locks → exec (.rxSlotRelease port slot r) s = .next s)

/-- R341, R347 to R349, R355, R359: a buffer whose record is admissible waits for the arbitration, any other is refused; the lowest identifier wins;
TX_ABORT takes back what is not in arbitration; a frame that is done counts, and a SYNC is followed by its FOLLOW_UP; the oldest frame of the
forwarding queue joins the port's own.
R341, R349 to R351: the error counters and their events, bus-off, its recovery under AUTO and HOST, and the end of the source when neither port is
off. -/
def Obligations.CanTransmissionAndErrors : Prop :=
  (∀ (port : PortIx) (s : State), Whole s → s.up = true →
     let p := port.val
     let x := s.cn p
     (∀ v : Word, (∀ b < 16, bt v b = true → s.txFail p b = none) → Does (.canTxRequest port v) s [.host, .cans] fun t =>
       (t.cn p).txReq = x.txReq ||| v.extractLsb' 0 16 ∧ (x.sending.isSome → (t.cn p).sending = x.sending) ∧
         (x.sending = none → s.canOn p = true → Arbitrates t p)) ∧
     (∀ b < 16, ∀ e, s.txFail p b = some e → Does (.canTxRequest port (nw (2 ^ b))) s [.regs, .host, .mgr, .cans, .trace, .log] fun t =>
       (t.cn p).txReq = x.txReq ∧ t.lv pgSys SYS.REFUSED_COUNT = countUp (s.lv pgSys SYS.REFUSED_COUNT) ∧ Flagged t pgSys 3 ∧
         t.host.prevRefused = true) ∧
     (∀ v : Word, Does (.canTxAbort port v) s [.host, .cans] fun t => (t.cn p).sending = x.sending ∧ ∀ b : Fin 16,
       (t.cn p).txReq.getLsbD b.val = (x.txReq.getLsbD b.val && (!bt v b.val || decide (x.sending = some b)))) ∧
     (∀ (tdc : Byte) (k : Nat), s.canOn p = true → (match x.sending with | some b => some b.val | none => s.txWinner p) = some k →
       Does (.canTxDone port tdc) s [.regs, .mem, .eccBad, .axes, .dma, .cans, .safety, .trace, .log] fun t =>
         let done := x.bilva.eraseIdx (k - 16)
         let own := canMode s.force p = 0
         Arbitrates t p ∧
           fld (t.lv (pgCan p) CAN.FRAME_COUNT) 31 16 = (fld (s.lv (pgCan p) CAN.FRAME_COUNT) 31 16 + 1) % 65536 ∧
           (k < 16 → (t.cn p).txReq = x.txReq &&& ~~~(BitVec.ofNat 16 (2 ^ k)) ∧ bt (t.lv (pgCan p) CAN.TX_DONE) k = true ∧
             Flagged t (pgCan p) 5) ∧
           (∀ q, 16 ≤ k → own → x.bilva[k - 16]? = some q → (t.cn p).txReq = x.txReq ∧
             (q.sync = none → (t.cn p).bilva = done) ∧
             (q.fwd = true → p = 1 →
               fld (t.lv pgBilva BILVA.FWD_COUNT) 31 16 = (fld (s.lv pgBilva BILVA.FWD_COUNT) 31 16 + 1) % 65536) ∧
             (q.fwd = true → p = 0 →
               fld (t.lv pgBilva BILVA.FWD_COUNT) 15 0 = (fld (s.lv pgBilva BILVA.FWD_COUNT) 15 0 + 1) % 65536) ∧
             (∀ n, q.sync = some n → bilvaEn s.force p = true → ∃ f, (t.cn p).bilva = done ++ [f] ∧ bType f.f.word0 = 2 ∧
               bNode f.f.word0 = nodeNo s.force ∧ fld f.f.word0 7 0 = n.toNat ∧ f.fwd = false))) ∧
     (∀ (tdc : Byte), s.canOn p = false → exec (.canTxDone port tdc) s = .next s) ∧
     (∀ f q, x.fwdQ = f :: q → bridgeEn s.force = true → s.bgOn 4 = true → Does (.bilvaForward port) s [.cans] fun t =>
       t.cn p = { x with fwdQ := q, bilva := x.bilva ++ [⟨f, true, none⟩] }) ∧
     (x.fwdQ = [] ∨ bridgeEn s.force = false ∨ s.bgOn 4 = false → exec (.bilvaForward port) s = .next s)) ∧
  (∀ (port : PortIx) (s : State), Whole s → s.up = true →
     let p := port.val
     let x := s.cn p
     let cfg := canCfg s.force p
     let mode := canMode s.force p
     (∀ (tec : BitVec 9) (rec : Byte), s.canOn p = true →
       (bt cfg 5 = true → Does (.canBusError port tec rec true) s [.cans] fun t => t.cn p = { x with integrating := true, sending := none }) ∧
       (mode = 1 ∨ mode = 2 → exec (.canBusError port tec rec false) s = .next s) ∧
       (mode ≠ 1 → mode ≠ 2 → Does (.canBusError port tec rec false) s [.regs, .stage, .axes, .fbs, .mots, .legs, .lanes, .cans, .dos,
           .safety, .trace, .log, .chans, .timers] fun t =>
         let high := 128 ≤ tec.toNat ∨ 128 ≤ rec.toNat
         (t.cn p).tec = tec.toNat ∧ (t.cn p).recErr = rec.toNat ∧ ((t.cn p).passive = true ↔ high) ∧
           (96 ≤ tec.toNat ∨ 96 ≤ rec.toNat → x.tec < 96 → x.recErr < 96 → Flagged t (pgCan p) 0) ∧
           (high → x.passive = false → Flagged t (pgCan p) 1) ∧
           (∀ b, x.sending = some b → bt cfg 7 = true →
             (t.cn p).sending = none ∧ (t.cn p).txReq = x.txReq &&& ~~~(BitVec.ofNat 16 (2 ^ b.val))) ∧
           (255 < tec.toNat → EntersBusOff s p t) ∧ (tec.toNat ≤ 255 → (t.cn p).busOff = false))) ∧
     (s.canOn p = true → Does (.canBusoff port) s [.regs, .stage, .axes, .fbs, .mots, .legs, .lanes, .cans, .dos, .safety, .trace, .log,
         .chans, .timers] fun t => (t.cn p).tec = max x.tec 256 ∧ EntersBusOff s p t) ∧
     (s.canOn p = false → exec (.canBusoff port) s = .next s ∧ ∀ tec rec integ, exec (.canBusError port tec rec integ) s = .next s) ∧
     (x.busOff = true → x.recovering = false → x.retired = false → bt cfg 8 = true → Does (.canRecover port) s [.host, .cans, .chans] fun t =>
       t.cn p = { x with recovering := true } ∧ (t.chan 6 p).retry = some (s.now + retryWin s.force)) ∧
     (x.busOff = false ∨ x.recovering = true ∨ bt cfg 8 = false → Does (.canRecover port) s [.host] fun _ => True) ∧
     (x.recovering = true → x.retired = false → Does (.canRecovered port) s [.regs, .cans, .safety, .trace, .chans] fun t =>
       (t.cn p).busOff = false ∧ (t.cn p).recovering = false ∧ (t.cn p).passive = false ∧ (t.cn p).tec = 0 ∧ (t.cn p).recErr = 0 ∧
         Flagged t (pgCan p) 3 ∧ (s.chRet 6 p = false → (t.chan 6 p).retry = none) ∧
         ((s.cn (1 - p)).busOff = false → t.srcOn srcBusoff 16 = false) ∧ ((s.cn (1 - p)).busOff = true → t.safety = s.safety)) ∧
     (x.recovering = false → exec (.canRecovered port) s = .next s))

/-! Network time and the network strike (chapter 14). -/

/-- R353, R357 to R363: a SYNC of another node is noted with its tick; its FOLLOW_UP within 10 ms makes an exchange, which an UNLOCKED node takes once as
its time, which is refused as a jump beyond JUMP_TH, and which otherwise corrects the rate and moves the time state; a message with this node's
own number is a conflict; a newer STEP_GEN, RELOCK and SET. -/
def Obligations.TimeExchanges : Prop :=
  (∀ (port : PortIx) (node : BitVec 10) (s : State), Whole s → bilvaEn s.force port.val = true → s.canOn port.val = true →
    let x := s.time
    let slave := ntRole s.force ≠ 1
    let own := node.toNat = nodeNo s.force
    let newer := fun g : Byte => 1 ≤ (g - x.stepGen).toNat ∧ (g - x.stepGen).toNat < 128
    (∀ sq, ¬ own → slave → port.val = syncPort s.force → exec (.bilvaSync port node sq) s = .next { s with
      time := { x with sync := some (port, node, sq, s.now), lastSync := s.now, backup := x.backup && !Config.lowerBackup node } }) ∧
    (∀ sq, ¬ own → ¬ slave ∨ port.val ≠ syncPort s.force → exec (.bilvaSync port node sq) s = .next s) ∧
    (∀ sq, own → Does (.bilvaSync port node sq) s [.regs, .stage, .axes, .safety, .trace, .log] fun t =>
      t.srcOn srcNodeConf 16 = true ∧ Flagged t pgBilva 0 ∧ bt (t.lv pgBilva pageFault) 0 = true ∧ t.time = x) ∧
    (∀ g, ¬ own → newer g → Does (.timeCtrl port node 1 g) s [.regs, .time, .stage, .axes, .safety, .trace, .log, .timers] fun t =>
      (¬ slave → t.time = { x with stepGen := g }) ∧
        (slave → t.time = { x with stepGen := g, stepOk := true, nt := .unlocked } ∧ t.due .holdover = none ∧
          (x.nt ≠ .unlocked → StrikeCancelled s t) ∧ (s.ntValid = true → t.srcOn srcNtInvalid 16 = true))) ∧
    (∀ sub g, ¬ own → sub ≠ 1 ∨ ¬ newer g → exec (.timeCtrl port node sub g) s = .next s) ∧
    (∀ (sq : Byte) (t1 : BitVec 64) (gm : BitVec 16) (hops g : Byte), ¬ own → ¬ newer g →
      (¬ slave → exec (.followUp port node sq t1 gm hops g) s = .next s) ∧
      (∀ p n q t2, slave → x.sync = some (p, n, q, t2) → (p, n, q) ≠ (port, node, sq) ∨ t2 + msT 10 < s.now →
        exec (.followUp port node sq t1 gm hops g) s = .next s) ∧
      (∀ t2, slave → x.sync = some (port, node, sq, t2) → s.now ≤ t2 + msT 10 →
        let pd := pathDelay s.force port.val
        let err : Int := (t1.toNat : Int) + pd - s.ntAt t2
        let jump := jumpTh s.force < err.natAbs
        let high := lockTh s.force < err.natAbs
        let good := fun t : State => t.time.lastAcc = s.now ∧ t.time.lost = false ∧ t.due .masterLoss = some (s.now + msT 300) ∧
          t.lv pgTime TIME.LAST_ERR = iw (satS 32 err) ∧
          fld (t.lv pgTime TIME.SYNC_COUNT) 15 0 = (fld (s.lv pgTime TIME.SYNC_COUNT) 15 0 + 1) % 65536
        let moved := fun t : State => t.time.tb = s.now ∧ t.time.nb = (s.ntFine s.now).toNat ∧ -20000 ≤ t.time.rho ∧ t.time.rho ≤ 20000
        Does (.followUp port node sq t1 gm hops g) s [.regs, .time, .stage, .axes, .safety, .trace, .log, .timers] fun t =>
          t.time.master = some node ∧ t.time.sync = none ∧ t.time.gm = gm ∧ t.time.hops = hops ∧ t.time.tick = x.tick ∧
          (t.time.depthExceeded = true ↔ ntRole s.force = 2 ∧ 4 ≤ hops.toNat) ∧
            (x.nt = .unlocked → x.stepOk = true → good t ∧ t.time.nt = .acquiring ∧ t.time.stepOk = false ∧
              t.time.nb = (t1.toNat + pd) * 65536 ∧ t.time.tb = t2 ∧ t.time.rho = 0) ∧
            (x.nt = .unlocked → x.stepOk = false → t.time.nt = .unlocked ∧ t.time.nb = x.nb ∧ t.time.tb = x.tb ∧ t.regs = s.regs) ∧
            (x.nt ≠ .unlocked → jump → t.time.nb = x.nb ∧ t.time.tb = x.tb ∧ t.time.rho = x.rho ∧ StrikeCancelled s t ∧
              fld (t.lv pgTime TIME.SYNC_COUNT) 31 16 = (fld (s.lv pgTime TIME.SYNC_COUNT) 31 16 + 1) % 65536 ∧
              t.time.nt = (if x.nt = .locked then .holdover else x.nt) ∧
              (x.nt = .locked → t.due .holdover = some (x.lastAcc + holdMax s.force)) ∧
              (∀ m, x.master = some m → m ≠ node → t.time.masterJump = true)) ∧
            (x.nt = .acquiring → ¬ jump → good t ∧ moved t ∧ t.time.lockRun = (if high then 0 else x.lockRun + 1) ∧
              t.time.nt = (if high ∨ x.lockRun = 0 then .acquiring else .locked)) ∧
            (x.nt = .locked ∨ x.nt = .holdover → ¬ jump → good t ∧ moved t ∧ t.time.nt = .locked ∧ (t.time.errHigh = true ↔ high))))) ∧
  (∀ s : State, Whole s → s.up = true →
    (ntRole s.force ≠ 1 → Does .relock s [.regs, .time, .stage, .host, .mgr, .axes, .safety, .trace, .log, .timers] fun t =>
      t.time = { s.time with stepOk := true, nt := .unlocked } ∧ t.due .holdover = none ∧ (s.time.nt ≠ .unlocked → StrikeCancelled s t)) ∧
    (ntRole s.force = 1 → Refuses .relock .host s fun t => t.time = s.time) ∧
    (s.time.nt = .grandmaster → Does .ntSet s [.regs, .time, .stage, .host, .mgr, .trace, .log] fun t => StrikeCancelled s t ∧
      t.time = { s.time with
        nb := upair64 (s.lv pgTime TIME.NT_SET_LO) (s.lv pgTime TIME.NT_SET_HI) * 65536, tb := s.now, rho := 0 }) ∧
    (s.time.nt ≠ .grandmaster → Refuses .ntSet .host s fun t => t.time = s.time) ∧
    (ntRole s.force = 1 → Does .bcastRelock s [.time, .host, .cans] fun t =>
      t.time = { s.time with stepGen := s.time.stepGen + 1 } ∧ ∀ p < 2, Queues s p 3 1 [s.time.stepGen + 1] t) ∧
    (ntRole s.force ≠ 1 → Refuses .bcastRelock .host s fun t => t.time = s.time))

/-- R358, R360, R362, R364, R370: 300 ms without an accepted exchange is the loss of the master; a node with a backup priority waits before it sends SYNC
itself; HOLD_MAX ends the holdover; SYNC goes out every 100 ms, and the time pulses where the time permits them. -/
def Obligations.TimeMasters : Prop :=
  ∀ (s : State) (d : Nat), Whole s →
    let x := s.time
    let now := max x.tick d
    (s.due .masterLoss = some d → Does .masterLoss s [.regs, .time, .stage, .axes, .safety, .trace, .log, .timers] fun t =>
      (x.nt = .acquiring → t.time = { x with tick := now, lost := true, stepOk := true, nt := .unlocked }) ∧
        (x.nt = .locked → t.time = { x with tick := now, lost := true, nt := .holdover } ∧
          t.due .holdover = some (x.lastAcc + holdMax s.force)) ∧
        (x.nt ≠ .acquiring → x.nt ≠ .locked → t.time = { x with tick := now, lost := true }) ∧
        (ntRole s.force = 0 → backupPrio s.force ≠ 0 → t.due .backup = some (now + msT (100 * backupPrio s.force)))) ∧
    (s.due .backup = some d → Does .backupMasterStart s [.time, .timers] fun t => t.due .backup = none ∧
      t.time = if x.lost = true ∧ x.lastSync + msT (100 * backupPrio s.force) ≤ now then { x with tick := now, backup := true }
        else { x with tick := now }) ∧
    (s.due .holdover = some d → Does .holdoverExpiry s [.regs, .time, .stage, .axes, .safety, .trace, .log,
        .timers] fun t => t.due .holdover = none ∧
      (x.nt = .holdover → t.time = { x with tick := now, nt := .unlocked, stepOk := bt (s.cf pgTime TIME.NT_CFG) 4 } ∧
        t.srcOn srcNtInvalid 16 = true ∧ StrikeCancelled s t) ∧
      (x.nt ≠ .holdover → t.time = { x with tick := now })) ∧
    (∀ port : PortIx, s.up = true →
      let q := x.syncSeq.getD port.val 0
      (s.sendsSync port.val = true → s.due (.syncSend port.val) = some d → Does (.syncSend port) s [.time, .cans, .timers] fun t =>
        t.time = { x with tick := now, syncSeq := x.syncSeq.set port.val (q + 1) } ∧ Queues s port.val 1 q.toNat [] t ∧
          t.due (.syncSend port.val) = some (now + msT 100)) ∧
      (s.sendsSync port.val = false → Does (.syncSend port) s [.timers] fun t => t.due (.syncSend port.val) = none)) ∧
    (∀ out : Fin 4, s.up = true → s.tpoOk out.val = true →
      let bit : BitVec 4 := BitVec.ofNat 4 (2 ^ out.val)
      (Does (.timePulse out true) s [.time] fun t => t.time = { x with
        tick := max x.tick (s.tpoNext out.val), tpo := x.tpo ||| bit,
        tpoStart := x.tpoStart.set out.val (max x.tick (s.tpoNext out.val)) }) ∧
      (x.tpo.getLsbD out.val = true → Does (.timePulse out false) s [.time] fun t => t.time = { x with
        tick := max x.tick (x.tpoStart.getD out.val 0 + ((s.cf pgTime (TIME.TPO_WIDTH out.val)).toNat + 2) / 4), tpo := x.tpo &&& ~~~bit })) ∧
    (∀ (out : Fin 4) (on : Bool), s.tpoOk out.val = false → exec (.timePulse out on) s = .next s)

/-- R65, R367 to R369: a STRIKE_AT message whose tag this device accepts arms a proved stage of the host, or is refused with the code, and is
acknowledged either way; one that is not for it does nothing; STRIKE_CANCEL cancels a strike of its tag; the originator counts the
acknowledgements; SEND and CANCEL send on every Bilva port. -/
def Obligations.NetworkStrikes : Prop :=
  (∀ (port : PortIx) (node : BitVec 10) (T : BitVec 64) (tag orig : BitVec 16) (s : State), Whole s → bilvaEn s.force port.val = true →
    s.canOn port.val = true → node.toNat ≠ nodeNo s.force →
    let acc := s.lv pgBilva BILVA.ACCEPT
    let mine := bt acc 16 = true ∧ fld acc 15 0 = tag.toNat ∧ ¬ (s.stage.state = .armed ∧ s.stage.tag = some tag)
    let code := if s.stage.owner ≠ some .host then eOwned else if s.stage.state ≠ .proved then eState else (s.strikeAtFail T.toNat).getD eNone
    let answer := fun t : State => leBytes 2 tag.toNat ++ leBytes 2 orig.toNat ++ leBytes 1 code ++ leBytes 1 t.stage.state.code ++ leBytes 2 0
    (mine → Does (.bilvaStrikeAt port node T tag orig) s [.regs, .stage, .host, .mgr, .axes, .cans, .safety, .trace, .log] fun t =>
      (∀ p < 2, Queues s p 0x22 0 (answer t) t) ∧
        (code = eNone → t.stage = { s.stage with state := .armed, due := some (.net T.toNat), tag := some tag, proof := none } ∧
          t.lv pgSys SYS.STRIKE_DUE_LO = loW T.toNat ∧ t.lv pgSys SYS.STRIKE_DUE_HI = hiW T.toNat) ∧
        (code ≠ eNone → t.stage = s.stage ∧ t.lv pgSys SYS.REFUSED_COUNT = countUp (s.lv pgSys SYS.REFUSED_COUNT) ∧ Flagged t pgSys 3)) ∧
    (¬ mine → exec (.bilvaStrikeAt port node T tag orig) s = .next s) ∧
    (s.stage.tag = some tag → Does (.strikeCancel port node tag orig) s [.regs, .stage, .trace] (StrikeCancelled s)) ∧
    (s.stage.tag ≠ some tag → exec (.strikeCancel port node tag orig) s = .next s) ∧
    (∀ code st : Byte,
      let w := s.lv pgBilva BILVA.NETSTRIKE_ACKS
      let ours := orig.toNat = nodeNo s.force ∧ tag.toNat = fld (s.lv pgBilva BILVA.NETSTRIKE_TAG) 15 0
      (ours → code = 0 → Does (.strikeAck port node tag orig code st) s [.regs, .trace] fun t =>
        t.lv pgBilva BILVA.NETSTRIKE_ACKS = countUp w ∧ Flagged t pgBilva 3) ∧
      (ours → code ≠ 0 → Does (.strikeAck port node tag orig code st) s [.regs, .trace] fun t =>
        t.lv pgBilva BILVA.NETSTRIKE_ACKS = countUpHigh w ∧ Flagged t pgBilva 4 ∧
          t.lv pgBilva BILVA.NETSTRIKE_LAST_NAK = nw (node.toNat * 65536 + code.toNat)) ∧
      (¬ ours → exec (.strikeAck port node tag orig code st) s = .next s))) ∧
  (∀ s : State, Whole s → s.up = true →
    let T := upair64 (s.lv pgBilva BILVA.NETSTRIKE_T_LO) (s.lv pgBilva BILVA.NETSTRIKE_T_HI)
    let tag := fld (s.lv pgBilva BILVA.NETSTRIKE_TAG) 15 0
    let acc := s.lv pgBilva BILVA.ACCEPT
    (Does (.netstrikeSend false) s [.regs, .host, .cans] fun t => OneReg s pgBilva BILVA.NETSTRIKE_ACKS (fun _ => 0) t ∧
      ∀ p < 2, Queues s p 0x20 0 (leBytes 8 T ++ leBytes 2 tag ++ leBytes 2 (nodeNo s.force)) t) ∧
    (bt acc 16 = true → fld acc 15 0 = tag → s.stage.state = .proved → s.stage.owner = some .host → s.strikeAtFail T = none →
      Does (.netstrikeSend true) s [.regs, .stage, .host, .mgr, .cans, .trace, .log] fun t =>
        t.lv pgBilva BILVA.NETSTRIKE_ACKS = 0 ∧ t.stage.state = .armed ∧ t.stage.due = some (.net T)) ∧
    (Does .netstrikeCancel s [.host, .cans] fun t => ∀ p < 2, Queues s p 0x21 0 (leBytes 2 tag ++ leBytes 2 (nodeNo s.force)) t))

/-! DMA and tracing (chapters 15 and 16). -/

/-- R380, R381, R388 to R390: GO releases work on a SOFT channel and makes any other ready; STOP writes the descriptor in work back as STOPPED and makes the
channel IDLE; KICK reads the descriptor of a channel in WAIT again; RESUME, by command or by its deadline, ends the halt. Triggers come from
request lines with a record and from periods. -/
def Obligations.DmaCommands : Prop :=
  ∀ s : State, Whole s →
    let c := s.force
    (∀ k : ChanIx, s.up = true →
      let ch := k.val
      let x := s.dm ch
      (dmaEn c ch = true → dmaTrig c ch = 0 → x.state ≠ .error → Does (.dmaGo k) s [.regs, .mem, .eccBad, .host, .mgr, .axes, .dma,
          .dmaHalted, .safety, .trace, .log, .timers] (DmaTriggered s ch)) ∧
      (dmaEn c ch = true → dmaTrig c ch ≠ 0 → x.state = .idle ∨ x.state = .error → x.pend = 0 → Does (.dmaGo k) s [.host, .dma] fun t =>
        t.dm ch = { x with state := if s.dmaHalted then .halted else .run }) ∧
      (dmaEn c ch = false → Does (.dmaGo k) s [.host] fun _ => True) ∧
      (∀ d, x.desc = some d → x.state ≠ .error → Does (.dmaStop k) s [.regs, .mem, .eccBad, .host, .mgr, .dma, .trace] fun t =>
        (t.dm ch).state = .idle ∧ (t.dm ch).granted = false ∧ (t.dm ch).pend = 0 ∧ (t.dm ch).desc = none ∧ (t.dm ch).next = dNext d ∧
          t.wordAt (descAddr c ch x.cur + 24) = nw (x.beats * 65536 + 4 * 256 + 1)) ∧
      (x.desc = none → x.state ≠ .error → Does (.dmaStop k) s [.host, .dma] fun t =>
        t.dm ch = { x with state := .idle, granted := false, pend := 0 }) ∧
      (x.state = .wait → dmaEn c ch = true → Does (.dmaKick k) s [.regs, .mem, .eccBad, .host, .mgr, .axes, .dma, .dmaHalted, .safety,
          .trace, .log, .timers] (DmaLoads s ch)) ∧
      (x.state ≠ .wait → Does (.dmaKick k) s [.host] fun _ => True) ∧
      (let T := x.lastTrig + fld (dmaReg c ch (DMACH.PERIOD 0)) 23 0
       dmaEn c ch = true → dmaTrig c ch = 3 → Does (.dmaPeriodTrigger k) s [.regs, .mem, .eccBad, .time, .axes, .dma, .dmaHalted,
           .safety, .trace, .log, .timers] fun t =>
        t.time = { s.time with tick := max s.time.tick T } ∧ (t.dm ch).lastTrig = T ∧ DmaTriggered s ch t) ∧
      (dmaTrig c ch ≠ 3 → exec (.dmaPeriodTrigger k) s = .next s)) ∧
    (∀ line : Byte, s.up = true →
      let asks := fun k : Nat => dmaEn c k = true ∧ dmaTrig c k = 1 ∧ dmaReq c k = line.toNat ∧ (s.dm k).record.isSome
      (∀ ch < 64, (∀ k < 64, asks k ↔ k = ch) → Does (.dmaRequest line) s [.regs, .mem, .eccBad, .axes, .dma, .dmaHalted, .safety,
          .trace, .log, .timers] (DmaTriggered s ch)) ∧
      ((∀ k < 64, ¬ asks k) → exec (.dmaRequest line) s = .next s)) ∧
    (let goes := fun t : State => t.dmaHalted = false ∧ Flagged t pgDma 2 ∧ t.due .dmaResume = none ∧
       ∀ ch < 64, t.dm ch = if (s.dm ch).state = .halted then { s.dm ch with state := .run } else s.dm ch
     let quiet := ∀ ch < 64, (s.dm ch).granted = true ∨ (s.dm ch).pend = 0 ∨ (s.dm ch).state = .error
     (s.up = true → s.dmaHalted = true → quiet → Does .dmaResume s [.regs, .mem, .eccBad, .host, .mgr, .axes, .dma, .dmaHalted, .safety,
         .trace, .log, .timers] goes) ∧
       (s.up = true → s.dmaHalted = false → Refuses .dmaResume .host s fun t => t.dma = s.dma) ∧
       (∀ d, s.due .dmaResume = some d → quiet → Does .dmaAutoResume s [.regs, .mem, .eccBad, .time, .axes, .dma, .dmaHalted, .safety,
           .trace, .log, .timers] fun t =>
        goes t ∧ t.time = { s.time with tick := max s.time.tick d }))

/-- R382 to R388: the granted channel does one burst: it goes on after it, ends its descriptor with OK or UNDER, or halts the engine with the first bus
error; a word that a burst of one element moves between memories is the source's, and no other byte changes. -/
def Obligations.DmaBursts : Prop :=
  ∀ (s : State) (ch : Nat) (d : List Word), Whole s → s.up = true →
    (s.dmaHalted = true ∨ s.dmaGrant = none → exec .dmaBurst s = .next s) ∧
    (s.dmaHalted = false → s.dmaGrant = some ch → (s.dm ch).desc = some d →
      let c := s.force
      let r := ({ s with dmaLast := ch }).dmaBeats ch d
      let u := r.1.s
      let n := s.dmaTotal ch d
      let from_ := (s.dm ch).beats
      let last := n ≤ from_ + r.2
      let result := if (u.dm ch).under = true ∨ r.1.zero = true then 1 else 0
      let written := fun (t : State) (elements code : Nat) =>
        t.wordAt (descAddr c ch (u.dm ch).cur + 24) = nw (elements * 65536 + code * 256 + 1)
      (r.1.err = none → ¬ last → Does .dmaBurst s [.dmaLast, .dma, .dmaHalted, .regs, .timers, .cans, .eccBad, .time, .sched, .chans,
          .mem, .trace, .safety, .log, .axes, .host, .mgr, .stg, .stage, .precheck, .mots, .cmps, .latches, .rescue, .legs, .power, .shares, .fbs, .groups, .ctxs, .sins, .chop, .drives, .lanes, .dos] fun t => t.dmaLast = ch ∧ (t.dm ch).beats = from_ + r.2) ∧
      (r.1.err = none → last → (u.dm ch).desc = some d → bt (dW d 5) 2 = true → (∀ k < 64, dmaTrig c k = 4 → dmaChain c k ≠ ch) →
        Does .dmaBurst s [.dmaLast, .dma, .dmaHalted, .regs, .timers, .cans, .eccBad, .time, .sched, .chans, .mem, .trace, .safety,
            .log, .axes, .host, .mgr, .stg, .stage, .precheck, .mots, .cmps, .latches, .rescue, .legs, .power, .shares, .fbs, .groups, .ctxs, .sins, .chop, .drives, .lanes, .dos] fun t => t.dmaLast = ch ∧ (t.dm ch).state = .idle ∧ (t.dm ch).desc = none ∧ (t.dm ch).granted = false ∧
          (t.dm ch).next = dNext d ∧ (dmaTrig c ch = 1 → (t.dm ch).record = none) ∧ written t n result) ∧
      (∀ a info write, r.1.err = some (a, info, write) → Does .dmaBurst s [.dmaLast, .dma, .dmaHalted, .regs, .timers, .cans, .eccBad,
          .time, .sched, .chans, .mem, .trace, .safety, .log, .axes, .host, .mgr, .stg, .stage, .precheck, .mots, .cmps, .latches, .rescue, .legs, .power, .shares, .fbs, .groups, .ctxs, .sins, .chop, .drives, .lanes, .dos] fun t =>
        t.dmaHalted = true ∧ (t.dm ch).state = .error ∧ written t (from_ + r.1.good) 3 ∧
          (u.dmaHalted = false → t.lv pgDma DMA.ERR_ADDR = nw (bitAt 31 write + a) ∧ t.lv pgDma DMA.ERR_INFO = nw info ∧ Flagged t pgDma 0)) ∧
      (let a := stepAddr (dSrc d) (dSrcStep d) from_
       let b := stepAddr (dDst d) (dDstStep d) from_
       dmaService c = false → dmaTrig c ch ≠ 1 → dSize d = 4 → dBurst d = 1 → from_ + 1 < n → 0x100000 ≤ a → a % 4 = 0 → isMapped a = true →
        isBilvaArea a = false → s.eccBad.contains a = false → 0x100000 ≤ b → b % 4 = 0 → s.dmaWriteBad b = none →
        Does .dmaBurst s [.dmaLast, .dma, .dmaHalted, .regs, .timers, .cans, .eccBad, .time, .sched, .chans, .mem, .trace, .safety,
            .log, .axes, .host, .mgr, .stg, .stage, .precheck, .mots, .cmps, .latches, .rescue, .legs, .power, .shares, .fbs, .groups, .ctxs, .sins, .chop, .drives, .lanes, .dos] fun t => t.wordAt b = s.wordAt a ∧ ∀ x, x < b ∨ b + 4 ≤ x → t.byteAt x = s.byteAt x))

/-- R395, R397 to R399, R401: ARM clears VALID everywhere and starts segment 0, STOP closes a segment that has its trigger, FORCE is a trigger, CLEAR leaves
DONE; each is refused elsewhere. A sample without reduction is stored in the next slot; a window of the sequence ends. -/
def Obligations.Tracing : Prop :=
  ∀ s : State, Whole s →
    let c := s.force
    let x := s.trace
    let live := x.state = .pre ∨ x.state = .post
    (s.up = true →
      (s.armFails = false → Does .traceArm s [.regs, .mem, .eccBad, .host, .mgr, .dma, .trace, .log] fun t =>
        t.trace.state = .pre ∧ t.trace.seg = 0 ∧ t.trace.stored = 0 ∧ t.trace.slot = 0 ∧ t.trace.segSeq = 0 ∧ t.trace.trigSample = none ∧
          t.trace.lastSample = s.now ∧ t.lv pgTrace TRACE.SEG_VALID = 0 ∧ t.lv pgTrace TRACE.SAMPLE_COUNT = 0 ∧
          ∀ i < segCount c, bt (t.wordAt (segAddr c i)) 31 = false) ∧
      (s.armFails = true → Refuses .traceArm .host s fun t => t.mem = s.mem) ∧
      (x.state = .pre → Does .traceStop s [.host, .trace] fun t => t.trace.state = .idle) ∧
      (x.state = .post → x.seg < 32 → Does .traceStop s [.regs, .mem, .eccBad, .host, .mgr, .dma, .trace, .log] fun t =>
        t.trace.state = .idle ∧ t.wordsAt (segAddr c x.seg) 16 = s.traceHeader true ∧
          bt (t.lv pgTrace TRACE.SEG_VALID) x.seg = true ∧ Flagged t pgTrace 1) ∧
      (¬ live → Refuses .traceStop .host s fun t => t.mem = s.mem) ∧
      (x.state = .pre → Does .traceForce s [.regs, .mem, .eccBad, .host, .mgr, .dma, .trace, .log] fun t => Flagged t pgTrace 0 ∧
        t.trace = { x with state := .post, pendTrig := some (4, s.now), trigUnit := 4, trigTick := s.now, rate := s.time.rho }) ∧
      (¬ live → Refuses .traceForce .host s fun t => t.mem = s.mem) ∧
      (x.state = .done → Does .traceClear s [.host, .trace] fun t => t.trace = { x with state := .idle }) ∧
      (x.state ≠ .done → Refuses .traceClear .host s fun t => t.mem = s.mem) ∧
      (∀ t0, live → s.traceNext = some t0 → Does .traceSample s [.regs, .mem, .eccBad, .time, .axes, .dma, .safety, .trace, .log] fun t =>
        let words := ((probes c).map fun p => (s.reach t0).traceWordsOf (probeSel c p)).flatten
        t.time = { s.time with tick := max s.time.tick t0 } ∧ t.trace.lastSample = t0 ∧
          (traceStipple c = false → t.lv pgTrace TRACE.SAMPLE_COUNT = s.lv pgTrace TRACE.SAMPLE_COUNT + 1 ∧
            t.wordsAt (segAddr c x.seg + 4 * (16 + x.slot * traceWords c)) words.length = words)) ∧
      (¬ live → exec .traceSample s = .next s)) ∧
    (∀ t0, let win := fld (s.cf pgTrace TRACE.TRIG_CFG) 23 0
      x.seqOpen = some t0 → win ≠ 0 → Does .traceSeqWindowExpiry s [.time, .trace] fun t =>
        t.time = { s.time with tick := max s.time.tick (t0 + win) } ∧ t.trace = { x with seqOpen := none }) ∧
    (x.seqOpen = none → exec .traceSeqWindowExpiry s = .next s)

/-! Accesses, ports (chapters 1, 2, 13 and 17). -/

/-- R7 to R9, R45, R46, R339, R346, R418, R435: a write of one aligned word: an RW register takes its masked bits, a W1C register loses the bits written 1, an RO
register and a hole nothing, a staged register goes to the stage; the host writes no MGMT register and the manager nothing else; a memory word
is stored alone, but the log window and code in use are refused.
R6: the low word of a 64-bit register read holds the high word read with it; the low word written is held until the high word is written, which
writes both; a high word written alone writes itself (log entry 97). -/
def Obligations.RegisterAccess : Prop :=
  (∀ (m : Master) (addr : Addr) (v : Word) (s : State), Whole s → s.up = true →
     let a := addr.toNat
     let p := pageOf a
     let o := offOf a
     let stores := fun c : Instr => Does c s [.mem, .eccBad, .host] fun t =>
       t.wordAt a = v ∧ t.eccBad.contains a = false ∧ ∀ x, x < a ∨ a + 4 ≤ x → t.byteAt x = s.byteAt x
     (a % 4 ≠ 0 → exec (.registerWrite m addr v) s = .next s) ∧
     (∀ r, Plain s m a .rw r → Does (.registerWrite m addr v) s [.regs, .host, .mgr] (OneReg s p o fun _ => v &&& r.mask)) ∧
     (∀ r, Plain s m a .w1c r → Does (.registerWrite m addr v) s [.regs, .host, .mgr] (OneReg s p o fun w => w &&& ~~~v)) ∧
     (∀ r, Plain s m a .ro r → Does (.registerWrite m addr v) s [.host, .mgr] fun _ => True) ∧
     (a % 4 = 0 → a < 0x100000 → rowAt p o = none → (p = pgMgmt ↔ m = .manager) → s.motRefused p o = false →
       Does (.registerWrite m addr v) s [.host, .mgr] fun _ => True) ∧
     (a % 4 = 0 → a < 0x100000 → accAt a = some .st → exec (.registerWrite m addr v) s = exec (.stagedWrite m addr v) s) ∧
     (a % 4 = 0 → a < 0x100000 → accAt a ≠ some .st → m = .host → p = pgMgmt → Refuses (.registerWrite m addr v) m s fun t => t.cfg = s.cfg) ∧
     (a % 4 = 0 → a < 0x100000 → accAt a ≠ some .st → m = .manager → p ≠ pgMgmt → Refuses (.registerWrite m addr v) m s fun t => t.cfg = s.cfg) ∧
     (a % 4 = 0 → 0x100000 ≤ a → m = .manager → Refuses (.registerWrite m addr v) m s fun t => t.mem = s.mem) ∧
     (a % 4 = 0 → m = .host → isLogWin a = true → Refuses (.registerWrite m addr v) m s fun t => t.mem = s.mem) ∧
     (a % 4 = 0 → m = .host → Writable s a → stores (.registerWrite m addr v)) ∧
     (a % 4 = 0 → m = .host → isLaneCode a = true → Writable s a → stores (.laneCodeWrite m addr v)) ∧
     (a % 4 = 0 → m = .host → isLaneCode a = true → s.codeHeld a = true → Refuses (.laneCodeWrite m addr v) m s fun t => t.mem = s.mem) ∧
     (a % 4 ≠ 0 ∨ isLaneCode a = false → exec (.laneCodeWrite m addr v) s = .next s)) ∧
  (∀ (m : Master) (addr : Addr) (v : Word) (s : State), Whole s → s.up = true →
     let a := addr.toNat
     let p := pageOf a
     let o := offOf a
     let mine := a < 0x100000 ∧ (p = pgMgmt ↔ m = .manager) ∧ s.motRefused p o = false
     (a < 0x100000 → isPairLow p o = true → Does (.pairLowRead m addr) s [.host, .mgr] fun t =>
       (t.mstr m).outData = [(s.touch m).regRead p o] ∧
         (t.mstr m).rHold = (a, (s.touch m).regRead p (o + 4)) :: (s.mstr m).rHold.filter fun y => y.1 ≠ a) ∧
     (isPairLow p o = false → exec (.pairLowRead m addr) s = .next s) ∧
     (mine → isPairLow p o = true → accAt a = some .rw → Does (.pairLowWrite m addr v) s [.host, .mgr] fun t =>
       (t.mstr m).wHold = (a, v) :: (s.mstr m).wHold.filter fun y => y.1 ≠ a) ∧
     (isPairLow p o = false → exec (.pairLowWrite m addr v) s = .next s) ∧
     (∀ p0 p1 r r0, mine → isPairHigh p o = true → rowAt p o = some (p0, r) → r.acc = .rw → rowAt p (o - 4) = some (p1, r0) → r0.acc = .rw →
       let held := (s.mstr m).wHold.find? fun x => x.1 == a - 4
       Does (.pairHighWrite m addr v) s [.regs, .host, .mgr] fun t =>
         t.lv p o = v &&& r.mask ∧
           (∀ k w, held = some (k, w) → t.lv p (o - 4) = w &&& r0.mask ∧ (t.mstr m).wHold = (s.mstr m).wHold.filter fun y => y.1 ≠ k) ∧
           (held = none → t.lv p (o - 4) = s.lv p (o - 4)) ∧
           ∀ q n, n < 4096 → q ≠ p ∨ (n ≠ o ∧ n ≠ o - 4) → t.lv q n = s.lv q n) ∧
     (isPairHigh p o = false → exec (.pairHighWrite m addr v) s = .next s))

/-- R408 to R413, R449, Tables 17-1 and 17-3: a frame of the host is executed whole or, for its CRC, its alignment, its range or its length, not at all; the
answer carries FRAME_COUNT, the flags of the frame before and the causes, and its DCRC; late words are sent as 0. -/
def Obligations.HostFrames : Prop :=
  ∀ (cmd : Byte) (addr : Addr) (ws : List Word) (hcrc : BitVec 16) (late : Nat) (s : State), Whole s → s.hostPort = true →
    let a := addr.toNat
    let n := cmdWords cmd
    let x := s.host
    let aborted := fun t : State => t.host.prevLost = true ∧ t.host.prevRefused = false ∧ t.host.prevUnmapped = false ∧
      (s.up = true → t.lv pgHost HOST.ABORT_COUNT = countUp (s.lv pgHost HOST.ABORT_COUNT) ∧ Flagged t pgHost 2)
    let answers := fun (t : State) (bits : Nat) =>
      fld t.host.outStatus 31 24 = fld (s.lv pgHost HOST.FRAME_COUNT) 7 0 ∧ fld t.host.outStatus 4 0 = bits ∧
        fld t.host.outStatus 11 9 = bitAt 2 x.prevUnmapped + bitAt 1 x.prevRefused + bitAt 0 x.prevLost ∧
        t.host.outCrc = BitVec.ofNat 16 (crc16 (byteBits ((t.host.outStatus :: t.host.outData).flatMap wordBytesMsb)))
    let counts := fun t : State => s.up = true → t.lv pgHost HOST.FRAME_COUNT = s.lv pgHost HOST.FRAME_COUNT + 1
    let wbad := frameBad (frameCrc cmd a (ws.take n) == hcrc.toNat) a n
    let rbad := frameBad (frameCrc cmd a [] == hcrc.toNat) a n
    let refused := fun (t : State) (bad : Nat) => t.host.prevLost = true ∧ (s.up = true → bad % 2 = 1 →
      t.lv pgHost HOST.CRC_ERRORS = countUp (s.lv pgHost HOST.CRC_ERRORS) ∧ Flagged t pgHost 0 ∧ Flagged t pgHost 1)
    (cmdRead cmd = false → ws.length < n → Does (.hostWriteFrame cmd addr ws hcrc) s [.regs, .host, .trace] aborted) ∧
    (Does .hostFrameAbort s [.regs, .host, .trace] aborted) ∧
    (cmdRead cmd = false → n ≤ ws.length → wbad ≠ 0 → Does (.hostWriteFrame cmd addr ws hcrc) s [.regs, .host, .trace] fun t =>
      answers t wbad ∧ counts t ∧ refused t wbad ∧ t.host.outData = []) ∧
    (cmdRead cmd = false → n ≤ ws.length → wbad = 0 → s.up = true → (∀ i < n, Writable s (a + 4 * i)) →
      Does (.hostWriteFrame cmd addr ws hcrc) s [.regs, .mem, .eccBad, .host] fun t =>
        answers t 0 ∧ counts t ∧ t.host.prevLost = false ∧ t.host.prevRefused = false ∧ t.wordsAt a n = ws.take n ∧
          ∀ y, y < a ∨ a + 4 * n ≤ y → t.byteAt y = s.byteAt y) ∧
    (cmdRead cmd = false → n ≤ ws.length → wbad = 0 → s.up = false → Does (.hostWriteFrame cmd addr ws hcrc) s [.host] fun t =>
      answers t 0 ∧ t.host.outData = []) ∧
    (cmdRead cmd = true → rbad ≠ 0 → Does (.hostReadFrame cmd addr hcrc late) s [.regs, .host, .trace] fun t =>
      answers t rbad ∧ counts t ∧ refused t rbad ∧ t.host.outData = List.replicate n 0) ∧
    (cmdRead cmd = true → rbad = 0 → s.up = false → Does (.hostReadFrame cmd addr hcrc late) s [.host] fun t =>
      answers t 0 ∧ t.host.outData = List.replicate n 0) ∧
    (cmdRead cmd = true → rbad = 0 → s.up = true →
      (∀ i < n, 0x100000 ≤ a + 4 * i ∧ isMem (a + 4 * i) = true ∧ isBilvaArea (a + 4 * i) = false ∧ s.eccBad.contains (a + 4 * i) = false) →
        Does (.hostReadFrame cmd addr hcrc late) s [.regs, .host, .cans] fun t =>
          answers t (if late < n then 16 else 0) ∧ counts t ∧ t.host.outData = (s.wordsAt a n).take late ++ List.replicate (n - late) 0)

/-- R416 to R420: a management transaction is applied whole or, for its length, its PEC, its form or a register that the manager may not write, not at all;
a read answers COUNT, the words and the PEC; the alert response answers the address while MALERT_N is asserted; a bus timeout applies nothing. -/
def Obligations.ManagementTransactions : Prop :=
  ∀ (addr : Addr) (len : Byte) (bytes : List Byte) (s : State), Whole s → s.power.phase ≠ .off →
    let a := addr.toNat
    let n := mgmtWords len
    let good := BitVec.ofNat 8 (pecOf (s.mgmtHead a len ++ bytes.take (4 * n)))
    let whole := bytes.length = 4 * n ∧ bt (s.cf pgMgmt MGMT.CFG) 0 = false ∨ bytes.length = 4 * n + 1 ∧ bytes.getD (4 * n) 0 = good
    let form := a % 4 = 0 ∧ len.toNat ≤ 15 ∧ a % 4096 + 4 * n ≤ 4096
    (bytes.length ≠ 4 * n → bytes.length ≠ 4 * n + 1 → Does (.mgmtWrite addr len bytes) s [.regs, .mgr, .trace] fun t => Flagged t pgMgmt 4) ∧
    (bytes.length = 4 * n + 1 → bytes.getD (4 * n) 0 ≠ good → Does (.mgmtWrite addr len bytes) s [.regs, .mgr, .trace] fun t =>
      t.lv pgMgmt MGMT.PEC_ERRORS = countUp (s.lv pgMgmt MGMT.PEC_ERRORS) ∧ Flagged t pgMgmt 1 ∧ Flagged t pgMgmt 4) ∧
    (bytes.length = 4 * n → bt (s.cf pgMgmt MGMT.CFG) 0 = true → Does (.mgmtWrite addr len bytes) s [.regs, .mgr, .trace] fun t =>
      Flagged t pgMgmt 4 ∧ t.lv pgMgmt MGMT.PEC_ERRORS = s.lv pgMgmt MGMT.PEC_ERRORS) ∧
    (whole → ¬ form → Does (.mgmtWrite addr len bytes) s [.regs, .mgr, .trace] fun t => Flagged t pgMgmt 4) ∧
    (∀ i < n, whole → form → mgrMay (a + 4 * i) = false → s.up = true →
      Does (.mgmtWrite addr len bytes) s [.regs, .host, .mgr, .trace, .log] fun t =>
        t.lv pgSys SYS.REFUSED_COUNT = countUp (s.lv pgSys SYS.REFUSED_COUNT) ∧ Flagged t pgSys 3 ∧ Flagged t pgMgmt 4) ∧
    (∀ i < n, whole → form → mgrMay (a + 4 * i) = false → s.up = false → Does (.mgmtWrite addr len bytes) s [.regs, .mgr, .trace] fun t =>
      t.lv pgMgmt MGMT.REFUSED_COUNT = countUp (s.lv pgMgmt MGMT.REFUSED_COUNT) ∧ Flagged t pgMgmt 4) ∧
    (∀ r, whole → form → n = 1 → Plain s .manager a .rw r → Does (.mgmtWrite addr len bytes) s [.regs, .mgr] fun t =>
      OneReg s pgMgmt (offOf a) (fun _ => bytesWord (bytes.take 4) &&& r.mask) t) ∧
    (¬ form → Does (.mgmtRead addr len) s [.regs, .mgr, .trace] fun t => t.mgr.outData = [] ∧ t.mgr.outCount = 0 ∧ Flagged t pgMgmt 4) ∧
    (form → s.up = false → (∃ i < n, servedDown (a + 4 * i) = false) → Does (.mgmtRead addr len) s [.mgr] fun t =>
      t.mgr.outData = [] ∧ t.mgr.outCount = 0) ∧
    (form → s.up = true →
      (∀ i < n, 0x100000 ≤ a + 4 * i ∧ isMem (a + 4 * i) = true ∧ isBilvaArea (a + 4 * i) = false ∧ s.eccBad.contains (a + 4 * i) = false) →
        Does (.mgmtRead addr len) s [.mgr, .cans] fun t => t.mgr.outData = s.wordsAt a n ∧ t.mgr.outCount = 4 * n ∧
          t.mgr.outCrc = BitVec.ofNat 16 (pecOf (s.mgmtHead a len ++ [BitVec.ofNat 8 (2 * s.mgmtAddr + 1), BitVec.ofNat 8 (4 * n)] ++
            wordsBytes (s.wordsAt a n)))) ∧
    (s.malert = true → exec .alertResponse s = .next { s with mgr := { s.mgr with outData := [nw (2 * s.mgmtAddr)], outCount := 1 } }) ∧
    (s.malert = false → exec .alertResponse s = .next s) ∧ exec .mgmtBusTimeout s = .next s

/-! Housekeeping and the impression log (chapter 18). -/

/-- R425 to R428, R431, R440: a round publishes its channels together, moves the thermal level up at once and down after LEAVE_ROUNDS calm rounds, and
latches the shutdown at its threshold; the sources of the levels follow; a trim moves by at most 2; telemetry is sent or counted.
R432, R433: a step of the scraper moves on by 16 words; a single error is counted and its address shown; an uncorrectable word of the plate or of a
lane store stays marked, one of the trace buffer or of message memory is written as 0. -/
def Obligations.HousekeepingAndScraper : Prop :=
  ((∀ (r : HkRound) (s : State), Whole s → s.power.phase ≠ .off →
     let ch := s.hkChannels r
     let old := s.hk.level.code
     let entered := levelEntered s.force ch
     let calm := levelCalm s.force ch old
     let leaves := fld (s.cf pgHk HK.THROTTLE_CFG) 31 16 ≤ s.hk.calm + 1
     (levelHolds s.force ch 3 = true → s.power.thermLatch = false → Answers (.hkRoundEnd r) s fun t =>
       t.power.thermLatch = true ∧ t.power.phase = .latched ∧ t.power.removal = true) ∧
     (levelHolds s.force ch 3 = false → s.power.thermLatch = false → Answers (.hkRoundEnd r) s fun t =>
       t.samples.hk = ch ∧ t.hk.rounds = s.hk.rounds + 1 ∧ t.hk.rcTimed = !s.time.pllLock ∧
         (s.hk.rcTimed = false → t.time.tick = max s.time.tick ((ceilDiv s.hk.lastEnd 256000 + 1) * 256000)) ∧
         (old < entered → t.hk.level = levelOf entered) ∧
         (old = 0 → entered = 0 → t.hk.level = .normal) ∧
         (entered ≤ old → 0 < old → calm = true → leaves → t.hk.level = levelOf entered) ∧
         (entered ≤ old → 0 < old → calm = true → ¬ leaves → t.hk.level = s.hk.level ∧ t.hk.calm = s.hk.calm + 1) ∧
         (entered ≤ old → 0 < old → calm = false → t.hk.level = s.hk.level ∧ t.hk.calm = 0) ∧
         (s.up = true → s.power.persOn = false →
           (t.srcOn srcTempWarn 16 = true ↔ 1 ≤ t.hk.level.code) ∧ (t.srcOn srcTempThr 16 = true ↔ 2 ≤ t.hk.level.code) ∧
             (t.srcOn srcTjOver 16 = true ↔ 2000 ≤ ch.getD 0 0)))) ∧
   (∀ (conv : Fin 2) (offset gain : Int) (s : State), Whole s →
     (s.up = true → s.bgOn 2 = true → Does (.ainTrimUpdate conv offset gain) s [.hk] fun t => t.hk = { s.hk with
       ainNew := s.hk.ainNew.set conv.val (some
         (clampI (s.hk.ainOfs.getD conv.val 0 - 2) (s.hk.ainOfs.getD conv.val 0 + 2) offset,
          clampI (s.hk.ainGain.getD conv.val 0 - 2) (s.hk.ainGain.getD conv.val 0 + 2) gain)) }) ∧
     (s.up = false ∨ s.bgOn 2 = false → exec (.ainTrimUpdate conv offset gain) s = .next s)) ∧
   (∀ (s : State) (d : Nat), Whole s → s.due .telemetry = some d →
     let w := s.cf pgHk HK.TELE_CFG
     Does .telemetrySend s [.regs, .time, .cans, .timers] fun t =>
       t.time = { s.time with tick := max s.time.tick d } ∧ t.due .telemetry = some (d + msT (fld w 31 16)) ∧
         ((∀ n < 4, bt w n = false) → t.regs = s.regs ∧ t.cans = s.cans) ∧
         (∀ n < 4, (∀ k < 4, bt w k = true ↔ k = n) → s.bgOn 5 = true → Queues s (fld w 8 8) 0x30 n ((s.reach d).teleData n) t) ∧
         (∀ n < 4, (∀ k < 4, bt w k = true ↔ k = n) → s.bgOn 5 = false → OneReg s pgHk HK.TELE_SKIPPED countUp t))) ∧
  (∀ (ce ue : BitVec 16) (s : State), Whole s → s.up = true →
     let w := s.lv pgHk HK.SCRUB_STATUS
     let step := fld w 15 0
     let at_ := fun i : Nat => scrubWord (16 * step + i)
     let next := if step = 24063 then nw ((fld w 31 16 + 1) % 65536 * 65536) else nw (fld w 31 16 * 65536 + step + 1)
     let known := ∃ i < 16, s.eccBad.contains (at_ i).1 = true
     (Does (.scrubStep ce ue) s [.regs, .mem, .eccBad, .stage, .axes, .fbs, .mots, .legs, .lanes, .cans, .dos, .safety, .trace, .log,
         .chans, .timers] fun t => t.lv pgHk HK.SCRUB_STATUS = next ∧
       (∀ i < 16, ue.getLsbD i = true → (at_ i).2 < 2 → t.eccBad.contains (at_ i).1 = true) ∧
       (∀ i < 16, ue.getLsbD i = true → 2 ≤ (at_ i).2 → t.wordAt (at_ i).1 = 0)) ∧
     (ce = 0 → ue = 0 → ¬ known → Does (.scrubStep ce ue) s [.regs] (OneReg s pgHk HK.SCRUB_STATUS fun _ => next)) ∧
     (∀ i < 16, ce = BitVec.ofNat 16 (2 ^ i) → ue = 0 → ¬ known → Does (.scrubStep ce ue) s [.regs, .trace] fun t =>
       let h := 8 * (at_ i).2
       fld (t.lv pgHk HK.ECC_CE) (h + 7) h = min (fld (s.lv pgHk HK.ECC_CE) (h + 7) h + 1) 0xFF ∧
         t.lv pgHk HK.ECC_LAST = nw (at_ i).1 ∧ Flagged t pgHk 2))

/-- R435 to R439, R441: the first entry of the queue is written into the next slot of the head sector, and slot 14 opens the next sector; a write that fails
its verification is LOG_FAIL and leaves free values; a save ends with its code, and the old image is freed once the new one is verified; the
image is copied forward. -/
def Obligations.ImpressionLog : Prop :=
  ∀ (ok : Bool) (s : State), Whole s →
    (s.log.queue = [] → exec (.logEntryCommit ok) s = .next s) ∧
    (∀ e rest, s.log.queue = e :: rest → s.log.opened = true → s.log.lostSince = 0 →
      let head := s.log.head
      let a := secAddr head (4 + 4 * s.log.slot)
      Does (.logEntryCommit ok) s [.regs, .mem, .eccBad, .axes, .safety, .trace, .log, .free] fun t =>
        (ok = true → t.log.queue = rest) ∧ (∃ more, t.log.queue = rest ++ more) ∧
        (s.log.slot < 14 → t.log.head = head ∧ t.log.slot = s.log.slot + 1 ∧ ∀ x, x < a ∨ a + 16 ≤ x → t.byteAt x = s.byteAt x) ∧
        (s.log.slot = 14 → t.log.slot = 0 ∧ t.log.head = s.nextSector head ∧ t.secType (s.nextSector head) = 1) ∧
        (ok = true → s.log.slot < 14 → t.wordsAt a 4 = e.words s.log.boot ∧ Flagged t pgNvlog 0 ∧
          t.lv pgNvlog NVLOG.ENTRY_COUNT = s.lv pgNvlog NVLOG.ENTRY_COUNT + 1) ∧
        (ok = false → s.log.slot < 14 → bt (t.lv pgNvlog pageFault) 0 = true ∧ t.free = s.free + 4 ∧
          t.wordsAt a 4 = (List.range 4).map fun i => Config.freeWord (s.free + i))) ∧
    (s.log.image = [] ∨ s.log.opened = false → exec (.logWearCopy ok) s = .next s) ∧
    (s.log.image ≠ [] → s.log.opened = true → Does (.logWearCopy ok) s [.regs, .mem, .eccBad, .axes, .safety, .trace, .log] fun t =>
      (ok = false → t.mem = s.mem ∧ t.log.image = s.log.image ∧ bt (t.lv pgNvlog pageFault) 0 = true) ∧
        (ok = true → (∀ k ∈ s.log.image, t.secType k = 0xFF) ∧ (∀ k ∈ t.log.image, k ∉ s.log.image ∧ k ≠ s.log.head) ∧
          ∀ k, s.log.image = [k] → k < 256 → ∃ j, t.log.image = [j] ∧ t.secType j = 2 ∧
            t.wordsAt (secAddr j 4) 60 = s.wordsAt (secAddr k 4) 60)) ∧
    (s.stage.save ≠ some true → exec (.imageSaveDone ok) s = .next s) ∧
    (∀ code, s.stage.save = some true → s.host.busy = some code → Does (.imageSaveDone ok) s [.regs, .mem, .eccBad, .stage, .host, .mgr,
        .axes, .safety, .trace, .log] fun t =>
      let ends := Reports .host s.host.busySeq code.toNat true true
      t.stage = { s.stage with save := none } ∧ t.host.busy = none ∧ t.log.saving = [] ∧
        (s.log.saving = [] → ends eRange t ∧ Flagged t pgNvlog 3 ∧ t.mem = s.mem) ∧
        (s.log.saving ≠ [] → ok = false → ends eCrc t ∧ Flagged t pgNvlog 3 ∧ t.mem = s.mem ∧ bt (t.lv pgNvlog pageFault) 0 = true) ∧
        (s.log.saving ≠ [] → ok = true → ends eNone t ∧ Flagged t pgNvlog 2 ∧ ∀ k ∈ s.log.image, t.secType k = 0xFF))
end

