-- ==== Sys2Proof/Laws/Only.lean ====
section
/-!
SUPPORT. What every operation may change: the parts of State it names, and nothing else. The lemma of an operation says so from any
state reached, for any list of parts that takes in its own.
-/
namespace Sys2Proof.Machine

open Sys2Proof.Safety

/-- The parts F are among fs. -/
abbrev In (F fs : List Part) : Prop := (F.all fun f => fs.contains f) = true

theorem inT {F G fs : List Part} (h : In F G) (k : In G fs) : In F fs := by
  simp only [In, List.all_eq_true, List.contains_iff_mem] at *
  exact fun f hf => k f (h f hf)

/-- The state of a pair whose first part is a state. -/
def Only1 {α : Type} (fs : List Part) (s0 : State) (p : State × α) : Prop := Only fs s0 p.1

/-- The state of a pair whose second part is a state. -/
def Only2 {α : Type} (fs : List Part) (s0 : State) (p : α × State) : Prop := Only fs s0 p.2

/-- The state that an optional result holds, if it holds one. -/
def OnlyO (fs : List Part) (s0 : State) (o : Option State) : Prop := ∀ t, o = some t → Only fs s0 t

/-- The next state of an outcome, if it has one. -/
def OnlyN (fs : List Part) (s0 : State) (o : Out) : Prop := ∀ t, o = .next t → Only fs s0 t

theorem Only.refl (fs : List Part) (s : State) : Only fs s s := fun f _ => by cases f <;> rfl

theorem Part.same_trans {f : Part} {a b c : State} (h : f.same a b) (k : f.same b c) : f.same a c := by
  cases f <;> exact Eq.trans k h

/-- A change of parts among fs. -/
theorem Only.upd {F fs : List Part} {s0 s t : State} (h : Only fs s0 s) (sub : In F fs) (k : Only F s t) : Only fs s0 t := by
  intro f hf
  refine Part.same_trans (h f hf) (k f fun hF => hf ?_)
  simp only [In, List.all_eq_true, List.contains_iff_mem] at sub
  exact sub f hF

theorem only_ite {fs : List Part} {s0 : State} {a b : State} {c : Prop} [Decidable c] (ha : Only fs s0 a) (hb : Only fs s0 b) :
    Only fs s0 (if c then a else b) := by
  split <;> assumption

theorem only1_ite {α : Type} {fs : List Part} {s0 : State} {a b : State × α} {c : Prop} [Decidable c] (ha : Only1 fs s0 a) (hb : Only1 fs s0 b) :
    Only1 fs s0 (if c then a else b) := by
  split <;> assumption

theorem only2_ite {α : Type} {fs : List Part} {s0 : State} {a b : α × State} {c : Prop} [Decidable c] (ha : Only2 fs s0 a) (hb : Only2 fs s0 b) :
    Only2 fs s0 (if c then a else b) := by
  split <;> assumption

theorem onlyO_ite {fs : List Part} {s0 : State} {a b : Option State} {c : Prop} [Decidable c] (ha : OnlyO fs s0 a) (hb : OnlyO fs s0 b) :
    OnlyO fs s0 (if c then a else b) := by
  split <;> assumption

theorem onlyN_ite {fs : List Part} {s0 : State} {a b : Out} {c : Prop} [Decidable c] (ha : OnlyN fs s0 a) (hb : OnlyN fs s0 b) :
    OnlyN fs s0 (if c then a else b) := by
  split <;> assumption

theorem onlyN_next {fs : List Part} {s0 s : State} (h : Only fs s0 s) : OnlyN fs s0 (.next s) := fun t e => by cases e; exact h

theorem onlyO_some {fs : List Part} {s0 s : State} (h : Only fs s0 s) : OnlyO fs s0 (some s) := fun t e => by cases e; exact h

theorem onlyO_none {fs : List Part} {s0 : State} : OnlyO fs s0 none := fun t e => by cases e

theorem onlyO_get {fs : List Part} {s0 s : State} {o : Option State} (h : OnlyO fs s0 o) (e : o = some s) : Only fs s0 s := h s e

theorem onlyN_get {fs : List Part} {s0 s : State} {o : Out} (h : OnlyN fs s0 o) (e : o = .next s) : Only fs s0 s := h s e

theorem only1_mk {α : Type} {fs : List Part} {s0 s : State} {x : α} (h : Only fs s0 s) : Only1 fs s0 (s, x) := h

theorem only2_mk {α : Type} {fs : List Part} {s0 s : State} {x : α} (h : Only fs s0 s) : Only2 fs s0 (x, s) := h

theorem only1_fst {α : Type} {fs : List Part} {s0 s : State} {x : α} {p : State × α} (h : Only1 fs s0 p) (e : p = (s, x)) :
    Only fs s0 s := by
  subst e; exact h

theorem only2_snd {α : Type} {fs : List Part} {s0 s : State} {x : α} {p : α × State} (h : Only2 fs s0 p) (e : p = (x, s)) :
    Only fs s0 s := by
  subst e; exact h

theorem only_foldl {α : Type} {fs : List Part} {s0 : State} {f : State → α → State} (hf : ∀ t x, Only fs s0 t → Only fs s0 (f t x)) :
    ∀ (l : List α) {s : State}, Only fs s0 s → Only fs s0 (l.foldl f s)
  | [], _, h => h
  | x :: l, _, h => only_foldl hf l (hf _ x h)

theorem only1_foldl {α β : Type} {fs : List Part} {s0 : State} {f : State × α → β → State × α}
    (hf : ∀ p x, Only1 fs s0 p → Only1 fs s0 (f p x)) : ∀ (l : List β) {p : State × α}, Only1 fs s0 p → Only1 fs s0 (l.foldl f p)
  | [], _, h => h
  | x :: l, _, h => only1_foldl hf l (hf _ x h)

theorem forN_only {fs : List Part} {s0 s : State} {n : Nat} {f : Nat → State → State} (hf : ∀ i t, Only fs s0 t → Only fs s0 (f i t))
    (h : Only fs s0 s) : Only fs s0 (forN n f s) := only_foldl (fun t i => hf i t) _ h

theorem forL_only {α : Type} {fs : List Part} {s0 s : State} {l : List α} {f : α → State → State}
    (hf : ∀ x t, Only fs s0 t → Only fs s0 (f x t)) (h : Only fs s0 s) : Only fs s0 (forL l f s) := only_foldl (fun t x => hf x t) _ h

theorem State.putByte_only {fs : List Part} {s0 s : State} {a : Nat} {b : Byte} (h : Only fs s0 s) (sub : In [.mem] fs) :
    Only fs s0 (s.putByte a b) :=
  Only.upd h sub fun f hf => by cases f <;> first | rfl | simp at hf

theorem State.putBytes_only' {fs : List Part} {s0 : State} (sub : In [.mem] fs) :
    ∀ {s : State} {a : Nat} {l : List Byte}, Only fs s0 s → Only fs s0 (s.putBytes a l)
  | _, _, [], h => h
  | s, a, b :: l, h => State.putBytes_only' sub (s := s.putByte a b) (a := a + 1) (l := l) (State.putByte_only h sub)

theorem State.putBytes_only {fs : List Part} {s0 s : State} {a : Nat} {l : List Byte} (h : Only fs s0 s) (sub : In [.mem] fs) :
    Only fs s0 (s.putBytes a l) := State.putBytes_only' sub h

theorem State.putWord_only {fs : List Part} {s0 s : State} {a : Nat} {w : Word} (h : Only fs s0 s) (sub : In [.mem, .eccBad] fs) :
    Only fs s0 (s.putWord a w) :=
  Only.upd (State.putBytes_only' (inT rfl sub) (a := a) (l := wordBytes w) h) (inT (F := [.eccBad]) rfl sub)
    fun f hf => by cases f <;> first | rfl | simp at hf

theorem State.putWords_only' {fs : List Part} {s0 : State} (sub : In [.mem, .eccBad] fs) :
    ∀ {s : State} {a : Nat} {l : List Word}, Only fs s0 s → Only fs s0 (s.putWords a l)
  | _, _, [], h => h
  | s, a, w :: l, h => State.putWords_only' sub (s := s.putWord a w) (a := a + 4) (l := l) (State.putWord_only h sub)

theorem State.putWords_only {fs : List Part} {s0 s : State} {a : Nat} {l : List Word} (h : Only fs s0 s) (sub : In [.mem, .eccBad] fs) :
    Only fs s0 (s.putWords a l) := State.putWords_only' sub h

end Sys2Proof.Machine
end

