-- ==== Sys2Proof/Laws/OnlyOps.lean ====
section
/-!
SUPPORT. What the operations of Machine/Ops.lean may change: one lemma each, from any state reached.
-/
namespace Sys2Proof.Machine

open Sys2Proof.Safety

theorem State.onAx_only {fs : List Part} {s0 : State} {s a f} (h_s : Only fs s0 s) (hsub : In [.axes] fs) :
    Only fs s0 (State.onAx s a f) := 
  Only.upd h_s hsub fun f hf => by cases f <;> first | rfl | simp at hf

theorem State.onDr_only {fs : List Part} {s0 : State} {s a f} (h_s : Only fs s0 s) (hsub : In [.drives] fs) :
    Only fs s0 (State.onDr s a f) := 
  Only.upd h_s hsub fun f hf => by cases f <;> first | rfl | simp at hf

theorem State.onCx_only {fs : List Part} {s0 : State} {s c f} (h_s : Only fs s0 s) (hsub : In [.ctxs] fs) :
    Only fs s0 (State.onCx s c f) := 
  Only.upd h_s hsub fun f hf => by cases f <;> first | rfl | simp at hf

theorem State.onFb_only {fs : List Part} {s0 : State} {s n f} (h_s : Only fs s0 s) (hsub : In [.fbs] fs) :
    Only fs s0 (State.onFb s n f) := 
  Only.upd h_s hsub fun f hf => by cases f <;> first | rfl | simp at hf

theorem State.onMt_only {fs : List Part} {s0 : State} {s a f} (h_s : Only fs s0 s) (hsub : In [.mots] fs) :
    Only fs s0 (State.onMt s a f) := 
  Only.upd h_s hsub fun f hf => by cases f <;> first | rfl | simp at hf

theorem State.onCm_only {fs : List Part} {s0 : State} {s i f} (h_s : Only fs s0 s) (hsub : In [.cmps] fs) :
    Only fs s0 (State.onCm s i f) := 
  Only.upd h_s hsub fun f hf => by cases f <;> first | rfl | simp at hf

theorem State.onLa_only {fs : List Part} {s0 : State} {s i f} (h_s : Only fs s0 s) (hsub : In [.latches] fs) :
    Only fs s0 (State.onLa s i f) := 
  Only.upd h_s hsub fun f hf => by cases f <;> first | rfl | simp at hf

theorem State.onGr_only {fs : List Part} {s0 : State} {s g f} (h_s : Only fs s0 s) (hsub : In [.groups] fs) :
    Only fs s0 (State.onGr s g f) := 
  Only.upd h_s hsub fun f hf => by cases f <;> first | rfl | simp at hf

theorem State.onLg_only {fs : List Part} {s0 : State} {s l f} (h_s : Only fs s0 s) (hsub : In [.legs] fs) :
    Only fs s0 (State.onLg s l f) := 
  Only.upd h_s hsub fun f hf => by cases f <;> first | rfl | simp at hf

theorem State.onLn_only {fs : List Part} {s0 : State} {s n f} (h_s : Only fs s0 s) (hsub : In [.lanes] fs) :
    Only fs s0 (State.onLn s n f) := 
  Only.upd h_s hsub fun f hf => by cases f <;> first | rfl | simp at hf

theorem State.onRp_only {fs : List Part} {s0 : State} {s r f} (h_s : Only fs s0 s) (hsub : In [.ropes] fs) :
    Only fs s0 (State.onRp s r f) := 
  Only.upd h_s hsub fun f hf => by cases f <;> first | rfl | simp at hf

theorem State.onSh_only {fs : List Part} {s0 : State} {s g f} (h_s : Only fs s0 s) (hsub : In [.shares] fs) :
    Only fs s0 (State.onSh s g f) := 
  Only.upd h_s hsub fun f hf => by cases f <;> first | rfl | simp at hf

theorem State.onDm_only {fs : List Part} {s0 : State} {s c f} (h_s : Only fs s0 s) (hsub : In [.dma] fs) :
    Only fs s0 (State.onDm s c f) := 
  Only.upd h_s hsub fun f hf => by cases f <;> first | rfl | simp at hf

theorem State.onCn_only {fs : List Part} {s0 : State} {s p f} (h_s : Only fs s0 s) (hsub : In [.cans] fs) :
    Only fs s0 (State.onCn s p f) := 
  Only.upd h_s hsub fun f hf => by cases f <;> first | rfl | simp at hf

theorem State.onDi_only {fs : List Part} {s0 : State} {s i f} (h_s : Only fs s0 s) (hsub : In [.dis] fs) :
    Only fs s0 (State.onDi s i f) := 
  Only.upd h_s hsub fun f hf => by cases f <;> first | rfl | simp at hf

theorem State.onFo_only {fs : List Part} {s0 : State} {s n f} (h_s : Only fs s0 s) (hsub : In [.dos] fs) :
    Only fs s0 (State.onFo s n f) := 
  Only.upd h_s hsub fun f hf => by cases f <;> first | rfl | simp at hf

theorem State.onSi_only {fs : List Part} {s0 : State} {s i f} (h_s : Only fs s0 s) (hsub : In [.sins] fs) :
    Only fs s0 (State.onSi s i f) := 
  Only.upd h_s hsub fun f hf => by cases f <;> first | rfl | simp at hf

theorem State.onTime_only {fs : List Part} {s0 : State} {s f} (h_s : Only fs s0 s) (hsub : In [.time] fs) :
    Only fs s0 (State.onTime s f) := 
  Only.upd h_s hsub fun f hf => by cases f <;> first | rfl | simp at hf

theorem State.onStage_only {fs : List Part} {s0 : State} {s f} (h_s : Only fs s0 s) (hsub : In [.stage] fs) :
    Only fs s0 (State.onStage s f) := 
  Only.upd h_s hsub fun f hf => by cases f <;> first | rfl | simp at hf

theorem State.onPower_only {fs : List Part} {s0 : State} {s f} (h_s : Only fs s0 s) (hsub : In [.power] fs) :
    Only fs s0 (State.onPower s f) := 
  Only.upd h_s hsub fun f hf => by cases f <;> first | rfl | simp at hf

theorem State.onSafe_only {fs : List Part} {s0 : State} {s f} (h_s : Only fs s0 s) (hsub : In [.safety] fs) :
    Only fs s0 (State.onSafe s f) := 
  Only.upd h_s hsub fun f hf => by cases f <;> first | rfl | simp at hf

theorem State.onSched_only {fs : List Part} {s0 : State} {s f} (h_s : Only fs s0 s) (hsub : In [.sched] fs) :
    Only fs s0 (State.onSched s f) := 
  Only.upd h_s hsub fun f hf => by cases f <;> first | rfl | simp at hf

theorem State.onField_only {fs : List Part} {s0 : State} {s f} (h_s : Only fs s0 s) (hsub : In [.field] fs) :
    Only fs s0 (State.onField s f) := 
  Only.upd h_s hsub fun f hf => by cases f <;> first | rfl | simp at hf

theorem State.onRescue_only {fs : List Part} {s0 : State} {s f} (h_s : Only fs s0 s) (hsub : In [.rescue] fs) :
    Only fs s0 (State.onRescue s f) := 
  Only.upd h_s hsub fun f hf => by cases f <;> first | rfl | simp at hf

theorem State.onChop_only {fs : List Part} {s0 : State} {s f} (h_s : Only fs s0 s) (hsub : In [.chop] fs) :
    Only fs s0 (State.onChop s f) := 
  Only.upd h_s hsub fun f hf => by cases f <;> first | rfl | simp at hf

theorem State.onPdie_only {fs : List Part} {s0 : State} {s f} (h_s : Only fs s0 s) (hsub : In [.pdie] fs) :
    Only fs s0 (State.onPdie s f) := 
  Only.upd h_s hsub fun f hf => by cases f <;> first | rfl | simp at hf

theorem State.onTrace_only {fs : List Part} {s0 : State} {s f} (h_s : Only fs s0 s) (hsub : In [.trace] fs) :
    Only fs s0 (State.onTrace s f) := 
  Only.upd h_s hsub fun f hf => by cases f <;> first | rfl | simp at hf

theorem State.onHk_only {fs : List Part} {s0 : State} {s f} (h_s : Only fs s0 s) (hsub : In [.hk] fs) :
    Only fs s0 (State.onHk s f) := 
  Only.upd h_s hsub fun f hf => by cases f <;> first | rfl | simp at hf

theorem State.onLog_only {fs : List Part} {s0 : State} {s f} (h_s : Only fs s0 s) (hsub : In [.log] fs) :
    Only fs s0 (State.onLog s f) := 
  Only.upd h_s hsub fun f hf => by cases f <;> first | rfl | simp at hf

theorem State.onMstr_only {fs : List Part} {s0 : State} {s m f} (h_s : Only fs s0 s) (hsub : In [.host, .mgr] fs) :
    Only fs s0 (State.onMstr s m f) :=  by
  cases m
  · exact Only.upd h_s (inT (F := [.host]) rfl hsub) fun f hf => by cases f <;> first | rfl | simp at hf
  · exact Only.upd h_s (inT (F := [.mgr]) rfl hsub) fun f hf => by cases f <;> first | rfl | simp at hf

theorem State.takeFree_only {fs : List Part} {s0 : State} {s} (h_s : Only fs s0 s) (hsub : In [.free] fs) :
    Only2 fs s0 (State.takeFree s) := 
  Only.upd h_s hsub fun f hf => by cases f <;> first | rfl | simp at hf

theorem State.setLv_only {fs : List Part} {s0 : State} {s p o v} (h_s : Only fs s0 s) (hsub : In [.regs] fs) :
    Only fs s0 (State.setLv s p o v) := 
  Only.upd h_s hsub fun f hf => by cases f <;> first | rfl | simp at hf

theorem State.setCf_only {fs : List Part} {s0 : State} {s p o v} (h_s : Only fs s0 s) (hsub : In [.cfg] fs) :
    Only fs s0 (State.setCf s p o v) := 
  Only.upd h_s hsub fun f hf => by cases f <;> first | rfl | simp at hf

theorem State.setCd_only {fs : List Part} {s0 : State} {s p o v} (h_s : Only fs s0 s) (hsub : In [.stg] fs) :
    Only fs s0 (State.setCd s p o v) := 
  Only.upd h_s hsub fun f hf => by cases f <;> first | rfl | simp at hf

theorem State.setPair_only {fs : List Part} {s0 : State} {s p o x} (h_s : Only fs s0 s) (hsub : In [.regs] fs) :
    Only fs s0 (State.setPair s p o x) := by
  unfold State.setPair
  exact State.setLv_only (State.setLv_only h_s hsub) hsub

theorem State.onLv_only {fs : List Part} {s0 : State} {s p o f} (h_s : Only fs s0 s) (hsub : In [.regs] fs) :
    Only fs s0 (State.onLv s p o f) := by
  unfold State.onLv
  exact State.setLv_only h_s hsub

theorem State.inc16_only {fs : List Part} {s0 : State} {s p o} (h_s : Only fs s0 s) (hsub : In [.regs] fs) :
    Only fs s0 (State.inc16 s p o) := by
  unfold State.inc16
  exact State.onLv_only h_s hsub

theorem State.inc32_only {fs : List Part} {s0 : State} {s p o} (h_s : Only fs s0 s) (hsub : In [.regs] fs) :
    Only fs s0 (State.inc32 s p o) := by
  unfold State.inc32
  exact State.onLv_only h_s hsub

theorem State.eventRaw_only {fs : List Part} {s0 : State} {s p bits} (h_s : Only fs s0 s) (hsub : In [.regs] fs) :
    Only fs s0 (State.eventRaw s p bits) := by
  unfold State.eventRaw
  exact State.onLv_only h_s hsub

theorem State.traceTrigger_only {fs : List Part} {s0 : State} {s u tick} (h_s : Only fs s0 s) (hsub : In [.regs, .trace] fs) :
    Only fs s0 (State.traceTrigger s u tick) := by
  unfold State.traceTrigger
  extract_lets +onlyGivenNames v0
  clear_value v0
  refine only_ite ?_ ?_
  · refine only_ite ?_ (State.inc16_only h_s (inT rfl hsub))
    refine State.eventRaw_only ?_ (inT rfl hsub)
    exact Only.upd h_s (inT (F := [.trace]) rfl hsub) (by intro f hf; cases f <;> first | rfl | simp at hf)
  · split
    · refine only_ite ?_ h_s
      exact Only.upd h_s (inT (F := [.trace]) rfl hsub) (by intro f hf; cases f <;> first | rfl | simp at hf)
    · exact h_s

theorem State.traceFire_only {fs : List Part} {s0 : State} {s u tick} (h_s : Only fs s0 s) (hsub : In [.regs, .trace] fs) :
    Only fs s0 (State.traceFire s u tick) := by
  unfold State.traceFire
  extract_lets +onlyGivenNames v0
  clear_value v0
  extract_lets +onlyGivenNames v1
  clear_value v1
  extract_lets +onlyGivenNames v2
  clear_value v2
  refine only_ite (State.traceTrigger_only h_s hsub) ?_
  refine only_ite ?_ ?_
  · exact Only.upd h_s (inT (F := [.trace]) rfl hsub) (by intro f hf; cases f <;> first | rfl | simp at hf)
  · split
    · exact only_ite (State.traceTrigger_only h_s hsub) h_s
    · exact h_s

theorem State.traceKind_only {fs : List Part} {s0 : State} {s kind tick hit} (h_s : Only fs s0 s) (hsub : In [.regs, .trace] fs) :
    Only fs s0 (State.traceKind s kind tick hit) := by
  unfold State.traceKind
  refine only_ite ?_ h_s
  refine forN_only ?_ h_s
  intro x3 t4 h5
  extract_lets +onlyGivenNames v6
  clear_value v6
  exact only_ite (State.traceFire_only h5 hsub) h5

theorem State.event_only {fs : List Part} {s0 : State} {s p bits} (h_s : Only fs s0 s) (hsub : In [.regs, .trace] fs) :
    Only fs s0 (State.event s p bits) := by
  unfold State.event
  exact State.traceKind_only (State.eventRaw_only h_s (inT rfl hsub)) hsub

theorem State.pfault_only {fs : List Part} {s0 : State} {s p bits} (h_s : Only fs s0 s) (hsub : In [.regs] fs) :
    Only fs s0 (State.pfault s p bits) := by
  unfold State.pfault
  exact State.onLv_only h_s hsub

theorem State.logAdd_only {fs : List Part} {s0 : State} {s kind cls master code detail} (h_s : Only fs s0 s) (hsub : In [.regs, .trace, .log] fs) :
    Only fs s0 (State.logAdd s kind cls master code detail) := by
  unfold State.logAdd
  extract_lets +onlyGivenNames v0
  clear_value v0
  exact only_ite (State.onLog_only h_s (inT rfl hsub)) (only_ite (State.onLog_only h_s (inT rfl hsub)) (State.event_only (State.inc16_only (State.onLog_only h_s (inT rfl hsub)) (inT rfl hsub)) (inT rfl hsub)))

theorem State.refuse_only {fs : List Part} {s0 : State} {s m code cmd addr} (h_s : Only fs s0 s) (hsub : In [.regs, .host, .mgr, .trace, .log] fs) :
    Only fs s0 (State.refuse s m code cmd addr) := by
  unfold State.refuse
  extract_lets +onlyGivenNames v0
  have h0 : Only fs s0 v0 := State.onMstr_only (State.event_only (State.inc16_only h_s (inT rfl hsub)) (inT rfl hsub)) (inT rfl hsub)
  clear_value v0
  exact State.logAdd_only h0 (inT rfl hsub)

theorem State.stopT_only {fs : List Part} {s0 : State} {s t} (h_s : Only fs s0 s) (hsub : In [.timers] fs) :
    Only fs s0 (State.stopT s t) := 
  Only.upd h_s hsub fun f hf => by cases f <;> first | rfl | simp at hf

theorem State.startT_only {fs : List Part} {s0 : State} {s t at_} (h_s : Only fs s0 s) (hsub : In [.timers] fs) :
    Only fs s0 (State.startT s t at_) := 
  Only.upd h_s hsub fun f hf => by cases f <;> first | rfl | simp at hf

theorem State.reach_only {fs : List Part} {s0 : State} {s t} (h_s : Only fs s0 s) (hsub : In [.time] fs) :
    Only fs s0 (State.reach s t) := by
  unfold State.reach
  exact State.onTime_only h_s hsub

theorem State.expire_only {fs : List Part} {s0 : State} {s t f} (h_s : Only fs s0 s) (h_f : ∀ t0, Only fs s0 t0 → Only fs s0 (f t0)) (hsub : In [.time, .timers] fs) :
    Only fs s0 (State.expire s t f) := by
  unfold State.expire
  split
  · exact h_s
  · exact h_f _ (State.stopT_only (State.reach_only h_s (inT rfl hsub)) (inT rfl hsub))

end Sys2Proof.Machine
end

