-- ==== Sys2Proof/Laws/OnlyUnits.lean ====
section
/-!
SUPPORT. What the operations of Machine/Units.lean may change: one lemma each, from any state reached.
-/
namespace Sys2Proof.Machine

open Sys2Proof.Safety

theorem State.onChan_only {fs : List Part} {s0 : State} {s cls idx f} (h_s : Only fs s0 s) (hsub : In [.chans] fs) :
    Only fs s0 (State.onChan s cls idx f) := 
  Only.upd h_s hsub fun f hf => by cases f <;> first | rfl | simp at hf

end Sys2Proof.Machine
end

