-- ==== Sys2Proof/Laws/OnlyReact.lean ====
section
/-!
SUPPORT. What the operations of Machine/React.lean may change: one lemma each, from any state reached.
-/
namespace Sys2Proof.Machine

open Sys2Proof.Safety

theorem State.watchBrake_only {fs : List Part} {s0 : State} {s a} (h_s : Only fs s0 s) (hsub : In [.timers] fs) :
    Only fs s0 (State.watchBrake s a) := by
  unfold State.watchBrake
  exact forL_only (fun _ _ h0 => State.startT_only h0 hsub) h_s

theorem State.sbcIssue_only {fs : List Part} {s0 : State} {s a} (h_s : Only fs s0 s) (hsub : In [.axes, .timers] fs) :
    Only fs s0 (State.sbcIssue s a) := by
  unfold State.sbcIssue
  extract_lets +onlyGivenNames v0
  have h0 : Only fs s0 v0 := State.stopT_only h_s (inT rfl hsub)
  clear_value v0
  exact only_ite (State.watchBrake_only (State.onAx_only h0 (inT rfl hsub)) (inT rfl hsub)) (State.onAx_only h0 (inT rfl hsub))

theorem State.brakeOff_only {fs : List Part} {s0 : State} {s a} (h_s : Only fs s0 s) (hsub : In [.axes, .timers] fs) :
    Only fs s0 (State.brakeOff s a) := by
  unfold State.brakeOff
  exact only_ite (State.watchBrake_only (State.onAx_only h_s (inT rfl hsub)) (inT rfl hsub)) (State.onAx_only h_s (inT rfl hsub))

theorem State.legOff_only {fs : List Part} {s0 : State} {s l} (h_s : Only fs s0 s) (hsub : In [.legs] fs) :
    Only fs s0 (State.legOff s l) := by
  unfold State.legOff
  exact State.onLg_only h_s hsub

theorem State.gatesOff_only {fs : List Part} {s0 : State} {s a} (h_s : Only fs s0 s) (hsub : In [.mots, .legs] fs) :
    Only fs s0 (State.gatesOff s a) := by
  unfold State.gatesOff
  extract_lets +onlyGivenNames v0
  have h0 : Only fs s0 v0 := forL_only (fun _ _ h1 => State.legOff_only h1 (inT rfl hsub)) h_s
  clear_value v0
  exact State.onMt_only h0 (inT rfl hsub)

theorem State.setLastSrc_only {fs : List Part} {s0 : State} {s a src} (h_s : Only fs s0 s) (hsub : In [.regs] fs) :
    Only fs s0 (State.setLastSrc s a src) := by
  unfold State.setLastSrc
  exact State.setLv_only h_s hsub

theorem State.settleSto_only {fs : List Part} {s0 : State} {s a} (h_s : Only fs s0 s) (hsub : In [.axes] fs) :
    Only fs s0 (State.settleSto s a) := by
  unfold State.settleSto
  exact State.onAx_only h_s hsub

theorem State.stoNow_only {fs : List Part} {s0 : State} {s a} (h_s : Only fs s0 s) (hsub : In [.axes, .mots, .legs, .timers] fs) :
    Only fs s0 (State.stoNow s a) := by
  unfold State.stoNow
  extract_lets +onlyGivenNames v0
  have h0 : Only fs s0 v0 := State.onAx_only (State.sbcIssue_only (State.gatesOff_only h_s (inT rfl hsub)) (inT rfl hsub)) (inT rfl hsub)
  clear_value v0
  exact forL_only (fun _ _ h1 => State.stopT_only h1 (inT rfl hsub)) h0

theorem State.ss1End_only {fs : List Part} {s0 : State} {s a} (h_s : Only fs s0 s) (hsub : In [.axes, .mots, .legs, .timers] fs) :
    Only fs s0 (State.ss1End s a) := by
  unfold State.ss1End
  extract_lets +onlyGivenNames v0
  have h0 : Only fs s0 v0 := State.stopT_only h_s (inT rfl hsub)
  clear_value v0
  extract_lets +onlyGivenNames v1
  have h1 : Only fs s0 v1 := State.onAx_only h0 (inT rfl hsub)
  clear_value v1
  exact only_ite (State.startT_only (State.sbcIssue_only h1 (inT rfl hsub)) (inT rfl hsub)) (State.onAx_only (State.settleSto_only (State.stoNow_only h1 hsub) (inT rfl hsub)) (inT rfl hsub))

theorem State.ss1Start_only {fs : List Part} {s0 : State} {s a tmax} (h_s : Only fs s0 s) (hsub : In [.axes, .mots, .legs, .timers] fs) :
    Only fs s0 (State.ss1Start s a tmax) := by
  unfold State.ss1Start
  extract_lets +onlyGivenNames v0
  clear_value v0
  extract_lets +onlyGivenNames v1
  clear_value v1
  extract_lets +onlyGivenNames v2
  clear_value v2
  exact only_ite (State.startT_only (State.onAx_only h_s (inT rfl hsub)) (inT rfl hsub)) (State.ss1End_only h_s hsub)

theorem State.enterReact_only {fs : List Part} {s0 : State} {s a r} (h_s : Only fs s0 s) (hsub : In [.regs, .axes, .mots, .legs, .trace, .timers] fs) :
    Only fs s0 (State.enterReact s a r) := by
  unfold State.enterReact
  extract_lets +onlyGivenNames v0
  clear_value v0
  extract_lets +onlyGivenNames v1
  have h1 : Only fs s0 v1 := State.onAx_only h_s (inT rfl hsub)
  clear_value v1
  split
  · exact State.settleSto_only (State.stoNow_only h1 (inT rfl hsub)) (inT rfl hsub)
  · exact State.onAx_only h1 (inT rfl hsub)
  · exact only_ite (State.sbcIssue_only h1 (inT rfl hsub)) (State.ss1Start_only (State.sbcIssue_only h1 (inT rfl hsub)) (inT rfl hsub))
  · exact only_ite h1 (State.ss1Start_only h1 (inT rfl hsub))
  · extract_lets +onlyGivenNames v2
    have h2 : Only fs s0 v2 := State.onAx_only h1 (inT rfl hsub)
    clear_value v2
    exact State.startT_only (State.event_only h2 (inT rfl hsub)) (inT rfl hsub)
  · exact h1

theorem State.applyReact_only {fs : List Part} {s0 : State} {s a r src dem} (h_s : Only fs s0 s) (hsub : In [.regs, .axes, .mots, .legs, .trace, .timers] fs) :
    Only fs s0 (State.applyReact s a r src dem) := by
  unfold State.applyReact
  extract_lets +onlyGivenNames v0
  have h0 : Only fs s0 v0 := State.onAx_only h_s (inT rfl hsub)
  clear_value v0
  extract_lets +onlyGivenNames v1
  clear_value v1
  exact only_ite h_s (only_ite (only_ite h0 (State.enterReact_only (State.setLastSrc_only h0 (inT rfl hsub)) hsub)) (only_ite (State.settleSto_only h0 (inT rfl hsub)) (only_ite (State.onAx_only h0 (inT rfl hsub)) h0)))

theorem State.pushReact_only {fs : List Part} {s0 : State} {s a r src dem} (h_s : Only fs s0 s) (hsub : In [.axes] fs) :
    Only fs s0 (State.pushReact s a r src dem) := by
  unfold State.pushReact
  exact State.onAx_only h_s hsub

theorem State.settleReacts_only {fs : List Part} {s0 : State} {s a} (h_s : Only fs s0 s) (hsub : In [.regs, .axes, .mots, .legs, .trace, .timers] fs) :
    Only fs s0 (State.settleReacts s a) := by
  unfold State.settleReacts
  extract_lets +onlyGivenNames v0
  clear_value v0
  split
  · exact h_s
  · extract_lets +onlyGivenNames v1
    have h1 : Only fs s0 v1 := State.onAx_only h_s (inT rfl hsub)
    clear_value v1
    exact State.applyReact_only h1 hsub

theorem State.clearSrc_only {fs : List Part} {s0 : State} {s src a} (h_s : Only fs s0 s) (hsub : In [.safety] fs) :
    Only fs s0 (State.clearSrc s src a) := by
  unfold State.clearSrc
  exact State.onSafe_only h_s hsub

theorem State.noteSrc_only {fs : List Part} {s0 : State} {s src a master} (h_s : Only fs s0 s) (hsub : In [.regs, .safety, .trace, .log] fs) :
    Only fs s0 (State.noteSrc s src a master) := by
  unfold State.noteSrc
  extract_lets +onlyGivenNames v0
  have h0 : Only fs s0 v0 := State.onSafe_only h_s (inT rfl hsub)
  clear_value v0
  exact State.event_only (State.logAdd_only h0 (inT rfl hsub)) (inT rfl hsub)

theorem State.raise_only {fs : List Part} {s0 : State} {s src a} (h_s : Only fs s0 s) (hsub : In [.regs, .axes, .safety, .trace, .log] fs) :
    Only fs s0 (State.raise s src a) := by
  unfold State.raise
  extract_lets +onlyGivenNames v0
  have h0 : Only fs s0 v0 := State.noteSrc_only h_s (inT rfl hsub)
  clear_value v0
  extract_lets +onlyGivenNames v1
  clear_value v1
  refine only_ite h_s ?_
  refine forL_only ?_ h0
  intro x5 t6 h7
  split
  · exact h7
  · exact State.pushReact_only h7 (inT rfl hsub)

theorem State.raiseNow_only {fs : List Part} {s0 : State} {s src a} (h_s : Only fs s0 s) (hsub : In [.regs, .axes, .mots, .legs, .safety, .trace, .log, .timers] fs) :
    Only fs s0 (State.raiseNow s src a) := by
  unfold State.raiseNow
  extract_lets +onlyGivenNames v0
  have h0 : Only fs s0 v0 := State.noteSrc_only h_s (inT rfl hsub)
  clear_value v0
  extract_lets +onlyGivenNames v1
  clear_value v1
  refine only_ite h_s ?_
  refine forL_only ?_ h0
  intro x5 t6 h7
  split
  · exact h7
  · exact only_ite h7 (State.pushReact_only (State.stoNow_only h7 (inT rfl hsub)) (inT rfl hsub))
  · exact State.pushReact_only h7 (inT rfl hsub)

theorem State.raisePulse_only {fs : List Part} {s0 : State} {s src a} (h_s : Only fs s0 s) (hsub : In [.regs, .axes, .safety, .trace, .log] fs) :
    Only fs s0 (State.raisePulse s src a) := by
  unfold State.raisePulse
  exact State.clearSrc_only (State.raise_only h_s hsub) (inT rfl hsub)

theorem State.leaveMotion_only {fs : List Part} {s0 : State} {s a st} (h_s : Only fs s0 s) (hsub : In [.axes, .mots, .legs, .timers] fs) :
    Only fs s0 (State.leaveMotion s a st) := by
  unfold State.leaveMotion
  exact State.onAx_only (State.sbcIssue_only (State.gatesOff_only h_s (inT rfl hsub)) (inT rfl hsub)) (inT rfl hsub)

end Sys2Proof.Machine
end

