-- ==== Sys2Proof/Laws/OnlyProof.lean ====
section
/-!
SUPPORT. What the operations of Machine/Proof.lean may change: one lemma each, from any state reached.
-/
namespace Sys2Proof.Machine

open Sys2Proof.Safety

theorem State.setPlans_only {fs : List Part} {s0 : State} {s} (h_s : Only fs s0 s) (hsub : In [.lanes] fs) :
    Only fs s0 (State.setPlans s) := by
  unfold State.setPlans
  exact forN_only (fun _ _ h0 => State.onLn_only h0 hsub) h_s

theorem State.setLaneStates_only {fs : List Part} {s0 : State} {s} (h_s : Only fs s0 s) (hsub : In [.lanes] fs) :
    Only fs s0 (State.setLaneStates s) := by
  unfold State.setLaneStates
  exact forN_only (fun _ _ h0 => State.onLn_only h0 hsub) h_s

end Sys2Proof.Machine
end

