-- ==== Sys2Proof/Laws/OnlyChannels.lean ====
section
/-!
SUPPORT. What the operations of Machine/Channels.lean may change: one lemma each, from any state reached.
-/
namespace Sys2Proof.Machine

open Sys2Proof.Safety

theorem State.voidProof_only {fs : List Part} {s0 : State} {s} (h_s : Only fs s0 s) (hsub : In [.regs, .stage, .trace] fs) :
    Only fs s0 (State.voidProof s) := by
  unfold State.voidProof
  refine only_ite h_s ?_
  split
  · exact State.onStage_only h_s (inT rfl hsub)
  · exact State.onStage_only h_s (inT rfl hsub)
  · exact State.event_only (State.onStage_only h_s (inT rfl hsub)) (inT rfl hsub)
  · exact h_s

theorem State.startReproof_only {fs : List Part} {s0 : State} {s} (h_s : Only fs s0 s) (hsub : In [.stage] fs) :
    Only fs s0 (State.startReproof s) := by
  unfold State.startReproof
  exact only_ite (State.onStage_only h_s hsub) h_s

theorem State.loseLane_only {fs : List Part} {s0 : State} {s n} (h_s : Only fs s0 s) (hsub : In [.regs, .axes, .mots, .legs, .safety, .trace, .log, .timers] fs) :
    Only fs s0 (State.loseLane s n) := by
  unfold State.loseLane
  extract_lets +onlyGivenNames v0
  have h0 : Only fs s0 v0 := forL_only (fun _ _ h1 => State.raiseNow_only h1 hsub) h_s
  clear_value v0
  exact only_ite (State.pfault_only h0 (inT rfl hsub)) h0

theorem State.stopLane_only {fs : List Part} {s0 : State} {s n} (h_s : Only fs s0 s) (hsub : In [.regs, .stage, .axes, .mots, .legs, .lanes, .safety, .trace, .log, .timers] fs) :
    Only fs s0 (State.stopLane s n) := by
  unfold State.stopLane
  extract_lets +onlyGivenNames v0
  clear_value v0
  extract_lets +onlyGivenNames v1
  have h1 : Only fs s0 v1 := State.onLn_only h_s (inT rfl hsub)
  clear_value v1
  extract_lets +onlyGivenNames v2
  have h2 : Only fs s0 v2 := forL_only (fun _ _ h3 => State.loseLane_only h3 (inT rfl hsub)) (State.pfault_only h1 (inT rfl hsub))
  clear_value v2
  exact only_ite (State.onLn_only (State.onLn_only h2 (inT rfl hsub)) (inT rfl hsub)) (State.startReproof_only (State.loseLane_only h2 (inT rfl hsub)) (inT rfl hsub))

theorem State.retire_only {fs : List Part} {s0 : State} {s cls idx} (h_s : Only fs s0 s) (hsub : In [.regs, .stage, .axes, .fbs, .mots, .legs, .lanes, .cans, .dos, .safety, .trace, .log, .chans, .timers] fs) :
    Only fs s0 (State.retire s cls idx) := by
  unfold State.retire
  extract_lets +onlyGivenNames v0
  have h0 : Only fs s0 v0 := State.onChan_only h_s (inT rfl hsub)
  clear_value v0
  extract_lets +onlyGivenNames v1
  have h1 : Only fs s0 v1 := State.logAdd_only h0 (inT rfl hsub)
  clear_value v1
  extract_lets +onlyGivenNames v2
  have h2 : Only fs s0 v2 := State.voidProof_only h1 (inT rfl hsub)
  clear_value v2
  refine only_ite h_s ?_
  split
  · exact State.startReproof_only (State.onFb_only h2 (inT rfl hsub)) (inT rfl hsub)
  · exact State.startReproof_only (State.pfault_only (State.onLg_only (State.legOff_only h2 (inT rfl hsub)) (inT rfl hsub)) (inT rfl hsub)) (inT rfl hsub)
  · exact State.startReproof_only (State.pfault_only (State.onLg_only (State.legOff_only h2 (inT rfl hsub)) (inT rfl hsub)) (inT rfl hsub)) (inT rfl hsub)
  · exact State.stopLane_only h2 (inT rfl hsub)
  · exact State.startReproof_only (State.pfault_only (State.onCn_only h2 (inT rfl hsub)) (inT rfl hsub)) (inT rfl hsub)
  · exact State.startReproof_only (State.pfault_only (State.onFo_only h2 (inT rfl hsub)) (inT rfl hsub)) (inT rfl hsub)
  · exact State.startReproof_only h2 (inT rfl hsub)

theorem State.intoRetry_only {fs : List Part} {s0 : State} {s cls idx} (h_s : Only fs s0 s) (hsub : In [.fbs, .legs, .dos] fs) :
    Only fs s0 (State.intoRetry s cls idx) := by
  unfold State.intoRetry
  split
  · exact State.onFb_only h_s (inT rfl hsub)
  · exact State.onLg_only h_s (inT rfl hsub)
  · exact State.onLg_only h_s (inT rfl hsub)
  · exact State.onFo_only h_s (inT rfl hsub)
  · exact h_s

theorem State.onsetWith_only {fs : List Part} {s0 : State} {s cls idx window} (h_s : Only fs s0 s) (hsub : In [.regs, .stage, .axes, .fbs, .mots, .legs, .lanes, .cans, .dos, .safety, .trace, .log, .chans, .timers] fs) :
    Only fs s0 (State.onsetWith s cls idx window) := by
  unfold State.onsetWith
  extract_lets +onlyGivenNames v0
  clear_value v0
  extract_lets +onlyGivenNames v1
  have h1 : Only fs s0 v1 := State.onChan_only h_s (inT rfl hsub)
  clear_value v1
  extract_lets +onlyGivenNames v2
  clear_value v2
  exact only_ite h_s (only_ite (State.retire_only h1 hsub) (State.intoRetry_only (State.onChan_only h1 (inT rfl hsub)) (inT rfl hsub)))

theorem State.onset_only {fs : List Part} {s0 : State} {s cls idx} (h_s : Only fs s0 s) (hsub : In [.regs, .stage, .axes, .fbs, .mots, .legs, .lanes, .cans, .dos, .safety, .trace, .log, .chans, .timers] fs) :
    Only fs s0 (State.onset s cls idx) := by
  unfold State.onset
  exact State.onsetWith_only h_s hsub

theorem State.backInService_only {fs : List Part} {s0 : State} {s cls idx} (h_s : Only fs s0 s) (hsub : In [.chans] fs) :
    Only fs s0 (State.backInService s cls idx) := by
  unfold State.backInService
  exact only_ite h_s (State.onChan_only h_s hsub)

theorem State.laneFault_only {fs : List Part} {s0 : State} {s n faultBit w} (h_s : Only fs s0 s) (hsub : In [.regs, .stage, .axes, .fbs, .mots, .legs, .lanes, .cans, .dos, .safety, .trace, .log, .chans, .timers] fs) :
    Only fs s0 (State.laneFault s n faultBit w) := by
  unfold State.laneFault
  extract_lets +onlyGivenNames v0
  have h0 : Only fs s0 v0 := State.pfault_only h_s (inT rfl hsub)
  clear_value v0
  exact only_ite h0 (State.onLn_only (State.backInService_only (State.onset_only h0 hsub) (inT rfl hsub)) (inT rfl hsub))

theorem State.laneRestart_only {fs : List Part} {s0 : State} {s n l} (h_s : Only fs s0 s) (hsub : In [.lanes] fs) :
    Only fs s0 (State.laneRestart s n l) := by
  unfold State.laneRestart
  exact State.onLn_only h_s hsub

theorem State.finishReproof_only {fs : List Part} {s0 : State} {s o} (h_s : Only fs s0 s) (hsub : In [.regs, .stage, .axes, .lanes, .safety, .trace, .log] fs) :
    Only fs s0 (State.finishReproof s o) := by
  unfold State.finishReproof
  extract_lets +onlyGivenNames v0
  have h0 : Only fs s0 v0 := State.onStage_only (State.setLv_only h_s (inT rfl hsub)) (inT rfl hsub)
  clear_value v0
  extract_lets +onlyGivenNames v1
  have h1 : Only fs s0 v1 := State.setPlans_only h0 (inT rfl hsub)
  clear_value v1
  extract_lets +onlyGivenNames v2
  clear_value v2
  extract_lets +onlyGivenNames v3
  have h3 : Only fs s0 v3 := State.pfault_only (State.event_only h1 (inT rfl hsub)) (inT rfl hsub)
  clear_value v3
  exact only_ite (State.onSafe_only h1 (inT rfl hsub)) (forL_only (fun _ _ h4 => State.raise_only (State.clearSrc_only (State.onAx_only h4 (inT rfl hsub)) (inT rfl hsub)) (inT rfl hsub)) h3)

theorem State.copyWords_only {fs : List Part} {s0 : State} {s src dst b n} (h_s : Only fs s0 s) (hsub : In [.mem, .eccBad] fs) :
    Only1 fs s0 (State.copyWords s src dst b n) := by
  unfold State.copyWords
  extract_lets +onlyGivenNames v0
  clear_value v0
  exact only1_mk (forN_only (fun _ _ h1 => State.putWord_only h1 hsub) h_s)

theorem State.moveCf_only {fs : List Part} {s0 : State} {s p o v} (h_s : Only fs s0 s) (hsub : In [.cfg, .stg, .stage] fs) :
    Only fs s0 (State.moveCf s p o v) := by
  unfold State.moveCf
  extract_lets +onlyGivenNames v0
  clear_value v0
  extract_lets +onlyGivenNames v1
  clear_value v1
  extract_lets +onlyGivenNames v2
  have h2 : Only fs s0 v2 := State.setCd_only (State.setCf_only h_s (inT rfl hsub)) (inT rfl hsub)
  clear_value v2
  exact State.onStage_only h2 (inT rfl hsub)

theorem State.takeover_only {fs : List Part} {s0 : State} {s n g} (h_s : Only fs s0 s) (hsub : In [.regs, .cfg, .stg, .mem, .eccBad, .stage, .axes, .mots, .legs, .lanes, .safety, .trace, .log, .timers] fs) :
    Only fs s0 (State.takeover s n g) :=  by
  unfold State.takeover
  extract_lets +onlyGivenNames c
  extract_lets +onlyGivenNames held
  have hf : Only1 fs s0 (held.foldl (fun (x : State × Bool) m =>
      let (cb, cw) := codeRange c m
      let (db, dw) := dataRange c m
      let (s1, b1) := x.1.copyWords (codeAddr n) (codeAddr g) cb cw
      let (s2, b2) := s1.copyWords (dataAddr n) (dataAddr g) db dw
      (s2, x.2 || b1 || b2)) (s, false)) := by
    refine only1_foldl (fun p x hp => ?_) _ (only1_mk h_s)
    have hp : Only fs s0 p.1 := hp
    dsimp only
    exact State.copyWords_only (State.copyWords_only hp (inT rfl hsub)) (inT rfl hsub)
  clear_value c held
  split
  rename_i t bad e
  have h1 := only1_fst hf e
  extract_lets +onlyGivenNames moved
  extract_lets +onlyGivenNames s2
  have h2 : Only fs s0 s2 := by
    refine forL_only (fun x t ht => ?_) h1
    extract_lets +onlyGivenNames s3
    have h3 : Only fs s0 s3 := forL_only (fun _ _ h => State.moveCf_only h (inT rfl hsub)) ht
    exact State.onLn_only (State.moveCf_only h3 (inT rfl hsub)) (inT rfl hsub)
  clear_value s2
  extract_lets +onlyGivenNames s4
  have h4 : Only fs s0 s4 := forN_only (fun _ _ h => only_ite (State.moveCf_only h (inT rfl hsub)) h) h2
  clear_value s4
  extract_lets +onlyGivenNames s5
  have h5 : Only fs s0 s5 := forN_only (fun _ _ h => only_ite (State.moveCf_only h (inT rfl hsub)) h) h4
  clear_value s5
  extract_lets +onlyGivenNames s6
  have h6 : Only fs s0 s6 := only_ite (State.moveCf_only h5 (inT rfl hsub)) h5
  clear_value s6
  have h7 := State.onStage_only (f := fun x => { x with copied := x.copied ++ held.map fun m => (Fin.ofNat 8 g, Fin.ofNat 8 m) })
    (State.onLn_only (n := n) (f := fun x => { x with held := [] }) h6 (inT rfl hsub)) (inT rfl hsub)
  exact only_ite (forL_only (fun _ _ h => State.raiseNow_only h (inT rfl hsub)) h7) h7

end Sys2Proof.Machine
end

