-- ==== Sys2Proof/Laws/OnlyCommands.lean ====
section
/-!
SUPPORT. What the operations of Machine/Commands.lean may change: one lemma each, from any state reached.
-/
namespace Sys2Proof.Machine

open Sys2Proof.Safety

theorem State.setResult_only {fs : List Part} {s0 : State} {s m seq code done acc res} (h_s : Only fs s0 s) (hsub : In [.regs, .trace] fs) :
    Only fs s0 (State.setResult s m seq code done acc res) := by
  unfold State.setResult
  extract_lets +onlyGivenNames v0
  have h0 : Only fs s0 v0 := State.setLv_only h_s (inT rfl hsub)
  clear_value v0
  exact only_ite (State.event_only h0 hsub) h0

theorem State.touch_only {fs : List Part} {s0 : State} {s m} (h_s : Only fs s0 s) (hsub : In [.host, .mgr] fs) :
    Only fs s0 (State.touch s m) := by
  unfold State.touch
  exact State.onMstr_only h_s hsub

theorem State.downRefuse_only {fs : List Part} {s0 : State} {s} (h_s : Only fs s0 s) (hsub : In [.regs, .trace] fs) :
    Only fs s0 (State.downRefuse s) := by
  unfold State.downRefuse
  exact State.event_only (State.inc16_only h_s (inT rfl hsub)) hsub

theorem State.refuseBy_only {fs : List Part} {s0 : State} {s m code cmd addr} (h_s : Only fs s0 s) (hsub : In [.regs, .host, .mgr, .trace, .log] fs) :
    Only fs s0 (State.refuseBy s m code cmd addr) := by
  unfold State.refuseBy
  extract_lets +onlyGivenNames v0
  have h0 : Only fs s0 v0 := State.refuse_only h_s hsub
  clear_value v0
  exact only_ite (State.event_only h0 (inT rfl hsub)) h0

theorem State.complete_only {fs : List Part} {s0 : State} {s m res} (h_s : Only fs s0 s) (hsub : In [.regs, .host, .mgr, .trace] fs) :
    Only fs s0 (State.complete s m res) := by
  unfold State.complete
  split
  · exact h_s
  · exact State.setResult_only (State.onMstr_only h_s (inT rfl hsub)) (inT rfl hsub)

theorem State.accept_only {fs : List Part} {s0 : State} {s m seq code} (h_s : Only fs s0 s) (hsub : In [.regs, .trace] fs) :
    Only fs s0 (State.accept s m seq code) := by
  unfold State.accept
  exact State.setResult_only h_s hsub

theorem State.begin__only {fs : List Part} {s0 : State} {s m seq code} (h_s : Only fs s0 s) (hsub : In [.regs, .host, .mgr, .trace] fs) :
    Only fs s0 (State.begin_ s m seq code) := by
  unfold State.begin_
  exact State.setResult_only (State.onMstr_only h_s (inT rfl hsub)) (inT rfl hsub)

theorem State.command_only {fs : List Part} {s0 : State} {s m seq code tests run} (h_s : Only fs s0 s) (h_run : ∀ t0, Only fs s0 t0 → Only fs s0 (run t0)) (hsub : In [.regs, .host, .mgr, .trace, .log] fs) :
    Only fs s0 (State.command s m seq code tests run) := by
  unfold State.command
  extract_lets +onlyGivenNames v0
  clear_value v0
  extract_lets +onlyGivenNames v1
  clear_value v1
  refine only_ite ?_ ?_
  · split
    · exact h_s
    · exact State.setResult_only (State.downRefuse_only h_s (inT rfl hsub)) (inT rfl hsub)
  · refine only_ite (State.refuseBy_only h_s hsub) ?_
    split
    · extract_lets +onlyGivenNames v2
      have h2 : Only fs s0 v2 := State.refuseBy_only h_s hsub
      clear_value v2
      exact only_ite h2 (State.setResult_only h2 (inT rfl hsub))
    · exact h_run _ (State.touch_only h_s (inT rfl hsub))

theorem State.badCommand_only {fs : List Part} {s0 : State} {s m seq code} (h_s : Only fs s0 s) (hsub : In [.regs, .host, .mgr, .trace, .log] fs) :
    Only fs s0 (State.badCommand s m seq code) := by
  unfold State.badCommand
  exact State.command_only h_s (fun _ h0 => h0) hsub

theorem State.closeStage_only {fs : List Part} {s0 : State} {s} (h_s : Only fs s0 s) (hsub : In [.stg, .stage] fs) :
    Only fs s0 (State.closeStage s) := by
  unfold State.closeStage
  extract_lets +onlyGivenNames v0
  clear_value v0
  exact Only.upd h_s (inT (F := [.stg, .stage]) rfl hsub) (by intro f hf; cases f <;> first | rfl | simp at hf)

theorem State.armStrike_only {fs : List Part} {s0 : State} {s} (h_s : Only fs s0 s) (hsub : In [.regs, .stage] fs) :
    Only fs s0 (State.armStrike s) := by
  unfold State.armStrike
  extract_lets +onlyGivenNames v0
  clear_value v0
  exact State.setPair_only (State.onStage_only h_s (inT rfl hsub)) (inT rfl hsub)

theorem State.armStrikeAt_only {fs : List Part} {s0 : State} {s t tag} (h_s : Only fs s0 s) (hsub : In [.regs, .stage] fs) :
    Only fs s0 (State.armStrikeAt s t tag) := by
  unfold State.armStrikeAt
  exact State.setPair_only (State.onStage_only h_s (inT rfl hsub)) (inT rfl hsub)

theorem State.cancelStrikeAt_only {fs : List Part} {s0 : State} {s} (h_s : Only fs s0 s) (hsub : In [.regs, .stage, .trace] fs) :
    Only fs s0 (State.cancelStrikeAt s) := by
  unfold State.cancelStrikeAt
  split
  · exact State.event_only (State.onStage_only h_s (inT rfl hsub)) (inT rfl hsub)
  · exact h_s

theorem State.startProof_only {fs : List Part} {s0 : State} {s m seq code arms} (h_s : Only fs s0 s) (hsub : In [.regs, .stage, .host, .mgr, .trace] fs) :
    Only fs s0 (State.startProof s m seq code arms) := by
  unfold State.startProof
  extract_lets +onlyGivenNames v0
  clear_value v0
  exact State.begin__only (State.onStage_only h_s (inT rfl hsub)) (inT rfl hsub)

theorem execStageOpen_only {fs : List Part} {s0 : State} {m seq arg8 s} (h_s : Only fs s0 s) (hsub : In [.regs, .stg, .stage, .host, .mgr, .trace, .log] fs) :
    OnlyN fs s0 (execStageOpen m seq arg8 s) := by
  unfold execStageOpen
  extract_lets +onlyGivenNames v0
  clear_value v0
  refine onlyN_next ?_
  refine State.command_only h_s ?_ (inT rfl hsub)
  intro t3 h4
  extract_lets +onlyGivenNames v5
  clear_value v5
  refine State.accept_only ?_ (inT rfl hsub)
  exact Only.upd h4 (inT (F := [.stg, .stage]) rfl hsub) (by intro f hf; cases f <;> first | rfl | simp at hf)

theorem execStageDiscard_only {fs : List Part} {s0 : State} {m seq arg8 s} (h_s : Only fs s0 s) (hsub : In [.regs, .stg, .stage, .host, .mgr, .trace, .log] fs) :
    OnlyN fs s0 (execStageDiscard m seq arg8 s) := by
  unfold execStageDiscard
  extract_lets +onlyGivenNames v0
  clear_value v0
  refine onlyN_next ?_
  refine State.command_only h_s ?_ (inT rfl hsub)
  intro t3 h4
  extract_lets +onlyGivenNames v5
  clear_value v5
  exact State.accept_only (State.onMstr_only (State.closeStage_only h4 (inT rfl hsub)) (inT rfl hsub)) (inT rfl hsub)

theorem execProof_only {fs : List Part} {s0 : State} {m seq arg8 s} (h_s : Only fs s0 s) (hsub : In [.regs, .stage, .host, .mgr, .trace, .log] fs) :
    OnlyN fs s0 (execProof m seq arg8 s) := by
  unfold execProof
  extract_lets +onlyGivenNames v0
  clear_value v0
  exact onlyN_next (State.command_only h_s (fun _ h1 => State.startProof_only h1 (inT rfl hsub)) (inT rfl hsub))

theorem execStrike_only {fs : List Part} {s0 : State} {m seq arg8 s} (h_s : Only fs s0 s) (hsub : In [.regs, .stage, .host, .mgr, .trace, .log] fs) :
    OnlyN fs s0 (execStrike m seq arg8 s) := by
  unfold execStrike
  extract_lets +onlyGivenNames v0
  clear_value v0
  exact onlyN_next (State.command_only h_s (fun _ h1 => State.accept_only (State.armStrike_only h1 (inT rfl hsub)) (inT rfl hsub)) (inT rfl hsub))

theorem execStrikeAt_only {fs : List Part} {s0 : State} {m seq arg8 s} (h_s : Only fs s0 s) (hsub : In [.regs, .stage, .host, .mgr, .trace, .log] fs) :
    OnlyN fs s0 (execStrikeAt m seq arg8 s) := by
  unfold execStrikeAt
  extract_lets +onlyGivenNames v0
  clear_value v0
  extract_lets +onlyGivenNames v1
  clear_value v1
  extract_lets +onlyGivenNames v2
  clear_value v2
  exact onlyN_next (State.command_only h_s (fun _ h3 => State.accept_only (State.armStrikeAt_only h3 (inT rfl hsub)) (inT rfl hsub)) (inT rfl hsub))

theorem execProofStrike_only {fs : List Part} {s0 : State} {m seq arg8 s} (h_s : Only fs s0 s) (hsub : In [.regs, .stage, .host, .mgr, .trace, .log] fs) :
    OnlyN fs s0 (execProofStrike m seq arg8 s) := by
  unfold execProofStrike
  extract_lets +onlyGivenNames v0
  clear_value v0
  exact onlyN_next (State.command_only h_s (fun _ h1 => State.startProof_only h1 (inT rfl hsub)) (inT rfl hsub))

theorem State.markDirty_only {fs : List Part} {s0 : State} {s p} (h_s : Only fs s0 s) (hsub : In [.stage] fs) :
    Only fs s0 (State.markDirty s p) := by
  unfold State.markDirty
  exact State.onStage_only h_s hsub

theorem execReadmit_only {fs : List Part} {s0 : State} {m seq arg8 s} (h_s : Only fs s0 s) (hsub : In [.regs, .stage, .host, .mgr, .trace, .log] fs) :
    OnlyN fs s0 (execReadmit m seq arg8 s) := by
  unfold execReadmit
  extract_lets +onlyGivenNames v0
  clear_value v0
  extract_lets +onlyGivenNames v1
  clear_value v1
  extract_lets +onlyGivenNames v2
  clear_value v2
  refine onlyN_next ?_
  refine State.command_only h_s ?_ (inT rfl hsub)
  intro t5 h6
  extract_lets +onlyGivenNames v7
  have h7 : Only fs s0 v7 := State.onStage_only h6 (inT rfl hsub)
  clear_value v7
  exact State.accept_only (State.markDirty_only h7 (inT rfl hsub)) (inT rfl hsub)

theorem State.stagedWrite_only {fs : List Part} {s0 : State} {s m a v} (h_s : Only fs s0 s) (hsub : In [.regs, .stg, .stage, .host, .mgr, .trace, .log] fs) :
    Only fs s0 (State.stagedWrite s m a v) := by
  unfold State.stagedWrite
  extract_lets +onlyGivenNames v0
  clear_value v0
  extract_lets +onlyGivenNames v1
  clear_value v1
  refine only_ite (only_ite (State.downRefuse_only h_s (inT rfl hsub)) h_s) ?_
  split
  · exact State.refuseBy_only h_s (inT rfl hsub)
  · extract_lets +onlyGivenNames v2
    have h2 : Only fs s0 v2 := State.setCd_only (State.touch_only h_s (inT rfl hsub)) (inT rfl hsub)
    clear_value v2
    exact State.markDirty_only (State.onStage_only h2 (inT rfl hsub)) (inT rfl hsub)

theorem execStagedWrite_only {fs : List Part} {s0 : State} {m addr v s} (h_s : Only fs s0 s) (hsub : In [.regs, .stg, .stage, .host, .mgr, .trace, .log] fs) :
    OnlyN fs s0 (execStagedWrite m addr v s) := by
  unfold execStagedWrite
  exact onlyN_ite (onlyN_next (State.stagedWrite_only h_s hsub)) (onlyN_next h_s)

theorem State.writeProof_only {fs : List Part} {s0 : State} {s o} (h_s : Only fs s0 s) (hsub : In [.regs, .stage] fs) :
    Only fs s0 (State.writeProof s o) := by
  unfold State.writeProof
  extract_lets +onlyGivenNames v0
  have h0 : Only fs s0 v0 := State.setLv_only (State.setLv_only (State.setLv_only h_s (inT rfl hsub)) (inT rfl hsub)) (inT rfl hsub)
  clear_value v0
  exact only_ite h0 (State.onStage_only h0 (inT rfl hsub))

theorem execProofDone_only {fs : List Part} {s0 : State} {s} (h_s : Only fs s0 s) (hsub : In [.regs, .stage, .host, .mgr, .trace] fs) :
    OnlyN fs s0 (execProofDone s) := by
  unfold execProofDone
  split
  · extract_lets +onlyGivenNames v0
    have h0 : Only fs s0 v0 := State.event_only (State.writeProof_only h_s (inT rfl hsub)) (inT rfl hsub)
    clear_value v0
    extract_lets +onlyGivenNames v1
    have h1 : Only fs s0 v1 := State.onStage_only h0 (inT rfl hsub)
    clear_value v1
    extract_lets +onlyGivenNames v2
    have h2 : Only fs s0 v2 := State.onStage_only h1 (inT rfl hsub)
    clear_value v2
    exact onlyN_ite (onlyN_next (State.complete_only (State.onStage_only h1 (inT rfl hsub)) (inT rfl hsub))) (onlyN_ite (onlyN_next (State.complete_only (only_ite (State.armStrike_only h2 (inT rfl hsub)) h2) (inT rfl hsub))) (onlyN_next (State.complete_only (State.onStage_only h1 (inT rfl hsub)) (inT rfl hsub))))
  · exact onlyN_next h_s

theorem execStageExpired_only {fs : List Part} {s0 : State} {s} (h_s : Only fs s0 s) (hsub : In [.regs, .stg, .time, .stage, .host, .mgr, .trace, .log] fs) :
    OnlyN fs s0 (execStageExpired s) := by
  unfold execStageExpired
  extract_lets +onlyGivenNames v0
  clear_value v0
  split
  · extract_lets +onlyGivenNames v1
    have h1 : Only fs s0 v1 := State.reach_only h_s (inT rfl hsub)
    clear_value v1
    extract_lets +onlyGivenNames v2
    have h2 : Only fs s0 v2 := only_ite (State.complete_only h1 (inT rfl hsub)) h1
    clear_value v2
    exact onlyN_ite (onlyN_next h_s) (onlyN_next (State.logAdd_only (State.event_only (State.closeStage_only h2 (inT rfl hsub)) (inT rfl hsub)) (inT rfl hsub)))
  · exact onlyN_next h_s

theorem execRetryWindowExpiry_only {fs : List Part} {s0 : State} {c s} (h_s : Only fs s0 s) (hsub : In [.regs, .time, .stage, .axes, .fbs, .mots, .legs, .lanes, .cans, .dos, .safety, .trace, .log, .chans, .timers] fs) :
    OnlyN fs s0 (execRetryWindowExpiry c s) := by
  unfold execRetryWindowExpiry
  split
  · extract_lets +onlyGivenNames v0
    have h0 : Only fs s0 v0 := State.reach_only h_s (inT rfl hsub)
    clear_value v0
    exact onlyN_ite (onlyN_next (State.backInService_only (State.onLg_only h0 (inT rfl hsub)) (inT rfl hsub))) (onlyN_next (State.onset_only h0 (inT rfl hsub)))
  · exact onlyN_next h_s

theorem execReproofDone_only {fs : List Part} {s0 : State} {s} (h_s : Only fs s0 s) (hsub : In [.regs, .stage, .axes, .lanes, .safety, .trace, .log] fs) :
    OnlyN fs s0 (execReproofDone s) := by
  unfold execReproofDone
  split
  · exact onlyN_next (State.finishReproof_only h_s hsub)
  · exact onlyN_next h_s

theorem State.enterCommit_only {fs : List Part} {s0 : State} {s} (h_s : Only fs s0 s) (hsub : In [.regs, .stage, .trace] fs) :
    Only fs s0 (State.enterCommit s) := by
  unfold State.enterCommit
  refine only_ite h_s ?_
  split
  · exact State.onStage_only h_s (inT rfl hsub)
  · exact State.event_only (State.writeProof_only (State.onStage_only h_s (inT rfl hsub)) (inT rfl hsub)) (inT rfl hsub)

theorem State.applyStage_only {fs : List Part} {s0 : State} {s} (h_s : Only fs s0 s) (hsub : In [.regs, .cfg, .stg, .stage, .trace, .log] fs) :
    Only fs s0 (State.applyStage s) := by
  unfold State.applyStage
  extract_lets +onlyGivenNames v0
  clear_value v0
  extract_lets +onlyGivenNames v1
  clear_value v1
  extract_lets +onlyGivenNames v2
  clear_value v2
  extract_lets +onlyGivenNames v3
  have h3 : Only fs s0 v3 := by
    unfold v3
    refine only_foldl ?_ _ ?_
    · intro t4 x5 h6
      exact State.setCf_only h6 (inT rfl hsub)
    · exact h_s
  clear_value v3
  extract_lets +onlyGivenNames v7
  have h7 : Only fs s0 v7 := State.setPair_only (State.setLv_only h3 (inT rfl hsub)) (inT rfl hsub)
  clear_value v7
  extract_lets +onlyGivenNames v8
  have h8 : Only fs s0 v8 := State.onStage_only h7 (inT rfl hsub)
  clear_value v8
  extract_lets +onlyGivenNames v9
  have h9 : Only fs s0 v9 := State.event_only (State.closeStage_only h8 (inT rfl hsub)) (inT rfl hsub)
  clear_value v9
  exact State.logAdd_only h9 (inT rfl hsub)

end Sys2Proof.Machine
end

