-- ==== Sys2Proof/Laws/OnlyNvLog.lean ====
section
/-!
SUPPORT. What the operations of Machine/NvLog.lean may change: one lemma each, from any state reached.
-/
namespace Sys2Proof.Machine

open Sys2Proof.Safety

theorem State.openSector_only {fs : List Part} {s0 : State} {s k type part body} (h_s : Only fs s0 s) (hsub : In [.mem, .eccBad] fs) :
    Only fs s0 (State.openSector s k type part body) := by
  unfold State.openSector
  extract_lets +onlyGivenNames v0
  clear_value v0
  extract_lets +onlyGivenNames v1
  clear_value v1
  extract_lets +onlyGivenNames v2
  clear_value v2
  exact State.putWords_only h_s hsub

theorem State.freeSector_only {fs : List Part} {s0 : State} {s k} (h_s : Only fs s0 s) (hsub : In [.mem, .eccBad] fs) :
    Only fs s0 (State.freeSector s k) := by
  unfold State.freeSector
  exact State.putWords_only h_s hsub

theorem State.openHead_only {fs : List Part} {s0 : State} {s} (h_s : Only fs s0 s) (hsub : In [.regs, .mem, .eccBad, .log] fs) :
    Only fs s0 (State.openHead s) := by
  unfold State.openHead
  extract_lets +onlyGivenNames v0
  clear_value v0
  extract_lets +onlyGivenNames v1
  have h1 : Only fs s0 v1 := State.openSector_only h_s (inT rfl hsub)
  clear_value v1
  exact State.setLv_only (State.onLog_only h1 (inT rfl hsub)) (inT rfl hsub)

theorem State.logFail_only {fs : List Part} {s0 : State} {s} (h_s : Only fs s0 s) (hsub : In [.regs, .axes, .safety, .trace, .log] fs) :
    Only fs s0 (State.logFail s) := by
  unfold State.logFail
  exact State.raisePulse_only (State.pfault_only h_s (inT rfl hsub)) hsub

theorem State.reportLost_only {fs : List Part} {s0 : State} {s} (h_s : Only fs s0 s) (hsub : In [.regs, .trace, .log] fs) :
    Only fs s0 (State.reportLost s) := by
  unfold State.reportLost
  extract_lets +onlyGivenNames v0
  clear_value v0
  exact only_ite h_s (State.logAdd_only (State.onLog_only h_s (inT rfl hsub)) hsub)

theorem execLogEntryCommit_only {fs : List Part} {s0 : State} {verified s} (h_s : Only fs s0 s) (hsub : In [.regs, .mem, .eccBad, .axes, .safety, .trace, .log, .free] fs) :
    OnlyN fs s0 (execLogEntryCommit verified s) := by
  unfold execLogEntryCommit
  split
  · exact onlyN_next h_s
  · extract_lets +onlyGivenNames v0
    have h0 : Only fs s0 v0 := only_ite h_s (State.openHead_only h_s (inT rfl hsub))
    clear_value v0
    extract_lets +onlyGivenNames v1
    have h1 : Only fs s0 v1 := State.onLog_only h0 (inT rfl hsub)
    clear_value v1
    extract_lets +onlyGivenNames v2
    clear_value v2
    extract_lets +onlyGivenNames v3
    clear_value v3
    extract_lets +onlyGivenNames v4
    clear_value v4
    extract_lets +onlyGivenNames v5
    have h5 : Only fs s0 v5 := by
      unfold v5
      refine only_ite (State.event_only (State.inc32_only (State.putWords_only h1 (inT rfl hsub)) (inT rfl hsub)) (inT rfl hsub)) ?_
      refine State.logFail_only ?_ (inT rfl hsub)
      refine State.putWords_only ?_ (inT rfl hsub)
      exact Only.upd h1 (inT (F := [.free]) rfl hsub) (by intro f hf; cases f <;> first | rfl | simp at hf)
    clear_value v5
    extract_lets +onlyGivenNames v6
    have h6 : Only fs s0 v6 := only_ite (State.openHead_only h5 (inT rfl hsub)) (State.onLog_only h5 (inT rfl hsub))
    clear_value v6
    exact onlyN_next (State.reportLost_only h6 (inT rfl hsub))

theorem execSaveImage_only {fs : List Part} {s0 : State} {m seq arg8 s} (h_s : Only fs s0 s) (hsub : In [.regs, .stage, .host, .mgr, .trace, .log] fs) :
    OnlyN fs s0 (execSaveImage m seq arg8 s) := by
  unfold execSaveImage
  extract_lets +onlyGivenNames v0
  clear_value v0
  exact onlyN_next (State.command_only h_s (fun _ h1 => State.begin__only (State.onStage_only h1 (inT rfl hsub)) (inT rfl hsub)) (inT rfl hsub))

theorem State.takeImage_only {fs : List Part} {s0 : State} {s} (h_s : Only fs s0 s) (hsub : In [.stage, .log] fs) :
    Only fs s0 (State.takeImage s) := by
  unfold State.takeImage
  split
  · exact State.onLog_only (State.onStage_only h_s (inT rfl hsub)) (inT rfl hsub)
  · exact h_s

theorem State.imageRegs_only {fs : List Part} {s0 : State} {s} (h_s : Only fs s0 s) (hsub : In [.regs] fs) :
    Only fs s0 (State.imageRegs s) := by
  unfold State.imageRegs
  split
  · exact h_s
  · exact State.setLv_only (State.setLv_only (State.setLv_only h_s hsub) hsub) hsub

theorem State.placeImage_only {fs : List Part} {s0 : State} {s parts} (h_s : Only fs s0 s) (hsub : In [.regs, .mem, .eccBad, .log] fs) :
    Only fs s0 (State.placeImage s parts) :=  by
  unfold State.placeImage
  extract_lets +onlyGivenNames old
  have hf : Only1 fs s0 (parts.zipIdx.foldl (fun (x : State × List Nat) part =>
      let from_ := (x.2.getLast?).getD x.1.log.head
      let k := ((List.range 256).map fun i => (from_ + 1 + i) % 256).find? fun j => !old.contains j && j != x.1.log.head
      match k with
      | none => x
      | some k => (x.1.openSector k 2 part.2 part.1, x.2 ++ [k])) (s, [])) := by
    refine only1_foldl (fun p x hp => ?_) _ (only1_mk h_s)
    have hp' : Only fs s0 p.1 := hp
    dsimp only
    split
    · exact hp
    · exact only1_mk (State.openSector_only hp' (inT rfl hsub))
  clear_value old
  split
  rename_i t new e
  have h1 := only1_fst hf e
  exact State.imageRegs_only (State.onLog_only (forL_only (fun _ _ h => State.freeSector_only h (inT rfl hsub)) h1) (inT rfl hsub)) (inT rfl hsub)

theorem execImageSaveDone_only {fs : List Part} {s0 : State} {verified s} (h_s : Only fs s0 s) (hsub : In [.regs, .mem, .eccBad, .stage, .host, .mgr, .axes, .safety, .trace, .log] fs) :
    OnlyN fs s0 (execImageSaveDone verified s) := by
  unfold execImageSaveDone
  split
  · extract_lets +onlyGivenNames v0
    clear_value v0
    extract_lets +onlyGivenNames v1
    have h1 : Only fs s0 v1 := State.onLog_only (State.onStage_only h_s (inT rfl hsub)) (inT rfl hsub)
    clear_value v1
    exact onlyN_ite (onlyN_next (State.complete_only (State.event_only h1 (inT rfl hsub)) (inT rfl hsub))) (onlyN_ite (onlyN_next (State.complete_only (State.logFail_only (State.event_only h1 (inT rfl hsub)) (inT rfl hsub)) (inT rfl hsub))) (onlyN_next (State.complete_only (State.logAdd_only (State.event_only (State.placeImage_only h1 (inT rfl hsub)) (inT rfl hsub)) (inT rfl hsub)) (inT rfl hsub))))
  · exact onlyN_next h_s

theorem execLogWearCopy_only {fs : List Part} {s0 : State} {verified s} (h_s : Only fs s0 s) (hsub : In [.regs, .mem, .eccBad, .axes, .safety, .trace, .log] fs) :
    OnlyN fs s0 (execLogWearCopy verified s) := by
  unfold execLogWearCopy
  exact onlyN_ite (onlyN_next h_s) (onlyN_ite (onlyN_next (State.logFail_only h_s (inT rfl hsub))) (onlyN_next (State.placeImage_only h_s (inT rfl hsub))))

theorem State.bootLog_only {fs : List Part} {s0 : State} {s source} (h_s : Only fs s0 s) (hsub : In [.regs, .mem, .eccBad, .axes, .safety, .trace, .log, .free] fs) :
    Only fs s0 (State.bootLog s source) := by
  unfold State.bootLog
  extract_lets +onlyGivenNames v0
  have h0 : Only fs s0 v0 := only_ite h_s (State.openHead_only h_s (inT rfl hsub))
  clear_value v0
  extract_lets +onlyGivenNames v1
  have h1 : Only fs s0 v1 := State.onLog_only h0 (inT rfl hsub)
  clear_value v1
  extract_lets +onlyGivenNames v2
  have h2 : Only fs s0 v2 := State.setLv_only h1 (inT rfl hsub)
  clear_value v2
  split
  · rename_i x3 t4 e5
    have h6 := onlyN_get (execLogEntryCommit_only (State.onLog_only h2 (inT rfl hsub)) hsub) e5
    exact State.imageRegs_only h6 (inT rfl hsub)
  · exact h2

end Sys2Proof.Machine
end

