-- ==== Sys2Proof/Laws/OnlyLoop.lean ====
section
/-!
SUPPORT. What the operations of Machine/Loop.lean may change: one lemma each, from any state reached.
-/
namespace Sys2Proof.Machine

open Sys2Proof.Safety

theorem State.ctxSat_only {fs : List Part} {s0 : State} {s x f} (h_s : Only fs s0 s) (hsub : In [.regs, .ctxs, .trace] fs) :
    Only fs s0 (State.ctxSat s x f) := by
  unfold State.ctxSat
  exact only_ite (State.event_only (State.onCx_only h_s (inT rfl hsub)) (inT rfl hsub)) h_s

theorem State.ctxDone_only {fs : List Part} {s0 : State} {s x out} (h_s : Only fs s0 s) (hsub : In [.ctxs] fs) :
    Only fs s0 (State.ctxDone s x out) := by
  unfold State.ctxDone
  extract_lets +onlyGivenNames v0
  clear_value v0
  exact State.onCx_only h_s hsub

theorem State.runController_only {fs : List Part} {s0 : State} {s x i} (h_s : Only fs s0 s) (hsub : In [.regs, .ctxs, .trace] fs) :
    Only fs s0 (State.runController s x i) := by
  unfold State.runController
  extract_lets +onlyGivenNames v0
  clear_value v0
  extract_lets +onlyGivenNames v1
  clear_value v1
  extract_lets +onlyGivenNames v2
  clear_value v2
  extract_lets +onlyGivenNames v3
  clear_value v3
  extract_lets +onlyGivenNames v4
  clear_value v4
  extract_lets +onlyGivenNames v5
  clear_value v5
  extract_lets +onlyGivenNames v6
  clear_value v6
  extract_lets +onlyGivenNames v7
  clear_value v7
  split
  · split
    · split
      · extract_lets +onlyGivenNames v8
        clear_value v8
        extract_lets +onlyGivenNames v9
        clear_value v9
        extract_lets +onlyGivenNames v10
        clear_value v10
        split
        · extract_lets +onlyGivenNames v11
          clear_value v11
          extract_lets +onlyGivenNames v12
          clear_value v12
          extract_lets +onlyGivenNames v13
          have h13 : Only fs s0 v13 := State.onCx_only h_s (inT rfl hsub)
          clear_value v13
          exact State.ctxDone_only (State.ctxSat_only h13 hsub) (inT rfl hsub)

theorem State.runOpen_only {fs : List Part} {s0 : State} {s x i} (h_s : Only fs s0 s) (hsub : In [.ctxs] fs) :
    Only fs s0 (State.runOpen s x i) := by
  unfold State.runOpen
  extract_lets +onlyGivenNames v0
  clear_value v0
  extract_lets +onlyGivenNames v1
  clear_value v1
  extract_lets +onlyGivenNames v2
  clear_value v2
  extract_lets +onlyGivenNames v3
  have h3 : Only fs s0 v3 := State.onCx_only h_s hsub
  clear_value v3
  exact State.ctxDone_only h3 hsub

theorem State.runCtl_only {fs : List Part} {s0 : State} {s x} (h_s : Only fs s0 s) (hsub : In [.regs, .ctxs, .trace] fs) :
    Only fs s0 (State.runCtl s x) := by
  unfold State.runCtl
  extract_lets +onlyGivenNames v0
  clear_value v0
  extract_lets +onlyGivenNames v1
  clear_value v1
  split
  · extract_lets +onlyGivenNames v2
    clear_value v2
    extract_lets +onlyGivenNames v3
    clear_value v3
    split
    · extract_lets +onlyGivenNames v4
      clear_value v4
      extract_lets +onlyGivenNames v5
      clear_value v5
      extract_lets +onlyGivenNames v6
      clear_value v6
      extract_lets +onlyGivenNames v7
      clear_value v7
      extract_lets +onlyGivenNames v8
      clear_value v8
      extract_lets +onlyGivenNames v9
      have h9 : Only fs s0 v9 := only_ite (State.onCx_only h_s (inT rfl hsub)) h_s
      clear_value v9
      extract_lets +onlyGivenNames v10
      have h10 : Only fs s0 v10 := State.onCx_only h9 (inT rfl hsub)
      clear_value v10
      exact only_ite (State.runOpen_only h_s (inT rfl hsub)) (State.runController_only h10 hsub)

theorem State.runFilter_only {fs : List Part} {s0 : State} {s x} (h_s : Only fs s0 s) (hsub : In [.regs, .ctxs, .trace] fs) :
    Only fs s0 (State.runFilter s x) := by
  unfold State.runFilter
  extract_lets +onlyGivenNames v0
  clear_value v0
  extract_lets +onlyGivenNames v1
  clear_value v1
  extract_lets +onlyGivenNames v2
  clear_value v2
  split
  · split
    · split
      · extract_lets +onlyGivenNames v3
        have h3 : Only fs s0 v3 := State.onCx_only h_s (inT rfl hsub)
        clear_value v3
        exact State.ctxDone_only (State.ctxSat_only h3 hsub) (inT rfl hsub)

theorem State.runHeld_only {fs : List Part} {s0 : State} {s x} (h_s : Only fs s0 s) (hsub : In [.regs, .ctxs, .trace] fs) :
    Only fs s0 (State.runHeld s x) := by
  unfold State.runHeld
  extract_lets +onlyGivenNames v0
  have h0 : Only fs s0 v0 := only_ite h_s (State.pfault_only (State.event_only (State.onCx_only h_s (inT rfl hsub)) (inT rfl hsub)) (inT rfl hsub))
  clear_value v0
  exact State.onCx_only h0 (inT rfl hsub)

theorem State.select_only {fs : List Part} {s0 : State} {s g} (h_s : Only fs s0 s) (hsub : In [.regs, .ctxs, .trace] fs) :
    Only fs s0 (State.select s g) := by
  unfold State.select
  extract_lets +onlyGivenNames v0
  clear_value v0
  extract_lets +onlyGivenNames v1
  clear_value v1
  extract_lets +onlyGivenNames v2
  clear_value v2
  split
  · exact h_s
  · extract_lets +onlyGivenNames v3
    clear_value v3
    extract_lets +onlyGivenNames v4
    clear_value v4
    extract_lets +onlyGivenNames v5
    clear_value v5
    extract_lets +onlyGivenNames v6
    clear_value v6
    extract_lets +onlyGivenNames v7
    clear_value v7
    extract_lets +onlyGivenNames v8
    have h8 : Only fs s0 v8 := by
      unfold v8
      refine forL_only ?_ h_s
      intro x11 t12 h13
      extract_lets +onlyGivenNames v14
      clear_value v14
      extract_lets +onlyGivenNames v15
      clear_value v15
      refine only_ite (State.onCx_only h13 (inT rfl hsub)) ?_
      split
      · exact State.ctxSat_only (State.onCx_only h13 (inT rfl hsub)) hsub
    clear_value v8
    exact State.onCx_only h8 (inT rfl hsub)

theorem State.takeFresh_only {fs : List Part} {s0 : State} {s x} (h_s : Only fs s0 s) (hsub : In [.regs, .ctxs, .trace] fs) :
    Only fs s0 (State.takeFresh s x) := by
  unfold State.takeFresh
  refine only_ite h_s ?_
  split
  · extract_lets +onlyGivenNames v0
    clear_value v0
    exact State.ctxSat_only (State.onCx_only h_s (inT rfl hsub)) hsub

theorem State.runCtx_only {fs : List Part} {s0 : State} {s x} (h_s : Only fs s0 s) (hsub : In [.regs, .ctxs, .trace] fs) :
    Only fs s0 (State.runCtx s x) := by
  unfold State.runCtx
  extract_lets +onlyGivenNames v0
  clear_value v0
  extract_lets +onlyGivenNames v1
  have h1 : Only fs s0 v1 := State.takeFresh_only h_s hsub
  clear_value v1
  extract_lets +onlyGivenNames v2
  have h2 : Only fs s0 v2 := State.onCx_only h1 (inT rfl hsub)
  clear_value v2
  extract_lets +onlyGivenNames v3
  clear_value v3
  extract_lets +onlyGivenNames v4
  have h4 : Only fs s0 v4 := only_ite (State.runHeld_only h2 hsub) (only_ite (State.runFilter_only h2 hsub) (State.runCtl_only h2 hsub))
  clear_value v4
  refine only_ite h_s ?_
  split
  · exact only_ite (State.select_only h4 hsub) h4
  · exact h4

theorem State.ctxBoundary_only {fs : List Part} {s0 : State} {s} (h_s : Only fs s0 s) (hsub : In [.mem, .eccBad, .ctxs] fs) :
    Only fs s0 (State.ctxBoundary s) := by
  unfold State.ctxBoundary
  refine forN_only ?_ h_s
  intro x1 t2 h3
  extract_lets +onlyGivenNames v4
  clear_value v4
  extract_lets +onlyGivenNames v5
  have h5 : Only fs s0 v5 := State.onCx_only h3 (inT rfl hsub)
  clear_value v5
  extract_lets +onlyGivenNames v6
  have h6 : Only fs s0 v6 := by
    unfold v6
    refine only_ite ?_ h3
    split
    · exact only_ite (State.putWord_only h5 (inT rfl hsub)) h5
    · exact h5
  clear_value v6
  exact only_ite h3 (State.onCx_only h6 (inT rfl hsub))

theorem State.clearLoop_only {fs : List Part} {s0 : State} {s} (h_s : Only fs s0 s) (hsub : In [.regs, .ctxs] fs) :
    Only fs s0 (State.clearLoop s) := by
  unfold State.clearLoop
  refine forN_only ?_ h_s
  intro x1 t2 h3
  extract_lets +onlyGivenNames v4
  have h4 : Only fs s0 v4 := State.onCx_only h3 (inT rfl hsub)
  clear_value v4
  exact only_ite h4 (State.onLv_only h4 (inT rfl hsub))

theorem State.ctxStrike_only {fs : List Part} {s0 : State} {s was changed} (h_s : Only fs s0 s) (hsub : In [.ctxs] fs) :
    Only fs s0 (State.ctxStrike s was changed) := by
  unfold State.ctxStrike
  refine forN_only ?_ h_s
  intro x1 t2 h3
  extract_lets +onlyGivenNames v4
  have h4 : Only fs s0 v4 := only_ite h3 (State.onCx_only h3 hsub)
  clear_value v4
  extract_lets +onlyGivenNames v5
  clear_value v5
  extract_lets +onlyGivenNames v6
  clear_value v6
  extract_lets +onlyGivenNames v7
  have h7 : Only fs s0 v7 := only_ite (State.onCx_only h4 hsub) h4
  clear_value v7
  exact only_ite (only_ite (State.onCx_only h3 hsub) h3) (only_ite (State.onCx_only h7 hsub) h7)

end Sys2Proof.Machine
end

