-- ==== Sys2Proof/Laws/OnlyRope.lean ====
section
/-!
SUPPORT. What the operations of Machine/Rope.lean may change: one lemma each, from any state reached.
-/
namespace Sys2Proof.Machine

open Sys2Proof.Safety

theorem State.ropeSlack_only {fs : List Part} {s0 : State} {s r} (h_s : Only fs s0 s) (hsub : In [.regs, .axes, .ropes, .safety, .trace, .log] fs) :
    Only fs s0 (State.ropeSlack s r) := by
  unfold State.ropeSlack
  extract_lets +onlyGivenNames v0
  clear_value v0
  extract_lets +onlyGivenNames v1
  clear_value v1
  extract_lets +onlyGivenNames v2
  clear_value v2
  extract_lets +onlyGivenNames v3
  have h3 : Only fs s0 v3 := State.onRp_only h_s (inT rfl hsub)
  clear_value v3
  extract_lets +onlyGivenNames v4
  have h4 : Only fs s0 v4 := State.onRp_only h_s (inT rfl hsub)
  clear_value v4
  exact only_ite (only_ite (State.raise_only (State.pfault_only (State.event_only (State.onRp_only h3 (inT rfl hsub)) (inT rfl hsub)) (inT rfl hsub)) (inT rfl hsub)) h3) (only_ite (State.clearSrc_only (State.onRp_only h4 (inT rfl hsub)) (inT rfl hsub)) h4)

theorem State.ropeSnatch_only {fs : List Part} {s0 : State} {s r} (h_s : Only fs s0 s) (hsub : In [.regs, .axes, .ropes, .safety, .trace, .log] fs) :
    Only fs s0 (State.ropeSnatch s r) := by
  unfold State.ropeSnatch
  extract_lets +onlyGivenNames v0
  clear_value v0
  extract_lets +onlyGivenNames v1
  clear_value v1
  extract_lets +onlyGivenNames v2
  clear_value v2
  extract_lets +onlyGivenNames v3
  clear_value v3
  extract_lets +onlyGivenNames v4
  clear_value v4
  extract_lets +onlyGivenNames v5
  clear_value v5
  extract_lets +onlyGivenNames v6
  have h6 : Only fs s0 v6 := State.onRp_only h_s (inT rfl hsub)
  clear_value v6
  exact only_ite (State.raisePulse_only (State.event_only (State.onRp_only h6 (inT rfl hsub)) (inT rfl hsub)) (inT rfl hsub)) (State.onRp_only h6 (inT rfl hsub))

theorem State.runRope_only {fs : List Part} {s0 : State} {s a} (h_s : Only fs s0 s) (hsub : In [.regs, .axes, .ropes, .safety, .trace, .log] fs) :
    Only fs s0 (State.runRope s a) := by
  unfold State.runRope
  extract_lets +onlyGivenNames v0
  clear_value v0
  split
  · exact h_s
  · extract_lets +onlyGivenNames v1
    clear_value v1
    extract_lets +onlyGivenNames v2
    clear_value v2
    extract_lets +onlyGivenNames v3
    clear_value v3
    split
    · extract_lets +onlyGivenNames v4
      clear_value v4
      extract_lets +onlyGivenNames v5
      clear_value v5
      extract_lets +onlyGivenNames v6
      have h6 : Only fs s0 v6 := State.setLv_only (State.setLv_only (State.setLv_only h_s (inT rfl hsub)) (inT rfl hsub)) (inT rfl hsub)
      clear_value v6
      extract_lets +onlyGivenNames v7
      have h7 : Only fs s0 v7 := only_ite (State.raise_only h6 (inT rfl hsub)) (State.clearSrc_only h6 (inT rfl hsub))
      clear_value v7
      extract_lets +onlyGivenNames v8
      have h8 : Only fs s0 v8 := State.onRp_only h7 (inT rfl hsub)
      clear_value v8
      extract_lets +onlyGivenNames v9
      clear_value v9
      extract_lets +onlyGivenNames v10
      clear_value v10
      extract_lets +onlyGivenNames v11
      have h11 : Only fs s0 v11 := only_ite h7 (State.onRp_only h7 (inT rfl hsub))
      clear_value v11
      extract_lets +onlyGivenNames v12
      clear_value v12
      extract_lets +onlyGivenNames v13
      clear_value v13
      refine only_ite (State.setLv_only (State.setLv_only h8 (inT rfl hsub)) (inT rfl hsub)) ?_
      split
      · extract_lets +onlyGivenNames v14
        clear_value v14
        extract_lets +onlyGivenNames v15
        have h15 : Only fs s0 v15 := State.onRp_only h11 (inT rfl hsub)
        clear_value v15
        extract_lets +onlyGivenNames v16
        have h16 : Only fs s0 v16 := only_ite (State.onRp_only h15 (inT rfl hsub)) (State.ropeSnatch_only (State.ropeSlack_only h15 hsub) hsub)
        clear_value v16
        extract_lets +onlyGivenNames v17
        have h17 : Only fs s0 v17 := State.setLv_only (State.setLv_only h16 (inT rfl hsub)) (inT rfl hsub)
        clear_value v17
        extract_lets +onlyGivenNames v18
        have h18 : Only fs s0 v18 := State.setLv_only h17 (inT rfl hsub)
        clear_value v18
        exact State.setLv_only (State.setLv_only h18 (inT rfl hsub)) (inT rfl hsub)

end Sys2Proof.Machine
end

