-- ==== Sys2Proof/Laws/OnlyCommut.lean ====
section
/-!
SUPPORT. What the operations of Machine/Commut.lean may change: one lemma each, from any state reached.
-/
namespace Sys2Proof.Machine

open Sys2Proof.Safety

theorem State.declareLos_only {fs : List Part} {s0 : State} {s a} (h_s : Only fs s0 s) (hsub : In [.regs, .axes, .drives, .mots, .legs, .safety, .trace, .log, .timers] fs) :
    Only fs s0 (State.declareLos s a) := by
  unfold State.declareLos
  extract_lets +onlyGivenNames v0
  clear_value v0
  extract_lets +onlyGivenNames v1
  have h1 : Only fs s0 v1 := State.onDr_only (State.raisePulse_only (State.event_only h_s (inT rfl hsub)) (inT rfl hsub)) (inT rfl hsub)
  clear_value v1
  extract_lets +onlyGivenNames v2
  clear_value v2
  extract_lets +onlyGivenNames v3
  clear_value v3
  exact only_ite (State.onDr_only h1 (inT rfl hsub)) (only_ite (only_ite (State.pushReact_only (State.stoNow_only h1 (inT rfl hsub)) (inT rfl hsub)) (only_ite (State.pfault_only (State.raise_only h1 (inT rfl hsub)) (inT rfl hsub)) (State.inc16_only (State.onDr_only h1 (inT rfl hsub)) (inT rfl hsub)))) h1)

theorem State.restartDone_only {fs : List Part} {s0 : State} {s a} (h_s : Only fs s0 s) (hsub : In [.regs, .drives, .safety, .trace, .timers] fs) :
    Only fs s0 (State.restartDone s a) := by
  unfold State.restartDone
  extract_lets +onlyGivenNames v0
  clear_value v0
  extract_lets +onlyGivenNames v1
  have h1 : Only fs s0 v1 := State.onDr_only h_s (inT rfl hsub)
  clear_value v1
  extract_lets +onlyGivenNames v2
  have h2 : Only fs s0 v2 := State.stopT_only (State.stopT_only h1 (inT rfl hsub)) (inT rfl hsub)
  clear_value v2
  exact only_ite (State.clearSrc_only (State.event_only h2 (inT rfl hsub)) (inT rfl hsub)) h2

theorem State.startCatch_only {fs : List Part} {s0 : State} {s a attempt} (h_s : Only fs s0 s) (hsub : In [.drives, .timers] fs) :
    Only fs s0 (State.startCatch s a attempt) := by
  unfold State.startCatch
  extract_lets +onlyGivenNames v0
  clear_value v0
  extract_lets +onlyGivenNames v1
  have h1 : Only fs s0 v1 := State.startT_only (State.onDr_only h_s (inT rfl hsub)) (inT rfl hsub)
  clear_value v1
  exact only_ite (State.startT_only h1 (inT rfl hsub)) h1

theorem State.runStart_only {fs : List Part} {s0 : State} {s a prevTh} (h_s : Only fs s0 s) (hsub : In [.regs, .drives, .safety, .trace, .timers] fs) :
    Only fs s0 (State.runStart s a prevTh) := by
  unfold State.runStart
  extract_lets +onlyGivenNames v0
  clear_value v0
  extract_lets +onlyGivenNames v1
  clear_value v1
  split
  · exact h_s
  · exact only_ite (State.restartDone_only h_s hsub) h_s
  · exact only_ite h_s (State.onDr_only h_s (inT rfl hsub))
  · extract_lets +onlyGivenNames v2
    clear_value v2
    extract_lets +onlyGivenNames v3
    clear_value v3
    extract_lets +onlyGivenNames v4
    have h4 : Only fs s0 v4 := State.onDr_only h_s (inT rfl hsub)
    clear_value v4
    exact only_ite (State.onDr_only h4 (inT rfl hsub)) h4
  · extract_lets +onlyGivenNames v5
    clear_value v5
    extract_lets +onlyGivenNames v6
    clear_value v6
    extract_lets +onlyGivenNames v7
    have h7 : Only fs s0 v7 := State.onDr_only h_s (inT rfl hsub)
    clear_value v7
    exact only_ite (State.restartDone_only h7 hsub) h7

theorem State.runObserver_only {fs : List Part} {s0 : State} {s a ia ib seedTh seedSpeed} (h_s : Only fs s0 s) (hsub : In [.regs, .axes, .drives, .mots, .legs, .safety, .trace, .log, .timers] fs) :
    Only fs s0 (State.runObserver s a ia ib seedTh seedSpeed) := by
  unfold State.runObserver
  extract_lets +onlyGivenNames v0
  clear_value v0
  extract_lets +onlyGivenNames v1
  clear_value v1
  extract_lets +onlyGivenNames v2
  clear_value v2
  extract_lets +onlyGivenNames v3
  clear_value v3
  extract_lets +onlyGivenNames v4
  clear_value v4
  extract_lets +onlyGivenNames v5
  clear_value v5
  extract_lets +onlyGivenNames v6
  clear_value v6
  extract_lets +onlyGivenNames v7
  clear_value v7
  extract_lets +onlyGivenNames v8
  clear_value v8
  extract_lets +onlyGivenNames v9
  clear_value v9
  extract_lets +onlyGivenNames v10
  clear_value v10
  extract_lets +onlyGivenNames v11
  clear_value v11
  extract_lets +onlyGivenNames v12
  clear_value v12
  extract_lets +onlyGivenNames v13
  clear_value v13
  extract_lets +onlyGivenNames v14
  clear_value v14
  extract_lets +onlyGivenNames v15
  clear_value v15
  extract_lets +onlyGivenNames v16
  clear_value v16
  extract_lets +onlyGivenNames v17
  clear_value v17
  extract_lets +onlyGivenNames v18
  clear_value v18
  extract_lets +onlyGivenNames v19
  clear_value v19
  extract_lets +onlyGivenNames v20
  clear_value v20
  extract_lets +onlyGivenNames v21
  clear_value v21
  extract_lets +onlyGivenNames v22
  clear_value v22
  extract_lets +onlyGivenNames v23
  clear_value v23
  extract_lets +onlyGivenNames v24
  clear_value v24
  extract_lets +onlyGivenNames v25
  clear_value v25
  extract_lets +onlyGivenNames v26
  clear_value v26
  extract_lets +onlyGivenNames v27
  clear_value v27
  extract_lets +onlyGivenNames v28
  clear_value v28
  extract_lets +onlyGivenNames v29
  clear_value v29
  extract_lets +onlyGivenNames v30
  clear_value v30
  extract_lets +onlyGivenNames v31
  clear_value v31
  extract_lets +onlyGivenNames v32
  have h32 : Only fs s0 v32 := State.setLv_only (State.onDr_only h_s (inT rfl hsub)) (inT rfl hsub)
  clear_value v32
  exact only_ite (State.onDr_only h_s (inT rfl hsub)) (only_ite (State.declareLos_only h32 hsub) h32)

theorem State.noVector_only {fs : List Part} {s0 : State} {s a} (h_s : Only fs s0 s) (hsub : In [.regs, .drives] fs) :
    Only fs s0 (State.noVector s a) := by
  unfold State.noVector
  extract_lets +onlyGivenNames v0
  have h0 : Only fs s0 v0 := State.onDr_only h_s (inT rfl hsub)
  clear_value v0
  exact State.onLv_only (State.onLv_only h0 (inT rfl hsub)) (inT rfl hsub)

theorem State.runFoc_only {fs : List Part} {s0 : State} {s a rf valid ths ts} (h_s : Only fs s0 s) (hsub : In [.regs, .drives] fs) :
    Only fs s0 (State.runFoc s a rf valid ths ts) := by
  unfold State.runFoc
  extract_lets +onlyGivenNames v0
  clear_value v0
  extract_lets +onlyGivenNames v1
  clear_value v1
  extract_lets +onlyGivenNames v2
  clear_value v2
  extract_lets +onlyGivenNames v3
  clear_value v3
  extract_lets +onlyGivenNames v4
  clear_value v4
  extract_lets +onlyGivenNames v5
  clear_value v5
  extract_lets +onlyGivenNames v6
  clear_value v6
  extract_lets +onlyGivenNames v7
  clear_value v7
  extract_lets +onlyGivenNames v8
  clear_value v8
  extract_lets +onlyGivenNames v9
  clear_value v9
  extract_lets +onlyGivenNames v10
  clear_value v10
  extract_lets +onlyGivenNames v11
  clear_value v11
  extract_lets +onlyGivenNames v12
  clear_value v12
  extract_lets +onlyGivenNames v13
  clear_value v13
  extract_lets +onlyGivenNames v14
  clear_value v14
  extract_lets +onlyGivenNames v15
  clear_value v15
  extract_lets +onlyGivenNames v16
  clear_value v16
  extract_lets +onlyGivenNames v17
  clear_value v17
  extract_lets +onlyGivenNames v18
  clear_value v18
  split
  · extract_lets +onlyGivenNames v19
    clear_value v19
    extract_lets +onlyGivenNames v20
    clear_value v20
    extract_lets +onlyGivenNames v21
    clear_value v21
    extract_lets +onlyGivenNames v22
    clear_value v22
    extract_lets +onlyGivenNames v23
    clear_value v23
    extract_lets +onlyGivenNames v24
    clear_value v24
    extract_lets +onlyGivenNames v25
    clear_value v25
    extract_lets +onlyGivenNames v26
    clear_value v26
    extract_lets +onlyGivenNames v27
    clear_value v27
    extract_lets +onlyGivenNames v28
    clear_value v28
    extract_lets +onlyGivenNames v29
    have h29 : Only fs s0 v29 := State.onDr_only h_s (inT rfl hsub)
    clear_value v29
    extract_lets +onlyGivenNames v30
    clear_value v30
    extract_lets +onlyGivenNames v31
    clear_value v31
    extract_lets +onlyGivenNames v32
    have h32 : Only fs s0 v32 := State.setLv_only h29 (inT rfl hsub)
    clear_value v32
    extract_lets +onlyGivenNames v33
    have h33 : Only fs s0 v33 := only_ite (State.inc32_only h32 (inT rfl hsub)) h32
    clear_value v33
    exact State.onLv_only h33 (inT rfl hsub)

theorem State.runSix_only {fs : List Part} {s0 : State} {s a rf valid idc ths ts} (h_s : Only fs s0 s) (hsub : In [.regs, .drives] fs) :
    Only fs s0 (State.runSix s a rf valid idc ths ts) := by
  unfold State.runSix
  extract_lets +onlyGivenNames v0
  clear_value v0
  extract_lets +onlyGivenNames v1
  clear_value v1
  extract_lets +onlyGivenNames v2
  clear_value v2
  extract_lets +onlyGivenNames v3
  clear_value v3
  extract_lets +onlyGivenNames v4
  clear_value v4
  extract_lets +onlyGivenNames v5
  clear_value v5
  extract_lets +onlyGivenNames v6
  clear_value v6
  extract_lets +onlyGivenNames v7
  clear_value v7
  extract_lets +onlyGivenNames v8
  clear_value v8
  split
  · extract_lets +onlyGivenNames v9
    clear_value v9
    extract_lets +onlyGivenNames v10
    clear_value v10
    extract_lets +onlyGivenNames v11
    clear_value v11
    extract_lets +onlyGivenNames v12
    clear_value v12
    extract_lets +onlyGivenNames v13
    clear_value v13
    extract_lets +onlyGivenNames v14
    clear_value v14
    extract_lets +onlyGivenNames v15
    clear_value v15
    extract_lets +onlyGivenNames v16
    clear_value v16
    extract_lets +onlyGivenNames v17
    clear_value v17
    extract_lets +onlyGivenNames v18
    have h18 : Only fs s0 v18 := State.onDr_only h_s (inT rfl hsub)
    clear_value v18
    extract_lets +onlyGivenNames v19
    have h19 : Only fs s0 v19 := only_ite (State.inc32_only h18 (inT rfl hsub)) h18
    clear_value v19
    exact State.onLv_only h19 (inT rfl hsub)

theorem State.currentFaults_only {fs : List Part} {s0 : State} {s a cur} (h_s : Only fs s0 s) (hsub : In [.regs, .axes, .drives, .safety, .trace, .log] fs) :
    Only fs s0 (State.currentFaults s a cur) := by
  unfold State.currentFaults
  extract_lets +onlyGivenNames v0
  clear_value v0
  split
  · extract_lets +onlyGivenNames v1
    have h1 : Only fs s0 v1 := State.onDr_only h_s (inT rfl hsub)
    clear_value v1
    exact only_ite (only_ite h1 (State.pfault_only (State.event_only (State.raise_only h1 (inT rfl hsub)) (inT rfl hsub)) (inT rfl hsub))) h1
  · extract_lets +onlyGivenNames v2
    have h2 : Only fs s0 v2 := State.clearSrc_only (State.onDr_only h_s (inT rfl hsub)) (inT rfl hsub)
    clear_value v2
    extract_lets +onlyGivenNames v3
    clear_value v3
    exact only_ite (only_ite h2 (State.pfault_only (State.event_only (State.raise_only h2 (inT rfl hsub)) (inT rfl hsub)) (inT rfl hsub))) (State.clearSrc_only h2 (inT rfl hsub))

theorem State.runComm_only {fs : List Part} {s0 : State} {s a} (h_s : Only fs s0 s) (hsub : In [.regs, .axes, .drives, .mots, .legs, .ropes, .safety, .trace, .log, .timers] fs) :
    Only fs s0 (State.runComm s a) := by
  unfold State.runComm
  extract_lets +onlyGivenNames v0
  clear_value v0
  extract_lets +onlyGivenNames v1
  clear_value v1
  extract_lets +onlyGivenNames v2
  clear_value v2
  extract_lets +onlyGivenNames v3
  have h3 : Only fs s0 v3 := State.currentFaults_only h_s (inT rfl hsub)
  clear_value v3
  extract_lets +onlyGivenNames v4
  clear_value v4
  extract_lets +onlyGivenNames v5
  clear_value v5
  extract_lets +onlyGivenNames v6
  clear_value v6
  refine only_ite h_s ?_
  split
  · extract_lets +onlyGivenNames v7
    clear_value v7
    extract_lets +onlyGivenNames v8
    have h8 : Only fs s0 v8 := only_ite h3 (State.runObserver_only h3 (inT rfl hsub))
    clear_value v8
    extract_lets +onlyGivenNames v9
    have h9 : Only fs s0 v9 := only_ite (State.runStart_only h8 (inT rfl hsub)) h8
    clear_value v9
    extract_lets +onlyGivenNames v10
    clear_value v10
    extract_lets +onlyGivenNames v11
    clear_value v11
    extract_lets +onlyGivenNames v12
    clear_value v12
    split
    · extract_lets +onlyGivenNames v13
      have h13 : Only fs s0 v13 := State.onDr_only h9 (inT rfl hsub)
      clear_value v13
      extract_lets +onlyGivenNames v14
      have h14 : Only fs s0 v14 := State.runRope_only h13 (inT rfl hsub)
      clear_value v14
      extract_lets +onlyGivenNames v15
      clear_value v15
      extract_lets +onlyGivenNames v16
      have h16 : Only fs s0 v16 := State.onDr_only h14 (inT rfl hsub)
      clear_value v16
      extract_lets +onlyGivenNames v17
      clear_value v17
      extract_lets +onlyGivenNames v18
      have h18 : Only fs s0 v18 := State.setLv_only (State.setLv_only (State.setLv_only h16 (inT rfl hsub)) (inT rfl hsub)) (inT rfl hsub)
      clear_value v18
      extract_lets +onlyGivenNames v19
      have h19 : Only fs s0 v19 := State.onLv_only h18 (inT rfl hsub)
      clear_value v19
      extract_lets +onlyGivenNames v20
      have h20 : Only fs s0 v20 := State.setLv_only h19 (inT rfl hsub)
      clear_value v20
      extract_lets +onlyGivenNames v21
      clear_value v21
      exact only_ite (State.noVector_only h20 (inT rfl hsub)) (only_ite (State.runFoc_only h20 (inT rfl hsub)) (State.runSix_only h20 (inT rfl hsub)))

theorem State.repeatPattern_only {fs : List Part} {s0 : State} {s a} (h_s : Only fs s0 s) (hsub : In [.drives] fs) :
    Only fs s0 (State.repeatPattern s a) := by
  unfold State.repeatPattern
  exact State.onDr_only h_s hsub

theorem State.startSwitching_only {fs : List Part} {s0 : State} {s a} (h_s : Only fs s0 s) (hsub : In [.drives, .timers] fs) :
    Only fs s0 (State.startSwitching s a) := by
  unfold State.startSwitching
  extract_lets +onlyGivenNames v0
  have h0 : Only fs s0 v0 := State.onDr_only h_s (inT rfl hsub)
  clear_value v0
  exact only_ite (State.startCatch_only h0 hsub) h0

theorem execCatchTimeExpiry_only {fs : List Part} {s0 : State} {axis s} (h_s : Only fs s0 s) (hsub : In [.time, .drives, .timers] fs) :
    OnlyN fs s0 (execCatchTimeExpiry axis s) := by
  unfold execCatchTimeExpiry
  extract_lets +onlyGivenNames v0
  clear_value v0
  refine onlyN_next ?_
  refine State.expire_only h_s ?_ (inT rfl hsub)
  intro t3 h4
  extract_lets +onlyGivenNames v5
  clear_value v5
  exact only_ite h4 (only_ite h4 (State.onDr_only h4 (inT rfl hsub)))

theorem execRestartTimeout_only {fs : List Part} {s0 : State} {axis s} (h_s : Only fs s0 s) (hsub : In [.regs, .time, .axes, .drives, .safety, .trace, .log, .timers] fs) :
    OnlyN fs s0 (execRestartTimeout axis s) := by
  unfold execRestartTimeout
  extract_lets +onlyGivenNames v0
  clear_value v0
  exact onlyN_next (State.expire_only h_s (fun _ h1 => only_ite (State.pfault_only (State.raise_only (State.onDr_only h1 (inT rfl hsub)) (inT rfl hsub)) (inT rfl hsub)) h1) (inT rfl hsub))

end Sys2Proof.Machine
end

