-- ==== Sys2Proof/Laws/OnlyMeasure.lean ====
section
/-!
SUPPORT. What the operations of Machine/Measure.lean may change: one lemma each, from any state reached.
-/
namespace Sys2Proof.Machine

open Sys2Proof.Safety

theorem State.latchHit_only {fs : List Part} {s0 : State} {s a u tick pos} (h_s : Only fs s0 s) (hsub : In [.latches] fs) :
    Only fs s0 (State.latchHit s a u tick pos) := by
  unfold State.latchHit
  extract_lets +onlyGivenNames v0
  clear_value v0
  exact only_ite (State.onLa_only h_s hsub) h_s

theorem State.latchEvent_only {fs : List Part} {s0 : State} {s kind hits tick} (h_s : Only fs s0 s) (hsub : In [.latches] fs) :
    Only fs s0 (State.latchEvent s kind hits tick) := by
  unfold State.latchEvent
  refine forN_only ?_ h_s
  intro x2 t3 h4
  refine forN_only ?_ h4
  intro x6 t7 h8
  extract_lets +onlyGivenNames v9
  clear_value v9
  exact only_ite (State.latchHit_only h8 hsub) h8

theorem State.latchZ_only {fs : List Part} {s0 : State} {s n tick rising} (h_s : Only fs s0 s) (hsub : In [.latches] fs) :
    Only fs s0 (State.latchZ s n tick rising) := by
  unfold State.latchZ
  refine forN_only ?_ h_s
  intro x2 t3 h4
  refine forN_only ?_ h4
  intro x6 t7 h8
  extract_lets +onlyGivenNames v9
  clear_value v9
  exact only_ite (State.latchHit_only h8 hsub) h8

theorem State.latchDiSeen_only {fs : List Part} {s0 : State} {s i tick} (h_s : Only fs s0 s) (hsub : In [.latches] fs) :
    Only fs s0 (State.latchDiSeen s i tick) := by
  unfold State.latchDiSeen
  refine forN_only ?_ h_s
  intro x2 t3 h4
  refine forN_only ?_ h4
  intro x6 t7 h8
  extract_lets +onlyGivenNames v9
  clear_value v9
  exact only_ite (State.onLa_only h8 hsub) h8

theorem State.latchDi_only {fs : List Part} {s0 : State} {s i tick rising} (h_s : Only fs s0 s) (hsub : In [.latches] fs) :
    Only fs s0 (State.latchDi s i tick rising) := by
  unfold State.latchDi
  refine forN_only ?_ h_s
  intro x2 t3 h4
  refine forN_only ?_ h4
  intro x6 t7 h8
  extract_lets +onlyGivenNames v9
  clear_value v9
  extract_lets +onlyGivenNames v10
  clear_value v10
  extract_lets +onlyGivenNames v11
  have h11 : Only fs s0 v11 := State.onLa_only h8 hsub
  clear_value v11
  refine only_ite ?_ h8
  refine only_ite ?_ h11
  split
  · exact State.latchHit_only h11 hsub
  · exact State.latchHit_only h11 hsub

theorem State.latchLate_only {fs : List Part} {s0 : State} {s n stamp} (h_s : Only fs s0 s) (hsub : In [.latches] fs) :
    Only fs s0 (State.latchLate s n stamp) := by
  unfold State.latchLate
  exact forL_only (fun _ _ h0 => forN_only (fun _ _ h1 => State.onLa_only h1 hsub) h0) h_s

theorem State.latchShow_only {fs : List Part} {s0 : State} {s a u tick pos} (h_s : Only fs s0 s) (hsub : In [.regs, .trace] fs) :
    Only fs s0 (State.latchShow s a u tick pos) := by
  unfold State.latchShow
  extract_lets +onlyGivenNames v0
  clear_value v0
  extract_lets +onlyGivenNames v1
  have h1 : Only fs s0 v1 := State.setPair_only (State.setPair_only h_s (inT rfl hsub)) (inT rfl hsub)
  clear_value v1
  extract_lets +onlyGivenNames v2
  have h2 : Only fs s0 v2 := State.onLv_only h1 (inT rfl hsub)
  clear_value v2
  exact State.event_only h2 hsub

theorem State.latchBoundary_only {fs : List Part} {s0 : State} {s a} (h_s : Only fs s0 s) (hsub : In [.regs, .latches, .trace] fs) :
    Only fs s0 (State.latchBoundary s a) := by
  unfold State.latchBoundary
  refine forN_only ?_ h_s
  intro x1 t2 h3
  extract_lets +onlyGivenNames v4
  clear_value v4
  extract_lets +onlyGivenNames v5
  clear_value v5
  extract_lets +onlyGivenNames v6
  clear_value v6
  extract_lets +onlyGivenNames v7
  have h7 : Only fs s0 v7 := State.onLa_only h3 (inT rfl hsub)
  clear_value v7
  refine forL_only ?_ h7
  intro x9 t10 h11
  extract_lets +onlyGivenNames v12
  clear_value v12
  extract_lets +onlyGivenNames v13
  clear_value v13
  exact State.latchShow_only h11 (inT rfl hsub)

theorem execLatchArm_only {fs : List Part} {s0 : State} {axis unit v s} (h_s : Only fs s0 s) (hsub : In [.regs, .latches] fs) :
    OnlyN fs s0 (execLatchArm axis unit v s) := by
  unfold execLatchArm
  extract_lets +onlyGivenNames v0
  clear_value v0
  extract_lets +onlyGivenNames v1
  clear_value v1
  extract_lets +onlyGivenNames v2
  have h2 : Only fs s0 v2 := State.setLv_only h_s (inT rfl hsub)
  clear_value v2
  exact onlyN_ite (onlyN_next h_s) (onlyN_ite (onlyN_next (State.onLv_only (State.onLa_only h2 (inT rfl hsub)) (inT rfl hsub))) (onlyN_next (State.onLa_only h2 (inT rfl hsub))))

theorem State.cmpFire_only {fs : List Part} {s0 : State} {s a u tick} (h_s : Only fs s0 s) (hsub : In [.regs, .cmps, .latches, .trace, .timers] fs) :
    Only fs s0 (State.cmpFire s a u tick) := by
  unfold State.cmpFire
  extract_lets +onlyGivenNames v0
  clear_value v0
  extract_lets +onlyGivenNames v1
  have h1 : Only fs s0 v1 := State.onCm_only h_s (inT rfl hsub)
  clear_value v1
  extract_lets +onlyGivenNames v2
  have h2 : Only fs s0 v2 := State.onLv_only h1 (inT rfl hsub)
  clear_value v2
  extract_lets +onlyGivenNames v3
  have h3 : Only fs s0 v3 := State.event_only (State.setPair_only h2 (inT rfl hsub)) (inT rfl hsub)
  clear_value v3
  extract_lets +onlyGivenNames v4
  clear_value v4
  extract_lets +onlyGivenNames v5
  have h5 : Only fs s0 v5 := only_ite (State.startT_only (State.onCm_only h3 (inT rfl hsub)) (inT rfl hsub)) h3
  clear_value v5
  exact State.latchEvent_only h5 (inT rfl hsub)

theorem State.cmpArm_only' {fs : List Part} {s0 : State} (hsub : In [.regs, .cmps, .latches, .trace, .timers] fs) :
    ∀ {s : State} {n a u tick : Nat} {pos : Int} {valid : Bool}, Only fs s0 s → Only fs s0 (s.cmpArm n a u tick pos valid)
  | _, 0, _, _, _, _, _, h => h
  | s, n + 1, a, u, tick, pos, valid, h => by
    unfold State.cmpArm
    extract_lets +onlyGivenNames w
    extract_lets +onlyGivenNames t
    extract_lets +onlyGivenNames s1
    have h1 : Only fs s0 s1 := State.onCm_only h (inT rfl hsub)
    clear_value w t s1
    refine only_ite ?_ h1
    refine only_ite (State.onCm_only h1 (inT rfl hsub))
      (only_ite ?_ (State.event_only (State.onLv_only (State.onCm_only h1 (inT rfl hsub)) (inT rfl hsub)) (inT rfl hsub)))
    have h2 := State.cmpFire_only (a := a) (u := u) (tick := tick) h1 (inT rfl hsub)
    exact only_ite (State.cmpArm_only' hsub (State.setPair_only h2 (inT rfl hsub))) h2

theorem State.cmpArm_only {fs : List Part} {s0 s : State} {n a u tick : Nat} {pos : Int} {valid : Bool} (h : Only fs s0 s)
    (hsub : In [.regs, .cmps, .latches, .trace, .timers] fs) : Only fs s0 (s.cmpArm n a u tick pos valid) := State.cmpArm_only' hsub h

theorem State.cmpMove_only {fs : List Part} {s0 : State} {s a u tick before after valid} (h_s : Only fs s0 s) (hsub : In [.regs, .cmps, .latches, .trace, .timers] fs) :
    Only fs s0 (State.cmpMove s a u tick before after valid) := by
  unfold State.cmpMove
  extract_lets +onlyGivenNames v0
  clear_value v0
  extract_lets +onlyGivenNames v1
  clear_value v1
  extract_lets +onlyGivenNames v2
  clear_value v2
  extract_lets +onlyGivenNames v3
  clear_value v3
  extract_lets +onlyGivenNames v4
  have h4 : Only fs s0 v4 := State.cmpFire_only h_s hsub
  clear_value v4
  extract_lets +onlyGivenNames v5
  clear_value v5
  exact only_ite h_s (only_ite (only_ite (State.onCm_only h_s (inT rfl hsub)) (only_ite (State.cmpArm_only (State.setPair_only h4 (inT rfl hsub)) hsub) h4)) (only_ite (State.onCm_only h_s (inT rfl hsub)) h_s))

theorem State.cmpActual_only {fs : List Part} {s0 : State} {s a tick before after} (h_s : Only fs s0 s) (hsub : In [.regs, .cmps, .latches, .trace, .timers] fs) :
    Only fs s0 (State.cmpActual s a tick before after) := by
  unfold State.cmpActual
  exact forN_only (fun _ _ h0 => only_ite (State.cmpMove_only h0 hsub) h0) h_s

theorem State.cmpSetPoint_only {fs : List Part} {s0 : State} {s a b1 len before after} (h_s : Only fs s0 s) (hsub : In [.regs, .cmps, .latches, .trace, .timers] fs) :
    Only fs s0 (State.cmpSetPoint s a b1 len before after) := by
  unfold State.cmpSetPoint
  refine forN_only ?_ h_s
  intro x1 t2 h3
  extract_lets +onlyGivenNames v4
  clear_value v4
  extract_lets +onlyGivenNames v5
  clear_value v5
  exact only_ite h3 (State.cmpMove_only h3 hsub)

theorem State.cmpValidAgain_only {fs : List Part} {s0 : State} {s a} (h_s : Only fs s0 s) (hsub : In [.regs, .cmps, .latches, .trace, .timers] fs) :
    Only fs s0 (State.cmpValidAgain s a) := by
  unfold State.cmpValidAgain
  exact forN_only (fun _ _ h0 => only_ite (State.cmpArm_only h0 hsub) h0) h_s

theorem execCompareArm_only {fs : List Part} {s0 : State} {axis unit v s} (h_s : Only fs s0 s) (hsub : In [.regs, .cmps, .latches, .trace, .timers] fs) :
    OnlyN fs s0 (execCompareArm axis unit v s) := by
  unfold execCompareArm
  extract_lets +onlyGivenNames v0
  clear_value v0
  extract_lets +onlyGivenNames v1
  clear_value v1
  extract_lets +onlyGivenNames v2
  have h2 : Only fs s0 v2 := State.setLv_only h_s (inT rfl hsub)
  clear_value v2
  extract_lets +onlyGivenNames v3
  clear_value v3
  extract_lets +onlyGivenNames v4
  clear_value v4
  extract_lets +onlyGivenNames v5
  have h5 : Only fs s0 v5 := State.onLv_only h2 (inT rfl hsub)
  clear_value v5
  exact onlyN_ite (onlyN_next h_s) (onlyN_ite (onlyN_next (State.cmpArm_only h5 hsub)) (onlyN_next (State.onCm_only h2 (inT rfl hsub))))

theorem execComparePulseEnd_only {fs : List Part} {s0 : State} {axis unit s} (h_s : Only fs s0 s) (hsub : In [.time, .cmps, .timers] fs) :
    OnlyN fs s0 (execComparePulseEnd axis unit s) := by
  unfold execComparePulseEnd
  exact onlyN_next (State.expire_only h_s (fun _ h0 => State.onCm_only h0 (inT rfl hsub)) (inT rfl hsub))

end Sys2Proof.Machine
end

