-- ==== Sys2Proof/Laws/OnlyFeedback.lean ====
section
/-!
SUPPORT. What the operations of Machine/Feedback.lean may change: one lemma each, from any state reached.
-/
namespace Sys2Proof.Machine

open Sys2Proof.Safety

theorem State.fbSetRef_only {fs : List Part} {s0 : State} {s n} (h_s : Only fs s0 s) (hsub : In [.regs, .fbs, .trace] fs) :
    Only fs s0 (State.fbSetRef s n) := by
  unfold State.fbSetRef
  exact only_ite h_s (State.event_only (State.onFb_only h_s (inT rfl hsub)) (inT rfl hsub))

theorem State.fbFault_only {fs : List Part} {s0 : State} {s n bit} (h_s : Only fs s0 s) (hsub : In [.regs, .stage, .axes, .fbs, .mots, .legs, .lanes, .cans, .dos, .safety, .trace, .log, .chans, .timers] fs) :
    Only fs s0 (State.fbFault s n bit) := by
  unfold State.fbFault
  extract_lets +onlyGivenNames v0
  have h0 : Only fs s0 v0 := State.pfault_only h_s (inT rfl hsub)
  clear_value v0
  extract_lets +onlyGivenNames v1
  have h1 : Only fs s0 v1 := State.onFb_only h0 (inT rfl hsub)
  clear_value v1
  exact only_ite (State.onset_only (State.event_only (State.inc16_only h1 (inT rfl hsub)) (inT rfl hsub)) hsub) h1

theorem State.fbStart_only {fs : List Part} {s0 : State} {s n} (h_s : Only fs s0 s) (hsub : In [.fbs] fs) :
    Only fs s0 (State.fbStart s n) := by
  unfold State.fbStart
  exact State.onFb_only h_s hsub

theorem State.fbEdge_only {fs : List Part} {s0 : State} {s n stamp cnt} (h_s : Only fs s0 s) (hsub : In [.fbs] fs) :
    Only fs s0 (State.fbEdge s n stamp cnt) := by
  unfold State.fbEdge
  extract_lets +onlyGivenNames v0
  clear_value v0
  exact State.onFb_only h_s hsub

theorem State.fbSetPos_only {fs : List Part} {s0 : State} {s n p} (h_s : Only fs s0 s) (hsub : In [.fbs] fs) :
    Only fs s0 (State.fbSetPos s n p) := by
  unfold State.fbSetPos
  exact State.onFb_only h_s hsub

theorem State.fbTooth_only {fs : List Part} {s0 : State} {s n stamp} (h_s : Only fs s0 s) (hsub : In [.regs, .stage, .axes, .fbs, .mots, .legs, .lanes, .cans, .dos, .safety, .trace, .log, .chans, .timers] fs) :
    Only fs s0 (State.fbTooth s n stamp) := by
  unfold State.fbTooth
  extract_lets +onlyGivenNames v0
  clear_value v0
  extract_lets +onlyGivenNames v1
  clear_value v1
  extract_lets +onlyGivenNames v2
  clear_value v2
  extract_lets +onlyGivenNames v3
  clear_value v3
  extract_lets +onlyGivenNames v4
  extract_lets +onlyGivenNames v5
  clear_value v5
  extract_lets +onlyGivenNames v6
  clear_value v6
  extract_lets +onlyGivenNames v7
  clear_value v7
  extract_lets +onlyGivenNames v8
  have h8 : Only fs s0 v8 := only_ite h_s (State.fbEdge_only h_s (inT rfl hsub))
  clear_value v8
  extract_lets +onlyGivenNames v9
  have h9 : Only fs s0 v9 := State.onFb_only h8 (inT rfl hsub)
  clear_value v9
  extract_lets +onlyGivenNames v10
  clear_value v10
  extract_lets +onlyGivenNames v11
  have h11 : Only fs s0 v11 := State.onFb_only h9 (inT rfl hsub)
  clear_value v11
  extract_lets +onlyGivenNames v12
  have h12 : Only fs s0 v12 := only_ite h11 (State.fbSetRef_only (State.fbSetPos_only h11 (inT rfl hsub)) (inT rfl hsub))
  clear_value v12
  refine only_ite h9 ?_
  split
  · exact h12
  · exact only_ite (State.onFb_only h12 (inT rfl hsub)) (State.fbFault_only h12 hsub)

theorem State.fbIndex_only {fs : List Part} {s0 : State} {s n} (h_s : Only fs s0 s) (hsub : In [.regs, .stage, .axes, .fbs, .mots, .legs, .lanes, .cans, .dos, .safety, .trace, .log, .chans, .timers] fs) :
    Only fs s0 (State.fbIndex s n) := by
  unfold State.fbIndex
  extract_lets +onlyGivenNames v0
  clear_value v0
  extract_lets +onlyGivenNames v1
  clear_value v1
  extract_lets +onlyGivenNames v2
  clear_value v2
  extract_lets +onlyGivenNames v3
  have h3 : Only fs s0 v3 := State.event_only (State.setPair_only h_s (inT rfl hsub)) (inT rfl hsub)
  clear_value v3
  extract_lets +onlyGivenNames v4
  clear_value v4
  extract_lets +onlyGivenNames v5
  have h5 : Only fs s0 v5 := State.onFb_only h3 (inT rfl hsub)
  clear_value v5
  extract_lets +onlyGivenNames v6
  have h6 : Only fs s0 v6 := only_ite (State.fbSetRef_only (State.fbSetPos_only h5 (inT rfl hsub)) (inT rfl hsub)) h5
  clear_value v6
  refine only_ite h_s ?_
  split
  · exact h6
  · extract_lets +onlyGivenNames v7
    clear_value v7
    extract_lets +onlyGivenNames v8
    have h8 : Only fs s0 v8 := State.setLv_only h6 (inT rfl hsub)
    clear_value v8
    exact only_ite h6 (only_ite (State.fbFault_only h8 hsub) (State.onFb_only h8 (inT rfl hsub)))

theorem State.hallFirst_only {fs : List Part} {s0 : State} {s n} (h_s : Only fs s0 s) (hsub : In [.regs, .fbs, .trace] fs) :
    Only fs s0 (State.hallFirst s n) := by
  unfold State.hallFirst
  extract_lets +onlyGivenNames v0
  clear_value v0
  extract_lets +onlyGivenNames v1
  clear_value v1
  extract_lets +onlyGivenNames v2
  clear_value v2
  exact only_ite (State.fbSetRef_only (State.fbSetPos_only h_s (inT rfl hsub)) hsub) h_s

theorem State.fbForm_only {fs : List Part} {s0 : State} {s n} (h_s : Only fs s0 s) (hsub : In [.fbs] fs) :
    Only fs s0 (State.fbForm s n) := by
  unfold State.fbForm
  extract_lets +onlyGivenNames v0
  clear_value v0
  extract_lets +onlyGivenNames v1
  clear_value v1
  extract_lets +onlyGivenNames v2
  clear_value v2
  extract_lets +onlyGivenNames v3
  clear_value v3
  extract_lets +onlyGivenNames v4
  clear_value v4
  extract_lets +onlyGivenNames v5
  clear_value v5
  extract_lets +onlyGivenNames v6
  clear_value v6
  extract_lets +onlyGivenNames v7
  clear_value v7
  extract_lets +onlyGivenNames v8
  clear_value v8
  refine only_ite (State.onFb_only h_s hsub) ?_
  split
  · exact State.onFb_only h_s hsub

theorem State.fbBoundary_only {fs : List Part} {s0 : State} {s n} (h_s : Only fs s0 s) (hsub : In [.regs, .fbs, .safety, .trace] fs) :
    Only fs s0 (State.fbBoundary s n) := by
  unfold State.fbBoundary
  extract_lets +onlyGivenNames v0
  clear_value v0
  extract_lets +onlyGivenNames v1
  clear_value v1
  extract_lets +onlyGivenNames v2
  clear_value v2
  extract_lets +onlyGivenNames v3
  clear_value v3
  extract_lets +onlyGivenNames v4
  clear_value v4
  extract_lets +onlyGivenNames v5
  have h5 : Only fs s0 v5 := State.onFb_only h_s (inT rfl hsub)
  clear_value v5
  extract_lets +onlyGivenNames v6
  have h6 : Only fs s0 v6 := only_ite (State.event_only (State.fbSetRef_only (only_ite (State.onFb_only h5 (inT rfl hsub)) (State.fbSetPos_only h5 (inT rfl hsub))) (inT rfl hsub)) (inT rfl hsub)) h_s
  clear_value v6
  extract_lets +onlyGivenNames v7
  clear_value v7
  extract_lets +onlyGivenNames v8
  clear_value v8
  extract_lets +onlyGivenNames v9
  have h9 : Only fs s0 v9 := State.onFb_only h6 (inT rfl hsub)
  clear_value v9
  extract_lets +onlyGivenNames v10
  have h10 : Only fs s0 v10 := only_ite (State.fbForm_only (State.onFb_only h9 (inT rfl hsub)) (inT rfl hsub)) h9
  clear_value v10
  extract_lets +onlyGivenNames v11
  have h11 : Only fs s0 v11 := only_ite (State.event_only (State.onFb_only h10 (inT rfl hsub)) (inT rfl hsub)) h10
  clear_value v11
  extract_lets +onlyGivenNames v12
  have h12 : Only fs s0 v12 := State.onFb_only h11 (inT rfl hsub)
  clear_value v12
  exact only_ite h_s (only_ite (forL_only (fun _ _ h13 => only_ite (State.clearSrc_only h13 (inT rfl hsub)) h13) h12) (State.onFb_only h11 (inT rfl hsub)))

theorem State.fbResample_only {fs : List Part} {s0 : State} {s n stamp} (h_s : Only fs s0 s) (hsub : In [.fbs] fs) :
    Only fs s0 (State.fbResample s n stamp) := by
  unfold State.fbResample
  extract_lets +onlyGivenNames v0
  clear_value v0
  extract_lets +onlyGivenNames v1
  have h1 : Only fs s0 v1 := State.onFb_only h_s hsub
  clear_value v1
  exact only_ite (State.fbForm_only h1 hsub) h_s

theorem execFbEdgeAccepted_only {fs : List Part} {s0 : State} {fb stamp zba s} (h_s : Only fs s0 s) (hsub : In [.regs, .time, .stage, .axes, .fbs, .mots, .cmps, .latches, .legs, .lanes, .cans, .dos, .safety, .trace, .log, .chans, .timers, .reps] fs) :
    OnlyN fs s0 (execFbEdgeAccepted fb stamp zba s) := by
  unfold execFbEdgeAccepted
  extract_lets +onlyGivenNames v0
  clear_value v0
  extract_lets +onlyGivenNames v1
  clear_value v1
  extract_lets +onlyGivenNames v2
  have h2 : Only fs s0 v2 := State.reach_only h_s (inT rfl hsub)
  clear_value v2
  extract_lets +onlyGivenNames v3
  clear_value v3
  extract_lets +onlyGivenNames v4
  clear_value v4
  extract_lets +onlyGivenNames v5
  clear_value v5
  extract_lets +onlyGivenNames v6
  have h6 : Only fs s0 v6 := State.onFb_only h2 (inT rfl hsub)
  clear_value v6
  extract_lets +onlyGivenNames v7
  have h7 : Only fs s0 v7 := by
    unfold v7
    refine only_ite (only_ite (State.fbTooth_only h6 (inT rfl hsub)) h6) ?_
    split
    · exact State.fbFault_only h6 (inT rfl hsub)
    · exact h6
    · extract_lets +onlyGivenNames v8
      have h8 : Only fs s0 v8 := State.fbEdge_only h6 (inT rfl hsub)
      clear_value v8
      exact only_ite (State.onFb_only h8 (inT rfl hsub)) h8
  clear_value v7
  extract_lets +onlyGivenNames v9
  have h9 : Only fs s0 v9 := State.latchLate_only h7 (inT rfl hsub)
  clear_value v9
  extract_lets +onlyGivenNames v10
  clear_value v10
  extract_lets +onlyGivenNames v11
  have h11 : Only fs s0 v11 := State.hallFirst_only h9 (inT rfl hsub)
  clear_value v11
  extract_lets +onlyGivenNames v12
  clear_value v12
  extract_lets +onlyGivenNames v13
  have h13 : Only fs s0 v13 := only_ite (State.fbIndex_only h11 (inT rfl hsub)) h11
  clear_value v13
  extract_lets +onlyGivenNames v14
  have h14 : Only fs s0 v14 := forL_only (fun _ _ h15 => only_ite h15 (State.cmpActual_only h15 (inT rfl hsub))) h13
  clear_value v14
  extract_lets +onlyGivenNames v16
  have h16 : Only fs s0 v16 := only_ite (State.latchZ_only h14 (inT rfl hsub)) h14
  clear_value v16
  extract_lets +onlyGivenNames v17
  have h17 : Only fs s0 v17 := State.fbResample_only h16 (inT rfl hsub)
  clear_value v17
  refine onlyN_ite (onlyN_next (State.onFb_only h_s (inT rfl hsub))) ?_
  refine onlyN_next ?_
  refine forN_only ?_ h17
  intro x22 t23 h24
  refine only_ite ?_ h24
  exact Only.upd h24 (inT (F := [.reps]) rfl hsub) (by intro f hf; cases f <;> first | rfl | simp at hf)

theorem execFbStandstill_only {fs : List Part} {s0 : State} {fb s} (h_s : Only fs s0 s) (hsub : In [.regs, .fbs, .trace] fs) :
    OnlyN fs s0 (execFbStandstill fb s) := by
  unfold execFbStandstill
  extract_lets +onlyGivenNames v0
  clear_value v0
  extract_lets +onlyGivenNames v1
  clear_value v1
  split
  · exact onlyN_ite (onlyN_next (State.event_only (State.onFb_only h_s (inT rfl hsub)) (inT rfl hsub))) (onlyN_next h_s)
  · exact onlyN_next h_s

theorem execFbLineFault_only {fs : List Part} {s0 : State} {fb s} (h_s : Only fs s0 s) (hsub : In [.regs, .stage, .axes, .fbs, .mots, .legs, .lanes, .cans, .dos, .safety, .trace, .log, .chans, .timers] fs) :
    OnlyN fs s0 (execFbLineFault fb s) := by
  unfold execFbLineFault
  extract_lets +onlyGivenNames v0
  clear_value v0
  extract_lets +onlyGivenNames v1
  clear_value v1
  extract_lets +onlyGivenNames v2
  clear_value v2
  exact onlyN_ite (onlyN_next (State.fbFault_only (State.onFb_only h_s (inT rfl hsub)) hsub)) (onlyN_next h_s)

theorem execFbReacquire_only {fs : List Part} {s0 : State} {fb s} (h_s : Only fs s0 s) (hsub : In [.regs, .time, .fbs, .trace, .chans] fs) :
    OnlyN fs s0 (execFbReacquire fb s) := by
  unfold execFbReacquire
  extract_lets +onlyGivenNames v0
  clear_value v0
  extract_lets +onlyGivenNames v1
  clear_value v1
  extract_lets +onlyGivenNames v2
  clear_value v2
  extract_lets +onlyGivenNames v3
  clear_value v3
  extract_lets +onlyGivenNames v4
  clear_value v4
  extract_lets +onlyGivenNames v5
  clear_value v5
  extract_lets +onlyGivenNames v6
  have h6 : Only fs s0 v6 := only_ite (State.reach_only h_s (inT rfl hsub)) h_s
  clear_value v6
  extract_lets +onlyGivenNames v7
  have h7 : Only fs s0 v7 := State.onFb_only h6 (inT rfl hsub)
  clear_value v7
  extract_lets +onlyGivenNames v8
  have h8 : Only fs s0 v8 := State.hallFirst_only h7 (inT rfl hsub)
  clear_value v8
  exact onlyN_ite (onlyN_next h_s) (onlyN_ite (onlyN_next h_s) (onlyN_ite (onlyN_next (State.onFb_only h8 (inT rfl hsub))) (onlyN_next (State.backInService_only (State.event_only (State.onFb_only h8 (inT rfl hsub)) (inT rfl hsub)) (inT rfl hsub)))))

theorem execAbsAcquisitionStart_only {fs : List Part} {s0 : State} {fb idle s} (h_s : Only fs s0 s) (hsub : In [.regs, .time, .stage, .axes, .fbs, .mots, .legs, .lanes, .cans, .dos, .safety, .trace, .log, .chans, .timers] fs) :
    OnlyN fs s0 (execAbsAcquisitionStart fb idle s) := by
  unfold execAbsAcquisitionStart
  extract_lets +onlyGivenNames v0
  clear_value v0
  extract_lets +onlyGivenNames v1
  clear_value v1
  extract_lets +onlyGivenNames v2
  clear_value v2
  extract_lets +onlyGivenNames v3
  clear_value v3
  extract_lets +onlyGivenNames v4
  have h4 : Only fs s0 v4 := State.reach_only h_s (inT rfl hsub)
  clear_value v4
  exact onlyN_ite (onlyN_next h_s) (onlyN_ite (onlyN_next (State.onFb_only h4 (inT rfl hsub))) (onlyN_next (State.fbFault_only h4 (inT rfl hsub))))

theorem State.fbWord_only {fs : List Part} {s0 : State} {s n w} (h_s : Only fs s0 s) (hsub : In [.regs, .fbs, .trace] fs) :
    Only fs s0 (State.fbWord s n w) := by
  unfold State.fbWord
  extract_lets +onlyGivenNames v0
  clear_value v0
  extract_lets +onlyGivenNames v1
  clear_value v1
  extract_lets +onlyGivenNames v2
  clear_value v2
  extract_lets +onlyGivenNames v3
  clear_value v3
  extract_lets +onlyGivenNames v4
  clear_value v4
  extract_lets +onlyGivenNames v5
  have h5 : Only fs s0 v5 := State.onFb_only h_s (inT rfl hsub)
  clear_value v5
  exact State.fbSetRef_only h5 hsub

theorem State.traceAbs_only {fs : List Part} {s0 : State} {s n conds w} (h_s : Only fs s0 s) (hsub : In [.regs, .trace] fs) :
    Only fs s0 (State.traceAbs s n conds w) := by
  unfold State.traceAbs
  exact State.traceKind_only h_s hsub

theorem execAbsAcquisitionDone_only {fs : List Part} {s0 : State} {fb r s} (h_s : Only fs s0 s) (hsub : In [.regs, .time, .stage, .axes, .fbs, .mots, .cmps, .latches, .legs, .lanes, .cans, .dos, .safety, .trace, .log, .chans, .timers] fs) :
    OnlyN fs s0 (execAbsAcquisitionDone fb r s) := by
  unfold execAbsAcquisitionDone
  extract_lets +onlyGivenNames v0
  clear_value v0
  extract_lets +onlyGivenNames v1
  clear_value v1
  extract_lets +onlyGivenNames v2
  clear_value v2
  split
  · exact onlyN_next h_s
  · extract_lets +onlyGivenNames v3
    clear_value v3
    extract_lets +onlyGivenNames v4
    have h4 : Only fs s0 v4 := State.reach_only h_s (inT rfl hsub)
    clear_value v4
    extract_lets +onlyGivenNames v5
    clear_value v5
    extract_lets +onlyGivenNames v6
    clear_value v6
    extract_lets +onlyGivenNames v7
    have h7 : Only fs s0 v7 := State.onFb_only h4 (inT rfl hsub)
    clear_value v7
    extract_lets +onlyGivenNames v8
    have h8 : Only fs s0 v8 := State.setLv_only (State.setLv_only h7 (inT rfl hsub)) (inT rfl hsub)
    clear_value v8
    extract_lets +onlyGivenNames v9
    have h9 : Only fs s0 v9 := only_ite h8 (State.setLv_only h8 (inT rfl hsub))
    clear_value v9
    extract_lets +onlyGivenNames v10
    have h10 : Only fs s0 v10 := only_ite h9 (State.traceAbs_only h9 (inT rfl hsub))
    clear_value v10
    extract_lets +onlyGivenNames v11
    clear_value v11
    extract_lets +onlyGivenNames v12
    clear_value v12
    extract_lets +onlyGivenNames v13
    clear_value v13
    extract_lets +onlyGivenNames v14
    clear_value v14
    extract_lets +onlyGivenNames v15
    have h15 : ∀ t0, Only fs s0 t0 → Only fs s0 (v15 t0) := by
      unfold v15
      intro t16 h17
      exact forL_only (fun _ _ h18 => only_ite (State.cmpActual_only h18 (inT rfl hsub)) h18) h17
    clear_value v15
    extract_lets +onlyGivenNames v19
    have h19 : Only fs s0 v19 := State.traceAbs_only h10 (inT rfl hsub)
    clear_value v19
    refine onlyN_ite (onlyN_next h_s) ?_
    refine onlyN_ite (onlyN_next (State.traceAbs_only (State.fbFault_only h10 (inT rfl hsub)) (inT rfl hsub))) ?_
    refine onlyN_ite (onlyN_next (State.traceAbs_only (State.fbFault_only h10 (inT rfl hsub)) (inT rfl hsub))) ?_
    refine onlyN_ite (onlyN_next (State.fbFault_only h10 (inT rfl hsub))) ?_
    refine onlyN_ite ?_ (onlyN_ite (onlyN_next (State.fbFault_only h19 (inT rfl hsub))) (onlyN_next (h15 _ (State.fbWord_only h19 (inT rfl hsub)))))
    split
    · exact onlyN_ite (onlyN_next (h15 _ (State.fbWord_only (State.onFb_only h19 (inT rfl hsub)) (inT rfl hsub)))) (onlyN_next (State.onFb_only h19 (inT rfl hsub)))
    · exact onlyN_next (State.onFb_only h19 (inT rfl hsub))

theorem execAbsTimeoutExpiry_only {fs : List Part} {s0 : State} {fb s} (h_s : Only fs s0 s) (hsub : In [.regs, .time, .stage, .axes, .fbs, .mots, .legs, .lanes, .cans, .dos, .safety, .trace, .log, .chans, .timers] fs) :
    OnlyN fs s0 (execAbsTimeoutExpiry fb s) := by
  unfold execAbsTimeoutExpiry
  extract_lets +onlyGivenNames v0
  clear_value v0
  extract_lets +onlyGivenNames v1
  clear_value v1
  extract_lets +onlyGivenNames v2
  clear_value v2
  exact onlyN_ite (onlyN_next h_s) (onlyN_ite (onlyN_next (State.traceAbs_only (State.fbFault_only (State.onFb_only (State.reach_only h_s (inT rfl hsub)) (inT rfl hsub)) (inT rfl hsub)) (inT rfl hsub))) (onlyN_ite (onlyN_next (State.traceAbs_only (State.fbFault_only (State.onFb_only (State.reach_only h_s (inT rfl hsub)) (inT rfl hsub)) (inT rfl hsub)) (inT rfl hsub))) (onlyN_next h_s)))

theorem State.loadCmd_only {fs : List Part} {s0 : State} {s m n v} (h_s : Only fs s0 s) (hsub : In [.regs, .host, .mgr, .fbs, .trace, .log] fs) :
    Only fs s0 (State.loadCmd s m n v) := by
  unfold State.loadCmd
  extract_lets +onlyGivenNames v0
  clear_value v0
  extract_lets +onlyGivenNames v1
  clear_value v1
  extract_lets +onlyGivenNames v2
  clear_value v2
  exact only_ite h_s (only_ite (State.refuseBy_only h_s (inT rfl hsub)) (State.onFb_only h_s (inT rfl hsub)))

theorem execPosLoad_only {fs : List Part} {s0 : State} {fb v s} (h_s : Only fs s0 s) (hsub : In [.regs, .host, .mgr, .fbs, .trace, .log] fs) :
    OnlyN fs s0 (execPosLoad fb v s) := by
  unfold execPosLoad
  exact onlyN_ite (onlyN_next (State.loadCmd_only (State.touch_only h_s (inT rfl hsub)) hsub)) (onlyN_next h_s)

theorem State.repBoundary_only {fs : List Part} {s0 : State} {s r} (h_s : Only fs s0 s) (hsub : In [.reps] fs) :
    Only fs s0 (State.repBoundary s r) := by
  unfold State.repBoundary
  extract_lets +onlyGivenNames v0
  clear_value v0
  extract_lets +onlyGivenNames v1
  clear_value v1
  extract_lets +onlyGivenNames v2
  clear_value v2
  extract_lets +onlyGivenNames v3
  have h3 : ∀ x0, Only fs s0 (v3 x0) := by
    unfold v3
    intro x4
    exact Only.upd h_s (inT (F := [.reps]) rfl hsub) (by intro f hf; cases f <;> first | rfl | simp at hf)
  clear_value v3
  split
  · exact only_ite (h3 _) (h3 _)
  · exact only_ite (h3 _) (h3 _)
  · exact h3 _

theorem execRepeaterTransition_only {fs : List Part} {s0 : State} {r s} (h_s : Only fs s0 s) (hsub : In [.time, .reps] fs) :
    OnlyN fs s0 (execRepeaterTransition r s) := by
  unfold execRepeaterTransition
  extract_lets +onlyGivenNames v0
  clear_value v0
  extract_lets +onlyGivenNames v1
  clear_value v1
  extract_lets +onlyGivenNames v2
  have h2 : Only fs s0 v2 := State.reach_only h_s (inT rfl hsub)
  clear_value v2
  extract_lets +onlyGivenNames v3
  clear_value v3
  extract_lets +onlyGivenNames v4
  clear_value v4
  refine onlyN_ite (onlyN_next h_s) ?_
  refine onlyN_next ?_
  exact Only.upd h2 (inT (F := [.reps]) rfl hsub) (by intro f hf; cases f <;> first | rfl | simp at hf)

theorem State.repStart_only {fs : List Part} {s0 : State} {s r} (h_s : Only fs s0 s) (hsub : In [.reps] fs) :
    Only fs s0 (State.repStart s r) := by
  unfold State.repStart
  extract_lets +onlyGivenNames v0
  clear_value v0
  exact Only.upd h_s (inT (F := [.reps]) rfl hsub) (by intro f hf; cases f <;> first | rfl | simp at hf)

end Sys2Proof.Machine
end

