-- ==== Sys2Proof/Laws/OnlyMotion.lean ====
section
/-!
SUPPORT. What the operations of Machine/Motion.lean may change: one lemma each, from any state reached.
-/
namespace Sys2Proof.Machine

open Sys2Proof.Safety

theorem State.motResult_only {fs : List Part} {s0 : State} {s a code res} (h_s : Only fs s0 s) (hsub : In [.regs] fs) :
    Only fs s0 (State.motResult s a code res) := by
  unfold State.motResult
  exact State.setLv_only h_s hsub

theorem State.motCmd_only {fs : List Part} {s0 : State} {s m a code} (h_s : Only fs s0 s) (hsub : In [.regs, .host, .mgr, .mots, .trace, .log] fs) :
    Only fs s0 (State.motCmd s m a code) := by
  unfold State.motCmd
  extract_lets +onlyGivenNames v0
  clear_value v0
  split
  · exact State.motResult_only (State.refuseBy_only h_s (inT rfl hsub)) (inT rfl hsub)
  · exact State.onMt_only h_s (inT rfl hsub)

theorem State.hostMot_only {fs : List Part} {s0 : State} {s a code} (h_s : Only fs s0 s) (hsub : In [.regs, .host, .mgr, .mots, .trace, .log] fs) :
    Only fs s0 (State.hostMot s a code) := by
  unfold State.hostMot
  exact only_ite (State.motCmd_only (State.touch_only h_s (inT rfl hsub)) hsub) h_s

theorem execMoveAbs_only {fs : List Part} {s0 : State} {axis s} (h_s : Only fs s0 s) (hsub : In [.regs, .host, .mgr, .mots, .trace, .log] fs) :
    OnlyN fs s0 (execMoveAbs axis s) := by
  unfold execMoveAbs
  exact onlyN_next (State.hostMot_only h_s hsub)

theorem execMoveRel_only {fs : List Part} {s0 : State} {axis s} (h_s : Only fs s0 s) (hsub : In [.regs, .host, .mgr, .mots, .trace, .log] fs) :
    OnlyN fs s0 (execMoveRel axis s) := by
  unfold execMoveRel
  exact onlyN_next (State.hostMot_only h_s hsub)

theorem execJog_only {fs : List Part} {s0 : State} {axis s} (h_s : Only fs s0 s) (hsub : In [.regs, .host, .mgr, .mots, .trace, .log] fs) :
    OnlyN fs s0 (execJog axis s) := by
  unfold execJog
  exact onlyN_next (State.hostMot_only h_s hsub)

theorem execMotStop_only {fs : List Part} {s0 : State} {axis s} (h_s : Only fs s0 s) (hsub : In [.regs, .host, .mgr, .mots, .trace, .log] fs) :
    OnlyN fs s0 (execMotStop axis s) := by
  unfold execMotStop
  exact onlyN_next (State.hostMot_only h_s hsub)

theorem execGearEngage_only {fs : List Part} {s0 : State} {axis s} (h_s : Only fs s0 s) (hsub : In [.regs, .host, .mgr, .mots, .trace, .log] fs) :
    OnlyN fs s0 (execGearEngage axis s) := by
  unfold execGearEngage
  exact onlyN_next (State.hostMot_only h_s hsub)

theorem execGearArm_only {fs : List Part} {s0 : State} {axis s} (h_s : Only fs s0 s) (hsub : In [.regs, .host, .mgr, .mots, .trace, .log] fs) :
    OnlyN fs s0 (execGearArm axis s) := by
  unfold execGearArm
  exact onlyN_next (State.hostMot_only h_s hsub)

theorem execGearDisengage_only {fs : List Part} {s0 : State} {axis s} (h_s : Only fs s0 s) (hsub : In [.regs, .host, .mgr, .mots, .trace, .log] fs) :
    OnlyN fs s0 (execGearDisengage axis s) := by
  unfold execGearDisengage
  exact onlyN_next (State.hostMot_only h_s hsub)

theorem execSwitchCancel_only {fs : List Part} {s0 : State} {axis s} (h_s : Only fs s0 s) (hsub : In [.regs, .host, .mgr, .mots, .trace, .log] fs) :
    OnlyN fs s0 (execSwitchCancel axis s) := by
  unfold execSwitchCancel
  exact onlyN_next (State.hostMot_only h_s hsub)

theorem State.startMove_only {fs : List Part} {s0 : State} {s a target} (h_s : Only fs s0 s) (hsub : In [.mots] fs) :
    Only fs s0 (State.startMove s a target) := by
  unfold State.startMove
  exact State.onMt_only h_s hsub

theorem State.armSwitch_only {fs : List Part} {s0 : State} {s a m} (h_s : Only fs s0 s) (hsub : In [.regs, .mots, .trace] fs) :
    Only fs s0 (State.armSwitch s a m) := by
  unfold State.armSwitch
  extract_lets +onlyGivenNames v0
  clear_value v0
  extract_lets +onlyGivenNames v1
  clear_value v1
  extract_lets +onlyGivenNames v2
  clear_value v2
  extract_lets +onlyGivenNames v3
  clear_value v3
  extract_lets +onlyGivenNames v4
  clear_value v4
  extract_lets +onlyGivenNames v5
  have h5 : Only fs s0 v5 := State.onMt_only h_s (inT rfl hsub)
  clear_value v5
  exact only_ite (State.event_only h5 (inT rfl hsub)) h5

theorem State.gearSwitch_only {fs : List Part} {s0 : State} {s a mx} (h_s : Only fs s0 s) (hsub : In [.regs, .mots, .trace] fs) :
    Only fs s0 (State.gearSwitch s a mx) := by
  unfold State.gearSwitch
  exact State.event_only (State.onMt_only h_s (inT rfl hsub)) (inT rfl hsub)

theorem State.takeMot_only {fs : List Part} {s0 : State} {s a mx} (h_s : Only fs s0 s) (hsub : In [.regs, .host, .mgr, .mots, .trace, .log] fs) :
    Only fs s0 (State.takeMot s a mx) := by
  unfold State.takeMot
  split
  · exact h_s
  · extract_lets +onlyGivenNames v0
    have h0 : Only fs s0 v0 := State.onMt_only h_s (inT rfl hsub)
    clear_value v0
    split
    · exact State.motResult_only (State.refuse_only h0 (inT rfl hsub)) (inT rfl hsub)
    · extract_lets +onlyGivenNames v1
      have h1 : Only fs s0 v1 := State.onMt_only (State.motResult_only h0 (inT rfl hsub)) (inT rfl hsub)
      clear_value v1
      extract_lets +onlyGivenNames v2
      clear_value v2
      extract_lets +onlyGivenNames v3
      clear_value v3
      split
      · exact State.startMove_only h1 (inT rfl hsub)
      · exact State.startMove_only h1 (inT rfl hsub)
      · exact State.onMt_only h1 (inT rfl hsub)
      · exact State.onMt_only h1 (inT rfl hsub)
      · exact State.onMt_only h1 (inT rfl hsub)
      · exact State.armSwitch_only h1 (inT rfl hsub)
      · exact State.onMt_only h1 (inT rfl hsub)
      · exact State.onMt_only h1 (inT rfl hsub)

theorem State.moveStep_only {fs : List Part} {s0 : State} {s a h} (h_s : Only fs s0 s) (hsub : In [.mots] fs) :
    Only fs s0 (State.moveStep s a h) := by
  unfold State.moveStep
  extract_lets +onlyGivenNames v0
  clear_value v0
  extract_lets +onlyGivenNames v1
  clear_value v1
  extract_lets +onlyGivenNames v2
  clear_value v2
  extract_lets +onlyGivenNames v3
  clear_value v3
  extract_lets +onlyGivenNames v4
  clear_value v4
  extract_lets +onlyGivenNames v5
  clear_value v5
  extract_lets +onlyGivenNames v6
  clear_value v6
  extract_lets +onlyGivenNames v7
  clear_value v7
  extract_lets +onlyGivenNames v8
  clear_value v8
  extract_lets +onlyGivenNames v9
  clear_value v9
  refine only_ite (State.onMt_only h_s hsub) ?_
  split
  · extract_lets +onlyGivenNames v10
    clear_value v10
    extract_lets +onlyGivenNames v11
    clear_value v11
    extract_lets +onlyGivenNames v12
    clear_value v12
    exact State.onMt_only h_s hsub

theorem State.trackAxis_only {fs : List Part} {s0 : State} {s a goal ac de jerk h} (h_s : Only fs s0 s) (hsub : In [.mots] fs) :
    Only fs s0 (State.trackAxis s a goal ac de jerk h) := by
  unfold State.trackAxis
  extract_lets +onlyGivenNames v0
  clear_value v0
  extract_lets +onlyGivenNames v1
  clear_value v1
  refine only_ite (State.onMt_only h_s hsub) ?_
  split
  · extract_lets +onlyGivenNames v2
    clear_value v2
    exact State.onMt_only h_s hsub

theorem State.gearStep_only {fs : List Part} {s0 : State} {s a} (h_s : Only fs s0 s) (hsub : In [.regs, .host, .mgr, .mots, .trace, .log] fs) :
    Only fs s0 (State.gearStep s a) := by
  unfold State.gearStep
  split
  · extract_lets +onlyGivenNames v0
    clear_value v0
    extract_lets +onlyGivenNames v1
    clear_value v1
    extract_lets +onlyGivenNames v2
    have h2 : Only fs s0 v2 := State.setLv_only (State.onMt_only h_s (inT rfl hsub)) (inT rfl hsub)
    clear_value v2
    extract_lets +onlyGivenNames v3
    have h3 : Only fs s0 v3 := only_ite (only_ite (State.event_only h2 (inT rfl hsub)) h2) h_s
    clear_value v3
    extract_lets +onlyGivenNames v4
    clear_value v4
    extract_lets +onlyGivenNames v5
    have h5 : Only fs s0 v5 := State.onMt_only h3 (inT rfl hsub)
    clear_value v5
    extract_lets +onlyGivenNames v6
    clear_value v6
    extract_lets +onlyGivenNames v7
    clear_value v7
    extract_lets +onlyGivenNames v8
    clear_value v8
    extract_lets +onlyGivenNames v9
    have h9 : Only fs s0 v9 := State.takeMot_only h5 hsub
    clear_value v9
    extract_lets +onlyGivenNames v10
    have h10 : Only fs s0 v10 := only_ite (State.gearSwitch_only h9 (inT rfl hsub)) h9
    clear_value v10
    extract_lets +onlyGivenNames v11
    have h11 : Only fs s0 v11 := State.onMt_only h10 (inT rfl hsub)
    clear_value v11
    extract_lets +onlyGivenNames v12
    clear_value v12
    exact only_ite (State.onMt_only h11 (inT rfl hsub)) h11

theorem State.profileStep_only {fs : List Part} {s0 : State} {s a h} (h_s : Only fs s0 s) (hsub : In [.mots] fs) :
    Only fs s0 (State.profileStep s a h) := by
  unfold State.profileStep
  extract_lets +onlyGivenNames v0
  clear_value v0
  extract_lets +onlyGivenNames v1
  clear_value v1
  split
  · exact State.moveStep_only h_s hsub
  · exact State.trackAxis_only h_s hsub
  · extract_lets +onlyGivenNames v2
    have h2 : Only fs s0 v2 := State.trackAxis_only h_s hsub
    clear_value v2
    exact State.onMt_only h2 hsub
  · extract_lets +onlyGivenNames v3
    have h3 : Only fs s0 v3 := State.trackAxis_only h_s hsub
    clear_value v3
    exact State.onMt_only h3 hsub
  · exact State.onMt_only h_s hsub

theorem State.quickStop_only {fs : List Part} {s0 : State} {s a} (h_s : Only fs s0 s) (hsub : In [.mots] fs) :
    Only fs s0 (State.quickStop s a) := by
  unfold State.quickStop
  exact State.onMt_only h_s hsub

theorem State.axisPass_only {fs : List Part} {s0 : State} {s a h} (h_s : Only fs s0 s) (hsub : In [.regs, .host, .mgr, .mots, .trace, .log] fs) :
    Only fs s0 (State.axisPass s a h) := by
  unfold State.axisPass
  extract_lets +onlyGivenNames v0
  clear_value v0
  extract_lets +onlyGivenNames v1
  clear_value v1
  extract_lets +onlyGivenNames v2
  have h2 : Only fs s0 v2 := State.onMt_only h_s (inT rfl hsub)
  clear_value v2
  extract_lets +onlyGivenNames v3
  have h3 : Only fs s0 v3 := State.gearStep_only h2 hsub
  clear_value v3
  extract_lets +onlyGivenNames v4
  have h4 : Only fs s0 v4 := State.takeMot_only h2 hsub
  clear_value v4
  exact only_ite (State.takeMot_only h2 hsub) (only_ite (only_ite h3 (State.profileStep_only h3 (inT rfl hsub))) (only_ite (State.profileStep_only h4 (inT rfl hsub)) (only_ite (State.profileStep_only (State.quickStop_only h4 (inT rfl hsub)) (inT rfl hsub)) (State.onMt_only h4 (inT rfl hsub)))))

theorem State.groupPass_only {fs : List Part} {s0 : State} {s g h} (h_s : Only fs s0 s) (hsub : In [.mots, .groups] fs) :
    Only fs s0 (State.groupPass s g h) := by
  unfold State.groupPass
  extract_lets +onlyGivenNames v0
  clear_value v0
  extract_lets +onlyGivenNames v1
  clear_value v1
  extract_lets +onlyGivenNames v2
  clear_value v2
  extract_lets +onlyGivenNames v3
  clear_value v3
  extract_lets +onlyGivenNames v4
  clear_value v4
  extract_lets +onlyGivenNames v5
  clear_value v5
  extract_lets +onlyGivenNames v6
  clear_value v6
  extract_lets +onlyGivenNames v7
  clear_value v7
  extract_lets +onlyGivenNames v8
  clear_value v8
  extract_lets +onlyGivenNames v9
  clear_value v9
  refine only_ite h_s ?_
  split
  · extract_lets +onlyGivenNames v10
    clear_value v10
    extract_lets +onlyGivenNames v11
    clear_value v11
    extract_lets +onlyGivenNames v12
    have h12 : ∀ t0, Only fs s0 t0 → Only fs s0 (v12 t0) := by
      unfold v12
      intro t13 h14
      split
      · exact forL_only (fun _ _ h15 => State.onMt_only h15 (inT rfl hsub)) h14
      · refine forL_only ?_ h14
        intro x17 t18 h19
        split
        · exact State.onMt_only h19 (inT rfl hsub)
    clear_value v12
    extract_lets +onlyGivenNames v20
    have h20 : Only fs s0 v20 := only_ite (h12 _ h_s) (forL_only (fun _ _ h21 => State.onMt_only h21 (inT rfl hsub)) h_s)
    clear_value v20
    exact State.onGr_only h20 (inT rfl hsub)

theorem State.qstatus_only {fs : List Part} {s0 : State} {s g res} (h_s : Only fs s0 s) (hsub : In [.regs] fs) :
    Only fs s0 (State.qstatus s g res) := by
  unfold State.qstatus
  exact State.onLv_only h_s hsub

theorem State.pushBy_only {fs : List Part} {s0 : State} {s m g} (h_s : Only fs s0 s) (hsub : In [.regs, .host, .mgr, .groups, .trace, .log] fs) :
    Only fs s0 (State.pushBy s m g) := by
  unfold State.pushBy
  split
  · exact State.qstatus_only (State.event_only (State.refuseBy_only h_s (inT rfl hsub)) (inT rfl hsub)) (inT rfl hsub)
  · extract_lets +onlyGivenNames v0
    clear_value v0
    exact State.qstatus_only (State.onGr_only h_s (inT rfl hsub)) (inT rfl hsub)

theorem State.flushBy_only {fs : List Part} {s0 : State} {s g} (h_s : Only fs s0 s) (hsub : In [.groups] fs) :
    Only fs s0 (State.flushBy s g) := by
  unfold State.flushBy
  exact State.onGr_only h_s hsub

theorem execPush_only {fs : List Part} {s0 : State} {g s} (h_s : Only fs s0 s) (hsub : In [.regs, .host, .mgr, .groups, .trace, .log] fs) :
    OnlyN fs s0 (execPush g s) := by
  unfold execPush
  exact onlyN_ite (onlyN_next (State.pushBy_only (State.touch_only h_s (inT rfl hsub)) hsub)) (onlyN_next h_s)

theorem execFlush_only {fs : List Part} {s0 : State} {g s} (h_s : Only fs s0 s) (hsub : In [.host, .mgr, .groups] fs) :
    OnlyN fs s0 (execFlush g s) := by
  unfold execFlush
  exact onlyN_ite (onlyN_next (State.flushBy_only (State.touch_only h_s (inT rfl hsub)) (inT rfl hsub))) (onlyN_next h_s)

theorem execProfilePass_only {fs : List Part} {s0 : State} {s} (h_s : Only fs s0 s) (hsub : In [.regs, .time, .host, .mgr, .mots, .cmps, .latches, .groups, .trace, .log, .timers] fs) :
    OnlyN fs s0 (execProfilePass s) := by
  unfold execProfilePass
  extract_lets +onlyGivenNames v0
  clear_value v0
  extract_lets +onlyGivenNames v1
  have h1 : Only fs s0 v1 := State.onTime_only (State.reach_only h_s (inT rfl hsub)) (inT rfl hsub)
  clear_value v1
  extract_lets +onlyGivenNames v2
  clear_value v2
  extract_lets +onlyGivenNames v3
  have h3 : Only fs s0 v3 := forN_only (fun _ _ h4 => State.groupPass_only h4 (inT rfl hsub)) h1
  clear_value v3
  extract_lets +onlyGivenNames v5
  have h5 : Only fs s0 v5 := forN_only (fun _ _ h6 => forN_only (fun _ _ h7 => only_ite (State.axisPass_only h7 (inT rfl hsub)) h7) h6) h3
  clear_value v5
  extract_lets +onlyGivenNames v8
  clear_value v8
  refine onlyN_ite (onlyN_next h_s) ?_
  refine onlyN_next ?_
  refine forN_only ?_ h5
  intro x13 t14 h15
  extract_lets +onlyGivenNames v16
  clear_value v16
  exact only_ite h15 (State.cmpSetPoint_only h15 (inT rfl hsub))

theorem State.stepBoundary_only {fs : List Part} {s0 : State} {s a p q} (h_s : Only fs s0 s) (hsub : In [.mots] fs) :
    Only fs s0 (State.stepBoundary s a p q) := by
  unfold State.stepBoundary
  extract_lets +onlyGivenNames v0
  clear_value v0
  exact only_ite h_s (State.onMt_only h_s hsub)

theorem execStepPulse_only {fs : List Part} {s0 : State} {axis s} (h_s : Only fs s0 s) (hsub : In [.regs, .time, .mots, .cmps, .latches, .trace, .timers] fs) :
    OnlyN fs s0 (execStepPulse axis s) := by
  unfold execStepPulse
  extract_lets +onlyGivenNames v0
  clear_value v0
  extract_lets +onlyGivenNames v1
  clear_value v1
  split
  · exact onlyN_next h_s
  · extract_lets +onlyGivenNames v2
    clear_value v2
    extract_lets +onlyGivenNames v3
    have h3 : Only fs s0 v3 := State.onMt_only (State.reach_only h_s (inT rfl hsub)) (inT rfl hsub)
    clear_value v3
    exact onlyN_ite (onlyN_next h_s) (onlyN_ite (onlyN_next (State.onMt_only (State.reach_only h_s (inT rfl hsub)) (inT rfl hsub))) (onlyN_next (only_ite (State.cmpActual_only h3 (inT rfl hsub)) h3)))

theorem State.devBoundary_only {fs : List Part} {s0 : State} {s a} (h_s : Only fs s0 s) (hsub : In [.regs, .axes, .mots, .legs, .safety, .trace, .log, .timers] fs) :
    Only fs s0 (State.devBoundary s a) := by
  unfold State.devBoundary
  extract_lets +onlyGivenNames v0
  clear_value v0
  extract_lets +onlyGivenNames v1
  clear_value v1
  extract_lets +onlyGivenNames v2
  clear_value v2
  extract_lets +onlyGivenNames v3
  clear_value v3
  extract_lets +onlyGivenNames v4
  have h4 : Only fs s0 v4 := State.setLv_only h_s (inT rfl hsub)
  clear_value v4
  extract_lets +onlyGivenNames v5
  have h5 : Only fs s0 v5 := State.onAx_only h4 (inT rfl hsub)
  clear_value v5
  exact only_ite (State.clearSrc_only (State.onAx_only h4 (inT rfl hsub)) (inT rfl hsub)) (only_ite h4 (only_ite (only_ite (State.raiseNow_only (State.pfault_only h5 (inT rfl hsub)) hsub) h5) (State.clearSrc_only (State.onAx_only h4 (inT rfl hsub)) (inT rfl hsub))))

theorem State.motBoundary_only {fs : List Part} {s0 : State} {s a was} (h_s : Only fs s0 s) (hsub : In [.regs, .axes, .mots, .cmps, .latches, .legs, .safety, .trace, .log, .timers] fs) :
    Only fs s0 (State.motBoundary s a was) := by
  unfold State.motBoundary
  extract_lets +onlyGivenNames v0
  clear_value v0
  extract_lets +onlyGivenNames v1
  clear_value v1
  extract_lets +onlyGivenNames v2
  clear_value v2
  extract_lets +onlyGivenNames v3
  have h3 : Only fs s0 v3 := State.onMt_only h_s (inT rfl hsub)
  clear_value v3
  extract_lets +onlyGivenNames v4
  have h4 : Only fs s0 v4 := only_ite (State.event_only h3 (inT rfl hsub)) h3
  clear_value v4
  extract_lets +onlyGivenNames v5
  clear_value v5
  extract_lets +onlyGivenNames v6
  have h6 : Only fs s0 v6 := only_ite (State.stepBoundary_only h4 (inT rfl hsub)) (State.onMt_only h_s (inT rfl hsub))
  clear_value v6
  extract_lets +onlyGivenNames v7
  clear_value v7
  extract_lets +onlyGivenNames v8
  have h8 : Only fs s0 v8 := only_ite (State.cmpActual_only h6 (inT rfl hsub)) h6
  clear_value v8
  extract_lets +onlyGivenNames v9
  have h9 : Only fs s0 v9 := State.onMt_only h8 (inT rfl hsub)
  clear_value v9
  exact State.devBoundary_only (State.latchBoundary_only (State.cmpValidAgain_only h9 (inT rfl hsub)) (inT rfl hsub)) (inT rfl hsub)

theorem State.groupBoundary_only {fs : List Part} {s0 : State} {s g} (h_s : Only fs s0 s) (hsub : In [.regs, .groups, .trace] fs) :
    Only fs s0 (State.groupBoundary s g) := by
  unfold State.groupBoundary
  extract_lets +onlyGivenNames v0
  clear_value v0
  extract_lets +onlyGivenNames v1
  have h1 : Only fs s0 v1 := State.event_only h_s (inT rfl hsub)
  clear_value v1
  extract_lets +onlyGivenNames v2
  have h2 : Only fs s0 v2 := only_ite h1 (State.onLv_only h1 (inT rfl hsub))
  clear_value v2
  exact State.onGr_only h2 (inT rfl hsub)

theorem State.masterLost_only {fs : List Part} {s0 : State} {s n} (h_s : Only fs s0 s) (hsub : In [.regs, .mots, .trace] fs) :
    Only fs s0 (State.masterLost s n) := by
  unfold State.masterLost
  refine forN_only ?_ h_s
  intro x1 t2 h3
  extract_lets +onlyGivenNames v4
  clear_value v4
  exact only_ite (State.pfault_only (State.event_only (State.quickStop_only h3 (inT rfl hsub)) (inT rfl hsub)) (inT rfl hsub)) h3

end Sys2Proof.Machine
end

