-- ==== Sys2Proof/Laws/OnlyPwm.lean ====
section
/-!
SUPPORT. What the operations of Machine/Pwm.lean may change: one lemma each, from any state reached.
-/
namespace Sys2Proof.Machine

open Sys2Proof.Safety

theorem State.legPeriod_only {fs : List Part} {s0 : State} {s l start i n p} (h_s : Only fs s0 s) (hsub : In [.regs, .legs, .trace] fs) :
    Only fs s0 (State.legPeriod s l start i n p) := by
  unfold State.legPeriod
  extract_lets +onlyGivenNames v0
  clear_value v0
  extract_lets +onlyGivenNames v1
  clear_value v1
  extract_lets +onlyGivenNames v2
  clear_value v2
  extract_lets +onlyGivenNames v3
  clear_value v3
  extract_lets +onlyGivenNames v4
  clear_value v4
  extract_lets +onlyGivenNames v5
  clear_value v5
  extract_lets +onlyGivenNames v6
  clear_value v6
  extract_lets +onlyGivenNames v7
  clear_value v7
  extract_lets +onlyGivenNames v8
  clear_value v8
  split
  · extract_lets +onlyGivenNames v9
    clear_value v9
    extract_lets +onlyGivenNames v10
    clear_value v10
    extract_lets +onlyGivenNames v11
    clear_value v11
    extract_lets +onlyGivenNames v12
    clear_value v12
    extract_lets +onlyGivenNames v13
    clear_value v13
    split
    · exact State.onLg_only h_s (inT rfl hsub)
    · extract_lets +onlyGivenNames v14
      clear_value v14
      extract_lets +onlyGivenNames v15
      clear_value v15
      extract_lets +onlyGivenNames v16
      clear_value v16
      extract_lets +onlyGivenNames v17
      clear_value v17
      extract_lets +onlyGivenNames v18
      clear_value v18
      extract_lets +onlyGivenNames v19
      clear_value v19
      extract_lets +onlyGivenNames v20
      clear_value v20
      extract_lets +onlyGivenNames v21
      clear_value v21
      extract_lets +onlyGivenNames v22
      clear_value v22
      split
      · extract_lets +onlyGivenNames v23
        have h23 : Only fs s0 v23 := State.onLg_only h_s (inT rfl hsub)
        clear_value v23
        exact only_ite (State.event_only h23 (inT rfl hsub)) h23

theorem execPwmSnapshot_only {fs : List Part} {s0 : State} {leg s} (h_s : Only fs s0 s) (hsub : In [.time, .legs] fs) :
    OnlyN fs s0 (execPwmSnapshot leg s) := by
  unfold execPwmSnapshot
  extract_lets +onlyGivenNames v0
  clear_value v0
  extract_lets +onlyGivenNames v1
  have h1 : Only fs s0 v1 := State.reach_only h_s (inT rfl hsub)
  clear_value v1
  exact onlyN_ite (onlyN_next h_s) (onlyN_next (State.onLg_only h1 (inT rfl hsub)))

theorem State.takeShadow_only {fs : List Part} {s0 : State} {s l} (h_s : Only fs s0 s) (hsub : In [.regs, .host, .mgr, .legs, .trace, .log] fs) :
    Only fs s0 (State.takeShadow s l) := by
  unfold State.takeShadow
  extract_lets +onlyGivenNames v0
  clear_value v0
  extract_lets +onlyGivenNames v1
  clear_value v1
  split
  · extract_lets +onlyGivenNames v2
    clear_value v2
    extract_lets +onlyGivenNames v3
    clear_value v3
    extract_lets +onlyGivenNames v4
    clear_value v4
    extract_lets +onlyGivenNames v5
    have h5 : Only fs s0 v5 := by
      unfold v5
      split
      · exact State.onLg_only h_s (inT rfl hsub)
      · exact only_ite (State.onLg_only h_s (inT rfl hsub)) (State.onLg_only h_s (inT rfl hsub))
    clear_value v5
    extract_lets +onlyGivenNames v6
    have h6 : Only fs s0 v6 := only_ite h5 (State.onLg_only h5 (inT rfl hsub))
    clear_value v6
    extract_lets +onlyGivenNames v7
    have h7 : Only fs s0 v7 := by
      unfold v7
      refine only_ite ?_ h6
      refine only_ite ?_ (State.onLg_only h6 (inT rfl hsub))
      split
      · exact State.onLg_only (State.refuseBy_only h6 (inT rfl hsub)) (inT rfl hsub)
      · exact h6
    clear_value v7
    extract_lets +onlyGivenNames v8
    have h8 : Only fs s0 v8 := only_ite (State.onLv_only h7 (inT rfl hsub)) h7
    clear_value v8
    exact State.onLg_only h8 (inT rfl hsub)

theorem State.withNew_only {fs : List Part} {s0 : State} {s l f} (h_s : Only fs s0 s) (h_f : ∀ t0, Only fs s0 t0 → Only fs s0 (f t0)) (hsub : In [.legs] fs) :
    Only fs s0 (State.withNew s l f) := by
  unfold State.withNew
  extract_lets +onlyGivenNames v0
  clear_value v0
  exact State.onLg_only (h_f _ (State.onLg_only h_s hsub)) hsub

theorem execPwmReload_only {fs : List Part} {s0 : State} {leg s} (h_s : Only fs s0 s) (hsub : In [.regs, .time, .host, .mgr, .legs, .trace, .log] fs) :
    OnlyN fs s0 (execPwmReload leg s) := by
  unfold execPwmReload
  extract_lets +onlyGivenNames v0
  clear_value v0
  extract_lets +onlyGivenNames v2
  clear_value v2
  extract_lets +onlyGivenNames v4
  have h4 : Only fs s0 v4 := State.onLg_only (State.reach_only h_s (inT rfl hsub)) (inT rfl hsub)
  clear_value v4
  extract_lets +onlyGivenNames v6
  have h6 : Only fs s0 v6 := State.takeShadow_only h4 (inT rfl hsub)
  clear_value v6
  extract_lets +onlyGivenNames v8
  clear_value v8
  extract_lets +onlyGivenNames v10
  clear_value v10
  extract_lets +onlyGivenNames v12
  clear_value v12
  extract_lets +onlyGivenNames v14
  clear_value v14
  extract_lets +onlyGivenNames v16
  clear_value v16
  extract_lets +onlyGivenNames v18
  clear_value v18
  extract_lets +onlyGivenNames v20
  have h20 : Only fs s0 v20 := State.legPeriod_only h6 (inT rfl hsub)
  clear_value v20
  extract_lets +onlyGivenNames v22
  clear_value v22
  extract_lets +onlyGivenNames v24
  have h24 : Only fs s0 v24 := State.onLg_only h20 (inT rfl hsub)
  clear_value v24
  exact onlyN_ite (onlyN_next h_s) (onlyN_ite (onlyN_next (State.withNew_only (State.reach_only h_s (inT rfl hsub)) (fun _ h25 => State.takeShadow_only h25 (inT rfl hsub)) (inT rfl hsub))) (onlyN_ite (onlyN_next h_s) (onlyN_ite (onlyN_next (State.onLg_only (State.legOff_only h6 (inT rfl hsub)) (inT rfl hsub))) (onlyN_next (only_ite h24 (State.onLg_only h24 (inT rfl hsub)))))))

theorem State.legCommit_only {fs : List Part} {s0 : State} {s l} (h_s : Only fs s0 s) (hsub : In [.regs, .legs, .trace] fs) :
    Only fs s0 (State.legCommit s l) := by
  unfold State.legCommit
  extract_lets +onlyGivenNames v0
  clear_value v0
  refine only_ite h_s ?_
  refine State.withNew_only h_s ?_ (inT rfl hsub)
  intro t4 h5
  extract_lets +onlyGivenNames v6
  clear_value v6
  extract_lets +onlyGivenNames v7
  clear_value v7
  extract_lets +onlyGivenNames v8
  clear_value v8
  exact forN_only (fun _ _ h9 => State.legPeriod_only h9 hsub) h5

theorem State.legBoundary_only {fs : List Part} {s0 : State} {s l} (h_s : Only fs s0 s) (hsub : In [.legs, .chans] fs) :
    Only fs s0 (State.legBoundary s l) := by
  unfold State.legBoundary
  extract_lets +onlyGivenNames v0
  clear_value v0
  extract_lets +onlyGivenNames v1
  have h1 : Only fs s0 v1 := State.onLg_only h_s (inT rfl hsub)
  clear_value v1
  extract_lets +onlyGivenNames v2
  have h2 : Only fs s0 v2 := only_ite (State.onLg_only h1 (inT rfl hsub)) h1
  clear_value v2
  extract_lets +onlyGivenNames v3
  clear_value v3
  extract_lets +onlyGivenNames v4
  clear_value v4
  extract_lets +onlyGivenNames v5
  have h5 : Only fs s0 v5 := only_ite (only_ite (State.onLg_only h2 (inT rfl hsub)) h2) (only_ite h2 (State.onLg_only (State.legOff_only h2 (inT rfl hsub)) (inT rfl hsub)))
  clear_value v5
  extract_lets +onlyGivenNames v6
  clear_value v6
  extract_lets +onlyGivenNames v7
  have h7 : Only fs s0 v7 := only_ite (State.backInService_only (State.backInService_only (State.onLg_only h5 (inT rfl hsub)) (inT rfl hsub)) (inT rfl hsub)) h5
  clear_value v7
  exact only_ite (State.onLg_only h7 (inT rfl hsub)) h7

theorem State.legEnter_only {fs : List Part} {s0 : State} {s l} (h_s : Only fs s0 s) (hsub : In [.legs] fs) :
    Only fs s0 (State.legEnter s l) := by
  unfold State.legEnter
  exact State.onLg_only h_s hsub

theorem State.turnOn_only {fs : List Part} {s0 : State} {s l high} (h_s : Only fs s0 s) (hsub : In [.legs, .chans] fs) :
    Only fs s0 (State.turnOn s l high) := by
  unfold State.turnOn
  extract_lets +onlyGivenNames v0
  clear_value v0
  extract_lets +onlyGivenNames v1
  have h1 : Only fs s0 v1 := State.onLg_only h_s (inT rfl hsub)
  clear_value v1
  extract_lets +onlyGivenNames v2
  clear_value v2
  extract_lets +onlyGivenNames v3
  have h3 : Only fs s0 v3 := only_ite (only_ite (State.backInService_only (State.onLg_only h1 (inT rfl hsub)) (inT rfl hsub)) h1) h_s
  clear_value v3
  extract_lets +onlyGivenNames v4
  have h4 : Only fs s0 v4 := State.onLg_only h3 (inT rfl hsub)
  clear_value v4
  exact only_ite (State.onLg_only h4 (inT rfl hsub)) h4

theorem State.legEdge_only {fs : List Part} {s0 : State} {s l rise t} (h_s : Only fs s0 s) (hsub : In [.legs, .chans] fs) :
    Only fs s0 (State.legEdge s l rise t) := by
  unfold State.legEdge
  exact only_ite h_s (only_ite (only_ite (State.turnOn_only h_s hsub) (only_ite h_s (State.onLg_only h_s (inT rfl hsub)))) (State.onLg_only h_s (inT rfl hsub)))

theorem execExternalLegEdge_only {fs : List Part} {s0 : State} {leg rise s} (h_s : Only fs s0 s) (hsub : In [.time, .legs, .chans] fs) :
    OnlyN fs s0 (execExternalLegEdge leg rise s) := by
  unfold execExternalLegEdge
  extract_lets +onlyGivenNames v0
  clear_value v0
  split
  · exact onlyN_ite (onlyN_next (State.legEdge_only (State.onLg_only (State.reach_only h_s (inT rfl hsub)) (inT rfl hsub)) (inT rfl hsub))) (onlyN_next h_s)
  · exact onlyN_next h_s

theorem State.endDead_only {fs : List Part} {s0 : State} {s l rise t on hard} (h_s : Only fs s0 s) (hsub : In [.time, .legs, .chans] fs) :
    Only fs s0 (State.endDead s l rise t on hard) := by
  unfold State.endDead
  extract_lets +onlyGivenNames v0
  have h0 : Only fs s0 v0 := State.onLg_only (State.reach_only h_s (inT rfl hsub)) (inT rfl hsub)
  clear_value v0
  exact State.turnOn_only h0 (inT rfl hsub)

theorem execNodeCrossing_only {fs : List Part} {s0 : State} {leg ns s} (h_s : Only fs s0 s) (hsub : In [.time, .legs, .chans] fs) :
    OnlyN fs s0 (execNodeCrossing leg ns s) := by
  unfold execNodeCrossing
  extract_lets +onlyGivenNames v0
  clear_value v0
  extract_lets +onlyGivenNames v1
  clear_value v1
  split
  · exact onlyN_next h_s
  · extract_lets +onlyGivenNames v2
    clear_value v2
    extract_lets +onlyGivenNames v3
    clear_value v3
    extract_lets +onlyGivenNames v4
    clear_value v4
    exact onlyN_ite (onlyN_next h_s) (onlyN_ite (onlyN_next (State.endDead_only h_s hsub)) (onlyN_next (State.onLg_only (State.reach_only h_s (inT rfl hsub)) (inT rfl hsub))))

theorem execDeadtimeExpiry_only {fs : List Part} {s0 : State} {leg s} (h_s : Only fs s0 s) (hsub : In [.time, .legs, .chans] fs) :
    OnlyN fs s0 (execDeadtimeExpiry leg s) := by
  unfold execDeadtimeExpiry
  extract_lets +onlyGivenNames v0
  clear_value v0
  extract_lets +onlyGivenNames v1
  clear_value v1
  split
  · exact onlyN_next h_s
  · extract_lets +onlyGivenNames v2
    clear_value v2
    exact onlyN_ite (onlyN_next h_s) (onlyN_next (State.endDead_only h_s hsub))

theorem State.lateWrite_only {fs : List Part} {s0 : State} {s l} (h_s : Only fs s0 s) (hsub : In [.regs, .trace] fs) :
    Only fs s0 (State.lateWrite s l) := by
  unfold State.lateWrite
  exact only_ite (State.event_only (State.inc16_only h_s (inT rfl hsub)) hsub) h_s

theorem State.dutyWrite_only {fs : List Part} {s0 : State} {s l v} (h_s : Only fs s0 s) (hsub : In [.regs, .trace] fs) :
    Only fs s0 (State.dutyWrite s l v) := by
  unfold State.dutyWrite
  exact only_ite h_s (State.setLv_only (State.lateWrite_only h_s hsub) (inT rfl hsub))

theorem State.periodWrite_only {fs : List Part} {s0 : State} {s m l v} (h_s : Only fs s0 s) (hsub : In [.regs, .legs, .trace] fs) :
    Only fs s0 (State.periodWrite s m l v) := by
  unfold State.periodWrite
  exact only_ite h_s (State.onLg_only (State.setLv_only (State.lateWrite_only h_s (inT rfl hsub)) (inT rfl hsub)) (inT rfl hsub))

theorem State.crossCommand_only {fs : List Part} {s0 : State} {s l} (h_s : Only fs s0 s) (hsub : In [.regs, .stage, .axes, .fbs, .mots, .legs, .lanes, .cans, .dos, .safety, .trace, .log, .chans, .timers] fs) :
    Only fs s0 (State.crossCommand s l) := by
  unfold State.crossCommand
  extract_lets +onlyGivenNames v0
  have h0 : Only fs s0 v0 := State.onLg_only h_s (inT rfl hsub)
  clear_value v0
  extract_lets +onlyGivenNames v1
  clear_value v1
  extract_lets +onlyGivenNames v2
  have h2 : Only fs s0 v2 := State.inc16_only (State.pfault_only (State.event_only h0 (inT rfl hsub)) (inT rfl hsub)) (inT rfl hsub)
  clear_value v2
  extract_lets +onlyGivenNames v3
  clear_value v3
  refine only_ite ?_ (State.onset_only (State.raisePulse_only (State.pfault_only (State.event_only h0 (inT rfl hsub)) (inT rfl hsub)) (inT rfl hsub)) hsub)
  refine State.onset_only ?_ hsub
  split
  · exact State.raisePulse_only h2 (inT rfl hsub)
  · exact State.raisePulse_only h2 (inT rfl hsub)

theorem State.driveOverride_only {fs : List Part} {s0 : State} {s l v} (h_s : Only fs s0 s) (hsub : In [.regs, .stage, .axes, .fbs, .mots, .legs, .lanes, .cans, .dos, .safety, .trace, .log, .chans, .timers] fs) :
    Only fs s0 (State.driveOverride s l v) := by
  unfold State.driveOverride
  extract_lets +onlyGivenNames v0
  clear_value v0
  extract_lets +onlyGivenNames v1
  clear_value v1
  extract_lets +onlyGivenNames v2
  have h2 : Only fs s0 v2 := State.onLg_only h_s (inT rfl hsub)
  clear_value v2
  exact only_ite (State.crossCommand_only h_s hsub) (only_ite h2 (only_ite (State.turnOn_only h2 (inT rfl hsub)) (only_ite (State.turnOn_only h2 (inT rfl hsub)) h2)))

theorem State.pwmCtrlWrite_only {fs : List Part} {s0 : State} {s m l v} (h_s : Only fs s0 s) (hsub : In [.regs, .stage, .host, .mgr, .axes, .fbs, .mots, .legs, .lanes, .cans, .dos, .safety, .trace, .log, .chans, .timers] fs) :
    Only fs s0 (State.pwmCtrlWrite s m l v) := by
  unfold State.pwmCtrlWrite
  extract_lets +onlyGivenNames v0
  clear_value v0
  extract_lets +onlyGivenNames v1
  clear_value v1
  extract_lets +onlyGivenNames v2
  have h2 : Only fs s0 v2 := State.lateWrite_only h_s (inT rfl hsub)
  clear_value v2
  extract_lets +onlyGivenNames v3
  have h3 : Only fs s0 v3 := only_ite (State.onLg_only h2 (inT rfl hsub)) h2
  clear_value v3
  extract_lets +onlyGivenNames v4
  have h4 : Only fs s0 v4 := State.setLv_only h3 (inT rfl hsub)
  clear_value v4
  exact only_ite (State.refuseBy_only h_s (inT rfl hsub)) (only_ite (State.driveOverride_only h4 (inT rfl hsub)) (only_ite (State.onLg_only (State.legOff_only h4 (inT rfl hsub)) (inT rfl hsub)) h4))

theorem execPwmDutyWrite_only {fs : List Part} {s0 : State} {leg v s} (h_s : Only fs s0 s) (hsub : In [.regs, .host, .mgr, .trace] fs) :
    OnlyN fs s0 (execPwmDutyWrite leg v s) := by
  unfold execPwmDutyWrite
  exact onlyN_ite (onlyN_next (State.dutyWrite_only (State.touch_only h_s (inT rfl hsub)) (inT rfl hsub))) (onlyN_next h_s)

theorem execPwmPeriodWrite_only {fs : List Part} {s0 : State} {leg v s} (h_s : Only fs s0 s) (hsub : In [.regs, .host, .mgr, .legs, .trace] fs) :
    OnlyN fs s0 (execPwmPeriodWrite leg v s) := by
  unfold execPwmPeriodWrite
  exact onlyN_ite (onlyN_next (State.periodWrite_only (State.touch_only h_s (inT rfl hsub)) (inT rfl hsub))) (onlyN_next h_s)

theorem execPwmUpdateControl_only {fs : List Part} {s0 : State} {leg v s} (h_s : Only fs s0 s) (hsub : In [.regs, .stage, .host, .mgr, .axes, .fbs, .mots, .legs, .lanes, .cans, .dos, .safety, .trace, .log, .chans, .timers] fs) :
    OnlyN fs s0 (execPwmUpdateControl leg v s) := by
  unfold execPwmUpdateControl
  extract_lets +onlyGivenNames v0
  clear_value v0
  exact onlyN_ite (onlyN_next (State.pwmCtrlWrite_only (State.touch_only h_s (inT rfl hsub)) hsub)) (onlyN_next h_s)

theorem execPwmOverride_only {fs : List Part} {s0 : State} {leg v s} (h_s : Only fs s0 s) (hsub : In [.regs, .stage, .host, .mgr, .axes, .fbs, .mots, .legs, .lanes, .cans, .dos, .safety, .trace, .log, .chans, .timers] fs) :
    OnlyN fs s0 (execPwmOverride leg v s) := by
  unfold execPwmOverride
  exact onlyN_ite (onlyN_next (State.pwmCtrlWrite_only (State.touch_only h_s (inT rfl hsub)) hsub)) (onlyN_next h_s)

end Sys2Proof.Machine
end

