-- ==== Sys2Proof/Laws/OnlyAxes.lean ====
section
/-!
SUPPORT. What the operations of Machine/Axes.lean may change: one lemma each, from any state reached.
-/
namespace Sys2Proof.Machine

open Sys2Proof.Safety

theorem State.enterReady_only {fs : List Part} {s0 : State} {s a} (h_s : Only fs s0 s) (hsub : In [.axes, .drives, .timers] fs) :
    Only fs s0 (State.enterReady s a) := by
  unfold State.enterReady
  extract_lets +onlyGivenNames v0
  clear_value v0
  extract_lets +onlyGivenNames v1
  have h1 : Only fs s0 v1 := State.onAx_only h_s (inT rfl hsub)
  clear_value v1
  extract_lets +onlyGivenNames v2
  have h2 : Only fs s0 v2 := State.onDr_only h1 (inT rfl hsub)
  clear_value v2
  extract_lets +onlyGivenNames v3
  have h3 : Only fs s0 v3 := State.startT_only h2 (inT rfl hsub)
  clear_value v3
  exact only_ite h2 (only_ite (State.startT_only h3 (inT rfl hsub)) h3)

theorem State.axResult_only {fs : List Part} {s0 : State} {s a code res} (h_s : Only fs s0 s) (hsub : In [.regs] fs) :
    Only fs s0 (State.axResult s a code res) := by
  unfold State.axResult
  exact State.setLv_only h_s hsub

theorem State.axEffect_only {fs : List Part} {s0 : State} {s a code} (h_s : Only fs s0 s) (hsub : In [.axes, .drives, .timers] fs) :
    Only fs s0 (State.axEffect s a code) := by
  unfold State.axEffect
  split
  · exact State.enterReady_only h_s hsub
  · exact State.onAx_only h_s (inT rfl hsub)
  · exact State.onAx_only h_s (inT rfl hsub)
  · exact State.onAx_only (State.stopT_only (State.stopT_only h_s (inT rfl hsub)) (inT rfl hsub)) (inT rfl hsub)
  · exact State.onAx_only h_s (inT rfl hsub)

theorem State.axisCmd_only {fs : List Part} {s0 : State} {s m a code} (h_s : Only fs s0 s) (hsub : In [.regs, .host, .mgr, .axes, .drives, .trace, .log, .timers] fs) :
    Only fs s0 (State.axisCmd s m a code) := by
  unfold State.axisCmd
  split
  · exact State.axResult_only (State.refuseBy_only h_s (inT rfl hsub)) (inT rfl hsub)
  · exact State.axResult_only (State.axEffect_only h_s (inT rfl hsub)) (inT rfl hsub)

theorem State.hostAxis_only {fs : List Part} {s0 : State} {s a code} (h_s : Only fs s0 s) (hsub : In [.regs, .host, .mgr, .axes, .drives, .trace, .log, .timers] fs) :
    Only fs s0 (State.hostAxis s a code) := by
  unfold State.hostAxis
  exact only_ite (State.axisCmd_only (State.touch_only h_s (inT rfl hsub)) hsub) h_s

theorem execAxisEnable_only {fs : List Part} {s0 : State} {axis s} (h_s : Only fs s0 s) (hsub : In [.regs, .host, .mgr, .axes, .drives, .trace, .log, .timers] fs) :
    OnlyN fs s0 (execAxisEnable axis s) := by
  unfold execAxisEnable
  exact onlyN_next (State.hostAxis_only h_s hsub)

theorem execAxisRun_only {fs : List Part} {s0 : State} {axis s} (h_s : Only fs s0 s) (hsub : In [.regs, .host, .mgr, .axes, .drives, .trace, .log, .timers] fs) :
    OnlyN fs s0 (execAxisRun axis s) := by
  unfold execAxisRun
  exact onlyN_next (State.hostAxis_only h_s hsub)

theorem execAxisStop_only {fs : List Part} {s0 : State} {axis s} (h_s : Only fs s0 s) (hsub : In [.regs, .host, .mgr, .axes, .drives, .trace, .log, .timers] fs) :
    OnlyN fs s0 (execAxisStop axis s) := by
  unfold execAxisStop
  exact onlyN_next (State.hostAxis_only h_s hsub)

theorem execAxisDisable_only {fs : List Part} {s0 : State} {axis s} (h_s : Only fs s0 s) (hsub : In [.regs, .host, .mgr, .axes, .drives, .trace, .log, .timers] fs) :
    OnlyN fs s0 (execAxisDisable axis s) := by
  unfold execAxisDisable
  exact onlyN_next (State.hostAxis_only h_s hsub)

theorem execAxisClear_only {fs : List Part} {s0 : State} {axis s} (h_s : Only fs s0 s) (hsub : In [.regs, .host, .mgr, .axes, .drives, .trace, .log, .timers] fs) :
    OnlyN fs s0 (execAxisClear axis s) := by
  unfold execAxisClear
  exact onlyN_next (State.hostAxis_only h_s hsub)

theorem State.adcFault_only {fs : List Part} {s0 : State} {s ch} (h_s : Only fs s0 s) (hsub : In [.regs, .stage, .axes, .fbs, .mots, .legs, .lanes, .cans, .dos, .safety, .trace, .log, .chans, .timers] fs) :
    Only fs s0 (State.adcFault s ch) := by
  unfold State.adcFault
  exact State.onset_only (State.pfault_only h_s (inT rfl hsub)) hsub

theorem State.adcBack_only {fs : List Part} {s0 : State} {s ch} (h_s : Only fs s0 s) (hsub : In [.chans] fs) :
    Only fs s0 (State.adcBack s ch) := by
  unfold State.adcBack
  exact only_ite (State.backInService_only h_s hsub) h_s

theorem State.adcTake_only {fs : List Part} {s0 : State} {s ch x} (h_s : Only fs s0 s) (hsub : In [.regs, .samples] fs) :
    Only fs s0 (State.adcTake s ch x) := by
  unfold State.adcTake
  extract_lets +onlyGivenNames v0
  have h0 : Only fs s0 v0 := State.setLv_only h_s (inT rfl hsub)
  clear_value v0
  extract_lets +onlyGivenNames v1
  clear_value v1
  exact Only.upd h0 (inT (F := [.samples]) rfl hsub) (by intro f hf; cases f <;> first | rfl | simp at hf)

theorem State.offsetSample_only {fs : List Part} {s0 : State} {s ch code stamp} (h_s : Only fs s0 s) (hsub : In [.drives] fs) :
    Only fs s0 (State.offsetSample s ch code stamp) := by
  unfold State.offsetSample
  split
  · exact h_s
  · exact only_ite (only_ite (State.onDr_only h_s hsub) (State.onDr_only h_s hsub)) (State.onDr_only h_s hsub)

theorem execAdcConversionDone_only {fs : List Part} {s0 : State} {ch code kind stamp s} (h_s : Only fs s0 s) (hsub : In [.regs, .time, .stage, .axes, .drives, .fbs, .mots, .legs, .lanes, .cans, .dos, .safety, .trace, .log, .chans, .timers, .samples] fs) :
    OnlyN fs s0 (execAdcConversionDone ch code kind stamp s) := by
  unfold execAdcConversionDone
  extract_lets +onlyGivenNames v0
  clear_value v0
  extract_lets +onlyGivenNames v1
  have h1 : Only fs s0 v1 := State.reach_only h_s (inT rfl hsub)
  clear_value v1
  extract_lets +onlyGivenNames v2
  clear_value v2
  refine onlyN_ite (onlyN_next h_s) ?_
  split
  · exact onlyN_ite (onlyN_next h1) (onlyN_ite (onlyN_next (only_ite h1 (State.adcFault_only h1 (inT rfl hsub)))) (onlyN_next (State.adcBack_only h1 (inT rfl hsub))))
  · extract_lets +onlyGivenNames v3
    have h3 : Only fs s0 v3 := State.adcTake_only h1 (inT rfl hsub)
    clear_value v3
    extract_lets +onlyGivenNames v4
    have h4 : Only fs s0 v4 := by
      unfold v4
      refine only_ite ?_ h3
      split
      · exact State.onDr_only h3 (inT rfl hsub)
      · exact h3
    clear_value v4
    exact onlyN_next (only_ite (State.adcBack_only h4 (inT rfl hsub)) h4)
  · extract_lets +onlyGivenNames v5
    have h5 : Only fs s0 v5 := State.adcTake_only h1 (inT rfl hsub)
    clear_value v5
    refine onlyN_next ?_
    refine only_ite ?_ h5
    split
    · exact State.onDr_only h5 (inT rfl hsub)
    · exact h5
  · exact onlyN_next (State.offsetSample_only (State.adcTake_only h1 (inT rfl hsub)) (inT rfl hsub))

theorem execSdStreamStall_only {fs : List Part} {s0 : State} {ch s} (h_s : Only fs s0 s) (hsub : In [.regs, .stage, .axes, .fbs, .mots, .legs, .lanes, .cans, .dos, .safety, .trace, .log, .chans, .timers] fs) :
    OnlyN fs s0 (execSdStreamStall ch s) := by
  unfold execSdStreamStall
  extract_lets +onlyGivenNames v0
  clear_value v0
  exact onlyN_ite (onlyN_next h_s) (onlyN_next (State.adcFault_only h_s hsub))

theorem State.offsetRange_only {fs : List Part} {s0 : State} {s ch m} (h_s : Only fs s0 s) (hsub : In [.regs, .stage, .axes, .fbs, .mots, .legs, .lanes, .cans, .dos, .safety, .trace, .log, .chans, .timers] fs) :
    Only fs s0 (State.offsetRange s ch m) := by
  unfold State.offsetRange
  exact only_ite (State.adcFault_only h_s hsub) h_s

theorem State.captureDone_only {fs : List Part} {s0 : State} {s a} (h_s : Only fs s0 s) (hsub : In [.regs, .time, .stage, .axes, .drives, .fbs, .mots, .legs, .lanes, .cans, .dos, .safety, .trace, .log, .chans, .timers] fs) :
    Only fs s0 (State.captureDone s a) := by
  unfold State.captureDone
  refine State.expire_only h_s ?_ (inT rfl hsub)
  intro t1 h2
  extract_lets +onlyGivenNames v3
  clear_value v3
  extract_lets +onlyGivenNames v4
  have h4 : Only fs s0 v4 := State.onAx_only h2 (inT rfl hsub)
  clear_value v4
  extract_lets +onlyGivenNames v5
  have h5 : Only fs s0 v5 := State.onDr_only h4 (inT rfl hsub)
  clear_value v5
  extract_lets +onlyGivenNames v6
  have h6 : ∀ t0 x1 x2 x3 x4, Only fs s0 t0 → Only fs s0 (v6 t0 x1 x2 x3 x4) := by
    unfold v6
    intro t7 x8 x9 x10 x11 h12
    exact only_ite h12 (State.offsetRange_only (State.setLv_only h12 (inT rfl hsub)) (inT rfl hsub))
  clear_value v6
  refine only_ite h2 ?_
  split
  · exact h6 _ _ _ _ _ h5
  · exact h6 _ _ _ _ _ (h6 _ _ _ _ _ h5)
  · exact h5

theorem State.judgeOffset_only {fs : List Part} {s0 : State} {s a k ch m} (h_s : Only fs s0 s) (hsub : In [.regs, .stage, .axes, .drives, .fbs, .mots, .legs, .lanes, .cans, .dos, .safety, .trace, .log, .chans, .timers] fs) :
    Only fs s0 (State.judgeOffset s a k ch m) := by
  unfold State.judgeOffset
  extract_lets +onlyGivenNames v0
  clear_value v0
  extract_lets +onlyGivenNames v1
  have h1 : Only fs s0 v1 := State.offsetRange_only h_s (inT rfl hsub)
  clear_value v1
  exact only_ite (State.onDr_only h1 (inT rfl hsub)) (State.raisePulse_only (State.pfault_only (State.event_only h1 (inT rfl hsub)) (inT rfl hsub)) (inT rfl hsub))

theorem execBurnisherOffsetUpdate_only {fs : List Part} {s0 : State} {axis s} (h_s : Only fs s0 s) (hsub : In [.regs, .stage, .axes, .drives, .fbs, .mots, .legs, .lanes, .cans, .dos, .safety, .trace, .log, .chans, .timers] fs) :
    OnlyN fs s0 (execBurnisherOffsetUpdate axis s) := by
  unfold execBurnisherOffsetUpdate
  extract_lets +onlyGivenNames v0
  clear_value v0
  split
  · extract_lets +onlyGivenNames v1
    clear_value v1
    extract_lets +onlyGivenNames v2
    have h2 : Only fs s0 v2 := State.onDr_only h_s (inT rfl hsub)
    clear_value v2
    exact onlyN_ite (onlyN_next h_s) (onlyN_next (only_ite (State.judgeOffset_only h2 hsub) h2))
  · exact onlyN_next h_s

theorem execSdOffsetRefresh_only {fs : List Part} {s0 : State} {axis s} (h_s : Only fs s0 s) (hsub : In [.regs, .time, .stage, .axes, .drives, .fbs, .mots, .legs, .lanes, .cans, .dos, .safety, .trace, .log, .chans, .timers] fs) :
    OnlyN fs s0 (execSdOffsetRefresh axis s) := by
  unfold execSdOffsetRefresh
  extract_lets +onlyGivenNames v0
  clear_value v0
  refine onlyN_next ?_
  refine State.expire_only h_s ?_ (inT rfl hsub)
  intro t3 h4
  split
  · extract_lets +onlyGivenNames v5
    clear_value v5
    extract_lets +onlyGivenNames v6
    have h6 : Only fs s0 v6 := State.startT_only (State.onDr_only h4 (inT rfl hsub)) (inT rfl hsub)
    clear_value v6
    exact only_ite h4 (only_ite h6 (State.judgeOffset_only (State.judgeOffset_only h6 (inT rfl hsub)) (inT rfl hsub)))
  · exact h4

theorem State.adcBoundary_only {fs : List Part} {s0 : State} {s} (h_s : Only fs s0 s) (hsub : In [.regs, .drives, .trace, .samples] fs) :
    Only fs s0 (State.adcBoundary s) := by
  unfold State.adcBoundary
  extract_lets +onlyGivenNames v0
  have h0 : Only fs s0 v0 := by
    unfold v0
    refine forN_only ?_ h_s
    intro x3 t4 h5
    extract_lets +onlyGivenNames v6
    clear_value v6
    extract_lets +onlyGivenNames v7
    have h7 : ∀ t0 x1 x2, Only fs s0 t0 → Only fs s0 (v7 t0 x1 x2) := by
      unfold v7
      intro t8 x9 x10 h11
      split
      · exact State.event_only (State.setLv_only h11 (inT rfl hsub)) (inT rfl hsub)
      · exact h11
    clear_value v7
    extract_lets +onlyGivenNames v12
    have h12 : Only fs s0 v12 := h7 _ _ _ (h7 _ _ _ h5)
    clear_value v12
    exact State.onDr_only h12 (inT rfl hsub)
  clear_value v0
  extract_lets +onlyGivenNames v13
  clear_value v13
  exact Only.upd h0 (inT (F := [.samples]) rfl hsub) (by intro f hf; cases f <;> first | rfl | simp at hf)

end Sys2Proof.Machine
end

