-- ==== Sys2Proof/Laws/OnlyRescue.lean ====
section
/-!
SUPPORT. What the operations of Machine/Rescue.lean may change: one lemma each, from any state reached.
-/
namespace Sys2Proof.Machine

open Sys2Proof.Safety

theorem State.setSeq_only {fs : List Part} {s0 : State} {s x} (h_s : Only fs s0 s) (hsub : In [.rescue] fs) :
    Only fs s0 (State.setSeq s x) := by
  unfold State.setSeq
  exact State.onRescue_only h_s hsub

theorem State.convStop_only {fs : List Part} {s0 : State} {s} (h_s : Only fs s0 s) (hsub : In [.legs, .rescue, .timers] fs) :
    Only fs s0 (State.convStop s) := by
  unfold State.convStop
  extract_lets +onlyGivenNames v0
  have h0 : Only fs s0 v0 := State.stopT_only (State.stopT_only h_s (inT rfl hsub)) (inT rfl hsub)
  clear_value v0
  extract_lets +onlyGivenNames v1
  have h1 : Only fs s0 v1 := State.onRescue_only h0 (inT rfl hsub)
  clear_value v1
  exact forL_only (fun _ _ h2 => State.legOff_only h2 (inT rfl hsub)) h1

theorem State.rescueQuiet_only {fs : List Part} {s0 : State} {s} (h_s : Only fs s0 s) (hsub : In [.timers] fs) :
    Only fs s0 (State.rescueQuiet s) := by
  unfold State.rescueQuiet
  exact forL_only (fun _ _ h0 => State.stopT_only h0 hsub) h_s

theorem State.askNormal_only {fs : List Part} {s0 : State} {s} (h_s : Only fs s0 s) (hsub : In [.sched] fs) :
    Only fs s0 (State.askNormal s) := by
  unfold State.askNormal
  exact State.onSched_only h_s hsub

theorem State.rescueAbort_only {fs : List Part} {s0 : State} {s reason} (h_s : Only fs s0 s) (hsub : In [.regs, .axes, .mots, .legs, .rescue, .safety, .trace, .log, .timers] fs) :
    Only fs s0 (State.rescueAbort s reason) := by
  unfold State.rescueAbort
  extract_lets +onlyGivenNames v0
  clear_value v0
  extract_lets +onlyGivenNames v1
  have h1 : Only fs s0 v1 := State.setSeq_only (State.sbcIssue_only (State.rescueQuiet_only h_s (inT rfl hsub)) (inT rfl hsub)) (inT rfl hsub)
  clear_value v1
  extract_lets +onlyGivenNames v2
  have h2 : Only fs s0 v2 := State.onLv_only h1 (inT rfl hsub)
  clear_value v2
  extract_lets +onlyGivenNames v3
  have h3 : Only fs s0 v3 := State.onLv_only h2 (inT rfl hsub)
  clear_value v3
  extract_lets +onlyGivenNames v4
  have h4 : Only fs s0 v4 := State.raise_only (State.pfault_only (State.event_only h3 (inT rfl hsub)) (inT rfl hsub)) (inT rfl hsub)
  clear_value v4
  extract_lets +onlyGivenNames v5
  have h5 : Only fs s0 v5 := State.onAx_only h4 (inT rfl hsub)
  clear_value v5
  exact only_ite h_s (only_ite h5 (State.pushReact_only (State.stoNow_only h5 (inT rfl hsub)) (inT rfl hsub)))

theorem State.rescueSettle_only {fs : List Part} {s0 : State} {s} (h_s : Only fs s0 s) (hsub : In [.rescue, .timers] fs) :
    Only fs s0 (State.rescueSettle s) := by
  unfold State.rescueSettle
  exact State.startT_only (State.setSeq_only h_s (inT rfl hsub)) (inT rfl hsub)

theorem State.rescueBegin_only {fs : List Part} {s0 : State} {s} (h_s : Only fs s0 s) (hsub : In [.regs, .axes, .mots, .rescue, .trace, .timers] fs) :
    Only fs s0 (State.rescueBegin s) := by
  unfold State.rescueBegin
  extract_lets +onlyGivenNames v0
  clear_value v0
  extract_lets +onlyGivenNames v1
  have h1 : Only fs s0 v1 := State.onRescue_only h_s (inT rfl hsub)
  clear_value v1
  extract_lets +onlyGivenNames v2
  have h2 : Only fs s0 v2 := State.event_only (State.onLv_only h1 (inT rfl hsub)) (inT rfl hsub)
  clear_value v2
  extract_lets +onlyGivenNames v3
  have h3 : Only fs s0 v3 := State.onMt_only h2 (inT rfl hsub)
  clear_value v3
  extract_lets +onlyGivenNames v4
  have h4 : Only fs s0 v4 := only_ite (State.onAx_only (State.sbcIssue_only h3 (inT rfl hsub)) (inT rfl hsub)) h3
  clear_value v4
  exact only_ite (State.onAx_only h3 (inT rfl hsub)) (only_ite h3 (State.rescueSettle_only h4 (inT rfl hsub)))

theorem State.rescueStartBy_only {fs : List Part} {s0 : State} {s m} (h_s : Only fs s0 s) (hsub : In [.regs, .host, .mgr, .axes, .mots, .rescue, .trace, .log, .timers] fs) :
    Only fs s0 (State.rescueStartBy s m) := by
  unfold State.rescueStartBy
  exact only_ite (State.rescueBegin_only h_s (inT rfl hsub)) (State.refuseBy_only h_s (inT rfl hsub))

theorem execRescueStart_only {fs : List Part} {s0 : State} {s} (h_s : Only fs s0 s) (hsub : In [.regs, .host, .mgr, .axes, .mots, .rescue, .trace, .log, .timers] fs) :
    OnlyN fs s0 (execRescueStart s) := by
  unfold execRescueStart
  exact onlyN_ite (onlyN_next (State.rescueStartBy_only (State.touch_only h_s (inT rfl hsub)) hsub)) (onlyN_next h_s)

theorem execMainsLossQualified_only {fs : List Part} {s0 : State} {s} (h_s : Only fs s0 s) (hsub : In [.regs, .time, .rescue, .trace, .timers, .sched] fs) :
    OnlyN fs s0 (execMainsLossQualified s) := by
  unfold execMainsLossQualified
  refine onlyN_next ?_
  refine State.expire_only h_s ?_ (inT rfl hsub)
  intro t2 h3
  extract_lets +onlyGivenNames v4
  have h4 : Only fs s0 v4 := State.onRescue_only h3 (inT rfl hsub)
  clear_value v4
  exact only_ite h3 (State.event_only (State.onSched_only h4 (inT rfl hsub)) (inT rfl hsub))

theorem execMainsReturnQualified_only {fs : List Part} {s0 : State} {s} (h_s : Only fs s0 s) (hsub : In [.regs, .time, .rescue, .trace, .timers, .sched] fs) :
    OnlyN fs s0 (execMainsReturnQualified s) := by
  unfold execMainsReturnQualified
  refine onlyN_next ?_
  refine State.expire_only h_s ?_ (inT rfl hsub)
  intro t2 h3
  extract_lets +onlyGivenNames v4
  have h4 : Only fs s0 v4 := State.event_only (State.onRescue_only h3 (inT rfl hsub)) (inT rfl hsub)
  clear_value v4
  refine only_ite h3 ?_
  split
  · exact State.askNormal_only (State.setSeq_only h4 (inT rfl hsub)) (inT rfl hsub)
  · exact State.askNormal_only (State.setSeq_only (State.stopT_only h4 (inT rfl hsub)) (inT rfl hsub)) (inT rfl hsub)
  · exact State.askNormal_only h4 (inT rfl hsub)
  · exact State.askNormal_only h4 (inT rfl hsub)
  · exact h4

theorem execRescueBrakeHoldExpiry_only {fs : List Part} {s0 : State} {s} (h_s : Only fs s0 s) (hsub : In [.regs, .time, .axes, .mots, .legs, .rescue, .trace, .timers] fs) :
    OnlyN fs s0 (execRescueBrakeHoldExpiry s) := by
  unfold execRescueBrakeHoldExpiry
  refine onlyN_next ?_
  refine State.expire_only h_s ?_ (inT rfl hsub)
  intro t2 h3
  extract_lets +onlyGivenNames v4
  clear_value v4
  extract_lets +onlyGivenNames v5
  have h5 : Only fs s0 v5 := State.leaveMotion_only h3 (inT rfl hsub)
  clear_value v5
  split
  · exact State.rescueSettle_only h5 (inT rfl hsub)
  · extract_lets +onlyGivenNames v6
    have h6 : Only fs s0 v6 := State.event_only (State.setSeq_only (State.convStop_only h5 (inT rfl hsub)) (inT rfl hsub)) (inT rfl hsub)
    clear_value v6
    exact State.onLv_only h6 (inT rfl hsub)
  · exact h5

theorem execRescueSettleExpiry_only {fs : List Part} {s0 : State} {s} (h_s : Only fs s0 s) (hsub : In [.time, .rescue, .timers] fs) :
    OnlyN fs s0 (execRescueSettleExpiry s) := by
  unfold execRescueSettleExpiry
  refine onlyN_next ?_
  refine State.expire_only h_s ?_ (inT rfl hsub)
  intro t2 h3
  extract_lets +onlyGivenNames v4
  have h4 : Only fs s0 v4 := State.onRescue_only (State.setSeq_only h3 (inT rfl hsub)) (inT rfl hsub)
  clear_value v4
  exact only_ite h3 (State.startT_only h4 (inT rfl hsub))

theorem execConverterReady_only {fs : List Part} {s0 : State} {s} (h_s : Only fs s0 s) (hsub : In [.time, .axes, .rescue, .timers] fs) :
    OnlyN fs s0 (execConverterReady s) := by
  unfold execConverterReady
  refine onlyN_next ?_
  refine State.expire_only h_s ?_ (inT rfl hsub)
  intro t2 h3
  extract_lets +onlyGivenNames v4
  clear_value v4
  exact only_ite h3 (State.onAx_only (State.setSeq_only (State.stopT_only h3 (inT rfl hsub)) (inT rfl hsub)) (inT rfl hsub))

theorem execConverterTimeout_only {fs : List Part} {s0 : State} {s} (h_s : Only fs s0 s) (hsub : In [.regs, .time, .axes, .mots, .legs, .rescue, .safety, .trace, .log, .timers] fs) :
    OnlyN fs s0 (execConverterTimeout s) := by
  unfold execConverterTimeout
  exact onlyN_next (State.expire_only h_s (fun _ h0 => only_ite (State.rescueAbort_only h0 (inT rfl hsub)) h0) (inT rfl hsub))

theorem execRescueBrakeLiftExpiry_only {fs : List Part} {s0 : State} {s} (h_s : Only fs s0 s) (hsub : In [.time, .rescue, .timers] fs) :
    OnlyN fs s0 (execRescueBrakeLiftExpiry s) := by
  unfold execRescueBrakeLiftExpiry
  exact onlyN_next (State.expire_only h_s (fun _ h0 => only_ite h0 (State.startT_only (State.onRescue_only h0 (inT rfl hsub)) (inT rfl hsub))) (inT rfl hsub))

theorem State.rescueLand_only {fs : List Part} {s0 : State} {s} (h_s : Only fs s0 s) (hsub : In [.axes, .rescue, .timers] fs) :
    Only fs s0 (State.rescueLand s) := by
  unfold State.rescueLand
  exact State.startT_only (State.sbcIssue_only (State.setSeq_only (State.stopT_only h_s (inT rfl hsub)) (inT rfl hsub)) (inT rfl hsub)) (inT rfl hsub)

theorem State.rescueTravel_only {fs : List Part} {s0 : State} {s up} (h_s : Only fs s0 s) (hsub : In [.regs, .axes, .mots, .rescue, .timers] fs) :
    Only fs s0 (State.rescueTravel s up) := by
  unfold State.rescueTravel
  extract_lets +onlyGivenNames v0
  clear_value v0
  extract_lets +onlyGivenNames v1
  clear_value v1
  extract_lets +onlyGivenNames v2
  clear_value v2
  extract_lets +onlyGivenNames v3
  clear_value v3
  extract_lets +onlyGivenNames v4
  have h4 : ∀ t0 x1, Only fs s0 t0 → Only fs s0 (v4 t0 x1) := by
    unfold v4
    intro t5 x6 h7
    exact State.onLv_only h7 (inT rfl hsub)
  clear_value v4
  split
  · exact State.rescueLand_only (State.onRescue_only (h4 _ _ h_s) (inT rfl hsub)) (inT rfl hsub)
  · extract_lets +onlyGivenNames v8
    clear_value v8
    split
    · exact h_s
    · extract_lets +onlyGivenNames v9
      have h9 : Only fs s0 v9 := State.onRescue_only (h4 _ _ h_s) (inT rfl hsub)
      clear_value v9
      extract_lets +onlyGivenNames v10
      clear_value v10
      extract_lets +onlyGivenNames v11
      have h11 : Only fs s0 v11 := State.setPair_only h9 (inT rfl hsub)
      clear_value v11
      extract_lets +onlyGivenNames v12
      have h12 : Only fs s0 v12 := State.setLv_only (State.setLv_only (State.setLv_only h11 (inT rfl hsub)) (inT rfl hsub)) (inT rfl hsub)
      clear_value v12
      extract_lets +onlyGivenNames v13
      have h13 : Only fs s0 v13 := State.onMt_only (State.setLv_only h12 (inT rfl hsub)) (inT rfl hsub)
      clear_value v13
      exact State.startT_only h13 (inT rfl hsub)

theorem execRescueTestDone_only {fs : List Part} {s0 : State} {s} (h_s : Only fs s0 s) (hsub : In [.regs, .time, .axes, .mots, .rescue, .timers] fs) :
    OnlyN fs s0 (execRescueTestDone s) := by
  unfold execRescueTestDone
  refine onlyN_next ?_
  refine State.expire_only h_s ?_ (inT rfl hsub)
  intro t2 h3
  extract_lets +onlyGivenNames v4
  clear_value v4
  extract_lets +onlyGivenNames v5
  clear_value v5
  extract_lets +onlyGivenNames v6
  clear_value v6
  extract_lets +onlyGivenNames v7
  have h7 : Only fs s0 v7 := State.onLv_only (State.setLv_only h3 (inT rfl hsub)) (inT rfl hsub)
  clear_value v7
  exact only_ite h3 (State.rescueTravel_only (State.onRescue_only h7 (inT rfl hsub)) (inT rfl hsub))

theorem execRescueTravelTimeout_only {fs : List Part} {s0 : State} {s} (h_s : Only fs s0 s) (hsub : In [.regs, .time, .axes, .mots, .legs, .rescue, .safety, .trace, .log, .timers] fs) :
    OnlyN fs s0 (execRescueTravelTimeout s) := by
  unfold execRescueTravelTimeout
  exact onlyN_next (State.expire_only h_s (fun _ h0 => only_ite (State.rescueAbort_only h0 (inT rfl hsub)) h0) (inT rfl hsub))

theorem State.enterRun_only {fs : List Part} {s0 : State} {s a} (h_s : Only fs s0 s) (hsub : In [.axes, .drives, .rescue, .timers] fs) :
    Only fs s0 (State.enterRun s a) := by
  unfold State.enterRun
  extract_lets +onlyGivenNames v0
  have h0 : Only fs s0 v0 := State.startSwitching_only (State.onAx_only h_s (inT rfl hsub)) (inT rfl hsub)
  clear_value v0
  extract_lets +onlyGivenNames v1
  have h1 : Only fs s0 v1 := State.onRescue_only (State.brakeOff_only h0 (inT rfl hsub)) (inT rfl hsub)
  clear_value v1
  exact only_ite (State.startT_only h1 (inT rfl hsub)) (only_ite (State.brakeOff_only h0 (inT rfl hsub)) (State.startT_only h0 (inT rfl hsub)))

theorem State.runBoundary_only {fs : List Part} {s0 : State} {s a} (h_s : Only fs s0 s) (hsub : In [.regs, .axes, .drives, .mots, .legs, .rescue, .safety, .trace, .log, .timers] fs) :
    Only fs s0 (State.runBoundary s a) := by
  unfold State.runBoundary
  exact only_ite h_s (only_ite (only_ite (State.enterRun_only h_s (inT rfl hsub)) (State.rescueAbort_only h_s (inT rfl hsub))) (only_ite (State.enterRun_only h_s (inT rfl hsub)) (State.onAx_only h_s (inT rfl hsub))))

theorem State.runConverter_only {fs : List Part} {s0 : State} {s} (h_s : Only fs s0 s) (hsub : In [.regs, .axes, .mots, .legs, .rescue, .safety, .trace, .log, .timers] fs) :
    Only fs s0 (State.runConverter s) := by
  unfold State.runConverter
  extract_lets +onlyGivenNames v0
  clear_value v0
  extract_lets +onlyGivenNames v1
  clear_value v1
  extract_lets +onlyGivenNames v2
  clear_value v2
  extract_lets +onlyGivenNames v3
  clear_value v3
  extract_lets +onlyGivenNames v4
  clear_value v4
  refine only_ite h_s ?_
  split
  · extract_lets +onlyGivenNames v5
    clear_value v5
    extract_lets +onlyGivenNames v6
    clear_value v6
    extract_lets +onlyGivenNames v7
    clear_value v7
    split
    · extract_lets +onlyGivenNames v8
      clear_value v8
      extract_lets +onlyGivenNames v9
      clear_value v9
      split
      · extract_lets +onlyGivenNames v10
        have h10 : Only fs s0 v10 := State.onRescue_only h_s (inT rfl hsub)
        clear_value v10
        extract_lets +onlyGivenNames v11
        have h11 : Only fs s0 v11 := State.setLv_only (State.setLv_only h10 (inT rfl hsub)) (inT rfl hsub)
        clear_value v11
        extract_lets +onlyGivenNames v12
        clear_value v12
        extract_lets +onlyGivenNames v13
        have h13 : Only fs s0 v13 := only_ite (only_ite (only_ite h11 (State.startT_only h11 (inT rfl hsub))) (State.stopT_only h11 (inT rfl hsub))) h11
        clear_value v13
        exact only_ite (State.rescueAbort_only h13 hsub) h13

theorem State.mainsBoundary_only {fs : List Part} {s0 : State} {s} (h_s : Only fs s0 s) (hsub : In [.rescue, .timers] fs) :
    Only fs s0 (State.mainsBoundary s) := by
  unfold State.mainsBoundary
  extract_lets +onlyGivenNames v0
  clear_value v0
  extract_lets +onlyGivenNames v1
  clear_value v1
  extract_lets +onlyGivenNames v2
  clear_value v2
  extract_lets +onlyGivenNames v3
  clear_value v3
  extract_lets +onlyGivenNames v4
  clear_value v4
  extract_lets +onlyGivenNames v5
  clear_value v5
  extract_lets +onlyGivenNames v6
  have h6 : Only fs s0 v6 := State.onRescue_only h_s (inT rfl hsub)
  clear_value v6
  extract_lets +onlyGivenNames v7
  clear_value v7
  extract_lets +onlyGivenNames v8
  clear_value v8
  extract_lets +onlyGivenNames v9
  have h9 : Only fs s0 v9 := by
    unfold v9
    split
    · exact only_ite h6 (State.startT_only h6 (inT rfl hsub))
    · exact State.stopT_only h6 (inT rfl hsub)
  clear_value v9
  refine only_ite h_s ?_
  split
  · exact only_ite h9 (State.startT_only h9 (inT rfl hsub))
  · exact State.stopT_only h9 (inT rfl hsub)

theorem State.rescueBoundary_only {fs : List Part} {s0 : State} {s} (h_s : Only fs s0 s) (hsub : In [.regs, .axes, .mots, .legs, .rescue, .safety, .trace, .log, .timers] fs) :
    Only fs s0 (State.rescueBoundary s) := by
  unfold State.rescueBoundary
  extract_lets +onlyGivenNames v0
  clear_value v0
  extract_lets +onlyGivenNames v1
  clear_value v1
  extract_lets +onlyGivenNames v2
  have h2 : Only fs s0 v2 := only_ite (State.convStop_only h_s (inT rfl hsub)) h_s
  clear_value v2
  extract_lets +onlyGivenNames v3
  clear_value v3
  refine only_ite h2 ?_
  refine only_ite (State.rescueAbort_only h2 hsub) ?_
  refine only_ite (State.rescueAbort_only h2 hsub) ?_
  split
  · exact only_ite (State.rescueSettle_only h2 (inT rfl hsub)) h2
  · exact only_ite (State.rescueAbort_only h2 hsub) (only_ite (State.rescueAbort_only h2 hsub) (only_ite (State.onRescue_only h2 (inT rfl hsub)) h2))
  · exact only_ite (State.rescueAbort_only h2 hsub) (only_ite (State.rescueLand_only h2 (inT rfl hsub)) h2)
  · exact h2

theorem State.fbLostAxis_only {fs : List Part} {s0 : State} {s a} (h_s : Only fs s0 s) (hsub : In [.regs, .axes, .mots, .legs, .rescue, .safety, .trace, .log, .timers] fs) :
    Only fs s0 (State.fbLostAxis s a) := by
  unfold State.fbLostAxis
  extract_lets +onlyGivenNames v0
  clear_value v0
  extract_lets +onlyGivenNames v1
  clear_value v1
  extract_lets +onlyGivenNames v2
  have h2 : Only fs s0 v2 := State.noteSrc_only h_s (inT rfl hsub)
  clear_value v2
  extract_lets +onlyGivenNames v3
  have h3 : Only fs s0 v3 := State.raise_only h_s (inT rfl hsub)
  clear_value v3
  exact only_ite h_s (only_ite (only_ite (State.onAx_only h2 (inT rfl hsub)) (State.applyReact_only h2 (inT rfl hsub))) (only_ite (State.rescueAbort_only h3 hsub) h3))

theorem execFbLost_only {fs : List Part} {s0 : State} {fb s} (h_s : Only fs s0 s) (hsub : In [.regs, .axes, .fbs, .mots, .legs, .rescue, .safety, .trace, .log, .timers] fs) :
    OnlyN fs s0 (execFbLost fb s) := by
  unfold execFbLost
  extract_lets +onlyGivenNames v0
  clear_value v0
  extract_lets +onlyGivenNames v1
  have h1 : Only fs s0 v1 := State.onFb_only h_s (inT rfl hsub)
  clear_value v1
  exact onlyN_ite (onlyN_next h_s) (onlyN_next (State.masterLost_only (forL_only (fun _ _ h2 => State.fbLostAxis_only h2 (inT rfl hsub)) h1) (inT rfl hsub)))

end Sys2Proof.Machine
end

