-- ==== Sys2Proof/Laws/OnlyGate.lean ====
section
/-!
SUPPORT. What the operations of Machine/Gate.lean may change: one lemma each, from any state reached.
-/
namespace Sys2Proof.Machine

open Sys2Proof.Safety

theorem State.incHalf_only {fs : List Part} {s0 : State} {s p o upper} (h_s : Only fs s0 s) (hsub : In [.regs] fs) :
    Only fs s0 (State.incHalf s p o upper) := by
  unfold State.incHalf
  exact State.onLv_only h_s hsub

theorem State.downFail_only {fs : List Part} {s0 : State} {s} (h_s : Only fs s0 s) (hsub : In [.regs, .legs, .pdie, .trace] fs) :
    Only fs s0 (State.downFail s) := by
  unfold State.downFail
  extract_lets +onlyGivenNames v0
  have h0 : Only fs s0 v0 := forN_only (fun _ _ h1 => only_ite h1 (State.onLg_only h1 (inT rfl hsub))) h_s
  clear_value v0
  exact State.onPdie_only (State.event_only (State.incHalf_only h0 (inT rfl hsub)) (inT rfl hsub)) (inT rfl hsub)

theorem State.upFail_only {fs : List Part} {s0 : State} {s} (h_s : Only fs s0 s) (hsub : In [.regs, .pdie, .trace] fs) :
    Only fs s0 (State.upFail s) := by
  unfold State.upFail
  exact State.onPdie_only (State.event_only (State.incHalf_only h_s (inT rfl hsub)) (inT rfl hsub)) (inT rfl hsub)

theorem State.down_only {fs : List Part} {s0 : State} {s f ty run} (h_s : Only fs s0 s) (h_run : ∀ t0, Only fs s0 t0 → Only fs s0 (run t0)) (hsub : In [.regs, .legs, .pdie, .trace] fs) :
    OnlyN fs s0 (State.down s f ty run) := by
  unfold State.down
  exact onlyN_ite (onlyN_next h_s) (onlyN_ite (onlyN_next (State.downFail_only h_s hsub)) (onlyN_next (h_run _ (State.onPdie_only h_s (inT rfl hsub)))))

theorem State.uplink_only {fs : List Part} {s0 : State} {s f ty run} (h_s : Only fs s0 s) (h_run : ∀ t0, Only fs s0 t0 → Only fs s0 (run t0)) (hsub : In [.regs, .pdie, .trace] fs) :
    OnlyN fs s0 (State.uplink s f ty run) := by
  unfold State.uplink
  exact onlyN_ite (onlyN_next h_s) (onlyN_ite (onlyN_next (State.upFail_only h_s hsub)) (onlyN_next (h_run _ (State.onPdie_only h_s (inT rfl hsub)))))

theorem execPlinkSync_only {fs : List Part} {s0 : State} {frame s} (h_s : Only fs s0 s) (hsub : In [.regs, .legs, .pdie, .trace] fs) :
    OnlyN fs s0 (execPlinkSync frame s) := by
  unfold execPlinkSync
  exact State.down_only h_s (fun _ h0 => State.onPdie_only h0 (inT rfl hsub)) hsub

theorem execPlinkSet_only {fs : List Part} {s0 : State} {frame s} (h_s : Only fs s0 s) (hsub : In [.regs, .legs, .pdie, .trace] fs) :
    OnlyN fs s0 (execPlinkSet frame s) := by
  unfold execPlinkSet
  exact State.down_only h_s (fun _ h0 => State.onPdie_only h0 (inT rfl hsub)) hsub

theorem execPlinkEdge_only {fs : List Part} {s0 : State} {frame s} (h_s : Only fs s0 s) (hsub : In [.regs, .legs, .pdie, .trace] fs) :
    OnlyN fs s0 (execPlinkEdge frame s) := by
  unfold execPlinkEdge
  refine State.down_only h_s ?_ hsub
  intro t1 h2
  extract_lets +onlyGivenNames v3
  clear_value v3
  extract_lets +onlyGivenNames v4
  clear_value v4
  exact only_ite h2 (only_ite (State.event_only (State.onLg_only h2 (inT rfl hsub)) (inT rfl hsub)) (State.onLg_only h2 (inT rfl hsub)))

theorem execPlinkIdle_only {fs : List Part} {s0 : State} {frame up s} (h_s : Only fs s0 s) (hsub : In [.regs, .legs, .pdie, .trace] fs) :
    OnlyN fs s0 (execPlinkIdle frame up s) := by
  unfold execPlinkIdle
  exact onlyN_ite (State.uplink_only h_s (fun _ h0 => h0) (inT rfl hsub)) (State.down_only h_s (fun _ h1 => h1) hsub)

theorem execEcho_only {fs : List Part} {s0 : State} {frame s} (h_s : Only fs s0 s) (hsub : In [.regs, .pdie, .trace] fs) :
    OnlyN fs s0 (execEcho frame s) := by
  unfold execEcho
  exact State.uplink_only h_s (fun _ h0 => h0) hsub

theorem execEdgeExecute_only {fs : List Part} {s0 : State} {leg s} (h_s : Only fs s0 s) (hsub : In [.time, .legs, .chans] fs) :
    OnlyN fs s0 (execEdgeExecute leg s) := by
  unfold execEdgeExecute
  extract_lets +onlyGivenNames v0
  clear_value v0
  split
  · exact onlyN_next h_s
  · extract_lets +onlyGivenNames v1
    have h1 : Only fs s0 v1 := State.onLg_only (State.reach_only h_s (inT rfl hsub)) (inT rfl hsub)
    clear_value v1
    extract_lets +onlyGivenNames v2
    clear_value v2
    extract_lets +onlyGivenNames v3
    have h3 : Only fs s0 v3 := only_ite (State.onLg_only h1 (inT rfl hsub)) h1
    clear_value v3
    exact onlyN_ite (onlyN_next h_s) (onlyN_next (State.legEdge_only h3 (inT rfl hsub)))

theorem State.bsuvOn_only {fs : List Part} {s0 : State} {s l} (h_s : Only fs s0 s) (hsub : In [.regs, .legs, .trace] fs) :
    Only fs s0 (State.bsuvOn s l) := by
  unfold State.bsuvOn
  refine only_ite h_s ?_
  split
  · extract_lets +onlyGivenNames v0
    have h0 : Only fs s0 v0 := State.onLg_only h_s (inT rfl hsub)
    clear_value v0
    exact State.event_only (State.incHalf_only h0 (inT rfl hsub)) (inT rfl hsub)

theorem execBsuv_only {fs : List Part} {s0 : State} {leg s} (h_s : Only fs s0 s) (hsub : In [.regs, .legs, .trace] fs) :
    OnlyN fs s0 (execBsuv leg s) := by
  unfold execBsuv
  exact onlyN_ite (onlyN_next (State.bsuvOn_only h_s hsub)) (onlyN_next h_s)

theorem execLegstat_only {fs : List Part} {s0 : State} {frame s} (h_s : Only fs s0 s) (hsub : In [.regs, .legs, .pdie, .trace] fs) :
    OnlyN fs s0 (execLegstat frame s) := by
  unfold execLegstat
  refine State.uplink_only h_s ?_ (inT rfl hsub)
  intro t1 h2
  extract_lets +onlyGivenNames v3
  clear_value v3
  extract_lets +onlyGivenNames v4
  have h4 : Only fs s0 v4 := State.onLg_only h2 (inT rfl hsub)
  clear_value v4
  exact only_ite h2 (only_ite (State.bsuvOn_only h4 (inT rfl hsub)) (State.onLg_only h4 (inT rfl hsub)))

theorem execVdsBlankEnd_only {fs : List Part} {s0 : State} {leg high s} (h_s : Only fs s0 s) (hsub : In [.time, .legs] fs) :
    OnlyN fs s0 (execVdsBlankEnd leg high s) := by
  unfold execVdsBlankEnd
  extract_lets +onlyGivenNames v0
  clear_value v0
  extract_lets +onlyGivenNames v1
  clear_value v1
  split
  · extract_lets +onlyGivenNames v2
    have h2 : Only fs s0 v2 := State.reach_only h_s (inT rfl hsub)
    clear_value v2
    exact onlyN_ite (onlyN_next h_s) (onlyN_next (State.onLg_only h2 (inT rfl hsub)))

theorem execVdsTrip_only {fs : List Part} {s0 : State} {leg high s} (h_s : Only fs s0 s) (hsub : In [.regs, .stage, .axes, .fbs, .mots, .legs, .lanes, .cans, .dos, .safety, .trace, .log, .chans, .timers] fs) :
    OnlyN fs s0 (execVdsTrip leg high s) := by
  unfold execVdsTrip
  extract_lets +onlyGivenNames v0
  clear_value v0
  extract_lets +onlyGivenNames v1
  clear_value v1
  refine onlyN_ite (onlyN_next h_s) ?_
  split
  · extract_lets +onlyGivenNames v2
    have h2 : Only fs s0 v2 := State.onLg_only h_s (inT rfl hsub)
    clear_value v2
    extract_lets +onlyGivenNames v3
    have h3 : Only fs s0 v3 := State.incHalf_only (State.pfault_only (State.event_only h2 (inT rfl hsub)) (inT rfl hsub)) (inT rfl hsub)
    clear_value v3
    extract_lets +onlyGivenNames v4
    clear_value v4
    exact onlyN_next (State.onset_only (State.clearSrc_only (State.raiseNow_only h3 (inT rfl hsub)) (inT rfl hsub)) hsub)

theorem State.internalOff_only {fs : List Part} {s0 : State} {s} (h_s : Only fs s0 s) (hsub : In [.legs] fs) :
    Only fs s0 (State.internalOff s) := by
  unfold State.internalOff
  exact forN_only (fun _ _ h0 => State.legOff_only h0 hsub) h_s

theorem execPlinkLost_only {fs : List Part} {s0 : State} {s} (h_s : Only fs s0 s) (hsub : In [.regs, .time, .axes, .mots, .legs, .pdie, .safety, .trace, .log, .timers] fs) :
    OnlyN fs s0 (execPlinkLost s) := by
  unfold execPlinkLost
  extract_lets +onlyGivenNames v0
  have h0 : Only fs s0 v0 := State.onTime_only (State.internalOff_only h_s (inT rfl hsub)) (inT rfl hsub)
  clear_value v0
  extract_lets +onlyGivenNames v1
  have h1 : Only fs s0 v1 := forN_only (fun _ _ h2 => State.onLg_only h2 (inT rfl hsub)) h0
  clear_value v1
  extract_lets +onlyGivenNames v3
  have h3 : Only fs s0 v3 := State.event_only (State.onPdie_only h1 (inT rfl hsub)) (inT rfl hsub)
  clear_value v3
  exact onlyN_ite (onlyN_next h_s) (onlyN_next (State.raiseNow_only (State.pfault_only h3 (inT rfl hsub)) (inT rfl hsub)))

theorem execPlinkLinkUp_only {fs : List Part} {s0 : State} {delay s} (h_s : Only fs s0 s) (hsub : In [.regs, .time, .pdie, .safety, .trace] fs) :
    OnlyN fs s0 (execPlinkLinkUp delay s) := by
  unfold execPlinkLinkUp
  extract_lets +onlyGivenNames v0
  have h0 : Only fs s0 v0 := State.onPdie_only (State.onTime_only h_s (inT rfl hsub)) (inT rfl hsub)
  clear_value v0
  exact onlyN_ite (onlyN_next h_s) (onlyN_next (State.clearSrc_only (State.event_only h0 (inT rfl hsub)) (inT rfl hsub)))

theorem State.cpuvSet_only {fs : List Part} {s0 : State} {s on} (h_s : Only fs s0 s) (hsub : In [.regs, .axes, .legs, .pdie, .safety, .trace, .log] fs) :
    Only fs s0 (State.cpuvSet s on) := by
  unfold State.cpuvSet
  extract_lets +onlyGivenNames v0
  have h0 : Only fs s0 v0 := State.event_only (State.onPdie_only h_s (inT rfl hsub)) (inT rfl hsub)
  clear_value v0
  extract_lets +onlyGivenNames v1
  have h1 : Only fs s0 v1 := forN_only (fun _ _ h2 => only_ite (State.onLg_only h2 (inT rfl hsub)) h2) h0
  clear_value v1
  exact only_ite h_s (only_ite (State.raise_only h1 (inT rfl hsub)) (State.clearSrc_only (State.onPdie_only h_s (inT rfl hsub)) (inT rfl hsub)))

theorem State.vgdSet_only {fs : List Part} {s0 : State} {s on} (h_s : Only fs s0 s) (hsub : In [.regs, .axes, .mots, .legs, .pdie, .safety, .trace, .log, .timers] fs) :
    Only fs s0 (State.vgdSet s on) := by
  unfold State.vgdSet
  exact only_ite h_s (only_ite (State.raiseNow_only (State.pfault_only (State.event_only (State.internalOff_only (State.onPdie_only h_s (inT rfl hsub)) (inT rfl hsub)) (inT rfl hsub)) (inT rfl hsub)) (inT rfl hsub)) (State.clearSrc_only (State.onPdie_only h_s (inT rfl hsub)) (inT rfl hsub)))

theorem State.vinSet_only {fs : List Part} {s0 : State} {s on} (h_s : Only fs s0 s) (hsub : In [.regs, .axes, .mots, .legs, .pdie, .safety, .trace, .log, .timers] fs) :
    Only fs s0 (State.vinSet s on) := by
  unfold State.vinSet
  exact only_ite h_s (only_ite (State.raiseNow_only (State.pfault_only (State.event_only (State.internalOff_only (State.onPdie_only h_s (inT rfl hsub)) (inT rfl hsub)) (inT rfl hsub)) (inT rfl hsub)) (inT rfl hsub)) (State.clearSrc_only (State.onPdie_only h_s (inT rfl hsub)) (inT rfl hsub)))

theorem execCpuv_only {fs : List Part} {s0 : State} {s} (h_s : Only fs s0 s) (hsub : In [.regs, .axes, .legs, .pdie, .safety, .trace, .log] fs) :
    OnlyN fs s0 (execCpuv s) := by
  unfold execCpuv
  exact onlyN_ite (onlyN_next (State.cpuvSet_only h_s hsub)) (onlyN_next h_s)

theorem execCpuvRelease_only {fs : List Part} {s0 : State} {s} (h_s : Only fs s0 s) (hsub : In [.regs, .axes, .legs, .pdie, .safety, .trace, .log] fs) :
    OnlyN fs s0 (execCpuvRelease s) := by
  unfold execCpuvRelease
  exact onlyN_ite (onlyN_next (State.cpuvSet_only h_s hsub)) (onlyN_next h_s)

theorem execVgdUv_only {fs : List Part} {s0 : State} {s} (h_s : Only fs s0 s) (hsub : In [.regs, .axes, .mots, .legs, .pdie, .safety, .trace, .log, .timers] fs) :
    OnlyN fs s0 (execVgdUv s) := by
  unfold execVgdUv
  exact onlyN_ite (onlyN_next (State.vgdSet_only h_s hsub)) (onlyN_next h_s)

theorem execVgdRelease_only {fs : List Part} {s0 : State} {s} (h_s : Only fs s0 s) (hsub : In [.regs, .axes, .mots, .legs, .pdie, .safety, .trace, .log, .timers] fs) :
    OnlyN fs s0 (execVgdRelease s) := by
  unfold execVgdRelease
  exact onlyN_ite (onlyN_next (State.vgdSet_only h_s hsub)) (onlyN_next h_s)

theorem execVinOv_only {fs : List Part} {s0 : State} {s} (h_s : Only fs s0 s) (hsub : In [.regs, .axes, .mots, .legs, .pdie, .safety, .trace, .log, .timers] fs) :
    OnlyN fs s0 (execVinOv s) := by
  unfold execVinOv
  exact onlyN_ite (onlyN_next (State.vinSet_only h_s hsub)) (onlyN_next h_s)

theorem execVinOvRelease_only {fs : List Part} {s0 : State} {s} (h_s : Only fs s0 s) (hsub : In [.regs, .axes, .mots, .legs, .pdie, .safety, .trace, .log, .timers] fs) :
    OnlyN fs s0 (execVinOvRelease s) := by
  unfold execVinOvRelease
  exact onlyN_ite (onlyN_next (State.vinSet_only h_s hsub)) (onlyN_next h_s)

theorem State.dclChange_only {fs : List Part} {s0 : State} {s n on} (h_s : Only fs s0 s) (hsub : In [.regs, .legs, .pdie, .trace, .chans] fs) :
    Only fs s0 (State.dclChange s n on) := by
  unfold State.dclChange
  extract_lets +onlyGivenNames v0
  have h0 : Only fs s0 v0 := State.onPdie_only h_s (inT rfl hsub)
  clear_value v0
  extract_lets +onlyGivenNames v1
  have h1 : Only fs s0 v1 := State.event_only h0 (inT rfl hsub)
  clear_value v1
  refine only_ite h_s ?_
  split
  · exact h1
  · exact only_ite (State.turnOn_only (State.onLg_only h1 (inT rfl hsub)) (inT rfl hsub)) h1

theorem execDclComparatorChange_only {fs : List Part} {s0 : State} {n set s} (h_s : Only fs s0 s) (hsub : In [.regs, .legs, .pdie, .trace, .chans] fs) :
    OnlyN fs s0 (execDclComparatorChange n set s) := by
  unfold execDclComparatorChange
  exact onlyN_ite (onlyN_next (State.dclChange_only h_s hsub)) (onlyN_next h_s)

theorem execDcl_only {fs : List Part} {s0 : State} {frame s} (h_s : Only fs s0 s) (hsub : In [.regs, .axes, .mots, .legs, .pdie, .safety, .trace, .log, .chans, .timers] fs) :
    OnlyN fs s0 (execDcl frame s) := by
  unfold execDcl
  refine State.uplink_only h_s ?_ (inT rfl hsub)
  intro t1 h2
  extract_lets +onlyGivenNames v3
  have h3 : Only fs s0 v3 := forN_only (fun _ _ h4 => State.dclChange_only h4 (inT rfl hsub)) h2
  clear_value v3
  extract_lets +onlyGivenNames v5
  have h5 : Only fs s0 v5 := State.cpuvSet_only (State.vgdSet_only (State.vinSet_only h3 (inT rfl hsub)) (inT rfl hsub)) (inT rfl hsub)
  clear_value v5
  exact State.setLv_only h5 (inT rfl hsub)

theorem execPlinkHk_only {fs : List Part} {s0 : State} {frame s} (h_s : Only fs s0 s) (hsub : In [.regs, .pdie, .trace, .hk] fs) :
    OnlyN fs s0 (execPlinkHk frame s) := by
  unfold execPlinkHk
  exact State.uplink_only h_s (fun _ h0 => State.onHk_only h0 (inT rfl hsub)) (inT rfl hsub)

theorem State.chopUdc_only {fs : List Part} {s0 : State} {s} (h_s : Only fs s0 s) (hsub : In [.free] fs) :
    Only2 fs s0 (State.chopUdc s) := by
  unfold State.chopUdc
  extract_lets +onlyGivenNames v0
  clear_value v0
  refine only2_ite (only2_mk h_s) ?_
  refine only2_ite (only2_mk h_s) ?_
  split
  · rename_i x1 x2 t3 e4
    have h5 := only2_snd (State.takeFree_only h_s hsub) e4
    exact only2_mk h5

theorem State.chopPublish_only {fs : List Part} {s0 : State} {s} (h_s : Only fs s0 s) (hsub : In [.chop, .free] fs) :
    Only fs s0 (State.chopPublish s) := by
  unfold State.chopPublish
  split
  · exact h_s
  · split
    · rename_i x0 x1 t2 e3
      have h4 := only2_snd (State.chopUdc_only h_s (inT rfl hsub)) e3
      extract_lets +onlyGivenNames v5
      clear_value v5
      extract_lets +onlyGivenNames v6
      clear_value v6
      exact State.onChop_only h4 (inT rfl hsub)

theorem State.chopJudge_only {fs : List Part} {s0 : State} {s l} (h_s : Only fs s0 s) (hsub : In [.regs, .stage, .axes, .fbs, .mots, .legs, .lanes, .rescue, .chop, .cans, .dos, .safety, .trace, .log, .chans, .timers] fs) :
    Only fs s0 (State.chopJudge s l) := by
  unfold State.chopJudge
  extract_lets +onlyGivenNames v0
  have h0 : Only fs s0 v0 := State.onLg_only (State.onChop_only h_s (inT rfl hsub)) (inT rfl hsub)
  clear_value v0
  extract_lets +onlyGivenNames v1
  have h1 : Only fs s0 v1 := State.onset_only (State.raise_only (State.pfault_only (State.event_only h0 (inT rfl hsub)) (inT rfl hsub)) (inT rfl hsub)) (inT rfl hsub)
  clear_value v1
  exact only_ite (State.rescueAbort_only h1 (inT rfl hsub)) h1

theorem State.chopClear_only {fs : List Part} {s0 : State} {s} (h_s : Only fs s0 s) (hsub : In [.chop, .safety] fs) :
    Only fs s0 (State.chopClear s) := by
  unfold State.chopClear
  exact State.clearSrc_only (State.onChop_only h_s (inT rfl hsub)) (inT rfl hsub)

theorem execChopperSwitchFault_only {fs : List Part} {s0 : State} {s} (h_s : Only fs s0 s) (hsub : In [.regs, .time, .stage, .axes, .fbs, .mots, .legs, .lanes, .rescue, .chop, .cans, .dos, .safety, .trace, .log, .chans, .timers] fs) :
    OnlyN fs s0 (execChopperSwitchFault s) := by
  unfold execChopperSwitchFault
  split
  · extract_lets +onlyGivenNames v0
    have h0 : Only fs s0 v0 := State.reach_only h_s (inT rfl hsub)
    clear_value v0
    exact onlyN_ite (onlyN_next (State.chopJudge_only (State.onChop_only h0 (inT rfl hsub)) (inT rfl hsub))) (onlyN_next h_s)
  · exact onlyN_next h_s

theorem State.chopBoundary_only {fs : List Part} {s0 : State} {s} (h_s : Only fs s0 s) (hsub : In [.chop, .safety, .free] fs) :
    Only fs s0 (State.chopBoundary s) := by
  unfold State.chopBoundary
  split
  · exact h_s
  · extract_lets +onlyGivenNames v0
    clear_value v0
    split
    · rename_i x1 x2 t3 e4
      have h5 := only2_snd (State.chopUdc_only h_s (inT rfl hsub)) e4
      extract_lets +onlyGivenNames v6
      clear_value v6
      extract_lets +onlyGivenNames v7
      clear_value v7
      extract_lets +onlyGivenNames v8
      clear_value v8
      extract_lets +onlyGivenNames v9
      have h9 : Only fs s0 v9 := State.onChop_only h5 (inT rfl hsub)
      clear_value v9
      split
      · exact only_ite (State.onChop_only h9 (inT rfl hsub)) h9
      · extract_lets +onlyGivenNames v10
        have h10 : Only fs s0 v10 := State.onChop_only h9 (inT rfl hsub)
        clear_value v10
        exact only_ite (only_ite h10 (State.chopClear_only h10 (inT rfl hsub))) (only_ite h9 (State.onChop_only h9 (inT rfl hsub)))

theorem execChopperTestExpiry_only {fs : List Part} {s0 : State} {s} (h_s : Only fs s0 s) (hsub : In [.regs, .time, .stage, .axes, .fbs, .mots, .legs, .lanes, .rescue, .chop, .cans, .dos, .safety, .trace, .log, .chans, .timers] fs) :
    OnlyN fs s0 (execChopperTestExpiry s) := by
  unfold execChopperTestExpiry
  split
  · exact onlyN_ite (onlyN_next (State.chopJudge_only (State.onChop_only (State.reach_only h_s (inT rfl hsub)) (inT rfl hsub)) (inT rfl hsub))) (onlyN_next h_s)
  · exact onlyN_next h_s

theorem execPrecheck_only {fs : List Part} {s0 : State} {m seq arg8 s} (h_s : Only fs s0 s) (hsub : In [.regs, .host, .mgr, .axes, .trace, .log, .timers, .precheck] fs) :
    OnlyN fs s0 (execPrecheck m seq arg8 s) := by
  unfold execPrecheck
  extract_lets +onlyGivenNames v0
  clear_value v0
  refine onlyN_next ?_
  refine State.command_only h_s ?_ (inT rfl hsub)
  intro t3 h4
  extract_lets +onlyGivenNames v5
  have h5 : Only fs s0 v5 := by
    unfold v5
    exact Only.upd h4 (inT (F := [.precheck]) rfl hsub) (by intro f hf; cases f <;> first | rfl | simp at hf)
  clear_value v5
  extract_lets +onlyGivenNames v6
  have h6 : Only fs s0 v6 := State.startT_only (State.setLv_only (State.onAx_only h5 (inT rfl hsub)) (inT rfl hsub)) (inT rfl hsub)
  clear_value v6
  exact State.begin__only h6 (inT rfl hsub)

theorem State.precheckEnd_only {fs : List Part} {s0 : State} {s a} (h_s : Only fs s0 s) (hsub : In [.regs, .host, .mgr, .axes, .drives, .safety, .trace, .log, .timers, .precheck] fs) :
    Only fs s0 (State.precheckEnd s a) := by
  unfold State.precheckEnd
  extract_lets +onlyGivenNames v0
  have h0 : Only fs s0 v0 := by
    unfold v0
    refine State.event_only ?_ (inT rfl hsub)
    exact Only.upd h_s (inT (F := [.precheck]) rfl hsub) (by intro f hf; cases f <;> first | rfl | simp at hf)
  extract_lets +onlyGivenNames v1
  clear_value v1
  extract_lets +onlyGivenNames v2
  have h2 : Only fs s0 v2 := only_ite h0 (only_ite (State.onAx_only h0 (inT rfl hsub)) (State.enterReady_only h0 (inT rfl hsub)))
  clear_value v2
  extract_lets +onlyGivenNames v3
  have h3 : Only fs s0 v3 := only_ite (State.setLastSrc_only (State.onAx_only h0 (inT rfl hsub)) (inT rfl hsub)) h0
  clear_value v3
  exact only_ite (State.complete_only h2 (inT rfl hsub)) (State.complete_only (State.raisePulse_only (State.pfault_only h3 (inT rfl hsub)) (inT rfl hsub)) (inT rfl hsub))

theorem execPrecheckStep_only {fs : List Part} {s0 : State} {u v w compOk supplyOk s} (h_s : Only fs s0 s) (hsub : In [.regs, .time, .host, .mgr, .axes, .drives, .safety, .trace, .log, .timers, .precheck] fs) :
    OnlyN fs s0 (execPrecheckStep u v w compOk supplyOk s) := by
  unfold execPrecheckStep
  refine onlyN_next ?_
  refine State.expire_only h_s ?_ (inT rfl hsub)
  intro t2 h3
  split
  · exact h3
  · extract_lets +onlyGivenNames v4
    clear_value v4
    extract_lets +onlyGivenNames v5
    clear_value v5
    extract_lets +onlyGivenNames v6
    clear_value v6
    extract_lets +onlyGivenNames v7
    clear_value v7
    extract_lets +onlyGivenNames v8
    have h8 : Only fs s0 v8 := State.onLv_only h3 (inT rfl hsub)
    clear_value v8
    extract_lets +onlyGivenNames v9
    have h9 : Only fs s0 v9 := only_ite h8 (State.setLv_only h8 (inT rfl hsub))
    clear_value v9
    extract_lets +onlyGivenNames v10
    clear_value v10
    extract_lets +onlyGivenNames v11
    have h11 : Only fs s0 v11 := by
      unfold v11
      exact Only.upd h9 (inT (F := [.precheck]) rfl hsub) (by intro f hf; cases f <;> first | rfl | simp at hf)
    clear_value v11
    exact only_ite (State.precheckEnd_only h9 (inT rfl hsub)) (State.startT_only h11 (inT rfl hsub))

theorem execDiag_only {fs : List Part} {s0 : State} {frame s} (h_s : Only fs s0 s) (hsub : In [.regs, .pdie, .trace] fs) :
    OnlyN fs s0 (execDiag frame s) := by
  unfold execDiag
  exact State.uplink_only h_s (fun _ h0 => State.onLv_only h0 (inT rfl hsub)) hsub

end Sys2Proof.Machine
end

