-- ==== Sys2Proof/Laws/OnlySafeFns.lean ====
section
/-!
SUPPORT. What the operations of Machine/SafeFns.lean may change: one lemma each, from any state reached.
-/
namespace Sys2Proof.Machine

open Sys2Proof.Safety

theorem State.safeStopAxis_only {fs : List Part} {s0 : State} {s a} (h_s : Only fs s0 s) (hsub : In [.regs, .axes, .mots, .legs, .rescue, .safety, .trace, .log, .timers] fs) :
    Only fs s0 (State.safeStopAxis s a) := by
  unfold State.safeStopAxis
  extract_lets +onlyGivenNames v0
  have h0 : Only fs s0 v0 := State.pushReact_only h_s (inT rfl hsub)
  clear_value v0
  exact only_ite (State.rescueAbort_only h0 hsub) h0

theorem State.safeStopDown_only {fs : List Part} {s0 : State} {s} (h_s : Only fs s0 s) (hsub : In [.power, .axes, .legs] fs) :
    Only fs s0 (State.safeStopDown s) := by
  unfold State.safeStopDown
  extract_lets +onlyGivenNames v0
  have h0 : Only fs s0 v0 := State.onPower_only h_s (inT rfl hsub)
  clear_value v0
  extract_lets +onlyGivenNames v1
  have h1 : Only fs s0 v1 := forN_only (fun _ _ h2 => State.onAx_only h2 (inT rfl hsub)) h0
  clear_value v1
  exact forN_only (fun _ _ h3 => State.legOff_only h3 (inT rfl hsub)) h1

theorem execSafeStop_only {fs : List Part} {s0 : State} {m seq arg8 s} (h_s : Only fs s0 s) (hsub : In [.regs, .power, .host, .mgr, .axes, .mots, .legs, .rescue, .safety, .trace, .log, .timers] fs) :
    OnlyN fs s0 (execSafeStop m seq arg8 s) := by
  unfold execSafeStop
  extract_lets +onlyGivenNames v0
  clear_value v0
  refine onlyN_ite (onlyN_ite (onlyN_next (State.setResult_only (State.safeStopDown_only h_s (inT rfl hsub)) (inT rfl hsub))) (onlyN_next h_s)) ?_
  refine onlyN_next ?_
  refine State.command_only h_s ?_ (inT rfl hsub)
  intro t5 h6
  extract_lets +onlyGivenNames v7
  clear_value v7
  extract_lets +onlyGivenNames v8
  have h8 : Only fs s0 v8 := State.event_only (State.clearSrc_only (State.noteSrc_only h6 (inT rfl hsub)) (inT rfl hsub)) (inT rfl hsub)
  clear_value v8
  extract_lets +onlyGivenNames v9
  have h9 : Only fs s0 v9 := forL_only (fun _ _ h10 => State.safeStopAxis_only h10 (inT rfl hsub)) h8
  clear_value v9
  exact only_ite h9 (State.accept_only h9 (inT rfl hsub))

theorem State.readback_only {fs : List Part} {s0 : State} {s} (h_s : Only fs s0 s) (hsub : In [.timers] fs) :
    Only fs s0 (State.readback s) := by
  unfold State.readback
  exact State.startT_only h_s hsub

theorem State.stoDemandNow_only {fs : List Part} {s0 : State} {s} (h_s : Only fs s0 s) (hsub : In [.regs, .axes, .mots, .legs, .rescue, .field, .safety, .trace, .log, .timers] fs) :
    Only fs s0 (State.stoDemandNow s) := by
  unfold State.stoDemandNow
  extract_lets +onlyGivenNames v0
  have h0 : Only fs s0 v0 := State.onSafe_only h_s (inT rfl hsub)
  clear_value v0
  extract_lets +onlyGivenNames v1
  have h1 : Only fs s0 v1 := State.onField_only (State.stopT_only h0 (inT rfl hsub)) (inT rfl hsub)
  clear_value v1
  extract_lets +onlyGivenNames v2
  have h2 : Only fs s0 v2 := State.clearSrc_only (State.noteSrc_only (State.clearSrc_only h1 (inT rfl hsub)) (inT rfl hsub)) (inT rfl hsub)
  clear_value v2
  extract_lets +onlyGivenNames v3
  have h3 : Only fs s0 v3 := State.onLv_only (State.event_only h2 (inT rfl hsub)) (inT rfl hsub)
  clear_value v3
  extract_lets +onlyGivenNames v4
  clear_value v4
  extract_lets +onlyGivenNames v5
  have h5 : Only fs s0 v5 := forL_only (fun _ _ h6 => only_ite (State.stoNow_only h6 (inT rfl hsub)) (State.pushReact_only (State.stoNow_only h6 (inT rfl hsub)) (inT rfl hsub))) h3
  clear_value v5
  extract_lets +onlyGivenNames v7
  have h7 : Only fs s0 v7 := only_ite (State.rescueAbort_only h5 (inT rfl hsub)) h5
  clear_value v7
  exact State.readback_only h7 (inT rfl hsub)

theorem execStoDemand_only {fs : List Part} {s0 : State} {s} (h_s : Only fs s0 s) (hsub : In [.regs, .axes, .mots, .legs, .rescue, .field, .safety, .trace, .log, .timers] fs) :
    OnlyN fs s0 (execStoDemand s) := by
  unfold execStoDemand
  exact onlyN_ite (onlyN_next h_s) (onlyN_next (State.stoDemandNow_only h_s hsub))

theorem State.stoHealthy_only {fs : List Part} {s0 : State} {s t} (h_s : Only fs s0 s) (hsub : In [.field, .safety, .timers] fs) :
    Only fs s0 (State.stoHealthy s t) := by
  unfold State.stoHealthy
  extract_lets +onlyGivenNames v0
  have h0 : Only fs s0 v0 := State.onField_only h_s (inT rfl hsub)
  clear_value v0
  exact only_ite (State.startT_only (State.onSafe_only h0 (inT rfl hsub)) (inT rfl hsub)) h0

theorem execStoRelease_only {fs : List Part} {s0 : State} {s} (h_s : Only fs s0 s) (hsub : In [.regs, .time, .safety, .trace, .timers] fs) :
    OnlyN fs s0 (execStoRelease s) := by
  unfold execStoRelease
  split
  · exact onlyN_next h_s
  · extract_lets +onlyGivenNames v0
    have h0 : Only fs s0 v0 := State.reach_only (State.stopT_only h_s (inT rfl hsub)) (inT rfl hsub)
    clear_value v0
    extract_lets +onlyGivenNames v1
    have h1 : Only fs s0 v1 := State.onSafe_only h0 (inT rfl hsub)
    clear_value v1
    exact onlyN_ite (onlyN_next h_s) (onlyN_next (State.event_only (State.clearSrc_only h1 (inT rfl hsub)) (inT rfl hsub)))

theorem State.stoPathFail_only {fs : List Part} {s0 : State} {s} (h_s : Only fs s0 s) (hsub : In [.regs, .axes, .mots, .legs, .safety, .trace, .log, .timers] fs) :
    Only fs s0 (State.stoPathFail s) := by
  unfold State.stoPathFail
  extract_lets +onlyGivenNames v0
  have h0 : Only fs s0 v0 := State.pfault_only (State.onSafe_only h_s (inT rfl hsub)) (inT rfl hsub)
  clear_value v0
  exact State.raiseNow_only h0 hsub

theorem execStoReadback_only {fs : List Part} {s0 : State} {confirmed s} (h_s : Only fs s0 s) (hsub : In [.regs, .time, .axes, .mots, .legs, .safety, .trace, .log, .timers] fs) :
    OnlyN fs s0 (execStoReadback confirmed s) := by
  unfold execStoReadback
  exact onlyN_next (State.expire_only h_s (fun _ h0 => only_ite h0 (State.stoPathFail_only h0 (inT rfl hsub))) (inT rfl hsub))

theorem execStoTestDue_only {fs : List Part} {s0 : State} {s} (h_s : Only fs s0 s) (hsub : In [.regs, .time, .axes, .safety, .trace, .log] fs) :
    OnlyN fs s0 (execStoTestDue s) := by
  unfold execStoTestDue
  extract_lets +onlyGivenNames v0
  clear_value v0
  exact onlyN_ite (onlyN_next h_s) (onlyN_next (State.raise_only (State.pfault_only (State.reach_only h_s (inT rfl hsub)) (inT rfl hsub)) (inT rfl hsub)))

theorem State.selHost_only {fs : List Part} {s0 : State} {s m v} (h_s : Only fs s0 s) (hsub : In [.regs, .host, .mgr, .trace, .log] fs) :
    Only fs s0 (State.selHost s m v) := by
  unfold State.selHost
  extract_lets +onlyGivenNames v0
  clear_value v0
  exact only_ite (State.refuseBy_only h_s hsub) (State.setLv_only h_s (inT rfl hsub))

theorem execSelHost_only {fs : List Part} {s0 : State} {v s} (h_s : Only fs s0 s) (hsub : In [.regs, .host, .mgr, .trace, .log] fs) :
    OnlyN fs s0 (execSelHost v s) := by
  unfold execSelHost
  exact onlyN_ite (onlyN_next (State.selHost_only (State.touch_only h_s (inT rfl hsub)) hsub)) (onlyN_next h_s)

theorem State.selectFn_only {fs : List Part} {s0 : State} {s a f} (h_s : Only fs s0 s) (hsub : In [.axes, .safety, .timers] fs) :
    Only fs s0 (State.selectFn s a f) := by
  unfold State.selectFn
  extract_lets +onlyGivenNames v0
  clear_value v0
  extract_lets +onlyGivenNames v1
  clear_value v1
  extract_lets +onlyGivenNames v2
  have h2 : Only fs s0 v2 := State.stopT_only (State.onAx_only h_s (inT rfl hsub)) (inT rfl hsub)
  clear_value v2
  exact only_ite h_s (only_ite (State.startT_only (State.onAx_only h_s (inT rfl hsub)) (inT rfl hsub)) (only_ite h2 (State.clearSrc_only h2 (inT rfl hsub))))

theorem State.violate_only {fs : List Part} {s0 : State} {s a src} (h_s : Only fs s0 s) (hsub : In [.regs, .axes, .safety, .trace, .log] fs) :
    Only fs s0 (State.violate s a src) := by
  unfold State.violate
  exact only_ite h_s (State.raise_only (State.event_only h_s (inT rfl hsub)) hsub)

theorem State.testFn_only {fs : List Part} {s0 : State} {s a f} (h_s : Only fs s0 s) (hsub : In [.regs, .axes, .safety, .trace, .log] fs) :
    Only fs s0 (State.testFn s a f) := by
  unfold State.testFn
  extract_lets +onlyGivenNames v0
  clear_value v0
  extract_lets +onlyGivenNames v1
  clear_value v1
  extract_lets +onlyGivenNames v2
  clear_value v2
  extract_lets +onlyGivenNames v3
  clear_value v3
  extract_lets +onlyGivenNames v4
  clear_value v4
  extract_lets +onlyGivenNames v5
  have h5 : Only fs s0 v5 := State.onAx_only h_s (inT rfl hsub)
  clear_value v5
  extract_lets +onlyGivenNames v6
  clear_value v6
  exact only_ite h_s (only_ite (State.violate_only h5 hsub) h5)

theorem execSafetyMonitorStart_only {fs : List Part} {s0 : State} {axis fn s} (h_s : Only fs s0 s) (hsub : In [.time, .axes, .timers] fs) :
    OnlyN fs s0 (execSafetyMonitorStart axis fn s) := by
  unfold execSafetyMonitorStart
  extract_lets +onlyGivenNames v0
  clear_value v0
  extract_lets +onlyGivenNames v1
  clear_value v1
  refine onlyN_next ?_
  refine State.expire_only h_s ?_ (inT rfl hsub)
  intro t4 h5
  extract_lets +onlyGivenNames v6
  clear_value v6
  exact only_ite (State.onAx_only h5 (inT rfl hsub)) h5

theorem State.testSs1_only {fs : List Part} {s0 : State} {s a} (h_s : Only fs s0 s) (hsub : In [.regs, .axes, .safety, .trace, .log] fs) :
    Only fs s0 (State.testSs1 s a) := by
  unfold State.testSs1
  split
  · exact h_s
  · extract_lets +onlyGivenNames v0
    clear_value v0
    extract_lets +onlyGivenNames v1
    clear_value v1
    exact only_ite (State.violate_only h_s hsub) h_s

theorem execSs1Timeout_only {fs : List Part} {s0 : State} {axis s} (h_s : Only fs s0 s) (hsub : In [.time, .axes, .mots, .legs, .timers] fs) :
    OnlyN fs s0 (execSs1Timeout axis s) := by
  unfold execSs1Timeout
  exact onlyN_next (State.expire_only h_s (fun _ h0 => only_ite (State.ss1End_only h0 (inT rfl hsub)) h0) (inT rfl hsub))

theorem State.stopReady_only {fs : List Part} {s0 : State} {s a} (h_s : Only fs s0 s) (hsub : In [.axes, .mots, .legs, .timers] fs) :
    Only fs s0 (State.stopReady s a) := by
  unfold State.stopReady
  extract_lets +onlyGivenNames v0
  have h0 : Only fs s0 v0 := State.leaveMotion_only h_s hsub
  clear_value v0
  exact only_ite (State.startT_only h0 (inT rfl hsub)) h0

theorem State.degradedEnd_only {fs : List Part} {s0 : State} {s a} (h_s : Only fs s0 s) (hsub : In [.regs, .axes, .mots, .legs, .timers] fs) :
    Only fs s0 (State.degradedEnd s a) := by
  unfold State.degradedEnd
  exact State.setLastSrc_only (State.onAx_only (State.settleSto_only (State.onAx_only (State.stoNow_only h_s (inT rfl hsub)) (inT rfl hsub)) (inT rfl hsub)) (inT rfl hsub)) (inT rfl hsub)

theorem execBrakeSetExpiry_only {fs : List Part} {s0 : State} {axis s} (h_s : Only fs s0 s) (hsub : In [.regs, .time, .axes, .mots, .legs, .timers] fs) :
    OnlyN fs s0 (execBrakeSetExpiry axis s) := by
  unfold execBrakeSetExpiry
  extract_lets +onlyGivenNames v0
  clear_value v0
  refine onlyN_next ?_
  refine State.expire_only h_s ?_ (inT rfl hsub)
  intro t3 h4
  extract_lets +onlyGivenNames v5
  clear_value v5
  exact only_ite (State.stopReady_only h4 (inT rfl hsub)) (only_ite (State.degradedEnd_only h4 (inT rfl hsub)) (only_ite (State.onAx_only (State.settleSto_only (State.stoNow_only h4 (inT rfl hsub)) (inT rfl hsub)) (inT rfl hsub)) h4))

theorem State.restBoundary_only {fs : List Part} {s0 : State} {s a} (h_s : Only fs s0 s) (hsub : In [.regs, .axes, .mots, .legs, .timers] fs) :
    Only fs s0 (State.restBoundary s a) :=  by
  unfold State.restBoundary
  extract_lets +onlyGivenNames x
  extract_lets +onlyGivenNames c
  extract_lets +onlyGivenNames settle
  have hset : ∀ t f, Only fs s0 t → (∀ u, Only fs s0 u → Only fs s0 (f u)) → Only fs s0 (settle t f) := by
    intro t f ht hf
    unfold settle
    have h1 := State.sbcIssue_only (a := a) ht (inT rfl hsub)
    exact only_ite (hf _ h1) (State.startT_only (State.onAx_only h1 (inT rfl hsub)) (inT rfl hsub))
  clear_value settle x c
  refine only_ite h_s (only_ite ?_ (only_ite h_s (only_ite (State.ss1End_only h_s (inT rfl hsub)) (only_ite ?_
    (only_ite (State.startT_only (State.sbcIssue_only h_s (inT rfl hsub)) (inT rfl hsub)) h_s)))))
  · exact only_ite (hset _ _ h_s fun _ h => State.degradedEnd_only h (inT rfl hsub)) h_s
  · exact hset _ _ h_s fun _ h => State.stopReady_only h (inT rfl hsub)

theorem execBrakeRelease_only {fs : List Part} {s0 : State} {axis s} (h_s : Only fs s0 s) (hsub : In [.time, .axes, .timers] fs) :
    OnlyN fs s0 (execBrakeRelease axis s) := by
  unfold execBrakeRelease
  exact onlyN_next (State.expire_only h_s (fun _ h0 => only_ite (State.brakeOff_only h0 (inT rfl hsub)) h0) (inT rfl hsub))

theorem execBrakeFbTimeout_only {fs : List Part} {s0 : State} {slot axis s} (h_s : Only fs s0 s) (hsub : In [.regs, .time, .axes, .safety, .trace, .log, .timers] fs) :
    OnlyN fs s0 (execBrakeFbTimeout slot axis s) := by
  unfold execBrakeFbTimeout
  exact onlyN_next (State.expire_only h_s (fun _ h0 => only_ite (State.raise_only h0 (inT rfl hsub)) h0) (inT rfl hsub))

theorem State.sinFault_only {fs : List Part} {s0 : State} {s i} (h_s : Only fs s0 s) (hsub : In [.regs, .axes, .sins, .safety, .trace, .log] fs) :
    Only fs s0 (State.sinFault s i) := by
  unfold State.sinFault
  extract_lets +onlyGivenNames v0
  have h0 : Only fs s0 v0 := State.onSi_only h_s (inT rfl hsub)
  clear_value v0
  exact State.raise_only (State.pfault_only (State.event_only h0 (inT rfl hsub)) (inT rfl hsub)) (inT rfl hsub)

theorem execTestPulse_only {fs : List Part} {s0 : State} {tp low high followed s} (h_s : Only fs s0 s) (hsub : In [.regs, .axes, .field, .sins, .safety, .trace, .log] fs) :
    OnlyN fs s0 (execTestPulse tp low high followed s) := by
  unfold execTestPulse
  extract_lets +onlyGivenNames v0
  have h0 : Only fs s0 v0 := State.onField_only h_s (inT rfl hsub)
  clear_value v0
  refine onlyN_ite (onlyN_next h_s) ?_
  refine onlyN_next ?_
  refine forN_only ?_ h0
  intro x5 t6 h7
  extract_lets +onlyGivenNames v8
  clear_value v8
  extract_lets +onlyGivenNames v9
  clear_value v9
  extract_lets +onlyGivenNames v10
  clear_value v10
  exact only_ite h7 (only_ite (only_ite (State.sinFault_only h7 (inT rfl hsub)) (only_ite h7 (only_ite (State.onSi_only h7 (inT rfl hsub)) (State.sinFault_only h7 (inT rfl hsub))))) (only_ite (State.sinFault_only h7 (inT rfl hsub)) h7))

theorem State.clearSin_only {fs : List Part} {s0 : State} {s} (h_s : Only fs s0 s) (hsub : In [.sins, .safety] fs) :
    Only fs s0 (State.clearSin s) := by
  unfold State.clearSin
  extract_lets +onlyGivenNames v0
  have h0 : Only fs s0 v0 := forN_only (fun _ _ h1 => State.onSi_only h1 (inT rfl hsub)) h_s
  clear_value v0
  exact only_ite h0 (State.clearSrc_only h0 (inT rfl hsub))

theorem State.slotDemands_only {fs : List Part} {s0 : State} {s a} (h_s : Only fs s0 s) (hsub : In [.regs, .axes, .mots, .legs, .rescue, .safety, .trace, .log, .timers] fs) :
    Only fs s0 (State.slotDemands s a) := by
  unfold State.slotDemands
  extract_lets +onlyGivenNames v0
  clear_value v0
  extract_lets +onlyGivenNames v1
  clear_value v1
  extract_lets +onlyGivenNames v2
  clear_value v2
  extract_lets +onlyGivenNames v3
  have h3 : Only fs s0 v3 := State.readback_only (State.pushReact_only h_s (inT rfl hsub)) (inT rfl hsub)
  clear_value v3
  exact only_ite (only_ite (State.rescueAbort_only h3 hsub) h3) (only_ite (State.pushReact_only h_s (inT rfl hsub)) h_s)

theorem State.crossCheck_only {fs : List Part} {s0 : State} {s a} (h_s : Only fs s0 s) (hsub : In [.regs, .axes, .drives, .safety, .trace, .log] fs) :
    Only fs s0 (State.crossCheck s a) := by
  unfold State.crossCheck
  extract_lets +onlyGivenNames v0
  clear_value v0
  extract_lets +onlyGivenNames v1
  clear_value v1
  extract_lets +onlyGivenNames v2
  clear_value v2
  extract_lets +onlyGivenNames v3
  clear_value v3
  extract_lets +onlyGivenNames v4
  clear_value v4
  extract_lets +onlyGivenNames v5
  clear_value v5
  extract_lets +onlyGivenNames v6
  clear_value v6
  extract_lets +onlyGivenNames v7
  clear_value v7
  extract_lets +onlyGivenNames v8
  clear_value v8
  extract_lets +onlyGivenNames v9
  clear_value v9
  extract_lets +onlyGivenNames v10
  have h10 : Only fs s0 v10 := State.onDr_only (State.setLv_only h_s (inT rfl hsub)) (inT rfl hsub)
  clear_value v10
  extract_lets +onlyGivenNames v11
  have h11 : Only fs s0 v11 := State.onAx_only h10 (inT rfl hsub)
  clear_value v11
  exact only_ite h_s (only_ite (only_ite h11 (State.raise_only (State.pfault_only (State.event_only h11 (inT rfl hsub)) (inT rfl hsub)) (inT rfl hsub))) (only_ite h11 (State.clearSrc_only h11 (inT rfl hsub))))

theorem State.degBoundary_only {fs : List Part} {s0 : State} {s a prevLen} (h_s : Only fs s0 s) (hsub : In [.regs, .axes, .safety, .trace, .log] fs) :
    Only fs s0 (State.degBoundary s a prevLen) := by
  unfold State.degBoundary
  extract_lets +onlyGivenNames v0
  clear_value v0
  extract_lets +onlyGivenNames v1
  clear_value v1
  extract_lets +onlyGivenNames v2
  have h2 : Only fs s0 v2 := State.onAx_only h_s (inT rfl hsub)
  clear_value v2
  exact only_ite h_s (only_ite (State.violate_only h2 hsub) h2)

theorem execDegradedExpired_only {fs : List Part} {s0 : State} {axis s} (h_s : Only fs s0 s) (hsub : In [.regs, .time, .axes, .safety, .trace, .log, .timers] fs) :
    OnlyN fs s0 (execDegradedExpired axis s) := by
  unfold execDegradedExpired
  extract_lets +onlyGivenNames v0
  clear_value v0
  exact onlyN_next (State.expire_only h_s (fun _ h1 => only_ite (State.raisePulse_only (State.pfault_only h1 (inT rfl hsub)) (inT rfl hsub)) h1) (inT rfl hsub))

theorem State.endDemand_only {fs : List Part} {s0 : State} {s a} (h_s : Only fs s0 s) (hsub : In [.axes, .safety] fs) :
    Only fs s0 (State.endDemand s a) := by
  unfold State.endDemand
  extract_lets +onlyGivenNames v0
  clear_value v0
  extract_lets +onlyGivenNames v1
  have h1 : Only fs s0 v1 := only_ite (State.onAx_only h_s (inT rfl hsub)) h_s
  clear_value v1
  extract_lets +onlyGivenNames v2
  have h2 : Only fs s0 v2 := only_ite (State.clearSrc_only h1 (inT rfl hsub)) h1
  clear_value v2
  extract_lets +onlyGivenNames v3
  have h3 : Only fs s0 v3 := only_ite (State.clearSrc_only h2 (inT rfl hsub)) h2
  clear_value v3
  exact only_ite (State.clearSrc_only h3 (inT rfl hsub)) h3

theorem State.axisBoundary_only {fs : List Part} {s0 : State} {s prevLen a} (h_s : Only fs s0 s) (hsub : In [.regs, .axes, .drives, .mots, .legs, .rescue, .safety, .trace, .log, .timers] fs) :
    Only fs s0 (State.axisBoundary s prevLen a) := by
  unfold State.axisBoundary
  extract_lets +onlyGivenNames v0
  have h0 : Only fs s0 v0 := State.degBoundary_only h_s (inT rfl hsub)
  clear_value v0
  extract_lets +onlyGivenNames v1
  have h1 : Only fs s0 v1 := State.slotDemands_only h0 (inT rfl hsub)
  clear_value v1
  extract_lets +onlyGivenNames v2
  have h2 : Only fs s0 v2 := only_ite (forN_only (fun _ _ h3 => State.testFn_only (State.selectFn_only h3 (inT rfl hsub)) (inT rfl hsub)) h1) h1
  clear_value v2
  extract_lets +onlyGivenNames v4
  have h4 : Only fs s0 v4 := State.testSs1_only h2 (inT rfl hsub)
  clear_value v4
  extract_lets +onlyGivenNames v5
  have h5 : Only fs s0 v5 := only_ite (State.crossCheck_only h4 (inT rfl hsub)) h4
  clear_value v5
  extract_lets +onlyGivenNames v6
  have h6 : Only fs s0 v6 := State.settleReacts_only h5 (inT rfl hsub)
  clear_value v6
  extract_lets +onlyGivenNames v7
  have h7 : Only fs s0 v7 := State.runBoundary_only h6 hsub
  clear_value v7
  exact State.endDemand_only (State.restBoundary_only h7 (inT rfl hsub)) (inT rfl hsub)

end Sys2Proof.Machine
end

