-- ==== Sys2Proof/Laws/OnlyField.lean ====
section
/-!
SUPPORT. What the operations of Machine/Field.lean may change: one lemma each, from any state reached.
-/
namespace Sys2Proof.Machine

open Sys2Proof.Safety

theorem State.judgeFlt_only {fs : List Part} {s0 : State} {s} (h_s : Only fs s0 s) (hsub : In [.regs, .axes, .field, .safety, .trace, .log] fs) :
    Only fs s0 (State.judgeFlt s) := by
  unfold State.judgeFlt
  extract_lets +onlyGivenNames v0
  clear_value v0
  extract_lets +onlyGivenNames v1
  clear_value v1
  extract_lets +onlyGivenNames v2
  have h2 : Only fs s0 v2 := State.onField_only h_s (inT rfl hsub)
  clear_value v2
  exact only_ite (State.raise_only (State.pfault_only (State.event_only h2 (inT rfl hsub)) (inT rfl hsub)) (inT rfl hsub)) (only_ite (State.clearSrc_only h2 (inT rfl hsub)) h2)

theorem State.inputsLost_only {fs : List Part} {s0 : State} {s} (h_s : Only fs s0 s) (hsub : In [.dis] fs) :
    Only fs s0 (State.inputsLost s) := by
  unfold State.inputsLost
  exact forN_only (fun _ _ h0 => State.onDi_only h0 hsub) h_s

theorem State.sagSet_only {fs : List Part} {s0 : State} {s v} (h_s : Only fs s0 s) (hsub : In [.regs, .axes, .field, .safety, .trace, .log] fs) :
    Only fs s0 (State.sagSet s v) := by
  unfold State.sagSet
  extract_lets +onlyGivenNames v0
  have h0 : Only fs s0 v0 := State.onField_only h_s (inT rfl hsub)
  clear_value v0
  exact only_ite h_s (only_ite (State.raise_only (State.pfault_only (State.event_only h0 (inT rfl hsub)) (inT rfl hsub)) (inT rfl hsub)) (State.clearSrc_only h0 (inT rfl hsub)))

theorem State.cutSet_only {fs : List Part} {s0 : State} {s v} (h_s : Only fs s0 s) (hsub : In [.regs, .axes, .dis, .field, .safety, .trace, .log] fs) :
    Only fs s0 (State.cutSet s v) := by
  unfold State.cutSet
  extract_lets +onlyGivenNames v0
  have h0 : Only fs s0 v0 := State.onField_only h_s (inT rfl hsub)
  clear_value v0
  exact only_ite h_s (only_ite (State.inputsLost_only (State.raise_only (State.pfault_only (State.event_only h0 (inT rfl hsub)) (inT rfl hsub)) (inT rfl hsub)) (inT rfl hsub)) (State.clearSrc_only (State.event_only h0 (inT rfl hsub)) (inT rfl hsub)))

theorem execVfSag_only {fs : List Part} {s0 : State} {s} (h_s : Only fs s0 s) (hsub : In [.regs, .axes, .field, .safety, .trace, .log] fs) :
    OnlyN fs s0 (execVfSag s) := by
  unfold execVfSag
  exact onlyN_ite (onlyN_next (State.judgeFlt_only (State.sagSet_only h_s hsub) hsub)) (onlyN_next h_s)

theorem execVfSagClear_only {fs : List Part} {s0 : State} {s} (h_s : Only fs s0 s) (hsub : In [.regs, .axes, .field, .safety, .trace, .log] fs) :
    OnlyN fs s0 (execVfSagClear s) := by
  unfold execVfSagClear
  exact onlyN_ite (onlyN_next (State.judgeFlt_only (State.sagSet_only h_s hsub) hsub)) (onlyN_next h_s)

theorem execVfCut_only {fs : List Part} {s0 : State} {s} (h_s : Only fs s0 s) (hsub : In [.regs, .axes, .dis, .field, .safety, .trace, .log] fs) :
    OnlyN fs s0 (execVfCut s) := by
  unfold execVfCut
  exact onlyN_ite (onlyN_next (State.judgeFlt_only (State.cutSet_only h_s hsub) (inT rfl hsub))) (onlyN_next h_s)

theorem execVfRestored_only {fs : List Part} {s0 : State} {s} (h_s : Only fs s0 s) (hsub : In [.regs, .axes, .dis, .field, .safety, .trace, .log] fs) :
    OnlyN fs s0 (execVfRestored s) := by
  unfold execVfRestored
  exact onlyN_ite (onlyN_next (State.judgeFlt_only (State.cutSet_only h_s hsub) (inT rfl hsub))) (onlyN_next h_s)

theorem State.diSample_only {fs : List Part} {s0 : State} {s t i b} (h_s : Only fs s0 s) (hsub : In [.latches, .dis] fs) :
    Only fs s0 (State.diSample s t i b) := by
  unfold State.diSample
  extract_lets +onlyGivenNames v0
  clear_value v0
  extract_lets +onlyGivenNames v1
  clear_value v1
  extract_lets +onlyGivenNames v2
  have h2 : Only fs s0 v2 := State.onDi_only h_s (inT rfl hsub)
  clear_value v2
  exact only_ite (State.latchDiSeen_only h2 (inT rfl hsub)) h2

theorem State.uplinkFrame_only {fs : List Part} {s0 : State} {s t f} (h_s : Only fs s0 s) (hsub : In [.regs, .axes, .mots, .latches, .legs, .rescue, .dis, .field, .safety, .trace, .log, .timers] fs) :
    Only fs s0 (State.uplinkFrame s t f) := by
  unfold State.uplinkFrame
  extract_lets +onlyGivenNames v0
  clear_value v0
  extract_lets +onlyGivenNames v1
  have h1 : Only fs s0 v1 := only_ite (only_ite h_s (State.stoDemandNow_only h_s (inT rfl hsub))) (State.stoHealthy_only h_s (inT rfl hsub))
  clear_value v1
  extract_lets +onlyGivenNames v2
  have h2 : Only fs s0 v2 := State.sagSet_only (State.cutSet_only h1 (inT rfl hsub)) (inT rfl hsub)
  clear_value v2
  extract_lets +onlyGivenNames v3
  have h3 : Only fs s0 v3 := only_ite (forN_only (fun _ _ h4 => State.diSample_only h4 (inT rfl hsub)) h2) h2
  clear_value v3
  exact State.judgeFlt_only h3 (inT rfl hsub)

theorem execFlinkUplinkFrame_only {fs : List Part} {s0 : State} {frame s} (h_s : Only fs s0 s) (hsub : In [.regs, .time, .axes, .mots, .latches, .legs, .rescue, .dis, .field, .safety, .trace, .log, .timers] fs) :
    OnlyN fs s0 (execFlinkUplinkFrame frame s) := by
  unfold execFlinkUplinkFrame
  extract_lets +onlyGivenNames v0
  clear_value v0
  extract_lets +onlyGivenNames v1
  have h1 : Only fs s0 v1 := State.onField_only (State.reach_only h_s (inT rfl hsub)) (inT rfl hsub)
  clear_value v1
  exact onlyN_ite (onlyN_next h_s) (onlyN_ite (onlyN_next (State.onField_only (State.inc16_only h1 (inT rfl hsub)) (inT rfl hsub))) (onlyN_ite (onlyN_next (State.onField_only h1 (inT rfl hsub))) (onlyN_next (State.uplinkFrame_only h1 (inT rfl hsub)))))

theorem State.diAccept_only {fs : List Part} {s0 : State} {s i} (h_s : Only fs s0 s) (hsub : In [.regs, .latches, .dis, .trace] fs) :
    Only fs s0 (State.diAccept s i) := by
  unfold State.diAccept
  extract_lets +onlyGivenNames v0
  clear_value v0
  extract_lets +onlyGivenNames v1
  have h1 : Only fs s0 v1 := State.onDi_only h_s (inT rfl hsub)
  clear_value v1
  extract_lets +onlyGivenNames v2
  have h2 : Only fs s0 v2 := only_ite (State.event_only h1 (inT rfl hsub)) h1
  clear_value v2
  exact only_ite h_s (only_ite h1 (State.latchDi_only h2 (inT rfl hsub)))

theorem execFlinkLost_only {fs : List Part} {s0 : State} {s} (h_s : Only fs s0 s) (hsub : In [.regs, .time, .axes, .mots, .legs, .rescue, .dis, .field, .safety, .trace, .log, .timers] fs) :
    OnlyN fs s0 (execFlinkLost s) := by
  unfold execFlinkLost
  extract_lets +onlyGivenNames v0
  have h0 : Only fs s0 v0 := State.reach_only h_s (inT rfl hsub)
  clear_value v0
  extract_lets +onlyGivenNames v1
  have h1 : Only fs s0 v1 := State.onField_only h0 (inT rfl hsub)
  clear_value v1
  extract_lets +onlyGivenNames v2
  have h2 : Only fs s0 v2 := State.inputsLost_only (State.raise_only (State.pfault_only (State.event_only h1 (inT rfl hsub)) (inT rfl hsub)) (inT rfl hsub)) (inT rfl hsub)
  clear_value v2
  extract_lets +onlyGivenNames v3
  have h3 : Only fs s0 v3 := forN_only (fun _ _ h4 => State.onDi_only h4 (inT rfl hsub)) h2
  clear_value v3
  extract_lets +onlyGivenNames v5
  have h5 : Only fs s0 v5 := only_ite h3 (State.stoDemandNow_only h3 (inT rfl hsub))
  clear_value v5
  exact onlyN_ite (onlyN_next h_s) (onlyN_next (State.judgeFlt_only h5 (inT rfl hsub)))

theorem execFlinkRecovered_only {fs : List Part} {s0 : State} {s} (h_s : Only fs s0 s) (hsub : In [.regs, .axes, .field, .safety, .trace, .log] fs) :
    OnlyN fs s0 (execFlinkRecovered s) := by
  unfold execFlinkRecovered
  extract_lets +onlyGivenNames v0
  have h0 : Only fs s0 v0 := State.onField_only h_s (inT rfl hsub)
  clear_value v0
  exact onlyN_ite (onlyN_next h_s) (onlyN_next (State.judgeFlt_only (State.clearSrc_only (State.event_only h0 (inT rfl hsub)) (inT rfl hsub)) hsub))

theorem execFlinkDownlinkFrame_only {fs : List Part} {s0 : State} {s} (h_s : Only fs s0 s) (hsub : In [.regs, .time, .axes, .dos, .field, .safety, .trace, .log] fs) :
    OnlyN fs s0 (execFlinkDownlinkFrame s) := by
  unfold execFlinkDownlinkFrame
  extract_lets +onlyGivenNames v0
  clear_value v0
  extract_lets +onlyGivenNames v1
  have h1 : Only fs s0 v1 := State.onField_only (State.reach_only h_s (inT rfl hsub)) (inT rfl hsub)
  clear_value v1
  extract_lets +onlyGivenNames v2
  have h2 : Only fs s0 v2 := by
    unfold v2
    refine forN_only ?_ h1
    intro x5 t6 h7
    extract_lets +onlyGivenNames v8
    clear_value v8
    exact State.onFo_only h7 (inT rfl hsub)
  clear_value v2
  exact onlyN_ite (onlyN_next h_s) (onlyN_next (State.judgeFlt_only h2 (inT rfl hsub)))

theorem execDoThermalOff_only {fs : List Part} {s0 : State} {n s} (h_s : Only fs s0 s) (hsub : In [.dos, .timers] fs) :
    OnlyN fs s0 (execDoThermalOff n s) := by
  unfold execDoThermalOff
  exact onlyN_ite (onlyN_next h_s) (onlyN_next (State.startT_only (State.onFo_only h_s (inT rfl hsub)) (inT rfl hsub)))

theorem execDoThermalRetry_only {fs : List Part} {s0 : State} {n s} (h_s : Only fs s0 s) (hsub : In [.time, .dos, .timers] fs) :
    OnlyN fs s0 (execDoThermalRetry n s) := by
  unfold execDoThermalRetry
  exact onlyN_next (State.expire_only h_s (fun _ h0 => State.onFo_only h0 (inT rfl hsub)) (inT rfl hsub))

theorem State.readDo_only {fs : List Part} {s0 : State} {s n high} (h_s : Only fs s0 s) (hsub : In [.regs, .stage, .axes, .fbs, .mots, .legs, .lanes, .cans, .dos, .safety, .trace, .log, .chans, .timers] fs) :
    Only fs s0 (State.readDo s n high) := by
  unfold State.readDo
  extract_lets +onlyGivenNames v0
  have h0 : Only fs s0 v0 := State.onFo_only h_s (inT rfl hsub)
  clear_value v0
  extract_lets +onlyGivenNames v1
  have h1 : Only fs s0 v1 := State.onFo_only h0 (inT rfl hsub)
  clear_value v1
  extract_lets +onlyGivenNames v2
  have h2 : Only fs s0 v2 := State.onFo_only h0 (inT rfl hsub)
  clear_value v2
  exact only_ite (only_ite (State.onFo_only (State.backInService_only h1 (inT rfl hsub)) (inT rfl hsub)) h1) (only_ite (State.onFo_only h0 (inT rfl hsub)) (only_ite (State.onset_only h2 hsub) h2))

theorem State.upWord_only {fs : List Part} {s0 : State} {s w} (h_s : Only fs s0 s) (hsub : In [.regs, .stage, .axes, .fbs, .mots, .legs, .lanes, .cans, .dis, .dos, .field, .sins, .safety, .trace, .log, .chans, .timers] fs) :
    Only fs s0 (State.upWord s w) := by
  unfold State.upWord
  extract_lets +onlyGivenNames v0
  clear_value v0
  extract_lets +onlyGivenNames v1
  clear_value v1
  extract_lets +onlyGivenNames v2
  have h2 : Only fs s0 v2 := forN_only (fun _ _ h3 => State.onDi_only h3 (inT rfl hsub)) h_s
  clear_value v2
  extract_lets +onlyGivenNames v4
  have h4 : Only fs s0 v4 := State.onField_only h2 (inT rfl hsub)
  clear_value v4
  extract_lets +onlyGivenNames v5
  have h5 : Only fs s0 v5 := State.setLv_only h4 (inT rfl hsub)
  clear_value v5
  extract_lets +onlyGivenNames v6
  have h6 : Only fs s0 v6 := State.setLv_only h5 (inT rfl hsub)
  clear_value v6
  extract_lets +onlyGivenNames v7
  have h7 : Only fs s0 v7 := forN_only (fun _ _ h8 => State.readDo_only h8 (inT rfl hsub)) h6
  clear_value v7
  extract_lets +onlyGivenNames v9
  have h9 : Only fs s0 v9 := forN_only (fun _ _ h10 => only_ite (forN_only (fun _ _ h11 => only_ite (State.sinFault_only h11 (inT rfl hsub)) h11) h10) h10) h7
  clear_value v9
  exact State.judgeFlt_only h9 (inT rfl hsub)

theorem State.downWord_only {fs : List Part} {s0 : State} {s w} (h_s : Only fs s0 s) (hsub : In [.dis, .field] fs) :
    Only fs s0 (State.downWord s w) := by
  unfold State.downWord
  extract_lets +onlyGivenNames v0
  have h0 : Only fs s0 v0 := State.onField_only h_s (inT rfl hsub)
  clear_value v0
  exact only_ite (forN_only (fun _ _ h1 => only_ite h1 (State.onDi_only h1 (inT rfl hsub))) h0) (State.onField_only h_s (inT rfl hsub))

theorem execFlinkAuxWord_only {fs : List Part} {s0 : State} {down w s} (h_s : Only fs s0 s) (hsub : In [.regs, .stage, .axes, .fbs, .mots, .legs, .lanes, .cans, .dis, .dos, .field, .sins, .safety, .trace, .log, .chans, .timers] fs) :
    OnlyN fs s0 (execFlinkAuxWord down w s) := by
  unfold execFlinkAuxWord
  exact onlyN_ite (onlyN_next h_s) (onlyN_next (only_ite (State.downWord_only h_s (inT rfl hsub)) (State.upWord_only h_s hsub)))

theorem execOpenWireSet_only {fs : List Part} {s0 : State} {di s} (h_s : Only fs s0 s) (hsub : In [.dis] fs) :
    OnlyN fs s0 (execOpenWireSet di s) := by
  unfold execOpenWireSet
  exact onlyN_ite (onlyN_next (State.onDi_only h_s hsub)) (onlyN_next h_s)

theorem execOpenWireClear_only {fs : List Part} {s0 : State} {di s} (h_s : Only fs s0 s) (hsub : In [.dis] fs) :
    OnlyN fs s0 (execOpenWireClear di s) := by
  unfold execOpenWireClear
  exact onlyN_ite (onlyN_next (State.onDi_only h_s hsub)) (onlyN_next h_s)

end Sys2Proof.Machine
end

