-- ==== Sys2Proof/Laws/OnlyHoist.lean ====
section
/-!
SUPPORT. What the operations of Machine/Hoist.lean may change: one lemma each, from any state reached.
-/
namespace Sys2Proof.Machine

open Sys2Proof.Safety

theorem State.shareMismatch_only {fs : List Part} {s0 : State} {s g on} (h_s : Only fs s0 s) (hsub : In [.regs, .axes, .shares, .safety, .trace, .log] fs) :
    Only fs s0 (State.shareMismatch s g on) := by
  unfold State.shareMismatch
  extract_lets +onlyGivenNames v0
  clear_value v0
  extract_lets +onlyGivenNames v1
  have h1 : Only fs s0 v1 := State.onSh_only h_s (inT rfl hsub)
  clear_value v1
  exact only_ite (forL_only (fun _ _ h2 => State.raise_only h2 (inT rfl hsub)) (State.pfault_only h1 (inT rfl hsub))) (only_ite (forL_only (fun _ _ h3 => State.clearSrc_only h3 (inT rfl hsub)) h1) h1)

theorem State.applyShare_only {fs : List Part} {s0 : State} {s g t present} (h_s : Only fs s0 s) (hsub : In [.regs, .axes, .shares, .safety, .trace, .log] fs) :
    Only fs s0 (State.applyShare s g t present) := by
  unfold State.applyShare
  extract_lets +onlyGivenNames v0
  clear_value v0
  extract_lets +onlyGivenNames v1
  clear_value v1
  extract_lets +onlyGivenNames v2
  clear_value v2
  extract_lets +onlyGivenNames v3
  clear_value v3
  extract_lets +onlyGivenNames v4
  have h4 : Only fs s0 v4 := only_ite (State.event_only h_s (inT rfl hsub)) h_s
  clear_value v4
  extract_lets +onlyGivenNames v5
  have h5 : Only fs s0 v5 := only_ite (forL_only (fun _ _ h6 => State.raise_only h6 (inT rfl hsub)) (State.pfault_only h4 (inT rfl hsub))) (only_ite h4 (forL_only (fun _ _ h7 => State.clearSrc_only h7 (inT rfl hsub)) h4))
  clear_value v5
  exact State.onSh_only h5 (inT rfl hsub)

theorem State.leaderHeard_only {fs : List Part} {s0 : State} {s g} (h_s : Only fs s0 s) (hsub : In [.safety] fs) :
    Only fs s0 (State.leaderHeard s g) := by
  unfold State.leaderHeard
  exact forL_only (fun _ _ h0 => State.clearSrc_only h0 hsub) h_s

theorem State.shareMiss_only {fs : List Part} {s0 : State} {s g} (h_s : Only fs s0 s) (hsub : In [.regs, .axes, .shares, .safety, .trace, .log] fs) :
    Only fs s0 (State.shareMiss s g) := by
  unfold State.shareMiss
  extract_lets +onlyGivenNames v0
  have h0 : Only fs s0 v0 := State.onSh_only h_s (inT rfl hsub)
  clear_value v0
  extract_lets +onlyGivenNames v1
  have h1 : Only fs s0 v1 := State.incHalf_only h0 (inT rfl hsub)
  clear_value v1
  exact only_ite (forL_only (fun _ _ h2 => State.raise_only h2 (inT rfl hsub)) (State.pfault_only h1 (inT rfl hsub))) h1

theorem State.sharePublish_only {fs : List Part} {s0 : State} {s g} (h_s : Only fs s0 s) (hsub : In [.regs, .axes, .shares, .safety, .trace, .log] fs) :
    Only1 fs s0 (State.sharePublish s g) := by
  unfold State.sharePublish
  extract_lets +onlyGivenNames v0
  clear_value v0
  extract_lets +onlyGivenNames v1
  clear_value v1
  extract_lets +onlyGivenNames v2
  clear_value v2
  extract_lets +onlyGivenNames v3
  clear_value v3
  extract_lets +onlyGivenNames v4
  have h4 : Only fs s0 v4 := State.onSh_only h_s (inT rfl hsub)
  clear_value v4
  extract_lets +onlyGivenNames v5
  clear_value v5
  extract_lets +onlyGivenNames v6
  have h6 : Only fs s0 v6 := State.onSh_only h4 (inT rfl hsub)
  clear_value v6
  extract_lets +onlyGivenNames v7
  clear_value v7
  extract_lets +onlyGivenNames v8
  clear_value v8
  extract_lets +onlyGivenNames v9
  clear_value v9
  extract_lets +onlyGivenNames v10
  clear_value v10
  refine only1_ite (only1_mk h_s) ?_
  refine only1_ite (only1_mk (State.applyShare_only h_s hsub)) ?_
  split
  · rename_i x11 t12 x13 e14
    have h15 := only1_fst (only1_ite (only1_mk (State.onSh_only h6 (inT rfl hsub))) (only1_mk h6)) e14
    extract_lets +onlyGivenNames v16
    have h16 : Only fs s0 v16 := by
      unfold v16
      split
      · exact State.leaderHeard_only (State.applyShare_only h15 hsub) (inT rfl hsub)
      · exact State.shareMiss_only h15 hsub
    clear_value v16
    exact only1_mk (State.onSh_only h16 (inT rfl hsub))

theorem execShareRef_only {fs : List Part} {s0 : State} {port node group tTot present stamp sq bridged s} (h_s : Only fs s0 s) (hsub : In [.regs, .axes, .shares, .safety, .trace, .log] fs) :
    OnlyN fs s0 (execShareRef port node group tTot present stamp sq bridged s) := by
  unfold execShareRef
  extract_lets +onlyGivenNames v0
  clear_value v0
  refine onlyN_ite (onlyN_next h_s) ?_
  split
  · exact onlyN_next h_s
  · extract_lets +onlyGivenNames v1
    clear_value v1
    extract_lets +onlyGivenNames v2
    clear_value v2
    extract_lets +onlyGivenNames v3
    have h3 : Only fs s0 v3 := only_ite (State.shareMismatch_only h_s hsub) h_s
    clear_value v3
    extract_lets +onlyGivenNames v4
    have h4 : Only fs s0 v4 := State.onSh_only h3 (inT rfl hsub)
    clear_value v4
    extract_lets +onlyGivenNames v5
    clear_value v5
    extract_lets +onlyGivenNames v6
    clear_value v6
    exact onlyN_ite (onlyN_next (State.incHalf_only h4 (inT rfl hsub))) (onlyN_next (State.onSh_only h4 (inT rfl hsub)))

theorem execShareStat_only {fs : List Part} {s0 : State} {port node group slots crc s} (h_s : Only fs s0 s) (hsub : In [.regs, .axes, .shares, .safety, .trace, .log] fs) :
    OnlyN fs s0 (execShareStat port node group slots crc s) := by
  unfold execShareStat
  extract_lets +onlyGivenNames v0
  clear_value v0
  refine onlyN_ite (onlyN_next h_s) ?_
  split
  · exact onlyN_next h_s
  · extract_lets +onlyGivenNames v1
    clear_value v1
    exact onlyN_ite (onlyN_next (State.onSh_only h_s (inT rfl hsub))) (onlyN_ite (onlyN_next (State.shareMismatch_only h_s hsub)) (onlyN_next h_s))

theorem State.ladderStep_only {fs : List Part} {s0 : State} {s a n} (h_s : Only fs s0 s) (hsub : In [.regs, .axes, .trace, .log] fs) :
    Only fs s0 (State.ladderStep s a n) := by
  unfold State.ladderStep
  exact State.logAdd_only (State.event_only (State.setLastSrc_only (State.onAx_only h_s (inT rfl hsub)) (inT rfl hsub)) (inT rfl hsub)) (inT rfl hsub)

theorem State.ladderBoundary_only {fs : List Part} {s0 : State} {s a} (h_s : Only fs s0 s) (hsub : In [.regs, .axes, .mots, .legs, .trace, .log, .timers] fs) :
    Only fs s0 (State.ladderBoundary s a) := by
  unfold State.ladderBoundary
  extract_lets +onlyGivenNames v0
  clear_value v0
  extract_lets +onlyGivenNames v1
  clear_value v1
  extract_lets +onlyGivenNames v2
  clear_value v2
  extract_lets +onlyGivenNames v3
  clear_value v3
  extract_lets +onlyGivenNames v4
  have h4 : Only fs s0 v4 := only_ite (State.onAx_only h_s (inT rfl hsub)) h_s
  clear_value v4
  extract_lets +onlyGivenNames v5
  clear_value v5
  extract_lets +onlyGivenNames v6
  have h6 : Only fs s0 v6 := State.ladderStep_only h_s (inT rfl hsub)
  clear_value v6
  extract_lets +onlyGivenNames v7
  have h7 : Only fs s0 v7 := State.onAx_only h6 (inT rfl hsub)
  clear_value v7
  extract_lets +onlyGivenNames v8
  have h8 : Only fs s0 v8 := State.stopT_only h7 (inT rfl hsub)
  clear_value v8
  extract_lets +onlyGivenNames v9
  clear_value v9
  extract_lets +onlyGivenNames v10
  have h10 : Only fs s0 v10 := State.onAx_only (State.sbcIssue_only (State.ladderStep_only h_s (inT rfl hsub)) (inT rfl hsub)) (inT rfl hsub)
  clear_value v10
  extract_lets +onlyGivenNames v11
  have h11 : Only fs s0 v11 := State.ladderStep_only h_s (inT rfl hsub)
  clear_value v11
  extract_lets +onlyGivenNames v12
  have h12 : Only fs s0 v12 := only_ite (only_ite (State.onAx_only h4 (inT rfl hsub)) h4) (only_ite (only_ite (State.sbcIssue_only h8 (inT rfl hsub)) h8) (only_ite (only_ite h10 (State.ss1Start_only h10 (inT rfl hsub))) (only_ite (only_ite (State.onAx_only h11 (inT rfl hsub)) h11) h_s)))
  clear_value v12
  exact only_ite (only_ite (only_ite h12 (State.startT_only h12 (inT rfl hsub))) (State.stopT_only h12 (inT rfl hsub))) h12

theorem execAscRelease_only {fs : List Part} {s0 : State} {axis s} (h_s : Only fs s0 s) (hsub : In [.time, .axes, .mots, .legs, .timers] fs) :
    OnlyN fs s0 (execAscRelease axis s) := by
  unfold execAscRelease
  extract_lets +onlyGivenNames v0
  clear_value v0
  exact onlyN_next (State.expire_only h_s (fun _ h1 => only_ite (State.onAx_only (State.gatesOff_only h1 (inT rfl hsub)) (inT rfl hsub)) h1) (inT rfl hsub))

end Sys2Proof.Machine
end

