-- ==== Sys2Proof/Laws/OnlyCan.lean ====
section
/-!
SUPPORT. What the operations of Machine/Can.lean may change: one lemma each, from any state reached.
-/
namespace Sys2Proof.Machine

open Sys2Proof.Safety

theorem State.traceCan_only {fs : List Part} {s0 : State} {s p f} (h_s : Only fs s0 s) (hsub : In [.regs, .trace] fs) :
    Only fs s0 (State.traceCan s p f) := by
  unfold State.traceCan
  exact State.traceKind_only h_s hsub

theorem State.rxOverflow_only {fs : List Part} {s0 : State} {s p} (h_s : Only fs s0 s) (hsub : In [.regs, .trace] fs) :
    Only fs s0 (State.rxOverflow s p) := by
  unfold State.rxOverflow
  exact State.event_only (State.inc16_only h_s (inT rfl hsub)) hsub

theorem State.rxPut_only {fs : List Part} {s0 : State} {s p i ws} (h_s : Only fs s0 s) (hsub : In [.mem, .eccBad, .cans] fs) :
    Only fs s0 (State.rxPut s p i ws) := by
  unfold State.rxPut
  exact State.onCn_only (State.putWords_only h_s (inT rfl hsub)) (inT rfl hsub)

theorem State.rxWindow_only {fs : List Part} {s0 : State} {s p ws} (h_s : Only fs s0 s) (hsub : In [.regs, .mem, .eccBad, .cans, .trace] fs) :
    Only fs s0 (State.rxWindow s p ws) := by
  unfold State.rxWindow
  extract_lets +onlyGivenNames v0
  clear_value v0
  extract_lets +onlyGivenNames v1
  clear_value v1
  extract_lets +onlyGivenNames v2
  have h2 : Only fs s0 v2 := State.rxOverflow_only h_s (inT rfl hsub)
  clear_value v2
  refine only_ite (State.event_only (State.rxPut_only h_s (inT rfl hsub)) (inT rfl hsub)) ?_
  refine only_ite h2 ?_
  split
  · exact State.event_only (State.rxPut_only h2 (inT rfl hsub)) (inT rfl hsub)
  · exact h2

theorem State.rxDma_only {fs : List Part} {s0 : State} {s p only ws} (h_s : Only fs s0 s) (hsub : In [.regs, .dma, .trace] fs) :
    Only fs s0 (State.rxDma s p only ws) := by
  unfold State.rxDma
  extract_lets +onlyGivenNames v0
  clear_value v0
  exact only_ite (only_ite (State.rxOverflow_only h_s (inT rfl hsub)) h_s) (State.event_only (State.onDm_only h_s (inT rfl hsub)) (inT rfl hsub))

theorem State.deliver_only {fs : List Part} {s0 : State} {s p f bilva} (h_s : Only fs s0 s) (hsub : In [.regs, .mem, .eccBad, .dma, .cans, .trace] fs) :
    Only fs s0 (State.deliver s p f bilva) := by
  unfold State.deliver
  extract_lets +onlyGivenNames v0
  clear_value v0
  extract_lets +onlyGivenNames v1
  have h1 : Only fs s0 v1 := State.onCn_only h_s (inT rfl hsub)
  clear_value v1
  extract_lets +onlyGivenNames v2
  clear_value v2
  split
  · exact State.rxWindow_only h1 (inT rfl hsub)
  · exact State.rxDma_only h1 (inT rfl hsub)
  · exact State.rxDma_only (State.rxWindow_only h1 (inT rfl hsub)) (inT rfl hsub)
  · exact h1

theorem State.nodeConflict_only {fs : List Part} {s0 : State} {s} (h_s : Only fs s0 s) (hsub : In [.regs, .axes, .safety, .trace, .log] fs) :
    Only fs s0 (State.nodeConflict s) := by
  unfold State.nodeConflict
  exact State.raise_only (State.pfault_only (State.event_only h_s (inT rfl hsub)) (inT rfl hsub)) hsub

theorem State.toForward_only {fs : List Part} {s0 : State} {s q f} (h_s : Only fs s0 s) (hsub : In [.regs, .cans, .trace] fs) :
    Only fs s0 (State.toForward s q f) := by
  unfold State.toForward
  extract_lets +onlyGivenNames v0
  clear_value v0
  extract_lets +onlyGivenNames v1
  have h1 : Only fs s0 v1 := State.onCn_only h_s (inT rfl hsub)
  clear_value v1
  exact only_ite (State.event_only (State.inc16_only h1 (inT rfl hsub)) (inT rfl hsub)) h1

theorem State.bilvaTake_only {fs : List Part} {s0 : State} {s p f} (h_s : Only fs s0 s) (hsub : In [.regs, .mem, .eccBad, .axes, .dma, .cans, .safety, .trace, .log] fs) :
    Only fs s0 (State.bilvaTake s p f) := by
  unfold State.bilvaTake
  extract_lets +onlyGivenNames v0
  clear_value v0
  extract_lets +onlyGivenNames v1
  clear_value v1
  extract_lets +onlyGivenNames v2
  have h2 : Only fs s0 v2 := only_ite (State.toForward_only h_s (inT rfl hsub)) h_s
  clear_value v2
  exact only_ite (State.nodeConflict_only h_s (inT rfl hsub)) (only_ite (State.event_only (State.inc16_only h_s (inT rfl hsub)) (inT rfl hsub)) (only_ite (State.deliver_only h2 (inT rfl hsub)) h2))

theorem State.canReceive_only {fs : List Part} {s0 : State} {s p f} (h_s : Only fs s0 s) (hsub : In [.regs, .mem, .eccBad, .axes, .dma, .cans, .safety, .trace, .log] fs) :
    Only fs s0 (State.canReceive s p f) := by
  unfold State.canReceive
  extract_lets +onlyGivenNames v0
  clear_value v0
  extract_lets +onlyGivenNames v1
  have h1 : Only fs s0 v1 := State.onCn_only h_s (inT rfl hsub)
  clear_value v1
  extract_lets +onlyGivenNames v2
  have h2 : Only fs s0 v2 := State.onLv_only h1 (inT rfl hsub)
  clear_value v2
  extract_lets +onlyGivenNames v3
  have h3 : Only fs s0 v3 := State.traceCan_only h2 (inT rfl hsub)
  clear_value v3
  exact only_ite (State.bilvaTake_only h3 hsub) (State.deliver_only h3 (inT rfl hsub))

theorem execCanFrameReceived_only {fs : List Part} {s0 : State} {port f s} (h_s : Only fs s0 s) (hsub : In [.regs, .mem, .eccBad, .axes, .dma, .cans, .safety, .trace, .log] fs) :
    OnlyN fs s0 (execCanFrameReceived port f s) := by
  unfold execCanFrameReceived
  extract_lets +onlyGivenNames v0
  clear_value v0
  exact onlyN_ite (onlyN_next h_s) (onlyN_next (State.canReceive_only h_s hsub))

theorem State.rxLock_only {fs : List Part} {s0 : State} {s p i r} (h_s : Only fs s0 s) (hsub : In [.cans] fs) :
    Only fs s0 (State.rxLock s p i r) :=  by
  have h1 : Only fs s0 (match (s.cn p).locks.find? fun l => l.2 = r with
      | some l => if l.1 = i then s else s.onCn p fun x => { x with locks := x.locks.filter fun l => l.2 ≠ r }
      | none => s) := by
    split
    · exact only_ite h_s (State.onCn_only h_s (inT rfl hsub))
    · exact h_s
  exact only_ite (State.onCn_only h1 (inT rfl hsub)) h1

theorem State.rxRelease_only {fs : List Part} {s0 : State} {s p i r} (h_s : Only fs s0 s) (hsub : In [.cans] fs) :
    Only fs s0 (State.rxRelease s p i r) := by
  unfold State.rxRelease
  exact only_ite (State.onCn_only h_s hsub) h_s

theorem execRxSlotLock_only {fs : List Part} {s0 : State} {port slot reader s} (h_s : Only fs s0 s) (hsub : In [.cans] fs) :
    OnlyN fs s0 (execRxSlotLock port slot reader s) := by
  unfold execRxSlotLock
  exact onlyN_ite (onlyN_next (State.rxLock_only h_s hsub)) (onlyN_next h_s)

theorem execRxSlotRelease_only {fs : List Part} {s0 : State} {port slot reader s} (h_s : Only fs s0 s) (hsub : In [.cans] fs) :
    OnlyN fs s0 (execRxSlotRelease port slot reader s) := by
  unfold execRxSlotRelease
  exact onlyN_ite (onlyN_next (State.rxRelease_only h_s hsub)) (onlyN_next h_s)

theorem State.msgRead_only {fs : List Part} {s0 : State} {s a r} (h_s : Only fs s0 s) (hsub : In [.cans] fs) :
    Only fs s0 (State.msgRead s a r) := by
  unfold State.msgRead
  extract_lets +onlyGivenNames v0
  clear_value v0
  extract_lets +onlyGivenNames v1
  clear_value v1
  extract_lets +onlyGivenNames v2
  clear_value v2
  exact only_ite h_s (only_ite h_s (only_ite (State.rxLock_only h_s hsub) (only_ite (State.rxRelease_only h_s hsub) h_s)))

theorem State.txStart_only {fs : List Part} {s0 : State} {s p} (h_s : Only fs s0 s) (hsub : In [.cans] fs) :
    Only fs s0 (State.txStart s p) := by
  unfold State.txStart
  refine only_ite h_s ?_
  split
  · split
    · exact State.onCn_only h_s hsub
    · exact h_s
  · exact h_s

theorem State.canTxReq_only {fs : List Part} {s0 : State} {s m p v} (h_s : Only fs s0 s) (hsub : In [.regs, .host, .mgr, .cans, .trace, .log] fs) :
    Only fs s0 (State.canTxReq s m p v) := by
  unfold State.canTxReq
  refine State.txStart_only ?_ (inT rfl hsub)
  refine forN_only ?_ h_s
  intro x3 t4 h5
  refine only_ite h5 ?_
  split
  · exact State.refuseBy_only h5 (inT rfl hsub)
  · exact State.onCn_only h5 (inT rfl hsub)

theorem State.canTxAbort_only {fs : List Part} {s0 : State} {s p v} (h_s : Only fs s0 s) (hsub : In [.cans] fs) :
    Only fs s0 (State.canTxAbort s p v) := by
  unfold State.canTxAbort
  exact State.onCn_only h_s hsub

theorem execCanTxRequest_only {fs : List Part} {s0 : State} {port v s} (h_s : Only fs s0 s) (hsub : In [.regs, .host, .mgr, .cans, .trace, .log] fs) :
    OnlyN fs s0 (execCanTxRequest port v s) := by
  unfold execCanTxRequest
  exact onlyN_ite (onlyN_next (State.canTxReq_only (State.touch_only h_s (inT rfl hsub)) hsub)) (onlyN_next h_s)

theorem execCanTxAbort_only {fs : List Part} {s0 : State} {port v s} (h_s : Only fs s0 s) (hsub : In [.host, .mgr, .cans] fs) :
    OnlyN fs s0 (execCanTxAbort port v s) := by
  unfold execCanTxAbort
  exact onlyN_ite (onlyN_next (State.canTxAbort_only (State.touch_only h_s (inT rfl hsub)) (inT rfl hsub))) (onlyN_next h_s)

theorem State.bilvaSend_only {fs : List Part} {s0 : State} {s p prio type sub data sync} (h_s : Only fs s0 s) (hsub : In [.cans] fs) :
    Only fs s0 (State.bilvaSend s p prio type sub data sync) := by
  unfold State.bilvaSend
  extract_lets +onlyGivenNames v0
  clear_value v0
  extract_lets +onlyGivenNames v1
  clear_value v1
  extract_lets +onlyGivenNames v2
  clear_value v2
  exact only_ite h_s (State.onCn_only h_s hsub)

theorem State.sendFollowUp_only {fs : List Part} {s0 : State} {s p q t} (h_s : Only fs s0 s) (hsub : In [.cans] fs) :
    Only fs s0 (State.sendFollowUp s p q t) := by
  unfold State.sendFollowUp
  extract_lets +onlyGivenNames v0
  clear_value v0
  extract_lets +onlyGivenNames v1
  extract_lets +onlyGivenNames v2
  clear_value v2
  extract_lets +onlyGivenNames v3
  clear_value v3
  exact State.bilvaSend_only h_s hsub

theorem execCanTxDone_only {fs : List Part} {s0 : State} {port tdc s} (h_s : Only fs s0 s) (hsub : In [.regs, .mem, .eccBad, .axes, .dma, .cans, .safety, .trace, .log] fs) :
    OnlyN fs s0 (execCanTxDone port tdc s) := by
  unfold execCanTxDone
  extract_lets +onlyGivenNames v0
  clear_value v0
  extract_lets +onlyGivenNames v1
  clear_value v1
  split
  · exact onlyN_next h_s
  · extract_lets +onlyGivenNames v2
    clear_value v2
    extract_lets +onlyGivenNames v3
    clear_value v3
    extract_lets +onlyGivenNames v4
    clear_value v4
    extract_lets +onlyGivenNames v5
    have h5 : Only fs s0 v5 := State.onLv_only h_s (inT rfl hsub)
    clear_value v5
    extract_lets +onlyGivenNames v6
    have h6 : Only fs s0 v6 := only_ite (State.setLv_only h5 (inT rfl hsub)) h5
    clear_value v6
    extract_lets +onlyGivenNames v7
    have h7 : Only fs s0 v7 := State.traceCan_only h6 (inT rfl hsub)
    clear_value v7
    extract_lets +onlyGivenNames v8
    have h8 : Only fs s0 v8 := State.onCn_only h7 (inT rfl hsub)
    clear_value v8
    extract_lets +onlyGivenNames v9
    have h9 : Only fs s0 v9 := State.onCn_only h8 (inT rfl hsub)
    clear_value v9
    extract_lets +onlyGivenNames v10
    have h10 : Only fs s0 v10 := only_ite (State.onLv_only h9 (inT rfl hsub)) h9
    clear_value v10
    extract_lets +onlyGivenNames v11
    have h11 : Only fs s0 v11 := by
      unfold v11
      refine only_ite (State.event_only (State.onLv_only (State.onCn_only h8 (inT rfl hsub)) (inT rfl hsub)) (inT rfl hsub)) ?_
      split
      · exact State.sendFollowUp_only h10 (inT rfl hsub)
      · exact h10
    clear_value v11
    extract_lets +onlyGivenNames v12
    have h12 : Only fs s0 v12 := only_ite (State.canReceive_only h11 hsub) h11
    clear_value v12
    exact onlyN_ite (onlyN_next h_s) (onlyN_next (State.txStart_only h12 (inT rfl hsub)))

theorem State.canOff_only {fs : List Part} {s0 : State} {s p} (h_s : Only fs s0 s) (hsub : In [.regs, .stage, .axes, .fbs, .mots, .legs, .lanes, .cans, .dos, .safety, .trace, .log, .chans, .timers] fs) :
    Only fs s0 (State.canOff s p) := by
  unfold State.canOff
  extract_lets +onlyGivenNames v0
  clear_value v0
  extract_lets +onlyGivenNames v1
  have h1 : Only fs s0 v1 := State.onCn_only h_s (inT rfl hsub)
  clear_value v1
  exact only_ite h_s (State.onsetWith_only (State.raise_only (State.pfault_only (State.event_only h1 (inT rfl hsub)) (inT rfl hsub)) (inT rfl hsub)) hsub)

theorem execCanBusoff_only {fs : List Part} {s0 : State} {port s} (h_s : Only fs s0 s) (hsub : In [.regs, .stage, .axes, .fbs, .mots, .legs, .lanes, .cans, .dos, .safety, .trace, .log, .chans, .timers] fs) :
    OnlyN fs s0 (execCanBusoff port s) := by
  unfold execCanBusoff
  extract_lets +onlyGivenNames v0
  clear_value v0
  exact onlyN_ite (onlyN_next h_s) (onlyN_next (State.canOff_only (State.onCn_only h_s (inT rfl hsub)) hsub))

theorem execCanBusError_only {fs : List Part} {s0 : State} {port tec rec integ s} (h_s : Only fs s0 s) (hsub : In [.regs, .stage, .axes, .fbs, .mots, .legs, .lanes, .cans, .dos, .safety, .trace, .log, .chans, .timers] fs) :
    OnlyN fs s0 (execCanBusError port tec rec integ s) := by
  unfold execCanBusError
  extract_lets +onlyGivenNames v0
  clear_value v0
  extract_lets +onlyGivenNames v1
  clear_value v1
  extract_lets +onlyGivenNames v2
  clear_value v2
  extract_lets +onlyGivenNames v3
  clear_value v3
  extract_lets +onlyGivenNames v4
  clear_value v4
  extract_lets +onlyGivenNames v5
  clear_value v5
  extract_lets +onlyGivenNames v6
  clear_value v6
  extract_lets +onlyGivenNames v7
  clear_value v7
  extract_lets +onlyGivenNames v8
  have h8 : Only fs s0 v8 := only_ite (State.event_only h_s (inT rfl hsub)) h_s
  clear_value v8
  extract_lets +onlyGivenNames v9
  have h9 : Only fs s0 v9 := only_ite (State.event_only h8 (inT rfl hsub)) h8
  clear_value v9
  extract_lets +onlyGivenNames v10
  have h10 : Only fs s0 v10 := State.onCn_only h9 (inT rfl hsub)
  clear_value v10
  extract_lets +onlyGivenNames v11
  have h11 : Only fs s0 v11 := by
    unfold v11
    split
    · exact only_ite (State.onCn_only h10 (inT rfl hsub)) h10
    · exact h10
  clear_value v11
  exact onlyN_ite (onlyN_next h_s) (onlyN_ite (onlyN_next (State.onCn_only h_s (inT rfl hsub))) (onlyN_ite (onlyN_next h_s) (onlyN_next (only_ite (State.canOff_only h11 hsub) h11))))

theorem State.canRecover_only {fs : List Part} {s0 : State} {s p} (h_s : Only fs s0 s) (hsub : In [.cans, .chans] fs) :
    Only fs s0 (State.canRecover s p) := by
  unfold State.canRecover
  extract_lets +onlyGivenNames v0
  clear_value v0
  exact only_ite (State.onChan_only (State.onCn_only h_s (inT rfl hsub)) (inT rfl hsub)) h_s

theorem execCanRecover_only {fs : List Part} {s0 : State} {port s} (h_s : Only fs s0 s) (hsub : In [.host, .mgr, .cans, .chans] fs) :
    OnlyN fs s0 (execCanRecover port s) := by
  unfold execCanRecover
  exact onlyN_ite (onlyN_next (State.canRecover_only (State.touch_only h_s (inT rfl hsub)) (inT rfl hsub))) (onlyN_next h_s)

theorem execCanRecovered_only {fs : List Part} {s0 : State} {port s} (h_s : Only fs s0 s) (hsub : In [.regs, .cans, .safety, .trace, .chans] fs) :
    OnlyN fs s0 (execCanRecovered port s) := by
  unfold execCanRecovered
  extract_lets +onlyGivenNames v0
  clear_value v0
  extract_lets +onlyGivenNames v1
  have h1 : Only fs s0 v1 := State.onCn_only h_s (inT rfl hsub)
  clear_value v1
  extract_lets +onlyGivenNames v2
  have h2 : Only fs s0 v2 := State.backInService_only (State.event_only h1 (inT rfl hsub)) (inT rfl hsub)
  clear_value v2
  extract_lets +onlyGivenNames v3
  have h3 : Only fs s0 v3 := only_ite h2 (State.clearSrc_only h2 (inT rfl hsub))
  clear_value v3
  exact onlyN_ite (onlyN_next h_s) (onlyN_next (State.txStart_only h3 (inT rfl hsub)))

theorem execBilvaForward_only {fs : List Part} {s0 : State} {port s} (h_s : Only fs s0 s) (hsub : In [.cans] fs) :
    OnlyN fs s0 (execBilvaForward port s) := by
  unfold execBilvaForward
  extract_lets +onlyGivenNames v0
  clear_value v0
  split
  · exact onlyN_next h_s
  · exact onlyN_ite (onlyN_next h_s) (onlyN_next (State.onCn_only h_s hsub))

end Sys2Proof.Machine
end

