-- ==== Sys2Proof/Laws/OnlyBilva.lean ====
section
/-!
SUPPORT. What the operations of Machine/Bilva.lean may change: one lemma each, from any state reached.
-/
namespace Sys2Proof.Machine

open Sys2Proof.Safety

theorem State.bilvaAll_only {fs : List Part} {s0 : State} {s prio type sub data} (h_s : Only fs s0 s) (hsub : In [.cans] fs) :
    Only fs s0 (State.bilvaAll s prio type sub data) := by
  unfold State.bilvaAll
  exact forL_only (fun _ _ h0 => State.bilvaSend_only h0 hsub) h_s

theorem State.setNt_only {fs : List Part} {s0 : State} {s x} (h_s : Only fs s0 s) (hsub : In [.regs, .time, .stage, .axes, .safety, .trace, .log] fs) :
    Only fs s0 (State.setNt s x) := by
  unfold State.setNt
  extract_lets +onlyGivenNames v0
  clear_value v0
  extract_lets +onlyGivenNames v1
  have h1 : Only fs s0 v1 := State.onTime_only h_s (inT rfl hsub)
  clear_value v1
  exact only_ite (State.cancelStrikeAt_only (State.raise_only h1 (inT rfl hsub)) (inT rfl hsub)) (only_ite (State.clearSrc_only h1 (inT rfl hsub)) h1)

theorem State.ntJump_only {fs : List Part} {s0 : State} {s} (h_s : Only fs s0 s) (hsub : In [.regs, .stage, .trace] fs) :
    Only fs s0 (State.ntJump s) := by
  unfold State.ntJump
  exact State.cancelStrikeAt_only h_s hsub

theorem State.setRate_only {fs : List Part} {s0 : State} {s rho clamped} (h_s : Only fs s0 s) (hsub : In [.time] fs) :
    Only fs s0 (State.setRate s rho clamped) := by
  unfold State.setRate
  extract_lets +onlyGivenNames v0
  clear_value v0
  exact State.onTime_only h_s hsub

theorem State.relockNode_only {fs : List Part} {s0 : State} {s} (h_s : Only fs s0 s) (hsub : In [.regs, .time, .stage, .axes, .safety, .trace, .log, .timers] fs) :
    Only fs s0 (State.relockNode s) := by
  unfold State.relockNode
  extract_lets +onlyGivenNames v0
  have h0 : Only fs s0 v0 := State.onTime_only h_s (inT rfl hsub)
  clear_value v0
  extract_lets +onlyGivenNames v1
  have h1 : Only fs s0 v1 := State.stopT_only h0 (inT rfl hsub)
  clear_value v1
  exact only_ite h1 (State.ntJump_only (State.setNt_only h1 (inT rfl hsub)) (inT rfl hsub))

theorem State.relockBy_only {fs : List Part} {s0 : State} {s m} (h_s : Only fs s0 s) (hsub : In [.regs, .time, .stage, .host, .mgr, .axes, .safety, .trace, .log, .timers] fs) :
    Only fs s0 (State.relockBy s m) := by
  unfold State.relockBy
  exact only_ite (State.refuseBy_only h_s (inT rfl hsub)) (State.relockNode_only h_s (inT rfl hsub))

theorem execRelock_only {fs : List Part} {s0 : State} {s} (h_s : Only fs s0 s) (hsub : In [.regs, .time, .stage, .host, .mgr, .axes, .safety, .trace, .log, .timers] fs) :
    OnlyN fs s0 (execRelock s) := by
  unfold execRelock
  exact onlyN_ite (onlyN_next (State.relockBy_only (State.touch_only h_s (inT rfl hsub)) hsub)) (onlyN_next h_s)

theorem State.ntSetBy_only {fs : List Part} {s0 : State} {s m} (h_s : Only fs s0 s) (hsub : In [.regs, .time, .stage, .host, .mgr, .trace, .log] fs) :
    Only fs s0 (State.ntSetBy s m) := by
  unfold State.ntSetBy
  extract_lets +onlyGivenNames v0
  clear_value v0
  exact only_ite (State.refuseBy_only h_s (inT rfl hsub)) (State.ntJump_only (State.onTime_only h_s (inT rfl hsub)) (inT rfl hsub))

theorem execNtSet_only {fs : List Part} {s0 : State} {s} (h_s : Only fs s0 s) (hsub : In [.regs, .time, .stage, .host, .mgr, .trace, .log] fs) :
    OnlyN fs s0 (execNtSet s) := by
  unfold execNtSet
  exact onlyN_ite (onlyN_next (State.ntSetBy_only (State.touch_only h_s (inT rfl hsub)) hsub)) (onlyN_next h_s)

theorem State.bcastBy_only {fs : List Part} {s0 : State} {s m} (h_s : Only fs s0 s) (hsub : In [.regs, .time, .host, .mgr, .cans, .trace, .log] fs) :
    Only fs s0 (State.bcastBy s m) := by
  unfold State.bcastBy
  extract_lets +onlyGivenNames v0
  have h0 : Only fs s0 v0 := State.onTime_only h_s (inT rfl hsub)
  clear_value v0
  exact only_ite (State.refuseBy_only h_s (inT rfl hsub)) (State.bilvaAll_only h0 (inT rfl hsub))

theorem execBcastRelock_only {fs : List Part} {s0 : State} {s} (h_s : Only fs s0 s) (hsub : In [.regs, .time, .host, .mgr, .cans, .trace, .log] fs) :
    OnlyN fs s0 (execBcastRelock s) := by
  unfold execBcastRelock
  exact onlyN_ite (onlyN_next (State.bcastBy_only (State.touch_only h_s (inT rfl hsub)) hsub)) (onlyN_next h_s)

theorem State.stepGenHeard_only {fs : List Part} {s0 : State} {s g} (h_s : Only fs s0 s) (hsub : In [.regs, .time, .stage, .axes, .safety, .trace, .log, .timers] fs) :
    Only fs s0 (State.stepGenHeard s g) := by
  unfold State.stepGenHeard
  extract_lets +onlyGivenNames v0
  clear_value v0
  extract_lets +onlyGivenNames v1
  have h1 : Only fs s0 v1 := State.onTime_only h_s (inT rfl hsub)
  clear_value v1
  exact only_ite h_s (only_ite h1 (State.relockNode_only h1 hsub))

theorem State.bilvaFrom_only {fs : List Part} {s0 : State} {s p node act} (h_s : Only fs s0 s) (h_act : ∀ t0, Only fs s0 t0 → Only fs s0 (act t0)) (hsub : In [.regs, .axes, .safety, .trace, .log] fs) :
    Only fs s0 (State.bilvaFrom s p node act) := by
  unfold State.bilvaFrom
  exact only_ite h_s (only_ite (State.nodeConflict_only h_s hsub) (h_act _ h_s))

theorem execTimeCtrl_only {fs : List Part} {s0 : State} {port node sub stepGen s} (h_s : Only fs s0 s) (hsub : In [.regs, .time, .stage, .axes, .safety, .trace, .log, .timers] fs) :
    OnlyN fs s0 (execTimeCtrl port node sub stepGen s) := by
  unfold execTimeCtrl
  exact onlyN_next (State.bilvaFrom_only h_s (fun _ h0 => only_ite (State.stepGenHeard_only h0 hsub) h0) (inT rfl hsub))

theorem execBilvaSync_only {fs : List Part} {s0 : State} {port node sq s} (h_s : Only fs s0 s) (hsub : In [.regs, .time, .axes, .safety, .trace, .log] fs) :
    OnlyN fs s0 (execBilvaSync port node sq s) := by
  unfold execBilvaSync
  exact onlyN_next (State.bilvaFrom_only h_s (fun _ h0 => only_ite h0 (State.onTime_only h0 (inT rfl hsub))) (inT rfl hsub))

theorem State.jumpRefused_only {fs : List Part} {s0 : State} {s new} (h_s : Only fs s0 s) (hsub : In [.regs, .time, .stage, .axes, .safety, .trace, .log, .timers] fs) :
    Only fs s0 (State.jumpRefused s new) := by
  unfold State.jumpRefused
  extract_lets +onlyGivenNames v0
  have h0 : Only fs s0 v0 := State.onLv_only h_s (inT rfl hsub)
  clear_value v0
  extract_lets +onlyGivenNames v1
  have h1 : Only fs s0 v1 := State.ntJump_only (State.raisePulse_only h0 (inT rfl hsub)) (inT rfl hsub)
  clear_value v1
  extract_lets +onlyGivenNames v2
  have h2 : Only fs s0 v2 := only_ite (State.onTime_only h1 (inT rfl hsub)) h1
  clear_value v2
  exact only_ite (State.startT_only (State.setNt_only h2 (inT rfl hsub)) (inT rfl hsub)) h2

theorem State.exchangeAccepted_only {fs : List Part} {s0 : State} {s} (h_s : Only fs s0 s) (hsub : In [.regs, .time, .timers] fs) :
    Only fs s0 (State.exchangeAccepted s) := by
  unfold State.exchangeAccepted
  extract_lets +onlyGivenNames v0
  have h0 : Only fs s0 v0 := State.onLv_only h_s (inT rfl hsub)
  clear_value v0
  extract_lets +onlyGivenNames v1
  have h1 : Only fs s0 v1 := State.onTime_only h0 (inT rfl hsub)
  clear_value v1
  exact State.startT_only (State.stopT_only (State.stopT_only h1 (inT rfl hsub)) (inT rfl hsub)) (inT rfl hsub)

theorem State.correctRate_only {fs : List Part} {s0 : State} {s t1 t2 err} (h_s : Only fs s0 s) (hsub : In [.time] fs) :
    Only fs s0 (State.correctRate s t1 t2 err) := by
  unfold State.correctRate
  extract_lets +onlyGivenNames v0
  clear_value v0
  extract_lets +onlyGivenNames v1
  clear_value v1
  extract_lets +onlyGivenNames v2
  clear_value v2
  extract_lets +onlyGivenNames v3
  clear_value v3
  extract_lets +onlyGivenNames v4
  have h4 : Only fs s0 v4 := State.setRate_only h_s hsub
  clear_value v4
  exact State.onTime_only h4 hsub

theorem State.exchange_only {fs : List Part} {s0 : State} {s node t1 t2 pd} (h_s : Only fs s0 s) (hsub : In [.regs, .time, .stage, .axes, .safety, .trace, .log, .timers] fs) :
    Only fs s0 (State.exchange s node t1 t2 pd) := by
  unfold State.exchange
  extract_lets +onlyGivenNames v0
  clear_value v0
  extract_lets +onlyGivenNames v1
  clear_value v1
  extract_lets +onlyGivenNames v2
  clear_value v2
  extract_lets +onlyGivenNames v3
  have h3 : Only fs s0 v3 := State.onTime_only h_s (inT rfl hsub)
  clear_value v3
  extract_lets +onlyGivenNames v4
  have h4 : Only fs s0 v4 := State.exchangeAccepted_only (State.setLv_only h3 (inT rfl hsub)) (inT rfl hsub)
  clear_value v4
  extract_lets +onlyGivenNames v5
  have h5 : Only fs s0 v5 := State.onTime_only h4 (inT rfl hsub)
  clear_value v5
  extract_lets +onlyGivenNames v6
  have h6 : Only fs s0 v6 := State.setLv_only h3 (inT rfl hsub)
  clear_value v6
  extract_lets +onlyGivenNames v7
  have h7 : Only fs s0 v7 := State.correctRate_only (State.exchangeAccepted_only h6 (inT rfl hsub)) (inT rfl hsub)
  clear_value v7
  extract_lets +onlyGivenNames v8
  clear_value v8
  refine only_ite (only_ite h3 (State.ntJump_only (State.setNt_only h5 (inT rfl hsub)) (inT rfl hsub))) ?_
  refine only_ite (State.jumpRefused_only h6 hsub) ?_
  split
  · extract_lets +onlyGivenNames v9
    clear_value v9
    extract_lets +onlyGivenNames v10
    have h10 : Only fs s0 v10 := State.onTime_only h7 (inT rfl hsub)
    clear_value v10
    exact only_ite (State.setNt_only h10 (inT rfl hsub)) h10
  · exact State.setNt_only (State.onTime_only h7 (inT rfl hsub)) (inT rfl hsub)

theorem execFollowUp_only {fs : List Part} {s0 : State} {port node sq t1 gm hops stepGen s} (h_s : Only fs s0 s) (hsub : In [.regs, .time, .stage, .axes, .safety, .trace, .log, .timers] fs) :
    OnlyN fs s0 (execFollowUp port node sq t1 gm hops stepGen s) := by
  unfold execFollowUp
  refine onlyN_next ?_
  refine State.bilvaFrom_only h_s ?_ (inT rfl hsub)
  intro t2 h3
  extract_lets +onlyGivenNames v4
  clear_value v4
  refine only_ite (State.stepGenHeard_only h3 hsub) ?_
  split
  · extract_lets +onlyGivenNames v5
    have h5 : Only fs s0 v5 := State.onTime_only h3 (inT rfl hsub)
    clear_value v5
    exact only_ite (State.stepGenHeard_only h3 hsub) (State.exchange_only (State.stepGenHeard_only h5 hsub) hsub)
  · exact State.stepGenHeard_only h3 hsub

theorem execMasterLoss_only {fs : List Part} {s0 : State} {s} (h_s : Only fs s0 s) (hsub : In [.regs, .time, .stage, .axes, .safety, .trace, .log, .timers] fs) :
    OnlyN fs s0 (execMasterLoss s) := by
  unfold execMasterLoss
  refine onlyN_next ?_
  refine State.expire_only h_s ?_ (inT rfl hsub)
  intro t2 h3
  extract_lets +onlyGivenNames v4
  clear_value v4
  extract_lets +onlyGivenNames v5
  have h5 : Only fs s0 v5 := State.onTime_only h3 (inT rfl hsub)
  clear_value v5
  extract_lets +onlyGivenNames v6
  have h6 : Only fs s0 v6 := by
    unfold v6
    split
    · exact State.setNt_only (State.onTime_only h5 (inT rfl hsub)) (inT rfl hsub)
    · exact State.startT_only (State.setNt_only h5 (inT rfl hsub)) (inT rfl hsub)
    · exact h5
  clear_value v6
  exact only_ite (State.startT_only h6 (inT rfl hsub)) h6

theorem execBackupMasterStart_only {fs : List Part} {s0 : State} {s} (h_s : Only fs s0 s) (hsub : In [.time, .timers] fs) :
    OnlyN fs s0 (execBackupMasterStart s) := by
  unfold execBackupMasterStart
  exact onlyN_next (State.expire_only h_s (fun _ h0 => only_ite (State.onTime_only h0 (inT rfl hsub)) h0) hsub)

theorem execHoldoverExpiry_only {fs : List Part} {s0 : State} {s} (h_s : Only fs s0 s) (hsub : In [.regs, .time, .stage, .axes, .safety, .trace, .log, .timers] fs) :
    OnlyN fs s0 (execHoldoverExpiry s) := by
  unfold execHoldoverExpiry
  exact onlyN_next (State.expire_only h_s (fun _ h0 => only_ite (State.setNt_only (State.onTime_only h0 (inT rfl hsub)) (inT rfl hsub)) h0) (inT rfl hsub))

theorem execSyncSend_only {fs : List Part} {s0 : State} {port s} (h_s : Only fs s0 s) (hsub : In [.time, .cans, .timers] fs) :
    OnlyN fs s0 (execSyncSend port s) := by
  unfold execSyncSend
  extract_lets +onlyGivenNames v0
  clear_value v0
  extract_lets +onlyGivenNames v1
  have h1 : Only fs s0 v1 := by
    unfold v1
    split
    · exact State.reach_only h_s (inT rfl hsub)
    · exact h_s
  clear_value v1
  extract_lets +onlyGivenNames v2
  clear_value v2
  extract_lets +onlyGivenNames v3
  have h3 : Only fs s0 v3 := State.bilvaSend_only h1 (inT rfl hsub)
  clear_value v3
  extract_lets +onlyGivenNames v4
  have h4 : Only fs s0 v4 := State.onTime_only h3 (inT rfl hsub)
  clear_value v4
  exact onlyN_ite (onlyN_next (State.stopT_only h_s (inT rfl hsub))) (onlyN_next (State.startT_only h4 (inT rfl hsub)))

theorem State.ntRoleBoundary_only {fs : List Part} {s0 : State} {s} (h_s : Only fs s0 s) (hsub : In [.regs, .time, .stage, .axes, .safety, .trace, .log, .timers] fs) :
    Only fs s0 (State.ntRoleBoundary s) := by
  unfold State.ntRoleBoundary
  extract_lets +onlyGivenNames v0
  have h0 : Only fs s0 v0 := State.onTime_only h_s (inT rfl hsub)
  clear_value v0
  exact only_ite (only_ite h_s (State.setNt_only (State.stopT_only (State.stopT_only (State.stopT_only h0 (inT rfl hsub)) (inT rfl hsub)) (inT rfl hsub)) (inT rfl hsub))) (only_ite (State.setNt_only h_s (inT rfl hsub)) h_s)

theorem State.strikeAckSend_only {fs : List Part} {s0 : State} {s tag orig code} (h_s : Only fs s0 s) (hsub : In [.cans] fs) :
    Only fs s0 (State.strikeAckSend s tag orig code) := by
  unfold State.strikeAckSend
  exact State.bilvaAll_only h_s hsub

theorem State.netStrike_only {fs : List Part} {s0 : State} {s t tag orig} (h_s : Only fs s0 s) (hsub : In [.regs, .stage, .host, .mgr, .cans, .trace, .log] fs) :
    Only fs s0 (State.netStrike s t tag orig) := by
  unfold State.netStrike
  extract_lets +onlyGivenNames v0
  clear_value v0
  extract_lets +onlyGivenNames v1
  clear_value v1
  extract_lets +onlyGivenNames v2
  have h2 : Only fs s0 v2 := only_ite (State.armStrikeAt_only h_s (inT rfl hsub)) (State.refuse_only h_s (inT rfl hsub))
  clear_value v2
  exact only_ite h_s (State.strikeAckSend_only h2 (inT rfl hsub))

theorem execBilvaStrikeAt_only {fs : List Part} {s0 : State} {port node t tag orig s} (h_s : Only fs s0 s) (hsub : In [.regs, .stage, .host, .mgr, .axes, .cans, .safety, .trace, .log] fs) :
    OnlyN fs s0 (execBilvaStrikeAt port node t tag orig s) := by
  unfold execBilvaStrikeAt
  exact onlyN_next (State.bilvaFrom_only h_s (fun _ h0 => State.netStrike_only h0 (inT rfl hsub)) (inT rfl hsub))

theorem execStrikeCancel_only {fs : List Part} {s0 : State} {port node tag orig s} (h_s : Only fs s0 s) (hsub : In [.regs, .stage, .axes, .safety, .trace, .log] fs) :
    OnlyN fs s0 (execStrikeCancel port node tag orig s) := by
  unfold execStrikeCancel
  extract_lets +onlyGivenNames v0
  clear_value v0
  exact onlyN_next (State.bilvaFrom_only h_s (fun _ h1 => only_ite (State.cancelStrikeAt_only h1 (inT rfl hsub)) h1) (inT rfl hsub))

theorem execStrikeAck_only {fs : List Part} {s0 : State} {port node tag orig code st s} (h_s : Only fs s0 s) (hsub : In [.regs, .axes, .safety, .trace, .log] fs) :
    OnlyN fs s0 (execStrikeAck port node tag orig code st s) := by
  unfold execStrikeAck
  extract_lets +onlyGivenNames v0
  clear_value v0
  exact onlyN_next (State.bilvaFrom_only h_s (fun _ h1 => only_ite h1 (only_ite (State.event_only (State.incHalf_only h1 (inT rfl hsub)) (inT rfl hsub)) (State.event_only (State.setLv_only (State.incHalf_only h1 (inT rfl hsub)) (inT rfl hsub)) (inT rfl hsub)))) hsub)

theorem State.netSend_only {fs : List Part} {s0 : State} {s loc} (h_s : Only fs s0 s) (hsub : In [.regs, .stage, .host, .mgr, .cans, .trace, .log] fs) :
    Only fs s0 (State.netSend s loc) := by
  unfold State.netSend
  extract_lets +onlyGivenNames v0
  clear_value v0
  extract_lets +onlyGivenNames v1
  clear_value v1
  extract_lets +onlyGivenNames v2
  clear_value v2
  extract_lets +onlyGivenNames v3
  have h3 : Only fs s0 v3 := State.bilvaAll_only (State.setLv_only h_s (inT rfl hsub)) (inT rfl hsub)
  clear_value v3
  exact only_ite (State.netStrike_only h3 hsub) h3

theorem execNetstrikeSend_only {fs : List Part} {s0 : State} {loc s} (h_s : Only fs s0 s) (hsub : In [.regs, .stage, .host, .mgr, .cans, .trace, .log] fs) :
    OnlyN fs s0 (execNetstrikeSend loc s) := by
  unfold execNetstrikeSend
  exact onlyN_ite (onlyN_next (State.netSend_only (State.touch_only h_s (inT rfl hsub)) hsub)) (onlyN_next h_s)

theorem State.netCancel_only {fs : List Part} {s0 : State} {s} (h_s : Only fs s0 s) (hsub : In [.cans] fs) :
    Only fs s0 (State.netCancel s) := by
  unfold State.netCancel
  exact State.bilvaAll_only h_s hsub

theorem execNetstrikeCancel_only {fs : List Part} {s0 : State} {s} (h_s : Only fs s0 s) (hsub : In [.host, .mgr, .cans] fs) :
    OnlyN fs s0 (execNetstrikeCancel s) := by
  unfold execNetstrikeCancel
  exact onlyN_ite (onlyN_next (State.netCancel_only (State.touch_only h_s (inT rfl hsub)) (inT rfl hsub))) (onlyN_next h_s)

theorem State.shareSend_only {fs : List Part} {s0 : State} {s g} (h_s : Only fs s0 s) (hsub : In [.regs, .axes, .shares, .cans, .safety, .trace, .log] fs) :
    Only fs s0 (State.shareSend s g) := by
  unfold State.shareSend
  split
  · rename_i x0 t1 x2 e3
    have h4 := only1_fst (State.sharePublish_only h_s (inT rfl hsub)) e3
    extract_lets +onlyGivenNames v5
    clear_value v5
    extract_lets +onlyGivenNames v6
    clear_value v6
    extract_lets +onlyGivenNames v7
    clear_value v7
    extract_lets +onlyGivenNames v8
    have h8 : Only fs s0 v8 := by
      unfold v8
      split
      · exact State.bilvaSend_only h4 (inT rfl hsub)
      · exact h4
    clear_value v8
    exact only_ite (State.bilvaSend_only h8 (inT rfl hsub)) h8

theorem execTimePulse_only {fs : List Part} {s0 : State} {out active s} (h_s : Only fs s0 s) (hsub : In [.time] fs) :
    OnlyN fs s0 (execTimePulse out active s) := by
  unfold execTimePulse
  extract_lets +onlyGivenNames v0
  clear_value v0
  extract_lets +onlyGivenNames v1
  have h1 : Only fs s0 v1 := State.reach_only h_s hsub
  clear_value v1
  extract_lets +onlyGivenNames v2
  have h2 : Only fs s0 v2 := State.reach_only h_s hsub
  clear_value v2
  exact onlyN_ite (onlyN_next h_s) (onlyN_ite (onlyN_next (State.onTime_only h1 hsub)) (onlyN_ite (onlyN_next (State.onTime_only h2 hsub)) (onlyN_next h_s)))

end Sys2Proof.Machine
end

