-- ==== Sys2Proof/Laws/OnlyDma.lean ====
section
/-!
SUPPORT. What the operations of Machine/Dma.lean may change: one lemma each, from any state reached.
-/
namespace Sys2Proof.Machine

open Sys2Proof.Safety

theorem State.dmaWriteBack_only {fs : List Part} {s0 : State} {s ch d elements result} (h_s : Only fs s0 s) (hsub : In [.regs, .mem, .eccBad, .dma, .trace] fs) :
    Only fs s0 (State.dmaWriteBack s ch d elements result) := by
  unfold State.dmaWriteBack
  extract_lets +onlyGivenNames v0
  clear_value v0
  extract_lets +onlyGivenNames v1
  clear_value v1
  extract_lets +onlyGivenNames v2
  clear_value v2
  extract_lets +onlyGivenNames v3
  have h3 : Only fs s0 v3 := State.putWords_only h_s (inT rfl hsub)
  clear_value v3
  extract_lets +onlyGivenNames v4
  have h4 : Only fs s0 v4 := State.setLv_only (State.inc32_only h3 (inT rfl hsub)) (inT rfl hsub)
  clear_value v4
  extract_lets +onlyGivenNames v5
  have h5 : Only fs s0 v5 := State.onDm_only h4 (inT rfl hsub)
  clear_value v5
  exact only_ite (State.event_only h5 (inT rfl hsub)) h5

theorem State.dmaError_only {fs : List Part} {s0 : State} {s ch} (h_s : Only fs s0 s) (hsub : In [.regs, .dma, .trace] fs) :
    Only fs s0 (State.dmaError s ch) := by
  unfold State.dmaError
  exact State.pfault_only (State.event_only (State.onDm_only h_s (inT rfl hsub)) (inT rfl hsub)) (inT rfl hsub)

theorem State.dmaHalt_only {fs : List Part} {s0 : State} {s ch addr info write} (h_s : Only fs s0 s) (hsub : In [.regs, .axes, .dma, .dmaHalted, .safety, .trace, .log, .timers] fs) :
    Only fs s0 (State.dmaHalt s ch addr info write) := by
  unfold State.dmaHalt
  extract_lets +onlyGivenNames v0
  have h0 : Only fs s0 v0 := State.dmaError_only h_s (inT rfl hsub)
  clear_value v0
  extract_lets +onlyGivenNames v1
  have h1 : Only fs s0 v1 := by
    unfold v1
    exact Only.upd h0 (inT (F := [.dma, .dmaHalted]) rfl hsub) (by intro f hf; cases f <;> first | rfl | simp at hf)
  clear_value v1
  extract_lets +onlyGivenNames v2
  have h2 : Only fs s0 v2 := State.setLv_only (State.setLv_only (State.onLv_only h1 (inT rfl hsub)) (inT rfl hsub)) (inT rfl hsub)
  clear_value v2
  extract_lets +onlyGivenNames v3
  have h3 : Only fs s0 v3 := State.raisePulse_only (State.pfault_only (State.event_only (State.inc16_only h2 (inT rfl hsub)) (inT rfl hsub)) (inT rfl hsub)) (inT rfl hsub)
  clear_value v3
  extract_lets +onlyGivenNames v4
  clear_value v4
  exact only_ite h0 (only_ite h3 (State.startT_only h3 (inT rfl hsub)))

theorem State.dmaStart_only {fs : List Part} {s0 : State} {s ch} (h_s : Only fs s0 s) (hsub : In [.regs, .mem, .eccBad, .axes, .dma, .dmaHalted, .safety, .trace, .log, .timers] fs) :
    Only fs s0 (State.dmaStart s ch) := by
  unfold State.dmaStart
  extract_lets +onlyGivenNames v0
  clear_value v0
  extract_lets +onlyGivenNames v1
  clear_value v1
  extract_lets +onlyGivenNames v2
  clear_value v2
  extract_lets +onlyGivenNames v3
  have h3 : Only fs s0 v3 := State.onDm_only h_s (inT rfl hsub)
  clear_value v3
  split
  · exact State.dmaHalt_only h3 (inT rfl hsub)
  · extract_lets +onlyGivenNames v4
    clear_value v4
    extract_lets +onlyGivenNames v5
    have h5 : Only fs s0 v5 := State.dmaError_only (State.dmaWriteBack_only h3 (inT rfl hsub)) (inT rfl hsub)
    clear_value v5
    exact only_ite (State.onDm_only h3 (inT rfl hsub)) (only_ite (State.raisePulse_only (State.pfault_only (State.event_only h5 (inT rfl hsub)) (inT rfl hsub)) (inT rfl hsub)) (State.onDm_only h3 (inT rfl hsub)))

theorem State.dmaPend_only {fs : List Part} {s0 : State} {s ch} (h_s : Only fs s0 s) (hsub : In [.regs, .dma] fs) :
    Only fs s0 (State.dmaPend s ch) := by
  unfold State.dmaPend
  exact only_ite (State.onDm_only h_s (inT rfl hsub)) (State.incHalf_only h_s (inT rfl hsub))

theorem State.dmaTrigger_only {fs : List Part} {s0 : State} {s ch} (h_s : Only fs s0 s) (hsub : In [.regs, .mem, .eccBad, .axes, .dma, .dmaHalted, .safety, .trace, .log, .timers] fs) :
    Only fs s0 (State.dmaTrigger s ch) := by
  unfold State.dmaTrigger
  refine only_ite h_s ?_
  split
  · exact h_s
  · exact only_ite (State.dmaPend_only h_s (inT rfl hsub)) (State.dmaStart_only h_s hsub)

theorem State.dmaTakePending_only {fs : List Part} {s0 : State} {s ch} (h_s : Only fs s0 s) (hsub : In [.regs, .mem, .eccBad, .axes, .dma, .dmaHalted, .safety, .trace, .log, .timers] fs) :
    Only fs s0 (State.dmaTakePending s ch) := by
  unfold State.dmaTakePending
  extract_lets +onlyGivenNames v0
  clear_value v0
  exact only_ite (State.dmaStart_only (State.onDm_only h_s (inT rfl hsub)) hsub) h_s

theorem State.dmaEnd_only {fs : List Part} {s0 : State} {s ch elements result} (h_s : Only fs s0 s) (hsub : In [.regs, .mem, .eccBad, .axes, .dma, .dmaHalted, .safety, .trace, .log, .timers] fs) :
    Only fs s0 (State.dmaEnd s ch elements result) := by
  unfold State.dmaEnd
  split
  · exact h_s
  · extract_lets +onlyGivenNames v0
    clear_value v0
    extract_lets +onlyGivenNames v1
    have h1 : Only fs s0 v1 := State.dmaWriteBack_only h_s (inT rfl hsub)
    clear_value v1
    extract_lets +onlyGivenNames v2
    have h2 : Only fs s0 v2 := only_ite (forN_only (fun _ _ h3 => only_ite (State.dmaTrigger_only h3 hsub) h3) h1) h1
    clear_value v2
    exact only_ite (State.onDm_only h2 (inT rfl hsub)) (only_ite (State.dmaStart_only h2 hsub) (State.dmaTakePending_only h2 hsub))

theorem State.dmaGo_only {fs : List Part} {s0 : State} {s ch} (h_s : Only fs s0 s) (hsub : In [.regs, .mem, .eccBad, .axes, .dma, .dmaHalted, .safety, .trace, .log, .timers] fs) :
    Only fs s0 (State.dmaGo s ch) := by
  unfold State.dmaGo
  extract_lets +onlyGivenNames v0
  clear_value v0
  extract_lets +onlyGivenNames v1
  have h1 : Only fs s0 v1 := only_ite (State.onDm_only h_s (inT rfl hsub)) h_s
  clear_value v1
  exact only_ite h_s (only_ite (State.dmaTrigger_only h1 hsub) (only_ite (State.dmaTakePending_only (State.onDm_only h1 (inT rfl hsub)) hsub) h1))

theorem State.dmaStop_only {fs : List Part} {s0 : State} {s ch} (h_s : Only fs s0 s) (hsub : In [.regs, .mem, .eccBad, .dma, .trace] fs) :
    Only fs s0 (State.dmaStop s ch) := by
  unfold State.dmaStop
  extract_lets +onlyGivenNames v0
  have h0 : Only fs s0 v0 := by
    unfold v0
    split
    · exact State.dmaWriteBack_only h_s hsub
    · exact h_s
  exact only_ite h0 (State.onDm_only h0 (inT rfl hsub))

theorem State.dmaKick_only {fs : List Part} {s0 : State} {s ch} (h_s : Only fs s0 s) (hsub : In [.regs, .mem, .eccBad, .axes, .dma, .dmaHalted, .safety, .trace, .log, .timers] fs) :
    Only fs s0 (State.dmaKick s ch) := by
  unfold State.dmaKick
  exact only_ite (State.dmaStart_only h_s hsub) h_s

theorem State.chCmd_only {fs : List Part} {s0 : State} {s ch v} (h_s : Only fs s0 s) (hsub : In [.regs, .mem, .eccBad, .axes, .dma, .dmaHalted, .safety, .trace, .log, .timers] fs) :
    Only fs s0 (State.chCmd s ch v) := by
  unfold State.chCmd
  extract_lets +onlyGivenNames v0
  have h0 : Only fs s0 v0 := only_ite (State.dmaStop_only h_s (inT rfl hsub)) h_s
  clear_value v0
  extract_lets +onlyGivenNames v1
  have h1 : Only fs s0 v1 := only_ite (State.dmaGo_only h0 hsub) h0
  clear_value v1
  exact only_ite (State.dmaKick_only h1 hsub) h1

theorem State.dmaResumeNow_only {fs : List Part} {s0 : State} {s} (h_s : Only fs s0 s) (hsub : In [.regs, .mem, .eccBad, .axes, .dma, .dmaHalted, .safety, .trace, .log, .timers] fs) :
    Only fs s0 (State.dmaResumeNow s) := by
  unfold State.dmaResumeNow
  extract_lets +onlyGivenNames v0
  have h0 : Only fs s0 v0 := by
    unfold v0
    exact Only.upd h_s (inT (F := [.dma, .dmaHalted]) rfl hsub) (by intro f hf; cases f <;> first | rfl | simp at hf)
  clear_value v0
  extract_lets +onlyGivenNames v1
  have h1 : Only fs s0 v1 := State.event_only (State.stopT_only h0 (inT rfl hsub)) (inT rfl hsub)
  clear_value v1
  refine forN_only ?_ h1
  intro x3 t4 h5
  extract_lets +onlyGivenNames v6
  clear_value v6
  exact only_ite h5 (State.dmaStart_only (State.onDm_only h5 (inT rfl hsub)) hsub)

theorem State.dmaCmd_only {fs : List Part} {s0 : State} {s m v} (h_s : Only fs s0 s) (hsub : In [.regs, .mem, .eccBad, .host, .mgr, .axes, .dma, .dmaHalted, .safety, .trace, .log, .timers] fs) :
    Only fs s0 (State.dmaCmd s m v) := by
  unfold State.dmaCmd
  exact only_ite h_s (only_ite (State.dmaResumeNow_only h_s (inT rfl hsub)) (State.refuseBy_only h_s (inT rfl hsub)))

theorem execDmaGo_only {fs : List Part} {s0 : State} {c s} (h_s : Only fs s0 s) (hsub : In [.regs, .mem, .eccBad, .host, .mgr, .axes, .dma, .dmaHalted, .safety, .trace, .log, .timers] fs) :
    OnlyN fs s0 (execDmaGo c s) := by
  unfold execDmaGo
  exact onlyN_ite (onlyN_next (State.dmaGo_only (State.touch_only h_s (inT rfl hsub)) (inT rfl hsub))) (onlyN_next h_s)

theorem execDmaStop_only {fs : List Part} {s0 : State} {c s} (h_s : Only fs s0 s) (hsub : In [.regs, .mem, .eccBad, .host, .mgr, .dma, .trace] fs) :
    OnlyN fs s0 (execDmaStop c s) := by
  unfold execDmaStop
  exact onlyN_ite (onlyN_next (State.dmaStop_only (State.touch_only h_s (inT rfl hsub)) (inT rfl hsub))) (onlyN_next h_s)

theorem execDmaKick_only {fs : List Part} {s0 : State} {c s} (h_s : Only fs s0 s) (hsub : In [.regs, .mem, .eccBad, .host, .mgr, .axes, .dma, .dmaHalted, .safety, .trace, .log, .timers] fs) :
    OnlyN fs s0 (execDmaKick c s) := by
  unfold execDmaKick
  exact onlyN_ite (onlyN_next (State.dmaKick_only (State.touch_only h_s (inT rfl hsub)) (inT rfl hsub))) (onlyN_next h_s)

theorem execDmaResume_only {fs : List Part} {s0 : State} {s} (h_s : Only fs s0 s) (hsub : In [.regs, .mem, .eccBad, .host, .mgr, .axes, .dma, .dmaHalted, .safety, .trace, .log, .timers] fs) :
    OnlyN fs s0 (execDmaResume s) := by
  unfold execDmaResume
  exact onlyN_ite (onlyN_next (State.dmaCmd_only (State.touch_only h_s (inT rfl hsub)) hsub)) (onlyN_next h_s)

theorem execDmaAutoResume_only {fs : List Part} {s0 : State} {s} (h_s : Only fs s0 s) (hsub : In [.regs, .mem, .eccBad, .time, .axes, .dma, .dmaHalted, .safety, .trace, .log, .timers] fs) :
    OnlyN fs s0 (execDmaAutoResume s) := by
  unfold execDmaAutoResume
  exact onlyN_next (State.expire_only h_s (fun _ h0 => State.dmaResumeNow_only h0 (inT rfl hsub)) (inT rfl hsub))

theorem execDmaRequest_only {fs : List Part} {s0 : State} {line s} (h_s : Only fs s0 s) (hsub : In [.regs, .mem, .eccBad, .axes, .dma, .dmaHalted, .safety, .trace, .log, .timers] fs) :
    OnlyN fs s0 (execDmaRequest line s) := by
  unfold execDmaRequest
  refine onlyN_ite (onlyN_next h_s) ?_
  refine onlyN_next ?_
  refine forN_only ?_ h_s
  intro x4 t5 h6
  extract_lets +onlyGivenNames v7
  clear_value v7
  exact only_ite (State.dmaTrigger_only h6 hsub) h6

theorem execDmaPeriodTrigger_only {fs : List Part} {s0 : State} {c s} (h_s : Only fs s0 s) (hsub : In [.regs, .mem, .eccBad, .time, .axes, .dma, .dmaHalted, .safety, .trace, .log, .timers] fs) :
    OnlyN fs s0 (execDmaPeriodTrigger c s) := by
  unfold execDmaPeriodTrigger
  extract_lets +onlyGivenNames v0
  clear_value v0
  extract_lets +onlyGivenNames v1
  clear_value v1
  exact onlyN_ite (onlyN_next (State.dmaTrigger_only (State.onDm_only (State.reach_only h_s (inT rfl hsub)) (inT rfl hsub)) (inT rfl hsub))) (onlyN_next h_s)

theorem State.dmaFrame_only {fs : List Part} {s0 : State} {s} (h_s : Only fs s0 s) (hsub : In [.regs, .mem, .eccBad, .axes, .dma, .dmaHalted, .safety, .trace, .log, .timers] fs) :
    Only fs s0 (State.dmaFrame s) := by
  unfold State.dmaFrame
  refine forN_only ?_ h_s
  intro x1 t2 h3
  extract_lets +onlyGivenNames v4
  clear_value v4
  extract_lets +onlyGivenNames v5
  clear_value v5
  exact only_ite (State.dmaTrigger_only h3 hsub) h3

theorem State.dmaStrikeStop_only {fs : List Part} {s0 : State} {s changed} (h_s : Only fs s0 s) (hsub : In [.regs, .mem, .eccBad, .dma, .trace] fs) :
    Only fs s0 (State.dmaStrikeStop s changed) := by
  unfold State.dmaStrikeStop
  exact forN_only (fun _ _ h0 => only_ite (State.onDm_only (State.dmaStop_only h0 hsub) (inT rfl hsub)) h0) h_s

end Sys2Proof.Machine
end

