-- ==== Sys2Proof/Laws/OnlyTrace.lean ====
section
/-!
SUPPORT. What the operations of Machine/Trace.lean may change: one lemma each, from any state reached.
-/
namespace Sys2Proof.Machine

open Sys2Proof.Safety

theorem State.traceRecord_only {fs : List Part} {s0 : State} {s line ws} (h_s : Only fs s0 s) (hsub : In [.regs, .dma, .trace] fs) :
    Only fs s0 (State.traceRecord s line ws) := by
  unfold State.traceRecord
  refine forN_only ?_ h_s
  intro x1 t2 h3
  extract_lets +onlyGivenNames v4
  clear_value v4
  exact only_ite (only_ite (State.event_only (State.inc16_only h3 (inT rfl hsub)) (inT rfl hsub)) (State.onDm_only h3 (inT rfl hsub))) h3

theorem State.traceClose_only {fs : List Part} {s0 : State} {s stopped} (h_s : Only fs s0 s) (hsub : In [.regs, .mem, .eccBad, .dma, .trace] fs) :
    Only fs s0 (State.traceClose s stopped) := by
  unfold State.traceClose
  extract_lets +onlyGivenNames v0
  clear_value v0
  extract_lets +onlyGivenNames v1
  clear_value v1
  extract_lets +onlyGivenNames v2
  clear_value v2
  extract_lets +onlyGivenNames v3
  have h3 : Only fs s0 v3 := State.onLv_only (State.putWords_only h_s (inT rfl hsub)) (inT rfl hsub)
  clear_value v3
  extract_lets +onlyGivenNames v4
  have h4 : Only fs s0 v4 := State.onTrace_only (State.traceRecord_only (State.event_only h3 (inT rfl hsub)) (inT rfl hsub)) (inT rfl hsub)
  clear_value v4
  exact only_ite (State.onTrace_only h4 (inT rfl hsub)) (only_ite (State.event_only (State.onTrace_only h4 (inT rfl hsub)) (inT rfl hsub)) (only_ite (State.onTrace_only h4 (inT rfl hsub)) (only_ite (State.onTrace_only h4 (inT rfl hsub)) (State.event_only (State.onTrace_only h4 (inT rfl hsub)) (inT rfl hsub)))))

theorem State.traceMask_only {fs : List Part} {s0 : State} {s m i ws} (h_s : Only fs s0 s) (hsub : In [.regs, .axes, .safety, .trace, .log] fs) :
    Only fs s0 (State.traceMask s m i ws) := by
  unfold State.traceMask
  extract_lets +onlyGivenNames v0
  clear_value v0
  extract_lets +onlyGivenNames v1
  clear_value v1
  extract_lets +onlyGivenNames v2
  clear_value v2
  extract_lets +onlyGivenNames v3
  clear_value v3
  extract_lets +onlyGivenNames v4
  clear_value v4
  extract_lets +onlyGivenNames v5
  have h5 : Only fs s0 v5 := State.onTrace_only h_s (inT rfl hsub)
  clear_value v5
  extract_lets +onlyGivenNames v6
  have h6 : Only fs s0 v6 := State.onTrace_only h5 (inT rfl hsub)
  clear_value v6
  exact only_ite h_s (only_ite h_s (only_ite h5 (State.raisePulse_only (State.pfault_only (State.event_only h6 (inT rfl hsub)) (inT rfl hsub)) hsub)))

theorem State.traceStore_only {fs : List Part} {s0 : State} {s ws} (h_s : Only fs s0 s) (hsub : In [.regs, .mem, .eccBad, .axes, .dma, .safety, .trace, .log] fs) :
    Only fs s0 (State.traceStore s ws) := by
  unfold State.traceStore
  extract_lets +onlyGivenNames v0
  clear_value v0
  extract_lets +onlyGivenNames v1
  clear_value v1
  extract_lets +onlyGivenNames v2
  clear_value v2
  extract_lets +onlyGivenNames v3
  have h3 : Only fs s0 v3 := State.putWords_only h_s (inT rfl hsub)
  clear_value v3
  extract_lets +onlyGivenNames v4
  have h4 : Only fs s0 v4 := State.inc32_only h3 (inT rfl hsub)
  clear_value v4
  extract_lets +onlyGivenNames v5
  have h5 : Only fs s0 v5 := only_ite (State.traceRecord_only h4 (inT rfl hsub)) h4
  clear_value v5
  extract_lets +onlyGivenNames v6
  have h6 : Only fs s0 v6 := State.onTrace_only h5 (inT rfl hsub)
  clear_value v6
  split
  · exact h6
  · extract_lets +onlyGivenNames v7
    clear_value v7
    extract_lets +onlyGivenNames v8
    have h8 : Only fs s0 v8 := forN_only (fun _ _ h9 => State.traceMask_only h9 (inT rfl hsub)) h6
    clear_value v8
    extract_lets +onlyGivenNames v10
    have h10 : Only fs s0 v10 := State.onTrace_only h8 (inT rfl hsub)
    clear_value v10
    exact only_ite (State.traceClose_only h10 (inT rfl hsub)) h10

theorem State.traceTimes_only {fs : List Part} {s0 : State} {s t} (h_s : Only fs s0 s) (hsub : In [.regs, .trace] fs) :
    Only fs s0 (State.traceTimes s t) := by
  unfold State.traceTimes
  extract_lets +onlyGivenNames v0
  clear_value v0
  exact only_ite (forL_only (fun _ _ h1 => State.traceFire_only h1 hsub) h_s) h_s

theorem State.traceProbes_only {fs : List Part} {s0 : State} {s t} (h_s : Only fs s0 s) (hsub : In [.regs, .trace] fs) :
    Only fs s0 (State.traceProbes s t) := by
  unfold State.traceProbes
  extract_lets +onlyGivenNames v0
  clear_value v0
  exact State.traceKind_only h_s hsub

theorem State.traceTake_only {fs : List Part} {s0 : State} {s t} (h_s : Only fs s0 s) (hsub : In [.regs, .mem, .eccBad, .axes, .dma, .safety, .trace, .log] fs) :
    Only fs s0 (State.traceTake s t) := by
  unfold State.traceTake
  extract_lets +onlyGivenNames v0
  clear_value v0
  extract_lets +onlyGivenNames v1
  have h1 : Only fs s0 v1 := State.traceProbes_only (State.traceTimes_only h_s (inT rfl hsub)) (inT rfl hsub)
  clear_value v1
  extract_lets +onlyGivenNames v2
  clear_value v2
  extract_lets +onlyGivenNames v3
  extract_lets +onlyGivenNames v4
  clear_value v4
  extract_lets +onlyGivenNames v5
  clear_value v5
  extract_lets +onlyGivenNames v6
  clear_value v6
  extract_lets +onlyGivenNames v7
  clear_value v7
  extract_lets +onlyGivenNames v8
  clear_value v8
  extract_lets +onlyGivenNames v9
  have h9 : Only fs s0 v9 := State.onTrace_only h1 (inT rfl hsub)
  clear_value v9
  extract_lets +onlyGivenNames v10
  clear_value v10
  exact only_ite (only_ite (State.onTrace_only h9 (inT rfl hsub)) (State.traceStore_only h9 hsub)) (State.traceStore_only h9 hsub)

theorem execTraceSample_only {fs : List Part} {s0 : State} {s} (h_s : Only fs s0 s) (hsub : In [.regs, .mem, .eccBad, .time, .axes, .dma, .safety, .trace, .log] fs) :
    OnlyN fs s0 (execTraceSample s) := by
  unfold execTraceSample
  refine onlyN_ite ?_ (onlyN_next h_s)
  split
  · exact onlyN_next (State.traceTake_only (State.reach_only h_s (inT rfl hsub)) (inT rfl hsub))
  · exact onlyN_next h_s

theorem execTraceSeqWindowExpiry_only {fs : List Part} {s0 : State} {s} (h_s : Only fs s0 s) (hsub : In [.time, .trace] fs) :
    OnlyN fs s0 (execTraceSeqWindowExpiry s) := by
  unfold execTraceSeqWindowExpiry
  extract_lets +onlyGivenNames v0
  clear_value v0
  split
  · exact onlyN_ite (onlyN_next h_s) (onlyN_next (State.onTrace_only (State.reach_only h_s (inT rfl hsub)) (inT rfl hsub)))
  · exact onlyN_next h_s

theorem State.traceArm_only {fs : List Part} {s0 : State} {s} (h_s : Only fs s0 s) (hsub : In [.regs, .mem, .eccBad, .trace] fs) :
    Only fs s0 (State.traceArm s) := by
  unfold State.traceArm
  extract_lets +onlyGivenNames v0
  clear_value v0
  extract_lets +onlyGivenNames v1
  have h1 : Only fs s0 v1 := forN_only (fun _ _ h2 => State.putWord_only h2 (inT rfl hsub)) h_s
  clear_value v1
  extract_lets +onlyGivenNames v3
  have h3 : Only fs s0 v3 := State.setLv_only (State.setLv_only h1 (inT rfl hsub)) (inT rfl hsub)
  clear_value v3
  exact State.onTrace_only h3 (inT rfl hsub)

theorem State.traceStop_only {fs : List Part} {s0 : State} {s} (h_s : Only fs s0 s) (hsub : In [.regs, .mem, .eccBad, .dma, .trace] fs) :
    Only fs s0 (State.traceStop s) := by
  unfold State.traceStop
  exact only_ite (State.onTrace_only h_s (inT rfl hsub)) (State.traceClose_only h_s hsub)

theorem State.traceCmd_only {fs : List Part} {s0 : State} {s m v} (h_s : Only fs s0 s) (hsub : In [.regs, .mem, .eccBad, .host, .mgr, .dma, .trace, .log] fs) :
    Only fs s0 (State.traceCmd s m v) := by
  unfold State.traceCmd
  extract_lets +onlyGivenNames v0
  have h0 : ∀ t0, Only fs s0 t0 → Only fs s0 (v0 t0) := by
    unfold v0
    intro t1 h2
    exact State.refuseBy_only h2 (inT rfl hsub)
  clear_value v0
  extract_lets +onlyGivenNames v3
  clear_value v3
  extract_lets +onlyGivenNames v4
  have h4 : Only fs s0 v4 := only_ite (only_ite (h0 _ h_s) (State.traceArm_only h_s (inT rfl hsub))) h_s
  clear_value v4
  extract_lets +onlyGivenNames v5
  have h5 : Only fs s0 v5 := only_ite (only_ite (State.traceStop_only h4 (inT rfl hsub)) (h0 _ h4)) h4
  clear_value v5
  extract_lets +onlyGivenNames v6
  have h6 : Only fs s0 v6 := only_ite (only_ite (State.traceTrigger_only h5 (inT rfl hsub)) (h0 _ h5)) h5
  clear_value v6
  exact only_ite (only_ite (State.onTrace_only h6 (inT rfl hsub)) (h0 _ h6)) h6

theorem State.hostTrace_only {fs : List Part} {s0 : State} {s v} (h_s : Only fs s0 s) (hsub : In [.regs, .mem, .eccBad, .host, .mgr, .dma, .trace, .log] fs) :
    Only fs s0 (State.hostTrace s v) := by
  unfold State.hostTrace
  exact only_ite (State.traceCmd_only (State.touch_only h_s (inT rfl hsub)) hsub) h_s

theorem execTraceArm_only {fs : List Part} {s0 : State} {s} (h_s : Only fs s0 s) (hsub : In [.regs, .mem, .eccBad, .host, .mgr, .dma, .trace, .log] fs) :
    OnlyN fs s0 (execTraceArm s) := by
  unfold execTraceArm
  exact onlyN_next (State.hostTrace_only h_s hsub)

theorem execTraceStop_only {fs : List Part} {s0 : State} {s} (h_s : Only fs s0 s) (hsub : In [.regs, .mem, .eccBad, .host, .mgr, .dma, .trace, .log] fs) :
    OnlyN fs s0 (execTraceStop s) := by
  unfold execTraceStop
  exact onlyN_next (State.hostTrace_only h_s hsub)

theorem execTraceForce_only {fs : List Part} {s0 : State} {s} (h_s : Only fs s0 s) (hsub : In [.regs, .mem, .eccBad, .host, .mgr, .dma, .trace, .log] fs) :
    OnlyN fs s0 (execTraceForce s) := by
  unfold execTraceForce
  exact onlyN_next (State.hostTrace_only h_s hsub)

theorem execTraceClear_only {fs : List Part} {s0 : State} {s} (h_s : Only fs s0 s) (hsub : In [.regs, .mem, .eccBad, .host, .mgr, .dma, .trace, .log] fs) :
    OnlyN fs s0 (execTraceClear s) := by
  unfold execTraceClear
  exact onlyN_next (State.hostTrace_only h_s hsub)

end Sys2Proof.Machine
end

