-- ==== Sys2Proof/Laws/OnlyLane.lean ====
section
/-!
SUPPORT. What the operations of Machine/Lane.lean may change: one lemma each, from any state reached.
-/
namespace Sys2Proof.Machine

open Sys2Proof.Safety

theorem State.laneEnd_only {fs : List Part} {s0 : State} {s n bk} (h_s : Only fs s0 s) (hsub : In [.mem, .eccBad, .lanes] fs) :
    Only fs s0 (State.laneEnd s n bk) := by
  unfold State.laneEnd
  extract_lets +onlyGivenNames v0
  clear_value v0
  extract_lets +onlyGivenNames v1
  clear_value v1
  extract_lets +onlyGivenNames v2
  have h2 : Only fs s0 v2 := forL_only (fun _ _ h3 => State.putWord_only h3 (inT rfl hsub)) h_s
  clear_value v2
  exact State.onLn_only h2 (inT rfl hsub)

theorem State.laneDrop_only {fs : List Part} {s0 : State} {s n bk} (h_s : Only fs s0 s) (hsub : In [.lanes] fs) :
    Only fs s0 (State.laneDrop s n bk) := by
  unfold State.laneDrop
  extract_lets +onlyGivenNames v0
  clear_value v0
  extract_lets +onlyGivenNames v1
  clear_value v1
  exact State.onLn_only h_s hsub

theorem State.laneStop_only {fs : List Part} {s0 : State} {s n bk} (h_s : Only fs s0 s) (hsub : In [.regs, .stage, .axes, .fbs, .mots, .legs, .lanes, .cans, .dos, .safety, .trace, .log, .chans, .timers] fs) :
    Only fs s0 (State.laneStop s n bk) := by
  unfold State.laneStop
  exact State.laneFault_only (State.inc16_only (State.laneDrop_only h_s (inT rfl hsub)) (inT rfl hsub)) hsub

theorem State.laneEccStop_only {fs : List Part} {s0 : State} {s n bk} (h_s : Only fs s0 s) (hsub : In [.regs, .stage, .axes, .fbs, .mots, .legs, .lanes, .cans, .dos, .safety, .trace, .log, .chans, .timers] fs) :
    Only fs s0 (State.laneEccStop s n bk) := by
  unfold State.laneEccStop
  exact State.laneFault_only (State.laneDrop_only h_s (inT rfl hsub)) hsub

theorem State.localStores_only {fs : List Part} {s0 : State} {s n e} (h_s : Only fs s0 s) (hsub : In [.mem, .eccBad] fs) :
    Only fs s0 (State.localStores s n e) := by
  unfold State.localStores
  exact forL_only (fun _ _ h0 => State.putWord_only h0 hsub) h_s

theorem State.laneApply_only {fs : List Part} {s0 : State} {s n bk e} (h_s : Only fs s0 s) (hsub : In [.mem, .eccBad, .lanes, .sched] fs) :
    Only fs s0 (State.laneApply s n bk e) := by
  unfold State.laneApply
  extract_lets +onlyGivenNames v0
  clear_value v0
  extract_lets +onlyGivenNames v1
  clear_value v1
  split
  · extract_lets +onlyGivenNames v2
    clear_value v2
    extract_lets +onlyGivenNames v3
    clear_value v3
    extract_lets +onlyGivenNames v4
    have h4 : Only fs s0 v4 := State.onSched_only (State.localStores_only h_s (inT rfl hsub)) (inT rfl hsub)
    clear_value v4
    exact State.onLn_only h4 (inT rfl hsub)

theorem State.laneStep_only {fs : List Part} {s0 : State} {s l i op} (h_s : Only fs s0 s) (hsub : In [.regs, .mem, .eccBad, .stage, .axes, .fbs, .mots, .legs, .lanes, .cans, .dos, .safety, .trace, .log, .chans, .timers, .sched] fs) :
    Only fs s0 (State.laneStep s l i op) := by
  unfold State.laneStep
  extract_lets +onlyGivenNames v0
  clear_value v0
  split
  · exact h_s
  · refine only_ite h_s ?_
    refine only_ite (State.laneStop_only h_s (inT rfl hsub)) ?_
    refine only_ite (State.laneEccStop_only h_s (inT rfl hsub)) ?_
    split
    · exact State.laneStop_only h_s (inT rfl hsub)
    · extract_lets +onlyGivenNames v1
      clear_value v1
      exact only_ite h_s (only_ite (State.laneStop_only h_s (inT rfl hsub)) (only_ite (State.laneEccStop_only h_s (inT rfl hsub)) (only_ite (State.laneEnd_only (State.laneApply_only h_s (inT rfl hsub)) (inT rfl hsub)) (State.laneApply_only h_s (inT rfl hsub)))))

theorem execNop_only {fs : List Part} {s0 : State} {l s} (h_s : Only fs s0 s) (hsub : In [.regs, .mem, .eccBad, .stage, .axes, .fbs, .mots, .legs, .lanes, .cans, .dos, .safety, .trace, .log, .chans, .timers, .sched] fs) :
    OnlyN fs s0 (execNop l s) := by
  unfold execNop
  exact onlyN_next (State.laneStep_only h_s hsub)

theorem execAdd_only {fs : List Part} {s0 : State} {l d a b s} (h_s : Only fs s0 s) (hsub : In [.regs, .mem, .eccBad, .stage, .axes, .fbs, .mots, .legs, .lanes, .cans, .dos, .safety, .trace, .log, .chans, .timers, .sched] fs) :
    OnlyN fs s0 (execAdd l d a b s) := by
  unfold execAdd
  exact onlyN_next (State.laneStep_only h_s hsub)

theorem execSub_only {fs : List Part} {s0 : State} {l d a b s} (h_s : Only fs s0 s) (hsub : In [.regs, .mem, .eccBad, .stage, .axes, .fbs, .mots, .legs, .lanes, .cans, .dos, .safety, .trace, .log, .chans, .timers, .sched] fs) :
    OnlyN fs s0 (execSub l d a b s) := by
  unfold execSub
  exact onlyN_next (State.laneStep_only h_s hsub)

theorem execAdds_only {fs : List Part} {s0 : State} {l d a b s} (h_s : Only fs s0 s) (hsub : In [.regs, .mem, .eccBad, .stage, .axes, .fbs, .mots, .legs, .lanes, .cans, .dos, .safety, .trace, .log, .chans, .timers, .sched] fs) :
    OnlyN fs s0 (execAdds l d a b s) := by
  unfold execAdds
  exact onlyN_next (State.laneStep_only h_s hsub)

theorem execSubs_only {fs : List Part} {s0 : State} {l d a b s} (h_s : Only fs s0 s) (hsub : In [.regs, .mem, .eccBad, .stage, .axes, .fbs, .mots, .legs, .lanes, .cans, .dos, .safety, .trace, .log, .chans, .timers, .sched] fs) :
    OnlyN fs s0 (execSubs l d a b s) := by
  unfold execSubs
  exact onlyN_next (State.laneStep_only h_s hsub)

theorem execAnd_only {fs : List Part} {s0 : State} {l d a b s} (h_s : Only fs s0 s) (hsub : In [.regs, .mem, .eccBad, .stage, .axes, .fbs, .mots, .legs, .lanes, .cans, .dos, .safety, .trace, .log, .chans, .timers, .sched] fs) :
    OnlyN fs s0 (execAnd l d a b s) := by
  unfold execAnd
  exact onlyN_next (State.laneStep_only h_s hsub)

theorem execOr_only {fs : List Part} {s0 : State} {l d a b s} (h_s : Only fs s0 s) (hsub : In [.regs, .mem, .eccBad, .stage, .axes, .fbs, .mots, .legs, .lanes, .cans, .dos, .safety, .trace, .log, .chans, .timers, .sched] fs) :
    OnlyN fs s0 (execOr l d a b s) := by
  unfold execOr
  exact onlyN_next (State.laneStep_only h_s hsub)

theorem execXor_only {fs : List Part} {s0 : State} {l d a b s} (h_s : Only fs s0 s) (hsub : In [.regs, .mem, .eccBad, .stage, .axes, .fbs, .mots, .legs, .lanes, .cans, .dos, .safety, .trace, .log, .chans, .timers, .sched] fs) :
    OnlyN fs s0 (execXor l d a b s) := by
  unfold execXor
  exact onlyN_next (State.laneStep_only h_s hsub)

theorem execAsh_only {fs : List Part} {s0 : State} {l d a b s} (h_s : Only fs s0 s) (hsub : In [.regs, .mem, .eccBad, .stage, .axes, .fbs, .mots, .legs, .lanes, .cans, .dos, .safety, .trace, .log, .chans, .timers, .sched] fs) :
    OnlyN fs s0 (execAsh l d a b s) := by
  unfold execAsh
  exact onlyN_next (State.laneStep_only h_s hsub)

theorem execLsh_only {fs : List Part} {s0 : State} {l d a b s} (h_s : Only fs s0 s) (hsub : In [.regs, .mem, .eccBad, .stage, .axes, .fbs, .mots, .legs, .lanes, .cans, .dos, .safety, .trace, .log, .chans, .timers, .sched] fs) :
    OnlyN fs s0 (execLsh l d a b s) := by
  unfold execLsh
  exact onlyN_next (State.laneStep_only h_s hsub)

theorem execMin_only {fs : List Part} {s0 : State} {l d a b s} (h_s : Only fs s0 s) (hsub : In [.regs, .mem, .eccBad, .stage, .axes, .fbs, .mots, .legs, .lanes, .cans, .dos, .safety, .trace, .log, .chans, .timers, .sched] fs) :
    OnlyN fs s0 (execMin l d a b s) := by
  unfold execMin
  exact onlyN_next (State.laneStep_only h_s hsub)

theorem execMax_only {fs : List Part} {s0 : State} {l d a b s} (h_s : Only fs s0 s) (hsub : In [.regs, .mem, .eccBad, .stage, .axes, .fbs, .mots, .legs, .lanes, .cans, .dos, .safety, .trace, .log, .chans, .timers, .sched] fs) :
    OnlyN fs s0 (execMax l d a b s) := by
  unfold execMax
  exact onlyN_next (State.laneStep_only h_s hsub)

theorem execAbs_only {fs : List Part} {s0 : State} {l d a s} (h_s : Only fs s0 s) (hsub : In [.regs, .mem, .eccBad, .stage, .axes, .fbs, .mots, .legs, .lanes, .cans, .dos, .safety, .trace, .log, .chans, .timers, .sched] fs) :
    OnlyN fs s0 (execAbs l d a s) := by
  unfold execAbs
  exact onlyN_next (State.laneStep_only h_s hsub)

theorem execNeg_only {fs : List Part} {s0 : State} {l d a s} (h_s : Only fs s0 s) (hsub : In [.regs, .mem, .eccBad, .stage, .axes, .fbs, .mots, .legs, .lanes, .cans, .dos, .safety, .trace, .log, .chans, .timers, .sched] fs) :
    OnlyN fs s0 (execNeg l d a s) := by
  unfold execNeg
  exact onlyN_next (State.laneStep_only h_s hsub)

theorem execSlt_only {fs : List Part} {s0 : State} {l d a b s} (h_s : Only fs s0 s) (hsub : In [.regs, .mem, .eccBad, .stage, .axes, .fbs, .mots, .legs, .lanes, .cans, .dos, .safety, .trace, .log, .chans, .timers, .sched] fs) :
    OnlyN fs s0 (execSlt l d a b s) := by
  unfold execSlt
  exact onlyN_next (State.laneStep_only h_s hsub)

theorem execSltu_only {fs : List Part} {s0 : State} {l d a b s} (h_s : Only fs s0 s) (hsub : In [.regs, .mem, .eccBad, .stage, .axes, .fbs, .mots, .legs, .lanes, .cans, .dos, .safety, .trace, .log, .chans, .timers, .sched] fs) :
    OnlyN fs s0 (execSltu l d a b s) := by
  unfold execSltu
  exact onlyN_next (State.laneStep_only h_s hsub)

theorem execSeq_only {fs : List Part} {s0 : State} {l d a b s} (h_s : Only fs s0 s) (hsub : In [.regs, .mem, .eccBad, .stage, .axes, .fbs, .mots, .legs, .lanes, .cans, .dos, .safety, .trace, .log, .chans, .timers, .sched] fs) :
    OnlyN fs s0 (execSeq l d a b s) := by
  unfold execSeq
  exact onlyN_next (State.laneStep_only h_s hsub)

theorem execSelnz_only {fs : List Part} {s0 : State} {l d a b c s} (h_s : Only fs s0 s) (hsub : In [.regs, .mem, .eccBad, .stage, .axes, .fbs, .mots, .legs, .lanes, .cans, .dos, .safety, .trace, .log, .chans, .timers, .sched] fs) :
    OnlyN fs s0 (execSelnz l d a b c s) := by
  unfold execSelnz
  exact onlyN_next (State.laneStep_only h_s hsub)

theorem execMul_only {fs : List Part} {s0 : State} {l d a b s} (h_s : Only fs s0 s) (hsub : In [.regs, .mem, .eccBad, .stage, .axes, .fbs, .mots, .legs, .lanes, .cans, .dos, .safety, .trace, .log, .chans, .timers, .sched] fs) :
    OnlyN fs s0 (execMul l d a b s) := by
  unfold execMul
  exact onlyN_next (State.laneStep_only h_s hsub)

theorem execCls_only {fs : List Part} {s0 : State} {l d a s} (h_s : Only fs s0 s) (hsub : In [.regs, .mem, .eccBad, .stage, .axes, .fbs, .mots, .legs, .lanes, .cans, .dos, .safety, .trace, .log, .chans, .timers, .sched] fs) :
    OnlyN fs s0 (execCls l d a s) := by
  unfold execCls
  exact onlyN_next (State.laneStep_only h_s hsub)

theorem execMov_only {fs : List Part} {s0 : State} {l d a s} (h_s : Only fs s0 s) (hsub : In [.regs, .mem, .eccBad, .stage, .axes, .fbs, .mots, .legs, .lanes, .cans, .dos, .safety, .trace, .log, .chans, .timers, .sched] fs) :
    OnlyN fs s0 (execMov l d a s) := by
  unfold execMov
  exact onlyN_next (State.laneStep_only h_s hsub)

theorem execAddi_only {fs : List Part} {s0 : State} {l d a imm s} (h_s : Only fs s0 s) (hsub : In [.regs, .mem, .eccBad, .stage, .axes, .fbs, .mots, .legs, .lanes, .cans, .dos, .safety, .trace, .log, .chans, .timers, .sched] fs) :
    OnlyN fs s0 (execAddi l d a imm s) := by
  unfold execAddi
  exact onlyN_next (State.laneStep_only h_s hsub)

theorem execMovi_only {fs : List Part} {s0 : State} {l d imm s} (h_s : Only fs s0 s) (hsub : In [.regs, .mem, .eccBad, .stage, .axes, .fbs, .mots, .legs, .lanes, .cans, .dos, .safety, .trace, .log, .chans, .timers, .sched] fs) :
    OnlyN fs s0 (execMovi l d imm s) := by
  unfold execMovi
  exact onlyN_next (State.laneStep_only h_s hsub)

theorem execMovhi_only {fs : List Part} {s0 : State} {l d imm s} (h_s : Only fs s0 s) (hsub : In [.regs, .mem, .eccBad, .stage, .axes, .fbs, .mots, .legs, .lanes, .cans, .dos, .safety, .trace, .log, .chans, .timers, .sched] fs) :
    OnlyN fs s0 (execMovhi l d imm s) := by
  unfold execMovhi
  exact onlyN_next (State.laneStep_only h_s hsub)

theorem execAndi_only {fs : List Part} {s0 : State} {l d a imm s} (h_s : Only fs s0 s) (hsub : In [.regs, .mem, .eccBad, .stage, .axes, .fbs, .mots, .legs, .lanes, .cans, .dos, .safety, .trace, .log, .chans, .timers, .sched] fs) :
    OnlyN fs s0 (execAndi l d a imm s) := by
  unfold execAndi
  exact onlyN_next (State.laneStep_only h_s hsub)

theorem execOri_only {fs : List Part} {s0 : State} {l d a imm s} (h_s : Only fs s0 s) (hsub : In [.regs, .mem, .eccBad, .stage, .axes, .fbs, .mots, .legs, .lanes, .cans, .dos, .safety, .trace, .log, .chans, .timers, .sched] fs) :
    OnlyN fs s0 (execOri l d a imm s) := by
  unfold execOri
  exact onlyN_next (State.laneStep_only h_s hsub)

theorem execAshi_only {fs : List Part} {s0 : State} {l d a imm s} (h_s : Only fs s0 s) (hsub : In [.regs, .mem, .eccBad, .stage, .axes, .fbs, .mots, .legs, .lanes, .cans, .dos, .safety, .trace, .log, .chans, .timers, .sched] fs) :
    OnlyN fs s0 (execAshi l d a imm s) := by
  unfold execAshi
  exact onlyN_next (State.laneStep_only h_s hsub)

theorem execLshi_only {fs : List Part} {s0 : State} {l d a imm s} (h_s : Only fs s0 s) (hsub : In [.regs, .mem, .eccBad, .stage, .axes, .fbs, .mots, .legs, .lanes, .cans, .dos, .safety, .trace, .log, .chans, .timers, .sched] fs) :
    OnlyN fs s0 (execLshi l d a imm s) := by
  unfold execLshi
  exact onlyN_next (State.laneStep_only h_s hsub)

theorem execLd_only {fs : List Part} {s0 : State} {l d p sp f s} (h_s : Only fs s0 s) (hsub : In [.regs, .mem, .eccBad, .stage, .axes, .fbs, .mots, .legs, .lanes, .cans, .dos, .safety, .trace, .log, .chans, .timers, .sched] fs) :
    OnlyN fs s0 (execLd l d p sp f s) := by
  unfold execLd
  exact onlyN_next (State.laneStep_only h_s hsub)

theorem execSt_only {fs : List Part} {s0 : State} {l d p sp f s} (h_s : Only fs s0 s) (hsub : In [.regs, .mem, .eccBad, .stage, .axes, .fbs, .mots, .legs, .lanes, .cans, .dos, .safety, .trace, .log, .chans, .timers, .sched] fs) :
    OnlyN fs s0 (execSt l d p sp f s) := by
  unfold execSt
  exact onlyN_next (State.laneStep_only h_s hsub)

theorem execLd2_only {fs : List Part} {s0 : State} {l d p sp f s} (h_s : Only fs s0 s) (hsub : In [.regs, .mem, .eccBad, .stage, .axes, .fbs, .mots, .legs, .lanes, .cans, .dos, .safety, .trace, .log, .chans, .timers, .sched] fs) :
    OnlyN fs s0 (execLd2 l d p sp f s) := by
  unfold execLd2
  exact onlyN_next (State.laneStep_only h_s hsub)

theorem execSt2_only {fs : List Part} {s0 : State} {l d p sp f s} (h_s : Only fs s0 s) (hsub : In [.regs, .mem, .eccBad, .stage, .axes, .fbs, .mots, .legs, .lanes, .cans, .dos, .safety, .trace, .log, .chans, .timers, .sched] fs) :
    OnlyN fs s0 (execSt2 l d p sp f s) := by
  unfold execSt2
  exact onlyN_next (State.laneStep_only h_s hsub)

theorem execLdsig_only {fs : List Part} {s0 : State} {l d sel s} (h_s : Only fs s0 s) (hsub : In [.regs, .mem, .eccBad, .stage, .axes, .fbs, .mots, .legs, .lanes, .cans, .dos, .safety, .trace, .log, .chans, .timers, .sched] fs) :
    OnlyN fs s0 (execLdsig l d sel s) := by
  unfold execLdsig
  exact onlyN_next (State.laneStep_only h_s hsub)

theorem execSacst_only {fs : List Part} {s0 : State} {l acc p sp f sh s} (h_s : Only fs s0 s) (hsub : In [.regs, .mem, .eccBad, .stage, .axes, .fbs, .mots, .legs, .lanes, .cans, .dos, .safety, .trace, .log, .chans, .timers, .sched] fs) :
    OnlyN fs s0 (execSacst l acc p sp f sh s) := by
  unfold execSacst
  exact onlyN_next (State.laneStep_only h_s hsub)

theorem execMpy_only {fs : List Part} {s0 : State} {l acc a b s} (h_s : Only fs s0 s) (hsub : In [.regs, .mem, .eccBad, .stage, .axes, .fbs, .mots, .legs, .lanes, .cans, .dos, .safety, .trace, .log, .chans, .timers, .sched] fs) :
    OnlyN fs s0 (execMpy l acc a b s) := by
  unfold execMpy
  exact onlyN_next (State.laneStep_only h_s hsub)

theorem execMac_only {fs : List Part} {s0 : State} {l acc a b s} (h_s : Only fs s0 s) (hsub : In [.regs, .mem, .eccBad, .stage, .axes, .fbs, .mots, .legs, .lanes, .cans, .dos, .safety, .trace, .log, .chans, .timers, .sched] fs) :
    OnlyN fs s0 (execMac l acc a b s) := by
  unfold execMac
  exact onlyN_next (State.laneStep_only h_s hsub)

theorem execMsu_only {fs : List Part} {s0 : State} {l acc a b s} (h_s : Only fs s0 s) (hsub : In [.regs, .mem, .eccBad, .stage, .axes, .fbs, .mots, .legs, .lanes, .cans, .dos, .safety, .trace, .log, .chans, .timers, .sched] fs) :
    OnlyN fs s0 (execMsu l acc a b s) := by
  unfold execMsu
  exact onlyN_next (State.laneStep_only h_s hsub)

theorem execMpyi_only {fs : List Part} {s0 : State} {l acc a b s} (h_s : Only fs s0 s) (hsub : In [.regs, .mem, .eccBad, .stage, .axes, .fbs, .mots, .legs, .lanes, .cans, .dos, .safety, .trace, .log, .chans, .timers, .sched] fs) :
    OnlyN fs s0 (execMpyi l acc a b s) := by
  unfold execMpyi
  exact onlyN_next (State.laneStep_only h_s hsub)

theorem execMaci_only {fs : List Part} {s0 : State} {l acc a b s} (h_s : Only fs s0 s) (hsub : In [.regs, .mem, .eccBad, .stage, .axes, .fbs, .mots, .legs, .lanes, .cans, .dos, .safety, .trace, .log, .chans, .timers, .sched] fs) :
    OnlyN fs s0 (execMaci l acc a b s) := by
  unfold execMaci
  exact onlyN_next (State.laneStep_only h_s hsub)

theorem execMsui_only {fs : List Part} {s0 : State} {l acc a b s} (h_s : Only fs s0 s) (hsub : In [.regs, .mem, .eccBad, .stage, .axes, .fbs, .mots, .legs, .lanes, .cans, .dos, .safety, .trace, .log, .chans, .timers, .sched] fs) :
    OnlyN fs s0 (execMsui l acc a b s) := by
  unfold execMsui
  exact onlyN_next (State.laneStep_only h_s hsub)

theorem execSac_only {fs : List Part} {s0 : State} {l d acc sh s} (h_s : Only fs s0 s) (hsub : In [.regs, .mem, .eccBad, .stage, .axes, .fbs, .mots, .legs, .lanes, .cans, .dos, .safety, .trace, .log, .chans, .timers, .sched] fs) :
    OnlyN fs s0 (execSac l d acc sh s) := by
  unfold execSac
  exact onlyN_next (State.laneStep_only h_s hsub)

theorem execMpyr_only {fs : List Part} {s0 : State} {l d a b s} (h_s : Only fs s0 s) (hsub : In [.regs, .mem, .eccBad, .stage, .axes, .fbs, .mots, .legs, .lanes, .cans, .dos, .safety, .trace, .log, .chans, .timers, .sched] fs) :
    OnlyN fs s0 (execMpyr l d a b s) := by
  unfold execMpyr
  exact onlyN_next (State.laneStep_only h_s hsub)

theorem execMova_only {fs : List Part} {s0 : State} {l acc a b s} (h_s : Only fs s0 s) (hsub : In [.regs, .mem, .eccBad, .stage, .axes, .fbs, .mots, .legs, .lanes, .cans, .dos, .safety, .trace, .log, .chans, .timers, .sched] fs) :
    OnlyN fs s0 (execMova l acc a b s) := by
  unfold execMova
  exact onlyN_next (State.laneStep_only h_s hsub)

theorem execAdda_only {fs : List Part} {s0 : State} {l acc accb s} (h_s : Only fs s0 s) (hsub : In [.regs, .mem, .eccBad, .stage, .axes, .fbs, .mots, .legs, .lanes, .cans, .dos, .safety, .trace, .log, .chans, .timers, .sched] fs) :
    OnlyN fs s0 (execAdda l acc accb s) := by
  unfold execAdda
  exact onlyN_next (State.laneStep_only h_s hsub)

theorem execSuba_only {fs : List Part} {s0 : State} {l acc accb s} (h_s : Only fs s0 s) (hsub : In [.regs, .mem, .eccBad, .stage, .axes, .fbs, .mots, .legs, .lanes, .cans, .dos, .safety, .trace, .log, .chans, .timers, .sched] fs) :
    OnlyN fs s0 (execSuba l acc accb s) := by
  unfold execSuba
  exact onlyN_next (State.laneStep_only h_s hsub)

theorem execAsha_only {fs : List Part} {s0 : State} {l acc sh s} (h_s : Only fs s0 s) (hsub : In [.regs, .mem, .eccBad, .stage, .axes, .fbs, .mots, .legs, .lanes, .cans, .dos, .safety, .trace, .log, .chans, .timers, .sched] fs) :
    OnlyN fs s0 (execAsha l acc sh s) := by
  unfold execAsha
  exact onlyN_next (State.laneStep_only h_s hsub)

theorem execClra_only {fs : List Part} {s0 : State} {l acc s} (h_s : Only fs s0 s) (hsub : In [.regs, .mem, .eccBad, .stage, .axes, .fbs, .mots, .legs, .lanes, .cans, .dos, .safety, .trace, .log, .chans, .timers, .sched] fs) :
    OnlyN fs s0 (execClra l acc s) := by
  unfold execClra
  exact onlyN_next (State.laneStep_only h_s hsub)

theorem execAddad_only {fs : List Part} {s0 : State} {l acc a b s} (h_s : Only fs s0 s) (hsub : In [.regs, .mem, .eccBad, .stage, .axes, .fbs, .mots, .legs, .lanes, .cans, .dos, .safety, .trace, .log, .chans, .timers, .sched] fs) :
    OnlyN fs s0 (execAddad l acc a b s) := by
  unfold execAddad
  exact onlyN_next (State.laneStep_only h_s hsub)

theorem execSubad_only {fs : List Part} {s0 : State} {l acc a b s} (h_s : Only fs s0 s) (hsub : In [.regs, .mem, .eccBad, .stage, .axes, .fbs, .mots, .legs, .lanes, .cans, .dos, .safety, .trace, .log, .chans, .timers, .sched] fs) :
    OnlyN fs s0 (execSubad l acc a b s) := by
  unfold execSubad
  exact onlyN_next (State.laneStep_only h_s hsub)

theorem execRdl_only {fs : List Part} {s0 : State} {l d acc s} (h_s : Only fs s0 s) (hsub : In [.regs, .mem, .eccBad, .stage, .axes, .fbs, .mots, .legs, .lanes, .cans, .dos, .safety, .trace, .log, .chans, .timers, .sched] fs) :
    OnlyN fs s0 (execRdl l d acc s) := by
  unfold execRdl
  exact onlyN_next (State.laneStep_only h_s hsub)

theorem execRdh_only {fs : List Part} {s0 : State} {l d acc s} (h_s : Only fs s0 s) (hsub : In [.regs, .mem, .eccBad, .stage, .axes, .fbs, .mots, .legs, .lanes, .cans, .dos, .safety, .trace, .log, .chans, .timers, .sched] fs) :
    OnlyN fs s0 (execRdh l d acc s) := by
  unfold execRdh
  exact onlyN_next (State.laneStep_only h_s hsub)

theorem execRdg_only {fs : List Part} {s0 : State} {l d acc s} (h_s : Only fs s0 s) (hsub : In [.regs, .mem, .eccBad, .stage, .axes, .fbs, .mots, .legs, .lanes, .cans, .dos, .safety, .trace, .log, .chans, .timers, .sched] fs) :
    OnlyN fs s0 (execRdg l d acc s) := by
  unfold execRdg
  exact onlyN_next (State.laneStep_only h_s hsub)

theorem execSata_only {fs : List Part} {s0 : State} {l acc s} (h_s : Only fs s0 s) (hsub : In [.regs, .mem, .eccBad, .stage, .axes, .fbs, .mots, .legs, .lanes, .cans, .dos, .safety, .trace, .log, .chans, .timers, .sched] fs) :
    OnlyN fs s0 (execSata l acc s) := by
  unfold execSata
  exact onlyN_next (State.laneStep_only h_s hsub)

theorem execB_only {fs : List Part} {s0 : State} {l target s} (h_s : Only fs s0 s) (hsub : In [.regs, .mem, .eccBad, .stage, .axes, .fbs, .mots, .legs, .lanes, .cans, .dos, .safety, .trace, .log, .chans, .timers, .sched] fs) :
    OnlyN fs s0 (execB l target s) := by
  unfold execB
  exact onlyN_next (State.laneStep_only h_s hsub)

theorem execCall_only {fs : List Part} {s0 : State} {l target s} (h_s : Only fs s0 s) (hsub : In [.regs, .mem, .eccBad, .stage, .axes, .fbs, .mots, .legs, .lanes, .cans, .dos, .safety, .trace, .log, .chans, .timers, .sched] fs) :
    OnlyN fs s0 (execCall l target s) := by
  unfold execCall
  exact onlyN_next (State.laneStep_only h_s hsub)

theorem execRet_only {fs : List Part} {s0 : State} {l s} (h_s : Only fs s0 s) (hsub : In [.regs, .mem, .eccBad, .stage, .axes, .fbs, .mots, .legs, .lanes, .cans, .dos, .safety, .trace, .log, .chans, .timers, .sched] fs) :
    OnlyN fs s0 (execRet l s) := by
  unfold execRet
  exact onlyN_next (State.laneStep_only h_s hsub)

theorem execBeqz_only {fs : List Part} {s0 : State} {l a target s} (h_s : Only fs s0 s) (hsub : In [.regs, .mem, .eccBad, .stage, .axes, .fbs, .mots, .legs, .lanes, .cans, .dos, .safety, .trace, .log, .chans, .timers, .sched] fs) :
    OnlyN fs s0 (execBeqz l a target s) := by
  unfold execBeqz
  exact onlyN_next (State.laneStep_only h_s hsub)

theorem execBnez_only {fs : List Part} {s0 : State} {l a target s} (h_s : Only fs s0 s) (hsub : In [.regs, .mem, .eccBad, .stage, .axes, .fbs, .mots, .legs, .lanes, .cans, .dos, .safety, .trace, .log, .chans, .timers, .sched] fs) :
    OnlyN fs s0 (execBnez l a target s) := by
  unfold execBnez
  exact onlyN_next (State.laneStep_only h_s hsub)

theorem execBltz_only {fs : List Part} {s0 : State} {l a target s} (h_s : Only fs s0 s) (hsub : In [.regs, .mem, .eccBad, .stage, .axes, .fbs, .mots, .legs, .lanes, .cans, .dos, .safety, .trace, .log, .chans, .timers, .sched] fs) :
    OnlyN fs s0 (execBltz l a target s) := by
  unfold execBltz
  exact onlyN_next (State.laneStep_only h_s hsub)

theorem execBgez_only {fs : List Part} {s0 : State} {l a target s} (h_s : Only fs s0 s) (hsub : In [.regs, .mem, .eccBad, .stage, .axes, .fbs, .mots, .legs, .lanes, .cans, .dos, .safety, .trace, .log, .chans, .timers, .sched] fs) :
    OnlyN fs s0 (execBgez l a target s) := by
  unfold execBgez
  exact onlyN_next (State.laneStep_only h_s hsub)

theorem execBgtz_only {fs : List Part} {s0 : State} {l a target s} (h_s : Only fs s0 s) (hsub : In [.regs, .mem, .eccBad, .stage, .axes, .fbs, .mots, .legs, .lanes, .cans, .dos, .safety, .trace, .log, .chans, .timers, .sched] fs) :
    OnlyN fs s0 (execBgtz l a target s) := by
  unfold execBgtz
  exact onlyN_next (State.laneStep_only h_s hsub)

theorem execBlez_only {fs : List Part} {s0 : State} {l a target s} (h_s : Only fs s0 s) (hsub : In [.regs, .mem, .eccBad, .stage, .axes, .fbs, .mots, .legs, .lanes, .cans, .dos, .safety, .trace, .log, .chans, .timers, .sched] fs) :
    OnlyN fs s0 (execBlez l a target s) := by
  unfold execBlez
  exact onlyN_next (State.laneStep_only h_s hsub)

theorem execLoopi_only {fs : List Part} {s0 : State} {l lvl len count s} (h_s : Only fs s0 s) (hsub : In [.regs, .mem, .eccBad, .stage, .axes, .fbs, .mots, .legs, .lanes, .cans, .dos, .safety, .trace, .log, .chans, .timers, .sched] fs) :
    OnlyN fs s0 (execLoopi l lvl len count s) := by
  unfold execLoopi
  exact onlyN_next (State.laneStep_only h_s hsub)

theorem execLoopr_only {fs : List Part} {s0 : State} {l lvl len a mx s} (h_s : Only fs s0 s) (hsub : In [.regs, .mem, .eccBad, .stage, .axes, .fbs, .mots, .legs, .lanes, .cans, .dos, .safety, .trace, .log, .chans, .timers, .sched] fs) :
    OnlyN fs s0 (execLoopr l lvl len a mx s) := by
  unfold execLoopr
  exact onlyN_next (State.laneStep_only h_s hsub)

theorem execMovp_only {fs : List Part} {s0 : State} {l p imm s} (h_s : Only fs s0 s) (hsub : In [.regs, .mem, .eccBad, .stage, .axes, .fbs, .mots, .legs, .lanes, .cans, .dos, .safety, .trace, .log, .chans, .timers, .sched] fs) :
    OnlyN fs s0 (execMovp l p imm s) := by
  unfold execMovp
  exact onlyN_next (State.laneStep_only h_s hsub)

theorem execMovm_only {fs : List Part} {s0 : State} {l p imm s} (h_s : Only fs s0 s) (hsub : In [.regs, .mem, .eccBad, .stage, .axes, .fbs, .mots, .legs, .lanes, .cans, .dos, .safety, .trace, .log, .chans, .timers, .sched] fs) :
    OnlyN fs s0 (execMovm l p imm s) := by
  unfold execMovm
  exact onlyN_next (State.laneStep_only h_s hsub)

theorem execPregSetP_only {fs : List Part} {s0 : State} {l p a s} (h_s : Only fs s0 s) (hsub : In [.regs, .mem, .eccBad, .stage, .axes, .fbs, .mots, .legs, .lanes, .cans, .dos, .safety, .trace, .log, .chans, .timers, .sched] fs) :
    OnlyN fs s0 (execPregSetP l p a s) := by
  unfold execPregSetP
  exact onlyN_next (State.laneStep_only h_s hsub)

theorem execPregGetP_only {fs : List Part} {s0 : State} {l p d s} (h_s : Only fs s0 s) (hsub : In [.regs, .mem, .eccBad, .stage, .axes, .fbs, .mots, .legs, .lanes, .cans, .dos, .safety, .trace, .log, .chans, .timers, .sched] fs) :
    OnlyN fs s0 (execPregGetP l p d s) := by
  unfold execPregGetP
  exact onlyN_next (State.laneStep_only h_s hsub)

theorem execPregAddM_only {fs : List Part} {s0 : State} {l p mm s} (h_s : Only fs s0 s) (hsub : In [.regs, .mem, .eccBad, .stage, .axes, .fbs, .mots, .legs, .lanes, .cans, .dos, .safety, .trace, .log, .chans, .timers, .sched] fs) :
    OnlyN fs s0 (execPregAddM l p mm s) := by
  unfold execPregAddM
  exact onlyN_next (State.laneStep_only h_s hsub)

theorem execPregSetM_only {fs : List Part} {s0 : State} {l mm a s} (h_s : Only fs s0 s) (hsub : In [.regs, .mem, .eccBad, .stage, .axes, .fbs, .mots, .legs, .lanes, .cans, .dos, .safety, .trace, .log, .chans, .timers, .sched] fs) :
    OnlyN fs s0 (execPregSetM l mm a s) := by
  unfold execPregSetM
  exact onlyN_next (State.laneStep_only h_s hsub)

theorem execPregGetM_only {fs : List Part} {s0 : State} {l mm d s} (h_s : Only fs s0 s) (hsub : In [.regs, .mem, .eccBad, .stage, .axes, .fbs, .mots, .legs, .lanes, .cans, .dos, .safety, .trace, .log, .chans, .timers, .sched] fs) :
    OnlyN fs s0 (execPregGetM l mm d s) := by
  unfold execPregGetM
  exact onlyN_next (State.laneStep_only h_s hsub)

theorem execSavel_only {fs : List Part} {s0 : State} {l d s} (h_s : Only fs s0 s) (hsub : In [.regs, .mem, .eccBad, .stage, .axes, .fbs, .mots, .legs, .lanes, .cans, .dos, .safety, .trace, .log, .chans, .timers, .sched] fs) :
    OnlyN fs s0 (execSavel l d s) := by
  unfold execSavel
  exact onlyN_next (State.laneStep_only h_s hsub)

theorem execRestl_only {fs : List Part} {s0 : State} {l d s} (h_s : Only fs s0 s) (hsub : In [.regs, .mem, .eccBad, .stage, .axes, .fbs, .mots, .legs, .lanes, .cans, .dos, .safety, .trace, .log, .chans, .timers, .sched] fs) :
    OnlyN fs s0 (execRestl l d s) := by
  unfold execRestl
  exact onlyN_next (State.laneStep_only h_s hsub)

theorem execEnd_only {fs : List Part} {s0 : State} {l s} (h_s : Only fs s0 s) (hsub : In [.regs, .mem, .eccBad, .stage, .axes, .fbs, .mots, .legs, .lanes, .cans, .dos, .safety, .trace, .log, .chans, .timers, .sched] fs) :
    OnlyN fs s0 (execEnd l s) := by
  unfold execEnd
  exact onlyN_next (State.laneStep_only h_s hsub)

theorem execClrsat_only {fs : List Part} {s0 : State} {l s} (h_s : Only fs s0 s) (hsub : In [.regs, .mem, .eccBad, .stage, .axes, .fbs, .mots, .legs, .lanes, .cans, .dos, .safety, .trace, .log, .chans, .timers, .sched] fs) :
    OnlyN fs s0 (execClrsat l s) := by
  unfold execClrsat
  exact onlyN_next (State.laneStep_only h_s hsub)

theorem execSysReadLsr_only {fs : List Part} {s0 : State} {l d s} (h_s : Only fs s0 s) (hsub : In [.regs, .mem, .eccBad, .stage, .axes, .fbs, .mots, .legs, .lanes, .cans, .dos, .safety, .trace, .log, .chans, .timers, .sched] fs) :
    OnlyN fs s0 (execSysReadLsr l d s) := by
  unfold execSysReadLsr
  exact onlyN_next (State.laneStep_only h_s hsub)

theorem execLoopCountExpiry_only {fs : List Part} {s0 : State} {l lvl s} (h_s : Only fs s0 s) (hsub : In [.regs, .mem, .eccBad, .stage, .axes, .fbs, .mots, .legs, .lanes, .cans, .dos, .safety, .trace, .log, .chans, .timers, .sched] fs) :
    OnlyN fs s0 (execLoopCountExpiry l lvl s) := by
  unfold execLoopCountExpiry
  extract_lets +onlyGivenNames v0
  clear_value v0
  extract_lets +onlyGivenNames v1
  clear_value v1
  split
  · extract_lets +onlyGivenNames v2
    clear_value v2
    extract_lets +onlyGivenNames v3
    clear_value v3
    refine onlyN_ite ?_ (onlyN_next h_s)
    split
    · exact onlyN_next (State.laneStep_only h_s hsub)
    · exact onlyN_next h_s
  · exact onlyN_next h_s

end Sys2Proof.Machine
end

