-- ==== Sys2Proof/Laws/OnlyPower.lean ====
section
/-!
SUPPORT. What the operations of Machine/Power.lean may change: one lemma each, from any state reached.
-/
namespace Sys2Proof.Machine

open Sys2Proof.Safety

theorem State.clearFaults_only {fs : List Part} {s0 : State} {s} (h_s : Only fs s0 s) (hsub : In [.regs, .ctxs] fs) :
    Only fs s0 (State.clearFaults s) := by
  unfold State.clearFaults
  extract_lets +onlyGivenNames v0
  have h0 : Only fs s0 v0 := forL_only (fun _ _ h1 => only_ite h1 (State.onLv_only h1 (inT rfl hsub))) h_s
  clear_value v0
  exact State.clearLoop_only h0 hsub

theorem State.clearCounters_only {fs : List Part} {s0 : State} {s} (h_s : Only fs s0 s) (hsub : In [.regs] fs) :
    Only fs s0 (State.clearCounters s) := by
  unfold State.clearCounters
  extract_lets +onlyGivenNames v0
  have h0 : Only fs s0 v0 := forL_only (fun _ _ h1 => State.setLv_only h1 hsub) h_s
  clear_value v0
  exact forN_only (fun _ _ h2 => State.onLv_only h2 hsub) h0

theorem State.clearLatched_only {fs : List Part} {s0 : State} {s} (h_s : Only fs s0 s) (hsub : In [.regs, .axes, .shares, .chop, .sins, .safety, .trace, .log] fs) :
    Only fs s0 (State.clearLatched s) := by
  unfold State.clearLatched
  extract_lets +onlyGivenNames v0
  have h0 : Only fs s0 v0 := State.clearSin_only h_s (inT rfl hsub)
  clear_value v0
  extract_lets +onlyGivenNames v1
  have h1 : Only fs s0 v1 := by
    unfold v1
    split
    · exact only_ite (State.chopClear_only h0 (inT rfl hsub)) h0
    · exact h0
  clear_value v1
  extract_lets +onlyGivenNames v2
  have h2 : Only fs s0 v2 := forN_only (fun _ _ h3 => only_ite (State.onSh_only (State.shareMismatch_only h3 (inT rfl hsub)) (inT rfl hsub)) h3) h1
  clear_value v2
  extract_lets +onlyGivenNames v4
  have h4 : Only fs s0 v4 := State.clearSrc_only h2 (inT rfl hsub)
  clear_value v4
  exact only_ite h4 (State.onSafe_only h4 (inT rfl hsub))

theorem State.clearAll_only {fs : List Part} {s0 : State} {s} (h_s : Only fs s0 s) (hsub : In [.regs, .axes, .ctxs, .shares, .chop, .sins, .safety, .trace, .log] fs) :
    Only fs s0 (State.clearAll s) := by
  unfold State.clearAll
  exact State.clearCounters_only (State.clearFaults_only (State.clearLatched_only h_s (inT rfl hsub)) (inT rfl hsub)) (inT rfl hsub)

theorem execClearEvents_only {fs : List Part} {s0 : State} {m seq arg8 s} (h_s : Only fs s0 s) (hsub : In [.regs, .host, .mgr, .axes, .ctxs, .shares, .chop, .sins, .safety, .trace, .log] fs) :
    OnlyN fs s0 (execClearEvents m seq arg8 s) := by
  unfold execClearEvents
  extract_lets +onlyGivenNames v0
  clear_value v0
  exact onlyN_next (State.command_only h_s (fun _ h1 => State.accept_only (State.clearAll_only h1 (inT rfl hsub)) (inT rfl hsub)) (inT rfl hsub))

theorem State.powerReq_only {fs : List Part} {s0 : State} {s m v} (h_s : Only fs s0 s) (hsub : In [.regs, .host, .mgr, .trace, .log, .sched] fs) :
    Only fs s0 (State.powerReq s m v) := by
  unfold State.powerReq
  extract_lets +onlyGivenNames v0
  clear_value v0
  exact only_ite (State.refuseBy_only h_s (inT rfl hsub)) (State.onSched_only (State.setLv_only h_s (inT rfl hsub)) (inT rfl hsub))

theorem execPowerReq_only {fs : List Part} {s0 : State} {v s} (h_s : Only fs s0 s) (hsub : In [.regs, .host, .mgr, .trace, .log, .sched] fs) :
    OnlyN fs s0 (execPowerReq v s) := by
  unfold execPowerReq
  exact onlyN_ite (onlyN_next (State.powerReq_only (State.touch_only h_s (inT rfl hsub)) hsub)) (onlyN_next h_s)

end Sys2Proof.Machine
end

