-- ==== Sys2Proof/Laws/OnlyBus.lean ====
section
/-!
SUPPORT. What the operations of Machine/Bus.lean may change: one lemma each, from any state reached.
-/
namespace Sys2Proof.Machine

open Sys2Proof.Safety

theorem outSt_only {fs : List Part} {s0 : State} {o : Out} {s : State} (ho : OnlyN fs s0 o) (h : Only fs s0 s) :
    Only fs s0 (outSt o s) := by
  unfold outSt
  split
  · exact ho _ rfl
  · exact h

theorem State.memRead_only {fs : List Part} {s0 : State} {s a} (h_s : Only fs s0 s) (hsub : In [.free] fs) :
    Only1 fs s0 (State.memRead s a) := by
  unfold State.memRead
  refine only1_ite (only1_mk h_s) ?_
  refine only1_ite ?_ (only1_mk h_s)
  refine only1_ite (only1_mk h_s) ?_
  split
  · rename_i x0 x1 t2 e3
    have h4 := only2_snd (State.takeFree_only h_s hsub) e3
    exact only1_mk h4

theorem State.busRead_only {fs : List Part} {s0 : State} {s m a} (h_s : Only fs s0 s) (hsub : In [.host, .mgr, .cans, .free] fs) :
    Only1 fs s0 (State.busRead s m a) := by
  unfold State.busRead
  extract_lets +onlyGivenNames v0
  have h0 : Only fs s0 v0 := State.touch_only h_s (inT rfl hsub)
  clear_value v0
  extract_lets +onlyGivenNames v1
  clear_value v1
  extract_lets +onlyGivenNames v2
  clear_value v2
  refine only1_ite ?_ ?_
  · split
    · exact only1_mk (State.onMstr_only h0 (inT rfl hsub))
    · extract_lets +onlyGivenNames v3
      clear_value v3
      extract_lets +onlyGivenNames v4
      clear_value v4
      exact only1_ite (only1_mk (State.onMstr_only h0 (inT rfl hsub))) (only1_mk h0)
  · split
    · rename_i x5 t6 x7 e8
      have h9 := only1_fst (State.memRead_only h0 (inT rfl hsub)) e8
      exact only1_mk (State.msgRead_only h9 (inT rfl hsub))

theorem State.sysCmd_only {fs : List Part} {s0 : State} {s m v} (h_s : Only fs s0 s) (hsub : In [.regs, .stg, .power, .stage, .host, .mgr, .axes, .ctxs, .mots, .legs, .shares, .rescue, .chop, .sins, .safety, .trace, .log, .timers, .precheck] fs) :
    Only fs s0 (State.sysCmd s m v) := by
  unfold State.sysCmd
  extract_lets +onlyGivenNames v0
  clear_value v0
  extract_lets +onlyGivenNames v1
  clear_value v1
  split
  · exact outSt_only (execStageOpen_only h_s (inT rfl hsub)) h_s
  · exact outSt_only (execStageDiscard_only h_s (inT rfl hsub)) h_s
  · exact outSt_only (execProof_only h_s (inT rfl hsub)) h_s
  · exact outSt_only (execStrike_only h_s (inT rfl hsub)) h_s
  · exact outSt_only (execStrikeAt_only h_s (inT rfl hsub)) h_s
  · exact outSt_only (execProofStrike_only h_s (inT rfl hsub)) h_s
  · exact outSt_only (execPrecheck_only h_s (inT rfl hsub)) h_s
  · exact outSt_only (execSafeStop_only h_s (inT rfl hsub)) h_s
  · exact outSt_only (execClearEvents_only h_s (inT rfl hsub)) h_s
  · exact outSt_only (execReadmit_only h_s (inT rfl hsub)) h_s
  · exact outSt_only (execSaveImage_only h_s (inT rfl hsub)) h_s
  · exact State.badCommand_only h_s (inT rfl hsub)

theorem State.actLow_only {fs : List Part} {s0 : State} {s m p o v} (h_s : Only fs s0 s) (hsub : In [.regs, .stg, .mem, .eccBad, .power, .time, .stage, .host, .mgr, .axes, .drives, .ctxs, .mots, .legs, .shares, .rescue, .chop, .dma, .dmaHalted, .cans, .sins, .safety, .trace, .log, .chans, .timers, .sched, .precheck] fs) :
    OnlyO fs s0 (State.actLow s m p o v) := by
  unfold State.actLow
  extract_lets +onlyGivenNames v0
  have h0 : Only fs s0 v0 := only_ite (State.relockBy_only h_s (inT rfl hsub)) h_s
  clear_value v0
  extract_lets +onlyGivenNames v1
  have h1 : Only fs s0 v1 := only_ite (State.ntSetBy_only h0 (inT rfl hsub)) h0
  clear_value v1
  extract_lets +onlyGivenNames v2
  clear_value v2
  extract_lets +onlyGivenNames v3
  have h3 : Only fs s0 v3 := only_ite (State.netSend_only h_s (inT rfl hsub)) h_s
  clear_value v3
  exact onlyO_ite (onlyO_some (State.sysCmd_only h_s (inT rfl hsub))) (onlyO_ite (onlyO_some (only_ite (State.bcastBy_only h1 (inT rfl hsub)) h1)) (onlyO_ite (onlyO_some (State.powerReq_only h_s (inT rfl hsub))) (onlyO_ite (onlyO_some (State.axisCmd_only h_s (inT rfl hsub))) (onlyO_ite (onlyO_some (State.selHost_only h_s (inT rfl hsub))) (onlyO_ite (onlyO_some (State.dmaCmd_only h_s (inT rfl hsub))) (onlyO_ite (onlyO_some (State.traceCmd_only h_s (inT rfl hsub))) (onlyO_ite (onlyO_ite (onlyO_some (only_ite (State.canRecover_only h_s (inT rfl hsub)) h_s)) (onlyO_ite (onlyO_some (State.canTxReq_only h_s (inT rfl hsub))) (onlyO_ite (onlyO_some (State.canTxAbort_only h_s (inT rfl hsub))) (onlyO_none)))) (onlyO_ite (onlyO_some (only_ite (State.netCancel_only h3 (inT rfl hsub)) h3)) (onlyO_none)))))))))

theorem State.actHigh_only {fs : List Part} {s0 : State} {s m p o v} (h_s : Only fs s0 s) (hsub : In [.regs, .mem, .eccBad, .stage, .host, .mgr, .axes, .fbs, .mots, .cmps, .latches, .groups, .legs, .lanes, .rescue, .dma, .dmaHalted, .cans, .dos, .safety, .trace, .log, .chans, .timers] fs) :
    OnlyO fs s0 (State.actHigh s m p o v) := by
  unfold State.actHigh
  extract_lets +onlyGivenNames v0
  clear_value v0
  refine onlyO_ite (onlyO_ite (onlyO_some (State.loadCmd_only h_s (inT rfl hsub))) (onlyO_none)) ?_
  refine onlyO_ite (onlyO_ite (onlyO_some (State.motCmd_only h_s (inT rfl hsub))) (onlyO_ite (onlyO_some (outSt_only (execCompareArm_only h_s (inT rfl hsub)) h_s)) (onlyO_ite (onlyO_some (outSt_only (execCompareArm_only h_s (inT rfl hsub)) h_s)) (onlyO_ite (onlyO_some (outSt_only (execLatchArm_only h_s (inT rfl hsub)) h_s)) (onlyO_ite (onlyO_some (outSt_only (execLatchArm_only h_s (inT rfl hsub)) h_s)) (onlyO_none)))))) ?_
  refine onlyO_ite ?_ ?_
  · split
    · extract_lets +onlyGivenNames v1
      have h1 : Only fs s0 v1 := only_ite (State.pushBy_only h_s (inT rfl hsub)) h_s
      clear_value v1
      exact onlyO_some (only_ite (State.flushBy_only h1 (inT rfl hsub)) h1)
    · exact onlyO_none
  · refine onlyO_ite (onlyO_ite (onlyO_some (only_ite (State.rescueStartBy_only h_s (inT rfl hsub)) h_s)) (onlyO_none)) ?_
    refine onlyO_ite ?_ ?_
    · split
      · extract_lets +onlyGivenNames v2
        clear_value v2
        exact onlyO_ite (onlyO_some (State.dutyWrite_only h_s (inT rfl hsub))) (onlyO_ite (onlyO_some (State.periodWrite_only h_s (inT rfl hsub))) (onlyO_some (State.pwmCtrlWrite_only h_s (inT rfl hsub))))
      · exact onlyO_none
    · refine onlyO_ite ?_ (onlyO_none)
      split
      · exact onlyO_some (State.chCmd_only h_s (inT rfl hsub))
      · exact onlyO_none

theorem State.liveWrite_only {fs : List Part} {s0 : State} {s m p o v} (h_s : Only fs s0 s) (hsub : In [.regs, .stg, .mem, .eccBad, .power, .time, .stage, .host, .mgr, .axes, .drives, .ctxs, .fbs, .mots, .cmps, .latches, .groups, .legs, .lanes, .shares, .rescue, .chop, .dma, .dmaHalted, .cans, .dos, .sins, .safety, .trace, .log, .chans, .timers, .sched, .precheck] fs) :
    Only fs s0 (State.liveWrite s m p o v) := by
  unfold State.liveWrite
  split
  · exact h_s
  · split
    · rename_i x0 t1 e2
      have h3 := onlyO_get (onlyO_ite (State.actLow_only h_s (inT rfl hsub)) (State.actHigh_only h_s (inT rfl hsub))) e2
      exact h3
    · split
      · exact State.setLv_only h_s (inT rfl hsub)
      · exact State.onLv_only h_s (inT rfl hsub)
      · exact h_s

theorem State.pairWrite_only {fs : List Part} {s0 : State} {s m a v} (h_s : Only fs s0 s) (hsub : In [.regs, .stg, .mem, .eccBad, .power, .time, .stage, .host, .mgr, .axes, .drives, .ctxs, .fbs, .mots, .cmps, .latches, .groups, .legs, .lanes, .shares, .rescue, .chop, .dma, .dmaHalted, .cans, .dos, .sins, .safety, .trace, .log, .chans, .timers, .sched, .precheck] fs) :
    Only fs s0 (State.pairWrite s m a v) := by
  unfold State.pairWrite
  extract_lets +onlyGivenNames v0
  clear_value v0
  extract_lets +onlyGivenNames v1
  clear_value v1
  extract_lets +onlyGivenNames v2
  clear_value v2
  extract_lets +onlyGivenNames v3
  have h3 : Only fs s0 v3 := State.touch_only h_s (inT rfl hsub)
  clear_value v3
  refine only_ite (State.refuseBy_only h_s (inT rfl hsub)) ?_
  refine only_ite (State.onMstr_only h3 (inT rfl hsub)) ?_
  split
  · extract_lets +onlyGivenNames v4
    have h4 : Only fs s0 v4 := State.onMstr_only h3 (inT rfl hsub)
    clear_value v4
    exact State.liveWrite_only (State.liveWrite_only h4 hsub) hsub
  · exact State.liveWrite_only h3 hsub

theorem State.memWrite_only {fs : List Part} {s0 : State} {s m a v} (h_s : Only fs s0 s) (hsub : In [.regs, .mem, .eccBad, .host, .mgr, .trace, .log] fs) :
    Only fs s0 (State.memWrite s m a v) := by
  unfold State.memWrite
  extract_lets +onlyGivenNames v0
  have h0 : Only fs s0 v0 := State.touch_only h_s (inT rfl hsub)
  clear_value v0
  exact only_ite (State.refuseBy_only h_s (inT rfl hsub)) (only_ite (State.refuseBy_only h_s (inT rfl hsub)) (only_ite (State.putWord_only h0 (inT rfl hsub)) h0))

theorem State.downWrite_only {fs : List Part} {s0 : State} {s m a v} (h_s : Only fs s0 s) (hsub : In [.regs, .stg, .mem, .eccBad, .power, .time, .stage, .host, .mgr, .axes, .drives, .ctxs, .fbs, .mots, .cmps, .latches, .groups, .legs, .lanes, .shares, .rescue, .chop, .dma, .dmaHalted, .cans, .dos, .sins, .safety, .trace, .log, .chans, .timers, .sched, .precheck] fs) :
    Only fs s0 (State.downWrite s m a v) := by
  unfold State.downWrite
  split
  · exact h_s
  · exact only_ite h_s (only_ite (State.liveWrite_only h_s hsub) (State.downRefuse_only h_s (inT rfl hsub)))

theorem State.busWrite_only {fs : List Part} {s0 : State} {s m a v} (h_s : Only fs s0 s) (hsub : In [.regs, .stg, .mem, .eccBad, .power, .time, .stage, .host, .mgr, .axes, .drives, .ctxs, .fbs, .mots, .cmps, .latches, .groups, .legs, .lanes, .shares, .rescue, .chop, .dma, .dmaHalted, .cans, .dos, .sins, .safety, .trace, .log, .chans, .timers, .sched, .precheck] fs) :
    Only fs s0 (State.busWrite s m a v) := by
  unfold State.busWrite
  exact only_ite (State.downWrite_only h_s hsub) (only_ite (only_ite (State.stagedWrite_only h_s (inT rfl hsub)) (only_ite (only_ite (State.refuseBy_only h_s (inT rfl hsub)) h_s) (State.pairWrite_only h_s hsub))) (only_ite (State.refuseBy_only h_s (inT rfl hsub)) (State.memWrite_only h_s (inT rfl hsub))))

theorem execRegisterWrite_only {fs : List Part} {s0 : State} {m addr v s} (h_s : Only fs s0 s) (hsub : In [.regs, .stg, .mem, .eccBad, .power, .time, .stage, .host, .mgr, .axes, .drives, .ctxs, .fbs, .mots, .cmps, .latches, .groups, .legs, .lanes, .shares, .rescue, .chop, .dma, .dmaHalted, .cans, .dos, .sins, .safety, .trace, .log, .chans, .timers, .sched, .precheck] fs) :
    OnlyN fs s0 (execRegisterWrite m addr v s) := by
  unfold execRegisterWrite
  exact onlyN_next (only_ite (State.busWrite_only h_s hsub) h_s)

theorem execLaneCodeWrite_only {fs : List Part} {s0 : State} {m addr v s} (h_s : Only fs s0 s) (hsub : In [.regs, .stg, .mem, .eccBad, .power, .time, .stage, .host, .mgr, .axes, .drives, .ctxs, .fbs, .mots, .cmps, .latches, .groups, .legs, .lanes, .shares, .rescue, .chop, .dma, .dmaHalted, .cans, .dos, .sins, .safety, .trace, .log, .chans, .timers, .sched, .precheck] fs) :
    OnlyN fs s0 (execLaneCodeWrite m addr v s) := by
  unfold execLaneCodeWrite
  exact onlyN_next (only_ite (State.busWrite_only h_s hsub) h_s)

theorem execPairLowRead_only {fs : List Part} {s0 : State} {m addr s} (h_s : Only fs s0 s) (hsub : In [.host, .mgr, .cans, .free] fs) :
    OnlyN fs s0 (execPairLowRead m addr s) := by
  unfold execPairLowRead
  extract_lets +onlyGivenNames v0
  clear_value v0
  refine onlyN_ite ?_ (onlyN_next h_s)
  split
  · rename_i x1 t2 x3 e4
    have h5 := only1_fst (State.busRead_only h_s hsub) e4
    exact onlyN_next (State.onMstr_only h5 (inT rfl hsub))

theorem execPairLowWrite_only {fs : List Part} {s0 : State} {m addr v s} (h_s : Only fs s0 s) (hsub : In [.regs, .stg, .mem, .eccBad, .power, .time, .stage, .host, .mgr, .axes, .drives, .ctxs, .fbs, .mots, .cmps, .latches, .groups, .legs, .lanes, .shares, .rescue, .chop, .dma, .dmaHalted, .cans, .dos, .sins, .safety, .trace, .log, .chans, .timers, .sched, .precheck] fs) :
    OnlyN fs s0 (execPairLowWrite m addr v s) := by
  unfold execPairLowWrite
  extract_lets +onlyGivenNames v0
  clear_value v0
  exact onlyN_next (only_ite (State.busWrite_only h_s hsub) h_s)

theorem execPairHighWrite_only {fs : List Part} {s0 : State} {m addr v s} (h_s : Only fs s0 s) (hsub : In [.regs, .stg, .mem, .eccBad, .power, .time, .stage, .host, .mgr, .axes, .drives, .ctxs, .fbs, .mots, .cmps, .latches, .groups, .legs, .lanes, .shares, .rescue, .chop, .dma, .dmaHalted, .cans, .dos, .sins, .safety, .trace, .log, .chans, .timers, .sched, .precheck] fs) :
    OnlyN fs s0 (execPairHighWrite m addr v s) := by
  unfold execPairHighWrite
  extract_lets +onlyGivenNames v0
  clear_value v0
  exact onlyN_next (only_ite (State.busWrite_only h_s hsub) h_s)

end Sys2Proof.Machine
end

