-- ==== Sys2Proof/Laws/OnlyPorts.lean ====
section
/-!
SUPPORT. What the operations of Machine/Ports.lean may change: one lemma each, from any state reached.
-/
namespace Sys2Proof.Machine

open Sys2Proof.Safety

theorem State.lastErr_only {fs : List Part} {s0 : State} {s m cause a} (h_s : Only fs s0 s) (hsub : In [.regs] fs) :
    Only fs s0 (State.lastErr s m cause a) := by
  unfold State.lastErr
  split
  · exact State.setLv_only h_s hsub
  · exact State.setLv_only h_s hsub

theorem State.portWrite_only {fs : List Part} {s0 : State} {s m a v} (h_s : Only fs s0 s) (hsub : In [.regs, .stg, .mem, .eccBad, .power, .time, .stage, .host, .mgr, .axes, .drives, .ctxs, .fbs, .mots, .cmps, .latches, .groups, .legs, .lanes, .shares, .rescue, .chop, .dma, .dmaHalted, .cans, .dos, .sins, .safety, .trace, .log, .chans, .timers, .sched, .precheck] fs) :
    Only fs s0 (State.portWrite s m a v) := by
  unfold State.portWrite
  extract_lets +onlyGivenNames v0
  clear_value v0
  extract_lets +onlyGivenNames v1
  have h1 : Only fs s0 v1 := State.busWrite_only (State.onMstr_only h_s (inT rfl hsub)) hsub
  clear_value v1
  extract_lets +onlyGivenNames v2
  clear_value v2
  extract_lets +onlyGivenNames v3
  have h3 : Only fs s0 v3 := State.onMstr_only h1 (inT rfl hsub)
  clear_value v3
  exact only_ite (State.lastErr_only h3 (inT rfl hsub)) (only_ite (State.lastErr_only (State.onMstr_only h3 (inT rfl hsub)) (inT rfl hsub)) h3)

theorem State.portWrites_only' {fs : List Part} {s0 : State} {m : Master} (hsub : In [.regs, .stg, .mem, .eccBad, .power, .time, .stage, .host, .mgr, .axes, .drives, .ctxs, .fbs, .mots, .cmps, .latches, .groups, .legs, .lanes, .shares, .rescue, .chop, .dma, .dmaHalted, .cans, .dos, .sins, .safety, .trace, .log, .chans, .timers, .sched, .precheck] fs) :
    ∀ {ws : List Word} {s : State} {a : Nat}, Only fs s0 s → Only fs s0 (s.portWrites m a ws)
  | [], _, _, h => h
  | _ :: ws, _, _, h => State.portWrites_only' hsub (ws := ws) (State.portWrite_only h (inT rfl hsub))

theorem State.portWrites_only {fs : List Part} {s0 : State} {m : Master} {ws : List Word} {s : State} {a : Nat} (h : Only fs s0 s)
    (hsub : In [.regs, .stg, .mem, .eccBad, .power, .time, .stage, .host, .mgr, .axes, .drives, .ctxs, .fbs, .mots, .cmps, .latches, .groups, .legs, .lanes, .shares, .rescue, .chop, .dma, .dmaHalted, .cans, .dos, .sins, .safety, .trace, .log, .chans, .timers, .sched, .precheck] fs) : Only fs s0 (s.portWrites m a ws) := State.portWrites_only' hsub h

theorem State.portRead_only {fs : List Part} {s0 : State} {s m a} (h_s : Only fs s0 s) (hsub : In [.regs, .host, .mgr, .cans, .free] fs) :
    Only1 fs s0 (State.portRead s m a) := by
  unfold State.portRead
  exact only1_ite (State.busRead_only h_s (inT rfl hsub)) (only1_mk (State.lastErr_only (State.touch_only h_s (inT rfl hsub)) (inT rfl hsub)))

theorem State.portReads_only' {fs : List Part} {s0 : State} {m : Master} (hsub : In [.regs, .host, .mgr, .cans, .free] fs) :
    ∀ {n : Nat} {s : State} {a : Nat}, Only fs s0 s → Only1 fs s0 (s.portReads m a n)
  | 0, _, _, h => h
  | n + 1, _, _, h => State.portReads_only' hsub (n := n) (State.portRead_only h (inT rfl hsub))

theorem State.portReads_only {fs : List Part} {s0 : State} {m : Master} {n : Nat} {s : State} {a : Nat} (h : Only fs s0 s)
    (hsub : In [.regs, .host, .mgr, .cans, .free] fs) : Only1 fs s0 (s.portReads m a n) := State.portReads_only' hsub h

theorem State.frameRefused_only {fs : List Part} {s0 : State} {s bad a} (h_s : Only fs s0 s) (hsub : In [.regs, .host, .mgr, .trace] fs) :
    Only fs s0 (State.frameRefused s bad a) := by
  unfold State.frameRefused
  extract_lets +onlyGivenNames v0
  have h0 : Only fs s0 v0 := State.onMstr_only h_s (inT rfl hsub)
  clear_value v0
  extract_lets +onlyGivenNames v1
  have h1 : Only fs s0 v1 := State.event_only (State.lastErr_only h0 (inT rfl hsub)) (inT rfl hsub)
  clear_value v1
  exact only_ite h0 (only_ite (State.inc16_only h1 (inT rfl hsub)) h1)

theorem State.takePrev_only {fs : List Part} {s0 : State} {s} (h_s : Only fs s0 s) (hsub : In [.host, .mgr] fs) :
    Only1 fs s0 (State.takePrev s) := by
  unfold State.takePrev
  extract_lets +onlyGivenNames v0
  clear_value v0
  exact only1_mk (State.onMstr_only h_s hsub)

theorem State.frameEnd_only {fs : List Part} {s0 : State} {s cmd prev bits data} (h_s : Only fs s0 s) (hsub : In [.regs, .host, .mgr] fs) :
    Only fs s0 (State.frameEnd s cmd prev bits data) := by
  unfold State.frameEnd
  extract_lets +onlyGivenNames v0
  clear_value v0
  extract_lets +onlyGivenNames v1
  clear_value v1
  extract_lets +onlyGivenNames v2
  have h2 : Only fs s0 v2 := State.onMstr_only h_s (inT rfl hsub)
  clear_value v2
  exact only_ite (State.onLv_only (State.setLv_only h2 (inT rfl hsub)) (inT rfl hsub)) h2

theorem State.frameAbort_only {fs : List Part} {s0 : State} {s} (h_s : Only fs s0 s) (hsub : In [.regs, .host, .mgr, .trace] fs) :
    Only fs s0 (State.frameAbort s) := by
  unfold State.frameAbort
  extract_lets +onlyGivenNames v0
  have h0 : Only fs s0 v0 := State.onMstr_only h_s (inT rfl hsub)
  clear_value v0
  exact only_ite (State.event_only (State.inc16_only h0 (inT rfl hsub)) (inT rfl hsub)) h0

theorem execHostWriteFrame_only {fs : List Part} {s0 : State} {cmd addr ws hcrc s} (h_s : Only fs s0 s) (hsub : In [.regs, .stg, .mem, .eccBad, .power, .time, .stage, .host, .mgr, .axes, .drives, .ctxs, .fbs, .mots, .cmps, .latches, .groups, .legs, .lanes, .shares, .rescue, .chop, .dma, .dmaHalted, .cans, .dos, .sins, .safety, .trace, .log, .chans, .timers, .sched, .precheck] fs) :
    OnlyN fs s0 (execHostWriteFrame cmd addr ws hcrc s) := by
  unfold execHostWriteFrame
  extract_lets +onlyGivenNames v0
  clear_value v0
  extract_lets +onlyGivenNames v1
  clear_value v1
  extract_lets +onlyGivenNames v2
  clear_value v2
  extract_lets +onlyGivenNames v3
  clear_value v3
  refine onlyN_ite (onlyN_next h_s) ?_
  refine onlyN_ite (onlyN_next (State.frameAbort_only h_s (inT rfl hsub))) ?_
  split
  · rename_i x4 t5 x6 e7
    have h8 := only1_fst (State.takePrev_only h_s (inT rfl hsub)) e7
    extract_lets +onlyGivenNames v9
    have h9 : Only fs s0 v9 := only_ite (State.frameRefused_only h8 (inT rfl hsub)) (only_ite (State.portWrites_only h8 hsub) h8)
    clear_value v9
    exact onlyN_next (State.frameEnd_only h9 (inT rfl hsub))

theorem execHostReadFrame_only {fs : List Part} {s0 : State} {cmd addr hcrc lateFrom s} (h_s : Only fs s0 s) (hsub : In [.regs, .host, .mgr, .cans, .trace, .free] fs) :
    OnlyN fs s0 (execHostReadFrame cmd addr hcrc lateFrom s) := by
  unfold execHostReadFrame
  extract_lets +onlyGivenNames v0
  clear_value v0
  extract_lets +onlyGivenNames v1
  clear_value v1
  extract_lets +onlyGivenNames v2
  clear_value v2
  refine onlyN_ite (onlyN_next h_s) ?_
  split
  · rename_i x3 t4 x5 e6
    have h7 := only1_fst (State.takePrev_only h_s (inT rfl hsub)) e6
    extract_lets +onlyGivenNames v8
    clear_value v8
    refine onlyN_ite (onlyN_next (State.frameEnd_only (State.frameRefused_only h7 (inT rfl hsub)) (inT rfl hsub))) ?_
    refine onlyN_ite (onlyN_next (State.frameEnd_only h7 (inT rfl hsub))) ?_
    split
    · rename_i x9 t10 x11 e12
      have h13 := only1_fst (State.portReads_only h7 (inT rfl hsub)) e12
      extract_lets +onlyGivenNames v14
      clear_value v14
      exact onlyN_next (State.frameEnd_only h13 (inT rfl hsub))

theorem execHostFrameAbort_only {fs : List Part} {s0 : State} {s} (h_s : Only fs s0 s) (hsub : In [.regs, .host, .mgr, .trace] fs) :
    OnlyN fs s0 (execHostFrameAbort s) := by
  unfold execHostFrameAbort
  exact onlyN_next (only_ite (State.frameAbort_only h_s hsub) h_s)

theorem State.mgmtRefused_only {fs : List Part} {s0 : State} {s cause a} (h_s : Only fs s0 s) (hsub : In [.regs, .trace] fs) :
    Only fs s0 (State.mgmtRefused s cause a) := by
  unfold State.mgmtRefused
  exact State.event_only (State.lastErr_only h_s (inT rfl hsub)) hsub

theorem State.mgmtForbidden_only {fs : List Part} {s0 : State} {s a} (h_s : Only fs s0 s) (hsub : In [.regs, .host, .mgr, .trace, .log] fs) :
    Only fs s0 (State.mgmtForbidden s a) := by
  unfold State.mgmtForbidden
  extract_lets +onlyGivenNames v0
  have h0 : Only fs s0 v0 := only_ite (State.refuseBy_only h_s hsub) (State.downRefuse_only h_s (inT rfl hsub))
  clear_value v0
  exact State.lastErr_only h0 (inT rfl hsub)

theorem State.mgmtApply_only' {fs : List Part} {s0 : State} (hsub : In [.regs, .stg, .mem, .eccBad, .power, .time, .stage, .host, .mgr, .axes, .drives, .ctxs, .fbs, .mots, .cmps, .latches, .groups, .legs, .lanes, .shares, .rescue, .chop, .dma, .dmaHalted, .cans, .dos, .sins, .safety, .trace, .log, .chans, .timers, .sched, .precheck] fs) :
    ∀ {ws : List Word} {s : State} {a : Nat}, Only fs s0 s → Only fs s0 (s.mgmtApply a ws)
  | [], _, _, h => h
  | _ :: ws, _, _, h => State.mgmtApply_only' hsub (ws := ws)
      (only_ite (State.lastErr_only (State.downRefuse_only h (inT rfl hsub)) (inT rfl hsub)) (State.portWrite_only h (inT rfl hsub)))

theorem State.mgmtApply_only {fs : List Part} {s0 : State} {ws : List Word} {s : State} {a : Nat} (h : Only fs s0 s)
    (hsub : In [.regs, .stg, .mem, .eccBad, .power, .time, .stage, .host, .mgr, .axes, .drives, .ctxs, .fbs, .mots, .cmps, .latches, .groups, .legs, .lanes, .shares, .rescue, .chop, .dma, .dmaHalted, .cans, .dos, .sins, .safety, .trace, .log, .chans, .timers, .sched, .precheck] fs) : Only fs s0 (s.mgmtApply a ws) := State.mgmtApply_only' hsub h

theorem execMgmtWrite_only {fs : List Part} {s0 : State} {addr len bytes s} (h_s : Only fs s0 s) (hsub : In [.regs, .stg, .mem, .eccBad, .power, .time, .stage, .host, .mgr, .axes, .drives, .ctxs, .fbs, .mots, .cmps, .latches, .groups, .legs, .lanes, .shares, .rescue, .chop, .dma, .dmaHalted, .cans, .dos, .sins, .safety, .trace, .log, .chans, .timers, .sched, .precheck] fs) :
    OnlyN fs s0 (execMgmtWrite addr len bytes s) := by
  unfold execMgmtWrite
  extract_lets +onlyGivenNames v0
  clear_value v0
  extract_lets +onlyGivenNames v1
  clear_value v1
  extract_lets +onlyGivenNames v2
  have h2 : Only fs s0 v2 := State.touch_only h_s (inT rfl hsub)
  clear_value v2
  extract_lets +onlyGivenNames v3
  clear_value v3
  extract_lets +onlyGivenNames v4
  clear_value v4
  extract_lets +onlyGivenNames v5
  clear_value v5
  refine onlyN_ite (onlyN_next h_s) ?_
  refine onlyN_ite (onlyN_next (State.mgmtRefused_only h2 (inT rfl hsub))) ?_
  refine onlyN_ite (onlyN_next (State.event_only (State.inc16_only (State.mgmtRefused_only h2 (inT rfl hsub)) (inT rfl hsub)) (inT rfl hsub))) ?_
  refine onlyN_ite (onlyN_next (State.mgmtRefused_only h2 (inT rfl hsub))) ?_
  split
  · exact onlyN_next (State.mgmtRefused_only h2 (inT rfl hsub))
  · split
    · exact onlyN_next (State.mgmtForbidden_only h2 (inT rfl hsub))
    · exact onlyN_next (State.mgmtApply_only h2 hsub)

theorem State.mgmtAnswer_only {fs : List Part} {s0 : State} {s a len data} (h_s : Only fs s0 s) (hsub : In [.host, .mgr] fs) :
    Only fs s0 (State.mgmtAnswer s a len data) := by
  unfold State.mgmtAnswer
  extract_lets +onlyGivenNames v0
  clear_value v0
  extract_lets +onlyGivenNames v1
  clear_value v1
  exact State.onMstr_only h_s hsub

theorem execMgmtRead_only {fs : List Part} {s0 : State} {addr len s} (h_s : Only fs s0 s) (hsub : In [.regs, .host, .mgr, .cans, .trace, .free] fs) :
    OnlyN fs s0 (execMgmtRead addr len s) := by
  unfold execMgmtRead
  extract_lets +onlyGivenNames v0
  clear_value v0
  extract_lets +onlyGivenNames v1
  have h1 : Only fs s0 v1 := State.touch_only h_s (inT rfl hsub)
  clear_value v1
  refine onlyN_ite (onlyN_next h_s) ?_
  split
  · exact onlyN_next (State.mgmtAnswer_only (State.mgmtRefused_only h1 (inT rfl hsub)) (inT rfl hsub))
  · refine onlyN_ite (onlyN_next (State.mgmtAnswer_only h1 (inT rfl hsub))) ?_
    split
    · rename_i x2 t3 x4 e5
      have h6 := only1_fst (State.portReads_only h1 (inT rfl hsub)) e5
      exact onlyN_next (State.mgmtAnswer_only h6 (inT rfl hsub))

theorem execMgmtBusTimeout_only {fs : List Part} {s0 : State} {s} (h_s : Only fs s0 s) :
    OnlyN fs s0 (execMgmtBusTimeout s) := by
  unfold execMgmtBusTimeout
  exact onlyN_next h_s

theorem execAlertResponse_only {fs : List Part} {s0 : State} {s} (h_s : Only fs s0 s) (hsub : In [.host, .mgr] fs) :
    OnlyN fs s0 (execAlertResponse s) := by
  unfold execAlertResponse
  exact onlyN_ite (onlyN_next (State.onMstr_only h_s hsub)) (onlyN_next h_s)

end Sys2Proof.Machine
end

