-- ==== Sys2Proof/Laws/OnlyDmaRun.lean ====
section
/-!
SUPPORT. What the operations of Machine/DmaRun.lean may change: one lemma each, from any state reached.
-/
namespace Sys2Proof.Machine

open Sys2Proof.Safety

theorem State.dmaReadWord_only {fs : List Part} {s0 : State} {s ch a} (h_s : Only fs s0 s) (hsub : In [.cans] fs) :
    Only1 fs s0 (State.dmaReadWord s ch a) := by
  unfold State.dmaReadWord
  exact only1_ite (only1_mk h_s) (only1_ite (only1_mk h_s) (only1_ite (only1_mk h_s) (only1_mk (State.msgRead_only h_s hsub))))

theorem State.dmaWriteBytes_only {fs : List Part} {s0 : State} {s a bs} (h_s : Only fs s0 s) (hsub : In [.regs, .stg, .mem, .eccBad, .power, .time, .stage, .host, .mgr, .axes, .drives, .ctxs, .fbs, .mots, .cmps, .latches, .groups, .legs, .lanes, .shares, .rescue, .chop, .dma, .dmaHalted, .cans, .dos, .sins, .safety, .trace, .log, .chans, .timers, .sched, .precheck] fs) :
    Only fs s0 (State.dmaWriteBytes s a bs) := by
  unfold State.dmaWriteBytes
  exact only_ite (only_ite (State.refuseBy_only h_s (inT rfl hsub)) (State.liveWrite_only h_s hsub)) (only_ite (State.putWord_only h_s (inT rfl hsub)) (State.putBytes_only h_s (inT rfl hsub)))

end Sys2Proof.Machine
end

