-- ==== Sys2Proof/Laws/Burst.lean ====
section
/-!
SUPPORT. What a DMA burst may change: the parts that a write through the bus may change, and the engine's own.
-/
namespace Sys2Proof.Machine

open Sys2Proof.Safety

/-- The parts that a burst may change. -/
abbrev burstParts : List Part :=
  [.dmaLast, .dma, .dmaHalted, .regs, .timers, .cans, .eccBad, .time, .sched, .chans, .mem, .trace,
   .safety, .log, .axes, .host, .mgr, .stg, .stage, .precheck, .mots, .cmps, .latches, .rescue,
   .legs, .power, .shares, .fbs, .groups, .ctxs, .sins, .chop, .drives, .lanes, .dos]

theorem only_beats_foldl {β : Type} {fs : List Part} {s0 : State} {f : DmaBeats → β → DmaBeats} (hf : ∀ b x, Only fs s0 b.s → Only fs s0 (f b x).s) :
    ∀ (l : List β) {b : DmaBeats}, Only fs s0 b.s → Only fs s0 (l.foldl f b).s
  | [], _, h => h
  | x :: l, _, h => only_beats_foldl hf l (hf _ x h)

theorem DmaBeats.element_only {fs : List Part} {s0 : State} {b : DmaBeats} {ch : Nat} {d : List Word} {i : Nat} (k : In burstParts fs) (h : Only fs s0 b.s) :
    Only fs s0 (b.element ch d i).1.s := by
  unfold DmaBeats.element
  dsimp only
  split
  · split
    · exact h
    · exact State.incHalf_only h (inT rfl k)
  · split <;> exact State.dmaReadWord_only h (inT rfl k)

theorem DmaBeats.put_only {fs : List Part} {s0 : State} {b : DmaBeats} {a : Nat} {bs : List Byte} (k : In burstParts fs) (h : Only fs s0 b.s) : Only fs s0 (b.put a bs).1.s := by
  unfold DmaBeats.put
  split
  · exact h
  · exact State.dmaWriteBytes_only h (inT rfl k)

theorem DmaBeats.move_only {fs : List Part} {s0 : State} {b : DmaBeats} {ch : Nat} {d : List Word} {i : Nat} (k : In burstParts fs) (h : Only fs s0 b.s) :
    Only fs s0 (b.move ch d i).s := DmaBeats.put_only k (DmaBeats.element_only k h)

theorem DmaBeats.pack_only {fs : List Part} {s0 : State} {b : DmaBeats} {ch : Nat} {d : List Word} {n j : Nat} (k : In burstParts fs) (h : Only fs s0 b.s) :
    Only fs s0 (b.pack ch d n j).s := by
  have hf : ∀ (l : List Nat) (x : DmaBeats × List Byte × Nat), Only fs s0 x.1.s →
      Only fs s0 (l.foldl (fun (x : DmaBeats × List Byte × Nat) i =>
        let (b, bs, r) := x.1.element ch d i
        (b, x.2.1 ++ bs, x.2.2 + r.toNat)) x).1.s := by
    intro l
    induction l with
    | nil => exact fun _ h => h
    | cons i l ih => exact fun x h => ih _ (DmaBeats.element_only k h)
  exact DmaBeats.put_only k (hf _ (b, [], 0) h)

theorem DmaBeats.unpack_only {fs : List Part} {s0 : State} {b : DmaBeats} {ch : Nat} {d : List Word} {n j : Nat} (k : In burstParts fs) (h : Only fs s0 b.s) :
    Only fs s0 (b.unpack ch d n j).s := by
  unfold DmaBeats.unpack
  dsimp only
  refine only_beats_foldl (fun b x hb => ?_) _ ?_
  · split
    · exact hb
    · exact DmaBeats.put_only k hb
  · split <;> exact State.dmaReadWord_only h (inT rfl k)

theorem State.dmaBeats_only {fs : List Part} {s0 s : State} {ch : Nat} {d : List Word} (k : In burstParts fs) (h : Only fs s0 s) : Only fs s0 (s.dmaBeats ch d).1.s := by
  unfold State.dmaBeats
  dsimp only
  split
  · refine only_beats_foldl (fun b x hb => ?_) _ h
    split
    · exact DmaBeats.unpack_only k hb
    · exact DmaBeats.pack_only k hb
  · exact only_beats_foldl (fun b x hb => DmaBeats.move_only k hb) _ h

theorem State.dmaBurstEnd_only {fs : List Part} {s0 s : State} {ch : Nat} {d : List Word} {b : DmaBeats} {passed n : Nat} (k : In burstParts fs) (h : Only fs s0 b.s) :
    Only fs s0 (s.dmaBurstEnd ch d b passed n) := by
  unfold State.dmaBurstEnd
  extract_lets +onlyGivenNames m
  extract_lets +onlyGivenNames t
  have ht : Only fs s0 t := State.onDm_only h (inT rfl k)
  clear_value m t
  split
  · exact State.dmaHalt_only (State.dmaWriteBack_only ht (inT rfl k)) (inT rfl k)
  · exact only_ite (State.dmaEnd_only (only_ite (State.onDm_only ht (inT rfl k)) ht) (inT rfl k)) (State.onDm_only ht (inT rfl k))

theorem execDmaBurst_only {fs : List Part} {s0 s : State} (k : In burstParts fs) (h_s : Only fs s0 s) : OnlyN fs s0 (execDmaBurst s) := by
  unfold execDmaBurst
  refine onlyN_ite (onlyN_next h_s) ?_
  split
  · exact onlyN_next h_s
  · split
    · exact onlyN_next h_s
    · rename_i ch _ _ d _
      have h1 : Only fs s0 { s with dmaLast := ch } := Only.upd (F := [.dmaLast]) h_s (inT rfl k) fun f hf => by cases f <;> first | rfl | simp at hf
      exact onlyN_next (State.dmaBurstEnd_only k (State.dmaBeats_only k (ch := ch) (d := d) h1))

end Sys2Proof.Machine
end

