-- ==== Sys2Proof/Laws/Kept.lean ====
section
/-!
SUPPORT. What every operation of the block keeps: the queue, the count of free values taken (it never falls), and a state that is
whole stays whole. The lemma of an operation says so from any state reached, so that lemmas chain.
-/
namespace Sys2Proof.Machine

open Sys2Proof.Safety

/-- From s0, the state s: the same queue, no free value given back, whole if s0 is. -/
structure Kept (s0 s : State) : Prop where
  /-- The queue is as it was. -/
  pending : s.pending = s0.pending
  /-- No free value is given back. -/
  free : s0.free ≤ s.free
  /-- Whole if it was. -/
  whole : Whole s0 → Whole s

/-- The state of a pair whose first part is a state. -/
def Kept1 {α : Type} (s0 : State) (p : State × α) : Prop := Kept s0 p.1

/-- The state of a pair whose second part is a state. -/
def Kept2 {α : Type} (s0 : State) (p : α × State) : Prop := Kept s0 p.2

/-- The outcome is a next state, with all that Kept says. -/
def Done (s0 : State) (o : Out) : Prop := ∃ t, o = .next t ∧ Kept s0 t

/-- The state that an optional result holds, if it holds one. -/
def KeptO (s0 : State) (o : Option State) : Prop := ∀ t, o = some t → Kept s0 t

theorem Kept.refl (s : State) : Kept s s := ⟨rfl, Nat.le_refl _, id⟩

theorem Kept.trans {a b c : State} (h : Kept a b) (k : Kept b c) : Kept a c :=
  ⟨k.pending.trans h.pending, h.free.trans k.free, k.whole ∘ h.whole⟩

/-- A state that differs in nothing that counts here. -/
theorem Kept.plain {s0 s t : State} (h : Kept s0 s) (pending : t.pending = s.pending) (free : t.free = s.free)
    (mem : t.mem = s.mem) (regs : t.regs = s.regs) (cfg : t.cfg = s.cfg) (stg : t.stg = s.stg) (chans : t.chans = s.chans)
    (units : unitCounts t = unitCounts s) : Kept s0 t :=
  ⟨pending.trans h.pending, free ▸ h.free, fun w =>
    let w := h.whole w
    ⟨by unfold MemoryOk; rw [mem]; exact w.mem, regs ▸ w.regs, cfg ▸ w.cfg, stg ▸ w.stg, chans ▸ w.chans, units.trans w.units⟩⟩

/-- A state that differs in one map. -/
theorem Kept.upd {s0 s t : State} (h : Kept s0 s) (pending : t.pending = s.pending) (free : s.free ≤ t.free)
    (mem : MemoryOk s → MemoryOk t) (regs : MapOk s.regs → MapOk t.regs) (cfg : MapOk s.cfg → MapOk t.cfg)
    (stg : MapOk s.stg → MapOk t.stg) (chans : MapOk s.chans → MapOk t.chans) (units : unitCounts t = unitCounts s) : Kept s0 t :=
  ⟨pending.trans h.pending, h.free.trans free, fun w =>
    let w := h.whole w
    ⟨mem w.mem, regs w.regs, cfg w.cfg, stg w.stg, chans w.chans, units.trans w.units⟩⟩

theorem kept_ite {s0 a b : State} {c : Prop} [Decidable c] (ha : Kept s0 a) (hb : Kept s0 b) : Kept s0 (if c then a else b) := by
  split <;> assumption

theorem kept1_ite {α : Type} {s0 : State} {a b : State × α} {c : Prop} [Decidable c] (ha : Kept1 s0 a) (hb : Kept1 s0 b) :
    Kept1 s0 (if c then a else b) := by
  split <;> assumption

theorem kept2_ite {α : Type} {s0 : State} {a b : α × State} {c : Prop} [Decidable c] (ha : Kept2 s0 a) (hb : Kept2 s0 b) :
    Kept2 s0 (if c then a else b) := by
  split <;> assumption

theorem done_ite {s0 : State} {a b : Out} {c : Prop} [Decidable c] (ha : Done s0 a) (hb : Done s0 b) :
    Done s0 (if c then a else b) := by
  split <;> assumption

theorem done_next {s0 s : State} (h : Kept s0 s) : Done s0 (.next s) := ⟨s, rfl, h⟩

theorem keptO_ite {s0 : State} {a b : Option State} {c : Prop} [Decidable c] (ha : KeptO s0 a) (hb : KeptO s0 b) :
    KeptO s0 (if c then a else b) := by
  split <;> assumption

theorem keptO_some {s0 s : State} (h : Kept s0 s) : KeptO s0 (some s) := fun t e => by cases e; exact h

theorem keptO_none {s0 : State} : KeptO s0 none := fun t e => by cases e

theorem keptO_get {s0 s : State} {o : Option State} (h : KeptO s0 o) (e : o = some s) : Kept s0 s := h s e

theorem done_get {s0 s : State} {o : Out} (h : Done s0 o) (e : o = .next s) : Kept s0 s := by
  obtain ⟨t, h1, h2⟩ := h
  rw [e] at h1
  cases h1
  exact h2

theorem kept1_mk {α : Type} {s0 s : State} {x : α} (h : Kept s0 s) : Kept1 s0 (s, x) := h

theorem kept2_mk {α : Type} {s0 s : State} {x : α} (h : Kept s0 s) : Kept2 s0 (x, s) := h

theorem kept1_fst {α : Type} {s0 s : State} {x : α} {p : State × α} (h : Kept1 s0 p) (e : p = (s, x)) : Kept s0 s := by
  subst e; exact h

theorem kept2_snd {α : Type} {s0 s : State} {x : α} {p : α × State} (h : Kept2 s0 p) (e : p = (x, s)) : Kept s0 s := by
  subst e; exact h

theorem kept_foldl {α : Type} {s0 : State} {f : State → α → State} (hf : ∀ t x, Kept s0 t → Kept s0 (f t x)) :
    ∀ (l : List α) {s : State}, Kept s0 s → Kept s0 (l.foldl f s)
  | [], _, h => h
  | x :: l, _, h => kept_foldl hf l (hf _ x h)

theorem forN_kept {s0 s : State} {n : Nat} {f : Nat → State → State} (hf : ∀ i t, Kept s0 t → Kept s0 (f i t)) (h : Kept s0 s) :
    Kept s0 (forN n f s) := kept_foldl (fun t i => hf i t) _ h

theorem forL_kept {α : Type} {s0 s : State} {l : List α} {f : α → State → State} (hf : ∀ x t, Kept s0 t → Kept s0 (f x t))
    (h : Kept s0 s) : Kept s0 (forL l f s) := kept_foldl (fun t x => hf x t) _ h

/-! Sparse maps stay canonical. -/

theorem rising_mono {α : Type} {b c : Nat} {m : List (Nat × α)} (h : b ≤ c) (r : risingFrom c m = true) : risingFrom b m = true := by
  cases m with
  | nil => rfl
  | cons x m => simp only [risingFrom, Bool.and_eq_true, decide_eq_true_eq] at r ⊢; exact ⟨h.trans r.1, r.2⟩

theorem rising_del {α : Type} {a : Nat} : ∀ {b : Nat} {m : List (Nat × α)}, risingFrom b m = true → risingFrom b (mapDel m a) = true
  | _, [], h => h
  | b, (k, v) :: m, h => by
    have h' := h
    simp only [risingFrom, Bool.and_eq_true, decide_eq_true_eq] at h'
    unfold mapDel
    split
    · exact rising_mono (by omega) h'.2
    · split
      · exact h
      · simp only [risingFrom, Bool.and_eq_true, decide_eq_true_eq]; exact ⟨h'.1, rising_del h'.2⟩

theorem rising_put {α : Type} {a : Nat} {x : α} :
    ∀ {b : Nat} {m : List (Nat × α)}, b ≤ a → risingFrom b m = true → risingFrom b (mapPut m a x) = true
  | b, [], hb, _ => by simp [mapPut, risingFrom, hb]
  | b, (k, v) :: m, hb, h => by
    simp only [risingFrom, Bool.and_eq_true, decide_eq_true_eq] at h
    unfold mapPut
    split
    · simp only [risingFrom, Bool.and_eq_true, decide_eq_true_eq]; subst a; exact ⟨h.1, h.2⟩
    · split
      · simp only [risingFrom, Bool.and_eq_true, decide_eq_true_eq]; exact ⟨hb, by omega, h.2⟩
      · simp only [risingFrom, Bool.and_eq_true, decide_eq_true_eq]; exact ⟨h.1, rising_put (by omega) h.2⟩

theorem MapOk.set {α : Type} [DecidableEq α] {m : List (Nat × α)} {a : Nat} {x d : α} (h : MapOk m) : MapOk (mapSet m a x d) := by
  unfold mapSet MapOk
  split
  · exact rising_del h
  · exact rising_put (Nat.zero_le _) h

theorem MapOk.del {α : Type} {m : List (Nat × α)} {a : Nat} (h : MapOk m) : MapOk (mapDel m a) := rising_del h

theorem rising_filter {α : Type} {p : Nat × α → Bool} :
    ∀ {b : Nat} {m : List (Nat × α)}, risingFrom b m = true → risingFrom b (m.filter p) = true
  | _, [], h => h
  | b, (k, v) :: m, h => by
    simp only [risingFrom, Bool.and_eq_true, decide_eq_true_eq] at h
    rw [List.filter_cons]
    split
    · simp only [risingFrom, Bool.and_eq_true, decide_eq_true_eq]; exact ⟨h.1, rising_filter h.2⟩
    · exact rising_mono (by omega) (rising_filter h.2)

theorem MapOk.filter {α : Type} {m : List (Nat × α)} {p : Nat × α → Bool} (h : MapOk m) : MapOk (m.filter p) := rising_filter h

theorem mem_mapDel {α : Type} {a : Nat} {c : Nat × α} : ∀ {m : List (Nat × α)}, c ∈ mapDel m a → c ∈ m
  | (k, v) :: m, h => by
    unfold mapDel at h
    split at h
    · exact List.mem_cons_of_mem _ h
    · split at h
      · exact h
      · rcases List.mem_cons.1 h with h | h
        · exact h ▸ List.mem_cons_self
        · exact List.mem_cons_of_mem _ (mem_mapDel h)

theorem mem_mapPut {α : Type} {a : Nat} {x : α} {c : Nat × α} : ∀ {m : List (Nat × α)}, c ∈ mapPut m a x → c = (a, x) ∨ c ∈ m
  | [], h => .inl (by simpa [mapPut] using h)
  | (k, v) :: m, h => by
    unfold mapPut at h
    split at h
    · subst a
      rcases List.mem_cons.1 h with h | h
      · exact .inl h
      · exact .inr (List.mem_cons_of_mem _ h)
    · split at h
      · rcases List.mem_cons.1 h with h | h
        · exact .inl h
        · exact .inr h
      · rcases List.mem_cons.1 h with h | h
        · exact .inr (h ▸ List.mem_cons_self)
        · rcases mem_mapPut h with h | h
          · exact .inl h
          · exact .inr (List.mem_cons_of_mem _ h)

/-- A byte written keeps memory canonical. -/
theorem memPut_wf {m : List Host.Cell} {a : Nat} {b : Byte} (h : memWf m = true) : memWf (memPut m a b) = true := by
  unfold memWf memPut at *
  simp only [Bool.and_eq_true, List.all_eq_true, bne_iff_ne, ne_eq] at h ⊢
  refine ⟨MapOk.set h.1, fun c hc => ?_⟩
  unfold mapSet at hc
  split at hc
  · exact h.2 c (mem_mapDel hc)
  · rcases mem_mapPut hc with rfl | hc
    · assumption
    · exact h.2 c hc

/-- Memory with bytes dropped is canonical. -/
theorem memFilter_wf {m : List Host.Cell} {p : Host.Cell → Bool} (h : memWf m = true) : memWf (m.filter p) = true := by
  unfold memWf at *
  simp only [Bool.and_eq_true, List.all_eq_true] at h ⊢
  exact ⟨rising_filter h.1, fun c hc => h.2 c (List.mem_filter.1 hc).1⟩

theorem State.putByte_kept {s0 s : State} {a : Nat} {b : Byte} (h : Kept s0 s) : Kept s0 (s.putByte a b) :=
  Kept.upd (t := s.putByte a b) h rfl (Nat.le_refl _) memPut_wf id id id id rfl

theorem State.putBytes_kept {s0 : State} : ∀ {s : State} {a : Nat} {l : List Byte}, Kept s0 s → Kept s0 (s.putBytes a l)
  | _, _, [], h => h
  | s, a, b :: l, h => State.putBytes_kept (s := s.putByte a b) (a := a + 1) (l := l) (State.putByte_kept h)

theorem State.putWord_kept {s0 s : State} {a : Nat} {w : Word} (h : Kept s0 s) : Kept s0 (s.putWord a w) :=
  Kept.plain (t := s.putWord a w) (State.putBytes_kept (a := a) (l := wordBytes w) h) rfl rfl rfl rfl rfl rfl rfl rfl

theorem State.putWords_kept {s0 : State} : ∀ {s : State} {a : Nat} {l : List Word}, Kept s0 s → Kept s0 (s.putWords a l)
  | _, _, [], h => h
  | s, a, w :: l, h => State.putWords_kept (s := s.putWord a w) (a := a + 4) (l := l) (State.putWord_kept h)

theorem kept1_foldl {α β : Type} {s0 : State} {f : State × α → β → State × α} (hf : ∀ p x, Kept1 s0 p → Kept1 s0 (f p x)) :
    ∀ (l : List β) {p : State × α}, Kept1 s0 p → Kept1 s0 (l.foldl f p)
  | [], _, h => h
  | x :: l, _, h => kept1_foldl hf l (hf _ x h)

end Sys2Proof.Machine
end

