-- ==== Sys2Proof/Laws/KeptOps.lean ====
section
/-!
SUPPORT. What the operations of Machine/Ops.lean keep: one lemma each, from any state reached.
-/
namespace Sys2Proof.Machine

open Sys2Proof.Safety

theorem State.onAx_kept {s0 : State} {s a f} (h_s : Kept s0 s) : Kept s0 (State.onAx s a f) := 
  h_s.plain rfl rfl rfl rfl rfl rfl rfl (by simp [unitCounts, State.onAx])

theorem State.onDr_kept {s0 : State} {s a f} (h_s : Kept s0 s) : Kept s0 (State.onDr s a f) := 
  h_s.plain rfl rfl rfl rfl rfl rfl rfl (by simp [unitCounts, State.onDr])

theorem State.onCx_kept {s0 : State} {s c f} (h_s : Kept s0 s) : Kept s0 (State.onCx s c f) := 
  h_s.plain rfl rfl rfl rfl rfl rfl rfl (by simp [unitCounts, State.onCx])

theorem State.onFb_kept {s0 : State} {s n f} (h_s : Kept s0 s) : Kept s0 (State.onFb s n f) := 
  h_s.plain rfl rfl rfl rfl rfl rfl rfl (by simp [unitCounts, State.onFb])

theorem State.onMt_kept {s0 : State} {s a f} (h_s : Kept s0 s) : Kept s0 (State.onMt s a f) := 
  h_s.plain rfl rfl rfl rfl rfl rfl rfl (by simp [unitCounts, State.onMt])

theorem State.onCm_kept {s0 : State} {s i f} (h_s : Kept s0 s) : Kept s0 (State.onCm s i f) := 
  h_s.plain rfl rfl rfl rfl rfl rfl rfl (by simp [unitCounts, State.onCm])

theorem State.onLa_kept {s0 : State} {s i f} (h_s : Kept s0 s) : Kept s0 (State.onLa s i f) := 
  h_s.plain rfl rfl rfl rfl rfl rfl rfl (by simp [unitCounts, State.onLa])

theorem State.onGr_kept {s0 : State} {s g f} (h_s : Kept s0 s) : Kept s0 (State.onGr s g f) := 
  h_s.plain rfl rfl rfl rfl rfl rfl rfl (by simp [unitCounts, State.onGr])

theorem State.onLg_kept {s0 : State} {s l f} (h_s : Kept s0 s) : Kept s0 (State.onLg s l f) := 
  h_s.plain rfl rfl rfl rfl rfl rfl rfl (by simp [unitCounts, State.onLg])

theorem State.onLn_kept {s0 : State} {s n f} (h_s : Kept s0 s) : Kept s0 (State.onLn s n f) := 
  h_s.plain rfl rfl rfl rfl rfl rfl rfl (by simp [unitCounts, State.onLn])

theorem State.onRp_kept {s0 : State} {s r f} (h_s : Kept s0 s) : Kept s0 (State.onRp s r f) := 
  h_s.plain rfl rfl rfl rfl rfl rfl rfl (by simp [unitCounts, State.onRp])

theorem State.onSh_kept {s0 : State} {s g f} (h_s : Kept s0 s) : Kept s0 (State.onSh s g f) := 
  h_s.plain rfl rfl rfl rfl rfl rfl rfl (by simp [unitCounts, State.onSh])

theorem State.onDm_kept {s0 : State} {s c f} (h_s : Kept s0 s) : Kept s0 (State.onDm s c f) := 
  h_s.plain rfl rfl rfl rfl rfl rfl rfl (by simp [unitCounts, State.onDm])

theorem State.onCn_kept {s0 : State} {s p f} (h_s : Kept s0 s) : Kept s0 (State.onCn s p f) := 
  h_s.plain rfl rfl rfl rfl rfl rfl rfl (by simp [unitCounts, State.onCn])

theorem State.onDi_kept {s0 : State} {s i f} (h_s : Kept s0 s) : Kept s0 (State.onDi s i f) := 
  h_s.plain rfl rfl rfl rfl rfl rfl rfl (by simp [unitCounts, State.onDi])

theorem State.onFo_kept {s0 : State} {s n f} (h_s : Kept s0 s) : Kept s0 (State.onFo s n f) := 
  h_s.plain rfl rfl rfl rfl rfl rfl rfl (by simp [unitCounts, State.onFo])

theorem State.onSi_kept {s0 : State} {s i f} (h_s : Kept s0 s) : Kept s0 (State.onSi s i f) := 
  h_s.plain rfl rfl rfl rfl rfl rfl rfl (by simp [unitCounts, State.onSi])

theorem State.onTime_kept {s0 : State} {s f} (h_s : Kept s0 s) : Kept s0 (State.onTime s f) := 
  h_s.plain rfl rfl rfl rfl rfl rfl rfl rfl

theorem State.onStage_kept {s0 : State} {s f} (h_s : Kept s0 s) : Kept s0 (State.onStage s f) := 
  h_s.plain rfl rfl rfl rfl rfl rfl rfl rfl

theorem State.onPower_kept {s0 : State} {s f} (h_s : Kept s0 s) : Kept s0 (State.onPower s f) := 
  h_s.plain rfl rfl rfl rfl rfl rfl rfl rfl

theorem State.onSafe_kept {s0 : State} {s f} (h_s : Kept s0 s) : Kept s0 (State.onSafe s f) := 
  h_s.plain rfl rfl rfl rfl rfl rfl rfl rfl

theorem State.onSched_kept {s0 : State} {s f} (h_s : Kept s0 s) : Kept s0 (State.onSched s f) := 
  h_s.plain rfl rfl rfl rfl rfl rfl rfl rfl

theorem State.onField_kept {s0 : State} {s f} (h_s : Kept s0 s) : Kept s0 (State.onField s f) := 
  h_s.plain rfl rfl rfl rfl rfl rfl rfl rfl

theorem State.onRescue_kept {s0 : State} {s f} (h_s : Kept s0 s) : Kept s0 (State.onRescue s f) := 
  h_s.plain rfl rfl rfl rfl rfl rfl rfl rfl

theorem State.onChop_kept {s0 : State} {s f} (h_s : Kept s0 s) : Kept s0 (State.onChop s f) := 
  h_s.plain rfl rfl rfl rfl rfl rfl rfl rfl

theorem State.onPdie_kept {s0 : State} {s f} (h_s : Kept s0 s) : Kept s0 (State.onPdie s f) := 
  h_s.plain rfl rfl rfl rfl rfl rfl rfl rfl

theorem State.onTrace_kept {s0 : State} {s f} (h_s : Kept s0 s) : Kept s0 (State.onTrace s f) := 
  h_s.plain rfl rfl rfl rfl rfl rfl rfl rfl

theorem State.onHk_kept {s0 : State} {s f} (h_s : Kept s0 s) : Kept s0 (State.onHk s f) := 
  h_s.plain rfl rfl rfl rfl rfl rfl rfl rfl

theorem State.onLog_kept {s0 : State} {s f} (h_s : Kept s0 s) : Kept s0 (State.onLog s f) := 
  h_s.plain rfl rfl rfl rfl rfl rfl rfl rfl

theorem State.onMstr_kept {s0 : State} {s m f} (h_s : Kept s0 s) : Kept s0 (State.onMstr s m f) :=  by
  cases m <;> exact h_s.plain rfl rfl rfl rfl rfl rfl rfl rfl

theorem State.takeFree_kept {s0 : State} {s} (h_s : Kept s0 s) : Kept2 s0 (State.takeFree s) := 
  h_s.upd rfl (Nat.le_succ _) id id id id id rfl

theorem State.setLv_kept {s0 : State} {s p o v} (h_s : Kept s0 s) : Kept s0 (State.setLv s p o v) := 
  h_s.upd rfl (Nat.le_refl _) id MapOk.set id id id rfl

theorem State.setCf_kept {s0 : State} {s p o v} (h_s : Kept s0 s) : Kept s0 (State.setCf s p o v) := 
  h_s.upd rfl (Nat.le_refl _) id id MapOk.set id id rfl

theorem State.setCd_kept {s0 : State} {s p o v} (h_s : Kept s0 s) : Kept s0 (State.setCd s p o v) := 
  h_s.upd rfl (Nat.le_refl _) id id id MapOk.set id rfl

theorem State.setPair_kept {s0 : State} {s p o x} (h_s : Kept s0 s) : Kept s0 (State.setPair s p o x) := by
  unfold State.setPair
  exact State.setLv_kept (State.setLv_kept h_s)

theorem State.onLv_kept {s0 : State} {s p o f} (h_s : Kept s0 s) : Kept s0 (State.onLv s p o f) := by
  unfold State.onLv
  exact State.setLv_kept h_s

theorem State.inc16_kept {s0 : State} {s p o} (h_s : Kept s0 s) : Kept s0 (State.inc16 s p o) := by
  unfold State.inc16
  exact State.onLv_kept h_s

theorem State.inc32_kept {s0 : State} {s p o} (h_s : Kept s0 s) : Kept s0 (State.inc32 s p o) := by
  unfold State.inc32
  exact State.onLv_kept h_s

theorem State.eventRaw_kept {s0 : State} {s p bits} (h_s : Kept s0 s) : Kept s0 (State.eventRaw s p bits) := by
  unfold State.eventRaw
  exact State.onLv_kept h_s

theorem State.traceTrigger_kept {s0 : State} {s u tick} (h_s : Kept s0 s) : Kept s0 (State.traceTrigger s u tick) := by
  unfold State.traceTrigger
  extract_lets +onlyGivenNames v0
  clear_value v0
  refine kept_ite ?_ ?_
  · refine kept_ite ?_ (State.inc16_kept h_s)
    refine State.eventRaw_kept ?_
    exact Kept.plain h_s rfl rfl rfl rfl rfl rfl rfl rfl
  · split
    · refine kept_ite ?_ h_s
      exact Kept.plain h_s rfl rfl rfl rfl rfl rfl rfl rfl
    · exact h_s

theorem State.traceFire_kept {s0 : State} {s u tick} (h_s : Kept s0 s) : Kept s0 (State.traceFire s u tick) := by
  unfold State.traceFire
  extract_lets +onlyGivenNames v0
  clear_value v0
  extract_lets +onlyGivenNames v1
  clear_value v1
  extract_lets +onlyGivenNames v2
  clear_value v2
  refine kept_ite (State.traceTrigger_kept h_s) ?_
  refine kept_ite ?_ ?_
  · exact Kept.plain h_s rfl rfl rfl rfl rfl rfl rfl rfl
  · split
    · exact kept_ite (State.traceTrigger_kept h_s) h_s
    · exact h_s

theorem State.traceKind_kept {s0 : State} {s kind tick hit} (h_s : Kept s0 s) :
    Kept s0 (State.traceKind s kind tick hit) := by
  unfold State.traceKind
  refine kept_ite ?_ h_s
  refine forN_kept ?_ h_s
  intro x3 t4 h5
  extract_lets +onlyGivenNames v6
  clear_value v6
  exact kept_ite (State.traceFire_kept h5) h5

theorem State.event_kept {s0 : State} {s p bits} (h_s : Kept s0 s) : Kept s0 (State.event s p bits) := by
  unfold State.event
  exact State.traceKind_kept (State.eventRaw_kept h_s)

theorem State.pfault_kept {s0 : State} {s p bits} (h_s : Kept s0 s) : Kept s0 (State.pfault s p bits) := by
  unfold State.pfault
  exact State.onLv_kept h_s

theorem State.logAdd_kept {s0 : State} {s kind cls master code detail} (h_s : Kept s0 s) :
    Kept s0 (State.logAdd s kind cls master code detail) := by
  unfold State.logAdd
  extract_lets +onlyGivenNames v0
  clear_value v0
  exact kept_ite (State.onLog_kept h_s) (kept_ite (State.onLog_kept h_s) (State.event_kept (State.inc16_kept (State.onLog_kept h_s))))

theorem State.refuse_kept {s0 : State} {s m code cmd addr} (h_s : Kept s0 s) :
    Kept s0 (State.refuse s m code cmd addr) := by
  unfold State.refuse
  extract_lets +onlyGivenNames v0
  have h0 : Kept s0 v0 := State.onMstr_kept (State.event_kept (State.inc16_kept h_s))
  clear_value v0
  exact State.logAdd_kept h0

theorem State.stopT_kept {s0 : State} {s t} (h_s : Kept s0 s) : Kept s0 (State.stopT s t) := 
  h_s.plain rfl rfl rfl rfl rfl rfl rfl rfl

theorem State.startT_kept {s0 : State} {s t at_} (h_s : Kept s0 s) : Kept s0 (State.startT s t at_) := 
  h_s.plain rfl rfl rfl rfl rfl rfl rfl rfl

theorem State.reach_kept {s0 : State} {s t} (h_s : Kept s0 s) : Kept s0 (State.reach s t) := by
  unfold State.reach
  exact State.onTime_kept h_s

theorem State.expire_kept {s0 : State} {s t f} (h_s : Kept s0 s) (h_f : ∀ t0, Kept s0 t0 → Kept s0 (f t0)) :
    Kept s0 (State.expire s t f) := by
  unfold State.expire
  split
  · exact h_s
  · exact h_f _ (State.stopT_kept (State.reach_kept h_s))

end Sys2Proof.Machine
end

