-- ==== Sys2Proof/Laws/KeptUnits.lean ====
section
/-!
SUPPORT. What the operations of Machine/Units.lean keep: one lemma each, from any state reached.
-/
namespace Sys2Proof.Machine

open Sys2Proof.Safety

theorem State.onChan_kept {s0 : State} {s cls idx f} (h_s : Kept s0 s) : Kept s0 (State.onChan s cls idx f) := 
  h_s.upd rfl (Nat.le_refl _) id id id id MapOk.set rfl

end Sys2Proof.Machine
end

