-- ==== Sys2Proof/Laws/KeptReact.lean ====
section
/-!
SUPPORT. What the operations of Machine/React.lean keep: one lemma each, from any state reached.
-/
namespace Sys2Proof.Machine

open Sys2Proof.Safety

theorem State.watchBrake_kept {s0 : State} {s a} (h_s : Kept s0 s) : Kept s0 (State.watchBrake s a) := by
  unfold State.watchBrake
  exact forL_kept (fun _ _ h0 => State.startT_kept h0) h_s

theorem State.sbcIssue_kept {s0 : State} {s a} (h_s : Kept s0 s) : Kept s0 (State.sbcIssue s a) := by
  unfold State.sbcIssue
  extract_lets +onlyGivenNames v0
  have h0 : Kept s0 v0 := State.stopT_kept h_s
  clear_value v0
  exact kept_ite (State.watchBrake_kept (State.onAx_kept h0)) (State.onAx_kept h0)

theorem State.brakeOff_kept {s0 : State} {s a} (h_s : Kept s0 s) : Kept s0 (State.brakeOff s a) := by
  unfold State.brakeOff
  exact kept_ite (State.watchBrake_kept (State.onAx_kept h_s)) (State.onAx_kept h_s)

theorem State.legOff_kept {s0 : State} {s l} (h_s : Kept s0 s) : Kept s0 (State.legOff s l) := by
  unfold State.legOff
  exact State.onLg_kept h_s

theorem State.gatesOff_kept {s0 : State} {s a} (h_s : Kept s0 s) : Kept s0 (State.gatesOff s a) := by
  unfold State.gatesOff
  extract_lets +onlyGivenNames v0
  have h0 : Kept s0 v0 := forL_kept (fun _ _ h1 => State.legOff_kept h1) h_s
  clear_value v0
  exact State.onMt_kept h0

theorem State.setLastSrc_kept {s0 : State} {s a src} (h_s : Kept s0 s) : Kept s0 (State.setLastSrc s a src) := by
  unfold State.setLastSrc
  exact State.setLv_kept h_s

theorem State.settleSto_kept {s0 : State} {s a} (h_s : Kept s0 s) : Kept s0 (State.settleSto s a) := by
  unfold State.settleSto
  exact State.onAx_kept h_s

theorem State.stoNow_kept {s0 : State} {s a} (h_s : Kept s0 s) : Kept s0 (State.stoNow s a) := by
  unfold State.stoNow
  extract_lets +onlyGivenNames v0
  have h0 : Kept s0 v0 := State.onAx_kept (State.sbcIssue_kept (State.gatesOff_kept h_s))
  clear_value v0
  exact forL_kept (fun _ _ h1 => State.stopT_kept h1) h0

theorem State.ss1End_kept {s0 : State} {s a} (h_s : Kept s0 s) : Kept s0 (State.ss1End s a) := by
  unfold State.ss1End
  extract_lets +onlyGivenNames v0
  have h0 : Kept s0 v0 := State.stopT_kept h_s
  clear_value v0
  extract_lets +onlyGivenNames v1
  have h1 : Kept s0 v1 := State.onAx_kept h0
  clear_value v1
  exact kept_ite (State.startT_kept (State.sbcIssue_kept h1)) (State.onAx_kept (State.settleSto_kept (State.stoNow_kept h1)))

theorem State.ss1Start_kept {s0 : State} {s a tmax} (h_s : Kept s0 s) : Kept s0 (State.ss1Start s a tmax) := by
  unfold State.ss1Start
  extract_lets +onlyGivenNames v0
  clear_value v0
  extract_lets +onlyGivenNames v1
  clear_value v1
  extract_lets +onlyGivenNames v2
  clear_value v2
  exact kept_ite (State.startT_kept (State.onAx_kept h_s)) (State.ss1End_kept h_s)

theorem State.enterReact_kept {s0 : State} {s a r} (h_s : Kept s0 s) : Kept s0 (State.enterReact s a r) := by
  unfold State.enterReact
  extract_lets +onlyGivenNames v0
  clear_value v0
  extract_lets +onlyGivenNames v1
  have h1 : Kept s0 v1 := State.onAx_kept h_s
  clear_value v1
  split
  · exact State.settleSto_kept (State.stoNow_kept h1)
  · exact State.onAx_kept h1
  · exact kept_ite (State.sbcIssue_kept h1) (State.ss1Start_kept (State.sbcIssue_kept h1))
  · exact kept_ite h1 (State.ss1Start_kept h1)
  · extract_lets +onlyGivenNames v2
    have h2 : Kept s0 v2 := State.onAx_kept h1
    clear_value v2
    exact State.startT_kept (State.event_kept h2)
  · exact h1

theorem State.applyReact_kept {s0 : State} {s a r src dem} (h_s : Kept s0 s) :
    Kept s0 (State.applyReact s a r src dem) := by
  unfold State.applyReact
  extract_lets +onlyGivenNames v0
  have h0 : Kept s0 v0 := State.onAx_kept h_s
  clear_value v0
  extract_lets +onlyGivenNames v1
  clear_value v1
  exact kept_ite h_s (kept_ite (kept_ite h0 (State.enterReact_kept (State.setLastSrc_kept h0))) (kept_ite (State.settleSto_kept h0) (kept_ite (State.onAx_kept h0) h0)))

theorem State.pushReact_kept {s0 : State} {s a r src dem} (h_s : Kept s0 s) : Kept s0 (State.pushReact s a r src dem) := by
  unfold State.pushReact
  exact State.onAx_kept h_s

theorem State.settleReacts_kept {s0 : State} {s a} (h_s : Kept s0 s) : Kept s0 (State.settleReacts s a) := by
  unfold State.settleReacts
  extract_lets +onlyGivenNames v0
  clear_value v0
  split
  · exact h_s
  · extract_lets +onlyGivenNames v1
    have h1 : Kept s0 v1 := State.onAx_kept h_s
    clear_value v1
    exact State.applyReact_kept h1

theorem State.clearSrc_kept {s0 : State} {s src a} (h_s : Kept s0 s) : Kept s0 (State.clearSrc s src a) := by
  unfold State.clearSrc
  exact State.onSafe_kept h_s

theorem State.noteSrc_kept {s0 : State} {s src a master} (h_s : Kept s0 s) : Kept s0 (State.noteSrc s src a master) := by
  unfold State.noteSrc
  extract_lets +onlyGivenNames v0
  have h0 : Kept s0 v0 := State.onSafe_kept h_s
  clear_value v0
  exact State.event_kept (State.logAdd_kept h0)

theorem State.raise_kept {s0 : State} {s src a} (h_s : Kept s0 s) : Kept s0 (State.raise s src a) := by
  unfold State.raise
  extract_lets +onlyGivenNames v0
  have h0 : Kept s0 v0 := State.noteSrc_kept h_s
  clear_value v0
  extract_lets +onlyGivenNames v1
  clear_value v1
  refine kept_ite h_s ?_
  refine forL_kept ?_ h0
  intro x5 t6 h7
  split
  · exact h7
  · exact State.pushReact_kept h7

theorem State.raiseNow_kept {s0 : State} {s src a} (h_s : Kept s0 s) : Kept s0 (State.raiseNow s src a) := by
  unfold State.raiseNow
  extract_lets +onlyGivenNames v0
  have h0 : Kept s0 v0 := State.noteSrc_kept h_s
  clear_value v0
  extract_lets +onlyGivenNames v1
  clear_value v1
  refine kept_ite h_s ?_
  refine forL_kept ?_ h0
  intro x5 t6 h7
  split
  · exact h7
  · exact kept_ite h7 (State.pushReact_kept (State.stoNow_kept h7))
  · exact State.pushReact_kept h7

theorem State.raisePulse_kept {s0 : State} {s src a} (h_s : Kept s0 s) : Kept s0 (State.raisePulse s src a) := by
  unfold State.raisePulse
  exact State.clearSrc_kept (State.raise_kept h_s)

theorem State.leaveMotion_kept {s0 : State} {s a st} (h_s : Kept s0 s) : Kept s0 (State.leaveMotion s a st) := by
  unfold State.leaveMotion
  exact State.onAx_kept (State.sbcIssue_kept (State.gatesOff_kept h_s))

end Sys2Proof.Machine
end

