-- ==== Sys2Proof/Laws/KeptProof.lean ====
section
/-!
SUPPORT. What the operations of Machine/Proof.lean keep: one lemma each, from any state reached.
-/
namespace Sys2Proof.Machine

open Sys2Proof.Safety

theorem State.setPlans_kept {s0 : State} {s} (h_s : Kept s0 s) : Kept s0 (State.setPlans s) := by
  unfold State.setPlans
  exact forN_kept (fun _ _ h0 => State.onLn_kept h0) h_s

theorem State.setLaneStates_kept {s0 : State} {s} (h_s : Kept s0 s) : Kept s0 (State.setLaneStates s) := by
  unfold State.setLaneStates
  exact forN_kept (fun _ _ h0 => State.onLn_kept h0) h_s

end Sys2Proof.Machine
end

