-- ==== Sys2Proof/Laws/KeptChannels.lean ====
section
/-!
SUPPORT. What the operations of Machine/Channels.lean keep: one lemma each, from any state reached.
-/
namespace Sys2Proof.Machine

open Sys2Proof.Safety

theorem State.voidProof_kept {s0 : State} {s} (h_s : Kept s0 s) : Kept s0 (State.voidProof s) := by
  unfold State.voidProof
  refine kept_ite h_s ?_
  split
  · exact State.onStage_kept h_s
  · exact State.onStage_kept h_s
  · exact State.event_kept (State.onStage_kept h_s)
  · exact h_s

theorem State.startReproof_kept {s0 : State} {s} (h_s : Kept s0 s) : Kept s0 (State.startReproof s) := by
  unfold State.startReproof
  exact kept_ite (State.onStage_kept h_s) h_s

theorem State.loseLane_kept {s0 : State} {s n} (h_s : Kept s0 s) : Kept s0 (State.loseLane s n) := by
  unfold State.loseLane
  extract_lets +onlyGivenNames v0
  have h0 : Kept s0 v0 := forL_kept (fun _ _ h1 => State.raiseNow_kept h1) h_s
  clear_value v0
  exact kept_ite (State.pfault_kept h0) h0

theorem State.stopLane_kept {s0 : State} {s n} (h_s : Kept s0 s) : Kept s0 (State.stopLane s n) := by
  unfold State.stopLane
  extract_lets +onlyGivenNames v0
  clear_value v0
  extract_lets +onlyGivenNames v1
  have h1 : Kept s0 v1 := State.onLn_kept h_s
  clear_value v1
  extract_lets +onlyGivenNames v2
  have h2 : Kept s0 v2 := forL_kept (fun _ _ h3 => State.loseLane_kept h3) (State.pfault_kept h1)
  clear_value v2
  exact kept_ite (State.onLn_kept (State.onLn_kept h2)) (State.startReproof_kept (State.loseLane_kept h2))

theorem State.retire_kept {s0 : State} {s cls idx} (h_s : Kept s0 s) : Kept s0 (State.retire s cls idx) := by
  unfold State.retire
  extract_lets +onlyGivenNames v0
  have h0 : Kept s0 v0 := State.onChan_kept h_s
  clear_value v0
  extract_lets +onlyGivenNames v1
  have h1 : Kept s0 v1 := State.logAdd_kept h0
  clear_value v1
  extract_lets +onlyGivenNames v2
  have h2 : Kept s0 v2 := State.voidProof_kept h1
  clear_value v2
  refine kept_ite h_s ?_
  split
  · exact State.startReproof_kept (State.onFb_kept h2)
  · exact State.startReproof_kept (State.pfault_kept (State.onLg_kept (State.legOff_kept h2)))
  · exact State.startReproof_kept (State.pfault_kept (State.onLg_kept (State.legOff_kept h2)))
  · exact State.stopLane_kept h2
  · exact State.startReproof_kept (State.pfault_kept (State.onCn_kept h2))
  · exact State.startReproof_kept (State.pfault_kept (State.onFo_kept h2))
  · exact State.startReproof_kept h2

theorem State.intoRetry_kept {s0 : State} {s cls idx} (h_s : Kept s0 s) : Kept s0 (State.intoRetry s cls idx) := by
  unfold State.intoRetry
  split
  · exact State.onFb_kept h_s
  · exact State.onLg_kept h_s
  · exact State.onLg_kept h_s
  · exact State.onFo_kept h_s
  · exact h_s

theorem State.onsetWith_kept {s0 : State} {s cls idx window} (h_s : Kept s0 s) :
    Kept s0 (State.onsetWith s cls idx window) := by
  unfold State.onsetWith
  extract_lets +onlyGivenNames v0
  clear_value v0
  extract_lets +onlyGivenNames v1
  have h1 : Kept s0 v1 := State.onChan_kept h_s
  clear_value v1
  extract_lets +onlyGivenNames v2
  clear_value v2
  exact kept_ite h_s (kept_ite (State.retire_kept h1) (State.intoRetry_kept (State.onChan_kept h1)))

theorem State.onset_kept {s0 : State} {s cls idx} (h_s : Kept s0 s) : Kept s0 (State.onset s cls idx) := by
  unfold State.onset
  exact State.onsetWith_kept h_s

theorem State.backInService_kept {s0 : State} {s cls idx} (h_s : Kept s0 s) : Kept s0 (State.backInService s cls idx) := by
  unfold State.backInService
  exact kept_ite h_s (State.onChan_kept h_s)

theorem State.laneFault_kept {s0 : State} {s n faultBit w} (h_s : Kept s0 s) :
    Kept s0 (State.laneFault s n faultBit w) := by
  unfold State.laneFault
  extract_lets +onlyGivenNames v0
  have h0 : Kept s0 v0 := State.pfault_kept h_s
  clear_value v0
  exact kept_ite h0 (State.onLn_kept (State.backInService_kept (State.onset_kept h0)))

theorem State.laneRestart_kept {s0 : State} {s n l} (h_s : Kept s0 s) : Kept s0 (State.laneRestart s n l) := by
  unfold State.laneRestart
  exact State.onLn_kept h_s

theorem State.finishReproof_kept {s0 : State} {s o} (h_s : Kept s0 s) : Kept s0 (State.finishReproof s o) := by
  unfold State.finishReproof
  extract_lets +onlyGivenNames v0
  have h0 : Kept s0 v0 := State.onStage_kept (State.setLv_kept h_s)
  clear_value v0
  extract_lets +onlyGivenNames v1
  have h1 : Kept s0 v1 := State.setPlans_kept h0
  clear_value v1
  extract_lets +onlyGivenNames v2
  clear_value v2
  extract_lets +onlyGivenNames v3
  have h3 : Kept s0 v3 := State.pfault_kept (State.event_kept h1)
  clear_value v3
  exact kept_ite (State.onSafe_kept h1) (forL_kept (fun _ _ h4 => State.raise_kept (State.clearSrc_kept (State.onAx_kept h4))) h3)

theorem State.copyWords_kept {s0 : State} {s src dst b n} (h_s : Kept s0 s) : Kept1 s0 (State.copyWords s src dst b n) := by
  unfold State.copyWords
  extract_lets +onlyGivenNames v0
  clear_value v0
  exact kept1_mk (forN_kept (fun _ _ h1 => State.putWord_kept h1) h_s)

theorem State.moveCf_kept {s0 : State} {s p o v} (h_s : Kept s0 s) : Kept s0 (State.moveCf s p o v) := by
  unfold State.moveCf
  extract_lets +onlyGivenNames v0
  clear_value v0
  extract_lets +onlyGivenNames v1
  clear_value v1
  extract_lets +onlyGivenNames v2
  have h2 : Kept s0 v2 := State.setCd_kept (State.setCf_kept h_s)
  clear_value v2
  exact State.onStage_kept h2

theorem State.takeover_kept {s0 : State} {s n g} (h_s : Kept s0 s) : Kept s0 (State.takeover s n g) :=  by
  unfold State.takeover
  extract_lets +onlyGivenNames c
  extract_lets +onlyGivenNames held
  have hf : Kept1 s0 (held.foldl (fun (x : State × Bool) m =>
      let (cb, cw) := codeRange c m
      let (db, dw) := dataRange c m
      let (s1, b1) := x.1.copyWords (codeAddr n) (codeAddr g) cb cw
      let (s2, b2) := s1.copyWords (dataAddr n) (dataAddr g) db dw
      (s2, x.2 || b1 || b2)) (s, false)) := by
    refine kept1_foldl (fun p x hp => ?_) _ (kept1_mk h_s)
    have hp : Kept s0 p.1 := hp
    dsimp only
    exact State.copyWords_kept (State.copyWords_kept hp)
  clear_value c held
  split
  rename_i t bad e
  have h1 := kept1_fst hf e
  extract_lets +onlyGivenNames moved
  extract_lets +onlyGivenNames s2
  have h2 : Kept s0 s2 := by
    refine forL_kept (fun x t ht => ?_) h1
    extract_lets +onlyGivenNames s3
    have h3 : Kept s0 s3 := forL_kept (fun _ _ h => State.moveCf_kept h) ht
    exact State.onLn_kept (State.moveCf_kept h3)
  clear_value s2
  extract_lets +onlyGivenNames s4
  have h4 : Kept s0 s4 := forN_kept (fun _ _ h => kept_ite (State.moveCf_kept h) h) h2
  clear_value s4
  extract_lets +onlyGivenNames s5
  have h5 : Kept s0 s5 := forN_kept (fun _ _ h => kept_ite (State.moveCf_kept h) h) h4
  clear_value s5
  extract_lets +onlyGivenNames s6
  have h6 : Kept s0 s6 := kept_ite (State.moveCf_kept h5) h5
  clear_value s6
  have h7 := State.onStage_kept (f := fun x => { x with copied := x.copied ++ held.map fun m => (Fin.ofNat 8 g, Fin.ofNat 8 m) })
    (State.onLn_kept (n := n) (f := fun x => { x with held := [] }) h6)
  exact kept_ite (forL_kept (fun _ _ h => State.raiseNow_kept h) h7) h7

end Sys2Proof.Machine
end

