-- ==== Sys2Proof/Laws/KeptCommands.lean ====
section
/-!
SUPPORT. What the operations of Machine/Commands.lean keep: one lemma each, from any state reached.
-/
namespace Sys2Proof.Machine

open Sys2Proof.Safety

theorem State.setResult_kept {s0 : State} {s m seq code done acc res} (h_s : Kept s0 s) :
    Kept s0 (State.setResult s m seq code done acc res) := by
  unfold State.setResult
  extract_lets +onlyGivenNames v0
  have h0 : Kept s0 v0 := State.setLv_kept h_s
  clear_value v0
  exact kept_ite (State.event_kept h0) h0

theorem State.touch_kept {s0 : State} {s m} (h_s : Kept s0 s) : Kept s0 (State.touch s m) := by
  unfold State.touch
  exact State.onMstr_kept h_s

theorem State.downRefuse_kept {s0 : State} {s} (h_s : Kept s0 s) : Kept s0 (State.downRefuse s) := by
  unfold State.downRefuse
  exact State.event_kept (State.inc16_kept h_s)

theorem State.refuseBy_kept {s0 : State} {s m code cmd addr} (h_s : Kept s0 s) :
    Kept s0 (State.refuseBy s m code cmd addr) := by
  unfold State.refuseBy
  extract_lets +onlyGivenNames v0
  have h0 : Kept s0 v0 := State.refuse_kept h_s
  clear_value v0
  exact kept_ite (State.event_kept h0) h0

theorem State.complete_kept {s0 : State} {s m res} (h_s : Kept s0 s) : Kept s0 (State.complete s m res) := by
  unfold State.complete
  split
  · exact h_s
  · exact State.setResult_kept (State.onMstr_kept h_s)

theorem State.accept_kept {s0 : State} {s m seq code} (h_s : Kept s0 s) : Kept s0 (State.accept s m seq code) := by
  unfold State.accept
  exact State.setResult_kept h_s

theorem State.begin__kept {s0 : State} {s m seq code} (h_s : Kept s0 s) : Kept s0 (State.begin_ s m seq code) := by
  unfold State.begin_
  exact State.setResult_kept (State.onMstr_kept h_s)

theorem State.command_kept {s0 : State} {s m seq code tests run} (h_s : Kept s0 s) (h_run : ∀ t0, Kept s0 t0 → Kept s0 (run t0)) :
    Kept s0 (State.command s m seq code tests run) := by
  unfold State.command
  extract_lets +onlyGivenNames v0
  clear_value v0
  extract_lets +onlyGivenNames v1
  clear_value v1
  refine kept_ite ?_ ?_
  · split
    · exact h_s
    · exact State.setResult_kept (State.downRefuse_kept h_s)
  · refine kept_ite (State.refuseBy_kept h_s) ?_
    split
    · extract_lets +onlyGivenNames v2
      have h2 : Kept s0 v2 := State.refuseBy_kept h_s
      clear_value v2
      exact kept_ite h2 (State.setResult_kept h2)
    · exact h_run _ (State.touch_kept h_s)

theorem State.badCommand_kept {s0 : State} {s m seq code} (h_s : Kept s0 s) : Kept s0 (State.badCommand s m seq code) := by
  unfold State.badCommand
  exact State.command_kept h_s (fun _ h0 => h0)

theorem State.closeStage_kept {s0 : State} {s} (h_s : Kept s0 s) : Kept s0 (State.closeStage s) := by
  unfold State.closeStage
  extract_lets +onlyGivenNames v0
  clear_value v0
  exact Kept.upd h_s rfl (Nat.le_refl _) id id id (fun _ => rfl) id rfl

theorem State.armStrike_kept {s0 : State} {s} (h_s : Kept s0 s) : Kept s0 (State.armStrike s) := by
  unfold State.armStrike
  extract_lets +onlyGivenNames v0
  clear_value v0
  exact State.setPair_kept (State.onStage_kept h_s)

theorem State.armStrikeAt_kept {s0 : State} {s t tag} (h_s : Kept s0 s) : Kept s0 (State.armStrikeAt s t tag) := by
  unfold State.armStrikeAt
  exact State.setPair_kept (State.onStage_kept h_s)

theorem State.cancelStrikeAt_kept {s0 : State} {s} (h_s : Kept s0 s) : Kept s0 (State.cancelStrikeAt s) := by
  unfold State.cancelStrikeAt
  split
  · exact State.event_kept (State.onStage_kept h_s)
  · exact h_s

theorem State.startProof_kept {s0 : State} {s m seq code arms} (h_s : Kept s0 s) :
    Kept s0 (State.startProof s m seq code arms) := by
  unfold State.startProof
  extract_lets +onlyGivenNames v0
  clear_value v0
  exact State.begin__kept (State.onStage_kept h_s)

theorem execStageOpen_kept {s0 : State} {m seq arg8 s} (h_s : Kept s0 s) : Done s0 (execStageOpen m seq arg8 s) := by
  unfold execStageOpen
  extract_lets +onlyGivenNames v0
  clear_value v0
  refine done_next ?_
  refine State.command_kept h_s ?_
  intro t3 h4
  extract_lets +onlyGivenNames v5
  clear_value v5
  refine State.accept_kept ?_
  exact Kept.upd h4 rfl (Nat.le_refl _) id id id (fun _ => rfl) id rfl

theorem execStageDiscard_kept {s0 : State} {m seq arg8 s} (h_s : Kept s0 s) : Done s0 (execStageDiscard m seq arg8 s) := by
  unfold execStageDiscard
  extract_lets +onlyGivenNames v0
  clear_value v0
  refine done_next ?_
  refine State.command_kept h_s ?_
  intro t3 h4
  extract_lets +onlyGivenNames v5
  clear_value v5
  exact State.accept_kept (State.onMstr_kept (State.closeStage_kept h4))

theorem execProof_kept {s0 : State} {m seq arg8 s} (h_s : Kept s0 s) : Done s0 (execProof m seq arg8 s) := by
  unfold execProof
  extract_lets +onlyGivenNames v0
  clear_value v0
  exact done_next (State.command_kept h_s (fun _ h1 => State.startProof_kept h1))

theorem execStrike_kept {s0 : State} {m seq arg8 s} (h_s : Kept s0 s) : Done s0 (execStrike m seq arg8 s) := by
  unfold execStrike
  extract_lets +onlyGivenNames v0
  clear_value v0
  exact done_next (State.command_kept h_s (fun _ h1 => State.accept_kept (State.armStrike_kept h1)))

theorem execStrikeAt_kept {s0 : State} {m seq arg8 s} (h_s : Kept s0 s) : Done s0 (execStrikeAt m seq arg8 s) := by
  unfold execStrikeAt
  extract_lets +onlyGivenNames v0
  clear_value v0
  extract_lets +onlyGivenNames v1
  clear_value v1
  extract_lets +onlyGivenNames v2
  clear_value v2
  exact done_next (State.command_kept h_s (fun _ h3 => State.accept_kept (State.armStrikeAt_kept h3)))

theorem execProofStrike_kept {s0 : State} {m seq arg8 s} (h_s : Kept s0 s) : Done s0 (execProofStrike m seq arg8 s) := by
  unfold execProofStrike
  extract_lets +onlyGivenNames v0
  clear_value v0
  exact done_next (State.command_kept h_s (fun _ h1 => State.startProof_kept h1))

theorem State.markDirty_kept {s0 : State} {s p} (h_s : Kept s0 s) : Kept s0 (State.markDirty s p) := by
  unfold State.markDirty
  exact State.onStage_kept h_s

theorem execReadmit_kept {s0 : State} {m seq arg8 s} (h_s : Kept s0 s) : Done s0 (execReadmit m seq arg8 s) := by
  unfold execReadmit
  extract_lets +onlyGivenNames v0
  clear_value v0
  extract_lets +onlyGivenNames v1
  clear_value v1
  extract_lets +onlyGivenNames v2
  clear_value v2
  refine done_next ?_
  refine State.command_kept h_s ?_
  intro t5 h6
  extract_lets +onlyGivenNames v7
  have h7 : Kept s0 v7 := State.onStage_kept h6
  clear_value v7
  exact State.accept_kept (State.markDirty_kept h7)

theorem State.stagedWrite_kept {s0 : State} {s m a v} (h_s : Kept s0 s) : Kept s0 (State.stagedWrite s m a v) := by
  unfold State.stagedWrite
  extract_lets +onlyGivenNames v0
  clear_value v0
  extract_lets +onlyGivenNames v1
  clear_value v1
  refine kept_ite (kept_ite (State.downRefuse_kept h_s) h_s) ?_
  split
  · exact State.refuseBy_kept h_s
  · extract_lets +onlyGivenNames v2
    have h2 : Kept s0 v2 := State.setCd_kept (State.touch_kept h_s)
    clear_value v2
    exact State.markDirty_kept (State.onStage_kept h2)

theorem execStagedWrite_kept {s0 : State} {m addr v s} (h_s : Kept s0 s) : Done s0 (execStagedWrite m addr v s) := by
  unfold execStagedWrite
  exact done_ite (done_next (State.stagedWrite_kept h_s)) (done_next h_s)

theorem State.writeProof_kept {s0 : State} {s o} (h_s : Kept s0 s) : Kept s0 (State.writeProof s o) := by
  unfold State.writeProof
  extract_lets +onlyGivenNames v0
  have h0 : Kept s0 v0 := State.setLv_kept (State.setLv_kept (State.setLv_kept h_s))
  clear_value v0
  exact kept_ite h0 (State.onStage_kept h0)

theorem execProofDone_kept {s0 : State} {s} (h_s : Kept s0 s) : Done s0 (execProofDone s) := by
  unfold execProofDone
  split
  · extract_lets +onlyGivenNames v0
    have h0 : Kept s0 v0 := State.event_kept (State.writeProof_kept h_s)
    clear_value v0
    extract_lets +onlyGivenNames v1
    have h1 : Kept s0 v1 := State.onStage_kept h0
    clear_value v1
    extract_lets +onlyGivenNames v2
    have h2 : Kept s0 v2 := State.onStage_kept h1
    clear_value v2
    exact done_ite (done_next (State.complete_kept (State.onStage_kept h1))) (done_ite (done_next (State.complete_kept (kept_ite (State.armStrike_kept h2) h2))) (done_next (State.complete_kept (State.onStage_kept h1))))
  · exact done_next h_s

theorem execStageExpired_kept {s0 : State} {s} (h_s : Kept s0 s) : Done s0 (execStageExpired s) := by
  unfold execStageExpired
  extract_lets +onlyGivenNames v0
  clear_value v0
  split
  · extract_lets +onlyGivenNames v1
    have h1 : Kept s0 v1 := State.reach_kept h_s
    clear_value v1
    extract_lets +onlyGivenNames v2
    have h2 : Kept s0 v2 := kept_ite (State.complete_kept h1) h1
    clear_value v2
    exact done_ite (done_next h_s) (done_next (State.logAdd_kept (State.event_kept (State.closeStage_kept h2))))
  · exact done_next h_s

theorem execRetryWindowExpiry_kept {s0 : State} {c s} (h_s : Kept s0 s) : Done s0 (execRetryWindowExpiry c s) := by
  unfold execRetryWindowExpiry
  split
  · extract_lets +onlyGivenNames v0
    have h0 : Kept s0 v0 := State.reach_kept h_s
    clear_value v0
    exact done_ite (done_next (State.backInService_kept (State.onLg_kept h0))) (done_next (State.onset_kept h0))
  · exact done_next h_s

theorem execReproofDone_kept {s0 : State} {s} (h_s : Kept s0 s) : Done s0 (execReproofDone s) := by
  unfold execReproofDone
  split
  · exact done_next (State.finishReproof_kept h_s)
  · exact done_next h_s

theorem State.enterCommit_kept {s0 : State} {s} (h_s : Kept s0 s) : Kept s0 (State.enterCommit s) := by
  unfold State.enterCommit
  refine kept_ite h_s ?_
  split
  · exact State.onStage_kept h_s
  · exact State.event_kept (State.writeProof_kept (State.onStage_kept h_s))

theorem State.applyStage_kept {s0 : State} {s} (h_s : Kept s0 s) : Kept s0 (State.applyStage s) := by
  unfold State.applyStage
  extract_lets +onlyGivenNames v0
  clear_value v0
  extract_lets +onlyGivenNames v1
  clear_value v1
  extract_lets +onlyGivenNames v2
  clear_value v2
  extract_lets +onlyGivenNames v3
  have h3 : Kept s0 v3 := by
    unfold v3
    refine kept_foldl ?_ _ ?_
    · intro t4 x5 h6
      exact State.setCf_kept h6
    · exact h_s
  clear_value v3
  extract_lets +onlyGivenNames v7
  have h7 : Kept s0 v7 := State.setPair_kept (State.setLv_kept h3)
  clear_value v7
  extract_lets +onlyGivenNames v8
  have h8 : Kept s0 v8 := State.onStage_kept h7
  clear_value v8
  extract_lets +onlyGivenNames v9
  have h9 : Kept s0 v9 := State.event_kept (State.closeStage_kept h8)
  clear_value v9
  exact State.logAdd_kept h9

end Sys2Proof.Machine
end

