-- ==== Sys2Proof/Laws/KeptNvLog.lean ====
section
/-!
SUPPORT. What the operations of Machine/NvLog.lean keep: one lemma each, from any state reached.
-/
namespace Sys2Proof.Machine

open Sys2Proof.Safety

theorem State.openSector_kept {s0 : State} {s k type part body} (h_s : Kept s0 s) :
    Kept s0 (State.openSector s k type part body) := by
  unfold State.openSector
  extract_lets +onlyGivenNames v0
  clear_value v0
  extract_lets +onlyGivenNames v1
  clear_value v1
  extract_lets +onlyGivenNames v2
  clear_value v2
  exact State.putWords_kept h_s

theorem State.freeSector_kept {s0 : State} {s k} (h_s : Kept s0 s) : Kept s0 (State.freeSector s k) := by
  unfold State.freeSector
  exact State.putWords_kept h_s

theorem State.openHead_kept {s0 : State} {s} (h_s : Kept s0 s) : Kept s0 (State.openHead s) := by
  unfold State.openHead
  extract_lets +onlyGivenNames v0
  clear_value v0
  extract_lets +onlyGivenNames v1
  have h1 : Kept s0 v1 := State.openSector_kept h_s
  clear_value v1
  exact State.setLv_kept (State.onLog_kept h1)

theorem State.logFail_kept {s0 : State} {s} (h_s : Kept s0 s) : Kept s0 (State.logFail s) := by
  unfold State.logFail
  exact State.raisePulse_kept (State.pfault_kept h_s)

theorem State.reportLost_kept {s0 : State} {s} (h_s : Kept s0 s) : Kept s0 (State.reportLost s) := by
  unfold State.reportLost
  extract_lets +onlyGivenNames v0
  clear_value v0
  exact kept_ite h_s (State.logAdd_kept (State.onLog_kept h_s))

theorem execLogEntryCommit_kept {s0 : State} {verified s} (h_s : Kept s0 s) : Done s0 (execLogEntryCommit verified s) :=  by
  unfold execLogEntryCommit
  split
  · exact done_next h_s
  · rename_i e rest hq
    extract_lets +onlyGivenNames s1
    have h1 : Kept s0 s1 := kept_ite h_s (State.openHead_kept h_s)
    clear_value s1
    extract_lets +onlyGivenNames s2
    have h2 : Kept s0 s2 := State.onLog_kept h1
    clear_value s2
    extract_lets +onlyGivenNames at_
    extract_lets +onlyGivenNames slot
    clear_value at_ slot
    have hk : Kept s0 ({ s2 with free := s2.free + 4 }) := h2.upd rfl (Nat.le_add_right _ _) id id id id id rfl
    exact done_next (State.reportLost_kept (kept_ite
      (State.openHead_kept (kept_ite (State.event_kept (State.inc32_kept (State.putWords_kept h2))) (State.logFail_kept (State.putWords_kept hk))))
      (State.onLog_kept (kept_ite (State.event_kept (State.inc32_kept (State.putWords_kept h2))) (State.logFail_kept (State.putWords_kept hk))))))

theorem execSaveImage_kept {s0 : State} {m seq arg8 s} (h_s : Kept s0 s) : Done s0 (execSaveImage m seq arg8 s) := by
  unfold execSaveImage
  extract_lets +onlyGivenNames v0
  clear_value v0
  exact done_next (State.command_kept h_s (fun _ h1 => State.begin__kept (State.onStage_kept h1)))

theorem State.takeImage_kept {s0 : State} {s} (h_s : Kept s0 s) : Kept s0 (State.takeImage s) := by
  unfold State.takeImage
  split
  · exact State.onLog_kept (State.onStage_kept h_s)
  · exact h_s

theorem State.imageRegs_kept {s0 : State} {s} (h_s : Kept s0 s) : Kept s0 (State.imageRegs s) := by
  unfold State.imageRegs
  split
  · exact h_s
  · exact State.setLv_kept (State.setLv_kept (State.setLv_kept h_s))

theorem State.placeImage_kept {s0 : State} {s parts} (h_s : Kept s0 s) : Kept s0 (State.placeImage s parts) :=  by
  unfold State.placeImage
  extract_lets +onlyGivenNames old
  have hf : Kept1 s0 (parts.zipIdx.foldl (fun (x : State × List Nat) part =>
      let from_ := (x.2.getLast?).getD x.1.log.head
      let k := ((List.range 256).map fun i => (from_ + 1 + i) % 256).find? fun j => !old.contains j && j != x.1.log.head
      match k with
      | none => x
      | some k => (x.1.openSector k 2 part.2 part.1, x.2 ++ [k])) (s, [])) := by
    refine kept1_foldl (fun p x hp => ?_) _ (kept1_mk h_s)
    have hp' : Kept s0 p.1 := hp
    dsimp only
    split
    · exact hp
    · exact kept1_mk (State.openSector_kept hp')
  clear_value old
  split
  rename_i t new e
  have h1 := kept1_fst hf e
  exact State.imageRegs_kept (State.onLog_kept (forL_kept (fun _ _ h => State.freeSector_kept h) h1))

theorem execImageSaveDone_kept {s0 : State} {verified s} (h_s : Kept s0 s) : Done s0 (execImageSaveDone verified s) := by
  unfold execImageSaveDone
  split
  · extract_lets +onlyGivenNames v0
    clear_value v0
    extract_lets +onlyGivenNames v1
    have h1 : Kept s0 v1 := State.onLog_kept (State.onStage_kept h_s)
    clear_value v1
    exact done_ite (done_next (State.complete_kept (State.event_kept h1))) (done_ite (done_next (State.complete_kept (State.logFail_kept (State.event_kept h1)))) (done_next (State.complete_kept (State.logAdd_kept (State.event_kept (State.placeImage_kept h1))))))
  · exact done_next h_s

theorem execLogWearCopy_kept {s0 : State} {verified s} (h_s : Kept s0 s) : Done s0 (execLogWearCopy verified s) := by
  unfold execLogWearCopy
  exact done_ite (done_next h_s) (done_ite (done_next (State.logFail_kept h_s)) (done_next (State.placeImage_kept h_s)))

theorem State.bootLog_kept {s0 : State} {s source} (h_s : Kept s0 s) : Kept s0 (State.bootLog s source) := by
  unfold State.bootLog
  extract_lets +onlyGivenNames v0
  have h0 : Kept s0 v0 := kept_ite h_s (State.openHead_kept h_s)
  clear_value v0
  extract_lets +onlyGivenNames v1
  have h1 : Kept s0 v1 := State.onLog_kept h0
  clear_value v1
  extract_lets +onlyGivenNames v2
  have h2 : Kept s0 v2 := State.setLv_kept h1
  clear_value v2
  split
  · rename_i x3 t4 e5
    have h6 := done_get (execLogEntryCommit_kept (State.onLog_kept h2)) e5
    exact State.imageRegs_kept h6
  · exact h2

end Sys2Proof.Machine
end

