-- ==== Sys2Proof/Laws/KeptLoop.lean ====
section
/-!
SUPPORT. What the operations of Machine/Loop.lean keep: one lemma each, from any state reached.
-/
namespace Sys2Proof.Machine

open Sys2Proof.Safety

theorem State.ctxSat_kept {s0 : State} {s x f} (h_s : Kept s0 s) : Kept s0 (State.ctxSat s x f) := by
  unfold State.ctxSat
  exact kept_ite (State.event_kept (State.onCx_kept h_s)) h_s

theorem State.ctxDone_kept {s0 : State} {s x out} (h_s : Kept s0 s) : Kept s0 (State.ctxDone s x out) := by
  unfold State.ctxDone
  extract_lets +onlyGivenNames v0
  clear_value v0
  exact State.onCx_kept h_s

theorem State.runController_kept {s0 : State} {s x i} (h_s : Kept s0 s) : Kept s0 (State.runController s x i) := by
  unfold State.runController
  extract_lets +onlyGivenNames v0
  clear_value v0
  extract_lets +onlyGivenNames v1
  clear_value v1
  extract_lets +onlyGivenNames v2
  clear_value v2
  extract_lets +onlyGivenNames v3
  clear_value v3
  extract_lets +onlyGivenNames v4
  clear_value v4
  extract_lets +onlyGivenNames v5
  clear_value v5
  extract_lets +onlyGivenNames v6
  clear_value v6
  extract_lets +onlyGivenNames v7
  clear_value v7
  split
  · split
    · split
      · extract_lets +onlyGivenNames v8
        clear_value v8
        extract_lets +onlyGivenNames v9
        clear_value v9
        extract_lets +onlyGivenNames v10
        clear_value v10
        split
        · extract_lets +onlyGivenNames v11
          clear_value v11
          extract_lets +onlyGivenNames v12
          clear_value v12
          extract_lets +onlyGivenNames v13
          have h13 : Kept s0 v13 := State.onCx_kept h_s
          clear_value v13
          exact State.ctxDone_kept (State.ctxSat_kept h13)

theorem State.runOpen_kept {s0 : State} {s x i} (h_s : Kept s0 s) : Kept s0 (State.runOpen s x i) := by
  unfold State.runOpen
  extract_lets +onlyGivenNames v0
  clear_value v0
  extract_lets +onlyGivenNames v1
  clear_value v1
  extract_lets +onlyGivenNames v2
  clear_value v2
  extract_lets +onlyGivenNames v3
  have h3 : Kept s0 v3 := State.onCx_kept h_s
  clear_value v3
  exact State.ctxDone_kept h3

theorem State.runCtl_kept {s0 : State} {s x} (h_s : Kept s0 s) : Kept s0 (State.runCtl s x) := by
  unfold State.runCtl
  extract_lets +onlyGivenNames v0
  clear_value v0
  extract_lets +onlyGivenNames v1
  clear_value v1
  split
  · extract_lets +onlyGivenNames v2
    clear_value v2
    extract_lets +onlyGivenNames v3
    clear_value v3
    split
    · extract_lets +onlyGivenNames v4
      clear_value v4
      extract_lets +onlyGivenNames v5
      clear_value v5
      extract_lets +onlyGivenNames v6
      clear_value v6
      extract_lets +onlyGivenNames v7
      clear_value v7
      extract_lets +onlyGivenNames v8
      clear_value v8
      extract_lets +onlyGivenNames v9
      have h9 : Kept s0 v9 := kept_ite (State.onCx_kept h_s) h_s
      clear_value v9
      extract_lets +onlyGivenNames v10
      have h10 : Kept s0 v10 := State.onCx_kept h9
      clear_value v10
      exact kept_ite (State.runOpen_kept h_s) (State.runController_kept h10)

theorem State.runFilter_kept {s0 : State} {s x} (h_s : Kept s0 s) : Kept s0 (State.runFilter s x) := by
  unfold State.runFilter
  extract_lets +onlyGivenNames v0
  clear_value v0
  extract_lets +onlyGivenNames v1
  clear_value v1
  extract_lets +onlyGivenNames v2
  clear_value v2
  split
  · split
    · split
      · extract_lets +onlyGivenNames v3
        have h3 : Kept s0 v3 := State.onCx_kept h_s
        clear_value v3
        exact State.ctxDone_kept (State.ctxSat_kept h3)

theorem State.runHeld_kept {s0 : State} {s x} (h_s : Kept s0 s) : Kept s0 (State.runHeld s x) := by
  unfold State.runHeld
  extract_lets +onlyGivenNames v0
  have h0 : Kept s0 v0 := kept_ite h_s (State.pfault_kept (State.event_kept (State.onCx_kept h_s)))
  clear_value v0
  exact State.onCx_kept h0

theorem State.select_kept {s0 : State} {s g} (h_s : Kept s0 s) : Kept s0 (State.select s g) := by
  unfold State.select
  extract_lets +onlyGivenNames v0
  clear_value v0
  extract_lets +onlyGivenNames v1
  clear_value v1
  extract_lets +onlyGivenNames v2
  clear_value v2
  split
  · exact h_s
  · extract_lets +onlyGivenNames v3
    clear_value v3
    extract_lets +onlyGivenNames v4
    clear_value v4
    extract_lets +onlyGivenNames v5
    clear_value v5
    extract_lets +onlyGivenNames v6
    clear_value v6
    extract_lets +onlyGivenNames v7
    clear_value v7
    extract_lets +onlyGivenNames v8
    have h8 : Kept s0 v8 := by
      unfold v8
      refine forL_kept ?_ h_s
      intro x11 t12 h13
      extract_lets +onlyGivenNames v14
      clear_value v14
      extract_lets +onlyGivenNames v15
      clear_value v15
      refine kept_ite (State.onCx_kept h13) ?_
      split
      · exact State.ctxSat_kept (State.onCx_kept h13)
    clear_value v8
    exact State.onCx_kept h8

theorem State.takeFresh_kept {s0 : State} {s x} (h_s : Kept s0 s) : Kept s0 (State.takeFresh s x) := by
  unfold State.takeFresh
  refine kept_ite h_s ?_
  split
  · extract_lets +onlyGivenNames v0
    clear_value v0
    exact State.ctxSat_kept (State.onCx_kept h_s)

theorem State.runCtx_kept {s0 : State} {s x} (h_s : Kept s0 s) : Kept s0 (State.runCtx s x) := by
  unfold State.runCtx
  extract_lets +onlyGivenNames v0
  clear_value v0
  extract_lets +onlyGivenNames v1
  have h1 : Kept s0 v1 := State.takeFresh_kept h_s
  clear_value v1
  extract_lets +onlyGivenNames v2
  have h2 : Kept s0 v2 := State.onCx_kept h1
  clear_value v2
  extract_lets +onlyGivenNames v3
  clear_value v3
  extract_lets +onlyGivenNames v4
  have h4 : Kept s0 v4 := kept_ite (State.runHeld_kept h2) (kept_ite (State.runFilter_kept h2) (State.runCtl_kept h2))
  clear_value v4
  refine kept_ite h_s ?_
  split
  · exact kept_ite (State.select_kept h4) h4
  · exact h4

theorem State.ctxBoundary_kept {s0 : State} {s} (h_s : Kept s0 s) : Kept s0 (State.ctxBoundary s) := by
  unfold State.ctxBoundary
  refine forN_kept ?_ h_s
  intro x1 t2 h3
  extract_lets +onlyGivenNames v4
  clear_value v4
  extract_lets +onlyGivenNames v5
  have h5 : Kept s0 v5 := State.onCx_kept h3
  clear_value v5
  extract_lets +onlyGivenNames v6
  have h6 : Kept s0 v6 := by
    unfold v6
    refine kept_ite ?_ h3
    split
    · exact kept_ite (State.putWord_kept h5) h5
    · exact h5
  clear_value v6
  exact kept_ite h3 (State.onCx_kept h6)

theorem State.clearLoop_kept {s0 : State} {s} (h_s : Kept s0 s) : Kept s0 (State.clearLoop s) := by
  unfold State.clearLoop
  refine forN_kept ?_ h_s
  intro x1 t2 h3
  extract_lets +onlyGivenNames v4
  have h4 : Kept s0 v4 := State.onCx_kept h3
  clear_value v4
  exact kept_ite h4 (State.onLv_kept h4)

theorem State.ctxStrike_kept {s0 : State} {s was changed} (h_s : Kept s0 s) : Kept s0 (State.ctxStrike s was changed) := by
  unfold State.ctxStrike
  refine forN_kept ?_ h_s
  intro x1 t2 h3
  extract_lets +onlyGivenNames v4
  have h4 : Kept s0 v4 := kept_ite h3 (State.onCx_kept h3)
  clear_value v4
  extract_lets +onlyGivenNames v5
  clear_value v5
  extract_lets +onlyGivenNames v6
  clear_value v6
  extract_lets +onlyGivenNames v7
  have h7 : Kept s0 v7 := kept_ite (State.onCx_kept h4) h4
  clear_value v7
  exact kept_ite (kept_ite (State.onCx_kept h3) h3) (kept_ite (State.onCx_kept h7) h7)

end Sys2Proof.Machine
end

