-- ==== Sys2Proof/Laws/KeptRope.lean ====
section
/-!
SUPPORT. What the operations of Machine/Rope.lean keep: one lemma each, from any state reached.
-/
namespace Sys2Proof.Machine

open Sys2Proof.Safety

theorem State.ropeSlack_kept {s0 : State} {s r} (h_s : Kept s0 s) : Kept s0 (State.ropeSlack s r) := by
  unfold State.ropeSlack
  extract_lets +onlyGivenNames v0
  clear_value v0
  extract_lets +onlyGivenNames v1
  clear_value v1
  extract_lets +onlyGivenNames v2
  clear_value v2
  extract_lets +onlyGivenNames v3
  have h3 : Kept s0 v3 := State.onRp_kept h_s
  clear_value v3
  extract_lets +onlyGivenNames v4
  have h4 : Kept s0 v4 := State.onRp_kept h_s
  clear_value v4
  exact kept_ite (kept_ite (State.raise_kept (State.pfault_kept (State.event_kept (State.onRp_kept h3)))) h3) (kept_ite (State.clearSrc_kept (State.onRp_kept h4)) h4)

theorem State.ropeSnatch_kept {s0 : State} {s r} (h_s : Kept s0 s) : Kept s0 (State.ropeSnatch s r) := by
  unfold State.ropeSnatch
  extract_lets +onlyGivenNames v0
  clear_value v0
  extract_lets +onlyGivenNames v1
  clear_value v1
  extract_lets +onlyGivenNames v2
  clear_value v2
  extract_lets +onlyGivenNames v3
  clear_value v3
  extract_lets +onlyGivenNames v4
  clear_value v4
  extract_lets +onlyGivenNames v5
  clear_value v5
  extract_lets +onlyGivenNames v6
  have h6 : Kept s0 v6 := State.onRp_kept h_s
  clear_value v6
  exact kept_ite (State.raisePulse_kept (State.event_kept (State.onRp_kept h6))) (State.onRp_kept h6)

theorem State.runRope_kept {s0 : State} {s a} (h_s : Kept s0 s) : Kept s0 (State.runRope s a) := by
  unfold State.runRope
  extract_lets +onlyGivenNames v0
  clear_value v0
  split
  · exact h_s
  · extract_lets +onlyGivenNames v1
    clear_value v1
    extract_lets +onlyGivenNames v2
    clear_value v2
    extract_lets +onlyGivenNames v3
    clear_value v3
    split
    · extract_lets +onlyGivenNames v4
      clear_value v4
      extract_lets +onlyGivenNames v5
      clear_value v5
      extract_lets +onlyGivenNames v6
      have h6 : Kept s0 v6 := State.setLv_kept (State.setLv_kept (State.setLv_kept h_s))
      clear_value v6
      extract_lets +onlyGivenNames v7
      have h7 : Kept s0 v7 := kept_ite (State.raise_kept h6) (State.clearSrc_kept h6)
      clear_value v7
      extract_lets +onlyGivenNames v8
      have h8 : Kept s0 v8 := State.onRp_kept h7
      clear_value v8
      extract_lets +onlyGivenNames v9
      clear_value v9
      extract_lets +onlyGivenNames v10
      clear_value v10
      extract_lets +onlyGivenNames v11
      have h11 : Kept s0 v11 := kept_ite h7 (State.onRp_kept h7)
      clear_value v11
      extract_lets +onlyGivenNames v12
      clear_value v12
      extract_lets +onlyGivenNames v13
      clear_value v13
      refine kept_ite (State.setLv_kept (State.setLv_kept h8)) ?_
      split
      · extract_lets +onlyGivenNames v14
        clear_value v14
        extract_lets +onlyGivenNames v15
        have h15 : Kept s0 v15 := State.onRp_kept h11
        clear_value v15
        extract_lets +onlyGivenNames v16
        have h16 : Kept s0 v16 := kept_ite (State.onRp_kept h15) (State.ropeSnatch_kept (State.ropeSlack_kept h15))
        clear_value v16
        extract_lets +onlyGivenNames v17
        have h17 : Kept s0 v17 := State.setLv_kept (State.setLv_kept h16)
        clear_value v17
        extract_lets +onlyGivenNames v18
        have h18 : Kept s0 v18 := State.setLv_kept h17
        clear_value v18
        exact State.setLv_kept (State.setLv_kept h18)

end Sys2Proof.Machine
end

