-- ==== Sys2Proof/Laws/KeptCommut.lean ====
section
/-!
SUPPORT. What the operations of Machine/Commut.lean keep: one lemma each, from any state reached.
-/
namespace Sys2Proof.Machine

open Sys2Proof.Safety

theorem State.declareLos_kept {s0 : State} {s a} (h_s : Kept s0 s) : Kept s0 (State.declareLos s a) := by
  unfold State.declareLos
  extract_lets +onlyGivenNames v0
  clear_value v0
  extract_lets +onlyGivenNames v1
  have h1 : Kept s0 v1 := State.onDr_kept (State.raisePulse_kept (State.event_kept h_s))
  clear_value v1
  extract_lets +onlyGivenNames v2
  clear_value v2
  extract_lets +onlyGivenNames v3
  clear_value v3
  exact kept_ite (State.onDr_kept h1) (kept_ite (kept_ite (State.pushReact_kept (State.stoNow_kept h1)) (kept_ite (State.pfault_kept (State.raise_kept h1)) (State.inc16_kept (State.onDr_kept h1)))) h1)

theorem State.restartDone_kept {s0 : State} {s a} (h_s : Kept s0 s) : Kept s0 (State.restartDone s a) := by
  unfold State.restartDone
  extract_lets +onlyGivenNames v0
  clear_value v0
  extract_lets +onlyGivenNames v1
  have h1 : Kept s0 v1 := State.onDr_kept h_s
  clear_value v1
  extract_lets +onlyGivenNames v2
  have h2 : Kept s0 v2 := State.stopT_kept (State.stopT_kept h1)
  clear_value v2
  exact kept_ite (State.clearSrc_kept (State.event_kept h2)) h2

theorem State.startCatch_kept {s0 : State} {s a attempt} (h_s : Kept s0 s) : Kept s0 (State.startCatch s a attempt) := by
  unfold State.startCatch
  extract_lets +onlyGivenNames v0
  clear_value v0
  extract_lets +onlyGivenNames v1
  have h1 : Kept s0 v1 := State.startT_kept (State.onDr_kept h_s)
  clear_value v1
  exact kept_ite (State.startT_kept h1) h1

theorem State.runStart_kept {s0 : State} {s a prevTh} (h_s : Kept s0 s) : Kept s0 (State.runStart s a prevTh) := by
  unfold State.runStart
  extract_lets +onlyGivenNames v0
  clear_value v0
  extract_lets +onlyGivenNames v1
  clear_value v1
  split
  · exact h_s
  · exact kept_ite (State.restartDone_kept h_s) h_s
  · exact kept_ite h_s (State.onDr_kept h_s)
  · extract_lets +onlyGivenNames v2
    clear_value v2
    extract_lets +onlyGivenNames v3
    clear_value v3
    extract_lets +onlyGivenNames v4
    have h4 : Kept s0 v4 := State.onDr_kept h_s
    clear_value v4
    exact kept_ite (State.onDr_kept h4) h4
  · extract_lets +onlyGivenNames v5
    clear_value v5
    extract_lets +onlyGivenNames v6
    clear_value v6
    extract_lets +onlyGivenNames v7
    have h7 : Kept s0 v7 := State.onDr_kept h_s
    clear_value v7
    exact kept_ite (State.restartDone_kept h7) h7

theorem State.runObserver_kept {s0 : State} {s a ia ib seedTh seedSpeed} (h_s : Kept s0 s) :
    Kept s0 (State.runObserver s a ia ib seedTh seedSpeed) := by
  unfold State.runObserver
  extract_lets +onlyGivenNames v0
  clear_value v0
  extract_lets +onlyGivenNames v1
  clear_value v1
  extract_lets +onlyGivenNames v2
  clear_value v2
  extract_lets +onlyGivenNames v3
  clear_value v3
  extract_lets +onlyGivenNames v4
  clear_value v4
  extract_lets +onlyGivenNames v5
  clear_value v5
  extract_lets +onlyGivenNames v6
  clear_value v6
  extract_lets +onlyGivenNames v7
  clear_value v7
  extract_lets +onlyGivenNames v8
  clear_value v8
  extract_lets +onlyGivenNames v9
  clear_value v9
  extract_lets +onlyGivenNames v10
  clear_value v10
  extract_lets +onlyGivenNames v11
  clear_value v11
  extract_lets +onlyGivenNames v12
  clear_value v12
  extract_lets +onlyGivenNames v13
  clear_value v13
  extract_lets +onlyGivenNames v14
  clear_value v14
  extract_lets +onlyGivenNames v15
  clear_value v15
  extract_lets +onlyGivenNames v16
  clear_value v16
  extract_lets +onlyGivenNames v17
  clear_value v17
  extract_lets +onlyGivenNames v18
  clear_value v18
  extract_lets +onlyGivenNames v19
  clear_value v19
  extract_lets +onlyGivenNames v20
  clear_value v20
  extract_lets +onlyGivenNames v21
  clear_value v21
  extract_lets +onlyGivenNames v22
  clear_value v22
  extract_lets +onlyGivenNames v23
  clear_value v23
  extract_lets +onlyGivenNames v24
  clear_value v24
  extract_lets +onlyGivenNames v25
  clear_value v25
  extract_lets +onlyGivenNames v26
  clear_value v26
  extract_lets +onlyGivenNames v27
  clear_value v27
  extract_lets +onlyGivenNames v28
  clear_value v28
  extract_lets +onlyGivenNames v29
  clear_value v29
  extract_lets +onlyGivenNames v30
  clear_value v30
  extract_lets +onlyGivenNames v31
  clear_value v31
  extract_lets +onlyGivenNames v32
  have h32 : Kept s0 v32 := State.setLv_kept (State.onDr_kept h_s)
  clear_value v32
  exact kept_ite (State.onDr_kept h_s) (kept_ite (State.declareLos_kept h32) h32)

theorem State.noVector_kept {s0 : State} {s a} (h_s : Kept s0 s) : Kept s0 (State.noVector s a) := by
  unfold State.noVector
  extract_lets +onlyGivenNames v0
  have h0 : Kept s0 v0 := State.onDr_kept h_s
  clear_value v0
  exact State.onLv_kept (State.onLv_kept h0)

theorem State.runFoc_kept {s0 : State} {s a rf valid ths ts} (h_s : Kept s0 s) :
    Kept s0 (State.runFoc s a rf valid ths ts) := by
  unfold State.runFoc
  extract_lets +onlyGivenNames v0
  clear_value v0
  extract_lets +onlyGivenNames v1
  clear_value v1
  extract_lets +onlyGivenNames v2
  clear_value v2
  extract_lets +onlyGivenNames v3
  clear_value v3
  extract_lets +onlyGivenNames v4
  clear_value v4
  extract_lets +onlyGivenNames v5
  clear_value v5
  extract_lets +onlyGivenNames v6
  clear_value v6
  extract_lets +onlyGivenNames v7
  clear_value v7
  extract_lets +onlyGivenNames v8
  clear_value v8
  extract_lets +onlyGivenNames v9
  clear_value v9
  extract_lets +onlyGivenNames v10
  clear_value v10
  extract_lets +onlyGivenNames v11
  clear_value v11
  extract_lets +onlyGivenNames v12
  clear_value v12
  extract_lets +onlyGivenNames v13
  clear_value v13
  extract_lets +onlyGivenNames v14
  clear_value v14
  extract_lets +onlyGivenNames v15
  clear_value v15
  extract_lets +onlyGivenNames v16
  clear_value v16
  extract_lets +onlyGivenNames v17
  clear_value v17
  extract_lets +onlyGivenNames v18
  clear_value v18
  split
  · extract_lets +onlyGivenNames v19
    clear_value v19
    extract_lets +onlyGivenNames v20
    clear_value v20
    extract_lets +onlyGivenNames v21
    clear_value v21
    extract_lets +onlyGivenNames v22
    clear_value v22
    extract_lets +onlyGivenNames v23
    clear_value v23
    extract_lets +onlyGivenNames v24
    clear_value v24
    extract_lets +onlyGivenNames v25
    clear_value v25
    extract_lets +onlyGivenNames v26
    clear_value v26
    extract_lets +onlyGivenNames v27
    clear_value v27
    extract_lets +onlyGivenNames v28
    clear_value v28
    extract_lets +onlyGivenNames v29
    have h29 : Kept s0 v29 := State.onDr_kept h_s
    clear_value v29
    extract_lets +onlyGivenNames v30
    clear_value v30
    extract_lets +onlyGivenNames v31
    clear_value v31
    extract_lets +onlyGivenNames v32
    have h32 : Kept s0 v32 := State.setLv_kept h29
    clear_value v32
    extract_lets +onlyGivenNames v33
    have h33 : Kept s0 v33 := kept_ite (State.inc32_kept h32) h32
    clear_value v33
    exact State.onLv_kept h33

theorem State.runSix_kept {s0 : State} {s a rf valid idc ths ts} (h_s : Kept s0 s) :
    Kept s0 (State.runSix s a rf valid idc ths ts) := by
  unfold State.runSix
  extract_lets +onlyGivenNames v0
  clear_value v0
  extract_lets +onlyGivenNames v1
  clear_value v1
  extract_lets +onlyGivenNames v2
  clear_value v2
  extract_lets +onlyGivenNames v3
  clear_value v3
  extract_lets +onlyGivenNames v4
  clear_value v4
  extract_lets +onlyGivenNames v5
  clear_value v5
  extract_lets +onlyGivenNames v6
  clear_value v6
  extract_lets +onlyGivenNames v7
  clear_value v7
  extract_lets +onlyGivenNames v8
  clear_value v8
  split
  · extract_lets +onlyGivenNames v9
    clear_value v9
    extract_lets +onlyGivenNames v10
    clear_value v10
    extract_lets +onlyGivenNames v11
    clear_value v11
    extract_lets +onlyGivenNames v12
    clear_value v12
    extract_lets +onlyGivenNames v13
    clear_value v13
    extract_lets +onlyGivenNames v14
    clear_value v14
    extract_lets +onlyGivenNames v15
    clear_value v15
    extract_lets +onlyGivenNames v16
    clear_value v16
    extract_lets +onlyGivenNames v17
    clear_value v17
    extract_lets +onlyGivenNames v18
    have h18 : Kept s0 v18 := State.onDr_kept h_s
    clear_value v18
    extract_lets +onlyGivenNames v19
    have h19 : Kept s0 v19 := kept_ite (State.inc32_kept h18) h18
    clear_value v19
    exact State.onLv_kept h19

theorem State.currentFaults_kept {s0 : State} {s a cur} (h_s : Kept s0 s) : Kept s0 (State.currentFaults s a cur) := by
  unfold State.currentFaults
  extract_lets +onlyGivenNames v0
  clear_value v0
  split
  · extract_lets +onlyGivenNames v1
    have h1 : Kept s0 v1 := State.onDr_kept h_s
    clear_value v1
    exact kept_ite (kept_ite h1 (State.pfault_kept (State.event_kept (State.raise_kept h1)))) h1
  · extract_lets +onlyGivenNames v2
    have h2 : Kept s0 v2 := State.clearSrc_kept (State.onDr_kept h_s)
    clear_value v2
    extract_lets +onlyGivenNames v3
    clear_value v3
    exact kept_ite (kept_ite h2 (State.pfault_kept (State.event_kept (State.raise_kept h2)))) (State.clearSrc_kept h2)

theorem State.runComm_kept {s0 : State} {s a} (h_s : Kept s0 s) : Kept s0 (State.runComm s a) := by
  unfold State.runComm
  extract_lets +onlyGivenNames v0
  clear_value v0
  extract_lets +onlyGivenNames v1
  clear_value v1
  extract_lets +onlyGivenNames v2
  clear_value v2
  extract_lets +onlyGivenNames v3
  have h3 : Kept s0 v3 := State.currentFaults_kept h_s
  clear_value v3
  extract_lets +onlyGivenNames v4
  clear_value v4
  extract_lets +onlyGivenNames v5
  clear_value v5
  extract_lets +onlyGivenNames v6
  clear_value v6
  refine kept_ite h_s ?_
  split
  · extract_lets +onlyGivenNames v7
    clear_value v7
    extract_lets +onlyGivenNames v8
    have h8 : Kept s0 v8 := kept_ite h3 (State.runObserver_kept h3)
    clear_value v8
    extract_lets +onlyGivenNames v9
    have h9 : Kept s0 v9 := kept_ite (State.runStart_kept h8) h8
    clear_value v9
    extract_lets +onlyGivenNames v10
    clear_value v10
    extract_lets +onlyGivenNames v11
    clear_value v11
    extract_lets +onlyGivenNames v12
    clear_value v12
    split
    · extract_lets +onlyGivenNames v13
      have h13 : Kept s0 v13 := State.onDr_kept h9
      clear_value v13
      extract_lets +onlyGivenNames v14
      have h14 : Kept s0 v14 := State.runRope_kept h13
      clear_value v14
      extract_lets +onlyGivenNames v15
      clear_value v15
      extract_lets +onlyGivenNames v16
      have h16 : Kept s0 v16 := State.onDr_kept h14
      clear_value v16
      extract_lets +onlyGivenNames v17
      clear_value v17
      extract_lets +onlyGivenNames v18
      have h18 : Kept s0 v18 := State.setLv_kept (State.setLv_kept (State.setLv_kept h16))
      clear_value v18
      extract_lets +onlyGivenNames v19
      have h19 : Kept s0 v19 := State.onLv_kept h18
      clear_value v19
      extract_lets +onlyGivenNames v20
      have h20 : Kept s0 v20 := State.setLv_kept h19
      clear_value v20
      extract_lets +onlyGivenNames v21
      clear_value v21
      exact kept_ite (State.noVector_kept h20) (kept_ite (State.runFoc_kept h20) (State.runSix_kept h20))

theorem State.repeatPattern_kept {s0 : State} {s a} (h_s : Kept s0 s) : Kept s0 (State.repeatPattern s a) := by
  unfold State.repeatPattern
  exact State.onDr_kept h_s

theorem State.startSwitching_kept {s0 : State} {s a} (h_s : Kept s0 s) : Kept s0 (State.startSwitching s a) := by
  unfold State.startSwitching
  extract_lets +onlyGivenNames v0
  have h0 : Kept s0 v0 := State.onDr_kept h_s
  clear_value v0
  exact kept_ite (State.startCatch_kept h0) h0

theorem execCatchTimeExpiry_kept {s0 : State} {axis s} (h_s : Kept s0 s) : Done s0 (execCatchTimeExpiry axis s) := by
  unfold execCatchTimeExpiry
  extract_lets +onlyGivenNames v0
  clear_value v0
  refine done_next ?_
  refine State.expire_kept h_s ?_
  intro t3 h4
  extract_lets +onlyGivenNames v5
  clear_value v5
  exact kept_ite h4 (kept_ite h4 (State.onDr_kept h4))

theorem execRestartTimeout_kept {s0 : State} {axis s} (h_s : Kept s0 s) : Done s0 (execRestartTimeout axis s) := by
  unfold execRestartTimeout
  extract_lets +onlyGivenNames v0
  clear_value v0
  exact done_next (State.expire_kept h_s (fun _ h1 => kept_ite (State.pfault_kept (State.raise_kept (State.onDr_kept h1))) h1))

end Sys2Proof.Machine
end

