-- ==== Sys2Proof/Laws/KeptMeasure.lean ====
section
/-!
SUPPORT. What the operations of Machine/Measure.lean keep: one lemma each, from any state reached.
-/
namespace Sys2Proof.Machine

open Sys2Proof.Safety

theorem State.latchHit_kept {s0 : State} {s a u tick pos} (h_s : Kept s0 s) : Kept s0 (State.latchHit s a u tick pos) := by
  unfold State.latchHit
  extract_lets +onlyGivenNames v0
  clear_value v0
  exact kept_ite (State.onLa_kept h_s) h_s

theorem State.latchEvent_kept {s0 : State} {s kind hits tick} (h_s : Kept s0 s) :
    Kept s0 (State.latchEvent s kind hits tick) := by
  unfold State.latchEvent
  refine forN_kept ?_ h_s
  intro x2 t3 h4
  refine forN_kept ?_ h4
  intro x6 t7 h8
  extract_lets +onlyGivenNames v9
  clear_value v9
  exact kept_ite (State.latchHit_kept h8) h8

theorem State.latchZ_kept {s0 : State} {s n tick rising} (h_s : Kept s0 s) : Kept s0 (State.latchZ s n tick rising) := by
  unfold State.latchZ
  refine forN_kept ?_ h_s
  intro x2 t3 h4
  refine forN_kept ?_ h4
  intro x6 t7 h8
  extract_lets +onlyGivenNames v9
  clear_value v9
  exact kept_ite (State.latchHit_kept h8) h8

theorem State.latchDiSeen_kept {s0 : State} {s i tick} (h_s : Kept s0 s) : Kept s0 (State.latchDiSeen s i tick) := by
  unfold State.latchDiSeen
  refine forN_kept ?_ h_s
  intro x2 t3 h4
  refine forN_kept ?_ h4
  intro x6 t7 h8
  extract_lets +onlyGivenNames v9
  clear_value v9
  exact kept_ite (State.onLa_kept h8) h8

theorem State.latchDi_kept {s0 : State} {s i tick rising} (h_s : Kept s0 s) : Kept s0 (State.latchDi s i tick rising) := by
  unfold State.latchDi
  refine forN_kept ?_ h_s
  intro x2 t3 h4
  refine forN_kept ?_ h4
  intro x6 t7 h8
  extract_lets +onlyGivenNames v9
  clear_value v9
  extract_lets +onlyGivenNames v10
  clear_value v10
  extract_lets +onlyGivenNames v11
  have h11 : Kept s0 v11 := State.onLa_kept h8
  clear_value v11
  refine kept_ite ?_ h8
  refine kept_ite ?_ h11
  split
  · exact State.latchHit_kept h11
  · exact State.latchHit_kept h11

theorem State.latchLate_kept {s0 : State} {s n stamp} (h_s : Kept s0 s) : Kept s0 (State.latchLate s n stamp) := by
  unfold State.latchLate
  exact forL_kept (fun _ _ h0 => forN_kept (fun _ _ h1 => State.onLa_kept h1) h0) h_s

theorem State.latchShow_kept {s0 : State} {s a u tick pos} (h_s : Kept s0 s) :
    Kept s0 (State.latchShow s a u tick pos) := by
  unfold State.latchShow
  extract_lets +onlyGivenNames v0
  clear_value v0
  extract_lets +onlyGivenNames v1
  have h1 : Kept s0 v1 := State.setPair_kept (State.setPair_kept h_s)
  clear_value v1
  extract_lets +onlyGivenNames v2
  have h2 : Kept s0 v2 := State.onLv_kept h1
  clear_value v2
  exact State.event_kept h2

theorem State.latchBoundary_kept {s0 : State} {s a} (h_s : Kept s0 s) : Kept s0 (State.latchBoundary s a) := by
  unfold State.latchBoundary
  refine forN_kept ?_ h_s
  intro x1 t2 h3
  extract_lets +onlyGivenNames v4
  clear_value v4
  extract_lets +onlyGivenNames v5
  clear_value v5
  extract_lets +onlyGivenNames v6
  clear_value v6
  extract_lets +onlyGivenNames v7
  have h7 : Kept s0 v7 := State.onLa_kept h3
  clear_value v7
  refine forL_kept ?_ h7
  intro x9 t10 h11
  extract_lets +onlyGivenNames v12
  clear_value v12
  extract_lets +onlyGivenNames v13
  clear_value v13
  exact State.latchShow_kept h11

theorem execLatchArm_kept {s0 : State} {axis unit v s} (h_s : Kept s0 s) : Done s0 (execLatchArm axis unit v s) := by
  unfold execLatchArm
  extract_lets +onlyGivenNames v0
  clear_value v0
  extract_lets +onlyGivenNames v1
  clear_value v1
  extract_lets +onlyGivenNames v2
  have h2 : Kept s0 v2 := State.setLv_kept h_s
  clear_value v2
  exact done_ite (done_next h_s) (done_ite (done_next (State.onLv_kept (State.onLa_kept h2))) (done_next (State.onLa_kept h2)))

theorem State.cmpFire_kept {s0 : State} {s a u tick} (h_s : Kept s0 s) : Kept s0 (State.cmpFire s a u tick) := by
  unfold State.cmpFire
  extract_lets +onlyGivenNames v0
  clear_value v0
  extract_lets +onlyGivenNames v1
  have h1 : Kept s0 v1 := State.onCm_kept h_s
  clear_value v1
  extract_lets +onlyGivenNames v2
  have h2 : Kept s0 v2 := State.onLv_kept h1
  clear_value v2
  extract_lets +onlyGivenNames v3
  have h3 : Kept s0 v3 := State.event_kept (State.setPair_kept h2)
  clear_value v3
  extract_lets +onlyGivenNames v4
  clear_value v4
  extract_lets +onlyGivenNames v5
  have h5 : Kept s0 v5 := kept_ite (State.startT_kept (State.onCm_kept h3)) h3
  clear_value v5
  exact State.latchEvent_kept h5

theorem State.cmpArm_kept {s0 : State} : ∀ {s : State} {n a u tick : Nat} {pos : Int} {valid : Bool}, Kept s0 s →
    Kept s0 (s.cmpArm n a u tick pos valid)
  | _, 0, _, _, _, _, _, h => h
  | s, n + 1, a, u, tick, pos, valid, h => by
    unfold State.cmpArm
    extract_lets +onlyGivenNames w
    extract_lets +onlyGivenNames t
    extract_lets +onlyGivenNames s1
    have h1 : Kept s0 s1 := State.onCm_kept h
    clear_value w t s1
    refine kept_ite ?_ h1
    refine kept_ite (State.onCm_kept h1) (kept_ite ?_ (State.event_kept (State.onLv_kept (State.onCm_kept h1))))
    have h2 := State.cmpFire_kept (a := a) (u := u) (tick := tick) h1
    exact kept_ite (State.cmpArm_kept (State.setPair_kept h2)) h2

theorem State.cmpMove_kept {s0 : State} {s a u tick before after valid} (h_s : Kept s0 s) :
    Kept s0 (State.cmpMove s a u tick before after valid) := by
  unfold State.cmpMove
  extract_lets +onlyGivenNames v0
  clear_value v0
  extract_lets +onlyGivenNames v1
  clear_value v1
  extract_lets +onlyGivenNames v2
  clear_value v2
  extract_lets +onlyGivenNames v3
  clear_value v3
  extract_lets +onlyGivenNames v4
  have h4 : Kept s0 v4 := State.cmpFire_kept h_s
  clear_value v4
  extract_lets +onlyGivenNames v5
  clear_value v5
  exact kept_ite h_s (kept_ite (kept_ite (State.onCm_kept h_s) (kept_ite (State.cmpArm_kept (State.setPair_kept h4)) h4)) (kept_ite (State.onCm_kept h_s) h_s))

theorem State.cmpActual_kept {s0 : State} {s a tick before after} (h_s : Kept s0 s) :
    Kept s0 (State.cmpActual s a tick before after) := by
  unfold State.cmpActual
  exact forN_kept (fun _ _ h0 => kept_ite (State.cmpMove_kept h0) h0) h_s

theorem State.cmpSetPoint_kept {s0 : State} {s a b1 len before after} (h_s : Kept s0 s) :
    Kept s0 (State.cmpSetPoint s a b1 len before after) := by
  unfold State.cmpSetPoint
  refine forN_kept ?_ h_s
  intro x1 t2 h3
  extract_lets +onlyGivenNames v4
  clear_value v4
  extract_lets +onlyGivenNames v5
  clear_value v5
  exact kept_ite h3 (State.cmpMove_kept h3)

theorem State.cmpValidAgain_kept {s0 : State} {s a} (h_s : Kept s0 s) : Kept s0 (State.cmpValidAgain s a) := by
  unfold State.cmpValidAgain
  exact forN_kept (fun _ _ h0 => kept_ite (State.cmpArm_kept h0) h0) h_s

theorem execCompareArm_kept {s0 : State} {axis unit v s} (h_s : Kept s0 s) : Done s0 (execCompareArm axis unit v s) := by
  unfold execCompareArm
  extract_lets +onlyGivenNames v0
  clear_value v0
  extract_lets +onlyGivenNames v1
  clear_value v1
  extract_lets +onlyGivenNames v2
  have h2 : Kept s0 v2 := State.setLv_kept h_s
  clear_value v2
  extract_lets +onlyGivenNames v3
  clear_value v3
  extract_lets +onlyGivenNames v4
  clear_value v4
  extract_lets +onlyGivenNames v5
  have h5 : Kept s0 v5 := State.onLv_kept h2
  clear_value v5
  exact done_ite (done_next h_s) (done_ite (done_next (State.cmpArm_kept h5)) (done_next (State.onCm_kept h2)))

theorem execComparePulseEnd_kept {s0 : State} {axis unit s} (h_s : Kept s0 s) :
    Done s0 (execComparePulseEnd axis unit s) := by
  unfold execComparePulseEnd
  exact done_next (State.expire_kept h_s (fun _ h0 => State.onCm_kept h0))

end Sys2Proof.Machine
end

