-- ==== Sys2Proof/Laws/KeptFeedback.lean ====
section
/-!
SUPPORT. What the operations of Machine/Feedback.lean keep: one lemma each, from any state reached.
-/
namespace Sys2Proof.Machine

open Sys2Proof.Safety

theorem State.fbSetRef_kept {s0 : State} {s n} (h_s : Kept s0 s) : Kept s0 (State.fbSetRef s n) := by
  unfold State.fbSetRef
  exact kept_ite h_s (State.event_kept (State.onFb_kept h_s))

theorem State.fbFault_kept {s0 : State} {s n bit} (h_s : Kept s0 s) : Kept s0 (State.fbFault s n bit) := by
  unfold State.fbFault
  extract_lets +onlyGivenNames v0
  have h0 : Kept s0 v0 := State.pfault_kept h_s
  clear_value v0
  extract_lets +onlyGivenNames v1
  have h1 : Kept s0 v1 := State.onFb_kept h0
  clear_value v1
  exact kept_ite (State.onset_kept (State.event_kept (State.inc16_kept h1))) h1

theorem State.fbStart_kept {s0 : State} {s n} (h_s : Kept s0 s) : Kept s0 (State.fbStart s n) := by
  unfold State.fbStart
  exact State.onFb_kept h_s

theorem State.fbEdge_kept {s0 : State} {s n stamp cnt} (h_s : Kept s0 s) : Kept s0 (State.fbEdge s n stamp cnt) := by
  unfold State.fbEdge
  extract_lets +onlyGivenNames v0
  clear_value v0
  exact State.onFb_kept h_s

theorem State.fbSetPos_kept {s0 : State} {s n p} (h_s : Kept s0 s) : Kept s0 (State.fbSetPos s n p) := by
  unfold State.fbSetPos
  exact State.onFb_kept h_s

theorem State.fbTooth_kept {s0 : State} {s n stamp} (h_s : Kept s0 s) : Kept s0 (State.fbTooth s n stamp) := by
  unfold State.fbTooth
  extract_lets +onlyGivenNames v0
  clear_value v0
  extract_lets +onlyGivenNames v1
  clear_value v1
  extract_lets +onlyGivenNames v2
  clear_value v2
  extract_lets +onlyGivenNames v3
  clear_value v3
  extract_lets +onlyGivenNames v4
  extract_lets +onlyGivenNames v5
  clear_value v5
  extract_lets +onlyGivenNames v6
  clear_value v6
  extract_lets +onlyGivenNames v7
  clear_value v7
  extract_lets +onlyGivenNames v8
  have h8 : Kept s0 v8 := kept_ite h_s (State.fbEdge_kept h_s)
  clear_value v8
  extract_lets +onlyGivenNames v9
  have h9 : Kept s0 v9 := State.onFb_kept h8
  clear_value v9
  extract_lets +onlyGivenNames v10
  clear_value v10
  extract_lets +onlyGivenNames v11
  have h11 : Kept s0 v11 := State.onFb_kept h9
  clear_value v11
  extract_lets +onlyGivenNames v12
  have h12 : Kept s0 v12 := kept_ite h11 (State.fbSetRef_kept (State.fbSetPos_kept h11))
  clear_value v12
  refine kept_ite h9 ?_
  split
  · exact h12
  · exact kept_ite (State.onFb_kept h12) (State.fbFault_kept h12)

theorem State.fbIndex_kept {s0 : State} {s n} (h_s : Kept s0 s) : Kept s0 (State.fbIndex s n) := by
  unfold State.fbIndex
  extract_lets +onlyGivenNames v0
  clear_value v0
  extract_lets +onlyGivenNames v1
  clear_value v1
  extract_lets +onlyGivenNames v2
  clear_value v2
  extract_lets +onlyGivenNames v3
  have h3 : Kept s0 v3 := State.event_kept (State.setPair_kept h_s)
  clear_value v3
  extract_lets +onlyGivenNames v4
  clear_value v4
  extract_lets +onlyGivenNames v5
  have h5 : Kept s0 v5 := State.onFb_kept h3
  clear_value v5
  extract_lets +onlyGivenNames v6
  have h6 : Kept s0 v6 := kept_ite (State.fbSetRef_kept (State.fbSetPos_kept h5)) h5
  clear_value v6
  refine kept_ite h_s ?_
  split
  · exact h6
  · extract_lets +onlyGivenNames v7
    clear_value v7
    extract_lets +onlyGivenNames v8
    have h8 : Kept s0 v8 := State.setLv_kept h6
    clear_value v8
    exact kept_ite h6 (kept_ite (State.fbFault_kept h8) (State.onFb_kept h8))

theorem State.hallFirst_kept {s0 : State} {s n} (h_s : Kept s0 s) : Kept s0 (State.hallFirst s n) := by
  unfold State.hallFirst
  extract_lets +onlyGivenNames v0
  clear_value v0
  extract_lets +onlyGivenNames v1
  clear_value v1
  extract_lets +onlyGivenNames v2
  clear_value v2
  exact kept_ite (State.fbSetRef_kept (State.fbSetPos_kept h_s)) h_s

theorem State.fbForm_kept {s0 : State} {s n} (h_s : Kept s0 s) : Kept s0 (State.fbForm s n) := by
  unfold State.fbForm
  extract_lets +onlyGivenNames v0
  clear_value v0
  extract_lets +onlyGivenNames v1
  clear_value v1
  extract_lets +onlyGivenNames v2
  clear_value v2
  extract_lets +onlyGivenNames v3
  clear_value v3
  extract_lets +onlyGivenNames v4
  clear_value v4
  extract_lets +onlyGivenNames v5
  clear_value v5
  extract_lets +onlyGivenNames v6
  clear_value v6
  extract_lets +onlyGivenNames v7
  clear_value v7
  extract_lets +onlyGivenNames v8
  clear_value v8
  refine kept_ite (State.onFb_kept h_s) ?_
  split
  · exact State.onFb_kept h_s

theorem State.fbBoundary_kept {s0 : State} {s n} (h_s : Kept s0 s) : Kept s0 (State.fbBoundary s n) := by
  unfold State.fbBoundary
  extract_lets +onlyGivenNames v0
  clear_value v0
  extract_lets +onlyGivenNames v1
  clear_value v1
  extract_lets +onlyGivenNames v2
  clear_value v2
  extract_lets +onlyGivenNames v3
  clear_value v3
  extract_lets +onlyGivenNames v4
  clear_value v4
  extract_lets +onlyGivenNames v5
  have h5 : Kept s0 v5 := State.onFb_kept h_s
  clear_value v5
  extract_lets +onlyGivenNames v6
  have h6 : Kept s0 v6 := kept_ite (State.event_kept (State.fbSetRef_kept (kept_ite (State.onFb_kept h5) (State.fbSetPos_kept h5)))) h_s
  clear_value v6
  extract_lets +onlyGivenNames v7
  clear_value v7
  extract_lets +onlyGivenNames v8
  clear_value v8
  extract_lets +onlyGivenNames v9
  have h9 : Kept s0 v9 := State.onFb_kept h6
  clear_value v9
  extract_lets +onlyGivenNames v10
  have h10 : Kept s0 v10 := kept_ite (State.fbForm_kept (State.onFb_kept h9)) h9
  clear_value v10
  extract_lets +onlyGivenNames v11
  have h11 : Kept s0 v11 := kept_ite (State.event_kept (State.onFb_kept h10)) h10
  clear_value v11
  extract_lets +onlyGivenNames v12
  have h12 : Kept s0 v12 := State.onFb_kept h11
  clear_value v12
  exact kept_ite h_s (kept_ite (forL_kept (fun _ _ h13 => kept_ite (State.clearSrc_kept h13) h13) h12) (State.onFb_kept h11))

theorem State.fbResample_kept {s0 : State} {s n stamp} (h_s : Kept s0 s) : Kept s0 (State.fbResample s n stamp) := by
  unfold State.fbResample
  extract_lets +onlyGivenNames v0
  clear_value v0
  extract_lets +onlyGivenNames v1
  have h1 : Kept s0 v1 := State.onFb_kept h_s
  clear_value v1
  exact kept_ite (State.fbForm_kept h1) h_s

theorem execFbEdgeAccepted_kept {s0 : State} {fb stamp zba s} (h_s : Kept s0 s) :
    Done s0 (execFbEdgeAccepted fb stamp zba s) := by
  unfold execFbEdgeAccepted
  extract_lets +onlyGivenNames v0
  clear_value v0
  extract_lets +onlyGivenNames v1
  clear_value v1
  extract_lets +onlyGivenNames v2
  have h2 : Kept s0 v2 := State.reach_kept h_s
  clear_value v2
  extract_lets +onlyGivenNames v3
  clear_value v3
  extract_lets +onlyGivenNames v4
  clear_value v4
  extract_lets +onlyGivenNames v5
  clear_value v5
  extract_lets +onlyGivenNames v6
  have h6 : Kept s0 v6 := State.onFb_kept h2
  clear_value v6
  extract_lets +onlyGivenNames v7
  have h7 : Kept s0 v7 := by
    unfold v7
    refine kept_ite (kept_ite (State.fbTooth_kept h6) h6) ?_
    split
    · exact State.fbFault_kept h6
    · exact h6
    · extract_lets +onlyGivenNames v8
      have h8 : Kept s0 v8 := State.fbEdge_kept h6
      clear_value v8
      exact kept_ite (State.onFb_kept h8) h8
  clear_value v7
  extract_lets +onlyGivenNames v9
  have h9 : Kept s0 v9 := State.latchLate_kept h7
  clear_value v9
  extract_lets +onlyGivenNames v10
  clear_value v10
  extract_lets +onlyGivenNames v11
  have h11 : Kept s0 v11 := State.hallFirst_kept h9
  clear_value v11
  extract_lets +onlyGivenNames v12
  clear_value v12
  extract_lets +onlyGivenNames v13
  have h13 : Kept s0 v13 := kept_ite (State.fbIndex_kept h11) h11
  clear_value v13
  extract_lets +onlyGivenNames v14
  have h14 : Kept s0 v14 := forL_kept (fun _ _ h15 => kept_ite h15 (State.cmpActual_kept h15)) h13
  clear_value v14
  extract_lets +onlyGivenNames v16
  have h16 : Kept s0 v16 := kept_ite (State.latchZ_kept h14) h14
  clear_value v16
  extract_lets +onlyGivenNames v17
  have h17 : Kept s0 v17 := State.fbResample_kept h16
  clear_value v17
  refine done_ite (done_next (State.onFb_kept h_s)) ?_
  refine done_next ?_
  refine forN_kept ?_ h17
  intro x22 t23 h24
  refine kept_ite ?_ h24
  exact Kept.plain h24 rfl rfl rfl rfl rfl rfl rfl (by simp [unitCounts])

theorem execFbStandstill_kept {s0 : State} {fb s} (h_s : Kept s0 s) : Done s0 (execFbStandstill fb s) := by
  unfold execFbStandstill
  extract_lets +onlyGivenNames v0
  clear_value v0
  extract_lets +onlyGivenNames v1
  clear_value v1
  split
  · exact done_ite (done_next (State.event_kept (State.onFb_kept h_s))) (done_next h_s)
  · exact done_next h_s

theorem execFbLineFault_kept {s0 : State} {fb s} (h_s : Kept s0 s) : Done s0 (execFbLineFault fb s) := by
  unfold execFbLineFault
  extract_lets +onlyGivenNames v0
  clear_value v0
  extract_lets +onlyGivenNames v1
  clear_value v1
  extract_lets +onlyGivenNames v2
  clear_value v2
  exact done_ite (done_next (State.fbFault_kept (State.onFb_kept h_s))) (done_next h_s)

theorem execFbReacquire_kept {s0 : State} {fb s} (h_s : Kept s0 s) : Done s0 (execFbReacquire fb s) := by
  unfold execFbReacquire
  extract_lets +onlyGivenNames v0
  clear_value v0
  extract_lets +onlyGivenNames v1
  clear_value v1
  extract_lets +onlyGivenNames v2
  clear_value v2
  extract_lets +onlyGivenNames v3
  clear_value v3
  extract_lets +onlyGivenNames v4
  clear_value v4
  extract_lets +onlyGivenNames v5
  clear_value v5
  extract_lets +onlyGivenNames v6
  have h6 : Kept s0 v6 := kept_ite (State.reach_kept h_s) h_s
  clear_value v6
  extract_lets +onlyGivenNames v7
  have h7 : Kept s0 v7 := State.onFb_kept h6
  clear_value v7
  extract_lets +onlyGivenNames v8
  have h8 : Kept s0 v8 := State.hallFirst_kept h7
  clear_value v8
  exact done_ite (done_next h_s) (done_ite (done_next h_s) (done_ite (done_next (State.onFb_kept h8)) (done_next (State.backInService_kept (State.event_kept (State.onFb_kept h8))))))

theorem execAbsAcquisitionStart_kept {s0 : State} {fb idle s} (h_s : Kept s0 s) :
    Done s0 (execAbsAcquisitionStart fb idle s) := by
  unfold execAbsAcquisitionStart
  extract_lets +onlyGivenNames v0
  clear_value v0
  extract_lets +onlyGivenNames v1
  clear_value v1
  extract_lets +onlyGivenNames v2
  clear_value v2
  extract_lets +onlyGivenNames v3
  clear_value v3
  extract_lets +onlyGivenNames v4
  have h4 : Kept s0 v4 := State.reach_kept h_s
  clear_value v4
  exact done_ite (done_next h_s) (done_ite (done_next (State.onFb_kept h4)) (done_next (State.fbFault_kept h4)))

theorem State.fbWord_kept {s0 : State} {s n w} (h_s : Kept s0 s) : Kept s0 (State.fbWord s n w) := by
  unfold State.fbWord
  extract_lets +onlyGivenNames v0
  clear_value v0
  extract_lets +onlyGivenNames v1
  clear_value v1
  extract_lets +onlyGivenNames v2
  clear_value v2
  extract_lets +onlyGivenNames v3
  clear_value v3
  extract_lets +onlyGivenNames v4
  clear_value v4
  extract_lets +onlyGivenNames v5
  have h5 : Kept s0 v5 := State.onFb_kept h_s
  clear_value v5
  exact State.fbSetRef_kept h5

theorem State.traceAbs_kept {s0 : State} {s n conds w} (h_s : Kept s0 s) : Kept s0 (State.traceAbs s n conds w) := by
  unfold State.traceAbs
  exact State.traceKind_kept h_s

theorem execAbsAcquisitionDone_kept {s0 : State} {fb r s} (h_s : Kept s0 s) : Done s0 (execAbsAcquisitionDone fb r s) := by
  unfold execAbsAcquisitionDone
  extract_lets +onlyGivenNames v0
  clear_value v0
  extract_lets +onlyGivenNames v1
  clear_value v1
  extract_lets +onlyGivenNames v2
  clear_value v2
  split
  · exact done_next h_s
  · extract_lets +onlyGivenNames v3
    clear_value v3
    extract_lets +onlyGivenNames v4
    have h4 : Kept s0 v4 := State.reach_kept h_s
    clear_value v4
    extract_lets +onlyGivenNames v5
    clear_value v5
    extract_lets +onlyGivenNames v6
    clear_value v6
    extract_lets +onlyGivenNames v7
    have h7 : Kept s0 v7 := State.onFb_kept h4
    clear_value v7
    extract_lets +onlyGivenNames v8
    have h8 : Kept s0 v8 := State.setLv_kept (State.setLv_kept h7)
    clear_value v8
    extract_lets +onlyGivenNames v9
    have h9 : Kept s0 v9 := kept_ite h8 (State.setLv_kept h8)
    clear_value v9
    extract_lets +onlyGivenNames v10
    have h10 : Kept s0 v10 := kept_ite h9 (State.traceAbs_kept h9)
    clear_value v10
    extract_lets +onlyGivenNames v11
    clear_value v11
    extract_lets +onlyGivenNames v12
    clear_value v12
    extract_lets +onlyGivenNames v13
    clear_value v13
    extract_lets +onlyGivenNames v14
    clear_value v14
    extract_lets +onlyGivenNames v15
    have h15 : ∀ t0, Kept s0 t0 → Kept s0 (v15 t0) := by
      unfold v15
      intro t16 h17
      exact forL_kept (fun _ _ h18 => kept_ite (State.cmpActual_kept h18) h18) h17
    clear_value v15
    extract_lets +onlyGivenNames v19
    have h19 : Kept s0 v19 := State.traceAbs_kept h10
    clear_value v19
    refine done_ite (done_next h_s) ?_
    refine done_ite (done_next (State.traceAbs_kept (State.fbFault_kept h10))) ?_
    refine done_ite (done_next (State.traceAbs_kept (State.fbFault_kept h10))) ?_
    refine done_ite (done_next (State.fbFault_kept h10)) ?_
    refine done_ite ?_ (done_ite (done_next (State.fbFault_kept h19)) (done_next (h15 _ (State.fbWord_kept h19))))
    split
    · exact done_ite (done_next (h15 _ (State.fbWord_kept (State.onFb_kept h19)))) (done_next (State.onFb_kept h19))
    · exact done_next (State.onFb_kept h19)

theorem execAbsTimeoutExpiry_kept {s0 : State} {fb s} (h_s : Kept s0 s) : Done s0 (execAbsTimeoutExpiry fb s) := by
  unfold execAbsTimeoutExpiry
  extract_lets +onlyGivenNames v0
  clear_value v0
  extract_lets +onlyGivenNames v1
  clear_value v1
  extract_lets +onlyGivenNames v2
  clear_value v2
  exact done_ite (done_next h_s) (done_ite (done_next (State.traceAbs_kept (State.fbFault_kept (State.onFb_kept (State.reach_kept h_s))))) (done_ite (done_next (State.traceAbs_kept (State.fbFault_kept (State.onFb_kept (State.reach_kept h_s))))) (done_next h_s)))

theorem State.loadCmd_kept {s0 : State} {s m n v} (h_s : Kept s0 s) : Kept s0 (State.loadCmd s m n v) := by
  unfold State.loadCmd
  extract_lets +onlyGivenNames v0
  clear_value v0
  extract_lets +onlyGivenNames v1
  clear_value v1
  extract_lets +onlyGivenNames v2
  clear_value v2
  exact kept_ite h_s (kept_ite (State.refuseBy_kept h_s) (State.onFb_kept h_s))

theorem execPosLoad_kept {s0 : State} {fb v s} (h_s : Kept s0 s) : Done s0 (execPosLoad fb v s) := by
  unfold execPosLoad
  exact done_ite (done_next (State.loadCmd_kept (State.touch_kept h_s))) (done_next h_s)

theorem State.repBoundary_kept {s0 : State} {s r} (h_s : Kept s0 s) : Kept s0 (State.repBoundary s r) := by
  unfold State.repBoundary
  extract_lets +onlyGivenNames v0
  clear_value v0
  extract_lets +onlyGivenNames v1
  clear_value v1
  extract_lets +onlyGivenNames v2
  clear_value v2
  extract_lets +onlyGivenNames v3
  have h3 : ∀ x0, Kept s0 (v3 x0) := by
    unfold v3
    intro x4
    exact Kept.plain h_s rfl rfl rfl rfl rfl rfl rfl (by simp [unitCounts])
  clear_value v3
  split
  · exact kept_ite (h3 _) (h3 _)
  · exact kept_ite (h3 _) (h3 _)
  · exact h3 _

theorem execRepeaterTransition_kept {s0 : State} {r s} (h_s : Kept s0 s) : Done s0 (execRepeaterTransition r s) := by
  unfold execRepeaterTransition
  extract_lets +onlyGivenNames v0
  clear_value v0
  extract_lets +onlyGivenNames v1
  clear_value v1
  extract_lets +onlyGivenNames v2
  have h2 : Kept s0 v2 := State.reach_kept h_s
  clear_value v2
  extract_lets +onlyGivenNames v3
  clear_value v3
  extract_lets +onlyGivenNames v4
  clear_value v4
  refine done_ite (done_next h_s) ?_
  refine done_next ?_
  exact Kept.plain h2 rfl rfl rfl rfl rfl rfl rfl (by simp [unitCounts])

theorem State.repStart_kept {s0 : State} {s r} (h_s : Kept s0 s) : Kept s0 (State.repStart s r) := by
  unfold State.repStart
  extract_lets +onlyGivenNames v0
  clear_value v0
  exact Kept.plain h_s rfl rfl rfl rfl rfl rfl rfl (by simp [unitCounts])

end Sys2Proof.Machine
end

