-- ==== Sys2Proof/Laws/KeptMotion.lean ====
section
/-!
SUPPORT. What the operations of Machine/Motion.lean keep: one lemma each, from any state reached.
-/
namespace Sys2Proof.Machine

open Sys2Proof.Safety

theorem State.motResult_kept {s0 : State} {s a code res} (h_s : Kept s0 s) : Kept s0 (State.motResult s a code res) := by
  unfold State.motResult
  exact State.setLv_kept h_s

theorem State.motCmd_kept {s0 : State} {s m a code} (h_s : Kept s0 s) : Kept s0 (State.motCmd s m a code) := by
  unfold State.motCmd
  extract_lets +onlyGivenNames v0
  clear_value v0
  split
  · exact State.motResult_kept (State.refuseBy_kept h_s)
  · exact State.onMt_kept h_s

theorem State.hostMot_kept {s0 : State} {s a code} (h_s : Kept s0 s) : Kept s0 (State.hostMot s a code) := by
  unfold State.hostMot
  exact kept_ite (State.motCmd_kept (State.touch_kept h_s)) h_s

theorem execMoveAbs_kept {s0 : State} {axis s} (h_s : Kept s0 s) : Done s0 (execMoveAbs axis s) := by
  unfold execMoveAbs
  exact done_next (State.hostMot_kept h_s)

theorem execMoveRel_kept {s0 : State} {axis s} (h_s : Kept s0 s) : Done s0 (execMoveRel axis s) := by
  unfold execMoveRel
  exact done_next (State.hostMot_kept h_s)

theorem execJog_kept {s0 : State} {axis s} (h_s : Kept s0 s) : Done s0 (execJog axis s) := by
  unfold execJog
  exact done_next (State.hostMot_kept h_s)

theorem execMotStop_kept {s0 : State} {axis s} (h_s : Kept s0 s) : Done s0 (execMotStop axis s) := by
  unfold execMotStop
  exact done_next (State.hostMot_kept h_s)

theorem execGearEngage_kept {s0 : State} {axis s} (h_s : Kept s0 s) : Done s0 (execGearEngage axis s) := by
  unfold execGearEngage
  exact done_next (State.hostMot_kept h_s)

theorem execGearArm_kept {s0 : State} {axis s} (h_s : Kept s0 s) : Done s0 (execGearArm axis s) := by
  unfold execGearArm
  exact done_next (State.hostMot_kept h_s)

theorem execGearDisengage_kept {s0 : State} {axis s} (h_s : Kept s0 s) : Done s0 (execGearDisengage axis s) := by
  unfold execGearDisengage
  exact done_next (State.hostMot_kept h_s)

theorem execSwitchCancel_kept {s0 : State} {axis s} (h_s : Kept s0 s) : Done s0 (execSwitchCancel axis s) := by
  unfold execSwitchCancel
  exact done_next (State.hostMot_kept h_s)

theorem State.startMove_kept {s0 : State} {s a target} (h_s : Kept s0 s) : Kept s0 (State.startMove s a target) := by
  unfold State.startMove
  exact State.onMt_kept h_s

theorem State.armSwitch_kept {s0 : State} {s a m} (h_s : Kept s0 s) : Kept s0 (State.armSwitch s a m) := by
  unfold State.armSwitch
  extract_lets +onlyGivenNames v0
  clear_value v0
  extract_lets +onlyGivenNames v1
  clear_value v1
  extract_lets +onlyGivenNames v2
  clear_value v2
  extract_lets +onlyGivenNames v3
  clear_value v3
  extract_lets +onlyGivenNames v4
  clear_value v4
  extract_lets +onlyGivenNames v5
  have h5 : Kept s0 v5 := State.onMt_kept h_s
  clear_value v5
  exact kept_ite (State.event_kept h5) h5

theorem State.gearSwitch_kept {s0 : State} {s a mx} (h_s : Kept s0 s) : Kept s0 (State.gearSwitch s a mx) := by
  unfold State.gearSwitch
  exact State.event_kept (State.onMt_kept h_s)

theorem State.takeMot_kept {s0 : State} {s a mx} (h_s : Kept s0 s) : Kept s0 (State.takeMot s a mx) := by
  unfold State.takeMot
  split
  · exact h_s
  · extract_lets +onlyGivenNames v0
    have h0 : Kept s0 v0 := State.onMt_kept h_s
    clear_value v0
    split
    · exact State.motResult_kept (State.refuse_kept h0)
    · extract_lets +onlyGivenNames v1
      have h1 : Kept s0 v1 := State.onMt_kept (State.motResult_kept h0)
      clear_value v1
      extract_lets +onlyGivenNames v2
      clear_value v2
      extract_lets +onlyGivenNames v3
      clear_value v3
      split
      · exact State.startMove_kept h1
      · exact State.startMove_kept h1
      · exact State.onMt_kept h1
      · exact State.onMt_kept h1
      · exact State.onMt_kept h1
      · exact State.armSwitch_kept h1
      · exact State.onMt_kept h1
      · exact State.onMt_kept h1

theorem State.moveStep_kept {s0 : State} {s a h} (h_s : Kept s0 s) : Kept s0 (State.moveStep s a h) := by
  unfold State.moveStep
  extract_lets +onlyGivenNames v0
  clear_value v0
  extract_lets +onlyGivenNames v1
  clear_value v1
  extract_lets +onlyGivenNames v2
  clear_value v2
  extract_lets +onlyGivenNames v3
  clear_value v3
  extract_lets +onlyGivenNames v4
  clear_value v4
  extract_lets +onlyGivenNames v5
  clear_value v5
  extract_lets +onlyGivenNames v6
  clear_value v6
  extract_lets +onlyGivenNames v7
  clear_value v7
  extract_lets +onlyGivenNames v8
  clear_value v8
  extract_lets +onlyGivenNames v9
  clear_value v9
  refine kept_ite (State.onMt_kept h_s) ?_
  split
  · extract_lets +onlyGivenNames v10
    clear_value v10
    extract_lets +onlyGivenNames v11
    clear_value v11
    extract_lets +onlyGivenNames v12
    clear_value v12
    exact State.onMt_kept h_s

theorem State.trackAxis_kept {s0 : State} {s a goal ac de jerk h} (h_s : Kept s0 s) :
    Kept s0 (State.trackAxis s a goal ac de jerk h) := by
  unfold State.trackAxis
  extract_lets +onlyGivenNames v0
  clear_value v0
  extract_lets +onlyGivenNames v1
  clear_value v1
  refine kept_ite (State.onMt_kept h_s) ?_
  split
  · extract_lets +onlyGivenNames v2
    clear_value v2
    exact State.onMt_kept h_s

theorem State.gearStep_kept {s0 : State} {s a} (h_s : Kept s0 s) : Kept s0 (State.gearStep s a) := by
  unfold State.gearStep
  split
  · extract_lets +onlyGivenNames v0
    clear_value v0
    extract_lets +onlyGivenNames v1
    clear_value v1
    extract_lets +onlyGivenNames v2
    have h2 : Kept s0 v2 := State.setLv_kept (State.onMt_kept h_s)
    clear_value v2
    extract_lets +onlyGivenNames v3
    have h3 : Kept s0 v3 := kept_ite (kept_ite (State.event_kept h2) h2) h_s
    clear_value v3
    extract_lets +onlyGivenNames v4
    clear_value v4
    extract_lets +onlyGivenNames v5
    have h5 : Kept s0 v5 := State.onMt_kept h3
    clear_value v5
    extract_lets +onlyGivenNames v6
    clear_value v6
    extract_lets +onlyGivenNames v7
    clear_value v7
    extract_lets +onlyGivenNames v8
    clear_value v8
    extract_lets +onlyGivenNames v9
    have h9 : Kept s0 v9 := State.takeMot_kept h5
    clear_value v9
    extract_lets +onlyGivenNames v10
    have h10 : Kept s0 v10 := kept_ite (State.gearSwitch_kept h9) h9
    clear_value v10
    extract_lets +onlyGivenNames v11
    have h11 : Kept s0 v11 := State.onMt_kept h10
    clear_value v11
    extract_lets +onlyGivenNames v12
    clear_value v12
    exact kept_ite (State.onMt_kept h11) h11

theorem State.profileStep_kept {s0 : State} {s a h} (h_s : Kept s0 s) : Kept s0 (State.profileStep s a h) := by
  unfold State.profileStep
  extract_lets +onlyGivenNames v0
  clear_value v0
  extract_lets +onlyGivenNames v1
  clear_value v1
  split
  · exact State.moveStep_kept h_s
  · exact State.trackAxis_kept h_s
  · extract_lets +onlyGivenNames v2
    have h2 : Kept s0 v2 := State.trackAxis_kept h_s
    clear_value v2
    exact State.onMt_kept h2
  · extract_lets +onlyGivenNames v3
    have h3 : Kept s0 v3 := State.trackAxis_kept h_s
    clear_value v3
    exact State.onMt_kept h3
  · exact State.onMt_kept h_s

theorem State.quickStop_kept {s0 : State} {s a} (h_s : Kept s0 s) : Kept s0 (State.quickStop s a) := by
  unfold State.quickStop
  exact State.onMt_kept h_s

theorem State.axisPass_kept {s0 : State} {s a h} (h_s : Kept s0 s) : Kept s0 (State.axisPass s a h) := by
  unfold State.axisPass
  extract_lets +onlyGivenNames v0
  clear_value v0
  extract_lets +onlyGivenNames v1
  clear_value v1
  extract_lets +onlyGivenNames v2
  have h2 : Kept s0 v2 := State.onMt_kept h_s
  clear_value v2
  extract_lets +onlyGivenNames v3
  have h3 : Kept s0 v3 := State.gearStep_kept h2
  clear_value v3
  extract_lets +onlyGivenNames v4
  have h4 : Kept s0 v4 := State.takeMot_kept h2
  clear_value v4
  exact kept_ite (State.takeMot_kept h2) (kept_ite (kept_ite h3 (State.profileStep_kept h3)) (kept_ite (State.profileStep_kept h4) (kept_ite (State.profileStep_kept (State.quickStop_kept h4)) (State.onMt_kept h4))))

theorem State.groupPass_kept {s0 : State} {s g h} (h_s : Kept s0 s) : Kept s0 (State.groupPass s g h) := by
  unfold State.groupPass
  extract_lets +onlyGivenNames v0
  clear_value v0
  extract_lets +onlyGivenNames v1
  clear_value v1
  extract_lets +onlyGivenNames v2
  clear_value v2
  extract_lets +onlyGivenNames v3
  clear_value v3
  extract_lets +onlyGivenNames v4
  clear_value v4
  extract_lets +onlyGivenNames v5
  clear_value v5
  extract_lets +onlyGivenNames v6
  clear_value v6
  extract_lets +onlyGivenNames v7
  clear_value v7
  extract_lets +onlyGivenNames v8
  clear_value v8
  extract_lets +onlyGivenNames v9
  clear_value v9
  refine kept_ite h_s ?_
  split
  · extract_lets +onlyGivenNames v10
    clear_value v10
    extract_lets +onlyGivenNames v11
    clear_value v11
    extract_lets +onlyGivenNames v12
    have h12 : ∀ t0, Kept s0 t0 → Kept s0 (v12 t0) := by
      unfold v12
      intro t13 h14
      split
      · exact forL_kept (fun _ _ h15 => State.onMt_kept h15) h14
      · refine forL_kept ?_ h14
        intro x17 t18 h19
        split
        · exact State.onMt_kept h19
    clear_value v12
    extract_lets +onlyGivenNames v20
    have h20 : Kept s0 v20 := kept_ite (h12 _ h_s) (forL_kept (fun _ _ h21 => State.onMt_kept h21) h_s)
    clear_value v20
    exact State.onGr_kept h20

theorem State.qstatus_kept {s0 : State} {s g res} (h_s : Kept s0 s) : Kept s0 (State.qstatus s g res) := by
  unfold State.qstatus
  exact State.onLv_kept h_s

theorem State.pushBy_kept {s0 : State} {s m g} (h_s : Kept s0 s) : Kept s0 (State.pushBy s m g) := by
  unfold State.pushBy
  split
  · exact State.qstatus_kept (State.event_kept (State.refuseBy_kept h_s))
  · extract_lets +onlyGivenNames v0
    clear_value v0
    exact State.qstatus_kept (State.onGr_kept h_s)

theorem State.flushBy_kept {s0 : State} {s g} (h_s : Kept s0 s) : Kept s0 (State.flushBy s g) := by
  unfold State.flushBy
  exact State.onGr_kept h_s

theorem execPush_kept {s0 : State} {g s} (h_s : Kept s0 s) : Done s0 (execPush g s) := by
  unfold execPush
  exact done_ite (done_next (State.pushBy_kept (State.touch_kept h_s))) (done_next h_s)

theorem execFlush_kept {s0 : State} {g s} (h_s : Kept s0 s) : Done s0 (execFlush g s) := by
  unfold execFlush
  exact done_ite (done_next (State.flushBy_kept (State.touch_kept h_s))) (done_next h_s)

theorem execProfilePass_kept {s0 : State} {s} (h_s : Kept s0 s) : Done s0 (execProfilePass s) := by
  unfold execProfilePass
  extract_lets +onlyGivenNames v0
  clear_value v0
  extract_lets +onlyGivenNames v1
  have h1 : Kept s0 v1 := State.onTime_kept (State.reach_kept h_s)
  clear_value v1
  extract_lets +onlyGivenNames v2
  clear_value v2
  extract_lets +onlyGivenNames v3
  have h3 : Kept s0 v3 := forN_kept (fun _ _ h4 => State.groupPass_kept h4) h1
  clear_value v3
  extract_lets +onlyGivenNames v5
  have h5 : Kept s0 v5 := forN_kept (fun _ _ h6 => forN_kept (fun _ _ h7 => kept_ite (State.axisPass_kept h7) h7) h6) h3
  clear_value v5
  extract_lets +onlyGivenNames v8
  clear_value v8
  refine done_ite (done_next h_s) ?_
  refine done_next ?_
  refine forN_kept ?_ h5
  intro x13 t14 h15
  extract_lets +onlyGivenNames v16
  clear_value v16
  exact kept_ite h15 (State.cmpSetPoint_kept h15)

theorem State.stepBoundary_kept {s0 : State} {s a p q} (h_s : Kept s0 s) : Kept s0 (State.stepBoundary s a p q) := by
  unfold State.stepBoundary
  extract_lets +onlyGivenNames v0
  clear_value v0
  exact kept_ite h_s (State.onMt_kept h_s)

theorem execStepPulse_kept {s0 : State} {axis s} (h_s : Kept s0 s) : Done s0 (execStepPulse axis s) := by
  unfold execStepPulse
  extract_lets +onlyGivenNames v0
  clear_value v0
  extract_lets +onlyGivenNames v1
  clear_value v1
  split
  · exact done_next h_s
  · extract_lets +onlyGivenNames v2
    clear_value v2
    extract_lets +onlyGivenNames v3
    have h3 : Kept s0 v3 := State.onMt_kept (State.reach_kept h_s)
    clear_value v3
    exact done_ite (done_next h_s) (done_ite (done_next (State.onMt_kept (State.reach_kept h_s))) (done_next (kept_ite (State.cmpActual_kept h3) h3)))

theorem State.devBoundary_kept {s0 : State} {s a} (h_s : Kept s0 s) : Kept s0 (State.devBoundary s a) := by
  unfold State.devBoundary
  extract_lets +onlyGivenNames v0
  clear_value v0
  extract_lets +onlyGivenNames v1
  clear_value v1
  extract_lets +onlyGivenNames v2
  clear_value v2
  extract_lets +onlyGivenNames v3
  clear_value v3
  extract_lets +onlyGivenNames v4
  have h4 : Kept s0 v4 := State.setLv_kept h_s
  clear_value v4
  extract_lets +onlyGivenNames v5
  have h5 : Kept s0 v5 := State.onAx_kept h4
  clear_value v5
  exact kept_ite (State.clearSrc_kept (State.onAx_kept h4)) (kept_ite h4 (kept_ite (kept_ite (State.raiseNow_kept (State.pfault_kept h5)) h5) (State.clearSrc_kept (State.onAx_kept h4))))

theorem State.motBoundary_kept {s0 : State} {s a was} (h_s : Kept s0 s) : Kept s0 (State.motBoundary s a was) := by
  unfold State.motBoundary
  extract_lets +onlyGivenNames v0
  clear_value v0
  extract_lets +onlyGivenNames v1
  clear_value v1
  extract_lets +onlyGivenNames v2
  clear_value v2
  extract_lets +onlyGivenNames v3
  have h3 : Kept s0 v3 := State.onMt_kept h_s
  clear_value v3
  extract_lets +onlyGivenNames v4
  have h4 : Kept s0 v4 := kept_ite (State.event_kept h3) h3
  clear_value v4
  extract_lets +onlyGivenNames v5
  clear_value v5
  extract_lets +onlyGivenNames v6
  have h6 : Kept s0 v6 := kept_ite (State.stepBoundary_kept h4) (State.onMt_kept h_s)
  clear_value v6
  extract_lets +onlyGivenNames v7
  clear_value v7
  extract_lets +onlyGivenNames v8
  have h8 : Kept s0 v8 := kept_ite (State.cmpActual_kept h6) h6
  clear_value v8
  extract_lets +onlyGivenNames v9
  have h9 : Kept s0 v9 := State.onMt_kept h8
  clear_value v9
  exact State.devBoundary_kept (State.latchBoundary_kept (State.cmpValidAgain_kept h9))

theorem State.groupBoundary_kept {s0 : State} {s g} (h_s : Kept s0 s) : Kept s0 (State.groupBoundary s g) := by
  unfold State.groupBoundary
  extract_lets +onlyGivenNames v0
  clear_value v0
  extract_lets +onlyGivenNames v1
  have h1 : Kept s0 v1 := State.event_kept h_s
  clear_value v1
  extract_lets +onlyGivenNames v2
  have h2 : Kept s0 v2 := kept_ite h1 (State.onLv_kept h1)
  clear_value v2
  exact State.onGr_kept h2

theorem State.masterLost_kept {s0 : State} {s n} (h_s : Kept s0 s) : Kept s0 (State.masterLost s n) := by
  unfold State.masterLost
  refine forN_kept ?_ h_s
  intro x1 t2 h3
  extract_lets +onlyGivenNames v4
  clear_value v4
  exact kept_ite (State.pfault_kept (State.event_kept (State.quickStop_kept h3))) h3

end Sys2Proof.Machine
end

