-- ==== Sys2Proof/Laws/KeptPwm.lean ====
section
/-!
SUPPORT. What the operations of Machine/Pwm.lean keep: one lemma each, from any state reached.
-/
namespace Sys2Proof.Machine

open Sys2Proof.Safety

theorem State.legPeriod_kept {s0 : State} {s l start i n p} (h_s : Kept s0 s) :
    Kept s0 (State.legPeriod s l start i n p) := by
  unfold State.legPeriod
  extract_lets +onlyGivenNames v0
  clear_value v0
  extract_lets +onlyGivenNames v1
  clear_value v1
  extract_lets +onlyGivenNames v2
  clear_value v2
  extract_lets +onlyGivenNames v3
  clear_value v3
  extract_lets +onlyGivenNames v4
  clear_value v4
  extract_lets +onlyGivenNames v5
  clear_value v5
  extract_lets +onlyGivenNames v6
  clear_value v6
  extract_lets +onlyGivenNames v7
  clear_value v7
  extract_lets +onlyGivenNames v8
  clear_value v8
  split
  · extract_lets +onlyGivenNames v9
    clear_value v9
    extract_lets +onlyGivenNames v10
    clear_value v10
    extract_lets +onlyGivenNames v11
    clear_value v11
    extract_lets +onlyGivenNames v12
    clear_value v12
    extract_lets +onlyGivenNames v13
    clear_value v13
    split
    · exact State.onLg_kept h_s
    · extract_lets +onlyGivenNames v14
      clear_value v14
      extract_lets +onlyGivenNames v15
      clear_value v15
      extract_lets +onlyGivenNames v16
      clear_value v16
      extract_lets +onlyGivenNames v17
      clear_value v17
      extract_lets +onlyGivenNames v18
      clear_value v18
      extract_lets +onlyGivenNames v19
      clear_value v19
      extract_lets +onlyGivenNames v20
      clear_value v20
      extract_lets +onlyGivenNames v21
      clear_value v21
      extract_lets +onlyGivenNames v22
      clear_value v22
      split
      · extract_lets +onlyGivenNames v23
        have h23 : Kept s0 v23 := State.onLg_kept h_s
        clear_value v23
        exact kept_ite (State.event_kept h23) h23

theorem execPwmSnapshot_kept {s0 : State} {leg s} (h_s : Kept s0 s) : Done s0 (execPwmSnapshot leg s) := by
  unfold execPwmSnapshot
  extract_lets +onlyGivenNames v0
  clear_value v0
  extract_lets +onlyGivenNames v1
  have h1 : Kept s0 v1 := State.reach_kept h_s
  clear_value v1
  exact done_ite (done_next h_s) (done_next (State.onLg_kept h1))

theorem State.takeShadow_kept {s0 : State} {s l} (h_s : Kept s0 s) : Kept s0 (State.takeShadow s l) := by
  unfold State.takeShadow
  extract_lets +onlyGivenNames v0
  clear_value v0
  extract_lets +onlyGivenNames v1
  clear_value v1
  split
  · extract_lets +onlyGivenNames v2
    clear_value v2
    extract_lets +onlyGivenNames v3
    clear_value v3
    extract_lets +onlyGivenNames v4
    clear_value v4
    extract_lets +onlyGivenNames v5
    have h5 : Kept s0 v5 := by
      unfold v5
      split
      · exact State.onLg_kept h_s
      · exact kept_ite (State.onLg_kept h_s) (State.onLg_kept h_s)
    clear_value v5
    extract_lets +onlyGivenNames v6
    have h6 : Kept s0 v6 := kept_ite h5 (State.onLg_kept h5)
    clear_value v6
    extract_lets +onlyGivenNames v7
    have h7 : Kept s0 v7 := by
      unfold v7
      refine kept_ite ?_ h6
      refine kept_ite ?_ (State.onLg_kept h6)
      split
      · exact State.onLg_kept (State.refuseBy_kept h6)
      · exact h6
    clear_value v7
    extract_lets +onlyGivenNames v8
    have h8 : Kept s0 v8 := kept_ite (State.onLv_kept h7) h7
    clear_value v8
    exact State.onLg_kept h8

theorem State.withNew_kept {s0 : State} {s l f} (h_s : Kept s0 s) (h_f : ∀ t0, Kept s0 t0 → Kept s0 (f t0)) :
    Kept s0 (State.withNew s l f) := by
  unfold State.withNew
  extract_lets +onlyGivenNames v0
  clear_value v0
  exact State.onLg_kept (h_f _ (State.onLg_kept h_s))

theorem execPwmReload_kept {s0 : State} {leg s} (h_s : Kept s0 s) : Done s0 (execPwmReload leg s) := by
  unfold execPwmReload
  extract_lets +onlyGivenNames v0
  clear_value v0
  extract_lets +onlyGivenNames v2
  clear_value v2
  extract_lets +onlyGivenNames v4
  have h4 : Kept s0 v4 := State.onLg_kept (State.reach_kept h_s)
  clear_value v4
  extract_lets +onlyGivenNames v6
  have h6 : Kept s0 v6 := State.takeShadow_kept h4
  clear_value v6
  extract_lets +onlyGivenNames v8
  clear_value v8
  extract_lets +onlyGivenNames v10
  clear_value v10
  extract_lets +onlyGivenNames v12
  clear_value v12
  extract_lets +onlyGivenNames v14
  clear_value v14
  extract_lets +onlyGivenNames v16
  clear_value v16
  extract_lets +onlyGivenNames v18
  clear_value v18
  extract_lets +onlyGivenNames v20
  have h20 : Kept s0 v20 := State.legPeriod_kept h6
  clear_value v20
  extract_lets +onlyGivenNames v22
  clear_value v22
  extract_lets +onlyGivenNames v24
  have h24 : Kept s0 v24 := State.onLg_kept h20
  clear_value v24
  exact done_ite (done_next h_s) (done_ite (done_next (State.withNew_kept (State.reach_kept h_s) (fun _ h25 => State.takeShadow_kept h25))) (done_ite (done_next h_s) (done_ite (done_next (State.onLg_kept (State.legOff_kept h6))) (done_next (kept_ite h24 (State.onLg_kept h24))))))

theorem State.legCommit_kept {s0 : State} {s l} (h_s : Kept s0 s) : Kept s0 (State.legCommit s l) := by
  unfold State.legCommit
  extract_lets +onlyGivenNames v0
  clear_value v0
  refine kept_ite h_s ?_
  refine State.withNew_kept h_s ?_
  intro t4 h5
  extract_lets +onlyGivenNames v6
  clear_value v6
  extract_lets +onlyGivenNames v7
  clear_value v7
  extract_lets +onlyGivenNames v8
  clear_value v8
  exact forN_kept (fun _ _ h9 => State.legPeriod_kept h9) h5

theorem State.legBoundary_kept {s0 : State} {s l} (h_s : Kept s0 s) : Kept s0 (State.legBoundary s l) := by
  unfold State.legBoundary
  extract_lets +onlyGivenNames v0
  clear_value v0
  extract_lets +onlyGivenNames v1
  have h1 : Kept s0 v1 := State.onLg_kept h_s
  clear_value v1
  extract_lets +onlyGivenNames v2
  have h2 : Kept s0 v2 := kept_ite (State.onLg_kept h1) h1
  clear_value v2
  extract_lets +onlyGivenNames v3
  clear_value v3
  extract_lets +onlyGivenNames v4
  clear_value v4
  extract_lets +onlyGivenNames v5
  have h5 : Kept s0 v5 := kept_ite (kept_ite (State.onLg_kept h2) h2) (kept_ite h2 (State.onLg_kept (State.legOff_kept h2)))
  clear_value v5
  extract_lets +onlyGivenNames v6
  clear_value v6
  extract_lets +onlyGivenNames v7
  have h7 : Kept s0 v7 := kept_ite (State.backInService_kept (State.backInService_kept (State.onLg_kept h5))) h5
  clear_value v7
  exact kept_ite (State.onLg_kept h7) h7

theorem State.legEnter_kept {s0 : State} {s l} (h_s : Kept s0 s) : Kept s0 (State.legEnter s l) := by
  unfold State.legEnter
  exact State.onLg_kept h_s

theorem State.turnOn_kept {s0 : State} {s l high} (h_s : Kept s0 s) : Kept s0 (State.turnOn s l high) := by
  unfold State.turnOn
  extract_lets +onlyGivenNames v0
  clear_value v0
  extract_lets +onlyGivenNames v1
  have h1 : Kept s0 v1 := State.onLg_kept h_s
  clear_value v1
  extract_lets +onlyGivenNames v2
  clear_value v2
  extract_lets +onlyGivenNames v3
  have h3 : Kept s0 v3 := kept_ite (kept_ite (State.backInService_kept (State.onLg_kept h1)) h1) h_s
  clear_value v3
  extract_lets +onlyGivenNames v4
  have h4 : Kept s0 v4 := State.onLg_kept h3
  clear_value v4
  exact kept_ite (State.onLg_kept h4) h4

theorem State.legEdge_kept {s0 : State} {s l rise t} (h_s : Kept s0 s) : Kept s0 (State.legEdge s l rise t) := by
  unfold State.legEdge
  exact kept_ite h_s (kept_ite (kept_ite (State.turnOn_kept h_s) (kept_ite h_s (State.onLg_kept h_s))) (State.onLg_kept h_s))

theorem execExternalLegEdge_kept {s0 : State} {leg rise s} (h_s : Kept s0 s) :
    Done s0 (execExternalLegEdge leg rise s) := by
  unfold execExternalLegEdge
  extract_lets +onlyGivenNames v0
  clear_value v0
  split
  · exact done_ite (done_next (State.legEdge_kept (State.onLg_kept (State.reach_kept h_s)))) (done_next h_s)
  · exact done_next h_s

theorem State.endDead_kept {s0 : State} {s l rise t on hard} (h_s : Kept s0 s) :
    Kept s0 (State.endDead s l rise t on hard) := by
  unfold State.endDead
  extract_lets +onlyGivenNames v0
  have h0 : Kept s0 v0 := State.onLg_kept (State.reach_kept h_s)
  clear_value v0
  exact State.turnOn_kept h0

theorem execNodeCrossing_kept {s0 : State} {leg ns s} (h_s : Kept s0 s) : Done s0 (execNodeCrossing leg ns s) := by
  unfold execNodeCrossing
  extract_lets +onlyGivenNames v0
  clear_value v0
  extract_lets +onlyGivenNames v1
  clear_value v1
  split
  · exact done_next h_s
  · extract_lets +onlyGivenNames v2
    clear_value v2
    extract_lets +onlyGivenNames v3
    clear_value v3
    extract_lets +onlyGivenNames v4
    clear_value v4
    exact done_ite (done_next h_s) (done_ite (done_next (State.endDead_kept h_s)) (done_next (State.onLg_kept (State.reach_kept h_s))))

theorem execDeadtimeExpiry_kept {s0 : State} {leg s} (h_s : Kept s0 s) : Done s0 (execDeadtimeExpiry leg s) := by
  unfold execDeadtimeExpiry
  extract_lets +onlyGivenNames v0
  clear_value v0
  extract_lets +onlyGivenNames v1
  clear_value v1
  split
  · exact done_next h_s
  · extract_lets +onlyGivenNames v2
    clear_value v2
    exact done_ite (done_next h_s) (done_next (State.endDead_kept h_s))

theorem State.lateWrite_kept {s0 : State} {s l} (h_s : Kept s0 s) : Kept s0 (State.lateWrite s l) := by
  unfold State.lateWrite
  exact kept_ite (State.event_kept (State.inc16_kept h_s)) h_s

theorem State.dutyWrite_kept {s0 : State} {s l v} (h_s : Kept s0 s) : Kept s0 (State.dutyWrite s l v) := by
  unfold State.dutyWrite
  exact kept_ite h_s (State.setLv_kept (State.lateWrite_kept h_s))

theorem State.periodWrite_kept {s0 : State} {s m l v} (h_s : Kept s0 s) : Kept s0 (State.periodWrite s m l v) := by
  unfold State.periodWrite
  exact kept_ite h_s (State.onLg_kept (State.setLv_kept (State.lateWrite_kept h_s)))

theorem State.crossCommand_kept {s0 : State} {s l} (h_s : Kept s0 s) : Kept s0 (State.crossCommand s l) := by
  unfold State.crossCommand
  extract_lets +onlyGivenNames v0
  have h0 : Kept s0 v0 := State.onLg_kept h_s
  clear_value v0
  extract_lets +onlyGivenNames v1
  clear_value v1
  extract_lets +onlyGivenNames v2
  have h2 : Kept s0 v2 := State.inc16_kept (State.pfault_kept (State.event_kept h0))
  clear_value v2
  extract_lets +onlyGivenNames v3
  clear_value v3
  refine kept_ite ?_ (State.onset_kept (State.raisePulse_kept (State.pfault_kept (State.event_kept h0))))
  refine State.onset_kept ?_
  split
  · exact State.raisePulse_kept h2
  · exact State.raisePulse_kept h2

theorem State.driveOverride_kept {s0 : State} {s l v} (h_s : Kept s0 s) : Kept s0 (State.driveOverride s l v) := by
  unfold State.driveOverride
  extract_lets +onlyGivenNames v0
  clear_value v0
  extract_lets +onlyGivenNames v1
  clear_value v1
  extract_lets +onlyGivenNames v2
  have h2 : Kept s0 v2 := State.onLg_kept h_s
  clear_value v2
  exact kept_ite (State.crossCommand_kept h_s) (kept_ite h2 (kept_ite (State.turnOn_kept h2) (kept_ite (State.turnOn_kept h2) h2)))

theorem State.pwmCtrlWrite_kept {s0 : State} {s m l v} (h_s : Kept s0 s) : Kept s0 (State.pwmCtrlWrite s m l v) := by
  unfold State.pwmCtrlWrite
  extract_lets +onlyGivenNames v0
  clear_value v0
  extract_lets +onlyGivenNames v1
  clear_value v1
  extract_lets +onlyGivenNames v2
  have h2 : Kept s0 v2 := State.lateWrite_kept h_s
  clear_value v2
  extract_lets +onlyGivenNames v3
  have h3 : Kept s0 v3 := kept_ite (State.onLg_kept h2) h2
  clear_value v3
  extract_lets +onlyGivenNames v4
  have h4 : Kept s0 v4 := State.setLv_kept h3
  clear_value v4
  exact kept_ite (State.refuseBy_kept h_s) (kept_ite (State.driveOverride_kept h4) (kept_ite (State.onLg_kept (State.legOff_kept h4)) h4))

theorem execPwmDutyWrite_kept {s0 : State} {leg v s} (h_s : Kept s0 s) : Done s0 (execPwmDutyWrite leg v s) := by
  unfold execPwmDutyWrite
  exact done_ite (done_next (State.dutyWrite_kept (State.touch_kept h_s))) (done_next h_s)

theorem execPwmPeriodWrite_kept {s0 : State} {leg v s} (h_s : Kept s0 s) : Done s0 (execPwmPeriodWrite leg v s) := by
  unfold execPwmPeriodWrite
  exact done_ite (done_next (State.periodWrite_kept (State.touch_kept h_s))) (done_next h_s)

theorem execPwmUpdateControl_kept {s0 : State} {leg v s} (h_s : Kept s0 s) : Done s0 (execPwmUpdateControl leg v s) := by
  unfold execPwmUpdateControl
  extract_lets +onlyGivenNames v0
  clear_value v0
  exact done_ite (done_next (State.pwmCtrlWrite_kept (State.touch_kept h_s))) (done_next h_s)

theorem execPwmOverride_kept {s0 : State} {leg v s} (h_s : Kept s0 s) : Done s0 (execPwmOverride leg v s) := by
  unfold execPwmOverride
  exact done_ite (done_next (State.pwmCtrlWrite_kept (State.touch_kept h_s))) (done_next h_s)

end Sys2Proof.Machine
end

