-- ==== Sys2Proof/Laws/KeptAxes.lean ====
section
/-!
SUPPORT. What the operations of Machine/Axes.lean keep: one lemma each, from any state reached.
-/
namespace Sys2Proof.Machine

open Sys2Proof.Safety

theorem State.enterReady_kept {s0 : State} {s a} (h_s : Kept s0 s) : Kept s0 (State.enterReady s a) := by
  unfold State.enterReady
  extract_lets +onlyGivenNames v0
  clear_value v0
  extract_lets +onlyGivenNames v1
  have h1 : Kept s0 v1 := State.onAx_kept h_s
  clear_value v1
  extract_lets +onlyGivenNames v2
  have h2 : Kept s0 v2 := State.onDr_kept h1
  clear_value v2
  extract_lets +onlyGivenNames v3
  have h3 : Kept s0 v3 := State.startT_kept h2
  clear_value v3
  exact kept_ite h2 (kept_ite (State.startT_kept h3) h3)

theorem State.axResult_kept {s0 : State} {s a code res} (h_s : Kept s0 s) : Kept s0 (State.axResult s a code res) := by
  unfold State.axResult
  exact State.setLv_kept h_s

theorem State.axEffect_kept {s0 : State} {s a code} (h_s : Kept s0 s) : Kept s0 (State.axEffect s a code) := by
  unfold State.axEffect
  split
  · exact State.enterReady_kept h_s
  · exact State.onAx_kept h_s
  · exact State.onAx_kept h_s
  · exact State.onAx_kept (State.stopT_kept (State.stopT_kept h_s))
  · exact State.onAx_kept h_s

theorem State.axisCmd_kept {s0 : State} {s m a code} (h_s : Kept s0 s) : Kept s0 (State.axisCmd s m a code) := by
  unfold State.axisCmd
  split
  · exact State.axResult_kept (State.refuseBy_kept h_s)
  · exact State.axResult_kept (State.axEffect_kept h_s)

theorem State.hostAxis_kept {s0 : State} {s a code} (h_s : Kept s0 s) : Kept s0 (State.hostAxis s a code) := by
  unfold State.hostAxis
  exact kept_ite (State.axisCmd_kept (State.touch_kept h_s)) h_s

theorem execAxisEnable_kept {s0 : State} {axis s} (h_s : Kept s0 s) : Done s0 (execAxisEnable axis s) := by
  unfold execAxisEnable
  exact done_next (State.hostAxis_kept h_s)

theorem execAxisRun_kept {s0 : State} {axis s} (h_s : Kept s0 s) : Done s0 (execAxisRun axis s) := by
  unfold execAxisRun
  exact done_next (State.hostAxis_kept h_s)

theorem execAxisStop_kept {s0 : State} {axis s} (h_s : Kept s0 s) : Done s0 (execAxisStop axis s) := by
  unfold execAxisStop
  exact done_next (State.hostAxis_kept h_s)

theorem execAxisDisable_kept {s0 : State} {axis s} (h_s : Kept s0 s) : Done s0 (execAxisDisable axis s) := by
  unfold execAxisDisable
  exact done_next (State.hostAxis_kept h_s)

theorem execAxisClear_kept {s0 : State} {axis s} (h_s : Kept s0 s) : Done s0 (execAxisClear axis s) := by
  unfold execAxisClear
  exact done_next (State.hostAxis_kept h_s)

theorem State.adcFault_kept {s0 : State} {s ch} (h_s : Kept s0 s) : Kept s0 (State.adcFault s ch) := by
  unfold State.adcFault
  exact State.onset_kept (State.pfault_kept h_s)

theorem State.adcBack_kept {s0 : State} {s ch} (h_s : Kept s0 s) : Kept s0 (State.adcBack s ch) := by
  unfold State.adcBack
  exact kept_ite (State.backInService_kept h_s) h_s

theorem State.adcTake_kept {s0 : State} {s ch x} (h_s : Kept s0 s) : Kept s0 (State.adcTake s ch x) := by
  unfold State.adcTake
  extract_lets +onlyGivenNames v0
  have h0 : Kept s0 v0 := State.setLv_kept h_s
  clear_value v0
  extract_lets +onlyGivenNames v1
  clear_value v1
  exact Kept.plain h0 rfl rfl rfl rfl rfl rfl rfl rfl

theorem State.offsetSample_kept {s0 : State} {s ch code stamp} (h_s : Kept s0 s) :
    Kept s0 (State.offsetSample s ch code stamp) := by
  unfold State.offsetSample
  split
  · exact h_s
  · exact kept_ite (kept_ite (State.onDr_kept h_s) (State.onDr_kept h_s)) (State.onDr_kept h_s)

theorem execAdcConversionDone_kept {s0 : State} {ch code kind stamp s} (h_s : Kept s0 s) :
    Done s0 (execAdcConversionDone ch code kind stamp s) := by
  unfold execAdcConversionDone
  extract_lets +onlyGivenNames v0
  clear_value v0
  extract_lets +onlyGivenNames v1
  have h1 : Kept s0 v1 := State.reach_kept h_s
  clear_value v1
  extract_lets +onlyGivenNames v2
  clear_value v2
  refine done_ite (done_next h_s) ?_
  split
  · exact done_ite (done_next h1) (done_ite (done_next (kept_ite h1 (State.adcFault_kept h1))) (done_next (State.adcBack_kept h1)))
  · extract_lets +onlyGivenNames v3
    have h3 : Kept s0 v3 := State.adcTake_kept h1
    clear_value v3
    extract_lets +onlyGivenNames v4
    have h4 : Kept s0 v4 := by
      unfold v4
      refine kept_ite ?_ h3
      split
      · exact State.onDr_kept h3
      · exact h3
    clear_value v4
    exact done_next (kept_ite (State.adcBack_kept h4) h4)
  · extract_lets +onlyGivenNames v5
    have h5 : Kept s0 v5 := State.adcTake_kept h1
    clear_value v5
    refine done_next ?_
    refine kept_ite ?_ h5
    split
    · exact State.onDr_kept h5
    · exact h5
  · exact done_next (State.offsetSample_kept (State.adcTake_kept h1))

theorem execSdStreamStall_kept {s0 : State} {ch s} (h_s : Kept s0 s) : Done s0 (execSdStreamStall ch s) := by
  unfold execSdStreamStall
  extract_lets +onlyGivenNames v0
  clear_value v0
  exact done_ite (done_next h_s) (done_next (State.adcFault_kept h_s))

theorem State.offsetRange_kept {s0 : State} {s ch m} (h_s : Kept s0 s) : Kept s0 (State.offsetRange s ch m) := by
  unfold State.offsetRange
  exact kept_ite (State.adcFault_kept h_s) h_s

theorem State.captureDone_kept {s0 : State} {s a} (h_s : Kept s0 s) : Kept s0 (State.captureDone s a) := by
  unfold State.captureDone
  refine State.expire_kept h_s ?_
  intro t1 h2
  extract_lets +onlyGivenNames v3
  clear_value v3
  extract_lets +onlyGivenNames v4
  have h4 : Kept s0 v4 := State.onAx_kept h2
  clear_value v4
  extract_lets +onlyGivenNames v5
  have h5 : Kept s0 v5 := State.onDr_kept h4
  clear_value v5
  extract_lets +onlyGivenNames v6
  have h6 : ∀ t0 x1 x2 x3 x4, Kept s0 t0 → Kept s0 (v6 t0 x1 x2 x3 x4) := by
    unfold v6
    intro t7 x8 x9 x10 x11 h12
    exact kept_ite h12 (State.offsetRange_kept (State.setLv_kept h12))
  clear_value v6
  refine kept_ite h2 ?_
  split
  · exact h6 _ _ _ _ _ h5
  · exact h6 _ _ _ _ _ (h6 _ _ _ _ _ h5)
  · exact h5

theorem State.judgeOffset_kept {s0 : State} {s a k ch m} (h_s : Kept s0 s) : Kept s0 (State.judgeOffset s a k ch m) := by
  unfold State.judgeOffset
  extract_lets +onlyGivenNames v0
  clear_value v0
  extract_lets +onlyGivenNames v1
  have h1 : Kept s0 v1 := State.offsetRange_kept h_s
  clear_value v1
  exact kept_ite (State.onDr_kept h1) (State.raisePulse_kept (State.pfault_kept (State.event_kept h1)))

theorem execBurnisherOffsetUpdate_kept {s0 : State} {axis s} (h_s : Kept s0 s) :
    Done s0 (execBurnisherOffsetUpdate axis s) := by
  unfold execBurnisherOffsetUpdate
  extract_lets +onlyGivenNames v0
  clear_value v0
  split
  · extract_lets +onlyGivenNames v1
    clear_value v1
    extract_lets +onlyGivenNames v2
    have h2 : Kept s0 v2 := State.onDr_kept h_s
    clear_value v2
    exact done_ite (done_next h_s) (done_next (kept_ite (State.judgeOffset_kept h2) h2))
  · exact done_next h_s

theorem execSdOffsetRefresh_kept {s0 : State} {axis s} (h_s : Kept s0 s) : Done s0 (execSdOffsetRefresh axis s) := by
  unfold execSdOffsetRefresh
  extract_lets +onlyGivenNames v0
  clear_value v0
  refine done_next ?_
  refine State.expire_kept h_s ?_
  intro t3 h4
  split
  · extract_lets +onlyGivenNames v5
    clear_value v5
    extract_lets +onlyGivenNames v6
    have h6 : Kept s0 v6 := State.startT_kept (State.onDr_kept h4)
    clear_value v6
    exact kept_ite h4 (kept_ite h6 (State.judgeOffset_kept (State.judgeOffset_kept h6)))
  · exact h4

theorem State.adcBoundary_kept {s0 : State} {s} (h_s : Kept s0 s) : Kept s0 (State.adcBoundary s) := by
  unfold State.adcBoundary
  extract_lets +onlyGivenNames v0
  have h0 : Kept s0 v0 := by
    unfold v0
    refine forN_kept ?_ h_s
    intro x3 t4 h5
    extract_lets +onlyGivenNames v6
    clear_value v6
    extract_lets +onlyGivenNames v7
    have h7 : ∀ t0 x1 x2, Kept s0 t0 → Kept s0 (v7 t0 x1 x2) := by
      unfold v7
      intro t8 x9 x10 h11
      split
      · exact State.event_kept (State.setLv_kept h11)
      · exact h11
    clear_value v7
    extract_lets +onlyGivenNames v12
    have h12 : Kept s0 v12 := h7 _ _ _ (h7 _ _ _ h5)
    clear_value v12
    exact State.onDr_kept h12
  clear_value v0
  extract_lets +onlyGivenNames v13
  clear_value v13
  exact Kept.plain h0 rfl rfl rfl rfl rfl rfl rfl rfl

end Sys2Proof.Machine
end

