-- ==== Sys2Proof/Laws/KeptRescue.lean ====
section
/-!
SUPPORT. What the operations of Machine/Rescue.lean keep: one lemma each, from any state reached.
-/
namespace Sys2Proof.Machine

open Sys2Proof.Safety

theorem State.setSeq_kept {s0 : State} {s x} (h_s : Kept s0 s) : Kept s0 (State.setSeq s x) := by
  unfold State.setSeq
  exact State.onRescue_kept h_s

theorem State.convStop_kept {s0 : State} {s} (h_s : Kept s0 s) : Kept s0 (State.convStop s) := by
  unfold State.convStop
  extract_lets +onlyGivenNames v0
  have h0 : Kept s0 v0 := State.stopT_kept (State.stopT_kept h_s)
  clear_value v0
  extract_lets +onlyGivenNames v1
  have h1 : Kept s0 v1 := State.onRescue_kept h0
  clear_value v1
  exact forL_kept (fun _ _ h2 => State.legOff_kept h2) h1

theorem State.rescueQuiet_kept {s0 : State} {s} (h_s : Kept s0 s) : Kept s0 (State.rescueQuiet s) := by
  unfold State.rescueQuiet
  exact forL_kept (fun _ _ h0 => State.stopT_kept h0) h_s

theorem State.askNormal_kept {s0 : State} {s} (h_s : Kept s0 s) : Kept s0 (State.askNormal s) := by
  unfold State.askNormal
  exact State.onSched_kept h_s

theorem State.rescueAbort_kept {s0 : State} {s reason} (h_s : Kept s0 s) : Kept s0 (State.rescueAbort s reason) := by
  unfold State.rescueAbort
  extract_lets +onlyGivenNames v0
  clear_value v0
  extract_lets +onlyGivenNames v1
  have h1 : Kept s0 v1 := State.setSeq_kept (State.sbcIssue_kept (State.rescueQuiet_kept h_s))
  clear_value v1
  extract_lets +onlyGivenNames v2
  have h2 : Kept s0 v2 := State.onLv_kept h1
  clear_value v2
  extract_lets +onlyGivenNames v3
  have h3 : Kept s0 v3 := State.onLv_kept h2
  clear_value v3
  extract_lets +onlyGivenNames v4
  have h4 : Kept s0 v4 := State.raise_kept (State.pfault_kept (State.event_kept h3))
  clear_value v4
  extract_lets +onlyGivenNames v5
  have h5 : Kept s0 v5 := State.onAx_kept h4
  clear_value v5
  exact kept_ite h_s (kept_ite h5 (State.pushReact_kept (State.stoNow_kept h5)))

theorem State.rescueSettle_kept {s0 : State} {s} (h_s : Kept s0 s) : Kept s0 (State.rescueSettle s) := by
  unfold State.rescueSettle
  exact State.startT_kept (State.setSeq_kept h_s)

theorem State.rescueBegin_kept {s0 : State} {s} (h_s : Kept s0 s) : Kept s0 (State.rescueBegin s) := by
  unfold State.rescueBegin
  extract_lets +onlyGivenNames v0
  clear_value v0
  extract_lets +onlyGivenNames v1
  have h1 : Kept s0 v1 := State.onRescue_kept h_s
  clear_value v1
  extract_lets +onlyGivenNames v2
  have h2 : Kept s0 v2 := State.event_kept (State.onLv_kept h1)
  clear_value v2
  extract_lets +onlyGivenNames v3
  have h3 : Kept s0 v3 := State.onMt_kept h2
  clear_value v3
  extract_lets +onlyGivenNames v4
  have h4 : Kept s0 v4 := kept_ite (State.onAx_kept (State.sbcIssue_kept h3)) h3
  clear_value v4
  exact kept_ite (State.onAx_kept h3) (kept_ite h3 (State.rescueSettle_kept h4))

theorem State.rescueStartBy_kept {s0 : State} {s m} (h_s : Kept s0 s) : Kept s0 (State.rescueStartBy s m) := by
  unfold State.rescueStartBy
  exact kept_ite (State.rescueBegin_kept h_s) (State.refuseBy_kept h_s)

theorem execRescueStart_kept {s0 : State} {s} (h_s : Kept s0 s) : Done s0 (execRescueStart s) := by
  unfold execRescueStart
  exact done_ite (done_next (State.rescueStartBy_kept (State.touch_kept h_s))) (done_next h_s)

theorem execMainsLossQualified_kept {s0 : State} {s} (h_s : Kept s0 s) : Done s0 (execMainsLossQualified s) := by
  unfold execMainsLossQualified
  refine done_next ?_
  refine State.expire_kept h_s ?_
  intro t2 h3
  extract_lets +onlyGivenNames v4
  have h4 : Kept s0 v4 := State.onRescue_kept h3
  clear_value v4
  exact kept_ite h3 (State.event_kept (State.onSched_kept h4))

theorem execMainsReturnQualified_kept {s0 : State} {s} (h_s : Kept s0 s) : Done s0 (execMainsReturnQualified s) := by
  unfold execMainsReturnQualified
  refine done_next ?_
  refine State.expire_kept h_s ?_
  intro t2 h3
  extract_lets +onlyGivenNames v4
  have h4 : Kept s0 v4 := State.event_kept (State.onRescue_kept h3)
  clear_value v4
  refine kept_ite h3 ?_
  split
  · exact State.askNormal_kept (State.setSeq_kept h4)
  · exact State.askNormal_kept (State.setSeq_kept (State.stopT_kept h4))
  · exact State.askNormal_kept h4
  · exact State.askNormal_kept h4
  · exact h4

theorem execRescueBrakeHoldExpiry_kept {s0 : State} {s} (h_s : Kept s0 s) : Done s0 (execRescueBrakeHoldExpiry s) := by
  unfold execRescueBrakeHoldExpiry
  refine done_next ?_
  refine State.expire_kept h_s ?_
  intro t2 h3
  extract_lets +onlyGivenNames v4
  clear_value v4
  extract_lets +onlyGivenNames v5
  have h5 : Kept s0 v5 := State.leaveMotion_kept h3
  clear_value v5
  split
  · exact State.rescueSettle_kept h5
  · extract_lets +onlyGivenNames v6
    have h6 : Kept s0 v6 := State.event_kept (State.setSeq_kept (State.convStop_kept h5))
    clear_value v6
    exact State.onLv_kept h6
  · exact h5

theorem execRescueSettleExpiry_kept {s0 : State} {s} (h_s : Kept s0 s) : Done s0 (execRescueSettleExpiry s) := by
  unfold execRescueSettleExpiry
  refine done_next ?_
  refine State.expire_kept h_s ?_
  intro t2 h3
  extract_lets +onlyGivenNames v4
  have h4 : Kept s0 v4 := State.onRescue_kept (State.setSeq_kept h3)
  clear_value v4
  exact kept_ite h3 (State.startT_kept h4)

theorem execConverterReady_kept {s0 : State} {s} (h_s : Kept s0 s) : Done s0 (execConverterReady s) := by
  unfold execConverterReady
  refine done_next ?_
  refine State.expire_kept h_s ?_
  intro t2 h3
  extract_lets +onlyGivenNames v4
  clear_value v4
  exact kept_ite h3 (State.onAx_kept (State.setSeq_kept (State.stopT_kept h3)))

theorem execConverterTimeout_kept {s0 : State} {s} (h_s : Kept s0 s) : Done s0 (execConverterTimeout s) := by
  unfold execConverterTimeout
  exact done_next (State.expire_kept h_s (fun _ h0 => kept_ite (State.rescueAbort_kept h0) h0))

theorem execRescueBrakeLiftExpiry_kept {s0 : State} {s} (h_s : Kept s0 s) : Done s0 (execRescueBrakeLiftExpiry s) := by
  unfold execRescueBrakeLiftExpiry
  exact done_next (State.expire_kept h_s (fun _ h0 => kept_ite h0 (State.startT_kept (State.onRescue_kept h0))))

theorem State.rescueLand_kept {s0 : State} {s} (h_s : Kept s0 s) : Kept s0 (State.rescueLand s) := by
  unfold State.rescueLand
  exact State.startT_kept (State.sbcIssue_kept (State.setSeq_kept (State.stopT_kept h_s)))

theorem State.rescueTravel_kept {s0 : State} {s up} (h_s : Kept s0 s) : Kept s0 (State.rescueTravel s up) := by
  unfold State.rescueTravel
  extract_lets +onlyGivenNames v0
  clear_value v0
  extract_lets +onlyGivenNames v1
  clear_value v1
  extract_lets +onlyGivenNames v2
  clear_value v2
  extract_lets +onlyGivenNames v3
  clear_value v3
  extract_lets +onlyGivenNames v4
  have h4 : ∀ t0 x1, Kept s0 t0 → Kept s0 (v4 t0 x1) := by
    unfold v4
    intro t5 x6 h7
    exact State.onLv_kept h7
  clear_value v4
  split
  · exact State.rescueLand_kept (State.onRescue_kept (h4 _ _ h_s))
  · extract_lets +onlyGivenNames v8
    clear_value v8
    split
    · exact h_s
    · extract_lets +onlyGivenNames v9
      have h9 : Kept s0 v9 := State.onRescue_kept (h4 _ _ h_s)
      clear_value v9
      extract_lets +onlyGivenNames v10
      clear_value v10
      extract_lets +onlyGivenNames v11
      have h11 : Kept s0 v11 := State.setPair_kept h9
      clear_value v11
      extract_lets +onlyGivenNames v12
      have h12 : Kept s0 v12 := State.setLv_kept (State.setLv_kept (State.setLv_kept h11))
      clear_value v12
      extract_lets +onlyGivenNames v13
      have h13 : Kept s0 v13 := State.onMt_kept (State.setLv_kept h12)
      clear_value v13
      exact State.startT_kept h13

theorem execRescueTestDone_kept {s0 : State} {s} (h_s : Kept s0 s) : Done s0 (execRescueTestDone s) := by
  unfold execRescueTestDone
  refine done_next ?_
  refine State.expire_kept h_s ?_
  intro t2 h3
  extract_lets +onlyGivenNames v4
  clear_value v4
  extract_lets +onlyGivenNames v5
  clear_value v5
  extract_lets +onlyGivenNames v6
  clear_value v6
  extract_lets +onlyGivenNames v7
  have h7 : Kept s0 v7 := State.onLv_kept (State.setLv_kept h3)
  clear_value v7
  exact kept_ite h3 (State.rescueTravel_kept (State.onRescue_kept h7))

theorem execRescueTravelTimeout_kept {s0 : State} {s} (h_s : Kept s0 s) : Done s0 (execRescueTravelTimeout s) := by
  unfold execRescueTravelTimeout
  exact done_next (State.expire_kept h_s (fun _ h0 => kept_ite (State.rescueAbort_kept h0) h0))

theorem State.enterRun_kept {s0 : State} {s a} (h_s : Kept s0 s) : Kept s0 (State.enterRun s a) := by
  unfold State.enterRun
  extract_lets +onlyGivenNames v0
  have h0 : Kept s0 v0 := State.startSwitching_kept (State.onAx_kept h_s)
  clear_value v0
  extract_lets +onlyGivenNames v1
  have h1 : Kept s0 v1 := State.onRescue_kept (State.brakeOff_kept h0)
  clear_value v1
  exact kept_ite (State.startT_kept h1) (kept_ite (State.brakeOff_kept h0) (State.startT_kept h0))

theorem State.runBoundary_kept {s0 : State} {s a} (h_s : Kept s0 s) : Kept s0 (State.runBoundary s a) := by
  unfold State.runBoundary
  exact kept_ite h_s (kept_ite (kept_ite (State.enterRun_kept h_s) (State.rescueAbort_kept h_s)) (kept_ite (State.enterRun_kept h_s) (State.onAx_kept h_s)))

theorem State.runConverter_kept {s0 : State} {s} (h_s : Kept s0 s) : Kept s0 (State.runConverter s) := by
  unfold State.runConverter
  extract_lets +onlyGivenNames v0
  clear_value v0
  extract_lets +onlyGivenNames v1
  clear_value v1
  extract_lets +onlyGivenNames v2
  clear_value v2
  extract_lets +onlyGivenNames v3
  clear_value v3
  extract_lets +onlyGivenNames v4
  clear_value v4
  refine kept_ite h_s ?_
  split
  · extract_lets +onlyGivenNames v5
    clear_value v5
    extract_lets +onlyGivenNames v6
    clear_value v6
    extract_lets +onlyGivenNames v7
    clear_value v7
    split
    · extract_lets +onlyGivenNames v8
      clear_value v8
      extract_lets +onlyGivenNames v9
      clear_value v9
      split
      · extract_lets +onlyGivenNames v10
        have h10 : Kept s0 v10 := State.onRescue_kept h_s
        clear_value v10
        extract_lets +onlyGivenNames v11
        have h11 : Kept s0 v11 := State.setLv_kept (State.setLv_kept h10)
        clear_value v11
        extract_lets +onlyGivenNames v12
        clear_value v12
        extract_lets +onlyGivenNames v13
        have h13 : Kept s0 v13 := kept_ite (kept_ite (kept_ite h11 (State.startT_kept h11)) (State.stopT_kept h11)) h11
        clear_value v13
        exact kept_ite (State.rescueAbort_kept h13) h13

theorem State.mainsBoundary_kept {s0 : State} {s} (h_s : Kept s0 s) : Kept s0 (State.mainsBoundary s) := by
  unfold State.mainsBoundary
  extract_lets +onlyGivenNames v0
  clear_value v0
  extract_lets +onlyGivenNames v1
  clear_value v1
  extract_lets +onlyGivenNames v2
  clear_value v2
  extract_lets +onlyGivenNames v3
  clear_value v3
  extract_lets +onlyGivenNames v4
  clear_value v4
  extract_lets +onlyGivenNames v5
  clear_value v5
  extract_lets +onlyGivenNames v6
  have h6 : Kept s0 v6 := State.onRescue_kept h_s
  clear_value v6
  extract_lets +onlyGivenNames v7
  clear_value v7
  extract_lets +onlyGivenNames v8
  clear_value v8
  extract_lets +onlyGivenNames v9
  have h9 : Kept s0 v9 := by
    unfold v9
    split
    · exact kept_ite h6 (State.startT_kept h6)
    · exact State.stopT_kept h6
  clear_value v9
  refine kept_ite h_s ?_
  split
  · exact kept_ite h9 (State.startT_kept h9)
  · exact State.stopT_kept h9

theorem State.rescueBoundary_kept {s0 : State} {s} (h_s : Kept s0 s) : Kept s0 (State.rescueBoundary s) := by
  unfold State.rescueBoundary
  extract_lets +onlyGivenNames v0
  clear_value v0
  extract_lets +onlyGivenNames v1
  clear_value v1
  extract_lets +onlyGivenNames v2
  have h2 : Kept s0 v2 := kept_ite (State.convStop_kept h_s) h_s
  clear_value v2
  extract_lets +onlyGivenNames v3
  clear_value v3
  refine kept_ite h2 ?_
  refine kept_ite (State.rescueAbort_kept h2) ?_
  refine kept_ite (State.rescueAbort_kept h2) ?_
  split
  · exact kept_ite (State.rescueSettle_kept h2) h2
  · exact kept_ite (State.rescueAbort_kept h2) (kept_ite (State.rescueAbort_kept h2) (kept_ite (State.onRescue_kept h2) h2))
  · exact kept_ite (State.rescueAbort_kept h2) (kept_ite (State.rescueLand_kept h2) h2)
  · exact h2

theorem State.fbLostAxis_kept {s0 : State} {s a} (h_s : Kept s0 s) : Kept s0 (State.fbLostAxis s a) := by
  unfold State.fbLostAxis
  extract_lets +onlyGivenNames v0
  clear_value v0
  extract_lets +onlyGivenNames v1
  clear_value v1
  extract_lets +onlyGivenNames v2
  have h2 : Kept s0 v2 := State.noteSrc_kept h_s
  clear_value v2
  extract_lets +onlyGivenNames v3
  have h3 : Kept s0 v3 := State.raise_kept h_s
  clear_value v3
  exact kept_ite h_s (kept_ite (kept_ite (State.onAx_kept h2) (State.applyReact_kept h2)) (kept_ite (State.rescueAbort_kept h3) h3))

theorem execFbLost_kept {s0 : State} {fb s} (h_s : Kept s0 s) : Done s0 (execFbLost fb s) := by
  unfold execFbLost
  extract_lets +onlyGivenNames v0
  clear_value v0
  extract_lets +onlyGivenNames v1
  have h1 : Kept s0 v1 := State.onFb_kept h_s
  clear_value v1
  exact done_ite (done_next h_s) (done_next (State.masterLost_kept (forL_kept (fun _ _ h2 => State.fbLostAxis_kept h2) h1)))

end Sys2Proof.Machine
end

