-- ==== Sys2Proof/Laws/KeptGate.lean ====
section
/-!
SUPPORT. What the operations of Machine/Gate.lean keep: one lemma each, from any state reached.
-/
namespace Sys2Proof.Machine

open Sys2Proof.Safety

theorem State.incHalf_kept {s0 : State} {s p o upper} (h_s : Kept s0 s) : Kept s0 (State.incHalf s p o upper) := by
  unfold State.incHalf
  exact State.onLv_kept h_s

theorem State.downFail_kept {s0 : State} {s} (h_s : Kept s0 s) : Kept s0 (State.downFail s) := by
  unfold State.downFail
  extract_lets +onlyGivenNames v0
  have h0 : Kept s0 v0 := forN_kept (fun _ _ h1 => kept_ite h1 (State.onLg_kept h1)) h_s
  clear_value v0
  exact State.onPdie_kept (State.event_kept (State.incHalf_kept h0))

theorem State.upFail_kept {s0 : State} {s} (h_s : Kept s0 s) : Kept s0 (State.upFail s) := by
  unfold State.upFail
  exact State.onPdie_kept (State.event_kept (State.incHalf_kept h_s))

theorem State.down_kept {s0 : State} {s f ty run} (h_s : Kept s0 s) (h_run : ∀ t0, Kept s0 t0 → Kept s0 (run t0)) :
    Done s0 (State.down s f ty run) := by
  unfold State.down
  exact done_ite (done_next h_s) (done_ite (done_next (State.downFail_kept h_s)) (done_next (h_run _ (State.onPdie_kept h_s))))

theorem State.uplink_kept {s0 : State} {s f ty run} (h_s : Kept s0 s) (h_run : ∀ t0, Kept s0 t0 → Kept s0 (run t0)) :
    Done s0 (State.uplink s f ty run) := by
  unfold State.uplink
  exact done_ite (done_next h_s) (done_ite (done_next (State.upFail_kept h_s)) (done_next (h_run _ (State.onPdie_kept h_s))))

theorem execPlinkSync_kept {s0 : State} {frame s} (h_s : Kept s0 s) : Done s0 (execPlinkSync frame s) := by
  unfold execPlinkSync
  exact State.down_kept h_s (fun _ h0 => State.onPdie_kept h0)

theorem execPlinkSet_kept {s0 : State} {frame s} (h_s : Kept s0 s) : Done s0 (execPlinkSet frame s) := by
  unfold execPlinkSet
  exact State.down_kept h_s (fun _ h0 => State.onPdie_kept h0)

theorem execPlinkEdge_kept {s0 : State} {frame s} (h_s : Kept s0 s) : Done s0 (execPlinkEdge frame s) := by
  unfold execPlinkEdge
  refine State.down_kept h_s ?_
  intro t1 h2
  extract_lets +onlyGivenNames v3
  clear_value v3
  extract_lets +onlyGivenNames v4
  clear_value v4
  exact kept_ite h2 (kept_ite (State.event_kept (State.onLg_kept h2)) (State.onLg_kept h2))

theorem execPlinkIdle_kept {s0 : State} {frame up s} (h_s : Kept s0 s) : Done s0 (execPlinkIdle frame up s) := by
  unfold execPlinkIdle
  exact done_ite (State.uplink_kept h_s (fun _ h0 => h0)) (State.down_kept h_s (fun _ h1 => h1))

theorem execEcho_kept {s0 : State} {frame s} (h_s : Kept s0 s) : Done s0 (execEcho frame s) := by
  unfold execEcho
  exact State.uplink_kept h_s (fun _ h0 => h0)

theorem execEdgeExecute_kept {s0 : State} {leg s} (h_s : Kept s0 s) : Done s0 (execEdgeExecute leg s) := by
  unfold execEdgeExecute
  extract_lets +onlyGivenNames v0
  clear_value v0
  split
  · exact done_next h_s
  · extract_lets +onlyGivenNames v1
    have h1 : Kept s0 v1 := State.onLg_kept (State.reach_kept h_s)
    clear_value v1
    extract_lets +onlyGivenNames v2
    clear_value v2
    extract_lets +onlyGivenNames v3
    have h3 : Kept s0 v3 := kept_ite (State.onLg_kept h1) h1
    clear_value v3
    exact done_ite (done_next h_s) (done_next (State.legEdge_kept h3))

theorem State.bsuvOn_kept {s0 : State} {s l} (h_s : Kept s0 s) : Kept s0 (State.bsuvOn s l) := by
  unfold State.bsuvOn
  refine kept_ite h_s ?_
  split
  · extract_lets +onlyGivenNames v0
    have h0 : Kept s0 v0 := State.onLg_kept h_s
    clear_value v0
    exact State.event_kept (State.incHalf_kept h0)

theorem execBsuv_kept {s0 : State} {leg s} (h_s : Kept s0 s) : Done s0 (execBsuv leg s) := by
  unfold execBsuv
  exact done_ite (done_next (State.bsuvOn_kept h_s)) (done_next h_s)

theorem execLegstat_kept {s0 : State} {frame s} (h_s : Kept s0 s) : Done s0 (execLegstat frame s) := by
  unfold execLegstat
  refine State.uplink_kept h_s ?_
  intro t1 h2
  extract_lets +onlyGivenNames v3
  clear_value v3
  extract_lets +onlyGivenNames v4
  have h4 : Kept s0 v4 := State.onLg_kept h2
  clear_value v4
  exact kept_ite h2 (kept_ite (State.bsuvOn_kept h4) (State.onLg_kept h4))

theorem execVdsBlankEnd_kept {s0 : State} {leg high s} (h_s : Kept s0 s) : Done s0 (execVdsBlankEnd leg high s) := by
  unfold execVdsBlankEnd
  extract_lets +onlyGivenNames v0
  clear_value v0
  extract_lets +onlyGivenNames v1
  clear_value v1
  split
  · extract_lets +onlyGivenNames v2
    have h2 : Kept s0 v2 := State.reach_kept h_s
    clear_value v2
    exact done_ite (done_next h_s) (done_next (State.onLg_kept h2))

theorem execVdsTrip_kept {s0 : State} {leg high s} (h_s : Kept s0 s) : Done s0 (execVdsTrip leg high s) := by
  unfold execVdsTrip
  extract_lets +onlyGivenNames v0
  clear_value v0
  extract_lets +onlyGivenNames v1
  clear_value v1
  refine done_ite (done_next h_s) ?_
  split
  · extract_lets +onlyGivenNames v2
    have h2 : Kept s0 v2 := State.onLg_kept h_s
    clear_value v2
    extract_lets +onlyGivenNames v3
    have h3 : Kept s0 v3 := State.incHalf_kept (State.pfault_kept (State.event_kept h2))
    clear_value v3
    extract_lets +onlyGivenNames v4
    clear_value v4
    exact done_next (State.onset_kept (State.clearSrc_kept (State.raiseNow_kept h3)))

theorem State.internalOff_kept {s0 : State} {s} (h_s : Kept s0 s) : Kept s0 (State.internalOff s) := by
  unfold State.internalOff
  exact forN_kept (fun _ _ h0 => State.legOff_kept h0) h_s

theorem execPlinkLost_kept {s0 : State} {s} (h_s : Kept s0 s) : Done s0 (execPlinkLost s) := by
  unfold execPlinkLost
  extract_lets +onlyGivenNames v0
  have h0 : Kept s0 v0 := State.onTime_kept (State.internalOff_kept h_s)
  clear_value v0
  extract_lets +onlyGivenNames v1
  have h1 : Kept s0 v1 := forN_kept (fun _ _ h2 => State.onLg_kept h2) h0
  clear_value v1
  extract_lets +onlyGivenNames v3
  have h3 : Kept s0 v3 := State.event_kept (State.onPdie_kept h1)
  clear_value v3
  exact done_ite (done_next h_s) (done_next (State.raiseNow_kept (State.pfault_kept h3)))

theorem execPlinkLinkUp_kept {s0 : State} {delay s} (h_s : Kept s0 s) : Done s0 (execPlinkLinkUp delay s) := by
  unfold execPlinkLinkUp
  extract_lets +onlyGivenNames v0
  have h0 : Kept s0 v0 := State.onPdie_kept (State.onTime_kept h_s)
  clear_value v0
  exact done_ite (done_next h_s) (done_next (State.clearSrc_kept (State.event_kept h0)))

theorem State.cpuvSet_kept {s0 : State} {s on} (h_s : Kept s0 s) : Kept s0 (State.cpuvSet s on) := by
  unfold State.cpuvSet
  extract_lets +onlyGivenNames v0
  have h0 : Kept s0 v0 := State.event_kept (State.onPdie_kept h_s)
  clear_value v0
  extract_lets +onlyGivenNames v1
  have h1 : Kept s0 v1 := forN_kept (fun _ _ h2 => kept_ite (State.onLg_kept h2) h2) h0
  clear_value v1
  exact kept_ite h_s (kept_ite (State.raise_kept h1) (State.clearSrc_kept (State.onPdie_kept h_s)))

theorem State.vgdSet_kept {s0 : State} {s on} (h_s : Kept s0 s) : Kept s0 (State.vgdSet s on) := by
  unfold State.vgdSet
  exact kept_ite h_s (kept_ite (State.raiseNow_kept (State.pfault_kept (State.event_kept (State.internalOff_kept (State.onPdie_kept h_s))))) (State.clearSrc_kept (State.onPdie_kept h_s)))

theorem State.vinSet_kept {s0 : State} {s on} (h_s : Kept s0 s) : Kept s0 (State.vinSet s on) := by
  unfold State.vinSet
  exact kept_ite h_s (kept_ite (State.raiseNow_kept (State.pfault_kept (State.event_kept (State.internalOff_kept (State.onPdie_kept h_s))))) (State.clearSrc_kept (State.onPdie_kept h_s)))

theorem execCpuv_kept {s0 : State} {s} (h_s : Kept s0 s) : Done s0 (execCpuv s) := by
  unfold execCpuv
  exact done_ite (done_next (State.cpuvSet_kept h_s)) (done_next h_s)

theorem execCpuvRelease_kept {s0 : State} {s} (h_s : Kept s0 s) : Done s0 (execCpuvRelease s) := by
  unfold execCpuvRelease
  exact done_ite (done_next (State.cpuvSet_kept h_s)) (done_next h_s)

theorem execVgdUv_kept {s0 : State} {s} (h_s : Kept s0 s) : Done s0 (execVgdUv s) := by
  unfold execVgdUv
  exact done_ite (done_next (State.vgdSet_kept h_s)) (done_next h_s)

theorem execVgdRelease_kept {s0 : State} {s} (h_s : Kept s0 s) : Done s0 (execVgdRelease s) := by
  unfold execVgdRelease
  exact done_ite (done_next (State.vgdSet_kept h_s)) (done_next h_s)

theorem execVinOv_kept {s0 : State} {s} (h_s : Kept s0 s) : Done s0 (execVinOv s) := by
  unfold execVinOv
  exact done_ite (done_next (State.vinSet_kept h_s)) (done_next h_s)

theorem execVinOvRelease_kept {s0 : State} {s} (h_s : Kept s0 s) : Done s0 (execVinOvRelease s) := by
  unfold execVinOvRelease
  exact done_ite (done_next (State.vinSet_kept h_s)) (done_next h_s)

theorem State.dclChange_kept {s0 : State} {s n on} (h_s : Kept s0 s) : Kept s0 (State.dclChange s n on) := by
  unfold State.dclChange
  extract_lets +onlyGivenNames v0
  have h0 : Kept s0 v0 := State.onPdie_kept h_s
  clear_value v0
  extract_lets +onlyGivenNames v1
  have h1 : Kept s0 v1 := State.event_kept h0
  clear_value v1
  refine kept_ite h_s ?_
  split
  · exact h1
  · exact kept_ite (State.turnOn_kept (State.onLg_kept h1)) h1

theorem execDclComparatorChange_kept {s0 : State} {n set s} (h_s : Kept s0 s) :
    Done s0 (execDclComparatorChange n set s) := by
  unfold execDclComparatorChange
  exact done_ite (done_next (State.dclChange_kept h_s)) (done_next h_s)

theorem execDcl_kept {s0 : State} {frame s} (h_s : Kept s0 s) : Done s0 (execDcl frame s) := by
  unfold execDcl
  refine State.uplink_kept h_s ?_
  intro t1 h2
  extract_lets +onlyGivenNames v3
  have h3 : Kept s0 v3 := forN_kept (fun _ _ h4 => State.dclChange_kept h4) h2
  clear_value v3
  extract_lets +onlyGivenNames v5
  have h5 : Kept s0 v5 := State.cpuvSet_kept (State.vgdSet_kept (State.vinSet_kept h3))
  clear_value v5
  exact State.setLv_kept h5

theorem execPlinkHk_kept {s0 : State} {frame s} (h_s : Kept s0 s) : Done s0 (execPlinkHk frame s) := by
  unfold execPlinkHk
  exact State.uplink_kept h_s (fun _ h0 => State.onHk_kept h0)

theorem State.chopUdc_kept {s0 : State} {s} (h_s : Kept s0 s) : Kept2 s0 (State.chopUdc s) := by
  unfold State.chopUdc
  extract_lets +onlyGivenNames v0
  clear_value v0
  refine kept2_ite (kept2_mk h_s) ?_
  refine kept2_ite (kept2_mk h_s) ?_
  split
  · rename_i x1 x2 t3 e4
    have h5 := kept2_snd (State.takeFree_kept h_s) e4
    exact kept2_mk h5

theorem State.chopPublish_kept {s0 : State} {s} (h_s : Kept s0 s) : Kept s0 (State.chopPublish s) := by
  unfold State.chopPublish
  split
  · exact h_s
  · split
    · rename_i x0 x1 t2 e3
      have h4 := kept2_snd (State.chopUdc_kept h_s) e3
      extract_lets +onlyGivenNames v5
      clear_value v5
      extract_lets +onlyGivenNames v6
      clear_value v6
      exact State.onChop_kept h4

theorem State.chopJudge_kept {s0 : State} {s l} (h_s : Kept s0 s) : Kept s0 (State.chopJudge s l) := by
  unfold State.chopJudge
  extract_lets +onlyGivenNames v0
  have h0 : Kept s0 v0 := State.onLg_kept (State.onChop_kept h_s)
  clear_value v0
  extract_lets +onlyGivenNames v1
  have h1 : Kept s0 v1 := State.onset_kept (State.raise_kept (State.pfault_kept (State.event_kept h0)))
  clear_value v1
  exact kept_ite (State.rescueAbort_kept h1) h1

theorem State.chopClear_kept {s0 : State} {s} (h_s : Kept s0 s) : Kept s0 (State.chopClear s) := by
  unfold State.chopClear
  exact State.clearSrc_kept (State.onChop_kept h_s)

theorem execChopperSwitchFault_kept {s0 : State} {s} (h_s : Kept s0 s) : Done s0 (execChopperSwitchFault s) := by
  unfold execChopperSwitchFault
  split
  · extract_lets +onlyGivenNames v0
    have h0 : Kept s0 v0 := State.reach_kept h_s
    clear_value v0
    exact done_ite (done_next (State.chopJudge_kept (State.onChop_kept h0))) (done_next h_s)
  · exact done_next h_s

theorem State.chopBoundary_kept {s0 : State} {s} (h_s : Kept s0 s) : Kept s0 (State.chopBoundary s) := by
  unfold State.chopBoundary
  split
  · exact h_s
  · extract_lets +onlyGivenNames v0
    clear_value v0
    split
    · rename_i x1 x2 t3 e4
      have h5 := kept2_snd (State.chopUdc_kept h_s) e4
      extract_lets +onlyGivenNames v6
      clear_value v6
      extract_lets +onlyGivenNames v7
      clear_value v7
      extract_lets +onlyGivenNames v8
      clear_value v8
      extract_lets +onlyGivenNames v9
      have h9 : Kept s0 v9 := State.onChop_kept h5
      clear_value v9
      split
      · exact kept_ite (State.onChop_kept h9) h9
      · extract_lets +onlyGivenNames v10
        have h10 : Kept s0 v10 := State.onChop_kept h9
        clear_value v10
        exact kept_ite (kept_ite h10 (State.chopClear_kept h10)) (kept_ite h9 (State.onChop_kept h9))

theorem execChopperTestExpiry_kept {s0 : State} {s} (h_s : Kept s0 s) : Done s0 (execChopperTestExpiry s) := by
  unfold execChopperTestExpiry
  split
  · exact done_ite (done_next (State.chopJudge_kept (State.onChop_kept (State.reach_kept h_s)))) (done_next h_s)
  · exact done_next h_s

theorem execPrecheck_kept {s0 : State} {m seq arg8 s} (h_s : Kept s0 s) : Done s0 (execPrecheck m seq arg8 s) := by
  unfold execPrecheck
  extract_lets +onlyGivenNames v0
  clear_value v0
  refine done_next ?_
  refine State.command_kept h_s ?_
  intro t3 h4
  extract_lets +onlyGivenNames v5
  have h5 : Kept s0 v5 := by
    unfold v5
    exact Kept.plain h4 rfl rfl rfl rfl rfl rfl rfl rfl
  clear_value v5
  extract_lets +onlyGivenNames v6
  have h6 : Kept s0 v6 := State.startT_kept (State.setLv_kept (State.onAx_kept h5))
  clear_value v6
  exact State.begin__kept h6

theorem State.precheckEnd_kept {s0 : State} {s a} (h_s : Kept s0 s) : Kept s0 (State.precheckEnd s a) := by
  unfold State.precheckEnd
  extract_lets +onlyGivenNames v0
  have h0 : Kept s0 v0 := by
    unfold v0
    refine State.event_kept ?_
    exact Kept.plain h_s rfl rfl rfl rfl rfl rfl rfl rfl
  extract_lets +onlyGivenNames v1
  clear_value v1
  extract_lets +onlyGivenNames v2
  have h2 : Kept s0 v2 := kept_ite h0 (kept_ite (State.onAx_kept h0) (State.enterReady_kept h0))
  clear_value v2
  extract_lets +onlyGivenNames v3
  have h3 : Kept s0 v3 := kept_ite (State.setLastSrc_kept (State.onAx_kept h0)) h0
  clear_value v3
  exact kept_ite (State.complete_kept h2) (State.complete_kept (State.raisePulse_kept (State.pfault_kept h3)))

theorem execPrecheckStep_kept {s0 : State} {u v w compOk supplyOk s} (h_s : Kept s0 s) :
    Done s0 (execPrecheckStep u v w compOk supplyOk s) := by
  unfold execPrecheckStep
  refine done_next ?_
  refine State.expire_kept h_s ?_
  intro t2 h3
  split
  · exact h3
  · extract_lets +onlyGivenNames v4
    clear_value v4
    extract_lets +onlyGivenNames v5
    clear_value v5
    extract_lets +onlyGivenNames v6
    clear_value v6
    extract_lets +onlyGivenNames v7
    clear_value v7
    extract_lets +onlyGivenNames v8
    have h8 : Kept s0 v8 := State.onLv_kept h3
    clear_value v8
    extract_lets +onlyGivenNames v9
    have h9 : Kept s0 v9 := kept_ite h8 (State.setLv_kept h8)
    clear_value v9
    extract_lets +onlyGivenNames v10
    clear_value v10
    extract_lets +onlyGivenNames v11
    have h11 : Kept s0 v11 := by
      unfold v11
      exact Kept.plain h9 rfl rfl rfl rfl rfl rfl rfl rfl
    clear_value v11
    exact kept_ite (State.precheckEnd_kept h9) (State.startT_kept h11)

theorem execDiag_kept {s0 : State} {frame s} (h_s : Kept s0 s) : Done s0 (execDiag frame s) := by
  unfold execDiag
  exact State.uplink_kept h_s (fun _ h0 => State.onLv_kept h0)

end Sys2Proof.Machine
end

