-- ==== Sys2Proof/Laws/KeptSafeFns.lean ====
section
/-!
SUPPORT. What the operations of Machine/SafeFns.lean keep: one lemma each, from any state reached.
-/
namespace Sys2Proof.Machine

open Sys2Proof.Safety

theorem State.safeStopAxis_kept {s0 : State} {s a} (h_s : Kept s0 s) : Kept s0 (State.safeStopAxis s a) := by
  unfold State.safeStopAxis
  extract_lets +onlyGivenNames v0
  have h0 : Kept s0 v0 := State.pushReact_kept h_s
  clear_value v0
  exact kept_ite (State.rescueAbort_kept h0) h0

theorem State.safeStopDown_kept {s0 : State} {s} (h_s : Kept s0 s) : Kept s0 (State.safeStopDown s) := by
  unfold State.safeStopDown
  extract_lets +onlyGivenNames v0
  have h0 : Kept s0 v0 := State.onPower_kept h_s
  clear_value v0
  extract_lets +onlyGivenNames v1
  have h1 : Kept s0 v1 := forN_kept (fun _ _ h2 => State.onAx_kept h2) h0
  clear_value v1
  exact forN_kept (fun _ _ h3 => State.legOff_kept h3) h1

theorem execSafeStop_kept {s0 : State} {m seq arg8 s} (h_s : Kept s0 s) : Done s0 (execSafeStop m seq arg8 s) := by
  unfold execSafeStop
  extract_lets +onlyGivenNames v0
  clear_value v0
  refine done_ite (done_ite (done_next (State.setResult_kept (State.safeStopDown_kept h_s))) (done_next h_s)) ?_
  refine done_next ?_
  refine State.command_kept h_s ?_
  intro t5 h6
  extract_lets +onlyGivenNames v7
  clear_value v7
  extract_lets +onlyGivenNames v8
  have h8 : Kept s0 v8 := State.event_kept (State.clearSrc_kept (State.noteSrc_kept h6))
  clear_value v8
  extract_lets +onlyGivenNames v9
  have h9 : Kept s0 v9 := forL_kept (fun _ _ h10 => State.safeStopAxis_kept h10) h8
  clear_value v9
  exact kept_ite h9 (State.accept_kept h9)

theorem State.readback_kept {s0 : State} {s} (h_s : Kept s0 s) : Kept s0 (State.readback s) := by
  unfold State.readback
  exact State.startT_kept h_s

theorem State.stoDemandNow_kept {s0 : State} {s} (h_s : Kept s0 s) : Kept s0 (State.stoDemandNow s) := by
  unfold State.stoDemandNow
  extract_lets +onlyGivenNames v0
  have h0 : Kept s0 v0 := State.onSafe_kept h_s
  clear_value v0
  extract_lets +onlyGivenNames v1
  have h1 : Kept s0 v1 := State.onField_kept (State.stopT_kept h0)
  clear_value v1
  extract_lets +onlyGivenNames v2
  have h2 : Kept s0 v2 := State.clearSrc_kept (State.noteSrc_kept (State.clearSrc_kept h1))
  clear_value v2
  extract_lets +onlyGivenNames v3
  have h3 : Kept s0 v3 := State.onLv_kept (State.event_kept h2)
  clear_value v3
  extract_lets +onlyGivenNames v4
  clear_value v4
  extract_lets +onlyGivenNames v5
  have h5 : Kept s0 v5 := forL_kept (fun _ _ h6 => kept_ite (State.stoNow_kept h6) (State.pushReact_kept (State.stoNow_kept h6))) h3
  clear_value v5
  extract_lets +onlyGivenNames v7
  have h7 : Kept s0 v7 := kept_ite (State.rescueAbort_kept h5) h5
  clear_value v7
  exact State.readback_kept h7

theorem execStoDemand_kept {s0 : State} {s} (h_s : Kept s0 s) : Done s0 (execStoDemand s) := by
  unfold execStoDemand
  exact done_ite (done_next h_s) (done_next (State.stoDemandNow_kept h_s))

theorem State.stoHealthy_kept {s0 : State} {s t} (h_s : Kept s0 s) : Kept s0 (State.stoHealthy s t) := by
  unfold State.stoHealthy
  extract_lets +onlyGivenNames v0
  have h0 : Kept s0 v0 := State.onField_kept h_s
  clear_value v0
  exact kept_ite (State.startT_kept (State.onSafe_kept h0)) h0

theorem execStoRelease_kept {s0 : State} {s} (h_s : Kept s0 s) : Done s0 (execStoRelease s) := by
  unfold execStoRelease
  split
  · exact done_next h_s
  · extract_lets +onlyGivenNames v0
    have h0 : Kept s0 v0 := State.reach_kept (State.stopT_kept h_s)
    clear_value v0
    extract_lets +onlyGivenNames v1
    have h1 : Kept s0 v1 := State.onSafe_kept h0
    clear_value v1
    exact done_ite (done_next h_s) (done_next (State.event_kept (State.clearSrc_kept h1)))

theorem State.stoPathFail_kept {s0 : State} {s} (h_s : Kept s0 s) : Kept s0 (State.stoPathFail s) := by
  unfold State.stoPathFail
  extract_lets +onlyGivenNames v0
  have h0 : Kept s0 v0 := State.pfault_kept (State.onSafe_kept h_s)
  clear_value v0
  exact State.raiseNow_kept h0

theorem execStoReadback_kept {s0 : State} {confirmed s} (h_s : Kept s0 s) : Done s0 (execStoReadback confirmed s) := by
  unfold execStoReadback
  exact done_next (State.expire_kept h_s (fun _ h0 => kept_ite h0 (State.stoPathFail_kept h0)))

theorem execStoTestDue_kept {s0 : State} {s} (h_s : Kept s0 s) : Done s0 (execStoTestDue s) := by
  unfold execStoTestDue
  extract_lets +onlyGivenNames v0
  clear_value v0
  exact done_ite (done_next h_s) (done_next (State.raise_kept (State.pfault_kept (State.reach_kept h_s))))

theorem State.selHost_kept {s0 : State} {s m v} (h_s : Kept s0 s) : Kept s0 (State.selHost s m v) := by
  unfold State.selHost
  extract_lets +onlyGivenNames v0
  clear_value v0
  exact kept_ite (State.refuseBy_kept h_s) (State.setLv_kept h_s)

theorem execSelHost_kept {s0 : State} {v s} (h_s : Kept s0 s) : Done s0 (execSelHost v s) := by
  unfold execSelHost
  exact done_ite (done_next (State.selHost_kept (State.touch_kept h_s))) (done_next h_s)

theorem State.selectFn_kept {s0 : State} {s a f} (h_s : Kept s0 s) : Kept s0 (State.selectFn s a f) := by
  unfold State.selectFn
  extract_lets +onlyGivenNames v0
  clear_value v0
  extract_lets +onlyGivenNames v1
  clear_value v1
  extract_lets +onlyGivenNames v2
  have h2 : Kept s0 v2 := State.stopT_kept (State.onAx_kept h_s)
  clear_value v2
  exact kept_ite h_s (kept_ite (State.startT_kept (State.onAx_kept h_s)) (kept_ite h2 (State.clearSrc_kept h2)))

theorem State.violate_kept {s0 : State} {s a src} (h_s : Kept s0 s) : Kept s0 (State.violate s a src) := by
  unfold State.violate
  exact kept_ite h_s (State.raise_kept (State.event_kept h_s))

theorem State.testFn_kept {s0 : State} {s a f} (h_s : Kept s0 s) : Kept s0 (State.testFn s a f) := by
  unfold State.testFn
  extract_lets +onlyGivenNames v0
  clear_value v0
  extract_lets +onlyGivenNames v1
  clear_value v1
  extract_lets +onlyGivenNames v2
  clear_value v2
  extract_lets +onlyGivenNames v3
  clear_value v3
  extract_lets +onlyGivenNames v4
  clear_value v4
  extract_lets +onlyGivenNames v5
  have h5 : Kept s0 v5 := State.onAx_kept h_s
  clear_value v5
  extract_lets +onlyGivenNames v6
  clear_value v6
  exact kept_ite h_s (kept_ite (State.violate_kept h5) h5)

theorem execSafetyMonitorStart_kept {s0 : State} {axis fn s} (h_s : Kept s0 s) :
    Done s0 (execSafetyMonitorStart axis fn s) := by
  unfold execSafetyMonitorStart
  extract_lets +onlyGivenNames v0
  clear_value v0
  extract_lets +onlyGivenNames v1
  clear_value v1
  refine done_next ?_
  refine State.expire_kept h_s ?_
  intro t4 h5
  extract_lets +onlyGivenNames v6
  clear_value v6
  exact kept_ite (State.onAx_kept h5) h5

theorem State.testSs1_kept {s0 : State} {s a} (h_s : Kept s0 s) : Kept s0 (State.testSs1 s a) := by
  unfold State.testSs1
  split
  · exact h_s
  · extract_lets +onlyGivenNames v0
    clear_value v0
    extract_lets +onlyGivenNames v1
    clear_value v1
    exact kept_ite (State.violate_kept h_s) h_s

theorem execSs1Timeout_kept {s0 : State} {axis s} (h_s : Kept s0 s) : Done s0 (execSs1Timeout axis s) := by
  unfold execSs1Timeout
  exact done_next (State.expire_kept h_s (fun _ h0 => kept_ite (State.ss1End_kept h0) h0))

theorem State.stopReady_kept {s0 : State} {s a} (h_s : Kept s0 s) : Kept s0 (State.stopReady s a) := by
  unfold State.stopReady
  extract_lets +onlyGivenNames v0
  have h0 : Kept s0 v0 := State.leaveMotion_kept h_s
  clear_value v0
  exact kept_ite (State.startT_kept h0) h0

theorem State.degradedEnd_kept {s0 : State} {s a} (h_s : Kept s0 s) : Kept s0 (State.degradedEnd s a) := by
  unfold State.degradedEnd
  exact State.setLastSrc_kept (State.onAx_kept (State.settleSto_kept (State.onAx_kept (State.stoNow_kept h_s))))

theorem execBrakeSetExpiry_kept {s0 : State} {axis s} (h_s : Kept s0 s) : Done s0 (execBrakeSetExpiry axis s) := by
  unfold execBrakeSetExpiry
  extract_lets +onlyGivenNames v0
  clear_value v0
  refine done_next ?_
  refine State.expire_kept h_s ?_
  intro t3 h4
  extract_lets +onlyGivenNames v5
  clear_value v5
  exact kept_ite (State.stopReady_kept h4) (kept_ite (State.degradedEnd_kept h4) (kept_ite (State.onAx_kept (State.settleSto_kept (State.stoNow_kept h4))) h4))

theorem State.restBoundary_kept {s0 : State} {s a} (h_s : Kept s0 s) : Kept s0 (State.restBoundary s a) :=  by
  unfold State.restBoundary
  extract_lets +onlyGivenNames x
  extract_lets +onlyGivenNames c
  extract_lets +onlyGivenNames settle
  have hset : ∀ t f, Kept s0 t → (∀ u, Kept s0 u → Kept s0 (f u)) → Kept s0 (settle t f) := by
    intro t f ht hf
    unfold settle
    have h1 := State.sbcIssue_kept (a := a) ht
    exact kept_ite (hf _ h1) (State.startT_kept (State.onAx_kept h1))
  clear_value settle x c
  refine kept_ite h_s (kept_ite ?_ (kept_ite h_s (kept_ite (State.ss1End_kept h_s) (kept_ite ?_
    (kept_ite (State.startT_kept (State.sbcIssue_kept h_s)) h_s)))))
  · exact kept_ite (hset _ _ h_s fun _ h => State.degradedEnd_kept h) h_s
  · exact hset _ _ h_s fun _ h => State.stopReady_kept h

theorem execBrakeRelease_kept {s0 : State} {axis s} (h_s : Kept s0 s) : Done s0 (execBrakeRelease axis s) := by
  unfold execBrakeRelease
  exact done_next (State.expire_kept h_s (fun _ h0 => kept_ite (State.brakeOff_kept h0) h0))

theorem execBrakeFbTimeout_kept {s0 : State} {slot axis s} (h_s : Kept s0 s) :
    Done s0 (execBrakeFbTimeout slot axis s) := by
  unfold execBrakeFbTimeout
  exact done_next (State.expire_kept h_s (fun _ h0 => kept_ite (State.raise_kept h0) h0))

theorem State.sinFault_kept {s0 : State} {s i} (h_s : Kept s0 s) : Kept s0 (State.sinFault s i) := by
  unfold State.sinFault
  extract_lets +onlyGivenNames v0
  have h0 : Kept s0 v0 := State.onSi_kept h_s
  clear_value v0
  exact State.raise_kept (State.pfault_kept (State.event_kept h0))

theorem execTestPulse_kept {s0 : State} {tp low high followed s} (h_s : Kept s0 s) :
    Done s0 (execTestPulse tp low high followed s) := by
  unfold execTestPulse
  extract_lets +onlyGivenNames v0
  have h0 : Kept s0 v0 := State.onField_kept h_s
  clear_value v0
  refine done_ite (done_next h_s) ?_
  refine done_next ?_
  refine forN_kept ?_ h0
  intro x5 t6 h7
  extract_lets +onlyGivenNames v8
  clear_value v8
  extract_lets +onlyGivenNames v9
  clear_value v9
  extract_lets +onlyGivenNames v10
  clear_value v10
  exact kept_ite h7 (kept_ite (kept_ite (State.sinFault_kept h7) (kept_ite h7 (kept_ite (State.onSi_kept h7) (State.sinFault_kept h7)))) (kept_ite (State.sinFault_kept h7) h7))

theorem State.clearSin_kept {s0 : State} {s} (h_s : Kept s0 s) : Kept s0 (State.clearSin s) := by
  unfold State.clearSin
  extract_lets +onlyGivenNames v0
  have h0 : Kept s0 v0 := forN_kept (fun _ _ h1 => State.onSi_kept h1) h_s
  clear_value v0
  exact kept_ite h0 (State.clearSrc_kept h0)

theorem State.slotDemands_kept {s0 : State} {s a} (h_s : Kept s0 s) : Kept s0 (State.slotDemands s a) := by
  unfold State.slotDemands
  extract_lets +onlyGivenNames v0
  clear_value v0
  extract_lets +onlyGivenNames v1
  clear_value v1
  extract_lets +onlyGivenNames v2
  clear_value v2
  extract_lets +onlyGivenNames v3
  have h3 : Kept s0 v3 := State.readback_kept (State.pushReact_kept h_s)
  clear_value v3
  exact kept_ite (kept_ite (State.rescueAbort_kept h3) h3) (kept_ite (State.pushReact_kept h_s) h_s)

theorem State.crossCheck_kept {s0 : State} {s a} (h_s : Kept s0 s) : Kept s0 (State.crossCheck s a) := by
  unfold State.crossCheck
  extract_lets +onlyGivenNames v0
  clear_value v0
  extract_lets +onlyGivenNames v1
  clear_value v1
  extract_lets +onlyGivenNames v2
  clear_value v2
  extract_lets +onlyGivenNames v3
  clear_value v3
  extract_lets +onlyGivenNames v4
  clear_value v4
  extract_lets +onlyGivenNames v5
  clear_value v5
  extract_lets +onlyGivenNames v6
  clear_value v6
  extract_lets +onlyGivenNames v7
  clear_value v7
  extract_lets +onlyGivenNames v8
  clear_value v8
  extract_lets +onlyGivenNames v9
  clear_value v9
  extract_lets +onlyGivenNames v10
  have h10 : Kept s0 v10 := State.onDr_kept (State.setLv_kept h_s)
  clear_value v10
  extract_lets +onlyGivenNames v11
  have h11 : Kept s0 v11 := State.onAx_kept h10
  clear_value v11
  exact kept_ite h_s (kept_ite (kept_ite h11 (State.raise_kept (State.pfault_kept (State.event_kept h11)))) (kept_ite h11 (State.clearSrc_kept h11)))

theorem State.degBoundary_kept {s0 : State} {s a prevLen} (h_s : Kept s0 s) : Kept s0 (State.degBoundary s a prevLen) := by
  unfold State.degBoundary
  extract_lets +onlyGivenNames v0
  clear_value v0
  extract_lets +onlyGivenNames v1
  clear_value v1
  extract_lets +onlyGivenNames v2
  have h2 : Kept s0 v2 := State.onAx_kept h_s
  clear_value v2
  exact kept_ite h_s (kept_ite (State.violate_kept h2) h2)

theorem execDegradedExpired_kept {s0 : State} {axis s} (h_s : Kept s0 s) : Done s0 (execDegradedExpired axis s) := by
  unfold execDegradedExpired
  extract_lets +onlyGivenNames v0
  clear_value v0
  exact done_next (State.expire_kept h_s (fun _ h1 => kept_ite (State.raisePulse_kept (State.pfault_kept h1)) h1))

theorem State.endDemand_kept {s0 : State} {s a} (h_s : Kept s0 s) : Kept s0 (State.endDemand s a) := by
  unfold State.endDemand
  extract_lets +onlyGivenNames v0
  clear_value v0
  extract_lets +onlyGivenNames v1
  have h1 : Kept s0 v1 := kept_ite (State.onAx_kept h_s) h_s
  clear_value v1
  extract_lets +onlyGivenNames v2
  have h2 : Kept s0 v2 := kept_ite (State.clearSrc_kept h1) h1
  clear_value v2
  extract_lets +onlyGivenNames v3
  have h3 : Kept s0 v3 := kept_ite (State.clearSrc_kept h2) h2
  clear_value v3
  exact kept_ite (State.clearSrc_kept h3) h3

theorem State.axisBoundary_kept {s0 : State} {s prevLen a} (h_s : Kept s0 s) :
    Kept s0 (State.axisBoundary s prevLen a) := by
  unfold State.axisBoundary
  extract_lets +onlyGivenNames v0
  have h0 : Kept s0 v0 := State.degBoundary_kept h_s
  clear_value v0
  extract_lets +onlyGivenNames v1
  have h1 : Kept s0 v1 := State.slotDemands_kept h0
  clear_value v1
  extract_lets +onlyGivenNames v2
  have h2 : Kept s0 v2 := kept_ite (forN_kept (fun _ _ h3 => State.testFn_kept (State.selectFn_kept h3)) h1) h1
  clear_value v2
  extract_lets +onlyGivenNames v4
  have h4 : Kept s0 v4 := State.testSs1_kept h2
  clear_value v4
  extract_lets +onlyGivenNames v5
  have h5 : Kept s0 v5 := kept_ite (State.crossCheck_kept h4) h4
  clear_value v5
  extract_lets +onlyGivenNames v6
  have h6 : Kept s0 v6 := State.settleReacts_kept h5
  clear_value v6
  extract_lets +onlyGivenNames v7
  have h7 : Kept s0 v7 := State.runBoundary_kept h6
  clear_value v7
  exact State.endDemand_kept (State.restBoundary_kept h7)

end Sys2Proof.Machine
end

