-- ==== Sys2Proof/Laws/KeptField.lean ====
section
/-!
SUPPORT. What the operations of Machine/Field.lean keep: one lemma each, from any state reached.
-/
namespace Sys2Proof.Machine

open Sys2Proof.Safety

theorem State.judgeFlt_kept {s0 : State} {s} (h_s : Kept s0 s) : Kept s0 (State.judgeFlt s) := by
  unfold State.judgeFlt
  extract_lets +onlyGivenNames v0
  clear_value v0
  extract_lets +onlyGivenNames v1
  clear_value v1
  extract_lets +onlyGivenNames v2
  have h2 : Kept s0 v2 := State.onField_kept h_s
  clear_value v2
  exact kept_ite (State.raise_kept (State.pfault_kept (State.event_kept h2))) (kept_ite (State.clearSrc_kept h2) h2)

theorem State.inputsLost_kept {s0 : State} {s} (h_s : Kept s0 s) : Kept s0 (State.inputsLost s) := by
  unfold State.inputsLost
  exact forN_kept (fun _ _ h0 => State.onDi_kept h0) h_s

theorem State.sagSet_kept {s0 : State} {s v} (h_s : Kept s0 s) : Kept s0 (State.sagSet s v) := by
  unfold State.sagSet
  extract_lets +onlyGivenNames v0
  have h0 : Kept s0 v0 := State.onField_kept h_s
  clear_value v0
  exact kept_ite h_s (kept_ite (State.raise_kept (State.pfault_kept (State.event_kept h0))) (State.clearSrc_kept h0))

theorem State.cutSet_kept {s0 : State} {s v} (h_s : Kept s0 s) : Kept s0 (State.cutSet s v) := by
  unfold State.cutSet
  extract_lets +onlyGivenNames v0
  have h0 : Kept s0 v0 := State.onField_kept h_s
  clear_value v0
  exact kept_ite h_s (kept_ite (State.inputsLost_kept (State.raise_kept (State.pfault_kept (State.event_kept h0)))) (State.clearSrc_kept (State.event_kept h0)))

theorem execVfSag_kept {s0 : State} {s} (h_s : Kept s0 s) : Done s0 (execVfSag s) := by
  unfold execVfSag
  exact done_ite (done_next (State.judgeFlt_kept (State.sagSet_kept h_s))) (done_next h_s)

theorem execVfSagClear_kept {s0 : State} {s} (h_s : Kept s0 s) : Done s0 (execVfSagClear s) := by
  unfold execVfSagClear
  exact done_ite (done_next (State.judgeFlt_kept (State.sagSet_kept h_s))) (done_next h_s)

theorem execVfCut_kept {s0 : State} {s} (h_s : Kept s0 s) : Done s0 (execVfCut s) := by
  unfold execVfCut
  exact done_ite (done_next (State.judgeFlt_kept (State.cutSet_kept h_s))) (done_next h_s)

theorem execVfRestored_kept {s0 : State} {s} (h_s : Kept s0 s) : Done s0 (execVfRestored s) := by
  unfold execVfRestored
  exact done_ite (done_next (State.judgeFlt_kept (State.cutSet_kept h_s))) (done_next h_s)

theorem State.diSample_kept {s0 : State} {s t i b} (h_s : Kept s0 s) : Kept s0 (State.diSample s t i b) := by
  unfold State.diSample
  extract_lets +onlyGivenNames v0
  clear_value v0
  extract_lets +onlyGivenNames v1
  clear_value v1
  extract_lets +onlyGivenNames v2
  have h2 : Kept s0 v2 := State.onDi_kept h_s
  clear_value v2
  exact kept_ite (State.latchDiSeen_kept h2) h2

theorem State.uplinkFrame_kept {s0 : State} {s t f} (h_s : Kept s0 s) : Kept s0 (State.uplinkFrame s t f) := by
  unfold State.uplinkFrame
  extract_lets +onlyGivenNames v0
  clear_value v0
  extract_lets +onlyGivenNames v1
  have h1 : Kept s0 v1 := kept_ite (kept_ite h_s (State.stoDemandNow_kept h_s)) (State.stoHealthy_kept h_s)
  clear_value v1
  extract_lets +onlyGivenNames v2
  have h2 : Kept s0 v2 := State.sagSet_kept (State.cutSet_kept h1)
  clear_value v2
  extract_lets +onlyGivenNames v3
  have h3 : Kept s0 v3 := kept_ite (forN_kept (fun _ _ h4 => State.diSample_kept h4) h2) h2
  clear_value v3
  exact State.judgeFlt_kept h3

theorem execFlinkUplinkFrame_kept {s0 : State} {frame s} (h_s : Kept s0 s) : Done s0 (execFlinkUplinkFrame frame s) := by
  unfold execFlinkUplinkFrame
  extract_lets +onlyGivenNames v0
  clear_value v0
  extract_lets +onlyGivenNames v1
  have h1 : Kept s0 v1 := State.onField_kept (State.reach_kept h_s)
  clear_value v1
  exact done_ite (done_next h_s) (done_ite (done_next (State.onField_kept (State.inc16_kept h1))) (done_ite (done_next (State.onField_kept h1)) (done_next (State.uplinkFrame_kept h1))))

theorem State.diAccept_kept {s0 : State} {s i} (h_s : Kept s0 s) : Kept s0 (State.diAccept s i) := by
  unfold State.diAccept
  extract_lets +onlyGivenNames v0
  clear_value v0
  extract_lets +onlyGivenNames v1
  have h1 : Kept s0 v1 := State.onDi_kept h_s
  clear_value v1
  extract_lets +onlyGivenNames v2
  have h2 : Kept s0 v2 := kept_ite (State.event_kept h1) h1
  clear_value v2
  exact kept_ite h_s (kept_ite h1 (State.latchDi_kept h2))

theorem execFlinkLost_kept {s0 : State} {s} (h_s : Kept s0 s) : Done s0 (execFlinkLost s) := by
  unfold execFlinkLost
  extract_lets +onlyGivenNames v0
  have h0 : Kept s0 v0 := State.reach_kept h_s
  clear_value v0
  extract_lets +onlyGivenNames v1
  have h1 : Kept s0 v1 := State.onField_kept h0
  clear_value v1
  extract_lets +onlyGivenNames v2
  have h2 : Kept s0 v2 := State.inputsLost_kept (State.raise_kept (State.pfault_kept (State.event_kept h1)))
  clear_value v2
  extract_lets +onlyGivenNames v3
  have h3 : Kept s0 v3 := forN_kept (fun _ _ h4 => State.onDi_kept h4) h2
  clear_value v3
  extract_lets +onlyGivenNames v5
  have h5 : Kept s0 v5 := kept_ite h3 (State.stoDemandNow_kept h3)
  clear_value v5
  exact done_ite (done_next h_s) (done_next (State.judgeFlt_kept h5))

theorem execFlinkRecovered_kept {s0 : State} {s} (h_s : Kept s0 s) : Done s0 (execFlinkRecovered s) := by
  unfold execFlinkRecovered
  extract_lets +onlyGivenNames v0
  have h0 : Kept s0 v0 := State.onField_kept h_s
  clear_value v0
  exact done_ite (done_next h_s) (done_next (State.judgeFlt_kept (State.clearSrc_kept (State.event_kept h0))))

theorem execFlinkDownlinkFrame_kept {s0 : State} {s} (h_s : Kept s0 s) : Done s0 (execFlinkDownlinkFrame s) := by
  unfold execFlinkDownlinkFrame
  extract_lets +onlyGivenNames v0
  clear_value v0
  extract_lets +onlyGivenNames v1
  have h1 : Kept s0 v1 := State.onField_kept (State.reach_kept h_s)
  clear_value v1
  extract_lets +onlyGivenNames v2
  have h2 : Kept s0 v2 := by
    unfold v2
    refine forN_kept ?_ h1
    intro x5 t6 h7
    extract_lets +onlyGivenNames v8
    clear_value v8
    exact State.onFo_kept h7
  clear_value v2
  exact done_ite (done_next h_s) (done_next (State.judgeFlt_kept h2))

theorem execDoThermalOff_kept {s0 : State} {n s} (h_s : Kept s0 s) : Done s0 (execDoThermalOff n s) := by
  unfold execDoThermalOff
  exact done_ite (done_next h_s) (done_next (State.startT_kept (State.onFo_kept h_s)))

theorem execDoThermalRetry_kept {s0 : State} {n s} (h_s : Kept s0 s) : Done s0 (execDoThermalRetry n s) := by
  unfold execDoThermalRetry
  exact done_next (State.expire_kept h_s (fun _ h0 => State.onFo_kept h0))

theorem State.readDo_kept {s0 : State} {s n high} (h_s : Kept s0 s) : Kept s0 (State.readDo s n high) := by
  unfold State.readDo
  extract_lets +onlyGivenNames v0
  have h0 : Kept s0 v0 := State.onFo_kept h_s
  clear_value v0
  extract_lets +onlyGivenNames v1
  have h1 : Kept s0 v1 := State.onFo_kept h0
  clear_value v1
  extract_lets +onlyGivenNames v2
  have h2 : Kept s0 v2 := State.onFo_kept h0
  clear_value v2
  exact kept_ite (kept_ite (State.onFo_kept (State.backInService_kept h1)) h1) (kept_ite (State.onFo_kept h0) (kept_ite (State.onset_kept h2) h2))

theorem State.upWord_kept {s0 : State} {s w} (h_s : Kept s0 s) : Kept s0 (State.upWord s w) := by
  unfold State.upWord
  extract_lets +onlyGivenNames v0
  clear_value v0
  extract_lets +onlyGivenNames v1
  clear_value v1
  extract_lets +onlyGivenNames v2
  have h2 : Kept s0 v2 := forN_kept (fun _ _ h3 => State.onDi_kept h3) h_s
  clear_value v2
  extract_lets +onlyGivenNames v4
  have h4 : Kept s0 v4 := State.onField_kept h2
  clear_value v4
  extract_lets +onlyGivenNames v5
  have h5 : Kept s0 v5 := State.setLv_kept h4
  clear_value v5
  extract_lets +onlyGivenNames v6
  have h6 : Kept s0 v6 := State.setLv_kept h5
  clear_value v6
  extract_lets +onlyGivenNames v7
  have h7 : Kept s0 v7 := forN_kept (fun _ _ h8 => State.readDo_kept h8) h6
  clear_value v7
  extract_lets +onlyGivenNames v9
  have h9 : Kept s0 v9 := forN_kept (fun _ _ h10 => kept_ite (forN_kept (fun _ _ h11 => kept_ite (State.sinFault_kept h11) h11) h10) h10) h7
  clear_value v9
  exact State.judgeFlt_kept h9

theorem State.downWord_kept {s0 : State} {s w} (h_s : Kept s0 s) : Kept s0 (State.downWord s w) := by
  unfold State.downWord
  extract_lets +onlyGivenNames v0
  have h0 : Kept s0 v0 := State.onField_kept h_s
  clear_value v0
  exact kept_ite (forN_kept (fun _ _ h1 => kept_ite h1 (State.onDi_kept h1)) h0) (State.onField_kept h_s)

theorem execFlinkAuxWord_kept {s0 : State} {down w s} (h_s : Kept s0 s) : Done s0 (execFlinkAuxWord down w s) := by
  unfold execFlinkAuxWord
  exact done_ite (done_next h_s) (done_next (kept_ite (State.downWord_kept h_s) (State.upWord_kept h_s)))

theorem execOpenWireSet_kept {s0 : State} {di s} (h_s : Kept s0 s) : Done s0 (execOpenWireSet di s) := by
  unfold execOpenWireSet
  exact done_ite (done_next (State.onDi_kept h_s)) (done_next h_s)

theorem execOpenWireClear_kept {s0 : State} {di s} (h_s : Kept s0 s) : Done s0 (execOpenWireClear di s) := by
  unfold execOpenWireClear
  exact done_ite (done_next (State.onDi_kept h_s)) (done_next h_s)

end Sys2Proof.Machine
end

