-- ==== Sys2Proof/Laws/KeptHoist.lean ====
section
/-!
SUPPORT. What the operations of Machine/Hoist.lean keep: one lemma each, from any state reached.
-/
namespace Sys2Proof.Machine

open Sys2Proof.Safety

theorem State.shareMismatch_kept {s0 : State} {s g on} (h_s : Kept s0 s) : Kept s0 (State.shareMismatch s g on) := by
  unfold State.shareMismatch
  extract_lets +onlyGivenNames v0
  clear_value v0
  extract_lets +onlyGivenNames v1
  have h1 : Kept s0 v1 := State.onSh_kept h_s
  clear_value v1
  exact kept_ite (forL_kept (fun _ _ h2 => State.raise_kept h2) (State.pfault_kept h1)) (kept_ite (forL_kept (fun _ _ h3 => State.clearSrc_kept h3) h1) h1)

theorem State.applyShare_kept {s0 : State} {s g t present} (h_s : Kept s0 s) :
    Kept s0 (State.applyShare s g t present) := by
  unfold State.applyShare
  extract_lets +onlyGivenNames v0
  clear_value v0
  extract_lets +onlyGivenNames v1
  clear_value v1
  extract_lets +onlyGivenNames v2
  clear_value v2
  extract_lets +onlyGivenNames v3
  clear_value v3
  extract_lets +onlyGivenNames v4
  have h4 : Kept s0 v4 := kept_ite (State.event_kept h_s) h_s
  clear_value v4
  extract_lets +onlyGivenNames v5
  have h5 : Kept s0 v5 := kept_ite (forL_kept (fun _ _ h6 => State.raise_kept h6) (State.pfault_kept h4)) (kept_ite h4 (forL_kept (fun _ _ h7 => State.clearSrc_kept h7) h4))
  clear_value v5
  exact State.onSh_kept h5

theorem State.leaderHeard_kept {s0 : State} {s g} (h_s : Kept s0 s) : Kept s0 (State.leaderHeard s g) := by
  unfold State.leaderHeard
  exact forL_kept (fun _ _ h0 => State.clearSrc_kept h0) h_s

theorem State.shareMiss_kept {s0 : State} {s g} (h_s : Kept s0 s) : Kept s0 (State.shareMiss s g) := by
  unfold State.shareMiss
  extract_lets +onlyGivenNames v0
  have h0 : Kept s0 v0 := State.onSh_kept h_s
  clear_value v0
  extract_lets +onlyGivenNames v1
  have h1 : Kept s0 v1 := State.incHalf_kept h0
  clear_value v1
  exact kept_ite (forL_kept (fun _ _ h2 => State.raise_kept h2) (State.pfault_kept h1)) h1

theorem State.sharePublish_kept {s0 : State} {s g} (h_s : Kept s0 s) : Kept1 s0 (State.sharePublish s g) := by
  unfold State.sharePublish
  extract_lets +onlyGivenNames v0
  clear_value v0
  extract_lets +onlyGivenNames v1
  clear_value v1
  extract_lets +onlyGivenNames v2
  clear_value v2
  extract_lets +onlyGivenNames v3
  clear_value v3
  extract_lets +onlyGivenNames v4
  have h4 : Kept s0 v4 := State.onSh_kept h_s
  clear_value v4
  extract_lets +onlyGivenNames v5
  clear_value v5
  extract_lets +onlyGivenNames v6
  have h6 : Kept s0 v6 := State.onSh_kept h4
  clear_value v6
  extract_lets +onlyGivenNames v7
  clear_value v7
  extract_lets +onlyGivenNames v8
  clear_value v8
  extract_lets +onlyGivenNames v9
  clear_value v9
  extract_lets +onlyGivenNames v10
  clear_value v10
  refine kept1_ite (kept1_mk h_s) ?_
  refine kept1_ite (kept1_mk (State.applyShare_kept h_s)) ?_
  split
  · rename_i x11 t12 x13 e14
    have h15 := kept1_fst (kept1_ite (kept1_mk (State.onSh_kept h6)) (kept1_mk h6)) e14
    extract_lets +onlyGivenNames v16
    have h16 : Kept s0 v16 := by
      unfold v16
      split
      · exact State.leaderHeard_kept (State.applyShare_kept h15)
      · exact State.shareMiss_kept h15
    clear_value v16
    exact kept1_mk (State.onSh_kept h16)

theorem execShareRef_kept {s0 : State} {port node group tTot present stamp sq bridged s} (h_s : Kept s0 s) :
    Done s0 (execShareRef port node group tTot present stamp sq bridged s) := by
  unfold execShareRef
  extract_lets +onlyGivenNames v0
  clear_value v0
  refine done_ite (done_next h_s) ?_
  split
  · exact done_next h_s
  · extract_lets +onlyGivenNames v1
    clear_value v1
    extract_lets +onlyGivenNames v2
    clear_value v2
    extract_lets +onlyGivenNames v3
    have h3 : Kept s0 v3 := kept_ite (State.shareMismatch_kept h_s) h_s
    clear_value v3
    extract_lets +onlyGivenNames v4
    have h4 : Kept s0 v4 := State.onSh_kept h3
    clear_value v4
    extract_lets +onlyGivenNames v5
    clear_value v5
    extract_lets +onlyGivenNames v6
    clear_value v6
    exact done_ite (done_next (State.incHalf_kept h4)) (done_next (State.onSh_kept h4))

theorem execShareStat_kept {s0 : State} {port node group slots crc s} (h_s : Kept s0 s) :
    Done s0 (execShareStat port node group slots crc s) := by
  unfold execShareStat
  extract_lets +onlyGivenNames v0
  clear_value v0
  refine done_ite (done_next h_s) ?_
  split
  · exact done_next h_s
  · extract_lets +onlyGivenNames v1
    clear_value v1
    exact done_ite (done_next (State.onSh_kept h_s)) (done_ite (done_next (State.shareMismatch_kept h_s)) (done_next h_s))

theorem State.ladderStep_kept {s0 : State} {s a n} (h_s : Kept s0 s) : Kept s0 (State.ladderStep s a n) := by
  unfold State.ladderStep
  exact State.logAdd_kept (State.event_kept (State.setLastSrc_kept (State.onAx_kept h_s)))

theorem State.ladderBoundary_kept {s0 : State} {s a} (h_s : Kept s0 s) : Kept s0 (State.ladderBoundary s a) := by
  unfold State.ladderBoundary
  extract_lets +onlyGivenNames v0
  clear_value v0
  extract_lets +onlyGivenNames v1
  clear_value v1
  extract_lets +onlyGivenNames v2
  clear_value v2
  extract_lets +onlyGivenNames v3
  clear_value v3
  extract_lets +onlyGivenNames v4
  have h4 : Kept s0 v4 := kept_ite (State.onAx_kept h_s) h_s
  clear_value v4
  extract_lets +onlyGivenNames v5
  clear_value v5
  extract_lets +onlyGivenNames v6
  have h6 : Kept s0 v6 := State.ladderStep_kept h_s
  clear_value v6
  extract_lets +onlyGivenNames v7
  have h7 : Kept s0 v7 := State.onAx_kept h6
  clear_value v7
  extract_lets +onlyGivenNames v8
  have h8 : Kept s0 v8 := State.stopT_kept h7
  clear_value v8
  extract_lets +onlyGivenNames v9
  clear_value v9
  extract_lets +onlyGivenNames v10
  have h10 : Kept s0 v10 := State.onAx_kept (State.sbcIssue_kept (State.ladderStep_kept h_s))
  clear_value v10
  extract_lets +onlyGivenNames v11
  have h11 : Kept s0 v11 := State.ladderStep_kept h_s
  clear_value v11
  extract_lets +onlyGivenNames v12
  have h12 : Kept s0 v12 := kept_ite (kept_ite (State.onAx_kept h4) h4) (kept_ite (kept_ite (State.sbcIssue_kept h8) h8) (kept_ite (kept_ite h10 (State.ss1Start_kept h10)) (kept_ite (kept_ite (State.onAx_kept h11) h11) h_s)))
  clear_value v12
  exact kept_ite (kept_ite (kept_ite h12 (State.startT_kept h12)) (State.stopT_kept h12)) h12

theorem execAscRelease_kept {s0 : State} {axis s} (h_s : Kept s0 s) : Done s0 (execAscRelease axis s) := by
  unfold execAscRelease
  extract_lets +onlyGivenNames v0
  clear_value v0
  exact done_next (State.expire_kept h_s (fun _ h1 => kept_ite (State.onAx_kept (State.gatesOff_kept h1)) h1))

end Sys2Proof.Machine
end

