-- ==== Sys2Proof/Laws/KeptCan.lean ====
section
/-!
SUPPORT. What the operations of Machine/Can.lean keep: one lemma each, from any state reached.
-/
namespace Sys2Proof.Machine

open Sys2Proof.Safety

theorem State.traceCan_kept {s0 : State} {s p f} (h_s : Kept s0 s) : Kept s0 (State.traceCan s p f) := by
  unfold State.traceCan
  exact State.traceKind_kept h_s

theorem State.rxOverflow_kept {s0 : State} {s p} (h_s : Kept s0 s) : Kept s0 (State.rxOverflow s p) := by
  unfold State.rxOverflow
  exact State.event_kept (State.inc16_kept h_s)

theorem State.rxPut_kept {s0 : State} {s p i ws} (h_s : Kept s0 s) : Kept s0 (State.rxPut s p i ws) := by
  unfold State.rxPut
  exact State.onCn_kept (State.putWords_kept h_s)

theorem State.rxWindow_kept {s0 : State} {s p ws} (h_s : Kept s0 s) : Kept s0 (State.rxWindow s p ws) := by
  unfold State.rxWindow
  extract_lets +onlyGivenNames v0
  clear_value v0
  extract_lets +onlyGivenNames v1
  clear_value v1
  extract_lets +onlyGivenNames v2
  have h2 : Kept s0 v2 := State.rxOverflow_kept h_s
  clear_value v2
  refine kept_ite (State.event_kept (State.rxPut_kept h_s)) ?_
  refine kept_ite h2 ?_
  split
  · exact State.event_kept (State.rxPut_kept h2)
  · exact h2

theorem State.rxDma_kept {s0 : State} {s p only ws} (h_s : Kept s0 s) : Kept s0 (State.rxDma s p only ws) := by
  unfold State.rxDma
  extract_lets +onlyGivenNames v0
  clear_value v0
  exact kept_ite (kept_ite (State.rxOverflow_kept h_s) h_s) (State.event_kept (State.onDm_kept h_s))

theorem State.deliver_kept {s0 : State} {s p f bilva} (h_s : Kept s0 s) : Kept s0 (State.deliver s p f bilva) := by
  unfold State.deliver
  extract_lets +onlyGivenNames v0
  clear_value v0
  extract_lets +onlyGivenNames v1
  have h1 : Kept s0 v1 := State.onCn_kept h_s
  clear_value v1
  extract_lets +onlyGivenNames v2
  clear_value v2
  split
  · exact State.rxWindow_kept h1
  · exact State.rxDma_kept h1
  · exact State.rxDma_kept (State.rxWindow_kept h1)
  · exact h1

theorem State.nodeConflict_kept {s0 : State} {s} (h_s : Kept s0 s) : Kept s0 (State.nodeConflict s) := by
  unfold State.nodeConflict
  exact State.raise_kept (State.pfault_kept (State.event_kept h_s))

theorem State.toForward_kept {s0 : State} {s q f} (h_s : Kept s0 s) : Kept s0 (State.toForward s q f) := by
  unfold State.toForward
  extract_lets +onlyGivenNames v0
  clear_value v0
  extract_lets +onlyGivenNames v1
  have h1 : Kept s0 v1 := State.onCn_kept h_s
  clear_value v1
  exact kept_ite (State.event_kept (State.inc16_kept h1)) h1

theorem State.bilvaTake_kept {s0 : State} {s p f} (h_s : Kept s0 s) : Kept s0 (State.bilvaTake s p f) := by
  unfold State.bilvaTake
  extract_lets +onlyGivenNames v0
  clear_value v0
  extract_lets +onlyGivenNames v1
  clear_value v1
  extract_lets +onlyGivenNames v2
  have h2 : Kept s0 v2 := kept_ite (State.toForward_kept h_s) h_s
  clear_value v2
  exact kept_ite (State.nodeConflict_kept h_s) (kept_ite (State.event_kept (State.inc16_kept h_s)) (kept_ite (State.deliver_kept h2) h2))

theorem State.canReceive_kept {s0 : State} {s p f} (h_s : Kept s0 s) : Kept s0 (State.canReceive s p f) := by
  unfold State.canReceive
  extract_lets +onlyGivenNames v0
  clear_value v0
  extract_lets +onlyGivenNames v1
  have h1 : Kept s0 v1 := State.onCn_kept h_s
  clear_value v1
  extract_lets +onlyGivenNames v2
  have h2 : Kept s0 v2 := State.onLv_kept h1
  clear_value v2
  extract_lets +onlyGivenNames v3
  have h3 : Kept s0 v3 := State.traceCan_kept h2
  clear_value v3
  exact kept_ite (State.bilvaTake_kept h3) (State.deliver_kept h3)

theorem execCanFrameReceived_kept {s0 : State} {port f s} (h_s : Kept s0 s) : Done s0 (execCanFrameReceived port f s) := by
  unfold execCanFrameReceived
  extract_lets +onlyGivenNames v0
  clear_value v0
  exact done_ite (done_next h_s) (done_next (State.canReceive_kept h_s))

theorem State.rxLock_kept {s0 : State} {s p i r} (h_s : Kept s0 s) : Kept s0 (State.rxLock s p i r) :=  by
  have h1 : Kept s0 (match (s.cn p).locks.find? fun l => l.2 = r with
      | some l => if l.1 = i then s else s.onCn p fun x => { x with locks := x.locks.filter fun l => l.2 ≠ r }
      | none => s) := by
    split
    · exact kept_ite h_s (State.onCn_kept h_s)
    · exact h_s
  exact kept_ite (State.onCn_kept h1) h1

theorem State.rxRelease_kept {s0 : State} {s p i r} (h_s : Kept s0 s) : Kept s0 (State.rxRelease s p i r) := by
  unfold State.rxRelease
  exact kept_ite (State.onCn_kept h_s) h_s

theorem execRxSlotLock_kept {s0 : State} {port slot reader s} (h_s : Kept s0 s) :
    Done s0 (execRxSlotLock port slot reader s) := by
  unfold execRxSlotLock
  exact done_ite (done_next (State.rxLock_kept h_s)) (done_next h_s)

theorem execRxSlotRelease_kept {s0 : State} {port slot reader s} (h_s : Kept s0 s) :
    Done s0 (execRxSlotRelease port slot reader s) := by
  unfold execRxSlotRelease
  exact done_ite (done_next (State.rxRelease_kept h_s)) (done_next h_s)

theorem State.msgRead_kept {s0 : State} {s a r} (h_s : Kept s0 s) : Kept s0 (State.msgRead s a r) := by
  unfold State.msgRead
  extract_lets +onlyGivenNames v0
  clear_value v0
  extract_lets +onlyGivenNames v1
  clear_value v1
  extract_lets +onlyGivenNames v2
  clear_value v2
  exact kept_ite h_s (kept_ite h_s (kept_ite (State.rxLock_kept h_s) (kept_ite (State.rxRelease_kept h_s) h_s)))

theorem State.txStart_kept {s0 : State} {s p} (h_s : Kept s0 s) : Kept s0 (State.txStart s p) := by
  unfold State.txStart
  refine kept_ite h_s ?_
  split
  · split
    · exact State.onCn_kept h_s
    · exact h_s
  · exact h_s

theorem State.canTxReq_kept {s0 : State} {s m p v} (h_s : Kept s0 s) : Kept s0 (State.canTxReq s m p v) := by
  unfold State.canTxReq
  refine State.txStart_kept ?_
  refine forN_kept ?_ h_s
  intro x3 t4 h5
  refine kept_ite h5 ?_
  split
  · exact State.refuseBy_kept h5
  · exact State.onCn_kept h5

theorem State.canTxAbort_kept {s0 : State} {s p v} (h_s : Kept s0 s) : Kept s0 (State.canTxAbort s p v) := by
  unfold State.canTxAbort
  exact State.onCn_kept h_s

theorem execCanTxRequest_kept {s0 : State} {port v s} (h_s : Kept s0 s) : Done s0 (execCanTxRequest port v s) := by
  unfold execCanTxRequest
  exact done_ite (done_next (State.canTxReq_kept (State.touch_kept h_s))) (done_next h_s)

theorem execCanTxAbort_kept {s0 : State} {port v s} (h_s : Kept s0 s) : Done s0 (execCanTxAbort port v s) := by
  unfold execCanTxAbort
  exact done_ite (done_next (State.canTxAbort_kept (State.touch_kept h_s))) (done_next h_s)

theorem State.bilvaSend_kept {s0 : State} {s p prio type sub data sync} (h_s : Kept s0 s) :
    Kept s0 (State.bilvaSend s p prio type sub data sync) := by
  unfold State.bilvaSend
  extract_lets +onlyGivenNames v0
  clear_value v0
  extract_lets +onlyGivenNames v1
  clear_value v1
  extract_lets +onlyGivenNames v2
  clear_value v2
  exact kept_ite h_s (State.onCn_kept h_s)

theorem State.sendFollowUp_kept {s0 : State} {s p q t} (h_s : Kept s0 s) : Kept s0 (State.sendFollowUp s p q t) := by
  unfold State.sendFollowUp
  extract_lets +onlyGivenNames v0
  clear_value v0
  extract_lets +onlyGivenNames v1
  extract_lets +onlyGivenNames v2
  clear_value v2
  extract_lets +onlyGivenNames v3
  clear_value v3
  exact State.bilvaSend_kept h_s

theorem execCanTxDone_kept {s0 : State} {port tdc s} (h_s : Kept s0 s) : Done s0 (execCanTxDone port tdc s) := by
  unfold execCanTxDone
  extract_lets +onlyGivenNames v0
  clear_value v0
  extract_lets +onlyGivenNames v1
  clear_value v1
  split
  · exact done_next h_s
  · extract_lets +onlyGivenNames v2
    clear_value v2
    extract_lets +onlyGivenNames v3
    clear_value v3
    extract_lets +onlyGivenNames v4
    clear_value v4
    extract_lets +onlyGivenNames v5
    have h5 : Kept s0 v5 := State.onLv_kept h_s
    clear_value v5
    extract_lets +onlyGivenNames v6
    have h6 : Kept s0 v6 := kept_ite (State.setLv_kept h5) h5
    clear_value v6
    extract_lets +onlyGivenNames v7
    have h7 : Kept s0 v7 := State.traceCan_kept h6
    clear_value v7
    extract_lets +onlyGivenNames v8
    have h8 : Kept s0 v8 := State.onCn_kept h7
    clear_value v8
    extract_lets +onlyGivenNames v9
    have h9 : Kept s0 v9 := State.onCn_kept h8
    clear_value v9
    extract_lets +onlyGivenNames v10
    have h10 : Kept s0 v10 := kept_ite (State.onLv_kept h9) h9
    clear_value v10
    extract_lets +onlyGivenNames v11
    have h11 : Kept s0 v11 := by
      unfold v11
      refine kept_ite (State.event_kept (State.onLv_kept (State.onCn_kept h8))) ?_
      split
      · exact State.sendFollowUp_kept h10
      · exact h10
    clear_value v11
    extract_lets +onlyGivenNames v12
    have h12 : Kept s0 v12 := kept_ite (State.canReceive_kept h11) h11
    clear_value v12
    exact done_ite (done_next h_s) (done_next (State.txStart_kept h12))

theorem State.canOff_kept {s0 : State} {s p} (h_s : Kept s0 s) : Kept s0 (State.canOff s p) := by
  unfold State.canOff
  extract_lets +onlyGivenNames v0
  clear_value v0
  extract_lets +onlyGivenNames v1
  have h1 : Kept s0 v1 := State.onCn_kept h_s
  clear_value v1
  exact kept_ite h_s (State.onsetWith_kept (State.raise_kept (State.pfault_kept (State.event_kept h1))))

theorem execCanBusoff_kept {s0 : State} {port s} (h_s : Kept s0 s) : Done s0 (execCanBusoff port s) := by
  unfold execCanBusoff
  extract_lets +onlyGivenNames v0
  clear_value v0
  exact done_ite (done_next h_s) (done_next (State.canOff_kept (State.onCn_kept h_s)))

theorem execCanBusError_kept {s0 : State} {port tec rec integ s} (h_s : Kept s0 s) :
    Done s0 (execCanBusError port tec rec integ s) := by
  unfold execCanBusError
  extract_lets +onlyGivenNames v0
  clear_value v0
  extract_lets +onlyGivenNames v1
  clear_value v1
  extract_lets +onlyGivenNames v2
  clear_value v2
  extract_lets +onlyGivenNames v3
  clear_value v3
  extract_lets +onlyGivenNames v4
  clear_value v4
  extract_lets +onlyGivenNames v5
  clear_value v5
  extract_lets +onlyGivenNames v6
  clear_value v6
  extract_lets +onlyGivenNames v7
  clear_value v7
  extract_lets +onlyGivenNames v8
  have h8 : Kept s0 v8 := kept_ite (State.event_kept h_s) h_s
  clear_value v8
  extract_lets +onlyGivenNames v9
  have h9 : Kept s0 v9 := kept_ite (State.event_kept h8) h8
  clear_value v9
  extract_lets +onlyGivenNames v10
  have h10 : Kept s0 v10 := State.onCn_kept h9
  clear_value v10
  extract_lets +onlyGivenNames v11
  have h11 : Kept s0 v11 := by
    unfold v11
    split
    · exact kept_ite (State.onCn_kept h10) h10
    · exact h10
  clear_value v11
  exact done_ite (done_next h_s) (done_ite (done_next (State.onCn_kept h_s)) (done_ite (done_next h_s) (done_next (kept_ite (State.canOff_kept h11) h11))))

theorem State.canRecover_kept {s0 : State} {s p} (h_s : Kept s0 s) : Kept s0 (State.canRecover s p) := by
  unfold State.canRecover
  extract_lets +onlyGivenNames v0
  clear_value v0
  exact kept_ite (State.onChan_kept (State.onCn_kept h_s)) h_s

theorem execCanRecover_kept {s0 : State} {port s} (h_s : Kept s0 s) : Done s0 (execCanRecover port s) := by
  unfold execCanRecover
  exact done_ite (done_next (State.canRecover_kept (State.touch_kept h_s))) (done_next h_s)

theorem execCanRecovered_kept {s0 : State} {port s} (h_s : Kept s0 s) : Done s0 (execCanRecovered port s) := by
  unfold execCanRecovered
  extract_lets +onlyGivenNames v0
  clear_value v0
  extract_lets +onlyGivenNames v1
  have h1 : Kept s0 v1 := State.onCn_kept h_s
  clear_value v1
  extract_lets +onlyGivenNames v2
  have h2 : Kept s0 v2 := State.backInService_kept (State.event_kept h1)
  clear_value v2
  extract_lets +onlyGivenNames v3
  have h3 : Kept s0 v3 := kept_ite h2 (State.clearSrc_kept h2)
  clear_value v3
  exact done_ite (done_next h_s) (done_next (State.txStart_kept h3))

theorem execBilvaForward_kept {s0 : State} {port s} (h_s : Kept s0 s) : Done s0 (execBilvaForward port s) := by
  unfold execBilvaForward
  extract_lets +onlyGivenNames v0
  clear_value v0
  split
  · exact done_next h_s
  · exact done_ite (done_next h_s) (done_next (State.onCn_kept h_s))

end Sys2Proof.Machine
end

