-- ==== Sys2Proof/Laws/KeptBilva.lean ====
section
/-!
SUPPORT. What the operations of Machine/Bilva.lean keep: one lemma each, from any state reached.
-/
namespace Sys2Proof.Machine

open Sys2Proof.Safety

theorem State.bilvaAll_kept {s0 : State} {s prio type sub data} (h_s : Kept s0 s) :
    Kept s0 (State.bilvaAll s prio type sub data) := by
  unfold State.bilvaAll
  exact forL_kept (fun _ _ h0 => State.bilvaSend_kept h0) h_s

theorem State.setNt_kept {s0 : State} {s x} (h_s : Kept s0 s) : Kept s0 (State.setNt s x) := by
  unfold State.setNt
  extract_lets +onlyGivenNames v0
  clear_value v0
  extract_lets +onlyGivenNames v1
  have h1 : Kept s0 v1 := State.onTime_kept h_s
  clear_value v1
  exact kept_ite (State.cancelStrikeAt_kept (State.raise_kept h1)) (kept_ite (State.clearSrc_kept h1) h1)

theorem State.ntJump_kept {s0 : State} {s} (h_s : Kept s0 s) : Kept s0 (State.ntJump s) := by
  unfold State.ntJump
  exact State.cancelStrikeAt_kept h_s

theorem State.setRate_kept {s0 : State} {s rho clamped} (h_s : Kept s0 s) : Kept s0 (State.setRate s rho clamped) := by
  unfold State.setRate
  extract_lets +onlyGivenNames v0
  clear_value v0
  exact State.onTime_kept h_s

theorem State.relockNode_kept {s0 : State} {s} (h_s : Kept s0 s) : Kept s0 (State.relockNode s) := by
  unfold State.relockNode
  extract_lets +onlyGivenNames v0
  have h0 : Kept s0 v0 := State.onTime_kept h_s
  clear_value v0
  extract_lets +onlyGivenNames v1
  have h1 : Kept s0 v1 := State.stopT_kept h0
  clear_value v1
  exact kept_ite h1 (State.ntJump_kept (State.setNt_kept h1))

theorem State.relockBy_kept {s0 : State} {s m} (h_s : Kept s0 s) : Kept s0 (State.relockBy s m) := by
  unfold State.relockBy
  exact kept_ite (State.refuseBy_kept h_s) (State.relockNode_kept h_s)

theorem execRelock_kept {s0 : State} {s} (h_s : Kept s0 s) : Done s0 (execRelock s) := by
  unfold execRelock
  exact done_ite (done_next (State.relockBy_kept (State.touch_kept h_s))) (done_next h_s)

theorem State.ntSetBy_kept {s0 : State} {s m} (h_s : Kept s0 s) : Kept s0 (State.ntSetBy s m) := by
  unfold State.ntSetBy
  extract_lets +onlyGivenNames v0
  clear_value v0
  exact kept_ite (State.refuseBy_kept h_s) (State.ntJump_kept (State.onTime_kept h_s))

theorem execNtSet_kept {s0 : State} {s} (h_s : Kept s0 s) : Done s0 (execNtSet s) := by
  unfold execNtSet
  exact done_ite (done_next (State.ntSetBy_kept (State.touch_kept h_s))) (done_next h_s)

theorem State.bcastBy_kept {s0 : State} {s m} (h_s : Kept s0 s) : Kept s0 (State.bcastBy s m) := by
  unfold State.bcastBy
  extract_lets +onlyGivenNames v0
  have h0 : Kept s0 v0 := State.onTime_kept h_s
  clear_value v0
  exact kept_ite (State.refuseBy_kept h_s) (State.bilvaAll_kept h0)

theorem execBcastRelock_kept {s0 : State} {s} (h_s : Kept s0 s) : Done s0 (execBcastRelock s) := by
  unfold execBcastRelock
  exact done_ite (done_next (State.bcastBy_kept (State.touch_kept h_s))) (done_next h_s)

theorem State.stepGenHeard_kept {s0 : State} {s g} (h_s : Kept s0 s) : Kept s0 (State.stepGenHeard s g) := by
  unfold State.stepGenHeard
  extract_lets +onlyGivenNames v0
  clear_value v0
  extract_lets +onlyGivenNames v1
  have h1 : Kept s0 v1 := State.onTime_kept h_s
  clear_value v1
  exact kept_ite h_s (kept_ite h1 (State.relockNode_kept h1))

theorem State.bilvaFrom_kept {s0 : State} {s p node act} (h_s : Kept s0 s) (h_act : ∀ t0, Kept s0 t0 → Kept s0 (act t0)) :
    Kept s0 (State.bilvaFrom s p node act) := by
  unfold State.bilvaFrom
  exact kept_ite h_s (kept_ite (State.nodeConflict_kept h_s) (h_act _ h_s))

theorem execTimeCtrl_kept {s0 : State} {port node sub stepGen s} (h_s : Kept s0 s) :
    Done s0 (execTimeCtrl port node sub stepGen s) := by
  unfold execTimeCtrl
  exact done_next (State.bilvaFrom_kept h_s (fun _ h0 => kept_ite (State.stepGenHeard_kept h0) h0))

theorem execBilvaSync_kept {s0 : State} {port node sq s} (h_s : Kept s0 s) : Done s0 (execBilvaSync port node sq s) := by
  unfold execBilvaSync
  exact done_next (State.bilvaFrom_kept h_s (fun _ h0 => kept_ite h0 (State.onTime_kept h0)))

theorem State.jumpRefused_kept {s0 : State} {s new} (h_s : Kept s0 s) : Kept s0 (State.jumpRefused s new) := by
  unfold State.jumpRefused
  extract_lets +onlyGivenNames v0
  have h0 : Kept s0 v0 := State.onLv_kept h_s
  clear_value v0
  extract_lets +onlyGivenNames v1
  have h1 : Kept s0 v1 := State.ntJump_kept (State.raisePulse_kept h0)
  clear_value v1
  extract_lets +onlyGivenNames v2
  have h2 : Kept s0 v2 := kept_ite (State.onTime_kept h1) h1
  clear_value v2
  exact kept_ite (State.startT_kept (State.setNt_kept h2)) h2

theorem State.exchangeAccepted_kept {s0 : State} {s} (h_s : Kept s0 s) : Kept s0 (State.exchangeAccepted s) := by
  unfold State.exchangeAccepted
  extract_lets +onlyGivenNames v0
  have h0 : Kept s0 v0 := State.onLv_kept h_s
  clear_value v0
  extract_lets +onlyGivenNames v1
  have h1 : Kept s0 v1 := State.onTime_kept h0
  clear_value v1
  exact State.startT_kept (State.stopT_kept (State.stopT_kept h1))

theorem State.correctRate_kept {s0 : State} {s t1 t2 err} (h_s : Kept s0 s) : Kept s0 (State.correctRate s t1 t2 err) := by
  unfold State.correctRate
  extract_lets +onlyGivenNames v0
  clear_value v0
  extract_lets +onlyGivenNames v1
  clear_value v1
  extract_lets +onlyGivenNames v2
  clear_value v2
  extract_lets +onlyGivenNames v3
  clear_value v3
  extract_lets +onlyGivenNames v4
  have h4 : Kept s0 v4 := State.setRate_kept h_s
  clear_value v4
  exact State.onTime_kept h4

theorem State.exchange_kept {s0 : State} {s node t1 t2 pd} (h_s : Kept s0 s) :
    Kept s0 (State.exchange s node t1 t2 pd) := by
  unfold State.exchange
  extract_lets +onlyGivenNames v0
  clear_value v0
  extract_lets +onlyGivenNames v1
  clear_value v1
  extract_lets +onlyGivenNames v2
  clear_value v2
  extract_lets +onlyGivenNames v3
  have h3 : Kept s0 v3 := State.onTime_kept h_s
  clear_value v3
  extract_lets +onlyGivenNames v4
  have h4 : Kept s0 v4 := State.exchangeAccepted_kept (State.setLv_kept h3)
  clear_value v4
  extract_lets +onlyGivenNames v5
  have h5 : Kept s0 v5 := State.onTime_kept h4
  clear_value v5
  extract_lets +onlyGivenNames v6
  have h6 : Kept s0 v6 := State.setLv_kept h3
  clear_value v6
  extract_lets +onlyGivenNames v7
  have h7 : Kept s0 v7 := State.correctRate_kept (State.exchangeAccepted_kept h6)
  clear_value v7
  extract_lets +onlyGivenNames v8
  clear_value v8
  refine kept_ite (kept_ite h3 (State.ntJump_kept (State.setNt_kept h5))) ?_
  refine kept_ite (State.jumpRefused_kept h6) ?_
  split
  · extract_lets +onlyGivenNames v9
    clear_value v9
    extract_lets +onlyGivenNames v10
    have h10 : Kept s0 v10 := State.onTime_kept h7
    clear_value v10
    exact kept_ite (State.setNt_kept h10) h10
  · exact State.setNt_kept (State.onTime_kept h7)

theorem execFollowUp_kept {s0 : State} {port node sq t1 gm hops stepGen s} (h_s : Kept s0 s) :
    Done s0 (execFollowUp port node sq t1 gm hops stepGen s) := by
  unfold execFollowUp
  refine done_next ?_
  refine State.bilvaFrom_kept h_s ?_
  intro t2 h3
  extract_lets +onlyGivenNames v4
  clear_value v4
  refine kept_ite (State.stepGenHeard_kept h3) ?_
  split
  · extract_lets +onlyGivenNames v5
    have h5 : Kept s0 v5 := State.onTime_kept h3
    clear_value v5
    exact kept_ite (State.stepGenHeard_kept h3) (State.exchange_kept (State.stepGenHeard_kept h5))
  · exact State.stepGenHeard_kept h3

theorem execMasterLoss_kept {s0 : State} {s} (h_s : Kept s0 s) : Done s0 (execMasterLoss s) := by
  unfold execMasterLoss
  refine done_next ?_
  refine State.expire_kept h_s ?_
  intro t2 h3
  extract_lets +onlyGivenNames v4
  clear_value v4
  extract_lets +onlyGivenNames v5
  have h5 : Kept s0 v5 := State.onTime_kept h3
  clear_value v5
  extract_lets +onlyGivenNames v6
  have h6 : Kept s0 v6 := by
    unfold v6
    split
    · exact State.setNt_kept (State.onTime_kept h5)
    · exact State.startT_kept (State.setNt_kept h5)
    · exact h5
  clear_value v6
  exact kept_ite (State.startT_kept h6) h6

theorem execBackupMasterStart_kept {s0 : State} {s} (h_s : Kept s0 s) : Done s0 (execBackupMasterStart s) := by
  unfold execBackupMasterStart
  exact done_next (State.expire_kept h_s (fun _ h0 => kept_ite (State.onTime_kept h0) h0))

theorem execHoldoverExpiry_kept {s0 : State} {s} (h_s : Kept s0 s) : Done s0 (execHoldoverExpiry s) := by
  unfold execHoldoverExpiry
  exact done_next (State.expire_kept h_s (fun _ h0 => kept_ite (State.setNt_kept (State.onTime_kept h0)) h0))

theorem execSyncSend_kept {s0 : State} {port s} (h_s : Kept s0 s) : Done s0 (execSyncSend port s) := by
  unfold execSyncSend
  extract_lets +onlyGivenNames v0
  clear_value v0
  extract_lets +onlyGivenNames v1
  have h1 : Kept s0 v1 := by
    unfold v1
    split
    · exact State.reach_kept h_s
    · exact h_s
  clear_value v1
  extract_lets +onlyGivenNames v2
  clear_value v2
  extract_lets +onlyGivenNames v3
  have h3 : Kept s0 v3 := State.bilvaSend_kept h1
  clear_value v3
  extract_lets +onlyGivenNames v4
  have h4 : Kept s0 v4 := State.onTime_kept h3
  clear_value v4
  exact done_ite (done_next (State.stopT_kept h_s)) (done_next (State.startT_kept h4))

theorem State.ntRoleBoundary_kept {s0 : State} {s} (h_s : Kept s0 s) : Kept s0 (State.ntRoleBoundary s) := by
  unfold State.ntRoleBoundary
  extract_lets +onlyGivenNames v0
  have h0 : Kept s0 v0 := State.onTime_kept h_s
  clear_value v0
  exact kept_ite (kept_ite h_s (State.setNt_kept (State.stopT_kept (State.stopT_kept (State.stopT_kept h0))))) (kept_ite (State.setNt_kept h_s) h_s)

theorem State.strikeAckSend_kept {s0 : State} {s tag orig code} (h_s : Kept s0 s) :
    Kept s0 (State.strikeAckSend s tag orig code) := by
  unfold State.strikeAckSend
  exact State.bilvaAll_kept h_s

theorem State.netStrike_kept {s0 : State} {s t tag orig} (h_s : Kept s0 s) : Kept s0 (State.netStrike s t tag orig) := by
  unfold State.netStrike
  extract_lets +onlyGivenNames v0
  clear_value v0
  extract_lets +onlyGivenNames v1
  clear_value v1
  extract_lets +onlyGivenNames v2
  have h2 : Kept s0 v2 := kept_ite (State.armStrikeAt_kept h_s) (State.refuse_kept h_s)
  clear_value v2
  exact kept_ite h_s (State.strikeAckSend_kept h2)

theorem execBilvaStrikeAt_kept {s0 : State} {port node t tag orig s} (h_s : Kept s0 s) :
    Done s0 (execBilvaStrikeAt port node t tag orig s) := by
  unfold execBilvaStrikeAt
  exact done_next (State.bilvaFrom_kept h_s (fun _ h0 => State.netStrike_kept h0))

theorem execStrikeCancel_kept {s0 : State} {port node tag orig s} (h_s : Kept s0 s) :
    Done s0 (execStrikeCancel port node tag orig s) := by
  unfold execStrikeCancel
  extract_lets +onlyGivenNames v0
  clear_value v0
  exact done_next (State.bilvaFrom_kept h_s (fun _ h1 => kept_ite (State.cancelStrikeAt_kept h1) h1))

theorem execStrikeAck_kept {s0 : State} {port node tag orig code st s} (h_s : Kept s0 s) :
    Done s0 (execStrikeAck port node tag orig code st s) := by
  unfold execStrikeAck
  extract_lets +onlyGivenNames v0
  clear_value v0
  exact done_next (State.bilvaFrom_kept h_s (fun _ h1 => kept_ite h1 (kept_ite (State.event_kept (State.incHalf_kept h1)) (State.event_kept (State.setLv_kept (State.incHalf_kept h1))))))

theorem State.netSend_kept {s0 : State} {s loc} (h_s : Kept s0 s) : Kept s0 (State.netSend s loc) := by
  unfold State.netSend
  extract_lets +onlyGivenNames v0
  clear_value v0
  extract_lets +onlyGivenNames v1
  clear_value v1
  extract_lets +onlyGivenNames v2
  clear_value v2
  extract_lets +onlyGivenNames v3
  have h3 : Kept s0 v3 := State.bilvaAll_kept (State.setLv_kept h_s)
  clear_value v3
  exact kept_ite (State.netStrike_kept h3) h3

theorem execNetstrikeSend_kept {s0 : State} {loc s} (h_s : Kept s0 s) : Done s0 (execNetstrikeSend loc s) := by
  unfold execNetstrikeSend
  exact done_ite (done_next (State.netSend_kept (State.touch_kept h_s))) (done_next h_s)

theorem State.netCancel_kept {s0 : State} {s} (h_s : Kept s0 s) : Kept s0 (State.netCancel s) := by
  unfold State.netCancel
  exact State.bilvaAll_kept h_s

theorem execNetstrikeCancel_kept {s0 : State} {s} (h_s : Kept s0 s) : Done s0 (execNetstrikeCancel s) := by
  unfold execNetstrikeCancel
  exact done_ite (done_next (State.netCancel_kept (State.touch_kept h_s))) (done_next h_s)

theorem State.shareSend_kept {s0 : State} {s g} (h_s : Kept s0 s) : Kept s0 (State.shareSend s g) := by
  unfold State.shareSend
  split
  · rename_i x0 t1 x2 e3
    have h4 := kept1_fst (State.sharePublish_kept h_s) e3
    extract_lets +onlyGivenNames v5
    clear_value v5
    extract_lets +onlyGivenNames v6
    clear_value v6
    extract_lets +onlyGivenNames v7
    clear_value v7
    extract_lets +onlyGivenNames v8
    have h8 : Kept s0 v8 := by
      unfold v8
      split
      · exact State.bilvaSend_kept h4
      · exact h4
    clear_value v8
    exact kept_ite (State.bilvaSend_kept h8) h8

theorem execTimePulse_kept {s0 : State} {out active s} (h_s : Kept s0 s) : Done s0 (execTimePulse out active s) := by
  unfold execTimePulse
  extract_lets +onlyGivenNames v0
  clear_value v0
  extract_lets +onlyGivenNames v1
  have h1 : Kept s0 v1 := State.reach_kept h_s
  clear_value v1
  extract_lets +onlyGivenNames v2
  have h2 : Kept s0 v2 := State.reach_kept h_s
  clear_value v2
  exact done_ite (done_next h_s) (done_ite (done_next (State.onTime_kept h1)) (done_ite (done_next (State.onTime_kept h2)) (done_next h_s)))

end Sys2Proof.Machine
end

