-- ==== Sys2Proof/Laws/KeptDma.lean ====
section
/-!
SUPPORT. What the operations of Machine/Dma.lean keep: one lemma each, from any state reached.
-/
namespace Sys2Proof.Machine

open Sys2Proof.Safety

theorem State.dmaWriteBack_kept {s0 : State} {s ch d elements result} (h_s : Kept s0 s) :
    Kept s0 (State.dmaWriteBack s ch d elements result) := by
  unfold State.dmaWriteBack
  extract_lets +onlyGivenNames v0
  clear_value v0
  extract_lets +onlyGivenNames v1
  clear_value v1
  extract_lets +onlyGivenNames v2
  clear_value v2
  extract_lets +onlyGivenNames v3
  have h3 : Kept s0 v3 := State.putWords_kept h_s
  clear_value v3
  extract_lets +onlyGivenNames v4
  have h4 : Kept s0 v4 := State.setLv_kept (State.inc32_kept h3)
  clear_value v4
  extract_lets +onlyGivenNames v5
  have h5 : Kept s0 v5 := State.onDm_kept h4
  clear_value v5
  exact kept_ite (State.event_kept h5) h5

theorem State.dmaError_kept {s0 : State} {s ch} (h_s : Kept s0 s) : Kept s0 (State.dmaError s ch) := by
  unfold State.dmaError
  exact State.pfault_kept (State.event_kept (State.onDm_kept h_s))

theorem State.dmaHalt_kept {s0 : State} {s ch addr info write} (h_s : Kept s0 s) :
    Kept s0 (State.dmaHalt s ch addr info write) := by
  unfold State.dmaHalt
  extract_lets +onlyGivenNames v0
  have h0 : Kept s0 v0 := State.dmaError_kept h_s
  clear_value v0
  extract_lets +onlyGivenNames v1
  have h1 : Kept s0 v1 := by
    unfold v1
    exact Kept.plain h0 rfl rfl rfl rfl rfl rfl rfl (by simp [unitCounts])
  clear_value v1
  extract_lets +onlyGivenNames v2
  have h2 : Kept s0 v2 := State.setLv_kept (State.setLv_kept (State.onLv_kept h1))
  clear_value v2
  extract_lets +onlyGivenNames v3
  have h3 : Kept s0 v3 := State.raisePulse_kept (State.pfault_kept (State.event_kept (State.inc16_kept h2)))
  clear_value v3
  extract_lets +onlyGivenNames v4
  clear_value v4
  exact kept_ite h0 (kept_ite h3 (State.startT_kept h3))

theorem State.dmaStart_kept {s0 : State} {s ch} (h_s : Kept s0 s) : Kept s0 (State.dmaStart s ch) := by
  unfold State.dmaStart
  extract_lets +onlyGivenNames v0
  clear_value v0
  extract_lets +onlyGivenNames v1
  clear_value v1
  extract_lets +onlyGivenNames v2
  clear_value v2
  extract_lets +onlyGivenNames v3
  have h3 : Kept s0 v3 := State.onDm_kept h_s
  clear_value v3
  split
  · exact State.dmaHalt_kept h3
  · extract_lets +onlyGivenNames v4
    clear_value v4
    extract_lets +onlyGivenNames v5
    have h5 : Kept s0 v5 := State.dmaError_kept (State.dmaWriteBack_kept h3)
    clear_value v5
    exact kept_ite (State.onDm_kept h3) (kept_ite (State.raisePulse_kept (State.pfault_kept (State.event_kept h5))) (State.onDm_kept h3))

theorem State.dmaPend_kept {s0 : State} {s ch} (h_s : Kept s0 s) : Kept s0 (State.dmaPend s ch) := by
  unfold State.dmaPend
  exact kept_ite (State.onDm_kept h_s) (State.incHalf_kept h_s)

theorem State.dmaTrigger_kept {s0 : State} {s ch} (h_s : Kept s0 s) : Kept s0 (State.dmaTrigger s ch) := by
  unfold State.dmaTrigger
  refine kept_ite h_s ?_
  split
  · exact h_s
  · exact kept_ite (State.dmaPend_kept h_s) (State.dmaStart_kept h_s)

theorem State.dmaTakePending_kept {s0 : State} {s ch} (h_s : Kept s0 s) : Kept s0 (State.dmaTakePending s ch) := by
  unfold State.dmaTakePending
  extract_lets +onlyGivenNames v0
  clear_value v0
  exact kept_ite (State.dmaStart_kept (State.onDm_kept h_s)) h_s

theorem State.dmaEnd_kept {s0 : State} {s ch elements result} (h_s : Kept s0 s) :
    Kept s0 (State.dmaEnd s ch elements result) := by
  unfold State.dmaEnd
  split
  · exact h_s
  · extract_lets +onlyGivenNames v0
    clear_value v0
    extract_lets +onlyGivenNames v1
    have h1 : Kept s0 v1 := State.dmaWriteBack_kept h_s
    clear_value v1
    extract_lets +onlyGivenNames v2
    have h2 : Kept s0 v2 := kept_ite (forN_kept (fun _ _ h3 => kept_ite (State.dmaTrigger_kept h3) h3) h1) h1
    clear_value v2
    exact kept_ite (State.onDm_kept h2) (kept_ite (State.dmaStart_kept h2) (State.dmaTakePending_kept h2))

theorem State.dmaGo_kept {s0 : State} {s ch} (h_s : Kept s0 s) : Kept s0 (State.dmaGo s ch) := by
  unfold State.dmaGo
  extract_lets +onlyGivenNames v0
  clear_value v0
  extract_lets +onlyGivenNames v1
  have h1 : Kept s0 v1 := kept_ite (State.onDm_kept h_s) h_s
  clear_value v1
  exact kept_ite h_s (kept_ite (State.dmaTrigger_kept h1) (kept_ite (State.dmaTakePending_kept (State.onDm_kept h1)) h1))

theorem State.dmaStop_kept {s0 : State} {s ch} (h_s : Kept s0 s) : Kept s0 (State.dmaStop s ch) := by
  unfold State.dmaStop
  extract_lets +onlyGivenNames v0
  have h0 : Kept s0 v0 := by
    unfold v0
    split
    · exact State.dmaWriteBack_kept h_s
    · exact h_s
  exact kept_ite h0 (State.onDm_kept h0)

theorem State.dmaKick_kept {s0 : State} {s ch} (h_s : Kept s0 s) : Kept s0 (State.dmaKick s ch) := by
  unfold State.dmaKick
  exact kept_ite (State.dmaStart_kept h_s) h_s

theorem State.chCmd_kept {s0 : State} {s ch v} (h_s : Kept s0 s) : Kept s0 (State.chCmd s ch v) := by
  unfold State.chCmd
  extract_lets +onlyGivenNames v0
  have h0 : Kept s0 v0 := kept_ite (State.dmaStop_kept h_s) h_s
  clear_value v0
  extract_lets +onlyGivenNames v1
  have h1 : Kept s0 v1 := kept_ite (State.dmaGo_kept h0) h0
  clear_value v1
  exact kept_ite (State.dmaKick_kept h1) h1

theorem State.dmaResumeNow_kept {s0 : State} {s} (h_s : Kept s0 s) : Kept s0 (State.dmaResumeNow s) := by
  unfold State.dmaResumeNow
  extract_lets +onlyGivenNames v0
  have h0 : Kept s0 v0 := by
    unfold v0
    exact Kept.plain h_s rfl rfl rfl rfl rfl rfl rfl (by simp [unitCounts])
  clear_value v0
  extract_lets +onlyGivenNames v1
  have h1 : Kept s0 v1 := State.event_kept (State.stopT_kept h0)
  clear_value v1
  refine forN_kept ?_ h1
  intro x3 t4 h5
  extract_lets +onlyGivenNames v6
  clear_value v6
  exact kept_ite h5 (State.dmaStart_kept (State.onDm_kept h5))

theorem State.dmaCmd_kept {s0 : State} {s m v} (h_s : Kept s0 s) : Kept s0 (State.dmaCmd s m v) := by
  unfold State.dmaCmd
  exact kept_ite h_s (kept_ite (State.dmaResumeNow_kept h_s) (State.refuseBy_kept h_s))

theorem execDmaGo_kept {s0 : State} {c s} (h_s : Kept s0 s) : Done s0 (execDmaGo c s) := by
  unfold execDmaGo
  exact done_ite (done_next (State.dmaGo_kept (State.touch_kept h_s))) (done_next h_s)

theorem execDmaStop_kept {s0 : State} {c s} (h_s : Kept s0 s) : Done s0 (execDmaStop c s) := by
  unfold execDmaStop
  exact done_ite (done_next (State.dmaStop_kept (State.touch_kept h_s))) (done_next h_s)

theorem execDmaKick_kept {s0 : State} {c s} (h_s : Kept s0 s) : Done s0 (execDmaKick c s) := by
  unfold execDmaKick
  exact done_ite (done_next (State.dmaKick_kept (State.touch_kept h_s))) (done_next h_s)

theorem execDmaResume_kept {s0 : State} {s} (h_s : Kept s0 s) : Done s0 (execDmaResume s) := by
  unfold execDmaResume
  exact done_ite (done_next (State.dmaCmd_kept (State.touch_kept h_s))) (done_next h_s)

theorem execDmaAutoResume_kept {s0 : State} {s} (h_s : Kept s0 s) : Done s0 (execDmaAutoResume s) := by
  unfold execDmaAutoResume
  exact done_next (State.expire_kept h_s (fun _ h0 => State.dmaResumeNow_kept h0))

theorem execDmaRequest_kept {s0 : State} {line s} (h_s : Kept s0 s) : Done s0 (execDmaRequest line s) := by
  unfold execDmaRequest
  refine done_ite (done_next h_s) ?_
  refine done_next ?_
  refine forN_kept ?_ h_s
  intro x4 t5 h6
  extract_lets +onlyGivenNames v7
  clear_value v7
  exact kept_ite (State.dmaTrigger_kept h6) h6

theorem execDmaPeriodTrigger_kept {s0 : State} {c s} (h_s : Kept s0 s) : Done s0 (execDmaPeriodTrigger c s) := by
  unfold execDmaPeriodTrigger
  extract_lets +onlyGivenNames v0
  clear_value v0
  extract_lets +onlyGivenNames v1
  clear_value v1
  exact done_ite (done_next (State.dmaTrigger_kept (State.onDm_kept (State.reach_kept h_s)))) (done_next h_s)

theorem State.dmaFrame_kept {s0 : State} {s} (h_s : Kept s0 s) : Kept s0 (State.dmaFrame s) := by
  unfold State.dmaFrame
  refine forN_kept ?_ h_s
  intro x1 t2 h3
  extract_lets +onlyGivenNames v4
  clear_value v4
  extract_lets +onlyGivenNames v5
  clear_value v5
  exact kept_ite (State.dmaTrigger_kept h3) h3

theorem State.dmaStrikeStop_kept {s0 : State} {s changed} (h_s : Kept s0 s) : Kept s0 (State.dmaStrikeStop s changed) := by
  unfold State.dmaStrikeStop
  exact forN_kept (fun _ _ h0 => kept_ite (State.onDm_kept (State.dmaStop_kept h0)) h0) h_s

end Sys2Proof.Machine
end

