-- ==== Sys2Proof/Laws/KeptTrace.lean ====
section
/-!
SUPPORT. What the operations of Machine/Trace.lean keep: one lemma each, from any state reached.
-/
namespace Sys2Proof.Machine

open Sys2Proof.Safety

theorem State.traceRecord_kept {s0 : State} {s line ws} (h_s : Kept s0 s) : Kept s0 (State.traceRecord s line ws) := by
  unfold State.traceRecord
  refine forN_kept ?_ h_s
  intro x1 t2 h3
  extract_lets +onlyGivenNames v4
  clear_value v4
  exact kept_ite (kept_ite (State.event_kept (State.inc16_kept h3)) (State.onDm_kept h3)) h3

theorem State.traceClose_kept {s0 : State} {s stopped} (h_s : Kept s0 s) : Kept s0 (State.traceClose s stopped) := by
  unfold State.traceClose
  extract_lets +onlyGivenNames v0
  clear_value v0
  extract_lets +onlyGivenNames v1
  clear_value v1
  extract_lets +onlyGivenNames v2
  clear_value v2
  extract_lets +onlyGivenNames v3
  have h3 : Kept s0 v3 := State.onLv_kept (State.putWords_kept h_s)
  clear_value v3
  extract_lets +onlyGivenNames v4
  have h4 : Kept s0 v4 := State.onTrace_kept (State.traceRecord_kept (State.event_kept h3))
  clear_value v4
  exact kept_ite (State.onTrace_kept h4) (kept_ite (State.event_kept (State.onTrace_kept h4)) (kept_ite (State.onTrace_kept h4) (kept_ite (State.onTrace_kept h4) (State.event_kept (State.onTrace_kept h4)))))

theorem State.traceMask_kept {s0 : State} {s m i ws} (h_s : Kept s0 s) : Kept s0 (State.traceMask s m i ws) := by
  unfold State.traceMask
  extract_lets +onlyGivenNames v0
  clear_value v0
  extract_lets +onlyGivenNames v1
  clear_value v1
  extract_lets +onlyGivenNames v2
  clear_value v2
  extract_lets +onlyGivenNames v3
  clear_value v3
  extract_lets +onlyGivenNames v4
  clear_value v4
  extract_lets +onlyGivenNames v5
  have h5 : Kept s0 v5 := State.onTrace_kept h_s
  clear_value v5
  extract_lets +onlyGivenNames v6
  have h6 : Kept s0 v6 := State.onTrace_kept h5
  clear_value v6
  exact kept_ite h_s (kept_ite h_s (kept_ite h5 (State.raisePulse_kept (State.pfault_kept (State.event_kept h6)))))

theorem State.traceStore_kept {s0 : State} {s ws} (h_s : Kept s0 s) : Kept s0 (State.traceStore s ws) := by
  unfold State.traceStore
  extract_lets +onlyGivenNames v0
  clear_value v0
  extract_lets +onlyGivenNames v1
  clear_value v1
  extract_lets +onlyGivenNames v2
  clear_value v2
  extract_lets +onlyGivenNames v3
  have h3 : Kept s0 v3 := State.putWords_kept h_s
  clear_value v3
  extract_lets +onlyGivenNames v4
  have h4 : Kept s0 v4 := State.inc32_kept h3
  clear_value v4
  extract_lets +onlyGivenNames v5
  have h5 : Kept s0 v5 := kept_ite (State.traceRecord_kept h4) h4
  clear_value v5
  extract_lets +onlyGivenNames v6
  have h6 : Kept s0 v6 := State.onTrace_kept h5
  clear_value v6
  split
  · exact h6
  · extract_lets +onlyGivenNames v7
    clear_value v7
    extract_lets +onlyGivenNames v8
    have h8 : Kept s0 v8 := forN_kept (fun _ _ h9 => State.traceMask_kept h9) h6
    clear_value v8
    extract_lets +onlyGivenNames v10
    have h10 : Kept s0 v10 := State.onTrace_kept h8
    clear_value v10
    exact kept_ite (State.traceClose_kept h10) h10

theorem State.traceTimes_kept {s0 : State} {s t} (h_s : Kept s0 s) : Kept s0 (State.traceTimes s t) := by
  unfold State.traceTimes
  extract_lets +onlyGivenNames v0
  clear_value v0
  exact kept_ite (forL_kept (fun _ _ h1 => State.traceFire_kept h1) h_s) h_s

theorem State.traceProbes_kept {s0 : State} {s t} (h_s : Kept s0 s) : Kept s0 (State.traceProbes s t) := by
  unfold State.traceProbes
  extract_lets +onlyGivenNames v0
  clear_value v0
  exact State.traceKind_kept h_s

theorem State.traceTake_kept {s0 : State} {s t} (h_s : Kept s0 s) : Kept s0 (State.traceTake s t) := by
  unfold State.traceTake
  extract_lets +onlyGivenNames v0
  clear_value v0
  extract_lets +onlyGivenNames v1
  have h1 : Kept s0 v1 := State.traceProbes_kept (State.traceTimes_kept h_s)
  clear_value v1
  extract_lets +onlyGivenNames v2
  clear_value v2
  extract_lets +onlyGivenNames v3
  extract_lets +onlyGivenNames v4
  clear_value v4
  extract_lets +onlyGivenNames v5
  clear_value v5
  extract_lets +onlyGivenNames v6
  clear_value v6
  extract_lets +onlyGivenNames v7
  clear_value v7
  extract_lets +onlyGivenNames v8
  clear_value v8
  extract_lets +onlyGivenNames v9
  have h9 : Kept s0 v9 := State.onTrace_kept h1
  clear_value v9
  extract_lets +onlyGivenNames v10
  clear_value v10
  exact kept_ite (kept_ite (State.onTrace_kept h9) (State.traceStore_kept h9)) (State.traceStore_kept h9)

theorem execTraceSample_kept {s0 : State} {s} (h_s : Kept s0 s) : Done s0 (execTraceSample s) := by
  unfold execTraceSample
  refine done_ite ?_ (done_next h_s)
  split
  · exact done_next (State.traceTake_kept (State.reach_kept h_s))
  · exact done_next h_s

theorem execTraceSeqWindowExpiry_kept {s0 : State} {s} (h_s : Kept s0 s) : Done s0 (execTraceSeqWindowExpiry s) := by
  unfold execTraceSeqWindowExpiry
  extract_lets +onlyGivenNames v0
  clear_value v0
  split
  · exact done_ite (done_next h_s) (done_next (State.onTrace_kept (State.reach_kept h_s)))
  · exact done_next h_s

theorem State.traceArm_kept {s0 : State} {s} (h_s : Kept s0 s) : Kept s0 (State.traceArm s) := by
  unfold State.traceArm
  extract_lets +onlyGivenNames v0
  clear_value v0
  extract_lets +onlyGivenNames v1
  have h1 : Kept s0 v1 := forN_kept (fun _ _ h2 => State.putWord_kept h2) h_s
  clear_value v1
  extract_lets +onlyGivenNames v3
  have h3 : Kept s0 v3 := State.setLv_kept (State.setLv_kept h1)
  clear_value v3
  exact State.onTrace_kept h3

theorem State.traceStop_kept {s0 : State} {s} (h_s : Kept s0 s) : Kept s0 (State.traceStop s) := by
  unfold State.traceStop
  exact kept_ite (State.onTrace_kept h_s) (State.traceClose_kept h_s)

theorem State.traceCmd_kept {s0 : State} {s m v} (h_s : Kept s0 s) : Kept s0 (State.traceCmd s m v) := by
  unfold State.traceCmd
  extract_lets +onlyGivenNames v0
  have h0 : ∀ t0, Kept s0 t0 → Kept s0 (v0 t0) := by
    unfold v0
    intro t1 h2
    exact State.refuseBy_kept h2
  clear_value v0
  extract_lets +onlyGivenNames v3
  clear_value v3
  extract_lets +onlyGivenNames v4
  have h4 : Kept s0 v4 := kept_ite (kept_ite (h0 _ h_s) (State.traceArm_kept h_s)) h_s
  clear_value v4
  extract_lets +onlyGivenNames v5
  have h5 : Kept s0 v5 := kept_ite (kept_ite (State.traceStop_kept h4) (h0 _ h4)) h4
  clear_value v5
  extract_lets +onlyGivenNames v6
  have h6 : Kept s0 v6 := kept_ite (kept_ite (State.traceTrigger_kept h5) (h0 _ h5)) h5
  clear_value v6
  exact kept_ite (kept_ite (State.onTrace_kept h6) (h0 _ h6)) h6

theorem State.hostTrace_kept {s0 : State} {s v} (h_s : Kept s0 s) : Kept s0 (State.hostTrace s v) := by
  unfold State.hostTrace
  exact kept_ite (State.traceCmd_kept (State.touch_kept h_s)) h_s

theorem execTraceArm_kept {s0 : State} {s} (h_s : Kept s0 s) : Done s0 (execTraceArm s) := by
  unfold execTraceArm
  exact done_next (State.hostTrace_kept h_s)

theorem execTraceStop_kept {s0 : State} {s} (h_s : Kept s0 s) : Done s0 (execTraceStop s) := by
  unfold execTraceStop
  exact done_next (State.hostTrace_kept h_s)

theorem execTraceForce_kept {s0 : State} {s} (h_s : Kept s0 s) : Done s0 (execTraceForce s) := by
  unfold execTraceForce
  exact done_next (State.hostTrace_kept h_s)

theorem execTraceClear_kept {s0 : State} {s} (h_s : Kept s0 s) : Done s0 (execTraceClear s) := by
  unfold execTraceClear
  exact done_next (State.hostTrace_kept h_s)

end Sys2Proof.Machine
end

