-- ==== Sys2Proof/Laws/KeptLane.lean ====
section
/-!
SUPPORT. What the operations of Machine/Lane.lean keep: one lemma each, from any state reached.
-/
namespace Sys2Proof.Machine

open Sys2Proof.Safety

theorem State.laneEnd_kept {s0 : State} {s n bk} (h_s : Kept s0 s) : Kept s0 (State.laneEnd s n bk) := by
  unfold State.laneEnd
  extract_lets +onlyGivenNames v0
  clear_value v0
  extract_lets +onlyGivenNames v1
  clear_value v1
  extract_lets +onlyGivenNames v2
  have h2 : Kept s0 v2 := forL_kept (fun _ _ h3 => State.putWord_kept h3) h_s
  clear_value v2
  exact State.onLn_kept h2

theorem State.laneDrop_kept {s0 : State} {s n bk} (h_s : Kept s0 s) : Kept s0 (State.laneDrop s n bk) := by
  unfold State.laneDrop
  extract_lets +onlyGivenNames v0
  clear_value v0
  extract_lets +onlyGivenNames v1
  clear_value v1
  exact State.onLn_kept h_s

theorem State.laneStop_kept {s0 : State} {s n bk} (h_s : Kept s0 s) : Kept s0 (State.laneStop s n bk) := by
  unfold State.laneStop
  exact State.laneFault_kept (State.inc16_kept (State.laneDrop_kept h_s))

theorem State.laneEccStop_kept {s0 : State} {s n bk} (h_s : Kept s0 s) : Kept s0 (State.laneEccStop s n bk) := by
  unfold State.laneEccStop
  exact State.laneFault_kept (State.laneDrop_kept h_s)

theorem State.localStores_kept {s0 : State} {s n e} (h_s : Kept s0 s) : Kept s0 (State.localStores s n e) := by
  unfold State.localStores
  exact forL_kept (fun _ _ h0 => State.putWord_kept h0) h_s

theorem State.laneApply_kept {s0 : State} {s n bk e} (h_s : Kept s0 s) : Kept s0 (State.laneApply s n bk e) := by
  unfold State.laneApply
  extract_lets +onlyGivenNames v0
  clear_value v0
  extract_lets +onlyGivenNames v1
  clear_value v1
  split
  · extract_lets +onlyGivenNames v2
    clear_value v2
    extract_lets +onlyGivenNames v3
    clear_value v3
    extract_lets +onlyGivenNames v4
    have h4 : Kept s0 v4 := State.onSched_kept (State.localStores_kept h_s)
    clear_value v4
    exact State.onLn_kept h4

theorem State.laneStep_kept {s0 : State} {s l i op} (h_s : Kept s0 s) : Kept s0 (State.laneStep s l i op) := by
  unfold State.laneStep
  extract_lets +onlyGivenNames v0
  clear_value v0
  split
  · exact h_s
  · refine kept_ite h_s ?_
    refine kept_ite (State.laneStop_kept h_s) ?_
    refine kept_ite (State.laneEccStop_kept h_s) ?_
    split
    · exact State.laneStop_kept h_s
    · extract_lets +onlyGivenNames v1
      clear_value v1
      exact kept_ite h_s (kept_ite (State.laneStop_kept h_s) (kept_ite (State.laneEccStop_kept h_s) (kept_ite (State.laneEnd_kept (State.laneApply_kept h_s)) (State.laneApply_kept h_s))))

theorem execNop_kept {s0 : State} {l s} (h_s : Kept s0 s) : Done s0 (execNop l s) := by
  unfold execNop
  exact done_next (State.laneStep_kept h_s)

theorem execAdd_kept {s0 : State} {l d a b s} (h_s : Kept s0 s) : Done s0 (execAdd l d a b s) := by
  unfold execAdd
  exact done_next (State.laneStep_kept h_s)

theorem execSub_kept {s0 : State} {l d a b s} (h_s : Kept s0 s) : Done s0 (execSub l d a b s) := by
  unfold execSub
  exact done_next (State.laneStep_kept h_s)

theorem execAdds_kept {s0 : State} {l d a b s} (h_s : Kept s0 s) : Done s0 (execAdds l d a b s) := by
  unfold execAdds
  exact done_next (State.laneStep_kept h_s)

theorem execSubs_kept {s0 : State} {l d a b s} (h_s : Kept s0 s) : Done s0 (execSubs l d a b s) := by
  unfold execSubs
  exact done_next (State.laneStep_kept h_s)

theorem execAnd_kept {s0 : State} {l d a b s} (h_s : Kept s0 s) : Done s0 (execAnd l d a b s) := by
  unfold execAnd
  exact done_next (State.laneStep_kept h_s)

theorem execOr_kept {s0 : State} {l d a b s} (h_s : Kept s0 s) : Done s0 (execOr l d a b s) := by
  unfold execOr
  exact done_next (State.laneStep_kept h_s)

theorem execXor_kept {s0 : State} {l d a b s} (h_s : Kept s0 s) : Done s0 (execXor l d a b s) := by
  unfold execXor
  exact done_next (State.laneStep_kept h_s)

theorem execAsh_kept {s0 : State} {l d a b s} (h_s : Kept s0 s) : Done s0 (execAsh l d a b s) := by
  unfold execAsh
  exact done_next (State.laneStep_kept h_s)

theorem execLsh_kept {s0 : State} {l d a b s} (h_s : Kept s0 s) : Done s0 (execLsh l d a b s) := by
  unfold execLsh
  exact done_next (State.laneStep_kept h_s)

theorem execMin_kept {s0 : State} {l d a b s} (h_s : Kept s0 s) : Done s0 (execMin l d a b s) := by
  unfold execMin
  exact done_next (State.laneStep_kept h_s)

theorem execMax_kept {s0 : State} {l d a b s} (h_s : Kept s0 s) : Done s0 (execMax l d a b s) := by
  unfold execMax
  exact done_next (State.laneStep_kept h_s)

theorem execAbs_kept {s0 : State} {l d a s} (h_s : Kept s0 s) : Done s0 (execAbs l d a s) := by
  unfold execAbs
  exact done_next (State.laneStep_kept h_s)

theorem execNeg_kept {s0 : State} {l d a s} (h_s : Kept s0 s) : Done s0 (execNeg l d a s) := by
  unfold execNeg
  exact done_next (State.laneStep_kept h_s)

theorem execSlt_kept {s0 : State} {l d a b s} (h_s : Kept s0 s) : Done s0 (execSlt l d a b s) := by
  unfold execSlt
  exact done_next (State.laneStep_kept h_s)

theorem execSltu_kept {s0 : State} {l d a b s} (h_s : Kept s0 s) : Done s0 (execSltu l d a b s) := by
  unfold execSltu
  exact done_next (State.laneStep_kept h_s)

theorem execSeq_kept {s0 : State} {l d a b s} (h_s : Kept s0 s) : Done s0 (execSeq l d a b s) := by
  unfold execSeq
  exact done_next (State.laneStep_kept h_s)

theorem execSelnz_kept {s0 : State} {l d a b c s} (h_s : Kept s0 s) : Done s0 (execSelnz l d a b c s) := by
  unfold execSelnz
  exact done_next (State.laneStep_kept h_s)

theorem execMul_kept {s0 : State} {l d a b s} (h_s : Kept s0 s) : Done s0 (execMul l d a b s) := by
  unfold execMul
  exact done_next (State.laneStep_kept h_s)

theorem execCls_kept {s0 : State} {l d a s} (h_s : Kept s0 s) : Done s0 (execCls l d a s) := by
  unfold execCls
  exact done_next (State.laneStep_kept h_s)

theorem execMov_kept {s0 : State} {l d a s} (h_s : Kept s0 s) : Done s0 (execMov l d a s) := by
  unfold execMov
  exact done_next (State.laneStep_kept h_s)

theorem execAddi_kept {s0 : State} {l d a imm s} (h_s : Kept s0 s) : Done s0 (execAddi l d a imm s) := by
  unfold execAddi
  exact done_next (State.laneStep_kept h_s)

theorem execMovi_kept {s0 : State} {l d imm s} (h_s : Kept s0 s) : Done s0 (execMovi l d imm s) := by
  unfold execMovi
  exact done_next (State.laneStep_kept h_s)

theorem execMovhi_kept {s0 : State} {l d imm s} (h_s : Kept s0 s) : Done s0 (execMovhi l d imm s) := by
  unfold execMovhi
  exact done_next (State.laneStep_kept h_s)

theorem execAndi_kept {s0 : State} {l d a imm s} (h_s : Kept s0 s) : Done s0 (execAndi l d a imm s) := by
  unfold execAndi
  exact done_next (State.laneStep_kept h_s)

theorem execOri_kept {s0 : State} {l d a imm s} (h_s : Kept s0 s) : Done s0 (execOri l d a imm s) := by
  unfold execOri
  exact done_next (State.laneStep_kept h_s)

theorem execAshi_kept {s0 : State} {l d a imm s} (h_s : Kept s0 s) : Done s0 (execAshi l d a imm s) := by
  unfold execAshi
  exact done_next (State.laneStep_kept h_s)

theorem execLshi_kept {s0 : State} {l d a imm s} (h_s : Kept s0 s) : Done s0 (execLshi l d a imm s) := by
  unfold execLshi
  exact done_next (State.laneStep_kept h_s)

theorem execLd_kept {s0 : State} {l d p sp f s} (h_s : Kept s0 s) : Done s0 (execLd l d p sp f s) := by
  unfold execLd
  exact done_next (State.laneStep_kept h_s)

theorem execSt_kept {s0 : State} {l d p sp f s} (h_s : Kept s0 s) : Done s0 (execSt l d p sp f s) := by
  unfold execSt
  exact done_next (State.laneStep_kept h_s)

theorem execLd2_kept {s0 : State} {l d p sp f s} (h_s : Kept s0 s) : Done s0 (execLd2 l d p sp f s) := by
  unfold execLd2
  exact done_next (State.laneStep_kept h_s)

theorem execSt2_kept {s0 : State} {l d p sp f s} (h_s : Kept s0 s) : Done s0 (execSt2 l d p sp f s) := by
  unfold execSt2
  exact done_next (State.laneStep_kept h_s)

theorem execLdsig_kept {s0 : State} {l d sel s} (h_s : Kept s0 s) : Done s0 (execLdsig l d sel s) := by
  unfold execLdsig
  exact done_next (State.laneStep_kept h_s)

theorem execSacst_kept {s0 : State} {l acc p sp f sh s} (h_s : Kept s0 s) : Done s0 (execSacst l acc p sp f sh s) := by
  unfold execSacst
  exact done_next (State.laneStep_kept h_s)

theorem execMpy_kept {s0 : State} {l acc a b s} (h_s : Kept s0 s) : Done s0 (execMpy l acc a b s) := by
  unfold execMpy
  exact done_next (State.laneStep_kept h_s)

theorem execMac_kept {s0 : State} {l acc a b s} (h_s : Kept s0 s) : Done s0 (execMac l acc a b s) := by
  unfold execMac
  exact done_next (State.laneStep_kept h_s)

theorem execMsu_kept {s0 : State} {l acc a b s} (h_s : Kept s0 s) : Done s0 (execMsu l acc a b s) := by
  unfold execMsu
  exact done_next (State.laneStep_kept h_s)

theorem execMpyi_kept {s0 : State} {l acc a b s} (h_s : Kept s0 s) : Done s0 (execMpyi l acc a b s) := by
  unfold execMpyi
  exact done_next (State.laneStep_kept h_s)

theorem execMaci_kept {s0 : State} {l acc a b s} (h_s : Kept s0 s) : Done s0 (execMaci l acc a b s) := by
  unfold execMaci
  exact done_next (State.laneStep_kept h_s)

theorem execMsui_kept {s0 : State} {l acc a b s} (h_s : Kept s0 s) : Done s0 (execMsui l acc a b s) := by
  unfold execMsui
  exact done_next (State.laneStep_kept h_s)

theorem execSac_kept {s0 : State} {l d acc sh s} (h_s : Kept s0 s) : Done s0 (execSac l d acc sh s) := by
  unfold execSac
  exact done_next (State.laneStep_kept h_s)

theorem execMpyr_kept {s0 : State} {l d a b s} (h_s : Kept s0 s) : Done s0 (execMpyr l d a b s) := by
  unfold execMpyr
  exact done_next (State.laneStep_kept h_s)

theorem execMova_kept {s0 : State} {l acc a b s} (h_s : Kept s0 s) : Done s0 (execMova l acc a b s) := by
  unfold execMova
  exact done_next (State.laneStep_kept h_s)

theorem execAdda_kept {s0 : State} {l acc accb s} (h_s : Kept s0 s) : Done s0 (execAdda l acc accb s) := by
  unfold execAdda
  exact done_next (State.laneStep_kept h_s)

theorem execSuba_kept {s0 : State} {l acc accb s} (h_s : Kept s0 s) : Done s0 (execSuba l acc accb s) := by
  unfold execSuba
  exact done_next (State.laneStep_kept h_s)

theorem execAsha_kept {s0 : State} {l acc sh s} (h_s : Kept s0 s) : Done s0 (execAsha l acc sh s) := by
  unfold execAsha
  exact done_next (State.laneStep_kept h_s)

theorem execClra_kept {s0 : State} {l acc s} (h_s : Kept s0 s) : Done s0 (execClra l acc s) := by
  unfold execClra
  exact done_next (State.laneStep_kept h_s)

theorem execAddad_kept {s0 : State} {l acc a b s} (h_s : Kept s0 s) : Done s0 (execAddad l acc a b s) := by
  unfold execAddad
  exact done_next (State.laneStep_kept h_s)

theorem execSubad_kept {s0 : State} {l acc a b s} (h_s : Kept s0 s) : Done s0 (execSubad l acc a b s) := by
  unfold execSubad
  exact done_next (State.laneStep_kept h_s)

theorem execRdl_kept {s0 : State} {l d acc s} (h_s : Kept s0 s) : Done s0 (execRdl l d acc s) := by
  unfold execRdl
  exact done_next (State.laneStep_kept h_s)

theorem execRdh_kept {s0 : State} {l d acc s} (h_s : Kept s0 s) : Done s0 (execRdh l d acc s) := by
  unfold execRdh
  exact done_next (State.laneStep_kept h_s)

theorem execRdg_kept {s0 : State} {l d acc s} (h_s : Kept s0 s) : Done s0 (execRdg l d acc s) := by
  unfold execRdg
  exact done_next (State.laneStep_kept h_s)

theorem execSata_kept {s0 : State} {l acc s} (h_s : Kept s0 s) : Done s0 (execSata l acc s) := by
  unfold execSata
  exact done_next (State.laneStep_kept h_s)

theorem execB_kept {s0 : State} {l target s} (h_s : Kept s0 s) : Done s0 (execB l target s) := by
  unfold execB
  exact done_next (State.laneStep_kept h_s)

theorem execCall_kept {s0 : State} {l target s} (h_s : Kept s0 s) : Done s0 (execCall l target s) := by
  unfold execCall
  exact done_next (State.laneStep_kept h_s)

theorem execRet_kept {s0 : State} {l s} (h_s : Kept s0 s) : Done s0 (execRet l s) := by
  unfold execRet
  exact done_next (State.laneStep_kept h_s)

theorem execBeqz_kept {s0 : State} {l a target s} (h_s : Kept s0 s) : Done s0 (execBeqz l a target s) := by
  unfold execBeqz
  exact done_next (State.laneStep_kept h_s)

theorem execBnez_kept {s0 : State} {l a target s} (h_s : Kept s0 s) : Done s0 (execBnez l a target s) := by
  unfold execBnez
  exact done_next (State.laneStep_kept h_s)

theorem execBltz_kept {s0 : State} {l a target s} (h_s : Kept s0 s) : Done s0 (execBltz l a target s) := by
  unfold execBltz
  exact done_next (State.laneStep_kept h_s)

theorem execBgez_kept {s0 : State} {l a target s} (h_s : Kept s0 s) : Done s0 (execBgez l a target s) := by
  unfold execBgez
  exact done_next (State.laneStep_kept h_s)

theorem execBgtz_kept {s0 : State} {l a target s} (h_s : Kept s0 s) : Done s0 (execBgtz l a target s) := by
  unfold execBgtz
  exact done_next (State.laneStep_kept h_s)

theorem execBlez_kept {s0 : State} {l a target s} (h_s : Kept s0 s) : Done s0 (execBlez l a target s) := by
  unfold execBlez
  exact done_next (State.laneStep_kept h_s)

theorem execLoopi_kept {s0 : State} {l lvl len count s} (h_s : Kept s0 s) : Done s0 (execLoopi l lvl len count s) := by
  unfold execLoopi
  exact done_next (State.laneStep_kept h_s)

theorem execLoopr_kept {s0 : State} {l lvl len a mx s} (h_s : Kept s0 s) : Done s0 (execLoopr l lvl len a mx s) := by
  unfold execLoopr
  exact done_next (State.laneStep_kept h_s)

theorem execMovp_kept {s0 : State} {l p imm s} (h_s : Kept s0 s) : Done s0 (execMovp l p imm s) := by
  unfold execMovp
  exact done_next (State.laneStep_kept h_s)

theorem execMovm_kept {s0 : State} {l p imm s} (h_s : Kept s0 s) : Done s0 (execMovm l p imm s) := by
  unfold execMovm
  exact done_next (State.laneStep_kept h_s)

theorem execPregSetP_kept {s0 : State} {l p a s} (h_s : Kept s0 s) : Done s0 (execPregSetP l p a s) := by
  unfold execPregSetP
  exact done_next (State.laneStep_kept h_s)

theorem execPregGetP_kept {s0 : State} {l p d s} (h_s : Kept s0 s) : Done s0 (execPregGetP l p d s) := by
  unfold execPregGetP
  exact done_next (State.laneStep_kept h_s)

theorem execPregAddM_kept {s0 : State} {l p mm s} (h_s : Kept s0 s) : Done s0 (execPregAddM l p mm s) := by
  unfold execPregAddM
  exact done_next (State.laneStep_kept h_s)

theorem execPregSetM_kept {s0 : State} {l mm a s} (h_s : Kept s0 s) : Done s0 (execPregSetM l mm a s) := by
  unfold execPregSetM
  exact done_next (State.laneStep_kept h_s)

theorem execPregGetM_kept {s0 : State} {l mm d s} (h_s : Kept s0 s) : Done s0 (execPregGetM l mm d s) := by
  unfold execPregGetM
  exact done_next (State.laneStep_kept h_s)

theorem execSavel_kept {s0 : State} {l d s} (h_s : Kept s0 s) : Done s0 (execSavel l d s) := by
  unfold execSavel
  exact done_next (State.laneStep_kept h_s)

theorem execRestl_kept {s0 : State} {l d s} (h_s : Kept s0 s) : Done s0 (execRestl l d s) := by
  unfold execRestl
  exact done_next (State.laneStep_kept h_s)

theorem execEnd_kept {s0 : State} {l s} (h_s : Kept s0 s) : Done s0 (execEnd l s) := by
  unfold execEnd
  exact done_next (State.laneStep_kept h_s)

theorem execClrsat_kept {s0 : State} {l s} (h_s : Kept s0 s) : Done s0 (execClrsat l s) := by
  unfold execClrsat
  exact done_next (State.laneStep_kept h_s)

theorem execSysReadLsr_kept {s0 : State} {l d s} (h_s : Kept s0 s) : Done s0 (execSysReadLsr l d s) := by
  unfold execSysReadLsr
  exact done_next (State.laneStep_kept h_s)

theorem execLoopCountExpiry_kept {s0 : State} {l lvl s} (h_s : Kept s0 s) : Done s0 (execLoopCountExpiry l lvl s) := by
  unfold execLoopCountExpiry
  extract_lets +onlyGivenNames v0
  clear_value v0
  extract_lets +onlyGivenNames v1
  clear_value v1
  split
  · extract_lets +onlyGivenNames v2
    clear_value v2
    extract_lets +onlyGivenNames v3
    clear_value v3
    refine done_ite ?_ (done_next h_s)
    split
    · exact done_next (State.laneStep_kept h_s)
    · exact done_next h_s
  · exact done_next h_s

end Sys2Proof.Machine
end

