-- ==== Sys2Proof/Laws/KeptPower.lean ====
section
/-!
SUPPORT. What the operations of Machine/Power.lean keep: one lemma each, from any state reached.
-/
namespace Sys2Proof.Machine

open Sys2Proof.Safety

theorem State.clearFaults_kept {s0 : State} {s} (h_s : Kept s0 s) : Kept s0 (State.clearFaults s) := by
  unfold State.clearFaults
  extract_lets +onlyGivenNames v0
  have h0 : Kept s0 v0 := forL_kept (fun _ _ h1 => kept_ite h1 (State.onLv_kept h1)) h_s
  clear_value v0
  exact State.clearLoop_kept h0

theorem State.clearCounters_kept {s0 : State} {s} (h_s : Kept s0 s) : Kept s0 (State.clearCounters s) := by
  unfold State.clearCounters
  extract_lets +onlyGivenNames v0
  have h0 : Kept s0 v0 := forL_kept (fun _ _ h1 => State.setLv_kept h1) h_s
  clear_value v0
  exact forN_kept (fun _ _ h2 => State.onLv_kept h2) h0

theorem State.clearLatched_kept {s0 : State} {s} (h_s : Kept s0 s) : Kept s0 (State.clearLatched s) := by
  unfold State.clearLatched
  extract_lets +onlyGivenNames v0
  have h0 : Kept s0 v0 := State.clearSin_kept h_s
  clear_value v0
  extract_lets +onlyGivenNames v1
  have h1 : Kept s0 v1 := by
    unfold v1
    split
    · exact kept_ite (State.chopClear_kept h0) h0
    · exact h0
  clear_value v1
  extract_lets +onlyGivenNames v2
  have h2 : Kept s0 v2 := forN_kept (fun _ _ h3 => kept_ite (State.onSh_kept (State.shareMismatch_kept h3)) h3) h1
  clear_value v2
  extract_lets +onlyGivenNames v4
  have h4 : Kept s0 v4 := State.clearSrc_kept h2
  clear_value v4
  exact kept_ite h4 (State.onSafe_kept h4)

theorem State.clearAll_kept {s0 : State} {s} (h_s : Kept s0 s) : Kept s0 (State.clearAll s) := by
  unfold State.clearAll
  exact State.clearCounters_kept (State.clearFaults_kept (State.clearLatched_kept h_s))

theorem execClearEvents_kept {s0 : State} {m seq arg8 s} (h_s : Kept s0 s) : Done s0 (execClearEvents m seq arg8 s) := by
  unfold execClearEvents
  extract_lets +onlyGivenNames v0
  clear_value v0
  exact done_next (State.command_kept h_s (fun _ h1 => State.accept_kept (State.clearAll_kept h1)))

theorem State.powerReq_kept {s0 : State} {s m v} (h_s : Kept s0 s) : Kept s0 (State.powerReq s m v) := by
  unfold State.powerReq
  extract_lets +onlyGivenNames v0
  clear_value v0
  exact kept_ite (State.refuseBy_kept h_s) (State.onSched_kept (State.setLv_kept h_s))

theorem execPowerReq_kept {s0 : State} {v s} (h_s : Kept s0 s) : Done s0 (execPowerReq v s) := by
  unfold execPowerReq
  exact done_ite (done_next (State.powerReq_kept (State.touch_kept h_s))) (done_next h_s)

end Sys2Proof.Machine
end

