-- ==== Sys2Proof/Laws/KeptBus.lean ====
section
/-!
SUPPORT. What the operations of Machine/Bus.lean keep: one lemma each, from any state reached.
-/
namespace Sys2Proof.Machine

open Sys2Proof.Safety

theorem outSt_kept {s0 : State} {o : Out} {s : State} (ho : Done s0 o) (_ : Kept s0 s) : Kept s0 (outSt o s) := by
  obtain ⟨t, rfl, h⟩ := ho
  exact h

theorem State.memRead_kept {s0 : State} {s a} (h_s : Kept s0 s) : Kept1 s0 (State.memRead s a) := by
  unfold State.memRead
  refine kept1_ite (kept1_mk h_s) ?_
  refine kept1_ite ?_ (kept1_mk h_s)
  refine kept1_ite (kept1_mk h_s) ?_
  split
  · rename_i x0 x1 t2 e3
    have h4 := kept2_snd (State.takeFree_kept h_s) e3
    exact kept1_mk h4

theorem State.busRead_kept {s0 : State} {s m a} (h_s : Kept s0 s) : Kept1 s0 (State.busRead s m a) := by
  unfold State.busRead
  extract_lets +onlyGivenNames v0
  have h0 : Kept s0 v0 := State.touch_kept h_s
  clear_value v0
  extract_lets +onlyGivenNames v1
  clear_value v1
  extract_lets +onlyGivenNames v2
  clear_value v2
  refine kept1_ite ?_ ?_
  · split
    · exact kept1_mk (State.onMstr_kept h0)
    · extract_lets +onlyGivenNames v3
      clear_value v3
      extract_lets +onlyGivenNames v4
      clear_value v4
      exact kept1_ite (kept1_mk (State.onMstr_kept h0)) (kept1_mk h0)
  · split
    · rename_i x5 t6 x7 e8
      have h9 := kept1_fst (State.memRead_kept h0) e8
      exact kept1_mk (State.msgRead_kept h9)

theorem State.sysCmd_kept {s0 : State} {s m v} (h_s : Kept s0 s) : Kept s0 (State.sysCmd s m v) := by
  unfold State.sysCmd
  extract_lets +onlyGivenNames v0
  clear_value v0
  extract_lets +onlyGivenNames v1
  clear_value v1
  split
  · exact outSt_kept (execStageOpen_kept h_s) h_s
  · exact outSt_kept (execStageDiscard_kept h_s) h_s
  · exact outSt_kept (execProof_kept h_s) h_s
  · exact outSt_kept (execStrike_kept h_s) h_s
  · exact outSt_kept (execStrikeAt_kept h_s) h_s
  · exact outSt_kept (execProofStrike_kept h_s) h_s
  · exact outSt_kept (execPrecheck_kept h_s) h_s
  · exact outSt_kept (execSafeStop_kept h_s) h_s
  · exact outSt_kept (execClearEvents_kept h_s) h_s
  · exact outSt_kept (execReadmit_kept h_s) h_s
  · exact outSt_kept (execSaveImage_kept h_s) h_s
  · exact State.badCommand_kept h_s

theorem State.actLow_kept {s0 : State} {s m p o v} (h_s : Kept s0 s) : KeptO s0 (State.actLow s m p o v) := by
  unfold State.actLow
  extract_lets +onlyGivenNames v0
  have h0 : Kept s0 v0 := kept_ite (State.relockBy_kept h_s) h_s
  clear_value v0
  extract_lets +onlyGivenNames v1
  have h1 : Kept s0 v1 := kept_ite (State.ntSetBy_kept h0) h0
  clear_value v1
  extract_lets +onlyGivenNames v2
  clear_value v2
  extract_lets +onlyGivenNames v3
  have h3 : Kept s0 v3 := kept_ite (State.netSend_kept h_s) h_s
  clear_value v3
  exact keptO_ite (keptO_some (State.sysCmd_kept h_s)) (keptO_ite (keptO_some (kept_ite (State.bcastBy_kept h1) h1)) (keptO_ite (keptO_some (State.powerReq_kept h_s)) (keptO_ite (keptO_some (State.axisCmd_kept h_s)) (keptO_ite (keptO_some (State.selHost_kept h_s)) (keptO_ite (keptO_some (State.dmaCmd_kept h_s)) (keptO_ite (keptO_some (State.traceCmd_kept h_s)) (keptO_ite (keptO_ite (keptO_some (kept_ite (State.canRecover_kept h_s) h_s)) (keptO_ite (keptO_some (State.canTxReq_kept h_s)) (keptO_ite (keptO_some (State.canTxAbort_kept h_s)) (keptO_none)))) (keptO_ite (keptO_some (kept_ite (State.netCancel_kept h3) h3)) (keptO_none)))))))))

theorem State.actHigh_kept {s0 : State} {s m p o v} (h_s : Kept s0 s) : KeptO s0 (State.actHigh s m p o v) := by
  unfold State.actHigh
  extract_lets +onlyGivenNames v0
  clear_value v0
  refine keptO_ite (keptO_ite (keptO_some (State.loadCmd_kept h_s)) (keptO_none)) ?_
  refine keptO_ite (keptO_ite (keptO_some (State.motCmd_kept h_s)) (keptO_ite (keptO_some (outSt_kept (execCompareArm_kept h_s) h_s)) (keptO_ite (keptO_some (outSt_kept (execCompareArm_kept h_s) h_s)) (keptO_ite (keptO_some (outSt_kept (execLatchArm_kept h_s) h_s)) (keptO_ite (keptO_some (outSt_kept (execLatchArm_kept h_s) h_s)) (keptO_none)))))) ?_
  refine keptO_ite ?_ ?_
  · split
    · extract_lets +onlyGivenNames v1
      have h1 : Kept s0 v1 := kept_ite (State.pushBy_kept h_s) h_s
      clear_value v1
      exact keptO_some (kept_ite (State.flushBy_kept h1) h1)
    · exact keptO_none
  · refine keptO_ite (keptO_ite (keptO_some (kept_ite (State.rescueStartBy_kept h_s) h_s)) (keptO_none)) ?_
    refine keptO_ite ?_ ?_
    · split
      · extract_lets +onlyGivenNames v2
        clear_value v2
        exact keptO_ite (keptO_some (State.dutyWrite_kept h_s)) (keptO_ite (keptO_some (State.periodWrite_kept h_s)) (keptO_some (State.pwmCtrlWrite_kept h_s)))
      · exact keptO_none
    · refine keptO_ite ?_ (keptO_none)
      split
      · exact keptO_some (State.chCmd_kept h_s)
      · exact keptO_none

theorem State.liveWrite_kept {s0 : State} {s m p o v} (h_s : Kept s0 s) : Kept s0 (State.liveWrite s m p o v) := by
  unfold State.liveWrite
  split
  · exact h_s
  · split
    · rename_i x0 t1 e2
      have h3 := keptO_get (keptO_ite (State.actLow_kept h_s) (State.actHigh_kept h_s)) e2
      exact h3
    · split
      · exact State.setLv_kept h_s
      · exact State.onLv_kept h_s
      · exact h_s

theorem State.pairWrite_kept {s0 : State} {s m a v} (h_s : Kept s0 s) : Kept s0 (State.pairWrite s m a v) := by
  unfold State.pairWrite
  extract_lets +onlyGivenNames v0
  clear_value v0
  extract_lets +onlyGivenNames v1
  clear_value v1
  extract_lets +onlyGivenNames v2
  clear_value v2
  extract_lets +onlyGivenNames v3
  have h3 : Kept s0 v3 := State.touch_kept h_s
  clear_value v3
  refine kept_ite (State.refuseBy_kept h_s) ?_
  refine kept_ite (State.onMstr_kept h3) ?_
  split
  · extract_lets +onlyGivenNames v4
    have h4 : Kept s0 v4 := State.onMstr_kept h3
    clear_value v4
    exact State.liveWrite_kept (State.liveWrite_kept h4)
  · exact State.liveWrite_kept h3

theorem State.memWrite_kept {s0 : State} {s m a v} (h_s : Kept s0 s) : Kept s0 (State.memWrite s m a v) := by
  unfold State.memWrite
  extract_lets +onlyGivenNames v0
  have h0 : Kept s0 v0 := State.touch_kept h_s
  clear_value v0
  exact kept_ite (State.refuseBy_kept h_s) (kept_ite (State.refuseBy_kept h_s) (kept_ite (State.putWord_kept h0) h0))

theorem State.downWrite_kept {s0 : State} {s m a v} (h_s : Kept s0 s) : Kept s0 (State.downWrite s m a v) := by
  unfold State.downWrite
  split
  · exact h_s
  · exact kept_ite h_s (kept_ite (State.liveWrite_kept h_s) (State.downRefuse_kept h_s))

theorem State.busWrite_kept {s0 : State} {s m a v} (h_s : Kept s0 s) : Kept s0 (State.busWrite s m a v) := by
  unfold State.busWrite
  exact kept_ite (State.downWrite_kept h_s) (kept_ite (kept_ite (State.stagedWrite_kept h_s) (kept_ite (kept_ite (State.refuseBy_kept h_s) h_s) (State.pairWrite_kept h_s))) (kept_ite (State.refuseBy_kept h_s) (State.memWrite_kept h_s)))

theorem execRegisterWrite_kept {s0 : State} {m addr v s} (h_s : Kept s0 s) : Done s0 (execRegisterWrite m addr v s) := by
  unfold execRegisterWrite
  exact done_next (kept_ite (State.busWrite_kept h_s) h_s)

theorem execLaneCodeWrite_kept {s0 : State} {m addr v s} (h_s : Kept s0 s) : Done s0 (execLaneCodeWrite m addr v s) := by
  unfold execLaneCodeWrite
  exact done_next (kept_ite (State.busWrite_kept h_s) h_s)

theorem execPairLowRead_kept {s0 : State} {m addr s} (h_s : Kept s0 s) : Done s0 (execPairLowRead m addr s) := by
  unfold execPairLowRead
  extract_lets +onlyGivenNames v0
  clear_value v0
  refine done_ite ?_ (done_next h_s)
  split
  · rename_i x1 t2 x3 e4
    have h5 := kept1_fst (State.busRead_kept h_s) e4
    exact done_next (State.onMstr_kept h5)

theorem execPairLowWrite_kept {s0 : State} {m addr v s} (h_s : Kept s0 s) : Done s0 (execPairLowWrite m addr v s) := by
  unfold execPairLowWrite
  extract_lets +onlyGivenNames v0
  clear_value v0
  exact done_next (kept_ite (State.busWrite_kept h_s) h_s)

theorem execPairHighWrite_kept {s0 : State} {m addr v s} (h_s : Kept s0 s) : Done s0 (execPairHighWrite m addr v s) := by
  unfold execPairHighWrite
  extract_lets +onlyGivenNames v0
  clear_value v0
  exact done_next (kept_ite (State.busWrite_kept h_s) h_s)

end Sys2Proof.Machine
end

