-- ==== Sys2Proof/Laws/KeptPorts.lean ====
section
/-!
SUPPORT. What the operations of Machine/Ports.lean keep: one lemma each, from any state reached.
-/
namespace Sys2Proof.Machine

open Sys2Proof.Safety

theorem State.lastErr_kept {s0 : State} {s m cause a} (h_s : Kept s0 s) : Kept s0 (State.lastErr s m cause a) := by
  unfold State.lastErr
  split
  · exact State.setLv_kept h_s
  · exact State.setLv_kept h_s

theorem State.portWrite_kept {s0 : State} {s m a v} (h_s : Kept s0 s) : Kept s0 (State.portWrite s m a v) := by
  unfold State.portWrite
  extract_lets +onlyGivenNames v0
  clear_value v0
  extract_lets +onlyGivenNames v1
  have h1 : Kept s0 v1 := State.busWrite_kept (State.onMstr_kept h_s)
  clear_value v1
  extract_lets +onlyGivenNames v2
  clear_value v2
  extract_lets +onlyGivenNames v3
  have h3 : Kept s0 v3 := State.onMstr_kept h1
  clear_value v3
  exact kept_ite (State.lastErr_kept h3) (kept_ite (State.lastErr_kept (State.onMstr_kept h3)) h3)

theorem State.portWrites_kept {s0 : State} {m : Master} : ∀ {ws : List Word} {s : State} {a : Nat}, Kept s0 s →
    Kept s0 (s.portWrites m a ws)
  | [], _, _, h => h
  | w :: ws, s, a, h => State.portWrites_kept (ws := ws) (s := s.portWrite m a w) (a := a + 4) (State.portWrite_kept h)

theorem State.portRead_kept {s0 : State} {s m a} (h_s : Kept s0 s) : Kept1 s0 (State.portRead s m a) := by
  unfold State.portRead
  exact kept1_ite (State.busRead_kept h_s) (kept1_mk (State.lastErr_kept (State.touch_kept h_s)))

theorem State.portReads_kept {s0 : State} {m : Master} : ∀ {n : Nat} {s : State} {a : Nat}, Kept s0 s →
    Kept1 s0 (s.portReads m a n)
  | 0, _, _, h => h
  | n + 1, _, _, h => State.portReads_kept (n := n) (State.portRead_kept h)

theorem State.frameRefused_kept {s0 : State} {s bad a} (h_s : Kept s0 s) : Kept s0 (State.frameRefused s bad a) := by
  unfold State.frameRefused
  extract_lets +onlyGivenNames v0
  have h0 : Kept s0 v0 := State.onMstr_kept h_s
  clear_value v0
  extract_lets +onlyGivenNames v1
  have h1 : Kept s0 v1 := State.event_kept (State.lastErr_kept h0)
  clear_value v1
  exact kept_ite h0 (kept_ite (State.inc16_kept h1) h1)

theorem State.takePrev_kept {s0 : State} {s} (h_s : Kept s0 s) : Kept1 s0 (State.takePrev s) := by
  unfold State.takePrev
  extract_lets +onlyGivenNames v0
  clear_value v0
  exact kept1_mk (State.onMstr_kept h_s)

theorem State.frameEnd_kept {s0 : State} {s cmd prev bits data} (h_s : Kept s0 s) :
    Kept s0 (State.frameEnd s cmd prev bits data) := by
  unfold State.frameEnd
  extract_lets +onlyGivenNames v0
  clear_value v0
  extract_lets +onlyGivenNames v1
  clear_value v1
  extract_lets +onlyGivenNames v2
  have h2 : Kept s0 v2 := State.onMstr_kept h_s
  clear_value v2
  exact kept_ite (State.onLv_kept (State.setLv_kept h2)) h2

theorem State.frameAbort_kept {s0 : State} {s} (h_s : Kept s0 s) : Kept s0 (State.frameAbort s) := by
  unfold State.frameAbort
  extract_lets +onlyGivenNames v0
  have h0 : Kept s0 v0 := State.onMstr_kept h_s
  clear_value v0
  exact kept_ite (State.event_kept (State.inc16_kept h0)) h0

theorem execHostWriteFrame_kept {s0 : State} {cmd addr ws hcrc s} (h_s : Kept s0 s) :
    Done s0 (execHostWriteFrame cmd addr ws hcrc s) := by
  unfold execHostWriteFrame
  extract_lets +onlyGivenNames v0
  clear_value v0
  extract_lets +onlyGivenNames v1
  clear_value v1
  extract_lets +onlyGivenNames v2
  clear_value v2
  extract_lets +onlyGivenNames v3
  clear_value v3
  refine done_ite (done_next h_s) ?_
  refine done_ite (done_next (State.frameAbort_kept h_s)) ?_
  split
  · rename_i x4 t5 x6 e7
    have h8 := kept1_fst (State.takePrev_kept h_s) e7
    extract_lets +onlyGivenNames v9
    have h9 : Kept s0 v9 := kept_ite (State.frameRefused_kept h8) (kept_ite (State.portWrites_kept h8) h8)
    clear_value v9
    exact done_next (State.frameEnd_kept h9)

theorem execHostReadFrame_kept {s0 : State} {cmd addr hcrc lateFrom s} (h_s : Kept s0 s) :
    Done s0 (execHostReadFrame cmd addr hcrc lateFrom s) := by
  unfold execHostReadFrame
  extract_lets +onlyGivenNames v0
  clear_value v0
  extract_lets +onlyGivenNames v1
  clear_value v1
  extract_lets +onlyGivenNames v2
  clear_value v2
  refine done_ite (done_next h_s) ?_
  split
  · rename_i x3 t4 x5 e6
    have h7 := kept1_fst (State.takePrev_kept h_s) e6
    extract_lets +onlyGivenNames v8
    clear_value v8
    refine done_ite (done_next (State.frameEnd_kept (State.frameRefused_kept h7))) ?_
    refine done_ite (done_next (State.frameEnd_kept h7)) ?_
    split
    · rename_i x9 t10 x11 e12
      have h13 := kept1_fst (State.portReads_kept h7) e12
      extract_lets +onlyGivenNames v14
      clear_value v14
      exact done_next (State.frameEnd_kept h13)

theorem execHostFrameAbort_kept {s0 : State} {s} (h_s : Kept s0 s) : Done s0 (execHostFrameAbort s) := by
  unfold execHostFrameAbort
  exact done_next (kept_ite (State.frameAbort_kept h_s) h_s)

theorem State.mgmtRefused_kept {s0 : State} {s cause a} (h_s : Kept s0 s) : Kept s0 (State.mgmtRefused s cause a) := by
  unfold State.mgmtRefused
  exact State.event_kept (State.lastErr_kept h_s)

theorem State.mgmtForbidden_kept {s0 : State} {s a} (h_s : Kept s0 s) : Kept s0 (State.mgmtForbidden s a) := by
  unfold State.mgmtForbidden
  extract_lets +onlyGivenNames v0
  have h0 : Kept s0 v0 := kept_ite (State.refuseBy_kept h_s) (State.downRefuse_kept h_s)
  clear_value v0
  exact State.lastErr_kept h0

theorem State.mgmtApply_kept {s0 : State} : ∀ {ws : List Word} {s : State} {a : Nat}, Kept s0 s → Kept s0 (s.mgmtApply a ws)
  | [], _, _, h => h
  | w :: ws, s, a, h => State.mgmtApply_kept (ws := ws) (a := a + 4)
      (s := if !s.up ∧ accAt a = some .st then s.downRefuse.lastErr .manager errRefused a else s.portWrite .manager a w)
      (kept_ite (State.lastErr_kept (State.downRefuse_kept h)) (State.portWrite_kept h))

theorem execMgmtWrite_kept {s0 : State} {addr len bytes s} (h_s : Kept s0 s) :
    Done s0 (execMgmtWrite addr len bytes s) := by
  unfold execMgmtWrite
  extract_lets +onlyGivenNames v0
  clear_value v0
  extract_lets +onlyGivenNames v1
  clear_value v1
  extract_lets +onlyGivenNames v2
  have h2 : Kept s0 v2 := State.touch_kept h_s
  clear_value v2
  extract_lets +onlyGivenNames v3
  clear_value v3
  extract_lets +onlyGivenNames v4
  clear_value v4
  extract_lets +onlyGivenNames v5
  clear_value v5
  refine done_ite (done_next h_s) ?_
  refine done_ite (done_next (State.mgmtRefused_kept h2)) ?_
  refine done_ite (done_next (State.event_kept (State.inc16_kept (State.mgmtRefused_kept h2)))) ?_
  refine done_ite (done_next (State.mgmtRefused_kept h2)) ?_
  split
  · exact done_next (State.mgmtRefused_kept h2)
  · split
    · exact done_next (State.mgmtForbidden_kept h2)
    · exact done_next (State.mgmtApply_kept h2)

theorem State.mgmtAnswer_kept {s0 : State} {s a len data} (h_s : Kept s0 s) : Kept s0 (State.mgmtAnswer s a len data) := by
  unfold State.mgmtAnswer
  extract_lets +onlyGivenNames v0
  clear_value v0
  extract_lets +onlyGivenNames v1
  clear_value v1
  exact State.onMstr_kept h_s

theorem execMgmtRead_kept {s0 : State} {addr len s} (h_s : Kept s0 s) : Done s0 (execMgmtRead addr len s) := by
  unfold execMgmtRead
  extract_lets +onlyGivenNames v0
  clear_value v0
  extract_lets +onlyGivenNames v1
  have h1 : Kept s0 v1 := State.touch_kept h_s
  clear_value v1
  refine done_ite (done_next h_s) ?_
  split
  · exact done_next (State.mgmtAnswer_kept (State.mgmtRefused_kept h1))
  · refine done_ite (done_next (State.mgmtAnswer_kept h1)) ?_
    split
    · rename_i x2 t3 x4 e5
      have h6 := kept1_fst (State.portReads_kept h1) e5
      exact done_next (State.mgmtAnswer_kept h6)

theorem execMgmtBusTimeout_kept {s0 : State} {s} (h_s : Kept s0 s) : Done s0 (execMgmtBusTimeout s) := by
  unfold execMgmtBusTimeout
  exact done_next h_s

theorem execAlertResponse_kept {s0 : State} {s} (h_s : Kept s0 s) : Done s0 (execAlertResponse s) := by
  unfold execAlertResponse
  exact done_ite (done_next (State.onMstr_kept h_s)) (done_next h_s)

end Sys2Proof.Machine
end

