-- ==== Sys2Proof/Laws/KeptDmaRun.lean ====
section
/-!
SUPPORT. What the operations of Machine/DmaRun.lean keep: one lemma each, from any state reached.
-/
namespace Sys2Proof.Machine

open Sys2Proof.Safety

theorem State.dmaReadWord_kept {s0 : State} {s ch a} (h_s : Kept s0 s) : Kept1 s0 (State.dmaReadWord s ch a) := by
  unfold State.dmaReadWord
  exact kept1_ite (kept1_mk h_s) (kept1_ite (kept1_mk h_s) (kept1_ite (kept1_mk h_s) (kept1_mk (State.msgRead_kept h_s))))

theorem State.dmaWriteBytes_kept {s0 : State} {s a bs} (h_s : Kept s0 s) : Kept s0 (State.dmaWriteBytes s a bs) := by
  unfold State.dmaWriteBytes
  exact kept_ite (kept_ite (State.refuseBy_kept h_s) (State.liveWrite_kept h_s)) (kept_ite (State.putWord_kept h_s) (State.putBytes_kept h_s))

theorem kept_beats_foldl {β : Type} {s0 : State} {f : DmaBeats → β → DmaBeats} (hf : ∀ b x, Kept s0 b.s → Kept s0 (f b x).s) :
    ∀ (l : List β) {b : DmaBeats}, Kept s0 b.s → Kept s0 (l.foldl f b).s
  | [], _, h => h
  | x :: l, _, h => kept_beats_foldl hf l (hf _ x h)

theorem DmaBeats.element_kept {s0 : State} {b : DmaBeats} {ch : Nat} {d : List Word} {i : Nat} (h : Kept s0 b.s) :
    Kept s0 (b.element ch d i).1.s := by
  unfold DmaBeats.element
  dsimp only
  split
  · split
    · exact h
    · exact State.incHalf_kept h
  · split <;> exact State.dmaReadWord_kept h

theorem DmaBeats.put_kept {s0 : State} {b : DmaBeats} {a : Nat} {bs : List Byte} (h : Kept s0 b.s) : Kept s0 (b.put a bs).1.s := by
  unfold DmaBeats.put
  split
  · exact h
  · exact State.dmaWriteBytes_kept h

theorem DmaBeats.move_kept {s0 : State} {b : DmaBeats} {ch : Nat} {d : List Word} {i : Nat} (h : Kept s0 b.s) :
    Kept s0 (b.move ch d i).s := DmaBeats.put_kept (DmaBeats.element_kept h)

theorem DmaBeats.pack_kept {s0 : State} {b : DmaBeats} {ch : Nat} {d : List Word} {n j : Nat} (h : Kept s0 b.s) :
    Kept s0 (b.pack ch d n j).s := by
  have hf : ∀ (l : List Nat) (x : DmaBeats × List Byte × Nat), Kept s0 x.1.s →
      Kept s0 (l.foldl (fun (x : DmaBeats × List Byte × Nat) i =>
        let (b, bs, r) := x.1.element ch d i
        (b, x.2.1 ++ bs, x.2.2 + r.toNat)) x).1.s := by
    intro l
    induction l with
    | nil => exact fun _ h => h
    | cons i l ih => exact fun x h => ih _ (DmaBeats.element_kept h)
  exact DmaBeats.put_kept (hf _ (b, [], 0) h)

theorem DmaBeats.unpack_kept {s0 : State} {b : DmaBeats} {ch : Nat} {d : List Word} {n j : Nat} (h : Kept s0 b.s) :
    Kept s0 (b.unpack ch d n j).s := by
  unfold DmaBeats.unpack
  dsimp only
  refine kept_beats_foldl (fun b x hb => ?_) _ ?_
  · split
    · exact hb
    · exact DmaBeats.put_kept hb
  · split <;> exact State.dmaReadWord_kept h

theorem State.dmaBeats_kept {s0 s : State} {ch : Nat} {d : List Word} (h : Kept s0 s) : Kept s0 (s.dmaBeats ch d).1.s := by
  unfold State.dmaBeats
  dsimp only
  split
  · refine kept_beats_foldl (fun b x hb => ?_) _ h
    split
    · exact DmaBeats.unpack_kept hb
    · exact DmaBeats.pack_kept hb
  · exact kept_beats_foldl (fun b x hb => DmaBeats.move_kept hb) _ h

theorem State.dmaBurstEnd_kept {s0 s : State} {ch : Nat} {d : List Word} {b : DmaBeats} {passed n : Nat} (h : Kept s0 b.s) :
    Kept s0 (s.dmaBurstEnd ch d b passed n) := by
  unfold State.dmaBurstEnd
  extract_lets +onlyGivenNames m
  extract_lets +onlyGivenNames t
  have ht : Kept s0 t := State.onDm_kept h
  clear_value m t
  split
  · exact State.dmaHalt_kept (State.dmaWriteBack_kept ht)
  · exact kept_ite (State.dmaEnd_kept (kept_ite (State.onDm_kept ht) ht)) (State.onDm_kept ht)

theorem execDmaBurst_kept {s0 s : State} (h_s : Kept s0 s) : Done s0 (execDmaBurst s) := by
  unfold execDmaBurst
  refine done_ite (done_next h_s) ?_
  split
  · exact done_next h_s
  · split
    · exact done_next h_s
    · rename_i ch _ _ d _
      have h1 : Kept s0 { s with dmaLast := ch } := h_s.plain rfl rfl rfl rfl rfl rfl rfl rfl
      exact done_next (State.dmaBurstEnd_kept (State.dmaBeats_kept (ch := ch) (d := d) h1))

end Sys2Proof.Machine
end

