-- ==== Sys2Proof/Laws/KeptTasks.lean ====
section
/-!
SUPPORT. What the operations of Machine/Tasks.lean keep: one lemma each, from any state reached.
-/
namespace Sys2Proof.Machine

open Sys2Proof.Safety

theorem State.spend_kept {s0 : State} {s n k} (h_s : Kept s0 s) : Kept s0 (State.spend s n k) := by
  unfold State.spend
  exact State.onSched_kept (State.onLn_kept h_s)

theorem State.romSpend_kept {s0 : State} {s n bound} (h_s : Kept s0 s) : Kept s0 (State.romSpend s n bound) := by
  unfold State.romSpend
  split
  · rename_i x0 x1 t2 e3
    have h4 := kept2_snd (State.takeFree_kept h_s) e3
    exact State.spend_kept h4

theorem State.beginTask_kept {s0 : State} {s n bk i} (h_s : Kept s0 s) : Kept s0 (State.beginTask s n bk i) := by
  unfold State.beginTask
  extract_lets +onlyGivenNames v0
  clear_value v0
  exact State.onLn_kept (State.laneRestart_kept h_s)

theorem State.beginUrgent_kept {s0 : State} {s n under} (h_s : Kept s0 s) : Kept s0 (State.beginUrgent s n under) := by
  unfold State.beginUrgent
  split
  · exact h_s
  · extract_lets +onlyGivenNames v0
    clear_value v0
    exact State.beginTask_kept (State.onLn_kept h_s)

theorem State.runWork_kept {s0 : State} {s n w} (h_s : Kept s0 s) : Kept s0 (State.runWork s n w) := by
  unfold State.runWork
  extract_lets +onlyGivenNames v0
  clear_value v0
  extract_lets +onlyGivenNames v1
  have h1 : ∀ t0, Kept s0 t0 → Kept s0 (v1 t0) := by
    unfold v1
    intro t2 h3
    exact State.onLn_kept h3
  clear_value v1
  split
  · exact State.romSpend_kept (h1 _ h_s)
  · extract_lets +onlyGivenNames v4
    have h4 : Kept s0 v4 := State.romSpend_kept (h1 _ h_s)
    clear_value v4
    extract_lets +onlyGivenNames v5
    have h5 : Kept s0 v5 := by
      unfold v5
      split
      · exact State.onDr_kept h4
      · exact h4
    clear_value v5
    exact State.runComm_kept h5
  · exact State.runCtx_kept (State.romSpend_kept (h1 _ h_s))
  · exact State.runConverter_kept (State.romSpend_kept (h1 _ h_s))
  · exact State.beginTask_kept h_s

theorem State.beginSlice_kept {s0 : State} {s n} (h_s : Kept s0 s) : Kept s0 (State.beginSlice s n) := by
  unfold State.beginSlice
  extract_lets +onlyGivenNames v0
  clear_value v0
  refine kept_ite (State.spend_kept (State.onLn_kept h_s)) ?_
  split
  · exact kept_ite (State.onLn_kept h_s) (kept_ite h_s (State.onLn_kept h_s))
  · split
    · exact State.beginTask_kept (State.onLn_kept h_s)
    · exact h_s

theorem execTaskDispatch_kept {s0 : State} {lane s} (h_s : Kept s0 s) : Done s0 (execTaskDispatch lane s) := by
  unfold execTaskDispatch
  extract_lets +onlyGivenNames v0
  clear_value v0
  extract_lets +onlyGivenNames v1
  clear_value v1
  refine done_ite (done_next h_s) ?_
  refine done_ite (done_next (State.beginUrgent_kept h_s)) ?_
  split
  · exact done_next (State.runWork_kept h_s)
  · exact done_ite (done_next (State.beginSlice_kept h_s)) (done_next h_s)

theorem State.urgentRelease_kept {s0 : State} {s n i} (h_s : Kept s0 s) : Kept s0 (State.urgentRelease s n i) := by
  unfold State.urgentRelease
  exact State.onLn_kept h_s

theorem State.urgentFire_kept {s0 : State} {s n i} (h_s : Kept s0 s) : Kept s0 (State.urgentFire s n i) := by
  unfold State.urgentFire
  extract_lets +onlyGivenNames v0
  clear_value v0
  extract_lets +onlyGivenNames v1
  clear_value v1
  refine kept_ite h_s ?_
  refine kept_ite (kept_ite (State.onLn_kept h_s) h_s) ?_
  split
  · exact kept_ite (State.urgentRelease_kept h_s) (kept_ite (State.inc16_kept h_s) (State.startT_kept h_s))
  · exact State.urgentRelease_kept h_s

theorem execUrgentTrigger_kept {s0 : State} {lane slot s} (h_s : Kept s0 s) : Done s0 (execUrgentTrigger lane slot s) := by
  unfold execUrgentTrigger
  exact done_next (State.urgentFire_kept h_s)

theorem execUrgentHoldExpiry_kept {s0 : State} {lane slot s} (h_s : Kept s0 s) :
    Done s0 (execUrgentHoldExpiry lane slot s) := by
  unfold execUrgentHoldExpiry
  extract_lets +onlyGivenNames v0
  clear_value v0
  extract_lets +onlyGivenNames v1
  clear_value v1
  exact done_next (State.expire_kept h_s (fun _ h2 => kept_ite (State.urgentRelease_kept h2) h2))

theorem execUrgentPreemption_kept {s0 : State} {lane s} (h_s : Kept s0 s) : Done s0 (execUrgentPreemption lane s) := by
  unfold execUrgentPreemption
  extract_lets +onlyGivenNames v0
  clear_value v0
  extract_lets +onlyGivenNames v1
  clear_value v1
  split
  · exact done_ite (done_next h_s) (done_next (State.beginUrgent_kept (State.onLn_kept h_s)))
  · exact done_next h_s

theorem execBoundAbort_kept {s0 : State} {lane s} (h_s : Kept s0 s) : Done s0 (execBoundAbort lane s) := by
  unfold execBoundAbort
  extract_lets +onlyGivenNames v0
  clear_value v0
  split
  · exact done_next h_s
  · extract_lets +onlyGivenNames v1
    clear_value v1
    split
    · exact done_ite (done_next (State.laneStop_kept h_s)) (done_next h_s)
    · exact done_next h_s

theorem execBackgroundSliceEnd_kept {s0 : State} {lane s} (h_s : Kept s0 s) : Done s0 (execBackgroundSliceEnd lane s) := by
  unfold execBackgroundSliceEnd
  extract_lets +onlyGivenNames v0
  clear_value v0
  extract_lets +onlyGivenNames v1
  clear_value v1
  exact done_ite (done_next (State.onLn_kept h_s)) (done_next h_s)

theorem State.stPeriod_kept {s0 : State} {s n start} (h_s : Kept s0 s) : Kept s0 (State.stPeriod s n start) := by
  unfold State.stPeriod
  extract_lets +onlyGivenNames v0
  have h0 : Kept s0 v0 := State.onLn_kept h_s
  clear_value v0
  exact kept_ite (State.startT_kept h0) (State.stopT_kept h0)

theorem State.stArm_kept {s0 : State} {s} (h_s : Kept s0 s) : Kept s0 (State.stArm s) := by
  unfold State.stArm
  exact forN_kept (fun _ _ h0 => kept_ite (kept_ite h0 (State.stPeriod_kept h0)) (State.stopT_kept h0)) h_s

theorem execSelftestPassDone_kept {s0 : State} {lane ok s} (h_s : Kept s0 s) :
    Done s0 (execSelftestPassDone lane ok s) := by
  unfold execSelftestPassDone
  extract_lets +onlyGivenNames v0
  clear_value v0
  extract_lets +onlyGivenNames v1
  have h1 : Kept s0 v1 := State.onLn_kept h_s
  clear_value v1
  extract_lets +onlyGivenNames v2
  have h2 : Kept s0 v2 := State.inc32_kept h1
  clear_value v2
  exact done_ite (done_next h_s) (done_ite (done_next (State.stPeriod_kept h2)) (done_next (State.laneFault_kept (State.onLn_kept h1))))

theorem execSelftestLate_kept {s0 : State} {lane s} (h_s : Kept s0 s) : Done s0 (execSelftestLate lane s) := by
  unfold execSelftestLate
  extract_lets +onlyGivenNames v0
  clear_value v0
  refine done_next ?_
  refine State.expire_kept h_s ?_
  intro t3 h4
  extract_lets +onlyGivenNames v5
  have h5 : Kept s0 v5 := State.logAdd_kept (State.event_kept h4)
  clear_value v5
  exact State.startT_kept (State.onLn_kept h5)

theorem State.takeRelease_kept {s0 : State} {s g} (h_s : Kept s0 s) : Kept s0 (State.takeRelease s g) := by
  unfold State.takeRelease
  extract_lets +onlyGivenNames v0
  have h0 : Kept s0 v0 := forL_kept (fun _ _ h1 => State.spend_kept (State.takeover_kept h1)) h_s
  clear_value v0
  exact kept_ite h_s (State.onLn_kept h0)

theorem State.releaseAll_kept {s0 : State} {s} (h_s : Kept s0 s) : Kept s0 (State.releaseAll s) := by
  unfold State.releaseAll
  extract_lets +onlyGivenNames v0
  have h0 : Kept s0 v0 := forN_kept (fun _ _ h1 => State.takeRelease_kept h1) h_s
  clear_value v0
  refine forN_kept ?_ h0
  intro x3 t4 h5
  extract_lets +onlyGivenNames v6
  clear_value v6
  exact kept_ite (State.onLn_kept h5) (State.onLn_kept (State.laneRestart_kept h5))

theorem State.missWork_kept {s0 : State} {s n w} (h_s : Kept s0 s) : Kept s0 (State.missWork s n w) := by
  unfold State.missWork
  extract_lets +onlyGivenNames v0
  have h0 : Kept s0 v0 := forL_kept (fun _ _ h1 => State.repeatPattern_kept h1) h_s
  clear_value v0
  exact State.laneFault_kept (State.inc16_kept h0)

theorem State.cutLane_kept {s0 : State} {s n} (h_s : Kept s0 s) : Kept s0 (State.cutLane s n) := by
  unfold State.cutLane
  extract_lets +onlyGivenNames v0
  clear_value v0
  extract_lets +onlyGivenNames v1
  clear_value v1
  extract_lets +onlyGivenNames v2
  have h2 : Kept s0 v2 := State.onLn_kept h_s
  clear_value v2
  extract_lets +onlyGivenNames v3
  have h3 : Kept s0 v3 := forL_kept (fun _ _ h4 => State.missWork_kept h4) h2
  clear_value v3
  extract_lets +onlyGivenNames v5
  clear_value v5
  extract_lets +onlyGivenNames v6
  have h6 : Kept s0 v6 := kept_ite (State.setLv_kept h3) h3
  clear_value v6
  exact State.onLn_kept h6

theorem State.cutAll_kept {s0 : State} {s} (h_s : Kept s0 s) : Kept s0 (State.cutAll s) := by
  unfold State.cutAll
  extract_lets +onlyGivenNames v0
  clear_value v0
  extract_lets +onlyGivenNames v1
  have h1 : Kept s0 v1 := forN_kept (fun _ _ h2 => State.cutLane_kept h2) h_s
  clear_value v1
  refine forN_kept ?_ h1
  intro x4 t5 h6
  extract_lets +onlyGivenNames v7
  have h7 : Kept s0 v7 := State.onAx_kept h6
  clear_value v7
  exact kept_ite (kept_ite (State.raise_kept h7) h7) (State.clearSrc_kept (State.onAx_kept h6))

theorem State.takeCut_kept {s0 : State} {s} (h_s : Kept s0 s) : Kept s0 (State.takeCut s) := by
  unfold State.takeCut
  exact kept_ite (State.startReproof_kept (State.onStage_kept (State.stArm_kept (State.setLaneStates_kept (State.event_kept h_s))))) h_s

end Sys2Proof.Machine
end

