-- ==== Sys2Proof/Laws/KeptPers.lean ====
section
/-!
SUPPORT. What the operations of Machine/Pers.lean keep: one lemma each, from any state reached.
-/
namespace Sys2Proof.Machine

open Sys2Proof.Safety

theorem State.setPers_kept {s0 : State} {s n} (h_s : Kept s0 s) : Kept s0 (State.setPers s n) := by
  unfold State.setPers
  exact State.onPower_kept h_s

theorem State.persAxis_kept {s0 : State} {s code next} (h_s : Kept s0 s) : Kept s0 (State.persAxis s code next) := by
  unfold State.persAxis
  exact kept_ite h_s (State.setPers_kept (State.axResult_kept (State.axEffect_kept h_s)))

theorem State.persMot_kept {s0 : State} {s code next} (h_s : Kept s0 s) : Kept s0 (State.persMot s code next) := by
  unfold State.persMot
  exact kept_ite h_s (State.setPers_kept (State.onMt_kept h_s))

theorem State.setFan_kept {s0 : State} {s} (h_s : Kept s0 s) : Kept s0 (State.setFan s) := by
  unfold State.setFan
  exact State.setLv_kept h_s

theorem State.persAct_kept {s0 : State} {s} (h_s : Kept s0 s) : Kept s0 (State.persAct s) := by
  unfold State.persAct
  extract_lets +onlyGivenNames v0
  clear_value v0
  extract_lets +onlyGivenNames v1
  clear_value v1
  extract_lets +onlyGivenNames v2
  clear_value v2
  extract_lets +onlyGivenNames v3
  clear_value v3
  exact kept_ite (State.setPers_kept h_s) (kept_ite (kept_ite (kept_ite (State.setPers_kept h_s) (State.setPers_kept h_s)) h_s) (kept_ite (kept_ite (State.setPers_kept h_s) (State.persAxis_kept h_s)) (kept_ite (kept_ite (kept_ite (State.persAxis_kept h_s) (State.setPers_kept h_s)) (kept_ite (State.persAxis_kept h_s) (State.setPers_kept h_s))) (kept_ite (kept_ite (kept_ite (State.persMot_kept h_s) (State.persMot_kept h_s)) (kept_ite h_s (State.setPers_kept h_s))) (kept_ite (kept_ite (State.setPers_kept h_s) (kept_ite h_s (State.persMot_kept h_s))) (kept_ite (kept_ite (State.setPers_kept h_s) (kept_ite (State.persAxis_kept h_s) h_s)) (kept_ite (kept_ite (State.persAxis_kept h_s) (State.setPers_kept h_s)) (kept_ite h_s (State.setPers_kept h_s)))))))))

theorem State.persRun_kept {s0 : State} {s} (h_s : Kept s0 s) : Kept s0 (State.persRun s) := by
  unfold State.persRun
  exact kept_ite (State.persAct_kept (State.persAct_kept (State.persAct_kept h_s))) h_s

theorem State.persEdge_kept {s0 : State} {s i rise} (h_s : Kept s0 s) : Kept s0 (State.persEdge s i rise) := by
  unfold State.persEdge
  extract_lets +onlyGivenNames v0
  clear_value v0
  extract_lets +onlyGivenNames v1
  have h1 : Kept s0 v1 := kept_ite (State.setPers_kept h_s) h_s
  clear_value v1
  extract_lets +onlyGivenNames v2
  have h2 : Kept s0 v2 := kept_ite (State.clearAll_kept (kept_ite h1 (State.axResult_kept (State.axEffect_kept h1)))) h1
  clear_value v2
  exact kept_ite h_s (State.persRun_kept h2)

theorem State.persRound_kept {s0 : State} {s} (h_s : Kept s0 s) : Kept s0 (State.persRound s) := by
  unfold State.persRound
  exact kept_ite (State.persRun_kept (State.setFan_kept h_s)) h_s

theorem execDiDebounceAccept_kept {s0 : State} {di s} (h_s : Kept s0 s) : Done s0 (execDiDebounceAccept di s) := by
  unfold execDiDebounceAccept
  extract_lets +onlyGivenNames v0
  clear_value v0
  extract_lets +onlyGivenNames v1
  have h1 : Kept s0 v1 := State.diAccept_kept h_s
  clear_value v1
  extract_lets +onlyGivenNames v2
  clear_value v2
  exact done_next (kept_ite h1 (State.persEdge_kept h1))

theorem execOffsetCaptureDone_kept {s0 : State} {axis s} (h_s : Kept s0 s) : Done s0 (execOffsetCaptureDone axis s) := by
  unfold execOffsetCaptureDone
  exact done_next (State.persRun_kept (State.captureDone_kept h_s))

end Sys2Proof.Machine
end

