-- ==== Sys2Proof/Laws/KeptFrames.lean ====
section
/-!
SUPPORT. What the operations of Machine/Frames.lean keep: one lemma each, from any state reached.
-/
namespace Sys2Proof.Machine

open Sys2Proof.Safety

theorem State.readmit_kept {s0 : State} {s master ch} (h_s : Kept s0 s) : Kept s0 (State.readmit s master ch) := by
  unfold State.readmit
  extract_lets +onlyGivenNames v0
  clear_value v0
  extract_lets +onlyGivenNames v1
  have h1 : Kept s0 v1 := by
    unfold v1
    exact Kept.upd h_s rfl (Nat.le_refl _) id id id id MapOk.del rfl
  clear_value v1
  extract_lets +onlyGivenNames v2
  have h2 : Kept s0 v2 := State.onLg_kept h1
  clear_value v2
  extract_lets +onlyGivenNames v3
  have h3 : Kept s0 v3 := by
    unfold v3
    split
    · exact State.fbStart_kept h1
    · exact kept_ite (State.chopClear_kept h2) h2
    · exact kept_ite (State.chopClear_kept h2) h2
    · exact State.onLn_kept h1
    · exact State.onCn_kept h1
    · exact State.onFo_kept h1
    · exact h1
  clear_value v3
  exact State.logAdd_kept h3

theorem State.strikeIo_kept {s0 : State} {s changed oldMode} (h_s : Kept s0 s) :
    Kept s0 (State.strikeIo s changed oldMode) := by
  unfold State.strikeIo
  extract_lets +onlyGivenNames v0
  have h0 : Kept s0 v0 := forN_kept (fun _ _ h1 => kept_ite (State.fbStart_kept h1) h1) h_s
  clear_value v0
  extract_lets +onlyGivenNames v2
  have h2 : Kept s0 v2 := forN_kept (fun _ _ h3 => kept_ite (State.repStart_kept h3) h3) h0
  clear_value v2
  extract_lets +onlyGivenNames v4
  have h4 : Kept s0 v4 := forN_kept (fun _ _ h5 => kept_ite (State.onDi_kept h5) h5) h2
  clear_value v4
  extract_lets +onlyGivenNames v6
  clear_value v6
  extract_lets +onlyGivenNames v7
  have h7 : Kept s0 v7 := forN_kept (fun _ _ h8 => kept_ite (State.onCn_kept h8) h8) h4
  clear_value v7
  extract_lets +onlyGivenNames v9
  have h9 : Kept s0 v9 := forN_kept (fun _ _ h10 => kept_ite (State.onRp_kept h10) h10) h7
  clear_value v9
  extract_lets +onlyGivenNames v11
  have h11 : Kept s0 v11 := forN_kept (fun _ _ h12 => kept_ite (State.onSh_kept h12) h12) h9
  clear_value v11
  extract_lets +onlyGivenNames v13
  clear_value v13
  exact kept_ite (State.stopT_kept h11) (kept_ite (State.startT_kept h11) h11)

theorem State.strikeLegs_kept {s0 : State} {s changed old oldMode} (h_s : Kept s0 s) :
    Kept s0 (State.strikeLegs s changed old oldMode) := by
  unfold State.strikeLegs
  refine forN_kept ?_ h_s
  intro x1 t2 h3
  extract_lets +onlyGivenNames v4
  clear_value v4
  extract_lets +onlyGivenNames v5
  clear_value v5
  extract_lets +onlyGivenNames v6
  have h6 : Kept s0 v6 := kept_ite (State.onLg_kept h3) h3
  clear_value v6
  exact kept_ite (State.legEnter_kept h6) h6

theorem State.newConfig_kept {s0 : State} {s} (h_s : Kept s0 s) : Kept s0 (State.newConfig s) := by
  unfold State.newConfig
  extract_lets +onlyGivenNames v0
  have h0 : Kept s0 v0 := State.onTime_kept h_s
  clear_value v0
  extract_lets +onlyGivenNames v1
  have h1 : Kept s0 v1 := forN_kept (fun _ _ h2 => State.onDr_kept h2) h0
  clear_value v1
  extract_lets +onlyGivenNames v3
  have h3 : Kept s0 v3 := State.ntRoleBoundary_kept (State.stArm_kept (State.setLaneStates_kept (State.setPlans_kept h1)))
  clear_value v3
  extract_lets +onlyGivenNames v4
  have h4 : Kept s0 v4 := forN_kept (fun _ _ h5 => State.onLn_kept h5) h3
  clear_value v4
  extract_lets +onlyGivenNames v6
  have h6 : Kept s0 v6 := State.onSafe_kept h4
  clear_value v6
  extract_lets +onlyGivenNames v7
  clear_value v7
  exact forN_kept (fun _ _ h8 => kept_ite h8 (State.clearSrc_kept h8)) h6

theorem State.strike_kept {s0 : State} {s} (h_s : Kept s0 s) : Kept s0 (State.strike s) := by
  unfold State.strike
  extract_lets +onlyGivenNames v0
  clear_value v0
  extract_lets +onlyGivenNames v1
  clear_value v1
  extract_lets +onlyGivenNames v2
  clear_value v2
  extract_lets +onlyGivenNames v3
  clear_value v3
  extract_lets +onlyGivenNames v4
  clear_value v4
  extract_lets +onlyGivenNames v5
  clear_value v5
  extract_lets +onlyGivenNames v6
  clear_value v6
  extract_lets +onlyGivenNames v7
  have h7 : Kept s0 v7 := State.applyStage_kept (State.dmaStrikeStop_kept h_s)
  clear_value v7
  extract_lets +onlyGivenNames v8
  have h8 : Kept s0 v8 := forL_kept (fun _ _ h9 => State.readmit_kept h9) h7
  clear_value v8
  extract_lets +onlyGivenNames v10
  have h10 : Kept s0 v10 := State.strikeIo_kept h8
  clear_value v10
  extract_lets +onlyGivenNames v11
  have h11 : Kept s0 v11 := State.ctxStrike_kept h10
  clear_value v11
  extract_lets +onlyGivenNames v12
  have h12 : Kept s0 v12 := State.newConfig_kept (State.strikeLegs_kept h11)
  clear_value v12
  extract_lets +onlyGivenNames v13
  have h13 : Kept s0 v13 := kept_ite h12 (forN_kept (fun _ _ h14 => kept_ite (State.onAx_kept h14) h14) h12)
  clear_value v13
  exact kept_ite (State.onLv_kept (State.onPower_kept h13)) h13

theorem State.startRamp_kept {s0 : State} {s point} (h_s : Kept s0 s) : Kept s0 (State.startRamp s point) := by
  unfold State.startRamp
  extract_lets +onlyGivenNames v0
  clear_value v0
  exact kept_ite (State.onSched_kept h_s) (State.startT_kept (State.onSched_kept h_s))

theorem State.enterRescue_kept {s0 : State} {s} (h_s : Kept s0 s) : Kept s0 (State.enterRescue s) := by
  unfold State.enterRescue
  refine forN_kept ?_ h_s
  intro x1 t2 h3
  extract_lets +onlyGivenNames v4
  clear_value v4
  exact kept_ite (State.pushReact_kept h3) h3

theorem State.leaveRescue_kept {s0 : State} {s} (h_s : Kept s0 s) : Kept s0 (State.leaveRescue s) := by
  unfold State.leaveRescue
  extract_lets +onlyGivenNames v0
  have h0 : Kept s0 v0 := forN_kept (fun _ _ h1 => State.onAx_kept h1) h_s
  clear_value v0
  exact kept_ite (State.clearSrc_kept (State.setSeq_kept h0)) h0

theorem State.enterPower_kept {s0 : State} {s st} (h_s : Kept s0 s) : Kept s0 (State.enterPower s st) := by
  unfold State.enterPower
  extract_lets +onlyGivenNames v0
  clear_value v0
  extract_lets +onlyGivenNames v1
  have h1 : Kept s0 v1 := State.onSched_kept h_s
  clear_value v1
  extract_lets +onlyGivenNames v2
  have h2 : Kept s0 v2 := State.startRamp_kept (State.logAdd_kept (State.event_kept h1))
  clear_value v2
  extract_lets +onlyGivenNames v3
  have h3 : Kept s0 v3 := kept_ite (State.leaveRescue_kept h2) h2
  clear_value v3
  exact kept_ite (State.enterRescue_kept h3) (kept_ite (forN_kept (fun _ _ h4 => State.onLn_kept h4) h3) h3)

theorem State.powerBoundary_kept {s0 : State} {s} (h_s : Kept s0 s) : Kept s0 (State.powerBoundary s) := by
  unfold State.powerBoundary
  extract_lets +onlyGivenNames v0
  have h0 : Kept s0 v0 := State.onSched_kept h_s
  clear_value v0
  extract_lets +onlyGivenNames v1
  have h1 : Kept s0 v1 := kept_ite h0 (State.enterPower_kept h0)
  clear_value v1
  extract_lets +onlyGivenNames v2
  have h2 : Kept s0 v2 := State.onSched_kept h_s
  clear_value v2
  refine kept_ite h_s ?_
  refine kept_ite (kept_ite (State.rescueBegin_kept h1) h1) ?_
  split
  · exact kept_ite (State.onSched_kept h2) (State.enterPower_kept h2)
  · exact h2

theorem State.shedBoundary_kept {s0 : State} {s} (h_s : Kept s0 s) : Kept s0 (State.shedBoundary s) := by
  unfold State.shedBoundary
  refine kept_ite h_s ?_
  refine forN_kept ?_ h_s
  intro x3 t4 h5
  extract_lets +onlyGivenNames v6
  clear_value v6
  exact kept_ite (State.onAx_kept h5) (kept_ite (State.event_kept (State.inc16_kept (State.onAx_kept h5))) h5)

theorem State.accountBoundary_kept {s0 : State} {s prevLen prevPoint} (h_s : Kept s0 s) :
    Kept s0 (State.accountBoundary s prevLen prevPoint) := by
  unfold State.accountBoundary
  extract_lets +onlyGivenNames v0
  clear_value v0
  extract_lets +onlyGivenNames v1
  clear_value v1
  extract_lets +onlyGivenNames v2
  clear_value v2
  extract_lets +onlyGivenNames v3
  clear_value v3
  exact State.onSched_kept h_s

theorem State.frameOpen_kept {s0 : State} {s t} (h_s : Kept s0 s) : Kept s0 (State.frameOpen s t) := by
  unfold State.frameOpen
  exact State.onTime_kept (State.reach_kept h_s)

theorem State.trimBoundary_kept {s0 : State} {s} (h_s : Kept s0 s) : Kept s0 (State.trimBoundary s) := by
  unfold State.trimBoundary
  exact State.onHk_kept h_s

theorem State.frameLatch_kept {s0 : State} {s was} (h_s : Kept s0 s) : Kept s0 (State.frameLatch s was) := by
  unfold State.frameLatch
  extract_lets +onlyGivenNames v0
  have h0 : Kept s0 v0 := forN_kept (fun _ _ h1 => State.onLg_kept h1) h_s
  clear_value v0
  extract_lets +onlyGivenNames v2
  have h2 : Kept s0 v2 := State.onHk_kept h0
  clear_value v2
  extract_lets +onlyGivenNames v3
  have h3 : Kept s0 v3 := State.adcBoundary_kept (State.ctxBoundary_kept (State.trimBoundary_kept h2))
  clear_value v3
  extract_lets +onlyGivenNames v4
  have h4 : Kept s0 v4 := forN_kept (fun _ _ h5 => State.repBoundary_kept h5) (forN_kept (fun _ _ h6 => State.fbBoundary_kept h6) h3)
  clear_value v4
  exact forN_kept (fun _ _ h7 => State.groupBoundary_kept h7) (forN_kept (fun _ _ h8 => State.motBoundary_kept h8) h4)

theorem State.frameApply_kept {s0 : State} {s prevLen} (h_s : Kept s0 s) : Kept s0 (State.frameApply s prevLen) := by
  unfold State.frameApply
  extract_lets +onlyGivenNames v0
  clear_value v0
  extract_lets +onlyGivenNames v1
  have h1 : Kept s0 v1 := State.takeImage_kept (kept_ite (State.strike_kept h_s) h_s)
  clear_value v1
  extract_lets +onlyGivenNames v2
  have h2 : Kept s0 v2 := State.onTime_kept h1
  clear_value v2
  extract_lets +onlyGivenNames v3
  have h3 : Kept s0 v3 := State.onHk_kept h2
  clear_value v3
  exact State.accountBoundary_kept (State.powerBoundary_kept h3)

theorem State.frameAxes_kept {s0 : State} {s prevLen was} (h_s : Kept s0 s) : Kept s0 (State.frameAxes s prevLen was) := by
  unfold State.frameAxes
  extract_lets +onlyGivenNames v0
  have h0 : Kept s0 v0 := forN_kept (fun _ _ h1 => State.axisBoundary_kept h1) (State.mainsBoundary_kept h_s)
  clear_value v0
  extract_lets +onlyGivenNames v2
  have h2 : Kept s0 v2 := State.rescueBoundary_kept (forN_kept (fun _ _ h3 => State.ladderBoundary_kept h3) (State.shedBoundary_kept h0))
  clear_value v2
  extract_lets +onlyGivenNames v4
  have h4 : Kept s0 v4 := forN_kept (fun _ _ h5 => kept_ite (State.motBoundary_kept h5) h5) h2
  clear_value v4
  extract_lets +onlyGivenNames v6
  have h6 : Kept s0 v6 := forN_kept (fun _ _ h7 => State.legBoundary_kept h7) (State.chopBoundary_kept h4)
  clear_value v6
  exact State.persRun_kept (State.judgeFlt_kept h6)

theorem State.boundaryAt_kept {s0 : State} {s t} (h_s : Kept s0 s) : Kept s0 (State.boundaryAt s t) := by
  unfold State.boundaryAt
  extract_lets +onlyGivenNames v0
  clear_value v0
  extract_lets +onlyGivenNames v1
  clear_value v1
  extract_lets +onlyGivenNames v2
  have h2 : Kept s0 v2 := State.frameOpen_kept h_s
  clear_value v2
  exact kept_ite (State.onTime_kept h2) (State.enterCommit_kept (State.frameAxes_kept (State.frameApply_kept (State.frameLatch_kept h2))))

theorem execFrameBoundary_kept {s0 : State} {s} (h_s : Kept s0 s) : Done s0 (execFrameBoundary s) := by
  unfold execFrameBoundary
  split
  · exact done_next (State.boundaryAt_kept h_s)
  · exact done_next h_s

theorem State.readCommands_kept {s0 : State} {s} (h_s : Kept s0 s) : Kept s0 (State.readCommands s) := by
  unfold State.readCommands
  refine forN_kept ?_ h_s
  intro x1 t2 h3
  extract_lets +onlyGivenNames v4
  clear_value v4
  exact State.onDr_kept h3

theorem execSamplePublish_kept {s0 : State} {s} (h_s : Kept s0 s) : Done s0 (execSamplePublish s) := by
  unfold execSamplePublish
  extract_lets +onlyGivenNames v0
  have h0 : Kept s0 v0 := State.onTime_kept (State.readCommands_kept (State.reach_kept h_s))
  clear_value v0
  extract_lets +onlyGivenNames v1
  have h1 : Kept s0 v1 := forN_kept (fun _ _ h2 => State.shareSend_kept h2) h0
  clear_value v1
  exact done_ite (done_next h_s) (done_next (State.dmaFrame_kept (State.releaseAll_kept (State.chopPublish_kept h1))))

theorem execCommitCutoff_kept {s0 : State} {s} (h_s : Kept s0 s) : Done s0 (execCommitCutoff s) := by
  unfold execCommitCutoff
  extract_lets +onlyGivenNames v0
  have h0 : Kept s0 v0 := State.reach_kept h_s
  clear_value v0
  extract_lets +onlyGivenNames v1
  have h1 : Kept s0 v1 := forN_kept (fun _ _ h2 => State.legCommit_kept h2) (State.cutAll_kept h0)
  clear_value v1
  exact done_ite (done_next h_s) (done_next (State.onTime_kept (State.takeCut_kept h1)))

end Sys2Proof.Machine
end

