-- ==== Sys2Proof/Laws/KeptReset.lean ====
section
/-!
SUPPORT. What the operations of Machine/Reset.lean keep: one lemma each, from any state reached.
-/
namespace Sys2Proof.Machine

open Sys2Proof.Safety

theorem State.fabricDown_kept {s0 : State} {s} (h_s : Kept s0 s) : Kept s0 (State.fabricDown s) := by
  unfold State.fabricDown
  exact State.onLv_kept (State.event_kept h_s)

theorem State.coreClear_kept {s0 : State} {s} (h_s : Kept s0 s) : Kept s0 (State.coreClear s) := 
  ⟨h_s.pending, h_s.free, fun w => let w := h_s.whole w; ⟨memFilter_wf w.mem, MapOk.filter w.regs, MapOk.filter w.cfg, rfl, rfl, rfl⟩⟩

theorem State.coreReset_kept {s0 : State} {s source phase} (h_s : Kept s0 s) :
    Kept s0 (State.coreReset s source phase) := by
  unfold State.coreReset
  extract_lets +onlyGivenNames v0
  have h0 : Kept s0 v0 := kept_ite (State.fabricDown_kept h_s) h_s
  clear_value v0
  extract_lets +onlyGivenNames v1
  have h1 : Kept s0 v1 := State.complete_kept h0
  clear_value v1
  exact State.onPower_kept (State.coreClear_kept h1)

theorem State.restartAt_kept {s0 : State} {s source} (h_s : Kept s0 s) : Kept s0 (State.restartAt s source) := by
  unfold State.restartAt
  exact kept_ite h_s (State.coreReset_kept h_s)

theorem execRstNReset_kept {s0 : State} {s} (h_s : Kept s0 s) : Done s0 (execRstNReset s) := by
  unfold execRstNReset
  exact done_next (State.restartAt_kept h_s)

theorem execWatchdogReset_kept {s0 : State} {s} (h_s : Kept s0 s) : Done s0 (execWatchdogReset s) := by
  unfold execWatchdogReset
  exact done_ite (done_next (State.restartAt_kept h_s)) (done_next h_s)

theorem execVinLockout_kept {s0 : State} {s} (h_s : Kept s0 s) : Done s0 (execVinLockout s) := by
  unfold execVinLockout
  exact done_ite (done_next h_s) (done_next (State.restartAt_kept (State.onPower_kept h_s)))

theorem execVinRising_kept {s0 : State} {s} (h_s : Kept s0 s) : Done s0 (execVinRising s) := by
  unfold execVinRising
  exact done_ite (done_next (State.onPower_kept h_s)) (done_next h_s)

theorem execCoreSupplyLoss_kept {s0 : State} {s} (h_s : Kept s0 s) : Done s0 (execCoreSupplyLoss s) := by
  unfold execCoreSupplyLoss
  exact done_ite (done_next (State.coreReset_kept h_s)) (done_next h_s)

theorem execVioLoss_kept {s0 : State} {s} (h_s : Kept s0 s) : Done s0 (execVioLoss s) := by
  unfold execVioLoss
  exact done_next (State.onPower_kept h_s)

theorem execVioReturn_kept {s0 : State} {s} (h_s : Kept s0 s) : Done s0 (execVioReturn s) := by
  unfold execVioReturn
  exact done_next (State.onPower_kept h_s)

theorem execPowerOn_kept {s0 : State} {byVin madr s} (h_s : Kept s0 s) : Done s0 (execPowerOn byVin madr s) := by
  unfold execPowerOn
  exact done_ite (done_next h_s) (done_next (State.onPower_kept h_s))

theorem execPowerOff_kept {s0 : State} {s} (h_s : Kept s0 s) : Done s0 (execPowerOff s) := 
  ⟨_, rfl, h_s.pending, h_s.free, fun w => ⟨memFilter_wf (h_s.whole w).mem, rfl, rfl, rfl, rfl, rfl⟩⟩

theorem State.setLevel_kept {s0 : State} {s l} (h_s : Kept s0 s) : Kept s0 (State.setLevel s l) := by
  unfold State.setLevel
  extract_lets +onlyGivenNames v0
  clear_value v0
  exact kept_ite h_s (State.logAdd_kept (State.event_kept (State.onHk_kept h_s)))

theorem State.snapHalted_kept {s0 : State} {s} (h_s : Kept s0 s) : Kept s0 (State.snapHalted s) := by
  unfold State.snapHalted
  exact kept_ite (State.setLv_kept h_s) (State.onLv_kept h_s)

theorem State.commitThermal_kept {s0 : State} {s} (h_s : Kept s0 s) : Kept s0 (State.commitThermal s) := by
  unfold State.commitThermal
  split
  · rename_i x0 t1 e2
    have h3 := done_get (execLogEntryCommit_kept (State.logAdd_kept h_s)) e2
    exact h3
  · exact h_s

theorem State.thermalShutdown_kept {s0 : State} {s} (h_s : Kept s0 s) : Kept s0 (State.thermalShutdown s) := by
  unfold State.thermalShutdown
  extract_lets +onlyGivenNames v0
  have h0 : Kept s0 v0 := State.pfault_kept (State.setLevel_kept h_s)
  clear_value v0
  extract_lets +onlyGivenNames v1
  have h1 : Kept s0 v1 := kept_ite (State.noteSrc_kept h0) h0
  clear_value v1
  extract_lets +onlyGivenNames v2
  have h2 : Kept s0 v2 := State.commitThermal_kept (State.snapHalted_kept h1)
  clear_value v2
  exact kept_ite h_s (State.onPower_kept (State.coreReset_kept h2))

theorem execThermalComparatorTrip_kept {s0 : State} {s} (h_s : Kept s0 s) : Done s0 (execThermalComparatorTrip s) := by
  unfold execThermalComparatorTrip
  exact done_next (State.thermalShutdown_kept h_s)

theorem execTimeRefLost_kept {s0 : State} {s} (h_s : Kept s0 s) : Done s0 (execTimeRefLost s) := by
  unfold execTimeRefLost
  extract_lets +onlyGivenNames v0
  have h0 : Kept s0 v0 := State.onHk_kept (State.onTime_kept h_s)
  clear_value v0
  exact done_ite (done_next h_s) (done_ite (done_next h0) (done_next (State.raiseNow_kept (forN_kept (fun _ _ h1 => State.legOff_kept h1) h0))))

theorem execRefReturn_kept {s0 : State} {s} (h_s : Kept s0 s) : Done s0 (execRefReturn s) := by
  unfold execRefReturn
  exact done_ite (done_next (State.onTime_kept h_s)) (done_next h_s)

theorem execPllRelock_kept {s0 : State} {s} (h_s : Kept s0 s) : Done s0 (execPllRelock s) := by
  unfold execPllRelock
  exact done_ite (done_next (State.clearSrc_kept (State.onTime_kept h_s))) (done_next h_s)

theorem execOpRampEnd_kept {s0 : State} {s} (h_s : Kept s0 s) : Done s0 (execOpRampEnd s) := by
  unfold execOpRampEnd
  exact done_next (State.expire_kept h_s (fun _ h0 => State.onSched_kept h0))

theorem State.tapLoad_kept {s0 : State} {s i} (h_s : Kept s0 s) : Kept s0 (State.tapLoad s i) := by
  unfold State.tapLoad
  extract_lets +onlyGivenNames v0
  have h0 : Kept s0 v0 := kept_ite (State.restartAt_kept h_s) h_s
  clear_value v0
  exact State.onPower_kept h0

theorem State.setTdo_kept {s0 : State} {s w} (h_s : Kept s0 s) : Kept s0 (State.setTdo s w) := by
  unfold State.setTdo
  exact State.onPower_kept h_s

theorem State.scanBalls_kept {s0 : State} {s} (h_s : Kept s0 s) : Kept s0 (State.scanBalls s) := by
  unfold State.scanBalls
  split
  · rename_i x0 x1 t2 e3
    have h4 := kept2_snd (State.takeFree_kept h_s) e3
    exact State.setTdo_kept h4

theorem execTapReset_kept {s0 : State} {s} (h_s : Kept s0 s) : Done s0 (execTapReset s) := by
  unfold execTapReset
  exact done_ite (done_next (State.tapLoad_kept h_s)) (done_next h_s)

theorem execBypass_kept {s0 : State} {s} (h_s : Kept s0 s) : Done s0 (execBypass s) := by
  unfold execBypass
  exact done_ite (done_next (State.setTdo_kept (State.tapLoad_kept h_s))) (done_next h_s)

theorem execSamplePreload_kept {s0 : State} {s} (h_s : Kept s0 s) : Done s0 (execSamplePreload s) := by
  unfold execSamplePreload
  exact done_ite (done_next (State.scanBalls_kept (State.tapLoad_kept h_s))) (done_next h_s)

theorem execIdcode_kept {s0 : State} {s} (h_s : Kept s0 s) : Done s0 (execIdcode s) := by
  unfold execIdcode
  exact done_ite (done_next (State.setTdo_kept (State.tapLoad_kept h_s))) (done_next h_s)

theorem execExtest_kept {s0 : State} {s} (h_s : Kept s0 s) : Done s0 (execExtest s) := by
  unfold execExtest
  exact done_ite (done_next (State.scanBalls_kept (forN_kept (fun _ _ h0 => State.legOff_kept h0) (State.onPower_kept (State.tapLoad_kept h_s))))) (done_next h_s)

end Sys2Proof.Machine
end

