-- ==== Sys2Proof/Laws/KeptStartup.lean ====
section
/-!
SUPPORT. What the operations of Machine/Startup.lean keep: one lemma each, from any state reached.
-/
namespace Sys2Proof.Machine

open Sys2Proof.Safety

theorem State.bootReg_kept {s0 : State} {s p o v} (h_s : Kept s0 s) : Kept s0 (State.bootReg s p o v) := by
  unfold State.bootReg
  exact State.markDirty_kept (State.setCd_kept h_s)

theorem State.bootFld_kept {s0 : State} {s p o hi lo v} (h_s : Kept s0 s) : Kept s0 (State.bootFld s p o hi lo v) := by
  unfold State.bootFld
  exact State.bootReg_kept h_s

theorem State.bootOpen_kept {s0 : State} {s} (h_s : Kept s0 s) : Kept s0 (State.bootOpen s) := by
  unfold State.bootOpen
  exact State.onStage_kept (State.closeStage_kept h_s)

theorem State.bootGains_kept {s0 : State} {s} (h_s : Kept s0 s) : Kept s0 (State.bootGains s) := by
  unfold State.bootGains
  extract_lets +onlyGivenNames v0
  clear_value v0
  extract_lets +onlyGivenNames v1
  clear_value v1
  extract_lets +onlyGivenNames v2
  clear_value v2
  extract_lets +onlyGivenNames v3
  clear_value v3
  exact State.bootReg_kept (State.bootReg_kept (State.bootReg_kept (State.bootReg_kept h_s)))

theorem State.bootMotor_kept {s0 : State} {s pp psi rs l ifs} (h_s : Kept s0 s) :
    Kept s0 (State.bootMotor s pp psi rs l ifs) := by
  unfold State.bootMotor
  extract_lets +onlyGivenNames v0
  clear_value v0
  exact State.bootFld_kept (State.bootReg_kept (State.bootReg_kept (State.bootReg_kept (State.bootReg_kept (State.bootReg_kept (State.bootReg_kept (State.bootReg_kept (State.bootReg_kept h_s))))))))

theorem State.bootDrive_kept {s0 : State} {s angle fb deb} (h_s : Kept s0 s) :
    Kept s0 (State.bootDrive s angle fb deb) := by
  unfold State.bootDrive
  extract_lets +onlyGivenNames v0
  have h0 : Kept s0 v0 := forN_kept (fun _ _ h1 => State.bootFld_kept (State.bootFld_kept (State.bootFld_kept h1))) h_s
  clear_value v0
  extract_lets +onlyGivenNames v2
  clear_value v2
  extract_lets +onlyGivenNames v3
  have h3 : Kept s0 v3 := State.bootFld_kept (State.bootFld_kept (State.bootFld_kept (State.bootFld_kept h0)))
  clear_value v3
  extract_lets +onlyGivenNames v4
  have h4 : Kept s0 v4 := State.bootFld_kept (State.bootFld_kept h3)
  clear_value v4
  extract_lets +onlyGivenNames v5
  have h5 : Kept s0 v5 := State.bootReg_kept h4
  clear_value v5
  exact forN_kept (fun _ _ h6 => State.bootFld_kept h6) h5

theorem State.bootSpeedLoop_kept {s0 : State} {s cfg sp} (h_s : Kept s0 s) : Kept s0 (State.bootSpeedLoop s cfg sp) := by
  unfold State.bootSpeedLoop
  extract_lets +onlyGivenNames v0
  clear_value v0
  exact State.bootReg_kept (State.bootReg_kept (State.bootReg_kept (State.bootReg_kept (State.bootReg_kept (State.bootReg_kept (State.bootReg_kept h_s))))))

theorem State.bootP1_kept {s0 : State} {s} (h_s : Kept s0 s) : Kept s0 (State.bootP1 s) := by
  unfold State.bootP1
  extract_lets +onlyGivenNames v0
  have h0 : Kept s0 v0 := State.bootGains_kept (State.bootMotor_kept (State.bootDrive_kept h_s))
  clear_value v0
  extract_lets +onlyGivenNames v1
  have h1 : Kept s0 v1 := State.bootFld_kept (State.bootFld_kept h0)
  clear_value v1
  extract_lets +onlyGivenNames v2
  have h2 : Kept s0 v2 := State.bootFld_kept (State.bootFld_kept h1)
  clear_value v2
  extract_lets +onlyGivenNames v3
  have h3 : Kept s0 v3 := State.bootFld_kept (State.bootFld_kept h2)
  clear_value v3
  extract_lets +onlyGivenNames v4
  have h4 : Kept s0 v4 := State.bootFld_kept (State.bootFld_kept h3)
  clear_value v4
  extract_lets +onlyGivenNames v5
  have h5 : Kept s0 v5 := State.bootFld_kept (State.bootFld_kept (State.bootFld_kept h4))
  clear_value v5
  extract_lets +onlyGivenNames v6
  have h6 : Kept s0 v6 := State.bootReg_kept (State.bootReg_kept h5)
  clear_value v6
  extract_lets +onlyGivenNames v7
  clear_value v7
  extract_lets +onlyGivenNames v8
  have h8 : Kept s0 v8 := State.bootReg_kept (State.bootReg_kept (State.bootReg_kept (State.bootReg_kept (State.bootReg_kept h6))))
  clear_value v8
  exact State.bootSpeedLoop_kept h8

theorem State.bootP2_kept {s0 : State} {s} (h_s : Kept s0 s) : Kept s0 (State.bootP2 s) := by
  unfold State.bootP2
  extract_lets +onlyGivenNames v0
  have h0 : Kept s0 v0 := State.bootGains_kept (State.bootMotor_kept (State.bootDrive_kept h_s))
  clear_value v0
  extract_lets +onlyGivenNames v1
  have h1 : Kept s0 v1 := State.bootReg_kept h0
  clear_value v1
  extract_lets +onlyGivenNames v2
  have h2 : Kept s0 v2 := State.bootReg_kept (State.bootFld_kept h1)
  clear_value v2
  exact State.bootSpeedLoop_kept h2

theorem State.bootP3_kept {s0 : State} {s} (h_s : Kept s0 s) : Kept s0 (State.bootP3 s) := by
  unfold State.bootP3
  exact State.bootReg_kept (State.bootFld_kept h_s)

theorem State.bootPers_kept {s0 : State} {s n} (h_s : Kept s0 s) : Kept s0 (State.bootPers s n) := by
  unfold State.bootPers
  exact kept_ite (State.bootP1_kept (State.bootOpen_kept h_s)) (kept_ite (State.bootP2_kept (State.bootOpen_kept h_s)) (State.bootP3_kept (State.bootOpen_kept h_s)))

theorem State.persLive_kept {s0 : State} {s} (h_s : Kept s0 s) : Kept s0 (State.persLive s) := by
  unfold State.persLive
  exact kept_ite (State.setLv_kept (State.setLv_kept (State.setLv_kept h_s))) h_s

theorem State.bootLock_kept {s0 : State} {s cmosClock} (h_s : Kept s0 s) : Kept s0 (State.bootLock s cmosClock) := by
  unfold State.bootLock
  extract_lets +onlyGivenNames v0
  clear_value v0
  exact State.onPower_kept (State.onTime_kept h_s)

theorem State.bootLink_kept {s0 : State} {s delay} (h_s : Kept s0 s) : Kept s0 (State.bootLink s delay) := by
  unfold State.bootLink
  exact State.onPdie_kept (State.onTime_kept h_s)

theorem State.bootStraps_kept {s0 : State} {s i} (h_s : Kept s0 s) : Kept s0 (State.bootStraps s i) := by
  unfold State.bootStraps
  exact State.onPower_kept h_s

theorem State.bootChecks_kept {s0 : State} {s i} (h_s : Kept s0 s) : Kept s0 (State.bootChecks s i) := by
  unfold State.bootChecks
  extract_lets +onlyGivenNames v0
  have h0 : Kept s0 v0 := State.logAdd_kept h_s
  clear_value v0
  extract_lets +onlyGivenNames v1
  have h1 : Kept s0 v1 := by
    unfold v1
    split
    · rename_i x2 t3 e4
      have h5 := done_get (execLogEntryCommit_kept h0) e4
      exact h5
    · exact h0
  clear_value v1
  extract_lets +onlyGivenNames v6
  have h6 : Kept s0 v6 := by
    unfold v6
    exact Kept.upd h_s rfl (Nat.le_refl _) memFilter_wf id id id id rfl
  clear_value v6
  extract_lets +onlyGivenNames v7
  have h7 : Kept s0 v7 := forN_kept (fun _ _ h8 => kept_ite (State.retire_kept h8) h8) h6
  clear_value v7
  exact kept_ite (State.onPower_kept h1) (State.onPower_kept h7)

theorem State.bootImage_kept {s0 : State} {s} (h_s : Kept s0 s) : Kept s0 (State.bootImage s) := by
  unfold State.bootImage
  extract_lets +onlyGivenNames v0
  clear_value v0
  exact forL_kept (fun _ _ h1 => kept_ite (forL_kept (fun _ _ h2 => State.bootReg_kept h2) h1) (State.putWords_kept h1)) (State.bootOpen_kept h_s)

theorem State.bootScan_kept {s0 : State} {s} (h_s : Kept s0 s) : Kept s0 (State.bootScan s) := by
  unfold State.bootScan
  extract_lets +onlyGivenNames v0
  have h0 : Kept s0 v0 := State.bootLog_kept h_s
  clear_value v0
  extract_lets +onlyGivenNames v1
  have h1 : Kept s0 v1 := by
    unfold v1
    refine kept_ite h0 ?_
    split
    · exact State.onPower_kept h0
    · exact State.onPower_kept (State.bootImage_kept h0)
  clear_value v1
  exact State.onPower_kept h1

theorem State.bootProve_kept {s0 : State} {s} (h_s : Kept s0 s) : Kept2 s0 (State.bootProve s) := by
  unfold State.bootProve
  extract_lets +onlyGivenNames v0
  clear_value v0
  exact kept2_mk (State.event_kept (State.writeProof_kept h_s))

theorem State.bootProveImage_kept {s0 : State} {s} (h_s : Kept s0 s) : Kept s0 (State.bootProveImage s) := by
  unfold State.bootProveImage
  refine kept_ite ?_ h_s
  split
  · rename_i x0 x1 t2 e3
    have h4 := kept2_snd (State.bootProve_kept h_s) e3
    exact kept_ite (State.onPower_kept h4) (State.onPower_kept (State.closeStage_kept h4))

theorem State.bootProvePers_kept {s0 : State} {s} (h_s : Kept s0 s) : Kept s0 (State.bootProvePers s) := by
  unfold State.bootProvePers
  extract_lets +onlyGivenNames v0
  clear_value v0
  refine kept_ite h_s ?_
  split
  · rename_i x1 x2 t3 e4
    have h5 := kept2_snd (State.bootProve_kept (State.bootPers_kept h_s)) e4
    extract_lets +onlyGivenNames v6
    have h6 : Kept s0 v6 := State.onPower_kept h5
    clear_value v6
    exact kept_ite (State.onPower_kept h6) (State.closeStage_kept h6)

theorem State.fabricUp_kept {s0 : State} {s} (h_s : Kept s0 s) : Kept s0 (State.fabricUp s) := by
  unfold State.fabricUp
  extract_lets +onlyGivenNames v0
  have h0 : Kept s0 v0 := State.onPower_kept h_s
  clear_value v0
  exact State.event_kept (State.setLv_kept h0)

theorem State.gridTo_kept {s0 : State} {s t} (h_s : Kept s0 s) : Kept s0 (State.gridTo s t) := by
  unfold State.gridTo
  split
  · exact kept_ite h_s (State.onTime_kept h_s)
  · extract_lets +onlyGivenNames v0
    clear_value v0
    exact State.onTime_kept h_s

theorem State.bootPlain_kept {s0 : State} {s} (h_s : Kept s0 s) : Kept s0 (State.bootPlain s) := by
  unfold State.bootPlain
  exact State.fabricUp_kept (State.newConfig_kept (State.gridTo_kept h_s))

theorem State.bootProof_kept {s0 : State} {s} (h_s : Kept s0 s) : Kept s0 (State.bootProof s) := by
  unfold State.bootProof
  extract_lets +onlyGivenNames v0
  have h0 : Kept s0 v0 := State.bootProvePers_kept (State.bootProveImage_kept h_s)
  clear_value v0
  extract_lets +onlyGivenNames v1
  clear_value v1
  exact kept_ite (State.bootPlain_kept h0) (State.onPower_kept (State.onStage_kept h0))

theorem State.bootStrike_kept {s0 : State} {s} (h_s : Kept s0 s) : Kept s0 (State.bootStrike s) := by
  unfold State.bootStrike
  extract_lets +onlyGivenNames v0
  clear_value v0
  extract_lets +onlyGivenNames v1
  clear_value v1
  extract_lets +onlyGivenNames v2
  clear_value v2
  extract_lets +onlyGivenNames v3
  have h3 : Kept s0 v3 := kept_ite h_s (State.gridTo_kept h_s)
  clear_value v3
  extract_lets +onlyGivenNames v4
  have h4 : Kept s0 v4 := State.onPower_kept (State.onStage_kept h3)
  clear_value v4
  exact State.fabricUp_kept (State.persLive_kept (State.boundaryAt_kept h4))

theorem execPowerUpStepComplete_kept {s0 : State} {info s} (h_s : Kept s0 s) :
    Done s0 (execPowerUpStepComplete info s) := by
  unfold execPowerUpStepComplete
  extract_lets +onlyGivenNames v0
  have h0 : ∀ x0 t1, Kept s0 t1 → Kept s0 (v0 x0 t1) := by
    unfold v0
    intro x1 t2 h3
    exact State.onPower_kept h3
  clear_value v0
  split
  · exact done_next (h0 _ _ h_s)
  · exact done_ite (done_next (h0 _ _ h_s)) (done_next h_s)
  · exact done_ite (done_next (h0 _ _ h_s)) (done_next h_s)
  · exact done_next (h0 _ _ (State.bootLock_kept h_s))
  · exact done_next (h0 _ _ (State.bootLink_kept h_s))
  · exact done_ite (done_next (h0 _ _ (State.onPower_kept (State.bootStraps_kept h_s)))) (done_next h_s)
  · exact done_next (State.bootChecks_kept h_s)
  · exact done_next (State.bootScan_kept h_s)
  · exact done_next (State.bootProof_kept h_s)
  · exact done_next (State.bootStrike_kept h_s)
  · exact done_next h_s

theorem execVioWaitTimeout_kept {s0 : State} {s} (h_s : Kept s0 s) : Done s0 (execVioWaitTimeout s) := by
  unfold execVioWaitTimeout
  exact done_ite (done_next (State.onPower_kept h_s)) (done_next h_s)

end Sys2Proof.Machine
end

