-- ==== Sys2Proof/Laws/KeptHk.lean ====
section
/-!
SUPPORT. What the operations of Machine/Hk.lean keep: one lemma each, from any state reached.
-/
namespace Sys2Proof.Machine

open Sys2Proof.Safety

theorem State.levelStep_kept {s0 : State} {s ch} (h_s : Kept s0 s) : Kept s0 (State.levelStep s ch) := by
  unfold State.levelStep
  extract_lets +onlyGivenNames v0
  clear_value v0
  extract_lets +onlyGivenNames v1
  clear_value v1
  extract_lets +onlyGivenNames v2
  clear_value v2
  extract_lets +onlyGivenNames v3
  clear_value v3
  exact kept_ite (State.setLevel_kept h_s) (kept_ite h_s (kept_ite (kept_ite (State.setLevel_kept h_s) (State.onHk_kept h_s)) (State.onHk_kept h_s)))

theorem State.follow_kept {s0 : State} {s src on} (h_s : Kept s0 s) : Kept s0 (State.follow s src on) := by
  unfold State.follow
  exact kept_ite (State.raise_kept h_s) (State.clearSrc_kept h_s)

theorem State.supplyCheck_kept {s0 : State} {s ch} (h_s : Kept s0 s) : Kept s0 (State.supplyCheck s ch) := by
  unfold State.supplyCheck
  extract_lets +onlyGivenNames v0
  clear_value v0
  extract_lets +onlyGivenNames v1
  have h1 : Kept s0 v1 := kept_ite (State.pfault_kept (State.event_kept h_s)) h_s
  clear_value v1
  exact State.follow_kept h1

theorem State.sensorTest_kept {s0 : State} {s ch i} (h_s : Kept s0 s) : Kept s0 (State.sensorTest s ch i) := by
  unfold State.sensorTest
  extract_lets +onlyGivenNames v0
  clear_value v0
  extract_lets +onlyGivenNames v1
  clear_value v1
  extract_lets +onlyGivenNames v2
  clear_value v2
  extract_lets +onlyGivenNames v3
  clear_value v3
  extract_lets +onlyGivenNames v4
  have h4 : Kept s0 v4 := State.onHk_kept h_s
  clear_value v4
  exact kept_ite (State.pfault_kept (State.event_kept (State.onHk_kept h4))) (kept_ite (State.onHk_kept h4) h4)

theorem State.sensorCheck_kept {s0 : State} {s ch} (h_s : Kept s0 s) : Kept s0 (State.sensorCheck s ch) := by
  unfold State.sensorCheck
  extract_lets +onlyGivenNames v0
  have h0 : Kept s0 v0 := forN_kept (fun _ _ h1 => State.sensorTest_kept h1) h_s
  clear_value v0
  exact kept_ite h_s (State.follow_kept h0)

theorem State.hkPublish_kept {s0 : State} {s ch} (h_s : Kept s0 s) : Kept s0 (State.hkPublish s ch) := by
  unfold State.hkPublish
  extract_lets +onlyGivenNames v0
  clear_value v0
  extract_lets +onlyGivenNames v1
  have h1 : Kept s0 v1 := by
    unfold v1
    exact Kept.plain h_s rfl rfl rfl rfl rfl rfl rfl rfl
  clear_value v1
  extract_lets +onlyGivenNames v2
  have h2 : Kept s0 v2 := State.onHk_kept h1
  clear_value v2
  extract_lets +onlyGivenNames v3
  have h3 : Kept s0 v3 := State.setLv_kept h2
  clear_value v3
  exact State.setLv_kept h3

theorem State.hkSources_kept {s0 : State} {s ch} (h_s : Kept s0 s) : Kept s0 (State.hkSources s ch) := by
  unfold State.hkSources
  extract_lets +onlyGivenNames v0
  clear_value v0
  extract_lets +onlyGivenNames v1
  have h1 : Kept s0 v1 := State.follow_kept (State.follow_kept h_s)
  clear_value v1
  extract_lets +onlyGivenNames v2
  have h2 : Kept s0 v2 := State.follow_kept (kept_ite (State.pfault_kept h1) h1)
  clear_value v2
  extract_lets +onlyGivenNames v3
  have h3 : Kept s0 v3 := State.sensorCheck_kept (State.supplyCheck_kept h2)
  clear_value v3
  exact kept_ite h_s (State.setLv_kept h3)

theorem State.roundEnd_kept {s0 : State} {s} (h_s : Kept s0 s) : Kept s0 (State.roundEnd s) := by
  unfold State.roundEnd
  extract_lets +onlyGivenNames v0
  clear_value v0
  extract_lets +onlyGivenNames v1
  clear_value v1
  extract_lets +onlyGivenNames v2
  have h2 : Kept s0 v2 := kept_ite h_s (State.reach_kept h_s)
  clear_value v2
  exact State.onHk_kept h2

theorem execHkRoundEnd_kept {s0 : State} {r s} (h_s : Kept s0 s) : Done s0 (execHkRoundEnd r s) := by
  unfold execHkRoundEnd
  extract_lets +onlyGivenNames v0
  have h0 : Kept s0 v0 := State.roundEnd_kept h_s
  clear_value v0
  extract_lets +onlyGivenNames v1
  clear_value v1
  extract_lets +onlyGivenNames v2
  have h2 : Kept s0 v2 := State.hkPublish_kept h0
  clear_value v2
  exact done_ite (done_next h_s) (done_ite (done_next (State.thermalShutdown_kept h2)) (done_ite (done_next h2) (done_next (State.persRound_kept (State.hkSources_kept (State.levelStep_kept h2))))))

theorem execAinTrimUpdate_kept {s0 : State} {conv offset gain s} (h_s : Kept s0 s) :
    Done s0 (execAinTrimUpdate conv offset gain s) := by
  unfold execAinTrimUpdate
  extract_lets +onlyGivenNames v0
  clear_value v0
  exact done_ite (done_next h_s) (done_next (State.onHk_kept h_s))

theorem State.eccCount_kept {s0 : State} {s o region} (h_s : Kept s0 s) : Kept s0 (State.eccCount s o region) := by
  unfold State.eccCount
  exact State.onLv_kept h_s

theorem State.eccFixed_kept {s0 : State} {s a region} (h_s : Kept s0 s) : Kept s0 (State.eccFixed s a region) := by
  unfold State.eccFixed
  exact State.event_kept (State.setLv_kept (State.eccCount_kept h_s))

theorem State.eccBroken_kept {s0 : State} {s a region} (h_s : Kept s0 s) : Kept s0 (State.eccBroken s a region) := by
  unfold State.eccBroken
  extract_lets +onlyGivenNames v0
  have h0 : Kept s0 v0 := State.event_kept (State.setLv_kept (State.eccCount_kept h_s))
  clear_value v0
  extract_lets +onlyGivenNames v1
  have h1 : Kept s0 v1 := State.logAdd_kept h0
  clear_value v1
  extract_lets +onlyGivenNames v2
  have h2 : ∀ t0, Kept s0 t0 → Kept s0 (v2 t0) := by
    unfold v2
    intro t3 h4
    exact Kept.plain h4 rfl rfl rfl rfl rfl rfl rfl rfl
  clear_value v2
  exact kept_ite (State.raisePulse_kept (State.pfault_kept (h2 _ h1))) (kept_ite (State.laneFault_kept (h2 _ h1)) (State.putWord_kept h1))

theorem State.scrubOne_kept {s0 : State} {s step ce ue i} (h_s : Kept s0 s) : Kept s0 (State.scrubOne s step ce ue i) := by
  unfold State.scrubOne
  split
  · exact kept_ite (State.eccBroken_kept h_s) (kept_ite (State.eccFixed_kept h_s) h_s)

theorem execScrubStep_kept {s0 : State} {ce ue s} (h_s : Kept s0 s) : Done s0 (execScrubStep ce ue s) := by
  unfold execScrubStep
  extract_lets +onlyGivenNames v0
  clear_value v0
  extract_lets +onlyGivenNames v1
  clear_value v1
  extract_lets +onlyGivenNames v2
  have h2 : Kept s0 v2 := forN_kept (fun _ _ h3 => State.scrubOne_kept h3) h_s
  clear_value v2
  extract_lets +onlyGivenNames v4
  clear_value v4
  exact done_ite (done_next h_s) (done_next (State.setLv_kept h2))

theorem execTelemetrySend_kept {s0 : State} {s} (h_s : Kept s0 s) : Done s0 (execTelemetrySend s) := by
  unfold execTelemetrySend
  split
  · exact done_next h_s
  · extract_lets +onlyGivenNames v0
    clear_value v0
    extract_lets +onlyGivenNames v1
    have h1 : Kept s0 v1 := State.expire_kept h_s (fun _ h2 => State.startT_kept h2)
    clear_value v1
    exact done_next (forN_kept (fun _ _ h3 => kept_ite h3 (kept_ite (State.bilvaSend_kept h3) (State.inc16_kept h3))) h1)

end Sys2Proof.Machine
end

