-- ==== Sys2Proof/Laws/KeptStep.lean ====
section
/-!
SUPPORT. What the operations of Machine/Step.lean keep: one lemma each, from any state reached.
-/
namespace Sys2Proof.Machine

open Sys2Proof.Safety

theorem State.idle_kept {s0 : State} {s} (h_s : Kept s0 s) : Kept s0 (State.idle s) := by
  unfold State.idle
  extract_lets +onlyGivenNames v0
  clear_value v0
  refine kept_ite ?_ h_s
  exact Kept.plain h_s rfl rfl rfl rfl rfl rfl rfl rfl

end Sys2Proof.Machine
end

