-- ==== Sys2Proof/Laws/Lane.lean ====
section
/-!
SUPPORT. What a lane does when it issues the instruction that its pc holds: every branch of the issue, once.
-/
namespace Sys2Proof.Machine

open Sys2Proof.Safety

variable {s : State} {l : LaneIx} {i : Instr} {op : LaneOp} {bk : Bank} {k : BankSt}

/-- The issue of the instruction that the bank's pc holds. -/
theorem laneStep_issue (up : s.up = true) (turn : s.laneTurn l.val = some (bk, k)) (code : s.inCode l.val k.pc.toNat = true)
    (ecc : s.eccBad.contains (codeAddr l.val k.pc.toNat) = false)
    (word : decodeLaneWord l (s.wordAt (codeAddr l.val k.pc.toNat)) = some i) :
    s.laneStep l i op =
      if (op s l.val bk k).stop then s.laneStop l.val bk
      else if (op s l.val bk k).ecc then s.laneEccStop l.val bk
      else if (op s l.val bk k).ended then (s.laneApply l.val bk (op s l.val bk k)).laneEnd l.val bk
      else s.laneApply l.val bk (op s l.val bk k) := by
  unfold State.laneStep
  simp only [turn, up, code, ecc, word, Bool.not_true, Bool.false_eq_true, if_false, ne_eq, not_true]

/-- The bank that has the turn is the lane's running bank. -/
theorem laneTurn_bank (turn : s.laneTurn l.val = some (bk, k)) : k = (s.ln l.val).bank bk ∧ (s.ln l.val).running = some bk := by
  simp only [State.laneTurn] at turn
  split at turn
  · cases turn
  · split at turn
    · cases turn
    · split at turn
      · cases turn
      · split at turn
        · cases turn
        · simp only [Option.some.injEq, Prod.mk.injEq] at turn
          obtain ⟨rfl, rfl⟩ := turn
          exact ⟨rfl, by assumption⟩

/-- Aging leaves pointers, modifiers, SAT, the return stack and the commit buffer. -/
theorem land_fields (k : BankSt) (x : InFlight) : (k.land x).p = k.p ∧ (k.land x).m = k.m ∧ (k.land x).sat = k.sat ∧
    (k.land x).stack = k.stack ∧ (k.land x).commit = k.commit ∧ (k.land x).branch = k.branch ∧ (k.land x).pc = k.pc ∧
    (k.land x).slot = k.slot ∧ (k.land x).executed = k.executed := by
  cases x <;> exact ⟨rfl, rfl, rfl, rfl, rfl, rfl, rfl, rfl, rfl⟩

theorem landAll_fields (xs : List InFlight) (k : BankSt) : (xs.foldl BankSt.land k).p = k.p ∧ (xs.foldl BankSt.land k).m = k.m ∧
    (xs.foldl BankSt.land k).sat = k.sat ∧ (xs.foldl BankSt.land k).stack = k.stack ∧ (xs.foldl BankSt.land k).commit = k.commit ∧
    (xs.foldl BankSt.land k).branch = k.branch ∧ (xs.foldl BankSt.land k).pc = k.pc ∧ (xs.foldl BankSt.land k).slot = k.slot ∧
    (xs.foldl BankSt.land k).executed = k.executed := by
  induction xs generalizing k with
  | nil => exact ⟨rfl, rfl, rfl, rfl, rfl, rfl, rfl, rfl, rfl⟩
  | cons x xs ih =>
    have h := land_fields k x
    have g := ih (k.land x)
    simp only [List.foldl_cons]
    refine ⟨g.1.trans h.1, g.2.1.trans h.2.1, g.2.2.1.trans h.2.2.1, g.2.2.2.1.trans h.2.2.2.1, g.2.2.2.2.1.trans h.2.2.2.2.1,
      g.2.2.2.2.2.1.trans h.2.2.2.2.2.1, g.2.2.2.2.2.2.1.trans h.2.2.2.2.2.2.1, g.2.2.2.2.2.2.2.1.trans h.2.2.2.2.2.2.2.1,
      g.2.2.2.2.2.2.2.2.trans h.2.2.2.2.2.2.2.2⟩

@[simp] theorem age_p (k : BankSt) : k.age.p = k.p := (landAll_fields _ k).1
@[simp] theorem age_m (k : BankSt) : k.age.m = k.m := (landAll_fields _ k).2.1
@[simp] theorem age_sat (k : BankSt) : k.age.sat = k.sat := (landAll_fields _ k).2.2.1
@[simp] theorem age_stack (k : BankSt) : k.age.stack = k.stack := (landAll_fields _ k).2.2.2.1
@[simp] theorem age_commit (k : BankSt) : k.age.commit = k.commit := (landAll_fields _ k).2.2.2.2.1

/-- A lane's record after the bank that issues has been changed. -/
theorem setBank_bank (x : LaneSt) (bk : Bank) (k : BankSt) : (x.setBank bk k).bank bk = k := by cases bk <;> rfl

/-- An instruction without stores: memory stays, the bank takes its results. -/
theorem laneApply_plain {e : LaneEff} (turn : s.laneTurn l.val = some (bk, k)) (st : e.stores.filter (fun x => !x.1) = []) :
    s.laneApply l.val bk e =
      { s with
        sched := { s.sched with executed := s.sched.executed + 1 }
        lanes := s.lanes.modify l.val fun x =>
          { x.setBank bk { k.results e with
              pc := (laneNext (e.loops.getD (s.ln l.val).loops) k.pc k.branch e.skip).1, branch := e.branch, executed := k.executed + 1 } with
            loops := (laneNext (e.loops.getD (s.ln l.val).loops) k.pc k.branch e.skip).2
            used := x.used + 1
            sliceCount := if bk = .b then x.sliceCount + 1 else x.sliceCount } } := by
  obtain ⟨rfl, -⟩ := laneTurn_bank turn
  simp only [State.laneApply, State.localStores, st, forL, List.foldl_nil, State.onSched, State.onLn]

end Sys2Proof.Machine
end

