-- ==== Sys2Proof/Laws/OnlyTasks.lean ====
section
/-!
SUPPORT. What the operations of Machine/Tasks.lean may change: one lemma each, from any state reached.
-/
namespace Sys2Proof.Machine

open Sys2Proof.Safety

theorem State.spend_only {fs : List Part} {s0 : State} {s n k} (h_s : Only fs s0 s) (hsub : In [.lanes, .sched] fs) :
    Only fs s0 (State.spend s n k) := by
  unfold State.spend
  exact State.onSched_only (State.onLn_only h_s (inT rfl hsub)) (inT rfl hsub)

theorem State.romSpend_only {fs : List Part} {s0 : State} {s n bound} (h_s : Only fs s0 s) (hsub : In [.lanes, .sched, .free] fs) :
    Only fs s0 (State.romSpend s n bound) := by
  unfold State.romSpend
  split
  · rename_i x0 x1 t2 e3
    have h4 := only2_snd (State.takeFree_only h_s (inT rfl hsub)) e3
    exact State.spend_only h4 (inT rfl hsub)

theorem State.beginTask_only {fs : List Part} {s0 : State} {s n bk i} (h_s : Only fs s0 s) (hsub : In [.lanes] fs) :
    Only fs s0 (State.beginTask s n bk i) := by
  unfold State.beginTask
  extract_lets +onlyGivenNames v0
  clear_value v0
  exact State.onLn_only (State.laneRestart_only h_s hsub) hsub

theorem State.beginUrgent_only {fs : List Part} {s0 : State} {s n under} (h_s : Only fs s0 s) (hsub : In [.lanes] fs) :
    Only fs s0 (State.beginUrgent s n under) := by
  unfold State.beginUrgent
  split
  · exact h_s
  · extract_lets +onlyGivenNames v0
    clear_value v0
    exact State.beginTask_only (State.onLn_only h_s hsub) hsub

theorem State.runWork_only {fs : List Part} {s0 : State} {s n w} (h_s : Only fs s0 s) (hsub : In [.regs, .axes, .drives, .ctxs, .mots, .legs, .lanes, .ropes, .rescue, .safety, .trace, .log, .timers, .sched, .free] fs) :
    Only fs s0 (State.runWork s n w) := by
  unfold State.runWork
  extract_lets +onlyGivenNames v0
  clear_value v0
  extract_lets +onlyGivenNames v1
  have h1 : ∀ t0, Only fs s0 t0 → Only fs s0 (v1 t0) := by
    unfold v1
    intro t2 h3
    exact State.onLn_only h3 (inT rfl hsub)
  clear_value v1
  split
  · exact State.romSpend_only (h1 _ h_s) (inT rfl hsub)
  · extract_lets +onlyGivenNames v4
    have h4 : Only fs s0 v4 := State.romSpend_only (h1 _ h_s) (inT rfl hsub)
    clear_value v4
    extract_lets +onlyGivenNames v5
    have h5 : Only fs s0 v5 := by
      unfold v5
      split
      · exact State.onDr_only h4 (inT rfl hsub)
      · exact h4
    clear_value v5
    exact State.runComm_only h5 (inT rfl hsub)
  · exact State.runCtx_only (State.romSpend_only (h1 _ h_s) (inT rfl hsub)) (inT rfl hsub)
  · exact State.runConverter_only (State.romSpend_only (h1 _ h_s) (inT rfl hsub)) (inT rfl hsub)
  · exact State.beginTask_only h_s (inT rfl hsub)

theorem State.beginSlice_only {fs : List Part} {s0 : State} {s n} (h_s : Only fs s0 s) (hsub : In [.lanes, .sched] fs) :
    Only fs s0 (State.beginSlice s n) := by
  unfold State.beginSlice
  extract_lets +onlyGivenNames v0
  clear_value v0
  refine only_ite (State.spend_only (State.onLn_only h_s (inT rfl hsub)) hsub) ?_
  split
  · exact only_ite (State.onLn_only h_s (inT rfl hsub)) (only_ite h_s (State.onLn_only h_s (inT rfl hsub)))
  · split
    · exact State.beginTask_only (State.onLn_only h_s (inT rfl hsub)) (inT rfl hsub)
    · exact h_s

theorem execTaskDispatch_only {fs : List Part} {s0 : State} {lane s} (h_s : Only fs s0 s) (hsub : In [.regs, .axes, .drives, .ctxs, .mots, .legs, .lanes, .ropes, .rescue, .safety, .trace, .log, .timers, .sched, .free] fs) :
    OnlyN fs s0 (execTaskDispatch lane s) := by
  unfold execTaskDispatch
  extract_lets +onlyGivenNames v0
  clear_value v0
  extract_lets +onlyGivenNames v1
  clear_value v1
  refine onlyN_ite (onlyN_next h_s) ?_
  refine onlyN_ite (onlyN_next (State.beginUrgent_only h_s (inT rfl hsub))) ?_
  split
  · exact onlyN_next (State.runWork_only h_s hsub)
  · exact onlyN_ite (onlyN_next (State.beginSlice_only h_s (inT rfl hsub))) (onlyN_next h_s)

theorem State.urgentRelease_only {fs : List Part} {s0 : State} {s n i} (h_s : Only fs s0 s) (hsub : In [.lanes] fs) :
    Only fs s0 (State.urgentRelease s n i) := by
  unfold State.urgentRelease
  exact State.onLn_only h_s hsub

theorem State.urgentFire_only {fs : List Part} {s0 : State} {s n i} (h_s : Only fs s0 s) (hsub : In [.regs, .lanes, .timers] fs) :
    Only fs s0 (State.urgentFire s n i) := by
  unfold State.urgentFire
  extract_lets +onlyGivenNames v0
  clear_value v0
  extract_lets +onlyGivenNames v1
  clear_value v1
  refine only_ite h_s ?_
  refine only_ite (only_ite (State.onLn_only h_s (inT rfl hsub)) h_s) ?_
  split
  · exact only_ite (State.urgentRelease_only h_s (inT rfl hsub)) (only_ite (State.inc16_only h_s (inT rfl hsub)) (State.startT_only h_s (inT rfl hsub)))
  · exact State.urgentRelease_only h_s (inT rfl hsub)

theorem execUrgentTrigger_only {fs : List Part} {s0 : State} {lane slot s} (h_s : Only fs s0 s) (hsub : In [.regs, .lanes, .timers] fs) :
    OnlyN fs s0 (execUrgentTrigger lane slot s) := by
  unfold execUrgentTrigger
  exact onlyN_next (State.urgentFire_only h_s hsub)

theorem execUrgentHoldExpiry_only {fs : List Part} {s0 : State} {lane slot s} (h_s : Only fs s0 s) (hsub : In [.time, .lanes, .timers] fs) :
    OnlyN fs s0 (execUrgentHoldExpiry lane slot s) := by
  unfold execUrgentHoldExpiry
  extract_lets +onlyGivenNames v0
  clear_value v0
  extract_lets +onlyGivenNames v1
  clear_value v1
  exact onlyN_next (State.expire_only h_s (fun _ h2 => only_ite (State.urgentRelease_only h2 (inT rfl hsub)) h2) (inT rfl hsub))

theorem execUrgentPreemption_only {fs : List Part} {s0 : State} {lane s} (h_s : Only fs s0 s) (hsub : In [.lanes] fs) :
    OnlyN fs s0 (execUrgentPreemption lane s) := by
  unfold execUrgentPreemption
  extract_lets +onlyGivenNames v0
  clear_value v0
  extract_lets +onlyGivenNames v1
  clear_value v1
  split
  · exact onlyN_ite (onlyN_next h_s) (onlyN_next (State.beginUrgent_only (State.onLn_only h_s hsub) hsub))
  · exact onlyN_next h_s

theorem execBoundAbort_only {fs : List Part} {s0 : State} {lane s} (h_s : Only fs s0 s) (hsub : In [.regs, .stage, .axes, .fbs, .mots, .legs, .lanes, .cans, .dos, .safety, .trace, .log, .chans, .timers] fs) :
    OnlyN fs s0 (execBoundAbort lane s) := by
  unfold execBoundAbort
  extract_lets +onlyGivenNames v0
  clear_value v0
  split
  · exact onlyN_next h_s
  · extract_lets +onlyGivenNames v1
    clear_value v1
    split
    · exact onlyN_ite (onlyN_next (State.laneStop_only h_s hsub)) (onlyN_next h_s)
    · exact onlyN_next h_s

theorem execBackgroundSliceEnd_only {fs : List Part} {s0 : State} {lane s} (h_s : Only fs s0 s) (hsub : In [.lanes] fs) :
    OnlyN fs s0 (execBackgroundSliceEnd lane s) := by
  unfold execBackgroundSliceEnd
  extract_lets +onlyGivenNames v0
  clear_value v0
  extract_lets +onlyGivenNames v1
  clear_value v1
  exact onlyN_ite (onlyN_next (State.onLn_only h_s hsub)) (onlyN_next h_s)

theorem State.stPeriod_only {fs : List Part} {s0 : State} {s n start} (h_s : Only fs s0 s) (hsub : In [.lanes, .timers] fs) :
    Only fs s0 (State.stPeriod s n start) := by
  unfold State.stPeriod
  extract_lets +onlyGivenNames v0
  have h0 : Only fs s0 v0 := State.onLn_only h_s (inT rfl hsub)
  clear_value v0
  exact only_ite (State.startT_only h0 (inT rfl hsub)) (State.stopT_only h0 (inT rfl hsub))

theorem State.stArm_only {fs : List Part} {s0 : State} {s} (h_s : Only fs s0 s) (hsub : In [.lanes, .timers] fs) :
    Only fs s0 (State.stArm s) := by
  unfold State.stArm
  exact forN_only (fun _ _ h0 => only_ite (only_ite h0 (State.stPeriod_only h0 hsub)) (State.stopT_only h0 (inT rfl hsub))) h_s

theorem execSelftestPassDone_only {fs : List Part} {s0 : State} {lane ok s} (h_s : Only fs s0 s) (hsub : In [.regs, .stage, .axes, .fbs, .mots, .legs, .lanes, .cans, .dos, .safety, .trace, .log, .chans, .timers] fs) :
    OnlyN fs s0 (execSelftestPassDone lane ok s) := by
  unfold execSelftestPassDone
  extract_lets +onlyGivenNames v0
  clear_value v0
  extract_lets +onlyGivenNames v1
  have h1 : Only fs s0 v1 := State.onLn_only h_s (inT rfl hsub)
  clear_value v1
  extract_lets +onlyGivenNames v2
  have h2 : Only fs s0 v2 := State.inc32_only h1 (inT rfl hsub)
  clear_value v2
  exact onlyN_ite (onlyN_next h_s) (onlyN_ite (onlyN_next (State.stPeriod_only h2 (inT rfl hsub))) (onlyN_next (State.laneFault_only (State.onLn_only h1 (inT rfl hsub)) hsub)))

theorem execSelftestLate_only {fs : List Part} {s0 : State} {lane s} (h_s : Only fs s0 s) (hsub : In [.regs, .time, .lanes, .trace, .log, .timers] fs) :
    OnlyN fs s0 (execSelftestLate lane s) := by
  unfold execSelftestLate
  extract_lets +onlyGivenNames v0
  clear_value v0
  refine onlyN_next ?_
  refine State.expire_only h_s ?_ (inT rfl hsub)
  intro t3 h4
  extract_lets +onlyGivenNames v5
  have h5 : Only fs s0 v5 := State.logAdd_only (State.event_only h4 (inT rfl hsub)) (inT rfl hsub)
  clear_value v5
  exact State.startT_only (State.onLn_only h5 (inT rfl hsub)) (inT rfl hsub)

theorem State.takeRelease_only {fs : List Part} {s0 : State} {s g} (h_s : Only fs s0 s) (hsub : In [.regs, .cfg, .stg, .mem, .eccBad, .stage, .axes, .mots, .legs, .lanes, .safety, .trace, .log, .timers, .sched] fs) :
    Only fs s0 (State.takeRelease s g) := by
  unfold State.takeRelease
  extract_lets +onlyGivenNames v0
  have h0 : Only fs s0 v0 := forL_only (fun _ _ h1 => State.spend_only (State.takeover_only h1 (inT rfl hsub)) (inT rfl hsub)) h_s
  clear_value v0
  exact only_ite h_s (State.onLn_only h0 (inT rfl hsub))

theorem State.releaseAll_only {fs : List Part} {s0 : State} {s} (h_s : Only fs s0 s) (hsub : In [.regs, .cfg, .stg, .mem, .eccBad, .stage, .axes, .mots, .legs, .lanes, .safety, .trace, .log, .timers, .sched] fs) :
    Only fs s0 (State.releaseAll s) := by
  unfold State.releaseAll
  extract_lets +onlyGivenNames v0
  have h0 : Only fs s0 v0 := forN_only (fun _ _ h1 => State.takeRelease_only h1 hsub) h_s
  clear_value v0
  refine forN_only ?_ h0
  intro x3 t4 h5
  extract_lets +onlyGivenNames v6
  clear_value v6
  exact only_ite (State.onLn_only h5 (inT rfl hsub)) (State.onLn_only (State.laneRestart_only h5 (inT rfl hsub)) (inT rfl hsub))

theorem State.missWork_only {fs : List Part} {s0 : State} {s n w} (h_s : Only fs s0 s) (hsub : In [.regs, .stage, .axes, .drives, .fbs, .mots, .legs, .lanes, .cans, .dos, .safety, .trace, .log, .chans, .timers] fs) :
    Only fs s0 (State.missWork s n w) := by
  unfold State.missWork
  extract_lets +onlyGivenNames v0
  have h0 : Only fs s0 v0 := forL_only (fun _ _ h1 => State.repeatPattern_only h1 (inT rfl hsub)) h_s
  clear_value v0
  exact State.laneFault_only (State.inc16_only h0 (inT rfl hsub)) (inT rfl hsub)

theorem State.cutLane_only {fs : List Part} {s0 : State} {s n} (h_s : Only fs s0 s) (hsub : In [.regs, .stage, .axes, .drives, .fbs, .mots, .legs, .lanes, .cans, .dos, .safety, .trace, .log, .chans, .timers] fs) :
    Only fs s0 (State.cutLane s n) := by
  unfold State.cutLane
  extract_lets +onlyGivenNames v0
  clear_value v0
  extract_lets +onlyGivenNames v1
  clear_value v1
  extract_lets +onlyGivenNames v2
  have h2 : Only fs s0 v2 := State.onLn_only h_s (inT rfl hsub)
  clear_value v2
  extract_lets +onlyGivenNames v3
  have h3 : Only fs s0 v3 := forL_only (fun _ _ h4 => State.missWork_only h4 hsub) h2
  clear_value v3
  extract_lets +onlyGivenNames v5
  clear_value v5
  extract_lets +onlyGivenNames v6
  have h6 : Only fs s0 v6 := only_ite (State.setLv_only h3 (inT rfl hsub)) h3
  clear_value v6
  exact State.onLn_only h6 (inT rfl hsub)

theorem State.cutAll_only {fs : List Part} {s0 : State} {s} (h_s : Only fs s0 s) (hsub : In [.regs, .stage, .axes, .drives, .fbs, .mots, .legs, .lanes, .cans, .dos, .safety, .trace, .log, .chans, .timers] fs) :
    Only fs s0 (State.cutAll s) := by
  unfold State.cutAll
  extract_lets +onlyGivenNames v0
  clear_value v0
  extract_lets +onlyGivenNames v1
  have h1 : Only fs s0 v1 := forN_only (fun _ _ h2 => State.cutLane_only h2 hsub) h_s
  clear_value v1
  refine forN_only ?_ h1
  intro x4 t5 h6
  extract_lets +onlyGivenNames v7
  have h7 : Only fs s0 v7 := State.onAx_only h6 (inT rfl hsub)
  clear_value v7
  exact only_ite (only_ite (State.raise_only h7 (inT rfl hsub)) h7) (State.clearSrc_only (State.onAx_only h6 (inT rfl hsub)) (inT rfl hsub))

theorem State.takeCut_only {fs : List Part} {s0 : State} {s} (h_s : Only fs s0 s) (hsub : In [.regs, .stage, .lanes, .trace, .timers] fs) :
    Only fs s0 (State.takeCut s) := by
  unfold State.takeCut
  exact only_ite (State.startReproof_only (State.onStage_only (State.stArm_only (State.setLaneStates_only (State.event_only h_s (inT rfl hsub)) (inT rfl hsub)) (inT rfl hsub)) (inT rfl hsub)) (inT rfl hsub)) h_s

end Sys2Proof.Machine
end

