-- ==== Sys2Proof/Laws/OnlyPers.lean ====
section
/-!
SUPPORT. What the operations of Machine/Pers.lean may change: one lemma each, from any state reached.
-/
namespace Sys2Proof.Machine

open Sys2Proof.Safety

theorem State.setPers_only {fs : List Part} {s0 : State} {s n} (h_s : Only fs s0 s) (hsub : In [.power] fs) :
    Only fs s0 (State.setPers s n) := by
  unfold State.setPers
  exact State.onPower_only h_s hsub

theorem State.persAxis_only {fs : List Part} {s0 : State} {s code next} (h_s : Only fs s0 s) (hsub : In [.regs, .power, .axes, .drives, .timers] fs) :
    Only fs s0 (State.persAxis s code next) := by
  unfold State.persAxis
  exact only_ite h_s (State.setPers_only (State.axResult_only (State.axEffect_only h_s (inT rfl hsub)) (inT rfl hsub)) (inT rfl hsub))

theorem State.persMot_only {fs : List Part} {s0 : State} {s code next} (h_s : Only fs s0 s) (hsub : In [.power, .mots] fs) :
    Only fs s0 (State.persMot s code next) := by
  unfold State.persMot
  exact only_ite h_s (State.setPers_only (State.onMt_only h_s (inT rfl hsub)) (inT rfl hsub))

theorem State.setFan_only {fs : List Part} {s0 : State} {s} (h_s : Only fs s0 s) (hsub : In [.regs] fs) :
    Only fs s0 (State.setFan s) := by
  unfold State.setFan
  exact State.setLv_only h_s hsub

theorem State.persAct_only {fs : List Part} {s0 : State} {s} (h_s : Only fs s0 s) (hsub : In [.regs, .power, .axes, .drives, .mots, .timers] fs) :
    Only fs s0 (State.persAct s) := by
  unfold State.persAct
  extract_lets +onlyGivenNames v0
  clear_value v0
  extract_lets +onlyGivenNames v1
  clear_value v1
  extract_lets +onlyGivenNames v2
  clear_value v2
  extract_lets +onlyGivenNames v3
  clear_value v3
  exact only_ite (State.setPers_only h_s (inT rfl hsub)) (only_ite (only_ite (only_ite (State.setPers_only h_s (inT rfl hsub)) (State.setPers_only h_s (inT rfl hsub))) h_s) (only_ite (only_ite (State.setPers_only h_s (inT rfl hsub)) (State.persAxis_only h_s (inT rfl hsub))) (only_ite (only_ite (only_ite (State.persAxis_only h_s (inT rfl hsub)) (State.setPers_only h_s (inT rfl hsub))) (only_ite (State.persAxis_only h_s (inT rfl hsub)) (State.setPers_only h_s (inT rfl hsub)))) (only_ite (only_ite (only_ite (State.persMot_only h_s (inT rfl hsub)) (State.persMot_only h_s (inT rfl hsub))) (only_ite h_s (State.setPers_only h_s (inT rfl hsub)))) (only_ite (only_ite (State.setPers_only h_s (inT rfl hsub)) (only_ite h_s (State.persMot_only h_s (inT rfl hsub)))) (only_ite (only_ite (State.setPers_only h_s (inT rfl hsub)) (only_ite (State.persAxis_only h_s (inT rfl hsub)) h_s)) (only_ite (only_ite (State.persAxis_only h_s (inT rfl hsub)) (State.setPers_only h_s (inT rfl hsub))) (only_ite h_s (State.setPers_only h_s (inT rfl hsub))))))))))

theorem State.persRun_only {fs : List Part} {s0 : State} {s} (h_s : Only fs s0 s) (hsub : In [.regs, .power, .axes, .drives, .mots, .timers] fs) :
    Only fs s0 (State.persRun s) := by
  unfold State.persRun
  exact only_ite (State.persAct_only (State.persAct_only (State.persAct_only h_s hsub) hsub) hsub) h_s

theorem State.persEdge_only {fs : List Part} {s0 : State} {s i rise} (h_s : Only fs s0 s) (hsub : In [.regs, .power, .axes, .drives, .ctxs, .mots, .shares, .chop, .sins, .safety, .trace, .log, .timers] fs) :
    Only fs s0 (State.persEdge s i rise) := by
  unfold State.persEdge
  extract_lets +onlyGivenNames v0
  clear_value v0
  extract_lets +onlyGivenNames v1
  have h1 : Only fs s0 v1 := only_ite (State.setPers_only h_s (inT rfl hsub)) h_s
  clear_value v1
  extract_lets +onlyGivenNames v2
  have h2 : Only fs s0 v2 := only_ite (State.clearAll_only (only_ite h1 (State.axResult_only (State.axEffect_only h1 (inT rfl hsub)) (inT rfl hsub))) (inT rfl hsub)) h1
  clear_value v2
  exact only_ite h_s (State.persRun_only h2 (inT rfl hsub))

theorem State.persRound_only {fs : List Part} {s0 : State} {s} (h_s : Only fs s0 s) (hsub : In [.regs, .power, .axes, .drives, .mots, .timers] fs) :
    Only fs s0 (State.persRound s) := by
  unfold State.persRound
  exact only_ite (State.persRun_only (State.setFan_only h_s (inT rfl hsub)) hsub) h_s

theorem execDiDebounceAccept_only {fs : List Part} {s0 : State} {di s} (h_s : Only fs s0 s) (hsub : In [.regs, .power, .axes, .drives, .ctxs, .mots, .latches, .shares, .chop, .dis, .sins, .safety, .trace, .log, .timers] fs) :
    OnlyN fs s0 (execDiDebounceAccept di s) := by
  unfold execDiDebounceAccept
  extract_lets +onlyGivenNames v0
  clear_value v0
  extract_lets +onlyGivenNames v1
  have h1 : Only fs s0 v1 := State.diAccept_only h_s (inT rfl hsub)
  clear_value v1
  extract_lets +onlyGivenNames v2
  clear_value v2
  exact onlyN_next (only_ite h1 (State.persEdge_only h1 (inT rfl hsub)))

theorem execOffsetCaptureDone_only {fs : List Part} {s0 : State} {axis s} (h_s : Only fs s0 s) (hsub : In [.regs, .power, .time, .stage, .axes, .drives, .fbs, .mots, .legs, .lanes, .cans, .dos, .safety, .trace, .log, .chans, .timers] fs) :
    OnlyN fs s0 (execOffsetCaptureDone axis s) := by
  unfold execOffsetCaptureDone
  exact onlyN_next (State.persRun_only (State.captureDone_only h_s (inT rfl hsub)) (inT rfl hsub))

end Sys2Proof.Machine
end

