-- ==== Sys2Proof/Laws/OnlyFrames.lean ====
section
/-!
SUPPORT. What the operations of Machine/Frames.lean may change: one lemma each, from any state reached.
-/
namespace Sys2Proof.Machine

open Sys2Proof.Safety

theorem State.readmit_only {fs : List Part} {s0 : State} {s master ch} (h_s : Only fs s0 s) (hsub : In [.regs, .fbs, .legs, .lanes, .chop, .cans, .dos, .safety, .trace, .log, .chans] fs) :
    Only fs s0 (State.readmit s master ch) := by
  unfold State.readmit
  extract_lets +onlyGivenNames v0
  clear_value v0
  extract_lets +onlyGivenNames v1
  have h1 : Only fs s0 v1 := by
    unfold v1
    exact Only.upd h_s (inT (F := [.chans]) rfl hsub) (by intro f hf; cases f <;> first | rfl | simp at hf)
  clear_value v1
  extract_lets +onlyGivenNames v2
  have h2 : Only fs s0 v2 := State.onLg_only h1 (inT rfl hsub)
  clear_value v2
  extract_lets +onlyGivenNames v3
  have h3 : Only fs s0 v3 := by
    unfold v3
    split
    · exact State.fbStart_only h1 (inT rfl hsub)
    · exact only_ite (State.chopClear_only h2 (inT rfl hsub)) h2
    · exact only_ite (State.chopClear_only h2 (inT rfl hsub)) h2
    · exact State.onLn_only h1 (inT rfl hsub)
    · exact State.onCn_only h1 (inT rfl hsub)
    · exact State.onFo_only h1 (inT rfl hsub)
    · exact h1
  clear_value v3
  exact State.logAdd_only h3 (inT rfl hsub)

theorem State.strikeIo_only {fs : List Part} {s0 : State} {s changed oldMode} (h_s : Only fs s0 s) (hsub : In [.fbs, .ropes, .shares, .cans, .dis, .timers, .reps] fs) :
    Only fs s0 (State.strikeIo s changed oldMode) := by
  unfold State.strikeIo
  extract_lets +onlyGivenNames v0
  have h0 : Only fs s0 v0 := forN_only (fun _ _ h1 => only_ite (State.fbStart_only h1 (inT rfl hsub)) h1) h_s
  clear_value v0
  extract_lets +onlyGivenNames v2
  have h2 : Only fs s0 v2 := forN_only (fun _ _ h3 => only_ite (State.repStart_only h3 (inT rfl hsub)) h3) h0
  clear_value v2
  extract_lets +onlyGivenNames v4
  have h4 : Only fs s0 v4 := forN_only (fun _ _ h5 => only_ite (State.onDi_only h5 (inT rfl hsub)) h5) h2
  clear_value v4
  extract_lets +onlyGivenNames v6
  clear_value v6
  extract_lets +onlyGivenNames v7
  have h7 : Only fs s0 v7 := forN_only (fun _ _ h8 => only_ite (State.onCn_only h8 (inT rfl hsub)) h8) h4
  clear_value v7
  extract_lets +onlyGivenNames v9
  have h9 : Only fs s0 v9 := forN_only (fun _ _ h10 => only_ite (State.onRp_only h10 (inT rfl hsub)) h10) h7
  clear_value v9
  extract_lets +onlyGivenNames v11
  have h11 : Only fs s0 v11 := forN_only (fun _ _ h12 => only_ite (State.onSh_only h12 (inT rfl hsub)) h12) h9
  clear_value v11
  extract_lets +onlyGivenNames v13
  clear_value v13
  exact only_ite (State.stopT_only h11 (inT rfl hsub)) (only_ite (State.startT_only h11 (inT rfl hsub)) h11)

theorem State.strikeLegs_only {fs : List Part} {s0 : State} {s changed old oldMode} (h_s : Only fs s0 s) (hsub : In [.legs] fs) :
    Only fs s0 (State.strikeLegs s changed old oldMode) := by
  unfold State.strikeLegs
  refine forN_only ?_ h_s
  intro x1 t2 h3
  extract_lets +onlyGivenNames v4
  clear_value v4
  extract_lets +onlyGivenNames v5
  clear_value v5
  extract_lets +onlyGivenNames v6
  have h6 : Only fs s0 v6 := only_ite (State.onLg_only h3 hsub) h3
  clear_value v6
  exact only_ite (State.legEnter_only h6 hsub) h6

theorem State.newConfig_only {fs : List Part} {s0 : State} {s} (h_s : Only fs s0 s) (hsub : In [.regs, .time, .stage, .axes, .drives, .lanes, .safety, .trace, .log, .timers] fs) :
    Only fs s0 (State.newConfig s) := by
  unfold State.newConfig
  extract_lets +onlyGivenNames v0
  have h0 : Only fs s0 v0 := State.onTime_only h_s (inT rfl hsub)
  clear_value v0
  extract_lets +onlyGivenNames v1
  have h1 : Only fs s0 v1 := forN_only (fun _ _ h2 => State.onDr_only h2 (inT rfl hsub)) h0
  clear_value v1
  extract_lets +onlyGivenNames v3
  have h3 : Only fs s0 v3 := State.ntRoleBoundary_only (State.stArm_only (State.setLaneStates_only (State.setPlans_only h1 (inT rfl hsub)) (inT rfl hsub)) (inT rfl hsub)) (inT rfl hsub)
  clear_value v3
  extract_lets +onlyGivenNames v4
  have h4 : Only fs s0 v4 := forN_only (fun _ _ h5 => State.onLn_only h5 (inT rfl hsub)) h3
  clear_value v4
  extract_lets +onlyGivenNames v6
  have h6 : Only fs s0 v6 := State.onSafe_only h4 (inT rfl hsub)
  clear_value v6
  extract_lets +onlyGivenNames v7
  clear_value v7
  exact forN_only (fun _ _ h8 => only_ite h8 (State.clearSrc_only h8 (inT rfl hsub))) h6

theorem State.strike_only {fs : List Part} {s0 : State} {s} (h_s : Only fs s0 s) (hsub : In [.regs, .cfg, .stg, .mem, .eccBad, .power, .time, .stage, .axes, .drives, .ctxs, .fbs, .legs, .lanes, .ropes, .shares, .chop, .dma, .cans, .dis, .dos, .safety, .trace, .log, .chans, .timers, .reps] fs) :
    Only fs s0 (State.strike s) := by
  unfold State.strike
  extract_lets +onlyGivenNames v0
  clear_value v0
  extract_lets +onlyGivenNames v1
  clear_value v1
  extract_lets +onlyGivenNames v2
  clear_value v2
  extract_lets +onlyGivenNames v3
  clear_value v3
  extract_lets +onlyGivenNames v4
  clear_value v4
  extract_lets +onlyGivenNames v5
  clear_value v5
  extract_lets +onlyGivenNames v6
  clear_value v6
  extract_lets +onlyGivenNames v7
  have h7 : Only fs s0 v7 := State.applyStage_only (State.dmaStrikeStop_only h_s (inT rfl hsub)) (inT rfl hsub)
  clear_value v7
  extract_lets +onlyGivenNames v8
  have h8 : Only fs s0 v8 := forL_only (fun _ _ h9 => State.readmit_only h9 (inT rfl hsub)) h7
  clear_value v8
  extract_lets +onlyGivenNames v10
  have h10 : Only fs s0 v10 := State.strikeIo_only h8 (inT rfl hsub)
  clear_value v10
  extract_lets +onlyGivenNames v11
  have h11 : Only fs s0 v11 := State.ctxStrike_only h10 (inT rfl hsub)
  clear_value v11
  extract_lets +onlyGivenNames v12
  have h12 : Only fs s0 v12 := State.newConfig_only (State.strikeLegs_only h11 (inT rfl hsub)) (inT rfl hsub)
  clear_value v12
  extract_lets +onlyGivenNames v13
  have h13 : Only fs s0 v13 := only_ite h12 (forN_only (fun _ _ h14 => only_ite (State.onAx_only h14 (inT rfl hsub)) h14) h12)
  clear_value v13
  exact only_ite (State.onLv_only (State.onPower_only h13 (inT rfl hsub)) (inT rfl hsub)) h13

theorem State.startRamp_only {fs : List Part} {s0 : State} {s point} (h_s : Only fs s0 s) (hsub : In [.timers, .sched] fs) :
    Only fs s0 (State.startRamp s point) := by
  unfold State.startRamp
  extract_lets +onlyGivenNames v0
  clear_value v0
  exact only_ite (State.onSched_only h_s (inT rfl hsub)) (State.startT_only (State.onSched_only h_s (inT rfl hsub)) (inT rfl hsub))

theorem State.enterRescue_only {fs : List Part} {s0 : State} {s} (h_s : Only fs s0 s) (hsub : In [.axes] fs) :
    Only fs s0 (State.enterRescue s) := by
  unfold State.enterRescue
  refine forN_only ?_ h_s
  intro x1 t2 h3
  extract_lets +onlyGivenNames v4
  clear_value v4
  exact only_ite (State.pushReact_only h3 hsub) h3

theorem State.leaveRescue_only {fs : List Part} {s0 : State} {s} (h_s : Only fs s0 s) (hsub : In [.axes, .rescue, .safety] fs) :
    Only fs s0 (State.leaveRescue s) := by
  unfold State.leaveRescue
  extract_lets +onlyGivenNames v0
  have h0 : Only fs s0 v0 := forN_only (fun _ _ h1 => State.onAx_only h1 (inT rfl hsub)) h_s
  clear_value v0
  exact only_ite (State.clearSrc_only (State.setSeq_only h0 (inT rfl hsub)) (inT rfl hsub)) h0

theorem State.enterPower_only {fs : List Part} {s0 : State} {s st} (h_s : Only fs s0 s) (hsub : In [.regs, .axes, .lanes, .rescue, .safety, .trace, .log, .timers, .sched] fs) :
    Only fs s0 (State.enterPower s st) := by
  unfold State.enterPower
  extract_lets +onlyGivenNames v0
  clear_value v0
  extract_lets +onlyGivenNames v1
  have h1 : Only fs s0 v1 := State.onSched_only h_s (inT rfl hsub)
  clear_value v1
  extract_lets +onlyGivenNames v2
  have h2 : Only fs s0 v2 := State.startRamp_only (State.logAdd_only (State.event_only h1 (inT rfl hsub)) (inT rfl hsub)) (inT rfl hsub)
  clear_value v2
  extract_lets +onlyGivenNames v3
  have h3 : Only fs s0 v3 := only_ite (State.leaveRescue_only h2 (inT rfl hsub)) h2
  clear_value v3
  exact only_ite (State.enterRescue_only h3 (inT rfl hsub)) (only_ite (forN_only (fun _ _ h4 => State.onLn_only h4 (inT rfl hsub)) h3) h3)

theorem State.powerBoundary_only {fs : List Part} {s0 : State} {s} (h_s : Only fs s0 s) (hsub : In [.regs, .axes, .mots, .lanes, .rescue, .safety, .trace, .log, .timers, .sched] fs) :
    Only fs s0 (State.powerBoundary s) := by
  unfold State.powerBoundary
  extract_lets +onlyGivenNames v0
  have h0 : Only fs s0 v0 := State.onSched_only h_s (inT rfl hsub)
  clear_value v0
  extract_lets +onlyGivenNames v1
  have h1 : Only fs s0 v1 := only_ite h0 (State.enterPower_only h0 (inT rfl hsub))
  clear_value v1
  extract_lets +onlyGivenNames v2
  have h2 : Only fs s0 v2 := State.onSched_only h_s (inT rfl hsub)
  clear_value v2
  refine only_ite h_s ?_
  refine only_ite (only_ite (State.rescueBegin_only h1 (inT rfl hsub)) h1) ?_
  split
  · exact only_ite (State.onSched_only h2 (inT rfl hsub)) (State.enterPower_only h2 (inT rfl hsub))
  · exact h2

theorem State.shedBoundary_only {fs : List Part} {s0 : State} {s} (h_s : Only fs s0 s) (hsub : In [.regs, .axes, .trace] fs) :
    Only fs s0 (State.shedBoundary s) := by
  unfold State.shedBoundary
  refine only_ite h_s ?_
  refine forN_only ?_ h_s
  intro x3 t4 h5
  extract_lets +onlyGivenNames v6
  clear_value v6
  exact only_ite (State.onAx_only h5 (inT rfl hsub)) (only_ite (State.event_only (State.inc16_only (State.onAx_only h5 (inT rfl hsub)) (inT rfl hsub)) (inT rfl hsub)) h5)

theorem State.accountBoundary_only {fs : List Part} {s0 : State} {s prevLen prevPoint} (h_s : Only fs s0 s) (hsub : In [.sched] fs) :
    Only fs s0 (State.accountBoundary s prevLen prevPoint) := by
  unfold State.accountBoundary
  extract_lets +onlyGivenNames v0
  clear_value v0
  extract_lets +onlyGivenNames v1
  clear_value v1
  extract_lets +onlyGivenNames v2
  clear_value v2
  extract_lets +onlyGivenNames v3
  clear_value v3
  exact State.onSched_only h_s hsub

theorem State.frameOpen_only {fs : List Part} {s0 : State} {s t} (h_s : Only fs s0 s) (hsub : In [.time] fs) :
    Only fs s0 (State.frameOpen s t) := by
  unfold State.frameOpen
  exact State.onTime_only (State.reach_only h_s hsub) hsub

theorem State.trimBoundary_only {fs : List Part} {s0 : State} {s} (h_s : Only fs s0 s) (hsub : In [.hk] fs) :
    Only fs s0 (State.trimBoundary s) := by
  unfold State.trimBoundary
  exact State.onHk_only h_s hsub

theorem State.frameLatch_only {fs : List Part} {s0 : State} {s was} (h_s : Only fs s0 s) (hsub : In [.regs, .mem, .eccBad, .axes, .drives, .ctxs, .fbs, .mots, .cmps, .latches, .groups, .legs, .safety, .trace, .hk, .log, .timers, .samples, .reps] fs) :
    Only fs s0 (State.frameLatch s was) := by
  unfold State.frameLatch
  extract_lets +onlyGivenNames v0
  have h0 : Only fs s0 v0 := forN_only (fun _ _ h1 => State.onLg_only h1 (inT rfl hsub)) h_s
  clear_value v0
  extract_lets +onlyGivenNames v2
  have h2 : Only fs s0 v2 := State.onHk_only h0 (inT rfl hsub)
  clear_value v2
  extract_lets +onlyGivenNames v3
  have h3 : Only fs s0 v3 := State.adcBoundary_only (State.ctxBoundary_only (State.trimBoundary_only h2 (inT rfl hsub)) (inT rfl hsub)) (inT rfl hsub)
  clear_value v3
  extract_lets +onlyGivenNames v4
  have h4 : Only fs s0 v4 := forN_only (fun _ _ h5 => State.repBoundary_only h5 (inT rfl hsub)) (forN_only (fun _ _ h6 => State.fbBoundary_only h6 (inT rfl hsub)) h3)
  clear_value v4
  exact forN_only (fun _ _ h7 => State.groupBoundary_only h7 (inT rfl hsub)) (forN_only (fun _ _ h8 => State.motBoundary_only h8 (inT rfl hsub)) h4)

theorem State.frameApply_only {fs : List Part} {s0 : State} {s prevLen} (h_s : Only fs s0 s) (hsub : In [.regs, .cfg, .stg, .mem, .eccBad, .power, .time, .stage, .axes, .drives, .ctxs, .fbs, .mots, .legs, .lanes, .ropes, .shares, .rescue, .chop, .dma, .cans, .dis, .dos, .safety, .trace, .hk, .log, .chans, .timers, .sched, .reps] fs) :
    Only fs s0 (State.frameApply s prevLen) := by
  unfold State.frameApply
  extract_lets +onlyGivenNames v0
  clear_value v0
  extract_lets +onlyGivenNames v1
  have h1 : Only fs s0 v1 := State.takeImage_only (only_ite (State.strike_only h_s (inT rfl hsub)) h_s) (inT rfl hsub)
  clear_value v1
  extract_lets +onlyGivenNames v2
  have h2 : Only fs s0 v2 := State.onTime_only h1 (inT rfl hsub)
  clear_value v2
  extract_lets +onlyGivenNames v3
  have h3 : Only fs s0 v3 := State.onHk_only h2 (inT rfl hsub)
  clear_value v3
  exact State.accountBoundary_only (State.powerBoundary_only h3 (inT rfl hsub)) (inT rfl hsub)

theorem State.frameAxes_only {fs : List Part} {s0 : State} {s prevLen was} (h_s : Only fs s0 s) (hsub : In [.regs, .power, .axes, .drives, .mots, .cmps, .latches, .legs, .rescue, .chop, .field, .safety, .trace, .log, .chans, .timers, .free] fs) :
    Only fs s0 (State.frameAxes s prevLen was) := by
  unfold State.frameAxes
  extract_lets +onlyGivenNames v0
  have h0 : Only fs s0 v0 := forN_only (fun _ _ h1 => State.axisBoundary_only h1 (inT rfl hsub)) (State.mainsBoundary_only h_s (inT rfl hsub))
  clear_value v0
  extract_lets +onlyGivenNames v2
  have h2 : Only fs s0 v2 := State.rescueBoundary_only (forN_only (fun _ _ h3 => State.ladderBoundary_only h3 (inT rfl hsub)) (State.shedBoundary_only h0 (inT rfl hsub))) (inT rfl hsub)
  clear_value v2
  extract_lets +onlyGivenNames v4
  have h4 : Only fs s0 v4 := forN_only (fun _ _ h5 => only_ite (State.motBoundary_only h5 (inT rfl hsub)) h5) h2
  clear_value v4
  extract_lets +onlyGivenNames v6
  have h6 : Only fs s0 v6 := forN_only (fun _ _ h7 => State.legBoundary_only h7 (inT rfl hsub)) (State.chopBoundary_only h4 (inT rfl hsub))
  clear_value v6
  exact State.persRun_only (State.judgeFlt_only h6 (inT rfl hsub)) (inT rfl hsub)

theorem State.readCommands_only {fs : List Part} {s0 : State} {s} (h_s : Only fs s0 s) (hsub : In [.drives] fs) :
    Only fs s0 (State.readCommands s) := by
  unfold State.readCommands
  refine forN_only ?_ h_s
  intro x1 t2 h3
  extract_lets +onlyGivenNames v4
  clear_value v4
  exact State.onDr_only h3 hsub

theorem execSamplePublish_only {fs : List Part} {s0 : State} {s} (h_s : Only fs s0 s) (hsub : In [.regs, .cfg, .stg, .mem, .eccBad, .time, .stage, .axes, .drives, .mots, .legs, .lanes, .shares, .chop, .dma, .dmaHalted, .cans, .safety, .trace, .log, .timers, .sched, .free] fs) :
    OnlyN fs s0 (execSamplePublish s) := by
  unfold execSamplePublish
  extract_lets +onlyGivenNames v0
  have h0 : Only fs s0 v0 := State.onTime_only (State.readCommands_only (State.reach_only h_s (inT rfl hsub)) (inT rfl hsub)) (inT rfl hsub)
  clear_value v0
  extract_lets +onlyGivenNames v1
  have h1 : Only fs s0 v1 := forN_only (fun _ _ h2 => State.shareSend_only h2 (inT rfl hsub)) h0
  clear_value v1
  exact onlyN_ite (onlyN_next h_s) (onlyN_next (State.dmaFrame_only (State.releaseAll_only (State.chopPublish_only h1 (inT rfl hsub)) (inT rfl hsub)) (inT rfl hsub)))

theorem execCommitCutoff_only {fs : List Part} {s0 : State} {s} (h_s : Only fs s0 s) (hsub : In [.regs, .time, .stage, .axes, .drives, .fbs, .mots, .legs, .lanes, .cans, .dos, .safety, .trace, .log, .chans, .timers] fs) :
    OnlyN fs s0 (execCommitCutoff s) := by
  unfold execCommitCutoff
  extract_lets +onlyGivenNames v0
  have h0 : Only fs s0 v0 := State.reach_only h_s (inT rfl hsub)
  clear_value v0
  extract_lets +onlyGivenNames v1
  have h1 : Only fs s0 v1 := forN_only (fun _ _ h2 => State.legCommit_only h2 (inT rfl hsub)) (State.cutAll_only h0 (inT rfl hsub))
  clear_value v1
  exact onlyN_ite (onlyN_next h_s) (onlyN_next (State.onTime_only (State.takeCut_only h1 (inT rfl hsub)) (inT rfl hsub)))

end Sys2Proof.Machine
end

