-- ==== Sys2Proof/Laws/OnlyReset.lean ====
section
/-!
SUPPORT. What the operations of Machine/Reset.lean may change: one lemma each, from any state reached.
-/
namespace Sys2Proof.Machine

open Sys2Proof.Safety

theorem State.fabricDown_only {fs : List Part} {s0 : State} {s} (h_s : Only fs s0 s) (hsub : In [.regs, .trace] fs) :
    Only fs s0 (State.fabricDown s) := by
  unfold State.fabricDown
  exact State.onLv_only (State.event_only h_s hsub) (inT rfl hsub)

theorem execVinRising_only {fs : List Part} {s0 : State} {s} (h_s : Only fs s0 s) (hsub : In [.power] fs) :
    OnlyN fs s0 (execVinRising s) := by
  unfold execVinRising
  exact onlyN_ite (onlyN_next (State.onPower_only h_s hsub)) (onlyN_next h_s)

theorem execVioLoss_only {fs : List Part} {s0 : State} {s} (h_s : Only fs s0 s) (hsub : In [.power] fs) :
    OnlyN fs s0 (execVioLoss s) := by
  unfold execVioLoss
  exact onlyN_next (State.onPower_only h_s hsub)

theorem execVioReturn_only {fs : List Part} {s0 : State} {s} (h_s : Only fs s0 s) (hsub : In [.power] fs) :
    OnlyN fs s0 (execVioReturn s) := by
  unfold execVioReturn
  exact onlyN_next (State.onPower_only h_s hsub)

theorem execPowerOn_only {fs : List Part} {s0 : State} {byVin madr s} (h_s : Only fs s0 s) (hsub : In [.power] fs) :
    OnlyN fs s0 (execPowerOn byVin madr s) := by
  unfold execPowerOn
  exact onlyN_ite (onlyN_next h_s) (onlyN_next (State.onPower_only h_s hsub))

theorem State.setLevel_only {fs : List Part} {s0 : State} {s l} (h_s : Only fs s0 s) (hsub : In [.regs, .trace, .hk, .log] fs) :
    Only fs s0 (State.setLevel s l) := by
  unfold State.setLevel
  extract_lets +onlyGivenNames v0
  clear_value v0
  exact only_ite h_s (State.logAdd_only (State.event_only (State.onHk_only h_s (inT rfl hsub)) (inT rfl hsub)) (inT rfl hsub))

theorem State.snapHalted_only {fs : List Part} {s0 : State} {s} (h_s : Only fs s0 s) (hsub : In [.regs] fs) :
    Only fs s0 (State.snapHalted s) := by
  unfold State.snapHalted
  exact only_ite (State.setLv_only h_s hsub) (State.onLv_only h_s hsub)

theorem State.commitThermal_only {fs : List Part} {s0 : State} {s} (h_s : Only fs s0 s) (hsub : In [.regs, .mem, .eccBad, .axes, .safety, .trace, .log, .free] fs) :
    Only fs s0 (State.commitThermal s) := by
  unfold State.commitThermal
  split
  · rename_i x0 t1 e2
    have h3 := onlyN_get (execLogEntryCommit_only (State.logAdd_only h_s (inT rfl hsub)) hsub) e2
    exact h3
  · exact h_s

theorem execTimeRefLost_only {fs : List Part} {s0 : State} {s} (h_s : Only fs s0 s) (hsub : In [.regs, .time, .axes, .mots, .legs, .safety, .trace, .hk, .log, .timers] fs) :
    OnlyN fs s0 (execTimeRefLost s) := by
  unfold execTimeRefLost
  extract_lets +onlyGivenNames v0
  have h0 : Only fs s0 v0 := State.onHk_only (State.onTime_only h_s (inT rfl hsub)) (inT rfl hsub)
  clear_value v0
  exact onlyN_ite (onlyN_next h_s) (onlyN_ite (onlyN_next h0) (onlyN_next (State.raiseNow_only (forN_only (fun _ _ h1 => State.legOff_only h1 (inT rfl hsub)) h0) (inT rfl hsub))))

theorem execRefReturn_only {fs : List Part} {s0 : State} {s} (h_s : Only fs s0 s) (hsub : In [.time] fs) :
    OnlyN fs s0 (execRefReturn s) := by
  unfold execRefReturn
  exact onlyN_ite (onlyN_next (State.onTime_only h_s hsub)) (onlyN_next h_s)

theorem execPllRelock_only {fs : List Part} {s0 : State} {s} (h_s : Only fs s0 s) (hsub : In [.time, .safety] fs) :
    OnlyN fs s0 (execPllRelock s) := by
  unfold execPllRelock
  exact onlyN_ite (onlyN_next (State.clearSrc_only (State.onTime_only h_s (inT rfl hsub)) (inT rfl hsub))) (onlyN_next h_s)

theorem execOpRampEnd_only {fs : List Part} {s0 : State} {s} (h_s : Only fs s0 s) (hsub : In [.time, .timers, .sched] fs) :
    OnlyN fs s0 (execOpRampEnd s) := by
  unfold execOpRampEnd
  exact onlyN_next (State.expire_only h_s (fun _ h0 => State.onSched_only h0 (inT rfl hsub)) (inT rfl hsub))

theorem State.setTdo_only {fs : List Part} {s0 : State} {s w} (h_s : Only fs s0 s) (hsub : In [.power] fs) :
    Only fs s0 (State.setTdo s w) := by
  unfold State.setTdo
  exact State.onPower_only h_s hsub

theorem State.scanBalls_only {fs : List Part} {s0 : State} {s} (h_s : Only fs s0 s) (hsub : In [.power, .free] fs) :
    Only fs s0 (State.scanBalls s) := by
  unfold State.scanBalls
  split
  · rename_i x0 x1 t2 e3
    have h4 := only2_snd (State.takeFree_only h_s (inT rfl hsub)) e3
    exact State.setTdo_only h4 (inT rfl hsub)

end Sys2Proof.Machine
end

