-- ==== Sys2Proof/Laws/OnlyStartup.lean ====
section
/-!
SUPPORT. What the operations of Machine/Startup.lean may change: one lemma each, from any state reached.
-/
namespace Sys2Proof.Machine

open Sys2Proof.Safety

theorem State.bootReg_only {fs : List Part} {s0 : State} {s p o v} (h_s : Only fs s0 s) (hsub : In [.stg, .stage] fs) :
    Only fs s0 (State.bootReg s p o v) := by
  unfold State.bootReg
  exact State.markDirty_only (State.setCd_only h_s (inT rfl hsub)) (inT rfl hsub)

theorem State.bootFld_only {fs : List Part} {s0 : State} {s p o hi lo v} (h_s : Only fs s0 s) (hsub : In [.stg, .stage] fs) :
    Only fs s0 (State.bootFld s p o hi lo v) := by
  unfold State.bootFld
  exact State.bootReg_only h_s hsub

theorem State.bootOpen_only {fs : List Part} {s0 : State} {s} (h_s : Only fs s0 s) (hsub : In [.stg, .stage] fs) :
    Only fs s0 (State.bootOpen s) := by
  unfold State.bootOpen
  exact State.onStage_only (State.closeStage_only h_s hsub) (inT rfl hsub)

theorem State.bootGains_only {fs : List Part} {s0 : State} {s} (h_s : Only fs s0 s) (hsub : In [.stg, .stage] fs) :
    Only fs s0 (State.bootGains s) := by
  unfold State.bootGains
  extract_lets +onlyGivenNames v0
  clear_value v0
  extract_lets +onlyGivenNames v1
  clear_value v1
  extract_lets +onlyGivenNames v2
  clear_value v2
  extract_lets +onlyGivenNames v3
  clear_value v3
  exact State.bootReg_only (State.bootReg_only (State.bootReg_only (State.bootReg_only h_s hsub) hsub) hsub) hsub

theorem State.bootMotor_only {fs : List Part} {s0 : State} {s pp psi rs l ifs} (h_s : Only fs s0 s) (hsub : In [.stg, .stage] fs) :
    Only fs s0 (State.bootMotor s pp psi rs l ifs) := by
  unfold State.bootMotor
  extract_lets +onlyGivenNames v0
  clear_value v0
  exact State.bootFld_only (State.bootReg_only (State.bootReg_only (State.bootReg_only (State.bootReg_only (State.bootReg_only (State.bootReg_only (State.bootReg_only (State.bootReg_only h_s hsub) hsub) hsub) hsub) hsub) hsub) hsub) hsub) hsub

theorem State.bootDrive_only {fs : List Part} {s0 : State} {s angle fb deb} (h_s : Only fs s0 s) (hsub : In [.stg, .stage] fs) :
    Only fs s0 (State.bootDrive s angle fb deb) := by
  unfold State.bootDrive
  extract_lets +onlyGivenNames v0
  have h0 : Only fs s0 v0 := forN_only (fun _ _ h1 => State.bootFld_only (State.bootFld_only (State.bootFld_only h1 hsub) hsub) hsub) h_s
  clear_value v0
  extract_lets +onlyGivenNames v2
  clear_value v2
  extract_lets +onlyGivenNames v3
  have h3 : Only fs s0 v3 := State.bootFld_only (State.bootFld_only (State.bootFld_only (State.bootFld_only h0 hsub) hsub) hsub) hsub
  clear_value v3
  extract_lets +onlyGivenNames v4
  have h4 : Only fs s0 v4 := State.bootFld_only (State.bootFld_only h3 hsub) hsub
  clear_value v4
  extract_lets +onlyGivenNames v5
  have h5 : Only fs s0 v5 := State.bootReg_only h4 hsub
  clear_value v5
  exact forN_only (fun _ _ h6 => State.bootFld_only h6 hsub) h5

theorem State.bootSpeedLoop_only {fs : List Part} {s0 : State} {s cfg sp} (h_s : Only fs s0 s) (hsub : In [.stg, .stage] fs) :
    Only fs s0 (State.bootSpeedLoop s cfg sp) := by
  unfold State.bootSpeedLoop
  extract_lets +onlyGivenNames v0
  clear_value v0
  exact State.bootReg_only (State.bootReg_only (State.bootReg_only (State.bootReg_only (State.bootReg_only (State.bootReg_only (State.bootReg_only h_s hsub) hsub) hsub) hsub) hsub) hsub) hsub

theorem State.bootP1_only {fs : List Part} {s0 : State} {s} (h_s : Only fs s0 s) (hsub : In [.stg, .stage] fs) :
    Only fs s0 (State.bootP1 s) := by
  unfold State.bootP1
  extract_lets +onlyGivenNames v0
  have h0 : Only fs s0 v0 := State.bootGains_only (State.bootMotor_only (State.bootDrive_only h_s hsub) hsub) hsub
  clear_value v0
  extract_lets +onlyGivenNames v1
  have h1 : Only fs s0 v1 := State.bootFld_only (State.bootFld_only h0 hsub) hsub
  clear_value v1
  extract_lets +onlyGivenNames v2
  have h2 : Only fs s0 v2 := State.bootFld_only (State.bootFld_only h1 hsub) hsub
  clear_value v2
  extract_lets +onlyGivenNames v3
  have h3 : Only fs s0 v3 := State.bootFld_only (State.bootFld_only h2 hsub) hsub
  clear_value v3
  extract_lets +onlyGivenNames v4
  have h4 : Only fs s0 v4 := State.bootFld_only (State.bootFld_only h3 hsub) hsub
  clear_value v4
  extract_lets +onlyGivenNames v5
  have h5 : Only fs s0 v5 := State.bootFld_only (State.bootFld_only (State.bootFld_only h4 hsub) hsub) hsub
  clear_value v5
  extract_lets +onlyGivenNames v6
  have h6 : Only fs s0 v6 := State.bootReg_only (State.bootReg_only h5 hsub) hsub
  clear_value v6
  extract_lets +onlyGivenNames v7
  clear_value v7
  extract_lets +onlyGivenNames v8
  have h8 : Only fs s0 v8 := State.bootReg_only (State.bootReg_only (State.bootReg_only (State.bootReg_only (State.bootReg_only h6 hsub) hsub) hsub) hsub) hsub
  clear_value v8
  exact State.bootSpeedLoop_only h8 hsub

theorem State.bootP2_only {fs : List Part} {s0 : State} {s} (h_s : Only fs s0 s) (hsub : In [.stg, .stage] fs) :
    Only fs s0 (State.bootP2 s) := by
  unfold State.bootP2
  extract_lets +onlyGivenNames v0
  have h0 : Only fs s0 v0 := State.bootGains_only (State.bootMotor_only (State.bootDrive_only h_s hsub) hsub) hsub
  clear_value v0
  extract_lets +onlyGivenNames v1
  have h1 : Only fs s0 v1 := State.bootReg_only h0 hsub
  clear_value v1
  extract_lets +onlyGivenNames v2
  have h2 : Only fs s0 v2 := State.bootReg_only (State.bootFld_only h1 hsub) hsub
  clear_value v2
  exact State.bootSpeedLoop_only h2 hsub

theorem State.bootP3_only {fs : List Part} {s0 : State} {s} (h_s : Only fs s0 s) (hsub : In [.stg, .stage] fs) :
    Only fs s0 (State.bootP3 s) := by
  unfold State.bootP3
  exact State.bootReg_only (State.bootFld_only h_s hsub) hsub

theorem State.bootPers_only {fs : List Part} {s0 : State} {s n} (h_s : Only fs s0 s) (hsub : In [.stg, .stage] fs) :
    Only fs s0 (State.bootPers s n) := by
  unfold State.bootPers
  exact only_ite (State.bootP1_only (State.bootOpen_only h_s hsub) hsub) (only_ite (State.bootP2_only (State.bootOpen_only h_s hsub) hsub) (State.bootP3_only (State.bootOpen_only h_s hsub) hsub))

theorem State.persLive_only {fs : List Part} {s0 : State} {s} (h_s : Only fs s0 s) (hsub : In [.regs] fs) :
    Only fs s0 (State.persLive s) := by
  unfold State.persLive
  exact only_ite (State.setLv_only (State.setLv_only (State.setLv_only h_s hsub) hsub) hsub) h_s

theorem State.bootLock_only {fs : List Part} {s0 : State} {s cmosClock} (h_s : Only fs s0 s) (hsub : In [.power, .time] fs) :
    Only fs s0 (State.bootLock s cmosClock) := by
  unfold State.bootLock
  extract_lets +onlyGivenNames v0
  clear_value v0
  exact State.onPower_only (State.onTime_only h_s (inT rfl hsub)) (inT rfl hsub)

theorem State.bootLink_only {fs : List Part} {s0 : State} {s delay} (h_s : Only fs s0 s) (hsub : In [.time, .pdie] fs) :
    Only fs s0 (State.bootLink s delay) := by
  unfold State.bootLink
  exact State.onPdie_only (State.onTime_only h_s (inT rfl hsub)) (inT rfl hsub)

theorem State.bootStraps_only {fs : List Part} {s0 : State} {s i} (h_s : Only fs s0 s) (hsub : In [.power] fs) :
    Only fs s0 (State.bootStraps s i) := by
  unfold State.bootStraps
  exact State.onPower_only h_s hsub

theorem State.bootChecks_only {fs : List Part} {s0 : State} {s i} (h_s : Only fs s0 s) (hsub : In [.regs, .mem, .eccBad, .power, .stage, .axes, .fbs, .mots, .legs, .lanes, .cans, .dos, .safety, .trace, .log, .chans, .timers, .free] fs) :
    Only fs s0 (State.bootChecks s i) := by
  unfold State.bootChecks
  extract_lets +onlyGivenNames v0
  have h0 : Only fs s0 v0 := State.logAdd_only h_s (inT rfl hsub)
  clear_value v0
  extract_lets +onlyGivenNames v1
  have h1 : Only fs s0 v1 := by
    unfold v1
    split
    · rename_i x2 t3 e4
      have h5 := onlyN_get (execLogEntryCommit_only h0 (inT rfl hsub)) e4
      exact h5
    · exact h0
  clear_value v1
  extract_lets +onlyGivenNames v6
  have h6 : Only fs s0 v6 := by
    unfold v6
    exact Only.upd h_s (inT (F := [.mem, .eccBad]) rfl hsub) (by intro f hf; cases f <;> first | rfl | simp at hf)
  clear_value v6
  extract_lets +onlyGivenNames v7
  have h7 : Only fs s0 v7 := forN_only (fun _ _ h8 => only_ite (State.retire_only h8 (inT rfl hsub)) h8) h6
  clear_value v7
  exact only_ite (State.onPower_only h1 (inT rfl hsub)) (State.onPower_only h7 (inT rfl hsub))

theorem State.bootImage_only {fs : List Part} {s0 : State} {s} (h_s : Only fs s0 s) (hsub : In [.stg, .mem, .eccBad, .stage] fs) :
    Only fs s0 (State.bootImage s) := by
  unfold State.bootImage
  extract_lets +onlyGivenNames v0
  clear_value v0
  exact forL_only (fun _ _ h1 => only_ite (forL_only (fun _ _ h2 => State.bootReg_only h2 (inT rfl hsub)) h1) (State.putWords_only h1 (inT rfl hsub))) (State.bootOpen_only h_s (inT rfl hsub))

theorem State.bootScan_only {fs : List Part} {s0 : State} {s} (h_s : Only fs s0 s) (hsub : In [.regs, .stg, .mem, .eccBad, .power, .stage, .axes, .safety, .trace, .log, .free] fs) :
    Only fs s0 (State.bootScan s) := by
  unfold State.bootScan
  extract_lets +onlyGivenNames v0
  have h0 : Only fs s0 v0 := State.bootLog_only h_s (inT rfl hsub)
  clear_value v0
  extract_lets +onlyGivenNames v1
  have h1 : Only fs s0 v1 := by
    unfold v1
    refine only_ite h0 ?_
    split
    · exact State.onPower_only h0 (inT rfl hsub)
    · exact State.onPower_only (State.bootImage_only h0 (inT rfl hsub)) (inT rfl hsub)
  clear_value v1
  exact State.onPower_only h1 (inT rfl hsub)

theorem State.bootProve_only {fs : List Part} {s0 : State} {s} (h_s : Only fs s0 s) (hsub : In [.regs, .stage, .trace] fs) :
    Only2 fs s0 (State.bootProve s) := by
  unfold State.bootProve
  extract_lets +onlyGivenNames v0
  clear_value v0
  exact only2_mk (State.event_only (State.writeProof_only h_s (inT rfl hsub)) (inT rfl hsub))

theorem State.bootProveImage_only {fs : List Part} {s0 : State} {s} (h_s : Only fs s0 s) (hsub : In [.regs, .stg, .power, .stage, .trace] fs) :
    Only fs s0 (State.bootProveImage s) := by
  unfold State.bootProveImage
  refine only_ite ?_ h_s
  split
  · rename_i x0 x1 t2 e3
    have h4 := only2_snd (State.bootProve_only h_s (inT rfl hsub)) e3
    exact only_ite (State.onPower_only h4 (inT rfl hsub)) (State.onPower_only (State.closeStage_only h4 (inT rfl hsub)) (inT rfl hsub))

theorem State.bootProvePers_only {fs : List Part} {s0 : State} {s} (h_s : Only fs s0 s) (hsub : In [.regs, .stg, .power, .stage, .trace] fs) :
    Only fs s0 (State.bootProvePers s) := by
  unfold State.bootProvePers
  extract_lets +onlyGivenNames v0
  clear_value v0
  refine only_ite h_s ?_
  split
  · rename_i x1 x2 t3 e4
    have h5 := only2_snd (State.bootProve_only (State.bootPers_only h_s (inT rfl hsub)) (inT rfl hsub)) e4
    extract_lets +onlyGivenNames v6
    have h6 : Only fs s0 v6 := State.onPower_only h5 (inT rfl hsub)
    clear_value v6
    exact only_ite (State.onPower_only h6 (inT rfl hsub)) (State.closeStage_only h6 (inT rfl hsub))

theorem State.fabricUp_only {fs : List Part} {s0 : State} {s} (h_s : Only fs s0 s) (hsub : In [.regs, .power, .trace] fs) :
    Only fs s0 (State.fabricUp s) := by
  unfold State.fabricUp
  extract_lets +onlyGivenNames v0
  have h0 : Only fs s0 v0 := State.onPower_only h_s (inT rfl hsub)
  clear_value v0
  exact State.event_only (State.setLv_only h0 (inT rfl hsub)) (inT rfl hsub)

theorem State.gridTo_only {fs : List Part} {s0 : State} {s t} (h_s : Only fs s0 s) (hsub : In [.time] fs) :
    Only fs s0 (State.gridTo s t) := by
  unfold State.gridTo
  split
  · exact only_ite h_s (State.onTime_only h_s hsub)
  · extract_lets +onlyGivenNames v0
    clear_value v0
    exact State.onTime_only h_s hsub

theorem State.bootPlain_only {fs : List Part} {s0 : State} {s} (h_s : Only fs s0 s) (hsub : In [.regs, .power, .time, .stage, .axes, .drives, .lanes, .safety, .trace, .log, .timers] fs) :
    Only fs s0 (State.bootPlain s) := by
  unfold State.bootPlain
  exact State.fabricUp_only (State.newConfig_only (State.gridTo_only h_s (inT rfl hsub)) (inT rfl hsub)) (inT rfl hsub)

theorem State.bootProof_only {fs : List Part} {s0 : State} {s} (h_s : Only fs s0 s) (hsub : In [.regs, .stg, .power, .time, .stage, .axes, .drives, .lanes, .safety, .trace, .log, .timers] fs) :
    Only fs s0 (State.bootProof s) := by
  unfold State.bootProof
  extract_lets +onlyGivenNames v0
  have h0 : Only fs s0 v0 := State.bootProvePers_only (State.bootProveImage_only h_s (inT rfl hsub)) (inT rfl hsub)
  clear_value v0
  extract_lets +onlyGivenNames v1
  clear_value v1
  exact only_ite (State.bootPlain_only h0 (inT rfl hsub)) (State.onPower_only (State.onStage_only h0 (inT rfl hsub)) (inT rfl hsub))

theorem execVioWaitTimeout_only {fs : List Part} {s0 : State} {s} (h_s : Only fs s0 s) (hsub : In [.power] fs) :
    OnlyN fs s0 (execVioWaitTimeout s) := by
  unfold execVioWaitTimeout
  exact onlyN_ite (onlyN_next (State.onPower_only h_s hsub)) (onlyN_next h_s)

end Sys2Proof.Machine
end

