-- ==== Sys2Proof/Laws/OnlyHk.lean ====
section
/-!
SUPPORT. What the operations of Machine/Hk.lean may change: one lemma each, from any state reached.
-/
namespace Sys2Proof.Machine

open Sys2Proof.Safety

theorem State.levelStep_only {fs : List Part} {s0 : State} {s ch} (h_s : Only fs s0 s) (hsub : In [.regs, .trace, .hk, .log] fs) :
    Only fs s0 (State.levelStep s ch) := by
  unfold State.levelStep
  extract_lets +onlyGivenNames v0
  clear_value v0
  extract_lets +onlyGivenNames v1
  clear_value v1
  extract_lets +onlyGivenNames v2
  clear_value v2
  extract_lets +onlyGivenNames v3
  clear_value v3
  exact only_ite (State.setLevel_only h_s hsub) (only_ite h_s (only_ite (only_ite (State.setLevel_only h_s hsub) (State.onHk_only h_s (inT rfl hsub))) (State.onHk_only h_s (inT rfl hsub))))

theorem State.follow_only {fs : List Part} {s0 : State} {s src on} (h_s : Only fs s0 s) (hsub : In [.regs, .axes, .safety, .trace, .log] fs) :
    Only fs s0 (State.follow s src on) := by
  unfold State.follow
  exact only_ite (State.raise_only h_s hsub) (State.clearSrc_only h_s (inT rfl hsub))

theorem State.supplyCheck_only {fs : List Part} {s0 : State} {s ch} (h_s : Only fs s0 s) (hsub : In [.regs, .axes, .safety, .trace, .log] fs) :
    Only fs s0 (State.supplyCheck s ch) := by
  unfold State.supplyCheck
  extract_lets +onlyGivenNames v0
  clear_value v0
  extract_lets +onlyGivenNames v1
  have h1 : Only fs s0 v1 := only_ite (State.pfault_only (State.event_only h_s (inT rfl hsub)) (inT rfl hsub)) h_s
  clear_value v1
  exact State.follow_only h1 hsub

theorem State.sensorTest_only {fs : List Part} {s0 : State} {s ch i} (h_s : Only fs s0 s) (hsub : In [.regs, .trace, .hk] fs) :
    Only fs s0 (State.sensorTest s ch i) := by
  unfold State.sensorTest
  extract_lets +onlyGivenNames v0
  clear_value v0
  extract_lets +onlyGivenNames v1
  clear_value v1
  extract_lets +onlyGivenNames v2
  clear_value v2
  extract_lets +onlyGivenNames v3
  clear_value v3
  extract_lets +onlyGivenNames v4
  have h4 : Only fs s0 v4 := State.onHk_only h_s (inT rfl hsub)
  clear_value v4
  exact only_ite (State.pfault_only (State.event_only (State.onHk_only h4 (inT rfl hsub)) (inT rfl hsub)) (inT rfl hsub)) (only_ite (State.onHk_only h4 (inT rfl hsub)) h4)

theorem State.sensorCheck_only {fs : List Part} {s0 : State} {s ch} (h_s : Only fs s0 s) (hsub : In [.regs, .axes, .safety, .trace, .hk, .log] fs) :
    Only fs s0 (State.sensorCheck s ch) := by
  unfold State.sensorCheck
  extract_lets +onlyGivenNames v0
  have h0 : Only fs s0 v0 := forN_only (fun _ _ h1 => State.sensorTest_only h1 (inT rfl hsub)) h_s
  clear_value v0
  exact only_ite h_s (State.follow_only h0 (inT rfl hsub))

theorem State.hkPublish_only {fs : List Part} {s0 : State} {s ch} (h_s : Only fs s0 s) (hsub : In [.regs, .hk, .samples] fs) :
    Only fs s0 (State.hkPublish s ch) := by
  unfold State.hkPublish
  extract_lets +onlyGivenNames v0
  clear_value v0
  extract_lets +onlyGivenNames v1
  have h1 : Only fs s0 v1 := by
    unfold v1
    exact Only.upd h_s (inT (F := [.samples]) rfl hsub) (by intro f hf; cases f <;> first | rfl | simp at hf)
  clear_value v1
  extract_lets +onlyGivenNames v2
  have h2 : Only fs s0 v2 := State.onHk_only h1 (inT rfl hsub)
  clear_value v2
  extract_lets +onlyGivenNames v3
  have h3 : Only fs s0 v3 := State.setLv_only h2 (inT rfl hsub)
  clear_value v3
  exact State.setLv_only h3 (inT rfl hsub)

theorem State.hkSources_only {fs : List Part} {s0 : State} {s ch} (h_s : Only fs s0 s) (hsub : In [.regs, .axes, .safety, .trace, .hk, .log] fs) :
    Only fs s0 (State.hkSources s ch) := by
  unfold State.hkSources
  extract_lets +onlyGivenNames v0
  clear_value v0
  extract_lets +onlyGivenNames v1
  have h1 : Only fs s0 v1 := State.follow_only (State.follow_only h_s (inT rfl hsub)) (inT rfl hsub)
  clear_value v1
  extract_lets +onlyGivenNames v2
  have h2 : Only fs s0 v2 := State.follow_only (only_ite (State.pfault_only h1 (inT rfl hsub)) h1) (inT rfl hsub)
  clear_value v2
  extract_lets +onlyGivenNames v3
  have h3 : Only fs s0 v3 := State.sensorCheck_only (State.supplyCheck_only h2 (inT rfl hsub)) hsub
  clear_value v3
  exact only_ite h_s (State.setLv_only h3 (inT rfl hsub))

theorem State.roundEnd_only {fs : List Part} {s0 : State} {s} (h_s : Only fs s0 s) (hsub : In [.time, .hk] fs) :
    Only fs s0 (State.roundEnd s) := by
  unfold State.roundEnd
  extract_lets +onlyGivenNames v0
  clear_value v0
  extract_lets +onlyGivenNames v1
  clear_value v1
  extract_lets +onlyGivenNames v2
  have h2 : Only fs s0 v2 := only_ite h_s (State.reach_only h_s (inT rfl hsub))
  clear_value v2
  exact State.onHk_only h2 (inT rfl hsub)

theorem execAinTrimUpdate_only {fs : List Part} {s0 : State} {conv offset gain s} (h_s : Only fs s0 s) (hsub : In [.hk] fs) :
    OnlyN fs s0 (execAinTrimUpdate conv offset gain s) := by
  unfold execAinTrimUpdate
  extract_lets +onlyGivenNames v0
  clear_value v0
  exact onlyN_ite (onlyN_next h_s) (onlyN_next (State.onHk_only h_s hsub))

theorem State.eccCount_only {fs : List Part} {s0 : State} {s o region} (h_s : Only fs s0 s) (hsub : In [.regs] fs) :
    Only fs s0 (State.eccCount s o region) := by
  unfold State.eccCount
  exact State.onLv_only h_s hsub

theorem State.eccFixed_only {fs : List Part} {s0 : State} {s a region} (h_s : Only fs s0 s) (hsub : In [.regs, .trace] fs) :
    Only fs s0 (State.eccFixed s a region) := by
  unfold State.eccFixed
  exact State.event_only (State.setLv_only (State.eccCount_only h_s (inT rfl hsub)) (inT rfl hsub)) hsub

theorem State.eccBroken_only {fs : List Part} {s0 : State} {s a region} (h_s : Only fs s0 s) (hsub : In [.regs, .mem, .eccBad, .stage, .axes, .fbs, .mots, .legs, .lanes, .cans, .dos, .safety, .trace, .log, .chans, .timers] fs) :
    Only fs s0 (State.eccBroken s a region) := by
  unfold State.eccBroken
  extract_lets +onlyGivenNames v0
  have h0 : Only fs s0 v0 := State.event_only (State.setLv_only (State.eccCount_only h_s (inT rfl hsub)) (inT rfl hsub)) (inT rfl hsub)
  clear_value v0
  extract_lets +onlyGivenNames v1
  have h1 : Only fs s0 v1 := State.logAdd_only h0 (inT rfl hsub)
  clear_value v1
  extract_lets +onlyGivenNames v2
  have h2 : ∀ t0, Only fs s0 t0 → Only fs s0 (v2 t0) := by
    unfold v2
    intro t3 h4
    exact Only.upd h4 (inT (F := [.eccBad]) rfl hsub) (by intro f hf; cases f <;> first | rfl | simp at hf)
  clear_value v2
  exact only_ite (State.raisePulse_only (State.pfault_only (h2 _ h1) (inT rfl hsub)) (inT rfl hsub)) (only_ite (State.laneFault_only (h2 _ h1) (inT rfl hsub)) (State.putWord_only h1 (inT rfl hsub)))

theorem State.scrubOne_only {fs : List Part} {s0 : State} {s step ce ue i} (h_s : Only fs s0 s) (hsub : In [.regs, .mem, .eccBad, .stage, .axes, .fbs, .mots, .legs, .lanes, .cans, .dos, .safety, .trace, .log, .chans, .timers] fs) :
    Only fs s0 (State.scrubOne s step ce ue i) := by
  unfold State.scrubOne
  split
  · exact only_ite (State.eccBroken_only h_s hsub) (only_ite (State.eccFixed_only h_s (inT rfl hsub)) h_s)

theorem execScrubStep_only {fs : List Part} {s0 : State} {ce ue s} (h_s : Only fs s0 s) (hsub : In [.regs, .mem, .eccBad, .stage, .axes, .fbs, .mots, .legs, .lanes, .cans, .dos, .safety, .trace, .log, .chans, .timers] fs) :
    OnlyN fs s0 (execScrubStep ce ue s) := by
  unfold execScrubStep
  extract_lets +onlyGivenNames v0
  clear_value v0
  extract_lets +onlyGivenNames v1
  clear_value v1
  extract_lets +onlyGivenNames v2
  have h2 : Only fs s0 v2 := forN_only (fun _ _ h3 => State.scrubOne_only h3 hsub) h_s
  clear_value v2
  extract_lets +onlyGivenNames v4
  clear_value v4
  exact onlyN_ite (onlyN_next h_s) (onlyN_next (State.setLv_only h2 (inT rfl hsub)))

theorem execTelemetrySend_only {fs : List Part} {s0 : State} {s} (h_s : Only fs s0 s) (hsub : In [.regs, .time, .cans, .timers] fs) :
    OnlyN fs s0 (execTelemetrySend s) := by
  unfold execTelemetrySend
  split
  · exact onlyN_next h_s
  · extract_lets +onlyGivenNames v0
    clear_value v0
    extract_lets +onlyGivenNames v1
    have h1 : Only fs s0 v1 := State.expire_only h_s (fun _ h2 => State.startT_only h2 (inT rfl hsub)) (inT rfl hsub)
    clear_value v1
    exact onlyN_next (forN_only (fun _ _ h3 => only_ite h3 (only_ite (State.bilvaSend_only h3 (inT rfl hsub)) (State.inc16_only h3 (inT rfl hsub)))) h1)

end Sys2Proof.Machine
end

