-- ==== Sys2Proof/Laws/State.lean ====
section
/-!
SUPPORT. Every field after every update of State, one lemma each, true by unfolding.
-/
namespace Sys2Proof.Machine

/-! onAx. -/

@[simp] theorem State.onAx_regs (s : State) (a : Nat) (f : AxisSt → AxisSt) : (s.onAx a f).regs = s.regs := rfl
@[simp] theorem State.onAx_cfg (s : State) (a : Nat) (f : AxisSt → AxisSt) : (s.onAx a f).cfg = s.cfg := rfl
@[simp] theorem State.onAx_stg (s : State) (a : Nat) (f : AxisSt → AxisSt) : (s.onAx a f).stg = s.stg := rfl
@[simp] theorem State.onAx_mem (s : State) (a : Nat) (f : AxisSt → AxisSt) : (s.onAx a f).mem = s.mem := rfl
@[simp] theorem State.onAx_eccBad (s : State) (a : Nat) (f : AxisSt → AxisSt) : (s.onAx a f).eccBad = s.eccBad := rfl
@[simp] theorem State.onAx_power (s : State) (a : Nat) (f : AxisSt → AxisSt) : (s.onAx a f).power = s.power := rfl
@[simp] theorem State.onAx_time (s : State) (a : Nat) (f : AxisSt → AxisSt) : (s.onAx a f).time = s.time := rfl
@[simp] theorem State.onAx_stage (s : State) (a : Nat) (f : AxisSt → AxisSt) : (s.onAx a f).stage = s.stage := rfl
@[simp] theorem State.onAx_host (s : State) (a : Nat) (f : AxisSt → AxisSt) : (s.onAx a f).host = s.host := rfl
@[simp] theorem State.onAx_mgr (s : State) (a : Nat) (f : AxisSt → AxisSt) : (s.onAx a f).mgr = s.mgr := rfl
@[simp] theorem State.onAx_axes (s : State) (a : Nat) (f : AxisSt → AxisSt) : (s.onAx a f).axes = s.axes.modify a f := rfl
@[simp] theorem State.onAx_drives (s : State) (a : Nat) (f : AxisSt → AxisSt) : (s.onAx a f).drives = s.drives := rfl
@[simp] theorem State.onAx_ctxs (s : State) (a : Nat) (f : AxisSt → AxisSt) : (s.onAx a f).ctxs = s.ctxs := rfl
@[simp] theorem State.onAx_fbs (s : State) (a : Nat) (f : AxisSt → AxisSt) : (s.onAx a f).fbs = s.fbs := rfl
@[simp] theorem State.onAx_mots (s : State) (a : Nat) (f : AxisSt → AxisSt) : (s.onAx a f).mots = s.mots := rfl
@[simp] theorem State.onAx_cmps (s : State) (a : Nat) (f : AxisSt → AxisSt) : (s.onAx a f).cmps = s.cmps := rfl
@[simp] theorem State.onAx_latches (s : State) (a : Nat) (f : AxisSt → AxisSt) : (s.onAx a f).latches = s.latches := rfl
@[simp] theorem State.onAx_groups (s : State) (a : Nat) (f : AxisSt → AxisSt) : (s.onAx a f).groups = s.groups := rfl
@[simp] theorem State.onAx_legs (s : State) (a : Nat) (f : AxisSt → AxisSt) : (s.onAx a f).legs = s.legs := rfl
@[simp] theorem State.onAx_lanes (s : State) (a : Nat) (f : AxisSt → AxisSt) : (s.onAx a f).lanes = s.lanes := rfl
@[simp] theorem State.onAx_ropes (s : State) (a : Nat) (f : AxisSt → AxisSt) : (s.onAx a f).ropes = s.ropes := rfl
@[simp] theorem State.onAx_shares (s : State) (a : Nat) (f : AxisSt → AxisSt) : (s.onAx a f).shares = s.shares := rfl
@[simp] theorem State.onAx_rescue (s : State) (a : Nat) (f : AxisSt → AxisSt) : (s.onAx a f).rescue = s.rescue := rfl
@[simp] theorem State.onAx_chop (s : State) (a : Nat) (f : AxisSt → AxisSt) : (s.onAx a f).chop = s.chop := rfl
@[simp] theorem State.onAx_pdie (s : State) (a : Nat) (f : AxisSt → AxisSt) : (s.onAx a f).pdie = s.pdie := rfl
@[simp] theorem State.onAx_dma (s : State) (a : Nat) (f : AxisSt → AxisSt) : (s.onAx a f).dma = s.dma := rfl
@[simp] theorem State.onAx_dmaLast (s : State) (a : Nat) (f : AxisSt → AxisSt) : (s.onAx a f).dmaLast = s.dmaLast := rfl
@[simp] theorem State.onAx_dmaHalted (s : State) (a : Nat) (f : AxisSt → AxisSt) : (s.onAx a f).dmaHalted = s.dmaHalted := rfl
@[simp] theorem State.onAx_cans (s : State) (a : Nat) (f : AxisSt → AxisSt) : (s.onAx a f).cans = s.cans := rfl
@[simp] theorem State.onAx_dis (s : State) (a : Nat) (f : AxisSt → AxisSt) : (s.onAx a f).dis = s.dis := rfl
@[simp] theorem State.onAx_dos (s : State) (a : Nat) (f : AxisSt → AxisSt) : (s.onAx a f).dos = s.dos := rfl
@[simp] theorem State.onAx_field (s : State) (a : Nat) (f : AxisSt → AxisSt) : (s.onAx a f).field = s.field := rfl
@[simp] theorem State.onAx_sins (s : State) (a : Nat) (f : AxisSt → AxisSt) : (s.onAx a f).sins = s.sins := rfl
@[simp] theorem State.onAx_safety (s : State) (a : Nat) (f : AxisSt → AxisSt) : (s.onAx a f).safety = s.safety := rfl
@[simp] theorem State.onAx_trace (s : State) (a : Nat) (f : AxisSt → AxisSt) : (s.onAx a f).trace = s.trace := rfl
@[simp] theorem State.onAx_hk (s : State) (a : Nat) (f : AxisSt → AxisSt) : (s.onAx a f).hk = s.hk := rfl
@[simp] theorem State.onAx_log (s : State) (a : Nat) (f : AxisSt → AxisSt) : (s.onAx a f).log = s.log := rfl
@[simp] theorem State.onAx_chans (s : State) (a : Nat) (f : AxisSt → AxisSt) : (s.onAx a f).chans = s.chans := rfl
@[simp] theorem State.onAx_timers (s : State) (a : Nat) (f : AxisSt → AxisSt) : (s.onAx a f).timers = s.timers := rfl
@[simp] theorem State.onAx_sched (s : State) (a : Nat) (f : AxisSt → AxisSt) : (s.onAx a f).sched = s.sched := rfl
@[simp] theorem State.onAx_precheck (s : State) (a : Nat) (f : AxisSt → AxisSt) : (s.onAx a f).precheck = s.precheck := rfl
@[simp] theorem State.onAx_samples (s : State) (a : Nat) (f : AxisSt → AxisSt) : (s.onAx a f).samples = s.samples := rfl
@[simp] theorem State.onAx_reps (s : State) (a : Nat) (f : AxisSt → AxisSt) : (s.onAx a f).reps = s.reps := rfl
@[simp] theorem State.onAx_free (s : State) (a : Nat) (f : AxisSt → AxisSt) : (s.onAx a f).free = s.free := rfl
@[simp] theorem State.onAx_pending (s : State) (a : Nat) (f : AxisSt → AxisSt) : (s.onAx a f).pending = s.pending := rfl

/-! onDr. -/

@[simp] theorem State.onDr_regs (s : State) (a : Nat) (f : DriveSt → DriveSt) : (s.onDr a f).regs = s.regs := rfl
@[simp] theorem State.onDr_cfg (s : State) (a : Nat) (f : DriveSt → DriveSt) : (s.onDr a f).cfg = s.cfg := rfl
@[simp] theorem State.onDr_stg (s : State) (a : Nat) (f : DriveSt → DriveSt) : (s.onDr a f).stg = s.stg := rfl
@[simp] theorem State.onDr_mem (s : State) (a : Nat) (f : DriveSt → DriveSt) : (s.onDr a f).mem = s.mem := rfl
@[simp] theorem State.onDr_eccBad (s : State) (a : Nat) (f : DriveSt → DriveSt) : (s.onDr a f).eccBad = s.eccBad := rfl
@[simp] theorem State.onDr_power (s : State) (a : Nat) (f : DriveSt → DriveSt) : (s.onDr a f).power = s.power := rfl
@[simp] theorem State.onDr_time (s : State) (a : Nat) (f : DriveSt → DriveSt) : (s.onDr a f).time = s.time := rfl
@[simp] theorem State.onDr_stage (s : State) (a : Nat) (f : DriveSt → DriveSt) : (s.onDr a f).stage = s.stage := rfl
@[simp] theorem State.onDr_host (s : State) (a : Nat) (f : DriveSt → DriveSt) : (s.onDr a f).host = s.host := rfl
@[simp] theorem State.onDr_mgr (s : State) (a : Nat) (f : DriveSt → DriveSt) : (s.onDr a f).mgr = s.mgr := rfl
@[simp] theorem State.onDr_axes (s : State) (a : Nat) (f : DriveSt → DriveSt) : (s.onDr a f).axes = s.axes := rfl
@[simp] theorem State.onDr_drives (s : State) (a : Nat) (f : DriveSt → DriveSt) : (s.onDr a f).drives = s.drives.modify a f := rfl
@[simp] theorem State.onDr_ctxs (s : State) (a : Nat) (f : DriveSt → DriveSt) : (s.onDr a f).ctxs = s.ctxs := rfl
@[simp] theorem State.onDr_fbs (s : State) (a : Nat) (f : DriveSt → DriveSt) : (s.onDr a f).fbs = s.fbs := rfl
@[simp] theorem State.onDr_mots (s : State) (a : Nat) (f : DriveSt → DriveSt) : (s.onDr a f).mots = s.mots := rfl
@[simp] theorem State.onDr_cmps (s : State) (a : Nat) (f : DriveSt → DriveSt) : (s.onDr a f).cmps = s.cmps := rfl
@[simp] theorem State.onDr_latches (s : State) (a : Nat) (f : DriveSt → DriveSt) : (s.onDr a f).latches = s.latches := rfl
@[simp] theorem State.onDr_groups (s : State) (a : Nat) (f : DriveSt → DriveSt) : (s.onDr a f).groups = s.groups := rfl
@[simp] theorem State.onDr_legs (s : State) (a : Nat) (f : DriveSt → DriveSt) : (s.onDr a f).legs = s.legs := rfl
@[simp] theorem State.onDr_lanes (s : State) (a : Nat) (f : DriveSt → DriveSt) : (s.onDr a f).lanes = s.lanes := rfl
@[simp] theorem State.onDr_ropes (s : State) (a : Nat) (f : DriveSt → DriveSt) : (s.onDr a f).ropes = s.ropes := rfl
@[simp] theorem State.onDr_shares (s : State) (a : Nat) (f : DriveSt → DriveSt) : (s.onDr a f).shares = s.shares := rfl
@[simp] theorem State.onDr_rescue (s : State) (a : Nat) (f : DriveSt → DriveSt) : (s.onDr a f).rescue = s.rescue := rfl
@[simp] theorem State.onDr_chop (s : State) (a : Nat) (f : DriveSt → DriveSt) : (s.onDr a f).chop = s.chop := rfl
@[simp] theorem State.onDr_pdie (s : State) (a : Nat) (f : DriveSt → DriveSt) : (s.onDr a f).pdie = s.pdie := rfl
@[simp] theorem State.onDr_dma (s : State) (a : Nat) (f : DriveSt → DriveSt) : (s.onDr a f).dma = s.dma := rfl
@[simp] theorem State.onDr_dmaLast (s : State) (a : Nat) (f : DriveSt → DriveSt) : (s.onDr a f).dmaLast = s.dmaLast := rfl
@[simp] theorem State.onDr_dmaHalted (s : State) (a : Nat) (f : DriveSt → DriveSt) : (s.onDr a f).dmaHalted = s.dmaHalted := rfl
@[simp] theorem State.onDr_cans (s : State) (a : Nat) (f : DriveSt → DriveSt) : (s.onDr a f).cans = s.cans := rfl
@[simp] theorem State.onDr_dis (s : State) (a : Nat) (f : DriveSt → DriveSt) : (s.onDr a f).dis = s.dis := rfl
@[simp] theorem State.onDr_dos (s : State) (a : Nat) (f : DriveSt → DriveSt) : (s.onDr a f).dos = s.dos := rfl
@[simp] theorem State.onDr_field (s : State) (a : Nat) (f : DriveSt → DriveSt) : (s.onDr a f).field = s.field := rfl
@[simp] theorem State.onDr_sins (s : State) (a : Nat) (f : DriveSt → DriveSt) : (s.onDr a f).sins = s.sins := rfl
@[simp] theorem State.onDr_safety (s : State) (a : Nat) (f : DriveSt → DriveSt) : (s.onDr a f).safety = s.safety := rfl
@[simp] theorem State.onDr_trace (s : State) (a : Nat) (f : DriveSt → DriveSt) : (s.onDr a f).trace = s.trace := rfl
@[simp] theorem State.onDr_hk (s : State) (a : Nat) (f : DriveSt → DriveSt) : (s.onDr a f).hk = s.hk := rfl
@[simp] theorem State.onDr_log (s : State) (a : Nat) (f : DriveSt → DriveSt) : (s.onDr a f).log = s.log := rfl
@[simp] theorem State.onDr_chans (s : State) (a : Nat) (f : DriveSt → DriveSt) : (s.onDr a f).chans = s.chans := rfl
@[simp] theorem State.onDr_timers (s : State) (a : Nat) (f : DriveSt → DriveSt) : (s.onDr a f).timers = s.timers := rfl
@[simp] theorem State.onDr_sched (s : State) (a : Nat) (f : DriveSt → DriveSt) : (s.onDr a f).sched = s.sched := rfl
@[simp] theorem State.onDr_precheck (s : State) (a : Nat) (f : DriveSt → DriveSt) : (s.onDr a f).precheck = s.precheck := rfl
@[simp] theorem State.onDr_samples (s : State) (a : Nat) (f : DriveSt → DriveSt) : (s.onDr a f).samples = s.samples := rfl
@[simp] theorem State.onDr_reps (s : State) (a : Nat) (f : DriveSt → DriveSt) : (s.onDr a f).reps = s.reps := rfl
@[simp] theorem State.onDr_free (s : State) (a : Nat) (f : DriveSt → DriveSt) : (s.onDr a f).free = s.free := rfl
@[simp] theorem State.onDr_pending (s : State) (a : Nat) (f : DriveSt → DriveSt) : (s.onDr a f).pending = s.pending := rfl

/-! onCx. -/

@[simp] theorem State.onCx_regs (s : State) (c : Nat) (f : CtxSt → CtxSt) : (s.onCx c f).regs = s.regs := rfl
@[simp] theorem State.onCx_cfg (s : State) (c : Nat) (f : CtxSt → CtxSt) : (s.onCx c f).cfg = s.cfg := rfl
@[simp] theorem State.onCx_stg (s : State) (c : Nat) (f : CtxSt → CtxSt) : (s.onCx c f).stg = s.stg := rfl
@[simp] theorem State.onCx_mem (s : State) (c : Nat) (f : CtxSt → CtxSt) : (s.onCx c f).mem = s.mem := rfl
@[simp] theorem State.onCx_eccBad (s : State) (c : Nat) (f : CtxSt → CtxSt) : (s.onCx c f).eccBad = s.eccBad := rfl
@[simp] theorem State.onCx_power (s : State) (c : Nat) (f : CtxSt → CtxSt) : (s.onCx c f).power = s.power := rfl
@[simp] theorem State.onCx_time (s : State) (c : Nat) (f : CtxSt → CtxSt) : (s.onCx c f).time = s.time := rfl
@[simp] theorem State.onCx_stage (s : State) (c : Nat) (f : CtxSt → CtxSt) : (s.onCx c f).stage = s.stage := rfl
@[simp] theorem State.onCx_host (s : State) (c : Nat) (f : CtxSt → CtxSt) : (s.onCx c f).host = s.host := rfl
@[simp] theorem State.onCx_mgr (s : State) (c : Nat) (f : CtxSt → CtxSt) : (s.onCx c f).mgr = s.mgr := rfl
@[simp] theorem State.onCx_axes (s : State) (c : Nat) (f : CtxSt → CtxSt) : (s.onCx c f).axes = s.axes := rfl
@[simp] theorem State.onCx_drives (s : State) (c : Nat) (f : CtxSt → CtxSt) : (s.onCx c f).drives = s.drives := rfl
@[simp] theorem State.onCx_ctxs (s : State) (c : Nat) (f : CtxSt → CtxSt) : (s.onCx c f).ctxs = s.ctxs.modify c f := rfl
@[simp] theorem State.onCx_fbs (s : State) (c : Nat) (f : CtxSt → CtxSt) : (s.onCx c f).fbs = s.fbs := rfl
@[simp] theorem State.onCx_mots (s : State) (c : Nat) (f : CtxSt → CtxSt) : (s.onCx c f).mots = s.mots := rfl
@[simp] theorem State.onCx_cmps (s : State) (c : Nat) (f : CtxSt → CtxSt) : (s.onCx c f).cmps = s.cmps := rfl
@[simp] theorem State.onCx_latches (s : State) (c : Nat) (f : CtxSt → CtxSt) : (s.onCx c f).latches = s.latches := rfl
@[simp] theorem State.onCx_groups (s : State) (c : Nat) (f : CtxSt → CtxSt) : (s.onCx c f).groups = s.groups := rfl
@[simp] theorem State.onCx_legs (s : State) (c : Nat) (f : CtxSt → CtxSt) : (s.onCx c f).legs = s.legs := rfl
@[simp] theorem State.onCx_lanes (s : State) (c : Nat) (f : CtxSt → CtxSt) : (s.onCx c f).lanes = s.lanes := rfl
@[simp] theorem State.onCx_ropes (s : State) (c : Nat) (f : CtxSt → CtxSt) : (s.onCx c f).ropes = s.ropes := rfl
@[simp] theorem State.onCx_shares (s : State) (c : Nat) (f : CtxSt → CtxSt) : (s.onCx c f).shares = s.shares := rfl
@[simp] theorem State.onCx_rescue (s : State) (c : Nat) (f : CtxSt → CtxSt) : (s.onCx c f).rescue = s.rescue := rfl
@[simp] theorem State.onCx_chop (s : State) (c : Nat) (f : CtxSt → CtxSt) : (s.onCx c f).chop = s.chop := rfl
@[simp] theorem State.onCx_pdie (s : State) (c : Nat) (f : CtxSt → CtxSt) : (s.onCx c f).pdie = s.pdie := rfl
@[simp] theorem State.onCx_dma (s : State) (c : Nat) (f : CtxSt → CtxSt) : (s.onCx c f).dma = s.dma := rfl
@[simp] theorem State.onCx_dmaLast (s : State) (c : Nat) (f : CtxSt → CtxSt) : (s.onCx c f).dmaLast = s.dmaLast := rfl
@[simp] theorem State.onCx_dmaHalted (s : State) (c : Nat) (f : CtxSt → CtxSt) : (s.onCx c f).dmaHalted = s.dmaHalted := rfl
@[simp] theorem State.onCx_cans (s : State) (c : Nat) (f : CtxSt → CtxSt) : (s.onCx c f).cans = s.cans := rfl
@[simp] theorem State.onCx_dis (s : State) (c : Nat) (f : CtxSt → CtxSt) : (s.onCx c f).dis = s.dis := rfl
@[simp] theorem State.onCx_dos (s : State) (c : Nat) (f : CtxSt → CtxSt) : (s.onCx c f).dos = s.dos := rfl
@[simp] theorem State.onCx_field (s : State) (c : Nat) (f : CtxSt → CtxSt) : (s.onCx c f).field = s.field := rfl
@[simp] theorem State.onCx_sins (s : State) (c : Nat) (f : CtxSt → CtxSt) : (s.onCx c f).sins = s.sins := rfl
@[simp] theorem State.onCx_safety (s : State) (c : Nat) (f : CtxSt → CtxSt) : (s.onCx c f).safety = s.safety := rfl
@[simp] theorem State.onCx_trace (s : State) (c : Nat) (f : CtxSt → CtxSt) : (s.onCx c f).trace = s.trace := rfl
@[simp] theorem State.onCx_hk (s : State) (c : Nat) (f : CtxSt → CtxSt) : (s.onCx c f).hk = s.hk := rfl
@[simp] theorem State.onCx_log (s : State) (c : Nat) (f : CtxSt → CtxSt) : (s.onCx c f).log = s.log := rfl
@[simp] theorem State.onCx_chans (s : State) (c : Nat) (f : CtxSt → CtxSt) : (s.onCx c f).chans = s.chans := rfl
@[simp] theorem State.onCx_timers (s : State) (c : Nat) (f : CtxSt → CtxSt) : (s.onCx c f).timers = s.timers := rfl
@[simp] theorem State.onCx_sched (s : State) (c : Nat) (f : CtxSt → CtxSt) : (s.onCx c f).sched = s.sched := rfl
@[simp] theorem State.onCx_precheck (s : State) (c : Nat) (f : CtxSt → CtxSt) : (s.onCx c f).precheck = s.precheck := rfl
@[simp] theorem State.onCx_samples (s : State) (c : Nat) (f : CtxSt → CtxSt) : (s.onCx c f).samples = s.samples := rfl
@[simp] theorem State.onCx_reps (s : State) (c : Nat) (f : CtxSt → CtxSt) : (s.onCx c f).reps = s.reps := rfl
@[simp] theorem State.onCx_free (s : State) (c : Nat) (f : CtxSt → CtxSt) : (s.onCx c f).free = s.free := rfl
@[simp] theorem State.onCx_pending (s : State) (c : Nat) (f : CtxSt → CtxSt) : (s.onCx c f).pending = s.pending := rfl

/-! onFb. -/

@[simp] theorem State.onFb_regs (s : State) (n : Nat) (f : FbSt → FbSt) : (s.onFb n f).regs = s.regs := rfl
@[simp] theorem State.onFb_cfg (s : State) (n : Nat) (f : FbSt → FbSt) : (s.onFb n f).cfg = s.cfg := rfl
@[simp] theorem State.onFb_stg (s : State) (n : Nat) (f : FbSt → FbSt) : (s.onFb n f).stg = s.stg := rfl
@[simp] theorem State.onFb_mem (s : State) (n : Nat) (f : FbSt → FbSt) : (s.onFb n f).mem = s.mem := rfl
@[simp] theorem State.onFb_eccBad (s : State) (n : Nat) (f : FbSt → FbSt) : (s.onFb n f).eccBad = s.eccBad := rfl
@[simp] theorem State.onFb_power (s : State) (n : Nat) (f : FbSt → FbSt) : (s.onFb n f).power = s.power := rfl
@[simp] theorem State.onFb_time (s : State) (n : Nat) (f : FbSt → FbSt) : (s.onFb n f).time = s.time := rfl
@[simp] theorem State.onFb_stage (s : State) (n : Nat) (f : FbSt → FbSt) : (s.onFb n f).stage = s.stage := rfl
@[simp] theorem State.onFb_host (s : State) (n : Nat) (f : FbSt → FbSt) : (s.onFb n f).host = s.host := rfl
@[simp] theorem State.onFb_mgr (s : State) (n : Nat) (f : FbSt → FbSt) : (s.onFb n f).mgr = s.mgr := rfl
@[simp] theorem State.onFb_axes (s : State) (n : Nat) (f : FbSt → FbSt) : (s.onFb n f).axes = s.axes := rfl
@[simp] theorem State.onFb_drives (s : State) (n : Nat) (f : FbSt → FbSt) : (s.onFb n f).drives = s.drives := rfl
@[simp] theorem State.onFb_ctxs (s : State) (n : Nat) (f : FbSt → FbSt) : (s.onFb n f).ctxs = s.ctxs := rfl
@[simp] theorem State.onFb_fbs (s : State) (n : Nat) (f : FbSt → FbSt) : (s.onFb n f).fbs = s.fbs.modify n f := rfl
@[simp] theorem State.onFb_mots (s : State) (n : Nat) (f : FbSt → FbSt) : (s.onFb n f).mots = s.mots := rfl
@[simp] theorem State.onFb_cmps (s : State) (n : Nat) (f : FbSt → FbSt) : (s.onFb n f).cmps = s.cmps := rfl
@[simp] theorem State.onFb_latches (s : State) (n : Nat) (f : FbSt → FbSt) : (s.onFb n f).latches = s.latches := rfl
@[simp] theorem State.onFb_groups (s : State) (n : Nat) (f : FbSt → FbSt) : (s.onFb n f).groups = s.groups := rfl
@[simp] theorem State.onFb_legs (s : State) (n : Nat) (f : FbSt → FbSt) : (s.onFb n f).legs = s.legs := rfl
@[simp] theorem State.onFb_lanes (s : State) (n : Nat) (f : FbSt → FbSt) : (s.onFb n f).lanes = s.lanes := rfl
@[simp] theorem State.onFb_ropes (s : State) (n : Nat) (f : FbSt → FbSt) : (s.onFb n f).ropes = s.ropes := rfl
@[simp] theorem State.onFb_shares (s : State) (n : Nat) (f : FbSt → FbSt) : (s.onFb n f).shares = s.shares := rfl
@[simp] theorem State.onFb_rescue (s : State) (n : Nat) (f : FbSt → FbSt) : (s.onFb n f).rescue = s.rescue := rfl
@[simp] theorem State.onFb_chop (s : State) (n : Nat) (f : FbSt → FbSt) : (s.onFb n f).chop = s.chop := rfl
@[simp] theorem State.onFb_pdie (s : State) (n : Nat) (f : FbSt → FbSt) : (s.onFb n f).pdie = s.pdie := rfl
@[simp] theorem State.onFb_dma (s : State) (n : Nat) (f : FbSt → FbSt) : (s.onFb n f).dma = s.dma := rfl
@[simp] theorem State.onFb_dmaLast (s : State) (n : Nat) (f : FbSt → FbSt) : (s.onFb n f).dmaLast = s.dmaLast := rfl
@[simp] theorem State.onFb_dmaHalted (s : State) (n : Nat) (f : FbSt → FbSt) : (s.onFb n f).dmaHalted = s.dmaHalted := rfl
@[simp] theorem State.onFb_cans (s : State) (n : Nat) (f : FbSt → FbSt) : (s.onFb n f).cans = s.cans := rfl
@[simp] theorem State.onFb_dis (s : State) (n : Nat) (f : FbSt → FbSt) : (s.onFb n f).dis = s.dis := rfl
@[simp] theorem State.onFb_dos (s : State) (n : Nat) (f : FbSt → FbSt) : (s.onFb n f).dos = s.dos := rfl
@[simp] theorem State.onFb_field (s : State) (n : Nat) (f : FbSt → FbSt) : (s.onFb n f).field = s.field := rfl
@[simp] theorem State.onFb_sins (s : State) (n : Nat) (f : FbSt → FbSt) : (s.onFb n f).sins = s.sins := rfl
@[simp] theorem State.onFb_safety (s : State) (n : Nat) (f : FbSt → FbSt) : (s.onFb n f).safety = s.safety := rfl
@[simp] theorem State.onFb_trace (s : State) (n : Nat) (f : FbSt → FbSt) : (s.onFb n f).trace = s.trace := rfl
@[simp] theorem State.onFb_hk (s : State) (n : Nat) (f : FbSt → FbSt) : (s.onFb n f).hk = s.hk := rfl
@[simp] theorem State.onFb_log (s : State) (n : Nat) (f : FbSt → FbSt) : (s.onFb n f).log = s.log := rfl
@[simp] theorem State.onFb_chans (s : State) (n : Nat) (f : FbSt → FbSt) : (s.onFb n f).chans = s.chans := rfl
@[simp] theorem State.onFb_timers (s : State) (n : Nat) (f : FbSt → FbSt) : (s.onFb n f).timers = s.timers := rfl
@[simp] theorem State.onFb_sched (s : State) (n : Nat) (f : FbSt → FbSt) : (s.onFb n f).sched = s.sched := rfl
@[simp] theorem State.onFb_precheck (s : State) (n : Nat) (f : FbSt → FbSt) : (s.onFb n f).precheck = s.precheck := rfl
@[simp] theorem State.onFb_samples (s : State) (n : Nat) (f : FbSt → FbSt) : (s.onFb n f).samples = s.samples := rfl
@[simp] theorem State.onFb_reps (s : State) (n : Nat) (f : FbSt → FbSt) : (s.onFb n f).reps = s.reps := rfl
@[simp] theorem State.onFb_free (s : State) (n : Nat) (f : FbSt → FbSt) : (s.onFb n f).free = s.free := rfl
@[simp] theorem State.onFb_pending (s : State) (n : Nat) (f : FbSt → FbSt) : (s.onFb n f).pending = s.pending := rfl

/-! onMt. -/

@[simp] theorem State.onMt_regs (s : State) (a : Nat) (f : MotSt → MotSt) : (s.onMt a f).regs = s.regs := rfl
@[simp] theorem State.onMt_cfg (s : State) (a : Nat) (f : MotSt → MotSt) : (s.onMt a f).cfg = s.cfg := rfl
@[simp] theorem State.onMt_stg (s : State) (a : Nat) (f : MotSt → MotSt) : (s.onMt a f).stg = s.stg := rfl
@[simp] theorem State.onMt_mem (s : State) (a : Nat) (f : MotSt → MotSt) : (s.onMt a f).mem = s.mem := rfl
@[simp] theorem State.onMt_eccBad (s : State) (a : Nat) (f : MotSt → MotSt) : (s.onMt a f).eccBad = s.eccBad := rfl
@[simp] theorem State.onMt_power (s : State) (a : Nat) (f : MotSt → MotSt) : (s.onMt a f).power = s.power := rfl
@[simp] theorem State.onMt_time (s : State) (a : Nat) (f : MotSt → MotSt) : (s.onMt a f).time = s.time := rfl
@[simp] theorem State.onMt_stage (s : State) (a : Nat) (f : MotSt → MotSt) : (s.onMt a f).stage = s.stage := rfl
@[simp] theorem State.onMt_host (s : State) (a : Nat) (f : MotSt → MotSt) : (s.onMt a f).host = s.host := rfl
@[simp] theorem State.onMt_mgr (s : State) (a : Nat) (f : MotSt → MotSt) : (s.onMt a f).mgr = s.mgr := rfl
@[simp] theorem State.onMt_axes (s : State) (a : Nat) (f : MotSt → MotSt) : (s.onMt a f).axes = s.axes := rfl
@[simp] theorem State.onMt_drives (s : State) (a : Nat) (f : MotSt → MotSt) : (s.onMt a f).drives = s.drives := rfl
@[simp] theorem State.onMt_ctxs (s : State) (a : Nat) (f : MotSt → MotSt) : (s.onMt a f).ctxs = s.ctxs := rfl
@[simp] theorem State.onMt_fbs (s : State) (a : Nat) (f : MotSt → MotSt) : (s.onMt a f).fbs = s.fbs := rfl
@[simp] theorem State.onMt_mots (s : State) (a : Nat) (f : MotSt → MotSt) : (s.onMt a f).mots = s.mots.modify a f := rfl
@[simp] theorem State.onMt_cmps (s : State) (a : Nat) (f : MotSt → MotSt) : (s.onMt a f).cmps = s.cmps := rfl
@[simp] theorem State.onMt_latches (s : State) (a : Nat) (f : MotSt → MotSt) : (s.onMt a f).latches = s.latches := rfl
@[simp] theorem State.onMt_groups (s : State) (a : Nat) (f : MotSt → MotSt) : (s.onMt a f).groups = s.groups := rfl
@[simp] theorem State.onMt_legs (s : State) (a : Nat) (f : MotSt → MotSt) : (s.onMt a f).legs = s.legs := rfl
@[simp] theorem State.onMt_lanes (s : State) (a : Nat) (f : MotSt → MotSt) : (s.onMt a f).lanes = s.lanes := rfl
@[simp] theorem State.onMt_ropes (s : State) (a : Nat) (f : MotSt → MotSt) : (s.onMt a f).ropes = s.ropes := rfl
@[simp] theorem State.onMt_shares (s : State) (a : Nat) (f : MotSt → MotSt) : (s.onMt a f).shares = s.shares := rfl
@[simp] theorem State.onMt_rescue (s : State) (a : Nat) (f : MotSt → MotSt) : (s.onMt a f).rescue = s.rescue := rfl
@[simp] theorem State.onMt_chop (s : State) (a : Nat) (f : MotSt → MotSt) : (s.onMt a f).chop = s.chop := rfl
@[simp] theorem State.onMt_pdie (s : State) (a : Nat) (f : MotSt → MotSt) : (s.onMt a f).pdie = s.pdie := rfl
@[simp] theorem State.onMt_dma (s : State) (a : Nat) (f : MotSt → MotSt) : (s.onMt a f).dma = s.dma := rfl
@[simp] theorem State.onMt_dmaLast (s : State) (a : Nat) (f : MotSt → MotSt) : (s.onMt a f).dmaLast = s.dmaLast := rfl
@[simp] theorem State.onMt_dmaHalted (s : State) (a : Nat) (f : MotSt → MotSt) : (s.onMt a f).dmaHalted = s.dmaHalted := rfl
@[simp] theorem State.onMt_cans (s : State) (a : Nat) (f : MotSt → MotSt) : (s.onMt a f).cans = s.cans := rfl
@[simp] theorem State.onMt_dis (s : State) (a : Nat) (f : MotSt → MotSt) : (s.onMt a f).dis = s.dis := rfl
@[simp] theorem State.onMt_dos (s : State) (a : Nat) (f : MotSt → MotSt) : (s.onMt a f).dos = s.dos := rfl
@[simp] theorem State.onMt_field (s : State) (a : Nat) (f : MotSt → MotSt) : (s.onMt a f).field = s.field := rfl
@[simp] theorem State.onMt_sins (s : State) (a : Nat) (f : MotSt → MotSt) : (s.onMt a f).sins = s.sins := rfl
@[simp] theorem State.onMt_safety (s : State) (a : Nat) (f : MotSt → MotSt) : (s.onMt a f).safety = s.safety := rfl
@[simp] theorem State.onMt_trace (s : State) (a : Nat) (f : MotSt → MotSt) : (s.onMt a f).trace = s.trace := rfl
@[simp] theorem State.onMt_hk (s : State) (a : Nat) (f : MotSt → MotSt) : (s.onMt a f).hk = s.hk := rfl
@[simp] theorem State.onMt_log (s : State) (a : Nat) (f : MotSt → MotSt) : (s.onMt a f).log = s.log := rfl
@[simp] theorem State.onMt_chans (s : State) (a : Nat) (f : MotSt → MotSt) : (s.onMt a f).chans = s.chans := rfl
@[simp] theorem State.onMt_timers (s : State) (a : Nat) (f : MotSt → MotSt) : (s.onMt a f).timers = s.timers := rfl
@[simp] theorem State.onMt_sched (s : State) (a : Nat) (f : MotSt → MotSt) : (s.onMt a f).sched = s.sched := rfl
@[simp] theorem State.onMt_precheck (s : State) (a : Nat) (f : MotSt → MotSt) : (s.onMt a f).precheck = s.precheck := rfl
@[simp] theorem State.onMt_samples (s : State) (a : Nat) (f : MotSt → MotSt) : (s.onMt a f).samples = s.samples := rfl
@[simp] theorem State.onMt_reps (s : State) (a : Nat) (f : MotSt → MotSt) : (s.onMt a f).reps = s.reps := rfl
@[simp] theorem State.onMt_free (s : State) (a : Nat) (f : MotSt → MotSt) : (s.onMt a f).free = s.free := rfl
@[simp] theorem State.onMt_pending (s : State) (a : Nat) (f : MotSt → MotSt) : (s.onMt a f).pending = s.pending := rfl

/-! onCm. -/

@[simp] theorem State.onCm_regs (s : State) (i : Nat) (f : CmpSt → CmpSt) : (s.onCm i f).regs = s.regs := rfl
@[simp] theorem State.onCm_cfg (s : State) (i : Nat) (f : CmpSt → CmpSt) : (s.onCm i f).cfg = s.cfg := rfl
@[simp] theorem State.onCm_stg (s : State) (i : Nat) (f : CmpSt → CmpSt) : (s.onCm i f).stg = s.stg := rfl
@[simp] theorem State.onCm_mem (s : State) (i : Nat) (f : CmpSt → CmpSt) : (s.onCm i f).mem = s.mem := rfl
@[simp] theorem State.onCm_eccBad (s : State) (i : Nat) (f : CmpSt → CmpSt) : (s.onCm i f).eccBad = s.eccBad := rfl
@[simp] theorem State.onCm_power (s : State) (i : Nat) (f : CmpSt → CmpSt) : (s.onCm i f).power = s.power := rfl
@[simp] theorem State.onCm_time (s : State) (i : Nat) (f : CmpSt → CmpSt) : (s.onCm i f).time = s.time := rfl
@[simp] theorem State.onCm_stage (s : State) (i : Nat) (f : CmpSt → CmpSt) : (s.onCm i f).stage = s.stage := rfl
@[simp] theorem State.onCm_host (s : State) (i : Nat) (f : CmpSt → CmpSt) : (s.onCm i f).host = s.host := rfl
@[simp] theorem State.onCm_mgr (s : State) (i : Nat) (f : CmpSt → CmpSt) : (s.onCm i f).mgr = s.mgr := rfl
@[simp] theorem State.onCm_axes (s : State) (i : Nat) (f : CmpSt → CmpSt) : (s.onCm i f).axes = s.axes := rfl
@[simp] theorem State.onCm_drives (s : State) (i : Nat) (f : CmpSt → CmpSt) : (s.onCm i f).drives = s.drives := rfl
@[simp] theorem State.onCm_ctxs (s : State) (i : Nat) (f : CmpSt → CmpSt) : (s.onCm i f).ctxs = s.ctxs := rfl
@[simp] theorem State.onCm_fbs (s : State) (i : Nat) (f : CmpSt → CmpSt) : (s.onCm i f).fbs = s.fbs := rfl
@[simp] theorem State.onCm_mots (s : State) (i : Nat) (f : CmpSt → CmpSt) : (s.onCm i f).mots = s.mots := rfl
@[simp] theorem State.onCm_cmps (s : State) (i : Nat) (f : CmpSt → CmpSt) : (s.onCm i f).cmps = s.cmps.modify i f := rfl
@[simp] theorem State.onCm_latches (s : State) (i : Nat) (f : CmpSt → CmpSt) : (s.onCm i f).latches = s.latches := rfl
@[simp] theorem State.onCm_groups (s : State) (i : Nat) (f : CmpSt → CmpSt) : (s.onCm i f).groups = s.groups := rfl
@[simp] theorem State.onCm_legs (s : State) (i : Nat) (f : CmpSt → CmpSt) : (s.onCm i f).legs = s.legs := rfl
@[simp] theorem State.onCm_lanes (s : State) (i : Nat) (f : CmpSt → CmpSt) : (s.onCm i f).lanes = s.lanes := rfl
@[simp] theorem State.onCm_ropes (s : State) (i : Nat) (f : CmpSt → CmpSt) : (s.onCm i f).ropes = s.ropes := rfl
@[simp] theorem State.onCm_shares (s : State) (i : Nat) (f : CmpSt → CmpSt) : (s.onCm i f).shares = s.shares := rfl
@[simp] theorem State.onCm_rescue (s : State) (i : Nat) (f : CmpSt → CmpSt) : (s.onCm i f).rescue = s.rescue := rfl
@[simp] theorem State.onCm_chop (s : State) (i : Nat) (f : CmpSt → CmpSt) : (s.onCm i f).chop = s.chop := rfl
@[simp] theorem State.onCm_pdie (s : State) (i : Nat) (f : CmpSt → CmpSt) : (s.onCm i f).pdie = s.pdie := rfl
@[simp] theorem State.onCm_dma (s : State) (i : Nat) (f : CmpSt → CmpSt) : (s.onCm i f).dma = s.dma := rfl
@[simp] theorem State.onCm_dmaLast (s : State) (i : Nat) (f : CmpSt → CmpSt) : (s.onCm i f).dmaLast = s.dmaLast := rfl
@[simp] theorem State.onCm_dmaHalted (s : State) (i : Nat) (f : CmpSt → CmpSt) : (s.onCm i f).dmaHalted = s.dmaHalted := rfl
@[simp] theorem State.onCm_cans (s : State) (i : Nat) (f : CmpSt → CmpSt) : (s.onCm i f).cans = s.cans := rfl
@[simp] theorem State.onCm_dis (s : State) (i : Nat) (f : CmpSt → CmpSt) : (s.onCm i f).dis = s.dis := rfl
@[simp] theorem State.onCm_dos (s : State) (i : Nat) (f : CmpSt → CmpSt) : (s.onCm i f).dos = s.dos := rfl
@[simp] theorem State.onCm_field (s : State) (i : Nat) (f : CmpSt → CmpSt) : (s.onCm i f).field = s.field := rfl
@[simp] theorem State.onCm_sins (s : State) (i : Nat) (f : CmpSt → CmpSt) : (s.onCm i f).sins = s.sins := rfl
@[simp] theorem State.onCm_safety (s : State) (i : Nat) (f : CmpSt → CmpSt) : (s.onCm i f).safety = s.safety := rfl
@[simp] theorem State.onCm_trace (s : State) (i : Nat) (f : CmpSt → CmpSt) : (s.onCm i f).trace = s.trace := rfl
@[simp] theorem State.onCm_hk (s : State) (i : Nat) (f : CmpSt → CmpSt) : (s.onCm i f).hk = s.hk := rfl
@[simp] theorem State.onCm_log (s : State) (i : Nat) (f : CmpSt → CmpSt) : (s.onCm i f).log = s.log := rfl
@[simp] theorem State.onCm_chans (s : State) (i : Nat) (f : CmpSt → CmpSt) : (s.onCm i f).chans = s.chans := rfl
@[simp] theorem State.onCm_timers (s : State) (i : Nat) (f : CmpSt → CmpSt) : (s.onCm i f).timers = s.timers := rfl
@[simp] theorem State.onCm_sched (s : State) (i : Nat) (f : CmpSt → CmpSt) : (s.onCm i f).sched = s.sched := rfl
@[simp] theorem State.onCm_precheck (s : State) (i : Nat) (f : CmpSt → CmpSt) : (s.onCm i f).precheck = s.precheck := rfl
@[simp] theorem State.onCm_samples (s : State) (i : Nat) (f : CmpSt → CmpSt) : (s.onCm i f).samples = s.samples := rfl
@[simp] theorem State.onCm_reps (s : State) (i : Nat) (f : CmpSt → CmpSt) : (s.onCm i f).reps = s.reps := rfl
@[simp] theorem State.onCm_free (s : State) (i : Nat) (f : CmpSt → CmpSt) : (s.onCm i f).free = s.free := rfl
@[simp] theorem State.onCm_pending (s : State) (i : Nat) (f : CmpSt → CmpSt) : (s.onCm i f).pending = s.pending := rfl

/-! onLa. -/

@[simp] theorem State.onLa_regs (s : State) (i : Nat) (f : LatchSt → LatchSt) : (s.onLa i f).regs = s.regs := rfl
@[simp] theorem State.onLa_cfg (s : State) (i : Nat) (f : LatchSt → LatchSt) : (s.onLa i f).cfg = s.cfg := rfl
@[simp] theorem State.onLa_stg (s : State) (i : Nat) (f : LatchSt → LatchSt) : (s.onLa i f).stg = s.stg := rfl
@[simp] theorem State.onLa_mem (s : State) (i : Nat) (f : LatchSt → LatchSt) : (s.onLa i f).mem = s.mem := rfl
@[simp] theorem State.onLa_eccBad (s : State) (i : Nat) (f : LatchSt → LatchSt) : (s.onLa i f).eccBad = s.eccBad := rfl
@[simp] theorem State.onLa_power (s : State) (i : Nat) (f : LatchSt → LatchSt) : (s.onLa i f).power = s.power := rfl
@[simp] theorem State.onLa_time (s : State) (i : Nat) (f : LatchSt → LatchSt) : (s.onLa i f).time = s.time := rfl
@[simp] theorem State.onLa_stage (s : State) (i : Nat) (f : LatchSt → LatchSt) : (s.onLa i f).stage = s.stage := rfl
@[simp] theorem State.onLa_host (s : State) (i : Nat) (f : LatchSt → LatchSt) : (s.onLa i f).host = s.host := rfl
@[simp] theorem State.onLa_mgr (s : State) (i : Nat) (f : LatchSt → LatchSt) : (s.onLa i f).mgr = s.mgr := rfl
@[simp] theorem State.onLa_axes (s : State) (i : Nat) (f : LatchSt → LatchSt) : (s.onLa i f).axes = s.axes := rfl
@[simp] theorem State.onLa_drives (s : State) (i : Nat) (f : LatchSt → LatchSt) : (s.onLa i f).drives = s.drives := rfl
@[simp] theorem State.onLa_ctxs (s : State) (i : Nat) (f : LatchSt → LatchSt) : (s.onLa i f).ctxs = s.ctxs := rfl
@[simp] theorem State.onLa_fbs (s : State) (i : Nat) (f : LatchSt → LatchSt) : (s.onLa i f).fbs = s.fbs := rfl
@[simp] theorem State.onLa_mots (s : State) (i : Nat) (f : LatchSt → LatchSt) : (s.onLa i f).mots = s.mots := rfl
@[simp] theorem State.onLa_cmps (s : State) (i : Nat) (f : LatchSt → LatchSt) : (s.onLa i f).cmps = s.cmps := rfl
@[simp] theorem State.onLa_latches (s : State) (i : Nat) (f : LatchSt → LatchSt) : (s.onLa i f).latches = s.latches.modify i f := rfl
@[simp] theorem State.onLa_groups (s : State) (i : Nat) (f : LatchSt → LatchSt) : (s.onLa i f).groups = s.groups := rfl
@[simp] theorem State.onLa_legs (s : State) (i : Nat) (f : LatchSt → LatchSt) : (s.onLa i f).legs = s.legs := rfl
@[simp] theorem State.onLa_lanes (s : State) (i : Nat) (f : LatchSt → LatchSt) : (s.onLa i f).lanes = s.lanes := rfl
@[simp] theorem State.onLa_ropes (s : State) (i : Nat) (f : LatchSt → LatchSt) : (s.onLa i f).ropes = s.ropes := rfl
@[simp] theorem State.onLa_shares (s : State) (i : Nat) (f : LatchSt → LatchSt) : (s.onLa i f).shares = s.shares := rfl
@[simp] theorem State.onLa_rescue (s : State) (i : Nat) (f : LatchSt → LatchSt) : (s.onLa i f).rescue = s.rescue := rfl
@[simp] theorem State.onLa_chop (s : State) (i : Nat) (f : LatchSt → LatchSt) : (s.onLa i f).chop = s.chop := rfl
@[simp] theorem State.onLa_pdie (s : State) (i : Nat) (f : LatchSt → LatchSt) : (s.onLa i f).pdie = s.pdie := rfl
@[simp] theorem State.onLa_dma (s : State) (i : Nat) (f : LatchSt → LatchSt) : (s.onLa i f).dma = s.dma := rfl
@[simp] theorem State.onLa_dmaLast (s : State) (i : Nat) (f : LatchSt → LatchSt) : (s.onLa i f).dmaLast = s.dmaLast := rfl
@[simp] theorem State.onLa_dmaHalted (s : State) (i : Nat) (f : LatchSt → LatchSt) : (s.onLa i f).dmaHalted = s.dmaHalted := rfl
@[simp] theorem State.onLa_cans (s : State) (i : Nat) (f : LatchSt → LatchSt) : (s.onLa i f).cans = s.cans := rfl
@[simp] theorem State.onLa_dis (s : State) (i : Nat) (f : LatchSt → LatchSt) : (s.onLa i f).dis = s.dis := rfl
@[simp] theorem State.onLa_dos (s : State) (i : Nat) (f : LatchSt → LatchSt) : (s.onLa i f).dos = s.dos := rfl
@[simp] theorem State.onLa_field (s : State) (i : Nat) (f : LatchSt → LatchSt) : (s.onLa i f).field = s.field := rfl
@[simp] theorem State.onLa_sins (s : State) (i : Nat) (f : LatchSt → LatchSt) : (s.onLa i f).sins = s.sins := rfl
@[simp] theorem State.onLa_safety (s : State) (i : Nat) (f : LatchSt → LatchSt) : (s.onLa i f).safety = s.safety := rfl
@[simp] theorem State.onLa_trace (s : State) (i : Nat) (f : LatchSt → LatchSt) : (s.onLa i f).trace = s.trace := rfl
@[simp] theorem State.onLa_hk (s : State) (i : Nat) (f : LatchSt → LatchSt) : (s.onLa i f).hk = s.hk := rfl
@[simp] theorem State.onLa_log (s : State) (i : Nat) (f : LatchSt → LatchSt) : (s.onLa i f).log = s.log := rfl
@[simp] theorem State.onLa_chans (s : State) (i : Nat) (f : LatchSt → LatchSt) : (s.onLa i f).chans = s.chans := rfl
@[simp] theorem State.onLa_timers (s : State) (i : Nat) (f : LatchSt → LatchSt) : (s.onLa i f).timers = s.timers := rfl
@[simp] theorem State.onLa_sched (s : State) (i : Nat) (f : LatchSt → LatchSt) : (s.onLa i f).sched = s.sched := rfl
@[simp] theorem State.onLa_precheck (s : State) (i : Nat) (f : LatchSt → LatchSt) : (s.onLa i f).precheck = s.precheck := rfl
@[simp] theorem State.onLa_samples (s : State) (i : Nat) (f : LatchSt → LatchSt) : (s.onLa i f).samples = s.samples := rfl
@[simp] theorem State.onLa_reps (s : State) (i : Nat) (f : LatchSt → LatchSt) : (s.onLa i f).reps = s.reps := rfl
@[simp] theorem State.onLa_free (s : State) (i : Nat) (f : LatchSt → LatchSt) : (s.onLa i f).free = s.free := rfl
@[simp] theorem State.onLa_pending (s : State) (i : Nat) (f : LatchSt → LatchSt) : (s.onLa i f).pending = s.pending := rfl

/-! onGr. -/

@[simp] theorem State.onGr_regs (s : State) (g : Nat) (f : GroupSt → GroupSt) : (s.onGr g f).regs = s.regs := rfl
@[simp] theorem State.onGr_cfg (s : State) (g : Nat) (f : GroupSt → GroupSt) : (s.onGr g f).cfg = s.cfg := rfl
@[simp] theorem State.onGr_stg (s : State) (g : Nat) (f : GroupSt → GroupSt) : (s.onGr g f).stg = s.stg := rfl
@[simp] theorem State.onGr_mem (s : State) (g : Nat) (f : GroupSt → GroupSt) : (s.onGr g f).mem = s.mem := rfl
@[simp] theorem State.onGr_eccBad (s : State) (g : Nat) (f : GroupSt → GroupSt) : (s.onGr g f).eccBad = s.eccBad := rfl
@[simp] theorem State.onGr_power (s : State) (g : Nat) (f : GroupSt → GroupSt) : (s.onGr g f).power = s.power := rfl
@[simp] theorem State.onGr_time (s : State) (g : Nat) (f : GroupSt → GroupSt) : (s.onGr g f).time = s.time := rfl
@[simp] theorem State.onGr_stage (s : State) (g : Nat) (f : GroupSt → GroupSt) : (s.onGr g f).stage = s.stage := rfl
@[simp] theorem State.onGr_host (s : State) (g : Nat) (f : GroupSt → GroupSt) : (s.onGr g f).host = s.host := rfl
@[simp] theorem State.onGr_mgr (s : State) (g : Nat) (f : GroupSt → GroupSt) : (s.onGr g f).mgr = s.mgr := rfl
@[simp] theorem State.onGr_axes (s : State) (g : Nat) (f : GroupSt → GroupSt) : (s.onGr g f).axes = s.axes := rfl
@[simp] theorem State.onGr_drives (s : State) (g : Nat) (f : GroupSt → GroupSt) : (s.onGr g f).drives = s.drives := rfl
@[simp] theorem State.onGr_ctxs (s : State) (g : Nat) (f : GroupSt → GroupSt) : (s.onGr g f).ctxs = s.ctxs := rfl
@[simp] theorem State.onGr_fbs (s : State) (g : Nat) (f : GroupSt → GroupSt) : (s.onGr g f).fbs = s.fbs := rfl
@[simp] theorem State.onGr_mots (s : State) (g : Nat) (f : GroupSt → GroupSt) : (s.onGr g f).mots = s.mots := rfl
@[simp] theorem State.onGr_cmps (s : State) (g : Nat) (f : GroupSt → GroupSt) : (s.onGr g f).cmps = s.cmps := rfl
@[simp] theorem State.onGr_latches (s : State) (g : Nat) (f : GroupSt → GroupSt) : (s.onGr g f).latches = s.latches := rfl
@[simp] theorem State.onGr_groups (s : State) (g : Nat) (f : GroupSt → GroupSt) : (s.onGr g f).groups = s.groups.modify g f := rfl
@[simp] theorem State.onGr_legs (s : State) (g : Nat) (f : GroupSt → GroupSt) : (s.onGr g f).legs = s.legs := rfl
@[simp] theorem State.onGr_lanes (s : State) (g : Nat) (f : GroupSt → GroupSt) : (s.onGr g f).lanes = s.lanes := rfl
@[simp] theorem State.onGr_ropes (s : State) (g : Nat) (f : GroupSt → GroupSt) : (s.onGr g f).ropes = s.ropes := rfl
@[simp] theorem State.onGr_shares (s : State) (g : Nat) (f : GroupSt → GroupSt) : (s.onGr g f).shares = s.shares := rfl
@[simp] theorem State.onGr_rescue (s : State) (g : Nat) (f : GroupSt → GroupSt) : (s.onGr g f).rescue = s.rescue := rfl
@[simp] theorem State.onGr_chop (s : State) (g : Nat) (f : GroupSt → GroupSt) : (s.onGr g f).chop = s.chop := rfl
@[simp] theorem State.onGr_pdie (s : State) (g : Nat) (f : GroupSt → GroupSt) : (s.onGr g f).pdie = s.pdie := rfl
@[simp] theorem State.onGr_dma (s : State) (g : Nat) (f : GroupSt → GroupSt) : (s.onGr g f).dma = s.dma := rfl
@[simp] theorem State.onGr_dmaLast (s : State) (g : Nat) (f : GroupSt → GroupSt) : (s.onGr g f).dmaLast = s.dmaLast := rfl
@[simp] theorem State.onGr_dmaHalted (s : State) (g : Nat) (f : GroupSt → GroupSt) : (s.onGr g f).dmaHalted = s.dmaHalted := rfl
@[simp] theorem State.onGr_cans (s : State) (g : Nat) (f : GroupSt → GroupSt) : (s.onGr g f).cans = s.cans := rfl
@[simp] theorem State.onGr_dis (s : State) (g : Nat) (f : GroupSt → GroupSt) : (s.onGr g f).dis = s.dis := rfl
@[simp] theorem State.onGr_dos (s : State) (g : Nat) (f : GroupSt → GroupSt) : (s.onGr g f).dos = s.dos := rfl
@[simp] theorem State.onGr_field (s : State) (g : Nat) (f : GroupSt → GroupSt) : (s.onGr g f).field = s.field := rfl
@[simp] theorem State.onGr_sins (s : State) (g : Nat) (f : GroupSt → GroupSt) : (s.onGr g f).sins = s.sins := rfl
@[simp] theorem State.onGr_safety (s : State) (g : Nat) (f : GroupSt → GroupSt) : (s.onGr g f).safety = s.safety := rfl
@[simp] theorem State.onGr_trace (s : State) (g : Nat) (f : GroupSt → GroupSt) : (s.onGr g f).trace = s.trace := rfl
@[simp] theorem State.onGr_hk (s : State) (g : Nat) (f : GroupSt → GroupSt) : (s.onGr g f).hk = s.hk := rfl
@[simp] theorem State.onGr_log (s : State) (g : Nat) (f : GroupSt → GroupSt) : (s.onGr g f).log = s.log := rfl
@[simp] theorem State.onGr_chans (s : State) (g : Nat) (f : GroupSt → GroupSt) : (s.onGr g f).chans = s.chans := rfl
@[simp] theorem State.onGr_timers (s : State) (g : Nat) (f : GroupSt → GroupSt) : (s.onGr g f).timers = s.timers := rfl
@[simp] theorem State.onGr_sched (s : State) (g : Nat) (f : GroupSt → GroupSt) : (s.onGr g f).sched = s.sched := rfl
@[simp] theorem State.onGr_precheck (s : State) (g : Nat) (f : GroupSt → GroupSt) : (s.onGr g f).precheck = s.precheck := rfl
@[simp] theorem State.onGr_samples (s : State) (g : Nat) (f : GroupSt → GroupSt) : (s.onGr g f).samples = s.samples := rfl
@[simp] theorem State.onGr_reps (s : State) (g : Nat) (f : GroupSt → GroupSt) : (s.onGr g f).reps = s.reps := rfl
@[simp] theorem State.onGr_free (s : State) (g : Nat) (f : GroupSt → GroupSt) : (s.onGr g f).free = s.free := rfl
@[simp] theorem State.onGr_pending (s : State) (g : Nat) (f : GroupSt → GroupSt) : (s.onGr g f).pending = s.pending := rfl

/-! onLg. -/

@[simp] theorem State.onLg_regs (s : State) (l : Nat) (f : LegSt → LegSt) : (s.onLg l f).regs = s.regs := rfl
@[simp] theorem State.onLg_cfg (s : State) (l : Nat) (f : LegSt → LegSt) : (s.onLg l f).cfg = s.cfg := rfl
@[simp] theorem State.onLg_stg (s : State) (l : Nat) (f : LegSt → LegSt) : (s.onLg l f).stg = s.stg := rfl
@[simp] theorem State.onLg_mem (s : State) (l : Nat) (f : LegSt → LegSt) : (s.onLg l f).mem = s.mem := rfl
@[simp] theorem State.onLg_eccBad (s : State) (l : Nat) (f : LegSt → LegSt) : (s.onLg l f).eccBad = s.eccBad := rfl
@[simp] theorem State.onLg_power (s : State) (l : Nat) (f : LegSt → LegSt) : (s.onLg l f).power = s.power := rfl
@[simp] theorem State.onLg_time (s : State) (l : Nat) (f : LegSt → LegSt) : (s.onLg l f).time = s.time := rfl
@[simp] theorem State.onLg_stage (s : State) (l : Nat) (f : LegSt → LegSt) : (s.onLg l f).stage = s.stage := rfl
@[simp] theorem State.onLg_host (s : State) (l : Nat) (f : LegSt → LegSt) : (s.onLg l f).host = s.host := rfl
@[simp] theorem State.onLg_mgr (s : State) (l : Nat) (f : LegSt → LegSt) : (s.onLg l f).mgr = s.mgr := rfl
@[simp] theorem State.onLg_axes (s : State) (l : Nat) (f : LegSt → LegSt) : (s.onLg l f).axes = s.axes := rfl
@[simp] theorem State.onLg_drives (s : State) (l : Nat) (f : LegSt → LegSt) : (s.onLg l f).drives = s.drives := rfl
@[simp] theorem State.onLg_ctxs (s : State) (l : Nat) (f : LegSt → LegSt) : (s.onLg l f).ctxs = s.ctxs := rfl
@[simp] theorem State.onLg_fbs (s : State) (l : Nat) (f : LegSt → LegSt) : (s.onLg l f).fbs = s.fbs := rfl
@[simp] theorem State.onLg_mots (s : State) (l : Nat) (f : LegSt → LegSt) : (s.onLg l f).mots = s.mots := rfl
@[simp] theorem State.onLg_cmps (s : State) (l : Nat) (f : LegSt → LegSt) : (s.onLg l f).cmps = s.cmps := rfl
@[simp] theorem State.onLg_latches (s : State) (l : Nat) (f : LegSt → LegSt) : (s.onLg l f).latches = s.latches := rfl
@[simp] theorem State.onLg_groups (s : State) (l : Nat) (f : LegSt → LegSt) : (s.onLg l f).groups = s.groups := rfl
@[simp] theorem State.onLg_legs (s : State) (l : Nat) (f : LegSt → LegSt) : (s.onLg l f).legs = s.legs.modify l f := rfl
@[simp] theorem State.onLg_lanes (s : State) (l : Nat) (f : LegSt → LegSt) : (s.onLg l f).lanes = s.lanes := rfl
@[simp] theorem State.onLg_ropes (s : State) (l : Nat) (f : LegSt → LegSt) : (s.onLg l f).ropes = s.ropes := rfl
@[simp] theorem State.onLg_shares (s : State) (l : Nat) (f : LegSt → LegSt) : (s.onLg l f).shares = s.shares := rfl
@[simp] theorem State.onLg_rescue (s : State) (l : Nat) (f : LegSt → LegSt) : (s.onLg l f).rescue = s.rescue := rfl
@[simp] theorem State.onLg_chop (s : State) (l : Nat) (f : LegSt → LegSt) : (s.onLg l f).chop = s.chop := rfl
@[simp] theorem State.onLg_pdie (s : State) (l : Nat) (f : LegSt → LegSt) : (s.onLg l f).pdie = s.pdie := rfl
@[simp] theorem State.onLg_dma (s : State) (l : Nat) (f : LegSt → LegSt) : (s.onLg l f).dma = s.dma := rfl
@[simp] theorem State.onLg_dmaLast (s : State) (l : Nat) (f : LegSt → LegSt) : (s.onLg l f).dmaLast = s.dmaLast := rfl
@[simp] theorem State.onLg_dmaHalted (s : State) (l : Nat) (f : LegSt → LegSt) : (s.onLg l f).dmaHalted = s.dmaHalted := rfl
@[simp] theorem State.onLg_cans (s : State) (l : Nat) (f : LegSt → LegSt) : (s.onLg l f).cans = s.cans := rfl
@[simp] theorem State.onLg_dis (s : State) (l : Nat) (f : LegSt → LegSt) : (s.onLg l f).dis = s.dis := rfl
@[simp] theorem State.onLg_dos (s : State) (l : Nat) (f : LegSt → LegSt) : (s.onLg l f).dos = s.dos := rfl
@[simp] theorem State.onLg_field (s : State) (l : Nat) (f : LegSt → LegSt) : (s.onLg l f).field = s.field := rfl
@[simp] theorem State.onLg_sins (s : State) (l : Nat) (f : LegSt → LegSt) : (s.onLg l f).sins = s.sins := rfl
@[simp] theorem State.onLg_safety (s : State) (l : Nat) (f : LegSt → LegSt) : (s.onLg l f).safety = s.safety := rfl
@[simp] theorem State.onLg_trace (s : State) (l : Nat) (f : LegSt → LegSt) : (s.onLg l f).trace = s.trace := rfl
@[simp] theorem State.onLg_hk (s : State) (l : Nat) (f : LegSt → LegSt) : (s.onLg l f).hk = s.hk := rfl
@[simp] theorem State.onLg_log (s : State) (l : Nat) (f : LegSt → LegSt) : (s.onLg l f).log = s.log := rfl
@[simp] theorem State.onLg_chans (s : State) (l : Nat) (f : LegSt → LegSt) : (s.onLg l f).chans = s.chans := rfl
@[simp] theorem State.onLg_timers (s : State) (l : Nat) (f : LegSt → LegSt) : (s.onLg l f).timers = s.timers := rfl
@[simp] theorem State.onLg_sched (s : State) (l : Nat) (f : LegSt → LegSt) : (s.onLg l f).sched = s.sched := rfl
@[simp] theorem State.onLg_precheck (s : State) (l : Nat) (f : LegSt → LegSt) : (s.onLg l f).precheck = s.precheck := rfl
@[simp] theorem State.onLg_samples (s : State) (l : Nat) (f : LegSt → LegSt) : (s.onLg l f).samples = s.samples := rfl
@[simp] theorem State.onLg_reps (s : State) (l : Nat) (f : LegSt → LegSt) : (s.onLg l f).reps = s.reps := rfl
@[simp] theorem State.onLg_free (s : State) (l : Nat) (f : LegSt → LegSt) : (s.onLg l f).free = s.free := rfl
@[simp] theorem State.onLg_pending (s : State) (l : Nat) (f : LegSt → LegSt) : (s.onLg l f).pending = s.pending := rfl

/-! onLn. -/

@[simp] theorem State.onLn_regs (s : State) (n : Nat) (f : LaneSt → LaneSt) : (s.onLn n f).regs = s.regs := rfl
@[simp] theorem State.onLn_cfg (s : State) (n : Nat) (f : LaneSt → LaneSt) : (s.onLn n f).cfg = s.cfg := rfl
@[simp] theorem State.onLn_stg (s : State) (n : Nat) (f : LaneSt → LaneSt) : (s.onLn n f).stg = s.stg := rfl
@[simp] theorem State.onLn_mem (s : State) (n : Nat) (f : LaneSt → LaneSt) : (s.onLn n f).mem = s.mem := rfl
@[simp] theorem State.onLn_eccBad (s : State) (n : Nat) (f : LaneSt → LaneSt) : (s.onLn n f).eccBad = s.eccBad := rfl
@[simp] theorem State.onLn_power (s : State) (n : Nat) (f : LaneSt → LaneSt) : (s.onLn n f).power = s.power := rfl
@[simp] theorem State.onLn_time (s : State) (n : Nat) (f : LaneSt → LaneSt) : (s.onLn n f).time = s.time := rfl
@[simp] theorem State.onLn_stage (s : State) (n : Nat) (f : LaneSt → LaneSt) : (s.onLn n f).stage = s.stage := rfl
@[simp] theorem State.onLn_host (s : State) (n : Nat) (f : LaneSt → LaneSt) : (s.onLn n f).host = s.host := rfl
@[simp] theorem State.onLn_mgr (s : State) (n : Nat) (f : LaneSt → LaneSt) : (s.onLn n f).mgr = s.mgr := rfl
@[simp] theorem State.onLn_axes (s : State) (n : Nat) (f : LaneSt → LaneSt) : (s.onLn n f).axes = s.axes := rfl
@[simp] theorem State.onLn_drives (s : State) (n : Nat) (f : LaneSt → LaneSt) : (s.onLn n f).drives = s.drives := rfl
@[simp] theorem State.onLn_ctxs (s : State) (n : Nat) (f : LaneSt → LaneSt) : (s.onLn n f).ctxs = s.ctxs := rfl
@[simp] theorem State.onLn_fbs (s : State) (n : Nat) (f : LaneSt → LaneSt) : (s.onLn n f).fbs = s.fbs := rfl
@[simp] theorem State.onLn_mots (s : State) (n : Nat) (f : LaneSt → LaneSt) : (s.onLn n f).mots = s.mots := rfl
@[simp] theorem State.onLn_cmps (s : State) (n : Nat) (f : LaneSt → LaneSt) : (s.onLn n f).cmps = s.cmps := rfl
@[simp] theorem State.onLn_latches (s : State) (n : Nat) (f : LaneSt → LaneSt) : (s.onLn n f).latches = s.latches := rfl
@[simp] theorem State.onLn_groups (s : State) (n : Nat) (f : LaneSt → LaneSt) : (s.onLn n f).groups = s.groups := rfl
@[simp] theorem State.onLn_legs (s : State) (n : Nat) (f : LaneSt → LaneSt) : (s.onLn n f).legs = s.legs := rfl
@[simp] theorem State.onLn_lanes (s : State) (n : Nat) (f : LaneSt → LaneSt) : (s.onLn n f).lanes = s.lanes.modify n f := rfl
@[simp] theorem State.onLn_ropes (s : State) (n : Nat) (f : LaneSt → LaneSt) : (s.onLn n f).ropes = s.ropes := rfl
@[simp] theorem State.onLn_shares (s : State) (n : Nat) (f : LaneSt → LaneSt) : (s.onLn n f).shares = s.shares := rfl
@[simp] theorem State.onLn_rescue (s : State) (n : Nat) (f : LaneSt → LaneSt) : (s.onLn n f).rescue = s.rescue := rfl
@[simp] theorem State.onLn_chop (s : State) (n : Nat) (f : LaneSt → LaneSt) : (s.onLn n f).chop = s.chop := rfl
@[simp] theorem State.onLn_pdie (s : State) (n : Nat) (f : LaneSt → LaneSt) : (s.onLn n f).pdie = s.pdie := rfl
@[simp] theorem State.onLn_dma (s : State) (n : Nat) (f : LaneSt → LaneSt) : (s.onLn n f).dma = s.dma := rfl
@[simp] theorem State.onLn_dmaLast (s : State) (n : Nat) (f : LaneSt → LaneSt) : (s.onLn n f).dmaLast = s.dmaLast := rfl
@[simp] theorem State.onLn_dmaHalted (s : State) (n : Nat) (f : LaneSt → LaneSt) : (s.onLn n f).dmaHalted = s.dmaHalted := rfl
@[simp] theorem State.onLn_cans (s : State) (n : Nat) (f : LaneSt → LaneSt) : (s.onLn n f).cans = s.cans := rfl
@[simp] theorem State.onLn_dis (s : State) (n : Nat) (f : LaneSt → LaneSt) : (s.onLn n f).dis = s.dis := rfl
@[simp] theorem State.onLn_dos (s : State) (n : Nat) (f : LaneSt → LaneSt) : (s.onLn n f).dos = s.dos := rfl
@[simp] theorem State.onLn_field (s : State) (n : Nat) (f : LaneSt → LaneSt) : (s.onLn n f).field = s.field := rfl
@[simp] theorem State.onLn_sins (s : State) (n : Nat) (f : LaneSt → LaneSt) : (s.onLn n f).sins = s.sins := rfl
@[simp] theorem State.onLn_safety (s : State) (n : Nat) (f : LaneSt → LaneSt) : (s.onLn n f).safety = s.safety := rfl
@[simp] theorem State.onLn_trace (s : State) (n : Nat) (f : LaneSt → LaneSt) : (s.onLn n f).trace = s.trace := rfl
@[simp] theorem State.onLn_hk (s : State) (n : Nat) (f : LaneSt → LaneSt) : (s.onLn n f).hk = s.hk := rfl
@[simp] theorem State.onLn_log (s : State) (n : Nat) (f : LaneSt → LaneSt) : (s.onLn n f).log = s.log := rfl
@[simp] theorem State.onLn_chans (s : State) (n : Nat) (f : LaneSt → LaneSt) : (s.onLn n f).chans = s.chans := rfl
@[simp] theorem State.onLn_timers (s : State) (n : Nat) (f : LaneSt → LaneSt) : (s.onLn n f).timers = s.timers := rfl
@[simp] theorem State.onLn_sched (s : State) (n : Nat) (f : LaneSt → LaneSt) : (s.onLn n f).sched = s.sched := rfl
@[simp] theorem State.onLn_precheck (s : State) (n : Nat) (f : LaneSt → LaneSt) : (s.onLn n f).precheck = s.precheck := rfl
@[simp] theorem State.onLn_samples (s : State) (n : Nat) (f : LaneSt → LaneSt) : (s.onLn n f).samples = s.samples := rfl
@[simp] theorem State.onLn_reps (s : State) (n : Nat) (f : LaneSt → LaneSt) : (s.onLn n f).reps = s.reps := rfl
@[simp] theorem State.onLn_free (s : State) (n : Nat) (f : LaneSt → LaneSt) : (s.onLn n f).free = s.free := rfl
@[simp] theorem State.onLn_pending (s : State) (n : Nat) (f : LaneSt → LaneSt) : (s.onLn n f).pending = s.pending := rfl

/-! onRp. -/

@[simp] theorem State.onRp_regs (s : State) (r : Nat) (f : RopeSt → RopeSt) : (s.onRp r f).regs = s.regs := rfl
@[simp] theorem State.onRp_cfg (s : State) (r : Nat) (f : RopeSt → RopeSt) : (s.onRp r f).cfg = s.cfg := rfl
@[simp] theorem State.onRp_stg (s : State) (r : Nat) (f : RopeSt → RopeSt) : (s.onRp r f).stg = s.stg := rfl
@[simp] theorem State.onRp_mem (s : State) (r : Nat) (f : RopeSt → RopeSt) : (s.onRp r f).mem = s.mem := rfl
@[simp] theorem State.onRp_eccBad (s : State) (r : Nat) (f : RopeSt → RopeSt) : (s.onRp r f).eccBad = s.eccBad := rfl
@[simp] theorem State.onRp_power (s : State) (r : Nat) (f : RopeSt → RopeSt) : (s.onRp r f).power = s.power := rfl
@[simp] theorem State.onRp_time (s : State) (r : Nat) (f : RopeSt → RopeSt) : (s.onRp r f).time = s.time := rfl
@[simp] theorem State.onRp_stage (s : State) (r : Nat) (f : RopeSt → RopeSt) : (s.onRp r f).stage = s.stage := rfl
@[simp] theorem State.onRp_host (s : State) (r : Nat) (f : RopeSt → RopeSt) : (s.onRp r f).host = s.host := rfl
@[simp] theorem State.onRp_mgr (s : State) (r : Nat) (f : RopeSt → RopeSt) : (s.onRp r f).mgr = s.mgr := rfl
@[simp] theorem State.onRp_axes (s : State) (r : Nat) (f : RopeSt → RopeSt) : (s.onRp r f).axes = s.axes := rfl
@[simp] theorem State.onRp_drives (s : State) (r : Nat) (f : RopeSt → RopeSt) : (s.onRp r f).drives = s.drives := rfl
@[simp] theorem State.onRp_ctxs (s : State) (r : Nat) (f : RopeSt → RopeSt) : (s.onRp r f).ctxs = s.ctxs := rfl
@[simp] theorem State.onRp_fbs (s : State) (r : Nat) (f : RopeSt → RopeSt) : (s.onRp r f).fbs = s.fbs := rfl
@[simp] theorem State.onRp_mots (s : State) (r : Nat) (f : RopeSt → RopeSt) : (s.onRp r f).mots = s.mots := rfl
@[simp] theorem State.onRp_cmps (s : State) (r : Nat) (f : RopeSt → RopeSt) : (s.onRp r f).cmps = s.cmps := rfl
@[simp] theorem State.onRp_latches (s : State) (r : Nat) (f : RopeSt → RopeSt) : (s.onRp r f).latches = s.latches := rfl
@[simp] theorem State.onRp_groups (s : State) (r : Nat) (f : RopeSt → RopeSt) : (s.onRp r f).groups = s.groups := rfl
@[simp] theorem State.onRp_legs (s : State) (r : Nat) (f : RopeSt → RopeSt) : (s.onRp r f).legs = s.legs := rfl
@[simp] theorem State.onRp_lanes (s : State) (r : Nat) (f : RopeSt → RopeSt) : (s.onRp r f).lanes = s.lanes := rfl
@[simp] theorem State.onRp_ropes (s : State) (r : Nat) (f : RopeSt → RopeSt) : (s.onRp r f).ropes = s.ropes.modify r f := rfl
@[simp] theorem State.onRp_shares (s : State) (r : Nat) (f : RopeSt → RopeSt) : (s.onRp r f).shares = s.shares := rfl
@[simp] theorem State.onRp_rescue (s : State) (r : Nat) (f : RopeSt → RopeSt) : (s.onRp r f).rescue = s.rescue := rfl
@[simp] theorem State.onRp_chop (s : State) (r : Nat) (f : RopeSt → RopeSt) : (s.onRp r f).chop = s.chop := rfl
@[simp] theorem State.onRp_pdie (s : State) (r : Nat) (f : RopeSt → RopeSt) : (s.onRp r f).pdie = s.pdie := rfl
@[simp] theorem State.onRp_dma (s : State) (r : Nat) (f : RopeSt → RopeSt) : (s.onRp r f).dma = s.dma := rfl
@[simp] theorem State.onRp_dmaLast (s : State) (r : Nat) (f : RopeSt → RopeSt) : (s.onRp r f).dmaLast = s.dmaLast := rfl
@[simp] theorem State.onRp_dmaHalted (s : State) (r : Nat) (f : RopeSt → RopeSt) : (s.onRp r f).dmaHalted = s.dmaHalted := rfl
@[simp] theorem State.onRp_cans (s : State) (r : Nat) (f : RopeSt → RopeSt) : (s.onRp r f).cans = s.cans := rfl
@[simp] theorem State.onRp_dis (s : State) (r : Nat) (f : RopeSt → RopeSt) : (s.onRp r f).dis = s.dis := rfl
@[simp] theorem State.onRp_dos (s : State) (r : Nat) (f : RopeSt → RopeSt) : (s.onRp r f).dos = s.dos := rfl
@[simp] theorem State.onRp_field (s : State) (r : Nat) (f : RopeSt → RopeSt) : (s.onRp r f).field = s.field := rfl
@[simp] theorem State.onRp_sins (s : State) (r : Nat) (f : RopeSt → RopeSt) : (s.onRp r f).sins = s.sins := rfl
@[simp] theorem State.onRp_safety (s : State) (r : Nat) (f : RopeSt → RopeSt) : (s.onRp r f).safety = s.safety := rfl
@[simp] theorem State.onRp_trace (s : State) (r : Nat) (f : RopeSt → RopeSt) : (s.onRp r f).trace = s.trace := rfl
@[simp] theorem State.onRp_hk (s : State) (r : Nat) (f : RopeSt → RopeSt) : (s.onRp r f).hk = s.hk := rfl
@[simp] theorem State.onRp_log (s : State) (r : Nat) (f : RopeSt → RopeSt) : (s.onRp r f).log = s.log := rfl
@[simp] theorem State.onRp_chans (s : State) (r : Nat) (f : RopeSt → RopeSt) : (s.onRp r f).chans = s.chans := rfl
@[simp] theorem State.onRp_timers (s : State) (r : Nat) (f : RopeSt → RopeSt) : (s.onRp r f).timers = s.timers := rfl
@[simp] theorem State.onRp_sched (s : State) (r : Nat) (f : RopeSt → RopeSt) : (s.onRp r f).sched = s.sched := rfl
@[simp] theorem State.onRp_precheck (s : State) (r : Nat) (f : RopeSt → RopeSt) : (s.onRp r f).precheck = s.precheck := rfl
@[simp] theorem State.onRp_samples (s : State) (r : Nat) (f : RopeSt → RopeSt) : (s.onRp r f).samples = s.samples := rfl
@[simp] theorem State.onRp_reps (s : State) (r : Nat) (f : RopeSt → RopeSt) : (s.onRp r f).reps = s.reps := rfl
@[simp] theorem State.onRp_free (s : State) (r : Nat) (f : RopeSt → RopeSt) : (s.onRp r f).free = s.free := rfl
@[simp] theorem State.onRp_pending (s : State) (r : Nat) (f : RopeSt → RopeSt) : (s.onRp r f).pending = s.pending := rfl

/-! onSh. -/

@[simp] theorem State.onSh_regs (s : State) (g : Nat) (f : ShareSt → ShareSt) : (s.onSh g f).regs = s.regs := rfl
@[simp] theorem State.onSh_cfg (s : State) (g : Nat) (f : ShareSt → ShareSt) : (s.onSh g f).cfg = s.cfg := rfl
@[simp] theorem State.onSh_stg (s : State) (g : Nat) (f : ShareSt → ShareSt) : (s.onSh g f).stg = s.stg := rfl
@[simp] theorem State.onSh_mem (s : State) (g : Nat) (f : ShareSt → ShareSt) : (s.onSh g f).mem = s.mem := rfl
@[simp] theorem State.onSh_eccBad (s : State) (g : Nat) (f : ShareSt → ShareSt) : (s.onSh g f).eccBad = s.eccBad := rfl
@[simp] theorem State.onSh_power (s : State) (g : Nat) (f : ShareSt → ShareSt) : (s.onSh g f).power = s.power := rfl
@[simp] theorem State.onSh_time (s : State) (g : Nat) (f : ShareSt → ShareSt) : (s.onSh g f).time = s.time := rfl
@[simp] theorem State.onSh_stage (s : State) (g : Nat) (f : ShareSt → ShareSt) : (s.onSh g f).stage = s.stage := rfl
@[simp] theorem State.onSh_host (s : State) (g : Nat) (f : ShareSt → ShareSt) : (s.onSh g f).host = s.host := rfl
@[simp] theorem State.onSh_mgr (s : State) (g : Nat) (f : ShareSt → ShareSt) : (s.onSh g f).mgr = s.mgr := rfl
@[simp] theorem State.onSh_axes (s : State) (g : Nat) (f : ShareSt → ShareSt) : (s.onSh g f).axes = s.axes := rfl
@[simp] theorem State.onSh_drives (s : State) (g : Nat) (f : ShareSt → ShareSt) : (s.onSh g f).drives = s.drives := rfl
@[simp] theorem State.onSh_ctxs (s : State) (g : Nat) (f : ShareSt → ShareSt) : (s.onSh g f).ctxs = s.ctxs := rfl
@[simp] theorem State.onSh_fbs (s : State) (g : Nat) (f : ShareSt → ShareSt) : (s.onSh g f).fbs = s.fbs := rfl
@[simp] theorem State.onSh_mots (s : State) (g : Nat) (f : ShareSt → ShareSt) : (s.onSh g f).mots = s.mots := rfl
@[simp] theorem State.onSh_cmps (s : State) (g : Nat) (f : ShareSt → ShareSt) : (s.onSh g f).cmps = s.cmps := rfl
@[simp] theorem State.onSh_latches (s : State) (g : Nat) (f : ShareSt → ShareSt) : (s.onSh g f).latches = s.latches := rfl
@[simp] theorem State.onSh_groups (s : State) (g : Nat) (f : ShareSt → ShareSt) : (s.onSh g f).groups = s.groups := rfl
@[simp] theorem State.onSh_legs (s : State) (g : Nat) (f : ShareSt → ShareSt) : (s.onSh g f).legs = s.legs := rfl
@[simp] theorem State.onSh_lanes (s : State) (g : Nat) (f : ShareSt → ShareSt) : (s.onSh g f).lanes = s.lanes := rfl
@[simp] theorem State.onSh_ropes (s : State) (g : Nat) (f : ShareSt → ShareSt) : (s.onSh g f).ropes = s.ropes := rfl
@[simp] theorem State.onSh_shares (s : State) (g : Nat) (f : ShareSt → ShareSt) : (s.onSh g f).shares = s.shares.modify g f := rfl
@[simp] theorem State.onSh_rescue (s : State) (g : Nat) (f : ShareSt → ShareSt) : (s.onSh g f).rescue = s.rescue := rfl
@[simp] theorem State.onSh_chop (s : State) (g : Nat) (f : ShareSt → ShareSt) : (s.onSh g f).chop = s.chop := rfl
@[simp] theorem State.onSh_pdie (s : State) (g : Nat) (f : ShareSt → ShareSt) : (s.onSh g f).pdie = s.pdie := rfl
@[simp] theorem State.onSh_dma (s : State) (g : Nat) (f : ShareSt → ShareSt) : (s.onSh g f).dma = s.dma := rfl
@[simp] theorem State.onSh_dmaLast (s : State) (g : Nat) (f : ShareSt → ShareSt) : (s.onSh g f).dmaLast = s.dmaLast := rfl
@[simp] theorem State.onSh_dmaHalted (s : State) (g : Nat) (f : ShareSt → ShareSt) : (s.onSh g f).dmaHalted = s.dmaHalted := rfl
@[simp] theorem State.onSh_cans (s : State) (g : Nat) (f : ShareSt → ShareSt) : (s.onSh g f).cans = s.cans := rfl
@[simp] theorem State.onSh_dis (s : State) (g : Nat) (f : ShareSt → ShareSt) : (s.onSh g f).dis = s.dis := rfl
@[simp] theorem State.onSh_dos (s : State) (g : Nat) (f : ShareSt → ShareSt) : (s.onSh g f).dos = s.dos := rfl
@[simp] theorem State.onSh_field (s : State) (g : Nat) (f : ShareSt → ShareSt) : (s.onSh g f).field = s.field := rfl
@[simp] theorem State.onSh_sins (s : State) (g : Nat) (f : ShareSt → ShareSt) : (s.onSh g f).sins = s.sins := rfl
@[simp] theorem State.onSh_safety (s : State) (g : Nat) (f : ShareSt → ShareSt) : (s.onSh g f).safety = s.safety := rfl
@[simp] theorem State.onSh_trace (s : State) (g : Nat) (f : ShareSt → ShareSt) : (s.onSh g f).trace = s.trace := rfl
@[simp] theorem State.onSh_hk (s : State) (g : Nat) (f : ShareSt → ShareSt) : (s.onSh g f).hk = s.hk := rfl
@[simp] theorem State.onSh_log (s : State) (g : Nat) (f : ShareSt → ShareSt) : (s.onSh g f).log = s.log := rfl
@[simp] theorem State.onSh_chans (s : State) (g : Nat) (f : ShareSt → ShareSt) : (s.onSh g f).chans = s.chans := rfl
@[simp] theorem State.onSh_timers (s : State) (g : Nat) (f : ShareSt → ShareSt) : (s.onSh g f).timers = s.timers := rfl
@[simp] theorem State.onSh_sched (s : State) (g : Nat) (f : ShareSt → ShareSt) : (s.onSh g f).sched = s.sched := rfl
@[simp] theorem State.onSh_precheck (s : State) (g : Nat) (f : ShareSt → ShareSt) : (s.onSh g f).precheck = s.precheck := rfl
@[simp] theorem State.onSh_samples (s : State) (g : Nat) (f : ShareSt → ShareSt) : (s.onSh g f).samples = s.samples := rfl
@[simp] theorem State.onSh_reps (s : State) (g : Nat) (f : ShareSt → ShareSt) : (s.onSh g f).reps = s.reps := rfl
@[simp] theorem State.onSh_free (s : State) (g : Nat) (f : ShareSt → ShareSt) : (s.onSh g f).free = s.free := rfl
@[simp] theorem State.onSh_pending (s : State) (g : Nat) (f : ShareSt → ShareSt) : (s.onSh g f).pending = s.pending := rfl

/-! onDm. -/

@[simp] theorem State.onDm_regs (s : State) (c : Nat) (f : DmaSt → DmaSt) : (s.onDm c f).regs = s.regs := rfl
@[simp] theorem State.onDm_cfg (s : State) (c : Nat) (f : DmaSt → DmaSt) : (s.onDm c f).cfg = s.cfg := rfl
@[simp] theorem State.onDm_stg (s : State) (c : Nat) (f : DmaSt → DmaSt) : (s.onDm c f).stg = s.stg := rfl
@[simp] theorem State.onDm_mem (s : State) (c : Nat) (f : DmaSt → DmaSt) : (s.onDm c f).mem = s.mem := rfl
@[simp] theorem State.onDm_eccBad (s : State) (c : Nat) (f : DmaSt → DmaSt) : (s.onDm c f).eccBad = s.eccBad := rfl
@[simp] theorem State.onDm_power (s : State) (c : Nat) (f : DmaSt → DmaSt) : (s.onDm c f).power = s.power := rfl
@[simp] theorem State.onDm_time (s : State) (c : Nat) (f : DmaSt → DmaSt) : (s.onDm c f).time = s.time := rfl
@[simp] theorem State.onDm_stage (s : State) (c : Nat) (f : DmaSt → DmaSt) : (s.onDm c f).stage = s.stage := rfl
@[simp] theorem State.onDm_host (s : State) (c : Nat) (f : DmaSt → DmaSt) : (s.onDm c f).host = s.host := rfl
@[simp] theorem State.onDm_mgr (s : State) (c : Nat) (f : DmaSt → DmaSt) : (s.onDm c f).mgr = s.mgr := rfl
@[simp] theorem State.onDm_axes (s : State) (c : Nat) (f : DmaSt → DmaSt) : (s.onDm c f).axes = s.axes := rfl
@[simp] theorem State.onDm_drives (s : State) (c : Nat) (f : DmaSt → DmaSt) : (s.onDm c f).drives = s.drives := rfl
@[simp] theorem State.onDm_ctxs (s : State) (c : Nat) (f : DmaSt → DmaSt) : (s.onDm c f).ctxs = s.ctxs := rfl
@[simp] theorem State.onDm_fbs (s : State) (c : Nat) (f : DmaSt → DmaSt) : (s.onDm c f).fbs = s.fbs := rfl
@[simp] theorem State.onDm_mots (s : State) (c : Nat) (f : DmaSt → DmaSt) : (s.onDm c f).mots = s.mots := rfl
@[simp] theorem State.onDm_cmps (s : State) (c : Nat) (f : DmaSt → DmaSt) : (s.onDm c f).cmps = s.cmps := rfl
@[simp] theorem State.onDm_latches (s : State) (c : Nat) (f : DmaSt → DmaSt) : (s.onDm c f).latches = s.latches := rfl
@[simp] theorem State.onDm_groups (s : State) (c : Nat) (f : DmaSt → DmaSt) : (s.onDm c f).groups = s.groups := rfl
@[simp] theorem State.onDm_legs (s : State) (c : Nat) (f : DmaSt → DmaSt) : (s.onDm c f).legs = s.legs := rfl
@[simp] theorem State.onDm_lanes (s : State) (c : Nat) (f : DmaSt → DmaSt) : (s.onDm c f).lanes = s.lanes := rfl
@[simp] theorem State.onDm_ropes (s : State) (c : Nat) (f : DmaSt → DmaSt) : (s.onDm c f).ropes = s.ropes := rfl
@[simp] theorem State.onDm_shares (s : State) (c : Nat) (f : DmaSt → DmaSt) : (s.onDm c f).shares = s.shares := rfl
@[simp] theorem State.onDm_rescue (s : State) (c : Nat) (f : DmaSt → DmaSt) : (s.onDm c f).rescue = s.rescue := rfl
@[simp] theorem State.onDm_chop (s : State) (c : Nat) (f : DmaSt → DmaSt) : (s.onDm c f).chop = s.chop := rfl
@[simp] theorem State.onDm_pdie (s : State) (c : Nat) (f : DmaSt → DmaSt) : (s.onDm c f).pdie = s.pdie := rfl
@[simp] theorem State.onDm_dma (s : State) (c : Nat) (f : DmaSt → DmaSt) : (s.onDm c f).dma = s.dma.modify c f := rfl
@[simp] theorem State.onDm_dmaLast (s : State) (c : Nat) (f : DmaSt → DmaSt) : (s.onDm c f).dmaLast = s.dmaLast := rfl
@[simp] theorem State.onDm_dmaHalted (s : State) (c : Nat) (f : DmaSt → DmaSt) : (s.onDm c f).dmaHalted = s.dmaHalted := rfl
@[simp] theorem State.onDm_cans (s : State) (c : Nat) (f : DmaSt → DmaSt) : (s.onDm c f).cans = s.cans := rfl
@[simp] theorem State.onDm_dis (s : State) (c : Nat) (f : DmaSt → DmaSt) : (s.onDm c f).dis = s.dis := rfl
@[simp] theorem State.onDm_dos (s : State) (c : Nat) (f : DmaSt → DmaSt) : (s.onDm c f).dos = s.dos := rfl
@[simp] theorem State.onDm_field (s : State) (c : Nat) (f : DmaSt → DmaSt) : (s.onDm c f).field = s.field := rfl
@[simp] theorem State.onDm_sins (s : State) (c : Nat) (f : DmaSt → DmaSt) : (s.onDm c f).sins = s.sins := rfl
@[simp] theorem State.onDm_safety (s : State) (c : Nat) (f : DmaSt → DmaSt) : (s.onDm c f).safety = s.safety := rfl
@[simp] theorem State.onDm_trace (s : State) (c : Nat) (f : DmaSt → DmaSt) : (s.onDm c f).trace = s.trace := rfl
@[simp] theorem State.onDm_hk (s : State) (c : Nat) (f : DmaSt → DmaSt) : (s.onDm c f).hk = s.hk := rfl
@[simp] theorem State.onDm_log (s : State) (c : Nat) (f : DmaSt → DmaSt) : (s.onDm c f).log = s.log := rfl
@[simp] theorem State.onDm_chans (s : State) (c : Nat) (f : DmaSt → DmaSt) : (s.onDm c f).chans = s.chans := rfl
@[simp] theorem State.onDm_timers (s : State) (c : Nat) (f : DmaSt → DmaSt) : (s.onDm c f).timers = s.timers := rfl
@[simp] theorem State.onDm_sched (s : State) (c : Nat) (f : DmaSt → DmaSt) : (s.onDm c f).sched = s.sched := rfl
@[simp] theorem State.onDm_precheck (s : State) (c : Nat) (f : DmaSt → DmaSt) : (s.onDm c f).precheck = s.precheck := rfl
@[simp] theorem State.onDm_samples (s : State) (c : Nat) (f : DmaSt → DmaSt) : (s.onDm c f).samples = s.samples := rfl
@[simp] theorem State.onDm_reps (s : State) (c : Nat) (f : DmaSt → DmaSt) : (s.onDm c f).reps = s.reps := rfl
@[simp] theorem State.onDm_free (s : State) (c : Nat) (f : DmaSt → DmaSt) : (s.onDm c f).free = s.free := rfl
@[simp] theorem State.onDm_pending (s : State) (c : Nat) (f : DmaSt → DmaSt) : (s.onDm c f).pending = s.pending := rfl

/-! onCn. -/

@[simp] theorem State.onCn_regs (s : State) (p : Nat) (f : CanSt → CanSt) : (s.onCn p f).regs = s.regs := rfl
@[simp] theorem State.onCn_cfg (s : State) (p : Nat) (f : CanSt → CanSt) : (s.onCn p f).cfg = s.cfg := rfl
@[simp] theorem State.onCn_stg (s : State) (p : Nat) (f : CanSt → CanSt) : (s.onCn p f).stg = s.stg := rfl
@[simp] theorem State.onCn_mem (s : State) (p : Nat) (f : CanSt → CanSt) : (s.onCn p f).mem = s.mem := rfl
@[simp] theorem State.onCn_eccBad (s : State) (p : Nat) (f : CanSt → CanSt) : (s.onCn p f).eccBad = s.eccBad := rfl
@[simp] theorem State.onCn_power (s : State) (p : Nat) (f : CanSt → CanSt) : (s.onCn p f).power = s.power := rfl
@[simp] theorem State.onCn_time (s : State) (p : Nat) (f : CanSt → CanSt) : (s.onCn p f).time = s.time := rfl
@[simp] theorem State.onCn_stage (s : State) (p : Nat) (f : CanSt → CanSt) : (s.onCn p f).stage = s.stage := rfl
@[simp] theorem State.onCn_host (s : State) (p : Nat) (f : CanSt → CanSt) : (s.onCn p f).host = s.host := rfl
@[simp] theorem State.onCn_mgr (s : State) (p : Nat) (f : CanSt → CanSt) : (s.onCn p f).mgr = s.mgr := rfl
@[simp] theorem State.onCn_axes (s : State) (p : Nat) (f : CanSt → CanSt) : (s.onCn p f).axes = s.axes := rfl
@[simp] theorem State.onCn_drives (s : State) (p : Nat) (f : CanSt → CanSt) : (s.onCn p f).drives = s.drives := rfl
@[simp] theorem State.onCn_ctxs (s : State) (p : Nat) (f : CanSt → CanSt) : (s.onCn p f).ctxs = s.ctxs := rfl
@[simp] theorem State.onCn_fbs (s : State) (p : Nat) (f : CanSt → CanSt) : (s.onCn p f).fbs = s.fbs := rfl
@[simp] theorem State.onCn_mots (s : State) (p : Nat) (f : CanSt → CanSt) : (s.onCn p f).mots = s.mots := rfl
@[simp] theorem State.onCn_cmps (s : State) (p : Nat) (f : CanSt → CanSt) : (s.onCn p f).cmps = s.cmps := rfl
@[simp] theorem State.onCn_latches (s : State) (p : Nat) (f : CanSt → CanSt) : (s.onCn p f).latches = s.latches := rfl
@[simp] theorem State.onCn_groups (s : State) (p : Nat) (f : CanSt → CanSt) : (s.onCn p f).groups = s.groups := rfl
@[simp] theorem State.onCn_legs (s : State) (p : Nat) (f : CanSt → CanSt) : (s.onCn p f).legs = s.legs := rfl
@[simp] theorem State.onCn_lanes (s : State) (p : Nat) (f : CanSt → CanSt) : (s.onCn p f).lanes = s.lanes := rfl
@[simp] theorem State.onCn_ropes (s : State) (p : Nat) (f : CanSt → CanSt) : (s.onCn p f).ropes = s.ropes := rfl
@[simp] theorem State.onCn_shares (s : State) (p : Nat) (f : CanSt → CanSt) : (s.onCn p f).shares = s.shares := rfl
@[simp] theorem State.onCn_rescue (s : State) (p : Nat) (f : CanSt → CanSt) : (s.onCn p f).rescue = s.rescue := rfl
@[simp] theorem State.onCn_chop (s : State) (p : Nat) (f : CanSt → CanSt) : (s.onCn p f).chop = s.chop := rfl
@[simp] theorem State.onCn_pdie (s : State) (p : Nat) (f : CanSt → CanSt) : (s.onCn p f).pdie = s.pdie := rfl
@[simp] theorem State.onCn_dma (s : State) (p : Nat) (f : CanSt → CanSt) : (s.onCn p f).dma = s.dma := rfl
@[simp] theorem State.onCn_dmaLast (s : State) (p : Nat) (f : CanSt → CanSt) : (s.onCn p f).dmaLast = s.dmaLast := rfl
@[simp] theorem State.onCn_dmaHalted (s : State) (p : Nat) (f : CanSt → CanSt) : (s.onCn p f).dmaHalted = s.dmaHalted := rfl
@[simp] theorem State.onCn_cans (s : State) (p : Nat) (f : CanSt → CanSt) : (s.onCn p f).cans = s.cans.modify p f := rfl
@[simp] theorem State.onCn_dis (s : State) (p : Nat) (f : CanSt → CanSt) : (s.onCn p f).dis = s.dis := rfl
@[simp] theorem State.onCn_dos (s : State) (p : Nat) (f : CanSt → CanSt) : (s.onCn p f).dos = s.dos := rfl
@[simp] theorem State.onCn_field (s : State) (p : Nat) (f : CanSt → CanSt) : (s.onCn p f).field = s.field := rfl
@[simp] theorem State.onCn_sins (s : State) (p : Nat) (f : CanSt → CanSt) : (s.onCn p f).sins = s.sins := rfl
@[simp] theorem State.onCn_safety (s : State) (p : Nat) (f : CanSt → CanSt) : (s.onCn p f).safety = s.safety := rfl
@[simp] theorem State.onCn_trace (s : State) (p : Nat) (f : CanSt → CanSt) : (s.onCn p f).trace = s.trace := rfl
@[simp] theorem State.onCn_hk (s : State) (p : Nat) (f : CanSt → CanSt) : (s.onCn p f).hk = s.hk := rfl
@[simp] theorem State.onCn_log (s : State) (p : Nat) (f : CanSt → CanSt) : (s.onCn p f).log = s.log := rfl
@[simp] theorem State.onCn_chans (s : State) (p : Nat) (f : CanSt → CanSt) : (s.onCn p f).chans = s.chans := rfl
@[simp] theorem State.onCn_timers (s : State) (p : Nat) (f : CanSt → CanSt) : (s.onCn p f).timers = s.timers := rfl
@[simp] theorem State.onCn_sched (s : State) (p : Nat) (f : CanSt → CanSt) : (s.onCn p f).sched = s.sched := rfl
@[simp] theorem State.onCn_precheck (s : State) (p : Nat) (f : CanSt → CanSt) : (s.onCn p f).precheck = s.precheck := rfl
@[simp] theorem State.onCn_samples (s : State) (p : Nat) (f : CanSt → CanSt) : (s.onCn p f).samples = s.samples := rfl
@[simp] theorem State.onCn_reps (s : State) (p : Nat) (f : CanSt → CanSt) : (s.onCn p f).reps = s.reps := rfl
@[simp] theorem State.onCn_free (s : State) (p : Nat) (f : CanSt → CanSt) : (s.onCn p f).free = s.free := rfl
@[simp] theorem State.onCn_pending (s : State) (p : Nat) (f : CanSt → CanSt) : (s.onCn p f).pending = s.pending := rfl

/-! onDi. -/

@[simp] theorem State.onDi_regs (s : State) (i : Nat) (f : DiSt → DiSt) : (s.onDi i f).regs = s.regs := rfl
@[simp] theorem State.onDi_cfg (s : State) (i : Nat) (f : DiSt → DiSt) : (s.onDi i f).cfg = s.cfg := rfl
@[simp] theorem State.onDi_stg (s : State) (i : Nat) (f : DiSt → DiSt) : (s.onDi i f).stg = s.stg := rfl
@[simp] theorem State.onDi_mem (s : State) (i : Nat) (f : DiSt → DiSt) : (s.onDi i f).mem = s.mem := rfl
@[simp] theorem State.onDi_eccBad (s : State) (i : Nat) (f : DiSt → DiSt) : (s.onDi i f).eccBad = s.eccBad := rfl
@[simp] theorem State.onDi_power (s : State) (i : Nat) (f : DiSt → DiSt) : (s.onDi i f).power = s.power := rfl
@[simp] theorem State.onDi_time (s : State) (i : Nat) (f : DiSt → DiSt) : (s.onDi i f).time = s.time := rfl
@[simp] theorem State.onDi_stage (s : State) (i : Nat) (f : DiSt → DiSt) : (s.onDi i f).stage = s.stage := rfl
@[simp] theorem State.onDi_host (s : State) (i : Nat) (f : DiSt → DiSt) : (s.onDi i f).host = s.host := rfl
@[simp] theorem State.onDi_mgr (s : State) (i : Nat) (f : DiSt → DiSt) : (s.onDi i f).mgr = s.mgr := rfl
@[simp] theorem State.onDi_axes (s : State) (i : Nat) (f : DiSt → DiSt) : (s.onDi i f).axes = s.axes := rfl
@[simp] theorem State.onDi_drives (s : State) (i : Nat) (f : DiSt → DiSt) : (s.onDi i f).drives = s.drives := rfl
@[simp] theorem State.onDi_ctxs (s : State) (i : Nat) (f : DiSt → DiSt) : (s.onDi i f).ctxs = s.ctxs := rfl
@[simp] theorem State.onDi_fbs (s : State) (i : Nat) (f : DiSt → DiSt) : (s.onDi i f).fbs = s.fbs := rfl
@[simp] theorem State.onDi_mots (s : State) (i : Nat) (f : DiSt → DiSt) : (s.onDi i f).mots = s.mots := rfl
@[simp] theorem State.onDi_cmps (s : State) (i : Nat) (f : DiSt → DiSt) : (s.onDi i f).cmps = s.cmps := rfl
@[simp] theorem State.onDi_latches (s : State) (i : Nat) (f : DiSt → DiSt) : (s.onDi i f).latches = s.latches := rfl
@[simp] theorem State.onDi_groups (s : State) (i : Nat) (f : DiSt → DiSt) : (s.onDi i f).groups = s.groups := rfl
@[simp] theorem State.onDi_legs (s : State) (i : Nat) (f : DiSt → DiSt) : (s.onDi i f).legs = s.legs := rfl
@[simp] theorem State.onDi_lanes (s : State) (i : Nat) (f : DiSt → DiSt) : (s.onDi i f).lanes = s.lanes := rfl
@[simp] theorem State.onDi_ropes (s : State) (i : Nat) (f : DiSt → DiSt) : (s.onDi i f).ropes = s.ropes := rfl
@[simp] theorem State.onDi_shares (s : State) (i : Nat) (f : DiSt → DiSt) : (s.onDi i f).shares = s.shares := rfl
@[simp] theorem State.onDi_rescue (s : State) (i : Nat) (f : DiSt → DiSt) : (s.onDi i f).rescue = s.rescue := rfl
@[simp] theorem State.onDi_chop (s : State) (i : Nat) (f : DiSt → DiSt) : (s.onDi i f).chop = s.chop := rfl
@[simp] theorem State.onDi_pdie (s : State) (i : Nat) (f : DiSt → DiSt) : (s.onDi i f).pdie = s.pdie := rfl
@[simp] theorem State.onDi_dma (s : State) (i : Nat) (f : DiSt → DiSt) : (s.onDi i f).dma = s.dma := rfl
@[simp] theorem State.onDi_dmaLast (s : State) (i : Nat) (f : DiSt → DiSt) : (s.onDi i f).dmaLast = s.dmaLast := rfl
@[simp] theorem State.onDi_dmaHalted (s : State) (i : Nat) (f : DiSt → DiSt) : (s.onDi i f).dmaHalted = s.dmaHalted := rfl
@[simp] theorem State.onDi_cans (s : State) (i : Nat) (f : DiSt → DiSt) : (s.onDi i f).cans = s.cans := rfl
@[simp] theorem State.onDi_dis (s : State) (i : Nat) (f : DiSt → DiSt) : (s.onDi i f).dis = s.dis.modify i f := rfl
@[simp] theorem State.onDi_dos (s : State) (i : Nat) (f : DiSt → DiSt) : (s.onDi i f).dos = s.dos := rfl
@[simp] theorem State.onDi_field (s : State) (i : Nat) (f : DiSt → DiSt) : (s.onDi i f).field = s.field := rfl
@[simp] theorem State.onDi_sins (s : State) (i : Nat) (f : DiSt → DiSt) : (s.onDi i f).sins = s.sins := rfl
@[simp] theorem State.onDi_safety (s : State) (i : Nat) (f : DiSt → DiSt) : (s.onDi i f).safety = s.safety := rfl
@[simp] theorem State.onDi_trace (s : State) (i : Nat) (f : DiSt → DiSt) : (s.onDi i f).trace = s.trace := rfl
@[simp] theorem State.onDi_hk (s : State) (i : Nat) (f : DiSt → DiSt) : (s.onDi i f).hk = s.hk := rfl
@[simp] theorem State.onDi_log (s : State) (i : Nat) (f : DiSt → DiSt) : (s.onDi i f).log = s.log := rfl
@[simp] theorem State.onDi_chans (s : State) (i : Nat) (f : DiSt → DiSt) : (s.onDi i f).chans = s.chans := rfl
@[simp] theorem State.onDi_timers (s : State) (i : Nat) (f : DiSt → DiSt) : (s.onDi i f).timers = s.timers := rfl
@[simp] theorem State.onDi_sched (s : State) (i : Nat) (f : DiSt → DiSt) : (s.onDi i f).sched = s.sched := rfl
@[simp] theorem State.onDi_precheck (s : State) (i : Nat) (f : DiSt → DiSt) : (s.onDi i f).precheck = s.precheck := rfl
@[simp] theorem State.onDi_samples (s : State) (i : Nat) (f : DiSt → DiSt) : (s.onDi i f).samples = s.samples := rfl
@[simp] theorem State.onDi_reps (s : State) (i : Nat) (f : DiSt → DiSt) : (s.onDi i f).reps = s.reps := rfl
@[simp] theorem State.onDi_free (s : State) (i : Nat) (f : DiSt → DiSt) : (s.onDi i f).free = s.free := rfl
@[simp] theorem State.onDi_pending (s : State) (i : Nat) (f : DiSt → DiSt) : (s.onDi i f).pending = s.pending := rfl

/-! onFo. -/

@[simp] theorem State.onFo_regs (s : State) (n : Nat) (f : DoSt → DoSt) : (s.onFo n f).regs = s.regs := rfl
@[simp] theorem State.onFo_cfg (s : State) (n : Nat) (f : DoSt → DoSt) : (s.onFo n f).cfg = s.cfg := rfl
@[simp] theorem State.onFo_stg (s : State) (n : Nat) (f : DoSt → DoSt) : (s.onFo n f).stg = s.stg := rfl
@[simp] theorem State.onFo_mem (s : State) (n : Nat) (f : DoSt → DoSt) : (s.onFo n f).mem = s.mem := rfl
@[simp] theorem State.onFo_eccBad (s : State) (n : Nat) (f : DoSt → DoSt) : (s.onFo n f).eccBad = s.eccBad := rfl
@[simp] theorem State.onFo_power (s : State) (n : Nat) (f : DoSt → DoSt) : (s.onFo n f).power = s.power := rfl
@[simp] theorem State.onFo_time (s : State) (n : Nat) (f : DoSt → DoSt) : (s.onFo n f).time = s.time := rfl
@[simp] theorem State.onFo_stage (s : State) (n : Nat) (f : DoSt → DoSt) : (s.onFo n f).stage = s.stage := rfl
@[simp] theorem State.onFo_host (s : State) (n : Nat) (f : DoSt → DoSt) : (s.onFo n f).host = s.host := rfl
@[simp] theorem State.onFo_mgr (s : State) (n : Nat) (f : DoSt → DoSt) : (s.onFo n f).mgr = s.mgr := rfl
@[simp] theorem State.onFo_axes (s : State) (n : Nat) (f : DoSt → DoSt) : (s.onFo n f).axes = s.axes := rfl
@[simp] theorem State.onFo_drives (s : State) (n : Nat) (f : DoSt → DoSt) : (s.onFo n f).drives = s.drives := rfl
@[simp] theorem State.onFo_ctxs (s : State) (n : Nat) (f : DoSt → DoSt) : (s.onFo n f).ctxs = s.ctxs := rfl
@[simp] theorem State.onFo_fbs (s : State) (n : Nat) (f : DoSt → DoSt) : (s.onFo n f).fbs = s.fbs := rfl
@[simp] theorem State.onFo_mots (s : State) (n : Nat) (f : DoSt → DoSt) : (s.onFo n f).mots = s.mots := rfl
@[simp] theorem State.onFo_cmps (s : State) (n : Nat) (f : DoSt → DoSt) : (s.onFo n f).cmps = s.cmps := rfl
@[simp] theorem State.onFo_latches (s : State) (n : Nat) (f : DoSt → DoSt) : (s.onFo n f).latches = s.latches := rfl
@[simp] theorem State.onFo_groups (s : State) (n : Nat) (f : DoSt → DoSt) : (s.onFo n f).groups = s.groups := rfl
@[simp] theorem State.onFo_legs (s : State) (n : Nat) (f : DoSt → DoSt) : (s.onFo n f).legs = s.legs := rfl
@[simp] theorem State.onFo_lanes (s : State) (n : Nat) (f : DoSt → DoSt) : (s.onFo n f).lanes = s.lanes := rfl
@[simp] theorem State.onFo_ropes (s : State) (n : Nat) (f : DoSt → DoSt) : (s.onFo n f).ropes = s.ropes := rfl
@[simp] theorem State.onFo_shares (s : State) (n : Nat) (f : DoSt → DoSt) : (s.onFo n f).shares = s.shares := rfl
@[simp] theorem State.onFo_rescue (s : State) (n : Nat) (f : DoSt → DoSt) : (s.onFo n f).rescue = s.rescue := rfl
@[simp] theorem State.onFo_chop (s : State) (n : Nat) (f : DoSt → DoSt) : (s.onFo n f).chop = s.chop := rfl
@[simp] theorem State.onFo_pdie (s : State) (n : Nat) (f : DoSt → DoSt) : (s.onFo n f).pdie = s.pdie := rfl
@[simp] theorem State.onFo_dma (s : State) (n : Nat) (f : DoSt → DoSt) : (s.onFo n f).dma = s.dma := rfl
@[simp] theorem State.onFo_dmaLast (s : State) (n : Nat) (f : DoSt → DoSt) : (s.onFo n f).dmaLast = s.dmaLast := rfl
@[simp] theorem State.onFo_dmaHalted (s : State) (n : Nat) (f : DoSt → DoSt) : (s.onFo n f).dmaHalted = s.dmaHalted := rfl
@[simp] theorem State.onFo_cans (s : State) (n : Nat) (f : DoSt → DoSt) : (s.onFo n f).cans = s.cans := rfl
@[simp] theorem State.onFo_dis (s : State) (n : Nat) (f : DoSt → DoSt) : (s.onFo n f).dis = s.dis := rfl
@[simp] theorem State.onFo_dos (s : State) (n : Nat) (f : DoSt → DoSt) : (s.onFo n f).dos = s.dos.modify n f := rfl
@[simp] theorem State.onFo_field (s : State) (n : Nat) (f : DoSt → DoSt) : (s.onFo n f).field = s.field := rfl
@[simp] theorem State.onFo_sins (s : State) (n : Nat) (f : DoSt → DoSt) : (s.onFo n f).sins = s.sins := rfl
@[simp] theorem State.onFo_safety (s : State) (n : Nat) (f : DoSt → DoSt) : (s.onFo n f).safety = s.safety := rfl
@[simp] theorem State.onFo_trace (s : State) (n : Nat) (f : DoSt → DoSt) : (s.onFo n f).trace = s.trace := rfl
@[simp] theorem State.onFo_hk (s : State) (n : Nat) (f : DoSt → DoSt) : (s.onFo n f).hk = s.hk := rfl
@[simp] theorem State.onFo_log (s : State) (n : Nat) (f : DoSt → DoSt) : (s.onFo n f).log = s.log := rfl
@[simp] theorem State.onFo_chans (s : State) (n : Nat) (f : DoSt → DoSt) : (s.onFo n f).chans = s.chans := rfl
@[simp] theorem State.onFo_timers (s : State) (n : Nat) (f : DoSt → DoSt) : (s.onFo n f).timers = s.timers := rfl
@[simp] theorem State.onFo_sched (s : State) (n : Nat) (f : DoSt → DoSt) : (s.onFo n f).sched = s.sched := rfl
@[simp] theorem State.onFo_precheck (s : State) (n : Nat) (f : DoSt → DoSt) : (s.onFo n f).precheck = s.precheck := rfl
@[simp] theorem State.onFo_samples (s : State) (n : Nat) (f : DoSt → DoSt) : (s.onFo n f).samples = s.samples := rfl
@[simp] theorem State.onFo_reps (s : State) (n : Nat) (f : DoSt → DoSt) : (s.onFo n f).reps = s.reps := rfl
@[simp] theorem State.onFo_free (s : State) (n : Nat) (f : DoSt → DoSt) : (s.onFo n f).free = s.free := rfl
@[simp] theorem State.onFo_pending (s : State) (n : Nat) (f : DoSt → DoSt) : (s.onFo n f).pending = s.pending := rfl

/-! onSi. -/

@[simp] theorem State.onSi_regs (s : State) (i : Nat) (f : SinSt → SinSt) : (s.onSi i f).regs = s.regs := rfl
@[simp] theorem State.onSi_cfg (s : State) (i : Nat) (f : SinSt → SinSt) : (s.onSi i f).cfg = s.cfg := rfl
@[simp] theorem State.onSi_stg (s : State) (i : Nat) (f : SinSt → SinSt) : (s.onSi i f).stg = s.stg := rfl
@[simp] theorem State.onSi_mem (s : State) (i : Nat) (f : SinSt → SinSt) : (s.onSi i f).mem = s.mem := rfl
@[simp] theorem State.onSi_eccBad (s : State) (i : Nat) (f : SinSt → SinSt) : (s.onSi i f).eccBad = s.eccBad := rfl
@[simp] theorem State.onSi_power (s : State) (i : Nat) (f : SinSt → SinSt) : (s.onSi i f).power = s.power := rfl
@[simp] theorem State.onSi_time (s : State) (i : Nat) (f : SinSt → SinSt) : (s.onSi i f).time = s.time := rfl
@[simp] theorem State.onSi_stage (s : State) (i : Nat) (f : SinSt → SinSt) : (s.onSi i f).stage = s.stage := rfl
@[simp] theorem State.onSi_host (s : State) (i : Nat) (f : SinSt → SinSt) : (s.onSi i f).host = s.host := rfl
@[simp] theorem State.onSi_mgr (s : State) (i : Nat) (f : SinSt → SinSt) : (s.onSi i f).mgr = s.mgr := rfl
@[simp] theorem State.onSi_axes (s : State) (i : Nat) (f : SinSt → SinSt) : (s.onSi i f).axes = s.axes := rfl
@[simp] theorem State.onSi_drives (s : State) (i : Nat) (f : SinSt → SinSt) : (s.onSi i f).drives = s.drives := rfl
@[simp] theorem State.onSi_ctxs (s : State) (i : Nat) (f : SinSt → SinSt) : (s.onSi i f).ctxs = s.ctxs := rfl
@[simp] theorem State.onSi_fbs (s : State) (i : Nat) (f : SinSt → SinSt) : (s.onSi i f).fbs = s.fbs := rfl
@[simp] theorem State.onSi_mots (s : State) (i : Nat) (f : SinSt → SinSt) : (s.onSi i f).mots = s.mots := rfl
@[simp] theorem State.onSi_cmps (s : State) (i : Nat) (f : SinSt → SinSt) : (s.onSi i f).cmps = s.cmps := rfl
@[simp] theorem State.onSi_latches (s : State) (i : Nat) (f : SinSt → SinSt) : (s.onSi i f).latches = s.latches := rfl
@[simp] theorem State.onSi_groups (s : State) (i : Nat) (f : SinSt → SinSt) : (s.onSi i f).groups = s.groups := rfl
@[simp] theorem State.onSi_legs (s : State) (i : Nat) (f : SinSt → SinSt) : (s.onSi i f).legs = s.legs := rfl
@[simp] theorem State.onSi_lanes (s : State) (i : Nat) (f : SinSt → SinSt) : (s.onSi i f).lanes = s.lanes := rfl
@[simp] theorem State.onSi_ropes (s : State) (i : Nat) (f : SinSt → SinSt) : (s.onSi i f).ropes = s.ropes := rfl
@[simp] theorem State.onSi_shares (s : State) (i : Nat) (f : SinSt → SinSt) : (s.onSi i f).shares = s.shares := rfl
@[simp] theorem State.onSi_rescue (s : State) (i : Nat) (f : SinSt → SinSt) : (s.onSi i f).rescue = s.rescue := rfl
@[simp] theorem State.onSi_chop (s : State) (i : Nat) (f : SinSt → SinSt) : (s.onSi i f).chop = s.chop := rfl
@[simp] theorem State.onSi_pdie (s : State) (i : Nat) (f : SinSt → SinSt) : (s.onSi i f).pdie = s.pdie := rfl
@[simp] theorem State.onSi_dma (s : State) (i : Nat) (f : SinSt → SinSt) : (s.onSi i f).dma = s.dma := rfl
@[simp] theorem State.onSi_dmaLast (s : State) (i : Nat) (f : SinSt → SinSt) : (s.onSi i f).dmaLast = s.dmaLast := rfl
@[simp] theorem State.onSi_dmaHalted (s : State) (i : Nat) (f : SinSt → SinSt) : (s.onSi i f).dmaHalted = s.dmaHalted := rfl
@[simp] theorem State.onSi_cans (s : State) (i : Nat) (f : SinSt → SinSt) : (s.onSi i f).cans = s.cans := rfl
@[simp] theorem State.onSi_dis (s : State) (i : Nat) (f : SinSt → SinSt) : (s.onSi i f).dis = s.dis := rfl
@[simp] theorem State.onSi_dos (s : State) (i : Nat) (f : SinSt → SinSt) : (s.onSi i f).dos = s.dos := rfl
@[simp] theorem State.onSi_field (s : State) (i : Nat) (f : SinSt → SinSt) : (s.onSi i f).field = s.field := rfl
@[simp] theorem State.onSi_sins (s : State) (i : Nat) (f : SinSt → SinSt) : (s.onSi i f).sins = s.sins.modify i f := rfl
@[simp] theorem State.onSi_safety (s : State) (i : Nat) (f : SinSt → SinSt) : (s.onSi i f).safety = s.safety := rfl
@[simp] theorem State.onSi_trace (s : State) (i : Nat) (f : SinSt → SinSt) : (s.onSi i f).trace = s.trace := rfl
@[simp] theorem State.onSi_hk (s : State) (i : Nat) (f : SinSt → SinSt) : (s.onSi i f).hk = s.hk := rfl
@[simp] theorem State.onSi_log (s : State) (i : Nat) (f : SinSt → SinSt) : (s.onSi i f).log = s.log := rfl
@[simp] theorem State.onSi_chans (s : State) (i : Nat) (f : SinSt → SinSt) : (s.onSi i f).chans = s.chans := rfl
@[simp] theorem State.onSi_timers (s : State) (i : Nat) (f : SinSt → SinSt) : (s.onSi i f).timers = s.timers := rfl
@[simp] theorem State.onSi_sched (s : State) (i : Nat) (f : SinSt → SinSt) : (s.onSi i f).sched = s.sched := rfl
@[simp] theorem State.onSi_precheck (s : State) (i : Nat) (f : SinSt → SinSt) : (s.onSi i f).precheck = s.precheck := rfl
@[simp] theorem State.onSi_samples (s : State) (i : Nat) (f : SinSt → SinSt) : (s.onSi i f).samples = s.samples := rfl
@[simp] theorem State.onSi_reps (s : State) (i : Nat) (f : SinSt → SinSt) : (s.onSi i f).reps = s.reps := rfl
@[simp] theorem State.onSi_free (s : State) (i : Nat) (f : SinSt → SinSt) : (s.onSi i f).free = s.free := rfl
@[simp] theorem State.onSi_pending (s : State) (i : Nat) (f : SinSt → SinSt) : (s.onSi i f).pending = s.pending := rfl

/-! onTime. -/

@[simp] theorem State.onTime_regs (s : State) (f : TimeSt → TimeSt) : (s.onTime f).regs = s.regs := rfl
@[simp] theorem State.onTime_cfg (s : State) (f : TimeSt → TimeSt) : (s.onTime f).cfg = s.cfg := rfl
@[simp] theorem State.onTime_stg (s : State) (f : TimeSt → TimeSt) : (s.onTime f).stg = s.stg := rfl
@[simp] theorem State.onTime_mem (s : State) (f : TimeSt → TimeSt) : (s.onTime f).mem = s.mem := rfl
@[simp] theorem State.onTime_eccBad (s : State) (f : TimeSt → TimeSt) : (s.onTime f).eccBad = s.eccBad := rfl
@[simp] theorem State.onTime_power (s : State) (f : TimeSt → TimeSt) : (s.onTime f).power = s.power := rfl
@[simp] theorem State.onTime_time (s : State) (f : TimeSt → TimeSt) : (s.onTime f).time = f s.time := rfl
@[simp] theorem State.onTime_stage (s : State) (f : TimeSt → TimeSt) : (s.onTime f).stage = s.stage := rfl
@[simp] theorem State.onTime_host (s : State) (f : TimeSt → TimeSt) : (s.onTime f).host = s.host := rfl
@[simp] theorem State.onTime_mgr (s : State) (f : TimeSt → TimeSt) : (s.onTime f).mgr = s.mgr := rfl
@[simp] theorem State.onTime_axes (s : State) (f : TimeSt → TimeSt) : (s.onTime f).axes = s.axes := rfl
@[simp] theorem State.onTime_drives (s : State) (f : TimeSt → TimeSt) : (s.onTime f).drives = s.drives := rfl
@[simp] theorem State.onTime_ctxs (s : State) (f : TimeSt → TimeSt) : (s.onTime f).ctxs = s.ctxs := rfl
@[simp] theorem State.onTime_fbs (s : State) (f : TimeSt → TimeSt) : (s.onTime f).fbs = s.fbs := rfl
@[simp] theorem State.onTime_mots (s : State) (f : TimeSt → TimeSt) : (s.onTime f).mots = s.mots := rfl
@[simp] theorem State.onTime_cmps (s : State) (f : TimeSt → TimeSt) : (s.onTime f).cmps = s.cmps := rfl
@[simp] theorem State.onTime_latches (s : State) (f : TimeSt → TimeSt) : (s.onTime f).latches = s.latches := rfl
@[simp] theorem State.onTime_groups (s : State) (f : TimeSt → TimeSt) : (s.onTime f).groups = s.groups := rfl
@[simp] theorem State.onTime_legs (s : State) (f : TimeSt → TimeSt) : (s.onTime f).legs = s.legs := rfl
@[simp] theorem State.onTime_lanes (s : State) (f : TimeSt → TimeSt) : (s.onTime f).lanes = s.lanes := rfl
@[simp] theorem State.onTime_ropes (s : State) (f : TimeSt → TimeSt) : (s.onTime f).ropes = s.ropes := rfl
@[simp] theorem State.onTime_shares (s : State) (f : TimeSt → TimeSt) : (s.onTime f).shares = s.shares := rfl
@[simp] theorem State.onTime_rescue (s : State) (f : TimeSt → TimeSt) : (s.onTime f).rescue = s.rescue := rfl
@[simp] theorem State.onTime_chop (s : State) (f : TimeSt → TimeSt) : (s.onTime f).chop = s.chop := rfl
@[simp] theorem State.onTime_pdie (s : State) (f : TimeSt → TimeSt) : (s.onTime f).pdie = s.pdie := rfl
@[simp] theorem State.onTime_dma (s : State) (f : TimeSt → TimeSt) : (s.onTime f).dma = s.dma := rfl
@[simp] theorem State.onTime_dmaLast (s : State) (f : TimeSt → TimeSt) : (s.onTime f).dmaLast = s.dmaLast := rfl
@[simp] theorem State.onTime_dmaHalted (s : State) (f : TimeSt → TimeSt) : (s.onTime f).dmaHalted = s.dmaHalted := rfl
@[simp] theorem State.onTime_cans (s : State) (f : TimeSt → TimeSt) : (s.onTime f).cans = s.cans := rfl
@[simp] theorem State.onTime_dis (s : State) (f : TimeSt → TimeSt) : (s.onTime f).dis = s.dis := rfl
@[simp] theorem State.onTime_dos (s : State) (f : TimeSt → TimeSt) : (s.onTime f).dos = s.dos := rfl
@[simp] theorem State.onTime_field (s : State) (f : TimeSt → TimeSt) : (s.onTime f).field = s.field := rfl
@[simp] theorem State.onTime_sins (s : State) (f : TimeSt → TimeSt) : (s.onTime f).sins = s.sins := rfl
@[simp] theorem State.onTime_safety (s : State) (f : TimeSt → TimeSt) : (s.onTime f).safety = s.safety := rfl
@[simp] theorem State.onTime_trace (s : State) (f : TimeSt → TimeSt) : (s.onTime f).trace = s.trace := rfl
@[simp] theorem State.onTime_hk (s : State) (f : TimeSt → TimeSt) : (s.onTime f).hk = s.hk := rfl
@[simp] theorem State.onTime_log (s : State) (f : TimeSt → TimeSt) : (s.onTime f).log = s.log := rfl
@[simp] theorem State.onTime_chans (s : State) (f : TimeSt → TimeSt) : (s.onTime f).chans = s.chans := rfl
@[simp] theorem State.onTime_timers (s : State) (f : TimeSt → TimeSt) : (s.onTime f).timers = s.timers := rfl
@[simp] theorem State.onTime_sched (s : State) (f : TimeSt → TimeSt) : (s.onTime f).sched = s.sched := rfl
@[simp] theorem State.onTime_precheck (s : State) (f : TimeSt → TimeSt) : (s.onTime f).precheck = s.precheck := rfl
@[simp] theorem State.onTime_samples (s : State) (f : TimeSt → TimeSt) : (s.onTime f).samples = s.samples := rfl
@[simp] theorem State.onTime_reps (s : State) (f : TimeSt → TimeSt) : (s.onTime f).reps = s.reps := rfl
@[simp] theorem State.onTime_free (s : State) (f : TimeSt → TimeSt) : (s.onTime f).free = s.free := rfl
@[simp] theorem State.onTime_pending (s : State) (f : TimeSt → TimeSt) : (s.onTime f).pending = s.pending := rfl

/-! onStage. -/

@[simp] theorem State.onStage_regs (s : State) (f : StageSt → StageSt) : (s.onStage f).regs = s.regs := rfl
@[simp] theorem State.onStage_cfg (s : State) (f : StageSt → StageSt) : (s.onStage f).cfg = s.cfg := rfl
@[simp] theorem State.onStage_stg (s : State) (f : StageSt → StageSt) : (s.onStage f).stg = s.stg := rfl
@[simp] theorem State.onStage_mem (s : State) (f : StageSt → StageSt) : (s.onStage f).mem = s.mem := rfl
@[simp] theorem State.onStage_eccBad (s : State) (f : StageSt → StageSt) : (s.onStage f).eccBad = s.eccBad := rfl
@[simp] theorem State.onStage_power (s : State) (f : StageSt → StageSt) : (s.onStage f).power = s.power := rfl
@[simp] theorem State.onStage_time (s : State) (f : StageSt → StageSt) : (s.onStage f).time = s.time := rfl
@[simp] theorem State.onStage_stage (s : State) (f : StageSt → StageSt) : (s.onStage f).stage = f s.stage := rfl
@[simp] theorem State.onStage_host (s : State) (f : StageSt → StageSt) : (s.onStage f).host = s.host := rfl
@[simp] theorem State.onStage_mgr (s : State) (f : StageSt → StageSt) : (s.onStage f).mgr = s.mgr := rfl
@[simp] theorem State.onStage_axes (s : State) (f : StageSt → StageSt) : (s.onStage f).axes = s.axes := rfl
@[simp] theorem State.onStage_drives (s : State) (f : StageSt → StageSt) : (s.onStage f).drives = s.drives := rfl
@[simp] theorem State.onStage_ctxs (s : State) (f : StageSt → StageSt) : (s.onStage f).ctxs = s.ctxs := rfl
@[simp] theorem State.onStage_fbs (s : State) (f : StageSt → StageSt) : (s.onStage f).fbs = s.fbs := rfl
@[simp] theorem State.onStage_mots (s : State) (f : StageSt → StageSt) : (s.onStage f).mots = s.mots := rfl
@[simp] theorem State.onStage_cmps (s : State) (f : StageSt → StageSt) : (s.onStage f).cmps = s.cmps := rfl
@[simp] theorem State.onStage_latches (s : State) (f : StageSt → StageSt) : (s.onStage f).latches = s.latches := rfl
@[simp] theorem State.onStage_groups (s : State) (f : StageSt → StageSt) : (s.onStage f).groups = s.groups := rfl
@[simp] theorem State.onStage_legs (s : State) (f : StageSt → StageSt) : (s.onStage f).legs = s.legs := rfl
@[simp] theorem State.onStage_lanes (s : State) (f : StageSt → StageSt) : (s.onStage f).lanes = s.lanes := rfl
@[simp] theorem State.onStage_ropes (s : State) (f : StageSt → StageSt) : (s.onStage f).ropes = s.ropes := rfl
@[simp] theorem State.onStage_shares (s : State) (f : StageSt → StageSt) : (s.onStage f).shares = s.shares := rfl
@[simp] theorem State.onStage_rescue (s : State) (f : StageSt → StageSt) : (s.onStage f).rescue = s.rescue := rfl
@[simp] theorem State.onStage_chop (s : State) (f : StageSt → StageSt) : (s.onStage f).chop = s.chop := rfl
@[simp] theorem State.onStage_pdie (s : State) (f : StageSt → StageSt) : (s.onStage f).pdie = s.pdie := rfl
@[simp] theorem State.onStage_dma (s : State) (f : StageSt → StageSt) : (s.onStage f).dma = s.dma := rfl
@[simp] theorem State.onStage_dmaLast (s : State) (f : StageSt → StageSt) : (s.onStage f).dmaLast = s.dmaLast := rfl
@[simp] theorem State.onStage_dmaHalted (s : State) (f : StageSt → StageSt) : (s.onStage f).dmaHalted = s.dmaHalted := rfl
@[simp] theorem State.onStage_cans (s : State) (f : StageSt → StageSt) : (s.onStage f).cans = s.cans := rfl
@[simp] theorem State.onStage_dis (s : State) (f : StageSt → StageSt) : (s.onStage f).dis = s.dis := rfl
@[simp] theorem State.onStage_dos (s : State) (f : StageSt → StageSt) : (s.onStage f).dos = s.dos := rfl
@[simp] theorem State.onStage_field (s : State) (f : StageSt → StageSt) : (s.onStage f).field = s.field := rfl
@[simp] theorem State.onStage_sins (s : State) (f : StageSt → StageSt) : (s.onStage f).sins = s.sins := rfl
@[simp] theorem State.onStage_safety (s : State) (f : StageSt → StageSt) : (s.onStage f).safety = s.safety := rfl
@[simp] theorem State.onStage_trace (s : State) (f : StageSt → StageSt) : (s.onStage f).trace = s.trace := rfl
@[simp] theorem State.onStage_hk (s : State) (f : StageSt → StageSt) : (s.onStage f).hk = s.hk := rfl
@[simp] theorem State.onStage_log (s : State) (f : StageSt → StageSt) : (s.onStage f).log = s.log := rfl
@[simp] theorem State.onStage_chans (s : State) (f : StageSt → StageSt) : (s.onStage f).chans = s.chans := rfl
@[simp] theorem State.onStage_timers (s : State) (f : StageSt → StageSt) : (s.onStage f).timers = s.timers := rfl
@[simp] theorem State.onStage_sched (s : State) (f : StageSt → StageSt) : (s.onStage f).sched = s.sched := rfl
@[simp] theorem State.onStage_precheck (s : State) (f : StageSt → StageSt) : (s.onStage f).precheck = s.precheck := rfl
@[simp] theorem State.onStage_samples (s : State) (f : StageSt → StageSt) : (s.onStage f).samples = s.samples := rfl
@[simp] theorem State.onStage_reps (s : State) (f : StageSt → StageSt) : (s.onStage f).reps = s.reps := rfl
@[simp] theorem State.onStage_free (s : State) (f : StageSt → StageSt) : (s.onStage f).free = s.free := rfl
@[simp] theorem State.onStage_pending (s : State) (f : StageSt → StageSt) : (s.onStage f).pending = s.pending := rfl

/-! onPower. -/

@[simp] theorem State.onPower_regs (s : State) (f : PowerSt → PowerSt) : (s.onPower f).regs = s.regs := rfl
@[simp] theorem State.onPower_cfg (s : State) (f : PowerSt → PowerSt) : (s.onPower f).cfg = s.cfg := rfl
@[simp] theorem State.onPower_stg (s : State) (f : PowerSt → PowerSt) : (s.onPower f).stg = s.stg := rfl
@[simp] theorem State.onPower_mem (s : State) (f : PowerSt → PowerSt) : (s.onPower f).mem = s.mem := rfl
@[simp] theorem State.onPower_eccBad (s : State) (f : PowerSt → PowerSt) : (s.onPower f).eccBad = s.eccBad := rfl
@[simp] theorem State.onPower_power (s : State) (f : PowerSt → PowerSt) : (s.onPower f).power = f s.power := rfl
@[simp] theorem State.onPower_time (s : State) (f : PowerSt → PowerSt) : (s.onPower f).time = s.time := rfl
@[simp] theorem State.onPower_stage (s : State) (f : PowerSt → PowerSt) : (s.onPower f).stage = s.stage := rfl
@[simp] theorem State.onPower_host (s : State) (f : PowerSt → PowerSt) : (s.onPower f).host = s.host := rfl
@[simp] theorem State.onPower_mgr (s : State) (f : PowerSt → PowerSt) : (s.onPower f).mgr = s.mgr := rfl
@[simp] theorem State.onPower_axes (s : State) (f : PowerSt → PowerSt) : (s.onPower f).axes = s.axes := rfl
@[simp] theorem State.onPower_drives (s : State) (f : PowerSt → PowerSt) : (s.onPower f).drives = s.drives := rfl
@[simp] theorem State.onPower_ctxs (s : State) (f : PowerSt → PowerSt) : (s.onPower f).ctxs = s.ctxs := rfl
@[simp] theorem State.onPower_fbs (s : State) (f : PowerSt → PowerSt) : (s.onPower f).fbs = s.fbs := rfl
@[simp] theorem State.onPower_mots (s : State) (f : PowerSt → PowerSt) : (s.onPower f).mots = s.mots := rfl
@[simp] theorem State.onPower_cmps (s : State) (f : PowerSt → PowerSt) : (s.onPower f).cmps = s.cmps := rfl
@[simp] theorem State.onPower_latches (s : State) (f : PowerSt → PowerSt) : (s.onPower f).latches = s.latches := rfl
@[simp] theorem State.onPower_groups (s : State) (f : PowerSt → PowerSt) : (s.onPower f).groups = s.groups := rfl
@[simp] theorem State.onPower_legs (s : State) (f : PowerSt → PowerSt) : (s.onPower f).legs = s.legs := rfl
@[simp] theorem State.onPower_lanes (s : State) (f : PowerSt → PowerSt) : (s.onPower f).lanes = s.lanes := rfl
@[simp] theorem State.onPower_ropes (s : State) (f : PowerSt → PowerSt) : (s.onPower f).ropes = s.ropes := rfl
@[simp] theorem State.onPower_shares (s : State) (f : PowerSt → PowerSt) : (s.onPower f).shares = s.shares := rfl
@[simp] theorem State.onPower_rescue (s : State) (f : PowerSt → PowerSt) : (s.onPower f).rescue = s.rescue := rfl
@[simp] theorem State.onPower_chop (s : State) (f : PowerSt → PowerSt) : (s.onPower f).chop = s.chop := rfl
@[simp] theorem State.onPower_pdie (s : State) (f : PowerSt → PowerSt) : (s.onPower f).pdie = s.pdie := rfl
@[simp] theorem State.onPower_dma (s : State) (f : PowerSt → PowerSt) : (s.onPower f).dma = s.dma := rfl
@[simp] theorem State.onPower_dmaLast (s : State) (f : PowerSt → PowerSt) : (s.onPower f).dmaLast = s.dmaLast := rfl
@[simp] theorem State.onPower_dmaHalted (s : State) (f : PowerSt → PowerSt) : (s.onPower f).dmaHalted = s.dmaHalted := rfl
@[simp] theorem State.onPower_cans (s : State) (f : PowerSt → PowerSt) : (s.onPower f).cans = s.cans := rfl
@[simp] theorem State.onPower_dis (s : State) (f : PowerSt → PowerSt) : (s.onPower f).dis = s.dis := rfl
@[simp] theorem State.onPower_dos (s : State) (f : PowerSt → PowerSt) : (s.onPower f).dos = s.dos := rfl
@[simp] theorem State.onPower_field (s : State) (f : PowerSt → PowerSt) : (s.onPower f).field = s.field := rfl
@[simp] theorem State.onPower_sins (s : State) (f : PowerSt → PowerSt) : (s.onPower f).sins = s.sins := rfl
@[simp] theorem State.onPower_safety (s : State) (f : PowerSt → PowerSt) : (s.onPower f).safety = s.safety := rfl
@[simp] theorem State.onPower_trace (s : State) (f : PowerSt → PowerSt) : (s.onPower f).trace = s.trace := rfl
@[simp] theorem State.onPower_hk (s : State) (f : PowerSt → PowerSt) : (s.onPower f).hk = s.hk := rfl
@[simp] theorem State.onPower_log (s : State) (f : PowerSt → PowerSt) : (s.onPower f).log = s.log := rfl
@[simp] theorem State.onPower_chans (s : State) (f : PowerSt → PowerSt) : (s.onPower f).chans = s.chans := rfl
@[simp] theorem State.onPower_timers (s : State) (f : PowerSt → PowerSt) : (s.onPower f).timers = s.timers := rfl
@[simp] theorem State.onPower_sched (s : State) (f : PowerSt → PowerSt) : (s.onPower f).sched = s.sched := rfl
@[simp] theorem State.onPower_precheck (s : State) (f : PowerSt → PowerSt) : (s.onPower f).precheck = s.precheck := rfl
@[simp] theorem State.onPower_samples (s : State) (f : PowerSt → PowerSt) : (s.onPower f).samples = s.samples := rfl
@[simp] theorem State.onPower_reps (s : State) (f : PowerSt → PowerSt) : (s.onPower f).reps = s.reps := rfl
@[simp] theorem State.onPower_free (s : State) (f : PowerSt → PowerSt) : (s.onPower f).free = s.free := rfl
@[simp] theorem State.onPower_pending (s : State) (f : PowerSt → PowerSt) : (s.onPower f).pending = s.pending := rfl

/-! onSafe. -/

@[simp] theorem State.onSafe_regs (s : State) (f : SafetySt → SafetySt) : (s.onSafe f).regs = s.regs := rfl
@[simp] theorem State.onSafe_cfg (s : State) (f : SafetySt → SafetySt) : (s.onSafe f).cfg = s.cfg := rfl
@[simp] theorem State.onSafe_stg (s : State) (f : SafetySt → SafetySt) : (s.onSafe f).stg = s.stg := rfl
@[simp] theorem State.onSafe_mem (s : State) (f : SafetySt → SafetySt) : (s.onSafe f).mem = s.mem := rfl
@[simp] theorem State.onSafe_eccBad (s : State) (f : SafetySt → SafetySt) : (s.onSafe f).eccBad = s.eccBad := rfl
@[simp] theorem State.onSafe_power (s : State) (f : SafetySt → SafetySt) : (s.onSafe f).power = s.power := rfl
@[simp] theorem State.onSafe_time (s : State) (f : SafetySt → SafetySt) : (s.onSafe f).time = s.time := rfl
@[simp] theorem State.onSafe_stage (s : State) (f : SafetySt → SafetySt) : (s.onSafe f).stage = s.stage := rfl
@[simp] theorem State.onSafe_host (s : State) (f : SafetySt → SafetySt) : (s.onSafe f).host = s.host := rfl
@[simp] theorem State.onSafe_mgr (s : State) (f : SafetySt → SafetySt) : (s.onSafe f).mgr = s.mgr := rfl
@[simp] theorem State.onSafe_axes (s : State) (f : SafetySt → SafetySt) : (s.onSafe f).axes = s.axes := rfl
@[simp] theorem State.onSafe_drives (s : State) (f : SafetySt → SafetySt) : (s.onSafe f).drives = s.drives := rfl
@[simp] theorem State.onSafe_ctxs (s : State) (f : SafetySt → SafetySt) : (s.onSafe f).ctxs = s.ctxs := rfl
@[simp] theorem State.onSafe_fbs (s : State) (f : SafetySt → SafetySt) : (s.onSafe f).fbs = s.fbs := rfl
@[simp] theorem State.onSafe_mots (s : State) (f : SafetySt → SafetySt) : (s.onSafe f).mots = s.mots := rfl
@[simp] theorem State.onSafe_cmps (s : State) (f : SafetySt → SafetySt) : (s.onSafe f).cmps = s.cmps := rfl
@[simp] theorem State.onSafe_latches (s : State) (f : SafetySt → SafetySt) : (s.onSafe f).latches = s.latches := rfl
@[simp] theorem State.onSafe_groups (s : State) (f : SafetySt → SafetySt) : (s.onSafe f).groups = s.groups := rfl
@[simp] theorem State.onSafe_legs (s : State) (f : SafetySt → SafetySt) : (s.onSafe f).legs = s.legs := rfl
@[simp] theorem State.onSafe_lanes (s : State) (f : SafetySt → SafetySt) : (s.onSafe f).lanes = s.lanes := rfl
@[simp] theorem State.onSafe_ropes (s : State) (f : SafetySt → SafetySt) : (s.onSafe f).ropes = s.ropes := rfl
@[simp] theorem State.onSafe_shares (s : State) (f : SafetySt → SafetySt) : (s.onSafe f).shares = s.shares := rfl
@[simp] theorem State.onSafe_rescue (s : State) (f : SafetySt → SafetySt) : (s.onSafe f).rescue = s.rescue := rfl
@[simp] theorem State.onSafe_chop (s : State) (f : SafetySt → SafetySt) : (s.onSafe f).chop = s.chop := rfl
@[simp] theorem State.onSafe_pdie (s : State) (f : SafetySt → SafetySt) : (s.onSafe f).pdie = s.pdie := rfl
@[simp] theorem State.onSafe_dma (s : State) (f : SafetySt → SafetySt) : (s.onSafe f).dma = s.dma := rfl
@[simp] theorem State.onSafe_dmaLast (s : State) (f : SafetySt → SafetySt) : (s.onSafe f).dmaLast = s.dmaLast := rfl
@[simp] theorem State.onSafe_dmaHalted (s : State) (f : SafetySt → SafetySt) : (s.onSafe f).dmaHalted = s.dmaHalted := rfl
@[simp] theorem State.onSafe_cans (s : State) (f : SafetySt → SafetySt) : (s.onSafe f).cans = s.cans := rfl
@[simp] theorem State.onSafe_dis (s : State) (f : SafetySt → SafetySt) : (s.onSafe f).dis = s.dis := rfl
@[simp] theorem State.onSafe_dos (s : State) (f : SafetySt → SafetySt) : (s.onSafe f).dos = s.dos := rfl
@[simp] theorem State.onSafe_field (s : State) (f : SafetySt → SafetySt) : (s.onSafe f).field = s.field := rfl
@[simp] theorem State.onSafe_sins (s : State) (f : SafetySt → SafetySt) : (s.onSafe f).sins = s.sins := rfl
@[simp] theorem State.onSafe_safety (s : State) (f : SafetySt → SafetySt) : (s.onSafe f).safety = f s.safety := rfl
@[simp] theorem State.onSafe_trace (s : State) (f : SafetySt → SafetySt) : (s.onSafe f).trace = s.trace := rfl
@[simp] theorem State.onSafe_hk (s : State) (f : SafetySt → SafetySt) : (s.onSafe f).hk = s.hk := rfl
@[simp] theorem State.onSafe_log (s : State) (f : SafetySt → SafetySt) : (s.onSafe f).log = s.log := rfl
@[simp] theorem State.onSafe_chans (s : State) (f : SafetySt → SafetySt) : (s.onSafe f).chans = s.chans := rfl
@[simp] theorem State.onSafe_timers (s : State) (f : SafetySt → SafetySt) : (s.onSafe f).timers = s.timers := rfl
@[simp] theorem State.onSafe_sched (s : State) (f : SafetySt → SafetySt) : (s.onSafe f).sched = s.sched := rfl
@[simp] theorem State.onSafe_precheck (s : State) (f : SafetySt → SafetySt) : (s.onSafe f).precheck = s.precheck := rfl
@[simp] theorem State.onSafe_samples (s : State) (f : SafetySt → SafetySt) : (s.onSafe f).samples = s.samples := rfl
@[simp] theorem State.onSafe_reps (s : State) (f : SafetySt → SafetySt) : (s.onSafe f).reps = s.reps := rfl
@[simp] theorem State.onSafe_free (s : State) (f : SafetySt → SafetySt) : (s.onSafe f).free = s.free := rfl
@[simp] theorem State.onSafe_pending (s : State) (f : SafetySt → SafetySt) : (s.onSafe f).pending = s.pending := rfl

/-! onSched. -/

@[simp] theorem State.onSched_regs (s : State) (f : SchedSt → SchedSt) : (s.onSched f).regs = s.regs := rfl
@[simp] theorem State.onSched_cfg (s : State) (f : SchedSt → SchedSt) : (s.onSched f).cfg = s.cfg := rfl
@[simp] theorem State.onSched_stg (s : State) (f : SchedSt → SchedSt) : (s.onSched f).stg = s.stg := rfl
@[simp] theorem State.onSched_mem (s : State) (f : SchedSt → SchedSt) : (s.onSched f).mem = s.mem := rfl
@[simp] theorem State.onSched_eccBad (s : State) (f : SchedSt → SchedSt) : (s.onSched f).eccBad = s.eccBad := rfl
@[simp] theorem State.onSched_power (s : State) (f : SchedSt → SchedSt) : (s.onSched f).power = s.power := rfl
@[simp] theorem State.onSched_time (s : State) (f : SchedSt → SchedSt) : (s.onSched f).time = s.time := rfl
@[simp] theorem State.onSched_stage (s : State) (f : SchedSt → SchedSt) : (s.onSched f).stage = s.stage := rfl
@[simp] theorem State.onSched_host (s : State) (f : SchedSt → SchedSt) : (s.onSched f).host = s.host := rfl
@[simp] theorem State.onSched_mgr (s : State) (f : SchedSt → SchedSt) : (s.onSched f).mgr = s.mgr := rfl
@[simp] theorem State.onSched_axes (s : State) (f : SchedSt → SchedSt) : (s.onSched f).axes = s.axes := rfl
@[simp] theorem State.onSched_drives (s : State) (f : SchedSt → SchedSt) : (s.onSched f).drives = s.drives := rfl
@[simp] theorem State.onSched_ctxs (s : State) (f : SchedSt → SchedSt) : (s.onSched f).ctxs = s.ctxs := rfl
@[simp] theorem State.onSched_fbs (s : State) (f : SchedSt → SchedSt) : (s.onSched f).fbs = s.fbs := rfl
@[simp] theorem State.onSched_mots (s : State) (f : SchedSt → SchedSt) : (s.onSched f).mots = s.mots := rfl
@[simp] theorem State.onSched_cmps (s : State) (f : SchedSt → SchedSt) : (s.onSched f).cmps = s.cmps := rfl
@[simp] theorem State.onSched_latches (s : State) (f : SchedSt → SchedSt) : (s.onSched f).latches = s.latches := rfl
@[simp] theorem State.onSched_groups (s : State) (f : SchedSt → SchedSt) : (s.onSched f).groups = s.groups := rfl
@[simp] theorem State.onSched_legs (s : State) (f : SchedSt → SchedSt) : (s.onSched f).legs = s.legs := rfl
@[simp] theorem State.onSched_lanes (s : State) (f : SchedSt → SchedSt) : (s.onSched f).lanes = s.lanes := rfl
@[simp] theorem State.onSched_ropes (s : State) (f : SchedSt → SchedSt) : (s.onSched f).ropes = s.ropes := rfl
@[simp] theorem State.onSched_shares (s : State) (f : SchedSt → SchedSt) : (s.onSched f).shares = s.shares := rfl
@[simp] theorem State.onSched_rescue (s : State) (f : SchedSt → SchedSt) : (s.onSched f).rescue = s.rescue := rfl
@[simp] theorem State.onSched_chop (s : State) (f : SchedSt → SchedSt) : (s.onSched f).chop = s.chop := rfl
@[simp] theorem State.onSched_pdie (s : State) (f : SchedSt → SchedSt) : (s.onSched f).pdie = s.pdie := rfl
@[simp] theorem State.onSched_dma (s : State) (f : SchedSt → SchedSt) : (s.onSched f).dma = s.dma := rfl
@[simp] theorem State.onSched_dmaLast (s : State) (f : SchedSt → SchedSt) : (s.onSched f).dmaLast = s.dmaLast := rfl
@[simp] theorem State.onSched_dmaHalted (s : State) (f : SchedSt → SchedSt) : (s.onSched f).dmaHalted = s.dmaHalted := rfl
@[simp] theorem State.onSched_cans (s : State) (f : SchedSt → SchedSt) : (s.onSched f).cans = s.cans := rfl
@[simp] theorem State.onSched_dis (s : State) (f : SchedSt → SchedSt) : (s.onSched f).dis = s.dis := rfl
@[simp] theorem State.onSched_dos (s : State) (f : SchedSt → SchedSt) : (s.onSched f).dos = s.dos := rfl
@[simp] theorem State.onSched_field (s : State) (f : SchedSt → SchedSt) : (s.onSched f).field = s.field := rfl
@[simp] theorem State.onSched_sins (s : State) (f : SchedSt → SchedSt) : (s.onSched f).sins = s.sins := rfl
@[simp] theorem State.onSched_safety (s : State) (f : SchedSt → SchedSt) : (s.onSched f).safety = s.safety := rfl
@[simp] theorem State.onSched_trace (s : State) (f : SchedSt → SchedSt) : (s.onSched f).trace = s.trace := rfl
@[simp] theorem State.onSched_hk (s : State) (f : SchedSt → SchedSt) : (s.onSched f).hk = s.hk := rfl
@[simp] theorem State.onSched_log (s : State) (f : SchedSt → SchedSt) : (s.onSched f).log = s.log := rfl
@[simp] theorem State.onSched_chans (s : State) (f : SchedSt → SchedSt) : (s.onSched f).chans = s.chans := rfl
@[simp] theorem State.onSched_timers (s : State) (f : SchedSt → SchedSt) : (s.onSched f).timers = s.timers := rfl
@[simp] theorem State.onSched_sched (s : State) (f : SchedSt → SchedSt) : (s.onSched f).sched = f s.sched := rfl
@[simp] theorem State.onSched_precheck (s : State) (f : SchedSt → SchedSt) : (s.onSched f).precheck = s.precheck := rfl
@[simp] theorem State.onSched_samples (s : State) (f : SchedSt → SchedSt) : (s.onSched f).samples = s.samples := rfl
@[simp] theorem State.onSched_reps (s : State) (f : SchedSt → SchedSt) : (s.onSched f).reps = s.reps := rfl
@[simp] theorem State.onSched_free (s : State) (f : SchedSt → SchedSt) : (s.onSched f).free = s.free := rfl
@[simp] theorem State.onSched_pending (s : State) (f : SchedSt → SchedSt) : (s.onSched f).pending = s.pending := rfl

/-! onField. -/

@[simp] theorem State.onField_regs (s : State) (f : FieldSt → FieldSt) : (s.onField f).regs = s.regs := rfl
@[simp] theorem State.onField_cfg (s : State) (f : FieldSt → FieldSt) : (s.onField f).cfg = s.cfg := rfl
@[simp] theorem State.onField_stg (s : State) (f : FieldSt → FieldSt) : (s.onField f).stg = s.stg := rfl
@[simp] theorem State.onField_mem (s : State) (f : FieldSt → FieldSt) : (s.onField f).mem = s.mem := rfl
@[simp] theorem State.onField_eccBad (s : State) (f : FieldSt → FieldSt) : (s.onField f).eccBad = s.eccBad := rfl
@[simp] theorem State.onField_power (s : State) (f : FieldSt → FieldSt) : (s.onField f).power = s.power := rfl
@[simp] theorem State.onField_time (s : State) (f : FieldSt → FieldSt) : (s.onField f).time = s.time := rfl
@[simp] theorem State.onField_stage (s : State) (f : FieldSt → FieldSt) : (s.onField f).stage = s.stage := rfl
@[simp] theorem State.onField_host (s : State) (f : FieldSt → FieldSt) : (s.onField f).host = s.host := rfl
@[simp] theorem State.onField_mgr (s : State) (f : FieldSt → FieldSt) : (s.onField f).mgr = s.mgr := rfl
@[simp] theorem State.onField_axes (s : State) (f : FieldSt → FieldSt) : (s.onField f).axes = s.axes := rfl
@[simp] theorem State.onField_drives (s : State) (f : FieldSt → FieldSt) : (s.onField f).drives = s.drives := rfl
@[simp] theorem State.onField_ctxs (s : State) (f : FieldSt → FieldSt) : (s.onField f).ctxs = s.ctxs := rfl
@[simp] theorem State.onField_fbs (s : State) (f : FieldSt → FieldSt) : (s.onField f).fbs = s.fbs := rfl
@[simp] theorem State.onField_mots (s : State) (f : FieldSt → FieldSt) : (s.onField f).mots = s.mots := rfl
@[simp] theorem State.onField_cmps (s : State) (f : FieldSt → FieldSt) : (s.onField f).cmps = s.cmps := rfl
@[simp] theorem State.onField_latches (s : State) (f : FieldSt → FieldSt) : (s.onField f).latches = s.latches := rfl
@[simp] theorem State.onField_groups (s : State) (f : FieldSt → FieldSt) : (s.onField f).groups = s.groups := rfl
@[simp] theorem State.onField_legs (s : State) (f : FieldSt → FieldSt) : (s.onField f).legs = s.legs := rfl
@[simp] theorem State.onField_lanes (s : State) (f : FieldSt → FieldSt) : (s.onField f).lanes = s.lanes := rfl
@[simp] theorem State.onField_ropes (s : State) (f : FieldSt → FieldSt) : (s.onField f).ropes = s.ropes := rfl
@[simp] theorem State.onField_shares (s : State) (f : FieldSt → FieldSt) : (s.onField f).shares = s.shares := rfl
@[simp] theorem State.onField_rescue (s : State) (f : FieldSt → FieldSt) : (s.onField f).rescue = s.rescue := rfl
@[simp] theorem State.onField_chop (s : State) (f : FieldSt → FieldSt) : (s.onField f).chop = s.chop := rfl
@[simp] theorem State.onField_pdie (s : State) (f : FieldSt → FieldSt) : (s.onField f).pdie = s.pdie := rfl
@[simp] theorem State.onField_dma (s : State) (f : FieldSt → FieldSt) : (s.onField f).dma = s.dma := rfl
@[simp] theorem State.onField_dmaLast (s : State) (f : FieldSt → FieldSt) : (s.onField f).dmaLast = s.dmaLast := rfl
@[simp] theorem State.onField_dmaHalted (s : State) (f : FieldSt → FieldSt) : (s.onField f).dmaHalted = s.dmaHalted := rfl
@[simp] theorem State.onField_cans (s : State) (f : FieldSt → FieldSt) : (s.onField f).cans = s.cans := rfl
@[simp] theorem State.onField_dis (s : State) (f : FieldSt → FieldSt) : (s.onField f).dis = s.dis := rfl
@[simp] theorem State.onField_dos (s : State) (f : FieldSt → FieldSt) : (s.onField f).dos = s.dos := rfl
@[simp] theorem State.onField_field (s : State) (f : FieldSt → FieldSt) : (s.onField f).field = f s.field := rfl
@[simp] theorem State.onField_sins (s : State) (f : FieldSt → FieldSt) : (s.onField f).sins = s.sins := rfl
@[simp] theorem State.onField_safety (s : State) (f : FieldSt → FieldSt) : (s.onField f).safety = s.safety := rfl
@[simp] theorem State.onField_trace (s : State) (f : FieldSt → FieldSt) : (s.onField f).trace = s.trace := rfl
@[simp] theorem State.onField_hk (s : State) (f : FieldSt → FieldSt) : (s.onField f).hk = s.hk := rfl
@[simp] theorem State.onField_log (s : State) (f : FieldSt → FieldSt) : (s.onField f).log = s.log := rfl
@[simp] theorem State.onField_chans (s : State) (f : FieldSt → FieldSt) : (s.onField f).chans = s.chans := rfl
@[simp] theorem State.onField_timers (s : State) (f : FieldSt → FieldSt) : (s.onField f).timers = s.timers := rfl
@[simp] theorem State.onField_sched (s : State) (f : FieldSt → FieldSt) : (s.onField f).sched = s.sched := rfl
@[simp] theorem State.onField_precheck (s : State) (f : FieldSt → FieldSt) : (s.onField f).precheck = s.precheck := rfl
@[simp] theorem State.onField_samples (s : State) (f : FieldSt → FieldSt) : (s.onField f).samples = s.samples := rfl
@[simp] theorem State.onField_reps (s : State) (f : FieldSt → FieldSt) : (s.onField f).reps = s.reps := rfl
@[simp] theorem State.onField_free (s : State) (f : FieldSt → FieldSt) : (s.onField f).free = s.free := rfl
@[simp] theorem State.onField_pending (s : State) (f : FieldSt → FieldSt) : (s.onField f).pending = s.pending := rfl

/-! onRescue. -/

@[simp] theorem State.onRescue_regs (s : State) (f : RescueSt → RescueSt) : (s.onRescue f).regs = s.regs := rfl
@[simp] theorem State.onRescue_cfg (s : State) (f : RescueSt → RescueSt) : (s.onRescue f).cfg = s.cfg := rfl
@[simp] theorem State.onRescue_stg (s : State) (f : RescueSt → RescueSt) : (s.onRescue f).stg = s.stg := rfl
@[simp] theorem State.onRescue_mem (s : State) (f : RescueSt → RescueSt) : (s.onRescue f).mem = s.mem := rfl
@[simp] theorem State.onRescue_eccBad (s : State) (f : RescueSt → RescueSt) : (s.onRescue f).eccBad = s.eccBad := rfl
@[simp] theorem State.onRescue_power (s : State) (f : RescueSt → RescueSt) : (s.onRescue f).power = s.power := rfl
@[simp] theorem State.onRescue_time (s : State) (f : RescueSt → RescueSt) : (s.onRescue f).time = s.time := rfl
@[simp] theorem State.onRescue_stage (s : State) (f : RescueSt → RescueSt) : (s.onRescue f).stage = s.stage := rfl
@[simp] theorem State.onRescue_host (s : State) (f : RescueSt → RescueSt) : (s.onRescue f).host = s.host := rfl
@[simp] theorem State.onRescue_mgr (s : State) (f : RescueSt → RescueSt) : (s.onRescue f).mgr = s.mgr := rfl
@[simp] theorem State.onRescue_axes (s : State) (f : RescueSt → RescueSt) : (s.onRescue f).axes = s.axes := rfl
@[simp] theorem State.onRescue_drives (s : State) (f : RescueSt → RescueSt) : (s.onRescue f).drives = s.drives := rfl
@[simp] theorem State.onRescue_ctxs (s : State) (f : RescueSt → RescueSt) : (s.onRescue f).ctxs = s.ctxs := rfl
@[simp] theorem State.onRescue_fbs (s : State) (f : RescueSt → RescueSt) : (s.onRescue f).fbs = s.fbs := rfl
@[simp] theorem State.onRescue_mots (s : State) (f : RescueSt → RescueSt) : (s.onRescue f).mots = s.mots := rfl
@[simp] theorem State.onRescue_cmps (s : State) (f : RescueSt → RescueSt) : (s.onRescue f).cmps = s.cmps := rfl
@[simp] theorem State.onRescue_latches (s : State) (f : RescueSt → RescueSt) : (s.onRescue f).latches = s.latches := rfl
@[simp] theorem State.onRescue_groups (s : State) (f : RescueSt → RescueSt) : (s.onRescue f).groups = s.groups := rfl
@[simp] theorem State.onRescue_legs (s : State) (f : RescueSt → RescueSt) : (s.onRescue f).legs = s.legs := rfl
@[simp] theorem State.onRescue_lanes (s : State) (f : RescueSt → RescueSt) : (s.onRescue f).lanes = s.lanes := rfl
@[simp] theorem State.onRescue_ropes (s : State) (f : RescueSt → RescueSt) : (s.onRescue f).ropes = s.ropes := rfl
@[simp] theorem State.onRescue_shares (s : State) (f : RescueSt → RescueSt) : (s.onRescue f).shares = s.shares := rfl
@[simp] theorem State.onRescue_rescue (s : State) (f : RescueSt → RescueSt) : (s.onRescue f).rescue = f s.rescue := rfl
@[simp] theorem State.onRescue_chop (s : State) (f : RescueSt → RescueSt) : (s.onRescue f).chop = s.chop := rfl
@[simp] theorem State.onRescue_pdie (s : State) (f : RescueSt → RescueSt) : (s.onRescue f).pdie = s.pdie := rfl
@[simp] theorem State.onRescue_dma (s : State) (f : RescueSt → RescueSt) : (s.onRescue f).dma = s.dma := rfl
@[simp] theorem State.onRescue_dmaLast (s : State) (f : RescueSt → RescueSt) : (s.onRescue f).dmaLast = s.dmaLast := rfl
@[simp] theorem State.onRescue_dmaHalted (s : State) (f : RescueSt → RescueSt) : (s.onRescue f).dmaHalted = s.dmaHalted := rfl
@[simp] theorem State.onRescue_cans (s : State) (f : RescueSt → RescueSt) : (s.onRescue f).cans = s.cans := rfl
@[simp] theorem State.onRescue_dis (s : State) (f : RescueSt → RescueSt) : (s.onRescue f).dis = s.dis := rfl
@[simp] theorem State.onRescue_dos (s : State) (f : RescueSt → RescueSt) : (s.onRescue f).dos = s.dos := rfl
@[simp] theorem State.onRescue_field (s : State) (f : RescueSt → RescueSt) : (s.onRescue f).field = s.field := rfl
@[simp] theorem State.onRescue_sins (s : State) (f : RescueSt → RescueSt) : (s.onRescue f).sins = s.sins := rfl
@[simp] theorem State.onRescue_safety (s : State) (f : RescueSt → RescueSt) : (s.onRescue f).safety = s.safety := rfl
@[simp] theorem State.onRescue_trace (s : State) (f : RescueSt → RescueSt) : (s.onRescue f).trace = s.trace := rfl
@[simp] theorem State.onRescue_hk (s : State) (f : RescueSt → RescueSt) : (s.onRescue f).hk = s.hk := rfl
@[simp] theorem State.onRescue_log (s : State) (f : RescueSt → RescueSt) : (s.onRescue f).log = s.log := rfl
@[simp] theorem State.onRescue_chans (s : State) (f : RescueSt → RescueSt) : (s.onRescue f).chans = s.chans := rfl
@[simp] theorem State.onRescue_timers (s : State) (f : RescueSt → RescueSt) : (s.onRescue f).timers = s.timers := rfl
@[simp] theorem State.onRescue_sched (s : State) (f : RescueSt → RescueSt) : (s.onRescue f).sched = s.sched := rfl
@[simp] theorem State.onRescue_precheck (s : State) (f : RescueSt → RescueSt) : (s.onRescue f).precheck = s.precheck := rfl
@[simp] theorem State.onRescue_samples (s : State) (f : RescueSt → RescueSt) : (s.onRescue f).samples = s.samples := rfl
@[simp] theorem State.onRescue_reps (s : State) (f : RescueSt → RescueSt) : (s.onRescue f).reps = s.reps := rfl
@[simp] theorem State.onRescue_free (s : State) (f : RescueSt → RescueSt) : (s.onRescue f).free = s.free := rfl
@[simp] theorem State.onRescue_pending (s : State) (f : RescueSt → RescueSt) : (s.onRescue f).pending = s.pending := rfl

/-! onChop. -/

@[simp] theorem State.onChop_regs (s : State) (f : ChopSt → ChopSt) : (s.onChop f).regs = s.regs := rfl
@[simp] theorem State.onChop_cfg (s : State) (f : ChopSt → ChopSt) : (s.onChop f).cfg = s.cfg := rfl
@[simp] theorem State.onChop_stg (s : State) (f : ChopSt → ChopSt) : (s.onChop f).stg = s.stg := rfl
@[simp] theorem State.onChop_mem (s : State) (f : ChopSt → ChopSt) : (s.onChop f).mem = s.mem := rfl
@[simp] theorem State.onChop_eccBad (s : State) (f : ChopSt → ChopSt) : (s.onChop f).eccBad = s.eccBad := rfl
@[simp] theorem State.onChop_power (s : State) (f : ChopSt → ChopSt) : (s.onChop f).power = s.power := rfl
@[simp] theorem State.onChop_time (s : State) (f : ChopSt → ChopSt) : (s.onChop f).time = s.time := rfl
@[simp] theorem State.onChop_stage (s : State) (f : ChopSt → ChopSt) : (s.onChop f).stage = s.stage := rfl
@[simp] theorem State.onChop_host (s : State) (f : ChopSt → ChopSt) : (s.onChop f).host = s.host := rfl
@[simp] theorem State.onChop_mgr (s : State) (f : ChopSt → ChopSt) : (s.onChop f).mgr = s.mgr := rfl
@[simp] theorem State.onChop_axes (s : State) (f : ChopSt → ChopSt) : (s.onChop f).axes = s.axes := rfl
@[simp] theorem State.onChop_drives (s : State) (f : ChopSt → ChopSt) : (s.onChop f).drives = s.drives := rfl
@[simp] theorem State.onChop_ctxs (s : State) (f : ChopSt → ChopSt) : (s.onChop f).ctxs = s.ctxs := rfl
@[simp] theorem State.onChop_fbs (s : State) (f : ChopSt → ChopSt) : (s.onChop f).fbs = s.fbs := rfl
@[simp] theorem State.onChop_mots (s : State) (f : ChopSt → ChopSt) : (s.onChop f).mots = s.mots := rfl
@[simp] theorem State.onChop_cmps (s : State) (f : ChopSt → ChopSt) : (s.onChop f).cmps = s.cmps := rfl
@[simp] theorem State.onChop_latches (s : State) (f : ChopSt → ChopSt) : (s.onChop f).latches = s.latches := rfl
@[simp] theorem State.onChop_groups (s : State) (f : ChopSt → ChopSt) : (s.onChop f).groups = s.groups := rfl
@[simp] theorem State.onChop_legs (s : State) (f : ChopSt → ChopSt) : (s.onChop f).legs = s.legs := rfl
@[simp] theorem State.onChop_lanes (s : State) (f : ChopSt → ChopSt) : (s.onChop f).lanes = s.lanes := rfl
@[simp] theorem State.onChop_ropes (s : State) (f : ChopSt → ChopSt) : (s.onChop f).ropes = s.ropes := rfl
@[simp] theorem State.onChop_shares (s : State) (f : ChopSt → ChopSt) : (s.onChop f).shares = s.shares := rfl
@[simp] theorem State.onChop_rescue (s : State) (f : ChopSt → ChopSt) : (s.onChop f).rescue = s.rescue := rfl
@[simp] theorem State.onChop_chop (s : State) (f : ChopSt → ChopSt) : (s.onChop f).chop = f s.chop := rfl
@[simp] theorem State.onChop_pdie (s : State) (f : ChopSt → ChopSt) : (s.onChop f).pdie = s.pdie := rfl
@[simp] theorem State.onChop_dma (s : State) (f : ChopSt → ChopSt) : (s.onChop f).dma = s.dma := rfl
@[simp] theorem State.onChop_dmaLast (s : State) (f : ChopSt → ChopSt) : (s.onChop f).dmaLast = s.dmaLast := rfl
@[simp] theorem State.onChop_dmaHalted (s : State) (f : ChopSt → ChopSt) : (s.onChop f).dmaHalted = s.dmaHalted := rfl
@[simp] theorem State.onChop_cans (s : State) (f : ChopSt → ChopSt) : (s.onChop f).cans = s.cans := rfl
@[simp] theorem State.onChop_dis (s : State) (f : ChopSt → ChopSt) : (s.onChop f).dis = s.dis := rfl
@[simp] theorem State.onChop_dos (s : State) (f : ChopSt → ChopSt) : (s.onChop f).dos = s.dos := rfl
@[simp] theorem State.onChop_field (s : State) (f : ChopSt → ChopSt) : (s.onChop f).field = s.field := rfl
@[simp] theorem State.onChop_sins (s : State) (f : ChopSt → ChopSt) : (s.onChop f).sins = s.sins := rfl
@[simp] theorem State.onChop_safety (s : State) (f : ChopSt → ChopSt) : (s.onChop f).safety = s.safety := rfl
@[simp] theorem State.onChop_trace (s : State) (f : ChopSt → ChopSt) : (s.onChop f).trace = s.trace := rfl
@[simp] theorem State.onChop_hk (s : State) (f : ChopSt → ChopSt) : (s.onChop f).hk = s.hk := rfl
@[simp] theorem State.onChop_log (s : State) (f : ChopSt → ChopSt) : (s.onChop f).log = s.log := rfl
@[simp] theorem State.onChop_chans (s : State) (f : ChopSt → ChopSt) : (s.onChop f).chans = s.chans := rfl
@[simp] theorem State.onChop_timers (s : State) (f : ChopSt → ChopSt) : (s.onChop f).timers = s.timers := rfl
@[simp] theorem State.onChop_sched (s : State) (f : ChopSt → ChopSt) : (s.onChop f).sched = s.sched := rfl
@[simp] theorem State.onChop_precheck (s : State) (f : ChopSt → ChopSt) : (s.onChop f).precheck = s.precheck := rfl
@[simp] theorem State.onChop_samples (s : State) (f : ChopSt → ChopSt) : (s.onChop f).samples = s.samples := rfl
@[simp] theorem State.onChop_reps (s : State) (f : ChopSt → ChopSt) : (s.onChop f).reps = s.reps := rfl
@[simp] theorem State.onChop_free (s : State) (f : ChopSt → ChopSt) : (s.onChop f).free = s.free := rfl
@[simp] theorem State.onChop_pending (s : State) (f : ChopSt → ChopSt) : (s.onChop f).pending = s.pending := rfl

/-! onPdie. -/

@[simp] theorem State.onPdie_regs (s : State) (f : PowerDieSt → PowerDieSt) : (s.onPdie f).regs = s.regs := rfl
@[simp] theorem State.onPdie_cfg (s : State) (f : PowerDieSt → PowerDieSt) : (s.onPdie f).cfg = s.cfg := rfl
@[simp] theorem State.onPdie_stg (s : State) (f : PowerDieSt → PowerDieSt) : (s.onPdie f).stg = s.stg := rfl
@[simp] theorem State.onPdie_mem (s : State) (f : PowerDieSt → PowerDieSt) : (s.onPdie f).mem = s.mem := rfl
@[simp] theorem State.onPdie_eccBad (s : State) (f : PowerDieSt → PowerDieSt) : (s.onPdie f).eccBad = s.eccBad := rfl
@[simp] theorem State.onPdie_power (s : State) (f : PowerDieSt → PowerDieSt) : (s.onPdie f).power = s.power := rfl
@[simp] theorem State.onPdie_time (s : State) (f : PowerDieSt → PowerDieSt) : (s.onPdie f).time = s.time := rfl
@[simp] theorem State.onPdie_stage (s : State) (f : PowerDieSt → PowerDieSt) : (s.onPdie f).stage = s.stage := rfl
@[simp] theorem State.onPdie_host (s : State) (f : PowerDieSt → PowerDieSt) : (s.onPdie f).host = s.host := rfl
@[simp] theorem State.onPdie_mgr (s : State) (f : PowerDieSt → PowerDieSt) : (s.onPdie f).mgr = s.mgr := rfl
@[simp] theorem State.onPdie_axes (s : State) (f : PowerDieSt → PowerDieSt) : (s.onPdie f).axes = s.axes := rfl
@[simp] theorem State.onPdie_drives (s : State) (f : PowerDieSt → PowerDieSt) : (s.onPdie f).drives = s.drives := rfl
@[simp] theorem State.onPdie_ctxs (s : State) (f : PowerDieSt → PowerDieSt) : (s.onPdie f).ctxs = s.ctxs := rfl
@[simp] theorem State.onPdie_fbs (s : State) (f : PowerDieSt → PowerDieSt) : (s.onPdie f).fbs = s.fbs := rfl
@[simp] theorem State.onPdie_mots (s : State) (f : PowerDieSt → PowerDieSt) : (s.onPdie f).mots = s.mots := rfl
@[simp] theorem State.onPdie_cmps (s : State) (f : PowerDieSt → PowerDieSt) : (s.onPdie f).cmps = s.cmps := rfl
@[simp] theorem State.onPdie_latches (s : State) (f : PowerDieSt → PowerDieSt) : (s.onPdie f).latches = s.latches := rfl
@[simp] theorem State.onPdie_groups (s : State) (f : PowerDieSt → PowerDieSt) : (s.onPdie f).groups = s.groups := rfl
@[simp] theorem State.onPdie_legs (s : State) (f : PowerDieSt → PowerDieSt) : (s.onPdie f).legs = s.legs := rfl
@[simp] theorem State.onPdie_lanes (s : State) (f : PowerDieSt → PowerDieSt) : (s.onPdie f).lanes = s.lanes := rfl
@[simp] theorem State.onPdie_ropes (s : State) (f : PowerDieSt → PowerDieSt) : (s.onPdie f).ropes = s.ropes := rfl
@[simp] theorem State.onPdie_shares (s : State) (f : PowerDieSt → PowerDieSt) : (s.onPdie f).shares = s.shares := rfl
@[simp] theorem State.onPdie_rescue (s : State) (f : PowerDieSt → PowerDieSt) : (s.onPdie f).rescue = s.rescue := rfl
@[simp] theorem State.onPdie_chop (s : State) (f : PowerDieSt → PowerDieSt) : (s.onPdie f).chop = s.chop := rfl
@[simp] theorem State.onPdie_pdie (s : State) (f : PowerDieSt → PowerDieSt) : (s.onPdie f).pdie = f s.pdie := rfl
@[simp] theorem State.onPdie_dma (s : State) (f : PowerDieSt → PowerDieSt) : (s.onPdie f).dma = s.dma := rfl
@[simp] theorem State.onPdie_dmaLast (s : State) (f : PowerDieSt → PowerDieSt) : (s.onPdie f).dmaLast = s.dmaLast := rfl
@[simp] theorem State.onPdie_dmaHalted (s : State) (f : PowerDieSt → PowerDieSt) : (s.onPdie f).dmaHalted = s.dmaHalted := rfl
@[simp] theorem State.onPdie_cans (s : State) (f : PowerDieSt → PowerDieSt) : (s.onPdie f).cans = s.cans := rfl
@[simp] theorem State.onPdie_dis (s : State) (f : PowerDieSt → PowerDieSt) : (s.onPdie f).dis = s.dis := rfl
@[simp] theorem State.onPdie_dos (s : State) (f : PowerDieSt → PowerDieSt) : (s.onPdie f).dos = s.dos := rfl
@[simp] theorem State.onPdie_field (s : State) (f : PowerDieSt → PowerDieSt) : (s.onPdie f).field = s.field := rfl
@[simp] theorem State.onPdie_sins (s : State) (f : PowerDieSt → PowerDieSt) : (s.onPdie f).sins = s.sins := rfl
@[simp] theorem State.onPdie_safety (s : State) (f : PowerDieSt → PowerDieSt) : (s.onPdie f).safety = s.safety := rfl
@[simp] theorem State.onPdie_trace (s : State) (f : PowerDieSt → PowerDieSt) : (s.onPdie f).trace = s.trace := rfl
@[simp] theorem State.onPdie_hk (s : State) (f : PowerDieSt → PowerDieSt) : (s.onPdie f).hk = s.hk := rfl
@[simp] theorem State.onPdie_log (s : State) (f : PowerDieSt → PowerDieSt) : (s.onPdie f).log = s.log := rfl
@[simp] theorem State.onPdie_chans (s : State) (f : PowerDieSt → PowerDieSt) : (s.onPdie f).chans = s.chans := rfl
@[simp] theorem State.onPdie_timers (s : State) (f : PowerDieSt → PowerDieSt) : (s.onPdie f).timers = s.timers := rfl
@[simp] theorem State.onPdie_sched (s : State) (f : PowerDieSt → PowerDieSt) : (s.onPdie f).sched = s.sched := rfl
@[simp] theorem State.onPdie_precheck (s : State) (f : PowerDieSt → PowerDieSt) : (s.onPdie f).precheck = s.precheck := rfl
@[simp] theorem State.onPdie_samples (s : State) (f : PowerDieSt → PowerDieSt) : (s.onPdie f).samples = s.samples := rfl
@[simp] theorem State.onPdie_reps (s : State) (f : PowerDieSt → PowerDieSt) : (s.onPdie f).reps = s.reps := rfl
@[simp] theorem State.onPdie_free (s : State) (f : PowerDieSt → PowerDieSt) : (s.onPdie f).free = s.free := rfl
@[simp] theorem State.onPdie_pending (s : State) (f : PowerDieSt → PowerDieSt) : (s.onPdie f).pending = s.pending := rfl

/-! onTrace. -/

@[simp] theorem State.onTrace_regs (s : State) (f : TraceSt → TraceSt) : (s.onTrace f).regs = s.regs := rfl
@[simp] theorem State.onTrace_cfg (s : State) (f : TraceSt → TraceSt) : (s.onTrace f).cfg = s.cfg := rfl
@[simp] theorem State.onTrace_stg (s : State) (f : TraceSt → TraceSt) : (s.onTrace f).stg = s.stg := rfl
@[simp] theorem State.onTrace_mem (s : State) (f : TraceSt → TraceSt) : (s.onTrace f).mem = s.mem := rfl
@[simp] theorem State.onTrace_eccBad (s : State) (f : TraceSt → TraceSt) : (s.onTrace f).eccBad = s.eccBad := rfl
@[simp] theorem State.onTrace_power (s : State) (f : TraceSt → TraceSt) : (s.onTrace f).power = s.power := rfl
@[simp] theorem State.onTrace_time (s : State) (f : TraceSt → TraceSt) : (s.onTrace f).time = s.time := rfl
@[simp] theorem State.onTrace_stage (s : State) (f : TraceSt → TraceSt) : (s.onTrace f).stage = s.stage := rfl
@[simp] theorem State.onTrace_host (s : State) (f : TraceSt → TraceSt) : (s.onTrace f).host = s.host := rfl
@[simp] theorem State.onTrace_mgr (s : State) (f : TraceSt → TraceSt) : (s.onTrace f).mgr = s.mgr := rfl
@[simp] theorem State.onTrace_axes (s : State) (f : TraceSt → TraceSt) : (s.onTrace f).axes = s.axes := rfl
@[simp] theorem State.onTrace_drives (s : State) (f : TraceSt → TraceSt) : (s.onTrace f).drives = s.drives := rfl
@[simp] theorem State.onTrace_ctxs (s : State) (f : TraceSt → TraceSt) : (s.onTrace f).ctxs = s.ctxs := rfl
@[simp] theorem State.onTrace_fbs (s : State) (f : TraceSt → TraceSt) : (s.onTrace f).fbs = s.fbs := rfl
@[simp] theorem State.onTrace_mots (s : State) (f : TraceSt → TraceSt) : (s.onTrace f).mots = s.mots := rfl
@[simp] theorem State.onTrace_cmps (s : State) (f : TraceSt → TraceSt) : (s.onTrace f).cmps = s.cmps := rfl
@[simp] theorem State.onTrace_latches (s : State) (f : TraceSt → TraceSt) : (s.onTrace f).latches = s.latches := rfl
@[simp] theorem State.onTrace_groups (s : State) (f : TraceSt → TraceSt) : (s.onTrace f).groups = s.groups := rfl
@[simp] theorem State.onTrace_legs (s : State) (f : TraceSt → TraceSt) : (s.onTrace f).legs = s.legs := rfl
@[simp] theorem State.onTrace_lanes (s : State) (f : TraceSt → TraceSt) : (s.onTrace f).lanes = s.lanes := rfl
@[simp] theorem State.onTrace_ropes (s : State) (f : TraceSt → TraceSt) : (s.onTrace f).ropes = s.ropes := rfl
@[simp] theorem State.onTrace_shares (s : State) (f : TraceSt → TraceSt) : (s.onTrace f).shares = s.shares := rfl
@[simp] theorem State.onTrace_rescue (s : State) (f : TraceSt → TraceSt) : (s.onTrace f).rescue = s.rescue := rfl
@[simp] theorem State.onTrace_chop (s : State) (f : TraceSt → TraceSt) : (s.onTrace f).chop = s.chop := rfl
@[simp] theorem State.onTrace_pdie (s : State) (f : TraceSt → TraceSt) : (s.onTrace f).pdie = s.pdie := rfl
@[simp] theorem State.onTrace_dma (s : State) (f : TraceSt → TraceSt) : (s.onTrace f).dma = s.dma := rfl
@[simp] theorem State.onTrace_dmaLast (s : State) (f : TraceSt → TraceSt) : (s.onTrace f).dmaLast = s.dmaLast := rfl
@[simp] theorem State.onTrace_dmaHalted (s : State) (f : TraceSt → TraceSt) : (s.onTrace f).dmaHalted = s.dmaHalted := rfl
@[simp] theorem State.onTrace_cans (s : State) (f : TraceSt → TraceSt) : (s.onTrace f).cans = s.cans := rfl
@[simp] theorem State.onTrace_dis (s : State) (f : TraceSt → TraceSt) : (s.onTrace f).dis = s.dis := rfl
@[simp] theorem State.onTrace_dos (s : State) (f : TraceSt → TraceSt) : (s.onTrace f).dos = s.dos := rfl
@[simp] theorem State.onTrace_field (s : State) (f : TraceSt → TraceSt) : (s.onTrace f).field = s.field := rfl
@[simp] theorem State.onTrace_sins (s : State) (f : TraceSt → TraceSt) : (s.onTrace f).sins = s.sins := rfl
@[simp] theorem State.onTrace_safety (s : State) (f : TraceSt → TraceSt) : (s.onTrace f).safety = s.safety := rfl
@[simp] theorem State.onTrace_trace (s : State) (f : TraceSt → TraceSt) : (s.onTrace f).trace = f s.trace := rfl
@[simp] theorem State.onTrace_hk (s : State) (f : TraceSt → TraceSt) : (s.onTrace f).hk = s.hk := rfl
@[simp] theorem State.onTrace_log (s : State) (f : TraceSt → TraceSt) : (s.onTrace f).log = s.log := rfl
@[simp] theorem State.onTrace_chans (s : State) (f : TraceSt → TraceSt) : (s.onTrace f).chans = s.chans := rfl
@[simp] theorem State.onTrace_timers (s : State) (f : TraceSt → TraceSt) : (s.onTrace f).timers = s.timers := rfl
@[simp] theorem State.onTrace_sched (s : State) (f : TraceSt → TraceSt) : (s.onTrace f).sched = s.sched := rfl
@[simp] theorem State.onTrace_precheck (s : State) (f : TraceSt → TraceSt) : (s.onTrace f).precheck = s.precheck := rfl
@[simp] theorem State.onTrace_samples (s : State) (f : TraceSt → TraceSt) : (s.onTrace f).samples = s.samples := rfl
@[simp] theorem State.onTrace_reps (s : State) (f : TraceSt → TraceSt) : (s.onTrace f).reps = s.reps := rfl
@[simp] theorem State.onTrace_free (s : State) (f : TraceSt → TraceSt) : (s.onTrace f).free = s.free := rfl
@[simp] theorem State.onTrace_pending (s : State) (f : TraceSt → TraceSt) : (s.onTrace f).pending = s.pending := rfl

/-! onHk. -/

@[simp] theorem State.onHk_regs (s : State) (f : HkSt → HkSt) : (s.onHk f).regs = s.regs := rfl
@[simp] theorem State.onHk_cfg (s : State) (f : HkSt → HkSt) : (s.onHk f).cfg = s.cfg := rfl
@[simp] theorem State.onHk_stg (s : State) (f : HkSt → HkSt) : (s.onHk f).stg = s.stg := rfl
@[simp] theorem State.onHk_mem (s : State) (f : HkSt → HkSt) : (s.onHk f).mem = s.mem := rfl
@[simp] theorem State.onHk_eccBad (s : State) (f : HkSt → HkSt) : (s.onHk f).eccBad = s.eccBad := rfl
@[simp] theorem State.onHk_power (s : State) (f : HkSt → HkSt) : (s.onHk f).power = s.power := rfl
@[simp] theorem State.onHk_time (s : State) (f : HkSt → HkSt) : (s.onHk f).time = s.time := rfl
@[simp] theorem State.onHk_stage (s : State) (f : HkSt → HkSt) : (s.onHk f).stage = s.stage := rfl
@[simp] theorem State.onHk_host (s : State) (f : HkSt → HkSt) : (s.onHk f).host = s.host := rfl
@[simp] theorem State.onHk_mgr (s : State) (f : HkSt → HkSt) : (s.onHk f).mgr = s.mgr := rfl
@[simp] theorem State.onHk_axes (s : State) (f : HkSt → HkSt) : (s.onHk f).axes = s.axes := rfl
@[simp] theorem State.onHk_drives (s : State) (f : HkSt → HkSt) : (s.onHk f).drives = s.drives := rfl
@[simp] theorem State.onHk_ctxs (s : State) (f : HkSt → HkSt) : (s.onHk f).ctxs = s.ctxs := rfl
@[simp] theorem State.onHk_fbs (s : State) (f : HkSt → HkSt) : (s.onHk f).fbs = s.fbs := rfl
@[simp] theorem State.onHk_mots (s : State) (f : HkSt → HkSt) : (s.onHk f).mots = s.mots := rfl
@[simp] theorem State.onHk_cmps (s : State) (f : HkSt → HkSt) : (s.onHk f).cmps = s.cmps := rfl
@[simp] theorem State.onHk_latches (s : State) (f : HkSt → HkSt) : (s.onHk f).latches = s.latches := rfl
@[simp] theorem State.onHk_groups (s : State) (f : HkSt → HkSt) : (s.onHk f).groups = s.groups := rfl
@[simp] theorem State.onHk_legs (s : State) (f : HkSt → HkSt) : (s.onHk f).legs = s.legs := rfl
@[simp] theorem State.onHk_lanes (s : State) (f : HkSt → HkSt) : (s.onHk f).lanes = s.lanes := rfl
@[simp] theorem State.onHk_ropes (s : State) (f : HkSt → HkSt) : (s.onHk f).ropes = s.ropes := rfl
@[simp] theorem State.onHk_shares (s : State) (f : HkSt → HkSt) : (s.onHk f).shares = s.shares := rfl
@[simp] theorem State.onHk_rescue (s : State) (f : HkSt → HkSt) : (s.onHk f).rescue = s.rescue := rfl
@[simp] theorem State.onHk_chop (s : State) (f : HkSt → HkSt) : (s.onHk f).chop = s.chop := rfl
@[simp] theorem State.onHk_pdie (s : State) (f : HkSt → HkSt) : (s.onHk f).pdie = s.pdie := rfl
@[simp] theorem State.onHk_dma (s : State) (f : HkSt → HkSt) : (s.onHk f).dma = s.dma := rfl
@[simp] theorem State.onHk_dmaLast (s : State) (f : HkSt → HkSt) : (s.onHk f).dmaLast = s.dmaLast := rfl
@[simp] theorem State.onHk_dmaHalted (s : State) (f : HkSt → HkSt) : (s.onHk f).dmaHalted = s.dmaHalted := rfl
@[simp] theorem State.onHk_cans (s : State) (f : HkSt → HkSt) : (s.onHk f).cans = s.cans := rfl
@[simp] theorem State.onHk_dis (s : State) (f : HkSt → HkSt) : (s.onHk f).dis = s.dis := rfl
@[simp] theorem State.onHk_dos (s : State) (f : HkSt → HkSt) : (s.onHk f).dos = s.dos := rfl
@[simp] theorem State.onHk_field (s : State) (f : HkSt → HkSt) : (s.onHk f).field = s.field := rfl
@[simp] theorem State.onHk_sins (s : State) (f : HkSt → HkSt) : (s.onHk f).sins = s.sins := rfl
@[simp] theorem State.onHk_safety (s : State) (f : HkSt → HkSt) : (s.onHk f).safety = s.safety := rfl
@[simp] theorem State.onHk_trace (s : State) (f : HkSt → HkSt) : (s.onHk f).trace = s.trace := rfl
@[simp] theorem State.onHk_hk (s : State) (f : HkSt → HkSt) : (s.onHk f).hk = f s.hk := rfl
@[simp] theorem State.onHk_log (s : State) (f : HkSt → HkSt) : (s.onHk f).log = s.log := rfl
@[simp] theorem State.onHk_chans (s : State) (f : HkSt → HkSt) : (s.onHk f).chans = s.chans := rfl
@[simp] theorem State.onHk_timers (s : State) (f : HkSt → HkSt) : (s.onHk f).timers = s.timers := rfl
@[simp] theorem State.onHk_sched (s : State) (f : HkSt → HkSt) : (s.onHk f).sched = s.sched := rfl
@[simp] theorem State.onHk_precheck (s : State) (f : HkSt → HkSt) : (s.onHk f).precheck = s.precheck := rfl
@[simp] theorem State.onHk_samples (s : State) (f : HkSt → HkSt) : (s.onHk f).samples = s.samples := rfl
@[simp] theorem State.onHk_reps (s : State) (f : HkSt → HkSt) : (s.onHk f).reps = s.reps := rfl
@[simp] theorem State.onHk_free (s : State) (f : HkSt → HkSt) : (s.onHk f).free = s.free := rfl
@[simp] theorem State.onHk_pending (s : State) (f : HkSt → HkSt) : (s.onHk f).pending = s.pending := rfl

/-! onLog. -/

@[simp] theorem State.onLog_regs (s : State) (f : LogSt → LogSt) : (s.onLog f).regs = s.regs := rfl
@[simp] theorem State.onLog_cfg (s : State) (f : LogSt → LogSt) : (s.onLog f).cfg = s.cfg := rfl
@[simp] theorem State.onLog_stg (s : State) (f : LogSt → LogSt) : (s.onLog f).stg = s.stg := rfl
@[simp] theorem State.onLog_mem (s : State) (f : LogSt → LogSt) : (s.onLog f).mem = s.mem := rfl
@[simp] theorem State.onLog_eccBad (s : State) (f : LogSt → LogSt) : (s.onLog f).eccBad = s.eccBad := rfl
@[simp] theorem State.onLog_power (s : State) (f : LogSt → LogSt) : (s.onLog f).power = s.power := rfl
@[simp] theorem State.onLog_time (s : State) (f : LogSt → LogSt) : (s.onLog f).time = s.time := rfl
@[simp] theorem State.onLog_stage (s : State) (f : LogSt → LogSt) : (s.onLog f).stage = s.stage := rfl
@[simp] theorem State.onLog_host (s : State) (f : LogSt → LogSt) : (s.onLog f).host = s.host := rfl
@[simp] theorem State.onLog_mgr (s : State) (f : LogSt → LogSt) : (s.onLog f).mgr = s.mgr := rfl
@[simp] theorem State.onLog_axes (s : State) (f : LogSt → LogSt) : (s.onLog f).axes = s.axes := rfl
@[simp] theorem State.onLog_drives (s : State) (f : LogSt → LogSt) : (s.onLog f).drives = s.drives := rfl
@[simp] theorem State.onLog_ctxs (s : State) (f : LogSt → LogSt) : (s.onLog f).ctxs = s.ctxs := rfl
@[simp] theorem State.onLog_fbs (s : State) (f : LogSt → LogSt) : (s.onLog f).fbs = s.fbs := rfl
@[simp] theorem State.onLog_mots (s : State) (f : LogSt → LogSt) : (s.onLog f).mots = s.mots := rfl
@[simp] theorem State.onLog_cmps (s : State) (f : LogSt → LogSt) : (s.onLog f).cmps = s.cmps := rfl
@[simp] theorem State.onLog_latches (s : State) (f : LogSt → LogSt) : (s.onLog f).latches = s.latches := rfl
@[simp] theorem State.onLog_groups (s : State) (f : LogSt → LogSt) : (s.onLog f).groups = s.groups := rfl
@[simp] theorem State.onLog_legs (s : State) (f : LogSt → LogSt) : (s.onLog f).legs = s.legs := rfl
@[simp] theorem State.onLog_lanes (s : State) (f : LogSt → LogSt) : (s.onLog f).lanes = s.lanes := rfl
@[simp] theorem State.onLog_ropes (s : State) (f : LogSt → LogSt) : (s.onLog f).ropes = s.ropes := rfl
@[simp] theorem State.onLog_shares (s : State) (f : LogSt → LogSt) : (s.onLog f).shares = s.shares := rfl
@[simp] theorem State.onLog_rescue (s : State) (f : LogSt → LogSt) : (s.onLog f).rescue = s.rescue := rfl
@[simp] theorem State.onLog_chop (s : State) (f : LogSt → LogSt) : (s.onLog f).chop = s.chop := rfl
@[simp] theorem State.onLog_pdie (s : State) (f : LogSt → LogSt) : (s.onLog f).pdie = s.pdie := rfl
@[simp] theorem State.onLog_dma (s : State) (f : LogSt → LogSt) : (s.onLog f).dma = s.dma := rfl
@[simp] theorem State.onLog_dmaLast (s : State) (f : LogSt → LogSt) : (s.onLog f).dmaLast = s.dmaLast := rfl
@[simp] theorem State.onLog_dmaHalted (s : State) (f : LogSt → LogSt) : (s.onLog f).dmaHalted = s.dmaHalted := rfl
@[simp] theorem State.onLog_cans (s : State) (f : LogSt → LogSt) : (s.onLog f).cans = s.cans := rfl
@[simp] theorem State.onLog_dis (s : State) (f : LogSt → LogSt) : (s.onLog f).dis = s.dis := rfl
@[simp] theorem State.onLog_dos (s : State) (f : LogSt → LogSt) : (s.onLog f).dos = s.dos := rfl
@[simp] theorem State.onLog_field (s : State) (f : LogSt → LogSt) : (s.onLog f).field = s.field := rfl
@[simp] theorem State.onLog_sins (s : State) (f : LogSt → LogSt) : (s.onLog f).sins = s.sins := rfl
@[simp] theorem State.onLog_safety (s : State) (f : LogSt → LogSt) : (s.onLog f).safety = s.safety := rfl
@[simp] theorem State.onLog_trace (s : State) (f : LogSt → LogSt) : (s.onLog f).trace = s.trace := rfl
@[simp] theorem State.onLog_hk (s : State) (f : LogSt → LogSt) : (s.onLog f).hk = s.hk := rfl
@[simp] theorem State.onLog_log (s : State) (f : LogSt → LogSt) : (s.onLog f).log = f s.log := rfl
@[simp] theorem State.onLog_chans (s : State) (f : LogSt → LogSt) : (s.onLog f).chans = s.chans := rfl
@[simp] theorem State.onLog_timers (s : State) (f : LogSt → LogSt) : (s.onLog f).timers = s.timers := rfl
@[simp] theorem State.onLog_sched (s : State) (f : LogSt → LogSt) : (s.onLog f).sched = s.sched := rfl
@[simp] theorem State.onLog_precheck (s : State) (f : LogSt → LogSt) : (s.onLog f).precheck = s.precheck := rfl
@[simp] theorem State.onLog_samples (s : State) (f : LogSt → LogSt) : (s.onLog f).samples = s.samples := rfl
@[simp] theorem State.onLog_reps (s : State) (f : LogSt → LogSt) : (s.onLog f).reps = s.reps := rfl
@[simp] theorem State.onLog_free (s : State) (f : LogSt → LogSt) : (s.onLog f).free = s.free := rfl
@[simp] theorem State.onLog_pending (s : State) (f : LogSt → LogSt) : (s.onLog f).pending = s.pending := rfl

/-! setLv. -/

@[simp] theorem State.setLv_regs (s : State) (p o : Nat) (v : Word) : (s.setLv p o v).regs = mapSet s.regs (regAddr p o) v (regReset p o) := rfl
@[simp] theorem State.setLv_cfg (s : State) (p o : Nat) (v : Word) : (s.setLv p o v).cfg = s.cfg := rfl
@[simp] theorem State.setLv_stg (s : State) (p o : Nat) (v : Word) : (s.setLv p o v).stg = s.stg := rfl
@[simp] theorem State.setLv_mem (s : State) (p o : Nat) (v : Word) : (s.setLv p o v).mem = s.mem := rfl
@[simp] theorem State.setLv_eccBad (s : State) (p o : Nat) (v : Word) : (s.setLv p o v).eccBad = s.eccBad := rfl
@[simp] theorem State.setLv_power (s : State) (p o : Nat) (v : Word) : (s.setLv p o v).power = s.power := rfl
@[simp] theorem State.setLv_time (s : State) (p o : Nat) (v : Word) : (s.setLv p o v).time = s.time := rfl
@[simp] theorem State.setLv_stage (s : State) (p o : Nat) (v : Word) : (s.setLv p o v).stage = s.stage := rfl
@[simp] theorem State.setLv_host (s : State) (p o : Nat) (v : Word) : (s.setLv p o v).host = s.host := rfl
@[simp] theorem State.setLv_mgr (s : State) (p o : Nat) (v : Word) : (s.setLv p o v).mgr = s.mgr := rfl
@[simp] theorem State.setLv_axes (s : State) (p o : Nat) (v : Word) : (s.setLv p o v).axes = s.axes := rfl
@[simp] theorem State.setLv_drives (s : State) (p o : Nat) (v : Word) : (s.setLv p o v).drives = s.drives := rfl
@[simp] theorem State.setLv_ctxs (s : State) (p o : Nat) (v : Word) : (s.setLv p o v).ctxs = s.ctxs := rfl
@[simp] theorem State.setLv_fbs (s : State) (p o : Nat) (v : Word) : (s.setLv p o v).fbs = s.fbs := rfl
@[simp] theorem State.setLv_mots (s : State) (p o : Nat) (v : Word) : (s.setLv p o v).mots = s.mots := rfl
@[simp] theorem State.setLv_cmps (s : State) (p o : Nat) (v : Word) : (s.setLv p o v).cmps = s.cmps := rfl
@[simp] theorem State.setLv_latches (s : State) (p o : Nat) (v : Word) : (s.setLv p o v).latches = s.latches := rfl
@[simp] theorem State.setLv_groups (s : State) (p o : Nat) (v : Word) : (s.setLv p o v).groups = s.groups := rfl
@[simp] theorem State.setLv_legs (s : State) (p o : Nat) (v : Word) : (s.setLv p o v).legs = s.legs := rfl
@[simp] theorem State.setLv_lanes (s : State) (p o : Nat) (v : Word) : (s.setLv p o v).lanes = s.lanes := rfl
@[simp] theorem State.setLv_ropes (s : State) (p o : Nat) (v : Word) : (s.setLv p o v).ropes = s.ropes := rfl
@[simp] theorem State.setLv_shares (s : State) (p o : Nat) (v : Word) : (s.setLv p o v).shares = s.shares := rfl
@[simp] theorem State.setLv_rescue (s : State) (p o : Nat) (v : Word) : (s.setLv p o v).rescue = s.rescue := rfl
@[simp] theorem State.setLv_chop (s : State) (p o : Nat) (v : Word) : (s.setLv p o v).chop = s.chop := rfl
@[simp] theorem State.setLv_pdie (s : State) (p o : Nat) (v : Word) : (s.setLv p o v).pdie = s.pdie := rfl
@[simp] theorem State.setLv_dma (s : State) (p o : Nat) (v : Word) : (s.setLv p o v).dma = s.dma := rfl
@[simp] theorem State.setLv_dmaLast (s : State) (p o : Nat) (v : Word) : (s.setLv p o v).dmaLast = s.dmaLast := rfl
@[simp] theorem State.setLv_dmaHalted (s : State) (p o : Nat) (v : Word) : (s.setLv p o v).dmaHalted = s.dmaHalted := rfl
@[simp] theorem State.setLv_cans (s : State) (p o : Nat) (v : Word) : (s.setLv p o v).cans = s.cans := rfl
@[simp] theorem State.setLv_dis (s : State) (p o : Nat) (v : Word) : (s.setLv p o v).dis = s.dis := rfl
@[simp] theorem State.setLv_dos (s : State) (p o : Nat) (v : Word) : (s.setLv p o v).dos = s.dos := rfl
@[simp] theorem State.setLv_field (s : State) (p o : Nat) (v : Word) : (s.setLv p o v).field = s.field := rfl
@[simp] theorem State.setLv_sins (s : State) (p o : Nat) (v : Word) : (s.setLv p o v).sins = s.sins := rfl
@[simp] theorem State.setLv_safety (s : State) (p o : Nat) (v : Word) : (s.setLv p o v).safety = s.safety := rfl
@[simp] theorem State.setLv_trace (s : State) (p o : Nat) (v : Word) : (s.setLv p o v).trace = s.trace := rfl
@[simp] theorem State.setLv_hk (s : State) (p o : Nat) (v : Word) : (s.setLv p o v).hk = s.hk := rfl
@[simp] theorem State.setLv_log (s : State) (p o : Nat) (v : Word) : (s.setLv p o v).log = s.log := rfl
@[simp] theorem State.setLv_chans (s : State) (p o : Nat) (v : Word) : (s.setLv p o v).chans = s.chans := rfl
@[simp] theorem State.setLv_timers (s : State) (p o : Nat) (v : Word) : (s.setLv p o v).timers = s.timers := rfl
@[simp] theorem State.setLv_sched (s : State) (p o : Nat) (v : Word) : (s.setLv p o v).sched = s.sched := rfl
@[simp] theorem State.setLv_precheck (s : State) (p o : Nat) (v : Word) : (s.setLv p o v).precheck = s.precheck := rfl
@[simp] theorem State.setLv_samples (s : State) (p o : Nat) (v : Word) : (s.setLv p o v).samples = s.samples := rfl
@[simp] theorem State.setLv_reps (s : State) (p o : Nat) (v : Word) : (s.setLv p o v).reps = s.reps := rfl
@[simp] theorem State.setLv_free (s : State) (p o : Nat) (v : Word) : (s.setLv p o v).free = s.free := rfl
@[simp] theorem State.setLv_pending (s : State) (p o : Nat) (v : Word) : (s.setLv p o v).pending = s.pending := rfl

/-! setCf. -/

@[simp] theorem State.setCf_regs (s : State) (p o : Nat) (v : Word) : (s.setCf p o v).regs = s.regs := rfl
@[simp] theorem State.setCf_cfg (s : State) (p o : Nat) (v : Word) : (s.setCf p o v).cfg = mapSet s.cfg (regAddr p o) v (regReset p o) := rfl
@[simp] theorem State.setCf_stg (s : State) (p o : Nat) (v : Word) : (s.setCf p o v).stg = s.stg := rfl
@[simp] theorem State.setCf_mem (s : State) (p o : Nat) (v : Word) : (s.setCf p o v).mem = s.mem := rfl
@[simp] theorem State.setCf_eccBad (s : State) (p o : Nat) (v : Word) : (s.setCf p o v).eccBad = s.eccBad := rfl
@[simp] theorem State.setCf_power (s : State) (p o : Nat) (v : Word) : (s.setCf p o v).power = s.power := rfl
@[simp] theorem State.setCf_time (s : State) (p o : Nat) (v : Word) : (s.setCf p o v).time = s.time := rfl
@[simp] theorem State.setCf_stage (s : State) (p o : Nat) (v : Word) : (s.setCf p o v).stage = s.stage := rfl
@[simp] theorem State.setCf_host (s : State) (p o : Nat) (v : Word) : (s.setCf p o v).host = s.host := rfl
@[simp] theorem State.setCf_mgr (s : State) (p o : Nat) (v : Word) : (s.setCf p o v).mgr = s.mgr := rfl
@[simp] theorem State.setCf_axes (s : State) (p o : Nat) (v : Word) : (s.setCf p o v).axes = s.axes := rfl
@[simp] theorem State.setCf_drives (s : State) (p o : Nat) (v : Word) : (s.setCf p o v).drives = s.drives := rfl
@[simp] theorem State.setCf_ctxs (s : State) (p o : Nat) (v : Word) : (s.setCf p o v).ctxs = s.ctxs := rfl
@[simp] theorem State.setCf_fbs (s : State) (p o : Nat) (v : Word) : (s.setCf p o v).fbs = s.fbs := rfl
@[simp] theorem State.setCf_mots (s : State) (p o : Nat) (v : Word) : (s.setCf p o v).mots = s.mots := rfl
@[simp] theorem State.setCf_cmps (s : State) (p o : Nat) (v : Word) : (s.setCf p o v).cmps = s.cmps := rfl
@[simp] theorem State.setCf_latches (s : State) (p o : Nat) (v : Word) : (s.setCf p o v).latches = s.latches := rfl
@[simp] theorem State.setCf_groups (s : State) (p o : Nat) (v : Word) : (s.setCf p o v).groups = s.groups := rfl
@[simp] theorem State.setCf_legs (s : State) (p o : Nat) (v : Word) : (s.setCf p o v).legs = s.legs := rfl
@[simp] theorem State.setCf_lanes (s : State) (p o : Nat) (v : Word) : (s.setCf p o v).lanes = s.lanes := rfl
@[simp] theorem State.setCf_ropes (s : State) (p o : Nat) (v : Word) : (s.setCf p o v).ropes = s.ropes := rfl
@[simp] theorem State.setCf_shares (s : State) (p o : Nat) (v : Word) : (s.setCf p o v).shares = s.shares := rfl
@[simp] theorem State.setCf_rescue (s : State) (p o : Nat) (v : Word) : (s.setCf p o v).rescue = s.rescue := rfl
@[simp] theorem State.setCf_chop (s : State) (p o : Nat) (v : Word) : (s.setCf p o v).chop = s.chop := rfl
@[simp] theorem State.setCf_pdie (s : State) (p o : Nat) (v : Word) : (s.setCf p o v).pdie = s.pdie := rfl
@[simp] theorem State.setCf_dma (s : State) (p o : Nat) (v : Word) : (s.setCf p o v).dma = s.dma := rfl
@[simp] theorem State.setCf_dmaLast (s : State) (p o : Nat) (v : Word) : (s.setCf p o v).dmaLast = s.dmaLast := rfl
@[simp] theorem State.setCf_dmaHalted (s : State) (p o : Nat) (v : Word) : (s.setCf p o v).dmaHalted = s.dmaHalted := rfl
@[simp] theorem State.setCf_cans (s : State) (p o : Nat) (v : Word) : (s.setCf p o v).cans = s.cans := rfl
@[simp] theorem State.setCf_dis (s : State) (p o : Nat) (v : Word) : (s.setCf p o v).dis = s.dis := rfl
@[simp] theorem State.setCf_dos (s : State) (p o : Nat) (v : Word) : (s.setCf p o v).dos = s.dos := rfl
@[simp] theorem State.setCf_field (s : State) (p o : Nat) (v : Word) : (s.setCf p o v).field = s.field := rfl
@[simp] theorem State.setCf_sins (s : State) (p o : Nat) (v : Word) : (s.setCf p o v).sins = s.sins := rfl
@[simp] theorem State.setCf_safety (s : State) (p o : Nat) (v : Word) : (s.setCf p o v).safety = s.safety := rfl
@[simp] theorem State.setCf_trace (s : State) (p o : Nat) (v : Word) : (s.setCf p o v).trace = s.trace := rfl
@[simp] theorem State.setCf_hk (s : State) (p o : Nat) (v : Word) : (s.setCf p o v).hk = s.hk := rfl
@[simp] theorem State.setCf_log (s : State) (p o : Nat) (v : Word) : (s.setCf p o v).log = s.log := rfl
@[simp] theorem State.setCf_chans (s : State) (p o : Nat) (v : Word) : (s.setCf p o v).chans = s.chans := rfl
@[simp] theorem State.setCf_timers (s : State) (p o : Nat) (v : Word) : (s.setCf p o v).timers = s.timers := rfl
@[simp] theorem State.setCf_sched (s : State) (p o : Nat) (v : Word) : (s.setCf p o v).sched = s.sched := rfl
@[simp] theorem State.setCf_precheck (s : State) (p o : Nat) (v : Word) : (s.setCf p o v).precheck = s.precheck := rfl
@[simp] theorem State.setCf_samples (s : State) (p o : Nat) (v : Word) : (s.setCf p o v).samples = s.samples := rfl
@[simp] theorem State.setCf_reps (s : State) (p o : Nat) (v : Word) : (s.setCf p o v).reps = s.reps := rfl
@[simp] theorem State.setCf_free (s : State) (p o : Nat) (v : Word) : (s.setCf p o v).free = s.free := rfl
@[simp] theorem State.setCf_pending (s : State) (p o : Nat) (v : Word) : (s.setCf p o v).pending = s.pending := rfl

/-! setCd. -/

@[simp] theorem State.setCd_regs (s : State) (p o : Nat) (v : Word) : (s.setCd p o v).regs = s.regs := rfl
@[simp] theorem State.setCd_cfg (s : State) (p o : Nat) (v : Word) : (s.setCd p o v).cfg = s.cfg := rfl
@[simp] theorem State.setCd_stg (s : State) (p o : Nat) (v : Word) : (s.setCd p o v).stg = mapSet s.stg (regAddr p o) v (s.cf p o) := rfl
@[simp] theorem State.setCd_mem (s : State) (p o : Nat) (v : Word) : (s.setCd p o v).mem = s.mem := rfl
@[simp] theorem State.setCd_eccBad (s : State) (p o : Nat) (v : Word) : (s.setCd p o v).eccBad = s.eccBad := rfl
@[simp] theorem State.setCd_power (s : State) (p o : Nat) (v : Word) : (s.setCd p o v).power = s.power := rfl
@[simp] theorem State.setCd_time (s : State) (p o : Nat) (v : Word) : (s.setCd p o v).time = s.time := rfl
@[simp] theorem State.setCd_stage (s : State) (p o : Nat) (v : Word) : (s.setCd p o v).stage = s.stage := rfl
@[simp] theorem State.setCd_host (s : State) (p o : Nat) (v : Word) : (s.setCd p o v).host = s.host := rfl
@[simp] theorem State.setCd_mgr (s : State) (p o : Nat) (v : Word) : (s.setCd p o v).mgr = s.mgr := rfl
@[simp] theorem State.setCd_axes (s : State) (p o : Nat) (v : Word) : (s.setCd p o v).axes = s.axes := rfl
@[simp] theorem State.setCd_drives (s : State) (p o : Nat) (v : Word) : (s.setCd p o v).drives = s.drives := rfl
@[simp] theorem State.setCd_ctxs (s : State) (p o : Nat) (v : Word) : (s.setCd p o v).ctxs = s.ctxs := rfl
@[simp] theorem State.setCd_fbs (s : State) (p o : Nat) (v : Word) : (s.setCd p o v).fbs = s.fbs := rfl
@[simp] theorem State.setCd_mots (s : State) (p o : Nat) (v : Word) : (s.setCd p o v).mots = s.mots := rfl
@[simp] theorem State.setCd_cmps (s : State) (p o : Nat) (v : Word) : (s.setCd p o v).cmps = s.cmps := rfl
@[simp] theorem State.setCd_latches (s : State) (p o : Nat) (v : Word) : (s.setCd p o v).latches = s.latches := rfl
@[simp] theorem State.setCd_groups (s : State) (p o : Nat) (v : Word) : (s.setCd p o v).groups = s.groups := rfl
@[simp] theorem State.setCd_legs (s : State) (p o : Nat) (v : Word) : (s.setCd p o v).legs = s.legs := rfl
@[simp] theorem State.setCd_lanes (s : State) (p o : Nat) (v : Word) : (s.setCd p o v).lanes = s.lanes := rfl
@[simp] theorem State.setCd_ropes (s : State) (p o : Nat) (v : Word) : (s.setCd p o v).ropes = s.ropes := rfl
@[simp] theorem State.setCd_shares (s : State) (p o : Nat) (v : Word) : (s.setCd p o v).shares = s.shares := rfl
@[simp] theorem State.setCd_rescue (s : State) (p o : Nat) (v : Word) : (s.setCd p o v).rescue = s.rescue := rfl
@[simp] theorem State.setCd_chop (s : State) (p o : Nat) (v : Word) : (s.setCd p o v).chop = s.chop := rfl
@[simp] theorem State.setCd_pdie (s : State) (p o : Nat) (v : Word) : (s.setCd p o v).pdie = s.pdie := rfl
@[simp] theorem State.setCd_dma (s : State) (p o : Nat) (v : Word) : (s.setCd p o v).dma = s.dma := rfl
@[simp] theorem State.setCd_dmaLast (s : State) (p o : Nat) (v : Word) : (s.setCd p o v).dmaLast = s.dmaLast := rfl
@[simp] theorem State.setCd_dmaHalted (s : State) (p o : Nat) (v : Word) : (s.setCd p o v).dmaHalted = s.dmaHalted := rfl
@[simp] theorem State.setCd_cans (s : State) (p o : Nat) (v : Word) : (s.setCd p o v).cans = s.cans := rfl
@[simp] theorem State.setCd_dis (s : State) (p o : Nat) (v : Word) : (s.setCd p o v).dis = s.dis := rfl
@[simp] theorem State.setCd_dos (s : State) (p o : Nat) (v : Word) : (s.setCd p o v).dos = s.dos := rfl
@[simp] theorem State.setCd_field (s : State) (p o : Nat) (v : Word) : (s.setCd p o v).field = s.field := rfl
@[simp] theorem State.setCd_sins (s : State) (p o : Nat) (v : Word) : (s.setCd p o v).sins = s.sins := rfl
@[simp] theorem State.setCd_safety (s : State) (p o : Nat) (v : Word) : (s.setCd p o v).safety = s.safety := rfl
@[simp] theorem State.setCd_trace (s : State) (p o : Nat) (v : Word) : (s.setCd p o v).trace = s.trace := rfl
@[simp] theorem State.setCd_hk (s : State) (p o : Nat) (v : Word) : (s.setCd p o v).hk = s.hk := rfl
@[simp] theorem State.setCd_log (s : State) (p o : Nat) (v : Word) : (s.setCd p o v).log = s.log := rfl
@[simp] theorem State.setCd_chans (s : State) (p o : Nat) (v : Word) : (s.setCd p o v).chans = s.chans := rfl
@[simp] theorem State.setCd_timers (s : State) (p o : Nat) (v : Word) : (s.setCd p o v).timers = s.timers := rfl
@[simp] theorem State.setCd_sched (s : State) (p o : Nat) (v : Word) : (s.setCd p o v).sched = s.sched := rfl
@[simp] theorem State.setCd_precheck (s : State) (p o : Nat) (v : Word) : (s.setCd p o v).precheck = s.precheck := rfl
@[simp] theorem State.setCd_samples (s : State) (p o : Nat) (v : Word) : (s.setCd p o v).samples = s.samples := rfl
@[simp] theorem State.setCd_reps (s : State) (p o : Nat) (v : Word) : (s.setCd p o v).reps = s.reps := rfl
@[simp] theorem State.setCd_free (s : State) (p o : Nat) (v : Word) : (s.setCd p o v).free = s.free := rfl
@[simp] theorem State.setCd_pending (s : State) (p o : Nat) (v : Word) : (s.setCd p o v).pending = s.pending := rfl

/-! putByte. -/

@[simp] theorem State.putByte_regs (s : State) (a : Nat) (b : Byte) : (s.putByte a b).regs = s.regs := rfl
@[simp] theorem State.putByte_cfg (s : State) (a : Nat) (b : Byte) : (s.putByte a b).cfg = s.cfg := rfl
@[simp] theorem State.putByte_stg (s : State) (a : Nat) (b : Byte) : (s.putByte a b).stg = s.stg := rfl
@[simp] theorem State.putByte_mem (s : State) (a : Nat) (b : Byte) : (s.putByte a b).mem = memPut s.mem a b := rfl
@[simp] theorem State.putByte_eccBad (s : State) (a : Nat) (b : Byte) : (s.putByte a b).eccBad = s.eccBad := rfl
@[simp] theorem State.putByte_power (s : State) (a : Nat) (b : Byte) : (s.putByte a b).power = s.power := rfl
@[simp] theorem State.putByte_time (s : State) (a : Nat) (b : Byte) : (s.putByte a b).time = s.time := rfl
@[simp] theorem State.putByte_stage (s : State) (a : Nat) (b : Byte) : (s.putByte a b).stage = s.stage := rfl
@[simp] theorem State.putByte_host (s : State) (a : Nat) (b : Byte) : (s.putByte a b).host = s.host := rfl
@[simp] theorem State.putByte_mgr (s : State) (a : Nat) (b : Byte) : (s.putByte a b).mgr = s.mgr := rfl
@[simp] theorem State.putByte_axes (s : State) (a : Nat) (b : Byte) : (s.putByte a b).axes = s.axes := rfl
@[simp] theorem State.putByte_drives (s : State) (a : Nat) (b : Byte) : (s.putByte a b).drives = s.drives := rfl
@[simp] theorem State.putByte_ctxs (s : State) (a : Nat) (b : Byte) : (s.putByte a b).ctxs = s.ctxs := rfl
@[simp] theorem State.putByte_fbs (s : State) (a : Nat) (b : Byte) : (s.putByte a b).fbs = s.fbs := rfl
@[simp] theorem State.putByte_mots (s : State) (a : Nat) (b : Byte) : (s.putByte a b).mots = s.mots := rfl
@[simp] theorem State.putByte_cmps (s : State) (a : Nat) (b : Byte) : (s.putByte a b).cmps = s.cmps := rfl
@[simp] theorem State.putByte_latches (s : State) (a : Nat) (b : Byte) : (s.putByte a b).latches = s.latches := rfl
@[simp] theorem State.putByte_groups (s : State) (a : Nat) (b : Byte) : (s.putByte a b).groups = s.groups := rfl
@[simp] theorem State.putByte_legs (s : State) (a : Nat) (b : Byte) : (s.putByte a b).legs = s.legs := rfl
@[simp] theorem State.putByte_lanes (s : State) (a : Nat) (b : Byte) : (s.putByte a b).lanes = s.lanes := rfl
@[simp] theorem State.putByte_ropes (s : State) (a : Nat) (b : Byte) : (s.putByte a b).ropes = s.ropes := rfl
@[simp] theorem State.putByte_shares (s : State) (a : Nat) (b : Byte) : (s.putByte a b).shares = s.shares := rfl
@[simp] theorem State.putByte_rescue (s : State) (a : Nat) (b : Byte) : (s.putByte a b).rescue = s.rescue := rfl
@[simp] theorem State.putByte_chop (s : State) (a : Nat) (b : Byte) : (s.putByte a b).chop = s.chop := rfl
@[simp] theorem State.putByte_pdie (s : State) (a : Nat) (b : Byte) : (s.putByte a b).pdie = s.pdie := rfl
@[simp] theorem State.putByte_dma (s : State) (a : Nat) (b : Byte) : (s.putByte a b).dma = s.dma := rfl
@[simp] theorem State.putByte_dmaLast (s : State) (a : Nat) (b : Byte) : (s.putByte a b).dmaLast = s.dmaLast := rfl
@[simp] theorem State.putByte_dmaHalted (s : State) (a : Nat) (b : Byte) : (s.putByte a b).dmaHalted = s.dmaHalted := rfl
@[simp] theorem State.putByte_cans (s : State) (a : Nat) (b : Byte) : (s.putByte a b).cans = s.cans := rfl
@[simp] theorem State.putByte_dis (s : State) (a : Nat) (b : Byte) : (s.putByte a b).dis = s.dis := rfl
@[simp] theorem State.putByte_dos (s : State) (a : Nat) (b : Byte) : (s.putByte a b).dos = s.dos := rfl
@[simp] theorem State.putByte_field (s : State) (a : Nat) (b : Byte) : (s.putByte a b).field = s.field := rfl
@[simp] theorem State.putByte_sins (s : State) (a : Nat) (b : Byte) : (s.putByte a b).sins = s.sins := rfl
@[simp] theorem State.putByte_safety (s : State) (a : Nat) (b : Byte) : (s.putByte a b).safety = s.safety := rfl
@[simp] theorem State.putByte_trace (s : State) (a : Nat) (b : Byte) : (s.putByte a b).trace = s.trace := rfl
@[simp] theorem State.putByte_hk (s : State) (a : Nat) (b : Byte) : (s.putByte a b).hk = s.hk := rfl
@[simp] theorem State.putByte_log (s : State) (a : Nat) (b : Byte) : (s.putByte a b).log = s.log := rfl
@[simp] theorem State.putByte_chans (s : State) (a : Nat) (b : Byte) : (s.putByte a b).chans = s.chans := rfl
@[simp] theorem State.putByte_timers (s : State) (a : Nat) (b : Byte) : (s.putByte a b).timers = s.timers := rfl
@[simp] theorem State.putByte_sched (s : State) (a : Nat) (b : Byte) : (s.putByte a b).sched = s.sched := rfl
@[simp] theorem State.putByte_precheck (s : State) (a : Nat) (b : Byte) : (s.putByte a b).precheck = s.precheck := rfl
@[simp] theorem State.putByte_samples (s : State) (a : Nat) (b : Byte) : (s.putByte a b).samples = s.samples := rfl
@[simp] theorem State.putByte_reps (s : State) (a : Nat) (b : Byte) : (s.putByte a b).reps = s.reps := rfl
@[simp] theorem State.putByte_free (s : State) (a : Nat) (b : Byte) : (s.putByte a b).free = s.free := rfl
@[simp] theorem State.putByte_pending (s : State) (a : Nat) (b : Byte) : (s.putByte a b).pending = s.pending := rfl

/-! stopT. -/

@[simp] theorem State.stopT_regs (s : State) (t : Timer) : (s.stopT t).regs = s.regs := rfl
@[simp] theorem State.stopT_cfg (s : State) (t : Timer) : (s.stopT t).cfg = s.cfg := rfl
@[simp] theorem State.stopT_stg (s : State) (t : Timer) : (s.stopT t).stg = s.stg := rfl
@[simp] theorem State.stopT_mem (s : State) (t : Timer) : (s.stopT t).mem = s.mem := rfl
@[simp] theorem State.stopT_eccBad (s : State) (t : Timer) : (s.stopT t).eccBad = s.eccBad := rfl
@[simp] theorem State.stopT_power (s : State) (t : Timer) : (s.stopT t).power = s.power := rfl
@[simp] theorem State.stopT_time (s : State) (t : Timer) : (s.stopT t).time = s.time := rfl
@[simp] theorem State.stopT_stage (s : State) (t : Timer) : (s.stopT t).stage = s.stage := rfl
@[simp] theorem State.stopT_host (s : State) (t : Timer) : (s.stopT t).host = s.host := rfl
@[simp] theorem State.stopT_mgr (s : State) (t : Timer) : (s.stopT t).mgr = s.mgr := rfl
@[simp] theorem State.stopT_axes (s : State) (t : Timer) : (s.stopT t).axes = s.axes := rfl
@[simp] theorem State.stopT_drives (s : State) (t : Timer) : (s.stopT t).drives = s.drives := rfl
@[simp] theorem State.stopT_ctxs (s : State) (t : Timer) : (s.stopT t).ctxs = s.ctxs := rfl
@[simp] theorem State.stopT_fbs (s : State) (t : Timer) : (s.stopT t).fbs = s.fbs := rfl
@[simp] theorem State.stopT_mots (s : State) (t : Timer) : (s.stopT t).mots = s.mots := rfl
@[simp] theorem State.stopT_cmps (s : State) (t : Timer) : (s.stopT t).cmps = s.cmps := rfl
@[simp] theorem State.stopT_latches (s : State) (t : Timer) : (s.stopT t).latches = s.latches := rfl
@[simp] theorem State.stopT_groups (s : State) (t : Timer) : (s.stopT t).groups = s.groups := rfl
@[simp] theorem State.stopT_legs (s : State) (t : Timer) : (s.stopT t).legs = s.legs := rfl
@[simp] theorem State.stopT_lanes (s : State) (t : Timer) : (s.stopT t).lanes = s.lanes := rfl
@[simp] theorem State.stopT_ropes (s : State) (t : Timer) : (s.stopT t).ropes = s.ropes := rfl
@[simp] theorem State.stopT_shares (s : State) (t : Timer) : (s.stopT t).shares = s.shares := rfl
@[simp] theorem State.stopT_rescue (s : State) (t : Timer) : (s.stopT t).rescue = s.rescue := rfl
@[simp] theorem State.stopT_chop (s : State) (t : Timer) : (s.stopT t).chop = s.chop := rfl
@[simp] theorem State.stopT_pdie (s : State) (t : Timer) : (s.stopT t).pdie = s.pdie := rfl
@[simp] theorem State.stopT_dma (s : State) (t : Timer) : (s.stopT t).dma = s.dma := rfl
@[simp] theorem State.stopT_dmaLast (s : State) (t : Timer) : (s.stopT t).dmaLast = s.dmaLast := rfl
@[simp] theorem State.stopT_dmaHalted (s : State) (t : Timer) : (s.stopT t).dmaHalted = s.dmaHalted := rfl
@[simp] theorem State.stopT_cans (s : State) (t : Timer) : (s.stopT t).cans = s.cans := rfl
@[simp] theorem State.stopT_dis (s : State) (t : Timer) : (s.stopT t).dis = s.dis := rfl
@[simp] theorem State.stopT_dos (s : State) (t : Timer) : (s.stopT t).dos = s.dos := rfl
@[simp] theorem State.stopT_field (s : State) (t : Timer) : (s.stopT t).field = s.field := rfl
@[simp] theorem State.stopT_sins (s : State) (t : Timer) : (s.stopT t).sins = s.sins := rfl
@[simp] theorem State.stopT_safety (s : State) (t : Timer) : (s.stopT t).safety = s.safety := rfl
@[simp] theorem State.stopT_trace (s : State) (t : Timer) : (s.stopT t).trace = s.trace := rfl
@[simp] theorem State.stopT_hk (s : State) (t : Timer) : (s.stopT t).hk = s.hk := rfl
@[simp] theorem State.stopT_log (s : State) (t : Timer) : (s.stopT t).log = s.log := rfl
@[simp] theorem State.stopT_chans (s : State) (t : Timer) : (s.stopT t).chans = s.chans := rfl
@[simp] theorem State.stopT_timers (s : State) (t : Timer) : (s.stopT t).timers = s.timers.filter fun x => x.1 ≠ t := rfl
@[simp] theorem State.stopT_sched (s : State) (t : Timer) : (s.stopT t).sched = s.sched := rfl
@[simp] theorem State.stopT_precheck (s : State) (t : Timer) : (s.stopT t).precheck = s.precheck := rfl
@[simp] theorem State.stopT_samples (s : State) (t : Timer) : (s.stopT t).samples = s.samples := rfl
@[simp] theorem State.stopT_reps (s : State) (t : Timer) : (s.stopT t).reps = s.reps := rfl
@[simp] theorem State.stopT_free (s : State) (t : Timer) : (s.stopT t).free = s.free := rfl
@[simp] theorem State.stopT_pending (s : State) (t : Timer) : (s.stopT t).pending = s.pending := rfl

/-! startT. -/

@[simp] theorem State.startT_regs (s : State) (t : Timer) (d : Nat) : (s.startT t d).regs = s.regs := rfl
@[simp] theorem State.startT_cfg (s : State) (t : Timer) (d : Nat) : (s.startT t d).cfg = s.cfg := rfl
@[simp] theorem State.startT_stg (s : State) (t : Timer) (d : Nat) : (s.startT t d).stg = s.stg := rfl
@[simp] theorem State.startT_mem (s : State) (t : Timer) (d : Nat) : (s.startT t d).mem = s.mem := rfl
@[simp] theorem State.startT_eccBad (s : State) (t : Timer) (d : Nat) : (s.startT t d).eccBad = s.eccBad := rfl
@[simp] theorem State.startT_power (s : State) (t : Timer) (d : Nat) : (s.startT t d).power = s.power := rfl
@[simp] theorem State.startT_time (s : State) (t : Timer) (d : Nat) : (s.startT t d).time = s.time := rfl
@[simp] theorem State.startT_stage (s : State) (t : Timer) (d : Nat) : (s.startT t d).stage = s.stage := rfl
@[simp] theorem State.startT_host (s : State) (t : Timer) (d : Nat) : (s.startT t d).host = s.host := rfl
@[simp] theorem State.startT_mgr (s : State) (t : Timer) (d : Nat) : (s.startT t d).mgr = s.mgr := rfl
@[simp] theorem State.startT_axes (s : State) (t : Timer) (d : Nat) : (s.startT t d).axes = s.axes := rfl
@[simp] theorem State.startT_drives (s : State) (t : Timer) (d : Nat) : (s.startT t d).drives = s.drives := rfl
@[simp] theorem State.startT_ctxs (s : State) (t : Timer) (d : Nat) : (s.startT t d).ctxs = s.ctxs := rfl
@[simp] theorem State.startT_fbs (s : State) (t : Timer) (d : Nat) : (s.startT t d).fbs = s.fbs := rfl
@[simp] theorem State.startT_mots (s : State) (t : Timer) (d : Nat) : (s.startT t d).mots = s.mots := rfl
@[simp] theorem State.startT_cmps (s : State) (t : Timer) (d : Nat) : (s.startT t d).cmps = s.cmps := rfl
@[simp] theorem State.startT_latches (s : State) (t : Timer) (d : Nat) : (s.startT t d).latches = s.latches := rfl
@[simp] theorem State.startT_groups (s : State) (t : Timer) (d : Nat) : (s.startT t d).groups = s.groups := rfl
@[simp] theorem State.startT_legs (s : State) (t : Timer) (d : Nat) : (s.startT t d).legs = s.legs := rfl
@[simp] theorem State.startT_lanes (s : State) (t : Timer) (d : Nat) : (s.startT t d).lanes = s.lanes := rfl
@[simp] theorem State.startT_ropes (s : State) (t : Timer) (d : Nat) : (s.startT t d).ropes = s.ropes := rfl
@[simp] theorem State.startT_shares (s : State) (t : Timer) (d : Nat) : (s.startT t d).shares = s.shares := rfl
@[simp] theorem State.startT_rescue (s : State) (t : Timer) (d : Nat) : (s.startT t d).rescue = s.rescue := rfl
@[simp] theorem State.startT_chop (s : State) (t : Timer) (d : Nat) : (s.startT t d).chop = s.chop := rfl
@[simp] theorem State.startT_pdie (s : State) (t : Timer) (d : Nat) : (s.startT t d).pdie = s.pdie := rfl
@[simp] theorem State.startT_dma (s : State) (t : Timer) (d : Nat) : (s.startT t d).dma = s.dma := rfl
@[simp] theorem State.startT_dmaLast (s : State) (t : Timer) (d : Nat) : (s.startT t d).dmaLast = s.dmaLast := rfl
@[simp] theorem State.startT_dmaHalted (s : State) (t : Timer) (d : Nat) : (s.startT t d).dmaHalted = s.dmaHalted := rfl
@[simp] theorem State.startT_cans (s : State) (t : Timer) (d : Nat) : (s.startT t d).cans = s.cans := rfl
@[simp] theorem State.startT_dis (s : State) (t : Timer) (d : Nat) : (s.startT t d).dis = s.dis := rfl
@[simp] theorem State.startT_dos (s : State) (t : Timer) (d : Nat) : (s.startT t d).dos = s.dos := rfl
@[simp] theorem State.startT_field (s : State) (t : Timer) (d : Nat) : (s.startT t d).field = s.field := rfl
@[simp] theorem State.startT_sins (s : State) (t : Timer) (d : Nat) : (s.startT t d).sins = s.sins := rfl
@[simp] theorem State.startT_safety (s : State) (t : Timer) (d : Nat) : (s.startT t d).safety = s.safety := rfl
@[simp] theorem State.startT_trace (s : State) (t : Timer) (d : Nat) : (s.startT t d).trace = s.trace := rfl
@[simp] theorem State.startT_hk (s : State) (t : Timer) (d : Nat) : (s.startT t d).hk = s.hk := rfl
@[simp] theorem State.startT_log (s : State) (t : Timer) (d : Nat) : (s.startT t d).log = s.log := rfl
@[simp] theorem State.startT_chans (s : State) (t : Timer) (d : Nat) : (s.startT t d).chans = s.chans := rfl
@[simp] theorem State.startT_timers (s : State) (t : Timer) (d : Nat) : (s.startT t d).timers = (t, d) :: s.timers.filter fun x => x.1 ≠ t := rfl
@[simp] theorem State.startT_sched (s : State) (t : Timer) (d : Nat) : (s.startT t d).sched = s.sched := rfl
@[simp] theorem State.startT_precheck (s : State) (t : Timer) (d : Nat) : (s.startT t d).precheck = s.precheck := rfl
@[simp] theorem State.startT_samples (s : State) (t : Timer) (d : Nat) : (s.startT t d).samples = s.samples := rfl
@[simp] theorem State.startT_reps (s : State) (t : Timer) (d : Nat) : (s.startT t d).reps = s.reps := rfl
@[simp] theorem State.startT_free (s : State) (t : Timer) (d : Nat) : (s.startT t d).free = s.free := rfl
@[simp] theorem State.startT_pending (s : State) (t : Timer) (d : Nat) : (s.startT t d).pending = s.pending := rfl

end Sys2Proof.Machine
end

