-- ==== Sys2Proof/Laws/Reads.lean ====
section
/-!
SUPPORT. Reads after writes: registers in their three views, memory, deadlines, the records of the units.
-/
namespace Sys2Proof.Machine

open Sys2Proof.Safety

/-! Sparse maps. -/

theorem mapFind_rising {α : Type} {a : Nat} {m : List (Nat × α)} (h : risingFrom (a + 1) m = true) : mapFind m a = none := by
  cases m with
  | nil => rfl
  | cons x m =>
    simp only [risingFrom, Bool.and_eq_true, decide_eq_true_eq] at h
    unfold mapFind
    rw [if_neg (by omega), if_pos (by omega)]

theorem mapFind_put_same {α : Type} {a : Nat} {x : α} : ∀ {m : List (Nat × α)}, mapFind (mapPut m a x) a = some x
  | [] => by simp [mapPut, mapFind]
  | (k, v) :: m => by
    unfold mapPut
    split
    · simp [mapFind]
    · split
      · simp [mapFind]
      · unfold mapFind
        rw [if_neg (by assumption), if_neg (by assumption)]
        exact mapFind_put_same

theorem mapFind_put_ne {α : Type} {a b : Nat} {x : α} (h : b ≠ a) : ∀ {m : List (Nat × α)}, mapFind (mapPut m a x) b = mapFind m b
  | [] => by simp [mapPut, mapFind, h]
  | (k, v) :: m => by
    unfold mapPut
    split
    · subst a
      simp only [mapFind, if_neg h]
    · split
      · simp only [mapFind, if_neg h]
        split <;> split <;> first | rfl | omega | (split <;> first | rfl | omega)
      · simp only [mapFind]
        rw [mapFind_put_ne h]

theorem mapFind_del_same {α : Type} {a b : Nat} : ∀ {m : List (Nat × α)}, risingFrom b m = true → mapFind (mapDel m a) a = none
  | [], _ => rfl
  | (k, v) :: m, h => by
    simp only [risingFrom, Bool.and_eq_true, decide_eq_true_eq] at h
    unfold mapDel
    split
    · subst a; exact mapFind_rising h.2
    · split
      · simp only [mapFind]; rw [if_neg (by assumption), if_pos (by assumption)]
      · simp only [mapFind]; rw [if_neg (by assumption), if_neg (by assumption)]; exact mapFind_del_same h.2

theorem mapFind_del_ne {α : Type} {a b c : Nat} (h : b ≠ a) :
    ∀ {m : List (Nat × α)}, risingFrom c m = true → mapFind (mapDel m a) b = mapFind m b
  | [], _ => rfl
  | (k, v) :: m, r => by
    simp only [risingFrom, Bool.and_eq_true, decide_eq_true_eq] at r
    unfold mapDel
    split
    · subst a
      simp only [mapFind, if_neg h]
      split
      · exact mapFind_rising (rising_mono (by omega) r.2)
      · rfl
    · split
      · rfl
      · simp only [mapFind]; rw [mapFind_del_ne h r.2]

theorem mapFind_set_same {α : Type} [DecidableEq α] {m : List (Nat × α)} {a : Nat} {x d : α} (h : MapOk m) :
    (mapFind (mapSet m a x d) a).getD d = x := by
  unfold mapSet
  split
  · rw [mapFind_del_same h]; simp_all
  · rw [mapFind_put_same]; rfl

theorem mapFind_set_ne {α : Type} [DecidableEq α] {m : List (Nat × α)} {a b : Nat} {x d : α} (h : MapOk m) (n : b ≠ a) :
    mapFind (mapSet m a x d) b = mapFind m b := by
  unfold mapSet
  split
  · exact mapFind_del_ne n h
  · exact mapFind_put_ne n

/-! Registers. -/

/-- A live register reads as it was written. -/
theorem State.lv_setLv_same {s : State} {p o : Nat} {v : Word} (h : MapOk s.regs) : (s.setLv p o v).lv p o = v :=
  mapFind_set_same h

/-- Another live register reads as before. -/
theorem State.lv_setLv_ne {s : State} {p o p' o' : Nat} {v : Word} (h : MapOk s.regs) (n : regAddr p' o' ≠ regAddr p o) :
    (s.setLv p o v).lv p' o' = s.lv p' o' := by
  unfold State.lv State.setLv
  rw [mapFind_set_ne h n]

/-- A value in force reads as it was set. -/
theorem State.cf_setCf_same {s : State} {p o : Nat} {v : Word} (h : MapOk s.cfg) : (s.setCf p o v).cf p o = v :=
  mapFind_set_same h

/-- Another value in force reads as before. -/
theorem State.cf_setCf_ne {s : State} {p o p' o' : Nat} {v : Word} (h : MapOk s.cfg) (n : regAddr p' o' ≠ regAddr p o) :
    (s.setCf p o v).cf p' o' = s.cf p' o' := by
  unfold State.cf State.setCf
  rw [mapFind_set_ne h n]

/-- A staged word reads as it was written. -/
theorem State.cd_setCd_same {s : State} {p o : Nat} {v : Word} (h : MapOk s.stg) : (s.setCd p o v).cd p o = v :=
  mapFind_set_same h

/-- Another staged word reads as before. -/
theorem State.cd_setCd_ne {s : State} {p o p' o' : Nat} {v : Word} (h : MapOk s.stg) (n : regAddr p' o' ≠ regAddr p o) :
    (s.setCd p o v).cd p' o' = s.cd p' o' := by
  unfold State.cd State.setCd State.cf
  rw [mapFind_set_ne h n]

/-- A live write leaves the values in force and the stage. -/
@[simp] theorem State.cf_setLv {s : State} {p o p' o' : Nat} {v : Word} : (s.setLv p o v).cf p' o' = s.cf p' o' := rfl

/-- A live write leaves the stage. -/
@[simp] theorem State.cd_setLv {s : State} {p o p' o' : Nat} {v : Word} : (s.setLv p o v).cd p' o' = s.cd p' o' := rfl

/-! Memory. -/

/-- A byte reads as it was written. -/
theorem State.byteAt_putByte_same {s : State} {a : Nat} {b : Byte} (h : MemoryOk s) : (s.putByte a b).byteAt a = b :=
  mapFind_set_same (by unfold MemoryOk memWf at h; exact (Bool.and_eq_true _ _ ▸ h).1)

/-- Another byte reads as before. -/
theorem State.byteAt_putByte_ne {s : State} {a c : Nat} {b : Byte} (h : MemoryOk s) (n : c ≠ a) :
    (s.putByte a b).byteAt c = s.byteAt c := by
  unfold State.byteAt State.putByte memByte memPut
  rw [mapFind_set_ne (by unfold MemoryOk memWf at h; exact (Bool.and_eq_true _ _ ▸ h).1) n]

/-- Bytes outside those written read as before. -/
theorem State.byteAt_putBytes_ne {c : Nat} : ∀ {s : State} {a : Nat} {l : List Byte}, MemoryOk s → (c < a ∨ a + l.length ≤ c) →
    (s.putBytes a l).byteAt c = s.byteAt c
  | _, _, [], _, _ => rfl
  | s, a, b :: l, h, n => by
    unfold State.putBytes
    simp only [List.length_cons] at n
    rw [State.byteAt_putBytes_ne (s := s.putByte a b) (memPut_wf h) (by omega), State.byteAt_putByte_ne h (by omega)]

/-- Bytes outside a word written read as before. -/
theorem State.byteAt_putWord_ne {s : State} {a c : Nat} {w : Word} (h : MemoryOk s) (n : c < a ∨ a + 4 ≤ c) :
    (s.putWord a w).byteAt c = s.byteAt c :=
  State.byteAt_putBytes_ne (l := wordBytes w) h (by simpa [wordBytes] using n)

/-! Deadlines. -/

/-- A deadline started falls due when it was set to. -/
@[simp] theorem State.due_startT_same {s : State} {t : Timer} {d : Nat} : (s.startT t d).due t = some d := by
  simp [State.due, State.startT]

/-- A deadline stopped does not run. -/
@[simp] theorem State.due_stopT_same {s : State} {t : Timer} : (s.stopT t).due t = none := by
  simp [State.due, State.stopT, List.find?_filter]

/-- Stopping a deadline leaves another. -/
theorem State.due_stopT_ne {s : State} {t u : Timer} (h : u ≠ t) : (s.stopT t).due u = s.due u := by
  simp only [State.due, State.stopT, List.find?_filter]
  congr 2
  funext x
  by_cases e : x.1 = u <;> simp [e, h]

/-- Starting a deadline leaves another. -/
theorem State.due_startT_ne {s : State} {t u : Timer} {d : Nat} (h : u ≠ t) : (s.startT t d).due u = s.due u := by
  rw [← State.due_stopT_ne (s := s) h]
  simp [State.due, State.startT, Ne.symm h]

/-- What a deadline that runs does when it expires. -/
theorem State.expire_due {s : State} {t : Timer} {d : Nat} {f : State → State} (h : s.due t = some d) :
    s.expire t f = f ((s.reach d).stopT t) := by
  unfold State.expire
  rw [h]

/-- A deadline that does not run expires without effect. -/
theorem State.expire_idle {s : State} {t : Timer} {f : State → State} (h : s.due t = none) : s.expire t f = s := by
  unfold State.expire
  rw [h]

end Sys2Proof.Machine
end

