-- ==== Sys2Proof/Laws/Sources.lean ====
section
/-!
SUPPORT. Sources, events and gates: a source that is raised is on, one that ends is off, an event bit stays set through what follows it,
a leg that is off stays off through a reaction.
-/
namespace Sys2Proof.Machine

open Sys2Proof.Safety

/-! Repetition. -/

theorem forL_ind {α : Type} {P : State → Prop} {f : α → State → State} (hf : ∀ i s, P s → P (f i s)) :
    ∀ (l : List α) {s : State}, P s → P (forL l f s)
  | [], _, h => h
  | i :: l, _, h => forL_ind hf l (hf i _ h)

theorem forN_ind {P : State → Prop} {f : Nat → State → State} {n : Nat} {s : State} (hf : ∀ i s, P s → P (f i s)) (h : P s) :
    P (forN n f s) := forL_ind (f := f) hf (List.range n) h

/-! Sources. -/

/-- A source noted is on. -/
theorem noteSrc_on {s : State} {src a m : Nat} : (s.noteSrc src a m).srcOn src a = true := by
  have h : (s.noteSrc src a m).safety = { s.safety with srcs := s.safety.srcs ++ [(src, a)], oteOff := s.safety.oteOff || oteSrc src } := by
    unfold State.noteSrc
    exact (State.event_only (fs := [.regs, .trace, .log]) (State.logAdd_only (Only.refl _ _) rfl) rfl) .safety (by decide)
  unfold State.srcOn
  rw [h]
  simp

/-- A source raised is on. -/
theorem raise_on {s : State} {src a : Nat} : (s.raise src a).srcOn src a = true := by
  unfold State.raise
  split
  · assumption
  · dsimp only
    refine forL_ind (P := fun s => s.srcOn src a = true) (fun b s h => ?_) _ noteSrc_on
    split
    · exact h
    · exact h

/-- The same where the reaction acts at once. -/
theorem raiseNow_on {s : State} {src a : Nat} : (s.raiseNow src a).srcOn src a = true := by
  unfold State.raiseNow
  split
  · assumption
  · dsimp only
    refine forL_ind (P := fun s => s.srcOn src a = true) (fun b s h => ?_) _ noteSrc_on
    split
    · exact h
    · split
      · exact h
      · unfold State.srcOn
        rw [show ((s.stoNow b).pushReact b .sto src false).safety = s.safety from
          (State.pushReact_only (fs := [.axes, .timers, .mots, .legs]) (State.stoNow_only (Only.refl _ _) rfl) rfl) .safety (by decide)]
        exact h
    · exact h

/-- A source that has ended is off. -/
theorem clearSrc_off {s : State} {src a : Nat} : (s.clearSrc src a).srcOn src a = false := by
  simp [State.clearSrc, State.srcOn, State.onSafe]

/-- The end of a source leaves every other. -/
theorem clearSrc_ne {s : State} {src a src' a' : Nat} (h : (src', a') ≠ (src, a)) :
    (s.clearSrc src a).srcOn src' a' = s.srcOn src' a' := by
  unfold State.clearSrc State.srcOn State.onSafe
  rw [Bool.eq_iff_iff, List.contains_iff_mem, List.contains_iff_mem, List.mem_filter]
  simp [h]

/-! Legs. -/

/-- What an operation of one unit does to a unit of the same kind. -/
theorem modify_getD {α : Type} [Inhabited α] (l : List α) (i j : Nat) (f : α → α) (d : α) :
    (l.modify i f).getD j d = if i = j ∧ j < l.length then f (l.getD j d) else l.getD j d := by
  simp only [List.getD_eq_getElem?_getD, List.getElem?_modify]
  by_cases h : j < l.length
  · by_cases e : i = j <;> simp [e, h]
  · simp [h]

theorem onLg_lg {s : State} {l j : Nat} {f : LegSt → LegSt} :
    (s.onLg l f).lg j = if l = j ∧ j < s.legs.length then f (s.lg j) else s.lg j :=
  @modify_getD LegSt ⟨{}⟩ s.legs l j f {}

theorem legOff_off {s : State} {l : Nat} (h : l < s.legs.length) : LegIsOff (s.legOff l) l := by
  unfold LegIsOff State.legOff
  simp [onLg_lg, h]

theorem legOff_keeps {s : State} {l j : Nat} (h : LegIsOff s j) : LegIsOff (s.legOff l) j := by
  unfold LegIsOff State.legOff
  rw [onLg_lg]
  split
  · exact ⟨rfl, rfl, rfl⟩
  · exact h

theorem legIsOff_congr {s t : State} {l : Nat} (h : LegIsOff s l) (e : t.legs = s.legs) : LegIsOff t l := by
  unfold LegIsOff State.lg at *
  rw [e]
  exact h

/-- The first n legs turned off are off. -/
theorem forN_legOff {n l : Nat} {s : State} (h : l < n) (k : l < s.legs.length) : LegIsOff (forN n (fun l s => s.legOff l) s) l := by
  unfold forN
  have : ∀ (xs : List Nat) (s : State), l < s.legs.length → (l ∈ xs ∨ LegIsOff s l) →
      LegIsOff (xs.foldl (fun s i => s.legOff i) s) l := by
    intro xs
    induction xs with
    | nil => intro s _ h; exact h.resolve_left (by simp)
    | cons x xs ih =>
      intro s k h
      have k' : l < (s.legOff x).legs.length := by simpa [State.legOff, State.onLg] using k
      refine ih _ k' ?_
      rcases h with h | h
      · rcases List.mem_cons.mp h with rfl | h
        · exact .inr (legOff_off k)
        · exact .inl h
      · exact .inr (legOff_keeps h)
  exact this _ _ k (.inl (List.mem_range.mpr h))

/-- A reaction that acts at once turns legs off and none on. -/
theorem raiseNow_legOff {s : State} {src a l : Nat} (h : LegIsOff s l) : LegIsOff (s.raiseNow src a) l := by
  unfold State.raiseNow
  split
  · exact h
  · dsimp only
    refine forL_ind (P := fun s => LegIsOff s l) (fun b s h => ?_) _ ?_
    · split
      · exact h
      · split
        · exact h
        · refine legIsOff_congr (s := s.stoNow b) ?_ rfl
          unfold State.stoNow
          dsimp only
          refine forL_ind (P := fun s => LegIsOff s l) (f := fun t s => s.stopT t) (fun t s h => legIsOff_congr h rfl) _ ?_
          refine legIsOff_congr (s := s.gatesOff b) ?_
            ((State.sbcIssue_only (fs := [.axes, .timers]) (Only.refl _ _) rfl) .legs (by decide))
          unfold State.gatesOff
          dsimp only
          refine legIsOff_congr (s := forL (axUsedLegs s.force b) (fun l s => s.legOff l) s) ?_ rfl
          exact forL_ind (P := fun s => LegIsOff s l) (fun i s h => legOff_keeps h) _ h
      · exact legIsOff_congr h rfl
    · exact legIsOff_congr h ((State.noteSrc_only (fs := [.regs, .trace, .log, .safety]) (Only.refl _ _) rfl) .legs (by decide))

/-! Event bits. -/

/-- Live registers stay a map, and no event bit set in s is clear in t. -/
structure Up (s t : State) : Prop where
  ok : MapOk t.regs
  bits : ∀ p i, Flagged s p i → Flagged t p i

theorem Up.refl {s : State} (h : MapOk s.regs) : Up s s := ⟨h, fun _ _ h => h⟩

theorem Up.trans {s t u : State} (h : Up s t) (k : Up t u) : Up s u := ⟨k.ok, fun p i b => k.bits p i (h.bits p i b)⟩

/-- A change outside the live registers. -/
theorem Up.same {s t u : State} (h : Up s t) (e : u.regs = t.regs) : Up s u := by
  refine ⟨e ▸ h.ok, fun p i b => ?_⟩
  have := h.bits p i b
  unfold Flagged State.lv at *
  rwa [e]

theorem up_ite {s a b : State} {c : Prop} [Decidable c] (ha : Up s a) (hb : Up s b) : Up s (if c then a else b) := by
  split <;> assumption

/-- A live write beside the event registers. -/
theorem Up.setLv {s t : State} {p o : Nat} {v : Word} (h : Up s t) (n : (regAddr p o) % 4096 ≠ pageEvent) : Up s (t.setLv p o v) := by
  refine ⟨MapOk.set h.ok, fun q i b => ?_⟩
  unfold Flagged
  rw [State.lv_setLv_ne h.ok]
  · exact h.bits q i b
  · intro e
    rw [← e] at n
    simp [regAddr, pageEvent] at n

theorem nw_or (n m : Nat) : nw (n ||| m) = nw n ||| nw m := by
  apply BitVec.eq_of_toNat_eq
  simp [nw]

theorem bt_or {a b : Word} {i : Nat} : bt (a ||| b) i = (bt a i || bt b i) := by
  simp [bt]

theorem Up.eventRaw {s t : State} {p bits : Nat} (h : Up s t) : Up s (t.eventRaw p bits) := by
  refine ⟨MapOk.set h.ok, fun q i b => ?_⟩
  unfold State.eventRaw State.onLv Flagged
  by_cases e : q = p
  · subst e
    rw [State.lv_setLv_same h.ok, bt_or, show bt (t.lv q pageEvent) i = true from h.bits q i b]
    rfl
  · rw [State.lv_setLv_ne h.ok]
    · exact h.bits q i b
    · simp only [regAddr]; omega

theorem Up.forL {α : Type} {s t : State} {l : List α} {f : α → State → State} (h : Up s t) (hf : ∀ i t, Up s t → Up s (f i t)) :
    Up s (forL l f t) := forL_ind (P := Up s) hf l h

theorem Up.forN {s t : State} {n : Nat} {f : Nat → State → State} (h : Up s t) (hf : ∀ i t, Up s t → Up s (f i t)) :
    Up s (forN n f t) := forL_ind (P := Up s) hf _ h

theorem Up.traceTrigger {s t : State} {u k : Nat} (h : Up s t) : Up s (t.traceTrigger u k) := by
  unfold State.traceTrigger
  split
  · split
    · exact Up.eventRaw (h.same rfl)
    · exact h.setLv (by decide)
  · split
    · exact up_ite (h.same rfl) h
    · exact h

theorem Up.traceFire {s t : State} {u k : Nat} (h : Up s t) : Up s (t.traceFire u k) := by
  unfold State.traceFire
  dsimp only
  split
  · exact h.traceTrigger
  · split
    · exact h.same rfl
    · split
      · exact up_ite h.traceTrigger h
      · exact h

theorem Up.event {s t : State} {p bits : Nat} (h : Up s t) : Up s (t.event p bits) := by
  unfold State.event State.traceKind
  refine up_ite (Up.forN h.eventRaw fun i t k => ?_) h.eventRaw
  dsimp only
  exact up_ite k.traceFire k

/-- An event sets its bits. -/
theorem event_sets {s : State} {p bits i : Nat} (h : MapOk s.regs) (k : (nw bits).toNat.testBit i = true) :
    Flagged (s.event p bits) p i := by
  have h0 : Up (s.eventRaw p bits) (s.event p bits) := by
    have r : Up (s.eventRaw p bits) (s.eventRaw p bits) := Up.refl (MapOk.set h)
    unfold State.event State.traceKind
    refine up_ite (Up.forN r fun i t k => ?_) r
    dsimp only
    exact up_ite k.traceFire k
  refine h0.bits p i ?_
  unfold State.eventRaw State.onLv Flagged
  rw [State.lv_setLv_same h, bt_or]
  simp [bt, k]

theorem Up.pfault {s t : State} {p bits : Nat} (h : Up s t) : Up s (t.pfault p bits) :=
  h.setLv (by simp [regAddr, pageFault, pageEvent])

theorem Up.logAdd {s t : State} {kind cls m code : Nat} {d : Word} (h : Up s t) : Up s (t.logAdd kind cls m code d) := by
  unfold State.logAdd
  dsimp only
  split
  · exact h.same rfl
  · split
    · exact h.same rfl
    · exact Up.event (Up.setLv (h.same rfl) (by decide))

theorem Up.noteSrc {s t : State} {src a m : Nat} (h : Up s t) : Up s (t.noteSrc src a m) :=
  Up.event (Up.logAdd (h.same rfl))

theorem Up.raise {s t : State} {src a : Nat} (h : Up s t) : Up s (t.raise src a) := by
  unfold State.raise
  refine up_ite h ?_
  dsimp only
  refine Up.forL h.noteSrc fun b t k => ?_
  split
  · exact k
  · exact k.same rfl

theorem Up.raiseNow {s t : State} {src a : Nat} (h : Up s t) : Up s (t.raiseNow src a) := by
  unfold State.raiseNow
  refine up_ite h ?_
  dsimp only
  refine Up.forL h.noteSrc fun b t k => ?_
  split
  · exact k
  · refine up_ite k (k.same ?_)
    exact (State.pushReact_only (fs := [.axes, .timers, .mots, .legs]) (State.stoNow_only (Only.refl _ _) rfl) rfl) .regs (by decide)
  · exact k.same rfl

end Sys2Proof.Machine
end

section
/-!
PROOF. Staged writes (R45 to R47): what a refusal counts, flags and marks, which staged writes are refused and why, and what one that is
taken leaves in the stage.
-/
namespace Sys2Proof.Machine

open Sys2Proof.Safety Sys2Proof.Claims

/-! Properties that events and log entries keep. -/

/-- P outlives what an event does: bits of a PAGE_EVENT, a trigger counted as ignored, the tracing unit's own state. -/
structure OutlivesEvents (P : State → Prop) : Prop where
  raw : ∀ {t p bits}, P t → P (t.eventRaw p bits)
  ignored : ∀ {t}, P t → P (t.inc16 pgTrace TRACE.TRIG_IGNORED)
  trace : ∀ {t u}, P t → P { t with trace := u }

section
variable {P : State → Prop} (hP : OutlivesEvents P) {s : State}
include hP

theorem OutlivesEvents.traceTrigger {u k : Nat} (h : P s) : P (s.traceTrigger u k) := by
  unfold State.traceTrigger
  split
  · split
    · exact hP.raw (hP.trace h)
    · exact hP.ignored h
  · split
    · split
      · exact hP.trace h
      · exact h
    · exact h

theorem OutlivesEvents.traceFire {u k : Nat} (h : P s) : P (s.traceFire u k) := by
  unfold State.traceFire
  dsimp only
  split
  · exact hP.traceTrigger h
  · split
    · exact hP.trace h
    · split
      · split
        · exact hP.traceTrigger h
        · exact h
      · exact h

theorem OutlivesEvents.event {p bits : Nat} (h : P s) : P (s.event p bits) := by
  unfold State.event State.traceKind
  split
  · refine forN_ind (fun u t k => ?_) (hP.raw h)
    dsimp only
    split
    · exact hP.traceFire k
    · exact k
  · exact hP.raw h

end

/-- Live register o of page p reads w, and the live registers are a map. -/
def Reads (p o : Nat) (w : Word) (t : State) : Prop := MapOk t.regs ∧ t.lv p o = w

/-- A live register that neither an event nor a log entry writes: no PAGE_EVENT, and neither of the counts of ignored triggers and of
lost log entries. -/
abbrev Aside (p o : Nat) : Prop :=
  regAddr p o % 4096 ≠ pageEvent ∧ regAddr p o ≠ regAddr pgTrace TRACE.TRIG_IGNORED ∧ regAddr p o ≠ regAddr pgNvlog NVLOG.LOST

theorem Reads.setLv_ne {p o q r : Nat} {v w : Word} {t : State} (h : Reads p o w t) (n : regAddr p o ≠ regAddr q r) :
    Reads p o w (t.setLv q r v) :=
  ⟨MapOk.set h.1, (State.lv_setLv_ne h.1 n).trans h.2⟩

theorem Reads.of_regs {p o : Nat} {w : Word} {t u : State} (h : Reads p o w t) (e : u.regs = t.regs) : Reads p o w u := by
  unfold Reads State.lv at *
  rwa [e]

theorem reads_inc16 {p o : Nat} {s : State} (h : MapOk s.regs) : Reads p o (countUp (s.lv p o)) (s.inc16 p o) :=
  ⟨MapOk.set h, State.lv_setLv_same h⟩

theorem reads_outlivesEvents {p o : Nat} {w : Word} (a : Aside p o) : OutlivesEvents (Reads p o w) where
  raw h := h.setLv_ne fun e => a.1 (by rw [e]; simp [regAddr, pageEvent])
  ignored h := h.setLv_ne a.2.1
  trace h := h.of_regs rfl

theorem Reads.event {p o q bits : Nat} {w : Word} {t : State} (h : Reads p o w t) (a : Aside p o) : Reads p o w (t.event q bits) :=
  (reads_outlivesEvents a).event h

theorem Reads.logAdd {p o kind cls m code : Nat} {w d : Word} {t : State} (h : Reads p o w t) (a : Aside p o) :
    Reads p o w (t.logAdd kind cls m code d) := by
  unfold State.logAdd
  dsimp only
  split
  · exact h.of_regs rfl
  · split
    · exact h.of_regs rfl
    · exact ((h.of_regs (u := t.onLog _) rfl).setLv_ne a.2.2).event a

/-! Masters. -/

theorem State.mstr_onMstr_same {s : State} {m : Master} {f : MasterSt → MasterSt} : (s.onMstr m f).mstr m = f (s.mstr m) := by
  cases m <;> rfl

theorem State.onMstr_regs {s : State} {m : Master} {f : MasterSt → MasterSt} : (s.onMstr m f).regs = s.regs := by
  cases m <;> rfl

/-- A change of parts that hold no master leaves both masters. -/
theorem Only.mstr {fs : List Part} {s t : State} (h : Only fs s t) (hh : .host ∉ fs) (hm : .mgr ∉ fs) (m : Master) :
    t.mstr m = s.mstr m := by
  cases m
  · exact h .host hh
  · exact h .mgr hm

/-! What a refusal leaves (R67). -/

/-- The event that a refusal by the manager adds leaves what outlives events. -/
theorem OutlivesEvents.refuseBy {P : State → Prop} (hP : OutlivesEvents P) {s : State} {m : Master} {e c a : Nat}
    (h : P (s.refuse m e c a)) : P (s.refuseBy m e c a) := by
  unfold State.refuseBy
  dsimp only
  split
  · exact hP.event h
  · exact h

/-- A refusal counts once in REFUSED_COUNT. -/
theorem State.refuseBy_counts {s : State} {m : Master} {e c a : Nat} (h : MapOk s.regs) :
    (s.refuseBy m e c a).lv pgSys SYS.REFUSED_COUNT = countUp (s.lv pgSys SYS.REFUSED_COUNT) := by
  have aside : Aside pgSys SYS.REFUSED_COUNT := by decide
  have counted : Reads pgSys SYS.REFUSED_COUNT (countUp (s.lv pgSys SYS.REFUSED_COUNT)) (s.refuse m e c a) :=
    Reads.logAdd (((reads_inc16 h).event aside).of_regs State.onMstr_regs) aside
  exact ((reads_outlivesEvents aside).refuseBy counted).2

theorem up_outlivesEvents {s : State} : OutlivesEvents (Up s) where
  raw h := h.eventRaw
  ignored h := h.setLv (by decide)
  trace h := h.same rfl

/-- A refusal sets CMD_REFUSED. -/
theorem State.refuseBy_flags {s : State} {m : Master} {e c a : Nat} (h : MapOk s.regs) : Flagged (s.refuseBy m e c a) pgSys 3 := by
  have ok : MapOk (s.inc16 pgSys SYS.REFUSED_COUNT).regs := MapOk.set h
  have flagged : Up ((s.inc16 pgSys SYS.REFUSED_COUNT).event pgSys 8) ((s.inc16 pgSys SYS.REFUSED_COUNT).event pgSys 8) :=
    Up.refl (Up.event (Up.refl ok)).ok
  have up : Up ((s.inc16 pgSys SYS.REFUSED_COUNT).event pgSys 8) (s.refuse m e c a) := by
    unfold State.refuse
    exact (flagged.same State.onMstr_regs).logAdd
  exact (up_outlivesEvents.refuseBy up).bits pgSys 3 (event_sets ok (by decide))

/-- A refusal is marked for the master's next STATUS (R411). -/
theorem State.refuseBy_marks {s : State} {m : Master} {e c a : Nat} : ((s.refuseBy m e c a).mstr m).prevRefused = true := by
  have marked : ((s.refuse m e c a).mstr m).prevRefused = true := by
    unfold State.refuse
    rw [Only.mstr (State.logAdd_only (fs := [.regs, .trace, .log]) (Only.refl _ _) rfl) (by decide) (by decide),
      State.mstr_onMstr_same]
  unfold State.refuseBy
  dsimp only
  split
  · rw [Only.mstr (State.event_only (fs := [.regs, .trace, .log]) (Only.refl _ _) rfl) (by decide) (by decide)]
    exact marked
  · exact marked

/-! Which staged writes are discarded, and with which code. -/

section
variable {s : State} {m : Master} {p : Nat}

theorem State.ownedByOther_iff : s.ownedByOther m = true ↔ ∃ o, s.stage.owner = some o ∧ o ≠ m := by
  unfold State.ownedByOther
  cases s.stage.owner <;> simp

/-- The test of R46: the MGMT page and the manager go together. -/
theorem pageForeign_iff : ((p == pgMgmt) != (m == .manager)) = true ↔ ¬ (p = pgMgmt ↔ m = .manager) := by
  rw [bne_iff_ne, Ne, Bool.eq_iff_iff, beq_iff_eq, beq_iff_eq]

theorem State.stagedFail_foreign (h : ¬ (p = pgMgmt ↔ m = .manager)) : s.stagedFail m p = some eRange :=
  if_pos (pageForeign_iff.mpr h)

theorem State.stagedFail_owned {o : Master} (h : p = pgMgmt ↔ m = .manager) (ho : s.stage.owner = some o) (n : o ≠ m) :
    s.stagedFail m p = some eOwned := by
  unfold State.stagedFail
  rw [if_neg (fun k => pageForeign_iff.mp k h), if_pos (State.ownedByOther_iff.mpr ⟨o, ho, n⟩)]

/-- On a page of the writer's, in a stage that is not the other master's, the stage's state decides. -/
theorem State.stagedFail_byState (h : p = pgMgmt ↔ m = .manager) (ho : s.stage.owner = some m ∨ s.stage.owner = none) :
    (s.stage.state = .opened ∨ s.stage.state = .proved ∨ s.stage.state = .failed → s.stagedFail m p = none) ∧
    (s.stage.state = .proving → s.stagedFail m p = some eBusy) ∧
    (s.stage.state = .closed ∨ s.stage.state = .armed → s.stagedFail m p = some eState) := by
  have free : ¬ s.ownedByOther m = true := by
    rw [State.ownedByOther_iff]
    rintro ⟨o, e, n⟩
    rcases ho with ho | ho <;> simp_all
  unfold State.stagedFail
  rw [if_neg (fun k => pageForeign_iff.mp k h), if_neg free]
  refine ⟨?_, ?_, ?_⟩
  · rintro (hs | hs | hs) <;> rw [hs]
  · intro hs; rw [hs]
  · rintro (hs | hs) <;> rw [hs]

end

/-! What a staged write does. -/

/-- A staged write that is taken: its word goes into the stage, the page becomes dirty, the stage OPEN, an earlier proof void. -/
def State.stagePut (s : State) (m : Master) (p o : Nat) (v : Word) : State :=
  (((s.touch m).setCd p o (stagedValue p o v)).onStage fun g => { g with state := .opened, proof := none }).markDirty p

section
variable {s : State} {m : Master} {addr : Addr} {v : Word} {p o : Nat}

theorem exec_stagedWrite_refused {e : Nat} (up : s.up = true) (lt : addr.toNat < 0x100000) (st : accAt addr.toNat = some .st)
    (h : s.stagedFail m (pageOf addr.toNat) = some e) :
    exec (.stagedWrite m addr v) s = .next (s.refuseBy m e 0 addr.toNat) := by
  show execStagedWrite m addr v s = _
  simp [execStagedWrite, State.stagedWrite, lt, st, up, h]

theorem exec_stagedWrite_taken (up : s.up = true) (lt : addr.toNat < 0x100000) (st : accAt addr.toNat = some .st)
    (h : s.stagedFail m (pageOf addr.toNat) = none) :
    exec (.stagedWrite m addr v) s = .next (s.stagePut m (pageOf addr.toNat) (offOf addr.toNat) v) := by
  show execStagedWrite m addr v s = _
  simp [execStagedWrite, State.stagedWrite, State.stagePut, lt, st, up, h]

theorem State.stagePut_only : Only [.stg, .stage, .host, .mgr] s (s.stagePut m p o v) :=
  State.markDirty_only (State.onStage_only (State.setCd_only (State.touch_only (Only.refl _ _) rfl) rfl) rfl) rfl

theorem State.touch_parts : (s.touch m).stage = s.stage ∧ (s.touch m).stg = s.stg ∧ (s.touch m).cfg = s.cfg := by
  have h : Only [.host, .mgr] s (s.touch m) := State.touch_only (Only.refl _ _) rfl
  exact ⟨h .stage (by decide), h .stg (by decide), h .cfg (by decide)⟩

theorem State.stagePut_stage : (s.stagePut m p o v).stage.state = .opened ∧ (s.stagePut m p o v).stage.proof = none ∧
    (s.stagePut m p o v).stage.owner = s.stage.owner := by
  obtain ⟨stage, -, -⟩ := State.touch_parts (s := s) (m := m)
  simp [State.stagePut, State.markDirty, stage]

theorem State.mem_dirty_stagePut {q : Nat} : q ∈ (s.stagePut m p o v).stage.dirty ↔ q = p ∨ q ∈ s.stage.dirty := by
  obtain ⟨stage, -, -⟩ := State.touch_parts (s := s) (m := m)
  by_cases listed : p ∈ s.stage.dirty
  · have known : q = p → q ∈ s.stage.dirty := fun e => e ▸ listed
    simpa [State.stagePut, State.markDirty, stage, listed] using known
  · simp [State.stagePut, State.markDirty, stage, listed]

/-- A page and an offset in it are those of their byte address. -/
theorem regAddr_eq_iff {q r a : Nat} (h : r < 4096) : regAddr q r = a ↔ q = pageOf a ∧ r = offOf a := by
  simp only [regAddr, pageOf, offOf]
  omega

theorem regAddr_pageOf_offOf {a : Nat} : regAddr (pageOf a) (offOf a) = a := Nat.div_add_mod' a 4096

/-- The words of the stage after a staged write that is taken: the one written, and every other as before. -/
theorem State.cd_stagePut {q r a : Nat} (h : MapOk s.stg) (hr : r < 4096) :
    (s.stagePut m (pageOf a) (offOf a) v).cd q r = if regAddr q r = a then stagedValue (pageOf a) (offOf a) v else s.cd q r := by
  obtain ⟨-, stg, cfg⟩ := State.touch_parts (s := s) (m := m)
  show ((s.touch m).setCd (pageOf a) (offOf a) _).cd q r = _
  split
  case isTrue e =>
    obtain ⟨rfl, rfl⟩ := (regAddr_eq_iff hr).mp e
    exact State.cd_setCd_same (stg ▸ h)
  case isFalse n =>
    rw [State.cd_setCd_ne (stg ▸ h) fun e => n (e.trans regAddr_pageOf_offOf)]
    unfold State.cd State.cf
    rw [stg, cfg]

end

/-- Settles O29: each clause names the test of `stagedFail` that decides it; a refused write is `refuseBy`, a taken one `stagePut`. -/
theorem stagedWrites : Obligations.StagedWrites := by
  intro m addr v s whole up lt st p mine ready refused
  have refuses : ∀ e, s.stagedFail m p = some e → refused e := fun e h =>
    ⟨_, exec_stagedWrite_refused up lt st h,
      ⟨rfl, State.refuseBy_counts whole.regs, State.refuseBy_flags whole.regs, State.refuseBy_marks⟩,
      State.refuseBy_only (Only.refl _ _) rfl⟩
  refine ⟨fun hm hr ho => ?taken, fun hm => refuses _ (State.stagedFail_foreign hm),
    fun o hm ho n => refuses _ (State.stagedFail_owned hm ho n),
    fun hm ho hs => have ⟨_, busy, _⟩ := State.stagedFail_byState hm ho; refuses _ (busy hs),
    fun hm ho hs => have ⟨_, _, idle⟩ := State.stagedFail_byState hm ho; refuses _ (idle hs)⟩
  case taken =>
    obtain ⟨passes, -, -⟩ := State.stagedFail_byState hm (.inl ho)
    obtain ⟨state, proof, owner⟩ := State.stagePut_stage (s := s) (m := m) (p := p) (o := offOf addr.toNat) (v := v)
    exact ⟨_, exec_stagedWrite_taken up lt st (passes hr),
      ⟨state, proof, owner.trans ho, fun _ => State.mem_dirty_stagePut, fun _ _ hr => State.cd_stagePut whole.stg hr⟩,
      State.stagePut_only⟩

/-! A state at which each clause acts. -/

/-- The fabric up, and the host's stage in state g. -/
def hostStage (g : StageState) : State :=
  { State.reset with power := { State.reset.power with phase := .up }, stage := { State.reset.stage with state := g, owner := some .host } }

theorem hostStage_whole (g : StageState) : Whole (hostStage g) where
  mem := rfl
  regs := rfl
  cfg := rfl
  stg := rfl
  chans := rfl
  units := rfl

/-- SYS.STAGE_LAYOUT (0x100) is taken from the host in OPEN and discarded in PROVING; from the manager it is discarded as out of range. -/
theorem stagedWrite_hostStage :
    (∃ t, exec (.stagedWrite .host 0x100 0x32) (hostStage .opened) = .next t ∧ pgSys ∈ t.stage.dirty) ∧
    exec (.stagedWrite .host 0x100 0x32) (hostStage .proving) = .next ((hostStage .proving).refuseBy .host eBusy 0 0x100) ∧
    exec (.stagedWrite .manager 0x100 0x32) (hostStage .opened) = .next ((hostStage .opened).refuseBy .manager eRange 0 0x100) := by
  have layout : accAt (0x100 : Addr).toNat = some .st := by decide
  have mine : pageOf (0x100 : Addr).toNat = pgMgmt ↔ Master.host = .manager := by decide
  have foreign : ¬ (pageOf (0x100 : Addr).toNat = pgMgmt ↔ Master.manager = .manager) := by decide
  have clauses (m g) := stagedWrites m 0x100 0x32 (hostStage g) (hostStage_whole g) rfl (by decide) layout
  obtain ⟨taken, -⟩ := clauses .host .opened
  obtain ⟨-, -, -, busy, -⟩ := clauses .host .proving
  obtain ⟨-, range, -⟩ := clauses .manager .opened
  refine ⟨?_, ?_, ?_⟩
  · obtain ⟨t, run, ⟨-, -, -, dirty, -⟩, -⟩ := taken mine (.inl rfl) rfl
    exact ⟨t, run, (dirty pgSys).mpr (.inl rfl)⟩
  · obtain ⟨_, run, ⟨rfl, -⟩, -⟩ := busy mine (.inl rfl) rfl
    exact run
  · obtain ⟨_, run, ⟨rfl, -⟩, -⟩ := range foreign
    exact run

end Sys2Proof.Machine
end

section
/-!
PROOF. Urgent triggers (R74): what a trigger of an urgent task that runs does, by the task's last release and by what is held, and what
the end of a hold does.
-/
namespace Sys2Proof.Machine

open Sys2Proof.Safety Sys2Proof.Claims

/-! One lane, one count. -/

theorem lanes_length {s : State} (h : Whole s) : s.lanes.length = 8 := by
  have units := h.units
  simp only [unitCounts, List.cons.injEq] at units
  obtain ⟨-, -, -, -, -, -, -, -, -, lanes, -⟩ := units
  exact lanes

theorem State.ln_onLn_same {s : State} {n : Nat} {f : LaneSt → LaneSt} (h : n < s.lanes.length) : (s.onLn n f).ln n = f (s.ln n) :=
  (@modify_getD LaneSt ⟨{}⟩ s.lanes n n f {}).trans (if_pos ⟨rfl, h⟩)

/-- Registers of pages have addresses of their own. -/
theorem regAddr_inj {p q o r : Nat} (ho : o < 4096) (hr : r < 4096) : regAddr q r = regAddr p o ↔ q = p ∧ r = o := by
  simp only [regAddr]
  omega

theorem oneReg_inc16 {s : State} {p o : Nat} (h : MapOk s.regs) (ho : o < 4096) : OneReg s p o countUp (s.inc16 p o) := by
  intro q r hr
  split
  case isTrue e =>
    obtain ⟨rfl, rfl⟩ := e
    exact (reads_inc16 h).2
  case isFalse n => exact State.lv_setLv_ne h fun e => n ((regAddr_inj ho hr).mp e)

/-! Triggers of an urgent task that runs. -/

/-- Slot i of lane n holds an urgent task that a trigger may release: the fabric is up, the lane in service, the task enabled and of
class 1, and its code runs at the power state in force. -/
structure UrgentRuns (s : State) (n i : Nat) : Prop where
  up : s.up = true
  service : s.chRet 5 n = false
  enabled : taskEn s.force n i = true
  cls : taskCls s.force n i = 1
  code : s.codeRuns n i = true

section
variable {s : State} {n i t0 d : Nat}

/-- A task never released, or released long enough ago, is released at once. -/
theorem State.urgentFire_release (h : UrgentRuns s n i)
    (hr : mapFind (s.ln n).lastRel i = none ∨ ∃ t0, mapFind (s.ln n).lastRel i = some t0 ∧ t0 + taskArrival s.force n i ≤ s.now) :
    s.urgentFire n i = s.urgentRelease n i := by
  obtain ⟨up, service, enabled, cls, code⟩ := h
  rcases hr with never | ⟨t0, last, le⟩
  · simp [State.urgentFire, up, service, enabled, cls, code, never]
  · simp [State.urgentFire, up, service, enabled, cls, code, last, le]

/-- Too early a trigger is held until the inter-arrival time has elapsed. -/
theorem State.urgentFire_hold (h : UrgentRuns s n i) (last : mapFind (s.ln n).lastRel i = some t0)
    (early : s.now < t0 + taskArrival s.force n i) (idle : s.due (.urgentHold n i) = none) :
    s.urgentFire n i = s.startT (.urgentHold n i) (t0 + taskArrival s.force n i) := by
  obtain ⟨up, service, enabled, cls, code⟩ := h
  simp [State.urgentFire, up, service, enabled, cls, code, last, Nat.not_le.mpr early, idle]

/-- Too early a trigger with one held already only counts. -/
theorem State.urgentFire_merge (h : UrgentRuns s n i) (last : mapFind (s.ln n).lastRel i = some t0)
    (early : s.now < t0 + taskArrival s.force n i) (held : s.due (.urgentHold n i) = some d) :
    s.urgentFire n i = s.inc16 (pgLane n) LANE.URGENT_MERGED := by
  obtain ⟨up, service, enabled, cls, code⟩ := h
  simp [State.urgentFire, up, service, enabled, cls, code, last, Nat.not_le.mpr early, held]

/-- Whether an urgent task runs depends on neither the tick nor the deadlines. -/
theorem UrgentRuns.reach_stopT {t : Timer} (h : UrgentRuns s n i) : UrgentRuns ((s.reach d).stopT t) n i :=
  ⟨h.up, h.service, h.enabled, h.cls, h.code⟩

theorem State.ln_urgentRelease (h : n < s.lanes.length) : (s.urgentRelease n i).ln n =
    { s.ln n with urgent := (s.ln n).urgent ++ [i], lastRel := mapPut (s.ln n).lastRel i s.now } :=
  State.ln_onLn_same h

end

section
variable {s : State} {l : LaneIx} {i : SlotIx} {d : Nat}

theorem exec_urgentTrigger : exec (.urgentTrigger l i) s = .next (s.urgentFire l.val i.val) := rfl

/-- At the end of its hold a task that still runs is released. -/
theorem exec_urgentHoldExpiry_due (h : UrgentRuns s l.val i.val) (held : s.due (.urgentHold l.val i.val) = some d) :
    exec (.urgentHoldExpiry l i) s = .next (((s.reach d).stopT (.urgentHold l.val i.val)).urgentRelease l.val i.val) := by
  show execUrgentHoldExpiry l i s = _
  obtain ⟨up, service, enabled, cls, code⟩ := h.reach_stopT (d := d) (t := .urgentHold l.val i.val)
  simp only [execUrgentHoldExpiry, State.expire_due held]
  simp [up, service, enabled, cls, code]

end

/-- Settles O22: a trigger releases, holds or counts by the last release and by the hold that runs; the end of the hold releases. -/
theorem urgentTriggers : Obligations.UrgentTriggers := by
  intro l i s whole up service enabled cls code x due
  have runs : UrgentRuns s l.val i.val := ⟨up, service, enabled, cls, code⟩
  have lane : l.val < s.lanes.length := (lanes_length whole).symm ▸ l.isLt
  have fires {t : State} (e : s.urgentFire l.val i.val = t) : exec (.urgentTrigger l i) s = .next t := e ▸ exec_urgentTrigger
  refine ⟨fun hr => ?release, fun t0 last early idle => ?hold, fun t0 d last early held => ?merge, fun d held => ?expiry⟩
  case release =>
    exact ⟨_, fires (State.urgentFire_release runs hr), State.ln_urgentRelease lane, State.urgentRelease_only (Only.refl _ _) rfl⟩
  case hold =>
    exact ⟨_, fires (State.urgentFire_hold runs last early idle), State.due_startT_same, State.startT_only (Only.refl _ _) rfl⟩
  case merge =>
    exact ⟨_, fires (State.urgentFire_merge runs last early held), oneReg_inc16 whole.regs (by decide),
      State.inc16_only (Only.refl _ _) rfl⟩
  case expiry =>
    exact ⟨_, exec_urgentHoldExpiry_due runs held, ⟨rfl, State.due_stopT_same, State.ln_urgentRelease lane⟩,
      State.urgentRelease_only (State.stopT_only (State.reach_only (Only.refl _ _) rfl) rfl) rfl⟩

/-! A state at which each clause acts. -/

/-- The fabric up at tick 100; slot 0 of lane 0 an enabled urgent task of 250 ticks inter-arrival time, with its last release and its
hold as given. -/
def urgentLane (last : List (Nat × Nat)) (holds : List (Timer × Nat)) : State :=
  { State.reset with
    power := { State.reset.power with phase := .up }
    time := { State.reset.time with tick := 100 }
    cfg := [(regAddr (pgLane 0) (LANE.TASK_CFG 0), 3), (regAddr (pgLane 0) (LANE.TASK_ARRIVAL 0), 250)]
    lanes := State.reset.lanes.set 0 { lastRel := last }
    timers := holds }

theorem urgentLane_whole (last : List (Nat × Nat)) (holds : List (Timer × Nat)) : Whole (urgentLane last holds) where
  mem := rfl
  regs := rfl
  cfg := rfl
  stg := rfl
  chans := rfl
  units := rfl

theorem urgentLane_runs (last : List (Nat × Nat)) (holds : List (Timer × Nat)) : UrgentRuns (urgentLane last holds) 0 0 where
  up := rfl
  service := rfl
  enabled := show bt (3 : Word) 0 = true by decide
  cls := show fld (3 : Word) 2 1 = 1 by decide
  code := rfl

/-- A task not released before is released at once. Released at tick 60, it is held until 310; a second trigger before that counts in
URGENT_MERGED; at 310 the task is released. -/
theorem urgentTrigger_urgentLane :
    (∃ t, exec (.urgentTrigger 0 0) (urgentLane [] []) = .next t ∧ (t.ln 0).urgent = [0] ∧ (t.ln 0).lastRel = [(0, 100)]) ∧
    (∃ t, exec (.urgentTrigger 0 0) (urgentLane [(0, 60)] []) = .next t ∧ t.due (.urgentHold 0 0) = some 310) ∧
    (∃ t, exec (.urgentTrigger 0 0) (urgentLane [(0, 60)] [(.urgentHold 0 0, 310)]) = .next t ∧
      t.lv (pgLane 0) LANE.URGENT_MERGED = 1) ∧
    (∃ t, exec (.urgentHoldExpiry 0 0) (urgentLane [(0, 60)] [(.urgentHold 0 0, 310)]) = .next t ∧
      t.now = 310 ∧ (t.ln 0).urgent = [0] ∧ (t.ln 0).lastRel = [(0, 310)]) := by
  have clauses (last holds) :=
    have ⟨up, service, enabled, cls, code⟩ := urgentLane_runs last holds
    urgentTriggers 0 0 (urgentLane last holds) (urgentLane_whole last holds) up service enabled cls code
  obtain ⟨released, -⟩ := clauses [] []
  obtain ⟨-, held, -⟩ := clauses [(0, 60)] []
  obtain ⟨-, -, merged, expired⟩ := clauses [(0, 60)] [(.urgentHold 0 0, 310)]
  refine ⟨?_, ?_, ?_, ?_⟩
  · obtain ⟨t, run, lane, -⟩ := released (.inl rfl)
    exact ⟨t, run, congrArg LaneSt.urgent lane, congrArg LaneSt.lastRel lane⟩
  · obtain ⟨t, run, due, -⟩ := held 60 rfl (by decide) rfl
    exact ⟨t, run, due⟩
  · obtain ⟨t, run, counted, -⟩ := merged 60 310 rfl (by decide) rfl
    exact ⟨t, run, counted (pgLane 0) LANE.URGENT_MERGED (by decide)⟩
  · obtain ⟨t, run, ⟨time, -, lane⟩, -⟩ := expired 310 rfl
    exact ⟨t, run, congrArg TimeSt.tick time, congrArg LaneSt.urgent lane, congrArg LaneSt.lastRel lane⟩

end Sys2Proof.Machine
end

section
/-!
PROOF. The charge pump (R260): what the fall of VCP turns off, flags and raises, what its return allows again, and which switches of
charge-pump class may turn on.
-/
namespace Sys2Proof.Machine

open Sys2Proof.Safety Sys2Proof.Claims

/-! Repetition. -/

/-- What one turn of a repetition brings about and every turn keeps holds at its end. -/
theorem forL_reaches {α : Type} {I P : State → Prop} {f : α → State → State} {i : α} {l : List α} {s : State} (mem : i ∈ l)
    (inv : ∀ j t, I t → I (f j t)) (reach : ∀ t, I t → P (f i t)) (keep : ∀ j t, P t → P (f j t)) (h : I s) : P (forL l f s) := by
  obtain ⟨before, after, rfl⟩ := List.append_of_mem mem
  have turn : forL (before ++ i :: after) f s = forL after f (f i (forL before f s)) := by simp [forL, List.foldl_append]
  rw [turn]
  exact forL_ind keep after (reach _ (forL_ind inv before h))

/-! Every leg present, and the class of its high side. -/

theorem legs_length {s : State} (h : Whole s) : s.legs.length = 32 := by
  have units := h.units
  simp only [unitCounts, List.cons.injEq] at units
  obtain ⟨-, -, -, -, -, -, -, -, legs, -⟩ := units
  exact legs

section
variable {s t : State} {l : Nat}

/-- The class of an internal leg's high side is staged configuration. -/
theorem legPump_congr (hl : l < 12) (e : t.cfg = s.cfg) : legPump t.force l = legPump s.force l := by
  have staged : ¬ GD.GD_CFG (l % 6) < 0x100 := by simp
  unfold legPump State.force State.cf
  rw [if_pos hl, if_pos hl, if_neg staged, if_neg staged, e]

/-- While CPUV is set, no high side of charge-pump class may turn on. -/
theorem mayTurnOn_cpuv (hl : l < 12) (pump : legPump s.force l = true) (low : s.pdie.cpuv = true) : s.mayTurnOn l true = false := by
  simp [State.mayTurnOn, hl, pump, low]

/-- While CPUV is clear, the leg's own holds alone decide. -/
theorem mayTurnOn_no_cpuv (back : s.pdie.cpuv = false) : s.mayTurnOn l true =
    (!(s.lg l).waitEdge && !(s.lg l).cross && !(s.lg l).retired && (!(s.lg l).vdsHoldH && !(s.lg l).bsuv)) := by
  simp [State.mayTurnOn, back]

end

/-! The high sides of charge-pump class. -/

/-- Leg l's high side turned off and no longer watched, if it is of charge-pump class. -/
def State.pumpOff (l : Nat) (s : State) : State :=
  if legPump s.force l then s.onLg l fun x => { x with hsOn := false, watchH := false } else s

section
variable {s : State} {l j n : Nat}

theorem State.pumpOff_only : Only [.legs] s (s.pumpOff j) := only_ite (State.onLg_only (Only.refl _ _) rfl) (Only.refl _ _)

theorem State.pumpOff_length : (s.pumpOff j).legs.length = s.legs.length := by
  unfold State.pumpOff
  split
  · simp [State.onLg]
  · rfl

theorem State.pumpOff_off (present : l < s.legs.length) (pump : legPump s.force l = true) : ((s.pumpOff l).lg l).hsOn = false := by
  rw [State.pumpOff, if_pos pump, onLg_lg, if_pos ⟨rfl, present⟩]

/-- A high side that is off stays off. -/
theorem State.pumpOff_keeps (h : (s.lg l).hsOn = false) : ((s.pumpOff j).lg l).hsOn = false := by
  unfold State.pumpOff
  split
  · rw [onLg_lg]
    split
    · rfl
    · exact h
  · exact h

/-- Of the first n legs, each internal one of charge-pump class ends with its high side off. -/
theorem forN_pumpOff (hn : l < n) (hl : l < 12) (present : l < s.legs.length) (pump : legPump s.force l = true) :
    ((forN n State.pumpOff s).lg l).hsOn = false :=
  forL_reaches (I := fun t => l < t.legs.length ∧ legPump t.force l = true) (P := fun t => (t.lg l).hsOn = false)
    (List.mem_range.mpr hn)
    (fun _ _ h => ⟨h.1.trans_eq State.pumpOff_length.symm, (legPump_congr hl (State.pumpOff_only .cfg (by decide))).trans h.2⟩)
    (fun _ h => State.pumpOff_off h.1 h.2) (fun _ _ h => State.pumpOff_keeps h) ⟨present, pump⟩

theorem Up.pumpOff {t : State} (h : Up s t) : Up s (t.pumpOff j) := h.same (State.pumpOff_only .regs (by decide))

end

/-! The fall of VCP. -/

/-- CPUV sets in the power die and as event 10 of its page. -/
def State.cpuvFlag (s : State) : State := (s.onPdie fun x => { x with cpuv := true }).event pgPlink 0x400

/-- CPUV is flagged and every internal high side of charge-pump class turns off, before the source is raised. -/
def State.cpuvOff (s : State) : State := forN 12 State.pumpOff s.cpuvFlag

section
variable {s : State} {l : Nat}

theorem exec_cpuv (linked : s.linked = true) : exec .cpuv s = .next (s.cpuvSet true) :=
  show execCpuv s = _ from if_pos linked

theorem State.cpuvSet_fall (h : s.pdie.cpuv = false) : s.cpuvSet true = s.cpuvOff.raise srcCpuv 16 := by
  rw [State.cpuvSet, if_neg (by simp [h]), if_pos rfl]
  rfl

/-- VCP already low: nothing changes. -/
theorem State.cpuvSet_again (h : s.pdie.cpuv = true) : s.cpuvSet true = s := if_pos h.symm

theorem State.cpuvFlag_only : Only [.regs, .trace] (s.onPdie fun x => { x with cpuv := true }) s.cpuvFlag :=
  State.event_only (Only.refl _ _) rfl

theorem State.cpuvOff_only : Only [.legs] s.cpuvFlag s.cpuvOff :=
  forN_only (fun _ _ h => Only.upd h rfl State.pumpOff_only) (Only.refl _ _)

theorem State.cpuvSet_fall_flags (ok : MapOk s.regs) : Flagged (s.cpuvOff.raise srcCpuv 16) pgPlink 10 := by
  have flagged : Flagged s.cpuvFlag pgPlink 10 := event_sets ok (by decide)
  have okFlag : MapOk s.cpuvFlag.regs := (Up.event (Up.refl (s := s.onPdie _) ok)).ok
  have off : Up s.cpuvFlag s.cpuvOff := (Up.refl okFlag).forN fun _ _ h => h.pumpOff
  exact off.raise.bits pgPlink 10 flagged

/-- Beside CPUV in the power die, the fall leaves the power die and the configuration. -/
theorem State.cpuvSet_fall_only : Only [.regs, .axes, .legs, .safety, .trace, .log] (s.onPdie fun x => { x with cpuv := true })
    (s.cpuvOff.raise srcCpuv 16) :=
  State.raise_only (Only.upd (Only.upd (Only.refl _ _) rfl State.cpuvFlag_only) rfl State.cpuvOff_only) rfl

theorem State.cpuvSet_fall_pdie : (s.cpuvOff.raise srcCpuv 16).pdie = { s.pdie with cpuv := true } :=
  State.cpuvSet_fall_only .pdie (by decide)

theorem State.cpuvSet_fall_cfg : (s.cpuvOff.raise srcCpuv 16).cfg = s.cfg := State.cpuvSet_fall_only .cfg (by decide)

theorem State.cpuvSet_fall_high (hl : l < 12) (present : l < s.legs.length) (pump : legPump s.force l = true) :
    ((s.cpuvOff.raise srcCpuv 16).lg l).hsOn = false ∧ (s.cpuvOff.raise srcCpuv 16).mayTurnOn l true = false := by
  have legs : s.cpuvFlag.legs = s.legs := State.cpuvFlag_only .legs (by decide)
  have cfg : s.cpuvFlag.cfg = s.cfg := State.cpuvFlag_only .cfg (by decide)
  have off : (s.cpuvOff.lg l).hsOn = false := forN_pumpOff hl hl (legs ▸ present) ((legPump_congr hl cfg).trans pump)
  have same : (s.cpuvOff.raise srcCpuv 16).lg l = s.cpuvOff.lg l :=
    congrArg (·.getD l {})
      ((State.raise_only (fs := [.regs, .axes, .safety, .trace, .log]) (Only.refl _ _) rfl) .legs (by decide))
  exact ⟨same ▸ off, mayTurnOn_cpuv hl ((legPump_congr hl State.cpuvSet_fall_cfg).trans pump)
    (congrArg PowerDieSt.cpuv State.cpuvSet_fall_pdie)⟩

/-! The return of VCP. -/

theorem exec_cpuvRelease (linked : s.linked = true) (h : s.pdie.cpuv = true) :
    exec .cpuvRelease s = .next ((s.onPdie fun x => { x with cpuv := false }).clearSrc srcCpuv 16) := by
  show execCpuvRelease s = _
  simp [execCpuvRelease, State.cpuvSet, linked, h]

theorem State.cpuvRelease_only : Only [.pdie, .safety] s ((s.onPdie fun x => { x with cpuv := false }).clearSrc srcCpuv 16) :=
  State.clearSrc_only (State.onPdie_only (Only.refl _ _) rfl) rfl

end

/-- Settles O27: the fall of VCP is `cpuvOff` and the source raised, which leaves legs and power die; its return clears CPUV, so that
each leg's own holds decide again, and ends the source. -/
theorem chargePump : Obligations.ChargePump := by
  refine ⟨rfl, fun s whole linked => ⟨fun up => ?fall, fun low => ⟨?again, ?release⟩⟩⟩
  case fall =>
    have present : ∀ l < 12, l < s.legs.length := fun l hl => by rw [legs_length whole]; omega
    refine ⟨_, exec_cpuv linked, ?_, State.cpuvSet_only (Only.refl _ _) rfl⟩
    rw [State.cpuvSet_fall up]
    exact ⟨State.cpuvSet_fall_pdie, State.cpuvSet_fall_flags whole.regs, raise_on,
      fun l hl => State.cpuvSet_fall_high hl (present l hl)⟩
  case again => rw [exec_cpuv linked, State.cpuvSet_again low]
  case release =>
    exact ⟨_, exec_cpuvRelease linked low, ⟨rfl, clearSrc_off, rfl, fun _ _ _ => mayTurnOn_no_cpuv rfl⟩, State.cpuvRelease_only⟩

/-! A state at which each clause acts. -/

/-- The fabric up, VCP as given; leg 0's high side on, of charge-pump class (GD_CFG bit 8). -/
def pumpLeg (low : Bool) : State :=
  { State.reset with
    power := { State.reset.power with phase := .up }
    cfg := [(regAddr (pgGd 0) (GD.GD_CFG 0), 0x100)]
    legs := State.reset.legs.set 0 { hsOn := true, waitEdge := false }
    pdie := { State.reset.pdie with cpuv := low } }

theorem pumpLeg_whole (low : Bool) : Whole (pumpLeg low) where
  mem := rfl
  regs := rfl
  cfg := rfl
  stg := rfl
  chans := rfl
  units := rfl

/-- The fall of VCP turns the high side of leg 0 off and bars it; the return of VCP lets it turn on. -/
theorem cpuv_pumpLeg :
    (∃ t, exec .cpuv (pumpLeg false) = .next t ∧ (t.lg 0).hsOn = false ∧ t.mayTurnOn 0 true = false ∧ t.srcOn srcCpuv 16 = true) ∧
    (∃ t, exec .cpuvRelease (pumpLeg true) = .next t ∧ (t.lg 0).hsOn = true ∧ t.mayTurnOn 0 true = true) := by
  have pump (low) : legPump (pumpLeg low).force 0 = true := show bt (0x100 : Word) 8 = true by decide
  obtain ⟨-, clauses⟩ := chargePump
  obtain ⟨fall, -⟩ := clauses (pumpLeg false) (pumpLeg_whole _) rfl
  obtain ⟨-, release⟩ := clauses (pumpLeg true) (pumpLeg_whole _) rfl
  refine ⟨?_, ?_⟩
  · obtain ⟨t, run, ⟨-, -, on, high⟩, -⟩ := fall rfl
    obtain ⟨off, barred⟩ := high 0 (by decide) (pump _)
    exact ⟨t, run, off, barred, on⟩
  · obtain ⟨-, t, run, ⟨-, -, legs, free⟩, -⟩ := release rfl
    exact ⟨t, run, (congrArg (fun x => (x.getD 0 {}).hsOn) legs), free 0 (by decide) (pump _)⟩

end Sys2Proof.Machine
end

section
/-!
SUPPORT. What a lane leaves after an instruction that it issues: an instruction row is a step of its lane, an effect that lets the
activation go on is `goesOn`, and one that stays within the bank is `goesBy`.
-/
namespace Sys2Proof.Machine

open Sys2Proof.Safety Sys2Proof.Claims

/-! Instruction rows. -/

/-- A row of the lane table, as a command, is a step of the lane that it names. -/
theorem exec_eq_laneStep {i : Instr} {n : Nat} {op : LaneOp} (row : laneTable i = some (n, op)) (s : State) :
    ∃ l : LaneIx, l.val = n ∧ exec i s = .next (s.laneStep l i op) := by
  unfold laneTable at row
  split at row
  all_goals cases row
  all_goals exact ⟨_, rfl, rfl⟩

section
variable {s : State} {l : LaneIx} {i : Instr} {op : LaneOp} {bk : Bank} {k : BankSt} {e : LaneEff}

theorem exec_of_laneTable (row : laneTable i = some (l.val, op)) : exec i s = .next (s.laneStep l i op) := by
  obtain ⟨l', same, run⟩ := exec_eq_laneStep row s
  obtain rfl := Fin.ext same
  exact run

/-! One instruction. -/

/-- An effect after which the activation goes on: no stop, no uncorrectable word read, no END. -/
structure LaneEff.GoesOn (e : LaneEff) : Prop where
  stop : e.stop = false
  ecc : e.ecc = false
  ended : e.ended = false

/-- An instruction that is issued and lets the activation go on applies its effect. -/
theorem exec_issued (issues : Issues s l i bk k) (row : laneTable i = some (l.val, op)) (on : (op s l.val bk k).GoesOn) :
    exec i s = .next (s.laneApply l.val bk (op s l.val bk k)) := by
  rw [exec_of_laneTable row, laneStep_issue issues.up issues.turn issues.code issues.ecc issues.word, on.stop, on.ecc, on.ended]
  rfl

/-- What an effect leaves, after its stores to the data store. -/
theorem laneApply_eq_goesOn (issues : Issues s l i bk k) :
    s.laneApply l.val bk e =
      goesOn (s.localStores l.val e) l.val bk k (k.results e) (e.loops.getD (s.ln l.val).loops) e.skip e.branch := by
  obtain ⟨rfl, -⟩ := laneTurn_bank issues.turn
  rfl

/-- An effect that changes registers of the bank alone. -/
structure LaneEff.InBank (e : LaneEff) : Prop extends e.GoesOn where
  loops : e.loops = none
  skip : e.skip = none
  branch : e.branch = none
  stores : e.stores = []

theorem exec_inBank (issues : Issues s l i bk k) (row : laneTable i = some (l.val, op)) (inBank : (op s l.val bk k).InBank) :
    exec i s = .next (goesBy s l.val bk k (k.results (op s l.val bk k))) := by
  have noStore : s.localStores l.val (op s l.val bk k) = s := by simp [State.localStores, inBank.stores, forL]
  rw [exec_issued issues row inBank.toGoesOn, laneApply_eq_goesOn issues, noStore, inBank.loops, inBank.skip, inBank.branch]
  rfl

end

/-! A state at which a lane issues. -/

/-- The fabric up; lane 0 runs slot 0 from bank F, whose registers are k, with loop registers g; its first code word is the word of i. The
code and the data range hold 16 words each, and the task's bound is 256. -/
def laneAt (i : Instr) (k : BankSt) (g : LoopRegs) : State :=
  { State.reset with
    power := { State.reset.power with phase := .up }
    cfg := [(regAddr (pgLane 0) LANE.CODE_RANGE, 0x100000), (regAddr (pgLane 0) LANE.DATA_RANGE, 0x100000),
      (regAddr (pgLane 0) (LANE.TASK_BOUND 0), 256)]
    mem := (State.reset.putWord (codeAddr 0 0) ((encodeLane i).getD 0)).mem
    lanes := State.reset.lanes.set 0 { running := some .f, bankF := k, loops := g } }

theorem laneAt_issues {i : Instr} {k : BankSt} {g : LoopRegs} (first : k.pc = 0) (runs : k.slot = some 0) (fresh : k.executed = 0)
    (word : decodeLaneWord 0 ((laneAt i k g).wordAt (codeAddr 0 0)) = some i) : Issues (laneAt i k g) 0 i .f k where
  up := rfl
  turn := by
    have lane : (laneAt i k g).ln 0 = { running := some .f, bankF := k, loops := g } := rfl
    have bound : taskBound (laneAt i k g).force 0 0 = 256 := rfl
    simp [State.laneTurn, lane, LaneSt.bank, runs, bound, fresh]
  code := by
    have own : (laneAt i k g).rangesOf 0 = [0] := rfl
    have range : (laneAt i k g).force (pgLane 0) LANE.CODE_RANGE = 0x100000 := rfl
    simp [State.inCode, own, codeRange, range, fld, first]
  ecc := rfl
  word := by rw [first]; exact word

/-! Results in registers (R325 to R327). -/

/-- The clamp to a range is the nearer bound. -/
theorem clampI_eq {lo hi : Int} (range : lo ≤ hi) (x : Int) : clampI lo hi x = max lo (min hi x) := by
  unfold clampI
  split
  · omega
  · split <;> omega

/-- The clamp acts beyond the range. -/
theorem clampI_ne {lo hi : Int} (range : lo ≤ hi) (x : Int) : (clampI lo hi x != x) = decide (x < lo ∨ hi < x) := by
  rw [clampI_eq range, Bool.eq_iff_iff, bne_iff_ne, decide_eq_true_iff]
  omega

theorem clip32_eq (x : Int) : clip32 x = (sat32 x, clamps32 x) :=
  Prod.ext (congrArg (BitVec.ofInt 32) (clampI_eq (by decide) x)) (clampI_ne (by decide) x)

theorem clip72_eq (x : Int) : clip72 x = (sat72 x, clamps72 x) :=
  Prod.ext (congrArg (BitVec.ofInt 72) (clampI_eq (by decide) x)) (clampI_ne (by decide) x)

section
variable (k : BankSt) (d : DReg) (acc : AccReg) (x : Int)

theorem results_effSat : k.results (effSat d (clip32 x)) = withDSat k d x := by
  simp [BankSt.results, effSat, withDSat, withD, clip32_eq]

theorem results_effMulD : k.results (effMulD d (clip32 x)) = withDMul k d (sat32 x) (clamps32 x) := by
  simp [BankSt.results, effMulD, withDMul, clip32_eq]

theorem results_effMulA : k.results (effMulA acc (clip72 x)) = withAccMul k acc x := by
  simp [BankSt.results, effMulA, withAccMul, clip72_eq]

end

section
variable {i : LaneIx → Instr} {d : DReg} {acc : AccReg} (x : BankSt → Int)

/-- A row whose effect is a saturating result in Dd. -/
theorem issued_effSat (row : ∀ l, laneTable (i l) = some (l.val, fun _ _ _ k => effSat d (clip32 (x k)))) :
    Issued i fun k => withDSat k d (x k) := fun l _ _ k issues => by
  rw [exec_inBank issues (row l) ⟨⟨rfl, rfl, rfl⟩, rfl, rfl, rfl, rfl⟩, results_effSat]

/-- A row whose effect is a multiplier result in Dd. -/
theorem issued_effMulD (row : ∀ l, laneTable (i l) = some (l.val, fun _ _ _ k => effMulD d (clip32 (x k)))) :
    Issued i fun k => withDMul k d (sat32 (x k)) (clamps32 (x k)) := fun l _ _ k issues => by
  rw [exec_inBank issues (row l) ⟨⟨rfl, rfl, rfl⟩, rfl, rfl, rfl, rfl⟩, results_effMulD]

/-- A row whose effect is a multiplier result in an accumulator. -/
theorem issued_effMulA (row : ∀ l, laneTable (i l) = some (l.val, fun _ _ _ k => effMulA acc (clip72 (x k)))) :
    Issued i fun k => withAccMul k acc (x k) := fun l _ _ k issues => by
  rw [exec_inBank issues (row l) ⟨⟨rfl, rfl, rfl⟩, rfl, rfl, rfl, rfl⟩, results_effMulA]

end

end Sys2Proof.Machine
end

section
/-!
PROOF. The multiplier and its accumulators (R325, R328): the six rows, the guard bits, and what the chain takes.
-/
namespace Sys2Proof.Machine

open Sys2Proof.Safety Sys2Proof.Claims

/-! The product. -/

section
variable (k : BankSt) (a b : DReg)

theorem product_frac : product k true a b = 2 * (k.dReg a.val).toInt * (k.dReg b.val).toInt := by
  simp only [product, if_true]
  ring

theorem product_int : product k false a b = (k.dReg a.val).toInt * (k.dReg b.val).toInt := by
  simp only [product, Bool.false_eq_true, if_false, mul_one]

end

/-- A word is a signed number of 32 bits. -/
theorem toInt_bounds (w : Word) : -2 ^ 31 ≤ w.toInt ∧ w.toInt < 2 ^ 31 := ⟨BitVec.le_toInt w, BitVec.toInt_lt⟩

theorem abs_toInt_le (w : Word) : |w.toInt| ≤ 2 ^ 31 := abs_le.mpr ⟨(toInt_bounds w).1, (toInt_bounds w).2.le⟩

/-- The product of two words has magnitude 2^62 at most, which -1 × -1 reaches. -/
theorem abs_mul_toInt_le (a b : Word) : |a.toInt * b.toInt| ≤ 2 ^ 62 := by
  calc |a.toInt * b.toInt| = |a.toInt| * |b.toInt| := abs_mul _ _
    _ ≤ 2 ^ 31 * 2 ^ 31 := mul_le_mul (abs_toInt_le a) (abs_toInt_le b) (abs_nonneg _) (by decide)
    _ = 2 ^ 62 := by norm_num

theorem clamps72_of_abs_lt {x : Int} (h : |x| < 2 ^ 71) : clamps72 x = false := by
  rw [abs_lt] at h
  simp only [clamps72, decide_eq_false_iff_not]
  omega

/-- The guard bits hold 255 full-scale fractional products (R325). -/
theorem abs_products_lt (a b : Word) : |255 * (2 * a.toInt * b.toInt)| < 2 ^ 71 := by
  have product := abs_le.mp (abs_mul_toInt_le a b)
  rw [mul_assoc 2, abs_lt]
  omega

/-! The chain (R328). -/

/-- The chain takes one result in flight. -/
def chainTake (acc : AccReg) (v : BitVec 72) (x : InFlight) : BitVec 72 :=
  match x with
  | .acc _ r w => if r = acc then w else v
  | _ => v

theorem chain_eq (k : BankSt) (acc : AccReg) : k.chain acc = k.inFlight.foldl (chainTake acc) (k.aReg acc.val) := rfl

theorem chainTake_ne {acc : AccReg} {v : BitVec 72} {x : InFlight} (other : ∀ n w, x ≠ .acc n acc w) : chainTake acc v x = v := by
  cases x with
  | d n r w => rfl
  | acc n r w => exact if_neg fun same => other n w (congrArg (InFlight.acc n · w) same)

theorem foldl_chainTake_none {acc : AccReg} {v : BitVec 72} {xs : List InFlight} (absent : ∀ n w, .acc n acc w ∉ xs) :
    xs.foldl (chainTake acc) v = v := by
  induction xs with
  | nil => rfl
  | cons x xs ih =>
    rw [List.foldl_cons, chainTake_ne fun n w e => absent n w (e ▸ List.mem_cons_self)]
    exact ih fun n w mem => absent n w (List.mem_cons_of_mem _ mem)

theorem chain_of_none {k : BankSt} {acc : AccReg} (absent : ∀ n w, .acc n acc w ∉ k.inFlight) : k.chain acc = k.aReg acc.val :=
  foldl_chainTake_none absent

theorem chain_of_latest {k : BankSt} {xs : List InFlight} {n : Nat} {acc : AccReg} {v : BitVec 72}
    (latest : k.inFlight = xs ++ [.acc n acc v]) : k.chain acc = v := by
  rw [chain_eq, latest, List.foldl_append]
  exact if_pos rfl

/-- Settles O9: each row is a multiplier result of the product and the chain; the guard bits hold 255 products because a product has
magnitude 2^63 at most. -/
theorem laneMultiplyAccumulate : Obligations.LaneMultiplyAccumulate := by
  refine ⟨fun acc a b => ?mpy, fun acc a b => ?mac, fun acc a b => ?msu, fun acc a b => ?mpyi, fun acc a b => ?maci,
    fun acc a b => ?msui, fun a b => ?guard, fun k acc => chain_of_none, fun k xs n acc v => chain_of_latest⟩
  case guard =>
    exact ⟨clamps72_of_abs_lt (abs_products_lt a b), clamps72_of_abs_lt ((abs_neg _).trans_lt (abs_products_lt a b))⟩
  case mpy => simpa only [product_frac] using issued_effMulA (fun k => product k true a b) fun _ => rfl
  case mac => simpa only [product_frac] using issued_effMulA (fun k => (k.chain acc).toInt + product k true a b) fun _ => rfl
  case msu => simpa only [product_frac] using issued_effMulA (fun k => (k.chain acc).toInt - product k true a b) fun _ => rfl
  case mpyi => simpa only [product_int] using issued_effMulA (fun k => product k false a b) fun _ => rfl
  case maci => simpa only [product_int] using issued_effMulA (fun k => (k.chain acc).toInt + product k false a b) fun _ => rfl
  case msui => simpa only [product_int] using issued_effMulA (fun k => (k.chain acc).toInt - product k false a b) fun _ => rfl

/-! A state at which the chain takes a result in flight. -/

/-- D1 = 3 and D2 = 5, with a result of 7 for ACC0 in its last exposed slot. -/
def macBank : BankSt := { d := [0, 3, 5], slot := some 0, inFlight := [.acc 1 0 7] }

/-- MAC ACC0, D1, D2 sends 7 + 2 × 3 × 5 on its way, while the 7 lands. -/
theorem mac_laneAt : ∃ t, exec (.mac 0 0 1 2) (laneAt (.mac 0 0 1 2) macBank {}) = .next t ∧
    (t.ln 0).bankF.inFlight = [.acc 2 0 37] ∧ (t.ln 0).bankF.aReg 0 = 7 := by
  obtain ⟨-, mac, -⟩ := laneMultiplyAccumulate
  exact ⟨_, mac 0 1 2 0 _ _ _ (laneAt_issues rfl rfl rfl rfl), by decide, by decide⟩

end Sys2Proof.Machine
end

section
/-!
PROOF. Scaled results (R326): rounding to nearest, the scale of an accumulator, when MPYR saturates, and where SACST stores.
-/
namespace Sys2Proof.Machine

open Sys2Proof.Safety Sys2Proof.Claims

/-! Rounding to nearest, halves away from zero. -/

/-- Integer r is the nearest to q, the one away from zero where two are. -/
def Nearest (r : Int) (q : Rat) : Prop := |(r : Rat) - q| ≤ 1 / 2 ∧ (|(r : Rat) - q| = 1 / 2 → |q| < |(r : Rat)|)

theorem Nearest.neg {r : Int} {q : Rat} (h : Nearest r q) : Nearest (-r) (-q) := by
  unfold Nearest at *
  rwa [Int.cast_neg, neg_sub_neg, abs_sub_comm, abs_neg, abs_neg]

section
variable {x : Int} {n : Nat}

/-- Twice the distance of the result from a quotient that is not negative lies in (-n, n]. -/
theorem roundDiv_of_nonneg (hn : 0 < n) (hx : 0 ≤ x) :
    2 * x - n < 2 * (n * roundDiv x n) ∧ 2 * (n * roundDiv x n) ≤ 2 * x + n := by
  have hn' : (0 : Int) < 2 * n := by omega
  rw [roundDiv, if_neg (by omega), if_pos hx, ← mul_assoc]
  have lower := Int.lt_mul_ediv_self_add (x := 2 * x + n) hn'
  have upper := Int.mul_ediv_self_le (x := 2 * x + n) (k := 2 * n) (by omega)
  omega

theorem roundDiv_neg (hx : 0 ≤ x) : roundDiv (-x) n = -roundDiv x n := by
  unfold roundDiv
  split
  · rfl
  · next hn =>
    split
    · next hx' =>
      obtain rfl : x = 0 := by omega
      rw [mul_zero, zero_add, neg_zero, mul_zero, zero_add, Int.ediv_eq_zero_of_lt (by omega) (by omega)]
      rfl
    · rw [neg_mul_neg]

theorem nearest_roundDiv_of_nonneg (hn : 0 < n) (hx : 0 ≤ x) : Nearest (roundDiv x n) (x / n) := by
  obtain ⟨lower, upper⟩ := roundDiv_of_nonneg hn hx
  generalize roundDiv x n = r at *
  have hn' : (0 : Rat) < n := by exact_mod_cast hn
  have quotient : (0 : Rat) ≤ x / n := div_nonneg (by exact_mod_cast hx) hn'.le
  have below : (x / n : Rat) - 1 / 2 < r := by
    have lower' : (2 * x - n : Rat) < 2 * (n * r) := by exact_mod_cast lower
    rw [sub_lt_iff_lt_add, div_lt_iff₀ hn']
    linarith
  have above : (r : Rat) ≤ x / n + 1 / 2 := by
    have upper' : (2 * (n * r) : Rat) ≤ 2 * x + n := by exact_mod_cast upper
    rw [← sub_le_iff_le_add, le_div_iff₀ hn']
    linarith
  refine ⟨abs_le.mpr ⟨by linarith, by linarith⟩, fun half => ?_⟩
  have up : (r : Rat) = x / n + 1 / 2 := by
    rcases abs_eq (by norm_num) |>.mp half with h | h <;> linarith
  rw [abs_of_nonneg quotient, up, abs_of_nonneg (by linarith)]
  linarith

theorem nearest_roundDiv (hn : 0 < n) : Nearest (roundDiv x n) (x / n) := by
  rcases le_total 0 x with hx | hx
  · exact nearest_roundDiv_of_nonneg hn hx
  · have h := (nearest_roundDiv_of_nonneg hn (neg_nonneg.mpr hx)).neg
    rwa [← roundDiv_neg (neg_nonneg.mpr hx), neg_neg, Int.cast_neg, neg_div, neg_neg] at h

/-- Twice the distance of the result from the quotient is n at most. -/
theorem roundDiv_bounds (hn : 0 < n) : 2 * x - n ≤ 2 * (n * roundDiv x n) ∧ 2 * (n * roundDiv x n) ≤ 2 * x + n := by
  rcases le_total 0 x with hx | hx
  · obtain ⟨lower, upper⟩ := roundDiv_of_nonneg hn hx
    exact ⟨lower.le, upper⟩
  · obtain ⟨lower, upper⟩ := roundDiv_of_nonneg hn (neg_nonneg.mpr hx)
    have mirrored : roundDiv x n = -roundDiv (-x) n := by rw [← roundDiv_neg (neg_nonneg.mpr hx), neg_neg]
    rw [mirrored, mul_neg]
    omega

end

/-! The scale of an accumulator. -/

/-- S is below 32, so that the scale is a division by 2^(32 - S). -/
theorem sacValue_eq (v : BitVec 72) (sh : BitVec 6) : sacValue v sh = roundDiv v.toInt (2 ^ (32 - sh.toInt).toNat) := by
  have range : sh.toInt < 2 ^ 5 := BitVec.toInt_lt
  rw [sacValue, if_neg (by omega), neg_sub]

theorem nearest_sacValue (v : BitVec 72) (sh : BitVec 6) : Nearest (sacValue v sh) (v.toInt * (2 : Rat) ^ sh.toInt / 2 ^ 32) := by
  have range : sh.toInt < 2 ^ 5 := BitVec.toInt_lt
  have divisor : ((2 ^ (32 - sh.toInt).toNat : Nat) : Rat) = 2 ^ 32 / 2 ^ sh.toInt := by
    rw [Nat.cast_pow, Nat.cast_two, ← zpow_natCast, Int.toNat_of_nonneg (by omega), zpow_sub₀ two_ne_zero, zpow_ofNat]
  rw [sacValue_eq, ← div_div_eq_mul_div, ← divisor]
  exact nearest_roundDiv (by positivity)

/-! MPYR saturates for -1 × -1 alone. -/

/-- A word whose product with another is within 2^30 of 2^62 is -1 (Q1.31): any other has magnitude 2^31 - 1 at most. -/
theorem eq_min_of_mul_ge {a b : Word} (large : 2 ^ 62 - 2 ^ 30 ≤ a.toInt * b.toInt) : a = 0x80000000#32 := by
  by_contra other
  have notMin : a.toInt ≠ -2 ^ 31 := fun h => other (BitVec.eq_of_toInt_eq h)
  have ha := toInt_bounds a
  have smaller : |a.toInt| ≤ 2 ^ 31 - 1 := abs_le.mpr (by omega)
  have product : a.toInt * b.toInt ≤ (2 ^ 31 - 1) * 2 ^ 31 :=
    (le_abs_self _).trans ((abs_mul _ _).trans_le (mul_le_mul smaller (abs_toInt_le b) (abs_nonneg _) (by decide)))
  omega

theorem roundDiv_clamps_iff (a b : Word) :
    clamps32 (roundDiv (a.toInt * b.toInt) (2 ^ 31)) = true ↔ a = 0x80000000#32 ∧ b = 0x80000000#32 := by
  constructor
  · intro clamps
    obtain ⟨lower, upper⟩ := roundDiv_bounds (x := a.toInt * b.toInt) (n := 2 ^ 31) (by decide)
    have product := abs_le.mp (abs_mul_toInt_le a b)
    simp only [clamps32, decide_eq_true_eq] at clamps
    have large : 2 ^ 62 - 2 ^ 30 ≤ a.toInt * b.toInt := by omega
    exact ⟨eq_min_of_mul_ge large, eq_min_of_mul_ge (mul_comm a.toInt _ ▸ large)⟩
  · rintro ⟨rfl, rfl⟩
    decide

/-! SACST. -/

/-- A lane address has 20 bits. -/
theorem laneAddr_lt (k : BankSt) (p : PReg) (f : AddrForm) : (laneAddr k p f).1 < 2 ^ 20 := by
  cases f with
  | post m => exact (k.pReg p.val).isLt
  | offs o => exact (k.pReg p.val + o.signExtend 20).isLt

/-- One word stored where the lane may store. -/
theorem storeEff_one {s : State} {n a : Nat} {sp : Bool} {ps : List (Nat × BitVec 20)} {w : Word} (address : a < 2 ^ 20)
    (may : s.laneMayStore n sp a = true) : storeEff s n sp a ps [w] = { stores := [(sp, a, w)], p := ps } := by
  have whole : a % 1048576 = a := Nat.mod_eq_of_lt address
  simp [storeEff, List.range_succ, whole, may]

/-- What a SACST that may store does. -/
def sacstEff (k : BankSt) (acc : AccReg) (p : PReg) (sp : Bool) (f : AddrForm) (sh : BitVec 6) : LaneEff :=
  { stores := [(sp, (laneAddr k p f).1, sat32 (sacValue (k.aReg acc.val) sh))]
    p := (laneAddr k p f).2
    sat := clamps32 (sacValue (k.aReg acc.val) sh) }

section
variable {s : State} {l : LaneIx} {n : Nat} {bk : Bank} {k : BankSt} {acc : AccReg} {p : PReg} {sp : Bool} {f : AddrForm} {sh : BitVec 6}

theorem opSacst_eq (may : s.laneMayStore n sp (laneAddr k p f).1 = true) : opSacst acc p sp f sh s n bk k = sacstEff k acc p sp f sh := by
  simp only [opSacst, clip32_eq, storeEff_one (laneAddr_lt k p f) may]
  rfl

theorem results_sacstEff_data : k.results (sacstEff k acc p false f sh) =
    { k.age with
      p := (laneAddr k p f).2.foldl (fun y z => y.set z.1 z.2) k.age.p
      sat := k.sat || clamps32 (sacValue (k.aReg acc.val) sh) } := by
  simp [BankSt.results, sacstEff]

theorem results_sacstEff_crossbar : k.results (sacstEff k acc p true f sh) =
    { k.age with
      p := (laneAddr k p f).2.foldl (fun y z => y.set z.1 z.2) k.age.p
      sat := k.sat || clamps32 (sacValue (k.aReg acc.val) sh)
      commit := bufferStore k.commit (laneAddr k p f).1 (sat32 (sacValue (k.aReg acc.val) sh)) } := by
  simp [BankSt.results, sacstEff]

theorem State.ln_putWord {a : Nat} {w : Word} : (s.putWord a w).ln n = s.ln n :=
  congrArg (·.getD n {}) (State.putWord_only (fs := [.mem, .eccBad]) (Only.refl _ _) rfl .lanes (by decide))

theorem exec_sacst (issues : Issues s l (.sacst l acc p sp f sh) bk k) (may : s.laneMayStore l.val sp (laneAddr k p f).1 = true) :
    exec (.sacst l acc p sp f sh) s =
      .next (goesOn (s.localStores l.val (sacstEff k acc p sp f sh)) l.val bk k (k.results (sacstEff k acc p sp f sh))
        (s.ln l.val).loops none none) := by
  have eff := opSacst_eq (bk := bk) (acc := acc) (sh := sh) may
  rw [exec_issued issues rfl (eff ▸ ⟨rfl, rfl, rfl⟩), eff, laneApply_eq_goesOn issues]
  rfl

end

/-- Settles O10: the rows round by `roundDiv`, which is the nearest integer; a store of SACST is local or joins the commit buffer. -/
theorem laneScaledResults : Obligations.LaneScaledResults := by
  refine ⟨fun d acc sh => issued_effSat (fun k => sacValue (k.aReg acc.val) sh) fun _ => rfl, nearest_sacValue, fun d a b => ?mpyr,
    fun x n hn => nearest_roundDiv hn, roundDiv_clamps_iff, fun acc p f sh l s bk k issues => ?store,
    fun acc p f sh l s bk k issues => ?crossbar⟩
  case mpyr =>
    simpa only [product_int] using issued_effMulD (d := d) (fun k => roundDiv (product k false a b) (2 ^ 31)) fun _ => rfl
  case store =>
    intro a x inData
    rw [exec_sacst issues inData, results_sacstEff_data, goesBy, State.ln_putWord]
    rfl
  case crossbar =>
    intro a x low high
    rw [exec_sacst issues (decide_eq_true ⟨low, high⟩), results_sacstEff_crossbar]
    rfl

/-! States at which a lane rounds and stores. -/

/-- ACC0 holds 3 × 2^31, P0 data word 1, P1 the first word of plate memory. -/
def sacBank : BankSt := { acc := [0x180000000], p := [1, 0x50000], slot := some 0 }

/-- At S = 0 the accumulator is 1.5, which rounds to 2: in D3, in data word 1, and in the commit buffer for the plate. -/
theorem sac_laneAt :
    (∃ t, exec (.sac 0 3 0 0) (laneAt (.sac 0 3 0 0) sacBank {}) = .next t ∧ (t.ln 0).bankF.dReg 3 = 2) ∧
    (∃ t, exec (.sacst 0 0 0 false (.offs 0) 0) (laneAt (.sacst 0 0 0 false (.offs 0) 0) sacBank {}) = .next t ∧
      t.wordAt (dataAddr 0 1) = 2) ∧
    (∃ t, exec (.sacst 0 0 1 true (.offs 0) 0) (laneAt (.sacst 0 0 1 true (.offs 0) 0) sacBank {}) = .next t ∧
      (t.ln 0).bankF.commit = [(0x50000, 2)]) := by
  obtain ⟨sac, -, -, -, -, store, crossbar⟩ := laneScaledResults
  exact ⟨⟨_, sac 3 0 0 0 _ _ _ (laneAt_issues rfl rfl rfl rfl), by decide⟩,
    ⟨_, store 0 0 (.offs 0) 0 0 _ _ _ (laneAt_issues rfl rfl rfl rfl) (by decide), by decide⟩,
    ⟨_, crossbar 0 1 (.offs 0) 0 0 _ _ _ (laneAt_issues rfl rfl rfl rfl) (by decide) (by decide), by decide⟩⟩

end Sys2Proof.Machine
end

section
/-!
PROOF. Hardware loops (R330): the start of a loop, the end of a round, and the instruction that ends the last one.
-/
namespace Sys2Proof.Machine

open Sys2Proof.Safety Sys2Proof.Claims

/-! The start of a loop. -/

/-- Loop registers of a level set (R330). -/
def LoopRegs.start (g : LoopRegs) (lvl : Bool) (first last : BitVec 12) (n : BitVec 16) : LoopRegs :=
  if lvl then { g with ls1 := first, le1 := last, lc1 := n } else { g with ls0 := first, le0 := last, lc0 := n }

/-- State s after bank bk of lane n has started a loop of a level with a count, which skips the body where it is empty (R330). -/
def startsLoop (s : State) (n : Nat) (bk : Bank) (k : BankSt) (lvl : Bool) (len : BitVec 10) (count : BitVec 16) (empty : Prop)
    [Decidable empty] : State :=
  let last := k.pc + (len.zeroExtend 12 + 1)
  goesOn s n bk k k.age ((s.ln n).loops.start lvl (k.pc + 1) last count) (if empty then some (last + 1) else none) none

section
variable {s : State} {l : LaneIx} {i : Instr} {bk : Bank} {k : BankSt} {lvl : Bool} {len : BitVec 10}

/-- A loop instruction changes no register of the bank. -/
theorem results_loopEff {g : LoopRegs} {pc : BitVec 12} {n : Nat} : k.results (loopEff g lvl pc len n) = k.age := by
  simp [BankSt.results, loopEff, -age_p, -age_m, -age_sat, -age_stack, -age_commit]

theorem exec_loop {count : BankSt → Nat} (issues : Issues s l i bk k)
    (row : laneTable i = some (l.val, fun s n _ k => loopEff (s.ln n).loops lvl k.pc len (count k))) :
    exec i s = .next (startsLoop s l.val bk k lvl len (BitVec.ofNat 16 (count k)) (count k = 0)) := by
  have last : k.pc + (len.zeroExtend 12 + 1) = k.pc + 1 + len.zeroExtend 12 := by ac_rfl
  rw [exec_issued issues row ⟨rfl, rfl, rfl⟩, laneApply_eq_goesOn issues, results_loopEff, startsLoop, last]
  rfl

theorem exec_loopi {count : BitVec 15} (issues : Issues s l (.loopi l lvl len count) bk k) :
    exec (.loopi l lvl len count) s = .next (startsLoop s l.val bk k lvl len (count.zeroExtend 16) (count = 0)) := by
  have empty : count.toNat = 0 ↔ count = 0 := BitVec.toNat_inj (y := 0)
  simpa only [BitVec.ofNat_toNat, empty] using exec_loop issues (count := fun _ => count.toNat) rfl

/-- The count of LOOPR: Da clamped to 0 to MAX. -/
theorem exec_loopr {a : DReg} {mx : BitVec 11} {count : Int} (issues : Issues s l (.loopr l lvl len a mx) bk k)
    (clamped : count = min (max (k.dReg a.val).toInt 0) mx.toNat) :
    exec (.loopr l lvl len a mx) s = .next (startsLoop s l.val bk k lvl len (BitVec.ofInt 16 count) (count = 0)) := by
  have natural : count = (min (k.dReg a.val).toInt.toNat mx.toNat : Nat) := by rw [clamped, Nat.cast_min, Int.toNat_eq_max]
  simpa only [natural, BitVec.ofInt_natCast, Int.natCast_eq_zero] using
    exec_loop issues (count := fun k => min (k.dReg a.val).toInt.toNat mx.toNat) rfl

end

/-! The end of a round. -/

section
variable {g : LoopRegs} {pc : BitVec 12}

theorem laneNext_end1 (atEnd : pc = g.le1) (more : g.lc1 ≠ 0) :
    laneNext g pc none none = (if g.lc1 = 1 then pc + 1 else g.ls1, { g with lc1 := g.lc1 - 1 }) := by
  rw [laneNext, if_pos ⟨atEnd, more⟩]
  simp only [sub_eq_zero]

theorem laneNext_end0 (atEnd : pc = g.le0) (more : g.lc0 ≠ 0) (outer : pc ≠ g.le1 ∨ g.lc1 = 0) :
    laneNext g pc none none = (if g.lc0 = 1 then pc + 1 else g.ls0, { g with lc0 := g.lc0 - 1 }) := by
  rw [laneNext, if_neg (by tauto), if_pos ⟨atEnd, more⟩]
  simp only [sub_eq_zero]

/-- The last instruction of a level's body in its last round. -/
def LoopRegs.Expires (g : LoopRegs) (lvl : Bool) (pc : BitVec 12) : Prop :=
  pc = (if lvl then g.le1 else g.le0) ∧ (if lvl then g.lc1 else g.lc0) = 1

/-- In the last round the lane goes on after LE, and the count is 0. -/
theorem laneNext_expires {lvl : Bool} (expires : g.Expires lvl pc) (outer : lvl = false → g.le1 ≠ pc ∨ g.lc1 = 0) :
    (laneNext g pc none none).1 = pc + 1 ∧
      (if lvl then (laneNext g pc none none).2.lc1 else (laneNext g pc none none).2.lc0) = 0 := by
  obtain ⟨atEnd, last⟩ := expires
  cases lvl with
  | true =>
    have last : g.lc1 = 1 := last
    simp [laneNext_end1 atEnd (by rw [last]; decide), last]
  | false =>
    have last : g.lc0 = 1 := last
    simp [laneNext_end0 atEnd (by rw [last]; decide) ((outer rfl).imp_left Ne.symm), last]

end

section
variable {s : State} {l : LaneIx} {i : Instr} {op : LaneOp} {bk : Bank} {k : BankSt} {lvl : Bool}

/-- LOOP_COUNT_EXPIRY issues the instruction that ends the last round. -/
theorem exec_loopCountExpiry (issues : Issues s l i bk k) (row : laneTable i = some (l.val, op))
    (expires : (s.ln l.val).loops.Expires lvl k.pc) (noBranch : k.branch = none) :
    exec (.loopCountExpiry l lvl) s = exec i s := by
  have held : s.laneHeld l = some i := by simp only [State.laneHeld, issues.turn, issues.word]
  show execLoopCountExpiry l lvl s = _
  rw [exec_of_laneTable row, execLoopCountExpiry]
  simp only [issues.turn, held, row]
  rw [if_pos ⟨expires.1, expires.2, by simp [noBranch]⟩]

section
variable {n : Nat} {k' : BankSt} {g : LoopRegs} {skip br : Option (BitVec 12)}

theorem ln_goesOn (present : n < s.lanes.length) : (goesOn s n bk k k' g skip br).ln n =
    { (s.ln n).setBank bk { k' with pc := (laneNext g k.pc k.branch skip).1, branch := br, executed := k.executed + 1 } with
      loops := (laneNext g k.pc k.branch skip).2
      used := (s.ln n).used + 1
      sliceCount := if bk = .b then (s.ln n).sliceCount + 1 else (s.ln n).sliceCount } :=
  State.ln_onLn_same (s := s) present

theorem loops_goesOn (present : n < s.lanes.length) :
    ((goesOn s n bk k k' g skip br).ln n).loops = (laneNext g k.pc k.branch skip).2 := by rw [ln_goesOn present]

theorem pc_goesOn (present : n < s.lanes.length) :
    (((goesOn s n bk k k' g skip br).ln n).bank bk).pc = (laneNext g k.pc k.branch skip).1 := by
  rw [ln_goesOn present]
  cases bk <;> rfl

end

theorem State.localStores_lanes {n : Nat} {e : LaneEff} : (s.localStores n e).lanes = s.lanes :=
  State.localStores_only (fs := [.mem, .eccBad]) (Only.refl _ _) rfl .lanes (by decide)

/-- Where the instruction that ends the last round changes no flow of its own, the lane goes on after LE with a count of 0. -/
theorem loop_ends (issues : Issues s l i bk k) (row : laneTable i = some (l.val, op)) (on : (op s l.val bk k).GoesOn)
    (loops : (op s l.val bk k).loops = none) (skip : (op s l.val bk k).skip = none) (noBranch : k.branch = none)
    (expires : (s.ln l.val).loops.Expires lvl k.pc)
    (outer : lvl = false → (s.ln l.val).loops.le1 ≠ k.pc ∨ (s.ln l.val).loops.lc1 = 0) (present : l.val < s.lanes.length) :
    Answers i s fun t =>
      ((t.ln l.val).bank bk).pc = k.pc + 1 ∧ (if lvl then (t.ln l.val).loops.lc1 else (t.ln l.val).loops.lc0) = 0 := by
  have run := exec_issued issues row on
  rw [laneApply_eq_goesOn issues, loops, skip] at run
  refine ⟨_, run, ?_⟩
  have still : l.val < (s.localStores l.val (op s l.val bk k)).lanes.length := by rwa [State.localStores_lanes]
  simp only [pc_goesOn still, loops_goesOn still, noBranch]
  exact laneNext_expires expires outer

end

/-- Settles O14: the two loop instructions start a loop, `laneNext` is the end of a round, and LOOP_COUNT_EXPIRY is the issue of the
instruction at LE. -/
theorem laneLoops : Obligations.LaneLoops := by
  refine ⟨fun lvl len count l s bk k issues => exec_loopi issues, fun lvl len a mx l s bk k issues => exec_loopr issues rfl,
    fun g pc => laneNext_end1, fun g pc => laneNext_end0, fun l lvl s bk k i f issues row atEnd last noBranch => ?_⟩
  have expiry := exec_loopCountExpiry issues row ⟨atEnd, last⟩ noBranch
  refine ⟨expiry, ?_⟩
  rintro e rfl stop ecc ended loops skip outer present
  obtain ⟨t, run, ends⟩ := loop_ends issues row ⟨stop, ecc, ended⟩ loops skip noBranch ⟨atEnd, last⟩ outer present
  exact ⟨t, expiry.trans run, ends⟩

/-! States at which a loop starts, goes round and ends. -/

/-- A lane before its first instruction. -/
def loopBank : BankSt := { slot := some 0 }

/-- LOOPI of 3 instructions (LEN is encoded as 2) starts at word 1; a count of 0 goes on at word 4. At LE, which is word 0 here, a count of
2 goes on at LS, and a count of 1 ends the loop. -/
theorem loop_laneAt :
    (∃ t, exec (.loopi 0 false 2 5) (laneAt (.loopi 0 false 2 5) loopBank {}) = .next t ∧
      (t.ln 0).loops = { ls0 := 1, le0 := 3, lc0 := 5 } ∧ (t.ln 0).bankF.pc = 1) ∧
    (∃ t, exec (.loopi 0 false 2 0) (laneAt (.loopi 0 false 2 0) loopBank {}) = .next t ∧ (t.ln 0).bankF.pc = 4) ∧
    laneNext { ls0 := 9, lc0 := 2 } 0 none none = (9, { ls0 := 9, lc0 := 1 }) ∧
    (∃ t, exec (.loopCountExpiry 0 false) (laneAt (.nop 0) loopBank { ls0 := 9, lc0 := 1 }) = .next t ∧
      (t.ln 0).bankF.pc = 1 ∧ (t.ln 0).loops.lc0 = 0) := by
  obtain ⟨loopi, -, -, round, expiry⟩ := laneLoops
  refine ⟨?_, ?_, ?_, ?_⟩
  · exact ⟨_, loopi false 2 5 0 _ _ _ (laneAt_issues rfl rfl rfl rfl), by decide, by decide⟩
  · exact ⟨_, loopi false 2 0 0 _ _ _ (laneAt_issues rfl rfl rfl rfl), by decide⟩
  · exact round _ _ rfl (by decide) (.inr rfl)
  · obtain ⟨-, ends⟩ := expiry 0 false _ _ _ (.nop 0) opNop
      (laneAt_issues (k := loopBank) (g := { ls0 := 9, lc0 := 1 }) rfl rfl rfl rfl) rfl rfl rfl rfl
    exact ends _ rfl rfl rfl rfl rfl rfl (fun _ => .inr rfl) (by decide)

end Sys2Proof.Machine
end

section
/-!
PROOF. The block as a whole (R8, R40, R43): every command answers a next state and keeps what `Kept` says, and so does a step; the step with an
empty queue; the state after reset.
-/
namespace Sys2Proof.Machine

open Sys2Proof.Safety Sys2Proof.Claims

/-! Every command completes. -/

/-- A command answers a next state, in which the queue is as it was, no free value is given back, and what was whole is whole. -/
theorem exec_kept {s0 s : State} (h : Kept s0 s) (c : Instr) : Done s0 (exec c s) :=
  match c with
  | .nop .. => execNop_kept h
  | .add .. => execAdd_kept h
  | .sub .. => execSub_kept h
  | .adds .. => execAdds_kept h
  | .subs .. => execSubs_kept h
  | .and .. => execAnd_kept h
  | .or .. => execOr_kept h
  | .xor .. => execXor_kept h
  | .ash .. => execAsh_kept h
  | .lsh .. => execLsh_kept h
  | .min .. => execMin_kept h
  | .max .. => execMax_kept h
  | .abs .. => execAbs_kept h
  | .neg .. => execNeg_kept h
  | .slt .. => execSlt_kept h
  | .sltu .. => execSltu_kept h
  | .seq .. => execSeq_kept h
  | .selnz .. => execSelnz_kept h
  | .mul .. => execMul_kept h
  | .cls .. => execCls_kept h
  | .mov .. => execMov_kept h
  | .addi .. => execAddi_kept h
  | .movi .. => execMovi_kept h
  | .movhi .. => execMovhi_kept h
  | .andi .. => execAndi_kept h
  | .ori .. => execOri_kept h
  | .ashi .. => execAshi_kept h
  | .lshi .. => execLshi_kept h
  | .ld .. => execLd_kept h
  | .st .. => execSt_kept h
  | .ld2 .. => execLd2_kept h
  | .st2 .. => execSt2_kept h
  | .ldsig .. => execLdsig_kept h
  | .sacst .. => execSacst_kept h
  | .mpy .. => execMpy_kept h
  | .mac .. => execMac_kept h
  | .msu .. => execMsu_kept h
  | .mpyi .. => execMpyi_kept h
  | .maci .. => execMaci_kept h
  | .msui .. => execMsui_kept h
  | .sac .. => execSac_kept h
  | .mpyr .. => execMpyr_kept h
  | .mova .. => execMova_kept h
  | .adda .. => execAdda_kept h
  | .suba .. => execSuba_kept h
  | .asha .. => execAsha_kept h
  | .clra .. => execClra_kept h
  | .addad .. => execAddad_kept h
  | .subad .. => execSubad_kept h
  | .rdl .. => execRdl_kept h
  | .rdh .. => execRdh_kept h
  | .rdg .. => execRdg_kept h
  | .sata .. => execSata_kept h
  | .b .. => execB_kept h
  | .call .. => execCall_kept h
  | .ret .. => execRet_kept h
  | .beqz .. => execBeqz_kept h
  | .bnez .. => execBnez_kept h
  | .bltz .. => execBltz_kept h
  | .bgez .. => execBgez_kept h
  | .bgtz .. => execBgtz_kept h
  | .blez .. => execBlez_kept h
  | .loopi .. => execLoopi_kept h
  | .loopr .. => execLoopr_kept h
  | .loopCountExpiry .. => execLoopCountExpiry_kept h
  | .movp .. => execMovp_kept h
  | .movm .. => execMovm_kept h
  | .pregSetP .. => execPregSetP_kept h
  | .pregGetP .. => execPregGetP_kept h
  | .pregAddM .. => execPregAddM_kept h
  | .pregSetM .. => execPregSetM_kept h
  | .pregGetM .. => execPregGetM_kept h
  | .savel .. => execSavel_kept h
  | .restl .. => execRestl_kept h
  | .end_ .. => execEnd_kept h
  | .clrsat .. => execClrsat_kept h
  | .sysReadLsr .. => execSysReadLsr_kept h
  | .powerOn .. => execPowerOn_kept h
  | .powerUpStepComplete .. => execPowerUpStepComplete_kept h
  | .vioWaitTimeout => execVioWaitTimeout_kept h
  | .vinLockout => execVinLockout_kept h
  | .rstNReset => execRstNReset_kept h
  | .watchdogReset => execWatchdogReset_kept h
  | .frameBoundary => execFrameBoundary_kept h
  | .samplePublish => execSamplePublish_kept h
  | .profilePass => execProfilePass_kept h
  | .commitCutoff => execCommitCutoff_kept h
  | .taskDispatch .. => execTaskDispatch_kept h
  | .urgentTrigger .. => execUrgentTrigger_kept h
  | .urgentHoldExpiry .. => execUrgentHoldExpiry_kept h
  | .urgentPreemption .. => execUrgentPreemption_kept h
  | .boundAbort .. => execBoundAbort_kept h
  | .backgroundSliceEnd .. => execBackgroundSliceEnd_kept h
  | .selftestPassDone .. => execSelftestPassDone_kept h
  | .selftestLate .. => execSelftestLate_kept h
  | .timeRefLost => execTimeRefLost_kept h
  | .pllRelock => execPllRelock_kept h
  | .opRampEnd => execOpRampEnd_kept h
  | .plinkSync .. => execPlinkSync_kept h
  | .plinkSet .. => execPlinkSet_kept h
  | .plinkEdge .. => execPlinkEdge_kept h
  | .plinkIdle .. => execPlinkIdle_kept h
  | .edgeExecute .. => execEdgeExecute_kept h
  | .legstat .. => execLegstat_kept h
  | .dcl .. => execDcl_kept h
  | .plinkHk .. => execPlinkHk_kept h
  | .diag .. => execDiag_kept h
  | .echo .. => execEcho_kept h
  | .plinkLost => execPlinkLost_kept h
  | .plinkLinkUp .. => execPlinkLinkUp_kept h
  | .vdsBlankEnd .. => execVdsBlankEnd_kept h
  | .vdsTrip .. => execVdsTrip_kept h
  | .bsuv .. => execBsuv_kept h
  | .cpuv => execCpuv_kept h
  | .cpuvRelease => execCpuvRelease_kept h
  | .vgdUv => execVgdUv_kept h
  | .vgdRelease => execVgdRelease_kept h
  | .vinOv => execVinOv_kept h
  | .vinOvRelease => execVinOvRelease_kept h
  | .dclComparatorChange .. => execDclComparatorChange_kept h
  | .pwmSnapshot .. => execPwmSnapshot_kept h
  | .pwmReload .. => execPwmReload_kept h
  | .pwmDutyWrite .. => execPwmDutyWrite_kept h
  | .pwmPeriodWrite .. => execPwmPeriodWrite_kept h
  | .pwmUpdateControl .. => execPwmUpdateControl_kept h
  | .pwmOverride .. => execPwmOverride_kept h
  | .nodeCrossing .. => execNodeCrossing_kept h
  | .deadtimeExpiry .. => execDeadtimeExpiry_kept h
  | .chopperSwitchFault => execChopperSwitchFault_kept h
  | .chopperTestExpiry => execChopperTestExpiry_kept h
  | .precheckStep .. => execPrecheckStep_kept h
  | .stageOpen _ _ arg8 => execStageOpen_kept (arg8 := arg8) h
  | .stageDiscard _ _ arg8 => execStageDiscard_kept (arg8 := arg8) h
  | .proof _ _ arg8 => execProof_kept (arg8 := arg8) h
  | .strike _ _ arg8 => execStrike_kept (arg8 := arg8) h
  | .strikeAt _ _ arg8 => execStrikeAt_kept (arg8 := arg8) h
  | .proofStrike _ _ arg8 => execProofStrike_kept (arg8 := arg8) h
  | .precheck .. => execPrecheck_kept h
  | .safeStop .. => execSafeStop_kept h
  | .clearEvents _ _ arg8 => execClearEvents_kept (arg8 := arg8) h
  | .readmit _ _ arg8 => execReadmit_kept (arg8 := arg8) h
  | .saveImage _ _ arg8 => execSaveImage_kept (arg8 := arg8) h
  | .stagedWrite .. => execStagedWrite_kept h
  | .proofDone => execProofDone_kept h
  | .stageExpired => execStageExpired_kept h
  | .retryWindowExpiry .. => execRetryWindowExpiry_kept h
  | .reproofDone => execReproofDone_kept h
  | .powerReq .. => execPowerReq_kept h
  | .axisEnable .. => execAxisEnable_kept h
  | .axisRun .. => execAxisRun_kept h
  | .axisStop .. => execAxisStop_kept h
  | .axisDisable .. => execAxisDisable_kept h
  | .axisClear .. => execAxisClear_kept h
  | .offsetCaptureDone .. => execOffsetCaptureDone_kept h
  | .burnisherOffsetUpdate .. => execBurnisherOffsetUpdate_kept h
  | .sdOffsetRefresh .. => execSdOffsetRefresh_kept h
  | .sdStreamStall .. => execSdStreamStall_kept h
  | .catchTimeExpiry .. => execCatchTimeExpiry_kept h
  | .restartTimeout .. => execRestartTimeout_kept h
  | .fbEdgeAccepted .. => execFbEdgeAccepted_kept h
  | .absAcquisitionStart .. => execAbsAcquisitionStart_kept h
  | .absAcquisitionDone .. => execAbsAcquisitionDone_kept h
  | .absTimeoutExpiry .. => execAbsTimeoutExpiry_kept h
  | .fbLineFault .. => execFbLineFault_kept h
  | .fbReacquire .. => execFbReacquire_kept h
  | .fbStandstill .. => execFbStandstill_kept h
  | .fbLost .. => execFbLost_kept h
  | .posLoad .. => execPosLoad_kept h
  | .moveAbs .. => execMoveAbs_kept h
  | .moveRel .. => execMoveRel_kept h
  | .jog .. => execJog_kept h
  | .motStop .. => execMotStop_kept h
  | .gearEngage .. => execGearEngage_kept h
  | .gearArm .. => execGearArm_kept h
  | .gearDisengage .. => execGearDisengage_kept h
  | .switchCancel .. => execSwitchCancel_kept h
  | .stepPulse .. => execStepPulse_kept h
  | .push .. => execPush_kept h
  | .flush .. => execFlush_kept h
  | .compareArm .. => execCompareArm_kept h
  | .comparePulseEnd .. => execComparePulseEnd_kept h
  | .latchArm .. => execLatchArm_kept h
  | .shareRef .. => execShareRef_kept h
  | .shareStat .. => execShareStat_kept h
  | .mainsLossQualified => execMainsLossQualified_kept h
  | .mainsReturnQualified => execMainsReturnQualified_kept h
  | .rescueStart => execRescueStart_kept h
  | .rescueBrakeHoldExpiry => execRescueBrakeHoldExpiry_kept h
  | .rescueSettleExpiry => execRescueSettleExpiry_kept h
  | .converterReady => execConverterReady_kept h
  | .converterTimeout => execConverterTimeout_kept h
  | .rescueBrakeLiftExpiry => execRescueBrakeLiftExpiry_kept h
  | .rescueTestDone => execRescueTestDone_kept h
  | .rescueTravelTimeout => execRescueTravelTimeout_kept h
  | .ascRelease .. => execAscRelease_kept h
  | .stoDemand => execStoDemand_kept h
  | .stoRelease => execStoRelease_kept h
  | .stoReadback .. => execStoReadback_kept h
  | .stoTestDue => execStoTestDue_kept h
  | .selHost .. => execSelHost_kept h
  | .safetyMonitorStart .. => execSafetyMonitorStart_kept h
  | .ss1Timeout .. => execSs1Timeout_kept h
  | .brakeRelease .. => execBrakeRelease_kept h
  | .brakeSetExpiry .. => execBrakeSetExpiry_kept h
  | .brakeFbTimeout .. => execBrakeFbTimeout_kept h
  | .testPulse .. => execTestPulse_kept h
  | .degradedExpired .. => execDegradedExpired_kept h
  | .flinkUplinkFrame .. => execFlinkUplinkFrame_kept h
  | .flinkDownlinkFrame => execFlinkDownlinkFrame_kept h
  | .flinkAuxWord .. => execFlinkAuxWord_kept h
  | .flinkLost => execFlinkLost_kept h
  | .flinkRecovered => execFlinkRecovered_kept h
  | .diDebounceAccept .. => execDiDebounceAccept_kept h
  | .openWireSet .. => execOpenWireSet_kept h
  | .openWireClear .. => execOpenWireClear_kept h
  | .doThermalOff .. => execDoThermalOff_kept h
  | .doThermalRetry .. => execDoThermalRetry_kept h
  | .vfSag => execVfSag_kept h
  | .vfCut => execVfCut_kept h
  | .vfRestored => execVfRestored_kept h
  | .canFrameReceived .. => execCanFrameReceived_kept h
  | .canTxRequest .. => execCanTxRequest_kept h
  | .canTxAbort .. => execCanTxAbort_kept h
  | .canTxDone .. => execCanTxDone_kept h
  | .canBusoff .. => execCanBusoff_kept h
  | .canRecover .. => execCanRecover_kept h
  | .canRecovered .. => execCanRecovered_kept h
  | .rxSlotLock .. => execRxSlotLock_kept h
  | .rxSlotRelease .. => execRxSlotRelease_kept h
  | .bilvaSync .. => execBilvaSync_kept h
  | .followUp .. => execFollowUp_kept h
  | .timeCtrl .. => execTimeCtrl_kept h
  | .bilvaStrikeAt .. => execBilvaStrikeAt_kept h
  | .strikeCancel _ _ _ orig => execStrikeCancel_kept (orig := orig) h
  | .strikeAck _ _ _ _ _ st => execStrikeAck_kept (st := st) h
  | .bilvaForward .. => execBilvaForward_kept h
  | .syncSend .. => execSyncSend_kept h
  | .masterLoss => execMasterLoss_kept h
  | .backupMasterStart => execBackupMasterStart_kept h
  | .holdoverExpiry => execHoldoverExpiry_kept h
  | .relock => execRelock_kept h
  | .ntSet => execNtSet_kept h
  | .bcastRelock => execBcastRelock_kept h
  | .netstrikeSend .. => execNetstrikeSend_kept h
  | .netstrikeCancel => execNetstrikeCancel_kept h
  | .timePulse .. => execTimePulse_kept h
  | .telemetrySend => execTelemetrySend_kept h
  | .dmaGo .. => execDmaGo_kept h
  | .dmaStop .. => execDmaStop_kept h
  | .dmaKick .. => execDmaKick_kept h
  | .dmaResume => execDmaResume_kept h
  | .dmaAutoResume => execDmaAutoResume_kept h
  | .dmaRequest .. => execDmaRequest_kept h
  | .dmaPeriodTrigger .. => execDmaPeriodTrigger_kept h
  | .dmaBurst => execDmaBurst_kept h
  | .traceArm => execTraceArm_kept h
  | .traceStop => execTraceStop_kept h
  | .traceForce => execTraceForce_kept h
  | .traceClear => execTraceClear_kept h
  | .traceSample => execTraceSample_kept h
  | .traceSeqWindowExpiry => execTraceSeqWindowExpiry_kept h
  | .hostWriteFrame .. => execHostWriteFrame_kept h
  | .hostReadFrame .. => execHostReadFrame_kept h
  | .hostFrameAbort => execHostFrameAbort_kept h
  | .mgmtWrite .. => execMgmtWrite_kept h
  | .mgmtRead .. => execMgmtRead_kept h
  | .mgmtBusTimeout => execMgmtBusTimeout_kept h
  | .alertResponse => execAlertResponse_kept h
  | .pairLowRead .. => execPairLowRead_kept h
  | .pairLowWrite .. => execPairLowWrite_kept h
  | .pairHighWrite .. => execPairHighWrite_kept h
  | .laneCodeWrite .. => execLaneCodeWrite_kept h
  | .registerWrite .. => execRegisterWrite_kept h
  | .hkRoundEnd .. => execHkRoundEnd_kept h
  | .thermalComparatorTrip => execThermalComparatorTrip_kept h
  | .ainTrimUpdate .. => execAinTrimUpdate_kept h
  | .scrubStep .. => execScrubStep_kept h
  | .logEntryCommit .. => execLogEntryCommit_kept h
  | .logWearCopy .. => execLogWearCopy_kept h
  | .imageSaveDone .. => execImageSaveDone_kept h
  | .tapReset => execTapReset_kept h
  | .bypass => execBypass_kept h
  | .samplePreload => execSamplePreload_kept h
  | .extest => execExtest_kept h
  | .idcode => execIdcode_kept h
  | .vinRising => execVinRising_kept h
  | .powerOff => execPowerOff_kept h
  | .refReturn => execRefReturn_kept h
  | .vfSagClear => execVfSagClear_kept h
  | .canBusError .. => execCanBusError_kept h
  | .externalLegEdge .. => execExternalLegEdge_kept h
  | .repeaterTransition .. => execRepeaterTransition_kept h
  | .adcConversionDone .. => execAdcConversionDone_kept h
  | .coreSupplyLoss => execCoreSupplyLoss_kept h
  | .vioLoss => execVioLoss_kept h
  | .vioReturn => execVioReturn_kept h

/-- Settles O3: what `exec_kept` says of the queue and of the free values. -/
theorem everyCommandCompletes : Obligations.EveryCommandCompletes := fun c s =>
  have ⟨t, run, kept⟩ := exec_kept (Kept.refl s) c
  ⟨t, run, kept.pending, kept.free⟩

/-! Steps. -/

/-- The queue is no part of what makes the block whole. -/
theorem whole_pending {s : State} (w : Whole s) (cs : List Instr) : Whole { s with pending := cs } :=
  ⟨w.mem, w.regs, w.cfg, w.stg, w.chans, w.units⟩

theorem step_nil {s : State} (h : s.pending = []) : step s = .next s.idle := by
  unfold step
  rw [h]

theorem step_cons {s : State} {c : Instr} {cs : List Instr} (h : s.pending = c :: cs) :
    step s = exec c { s with pending := cs } := by
  unfold step
  rw [h]

/-- Settles O4: on an empty queue the tick counts, and otherwise the front command runs on a state that is whole as well. -/
theorem stepKeepsTheBlockWhole : Obligations.StepKeepsTheBlockWhole := by
  intro s t whole run
  cases queue : s.pending with
  | nil =>
    rw [step_nil queue] at run
    cases run
    exact (State.idle_kept (Kept.refl s)).whole whole
  | cons c cs =>
    rw [step_cons queue] at run
    exact (done_get (exec_kept (Kept.refl _) c) run).whole (whole_pending whole cs)

/-- Settles O1: the front of the queue is the command that runs. -/
theorem stepRunsTheFrontCommand : Obligations.StepRunsTheFrontCommand := fun _ _ _ => step_cons rfl

theorem State.idle_time (s : State) : s.idle.time = { s.time with tick := if s.time.ticking then s.time.tick + 1 else s.time.tick } := by
  unfold State.idle
  split <;> rfl

theorem State.idle_only (s : State) : Only [.time] s s.idle := by
  unfold State.idle
  exact only_ite (State.onTime_only (f := fun x => { x with tick := x.tick + 1 }) (Only.refl _ _) rfl) (Only.refl _ _)

/-- Settles O2: with no command waiting the step is `State.idle`, which counts the tick where the timebase runs. -/
theorem idleStepIsOneTick : Obligations.IdleStepIsOneTick := fun s empty =>
  ⟨s.idle, step_nil empty, by rw [State.idle_time], by rw [State.idle_time], State.idle_only s⟩

/-! The state after reset. -/

/-- Settles O5: no map lists anything, and every unit is present. -/
theorem resetIsWhole : Obligations.ResetIsWhole where
  mem := rfl
  regs := rfl
  cfg := rfl
  stg := rfl
  chans := rfl
  units := rfl

/-- A list of one value reads that value at every place, if it is the default as well. -/
theorem getD_replicate_default {α : Type} {n i : Nat} {x : α} : (List.replicate n x).getD i x = x := by
  rw [List.getD_eq_getElem?_getD, List.getElem?_getD_replicate_default_eq]

theorem reset_ln (n : Nat) : State.reset.ln n = {} := getD_replicate_default

/-- The registers of a bank that has run nothing. -/
theorem bankSt_default : (∀ i, ({} : BankSt).dReg i = 0) ∧ (∀ i, ({} : BankSt).aReg i = 0) ∧ (∀ i, ({} : BankSt).pReg i = 0) ∧
    ∀ i, ({} : BankSt).mReg i = 0 :=
  ⟨fun _ => getD_replicate_default, fun _ => getD_replicate_default,
    fun _ => getD_replicate_default, fun _ => getD_replicate_default⟩

/-- Settles O6: nothing is listed in any map, and every lane holds its first value. -/
theorem resetValues : Obligations.ResetValues := by
  obtain ⟨d, a, p, m⟩ := bankSt_default
  refine ⟨fun _ _ => ⟨rfl, rfl, rfl⟩, rfl, rfl, rfl, rfl, rfl, fun l bk => ?_, fun l => by rw [reset_ln], fun b out => ?_⟩
  · have fresh : (State.reset.ln l.val).bank bk = {} := by rw [reset_ln]; cases bk <;> rfl
    rw [fresh]
    exact ⟨fun i _ => d i, fun i _ => a i, fun i _ => ⟨p i, m i⟩, rfl, rfl, rfl⟩
  · show memDefault b = 0
    simp [memDefault, out]

end Sys2Proof.Machine
end

section
/-!
PROOF. The words of lane instructions (R334 to R336): the fields that the decoder reads in the words of each format, and from them that every
well-formed instruction is read back from its word.
-/
namespace Sys2Proof.Machine

open Sys2Proof.Safety Sys2Proof.Claims

/-! Fields of the words of a format. -/

theorem nw_toNat {n : Nat} (h : n < 2 ^ 32) : (nw n).toNat = n := Nat.mod_eq_of_lt h

section
variable {op d a b c fn : Nat}

/-- Format R: OP, Dd, Da, Db, Dc, and FN in the six low bits. -/
theorem fields_encR (hop : op < 64) (hd : d < 16) (ha : a < 16) (hb : b < 16) (hc : c < 16) (hfn : fn < 64) :
    wf (encR op d a b c fn).toNat 26 6 = op ∧ wf (encR op d a b c fn).toNat 22 4 = d ∧ wf (encR op d a b c fn).toNat 18 4 = a ∧
      wf (encR op d a b c fn).toNat 14 4 = b ∧ wf (encR op d a b c fn).toNat 10 4 = c ∧ wf (encR op d a b c fn).toNat 6 4 = 0 ∧
      wf (encR op d a b c fn).toNat 0 6 = fn ∧ wf (encR op d a b c fn).toNat 0 14 = c * 2 ^ 10 + fn ∧
      wf (encR op d a b c fn).toNat 6 16 = a * 2 ^ 12 + b * 2 ^ 8 + c * 2 ^ 4 := by
  rw [encR, nw_toNat (by omega)]
  simp only [wf]
  omega

/-- Format I: OP, Dd, Da, two bits 0, IMM. -/
theorem fields_encI {imm : Nat} (hop : op < 64) (hd : d < 16) (ha : a < 16) (hi : imm < 2 ^ 16) :
    wf (encI op d a imm).toNat 26 6 = op ∧ wf (encI op d a imm).toNat 22 4 = d ∧ wf (encI op d a imm).toNat 18 4 = a ∧
      wf (encI op d a imm).toNat 16 2 = 0 ∧ wf (encI op d a imm).toNat 0 16 = imm ∧ wf (encI op d a imm).toNat 16 6 = a * 4 := by
  rw [encI, nw_toNat (by omega)]
  simp only [wf]
  omega

/-- The shift immediates that the decoder takes are the well-formed ones. -/
theorem shiftImm_encI {imm : BitVec 16} (hop : op < 64) (hd : d < 16) (ha : a < 16) :
    shiftImm (encI op d a imm.toNat).toNat = shiftImmOk imm := by
  obtain ⟨-, -, -, -, immediate, -⟩ := fields_encI hop hd ha imm.isLt
  simp only [shiftImm, shiftImmOk, immediate]

/-- Format A: OP, two accumulators, two data registers, a shift, FN. -/
theorem fields_encA {x y s : Nat} (hop : op < 64) (hx : x < 4) (hy : y < 4) (ha : a < 16) (hb : b < 16) (hs : s < 64) (hfn : fn < 64) :
    wf (encA op x y a b s fn).toNat 26 6 = op ∧ wf (encA op x y a b s fn).toNat 24 2 = x ∧ wf (encA op x y a b s fn).toNat 22 2 = y ∧
      wf (encA op x y a b s fn).toNat 18 4 = a ∧ wf (encA op x y a b s fn).toNat 14 4 = b ∧ wf (encA op x y a b s fn).toNat 8 6 = s ∧
      wf (encA op x y a b s fn).toNat 6 2 = 0 ∧ wf (encA op x y a b s fn).toNat 0 6 = fn ∧ wf (encA op x y a b s fn).toNat 0 8 = fn := by
  rw [encA, nw_toNat (by omega)]
  simp only [wf]
  omega

/-- Format B: OP, Da, ten bits 0, TARGET. -/
theorem fields_encB {t : Nat} (hop : op < 64) (ha : a < 16) (ht : t < 2 ^ 12) :
    wf (encB op a t).toNat 26 6 = op ∧ wf (encB op a t).toNat 22 4 = a ∧ wf (encB op a t).toNat 12 10 = 0 ∧
      wf (encB op a t).toNat 0 12 = t := by
  rw [encB, nw_toNat (by omega)]
  simp only [wf]
  omega

/-- Format Q: OP, Pn, a data register, Mm, FN. -/
theorem fields_encQ {p m : Nat} (hp : p < 8) (hd : d < 16) (hm : m < 8) (hfn : fn < 64) :
    wf (encQ p d m fn).toNat 26 6 = 0x32 ∧ wf (encQ p d m fn).toNat 23 3 = p ∧ wf (encQ p d m fn).toNat 19 4 = d ∧
      wf (encQ p d m fn).toNat 16 3 = m ∧ wf (encQ p d m fn).toNat 6 10 = 0 ∧ wf (encQ p d m fn).toNat 0 6 = fn := by
  rw [encQ, nw_toNat (by omega)]
  simp only [wf]
  omega

/-- The words of MOVP and MOVM. -/
def encPointer (op p imm : Nat) : Word := nw (op * 2 ^ 26 + p * 2 ^ 23 + imm)

/-- Pointer immediates: OP, Pn, an immediate of at most 20 bits. -/
theorem fields_pointer {p imm : Nat} (hop : op < 64) (hp : p < 8) (hi : imm < 2 ^ 20) :
    wf (encPointer op p imm).toNat 26 6 = op ∧ wf (encPointer op p imm).toNat 23 3 = p ∧
      wf (encPointer op p imm).toNat 20 3 = 0 ∧ wf (encPointer op p imm).toNat 0 20 = imm ∧
      wf (encPointer op p imm).toNat 0 16 = imm % 2 ^ 16 ∧
      wf (encPointer op p imm).toNat 16 7 = imm / 2 ^ 16 := by
  rw [encPointer, nw_toNat (by omega)]
  simp only [wf]
  omega

/-- The words of LOOPI and LOOPR. -/
def encLoop (op : Nat) (lvl : Bool) (len low : Nat) : Word := nw (op * 2 ^ 26 + lvl.toNat * 2 ^ 25 + len * 2 ^ 15 + low)

/-- Loops: OP, the level, LEN, and below it COUNT, or Da and MAX. -/
theorem fields_loop {len low : Nat} (lvl : Bool) (hop : op < 64) (hlen : len < 2 ^ 10) (hlow : low < 2 ^ 15) :
    wf (encLoop op lvl len low).toNat 26 6 = op ∧
      wf (encLoop op lvl len low).toNat 25 1 = lvl.toNat ∧
      wf (encLoop op lvl len low).toNat 15 10 = len ∧
      wf (encLoop op lvl len low).toNat 0 15 = low ∧
      wf (encLoop op lvl len low).toNat 11 4 = low / 2 ^ 11 ∧
      wf (encLoop op lvl len low).toNat 0 11 = low % 2 ^ 11 := by
  have level : lvl.toNat ≤ 1 := Bool.toNat_le lvl
  rw [encLoop, nw_toNat (by omega)]
  simp only [wf]
  omega

/-- Format M: OP, Dd, Pn, the space. -/
theorem fields_encM {p : Nat} (sp : Bool) (f : AddrForm) (hop : op < 64) (hd : d < 16) (hp : p < 8) :
    wf (encM op d p sp f).toNat 26 6 = op ∧ wf (encM op d p sp f).toNat 22 4 = d ∧ wf (encM op d p sp f).toNat 19 3 = p ∧
      wf (encM op d p sp f).toNat 18 1 = sp.toNat := by
  have space : sp.toNat ≤ 1 := Bool.toNat_le sp
  have form : encFormM f < 2 ^ 18 := by cases f <;> simp only [encFormM] <;> omega
  rw [encM, nw_toNat (by omega)]
  simp only [wf]
  omega

/-- Format M: its address form. -/
theorem formM_encM {p : Nat} {sp : Bool} {f : AddrForm} (hop : op < 64) (hd : d < 16) (hp : p < 8) :
    formM (encM op d p sp f).toNat = some f := by
  have space : sp.toNat ≤ 1 := Bool.toNat_le sp
  cases f with
  | post m =>
    have n : (encM op d p sp (.post m)).toNat = op * 2 ^ 26 + d * 2 ^ 22 + p * 2 ^ 19 + sp.toNat * 2 ^ 18 + m.val * 2 ^ 14 :=
      nw_toNat (by simp only [encFormM]; omega)
    obtain ⟨mode, rest, modifier⟩ : wf (encM op d p sp (.post m)).toNat 17 1 = 0 ∧ wf (encM op d p sp (.post m)).toNat 0 14 = 0 ∧
        wf (encM op d p sp (.post m)).toNat 14 3 = m.val := by
      rw [n]
      simp only [wf]
      omega
    simp [formM, wB, wP, mode, rest, modifier]
  | offs o =>
    have n : (encM op d p sp (.offs o)).toNat = op * 2 ^ 26 + d * 2 ^ 22 + p * 2 ^ 19 + sp.toNat * 2 ^ 18 + (2 ^ 17 + o.toNat) :=
      nw_toNat (by simp only [encFormM]; omega)
    obtain ⟨mode, rest, offset⟩ : wf (encM op d p sp (.offs o)).toNat 17 1 = 1 ∧ wf (encM op d p sp (.offs o)).toNat 10 7 = 0 ∧
        wf (encM op d p sp (.offs o)).toNat 0 10 = o.toNat := by
      rw [n]
      simp only [wf]
      omega
    simp [formM, wB, mode, rest, offset]

/-- The word of SACST. -/
def encX (x : AccReg) (p : PReg) (sp : Bool) (f : AddrForm) (s : BitVec 6) : Word :=
  nw (0x0D * 2 ^ 26 + x.val * 2 ^ 24 + p.val * 2 ^ 21 + sp.toNat * 2 ^ 20 + encFormX f + s.toNat)

/-- Format X: OP, the accumulator, Pn, the space, the shift. -/
theorem fields_encX (x : AccReg) (p : PReg) (sp : Bool) (f : AddrForm) (s : BitVec 6) :
    wf (encX x p sp f s).toNat 26 6 = 0x0D ∧ wf (encX x p sp f s).toNat 24 2 = x.val ∧ wf (encX x p sp f s).toNat 21 3 = p.val ∧
      wf (encX x p sp f s).toNat 20 1 = sp.toNat ∧ wf (encX x p sp f s).toNat 0 6 = s.toNat := by
  have space : sp.toNat ≤ 1 := Bool.toNat_le sp
  have form : encFormX f < 2 ^ 20 ∧ encFormX f % 2 ^ 6 = 0 := by cases f <;> simp only [encFormX] <;> omega
  rw [encX, nw_toNat (by omega)]
  simp only [wf]
  omega

/-- Format X: its address form. -/
theorem formX_encX {x : AccReg} {p : PReg} {sp : Bool} {f : AddrForm} {s : BitVec 6} : formX (encX x p sp f s).toNat = some f := by
  have space : sp.toNat ≤ 1 := Bool.toNat_le sp
  cases f with
  | post m =>
    have n : (encX x p sp (.post m) s).toNat =
        0x0D * 2 ^ 26 + x.val * 2 ^ 24 + p.val * 2 ^ 21 + sp.toNat * 2 ^ 20 + m.val * 2 ^ 16 + s.toNat :=
      nw_toNat (by simp only [encFormX]; omega)
    obtain ⟨mode, rest, modifier⟩ : wf (encX x p sp (.post m) s).toNat 19 1 = 0 ∧ wf (encX x p sp (.post m) s).toNat 6 10 = 0 ∧
        wf (encX x p sp (.post m) s).toNat 16 3 = m.val := by
      rw [n]
      simp only [wf]
      omega
    simp [formX, wB, wP, mode, rest, modifier]
  | offs o =>
    have n : (encX x p sp (.offs o) s).toNat =
        0x0D * 2 ^ 26 + x.val * 2 ^ 24 + p.val * 2 ^ 21 + sp.toNat * 2 ^ 20 + (2 ^ 19 + o.toNat * 2 ^ 8) + s.toNat :=
      nw_toNat (by simp only [encFormX]; omega)
    obtain ⟨mode, high, low, offset⟩ : wf (encX x p sp (.offs o) s).toNat 19 1 = 1 ∧ wf (encX x p sp (.offs o) s).toNat 18 1 = 0 ∧
        wf (encX x p sp (.offs o) s).toNat 6 2 = 0 ∧ wf (encX x p sp (.offs o) s).toNat 8 10 = o.toNat := by
      rw [n]
      simp only [wf]
      omega
    simp [formX, wB, mode, high, low, offset]

end

/-! Reading back, format by format. -/

/-- The ALU functions (Table 13-8). -/
theorem decode_alu (l : LaneIx) :
    (∀ (d a b : DReg), decodeLaneWord l (encR 0 d.val a.val b.val 0 1) = some (.add l d a b)) ∧
    (∀ (d a b : DReg), decodeLaneWord l (encR 0 d.val a.val b.val 0 2) = some (.sub l d a b)) ∧
    (∀ (d a b : DReg), decodeLaneWord l (encR 0 d.val a.val b.val 0 3) = some (.adds l d a b)) ∧
    (∀ (d a b : DReg), decodeLaneWord l (encR 0 d.val a.val b.val 0 4) = some (.subs l d a b)) ∧
    (∀ (d a b : DReg), decodeLaneWord l (encR 0 d.val a.val b.val 0 5) = some (.and l d a b)) ∧
    (∀ (d a b : DReg), decodeLaneWord l (encR 0 d.val a.val b.val 0 6) = some (.or l d a b)) ∧
    (∀ (d a b : DReg), decodeLaneWord l (encR 0 d.val a.val b.val 0 7) = some (.xor l d a b)) ∧
    (∀ (d a b : DReg), decodeLaneWord l (encR 0 d.val a.val b.val 0 8) = some (.ash l d a b)) ∧
    (∀ (d a b : DReg), decodeLaneWord l (encR 0 d.val a.val b.val 0 9) = some (.lsh l d a b)) ∧
    (∀ (d a b : DReg), decodeLaneWord l (encR 0 d.val a.val b.val 0 10) = some (.min l d a b)) ∧
    (∀ (d a b : DReg), decodeLaneWord l (encR 0 d.val a.val b.val 0 11) = some (.max l d a b)) ∧
    (∀ (d a : DReg), decodeLaneWord l (encR 0 d.val a.val 0 0 12) = some (.abs l d a)) ∧
    (∀ (d a : DReg), decodeLaneWord l (encR 0 d.val a.val 0 0 13) = some (.neg l d a)) ∧
    (∀ (d a b : DReg), decodeLaneWord l (encR 0 d.val a.val b.val 0 14) = some (.slt l d a b)) ∧
    (∀ (d a b : DReg), decodeLaneWord l (encR 0 d.val a.val b.val 0 15) = some (.sltu l d a b)) ∧
    (∀ (d a b : DReg), decodeLaneWord l (encR 0 d.val a.val b.val 0 16) = some (.seq l d a b)) ∧
    (∀ (d a b c : DReg), decodeLaneWord l (encR 0 d.val a.val b.val c.val 17) = some (.selnz l d a b c)) ∧
    (∀ (d a b : DReg), decodeLaneWord l (encR 0 d.val a.val b.val 0 18) = some (.mul l d a b)) ∧
    (∀ (d a : DReg), decodeLaneWord l (encR 0 d.val a.val 0 0 19) = some (.cls l d a)) ∧
    (∀ (d a : DReg), decodeLaneWord l (encR 0 d.val a.val 0 0 20) = some (.mov l d a)) := by
  refine ⟨?_, ?_, ?_, ?_, ?_, ?_, ?_, ?_, ?_, ?_, ?_, ?_, ?_, ?_, ?_, ?_, ?_, ?_, ?_, ?_⟩
  all_goals
    intros
    simp (disch := omega) [decodeLaneWord, decodeAlu, wD, fields_encR]

/-- The instructions of format I. -/
theorem decode_immediate (l : LaneIx) :
    (∀ (d a : DReg) (imm : BitVec 16), decodeLaneWord l (encI 1 d.val a.val imm.toNat) = some (.addi l d a imm)) ∧
    (∀ (d a : DReg) (imm : BitVec 16), decodeLaneWord l (encI 4 d.val a.val imm.toNat) = some (.andi l d a imm)) ∧
    (∀ (d a : DReg) (imm : BitVec 16), decodeLaneWord l (encI 5 d.val a.val imm.toNat) = some (.ori l d a imm)) ∧
    (∀ (d a : DReg) (imm : BitVec 16), shiftImmOk imm = true → decodeLaneWord l (encI 6 d.val a.val imm.toNat) = some (.ashi l d a imm)) ∧
    (∀ (d a : DReg) (imm : BitVec 16), shiftImmOk imm = true → decodeLaneWord l (encI 7 d.val a.val imm.toNat) = some (.lshi l d a imm)) ∧
    (∀ (d : DReg) (imm : BitVec 16), decodeLaneWord l (encI 2 d.val 0 imm.toNat) = some (.movi l d imm)) ∧
    (∀ (d : DReg) (imm : BitVec 16), decodeLaneWord l (encI 3 d.val 0 imm.toNat) = some (.movhi l d imm)) ∧
    (∀ (d : DReg), decodeLaneWord l (encI 56 d.val 0 0) = some (.savel l d)) ∧
    (∀ (d : DReg), decodeLaneWord l (encI 57 d.val 0 0) = some (.restl l d)) := by
  refine ⟨?_, ?_, ?_, ?_, ?_, ?_, ?_, ?_, ?_⟩
  all_goals
    intros
    simp (disch := omega) [decodeLaneWord, decodeI, wD, fields_encI, shiftImm_encI, *]

/-- Format M, once the address form is read. -/
theorem decodeM_form {l : LaneIx} {n : Nat} {f : AddrForm} (h : formM n = some f) :
    decodeM l n 8 = some (.ld l (wD n 22) (wP n 19) (wB n 18) f) ∧ decodeM l n 9 = some (.st l (wD n 22) (wP n 19) (wB n 18) f) ∧
    decodeM l n 10 = some (.ld2 l (wD n 22) (wP n 19) (wB n 18) f) ∧ decodeM l n 11 = some (.st2 l (wD n 22) (wP n 19) (wB n 18) f) := by
  simp [decodeM, h]

/-- Loads and stores. -/
theorem decode_memory (l : LaneIx) (d : DReg) (p : PReg) (sp : Bool) (f : AddrForm) :
    decodeLaneWord l (encM 8 d.val p.val sp f) = some (.ld l d p sp f) ∧
    decodeLaneWord l (encM 9 d.val p.val sp f) = some (.st l d p sp f) ∧
    decodeLaneWord l (encM 10 d.val p.val sp f) = some (.ld2 l d p sp f) ∧
    decodeLaneWord l (encM 11 d.val p.val sp f) = some (.st2 l d p sp f) := by
  refine ⟨?_, ?_, ?_, ?_⟩
  all_goals
    simp (disch := omega) [decodeLaneWord, decodeM_form (formM_encM _ _ _), wD, wP, wB, fields_encM]

/-- LDSIG. -/
theorem decode_signal (l : LaneIx) (d : DReg) (sel : BitVec 16) :
    decodeLaneWord l (encI 0x0C d.val 0 sel.toNat) = some (.ldsig l d sel) := by
  simp (disch := omega) [decodeLaneWord, wD, fields_encI]

/-- SACST. -/
theorem decode_sacst (l : LaneIx) (x : AccReg) (p : PReg) (sp : Bool) (f : AddrForm) (s : BitVec 6) :
    decodeLaneWord l (encX x p sp f s) = some (.sacst l x p sp f s) := by
  simp [decodeLaneWord, formX_encX, wP, wA, wB, fields_encX]

/-- The multiplier instructions, SAC and MPYR. -/
theorem decode_multiply (l : LaneIx) :
    (∀ (x : AccReg) (a b : DReg), decodeLaneWord l (encA 16 x.val 0 a.val b.val 0 0) = some (.mpy l x a b)) ∧
    (∀ (x : AccReg) (a b : DReg), decodeLaneWord l (encA 17 x.val 0 a.val b.val 0 0) = some (.mac l x a b)) ∧
    (∀ (x : AccReg) (a b : DReg), decodeLaneWord l (encA 18 x.val 0 a.val b.val 0 0) = some (.msu l x a b)) ∧
    (∀ (x : AccReg) (a b : DReg), decodeLaneWord l (encA 19 x.val 0 a.val b.val 0 0) = some (.mpyi l x a b)) ∧
    (∀ (x : AccReg) (a b : DReg), decodeLaneWord l (encA 20 x.val 0 a.val b.val 0 0) = some (.maci l x a b)) ∧
    (∀ (x : AccReg) (a b : DReg), decodeLaneWord l (encA 21 x.val 0 a.val b.val 0 0) = some (.msui l x a b)) ∧
    (∀ (d : DReg) (x : AccReg) (s : BitVec 6), decodeLaneWord l (encA 0x16 x.val 0 d.val 0 s.toNat 0) = some (.sac l d x s)) ∧
    (∀ (d a b : DReg), decodeLaneWord l (encR 0x18 d.val a.val b.val 0 0) = some (.mpyr l d a b)) := by
  refine ⟨?_, ?_, ?_, ?_, ?_, ?_, ?_, ?_⟩
  all_goals
    intros
    simp (disch := omega) [decodeLaneWord, decodeMul, wD, wA, fields_encA, fields_encR]

/-- The accumulator functions (Table 13-9). -/
theorem decode_accumulator (l : LaneIx) :
    (∀ (x : AccReg) (a b : DReg), decodeLaneWord l (encA 0x17 x.val 0 a.val b.val 0 1) = some (.mova l x a b)) ∧
    (∀ (x y : AccReg), decodeLaneWord l (encA 0x17 x.val y.val 0 0 0 2) = some (.adda l x y)) ∧
    (∀ (x y : AccReg), decodeLaneWord l (encA 0x17 x.val y.val 0 0 0 3) = some (.suba l x y)) ∧
    (∀ (x : AccReg) (s : BitVec 6), decodeLaneWord l (encA 0x17 x.val 0 0 0 s.toNat 4) = some (.asha l x s)) ∧
    (∀ (x : AccReg), decodeLaneWord l (encA 0x17 x.val 0 0 0 0 5) = some (.clra l x)) ∧
    (∀ (x : AccReg) (a b : DReg), decodeLaneWord l (encA 0x17 x.val 0 a.val b.val 0 6) = some (.addad l x a b)) ∧
    (∀ (x : AccReg) (a b : DReg), decodeLaneWord l (encA 0x17 x.val 0 a.val b.val 0 7) = some (.subad l x a b)) ∧
    (∀ (d : DReg) (x : AccReg), decodeLaneWord l (encA 0x17 x.val 0 d.val 0 0 8) = some (.rdl l d x)) ∧
    (∀ (d : DReg) (x : AccReg), decodeLaneWord l (encA 0x17 x.val 0 d.val 0 0 9) = some (.rdh l d x)) ∧
    (∀ (d : DReg) (x : AccReg), decodeLaneWord l (encA 0x17 x.val 0 d.val 0 0 10) = some (.rdg l d x)) ∧
    (∀ (x : AccReg), decodeLaneWord l (encA 0x17 x.val 0 0 0 0 11) = some (.sata l x)) := by
  refine ⟨?_, ?_, ?_, ?_, ?_, ?_, ?_, ?_, ?_, ?_, ?_⟩
  all_goals
    intros
    simp (disch := omega) [decodeLaneWord, decodeAcc, wD, wA, fields_encA]

/-- The branches. -/
theorem decode_branch (l : LaneIx) :
    (∀ (t : BitVec 12), decodeLaneWord l (encB 0x20 0 t.toNat) = some (.b l t)) ∧
    (∀ (t : BitVec 12), decodeLaneWord l (encB 0x21 0 t.toNat) = some (.call l t)) ∧
    decodeLaneWord l (encB 0x22 0 0) = some (.ret l) ∧
    (∀ (a : DReg) (t : BitVec 12), decodeLaneWord l (encB 35 a.val t.toNat) = some (.beqz l a t)) ∧
    (∀ (a : DReg) (t : BitVec 12), decodeLaneWord l (encB 36 a.val t.toNat) = some (.bnez l a t)) ∧
    (∀ (a : DReg) (t : BitVec 12), decodeLaneWord l (encB 37 a.val t.toNat) = some (.bltz l a t)) ∧
    (∀ (a : DReg) (t : BitVec 12), decodeLaneWord l (encB 38 a.val t.toNat) = some (.bgez l a t)) ∧
    (∀ (a : DReg) (t : BitVec 12), decodeLaneWord l (encB 39 a.val t.toNat) = some (.bgtz l a t)) ∧
    (∀ (a : DReg) (t : BitVec 12), decodeLaneWord l (encB 40 a.val t.toNat) = some (.blez l a t)) := by
  refine ⟨?_, ?_, ?_, ?_, ?_, ?_, ?_, ?_, ?_⟩
  all_goals
    intros
    simp (disch := omega) [decodeLaneWord, decodeB, wD, fields_encB]

/-- Pointers and modifiers. -/
theorem decode_pointer (l : LaneIx) :
    (∀ (p : PReg) (adr : BitVec 20), decodeLaneWord l (encPointer 0x30 p.val adr.toNat) = some (.movp l p adr)) ∧
    (∀ (p : PReg) (imm : BitVec 16), decodeLaneWord l (encPointer 0x31 p.val imm.toNat) = some (.movm l p imm)) ∧
    (∀ (p : PReg) (a : DReg), decodeLaneWord l (encQ p.val a.val 0 1) = some (.pregSetP l p a)) ∧
    (∀ (p : PReg) (d : DReg), decodeLaneWord l (encQ p.val d.val 0 2) = some (.pregGetP l p d)) ∧
    (∀ (p m : PReg), decodeLaneWord l (encQ p.val 0 m.val 3) = some (.pregAddM l p m)) ∧
    (∀ (m : PReg) (a : DReg), decodeLaneWord l (encQ m.val a.val 0 4) = some (.pregSetM l m a)) ∧
    (∀ (m : PReg) (d : DReg), decodeLaneWord l (encQ m.val d.val 0 5) = some (.pregGetM l m d)) := by
  refine ⟨?_, ?_, ?_, ?_, ?_, ?_, ?_⟩
  all_goals
    intros
    simp (disch := omega) [decodeLaneWord, decodePreg, wD, wP, fields_pointer, fields_encQ, Nat.mod_eq_of_lt, Nat.div_eq_of_lt]

/-- The loops. -/
theorem decode_loop (l : LaneIx) :
    (∀ (lvl : Bool) (len : BitVec 10) (count : BitVec 15), decodeLaneWord l (encLoop 0x2A lvl len.toNat count.toNat) = some (.loopi l lvl len count)) ∧
    (∀ (lvl : Bool) (len : BitVec 10) (a : DReg) (mx : BitVec 11), decodeLaneWord l (encLoop 0x2B lvl len.toNat (a.val * 2 ^ 11 + mx.toNat)) = some (.loopr l lvl len a mx)) := by
  refine ⟨fun lvl len count => ?_, fun lvl len a mx => ?_⟩
  · simp (disch := omega) [decodeLaneWord, wB, fields_loop]
  · have hi : (a.val * 2048 + mx.toNat) / 2048 = a.val := by omega
    have lo : mx.toNat % 2048 = mx.toNat := Nat.mod_eq_of_lt mx.isLt
    simp (disch := omega) [decodeLaneWord, wB, wD, fields_loop, hi, lo]

/-- The system functions. -/
theorem decode_system (l : LaneIx) :
    decodeLaneWord l (encR 0x3A 0 0 0 0 1) = some (.end_ l) ∧
    decodeLaneWord l (encR 0x3A 0 0 0 0 2) = some (.clrsat l) ∧
    (∀ (d : DReg), decodeLaneWord l (encR 0x3A d.val 0 0 0 3) = some (.sysReadLsr l d)) := by
  refine ⟨?_, ?_, ?_⟩
  all_goals
    intros
    simp (disch := omega) [decodeLaneWord, decodeSys, fields_encR]

theorem decode_nop (l : LaneIx) : decodeLaneWord l 0 = some (.nop l) := rfl

/-! Every instruction. -/

/-- LOOPR's word, as that of a loop. -/
theorem encLoop_loopr (lvl : Bool) (len : BitVec 10) (a : DReg) (mx : BitVec 11) :
    nw (0x2B * 2 ^ 26 + lvl.toNat * 2 ^ 25 + len.toNat * 2 ^ 15 + a.val * 2 ^ 11 + mx.toNat) =
      encLoop 0x2B lvl len.toNat (a.val * 2 ^ 11 + mx.toNat) :=
  congrArg nw (Nat.add_assoc _ _ _)

/-- Settles O15: instruction by instruction, the word is one of its format, which the decoder reads by its fields. -/
theorem laneWordsRoundTrip : Obligations.LaneWordsRoundTrip := by
  intro l i w f form row enc
  unfold laneTable at row
  split at row
  case h_77 => cases row
  all_goals
    obtain rfl : _ = l := Fin.ext (congrArg Prod.fst (Option.some.inj row))
    obtain rfl := Option.some.inj enc
  case h_1 => exact decode_nop _
  case h_27 =>
    obtain ⟨-, -, -, ashi, -⟩ := decode_immediate _
    exact ashi _ _ _ form
  case h_28 =>
    obtain ⟨-, -, -, -, lshi, -⟩ := decode_immediate _
    exact lshi _ _ _ form
  case h_34 => exact decode_sacst ..
  case h_63 => exact (decode_loop _).1 ..
  case h_64 => exact encLoop_loopr .. ▸ (decode_loop _).2 ..
  case h_65 => exact (decode_pointer _).1 ..
  case h_66 => exact (decode_pointer _).2.1 ..
  all_goals
    simp only [decode_alu, decode_immediate, decode_memory, decode_signal, decode_multiply, decode_accumulator, decode_branch,
      decode_pointer, decode_system]

/-- Settles O16. -/
theorem laneWordsAreRead : Obligations.LaneWordsAreRead := by
  refine ⟨?_, ?_, ?_, ?_, ?_, ?_, ?_, ?_, ?_, ?_, ?_, ?_⟩ <;> decide

end Sys2Proof.Machine
end

section
/-!
PROOF. Which commands change what (R43, R63): the values in force, memory, and what a lane instruction leaves.
-/
namespace Sys2Proof.Machine

open Sys2Proof.Safety Sys2Proof.Claims

/-! The parts that a command may change. -/

/-- Every part but the values in force and memory. -/
abbrev plainParts : List Part :=
  [.regs, .stg, .eccBad, .power, .time, .stage, .host, .mgr, .axes, .drives, .ctxs, .fbs, .mots, .cmps, .latches, .groups, .legs, .lanes,
    .ropes, .shares, .rescue, .chop, .pdie, .dma, .dmaLast, .dmaHalted, .cans, .dis, .dos, .field, .sins, .safety, .trace, .hk, .log,
    .chans, .timers, .sched, .precheck, .samples, .reps, .free, .pending]

/-- Whether a strike, a takeover, an image load, a reset or the loss of supply may act in a command. -/
def mayStrike (c : Instr) : Bool :=
  match c with
  | .frameBoundary | .samplePublish | .powerUpStepComplete .. | .vinLockout | .rstNReset | .watchdogReset | .coreSupplyLoss
  | .thermalComparatorTrip | .hkRoundEnd .. | .tapReset | .bypass | .samplePreload | .extest | .idcode | .powerOff => true
  | _ => false

/-- Whether a command beside those of `mayStrike` may write memory. -/
def mayStore (c : Instr) : Bool :=
  match c with
  | .st .. | .st2 .. | .sacst .. | .end_ .. | .loopCountExpiry .. | .canFrameReceived .. | .canTxDone .. | .dmaGo .. | .dmaStop ..
  | .dmaKick .. | .dmaResume | .dmaAutoResume | .dmaRequest .. | .dmaPeriodTrigger .. | .dmaBurst | .traceArm | .traceStop | .traceForce
  | .traceClear | .traceSample | .hostWriteFrame .. | .mgmtWrite .. | .pairLowWrite .. | .pairHighWrite .. | .laneCodeWrite ..
  | .registerWrite .. | .scrubStep .. | .logEntryCommit .. | .logWearCopy .. | .imageSaveDone .. => true
  | _ => false

/-- The parts that a command that makes no strike may change, as far as memory is concerned. -/
abbrev storeParts (stores : Bool) : List Part := if stores then .mem :: plainParts else plainParts

/-! Lane instructions. -/

section
variable {s t : State} {l : LaneIx} {i : Instr} {op : LaneOp} {fs : List Part}

/-- The parts that a lane instruction may change. -/
abbrev laneParts : List Part :=
  [.mem, .eccBad, .regs, .stage, .axes, .fbs, .mots, .legs, .lanes, .cans, .dos, .safety, .trace, .log, .chans, .timers, .sched]

theorem State.localStores_nil {n : Nat} {e : LaneEff} (stores : e.stores.filter (fun x => !x.1) = []) : s.localStores n e = s := by
  unfold State.localStores
  rw [stores]
  rfl

/-- An effect without stores to the data store changes the lane and the count of instructions. -/
theorem laneApply_only_plain {n : Nat} {bk : Bank} {e : LaneEff} (stores : e.stores.filter (fun x => !x.1) = []) :
    Only [.lanes, .sched] s (s.laneApply n bk e) := by
  unfold State.laneApply
  rw [State.localStores_nil stores]
  exact State.onLn_only (State.onSched_only (Only.refl _ _) rfl) rfl

/-- An instruction that stores nothing and does not end the activation leaves memory. -/
theorem laneStep_only_plain (stores : ∀ s n bk k, (op s n bk k).stores = []) (goes : ∀ s n bk k, (op s n bk k).ended = false) :
    Only plainParts s (s.laneStep l i op) := by
  have same : Only plainParts s s := Only.refl _ _
  unfold State.laneStep
  extract_lets +onlyGivenNames n
  clear_value n
  split
  · exact same
  · refine only_ite same (only_ite (State.laneStop_only same rfl) (only_ite (State.laneEccStop_only same rfl) ?_))
    split
    · exact State.laneStop_only same rfl
    · extract_lets +onlyGivenNames e
      have noStore : e.stores = [] := stores ..
      have noEnd : e.ended = false := goes ..
      clear_value e
      refine only_ite same (only_ite (State.laneStop_only same rfl) (only_ite (State.laneEccStop_only same rfl) ?_))
      rw [noEnd]
      exact Only.upd same rfl (laneApply_only_plain (by rw [noStore]; rfl))

end

/-- An effect that stores nothing and does not end the activation. -/
abbrev LaneEff.Plain (e : LaneEff) : Prop := e.stores = [] ∧ e.ended = false

theorem plain_ite {c : Prop} [Decidable c] {e f : LaneEff} (he : e.Plain) (hf : f.Plain) : (if c then e else f).Plain := by
  split <;> assumption

theorem plain_loadEff {s : State} {n : Nat} {k : BankSt} {d : DReg} {sp : Bool} {a len : Nat} {ps : List (Nat × BitVec 20)} :
    (loadEff s n k d sp a len ps).Plain := by
  unfold loadEff
  exact plain_ite ⟨rfl, rfl⟩ (plain_ite ⟨rfl, rfl⟩ ⟨rfl, rfl⟩)

theorem plain_branchIf {c : Bool} {t : BitVec 12} : (branchIf c t).Plain := plain_ite ⟨rfl, rfl⟩ ⟨rfl, rfl⟩

/-- Beside the stores and END, every row of the lane table is plain. -/
theorem laneTable_plain {i : Instr} {n : Nat} {op : LaneOp} (row : laneTable i = some (n, op)) (noStore : mayStore i = false)
    (s : State) (m : Nat) (bk : Bank) (k : BankSt) : (op s m bk k).Plain := by
  unfold laneTable at row
  split at row
  all_goals cases row
  case h_30 | h_32 | h_34 | h_74 => cases noStore
  case h_29 | h_31 => exact plain_loadEff
  case h_33 => exact plain_ite (plain_ite ⟨rfl, rfl⟩ ⟨rfl, rfl⟩) ⟨rfl, rfl⟩
  case h_55 | h_72 | h_73 => exact plain_ite ⟨rfl, rfl⟩ ⟨rfl, rfl⟩
  case h_56 =>
    unfold opRet
    split <;> exact ⟨rfl, rfl⟩
  case h_57 | h_58 | h_59 | h_60 | h_61 | h_62 => exact plain_branchIf
  all_goals exact ⟨rfl, rfl⟩

/-! Lists of units. -/

section
variable {α : Type} {l : List α} {i j : Nat} {f : α → α} {d : α}

theorem getD_modify_same (h : i < l.length) : (l.modify i f).getD i d = f (l.getD i d) := by
  simp [List.getD_eq_getElem?_getD, h]

theorem getD_modify_ne (h : i ≠ j) : (l.modify i f).getD j d = l.getD j d := by
  simp [List.getD_eq_getElem?_getD, h]

end

theorem byteAt_congr {s t : State} (h : t.mem = s.mem) (a : Nat) : t.byteAt a = s.byteAt a := by
  unfold State.byteAt
  rw [h]

/-! Every command. -/

/-- What a command beside the lane instructions and those of `mayStrike` may change. -/
theorem exec_only {s : State} : ∀ c : Instr, mayStrike c = false → laneTable c = none → OnlyN (storeParts (mayStore c)) s (exec c s)
  | .loopCountExpiry .., _, _ => execLoopCountExpiry_only (Only.refl _ _) rfl
  | .powerOn .., _, _ => execPowerOn_only (Only.refl _ _) rfl
  | .vioWaitTimeout, _, _ => execVioWaitTimeout_only (Only.refl _ _) rfl
  | .profilePass, _, _ => execProfilePass_only (Only.refl _ _) rfl
  | .commitCutoff, _, _ => execCommitCutoff_only (Only.refl _ _) rfl
  | .taskDispatch .., _, _ => execTaskDispatch_only (Only.refl _ _) rfl
  | .urgentTrigger .., _, _ => execUrgentTrigger_only (Only.refl _ _) rfl
  | .urgentHoldExpiry .., _, _ => execUrgentHoldExpiry_only (Only.refl _ _) rfl
  | .urgentPreemption .., _, _ => execUrgentPreemption_only (Only.refl _ _) rfl
  | .boundAbort .., _, _ => execBoundAbort_only (Only.refl _ _) rfl
  | .backgroundSliceEnd .., _, _ => execBackgroundSliceEnd_only (Only.refl _ _) rfl
  | .selftestPassDone .., _, _ => execSelftestPassDone_only (Only.refl _ _) rfl
  | .selftestLate .., _, _ => execSelftestLate_only (Only.refl _ _) rfl
  | .timeRefLost, _, _ => execTimeRefLost_only (Only.refl _ _) rfl
  | .pllRelock, _, _ => execPllRelock_only (Only.refl _ _) rfl
  | .opRampEnd, _, _ => execOpRampEnd_only (Only.refl _ _) rfl
  | .plinkSync .., _, _ => execPlinkSync_only (Only.refl _ _) rfl
  | .plinkSet .., _, _ => execPlinkSet_only (Only.refl _ _) rfl
  | .plinkEdge .., _, _ => execPlinkEdge_only (Only.refl _ _) rfl
  | .plinkIdle .., _, _ => execPlinkIdle_only (Only.refl _ _) rfl
  | .edgeExecute .., _, _ => execEdgeExecute_only (Only.refl _ _) rfl
  | .legstat .., _, _ => execLegstat_only (Only.refl _ _) rfl
  | .dcl .., _, _ => execDcl_only (Only.refl _ _) rfl
  | .plinkHk .., _, _ => execPlinkHk_only (Only.refl _ _) rfl
  | .diag .., _, _ => execDiag_only (Only.refl _ _) rfl
  | .echo .., _, _ => execEcho_only (Only.refl _ _) rfl
  | .plinkLost, _, _ => execPlinkLost_only (Only.refl _ _) rfl
  | .plinkLinkUp .., _, _ => execPlinkLinkUp_only (Only.refl _ _) rfl
  | .vdsBlankEnd .., _, _ => execVdsBlankEnd_only (Only.refl _ _) rfl
  | .vdsTrip .., _, _ => execVdsTrip_only (Only.refl _ _) rfl
  | .bsuv .., _, _ => execBsuv_only (Only.refl _ _) rfl
  | .cpuv, _, _ => execCpuv_only (Only.refl _ _) rfl
  | .cpuvRelease, _, _ => execCpuvRelease_only (Only.refl _ _) rfl
  | .vgdUv, _, _ => execVgdUv_only (Only.refl _ _) rfl
  | .vgdRelease, _, _ => execVgdRelease_only (Only.refl _ _) rfl
  | .vinOv, _, _ => execVinOv_only (Only.refl _ _) rfl
  | .vinOvRelease, _, _ => execVinOvRelease_only (Only.refl _ _) rfl
  | .dclComparatorChange .., _, _ => execDclComparatorChange_only (Only.refl _ _) rfl
  | .pwmSnapshot .., _, _ => execPwmSnapshot_only (Only.refl _ _) rfl
  | .pwmReload .., _, _ => execPwmReload_only (Only.refl _ _) rfl
  | .pwmDutyWrite .., _, _ => execPwmDutyWrite_only (Only.refl _ _) rfl
  | .pwmPeriodWrite .., _, _ => execPwmPeriodWrite_only (Only.refl _ _) rfl
  | .pwmUpdateControl .., _, _ => execPwmUpdateControl_only (Only.refl _ _) rfl
  | .pwmOverride .., _, _ => execPwmOverride_only (Only.refl _ _) rfl
  | .nodeCrossing .., _, _ => execNodeCrossing_only (Only.refl _ _) rfl
  | .deadtimeExpiry .., _, _ => execDeadtimeExpiry_only (Only.refl _ _) rfl
  | .chopperSwitchFault, _, _ => execChopperSwitchFault_only (Only.refl _ _) rfl
  | .chopperTestExpiry, _, _ => execChopperTestExpiry_only (Only.refl _ _) rfl
  | .precheckStep .., _, _ => execPrecheckStep_only (Only.refl _ _) rfl
  | .stageOpen _ _ arg8, _, _ => execStageOpen_only (arg8 := arg8) (Only.refl _ _) rfl
  | .stageDiscard _ _ arg8, _, _ => execStageDiscard_only (arg8 := arg8) (Only.refl _ _) rfl
  | .proof _ _ arg8, _, _ => execProof_only (arg8 := arg8) (Only.refl _ _) rfl
  | .strike _ _ arg8, _, _ => execStrike_only (arg8 := arg8) (Only.refl _ _) rfl
  | .strikeAt _ _ arg8, _, _ => execStrikeAt_only (arg8 := arg8) (Only.refl _ _) rfl
  | .proofStrike _ _ arg8, _, _ => execProofStrike_only (arg8 := arg8) (Only.refl _ _) rfl
  | .precheck .., _, _ => execPrecheck_only (Only.refl _ _) rfl
  | .safeStop .., _, _ => execSafeStop_only (Only.refl _ _) rfl
  | .clearEvents _ _ arg8, _, _ => execClearEvents_only (arg8 := arg8) (Only.refl _ _) rfl
  | .readmit _ _ arg8, _, _ => execReadmit_only (arg8 := arg8) (Only.refl _ _) rfl
  | .saveImage _ _ arg8, _, _ => execSaveImage_only (arg8 := arg8) (Only.refl _ _) rfl
  | .stagedWrite .., _, _ => execStagedWrite_only (Only.refl _ _) rfl
  | .proofDone, _, _ => execProofDone_only (Only.refl _ _) rfl
  | .stageExpired, _, _ => execStageExpired_only (Only.refl _ _) rfl
  | .retryWindowExpiry .., _, _ => execRetryWindowExpiry_only (Only.refl _ _) rfl
  | .reproofDone, _, _ => execReproofDone_only (Only.refl _ _) rfl
  | .powerReq .., _, _ => execPowerReq_only (Only.refl _ _) rfl
  | .axisEnable .., _, _ => execAxisEnable_only (Only.refl _ _) rfl
  | .axisRun .., _, _ => execAxisRun_only (Only.refl _ _) rfl
  | .axisStop .., _, _ => execAxisStop_only (Only.refl _ _) rfl
  | .axisDisable .., _, _ => execAxisDisable_only (Only.refl _ _) rfl
  | .axisClear .., _, _ => execAxisClear_only (Only.refl _ _) rfl
  | .offsetCaptureDone .., _, _ => execOffsetCaptureDone_only (Only.refl _ _) rfl
  | .burnisherOffsetUpdate .., _, _ => execBurnisherOffsetUpdate_only (Only.refl _ _) rfl
  | .sdOffsetRefresh .., _, _ => execSdOffsetRefresh_only (Only.refl _ _) rfl
  | .sdStreamStall .., _, _ => execSdStreamStall_only (Only.refl _ _) rfl
  | .catchTimeExpiry .., _, _ => execCatchTimeExpiry_only (Only.refl _ _) rfl
  | .restartTimeout .., _, _ => execRestartTimeout_only (Only.refl _ _) rfl
  | .fbEdgeAccepted .., _, _ => execFbEdgeAccepted_only (Only.refl _ _) rfl
  | .absAcquisitionStart .., _, _ => execAbsAcquisitionStart_only (Only.refl _ _) rfl
  | .absAcquisitionDone .., _, _ => execAbsAcquisitionDone_only (Only.refl _ _) rfl
  | .absTimeoutExpiry .., _, _ => execAbsTimeoutExpiry_only (Only.refl _ _) rfl
  | .fbLineFault .., _, _ => execFbLineFault_only (Only.refl _ _) rfl
  | .fbReacquire .., _, _ => execFbReacquire_only (Only.refl _ _) rfl
  | .fbStandstill .., _, _ => execFbStandstill_only (Only.refl _ _) rfl
  | .fbLost .., _, _ => execFbLost_only (Only.refl _ _) rfl
  | .posLoad .., _, _ => execPosLoad_only (Only.refl _ _) rfl
  | .moveAbs .., _, _ => execMoveAbs_only (Only.refl _ _) rfl
  | .moveRel .., _, _ => execMoveRel_only (Only.refl _ _) rfl
  | .jog .., _, _ => execJog_only (Only.refl _ _) rfl
  | .motStop .., _, _ => execMotStop_only (Only.refl _ _) rfl
  | .gearEngage .., _, _ => execGearEngage_only (Only.refl _ _) rfl
  | .gearArm .., _, _ => execGearArm_only (Only.refl _ _) rfl
  | .gearDisengage .., _, _ => execGearDisengage_only (Only.refl _ _) rfl
  | .switchCancel .., _, _ => execSwitchCancel_only (Only.refl _ _) rfl
  | .stepPulse .., _, _ => execStepPulse_only (Only.refl _ _) rfl
  | .push .., _, _ => execPush_only (Only.refl _ _) rfl
  | .flush .., _, _ => execFlush_only (Only.refl _ _) rfl
  | .compareArm .., _, _ => execCompareArm_only (Only.refl _ _) rfl
  | .comparePulseEnd .., _, _ => execComparePulseEnd_only (Only.refl _ _) rfl
  | .latchArm .., _, _ => execLatchArm_only (Only.refl _ _) rfl
  | .shareRef .., _, _ => execShareRef_only (Only.refl _ _) rfl
  | .shareStat .., _, _ => execShareStat_only (Only.refl _ _) rfl
  | .mainsLossQualified, _, _ => execMainsLossQualified_only (Only.refl _ _) rfl
  | .mainsReturnQualified, _, _ => execMainsReturnQualified_only (Only.refl _ _) rfl
  | .rescueStart, _, _ => execRescueStart_only (Only.refl _ _) rfl
  | .rescueBrakeHoldExpiry, _, _ => execRescueBrakeHoldExpiry_only (Only.refl _ _) rfl
  | .rescueSettleExpiry, _, _ => execRescueSettleExpiry_only (Only.refl _ _) rfl
  | .converterReady, _, _ => execConverterReady_only (Only.refl _ _) rfl
  | .converterTimeout, _, _ => execConverterTimeout_only (Only.refl _ _) rfl
  | .rescueBrakeLiftExpiry, _, _ => execRescueBrakeLiftExpiry_only (Only.refl _ _) rfl
  | .rescueTestDone, _, _ => execRescueTestDone_only (Only.refl _ _) rfl
  | .rescueTravelTimeout, _, _ => execRescueTravelTimeout_only (Only.refl _ _) rfl
  | .ascRelease .., _, _ => execAscRelease_only (Only.refl _ _) rfl
  | .stoDemand, _, _ => execStoDemand_only (Only.refl _ _) rfl
  | .stoRelease, _, _ => execStoRelease_only (Only.refl _ _) rfl
  | .stoReadback .., _, _ => execStoReadback_only (Only.refl _ _) rfl
  | .stoTestDue, _, _ => execStoTestDue_only (Only.refl _ _) rfl
  | .selHost .., _, _ => execSelHost_only (Only.refl _ _) rfl
  | .safetyMonitorStart .., _, _ => execSafetyMonitorStart_only (Only.refl _ _) rfl
  | .ss1Timeout .., _, _ => execSs1Timeout_only (Only.refl _ _) rfl
  | .brakeRelease .., _, _ => execBrakeRelease_only (Only.refl _ _) rfl
  | .brakeSetExpiry .., _, _ => execBrakeSetExpiry_only (Only.refl _ _) rfl
  | .brakeFbTimeout .., _, _ => execBrakeFbTimeout_only (Only.refl _ _) rfl
  | .testPulse .., _, _ => execTestPulse_only (Only.refl _ _) rfl
  | .degradedExpired .., _, _ => execDegradedExpired_only (Only.refl _ _) rfl
  | .flinkUplinkFrame .., _, _ => execFlinkUplinkFrame_only (Only.refl _ _) rfl
  | .flinkDownlinkFrame, _, _ => execFlinkDownlinkFrame_only (Only.refl _ _) rfl
  | .flinkAuxWord .., _, _ => execFlinkAuxWord_only (Only.refl _ _) rfl
  | .flinkLost, _, _ => execFlinkLost_only (Only.refl _ _) rfl
  | .flinkRecovered, _, _ => execFlinkRecovered_only (Only.refl _ _) rfl
  | .diDebounceAccept .., _, _ => execDiDebounceAccept_only (Only.refl _ _) rfl
  | .openWireSet .., _, _ => execOpenWireSet_only (Only.refl _ _) rfl
  | .openWireClear .., _, _ => execOpenWireClear_only (Only.refl _ _) rfl
  | .doThermalOff .., _, _ => execDoThermalOff_only (Only.refl _ _) rfl
  | .doThermalRetry .., _, _ => execDoThermalRetry_only (Only.refl _ _) rfl
  | .vfSag, _, _ => execVfSag_only (Only.refl _ _) rfl
  | .vfCut, _, _ => execVfCut_only (Only.refl _ _) rfl
  | .vfRestored, _, _ => execVfRestored_only (Only.refl _ _) rfl
  | .canFrameReceived .., _, _ => execCanFrameReceived_only (Only.refl _ _) rfl
  | .canTxRequest .., _, _ => execCanTxRequest_only (Only.refl _ _) rfl
  | .canTxAbort .., _, _ => execCanTxAbort_only (Only.refl _ _) rfl
  | .canTxDone .., _, _ => execCanTxDone_only (Only.refl _ _) rfl
  | .canBusoff .., _, _ => execCanBusoff_only (Only.refl _ _) rfl
  | .canRecover .., _, _ => execCanRecover_only (Only.refl _ _) rfl
  | .canRecovered .., _, _ => execCanRecovered_only (Only.refl _ _) rfl
  | .rxSlotLock .., _, _ => execRxSlotLock_only (Only.refl _ _) rfl
  | .rxSlotRelease .., _, _ => execRxSlotRelease_only (Only.refl _ _) rfl
  | .bilvaSync .., _, _ => execBilvaSync_only (Only.refl _ _) rfl
  | .followUp .., _, _ => execFollowUp_only (Only.refl _ _) rfl
  | .timeCtrl .., _, _ => execTimeCtrl_only (Only.refl _ _) rfl
  | .bilvaStrikeAt .., _, _ => execBilvaStrikeAt_only (Only.refl _ _) rfl
  | .strikeCancel _ _ _ orig, _, _ => execStrikeCancel_only (orig := orig) (Only.refl _ _) rfl
  | .strikeAck _ _ _ _ _ st, _, _ => execStrikeAck_only (st := st) (Only.refl _ _) rfl
  | .bilvaForward .., _, _ => execBilvaForward_only (Only.refl _ _) rfl
  | .syncSend .., _, _ => execSyncSend_only (Only.refl _ _) rfl
  | .masterLoss, _, _ => execMasterLoss_only (Only.refl _ _) rfl
  | .backupMasterStart, _, _ => execBackupMasterStart_only (Only.refl _ _) rfl
  | .holdoverExpiry, _, _ => execHoldoverExpiry_only (Only.refl _ _) rfl
  | .relock, _, _ => execRelock_only (Only.refl _ _) rfl
  | .ntSet, _, _ => execNtSet_only (Only.refl _ _) rfl
  | .bcastRelock, _, _ => execBcastRelock_only (Only.refl _ _) rfl
  | .netstrikeSend .., _, _ => execNetstrikeSend_only (Only.refl _ _) rfl
  | .netstrikeCancel, _, _ => execNetstrikeCancel_only (Only.refl _ _) rfl
  | .timePulse .., _, _ => execTimePulse_only (Only.refl _ _) rfl
  | .telemetrySend, _, _ => execTelemetrySend_only (Only.refl _ _) rfl
  | .dmaGo .., _, _ => execDmaGo_only (Only.refl _ _) rfl
  | .dmaStop .., _, _ => execDmaStop_only (Only.refl _ _) rfl
  | .dmaKick .., _, _ => execDmaKick_only (Only.refl _ _) rfl
  | .dmaResume, _, _ => execDmaResume_only (Only.refl _ _) rfl
  | .dmaAutoResume, _, _ => execDmaAutoResume_only (Only.refl _ _) rfl
  | .dmaRequest .., _, _ => execDmaRequest_only (Only.refl _ _) rfl
  | .dmaPeriodTrigger .., _, _ => execDmaPeriodTrigger_only (Only.refl _ _) rfl
  | .dmaBurst, _, _ => execDmaBurst_only rfl (Only.refl _ _)
  | .traceArm, _, _ => execTraceArm_only (Only.refl _ _) rfl
  | .traceStop, _, _ => execTraceStop_only (Only.refl _ _) rfl
  | .traceForce, _, _ => execTraceForce_only (Only.refl _ _) rfl
  | .traceClear, _, _ => execTraceClear_only (Only.refl _ _) rfl
  | .traceSample, _, _ => execTraceSample_only (Only.refl _ _) rfl
  | .traceSeqWindowExpiry, _, _ => execTraceSeqWindowExpiry_only (Only.refl _ _) rfl
  | .hostWriteFrame .., _, _ => execHostWriteFrame_only (Only.refl _ _) rfl
  | .hostReadFrame .., _, _ => execHostReadFrame_only (Only.refl _ _) rfl
  | .hostFrameAbort, _, _ => execHostFrameAbort_only (Only.refl _ _) rfl
  | .mgmtWrite .., _, _ => execMgmtWrite_only (Only.refl _ _) rfl
  | .mgmtRead .., _, _ => execMgmtRead_only (Only.refl _ _) rfl
  | .mgmtBusTimeout, _, _ => execMgmtBusTimeout_only (Only.refl _ _)
  | .alertResponse, _, _ => execAlertResponse_only (Only.refl _ _) rfl
  | .pairLowRead .., _, _ => execPairLowRead_only (Only.refl _ _) rfl
  | .pairLowWrite .., _, _ => execPairLowWrite_only (Only.refl _ _) rfl
  | .pairHighWrite .., _, _ => execPairHighWrite_only (Only.refl _ _) rfl
  | .laneCodeWrite .., _, _ => execLaneCodeWrite_only (Only.refl _ _) rfl
  | .registerWrite .., _, _ => execRegisterWrite_only (Only.refl _ _) rfl
  | .ainTrimUpdate .., _, _ => execAinTrimUpdate_only (Only.refl _ _) rfl
  | .scrubStep .., _, _ => execScrubStep_only (Only.refl _ _) rfl
  | .logEntryCommit .., _, _ => execLogEntryCommit_only (Only.refl _ _) rfl
  | .logWearCopy .., _, _ => execLogWearCopy_only (Only.refl _ _) rfl
  | .imageSaveDone .., _, _ => execImageSaveDone_only (Only.refl _ _) rfl
  | .vinRising, _, _ => execVinRising_only (Only.refl _ _) rfl
  | .refReturn, _, _ => execRefReturn_only (Only.refl _ _) rfl
  | .vfSagClear, _, _ => execVfSagClear_only (Only.refl _ _) rfl
  | .canBusError .., _, _ => execCanBusError_only (Only.refl _ _) rfl
  | .externalLegEdge .., _, _ => execExternalLegEdge_only (Only.refl _ _) rfl
  | .repeaterTransition .., _, _ => execRepeaterTransition_only (Only.refl _ _) rfl
  | .adcConversionDone .., _, _ => execAdcConversionDone_only (Only.refl _ _) rfl
  | .vioLoss, _, _ => execVioLoss_only (Only.refl _ _) rfl
  | .vioReturn, _, _ => execVioReturn_only (Only.refl _ _) rfl

/-- A command of no strike leaves the values in force. -/
theorem exec_cfg {c : Instr} {s t : State} (noStrike : mayStrike c = false) (run : exec c s = .next t) : t.cfg = s.cfg := by
  cases row : laneTable c with
  | none =>
    refine onlyN_get (exec_only c noStrike row) run .cfg ?_
    cases mayStore c <;> decide
  | some x =>
    obtain ⟨l, -, step⟩ := exec_eq_laneStep row s
    cases step.symm.trans run
    exact State.laneStep_only (fs := laneParts) (Only.refl _ _) rfl .cfg (by decide)

/-- A command that makes no strike and may not store leaves memory. -/
theorem exec_mem {c : Instr} {s t : State} (noStrike : mayStrike c = false) (noStore : mayStore c = false) (run : exec c s = .next t) :
    t.mem = s.mem := by
  cases row : laneTable c with
  | none =>
    refine onlyN_get (exec_only c noStrike row) run .mem ?_
    rw [noStore]
    decide
  | some x =>
    obtain ⟨l, -, step⟩ := exec_eq_laneStep row s
    cases step.symm.trans run
    have plain := laneTable_plain row noStore
    exact laneStep_only_plain (fun s n bk k => (plain s n bk k).1) (fun s n bk k => (plain s n bk k).2) .mem (by decide)

section
variable {s : State} {l : LaneIx} {i : Instr} {op : LaneOp} {bk : Bank} {k : BankSt}

/-- One lane and the count of instructions are all that an issue without a stop, an end or a local store changes. -/
theorem issued_frame (issues : Issues s l i bk k) (row : laneTable i = some (l.val, op)) (on : (op s l.val bk k).GoesOn)
    (crossbar : ∀ x ∈ (op s l.val bk k).stores, x.1 = true) {t : State} (run : exec i s = .next t) :
    Only [.lanes, .sched] s t ∧ ∀ n, n ≠ l.val → t.ln n = s.ln n := by
  have noLocal : (op s l.val bk k).stores.filter (fun x => !x.1) = [] :=
    List.filter_eq_nil_iff.mpr fun x hx => by simp [crossbar x hx]
  cases (exec_issued issues row on).symm.trans run
  refine ⟨laneApply_only_plain noLocal, fun n other => ?_⟩
  rw [laneApply_eq_goesOn issues, State.localStores_nil noLocal]
  exact getD_modify_ne other.symm

end

/-- Settles O7: `exec_cfg` and `exec_mem` for the commands that are not listed, `laneStep_only` and `issued_frame` for those of a lane. -/
theorem familyFrames : Obligations.FamilyFrames := by
  refine ⟨fun c s t run => ?cfg, fun c s t run => ?mem, fun i l f s t row run => ⟨?lane, ?issue⟩⟩
  case cfg =>
    cases c
    case frameBoundary | samplePublish | powerUpStepComplete | vinLockout | rstNReset | watchdogReset | coreSupplyLoss |
        thermalComparatorTrip | hkRoundEnd | tapReset | bypass | samplePreload | extest | idcode | powerOff =>
      trivial
    all_goals exact exec_cfg rfl run
  case mem =>
    cases c
    case frameBoundary | samplePublish | powerUpStepComplete | vinLockout | rstNReset | watchdogReset | coreSupplyLoss |
        thermalComparatorTrip | hkRoundEnd | tapReset | bypass | samplePreload | extest | idcode | powerOff =>
      trivial
    case st | st2 | sacst | end_ | loopCountExpiry | canFrameReceived | canTxDone | dmaGo | dmaStop | dmaKick | dmaResume |
        dmaAutoResume | dmaRequest | dmaPeriodTrigger | dmaBurst | traceArm | traceStop | traceForce | traceClear | traceSample |
        hostWriteFrame | mgmtWrite | pairLowWrite | pairHighWrite | laneCodeWrite | registerWrite | scrubStep | logEntryCommit |
        logWearCopy | imageSaveDone =>
      trivial
    all_goals exact byteAt_congr (exec_mem rfl rfl run)
  case lane =>
    obtain ⟨l', -, step⟩ := exec_eq_laneStep row s
    cases step.symm.trans run
    exact State.laneStep_only (Only.refl _ _) rfl
  case issue =>
    rintro bk k - e issues rfl stop ecc ended crossbar
    exact issued_frame issues row ⟨stop, ecc, ended⟩ crossbar run

end Sys2Proof.Machine
end

section
/-!
PROOF. Lane arithmetic (R327, R336, Tables 13-7 and 13-8): wrapping, saturating and comparing instructions, CLS and the shifts.
-/
namespace Sys2Proof.Machine

open Sys2Proof.Safety Sys2Proof.Claims

/-! Results in Dd. -/

section
variable {i : LaneIx → Instr} {d : DReg}

theorem results_effD (k : BankSt) (d : DReg) (w : Word) : k.results (effD d w) = withD k d w := by
  simp [BankSt.results, effD, withD]

/-- A row whose effect is a result in Dd. -/
theorem issued_effD (w : BankSt → Word) (row : ∀ l, laneTable (i l) = some (l.val, fun _ _ _ k => effD d (w k))) :
    Issued i fun k => withD k d (w k) := fun l _ _ k issues => by
  rw [exec_inBank issues (row l) ⟨⟨rfl, rfl, rfl⟩, rfl, rfl, rfl, rfl⟩, results_effD]

/-- The same where the result is another way to write that of the row. -/
theorem issued_effD_eq (v : BankSt → Word) {w : BankSt → Word} (row : ∀ l, laneTable (i l) = some (l.val, fun _ _ _ k => effD d (v k)))
    (same : ∀ k, v k = w k) : Issued i fun k => withD k d (w k) := by
  rw [← funext same]
  exact issued_effD v row

end

/-! Comparisons. -/

theorem slt_iff (a b : Word) : a.slt b = true ↔ a.toInt < b.toInt := BitVec.slt_iff_toInt_lt

/-- MIN takes Da where it is not greater, the statement where it is less: for equal words the two agree. -/
theorem min_eq_slt (a b : Word) : (if a.toInt ≤ b.toInt then a else b) = if a.slt b then a else b := by
  simp only [slt_iff]
  split
  · split
    · rfl
    · exact BitVec.eq_of_toInt_eq (by omega)
  · rw [if_neg (by omega)]

theorem max_eq_slt (a b : Word) : (if b.toInt ≤ a.toInt then a else b) = if a.slt b then b else a := by
  simp only [slt_iff]
  split
  · rw [if_neg (by omega)]
  · rw [if_pos (by omega)]

/-! CLS. -/

theorem clsRun_le (w : Word) (n : Nat) : clsRun w n ≤ n := by
  induction n with
  | zero => rfl
  | succ n ih =>
    unfold clsRun
    split <;> omega

/-- The bits of the run agree with bit 31, and the bit below it, if there is one, does not. -/
theorem clsRun_spec (w : Word) (n : Nat) : (∀ j, n - clsRun w n ≤ j → j < n → bt w j = bt w 31) ∧
    (clsRun w n < n → bt w (n - 1 - clsRun w n) ≠ bt w 31) := by
  induction n with
  | zero => exact ⟨fun _ _ h => by omega, fun h => by omega⟩
  | succ n ih =>
    obtain ⟨run, ends⟩ := ih
    unfold clsRun
    split
    case isTrue same =>
      refine ⟨fun j low high => ?_, fun short => ?_⟩
      · rcases Nat.lt_succ_iff_lt_or_eq.mp high with lt | rfl
        · exact run j (by omega) lt
        · exact beq_iff_eq.mp same
      · have := ends (by omega)
        rwa [show n + 1 - 1 - (1 + clsRun w n) = n - 1 - clsRun w n by omega]
    case isFalse differs =>
      exact ⟨fun j low high => by omega, fun _ same => differs (beq_iff_eq.mpr same)⟩

/-- CLS counts the bits below bit 31 that agree with it, in an unbroken run. -/
theorem clsRun_word (w : Word) : clsRun w 31 ≤ 31 ∧ (∀ j, 31 - clsRun w 31 ≤ j → j ≤ 31 → w.getLsbD j = w.getLsbD 31) ∧
    (clsRun w 31 < 31 → w.getLsbD (30 - clsRun w 31) ≠ w.getLsbD 31) := by
  obtain ⟨run, ends⟩ := clsRun_spec w 31
  refine ⟨clsRun_le w 31, fun j low high => ?_, fun short => ends short⟩
  rcases Nat.lt_or_eq_of_le high with lt | rfl
  · exact run j low lt
  · rfl

/-! Shifts. -/

/-- The count of a shift by register, clamped. -/
theorem shiftCount_eq (w : Word) : shiftCount w = max (-32) (min 31 w.toInt) := clampI_eq (by decide) _

theorem ofInt_mul_two_pow (w : Word) (n : Nat) : BitVec.ofInt 32 (w.toInt * 2 ^ n) = w <<< n := by
  apply BitVec.eq_of_toInt_eq
  rw [BitVec.toInt_ofInt, BitVec.toInt_shiftLeft, Nat.shiftLeft_eq, BitVec.toInt_eq_toNat_bmod, Int.bmod_mul_bmod]
  push_cast
  rfl

/-- ASH to the left multiplies, and to the right divides toward minus infinity. -/
theorem ashWord_eq (w : Word) (n : Int) :
    ashWord w n = if 0 ≤ n then w <<< n.toNat else w.sshiftRight (-n).toNat := by
  unfold ashWord shiftInt iw
  split
  · exact ofInt_mul_two_pow w _
  · conv_rhs => rw [← BitVec.ofInt_toInt (x := w.sshiftRight _)]
    rw [BitVec.toInt_sshiftRight, Int.shiftRight_eq_div_pow]
    push_cast
    rfl

/-- LSH shifts the word as a number. -/
theorem lshWord_eq (w : Word) (n : Int) :
    lshWord w n = if 0 ≤ n then w <<< n.toNat else w >>> (-n).toNat := by
  unfold lshWord shiftInt nw
  split
  · have number : ((w.toNat : Int) * 2 ^ n.toNat).toNat = w.toNat * 2 ^ n.toNat := by
      exact_mod_cast Int.toNat_natCast (w.toNat * 2 ^ n.toNat)
    apply BitVec.eq_of_toNat_eq
    rw [number, BitVec.toNat_ofNat, BitVec.toNat_shiftLeft, Nat.shiftLeft_eq]
  · have number : ((w.toNat : Int) / 2 ^ (-n).toNat).toNat = w.toNat / 2 ^ (-n).toNat := by
      exact_mod_cast Int.toNat_natCast (w.toNat / 2 ^ (-n).toNat)
    apply BitVec.eq_of_toNat_eq
    rw [number, BitVec.toNat_ofNat, BitVec.toNat_ushiftRight, Nat.shiftRight_eq_div_pow]
    exact Nat.mod_eq_of_lt ((Nat.div_le_self _ _).trans_lt w.isLt)

/-- A shift immediate of the well-formed ones is its own count. -/
theorem issued_ashi (d a : DReg) (imm : BitVec 16) : Issued (.ashi · d a imm) fun k =>
    withD k d (if 0 ≤ imm.toInt then k.dReg a.val <<< imm.toInt.toNat else (k.dReg a.val).sshiftRight (-imm.toInt).toNat) :=
  issued_effD_eq _ (fun _ => rfl) fun _ => ashWord_eq _ _

theorem issued_lshi (d a : DReg) (imm : BitVec 16) : Issued (.lshi · d a imm) fun k =>
    withD k d (if 0 ≤ imm.toInt then k.dReg a.val <<< imm.toInt.toNat else k.dReg a.val >>> (-imm.toInt).toNat) :=
  issued_effD_eq _ (fun _ => rfl) fun _ => lshWord_eq _ _

/-- Settles O8: each row's effect is a result in Dd or a saturating one, and the result is the one stated. -/
theorem laneArithmetic : Obligations.LaneArithmetic := by
  refine ⟨⟨?_, ?_, ?_, ?_, ?_, fun d a => ?_, ?_, fun d imm => ?_, fun d imm => ?_, ?_, ?_⟩,
    ⟨fun d a b => issued_effSat _ fun _ => rfl, fun d a b => issued_effSat _ fun _ => rfl, fun d a => issued_effSat _ fun _ => rfl,
      fun d a => issued_effSat _ fun _ => rfl, fun d a b => issued_effD_eq _ (fun _ => rfl) fun _ => min_eq_slt _ _,
      fun d a b => issued_effD_eq _ (fun _ => rfl) fun _ => max_eq_slt _ _,
      fun d a b => issued_effD_eq _ (fun _ => rfl) fun _ => by simp only [slt_iff],
      fun d a b => issued_effD_eq _ (fun _ => rfl) fun _ => by simp only [BitVec.ult_iff_lt, BitVec.lt_def],
      fun d a b => issued_effD _ fun _ => rfl, fun d a b c => issued_effD_eq _ (fun _ => rfl) fun _ => by rw [ite_not],
      fun d a => ⟨fun k => clsRun (k.dReg a.val) 31, issued_effD _ fun _ => rfl, fun _ => clsRun_word _⟩⟩,
    fun d a b => issued_effD_eq _ (fun _ => rfl) fun _ => by rw [shiftCount_eq, ashWord_eq],
    fun d a b => issued_effD_eq _ (fun _ => rfl) fun _ => by rw [shiftCount_eq, lshWord_eq],
    fun d a imm _ => issued_ashi d a imm, fun d a imm _ => issued_lshi d a imm⟩
  case refine_6 | refine_8 | refine_9 => exact issued_effD _ fun _ => rfl
  all_goals exact fun d a b => issued_effD _ fun _ => rfl

/-! States at which a lane computes. -/

/-- A lane before its first instruction: D1 is -1, D2 the largest word. -/
def arithBank : BankSt := { slot := some 0, d := [0, 0xFFFFFFFF, 0x7FFFFFFF] ++ List.replicate 13 0 }

/-- ADDS of the largest word to itself clamps and sets SAT; ADD wraps; ASHI by -4 keeps the sign, LSHI does not. -/
theorem arithmetic_laneAt :
    (∃ t, exec (.adds 0 3 2 2) (laneAt (.adds 0 3 2 2) arithBank {}) = .next t ∧
      (t.ln 0).bankF.dReg 3 = 0x7FFFFFFF ∧ (t.ln 0).bankF.sat = true) ∧
    (∃ t, exec (.add 0 3 2 2) (laneAt (.add 0 3 2 2) arithBank {}) = .next t ∧
      (t.ln 0).bankF.dReg 3 = 0xFFFFFFFE ∧ (t.ln 0).bankF.sat = false) ∧
    (∃ t, exec (.ashi 0 3 1 (-4)) (laneAt (.ashi 0 3 1 (-4)) arithBank {}) = .next t ∧ (t.ln 0).bankF.dReg 3 = 0xFFFFFFFF) ∧
    (∃ t, exec (.lshi 0 3 1 (-4)) (laneAt (.lshi 0 3 1 (-4)) arithBank {}) = .next t ∧ (t.ln 0).bankF.dReg 3 = 0x0FFFFFFF) := by
  obtain ⟨⟨add, -⟩, ⟨adds, -⟩, -, -, ashi, lshi⟩ := laneArithmetic
  refine ⟨⟨_, adds 3 2 2 0 _ _ _ (laneAt_issues rfl rfl rfl rfl), ?_⟩, ⟨_, add 3 2 2 0 _ _ _ (laneAt_issues rfl rfl rfl rfl), ?_⟩,
    ⟨_, ashi 3 1 (-4) rfl 0 _ _ _ (laneAt_issues rfl rfl rfl rfl), ?_⟩, ⟨_, lshi 3 1 (-4) rfl 0 _ _ _ (laneAt_issues rfl rfl rfl rfl), ?_⟩⟩
  all_goals decide

end Sys2Proof.Machine
end

section
/-!
PROOF. Registers of a lane (R325, R328, R332, R335, R336, Tables 13-1 to 13-5 and 13-9): accumulator functions, pointers and modifiers, the loop
registers in D registers, LSR, and when a result in flight lands.
-/
namespace Sys2Proof.Machine

open Sys2Proof.Safety Sys2Proof.Claims

/-! Accumulators. -/

section
variable {i : LaneIx → Instr} {acc : AccReg}

theorem results_effAcc (k : BankSt) (acc : AccReg) (v : BitVec 72) (sat : Bool) : k.results (effAcc acc (v, sat)) = withAcc k acc v sat := by
  simp [BankSt.results, effAcc, withAcc]

/-- A row whose effect is a result in an accumulator. -/
theorem issued_effAcc (r : BankSt → BitVec 72 × Bool) {v : BankSt → BitVec 72} {sat : BankSt → Bool}
    (row : ∀ l, laneTable (i l) = some (l.val, fun _ _ _ k => effAcc acc (r k))) (same : ∀ k, r k = (v k, sat k)) :
    Issued i fun k => withAcc k acc (v k) (sat k) := fun l _ _ k issues => by
  rw [exec_inBank issues (row l) ⟨⟨rfl, rfl, rfl⟩, rfl, rfl, rfl, rfl⟩, same, results_effAcc]

end

/-- Da:Db as a number is that of the two words side by side. -/
theorem wordPair_eq (a b : Word) : wordPair a b = (a ++ b).toInt := by
  rw [BitVec.toInt_append, wordPair, pair64, if_neg (by decide), Int.mul_comm]
  rfl

/-- The 64-bit clamp of SATA. -/
theorem satS64_eq (x : Int) : satS 64 x = max (-2 ^ 63) (min (2 ^ 63 - 1) x) ∧
    (satS 64 x != x) = decide (x < -2 ^ 63 ∨ 2 ^ 63 - 1 < x) := ⟨clampI_eq (by decide) x, clampI_ne (by decide) x⟩

/-- The guard bits of an accumulator, sign-extended. -/
theorem guard_eq (v : BitVec 72) : (v.extractLsb' 64 8).signExtend 32 = (v.sshiftRight 64).truncate 32 := by
  apply BitVec.eq_of_getLsbD_eq
  intro i hi
  by_cases low : i < 8
  · simp [BitVec.getElem_signExtend, BitVec.getLsbD_sshiftRight, hi, low, show ¬ 72 ≤ i by omega, show 64 + i < 72 by omega]
  · simp [BitVec.getElem_signExtend, BitVec.getLsbD_sshiftRight, hi, low, show ¬ 72 ≤ i by omega, show ¬ 64 + i < 72 by omega,
      BitVec.msb_eq_getLsbD_last]

/-! Pointers, modifiers and the rest of the bank. -/

section
variable {i : LaneIx → Instr}

/-- A row whose effect stays in the bank. -/
theorem issued_inBank {e : BankSt → LaneEff} {f : BankSt → BankSt} (row : ∀ l, laneTable (i l) = some (l.val, fun _ _ _ k => e k))
    (inBank : ∀ k, (e k).InBank) (results : ∀ k, k.results (e k) = f k) : Issued i f := fun l _ _ k issues => by
  rw [exec_inBank issues (row l) (inBank k), results]

end

/-- A slot without results lands what is due. -/
theorem results_none (k : BankSt) : k.results {} = k.age := by
  simp [BankSt.results, -age_p, -age_m, -age_sat, -age_stack, -age_commit]

section
variable {i : LaneIx → Instr} {r : PReg}

/-- A row whose effect is a pointer. -/
theorem issued_effP {v : BankSt → BitVec 20} (row : ∀ l, laneTable (i l) = some (l.val, fun _ _ _ k => { p := [(r.val, v k)] })) :
    Issued i fun k => { k.age with p := k.age.p.set r.val (v k) } :=
  issued_inBank row (fun _ => ⟨⟨rfl, rfl, rfl⟩, rfl, rfl, rfl, rfl⟩) fun k => by simp [BankSt.results]

/-- A row whose effect is a modifier. -/
theorem issued_effM {v : BankSt → BitVec 16} (row : ∀ l, laneTable (i l) = some (l.val, fun _ _ _ k => { m := [(r.val, v k)] })) :
    Issued i fun k => { k.age with m := k.age.m.set r.val (v k) } :=
  issued_inBank row (fun _ => ⟨⟨rfl, rfl, rfl⟩, rfl, rfl, rfl, rfl⟩) fun k => by simp [BankSt.results]

end

/-! Loop registers. -/

theorem pack16 (hi lo : BitVec 16) : nw (hi.toNat * 65536 + lo.toNat) = hi ++ lo := by
  apply BitVec.eq_of_toNat_eq
  rw [nw_toNat (by omega), BitVec.toNat_append]
  rw [← Nat.shiftLeft_add_eq_or_of_lt lo.isLt, Nat.shiftLeft_eq]

theorem pack12 (hi lo : BitVec 12) : nw (hi.toNat * 65536 + lo.toNat) = hi.zeroExtend 16 ++ lo.zeroExtend 16 := by
  rw [← pack16, BitVec.toNat_setWidth, BitVec.toNat_setWidth, Nat.mod_eq_of_lt (by omega), Nat.mod_eq_of_lt (by omega)]

/-- An effect on the loop registers alone leaves the bank but for what lands. -/
theorem results_loops (k : BankSt) (g : LoopRegs) : k.results { loops := some g } = k.age := by
  simp [BankSt.results, -age_p, -age_m, -age_sat, -age_stack, -age_commit]

/-! LSR. -/

/-- The bits of LSR (Table 13-2), for the two loops that may run, the bank and SAT. -/
theorem lsr_bits (outer inner sat : Bool) (bk : Bank) :
    let n := match bk with
      | .f => 0
      | .u => 1
      | .b => 2
    let w := nw (bitAt 9 outer + bitAt 8 inner + n * 16 + bitAt 0 sat)
    w.getLsbD 9 = outer ∧ w.getLsbD 8 = inner ∧ (w >>> 4).truncate 2 = (match bk with
      | .f => 0#2
      | .u => 1#2
      | .b => 2#2) ∧ w.getLsbD 0 = sat ∧ w &&& 0xFFFFFCCE#32 = 0 := by
  cases bk <;> revert outer inner sat <;> decide

/-! Results in flight. -/

section
variable (k : BankSt)

theorem age_d1 {r : DReg} {v : Word} (h : k.inFlight = [.d 1 r v]) :
    k.age.d = k.d.set r.val v ∧ k.age.inFlight = [] ∧ k.age.acc = k.acc := by
  simp [BankSt.age, h, InFlight.tick, InFlight.left, BankSt.land]

theorem age_d2 {r : DReg} {v : Word} (h : k.inFlight = [.d 2 r v]) :
    k.age.d = k.d ∧ k.age.inFlight = [.d 1 r v] ∧ k.age.acc = k.acc := by
  simp [BankSt.age, h, InFlight.tick, InFlight.left]

theorem age_acc1 {r : AccReg} {v : BitVec 72} (h : k.inFlight = [.acc 1 r v]) :
    k.age.acc = k.acc.set r.val v ∧ k.age.inFlight = [] ∧ k.age.d = k.d := by
  simp [BankSt.age, h, InFlight.tick, InFlight.left, BankSt.land]

theorem age_acc2 {r : AccReg} {v : BitVec 72} (h : k.inFlight = [.acc 2 r v]) :
    k.age.acc = k.acc ∧ k.age.inFlight = [.acc 1 r v] ∧ k.age.d = k.d := by
  simp [BankSt.age, h, InFlight.tick, InFlight.left]

theorem age_none (h : k.inFlight = []) : k.age = k := by
  cases k
  cases h
  rfl

end

section
variable {s : State} {l : LaneIx} {bk : Bank} {k : BankSt}

theorem exec_savel {d : DReg} (issues : Issues s l (.savel l d) bk k) (fits : d.val ≤ 13) :
    exec (.savel l d) s =
       .next (goesBy s l.val bk k
         { k.age with
           d := ((k.age.d.set d.val ((s.ln l.val).loops.lc1 ++ (s.ln l.val).loops.lc0)).set (d.val + 1)
             (((s.ln l.val).loops.le0.zeroExtend 16) ++ ((s.ln l.val).loops.ls0.zeroExtend 16))).set (d.val + 2)
             (((s.ln l.val).loops.le1.zeroExtend 16) ++ ((s.ln l.val).loops.ls1.zeroExtend 16)) }) := by
  have effect : opSavel d s l.val bk k = { d := [(d.val, (s.ln l.val).loops.lc1 ++ (s.ln l.val).loops.lc0),
      (d.val + 1, (s.ln l.val).loops.le0.zeroExtend 16 ++ (s.ln l.val).loops.ls0.zeroExtend 16),
      (d.val + 2, (s.ln l.val).loops.le1.zeroExtend 16 ++ (s.ln l.val).loops.ls1.zeroExtend 16)] } := by
    simp only [opSavel, pack16, pack12]
    exact if_neg (by omega)
  rw [exec_inBank issues rfl (by rw [effect]; exact ⟨⟨rfl, rfl, rfl⟩, rfl, rfl, rfl, rfl⟩), effect]
  simp [BankSt.results]

theorem exec_restl {d : DReg} (issues : Issues s l (.restl l d) bk k) (fits : d.val ≤ 13) :
    let w := fun i => k.dReg (d.val + i)
    exec (.restl l d) s =
       .next (goesOn s l.val bk k k.age
         { lc0 := (w 0).truncate 16, lc1 := (w 0 >>> 16).truncate 16, ls0 := (w 1).truncate 12, le0 := (w 1 >>> 16).truncate 12,
           ls1 := (w 2).truncate 12, le1 := (w 2 >>> 16).truncate 12 } none none) := by
  intro w
  have effect : opRestl d s l.val bk k =
      { loops := some { lc0 := (w 0).truncate 16, lc1 := (w 0 >>> 16).truncate 16, ls0 := (w 1).truncate 12,
                        le0 := (w 1 >>> 16).truncate 12, ls1 := (w 2).truncate 12, le1 := (w 2 >>> 16).truncate 12 } } :=
    if_neg (by omega)
  rw [exec_issued issues rfl (by rw [effect]; exact ⟨rfl, rfl, rfl⟩), laneApply_eq_goesOn issues, effect, State.localStores_nil rfl,
    results_loops]
  rfl

theorem exec_sysReadLsr {d : DReg} (issues : Issues s l (.sysReadLsr l d) bk k) :
    exec (.sysReadLsr l d) s = .next (goesBy s l.val bk k (withD k d (laneLsr (s.ln l.val).loops bk k.sat))) := by
  rw [exec_inBank issues rfl ⟨⟨rfl, rfl, rfl⟩, rfl, rfl, rfl, rfl⟩, ← results_effD]
  rfl

end

/-- Settles O11: each row's effect is a result in an accumulator, in Dd or in the bank; `age` lands what its last slot has passed. -/
theorem laneRegisters : Obligations.LaneRegisters := by
  refine ⟨⟨?_, ?_, ?_, ?_, ?_, ?_, ?_, ?_, ?_, ?_, ?_, ?_⟩, ⟨?_, ?_, ?_, ?_, ?_, ?_, ?_, ?_, ?_, ?savel, ?restl, ?lsr⟩,
    fun k r v h => age_d1 k h, fun k r v h => age_d2 k h, fun k r v h => age_acc2 k h, fun k r v h => age_acc1 k h,
    fun k h => age_none k h, fun k => ⟨age_p k, age_m k, age_sat k, age_stack k, age_commit k⟩⟩
  case savel => exact fun d l s bk k issues fits => exec_savel issues fits
  case restl => exact fun d l s bk k issues fits => exec_restl issues fits
  case lsr =>
    intro d l s bk k issues
    refine ⟨_, exec_sysReadLsr issues, ?_⟩
    have runs (x : BitVec 16) : decide (x ≠ 0) = (x != 0) := by rw [decide_not]; rfl
    rw [runs, runs]
    exact lsr_bits ((s.ln l.val).loops.lc1 != 0) ((s.ln l.val).loops.lc0 != 0) k.sat bk
  · exact fun acc a b => issued_effAcc _ (fun _ => rfl) fun k => by rw [wordPair_eq]; rfl
  · exact fun acc b => issued_effAcc _ (fun _ => rfl) fun k => clip72_eq _
  · exact fun acc b => issued_effAcc _ (fun _ => rfl) fun k => clip72_eq _
  · exact fun acc sh => issued_effAcc _ (fun _ => rfl) fun k => clip72_eq _
  · exact fun acc => issued_effAcc _ (fun _ => rfl) fun k => rfl
  · exact fun acc a b => issued_effAcc _ (fun _ => rfl) fun k => by rw [wordPair_eq]; exact clip72_eq _
  · exact fun acc a b => issued_effAcc _ (fun _ => rfl) fun k => by rw [wordPair_eq]; exact clip72_eq _
  · exact fun d acc => issued_effD _ fun _ => rfl
  · exact fun d acc => issued_effD _ fun _ => rfl
  · exact fun d acc => issued_effD_eq _ (fun _ => rfl) fun _ => guard_eq _
  · exact fun acc => issued_effAcc _ (fun _ => rfl) fun k => by
      obtain ⟨value, clamps⟩ := satS64_eq (k.aReg acc.val).toInt
      exact Prod.ext (congrArg (BitVec.ofInt 72) value) clamps
  · exact fun d a b => issued_inBank (fun _ => rfl) (fun _ => ⟨⟨rfl, rfl, rfl⟩, rfl, rfl, rfl, rfl⟩) fun k => by
      simp [BankSt.results, effMulD, withDMul]
  · exact issued_inBank (fun _ => rfl) (fun _ => ⟨⟨rfl, rfl, rfl⟩, rfl, rfl, rfl, rfl⟩) results_none
  · exact fun p imm => issued_effP fun _ => rfl
  · exact fun m imm => issued_effM fun _ => rfl
  · exact fun p a => issued_effP fun _ => rfl
  · exact fun p d => issued_effD _ fun _ => rfl
  · exact fun p m => issued_effP fun _ => rfl
  · exact fun m a => issued_effM fun _ => rfl
  · exact fun m d => issued_effD _ fun _ => rfl
  · exact issued_inBank (fun _ => rfl) (fun _ => ⟨⟨rfl, rfl, rfl⟩, rfl, rfl, rfl, rfl⟩) fun k => by simp [BankSt.results]

/-! States at which a lane moves registers. -/

/-- A lane before its first instruction: A1 near its top, D1:D2 the pair -1, loop 0 armed. -/
def registerBank : BankSt :=
  { slot := some 0, acc := [0, 0x7FFFFFFFFFFFFFFFFF, 0, 0], d := [0, 0xFFFFFFFF, 0xFFFFFFFF] ++ List.replicate 13 0 }

/-- ADDA of the largest accumulator to itself clamps and sets SAT; MOVA takes D1:D2 as one number; SAVEL packs the loop registers; LSR shows the
loop that runs. -/
theorem registers_laneAt :
    (∃ t, exec (.adda 0 1 1) (laneAt (.adda 0 1 1) registerBank {}) = .next t ∧
      (t.ln 0).bankF.aReg 1 = 0x7FFFFFFFFFFFFFFFFF ∧ (t.ln 0).bankF.sat = true) ∧
    (∃ t, exec (.mova 0 2 1 2) (laneAt (.mova 0 2 1 2) registerBank {}) = .next t ∧ (t.ln 0).bankF.aReg 2 = -1) ∧
    (∃ t, exec (.savel 0 3) (laneAt (.savel 0 3) registerBank { lc0 := 5, ls0 := 1, le0 := 2 }) = .next t ∧
      (t.ln 0).bankF.dReg 3 = 5 ∧ (t.ln 0).bankF.dReg 4 = 0x00020001) ∧
    (∃ t, exec (.sysReadLsr 0 3) (laneAt (.sysReadLsr 0 3) registerBank { lc0 := 5, ls0 := 1, le0 := 2 }) = .next t ∧
      (t.ln 0).bankF.dReg 3 = 0x100) := by
  obtain ⟨⟨mova, adda, -⟩, ⟨-, -, -, -, -, -, -, -, -, savel, -, -⟩, -⟩ := laneRegisters
  refine ⟨⟨_, adda 1 1 0 _ _ _ (laneAt_issues rfl rfl rfl rfl), ?_⟩, ⟨_, mova 2 1 2 0 _ _ _ (laneAt_issues rfl rfl rfl rfl), ?_⟩,
    ⟨_, savel 3 0 _ _ _ (laneAt_issues rfl rfl rfl rfl) (by decide), ?_⟩, ⟨_, exec_sysReadLsr (laneAt_issues rfl rfl rfl rfl), ?_⟩⟩
  all_goals decide

end Sys2Proof.Machine
end

section
/-!
PROOF. Power-up (R422, R444 to R448, R450, Table 19-1): what the supplies do, and what the completion of each step leaves.
-/
namespace Sys2Proof.Machine

open Sys2Proof.Safety Sys2Proof.Claims

/-! Memory cleared outside the log. -/

theorem mem_of_mapFind {α : Type} {a : Nat} {v : α} : ∀ {m : List (Nat × α)}, mapFind m a = some v → (a, v) ∈ m
  | (k, w) :: m, h => by
    unfold mapFind at h
    split at h
    case isTrue e =>
      cases h
      exact e ▸ List.mem_cons_self
    case isFalse =>
      split at h
      · cases h
      · exact List.mem_cons_of_mem _ (mem_of_mapFind h)

/-- A map filtered by a test on keys holds nothing at a key that fails it. -/
theorem mapFind_filter_none {α : Type} {p : Nat → Bool} {m : List (Nat × α)} {a : Nat} (h : p a = false) :
    mapFind (m.filter fun x => p x.1) a = none := by
  cases found : mapFind (m.filter fun x => p x.1) a with
  | none => rfl
  | some v =>
    obtain ⟨-, kept⟩ := List.mem_filter.mp (mem_of_mapFind found)
    exact absurd kept (by simp [h])

/-- Memory of which only the log is kept reads 0 outside the log. -/
theorem memByte_logOnly {m : List Host.Cell} {a : Nat} (h : isLogWin a = false) : memByte (m.filter fun c => isLogWin c.1) a = 0 := by
  rw [memByte, mapFind_filter_none h]
  simp [memDefault, h]

/-- A change of memory and of its errors. -/
theorem memory_only {s : State} {m : List Host.Cell} {e : List Nat} : Only [.mem, .eccBad] s { s with mem := m, eccBad := e } := by
  intro f hf
  cases f
  case mem | eccBad => simp at hf
  all_goals rfl

/-! The steps. -/

section
variable {s : State}

/-- The first multiple of 12 500 not before t. -/
theorem ceilDiv_grid (t : Nat) : ceilDiv t 12500 * 12500 % 12500 = 0 ∧ t ≤ ceilDiv t 12500 * 12500 ∧ ceilDiv t 12500 * 12500 < t + 12500 := by
  rw [ceilDiv, if_neg (by decide)]
  omega

theorem fabricUp_power : s.fabricUp.power = { s.power with
    phase := .up, removal := decide (s.power.tap = .extest),
    persOn := decide (s.power.config = 1) && (s.power.pers == 1 || s.power.pers == 2) } :=
  State.event_only (fs := [.regs, .trace]) (State.setLv_only (Only.refl _ _) rfl) rfl .power (by decide)

/-- The checks of step 6 passed: memory is cleared outside the log, and the lanes that failed are retired. -/
theorem bootChecks_ok {i : BootInfo} (ok : i.checksOk = true) : s.bootChecks i =
    (forN 8 (fun n s => if i.laneFail.getLsbD n then s.retire 5 n else s)
      { s with mem := s.mem.filter fun c => isLogWin c.1, eccBad := [] }).onPower fun p => { p with phase := .step 7 } := by
  simp [State.bootChecks, ok]

theorem bootChecks_failed {i : BootInfo} (bad : i.checksOk = false) : (s.bootChecks i).power.phase = .stopped := by
  simp [State.bootChecks, bad]

/-- Retiring lanes leaves memory and its errors. -/
theorem retireLanes_only {f : Nat → Bool} : Only [.regs, .stage, .axes, .fbs, .mots, .legs, .lanes, .cans, .dos, .safety, .trace, .log,
    .chans, .timers] s (forN 8 (fun n s => if f n then s.retire 5 n else s) s) :=
  forN_only (fun _ _ h => only_ite (State.retire_only h rfl) h) (Only.refl _ _)

theorem bootScan_phase : s.bootScan.power.phase = .step 8 := rfl

/-- With nothing to load and no personality step 8 chooses no configuration. -/
theorem bootProof_none (auto : s.power.autold = false) (pers : s.power.pers = 0) (config : s.power.config = 0) :
    s.bootProof = s.bootPlain := by
  have image : s.bootProveImage = s := by simp [State.bootProveImage, State.bootAuto, auto]
  have person : s.bootProvePers = s := by simp [State.bootProvePers, pers]
  simp [State.bootProof, image, person, config]

theorem bootPlain_up : s.bootPlain.power.phase = .up := by
  unfold State.bootPlain
  rw [fabricUp_power]

theorem bootProof_phase : s.bootProof.power.phase = .up ∨ s.bootProof.power.phase = .step 9 ∧ s.bootProof.stage.state = .armed := by
  unfold State.bootProof
  dsimp only
  split
  · exact .inl bootPlain_up
  · exact .inr ⟨rfl, rfl⟩

end

theorem bootStrike_up (s : State) : s.bootStrike.up = true ∧ s.bootStrike.power.removal = decide (s.bootStrike.power.tap = .extest) := by
  obtain ⟨t, same⟩ : ∃ t : State, s.bootStrike = t.fabricUp := ⟨_, rfl⟩
  rw [same, State.up, fabricUp_power]
  exact ⟨rfl, rfl⟩

/-- Settles O17: each phase names one branch of `execPowerUpStepComplete`. -/
theorem powerUp : Obligations.PowerUp := by
  refine ⟨⟨fun byVin madr s off => ?on, fun s on => ?rising, fun s => rfl, fun s => rfl, fun s phase vio => ?timeout⟩,
    fun i s phase => ?one, fun i s phase vin => ?two, fun i s phase vin => ?twoWaits, fun i s phase => ?three, fun i s phase => ?four,
    fun i s phase vio => ?five, fun i s phase vio own => ?fiveWaits, fun i s phase ok => ?six, fun i s phase bad => ?sixFails,
    fun i s phase => ?seven, fun i s phase => ?eight, fun i s phase => ?nine⟩
  case on =>
    show execPowerOn byVin madr s = _
    simp [execPowerOn, State.alwaysOn, off, State.onPower]
  case rising =>
    show execVinRising s = _
    simp [execVinRising, State.alwaysOn, on, State.onPower]
  case timeout =>
    show execVioWaitTimeout s = _
    simp [execVioWaitTimeout, phase, vio, State.onPower]
  all_goals
    have run : exec (.powerUpStepComplete i) s = execPowerUpStepComplete i s := rfl
  case two | twoWaits =>
    rcases phase with phase | phase <;> rw [run, execPowerUpStepComplete, phase] <;> simp [vin, State.onPower]
  all_goals rw [execPowerUpStepComplete, phase] at run
  case one => exact run
  case three =>
    exact ⟨_, run, ⟨rfl, rfl, rfl, rfl, rfl, rfl, _, rfl, ceilDiv_grid _⟩,
      State.onPower_only (State.onPower_only (State.onTime_only (Only.refl _ _) rfl) rfl) rfl⟩
  case four =>
    exact ⟨_, run, ⟨rfl, rfl, rfl⟩, State.onPower_only (State.onPdie_only (State.onTime_only (Only.refl _ _) rfl) rfl) rfl⟩
  case five => 
    rw [run]
    rcases vio with vio | vio <;> simp [vio, State.bootStraps, State.onPower]
  case fiveWaits => rw [run]; simp [vio, own]
  case six =>
    rw [bootChecks_ok ok] at run
    have cleared := retireLanes_only (s := { s with mem := s.mem.filter fun c => isLogWin c.1, eccBad := [] })
      (f := fun n => i.laneFail.getLsbD n)
    refine ⟨_, run, rfl, cleared .eccBad (by decide), fun a out => ?_, fun none => ?_⟩
    · exact (byteAt_congr (cleared .mem (by decide)) a).trans (memByte_logOnly out)
    · exact State.onPower_only (forN_only (fun n t h => by simpa [none] using h) (Only.upd (Only.refl _ _) rfl memory_only)) rfl
  case sixFails => exact ⟨_, run, bootChecks_failed bad⟩
  case seven => exact ⟨_, run, bootScan_phase⟩
  case eight =>
    refine ⟨_, run, bootProof_phase, fun auto pers config => ?_⟩
    rw [bootProof_none auto pers config]
    exact bootPlain_up
  case nine => exact ⟨_, run, bootStrike_up s⟩

end Sys2Proof.Machine
end

section
/-!
PROOF. Resets of the core domain, the latched thermal shutdown and the loss of supply (R35, R36, R420, R431, R446, R459, Tables 18-3 and 19-4).
-/
namespace Sys2Proof.Machine

open Sys2Proof.Safety Sys2Proof.Claims

/-! A reset of the core domain. -/

/-- What a reset of the core domain ends before it clears: FABRIC_UP, and a command of the manager. -/
def State.coreEnded (s : State) : State := (if s.up then s.fabricDown else s).complete .manager eState

section
variable {s : State} {source : Nat} {phase : Phase}

theorem coreReset_eq : s.coreReset source phase = s.coreEnded.coreClear.onPower fun p => { p with phase := phase, source := source } := rfl

theorem coreEnded_only : Only [.regs, .host, .mgr, .trace] s s.coreEnded :=
  State.complete_only (only_ite (State.fabricDown_only (Only.refl _ _) rfl) (Only.refl _ _)) rfl

/-- The power state after a reset of the core domain. -/
theorem coreReset_power : (s.coreReset source phase).power = { s.power with
    pers := 0, autold := false, noVio := false, config := 0, autoCode := 0xFF, persCode := 0xFF, persOn := false, persSeq := 0,
    removal := true, phase := phase, source := source } := by
  have power : s.coreEnded.power = s.power := coreEnded_only .power (by decide)
  rw [coreReset_eq, ← power]
  rfl

theorem coreReset_tick : (s.coreReset source phase).time.tick = s.time.tick := by
  have time : s.coreEnded.time = s.time := coreEnded_only .time (by decide)
  rw [coreReset_eq, ← time]
  rfl

theorem coreReset_pending : (s.coreReset source phase).pending = s.pending := coreEnded_only .pending (by decide)

theorem coreReset_hk : (s.coreReset source phase).hk = s.hk.kept := by
  have hk : s.coreEnded.hk = s.hk := coreEnded_only .hk (by decide)
  rw [coreReset_eq, ← hk]
  rfl

theorem coreReset_cfg : (s.coreReset source phase).cfg = s.cfg.filter fun x => pageOf x.1 = pgMgmt := by
  have cfg : s.coreEnded.cfg = s.cfg := coreEnded_only .cfg (by decide)
  rw [coreReset_eq, ← cfg]
  rfl

/-- Every live register but those of MGMT and NVLOG reads as at reset. -/
theorem coreReset_lv {p o : Nat} (ho : o < 4096) (hp : p ≠ pgMgmt) (hq : p ≠ pgNvlog) :
    (s.coreReset source phase).lv p o = regReset p o := by
  have page : pageOf (regAddr p o) = p := by simp only [pageOf, regAddr]; omega
  show (mapFind (keptRegs s.coreEnded.regs) (regAddr p o)).getD _ = _
  rw [keptRegs, mapFind_filter_none (p := fun a => decide (pageOf a = pgMgmt ∨ pageOf a = pgNvlog)) (by simp [page, hp, hq])]
  rfl

theorem coreReset_byteAt (a : Nat) : (s.coreReset source phase).byteAt a =
    if isLogWin a then memByte (s.mem.filter fun x => isLogWin x.1) a else 0 := by
  have mem : s.coreEnded.mem = s.mem := coreEnded_only .mem (by decide)
  show memByte (s.coreEnded.mem.filter fun c => isLogWin c.1) a = _
  rw [mem]
  cases out : isLogWin a with
  | true => rfl
  | false => exact memByte_logOnly out

end

/-- A reset of the core domain restarts power-up, clears what Table 19-4 clears and keeps the rest. -/
theorem coreReset_leaves {s : State} {source : Nat} {phase : Phase} (restarts : phase ≠ .up) : let t := s.coreReset source phase
    t.power.phase = phase ∧ t.power.source = source ∧ t.power.removal = true ∧ t.up = false ∧ t.power.vinOk = s.power.vinOk ∧
      t.time.tick = s.time.tick ∧ t.stg = [] ∧ t.stage = State.reset.stage ∧ t.axes = State.reset.axes ∧ t.legs = State.reset.legs ∧
      t.lanes = State.reset.lanes ∧ t.timers = [] ∧ t.cfg = s.cfg.filter (fun x => pageOf x.1 = pgMgmt) ∧
      (∀ p o, o < 4096 → p ≠ pgMgmt → p ≠ pgNvlog → t.lv p o = regReset p o) ∧
      (∀ a, t.byteAt a = if isLogWin a then memByte (s.mem.filter fun x => isLogWin x.1) a else 0) ∧ t.pending = s.pending := by
  intro t
  have power := coreReset_power (s := s) (source := source) (phase := phase)
  refine ⟨by rw [power], by rw [power], rfl, ?_, by rw [power], coreReset_tick, rfl, rfl, rfl, rfl, rfl, rfl, coreReset_cfg,
    fun p o ho hp hq => coreReset_lv ho hp hq, coreReset_byteAt, coreReset_pending⟩
  rw [State.up, power]
  exact decide_eq_false restarts

/-! The events that reset. -/

theorem restartAt_free {s : State} {source : Nat} (on : s.power.phase ≠ .off) (cool : s.power.thermLatch = false) :
    s.restartAt source = s.coreReset source (.step 2) := by
  simp [State.restartAt, on, cool]

theorem restartAt_latched {s : State} {source : Nat} (hot : s.power.thermLatch = true) : s.restartAt source = s := by
  simp [State.restartAt, hot]

/-! The thermal shutdown. -/

/-- The state that the thermal shutdown resets: the level, the fault, the source and the entry are there. -/
def State.thermalEnded (s : State) : State :=
  let s := (s.setLevel .shutdown).pfault pgMgmt 1
  (if s.up then s.noteSrc srcThermal 16 0 else s).snapHalted.commitThermal

section
variable {s : State}

theorem thermalShutdown_eq (on : s.power.phase ≠ .off) (cool : s.power.thermLatch = false) : s.thermalShutdown =
    (s.thermalEnded.coreReset s.thermalEnded.power.source .latched).onPower fun p => { p with thermLatch := true } := by
  have acts : ¬ (!s.alwaysOn ∨ s.power.thermLatch) := by simp [State.alwaysOn, on, cool]
  rw [State.thermalShutdown, if_neg acts]
  rfl

theorem setLevel_level (l : Level) : (s.setLevel l).hk.level = l := by
  unfold State.setLevel
  dsimp only
  split
  · assumption
  · exact congrArg HkSt.level (State.logAdd_only (fs := [.regs, .trace, .log]) (State.event_only (Only.refl _ _) rfl) rfl .hk (by decide))

theorem thermalEnded_only : Only [.regs, .mem, .eccBad, .axes, .safety, .trace, .hk, .log, .free] s s.thermalEnded :=
  State.commitThermal_only (State.snapHalted_only (only_ite
    (State.noteSrc_only (State.pfault_only (State.setLevel_only (Only.refl _ _) rfl) rfl) rfl)
    (State.pfault_only (State.setLevel_only (Only.refl _ _) rfl) rfl)) rfl) rfl

theorem thermalEnded_level : s.thermalEnded.hk.level = .shutdown := by
  have only : Only [.regs, .mem, .eccBad, .axes, .safety, .trace, .log, .free] (s.setLevel .shutdown) s.thermalEnded :=
    State.commitThermal_only (State.snapHalted_only (only_ite
      (State.noteSrc_only (State.pfault_only (Only.refl _ _) rfl) rfl) (State.pfault_only (Only.refl _ _) rfl)) rfl) rfl
  rw [only .hk (by decide), setLevel_level]

end

/-- Settles O18: each event is `coreReset` with its source and phase, before which only what the event itself notes has changed. -/
theorem resetsAndShutdown : Obligations.ResetsAndShutdown := by
  refine ⟨⟨fun c source phase row s on cool watch vin alive => ?reset, fun c row s hot => ?held⟩, fun s on cool => ?thermal,
    fun s hot => ?hot, fun s => ?off⟩
  case held =>
    rcases row with rfl | rfl
    · exact congrArg Host.Outcome.next (restartAt_latched hot)
    · show execWatchdogReset s = _
      rw [execWatchdogReset, restartAt_latched hot, ite_self]
  case hot =>
    show Host.Outcome.next s.thermalShutdown = _
    simp [State.thermalShutdown, hot]
  case off => exact ⟨_, rfl, rfl, rfl, rfl, rfl, rfl, rfl, rfl, rfl, rfl, rfl, rfl, rfl, rfl, rfl, rfl, fun a out => memByte_logOnly out⟩
  case thermal =>
    have level := congrArg HkSt.level (coreReset_hk (s := s.thermalEnded) (source := s.thermalEnded.power.source) (phase := .latched))
    have tick := coreReset_tick (s := s.thermalEnded) (source := s.thermalEnded.power.source) (phase := .latched)
    have time : s.thermalEnded.time = s.time := thermalEnded_only .time (by decide)
    exact ⟨_, congrArg Host.Outcome.next (thermalShutdown_eq on cool), rfl, rfl, rfl, level.trans thermalEnded_level, rfl, rfl, rfl, rfl,
      tick.trans (congrArg TimeSt.tick time)⟩
  case reset =>
    rcases row with ⟨rfl, rfl, rfl⟩ | ⟨rfl, rfl, rfl⟩ | ⟨rfl, rfl, rfl⟩ | ⟨rfl, rfl, rfl⟩
    case inl =>
      obtain ⟨phase, source, removal, down, -, rest⟩ := coreReset_leaves (s := s) (source := 2) (phase := .step 2) (by decide)
      exact ⟨_, congrArg Host.Outcome.next (restartAt_free on cool), phase, source, removal, down, nofun, rest⟩
    case inr.inl =>
      obtain ⟨phase, source, removal, down, -, rest⟩ := coreReset_leaves (s := s) (source := 3) (phase := .step 2) (by decide)
      refine ⟨_, ?_, phase, source, removal, down, nofun, rest⟩
      show execWatchdogReset s = _
      rw [execWatchdogReset, if_pos (watch rfl), restartAt_free on cool]
    case inr.inr.inl =>
      obtain ⟨phase, source, removal, down, low, rest⟩ :=
        coreReset_leaves (s := s.onPower fun p => { p with vinOk := false }) (source := 1) (phase := .step 2) (by decide)
      refine ⟨_, ?_, phase, source, removal, down, fun _ => low, rest⟩
      show execVinLockout s = _
      rw [execVinLockout, if_neg (by simp [vin rfl])]
      exact congrArg Host.Outcome.next (restartAt_free on cool)
    case inr.inr.inr =>
      obtain ⟨phase, source, removal, down, -, rest⟩ := coreReset_leaves (s := s) (source := s.power.source) (phase := .coreLost) (by decide)
      refine ⟨_, ?_, phase, source, removal, down, nofun, rest⟩
      show execCoreSupplyLoss s = _
      rw [execCoreSupplyLoss, if_pos (alive rfl)]

end Sys2Proof.Machine
end


section

/-! PROOF. The test access port and the reference monitor (R15, R477). -/

namespace Sys2Proof.Machine

open Sys2Proof.Safety Sys2Proof.Claims

section

variable {s : State} {i : TapInstr}

theorem tapLoad_plain (h : s.power.tap ≠ .extest) : s.tapLoad i = { s with power := { s.power with tap := i } } := by
  simp [State.tapLoad, h, State.onPower]

theorem tapLoad_extest : s.tapLoad .extest = { s with power := { s.power with tap := .extest } } := by
  simp [State.tapLoad, State.onPower]

/-- Leaving EXTEST is a reset of the core domain with SOURCE = RST_N. -/
theorem tapLoad_leaves (on : s.power.phase ≠ .off) (cool : s.power.thermLatch = false) (tap : s.power.tap = .extest) (other : i ≠ .extest) :
    (s.tapLoad i).power.tap = i ∧ (s.tapLoad i).power.phase = .step 2 ∧ (s.tapLoad i).power.source = 2 ∧
      (s.tapLoad i).axes = State.reset.axes ∧ (s.tapLoad i).stage = State.reset.stage := by
  have load : s.tapLoad i = (s.coreReset 2 (.step 2)).onPower fun p => { p with tap := i } := by
    rw [State.tapLoad, if_pos ⟨tap, other⟩, restartAt_free on cool]
  obtain ⟨phase, source, -⟩ := coreReset_leaves (s := s) (source := 2) (phase := .step 2) (by decide)
  rw [load]
  exact ⟨rfl, phase, source, rfl, rfl⟩

/-- Every leg's switches turned off. -/
def allOff (s : State) : State := forN 32 (fun l s => s.legOff l) s

theorem allOff_only {fs : List Part} {s0 : State} (h : Only fs s0 s) (sub : In [.legs] fs) : Only fs s0 (allOff s) :=
  forN_only (fun _ _ h => State.legOff_only h sub) h

theorem allOff_off (legs : s.legs.length = 32) {l : Nat} (low : l < 32) : LegIsOff (allOff s) l := forN_legOff low (legs ▸ low)

theorem scanBalls_legs : s.scanBalls.legs = s.legs := rfl

theorem allOff_scan : (allOff s).scanBalls.power = { s.power with tdo := Config.freeWord s.free } ∧ (allOff s).scanBalls.free = s.free + 1 := by
  have only := allOff_only (Only.refl [.legs] s) rfl
  have power : (allOff s).power = s.power := only .power (by decide)
  have free : (allOff s).free = s.free := only .free (by decide)
  generalize allOff s = t at power free
  rw [← power, ← free]
  exact ⟨rfl, rfl⟩

/-- What the reference monitor shows at once. -/
def refLost (s : State) : State :=
  (s.onTime fun t => { t with refOk := false, pllLock := false, holdover := true }).onHk fun h => { h with rcTimed := true }

theorem alwaysOn_of (on : s.power.phase ≠ .off) : s.alwaysOn = true := by simp [State.alwaysOn, on]

end

/-- Settles O19. -/
theorem testPortAndReference : Obligations.TestPortAndReference := by
  refine ⟨⟨fun s on tap => ?plain, fun s on legs => ?extest, fun c i row s on tap cool => ?leave⟩,
    fun s ok up legs => ?lost, fun s hold => if_pos hold, fun s hold ok => ?relock, fun s d due => ?ramp⟩
  case plain =>
    have live := alwaysOn_of on
    refine ⟨?_, ?_, ?_, ?_⟩
    · show execTapReset s = _
      rw [execTapReset, if_pos live, tapLoad_plain tap]
    · show execIdcode s = _
      rw [execIdcode, if_pos live, tapLoad_plain tap]; rfl
    · show execBypass s = _
      rw [execBypass, if_pos live, tapLoad_plain tap]; rfl
    · show execSamplePreload s = _
      rw [execSamplePreload, if_pos live, tapLoad_plain tap]; rfl
  case extest =>
    have load : (s.tapLoad .extest).onPower (fun p => { p with removal := true }) =
        s.onPower fun p => { p with tap := .extest, removal := true } := by rw [tapLoad_extest]; rfl
    have run : exec .extest s = .next (allOff (s.onPower fun p => { p with tap := .extest, removal := true })).scanBalls := by
      show execExtest s = _
      rw [execExtest, if_pos (alwaysOn_of on), load]; rfl
    obtain ⟨power, free⟩ := allOff_scan (s := s.onPower fun p => { p with tap := .extest, removal := true })
    refine ⟨_, run, ⟨congrArg PowerSt.tap power, congrArg PowerSt.removal power, congrArg PowerSt.tdo power, free, fun l low => ?_⟩, ?_⟩
    · exact legIsOff_congr (allOff_off legs (by omega)) scanBalls_legs
    · exact State.scanBalls_only (allOff_only (State.onPower_only (Only.refl _ _) rfl) rfl) rfl
  case leave =>
    rcases row with ⟨rfl, rfl⟩ | ⟨rfl, rfl⟩ | ⟨rfl, rfl⟩ | ⟨rfl, rfl⟩
    · exact ⟨_, if_pos (alwaysOn_of on), tapLoad_leaves (i := .idcode) on cool tap nofun⟩
    · exact ⟨_, if_pos (alwaysOn_of on), tapLoad_leaves (i := .idcode) on cool tap nofun⟩
    · exact ⟨_, if_pos (alwaysOn_of on), tapLoad_leaves (i := .bypass) on cool tap nofun⟩
    · exact ⟨_, if_pos (alwaysOn_of on), tapLoad_leaves (i := .samplePreload) on cool tap nofun⟩
  case lost =>
    have run : exec .timeRefLost s = .next ((allOff (refLost s)).raiseNow srcTimeRef 16) := by
      show execTimeRefLost s = _
      rw [execTimeRefLost, if_neg (by simp [ok])]
      have live : (!(refLost s).up) = false := by rw [show (refLost s).up = true from up]; rfl
      exact if_neg (Bool.eq_false_iff.mp live)
    refine ⟨_, run, ⟨?_, fun l low => raiseNow_legOff (allOff_off legs low), raiseNow_on⟩, onlyN_get (execTimeRefLost_only (Only.refl _ s) rfl) run⟩
    exact State.raiseNow_only (allOff_only (Only.refl [.regs, .axes, .mots, .legs, .safety, .trace, .log, .timers] _) rfl) rfl .time (by decide)
  case relock =>
    have run : exec .pllRelock s = .next ((s.onTime fun t => { t with pllLock := true, holdover := false }).clearSrc srcTimeRef 16) := by
      show execPllRelock s = _
      rw [execPllRelock, if_pos (by simp [hold, ok])]
    refine ⟨_, run, ⟨?_, clearSrc_off, fun src a ne => clearSrc_ne ne⟩, State.clearSrc_only (State.onTime_only (Only.refl _ _) rfl) rfl⟩
    exact State.clearSrc_only (fs := [.safety]) (Only.refl _ _) rfl .time (by decide)
  case ramp =>
    refine ⟨_, congrArg Host.Outcome.next (State.expire_due due), ⟨rfl, rfl, ?_, ?_⟩, ?_⟩
    · exact State.due_stopT_same (s := s.reach d)
    · rfl
    · exact State.onSched_only (State.stopT_only (State.reach_only (Only.refl _ _) rfl) rfl) rfl

end Sys2Proof.Machine
end


section

/-! PROOF. The boundary of a frame, the publication of the sample set and the commit cut-off (R16 to R23, Table 1-1). -/

namespace Sys2Proof.Machine

open Sys2Proof.Safety Sys2Proof.Claims

/-- What every turn of a unit's update keeps of a unit, the update keeps. -/
theorem getD_modify_keeps {α : Type} {P : α → Prop} {l : List α} {i j : Nat} {f : α → α} {d : α} (k : ∀ x, P x → P (f x))
    (h : P (l.getD j d)) : P ((l.modify i f).getD j d) := by
  rw [@modify_getD α ⟨d⟩ l i j f d]
  split
  · exact k _ h
  · exact h

section

variable {s t : State} {fs : List Part}

/-- The registers of the frame itself (R22) and the phase of power-up. -/
def frameClock (s : State) : (Nat × Nat × Nat × Bool × Option Nat × Nat) × Bool × Bool × Bool × Phase :=
  ((s.time.tick, s.time.frameStart, s.time.curLen, s.time.grid, s.time.b0, s.time.frameCount),
    s.time.published, s.time.passed, s.time.cut, s.power.phase)

theorem frameClock_only (h : Only fs s t) (ht : .time ∉ fs) (hp : .power ∉ fs) : frameClock t = frameClock s := by
  have time : t.time = s.time := h .time ht
  have power : t.power = s.power := h .power hp
  simp [frameClock, time, power]

theorem frameClock_lead {n : Nat} : frameClock (s.onTime fun t => { t with lead := n }) = frameClock s := rfl

theorem frameClock_nextLen {n : Nat} {l : HkSt} :
    frameClock ({ s with time := { s.time with nextLen := n }, hk := l }) = frameClock s := rfl

theorem setNt_frameClock {x : NtState} : frameClock (s.setNt x) = frameClock s := by
  have rest : Only [.regs, .stage, .axes, .safety, .trace, .log] (s.onTime fun t => { t with nt := x }) (s.setNt x) := by
    unfold State.setNt
    exact only_ite (State.cancelStrikeAt_only (State.raise_only (Only.refl _ _) rfl) rfl)
      (only_ite (State.clearSrc_only (Only.refl _ _) rfl) (Only.refl _ _))
  exact .trans (frameClock_only rest (by decide) (by decide)) rfl

theorem ntRoleBoundary_frameClock : frameClock s.ntRoleBoundary = frameClock s := by
  unfold State.ntRoleBoundary
  split
  · split
    · rfl
    · exact setNt_frameClock
  · split
    · exact setNt_frameClock
    · rfl

theorem newConfig_frameClock : frameClock s.newConfig = frameClock s := by
  unfold State.newConfig
  extract_lets lead kTi role lanes safe lost
  have lead_ : frameClock lead = frameClock s := frameClock_lead
  have kTi_ : Only [.drives] lead kTi := forN_only (fun _ _ h => State.onDr_only h rfl) (Only.refl _ _)
  have role_ : frameClock role = frameClock s := by
    have armed : Only [.drives, .lanes, .timers] lead kTi.setPlans.setLaneStates.stArm :=
      State.stArm_only (State.setLaneStates_only (State.setPlans_only (Only.upd (Only.refl _ _) rfl kTi_) rfl) rfl) rfl
    exact ntRoleBoundary_frameClock.trans ((frameClock_only armed (by decide) (by decide)).trans lead_)
  clear_value role
  have rest : Only [.regs, .lanes, .safety] role (forN 16 (fun a s => if lost a then s else s.clearSrc srcTaskLost a) safe) :=
    forN_only (fun _ _ h => only_ite h (State.clearSrc_only h rfl))
      (State.onSafe_only (forN_only (fun _ _ h => State.onLn_only h rfl) (Only.refl _ _)) rfl)
  exact (frameClock_only rest (by decide) (by decide)).trans role_

/-- What a strike changes before the new configuration's consequences. -/
def strikeParts : List Part :=
  [.regs, .cfg, .stg, .mem, .eccBad, .stage, .axes, .ctxs, .fbs, .legs, .lanes, .ropes, .shares, .chop, .dma, .cans, .dis, .dos, .safety,
    .trace, .log, .chans, .timers, .reps]

theorem strike_frameClock : frameClock s.strike = frameClock s := by
  unfold State.strike
  extract_lets changed owner readmits wasCtx oldLegs oldLegMode oldFbMode applied readmitted io ctx ready freed
  have applied_ : Only strikeParts s applied := State.applyStage_only (State.dmaStrikeStop_only (Only.refl _ _) rfl) rfl
  have readmitted_ : Only strikeParts s readmitted := forL_only (fun _ _ h => State.readmit_only h rfl) applied_
  have io_ : Only strikeParts s io := State.strikeIo_only readmitted_ rfl
  have ctx_ : Only strikeParts s ctx := State.ctxStrike_only io_ rfl
  have legs : frameClock (ctx.strikeLegs changed oldLegs oldLegMode) = frameClock s :=
    frameClock_only (State.strikeLegs_only ctx_ rfl) (by decide) (by decide)
  have new : frameClock ready = frameClock s := newConfig_frameClock.trans legs
  have free : frameClock freed = frameClock s :=
    .trans (frameClock_only (fs := [.axes]) (only_ite (Only.refl _ _)
      (forN_only (fun _ _ h => only_ite (State.onAx_only h rfl) h) (Only.refl _ _))) (by decide) (by decide)) new
  clear_value freed
  split
  · exact .trans (frameClock_only (s := freed.onPower fun p => { p with persOn := false }) (fs := [.regs])
      (State.onLv_only (Only.refl _ _) rfl) (by decide) (by decide)) free
  · exact free

theorem frameClock_ite {a b : State} {c : Prop} [Decidable c] (ha : frameClock a = frameClock s) (hb : frameClock b = frameClock s) :
    frameClock (if c then a else b) = frameClock s := by
  split
  · exact ha
  · exact hb

theorem setPers_frameClock {n : Nat} : frameClock (s.setPers n) = frameClock s := rfl

theorem persAxis_frameClock {code next : Nat} : frameClock (s.persAxis code next) = frameClock s :=
  frameClock_ite rfl (setPers_frameClock.trans (frameClock_only (fs := [.regs, .axes, .drives, .timers])
    (State.axResult_only (State.axEffect_only (Only.refl _ _) rfl) rfl) (by decide) (by decide)))

theorem persMot_frameClock {code next : Nat} : frameClock (s.persMot code next) = frameClock s := frameClock_ite rfl rfl

/-- The personality logic moves its sequence and nothing of the frame. -/
theorem persAct_frameClock : frameClock s.persAct = frameClock s := by
  have pers {n : Nat} := setPers_frameClock (s := s) (n := n)
  have axis {code next : Nat} := persAxis_frameClock (s := s) (code := code) (next := next)
  have mot {code next : Nat} := persMot_frameClock (s := s) (code := code) (next := next)
  unfold State.persAct
  extract_lets p1 x on seq
  refine frameClock_ite pers (frameClock_ite ?idle (frameClock_ite ?enable (frameClock_ite ?ready (frameClock_ite ?run
    (frameClock_ite ?move (frameClock_ite ?stop ?leave))))))
  case idle => exact frameClock_ite (frameClock_ite pers pers) rfl
  case enable => exact frameClock_ite pers axis
  case ready => exact frameClock_ite (frameClock_ite axis pers) (frameClock_ite axis pers)
  case run => exact frameClock_ite (frameClock_ite mot mot) (frameClock_ite rfl pers)
  case move => exact frameClock_ite pers (frameClock_ite rfl mot)
  case stop => exact frameClock_ite pers (frameClock_ite axis rfl)
  case leave => exact frameClock_ite (frameClock_ite axis pers) (frameClock_ite rfl pers)

theorem persRun_frameClock : frameClock s.persRun = frameClock s :=
  frameClock_ite (persAct_frameClock.trans (persAct_frameClock.trans persAct_frameClock)) rfl

theorem frameApply_frameClock {len : Nat} : frameClock (s.frameApply len) = frameClock s := by
  unfold State.frameApply
  extract_lets point image long level
  have image_ : frameClock image = frameClock s :=
    .trans (frameClock_only (fs := [.stage, .log]) (State.takeImage_only (Only.refl _ _) rfl) (by decide) (by decide))
      (frameClock_ite strike_frameClock rfl)
  clear_value image
  have level_ : frameClock level = frameClock image := frameClock_nextLen
  clear_value level
  have rest : Only [.regs, .axes, .mots, .lanes, .rescue, .safety, .trace, .log, .timers, .sched] level
      (level.powerBoundary.accountBoundary len point) := State.accountBoundary_only (State.powerBoundary_only (Only.refl _ _) rfl) rfl
  exact (frameClock_only rest (by decide) (by decide)).trans (level_.trans image_)

/-- The level in force from the boundary on is the level reached before it (R428). -/
theorem frameApply_inForce {len : Nat} : (s.frameApply len).hk.inForce = s.hk.level := by
  unfold State.frameApply
  extract_lets point image long level
  have image_ : image.hk = s.hk := State.takeImage_only (only_ite (State.strike_only (Only.refl [.regs, .cfg, .stg, .mem, .eccBad, .power,
    .time, .stage, .axes, .drives, .ctxs, .fbs, .legs, .lanes, .ropes, .shares, .chop, .dma, .cans, .dis, .dos, .safety, .trace, .log,
    .chans, .timers, .reps] s) rfl) (Only.refl _ _)) rfl .hk (by decide)
  clear_value image
  have level_ : level.hk.inForce = image.hk.level := rfl
  clear_value level
  have rest : (level.powerBoundary.accountBoundary len point).hk = level.hk :=
    State.accountBoundary_only (State.powerBoundary_only (Only.refl [.regs, .axes, .mots, .lanes, .rescue, .safety, .trace, .log, .timers,
      .sched] _) rfl) rfl .hk (by decide)
  rw [rest, level_, image_]

theorem frameApply_executed {len : Nat} : (s.frameApply len).sched.executed = 0 := rfl

theorem frameLatch_clock {was : Nat → Bool} : frameClock (s.frameLatch was) = frameClock s :=
  frameClock_only (fs := [.regs, .mem, .eccBad, .axes, .drives, .ctxs, .fbs, .mots, .cmps, .latches, .groups, .legs, .safety, .trace, .hk,
    .log, .timers, .samples, .reps]) (State.frameLatch_only (Only.refl _ _) rfl) (by decide) (by decide)

theorem frameLatch_level {was : Nat → Bool} : (s.frameLatch was).hk.level = s.hk.level := by
  unfold State.frameLatch
  extract_lets legs divided trimmed reps
  have legs_ : Only [.legs] s legs := forN_only (fun _ _ h => State.onLg_only h rfl) (Only.refl _ _)
  have legs_hk : legs.hk = s.hk := legs_ .hk (by decide)
  clear_value legs
  have divided_ : divided.trimBoundary.hk.level = s.hk.level := .trans (b := legs.hk.level) rfl (congrArg HkSt.level legs_hk)
  have rest : Only [.regs, .mem, .eccBad, .axes, .drives, .ctxs, .fbs, .mots, .cmps, .latches, .groups, .legs, .safety, .trace,
      .log, .timers, .samples, .reps] divided.trimBoundary
      (forN 4 (fun g s => s.groupBoundary g) (forN 16 (fun a s => s.motBoundary a (was a)) reps)) :=
    forN_only (fun _ _ h => State.groupBoundary_only h rfl) (forN_only (fun _ _ h => State.motBoundary_only h rfl)
      (forN_only (fun _ _ h => State.repBoundary_only h rfl) (forN_only (fun _ _ h => State.fbBoundary_only h rfl)
        (State.adcBoundary_only (State.ctxBoundary_only (Only.refl _ _) rfl) rfl))))
  exact (congrArg HkSt.level (rest .hk (by decide))).trans divided_

/-- What the axes, the safety functions and the legs change at a boundary. -/
def axesParts : List Part :=
  [.regs, .axes, .drives, .mots, .cmps, .latches, .legs, .rescue, .chop, .field, .safety, .trace, .log, .chans, .timers, .free]

theorem frameAxes_frameClock {len : Nat} {was : Nat → Bool} : frameClock (s.frameAxes len was) = frameClock s := by
  unfold State.frameAxes
  extract_lets axes rescue moved legs
  have axes_ : Only axesParts s axes := forN_only (fun _ _ h => State.axisBoundary_only h rfl) (State.mainsBoundary_only (Only.refl _ _) rfl)
  have rescue_ : Only axesParts s rescue := State.rescueBoundary_only (forN_only (fun _ _ h => State.ladderBoundary_only h rfl)
    (State.shedBoundary_only axes_ rfl)) rfl
  have moved_ : Only axesParts s moved := forN_only (fun _ _ h => only_ite (State.motBoundary_only h rfl) h) rescue_
  have legs_ : Only axesParts s legs := forN_only (fun _ _ h => State.legBoundary_only h rfl) (State.chopBoundary_only moved_ rfl)
  exact persRun_frameClock.trans (frameClock_only (State.judgeFlt_only legs_ rfl) (by decide) (by decide))

/-- With the fabric up the frame opens, and nothing that follows within the boundary changes its registers. -/
theorem boundaryAt_up {b : Nat} (up : s.up = true) : frameClock (s.boundaryAt b) = frameClock (s.frameOpen b) ∧
    (s.boundaryAt b).hk.inForce = s.hk.level ∧ (s.boundaryAt b).sched.executed = 0 := by
  unfold State.boundaryAt
  extract_lets len was opened
  have on : opened.up = true := up
  rw [if_neg (show ¬(!opened.up) = true by simp [on])]
  have level : opened.hk = s.hk := rfl
  have opened_ : frameClock opened = frameClock (s.frameOpen b) := rfl
  clear_value opened
  have last := State.enterCommit_only (State.frameAxes_only (Only.refl [.regs, .power, .axes, .drives, .mots, .cmps, .latches, .legs, .rescue,
    .chop, .field, .safety, .trace, .log, .chans, .timers, .free, .stage] ((opened.frameLatch was).frameApply len)) rfl (prevLen := len)
    (was := was)) rfl
  have hk : _ = ((opened.frameLatch was).frameApply len).hk := last .hk (by decide)
  have sched : _ = ((opened.frameLatch was).frameApply len).sched := last .sched (by decide)
  refine ⟨?_, ?_, ?_⟩
  · have entered := frameClock_only (State.enterCommit_only (Only.refl [.regs, .stage, .trace]
      (((opened.frameLatch was).frameApply len).frameAxes len was)) rfl) (by decide) (by decide)
    exact entered.trans (frameAxes_frameClock.trans (frameApply_frameClock.trans (frameLatch_clock.trans opened_)))
  · exact (congrArg HkSt.inForce hk).trans (frameApply_inForce.trans (frameLatch_level.trans (congrArg HkSt.level level)))
  · exact (congrArg SchedSt.executed sched).trans frameApply_executed

end

/-! Publication: the axes' commands, and no work missed yet. -/

section

variable {s t : State} {n a : Nat}

/-- A drive works with the live command registers of axis a in s (R118). -/
def CommandsRead (s : State) (a : Nat) (x : DriveSt) : Prop :=
  x.torqueCmd = (s.lv (pgAxis a) AXIS.TORQUE_CMD).toInt ∧ x.idCmd = (s.lv (pgAxis a) AXIS.ID_CMD).toInt ∧
    x.tLim = (s.lv (pgAxis a) AXIS.T_LIM).toInt ∧ x.speedLim = (s.lv (pgAxis a) AXIS.SPEED_LIM).toInt

theorem readCommands_reads (drives : s.drives.length = 8) (low : a < 8) : CommandsRead s a (s.readCommands.dr a) := by
  unfold State.readCommands forN
  refine (forL_reaches (I := fun t => t.regs = s.regs ∧ t.drives.length = 8) (P := fun t => t.regs = s.regs ∧ CommandsRead s a (t.dr a))
    (List.mem_range.mpr low) ?inv ?reach ?keep ⟨rfl, drives⟩).2
  case inv =>
    rintro j t ⟨regs, len⟩
    exact ⟨regs, (List.length_modify ..).trans len⟩
  case reach =>
    rintro t ⟨regs, len⟩
    refine ⟨regs, ?_⟩
    simp [CommandsRead, State.dr, State.onDr, len, low, State.lv, regs, List.getD_eq_getElem?_getD]
  case keep =>
    rintro j t ⟨regs, read⟩
    refine ⟨regs, ?_⟩
    rcases eq_or_ne j a with rfl | ne
    · exact getD_modify_keeps (P := CommandsRead s j) (fun x _ => by simp [CommandsRead, State.lv, regs]) read
    · rw [State.dr, State.onDr, getD_modify_ne ne]
      exact read

theorem commandsRead_reach {b : Nat} {x : DriveSt} (h : CommandsRead (s.reach b) a x) : CommandsRead s a x := h

theorem dr_only {fs : List Part} (h : Only fs s t) (out : .drives ∉ fs) : t.dr a = s.dr a := by
  rw [State.dr, show t.drives = s.drives from h .drives out]; rfl

theorem ln_congr (e : t.lanes = s.lanes) : t.ln n = s.ln n := by rw [State.ln, e]; rfl

theorem onLn_keeps {P : LaneSt → Prop} {j : Nat} {f : LaneSt → LaneSt} (k : ∀ x, P x → P (f x)) (h : P (s.ln n)) :
    P ((s.onLn j f).ln n) := getD_modify_keeps k h

theorem ln_only {fs : List Part} (h : Only fs s t) (out : .lanes ∉ fs) : t.ln n = s.ln n := ln_congr (h .lanes out)

/-- At the release a lane's missed work is cleared, whatever it releases. -/
theorem releaseAll_missed (whole : Whole s) (low : n < 8) : (s.releaseAll.ln n).missed = [] := by
  have taken : Kept s (forN 8 (fun g s => s.takeRelease g) s) := forN_kept (fun _ _ h => State.takeRelease_kept h) (Kept.refl s)
  unfold State.releaseAll
  extract_lets s'
  refine forL_reaches (I := Kept s) (P := fun t => (t.ln n).missed = []) (List.mem_range.mpr low) ?inv ?reach ?keep taken
  case inv => exact fun j t h => kept_ite (State.onLn_kept h) (State.onLn_kept (State.laneRestart_kept h))
  case reach =>
    intro t h
    have len {u : State} (k : Kept s u) : n < u.lanes.length := by rw [lanes_length (k.whole whole)]; exact low
    split
    · rw [State.ln_onLn_same (len h)]
    · rw [State.ln_onLn_same (len (State.laneRestart_kept h))]
  case keep =>
    intro j t h
    split
    · exact onLn_keeps (P := fun x => x.missed = []) (fun _ _ => rfl) h
    · exact onLn_keeps (P := fun x => x.missed = []) (fun _ _ => rfl) (onLn_keeps (P := fun x => x.missed = []) (fun _ h => h) h)

end

/-! Cut-off: no lane has work of the frame left. -/

section

variable {s : State} {n j cls idx : Nat}

/-- A property of a lane that only its released work and its used instructions decide. -/
def OfWork (P : LaneSt → Prop) : Prop := ∀ x y : LaneSt, y.ready = x.ready → y.missed = x.missed → y.used = x.used → P x → P y

theorem ofWork_clear : OfWork fun x => x.ready = [] ∧ x.missed = [] :=
  fun _ _ ready missed _ ⟨r, m⟩ => ⟨ready.trans r, missed.trans m⟩

theorem ofWork_done : OfWork fun x => x.ready = [] ∧ x.missed = [] ∧ x.used = 0 :=
  fun _ _ ready missed used ⟨r, m, u⟩ => ⟨ready.trans r, missed.trans m, used.trans u⟩

variable {P : LaneSt → Prop} (work : OfWork P)
include work

theorem onLn_work {f : LaneSt → LaneSt} (k : ∀ x, (f x).ready = x.ready ∧ (f x).missed = x.missed ∧ (f x).used = x.used)
    (h : P (s.ln n)) : P ((s.onLn j f).ln n) :=
  onLn_keeps (fun x => work x (f x) (k x).1 (k x).2.1 (k x).2.2) h

theorem stopLane_work (h : P (s.ln n)) : P ((s.stopLane j).ln n) := by
  unfold State.stopLane
  extract_lets l stopped lost
  have stopped_ : P (stopped.ln n) := onLn_work work (fun _ => ⟨rfl, rfl, rfl⟩) h
  have lost_ : P (lost.ln n) := by
    rw [ln_only (forL_only (fs := [.regs, .axes, .mots, .legs, .safety, .trace, .log, .timers]) (fun _ _ h => State.loseLane_only h rfl)
      (State.pfault_only (Only.refl _ stopped) rfl)) (by decide)]
    exact stopped_
  split
  · exact onLn_work work (fun _ => ⟨rfl, rfl, rfl⟩) (onLn_work work (fun _ => ⟨rfl, rfl, rfl⟩) lost_)
  · rw [ln_only (State.startReproof_only (State.loseLane_only (Only.refl [.regs, .axes, .mots, .legs, .safety, .trace, .log, .timers,
      .stage] lost) rfl) rfl) (by decide)]
    exact lost_

theorem retire_work (h : P (s.ln n)) : P ((s.retire 5 idx).ln n) := by
  unfold State.retire
  split
  · exact h
  · refine stopLane_work work ?_
    rw [ln_only (State.voidProof_only (State.logAdd_only (State.onChan_only (Only.refl [.stage, .regs, .chans, .trace, .log] s) rfl) rfl) rfl)
      (by decide)]
    exact h

theorem laneFault_work {bit : Nat} {w : Option Work} (h : P (s.ln n)) : P ((s.laneFault j bit w).ln n) := by
  have onset_ (t : State) (h : P (t.ln n)) : P ((t.onset 5 j).ln n) := by
    unfold State.onset State.onsetWith
    split
    · exact h
    · extract_lets ons counted till
      split
      · exact retire_work work h
      · exact h
  unfold State.laneFault
  extract_lets shown
  split
  · exact h
  · refine onLn_work work (fun _ => ⟨rfl, rfl, rfl⟩) ?_
    rw [ln_only (State.backInService_only (Only.refl [.chans] _) rfl) (by decide)]
    exact onset_ _ h

theorem missWork_work {w : Work} (h : P (s.ln n)) : P ((s.missWork j w).ln n) := by
  unfold State.missWork
  refine laneFault_work work ?_
  rw [ln_only (State.inc16_only (forL_only (fs := [.drives, .regs]) (fun _ _ h => State.repeatPattern_only h rfl) (Only.refl _ s)) rfl)
    (by decide)]
  exact h

end

section

variable {s : State} {n j : Nat}

/-- A lane whose work is done or dropped, with the next frame's instructions uncounted. -/
def LaneDone (x : LaneSt) : Prop := x.ready = [] ∧ x.missed = [] ∧ x.used = 0

theorem cutLane_keeps (h : LaneDone (s.ln n)) : LaneDone ((s.cutLane j).ln n) := by
  unfold State.cutLane
  extract_lets x work dropped missed most used
  have dropped_ : LaneDone (dropped.ln n) := onLn_keeps (fun _ ⟨_, _, used⟩ => ⟨rfl, rfl, used⟩) h
  have missed_ : LaneDone (missed.ln n) := forL_ind (P := fun t => LaneDone (t.ln n)) (fun _ _ h => missWork_work ofWork_done h) work dropped_
  refine onLn_keeps (fun _ ⟨ready, missed, _⟩ => ⟨ready, missed, rfl⟩) ?_
  rw [ln_only (only_ite (State.setLv_only (Only.refl [.regs] missed) rfl) (Only.refl _ _)) (by decide)]
  exact missed_

theorem cutLane_done (whole : Whole s) (low : n < 8) : LaneDone ((s.cutLane n).ln n) := by
  unfold State.cutLane
  extract_lets x work dropped missed most used
  have kept : Kept s used := kept_ite (State.setLv_kept (forL_kept (fun _ _ h => State.missWork_kept h) (State.onLn_kept (Kept.refl s))))
    (forL_kept (fun _ _ h => State.missWork_kept h) (State.onLn_kept (Kept.refl s)))
  have clear : (used.ln n).ready = [] ∧ (used.ln n).missed = [] := by
    rw [ln_only (only_ite (State.setLv_only (Only.refl [.regs] missed) rfl) (Only.refl _ _)) (by decide)]
    refine forL_ind (P := fun t => (t.ln n).ready = [] ∧ (t.ln n).missed = []) (fun _ _ h => missWork_work ofWork_clear h) work ?_
    rw [State.ln_onLn_same (by rw [lanes_length whole]; exact low)]
    exact ⟨rfl, rfl⟩
  rw [State.ln_onLn_same (by rw [lanes_length (kept.whole whole)]; exact low)]
  exact ⟨clear.1, clear.2, rfl⟩

theorem cutAll_done (whole : Whole s) (low : n < 8) : LaneDone (s.cutAll.ln n) := by
  unfold State.cutAll
  extract_lets axes cut
  have cut_ : LaneDone (cut.ln n) := forL_reaches (I := Kept s) (P := fun t => LaneDone (t.ln n)) (List.mem_range.mpr low)
    (fun _ _ h => State.cutLane_kept h) (fun t h => cutLane_done (h.whole whole) low) (fun _ _ h => cutLane_keeps h) (Kept.refl s)
  rw [ln_only (forN_only (fs := [.regs, .axes, .safety, .trace, .log]) (fun _ _ h => only_ite (only_ite (State.raise_only (State.onAx_only h rfl)
    rfl) (State.onAx_only h rfl)) (State.clearSrc_only (State.onAx_only h rfl) rfl)) (Only.refl _ cut)) (by decide)]
  exact cut_

theorem stArm_turn (j : Nat) (t : State) (h : LaneDone (t.ln n)) :
    LaneDone ((if (t.ln j).state = .active then if (t.due (.selftest j)).isSome then t else t.stPeriod j t.now
      else t.stopT (.selftest j)).ln n) := by
  split
  · split
    · exact h
    · unfold State.stPeriod
      extract_lets started
      rw [ln_only (only_ite (State.startT_only (Only.refl [.timers] started) rfl) (State.stopT_only (Only.refl _ _) rfl)) (by decide)]
      exact onLn_work ofWork_done (fun _ => ⟨rfl, rfl, rfl⟩) h
  · exact h

/-- What follows the cut-off in a takeover frame leaves what the lanes have done. -/
theorem takeCut_keeps (h : LaneDone (s.ln n)) : LaneDone (s.takeCut.ln n) := by
  unfold State.takeCut
  split
  · have event : LaneDone ((s.event pgSched 2).ln n) := by
      rw [ln_only (State.event_only (Only.refl [.regs, .trace] s) rfl) (by decide)]
      exact h
    have states : LaneDone ((s.event pgSched 2).setLaneStates.ln n) :=
      forN_ind (P := fun t => LaneDone (t.ln n)) (fun _ _ h => onLn_work ofWork_done (fun _ => ⟨rfl, rfl, rfl⟩) h) event
    have armed : LaneDone ((s.event pgSched 2).setLaneStates.stArm.ln n) := forN_ind (P := fun t => LaneDone (t.ln n)) stArm_turn states
    rw [ln_only (State.startReproof_only (State.onStage_only (Only.refl [.stage] _) rfl) rfl) (by decide)]
    exact armed
  · exact h

end

/-- Settles O20. -/
theorem frames : Obligations.Frames := by
  refine ⟨⟨fun s b due down => ?early, fun s b due up => ?boundary, fun s none => ?idle⟩, fun s whole up grid fresh => ?publish,
    fun s up grid fresh => ?pass, fun s whole up out fresh => ?cutoff⟩
  case early =>
    show execFrameBoundary s = _
    rw [execFrameBoundary, due]
    refine congrArg Host.Outcome.next ?_
    unfold State.boundaryAt
    extract_lets len was opened
    have off : opened.up = false := down
    rw [if_pos (show (!opened.up) = true by simp [off])]
    rfl
  case idle =>
    show execFrameBoundary s = _
    rw [execFrameBoundary, none]
  case boundary =>
    have run : exec .frameBoundary s = .next (s.boundaryAt b) := by
      show execFrameBoundary s = _
      rw [execFrameBoundary, due]
    obtain ⟨clock, inForce, executed⟩ := boundaryAt_up (s := s) (b := b) up
    simp only [frameClock, Prod.mk.injEq] at clock
    obtain ⟨⟨tick, start, len, grid, b0, count⟩, published, passed, cut, phase⟩ := clock
    refine ⟨_, run, tick, start, len, grid, b0, count, published, passed, cut, ?_, inForce, executed⟩
    rw [State.up, phase]
    exact up
  case publish =>
    have run : exec .samplePublish s = execSamplePublish s := rfl
    rw [execSamplePublish, if_neg (by simp [up, grid, fresh])] at run
    extract_lets read sent at run
    have reached : Kept s read := State.onTime_kept (State.readCommands_kept (State.reach_kept (Kept.refl s)))
    have sent_ : Kept s sent := forN_kept (fun _ _ h => State.shareSend_kept h) reached
    have drives : (s.reach (s.time.frameStart + 32)).drives.length = 8 := by
      have units := whole.units
      simp only [unitCounts, List.cons.injEq] at units
      exact units.2.1
    have time : read.time = { s.time with tick := max s.time.tick (s.time.frameStart + 32), published := true } := by
      have before : (s.reach (s.time.frameStart + 32)).readCommands.time = (s.reach (s.time.frameStart + 32)).time :=
        State.readCommands_only (Only.refl [.drives] _) rfl .time (by decide)
      show { (s.reach (s.time.frameStart + 32)).readCommands.time with published := true } = _
      rw [before]
      rfl
    have rest : Only [.regs, .cfg, .stg, .mem, .eccBad, .stage, .axes, .mots, .legs, .lanes, .shares, .chop, .dma, .dmaHalted, .cans, .safety,
        .trace, .log, .timers, .sched, .free] read sent.chopPublish.releaseAll.dmaFrame := State.dmaFrame_only (State.releaseAll_only
      (State.chopPublish_only (forN_only (fun _ _ h => State.shareSend_only h rfl) (Only.refl _ _)) rfl) rfl) rfl
    refine ⟨_, run, ⟨(rest .time (by decide)).trans time, fun a low => ?_, fun n low => ?_⟩, onlyN_get (execSamplePublish_only (Only.refl _ s) rfl) run⟩
    · rw [dr_only rest (by decide), dr_only (s := (s.reach (s.time.frameStart + 32)).readCommands) (State.onTime_only (Only.refl [.time] _) rfl)
        (by decide)]
      exact commandsRead_reach (readCommands_reads drives low)
    · rw [ln_only (State.dmaFrame_only (Only.refl [.regs, .mem, .eccBad, .axes, .dma, .dmaHalted, .safety, .trace, .log, .timers] _) rfl) (by decide)]
      exact releaseAll_missed ((State.chopPublish_kept sent_).whole whole) low
  case pass =>
    have run : exec .profilePass s = execProfilePass s := rfl
    rw [execProfilePass, if_neg (by simp [up, grid, fresh])] at run
    extract_lets c opened h groups axes b1 at run
    refine ⟨_, run, ?_, onlyN_get (execProfilePass_only (Only.refl _ s) rfl) run⟩
    have groups_ : Only [.mots, .groups, .regs, .host, .mgr, .trace, .log, .cmps, .latches, .timers] opened groups :=
      forN_only (fun _ _ h => State.groupPass_only h rfl) (Only.refl _ _)
    exact (forN_only (fun _ _ h => only_ite h (State.cmpSetPoint_only h rfl)) (forN_only (fun _ _ h =>
      forN_only (fun _ _ h => only_ite (State.axisPass_only h rfl) h) h) groups_)) .time (by decide)
  case cutoff =>
    have run : exec .commitCutoff s = execCommitCutoff s := rfl
    rw [execCommitCutoff, if_neg (by simp [up, out, fresh])] at run
    extract_lets reached legs at run
    have reached_ : Kept s reached := State.reach_kept (Kept.refl s)
    have rest : Only [.regs, .stage, .axes, .drives, .fbs, .mots, .legs, .lanes, .cans, .dos, .safety, .trace, .log, .chans, .timers] reached
        legs.takeCut := State.takeCut_only (forN_only (fun _ _ h => State.legCommit_only h rfl) (State.cutAll_only (Only.refl _ _) rfl)) rfl
    have time : legs.takeCut.time = reached.time := rest .time (by decide)
    refine ⟨_, run, ⟨?_, fun n low => ?_⟩, onlyN_get (execCommitCutoff_only (Only.refl _ s) rfl) run⟩
    · show { legs.takeCut.time with cut := true } = _
      rw [time]
      rfl
    · rw [ln_only (State.onTime_only (Only.refl [.time] legs.takeCut) rfl) (by decide)]
      refine takeCut_keeps (s := legs) ?_
      rw [ln_only (forN_only (fs := [.regs, .legs, .trace]) (fun _ _ h => State.legCommit_only h rfl) (Only.refl _ _)) (by decide)]
      exact cutAll_done (reached_.whole whole) low

end Sys2Proof.Machine
end


section

/-! PROOF. Rules that the later families share: one register written, units read after an update of theirs, and what raising sources and
retiring channels leaves of the live registers and of the gates. -/

namespace Sys2Proof.Machine

open Sys2Proof.Safety Sys2Proof.Claims

/-! Live registers. -/

section

variable {s t : State} {p o q r i bits : Nat} {v w : Word}

theorem lv_of_regs (e : t.regs = s.regs) : t.lv p o = s.lv p o := by rw [State.lv, e]; rfl

theorem lv_only {fs : List Part} (h : Only fs s t) (out : .regs ∉ fs) : t.lv p o = s.lv p o := lv_of_regs (h .regs out)

theorem oneReg_onLv {f : Word → Word} (h : MapOk s.regs) (ho : o < 4096) : OneReg s p o f (s.onLv p o f) := by
  intro q r hr
  unfold State.onLv
  split
  · next same =>
    obtain ⟨rfl, rfl⟩ := same
    exact State.lv_setLv_same h
  · next other => exact State.lv_setLv_ne h fun e => other ((regAddr_inj ho hr).mp e)

theorem oneReg_setLv (h : MapOk s.regs) (ho : o < 4096) : OneReg s p o (fun _ => v) (s.setLv p o v) := oneReg_onLv (f := fun _ => v) h ho

theorem OneReg.of_regs {f : Word → Word} {u : State} (h : OneReg s p o f t) (hs : u.regs = s.regs) : OneReg u p o f t := by
  intro q r hr
  rw [lv_of_regs (s := s) (t := u) hs, lv_of_regs (s := s) (t := u) hs]
  exact h q r hr

theorem OneReg.to_regs {f : Word → Word} {u : State} (h : OneReg s p o f t) (ht : u.regs = t.regs) : OneReg s p o f u := by
  intro q r hr
  rw [lv_of_regs (s := t) (t := u) ht]
  exact h q r hr

theorem OneReg.congr {f g : Word → Word} (h : OneReg s p o f t) (e : f (s.lv p o) = g (s.lv p o)) : OneReg s p o g t := by
  intro q r hr
  rw [← e]
  exact h q r hr

theorem flagged_of_regs (h : Flagged s p i) (e : t.regs = s.regs) : Flagged t p i := by
  unfold Flagged at *
  rwa [lv_of_regs e]

theorem regAddr_mod (ho : o < 4096) : regAddr p o % 4096 = o := by simp only [regAddr]; omega

theorem flagged_setLv (h : Flagged s p i) (ok : MapOk s.regs) (ho : o < 4096) (n : o ≠ pageEvent) : Flagged (s.setLv q o v) p i := by
  unfold Flagged
  rw [State.lv_setLv_ne ok]
  · exact h
  · intro e
    exact n (((regAddr_inj ho (by decide : pageEvent < 4096)).mp e).2).symm

end

/-! Properties of the live registers that raising and retiring keep. -/

/-- P is about the live registers, and outlives events, log entries and sticky fault bits. -/
structure Rising (P : State → Prop) : Prop where
  events : OutlivesEvents P
  lost : ∀ {t v}, P t → P (t.setLv pgNvlog NVLOG.LOST v)
  fault : ∀ {t p bits}, P t → P (t.pfault p bits)
  same : ∀ {t u : State}, P t → u.regs = t.regs → P u

section

variable {P : State → Prop} (rise : Rising P) {s t : State}
include rise

theorem Rising.only {fs : List Part} (h : Only fs s t) (out : .regs ∉ fs) (k : P s) : P t := rise.same k (h .regs out)

theorem Rising.event {p bits : Nat} (h : P s) : P (s.event p bits) := rise.events.event h

theorem Rising.logAdd {kind cls m code : Nat} {d : Word} (h : P s) : P (s.logAdd kind cls m code d) := by
  unfold State.logAdd
  extract_lets e
  split
  · exact rise.same h rfl
  · split
    · exact rise.same h rfl
    · exact rise.event (rise.lost (rise.same h rfl))

theorem Rising.noteSrc {src a m : Nat} (h : P s) : P (s.noteSrc src a m) := rise.event (rise.logAdd (rise.same h rfl))

theorem Rising.raise {src a : Nat} (h : P s) : P (s.raise src a) := by
  unfold State.raise
  split
  · exact h
  · refine forL_ind (fun b t k => ?_) _ (rise.noteSrc h)
    split
    · exact k
    · exact rise.same k rfl

theorem Rising.raiseNow {src a : Nat} (h : P s) : P (s.raiseNow src a) := by
  unfold State.raiseNow
  split
  · exact h
  · refine forL_ind (fun b t k => ?_) _ (rise.noteSrc h)
    split
    · exact k
    · split
      · exact k
      · exact rise.only (State.pushReact_only (State.stoNow_only (Only.refl [.axes, .timers, .mots, .legs] t) rfl) rfl) (by decide) k
    · exact rise.same k rfl

theorem Rising.clearSrc {src a : Nat} (h : P s) : P (s.clearSrc src a) := rise.same h rfl

theorem Rising.raisePulse {src a : Nat} (h : P s) : P (s.raisePulse src a) := rise.clearSrc (rise.raise h)

theorem Rising.loseLane {n : Nat} (h : P s) : P (s.loseLane n) := by
  unfold State.loseLane
  extract_lets raised
  have raised_ : P raised := forL_ind (fun _ _ k => rise.raiseNow k) _ h
  split
  · exact rise.fault raised_
  · exact raised_

theorem Rising.startReproof (h : P s) : P s.startReproof :=
  rise.only (State.startReproof_only (Only.refl [.stage] s) rfl) (by decide) h

theorem Rising.stopLane {n : Nat} (h : P s) : P (s.stopLane n) := by
  unfold State.stopLane
  extract_lets l stopped lost
  have lost_ : P lost := forL_ind (fun _ _ k => rise.loseLane k) _ (rise.fault (rise.same h rfl))
  split
  · exact rise.same lost_ rfl
  · exact rise.startReproof (rise.loseLane lost_)

theorem Rising.voidProof (h : P s) : P s.voidProof := by
  unfold State.voidProof
  split
  · exact h
  · split
    · exact rise.same h rfl
    · exact rise.same h rfl
    · exact rise.event (rise.same h rfl)
    · exact h

theorem Rising.retire {cls idx : Nat} (h : P s) : P (s.retire cls idx) := by
  unfold State.retire
  split
  · exact h
  · extract_lets noted logged void
    have void_ : P void := rise.voidProof (rise.logAdd (rise.same h rfl))
    split
    · exact rise.startReproof (rise.same void_ rfl)
    · exact rise.startReproof (rise.fault (rise.same void_ rfl))
    · exact rise.startReproof (rise.fault (rise.same void_ rfl))
    · exact rise.stopLane void_
    · exact rise.startReproof (rise.fault (rise.same void_ rfl))
    · exact rise.startReproof (rise.fault (rise.same void_ rfl))
    · exact rise.startReproof void_

theorem Rising.onsetWith {cls idx : Nat} {win : Bool} (h : P s) : P (s.onsetWith cls idx win) := by
  unfold State.onsetWith
  split
  · exact h
  · extract_lets ons counted till
    have counted_ : P counted := rise.same h rfl
    split
    · exact rise.retire counted_
    · exact rise.only (State.intoRetry_only (State.onChan_only (Only.refl [.chans, .fbs, .legs, .dos] counted) rfl) rfl) (by decide) counted_

theorem Rising.onset {cls idx : Nat} (h : P s) : P (s.onset cls idx) := rise.onsetWith h

end

/-- A live register beside those that events, log entries and faults write. -/
abbrev Calm (p o : Nat) : Prop := Aside p o ∧ regAddr p o % 4096 ≠ pageFault

theorem rising_reads {p o : Nat} {w : Word} (calm : Calm p o) : Rising (Reads p o w) where
  events := reads_outlivesEvents calm.1
  lost h := h.setLv_ne calm.1.2.2
  fault h := h.setLv_ne fun e => calm.2 (by rw [e]; simp [regAddr, pageFault])
  same h e := h.of_regs e

/-! A sticky fault bit, and an event bit, once set. -/

/-- Bit i of the PAGE_FAULT of page p is set, and the live registers are a map. -/
def Faulted (p i : Nat) (t : State) : Prop := MapOk t.regs ∧ bt (t.lv p pageFault) i = true

theorem Faulted.setLv_ne {p i q r : Nat} {v : Word} {t : State} (h : Faulted p i t) (n : regAddr p pageFault ≠ regAddr q r) :
    Faulted p i (t.setLv q r v) := by
  refine ⟨MapOk.set h.1, ?_⟩
  rw [State.lv_setLv_ne h.1 n]
  exact h.2

theorem Faulted.of_regs {p i : Nat} {t u : State} (h : Faulted p i t) (e : u.regs = t.regs) : Faulted p i u := by
  refine ⟨e ▸ h.1, ?_⟩
  rw [lv_of_regs e]
  exact h.2

theorem Faulted.pfault {p i q bits : Nat} {t : State} (h : Faulted p i t) : Faulted p i (t.pfault q bits) := by
  unfold State.pfault State.onLv
  by_cases same : p = q
  · subst same
    refine ⟨MapOk.set h.1, ?_⟩
    rw [State.lv_setLv_same h.1, bt_or, h.2]
    rfl
  · exact h.setLv_ne fun e => same ((regAddr_inj (by decide) (by decide)).mp e).1

theorem pfault_sets {p bits i : Nat} {s : State} (h : MapOk s.regs) (k : (nw bits).toNat.testBit i = true) :
    Faulted p i (s.pfault p bits) := by
  refine ⟨MapOk.set h, ?_⟩
  unfold State.pfault State.onLv
  rw [State.lv_setLv_same h, bt_or]
  simp [bt, k]

theorem rising_faulted {p i : Nat} : Rising (Faulted p i) where
  events := {
    raw := fun h => h.setLv_ne fun e => absurd ((regAddr_inj (by decide) (by decide)).mp e).2 (by decide)
    ignored := fun h => h.setLv_ne fun e => absurd ((regAddr_inj (by decide) (by decide)).mp e).2 (by decide)
    trace := fun h => h.of_regs rfl }
  lost h := h.setLv_ne fun e => absurd ((regAddr_inj (by decide) (by decide)).mp e).2 (by decide)
  fault h := h.pfault
  same h e := h.of_regs e

theorem rising_up {s : State} : Rising (Up s) where
  events := up_outlivesEvents
  lost h := h.setLv (by decide)
  fault h := h.pfault
  same h e := h.same e

/-! Channel records. -/

section

variable {s t : State} {cls idx key : Nat} {f : ChanSt → ChanSt}

theorem chan_onChan_same (h : MapOk s.chans) : (s.onChan cls idx f).chan cls idx = f (s.chan cls idx) := by
  simp only [State.chan, State.onChan]
  exact mapFind_set_same h

theorem chan_of_chans (e : t.chans = s.chans) : t.chan cls idx = s.chan cls idx := by rw [State.chan, e]; rfl

theorem chan_only {fs : List Part} (h : Only fs s t) (out : .chans ∉ fs) : t.chan cls idx = s.chan cls idx := chan_of_chans (h .chans out)

theorem retire_chan (ok : MapOk s.chans) (inService : s.chRet cls idx = false) : (s.retire cls idx).chRet cls idx = true := by
  unfold State.retire
  rw [if_neg (by simp [inService])]
  extract_lets noted logged void
  have noted_ : noted.chan cls idx = _ := chan_onChan_same ok
  have void_ : void.chan cls idx = noted.chan cls idx :=
    chan_only (State.voidProof_only (State.logAdd_only (Only.refl [.stage, .regs, .trace, .log] noted) rfl) rfl) (by decide)
  have retired : (void.chan cls idx).retired = true := by rw [void_, noted_]
  clear_value void
  let parts : List Part := [.regs, .stage, .axes, .fbs, .mots, .legs, .lanes, .cans, .dos, .safety, .trace, .log, .timers]
  have keeps (t : State) (h : Only parts void t) : t.chRet cls idx = true :=
    (congrArg ChanSt.retired (chan_only h (by decide))).trans retired
  split
  · exact keeps _ (State.startReproof_only (State.onFb_only (Only.refl _ _) rfl) rfl)
  · exact keeps _ (State.startReproof_only (State.pfault_only (State.onLg_only (State.legOff_only (Only.refl _ _) rfl) rfl) rfl) rfl)
  · exact keeps _ (State.startReproof_only (State.pfault_only (State.onLg_only (State.legOff_only (Only.refl _ _) rfl) rfl) rfl) rfl)
  · exact keeps _ (State.stopLane_only (Only.refl _ _) rfl)
  · exact keeps _ (State.startReproof_only (State.pfault_only (State.onCn_only (Only.refl _ _) rfl) rfl) rfl)
  · exact keeps _ (State.startReproof_only (State.pfault_only (State.onFo_only (Only.refl _ _) rfl) rfl) rfl)
  · exact keeps _ (State.startReproof_only (Only.refl _ _) rfl)

/-- An onset counts in the window: the K-th retires the channel, another puts it in retry (R284). -/
theorem onset_counts (ok : MapOk s.chans) (inService : s.chRet cls idx = false) : CountsOnset s cls idx s.now (s.onset cls idx) := by
  unfold State.onset State.onsetWith
  rw [if_neg (by simp [inService])]
  extract_lets ons counted till
  have counted_ : counted.chan cls idx = { s.chan cls idx with onsets := ons } := chan_onChan_same ok
  have okCounted : MapOk counted.chans := MapOk.set ok
  have length : ons.length = ((s.chan cls idx).onsets.filter fun x => s.now ≤ x + countWin s.force).length + 1 := by
    simp [ons, State.onsetsIn]
  have still : counted.chRet cls idx = false := (congrArg ChanSt.retired counted_).trans inService
  have k : onsetK counted.force = onsetK s.force := rfl
  unfold CountsOnset
  rw [← length, k]
  split
  · next many => exact ⟨fun _ => retire_chan okCounted still, fun few => absurd many (by omega)⟩
  · next few =>
    refine ⟨fun many => absurd many few, fun _ => ?_⟩
    have waits : ((counted.onChan cls idx fun x => { x with retry := some till }).intoRetry cls idx).chan cls idx =
        { counted.chan cls idx with retry := some till } :=
      (chan_only (State.intoRetry_only (Only.refl [.fbs, .legs, .dos] _) rfl) (by decide)).trans (chan_onChan_same okCounted)
    exact ⟨(congrArg ChanSt.retired waits).trans still, congrArg ChanSt.retry waits⟩

theorem CountsOnset.of {u : State} {now : Nat} (h : CountsOnset s cls idx now t) (chans : u.chans = s.chans) (cfg : u.cfg = s.cfg) :
    CountsOnset u cls idx now t := by
  have retry : u.force pgSafe SAFE.RETRY = s.force pgSafe SAFE.RETRY := by
    simp only [State.force, State.cf, cfg]
    rfl
  simp only [CountsOnset, onsetK, countWin, retryWin, chan_of_chans chans, retry] at *
  exact h

theorem CountsOnset.keeps {u : State} {now : Nat} (h : CountsOnset s cls idx now t) (chans : u.chans = t.chans) :
    CountsOnset s cls idx now u := by
  unfold CountsOnset State.chRet at *
  rw [chan_of_chans chans]
  exact h

end

/-! Gates once off. -/

section

variable {s : State} {l : Nat}

theorem onLg_legOff {j : Nat} {f : LegSt → LegSt} (k : ∀ x, (f x).hsOn = x.hsOn ∧ (f x).lsOn = x.lsOn ∧ (f x).incoming = x.incoming)
    (h : LegIsOff s l) : LegIsOff (s.onLg j f) l := by
  have keeps : ∀ x : LegSt, (x.hsOn = false ∧ x.lsOn = false ∧ x.incoming = none) →
      (f x).hsOn = false ∧ (f x).lsOn = false ∧ (f x).incoming = none := fun x ⟨hs, ls, inc⟩ =>
    ⟨(k x).1.trans hs, (k x).2.1.trans ls, (k x).2.2.trans inc⟩
  exact getD_modify_keeps keeps h

theorem legIsOff_only {t : State} {fs : List Part} (h : LegIsOff s l) (only : Only fs s t) (out : .legs ∉ fs) : LegIsOff t l :=
  legIsOff_congr h (only .legs out)

theorem loseLane_legOff {n : Nat} (h : LegIsOff s l) : LegIsOff (s.loseLane n) l := by
  unfold State.loseLane
  extract_lets raised
  have raised_ : LegIsOff raised l := forL_ind (P := fun t => LegIsOff t l) (fun _ _ k => raiseNow_legOff k) _ h
  split
  · exact legIsOff_congr raised_ rfl
  · exact raised_

theorem stopLane_legOff {n : Nat} (h : LegIsOff s l) : LegIsOff (s.stopLane n) l := by
  unfold State.stopLane
  extract_lets x stopped lost
  have lost_ : LegIsOff lost l := forL_ind (P := fun t => LegIsOff t l) (fun _ _ k => loseLane_legOff k) _ (legIsOff_congr h rfl)
  split
  · exact legIsOff_congr lost_ rfl
  · exact legIsOff_only (loseLane_legOff lost_) (State.startReproof_only (Only.refl [.stage] _) rfl) (by decide)

theorem retire_legOff {cls idx : Nat} (h : LegIsOff s l) : LegIsOff (s.retire cls idx) l := by
  unfold State.retire
  split
  · exact h
  · extract_lets noted logged void
    have void_ : LegIsOff void l := legIsOff_only h (State.voidProof_only (State.logAdd_only (State.onChan_only
      (Only.refl [.chans, .stage, .regs, .trace, .log] s) rfl) rfl) rfl) (by decide)
    have last {t : State} (h : LegIsOff t l) : LegIsOff t.startReproof l :=
      legIsOff_only h (State.startReproof_only (Only.refl [.stage] _) rfl) (by decide)
    have taken : LegIsOff ((void.legOff idx).onLg idx fun x => { x with retired := true, retry := false }) l :=
      onLg_legOff (fun _ => ⟨rfl, rfl, rfl⟩) (legOff_keeps void_)
    split
    · exact last (legIsOff_congr void_ rfl)
    · exact last (legIsOff_congr taken rfl)
    · exact last (legIsOff_congr taken rfl)
    · exact stopLane_legOff void_
    · exact last (legIsOff_congr void_ rfl)
    · exact last (legIsOff_congr void_ rfl)
    · exact last void_

theorem onset_legOff {cls idx : Nat} (h : LegIsOff s l) : LegIsOff (s.onset cls idx) l := by
  unfold State.onset State.onsetWith
  split
  · exact h
  · extract_lets ons counted till
    have counted_ : LegIsOff counted l := legIsOff_congr h rfl
    split
    · exact retire_legOff counted_
    · unfold State.intoRetry
      split
      · exact legIsOff_congr counted_ rfl
      · exact onLg_legOff (fun _ => ⟨rfl, rfl, rfl⟩) (legIsOff_congr counted_ rfl)
      · exact onLg_legOff (fun _ => ⟨rfl, rfl, rfl⟩) (legIsOff_congr counted_ rfl)
      · exact legIsOff_congr counted_ rfl
      · exact legIsOff_congr counted_ rfl

end

end Sys2Proof.Machine
end


section

/-! PROOF. The PWM generator (chapter 9): writes to a leg's shadow, overrides, reloads and edges. -/

namespace Sys2Proof.Machine

open Sys2Proof.Safety Sys2Proof.Claims

section

variable {s t : State} {l : Nat} {m : Master} {v : Word}

theorem lg_onLg_same {f : LegSt → LegSt} (h : l < s.legs.length) : (s.onLg l f).lg l = f (s.lg l) := by
  rw [onLg_lg, if_pos ⟨rfl, h⟩]

theorem lg_of_legs (e : t.legs = s.legs) : t.lg l = s.lg l := by rw [State.lg, e]; rfl

theorem leg_present (whole : Whole s) (leg : LegIx) : leg.val < s.legs.length := by rw [legs_length whole]; exact leg.isLt

theorem touch_regs : (s.touch m).regs = s.regs := State.onMstr_regs

theorem touchHost_only {fs : List Part} {s0 : State} (h : Only fs s0 s) (sub : In [.host] fs) : Only fs s0 (s.touch .host) :=
  Only.upd h sub fun f hf => by cases f with
    | host => simp at hf
    | _ => rfl

/-! Writes to the shadow. -/

theorem lateWrite_open (h : (s.lg l).snapshot = none) : s.lateWrite l = s := by simp [State.lateWrite, h]

theorem nw_twoPow {i : Nat} (h : i < 32) : (nw (2 ^ i)).toNat.testBit i = true := by
  have small : 2 ^ i < 2 ^ 32 := Nat.pow_lt_pow_right (by decide) h
  rw [nw, BitVec.toNat_ofNat, Nat.mod_eq_of_lt small, Nat.testBit_two_pow_self]

theorem lateWrite_frozen (ok : MapOk s.regs) (h : (s.lg l).snapshot.isSome = true) :
    Flagged (s.lateWrite l) (pgPwm (l / 8)) (l % 8) ∧ MapOk (s.lateWrite l).regs := by
  rw [State.lateWrite, if_pos h]
  have counted : MapOk (s.inc16 (pgPwm (l / 8)) (PWM.LATE_UPDATES (l % 8))).regs := MapOk.set ok
  exact ⟨event_sets counted (nw_twoPow (by omega)), (Up.event (Up.refl counted)).ok⟩

/-! The bits of CTRL. -/

theorem bt_eq {w : Word} {i : Nat} : bt w i = w.getLsbD i := rfl

/-- With OVR_EN clear the arming bits are taken and the override's switches stay. -/
theorem armed_ctrl {old : Word} (h : bt old 8 = false) :
    (v &&& 3 ||| old &&& 0x130) &&& 0x133 = v &&& 3 ||| old &&& 0x30 := by
  have none : old &&& 0x100 = 0 := by
    rw [show (0x100 : Word) = BitVec.twoPow 32 8 by decide, BitVec.and_twoPow, ← bt_eq, h]
    rfl
  have split : old &&& 0x130 = old &&& 0x30 := by
    rw [show (0x130 : Word) = 0x30 ||| 0x100 by decide, BitVec.and_or_distrib_left, none]
    exact BitVec.or_zero
  rw [BitVec.and_or_distrib_right, BitVec.and_assoc, BitVec.and_assoc, show (3 &&& 0x133 : Word) = 3 by decide,
    show (0x130 &&& 0x133 : Word) = 0x130 by decide, split]

theorem armed_bit {old : Word} : bt (v &&& 3 ||| old &&& 0x130) 8 = bt old 8 ∧ bt (v &&& 3 ||| old &&& 0x130) 1 = bt v 1 := by
  simp [bt_eq]

theorem kept_override (h : bt v 8 = true) : bt (v &&& 0x133) 8 = true := by
  rw [bt_eq] at *
  simp [h]

theorem dutyWrite_open (own : (s.lg l).delivered = none) (live : (s.lg l).snapshot = none) :
    s.dutyWrite l v = s.setLv (pgPwm (l / 8)) (PWM.DUTY (l % 8)) (v &&& 0x1FFFFF) := by
  rw [State.dutyWrite, if_neg (by simp [own]), lateWrite_open live]

theorem dutyWrite_frozen (ok : MapOk s.regs) (own : (s.lg l).delivered = none) (frozen : (s.lg l).snapshot.isSome = true) :
    (s.dutyWrite l v).lv (pgPwm (l / 8)) (PWM.DUTY (l % 8)) = v &&& 0x1FFFFF ∧ Flagged (s.dutyWrite l v) (pgPwm (l / 8)) (l % 8) := by
  obtain ⟨flagged, late⟩ := lateWrite_frozen ok frozen
  rw [State.dutyWrite, if_neg (by simp [own])]
  exact ⟨State.lv_setLv_same late, flagged_setLv flagged late (by simp only [PWM.DUTY]; omega) (by simp only [PWM.DUTY, pageEvent]; omega)⟩

theorem periodWrite_open (free : legFdiv s.force l = 0) (live : (s.lg l).snapshot = none) :
    s.periodWrite m l v = (s.setLv (pgPwm (l / 8)) (PWM.PERIOD (l % 8)) (v &&& 0x1FFFF)).onLg l fun x => { x with perNew := some m } := by
  rw [State.periodWrite, if_neg (by simp [free]), lateWrite_open live]

/-- What a CTRL write without the override does before the register takes it. -/
theorem ctrlWrite_plain (plain : bt v 8 = false) (was : bt (s.lv (pgPwm (l / 8)) (PWM.CTRL (l % 8))) 8 = false) :
    s.pwmCtrlWrite m l v = (if ((s.lateWrite l).lg l).snapshot.isSome then (s.lateWrite l).onLg l fun x => { x with lateOnce := bt v 1 }
      else s.lateWrite l).setLv (pgPwm (l / 8)) (PWM.CTRL (l % 8)) (v &&& 0x133) := by
  unfold State.pwmCtrlWrite
  extract_lets pg old late once written
  rw [if_neg (by simp [plain]), if_neg (by simp [plain]), if_neg (by simp [old, pg, was])]

theorem ctrlWrite_plain_open (plain : bt v 8 = false) (was : bt (s.lv (pgPwm (l / 8)) (PWM.CTRL (l % 8))) 8 = false)
    (live : (s.lg l).snapshot = none) : s.pwmCtrlWrite m l v = s.setLv (pgPwm (l / 8)) (PWM.CTRL (l % 8)) (v &&& 0x133) := by
  rw [ctrlWrite_plain plain was, lateWrite_open live, if_neg (by simp [live])]

theorem ctrlWrite_plain_frozen (ok : MapOk s.regs) (present : l < s.legs.length) (plain : bt v 8 = false)
    (was : bt (s.lv (pgPwm (l / 8)) (PWM.CTRL (l % 8))) 8 = false) (frozen : (s.lg l).snapshot.isSome = true) :
    (s.pwmCtrlWrite m l v).lv (pgPwm (l / 8)) (PWM.CTRL (l % 8)) = v &&& 0x133 ∧
      Flagged (s.pwmCtrlWrite m l v) (pgPwm (l / 8)) (l % 8) ∧ (s.pwmCtrlWrite m l v).lg l = { s.lg l with lateOnce := bt v 1 } ∧
      Only [.regs, .legs, .trace] s (s.pwmCtrlWrite m l v) := by
  obtain ⟨flagged, late⟩ := lateWrite_frozen ok frozen
  have legs : (s.lateWrite l).legs = s.legs := State.lateWrite_only (Only.refl [.regs, .trace] s) rfl .legs (by decide)
  have leg : (s.lateWrite l).lg l = s.lg l := lg_of_legs legs
  rw [ctrlWrite_plain plain was, if_pos (by rw [leg]; exact frozen)]
  refine ⟨State.lv_setLv_same late, flagged_setLv (s := (s.lateWrite l).onLg l _) flagged late (by simp only [PWM.CTRL]; omega)
    (by simp only [PWM.CTRL, pageEvent]; omega), ?_, State.setLv_only (State.onLg_only (State.lateWrite_only (Only.refl _ _) rfl) rfl) rfl⟩
  rw [← leg]
  exact lg_onLg_same (s := s.lateWrite l) (legs ▸ present)

/-! Switches turned on and off by an override. -/

/-- What a turn-on under CYCLE does before it judges the switch: the held switch is free, and the leg back in service (R262). -/
def cycleFree (s : State) (l : Nat) (high : Bool) : State :=
  if decide (l < 12) && !bt (s.cf (pgGd (l / 6)) (GD.GD_CFG (l % 6))) 4 then
    let s := s.onLg l fun x => if high then { x with vdsHoldH := false } else { x with vdsHoldL := false }
    let x := s.lg l
    if x.retry && !x.vdsHoldH && !x.vdsHoldL then (s.onLg l fun x => { x with retry := false }).backInService 3 l else s
  else s

theorem turnOn_eq {high : Bool} : s.turnOn l high =
    let s := (cycleFree s l high).onLg l fun x => { x with incoming := none, crossed := none }
    if s.mayTurnOn l high && (!(s.lg l).gateOff || bt (s.lv (pgPwm (l / 8)) (PWM.CTRL (l % 8))) 8) then
      s.onLg l fun x => if high then { x with hsOn := true, hsTick := s.now } else { x with lsOn := true, lsTick := s.now }
    else s := rfl

/-- On a leg that nothing holds off this changes nothing of the leg. -/
theorem cycleFree_free {high : Bool} (present : l < s.legs.length)
    (hold : (if high then (s.lg l).vdsHoldH else (s.lg l).vdsHoldL) = false) (retry : (s.lg l).retry = false) :
    (cycleFree s l high).lg l = s.lg l ∧ Only [.legs] s (cycleFree s l high) ∧ l < (cycleFree s l high).legs.length := by
  unfold cycleFree
  split
  · extract_lets freed x
    have same : x = s.lg l := by
      rw [show x = _ from lg_onLg_same present]
      cases high
      · simp [← show (s.lg l).vdsHoldL = false from hold]
      · simp [← show (s.lg l).vdsHoldH = false from hold]
    rw [if_neg (by simp [same, retry])]
    exact ⟨same, State.onLg_only (Only.refl _ _) rfl, by simpa [freed, State.onLg] using present⟩
  · exact ⟨rfl, Only.refl _ _, present⟩

/-- Nothing holds the switch off: no trip, no missing supply, no retry. -/
def Unheld (s : State) (l : Nat) (high : Bool) : Prop :=
  (s.lg l).waitEdge = false ∧ (s.lg l).cross = false ∧ (s.lg l).retired = false ∧ (s.lg l).retry = false ∧
    (if high then (s.lg l).vdsHoldH = false ∧ (s.lg l).bsuv = false ∧ s.pdie.cpuv = false else (s.lg l).vdsHoldL = false)

theorem mayTurnOn_of {high : Bool} (h : Unheld s l high) : s.mayTurnOn l high = true := by
  obtain ⟨wait, cross, retired, -, hold⟩ := h
  cases high
  · simp_all [State.mayTurnOn]
  · simp_all [State.mayTurnOn]

/-- A switch that nothing holds off turns on. -/
theorem turnOn_free {high : Bool} (present : l < s.legs.length) (free : Unheld s l high)
    (drive : (s.lg l).gateOff = false ∨ bt (s.lv (pgPwm (l / 8)) (PWM.CTRL (l % 8))) 8 = true) :
    (s.turnOn l high).lg l = (if high then { s.lg l with incoming := none, crossed := none, hsOn := true, hsTick := s.now }
      else { s.lg l with incoming := none, crossed := none, lsOn := true, lsTick := s.now }) ∧ Only [.legs] s (s.turnOn l high) := by
  have hold : (if high then (s.lg l).vdsHoldH else (s.lg l).vdsHoldL) = false := by
    obtain ⟨-, -, -, -, hold⟩ := free
    cases high
    · exact hold
    · exact hold.1
  obtain ⟨same, only, present'⟩ := cycleFree_free present hold free.2.2.2.1
  rw [turnOn_eq]
  extract_lets cleared
  have leg : cleared.lg l = { s.lg l with incoming := none, crossed := none } := by rw [← same]; exact lg_onLg_same present'
  have clearedOnly : Only [.legs] s cleared := State.onLg_only only rfl
  have here : l < cleared.legs.length := by simpa [cleared, State.onLg] using present'
  clear_value cleared
  have pdie : cleared.pdie = s.pdie := clearedOnly .pdie (by decide)
  have may : cleared.mayTurnOn l high = true := by
    refine mayTurnOn_of ?_
    rw [Unheld, leg, pdie]
    exact free
  have on : (!(cleared.lg l).gateOff || bt (cleared.lv (pgPwm (l / 8)) (PWM.CTRL (l % 8))) 8) = true := by
    rw [leg, lv_only clearedOnly (by decide)]
    rcases drive with gate | ctrl
    · simp [gate]
    · simp [ctrl]
  rw [if_pos (by rw [may, on]; rfl)]
  refine ⟨?_, State.onLg_only clearedOnly rfl⟩
  rw [lg_onLg_same here, leg, show cleared.now = s.now from congrArg TimeSt.tick (clearedOnly .time (by decide))]

/-- A leg that the override has taken over, with both switches off. -/
def overrideOff (s : State) (l : Nat) : State := s.onLg l fun x => { x with cross := false, incoming := none, hsOn := false, lsOn := false }

theorem overrideOff_lg (present : l < s.legs.length) :
    (overrideOff s l).lg l = { s.lg l with cross := false, incoming := none, hsOn := false, lsOn := false } := lg_onLg_same present

theorem driveOverride_neither (hs : bt v 4 = false) (ls : bt v 5 = false) : s.driveOverride l v = overrideOff s l := by
  unfold State.driveOverride
  extract_lets high low off
  have high_ : high = false := hs
  have low_ : low = false := ls
  rw [if_neg (by simp [high_])]
  simp only [high_, low_, Bool.false_eq_true, if_false, ite_self]
  rfl

theorem driveOverride_high (present : l < s.legs.length) (hs : bt v 4 = true) (ls : bt v 5 = false) (down : s.legsDown l = false)
    (retired : (s.lg l).retired = false) : s.driveOverride l v = (overrideOff s l).turnOn l true := by
  unfold State.driveOverride
  extract_lets high low off
  have still : (off.lg l).retired = false := (congrArg LegSt.retired (overrideOff_lg present)).trans retired
  have down' : off.legsDown l = false := down
  rw [if_neg (by simp [high, low, ls]), if_neg (by simp [still, down']), if_pos hs]
  rfl

theorem driveOverride_low (present : l < s.legs.length) (hs : bt v 4 = false) (ls : bt v 5 = true) (down : s.legsDown l = false)
    (retired : (s.lg l).retired = false) : s.driveOverride l v = (overrideOff s l).turnOn l false := by
  unfold State.driveOverride
  extract_lets high low off
  have still : (off.lg l).retired = false := (congrArg LegSt.retired (overrideOff_lg present)).trans retired
  have down' : off.legsDown l = false := down
  rw [if_neg (by simp [high, low, hs]), if_neg (by simp [still, down']), if_neg (by simp [high, hs]), if_pos ls]
  rfl

/-- Both switches asked for at once: both go off, whatever the onset of the leg does then (R244). -/
theorem crossCommand_off (present : l < s.legs.length) : LegIsOff (s.crossCommand l) l := by
  unfold State.crossCommand
  extract_lets off g p
  have off_ : LegIsOff off l := by
    rw [LegIsOff, show off.lg l = _ from lg_onLg_same present]
    exact ⟨rfl, rfl, rfl⟩
  clear_value off
  split
  · refine onset_legOff ?_
    split
    · exact legIsOff_only off_ (State.raisePulse_only (State.inc16_only (State.pfault_only (State.event_only
        (Only.refl [.regs, .trace, .axes, .safety, .log] off) rfl) rfl) rfl) rfl) (by decide)
    · exact legIsOff_only off_ (State.raisePulse_only (State.inc16_only (State.pfault_only (State.event_only
        (Only.refl [.regs, .trace, .axes, .safety, .log] off) rfl) rfl) rfl) rfl) (by decide)
  · exact onset_legOff (legIsOff_only off_ (State.raisePulse_only (State.pfault_only (State.event_only
      (Only.refl [.regs, .trace, .axes, .safety, .log] off) rfl) rfl) rfl) (by decide))

/-- An override that is taken: CTRL holds it, and it drives the switches. -/
theorem ctrlWrite_override (on : bt v 8 = true) (idle : legMode (s.legUse l) l = 0 ∧ s.legClaimed l = false) :
    ∃ t, s.pwmCtrlWrite m l v = State.driveOverride t l v ∧ t.legs.length = s.legs.length ∧
      ((s.lg l).snapshot = none → t = s.setLv (pgPwm (l / 8)) (PWM.CTRL (l % 8)) (v &&& 0x133)) := by
  unfold State.pwmCtrlWrite
  extract_lets pg was late once written
  rw [if_neg (by simp [idle]), if_pos on]
  have legs : late.legs = s.legs := State.lateWrite_only (Only.refl [.regs, .trace] s) rfl .legs (by decide)
  refine ⟨_, rfl, ?_, fun live => ?_⟩
  · show once.legs.length = _
    simp only [once]
    split
    · rw [State.onLg, List.length_modify, legs]
    · rw [legs]
  · have open_ : late = s := lateWrite_open live
    have same : once = s := by rw [show once = _ from if_neg (by rw [open_, live]; simp), open_]
    show once.setLv _ _ _ = _
    rw [same]

/-- The end of an override: the leg is off. -/
theorem ctrlWrite_ends (off : bt v 8 = false) (was : bt (s.lv (pgPwm (l / 8)) (PWM.CTRL (l % 8))) 8 = true)
    (live : (s.lg l).snapshot = none) : s.pwmCtrlWrite m l v =
      ((s.setLv (pgPwm (l / 8)) (PWM.CTRL (l % 8)) (v &&& 0x133)).legOff l).onLg l fun x => { x with cross := false } := by
  unfold State.pwmCtrlWrite
  extract_lets pg old late once written
  have open_ : late = s := lateWrite_open live
  have same : once = s := by rw [show once = _ from if_neg (by rw [open_, live]; simp), open_]
  have taken : written = s.setLv (pgPwm (l / 8)) (PWM.CTRL (l % 8)) (v &&& 0x133) := by
    show once.setLv _ _ _ = _
    rw [same]
  rw [if_neg (by simp [off]), if_neg (by simp [off]), if_pos was, taken]

end

/-- Settles O23. -/
theorem legWrites : Obligations.LegWrites := by
  refine ⟨fun leg v s whole up => ?writes, fun leg v s whole up => ?overrides⟩
  case writes =>
    intro x p j
    have present := leg_present whole leg
    have okTouch : MapOk (s.touch .host).regs := touch_regs (s := s) (m := .host) ▸ whole.regs
    have duty : exec (.pwmDutyWrite leg v) s = .next ((s.touch .host).dutyWrite leg.val v) := if_pos up
    have period : exec (.pwmPeriodWrite leg v) s = .next ((s.touch .host).periodWrite .host leg.val v) := if_pos up
    have arm : exec (.pwmUpdateControl leg v) s = .next ((s.touch .host).pwmCtrlWrite .host leg.val
      (v &&& 3 ||| s.lv p (PWM.CTRL j) &&& 0x130)) := if_pos up
    have duty_low : PWM.DUTY j < 4096 := by simp only [PWM.DUTY]; omega
    have period_low : PWM.PERIOD j < 4096 := by simp only [PWM.PERIOD]; omega
    have ctrl_low : PWM.CTRL j < 4096 := by simp only [PWM.CTRL]; omega
    refine ⟨fun given => ?_, fun own live => ?_, fun own frozen => ?_, fun given => ?_, fun free live => ?_, fun live clear => ?_,
      fun frozen clear => ?_⟩
    · exact duty.trans (congrArg _ (if_pos given))
    · refine ⟨_, duty.trans (congrArg _ (dutyWrite_open own live)), ⟨?_, rfl⟩, State.setLv_only (touchHost_only (Only.refl _ _) rfl) rfl⟩
      exact OneReg.of_regs (oneReg_setLv okTouch duty_low) touch_regs.symm
    · exact ⟨_, duty, dutyWrite_frozen okTouch own frozen, State.dutyWrite_only (touchHost_only (Only.refl _ _) rfl) rfl⟩
    · exact period.trans (congrArg _ (if_pos given))
    · refine ⟨_, period.trans (congrArg _ (periodWrite_open free live)), ⟨?_, lg_onLg_same (s := (s.touch .host).setLv p (PWM.PERIOD j) _)
        present⟩, State.onLg_only (State.setLv_only (touchHost_only (Only.refl _ _) rfl) rfl) rfl⟩
      exact OneReg.of_regs (oneReg_setLv okTouch period_low) touch_regs.symm
    · have plain := (armed_bit (v := v)).1.trans clear
      refine ⟨_, arm.trans (congrArg _ (ctrlWrite_plain_open plain clear live)), ?_, State.setLv_only (touchHost_only (Only.refl _ _) rfl) rfl⟩
      exact OneReg.congr (OneReg.of_regs (oneReg_setLv okTouch ctrl_low) touch_regs.symm) (armed_ctrl clear)
    · obtain ⟨ctrl, flagged, leg_, only⟩ := ctrlWrite_plain_frozen (s := s.touch .host) (m := .host) okTouch present
        ((armed_bit (v := v)).1.trans clear) clear frozen
      refine ⟨_, arm, ⟨ctrl.trans (armed_ctrl clear), flagged, leg_.trans ?_⟩, Only.upd (touchHost_only (Only.refl _ _) rfl) rfl only⟩
      rw [armed_bit.2]
      rfl
  case overrides =>
    intro x p idle
    have present := leg_present whole leg
    have okTouch : MapOk (s.touch .host).regs := touch_regs (s := s) (m := .host) ▸ whole.regs
    have ctrl_low : PWM.CTRL (leg.val % 8) < 4096 := by simp only [PWM.CTRL]; omega
    have run : exec (.pwmOverride leg v) s = .next ((s.touch .host).pwmCtrlWrite .host leg.val v) := if_pos up
    let written := (s.touch .host).setLv p (PWM.CTRL (leg.val % 8)) (v &&& 0x133)
    have writtenOnly : Only [.regs, .host, .legs] s written := State.setLv_only (touchHost_only (Only.refl _ _) rfl) rfl
    have one : OneReg s p (PWM.CTRL (leg.val % 8)) (fun _ => v &&& 0x133) written :=
      OneReg.of_regs (oneReg_setLv okTouch ctrl_low) touch_regs.symm
    have reads : written.lv p (PWM.CTRL (leg.val % 8)) = v &&& 0x133 := State.lv_setLv_same okTouch
    have off_ := overrideOff_lg (s := written) (l := leg.val) present
    have present' : leg.val < (overrideOff written leg.val).legs.length := by rw [overrideOff, State.onLg, List.length_modify]; exact present
    refine ⟨fun on busy => ?_, fun on free hs ls => ?_, fun on free hs ls live => ?_,
      fun on free hs ls live down retired wait hold bsuv cpuv retry => ?_, fun on free hs ls live down retired wait hold retry => ?_,
      fun off was live => ?_⟩
    · refine run.trans (congrArg _ (if_pos ?_))
      have used : (legMode (s.legUse leg.val) leg.val != 0 || s.legClaimed leg.val) = true := by
        by_contra none
        exact busy (by simpa using none)
      exact Bool.and_eq_true_iff.mpr ⟨on, used⟩
    · obtain ⟨t, drive, len, -⟩ := ctrlWrite_override (s := s.touch .host) (m := .host) (l := leg.val) on free
      refine ⟨_, run, ?_, onlyN_get (execPwmOverride_only (Only.refl _ s) rfl) run⟩
      rw [drive, State.driveOverride, if_pos (by rw [hs, ls]; rfl)]
      exact crossCommand_off (by rw [len]; exact present)
    · obtain ⟨t, drive, len, open_⟩ := ctrlWrite_override (s := s.touch .host) (m := .host) (l := leg.val) on free
      obtain rfl : t = written := open_ live
      rw [drive, driveOverride_neither hs ls] at run
      refine ⟨_, run, ⟨?_, ?_, OneReg.to_regs one rfl⟩, State.onLg_only writtenOnly rfl⟩
      · rw [LegIsOff, off_]
        exact ⟨rfl, rfl, rfl⟩
      · rw [off_]
    · obtain ⟨t, drive, len, open_⟩ := ctrlWrite_override (s := s.touch .host) (m := .host) (l := leg.val) on free
      obtain rfl : t = written := open_ live
      rw [drive, driveOverride_high (s := written) present hs ls down retired] at run
      obtain ⟨leg_, only⟩ := turnOn_free (s := overrideOff written leg.val) (l := leg.val) (high := true) present' (by
          rw [Unheld, off_]
          exact ⟨wait, rfl, retired, retry, hold, bsuv, cpuv⟩) (.inr ((congrArg (bt · 8) reads).trans (kept_override on)))
      refine ⟨_, run, ⟨?_, ?_, ?_, OneReg.to_regs (t := overrideOff written leg.val) one (only .regs (by decide))⟩,
        Only.upd (State.onLg_only writtenOnly rfl) rfl only⟩
      · rw [leg_, off_]; rfl
      · rw [leg_, off_]; rfl
      · rw [leg_, off_]; rfl
    · obtain ⟨t, drive, len, open_⟩ := ctrlWrite_override (s := s.touch .host) (m := .host) (l := leg.val) on free
      obtain rfl : t = written := open_ live
      rw [drive, driveOverride_low (s := written) present hs ls down retired] at run
      obtain ⟨leg_, only⟩ := turnOn_free (s := overrideOff written leg.val) (l := leg.val) (high := false) present' (by
          rw [Unheld, off_]
          exact ⟨wait, rfl, retired, retry, hold⟩) (.inr ((congrArg (bt · 8) reads).trans (kept_override on)))
      refine ⟨_, run, ⟨?_, ?_, ?_⟩, Only.upd (State.onLg_only writtenOnly rfl) rfl only⟩
      · rw [leg_, off_]; rfl
      · rw [leg_, off_]; rfl
      · rw [leg_, off_]; rfl
    · rw [ctrlWrite_ends (s := s.touch .host) (m := .host) (l := leg.val) off was live] at run
      have leg_ : (written.legOff leg.val).lg leg.val = { s.lg leg.val with hsOn := false, lsOn := false, incoming := none, gateOff := true } :=
        lg_onLg_same (s := written) present
      have last : (((written.legOff leg.val).onLg leg.val fun x => { x with cross := false })).lg leg.val = _ :=
        lg_onLg_same (by rw [State.legOff, State.onLg, List.length_modify]; exact present)
      refine ⟨_, run, ⟨?_, ?_⟩, State.onLg_only (State.legOff_only writtenOnly rfl) rfl⟩
      · rw [LegIsOff, last, leg_]
        exact ⟨rfl, rfl, rfl⟩
      · rw [last, leg_]

end Sys2Proof.Machine
end


section

/-! PROOF. Reloads of a leg and the edges of its gates (R226, R233, R235, R237, R238). -/

namespace Sys2Proof.Machine

open Sys2Proof.Safety Sys2Proof.Claims

section

variable {s t : State} {l : Nat} {v : Word}

/-- What a reload has taken into leg l: from the delivered duty, from the frozen shadow where it arms, or nothing (R228, R233, R235). -/
def Reloaded (x : LegSt) (sh : Word × Word × Word) (y : LegSt) : Prop :=
  y.snapshot = none ∧ y.lateOnce = false ∧ y.fromSource = x.delivered.isSome ∧
    y.duty = match x.delivered with
      | some d => nw d
      | none => if bt sh.2.2 0 || bt sh.2.2 1 then sh.1 else x.duty

theorem onLg_keeps {P : LegSt → Prop} {j : Nat} {f : LegSt → LegSt} (k : ∀ x, P x → P (f x)) (h : P (s.lg l)) : P ((s.onLg j f).lg l) :=
  getD_modify_keeps k h

theorem lg_only {fs : List Part} (h : Only fs s t) (out : .legs ∉ fs) : t.lg l = s.lg l := lg_of_legs (h .legs out)

theorem onLg_length {j : Nat} {f : LegSt → LegSt} (h : l < s.legs.length) : l < (s.onLg j f).legs.length := by
  rw [State.onLg, List.length_modify]
  exact h

theorem takeShadow_reloads (present : l < s.legs.length) :
    Reloaded (s.lg l) ((s.lg l).snapshot.getD (s.legShadow l)) ((s.takeShadow l).lg l) ∧ l < (s.takeShadow l).legs.length := by
  unfold State.takeShadow
  extract_lets c pg free
  obtain ⟨duty, per, ctrl⟩ := (s.lg l).snapshot.getD (s.legShadow l)
  dsimp -zeta only
  extract_lets arm badP taken named timed once
  let Q : LegSt → Prop := fun y => y.fromSource = (s.lg l).delivered.isSome ∧ y.duty = match (s.lg l).delivered with
    | some d => nw d
    | none => if arm then duty else (s.lg l).duty
  have taken_ : Q (taken.lg l) ∧ l < taken.legs.length := by
    simp only [taken, Q]
    split
    · next d delivered => exact ⟨by rw [lg_onLg_same present]; simp [delivered], onLg_length present⟩
    · next none =>
      split
      · exact ⟨by rw [lg_onLg_same present]; simp [none], onLg_length present⟩
      · exact ⟨by rw [lg_onLg_same present]; simp [none], onLg_length present⟩
  have named_ : Q (named.lg l) ∧ l < named.legs.length := by
    simp only [named]
    split
    · exact taken_
    · exact ⟨onLg_keeps (P := Q) (fun _ h => h) taken_.1, onLg_length taken_.2⟩
  have timed_ : Q (timed.lg l) ∧ l < timed.legs.length := by
    simp only [timed]
    split
    · split
      · split
        · next m _ =>
          have legs : (named.refuseBy m eRange 0 (regAddr pg (PWM.PERIOD (l % 8)))).legs = named.legs :=
            State.refuseBy_only (Only.refl [.regs, .host, .mgr, .trace, .log] named) rfl .legs (by decide)
          exact ⟨onLg_keeps (P := Q) (fun _ h => h) (by rw [lg_of_legs legs]; exact named_.1), onLg_length (legs ▸ named_.2)⟩
        · exact named_
      · exact ⟨onLg_keeps (P := Q) (fun _ h => h) named_.1, onLg_length named_.2⟩
    · exact named_
  have once_ : Q (once.lg l) ∧ l < once.legs.length := by
    simp only [once]
    split
    · exact timed_
    · exact timed_
  obtain ⟨⟨source, value⟩, here⟩ := once_
  refine ⟨?_, onLg_length here⟩
  rw [lg_onLg_same here]
  exact ⟨rfl, rfl, source, value⟩

/-- The edges of a period leave what the reload took. -/
theorem legPeriod_keeps {x : LegSt} {sh : Word × Word × Word} {start i n p : Nat} (h : Reloaded x sh (s.lg l)) :
    Reloaded x sh ((s.legPeriod l start i n p).lg l) := by
  unfold State.legPeriod
  extract_lets
  clear_value *
  split
  extract_lets
  clear_value *
  split
  · exact onLg_keeps (P := Reloaded x sh) (fun _ h => h) h
  · extract_lets
    clear_value *
    split
    extract_lets s'
    have placed : Reloaded x sh (s'.lg l) := onLg_keeps (P := Reloaded x sh) (fun _ h => h) h
    split
    · rw [lg_only (State.event_only (Only.refl [.regs, .trace] s') rfl) (by decide)]
      exact placed
    · exact placed

theorem withNew_takeShadow_only {s0 : State} (h : Only [.regs, .host, .mgr, .legs, .trace, .log] s0 s) :
    Only [.regs, .host, .mgr, .legs, .trace, .log] s0 (s.withNew l fun s => s.takeShadow l) := by
  unfold State.withNew
  exact State.onLg_only (State.takeShadow_only (State.onLg_only h rfl) rfl) rfl

/-- The reload of an internal leg, under the configuration in force. -/
theorem reload_internal {tick : Nat} (present : l < s.legs.length) :
    Reloaded (s.lg l) ((s.lg l).snapshot.getD (s.legShadow l)) (((s.reach tick).withNew l fun s => s.takeShadow l).lg l) := by
  unfold State.withNew
  extract_lets old
  obtain ⟨taken, -⟩ := takeShadow_reloads (s := (s.reach tick).onLg l fun x => { x with old := none }) (onLg_length present)
  rw [lg_onLg_same (s := s.reach tick) present] at taken
  exact onLg_keeps (P := Reloaded _ _) (fun _ h => h) taken

/-- The reload of an external leg, with the edges of its period. -/
theorem reload_external {leg : LegIx} (ready : (!s.up || !s.time.grid ||
      legMode (if leg.val < 12 then s.force else s.legUse leg.val) leg.val == 0) = false)
    (external : ¬ leg.val < 12) (drive : (s.lg leg.val).gateOff = false) (present : leg.val < s.legs.length) :
    ∃ t, execPwmReload leg s = .next t ∧ t.time = { s.time with tick := max s.time.tick (s.lg leg.val).nextReload } ∧
      Reloaded (s.lg leg.val) ((s.lg leg.val).snapshot.getD (s.legShadow leg.val)) (t.lg leg.val) := by
  unfold execPwmReload
  extract_lets l tick old taken c n locked ph p i placed next set
  rw [if_neg (by rw [ready]; decide), if_neg external, if_neg (by rw [drive]; decide)]
  have old_ : old.lg l = { s.lg l with old := none, chopForced := (s.lg l).chopForced && (s.reach tick).dclForcing } :=
    lg_onLg_same (s := s.reach tick) present
  have taken_ : Reloaded (s.lg l) ((s.lg l).snapshot.getD (s.legShadow l)) (taken.lg l) := by
    obtain ⟨taken, -⟩ := takeShadow_reloads (s := old) (l := l) (onLg_length present)
    rw [old_] at taken
    exact taken
  have takenTime : taken.time = old.time := State.takeShadow_only (Only.refl [.regs, .host, .mgr, .legs, .trace, .log] old) rfl .time (by decide)
  have setTime : set.time = taken.time := State.onLg_only (State.legPeriod_only (Only.refl [.regs, .legs, .trace] taken) rfl) rfl .time (by decide)
  have set_ : Reloaded (s.lg l) ((s.lg l).snapshot.getD (s.legShadow l)) (set.lg l) :=
    onLg_keeps (P := Reloaded _ _) (fun _ h => h) (legPeriod_keeps taken_)
  split
  · refine ⟨_, rfl, takenTime, ?_⟩
    exact onLg_keeps (P := Reloaded _ _) (fun _ h => h) (onLg_keeps (P := Reloaded _ _) (fun _ h => h) taken_)
  · refine ⟨_, rfl, ?_, ?_⟩
    · split
      · exact setTime.trans takenTime
      · exact setTime.trans takenTime
    · split
      · exact set_
      · exact onLg_keeps (P := Reloaded _ _) (fun _ h => h) set_

/-! Dead time. -/

/-- Whatever it finds, a turn-on ends the wait of the incoming switch and leaves the dead times measured. -/
theorem turnOn_ends {high : Bool} (present : l < s.legs.length) : ((s.turnOn l high).lg l).incoming = none ∧
    ((s.turnOn l high).lg l).dtRise = (s.lg l).dtRise ∧ ((s.turnOn l high).lg l).dtFall = (s.lg l).dtFall := by
  let P : LegSt → Prop := fun y => y.dtRise = (s.lg l).dtRise ∧ y.dtFall = (s.lg l).dtFall
  have free : P ((cycleFree s l high).lg l) ∧ l < (cycleFree s l high).legs.length := by
    have freed : P ((s.onLg l fun x => if high then { x with vdsHoldH := false } else { x with vdsHoldL := false }).lg l) :=
      onLg_keeps (P := P) (fun _ h => by cases high <;> exact h) ⟨rfl, rfl⟩
    unfold cycleFree
    split
    · extract_lets
      split
      · refine ⟨?_, ?_⟩
        · rw [lg_only (State.backInService_only (Only.refl [.chans] _) rfl) (by decide)]
          exact onLg_keeps (P := P) (fun _ h => h) freed
        · rw [show (State.backInService _ 3 l).legs = _ from State.backInService_only (Only.refl [.chans] _) rfl .legs (by decide)]
          exact onLg_length (onLg_length present)
      · exact ⟨freed, onLg_length present⟩
    · exact ⟨⟨rfl, rfl⟩, present⟩
  rw [turnOn_eq]
  extract_lets cleared
  have cleared_ : (cleared.lg l).incoming = none ∧ P (cleared.lg l) := by
    rw [lg_onLg_same free.2]
    exact ⟨rfl, free.1⟩
  split
  · exact onLg_keeps (P := fun y => y.incoming = none ∧ P y) (fun _ h => by cases high <;> exact h) cleared_
  · exact cleared_

/-- The end of a dead time: what it leaves whatever holds the switch, and the switch turned on where nothing does. -/
theorem endDead_ends {rise hard : Bool} {t0 on : Nat} (present : l < s.legs.length) :
    (s.endDead l rise t0 on hard).time = { s.time with tick := max s.time.tick on } ∧
      ((s.endDead l rise t0 on hard).lg l).incoming = none ∧
      (if rise then ((s.endDead l rise t0 on hard).lg l).dtRise else ((s.endDead l rise t0 on hard).lg l).dtFall) = 4 * (on - t0) ∧
      (Unheld s l rise → (s.lg l).gateOff = false →
        (if rise then ((s.endDead l rise t0 on hard).lg l).hsOn else ((s.endDead l rise t0 on hard).lg l).lsOn) = true ∧
          (if rise then ((s.endDead l rise t0 on hard).lg l).hsTick else ((s.endDead l rise t0 on hard).lg l).lsTick) =
            max s.time.tick on) := by
  unfold State.endDead
  extract_lets noted
  have noted_ : noted.lg l = if rise then { s.lg l with dtRise := 4 * (on - t0), hardR := hard }
      else { s.lg l with dtFall := 4 * (on - t0), hardF := hard } := lg_onLg_same (s := s.reach on) present
  have here : l < noted.legs.length := onLg_length present
  have time : noted.time = { s.time with tick := max s.time.tick on } := rfl
  have pdie : noted.pdie = s.pdie := rfl
  clear_value noted
  obtain ⟨incoming, dtRise, dtFall⟩ := turnOn_ends (high := rise) here
  refine ⟨(State.turnOn_only (Only.refl [.legs, .chans] noted) rfl .time (by decide)).trans time, incoming, ?_, fun free gate => ?_⟩
  · rw [dtRise, dtFall, noted_]
    cases rise <;> rfl
  · have free' : Unheld noted l rise := by
      rw [Unheld, noted_, pdie]
      cases rise <;> exact free
    have gate' : (noted.lg l).gateOff = false := by
      rw [noted_]
      cases rise <;> exact gate
    rw [(turnOn_free here free' (.inl gate')).1, show noted.now = max s.time.tick on from congrArg TimeSt.tick time]
    cases rise <;> exact ⟨rfl, rfl⟩

theorem deadtimeExpiry_runs {leg : LegIx} {rise : Bool} {t0 : Nat} (up : s.up = true) (coming : (s.lg leg.val).incoming = some (rise, t0)) :
    ∃ hard, execDeadtimeExpiry leg s = .next (s.endDead leg.val rise t0 (t0 + legDtMax (s.legUse leg.val) leg.val) hard) := by
  rw [execDeadtimeExpiry, coming]
  exact ⟨_, if_neg (by simp [up])⟩

theorem nodeCrossing_fixed {leg : LegIx} {rise : Bool} {t0 ns : Nat} (up : s.up = true) (coming : (s.lg leg.val).incoming = some (rise, t0))
    (inTime : t0 + ceilDiv ns 4 ≤ t0 + legDtMax (s.legUse leg.val) leg.val) (fixed : legAdapt (s.legUse leg.val) leg.val = false) :
    execNodeCrossing leg ns s =
      .next ((s.reach (t0 + ceilDiv ns 4)).onLg leg.val fun x => { x with crossed := some (t0 + ceilDiv ns 4) }) := by
  rw [execNodeCrossing, coming]
  exact (if_neg (by simp [up]; omega)).trans (if_neg (by simp [fixed]))

theorem nodeCrossing_adapts {leg : LegIx} {rise : Bool} {t0 ns : Nat} (up : s.up = true) (coming : (s.lg leg.val).incoming = some (rise, t0))
    (inTime : t0 + ceilDiv ns 4 ≤ t0 + legDtMax (s.legUse leg.val) leg.val) (adapt : legAdapt (s.legUse leg.val) leg.val = true) :
    execNodeCrossing leg ns s = .next (s.endDead leg.val rise t0 (max (t0 + fld (legDead (s.legUse leg.val) leg.val) 15 8)
      (min (t0 + ceilDiv ns 4 + fld (legDead (s.legUse leg.val) leg.val) 21 16) (t0 + legDtMax (s.legUse leg.val) leg.val))) false) := by
  rw [execNodeCrossing, coming]
  exact (if_neg (by simp [up]; omega)).trans (if_pos adapt)

end

/-- Settles O24. -/
theorem legSwitching : Obligations.LegSwitching := by
  refine ⟨fun leg s whole up grid mode => ?reloads, fun leg s whole up => ?edges⟩
  case reloads =>
    intro x sh
    have present := leg_present whole leg
    refine ⟨fun live => ?_, fun drive => ?_⟩
    · have run : exec (.pwmSnapshot leg) s = execPwmSnapshot leg s := rfl
      rw [execPwmSnapshot, if_neg (by simp [up, grid, mode, show (s.lg leg.val).snapshot = none from live])] at run
      refine ⟨_, run, ⟨rfl, ?_⟩, State.onLg_only (State.reach_only (Only.refl _ _) rfl) rfl⟩
      exact lg_onLg_same present
    · have ready : (!s.up || !s.time.grid || legMode (if leg.val < 12 then s.force else s.legUse leg.val) leg.val == 0) = false := by
        simp [up, grid, mode]
      have frame {t : State} (run : execPwmReload leg s = .next t) : Only [.regs, .time, .host, .mgr, .legs, .trace, .log] s t :=
        onlyN_get (execPwmReload_only (Only.refl _ s) rfl) run
      by_cases internal : leg.val < 12
      · have run : execPwmReload leg s = .next ((s.reach (s.reloadAt leg.val)).withNew leg.val fun s => s.takeShadow leg.val) := by
          rw [execPwmReload, if_neg (by rw [ready]; decide), if_pos internal]
        refine ⟨_, run, ⟨?_, reload_internal present⟩, frame run⟩
        exact withNew_takeShadow_only (Only.refl _ (s.reach (s.reloadAt leg.val))) .time (by decide)
      · obtain ⟨t, run, time, taken⟩ := reload_external ready internal (drive.resolve_left internal) present
        refine ⟨t, run, ⟨?_, taken⟩, frame run⟩
        rw [time, State.reloadAt, if_neg internal]
  case edges =>
    intro x c free
    have present := leg_present whole leg
    have unheld (rise : Bool) (h : free) : Unheld s leg.val rise ∧ (s.lg leg.val).gateOff = false := by
      obtain ⟨wait, cross, retired, gate, holdH, holdL, bsuv, cpuv, retry⟩ := h
      refine ⟨⟨wait, cross, retired, retry, ?_⟩, gate⟩
      cases rise
      · exact holdL
      · exact ⟨holdH, bsuv, cpuv⟩
    refine ⟨fun rise t0 rest external plan gate wait func => ?_, fun rise t0 coming => ⟨?_, fun ns inTime fixed => ?_, fun ns inTime adapt => ?_⟩⟩
    · let planned := (s.reach t0).onLg leg.val fun x => { x with plan := rest }
      have planned_ : planned.lg leg.val = { s.lg leg.val with plan := rest } := lg_onLg_same (s := s.reach t0) present
      have run : exec (.externalLegEdge leg rise) s = .next (planned.legEdge leg.val rise t0) := by
        show execExternalLegEdge leg rise s = _
        rw [execExternalLegEdge, show (s.lg leg.val).plan = _ from plan]
        exact if_pos (by simp [up, external])
      have use : planned.legUse leg.val = c := by
        rw [State.legUse, planned_]
        rfl
      rw [State.legEdge, use, if_neg (by simp [planned_, gate, wait, x]), if_neg (fun h => func h.2)] at run
      refine ⟨_, run, ⟨rfl, ?_⟩, State.onLg_only (State.onLg_only (State.reach_only (Only.refl _ _) rfl) rfl) rfl⟩
      rw [lg_onLg_same (onLg_length (s := s.reach t0) present), planned_]
    · obtain ⟨hard, run⟩ := deadtimeExpiry_runs up coming
      obtain ⟨time, incoming, dead, on⟩ := endDead_ends (rise := rise) (hard := hard) (t0 := t0) (on := t0 + legDtMax c leg.val) present
      refine ⟨_, run, ⟨time, incoming, dead.trans (by rw [Nat.add_sub_cancel_left]), fun h => ?_⟩,
        onlyN_get (execDeadtimeExpiry_only (Only.refl _ s) rfl) run⟩
      rw [time]
      exact on (unheld rise h).1 (unheld rise h).2
    · refine ⟨_, nodeCrossing_fixed up coming inTime fixed, ?_, State.onLg_only (State.reach_only (Only.refl _ _) rfl) rfl⟩
      exact lg_onLg_same (s := s.reach _) present
    · have run := nodeCrossing_adapts up coming inTime adapt
      obtain ⟨time, incoming, dead, on⟩ := endDead_ends (s := s) (rise := rise) (hard := false) (t0 := t0)
        (on := max (t0 + fld (legDead c leg.val) 15 8) (min (t0 + ceilDiv ns 4 + fld (legDead c leg.val) 21 16) (t0 + legDtMax c leg.val))) present
      exact ⟨_, run, ⟨time, incoming, dead, fun h => (on (unheld rise h).1 (unheld rise h).2).1⟩,
        onlyN_get (execNodeCrossing_only (Only.refl _ s) rfl) run⟩

end Sys2Proof.Machine
end


section

/-! PROOF. The power-die link and the protection of the switches (R249 to R265). -/

namespace Sys2Proof.Machine

open Sys2Proof.Safety Sys2Proof.Claims

/-! What an event at once on all axes leaves of a leg that it does not turn on. -/

section

variable {s t : State} {l : Nat}

/-- A property of a leg that its gates' removal keeps. -/
def OutlivesOff (P : LegSt → Prop) : Prop := ∀ x, P x → P { x with hsOn := false, lsOn := false, incoming := none, gateOff := true }

/-- A property of a leg that its retirement and its retry keep. -/
def OutlivesRetry (P : LegSt → Prop) : Prop := ∀ x b, P x → P { x with retry := b } ∧ P { x with retired := true, retry := b }

variable {P : LegSt → Prop} (off : OutlivesOff P)
include off

omit off in
theorem leg_keep (e : t.legs = s.legs) (h : P (s.lg l)) : P (t.lg l) := by rw [lg_of_legs e]; exact h

theorem legOff_leg {j : Nat} (h : P (s.lg l)) : P ((s.legOff j).lg l) := onLg_keeps off h

theorem stoNow_leg {a : Nat} (h : P (s.lg l)) : P ((s.stoNow a).lg l) := by
  unfold State.stoNow
  extract_lets out
  have gates : P ((s.gatesOff a).lg l) := by
    unfold State.gatesOff
    exact forL_ind (P := fun t => P (t.lg l)) (fun _ _ k => legOff_leg off k) _ h
  rw [lg_only (forL_only (fs := [.axes, .timers]) (fun _ _ h => State.stopT_only h rfl)
    (State.onAx_only (State.sbcIssue_only (Only.refl _ (s.gatesOff a)) rfl) rfl)) (by decide)]
  exact gates

theorem raiseNow_leg {src a : Nat} (h : P (s.lg l)) : P ((s.raiseNow src a).lg l) := by
  unfold State.raiseNow
  split
  · exact h
  · refine forL_ind (P := fun t => P (t.lg l)) (fun b t k => ?_) _ ?_
    · split
      · exact k
      · split
        · exact k
        · rw [lg_only (State.pushReact_only (Only.refl [.axes] (t.stoNow b)) rfl) (by decide)]
          exact stoNow_leg off k
      · rw [lg_only (State.pushReact_only (Only.refl [.axes] t) rfl) (by decide)]
        exact k
    · rw [lg_only (State.noteSrc_only (Only.refl [.regs, .trace, .log, .safety] s) rfl) (by decide)]
      exact h

variable (retry : OutlivesRetry P)
include retry

theorem retire_leg {cls idx : Nat} (lane : cls ≠ 5) (h : P (s.lg l)) : P ((s.retire cls idx).lg l) := by
  unfold State.retire
  split
  · exact h
  · extract_lets noted logged void
    have void_ : P (void.lg l) := by
      rw [lg_only (State.voidProof_only (State.logAdd_only (State.onChan_only (Only.refl [.chans, .stage, .regs, .trace, .log] s) rfl) rfl)
        rfl) (by decide)]
      exact h
    have last {t u : State} (k : P (u.lg l)) (e : t.legs = u.legs) : P (t.startReproof.lg l) := by
      rw [lg_only (State.startReproof_only (Only.refl [.stage] t) rfl) (by decide), lg_of_legs e]
      exact k
    have taken : P (((void.legOff idx).onLg idx fun x => { x with retired := true, retry := false }).lg l) :=
      onLg_keeps (fun x k => (retry x false k).2) (legOff_leg off void_)
    split
    · exact last void_ rfl
    · exact last taken rfl
    · exact last taken rfl
    · exact absurd rfl lane
    · exact last void_ rfl
    · exact last void_ rfl
    · exact last void_ rfl

theorem onset_leg {cls idx : Nat} (lane : cls ≠ 5) (h : P (s.lg l)) : P ((s.onset cls idx).lg l) := by
  unfold State.onset State.onsetWith
  split
  · exact h
  · extract_lets ons counted till
    split
    · exact retire_leg off retry lane h
    · have counted_ : P ((counted.onChan cls idx fun x => { x with retry := some till }).lg l) := leg_keep (s := s) rfl h
      unfold State.intoRetry
      split
      · exact leg_keep (s := s) rfl h
      · exact onLg_keeps (fun x k => (retry x true k).1) counted_
      · exact onLg_keeps (fun x k => (retry x true k).1) counted_
      · exact leg_keep (s := s) rfl h
      · exact counted_

end

/-! Counters of CRC errors and trips. -/

section

variable {s t : State} {p o : Nat}

theorem reads_incHalf_lower (h : MapOk s.regs) : Reads p o (countUp (s.lv p o)) (s.incHalf p o false) :=
  ⟨MapOk.set h, State.lv_setLv_same h⟩

theorem reads_incHalf_upper (h : MapOk s.regs) : Reads p o (countUpHigh (s.lv p o)) (s.incHalf p o true) :=
  ⟨MapOk.set h, State.lv_setLv_same h⟩

theorem crcCount_aside : Aside pgPlink PLINK.CRC_COUNT := by decide

theorem event_flags {bits i : Nat} (ok : MapOk s.regs) (bit : (nw bits).toNat.testBit i = true) : Up (s.event p bits) (s.event p bits) ∧
    Flagged (s.event p bits) p i := ⟨Up.refl (Up.event (Up.refl ok)).ok, event_sets ok bit⟩

/-! Links. -/

theorem down_good {f : BitVec 40} {ty : Nat} {run : State → State} (linked : s.linked = true) (crc : plCrcOk f = true) (type : plType f = ty) :
    s.down f ty run = .next (run (s.onPdie fun x => { x with dnOk := true })) := by
  simp [State.down, linked, crc, type]

theorem down_bad {f : BitVec 40} {ty : Nat} {run : State → State} (linked : s.linked = true) (bad : plCrcOk f = false ∨ plType f ≠ ty) :
    s.down f ty run = .next s.downFail := by
  rcases bad with crc | type
  · simp [State.down, linked, crc]
  · simp [State.down, linked, type]

theorem uplink_good {f : BitVec 40} {ty : Nat} {run : State → State} (linked : s.linked = true) (crc : plCrcOk f = true)
    (type : plType f = ty) : s.uplink f ty run = .next (run (s.onPdie fun x => { x with upOk := true })) := by
  simp [State.uplink, linked, crc, type]

theorem uplink_bad {f : BitVec 40} {ty : Nat} {run : State → State} (linked : s.linked = true) (bad : plCrcOk f = false ∨ plType f ≠ ty) :
    s.uplink f ty run = .next s.upFail := by
  rcases bad with crc | type
  · simp [State.uplink, linked, crc]
  · simp [State.uplink, linked, type]

/-- A failed uplink frame is counted and flagged. -/
theorem upFail_leaves (ok : MapOk s.regs) : s.upFail.pdie = { s.pdie with upOk := false } ∧ Flagged s.upFail pgPlink 6 ∧
    s.upFail.lv pgPlink PLINK.CRC_COUNT = countUp (s.lv pgPlink PLINK.CRC_COUNT) := by
  have counted := reads_incHalf_lower (p := pgPlink) (o := PLINK.CRC_COUNT) ok
  have only : Only [.regs, .trace] s ((s.incHalf pgPlink PLINK.CRC_COUNT false).event pgPlink 0x40) :=
    State.event_only (State.incHalf_only (Only.refl _ _) rfl) rfl
  have pdie : ((s.incHalf pgPlink PLINK.CRC_COUNT false).event pgPlink 0x40).pdie = s.pdie := only .pdie (by decide)
  refine ⟨?_, flagged_of_regs (event_sets counted.1 (by decide)) rfl, (counted.event crcCount_aside).2⟩
  rw [State.upFail, ← pdie]
  rfl

/-- A leg that the failed downlink turned off until its next EDGE. -/
def WaitsEdge (x : LegSt) : Prop := x.hsOn = false ∧ x.lsOn = false ∧ x.incoming = none ∧ x.waitEdge = true

/-- The switching internal legs turned off until their next EDGE. -/
def edgesGone (s : State) : State :=
  forN 12 (fun l s =>
    if (s.lg l).gateOff then s else s.onLg l fun x => { x with hsOn := false, lsOn := false, incoming := none, waitEdge := true }) s

theorem downFail_eq : s.downFail =
    (((edgesGone s).incHalf pgPlink PLINK.CRC_COUNT true).event pgPlink 0x80).onPdie fun x => { x with dnOk := false } := rfl

theorem edgesGone_only : Only [.legs] s (edgesGone s) := forN_only (fun _ _ h => only_ite h (State.onLg_only h rfl)) (Only.refl _ _)

theorem edgesGone_waits (legs : s.legs.length = 32) {l : Nat} (low : l < 12) (driving : (s.lg l).gateOff = false) :
    WaitsEdge ((edgesGone s).lg l) := by
  refine forL_reaches (I := fun t => t.legs.length = 32 ∧ (t.lg l).gateOff = false) (P := fun t => WaitsEdge (t.lg l))
    (List.mem_range.mpr low) ?_ ?_ ?_ ⟨legs, driving⟩
  · rintro j t ⟨len, gate⟩
    split
    · exact ⟨len, gate⟩
    · exact ⟨(List.length_modify ..).trans len, onLg_keeps (P := fun x => x.gateOff = false) (fun _ h => h) gate⟩
  · rintro t ⟨len, gate⟩
    rw [if_neg (by simp [gate]), lg_onLg_same (by omega)]
    exact ⟨rfl, rfl, rfl, rfl⟩
  · intro j t waits
    split
    · exact waits
    · exact onLg_keeps (P := WaitsEdge) (fun _ ⟨_, _, _, waits⟩ => ⟨rfl, rfl, rfl, rfl⟩) waits

/-- A failed downlink frame turns the switching internal legs off, and is counted and flagged (R252). -/
theorem downFail_leaves (whole : Whole s) : s.downFail.pdie = { s.pdie with dnOk := false } ∧ Flagged s.downFail pgPlink 7 ∧
    s.downFail.lv pgPlink PLINK.CRC_COUNT = countUpHigh (s.lv pgPlink PLINK.CRC_COUNT) ∧
    (∀ l < 12, (s.lg l).gateOff = false → WaitsEdge (s.downFail.lg l)) := by
  rw [downFail_eq]
  have regs : (edgesGone s).regs = s.regs := edgesGone_only .regs (by decide)
  have pdie : (edgesGone s).pdie = s.pdie := edgesGone_only .pdie (by decide)
  have waits (l : Nat) (low : l < 12) (driving : (s.lg l).gateOff = false) := edgesGone_waits (legs_length whole) low driving
  generalize edgesGone s = gone at *
  have ok : MapOk gone.regs := regs ▸ whole.regs
  have counted := reads_incHalf_upper (p := pgPlink) (o := PLINK.CRC_COUNT) ok
  have after : Only [.regs, .trace] gone ((gone.incHalf pgPlink PLINK.CRC_COUNT true).event pgPlink 0x80) :=
    State.event_only (State.incHalf_only (Only.refl _ _) rfl) rfl
  have pdie' : ((gone.incHalf pgPlink PLINK.CRC_COUNT true).event pgPlink 0x80).pdie = gone.pdie := after .pdie (by decide)
  refine ⟨?_, flagged_of_regs (event_sets counted.1 (by decide)) rfl, ?_, fun l low driving => ?_⟩
  · rw [← pdie, ← pdie']
    rfl
  · rw [← lv_of_regs regs]
    exact (counted.event crcCount_aside).2
  · rw [lg_only (State.onPdie_only (Only.refl [.pdie] _) rfl) (by decide), lg_only after (by decide)]
    exact waits l low driving

end

end Sys2Proof.Machine
end


section

/-! PROOF. Frames of the power-die link and its loss (R249 to R253, R263, R265, R271). -/

namespace Sys2Proof.Machine

open Sys2Proof.Safety Sys2Proof.Claims

section

variable {s t : State} {l : Nat}

theorem plinkSync_down (f : BitVec 40) (s : State) : exec (.plinkSync f) s =
    s.down f 1 fun s => s.onPdie fun x => { x with lastSync := BitVec.ofNat 28 (plFld f 35 8) } := rfl

theorem plinkSet_down (f : BitVec 40) (s : State) : exec (.plinkSet f) s = s.down f 2 fun s => s.onPdie fun x =>
    { x with settings := mapPut x.settings (plFld f 35 24) (BitVec.ofNat 16 (plFld f 23 8)) } := rfl

theorem plinkHk_uplink (f : BitVec 40) (s : State) : exec (.plinkHk f) s =
    s.uplink f 6 fun s => s.onHk fun x => { x with pwr := mapPut x.pwr (plFld f 35 30) (plFld f 29 8) } := rfl

/-- What a good EDGE does (R251). -/
def edgeTaken (f : BitVec 40) (s : State) : State :=
  let l := plFld f 35 32
  let d := (plFld f 28 8 + 2 ^ 21 - s.now % 2 ^ 21) % 2 ^ 21
  if 12 ≤ l then s
  else if d = 0 ∨ 2 ^ 20 < d ∨ 32 ≤ (s.lg l).queue.length then
    (s.onLg l fun x => { x with hsOn := false, lsOn := false, incoming := none, waitEdge := true }).event pgPlink 0x2000
  else s.onLg l fun x => { x with queue := insertEdge x.queue { rise := plFld f 31 31 == 1, tick := s.now + d }, waitEdge := false }

theorem plinkEdge_down (f : BitVec 40) (s : State) : exec (.plinkEdge f) s = s.down f 3 (edgeTaken f) := rfl

/-- What a good LEGSTAT does. -/
def legstatTaken (f : BitVec 40) (s : State) : State :=
  let l := plFld f 35 32
  if 12 ≤ l then s
  else
    let s := s.onLg l fun x => { x with dtRise := plFld f 27 18, dtFall := plFld f 17 8 }
    if plFld f 29 29 = 1 then s.bsuvOn l else s.onLg l fun x => { x with bsuv := false }

theorem legstat_uplink (f : BitVec 40) (s : State) : exec (.legstat f) s = s.uplink f 4 (legstatTaken f) := rfl

/-- What a good DCL does. -/
def dclTaken (f : BitVec 40) (s : State) : State :=
  let s := forN 4 (fun n s => s.dclChange n (plFld f (32 + n) (32 + n) == 1)) s
  let s := ((s.vinSet (plFld f 31 31 == 1)).vgdSet (plFld f 30 30 == 1)).cpuvSet (plFld f 29 29 == 1)
  s.setLv pgPlink PLINK.VIN_MV (nw (4 * plFld f 23 8))

theorem dcl_uplink (f : BitVec 40) (s : State) : exec (.dcl f) s = s.uplink f 5 (dclTaken f) := rfl

theorem diag_uplink (f : BitVec 40) (s : State) : exec (.diag f) s =
    s.uplink f 7 fun s => s.onLv pgPlink PLINK.PRECHECK_RESULT fun r => putFld r 27 0 (plFld f 35 8) := rfl

/-- A bootstrap supply that fails turns the high side off alone, and is flagged (R259). -/
theorem bsuvOn_leaves (ok : MapOk s.regs) (legs : s.legs.length = 32) (low : l < 12) (good : (s.lg l).bsuv = false)
    (boot : legPump s.force l = false) : (s.bsuvOn l).lg l = { s.lg l with bsuv := true, hsOn := false, watchH := false } ∧
      Flagged (s.bsuvOn l) (pgGd (l / 6)) (8 + l % 6) ∧ Only [.regs, .legs, .trace] s (s.bsuvOn l) := by
  have eq : s.bsuvOn l = ((s.onLg l fun x => { x with bsuv := true, hsOn := false, watchH := false }).incHalf (pgGd (l / 6))
      (GD.TRIP_COUNT (l % 6)) true).event (pgGd (l / 6)) (2 ^ (8 + l % 6)) := if_neg (by simp [good, boot]; omega)
  rw [eq]
  have counted := reads_incHalf_upper (s := s.onLg l fun x => { x with bsuv := true, hsOn := false, watchH := false })
    (p := pgGd (l / 6)) (o := GD.TRIP_COUNT (l % 6)) ok
  refine ⟨?_, event_sets counted.1 (nw_twoPow (by omega)), State.event_only (State.incHalf_only (State.onLg_only (Only.refl _ _) rfl) rfl) rfl⟩
  rw [lg_only (State.event_only (State.incHalf_only (Only.refl [.regs, .trace] (s.onLg l _)) rfl) rfl) (by decide)]
  exact lg_onLg_same (by omega)

/-- The twelve internal legs off. -/
theorem internalOff_off (legs : s.legs.length = 32) (low : l < 12) : LegIsOff s.internalOff l := forN_legOff low (by omega)

/-- The comparator bits after comparator n has reported. -/
def dclAfter (s : State) (n : Nat) (on : Bool) : BitVec 4 :=
  if !bt (s.cf pgPlink (PLINK.DCL_CFG n)) 31 || s.pdie.dcl.toNat.testBit n == on then s.pdie.dcl
  else if on then s.pdie.dcl ||| BitVec.ofNat 4 (2 ^ n) else s.pdie.dcl &&& ~~~(BitVec.ofNat 4 (2 ^ n))

/-- What a comparator's report leaves: the other comparators, the supplies and the link. -/
theorem dclChange_pdie {n : Nat} {on : Bool} : (s.dclChange n on).pdie = { s.pdie with dcl := dclAfter s n on } := by
  unfold State.dclChange
  extract_lets noted flagged
  unfold dclAfter
  split
  · rfl
  · have flagged_ : flagged.pdie = noted.pdie := State.event_only (Only.refl [.regs, .trace] noted) rfl .pdie (by decide)
    have noted_ : noted.pdie = { s.pdie with dcl := if on then s.pdie.dcl ||| BitVec.ofNat 4 (2 ^ n)
        else s.pdie.dcl &&& ~~~(BitVec.ofNat 4 (2 ^ n)) } := rfl
    clear_value flagged
    split
    · exact flagged_.trans noted_
    · split
      · exact (State.turnOn_only (State.onLg_only (Only.refl [.legs, .chans] flagged) rfl) rfl .pdie (by decide)).trans (flagged_.trans noted_)
      · exact flagged_.trans noted_

theorem mask_bit {n m : Nat} (low : m < 4) : (BitVec.ofNat 4 (2 ^ n)).getLsbD m = decide (n = m) := by
  rw [BitVec.getLsbD_ofNat, Nat.testBit_two_pow]
  simp [low]

theorem dclAfter_same {n : Nat} {on : Bool} (low : n < 4) (enabled : bt (s.cf pgPlink (PLINK.DCL_CFG n)) 31 = true) :
    (dclAfter s n on).toNat.testBit n = on := by
  unfold dclAfter
  split
  · next h => simpa [enabled] using h
  · show BitVec.getLsbD _ n = on
    cases on
    · simp only [Bool.false_eq_true, if_false, BitVec.getLsbD_and, BitVec.getLsbD_not, mask_bit low, decide_true, Bool.not_true,
        Bool.and_false]
    · simp only [if_true, BitVec.getLsbD_or, mask_bit low, decide_true, Bool.or_true]

theorem dclAfter_other {n m : Nat} {on : Bool} (low : m < 4) (ne : m ≠ n) :
    (dclAfter s n on).toNat.testBit m = s.pdie.dcl.toNat.testBit m := by
  unfold dclAfter
  split
  · rfl
  · show BitVec.getLsbD _ m = BitVec.getLsbD _ m
    cases on
    · simp only [Bool.false_eq_true, if_false, BitVec.getLsbD_and, BitVec.getLsbD_not, mask_bit low, ne.symm, decide_false, Bool.not_false,
        low, decide_true, Bool.and_true]
    · simp only [if_true, BitVec.getLsbD_or, mask_bit low, ne.symm, decide_false, Bool.or_false]

/-- A leg of a lost link: off, with nothing queued, until its next EDGE. -/
def LinkLost (x : LegSt) : Prop := x.hsOn = false ∧ x.lsOn = false ∧ x.incoming = none ∧ x.queue = [] ∧ x.waitEdge = true

/-- The queues of the internal legs emptied. -/
def queuesGone (s : State) : State := forN 12 (fun l s => s.onLg l fun x => { x with queue := [], waitEdge := true }) s

theorem queuesGone_only : Only [.legs] s (queuesGone s) := forN_only (fun _ _ h => State.onLg_only h rfl) (Only.refl _ _)

theorem queuesGone_lost (legs : s.legs.length = 32) (low : l < 12) (off : LegIsOff s l) : LinkLost ((queuesGone s).lg l) := by
  refine forL_reaches (I := fun t => t.legs.length = 32 ∧ LegIsOff t l) (P := fun t => LinkLost (t.lg l))
    (List.mem_range.mpr low) ?_ ?_ ?_ ⟨legs, off⟩
  · rintro j t ⟨len, off⟩
    exact ⟨(List.length_modify ..).trans len, onLg_legOff (fun _ => ⟨rfl, rfl, rfl⟩) off⟩
  · rintro t ⟨len, hs, ls, incoming⟩
    rw [lg_onLg_same (by omega)]
    exact ⟨hs, ls, incoming, rfl, rfl⟩
  · intro j t lost
    exact onLg_keeps (P := LinkLost) (fun _ ⟨hs, ls, incoming, _, _⟩ => ⟨hs, ls, incoming, rfl, rfl⟩) lost

theorem linkLost_off : OutlivesOff LinkLost := fun _ ⟨_, _, _, queue, wait⟩ => ⟨rfl, rfl, rfl, queue, wait⟩

theorem plinkLost_runs (linked : s.linked = true) (locked : s.time.plinkLock = true) : exec .plinkLost s =
    .next ((((queuesGone (s.internalOff.onTime fun t => { t with plinkLock := false })).onPdie fun x => { x with upOk := false, dnOk := false }).event
      pgPlink 0x20).pfault pgPlink 1 |>.raiseNow srcPlink 16) :=
  if_neg (by simp [linked, locked])

theorem plinkLost_leaves (whole : Whole s) :
    let t := ((((queuesGone (s.internalOff.onTime fun t => { t with plinkLock := false })).onPdie
      fun x => { x with upOk := false, dnOk := false }).event pgPlink 0x20).pfault pgPlink 1 |>.raiseNow srcPlink 16)
    t.time = { s.time with plinkLock := false } ∧ t.pdie = { s.pdie with upOk := false, dnOk := false } ∧ Flagged t pgPlink 5 ∧
      t.srcOn srcPlink 16 = true ∧ ∀ l < 12, LinkLost (t.lg l) := by
  have off : Only [.legs] s s.internalOff := State.internalOff_only (Only.refl _ _) rfl
  have lost (l : Nat) (low : l < 12) : LinkLost ((queuesGone (s.internalOff.onTime fun t => { t with plinkLock := false })).lg l) :=
    queuesGone_lost (s := s.internalOff.onTime fun t => { t with plinkLock := false })
      (show s.internalOff.legs.length = 32 from legs_length ((State.internalOff_kept (Kept.refl s)).whole whole)) low
      (legIsOff_congr (internalOff_off (legs_length whole) low) rfl)
  have gone_ := queuesGone_only (s := s.internalOff.onTime fun t => { t with plinkLock := false })
  generalize queuesGone (s.internalOff.onTime fun t => { t with plinkLock := false }) = gone at *
  have regs : gone.regs = s.regs := (gone_ .regs (by decide)).trans (off .regs (by decide))
  have time : gone.time = { s.time with plinkLock := false } := (gone_ .time (by decide)).trans
    (congrArg (fun x : TimeSt => { x with plinkLock := false }) (off .time (by decide)))
  have pdie : gone.pdie = s.pdie := (gone_ .pdie (by decide)).trans (off .pdie (by decide))
  let linkless := gone.onPdie fun x => { x with upOk := false, dnOk := false }
  have ok : MapOk linkless.regs := regs ▸ whole.regs
  extract_lets t
  have after : Only [.regs, .trace, .axes, .mots, .legs, .safety, .log, .timers] linkless t :=
    State.raiseNow_only (State.pfault_only (State.event_only (Only.refl _ _) rfl) rfl) rfl
  obtain ⟨up, flagged⟩ := event_flags (p := pgPlink) (bits := 0x20) (i := 5) ok (by decide)
  refine ⟨(after .time (by decide)).trans time, ?_, (rising_up.raiseNow (rising_up.fault up)).bits _ _ flagged, raiseNow_on, fun l low => ?_⟩
  · exact (after .pdie (by decide)).trans (congrArg (fun x : PowerDieSt => { x with upOk := false, dnOk := false }) pdie)
  · refine raiseNow_leg linkLost_off ?_
    rw [lg_only (State.pfault_only (State.event_only (Only.refl [.regs, .trace] linkless) rfl) rfl) (by decide)]
    exact lost l low

/-- A supply's report leaves the other flags. -/
theorem vinSet_pdie {on : Bool} : (s.vinSet on).pdie = { s.pdie with vinOv := on } := by
  unfold State.vinSet
  split
  · next same => rw [same]
  · cases on
    · rfl
    · exact State.raiseNow_only (State.pfault_only (State.event_only (State.internalOff_only (Only.refl [.regs, .axes, .mots, .legs, .safety,
        .trace, .log, .timers] (s.onPdie fun x => { x with vinOv := true })) rfl) rfl) rfl) rfl .pdie (by decide)

theorem vgdSet_pdie {on : Bool} : (s.vgdSet on).pdie = { s.pdie with vgdUv := on } := by
  unfold State.vgdSet
  split
  · next same => rw [same]
  · cases on
    · rfl
    · exact State.raiseNow_only (State.pfault_only (State.event_only (State.internalOff_only (Only.refl [.regs, .axes, .mots, .legs, .safety,
        .trace, .log, .timers] (s.onPdie fun x => { x with vgdUv := true })) rfl) rfl) rfl) rfl .pdie (by decide)

theorem cpuvSet_pdie {on : Bool} : (s.cpuvSet on).pdie = { s.pdie with cpuv := on } := by
  unfold State.cpuvSet
  split
  · next same => rw [same]
  · cases on
    · rfl
    · exact State.raise_only (forN_only (fun _ _ h => only_ite (State.onLg_only h rfl) h) (State.event_only (Only.refl [.regs, .axes, .legs,
        .safety, .trace, .log] (s.onPdie fun x => { x with cpuv := true })) rfl)) rfl .pdie (by decide)

theorem cf_only {fs : List Part} (h : Only fs s t) (out : .cfg ∉ fs) {p o : Nat} : t.cf p o = s.cf p o := by
  rw [State.cf, show t.cfg = s.cfg from h .cfg out]
  rfl

theorem dclChange_cf {n m : Nat} {on : Bool} : (s.dclChange m on).cf pgPlink (PLINK.DCL_CFG n) = s.cf pgPlink (PLINK.DCL_CFG n) :=
  cf_only (State.dclChange_only (Only.refl [.regs, .legs, .pdie, .trace, .chans] s) rfl) (by decide)

theorem dclTaken_leaves (f : BitVec 40) (whole : Whole s) : (dclTaken f s).pdie.upOk = s.pdie.upOk ∧
    (dclTaken f s).pdie.vinOv = (plFld f 31 31 == 1) ∧ (dclTaken f s).pdie.vgdUv = (plFld f 30 30 == 1) ∧
    (dclTaken f s).pdie.cpuv = (plFld f 29 29 == 1) ∧ (dclTaken f s).lv pgPlink PLINK.VIN_MV = nw (4 * plFld f 23 8) ∧
    ∀ n < 4, bt (s.cf pgPlink (PLINK.DCL_CFG n)) 31 = true → (dclTaken f s).pdie.dcl.toNat.testBit n = (plFld f (32 + n) (32 + n) == 1) := by
  unfold dclTaken
  extract_lets changed supplied
  have link : changed.pdie.upOk = s.pdie.upOk := forN_ind (P := fun t => t.pdie.upOk = s.pdie.upOk)
    (fun n t h => (congrArg PowerDieSt.upOk dclChange_pdie).trans h) rfl
  have bits (n : Nat) (low : n < 4) (enabled : bt (s.cf pgPlink (PLINK.DCL_CFG n)) 31 = true) :
      changed.pdie.dcl.toNat.testBit n = (plFld f (32 + n) (32 + n) == 1) := by
    refine forL_reaches (I := fun t => bt (t.cf pgPlink (PLINK.DCL_CFG n)) 31 = true)
      (P := fun t => t.pdie.dcl.toNat.testBit n = (plFld f (32 + n) (32 + n) == 1) ∧ bt (t.cf pgPlink (PLINK.DCL_CFG n)) 31 = true)
      (List.mem_range.mpr low) (fun j t on => ?_) (fun t on => ⟨?_, ?_⟩) (fun j t ⟨bit, on⟩ => ⟨?_, ?_⟩) enabled |>.1
    · rw [dclChange_cf]
      exact on
    · rw [dclChange_pdie]
      exact dclAfter_same low on
    · rw [dclChange_cf]
      exact on
    · rw [dclChange_pdie]
      by_cases same : n = j
      · subst same
        exact dclAfter_same low on
      · exact (dclAfter_other low same).trans bit
    · rw [dclChange_cf]
      exact on
  have supplied_ : supplied.pdie = { changed.pdie with
      vinOv := plFld f 31 31 == 1, vgdUv := plFld f 30 30 == 1, cpuv := plFld f 29 29 == 1 } := by
    rw [show supplied.pdie = _ from cpuvSet_pdie, vgdSet_pdie, vinSet_pdie]
  have ok' : MapOk supplied.regs := ((State.cpuvSet_kept (State.vgdSet_kept (State.vinSet_kept (forN_kept
    (fun _ _ h => State.dclChange_kept h) (Kept.refl s))))).whole whole).regs
  refine ⟨(congrArg PowerDieSt.upOk supplied_).trans link, congrArg PowerDieSt.vinOv supplied_, congrArg PowerDieSt.vgdUv supplied_,
    congrArg PowerDieSt.cpuv supplied_, State.lv_setLv_same ok', fun n low enabled => ?_⟩
  exact (congrArg (fun x : PowerDieSt => x.dcl.toNat.testBit n) supplied_).trans (bits n low enabled)

theorem plinkLinkUp_runs {d : BitVec 16} (linked : s.linked = true) (lost : s.time.plinkLock = false) : exec (.plinkLinkUp d) s =
    .next ((((s.onTime fun t => { t with plinkLock := true }).onPdie fun x => { x with delay := d, upOk := true, dnOk := true }).event
      pgPlink 0x10).clearSrc srcPlink 16) :=
  if_neg (by simp [linked, lost])

end

/-- Settles O25. -/
theorem powerDieLink : Obligations.PowerDieLink := by
  refine ⟨fun s whole linked => ?down, fun s whole linked => ?uplink, fun s whole linked => ?link⟩
  case down =>
    refine ⟨fun f crc type => (plinkSync_down f s).trans (down_good linked crc type), fun f crc type => (plinkSet_down f s).trans
        (down_good linked crc type), fun f crc type => down_good linked crc type,
      fun f crc type low => ⟨fun ahead close room => ?_, fun bad => ?_⟩, fun f c row => ?_⟩
    · let noted := s.onPdie fun x => { x with dnOk := true }
      let e : QEdge := { rise := plFld f 31 31 == 1, tick := s.now + (plFld f 28 8 + 2 ^ 21 - s.now % 2 ^ 21) % 2 ^ 21 }
      have run : exec (.plinkEdge f) s =
          .next (noted.onLg (plFld f 35 32) fun x => { x with queue := insertEdge x.queue e, waitEdge := false }) := by
        rw [plinkEdge_down, down_good linked crc type]
        refine congrArg _ ((if_neg (by omega)).trans (if_neg ?_))
        rintro (none | far | full)
        · exact absurd none (Nat.ne_of_gt ahead)
        · exact absurd close (Nat.not_le.mpr far)
        · exact absurd room (Nat.not_lt.mpr full)
      exact ⟨_, run, ⟨rfl, lg_onLg_same (s := noted) (by rw [legs_length (s := noted) ((State.onPdie_kept (Kept.refl s)).whole whole)]; omega)⟩,
        State.onLg_only (State.onPdie_only (Only.refl _ _) rfl) rfl⟩
    · let noted := s.onPdie fun x => { x with dnOk := true }
      let off := noted.onLg (plFld f 35 32) fun x => { x with hsOn := false, lsOn := false, incoming := none, waitEdge := true }
      have run : exec (.plinkEdge f) s = .next (off.event pgPlink 0x2000) := by
        rw [plinkEdge_down, down_good linked crc type]
        exact congrArg _ ((if_neg (by omega)).trans (if_pos bad))
      have off_ : off.lg (plFld f 35 32) = { s.lg (plFld f 35 32) with hsOn := false, lsOn := false, incoming := none, waitEdge := true } :=
        lg_onLg_same (s := noted) (by rw [legs_length (s := noted) ((State.onPdie_kept (Kept.refl s)).whole whole)]; omega)
      have after : (off.event pgPlink 0x2000).lg (plFld f 35 32) = off.lg (plFld f 35 32) :=
        lg_only (State.event_only (Only.refl [.regs, .trace] off) rfl) (by decide)
      refine ⟨_, run, ⟨?_, ?_, event_sets (s := off) whole.regs (by decide)⟩,
        State.event_only (State.onLg_only (State.onPdie_only (Only.refl _ _) rfl) rfl) rfl⟩
      · rw [LegIsOff, after, off_]
        exact ⟨rfl, rfl, rfl⟩
      · rw [after, off_]
    · obtain ⟨ty, run, taken, bad⟩ : ∃ ty run, exec c s = s.down f ty run ∧ (plCrcOk f = false ∨ plType f ≠ ty) := by
        rcases row with ⟨rfl, type⟩ | ⟨rfl, type⟩ | ⟨rfl, type⟩ | ⟨rfl, type⟩ | ⟨crc, rfl | rfl | rfl | rfl⟩
        · exact ⟨1, _, plinkSync_down f s, .inr type⟩
        · exact ⟨2, _, plinkSet_down f s, .inr type⟩
        · exact ⟨3, _, plinkEdge_down f s, .inr type⟩
        · exact ⟨0, _, rfl, .inr type⟩
        · exact ⟨1, _, plinkSync_down f s, .inl crc⟩
        · exact ⟨2, _, plinkSet_down f s, .inl crc⟩
        · exact ⟨3, _, plinkEdge_down f s, .inl crc⟩
        · exact ⟨0, _, rfl, .inl crc⟩
      have run := taken.trans (down_bad linked bad)
      obtain ⟨pdie, flagged, count, waits⟩ := downFail_leaves whole
      refine ⟨_, run, ⟨pdie, flagged, count, fun l low driving => ?_⟩, State.downFail_only (Only.refl _ _) rfl⟩
      obtain ⟨hs, ls, incoming, wait⟩ := waits l low driving
      exact ⟨⟨hs, ls, incoming⟩, wait⟩
  case uplink =>
    refine ⟨fun f c crc row => ?_, fun f crc type low => ⟨fun good => ?_, fun bad was boot => ?_⟩, fun f crc type => ?_,
      fun f crc type => (plinkHk_uplink f s).trans (uplink_good linked crc type), fun f crc type => ?_, fun f c n row bad => ?_⟩
    · rcases row with ⟨rfl, type⟩ | ⟨rfl, type⟩
      · exact uplink_good linked crc type
      · exact uplink_good linked crc type
    · let noted := s.onPdie fun x => { x with upOk := true }
      let timed := noted.onLg (plFld f 35 32) fun x => { x with dtRise := plFld f 27 18, dtFall := plFld f 17 8 }
      have run : exec (.legstat f) s = .next (timed.onLg (plFld f 35 32) fun x => { x with bsuv := false }) :=
        ((legstat_uplink f s).trans (uplink_good linked crc type)).trans
          (congrArg _ ((if_neg (by omega)).trans (if_neg (by omega))))
      have present : plFld f 35 32 < s.legs.length := by rw [legs_length whole]; omega
      refine ⟨_, run, ?_, State.onLg_only (State.onLg_only (State.onPdie_only (Only.refl _ _) rfl) rfl) rfl⟩
      exact (lg_onLg_same (onLg_length (s := noted) present)).trans
        (congrArg (fun x : LegSt => { x with bsuv := false }) (lg_onLg_same (s := noted) present))
    · let noted := s.onPdie fun x => { x with upOk := true }
      let timed := noted.onLg (plFld f 35 32) fun x => { x with dtRise := plFld f 27 18, dtFall := plFld f 17 8 }
      have run : exec (.legstat f) s = .next (timed.bsuvOn (plFld f 35 32)) :=
        ((legstat_uplink f s).trans (uplink_good linked crc type)).trans (congrArg _ ((if_neg (by omega)).trans (if_pos bad)))
      have present : plFld f 35 32 < s.legs.length := by rw [legs_length whole]; omega
      have timed_ : timed.lg (plFld f 35 32) = { s.lg (plFld f 35 32) with dtRise := plFld f 27 18, dtFall := plFld f 17 8 } :=
        lg_onLg_same (s := noted) present
      obtain ⟨leg, flagged, only⟩ := bsuvOn_leaves (s := timed) whole.regs
        ((List.length_modify ..).trans (show s.legs.length = 32 from legs_length whole)) low
        (by rw [timed_]; exact was) boot
      rw [timed_] at leg
      exact ⟨_, run, ⟨leg, flagged⟩, Only.upd (State.onLg_only (State.onPdie_only (Only.refl _ _) rfl) rfl) rfl only⟩
    · have run := (dcl_uplink f s).trans (uplink_good linked crc type)
      obtain ⟨link, ov, uv, pump, vin, bits⟩ := dclTaken_leaves (s := s.onPdie fun x => { x with upOk := true }) f
        ((State.onPdie_kept (Kept.refl s)).whole whole)
      exact ⟨_, run, ⟨link, ov, uv, pump, vin, bits⟩, onlyN_get (execDcl_only (Only.refl _ s) rfl) run⟩
    · have run := (diag_uplink f s).trans (uplink_good linked crc type)
      exact ⟨_, run, ⟨rfl, oneReg_onLv whole.regs (by decide)⟩, State.onLv_only (State.onPdie_only (Only.refl _ _) rfl) rfl⟩
    · obtain ⟨run, taken⟩ : ∃ run, exec c s = s.uplink f n run := by
        rcases row with ⟨rfl, rfl⟩ | ⟨rfl, rfl⟩ | ⟨rfl, rfl⟩ | ⟨rfl, rfl⟩ | ⟨rfl, rfl⟩ | ⟨rfl, rfl⟩
        · exact ⟨_, legstat_uplink f s⟩
        · exact ⟨_, dcl_uplink f s⟩
        · exact ⟨_, plinkHk_uplink f s⟩
        · exact ⟨_, diag_uplink f s⟩
        · exact ⟨_, rfl⟩
        · exact ⟨_, rfl⟩
      have run := taken.trans (uplink_bad linked bad)
      exact ⟨_, run, upFail_leaves whole.regs, State.upFail_only (Only.refl _ _) rfl⟩
  case link =>
    refine ⟨fun locked => ?_, fun d lost => ?_⟩
    · obtain ⟨time, pdie, flagged, on, legs⟩ := plinkLost_leaves whole
      exact ⟨_, plinkLost_runs linked locked, ⟨time, pdie, flagged, on, fun l low => ⟨⟨(legs l low).1, (legs l low).2.1, (legs l low).2.2.1⟩,
        (legs l low).2.2.2⟩⟩, onlyN_get (execPlinkLost_only (Only.refl _ s) rfl) (plinkLost_runs linked locked)⟩
    · let noted := (s.onTime fun t => { t with plinkLock := true }).onPdie fun x => { x with delay := d, upOk := true, dnOk := true }
      have run : exec (.plinkLinkUp d) s = .next ((noted.event pgPlink 0x10).clearSrc srcPlink 16) := plinkLinkUp_runs linked lost
      have after : Only [.regs, .trace, .safety] noted ((noted.event pgPlink 0x10).clearSrc srcPlink 16) :=
        State.clearSrc_only (State.event_only (Only.refl _ _) rfl) rfl
      have flagged : Flagged (noted.event pgPlink 0x10) pgPlink 4 := event_sets (s := noted) whole.regs (by decide)
      exact ⟨_, run, ⟨after .time (by decide), after .pdie (by decide), flagged_of_regs flagged rfl, clearSrc_off⟩,
        Only.upd (State.onPdie_only (State.onTime_only (Only.refl _ _) rfl) rfl) rfl after⟩

end Sys2Proof.Machine
end


section

/-! PROOF. Gate supplies and the protection of the switches (R251, R256, R259, R261 to R265). -/

namespace Sys2Proof.Machine

open Sys2Proof.Safety Sys2Proof.Claims

section

variable {s t : State} {l : Nat}

/-- A supply that fails: the internal legs off, its event, its fault and its source. -/
theorem supplyLost_leaves (ok : MapOk s.regs) (legs : s.legs.length = 32) {bits i fault src : Nat} (bit : (nw bits).toNat.testBit i = true) :
    let t := ((s.internalOff.event pgPlink bits).pfault pgPlink fault).raiseNow src 16
    t.pdie = s.pdie ∧ Flagged t pgPlink i ∧ t.srcOn src 16 = true ∧ (∀ l < 12, LegIsOff t l) ∧
      Only [.regs, .axes, .mots, .legs, .safety, .trace, .log, .timers] s t := by
  have off (l : Nat) (low : l < 12) : LegIsOff s.internalOff l := internalOff_off legs low
  have offOnly : Only [.legs] s s.internalOff := State.internalOff_only (Only.refl _ _) rfl
  generalize s.internalOff = gone at *
  have okGone : MapOk gone.regs := (show gone.regs = s.regs from offOnly .regs (by decide)) ▸ ok
  obtain ⟨up, flagged⟩ := event_flags (s := gone) (p := pgPlink) okGone bit
  have faulted : Only [.regs, .trace] gone ((gone.event pgPlink bits).pfault pgPlink fault) :=
    State.pfault_only (State.event_only (Only.refl _ _) rfl) rfl
  have only : Only [.regs, .axes, .mots, .legs, .safety, .trace, .log, .timers] s
      (((gone.event pgPlink bits).pfault pgPlink fault).raiseNow src 16) :=
    State.raiseNow_only (Only.upd (Only.upd (Only.refl _ _) rfl offOnly) rfl faulted) rfl
  exact ⟨only .pdie (by decide), (rising_up.raiseNow (rising_up.fault up)).bits _ _ flagged, raiseNow_on,
    fun l low => raiseNow_legOff (legIsOff_only (off l low) faulted (by decide)), only⟩

theorem vgdUv_runs (linked : s.linked = true) (was : s.pdie.vgdUv = false) : exec .vgdUv s =
    .next ((((s.onPdie fun x => { x with vgdUv := true }).internalOff.event pgPlink 0x100).pfault pgPlink 2).raiseNow srcVgdUv 16) :=
  (if_pos linked).trans (congrArg _ ((if_neg (by simp [was])).trans (if_pos rfl)))

theorem vgdRelease_runs (linked : s.linked = true) (was : s.pdie.vgdUv = true) : exec .vgdRelease s =
    .next ((s.onPdie fun x => { x with vgdUv := false }).clearSrc srcVgdUv 16) :=
  (if_pos linked).trans (congrArg _ ((if_neg (by simp [was])).trans (if_neg (by decide))))

theorem vinOv_runs (linked : s.linked = true) (was : s.pdie.vinOv = false) : exec .vinOv s =
    .next ((((s.onPdie fun x => { x with vinOv := true }).internalOff.event pgPlink 0x200).pfault pgPlink 4).raiseNow srcVinOv 16) :=
  (if_pos linked).trans (congrArg _ ((if_neg (by simp [was])).trans (if_pos rfl)))

theorem vinOvRelease_runs (linked : s.linked = true) (was : s.pdie.vinOv = true) : exec .vinOvRelease s =
    .next ((s.onPdie fun x => { x with vinOv := false }).clearSrc srcVinOv 16) :=
  (if_pos linked).trans (congrArg _ ((if_neg (by simp [was])).trans (if_neg (by decide))))

/-- A switch that a trip has turned off and holds. -/
def Tripped (high : Bool) (x : LegSt) : Prop := (if high then x.hsOn else x.lsOn) = false ∧ (if high then x.vdsHoldH else x.vdsHoldL) = true

theorem tripped_off {high : Bool} : OutlivesOff (Tripped high) := fun x h => by
  cases high
  · exact ⟨rfl, h.2⟩
  · exact ⟨rfl, h.2⟩

theorem tripped_retry {high : Bool} : OutlivesRetry (Tripped high) := fun x b h => by
  cases high
  · exact ⟨h, h⟩
  · exact ⟨h, h⟩

/-- The leg with its watched switch turned off and held. -/
def tripOff (s : State) (l : Nat) (high : Bool) : State :=
  s.onLg l fun x =>
    if high then { x with hsOn := false, watchH := false, vdsHoldH := true } else { x with lsOn := false, watchL := false, vdsHoldL := true }

theorem vdsTrip_runs {leg : LegIx} {high : Bool} (linked : s.linked = true) (low : leg.val < 12)
    (watched : (if high then (s.lg leg.val).hsOn && (s.lg leg.val).watchH else (s.lg leg.val).lsOn && (s.lg leg.val).watchL) = true) :
    ∃ a, exec (.vdsTrip leg high) s = .next (((((((tripOff s leg.val high).event (pgGd (leg.val / 6)) (2 ^ (leg.val % 6))).pfault
      (pgGd (leg.val / 6)) (2 ^ (leg.val % 6))).incHalf (pgGd (leg.val / 6)) (GD.TRIP_COUNT (leg.val % 6)) false).raiseNow srcVds a).clearSrc
        srcVds a).onset 3 leg.val) :=
  ⟨_, if_neg (by simp [linked, watched]; omega)⟩

theorem vdsTrip_leaves (whole : Whole s) {high : Bool} (low : l < 12) {a : Nat} :
    let t := ((((((tripOff s l high).event (pgGd (l / 6)) (2 ^ (l % 6))).pfault (pgGd (l / 6)) (2 ^ (l % 6))).incHalf (pgGd (l / 6))
      (GD.TRIP_COUNT (l % 6)) false).raiseNow srcVds a).clearSrc srcVds a).onset 3 l
    Tripped high (t.lg l) ∧ Flagged t (pgGd (l / 6)) (l % 6) := by
  have off : Tripped high ((tripOff s l high).lg l) := by
    rw [tripOff, lg_onLg_same (by rw [legs_length whole]; omega)]
    cases high
    · exact ⟨rfl, rfl⟩
    · exact ⟨rfl, rfl⟩
  have ok : MapOk (tripOff s l high).regs := whole.regs
  generalize tripOff s l high = gone at *
  refine ⟨onset_leg tripped_off tripped_retry (by decide) ?_, ?_⟩
  · rw [lg_only (State.clearSrc_only (Only.refl [.safety] _) rfl) (by decide)]
    refine raiseNow_leg tripped_off ?_
    rw [lg_only (State.incHalf_only (State.pfault_only (State.event_only (Only.refl [.regs, .trace] gone) rfl) rfl) rfl) (by decide)]
    exact off
  · obtain ⟨up, flagged⟩ := event_flags (p := pgGd (l / 6)) (bits := 2 ^ (l % 6)) ok (nw_twoPow (by omega))
    have beside : regAddr (pgGd (l / 6)) (GD.TRIP_COUNT (l % 6)) % 4096 ≠ pageEvent := by
      rw [regAddr_mod (by simp only [GD.TRIP_COUNT]; omega)]
      simp only [GD.TRIP_COUNT, pageEvent]
      omega
    exact (rising_up.onset (rising_up.clearSrc (rising_up.raiseNow ((rising_up.fault up).setLv beside)))).bits _ _ flagged

theorem edgeExecute_runs {leg : LegIx} {e : QEdge} {q : List QEdge} (linked : s.linked = true) (low : leg.val < 12)
    (queue : (s.lg leg.val).queue = e :: q) (present : leg.val < s.legs.length) (ahead : ∀ x ∈ (s.lg leg.val).offAt, e.tick < x) :
    exec (.edgeExecute leg) s =
      .next (((s.reach e.tick).onLg leg.val fun x => { x with queue := q }).legEdge leg.val e.rise e.tick) := by
  have popped : ((s.reach e.tick).onLg leg.val fun x => { x with queue := q }).lg leg.val = { s.lg leg.val with queue := q } :=
    lg_onLg_same (s := s.reach e.tick) present
  have none : (((s.reach e.tick).onLg leg.val fun x => { x with queue := q }).lg leg.val).offAt.any (fun t => decide (t ≤ e.tick)) = false := by
    rw [popped, List.any_eq_false]
    intro x mem
    simpa using ahead x mem
  show execEdgeExecute leg s = _
  rw [execEdgeExecute, queue]
  refine (if_neg (by simp [linked]; omega)).trans ?_
  extract_lets popped off
  exact congrArg (fun t => Host.Outcome.next (State.legEdge t leg.val e.rise e.tick)) (if_neg (Bool.eq_false_iff.mp none))

theorem force_staged (cfg : t.cfg = s.cfg) {p o : Nat} (staged : ¬ o < 0x100) : t.force p o = s.force p o := by
  simp only [State.force, if_neg staged, State.cf, cfg]

theorem legMode_of_cfg (cfg : t.cfg = s.cfg) : legMode t.force l = legMode s.force l := by
  simp only [legMode, legCtrl, force_staged cfg (show ¬ PWM.LEG_CTRL (l % 8) < 0x100 by simp only [PWM.LEG_CTRL]; omega)]

theorem legFunc_of_cfg (cfg : t.cfg = s.cfg) : legFunc t.force l = legFunc s.force l := by
  simp only [legFunc, legCtrl, force_staged cfg (show ¬ PWM.LEG_CTRL (l % 8) < 0x100 by simp only [PWM.LEG_CTRL]; omega)]

/-- Which leg is the chopper's is staged: no live register decides it. -/
theorem chopLeg_of_cfg (cfg : t.cfg = s.cfg) : chopLeg t.force = chopLeg s.force := by
  simp only [chopLeg, legMode_of_cfg cfg, legFunc_of_cfg cfg]

theorem chopLeg_low {c : Cfg} (h : chopLeg c = some l) : l < 32 := by
  have mem := List.mem_of_find?_eq_some h
  simp only [List.mem_map, List.mem_range] at mem
  omega

/-- A comparator that changes: its bit, its event, and what follows it. -/
def dclNoted (s : State) (n : Nat) (on : Bool) : State :=
  (s.onPdie fun x => { x with dcl := if on then x.dcl ||| BitVec.ofNat 4 (2 ^ n) else x.dcl &&& ~~~(BitVec.ofNat 4 (2 ^ n)) }).event pgPlink (2 ^ n)

theorem dclNoted_only {n : Nat} {on : Bool} : Only [.pdie, .regs, .trace] s (dclNoted s n on) :=
  State.event_only (State.onPdie_only (Only.refl _ _) rfl) rfl

theorem dclChange_eq {n : Nat} {on : Bool} (enabled : bt (s.cf pgPlink (PLINK.DCL_CFG n)) 31 = true) (was : s.pdie.dcl.toNat.testBit n = !on) :
    s.dclChange n on = match chopLeg (dclNoted s n on).force with
      | none => dclNoted s n on
      | some l => if on && bt ((dclNoted s n on).cf pgPlink (PLINK.DCL_CFG n)) 24 && !((dclNoted s n on).lg l).gateOff then
          ((dclNoted s n on).onLg l fun x => { x with chopForced := true }).turnOn l true
        else dclNoted s n on := if_neg (by simp [enabled, was])

theorem turnOn_forced {high : Bool} (forced : (s.lg l).chopForced = true) : ((s.turnOn l high).lg l).chopForced = true := by
  have keeps {t : State} {f : LegSt → LegSt} (k : ∀ x, (f x).chopForced = x.chopForced) (h : (t.lg l).chopForced = true) :
      ((t.onLg l f).lg l).chopForced = true := onLg_keeps (P := fun x => x.chopForced = true) (fun x h => (k x).trans h) h
  have free : ((cycleFree s l high).lg l).chopForced = true := by
    unfold cycleFree
    split
    · extract_lets freed
      have freed_ : (freed.lg l).chopForced = true := keeps (fun x => by cases high <;> rfl) forced
      split
      · rw [lg_only (State.backInService_only (Only.refl [.chans] _) rfl) (by decide)]
        exact keeps (fun _ => rfl) freed_
      · exact freed_
    · exact forced
  rw [turnOn_eq]
  extract_lets cleared
  have cleared_ : (cleared.lg l).chopForced = true := keeps (fun _ => rfl) free
  split
  · exact keeps (fun x => by cases high <;> rfl) cleared_
  · exact cleared_

end

/-- Settles O26. -/
theorem gateProtection : Obligations.GateProtection := by
  refine ⟨fun s whole linked => ⟨fun was => ?uv, fun was => ⟨?uvAgain, ?uvEnd⟩, fun was => ?ov, fun was => ⟨?ovAgain, ?ovEnd⟩⟩,
    fun s whole linked => ⟨fun leg e q low queue drive wait ahead => ?edge, fun leg high low => ?watch, fun leg low good boot => ?bsuv,
      fun n on enabled was => ?dcl⟩⟩
  case uv =>
    obtain ⟨pdie, flagged, on, off, only⟩ := supplyLost_leaves (s := s.onPdie fun x => { x with vgdUv := true }) (bits := 0x100) (i := 8)
      (fault := 2) (src := srcVgdUv) whole.regs (show s.legs.length = 32 from legs_length whole) (by decide)
    exact ⟨_, vgdUv_runs linked was, ⟨pdie, flagged, on, off⟩, Only.upd (State.onPdie_only (Only.refl _ _) rfl) rfl only⟩
  case uvAgain => exact (if_pos linked).trans (congrArg _ (if_pos was.symm))
  case uvEnd => exact ⟨_, vgdRelease_runs linked was, ⟨rfl, clearSrc_off, fun src a ne => clearSrc_ne ne⟩,
      State.clearSrc_only (State.onPdie_only (Only.refl _ _) rfl) rfl⟩
  case ov =>
    obtain ⟨pdie, flagged, on, off, only⟩ := supplyLost_leaves (s := s.onPdie fun x => { x with vinOv := true }) (bits := 0x200) (i := 9)
      (fault := 4) (src := srcVinOv) whole.regs (show s.legs.length = 32 from legs_length whole) (by decide)
    exact ⟨_, vinOv_runs linked was, ⟨pdie, flagged, on, off⟩, Only.upd (State.onPdie_only (Only.refl _ _) rfl) rfl only⟩
  case ovAgain => exact (if_pos linked).trans (congrArg _ (if_pos was.symm))
  case ovEnd => exact ⟨_, vinOvRelease_runs linked was, ⟨rfl, clearSrc_off, fun src a ne => clearSrc_ne ne⟩,
      State.clearSrc_only (State.onPdie_only (Only.refl _ _) rfl) rfl⟩
  case edge =>
    have run : exec (.edgeExecute leg) s = .next (((s.reach e.tick).onLg leg.val fun x => { x with queue := q }).legEdge leg.val e.rise e.tick) :=
      edgeExecute_runs linked low queue (leg_present whole leg) ahead
    have popped : ((s.reach e.tick).onLg leg.val fun x => { x with queue := q }).lg leg.val = { s.lg leg.val with queue := q } :=
      lg_onLg_same (s := s.reach e.tick) (leg_present whole leg)
    rw [State.legEdge, if_neg (by simp [popped, drive, wait]), if_neg (by omega)] at run
    refine ⟨_, run, ⟨rfl, ?_⟩, State.onLg_only (State.onLg_only (State.reach_only (Only.refl _ _) rfl) rfl) rfl⟩
    rw [lg_onLg_same (onLg_length (s := s.reach e.tick) (leg_present whole leg)), popped]
  case watch =>
    intro x p j
    refine ⟨fun on enabled => ?_, fun watched => ?_⟩
    · have skip : (!s.linked || decide (12 ≤ leg.val) || !(if high then x.hsOn else x.lsOn) ||
          !bt (s.cf p (GD.GD_CFG j)) (if high then 0 else 1)) = false := by
        rw [linked, on, enabled]
        simp [low]
      have run : exec (.vdsBlankEnd leg high) s = .next ((s.reach ((if high then x.hsTick else x.lsTick) +
          blankT (fld (s.cf p (GD.VDS j)) 3 0))).onLg leg.val fun x => if high then { x with watchH := true } else { x with watchL := true }) :=
        if_neg (Bool.eq_false_iff.mp skip)
      refine ⟨_, run, ⟨rfl, ?_⟩, State.onLg_only (State.reach_only (Only.refl _ _) rfl) rfl⟩
      exact lg_onLg_same (s := s.reach _) (leg_present whole leg)
    · obtain ⟨a, run⟩ := vdsTrip_runs linked low watched
      obtain ⟨⟨off, held⟩, flagged⟩ := vdsTrip_leaves whole low
      exact ⟨_, run, ⟨off, held, flagged⟩, onlyN_get (execVdsTrip_only (Only.refl _ s) rfl) run⟩
  case bsuv =>
    obtain ⟨leg_, flagged, only⟩ := bsuvOn_leaves whole.regs (legs_length whole) low good boot
    exact ⟨_, if_pos linked, ⟨leg_, flagged⟩, only⟩
  case dcl =>
    have run : exec (.dclComparatorChange n on) s = .next (s.dclChange n.val on) := if_pos linked
    refine ⟨_, run, ⟨?_, fun m low ne => ?_, ?_, fun l chop set act drive => ?_⟩, State.dclChange_only (Only.refl _ _) rfl⟩
    · rw [dclChange_pdie]
      exact dclAfter_same n.isLt enabled
    · rw [dclChange_pdie]
      exact dclAfter_other low ne
    · have flagged : Flagged (dclNoted s n.val on) pgPlink n.val := event_sets (by exact whole.regs) (nw_twoPow (by omega))
      refine flagged_of_regs flagged ?_
      rw [dclChange_eq enabled was]
      split
      · rfl
      · split
        · exact State.turnOn_only (State.onLg_only (Only.refl [.legs, .chans] _) rfl) rfl .regs (by decide)
        · rfl
    · have same : chopLeg (dclNoted s n.val on).force = some l := (chopLeg_of_cfg (dclNoted_only .cfg (by decide))).trans chop
      rw [dclChange_eq enabled was, same]
      have act' : bt ((dclNoted s n.val on).cf pgPlink (PLINK.DCL_CFG n.val)) 24 = true := by rw [cf_only dclNoted_only (by decide)]; exact act
      have drive' : ((dclNoted s n.val on).lg l).gateOff = false := by rw [lg_only dclNoted_only (by decide)]; exact drive
      have here : l < (dclNoted s n.val on).legs.length := by
        rw [show (dclNoted s n.val on).legs = s.legs from dclNoted_only .legs (by decide), legs_length whole]
        exact chopLeg_low chop
      dsimp only
      rw [if_pos (by rw [act', drive', set]; rfl)]
      exact turnOn_forced (by rw [lg_onLg_same here])

end Sys2Proof.Machine
end


section

/-! PROOF. The command path of both masters (R51 to R54, R67): a command taken, refused, ended and left in progress. -/

namespace Sys2Proof.Machine

open Sys2Proof.Safety Sys2Proof.Claims

section

variable {s t : State} {m : Master} {seq : Byte} {code e addr : Nat} {tests : List (Bool × Nat)} {run : State → State}

/-! Which way a command goes. -/

theorem command_taken (up : s.up = true) (idle : (s.mstr m).busy = none ∨ code = 2 ∨ code = 8) (may : m = .manager → mgrCode code = true)
    (good : firstFail tests = none) : s.command m seq code tests run = run (s.touch m) := by
  have free : ((s.mstr m).busy.isSome && decide (code ≠ 2) && decide (code ≠ 8)) = false := by
    rcases idle with none | rfl | rfl
    · simp [none]
    · simp
    · simp
  have may' : ¬(m = .manager ∧ (!mgrCode code) = true) := fun ⟨hm, bad⟩ => by simp [may hm] at bad
  unfold State.command
  rw [if_neg (by simp [up])]
  extract_lets busy bad
  rw [if_neg (Bool.eq_false_iff.mp free), show bad = none from (if_neg may').trans good]

theorem command_failed (up : s.up = true) (idle : (s.mstr m).busy = none) (may : m = .manager → mgrCode code = true)
    (bad : firstFail tests = some e) : s.command m seq code tests run =
      (s.refuseBy m e code (regAddr (cmdPage m) SYS.CMD)).setResult m seq.toNat code true false e := by
  have may' : ¬(m = .manager ∧ (!mgrCode code) = true) := fun ⟨hm, bad⟩ => by simp [may hm] at bad
  unfold State.command
  rw [if_neg (by simp [up])]
  extract_lets busy bad'
  have free : busy = false := by simp [busy, idle]
  rw [if_neg (by simp [free]), show bad' = some e from (if_neg may').trans bad]
  dsimp only
  rw [if_neg (by simp [free])]

theorem command_busy (up : s.up = true) (busy : (s.mstr m).busy.isSome = true) (ne2 : code ≠ 2) (ne8 : code ≠ 8) :
    s.command m seq code tests run = s.refuseBy m eBusy code (regAddr (cmdPage m) SYS.CMD) := by
  unfold State.command
  rw [if_neg (by simp [up])]
  exact if_pos (by simp [busy, ne2, ne8])

/-! Results. -/

theorem result_aside : Aside (cmdPage m) (resultOff m) := by cases m <;> decide

theorem result_beside {p o : Nat} (ho : o < 4096) (n : ¬(p = cmdPage m ∧ o = resultOff m)) :
    regAddr p o ≠ regAddr (cmdPage m) (resultOff m) := fun e => by
  have low : resultOff m < 4096 := by cases m <;> decide
  exact n ((regAddr_inj low ho).mp e)

theorem Reads.setResult {p o res seq : Nat} {d a : Bool} {w : Word} (h : Reads p o w s) (aside : Aside p o) (ho : o < 4096)
    (n : ¬(p = cmdPage m ∧ o = resultOff m)) : Reads p o w (s.setResult m seq code d a res) := by
  unfold State.setResult
  split
  · exact (h.setLv_ne (result_beside ho n)).event aside
  · exact h.setLv_ne (result_beside ho n)

theorem reads_setResult {seq : Nat} {d a : Bool} {res : Nat} (ok : MapOk s.regs) :
    Reads (cmdPage m) (resultOff m) (resultWord seq code d a res) (s.setResult m seq code d a res) := by
  have set : Reads (cmdPage m) (resultOff m) (resultWord seq code d a res) (s.setLv (cmdPage m) (resultOff m) (resultWord seq code d a res)) :=
    ⟨MapOk.set ok, State.lv_setLv_same ok⟩
  unfold State.setResult
  split
  · exact set.event result_aside
  · exact set

theorem Up.setResult {s0 : State} {seq : Nat} {d a : Bool} {res : Nat} (h : Up s0 s) : Up s0 (s.setResult m seq code d a res) := by
  have beside : regAddr (cmdPage m) (resultOff m) % 4096 ≠ pageEvent := by cases m <;> decide
  unfold State.setResult
  exact up_ite (h.setLv beside).event (h.setLv beside)

theorem setResult_mstr {seq : Nat} {d a : Bool} {res : Nat} {m' : Master} : (s.setResult m seq code d a res).mstr m' = s.mstr m' :=
  Only.mstr (State.setResult_only (Only.refl [.regs, .trace] s) rfl) (by decide) (by decide) m'

/-- The host's result is no event. -/
theorem setResultHost_only {fs : List Part} {s0 : State} {seq : Nat} {d a : Bool} {res : Nat} (h : Only fs s0 s) (sub : In [.regs] fs) :
    Only fs s0 (s.setResult .host seq code d a res) := State.setLv_only h sub

theorem beginHost_only {fs : List Part} {s0 : State} (h : Only fs s0 s) (sub : In [.regs, .host] fs) :
    Only fs s0 (s.begin_ .host seq code) := by
  refine setResultHost_only (Only.upd h sub fun f hf => ?_) (inT rfl sub)
  cases f with
  | host => simp at hf
  | _ => rfl

/-! What a refusal leaves. -/

theorem Reads.refuseBy {p o : Nat} {w : Word} {c : Nat} (h : Reads p o w s) (aside : Aside p o) (n : regAddr p o ≠ regAddr pgSys SYS.REFUSED_COUNT) :
    Reads p o w (s.refuseBy m e c addr) := by
  have refused : Reads p o w (s.refuse m e c addr) := by
    unfold State.refuse
    exact Reads.logAdd (((h.setLv_ne n).event aside).of_regs State.onMstr_regs) aside
  exact (reads_outlivesEvents aside).refuseBy refused

theorem refuseBy_busy {c : Nat} : ((s.refuseBy m e c addr).mstr m).busy = (s.mstr m).busy := by
  have refused : ((s.refuse m e c addr).mstr m).busy = (s.mstr m).busy := by
    unfold State.refuse
    rw [Only.mstr (State.logAdd_only (fs := [.regs, .trace, .log]) (Only.refl _ _) rfl) (by decide) (by decide), State.mstr_onMstr_same,
      Only.mstr (State.event_only (State.inc16_only (Only.refl [.regs, .trace] s) rfl) rfl) (by decide) (by decide)]
  unfold State.refuseBy
  extract_lets refused'
  split
  · rw [Only.mstr (State.event_only (fs := [.regs, .trace, .log]) (Only.refl _ _) rfl) (by decide) (by decide)]
    exact refused
  · exact refused

theorem refuseBy_ok {c : Nat} (ok : MapOk s.regs) : MapOk (s.refuseBy m e c addr).regs := by
  have whole : Reads pgSys SYS.CMD_RESULT (s.lv pgSys SYS.CMD_RESULT) s := ⟨ok, rfl⟩
  exact (whole.refuseBy (by decide) (by decide)).1

/-- A refusal that leaves CMD_RESULT as it is. -/
theorem refuses_silently {c : Instr} {code' : Nat} {P : State → Prop} (ok : MapOk s.regs) (run : exec c s = .next (s.refuseBy m e code' addr))
    (leaves : P (s.refuseBy m e code' addr)) : Refuses c m s P :=
  ⟨_, run, ⟨State.refuseBy_counts ok, State.refuseBy_flags ok, State.refuseBy_marks, refuseBy_busy, leaves⟩, State.refuseBy_only (Only.refl _ _) rfl⟩

/-- A refusal that CMD_RESULT reports. -/
theorem refuses_reporting {c : Instr} (ok : MapOk s.regs)
    (run : exec c s = .next ((s.refuseBy m e code addr).setResult m seq.toNat code true false e)) :
    Refuses c m s (Reports m seq code true false e) := by
  have refused := refuseBy_ok (m := m) (e := e) (c := code) (addr := addr) ok
  have counted : Reads pgSys SYS.REFUSED_COUNT (countUp (s.lv pgSys SYS.REFUSED_COUNT)) (s.refuseBy m e code addr) :=
    ⟨refused, State.refuseBy_counts ok⟩
  have beside : ¬(pgSys = cmdPage m ∧ SYS.REFUSED_COUNT = resultOff m) := by cases m <;> decide
  refine ⟨_, run, ⟨(counted.setResult (by decide) (by decide) beside).2, ?_, ?_, ?_, (reads_setResult refused).2⟩,
    State.setResult_only (State.refuseBy_only (Only.refl _ _) rfl) rfl⟩
  · exact (Up.setResult (Up.refl refused)).bits _ _ (State.refuseBy_flags ok)
  · rw [setResult_mstr]
    exact State.refuseBy_marks
  · rw [setResult_mstr]
    exact refuseBy_busy

/-! What a command in progress and its end leave. -/

theorem begin_leaves (ok : MapOk s.regs) : Reports m seq code false true eNone (s.begin_ m seq code) ∧
    ((s.begin_ m seq code).mstr m).busy = some (BitVec.ofNat 8 code) ∧ ((s.begin_ m seq code).mstr m).busySeq = seq := by
  refine ⟨(reads_setResult (by rw [State.onMstr_regs]; exact ok)).2, ?_, ?_⟩
  · rw [State.begin_, setResult_mstr, State.mstr_onMstr_same]
  · rw [State.begin_, setResult_mstr, State.mstr_onMstr_same]

theorem accept_reports (ok : MapOk s.regs) : Reports m seq code true true eNone (s.accept m seq code) := (reads_setResult ok).2

end

end Sys2Proof.Machine
end


section

/-! PROOF. The stage commands (R44 to R49, R53 to R66, Table 2-13): where they are refused, and what they leave where they are taken. -/

namespace Sys2Proof.Machine

open Sys2Proof.Safety Sys2Proof.Claims

section

variable {s : State} {m : Master} {row : List Nat}

/-- The row of Table 2-13 at the stage's present state. -/
theorem stageTest_row : s.stageTest row = (stageRow s row != 0, stageRow s row) := by
  have index : row.getD (if s.stage.state = .armed ∧ s.stage.commit then 6 else s.stage.state.code) 0 = stageRow s row := by
    unfold stageRow
    cases state : s.stage.state with
    | armed => cases commit : s.stage.commit <;> simp [StageState.code]
    | closed => simp [StageState.code]
    | opened => simp [StageState.code]
    | proving => simp [StageState.code]
    | proved => simp [StageState.code]
    | failed => simp [StageState.code]
  simp only [State.stageTest, index]

/-- The first two tests of a stage command. -/
theorem stageTests_owned {rest : List (Bool × Nat)} (owned : s.ownedByOther m = true) :
    firstFail ((s.ownedByOther m, eOwned) :: s.stageTest row :: rest) = some eOwned := by
  simp [firstFail, owned]

theorem stageTests_state {rest : List (Bool × Nat)} (free : s.ownedByOther m = false) (bad : stageRow s row ≠ 0) :
    firstFail ((s.ownedByOther m, eOwned) :: s.stageTest row :: rest) = some (stageRow s row) := by
  simp [firstFail, free, stageTest_row, bad]

theorem stageTests_pass {rest : List (Bool × Nat)} (free : s.ownedByOther m = false) (good : stageRow s row = 0) :
    firstFail ((s.ownedByOther m, eOwned) :: s.stageTest row :: rest) = firstFail rest := by
  simp [firstFail, free, stageTest_row, good]

/-- A stage command with its code and its row of Table 2-13. -/
def StageCommand (m : Master) (seq arg8 : Byte) (c : Instr) (code : Nat) (row : List Nat) : Prop :=
  (c = .stageOpen m seq arg8 ∧ code = 1 ∧ row = [0, 1, 1, 1, 1, 1, 1]) ∨
    (c = .stageDiscard m seq arg8 ∧ code = 2 ∧ row = [1, 0, 0, 0, 0, 0, 10]) ∨
    (c = .proof m seq arg8 ∧ code = 3 ∧ row = [1, 0, 10, 0, 0, 1, 1]) ∨ (c = .strike m seq arg8 ∧ code = 4 ∧ row = [1, 1, 10, 0, 1, 1, 1]) ∨
    (c = .strikeAt m seq arg8 ∧ code = 5 ∧ row = [1, 1, 10, 0, 1, 1, 1]) ∨
    (c = .proofStrike m seq arg8 ∧ code = 6 ∧ row = [1, 0, 10, 0, 0, 1, 1]) ∨
    (c = .readmit .host seq arg8 ∧ m = .host ∧ code = 10 ∧ row = [1, 0, 10, 0, 0, 1, 1])

/-- A stage command runs the tests of ownership and of Table 2-13 first. -/
theorem stageCommand_runs {seq arg8 : Byte} {c : Instr} {code : Nat} (h : StageCommand m seq arg8 c code row) :
    (∃ rest run, exec c s = .next (s.command m seq code ((s.ownedByOther m, eOwned) :: s.stageTest row :: rest) run)) ∧
      (m = .manager → mgrCode code = true) ∧ code ≠ 8 := by
  rcases h with ⟨rfl, rfl, rfl⟩ | ⟨rfl, rfl, rfl⟩ | ⟨rfl, rfl, rfl⟩ | ⟨rfl, rfl, rfl⟩ | ⟨rfl, rfl, rfl⟩ | ⟨rfl, rfl, rfl⟩ | ⟨rfl, rfl, rfl, rfl⟩
  · exact ⟨⟨_, _, rfl⟩, fun _ => rfl, by decide⟩
  · exact ⟨⟨_, _, rfl⟩, fun _ => rfl, by decide⟩
  · exact ⟨⟨_, _, rfl⟩, fun _ => rfl, by decide⟩
  · exact ⟨⟨_, _, rfl⟩, fun _ => rfl, by decide⟩
  · exact ⟨⟨_, _, rfl⟩, fun _ => rfl, by decide⟩
  · exact ⟨⟨_, _, rfl⟩, fun _ => rfl, by decide⟩
  · exact ⟨⟨_, _, rfl⟩, nofun, by decide⟩

end

/-- Settles O30. -/
theorem stageRefusals : Obligations.StageRefusals := by
  intro m seq arg8 s c code row whole up command
  obtain ⟨⟨rest, run, runs⟩, may, ne8⟩ := stageCommand_runs (s := s) command
  refine ⟨fun busy ne2 => ?_, fun idle owned => ?_, fun idle free bad => ?_⟩
  · rw [command_busy up busy ne2 ne8] at runs
    have reads : Reads (cmdPage m) (resultOff m) (s.lv (cmdPage m) (resultOff m)) s := ⟨whole.regs, rfl⟩
    exact refuses_silently whole.regs runs (reads.refuseBy result_aside (by cases m <;> decide)).2
  · rw [command_failed up idle may (stageTests_owned owned)] at runs
    exact refuses_reporting whole.regs runs
  · rw [command_failed up idle may (stageTests_state free bad)] at runs
    exact refuses_reporting whole.regs runs

section

variable {s t : State} {m : Master} {seq : Byte} {code : Nat}

/-- A master's command touches its lease and nothing else (R48). -/
theorem touch_frame : Only [.host, .mgr] s (s.touch m) := State.touch_only (Only.refl _ _) rfl

theorem accept_frame : Only [.regs, .trace] s (s.accept m seq code) := State.accept_only (Only.refl _ _) rfl

/-- An event of another page than the tracing unit's leaves that page's events alone. -/
theorem event_other {p q bits : Nat} (n : p ≠ q) (n' : p ≠ pgTrace) (ok : MapOk s.regs) :
    MapOk (s.event q bits).regs ∧ (s.event q bits).lv p pageEvent = s.lv p pageEvent := by
  let P : State → Prop := fun t => MapOk t.regs ∧ t.lv p pageEvent = s.lv p pageEvent
  have raw {t : State} {r b : Nat} (ne : p ≠ r) (h : P t) : P (t.eventRaw r b) :=
    ⟨MapOk.set h.1, (State.lv_setLv_ne h.1 fun e => ne ((regAddr_inj (by decide) (by decide)).mp e).1).trans h.2⟩
  have ignored {t : State} (h : P t) : P (t.inc16 pgTrace TRACE.TRIG_IGNORED) :=
    ⟨MapOk.set h.1, (State.lv_setLv_ne h.1 fun e => n' ((regAddr_inj (by decide) (by decide)).mp e).1).trans h.2⟩
  have trigger {t : State} {u k : Nat} (h : P t) : P (t.traceTrigger u k) := by
    unfold State.traceTrigger
    split
    · split
      · exact raw n' h
      · exact ignored h
    · split
      · split
        · exact h
        · exact h
      · exact h
  have fire {t : State} {u k : Nat} (h : P t) : P (t.traceFire u k) := by
    unfold State.traceFire
    extract_lets tc win
    split
    · exact trigger h
    · split
      · exact h
      · split
        · split
          · exact trigger h
          · exact h
        · exact h
  have raised : P (s.eventRaw q bits) := raw n ⟨ok, rfl⟩
  unfold State.event State.traceKind
  split
  · refine forN_ind (P := P) (fun u t h => ?_) raised
    extract_lets w
    split
    · exact fire h
    · exact h
  · exact raised

theorem withStage_only {fs : List Part} {u : State} (h : Only fs s u) (sub : In [.stg, .stage] fs) {w : List (Nat × Word)} {g : StageSt} :
    Only fs s { u with stg := w, stage := g } :=
  Only.upd h sub fun f hf => by cases f with
    | stg => simp at hf
    | stage => simp at hf
    | _ => rfl

theorem frameLen_of_cfg (cfg : t.cfg = s.cfg) : frameLen t.force = frameLen s.force := by
  simp only [frameLen, force_staged cfg (show ¬ TIME.FRAME_LEN < 0x100 by decide)]

/-- The two words of a strike's due time, and what leaves them. -/
theorem reads_setPair {p o : Nat} {x : Int} (ok : MapOk s.regs) :
    Reads p o (loW x) (s.setPair p o x) ∧ Reads p (o + 4) (hiW x) (s.setPair p o x) := by
  have first : Reads p o (loW x) (s.setLv p o (loW x)) := ⟨MapOk.set ok, State.lv_setLv_same ok⟩
  exact ⟨first.setLv_ne (by simp only [regAddr]; omega), MapOk.set first.1, State.lv_setLv_same first.1⟩

/-! The further tests of STRIKE_AT and of READMIT. -/

theorem strikeAtTest_pass {bad : Option Nat} (good : bad = none) : firstFail [(bad.isSome, bad.getD 0)] = none := by simp [firstFail, good]

theorem strikeAtTest_fails {bad : Option Nat} {e : Nat} (fails : bad = some e) : firstFail [(bad.isSome, bad.getD 0)] = some e := by
  simp [firstFail, fails]

theorem strikeAtFail_invalid {x : Nat} (invalid : s.ntValid = false) : s.strikeAtFail x = some eState := by
  simp [State.strikeAtFail, invalid]

theorem strikeAtFail_range {x : Nat} (valid : s.ntValid = true)
    (far : (x : Int) < s.ntAt s.now + 8 * frameLen s.force ∨ s.ntAt s.now + 60000000000 < (x : Int)) : s.strikeAtFail x = some eRange := by
  unfold State.strikeAtFail
  extract_lets now
  rw [if_neg (by simp [valid]), if_pos far]

theorem readmitTests_pass {cls idx p : Nat} (page : readmitPage cls idx = some p) (retired : s.chRet cls idx = true) :
    firstFail [((readmitPage cls idx).isNone, eRange), (!s.chRet cls idx, eState)] = none := by
  simp [firstFail, page, retired]

theorem readmitTests_inService {cls idx p : Nat} (page : readmitPage cls idx = some p) (inService : s.chRet cls idx = false) :
    firstFail [((readmitPage cls idx).isNone, eRange), (!s.chRet cls idx, eState)] = some eState := by
  simp [firstFail, page, inService]

theorem readmitTests_none {cls idx : Nat} (none : readmitPage cls idx = none) :
    firstFail [((readmitPage cls idx).isNone, eRange), (!s.chRet cls idx, eState)] = some eRange := by
  simp [firstFail, none]

theorem mem_markDirty {p : Nat} : p ∈ (s.markDirty p).stage.dirty := by
  by_cases listed : s.stage.dirty.contains p
  · simp only [State.markDirty, State.onStage, listed, if_true]
    simpa using listed
  · simp only [State.markDirty, State.onStage, listed]
    simp

/-- What an accepted READMIT leaves of the stage. -/
def State.askReadmit (s : State) (ch : ChanId) (p : Nat) : State :=
  (s.onStage fun g => { g with readmits := ch :: g.readmits.filter (· ≠ ch), state := .opened }).markDirty p

theorem askReadmit_stage {ch : ChanId} {p : Nat} : (s.askReadmit ch p).stage.state = .opened ∧
    (s.askReadmit ch p).stage.readmits = ch :: s.stage.readmits.filter (· ≠ ch) ∧ p ∈ (s.askReadmit ch p).stage.dirty :=
  ⟨rfl, rfl, mem_markDirty⟩

/-- No result of a command is an event of SYS. -/
theorem setResult_sysEvents {a : Nat} {d acc : Bool} {res : Nat} (ok : MapOk s.regs) :
    (s.setResult m a code d acc res).lv pgSys pageEvent = s.lv pgSys pageEvent := by
  have beside : regAddr pgSys pageEvent ≠ regAddr (cmdPage m) (resultOff m) := by cases m <;> decide
  have set : (s.setLv (cmdPage m) (resultOff m) (resultWord a code d acc res)).lv pgSys pageEvent = s.lv pgSys pageEvent :=
    State.lv_setLv_ne ok beside
  unfold State.setResult
  split
  · exact (event_other (by decide) (by decide) (MapOk.set ok)).2.trans set
  · exact set

end

/-- Settles O31. -/
theorem stageCommands : Obligations.StageCommands := by
  intro m seq arg8 s whole up free idle T may
  have touched := touch_frame (s := s) (m := m)
  have stage : (s.touch m).stage = s.stage := touched .stage (by decide)
  have regs : (s.touch m).regs = s.regs := touch_regs
  have ok : MapOk (s.touch m).regs := regs ▸ whole.regs
  have busy_ : ((s.touch m).mstr m).busy = (s.mstr m).busy := by rw [State.touch, State.mstr_onMstr_same]
  refine ⟨fun free' closed => ?opens, fun shut early => ?discards, fun c code arms free' mayNow row => ?proves, fun free' proved => ?strikes,
    fun free' proved => ⟨fun good => ?strikesAt, fun invalid => ?invalid, fun valid far => ?range⟩, fun host free' mayNow => ?readmits⟩
  case opens =>
    have run : exec (.stageOpen m seq arg8) s = .next (State.accept _ m seq 1) := congrArg _ (command_taken up (.inl free') (fun _ => rfl)
      ((stageTests_pass free (by simp [stageRow, closed])).trans rfl))
    refine ⟨_, run, ⟨accept_frame .stg (by decide), (accept_frame .stage (by decide)).trans ?_, accept_reports ok⟩,
      State.accept_only (withStage_only (Only.upd (Only.refl _ _) rfl touched) rfl) rfl⟩
    show { (s.touch m).stage with state := .opened, owner := some m, dirty := [], readmits := [], voided := false } = _
    rw [stage]
  case discards =>
    have passes : stageRow s [1, 0, 0, 0, 0, 0, 10] = 0 := by
      cases state : s.stage.state with
      | closed => exact absurd state shut
      | armed => simp [stageRow, state, early state]
      | _ => simp [stageRow, state]
    have run : exec (.stageDiscard m seq arg8) s = .next (State.accept _ m seq 2) := congrArg _ (command_taken up (.inr (.inl rfl))
      (fun _ => rfl) ((stageTests_pass free passes).trans rfl))
    obtain ⟨f, hf⟩ : ∃ f : MasterSt → MasterSt, f = fun x => { x with
        busy := if (s.touch m).stage.state = .proving then none else ((s.touch m).mstr m).busy } := ⟨_, rfl⟩
    have ok' : MapOk (((s.touch m).closeStage).onMstr m f).regs := by
      rw [State.onMstr_regs]
      exact ok
    have run' : exec (.stageDiscard m seq arg8) s = .next ((((s.touch m).closeStage).onMstr m f).accept m seq 2) := by rw [run, hf]
    have frame : Only [.regs, .trace, .host, .mgr] (s.touch m).closeStage ((((s.touch m).closeStage).onMstr m f).accept m seq 2) :=
      State.accept_only (State.onMstr_only (Only.refl _ _) rfl) rfl
    have closed : _ = (s.touch m).closeStage.stage := frame .stage (by decide)
    refine ⟨_, run', ⟨frame .stg (by decide), congrArg StageSt.state closed, congrArg StageSt.owner closed, congrArg StageSt.dirty closed,
      congrArg StageSt.readmits closed, congrArg StageSt.due closed, congrArg StageSt.proof closed, ?_, accept_reports ok', ?_⟩,
      State.accept_only (State.onMstr_only (State.closeStage_only (Only.upd (Only.refl _ _) rfl touched) rfl) rfl) rfl⟩
    · rw [State.accept, setResult_mstr, State.mstr_onMstr_same, hf, stage, busy_]
    · rintro p i rfl flagged
      unfold Flagged at *
      rw [State.accept, setResult_sysEvents ok', lv_of_regs (s := s) (t := (s.touch m).closeStage.onMstr m f) (State.onMstr_regs.trans regs)] at flagged
      exact flagged
  case proves =>
    have passes : stageRow s [1, 0, 10, 0, 0, 1, 1] = 0 := by
      rcases mayNow with state | state | state <;> simp [stageRow, state]
    have run : exec c s = .next ((s.touch m).startProof m seq code arms) := by
      rcases row with ⟨rfl, rfl, rfl⟩ | ⟨rfl, rfl, rfl⟩
      · exact congrArg _ (command_taken up (.inl free') (fun _ => rfl) ((stageTests_pass free passes).trans rfl))
      · exact congrArg _ (command_taken up (.inl free') (fun _ => rfl) ((stageTests_pass free passes).trans rfl))
    obtain ⟨reports, busy, seq_⟩ := begin_leaves (m := m) (seq := seq) (code := code)
      (s := (s.touch m).onStage fun g => { g with state := .proving, proof := some ((s.touch m).proofOut, arms), voided := false }) ok
    refine ⟨_, run, ⟨?_, busy, seq_, reports⟩, State.startProof_only (Only.upd (Only.refl _ _) rfl touched) rfl⟩
    refine (State.begin__only (Only.refl [.regs, .host, .mgr, .trace] _) rfl .stage (by decide)).trans ?_
    show { (s.touch m).stage with state := .proving, proof := some ((s.touch m).proofOut, arms), voided := false } = _
    rw [stage]
  case strikes =>
    have run : exec (.strike m seq arg8) s = .next ((s.touch m).armStrike.accept m seq 4) := congrArg _ (command_taken up (.inl free')
      (fun _ => rfl) ((stageTests_pass free (by simp [stageRow, proved])).trans rfl))
    have ok' : MapOk (s.touch m).armStrike.regs := (reads_setPair (s := (s.touch m).onStage _) ok).1.1
    refine ⟨_, run, ⟨?_, accept_reports ok'⟩, State.accept_only (State.armStrike_only (Only.upd (Only.refl _ _) rfl touched) rfl) rfl⟩
    have armed : ((s.touch m).armStrike.accept m seq 4).stage = { (s.touch m).stage with
        state := .armed, due := some (.tick ((s.touch m).now + 2 * frameLen (s.touch m).force)), proof := none } :=
      accept_frame .stage (by decide)
    rw [armed, stage, frameLen_of_cfg (touched .cfg (by decide)), show (s.touch m).now = s.now from
      congrArg TimeSt.tick (touched .time (by decide))]
  case strikesAt =>
    have run : exec (.strikeAt m seq arg8) s = .next (((s.touch m).armStrikeAt T none).accept m seq 5) := congrArg _ (command_taken up
      (.inl free') (fun _ => rfl) ((stageTests_pass free (by simp [stageRow, proved])).trans (strikeAtTest_pass good)))
    obtain ⟨low, high⟩ := reads_setPair (p := pgSys) (o := SYS.STRIKE_DUE_LO) (x := T)
      (s := (s.touch m).onStage fun g => { g with state := .armed, due := some (.net T), tag := none, proof := none }) ok
    have beside {o : Nat} (h : o = SYS.STRIKE_DUE_LO ∨ o = SYS.STRIKE_DUE_HI) : ¬(pgSys = cmdPage m ∧ o = resultOff m) := by
      rcases h with rfl | rfl <;> cases m <;> decide
    refine ⟨_, run, ⟨?_, (low.setResult (by decide) (by decide) (beside (.inl rfl))).2, (high.setResult (by decide) (by decide)
      (beside (.inr rfl))).2, accept_reports low.1⟩, State.accept_only (State.armStrikeAt_only (Only.upd (Only.refl _ _) rfl touched) rfl) rfl⟩
    have armed : (((s.touch m).armStrikeAt T none).accept m seq 5).stage = { (s.touch m).stage with
        state := .armed, due := some (.net T), tag := none, proof := none } := accept_frame .stage (by decide)
    rw [armed, stage]
  case invalid =>
    have run : exec (.strikeAt m seq arg8) s = .next (s.command m seq 5 _ _) := rfl
    rw [command_failed up free' (fun _ => rfl) ((stageTests_pass free (by simp [stageRow, proved])).trans (strikeAtTest_fails
      (strikeAtFail_invalid invalid)))] at run
    exact refuses_reporting whole.regs run
  case range =>
    have run : exec (.strikeAt m seq arg8) s = .next (s.command m seq 5 _ _) := rfl
    rw [command_failed up free' (fun _ => rfl) ((stageTests_pass free (by simp [stageRow, proved])).trans (strikeAtTest_fails
      (strikeAtFail_range valid far)))] at run
    exact refuses_reporting whole.regs run
  case readmits =>
    subst host
    intro ch
    have passes : stageRow s [1, 0, 10, 0, 0, 1, 1] = 0 := by
      rcases mayNow with state | state | state <;> simp [stageRow, state]
    refine ⟨fun p page retired => ?_, fun p page inService => ?_, fun none => ?_⟩
    · have run : exec (.readmit .host seq arg8) s = .next (s.command .host seq 10 _ _) := rfl
      rw [command_taken up (.inl free') nofun ((stageTests_pass free passes).trans (readmitTests_pass page retired)), page] at run
      have frame : ((s.touch .host).askReadmit ch p).stage = (((s.touch .host).askReadmit ch p).accept .host seq 10).stage :=
        (accept_frame .stage (by decide)).symm
      obtain ⟨opened, asked, dirty⟩ := askReadmit_stage (s := s.touch .host) (ch := ch) (p := p)
      rw [frame] at opened asked dirty
      exact ⟨_, run, ⟨opened, asked.trans (by rw [stage]), dirty, accept_reports ok⟩,
        State.accept_only (State.markDirty_only (State.onStage_only (Only.upd (Only.refl _ _) rfl touched) rfl) rfl) rfl⟩
    · have run : exec (.readmit .host seq arg8) s = .next (s.command .host seq 10 _ _) := rfl
      rw [command_failed up free' nofun ((stageTests_pass free passes).trans (readmitTests_inService page inService))] at run
      exact refuses_reporting whole.regs run
    · have run : exec (.readmit .host seq arg8) s = .next (s.command .host seq 10 _ _) := rfl
      rw [command_failed up free' nofun ((stageTests_pass free passes).trans (readmitTests_none none))] at run
      exact refuses_reporting whole.regs run

end Sys2Proof.Machine
end


section

/-! PROOF. Units of the block read after an update of their own, and the refusals of writes that are no commands of a master (R67). -/

namespace Sys2Proof.Machine

open Sys2Proof.Safety Sys2Proof.Claims

/-- Every unit of Table 2-1 is present. -/
structure Present (s : State) : Prop where
  axes : s.axes.length = 16
  drives : s.drives.length = 8
  ctxs : s.ctxs.length = 128
  fbs : s.fbs.length = 8
  mots : s.mots.length = 16
  cmps : s.cmps.length = 32
  latches : s.latches.length = 32
  groups : s.groups.length = 4
  legs : s.legs.length = 32
  lanes : s.lanes.length = 8
  ropes : s.ropes.length = 4
  shares : s.shares.length = 2
  dma : s.dma.length = 64
  cans : s.cans.length = 2
  dis : s.dis.length = 16
  dos : s.dos.length = 8
  sins : s.sins.length = 8
  reps : s.reps.length = 2

theorem present {s : State} (whole : Whole s) : Present s := by
  have units := whole.units
  simp only [unitCounts, List.cons.injEq] at units
  obtain ⟨axes, drives, ctxs, fbs, mots, cmps, latches, groups, legs, lanes, ropes, shares, dma, cans, dis, dos, sins, reps, -⟩ := units
  exact ⟨axes, drives, ctxs, fbs, mots, cmps, latches, groups, legs, lanes, ropes, shares, dma, cans, dis, dos, sins, reps⟩

section

variable {s : State} {n : Nat}

theorem ax_onAx_same {f : AxisSt → AxisSt} (h : n < s.axes.length) : (s.onAx n f).ax n = f (s.ax n) := getD_modify_same h

theorem dr_onDr_same {f : DriveSt → DriveSt} (h : n < s.drives.length) : (s.onDr n f).dr n = f (s.dr n) := getD_modify_same h

theorem fb_onFb_same {f : FbSt → FbSt} (h : n < s.fbs.length) : (s.onFb n f).fb n = f (s.fb n) := getD_modify_same h

theorem mt_onMt_same {f : MotSt → MotSt} (h : n < s.mots.length) : (s.onMt n f).mt n = f (s.mt n) := getD_modify_same h

theorem cm_onCm_same {f : CmpSt → CmpSt} (h : n < s.cmps.length) : (s.onCm n f).cm n = f (s.cm n) := getD_modify_same h

theorem la_onLa_same {f : LatchSt → LatchSt} (h : n < s.latches.length) : (s.onLa n f).la n = f (s.la n) := getD_modify_same h

theorem gr_onGr_same {f : GroupSt → GroupSt} (h : n < s.groups.length) : (s.onGr n f).gr n = f (s.gr n) := getD_modify_same h

theorem sh_onSh_same {f : ShareSt → ShareSt} (h : n < s.shares.length) : (s.onSh n f).sh n = f (s.sh n) := getD_modify_same h

theorem dm_onDm_same {f : DmaSt → DmaSt} (h : n < s.dma.length) : (s.onDm n f).dm n = f (s.dm n) := getD_modify_same h

theorem cn_onCn_same {f : CanSt → CanSt} (h : n < s.cans.length) : (s.onCn n f).cn n = f (s.cn n) := getD_modify_same h

theorem di_onDi_same {f : DiSt → DiSt} (h : n < s.dis.length) : (s.onDi n f).di n = f (s.di n) := getD_modify_same h

theorem fo_onFo_same {f : DoSt → DoSt} (h : n < s.dos.length) : (s.onFo n f).fo n = f (s.fo n) := getD_modify_same h

theorem si_onSi_same {f : SinSt → SinSt} (h : n < s.sins.length) : (s.onSi n f).si n = f (s.si n) := getD_modify_same h

end

section

variable {s t : State}

theorem ax_only {fs : List Part} (h : Only fs s t) (out : .axes ∉ fs) {n : Nat} : t.ax n = s.ax n := by
  rw [State.ax, h .axes out]
  rfl

theorem fb_only {fs : List Part} (h : Only fs s t) (out : .fbs ∉ fs) {n : Nat} : t.fb n = s.fb n := by
  rw [State.fb, h .fbs out]
  rfl

theorem mt_only {fs : List Part} (h : Only fs s t) (out : .mots ∉ fs) {n : Nat} : t.mt n = s.mt n := by
  rw [State.mt, h .mots out]
  rfl

theorem due_only {fs : List Part} (h : Only fs s t) (out : .timers ∉ fs) {x : Timer} : t.due x = s.due x := by
  rw [State.due, h .timers out]
  rfl

theorem srcOn_only {fs : List Part} (h : Only fs s t) (out : .safety ∉ fs) {src a : Nat} : t.srcOn src a = s.srcOn src a := by
  rw [State.srcOn, h .safety out]
  rfl

theorem now_only {fs : List Part} (h : Only fs s t) (out : .time ∉ fs) : t.now = s.now := congrArg TimeSt.tick (h .time out)

end

/-! Writes of the host that are refused. -/

section

variable {s : State} {m : Master} {code cmd addr p o : Nat} {v : Word} {c : Instr} {P : State → Prop}

/-- A write that a master is refused after its access has counted. -/
theorem refuses_touched (ok : MapOk s.regs) (run : exec c s = .next ((s.touch m).refuseBy m code cmd addr))
    (leaves : P ((s.touch m).refuseBy m code cmd addr)) : Refuses c m s P := by
  have regs : (s.touch m).regs = s.regs := touch_regs
  have ok' : MapOk (s.touch m).regs := regs ▸ ok
  refine ⟨_, run, ⟨?_, State.refuseBy_flags ok', State.refuseBy_marks, ?_, leaves⟩, State.refuseBy_only (Only.upd (Only.refl _ _) rfl touch_frame) rfl⟩
  · rw [State.refuseBy_counts ok', lv_of_regs regs]
  · rw [refuseBy_busy, State.touch, State.mstr_onMstr_same]

/-- The same where a register tells the refusal. -/
theorem refuses_telling (ok : MapOk s.regs) (ho : o < 4096) (quiet : o ≠ pageEvent) (beside : ¬(pgSys = p ∧ SYS.REFUSED_COUNT = o))
    (run : exec c s = .next (((s.touch m).refuseBy m code cmd addr).setLv p o v))
    (leaves : P (((s.touch m).refuseBy m code cmd addr).setLv p o v)) : Refuses c m s P := by
  have regs : (s.touch m).regs = s.regs := touch_regs
  have ok' : MapOk (s.touch m).regs := regs ▸ ok
  have refused := refuseBy_ok (m := m) (e := code) (c := cmd) (addr := addr) ok'
  refine ⟨_, run, ⟨?_, flagged_setLv (State.refuseBy_flags ok') refused ho quiet, State.refuseBy_marks, ?_, leaves⟩,
    State.setLv_only (State.refuseBy_only (Only.upd (Only.refl _ _) rfl touch_frame) rfl) rfl⟩
  · rw [State.lv_setLv_ne refused fun e => beside ((regAddr_inj ho (by decide)).mp e), State.refuseBy_counts ok', lv_of_regs regs]
  · show (((s.touch m).refuseBy m code cmd addr).mstr m).busy = _
    rw [refuseBy_busy, State.touch, State.mstr_onMstr_same]

end

end Sys2Proof.Machine
end


section

/-! PROOF. Axis commands (R277, Table 11-1). -/

namespace Sys2Proof.Machine

open Sys2Proof.Safety Sys2Proof.Claims

section

variable {s : State} {a code e : Nat} {gs : List Part}

/-! What the tests of an axis command read does not change with the host's access. -/

theorem axLocked_touch : (s.touch .host).axLocked a = s.axLocked a := rfl

theorem axFail_touch : (s.touch .host).axFail a code = s.axFail a code := rfl

theorem hostAxis_taken (up : s.up = true) (free : s.axLocked a = false) (good : s.axFail a code = none) :
    s.hostAxis a code = ((s.touch .host).axEffect a code).axResult a code eNone := by
  unfold State.hostAxis State.axisCmd
  rw [if_pos up, axLocked_touch, free, axFail_touch, good]
  rfl

theorem hostAxis_refused (up : s.up = true) (bad : (if s.axLocked a then some eState else s.axFail a code) = some e) :
    s.hostAxis a code = ((s.touch .host).refuseBy .host e 0 (regAddr pgSafe SAFE.AXIS_CMD)).axResult a code e := by
  unfold State.hostAxis State.axisCmd
  rw [if_pos up, axLocked_touch, axFail_touch, bad]

/-- READY is entered with the reactions gone and the offsets to take (R135). -/
theorem enterReady_ax (low : a < s.axes.length) : (s.enterReady a).ax a = { s.ax a with
    state := .ready, react := none, faulty := false, sto := false, asc := false, sub := false, capturing := !(axSense s.force a).isEmpty } := by
  have entered : (s.onAx a fun x => { x with
      state := .ready, react := none, faulty := false, sto := false, asc := false, sub := false,
      capturing := !(axSense s.force a).isEmpty }).ax a = _ := ax_onAx_same low
  refine Eq.trans (ax_only (fs := [.drives, .timers]) ?_ (by decide)) entered
  unfold State.enterReady
  extract_lets c s1 s2
  exact only_ite (State.onDr_only (Only.refl _ _) rfl) (only_ite (State.startT_only (State.startT_only (State.onDr_only
    (Only.refl _ _) rfl) rfl) rfl) (State.startT_only (State.onDr_only (Only.refl _ _) rfl) rfl))

/-- An axis command that is taken: its effect, and its result. -/
theorem axis_taken {c : Instr} {fs : List Part} {u : State} (whole : Whole s) (up : s.up = true) (free : s.axLocked a = false)
    (good : s.axFail a code = none) (run : exec c s = .next (s.hostAxis a code)) (effect : (s.touch .host).axEffect a code = u)
    (only : Only fs (s.touch .host) u) (out : .regs ∉ fs) (sub : In [.regs, .host] gs) (sub' : In fs gs) :
    ∃ t, exec c s = .next t ∧ t.ax a = u.ax a ∧ t.timers = u.timers ∧
      t.lv pgSafe SAFE.AXIS_CMD_RESULT = nw (a * 2 ^ 16 + code * 2 ^ 8 + eNone) ∧ Only gs s t := by
  rw [hostAxis_taken up free good, effect] at run
  have regs : u.regs = s.regs := only .regs out
  exact ⟨_, run, rfl, rfl, State.lv_setLv_same (regs ▸ whole.regs), State.axResult_only (Only.upd (touchHost_only (Only.refl _ _)
    (inT rfl sub)) sub' only) (inT rfl sub)⟩

end

/-- Settles O34. -/
theorem axisCommands : Obligations.AxisCommands := by
  intro axis s whole up a x held reports
  have low : a < s.axes.length := by
    rw [(present whole).axes]
    exact axis.isLt
  have ok : MapOk (s.touch .host).regs := whole.regs
  have hold (free : ¬held) : (s.demandOn a || decide (s.sched.request = some 3)) = false := by
    simp only [held, not_or, Bool.not_eq_true] at free
    simp [free.1, free.2]
  refine ⟨fun free => ⟨fun disabled calm normal => ?enable, fun ready idle calm => ?run, fun runs => ?stop, fun ready => ?disable,
    fun fault quiet => ?clear⟩, fun c code e bad => ?refused⟩
  case enable =>
    have good : s.axFail a 1 = none := by simp [State.axFail, x, disabled, hold calm, normal]
    obtain ⟨t, run, ax, -, told, only⟩ := axis_taken (c := .axisEnable axis) whole up free good rfl rfl
      (State.enterReady_only (Only.refl [.axes, .drives, .timers] _) rfl) (by decide) (gs := [.regs, .host, .axes, .drives, .timers]) rfl rfl
    exact ⟨t, run, ⟨ax.trans (enterReady_ax (s := s.touch .host) low), told⟩, only⟩
  case run =>
    have good : s.axFail a 2 = none := by simp [State.axFail, x, ready, idle, hold calm]
    obtain ⟨t, run, ax, -, told, only⟩ := axis_taken (c := .axisRun axis) whole up free good rfl rfl (State.onAx_only (Only.refl [.axes] _) rfl)
      (by decide) (gs := [.regs, .host, .axes]) rfl rfl
    exact ⟨t, run, ⟨ax.trans (ax_onAx_same (s := s.touch .host) low), told⟩, only⟩
  case stop =>
    have good : s.axFail a 3 = none := by
      rcases runs with state | state <;> simp [State.axFail, x, state, AxState.runs]
    obtain ⟨t, run, ax, -, told, only⟩ := axis_taken (c := .axisStop axis) whole up free good rfl rfl (State.onAx_only (Only.refl [.axes] _) rfl)
      (by decide) (gs := [.regs, .host, .axes]) rfl rfl
    exact ⟨t, run, ⟨ax.trans (ax_onAx_same (s := s.touch .host) low), told⟩, only⟩
  case disable =>
    have good : s.axFail a 4 = none := by simp [State.axFail, x, ready]
    obtain ⟨t, run, ax, timers, told, only⟩ := axis_taken (c := .axisDisable axis) whole up free good rfl rfl
      (State.onAx_only (State.stopT_only (State.stopT_only (Only.refl [.axes, .timers] _) rfl) rfl) rfl) (by decide)
      (gs := [.regs, .host, .axes, .timers]) rfl rfl
    have due (x : Timer) : t.due x = (((s.touch .host).stopT (.offsetCapture a)).stopT (.sdRefresh a)).due x := by
      rw [State.due, timers]
      rfl
    refine ⟨t, run, ⟨ax.trans (ax_onAx_same (s := ((s.touch .host).stopT _).stopT _) low), ?_, (due _).trans State.due_stopT_same, told⟩, only⟩
    exact (due _).trans ((State.due_stopT_ne (s := (s.touch .host).stopT (.offsetCapture a)) (t := .sdRefresh a)
      (u := .offsetCapture a) nofun).trans State.due_stopT_same)
  case clear =>
    have good : s.axFail a 5 = none := by simp [State.axFail, x, fault, quiet]
    obtain ⟨t, run, ax, -, told, only⟩ := axis_taken (c := .axisClear axis) whole up free good rfl rfl (State.onAx_only (Only.refl [.axes] _) rfl)
      (by decide) (gs := [.regs, .host, .axes]) rfl rfl
    exact ⟨t, run, ⟨ax.trans (ax_onAx_same (s := s.touch .host) low), told⟩, only⟩
  case refused =>
    have told {code : Nat} : reports code e (((s.touch .host).refuseBy .host e 0 (regAddr pgSafe SAFE.AXIS_CMD)).axResult a code e) :=
      State.lv_setLv_same (refuseBy_ok ok)
    have refused {code : Nat} {c : Instr} (run : exec c s = .next (s.hostAxis a code))
        (bad : (if s.axLocked a then some eState else s.axFail a code) = some e) : Refuses c .host s (reports code e) := by
      rw [hostAxis_refused up bad] at run
      exact refuses_telling whole.regs (by decide) (by decide) (by decide) run told
    have state {code : Nat} (bad : s.axFail a code = some eState) : (if s.axLocked a then some eState else s.axFail a code) = some eState := by
      rw [bad, ite_self]
    have locked_ {code : Nat} (locked : s.axLocked a = true) : (if s.axLocked a then some eState else s.axFail a code) = some eState := if_pos locked
    rcases bad with ⟨rfl, rfl, rfl, bad⟩ | ⟨rfl, rfl, rfl, ready, busy, free⟩ | ⟨rfl, rfl, rfl, bad⟩ | ⟨rfl, rfl, rfl, notRun, notDegraded⟩ |
      ⟨rfl, rfl, rfl, bad⟩ | ⟨rfl, rfl, rfl, bad⟩ |
      ⟨rfl, locked, ⟨rfl, rfl⟩ | ⟨rfl, rfl⟩ | ⟨rfl, rfl⟩ | ⟨rfl, rfl⟩ | ⟨rfl, rfl⟩⟩
    · refine refused rfl (state ?_)
      rcases bad with bad | held
      · simp [State.axFail, x, bad]
      · rcases held with held | held <;> simp [State.axFail, held]
    · refine refused rfl ?_
      simp [State.axFail, free, x, ready, busy]
    · refine refused rfl (state ?_)
      rcases bad with bad | ⟨idle, held⟩
      · simp [State.axFail, x, bad]
      · rcases held with held | held <;> simp [State.axFail, x, idle, held]
    · refine refused rfl (state ?_)
      simp [State.axFail, x, AxState.runs, notRun, notDegraded]
    · refine refused rfl (state ?_)
      simp [State.axFail, x, bad]
    · refine refused rfl (state ?_)
      rcases bad with bad | active
      · simp [State.axFail, x, bad]
      · simp [State.axFail, active]
    · exact refused rfl (locked_ locked)
    · exact refused rfl (locked_ locked)
    · exact refused rfl (locked_ locked)
    · exact refused rfl (locked_ locked)
    · exact refused rfl (locked_ locked)

end Sys2Proof.Machine
end


section

/-! PROOF. Commands of the device as a whole (R52, R68, R81, R83, R276, R439): SAFE_STOP, SAVE_IMAGE, CLEAR_EVENTS and POWER_REQ. -/

namespace Sys2Proof.Machine

open Sys2Proof.Safety Sys2Proof.Claims

section

variable {P : State → Prop} {s : State}

/-- P outlives what the rescue sequence writes into its own registers. -/
def OutlivesRescue (P : State → Prop) : Prop :=
  ∀ t o v, o = HOIST.RESCUE_STATUS ∨ o = HOIST.RESCUE_COUNT → P t → P (t.setLv pgHoist o v)

theorem outlivesRescue_up : OutlivesRescue (Up s) := fun _ _ _ ho h => h.setLv (by rcases ho with rfl | rfl <;> decide)

theorem outlivesRescue_reads {p o : Nat} {w : Word} (n : regAddr p o ≠ regAddr pgHoist HOIST.RESCUE_STATUS)
    (n' : regAddr p o ≠ regAddr pgHoist HOIST.RESCUE_COUNT) : OutlivesRescue (Reads p o w) := fun _ _ _ ho h => by
  rcases ho with rfl | rfl
  · exact h.setLv_ne n
  · exact h.setLv_ne n'

theorem Rising.rescueAbort (rise : Rising P) (rescue : OutlivesRescue P) {reason : Nat} (h : P s) : P (s.rescueAbort reason) := by
  unfold State.rescueAbort
  split
  · exact h
  · extract_lets a quiet status count raised calm
    have quiet_ : P quiet := rise.only (State.setSeq_only (State.sbcIssue_only (State.rescueQuiet_only
      (Only.refl [.axes, .timers, .rescue] s) rfl) rfl) rfl) (by decide) h
    have calm_ : P calm := rise.same (rise.raise (rise.fault (rise.event (rescue _ _ _ (.inr rfl) (rescue _ _ _ (.inl rfl) quiet_))))) rfl
    split
    · exact calm_
    · exact rise.only (State.pushReact_only (State.stoNow_only (Only.refl [.axes, .timers, .mots, .legs] calm) rfl) rfl) (by decide) calm_

theorem Rising.safeStopAxis (rise : Rising P) (rescue : OutlivesRescue P) {a : Nat} (h : P s) : P (s.safeStopAxis a) := by
  unfold State.safeStopAxis
  extract_lets pushed
  have pushed_ : P pushed := rise.same h rfl
  split
  · exact rise.rescueAbort rescue pushed_
  · exact pushed_

/-- The axes that a SAFE_STOP stops. -/
def safeStopAxes (a : Nat) : List Nat := if a < 16 then [a] else List.range 16

/-- SAFE_STOP as it acts while the fabric is up. -/
def safeStopped (s : State) (m : Master) (a : Nat) : State :=
  forL (safeStopAxes a) (fun b s => s.safeStopAxis b)
    (((s.noteSrc srcSafeStop (if a < 16 then a else 16) (masterCode m)).clearSrc srcSafeStop (if a < 16 then a else 16)).event pgSafe 8)

theorem safeStop_runs {m : Master} {seq arg8 : Byte} (up : s.up = true) : exec (.safeStop m seq arg8) s =
    .next (s.command m seq 8 [(decide (16 ≤ arg8.toNat ∧ arg8.toNat ≠ 0xFF), eRange)] fun s =>
      if ((safeStopped s m arg8.toNat).mstr m).busy.isSome then safeStopped s m arg8.toNat else (safeStopped s m arg8.toNat).accept m seq 8) := by
  show execSafeStop m seq arg8 s = _
  rw [execSafeStop]
  extract_lets a
  rw [if_neg (by simp [up])]
  rfl

theorem safeStopped_only {m : Master} {a : Nat} : Only [.regs, .axes, .mots, .legs, .rescue, .safety, .trace, .log, .timers] s (safeStopped s m a) :=
  forL_only (fun _ _ h => State.safeStopAxis_only h rfl) (State.event_only (State.clearSrc_only (State.noteSrc_only (Only.refl _ _) rfl) rfl) rfl)

theorem Rising.safeStopped (rise : Rising P) (rescue : OutlivesRescue P) {m : Master} {a : Nat} (h : P s) : P (safeStopped s m a) :=
  forL_ind (fun _ _ k => rise.safeStopAxis rescue k) _ (rise.event (rise.clearSrc (rise.noteSrc h)))

/-- SAFE_STOP raises its event. -/
theorem safeStopped_flags {m : Master} {a : Nat} (ok : MapOk s.regs) : Flagged (safeStopped s m a) pgSafe 3 ∧ MapOk (safeStopped s m a).regs := by
  have noted : MapOk ((s.noteSrc srcSafeStop (if a < 16 then a else 16) (masterCode m)).clearSrc srcSafeStop (if a < 16 then a else 16)).regs :=
    (rising_up.clearSrc (rising_up.noteSrc (Up.refl ok))).ok
  obtain ⟨up, flagged⟩ := event_flags (p := pgSafe) (bits := 8) (i := 3) noted (by decide)
  have raised := forL_ind (P := Up _) (f := fun b s => s.safeStopAxis b) (fun _ _ k => rising_up.safeStopAxis outlivesRescue_up k)
    (safeStopAxes a) up
  exact ⟨raised.bits _ _ flagged, raised.ok⟩

end

/-! CLEAR_EVENTS. -/

section

variable {s : State}

theorem clearedOne_beside : ∀ x ∈ clearedOne, x.2 < 4096 ∧ x.2 ≠ pageEvent ∧ ¬(x.1 = pgSys ∧ x.2 = SYS.CMD_RESULT) ∧ ¬(0x10 ≤ x.1 ∧ x.1 < 0x18) := by
  decide

theorem clearedMany_beside : ∀ x ∈ clearedMany, x.2 < 4096 ∧ x.2 ≠ pageEvent ∧ x.1 ≠ pgSys ∧ (0x10 ≤ x.1 ∧ x.1 < 0x18 → x.2 ≠ AXIS.DEPTH) := by
  intro x mem
  simp only [clearedMany, List.mem_append, List.mem_flatMap, List.mem_map, List.mem_range, List.mem_cons, List.not_mem_nil, or_false] at mem
  rcases mem with ((⟨n, hn, rfl | rfl | rfl | rfl | rfl⟩ | ⟨n, hn, j, hj, rfl⟩) | ⟨n, hn, j, hj, rfl | rfl⟩) | ⟨n, hn, j, hj, rfl⟩ <;>
    simp only [pgSys, pgLane, pgAxis, pgFb, pgPwm, pgGd, pgDmach, pageEvent, LANE.USED_MAX, LANE.BOUND_ABORTS, LANE.URGENT_MERGED, AXIS.DEPTH,
      AXIS.RESTART_COUNT, FB.FAULT_COUNT, PWM.LATE_UPDATES, GD.TRIP_COUNT, GD.XCMD_COUNT, DMACH.ZERO_BEATS] <;> omega

/-- The counters that CLEAR_EVENTS clears are no events, no results, and none of the depths that it changes in part. -/
theorem cleared_beside {x : Nat × Nat} (mem : x ∈ clearedOne ++ clearedMany) : x.2 < 4096 ∧ x.2 ≠ pageEvent ∧
    ¬(x.1 = pgSys ∧ x.2 = SYS.CMD_RESULT) ∧ ∀ a < 8, ¬(x.1 = pgAxis a ∧ x.2 = AXIS.DEPTH) := by
  rcases List.mem_append.mp mem with one | many
  · obtain ⟨low, quiet, result, page⟩ := clearedOne_beside x one
    exact ⟨low, quiet, result, fun a ha e => page (by simp only [e.1, pgAxis]; omega)⟩
  · obtain ⟨low, quiet, page, depth⟩ := clearedMany_beside x many
    exact ⟨low, quiet, fun e => page e.1, fun a ha e => depth (by simp only [e.1, pgAxis]; omega) e.2⟩

theorem forL_ind_mem {α : Type} {P : State → Prop} {f : α → State → State} : ∀ (l : List α) {s : State}, (∀ i ∈ l, ∀ s, P s → P (f i s)) →
    P s → P (forL l f s)
  | [], _, _, h => h
  | i :: l, _, hf, h => forL_ind_mem l (fun j mem => hf j (List.mem_cons_of_mem i mem)) (hf i List.mem_cons_self _ h)

theorem forL_setLv_zero {l : List (Nat × Nat)} {x : Nat × Nat} (ok : MapOk s.regs) (mem : x ∈ l) (low : ∀ y ∈ l, y.2 < 4096) :
    Reads x.1 x.2 0 (forL l (fun y s => s.setLv y.1 y.2 0) s) := by
  obtain ⟨before, after, rfl⟩ := List.append_of_mem mem
  have turn : forL (before ++ x :: after) (fun y s => s.setLv y.1 y.2 0) s =
      forL after (fun y s => s.setLv y.1 y.2 0) ((forL before (fun y s => s.setLv y.1 y.2 0) s).setLv x.1 x.2 0) := by
    simp [forL, List.foldl_append]
  have ok' : MapOk (forL before (fun y s => s.setLv y.1 y.2 0) s).regs := forL_ind (P := fun t => MapOk t.regs) (fun _ _ ok => MapOk.set ok) _ ok
  rw [turn]
  refine forL_ind_mem (P := Reads x.1 x.2 0) after (fun y later t h => ?_) ⟨MapOk.set ok', State.lv_setLv_same ok'⟩
  by_cases same : y = x
  · subst same
    exact ⟨MapOk.set h.1, State.lv_setLv_same h.1⟩
  · refine h.setLv_ne fun e => same ?_
    obtain ⟨page, offset⟩ := (regAddr_inj (low y (by simp [later])) (low x (by simp))).mp e
    exact Prod.ext page.symm offset.symm

theorem clearCounters_zero (ok : MapOk s.regs) {x : Nat × Nat} (mem : x ∈ clearedOne ++ clearedMany) : Reads x.1 x.2 0 s.clearCounters := by
  obtain ⟨low, -, -, depth⟩ := cleared_beside mem
  refine forL_ind_mem (P := Reads x.1 x.2 0) (List.range 8) (fun a mem t h => ?_) (forL_setLv_zero ok mem fun y mem => (cleared_beside mem).1)
  exact h.setLv_ne fun e => depth a (List.mem_range.mp mem) ((regAddr_inj (by decide) low).mp e)

theorem clearCounters_up {t : State} (h : Up s t) : Up s t.clearCounters := by
  have zero : Up s (forL (clearedOne ++ clearedMany) (fun x s => s.setLv x.1 x.2 0) t) := forL_ind_mem (P := Up s) _ (fun x mem u h => by
    obtain ⟨low, quiet, -⟩ := cleared_beside mem
    exact h.setLv (by rw [regAddr_mod low]; exact quiet)) h
  exact zero.forN fun a u h => h.setLv (by rw [regAddr_mod (by decide)]; decide)

theorem clearFaults_up {t : State} (h : Up s t) : Up s t.clearFaults := by
  have fault {u : State} {p : Nat} {v : Word} (h : Up s u) : Up s (u.setLv p pageFault v) := h.setLv (by rw [regAddr_mod (by decide)]; decide)
  have cleared : Up s (forL (allPages.filter fun p => !(decide (0x40 ≤ p) && decide (p < 0x48))) (fun p s =>
      if s.lv p pageFault = 0 then s
      else s.onLv p pageFault fun w => nw ((List.range 32).map fun b => bitAt b (bt w b && s.faultHeld p b)).sum) t) :=
    h.forL fun p u h => up_ite h (fault h)
  refine cleared.forN fun x u h => ?_
  extract_lets y
  have y_ : Up s y := h.same rfl
  exact up_ite y_ (fault y_)

theorem shareMismatch_up {t : State} {g : Nat} {on : Bool} (h : Up s t) : Up s (t.shareMismatch g on) := by
  unfold State.shareMismatch
  extract_lets was noted
  have noted_ : Up s noted := h.same rfl
  refine up_ite (noted_.pfault.forL fun _ _ h => h.raise) (up_ite (noted_.forL fun _ _ h => h.same rfl) noted_)

theorem clearLatched_up {t : State} (h : Up s t) : Up s t.clearLatched := by
  unfold State.clearLatched
  extract_lets sins chop shares ended
  have sins_ : Up s sins := h.same (State.clearSin_only (Only.refl [.sins, .safety] t) rfl .regs (by decide))
  clear_value sins
  have chop_ : Up s chop := by
    unfold chop
    split
    · exact up_ite (sins_.same rfl) sins_
    · exact sins_
  clear_value chop
  have shares_ : Up s shares := chop_.forN fun g u h => up_ite ((shareMismatch_up h).same rfl) h
  clear_value shares
  exact up_ite (shares_.same rfl) (shares_.same rfl)

theorem clearLatched_ends {src : Nat} (e : src = srcNodeConf) : s.clearLatched.srcOn src 16 = false := by
  subst e
  unfold State.clearLatched
  extract_lets sins chop shares ended
  clear_value shares
  have off : ended.srcOn srcNodeConf 16 = false := clearSrc_off
  split
  · exact off
  · exact off

end

theorem clearAll_leaves {s t : State} (h : Up s t) : Up s t.clearAll ∧ t.clearAll.srcOn srcNodeConf 16 = false ∧
    ∀ x ∈ clearedOne ++ clearedMany, Reads x.1 x.2 0 t.clearAll := by
  have up : Up s t.clearLatched.clearFaults := clearFaults_up (clearLatched_up h)
  have ended := clearLatched_ends (s := t) rfl
  unfold State.clearAll
  refine ⟨clearCounters_up up, ?_, fun x mem => clearCounters_zero up.ok mem⟩
  rw [srcOn_only (State.clearCounters_only (State.clearFaults_only (Only.refl [.regs, .ctxs] t.clearLatched) rfl) rfl) (by decide)]
  exact ended

/-- Settles O33. -/
theorem deviceCommands : Obligations.DeviceCommands := by
  refine ⟨fun m seq arg8 s whole up axes => ?stops, fun m seq arg8 s whole up high other idle => ?range,
    fun seq arg8 s whole up idle => ⟨fun normal => ?saves, fun rescue => ?late⟩, fun seq arg8 s whole up idle => ?clears,
    fun v s whole up => ⟨fun good => ?asks, fun bad => ?refused⟩⟩
  case stops =>
    have good : firstFail [(decide (16 ≤ arg8.toNat ∧ arg8.toNat ≠ 0xFF), eRange)] = none := by
      have : ¬(16 ≤ arg8.toNat ∧ arg8.toNat ≠ 0xFF) := by
        rintro ⟨high, other⟩
        rcases axes with low | rfl
        · omega
        · exact other rfl
      simp [firstFail, this]
    have run := safeStop_runs (m := m) (seq := seq) (arg8 := arg8) up
    rw [command_taken up (.inr (.inr rfl)) (fun _ => rfl) good] at run
    have ok : MapOk (s.touch m).regs := touch_regs (s := s) (m := m) ▸ whole.regs
    obtain ⟨flagged, ok'⟩ := safeStopped_flags (s := s.touch m) (m := m) (a := arg8.toNat) ok
    have stopped := safeStopped_only (s := s.touch m) (m := m) (a := arg8.toNat)
    have busy : ((safeStopped (s.touch m) m arg8.toNat).mstr m).busy = (s.mstr m).busy := by
      rw [Only.mstr stopped (by decide) (by decide), State.touch, State.mstr_onMstr_same]
    have reads : Reads (cmdPage m) (resultOff m) (s.lv (cmdPage m) (resultOff m)) (safeStopped (s.touch m) m arg8.toNat) := by
      refine Rising.safeStopped (rising_reads (by cases m <;> decide)) (outlivesRescue_reads (by cases m <;> decide) (by cases m <;> decide)) ?_
      exact ⟨ok, lv_of_regs touch_regs⟩
    have touched : Only [.regs, .host, .mgr, .axes, .mots, .legs, .rescue, .safety, .trace, .log, .timers] s (safeStopped (s.touch m) m arg8.toNat) :=
      Only.upd (Only.upd (Only.refl _ _) rfl touch_frame) rfl stopped
    generalize safeStopped (s.touch m) m arg8.toNat = t at *
    refine ⟨_, run, ?_⟩
    rw [busy]
    split
    · next busy =>
      exact ⟨⟨flagged, touched .stage (by decide), fun idle => by simp [idle] at busy, fun _ => reads.2⟩, touched⟩
    · next idle =>
      exact ⟨⟨(Up.setResult (Up.refl ok')).bits _ _ flagged, (accept_frame .stage (by decide)).trans (touched .stage (by decide)),
        fun _ => accept_reports ok', fun busy => absurd busy idle⟩,
        State.accept_only touched rfl⟩
  case range =>
    have run := safeStop_runs (m := m) (seq := seq) (arg8 := arg8) up
    have other' : arg8.toNat ≠ 0xFF := fun e => other (BitVec.eq_of_toNat_eq e)
    rw [command_failed up idle (fun _ => rfl) (e := eRange) (by simp [firstFail, high, other'])] at run
    exact refuses_reporting whole.regs run
  case saves =>
    have run : exec (.saveImage .host seq arg8) s = .next (s.command .host seq 0x0B [(decide (2 ≤ s.sched.state), eState)] _) := rfl
    rw [command_taken (m := .host) up (.inl idle) nofun (by simp [firstFail]; omega)] at run
    obtain ⟨reports, busy, seq_⟩ := begin_leaves (m := .host) (seq := seq) (code := 11)
      (s := (s.touch .host).onStage fun g => { g with save := some false }) whole.regs
    exact ⟨_, run, ⟨rfl, busy, seq_, reports⟩, beginHost_only (State.onStage_only (touchHost_only (Only.refl _ _) rfl) rfl) rfl⟩
  case late =>
    have run : exec (.saveImage .host seq arg8) s = .next (s.command .host seq 0x0B [(decide (2 ≤ s.sched.state), eState)] _) := rfl
    rw [command_failed (m := .host) up idle nofun (e := eState) (by simp [firstFail, rescue])] at run
    exact refuses_reporting whole.regs run
  case clears =>
    have run : exec (.clearEvents .host seq arg8) s = .next (s.command .host seq 9 _ _) := rfl
    rw [command_taken (m := .host) up (.inl idle) nofun rfl] at run
    obtain ⟨rises, ended, zero⟩ := clearAll_leaves (Up.refl (s := s.touch .host) whole.regs)
    have cleared := State.clearAll_only (Only.refl [.regs, .axes, .ctxs, .shares, .chop, .sins, .safety, .trace, .log] (s.touch .host)) rfl
    refine ⟨_, run, ⟨accept_reports (m := .host) rises.ok, fun x mem => ?_, ?_, fun p i flagged => ?_⟩,
      State.accept_only (m := .host) (Only.upd (touchHost_only (Only.refl _ _) rfl) rfl cleared) rfl⟩
    · obtain ⟨low, -, beside, -⟩ := cleared_beside mem
      exact ((zero x mem).setLv_ne (result_beside (m := .host) low beside)).2
    · exact (srcOn_only (accept_frame (s := (s.touch .host).clearAll) (m := .host)) (by decide)).trans ended
    · exact (Up.setResult rises).bits p i flagged
  case asks =>
    have run : exec (.powerReq v) s = .next ((s.touch .host).powerReq .host v) := if_pos up
    have good' : (s.touch .host).powerBad (fld v 1 0) = false := good
    rw [State.powerReq, if_neg (by simp [good'])] at run
    exact ⟨_, run, ⟨rfl, OneReg.of_regs (oneReg_setLv (s := s.touch .host) whole.regs (by decide)) rfl⟩,
      State.onSched_only (State.setLv_only (touchHost_only (Only.refl _ _) rfl) rfl) rfl⟩
  case refused =>
    have run : exec (.powerReq v) s = .next ((s.touch .host).powerReq .host v) := if_pos up
    have bad' : (s.touch .host).powerBad (fld v 1 0) = true := bad
    rw [State.powerReq, if_pos bad'] at run
    exact refuses_touched whole.regs run (State.refuseBy_only (touchHost_only (Only.refl [.host, .regs, .mgr, .trace, .log] s) rfl) rfl .sched (by decide))

end Sys2Proof.Machine
end


section

/-! PROOF. The chopper's faults (R268) and the precheck sequence (R270, R271, Table 10-4). -/

namespace Sys2Proof.Machine

open Sys2Proof.Safety Sys2Proof.Claims

/-! Sources that are active stay so while others are raised. -/

section

variable {s : State} {x y : Nat}

theorem noteSrc_keeps {src a m : Nat} (h : s.srcOn x y = true) : (s.noteSrc src a m).srcOn x y = true := by
  unfold State.noteSrc
  extract_lets noted
  have noted_ : noted.srcOn x y = true := by
    have mem : (x, y) ∈ s.safety.srcs := List.contains_iff_mem.mp h
    exact List.contains_iff_mem.mpr (List.mem_append_left _ mem)
  rw [srcOn_only (State.event_only (State.logAdd_only (Only.refl [.regs, .trace, .log] noted) rfl) rfl) (by decide)]
  exact noted_

theorem raise_keeps {src a : Nat} (h : s.srcOn x y = true) : (s.raise src a).srcOn x y = true := by
  unfold State.raise
  split
  · exact h
  · refine forL_ind (P := fun t => t.srcOn x y = true) (fun b t k => ?_) _ (noteSrc_keeps h)
    split
    · exact k
    · exact k

theorem raiseNow_keeps {src a : Nat} (h : s.srcOn x y = true) : (s.raiseNow src a).srcOn x y = true := by
  unfold State.raiseNow
  split
  · exact h
  · refine forL_ind (P := fun t => t.srcOn x y = true) (fun b t k => ?_) _ (noteSrc_keeps h)
    split
    · exact k
    · split
      · exact k
      · rw [srcOn_only (State.pushReact_only (State.stoNow_only (Only.refl [.axes, .timers, .mots, .legs] t) rfl) rfl) (by decide)]
        exact k
    · exact k

theorem loseLane_keeps {n : Nat} (h : s.srcOn x y = true) : (s.loseLane n).srcOn x y = true := by
  unfold State.loseLane
  extract_lets raised
  have raised_ : raised.srcOn x y = true := forL_ind (P := fun t => t.srcOn x y = true) (fun _ _ k => raiseNow_keeps k) _ h
  split
  · exact raised_
  · exact raised_

theorem stopLane_keeps {n : Nat} (h : s.srcOn x y = true) : (s.stopLane n).srcOn x y = true := by
  unfold State.stopLane
  extract_lets l stopped lost
  have lost_ : lost.srcOn x y = true := forL_ind (P := fun t => t.srcOn x y = true) (fun _ _ k => loseLane_keeps k) _ h
  split
  · exact lost_
  · exact (srcOn_only (State.startReproof_only (Only.refl [.stage] _) rfl) (by decide)).trans (loseLane_keeps lost_)

theorem retire_keeps {cls idx : Nat} (h : s.srcOn x y = true) : (s.retire cls idx).srcOn x y = true := by
  unfold State.retire
  split
  · exact h
  · extract_lets noted logged void
    have void_ : void.srcOn x y = true := (srcOn_only (State.voidProof_only (State.logAdd_only (State.onChan_only
      (Only.refl [.chans, .stage, .regs, .trace, .log] s) rfl) rfl) rfl) (by decide)).trans h
    let parts : List Part := [.regs, .stage, .fbs, .legs, .cans, .dos]
    have keeps (t : State) (h : Only parts void t) : t.srcOn x y = true := (srcOn_only h (by decide)).trans void_
    clear_value void
    split
    · exact keeps _ (State.startReproof_only (State.onFb_only (Only.refl _ _) rfl) rfl)
    · exact keeps _ (State.startReproof_only (State.pfault_only (State.onLg_only (State.legOff_only (Only.refl _ _) rfl) rfl) rfl) rfl)
    · exact keeps _ (State.startReproof_only (State.pfault_only (State.onLg_only (State.legOff_only (Only.refl _ _) rfl) rfl) rfl) rfl)
    · exact stopLane_keeps void_
    · exact keeps _ (State.startReproof_only (State.pfault_only (State.onCn_only (Only.refl _ _) rfl) rfl) rfl)
    · exact keeps _ (State.startReproof_only (State.pfault_only (State.onFo_only (Only.refl _ _) rfl) rfl) rfl)
    · exact keeps _ (State.startReproof_only (Only.refl _ _) rfl)

theorem onset_keeps {cls idx : Nat} (h : s.srcOn x y = true) : (s.onset cls idx).srcOn x y = true := by
  unfold State.onset State.onsetWith
  split
  · exact h
  · extract_lets ons counted till
    have counted_ : counted.srcOn x y = true := h
    split
    · exact retire_keeps counted_
    · exact (srcOn_only (State.intoRetry_only (State.onChan_only (Only.refl [.chans, .fbs, .legs, .dos] counted) rfl) rfl) (by decide)).trans counted_

/-- What the abort of the rescue does before it removes gates. -/
def rescueStops (s : State) (reason : Nat) : State :=
  let a := rescueAxis s.force
  let s := (s.rescueQuiet.sbcIssue a).setSeq .aborted
  let s := s.onLv pgHoist HOIST.RESCUE_STATUS fun w => putFld w 19 16 reason
  let s := s.onLv pgHoist HOIST.RESCUE_COUNT fun w => nw ((fld w 31 16 + 1) % 65536 * 65536 + fld w 15 0)
  let s := ((s.event pgHoist 0x4000).pfault pgHoist 0x1000).raise srcRescue a
  s.onAx a fun x => { x with runPending := false }

theorem rescueAbort_eq {reason : Nat} (busy : s.rescueBusy = true) : s.rescueAbort reason =
    if reason = 1 ∨ reason = 2 then rescueStops s reason
    else ((rescueStops s reason).stoNow (rescueAxis s.force)).pushReact (rescueAxis s.force) .sto srcRescue false := by
  unfold State.rescueAbort
  rw [if_neg (by simp [busy])]
  rfl

theorem rescueAbort_idle {reason : Nat} (idle : s.rescueBusy = false) : s.rescueAbort reason = s := by simp [State.rescueAbort, idle]

theorem rescueStops_keeps {reason : Nat} (h : s.srcOn x y = true) : (rescueStops s reason).srcOn x y = true := by
  unfold rescueStops
  extract_lets a quiet status count raised
  have quiet_ : quiet.srcOn x y = true := (srcOn_only (State.setSeq_only (State.sbcIssue_only (State.rescueQuiet_only
    (Only.refl [.axes, .timers, .rescue] s) rfl) rfl) rfl) (by decide)).trans h
  clear_value quiet
  have count_ : ((count.event pgHoist 0x4000).pfault pgHoist 0x1000).srcOn x y = true :=
    (srcOn_only (State.pfault_only (State.event_only (State.onLv_only (State.onLv_only (Only.refl [.regs, .trace] quiet) rfl) rfl) rfl) rfl)
      (by decide)).trans quiet_
  exact raise_keeps count_

theorem rescueAbort_keeps {reason : Nat} (h : s.srcOn x y = true) : (s.rescueAbort reason).srcOn x y = true := by
  by_cases busy : s.rescueBusy = true
  · rw [rescueAbort_eq busy]
    have stops := rescueStops_keeps (reason := reason) h
    split
    · exact stops
    · exact (srcOn_only (State.pushReact_only (State.stoNow_only (Only.refl [.axes, .timers, .mots, .legs] _) rfl) rfl) (by decide)).trans stops
  · rw [rescueAbort_idle (Bool.not_eq_true _ ▸ busy)]
    exact h

theorem rescueStops_only {fs : List Part} {s0 : State} {reason : Nat} (h : Only fs s0 s)
    (sub : In [.regs, .axes, .rescue, .safety, .trace, .log, .timers] fs) : Only fs s0 (rescueStops s reason) := by
  unfold rescueStops
  extract_lets a quiet status count raised
  exact State.onAx_only (State.raise_only (State.pfault_only (State.event_only (State.onLv_only (State.onLv_only (State.setSeq_only
    (State.sbcIssue_only (State.rescueQuiet_only h (inT rfl sub)) (inT rfl sub)) (inT rfl sub)) (inT rfl sub)) (inT rfl sub)) (inT rfl sub))
    (inT rfl sub)) (inT rfl sub)) (inT rfl sub)

theorem rescueAbort_leg {P : LegSt → Prop} {l reason : Nat} (off : OutlivesOff P) (h : P (s.lg l)) : P ((s.rescueAbort reason).lg l) := by
  by_cases busy : s.rescueBusy = true
  · rw [rescueAbort_eq busy]
    have stops : P ((rescueStops s reason).lg l) := by
      rw [lg_only (rescueStops_only (Only.refl [.regs, .axes, .rescue, .safety, .trace, .log, .timers] s) rfl) (by decide)]
      exact h
    split
    · exact stops
    · rw [lg_only (State.pushReact_only (Only.refl [.axes] _) rfl) (by decide)]
      exact stoNow_leg off stops
  · rw [rescueAbort_idle (Bool.not_eq_true _ ▸ busy)]
    exact h

end

/-! The chopper. -/

section

variable {s : State} {l : Nat}

/-- The chopper is judged faulty: what the judgement leaves (R268). -/
theorem chopJudge_leaves (ok : MapOk s.regs) (low : l < s.legs.length) : (s.chopJudge l).chop = { s.chop with judged := true, window := none } ∧
    ((s.chopJudge l).lg l).hsOn = false ∧ Flagged (s.chopJudge l) pgPlink 11 ∧ (s.chopJudge l).srcOn srcChop 16 = true := by
  unfold State.chopJudge
  extract_lets judged counted
  have judged_ : (judged.lg l).hsOn = false := congrArg LegSt.hsOn (lg_onLg_same (s := s.onChop _) low)
  have chop_ : judged.chop = { s.chop with judged := true, window := none } := rfl
  have okJudged : MapOk judged.regs := ok
  clear_value judged
  obtain ⟨up, flagged⟩ := event_flags (p := pgPlink) (bits := 0x800) (i := 11) okJudged (by decide)
  have flags : Up (judged.event pgPlink 0x800) counted := rising_up.onset (rising_up.raise (rising_up.fault up))
  have on : counted.srcOn srcChop 16 = true := onset_keeps raise_on
  have off : OutlivesOff fun x => x.hsOn = false := fun _ _ => rfl
  have leg : (counted.lg l).hsOn = false := by
    refine onset_leg (P := fun x => x.hsOn = false) off (fun _ _ h => ⟨h, h⟩) (by decide) ?_
    rw [lg_only (State.raise_only (State.pfault_only (State.event_only (Only.refl [.regs, .trace, .axes, .safety, .log] judged) rfl) rfl) rfl)
      (by decide)]
    exact judged_
  have chop : counted.chop = judged.chop := State.onset_only (State.raise_only (State.pfault_only (State.event_only (Only.refl [.regs, .stage,
    .axes, .fbs, .mots, .legs, .lanes, .cans, .dos, .safety, .trace, .log, .chans, .timers] judged) rfl) rfl) rfl) rfl .chop (by decide)
  clear_value counted
  split
  · refine ⟨?_, rescueAbort_leg (P := fun x => x.hsOn = false) off leg, (rising_up.rescueAbort outlivesRescue_up flags).bits _ _ flagged,
      rescueAbort_keeps on⟩
    exact (State.rescueAbort_only (Only.refl [.regs, .axes, .mots, .legs, .rescue, .safety, .trace, .log, .timers] counted) rfl .chop
      (by decide)).trans (chop.trans chop_)
  · exact ⟨chop.trans chop_, leg, flags.bits _ _ flagged, on⟩

theorem chopperSwitchFault_runs (up : s.up = true) (leg : chopLeg s.force = some l) (on : (s.lg l).hsOn = true) :
    exec .chopperSwitchFault s = .next (((s.reach ((s.lg l).hsTick + fld (s.cf pgPlink PLINK.CHOP_CFG) 15 0)).onChop fun x =>
      { x with vdsTrip := true }).chopJudge l) := by
  show execChopperSwitchFault s = _
  simp [execChopperSwitchFault, leg, up, on]

theorem chopperTestExpiry_runs (up : s.up = true) (leg : chopLeg s.force = some l) {u : Int} {d : Nat} (window : s.chop.window = some (u, d)) :
    exec .chopperTestExpiry s = .next (((s.reach d).onChop fun x => { x with testFail := true }).chopJudge l) := by
  show execChopperTestExpiry s = _
  simp [execChopperTestExpiry, leg, window, up]

end

/-! PRECHECK. -/

section

variable {s t : State} {a : Nat}

/-- Nothing that a demand on an axis is read from has changed. -/
theorem demandOn_only {fs : List Part} (h : Only fs s t) (axes : .axes ∉ fs) (cfg : .cfg ∉ fs) (dis : .dis ∉ fs) (field : .field ∉ fs)
    (sins : .sins ∉ fs) (safety : .safety ∉ fs) : t.demandOn a = s.demandOn a := by
  have slot (i : Nat) : t.force pgSafe (SAFE.SIN_CFG i) = s.force pgSafe (SAFE.SIN_CFG i) :=
    force_staged (h .cfg cfg) (by simp only [SAFE.SIN_CFG]; omega)
  have si (i : Nat) : t.si i = s.si i := by rw [State.si, h .sins sins]; rfl
  have di (i : Nat) : t.di i = s.di i := by rw [State.di, h .dis dis]; rfl
  have func (i : Nat) : sinFunc t.force i = sinFunc s.force i := by rw [sinFunc, sinCfg, slot]; rfl
  have low (i : Nat) : t.slotLow i = s.slotLow i := by
    rw [State.slotLow, func]
    simp only [State.slotLow, State.slotReadsLow, State.diOn, State.inValid, sinCfg, slot, si, di, show t.field = s.field from h .field field]
  simp only [State.demandOn, low, sinHas, sinCfg, slot, func, si, ax_only h axes, cf_only h cfg, show t.safety = s.safety from h .safety safety]

theorem enterReady_due {x : Timer} (n : x ≠ .offsetCapture a) (n' : x ≠ .sdRefresh a) : (s.enterReady a).due x = s.due x := by
  unfold State.enterReady
  extract_lets c entered cleared captured
  split
  · rfl
  · split
    · rw [State.due_startT_ne n', State.due_startT_ne n]
      rfl
    · rw [State.due_startT_ne n]
      rfl

theorem complete_only' {m : Master} {res : Nat} : Only [.regs, .host, .mgr, .trace] s (s.complete m res) := State.complete_only (Only.refl _ _) rfl

theorem Up.complete {m : Master} {res : Nat} (h : Up s t) : Up s (t.complete m res) := by
  unfold State.complete
  split
  · exact h
  · exact (h.same State.onMstr_regs).setResult

/-- Raising a source pushes a reaction on axes and leaves the rest of them. -/
theorem raise_ax {P : AxisSt → Prop} {src b : Nat} (k : ∀ x e, P x → P { x with raised := x.raised ++ [e] }) (h : P (s.ax a)) : P ((s.raise src b).ax a) := by
  unfold State.raise
  split
  · exact h
  · refine forL_ind (P := fun t => P (t.ax a)) (fun c t p => ?_) _ ?_
    · split
      · exact p
      · exact getD_modify_keeps (fun x => k x _) p
    · rw [ax_only (State.noteSrc_only (Only.refl [.regs, .trace, .log, .safety] s) rfl) (by decide)]
      exact h

theorem Up.setLastSrc {src : Nat} (low : a < 16) (h : Up s t) : Up s (t.setLastSrc a src) :=
  h.setLv (by rw [regAddr_mod (by simp only [SAFE.LAST_SRC]; omega)]; simp only [SAFE.LAST_SRC, pageEvent]; omega)

theorem withPrecheck_only {fs : List Part} {u : State} {x : PrecheckSt} (h : Only fs s u) (sub : In [.precheck] fs) :
    Only fs s { u with precheck := x } :=
  Only.upd h sub fun f hf => by cases f with
    | precheck => simp at hf
    | _ => rfl

/-- PRECHECK has ended, and its event is raised. -/
def State.precheckOver (s : State) : State := ({ s with precheck := {} }).event pgPlink 0x1000

theorem precheckOver_only : Only [.precheck, .regs, .trace] s s.precheckOver := State.event_only (withPrecheck_only (Only.refl _ _) rfl) rfl

theorem precheckOver_leaves (ok : MapOk s.regs) : s.precheckOver.precheck = {} ∧ MapOk s.precheckOver.regs ∧ Flagged s.precheckOver pgPlink 12 ∧
    s.precheckOver.lv pgPlink PLINK.PRECHECK_RESULT = s.lv pgPlink PLINK.PRECHECK_RESULT := by
  let gone : State := { s with precheck := {} }
  have reads : Reads pgPlink PLINK.PRECHECK_RESULT (s.lv pgPlink PLINK.PRECHECK_RESULT) gone := ⟨ok, rfl⟩
  obtain ⟨up, flagged⟩ := event_flags (s := gone) (p := pgPlink) (bits := 0x1000) (i := 12) ok (by decide)
  exact ⟨State.event_only (Only.refl [.regs, .trace] gone) rfl .precheck (by decide), up.ok, flagged, (reads.event (by decide)).2⟩

/-- How the last step of PRECHECK goes on: a clean result, and a failing one (R271). -/
theorem precheckEnd_eq : s.precheckEnd a =
    let e := s.precheckOver
    if fld (e.lv pgPlink PLINK.PRECHECK_RESULT) 27 0 = 0 then
      (if (e.ax a).state ≠ .precheck then e else if e.demandOn a then e.onAx a fun x => { x with state := .disabled } else e.enterReady a).complete .host eNone
    else (((if (e.ax a).state = .precheck then (e.onAx a fun x => { x with state := .fault, faulty := true }).setLastSrc a srcPrecheck
      else e).pfault pgPlink 16).raisePulse srcPrecheck a).complete .host eSafety := by
  unfold State.precheckEnd State.precheckOver
  extract_lets e here clean failing
  simp only [clean, failing, here, Bool.not_eq_true', decide_eq_false_iff_not, decide_eq_true_eq, ne_eq]

/-- What the end of PRECHECK leaves (R271). -/
theorem precheckEnd_leaves (ok : MapOk s.regs) (low : a < s.axes.length) (low16 : a < 16) :
    (s.precheckEnd a).precheck = {} ∧ Flagged (s.precheckEnd a) pgPlink 12 ∧
    (s.precheckEnd a).due .precheck = s.due .precheck ∧
      ((s.ax a).state = .precheck → ((s.precheckEnd a).ax a).state =
        if fld (s.lv pgPlink PLINK.PRECHECK_RESULT) 27 0 ≠ 0 then .fault else if s.demandOn a then .disabled else .ready) := by
  have frame := precheckOver_only (s := s)
  obtain ⟨gone, ok', flagged, reads⟩ := precheckOver_leaves ok
  have up := Up.refl ok'
  rw [precheckEnd_eq]
  generalize s.precheckOver = e at *
  dsimp only
  have low' : a < e.axes.length := by rw [show e.axes = s.axes from frame .axes (by decide)]; exact low
  have ax : e.ax a = s.ax a := ax_only frame (by decide)
  have demand : e.demandOn a = s.demandOn a := demandOn_only frame (by decide) (by decide) (by decide) (by decide) (by decide) (by decide)
  have due : e.due .precheck = s.due .precheck := due_only frame (by decide)
  rw [reads, ax, demand]
  split
  · next clean =>
    have same {t : State} (k : Only [.axes, .drives, .timers] e t) (d : t.due .precheck = e.due .precheck) :
        (t.complete .host eNone).precheck = {} ∧ Flagged (t.complete .host eNone) pgPlink 12 ∧
          (t.complete .host eNone).due .precheck = s.due .precheck :=
      ⟨(complete_only' .precheck (by decide)).trans ((k .precheck (by decide)).trans gone),
        (Up.complete (up.same (k .regs (by decide)))).bits _ _ flagged, (due_only complete_only' (by decide)).trans (d.trans due)⟩
    split
    · next other =>
      obtain ⟨one, two, three⟩ := same (Only.refl _ _) rfl
      exact ⟨one, two, three, fun here => absurd here other⟩
    · rw [if_neg (not_not.mpr clean)]
      split
      · obtain ⟨one, two, three⟩ := same (State.onAx_only (f := fun x => { x with state := .disabled }) (a := a) (Only.refl _ _) rfl) rfl
        exact ⟨one, two, three, fun _ => congrArg AxisSt.state ((ax_only complete_only' (by decide)).trans (ax_onAx_same low'))⟩
      · obtain ⟨one, two, three⟩ := same (State.enterReady_only (Only.refl _ _) rfl) (enterReady_due nofun nofun)
        exact ⟨one, two, three, fun _ => congrArg AxisSt.state ((ax_only complete_only' (by decide)).trans (enterReady_ax low'))⟩
  · have flags : Up e (if (s.ax a).state = .precheck then
        (e.onAx a fun x => { x with state := .fault, faulty := true }).setLastSrc a srcPrecheck else e) :=
      up_ite (Up.setLastSrc low16 (up.same rfl)) up
    have here : (s.ax a).state = .precheck → ((if (s.ax a).state = .precheck then
        (e.onAx a fun x => { x with state := .fault, faulty := true }).setLastSrc a srcPrecheck else e).ax a).state = .fault := fun here => by
      rw [if_pos here]
      exact congrArg AxisSt.state (ax_onAx_same low')
    have kept : Only [.axes, .regs] e (if (s.ax a).state = .precheck then
        (e.onAx a fun x => { x with state := .fault, faulty := true }).setLastSrc a srcPrecheck else e) :=
      only_ite (State.setLastSrc_only (State.onAx_only (Only.refl _ _) rfl) rfl) (Only.refl _ _)
    generalize (if (s.ax a).state = .precheck then
        (e.onAx a fun x => { x with state := .fault, faulty := true }).setLastSrc a srcPrecheck else e) = judged at *
    have pulse : Only [.axes, .regs, .safety, .trace, .log] e ((judged.pfault pgPlink 16).raisePulse srcPrecheck a) :=
      State.raisePulse_only (State.pfault_only (Only.upd (Only.refl _ _) rfl kept) rfl) rfl
    have flags' := rising_up.raisePulse (src := srcPrecheck) (a := a) (rising_up.fault (p := pgPlink) (bits := 16) flags)
    refine ⟨(complete_only' .precheck (by decide)).trans ((pulse .precheck (by decide)).trans gone), (Up.complete flags').bits _ _ flagged,
      (due_only complete_only' (by decide)).trans ((due_only pulse (by decide)).trans due), fun was => ?_⟩
    refine (congrArg AxisSt.state (ax_only complete_only' (by decide))).trans ?_
    exact raise_ax (P := fun x => x.state = .fault) (fun _ _ h => h) (here was)

end

/-- PRECHECK takes axis a into its first step (R270). -/
def State.precheckStart (s : State) (a : Nat) : State :=
  let s := { s with precheck := { axis := some (Fin.ofNat 16 a), step := 1 } }
  ((s.onAx a fun x => { x with state := .precheck }).setLv pgPlink PLINK.PRECHECK_RESULT (nw (a * 2 ^ 28))).startT .precheck s.now

theorem precheckStart_only {s s0 : State} {fs : List Part} {a : Nat} (h : Only fs s0 s) (sub : In [.precheck, .axes, .regs, .timers] fs) :
    Only fs s0 (s.precheckStart a) := by
  unfold State.precheckStart
  extract_lets named
  exact State.startT_only (State.setLv_only (State.onAx_only (withPrecheck_only h (inT rfl sub)) (inT rfl sub)) (inT rfl sub)) (inT rfl sub)

theorem reads_setLv {s : State} {p o : Nat} {v : Word} (ok : MapOk s.regs) : Reads p o v (s.setLv p o v) := ⟨MapOk.set ok, State.lv_setLv_same ok⟩

theorem reads_setLv_startT {s : State} {a p o d : Nat} {v : Word} {x : Timer} {f : AxisSt → AxisSt} (ok : MapOk s.regs) :
    Reads p o v (((s.onAx a f).setLv p o v).startT x d) := (reads_setLv (s := s.onAx a f) ok).of_regs rfl

theorem precheckStart_reads {s : State} {a : Nat} (ok : MapOk s.regs) :
    Reads pgPlink PLINK.PRECHECK_RESULT (nw (a * 2 ^ 28)) (s.precheckStart a) :=
  reads_setLv_startT (s := { s with precheck := { axis := some (Fin.ofNat 16 a), step := 1 } }) ok

theorem ax_onAx_setLv_startT {s : State} {a p o d : Nat} {v : Word} {x : Timer} {f : AxisSt → AxisSt} (low : a < s.axes.length) :
    (((s.onAx a f).setLv p o v).startT x d).ax a = f (s.ax a) :=
  (ax_only (State.startT_only (State.setLv_only (Only.refl [.regs, .timers] _) rfl) rfl) (by decide)).trans (ax_onAx_same low)

theorem precheckStart_ax {s : State} {a : Nat} (low : a < s.axes.length) : (s.precheckStart a).ax a = { s.ax a with state := .precheck } :=
  ax_onAx_setLv_startT (s := { s with precheck := { axis := some (Fin.ofNat 16 a), step := 1 } }) low

theorem precheckStart_due {s : State} {a : Nat} : (s.precheckStart a).due .precheck = some s.now := by
  unfold State.precheckStart
  extract_lets named
  exact State.due_startT_same

/-- PRECHECK_RESULT after step n has been read with failing bits `bad`. -/
def precheckWord (n bad : Nat) (r : Word) : Word :=
  let r := r ||| nw bad
  if bad ≠ 0 ∧ fld r 27 24 = 0 then putFld r 27 24 n else r

/-- A step of PRECHECK is read: its failing bits join the result, and from step 2 on the readings show. -/
def precheckRead (s : State) (u v w : Byte) (bad : Nat) : State :=
  let n := s.precheck.step
  let s := s.onLv pgPlink PLINK.PRECHECK_RESULT (precheckWord n bad)
  if n = 1 then s else s.setLv pgPlink PLINK.PRECHECK_NODES (nw (u.toNat * 2 ^ 16 + v.toNat * 2 ^ 8 + w.toNat))

theorem precheckRead_only {s s0 : State} {fs : List Part} {u v w : Byte} {bad : Nat} (h : Only fs s0 s) (sub : In [.regs] fs) :
    Only fs s0 (precheckRead s u v w bad) :=
  only_ite (State.onLv_only h sub) (State.setLv_only (State.onLv_only h sub) sub)

theorem precheckRead_reads {s : State} {u v w : Byte} {bad : Nat} (ok : MapOk s.regs) : Reads pgPlink PLINK.PRECHECK_RESULT
    (precheckWord s.precheck.step bad (s.lv pgPlink PLINK.PRECHECK_RESULT)) (precheckRead s u v w bad) := by
  have first : Reads pgPlink PLINK.PRECHECK_RESULT (precheckWord s.precheck.step bad (s.lv pgPlink PLINK.PRECHECK_RESULT))
      (s.onLv pgPlink PLINK.PRECHECK_RESULT (precheckWord s.precheck.step bad)) := ⟨MapOk.set ok, State.lv_setLv_same ok⟩
  unfold precheckRead
  extract_lets n read
  split
  · exact first
  · exact first.setLv_ne (by decide)

theorem precheckStep_runs {s : State} {u v w : Byte} {comp supply : Bool} {d : Nat} {a : Fin 16} (due : s.due .precheck = some d)
    (axis : s.precheck.axis = some a) :
    let n := s.precheck.step
    let cfg := s.cf pgPlink PLINK.PRECHECK_CFG
    let e := precheckRead ((s.reach d).stopT .precheck) u v w
      (precheckBits n (fld cfg 7 0) (fld cfg 15 8) u.toNat v.toNat w.toNat comp supply)
    exec (.precheckStep u v w comp supply) s = .next (if 6 ≤ n then e.precheckEnd a.val
      else ({ e with precheck := { e.precheck with step := n + 1 } }).startT .precheck
        (e.now + usT (fld cfg 31 16) + (if n = 1 then usT 100 else 0))) := by
  extract_lets n cfg e
  show execPrecheckStep u v w comp supply s = _
  rw [execPrecheckStep, State.expire_due due]
  have axis' : ((s.reach d).stopT .precheck).precheck.axis = some a := axis
  simp only [axis']
  rfl

/-- Settles O28. -/
theorem chopperAndPrecheck : Obligations.ChopperAndPrecheck := by
  refine ⟨fun s l whole up leg => ⟨fun on => ?fault, fun u d window => ?test⟩, fun seq arg8 s whole up idle low good => ?starts,
    fun u v w comp supply s d a whole due axis => ⟨fun more => ?step, fun last => ?ends⟩⟩
  case fault =>
    have present : l < s.legs.length := by rw [legs_length whole]; exact chopLeg_low leg
    obtain ⟨chop, off, flagged, active⟩ := chopJudge_leaves (s := (s.reach ((s.lg l).hsTick + fld (s.cf pgPlink PLINK.CHOP_CFG) 15 0)).onChop fun x =>
      { x with vdsTrip := true }) (l := l) whole.regs present
    refine ⟨_, chopperSwitchFault_runs up leg on, ⟨chop, off, flagged, active, ?_⟩,
      State.chopJudge_only (State.onChop_only (State.reach_only (Only.refl _ _) rfl) rfl) rfl⟩
    exact now_only (State.chopJudge_only (Only.refl [.regs, .stage, .axes, .fbs, .mots, .legs, .lanes, .rescue, .chop, .cans, .dos, .safety, .trace,
      .log, .chans, .timers] _) rfl) (by decide)
  case test =>
    have present : l < s.legs.length := by rw [legs_length whole]; exact chopLeg_low leg
    obtain ⟨chop, off, flagged, active⟩ := chopJudge_leaves (s := (s.reach d).onChop fun x => { x with testFail := true }) (l := l) whole.regs present
    refine ⟨_, chopperTestExpiry_runs up leg window, ⟨chop, off, flagged, active, ?_⟩,
      State.chopJudge_only (State.onChop_only (State.reach_only (Only.refl _ _) rfl) rfl) rfl⟩
    exact now_only (State.chopJudge_only (Only.refl [.regs, .stage, .axes, .fbs, .mots, .legs, .lanes, .rescue, .chop, .cans, .dos, .safety, .trace,
      .log, .chans, .timers] _) rfl) (by decide)
  case starts =>
    have run : exec (.precheck .host seq arg8) s = .next (s.command .host seq 7 _ _) := rfl
    rw [command_taken (m := .host) up (.inl idle) nofun (by simp [firstFail, good]; omega)] at run
    have result := precheckStart_reads (s := s.touch .host) (a := arg8.toNat) whole.regs
    have present : arg8.toNat < s.axes.length := by rw [(present whole).axes]; omega
    obtain ⟨reports, busy, seq_⟩ := begin_leaves (m := .host) (seq := seq) (code := 7) result.1
    have begun : Only [.regs, .host] ((s.touch .host).precheckStart arg8.toNat) (((s.touch .host).precheckStart arg8.toNat).begin_ .host seq 7) :=
      beginHost_only (Only.refl _ _) rfl
    refine ⟨_, run, ⟨begun .precheck (by decide), ?_, ?_, busy, seq_, ?_, reports⟩,
      beginHost_only (precheckStart_only (touchHost_only (Only.refl _ _) rfl) rfl) rfl⟩
    · exact (ax_only begun (by decide)).trans (precheckStart_ax (s := s.touch .host) present)
    · exact (due_only begun (by decide)).trans precheckStart_due
    · exact (Reads.setResult (m := .host) (result.of_regs State.onMstr_regs) (by decide) (by decide) (by decide)).2
  case step =>
    have run := precheckStep_runs (u := u) (v := v) (w := w) (comp := comp) (supply := supply) due axis
    extract_lets n cfg e at run
    have read : Only [.time, .timers, .regs] s e := precheckRead_only (State.stopT_only (State.reach_only (Only.refl _ _) rfl) rfl) rfl
    have word : Reads pgPlink PLINK.PRECHECK_RESULT _ e := precheckRead_reads whole.regs
    have time : e.time = { s.time with tick := max s.time.tick d } := precheckRead_only (Only.refl [.regs] _) rfl .time (by decide)
    have step : e.precheck = s.precheck := read .precheck (by decide)
    rw [if_neg (by omega)] at run
    clear_value e
    refine ⟨_, run, ⟨time, congrArg (fun x : PrecheckSt => { x with step := n + 1 }) step, word.2, ?_⟩, State.startT_only (withPrecheck_only (Only.upd (Only.refl _ _) rfl read) rfl) rfl⟩
    rw [State.due_startT_same, show e.now = max s.time.tick d from congrArg TimeSt.tick time]
  case ends =>
    have run := precheckStep_runs (u := u) (v := v) (w := w) (comp := comp) (supply := supply) due axis
    extract_lets n cfg e at run
    have read : Only [.time, .timers, .regs] s e := precheckRead_only (State.stopT_only (State.reach_only (Only.refl _ _) rfl) rfl) rfl
    have word : Reads pgPlink PLINK.PRECHECK_RESULT _ e := precheckRead_reads whole.regs
    have stopped : e.due .precheck = none := (due_only (precheckRead_only (Only.refl [.regs] _) rfl) (by decide)).trans State.due_stopT_same
    have axes : e.axes = s.axes := read .axes (by decide)
    have demand : e.demandOn a = s.demandOn a := demandOn_only read (by decide) (by decide) (by decide) (by decide) (by decide) (by decide)
    rw [if_pos last] at run
    have low : a.val < e.axes.length := by rw [axes, (present whole).axes]; exact a.isLt
    obtain ⟨gone, flagged, due', state⟩ := precheckEnd_leaves word.1 low a.isLt
    rw [ax_only read (by decide), demand, word.2] at state
    clear_value e
    exact ⟨_, run, ⟨gone, flagged, due'.trans stopped, state⟩, State.precheckEnd_only (Only.upd (Only.refl _ _) rfl read) rfl⟩

end Sys2Proof.Machine
end


section

/-! PROOF. Fields of a word read after a field of it was replaced. -/

namespace Sys2Proof.Machine

open Sys2Proof.Safety Sys2Proof.Claims

section

variable {w m : Word} {hi lo v i h l : Nat}

/-- The bits of a mask over [hi:lo]. -/
theorem testBit_mask : ((2 ^ (hi + 1 - lo) - 1) <<< lo).testBit i = decide (lo ≤ i ∧ i - lo < hi + 1 - lo) := by
  rw [Nat.testBit_shiftLeft, Nat.testBit_two_pow_sub_one, Bool.decide_and]

theorem sub_and (w m : Word) : w - (w &&& m) = w &&& ~~~m := by
  have apart : (w &&& ~~~m) &&& (w &&& m) = 0#32 := by
    ext i hi
    simp only [BitVec.getElem_and, BitVec.getElem_not, BitVec.getElem_zero]
    cases w[i] <;> cases m[i] <;> rfl
  have join : (w &&& ~~~m) + (w &&& m) = w := by
    rw [BitVec.add_eq_or_of_and_eq_zero _ _ apart]
    ext i hi
    simp only [BitVec.getElem_or, BitVec.getElem_and, BitVec.getElem_not]
    cases w[i] <;> cases m[i] <;> rfl
  exact (BitVec.eq_sub_iff_add_eq.mpr join).symm

/-- Replacing bits under a mask, without a carry. -/
theorem replaced_eq {x n : Nat} (fits : n < 2 ^ 32) : nw (w.toNat - (w.toNat &&& n) + (x &&& n)) = (w &&& ~~~(nw n)) ||| nw (x &&& n) := by
  have under : (w &&& nw n).toNat = w.toNat &&& n := by rw [BitVec.toNat_and, nw_toNat fits]
  have less : w.toNat &&& n ≤ w.toNat := Nat.and_le_left
  have rest : nw (w.toNat - (w.toNat &&& n)) = w &&& ~~~(nw n) := by
    rw [← sub_and]
    refine BitVec.eq_of_toNat_eq ?_
    rw [BitVec.toNat_sub_of_le (by rw [BitVec.le_def, under]; exact less), under, nw_toNat (by omega)]
  have apart : nw (w.toNat - (w.toNat &&& n)) &&& nw (x &&& n) = 0#32 := by
    rw [rest, show nw (x &&& n) = nw x &&& nw n from BitVec.ofNat_and]
    ext i hi
    simp only [BitVec.getElem_and, BitVec.getElem_not, BitVec.getElem_zero]
    cases (nw n)[i] <;> simp
  calc nw (w.toNat - (w.toNat &&& n) + (x &&& n))
      = nw (w.toNat - (w.toNat &&& n)) + nw (x &&& n) := BitVec.ofNat_add _ _
    _ = nw (w.toNat - (w.toNat &&& n)) ||| nw (x &&& n) := BitVec.add_eq_or_of_and_eq_zero _ _ apart
    _ = _ := by rw [rest]

/-- The bits of a word with a field replaced. -/
theorem bt_putFld (low : i < 32) (top : hi < 32) (ordered : lo ≤ hi) : bt (putFld w hi lo v) i = if lo ≤ i ∧ i ≤ hi then v.testBit (i - lo) else bt w i := by
  have fits : (2 ^ (hi + 1 - lo) - 1) <<< lo < 2 ^ 32 := Nat.lt_pow_two_of_testBit _ fun j far => by
    rw [testBit_mask]
    simp only [decide_eq_false_iff_not]
    omega
  rw [putFld, replaced_eq fits, bt_or, bt_eq, bt_eq, BitVec.getLsbD_and, BitVec.getLsbD_not, nw, nw, BitVec.getLsbD_ofNat, BitVec.getLsbD_ofNat,
    Nat.testBit_and, testBit_mask, Nat.testBit_shiftLeft]
  by_cases inside : lo ≤ i ∧ i ≤ hi
  · have within : lo ≤ i ∧ i - lo < hi + 1 - lo := by omega
    simp [inside, within, low]
  · have beside : ¬(lo ≤ i ∧ i - lo < hi + 1 - lo) := by omega
    simp [inside, beside, low, bt_eq]

theorem bt_putBt {b : Bool} (low : i < 32) (top : h < 32) : bt (putBt w h b) i = if i = h then b else bt w i := by
  rw [putBt, bt_putFld low top (le_refl h)]
  by_cases same : i = h
  · subst same
    cases b <;> simp
  · rw [if_neg (by omega), if_neg same]

theorem testBit_fld : (fld w hi lo).testBit i = (decide (i < hi + 1 - lo) && bt w (lo + i)) := by
  rw [fld, Nat.testBit_mod_two_pow, Nat.testBit_shiftRight, bt]

theorem fld_putFld_same (top : hi < 32) (ordered : lo ≤ hi) (fits : v < 2 ^ (hi + 1 - lo)) : fld (putFld w hi lo v) hi lo = v := by
  refine Nat.eq_of_testBit_eq fun i => ?_
  rw [testBit_fld]
  by_cases inside : i < hi + 1 - lo
  · rw [bt_putFld (by omega) (by omega) ordered, if_pos (by omega)]
    simp [inside]
  · rw [Nat.testBit_lt_two_pow (lt_of_lt_of_le fits (Nat.pow_le_pow_right (by decide) (by omega)))]
    simp [inside]

end

end Sys2Proof.Machine
end


section

/-! PROOF. The mains and the start of the rescue (R211 to R213). -/

namespace Sys2Proof.Machine

open Sys2Proof.Safety Sys2Proof.Claims

section

variable {s t : State} {a : Nat}

/-! What the rescue is configured as. -/

theorem rescueCfg_of_cfg (cfg : t.cfg = s.cfg) : rescueCfg t.force = rescueCfg s.force := force_staged cfg (by decide)

theorem rescueAxis_of_cfg (cfg : t.cfg = s.cfg) : rescueAxis t.force = rescueAxis s.force := by rw [rescueAxis, rescueCfg_of_cfg cfg]; rfl

theorem rescueEn_of_cfg (cfg : t.cfg = s.cfg) : rescueEn t.force = rescueEn s.force := by rw [rescueEn, rescueCfg_of_cfg cfg]; rfl

theorem convLegs_of_cfg (cfg : t.cfg = s.cfg) : convLegs t.force = convLegs s.force := by
  rw [convLegs, rescueEn_of_cfg cfg, rescueCfg_of_cfg cfg]
  rfl

theorem rescueAxis_low {c : Cfg} : rescueAxis c < 16 := lt_trans (Nat.mod_lt _ (by decide)) (by decide)

/-! Brakes applied. -/

/-- SBC leaves an axis as it was, but with its brake applied. -/
theorem sbcIssue_ax (low : a < s.axes.length) : (s.sbcIssue a).ax a = { s.ax a with sbc := true } := by
  have applied : ((s.stopT (.brakeRelease a)).onAx a fun x => { x with sbc := true }).ax a = { s.ax a with sbc := true } := ax_onAx_same low
  unfold State.sbcIssue
  extract_lets stopped
  split
  · exact (ax_only (State.watchBrake_only (Only.refl [.timers] _) rfl) (by decide)).trans applied
  · exact applied

end

/-! The mains. -/

section

variable {s t : State} {d : Nat}

theorem mainsLost_runs (due : s.due .mainsLoss = some d) (inUse : rescueEn s.force = true) (fresh : s.rescue.lost = false) :
    exec .mainsLossQualified s = .next (((((s.reach d).stopT .mainsLoss).onRescue fun r => { r with lost := true, mainsOk := false }).onSched fun x =>
      { x with rescueReq := true }).event pgHoist 0x400) := by
  show execMainsLossQualified s = _
  rw [execMainsLossQualified, State.expire_due due, if_neg]
  rintro (off | lost)
  · exact absurd (rescueEn_of_cfg (s := s) (t := (s.reach d).stopT .mainsLoss) rfl) (by simpa [inUse] using off)
  · exact absurd (fresh.symm.trans lost) (by decide)

/-- The mains are back: the end of the loss is noted. -/
def State.mainsBack (s : State) : State := (s.onRescue fun r => { r with lost := false, mainsOk := true }).event pgHoist 0x800

theorem mainsBack_only : Only [.rescue, .regs, .trace] s s.mainsBack := State.event_only (State.onRescue_only (Only.refl _ _) rfl) rfl

theorem mainsBack_leaves (ok : MapOk s.regs) : s.mainsBack.rescue = { s.rescue with lost := false, mainsOk := true } ∧ Flagged s.mainsBack pgHoist 11 :=
  ⟨State.event_only (Only.refl [.regs, .trace] _) rfl .rescue (by decide), event_sets ok (by decide)⟩

/-- What the return of the mains brings a sequence to (R213). -/
def State.mainsReturned (s : State) : State :=
  match s.rescue.sq with
  | .stopping => (s.setSeq .idle).askNormal
  | .settle => ((s.stopT .rescueSettle).setSeq .idle).askNormal
  | .done | .aborted => s.askNormal
  | _ => s

theorem mainsReturn_runs (due : s.due .mainsReturn = some d) (inUse : rescueEn s.force = true) (lost : s.rescue.mainsOk = false) :
    exec .mainsReturnQualified s = .next ((s.reach d).stopT .mainsReturn).mainsBack.mainsReturned := by
  show execMainsReturnQualified s = _
  rw [execMainsReturnQualified, State.expire_due due, if_neg]
  · rfl
  · rintro (off | back)
    · exact absurd (rescueEn_of_cfg (s := s) (t := (s.reach d).stopT .mainsReturn) rfl) (by simpa [inUse] using off)
    · exact absurd (lost.symm.trans back) (by decide)

theorem mainsReturned_leaves : Only [.rescue, .timers, .sched] s s.mainsReturned ∧ s.mainsReturned.rescue.lost = s.rescue.lost ∧
    s.mainsReturned.rescue.mainsOk = s.rescue.mainsOk ∧
    let ends := s.rescue.sq = .stopping ∨ s.rescue.sq = .settle
    let asks := ends ∨ s.rescue.sq = .done ∨ s.rescue.sq = .aborted
    (ends → s.mainsReturned.rescue.sq = .idle) ∧ (¬ends → s.mainsReturned.rescue.sq = s.rescue.sq) ∧
      (asks → s.mainsReturned.sched = { s.sched with request := some 0 }) ∧ (¬asks → s.mainsReturned.sched = s.sched) := by
  have asked {t : State} (h : Only [.rescue, .timers] s t) : Only [.rescue, .timers, .sched] s t.askNormal :=
    State.askNormal_only (Only.upd (Only.refl _ _) rfl h) rfl
  unfold State.mainsReturned
  cases q : s.rescue.sq with
  | stopping => exact ⟨asked (State.setSeq_only (Only.refl _ _) rfl), rfl, rfl, by simp [State.setSeq, State.askNormal, State.onRescue, State.onSched]⟩
  | settle =>
    exact ⟨asked (State.setSeq_only (State.stopT_only (Only.refl _ _) rfl) rfl), rfl, rfl,
      by simp [State.setSeq, State.askNormal, State.onRescue, State.onSched, State.stopT]⟩
  | done => exact ⟨asked (Only.refl _ _), rfl, rfl, by simp [State.askNormal, State.onSched, q]⟩
  | aborted => exact ⟨asked (Only.refl _ _), rfl, rfl, by simp [State.askNormal, State.onSched, q]⟩
  | _ => exact ⟨Only.refl _ _, rfl, rfl, by simp [q]⟩

end

/-! RESCUE_START. -/

section

variable {s t : State} {a : Nat}

theorem rescueSettle_leaves : s.rescueSettle.rescue = { s.rescue with sq := .settle } ∧
    s.rescueSettle.due .rescueSettle = some (s.now + msT (fld (s.cf pgHoist HOIST.RESCUE_TIMES) 31 16)) :=
  ⟨rfl, State.due_startT_same⟩

/-- The sequence has its start noted and its flags fresh (R211). -/
def State.rescueStarted (s : State) : State :=
  ((((s.onRescue fun r =>
    { r with sq := .stopping, start := s.now, released := false, averaging := false, sum := 0, cnt := 0, target := none }).onLv pgHoist
      HOIST.RESCUE_STATUS fun _ => 0).event pgHoist 0x1000)).onMt (rescueAxis s.force) fun m => { m with pending := none }

/-- How the sequence begins, by what its axis does (Table 8-2). -/
def State.rescueBegun (s : State) (a : Nat) : State :=
  if (s.ax a).state.runs then s.onAx a fun x => { x with state := .stopping, stopToReady := false, runPending := false }
  else if (s.ax a).state.moving then s
  else (if (s.ax a).state = .ready then
      (s.sbcIssue a).onAx a fun x => { x with state := .disabled, capturing := false, runPending := false } else s).rescueSettle

theorem rescueBegin_eq : s.rescueBegin = s.rescueStarted.rescueBegun (rescueAxis s.force) := rfl

theorem rescueStarted_only : Only [.rescue, .regs, .trace, .mots] s s.rescueStarted :=
  State.onMt_only (State.event_only (State.onLv_only (State.onRescue_only (Only.refl _ _) rfl) rfl) rfl) rfl

theorem rescueStarted_leaves (whole : Whole s) : Flagged s.rescueStarted pgHoist 12 ∧
    s.rescueStarted.rescue.start = s.now ∧ s.rescueStarted.rescue.target = none ∧ s.rescueStarted.rescue.sq = .stopping ∧
    (s.rescueStarted.mt (rescueAxis s.force)).pending = none := by
  unfold State.rescueStarted
  obtain ⟨noted, h⟩ : ∃ u, u = (s.onRescue fun r =>
    { r with sq := .stopping, start := s.now, released := false, averaging := false, sum := 0, cnt := 0, target := none }).onLv pgHoist
      HOIST.RESCUE_STATUS fun _ => 0 := ⟨_, rfl⟩
  have ok' : MapOk noted.regs := by rw [h]; exact ((State.onLv_kept (State.onRescue_kept (Kept.refl s))).whole whole).regs
  have rescue : noted.rescue = { s.rescue with
      sq := .stopping, start := s.now, released := false, averaging := false, sum := 0, cnt := 0, target := none } := by rw [h]; rfl
  have mots' : noted.mots = s.mots := by rw [h]; rfl
  rw [← h]
  have event : Only [.regs, .trace] noted (noted.event pgHoist 0x1000) := State.event_only (Only.refl _ _) rfl
  have kept : ((noted.event pgHoist 0x1000).onMt (rescueAxis s.force) fun m => { m with pending := none }).rescue = noted.rescue :=
    event .rescue (by decide)
  rw [kept, rescue]
  refine ⟨event_sets (p := pgHoist) (bits := 0x1000) (i := 12) ok' (by decide), rfl, rfl, rfl, congrArg MotSt.pending (mt_onMt_same ?_)⟩
  rw [show (noted.event pgHoist 0x1000).mots = noted.mots from event .mots (by decide), mots', (present whole).mots]
  exact rescueAxis_low

theorem rescueBegun_only : Only [.axes, .timers, .rescue] s (s.rescueBegun a) :=
  only_ite (State.onAx_only (Only.refl _ _) rfl) (only_ite (Only.refl _ _)
    (State.rescueSettle_only (only_ite (State.onAx_only (State.sbcIssue_only (Only.refl _ _) rfl) rfl) (Only.refl _ _)) rfl))

/-- What begins of the sequence, by the state that its axis is in. -/
theorem rescueBegun_leaves (whole : Whole s) (low : a < 16) (stopping : s.rescue.sq = .stopping) :
    (s.rescueBegun a).rescue.start = s.rescue.start ∧ (s.rescueBegun a).rescue.target = s.rescue.target ∧
    ((s.ax a).state.runs = true → (s.rescueBegun a).rescue.sq = .stopping ∧ ((s.rescueBegun a).ax a).state = .stopping) ∧
    ((s.ax a).state = .stopping → (s.rescueBegun a).rescue.sq = .stopping ∧ (s.rescueBegun a).ax a = s.ax a) ∧
    ((s.ax a).state = .ready → ((s.rescueBegun a).ax a).state = .disabled ∧ ((s.rescueBegun a).ax a).sbc = true) ∧
    ((s.ax a).state.moving = false → (s.rescueBegun a).rescue.sq = .settle ∧
      (s.rescueBegun a).due .rescueSettle = some (s.now + msT (fld (s.cf pgHoist HOIST.RESCUE_TIMES) 31 16))) := by
  have low' : a < s.axes.length := by rw [(present whole).axes]; exact low
  unfold State.rescueBegun
  by_cases runs : (s.ax a).state.runs = true
  · rw [if_pos runs]
    have state : (s.ax a).state = .run ∨ (s.ax a).state = .degraded := by simpa [AxState.runs] using runs
    refine ⟨rfl, rfl, fun _ => ⟨stopping, congrArg AxisSt.state (ax_onAx_same low')⟩, fun e => ?_, fun e => ?_, fun e => ?_⟩
    · simp [e] at state
    · simp [e] at state
    · rcases state with e' | e' <;> simp [e', AxState.moving] at e
  · rw [if_neg runs]
    by_cases moving : (s.ax a).state.moving = true
    · rw [if_pos moving]
      refine ⟨rfl, rfl, fun e => absurd e runs, fun _ => ⟨stopping, rfl⟩, fun e => ?_, fun e => by simp [moving] at e⟩
      simp [e, AxState.moving] at moving
    · rw [if_neg moving]
      have rest : Only [.axes, .timers] s (if (s.ax a).state = .ready then
          (s.sbcIssue a).onAx a fun x => { x with state := .disabled, capturing := false, runPending := false } else s) :=
        only_ite (State.onAx_only (State.sbcIssue_only (Only.refl _ _) rfl) rfl) (Only.refl _ _)
      have rested : (s.ax a).state = .ready → (if (s.ax a).state = .ready then
          (s.sbcIssue a).onAx a fun x => { x with state := .disabled, capturing := false, runPending := false } else s).ax a =
            { s.ax a with sbc := true, state := .disabled, capturing := false, runPending := false } := fun ready => by
        have braked : a < (s.sbcIssue a).axes.length := by
          rw [(present ((State.sbcIssue_kept (Kept.refl s)).whole whole)).axes]
          exact low
        rw [if_pos ready, ax_onAx_same braked, sbcIssue_ax low']
      generalize (if (s.ax a).state = .ready then
          (s.sbcIssue a).onAx a fun x => { x with state := .disabled, capturing := false, runPending := false } else s) = u at *
      obtain ⟨settles, due⟩ := rescueSettle_leaves (s := u)
      have rescue : u.rescue = s.rescue := rest .rescue (by decide)
      rw [settles, due, rescue, cf_only rest (by decide), now_only rest (by decide)]
      refine ⟨rfl, rfl, fun e => absurd e runs, fun e => by simp [e, AxState.moving] at moving, fun ready => ?_, fun _ => ⟨rfl, rfl⟩⟩
      rw [ax_only (State.rescueSettle_only (Only.refl [.rescue, .timers] u) rfl) (by decide), rested ready]
      exact ⟨rfl, rfl⟩

end

/-- Settles O40. -/
theorem rescueTriggers : Obligations.RescueTriggers := by
  intro s whole a
  refine ⟨fun d due inUse fresh => ?lost, fun d due inUse gone => ?back, fun up rescue idle inUse => ?starts, fun up bad => ?refused⟩
  case lost =>
    obtain ⟨u, hu⟩ : ∃ u, u = (((s.reach d).stopT .mainsLoss).onRescue fun r => { r with lost := true, mainsOk := false }).onSched fun x =>
      { x with rescueReq := true } := ⟨_, rfl⟩
    have event : Only [.regs, .trace] u (u.event pgHoist 0x400) := State.event_only (Only.refl _ _) rfl
    have run := mainsLost_runs due inUse fresh
    rw [← hu] at run
    have ok : MapOk u.regs := by rw [hu]; exact whole.regs
    refine ⟨_, run, ⟨(event .time (by decide)).trans (by rw [hu]; rfl), (event .rescue (by decide)).trans (by rw [hu]; rfl),
      (event .sched (by decide)).trans (by rw [hu]; rfl), event_sets ok (by decide)⟩, ?_⟩
    rw [hu]
    exact State.event_only (State.onSched_only (State.onRescue_only (State.stopT_only (State.reach_only (Only.refl _ _) rfl) rfl) rfl) rfl) rfl
  case back =>
    have run := mainsReturn_runs due inUse gone
    have before : Only [.time, .timers] s ((s.reach d).stopT .mainsReturn) := State.stopT_only (State.reach_only (Only.refl _ _) rfl) rfl
    have time : ((s.reach d).stopT .mainsReturn).time = { s.time with tick := max s.time.tick d } := rfl
    generalize (s.reach d).stopT .mainsReturn = u at *
    have ok : MapOk u.regs := by rw [show u.regs = s.regs from before .regs (by decide)]; exact whole.regs
    have noted := mainsBack_only (s := u)
    obtain ⟨back, flagged⟩ := mainsBack_leaves ok
    have sched : u.mainsBack.sched = s.sched := (noted .sched (by decide)).trans (before .sched (by decide))
    have time' : u.mainsBack.time = u.time := noted .time (by decide)
    have all : Only [.regs, .time, .rescue, .trace, .timers, .sched] s u.mainsBack :=
      Only.upd (Only.upd (Only.refl _ _) rfl before) rfl noted
    generalize u.mainsBack = v at *
    obtain ⟨only, lost, ok', ends⟩ := mainsReturned_leaves (s := v)
    rw [show v.rescue.sq = s.rescue.sq by rw [back, show u.rescue = s.rescue from before .rescue (by decide)], sched] at ends
    rw [back] at lost ok'
    refine ⟨_, run, ⟨(only .time (by decide)).trans (time'.trans time), lost, ok', ?_, ends⟩, Only.upd all rfl only⟩
    exact flagged_of_regs flagged (only .regs (by decide))
  case starts =>
    have run : exec .rescueStart s = .next ((s.touch .host).rescueStartBy .host) := if_pos up
    have began : (s.touch .host).rescueStartBy .host = (s.touch .host).rescueBegin := if_pos ⟨rescue, idle, inUse⟩
    rw [began, rescueBegin_eq] at run
    have touched : Only [.host] s (s.touch .host) := touchHost_only (Only.refl _ _) rfl
    have whole' : Whole (s.touch .host) := (State.touch_kept (Kept.refl s)).whole whole
    have axis : rescueAxis (s.touch .host).force = a := rfl
    have now : (s.touch .host).now = s.now := rfl
    generalize s.touch .host = u at *
    obtain ⟨flagged, start, target, stopping, pending⟩ := rescueStarted_leaves whole'
    have started := rescueStarted_only (s := u)
    rw [axis] at run pending
    have whole2 : Whole u.rescueStarted := (State.onMt_kept (State.event_kept (State.onLv_kept (State.onRescue_kept (Kept.refl u))))).whole whole'
    have all : Only [.regs, .host, .mots, .rescue, .trace] s u.rescueStarted := Only.upd (Only.upd (Only.refl _ _) rfl touched) rfl started
    generalize u.rescueStarted = v at *
    obtain ⟨start', target', begun⟩ := rescueBegun_leaves (a := a) whole2 rescueAxis_low stopping
    rw [ax_only all (by decide), cf_only all (by decide), now_only all (by decide)] at begun
    have begins := rescueBegun_only (s := v) (a := a)
    refine ⟨_, run, ⟨flagged_of_regs flagged (begins .regs (by decide)), start'.trans (start.trans now), target'.trans target,
      (congrArg MotSt.pending (mt_only begins (by decide))).trans pending, begun⟩, Only.upd (Only.upd (Only.refl _ _) rfl all) rfl begins⟩
  case refused =>
    have run : exec .rescueStart s = .next ((s.touch .host).rescueStartBy .host) := if_pos up
    have refused : (s.touch .host).rescueStartBy .host = (s.touch .host).refuseBy .host eState 0 (regAddr pgHoist HOIST.RESCUE_CMD) := by
      refine if_neg fun ⟨rescue, idle, inUse⟩ => ?_
      rcases bad with bad | bad | bad
      · exact bad rescue
      · exact bad idle
      · exact absurd (bad.symm.trans inUse) (by decide)
    rw [refused] at run
    have kept := State.refuseBy_only (m := .host) (code := eState) (cmd := 0) (addr := regAddr pgHoist HOIST.RESCUE_CMD) (touchHost_only (Only.refl [.host, .regs, .mgr, .trace, .log] s) rfl) rfl
    exact refuses_touched whole.regs run ⟨kept .rescue (by decide), kept .axes (by decide)⟩

end Sys2Proof.Machine
end


section

/-! PROOF. What stops an axis: its gates, its brake, STO (R279, R280), and the abort of the rescue (R218). -/

namespace Sys2Proof.Machine

open Sys2Proof.Safety Sys2Proof.Claims

section

variable {s t : State} {a l : Nat}

/-! Gates and brake. -/

/-- A leg turned off is off, and a leg that the device does not have is off anyway. -/
theorem legOff_turns : LegIsOff (s.legOff l) l := by
  by_cases present : l < s.legs.length
  · exact legOff_off present
  · have absent : (s.legOff l).lg l = {} := by
      simp [State.legOff, State.onLg, State.lg, List.getD_eq_getElem?_getD, List.getElem?_eq_none (not_lt.mp present)]
    simp [LegIsOff, absent]

theorem gatesOff_off (mem : l ∈ axUsedLegs s.force a) : LegIsOff (s.gatesOff a) l := by
  unfold State.gatesOff
  have off : LegIsOff (forL (axUsedLegs s.force a) (fun l s => s.legOff l) s) l :=
    forL_reaches (I := fun _ => True) (P := fun t => LegIsOff t l) mem (fun _ _ _ => trivial) (fun t _ => legOff_turns) (fun _ _ h => legOff_keeps h) trivial
  exact legIsOff_only off (State.onMt_only (Only.refl [.mots] _) rfl) (by decide)

theorem gatesOff_only : Only [.mots, .legs] s (s.gatesOff a) := State.gatesOff_only (Only.refl _ _) rfl

theorem stoNow_ax (whole : Whole s) (low : a < 16) : (s.stoNow a).ax a = { s.ax a with sbc := true, sto := true, asc := false, ss1 := none } := by
  have gates : Whole (s.gatesOff a) := (State.gatesOff_kept (Kept.refl s)).whole whole
  have braked : Whole ((s.gatesOff a).sbcIssue a) := (State.sbcIssue_kept (Kept.refl _)).whole gates
  unfold State.stoNow
  extract_lets out
  rw [ax_only (forL_only (fs := [.timers]) (fun _ _ h => State.stopT_only h rfl) (Only.refl _ out)) (by decide),
    ax_onAx_same (by rw [(present braked).axes]; exact low), sbcIssue_ax (by rw [(present gates).axes]; exact low), ax_only gatesOff_only (by decide)]

theorem stoNow_off (mem : l ∈ axUsedLegs s.force a) : LegIsOff (s.stoNow a) l := by
  unfold State.stoNow
  exact legIsOff_only (gatesOff_off mem) (forL_only (fs := [.timers, .axes]) (fun _ _ h => State.stopT_only h rfl) (State.onAx_only
    (State.sbcIssue_only (Only.refl _ _) rfl) rfl)) (by decide)

theorem leaveMotion_ax {st : AxState} (whole : Whole s) (low : a < 16) : (s.leaveMotion a st).ax a = { s.ax a with
    sbc := true, state := st, ss1 := none, stopToReady := false, settling := false, runPending := false, sub := false } := by
  have gates : Whole (s.gatesOff a) := (State.gatesOff_kept (Kept.refl s)).whole whole
  have braked : Whole ((s.gatesOff a).sbcIssue a) := (State.sbcIssue_kept (Kept.refl _)).whole gates
  rw [State.leaveMotion, ax_onAx_same (by rw [(present braked).axes]; exact low), sbcIssue_ax (by rw [(present gates).axes]; exact low),
    ax_only gatesOff_only (by decide)]

theorem leaveMotion_off {st : AxState} (mem : l ∈ axUsedLegs s.force a) : LegIsOff (s.leaveMotion a st) l :=
  legIsOff_only (gatesOff_off mem) (State.onAx_only (State.sbcIssue_only (Only.refl [.timers, .axes] _) rfl) rfl) (by decide)

/-- The legs of an axis are named by registers in force. -/
theorem axUsedLegs_of_cfg (cfg : t.cfg = s.cfg) : axUsedLegs t.force a = axUsedLegs s.force a := by
  have comm : axComm t.force a = axComm s.force a := by
    rw [axComm, axCfg, force_staged cfg (by decide)]
    rfl
  rw [axUsedLegs, comm, axLegs, force_staged cfg (by decide)]
  rfl

end

/-! The abort of the rescue. -/

section

variable {s t : State} {r : Nat}

/-- What stops with the sequence, before the gates go (R218). -/
theorem rescueStops_leaves (whole : Whole s) (low : r < 16) : (rescueStops s r).rescue = { s.rescue with sq := .aborted } ∧
    fld ((rescueStops s r).lv pgHoist HOIST.RESCUE_STATUS) 19 16 = r ∧ Flagged (rescueStops s r) pgHoist 14 ∧
    bt ((rescueStops s r).lv pgHoist pageFault) 12 = true ∧ (rescueStops s r).srcOn srcRescue (rescueAxis s.force) = true ∧
    ((rescueStops s r).ax (rescueAxis s.force)).sbc = true ∧ ((rescueStops s r).ax (rescueAxis s.force)).runPending = false := by
  have quiet : Whole s.rescueQuiet := (State.rescueQuiet_kept (Kept.refl s)).whole whole
  have axis : ((s.rescueQuiet.sbcIssue (rescueAxis s.force)).setSeq .aborted).ax (rescueAxis s.force) =
      { s.rescueQuiet.ax (rescueAxis s.force) with sbc := true } := sbcIssue_ax (by rw [(present quiet).axes]; exact rescueAxis_low)
  have before : Only [.timers, .axes] s (s.rescueQuiet.sbcIssue (rescueAxis s.force)) :=
    State.sbcIssue_only (State.rescueQuiet_only (Only.refl _ _) rfl) rfl
  have rescue : ((s.rescueQuiet.sbcIssue (rescueAxis s.force)).setSeq .aborted).rescue = { s.rescue with sq := .aborted } :=
    congrArg (fun x : RescueSt => { x with sq := .aborted }) (before .rescue (by decide))
  have stopped : Whole ((s.rescueQuiet.sbcIssue (rescueAxis s.force)).setSeq .aborted) :=
    (State.setSeq_kept (State.sbcIssue_kept (Kept.refl _))).whole quiet
  unfold rescueStops
  extract_lets a seq status count raised
  change Whole seq at stopped
  change seq.rescue = _ at rescue
  change seq.ax a = _ at axis
  clear_value seq
  have told : Reads pgHoist HOIST.RESCUE_STATUS (putFld (seq.lv pgHoist HOIST.RESCUE_STATUS) 19 16 r) count :=
    Reads.setLv_ne (t := status) (reads_setLv stopped.regs) (by decide)
  obtain ⟨up, flagged⟩ := event_flags (p := pgHoist) (bits := 0x4000) (i := 14) told.1 (by decide)
  have told' : Reads pgHoist HOIST.RESCUE_STATUS (putFld (seq.lv pgHoist HOIST.RESCUE_STATUS) 19 16 r) raised :=
    (rising_reads (by decide)).raise ((rising_reads (by decide)).fault (told.event (by decide)))
  have faulted : Faulted pgHoist 12 raised := rising_faulted.raise (pfault_sets up.ok (by decide))
  have rises : Up (count.event pgHoist 0x4000) raised := rising_up.raise (rising_up.fault up)
  have counted : Only [.regs, .trace] seq ((count.event pgHoist 0x4000).pfault pgHoist 0x1000) :=
    State.pfault_only (State.event_only (State.onLv_only (State.onLv_only (Only.refl _ _) rfl) rfl) rfl) rfl
  have before : ((count.event pgHoist 0x4000).pfault pgHoist 0x1000).ax a = seq.ax a := ax_only counted (by decide)
  have braked : (raised.ax a).sbc = true := raise_ax (P := fun x => x.sbc = true) (fun _ _ h => h) (by rw [before, axis])
  have on : raised.srcOn srcRescue a = true := raise_on
  have rescued : raised.rescue = seq.rescue :=
    State.raise_only (Only.upd (Only.refl [.regs, .trace, .axes, .safety, .log] seq) rfl counted) rfl .rescue (by decide)
  have whole' : Whole raised :=
    (State.raise_kept (State.pfault_kept (State.event_kept (State.onLv_kept (State.onLv_kept (Kept.refl seq)))))).whole stopped
  have low' : a < raised.axes.length := by
    rw [(present whole').axes]
    exact rescueAxis_low
  clear_value raised
  refine ⟨rescued.trans rescue, ?_, rises.bits _ _ flagged, faulted.2, on, ?_, ?_⟩
  · refine (congrArg (fun w => fld w 19 16) told'.2).trans (fld_putFld_same (by decide) (by decide) low)
  · rw [ax_onAx_same low']
    exact braked
  · rw [ax_onAx_same low']

/-- A cause that brings no reaction of its own aborts the sequence and removes the gates (R218). -/
theorem rescueAbort_leaves (whole : Whole s) (busy : s.rescueBusy = true) (low : r < 16) (other : ¬(r = 1 ∨ r = 2)) :
    RescueAborted s r (s.rescueAbort r) := by
  obtain ⟨rescue, told, flagged, faulted, on, braked, runs⟩ := rescueStops_leaves whole low
  have whole' : Whole (rescueStops s r) := by
    unfold rescueStops
    exact (State.onAx_kept (State.raise_kept (State.pfault_kept (State.event_kept (State.onLv_kept (State.onLv_kept (State.setSeq_kept
      (State.sbcIssue_kept (State.rescueQuiet_kept (Kept.refl s)))))))))).whole whole
  have cfg : (rescueStops s r).cfg = s.cfg := rescueStops_only (Only.refl [.regs, .axes, .rescue, .safety, .trace, .log, .timers] s) rfl .cfg (by decide)
  rw [rescueAbort_eq busy, if_neg other]
  generalize rescueStops s r = u at *
  have off : Only [.axes, .timers, .mots, .legs] u ((u.stoNow (rescueAxis s.force)).pushReact (rescueAxis s.force) .sto srcRescue false) :=
    State.pushReact_only (State.stoNow_only (Only.refl _ _) rfl) rfl
  have axis : ((u.stoNow (rescueAxis s.force)).pushReact (rescueAxis s.force) .sto srcRescue false).ax (rescueAxis s.force) =
      { (u.stoNow (rescueAxis s.force)).ax (rescueAxis s.force) with
        raised := ((u.stoNow (rescueAxis s.force)).ax (rescueAxis s.force)).raised ++ [(.sto, srcRescue, false)] } :=
    ax_onAx_same (by rw [(present ((State.stoNow_kept (Kept.refl u)).whole whole')).axes]; exact rescueAxis_low)
  rw [stoNow_ax whole' rescueAxis_low] at axis
  refine ⟨?_, ?_, flagged_of_regs flagged (off .regs (by decide)), ?_, ?_, ?_, ?_, ?_, fun l mem => ?_⟩
  · exact (congrArg RescueSt.sq (off .rescue (by decide))).trans (congrArg RescueSt.sq rescue)
  · rw [lv_only off (by decide)]
    exact told
  · rw [lv_only off (by decide)]
    exact faulted
  · rw [srcOn_only off (by decide)]
    exact on
  · rw [axis]
  · rw [axis]
  · rw [axis]
    exact runs
  · exact legIsOff_only (stoNow_off (by rw [axUsedLegs_of_cfg cfg]; exact mem)) (State.pushReact_only (Only.refl [.axes] _) rfl) (by decide)

end

end Sys2Proof.Machine
end


section

/-! PROOF. The rescue sequence from brake to landing (R212, R214 to R216, Table 8-2). -/

namespace Sys2Proof.Machine

open Sys2Proof.Safety Sys2Proof.Claims

section

variable {s t : State} {a d n : Nat} {up : Bool}

theorem expired_only {x : Timer} : Only [.time, .timers] s ((s.reach d).stopT x) := State.stopT_only (State.reach_only (Only.refl _ _) rfl) rfl

/-- A deadline that has expired leaves the block whole. -/
theorem expired_whole {x : Timer} (whole : Whole s) : Whole ((s.reach d).stopT x) := (State.stopT_kept (State.reach_kept (Kept.refl s))).whole whole

/-! The end of BRAKE_HOLD_T. -/

/-- What follows once the gates of the rescue axis are gone (Table 8-2). -/
def State.holdOver (s : State) : State :=
  match s.rescue.sq with
  | .stopping => s.rescueSettle
  | .landing => ((s.convStop.setSeq .done).event pgHoist 0x2000).onLv pgHoist HOIST.RESCUE_COUNT fun w =>
      nw (fld w 31 16 * 65536 + (fld w 15 0 + 1) % 65536)
  | _ => s

theorem holdExpiry_runs (due : s.due .rescueHold = some d) :
    exec .rescueBrakeHoldExpiry s = .next (((s.reach d).stopT .rescueHold).leaveMotion (rescueAxis s.force) .disabled).holdOver := by
  show execRescueBrakeHoldExpiry s = _
  rw [execRescueBrakeHoldExpiry, State.expire_due due]
  rfl

theorem convStop_off {l : Nat} (mem : l ∈ convLegs s.force) : LegIsOff s.convStop l := by
  unfold State.convStop
  extract_lets ready off
  have listed : l ∈ convLegs off.force := by rw [convLegs_of_cfg (s := s) (t := off) rfl]; exact mem
  exact forL_reaches (I := fun _ => True) (P := fun t => LegIsOff t l) listed (fun _ _ _ => trivial) (fun _ _ => legOff_turns)
    (fun _ _ h => legOff_keeps h) trivial

theorem convStop_rescue : s.convStop.rescue = { s.rescue with convOn := false, convDuty := 0 } := by
  unfold State.convStop
  extract_lets ready off
  exact forL_only (fun _ _ h => State.legOff_only h rfl) (Only.refl [.legs] off) .rescue (by decide)

/-- The lower half of RESCUE_COUNT counts once more. -/
theorem fld_countLow {w : Word} : fld (nw (fld w 31 16 * 65536 + (fld w 15 0 + 1) % 65536)) 15 0 = (fld w 15 0 + 1) % 65536 := by
  simp only [fld, nw, BitVec.toNat_ofNat]
  omega

theorem holdOver_only : Only [.rescue, .timers, .legs, .regs, .trace] s s.holdOver := by
  unfold State.holdOver
  split
  · exact State.rescueSettle_only (Only.refl _ _) rfl
  · exact State.onLv_only (State.event_only (State.setSeq_only (State.convStop_only (Only.refl _ _) rfl) rfl) rfl) rfl
  · exact Only.refl _ _

theorem holdOver_off {l : Nat} (h : LegIsOff s l) : LegIsOff s.holdOver l := by
  unfold State.holdOver
  split
  · exact legIsOff_only h (State.rescueSettle_only (Only.refl [.rescue, .timers] s) rfl) (by decide)
  · have stopped : LegIsOff s.convStop l := by
      unfold State.convStop
      exact forL_ind (P := fun t => LegIsOff t l) (fun _ _ k => legOff_keeps k) _ (legIsOff_congr h rfl)
    exact legIsOff_only stopped (State.onLv_only (State.event_only (State.setSeq_only (Only.refl [.rescue, .regs, .trace] _) rfl) rfl) rfl) (by decide)
  · exact h

theorem holdOver_landing (ok : MapOk s.regs) (landing : s.rescue.sq = .landing) : s.holdOver.rescue.sq = .done ∧ s.holdOver.rescue.convOn = false ∧
    Flagged s.holdOver pgHoist 13 ∧ (∀ l ∈ convLegs s.force, LegIsOff s.holdOver l) ∧
    fld (s.holdOver.lv pgHoist HOIST.RESCUE_COUNT) 15 0 = (fld (s.lv pgHoist HOIST.RESCUE_COUNT) 15 0 + 1) % 65536 := by
  have eq : s.holdOver = ((s.convStop.setSeq .done).event pgHoist 0x2000).onLv pgHoist HOIST.RESCUE_COUNT fun w =>
      nw (fld w 31 16 * 65536 + (fld w 15 0 + 1) % 65536) := by
    rw [State.holdOver, landing]
  rw [eq]
  have legs (l : Nat) (mem : l ∈ convLegs s.force) : LegIsOff (s.convStop.setSeq .done) l := legIsOff_congr (convStop_off mem) rfl
  have stopped : (s.convStop.setSeq .done).rescue = { s.rescue with sq := .done, convOn := false, convDuty := 0 } :=
    congrArg (fun x : RescueSt => { x with sq := .done }) convStop_rescue
  have regs : (s.convStop.setSeq .done).regs = s.regs := State.convStop_only (Only.refl [.legs, .rescue, .timers] s) rfl .regs (by decide)
  have ok' : MapOk (s.convStop.setSeq .done).regs := regs ▸ ok
  have count : Reads pgHoist HOIST.RESCUE_COUNT (s.lv pgHoist HOIST.RESCUE_COUNT) (s.convStop.setSeq .done) := ⟨ok', lv_of_regs regs⟩
  generalize s.convStop.setSeq .done = u at *
  obtain ⟨up, flagged⟩ := event_flags (p := pgHoist) (bits := 0x2000) (i := 13) ok' (by decide)
  have counted := count.event (q := pgHoist) (bits := 0x2000) (by decide)
  have event : Only [.regs, .trace] u (u.event pgHoist 0x2000) := State.event_only (Only.refl _ _) rfl
  generalize u.event pgHoist 0x2000 = v at *
  have rescue : v.rescue = _ := (event .rescue (by decide)).trans stopped
  refine ⟨congrArg RescueSt.sq rescue, congrArg RescueSt.convOn rescue, flagged_setLv flagged up.ok (by decide) (by decide), fun l mem => ?_, ?_⟩
  · exact legIsOff_only (legs l mem) (State.onLv_only event rfl) (by decide)
  · rw [State.onLv, State.lv_setLv_same up.ok, counted.2, fld_countLow]

/-! The expiries that only move the sequence on. -/

theorem settleExpiry_runs (due : s.due .rescueSettle = some d) (settle : s.rescue.sq = .settle) : exec .rescueSettleExpiry s =
    .next (((((s.reach d).stopT .rescueSettle).setSeq .converter).onRescue fun r =>
      { r with convOn := true, convDuty := 0, uSet := (s.rescueUdc : Rat), vInt := 0, iInt := 0 }).startT .converterTimeout
        (max s.time.tick d + msT (fld (s.cf pgHoist HOIST.CONV_RAMP) 31 16))) := by
  show execRescueSettleExpiry s = _
  rw [execRescueSettleExpiry, State.expire_due due]
  exact congrArg _ ((if_neg (not_not.mpr settle)).trans rfl)

theorem converterReady_runs (due : s.due .converterReady = some d) (converter : s.rescue.sq = .converter) : exec .converterReady s =
    .next (((((s.reach d).stopT .converterReady).stopT .converterTimeout).setSeq .test).onAx (rescueAxis s.force) fun x =>
      { x with runPending := true }) := by
  show execConverterReady s = _
  rw [execConverterReady, State.expire_due due]
  exact congrArg _ ((if_neg (not_not.mpr converter)).trans rfl)

theorem converterTimeout_runs (due : s.due .converterTimeout = some d) (converter : s.rescue.sq = .converter) : exec .converterTimeout s =
    .next (((s.reach d).stopT .converterTimeout).rescueAbort 3) := by
  show execConverterTimeout s = _
  rw [execConverterTimeout, State.expire_due due]
  exact congrArg _ (if_pos converter)

theorem travelTimeout_runs (due : s.due .rescueTravel = some d) (travel : s.rescue.sq = .travel) : exec .rescueTravelTimeout s =
    .next (((s.reach d).stopT .rescueTravel).rescueAbort 6) := by
  show execRescueTravelTimeout s = _
  rw [execRescueTravelTimeout, State.expire_due due]
  exact congrArg _ (if_pos travel)

theorem liftExpiry_runs (due : s.due .rescueLift = some d) (test : s.rescue.sq = .test) : exec .rescueBrakeLiftExpiry s =
    .next ((((s.reach d).stopT .rescueLift).onRescue fun r => { r with averaging := true, sum := 0, cnt := 0 }).startT .rescueTest
      (max s.time.tick d + msT (fld (s.cf pgHoist HOIST.TEST_TIMES) 15 0))) := by
  show execRescueBrakeLiftExpiry s = _
  rw [execRescueBrakeLiftExpiry, State.expire_due due]
  exact congrArg _ ((if_neg (not_not.mpr test)).trans rfl)

theorem rescueAborted_of_cfg {u : State} {r : Nat} (cfg : u.cfg = s.cfg) (h : RescueAborted u r t) : RescueAborted s r t := by
  have legs := axUsedLegs_of_cfg (a := rescueAxis s.force) cfg
  simp only [RescueAborted, rescueAxis_of_cfg cfg, legs] at *
  exact h

/-- An abort by a deadline, told of the state before it. -/
theorem deadline_aborts {x : Timer} {r : Nat} (whole : Whole s) (busy : s.rescueBusy = true) (low : r < 16) (other : ¬(r = 1 ∨ r = 2)) :
    (((s.reach d).stopT x).rescueAbort r).time = { s.time with tick := max s.time.tick d } ∧
    RescueAborted s r (((s.reach d).stopT x).rescueAbort r) ∧
    Only [.regs, .time, .axes, .mots, .legs, .rescue, .safety, .trace, .log, .timers] s (((s.reach d).stopT x).rescueAbort r) := by
  have expired := expired_only (s := s) (d := d) (x := x)
  have time : ((s.reach d).stopT x).time = { s.time with tick := max s.time.tick d } := rfl
  have busy' : ((s.reach d).stopT x).rescueBusy = true := busy
  have whole' := expired_whole (d := d) (x := x) whole
  generalize (s.reach d).stopT x = u at *
  exact ⟨(State.rescueAbort_only (Only.refl [.regs, .axes, .mots, .legs, .rescue, .safety, .trace, .log, .timers] u) rfl .time (by decide)).trans time,
    rescueAborted_of_cfg (expired .cfg (by decide)) (rescueAbort_leaves whole' busy' low other),
    State.rescueAbort_only (Only.upd (Only.refl _ _) rfl expired) rfl⟩

/-! The test read, the landing or the move chosen (R215, R216). -/

/-- The landing that the car stands at, within LAND_TOL. -/
def landingHere (s : State) : Option Nat := (List.range (min (landings s.force) 32)).find? fun n =>
  decide ((s.axPos (rescueAxis s.force) - landing s.force n).natAbs ≤ (s.resc HOIST.LAND_TOL).toNat * 65536)

/-- The direction shown in RESCUE_STATUS. -/
def State.showDir (s : State) (up : Bool) : State := s.onLv pgHoist HOIST.RESCUE_STATUS fun w => putBt w 8 (!up)

/-- The registers of the move to landing n. -/
def State.moveRegs (s : State) (m : Nat) (target : Int) (v acc jerk : Word) : State :=
  ((((s.setPair m MOT.TARGET_LO target).setLv m MOT.V_MAX v).setLv m MOT.ACC acc).setLv m MOT.DEC acc).setLv m MOT.JERK jerk

/-- The move to landing n is issued (R216). -/
def State.rescueMove (s : State) (n : Nat) (up : Bool) : State :=
  ((((s.showDir up).onRescue fun r => { r with target := some n, sq := .travel }).moveRegs (pgMot (rescueAxis s.force)) (landing s.force n)
    (s.resc HOIST.RESCUE_V) (s.resc HOIST.RESCUE_ACC) (s.resc HOIST.RESCUE_JERK)).onMt (rescueAxis s.force) fun x =>
      { x with pending := some 1 }).startT .rescueTravel (s.now + msT (fld (s.resc HOIST.TRAVEL_MAX) 19 0))

theorem rescueTravel_here (here : landingHere s = some n) : s.rescueTravel up =
    ((s.showDir up).onRescue fun r => { r with target := some n }).rescueLand := by
  have here' : (List.range (min (landings s.force) 32)).find? (fun n =>
      decide ((s.axPos (rescueAxis s.force) - landing s.force n).natAbs ≤ (s.resc HOIST.LAND_TOL).toNat * 65536)) = some n := here
  simp only [State.rescueTravel, here']
  rfl

theorem rescueTravel_ahead (here : landingHere s = none) (ahead : landingAhead s.force (s.axPos (rescueAxis s.force)) up = some n) :
    s.rescueTravel up = s.rescueMove n up := by
  have here' : (List.range (min (landings s.force) 32)).find? (fun n =>
      decide ((s.axPos (rescueAxis s.force) - landing s.force n).natAbs ≤ (s.resc HOIST.LAND_TOL).toNat * 65536)) = none := here
  simp only [State.rescueTravel, here', ahead]
  rfl

theorem rescueTravel_behind (here : landingHere s = none) (ahead : landingAhead s.force (s.axPos (rescueAxis s.force)) up = none)
    (behind : landingAhead s.force (s.axPos (rescueAxis s.force)) (!up) = some n) : s.rescueTravel up = s.rescueMove n (!up) := by
  have here' : (List.range (min (landings s.force) 32)).find? (fun n =>
      decide ((s.axPos (rescueAxis s.force) - landing s.force n).natAbs ≤ (s.resc HOIST.LAND_TOL).toNat * 65536)) = none := here
  simp only [State.rescueTravel, here', ahead, behind]
  rfl

theorem rescueTravel_none (here : landingHere s = none) (ahead : landingAhead s.force (s.axPos (rescueAxis s.force)) up = none)
    (behind : landingAhead s.force (s.axPos (rescueAxis s.force)) (!up) = none) : s.rescueTravel up = s := by
  have here' : (List.range (min (landings s.force) 32)).find? (fun n =>
      decide ((s.axPos (rescueAxis s.force) - landing s.force n).natAbs ≤ (s.resc HOIST.LAND_TOL).toNat * 65536)) = none := here
  simp only [State.rescueTravel, here', ahead, behind]
  rfl

/-- Registers of one page at different offsets have different addresses. -/
theorem regAddr_beside {p o q : Nat} (h : o ≠ q) : regAddr p o ≠ regAddr p q := by
  simp only [regAddr]
  omega

theorem moveRegs_reads {m : Nat} {target : Int} {v acc jerk : Word} (ok : MapOk s.regs) :
    let t := s.moveRegs m target v acc jerk
    Reads m MOT.TARGET_LO (loW target) t ∧ Reads m MOT.TARGET_HI (hiW target) t ∧ Reads m MOT.V_MAX v t ∧ Reads m MOT.ACC acc t ∧
      Reads m MOT.DEC acc t ∧ Reads m MOT.JERK jerk t := by
  have beside {o q : Nat} (h : o ≠ q) : regAddr m o ≠ regAddr m q := regAddr_beside h
  obtain ⟨low, high⟩ := reads_setPair (p := m) (o := MOT.TARGET_LO) (x := target) ok
  have speed : Reads m MOT.V_MAX v ((s.setPair m MOT.TARGET_LO target).setLv m MOT.V_MAX v) := reads_setLv low.1
  have acc_ : Reads m MOT.ACC acc (((s.setPair m MOT.TARGET_LO target).setLv m MOT.V_MAX v).setLv m MOT.ACC acc) := reads_setLv speed.1
  have dec : Reads m MOT.DEC acc ((((s.setPair m MOT.TARGET_LO target).setLv m MOT.V_MAX v).setLv m MOT.ACC acc).setLv m MOT.DEC acc) :=
    reads_setLv acc_.1
  refine ⟨?_, ?_, ?_, ?_, dec.setLv_ne (beside (by decide)), reads_setLv dec.1⟩
  · exact (((low.setLv_ne (beside (by decide))).setLv_ne (beside (by decide))).setLv_ne (beside (by decide))).setLv_ne (beside (by decide))
  · exact (((high.setLv_ne (beside (by decide))).setLv_ne (beside (by decide))).setLv_ne (beside (by decide))).setLv_ne (beside (by decide))
  · exact ((speed.setLv_ne (beside (by decide))).setLv_ne (beside (by decide))).setLv_ne (beside (by decide))
  · exact (acc_.setLv_ne (beside (by decide))).setLv_ne (beside (by decide))

theorem moveRegs_keeps {m p o : Nat} {target : Int} {v acc jerk w : Word} (h : Reads p o w s) (ho : o < 4096) (ne : p ≠ m) :
    Reads p o w (s.moveRegs m target v acc jerk) := by
  have other {q : Nat} (hq : q < 4096) : regAddr p o ≠ regAddr m q := fun e => ne ((regAddr_inj hq ho).mp e).1
  exact ((((((h.setLv_ne (other (by decide))).setLv_ne (other (by decide))).setLv_ne (other (by decide))).setLv_ne (other (by decide))).setLv_ne
    (other (by decide))).setLv_ne (other (by decide)))

theorem rescueMove_rescue : (s.rescueMove n up).rescue = { s.rescue with target := some n, sq := .travel } := rfl

theorem pgMot_hoist (low : a < 16) : pgHoist ≠ pgMot a := by
  simp only [pgHoist, pgMot]
  omega

/-- A register of the HOIST page that the move does not write. -/
theorem rescueMove_keeps {o : Nat} {w : Word} (h : Reads pgHoist o w (s.showDir up)) (ho : o < 4096) : Reads pgHoist o w (s.rescueMove n up) := by
  have kept : Reads pgHoist o w (((s.showDir up).onRescue fun r => { r with target := some n, sq := .travel }).moveRegs
      (pgMot (rescueAxis s.force)) (landing s.force n) (s.resc HOIST.RESCUE_V) (s.resc HOIST.RESCUE_ACC) (s.resc HOIST.RESCUE_JERK)) :=
    moveRegs_keeps (h.of_regs rfl) ho (pgMot_hoist rescueAxis_low)
  exact kept.of_regs rfl

theorem rescueMove_issues (whole : Whole s) : let t := s.rescueMove n up
    let m := pgMot (rescueAxis s.force)
    t.lv m MOT.TARGET_LO = loW (landing s.force n) ∧ t.lv m MOT.TARGET_HI = hiW (landing s.force n) ∧ t.lv m MOT.V_MAX = s.resc HOIST.RESCUE_V ∧
      t.lv m MOT.ACC = s.resc HOIST.RESCUE_ACC ∧ t.lv m MOT.DEC = s.resc HOIST.RESCUE_ACC ∧ t.lv m MOT.JERK = s.resc HOIST.RESCUE_JERK ∧
      (t.mt (rescueAxis s.force)).pending = some 1 ∧
      t.due .rescueTravel = some (s.now + msT (fld (s.resc HOIST.TRAVEL_MAX) 19 0)) := by
  have ok : MapOk ((s.showDir up).onRescue fun r => { r with target := some n, sq := .travel }).regs := MapOk.set whole.regs
  have before : Only [.regs, .rescue] s ((s.showDir up).onRescue fun r => { r with target := some n, sq := .travel }) :=
    State.onRescue_only (State.onLv_only (Only.refl _ _) rfl) rfl
  unfold State.rescueMove
  generalize (s.showDir up).onRescue (fun r => { r with target := some n, sq := .travel }) = u at *
  obtain ⟨low, high, speed, acc, dec, jerk⟩ := moveRegs_reads (m := pgMot (rescueAxis s.force)) (target := landing s.force n)
    (v := s.resc HOIST.RESCUE_V) (acc := s.resc HOIST.RESCUE_ACC) (jerk := s.resc HOIST.RESCUE_JERK) ok
  have moved : Only [.regs] u (u.moveRegs (pgMot (rescueAxis s.force)) (landing s.force n) (s.resc HOIST.RESCUE_V) (s.resc HOIST.RESCUE_ACC)
      (s.resc HOIST.RESCUE_JERK)) := State.setLv_only (State.setLv_only (State.setLv_only (State.setLv_only (State.setPair_only
    (Only.refl _ _) rfl) rfl) rfl) rfl) rfl
  generalize u.moveRegs _ _ _ _ _ = v at *
  have mots : rescueAxis s.force < v.mots.length := by
    rw [show v.mots = u.mots from moved .mots (by decide), show u.mots = s.mots from before .mots (by decide), (present whole).mots]
    exact rescueAxis_low
  exact ⟨low.2, high.2, speed.2, acc.2, dec.2, jerk.2, congrArg MotSt.pending (mt_onMt_same mots), State.due_startT_same⟩

theorem rescueLand_only : Only [.axes, .rescue, .timers] s s.rescueLand := State.rescueLand_only (Only.refl _ _) rfl

/-- LANDING begins: the brake goes on, and the gates go BRAKE_HOLD_T later. -/
theorem rescueLand_leaves (whole : Whole s) : s.rescueLand.rescue = { s.rescue with sq := .landing } ∧
    (s.rescueLand.ax (rescueAxis s.force)).sbc = true ∧
    s.rescueLand.due .rescueHold = some (s.now + msT (fld (s.resc HOIST.RESCUE_TIMES) 15 0)) := by
  have braked : ((s.stopT .rescueTravel).setSeq .landing |>.sbcIssue (rescueAxis s.force)).ax (rescueAxis s.force) =
      { s.ax (rescueAxis s.force) with sbc := true } :=
    sbcIssue_ax (s := (s.stopT .rescueTravel).setSeq .landing) (by
      show _ < s.axes.length
      rw [(present whole).axes]
      exact rescueAxis_low)
  refine ⟨State.startT_only (State.sbcIssue_only (Only.refl [.axes, .timers] ((s.stopT .rescueTravel).setSeq .landing)) rfl) rfl .rescue (by decide),
    congrArg AxisSt.sbc braked, State.due_startT_same⟩

/-- Nothing that a position of an axis is read from has changed. -/
theorem axPos_only {fs : List Part} (h : Only fs s t) (axes : .axes ∉ fs) (cfg : .cfg ∉ fs) (fbs : .fbs ∉ fs) (mots : .mots ∉ fs) :
    t.axPos a = s.axPos a := by
  have motCfg_ : motCfg t.force a = motCfg s.force a := force_staged (h .cfg cfg) (by decide)
  have step : motStepEn t.force a = motStepEn s.force a := by rw [motStepEn, motCfg_]; rfl
  have source : axFb t.force a = axFb s.force a := by
    rw [axFb, motCfg_, force_staged (h .cfg cfg) (by decide)]
    rfl
  rw [State.axPos, source, step]
  simp only [ax_only h axes, fb_only h fbs, mt_only h mots, cf_only h cfg]
  rfl

/-! RESCUE_TEST_DONE. -/

/-- HOLD_TQ of a test, and whether the car is balanced (R215). -/
def testBalanced (s : State) (hold : Int) : Bool := decide (hold.natAbs < fld (s.resc HOIST.BAL_T) 15 0 * 32768) || hold == 0

/-- The direction that a test chooses. -/
def testUp (s : State) (hold : Int) : Bool := if testBalanced s hold then !bt (rescueCfg s.force) 17 else decide (hold < 0)

/-- The test's outcome in its registers. -/
def State.testRead (s : State) (hold : Int) : State :=
  ((s.setLv pgHoist HOIST.HOLD_TQ (iw hold)).onLv pgHoist HOIST.RESCUE_STATUS fun w => putBt w 9 (testBalanced s hold)).onRescue fun r =>
    { r with averaging := false }

theorem testRead_only {hold : Int} : Only [.regs, .rescue] s (s.testRead hold) :=
  State.onRescue_only (State.onLv_only (State.setLv_only (Only.refl _ _) rfl) rfl) rfl

theorem testRead_leaves {hold : Int} (ok : MapOk s.regs) : Reads pgHoist HOIST.HOLD_TQ (iw hold) (s.testRead hold) ∧
    bt ((s.testRead hold).lv pgHoist HOIST.RESCUE_STATUS) 9 = testBalanced s hold ∧ (s.testRead hold).rescue = { s.rescue with averaging := false } := by
  have first : Reads pgHoist HOIST.HOLD_TQ (iw hold) (s.setLv pgHoist HOIST.HOLD_TQ (iw hold)) := reads_setLv ok
  refine ⟨Reads.of_regs (first.setLv_ne (by decide)) rfl, ?_, rfl⟩
  refine (congrArg (fun w => bt w 9) (State.lv_setLv_same first.1)).trans ?_
  rw [bt_putBt (by decide) (by decide), if_pos rfl]

theorem testDone_runs (due : s.due .rescueTest = some d) (test : s.rescue.sq = .test) (averaging : s.rescue.averaging = true) :
    exec .rescueTestDone s = .next ((((s.reach d).stopT .rescueTest).testRead (roundDiv s.rescue.sum s.rescue.cnt)).rescueTravel
      (testUp s (roundDiv s.rescue.sum s.rescue.cnt))) := by
  show execRescueTestDone s = _
  rw [execRescueTestDone, State.expire_due due]
  refine congrArg _ ((if_neg ?_).trans rfl)
  rintro (other | idle)
  · exact other test
  · exact absurd (show (!s.rescue.averaging) = true from idle) (by simp [averaging])

theorem landings_of_cfg (cfg : t.cfg = s.cfg) : landings t.force = landings s.force := by
  rw [landings, force_staged cfg (by decide)]
  rfl

theorem landing_of_cfg (cfg : t.cfg = s.cfg) : landing t.force n = landing s.force n := by
  rw [landing, force_staged cfg (by simp only [HOIST.LAND_LO]; omega), force_staged cfg (by simp only [HOIST.LAND_HI]; omega)]
  rfl

theorem landingAhead_of_cfg (cfg : t.cfg = s.cfg) {p : Int} : landingAhead t.force p up = landingAhead s.force p up := by
  simp only [landingAhead, landings_of_cfg cfg, landing_of_cfg cfg]

theorem landingHere_only {fs : List Part} (h : Only fs s t) (axes : .axes ∉ fs) (cfg : .cfg ∉ fs) (fbs : .fbs ∉ fs) (mots : .mots ∉ fs) :
    landingHere t = landingHere s := by
  unfold landingHere State.resc
  simp only [landings_of_cfg (h .cfg cfg), landing_of_cfg (h .cfg cfg), rescueAxis_of_cfg (h .cfg cfg), cf_only h cfg,
    axPos_only h axes cfg fbs mots]

/-- What the end of a test leaves, whichever way the car goes. -/
theorem testDone_leaves {hold : Int} {bal : Bool} (whole : Whole s) (told : Reads pgHoist HOIST.HOLD_TQ (iw hold) s) (ends : s.rescue.averaging = false)
    (shown : bt (s.lv pgHoist HOIST.RESCUE_STATUS) 9 = bal) :
    Only [.regs, .axes, .mots, .rescue, .timers] s (s.rescueTravel up) ∧ (s.rescueTravel up).rescue.averaging = false ∧
      (s.rescueTravel up).lv pgHoist HOIST.HOLD_TQ = iw hold ∧ bt ((s.rescueTravel up).lv pgHoist HOIST.RESCUE_STATUS) 9 = bal := by
  have dirs {b : Bool} : Reads pgHoist HOIST.HOLD_TQ (iw hold) (s.showDir b) := told.setLv_ne (by decide)
  have status {b : Bool} : Reads pgHoist HOIST.RESCUE_STATUS (putBt (s.lv pgHoist HOIST.RESCUE_STATUS) 8 (!b)) (s.showDir b) := reads_setLv whole.regs
  have still {b : Bool} : bt (putBt (s.lv pgHoist HOIST.RESCUE_STATUS) 8 b) 9 = bal := by
    rw [bt_putBt (by decide) (by decide), if_neg (by decide), shown]
  have moves {n : Nat} {b : Bool} : (s.rescueMove n b).rescue.averaging = false ∧ (s.rescueMove n b).lv pgHoist HOIST.HOLD_TQ = iw hold ∧
      bt ((s.rescueMove n b).lv pgHoist HOIST.RESCUE_STATUS) 9 = bal :=
    ⟨ends, (rescueMove_keeps dirs (by decide)).2, by rw [(rescueMove_keeps status (by decide)).2, still]⟩
  refine ⟨State.rescueTravel_only (Only.refl _ _) rfl, ?_⟩
  cases here : landingHere s with
  | some n =>
    rw [rescueTravel_here here]
    have land := rescueLand_only (s := (s.showDir up).onRescue fun r => { r with target := some n })
    obtain ⟨rescue, -⟩ := rescueLand_leaves (s := (s.showDir up).onRescue fun r => { r with target := some n })
      ((State.onRescue_kept (State.onLv_kept (Kept.refl s))).whole whole)
    refine ⟨(congrArg RescueSt.averaging rescue).trans ends, (lv_only land (by decide)).trans dirs.2, ?_⟩
    rw [lv_only land (by decide)]
    exact (congrArg (fun w => bt w 9) status.2).trans still
  | none =>
    cases ahead : landingAhead s.force (s.axPos (rescueAxis s.force)) up with
    | some n =>
      rw [rescueTravel_ahead here ahead]
      exact moves
    | none =>
      cases behind : landingAhead s.force (s.axPos (rescueAxis s.force)) (!up) with
      | some n =>
        rw [rescueTravel_behind here ahead behind]
        exact moves
      | none =>
        rw [rescueTravel_none here ahead behind]
        exact ⟨ends, told.2, shown⟩

end

/-- Settles O41. -/
theorem rescueSequence : Obligations.RescueSequence := by
  intro s d whole a q now at_ w
  have low : a < 16 := rescueAxis_low
  refine ⟨fun due => ?hold, fun due settle => ?settles, fun due converter => ?ready, fun due converter => ?timeout, fun due test => ?lift,
    fun due test averaging => ?tested, fun due travel => ?travels⟩
  case hold =>
    have run := holdExpiry_runs due
    have whole' : Whole ((s.reach d).stopT .rescueHold) := expired_whole whole
    have before : Only [.time, .timers] s ((s.reach d).stopT .rescueHold) := expired_only
    have time : at_ ((s.reach d).stopT .rescueHold) := rfl
    generalize (s.reach d).stopT .rescueHold = u at *
    have axis := leaveMotion_ax (st := .disabled) whole' low
    have off {l : Nat} (mem : l ∈ axUsedLegs s.force a) : LegIsOff (u.leaveMotion a .disabled) l :=
      leaveMotion_off (by rw [axUsedLegs_of_cfg (before .cfg (by decide))]; exact mem)
    have left : Only [.axes, .mots, .legs, .timers] u (u.leaveMotion a .disabled) := State.leaveMotion_only (Only.refl _ _) rfl
    change exec _ s = .next (u.leaveMotion a .disabled).holdOver at run
    generalize u.leaveMotion a .disabled = v at *
    have all : Only [.time, .axes, .mots, .legs, .timers] s v := Only.upd (Only.upd (Only.refl _ _) rfl before) rfl left
    have after := holdOver_only (s := v)
    have after' : v.holdOver.ax a = v.ax a := ax_only after (by decide)
    have sq : v.rescue = s.rescue := all .rescue (by decide)
    refine ⟨_, run, ⟨(after .time (by decide)).trans ((left .time (by decide)).trans time), ?_, ?_, fun l mem => holdOver_off (off mem),
      fun stopping => ?_, fun landing => ?_⟩, Only.upd (Only.upd (Only.refl _ _) rfl all) rfl after⟩
    · rw [after', axis]
    · rw [after', axis]
    · have eq : v.holdOver = v.rescueSettle := by rw [State.holdOver, sq, show s.rescue.sq = .stopping from stopping]
      obtain ⟨rescue, due'⟩ := rescueSettle_leaves (s := v)
      rw [eq, rescue, due', cf_only all (by decide), now_only left (by decide)]
      exact ⟨rfl, congrArg (fun x : TimeSt => some (x.tick + _)) time⟩
    · obtain ⟨done, conv, flagged, legs, count⟩ := holdOver_landing (s := v) (by rw [show v.regs = s.regs from all .regs (by decide)]; exact whole.regs)
        (by rw [sq]; exact landing)
      rw [convLegs_of_cfg (all .cfg (by decide))] at legs
      rw [lv_only all (by decide)] at count
      exact ⟨done, conv, flagged, legs, count⟩
  case settles =>
    exact ⟨_, settleExpiry_runs due settle, ⟨rfl, rfl, State.due_startT_same⟩,
      State.startT_only (State.onRescue_only (State.setSeq_only (State.stopT_only (State.reach_only (Only.refl _ _) rfl) rfl) rfl) rfl) rfl⟩
  case ready =>
    refine ⟨_, converterReady_runs due converter, ⟨rfl, rfl, ax_onAx_same (s := (((s.reach d).stopT _).stopT _).setSeq _) ?_,
      State.due_stopT_same (s := (s.reach d).stopT .converterReady)⟩,
      State.onAx_only (State.setSeq_only (State.stopT_only (State.stopT_only (State.reach_only (Only.refl _ _) rfl) rfl) rfl) rfl) rfl⟩
    exact lt_of_lt_of_eq low (present whole).axes.symm
  case timeout =>
    obtain ⟨time, aborted, only⟩ := deadline_aborts (d := d) (x := .converterTimeout) (r := 3) whole
      (by simp [State.rescueBusy, show s.rescue.sq = .converter from converter]) (by decide) (by decide)
    exact ⟨_, converterTimeout_runs due converter, ⟨time, aborted⟩, only⟩
  case lift =>
    exact ⟨_, liftExpiry_runs due test, ⟨rfl, rfl, State.due_startT_same⟩,
      State.startT_only (State.onRescue_only (State.stopT_only (State.reach_only (Only.refl _ _) rfl) rfl) rfl) rfl⟩
  case tested =>
    have run := testDone_runs due test averaging
    extract_lets hold bal up here
    have balanced : testBalanced s hold = true ↔ bal := by
      unfold testBalanced
      rw [Bool.or_eq_true, decide_eq_true_eq, beq_iff_eq]
      rfl
    have up_ : testUp s hold = up := by
      unfold testUp
      by_cases b : bal
      · rw [if_pos (balanced.mpr b)]
        exact (if_pos b).symm
      · rw [if_neg fun h => b (balanced.mp h)]
        exact (if_neg b).symm
    have expired : Only [.time, .timers] s ((s.reach d).stopT .rescueTest) := expired_only
    have time : at_ ((s.reach d).stopT .rescueTest) := rfl
    have whole' : Whole ((s.reach d).stopT .rescueTest) := expired_whole whole
    have shown' : testBalanced ((s.reach d).stopT .rescueTest) hold = testBalanced s hold := rfl
    rw [up_] at run
    generalize (s.reach d).stopT .rescueTest = u at *
    obtain ⟨told, shown, rescue⟩ := testRead_leaves (hold := hold) whole'.regs
    have read := testRead_only (s := u) (hold := hold)
    have whole2 : Whole (u.testRead hold) := (State.onRescue_kept (State.onLv_kept (State.setLv_kept (Kept.refl u)))).whole whole'
    rw [shown'] at shown
    change exec _ s = .next ((u.testRead hold).rescueTravel up) at run
    generalize u.testRead hold = v at *
    have all : Only [.time, .timers, .regs, .rescue] s v := Only.upd (Only.upd (Only.refl _ _) rfl expired) rfl read
    have now_ : v.now = now := congrArg TimeSt.tick ((read .time (by decide)).trans time)
    have axis : rescueAxis v.force = a := rescueAxis_of_cfg (all .cfg (by decide))
    have here_ : landingHere v = here := landingHere_only all (by decide) (by decide) (by decide) (by decide)
    have ahead_ {b : Bool} : landingAhead v.force (v.axPos (rescueAxis v.force)) b = landingAhead s.force (s.axPos a) b := by
      rw [landingAhead_of_cfg (all .cfg (by decide)), axis, axPos_only all (by decide) (by decide) (by decide) (by decide)]
    have resc {o : Nat} : v.resc o = w o := cf_only all (by decide)
    have moves {n : Nat} {b : Bool} (t : State) (e : t = v.rescueMove n b) : t.rescue.target = some n ∧ t.rescue.sq = .travel ∧
        bt (t.lv pgHoist HOIST.RESCUE_STATUS) 8 = !b ∧ t.lv (pgMot a) MOT.TARGET_LO = loW (landing s.force n) ∧
        t.lv (pgMot a) MOT.TARGET_HI = hiW (landing s.force n) ∧ t.lv (pgMot a) MOT.V_MAX = w HOIST.RESCUE_V ∧
        t.lv (pgMot a) MOT.ACC = w HOIST.RESCUE_ACC ∧ t.lv (pgMot a) MOT.DEC = w HOIST.RESCUE_ACC ∧
        t.lv (pgMot a) MOT.JERK = w HOIST.RESCUE_JERK ∧ (t.mt a).pending = some 1 ∧
        t.due .rescueTravel = some (now + msT (fld (w HOIST.TRAVEL_MAX) 19 0)) := by
      have issues := rescueMove_issues (n := n) (up := b) whole2
      have status : Reads pgHoist HOIST.RESCUE_STATUS (putBt (v.lv pgHoist HOIST.RESCUE_STATUS) 8 (!b)) (v.showDir b) := reads_setLv whole2.regs
      simp only [axis, resc, now_, landing_of_cfg (all .cfg (by decide)), ← e] at issues
      refine ⟨by rw [e, rescueMove_rescue], by rw [e, rescueMove_rescue], ?_, issues⟩
      rw [e, (rescueMove_keeps status (by decide)).2, bt_putBt (by decide) (by decide), if_pos rfl]
    obtain ⟨only, ends, holds, shows⟩ := testDone_leaves (up := up) whole2 told (congrArg RescueSt.averaging rescue) shown
    refine ⟨_, run, ⟨(only .time (by decide)).trans ((read .time (by decide)).trans time), ends, holds, by rw [shows]; exact balanced,
      fun n h => ?_, fun h n ahead => ?_, fun h ahead n behind => ?_⟩, Only.upd (Only.upd (Only.refl _ _) rfl all) rfl only⟩
    · rw [rescueTravel_here (here_.trans h)]
      obtain ⟨landed, braked, due'⟩ := rescueLand_leaves (s := (v.showDir up).onRescue fun r => { r with target := some n })
        ((State.onRescue_kept (State.onLv_kept (Kept.refl v))).whole whole2)
      have axis' : rescueAxis ((v.showDir up).onRescue fun r => { r with target := some n }).force = a :=
        (rescueAxis_of_cfg (s := v) rfl).trans axis
      rw [axis'] at braked
      refine ⟨congrArg RescueSt.target landed, congrArg RescueSt.sq landed, braked, due'.trans ?_⟩
      show some (v.now + msT (fld (v.resc _) 15 0)) = _
      rw [now_, resc]
    · exact moves _ (rescueTravel_ahead (here_.trans h) (ahead_.trans ahead))
    · exact moves _ (rescueTravel_behind (here_.trans h) (ahead_.trans ahead) (ahead_.trans behind))
  case travels =>
    obtain ⟨time, aborted, only⟩ := deadline_aborts (d := d) (x := .rescueTravel) (r := 6) whole
      (by simp [State.rescueBusy, show s.rescue.sq = .travel from travel]) (by decide) (by decide)
    exact ⟨_, travelTimeout_runs due travel, ⟨time, aborted⟩, only⟩

end Sys2Proof.Machine
end


section

/-! PROOF. What arrives of a share group (R205, R207 to R209), and the end of an active short circuit (R221). -/

namespace Sys2Proof.Machine

open Sys2Proof.Safety Sys2Proof.Claims

section

variable {s t : State} {g : Nat} {on : Bool}

theorem sh_only {fs : List Part} (h : Only fs s t) (out : .shares ∉ fs) : t.sh g = s.sh g := by
  rw [State.sh, h .shares out]
  rfl

theorem shareAxes_of_cfg (cfg : t.cfg = s.cfg) : shareAxes t.force g = shareAxes s.force g := by
  have slot : slotW t.force g = slotW s.force g := funext fun i => force_staged cfg (by simp only [HOIST.SLOT]; omega)
  have enabled : shareEn t.force g = shareEn s.force g := by
    rw [shareEn, shareCfg, force_staged cfg (by simp only [HOIST.SHARE_CFG]; omega)]
    rfl
  have node : nodeNo t.force = nodeNo s.force := by
    rw [nodeNo, force_staged cfg (by decide)]
    rfl
  simp only [shareAxes, slotsLocal, slotsUsed, enabled, node]
  unfold slotWeight slotNode slotAxis
  rw [slot]

/-- SHARE_MISMATCH on, where it was off: raised on every local member. -/
def mismatchRaised (s : State) (g : Nat) : State := forL (shareAxes s.force g) (fun a s => s.raise srcShareMis a) (s.pfault pgHoist (2 ^ (6 + g)))

/-- SHARE_MISMATCH off, where it was on. -/
def mismatchEnded (s : State) (g : Nat) : State := forL (shareAxes s.force g) (fun a s => s.clearSrc srcShareMis a) s

theorem shareMismatch_eq : s.shareMismatch g on =
    let t := s.onSh g fun x => { x with mismatch := on }
    if on = true ∧ (s.sh g).mismatch = false then mismatchRaised t g
    else if (s.sh g).mismatch = true ∧ on = false then mismatchEnded t g else t := by
  unfold State.shareMismatch
  simp only [Bool.and_eq_true, Bool.not_eq_true']
  rfl

theorem mismatchRaised_only : Only [.regs, .axes, .safety, .trace, .log] s (mismatchRaised s g) :=
  forL_only (fun _ _ h => State.raise_only h rfl) (State.pfault_only (Only.refl _ _) rfl)

theorem mismatchEnded_only : Only [.safety] s (mismatchEnded s g) := forL_only (fun _ _ h => State.clearSrc_only h rfl) (Only.refl _ _)

theorem mismatchRaised_leaves (ok : MapOk s.regs) (low : g < 2) : Faulted pgHoist (6 + g) (mismatchRaised s g) ∧
    ∀ a ∈ shareAxes s.force g, (mismatchRaised s g).srcOn srcShareMis a = true := by
  refine ⟨forL_ind (P := Faulted pgHoist (6 + g)) (fun _ _ h => rising_faulted.raise h) _ (pfault_sets ok (nw_twoPow (by omega))), fun a mem => ?_⟩
  exact forL_reaches (I := fun _ => True) (P := fun t => t.srcOn srcShareMis a = true) mem (fun _ _ _ => trivial) (fun _ _ => raise_on)
    (fun _ _ h => raise_keeps h) trivial

theorem clearSrc_stays {src a src' a' : Nat} (h : s.srcOn src' a' = false) : (s.clearSrc src a).srcOn src' a' = false := by
  by_cases same : (src', a') = (src, a)
  · obtain ⟨rfl, rfl⟩ := Prod.mk.inj same
    exact clearSrc_off
  · rw [clearSrc_ne same]
    exact h

theorem mismatchEnded_leaves {a : Nat} (mem : a ∈ shareAxes s.force g) : (mismatchEnded s g).srcOn srcShareMis a = false :=
  forL_reaches (I := fun _ => True) (P := fun t => t.srcOn srcShareMis a = false) mem (fun _ _ _ => trivial) (fun _ _ => clearSrc_off)
    (fun _ _ h => clearSrc_stays h) trivial

/-- What setting or clearing SHARE_MISMATCH leaves (R207, R209). -/
theorem shareMismatch_leaves (whole : Whole s) (low : g < 2) : (s.shareMismatch g on).sh g = { s.sh g with mismatch := on } ∧
    (on = true → (s.sh g).mismatch = false → Faulted pgHoist (6 + g) (s.shareMismatch g on) ∧
      ∀ a ∈ shareAxes s.force g, (s.shareMismatch g on).srcOn srcShareMis a = true) ∧
    (on = false → (s.sh g).mismatch = true → ∀ a ∈ shareAxes s.force g, (s.shareMismatch g on).srcOn srcShareMis a = false) := by
  have noted : (s.onSh g fun x => { x with mismatch := on }).sh g = { s.sh g with mismatch := on } :=
    sh_onSh_same (by rw [(present whole).shares]; exact low)
  have axes : shareAxes (s.onSh g fun x => { x with mismatch := on }).force g = shareAxes s.force g := shareAxes_of_cfg rfl
  rw [shareMismatch_eq]
  dsimp only
  have ok : MapOk (s.onSh g fun x => { x with mismatch := on }).regs := whole.regs
  generalize s.onSh g (fun x => { x with mismatch := on }) = t at *
  split
  · next starts =>
    obtain ⟨faulted, raised⟩ := mismatchRaised_leaves ok low
    rw [axes] at raised
    exact ⟨(sh_only mismatchRaised_only (by decide)).trans noted, fun _ _ => ⟨faulted, raised⟩, fun off => absurd (starts.1.symm.trans off) (by decide)⟩
  · next other =>
    split
    · next ends =>
      refine ⟨(sh_only mismatchEnded_only (by decide)).trans noted, fun on => absurd (ends.2.symm.trans on) (by decide), fun _ _ a mem => ?_⟩
      exact mismatchEnded_leaves (by rw [axes]; exact mem)
    · next same =>
      exact ⟨noted, fun on was => absurd ⟨on, was⟩ other, fun off was => absurd ⟨was, off⟩ same⟩

/-- A live register that the mismatch leaves. -/
theorem shareMismatch_reads {p o : Nat} {w : Word} (calm : Calm p o) (h : Reads p o w s) : Reads p o w (s.shareMismatch g on) := by
  rw [shareMismatch_eq]
  dsimp only
  have noted : Reads p o w (s.onSh g fun x => { x with mismatch := on }) := h.of_regs rfl
  split
  · exact forL_ind (P := Reads p o w) (fun _ _ h => (rising_reads calm).raise h) _ ((rising_reads calm).fault noted)
  · split
    · exact noted.of_regs (mismatchEnded_only .regs (by decide))
    · exact noted

/-! SHARE_REF. -/

/-- A second leader is heard: this device is one itself, or another node has been the leader. -/
def secondLeader (s : State) (g : Nat) (node : BitVec 10) : Bool :=
  shareLeader s.force g || (match (s.sh g).leaderNode with
    | some n => n != node.toNat
    | none => false)

theorem secondLeader_iff {node : BitVec 10} : secondLeader s g node = true ↔
    shareLeader s.force g = true ∨ ∃ n, (s.sh g).leaderNode = some n ∧ n ≠ node.toNat := by
  unfold secondLeader
  cases (s.sh g).leaderNode <;> simp

/-- The leader of a group is heard (R207). -/
def State.refHeard (s : State) (g : Nat) (node : BitVec 10) (sq : BitVec 16) : State :=
  (if secondLeader s g node then s.shareMismatch g true else s).onSh g fun x => { x with leaderNode := some node.toNat, sq := sq }

/-- A reference comes too late for the boundary that its stamp names. -/
def State.refLate (s : State) (stamp : Nat) : Bool :=
  let b1 := s.time.frameStart + s.time.curLen
  if s.time.published then s.stampIs stamp b1 || decide ((stamp : Int) < s.ntAt b1) else decide ((stamp : Int) < s.ntAt b1) && !s.stampIs stamp b1

/-- A reference is kept, or counts as late. -/
def State.refTaken (s : State) (g stamp : Nat) (tot present : Word) : State :=
  if s.refLate stamp then s.incHalf pgHoist (HOIST.REF_COUNT g) true
  else s.onSh g fun x => { x with refs := x.refs ++ [(stamp, tot.toInt, present)] }

theorem shareRef_runs {port : PortIx} {node : BitVec 10} {group : Byte} {tot present : Word} {stamp : BitVec 64} {sq : BitVec 16}
    (up : s.up = true) (bilva : bilvaEn s.force port.val = true) (other : node.toNat ≠ nodeNo s.force)
    (named : groupOf s.force port.val group = some g) :
    exec (.shareRef port node group tot present stamp sq false) s = .next ((s.refHeard g node sq).refTaken g stamp.toNat tot present) := by
  have open_ : ¬((!s.up || false || !bilvaEn s.force port.val || node.toNat == nodeNo s.force) = true) := by simp [up, bilva, other]
  show execShareRef port node group tot present stamp sq false s = _
  unfold execShareRef
  extract_lets c
  rw [if_neg open_]
  simp only [c, named]
  rw [← apply_ite Host.Outcome.next]
  rfl

theorem refLate_iff {stamp : Nat} : s.refLate stamp = true ↔
    let b1 := s.time.frameStart + s.time.curLen
    (stamp : Int) < s.ntAt b1 ∧ s.stampIs stamp b1 = false ∨ s.time.published = true ∧ s.stampIs stamp b1 = true ∨
      s.time.published = true ∧ (stamp : Int) < s.ntAt b1 := by
  unfold State.refLate
  extract_lets b1
  by_cases published : s.time.published = true
  · rw [if_pos published, Bool.or_eq_true, decide_eq_true_eq]
    simp only [published, true_and]
    tauto
  · rw [if_neg published, Bool.and_eq_true, decide_eq_true_eq, Bool.not_eq_true']
    simp [published]

theorem refLate_of {stamp : Nat} (time : t.time = s.time) (cfg : t.cfg = s.cfg) : t.refLate stamp = s.refLate stamp := by
  have nt (b : Nat) : t.ntAt b = s.ntAt b := by
    unfold State.ntAt State.ntFine
    rw [time]
  have is (b : Nat) : t.stampIs stamp b = s.stampIs stamp b := by
    unfold State.stampIs
    rw [nt, frameLen_of_cfg cfg]
  rw [Bool.eq_iff_iff, refLate_iff, refLate_iff, time]
  simp only [is, nt]

theorem refHeard_only {node : BitVec 10} {sq : BitVec 16} : Only [.regs, .axes, .shares, .safety, .trace, .log] s (s.refHeard g node sq) :=
  State.onSh_only (only_ite (State.shareMismatch_only (Only.refl _ _) rfl) (Only.refl _ _)) rfl

/-- What the heard leader leaves of the group, and of its members (R207). -/
theorem refHeard_leaves {node : BitVec 10} {sq : BitVec 16} (whole : Whole s) (low : g < 2) :
    MapOk (s.refHeard g node sq).regs ∧
    (s.refHeard g node sq).sh g = { s.sh g with
      mismatch := (secondLeader s g node || (s.sh g).mismatch), leaderNode := some node.toNat, sq := sq } ∧
    (s.refHeard g node sq).lv pgHoist (HOIST.REF_COUNT g) = s.lv pgHoist (HOIST.REF_COUNT g) ∧
    (secondLeader s g node = true → (s.sh g).mismatch = false → Faulted pgHoist (6 + g) (s.refHeard g node sq) ∧
      ∀ a ∈ shareAxes s.force g, (s.refHeard g node sq).srcOn srcShareMis a = true) ∧
    (secondLeader s g node = false → (s.refHeard g node sq).safety = s.safety) := by
  unfold State.refHeard
  have calm : Calm pgHoist (HOIST.REF_COUNT g) := by
    have cases : g = 0 ∨ g = 1 := by omega
    rcases cases with rfl | rfl <;> decide
  cases second : secondLeader s g node with
  | true =>
    rw [if_pos rfl]
    obtain ⟨unit, raised, -⟩ := shareMismatch_leaves (on := true) whole low
    have whole' : Whole (s.shareMismatch g true) := (State.shareMismatch_kept (Kept.refl s)).whole whole
    have count := shareMismatch_reads (s := s) (g := g) (on := true) calm ⟨whole.regs, rfl⟩
    generalize s.shareMismatch g true = u at *
    have heard := sh_onSh_same (s := u) (n := g) (f := fun x => { x with leaderNode := some node.toNat, sq := sq })
      (by rw [(present whole').shares]; exact low)
    rw [unit] at heard
    exact ⟨whole'.regs, heard, count.2, fun _ was => raised rfl was, nofun⟩
  | false =>
    rw [if_neg (by decide)]
    exact ⟨whole.regs, sh_onSh_same (by rw [(present whole).shares]; exact low), rfl, nofun, fun _ => rfl⟩

/-! SHARE_STAT. -/

theorem shareStat_runs {port : PortIx} {node : BitVec 10} {group : Byte} {slots : Word} {crc : BitVec 16} (up : s.up = true)
    (bilva : bilvaEn s.force port.val = true) (other : node.toNat ≠ nodeNo s.force) (named : groupOf s.force port.val group = some g) :
    exec (.shareStat port node group slots crc) s = .next (if shareLeader s.force g then s.onSh g fun x => { x with
        nodes := (node.toNat, 0, slots, crc == slotCrc s.force g) :: x.nodes.filter fun n => n.1 ≠ node.toNat }
      else if (s.sh g).leaderNode = some node.toNat then s.shareMismatch g (!(crc == slotCrc s.force g)) else s) := by
  have open_ : ¬((!s.up || !bilvaEn s.force port.val || node.toNat == nodeNo s.force) = true) := by simp [up, bilva, other]
  show execShareStat port node group slots crc s = _
  unfold execShareStat
  extract_lets c
  rw [if_neg open_]
  simp only [c, named]
  split
  · rfl
  · split
    · rfl
    · rfl

theorem groupOf_low {c : Cfg} {port : Nat} {id : Byte} (h : groupOf c port id = some g) : g < 2 := List.mem_range.mp (List.mem_of_find?_eq_some h)

end

/-- Settles O42. -/
theorem shareMessages : Obligations.ShareMessages := by
  refine ⟨fun port node group tot present stamp sq bridged s g whole up bilva other named => ?ref,
    fun port node group slots crc s g whole up bilva other named => ?stat, fun axis s d whole due asc => ?asc⟩
  case ref =>
    intro b1 late two
    refine ⟨fun bridge => ?_, fun direct => ?_⟩
    · subst bridge
      show execShareRef port node group tot present stamp sq true s = _
      unfold execShareRef
      extract_lets c
      exact if_pos (by simp)
    · subst direct
      have low := groupOf_low named
      have run := shareRef_runs (tot := tot) (present := present) (stamp := stamp) (sq := sq) up bilva other named
      have heard := refHeard_only (s := s) (g := g) (node := node) (sq := sq)
      have whole' : Whole (s.refHeard g node sq) :=
        (State.onSh_kept (kept_ite (State.shareMismatch_kept (Kept.refl s)) (Kept.refl s))).whole whole
      have second : secondLeader s g node = true ↔ two := secondLeader_iff
      have lateness : (s.refHeard g node sq).refLate stamp.toNat = true ↔ late := by
        rw [refLate_of (heard .time (by decide)) (heard .cfg (by decide))]
        exact refLate_iff
      obtain ⟨ok, unit, count, raised, quiet⟩ := refHeard_leaves (node := node) (sq := sq) whole low
      generalize s.refHeard g node sq = v at *
      have faultNe : regAddr pgHoist pageFault ≠ regAddr pgHoist (HOIST.REF_COUNT g) := regAddr_beside (by simp only [HOIST.REF_COUNT, pageFault]; omega)
      have second' : ¬two → secondLeader s g node = false := fun one => by
        rw [← Bool.not_eq_true, second]
        exact one
      by_cases lateNow : late
      · have taken : v.refTaken g stamp.toNat tot present = v.incHalf pgHoist (HOIST.REF_COUNT g) true := if_pos (lateness.mpr lateNow)
        rw [taken] at run
        have counted : Only [.regs] v (v.incHalf pgHoist (HOIST.REF_COUNT g) true) := State.incHalf_only (Only.refl _ _) rfl
        have unit' : (v.incHalf pgHoist (HOIST.REF_COUNT g) true).sh g = _ := (sh_only counted (by decide)).trans unit
        refine ⟨_, run, ⟨?_, ?_, fun _ => ⟨?_, ?_⟩, fun early => absurd lateNow early, fun two => ⟨?_, fun was => ?_⟩, fun one => ⟨?_, ?_⟩⟩,
          State.incHalf_only heard rfl⟩
        · rw [unit']
        · rw [unit']
        · rw [unit']
        · rw [(reads_incHalf_upper ok).2, count]
        · rw [unit', second.mpr two]
          rfl
        · obtain ⟨faulted, on⟩ := raised (second.mpr two) was
          exact ⟨(faulted.setLv_ne faultNe).2, fun a mem => (srcOn_only counted (by decide)).trans (on a mem)⟩
        · rw [unit', second' one]
          rfl
        · exact (counted .safety (by decide)).trans (quiet (second' one))
      · have taken : v.refTaken g stamp.toNat tot present = v.onSh g fun x => { x with refs := x.refs ++ [(stamp.toNat, tot.toInt, present)] } :=
          if_neg fun l => lateNow (lateness.mp l)
        rw [taken] at run
        have unit' := sh_onSh_same (s := v) (n := g) (f := fun x => { x with refs := x.refs ++ [(stamp.toNat, tot.toInt, present)] })
          (by rw [(Machine.present whole').shares]; exact low)
        rw [unit] at unit'
        refine ⟨_, run, ⟨?_, ?_, fun l => absurd l lateNow, fun _ => ⟨?_, count⟩, fun two => ⟨?_, fun was => ?_⟩, fun one => ⟨?_, quiet (second' one)⟩⟩,
          State.onSh_only heard rfl⟩
        · rw [unit']
        · rw [unit']
        · rw [unit']
        · rw [unit', second.mpr two]
          rfl
        · obtain ⟨faulted, on⟩ := raised (second.mpr two) was
          exact ⟨faulted.2, on⟩
        · rw [unit', second' one]
          rfl
  case stat =>
    have low := groupOf_low named
    have run := shareStat_runs (slots := slots) (crc := crc) up bilva other named
    refine ⟨fun leader => ?_, fun member known => ?_, fun member strange => ?_⟩
    · rw [if_pos leader] at run
      exact ⟨_, run, sh_onSh_same (by rw [(present whole).shares]; exact low), State.onSh_only (Only.refl _ _) rfl⟩
    · rw [if_neg (by simp [member]), if_pos known] at run
      obtain ⟨unit, raised, ended⟩ := shareMismatch_leaves (on := !(crc == slotCrc s.force g)) whole low
      refine ⟨_, run, ⟨?_, fun same was => ended (by simp [same]) was, fun differs was => ?_⟩, State.shareMismatch_only (Only.refl _ _) rfl⟩
      · rw [unit]
        simp
      · obtain ⟨faulted, on⟩ := raised (by simp [differs]) was
        exact ⟨faulted.2, on⟩
    · rw [if_neg (by simp [member]), if_neg strange] at run
      exact run
  case asc =>
    have run : exec (.ascRelease axis) s = .next ((((s.reach d).stopT (.ascRelease axis.val)).gatesOff axis.val).onAx axis.val fun x =>
        { x with asc := false, sto := true }) := by
      show execAscRelease axis s = _
      rw [execAscRelease, State.expire_due due]
      exact congrArg _ (if_pos asc)
    have before : Only [.time, .timers] s ((s.reach d).stopT (.ascRelease axis.val)) := expired_only
    have whole' : Whole ((s.reach d).stopT (.ascRelease axis.val)) := expired_whole whole
    have time : ((s.reach d).stopT (.ascRelease axis.val)).time = { s.time with tick := max s.time.tick d } := rfl
    generalize (s.reach d).stopT (.ascRelease axis.val) = u at *
    have gates := gatesOff_only (s := u) (a := axis.val)
    have axis_ := ax_onAx_same (s := u.gatesOff axis.val) (n := axis.val) (f := fun x => { x with asc := false, sto := true })
      (by rw [show (u.gatesOff axis.val).axes = u.axes from gates .axes (by decide), (present whole').axes]; exact axis.isLt)
    rw [ax_only gates (by decide), ax_only before (by decide)] at axis_
    refine ⟨_, run, ⟨(gates .time (by decide)).trans time, by rw [axis_], by rw [axis_], by rw [axis_], fun l mem => ?_⟩,
      State.onAx_only (State.gatesOff_only (Only.upd (Only.refl _ _) rfl before) rfl) rfl⟩
    exact legIsOff_only (gatesOff_off (by rw [axUsedLegs_of_cfg (before .cfg (by decide))]; exact mem)) (State.onAx_only (Only.refl [.axes] _) rfl) (by decide)

end Sys2Proof.Machine
end


section

/-! PROOF. What raising sources and STO leave: deadlines of other kinds, other sources, the rest of the safety page and of the axes. -/

namespace Sys2Proof.Machine

open Sys2Proof.Safety Sys2Proof.Claims

section

variable {s t : State} {a : Nat} {x : Timer}

/-! Deadlines. -/

/-- A deadline that STO on axis a neither starts nor stops. -/
def OutOfSto (x : Timer) : Prop := ∀ a, x ≠ .brakeRelease a ∧ (∀ i, x ≠ .brakeFb i a) ∧ x ≠ .ss1 a ∧ x ≠ .brakeSet a ∧ x ≠ .degraded a ∧
  x ≠ .restart a ∧ x ≠ .catchTime a

theorem forL_due {α : Type} {l : List α} {f : α → State → State} (k : ∀ i t, (f i t).due x = t.due x) : (forL l f s).due x = s.due x :=
  forL_ind (P := fun t => t.due x = s.due x) (fun i t h => (k i t).trans h) l rfl

theorem sbcIssue_due (release : x ≠ .brakeRelease a) (feedback : ∀ i, x ≠ .brakeFb i a) : (s.sbcIssue a).due x = s.due x := by
  unfold State.sbcIssue
  extract_lets stopped
  have stopped_ : stopped.due x = s.due x := State.due_stopT_ne release
  have noted : (stopped.onAx a fun x => { x with sbc := true }).due x = s.due x := stopped_
  split
  · exact (forL_due fun i t => State.due_startT_ne (feedback i)).trans noted
  · exact noted

theorem stoNow_due (out : OutOfSto x) : (s.stoNow a).due x = s.due x := by
  obtain ⟨release, feedback, ss1, set, degraded, restart, catchTime⟩ := out a
  have braked : ((s.gatesOff a).sbcIssue a).due x = s.due x :=
    (sbcIssue_due release feedback).trans (due_only gatesOff_only (by decide))
  have off : (((s.gatesOff a).sbcIssue a).onAx a fun x => { x with sto := true, asc := false, ss1 := none }).due x = s.due x := braked
  unfold State.stoNow
  extract_lets out
  show (((((out.stopT (.ss1 a)).stopT (.brakeSet a)).stopT (.degraded a)).stopT (.restart a)).stopT (.catchTime a)).due x = _
  rw [State.due_stopT_ne catchTime, State.due_stopT_ne restart, State.due_stopT_ne degraded, State.due_stopT_ne set, State.due_stopT_ne ss1]
  exact off

theorem raise_due {src b : Nat} : (s.raise src b).due x = s.due x :=
  due_only (State.raise_only (Only.refl [.regs, .axes, .safety, .trace, .log] s) rfl) (by decide)

theorem raiseNow_due {src b : Nat} (out : OutOfSto x) : (s.raiseNow src b).due x = s.due x := by
  unfold State.raiseNow
  split
  · rfl
  · refine (forL_due fun b t => ?_).trans (due_only (State.noteSrc_only (Only.refl [.regs, .safety, .trace, .log] s) rfl) (by decide))
    split
    · rfl
    · split
      · rfl
      · exact (due_only (State.pushReact_only (Only.refl [.axes] _) rfl) (by decide)).trans (stoNow_due out)
    · rfl

/-! Sources that are off stay off. -/

theorem noteSrc_other {src b m y z : Nat} (n : (y, z) ≠ (src, b)) : (s.noteSrc src b m).srcOn y z = s.srcOn y z := by
  unfold State.noteSrc
  extract_lets noted
  rw [srcOn_only (State.event_only (State.logAdd_only (Only.refl [.regs, .trace, .log] noted) rfl) rfl) (by decide)]
  rw [Bool.eq_iff_iff]
  simp [noted, State.srcOn, State.onSafe, n]

theorem raise_other {src b y z : Nat} (n : (y, z) ≠ (src, b)) : (s.raise src b).srcOn y z = s.srcOn y z := by
  unfold State.raise
  split
  · rfl
  · refine forL_ind (P := fun t => t.srcOn y z = s.srcOn y z) (fun c t h => ?_) _ (noteSrc_other n)
    split
    · exact h
    · exact h

/-! The rest of the safety page. -/

/-- Q holds of a safety record whatever sources are active in it. -/
def OutlivesSources (Q : SafetySt → Prop) : Prop := ∀ y l b, Q y → Q { y with srcs := l, oteOff := b }

theorem noteSrc_safety {Q : SafetySt → Prop} (out : OutlivesSources Q) {src b m : Nat} (h : Q s.safety) : Q (s.noteSrc src b m).safety := by
  unfold State.noteSrc
  extract_lets noted
  have same : ((noted.logAdd 1 (srcClass src) m src 0).event pgSafe 1).safety = noted.safety :=
    State.event_only (State.logAdd_only (Only.refl [.regs, .trace, .log] noted) rfl) rfl .safety (by decide)
  rw [same]
  exact out _ _ _ h

theorem clearSrc_safety {Q : SafetySt → Prop} (out : OutlivesSources Q) {src b : Nat} (h : Q s.safety) : Q (s.clearSrc src b).safety :=
  out _ _ _ h

theorem raise_safety {Q : SafetySt → Prop} (out : OutlivesSources Q) {src b : Nat} (h : Q s.safety) : Q (s.raise src b).safety := by
  unfold State.raise
  split
  · exact h
  · refine forL_ind (P := fun t => Q t.safety) (fun c t h => ?_) _ (noteSrc_safety out h)
    split
    · exact h
    · exact h

theorem raiseNow_safety {Q : SafetySt → Prop} (out : OutlivesSources Q) {src b : Nat} (h : Q s.safety) : Q (s.raiseNow src b).safety := by
  unfold State.raiseNow
  split
  · exact h
  · refine forL_ind (P := fun t => Q t.safety) (fun c t h => ?_) _ (noteSrc_safety out h)
    split
    · exact h
    · split
      · exact h
      · have same : ((t.stoNow c).pushReact c .sto src false).safety = t.safety :=
          State.pushReact_only (State.stoNow_only (Only.refl [.axes, .timers, .mots, .legs] t) rfl) rfl .safety (by decide)
        rw [same]
        exact h
    · exact h

/-- The onset of a source is flagged (R283). -/
theorem raise_flags {src b : Nat} (ok : MapOk s.regs) (off : s.srcOn src b = false) : Flagged (s.raise src b) pgSafe 0 := by
  unfold State.raise
  rw [if_neg (by simp [off])]
  have noted : Flagged (s.noteSrc src b 0) pgSafe 0 := event_sets (rising_up.logAdd (Up.refl (s := s.onSafe _) ok)).ok (by decide)
  refine forL_ind (P := fun t => Flagged t pgSafe 0) (fun c t h => ?_) _ noted
  split
  · exact h
  · exact h

/-! Axes. -/

/-- P outlives STO on any axis, and reactions that are raised. -/
structure OutlivesSto (P : AxisSt → Prop) : Prop where
  brake : ∀ y, P y → P { y with sbc := true }
  off : ∀ y, P y → P { y with sto := true, asc := false, ss1 := none }
  raised : ∀ y e, P y → P { y with raised := y.raised ++ [e] }

variable {P : AxisSt → Prop}

theorem onAx_keeps {b : Nat} {f : AxisSt → AxisSt} (k : ∀ y, P y → P (f y)) (h : P (s.ax a)) : P ((s.onAx b f).ax a) := getD_modify_keeps k h

theorem sbcIssue_keeps {b : Nat} (k : ∀ y, P y → P { y with sbc := true }) (h : P (s.ax a)) : P ((s.sbcIssue b).ax a) := by
  have braked : P (((s.stopT (.brakeRelease b)).onAx b fun x => { x with sbc := true }).ax a) := onAx_keeps (s := s.stopT _) k h
  unfold State.sbcIssue
  extract_lets stopped
  split
  · rw [ax_only (State.watchBrake_only (Only.refl [.timers] _) rfl) (by decide)]
    exact braked
  · exact braked

theorem stoNow_keeps (out : OutlivesSto P) {b : Nat} (h : P (s.ax a)) : P ((s.stoNow b).ax a) := by
  have gates : P ((s.gatesOff b).ax a) := by
    rw [ax_only gatesOff_only (by decide)]
    exact h
  unfold State.stoNow
  extract_lets off
  rw [ax_only (forL_only (fs := [.timers]) (fun _ _ h => State.stopT_only h rfl) (Only.refl _ off)) (by decide)]
  exact onAx_keeps out.off (sbcIssue_keeps out.brake gates)

theorem pushReact_keeps (out : OutlivesSto P) {b src : Nat} {r : React} {dem : Bool} (h : P (s.ax a)) : P ((s.pushReact b r src dem).ax a) :=
  onAx_keeps (fun y => out.raised y _) h

theorem raise_keepsAx (out : OutlivesSto P) {src b : Nat} (h : P (s.ax a)) : P ((s.raise src b).ax a) := raise_ax out.raised h

theorem stoNow_legOff {b l : Nat} (h : LegIsOff s l) : LegIsOff (s.stoNow b) l := by
  have gates : LegIsOff (s.gatesOff b) l := by
    unfold State.gatesOff
    exact legIsOff_only (forL_ind (P := fun t => LegIsOff t l) (fun _ _ k => legOff_keeps k) _ h) (State.onMt_only (Only.refl [.mots] _) rfl) (by decide)
  unfold State.stoNow
  exact legIsOff_only gates (forL_only (fs := [.timers, .axes]) (fun _ _ h => State.stopT_only h rfl) (State.onAx_only
    (State.sbcIssue_only (Only.refl _ _) rfl) rfl)) (by decide)

/-- STO on an axis keeps the block whole. -/
theorem stoNow_whole (whole : Whole s) : Whole (s.stoNow a) := (State.stoNow_kept (Kept.refl s)).whole whole

theorem pushReact_whole {r : React} {src : Nat} {dem : Bool} (whole : Whole s) : Whole (s.pushReact a r src dem) :=
  (State.pushReact_kept (Kept.refl s)).whole whole

end

end Sys2Proof.Machine
end


section

/-! PROOF. STOIN: demand, release, readback and test (R286, R289, R290). -/

namespace Sys2Proof.Machine

open Sys2Proof.Safety Sys2Proof.Claims

section

variable {s t : State} {a : Nat}

/-- One more in the lower half of a count, which wraps there. -/
def countLow (w : Word) : Word := nw (fld w 31 16 * 65536 + (fld w 15 0 + 1) % 65536)

/-- STOIN's demand is active: the outputs are off, the release does not run, the source is raised anew. -/
def State.stoSet (s : State) : State :=
  let s := s.onSafe fun x => { x with stoActive := true, stoOut := false, stoHealthySince := none, lastStoTick := s.now }
  let s := (s.stopT .stoRelease).onField fun f => { f with sto := true }
  ((s.clearSrc srcSto 16).noteSrc srcSto 16 0).clearSrc srcStoTest 16

/-- The demand is flagged and counted. -/
def State.stoNoted (s : State) : State := (s.stoSet.event pgSafe 2).onLv pgSafe SAFE.STO_COUNT countLow

/-- STO on one axis of STO_AXES. -/
def State.stoAxis (s : State) (a : Nat) : State :=
  if (s.ax a).state = .retired then s.stoNow a else (s.stoNow a).pushReact a .sto srcSto true

/-- STO on every axis of STO_AXES. -/
def State.stoAll (s : State) : State := forL (stoAxes s.force) (fun a s => s.stoAxis a) s

/-- The rescue aborts where its axis is among them. -/
def State.stoRescue (s : State) (axes : List Nat) : State :=
  if rescueEn s.force ∧ axes.contains (rescueAxis s.force) then s.rescueAbort 1 else s

theorem stoDemandNow_eq : s.stoDemandNow = (s.stoNoted.stoAll.stoRescue (stoAxes s.stoNoted.force)).readback := rfl

theorem stoSet_only : Only [.safety, .timers, .field, .regs, .trace, .log] s s.stoSet := by
  unfold State.stoSet
  extract_lets demanded stopped
  exact State.clearSrc_only (State.noteSrc_only (State.clearSrc_only (State.onField_only (State.stopT_only
    (State.onSafe_only (Only.refl _ _) rfl) rfl) rfl) rfl) rfl) rfl

theorem stoSet_leaves (whole : Whole s) : (s.stoSet.safety.stoActive = true ∧ s.stoSet.safety.stoOut = false ∧ s.stoSet.safety.lastStoTick = s.now) ∧
    s.stoSet.field = { s.field with sto := true } ∧ s.stoSet.srcOn srcSto 16 = true ∧ s.stoSet.srcOn srcStoTest 16 = false ∧
    s.stoSet.due .stoRelease = none ∧ Reads pgSafe SAFE.STO_COUNT (s.lv pgSafe SAFE.STO_COUNT) s.stoSet := by
  unfold State.stoSet
  extract_lets demanded stopped
  have out : OutlivesSources fun x => x.stoActive = true ∧ x.stoOut = false ∧ x.lastStoTick = s.now := fun _ _ _ h => h
  have safe : stopped.safety.stoActive = true ∧ stopped.safety.stoOut = false ∧ stopped.safety.lastStoTick = s.now := ⟨rfl, rfl, rfl⟩
  have count : Reads pgSafe SAFE.STO_COUNT (s.lv pgSafe SAFE.STO_COUNT) stopped := ⟨whole.regs, rfl⟩
  have none_ : stopped.due .stoRelease = none := State.due_stopT_same (s := demanded)
  have field : stopped.field = { s.field with sto := true } := rfl
  clear_value stopped
  have before : Only [.safety, .regs, .trace, .log] stopped (((stopped.clearSrc srcSto 16).noteSrc srcSto 16 0).clearSrc srcStoTest 16) :=
    State.clearSrc_only (State.noteSrc_only (State.clearSrc_only (Only.refl _ _) rfl) rfl) rfl
  refine ⟨clearSrc_safety out (noteSrc_safety out (clearSrc_safety out safe)), (before .field (by decide)).trans field,
    (clearSrc_ne (by decide)).trans noteSrc_on, clearSrc_off, (due_only before (by decide)).trans none_, ?_⟩
  exact (rising_reads (by decide)).clearSrc ((rising_reads (by decide)).noteSrc ((rising_reads (by decide)).clearSrc count))

theorem stoNoted_rest : Only [.regs, .trace] s.stoSet s.stoNoted := State.onLv_only (State.event_only (Only.refl _ _) rfl) rfl

theorem stoNoted_only : Only [.safety, .timers, .field, .regs, .trace, .log] s s.stoNoted := Only.upd stoSet_only rfl stoNoted_rest

theorem stoNoted_leaves (whole : Whole s) : Flagged s.stoNoted pgSafe 1 ∧
    Reads pgSafe SAFE.STO_COUNT (countLow (s.lv pgSafe SAFE.STO_COUNT)) s.stoNoted := by
  obtain ⟨-, -, -, -, -, count⟩ := stoSet_leaves whole
  unfold State.stoNoted State.onLv
  generalize s.stoSet = u at *
  obtain ⟨up, flagged⟩ := event_flags (p := pgSafe) (bits := 2) (i := 1) count.1 (by decide)
  have counted := count.event (q := pgSafe) (bits := 2) (by decide)
  rw [counted.2]
  exact ⟨flagged_setLv flagged up.ok (by decide) (by decide), reads_setLv up.ok⟩

/-! STO on the axes. -/

theorem stoAxis_only {fs : List Part} {s0 : State} (h : Only fs s0 s) (sub : In [.axes, .mots, .legs, .timers] fs) : Only fs s0 (s.stoAxis a) :=
  only_ite (State.stoNow_only h sub) (State.pushReact_only (State.stoNow_only h sub) (inT rfl sub))

theorem stoAll_only : Only [.axes, .mots, .legs, .timers] s s.stoAll := forL_only (fun _ _ h => stoAxis_only h rfl) (Only.refl _ _)

theorem stoAxis_whole (whole : Whole s) : Whole (s.stoAxis a) := by
  unfold State.stoAxis
  split
  · exact stoNow_whole whole
  · exact pushReact_whole (stoNow_whole whole)

theorem stoAxis_keeps {P : AxisSt → Prop} (out : OutlivesSto P) {b : Nat} (h : P (s.ax a)) : P ((s.stoAxis b).ax a) := by
  unfold State.stoAxis
  split
  · exact stoNow_keeps out h
  · exact pushReact_keeps out (stoNow_keeps out h)

/-- STO has come to an axis that was in state st. -/
def StoCame (st : AxState) (x : AxisSt) : Prop := x.sto = true ∧ x.sbc = true ∧ (st ≠ .retired → (React.sto, srcSto, true) ∈ x.raised)

theorem stoCame_outlives {st : AxState} : OutlivesSto (StoCame st) where
  brake _ h := ⟨h.1, rfl, h.2.2⟩
  off _ h := ⟨rfl, h.2.1, h.2.2⟩
  raised _ _ h := ⟨h.1, h.2.1, fun n => List.mem_append_left _ (h.2.2 n)⟩

theorem stoAxis_comes (whole : Whole s) (low : a < 16) : StoCame (s.ax a).state ((s.stoAxis a).ax a) := by
  have off := stoNow_ax whole low
  unfold State.stoAxis
  split
  · next retired =>
    rw [off]
    exact ⟨rfl, rfl, fun n => absurd retired n⟩
  · have pushed : ((s.stoNow a).pushReact a .sto srcSto true).ax a = { (s.stoNow a).ax a with
        raised := ((s.stoNow a).ax a).raised ++ [(.sto, srcSto, true)] } :=
      ax_onAx_same (by rw [(present (stoNow_whole whole)).axes]; exact low)
    rw [pushed, off]
    exact ⟨rfl, rfl, fun _ => List.mem_append_right _ (List.mem_singleton_self _)⟩

theorem stoAxis_state {b : Nat} : ((s.stoAxis b).ax a).state = (s.ax a).state :=
  stoAxis_keeps (P := fun x => x.state = (s.ax a).state) { brake := fun _ h => h, off := fun _ h => h, raised := fun _ _ h => h } rfl

theorem stoAxis_legOff {b l : Nat} (h : LegIsOff s l) : LegIsOff (s.stoAxis b) l := by
  unfold State.stoAxis
  split
  · exact stoNow_legOff h
  · exact legIsOff_only (stoNow_legOff h) (State.pushReact_only (Only.refl [.axes] _) rfl) (by decide)

theorem stoAxis_off {l : Nat} (mem : l ∈ axUsedLegs s.force a) : LegIsOff (s.stoAxis a) l := by
  unfold State.stoAxis
  split
  · exact stoNow_off mem
  · exact legIsOff_only (stoNow_off mem) (State.pushReact_only (Only.refl [.axes] _) rfl) (by decide)

theorem stoAxis_due {x : Timer} (out : OutOfSto x) : (s.stoAxis a).due x = s.due x := by
  unfold State.stoAxis
  split
  · exact stoNow_due out
  · exact (due_only (State.pushReact_only (Only.refl [.axes] _) rfl) (by decide)).trans (stoNow_due out)

theorem stoAll_due {x : Timer} (out : OutOfSto x) : s.stoAll.due x = s.due x := forL_due fun _ _ => stoAxis_due out

theorem maskAxes_low {w : Word} {lo : Nat} (mem : a ∈ maskAxes w lo) : a < 16 := List.mem_range.mp (List.mem_filter.mp mem).1

theorem stoAxes_of_cfg (cfg : t.cfg = s.cfg) : stoAxes t.force = stoAxes s.force := by
  rw [stoAxes, force_staged cfg (by decide)]
  rfl

/-- STO comes to every axis of STO_AXES (R286). -/
theorem stoAll_comes (whole : Whole s) (mem : a ∈ stoAxes s.force) : StoCame (s.ax a).state (s.stoAll.ax a) ∧
    ∀ l ∈ axUsedLegs s.force a, LegIsOff s.stoAll l := by
  let inv : State → Prop := fun t => Whole t ∧ (t.ax a).state = (s.ax a).state ∧ t.cfg = s.cfg
  have keep (b : Nat) (t : State) (h : inv t) : inv (t.stoAxis b) :=
    ⟨stoAxis_whole h.1, stoAxis_state.trans h.2.1, (stoAxis_only (Only.refl [.axes, .mots, .legs, .timers] t) rfl .cfg (by decide)).trans h.2.2⟩
  refine ⟨forL_reaches (I := inv) (P := fun t => StoCame (s.ax a).state (t.ax a)) mem keep (fun t h => ?_)
    (fun _ _ h => stoAxis_keeps stoCame_outlives h) ⟨whole, rfl, rfl⟩, fun l leg => ?_⟩
  · rw [← h.2.1]
    exact stoAxis_comes h.1 (maskAxes_low mem)
  · exact forL_reaches (I := inv) (P := fun t => LegIsOff t l) mem keep (fun t h => stoAxis_off (by rw [axUsedLegs_of_cfg h.2.2]; exact leg))
      (fun _ _ h => stoAxis_legOff h) ⟨whole, rfl, rfl⟩

/-! The rescue, where its axis is among them. -/

theorem stoRescue_only {axes : List Nat} : Only [.regs, .axes, .mots, .legs, .rescue, .safety, .trace, .log, .timers] s (s.stoRescue axes) :=
  only_ite (State.rescueAbort_only (Only.refl _ _) rfl) (Only.refl _ _)

theorem stoRescue_ind {P : State → Prop} {axes : List Nat} (h : P s) (stops : P (rescueStops s 1)) : P (s.stoRescue axes) := by
  unfold State.stoRescue
  split
  · by_cases busy : s.rescueBusy = true
    · rw [rescueAbort_eq busy, if_pos (Or.inl rfl)]
      exact stops
    · rw [rescueAbort_idle (Bool.not_eq_true _ ▸ busy)]
      exact h
  · exact h

theorem stoRescue_rises {P : State → Prop} {axes : List Nat} (rise : Rising P) (rescue : OutlivesRescue P) (h : P s) : P (s.stoRescue axes) := by
  unfold State.stoRescue
  split
  · exact rise.rescueAbort rescue h
  · exact h

theorem rescueStops_before {r : Nat} : Only [.regs, .axes, .rescue, .trace, .timers] s
    ((((((s.rescueQuiet.sbcIssue (rescueAxis s.force)).setSeq .aborted).onLv pgHoist HOIST.RESCUE_STATUS fun w => putFld w 19 16 r).onLv pgHoist
      HOIST.RESCUE_COUNT fun w => nw ((fld w 31 16 + 1) % 65536 * 65536 + fld w 15 0)).event pgHoist 0x4000).pfault pgHoist 0x1000) :=
  State.pfault_only (State.event_only (State.onLv_only (State.onLv_only (State.setSeq_only (State.sbcIssue_only (State.rescueQuiet_only
    (Only.refl _ _) rfl) rfl) rfl) rfl) rfl) rfl) rfl

theorem rescueStops_safety {Q : SafetySt → Prop} {r : Nat} (out : OutlivesSources Q) (h : Q s.safety) : Q (rescueStops s r).safety := by
  have before := rescueStops_before (s := s) (r := r) .safety (by decide)
  exact raise_safety out (before ▸ h)

theorem rescueStops_other {r y z : Nat} (n : (y, z) ≠ (srcRescue, rescueAxis s.force)) : (rescueStops s r).srcOn y z = s.srcOn y z :=
  (raise_other n).trans (srcOn_only rescueStops_before (by decide))

theorem rescueStops_ax {P : AxisSt → Prop} {r : Nat} (out : OutlivesSto P) (still : ∀ y, P y → P { y with runPending := false }) (h : P (s.ax a)) :
    P ((rescueStops s r).ax a) := by
  refine onAx_keeps still (raise_keepsAx out ?_)
  rw [ax_only (State.pfault_only (State.event_only (State.onLv_only (State.onLv_only (State.setSeq_only (Only.refl [.regs, .rescue, .trace] _) rfl) rfl)
    rfl) rfl) rfl) (by decide)]
  refine sbcIssue_keeps out.brake ?_
  rw [ax_only (State.rescueQuiet_only (Only.refl [.timers] s) rfl) (by decide)]
  exact h

/-- A deadline that the rescue sequence does not keep. -/
def OutOfRescue (x : Timer) : Prop := x ∉ [Timer.rescueHold, .rescueSettle, .converterReady, .converterTimeout, .rescueLift, .rescueTest, .rescueTravel]

theorem rescueStops_due {x : Timer} {r : Nat} (out : OutOfSto x) (out' : OutOfRescue x) : (rescueStops s r).due x = s.due x := by
  have quiet : s.rescueQuiet.due x = s.due x := by
    simp only [OutOfRescue, List.mem_cons, List.not_mem_nil, or_false, not_or] at out'
    obtain ⟨hold, settle, ready, timeout, lift, test, travel⟩ := out'
    show (((((((s.stopT .rescueHold).stopT .rescueSettle).stopT .converterReady).stopT .converterTimeout).stopT .rescueLift).stopT
      .rescueTest).stopT .rescueTravel).due x = _
    rw [State.due_stopT_ne travel, State.due_stopT_ne test, State.due_stopT_ne lift, State.due_stopT_ne timeout, State.due_stopT_ne ready,
      State.due_stopT_ne settle, State.due_stopT_ne hold]
  have braked : (s.rescueQuiet.sbcIssue (rescueAxis s.force)).due x = s.due x :=
    (sbcIssue_due (out _).1 (out _).2.1).trans quiet
  have raised : (((((((s.rescueQuiet.sbcIssue (rescueAxis s.force)).setSeq .aborted).onLv pgHoist HOIST.RESCUE_STATUS fun w => putFld w 19 16 r).onLv
      pgHoist HOIST.RESCUE_COUNT fun w => nw ((fld w 31 16 + 1) % 65536 * 65536 + fld w 15 0)).event pgHoist 0x4000).pfault pgHoist 0x1000).raise
        srcRescue (rescueAxis s.force)).due x = s.due x :=
    raise_due.trans ((due_only (State.pfault_only (State.event_only (State.onLv_only (State.onLv_only (State.setSeq_only
      (Only.refl [.regs, .rescue, .trace] _) rfl) rfl) rfl) rfl) rfl) (by decide)).trans braked)
  exact raised

theorem outOfSto_stoRelease : OutOfSto .stoRelease := fun _ => ⟨nofun, nofun, nofun, nofun, nofun, nofun, nofun⟩

theorem outOfSto_stoReadback : OutOfSto .stoReadback := fun _ => ⟨nofun, nofun, nofun, nofun, nofun, nofun, nofun⟩

end

section

variable {s : State}

/-- What a demand from STOIN leaves (R286, R289). -/
theorem stoDemandNow_leaves (whole : Whole s) :
    (s.stoDemandNow.safety.stoActive = true ∧ s.stoDemandNow.safety.stoOut = false ∧ s.stoDemandNow.safety.lastStoTick = s.now) ∧
    s.stoDemandNow.field = { s.field with sto := true } ∧ Flagged s.stoDemandNow pgSafe 1 ∧ s.stoDemandNow.srcOn srcSto 16 = true ∧
    s.stoDemandNow.srcOn srcStoTest 16 = false ∧ s.stoDemandNow.due .stoRelease = none ∧ s.stoDemandNow.due .stoReadback = some (s.now + usT 10) ∧
    s.stoDemandNow.lv pgSafe SAFE.STO_COUNT = countLow (s.lv pgSafe SAFE.STO_COUNT) ∧
    ∀ a ∈ stoAxes s.force, StoCame (s.ax a).state (s.stoDemandNow.ax a) ∧ ∀ l ∈ axUsedLegs s.force a, LegIsOff s.stoDemandNow l := by
  obtain ⟨safe, field, on, tested, release, -⟩ := stoSet_leaves whole
  obtain ⟨flagged, count⟩ := stoNoted_leaves whole
  have noted : Only [.safety, .timers, .field, .regs, .trace, .log] s s.stoNoted := stoNoted_only
  have wholeNoted : Whole s.stoNoted := by
    unfold State.stoNoted State.stoSet
    exact (State.onLv_kept (State.event_kept (State.clearSrc_kept (State.noteSrc_kept (State.clearSrc_kept (State.onField_kept (State.stopT_kept
      (State.onSafe_kept (Kept.refl s))))))))).whole whole
  rw [stoDemandNow_eq]
  have rest : Only [.regs, .trace] s.stoSet s.stoNoted := stoNoted_rest
  have safe : s.stoNoted.safety.stoActive = true ∧ s.stoNoted.safety.stoOut = false ∧ s.stoNoted.safety.lastStoTick = s.now := by
    rw [rest .safety (by decide)]
    exact safe
  have field : s.stoNoted.field = { s.field with sto := true } := (rest .field (by decide)).trans field
  have on : s.stoNoted.srcOn srcSto 16 = true := (srcOn_only rest (by decide)).trans on
  have tested : s.stoNoted.srcOn srcStoTest 16 = false := (srcOn_only rest (by decide)).trans tested
  have release : s.stoNoted.due .stoRelease = none := (due_only rest (by decide)).trans release
  clear rest
  have axes : stoAxes s.stoNoted.force = stoAxes s.force := stoAxes_of_cfg (noted .cfg (by decide))
  have now : s.stoNoted.now = s.now := now_only noted (by decide)
  generalize s.stoNoted = u at *
  have all : Only [.axes, .mots, .legs, .timers] u u.stoAll := stoAll_only
  have allOut : OutlivesSources fun x => x.stoActive = true ∧ x.stoOut = false ∧ x.lastStoTick = s.now := fun _ _ _ h => h
  have now' : (u.stoAll.stoRescue (stoAxes u.force)).now = s.now :=
    (now_only stoRescue_only (by decide)).trans ((now_only all (by decide)).trans now)
  have up : Up u.stoAll (u.stoAll.stoRescue (stoAxes u.force)) := by
    have ok : MapOk u.stoAll.regs := by
      rw [all .regs (by decide)]
      exact wholeNoted.regs
    exact stoRescue_rises rising_up outlivesRescue_up (Up.refl ok)
  have came (a : Nat) (mem : a ∈ stoAxes s.force) := stoAll_comes wholeNoted (a := a) (axes ▸ mem)
  have state (a : Nat) : u.ax a = s.ax a := ax_only noted (by decide)
  have legs (a : Nat) : axUsedLegs u.force a = axUsedLegs s.force a := axUsedLegs_of_cfg (noted .cfg (by decide))
  have safe : u.stoAll.safety.stoActive = true ∧ u.stoAll.safety.stoOut = false ∧ u.stoAll.safety.lastStoTick = s.now := by
    rw [all .safety (by decide)]
    exact safe
  have field : u.stoAll.field = { s.field with sto := true } := (all .field (by decide)).trans field
  have flagged : Flagged u.stoAll pgSafe 1 := flagged_of_regs flagged (all .regs (by decide))
  have on : u.stoAll.srcOn srcSto 16 = true := (srcOn_only all (by decide)).trans on
  have tested : u.stoAll.srcOn srcStoTest 16 = false := (srcOn_only all (by decide)).trans tested
  have release : u.stoAll.due .stoRelease = none := (stoAll_due outOfSto_stoRelease).trans release
  have count : Reads pgSafe SAFE.STO_COUNT (countLow (s.lv pgSafe SAFE.STO_COUNT)) u.stoAll := count.of_regs (all .regs (by decide))
  simp only [state, legs] at came
  generalize u.stoAll = x at *
  have field : (x.stoRescue (stoAxes u.force)).field = { s.field with sto := true } := (stoRescue_only .field (by decide)).trans field
  have safe : (x.stoRescue (stoAxes u.force)).safety.stoActive = true ∧ (x.stoRescue (stoAxes u.force)).safety.stoOut = false ∧
      (x.stoRescue (stoAxes u.force)).safety.lastStoTick = s.now :=
    stoRescue_ind (P := fun t => t.safety.stoActive = true ∧ t.safety.stoOut = false ∧ t.safety.lastStoTick = s.now) safe
      (rescueStops_safety allOut safe)
  have on : (x.stoRescue (stoAxes u.force)).srcOn srcSto 16 = true :=
    stoRescue_ind (P := fun t => t.srcOn srcSto 16 = true) on (rescueStops_keeps on)
  have tested : (x.stoRescue (stoAxes u.force)).srcOn srcStoTest 16 = false :=
    stoRescue_ind (P := fun t => t.srcOn srcStoTest 16 = false) tested ((rescueStops_other (by simp [srcStoTest, srcRescue])).trans tested)
  have release : (x.stoRescue (stoAxes u.force)).due .stoRelease = none :=
    stoRescue_ind (P := fun t => t.due .stoRelease = none) release
      ((rescueStops_due outOfSto_stoRelease (by simp [OutOfRescue])).trans release)
  have count := (stoRescue_rises (axes := stoAxes u.force) (rising_reads (by decide)) (outlivesRescue_reads (by decide) (by decide)) count).2
  have came (a : Nat) (mem : a ∈ stoAxes s.force) : StoCame (s.ax a).state ((x.stoRescue (stoAxes u.force)).ax a) ∧
      ∀ l ∈ axUsedLegs s.force a, LegIsOff (x.stoRescue (stoAxes u.force)) l := by
    obtain ⟨came, off⟩ := came a mem
    exact ⟨stoRescue_ind (P := fun t => StoCame (s.ax a).state (t.ax a)) came (rescueStops_ax stoCame_outlives (fun _ h => h) came),
      fun l leg => stoRescue_ind (P := fun t => LegIsOff t l) (off l leg) (legIsOff_only (off l leg) (rescueStops_only (Only.refl [.regs, .axes,
        .rescue, .safety, .trace, .log, .timers] _) rfl) (by decide))⟩
  have flagged := up.bits _ _ flagged
  generalize x.stoRescue (stoAxes u.force) = w at *
  exact ⟨safe, field, flagged, on, tested, (State.due_startT_ne (t := .stoReadback) (u := .stoRelease) nofun).trans release,
    State.due_startT_same.trans (congrArg (fun n => some (n + usT 10)) now'), count, came⟩

end

/-! The release, the readback and the test. -/

section

variable {s t : State} {a d : Nat}

theorem stoRelease_runs (due : s.due .stoRelease = some d) (linked : s.linked = true) (healthy : s.field.sto = false) :
    exec .stoRelease s = .next (((((s.stopT .stoRelease).reach (s.boundaryFrom d)).onSafe fun x => { x with
      stoActive := false, stoOut := !x.stoPath }).clearSrc srcSto 16).event pgSafe 4) := by
  show execStoRelease s = _
  rw [execStoRelease, due]
  show (if !s.linked || s.field.sto then _ else _) = _
  rw [linked, healthy]
  rfl

theorem stoRelease_leaves (ok : MapOk s.regs) {T : Nat} {u : State} (eq : u = ((((s.stopT .stoRelease).reach T).onSafe fun x => { x with
      stoActive := false, stoOut := !x.stoPath }).clearSrc srcSto 16).event pgSafe 4) :
    (u.time = { s.time with tick := max s.time.tick T } ∧ u.due .stoRelease = none ∧ u.safety.stoActive = false ∧
      u.safety.stoOut = !s.safety.stoPath ∧ u.srcOn srcSto 16 = false ∧ Flagged u pgSafe 2) ∧ Only [.regs, .time, .safety, .trace, .timers] s u := by
  subst eq
  have parts : Only [.timers, .time, .safety] s ((((s.stopT .stoRelease).reach T).onSafe fun x => { x with
      stoActive := false, stoOut := !x.stoPath }).clearSrc srcSto 16) :=
    State.clearSrc_only (State.onSafe_only (State.reach_only (State.stopT_only (Only.refl _ _) rfl) rfl) rfl) rfl
  have safe : ((((s.stopT .stoRelease).reach T).onSafe fun x => { x with stoActive := false, stoOut := !x.stoPath }).clearSrc srcSto 16).safety =
      { s.safety with stoActive := false, stoOut := !s.safety.stoPath, srcs := s.safety.srcs.filter (· ≠ (srcSto, 16)) } := rfl
  have time : ((((s.stopT .stoRelease).reach T).onSafe fun x => { x with stoActive := false, stoOut := !x.stoPath }).clearSrc srcSto 16).time =
      { s.time with tick := max s.time.tick T } := rfl
  have due : ((((s.stopT .stoRelease).reach T).onSafe fun x => { x with stoActive := false, stoOut := !x.stoPath }).clearSrc srcSto 16).due
      .stoRelease = none := State.due_stopT_same (s := s)
  have off : ((((s.stopT .stoRelease).reach T).onSafe fun x => { x with stoActive := false, stoOut := !x.stoPath }).clearSrc srcSto 16).srcOn
      srcSto 16 = false := clearSrc_off
  have regs := parts .regs (by decide)
  generalize (((s.stopT .stoRelease).reach T).onSafe fun x => { x with stoActive := false, stoOut := !x.stoPath }).clearSrc srcSto 16 = u at *
  have flagged := (event_flags (s := u) (p := pgSafe) (bits := 4) (i := 2) (regs ▸ ok) (by decide)).2
  have last : Only [.regs, .trace] u (u.event pgSafe 4) := State.event_only (Only.refl _ _) rfl
  have safe' : (u.event pgSafe 4).safety = _ := (last .safety (by decide)).trans safe
  refine ⟨⟨(last .time (by decide)).trans time, (due_only last (by decide)).trans due, ?_, ?_, (srcOn_only last (by decide)).trans off, flagged⟩,
    State.event_only (Only.upd (Only.refl _ _) rfl parts) rfl⟩
  · rw [safe']
  · rw [safe']

/-- A source whose reaction is STO removes the gates and applies the brakes of its axes at once (R289). -/
theorem raiseNow_stops {src : Nat} (whole : Whole s) (off : s.srcOn src 16 = false) (mem : a ∈ srcScope s.force src) (low : a < 16)
    (react : codeReact (reactCode s.force src a) = some .sto) (high : 0x100 ≤ SAFE.REACT (src / 8)) (live : (s.ax a).state ≠ .retired)
    (scope : srcScope (s.noteSrc src 16 0).force src = srcScope s.force src) :
    ((s.raiseNow src 16).ax a).sto = true ∧ ((s.raiseNow src 16).ax a).sbc = true ∧ ∀ l ∈ axUsedLegs s.force a, LegIsOff (s.raiseNow src 16) l := by
  have noted : Only [.regs, .safety, .trace, .log] s (s.noteSrc src 16 0) := State.noteSrc_only (Only.refl _ _) rfl
  unfold State.raiseNow
  rw [if_neg (by simp [off])]
  extract_lets noted_ axes
  have mem : a ∈ axes := by
    show a ∈ if 16 < 16 then _ else _
    rw [if_neg (lt_irrefl 16)]
    exact scope ▸ mem
  let inv : State → Prop := fun t => Whole t ∧ (t.ax a).state = (s.ax a).state ∧ t.cfg = s.cfg
  have init : inv noted_ := ⟨(State.noteSrc_kept (Kept.refl s)).whole whole, congrArg AxisSt.state (ax_only noted (by decide)), noted .cfg (by decide)⟩
  have same : OutlivesSto fun x => x.state = (s.ax a).state := { brake := fun _ h => h, off := fun _ h => h, raised := fun _ _ h => h }
  have done : OutlivesSto fun x => x.sto = true ∧ x.sbc = true :=
    { brake := fun _ h => ⟨h.1, rfl⟩, off := fun _ h => ⟨rfl, h.2⟩, raised := fun _ _ h => h }
  have step (b : Nat) (t : State) (h : inv t) : inv (match codeReact (reactCode t.force src b) with
      | none => t
      | some .sto => if (t.ax b).state = .retired then t else (t.stoNow b).pushReact b .sto src false
      | some r => t.pushReact b r src false) := by
    obtain ⟨whole, state, cfg⟩ := h
    split
    · exact ⟨whole, state, cfg⟩
    · split
      · exact ⟨whole, state, cfg⟩
      · exact ⟨pushReact_whole (stoNow_whole whole), pushReact_keeps same (stoNow_keeps same state),
          (State.pushReact_only (State.stoNow_only (Only.refl [.axes, .mots, .legs, .timers] t) rfl) rfl .cfg (by decide)).trans cfg⟩
    · exact ⟨pushReact_whole whole, pushReact_keeps same state, cfg⟩
  have here (t : State) (h : inv t) : codeReact (reactCode t.force src a) = some .sto := by
    rw [← react, reactCode, reactCode, force_staged h.2.2 (by omega)]
  refine (fun (x : (_ ∧ _) ∧ _) => ⟨x.1.1, x.1.2, x.2⟩) ⟨forL_reaches (I := inv) (P := fun t => (t.ax a).sto = true ∧ (t.ax a).sbc = true) mem step
    (fun t h => ?_) (fun b t h => ?_) init, fun l leg => forL_reaches (I := inv) (P := fun t => LegIsOff t l) mem step (fun t h => ?_)
    (fun b t h => ?_) init⟩
  · rw [here t h]
    show (State.ax (if (t.ax a).state = .retired then t else (t.stoNow a).pushReact a .sto src false) a).sto = true ∧ _
    rw [if_neg (h.2.1 ▸ live)]
    refine pushReact_keeps done ?_
    rw [stoNow_ax h.1 low]
    exact ⟨rfl, rfl⟩
  · split
    · exact h
    · split
      · exact h
      · exact pushReact_keeps done (stoNow_keeps done h)
    · exact pushReact_keeps done h
  · rw [here t h]
    show LegIsOff (if (t.ax a).state = .retired then t else (t.stoNow a).pushReact a .sto src false) l
    rw [if_neg (h.2.1 ▸ live)]
    exact legIsOff_only (stoNow_off (by rw [axUsedLegs_of_cfg h.2.2]; exact leg)) (State.pushReact_only (Only.refl [.axes] _) rfl) (by decide)
  · split
    · exact h
    · split
      · exact h
      · exact legIsOff_only (stoNow_legOff h) (State.pushReact_only (Only.refl [.axes] _) rfl) (by decide)
    · exact legIsOff_only h (State.pushReact_only (Only.refl [.axes] _) rfl) (by decide)

/-- STO_PATH (R289): a readback that fails. -/
theorem stoPathFail_leaves (whole : Whole s) : s.stoPathFail.safety.stoPath = true ∧ s.stoPathFail.safety.stoOut = false ∧
    s.stoPathFail.srcOn srcStoPath 16 = true ∧ bt (s.stoPathFail.lv pgSafe pageFault) 4 = true ∧
    (s.srcOn srcStoPath 16 = false → ∀ a < 16, codeReact (reactCode s.force srcStoPath a) = some .sto → (s.ax a).state ≠ .retired →
      (s.stoPathFail.ax a).sto = true ∧ (s.stoPathFail.ax a).sbc = true ∧ ∀ l ∈ axUsedLegs s.force a, LegIsOff s.stoPathFail l) := by
  unfold State.stoPathFail
  extract_lets failed
  have safe : failed.safety.stoPath = true ∧ failed.safety.stoOut = false := ⟨rfl, rfl⟩
  have faulted : Faulted pgSafe 4 failed := pfault_sets (s := s.onSafe _) whole.regs (by decide)
  have whole' : Whole failed := (State.pfault_kept (State.onSafe_kept (Kept.refl s))).whole whole
  have parts : Only [.regs, .safety] s failed := State.pfault_only (State.onSafe_only (Only.refl _ _) rfl) rfl
  have src : failed.srcOn srcStoPath 16 = s.srcOn srcStoPath 16 := rfl
  clear_value failed
  obtain ⟨path, out⟩ := raiseNow_safety (Q := fun x => x.stoPath = true ∧ x.stoOut = false) (src := srcStoPath) (b := 16) (fun _ _ _ h => h) safe
  refine ⟨path, out, raiseNow_on, (rising_faulted.raiseNow faulted).2, fun off a low react live => ?_⟩
  have every (c : Cfg) : srcScope c srcStoPath = List.range 16 := rfl
  have stopped := raiseNow_stops (a := a) whole' (src.trans off) (by rw [every]; exact List.mem_range.mpr low) low ?_ (by decide) ?_ (by rw [every, every])
  · rwa [axUsedLegs_of_cfg (parts .cfg (by decide))] at stopped
  · rw [← react, reactCode, reactCode, force_staged (parts .cfg (by decide)) (by decide)]
  · rwa [ax_only parts (by decide)]

end

/-- Settles O43. -/
theorem safeTorqueOff : Obligations.SafeTorqueOff := by
  unfold Obligations.SafeTorqueOff
  refine fun s whole => ⟨fun linked fresh => ?demand, fun linked low active => ?again, fun d due linked healthy => ?release, fun d due low => ?waits,
    fun d due => ?readback, ?test⟩
  case demand =>
    obtain ⟨⟨active, out, last⟩, field, flagged, on, tested, release, readback, count, axes⟩ := stoDemandNow_leaves whole
    have run : exec .stoDemand s = .next s.stoDemandNow := by
      show execStoDemand s = _
      rw [execStoDemand, if_neg (by simpa [linked] using fresh)]
    refine ⟨_, run, ⟨active, out, last, field, flagged, on, tested, release, readback, ?_, fun a mem => ?_⟩, State.stoDemandNow_only (Only.refl _ _) rfl⟩
    · rw [count, countLow, fld_countLow]
    · obtain ⟨⟨sto, sbc, told⟩, off⟩ := axes a mem
      exact ⟨sto, sbc, off, told⟩
  case again =>
    show execStoDemand s = _
    rw [execStoDemand, if_pos (by simp [low, active])]
  case release =>
    obtain ⟨leaves, parts⟩ := stoRelease_leaves (T := s.boundaryFrom d) whole.regs rfl
    exact ⟨_, stoRelease_runs due linked healthy, leaves, parts⟩
  case waits =>
    show execStoRelease s = _
    rw [execStoRelease, due]
    show (if !s.linked || s.field.sto then _ else _) = _
    rw [low, Bool.or_true, if_pos rfl]
  case readback =>
    have confirmed : exec (.stoReadback true) s = .next ((s.reach d).stopT .stoReadback) := by
      show execStoReadback true s = _
      rw [execStoReadback, State.expire_due due]
      rfl
    have failed : exec (.stoReadback false) s = .next ((s.reach d).stopT .stoReadback).stoPathFail := by
      show execStoReadback false s = _
      rw [execStoReadback, State.expire_due due]
      rfl
    refine ⟨⟨_, confirmed, ⟨rfl, State.due_stopT_same⟩, expired_only⟩, ?_⟩
    have expired : Only [.time, .timers] s ((s.reach d).stopT .stoReadback) := expired_only
    have whole' : Whole ((s.reach d).stopT .stoReadback) := expired_whole whole
    have time : ((s.reach d).stopT .stoReadback).time = { s.time with tick := max s.time.tick d } := rfl
    have stopped : ((s.reach d).stopT .stoReadback).due .stoReadback = none := State.due_stopT_same
    have srcs : ((s.reach d).stopT .stoReadback).srcOn srcStoPath 16 = s.srcOn srcStoPath 16 := rfl
    have react (a : Nat) : reactCode ((s.reach d).stopT .stoReadback).force srcStoPath a = reactCode s.force srcStoPath a := rfl
    have legs (a : Nat) : axUsedLegs ((s.reach d).stopT .stoReadback).force a = axUsedLegs s.force a := rfl
    have axis (a : Nat) : ((s.reach d).stopT .stoReadback).ax a = s.ax a := rfl
    refine ⟨_, failed, ?_, State.stoPathFail_only (Only.upd (Only.refl _ _) rfl expired) rfl⟩
    have leaves := stoPathFail_leaves whole'
    rw [srcs] at leaves
    simp only [react, legs, axis] at leaves
    generalize (s.reach d).stopT .stoReadback = u at *
    refine ⟨⟨?_, ?_⟩, leaves⟩
    · exact (State.stoPathFail_only (Only.refl [.regs, .axes, .mots, .legs, .safety, .trace, .log, .timers] u) rfl .time (by decide)).trans time
    · have before : ((u.onSafe fun x => { x with stoPath := true, stoOut := false }).pfault pgSafe 16).due .stoReadback = none :=
        (due_only (State.pfault_only (State.onSafe_only (Only.refl [.regs, .safety] u) rfl) rfl) (by decide)).trans stopped
      exact (raiseNow_due outOfSto_stoReadback).trans before
  case test =>
    intro hours linked runs off
    have run : exec .stoTestDue s = .next (((s.reach (s.safety.lastStoTick + hours * hourT)).pfault pgSafe 8).raise srcStoTest 16) := by
      show execStoTestDue s = _
      have going : (hours == 0) = false := by simpa using runs
      have cond : (!s.linked || hours == 0 || s.srcOn srcStoTest 16) = false := by rw [linked, going, off]; rfl
      exact if_neg (by rw [cond]; decide)
    have time : ((s.reach (s.safety.lastStoTick + hours * hourT)).pfault pgSafe 8).time =
      { s.time with tick := max s.time.tick (s.safety.lastStoTick + hours * hourT) } := rfl
    have faulted : Faulted pgSafe 3 ((s.reach (s.safety.lastStoTick + hours * hourT)).pfault pgSafe 8) :=
      pfault_sets (s := s.reach _) whole.regs (by decide)
    have parts : Only [.time, .regs] s ((s.reach (s.safety.lastStoTick + hours * hourT)).pfault pgSafe 8) :=
      State.pfault_only (State.reach_only (Only.refl _ _) rfl) rfl
    refine ⟨_, run, ?_, State.raise_only (Only.upd (Only.refl _ _) rfl parts) rfl⟩
    have still : ((s.reach (s.safety.lastStoTick + hours * hourT)).pfault pgSafe 8).srcOn srcStoTest 16 = false :=
      (srcOn_only parts (by decide)).trans off
    generalize (s.reach (s.safety.lastStoTick + hours * hourT)).pfault pgSafe 8 = u at *
    exact ⟨(State.raise_only (Only.refl [.regs, .axes, .safety, .trace, .log] u) rfl .time (by decide)).trans time,
      (rising_faulted.raise faulted).2, raise_on, raise_flags faulted.1 still⟩

end Sys2Proof.Machine
end


section

/-! PROOF. Selected functions, their monitors, and the ends of SS1 and DEGRADED (R291 to R293, R301). -/

namespace Sys2Proof.Machine

open Sys2Proof.Safety Sys2Proof.Claims

section

variable {s t : State} {a f d : Nat} {v : Word}

/-! SEL_HOST. -/

/-- The safety registers of an axis are in force. -/
theorem safeAx_of_cfg {o : Nat} (cfg : t.cfg = s.cfg) : safeAx t.force a o = safeAx s.force a o := by
  have staged : ¬ axBlk a o < 0x100 := by
    unfold axBlk
    omega
  exact force_staged cfg staged

theorem fnEn_of_cfg (cfg : t.cfg = s.cfg) : fnEn t.force a f = fnEn s.force a f := by
  rw [fnEn, axSafe, safeAx_of_cfg cfg]
  rfl

theorem selHost_takes {m : Master} (good : ∀ a < 8, ∀ f < 4, bt v (4 * a + f) = true → fnEn s.force a f = true) :
    s.selHost m v = s.setLv pgSafe SAFE.SEL_HOST v := by
  refine if_neg fun bad => ?_
  obtain ⟨a, ha, bad⟩ := List.any_eq_true.mp bad
  obtain ⟨f, hf, bad⟩ := List.any_eq_true.mp bad
  obtain ⟨asked, off⟩ := (Bool.and_eq_true _ _).mp bad
  simp [good a (List.mem_range.mp ha) f (List.mem_range.mp hf) asked] at off

theorem selHost_refuses {m : Master} (ha : a < 8) (hf : f < 4) (asked : bt v (4 * a + f) = true) (off : fnEn s.force a f = false) :
    s.selHost m v = s.refuseBy m eState 0 (regAddr pgSafe SAFE.SEL_HOST) :=
  if_pos (List.any_eq_true.mpr ⟨a, List.mem_range.mpr ha, List.any_eq_true.mpr ⟨f, List.mem_range.mpr hf, by simp [asked, off]⟩⟩)

/-! The ends of SS1. -/

/-- The brake first, where it needs time (R292). -/
theorem ss1End_brakes (whole : Whole s) (low : a < 16) (ss1 : (s.ax a).react = some .ss1) (takes : brkSetT s.force a ≠ 0) :
    (s.ss1End a).ax a = { s.ax a with ss1 := none, sbc := true } ∧ (s.ss1End a).due (.brakeSet a) = some (s.now + brkSetT s.force a) := by
  unfold State.ss1End
  extract_lets stopped ended
  have axis : ended.ax a = { s.ax a with ss1 := none } := ax_onAx_same (s := stopped) ((present whole).axes.symm ▸ low)
  have parts : Only [.timers, .axes] s ended := State.onAx_only (State.stopT_only (Only.refl _ _) rfl) rfl
  have lengths : a < ended.axes.length := by
    rw [(present ((State.onAx_kept (State.stopT_kept (Kept.refl s))).whole whole)).axes]
    exact low
  have set : brkSetT ended.force a = brkSetT s.force a := rfl
  have now : ended.now = s.now := rfl
  clear_value ended
  rw [if_pos ⟨by rw [axis]; exact ss1, set ▸ takes⟩, set, now]
  refine ⟨?_, State.due_startT_same⟩
  rw [ax_only (State.startT_only (Only.refl [.timers] _) rfl) (by decide), sbcIssue_ax lengths, axis]

/-- What STO by the axis's own hand leaves of it (R280, R282). -/
theorem settledSto_ax (whole : Whole s) (low : a < 16) {st : AxState}
    (eq : st = if (s.ax a).state = .retired ∨ (s.ax a).toRetired = true then .retired else if (s.ax a).faulty then .fault else .disabled) :
    (((s.stoNow a).settleSto a).onAx a fun x => { x with react := some .sto }).ax a = { s.ax a with
      sbc := true, sto := true, asc := false, ss1 := none, state := st, stopToReady := false, settling := false, runPending := false,
      capturing := false, sub := false, toRetired := false, react := some .sto } := by
  have whole' : Whole (s.stoNow a) := stoNow_whole whole
  have low' : a < (s.stoNow a).axes.length := by rw [(present whole').axes]; exact low
  have low'' : a < ((s.stoNow a).settleSto a).axes.length := by rw [State.settleSto, State.onAx, List.length_modify]; exact low'
  rw [ax_onAx_same low'', State.settleSto, ax_onAx_same low', stoNow_ax whole low, eq]

theorem settledSto_off {l : Nat} {g : AxisSt → AxisSt} (mem : l ∈ axUsedLegs s.force a) : LegIsOff (((s.stoNow a).settleSto a).onAx a g) l :=
  legIsOff_only (stoNow_off mem) (State.onAx_only (State.settleSto_only (Only.refl [.axes] _) rfl) rfl) (by decide)

/-- STO where the brake needs no time, or has had it (R292). -/
theorem ss1End_stops (whole : Whole s) (low : a < 16) (other : (s.ax a).react ≠ some .ss1 ∨ brkSetT s.force a = 0) :
    ((s.ss1End a).ax a).ss1 = none ∧ ((s.ss1End a).ax a).sbc = true ∧ ((s.ss1End a).ax a).sto = true ∧ ((s.ss1End a).ax a).react = some .sto ∧
      ((s.ss1End a).ax a).state = (if (s.ax a).state = .retired ∨ (s.ax a).toRetired = true then .retired else
        if (s.ax a).faulty then .fault else .disabled) ∧ ∀ l ∈ axUsedLegs s.force a, LegIsOff (s.ss1End a) l := by
  unfold State.ss1End
  extract_lets stopped ended
  have axis : ended.ax a = { s.ax a with ss1 := none } := ax_onAx_same (s := stopped) ((present whole).axes.symm ▸ low)
  have whole' : Whole ended := (State.onAx_kept (State.stopT_kept (Kept.refl s))).whole whole
  have set : brkSetT ended.force a = brkSetT s.force a := rfl
  have legs : axUsedLegs ended.force a = axUsedLegs s.force a := rfl
  clear_value ended
  have sto := settledSto_ax whole' low rfl
  rw [axis] at sto
  have stays : ¬ ((ended.ax a).react = some .ss1 ∧ brkSetT ended.force a ≠ 0) := by
    rw [axis, set]
    exact fun both => other.elim (fun n => n both.1) both.2
  rw [if_neg stays, sto]
  exact ⟨rfl, rfl, rfl, rfl, rfl, fun l mem => settledSto_off (legs ▸ mem)⟩

/-! A source of one axis. -/

/-- Raising a source of one axis pushes its reaction there (R283). -/
theorem raise_reacts {src : Nat} {r : React} (low : a < s.axes.length) (low16 : a < 16) (off : s.srcOn src a = false)
    (react : codeReact (reactCode s.force src a) = some r) : (r, src, false) ∈ ((s.raise src a).ax a).raised := by
  have noted : Only [.regs, .safety, .trace, .log] s (s.noteSrc src a 0) := State.noteSrc_only (Only.refl _ _) rfl
  have high : ¬ SAFE.REACT (src / 8) < 0x100 := by simp only [SAFE.REACT]; omega
  have same : reactCode (s.noteSrc src a 0).force src a = reactCode s.force src a := by
    rw [reactCode, force_staged (noted .cfg (by decide)) high]
    rfl
  have low' : a < (s.noteSrc src a 0).axes.length := by rw [noted .axes (by decide)]; exact low
  have one : s.raise src a = (s.noteSrc src a 0).pushReact a r src false := by
    unfold State.raise
    rw [if_neg (by simp [off])]
    simp only [if_pos low16, forL, List.foldl, same, react]
  rw [one, State.pushReact, ax_onAx_same low']
  exact List.mem_append_right _ (List.mem_singleton_self _)

end

/-- Settles O44. -/
theorem safetySelections : Obligations.SafetySelections := by
  unfold Obligations.SafetySelections
  refine ⟨fun v s whole up => ⟨fun good => ?takes, fun a ha f hf asked off => ?refuses⟩, fun axis s d whole => ⟨fun fn due => ?monitor,
    fun due runs => ⟨fun ss1 takes => ?brakes, fun other => ?stops⟩, fun due degraded => ?degraded⟩⟩
  case takes =>
    have touched : Only [.host] s (s.touch .host) := touchHost_only (Only.refl _ _) rfl
    have cfg : (s.touch .host).cfg = s.cfg := touched .cfg (by decide)
    have run : exec (.selHost v) s = .next ((s.touch .host).selHost .host v) := if_pos up
    rw [selHost_takes fun a ha f hf asked => (fnEn_of_cfg cfg).trans (good a ha f hf asked)] at run
    have ok : MapOk (s.touch .host).regs := whole.regs
    have written : OneReg (s.touch .host) pgSafe SAFE.SEL_HOST (fun _ => v) ((s.touch .host).setLv pgSafe SAFE.SEL_HOST v) :=
      oneReg_setLv ok (by decide)
    exact ⟨_, run, OneReg.of_regs written rfl, State.setLv_only (touchHost_only (Only.refl _ _) rfl) rfl⟩
  case refuses =>
    have touched : Only [.host] s (s.touch .host) := touchHost_only (Only.refl _ _) rfl
    have run : exec (.selHost v) s = .next ((s.touch .host).selHost .host v) := if_pos up
    rw [selHost_refuses ha hf asked ((fnEn_of_cfg (touched .cfg (by decide))).trans off)] at run
    have word : Reads pgSafe SAFE.SEL_HOST (s.lv pgSafe SAFE.SEL_HOST) (s.touch .host) :=
      Reads.of_regs ⟨whole.regs, rfl⟩ touch_regs
    exact refuses_touched whole.regs run (word.refuseBy (by decide) (by decide)).2
  case monitor =>
    let m := (s.ax axis.val).mon (fnIx fn)
    have run : exec (.safetyMonitorStart axis fn) s = .next (if m.selected = true then ((s.reach d).stopT (.monitor axis.val (fnIx fn))).onAx axis.val
        fun x => x.setMon (fnIx fn) { m with running := true, ref := ((s.reach d).stopT (.monitor axis.val (fnIx fn))).axPos axis.val }
        else (s.reach d).stopT (.monitor axis.val (fnIx fn))) := by
      show execSafetyMonitorStart axis fn s = _
      rw [execSafetyMonitorStart, State.expire_due due]
      rfl
    have parts : Only [.time, .timers] s ((s.reach d).stopT (.monitor axis.val (fnIx fn))) := expired_only
    have stopped : ((s.reach d).stopT (.monitor axis.val (fnIx fn))).due (.monitor axis.val (fnIx fn)) = none := State.due_stopT_same
    have time : ((s.reach d).stopT (.monitor axis.val (fnIx fn))).time = { s.time with tick := max s.time.tick d } := rfl
    rw [axPos_only parts (by decide) (by decide) (by decide) (by decide)] at run
    generalize (s.reach d).stopT (.monitor axis.val (fnIx fn)) = u at *
    have low : axis.val < u.axes.length := by rw [parts .axes (by decide), (present whole).axes]; exact axis.isLt
    by_cases on : m.selected = true
    · rw [if_pos on] at run
      refine ⟨_, run, ⟨time, stopped, fun _ => ?_, fun off => absurd (on.symm.trans off) (by decide)⟩,
        State.onAx_only (Only.upd (Only.refl _ _) rfl parts) rfl⟩
      rw [ax_onAx_same low, ax_only parts (by decide)]
    · rw [if_neg on] at run
      exact ⟨_, run, ⟨time, stopped, fun on' => absurd on' on, fun _ => parts .axes (by decide)⟩, Only.upd (Only.refl _ _) rfl parts⟩
  case brakes =>
    have run : exec (.ss1Timeout axis) s = .next (((s.reach d).stopT (.ss1 axis.val)).ss1End axis.val) := by
      show execSs1Timeout axis s = _
      rw [execSs1Timeout, State.expire_due due]
      exact congrArg _ (if_pos runs)
    have whole' : Whole ((s.reach d).stopT (.ss1 axis.val)) := expired_whole whole
    obtain ⟨ends, set⟩ := ss1End_brakes whole' axis.isLt ss1 takes
    have ends : _ = { s.ax axis.val with ss1 := none, sbc := true } := ends
    have set : _ = some (max s.time.tick d + brkSetT s.force axis.val) := set
    have parts := State.ss1End_only (a := axis.val) (Only.upd (Only.refl [.time, .axes, .mots, .legs, .timers] s) rfl (expired_only (d := d)
      (x := .ss1 axis.val))) rfl
    have time : (((s.reach d).stopT (.ss1 axis.val)).ss1End axis.val).time = { s.time with tick := max s.time.tick d } :=
      State.ss1End_only (Only.refl [.axes, .mots, .legs, .timers] _) rfl .time (by decide)
    refine ⟨_, run, ⟨time, ?_, ?_, ?_, set⟩, parts⟩ <;> rw [ends]
  case stops =>
    have run : exec (.ss1Timeout axis) s = .next (((s.reach d).stopT (.ss1 axis.val)).ss1End axis.val) := by
      show execSs1Timeout axis s = _
      rw [execSs1Timeout, State.expire_due due]
      exact congrArg _ (if_pos runs)
    have whole' : Whole ((s.reach d).stopT (.ss1 axis.val)) := expired_whole whole
    have parts := State.ss1End_only (a := axis.val) (Only.upd (Only.refl [.time, .axes, .mots, .legs, .timers] s) rfl (expired_only (d := d)
      (x := .ss1 axis.val))) rfl
    have time : (((s.reach d).stopT (.ss1 axis.val)).ss1End axis.val).time = { s.time with tick := max s.time.tick d } :=
      State.ss1End_only (Only.refl [.axes, .mots, .legs, .timers] _) rfl .time (by decide)
    exact ⟨_, run, ⟨time, ss1End_stops whole' axis.isLt other⟩, parts⟩
  case degraded =>
    have run : exec (.degradedExpired axis) s = .next ((((s.reach d).stopT (.degraded axis.val)).pfault pgSafe 1).raisePulse srcDegExp axis.val) := by
      show execDegradedExpired axis s = _
      rw [execDegradedExpired, State.expire_due due]
      exact congrArg _ (if_pos degraded)
    have faulted : Faulted pgSafe 0 (((s.reach d).stopT (.degraded axis.val)).pfault pgSafe 1) :=
      pfault_sets (s := (s.reach d).stopT (.degraded axis.val)) whole.regs (by decide)
    have parts : Only [.time, .timers, .regs] s (((s.reach d).stopT (.degraded axis.val)).pfault pgSafe 1) :=
      State.pfault_only (State.stopT_only (State.reach_only (Only.refl _ _) rfl) rfl) rfl
    have time : (((s.reach d).stopT (.degraded axis.val)).pfault pgSafe 1).time = { s.time with tick := max s.time.tick d } := rfl
    generalize ((s.reach d).stopT (.degraded axis.val)).pfault pgSafe 1 = u at *
    have raised : Only [.regs, .axes, .safety, .trace, .log] u (u.raisePulse srcDegExp axis.val) :=
      State.clearSrc_only (State.raise_only (Only.refl _ _) rfl) rfl
    refine ⟨_, run, ⟨(raised .time (by decide)).trans time, (rising_faulted.raisePulse faulted).2, clearSrc_off, fun fresh => ?_⟩,
      Only.upd (Only.upd (Only.refl _ _) rfl parts) rfl raised⟩
    have fresh' : u.srcOn srcDegExp axis.val = false := (srcOn_only parts (by decide)).trans fresh
    refine ⟨raise_flags faulted.1 fresh', fun r react => ?_⟩
    refine raise_reacts (by rw [parts .axes (by decide), (present whole).axes]; exact axis.isLt) axis.isLt fresh' ?_
    rw [← react, reactCode, force_staged (parts .cfg (by decide)) (by decide)]
    rfl

end Sys2Proof.Machine
end


section

/-! PROOF. The brakes and their feedback (R279, R298, R301), and the test pulses of the safety inputs (R295, R297). -/

namespace Sys2Proof.Machine

open Sys2Proof.Safety Sys2Proof.Claims

/-! A loop in which one turn matters. -/

section

variable {I P : State → Prop} {s : State}

/-- P comes in turn i of a loop that has each turn once; I holds before it, and every other turn keeps both. -/
theorem forL_once {α : Type} {f : α → State → State} {i : α} {l : List α} (nodup : l.Nodup) (mem : i ∈ l)
    (before : ∀ j t, j ≠ i → I t → I (f j t)) (turn : ∀ t, I t → P (f i t)) (after : ∀ j t, j ≠ i → P t → P (f j t)) (h : I s) : P (forL l f s) := by
  obtain ⟨first, rest, rfl⟩ := List.append_of_mem mem
  have split : forL (first ++ i :: rest) f s = forL rest f (f i (forL first f s)) := by simp [forL, List.foldl_append]
  have apart := List.nodup_middle.mp nodup
  have other (j : α) (hj : j ∈ first ++ rest) : j ≠ i := fun e => (List.nodup_cons.mp apart).1 (e ▸ hj)
  rw [split]
  refine forL_ind_mem rest (fun j hj t p => after j t (other j (List.mem_append_right _ hj)) p) (turn _ ?_)
  exact forL_ind_mem first (fun j hj t p => before j t (other j (List.mem_append_left _ hj)) p) h

theorem forN_once {f : Nat → State → State} {i n : Nat} (low : i < n) (before : ∀ j t, j ≠ i → I t → I (f j t)) (turn : ∀ t, I t → P (f i t))
    (after : ∀ j t, j ≠ i → P t → P (f j t)) (h : I s) : P (forN n f s) :=
  forL_once (f := f) List.nodup_range (List.mem_range.mpr low) before turn after h

end

/-! Brakes. -/

section

variable {s t : State} {a i d : Nat}

theorem brakeOff_ax (low : a < s.axes.length) : (s.brakeOff a).ax a = { s.ax a with sbc := false } := by
  have released : (s.onAx a fun x => { x with sbc := false }).ax a = { s.ax a with sbc := false } := ax_onAx_same low
  unfold State.brakeOff
  split
  · rw [ax_only (State.watchBrake_only (Only.refl [.timers] _) rfl) (by decide)]
    exact released
  · exact released

/-- The brake inputs of an axis are due BRK_FB_T after a change (R298). -/
theorem watchBrake_due (mem : i ∈ brakeSlots s.force a) : (s.watchBrake a).due (.brakeFb i a) = some (s.now + brkFbT s.force a) := by
  let step : Nat → State → State := fun i s => s.startT (.brakeFb i a) (s.now + brkFbT s.force a)
  let inv : State → Prop := fun t => t.now + brkFbT t.force a = s.now + brkFbT s.force a
  refine (forL_reaches (f := step) (I := inv) (P := fun t => t.due (.brakeFb i a) = some (s.now + brkFbT s.force a) ∧ inv t) mem (fun j t h => h)
    (fun t h => ⟨State.due_startT_same.trans (congrArg some h), h⟩) (fun j t h => ⟨?_, h.2⟩) rfl).1
  by_cases same : j = i
  · subst same
    exact State.due_startT_same.trans (congrArg some h.2)
  · exact (State.due_startT_ne (by simpa using Ne.symm same)).trans h.1

theorem brakeOff_due (brake : hasBrake s.force a = true) (on : (s.ax a).sbc = true) (mem : i ∈ brakeSlots s.force a) :
    (s.brakeOff a).due (.brakeFb i a) = some (s.now + brkFbT s.force a) := by
  unfold State.brakeOff
  rw [if_pos (by simp [brake, on])]
  exact watchBrake_due (s := s.onAx a _) mem

/-- AXIS_STOP has ended in READY (R279). -/
theorem stopReady_leaves (whole : Whole s) (low : a < 16) : ((s.stopReady a).ax a).state = .ready ∧ ((s.stopReady a).ax a).sbc = true ∧
    ((s.stopReady a).ax a).settling = false ∧ ∀ l ∈ axUsedLegs s.force a, LegIsOff (s.stopReady a) l := by
  have axis := leaveMotion_ax (st := .ready) whole low
  have legs (l : Nat) (mem : l ∈ axUsedLegs s.force a) : LegIsOff (s.leaveMotion a .ready) l := leaveMotion_off mem
  unfold State.stopReady
  extract_lets left
  have refreshed : Only [.timers] left (if axSd left.force a ∧ !(axSense left.force a).isEmpty then left.startT (.sdRefresh a)
    (left.now + msT 5 + refreshT) else left) := only_ite (State.startT_only (Only.refl _ _) rfl) (Only.refl _ _)
  have axis : left.ax a = _ := axis
  rw [ax_only refreshed (by decide), axis]
  exact ⟨rfl, rfl, rfl, fun l mem => legIsOff_only (legs l mem) refreshed (by decide)⟩

theorem fld_lastSrc {src : Nat} (low : src < 256) : fld (nw (srcClass src * 256 + src)) 7 0 = src := by
  simp only [fld, nw, BitVec.toNat_ofNat]
  omega

/-- DEGRADED has ended near rest (R301). -/
theorem degradedEnd_leaves (whole : Whole s) (low : a < 16) :
    ((s.degradedEnd a).ax a).state = (if (s.ax a).state = .retired ∨ (s.ax a).toRetired = true then .retired else .fault) ∧
    ((s.degradedEnd a).ax a).react = some .sto ∧ ((s.degradedEnd a).ax a).sto = true ∧ ((s.degradedEnd a).ax a).sbc = true ∧
    fld ((s.degradedEnd a).lv pgSafe (SAFE.LAST_SRC a)) 7 0 = srcFbLost ∧ ∀ l ∈ axUsedLegs s.force a, LegIsOff (s.degradedEnd a) l := by
  have off (l : Nat) (mem : l ∈ axUsedLegs s.force a) : LegIsOff (s.stoNow a) l := stoNow_off mem
  have axis := stoNow_ax whole low
  have whole' : Whole (s.stoNow a) := stoNow_whole whole
  unfold State.degradedEnd
  generalize s.stoNow a = u at *
  have wholeEnd : Whole ((((u.onAx a fun x => { x with faulty := true }).settleSto a).onAx a fun x => { x with react := some .sto })) :=
    (State.onAx_kept (State.settleSto_kept (State.onAx_kept (Kept.refl u)))).whole whole'
  have low0 : a < u.axes.length := by rw [(present whole').axes]; exact low
  have low1 : a < (u.onAx a fun x => { x with faulty := true }).axes.length := by rw [State.onAx, List.length_modify]; exact low0
  have low2 : a < ((u.onAx a fun x => { x with faulty := true }).settleSto a).axes.length := by
    rw [State.settleSto, State.onAx, List.length_modify]
    exact low1
  have settled : (((u.onAx a fun x => { x with faulty := true }).settleSto a).onAx a fun x => { x with react := some .sto }).ax a =
      { s.ax a with
        sbc := true, sto := true, asc := false, ss1 := none, faulty := true, stopToReady := false, settling := false, runPending := false
        capturing := false, sub := false, toRetired := false, react := some .sto
        state := if (s.ax a).state = .retired ∨ (s.ax a).toRetired = true then .retired else .fault } := by
    rw [ax_onAx_same low2, State.settleSto, ax_onAx_same low1, ax_onAx_same low0, axis]
    rfl
  have parts : Only [.axes] u (((u.onAx a fun x => { x with faulty := true }).settleSto a).onAx a fun x => { x with react := some .sto }) :=
    State.onAx_only (State.settleSto_only (State.onAx_only (Only.refl _ _) rfl) rfl) rfl
  generalize ((u.onAx a fun x => { x with faulty := true }).settleSto a).onAx a (fun x => { x with react := some .sto }) = w at *
  have last : Only [.regs] w (w.setLastSrc a srcFbLost) := State.setLastSrc_only (Only.refl _ _) rfl
  rw [ax_only last (by decide), settled]
  refine ⟨rfl, rfl, rfl, rfl, ?_, fun l mem => legIsOff_only (legIsOff_only (off l mem) parts (by decide)) last (by decide)⟩
  rw [State.setLastSrc, State.lv_setLv_same wholeEnd.regs]
  exact fld_lastSrc (by decide)

end

/-! Test pulses. -/

section

variable {s t : State} {i j : Nat} {tp : Fin 2} {low high : BitVec 16} {followed : Bool}

/-- What a test pulse does to slot i. -/
def State.sinPulse (s : State) (tp : Fin 2) (low high : BitVec 16) (followed : Bool) (i : Nat) : State :=
  let w := sinCfg s.force i
  let d := fld w 3 0
  let src := fld w 9 8
  if sinFunc s.force i = 0 ∨ src = 0 then s
  else if src = tp.val + 1 then
    if !followed then s.sinFault i
    else if !s.diOn d then s
    else if low.getLsbD d then s.onSi i fun x => { x with passes := x.passes + 1 }
    else s.sinFault i
  else if s.diOn d && !high.getLsbD d then s.sinFault i
  else s

/-- The output of a test pulse, as it followed. -/
def State.tpNoted (s : State) (tp : Fin 2) (followed : Bool) : State :=
  s.onField fun f => { f with
    tpFollowed := if followed then f.tpFollowed ||| BitVec.ofNat 2 (2 ^ tp.val) else f.tpFollowed &&& ~~~(BitVec.ofNat 2 (2 ^ tp.val)) }

theorem testPulse_runs (linked : s.linked = true) : exec (.testPulse tp low high followed) s =
    .next (forN 8 (fun i s => s.sinPulse tp low high followed i) (s.tpNoted tp followed)) := by
  show execTestPulse tp low high followed s = _
  rw [execTestPulse, linked]
  rfl

theorem tpNoted_bit (n : Fin 2) : (s.tpNoted tp followed).field.tpFollowed.getLsbD n.val =
    if n = tp then followed else s.field.tpFollowed.getLsbD n.val := by
  have bits : ∀ (n tp : Fin 2) (b : Bool) (w : BitVec 2), (if b then w ||| BitVec.ofNat 2 (2 ^ tp.val) else
      w &&& ~~~(BitVec.ofNat 2 (2 ^ tp.val))).getLsbD n.val = if n = tp then b else w.getLsbD n.val := by decide
  exact bits n tp followed _

/-- What a pulse may do to a slot: nothing, count, or fault. -/
theorem sinPulse_cases : s.sinPulse tp low high followed i = s ∨ s.sinPulse tp low high followed i = s.sinFault i ∨
    s.sinPulse tp low high followed i = s.onSi i fun x => { x with passes := x.passes + 1 } := by
  unfold State.sinPulse
  extract_lets w d src
  split_ifs <;> simp

/-- Slot i shows a fault. -/
def State.sinMarked (s : State) (i : Nat) : State := s.onSi i fun x => { x with fault := true, passes := 0 }

theorem sinFault_eq : s.sinFault i = (((s.sinMarked i).event pgSafe 64).pfault pgSafe 2).raise srcSinFault 16 := rfl

theorem sinFault_parts : Only [.regs, .axes, .safety, .trace, .log] (s.sinMarked i) (s.sinFault i) :=
  State.raise_only (State.pfault_only (State.event_only (Only.refl _ _) rfl) rfl) rfl

theorem si_of_sins (e : t.sins = s.sins) : t.si i = s.si i := by rw [State.si, e]; rfl

theorem si_onSi_ne {f : SinSt → SinSt} (n : j ≠ i) : (s.onSi j f).si i = s.si i := getD_modify_ne n

theorem sinPulse_si (n : j ≠ i) : (s.sinPulse tp low high followed j).si i = s.si i := by
  rcases sinPulse_cases (s := s) (tp := tp) (low := low) (high := high) (followed := followed) (i := j) with e | e | e
  · rw [e]
  · rw [e, si_of_sins (sinFault_parts .sins (by decide)), State.sinMarked, si_onSi_ne n]
  · rw [e, si_onSi_ne n]

/-- Slot i shows a fault, which is raised (R297). -/
def SinFaulted (i : Nat) (t : State) : Prop := t.si i = ⟨true, 0⟩ ∧ t.srcOn srcSinFault 16 = true ∧ (∃ u, Up u t ∧ Flagged u pgSafe 6) ∧ Faulted pgSafe 1 t

theorem sinFault_faults (ok : MapOk s.regs) (present : i < s.sins.length) : SinFaulted i (s.sinFault i) := by
  have si : (s.sinMarked i).si i = ⟨true, 0⟩ := si_onSi_same present
  have after := sinFault_parts (s := s) (i := i)
  have ok' : MapOk (s.sinMarked i).regs := ok
  rw [sinFault_eq] at *
  generalize s.sinMarked i = u at *
  obtain ⟨up, flagged⟩ := event_flags (p := pgSafe) (bits := 64) (i := 6) ok' (by decide)
  exact ⟨(si_of_sins (after .sins (by decide))).trans si, raise_on, ⟨_, rising_up.raise (rising_up.fault (Up.refl up.ok)), flagged⟩,
    rising_faulted.raise (pfault_sets up.ok (by decide))⟩

theorem SinFaulted.sinPulse (n : j ≠ i) (h : SinFaulted i s) : SinFaulted i (s.sinPulse tp low high followed j) := by
  obtain ⟨si, on, ⟨u, up, flagged⟩, faulted⟩ := h
  refine ⟨(sinPulse_si n).trans si, ?_⟩
  rcases sinPulse_cases (s := s) (tp := tp) (low := low) (high := high) (followed := followed) (i := j) with e | e | e
  · rw [e]
    exact ⟨on, ⟨u, up, flagged⟩, faulted⟩
  · rw [e]
    have up' : Up u (s.sinMarked j) := up.same rfl
    have faulted' : Faulted pgSafe 1 (s.sinMarked j) := faulted.of_regs rfl
    rw [sinFault_eq]
    generalize s.sinMarked j = x at *
    exact ⟨raise_on, ⟨u, rising_up.raise (rising_up.fault up'.event), flagged⟩,
      rising_faulted.raise (rising_faulted.fault (rising_faulted.event faulted'))⟩
  · rw [e]
    exact ⟨on, ⟨u, up.same rfl, flagged⟩, faulted.of_regs rfl⟩

/-- What a pulse of another slot leaves that slot i is judged by. -/
structure BeforeSin (s : State) (i : Nat) (t : State) : Prop where
  si : t.si i = s.si i
  cfg : t.cfg = s.cfg
  dis : t.dis = s.dis
  whole : Whole t

theorem sinPulse_only : Only [.regs, .axes, .sins, .safety, .trace, .log] s (s.sinPulse tp low high followed i) := by
  rcases sinPulse_cases (s := s) (tp := tp) (low := low) (high := high) (followed := followed) (i := i) with e | e | e <;> rw [e]
  · exact Only.refl _ _
  · exact State.sinFault_only (Only.refl _ _) rfl
  · exact State.onSi_only (Only.refl _ _) rfl

theorem sinPulse_whole (whole : Whole s) : Whole (s.sinPulse tp low high followed i) := by
  rcases sinPulse_cases (s := s) (tp := tp) (low := low) (high := high) (followed := followed) (i := i) with e | e | e <;> rw [e]
  · exact whole
  · exact (State.sinFault_kept (Kept.refl s)).whole whole
  · exact (State.onSi_kept (Kept.refl s)).whole whole

theorem BeforeSin.sinPulse {s0 : State} (h : BeforeSin s0 i s) (n : j ≠ i) : BeforeSin s0 i (s.sinPulse tp low high followed j) where
  si := (sinPulse_si n).trans h.si
  cfg := (sinPulse_only .cfg (by decide)).trans h.cfg
  dis := (sinPulse_only .dis (by decide)).trans h.dis
  whole := sinPulse_whole h.whole

theorem sinCfg_of_cfg (cfg : t.cfg = s.cfg) : sinCfg t.force i = sinCfg s.force i := force_staged cfg (by simp only [SAFE.SIN_CFG]; omega)

/-- The pulse of slot i, as the rest of the block was before the pulses. -/
theorem BeforeSin.turn {s0 : State} {Q : State → Prop} (h : BeforeSin s0 i s)
    (k : (if sinFunc s0.force i = 0 ∨ fld (sinCfg s0.force i) 9 8 = 0 then Q s
      else if fld (sinCfg s0.force i) 9 8 = tp.val + 1 then
        if !followed then Q (s.sinFault i)
        else if !s0.diOn (fld (sinCfg s0.force i) 3 0) then Q s
        else if low.getLsbD (fld (sinCfg s0.force i) 3 0) then Q (s.onSi i fun x => { x with passes := x.passes + 1 })
        else Q (s.sinFault i)
      else if s0.diOn (fld (sinCfg s0.force i) 3 0) && !high.getLsbD (fld (sinCfg s0.force i) 3 0) then Q (s.sinFault i) else Q s)) :
    Q (s.sinPulse tp low high followed i) := by
  have func : sinFunc s.force i = sinFunc s0.force i := by rw [sinFunc, sinCfg_of_cfg h.cfg]; rfl
  have on (d : Nat) : s.diOn d = s0.diOn d := by rw [State.diOn, State.di, h.dis]; rfl
  unfold State.sinPulse
  extract_lets w d src
  have word : w = sinCfg s0.force i := sinCfg_of_cfg h.cfg
  simp only [src, d, word, func, on]
  split_ifs at k ⊢ <;> exact k

/-- The pulses of all slots, where slot i's own one turns out as P. -/
theorem sinPulses_ind {P : State → Prop} (whole : Whole s) (slot : i < 8) (turn : ∀ t, BeforeSin s i t → P (t.sinPulse tp low high followed i))
    (keep : ∀ j t, j ≠ i → P t → P (t.sinPulse tp low high followed j)) :
    P (forN 8 (fun i s => s.sinPulse tp low high followed i) s) :=
  forN_once (I := BeforeSin s i) slot (fun _ _ n h => h.sinPulse n) turn keep ⟨rfl, rfl, rfl, whole⟩

theorem slot_faults (whole : Whole s) (slot : i < 8) (runs : ¬ (sinFunc s.force i = 0 ∨ fld (sinCfg s.force i) 9 8 = 0))
    (bad : fld (sinCfg s.force i) 9 8 = tp.val + 1 ∧ (followed = false ∨ s.diOn (fld (sinCfg s.force i) 3 0) = true ∧
        low.getLsbD (fld (sinCfg s.force i) 3 0) = false) ∨
      fld (sinCfg s.force i) 9 8 ≠ tp.val + 1 ∧ s.diOn (fld (sinCfg s.force i) 3 0) = true ∧ high.getLsbD (fld (sinCfg s.force i) 3 0) = false) :
    SinFaulted i (forN 8 (fun i s => s.sinPulse tp low high followed i) s) := by
  refine sinPulses_ind whole slot (fun t h => h.turn ?_) fun j t n h => h.sinPulse n
  have faults : SinFaulted i (t.sinFault i) := sinFault_faults h.whole.regs (by rw [(present h.whole).sins]; exact slot)
  rw [if_neg runs]
  rcases bad with ⟨own, unfollowed | ⟨on, read⟩⟩ | ⟨other, on, read⟩
  · rw [if_pos own, if_pos (by simp [unfollowed])]
    exact faults
  · rw [if_pos own, on, read, if_neg (by decide : ¬ (!true) = true), if_neg (by decide : ¬ false = true), ite_self]
    exact faults
  · rw [if_neg other, if_pos (by simp [on, read])]
    exact faults

theorem slot_counts (whole : Whole s) (slot : i < 8) (runs : ¬ (sinFunc s.force i = 0 ∨ fld (sinCfg s.force i) 9 8 = 0))
    (own : fld (sinCfg s.force i) 9 8 = tp.val + 1) (on : s.diOn (fld (sinCfg s.force i) 3 0) = true)
    (read : low.getLsbD (fld (sinCfg s.force i) 3 0) = true) :
    (forN 8 (fun i s => s.sinPulse tp low high true i) s).si i = { s.si i with passes := (s.si i).passes + 1 } := by
  refine sinPulses_ind (P := fun t => t.si i = _) whole slot (fun t h => h.turn (Q := fun t => t.si i = _) ?_)
    fun j t n h => (sinPulse_si n).trans h
  rw [if_neg runs, if_pos own, if_neg (by decide), on, read, if_neg (by decide), if_pos rfl, si_onSi_same (by rw [(present h.whole).sins]; exact slot), h.si]

theorem slot_stays (whole : Whole s) (slot : i < 8) (idle : (sinFunc s.force i = 0 ∨ fld (sinCfg s.force i) 9 8 = 0) ∨
      fld (sinCfg s.force i) 9 8 = tp.val + 1 ∧ followed = true ∧ s.diOn (fld (sinCfg s.force i) 3 0) = false ∨
      fld (sinCfg s.force i) 9 8 ≠ tp.val + 1 ∧
        (s.diOn (fld (sinCfg s.force i) 3 0) = false ∨ high.getLsbD (fld (sinCfg s.force i) 3 0) = true)) :
    (forN 8 (fun i s => s.sinPulse tp low high followed i) s).si i = s.si i := by
  refine sinPulses_ind (P := fun t => t.si i = _) whole slot (fun t h => h.turn (Q := fun t => t.si i = _) ?_)
    fun j t n h => (sinPulse_si n).trans h
  by_cases runs : sinFunc s.force i = 0 ∨ fld (sinCfg s.force i) 9 8 = 0
  · rw [if_pos runs]
    exact h.si
  · rw [if_neg runs]
    rcases idle.resolve_left runs with ⟨own, follows, off⟩ | ⟨other, quiet⟩
    · rw [if_pos own, if_neg (by simp [follows]), if_pos (by simp [off])]
      exact h.si
    · rw [if_neg other, if_neg (by rcases quiet with off | read <;> simp_all)]
      exact h.si

end

/-- Settles O45. -/
theorem brakesAndTestPulses : Obligations.BrakesAndTestPulses := by
  unfold Obligations.BrakesAndTestPulses
  refine ⟨fun axis s d whole => ⟨fun due => ?release, fun due => ?set, fun slot due => ?feedback⟩, fun tp low high followed s whole linked => ?pulse⟩
  case release =>
    have run : exec (.brakeRelease axis) s = .next (if (s.ax axis.val).state.moving then ((s.reach d).stopT (.brakeRelease axis.val)).brakeOff axis.val
        else (s.reach d).stopT (.brakeRelease axis.val)) := by
      show execBrakeRelease axis s = _
      rw [execBrakeRelease, State.expire_due due]
      rfl
    have parts : Only [.time, .timers] s ((s.reach d).stopT (.brakeRelease axis.val)) := expired_only
    have time : ((s.reach d).stopT (.brakeRelease axis.val)).time = { s.time with tick := max s.time.tick d } := rfl
    have now : ((s.reach d).stopT (.brakeRelease axis.val)).now = max s.time.tick d := rfl
    have brake : hasBrake ((s.reach d).stopT (.brakeRelease axis.val)).force axis.val = hasBrake s.force axis.val := rfl
    have slots : brakeSlots ((s.reach d).stopT (.brakeRelease axis.val)).force axis.val = brakeSlots s.force axis.val := rfl
    have takes : brkFbT ((s.reach d).stopT (.brakeRelease axis.val)).force axis.val = brkFbT s.force axis.val := rfl
    generalize (s.reach d).stopT (.brakeRelease axis.val) = u at *
    by_cases moving : (s.ax axis.val).state.moving = true
    · rw [if_pos moving] at run
      have off : Only [.axes, .timers] u (u.brakeOff axis.val) := State.brakeOff_only (Only.refl _ _) rfl
      refine ⟨_, run, ⟨(off .time (by decide)).trans time, fun _ => ⟨?_, fun has on i mem => ?_⟩, fun rests => absurd (moving.symm.trans rests) (by decide)⟩,
        Only.upd (Only.upd (Only.refl _ _) rfl parts) rfl off⟩
      · rw [brakeOff_ax (by rw [parts .axes (by decide), (present whole).axes]; exact axis.isLt), ax_only parts (by decide)]
      · rw [brakeOff_due (brake.trans has) (by rw [ax_only parts (by decide)]; exact on) (slots ▸ mem), now, takes]
    · rw [if_neg moving] at run
      exact ⟨_, run, ⟨time, fun moves => absurd moves moving, fun _ => parts .axes (by decide)⟩, Only.upd (Only.refl _ _) rfl parts⟩
  case set =>
    let x := s.ax axis.val
    have run : exec (.brakeSetExpiry axis) s = .next (
        if x.settling ∧ x.stopToReady ∧ x.react ≠ some .degraded then ((s.reach d).stopT (.brakeSet axis.val)).stopReady axis.val
        else if x.settling then ((s.reach d).stopT (.brakeSet axis.val)).degradedEnd axis.val
        else if x.react = some .ss1 then ((((s.reach d).stopT (.brakeSet axis.val)).stoNow axis.val).settleSto axis.val).onAx axis.val fun x => { x with
          react := some .sto }
        else (s.reach d).stopT (.brakeSet axis.val)) := by
      show execBrakeSetExpiry axis s = _
      rw [execBrakeSetExpiry, State.expire_due due]
      rfl
    have parts : Only [.time, .timers] s ((s.reach d).stopT (.brakeSet axis.val)) := expired_only
    have time : ((s.reach d).stopT (.brakeSet axis.val)).time = { s.time with tick := max s.time.tick d } := rfl
    have whole' : Whole ((s.reach d).stopT (.brakeSet axis.val)) := expired_whole whole
    have legs : axUsedLegs ((s.reach d).stopT (.brakeSet axis.val)).force axis.val = axUsedLegs s.force axis.val := rfl
    have same : ((s.reach d).stopT (.brakeSet axis.val)).ax axis.val = x := rfl
    generalize (s.reach d).stopT (.brakeSet axis.val) = u at *
    by_cases settling : x.settling = true
    · by_cases ready : x.stopToReady = true ∧ x.react ≠ some .degraded
      · rw [if_pos ⟨settling, ready⟩] at run
        have leaves := stopReady_leaves whole' axis.isLt
        rw [legs] at leaves
        have last : Only [.axes, .mots, .legs, .timers] u (u.stopReady axis.val) := State.stopReady_only (Only.refl _ _) rfl
        exact ⟨_, run, ⟨(last .time (by decide)).trans time, fun _ _ _ => leaves,
          fun _ other => absurd other (by rintro (off | degraded); exacts [absurd (ready.1.symm.trans off) (by decide), ready.2 degraded]),
          fun off => absurd (settling.symm.trans off) (by decide)⟩, Only.upd (Only.upd (Only.refl _ _) rfl parts) rfl last⟩
      · rw [if_neg (fun all => ready all.2), if_pos settling] at run
        have leaves := degradedEnd_leaves whole' axis.isLt
        rw [legs, same] at leaves
        have last : Only [.regs, .axes, .mots, .legs, .timers] u (u.degradedEnd axis.val) := State.degradedEnd_only (Only.refl _ _) rfl
        exact ⟨_, run, ⟨(last .time (by decide)).trans time, fun _ stop other => absurd ⟨stop, other⟩ ready, fun _ _ => leaves,
          fun off => absurd (settling.symm.trans off) (by decide)⟩, Only.upd (Only.upd (Only.refl _ _) rfl parts) rfl last⟩
    · rw [if_neg (fun all => settling all.1), if_neg settling] at run
      by_cases ss1 : x.react = some .ss1
      · rw [if_pos ss1] at run
        have axis_ := settledSto_ax whole' axis.isLt rfl
        have off (l : Nat) (mem : l ∈ axUsedLegs s.force axis.val) : LegIsOff (((u.stoNow axis.val).settleSto axis.val).onAx axis.val fun x => { x with
          react := some .sto }) l := settledSto_off (legs ▸ mem)
        have last : Only [.axes, .mots, .legs, .timers] u (((u.stoNow axis.val).settleSto axis.val).onAx axis.val fun x => { x with
          react := some .sto }) := State.onAx_only (State.settleSto_only (State.stoNow_only (Only.refl _ _) rfl) rfl) rfl
        rw [same] at axis_
        refine ⟨_, run, ⟨(last .time (by decide)).trans time, fun on => absurd on settling, fun on => absurd on settling, fun _ _ => ?_⟩,
          Only.upd (Only.upd (Only.refl _ _) rfl parts) rfl last⟩
        rw [axis_]
        exact ⟨rfl, rfl, rfl, rfl, off⟩
      · rw [if_neg ss1] at run
        exact ⟨_, run, ⟨time, fun on => absurd on settling, fun on => absurd on settling, fun _ on => absurd on ss1⟩,
          Only.upd (Only.refl _ _) rfl parts⟩
  case feedback =>
    have run : exec (.brakeFbTimeout slot axis) s = .next (if (brakeSlots s.force axis.val).contains slot.val && !s.brakeShown slot.val axis.val then
        ((s.reach d).stopT (.brakeFb slot.val axis.val)).raise srcBrakeFb axis.val else (s.reach d).stopT (.brakeFb slot.val axis.val)) := by
      show execBrakeFbTimeout slot axis s = _
      rw [execBrakeFbTimeout, State.expire_due due]
      rfl
    have parts : Only [.time, .timers] s ((s.reach d).stopT (.brakeFb slot.val axis.val)) := expired_only
    have time : ((s.reach d).stopT (.brakeFb slot.val axis.val)).time = { s.time with tick := max s.time.tick d } := rfl
    generalize (s.reach d).stopT (.brakeFb slot.val axis.val) = u at *
    by_cases bad : slot.val ∈ brakeSlots s.force axis.val ∧ s.brakeShown slot.val axis.val = false
    · rw [if_pos (by simpa using bad)] at run
      have last : Only [.regs, .axes, .safety, .trace, .log] u (u.raise srcBrakeFb axis.val) := State.raise_only (Only.refl _ _) rfl
      have excluded (good : slot.val ∉ brakeSlots s.force axis.val ∨ s.brakeShown slot.val axis.val = true) : False :=
        good.elim (fun n => n bad.1) fun shown => absurd (bad.2.symm.trans shown) (by decide)
      refine ⟨_, run, ⟨(last .time (by decide)).trans time, fun _ _ => ⟨raise_on, fun fresh => ?_⟩, fun good => (excluded good).elim⟩,
        Only.upd (Only.upd (Only.refl _ _) rfl parts) rfl last⟩
      have fresh' : u.srcOn srcBrakeFb axis.val = false := (srcOn_only parts (by decide)).trans fresh
      have regs : u.regs = s.regs := parts .regs (by decide)
      refine ⟨raise_flags (regs ▸ whole.regs) fresh', fun r react => raise_reacts (by rw [parts .axes (by decide), (present whole).axes]; exact axis.isLt)
        axis.isLt fresh' ?_⟩
      rw [← react, reactCode, force_staged (parts .cfg (by decide)) (by decide)]
      rfl
    · rw [if_neg (by simpa using bad)] at run
      exact ⟨_, run, ⟨time, fun mem shown => absurd ⟨mem, shown⟩ bad, fun _ => ⟨parts .axes (by decide), parts .safety (by decide)⟩⟩,
        Only.upd (Only.refl _ _) rfl parts⟩
  case pulse =>
    have noted : Only [.field] s (s.tpNoted tp followed) := State.onField_only (Only.refl _ _) rfl
    have whole' : Whole (s.tpNoted tp followed) := (State.onField_kept (Kept.refl s)).whole whole
    have bits (n : Fin 2) := tpNoted_bit (s := s) (tp := tp) (followed := followed) n
    have word (i : Nat) : sinCfg (s.tpNoted tp followed).force i = sinCfg s.force i := rfl
    have func (i : Nat) : sinFunc (s.tpNoted tp followed).force i = sinFunc s.force i := rfl
    have on (d : Nat) : (s.tpNoted tp followed).diOn d = s.diOn d := rfl
    have si (i : Nat) : (s.tpNoted tp followed).si i = s.si i := rfl
    have run := testPulse_runs (tp := tp) (low := low) (high := high) (followed := followed) linked
    generalize s.tpNoted tp followed = u at *
    have loop : Only [.regs, .axes, .sins, .safety, .trace, .log] u (forN 8 (fun i s => s.sinPulse tp low high followed i) u) :=
      forN_only (fun _ _ h => Only.upd h rfl sinPulse_only) (Only.refl _ _)
    refine ⟨_, run, ⟨fun n => ?_, fun i slot => ?_⟩, Only.upd (Only.upd (Only.refl _ _) rfl noted) rfl loop⟩
    · rw [loop .field (by decide)]
      exact bits n
    · have faults := slot_faults (tp := tp) (low := low) (high := high) (followed := followed) whole' slot
      have stays := slot_stays (tp := tp) (low := low) (high := high) (followed := followed) whole' slot
      have counts := slot_counts (tp := tp) (low := low) (high := high) whole' slot
      simp only [word, func, on, si] at faults stays counts
      intro w di own other fault
      have faulted (h : SinFaulted i (forN 8 (fun i s => s.sinPulse tp low high followed i) u)) : fault := by
        obtain ⟨shown, raised, ⟨v, up, flagged⟩, sticky⟩ := h
        exact ⟨shown, raised, up.bits _ _ flagged, sticky.2⟩
      have runs (h : own) : ¬ (sinFunc s.force i = 0 ∨ fld (sinCfg s.force i) 9 8 = 0) := by
        rintro (none | none)
        · exact h.1 none
        · have source : fld (sinCfg s.force i) 9 8 = tp.val + 1 := h.2
          omega
      have runs' (h : other) : ¬ (sinFunc s.force i = 0 ∨ fld (sinCfg s.force i) 9 8 = 0) := fun none => none.elim h.1 h.2.1
      refine ⟨fun h unfollowed => faulted (faults (runs h) (Or.inl ⟨h.2, Or.inl unfollowed⟩)),
        fun h _ on read => faulted (faults (runs h) (Or.inl ⟨h.2, Or.inr ⟨on, read⟩⟩)), fun h follows on read => ?_,
        fun h follows off => stays (Or.inr (Or.inl ⟨h.2, follows, off⟩)), fun h on read => faulted (faults (runs' h) (Or.inr ⟨h.2.2, on, read⟩)),
        fun h quiet => stays (Or.inr (Or.inr ⟨h.2.2, quiet⟩)), fun notOwn notOther => stays (Or.inl ?_)⟩
      · subst follows
        exact counts (runs h) h.2 on read
      · by_contra out
        obtain ⟨func, source⟩ := not_or.mp out
        by_cases mine : fld (sinCfg s.force i) 9 8 = tp.val + 1
        · exact notOwn ⟨func, mine⟩
        · exact notOther ⟨func, source, mine⟩

end Sys2Proof.Machine
end


section

/-! PROOF. Commands of motion axes and path groups (R176, R184, R186, Table 7-1). -/

namespace Sys2Proof.Machine

open Sys2Proof.Safety Sys2Proof.Claims

section

variable {s t v : State} {m : Master} {c : Instr} {a code : Nat}

/-- A refusal that goes on to events and registers beside the count of refusals is still one (R67). -/
theorem refuses_after {cmd addr e : Nat} {P : State → Prop} (ok : MapOk s.regs) (run : exec c s = .next v)
    (only : Only [.regs, .trace, .log] ((s.touch m).refuseBy m e cmd addr) v)
    (after : ∀ w, Reads pgSys SYS.REFUSED_COUNT w ((s.touch m).refuseBy m e cmd addr) → v.lv pgSys SYS.REFUSED_COUNT = w)
    (up : Up ((s.touch m).refuseBy m e cmd addr) v) (leaves : P v) : Refuses c m s P := by
  have regs : (s.touch m).regs = s.regs := touch_regs
  have ok' : MapOk (s.touch m).regs := regs ▸ ok
  have parts : Only [.regs, .host, .mgr, .trace, .log] s ((s.touch m).refuseBy m e cmd addr) :=
    State.refuseBy_only (Only.upd (Only.refl _ _) rfl touch_frame) rfl
  have counts := State.refuseBy_counts (m := m) (e := e) (c := cmd) (a := addr) ok'
  refine ⟨_, run, ⟨?_, up.bits _ _ (State.refuseBy_flags ok'), ?_, ?_, leaves⟩, Only.upd parts rfl only⟩
  · rw [after _ ⟨refuseBy_ok ok', counts⟩, lv_of_regs regs]
  · rw [Only.mstr only (by decide) (by decide)]
    exact State.refuseBy_marks
  · rw [Only.mstr only (by decide) (by decide), refuseBy_busy, State.touch, State.mstr_onMstr_same]

/-! Commands of a motion axis. -/

/-- Command c is command `code` of axis a (Table 7-1), which the axis takes in state s if `may`. -/
structure MotionCommand (s : State) (c : Instr) (a code : Nat) (may : Prop) : Prop where
  low : code < 256
  run : exec c s = .next (s.hostMot a code)
  takes : may → s.motFail a code = none
  refuses : ¬ may → s.motFail a code = some eState ∨ s.motFail a code = some eRange ∧ s.lv (pgMot a) MOT.GEAR_DEN = 0

theorem motFail_touch : (s.touch .host).motFail a code = s.motFail a code := rfl

/-- A command of the source and state in force. -/
theorem motFail_state {ok : Bool} {may : Prop} (iff : ok = true ↔ may) (eq : s.motFail a code = if ok then none else some eState) :
    (may → s.motFail a code = none) ∧ (¬ may → s.motFail a code = some eState ∨ s.motFail a code = some eRange ∧ s.lv (pgMot a) MOT.GEAR_DEN = 0) := by
  rw [eq]
  exact ⟨fun h => if_pos (iff.mpr h), fun h => Or.inl (if_neg fun k => h (iff.mp k))⟩

/-- A command that needs a ratio too. -/
theorem motFail_ratio {ok : Bool} {may : Prop} (iff : (ok = true ∧ s.lv (pgMot a) MOT.GEAR_DEN ≠ 0) ↔ may)
    (eq : s.motFail a code = (if ok then none else some eState).or (if s.lv (pgMot a) MOT.GEAR_DEN = 0 then some eRange else none)) :
    (may → s.motFail a code = none) ∧ (¬ may → s.motFail a code = some eState ∨ s.motFail a code = some eRange ∧ s.lv (pgMot a) MOT.GEAR_DEN = 0) := by
  rw [eq]
  refine ⟨fun h => ?_, fun h => ?_⟩
  · obtain ⟨on, ratio⟩ := iff.mpr h
    rw [if_pos on, if_neg ratio]
    rfl
  · by_cases on : ok = true
    · have none_ : s.lv (pgMot a) MOT.GEAR_DEN = 0 := by
        by_contra ratio
        exact h (iff.mp ⟨on, ratio⟩)
      rw [if_pos on, if_pos none_]
      exact Or.inr ⟨rfl, none_⟩
    · rw [if_neg on]
      exact Or.inl rfl

/-- What a master's motion command does (R176). -/
theorem hostMot_takes {may : Prop} (h : MotionCommand s c a code may) (whole : Whole s) (low : a < 16) (up : s.up = true) (can : may)
    (free : s.axLocked a = false) (idle : (s.mt a).pending = none) :
    Does c s [.host, .mots] fun t => t.mt a = { s.mt a with pending := some code } := by
  have taken : s.hostMot a code = (s.touch .host).onMt a fun x => { x with pending := some code } := by
    have free' : (s.touch .host).axLocked a = false := free
    have idle' : ((s.touch .host).mt a).pending = none := idle
    rw [State.hostMot, if_pos up, State.motCmd]
    simp only [free', idle', motFail_touch, h.takes can]
    rfl
  refine ⟨_, h.run.trans (congrArg _ taken), ?_, State.onMt_only (touchHost_only (Only.refl _ _) rfl) rfl⟩
  exact mt_onMt_same (s := s.touch .host) ((present whole).mots.symm ▸ low)

theorem hostMot_refuses {may : Prop} {e : Nat} (h : MotionCommand s c a code may) (whole : Whole s) (up : s.up = true) (low : a < 16)
    (bad : (if s.axLocked a then some eState else if (s.mt a).pending.isSome then some eBusy else s.motFail a code) = some e) :
    Refuses c .host s fun t => t.lv (pgMot a) MOT.CMD_RESULT = nw (code * 256 + e) := by
  have refused : s.hostMot a code = ((s.touch .host).refuseBy .host e 0 (regAddr (pgMot a) MOT.CMD)).motResult a code e := by
    have bad' : (if (s.touch .host).axLocked a then some eState else if ((s.touch .host).mt a).pending.isSome then some eBusy else
      (s.touch .host).motFail a code) = some e := bad
    rw [State.hostMot, if_pos up, State.motCmd]
    simp only [bad']
  have page : pgSys ≠ pgMot a := by
    simp only [pgSys, pgMot]
    omega
  refine refuses_telling whole.regs (by decide) (by decide) (fun e => page e.1) (h.run.trans (congrArg _ refused)) ?_
  rw [State.lv_setLv_same (refuseBy_ok (touch_regs (m := .host) ▸ whole.regs)), Nat.mod_eq_of_lt h.low]

/-! Segments of a path group. -/

/-- A segment that is taken (R184). -/
theorem push_takes {g : Nat} (whole : Whole s) (low : g < 4) (good : s.pushFail g = none) :
    let t := (s.touch .host).pushBy .host g
    t.gr g = { s.gr g with fresh := (s.gr g).fresh ++ [{ words := (List.range 8).map fun i => s.lv pgGroup (GROUP.SEG_W g i) }] } ∧
      OneReg s pgGroup (GROUP.QSTATUS g) (fun w => putFld w 31 24 eNone) t ∧ Only [.regs, .host, .groups] s t := by
  intro t
  have good' : (s.touch .host).pushFail g = none := good
  have taken : t = ((s.touch .host).onGr g fun x => { x with
      fresh := x.fresh ++ [{ words := (List.range 8).map fun i => s.lv pgGroup (GROUP.SEG_W g i) }] }).qstatus g eNone := by
    show (s.touch .host).pushBy .host g = _
    simp only [State.pushBy, good']
    rfl
  have offset : GROUP.QSTATUS g < 4096 := by
    simp only [GROUP.QSTATUS]
    omega
  have joined := gr_onGr_same (s := s.touch .host) (f := fun x => { x with
      fresh := x.fresh ++ [{ words := (List.range 8).map fun i => s.lv pgGroup (GROUP.SEG_W g i) }] }) (n := g) ((present whole).groups.symm ▸ low)
  have ok : MapOk ((s.touch .host).onGr g fun x => { x with
      fresh := x.fresh ++ [{ words := (List.range 8).map fun i => s.lv pgGroup (GROUP.SEG_W g i) }] }).regs := whole.regs
  rw [taken]
  exact ⟨joined, OneReg.of_regs (oneReg_onLv ok offset) rfl,
    State.qstatus_only (State.onGr_only (touchHost_only (Only.refl _ _) rfl) rfl) rfl⟩

/-- A segment that is refused (R184). -/
theorem push_refuses {g : Fin 4} {e : Nat} (whole : Whole s) (up : s.up = true) (bad : s.pushFail g.val = some e) (low : e < 256) :
    Refuses (.push g) .host s fun t => Flagged t pgGroup (4 * g.val + 2) ∧ fld (t.lv pgGroup (GROUP.QSTATUS g.val)) 31 24 = e := by
  have bad' : (s.touch .host).pushFail g.val = some e := bad
  have run : exec (.push g) s = .next ((((s.touch .host).refuseBy .host e 0 (regAddr pgGroup (GROUP.PUSH g.val))).event pgGroup
      (2 ^ (4 * g.val + 2))).qstatus g.val e) := by
    refine (if_pos up).trans ?_
    simp only [State.pushBy, bad']
  have ok : MapOk ((s.touch .host).refuseBy .host e 0 (regAddr pgGroup (GROUP.PUSH g.val))).regs := refuseBy_ok (touch_regs (m := .host) ▸ whole.regs)
  have after : Only [.regs, .trace, .log] ((s.touch .host).refuseBy .host e 0 (regAddr pgGroup (GROUP.PUSH g.val)))
      ((((s.touch .host).refuseBy .host e 0 (regAddr pgGroup (GROUP.PUSH g.val))).event pgGroup (2 ^ (4 * g.val + 2))).qstatus g.val e) :=
    State.qstatus_only (State.event_only (Only.refl _ _) rfl) rfl
  have offset : GROUP.QSTATUS g.val < 4096 := by
    simp only [GROUP.QSTATUS]
    omega
  have quiet : GROUP.QSTATUS g.val ≠ pageEvent := by
    simp only [GROUP.QSTATUS, pageEvent]
    omega
  have page : regAddr pgSys SYS.REFUSED_COUNT ≠ regAddr pgGroup (GROUP.QSTATUS g.val) :=
    fun eq => absurd ((regAddr_inj offset (by decide)).mp eq).1 (by decide)
  refine refuses_after whole.regs run after ?_ ?_ ⟨?_, ?_⟩
  all_goals generalize (s.touch .host).refuseBy .host e 0 (regAddr pgGroup (GROUP.PUSH g.val)) = u at *
  · exact fun w h => ((h.event (by decide)).setLv_ne page).2
  · exact (Up.refl ok).event.setLv (by rw [regAddr_mod offset]; exact quiet)
  · obtain ⟨up, flagged⟩ := event_flags (s := u) (p := pgGroup) (bits := 2 ^ (4 * g.val + 2)) (i := 4 * g.val + 2) ok
      (nw_twoPow (by omega))
    exact flagged_setLv flagged up.ok offset quiet
  · rw [State.qstatus, State.onLv, State.lv_setLv_same ((Up.refl ok).event (p := pgGroup) (bits := 2 ^ (4 * g.val + 2))).ok]
    exact fld_putFld_same (by decide) (by decide) low

theorem pushFail_low {g e : Nat} (bad : s.pushFail g = some e) : e < 256 := by
  unfold State.pushFail at bad
  extract_lets c n x sg tol arc at bad
  split_ifs at bad <;> cases bad <;> decide

theorem runs_iff {x : AxState} : x.runs = true ↔ x = .run ∨ x = .degraded := by
  cases x <;> decide

end

/-- Settles O38. -/
theorem motionCommands : Obligations.MotionCommands := by
  unfold Obligations.MotionCommands
  refine ⟨fun axis s c code whole up => ?axis, fun g s whole up => ⟨fun good => ?push, fun e bad => ?refused, ?flush⟩⟩
  case axis =>
    intro a m src run ratio may is reports
    have row (h : is) : MotionCommand s c a code may := by
      rcases h with ⟨rfl, rfl⟩ | ⟨rfl, rfl⟩ | ⟨rfl, rfl⟩ | ⟨rfl, rfl⟩ | ⟨rfl, rfl⟩ | ⟨rfl, rfl⟩ | ⟨rfl, rfl⟩ | ⟨rfl, rfl⟩
      · obtain ⟨takes, refuses⟩ := motFail_state (s := s) (a := a) (code := 1) (may := may) (ok := src == 1 && (s.ax a).state.runs && !m.moving)
          (by simp [may, run, runs_iff, and_assoc]) rfl
        exact ⟨by decide, rfl, takes, refuses⟩
      · obtain ⟨takes, refuses⟩ := motFail_state (s := s) (a := a) (code := 2) (may := may) (ok := src == 1 && (s.ax a).state.runs && !m.moving)
          (by simp [may, run, runs_iff, and_assoc]) rfl
        exact ⟨by decide, rfl, takes, refuses⟩
      · obtain ⟨takes, refuses⟩ := motFail_state (s := s) (a := a) (code := 3) (may := may)
          (ok := src == 1 && (s.ax a).state.runs && (m.active == .idle || m.active == .jog)) (by simp [may, run, runs_iff, and_assoc]) rfl
        exact ⟨by decide, rfl, takes, refuses⟩
      · obtain ⟨takes, refuses⟩ := motFail_state (s := s) (a := a) (code := 4) (may := may) (ok := (src == 1 || src == 2) && (s.ax a).state.runs)
          (by simp [may, run, runs_iff]) rfl
        exact ⟨by decide, rfl, takes, refuses⟩
      · obtain ⟨takes, refuses⟩ := motFail_ratio (s := s) (a := a) (code := 5) (may := may) (ok := src == 2 && (s.ax a).state.runs && !m.engaged)
          (by simp [may, run, ratio, runs_iff, and_assoc]) rfl
        exact ⟨by decide, rfl, takes, refuses⟩
      · obtain ⟨takes, refuses⟩ := motFail_ratio (s := s) (a := a) (code := 6) (may := may) (ok := src == 2 && (s.ax a).state.runs)
          (by simp [may, run, ratio, runs_iff, and_assoc]) rfl
        exact ⟨by decide, rfl, takes, refuses⟩
      · obtain ⟨takes, refuses⟩ := motFail_state (s := s) (a := a) (code := 7) (may := may) (ok := src == 2 && m.engaged) (by simp [may]) rfl
        exact ⟨by decide, rfl, takes, refuses⟩
      · obtain ⟨takes, refuses⟩ := motFail_state (s := s) (a := a) (code := 8) (may := may) (ok := src == 2 && m.armed) (by simp [may]) rfl
        exact ⟨by decide, rfl, takes, refuses⟩
    have listed (h : may) : is := by
      rcases h with ⟨⟨h, h'⟩ | ⟨h, h'⟩, -⟩ | ⟨h, h', -⟩ | ⟨h, h', -⟩ | ⟨h, h', -⟩ | ⟨h, h', -⟩ | ⟨h, h', -⟩ | ⟨h, h', -⟩ <;> simp [is, h, h']
    refine ⟨fun can free idle => hostMot_takes (row (listed can)) whole axis.isLt up can free idle, fun h locked => ?_, fun h free waits => ?_,
      fun h not_ free idle => ?_⟩
    · exact hostMot_refuses (row h) whole up axis.isLt (if_pos locked)
    · exact hostMot_refuses (row h) whole up axis.isLt ((if_neg (by simp [a, free])).trans (if_pos waits))
    · have bad (e : Nat) (fails : s.motFail a code = some e) : Refuses c .host s (reports e) :=
        hostMot_refuses (row h) whole up axis.isLt ((if_neg (by simp [a, free])).trans ((if_neg (by simp [m, a, idle])).trans fails))
      rcases (row h).refuses not_ with state | ⟨range, none_⟩
      · obtain ⟨t, ran, ⟨count, flagged, marked, busy, told⟩, parts⟩ := bad _ state
        exact ⟨t, ran, ⟨count, flagged, marked, busy, Or.inl told⟩, parts⟩
      · obtain ⟨t, ran, ⟨count, flagged, marked, busy, told⟩, parts⟩ := bad _ range
        exact ⟨t, ran, ⟨count, flagged, marked, busy, Or.inr ⟨told, not_not.mpr none_⟩⟩, parts⟩
  case push =>
    obtain ⟨joined, told, parts⟩ := push_takes whole g.isLt good
    exact ⟨_, if_pos up, ⟨joined, told⟩, parts⟩
  case refused => exact push_refuses whole up bad (pushFail_low bad)
  case flush =>
    exact ⟨_, if_pos up, gr_onGr_same (s := s.touch .host) ((present whole).groups.symm ▸ g.isLt),
      State.onGr_only (touchHost_only (Only.refl _ _) rfl) rfl⟩

end Sys2Proof.Machine
end


section

/-! PROOF. Step outputs, compare units and latches (R181, R187 to R190). -/

namespace Sys2Proof.Machine

open Sys2Proof.Safety Sys2Proof.Claims

section

variable {s t : State} {a u k : Nat} {v : Word}

/-! What the units read. -/

theorem axFb_of_cfg (cfg : t.cfg = s.cfg) : axFb t.force a = axFb s.force a := by
  have motCfg_ : motCfg t.force a = motCfg s.force a := force_staged cfg (by decide)
  rw [axFb, motCfg_, force_staged cfg (by decide)]
  rfl

/-- Nothing that POS_ACT is read from has changed. -/
theorem actNow_only {fs : List Part} (h : Only fs s t) (axes : .axes ∉ fs) (cfg : .cfg ∉ fs) (fbs : .fbs ∉ fs) (mots : .mots ∉ fs) :
    t.actNow a = s.actNow a := by
  rw [State.actNow, axFb_of_cfg (h .cfg cfg), axPos_only h axes cfg fbs mots]
  simp only [State.scaleAct, ax_only h axes, fb_only h fbs, cf_only h cfg]
  rfl

theorem axFbValid_only {fs : List Part} (h : Only fs s t) (axes : .axes ∉ fs) (cfg : .cfg ∉ fs) (fbs : .fbs ∉ fs) : t.axFbValid a = s.axFbValid a := by
  rw [State.axFbValid, axFb_of_cfg (h .cfg cfg)]
  simp only [ax_only h axes, fb_only h fbs]
  rfl

/-! The bits of CMP_CTRL. -/

theorem bt_and {w : Word} {i : Nat} : bt (v &&& w) i = (bt v i && bt w i) := by simp [bt]

theorem fld_mask : fld (v &&& 0x00110310) 9 8 = fld v 9 8 := by
  refine Nat.eq_of_testBit_eq fun i => ?_
  simp only [testBit_fld]
  by_cases low : i ≤ 1
  · have set : bt (0x00110310 : Word) (8 + i) = true := by
      interval_cases i <;> decide
    rw [bt_and, set, Bool.and_true]
  · simp [low]

end

/-! Compare units. -/

section

variable {s t : State} {a u n tick : Nat} {pos : Int} {valid : Bool} {v : Word}

/-- A unit is armed on the side on which it stands. -/
def State.cmpArmed (s : State) (a u : Nat) (pos : Int) : State :=
  s.onCm (2 * a + u) fun x => { x with armed := true, side := sgn (pos - s.cmpPos a u), missed := false }

theorem cmpArm_waits (ahead : cmpPassed (fld (s.cmpCtrl a u) 9 8) pos (s.cmpPos a u) = false) :
    s.cmpArm (n + 1) a u tick pos valid = s.cmpArmed a u pos := if_neg (by simp [ahead])

theorem cmpArm_skips (passed : cmpPassed (fld (s.cmpCtrl a u) 9 8) pos (s.cmpPos a u) = true) (ok : valid = true) (skips : bt (s.cmpCtrl a u) 20 = false) :
    s.cmpArm (n + 1) a u tick pos valid = (((s.cmpArmed a u pos).onCm (2 * a + u) fun x => { x with armed := false }).onLv (pgMot a)
      (MOT.CMP_STATUS u) (· ||| 4)).event (pgMot a) (2 ^ (3 + u)) :=
  (if_pos passed).trans ((if_neg (by simp [ok])).trans (if_neg (by simp [skips])))

theorem cmpArm_fires (passed : cmpPassed (fld (s.cmpCtrl a u) 9 8) pos (s.cmpPos a u) = true) (ok : valid = true) (fires : bt (s.cmpCtrl a u) 20 = true)
    (once : bt (s.cmpCtrl a u) 4 = false) : s.cmpArm (n + 1) a u tick pos valid = (s.cmpArmed a u pos).cmpFire a u tick :=
  (if_pos passed).trans ((if_neg (by simp [ok])).trans ((if_pos fires).trans (if_neg (by simp [once]))))

/-- The write of CMP_CTRL that arms (R188). -/
def State.cmpSet (s : State) (a u : Nat) (v : Word) : State :=
  (s.setLv (pgMot a) (MOT.CMP_CTRL u) (v &&& 0x00110310)).onLv (pgMot a) (MOT.CMP_STATUS u) (· &&& 0xFFFF0000)

theorem cmpSet_only : Only [.regs] s (s.cmpSet a u v) := State.onLv_only (State.setLv_only (Only.refl _ _) rfl) rfl

/-- A register of a compare unit is no other unit's, and no register of events. -/
theorem cmpSet_leaves (ok : MapOk s.regs) (low : u < 2) : MapOk (s.cmpSet a u v).regs ∧ (s.cmpSet a u v).cmpCtrl a u = v &&& 0x00110310 ∧
    (s.cmpSet a u v).lv (pgMot a) (MOT.CMP_STATUS u) = s.lv (pgMot a) (MOT.CMP_STATUS u) &&& 0xFFFF0000 ∧
    (s.cmpSet a u v).cmpPos a u = s.cmpPos a u := by
  have ne (o r : Nat) (ho : o < 4096) (hr : r < 4096) (n : o ≠ r) : regAddr (pgMot a) o ≠ regAddr (pgMot a) r :=
    fun e => n ((regAddr_inj hr ho).mp e).2
  have ok' : MapOk (s.setLv (pgMot a) (MOT.CMP_CTRL u) (v &&& 0x00110310)).regs := MapOk.set ok
  have stays (o : Nat) (ho : o < 4096) (ctrl : o ≠ MOT.CMP_CTRL u) (status : o ≠ MOT.CMP_STATUS u) :
      (s.cmpSet a u v).lv (pgMot a) o = s.lv (pgMot a) o := by
    rw [State.cmpSet, State.onLv, State.lv_setLv_ne ok' (ne _ _ ho (by simp only [MOT.CMP_STATUS]; omega) status),
      State.lv_setLv_ne ok (ne _ _ ho (by simp only [MOT.CMP_CTRL]; omega) ctrl)]
  have apart : regAddr (pgMot a) (MOT.CMP_CTRL u) ≠ regAddr (pgMot a) (MOT.CMP_STATUS u) :=
    ne _ _ (by simp only [MOT.CMP_CTRL]; omega) (by simp only [MOT.CMP_STATUS]; omega) (by simp only [MOT.CMP_CTRL, MOT.CMP_STATUS]; omega)
  refine ⟨MapOk.set ok', ?_, ?_, ?_⟩
  · rw [State.cmpCtrl, State.cmpSet, State.onLv, State.lv_setLv_ne ok' apart, State.lv_setLv_same ok]
  · rw [State.cmpSet, State.onLv, State.lv_setLv_same ok', State.lv_setLv_ne ok apart.symm]
  · rw [State.cmpPos, State.cmpPos, stays, stays]
    all_goals simp only [MOT.CMP_POS_HI, MOT.CMP_POS_LO, MOT.CMP_CTRL, MOT.CMP_STATUS]; omega

theorem compareArm_runs {axis : AxisIx} {unit : Fin 2} (up : s.up = true) (arm : bt v 0 = true) {pos : Int} {valid : Bool}
    (at_ : pos = if bt v 16 then s.actNow axis.val else (s.mt axis.val).p0) (ok : valid = (!bt v 16 || s.axFbValid axis.val)) :
    ∃ n, exec (.compareArm axis unit v) s = .next ((s.cmpSet axis.val unit.val v).cmpArm (n + 1) axis.val unit.val s.now pos valid) := by
  have parts : Only [.regs] s (s.setLv (pgMot axis.val) (MOT.CMP_CTRL unit.val) (v &&& 0x00110310)) := State.setLv_only (Only.refl _ _) rfl
  have parts' : Only [.regs] s (s.cmpSet axis.val unit.val v) := cmpSet_only
  have here : (if bt v 16 then (s.setLv (pgMot axis.val) (MOT.CMP_CTRL unit.val) (v &&& 0x00110310)).actNow axis.val else
      ((s.setLv (pgMot axis.val) (MOT.CMP_CTRL unit.val) (v &&& 0x00110310)).mt axis.val).p0) = pos := by
    rw [at_, actNow_only parts (by decide) (by decide) (by decide) (by decide), mt_only parts (by decide)]
  have ready : (!bt v 16 || (s.cmpSet axis.val unit.val v).axFbValid axis.val) = valid := by
    rw [ok, axFbValid_only parts' (by decide) (by decide) (by decide)]
  refine ⟨cmpFuel pos ((s.cmpSet axis.val unit.val v).cmpPos axis.val unit.val) - 1, ?_⟩
  show execCompareArm axis unit v s = _
  have fuel (p t : Int) : cmpFuel p t - 1 + 1 = cmpFuel p t := by
    unfold cmpFuel
    omega
  rw [execCompareArm, if_neg (by simp [up])]
  extract_lets a u set actual where_ marked
  have where' : where_ = pos := here
  have marked' : marked = s.cmpSet axis.val unit.val v := rfl
  rw [if_pos arm, fuel, where', marked', ready]
  rfl

theorem cm_only {fs : List Part} {i : Nat} (h : Only fs s t) (out : .cmps ∉ fs) : t.cm i = s.cm i := by
  rw [State.cm, h .cmps out]
  rfl

/-- What a unit that fires leaves (R187, R189). -/
theorem cmpFire_leaves (ok : MapOk s.regs) (present : 2 * a + u < s.cmps.length) (low : u < 2) :
    ((s.cmpFire a u tick).cm (2 * a + u)).armed = false ∧ Flagged (s.cmpFire a u tick) (pgMot a) (1 + u) ∧
      (s.cmpFire a u tick).lv (pgMot a) (MOT.CMP_TICK_LO u) = loW tick := by
  unfold State.cmpFire
  extract_lets p off status stamped o pulsed
  have off_ : (off.cm (2 * a + u)).armed = false := congrArg CmpSt.armed (cm_onCm_same present)
  have length : 2 * a + u < off.cmps.length := by
    show 2 * a + u < (s.cmps.modify _ _).length
    rw [List.length_modify]
    exact present
  have okOff : MapOk off.regs := ok
  clear_value off
  have okStatus : MapOk status.regs := MapOk.set okOff
  have cmps : Only [.regs, .trace] off stamped := State.event_only (State.setPair_only (State.onLv_only (Only.refl _ _) rfl) rfl) rfl
  clear_value status
  obtain ⟨lowWord, highWord⟩ := reads_setPair (p := p) (o := MOT.CMP_TICK_LO u) (x := tick) okStatus
  have aside : Aside p (MOT.CMP_TICK_LO u) := by
    simp only [Aside, regAddr, p, pgMot, pgTrace, pgNvlog, MOT.CMP_TICK_LO, pageEvent, TRACE.TRIG_IGNORED, NVLOG.LOST]
    omega
  have word := lowWord.event (q := p) (bits := 2 ^ (1 + u)) aside
  obtain ⟨up, flagged⟩ := event_flags (p := p) (bits := 2 ^ (1 + u)) (i := 1 + u) highWord.1 (nw_twoPow (by omega))
  have armed : (stamped.cm (2 * a + u)).armed = false := by
    rw [cm_only cmps (by decide)]
    exact off_
  change Reads p (MOT.CMP_TICK_LO u) (loW tick) stamped at word
  change Flagged stamped p (1 + u) at flagged
  clear_value stamped
  have pulses : Only [.cmps, .timers] stamped pulsed := only_ite (State.startT_only (State.onCm_only (Only.refl _ _) rfl) rfl) (Only.refl _ _)
  have armed' : (pulsed.cm (2 * a + u)).armed = false := by
    show ((if bt o 4 then (stamped.onCm (2 * a + u) fun x => { x with pulse := some tick }).startT (.cmpPulse a u) (tick + usT (fld o 31 16))
      else stamped).cm (2 * a + u)).armed = false
    split
    · exact getD_modify_keeps (P := fun x : CmpSt => x.armed = false) (fun _ h => h) armed
    · exact armed
  have last : Only [.latches] pulsed (pulsed.latchEvent 3 (fun i => i / 16 == a && i % 2 == u) tick) := State.latchEvent_only (Only.refl _ _) rfl
  refine ⟨?_, flagged_of_regs flagged ((last .regs (by decide)).trans (pulses .regs (by decide))), ?_⟩
  · rw [cm_only last (by decide)]
    exact armed'
  · rw [lv_only last (by decide), lv_only pulses (by decide)]
    exact word.2

end

section

variable {s : State} {a u : Nat}

/-- What a unit whose target is already behind leaves without FIRE_PASSED (R188). -/
theorem cmpSkip_leaves (ok : MapOk s.regs) (present : 2 * a + u < s.cmps.length) (low : u < 2) :
    let t := ((s.onCm (2 * a + u) fun x => { x with armed := false }).onLv (pgMot a) (MOT.CMP_STATUS u) (· ||| 4)).event (pgMot a) (2 ^ (3 + u))
    (t.cm (2 * a + u)).armed = false ∧ bt (t.lv (pgMot a) (MOT.CMP_STATUS u)) 2 = true ∧ Flagged t (pgMot a) (3 + u) ∧
      Only [.regs, .cmps, .trace] s t := by
  have off : ((s.onCm (2 * a + u) fun x => { x with armed := false }).cm (2 * a + u)).armed = false := congrArg CmpSt.armed (cm_onCm_same present)
  have okOff : MapOk (s.onCm (2 * a + u) fun x => { x with armed := false }).regs := ok
  have offs : Only [.cmps] s (s.onCm (2 * a + u) fun x => { x with armed := false }) := State.onCm_only (Only.refl _ _) rfl
  generalize s.onCm (2 * a + u) (fun x => { x with armed := false }) = x at *
  have word : Reads (pgMot a) (MOT.CMP_STATUS u) (x.lv (pgMot a) (MOT.CMP_STATUS u) ||| 4) (x.onLv (pgMot a) (MOT.CMP_STATUS u) (· ||| 4)) :=
    reads_setLv okOff
  have aside : Aside (pgMot a) (MOT.CMP_STATUS u) := by
    simp only [Aside, regAddr, pgMot, pgTrace, pgNvlog, MOT.CMP_STATUS, pageEvent, TRACE.TRIG_IGNORED, NVLOG.LOST]
    omega
  intro t
  have after : Only [.regs, .trace] x t := State.event_only (State.onLv_only (Only.refl _ _) rfl) rfl
  refine ⟨?_, ?_, (event_flags word.1 (nw_twoPow (by omega))).2, Only.upd (Only.upd (Only.refl _ _) rfl offs) rfl after⟩
  · rw [cm_only after (by decide)]
    exact off
  · rw [(word.event aside).2, bt_or, show bt (4 : Word) 2 = true from by decide, Bool.or_true]

end

/-! Latches. -/

section

variable {s t : State} {a u : Nat} {v : Word}

/-- What a write of LATCH_CTRL that arms leaves (R190). -/
theorem latchArm_leaves (whole : Whole s) (la : a < 16) (low : u < 2) :
    let t := ((s.setLv (pgMot a) (MOT.LATCH_CTRL u) (v &&& 2)).onLa (2 * a + u) fun x => { x with armed := true, waiting := [] }).onLv (pgMot a)
      (MOT.LATCH_STATUS u) fun w => w &&& 0xFFFF0000
    t.la (2 * a + u) = { s.la (2 * a + u) with armed := true, waiting := [] } ∧ t.lv (pgMot a) (MOT.LATCH_CTRL u) = v &&& 2 ∧
      t.lv (pgMot a) (MOT.LATCH_STATUS u) = s.lv (pgMot a) (MOT.LATCH_STATUS u) &&& 0xFFFF0000 ∧ Only [.regs, .latches] s t := by
  intro t
  have apart : regAddr (pgMot a) (MOT.LATCH_CTRL u) ≠ regAddr (pgMot a) (MOT.LATCH_STATUS u) := by
    simp only [regAddr, MOT.LATCH_CTRL, MOT.LATCH_STATUS]
    omega
  have armed := la_onLa_same (s := s.setLv (pgMot a) (MOT.LATCH_CTRL u) (v &&& 2)) (n := 2 * a + u) (f := fun x => { x with
    armed := true, waiting := [] }) (by
      show 2 * a + u < s.latches.length
      rw [(present whole).latches]
      omega)
  have set : Reads (pgMot a) (MOT.LATCH_CTRL u) (v &&& 2) ((s.setLv (pgMot a) (MOT.LATCH_CTRL u) (v &&& 2)).onLa (2 * a + u) fun x => { x with
    armed := true, waiting := [] }) := reads_setLv (s := s) whole.regs
  have status : ((s.setLv (pgMot a) (MOT.LATCH_CTRL u) (v &&& 2)).onLa (2 * a + u) fun x => { x with armed := true, waiting := [] }).lv (pgMot a)
      (MOT.LATCH_STATUS u) = s.lv (pgMot a) (MOT.LATCH_STATUS u) := State.lv_setLv_ne (s := s) whole.regs apart.symm
  refine ⟨armed, (set.setLv_ne apart).2, ?_, State.onLv_only (State.onLa_only (State.setLv_only (Only.refl _ _) rfl) rfl) rfl⟩
  exact (State.lv_setLv_same set.1).trans (congrArg (· &&& 0xFFFF0000) status)

end

/-- Settles O39. -/
theorem stepCompareLatch : Obligations.StepCompareLatch := by
  unfold Obligations.StepCompareLatch
  intro axis unit s whole a m k p
  refine ⟨fun t0 dir rest up pulses => ⟨fun turns => ?turn, fun goes => ?step⟩, fun v up => ?arm, fun d due => ?pulseEnd⟩
  case turn =>
    have run : exec (.stepPulse axis) s = .next ((s.reach (t0 - fld (s.cf p MOT.STEP_TIMING) 15 0)).onMt a fun m => { m with stepDirUp := dir }) := by
      show execStepPulse axis s = _
      unfold execStepPulse
      simp only [show (s.mt axis.val).pulses = (t0, dir) :: rest from pulses, up]
      exact if_pos turns
    exact ⟨_, run, ⟨mt_onMt_same (s := s.reach _) ((present whole).mots.symm ▸ axis.isLt), rfl⟩, State.onMt_only (State.reach_only (Only.refl _ _) rfl) rfl⟩
  case step =>
    have run : exec (.stepPulse axis) s = .next (
        let u := (s.reach t0).onMt a fun m => { m with
          pulses := rest, carried := m.carried - 1, lastPulse := t0, stepPos := if dir then m.stepPos + 1 else m.stepPos - 1 }
        if (axFb u.force a).isNone then u.cmpActual a t0 (s.actNow a) (u.actNow a) else u) := by
      show execStepPulse axis s = _
      unfold execStepPulse
      simp only [show (s.mt axis.val).pulses = (t0, dir) :: rest from pulses, up]
      exact if_neg (not_not.mpr goes)
    have stepped := mt_onMt_same (s := s.reach t0) (n := a) (f := fun m => { m with
      pulses := rest, carried := m.carried - 1, lastPulse := t0, stepPos := if dir then m.stepPos + 1 else m.stepPos - 1 })
      ((present whole).mots.symm ▸ axis.isLt)
    have time : ((s.reach t0).onMt a fun m => { m with
      pulses := rest, carried := m.carried - 1, lastPulse := t0, stepPos := if dir then m.stepPos + 1 else m.stepPos - 1 }).time =
      { s.time with tick := max s.time.tick t0 } := rfl
    have parts : Only [.time, .mots] s ((s.reach t0).onMt a fun m => { m with
      pulses := rest, carried := m.carried - 1, lastPulse := t0, stepPos := if dir then m.stepPos + 1 else m.stepPos - 1 }) :=
      State.onMt_only (State.reach_only (Only.refl _ _) rfl) rfl
    generalize (s.reach t0).onMt a (fun m => { m with
      pulses := rest, carried := m.carried - 1, lastPulse := t0, stepPos := if dir then m.stepPos + 1 else m.stepPos - 1 }) = u at *
    have last : Only [.regs, .cmps, .latches, .trace, .timers] u (if (axFb u.force a).isNone then u.cmpActual a t0 (s.actNow a) (u.actNow a) else u) :=
      only_ite (State.cmpActual_only (Only.refl _ _) rfl) (Only.refl _ _)
    refine ⟨_, run, ⟨(last .time (by decide)).trans time, ?_⟩, Only.upd (Only.upd (Only.refl _ _) rfl parts) rfl last⟩
    rw [mt_only last (by decide)]
    exact stepped
  case arm =>
    intro pos target valid
    have low : unit.val < 2 := unit.isLt
    have present_ : k < s.cmps.length := by
      rw [(present whole).cmps]
      show 2 * axis.val + unit.val < 32
      omega
    obtain ⟨ok, ctrl, status, at_⟩ := cmpSet_leaves (a := a) (v := v) whole.regs low
    have parts : Only [.regs] s (s.cmpSet a unit.val v) := cmpSet_only
    have runs (arm : bt v 0 = true) := compareArm_runs (axis := axis) (unit := unit) up arm (pos := pos) (valid := !bt v 16 || s.axFbValid a) rfl rfl
    have dir : fld ((s.cmpSet a unit.val v).cmpCtrl a unit.val) 9 8 = fld v 9 8 := by rw [ctrl, fld_mask]
    have bit (i : Nat) (set : bt (0x00110310 : Word) i = true) : bt ((s.cmpSet a unit.val v).cmpCtrl a unit.val) i = bt v i := by
      rw [ctrl, bt_and, set, Bool.and_true]
    have cms : (s.cmpSet a unit.val v).cmps = s.cmps := parts .cmps (by decide)
    have cm_ : (s.cmpSet a unit.val v).cm k = s.cm k := cm_only parts (by decide)
    have go (h : valid) : (!bt v 16 || s.axFbValid a) = true := by
      by_cases actual : bt v 16 = true
      · simp [h actual]
      · simp [actual]
    have armed : ((s.cmpSet a unit.val v).cmpArmed a unit.val pos).cm k = { s.cm k with armed := true, side := sgn (pos - target), missed := false } := by
      rw [State.cmpArmed, cm_onCm_same (by rw [cms]; exact present_), cm_, at_]
    have arms : Only [.cmps] (s.cmpSet a unit.val v) ((s.cmpSet a unit.val v).cmpArmed a unit.val pos) := State.onCm_only (Only.refl _ _) rfl
    have length : k < ((s.cmpSet a unit.val v).cmpArmed a unit.val pos).cmps.length := by
      rw [State.cmpArmed, State.onCm, List.length_modify, cms]
      exact present_
    refine ⟨fun off => ?disarm, fun on ahead => ?waits, fun on passed can skip => ?skips, fun on passed can fires once => ?fires, fun on => ?latch,
      fun off => ?unlatch⟩
    case disarm =>
      have run : exec (.compareArm axis unit v) s = .next ((s.setLv p (MOT.CMP_CTRL unit.val) (v &&& 0x00110310)).onCm k fun x => { x with
          armed := false, missed := false }) := by
        show execCompareArm axis unit v s = _
        rw [execCompareArm, if_neg (by simp [up])]
        exact if_neg (by simp [off])
      have written : OneReg s p (MOT.CMP_CTRL unit.val) (fun _ => v &&& 0x00110310) (s.setLv p (MOT.CMP_CTRL unit.val) (v &&& 0x00110310)) :=
        oneReg_setLv whole.regs (by simp only [MOT.CMP_CTRL]; omega)
      exact ⟨_, run, ⟨OneReg.to_regs written rfl, cm_onCm_same (s := s.setLv _ _ _) present_⟩,
        State.onCm_only (State.setLv_only (Only.refl _ _) rfl) rfl⟩
    case waits =>
      obtain ⟨n, run⟩ := runs on
      rw [cmpArm_waits (by rw [dir, at_]; exact ahead)] at run
      refine ⟨_, run, ⟨armed, ?_, ?_⟩, Only.upd (Only.upd (Only.refl _ _) rfl parts) rfl arms⟩
      · rw [lv_only arms (by decide)]
        exact ctrl
      · rw [lv_only arms (by decide)]
        exact status
    case skips =>
      obtain ⟨n, run⟩ := runs on
      rw [cmpArm_skips (by rw [dir, at_]; exact passed) (go can) (by rw [bit 20 (by decide)]; exact skip)] at run
      have okArmed : MapOk ((s.cmpSet a unit.val v).cmpArmed a unit.val pos).regs := ok
      generalize (s.cmpSet a unit.val v).cmpArmed a unit.val pos = x at *
      obtain ⟨off, missed, flagged, rest⟩ := cmpSkip_leaves (a := a) okArmed length low
      exact ⟨_, run, ⟨off, missed, flagged⟩, Only.upd (Only.upd (Only.upd (Only.refl _ _) rfl parts) rfl arms) rfl rest⟩
    case fires =>
      obtain ⟨n, run⟩ := runs on
      rw [cmpArm_fires (by rw [dir, at_]; exact passed) (go can) (by rw [bit 20 (by decide)]; exact fires) (by rw [bit 4 (by decide)]; exact once)] at run
      have okArmed : MapOk ((s.cmpSet a unit.val v).cmpArmed a unit.val pos).regs := ok
      generalize (s.cmpSet a unit.val v).cmpArmed a unit.val pos = x at *
      obtain ⟨off, flagged, tick⟩ := cmpFire_leaves (a := a) (tick := s.now) okArmed length low
      exact ⟨_, run, ⟨off, flagged, tick⟩, State.cmpFire_only (Only.upd (Only.upd (Only.refl _ _) rfl parts) rfl arms) rfl⟩
    case latch =>
      obtain ⟨armed, ctrl, status, parts⟩ := latchArm_leaves (v := v) whole axis.isLt low
      have run : exec (.latchArm axis unit v) s = _ := (if_neg (by simp [up])).trans (if_pos on)
      exact ⟨_, run, ⟨armed, ctrl, status⟩, parts⟩
    case unlatch =>
      have run : exec (.latchArm axis unit v) s = .next ((s.setLv p (MOT.LATCH_CTRL unit.val) (v &&& 2)).onLa k fun x => { x with armed := false }) :=
        (if_neg (by simp [up])).trans (if_neg (by simp [off]))
      have written : OneReg s p (MOT.LATCH_CTRL unit.val) (fun _ => v &&& 2) (s.setLv p (MOT.LATCH_CTRL unit.val) (v &&& 2)) :=
        oneReg_setLv whole.regs (by simp only [MOT.LATCH_CTRL]; omega)
      refine ⟨_, run, ⟨la_onLa_same (s := s.setLv _ _ _) ?_, OneReg.to_regs written rfl⟩, State.onLa_only (State.setLv_only (Only.refl _ _) rfl) rfl⟩
      show k < s.latches.length
      rw [(present whole).latches]
      omega
  case pulseEnd =>
    have run : exec (.comparePulseEnd axis unit) s = .next (((s.reach d).stopT (.cmpPulse a unit.val)).onCm k fun x => { x with pulse := none }) := by
      show execComparePulseEnd axis unit s = _
      rw [execComparePulseEnd, State.expire_due due]
    refine ⟨_, run, ⟨rfl, State.due_stopT_same, cm_onCm_same (s := (s.reach d).stopT _) ?_⟩, State.onCm_only (State.stopT_only (State.reach_only (Only.refl _ _) rfl) rfl) rfl⟩
    show k < s.cmps.length
    rw [(present whole).cmps]
    show 2 * axis.val + unit.val < 32
    omega

end Sys2Proof.Machine
end


section

/-! PROOF. Faults of the feedback interfaces (R164): what one counts, and what it leaves of the interface. -/

namespace Sys2Proof.Machine

open Sys2Proof.Safety Sys2Proof.Claims

section

variable {s t : State} {n m bit : Nat} {P : FbSt → Prop}

/-- P outlives a fault of the interface: its causes, its retry, its retirement. -/
structure OutlivesFault (P : FbSt → Prop) : Prop where
  cause : ∀ x c l g w r, P x → P { x with cause := c, lastFault := l, goodRun := g, goodWord := w, referenced := r }
  retry : ∀ x, P x → P { x with state := .retry, valid := false }
  retired : ∀ x, P x → P { x with state := .retired, valid := false, acq := none }

theorem onFb_keeps {f : FbSt → FbSt} (k : ∀ x, P x → P (f x)) (h : P (s.fb m)) : P ((s.onFb n f).fb m) := getD_modify_keeps k h

theorem onset_fb (out : OutlivesFault P) (h : P (s.fb m)) : P ((s.onset 1 n).fb m) := by
  unfold State.onset State.onsetWith
  split
  · exact h
  · extract_lets ons counted till
    have counted_ : P (counted.fb m) := h
    split
    · unfold State.retire
      split
      · exact counted_
      · extract_lets noted logged void
        have void_ : P (void.fb m) := by
          rw [fb_only (State.voidProof_only (State.logAdd_only (State.onChan_only (Only.refl [.chans, .regs, .trace, .log, .stage] counted) rfl) rfl) rfl)
            (by decide)]
          exact counted_
        show P (((void.onFb n fun x => { x with state := .retired, valid := false, acq := none }).startReproof).fb m)
        rw [fb_only (State.startReproof_only (Only.refl [.stage] _) rfl) (by decide)]
        exact onFb_keeps out.retired void_
    · exact onFb_keeps (s := counted.onChan 1 n _) out.retry counted_

/-- The fault shows, and its causes are noted. -/
def State.fbMarked (s : State) (n bit : Nat) : State :=
  let s := s.pfault (pgFb n) (2 ^ bit)
  s.onFb n fun x => { x with
    cause := x.cause ||| BitVec.ofNat 8 (2 ^ bit), lastFault := s.now, goodRun := 0, goodWord := none
    referenced := x.referenced && !(decide (bit < 2) && fbIncr s.force n) }

theorem fbFault_eq : s.fbFault n bit = if ((s.fbMarked n bit).fb n).state = .running then
    (((s.fbMarked n bit).inc16 (pgFb n) FB.FAULT_COUNT).event (pgFb n) 4).onset 1 n else s.fbMarked n bit := rfl

theorem fbMarked_only : Only [.regs, .fbs] s (s.fbMarked n bit) := State.onFb_only (State.pfault_only (Only.refl _ _) rfl) rfl

theorem fbMarked_keeps (out : OutlivesFault P) (h : P (s.fb m)) : P ((s.fbMarked n bit).fb m) :=
  onFb_keeps (s := s.pfault _ _) (fun x => out.cause x _ _ _ _ _) h

/-- What a fault leaves of the interfaces. -/
theorem fbFault_fb (out : OutlivesFault P) (h : P (s.fb m)) : P ((s.fbFault n bit).fb m) := by
  have marked : P ((s.fbMarked n bit).fb m) := fbMarked_keeps out h
  rw [fbFault_eq]
  generalize s.fbMarked n bit = u at *
  split
  · refine onset_fb out ?_
    rw [fb_only (State.event_only (State.inc16_only (Only.refl [.regs, .trace] u) rfl) rfl) (by decide)]
    exact marked
  · exact marked

theorem fbMarked_state (present : n < s.fbs.length) : ((s.fbMarked n bit).fb n).state = (s.fb n).state := by
  have marked : (s.fbMarked n bit).fb n = { s.fb n with
      cause := (s.fb n).cause ||| BitVec.ofNat 8 (2 ^ bit), lastFault := s.now, goodRun := 0, goodWord := none
      referenced := (s.fb n).referenced && !(decide (bit < 2) && fbIncr s.force n) } := fb_onFb_same (s := s.pfault _ _) present
  rw [marked]

theorem fbMarked_fault (ok : MapOk s.regs) (low : bit < 32) : Faulted (pgFb n) bit (s.fbMarked n bit) :=
  (pfault_sets ok (nw_twoPow low)).of_regs rfl

/-- A fault counts an onset where the interface was running (R164). -/
theorem fbFault_faults (whole : Whole s) (present_ : n < 8) (low : bit < 32) : FeedbackFault s n bit s.now (s.fbFault n bit) := by
  have marks : Only [.regs, .fbs] s (s.fbMarked n bit) := fbMarked_only
  have faulted : Faulted (pgFb n) bit (s.fbMarked n bit) := fbMarked_fault whole.regs low
  have state : ((s.fbMarked n bit).fb n).state = (s.fb n).state := fbMarked_state ((present whole).fbs.symm ▸ present_)
  rw [fbFault_eq]
  generalize s.fbMarked n bit = u at *
  have ok : MapOk (u.inc16 (pgFb n) FB.FAULT_COUNT).regs := MapOk.set faulted.1
  have counted : Faulted (pgFb n) bit (u.inc16 (pgFb n) FB.FAULT_COUNT) :=
    faulted.setLv_ne fun e => absurd ((regAddr_inj (by decide) (by decide)).mp e).2 (by decide)
  have parts : Only [.regs, .fbs, .trace] s ((u.inc16 (pgFb n) FB.FAULT_COUNT).event (pgFb n) 4) :=
    State.event_only (State.inc16_only (Only.upd (Only.refl _ _) rfl marks) rfl) rfl
  obtain ⟨up, flagged⟩ := event_flags (p := pgFb n) (bits := 4) (i := 2) ok (by decide)
  have faulted' := rising_faulted.event counted (p := pgFb n) (bits := 4)
  generalize (u.inc16 (pgFb n) FB.FAULT_COUNT).event (pgFb n) 4 = x at *
  have chans : x.chans = s.chans := parts .chans (by decide)
  refine ⟨?_, fun running inService => ?_⟩
  · split
    · exact (rising_faulted.onset faulted').2
    · exact faulted.2
  · rw [if_pos (state.trans running)]
    have counts := onset_counts (s := x) (cls := 1) (idx := n) (chans ▸ whole.chans) ((congrArg ChanSt.retired (chan_of_chans chans)).trans inService)
    rw [now_only parts (by decide)] at counts
    exact ⟨(rising_up.onset (Up.refl up.ok)).bits _ _ flagged, CountsOnset.of counts chans.symm (parts .cfg (by decide)).symm⟩

/-- A fault of the state after the deadline that it came at is one of the state before. -/
theorem FeedbackFault.of {u : State} {now : Nat} (h : FeedbackFault u n bit now t) (fbs : (u.fb n).state = (s.fb n).state) (chans : u.chans = s.chans)
    (cfg : u.cfg = s.cfg) : FeedbackFault s n bit now t := by
  refine ⟨h.1, fun running inService => ?_⟩
  obtain ⟨flagged, counts⟩ := h.2 (fbs.trans running) ((congrArg ChanSt.retired (chan_of_chans chans)).trans inService)
  exact ⟨flagged, CountsOnset.of counts chans.symm cfg.symm⟩

end

end Sys2Proof.Machine
end


section

/-! PROOF. Faults, loss and service of the feedback interfaces, position load and repeaters (R158, R161, R164 to R166, R169). -/

namespace Sys2Proof.Machine

open Sys2Proof.Safety Sys2Proof.Claims

section

variable {s t : State} {n a : Nat} {fb : FbIx}

/-! The line. -/

/-- The pairs that a mode receives differentially where they are not single-ended (R164). -/
def fbPairs (mode : Nat) : List Nat := match mode with
  | 0 => []
  | 4 => [8]
  | 6 | 7 => [9]
  | _ => [8, 9, 10]

theorem mem_fbPairs {mode i : Nat} (h : (mode = 4 ∧ i = 8) ∨ (6 ≤ mode ∧ mode ≤ 7 ∧ i = 9) ∨
    ((1 ≤ mode ∧ mode ≤ 3 ∨ mode = 5) ∧ 8 ≤ i ∧ i ≤ 10)) : i ∈ fbPairs mode := by
  rcases h with ⟨rfl, rfl⟩ | ⟨low, high, rfl⟩ | ⟨mode_, low, high⟩
  · decide
  · interval_cases mode <;> decide
  · have pairs : fbPairs mode = [8, 9, 10] := by
      rcases mode_ with ⟨one, three⟩ | rfl
      · interval_cases mode <;> rfl
      · rfl
    rw [pairs]
    interval_cases i <;> decide

/-- The line monitor has flagged a pair. -/
def State.fbCut (s : State) (n : Nat) : State := s.onFb n fun x => { x with lineOk := false }

theorem lineFault_runs (up : s.up = true) (monitored : bt (fbCfg s.force fb.val) 11 = true)
    (cut : ∃ i, bt (fbCfg s.force fb.val) i = false ∧ i ∈ fbPairs (fbMode s.force fb.val))
    (live : (s.fb fb.val).state = .running ∨ (s.fb fb.val).state = .retry) :
    exec (.fbLineFault fb) s = .next ((s.fbCut fb.val).fbFault fb.val 0) := by
  obtain ⟨i, off, mem⟩ := cut
  have any : (fbPairs (fbMode s.force fb.val)).any (fun i => !bt (fbCfg s.force fb.val) i) = true := List.any_eq_true.mpr ⟨i, mem, by simp [off]⟩
  refine if_pos ?_
  show (s.up && bt (fbCfg s.force fb.val) 11 && (fbPairs (fbMode s.force fb.val)).any (fun i => !bt (fbCfg s.force fb.val) i)
    && ((s.fb fb.val).state = .running || (s.fb fb.val).state = .retry)) = true
  rw [up, monitored, any]
  simpa using live

/-! Re-acquisition. -/

/-- The interface counts again, from a fresh history. -/
def State.fbAgain (s : State) (n : Nat) : State :=
  s.onFb n fun y => { y with
    m := 0, edges := [], hist := if fbAbs s.force n then y.hist else [], sSpeed := 0, vPrev := 0, methPrev := false, countMethod := false,
    goodRun := 0, goodWord := none }

/-- The time of a re-acquisition: 1 ms after a fault of the line or the sequence (Table 6-3). -/
def State.fbHeld (s : State) (n : Nat) : State := if (s.fb n).cause &&& 3 = 0 then s else s.reach ((s.fb n).lastFault + msT 1)

/-- The faults of the retry are gone. -/
def State.fbCleared (s : State) (n : Nat) : State := s.onFb n fun y => { y with lineOk := true, cause := 0, state := .running }

theorem hallFirst_other (other : fbMode s.force n ≠ 5) : s.hallFirst n = s := if_neg fun h => other h.1

theorem reacquire_runs (up : s.up = true) (low : fb.val < s.fbs.length) (retry : (s.fb fb.val).state = .retry) (rest : (s.fb fb.val).cause &&& 0x60 = 0)
    (words : (s.fb fb.val).cause &&& 0x9C ≠ 0 → 2 ≤ (s.fb fb.val).goodRun) (other : fbMode s.force fb.val ≠ 5)
    (ref : fbRefReq s.force fb.val = true → (s.fb fb.val).referenced = true) :
    exec (.fbReacquire fb) s = .next (((((s.fbHeld fb.val).fbCleared fb.val).fbAgain fb.val).event (pgFb fb.val) 8).backInService 1 fb.val) := by
  have held : (if ((s.fb fb.val).cause &&& 3 != 0) && !(fbMode s.force fb.val == 5 && (s.fb fb.val).cause == 2 && decide (2 ≤ (s.fb fb.val).goodRun))
      then s.reach ((s.fb fb.val).lastFault + msT 1) else s) = s.fbHeld fb.val := by
    have mode : (fbMode s.force fb.val == 5) = false := by simpa using other
    rw [mode, State.fbHeld]
    by_cases timed : (s.fb fb.val).cause &&& 3 = 0
    · rw [if_pos timed, timed]
      rfl
    · have on : ((s.fb fb.val).cause &&& 3 != 0) = true := bne_iff_ne.mpr timed
      rw [if_neg timed, on]
      rfl
  have length : fb.val < (s.fbHeld fb.val).fbs.length := by
    unfold State.fbHeld
    split <;> exact low
  have same : (s.fbHeld fb.val).fb fb.val = s.fb fb.val := by
    unfold State.fbHeld
    split <;> rfl
  have cfg : (s.fbHeld fb.val).cfg = s.cfg := by
    unfold State.fbHeld
    split <;> rfl
  have cleared : ((s.fbHeld fb.val).fbCleared fb.val).fb fb.val = { s.fb fb.val with lineOk := true, cause := 0, state := .running } :=
    (fb_onFb_same length).trans (by rw [same])
  have mode' : fbMode ((s.fbHeld fb.val).fbCleared fb.val).force fb.val ≠ 5 := by
    have word : fbCfg ((s.fbHeld fb.val).fbCleared fb.val).force fb.val = fbCfg s.force fb.val := force_staged cfg (by decide)
    rw [fbMode, word]
    exact other
  have rested : ((s.fb fb.val).cause &&& 0x60 != 0) = false := by simpa using rest
  have worded : (((s.fb fb.val).cause &&& 0x9C != 0) && decide ((s.fb fb.val).goodRun < 2)) = false := by
    simpa [Nat.succ_le_iff] using words
  have placed : (fbRefReq s.force fb.val && !(((s.fbHeld fb.val).fbCleared fb.val).fb fb.val).referenced) = false := by
    rw [cleared]
    by_cases asks : fbRefReq s.force fb.val = true
    · simp [ref asks]
    · simp [asks]
  show execFbReacquire fb s = _
  unfold execFbReacquire
  extract_lets index c x timed words_ rest_ reached again hall
  have hall_ : hall = (s.fbHeld fb.val).fbCleared fb.val :=
    (congrArg (fun u : State => (u.fbCleared fb.val).hallFirst fb.val) held).trans (hallFirst_other mode')
  rw [if_neg (by simp [up, x, index, retry]), show rest_ = false from rested, Bool.false_or, worded, if_neg (by decide), hall_]
  rw [show (fbRefReq c index && !(((s.fbHeld fb.val).fbCleared fb.val).fb index).referenced) = false from placed, if_neg (by decide)]
  have abs : fbAbs ((s.fbHeld fb.val).fbCleared fb.val).force fb.val = fbAbs c index := by
    have word : fbCfg ((s.fbHeld fb.val).fbCleared fb.val).force fb.val = fbCfg s.force fb.val := force_staged cfg (by decide)
    rw [fbAbs, fbMode, word]
    rfl
  rw [State.fbAgain, abs]

end

/-! The load of a position. -/

/-- Interface n is in use by an axis that moves, or out of service (R158). -/
def fbBusy (s : State) (n : Nat) : Bool :=
  (List.range 8).any (fun a => (s.ax a).state.moving && axComm s.force a != 0 && axAngle s.force a != 2 && axFb s.force a == some n)
    || (s.fb n).state = .retry || (s.fb n).state = .retired

theorem loadCmd_loads {s : State} {n : Nat} {v : Word} (loads : bt v 0 = true) : (s.touch .host).loadCmd .host n v =
    if fbBusy s n = true then (s.touch .host).refuseBy .host eState 0 (regAddr (pgFb n) FB.LOAD_CMD)
    else (s.touch .host).onFb n fun x => { x with loadPending := true } := if_neg (by simp [loads])

theorem fbBusy_iff {s : State} {n : Nat} : fbBusy s n = true ↔ (s.fb n).state = .retry ∨ (s.fb n).state = .retired ∨
    ∃ a < 8, (s.ax a).state.moving = true ∧ axComm s.force a ≠ 0 ∧ axAngle s.force a ≠ 2 ∧ axFb s.force a = some n := by
  simp only [fbBusy, Bool.or_eq_true, decide_eq_true_eq, List.any_eq_true, List.mem_range, Bool.and_eq_true, bne_iff_ne, beq_iff_eq, ne_eq, and_assoc]
  rw [or_assoc, or_comm, or_assoc]

/-! FB_LOST. -/

section

variable {s t : State} {n a b src : Nat}

theorem applyReact_srcOn {r : React} {k : Nat} {dem : Bool} : (s.applyReact a r k dem).srcOn src b = s.srcOn src b :=
  srcOn_only (State.applyReact_only (Only.refl [.regs, .axes, .mots, .legs, .trace, .timers] s) rfl) (by decide)

theorem fbLostAxis_on : (s.fbLostAxis a).srcOn srcFbLost a = true := by
  unfold State.fbLostAxis
  split
  · assumption
  · extract_lets x deg noted raised
    have noted_ : noted.srcOn srcFbLost a = true := noteSrc_on
    have raised_ : raised.srcOn srcFbLost a = true := raise_on
    clear_value noted raised
    split
    · split
      · exact noted_
      · exact applyReact_srcOn.trans noted_
    · split
      · exact rescueAbort_keeps raised_
      · exact raised_

theorem fbLostAxis_keeps (h : s.srcOn srcFbLost b = true) : (s.fbLostAxis a).srcOn srcFbLost b = true := by
  unfold State.fbLostAxis
  split
  · exact h
  · extract_lets x deg noted raised
    have noted_ : noted.srcOn srcFbLost b = true := noteSrc_keeps h
    have raised_ : raised.srcOn srcFbLost b = true := raise_keeps h
    clear_value noted raised
    split
    · split
      · exact noted_
      · exact applyReact_srcOn.trans noted_
    · split
      · exact rescueAbort_keeps raised_
      · exact raised_

end

/-- Settles O37. -/
theorem feedbackService : Obligations.FeedbackService := by
  unfold Obligations.FeedbackService
  intro fb s whole up n c x
  have low : n < s.fbs.length := (present whole).fbs.symm ▸ fb.isLt
  refine ⟨fun monitored cut live => ?line, fun retry rest words other ref => ?again, fun t0 edge incr moves still => ?standstill,
    fun runs ride fresh => ?lost, fun v loads => ⟨fun idle => ?load, fun busy => ?refused⟩, fun r emulate => ?repeater⟩
  case line =>
    obtain ⟨i, off, pair⟩ := cut
    have run := lineFault_runs up monitored ⟨i, off, mem_fbPairs pair⟩ live
    have cuts : Only [.fbs] s (s.fbCut n) := State.onFb_only (Only.refl _ _) rfl
    have whole' : Whole (s.fbCut n) := (State.onFb_kept (Kept.refl s)).whole whole
    have cut_ : (s.fbCut n).fb n = { s.fb n with lineOk := false } := fb_onFb_same low
    generalize s.fbCut n = u at *
    have faults := fbFault_faults (bit := 0) whole' fb.isLt (by decide)
    rw [now_only cuts (by decide)] at faults
    refine ⟨_, run, ⟨?_, FeedbackFault.of faults (by rw [cut_]) (cuts .chans (by decide)) (cuts .cfg (by decide))⟩,
      State.fbFault_only (Only.upd (Only.refl _ _) rfl cuts) rfl⟩
    exact fbFault_fb (P := fun x => x.lineOk = false) ⟨fun _ _ _ _ _ _ h => h, fun _ h => h, fun _ h => h⟩ (by rw [cut_])
  case again =>
    have run := reacquire_runs up low retry rest words other ref
    have holds : Only [.time] s (s.fbHeld n) := only_ite (Only.refl _ _) (State.reach_only (Only.refl _ _) rfl)
    have time : (s.fbHeld n).time = { s.time with tick := if x.cause &&& 3 = 0 then s.time.tick else max s.time.tick (x.lastFault + msT 1) } := by
      unfold State.fbHeld
      by_cases timed : x.cause &&& 3 = 0
      · rw [if_pos timed, if_pos timed]
      · rw [if_neg timed, if_neg timed]
        rfl
    have length : n < (s.fbHeld n).fbs.length := by rw [holds .fbs (by decide)]; exact low
    have same : (s.fbHeld n).fb n = x := fb_only holds (by decide)
    generalize s.fbHeld n = u at *
    have cleared : (u.fbCleared n).fb n = { u.fb n with lineOk := true, cause := 0, state := .running } := fb_onFb_same length
    have counts : ((u.fbCleared n).fbAgain n).fb n = { (u.fbCleared n).fb n with
        m := 0, edges := [], hist := if fbAbs (u.fbCleared n).force n then ((u.fbCleared n).fb n).hist else [], sSpeed := 0, vPrev := 0
        methPrev := false, countMethod := false, goodRun := 0, goodWord := none } :=
      fb_onFb_same (by rw [State.fbCleared, State.onFb, List.length_modify]; exact length)
    have parts : Only [.fbs] u ((u.fbCleared n).fbAgain n) := State.onFb_only (State.onFb_only (Only.refl _ _) rfl) rfl
    rw [cleared] at counts
    generalize (u.fbCleared n).fbAgain n = y at *
    have regs : y.regs = s.regs := (parts .regs (by decide)).trans (holds .regs (by decide))
    have chans : y.chans = s.chans := (parts .chans (by decide)).trans (holds .chans (by decide))
    have events : Only [.regs, .trace] y (y.event (pgFb n) 8) := State.event_only (Only.refl _ _) rfl
    obtain ⟨rises, flagged⟩ := event_flags (s := y) (p := pgFb n) (bits := 8) (i := 3) (regs ▸ whole.regs) (by decide)
    generalize y.event (pgFb n) 8 = w at *
    have chans' : w.chans = s.chans := (events .chans (by decide)).trans chans
    have last : Only [.chans] w (w.backInService 1 n) := only_ite (Only.refl _ _) (State.onChan_only (Only.refl _ _) rfl)
    have kept : (w.backInService 1 n).fb n = y.fb n := (fb_only last (by decide)).trans (fb_only events (by decide))
    refine ⟨_, run, ⟨?_, ?_, ?_, flagged_of_regs flagged (last .regs (by decide)), ?_, ?_⟩, ?_⟩
    · rw [kept, counts]
    · rw [kept, counts]
    · rw [kept, counts]
    · have service : w.chRet 1 n = s.chRet 1 n := congrArg ChanSt.retired (chan_of_chans chans')
      unfold State.backInService
      rw [service]
      split
      · rw [chan_of_chans chans']
      · rw [chan_onChan_same (chans' ▸ whole.chans)]
    · exact (last .time (by decide)).trans ((events .time (by decide)).trans ((parts .time (by decide)).trans time))
    · exact Only.upd (Only.upd (Only.upd (Only.upd (Only.refl _ _) rfl holds) rfl parts) rfl events) rfl last
  case standstill =>
    have run : exec (.fbStandstill fb) s = .next ((s.onFb n fun y => { y with
        standstill := true, m := 0, edges := [], methPrev := false, countMethod := false, sSpeed := if y.valid then 0 else y.sSpeed }).event
          (pgFb n) 2) := by
      show execFbStandstill fb s = _
      unfold execFbStandstill
      simp only [show (s.fb fb.val).lastEdge = some t0 from edge]
      exact if_pos (by simpa [up, incr, show fbIncr s.force fb.val = true from incr, show (s.fb fb.val).standstill = false from moves] using still)
    have stopped := fb_onFb_same (s := s) (n := n) (f := fun y => { y with
      standstill := true, m := 0, edges := [], methPrev := false, countMethod := false, sSpeed := if y.valid then 0 else y.sSpeed }) low
    have parts : Only [.fbs] s (s.onFb n fun y => { y with
      standstill := true, m := 0, edges := [], methPrev := false, countMethod := false, sSpeed := if y.valid then 0 else y.sSpeed }) :=
      State.onFb_only (Only.refl _ _) rfl
    generalize s.onFb n (fun y => { y with
      standstill := true, m := 0, edges := [], methPrev := false, countMethod := false, sSpeed := if y.valid then 0 else y.sSpeed }) = u at *
    have events : Only [.regs, .trace] u (u.event (pgFb n) 2) := State.event_only (Only.refl _ _) rfl
    have regs : u.regs = s.regs := parts .regs (by decide)
    refine ⟨_, run, ⟨(event_flags (regs ▸ whole.regs) (by decide)).2, ?_⟩, Only.upd (Only.upd (Only.refl _ _) rfl parts) rfl events⟩
    rw [fb_only events (by decide)]
    exact stopped
  case lost =>
    have run : exec (.fbLost fb) s = .next ((forL (fbUsers c n) (fun a s => s.fbLostAxis a) (s.onFb n fun x => { x with lostRaised := true })).masterLost n) := by
      show execFbLost fb s = _
      refine if_neg ?_
      simpa [up, show (s.fb fb.val).lostRaised = false from fresh] using ⟨runs, ride⟩
    have raised := fb_onFb_same (s := s) (n := n) (f := fun x => { x with lostRaised := true }) low
    have parts : Only [.fbs] s (s.onFb n fun x => { x with lostRaised := true }) := State.onFb_only (Only.refl _ _) rfl
    generalize s.onFb n (fun x => { x with lostRaised := true }) = u at *
    have loop : Only [.regs, .axes, .mots, .legs, .rescue, .safety, .trace, .log, .timers] u (forL (fbUsers c n) (fun a s => s.fbLostAxis a) u) :=
      forL_only (fun _ _ h => State.fbLostAxis_only h rfl) (Only.refl _ _)
    have on (a : Nat) (mem : a ∈ fbUsers c n) : (forL (fbUsers c n) (fun a s => s.fbLostAxis a) u).srcOn srcFbLost a = true :=
      forL_reaches (I := fun _ => True) (P := fun t => t.srcOn srcFbLost a = true) mem (fun _ _ _ => trivial) (fun _ _ => fbLostAxis_on)
        (fun _ _ h => fbLostAxis_keeps h) trivial
    generalize forL (fbUsers c n) (fun a s => s.fbLostAxis a) u = w at *
    have last : Only [.regs, .mots, .trace] w (w.masterLost n) := State.masterLost_only (Only.refl _ _) rfl
    refine ⟨_, run, ⟨?_, fun a mem => ?_⟩, Only.upd (Only.upd (Only.upd (Only.refl _ _) rfl parts) rfl loop) rfl last⟩
    · rw [fb_only last (by decide), fb_only loop (by decide), raised]
    · rw [srcOn_only last (by decide)]
      exact on a mem
  case load =>
    have run : exec (.posLoad fb v) s = .next ((s.touch .host).loadCmd .host n v) := if_pos up
    rw [loadCmd_loads loads, if_neg fun held => idle (fbBusy_iff.mp held)] at run
    exact ⟨_, run, fb_onFb_same (s := s.touch .host) low, State.onFb_only (touchHost_only (Only.refl _ _) rfl) rfl⟩
  case refused =>
    have run : exec (.posLoad fb v) s = .next ((s.touch .host).loadCmd .host n v) := if_pos up
    rw [loadCmd_loads loads, if_pos (fbBusy_iff.mpr busy)] at run
    have parts := State.refuseBy_only (m := .host) (code := eState) (cmd := 0) (addr := regAddr (pgFb n) FB.LOAD_CMD)
      (touchHost_only (Only.refl [.host, .regs, .mgr, .trace, .log] s) rfl) rfl
    exact refuses_touched whole.regs run (fb_only parts (by decide))
  case repeater =>
    intro y k free going
    have run : exec (.repeaterTransition r) s = .next (
        let u := s.reach (y.last + fld (repCfg c r.val) 31 16)
        { u with reps := u.reps.modify r.val fun x => { x with
          count := k, last := u.now, out := repLevels (fld (c (pgFb r.val) FB.REP_ZPER) 24 0) k, lag := x.lag && k != x.target } }) := by
      show execRepeaterTransition r s = _
      refine (if_neg ?_).trans rfl
      have apart : (y.count == y.target) = false := beq_eq_false_iff_ne.mpr going
      have emulates : (repMode s.force r.val != 2) = false := by simp [show repMode s.force r.val = 2 from emulate]
      have goes : (!s.up || repMode s.force r.val != 2 || y.held || y.count == y.target) = false := by
        rw [up, emulates, free, apart]
        rfl
      exact fun stays => absurd (goes.symm.trans stays) (by decide)
    have reps : r.val < s.reps.length := (present whole).reps.symm ▸ r.isLt
    refine ⟨_, run, ⟨rfl, getD_modify_same reps⟩, fun f out => ?_⟩
    cases f with
    | time => simp at out
    | reps => simp at out
    | _ => rfl

end Sys2Proof.Machine
end


section

/-! PROOF. What the compare units and the tracing unit leave of the live registers of others, and a fault with what follows it. -/

namespace Sys2Proof.Machine

open Sys2Proof.Safety Sys2Proof.Claims

section

variable {P : State → Prop} {s t : State} {a u n tick kind bit now : Nat}

theorem OutlivesEvents.traceKind (hP : OutlivesEvents P) {hit : Nat → Word → Bool} (h : P s) : P (s.traceKind kind tick hit) := by
  unfold State.traceKind
  split
  · refine forN_ind (fun u t k => ?_) h
    dsimp only
    split
    · exact hP.traceFire k
    · exact k
  · exact h

/-- P outlives what is raised, and values written in the motion pages. -/
structure OutlivesMotion (P : State → Prop) : Prop where
  rise : Rising P
  write : ∀ t a o v, o < 4096 → o ≠ pageEvent → o ≠ pageFault → P t → P (t.setLv (pgMot a) o v)

theorem outlivesMotion_up : OutlivesMotion (Up s) where
  rise := rising_up
  write _ _ _ _ ho quiet _ h := h.setLv (by rw [regAddr_mod ho]; exact quiet)

theorem outlivesMotion_faulted {p i : Nat} : OutlivesMotion (Faulted p i) where
  rise := rising_faulted
  write _ _ _ _ ho _ quiet h := h.setLv_ne fun e => quiet ((regAddr_inj ho (by decide)).mp e).2.symm

theorem outlivesMotion_reads {p o : Nat} {w : Word} (calm : Calm p o) (ho : o < 4096) (page : p < 0x20) : OutlivesMotion (Reads p o w) where
  rise := rising_reads calm
  write _ a _ _ hr _ _ h := h.setLv_ne fun e => by
    have same := ((regAddr_inj hr ho).mp e).1
    simp only [pgMot] at same
    omega

section

variable (out : OutlivesMotion P)
include out

theorem OutlivesMotion.cmpFire (low : u < 2) (h : P s) : P (s.cmpFire a u tick) := by
  have offset : MOT.CMP_STATUS u < 4096 ∧ MOT.CMP_STATUS u ≠ pageEvent ∧ MOT.CMP_STATUS u ≠ pageFault := by
    simp only [MOT.CMP_STATUS, pageEvent, pageFault]
    omega
  have stamp (k : Nat) (hk : k ≤ 4) : MOT.CMP_TICK_LO u + k < 4096 ∧ MOT.CMP_TICK_LO u + k ≠ pageEvent ∧ MOT.CMP_TICK_LO u + k ≠ pageFault := by
    simp only [MOT.CMP_TICK_LO, pageEvent, pageFault]
    omega
  unfold State.cmpFire
  extract_lets p off status stamped o pulsed
  have off_ : P off := out.rise.same h rfl
  have status_ : P status := out.write _ _ _ _ offset.1 offset.2.1 offset.2.2 off_
  obtain ⟨lo, lo1, lo2⟩ := stamp 0 (by decide)
  obtain ⟨hi, hi1, hi2⟩ := stamp 4 (by decide)
  have stamped_ : P stamped := out.rise.event (out.write _ _ _ _ hi hi1 hi2 (out.write _ _ _ _ lo lo1 lo2 status_))
  have pulsed_ : P pulsed := out.rise.only (only_ite (fs := [.cmps, .timers]) (State.startT_only (State.onCm_only (Only.refl _ _) rfl) rfl)
    (Only.refl _ stamped)) (by decide) stamped_
  exact out.rise.only (State.latchEvent_only (Only.refl [.latches] _) rfl) (by decide) pulsed_

theorem OutlivesMotion.cmpPos {x : Int} (low : u < 2) (h : P s) : P (s.setPair (pgMot a) (MOT.CMP_POS_LO u) x) := by
  have offset (k : Nat) (hk : k ≤ 4) : MOT.CMP_POS_LO u + k < 4096 ∧ MOT.CMP_POS_LO u + k ≠ pageEvent ∧ MOT.CMP_POS_LO u + k ≠ pageFault := by
    simp only [MOT.CMP_POS_LO, pageEvent, pageFault]
    omega
  obtain ⟨lo, lo1, lo2⟩ := offset 0 (by decide)
  obtain ⟨hi, hi1, hi2⟩ := offset 4 (by decide)
  exact out.write _ _ _ _ hi hi1 hi2 (out.write _ _ _ _ lo lo1 lo2 h)

theorem OutlivesMotion.cmpArm (low : u < 2) {pos : Int} {valid : Bool} : ∀ (k : Nat) {s : State}, P s → P (s.cmpArm k a u tick pos valid)
  | 0, _, h => h
  | k + 1, s, h => by
    have offset : MOT.CMP_STATUS u < 4096 ∧ MOT.CMP_STATUS u ≠ pageEvent ∧ MOT.CMP_STATUS u ≠ pageFault := by
      simp only [MOT.CMP_STATUS, pageEvent, pageFault]
      omega
    unfold State.cmpArm
    extract_lets w t armed fired
    have armed_ : P armed := out.rise.same h rfl
    have fired_ : P fired := out.cmpFire low armed_
    clear_value armed fired
    split
    · split
      · exact out.rise.same armed_ rfl
      · split
        · split
          · exact OutlivesMotion.cmpArm low k (out.cmpPos low fired_)
          · exact fired_
        · exact out.rise.event (out.write _ _ _ _ offset.1 offset.2.1 offset.2.2 (out.rise.same armed_ rfl))
    · exact armed_

theorem OutlivesMotion.cmpMove (low : u < 2) {before after : Int} {valid : Bool} (h : P s) : P (s.cmpMove a u tick before after valid) := by
  unfold State.cmpMove
  extract_lets i x w t fired t'
  have fired_ : P fired := out.cmpFire low h
  clear_value fired
  split
  · exact h
  · split
    · split
      · exact out.rise.same h rfl
      · split
        · exact out.cmpArm low _ (out.cmpPos low fired_)
        · exact fired_
    · split
      · exact out.rise.same h rfl
      · exact h

/-- What a move of POS_ACT does to the compare units leaves P. -/
theorem OutlivesMotion.cmpActual {before after : Int} (h : P s) : P (s.cmpActual a tick before after) := by
  refine forL_ind_mem (f := fun u s => if bt (s.cmpCtrl a u) 16 then s.cmpMove a u tick before after (s.axFbValid a) else s) (List.range 2)
    (fun u mem t k => ?_) h
  split
  · exact out.cmpMove (List.mem_range.mp mem) k
  · exact k

end

/-! A fault of an interface, and what follows it. -/

theorem fbFault_faulted (ok : MapOk s.regs) (low : bit < 32) : Faulted (pgFb n) bit (s.fbFault n bit) := by
  have faulted : Faulted (pgFb n) bit (s.fbMarked n bit) := fbMarked_fault ok low
  rw [fbFault_eq]
  generalize s.fbMarked n bit = u at *
  split
  · exact rising_faulted.onset (rising_faulted.event (faulted.setLv_ne fun e => absurd ((regAddr_inj (by decide) (by decide)).mp e).2 (by decide)))
  · exact faulted

/-- Whatever follows a fault, it stays one while its bit, the events and the onsets stay. -/
theorem FeedbackFault.then {x : State} (h : FeedbackFault s n bit now x) (up : Up x t) (faulted : Faulted (pgFb n) bit t) (chans :
    (s.fb n).state = .running → s.chRet 1 n = false → t.chans = x.chans) : FeedbackFault s n bit now t := by
  refine ⟨faulted.2, fun running inService => ?_⟩
  obtain ⟨flagged, counts⟩ := h.2 running inService
  exact ⟨up.bits _ _ flagged, CountsOnset.keeps counts (chans running inService)⟩

/-- What a fault does to the live registers beside its own count. -/
theorem fbFault_rises (rise : Rising P) (count : ∀ t, P t → P (t.inc16 (pgFb n) FB.FAULT_COUNT)) (h : P s) : P (s.fbFault n bit) := by
  have marked : P (s.fbMarked n bit) := rise.same (rise.fault h) rfl
  rw [fbFault_eq]
  generalize s.fbMarked n bit = u at *
  split
  · exact rise.onset (rise.event (count _ marked))
  · exact marked

end

end Sys2Proof.Machine
end


section

/-! PROOF. Absolute acquisitions (R159, R160, R164). -/

namespace Sys2Proof.Machine

open Sys2Proof.Safety Sys2Proof.Claims

section

variable {s t : State} {n a d bit w t0 : Nat} {fb : FbIx} {r : AbsResult}

/-! What an answer shows. -/

theorem calm_raw (low : n < 8) : Calm (pgFb n) FB.RAW_LO := by
  simp only [Calm, Aside, regAddr, pgFb, pgTrace, pgNvlog, FB.RAW_LO, pageEvent, pageFault, TRACE.TRIG_IGNORED, NVLOG.LOST]
  omega

/-- The word of an answer (R160). -/
def absWord (c : Cfg) (n : Nat) (r : AbsResult) : Nat :=
  if fbMode c n == 6 && bt (c (pgFb n) FB.ABS_CFG) 6 then grayToBin (absBits c n) (r.word.toNat % 2 ^ absBits c n) else r.word.toNat % 2 ^ absBits c n

/-- The acquisition is over at tick d, and its words are shown. -/
def State.absShown (s : State) (n d : Nat) (r : AbsResult) : State :=
  let c := s.force
  let ssi := fbMode c n == 6
  let s := (s.reach d).onFb n fun y => { y with acq := none, tail := ssi }
  let s := (s.setLv (pgFb n) FB.RAW_LO (nw (absWord c n r))).setLv (pgFb n) FB.RAW_HI
    (nw (absWord c n r / 2 ^ 32 + (if ssi then 0 else r.status.toNat * 256)))
  if ssi then s else s.setLv (pgFb n) FB.LINE_DELAY (nw (min r.delay 0xFFFF))

/-- The tracing unit sees the answer's status. -/
def State.absRead (s : State) (n d : Nat) (r : AbsResult) : State :=
  if fbMode s.force n == 6 then s.absShown n d r
  else (s.absShown n d r).traceAbs n ((if r.status.getLsbD 3 then [2] else []) ++ (if r.status.getLsbD 2 then [3] else [])) (absWord s.force n r)

theorem absShown_only : Only [.regs, .time, .fbs] s (s.absShown n d r) := by
  unfold State.absShown
  extract_lets c ssi ended shown
  have shown_ : Only [.regs, .time, .fbs] s shown := State.setLv_only (State.setLv_only (State.onFb_only (State.reach_only (Only.refl _ _) rfl) rfl) rfl) rfl
  exact only_ite shown_ (State.setLv_only shown_ rfl)

theorem absShown_leaves (ok : MapOk s.regs) (low : n < s.fbs.length) : (s.absShown n d r).time = { s.time with tick := max s.time.tick d } ∧
    (s.absShown n d r).fb n = { s.fb n with acq := none, tail := fbMode s.force n == 6 } ∧
    Reads (pgFb n) FB.RAW_LO (nw (absWord s.force n r)) (s.absShown n d r) := by
  unfold State.absShown
  extract_lets c ssi ended shown
  have apart (o : Nat) (ho : o < 4096) (ne : o ≠ FB.RAW_LO) : regAddr (pgFb n) FB.RAW_LO ≠ regAddr (pgFb n) o :=
    fun e => ne ((regAddr_inj ho (by decide)).mp e).2.symm
  have fb_ : ended.fb n = { s.fb n with acq := none, tail := ssi } := fb_onFb_same (s := s.reach d) low
  have okOver : MapOk ended.regs := ok
  have time_ : ended.time = { s.time with tick := max s.time.tick d } := rfl
  clear_value ended
  have raw : Reads (pgFb n) FB.RAW_LO (nw (absWord c n r)) shown := (reads_setLv okOver).setLv_ne (apart _ (by decide) (by decide))
  have parts : Only [.regs] ended shown := State.setLv_only (State.setLv_only (Only.refl _ _) rfl) rfl
  clear_value shown
  split
  · exact ⟨(parts .time (by decide)).trans time_, (fb_only parts (by decide)).trans fb_, raw⟩
  · exact ⟨(parts .time (by decide)).trans time_, (fb_only parts (by decide)).trans fb_, raw.setLv_ne (apart _ (by decide) (by decide))⟩

theorem traceAbs_raises {P : State → Prop} (rise : Rising P) {conds : List Nat} (h : P s) : P (s.traceAbs n conds w) :=
  rise.events.traceKind h

theorem absRead_leaves (whole : Whole s) (low : n < 8) : (s.absRead n d r).time = { s.time with tick := max s.time.tick d } ∧
    (s.absRead n d r).fb n = { s.fb n with acq := none, tail := fbMode s.force n == 6 } ∧
    Reads (pgFb n) FB.RAW_LO (nw (absWord s.force n r)) (s.absRead n d r) ∧ Only [.regs, .time, .fbs, .trace] s (s.absRead n d r) ∧
    Whole (s.absRead n d r) := by
  obtain ⟨time, fb_, raw⟩ := absShown_leaves (d := d) (r := r) whole.regs ((present whole).fbs.symm ▸ low)
  have shown : Only [.regs, .time, .fbs] s (s.absShown n d r) := absShown_only
  have whole' : Whole (s.absShown n d r) := by
    unfold State.absShown
    exact (kept_ite (State.setLv_kept (State.setLv_kept (State.onFb_kept (State.reach_kept (Kept.refl s))))) (State.setLv_kept (State.setLv_kept
      (State.setLv_kept (State.onFb_kept (State.reach_kept (Kept.refl s))))))).whole whole
  unfold State.absRead
  generalize s.absShown n d r = u at *
  split
  · exact ⟨time, fb_, raw, Only.upd (Only.refl _ _) rfl shown, whole'⟩
  · have traced : Only [.regs, .trace] u (u.traceAbs n ((if r.status.getLsbD 3 then [2] else []) ++ (if r.status.getLsbD 2 then [3] else []))
      (absWord s.force n r)) := State.traceAbs_only (Only.refl _ _) rfl
    exact ⟨(traced .time (by decide)).trans time, (fb_only traced (by decide)).trans fb_, traceAbs_raises (rising_reads (calm_raw low)) raw,
      Only.upd (Only.upd (Only.refl _ _) rfl shown) rfl traced, (State.traceAbs_kept (Kept.refl u)).whole whole'⟩

/-! A word that is taken. -/

/-- A new word is within MAX_STEP of an old one (R160). -/
def absNear (c : Cfg) (n w old : Nat) : Bool := decide ((wordDiff (absBits c n) w old).natAbs ≤ (c (pgFb n) FB.MAX_STEP).toNat)

/-- The compare units follow what a word moves, in the axes that use the interface. -/
def State.absMoved (s : State) (first : Bool) (t0 : Nat) (l : List (Nat × Int)) : State :=
  forL l (fun y s => if first ∧ s.actNow y.1 ≠ y.2 then s.cmpActual y.1 t0 y.2 (s.actNow y.1) else s) s

/-- What an answer without a fault of its own does (R160, R165). -/
def State.absTaken (s : State) (c : Cfg) (x : FbSt) (n w t0 : Nat) : State :=
  let l := (s.actAxes n).zip ((s.actAxes n).map fun a => s.actNow a)
  let s := s.traceAbs n [0] w
  if x.state = .retry then
    match x.goodWord with
    | some g =>
      if absNear c n w g then ((s.onFb n fun y => { y with goodRun := y.goodRun + 1, goodWord := some w }).fbWord n w).absMoved x.firstWord t0 l
      else s.onFb n fun y => { y with goodRun := 1, goodWord := some w }
    | none => s.onFb n fun y => { y with goodRun := 1, goodWord := some w }
  else if x.firstWord && !absNear c n w x.lastWord then s.fbFault n 4
  else (s.fbWord n w).absMoved x.firstWord t0 l

/-- What an answer does, once it is read (R159, R160, R164). -/
def State.absJudged (s : State) (x : FbSt) (n t0 : Nat) (ssi : Bool) (c : Cfg) (r : AbsResult) : State :=
  if !ssi && decide (500 < r.delay) then (s.fbFault n 2).traceAbs n [4] (absWord c n r)
  else if !r.checkOk && (!ssi || absPar c n) then (s.fbFault n 3).traceAbs n [1] (absWord c n r)
  else if !ssi && r.status.getLsbD 3 then s.fbFault n 7
  else s.absTaken c x n (absWord c n r) t0

theorem absDone_runs (up : s.up = true) (acq : (s.fb fb.val).acq = some t0) : exec (.absAcquisitionDone fb r) s =
    .next ((s.absRead fb.val (t0 + absTx s.force fb.val) r).absJudged (s.fb fb.val) fb.val t0 (fbMode s.force fb.val == 6) s.force r) := by
  show execAbsAcquisitionDone fb r s = _
  unfold execAbsAcquisitionDone
  simp only [acq, up]
  have next_ite {p : Prop} [Decidable p] {a b : State} : (if p then Host.Outcome.next a else Host.Outcome.next b : Out) = .next (if p then a else b) :=
    (apply_ite _ _ _ _).symm
  unfold State.absJudged State.absTaken
  cases good : (s.fb fb.val).goodWord with
  | none =>
    simp only [next_ite]
    rfl
  | some g =>
    simp only [next_ite]
    rfl

/-! What a word leaves. -/

theorem fbWord_rises {P : State → Prop} (rise : Rising P) (h : P s) : P (s.fbWord n w) := by
  unfold State.fbWord
  extract_lets c x sg d' pos taken
  have taken_ : P taken := rise.same h rfl
  clear_value taken
  unfold State.fbSetRef
  split
  · exact taken_
  · exact rise.event (rise.same taken_ rfl)

theorem absMoved_only {first : Bool} {l : List (Nat × Int)} : Only [.regs, .cmps, .latches, .trace, .timers] s (s.absMoved first t0 l) :=
  forL_only (fun _ _ h => only_ite (State.cmpActual_only h rfl) h) (Only.refl _ _)

theorem absMoved_rises {P : State → Prop} (out : OutlivesMotion P) {first : Bool} {l : List (Nat × Int)} (h : P s) : P (s.absMoved first t0 l) := by
  refine forL_ind (P := P) (fun y t k => ?_) l h
  split
  · exact out.cmpActual k
  · exact k

/-- The interface after a word (R160). -/
theorem fbWord_fb (low : n < s.fbs.length) : ∃ down hist, (s.fbWord n w).fb n = { s.fb n with
    pos := if (s.fb n).firstWord then (s.fb n).pos + (if fbInv s.force n then -1 else 1) * wordDiff (absBits s.force n) w (s.fb n).lastWord * 65536
      else (if fbInv s.force n then -1 else 1) * (w : Int) * 65536 + (s.fb n).loadOfs
    firstWord := true, lastWord := w, referenced := true
    dirDown := down, hist := hist } := by
  unfold State.fbWord
  extract_lets c x sg d' pos taken
  have taken_ : taken.fb n = { s.fb n with
      pos := pos, firstWord := true, lastWord := w, dirDown := if d' = 0 then (s.fb n).dirDown else decide (d' < 0)
      hist := ((wholeCounts (pos - (s.fb n).loadOfs), (s.fb n).lastAcq) :: (s.fb n).hist).take 18 } := fb_onFb_same low
  have length : n < taken.fbs.length := by
    show n < (s.fbs.modify _ _).length
    rw [List.length_modify]
    exact low
  have same : pos = if (s.fb n).firstWord then (s.fb n).pos + sg * wordDiff (absBits c n) w (s.fb n).lastWord * 65536
      else sg * (w : Int) * 65536 + (s.fb n).loadOfs := by
    show (if x.firstWord then x.pos + d' * 65536 else _) = _
    by_cases first : (s.fb n).firstWord = true
    · simp only [d', x, first, if_true]
    · simp only [x, first, if_false, Bool.false_eq_true]
  clear_value taken
  rw [← same]
  unfold State.fbSetRef
  split
  · next already =>
    rw [taken_] at already ⊢
    have referenced : (s.fb n).referenced = true := already
    exact ⟨_, _, by rw [← referenced]⟩
  · rw [fb_only (State.event_only (Only.refl [.regs, .trace] _) rfl) (by decide), fb_onFb_same length, taken_]
    exact ⟨_, _, rfl⟩

/-- P outlives a fault of the interface, and words that it takes. -/
structure OutlivesWord (P : FbSt → Prop) : Prop where
  fault : OutlivesFault P
  word : ∀ x g h i j k l, P x → P { x with pos := g, firstWord := h, lastWord := i, dirDown := j, hist := k, referenced := l }
  good : ∀ x g h, P x → P { x with goodRun := g, goodWord := h }

/-- What every answer leaves: the acquisition is over and its word is shown. -/
theorem absJudged_keeps {P : FbSt → Prop} (out : OutlivesWord P) {x : FbSt} {ssi : Bool} {c : Cfg} (low : n < s.fbs.length) (h : P (s.fb n)) :
    P ((s.absJudged x n t0 ssi c r).fb n) := by
  have traced (u : State) (conds : List Nat) (v : Nat) : (u.traceAbs n conds v).fb n = u.fb n :=
    fb_only (State.traceAbs_only (Only.refl [.regs, .trace] u) rfl) (by decide)
  have word (u : State) (v : Nat) (low : n < u.fbs.length) (k : P (u.fb n)) : P ((u.fbWord n v).fb n) := by
    obtain ⟨down, hist, taken⟩ := fbWord_fb (w := v) low
    rw [taken]
    exact out.word _ _ _ _ _ _ _ k
  have good (u : State) (g : Nat) (v : Option Nat) (k : P (u.fb n)) : P ((u.onFb n fun y => { y with goodRun := g, goodWord := v }).fb n) :=
    onFb_keeps (fun x => out.good x g v) k
  unfold State.absJudged
  split
  · rw [traced]
    exact fbFault_fb out.fault h
  · split
    · rw [traced]
      exact fbFault_fb out.fault h
    · split
      · exact fbFault_fb out.fault h
      · have seen : P ((s.traceAbs n [0] (absWord c n r)).fb n) := by
          rw [traced]
          exact h
        have low' : n < (s.traceAbs n [0] (absWord c n r)).fbs.length := by
          rw [State.traceAbs_only (Only.refl [.regs, .trace] s) rfl .fbs (by decide)]
          exact low
        unfold State.absTaken
        extract_lets l v
        change P (v.fb n) at seen
        change n < v.fbs.length at low'
        clear_value v
        split
        · split
          · split
            · rw [fb_only absMoved_only (by decide)]
              refine word _ _ (by rw [State.onFb, List.length_modify]; exact low') ?_
              exact onFb_keeps (fun x => out.good x _ _) seen
            · exact good _ _ _ seen
          · exact good _ _ _ seen
        · split
          · exact fbFault_fb out.fault seen
          · rw [fb_only absMoved_only (by decide)]
            exact word _ _ low' seen

theorem absJudged_rises {P : State → Prop} (out : OutlivesMotion P) (count : ∀ t, P t → P (t.inc16 (pgFb n) FB.FAULT_COUNT))
    {x : FbSt} {ssi : Bool} {c : Cfg} (h : P s) : P (s.absJudged x n t0 ssi c r) := by
  have rise := out.rise
  unfold State.absJudged
  split
  · exact traceAbs_raises rise (fbFault_rises rise count h)
  · split
    · exact traceAbs_raises rise (fbFault_rises rise count h)
    · split
      · exact fbFault_rises rise count h
      · have seen : P (s.traceAbs n [0] (absWord c n r)) := traceAbs_raises rise h
        unfold State.absTaken
        extract_lets l v
        change P v at seen
        clear_value v
        split
        · split
          · split
            · exact absMoved_rises out (fbWord_rises rise (rise.same seen rfl))
            · exact rise.same seen rfl
          · exact rise.same seen rfl
        · split
          · exact fbFault_rises rise count seen
          · exact absMoved_rises out (fbWord_rises rise seen)

theorem absJudged_only {x : FbSt} {ssi : Bool} {c : Cfg} : Only [.regs, .stage, .axes, .fbs, .mots, .cmps, .latches, .legs, .lanes, .cans, .dos,
    .safety, .trace, .log, .chans, .timers] s (s.absJudged x n t0 ssi c r) := by
  unfold State.absJudged
  have seen : Only [.regs, .stage, .axes, .fbs, .mots, .cmps, .latches, .legs, .lanes, .cans, .dos, .safety, .trace, .log, .chans, .timers] s
    (s.traceAbs n [0] (absWord c n r)) := State.traceAbs_only (Only.refl _ _) rfl
  refine only_ite (State.traceAbs_only (State.fbFault_only (Only.refl _ _) rfl) rfl) (only_ite (State.traceAbs_only (State.fbFault_only
    (Only.refl _ _) rfl) rfl) (only_ite (State.fbFault_only (Only.refl _ _) rfl) ?_))
  unfold State.absTaken
  extract_lets l v
  change Only _ s v at seen
  clear_value v
  split
  · split
    · exact only_ite (Only.upd (State.fbWord_only (State.onFb_only seen rfl) rfl) rfl absMoved_only) (State.onFb_only seen rfl)
    · exact State.onFb_only seen rfl
  · exact only_ite (State.fbFault_only seen rfl) (Only.upd (State.fbWord_only seen rfl) rfl absMoved_only)

/-- A fault of an answer, as the tracing unit sees it. -/
theorem fbFault_traced (whole : Whole s) (low : n < 8) (small : bit < 32) {conds : List Nat} :
    FeedbackFault s n bit s.now ((s.fbFault n bit).traceAbs n conds w) := by
  have faults := fbFault_faults whole low small
  have faulted : Faulted (pgFb n) bit (s.fbFault n bit) := fbFault_faulted whole.regs small
  generalize s.fbFault n bit = y at *
  have only : Only [.regs, .trace] y (y.traceAbs n conds w) := State.traceAbs_only (Only.refl _ _) rfl
  exact FeedbackFault.then faults (traceAbs_raises rising_up (Up.refl faulted.1)) (traceAbs_raises rising_faulted faulted)
    fun _ _ => only .chans (by decide)

/-- What the judgement of an answer does, condition by condition (R159, R160, R164). -/
structure AbsOutcome (s : State) (n t0 : Nat) (r : AbsResult) (t : State) : Prop where
  late : fbMode s.force n ≠ 6 → 500 < r.delay → FeedbackFault s n 2 t.now t
  unchecked : ¬ (fbMode s.force n ≠ 6 ∧ 500 < r.delay) → r.checkOk = false → (fbMode s.force n = 6 → absPar s.force n = true) →
    FeedbackFault s n 3 t.now t
  failing : ¬ (fbMode s.force n ≠ 6 ∧ 500 < r.delay) → ¬ (r.checkOk = false ∧ (fbMode s.force n = 6 → absPar s.force n = true)) →
    fbMode s.force n ≠ 6 ∧ r.status.getLsbD 3 = true → FeedbackFault s n 7 t.now t
  taken : ¬ (fbMode s.force n ≠ 6 ∧ 500 < r.delay) → ¬ (r.checkOk = false ∧ (fbMode s.force n = 6 → absPar s.force n = true)) →
    ¬ (fbMode s.force n ≠ 6 ∧ r.status.getLsbD 3 = true) →
    t = (s.absRead n (t0 + absTx s.force n) r).absTaken s.force (s.fb n) n (absWord s.force n r) t0

theorem absJudged_outcome (whole : Whole s) (low : n < 8) : AbsOutcome s n t0 r ((s.absRead n (t0 + absTx s.force n) r).absJudged (s.fb n) n t0
    (fbMode s.force n == 6) s.force r) := by
  obtain ⟨-, fb_, -, parts, whole'⟩ := absRead_leaves (d := t0 + absTx s.force n) (r := r) whole low
  have state : ((s.absRead n (t0 + absTx s.force n) r).fb n).state = (s.fb n).state := by rw [fb_]
  generalize eq : s.absRead n (t0 + absTx s.force n) r = u at *
  have now : (u.absJudged (s.fb n) n t0 (fbMode s.force n == 6) s.force r).now = u.now := now_only absJudged_only (by decide)
  have fault {bit : Nat} {t : State} (h : FeedbackFault u n bit u.now t) : FeedbackFault s n bit u.now t :=
    FeedbackFault.of h state (parts .chans (by decide)) (parts .cfg (by decide))
  have notLate (h : ¬ (fbMode s.force n ≠ 6 ∧ 500 < r.delay)) : ¬ (!(fbMode s.force n == 6) && decide (500 < r.delay)) = true := by
    simpa using h
  have notBad (h : ¬ (r.checkOk = false ∧ (fbMode s.force n = 6 → absPar s.force n = true))) :
      ¬ (!r.checkOk && (!(fbMode s.force n == 6) || absPar s.force n)) = true := by
    intro bad
    simp only [Bool.and_eq_true, Bool.not_eq_true', Bool.or_eq_true, beq_eq_false_iff_ne] at bad
    exact h ⟨bad.1, fun ssi => bad.2.resolve_left (not_not.mpr ssi)⟩
  refine ⟨fun crc slow => ?_, fun soon bad par => ?_, fun soon good fails => ?_, fun soon good works => ?_⟩
  · rw [now, State.absJudged, if_pos (by simp [crc, slow])]
    exact fault (fbFault_traced whole' low (by decide))
  · have judged : (!r.checkOk && (!(fbMode s.force n == 6) || absPar s.force n)) = true := by
      by_cases ssi : fbMode s.force n = 6
      · simp [bad, par ssi]
      · simp [bad, ssi]
    rw [now, State.absJudged, if_neg (notLate soon), if_pos judged]
    exact fault (fbFault_traced whole' low (by decide))
  · rw [now, State.absJudged, if_neg (notLate soon), if_neg (notBad good), if_pos (by simp [fails.1, fails.2])]
    exact fault (fbFault_faults whole' low (by decide))
  · rw [State.absJudged, if_neg (notLate soon), if_neg (notBad good), if_neg (by simpa using works), eq]

/-- What a word that is taken does, condition by condition (R160, R165). -/
theorem absTaken_leaves {x : FbSt} {c : Cfg} (whole : Whole s) (low : n < 8) (cfg : fbInv s.force n = fbInv c n ∧ absBits s.force n = absBits c n)
    (same : s.fb n = { x with acq := none, tail := (s.fb n).tail }) (eq : t = s.absTaken c x n w t0) :
    (x.state = .running → x.firstWord = true → absNear c n w x.lastWord = false → FeedbackFault s n 4 s.now t) ∧
    (x.state = .running → x.firstWord = true → absNear c n w x.lastWord = true → (t.fb n).lastWord = w ∧ (t.fb n).state = .running ∧
      (t.fb n).pos = x.pos + (if fbInv c n then -1 else 1) * wordDiff (absBits c n) w x.lastWord * 65536) ∧
    (x.state = .running → x.firstWord = false → (t.fb n).lastWord = w ∧ (t.fb n).firstWord = true ∧ (t.fb n).referenced = true ∧
      (t.fb n).pos = (if fbInv c n then -1 else 1) * (w : Int) * 65536 + x.loadOfs) ∧
    (x.state = .retry → x.goodWord = none → (t.fb n).goodRun = 1 ∧ (t.fb n).goodWord = some w) := by
  have traced : Only [.regs, .trace] s (s.traceAbs n [0] w) := State.traceAbs_only (Only.refl _ _) rfl
  have whole' : Whole (s.traceAbs n [0] w) := (State.traceAbs_kept (Kept.refl s)).whole whole
  have now : (s.traceAbs n [0] w).now = s.now := now_only traced (by decide)
  have fb_ : (s.traceAbs n [0] w).fb n = s.fb n := fb_only traced (by decide)
  have cfg' : fbInv (s.traceAbs n [0] w).force n = fbInv c n ∧ absBits (s.traceAbs n [0] w).force n = absBits c n := by
    have word : fbCfg (s.traceAbs n [0] w).force n = fbCfg s.force n := force_staged (traced .cfg (by decide)) (by decide)
    have bits : (s.traceAbs n [0] w).force (pgFb n) FB.ABS_CFG = s.force (pgFb n) FB.ABS_CFG := force_staged (traced .cfg (by decide)) (by decide)
    rw [fbInv, absBits, word, bits]
    exact cfg
  unfold State.absTaken at eq
  extract_lets l v at eq
  change Only [.regs, .trace] s v at traced
  change Whole v at whole'
  change v.fb n = s.fb n at fb_
  change fbInv v.force n = _ ∧ absBits v.force n = _ at cfg'
  change v.now = s.now at now
  clear_value v l
  subst eq
  have length : n < v.fbs.length := (present whole').fbs.symm ▸ low
  have x_ : v.fb n = { x with acq := none, tail := (s.fb n).tail } := fb_.trans same
  have notRetry (h : x.state = .running) : ¬ x.state = .retry := by rw [h]; decide
  obtain ⟨down, hist, word⟩ := fbWord_fb (w := w) length
  rw [x_, cfg'.1, cfg'.2] at word
  have after {first : Bool} : ((v.fbWord n w).absMoved first t0 l).fb n = (v.fbWord n w).fb n := fb_only absMoved_only (by decide)
  refine ⟨fun running first far => ?_, fun running first near => ?_, fun running first => ?_, fun retry none_ => ?_⟩
  · rw [if_neg (notRetry running), if_pos (by simp [first, far])]
    have faults := fbFault_faults (bit := 4) whole' low (by decide)
    rw [now] at faults
    exact FeedbackFault.of faults (by rw [fb_]) (traced .chans (by decide)) (traced .cfg (by decide))
  · rw [if_neg (notRetry running), if_neg (by simp [first, near]), after, word]
    exact ⟨rfl, running, if_pos first⟩
  · rw [if_neg (notRetry running), if_neg (by simp [first]), after, word]
    exact ⟨rfl, rfl, rfl, if_neg (by simp [first])⟩
  · rw [if_pos retry]
    simp only [none_]
    rw [fb_onFb_same length]
    exact ⟨rfl, rfl⟩

end

end Sys2Proof.Machine
end


section

/-! PROOF. Accepted levels of an incremental interface (R152, R154 to R157, R161), and the positions of all interfaces. -/

namespace Sys2Proof.Machine

open Sys2Proof.Safety Sys2Proof.Claims

section

variable {s t : State} {n stamp : Nat} {old zba : BitVec 3} {fb : FbIx}

/-! What an edge runs through. -/

/-- The levels are taken when they have held for FILT ticks. -/
def State.fbLevels (s : State) (n stamp : Nat) (zba : BitVec 3) : State := (s.reach (stamp + fbFilt s.force n)).onFb n fun x => { x with zba := zba }

/-- What the levels count, or the fault that they are (R154). -/
def State.fbStep (s : State) (c : Cfg) (n stamp : Nat) (old zba : BitVec 3) : State :=
  if fbMode c n = 4 then
    if !old.getLsbD 0 && zba.getLsbD 0 then s.fbTooth n stamp else s
  else match fbCounts c n old zba with
    | none => s.fbFault n 1
    | some 0 => s
    | some d =>
      let s := s.fbEdge n stamp d
      if fbMode c n = 5 ∧ (s.fb n).state = .retry then s.onFb n fun x => { x with goodRun := x.goodRun + 1 } else s

/-- The first Hall sector, and the index (R154, R156). -/
def State.fbPlaced (s : State) (c : Cfg) (n : Nat) (old zba : BitVec 3) : State :=
  let s := s.hallFirst n
  if fbIdxMode c n && (!old.getLsbD 2 && zba.getLsbD 2) && indexGate c n zba then s.fbIndex n else s

/-- The compare units and latches that follow the interface, its sample set and its repeaters. -/
def State.fbFollowed (s : State) (c : Cfg) (l : List (Nat × Int × Int)) (n stamp : Nat) (old zba : BitVec 3) : State :=
  let s := forL l (fun x s => if x.2.1 = x.2.2 then s else s.cmpActual x.1 stamp x.2.1 x.2.2) s
  let s := if old.getLsbD 2 != zba.getLsbD 2 then s.latchZ n stamp (!old.getLsbD 2 && zba.getLsbD 2) else s
  let s := s.fbResample n stamp
  forN 2 (fun r s =>
    if repMode c r = 1 ∧ fld (repCfg c r) 2 0 = n ∧ (s.fb n).valid then
      { s with reps := s.reps.modify r fun x => { x with out := zba } }
    else s) s

theorem edge_runs (up : s.up = true) (mode : 1 ≤ fbMode s.force fb.val) (mode' : fbMode s.force fb.val ≤ 5)
    (live : (s.fb fb.val).state = .running ∨ (s.fb fb.val).state = .retry) : ∃ l, exec (.fbEdgeAccepted fb stamp zba) s =
    .next (((((s.fbLevels fb.val stamp zba).fbStep s.force fb.val stamp (s.fb fb.val).zba zba).latchLate fb.val stamp).fbPlaced s.force fb.val
      (s.fb fb.val).zba zba).fbFollowed s.force l fb.val stamp (s.fb fb.val).zba zba) := by
  have none_ : (fbMode s.force fb.val == 0) = false := beq_eq_false_iff_ne.mpr (by omega)
  have out : (decide (fbMode s.force fb.val > 5)) = false := decide_eq_false (by omega)
  have goes : ¬ (!s.up || fbMode s.force fb.val == 0 || decide (fbMode s.force fb.val > 5) || (s.fb fb.val).state = .off || (s.fb fb.val).state = .retired) = true := by
    rw [up, none_, out]
    rcases live with running | retry
    · simp [running]
    · simp [retry]
  exact ⟨_, if_neg goes⟩

/-! What counting leaves of the interface. -/

theorem fbEdge_fb {cnt : Int} (low : n < s.fbs.length) : ((s.fbEdge n stamp cnt).fb n).zba = (s.fb n).zba ∧
    ((s.fbEdge n stamp cnt).fb n).state = (s.fb n).state ∧
    ((s.fbEdge n stamp cnt).fb n).pos = (s.fb n).pos + (if fbInv s.force n then -cnt else cnt) * 65536 ∧
    ((s.fbEdge n stamp cnt).fb n).lastEdge = some stamp ∧ ((s.fbEdge n stamp cnt).fb n).standstill = false ∧
    ((s.fbEdge n stamp cnt).fb n).dirDown = decide ((if fbInv s.force n then -cnt else cnt) < 0) := by
  unfold State.fbEdge
  extract_lets d
  rw [fb_onFb_same low]
  exact ⟨rfl, rfl, rfl, rfl, rfl, rfl⟩

/-- P outlives what a sample set takes of the interface. -/
structure OutlivesSample (P : FbSt → Prop) : Prop where
  sample : ∀ x p m h, P x → P { x with sPos := p, methPrev := m, hist := h }
  speed : ∀ x v m, P x → P { x with sSpeed := v, countMethod := m }

variable {P : FbSt → Prop}

theorem fbForm_fb (out : OutlivesSample P) {m : Nat} (h : P (s.fb m)) : P ((s.fbForm n).fb m) := by
  unfold State.fbForm
  extract_lets c bk x still vp vc q hi lo
  split
  · exact onFb_keeps (fun x => out.speed x _ _) h
  · exact onFb_keeps (fun x => out.speed x _ _) h

theorem fbResample_fb (out : OutlivesSample P) {m : Nat} (h : P (s.fb m)) : P ((s.fbResample n stamp).fb m) := by
  unfold State.fbResample
  extract_lets x taken
  split
  · exact fbForm_fb out (onFb_keeps (fun x => out.sample x _ _ _) h)
  · exact h

theorem fbFollowed_only {c : Cfg} {l : List (Nat × Int × Int)} : Only [.regs, .fbs, .cmps, .latches, .trace, .timers, .reps] s
    (s.fbFollowed c l n stamp old zba) := by
  unfold State.fbFollowed
  extract_lets moved latched sampled
  have moved_ : Only [.regs, .fbs, .cmps, .latches, .trace, .timers, .reps] s moved :=
    forL_only (fun _ _ h => only_ite h (State.cmpActual_only h rfl)) (Only.refl _ _)
  have sampled_ : Only [.regs, .fbs, .cmps, .latches, .trace, .timers, .reps] s sampled :=
    State.fbResample_only (only_ite (State.latchZ_only moved_ rfl) moved_) rfl
  refine forN_only (fun r t h => only_ite (Only.upd h (F := [.reps]) rfl fun f hf => ?_) h) sampled_
  cases f with
  | reps => simp at hf
  | _ => rfl

theorem fbFollowed_fb (out : OutlivesSample P) {c : Cfg} {l : List (Nat × Int × Int)} {m : Nat} (h : P (s.fb m)) :
    P ((s.fbFollowed c l n stamp old zba).fb m) := by
  unfold State.fbFollowed
  extract_lets moved latched sampled
  have moved_ : P (moved.fb m) := by
    rw [fb_only (forL_only (fs := [.regs, .cmps, .latches, .trace, .timers]) (fun _ _ h => only_ite h (State.cmpActual_only h rfl)) (Only.refl _ _))
      (by decide)]
    exact h
  have latched_ : P (latched.fb m) := by
    rw [fb_only (only_ite (fs := [.latches]) (State.latchZ_only (Only.refl _ _) rfl) (Only.refl _ moved)) (by decide)]
    exact moved_
  refine forN_ind (P := fun t => P (t.fb m)) (fun r t k => ?_) (fbResample_fb out latched_)
  split
  · exact k
  · exact k

theorem fbFollowed_rises {Q : State → Prop} (out : OutlivesMotion Q) {c : Cfg} {l : List (Nat × Int × Int)} (h : Q s) :
    Q (s.fbFollowed c l n stamp old zba) := by
  unfold State.fbFollowed
  extract_lets moved latched sampled
  have moved_ : Q moved := forL_ind (P := Q) (fun x t k => by
    split
    · exact k
    · exact out.cmpActual k) l h
  have sampled_ : Q sampled := out.rise.only (State.fbResample_only (only_ite (fs := [.latches, .fbs]) (State.latchZ_only (Only.refl _ _) rfl)
    (Only.refl _ moved)) rfl) (by decide) moved_
  refine forN_ind (P := Q) (fun r t k => ?_) sampled_
  split
  · exact out.rise.same k rfl
  · exact k

/-! Legal levels in the counting modes. -/

theorem fbStep_counts {c : Cfg} {d : Int} (mode : fbMode c n ≤ 3) (counts : fbCounts c n old zba = some d) :
    s.fbStep c n stamp old zba = if d = 0 then s else s.fbEdge n stamp d := by
  unfold State.fbStep
  rw [if_neg (by omega), counts]
  by_cases none_ : d = 0
  · subst none_
    rfl
  · rw [if_neg none_]
    split
    · next none => cases none
    · next zero => exact absurd (Option.some.inj zero) none_
    · next e same =>
      obtain rfl := Option.some.inj same
      exact if_neg fun h => by omega

theorem fbPlaced_still {c : Cfg} (mode : fbMode s.force n ≠ 5) (z : zba.getLsbD 2 = old.getLsbD 2) : s.fbPlaced c n old zba = s := by
  have flat : (!old.getLsbD 2 && zba.getLsbD 2) = false := by
    rw [z]
    cases old.getLsbD 2 <;> rfl
  unfold State.fbPlaced
  rw [hallFirst_other mode, flat, Bool.and_false, Bool.false_and]
  exact if_neg (by decide)

/-! An illegal transition. -/

/-- The position at a gated index is shown (R156). -/
def State.fbIndexShown (s : State) (n : Nat) : State := (s.setPair (pgFb n) FB.INDEX_POS_LO (s.fb n).pos).event (pgFb n) 32

/-- The index sets the position where the mode has it do so. -/
def State.fbIndexSet (s : State) (c : Cfg) (n mode : Nat) (p : Int) : State :=
  let s := s.onFb n fun x => { x with idxPos := some p }
  if mode ≠ 1 ∧ !(s.fb n).referenced then (s.fbSetPos n (indexValue c n)).fbSetRef n else s

/-- The counts since the previous index are tested. -/
def State.fbIndexTested (s : State) (c : Cfg) (n mode : Nat) (p : Int) (prev : Option Int) : State :=
  match prev with
  | none => s
  | some q =>
    if mode ≠ 3 then s
    else
      let diff : Int := ((wholeCounts (p - q)).natAbs : Int) - (c (pgFb n) FB.COUNTS_PER_INDEX).toNat
      let s := s.setLv (pgFb n) FB.INDEX_DIFF (iw diff)
      if (fld (c (pgFb n) FB.INDEX_TOL) 15 0) < diff.natAbs then s.fbFault n 5
      else s.onFb n fun x => { x with cause := x.cause &&& ~~~(BitVec.ofNat 8 32) }

theorem fbIndex_eq : s.fbIndex n = if fld (fbCfg s.force n) 25 24 = 0 then s
    else ((s.fbIndexShown n).fbIndexSet s.force n (fld (fbCfg s.force n) 25 24) (s.fb n).pos).fbIndexTested s.force n (fld (fbCfg s.force n) 25 24) (s.fb n).pos
      ((s.fbIndexShown n).fb n).idxPos := rfl

theorem fbIndexShown_only : Only [.regs, .trace] s (s.fbIndexShown n) := State.event_only (State.setPair_only (Only.refl _ _) rfl) rfl

/-- P outlives whatever the index, the first Hall sector and a fault do to the interface. -/
structure OutlivesPlace (P : FbSt → Prop) : Prop where
  fault : OutlivesFault P
  set : ∀ x p h i, P x → P { x with pos := p, hist := h, idxPos := i }
  ref : ∀ x r, P x → P { x with referenced := r }
  caused : ∀ x c, P x → P { x with cause := c }

theorem fbSetRef_fb (out : OutlivesPlace P) {m : Nat} (h : P (s.fb m)) : P ((s.fbSetRef n).fb m) := by
  unfold State.fbSetRef
  split
  · exact h
  · rw [fb_only (State.event_only (Only.refl [.regs, .trace] _) rfl) (by decide)]
    exact onFb_keeps (fun x => out.ref x true) h

theorem fbSetPos_fb (out : OutlivesPlace P) {p : Int} {m : Nat} (h : P (s.fb m)) : P ((s.fbSetPos n p).fb m) :=
  onFb_keeps (fun x => out.set x _ _ _) h

theorem hallFirst_fb (out : OutlivesPlace P) {m : Nat} (h : P (s.fb m)) : P ((s.hallFirst n).fb m) := by
  unfold State.hallFirst
  extract_lets x k k'
  split
  · exact fbSetRef_fb out (fbSetPos_fb out h)
  · exact h

theorem fbIndexSet_fb (out : OutlivesPlace P) {c : Cfg} {m mode : Nat} {p : Int} (h : P (s.fb m)) : P ((s.fbIndexSet c n mode p).fb m) := by
  unfold State.fbIndexSet
  extract_lets marked
  have marked_ : P (marked.fb m) := onFb_keeps (fun x => out.set x x.pos x.hist _) h
  split
  · exact fbSetRef_fb out (fbSetPos_fb out marked_)
  · exact marked_

theorem fbIndexTested_fb (out : OutlivesPlace P) {c : Cfg} {m mode : Nat} {p : Int} {prev : Option Int} (h : P (s.fb m)) :
    P ((s.fbIndexTested c n mode p prev).fb m) := by
  unfold State.fbIndexTested
  split
  · exact h
  · split
    · exact h
    · extract_lets diff told
      have told_ : P (told.fb m) := h
      split
      · exact fbFault_fb out.fault told_
      · exact onFb_keeps (fun x => out.caused x _) told_

theorem fbIndex_fb (out : OutlivesPlace P) {m : Nat} (h : P (s.fb m)) : P ((s.fbIndex n).fb m) := by
  rw [fbIndex_eq]
  split
  · exact h
  · refine fbIndexTested_fb out (fbIndexSet_fb out ?_)
    rw [fb_only fbIndexShown_only (by decide)]
    exact h

theorem fbPlaced_fb (out : OutlivesPlace P) {c : Cfg} {m : Nat} (h : P (s.fb m)) : P ((s.fbPlaced c n old zba).fb m) := by
  unfold State.fbPlaced
  extract_lets first
  have first_ : P (first.fb m) := hallFirst_fb out h
  split
  · exact fbIndex_fb out first_
  · exact first_

/-- P outlives what is raised, the count of faults of interface n, and its index registers. -/
structure OutlivesIndex (n : Nat) (Q : State → Prop) : Prop where
  rise : Rising Q
  write : ∀ t o v, o < 4096 → o ≠ pageEvent → o ≠ pageFault → Q t → Q (t.setLv (pgFb n) o v)

theorem outlivesIndex_up : OutlivesIndex n (Up s) where
  rise := rising_up
  write _ _ _ ho quiet _ h := h.setLv (by rw [regAddr_mod ho]; exact quiet)

theorem outlivesIndex_faulted {p i : Nat} : OutlivesIndex n (Faulted p i) where
  rise := rising_faulted
  write _ _ _ ho _ quiet h := h.setLv_ne fun e => quiet ((regAddr_inj ho (by decide)).mp e).2.symm

theorem fbSetRef_rises {Q : State → Prop} (rise : Rising Q) (h : Q s) : Q (s.fbSetRef n) := by
  unfold State.fbSetRef
  split
  · exact h
  · exact rise.event (rise.same h rfl)

theorem fbIndex_rises {Q : State → Prop} (out : OutlivesIndex n Q) (h : Q s) : Q (s.fbIndex n) := by
  have rise := out.rise
  have shown : Q (s.fbIndexShown n) :=
    rise.event (out.write _ _ _ (by decide) (by decide) (by decide) (out.write _ _ _ (by decide) (by decide) (by decide) h))
  have set {u : State} {c : Cfg} {mode : Nat} {p : Int} (k : Q u) : Q (u.fbIndexSet c n mode p) := by
    unfold State.fbIndexSet
    extract_lets marked
    have marked_ : Q marked := rise.same k rfl
    split
    · exact fbSetRef_rises rise (rise.same marked_ rfl)
    · exact marked_
  have tested {u : State} {c : Cfg} {mode : Nat} {p : Int} {prev : Option Int} (k : Q u) : Q (u.fbIndexTested c n mode p prev) := by
    unfold State.fbIndexTested
    split
    · exact k
    · split
      · exact k
      · extract_lets diff told
        have told_ : Q told := out.write _ _ _ (by decide) (by decide) (by decide) k
        split
        · exact fbFault_rises rise (fun t k => out.write _ _ _ (by decide) (by decide) (by decide) k) told_
        · exact rise.same told_ rfl
  rw [fbIndex_eq]
  split
  · exact h
  · exact tested (set shown)

theorem hallFirst_rises {Q : State → Prop} (rise : Rising Q) (h : Q s) : Q (s.hallFirst n) := by
  unfold State.hallFirst
  extract_lets x k k'
  split
  · exact fbSetRef_rises rise (rise.same h rfl)
  · exact h

theorem fbPlaced_rises {Q : State → Prop} (out : OutlivesIndex n Q) {c : Cfg} (h : Q s) : Q (s.fbPlaced c n old zba) := by
  unfold State.fbPlaced
  extract_lets first
  have first_ : Q first := hallFirst_rises out.rise h
  split
  · exact fbIndex_rises out first_
  · exact first_

/-- A fault of an interface that does not run counts no onset. -/
theorem fbFault_quiet (present : n < s.fbs.length) {bit : Nat} (still : (s.fb n).state ≠ .running) : s.fbFault n bit = s.fbMarked n bit := by
  rw [fbFault_eq, if_neg (by rw [fbMarked_state present]; exact still)]

theorem onFb_length {f : FbSt → FbSt} (h : n < s.fbs.length) : n < (s.onFb n f).fbs.length := by
  rw [State.onFb, List.length_modify]
  exact h

/-- The interface does not run. -/
def Rests (n : Nat) (t : State) : Prop := (t.fb n).state ≠ .running ∧ n < t.fbs.length

theorem Rests.onFb {f : FbSt → FbSt} (h : Rests n s) (k : ∀ x, (f x).state = x.state) : Rests n (s.onFb n f) :=
  ⟨onFb_keeps (P := fun x => x.state ≠ .running) (fun x hx => by rw [k]; exact hx) h.1, onFb_length h.2⟩

theorem Rests.only {fs : List Part} (h : Rests n s) (k : Only fs s t) (out : .fbs ∉ fs) : Rests n t := by
  unfold Rests
  rw [fb_only k out, k .fbs out]
  exact h

theorem Rests.indexSet {c : Cfg} {mode : Nat} {p : Int} (h : Rests n s) : Rests n (s.fbIndexSet c n mode p) ∧
    Only [.regs, .fbs, .trace] s (s.fbIndexSet c n mode p) := by
  unfold State.fbIndexSet
  extract_lets marked
  have marked_ : Rests n marked := h.onFb fun _ => rfl
  have parts : Only [.regs, .fbs, .trace] s marked := State.onFb_only (Only.refl _ _) rfl
  clear_value marked
  split
  · have placed : Rests n (marked.fbSetPos n (indexValue c n)) := marked_.onFb fun _ => rfl
    refine ⟨?_, State.fbSetRef_only (State.fbSetPos_only parts rfl) rfl⟩
    unfold State.fbSetRef
    split
    · exact placed
    · have noted : Rests n ((marked.fbSetPos n (indexValue c n)).onFb n fun x => { x with referenced := true }) := placed.onFb fun _ => rfl
      exact noted.only (State.event_only (Only.refl [.regs, .trace] _) rfl) (by decide)
  · exact ⟨marked_, parts⟩

/-- Nothing that follows an interface that does not run counts an onset. -/
theorem fbPlaced_quiet {c : Cfg} (h : Rests n s) : Only [.regs, .fbs, .trace] s (s.fbPlaced c n old zba) := by
  have tested {u : State} {c : Cfg} {mode : Nat} {p : Int} {prev : Option Int} (k : Rests n u) :
      Only [.regs, .fbs, .trace] u (u.fbIndexTested c n mode p prev) := by
    unfold State.fbIndexTested
    split
    · exact Only.refl _ _
    · refine only_ite (Only.refl _ _) ?_
      extract_lets diff told
      have told_ : Only [.regs, .fbs, .trace] u told := State.setLv_only (Only.refl _ _) rfl
      have rests : Rests n told := k.only (State.setLv_only (Only.refl [.regs] u) rfl) (by decide)
      refine only_ite ?_ (State.onFb_only told_ rfl)
      rw [fbFault_quiet rests.2 rests.1]
      exact Only.upd told_ rfl fbMarked_only
  have shown : Rests n (s.fbIndexShown n) := h.only fbIndexShown_only (by decide)
  have shownParts : Only [.regs, .trace] s (s.fbIndexShown n) := fbIndexShown_only
  unfold State.fbPlaced
  rw [show s.hallFirst n = s from if_neg fun k => h.1 k.2.2.2]
  refine only_ite ?_ (Only.refl _ _)
  rw [fbIndex_eq]
  refine only_ite (Only.refl _ _) ?_
  generalize s.fbIndexShown n = u at *
  obtain ⟨set, setParts⟩ := shown.indexSet (c := s.force) (mode := fld (fbCfg s.force n) 25 24) (p := (s.fb n).pos)
  exact Only.upd (Only.upd (Only.upd (Only.refl _ _) rfl shownParts) rfl setParts) rfl (tested set)

/-- After a fault that counts an onset the interface does not run. -/
theorem fbFault_rests (whole : Whole s) (low : n < 8) {bit : Nat} (inService : s.chRet 1 n = false) : Rests n (s.fbFault n bit) := by
  have marks : Only [.regs, .fbs] s (s.fbMarked n bit) := fbMarked_only
  have kept : Whole (s.fbMarked n bit) := (State.onFb_kept (State.pfault_kept (Kept.refl s))).whole whole
  rw [fbFault_eq]
  generalize s.fbMarked n bit = u at *
  have length : n < u.fbs.length := (present kept).fbs.symm ▸ low
  split
  · have parts : Only [.regs, .trace] u ((u.inc16 (pgFb n) FB.FAULT_COUNT).event (pgFb n) 4) :=
      State.event_only (State.inc16_only (Only.refl _ _) rfl) rfl
    have fbs : ((u.inc16 (pgFb n) FB.FAULT_COUNT).event (pgFb n) 4).fbs = u.fbs := parts .fbs (by decide)
    have free : ((u.inc16 (pgFb n) FB.FAULT_COUNT).event (pgFb n) 4).chRet 1 n = false :=
      (congrArg ChanSt.retired ((chan_only parts (by decide)).trans (chan_only marks (by decide)))).trans inService
    have ok : MapOk ((u.inc16 (pgFb n) FB.FAULT_COUNT).event (pgFb n) 4).chans := by
      rw [parts .chans (by decide), marks .chans (by decide)]
      exact whole.chans
    generalize (u.inc16 (pgFb n) FB.FAULT_COUNT).event (pgFb n) 4 = x at *
    have length' : n < x.fbs.length := by rw [fbs]; exact length
    unfold State.onset State.onsetWith
    rw [if_neg (by simp [free])]
    extract_lets ons counted till
    have still : counted.chRet 1 n = false := (congrArg ChanSt.retired (chan_onChan_same ok)).trans free
    have len : n < counted.fbs.length := length'
    clear_value counted
    split
    · unfold State.retire
      rw [if_neg (by simp [still])]
      extract_lets noted logged void
      have voids : Only [.chans, .regs, .trace, .log, .stage] counted void :=
        State.voidProof_only (State.logAdd_only (State.onChan_only (Only.refl _ _) rfl) rfl) rfl
      have lenVoid : n < void.fbs.length := by rw [voids .fbs (by decide)]; exact len
      clear_value void
      have gone := fb_onFb_same (s := void) (f := fun x => { x with state := .retired, valid := false, acq := none }) lenVoid
      have out : Rests n (void.onFb n fun x => { x with state := .retired, valid := false, acq := none }) := by
        refine ⟨?_, onFb_length lenVoid⟩
        rw [gone]
        exact nofun
      exact out.only (State.startReproof_only (Only.refl [.stage] _) rfl) (by decide)
    · have gone := fb_onFb_same (s := counted.onChan 1 n fun x => { x with retry := some till }) (f := fun x => { x with state := .retry, valid := false }) len
      refine ⟨?_, onFb_length (s := counted.onChan 1 n _) len⟩
      show ((((counted.onChan 1 n fun x => { x with retry := some till }).onFb n fun x => { x with state := .retry, valid := false }).fb n).state) ≠ _
      rw [gone]
      exact nofun
  · next stays => exact ⟨stays, length⟩

/-- An acquisition that does not answer in TIMEOUT is a fault (R159, R164). -/
theorem timeout_leaves {f : FbSt → FbSt} {T : Nat} (whole : Whole s) (low : n < 8) (state : ∀ x, (f x).state = x.state) (ends : ∀ x, P (f x))
    (out : OutlivesFault P) :
    let t := (((s.reach T).onFb n f).fbFault n 2).traceAbs n [4] 0
    FeedbackFault s n 2 (max s.time.tick T) t ∧ P (t.fb n) ∧
      Only [.regs, .time, .stage, .axes, .fbs, .mots, .legs, .lanes, .cans, .dos, .safety, .trace, .log, .chans, .timers] s t := by
  intro t
  have length : n < s.fbs.length := (present whole).fbs.symm ▸ low
  have ended : ((s.reach T).onFb n f).fb n = f (s.fb n) := fb_onFb_same (s := s.reach T) length
  have whole' : Whole ((s.reach T).onFb n f) := (State.onFb_kept (State.reach_kept (Kept.refl s))).whole whole
  have faults := fbFault_traced (n := n) (bit := 2) (w := 0) (conds := [4]) whole' low (by decide)
  have same : (((s.reach T).onFb n f).fb n).state = (s.fb n).state := by rw [ended, state]
  have kept : P (((s.reach T).onFb n f).fb n) := ended ▸ ends _
  refine ⟨FeedbackFault.of faults same rfl rfl, ?_, State.traceAbs_only (State.fbFault_only (State.onFb_only (State.reach_only (Only.refl _ _) rfl) rfl)
    rfl) rfl⟩
  show P (((((s.reach T).onFb n f).fbFault n 2).traceAbs n [4] 0).fb n)
  rw [fb_only (State.traceAbs_only (Only.refl [.regs, .trace] _) rfl) (by decide)]
  exact fbFault_fb out kept

end

/-- Settles O36. -/
theorem feedbackPositions : Obligations.FeedbackPositions := by
  unfold Obligations.FeedbackPositions
  refine ⟨fun fb stamp zba s whole => ⟨fun up rests => ?follows, fun d up mode mode' live counts z => ?counts, fun up mode running illegal => ?illegal⟩,
    fun fb s whole up => ⟨fun abs grid idle live => ?start, fun r t0 acq mode => ?done, fun ssi tail => ?tail, fun crc acq => ?silent⟩⟩
  case follows =>
    refine (if_pos ?_).trans rfl
    rcases rests with off | retired
    · simp [off]
    · simp [retired]
  case counts =>
    obtain ⟨l, run⟩ := edge_runs (zba := zba) (stamp := stamp) up mode (by omega) live
    have parts := onlyN_get (execFbEdgeAccepted_only (fb := fb) (stamp := stamp) (zba := zba) (Only.refl [.regs, .time, .stage, .axes, .fbs, .mots,
      .cmps, .latches, .legs, .lanes, .cans, .dos, .safety, .trace, .log, .chans, .timers, .reps] s) rfl) run
    refine ⟨_, run, ?_, parts⟩
    have low : fb.val < s.fbs.length := (present whole).fbs.symm ▸ fb.isLt
    have levels : (s.fbLevels fb.val stamp zba).fb fb.val = { s.fb fb.val with zba := zba } :=
      fb_onFb_same (s := s.reach (stamp + fbFilt s.force fb.val)) low
    have tick : (s.fbLevels fb.val stamp zba).time.tick = max s.time.tick (stamp + fbFilt s.force fb.val) := rfl
    have inv : fbInv (s.fbLevels fb.val stamp zba).force fb.val = fbInv s.force fb.val := rfl
    have cfg : (s.fbLevels fb.val stamp zba).cfg = s.cfg := rfl
    have length : fb.val < (s.fbLevels fb.val stamp zba).fbs.length := onFb_length (s := s.reach _) low
    rw [fbStep_counts mode' counts]
    generalize s.fbLevels fb.val stamp zba = u at *
    have steps : Only [.fbs] u (if d = 0 then u else u.fbEdge fb.val stamp d) := only_ite (Only.refl _ _) (State.fbEdge_only (Only.refl _ _) rfl)
    have counted : ((if d = 0 then u else u.fbEdge fb.val stamp d).fb fb.val).zba = zba ∧
        ((if d = 0 then u else u.fbEdge fb.val stamp d).fb fb.val).state = (s.fb fb.val).state ∧
        ((if d = 0 then u else u.fbEdge fb.val stamp d).fb fb.val).pos = (s.fb fb.val).pos + (if fbInv s.force fb.val then -d else d) * 65536 ∧
        (d ≠ 0 → ((if d = 0 then u else u.fbEdge fb.val stamp d).fb fb.val).lastEdge = some stamp ∧
          ((if d = 0 then u else u.fbEdge fb.val stamp d).fb fb.val).standstill = false ∧
          ((if d = 0 then u else u.fbEdge fb.val stamp d).fb fb.val).dirDown = decide ((if fbInv s.force fb.val then -d else d) < 0)) := by
      by_cases none_ : d = 0
      · rw [if_pos none_, levels]
        refine ⟨rfl, rfl, ?_, fun n => absurd none_ n⟩
        simp [none_]
      · obtain ⟨zba_, state, pos, edge, still, down⟩ := fbEdge_fb (stamp := stamp) (cnt := d) length
        rw [if_neg none_, zba_, state, pos, edge, still, down, levels, inv]
        exact ⟨rfl, rfl, rfl, fun _ => ⟨rfl, rfl, rfl⟩⟩
    generalize (if d = 0 then u else u.fbEdge fb.val stamp d) = v at *
    have lates : Only [.latches] v (v.latchLate fb.val stamp) := State.latchLate_only (Only.refl _ _) rfl
    have other : fbMode (v.latchLate fb.val stamp).force fb.val ≠ 5 := by
      have word : fbCfg (v.latchLate fb.val stamp).force fb.val = fbCfg s.force fb.val :=
        force_staged ((lates .cfg (by decide)).trans ((steps .cfg (by decide)).trans cfg)) (by decide)
      rw [fbMode, word]
      show fbMode s.force fb.val ≠ 5
      omega
    rw [fbPlaced_still other z]
    have same : (v.latchLate fb.val stamp).fb fb.val = v.fb fb.val := fb_only lates (by decide)
    have out : OutlivesSample fun y => y.zba = zba ∧ y.state = (s.fb fb.val).state ∧
        y.pos = (s.fb fb.val).pos + (if fbInv s.force fb.val then -d else d) * 65536 ∧
        (d ≠ 0 → y.lastEdge = some stamp ∧ y.standstill = false ∧ y.dirDown = decide ((if fbInv s.force fb.val then -d else d) < 0)) :=
      ⟨fun _ _ _ _ h => h, fun _ _ _ h => h⟩
    have final := fbFollowed_fb (P := fun y => _) out (s := v.latchLate fb.val stamp) (c := s.force) (l := l) (n := fb.val) (stamp := stamp)
      (old := (s.fb fb.val).zba) (zba := zba) (m := fb.val) (same ▸ counted)
    refine ⟨?_, final⟩
    rw [fbFollowed_only .time (by decide), lates .time (by decide), steps .time (by decide)]
    exact tick
  case illegal =>
    obtain ⟨l, run⟩ := edge_runs (zba := zba) (stamp := stamp) up (by omega) (by omega) (Or.inl running)
    have parts := onlyN_get (execFbEdgeAccepted_only (fb := fb) (stamp := stamp) (zba := zba) (Only.refl [.regs, .time, .stage, .axes, .fbs, .mots,
      .cmps, .latches, .legs, .lanes, .cans, .dos, .safety, .trace, .log, .chans, .timers, .reps] s) rfl) run
    refine ⟨_, run, ?_, parts⟩
    have low : fb.val < s.fbs.length := (present whole).fbs.symm ▸ fb.isLt
    have levels : (s.fbLevels fb.val stamp zba).fb fb.val = { s.fb fb.val with zba := zba } :=
      fb_onFb_same (s := s.reach (stamp + fbFilt s.force fb.val)) low
    have tick : (s.fbLevels fb.val stamp zba).now = max s.time.tick (stamp + fbFilt s.force fb.val) := rfl
    have chans : (s.fbLevels fb.val stamp zba).chans = s.chans := rfl
    have cfg : (s.fbLevels fb.val stamp zba).cfg = s.cfg := rfl
    have whole' : Whole (s.fbLevels fb.val stamp zba) := (State.onFb_kept (State.reach_kept (Kept.refl s))).whole whole
    have stepped : (s.fbLevels fb.val stamp zba).fbStep s.force fb.val stamp (s.fb fb.val).zba zba = (s.fbLevels fb.val stamp zba).fbFault fb.val 1 := by
      unfold State.fbStep
      rw [if_neg (by omega), illegal]
    rw [stepped]
    generalize s.fbLevels fb.val stamp zba = u at *
    have faults := fbFault_faults (bit := 1) whole' fb.isLt (by decide)
    have faulted : Faulted (pgFb fb.val) 1 (u.fbFault fb.val 1) := fbFault_faulted whole'.regs (by decide)
    have rests (inService : u.chRet 1 fb.val = false) := fbFault_rests (bit := 1) whole' fb.isLt inService
    have zba_ : ((u.fbFault fb.val 1).fb fb.val).zba = zba :=
      fbFault_fb (P := fun y => y.zba = zba) ⟨fun _ _ _ _ _ _ h => h, fun _ h => h, fun _ h => h⟩ (by rw [levels])
    have fault := FeedbackFault.of faults (s := s) (by rw [levels]) chans cfg
    rw [tick] at fault
    have time : (u.fbFault fb.val 1).time = u.time := State.fbFault_only (Only.refl [.regs, .stage, .axes, .fbs, .mots, .legs, .lanes, .cans, .dos,
      .safety, .trace, .log, .chans, .timers] u) rfl .time (by decide)
    have free (inService : s.chRet 1 fb.val = false) : u.chRet 1 fb.val = false := (congrArg ChanSt.retired (chan_of_chans chans)).trans inService
    generalize u.fbFault fb.val 1 = x at *
    have lates : Only [.latches] x (x.latchLate fb.val stamp) := State.latchLate_only (Only.refl _ _) rfl
    have restsLate (inService : s.chRet 1 fb.val = false) : Rests fb.val (x.latchLate fb.val stamp) := (rests (free inService)).only lates (by decide)
    have rises {Q : State → Prop} (motion : OutlivesMotion Q) (index : OutlivesIndex fb.val Q) (h : Q x) :
        Q (((x.latchLate fb.val stamp).fbPlaced s.force fb.val (s.fb fb.val).zba zba).fbFollowed s.force l fb.val stamp (s.fb fb.val).zba zba) :=
      fbFollowed_rises motion (fbPlaced_rises index (motion.rise.only lates (by decide) h))
    refine ⟨?_, ?_, FeedbackFault.then fault (rises outlivesMotion_up outlivesIndex_up (Up.refl faulted.1))
      (rises outlivesMotion_faulted outlivesIndex_faulted faulted) fun _ inService => ?_⟩
    · have placed : Only [.regs, .stage, .axes, .fbs, .mots, .legs, .lanes, .cans, .dos, .safety, .trace, .log, .chans, .timers]
          (x.latchLate fb.val stamp) ((x.latchLate fb.val stamp).fbPlaced s.force fb.val (s.fb fb.val).zba zba) := by
        have first : Only [.regs, .stage, .axes, .fbs, .mots, .legs, .lanes, .cans, .dos, .safety, .trace, .log, .chans, .timers]
          (x.latchLate fb.val stamp) ((x.latchLate fb.val stamp).hallFirst fb.val) := State.hallFirst_only (Only.refl _ _) rfl
        exact only_ite (State.fbIndex_only first rfl) first
      rw [fbFollowed_only .time (by decide), placed .time (by decide), lates .time (by decide), time]
      exact tick
    · have same : ((x.latchLate fb.val stamp).fb fb.val).zba = zba := (congrArg FbSt.zba (fb_only lates (by decide))).trans zba_
      exact fbFollowed_fb (P := fun y => y.zba = zba) ⟨fun _ _ _ _ h => h, fun _ _ _ h => h⟩ (fbPlaced_fb (P := fun y => y.zba = zba)
        ⟨⟨fun _ _ _ _ _ _ h => h, fun _ h => h, fun _ h => h⟩, fun _ _ _ _ h => h, fun _ _ h => h, fun _ _ h => h⟩ same)
    · rw [fbFollowed_only .chans (by decide), fbPlaced_quiet (restsLate inService) .chans (by decide), lates .chans (by decide)]
  case start =>
    have low : fb.val < s.fbs.length := (present whole).fbs.symm ▸ fb.isLt
    have goes : ¬ (!s.up || !fbAbs s.force fb.val || !s.time.grid || (s.fb fb.val).acq.isSome ||
        ((s.fb fb.val).state != .running && (s.fb fb.val).state != .retry)) = true := by
      rw [up, abs, grid, idle]
      rcases live with running | retry
      · simp [running]
      · simp [retry]
    have parts : Only [.time] s (s.reach (s.time.frameStart + s.time.curLen - absLead s.force fb.val)) := State.reach_only (Only.refl _ _) rfl
    refine ⟨⟨_, if_neg goes, ⟨rfl, fb_onFb_same (s := s.reach _) low⟩, State.onFb_only (Only.upd (Only.refl _ _) rfl parts) rfl⟩,
      ⟨_, if_neg goes, ?_, State.fbFault_only (Only.upd (Only.refl _ _) rfl parts) rfl⟩⟩
    exact FeedbackFault.of (fbFault_faults ((State.reach_kept (Kept.refl s)).whole whole) fb.isLt (by decide)) rfl rfl rfl
  case done =>
    obtain ⟨time, fb_, raw, parts, whole'⟩ := absRead_leaves (d := t0 + absTx s.force fb.val) (r := r) whole fb.isLt
    obtain ⟨late, unchecked, failing, taken⟩ := absJudged_outcome (t0 := t0) (r := r) whole fb.isLt
    have run := absDone_runs (r := r) up acq
    have low : fb.val < (s.absRead fb.val (t0 + absTx s.force fb.val) r).fbs.length := (present whole').fbs.symm ▸ fb.isLt
    have inv : fbInv (s.absRead fb.val (t0 + absTx s.force fb.val) r).force fb.val = fbInv s.force fb.val ∧
        absBits (s.absRead fb.val (t0 + absTx s.force fb.val) r).force fb.val = absBits s.force fb.val := by
      have cfg : (s.absRead fb.val (t0 + absTx s.force fb.val) r).cfg = s.cfg := parts .cfg (by decide)
      have word : fbCfg (s.absRead fb.val (t0 + absTx s.force fb.val) r).force fb.val = fbCfg s.force fb.val := force_staged cfg (by decide)
      have bits : (s.absRead fb.val (t0 + absTx s.force fb.val) r).force (pgFb fb.val) FB.ABS_CFG = s.force (pgFb fb.val) FB.ABS_CFG :=
        force_staged cfg (by decide)
      rw [fbInv, absBits, word, bits]
      exact ⟨rfl, rfl⟩
    have leaves := absTaken_leaves (t0 := t0) (w := absWord s.force fb.val r) (c := s.force) (x := s.fb fb.val) whole' fb.isLt inv (by rw [fb_]) rfl
    have wordEq : absWord s.force fb.val r = if fbMode s.force fb.val = 6 ∧ bt (s.force (pgFb fb.val) FB.ABS_CFG) 6 = true then
        grayToBin (absBits s.force fb.val) (r.word.toNat % 2 ^ absBits s.force fb.val) else r.word.toNat % 2 ^ absBits s.force fb.val := by
      simp only [absWord, Bool.and_eq_true, beq_iff_eq]
    have over_ : ((s.absRead fb.val (t0 + absTx s.force fb.val) r).fb fb.val).acq = none := by rw [fb_]
    have count (t : State) (h : Reads (pgFb fb.val) FB.RAW_LO (nw (absWord s.force fb.val r)) t) :
        Reads (pgFb fb.val) FB.RAW_LO (nw (absWord s.force fb.val r)) (t.inc16 (pgFb fb.val) FB.FAULT_COUNT) :=
      h.setLv_ne fun e => absurd ((regAddr_inj (by decide) (by decide)).mp e).2 (by decide)
    have shown := absJudged_rises (r := r) (t0 := t0) (x := s.fb fb.val) (ssi := fbMode s.force fb.val == 6) (c := s.force)
      (outlivesMotion_reads (calm_raw fb.isLt) (by decide) (by simp only [pgFb]; omega)) count raw
    have gone := absJudged_keeps (r := r) (t0 := t0) (x := s.fb fb.val) (ssi := fbMode s.force fb.val == 6) (c := s.force) (P := fun y => y.acq = none)
      ⟨⟨fun _ _ _ _ _ _ h => h, fun _ h => h, fun _ _ => rfl⟩, fun _ _ _ _ _ _ _ h => h, fun _ _ _ h => h⟩ low over_
    have judged := absJudged_only (s := s.absRead fb.val (t0 + absTx s.force fb.val) r) (x := s.fb fb.val) (n := fb.val) (t0 := t0)
      (ssi := fbMode s.force fb.val == 6) (c := s.force) (r := r)
    have time' := (judged .time (by decide)).trans time
    have now' : _ = max s.time.tick (t0 + absTx s.force fb.val) := congrArg TimeSt.tick time'
    have nowRead : (s.absRead fb.val (t0 + absTx s.force fb.val) r).now = max s.time.tick (t0 + absTx s.force fb.val) := congrArg TimeSt.tick time
    have readState : ((s.absRead fb.val (t0 + absTx s.force fb.val) r).fb fb.val).state = (s.fb fb.val).state := by rw [fb_]
    have chans : (s.absRead fb.val (t0 + absTx s.force fb.val) r).chans = s.chans := parts .chans (by decide)
    have cfg : (s.absRead fb.val (t0 + absTx s.force fb.val) r).cfg = s.cfg := parts .cfg (by decide)
    rw [nowRead] at leaves
    generalize s.absRead fb.val (t0 + absTx s.force fb.val) r = u at *
    generalize u.absJudged (s.fb fb.val) fb.val t0 (fbMode s.force fb.val == 6) s.force r = t at *
    change t.now = _ at now'
    rw [now'] at late unchecked failing
    intro ssi raw_ w now late_ unchecked_ failing_ near
    have word : w = absWord s.force fb.val r := wordEq.symm
    have far (old : Nat) (h : ¬ near old) : absNear s.force fb.val (absWord s.force fb.val r) old = false := by
      rw [← word]
      exact decide_eq_false h
    have close (old : Nat) (h : near old) : absNear s.force fb.val (absWord s.force fb.val r) old = true := by
      rw [← word]
      exact decide_eq_true h
    clear_value w
    subst word
    have last (soon : ¬ late_) (good : ¬ unchecked_) (works : ¬ failing_) := taken soon good works
    refine ⟨_, run, ⟨time', gone, shown.2, fun h => late h.1 h.2, fun soon h => unchecked soon h.1 h.2, fun soon good h => failing soon good h,
      fun soon good works running first bad => ?_, fun soon good works running first good' => ?_, fun soon good works running first => ?_,
      fun soon good works retry none_ => ?_⟩, Only.upd (Only.upd (Only.refl _ _) rfl parts) rfl judged⟩
    · rw [last soon good works]
      exact FeedbackFault.of (leaves.1 running first (far _ bad)) readState chans cfg
    · rw [last soon good works]
      exact leaves.2.1 running first (close _ good')
    · rw [last soon good works]
      exact leaves.2.2.1 running first
    · rw [last soon good works]
      exact leaves.2.2.2 retry none_
  case tail =>
    have run : exec (.absTimeoutExpiry fb) s = .next ((((s.reach ((s.fb fb.val).lastAcq + absTx s.force fb.val + absTimeout s.force fb.val)).onFb fb.val
        fun y => { y with tail := false }).fbFault fb.val 2).traceAbs fb.val [4] 0) :=
      (if_neg (by simp [up])).trans (if_pos ⟨ssi, tail⟩)
    have low : fb.val < s.fbs.length := (present whole).fbs.symm ▸ fb.isLt
    obtain ⟨fault, kept, parts⟩ := timeout_leaves (f := fun y => { y with tail := false }) (P := fun y => y.tail = false)
      (T := (s.fb fb.val).lastAcq + absTx s.force fb.val + absTimeout s.force fb.val) whole fb.isLt (fun _ => rfl) (fun _ => rfl)
      ⟨fun _ _ _ _ _ _ h => h, fun _ h => h, fun _ h => h⟩
    exact ⟨_, run, ⟨kept, fault⟩, parts⟩
  case silent =>
    have run : exec (.absTimeoutExpiry fb) s = .next ((((s.reach ((s.fb fb.val).lastAcq + absClk s.force fb.val + absTimeout s.force fb.val)).onFb fb.val
        fun y => { y with acq := none }).fbFault fb.val 2).traceAbs fb.val [4] 0) :=
      (if_neg (by simp [up])).trans ((if_neg fun h => by omega).trans (if_pos ⟨crc, acq⟩))
    obtain ⟨fault, kept, parts⟩ := timeout_leaves (f := fun y => { y with acq := none }) (P := fun y => y.acq = none)
      (T := (s.fb fb.val).lastAcq + absClk s.force fb.val + absTimeout s.force fb.val) whole fb.isLt (fun _ => rfl) (fun _ => rfl)
      ⟨fun _ _ _ _ _ _ h => h, fun _ h => h, fun _ _ => rfl⟩
    exact ⟨_, run, ⟨kept, fault⟩, parts⟩

end Sys2Proof.Machine
end


section

/-! PROOF. Conversions, offset captures and the sensorless restart (R135 to R137, R140, R143, R146, R149). -/

namespace Sys2Proof.Machine

open Sys2Proof.Safety Sys2Proof.Claims

section

variable {s t : State} {a n k d : Nat} {x : Samp} {m : Int} {code : Int} {stamp : Nat}

/-! What the current path reads of the configuration and of the tick. -/

theorem axSense_of_cfg (cfg : t.cfg = s.cfg) : axSense t.force a = axSense s.force a := by
  have axCfg_ : axCfg t.force a = axCfg s.force a := force_staged cfg (by decide)
  simp only [axSense, axComm, axSd, axCfg_, force_staged cfg (show ¬ AXIS.SENSE_SEL < 0x100 by decide)]
  rfl

theorem senseAxis_of_cfg (cfg : t.cfg = s.cfg) : senseAxis t.force n = senseAxis s.force n := by
  simp only [senseAxis, axSense_of_cfg cfg]

theorem senseAxis_lt (h : senseAxis s.force n = some a) : a < 8 := List.mem_range.mp (List.mem_of_find?_eq_some h)

/-- Nothing that lets a background item start has changed. -/
theorem bgOn_only {fs : List Part} (h : Only fs s t) (cfg : .cfg ∉ fs) (hk : .hk ∉ fs) (sched : .sched ∉ fs)
    (epi : t.lv pgSched SCHED.EPI = s.lv pgSched SCHED.EPI) : t.bgOn k = s.bgOn k := by
  have hk_ : t.hk = s.hk := h .hk hk
  have sched_ : t.sched = s.sched := h .sched sched
  simp only [State.bgOn, State.sliceCost, bgEssential, epi, hk_, sched_,
    force_staged (h .cfg cfg) (show ¬ SCHED.BG_ESSENTIAL < 0x100 by decide)]
  rfl

theorem offsetCounts_only {fs : List Part} (h : Only fs s t) (axes : .axes ∉ fs) (timers : .timers ∉ fs) (cfg : .cfg ∉ fs) (hk : .hk ∉ fs)
    (sched : .sched ∉ fs) (epi : t.lv pgSched SCHED.EPI = s.lv pgSched SCHED.EPI) : t.offsetCounts a stamp = s.offsetCounts a stamp := by
  have axCfg_ : axCfg t.force a = axCfg s.force a := force_staged (h .cfg cfg) (by decide)
  simp only [State.offsetCounts, State.axSwitching, axComm, axSd, axCfg_, bgOn_only h cfg hk sched epi, ax_only h axes, due_only h timers]
  rfl

/-! Channels. -/

theorem adcRawOff_lt (low : n < 32) : adcRawOff n < 4096 := by
  simp only [adcRawOff, ADC.SHUNT_RAW, ADC.SD_RAW, ADC.AIN_RAW]
  split
  · omega
  · split <;> omega

/-- A fault of a channel shows and counts an onset (R146, R149). -/
theorem adcFault_counts (whole : Whole s) (low : n < 32) (inService : s.chRet 2 n = false) :
    bt ((s.adcFault n).lv pgAdc pageFault) n = true ∧ CountsOnset s 2 n s.now (s.adcFault n) :=
  ⟨(rising_faulted.onset (pfault_sets whole.regs (nw_twoPow low))).2, CountsOnset.of (onset_counts (s := s.pfault pgAdc (2 ^ n)) whole.chans inService) rfl rfl⟩

/-- A channel that works again is in no retry (R284). -/
theorem adcBack_retry (whole : Whole s) (inService : s.chRet 2 n = false) : ((s.adcBack n).chan 2 n).retry = none := by
  unfold State.adcBack State.backInService
  split
  · rw [if_neg (by simp [inService]), chan_onChan_same whole.chans]
  · next working => exact Option.not_isSome_iff_eq_none.mp working

/-- The tick has reached the conversion, and it is the channel's newest. -/
def State.adcTaken (s : State) (n stamp : Nat) (x : Samp) : State := (s.reach stamp).adcTake n x

theorem adcTaken_only : Only [.time, .regs, .samples] s (s.adcTaken n stamp x) := State.adcTake_only (State.reach_only (Only.refl _ _) rfl) rfl

theorem adcTaken_whole (whole : Whole s) : Whole (s.adcTaken n stamp x) := (State.adcTake_kept (State.reach_kept (Kept.refl s))).whole whole

theorem adcTaken_raw (ok : MapOk s.regs) (low : n < 32) : OneReg s pgAdc (adcRawOff n) (fun _ => iw x.code) (s.adcTaken n stamp x) :=
  OneReg.to_regs (OneReg.of_regs (oneReg_setLv (s := s.reach stamp) ok (adcRawOff_lt low)) rfl) rfl

/-- Nothing that the conversion wrote has changed since. -/
theorem adcTaken_stays {fs : List Part} (whole : Whole s) (low : n < 32) (h : Only fs (s.adcTaken n stamp x) t) (time : .time ∉ fs) (regs : .regs ∉ fs)
    (samples : .samples ∉ fs) : t.time = { s.time with tick := max s.time.tick stamp } ∧ OneReg s pgAdc (adcRawOff n) (fun _ => iw x.code) t ∧
      t.samples = { s.samples with live := s.samples.live.set n x } :=
  ⟨h .time time, OneReg.to_regs (adcTaken_raw whole.regs low) (h .regs regs), h .samples samples⟩

/-- A conversion of a sense channel is noted for its axis. -/
def State.adcNoted (s : State) (n : Nat) (f : DriveSt → DriveSt) : State :=
  if n < 8 then (match senseAxis s.force n with
    | some a => s.onDr a f
    | none => s) else s

theorem adcNoted_only {f : DriveSt → DriveSt} : Only [.drives] s (s.adcNoted n f) := by
  unfold State.adcNoted
  refine only_ite ?_ (Only.refl _ _)
  split
  · exact State.onDr_only (Only.refl _ _) rfl
  · exact Only.refl _ _

theorem adcNoted_dr {f : DriveSt → DriveSt} (whole : Whole s) (low : n < 8) (of : senseAxis s.force n = some a) : (s.adcNoted n f).dr a = f (s.dr a) := by
  unfold State.adcNoted
  rw [if_pos low, of]
  exact dr_onDr_same ((present whole).drives.symm ▸ senseAxis_lt of)

theorem adcNoted_whole {f : DriveSt → DriveSt} (whole : Whole s) : Whole (s.adcNoted n f) := by
  unfold State.adcNoted
  split
  · split
    · exact (State.onDr_kept (Kept.refl s)).whole whole
    · exact whole
  · exact whole

/-- Where a conversion is taken. -/
structure Converts (s : State) (n : Nat) : Prop where
  up : s.up = true
  enabled : adcEn s.force n = true
  inService : s.chRet 2 n = false

theorem Converts.taken (h : Converts s n) : ¬ (!s.up || !adcEn s.force n || s.chRet 2 n) = true := by simp [h.up, h.enabled, h.inService]

theorem sampleA_done {ch : Fin 32} (h : Converts s ch.val) (eq : x = { code := adcCode ch.val code, cfg := adcCfg s.force ch.val, tick := stamp }) :
    exec (.adcConversionDone ch code .sampleA stamp) s =
      .next (if 8 ≤ ch.val ∧ ch.val < 16 then ((s.adcTaken ch.val stamp x).adcNoted ch.val fun d => { d with sampA := some x }).adcBack ch.val
        else (s.adcTaken ch.val stamp x).adcNoted ch.val fun d => { d with sampA := some x }) := by
  subst eq
  exact if_neg h.taken

theorem sampleB_done {ch : Fin 32} (h : Converts s ch.val) (eq : x = { code := adcCode ch.val code, cfg := adcCfg s.force ch.val, tick := stamp }) :
    exec (.adcConversionDone ch code .sampleB stamp) s =
      .next ((s.adcTaken ch.val stamp x).adcNoted ch.val fun d => { d with sampB := some x }) := by
  subst eq
  exact if_neg h.taken

theorem offset_done {ch : Fin 32} (h : Converts s ch.val) (eq : x = { code := adcCode ch.val code, cfg := adcCfg s.force ch.val, tick := stamp }) :
    exec (.adcConversionDone ch code .offset stamp) s = .next ((s.adcTaken ch.val stamp x).offsetSample ch.val x.code stamp) := by
  subst eq
  exact if_neg h.taken

theorem reference_done {ch : Fin 32} (h : Converts s ch.val) (notStream : ch.val < 8 ∨ 16 ≤ ch.val) :
    exec (.adcConversionDone ch code .reference stamp) s =
      .next (if 16 < code.natAbs then if (s.reach stamp).inRetry 2 ch.val then s.reach stamp else (s.reach stamp).adcFault ch.val
        else (s.reach stamp).adcBack ch.val) := by
  refine (if_neg h.taken).trans ?_
  refine (if_neg (by omega)).trans ?_
  split <;> rfl

/-- An offset sample counts, or starts the sums anew (R135 to R137). -/
theorem offsetSample_dr (whole : Whole s) (of : senseAxis s.force n = some a) : (s.offsetSample n code stamp).dr a =
    if s.offsetCounts a stamp then
      if (axSense s.force a).head? = some n then { s.dr a with ofsSum0 := (s.dr a).ofsSum0 + code, ofsCnt0 := (s.dr a).ofsCnt0 + 1 }
      else { s.dr a with ofsSum1 := (s.dr a).ofsSum1 + code, ofsCnt1 := (s.dr a).ofsCnt1 + 1 }
    else { s.dr a with ofsSum0 := 0, ofsSum1 := 0, ofsCnt0 := 0, ofsCnt1 := 0 } := by
  have here : a < s.drives.length := (present whole).drives.symm ▸ senseAxis_lt of
  unfold State.offsetSample
  rw [of]
  dsimp only
  split
  · split
    · exact dr_onDr_same here
    · exact dr_onDr_same here
  · exact dr_onDr_same here

/-! Offsets. -/

/-- The capture of an axis ends: its sums start anew (R135). -/
def State.captureOver (s : State) (a : Nat) : State :=
  (s.onAx a fun x => { x with capturing := false }).onDr a fun x => { x with ofsSum0 := 0, ofsSum1 := 0, ofsCnt0 := 0, ofsCnt1 := 0 }

theorem captureDone_one (due : s.due (.offsetCapture a) = some d) (capturing : (s.ax a).capturing = true) (one : axSense s.force a = [n])
    (some0 : (s.dr a).ofsCnt0 ≠ 0) (eq : m = meanOfs (s.dr a).ofsSum0 (s.dr a).ofsCnt0) (inRange : m.natAbs ≤ 4096) :
    s.captureDone a = (((s.reach d).stopT (.offsetCapture a)).captureOver a).setLv (pgAxis a) AXIS.OFFSET0 (iw m) := by
  subst eq
  unfold State.captureDone
  rw [State.expire_due due]
  refine (if_neg (by simp only [Bool.not_eq_true']; exact fun off => absurd (capturing.symm.trans off) (by decide))).trans ?_
  extract_lets x stopped reset put
  have sensed : axSense reset.force a = [n] := one
  rw [sensed]
  exact (if_neg some0).trans (if_neg (Nat.not_lt.mpr inRange))

theorem captureOver_only : Only [.axes, .drives] s (s.captureOver a) := State.onDr_only (State.onAx_only (Only.refl _ _) rfl) rfl

theorem offsetRange_idle (inRange : m.natAbs ≤ 4096) : s.offsetRange n m = s := if_neg (by omega)

/-- The mean differs from the offset in force by no more than OFFSET_STEP (R136). -/
def offsetNear (s : State) (a o : Nat) (m : Int) : Prop := (m - (s.lv (pgAxis a) o).toInt).natAbs ≤ axOfsStep s.force a

theorem judgeOffset_near0 (inRange : m.natAbs ≤ 4096) (near : offsetNear s a AXIS.OFFSET0 m) :
    s.judgeOffset a 0 n m = s.onDr a fun x => { x with ofsNew := some m } := by
  unfold State.judgeOffset
  rw [offsetRange_idle inRange]
  exact if_pos near

theorem judgeOffset_near1 (inRange : m.natAbs ≤ 4096) (near : offsetNear s a AXIS.OFFSET1 m) :
    s.judgeOffset a 1 n m = s.onDr a fun x => { x with ofsNew1 := some m } := by
  unfold State.judgeOffset
  rw [offsetRange_idle inRange]
  exact if_pos near

/-- A mean that is rejected (R136). -/
def State.offsetRejected (s : State) (a : Nat) : State := ((s.event (pgAxis a) 2).pfault (pgAxis a) 1).raisePulse srcOffset a

theorem judgeOffset_far (inRange : m.natAbs ≤ 4096) (far : ¬ offsetNear s a AXIS.OFFSET0 m) : s.judgeOffset a 0 n m = s.offsetRejected a := by
  unfold State.judgeOffset
  rw [offsetRange_idle inRange]
  exact if_neg far

theorem offsetRejected_only : Only [.regs, .axes, .safety, .trace, .log] s (s.offsetRejected a) :=
  State.raisePulse_only (State.pfault_only (State.event_only (Only.refl _ _) rfl) rfl) rfl

theorem offsetRejected_flags (ok : MapOk s.regs) : Flagged (s.offsetRejected a) (pgAxis a) 1 ∧ bt ((s.offsetRejected a).lv (pgAxis a) pageFault) 0 = true := by
  obtain ⟨up, flagged⟩ := event_flags (p := pgAxis a) (bits := 2) (i := 1) ok (by decide)
  unfold State.offsetRejected
  generalize s.event (pgAxis a) 2 = t at *
  exact ⟨(rising_up.raisePulse (rising_up.fault (Up.refl up.ok))).bits _ _ flagged,
    (rising_faulted.raisePulse (pfault_sets up.ok (show (nw 1).toNat.testBit 0 = true by decide))).2⟩

/-- The sum and count of the first channel start anew. -/
def State.sumTaken (s : State) (a : Nat) : State := s.onDr a fun x => { x with ofsSum0 := 0, ofsCnt0 := 0 }

theorem offsetUpdate_runs {axis : AxisIx} (up : s.up = true) (one : axSense s.force axis.val = [n]) (over_ : (s.ax axis.val).capturing = false)
    (full : 1024 ≤ (s.dr axis.val).ofsCnt0) (on : s.bgOn 2 = true) (eq : m = meanOfs (s.dr axis.val).ofsSum0 (s.dr axis.val).ofsCnt0) :
    exec (.burnisherOffsetUpdate axis) s = .next ((s.sumTaken axis.val).judgeOffset axis.val 0 n m) := by
  subst eq
  show execBurnisherOffsetUpdate axis s = _
  unfold execBurnisherOffsetUpdate
  simp only [one]
  refine (if_neg (by simp only [up, over_]; simpa using full)).trans ?_
  have still : (s.sumTaken axis.val).bgOn 2 = true :=
    (bgOn_only (fs := [.drives]) (State.onDr_only (Only.refl _ _) rfl) (by decide) (by decide) (by decide) rfl).trans on
  exact congrArg Host.Outcome.next (if_pos still)

/-- A sigma-delta pair's sums start anew, and the next refresh follows (R137). -/
def State.sdRestarted (s : State) (a : Nat) : State :=
  (s.onDr a fun x => { x with ofsSum0 := 0, ofsSum1 := 0, ofsCnt0 := 0, ofsCnt1 := 0 }).startT (.sdRefresh a) (s.now + refreshT)

theorem sdRefresh_runs {axis : AxisIx} {x y : Nat} {m0 m1 : Int} (due : s.due (.sdRefresh axis.val) = some d) (two : axSense s.force axis.val = [x, y])
    (ready : (s.ax axis.val).state = .ready) (full0 : 1024 ≤ (s.dr axis.val).ofsCnt0) (full1 : 1024 ≤ (s.dr axis.val).ofsCnt1) (on : s.bgOn 2 = true)
    (eq0 : m0 = meanOfs (s.dr axis.val).ofsSum0 (s.dr axis.val).ofsCnt0) (eq1 : m1 = meanOfs (s.dr axis.val).ofsSum1 (s.dr axis.val).ofsCnt1) :
    exec (.sdOffsetRefresh axis) s = .next (((((s.reach d).stopT (.sdRefresh axis.val)).sdRestarted axis.val).judgeOffset axis.val 0 x m0).judgeOffset
      axis.val 1 y m1) := by
  subst eq0 eq1
  show execSdOffsetRefresh axis s = _
  unfold execSdOffsetRefresh
  refine congrArg Host.Outcome.next ?_
  rw [State.expire_due due]
  have sensed : axSense ((s.reach d).stopT (.sdRefresh axis.val)).force axis.val = [x, y] := two
  simp only [sensed]
  have still : (((s.reach d).stopT (.sdRefresh axis.val)).sdRestarted axis.val).bgOn 2 = true :=
    (bgOn_only (fs := [.time, .drives, .timers]) (State.startT_only (State.onDr_only (Only.upd (Only.refl _ _) rfl expired_only) rfl) rfl) (by decide)
      (by decide) (by decide) rfl).trans on
  refine (if_neg (fun n => n ready)).trans (if_neg ?_)
  rintro (few | few | off)
  · exact absurd few (Nat.not_lt.mpr full0)
  · exact absurd few (Nat.not_lt.mpr full1)
  · exact absurd (still.symm.trans ((Bool.not_eq_true' _).mp off)) (by decide)

theorem sdRestarted_only : Only [.drives, .timers] s (s.sdRestarted a) := State.startT_only (State.onDr_only (Only.refl _ _) rfl) rfl

/-! The sensorless restart. -/

theorem catch_waits {axis : AxisIx} (due : s.due (.catchTime axis.val) = some d) (catching : (s.dr axis.val).restart = .catching)
    (unlocked : (s.dr axis.val).obsLocked = false)
    (slow : (s.dr axis.val).restarting = true → (s.dr axis.val).obsSpeed.natAbs < axNat s.force axis.val AXIS.OBS_MIN_SPEED) :
    exec (.catchTimeExpiry axis) s = .next (((s.reach d).stopT (.catchTime axis.val)).onDr axis.val fun x => { x with restart := .waiting }) := by
  show execCatchTimeExpiry axis s = _
  unfold execCatchTimeExpiry
  refine congrArg Host.Outcome.next ?_
  rw [State.expire_due due]
  refine (if_neg ?_).trans (if_neg ?_)
  · rintro (other | locked)
    · exact other catching
    · exact absurd (unlocked.symm.trans locked) (by decide)
  · rintro ⟨restarting, fast⟩
    exact absurd fast (Nat.not_le.mpr (slow restarting))

/-- A restart attempt has failed (R140, R145). -/
def State.restartFailed (s : State) (a : Nat) : State :=
  ((s.onDr a fun x => { x with restart := .idle, restarting := false }).raise srcRestart a).pfault (pgAxis a) 8

theorem restart_fails {axis : AxisIx} (due : s.due (.restart axis.val) = some d) (restarting : (s.dr axis.val).restarting = true) :
    exec (.restartTimeout axis) s = .next (((s.reach d).stopT (.restart axis.val)).restartFailed axis.val) := by
  show execRestartTimeout axis s = _
  unfold execRestartTimeout
  refine congrArg Host.Outcome.next ?_
  rw [State.expire_due due]
  exact if_pos restarting

theorem restartFailed_only : Only [.regs, .axes, .drives, .safety, .trace, .log] s (s.restartFailed a) :=
  State.pfault_only (State.raise_only (State.onDr_only (Only.refl _ _) rfl) rfl) rfl

end

/-! What the commands do. -/

section

variable {axis : AxisIx} {s : State} {d x y : Nat}

theorem captureDone_does (whole : Whole s) (low : axis.val < 8) (due : s.due (.offsetCapture axis.val) = some d)
    (capturing : (s.ax axis.val).capturing = true) (one : axSense s.force axis.val = [x]) (some0 : (s.dr axis.val).ofsCnt0 ≠ 0) :
    let m := meanOfs (s.dr axis.val).ofsSum0 (s.dr axis.val).ofsCnt0
    m.natAbs ≤ 4096 → s.power.persOn = false → Does (.offsetCaptureDone axis) s [.regs, .time, .axes, .drives, .timers] fun t =>
      t.time = { s.time with tick := max s.time.tick d } ∧ t.ax axis.val = { s.ax axis.val with capturing := false } ∧
        t.dr axis.val = { s.dr axis.val with ofsSum0 := 0, ofsSum1 := 0, ofsCnt0 := 0, ofsCnt1 := 0 } ∧
        OneReg s (pgAxis axis.val) AXIS.OFFSET0 (fun _ => iw m) t := by
  intro m inRange persOff
  have done := captureDone_one due capturing one some0 rfl inRange
  have only : Only [.regs, .time, .axes, .drives, .timers] s (s.captureDone axis.val) := by
    rw [done]
    exact State.setLv_only (Only.upd (Only.upd (Only.refl _ _) rfl expired_only) rfl captureOver_only) rfl
  have power : (s.captureDone axis.val).power = s.power := only .power (by decide)
  have idle : (s.captureDone axis.val).persRun = s.captureDone axis.val := if_neg (by rw [power, persOff, Bool.and_false]; decide)
  have run : exec (.offsetCaptureDone axis) s = .next (s.captureDone axis.val).persRun := rfl
  rw [idle] at run
  refine ⟨_, run, ?_, only⟩
  rw [done]
  exact ⟨rfl, ax_onAx_same (s := (s.reach d).stopT _) ((present whole).axes.symm ▸ axis.isLt),
    dr_onDr_same (s := ((s.reach d).stopT _).onAx _ _) ((present whole).drives.symm ▸ low),
    OneReg.of_regs (oneReg_setLv (s := ((s.reach d).stopT (.offsetCapture axis.val)).captureOver axis.val) whole.regs (by decide)) rfl⟩

theorem onDr_length {a : Nat} {f : DriveSt → DriveSt} : (s.onDr a f).drives.length = s.drives.length := List.length_modify ..

theorem sumTaken_dr {a : Nat} (here : a < s.drives.length) : (s.sumTaken a).dr a = { s.dr a with ofsSum0 := 0, ofsCnt0 := 0 } := dr_onDr_same here

theorem sumTaken_only {a : Nat} : Only [.drives] s (s.sumTaken a) := State.onDr_only (Only.refl _ _) rfl

theorem offsetUpdate_does (whole : Whole s) (low : axis.val < 8) (up : s.up = true) (one : axSense s.force axis.val = [x])
    (over_ : (s.ax axis.val).capturing = false) (full : 1024 ≤ (s.dr axis.val).ofsCnt0) (on : s.bgOn 2 = true) :
    let m := meanOfs (s.dr axis.val).ofsSum0 (s.dr axis.val).ofsCnt0
    let old := (s.lv (pgAxis axis.val) AXIS.OFFSET0).toInt
    m.natAbs ≤ 4096 →
      ((m - old).natAbs ≤ axOfsStep s.force axis.val → Does (.burnisherOffsetUpdate axis) s [.drives] fun t =>
        t.dr axis.val = { s.dr axis.val with ofsSum0 := 0, ofsCnt0 := 0, ofsNew := some m }) ∧
      (axOfsStep s.force axis.val < (m - old).natAbs → Does (.burnisherOffsetUpdate axis) s [.regs, .stage, .axes, .drives, .fbs,
          .mots, .legs, .lanes, .cans, .dos, .safety, .trace, .log, .chans, .timers] fun t =>
        t.dr axis.val = { s.dr axis.val with ofsSum0 := 0, ofsCnt0 := 0 } ∧ Flagged t (pgAxis axis.val) 1 ∧
          bt (t.lv (pgAxis axis.val) pageFault) 0 = true) := by
  intro m old inRange
  have here : axis.val < s.drives.length := (present whole).drives.symm ▸ low
  have run := offsetUpdate_runs (axis := axis) up one over_ full on (m := m) rfl
  have sum := sumTaken_dr here
  have only : Only [.drives] s (s.sumTaken axis.val) := sumTaken_only
  have here' : axis.val < (s.sumTaken axis.val).drives.length := here.trans_eq onDr_length.symm
  have near_ : offsetNear (s.sumTaken axis.val) axis.val AXIS.OFFSET0 m ↔ (m - old).natAbs ≤ axOfsStep s.force axis.val := Iff.rfl
  have ok : MapOk (s.sumTaken axis.val).regs := whole.regs
  generalize s.sumTaken axis.val = u at *
  refine ⟨fun near => ?_, fun far => ?_⟩
  · rw [judgeOffset_near0 inRange (near_.mpr near)] at run
    exact ⟨_, run, (dr_onDr_same here').trans (by rw [sum]), State.onDr_only only rfl⟩
  · rw [judgeOffset_far inRange fun near => absurd far (Nat.not_lt.mpr (near_.mp near))] at run
    exact ⟨_, run, ⟨(dr_only offsetRejected_only (by decide)).trans sum, offsetRejected_flags ok⟩,
      Only.upd (Only.upd (Only.refl _ _) rfl only) rfl offsetRejected_only⟩

theorem sdRestarted_dr {a : Nat} (here : a < s.drives.length) :
    (s.sdRestarted a).dr a = { s.dr a with ofsSum0 := 0, ofsSum1 := 0, ofsCnt0 := 0, ofsCnt1 := 0 } := dr_onDr_same here

theorem sdRefresh_does (whole : Whole s) (low : axis.val < 8) (due : s.due (.sdRefresh axis.val) = some d) (two : axSense s.force axis.val = [x, y])
    (ready : (s.ax axis.val).state = .ready) (full0 : 1024 ≤ (s.dr axis.val).ofsCnt0) (full1 : 1024 ≤ (s.dr axis.val).ofsCnt1) (on : s.bgOn 2 = true)
    {m0 m1 : Int} (eq0 : m0 = meanOfs (s.dr axis.val).ofsSum0 (s.dr axis.val).ofsCnt0) (eq1 : m1 = meanOfs (s.dr axis.val).ofsSum1 (s.dr axis.val).ofsCnt1)
    (in0 : m0.natAbs ≤ 4096) (in1 : m1.natAbs ≤ 4096) (near0 : offsetNear s axis.val AXIS.OFFSET0 m0) (near1 : offsetNear s axis.val AXIS.OFFSET1 m1) :
    Does (.sdOffsetRefresh axis) s [.time, .drives, .timers] fun t =>
      t.dr axis.val = { s.dr axis.val with
        ofsSum0 := 0, ofsSum1 := 0, ofsCnt0 := 0, ofsCnt1 := 0, ofsNew := some m0, ofsNew1 := some m1 } ∧
        t.due (.sdRefresh axis.val) = some (max s.time.tick d + refreshT) := by
  have run := sdRefresh_runs (axis := axis) due two ready full0 full1 on eq0 eq1
  have here : axis.val < s.drives.length := (present whole).drives.symm ▸ low
  have only : Only [.time, .drives, .timers] s (((s.reach d).stopT (.sdRefresh axis.val)).sdRestarted axis.val) :=
    Only.upd (Only.upd (Only.refl _ _) rfl expired_only) rfl sdRestarted_only
  have dr_ : (((s.reach d).stopT (.sdRefresh axis.val)).sdRestarted axis.val).dr axis.val = _ := sdRestarted_dr here
  have due_ : (((s.reach d).stopT (.sdRefresh axis.val)).sdRestarted axis.val).due (.sdRefresh axis.val) = some (max s.time.tick d + refreshT) :=
    State.due_startT_same
  have here' : axis.val < (((s.reach d).stopT (.sdRefresh axis.val)).sdRestarted axis.val).drives.length := here.trans_eq onDr_length.symm
  generalize ((s.reach d).stopT (.sdRefresh axis.val)).sdRestarted axis.val = u at *
  have regs : u.regs = s.regs := only .regs (by decide)
  have step : axOfsStep u.force axis.val = axOfsStep s.force axis.val :=
    congrArg (fld · 31 16) (force_staged (only .cfg (by decide)) (by decide))
  have nearU0 : offsetNear u axis.val AXIS.OFFSET0 m0 := by
    rw [offsetNear, lv_of_regs regs, step]
    exact near0
  have nearU1 : offsetNear (u.onDr axis.val fun x => { x with ofsNew := some m0 }) axis.val AXIS.OFFSET1 m1 := by
    have step' : axOfsStep (u.onDr axis.val fun x => { x with ofsNew := some m0 }).force axis.val = axOfsStep u.force axis.val := rfl
    rw [offsetNear, lv_of_regs (s := s) (t := u.onDr axis.val fun x => { x with ofsNew := some m0 }) regs, step', step]
    exact near1
  rw [judgeOffset_near0 in0 nearU0, judgeOffset_near1 in1 nearU1] at run
  refine ⟨_, run, ⟨?_, due_⟩, State.onDr_only (State.onDr_only only rfl) rfl⟩
  rw [dr_onDr_same (s := u.onDr _ _) (here'.trans_eq onDr_length.symm), dr_onDr_same here', dr_]
  rfl

theorem catch_does (whole : Whole s) (low : axis.val < 8) (due : s.due (.catchTime axis.val) = some d) (catching : (s.dr axis.val).restart = .catching)
    (unlocked : (s.dr axis.val).obsLocked = false)
    (slow : (s.dr axis.val).restarting = true → (s.dr axis.val).obsSpeed.natAbs < axNat s.force axis.val AXIS.OBS_MIN_SPEED) :
    Does (.catchTimeExpiry axis) s [.time, .drives, .timers] fun t =>
      t.time = { s.time with tick := max s.time.tick d } ∧ t.due (.catchTime axis.val) = none ∧
        t.dr axis.val = { s.dr axis.val with restart := .waiting } :=
  ⟨_, catch_waits due catching unlocked slow, ⟨rfl, State.due_stopT_same (s := s.reach d),
    dr_onDr_same (s := (s.reach d).stopT _) ((present whole).drives.symm ▸ low)⟩, State.onDr_only (Only.upd (Only.refl _ _) rfl expired_only) rfl⟩

theorem restartFailed_fault {a : Nat} (ok : MapOk s.regs) : Faulted (pgAxis a) 3 (s.restartFailed a) :=
  pfault_sets (rising_up.raise (Up.refl (s := s.onDr a fun x => { x with restart := .idle, restarting := false }) ok)).ok (by decide)

theorem restartFailed_dr {a : Nat} (here : a < s.drives.length) : (s.restartFailed a).dr a = { s.dr a with restart := .idle, restarting := false } :=
  (dr_only (State.pfault_only (State.raise_only (Only.refl [.regs, .axes, .safety, .trace, .log] _) rfl) rfl) (by decide)).trans (dr_onDr_same here)

theorem restartFailed_on {a : Nat} : (s.restartFailed a).srcOn srcRestart a = true :=
  (srcOn_only (State.pfault_only (Only.refl [.regs] _) rfl) (by decide)).trans raise_on

theorem restart_does (whole : Whole s) (low : axis.val < 8) (due : s.due (.restart axis.val) = some d) (restarting : (s.dr axis.val).restarting = true) :
    Does (.restartTimeout axis) s [.regs, .time, .axes, .drives, .safety, .trace, .log, .timers] fun t =>
      t.time = { s.time with tick := max s.time.tick d } ∧ t.dr axis.val = { s.dr axis.val with restart := .idle, restarting := false } ∧
        t.srcOn srcRestart axis.val = true ∧ bt (t.lv (pgAxis axis.val) pageFault) 3 = true := by
  have run := restart_fails due restarting
  have only : Only [.time, .timers] s ((s.reach d).stopT (.restart axis.val)) := expired_only
  have here : axis.val < ((s.reach d).stopT (.restart axis.val)).drives.length := (present (expired_whole whole)).drives.symm ▸ low
  have ok : MapOk ((s.reach d).stopT (.restart axis.val)).regs := whole.regs
  have tick : ((s.reach d).stopT (.restart axis.val)).time = { s.time with tick := max s.time.tick d } := rfl
  have same : ((s.reach d).stopT (.restart axis.val)).dr axis.val = s.dr axis.val := rfl
  generalize (s.reach d).stopT (.restart axis.val) = u at *
  exact ⟨_, run, ⟨(restartFailed_only .time (by decide)).trans tick, (restartFailed_dr here).trans (by rw [same]), restartFailed_on,
    (restartFailed_fault ok).2⟩, Only.upd (Only.upd (Only.refl _ _) rfl only) rfl restartFailed_only⟩

end

/-- Settles O35. -/
theorem currentSensing : Obligations.CurrentSensing := by
  unfold Obligations.CurrentSensing
  refine ⟨⟨fun ch code stamp s whole up enabled inService => ?_, fun ch s whole up enabled inService working => ?_⟩,
    ⟨fun axis s d x whole low due capturing one some0 => ?_, fun axis s x whole low up one over_ full on => ?_,
      fun axis s d x y whole low due two ready full0 full1 on => ?_⟩, fun axis s d whole low => ?_⟩
  · have conv : Converts s ch.val := ⟨up, enabled, inService⟩
    extract_lets n x taken
    have wholeT : Whole (s.adcTaken n stamp x) := adcTaken_whole whole
    have same (a : Nat) : (s.adcTaken n stamp x).dr a = s.dr a := dr_only adcTaken_only (by decide)
    have noted (f : DriveSt → DriveSt) (a : Nat) (lowN : n < 8) (of : senseAxis s.force n = some a) :
        ((s.adcTaken n stamp x).adcNoted n f).dr a = f (s.dr a) := by
      rw [adcNoted_dr wholeT lowN ((senseAxis_of_cfg (s := s) (adcTaken_only .cfg (by decide))).trans of), same]
    refine ⟨?_, ?_, fun notStream => ⟨fun good => ?_, fun bad working => ?_⟩⟩
    · rintro k (rfl | rfl)
      · by_cases stream : 8 ≤ n ∧ n < 16
        · have only : Only [.drives, .chans] (s.adcTaken n stamp x) (((s.adcTaken n stamp x).adcNoted n fun d => { d with sampA := some x }).adcBack n) :=
            State.adcBack_only (Only.upd (Only.refl _ _) rfl adcNoted_only) rfl
          have inService' : ((s.adcTaken n stamp x).adcNoted n fun d => { d with sampA := some x }).chRet 2 n = false :=
            (congrArg ChanSt.retired ((chan_only adcNoted_only (by decide)).trans (chan_only adcTaken_only (by decide)))).trans inService
          have wholeN : Whole ((s.adcTaken n stamp x).adcNoted n fun d => { d with sampA := some x }) := adcNoted_whole wholeT
          exact ⟨_, (sampleA_done conv rfl).trans (congrArg Host.Outcome.next (if_pos stream)),
            ⟨adcTaken_stays whole ch.isLt only (by decide) (by decide) (by decide), fun lowN => absurd stream.1 (by omega),
              fun a lowN _ => absurd stream.1 (by omega), fun _ _ _ => adcBack_retry wholeN inService'⟩,
            Only.upd (Only.upd (Only.refl _ _) rfl adcTaken_only) rfl only⟩
        · refine ⟨_, (sampleA_done conv rfl).trans (congrArg Host.Outcome.next (if_neg stream)),
            ⟨adcTaken_stays whole ch.isLt adcNoted_only (by decide) (by decide) (by decide),
              fun _ => (adcNoted_only .chans (by decide)).trans (adcTaken_only .chans (by decide)), fun a lowN of => noted _ a lowN of,
              fun above below _ => absurd ⟨above, below⟩ stream⟩, Only.upd (Only.upd (Only.refl _ _) rfl adcTaken_only) rfl adcNoted_only⟩
      · exact ⟨_, sampleB_done conv rfl,
          ⟨adcTaken_stays whole ch.isLt adcNoted_only (by decide) (by decide) (by decide),
            fun _ => (adcNoted_only .chans (by decide)).trans (adcTaken_only .chans (by decide)), fun a lowN of => noted _ a lowN of,
            fun _ _ => nofun⟩, Only.upd (Only.upd (Only.refl _ _) rfl adcTaken_only) rfl adcNoted_only⟩
    · have only : Only [.drives] (s.adcTaken n stamp x) ((s.adcTaken n stamp x).offsetSample n x.code stamp) := State.offsetSample_only (Only.refl _ _) rfl
      refine ⟨_, offset_done conv rfl, ⟨adcTaken_stays whole ch.isLt only (by decide) (by decide) (by decide), fun a of => ?_⟩,
        Only.upd (Only.upd (Only.refl _ _) rfl adcTaken_only) rfl only⟩
      have cfg : (s.adcTaken n stamp x).cfg = s.cfg := adcTaken_only .cfg (by decide)
      have epi : (s.adcTaken n stamp x).lv pgSched SCHED.EPI = s.lv pgSched SCHED.EPI :=
        (adcTaken_raw whole.regs ch.isLt _ _ (by decide)).trans (if_neg (by rintro ⟨page, -⟩; exact absurd page (by decide)))
      rw [offsetSample_dr wholeT ((senseAxis_of_cfg cfg).trans of), same, axSense_of_cfg cfg,
        offsetCounts_only adcTaken_only (by decide) (by decide) (by decide) (by decide) (by decide) epi]
    · exact ⟨_, (reference_done conv notStream).trans (congrArg Host.Outcome.next (if_neg (by omega))),
        adcBack_retry ((State.reach_kept (Kept.refl s)).whole whole) inService, State.adcBack_only (State.reach_only (Only.refl _ _) rfl) rfl⟩
    · obtain ⟨shows, counts⟩ := adcFault_counts (s := s.reach stamp) (n := n) ((State.reach_kept (Kept.refl s)).whole whole) ch.isLt inService
      exact ⟨_, (reference_done conv notStream).trans (congrArg Host.Outcome.next ((if_pos bad).trans (if_neg (Bool.eq_false_iff.mp working)))),
        ⟨shows, CountsOnset.of counts rfl rfl⟩, State.adcFault_only (State.reach_only (Only.refl _ _) rfl) rfl⟩
  · have run : exec (.sdStreamStall ch) s = .next (s.adcFault (8 + ch.val)) := if_neg (by simp [up, enabled, inService, working])
    exact ⟨_, run, adcFault_counts whole (by omega) inService, State.adcFault_only (Only.refl _ _) rfl⟩
  · exact captureDone_does whole low due capturing one some0
  · exact offsetUpdate_does whole low up one over_ full on
  · exact fun in0 in1 near0 near1 => sdRefresh_does whole low due two ready full0 full1 on rfl rfl in0 in1 near0 near1
  · exact ⟨catch_does whole low, restart_does whole low⟩

end Sys2Proof.Machine
end


section

/-! PROOF. The common fault bit and the supply of the field I/O (R314, R316). -/

namespace Sys2Proof.Machine

open Sys2Proof.Safety Sys2Proof.Claims

/-! The common fault bit. -/

section

variable {s t u : State} {i n src b : Nat} {P : State → Prop} {f v : Bool}

/-- Nothing that FLT is judged from has changed. -/
theorem fltNow_only {fs : List Part} (h : Only fs s t) (cfg : .cfg ∉ fs) (dis : .dis ∉ fs) (dos : .dos ∉ fs) (time : .time ∉ fs)
    (field : t.field = { s.field with flt := f }) : t.fltNow = s.fltNow := by
  have fo (n : Nat) : t.fo n = s.fo n := by rw [State.fo, h .dos dos]; rfl
  have di (n : Nat) : t.di n = s.di n := by rw [State.di, h .dis dis]; rfl
  have wires (i : Nat) : openEn t.force i = openEn s.force i :=
    congrArg (bt · 5) (force_staged (h .cfg cfg) (by simp only [FIO.DI_CFG]; omega))
  simp only [State.fltNow, State.outJudged, State.inValid, State.msPast, field, fo, di, wires, now_only h time]

/-- FLT as it is judged. -/
def State.fltSet (s : State) : State := s.onField fun x => { x with flt := s.fltNow }

theorem judgeFlt_eq : s.judgeFlt = if s.fltNow && !s.field.flt then ((s.fltSet.event pgFio 1).pfault pgFio 1).raise srcFio 16
    else if s.field.flt && !s.fltNow then s.fltSet.clearSrc srcFio 16 else s.fltSet := rfl

theorem fltSet_only : Only [.field] s s.fltSet := State.onField_only (Only.refl _ _) rfl

theorem judgeFlt_rest : Only [.regs, .axes, .safety, .trace, .log] s.fltSet s.judgeFlt := by
  rw [judgeFlt_eq]
  exact only_ite (State.raise_only (State.pfault_only (State.event_only (Only.refl _ _) rfl) rfl) rfl)
    (only_ite (State.clearSrc_only (Only.refl _ _) rfl) (Only.refl _ _))

theorem judgeFlt_field : s.judgeFlt.field = { s.field with flt := s.fltNow } := judgeFlt_rest .field (by decide)

theorem judgeFlt_rises (rise : Rising P) (h : P s) : P s.judgeFlt := by
  have set : P s.fltSet := rise.only fltSet_only (by decide) h
  rw [judgeFlt_eq]
  split
  · exact rise.raise (rise.fault (rise.event set))
  · split
    · exact rise.clearSrc set
    · exact set

theorem judgeFlt_other (n : src ≠ srcFio) : s.judgeFlt.srcOn src b = s.srcOn src b := by
  have other : (src, b) ≠ (srcFio, 16) := fun e => n (congrArg Prod.fst e)
  have set : s.fltSet.srcOn src b = s.srcOn src b := rfl
  rw [judgeFlt_eq]
  split
  · exact (raise_other other).trans ((srcOn_only (State.pfault_only (State.event_only (Only.refl [.regs, .trace] _) rfl) rfl) (by decide)).trans set)
  · split
    · exact (clearSrc_ne other).trans set
    · exact set

theorem judgeFlt_safety {Q : SafetySt → Prop} (out : OutlivesSources Q) (h : Q s.safety) : Q s.judgeFlt.safety := by
  have set : Q s.fltSet.safety := h
  rw [judgeFlt_eq]
  split
  · refine raise_safety out ?_
    rw [State.pfault_only (State.event_only (Only.refl [.regs, .trace] s.fltSet) rfl) rfl .safety (by decide)]
    exact set
  · split
    · exact clearSrc_safety out set
    · exact set

theorem judgeFlt_now : s.judgeFlt.fltNow = s.fltNow :=
  fltNow_only (Only.upd (Only.upd (Only.refl [.field, .regs, .axes, .safety, .trace, .log] _) rfl fltSet_only) rfl judgeFlt_rest) (by decide) (by decide)
    (by decide) (by decide) judgeFlt_field

/-- FLT is what the conditions give, and its rise and fall begin and end FIO_FAULT (R316). -/
theorem judgeFlt_judged (ok : MapOk s.regs) : FaultJudged s s.judgeFlt := by
  have field : s.judgeFlt.field.flt = s.fltNow := congrArg FieldSt.flt judgeFlt_field
  refine ⟨field.trans judgeFlt_now.symm, fun off on => ?_, fun on off => ?_⟩
  · rw [judgeFlt_eq, if_pos (by rw [← field, on, off]; rfl)]
    obtain ⟨up, flagged⟩ := event_flags (s := s.fltSet) (p := pgFio) (bits := 1) (i := 0) ok (by decide)
    generalize s.fltSet.event pgFio 1 = u at *
    exact ⟨raise_on, (rising_up.raise (rising_up.fault (Up.refl up.ok))).bits _ _ flagged⟩
  · rw [judgeFlt_eq, if_neg (by rw [← field, on, off]; decide), if_pos (by rw [← field, on, off]; rfl)]
    exact clearSrc_off

/-- What is judged of the state that a command leaves is judged of the state before it, where it leaves FLT. -/
theorem FaultJudged.of (h : FaultJudged u t) (same : u.field.flt = s.field.flt) : FaultJudged s t := by
  unfold FaultJudged at *
  rw [← same]
  exact h

/-! The field supply. -/

/-- VSAG as it is reported. -/
def State.sagNoted (s : State) (v : Bool) : State := s.onField fun f => { f with sag := v }

theorem sagSet_eq : s.sagSet v = if v == s.field.sag then s
    else if v then (((s.sagNoted v).event pgFio 2).pfault pgFio 2).raise srcVfSag 16 else (s.sagNoted v).clearSrc srcVfSag 16 := rfl

theorem sagSet_field : (s.sagSet v).field = { s.field with sag := v } := by
  rw [sagSet_eq]
  split
  · next same =>
    rw [eq_of_beq same]
  · have noted : (s.sagNoted v).field = { s.field with sag := v } := rfl
    split
    · exact (State.raise_only (State.pfault_only (State.event_only (Only.refl [.regs, .axes, .safety, .trace, .log] (s.sagNoted v)) rfl) rfl) rfl .field
        (by decide)).trans noted
    · exact noted

theorem sagSet_rises (rise : Rising P) (h : P s) : P (s.sagSet v) := by
  have noted : P (s.sagNoted v) := rise.same h rfl
  rw [sagSet_eq]
  split
  · exact h
  · split
    · exact rise.raise (rise.fault (rise.event noted))
    · exact rise.clearSrc noted

theorem sagSet_safety {Q : SafetySt → Prop} (out : OutlivesSources Q) (h : Q s.safety) : Q (s.sagSet v).safety := by
  have noted : Q (s.sagNoted v).safety := h
  rw [sagSet_eq]
  split
  · exact h
  · split
    · refine raise_safety out ?_
      rw [State.pfault_only (State.event_only (Only.refl [.regs, .trace] (s.sagNoted v)) rfl) rfl .safety (by decide)]
      exact noted
    · exact clearSrc_safety out noted

/-- A sag that begins (R314). -/
theorem sagSet_begins (ok : MapOk s.regs) (off : s.field.sag = false) :
    (s.sagSet true).srcOn srcVfSag 16 = true ∧ Faulted pgFio 1 (s.sagSet true) ∧ Flagged (s.sagSet true) pgFio 1 := by
  rw [sagSet_eq, off, if_neg (by decide), if_pos rfl]
  obtain ⟨up, flagged⟩ := event_flags (s := s.sagNoted true) (p := pgFio) (bits := 2) (i := 1) ok (by decide)
  generalize (s.sagNoted true).event pgFio 2 = u at *
  exact ⟨raise_on, rising_faulted.raise (pfault_sets up.ok (by decide)), (rising_up.raise (rising_up.fault (Up.refl up.ok))).bits _ _ flagged⟩

theorem sagSet_ends (on : s.field.sag = true) : (s.sagSet false).srcOn srcVfSag 16 = false := by
  rw [sagSet_eq, on, if_neg (by decide), if_neg (by decide)]
  exact clearSrc_off

/-! Inputs. -/

theorem di_only {fs : List Part} (h : Only fs s t) (out : .dis ∉ fs) : t.di i = s.di i := by
  rw [State.di, h .dis out]
  rfl

theorem onDi_length {g : DiSt → DiSt} : (s.onDi i g).dis.length = s.dis.length := List.length_modify ..

/-- An update of every input is one of each (R309). -/
theorem forN_onDi {g : DiSt → DiSt} (whole : Whole s) (low : i < 16) : (forN 16 (fun j s => s.onDi j g) s).di i = g (s.di i) := by
  refine forN_once (I := fun t => t.di i = s.di i ∧ i < t.dis.length) (P := fun t => t.di i = g (s.di i)) low (fun j t n h => ?_) (fun t h => ?_)
    (fun j t n h => ?_) ⟨rfl, (present whole).dis.symm ▸ low⟩
  · exact ⟨(getD_modify_ne n).trans h.1, h.2.trans_eq onDi_length.symm⟩
  · rw [di_onDi_same h.2, h.1]
  · exact (getD_modify_ne n).trans h

theorem inputsLost_di (whole : Whole s) (low : i < 16) : s.inputsLost.di i = { s.di i with cnt := 0, stale := true } := forN_onDi whole low

/-- VOK as it is reported. -/
def State.cutNoted (s : State) (v : Bool) : State := s.onField fun f => { f with cut := v, outSince := s.now }

/-- The field supply is cut: the source is raised. -/
def State.cutBegun (s : State) (v : Bool) : State := (((s.cutNoted v).event pgFio 4).pfault pgFio 4).raise srcVfCut 16

theorem cutSet_eq : s.cutSet v = if v == s.field.cut then s
    else if v then (s.cutBegun v).inputsLost else ((s.cutNoted v).event pgFio 8).clearSrc srcVfCut 16 := rfl

theorem cutBegun_only : Only [.regs, .axes, .safety, .trace, .log] (s.cutNoted v) (s.cutBegun v) :=
  State.raise_only (State.pfault_only (State.event_only (Only.refl _ _) rfl) rfl) rfl

theorem cutSet_field : (s.cutSet v).field = { s.field with cut := v, outSince := if v = s.field.cut then s.field.outSince else s.now } := by
  rw [cutSet_eq]
  split
  · next same =>
    rw [eq_of_beq same, if_pos rfl]
  · next changed =>
    rw [if_neg fun e => changed (beq_iff_eq.mpr e)]
    have noted : (s.cutNoted v).field = { s.field with cut := v, outSince := s.now } := rfl
    split
    · have begun : (s.cutBegun v).field = (s.cutNoted v).field := cutBegun_only .field (by decide)
      have lost : (s.cutBegun v).inputsLost.field = (s.cutBegun v).field := State.inputsLost_only (Only.refl [.dis] _) rfl .field (by decide)
      rw [lost, begun, noted]
    · have ended : (((s.cutNoted v).event pgFio 8).clearSrc srcVfCut 16).field = (s.cutNoted v).field :=
        State.clearSrc_only (State.event_only (Only.refl [.regs, .trace, .safety] (s.cutNoted v)) rfl) rfl .field (by decide)
      rw [ended, noted]

theorem cutSet_rises (rise : Rising P) (h : P s) : P (s.cutSet v) := by
  rw [cutSet_eq]
  split
  · exact h
  · split
    · exact rise.only (State.inputsLost_only (Only.refl [.dis] _) rfl) (by decide) (rise.raise (rise.fault (rise.event (rise.same h rfl))))
    · exact rise.clearSrc (rise.event (rise.same h rfl))

theorem cutSet_safety {Q : SafetySt → Prop} (out : OutlivesSources Q) (h : Q s.safety) : Q (s.cutSet v).safety := by
  rw [cutSet_eq]
  split
  · exact h
  · split
    · rw [State.inputsLost_only (Only.refl [.dis] _) rfl .safety (by decide)]
      refine raise_safety out ?_
      rw [State.pfault_only (State.event_only (Only.refl [.regs, .trace] (s.cutNoted v)) rfl) rfl .safety (by decide)]
      exact h
    · refine clearSrc_safety out ?_
      rw [State.event_only (Only.refl [.regs, .trace] (s.cutNoted v)) rfl .safety (by decide)]
      exact h

theorem cutBegun_kept (whole : Whole s) : Whole (s.cutBegun v) :=
  (State.raise_kept (State.pfault_kept (State.event_kept (State.onField_kept (Kept.refl s))))).whole whole

/-- What the supply leaves of an input: a cut that begins makes it stale (R309, R314). -/
theorem cutSet_di (whole : Whole s) (low : i < 16) : (s.cutSet v).di i =
    if v = true ∧ s.field.cut = false then { s.di i with cnt := 0, stale := true } else s.di i := by
  rw [cutSet_eq]
  split
  · next same =>
    rw [if_neg]
    rintro ⟨on, off⟩
    exact absurd ((eq_of_beq same).symm.trans on) (by rw [off]; decide)
  · next changed =>
    split
    · next on =>
      have off : s.field.cut = false := by
        subst on
        exact Bool.eq_false_iff.mpr fun e => changed (beq_iff_eq.mpr e.symm)
      rw [if_pos ⟨on, off⟩, inputsLost_di (cutBegun_kept whole) low, di_only cutBegun_only (by decide)]
      rfl
    · next off =>
      rw [if_neg fun h => off h.1]
      exact di_only (s := s.cutNoted v) (fs := [.regs, .trace, .safety]) (State.clearSrc_only (State.event_only (Only.refl _ _) rfl) rfl) (by decide)

/-- A cut that begins (R314). -/
theorem cutSet_begins (ok : MapOk s.regs) (off : s.field.cut = false) :
    (s.cutSet true).srcOn srcVfCut 16 = true ∧ Faulted pgFio 2 (s.cutSet true) ∧ Flagged (s.cutSet true) pgFio 2 := by
  rw [cutSet_eq, off, if_neg (by decide), if_pos rfl]
  have lost : Only [.dis] (s.cutBegun true) (s.cutBegun true).inputsLost := State.inputsLost_only (Only.refl _ _) rfl
  obtain ⟨up, flagged⟩ := event_flags (s := s.cutNoted true) (p := pgFio) (bits := 4) (i := 2) ok (by decide)
  refine ⟨(srcOn_only lost (by decide)).trans raise_on, rising_faulted.only lost (by decide) ?_, flagged_of_regs ?_ (lost .regs (by decide))⟩
  · exact rising_faulted.raise (pfault_sets up.ok (by decide))
  · exact (rising_up.raise (rising_up.fault (Up.refl up.ok))).bits _ _ flagged

theorem cutSet_ends (ok : MapOk s.regs) (on : s.field.cut = true) : (s.cutSet false).srcOn srcVfCut 16 = false ∧ Flagged (s.cutSet false) pgFio 3 := by
  rw [cutSet_eq, on, if_neg (by decide), if_neg (by decide)]
  exact ⟨clearSrc_off, (event_flags (s := s.cutNoted false) (p := pgFio) (bits := 8) (i := 3) ok (by decide)).2⟩

end

end Sys2Proof.Machine
end


section

/-! PROOF. FLINK frames, the loss of the link and its recovery (R28, R29, R286, R306, R308, R309, R316). -/

namespace Sys2Proof.Machine

open Sys2Proof.Safety Sys2Proof.Claims

section

variable {s t : State} {i n T : Nat} {b : Bool} {P : State → Prop}

/-! A demand from STOIN leaves the sources and the live registers of others. -/

theorem stoDemandNow_rises (rise : Rising P) (rescue : OutlivesRescue P) (count : ∀ t v, P t → P (t.setLv pgSafe SAFE.STO_COUNT v)) (h : P s) :
    P s.stoDemandNow := by
  have set : P s.stoSet := by
    unfold State.stoSet
    extract_lets demanded stopped
    exact rise.clearSrc (rise.noteSrc (rise.clearSrc (rise.same h rfl)))
  have noted : P s.stoNoted := count _ _ (rise.event set)
  rw [stoDemandNow_eq]
  exact rise.only (State.readback_only (Only.refl [.timers] _) rfl) (by decide) (stoRescue_rises rise rescue (rise.only stoAll_only (by decide) noted))

theorem stoDemandNow_keeps {src : Nat} (sto : src ≠ srcSto) (test : src ≠ srcStoTest) (h : s.srcOn src 16 = true) : s.stoDemandNow.srcOn src 16 = true := by
  have set : s.stoSet.srcOn src 16 = true := by
    unfold State.stoSet
    extract_lets demanded stopped
    rw [clearSrc_ne fun e => test (congrArg Prod.fst e)]
    exact noteSrc_keeps ((clearSrc_ne fun e => sto (congrArg Prod.fst e)).trans h)
  have all : s.stoNoted.stoAll.srcOn src 16 = true :=
    (srcOn_only stoAll_only (by decide)).trans ((srcOn_only stoNoted_rest (by decide)).trans set)
  rw [stoDemandNow_eq]
  exact (srcOn_only (State.readback_only (Only.refl [.timers] _) rfl) (by decide)).trans
    (stoRescue_ind (P := fun t => t.srcOn src 16 = true) all (rescueStops_keeps all))

/-! STOIN as a frame carries it. -/

/-- STOIN is heard low, or healthy at tick T. -/
def State.stoinHeard (s : State) (T : Nat) (low : Bool) : State :=
  if low then (if s.field.sto && s.safety.stoActive then s else s.stoDemandNow) else s.stoHealthy T

theorem stoinHeard_only : Only [.regs, .axes, .mots, .legs, .rescue, .field, .safety, .trace, .log, .timers] s (s.stoinHeard T b) :=
  only_ite (only_ite (Only.refl _ _) (State.stoDemandNow_only (Only.refl _ _) rfl)) (State.stoHealthy_only (Only.refl _ _) rfl)

theorem stoinHeard_whole (whole : Whole s) : Whole (s.stoinHeard T b) := by
  unfold State.stoinHeard
  split
  · split
    · exact whole
    · exact (State.stoDemandNow_kept (Kept.refl s)).whole whole
  · exact (State.stoHealthy_kept (Kept.refl s)).whole whole

theorem stoinHeard_low (whole : Whole s) : (s.stoinHeard T true).field = { s.field with sto := true } ∧ (s.stoinHeard T true).safety.stoActive = true := by
  unfold State.stoinHeard
  rw [if_pos rfl]
  split
  · next already =>
    obtain ⟨low, active⟩ := Bool.and_eq_true_iff.mp already
    refine ⟨?_, active⟩
    rw [← low]
  · obtain ⟨⟨active, -, -⟩, field, -⟩ := stoDemandNow_leaves whole
    exact ⟨field, active⟩

theorem stoHealthy_field : (s.stoHealthy T).field = { s.field with sto := false } := by
  unfold State.stoHealthy
  extract_lets healthy
  split <;> rfl

theorem stoHealthy_due (active : s.safety.stoActive = true) (since : s.safety.stoHealthySince = none) :
    (s.stoHealthy T).due .stoRelease = some (T + msT 10) := by
  unfold State.stoHealthy
  extract_lets healthy
  rw [if_pos ⟨active, since⟩]
  exact State.due_startT_same

theorem stoinHeard_field (whole : Whole s) : (s.stoinHeard T b).field = { s.field with sto := b } := by
  cases b with
  | true => exact (stoinHeard_low whole).1
  | false => exact stoHealthy_field

/-! Inputs as a frame carries them. -/

/-- A sample of an input (R308). -/
theorem diSample_di (here : i < s.dis.length) : ((s.diSample T i b).di i).level = (s.di i).level ∧ ((s.diSample T i b).di i).raw = b ∧
    ((s.diSample T i b).di i).cnt = if b = (s.di i).level ∧ (s.di i).stale = false then 0
      else if (s.di i).cnt ≠ 0 ∧ (s.di i).raw = b then (s.di i).cnt + 1 else 1 := by
  unfold State.diSample
  extract_lets d run noted
  have noted_ : noted.di i = { d with
      raw := b, cnt := if b == d.level && !d.stale then 0 else if run then d.cnt + 1 else 1, first := if run then d.first else T } := di_onDi_same here
  have di : State.di (if b != d.level && !run then noted.latchDiSeen i T else noted) i = noted.di i :=
    di_only (only_ite (State.latchDiSeen_only (Only.refl [.latches] noted) rfl) (Only.refl _ _)) (by decide)
  rw [di, noted_]
  refine ⟨rfl, rfl, ?_⟩
  simp [run, d]

theorem diSample_ne {j : Nat} (n : j ≠ i) : (s.diSample T j b).di i = s.di i := by
  unfold State.diSample
  extract_lets d run noted
  have noted_ : noted.di i = s.di i := getD_modify_ne n
  exact (di_only (only_ite (State.latchDiSeen_only (Only.refl [.latches] noted) rfl) (Only.refl _ _)) (by decide)).trans noted_

theorem diSample_length {j : Nat} : (s.diSample T j b).dis.length = s.dis.length := by
  unfold State.diSample
  extract_lets d run noted
  have noted_ : noted.dis.length = s.dis.length := onDi_length
  exact (congrArg List.length (only_ite (State.latchDiSeen_only (Only.refl [.latches] noted) rfl) (Only.refl _ _) .dis (by decide))).trans noted_

/-- The samples of a frame. -/
def State.diSamples (s : State) (T : Nat) (f : BitVec 25) : State := forN 16 (fun i s => s.diSample T i (f.getLsbD (6 + i))) s

theorem diSamples_only {f : BitVec 25} : Only [.latches, .dis] s (s.diSamples T f) :=
  forN_only (fun _ _ h => State.diSample_only h rfl) (Only.refl _ _)

theorem diSamples_di {f : BitVec 25} (whole : Whole s) (low : i < 16) : ((s.diSamples T f).di i).level = (s.di i).level ∧
    ((s.diSamples T f).di i).raw = f.getLsbD (6 + i) ∧
    ((s.diSamples T f).di i).cnt = if f.getLsbD (6 + i) = (s.di i).level ∧ (s.di i).stale = false then 0
      else if (s.di i).cnt ≠ 0 ∧ (s.di i).raw = f.getLsbD (6 + i) then (s.di i).cnt + 1 else 1 := by
  refine forN_once (I := fun t => t.di i = s.di i ∧ i < t.dis.length) (P := fun t => (t.di i).level = (s.di i).level ∧ (t.di i).raw = f.getLsbD (6 + i) ∧
      (t.di i).cnt = if f.getLsbD (6 + i) = (s.di i).level ∧ (s.di i).stale = false then 0
        else if (s.di i).cnt ≠ 0 ∧ (s.di i).raw = f.getLsbD (6 + i) then (s.di i).cnt + 1 else 1) low (fun j t n h => ?_) (fun t h => ?_)
    (fun j t n h => ?_) ⟨rfl, (present whole).dis.symm ▸ low⟩
  · exact ⟨(diSample_ne n).trans h.1, h.2.trans_eq diSample_length.symm⟩
  · rw [← h.1]
    exact diSample_di h.2
  · rw [diSample_ne n]
    exact h

/-! An uplink frame. -/

/-- An uplink frame has come at tick T. -/
def State.uplinkAt (s : State) (T : Nat) : State := (s.reach T).onField fun f => { f with lastUp := T }

/-- What a good frame brings of STOIN and of the supply. -/
def State.uplinkHeard (s : State) (T : Nat) (f : BitVec 25) : State := ((s.stoinHeard T (f.getLsbD 23)).cutSet (!f.getLsbD 22)).sagSet (f.getLsbD 5)

/-- Its samples, where the inputs are valid. -/
def State.uplinkSampled (s : State) (T : Nat) (f : BitVec 25) : State := if s.inValid then s.diSamples T f else s

theorem uplinkFrame_eq {f : BitVec 25} : s.uplinkFrame T f = ((s.uplinkHeard T f).uplinkSampled T f).judgeFlt := rfl

theorem uplinkHeard_field {f : BitVec 25} (whole : Whole s) : ∃ since, (s.uplinkHeard T f).field =
    { s.field with sto := f.getLsbD 23, cut := !f.getLsbD 22, sag := f.getLsbD 5, outSince := since } := by
  unfold State.uplinkHeard
  rw [sagSet_field, cutSet_field, stoinHeard_field whole]
  exact ⟨_, rfl⟩

theorem uplinkHeard_whole {f : BitVec 25} (whole : Whole s) : Whole (s.uplinkHeard T f) :=
  (State.sagSet_kept (State.cutSet_kept (Kept.refl _))).whole (stoinHeard_whole whole)

theorem uplinkHeard_active {f : BitVec 25} (whole : Whole s) (low : f.getLsbD 23 = true) : (s.uplinkHeard T f).safety.stoActive = true := by
  unfold State.uplinkHeard
  rw [low]
  have out : OutlivesSources fun x => x.stoActive = true := fun _ _ _ h => h
  exact sagSet_safety out (cutSet_safety out (stoinHeard_low whole).2)

theorem uplinkHeard_due {f : BitVec 25} (healthy : f.getLsbD 23 = false) (active : s.safety.stoActive = true) (since : s.safety.stoHealthySince = none) :
    (s.uplinkHeard T f).due .stoRelease = some (T + msT 10) := by
  unfold State.uplinkHeard
  rw [healthy, due_only (State.sagSet_only (State.cutSet_only (Only.refl [.regs, .axes, .dis, .field, .safety, .trace, .log] _) rfl) rfl) (by decide)]
  exact stoHealthy_due active since

theorem uplinkHeard_di {f : BitVec 25} (whole : Whole s) (low : i < 16) : (s.uplinkHeard T f).di i =
    if f.getLsbD 22 = false ∧ s.field.cut = false then { s.di i with cnt := 0, stale := true } else s.di i := by
  have heard : Only [.regs, .axes, .mots, .legs, .rescue, .field, .safety, .trace, .log, .timers] s (s.stoinHeard T (f.getLsbD 23)) := stoinHeard_only
  have field : (s.stoinHeard T (f.getLsbD 23)).field = { s.field with sto := f.getLsbD 23 } := stoinHeard_field whole
  unfold State.uplinkHeard
  rw [di_only (State.sagSet_only (Only.refl [.regs, .axes, .field, .safety, .trace, .log] _) rfl) (by decide), cutSet_di (stoinHeard_whole whole) low,
    di_only heard (by decide), field]
  simp only [Bool.not_eq_true']

/-- The parts that the judgement of FLT may change. -/
abbrev judgedParts : List Part := [.regs, .axes, .field, .safety, .trace, .log]

/-- What a good uplink frame leaves (R286, R308, R314, R316). -/
theorem uplinkFrame_leaves {f : BitVec 25} (whole : Whole s) (up : s.field.flinkUp = true) :
    let t := s.uplinkFrame T f
    t.field.lastUp = s.field.lastUp ∧ FaultJudged s t ∧ t.field.sag = f.getLsbD 5 ∧ t.field.cut = !f.getLsbD 22 ∧ t.field.sto = f.getLsbD 23 ∧
      (f.getLsbD 23 = true → t.safety.stoActive = true) ∧
      (f.getLsbD 23 = false → s.safety.stoActive = true → s.safety.stoHealthySince = none → t.due .stoRelease = some (T + msT 10)) ∧
      ∀ i < 16, (t.di i).level = (s.di i).level ∧
        (f.getLsbD 22 = true → (t.di i).raw = f.getLsbD (6 + i) ∧ (t.di i).cnt =
          if f.getLsbD (6 + i) = (s.di i).level ∧ (s.di i).stale = false then 0
          else if (s.di i).cnt ≠ 0 ∧ (s.di i).raw = f.getLsbD (6 + i) then (s.di i).cnt + 1 else 1) ∧
        (f.getLsbD 22 = false → (t.di i).raw = (s.di i).raw ∧ (s.field.cut = false → (t.di i).stale = true ∧ (t.di i).cnt = 0)) := by
  obtain ⟨since, field⟩ := uplinkHeard_field (T := T) (f := f) whole
  have wholeU : Whole (s.uplinkHeard T f) := uplinkHeard_whole whole
  have active := uplinkHeard_active (T := T) (f := f) whole
  have due := uplinkHeard_due (s := s) (T := T) (f := f)
  have di (i : Nat) (low : i < 16) := uplinkHeard_di (T := T) (f := f) whole low
  rw [uplinkFrame_eq]
  generalize s.uplinkHeard T f = u at *
  have sampled : Only [.latches, .dis] u (u.uplinkSampled T f) := only_ite diSamples_only (Only.refl _ _)
  have fieldV : (u.uplinkSampled T f).field = u.field := sampled .field (by decide)
  have valid : u.inValid = f.getLsbD 22 := by
    rw [State.inValid, field]
    simp [up]
  have okV : MapOk (u.uplinkSampled T f).regs := by
    rw [sampled .regs (by decide)]
    exact wholeU.regs
  have judged : FaultJudged s (u.uplinkSampled T f).judgeFlt := FaultJudged.of (judgeFlt_judged okV) (by rw [fieldV, field])
  have last : Only judgedParts (u.uplinkSampled T f) (u.uplinkSampled T f).judgeFlt := State.judgeFlt_only (Only.refl _ _) rfl
  have fieldT : (u.uplinkSampled T f).judgeFlt.field = { u.field with flt := (u.uplinkSampled T f).fltNow } := by
    rw [judgeFlt_field, fieldV]
  refine ⟨by rw [fieldT, field], judged, by rw [fieldT, field], by rw [fieldT, field], by rw [fieldT, field], fun low => ?_, fun healthy act none_ => ?_,
    fun i low => ?_⟩
  · refine judgeFlt_safety (Q := fun x => x.stoActive = true) (fun _ _ _ h => h) ?_
    rw [sampled .safety (by decide)]
    exact active low
  · exact (due_only last (by decide)).trans ((due_only sampled (by decide)).trans (due healthy act none_))
  · rw [di_only last (by decide), State.uplinkSampled, valid]
    have before := di i low
    cases heard : f.getLsbD 22 with
    | true =>
      rw [if_neg (by rw [heard]; rintro ⟨no, -⟩; exact absurd no (by decide))] at before
      rw [if_pos rfl, ← before]
      obtain ⟨level, raw, cnt⟩ := diSamples_di (T := T) (f := f) wholeU low
      exact ⟨level, fun _ => ⟨raw, cnt⟩, nofun⟩
    | false =>
      rw [if_neg (by decide), before, heard]
      split
      · exact ⟨rfl, nofun, fun _ => ⟨rfl, fun _ => ⟨rfl, rfl⟩⟩⟩
      · next already => exact ⟨rfl, nofun, fun _ => ⟨rfl, fun off => absurd ⟨rfl, off⟩ already⟩⟩

/-! A downlink frame. -/

/-- A downlink frame goes out at tick T. -/
def State.downlinkAt (s : State) (T : Nat) : State := (s.reach T).onField fun f => { f with lastDn := T }

/-- The bit of output n in it. -/
def State.foSent (s : State) (T n : Nat) : State :=
  let b := s.doBit n
  s.onFo n fun o => if o.sent == b then o else { o with sent := b, change := T, lowRun := 0 }

/-- Every output's bit. -/
def State.foAll (s : State) (T : Nat) : State := forN 8 (fun n s => s.foSent T n) s

theorem downlink_runs (linked : s.linked = true) (eq : T = max (s.field.lastDn + 250) (s.now / 250 * 250)) :
    exec .flinkDownlinkFrame s = .next ((s.downlinkAt T).foAll T).judgeFlt := by
  subst eq
  exact if_neg (by simp [linked])

theorem foAll_only : Only [.dos] s (s.foAll T) := forN_only (fun _ _ h => State.onFo_only h rfl) (Only.refl _ _)

/-- An output's bit depends on nothing of the other outputs (R311). -/
theorem doBit_of_dos {l : List DoSt} (same : ({ s with dos := l } : State).fo n = s.fo n) : ({ s with dos := l } : State).doBit n = s.doBit n := by
  have claim : ({ s with dos := l } : State).doClaim n = s.doClaim n := rfl
  have cf : ({ s with dos := l } : State).cf pgFio FIO.DO_CFG = s.cf pgFio FIO.DO_CFG := rfl
  have lv : ({ s with dos := l } : State).lv pgFio FIO.DO_CMD = s.lv pgFio FIO.DO_CMD := rfl
  rw [State.doBit, State.doBit, same, claim, cf, lv]

/-- Every output takes its bit as the frame finds it. -/
theorem foAll_fo (whole : Whole s) (low : n < 8) : (s.foAll T).fo n =
    if (s.fo n).sent = s.doBit n then s.fo n else { s.fo n with sent := s.doBit n, change := T, lowRun := 0 } := by
  refine forN_once (I := fun t => (∃ l, t = { s with dos := l }) ∧ t.fo n = s.fo n ∧ n < t.dos.length) (P := fun t => t.fo n =
      if (s.fo n).sent = s.doBit n then s.fo n else { s.fo n with sent := s.doBit n, change := T, lowRun := 0 }) low (fun j t other h => ?_)
    (fun t h => ?_) (fun j t other h => ?_) ⟨⟨s.dos, rfl⟩, rfl, (present whole).dos.symm ▸ low⟩
  · obtain ⟨⟨l, rfl⟩, same, here⟩ := h
    exact ⟨⟨_, rfl⟩, (getD_modify_ne other).trans same, here.trans_eq (List.length_modify ..).symm⟩
  · obtain ⟨⟨l, rfl⟩, same, here⟩ := h
    unfold State.foSent
    rw [fo_onFo_same here, same, doBit_of_dos same]
    simp only [beq_iff_eq]
  · exact (getD_modify_ne other).trans h

/-! The loss of the link, and its recovery. -/

/-- The link is down: its words are gone, the outputs are off. -/
def State.flinkDown (s : State) : State := s.onField fun f => { f with
  flinkUp := false, recoverCnt := 0, dnLast := none, dnApplied := none, outSince := s.now }

/-- The loss of the link is raised. -/
def State.flinkRaised (s : State) : State := ((s.event pgFio 16).pfault pgFio 8).raise srcFlink 16

/-- The wires of the inputs are watched no more. -/
def State.wiresLeft (s : State) : State := forN 16 (fun i s => s.onDi i fun d => { d with wire := false }) s

/-- A STOIN that is not heard is a demand. -/
def State.stoinLost (s : State) : State := if s.field.sto && s.safety.stoActive then s else s.stoDemandNow

theorem flinkLost_runs (linked : s.linked = true) (up : s.field.flinkUp = true) :
    exec .flinkLost s = .next ((s.reach (s.field.lastUp + 1000)).flinkDown.flinkRaised.inputsLost.wiresLeft.stoinLost).judgeFlt :=
  if_neg (by simp [linked, up])

theorem flinkRaised_only : Only [.regs, .axes, .safety, .trace, .log] s s.flinkRaised :=
  State.raise_only (State.pfault_only (State.event_only (Only.refl _ _) rfl) rfl) rfl

theorem wiresLeft_only : Only [.dis] s s.wiresLeft := forN_only (fun _ _ h => State.onDi_only h rfl) (Only.refl _ _)

theorem stoinLost_leaves (whole : Whole s) : s.stoinLost.field = { s.field with sto := true } ∧ s.stoinLost.safety.stoActive = true :=
  stoinHeard_low (T := 0) whole

theorem stoinLost_only : Only [.regs, .axes, .mots, .legs, .rescue, .field, .safety, .trace, .log, .timers] s s.stoinLost :=
  stoinHeard_only (T := 0) (b := true)

/-- Event 4 and fault bit 3 of the field I/O show a loss of the link, and its source is on. -/
structure FlinkOut (t : State) : Prop where
  on : t.srcOn srcFlink 16 = true
  fault : Faulted pgFio 3 t
  event : ∃ u, Up u t ∧ Flagged u pgFio 4

theorem flinkRaised_lost (ok : MapOk s.regs) : FlinkOut s.flinkRaised := by
  obtain ⟨up, flagged⟩ := event_flags (p := pgFio) (bits := 16) (i := 4) ok (by decide)
  unfold State.flinkRaised
  generalize s.event pgFio 16 = u at *
  exact ⟨raise_on, rising_faulted.raise (pfault_sets up.ok (by decide)), u, rising_up.raise (rising_up.fault (Up.refl up.ok)), flagged⟩

theorem FlinkOut.only {fs : List Part} (h : FlinkOut s) (only : Only fs s t) (regs : .regs ∉ fs) (safety : .safety ∉ fs) : FlinkOut t := by
  obtain ⟨on, fault, u, up, flagged⟩ := h
  exact ⟨(srcOn_only only safety).trans on, fault.of_regs (only .regs regs), u, rising_up.same up (only .regs regs), flagged⟩

theorem FlinkOut.judgeFlt (h : FlinkOut s) : FlinkOut s.judgeFlt := by
  obtain ⟨on, fault, u, up, flagged⟩ := h
  exact ⟨(judgeFlt_other (by decide)).trans on, judgeFlt_rises rising_faulted fault, u, judgeFlt_rises rising_up up, flagged⟩

theorem outlivesRescue_faulted {p : Nat} : OutlivesRescue (Faulted p i) := fun t o v ho h => by
  refine h.setLv_ne fun e => ?_
  rcases ho with rfl | rfl <;> exact absurd ((regAddr_inj (by decide) (by decide)).mp e).2 (by decide)

theorem FlinkOut.stoinLost (h : FlinkOut s) : FlinkOut s.stoinLost := by
  obtain ⟨on, fault, u, up, flagged⟩ := h
  unfold State.stoinLost
  split
  · exact ⟨on, fault, u, up, flagged⟩
  · refine ⟨stoDemandNow_keeps (by decide) (by decide) on, stoDemandNow_rises rising_faulted outlivesRescue_faulted (fun t v k => ?_) fault, u,
      stoDemandNow_rises rising_up outlivesRescue_up (fun t v k => k.setLv (by decide)) up, flagged⟩
    exact k.setLv_ne fun e => absurd ((regAddr_inj (by decide) (by decide)).mp e).2 (by decide)

/-- What the loss of the link leaves (R29). -/
theorem flinkLost_leaves {u : State} (whole : Whole s) (eq : u = s.flinkDown.flinkRaised.inputsLost.wiresLeft.stoinLost.judgeFlt) :
    u.time = s.time ∧ u.field.flinkUp = false ∧ u.field.dnApplied = none ∧ u.field.sto = true ∧ u.safety.stoActive = true ∧ FlinkOut u ∧ FaultJudged s u ∧
      (∀ i < 16, (u.di i).stale = true ∧ (u.di i).cnt = 0 ∧ (u.di i).wire = false ∧ (u.di i).level = (s.di i).level) ∧
      Only [.regs, .axes, .mots, .legs, .rescue, .dis, .field, .safety, .trace, .log, .timers] s u := by
  subst eq
  have down : Only [.field] s s.flinkDown := State.onField_only (Only.refl _ _) rfl
  have raised : Only [.regs, .axes, .safety, .trace, .log] s.flinkDown s.flinkDown.flinkRaised := flinkRaised_only
  have wholeR : Whole s.flinkDown.flinkRaised :=
    (State.raise_kept (State.pfault_kept (State.event_kept (State.onField_kept (Kept.refl s))))).whole whole
  have lost : FlinkOut s.flinkDown.flinkRaised := flinkRaised_lost whole.regs
  have field : s.flinkDown.flinkRaised.field = { s.field with
      flinkUp := false, recoverCnt := 0, dnLast := none, dnApplied := none, outSince := s.now } := raised .field (by decide)
  have parts : Only [.field, .regs, .axes, .safety, .trace, .log] s s.flinkDown.flinkRaised := Only.upd (Only.upd (Only.refl _ _) rfl down) rfl raised
  generalize s.flinkDown.flinkRaised = a at *
  have wholeI : Whole a.inputsLost := (State.inputsLost_kept (Kept.refl a)).whole wholeR
  have inputs : Only [.dis] a a.inputsLost.wiresLeft := Only.upd (State.inputsLost_only (Only.refl _ _) rfl) rfl wiresLeft_only
  have wholeW : Whole a.inputsLost.wiresLeft := forN_kept (fun _ _ h => State.onDi_kept h) (Kept.refl _) |>.whole wholeI
  have di (i : Nat) (low : i < 16) : a.inputsLost.wiresLeft.di i = { s.di i with cnt := 0, stale := true, wire := false } := by
    rw [State.wiresLeft, forN_onDi wholeI low, inputsLost_di wholeR low, di_only parts (by decide)]
  have lost : FlinkOut a.inputsLost.wiresLeft := lost.only inputs (by decide) (by decide)
  have field : a.inputsLost.wiresLeft.field = _ := (inputs .field (by decide)).trans field
  have parts : Only [.field, .regs, .axes, .safety, .trace, .log, .dis] s a.inputsLost.wiresLeft :=
    Only.upd (Only.upd (Only.refl _ _) rfl parts) rfl inputs
  generalize a.inputsLost.wiresLeft = w at *
  obtain ⟨fieldS, active⟩ := stoinLost_leaves wholeW
  have lost : FlinkOut w.stoinLost := lost.stoinLost
  have di (i : Nat) (low : i < 16) : w.stoinLost.di i = _ := (di_only stoinLost_only (by decide)).trans (di i low)
  have parts : Only [.regs, .axes, .mots, .legs, .rescue, .dis, .field, .safety, .trace, .log, .timers] s w.stoinLost :=
    Only.upd (Only.upd (Only.refl _ _) rfl parts) rfl stoinLost_only
  rw [field] at fieldS
  generalize w.stoinLost = x at *
  have last : Only judgedParts x x.judgeFlt := State.judgeFlt_only (Only.refl _ _) rfl
  have fieldT : x.judgeFlt.field = { x.field with flt := x.fltNow } := judgeFlt_field
  rw [fieldS] at fieldT
  refine ⟨(last .time (by decide)).trans (parts .time (by decide)), by rw [fieldT], by rw [fieldT], by rw [fieldT],
    judgeFlt_safety (Q := fun y => y.stoActive = true) (fun _ _ _ h => h) active, lost.judgeFlt,
    FaultJudged.of (judgeFlt_judged lost.fault.1) (by rw [fieldS]), fun i low => ?_, Only.upd (Only.upd (Only.refl _ _) rfl parts) rfl last⟩
  rw [di_only last (by decide), di i low]
  exact ⟨rfl, rfl, rfl, rfl⟩

/-- The link is up again. -/
def State.flinkBack (s : State) : State := s.onField fun f => { f with flinkUp := true, recoverCnt := 0, outSince := s.now }

theorem recovered_runs (linked : s.linked = true) (down : s.field.flinkUp = false) (enough : 1000 ≤ s.field.recoverCnt) :
    exec .flinkRecovered s = .next ((s.flinkBack.event pgFio 32).clearSrc srcFlink 16).judgeFlt :=
  if_neg (by simp [linked, down, enough])

end

/-- Settles O46. -/
theorem fieldLink : Obligations.FieldLink := by
  unfold Obligations.FieldLink
  intro s whole linked
  refine ⟨fun frame => ?_, ?_, fun up => ?_, fun down => if_pos (by simp [down]), fun down enough => ?_, fun no => if_pos ?_⟩
  · extract_lets at_ now timed
    have at_s : Only [.time, .field] s (s.uplinkAt at_) := State.onField_only (State.reach_only (Only.refl _ _) rfl) rfl
    refine ⟨fun bad => ?_, fun good down => ?_, fun good up => ?_⟩
    · have run : exec (.flinkUplinkFrame frame) s =
          .next (((s.uplinkAt at_).inc16 pgFio FIO.FLINK_CRC).onField fun f => { f with recoverCnt := 0 }) :=
        (if_neg (by simp [linked])).trans (if_pos (by simp [bad]))
      exact ⟨_, run, ⟨⟨rfl, rfl⟩, rfl, OneReg.to_regs (OneReg.of_regs (oneReg_inc16 (s := s.uplinkAt at_) whole.regs (by decide)) rfl) rfl⟩,
        State.onField_only (State.inc16_only (Only.upd (Only.refl _ _) rfl at_s) rfl) rfl⟩
    · have notUp : (!s.field.flinkUp) = true := by rw [down]; rfl
      have run : exec (.flinkUplinkFrame frame) s = .next ((s.uplinkAt at_).onField fun f => { f with recoverCnt := f.recoverCnt + 1 }) :=
        (if_neg (by simp [linked])).trans ((if_neg (by simp [good])).trans (if_pos notUp))
      exact ⟨_, run, ⟨⟨rfl, rfl⟩, rfl⟩, State.onField_only at_s rfl⟩
    · have notDown : ¬ (!s.field.flinkUp) = true := by rw [up]; decide
      have run : exec (.flinkUplinkFrame frame) s = .next ((s.uplinkAt at_).uplinkFrame at_ frame) :=
        (if_neg (by simp [linked])).trans ((if_neg (by simp [good])).trans (if_neg notDown))
      have wholeU : Whole (s.uplinkAt at_) := (State.onField_kept (State.reach_kept (Kept.refl s))).whole whole
      have last : Only [.regs, .axes, .mots, .latches, .legs, .rescue, .dis, .field, .safety, .trace, .log, .timers] (s.uplinkAt at_)
          ((s.uplinkAt at_).uplinkFrame at_ frame) := State.uplinkFrame_only (Only.refl _ _) rfl
      obtain ⟨lastUp, judged, sag, cut, sto, active, due, inputs⟩ := uplinkFrame_leaves (T := at_) (f := frame) wholeU up
      exact ⟨_, run, ⟨⟨last .time (by decide), lastUp⟩, FaultJudged.of judged rfl, sag, cut, sto, active, due, inputs⟩,
        Only.upd (Only.upd (Only.refl _ _) rfl at_s) rfl last⟩
  · extract_lets at_
    have at_s : Only [.time, .field] s (s.downlinkAt at_) := State.onField_only (State.reach_only (Only.refl _ _) rfl) rfl
    have wholeU : Whole (s.downlinkAt at_) := (State.onField_kept (State.reach_kept (Kept.refl s))).whole whole
    have time : (s.downlinkAt at_).time = { s.time with tick := max s.now at_ } := rfl
    have lastDn : (s.downlinkAt at_).field.lastDn = at_ := rfl
    have flt : (s.downlinkAt at_).field.flt = s.field.flt := rfl
    have bits (n : Nat) : (s.downlinkAt at_).doBit n = (s.reach at_).doBit n := rfl
    have fo (n : Nat) : (s.downlinkAt at_).fo n = s.fo n := rfl
    have run := downlink_runs linked (T := at_) rfl
    generalize s.downlinkAt at_ = u at *
    have sent : Only [.dos] u (u.foAll at_) := foAll_only
    have fos (n : Nat) (low : n < 8) := foAll_fo (T := at_) wholeU low
    simp only [bits, fo] at fos
    have ok : MapOk (u.foAll at_).regs := by
      rw [sent .regs (by decide)]
      exact wholeU.regs
    have parts : Only [.time, .field, .dos] s (u.foAll at_) := Only.upd (Only.upd (Only.refl _ _) rfl at_s) rfl sent
    have field : (u.foAll at_).field = u.field := sent .field (by decide)
    have time : (u.foAll at_).time = _ := (sent .time (by decide)).trans time
    generalize u.foAll at_ = w at *
    have last : Only judgedParts w w.judgeFlt := State.judgeFlt_only (Only.refl _ _) rfl
    refine ⟨_, run, ⟨(last .time (by decide)).trans time, ?_, FaultJudged.of (judgeFlt_judged ok) (by rw [field, flt]), fun n low => ?_⟩,
      Only.upd (Only.upd (Only.refl _ _) rfl parts) rfl last⟩
    · rw [judgeFlt_field, field]
      exact lastDn
    · rw [State.fo, last .dos (by decide)]
      exact fos n low
  · have wholeR : Whole (s.reach (s.field.lastUp + 1000)) := (State.reach_kept (Kept.refl s)).whole whole
    have run := flinkLost_runs linked up
    obtain ⟨time, down, applied, sto, active, ⟨on, fault, w, upw, flagged⟩, judged, inputs, parts⟩ := flinkLost_leaves wholeR rfl
    generalize (s.reach (s.field.lastUp + 1000)).flinkDown.flinkRaised.inputsLost.wiresLeft.stoinLost.judgeFlt = t at *
    exact ⟨t, run, ⟨time, down, applied, sto, active, on, fault.2, upw.bits _ _ flagged, FaultJudged.of judged rfl, inputs⟩,
      Only.upd (State.reach_only (Only.refl _ _) rfl) rfl parts⟩
  · have run := recovered_runs linked down enough
    obtain ⟨up, flagged⟩ := event_flags (s := s.flinkBack) (p := pgFio) (bits := 32) (i := 5) whole.regs (by decide)
    have parts : Only [.field, .regs, .trace] s (s.flinkBack.event pgFio 32) := State.event_only (State.onField_only (Only.refl _ _) rfl) rfl
    have field : (s.flinkBack.event pgFio 32).field = { s.field with flinkUp := true, recoverCnt := 0, outSince := s.now } :=
      State.event_only (Only.refl [.regs, .trace] s.flinkBack) rfl .field (by decide)
    generalize s.flinkBack.event pgFio 32 = u at *
    have field : (u.clearSrc srcFlink 16).field = _ := field
    have up : Up u (u.clearSrc srcFlink 16) := rising_up.clearSrc (Up.refl up.ok)
    have off : (u.clearSrc srcFlink 16).srcOn srcFlink 16 = false := clearSrc_off
    have parts : Only [.field, .regs, .trace, .safety] s (u.clearSrc srcFlink 16) := State.clearSrc_only (Only.upd (Only.refl _ _) rfl parts) rfl
    generalize u.clearSrc srcFlink 16 = w at *
    have fieldT : w.judgeFlt.field = { w.field with flt := w.fltNow } := judgeFlt_field
    rw [field] at fieldT
    exact ⟨_, run, ⟨by rw [fieldT], by rw [fieldT], by rw [fieldT], (judgeFlt_rises rising_up up).bits _ _ flagged, (judgeFlt_other (by decide)).trans off,
      FaultJudged.of (judgeFlt_judged up.ok) (by rw [field])⟩, State.judgeFlt_only (Only.upd (Only.refl _ _) rfl parts) rfl⟩
  · rcases no with up | few
    · simp [up]
    · simp [few]

end Sys2Proof.Machine
end


section

/-! PROOF. Field inputs, outputs, auxiliary words and the field supply (R307, R308, R310 to R312, R314). -/

namespace Sys2Proof.Machine

open Sys2Proof.Safety Sys2Proof.Claims

/-! The logic of the personalities clears no event of the field I/O. -/

section

variable {u s : State} {n : Nat}

theorem persAxis_up {code : Nat} (h : Up u s) : Up u (s.persAxis code n) := by
  unfold State.persAxis
  split
  · exact h
  · exact (Up.setLv (h.same (State.axEffect_only (Only.refl [.axes, .drives, .timers] s) rfl .regs (by decide))) (by decide)).same rfl

theorem persMot_up {code : Nat} (h : Up u s) : Up u (s.persMot code n) := by
  unfold State.persMot
  split
  · exact h
  · exact h.same rfl

theorem persAct_up (h : Up u s) : Up u s.persAct := by
  have pers {n : Nat} : Up u (s.setPers n) := h.same rfl
  have axis {code n : Nat} : Up u (s.persAxis code n) := persAxis_up h
  have mot {code n : Nat} : Up u (s.persMot code n) := persMot_up h
  unfold State.persAct
  extract_lets p1 x on seq
  refine up_ite pers (up_ite ?idle (up_ite ?enable (up_ite ?ready (up_ite ?run (up_ite ?move (up_ite ?stop ?leave))))))
  case idle => exact up_ite (up_ite pers pers) h
  case enable => exact up_ite pers axis
  case ready => exact up_ite (up_ite axis pers) (up_ite axis pers)
  case run => exact up_ite (up_ite mot mot) (up_ite h pers)
  case move => exact up_ite pers (up_ite h mot)
  case stop => exact up_ite pers (up_ite axis h)
  case leave => exact up_ite (up_ite axis pers) (up_ite h pers)

theorem persRun_up (h : Up u s) : Up u s.persRun := up_ite (persAct_up (persAct_up (persAct_up h))) h

theorem persEdge_up {rise : Bool} (h : Up u s) : Up u (s.persEdge n rise) := by
  unfold State.persEdge
  split
  · exact h
  · extract_lets p1 started cleared
    have started_ : Up u started := up_ite (h.same rfl) h
    refine persRun_up (up_ite (clearAll_leaves (up_ite started_ ?_)).1 started_)
    exact Up.setLv (started_.same (State.axEffect_only (Only.refl [.axes, .drives, .timers] started) rfl .regs (by decide))) (by decide)

end

/-! Inputs. -/

section

variable {s : State} {i n : Nat}

/-- The level of input i as it is accepted. -/
def State.diTaken (s : State) (i : Nat) : State := s.onDi i fun x => { x with level := x.raw, cnt := 0, stale := false }

/-- The event of its edge. -/
def State.diFlagged (s : State) (i : Nat) (rise : Bool) : State := if diEdge s.force i rise then s.event pgFio (2 ^ (16 + i)) else s

theorem diAccept_due (linked : s.linked = true) (counts : (s.di i).cnt ≠ 0) (enough : fld (s.cf pgFio (FIO.DI_CFG i)) 31 16 ≤ (s.di i).cnt) :
    s.diAccept i = if (s.di i).raw == (s.di i).level then s.diTaken i
      else ((s.diTaken i).diFlagged i (s.di i).raw).latchDi i (s.di i).first (s.di i).raw := by
  unfold State.diAccept
  exact if_neg (by simp only [linked, beq_eq_false_iff_ne.mpr counts, decide_eq_false (Nat.not_lt.mpr enough)]; decide)

theorem diAccept_idle (few : (s.di i).cnt = 0 ∨ (s.di i).cnt < fld (s.cf pgFio (FIO.DI_CFG i)) 31 16) : s.diAccept i = s := by
  unfold State.diAccept
  exact if_pos (by rcases few with none_ | few; simp [none_]; simp [few])

theorem diFlagged_only {rise : Bool} : Only [.regs, .trace] s (s.diFlagged i rise) := only_ite (State.event_only (Only.refl _ _) rfl) (Only.refl _ _)

theorem diAccept_di (here : i < s.dis.length) (linked : s.linked = true) (counts : (s.di i).cnt ≠ 0)
    (enough : fld (s.cf pgFio (FIO.DI_CFG i)) 31 16 ≤ (s.di i).cnt) :
    (s.diAccept i).di i = { s.di i with level := (s.di i).raw, cnt := 0, stale := false } := by
  have taken : (s.diTaken i).di i = { s.di i with level := (s.di i).raw, cnt := 0, stale := false } := di_onDi_same here
  rw [diAccept_due linked counts enough]
  split
  · exact taken
  · exact (di_only (State.latchDi_only (Only.refl [.latches] _) rfl) (by decide)).trans ((di_only diFlagged_only (by decide)).trans taken)

theorem diAccept_flags (whole : Whole s) (low : i < 16) (linked : s.linked = true) (counts : (s.di i).cnt ≠ 0)
    (enough : fld (s.cf pgFio (FIO.DI_CFG i)) 31 16 ≤ (s.di i).cnt) (moved : (s.di i).raw ≠ (s.di i).level)
    (edge : diEdge s.force i (s.di i).raw = true) : Up (s.diAccept i) (s.diAccept i) ∧ Flagged (s.diAccept i) pgFio (16 + i) := by
  rw [diAccept_due linked counts enough, if_neg (by simpa using moved)]
  have taken : diEdge (s.diTaken i).force i (s.di i).raw = true := edge
  rw [State.diFlagged, if_pos taken]
  obtain ⟨up, flagged⟩ := event_flags (s := s.diTaken i) (p := pgFio) (bits := 2 ^ (16 + i)) (i := 16 + i) whole.regs (nw_twoPow (by omega))
  have latched : (((s.diTaken i).event pgFio (2 ^ (16 + i))).latchDi i (s.di i).first (s.di i).raw).regs =
      ((s.diTaken i).event pgFio (2 ^ (16 + i))).regs := State.latchDi_only (Only.refl [.latches] _) rfl .regs (by decide)
  exact ⟨Up.refl (latched ▸ up.ok), flagged_of_regs flagged latched⟩

/-- The level of an input is accepted, and the logic takes its edge (R308, R453). -/
theorem debounce_does {di : Fin 16} (whole : Whole s) (linked : s.linked = true) (counts : (s.di di.val).cnt ≠ 0)
    (enough : fld (s.cf pgFio (FIO.DI_CFG di.val)) 31 16 ≤ (s.di di.val).cnt) :
    Does (.diDebounceAccept di) s [.regs, .power, .axes, .drives, .ctxs, .mots, .latches, .shares, .chop, .dis, .sins, .safety, .trace, .log, .timers]
      fun t => t.di di.val = { s.di di.val with level := (s.di di.val).raw, cnt := 0, stale := false } ∧
        ((s.di di.val).raw ≠ (s.di di.val).level → diEdge s.force di.val (s.di di.val).raw = true → Flagged t pgFio (16 + di.val)) := by
  have run : exec (.diDebounceAccept di) s = .next (if (s.di di.val).level == ((s.diAccept di.val).di di.val).level then s.diAccept di.val
      else (s.diAccept di.val).persEdge di.val ((s.diAccept di.val).di di.val).level) := rfl
  have taken := diAccept_di ((present whole).dis.symm ▸ di.isLt) linked counts enough
  have flags := diAccept_flags whole di.isLt linked counts enough
  have parts : Only [.regs, .latches, .dis, .trace] s (s.diAccept di.val) := State.diAccept_only (Only.refl _ _) rfl
  generalize s.diAccept di.val = u at *
  have edge : Only [.regs, .power, .axes, .drives, .ctxs, .mots, .shares, .chop, .sins, .safety, .trace, .log, .timers] u
      (u.persEdge di.val (u.di di.val).level) := State.persEdge_only (Only.refl _ _) rfl
  refine ⟨_, run, ?_, only_ite (Only.upd (Only.refl _ _) rfl parts) (Only.upd (Only.upd (Only.refl _ _) rfl parts) rfl edge)⟩
  split
  · exact ⟨taken, fun moved rises => (flags moved rises).2⟩
  · exact ⟨(di_only edge (by decide)).trans taken, fun moved rises => (persEdge_up (flags moved rises).1).bits _ _ (flags moved rises).2⟩

/-! Outputs. -/

theorem fo_only {fs : List Part} {t : State} (h : Only fs s t) (out : .dos ∉ fs) : t.fo n = s.fo n := by
  rw [State.fo, h .dos out]
  rfl

theorem chan_onChan_ne {cls idx cls' idx' : Nat} {f : ChanSt → ChanSt} (ok : MapOk s.chans) (n : chanKey cls' idx' ≠ chanKey cls idx) :
    (s.onChan cls idx f).chan cls' idx' = s.chan cls' idx' := congrArg (·.getD {}) (mapFind_set_ne ok n)

/-- What an onset of an output leaves of every output. -/
theorem onset_fo {P : DoSt → Prop} {m : Nat} (own : n = m → ∀ x, P x → P { x with retry := true } ∧ P { x with retired := true, retry := false })
    (h : P (s.fo m)) : P ((s.onset 7 n).fo m) := by
  have step {t : State} {f : DoSt → DoSt} (k : n = m → ∀ x, P x → P (f x)) (h : P (t.fo m)) : P ((t.onFo n f).fo m) := by
    by_cases same : n = m
    · exact getD_modify_keeps (k same) h
    · have other : (t.onFo n f).fo m = t.fo m := getD_modify_ne same
      rw [other]
      exact h
  unfold State.onset State.onsetWith
  split
  · exact h
  · extract_lets ons counted till
    have counted_ : P (counted.fo m) := h
    split
    · unfold State.retire
      split
      · exact counted_
      · extract_lets noted logged void
        have void_ : P (void.fo m) := by
          rw [fo_only (State.voidProof_only (State.logAdd_only (State.onChan_only (Only.refl [.chans, .regs, .trace, .log, .stage] counted) rfl) rfl) rfl)
            (by decide)]
          exact counted_
        have gone := step (fun e x k => (own e x k).2) void_
        show P ((((void.onFo n fun x => { x with retired := true, retry := false }).pfault pgFio (2 ^ (8 + n))).startReproof).fo m)
        rw [fo_only (State.startReproof_only (State.pfault_only (Only.refl [.regs, .stage] _) rfl) rfl) (by decide)]
        exact gone
    · exact step (t := counted.onChan 7 n _) (fun e x k => (own e x k).1) counted_

theorem onset_fo_ne {m : Nat} (other : n ≠ m) : (s.onset 7 n).fo m = s.fo m := onset_fo (P := (· = s.fo m)) (fun e => absurd e other) rfl

theorem onset_chan_ne {m : Nat} (ok : MapOk s.chans) (other : n ≠ m) : (s.onset 7 n).chan 7 m = s.chan 7 m := by
  have key : chanKey 7 m ≠ chanKey 7 n := by
    simp only [chanKey]
    omega
  unfold State.onset State.onsetWith
  split
  · rfl
  · extract_lets ons counted till
    have okC : MapOk counted.chans := MapOk.set ok
    have counted_ : counted.chan 7 m = s.chan 7 m := chan_onChan_ne ok key
    split
    · unfold State.retire
      split
      · exact counted_
      · extract_lets noted logged void
        have noted_ : noted.chan 7 m = counted.chan 7 m := chan_onChan_ne okC key
        show ((((void.onFo n fun x => { x with retired := true, retry := false }).pfault pgFio (2 ^ (8 + n))).startReproof).chan 7 m) = _
        rw [chan_only (State.startReproof_only (State.pfault_only (State.onFo_only (State.voidProof_only (State.logAdd_only
          (Only.refl [.stage, .regs, .trace, .log, .dos] noted) rfl) rfl) rfl) rfl) rfl) (by decide), noted_, counted_]
    · exact (chan_only (State.intoRetry_only (Only.refl [.fbs, .legs, .dos] _) rfl) (by decide)).trans ((chan_onChan_ne okC key).trans counted_)

theorem onset_kept {cls : Nat} (whole : Whole s) : Whole (s.onset cls n) := (State.onset_kept (Kept.refl s)).whole whole

/-- An onset judged from a state in which the channel's record was the same. -/
theorem CountsOnset.congr {u t v : State} {cls idx now : Nat} (h : CountsOnset u cls idx now t) (before : u.chan cls idx = s.chan cls idx)
    (cfg : u.cfg = s.cfg) (after : v.chan cls idx = t.chan cls idx) : CountsOnset s cls idx now v := by
  have retry : u.force pgSafe SAFE.RETRY = s.force pgSafe SAFE.RETRY := by
    simp only [State.force, State.cf, cfg]
    rfl
  simp only [CountsOnset, State.chRet, onsetK, countWin, retryWin, before, after, retry] at *
  exact h

end

end Sys2Proof.Machine
end


section

/-! PROOF. A complete auxiliary word of the field link (R307, R310, R312, R316), and what settles the channels of the field I/O. -/

namespace Sys2Proof.Machine

open Sys2Proof.Safety Sys2Proof.Claims

/-! The readback of one output. -/

section

variable {s t : State} {m n : Nat} {high : Bool} {P : State → Prop}

/-- A readback as it comes. -/
def State.backNoted (s : State) (n : Nat) (high : Bool) : State := s.onFo n fun o => { o with readback := high }

/-- A high readback: the run of low ones ends, and the retry with it. -/
def State.backHigh (s : State) (n : Nat) : State :=
  let s := s.onFo n fun o => { o with lowRun := 0 }
  if (s.fo n).retry then (s.backInService 7 n).onFo n fun o => { o with retry := false } else s

/-- A low readback of an output that should be high: the second is an onset. -/
def State.backLow (s : State) (n : Nat) : State :=
  let s := s.onFo n fun o => { o with lowRun := o.lowRun + 1 }
  if (s.fo n).lowRun = 2 ∧ !(s.fo n).retry ∧ !(s.fo n).retired then s.onset 7 n else s

theorem readDo_eq : s.readDo n high = if high then (s.backNoted n high).backHigh n
    else if !(s.backNoted n high).outJudged n then (s.backNoted n high).onFo n fun o => { o with lowRun := 0 }
    else (s.backNoted n high).backLow n := rfl

theorem fo_onFo_ne {f : DoSt → DoSt} (other : n ≠ m) : (s.onFo n f).fo m = s.fo m := getD_modify_ne other

theorem onFo_length {f : DoSt → DoSt} : (s.onFo n f).dos.length = s.dos.length := List.length_modify ..

theorem backInService_chan_ne (ok : MapOk s.chans) (other : n ≠ m) : (s.backInService 7 n).chan 7 m = s.chan 7 m := by
  unfold State.backInService
  split
  · rfl
  · exact chan_onChan_ne ok (by simp only [chanKey]; omega)

/-- The readback of an output leaves the others and their channels. -/
theorem readDo_ne (ok : MapOk s.chans) (other : n ≠ m) : (s.readDo n high).fo m = s.fo m ∧ (s.readDo n high).chan 7 m = s.chan 7 m := by
  have noted : (s.backNoted n high).fo m = s.fo m := fo_onFo_ne other
  have okN : MapOk (s.backNoted n high).chans := ok
  have chan : (s.backNoted n high).chan 7 m = s.chan 7 m := rfl
  rw [readDo_eq]
  generalize s.backNoted n high = u at *
  split
  · unfold State.backHigh
    extract_lets ended
    have ended_ : ended.fo m = s.fo m := (fo_onFo_ne other).trans noted
    split
    · exact ⟨(fo_onFo_ne other).trans ((fo_only (State.backInService_only (Only.refl [.chans] ended) rfl) (by decide)).trans ended_),
        (backInService_chan_ne (s := ended) okN other).trans chan⟩
    · exact ⟨ended_, chan⟩
  · split
    · exact ⟨(fo_onFo_ne other).trans noted, chan⟩
    · unfold State.backLow
      extract_lets counted
      have counted_ : counted.fo m = s.fo m := (fo_onFo_ne other).trans noted
      split
      · exact ⟨(onset_fo_ne other).trans counted_, (onset_chan_ne (s := counted) okN other).trans chan⟩
      · exact ⟨counted_, chan⟩

/-- What the readback of an output leaves of it (R312). -/
theorem readDo_own (whole : Whole s) (low : n < 8) : ((s.readDo n high).fo n).readback = high ∧
    (high = true → ((s.readDo n high).fo n).lowRun = 0 ∧ ((s.readDo n high).fo n).retry = false) ∧
    (high = false → s.outJudged n = true → (s.fo n).lowRun = 1 → (s.fo n).retry = false → (s.fo n).retired = false → s.chRet 7 n = false →
      CountsOnset s 7 n s.now (s.readDo n high)) := by
  have here : n < s.dos.length := (present whole).dos.symm ▸ low
  have noted : (s.backNoted n high).fo n = { s.fo n with readback := high } := fo_onFo_same here
  have hereN : n < (s.backNoted n high).dos.length := here.trans_eq onFo_length.symm
  have judged : (s.backNoted n high).outJudged n = s.outJudged n := by
    simp only [State.outJudged, noted]
    rfl
  have okN : MapOk (s.backNoted n high).chans := whole.chans
  have same : (s.backNoted n high).chans = s.chans ∧ (s.backNoted n high).cfg = s.cfg ∧ (s.backNoted n high).now = s.now := ⟨rfl, rfl, rfl⟩
  rw [readDo_eq, judged]
  generalize s.backNoted n high = u at *
  obtain ⟨chans, cfg, now⟩ := same
  cases high with
  | true =>
    rw [if_pos rfl]
    have ended : (u.onFo n fun o => { o with lowRun := 0 }).fo n = { u.fo n with lowRun := 0 } := fo_onFo_same hereN
    have hereE : n < (u.onFo n fun o => { o with lowRun := 0 }).dos.length := hereN.trans_eq onFo_length.symm
    unfold State.backHigh
    generalize (u.onFo n fun o => { o with lowRun := 0 }) = e at *
    dsimp only
    split
    · have served : (e.backInService 7 n).dos = e.dos := State.backInService_only (Only.refl [.chans] e) rfl .dos (by decide)
      have fo : (e.backInService 7 n).fo n = e.fo n := by rw [State.fo, served]; rfl
      rw [fo_onFo_same (served ▸ hereE), fo, ended, noted]
      exact ⟨rfl, fun _ => ⟨rfl, rfl⟩, nofun⟩
    · next idle =>
      rw [ended, noted] at *
      exact ⟨rfl, fun _ => ⟨rfl, Bool.eq_false_iff.mpr idle⟩, nofun⟩
  | false =>
    rw [if_neg (by decide)]
    split
    · next not =>
      rw [fo_onFo_same hereN, noted]
      exact ⟨rfl, nofun, fun _ judges => absurd not (by rw [judges]; decide)⟩
    · have counted : (u.onFo n fun o => { o with lowRun := o.lowRun + 1 }).fo n = { u.fo n with lowRun := (u.fo n).lowRun + 1 } := fo_onFo_same hereN
      have okC : MapOk (u.onFo n fun o => { o with lowRun := o.lowRun + 1 }).chans := okN
      have same : (u.onFo n fun o => { o with lowRun := o.lowRun + 1 }).chans = s.chans ∧
        (u.onFo n fun o => { o with lowRun := o.lowRun + 1 }).cfg = s.cfg ∧ (u.onFo n fun o => { o with lowRun := o.lowRun + 1 }).now = s.now :=
        ⟨chans, cfg, now⟩
      unfold State.backLow
      generalize (u.onFo n fun o => { o with lowRun := o.lowRun + 1 }) = e at *
      obtain ⟨chans, cfg, now⟩ := same
      rw [noted] at counted
      dsimp only
      have kept : ((e.onset 7 n).fo n).readback = false :=
        onset_fo (P := fun x => x.readback = false) (fun _ _ k => ⟨k, k⟩) (by rw [counted])
      refine ⟨?_, nofun, fun _ _ one calm active inService => ?_⟩
      · split
        · exact kept
        · rw [counted]
      · rw [if_pos (by rw [counted]; exact ⟨by simp [one], by simp [calm], by simp [active]⟩), ← now]
        exact CountsOnset.of (onset_counts okC ((congrArg ChanSt.retired (chan_of_chans chans)).trans inService)) chans.symm cfg.symm

abbrev readDoParts : List Part := [.regs, .stage, .axes, .fbs, .mots, .legs, .lanes, .cans, .dos, .safety, .trace, .log, .chans, .timers]

theorem readDo_only : Only readDoParts s (s.readDo n high) := State.readDo_only (Only.refl _ _) rfl

theorem readDo_rises (rise : Rising P) (h : P s) : P (s.readDo n high) := by
  have noted : P (s.backNoted n high) := rise.same h rfl
  rw [readDo_eq]
  generalize s.backNoted n high = u at *
  split
  · unfold State.backHigh
    extract_lets ended
    have ended_ : P ended := rise.same noted rfl
    split
    · exact rise.only (State.onFo_only (State.backInService_only (Only.refl [.chans, .dos] ended) rfl) rfl) (by decide) ended_
    · exact ended_
  · split
    · exact rise.same noted rfl
    · unfold State.backLow
      extract_lets counted
      have counted_ : P counted := rise.same noted rfl
      split
      · exact rise.onset counted_
      · exact counted_

/-! The readbacks of a word. -/

/-- The readbacks that a word carries. -/
def State.backAll (s : State) (w : Nat) : State := forN 8 (fun k s => s.readDo k (w.testBit (40 + k))) s

theorem backAll_only {w : Nat} : Only readDoParts s (s.backAll w) := forN_only (fun _ _ h => State.readDo_only h rfl) (Only.refl _ _)

theorem backAll_rises {w : Nat} (rise : Rising P) (h : P s) : P (s.backAll w) := forN_ind (fun _ _ k => readDo_rises rise k) h

/-- What the output is judged by at its turn is what it was before the word. -/
structure BeforeBack (s : State) (n : Nat) (t : State) : Prop where
  whole : Whole t
  only : Only readDoParts s t
  fo : t.fo n = s.fo n
  chan : t.chan 7 n = s.chan 7 n

theorem BeforeBack.judged (h : BeforeBack s n t) : t.outJudged n = s.outJudged n := by
  have field : t.field = s.field := h.only .field (by decide)
  simp only [State.outJudged, State.inValid, State.msPast, h.fo, field, now_only h.only (by decide)]

theorem backAll_fo {w : Nat} (whole : Whole s) (low : n < 8) : ((s.backAll w).fo n).readback = w.testBit (40 + n) ∧
    (w.testBit (40 + n) = true → ((s.backAll w).fo n).lowRun = 0 ∧ ((s.backAll w).fo n).retry = false) ∧
    (w.testBit (40 + n) = false → s.outJudged n = true → (s.fo n).lowRun = 1 → (s.fo n).retry = false → (s.fo n).retired = false →
      s.chRet 7 n = false → CountsOnset s 7 n s.now (s.backAll w)) := by
  refine (forN_once (I := BeforeBack s n) (P := fun t => Whole t ∧ ((t.fo n).readback = w.testBit (40 + n) ∧
    (w.testBit (40 + n) = true → (t.fo n).lowRun = 0 ∧ (t.fo n).retry = false) ∧
    (w.testBit (40 + n) = false → s.outJudged n = true → (s.fo n).lowRun = 1 → (s.fo n).retry = false → (s.fo n).retired = false →
      s.chRet 7 n = false → CountsOnset s 7 n s.now t))) low (fun j t other h => ?_) (fun t h => ?_) (fun j t other h => ?_)
    ⟨whole, Only.refl _ _, rfl, rfl⟩).2
  · obtain ⟨fo, chan⟩ := readDo_ne (high := w.testBit (40 + j)) h.whole.chans other
    exact ⟨(State.readDo_kept (Kept.refl t)).whole h.whole, State.readDo_only h.only rfl, fo.trans h.fo, chan.trans h.chan⟩
  · obtain ⟨back, up, down⟩ := readDo_own (high := w.testBit (40 + n)) h.whole low
    refine ⟨(State.readDo_kept (Kept.refl t)).whole h.whole, back, up, fun isLow judged one calm active inService => ?_⟩
    have counts := down isLow (h.judged.trans judged) (by rw [h.fo]; exact one) (by rw [h.fo]; exact calm) (by rw [h.fo]; exact active)
      ((congrArg ChanSt.retired h.chan).trans inService)
    rw [now_only h.only (by decide)] at counts
    exact CountsOnset.congr counts h.chan (h.only .cfg (by decide)) rfl
  · obtain ⟨wholeT, back, up, down⟩ := h
    obtain ⟨fo, chan⟩ := readDo_ne (high := w.testBit (40 + j)) wholeT.chans other
    rw [fo]
    exact ⟨(State.readDo_kept (Kept.refl t)).whole wholeT, back, up, fun isLow judged one calm active inService =>
      CountsOnset.congr (down isLow judged one calm active inService) rfl rfl chan⟩

end

/-! The slots of a test pulse that an output does not follow. -/

section

variable {s t : State} {i n tp : Nat} {w : BitVec 64}

/-- The slots of test pulse output tp are faults. -/
def State.slotsFault (s : State) (tp : Nat) : State :=
  forN 8 (fun i s => if sinFunc s.force i ≠ 0 ∧ fld (sinCfg s.force i) 9 8 = tp + 1 then s.sinFault i else s) s

/-- The test pulses that the outputs followed before the word and do not follow now (R297). -/
def State.pulsesLost (s : State) (was : BitVec 2) (n : Nat) : State :=
  forN 2 (fun tp s => if was.getLsbD tp && !n.testBit (38 + tp) then s.slotsFault tp else s) s

abbrev sinParts : List Part := [.regs, .axes, .sins, .safety, .trace, .log]

theorem slotsFault_only {fs : List Part} {s0 : State} (h : Only fs s0 s) (sub : In sinParts fs) : Only fs s0 (s.slotsFault tp) :=
  forN_only (fun _ _ h => only_ite (State.sinFault_only h sub) h) h

theorem pulsesLost_only {was : BitVec 2} : Only sinParts s (s.pulsesLost was n) :=
  forN_only (fun _ _ h => only_ite (slotsFault_only h rfl) h) (Only.refl _ _)

/-- What a fault of any slot leaves: its registers, and the slots that are faults already. -/
theorem sinFault_rises {P : State → Prop} (rise : Rising P) (h : P s) : P (s.sinFault i) := by
  rw [sinFault_eq]
  exact rise.raise (rise.fault (rise.event (rise.same h rfl)))

theorem pulsesLost_rises {P : State → Prop} {was : BitVec 2} (rise : Rising P) (h : P s) : P (s.pulsesLost was n) := by
  refine forN_ind (fun tp t k => ?_) h
  split
  · refine forN_ind (fun i u k => ?_) k
    split
    · exact sinFault_rises rise k
    · exact k
  · exact k

/-- Slot i is a fault, and its source is on. -/
def SlotFaulty (i : Nat) (t : State) : Prop := t.si i = ⟨true, 0⟩ ∧ t.srcOn srcSinFault 16 = true

theorem sinFault_faulty (here : i < s.sins.length) : SlotFaulty i (s.sinFault i) :=
  ⟨(si_of_sins (sinFault_parts .sins (by decide))).trans (si_onSi_same here), raise_on⟩

theorem SlotFaulty.sinFault (h : SlotFaulty i s) : SlotFaulty i (s.sinFault n) := by
  have own : (s.sinMarked n).si i = ⟨true, 0⟩ :=
    getD_modify_keeps (P := fun x : SinSt => x = ⟨true, 0⟩) (fun _ _ => rfl) h.1
  exact ⟨(si_of_sins (sinFault_parts .sins (by decide))).trans own, raise_on⟩

theorem slotsFault_keeps (h : SlotFaulty i s) : SlotFaulty i (s.slotsFault tp) := by
  refine forN_ind (fun j t k => ?_) h
  split
  · exact k.sinFault
  · exact k

theorem slotsFault_faulty (cfg : t.cfg = s.cfg) (low : i < 8) (used : sinFunc s.force i ≠ 0)
    (own : fld (sinCfg s.force i) 9 8 = tp + 1) (wholeT : Whole t) : SlotFaulty i (t.slotsFault tp) := by
  refine forL_reaches (I := fun u => Whole u ∧ u.cfg = s.cfg) (P := SlotFaulty i)
    (f := fun i s => if sinFunc s.force i ≠ 0 ∧ fld (sinCfg s.force i) 9 8 = tp + 1 then s.sinFault i else s) (List.mem_range.mpr low)
    (fun j u h => ?_) (fun u h => ?_) (fun j u h => ?_) ⟨wholeT, cfg⟩
  · split
    · exact ⟨(State.sinFault_kept (Kept.refl u)).whole h.1, (State.sinFault_only (Only.refl sinParts u) rfl .cfg (by decide)).trans h.2⟩
    · exact h
  · have word : sinCfg u.force i = sinCfg s.force i := sinCfg_of_cfg h.2
    have func : sinFunc u.force i = sinFunc s.force i := by rw [sinFunc, word]; rfl
    rw [func, word, if_pos ⟨used, own⟩]
    exact sinFault_faulty ((present h.1).sins.symm ▸ low)
  · split
    · exact h.sinFault
    · exact h

theorem pulsesLost_faulty {was : BitVec 2} (whole : Whole s) (two : tp < 2) (followed : was.getLsbD tp = true) (lost : n.testBit (38 + tp) = false)
    (low : i < 8) (used : sinFunc s.force i ≠ 0) (own : fld (sinCfg s.force i) 9 8 = tp + 1) : SlotFaulty i (s.pulsesLost was n) := by
  refine forL_reaches (I := fun u => Whole u ∧ u.cfg = s.cfg) (P := SlotFaulty i)
    (f := fun tp s => if was.getLsbD tp && !n.testBit (38 + tp) then s.slotsFault tp else s) (List.mem_range.mpr two)
    (fun j u h => ?_) (fun u h => ?_) (fun j u h => ?_) ⟨whole, rfl⟩
  · split
    · have kept : Kept u (u.slotsFault j) := forN_kept (fun _ _ h => kept_ite (State.sinFault_kept h) h) (Kept.refl u)
      exact ⟨kept.whole h.1, (slotsFault_only (Only.refl sinParts u) rfl .cfg (by decide)).trans h.2⟩
    · exact h
  · rw [if_pos (by rw [followed, lost]; rfl)]
    exact slotsFault_faulty h.2 low used own h.1
  · split
    · exact slotsFault_keeps h
    · exact h

/-! The word. -/

/-- The open wires that a word carries. -/
def State.wiresNoted (s : State) (n : Nat) : State := forN 16 (fun i s => s.onDi i fun d => { d with openWire := n.testBit (48 + i) }) s

/-- The test pulses that it carries. -/
def State.pulsesNoted (s : State) (n : Nat) : State := s.onField fun f => { f with tpFollowed := BitVec.ofNat 2 (n / 2 ^ 38) }

/-- The open wires, the test pulses and the measurements that a word carries. -/
def State.wordNoted (s : State) (n : Nat) : State :=
  (((s.wiresNoted n).pulsesNoted n).setLv pgFio FIO.VF_MV (nw (n / 2 ^ 16 % 65536))).setLv pgFio FIO.FIELD_TEMP
    (nw ((BitVec.ofNat 8 (n / 256)).toInt * 16 % 65536).toNat)

theorem upWord_eq : s.upWord w = (((s.wordNoted w.toNat).backAll w.toNat).pulsesLost s.field.tpFollowed w.toNat).judgeFlt := rfl

theorem wiresNoted_only : Only [.dis] s (s.wiresNoted n) := forN_only (fun _ _ h => State.onDi_only h rfl) (Only.refl _ _)

theorem wordNoted_rest : Only [.field, .regs] (s.wiresNoted n) (s.wordNoted n) :=
  State.setLv_only (State.setLv_only (State.onField_only (Only.refl _ _) rfl) rfl) rfl

theorem wordNoted_only : Only [.dis, .field, .regs] s (s.wordNoted n) :=
  Only.upd (Only.upd (Only.refl _ _) rfl wiresNoted_only) rfl wordNoted_rest

theorem wordNoted_whole (whole : Whole s) : Whole (s.wordNoted n) := by
  have wires : Kept s (s.wiresNoted n) := forN_kept (fun _ _ h => State.onDi_kept h) (Kept.refl s)
  exact (State.setLv_kept (State.setLv_kept (State.onField_kept wires))).whole whole

theorem wiresNoted_di (whole : Whole s) (low : i < 16) : (s.wiresNoted n).di i = { s.di i with openWire := n.testBit (48 + i) } := by
  refine forN_once (I := fun t => t.di i = s.di i ∧ i < t.dis.length) (P := fun t => t.di i = { s.di i with openWire := n.testBit (48 + i) }) low
    (fun j t other h => ?_) (fun t h => ?_) (fun j t other h => ?_) ⟨rfl, (present whole).dis.symm ▸ low⟩
  · exact ⟨(getD_modify_ne other).trans h.1, h.2.trans_eq onDi_length.symm⟩
  · rw [di_onDi_same h.2, h.1]
  · exact (getD_modify_ne other).trans h

theorem wordNoted_di (whole : Whole s) (low : i < 16) : (s.wordNoted n).di i = { s.di i with openWire := n.testBit (48 + i) } :=
  (di_only wordNoted_rest (by decide)).trans (wiresNoted_di whole low)

theorem wordNoted_field : (s.wordNoted n).field = { s.field with tpFollowed := BitVec.ofNat 2 (n / 2 ^ 38) } := by
  have wires : (s.wiresNoted n).field = s.field := wiresNoted_only .field (by decide)
  have pulses : ((s.wiresNoted n).pulsesNoted n).field = { (s.wiresNoted n).field with tpFollowed := BitVec.ofNat 2 (n / 2 ^ 38) } := rfl
  have rest : (s.wordNoted n).field = ((s.wiresNoted n).pulsesNoted n).field :=
    State.setLv_only (State.setLv_only (Only.refl [.regs] ((s.wiresNoted n).pulsesNoted n)) rfl) rfl .field (by decide)
  rw [rest, pulses, wires]

theorem measured_reads {mv temp : Word} (ok : MapOk s.regs) :
    Reads pgFio FIO.VF_MV mv ((s.setLv pgFio FIO.VF_MV mv).setLv pgFio FIO.FIELD_TEMP temp) ∧
      Reads pgFio FIO.FIELD_TEMP temp ((s.setLv pgFio FIO.VF_MV mv).setLv pgFio FIO.FIELD_TEMP temp) :=
  ⟨(reads_setLv ok).setLv_ne (by decide), reads_setLv (MapOk.set ok)⟩

theorem wordNoted_reads (whole : Whole s) : Reads pgFio FIO.VF_MV (nw (n / 2 ^ 16 % 65536)) (s.wordNoted n) ∧
    Reads pgFio FIO.FIELD_TEMP (nw ((BitVec.ofNat 8 (n / 256)).toInt * 16 % 65536).toNat) (s.wordNoted n) := by
  have parts : Only [.dis, .field] s ((s.wiresNoted n).pulsesNoted n) := State.onField_only (Only.upd (Only.refl _ _) rfl wiresNoted_only) rfl
  have regs : ((s.wiresNoted n).pulsesNoted n).regs = s.regs := parts .regs (by decide)
  have ok : MapOk ((s.wiresNoted n).pulsesNoted n).regs := by
    rw [regs]
    exact whole.regs
  exact measured_reads ok

/-- What a complete uplink word leaves. -/
theorem upWord_leaves (whole : Whole s) :
    let t := s.upWord w
    FaultJudged s t ∧ t.field.tpFollowed = BitVec.ofNat 2 (w.toNat / 2 ^ 38) ∧ t.lv pgFio FIO.VF_MV = nw (w.toNat / 2 ^ 16 % 65536) ∧
      t.lv pgFio FIO.FIELD_TEMP = nw ((BitVec.ofNat 8 (w.toNat / 256)).toInt * 16 % 65536).toNat ∧
      (∀ i < 16, t.di i = { s.di i with openWire := w.toNat.testBit (48 + i) }) ∧
      (∀ n < 8, (t.fo n).readback = w.toNat.testBit (40 + n) ∧
        (w.toNat.testBit (40 + n) = true → (t.fo n).lowRun = 0 ∧ (t.fo n).retry = false) ∧
        (w.toNat.testBit (40 + n) = false → s.outJudged n = true → (s.fo n).lowRun = 1 → (s.fo n).retry = false → (s.fo n).retired = false →
          s.chRet 7 n = false → CountsOnset s 7 n s.now t)) ∧
      ∀ tp < 2, s.field.tpFollowed.getLsbD tp = true → w.toNat.testBit (38 + tp) = false → ∀ i < 8, sinFunc s.force i ≠ 0 →
        fld (sinCfg s.force i) 9 8 = tp + 1 → SlotFaulty i t := by
  have noted : Only [.dis, .field, .regs] s (s.wordNoted w.toNat) := wordNoted_only
  have wholeN : Whole (s.wordNoted w.toNat) := wordNoted_whole whole
  obtain ⟨mv, temp⟩ := wordNoted_reads (n := w.toNat) whole
  have field := wordNoted_field (s := s) (n := w.toNat)
  have di (i : Nat) (low : i < 16) := wordNoted_di (n := w.toNat) whole low
  rw [upWord_eq]
  generalize s.wordNoted w.toNat = u at *
  have back : Only readDoParts u (u.backAll w.toNat) := backAll_only
  have wholeB : Whole (u.backAll w.toNat) := (forN_kept (fun _ _ h => State.readDo_kept h) (Kept.refl u)).whole wholeN
  have fo (n : Nat) (low : n < 8) := backAll_fo (w := w.toNat) wholeN low
  have mv := backAll_rises (w := w.toNat) (rising_reads (by decide)) mv
  have temp := backAll_rises (w := w.toNat) (rising_reads (by decide)) temp
  generalize u.backAll w.toNat = b at *
  have lost : Only sinParts b (b.pulsesLost s.field.tpFollowed w.toNat) := pulsesLost_only
  have cfg : b.cfg = s.cfg := (back .cfg (by decide)).trans (noted .cfg (by decide))
  have slots (tp : Nat) (two : tp < 2) (followed : s.field.tpFollowed.getLsbD tp = true) (unfollowed : w.toNat.testBit (38 + tp) = false) (i : Nat)
      (low : i < 8) (used : sinFunc s.force i ≠ 0) (own : fld (sinCfg s.force i) 9 8 = tp + 1) :
      SlotFaulty i (b.pulsesLost s.field.tpFollowed w.toNat) := by
    have word : sinCfg b.force i = sinCfg s.force i := sinCfg_of_cfg cfg
    have func : sinFunc b.force i = sinFunc s.force i := by rw [sinFunc, word]; rfl
    exact pulsesLost_faulty wholeB two followed unfollowed low (func ▸ used) (word ▸ own)
  have mv := pulsesLost_rises (was := s.field.tpFollowed) (n := w.toNat) (rising_reads (by decide)) mv
  have temp := pulsesLost_rises (was := s.field.tpFollowed) (n := w.toNat) (rising_reads (by decide)) temp
  generalize b.pulsesLost s.field.tpFollowed w.toNat = x at *
  have last : Only judgedParts x x.judgeFlt := State.judgeFlt_only (Only.refl _ _) rfl
  have fieldX : x.field = { s.field with tpFollowed := BitVec.ofNat 2 (w.toNat / 2 ^ 38) } :=
    (lost .field (by decide)).trans ((back .field (by decide)).trans field)
  have judgedField : x.judgeFlt.field = { x.field with flt := x.fltNow } := judgeFlt_field
  rw [fieldX] at judgedField
  refine ⟨FaultJudged.of (judgeFlt_judged mv.1) (by rw [fieldX]), by rw [judgedField], (judgeFlt_rises (rising_reads (by decide)) mv).2,
    (judgeFlt_rises (rising_reads (by decide)) temp).2, fun i low => ?_, fun n low => ?_, fun tp two followed unfollowed i low used own => ?_⟩
  · rw [di_only last (by decide), di_only lost (by decide), di_only back (by decide)]
    exact di i low
  · have foT : x.judgeFlt.fo n = b.fo n := (fo_only last (by decide)).trans (fo_only lost (by decide))
    have chanT : x.judgeFlt.chan 7 n = b.chan 7 n := (chan_only last (by decide)).trans (chan_only lost (by decide))
    have chanU : u.chan 7 n = s.chan 7 n := chan_only noted (by decide)
    have foU : u.fo n = s.fo n := fo_only noted (by decide)
    have judged : u.outJudged n = s.outJudged n := by
      simp only [State.outJudged, State.inValid, State.msPast, foU, field, now_only noted (by decide)]
    obtain ⟨readback, up, down⟩ := fo n low
    rw [foT]
    refine ⟨readback, up, fun isLow judges one calm active inService => ?_⟩
    have counts := down isLow (judged.trans judges) (by rw [foU]; exact one) (by rw [foU]; exact calm) (by rw [foU]; exact active)
      ((congrArg ChanSt.retired chanU).trans inService)
    rw [now_only noted (by decide)] at counts
    exact CountsOnset.congr counts chanU (noted .cfg (by decide)) chanT
  · obtain ⟨si, on⟩ := slots tp two followed unfollowed i low used own
    exact ⟨(si_of_sins (last .sins (by decide))).trans si, (judgeFlt_other (by decide)).trans on⟩

end

/-! A downlink word. -/

section

variable {s : State} {i : Nat} {w : BitVec 64}

/-- A downlink word comes into force. -/
def State.wordApplied (s : State) (w : BitVec 64) : State := s.onField fun f => { f with dnApplied := some w }

/-- The wires that a downlink word does not watch. -/
def State.unwatched (s : State) (w : BitVec 64) : State :=
  forN 16 (fun i s => if w.getLsbD (32 + i) then s else s.onDi i fun d => { d with wire := false }) s

theorem downWord_again (same : s.field.dnLast = some w) : s.downWord w = (s.wordApplied w).unwatched w := if_pos same

theorem unwatched_only : Only [.dis] s (s.unwatched w) := forN_only (fun _ _ h => only_ite h (State.onDi_only h rfl)) (Only.refl _ _)

theorem unwatched_di (whole : Whole s) (low : i < 16) :
    (s.unwatched w).di i = if w.getLsbD (32 + i) then s.di i else { s.di i with wire := false } := by
  have other {j : Nat} {t : State} (n : j ≠ i) : (if w.getLsbD (32 + j) then t else t.onDi j fun d => { d with wire := false }).di i = t.di i := by
    split
    · rfl
    · exact getD_modify_ne n
  refine forN_once (I := fun t => t.di i = s.di i ∧ i < t.dis.length)
    (P := fun t => t.di i = if w.getLsbD (32 + i) then s.di i else { s.di i with wire := false }) low
    (fun j t n h => ⟨(other n).trans h.1, ?_⟩) (fun t h => ?_) (fun j t n h => (other n).trans h) ⟨rfl, (present whole).dis.symm ▸ low⟩
  · split
    · exact h.2
    · exact h.2.trans_eq onDi_length.symm
  · split
    · exact h.1
    · rw [di_onDi_same h.2, h.1]

end

/-- Settles O47. -/
theorem fieldChannels : Obligations.FieldChannels := by
  unfold Obligations.FieldChannels
  intro s whole linked
  refine ⟨fun di => ?inputs, fun n => ?outputs, fun w up => ?words, ?sag, ?sagEnds, ?cut, ?restored⟩
  case inputs =>
    have here : di.val < s.dis.length := (present whole).dis.symm ▸ di.isLt
    refine ⟨fun counts enough => debounce_does whole linked counts enough, fun few => ?_, fun watched => ?_, fun free => ?_, ?_⟩
    · have run : exec (.diDebounceAccept di) s = .next (if (s.di di.val).level == ((s.diAccept di.val).di di.val).level then s.diAccept di.val
        else (s.diAccept di.val).persEdge di.val ((s.diAccept di.val).di di.val).level) := rfl
      rw [run, diAccept_idle few, if_pos (beq_self_eq_true _)]
    · exact ⟨_, if_pos (by rw [linked, watched]; rfl), di_onDi_same here, State.onDi_only (Only.refl _ _) rfl⟩
    · exact if_neg (by rw [free]; simp)
    · exact ⟨_, if_pos linked, di_onDi_same here, State.onDi_only (Only.refl _ _) rfl⟩
  case outputs =>
    have here : n.val < s.dos.length := (present whole).dos.symm ▸ n.isLt
    refine ⟨fun driven => ?_, fun off => if_pos (by simp [off]), fun d due => ?_⟩
    · exact ⟨_, if_neg (by simp [linked, driven]), ⟨fo_onFo_same here, State.due_startT_same⟩,
        State.startT_only (State.onFo_only (Only.refl _ _) rfl) rfl⟩
    · have run : exec (.doThermalRetry n) s = .next (((s.reach d).stopT (.doRetry n.val)).onFo n.val fun o => { o with thermalOff := false }) := by
        show execDoThermalRetry n s = _
        rw [execDoThermalRetry, State.expire_due due]
      exact ⟨_, run, ⟨rfl, fo_onFo_same (s := (s.reach d).stopT _) here⟩, State.onFo_only (Only.upd (Only.refl _ _) rfl expired_only) rfl⟩
  case words =>
    have taken : ¬ (!s.linked || !s.field.flinkUp) = true := by rw [linked, up]; decide
    refine ⟨fun other => ?_, fun same => ?_, ?_⟩
    · have run : exec (.flinkAuxWord true w) s = .next (s.downWord w) := if_neg taken
      have word : s.downWord w = s.onField fun f => { f with dnLast := some w } := if_neg other
      rw [word] at run
      exact ⟨_, run, rfl, State.onField_only (Only.refl _ _) rfl⟩
    · have run : exec (.flinkAuxWord true w) s = .next (s.downWord w) := if_neg taken
      rw [downWord_again same] at run
      have applied : Only [.field] s (s.wordApplied w) := State.onField_only (Only.refl _ _) rfl
      have field : (s.wordApplied w).field = { s.field with dnApplied := some w } := rfl
      have wholeA : Whole (s.wordApplied w) := (State.onField_kept (Kept.refl s)).whole whole
      have di (i : Nat) (low : i < 16) := unwatched_di (w := w) wholeA low
      have wires : Only [.dis] (s.wordApplied w) ((s.wordApplied w).unwatched w) := unwatched_only
      exact ⟨_, run, ⟨(wires .field (by decide)).trans field, di⟩, Only.upd (Only.upd (Only.refl _ _) rfl applied) rfl wires⟩
    · have run : exec (.flinkAuxWord false w) s = .next (s.upWord w) := if_neg taken
      have parts : Only [.regs, .stage, .axes, .fbs, .mots, .legs, .lanes, .cans, .dis, .dos, .field, .sins, .safety, .trace, .log, .chans, .timers] s
        (s.upWord w) := State.upWord_only (Only.refl _ _) rfl
      obtain ⟨judged, tp, mv, temp, wires, outs, slots⟩ := upWord_leaves (w := w) whole
      refine ⟨_, run, ⟨judged, tp.trans ?_, mv.trans ?_, temp.trans ?_, wires, outs, slots⟩, parts⟩
      · simp only [BitVec.extractLsb', Nat.shiftRight_eq_div_pow]
      · simp [BitVec.extractLsb', Nat.shiftRight_eq_div_pow]
      · simp only [BitVec.extractLsb', Nat.shiftRight_eq_div_pow]
  case sag =>
    have field : (s.sagSet true).field = { s.field with sag := true } := sagSet_field
    have begins := sagSet_begins (s := s) whole.regs
    have ok : MapOk (s.sagSet true).regs := (sagSet_rises rising_up (Up.refl whole.regs)).ok
    have parts : Only judgedParts s (s.sagSet true) := State.sagSet_only (Only.refl _ _) rfl
    have run : exec .vfSag s = .next (s.sagSet true).judgeFlt := if_pos linked
    generalize s.sagSet true = u at *
    have fieldT : u.judgeFlt.field = { u.field with flt := u.fltNow } := judgeFlt_field
    rw [field] at fieldT
    refine ⟨_, run, ⟨by rw [fieldT], FaultJudged.of (judgeFlt_judged ok) (by rw [field]), fun off => ?_⟩, State.judgeFlt_only parts rfl⟩
    obtain ⟨on, fault, flagged⟩ := begins off
    exact ⟨(judgeFlt_other (by decide)).trans on, (judgeFlt_rises rising_faulted fault).2, (judgeFlt_rises rising_up (Up.refl ok)).bits _ _ flagged⟩
  case sagEnds =>
    have field : (s.sagSet false).field = { s.field with sag := false } := sagSet_field
    have ends := sagSet_ends (s := s)
    have ok : MapOk (s.sagSet false).regs := (sagSet_rises rising_up (Up.refl whole.regs)).ok
    have parts : Only judgedParts s (s.sagSet false) := State.sagSet_only (Only.refl _ _) rfl
    have run : exec .vfSagClear s = .next (s.sagSet false).judgeFlt := if_pos linked
    generalize s.sagSet false = u at *
    have fieldT : u.judgeFlt.field = { u.field with flt := u.fltNow } := judgeFlt_field
    rw [field] at fieldT
    exact ⟨_, run, ⟨by rw [fieldT], FaultJudged.of (judgeFlt_judged ok) (by rw [field]), fun on => (judgeFlt_other (by decide)).trans (ends on)⟩,
      State.judgeFlt_only parts rfl⟩
  case cut =>
    have field : (s.cutSet true).field = { s.field with cut := true, outSince := if true = s.field.cut then s.field.outSince else s.now } := cutSet_field
    have begins := cutSet_begins (s := s) whole.regs
    have ok : MapOk (s.cutSet true).regs := (cutSet_rises rising_up (Up.refl whole.regs)).ok
    have parts : Only [.regs, .axes, .dis, .field, .safety, .trace, .log] s (s.cutSet true) := State.cutSet_only (Only.refl _ _) rfl
    have di (i : Nat) (low : i < 16) := cutSet_di (v := true) whole low
    have run : exec .vfCut s = .next (s.cutSet true).judgeFlt := if_pos linked
    generalize s.cutSet true = u at *
    have fieldT : u.judgeFlt.field = { u.field with flt := u.fltNow } := judgeFlt_field
    rw [field] at fieldT
    refine ⟨_, run, ⟨by rw [fieldT], FaultJudged.of (judgeFlt_judged ok) (by rw [field]), fun off => ?_⟩, State.judgeFlt_only parts rfl⟩
    obtain ⟨on, fault, flagged⟩ := begins off
    refine ⟨?_, (judgeFlt_other (by decide)).trans on, (judgeFlt_rises rising_faulted fault).2, (judgeFlt_rises rising_up (Up.refl ok)).bits _ _ flagged,
      fun i low => ?_⟩
    · rw [fieldT]
      exact if_neg (by rw [off]; decide)
    · rw [di_only (State.judgeFlt_only (Only.refl judgedParts u) rfl) (by decide), di i low, if_pos ⟨rfl, off⟩]
      exact ⟨rfl, rfl⟩
  case restored =>
    have field : (s.cutSet false).field = { s.field with cut := false, outSince := if false = s.field.cut then s.field.outSince else s.now } :=
      cutSet_field
    have ends := cutSet_ends (s := s) whole.regs
    have ok : MapOk (s.cutSet false).regs := (cutSet_rises rising_up (Up.refl whole.regs)).ok
    have parts : Only [.regs, .axes, .dis, .field, .safety, .trace, .log] s (s.cutSet false) := State.cutSet_only (Only.refl _ _) rfl
    have run : exec .vfRestored s = .next (s.cutSet false).judgeFlt := if_pos linked
    generalize s.cutSet false = u at *
    have fieldT : u.judgeFlt.field = { u.field with flt := u.fltNow } := judgeFlt_field
    rw [field] at fieldT
    refine ⟨_, run, ⟨by rw [fieldT], FaultJudged.of (judgeFlt_judged ok) (by rw [field]), fun on => ?_⟩, State.judgeFlt_only parts rfl⟩
    obtain ⟨off, flagged⟩ := ends on
    refine ⟨?_, (judgeFlt_other (by decide)).trans off, (judgeFlt_rises rising_up (Up.refl ok)).bits _ _ flagged⟩
    rw [fieldT]
    exact if_neg (by rw [on]; decide)

end Sys2Proof.Machine
end


section

/-! PROOF. Bilva messages of this node, and the loss of the time master (R349, R352, R358, R360, R362, R364, R370). -/

namespace Sys2Proof.Machine

open Sys2Proof.Safety Sys2Proof.Claims

section

variable {s t u : State} {p q prio type sub d n : Nat} {data : List Byte} {sync : Option Byte} {x : NtState}

/-! Messages of this node. -/

theorem cn_only {fs : List Part} (h : Only fs s t) (out : .cans ∉ fs) : t.cn p = s.cn p := by
  rw [State.cn, h .cans out]
  rfl

/-- Word 0 of a message of this node. -/
def bilvaWord (c : Cfg) (prio type sub : Nat) : Word := nw (2 ^ 29 + prio * 2 ^ 26 + nodeNo c * 2 ^ 16 + type * 2 ^ 8 + sub % 256)

theorem bilvaWord_fields {c : Cfg} (typeLow : type < 256) (subLow : sub < 256) : bType (bilvaWord c prio type sub) = type ∧
    bNode (bilvaWord c prio type sub) = nodeNo c ∧ fld (bilvaWord c prio type sub) 7 0 = sub := by
  have node : nodeNo c < 1024 := Nat.mod_lt _ (by decide)
  simp only [bilvaWord, bType, bNode, fld, nw, BitVec.toNat_ofNat, Nat.shiftRight_eq_div_pow]
  generalize nodeNo c = m at *
  omega

/-- A message of this node joins the queue of a port that may send. -/
theorem bilvaSend_queues (whole : Whole s) (port : p < 2) (typeLow : type < 256) (subLow : sub < 256) :
    Queues s p type sub data (s.bilvaSend p prio type sub data sync) := by
  intro bilva can inService listens monitors
  unfold State.bilvaSend
  extract_lets c w0 f
  rw [if_neg (by simp [c, bilva, can, inService, listens, monitors]), cn_onCn_same ((present whole).cans.symm ▸ port)]
  obtain ⟨type_, node, sub_⟩ := bilvaWord_fields (c := c) typeLow subLow
  exact ⟨_, rfl, type_, node, sub_, rfl, rfl⟩

theorem bilvaSend_ne (other : q ≠ p) : (s.bilvaSend q prio type sub data sync).cn p = s.cn p := by
  unfold State.bilvaSend
  extract_lets c w0 f
  split
  · rfl
  · exact getD_modify_ne other

/-- A message is queued whatever else has changed, where the ports and the configuration are the same. -/
theorem Queues.congr {v : State} (h : Queues s p type sub data t) (before : u.cn p = s.cn p) (cfg : u.cfg = s.cfg) (after : v.cn p = t.cn p) :
    Queues u p type sub data v := by
  have bilva : bilvaEn u.force p = bilvaEn s.force p := congrArg (bt · p) (force_staged cfg (by decide))
  have node : nodeNo u.force = nodeNo s.force := congrArg (fld · 25 16) (force_staged cfg (by decide))
  have port : canCfg u.force p = canCfg s.force p := force_staged cfg (by decide)
  simp only [Queues, bilva, node, canEn, canMode, port, before, after] at *
  exact h

/-- A message goes out on every port (R352). -/
theorem bilvaAll_queues (whole : Whole s) (port : p < 2) (typeLow : type < 256) (subLow : sub < 256) :
    Queues s p type sub data (s.bilvaAll prio type sub data) := by
  by_cases on : bilvaEn s.force p = true
  · have mem : p ∈ bilvaPorts s.force := List.mem_filter.mpr ⟨List.mem_range.mpr port, on⟩
    have nodup : (bilvaPorts s.force).Nodup := List.nodup_range.filter _
    refine forL_once (I := fun t => Whole t ∧ t.cfg = s.cfg ∧ t.cn p = s.cn p) (P := Queues s p type sub data) nodup mem (fun j t other h => ?_)
      (fun t h => ?_) (fun j t other h => ?_) ⟨whole, rfl, rfl⟩
    · exact ⟨(State.bilvaSend_kept (Kept.refl t)).whole h.1, (State.bilvaSend_only (Only.refl [.cans] t) rfl .cfg (by decide)).trans h.2.1,
        (bilvaSend_ne other).trans h.2.2⟩
    · exact Queues.congr (bilvaSend_queues h.1 port typeLow subLow) h.2.2.symm h.2.1.symm rfl
    · exact Queues.congr h rfl rfl (bilvaSend_ne other)
  · exact fun bilva => absurd bilva on

/-! States of network time. -/

/-- An armed STRIKE_AT is cancelled (R65). -/
theorem cancelStrikeAt_cancels (ok : MapOk s.regs) : StrikeCancelled s s.cancelStrikeAt := by
  intro T due
  unfold State.cancelStrikeAt
  rw [due]
  have staged : Only [.regs, .trace] (s.onStage fun g => { g with state := .proved, due := none, tag := none, commit := false })
      ((s.onStage fun g => { g with state := .proved, due := none, tag := none, commit := false }).event pgSys 4) := State.event_only (Only.refl _ _) rfl
  have stage : ((s.onStage fun g => { g with state := .proved, due := none, tag := none, commit := false }).event pgSys 4).stage =
      { s.stage with state := .proved, due := none, tag := none, commit := false } := staged .stage (by decide)
  refine ⟨by rw [stage], by rw [stage], by rw [stage], ?_⟩
  exact (event_flags (s := s.onStage _) (p := pgSys) (bits := 4) (i := 2) ok (by decide)).2

theorem StrikeCancelled.of (h : StrikeCancelled u t) (stage : u.stage = s.stage) : StrikeCancelled s t := by
  unfold StrikeCancelled at *
  rw [← stage]
  exact h

/-- The time state as it is set. -/
def State.ntTaken (s : State) (x : NtState) : State := s.onTime fun t => { t with nt := x }

theorem setNt_eq : s.setNt x = if s.ntValid && !(s.ntTaken x).ntValid then ((s.ntTaken x).raise srcNtInvalid 16).cancelStrikeAt
    else if !s.ntValid && (s.ntTaken x).ntValid then (s.ntTaken x).clearSrc srcNtInvalid 16 else s.ntTaken x := rfl

theorem setNt_time : (s.setNt x).time = { s.time with nt := x } := by
  have taken : (s.ntTaken x).time = { s.time with nt := x } := rfl
  rw [setNt_eq]
  split
  · exact (State.cancelStrikeAt_only (State.raise_only (Only.refl [.regs, .axes, .safety, .trace, .log, .stage] (s.ntTaken x)) rfl) rfl .time
      (by decide)).trans taken
  · split
    · exact taken
    · exact taken

theorem setNt_now : (s.setNt x).now = s.now := by rw [State.now, setNt_time]; rfl

/-- Network time becomes invalid (R65, R365). -/
theorem setNt_invalid (ok : MapOk s.regs) (valid : s.ntValid = true) : (s.setNt .unlocked).srcOn srcNtInvalid 16 = true ∧
    StrikeCancelled s (s.setNt .unlocked) := by
  have gone : (s.ntTaken .unlocked).ntValid = false := by simp [State.ntValid, State.ntTaken, State.onTime]
  rw [setNt_eq, if_pos (by rw [valid, gone]; rfl)]
  have up : Up (s.ntTaken .unlocked) ((s.ntTaken .unlocked).raise srcNtInvalid 16) := rising_up.raise (Up.refl (s := s.ntTaken .unlocked) ok)
  have parts : Only [.regs, .axes, .safety, .trace, .log] (s.ntTaken .unlocked) ((s.ntTaken .unlocked).raise srcNtInvalid 16) :=
    State.raise_only (Only.refl _ _) rfl
  have on : ((s.ntTaken .unlocked).raise srcNtInvalid 16).srcOn srcNtInvalid 16 = true := raise_on
  have stage : ((s.ntTaken .unlocked).raise srcNtInvalid 16).stage = s.stage := parts .stage (by decide)
  generalize (s.ntTaken .unlocked).raise srcNtInvalid 16 = u at *
  exact ⟨(srcOn_only (State.cancelStrikeAt_only (Only.refl [.regs, .stage, .trace] u) rfl) (by decide)).trans on,
    StrikeCancelled.of (cancelStrikeAt_cancels up.ok) stage⟩

/-! The loss of the master. -/

/-- What the loss of the master does to the time state (R360, R362). -/
def State.ntLost (s : State) : State :=
  match s.time.nt with
  | .acquiring => (s.onTime fun t => { t with stepOk := true }).setNt .unlocked
  | .locked => (s.setNt .holdover).startT .holdover (s.time.lastAcc + holdMax s.force)
  | _ => s

/-- A node with a backup priority waits. -/
def State.backupWaits (s : State) (c : Cfg) : State :=
  if ntRole c = 0 ∧ backupPrio c ≠ 0 then s.startT .backup (s.now + msT (100 * backupPrio c)) else s

/-- The loss is declared. -/
def State.lossDeclared (s : State) : State := s.onTime fun t => { t with lost := true }

theorem masterLoss_runs (due : s.due .masterLoss = some d) :
    exec .masterLoss s = .next (((s.reach d).stopT .masterLoss).lossDeclared.ntLost.backupWaits s.force) := by
  show execMasterLoss s = _
  rw [execMasterLoss, State.expire_due due]
  rfl

abbrev ntParts : List Part := [.regs, .time, .stage, .axes, .safety, .trace, .log]

theorem ntLost_only : Only (.timers :: ntParts) s s.ntLost := by
  unfold State.ntLost
  split
  · exact State.setNt_only (State.onTime_only (Only.refl _ _) rfl) rfl
  · exact State.startT_only (State.setNt_only (Only.refl _ _) rfl) rfl
  · exact Only.refl _ _

theorem ntLost_now : s.ntLost.now = s.now := by
  unfold State.ntLost
  split
  · exact setNt_now
  · exact setNt_now (s := s)
  · rfl

theorem ntLost_acquiring (nt : s.time.nt = .acquiring) : s.ntLost.time = { s.time with stepOk := true, nt := .unlocked } := by
  unfold State.ntLost
  rw [nt]
  exact setNt_time

theorem ntLost_locked (nt : s.time.nt = .locked) : s.ntLost.time = { s.time with nt := .holdover } ∧
    s.ntLost.due .holdover = some (s.time.lastAcc + holdMax s.force) := by
  unfold State.ntLost
  rw [nt]
  exact ⟨setNt_time (s := s), State.due_startT_same⟩

theorem ntLost_other (acquiring : s.time.nt ≠ .acquiring) (locked : s.time.nt ≠ .locked) : s.ntLost = s := by
  unfold State.ntLost
  split
  · next nt => exact absurd nt acquiring
  · next nt => exact absurd nt locked
  · rfl

theorem backupWaits_only {c : Cfg} : Only [.timers] s (s.backupWaits c) := only_ite (State.startT_only (Only.refl _ _) rfl) (Only.refl _ _)

theorem backupWaits_due {c : Cfg} {y : Timer} (other : y ≠ .backup) : (s.backupWaits c).due y = s.due y := by
  unfold State.backupWaits
  split
  · exact State.due_startT_ne other
  · rfl

/-! SYNC. -/

/-- A SYNC goes out on port p, and the next one follows (R364). -/
def State.syncSent (s : State) (p : Nat) : State :=
  let q := s.time.syncSeq.getD p 0
  ((s.bilvaSend p 0 0x01 q.toNat [] (some q)).onTime fun t => { t with syncSeq := t.syncSeq.set p (q + 1) }).startT (.syncSend p) (s.now + msT 100)

theorem syncSend_runs {port : PortIx} (up : s.up = true) (sends : s.sendsSync port.val = true) (due : s.due (.syncSend port.val) = some d) :
    exec (.syncSend port) s = .next ((s.reach d).syncSent port.val) := by
  show execSyncSend port s = _
  unfold execSyncSend
  refine (if_neg (by simp [up, sends])).trans ?_
  rw [due]
  have sent : Only [.cans] (s.reach d) ((s.reach d).bilvaSend port.val 0 0x01 ((s.reach d).time.syncSeq.getD port.val 0).toNat []
      (some ((s.reach d).time.syncSeq.getD port.val 0))) := State.bilvaSend_only (Only.refl _ _) rfl
  have now := now_only sent (by decide)
  unfold State.syncSent
  rw [← now]
  rfl

theorem syncSent_leaves (whole : Whole s) (port : p < 2) : (s.syncSent p).time = { s.time with
      syncSeq := s.time.syncSeq.set p (s.time.syncSeq.getD p 0 + 1) } ∧ Queues s p 1 (s.time.syncSeq.getD p 0).toNat [] (s.syncSent p) ∧
    (s.syncSent p).due (.syncSend p) = some (s.now + msT 100) := by
  have queued := bilvaSend_queues (prio := 0) (type := 0x01) (data := []) (sync := some (s.time.syncSeq.getD p 0)) whole port (by decide)
    (s.time.syncSeq.getD p 0).isLt
  have sent : Only [.cans] s (s.bilvaSend p 0 0x01 (s.time.syncSeq.getD p 0).toNat [] (some (s.time.syncSeq.getD p 0))) :=
    State.bilvaSend_only (Only.refl _ _) rfl
  have time := sent .time (by decide)
  unfold State.syncSent
  dsimp only
  generalize s.bilvaSend p 0 0x01 (s.time.syncSeq.getD p 0).toNat [] (some (s.time.syncSeq.getD p 0)) = u at *
  have time : u.time = s.time := time
  refine ⟨?_, Queues.congr queued rfl rfl rfl, State.due_startT_same⟩
  rw [← time]
  rfl

theorem syncSent_only : Only [.time, .cans, .timers] s (s.syncSent p) :=
  State.startT_only (State.onTime_only (State.bilvaSend_only (Only.refl _ _) rfl) rfl) rfl

end

/-- Settles O51. -/
theorem timeMasters : Obligations.TimeMasters := by
  unfold Obligations.TimeMasters
  intro s d whole
  refine ⟨fun due => ?loss, fun due => ?backup, fun due => ?holdover, fun port up => ⟨fun sends due => ?sends, fun silent => ?silent⟩,
    fun out up ok => ?pulses, fun out on off => if_pos (by simp [off])⟩
  case loss =>
    have run := masterLoss_runs due
    have parts : Only [.time, .timers] s ((s.reach d).stopT .masterLoss).lossDeclared := State.onTime_only (Only.upd (Only.refl _ _) rfl expired_only) rfl
    have time : ((s.reach d).stopT .masterLoss).lossDeclared.time = { s.time with tick := max s.time.tick d, lost := true } := rfl
    have force : holdMax ((s.reach d).stopT .masterLoss).lossDeclared.force = holdMax s.force := rfl
    generalize ((s.reach d).stopT .masterLoss).lossDeclared = u at *
    have lost : Only (.timers :: ntParts) u u.ntLost := ntLost_only
    have waits : Only [.timers] u.ntLost (u.ntLost.backupWaits s.force) := backupWaits_only
    have timeW : (u.ntLost.backupWaits s.force).time = u.ntLost.time := waits .time (by decide)
    refine ⟨_, run, ⟨fun nt => ?_, fun nt => ?_, fun acquiring locked => ?_, fun role prio => ?_⟩,
      Only.upd (Only.upd (Only.upd (Only.refl _ _) rfl parts) rfl lost) rfl waits⟩
    · rw [timeW, ntLost_acquiring (by rw [time]; exact nt), time]
    · obtain ⟨timeL, dueL⟩ := ntLost_locked (s := u) (by rw [time]; exact nt)
      rw [timeW, timeL, backupWaits_due (by decide), dueL, force, time]
      exact ⟨rfl, rfl⟩
    · rw [timeW, ntLost_other (by rw [time]; exact acquiring) (by rw [time]; exact locked), time]
    · rw [State.backupWaits, if_pos ⟨role, prio⟩, State.due_startT_same, ntLost_now, State.now, time]
  case backup =>
    have run : exec .backupMasterStart s = .next (if s.time.lost && decide (s.time.lastSync + msT (100 * backupPrio s.force) ≤ max s.time.tick d) then
        ((s.reach d).stopT .backup).onTime fun t => { t with backup := true } else (s.reach d).stopT .backup) := by
      show execBackupMasterStart s = _
      rw [execBackupMasterStart, State.expire_due due]
      rfl
    have none_ : ((s.reach d).stopT .backup).due .backup = none := State.due_stopT_same
    refine ⟨_, run, ?_, only_ite (State.onTime_only (Only.upd (Only.refl _ _) rfl expired_only) rfl) (Only.upd (Only.refl _ _) rfl expired_only)⟩
    simp only [Bool.and_eq_true, decide_eq_true_eq]
    split
    · exact ⟨none_, rfl⟩
    · exact ⟨none_, rfl⟩
  case holdover =>
    have run : exec .holdoverExpiry s = .next (if s.time.nt = .holdover then (((s.reach d).stopT .holdover).onTime fun t => { t with
        stepOk := bt (ntCfg s.force) 4 }).setNt .unlocked else (s.reach d).stopT .holdover) := by
      show execHoldoverExpiry s = _
      rw [execHoldoverExpiry, State.expire_due due]
      rfl
    have none_ : (((s.reach d).stopT .holdover).onTime fun t => { t with stepOk := bt (ntCfg s.force) 4 }).due .holdover = none :=
      State.due_stopT_same (s := s.reach d)
    have valid (nt : s.time.nt = .holdover) : (((s.reach d).stopT .holdover).onTime fun t => { t with stepOk := bt (ntCfg s.force) 4 }).ntValid = true := by
      show decide (s.time.nt = .locked ∨ s.time.nt = .holdover ∨ s.time.nt = .grandmaster) = true
      rw [nt]
      rfl
    have time : (((s.reach d).stopT .holdover).onTime fun t => { t with stepOk := bt (ntCfg s.force) 4 }).time =
        { s.time with tick := max s.time.tick d, stepOk := bt (s.cf pgTime TIME.NT_CFG) 4 } := rfl
    have parts : Only [.time, .timers] s (((s.reach d).stopT .holdover).onTime fun t => { t with stepOk := bt (ntCfg s.force) 4 }) :=
      State.onTime_only (Only.upd (Only.refl _ _) rfl expired_only) rfl
    by_cases nt : s.time.nt = .holdover
    · rw [if_pos nt] at run
      generalize ((s.reach d).stopT .holdover).onTime (fun t => { t with stepOk := bt (ntCfg s.force) 4 }) = u at *
      have last : Only ntParts u (u.setNt .unlocked) := State.setNt_only (Only.refl _ _) rfl
      have timeT : (u.setNt .unlocked).time = { u.time with nt := .unlocked } := setNt_time
      have regs : u.regs = s.regs := parts .regs (by decide)
      obtain ⟨on, cancelled⟩ := setNt_invalid (by rw [regs]; exact whole.regs) (valid nt)
      refine ⟨_, run, ⟨(due_only last (by decide)).trans none_, fun _ => ⟨?_, on, StrikeCancelled.of cancelled (parts .stage (by decide))⟩,
        fun other => absurd nt other⟩, Only.upd (Only.upd (Only.refl _ _) rfl parts) rfl last⟩
      rw [timeT, time]
    · rw [if_neg nt] at run
      exact ⟨_, run, ⟨State.due_stopT_same, fun yes => absurd yes nt, fun _ => rfl⟩, Only.upd (Only.refl _ _) rfl expired_only⟩
  case sends =>
    obtain ⟨time, queued, next⟩ := syncSent_leaves (p := port.val) (show Whole (s.reach d) from (State.reach_kept (Kept.refl s)).whole whole) port.isLt
    exact ⟨_, syncSend_runs up sends due, ⟨time, Queues.congr queued rfl rfl rfl, next⟩,
      Only.upd (State.reach_only (Only.refl _ _) rfl) rfl syncSent_only⟩
  case silent =>
    exact ⟨_, if_pos (by simp [silent]), State.due_stopT_same, State.stopT_only (Only.refl _ _) rfl⟩
  case pulses =>
    have takes : ¬ (!s.up || !s.tpoOk out.val) = true := by rw [up, ok]; decide
    exact ⟨⟨_, if_neg takes, rfl, State.onTime_only (State.reach_only (Only.refl _ _) rfl) rfl⟩,
      fun high => ⟨_, (if_neg takes).trans ((if_neg (by decide)).trans (if_pos high)), rfl,
        State.onTime_only (State.reach_only (Only.refl _ _) rfl) rfl⟩⟩

end Sys2Proof.Machine
end


section

/-! PROOF. Network strikes: acceptance, refusal, acknowledgement, cancellation (R65, R367 to R369). -/

namespace Sys2Proof.Machine

open Sys2Proof.Safety Sys2Proof.Claims

section

variable {s t u : State} {p T e : Nat} {port : PortIx} {node : BitVec 10} {tag orig : BitVec 16} {data : List Byte}

/-- A message of another node acts. -/
theorem bilvaFrom_acts {act : State → State} (bilva : bilvaEn s.force p = true) (on : s.canOn p = true) (other : node.toNat ≠ nodeNo s.force) :
    s.bilvaFrom p node act = act s := by
  have up : s.up = true := by
    simp only [State.canOn, Bool.and_eq_true] at on
    exact on.1.1.1
  unfold State.bilvaFrom
  rw [if_neg (by simp [up, bilva, on]), if_neg other]

/-! A strike at a network time. -/

/-- The code that a STRIKE_AT message gets (R368). -/
def State.strikeCode (s : State) (T : Nat) : Nat :=
  if s.stage.owner ≠ some .host then eOwned else if s.stage.state ≠ .proved then eState else (s.strikeAtFail T).getD eNone

/-- This device accepts the tag, and its stage is not armed for it already. -/
def State.tagMine (s : State) (tag : BitVec 16) : Prop :=
  bt (s.lv pgBilva BILVA.ACCEPT) 16 = true ∧ fld (s.lv pgBilva BILVA.ACCEPT) 15 0 = tag.toNat ∧
    ¬ (s.stage.state = .armed ∧ s.stage.tag = some tag)

/-- The stage is armed, or the strike is refused. -/
def State.strikeTaken (s : State) (T : Nat) (tag : BitVec 16) (code : Nat) : State :=
  if code = eNone then s.armStrikeAt T (some tag) else s.refuseBy .host code 0x05 (regAddr pgSys SYS.CMD)

/-- The data of an acknowledgement (Table 14-9). -/
def ackData (tag orig : BitVec 16) (code : Nat) (st : StageState) : List Byte :=
  leBytes 2 tag.toNat ++ leBytes 2 orig.toNat ++ leBytes 1 code ++ leBytes 1 st.code ++ leBytes 2 0

theorem netStrike_mine (mine : s.tagMine tag) : s.netStrike T tag orig =
    (s.strikeTaken T tag (s.strikeCode T)).bilvaAll 4 0x22 0 (ackData tag orig (s.strikeCode T) (s.strikeTaken T tag (s.strikeCode T)).stage.state) := by
  obtain ⟨accepts, same, free⟩ := mine
  unfold State.netStrike
  extract_lets acc code taken
  refine (if_neg (by simp only [acc, accepts, same, Bool.not_true, Bool.false_or, bne_self_eq_false, Bool.and_eq_true, decide_eq_true_eq]; exact free)).trans ?_
  rfl

theorem netStrike_other (other : ¬ s.tagMine tag) : s.netStrike T tag orig = s := by
  unfold State.netStrike
  refine if_pos ?_
  by_contra no
  simp only [Bool.or_eq_true, Bool.not_eq_true', not_or, Bool.not_eq_false, bne_iff_ne, ne_eq, Decidable.not_not, Bool.and_eq_true, decide_eq_true_eq] at no
  exact other ⟨no.1.1, no.1.2, no.2⟩

theorem strikeTaken_only {code : Nat} : Only [.regs, .stage, .host, .mgr, .trace, .log] s (s.strikeTaken T tag code) :=
  only_ite (State.armStrikeAt_only (Only.refl _ _) rfl) (State.refuseBy_only (Only.refl _ _) rfl)

theorem strikeTaken_whole {code : Nat} (whole : Whole s) : Whole (s.strikeTaken T tag code) := by
  unfold State.strikeTaken
  split
  · exact (State.armStrikeAt_kept (Kept.refl s)).whole whole
  · exact (State.refuseBy_kept (Kept.refl s)).whole whole

/-- A stage that is armed at a network time (R64). -/
theorem armStrikeAt_leaves {tag : Option (BitVec 16)} (ok : MapOk s.regs) : (s.armStrikeAt T tag).stage = { s.stage with
      state := .armed, due := some (.net T), tag := tag, proof := none } ∧
    Reads pgSys SYS.STRIKE_DUE_LO (loW T) (s.armStrikeAt T tag) ∧ Reads pgSys SYS.STRIKE_DUE_HI (hiW T) (s.armStrikeAt T tag) := by
  unfold State.armStrikeAt State.setPair
  refine ⟨rfl, ?_, reads_setLv (MapOk.set (m := s.regs) ok)⟩
  exact (reads_setLv (s := s.onStage _) ok).setLv_ne (by decide)

/-- What a strike message that is for this device leaves (R368, R369). -/
theorem netStrike_leaves (whole : Whole s) (mine : s.tagMine tag) :
    let v := s.netStrike T tag orig
    (∀ p < 2, Queues s p 0x22 0 (ackData tag orig (s.strikeCode T) v.stage.state) v) ∧
      (s.strikeCode T = eNone → v.stage = { s.stage with state := .armed, due := some (.net T), tag := some tag, proof := none } ∧
        v.lv pgSys SYS.STRIKE_DUE_LO = loW T ∧ v.lv pgSys SYS.STRIKE_DUE_HI = hiW T) ∧
      (s.strikeCode T ≠ eNone → v.stage = s.stage ∧ v.lv pgSys SYS.REFUSED_COUNT = countUp (s.lv pgSys SYS.REFUSED_COUNT) ∧ Flagged v pgSys 3) := by
  intro v
  have eq : v = _ := netStrike_mine mine
  have taken : Only [.regs, .stage, .host, .mgr, .trace, .log] s (s.strikeTaken T tag (s.strikeCode T)) := strikeTaken_only
  have wholeU : Whole (s.strikeTaken T tag (s.strikeCode T)) := strikeTaken_whole whole
  have done (code : s.strikeCode T = eNone) : s.strikeTaken T tag (s.strikeCode T) = s.armStrikeAt T (some tag) := if_pos code
  have bad (code : s.strikeCode T ≠ eNone) : s.strikeTaken T tag (s.strikeCode T) = s.refuseBy .host (s.strikeCode T) 0x05 (regAddr pgSys SYS.CMD) :=
    if_neg code
  clear_value v
  generalize s.strikeTaken T tag (s.strikeCode T) = u at *
  have sent : Only [.cans] u (u.bilvaAll 4 0x22 0 (ackData tag orig (s.strikeCode T) u.stage.state)) := State.bilvaAll_only (Only.refl _ _) rfl
  have queued (p : Nat) (port : p < 2) := bilvaAll_queues (prio := 4) (type := 0x22) (sub := 0)
    (data := ackData tag orig (s.strikeCode T) u.stage.state) wholeU port (by decide) (by decide)
  rw [← eq] at sent queued
  have stage : v.stage = u.stage := sent .stage (by decide)
  have regs : v.regs = u.regs := sent .regs (by decide)
  refine ⟨fun p port => ?_, fun code => ?_, fun code => ?_⟩
  · rw [stage]
    exact Queues.congr (queued p port) (cn_only taken (by decide)).symm (taken .cfg (by decide)).symm rfl
  · obtain ⟨armed, lo, hi⟩ := armStrikeAt_leaves (s := s) (T := T) (tag := some tag) whole.regs
    rw [stage, lv_of_regs regs, lv_of_regs regs, done code]
    exact ⟨armed, lo.2, hi.2⟩
  · have refused : Only [.regs, .host, .mgr, .trace, .log] s (s.refuseBy .host (s.strikeCode T) 0x05 (regAddr pgSys SYS.CMD)) :=
      State.refuseBy_only (Only.refl _ _) rfl
    rw [bad code] at stage regs
    rw [stage, lv_of_regs regs]
    exact ⟨refused .stage (by decide), State.refuseBy_counts whole.regs, flagged_of_regs (State.refuseBy_flags whole.regs) regs⟩

/-! This node's own strike. -/

/-- The strike's time and tag as they stand in the registers. -/
def State.strikeTime (s : State) : Nat := upair64 (s.lv pgBilva BILVA.NETSTRIKE_T_LO) (s.lv pgBilva BILVA.NETSTRIKE_T_HI)

/-- The strike's tag. -/
def State.strikeTag (s : State) : Nat := fld (s.lv pgBilva BILVA.NETSTRIKE_TAG) 15 0

/-- The data of a STRIKE_AT message (Table 14-9). -/
def State.strikeData (s : State) : List Byte :=
  leBytes 8 s.strikeTime ++ leBytes 2 (BitVec.ofNat 16 s.strikeTag).toNat ++ leBytes 2 (nodeNo s.force)

theorem strikeTag_word : (BitVec.ofNat 16 s.strikeTag).toNat = s.strikeTag := by
  have low : s.strikeTag < 65536 := Nat.mod_lt _ (by decide)
  rw [BitVec.toNat_ofNat]
  exact Nat.mod_eq_of_lt low

/-- The acknowledgements are counted anew, and the message goes out (R367). -/
def State.strikeSent (s : State) : State := (s.setLv pgBilva BILVA.NETSTRIKE_ACKS 0).bilvaAll 2 0x20 0 s.strikeData

theorem netSend_eq {loc : Bool} : s.netSend loc =
    if loc then s.strikeSent.netStrike s.strikeTime (BitVec.ofNat 16 s.strikeTag) (BitVec.ofNat 16 (nodeNo s.force)) else s.strikeSent := rfl

theorem strikeSent_only : Only [.regs, .cans] s s.strikeSent := State.bilvaAll_only (State.setLv_only (Only.refl _ _) rfl) rfl

theorem strikeSent_whole (whole : Whole s) : Whole s.strikeSent := (State.bilvaAll_kept (State.setLv_kept (Kept.refl s))).whole whole

theorem strikeSent_leaves (whole : Whole s) : OneReg s pgBilva BILVA.NETSTRIKE_ACKS (fun _ => 0) s.strikeSent ∧
    ∀ p < 2, Queues s p 0x20 0 (leBytes 8 s.strikeTime ++ leBytes 2 s.strikeTag ++ leBytes 2 (nodeNo s.force)) s.strikeSent := by
  have wholeC : Whole (s.setLv pgBilva BILVA.NETSTRIKE_ACKS 0) := (State.setLv_kept (Kept.refl s)).whole whole
  have regs : s.strikeSent.regs = (s.setLv pgBilva BILVA.NETSTRIKE_ACKS 0).regs := State.bilvaAll_only (Only.refl [.cans] _) rfl .regs (by decide)
  have data : s.strikeData = leBytes 8 s.strikeTime ++ leBytes 2 s.strikeTag ++ leBytes 2 (nodeNo s.force) := by rw [State.strikeData, strikeTag_word]
  refine ⟨OneReg.to_regs (oneReg_setLv whole.regs (by decide)) regs, fun p port => ?_⟩
  rw [← data]
  exact Queues.congr (bilvaAll_queues (prio := 2) (type := 0x20) (sub := 0) (data := s.strikeData) wholeC port (by decide) (by decide)) rfl rfl rfl

/-- Nothing that a strike is judged by has changed. -/
theorem strikeAtFail_only {fs : List Part} (h : Only fs s t) (cfg : .cfg ∉ fs) (time : .time ∉ fs) : t.strikeAtFail T = s.strikeAtFail T := by
  have time_ : t.time = s.time := h .time time
  have len : frameLen t.force = frameLen s.force := congrArg BitVec.toNat (force_staged (h .cfg cfg) (by decide))
  simp only [State.strikeAtFail, State.ntAt, State.ntFine, State.ntValid, State.now, time_, len]
  rfl

/-- A strike of this node that its own stage takes too (R367). -/
theorem strikeSent_armed (whole : Whole s) (accepts : bt (s.lv pgBilva BILVA.ACCEPT) 16 = true) (same : fld (s.lv pgBilva BILVA.ACCEPT) 15 0 = s.strikeTag)
    (proved : s.stage.state = .proved) (owner : s.stage.owner = some .host) (good : s.strikeAtFail s.strikeTime = none) :
    (s.netSend true).lv pgBilva BILVA.NETSTRIKE_ACKS = 0 ∧ (s.netSend true).stage.state = .armed ∧
      (s.netSend true).stage.due = some (.net s.strikeTime) := by
  rw [netSend_eq, if_pos rfl]
  have sent : Only [.regs, .cans] s s.strikeSent := strikeSent_only
  obtain ⟨one, -⟩ := strikeSent_leaves whole
  have ok : MapOk s.strikeSent.regs := (strikeSent_whole whole).regs
  have acks : s.strikeSent.lv pgBilva BILVA.NETSTRIKE_ACKS = 0 := (one _ _ (by decide)).trans (if_pos ⟨rfl, rfl⟩)
  have accept : s.strikeSent.lv pgBilva BILVA.ACCEPT = s.lv pgBilva BILVA.ACCEPT := (one _ _ (by decide)).trans (if_neg (by decide))
  have stage : s.strikeSent.stage = s.stage := sent .stage (by decide)
  have fail : s.strikeSent.strikeAtFail s.strikeTime = none := (strikeAtFail_only sent (by decide) (by decide)).trans good
  generalize s.strikeSent = u at *
  have mine : u.tagMine (BitVec.ofNat 16 s.strikeTag) := by
    refine ⟨by rw [accept]; exact accepts, by rw [accept, same, strikeTag_word], ?_⟩
    rintro ⟨armed, -⟩
    rw [stage, proved] at armed
    exact absurd armed (by decide)
  have code : u.strikeCode s.strikeTime = eNone := by
    rw [State.strikeCode, stage, owner, proved, fail]
    rfl
  have taken : u.strikeTaken s.strikeTime (BitVec.ofNat 16 s.strikeTag) (u.strikeCode s.strikeTime) =
      u.armStrikeAt s.strikeTime (some (BitVec.ofNat 16 s.strikeTag)) := if_pos code
  have eq := netStrike_mine (T := s.strikeTime) (orig := BitVec.ofNat 16 (nodeNo s.force)) mine
  rw [taken] at eq
  obtain ⟨armed, -, -⟩ := armStrikeAt_leaves (s := u) (T := s.strikeTime) (tag := some (BitVec.ofNat 16 s.strikeTag)) ok
  have acksA : Reads pgBilva BILVA.NETSTRIKE_ACKS 0 (u.armStrikeAt s.strikeTime (some (BitVec.ofNat 16 s.strikeTag))) :=
    ((Reads.of_regs ⟨ok, acks⟩ rfl : Reads pgBilva BILVA.NETSTRIKE_ACKS 0 (u.onStage _)).setLv_ne (by decide)).setLv_ne (by decide)
  rw [eq]
  generalize u.armStrikeAt s.strikeTime (some (BitVec.ofNat 16 s.strikeTag)) = a at *
  have last : Only [.cans] a (a.bilvaAll 4 0x22 0 (ackData (BitVec.ofNat 16 s.strikeTag) (BitVec.ofNat 16 (nodeNo s.force)) (u.strikeCode s.strikeTime)
      a.stage.state)) := State.bilvaAll_only (Only.refl _ _) rfl
  have stageT := last .stage (by decide)
  rw [lv_only last (by decide), show _ = a.stage from stageT, armed]
  exact ⟨acksA.2, rfl, rfl⟩

end

/-- Settles O52. -/
theorem networkStrikes : Obligations.NetworkStrikes := by
  unfold Obligations.NetworkStrikes
  refine ⟨fun port node T tag orig s whole bilva on other => ?_, fun s whole up => ?_⟩
  · extract_lets acc mine code answer
    have acts {act : State → State} : s.bilvaFrom port.val node act = act s := bilvaFrom_acts bilva on other
    refine ⟨fun yes => ?strikes, fun no => ?ignored, fun tagged => ?cancels, fun free => ?kept, fun code st => ⟨fun ours good => ?acks, fun ours bad => ?naks,
      fun no => ?others⟩⟩
    case strikes =>
      have run : exec (.bilvaStrikeAt port node T tag orig) s = .next (s.netStrike T.toNat tag orig) := congrArg Host.Outcome.next acts
      have parts : Only [.regs, .stage, .host, .mgr, .cans, .trace, .log] s (s.netStrike T.toNat tag orig) := State.netStrike_only (Only.refl _ _) rfl
      exact ⟨_, run, netStrike_leaves whole yes, Only.upd (Only.refl _ _) rfl parts⟩
    case ignored =>
      have run : exec (.bilvaStrikeAt port node T tag orig) s = .next (s.netStrike T.toNat tag orig) := congrArg Host.Outcome.next acts
      rw [run, netStrike_other no]
    case cancels =>
      have run : exec (.strikeCancel port node tag orig) s = .next s.cancelStrikeAt := congrArg Host.Outcome.next (acts.trans (if_pos tagged))
      exact ⟨_, run, cancelStrikeAt_cancels whole.regs, State.cancelStrikeAt_only (Only.refl _ _) rfl⟩
    case kept => exact congrArg Host.Outcome.next (acts.trans (if_neg free))
    case acks =>
      have mineToo : ¬ (orig.toNat ≠ nodeNo s.force ∨ tag.toNat ≠ fld (s.lv pgBilva BILVA.NETSTRIKE_TAG) 15 0) := fun no =>
        no.elim (fun n => n ours.1) (fun n => n ours.2)
      have run : exec (.strikeAck port node tag orig code st) s = .next ((s.incHalf pgBilva BILVA.NETSTRIKE_ACKS false).event pgBilva 8) :=
        congrArg Host.Outcome.next (acts.trans ((if_neg mineToo).trans (if_pos good)))
      have counted := reads_incHalf_lower (p := pgBilva) (o := BILVA.NETSTRIKE_ACKS) whole.regs
      exact ⟨_, run, ⟨(counted.event (by decide)).2, (event_flags counted.1 (by decide)).2⟩,
        State.event_only (State.incHalf_only (Only.refl _ _) rfl) rfl⟩
    case naks =>
      have mineToo : ¬ (orig.toNat ≠ nodeNo s.force ∨ tag.toNat ≠ fld (s.lv pgBilva BILVA.NETSTRIKE_TAG) 15 0) := fun no =>
        no.elim (fun n => n ours.1) (fun n => n ours.2)
      have run : exec (.strikeAck port node tag orig code st) s = .next (((s.incHalf pgBilva BILVA.NETSTRIKE_ACKS true).setLv pgBilva
          BILVA.NETSTRIKE_LAST_NAK (nw (node.toNat * 65536 + code.toNat))).event pgBilva 16) :=
        congrArg Host.Outcome.next (acts.trans ((if_neg mineToo).trans (if_neg bad)))
      have counted := reads_incHalf_upper (p := pgBilva) (o := BILVA.NETSTRIKE_ACKS) whole.regs
      have last := reads_setLv (p := pgBilva) (o := BILVA.NETSTRIKE_LAST_NAK) (v := nw (node.toNat * 65536 + code.toNat)) counted.1
      have counted := counted.setLv_ne (q := pgBilva) (r := BILVA.NETSTRIKE_LAST_NAK) (v := nw (node.toNat * 65536 + code.toNat)) (by decide)
      exact ⟨_, run, ⟨(counted.event (by decide)).2, (event_flags counted.1 (by decide)).2, (last.event (by decide)).2⟩,
        State.event_only (State.setLv_only (State.incHalf_only (Only.refl _ _) rfl) rfl) rfl⟩
    case others =>
      have foreign : orig.toNat ≠ nodeNo s.force ∨ tag.toNat ≠ fld (s.lv pgBilva BILVA.NETSTRIKE_TAG) 15 0 := by
        by_contra none
        rw [not_or, not_not, not_not] at none
        exact no none
      exact congrArg Host.Outcome.next (acts.trans (if_pos foreign))
  · extract_lets T tag acc
    have wholeT : Whole (s.touch .host) := (State.touch_kept (Kept.refl s)).whole whole
    have touched : Only [.host] s (s.touch .host) := touchHost_only (Only.refl _ _) rfl
    have regs : (s.touch .host).regs = s.regs := touched .regs (by decide)
    have cfg : (s.touch .host).cfg = s.cfg := touched .cfg (by decide)
    have time : (s.touch .host).strikeTime = T := by rw [State.strikeTime, lv_of_regs regs, lv_of_regs regs]
    have tagged : (s.touch .host).strikeTag = tag := by rw [State.strikeTag, lv_of_regs regs]
    have node : nodeNo (s.touch .host).force = nodeNo s.force := congrArg (fld · 25 16) (force_staged cfg (by decide))
    have cn (p : Nat) : (s.touch .host).cn p = s.cn p := cn_only touched (by decide)
    have accept : (s.touch .host).lv pgBilva BILVA.ACCEPT = acc := lv_of_regs regs
    have stage : (s.touch .host).stage = s.stage := touched .stage (by decide)
    have fail : (s.touch .host).strikeAtFail T = s.strikeAtFail T := strikeAtFail_only touched (by decide) (by decide)
    have runs (loc : Bool) : exec (.netstrikeSend loc) s = .next ((s.touch .host).netSend loc) := if_pos up
    have cancel : exec .netstrikeCancel s = .next (s.touch .host).netCancel := if_pos up
    generalize s.touch .host = u at *
    refine ⟨?sends, fun accepts same proved owner good => ?arms, ?cancels⟩
    case sends =>
      obtain ⟨one, queued⟩ := strikeSent_leaves wholeT
      rw [time, tagged, node] at queued
      exact ⟨_, runs false, ⟨OneReg.of_regs one regs.symm, fun p port => Queues.congr (queued p port) (cn p).symm cfg.symm rfl⟩,
        Only.upd (Only.upd (Only.refl _ _) rfl touched) rfl strikeSent_only⟩
    case arms =>
      obtain ⟨acks, armed, due⟩ := strikeSent_armed wholeT (by rw [accept]; exact accepts) (by rw [accept, tagged]; exact same) (by rw [stage]; exact proved)
        (by rw [stage]; exact owner) (by rw [time, fail]; exact good)
      rw [time] at due
      exact ⟨_, runs true, ⟨acks, armed, due⟩, State.netSend_only (Only.upd (Only.refl _ _) rfl touched) rfl⟩
    case cancels =>
      have data : u.netCancel = u.bilvaAll 2 0x21 0 (leBytes 2 u.strikeTag ++ leBytes 2 (nodeNo u.force)) := rfl
      rw [tagged, node] at data
      rw [data] at cancel
      exact ⟨_, cancel, fun p port => Queues.congr (bilvaAll_queues (prio := 2) (type := 0x21) (sub := 0) wholeT port (by decide) (by decide))
        (cn p).symm cfg.symm rfl, State.bilvaAll_only (Only.upd (Only.refl _ _) rfl touched) rfl⟩

end Sys2Proof.Machine
end


section

/-! PROOF. Words of memory (R8, R339): what reads as it was written, and what a write leaves. -/

namespace Sys2Proof.Machine

open Sys2Proof.Safety Sys2Proof.Claims

section

variable {s t : State} {a c i n : Nat} {w : Word} {ws : List Word}

/-! Bytes. -/

theorem putBytes_memoryOk : ∀ {s : State} {a : Nat} {l : List Byte}, MemoryOk s → MemoryOk (s.putBytes a l)
  | _, _, [], h => h
  | s, a, b :: _, h => putBytes_memoryOk (s := s.putByte a b) (memPut_wf h)

theorem byteAt_putBytes_at : ∀ {s : State} {a i : Nat} {l : List Byte} {b : Byte}, MemoryOk s → l[i]? = some b →
    (s.putBytes a l).byteAt (a + i) = b
  | _, _, _, [], _, _, h => by simp at h
  | s, a, 0, x :: l, b, ok, h => by
    have same : x = b := by simpa using h
    unfold State.putBytes
    rw [State.byteAt_putBytes_ne (s := s.putByte a x) (memPut_wf ok) (by omega), Nat.add_zero, State.byteAt_putByte_same ok, same]
  | s, a, i + 1, x :: l, b, ok, h => by
    have next := byteAt_putBytes_at (s := s.putByte a x) (a := a + 1) (i := i) (l := l) (b := b) (memPut_wf ok) (by simpa using h)
    unfold State.putBytes
    rw [← next]
    congr 1
    omega

/-! Words. -/

/-- A word's four bytes give the word. -/
theorem bytesWord_wordBytes : bytesWord (wordBytes w) = w := by
  apply BitVec.eq_of_toNat_eq
  have low : w.toNat < 2 ^ 32 := w.isLt
  simp only [bytesWord, wordBytes, nw, List.getD_cons_zero, List.getD_cons_succ, BitVec.extractLsb'_toNat, BitVec.toNat_ofNat, Nat.shiftRight_eq_div_pow]
  omega

theorem wordAt_of_bytes (h : ∀ i < 4, t.byteAt (a + i) = s.byteAt (a + i)) : t.wordAt a = s.wordAt a := by
  have zero : t.byteAt a = s.byteAt a := h 0 (by decide)
  rw [State.wordAt, State.wordAt, zero, h 1 (by decide), h 2 (by decide), h 3 (by decide)]

theorem putWord_memoryOk (h : MemoryOk s) : MemoryOk (s.putWord a w) := putBytes_memoryOk (l := wordBytes w) h

/-- A word reads as it was written. -/
theorem wordAt_putWord_same (h : MemoryOk s) : (s.putWord a w).wordAt a = w := by
  have at_ (i : Nat) (b : Byte) (e : (wordBytes w)[i]? = some b) : (s.putWord a w).byteAt (a + i) = b := byteAt_putBytes_at h e
  have zero : (s.putWord a w).byteAt a = _ := at_ 0 _ rfl
  rw [State.wordAt, zero, at_ 1 _ rfl, at_ 2 _ rfl, at_ 3 _ rfl]
  exact bytesWord_wordBytes

/-- A word beside the one written reads as before. -/
theorem wordAt_putWord_ne (h : MemoryOk s) (n : c + 4 ≤ a ∨ a + 4 ≤ c) : (s.putWord a w).wordAt c = s.wordAt c :=
  wordAt_of_bytes fun _ low => State.byteAt_putWord_ne h (by omega)

theorem wordAt_of_mem (h : t.mem = s.mem) : t.wordAt a = s.wordAt a := by
  rw [State.wordAt, State.wordAt, State.byteAt, State.byteAt, State.byteAt, State.byteAt, h]
  rfl

theorem byteAt_of_mem (h : t.mem = s.mem) : t.byteAt a = s.byteAt a := by
  rw [State.byteAt, State.byteAt, h]

theorem wordsAt_of_mem (h : t.mem = s.mem) : t.wordsAt a n = s.wordsAt a n :=
  List.map_congr_left fun _ _ => wordAt_of_mem h

/-! Consecutive words. -/

theorem putWords_memoryOk : ∀ {s : State} {a : Nat} {ws : List Word}, MemoryOk s → MemoryOk (s.putWords a ws)
  | _, _, [], h => h
  | s, a, w :: _, h => putWords_memoryOk (s := s.putWord a w) (putWord_memoryOk h)

theorem byteAt_putWords_ne : ∀ {s : State} {a c : Nat} {ws : List Word}, MemoryOk s → (c < a ∨ a + 4 * ws.length ≤ c) →
    (s.putWords a ws).byteAt c = s.byteAt c
  | _, _, _, [], _, _ => rfl
  | s, a, c, w :: ws, h, n => by
    simp only [List.length_cons] at n
    unfold State.putWords
    rw [byteAt_putWords_ne (s := s.putWord a w) (putWord_memoryOk h) (by omega), State.byteAt_putWord_ne h (by omega)]

theorem wordAt_putWords_ne (h : MemoryOk s) (n : c + 4 ≤ a ∨ a + 4 * ws.length ≤ c) : (s.putWords a ws).wordAt c = s.wordAt c :=
  wordAt_of_bytes fun _ low => byteAt_putWords_ne h (by omega)

theorem wordAt_putWords_at : ∀ {s : State} {a i : Nat} {ws : List Word}, MemoryOk s → i < ws.length →
    (s.putWords a ws).wordAt (a + 4 * i) = ws.getD i 0
  | _, _, _, [], _, h => absurd h (by simp)
  | s, a, 0, w :: ws, ok, _ => by
    show ((s.putWord a w).putWords (a + 4) ws).wordAt a = w
    rw [wordAt_putWords_ne (s := s.putWord a w) (putWord_memoryOk ok) (by omega), wordAt_putWord_same ok]
  | s, a, i + 1, w :: ws, ok, h => by
    have next := wordAt_putWords_at (s := s.putWord a w) (a := a + 4) (i := i) (ws := ws) (putWord_memoryOk ok) (by simpa using h)
    unfold State.putWords
    rw [List.getD_cons_succ, ← next]
    congr 1
    omega

/-- Words read as they were written. -/
theorem wordsAt_putWords (ok : MemoryOk s) (len : ws.length = n) : (s.putWords a ws).wordsAt a n = ws := by
  subst len
  refine List.ext_getElem (by simp [State.wordsAt]) fun i _ h => ?_
  simp only [State.wordsAt, List.getElem_map, List.getElem_range]
  rw [wordAt_putWords_at ok h, List.getD_eq_getElem _ _ h]

/-! Check bits. -/

theorem eccBad_putWord_same : (s.putWord a w).eccBad.contains a = false := by
  rw [Bool.eq_false_iff]
  intro h
  have mem := List.contains_iff_mem.mp h
  exact of_decide_eq_true (List.mem_filter.mp mem).2 rfl

end

end Sys2Proof.Machine
end


section

/-! PROOF. CAN reception: routes, windows, overflow, Bilva frames, slot locks (R342, R345, R346, R353 to R355, R382). -/

namespace Sys2Proof.Machine

open Sys2Proof.Safety Sys2Proof.Claims

section

variable {s t u : State} {p q i ch : Nat} {f : CanFrame} {ws : List Word} {bilva only_ : Bool} {P : State → Prop} {Q : CanSt → Prop}

/-! What the ports read of the configuration. -/

theorem canCfg_of_cfg (cfg : t.cfg = s.cfg) : canCfg t.force p = canCfg s.force p := force_staged cfg (by decide)

theorem rxWin_of_cfg (cfg : t.cfg = s.cfg) : rxWin t.force p = rxWin s.force p := congrArg (fld · 7 0) (force_staged cfg (by decide))

theorem canCount_calm (port : p < 2) : Calm (pgCan p) CAN.FRAME_COUNT ∧ Calm (pgCan p) CAN.RX_OVERFLOW := by
  rcases (by omega : p = 0 ∨ p = 1) with rfl | rfl <;> exact ⟨by decide, by decide⟩

theorem canCount_beside : regAddr (pgCan p) CAN.FRAME_COUNT ≠ regAddr (pgCan p) CAN.RX_OVERFLOW := fun e =>
  absurd ((regAddr_inj (by decide) (by decide)).mp e).2 (by decide)

theorem dm_only {fs : List Part} (h : Only fs s t) (out : .dma ∉ fs) : t.dm ch = s.dm ch := by
  rw [State.dm, h .dma out]
  rfl

/-! Delivery. -/

/-- Q outlives a slot that is written. -/
def OutlivesSlots (Q : CanSt → Prop) : Prop := ∀ x l n, Q x → Q { x with unread := l, nextSlot := n }

theorem onCn_keeps {g : CanSt → CanSt} (k : q = p → ∀ x, Q x → Q (g x)) (h : Q (s.cn p)) : Q ((s.onCn q g).cn p) := by
  by_cases same : q = p
  · exact getD_modify_keeps (k same) h
  · have other : (s.onCn q g).cn p = s.cn p := getD_modify_ne same
    rw [other]
    exact h

theorem rxPut_cn (out : q = p → OutlivesSlots Q) (h : Q (s.cn p)) : Q ((s.rxPut q i ws).cn p) := by
  have put : Q ((s.putWords (rxAddr q i) ws).cn p) := by
    rw [cn_only (State.putWords_only (Only.refl [.mem, .eccBad] s) rfl) (by decide)]
    exact h
  exact onCn_keeps (fun same x k => out same x _ _ k) put

theorem rxOverflow_only : Only [.regs, .trace] s (s.rxOverflow p) := State.rxOverflow_only (Only.refl _ _) rfl

theorem rxWindow_cn (out : q = p → OutlivesSlots Q) (h : Q (s.cn p)) : Q ((s.rxWindow q ws).cn p) := by
  have event {t : State} (h : Q (t.cn p)) : Q ((t.event (pgCan q) 16).cn p) := by
    rw [cn_only (State.event_only (Only.refl [.regs, .trace] t) rfl) (by decide)]
    exact h
  have lost : Q ((s.rxOverflow q).cn p) := by
    rw [cn_only rxOverflow_only (by decide)]
    exact h
  unfold State.rxWindow
  dsimp only
  split
  · exact event (rxPut_cn out h)
  · split
    · exact lost
    · split
      · exact event (rxPut_cn out lost)
      · exact lost

theorem rxDma_only : Only [.regs, .dma, .trace] s (s.rxDma p only_ ws) := State.rxDma_only (Only.refl _ _) rfl

theorem rxDma_cn (h : Q (s.cn p)) : Q ((s.rxDma q only_ ws).cn p) := by
  rw [cn_only rxDma_only (by decide)]
  exact h

/-- The sequence number of the port moves on. -/
def State.sqMoved (s : State) (p : Nat) : State := s.onCn p fun x => { x with sqNo := x.sqNo + 1 }

/-- The record of a frame, as the port writes it. -/
def State.rxRecord (s : State) (p : Nat) (f : CanFrame) (bilva : Bool) : List Word := recordOf f (s.cn p).sqNo.toNat s.now bilva

/-- A record goes where RX_ROUTE says. -/
def State.routed (s : State) (p : Nat) (ws : List Word) : State :=
  match fld (canCfg s.force p) 10 9 with
  | 0 => s.rxWindow p ws
  | 1 => s.rxDma p true ws
  | 2 => (s.rxWindow p ws).rxDma p false ws
  | _ => s

theorem deliver_eq : s.deliver p f bilva = (s.sqMoved p).routed p (s.rxRecord p f bilva) := rfl

theorem routed_cn (out : q = p → OutlivesSlots Q) (h : Q (s.cn p)) : Q ((s.routed q ws).cn p) := by
  unfold State.routed
  split
  · exact rxWindow_cn out h
  · exact rxDma_cn h
  · exact rxDma_cn (rxWindow_cn out h)
  · exact h

theorem deliver_cn (out : q = p → OutlivesSlots Q) (sq : q = p → ∀ x, Q x → Q { x with sqNo := x.sqNo + 1 }) (h : Q (s.cn p)) :
    Q ((s.deliver q f bilva).cn p) := routed_cn out (onCn_keeps sq h)

/-- P outlives events and the count of frames lost. -/
structure OutlivesRx (p : Nat) (P : State → Prop) : Prop where
  rise : Rising P
  lost : ∀ t, P t → P (t.inc16 (pgCan p) CAN.RX_OVERFLOW)

theorem rxOverflow_rises (out : OutlivesRx p P) (h : P s) : P (s.rxOverflow p) := out.rise.event (out.lost _ h)

theorem rxPut_regs : (s.rxPut p i ws).regs = s.regs := State.rxPut_only (Only.refl [.mem, .eccBad, .cans] s) rfl .regs (by decide)

theorem rxWindow_rises (out : OutlivesRx p P) (h : P s) : P (s.rxWindow p ws) := by
  unfold State.rxWindow
  dsimp only
  split
  · exact out.rise.event (out.rise.same h rxPut_regs)
  · have lost := rxOverflow_rises out h
    split
    · exact lost
    · split
      · exact out.rise.event (out.rise.same lost rxPut_regs)
      · exact lost

theorem rxDma_rises (out : OutlivesRx p P) (h : P s) : P (s.rxDma p only_ ws) := by
  unfold State.rxDma
  dsimp only
  split
  · split
    · exact rxOverflow_rises out h
    · exact h
  · exact out.rise.event (out.rise.same h rfl)

theorem routed_rises (out : OutlivesRx p P) (h : P s) : P (s.routed p ws) := by
  unfold State.routed
  split
  · exact rxWindow_rises out h
  · exact rxDma_rises out h
  · exact rxDma_rises out (rxWindow_rises out h)
  · exact h

theorem deliver_rises (out : OutlivesRx p P) (h : P s) : P (s.deliver p f bilva) := routed_rises out (out.rise.same h rfl)

theorem outlivesRx_frames {w : Word} (port : p < 2) : OutlivesRx p (Reads (pgCan p) CAN.FRAME_COUNT w) :=
  ⟨rising_reads (canCount_calm port).1, fun _ h => h.setLv_ne canCount_beside⟩

/-! The receive window. -/

theorem recordOf_length {sq tick : Nat} : (recordOf f sq tick bilva).length = 20 := by simp [recordOf]

/-- A record in its slot. -/
theorem rxPut_leaves (whole : Whole s) (port : p < 2) (len : ws.length = 20) :
    (s.rxPut p i ws).wordsAt (rxAddr p i) 20 = ws ∧ ((s.rxPut p i ws).cn p).unread = (s.cn p).unread.filter (· ≠ i) ++ [i] := by
  have put : Only [.mem, .eccBad] s (s.putWords (rxAddr p i) ws) := State.putWords_only (Only.refl _ _) rfl
  have words : (s.putWords (rxAddr p i) ws).wordsAt (rxAddr p i) 20 = ws := wordsAt_putWords whole.mem len
  have here : p < (s.putWords (rxAddr p i) ws).cans.length := by
    rw [put .cans (by decide), (present whole).cans]
    exact port
  have same : (s.putWords (rxAddr p i) ws).cn p = s.cn p := cn_only put (by decide)
  unfold State.rxPut
  generalize s.putWords (rxAddr p i) ws = u at *
  refine ⟨(wordsAt_of_mem rfl).trans words, ?_⟩
  rw [cn_onCn_same here, same]

/-- Slot i of the window is free, and the record goes there (R346). -/
theorem rxWindow_free (whole : Whole s) (port : p < 2) (len : ws.length = 20) (eq : i = (s.cn p).nextSlot % max 1 (rxWin s.force p))
    (free : i ∉ (s.cn p).unread) : (s.rxWindow p ws).wordsAt (rxAddr p i) 20 = ws ∧ ((s.rxWindow p ws).cn p).unread = (s.cn p).unread ++ [i] ∧
      Up (s.rxWindow p ws) (s.rxWindow p ws) ∧ Flagged (s.rxWindow p ws) (pgCan p) 4 := by
  have run : s.rxWindow p ws = (s.rxPut p i ws).event (pgCan p) 16 := by
    subst eq
    exact if_pos (by simpa using free)
  obtain ⟨words, unread⟩ := rxPut_leaves (i := i) whole port len
  have ok : MapOk (s.rxPut p i ws).regs := by
    rw [rxPut_regs]
    exact whole.regs
  rw [run]
  generalize s.rxPut p i ws = u at *
  obtain ⟨up, flagged⟩ := event_flags (p := pgCan p) (bits := 16) (i := 4) ok (by decide)
  have last : Only [.regs, .trace] u (u.event (pgCan p) 16) := State.event_only (Only.refl _ _) rfl
  refine ⟨(wordsAt_of_mem (last .mem (by decide))).trans words, ?_, up, flagged⟩
  rw [cn_only last (by decide), unread, List.filter_eq_self.mpr]
  intro j mem
  simpa using fun e : j = i => free (e ▸ mem)

/-- Where no slot is free (R346). -/
def State.rxFull (s : State) (p : Nat) (ws : List Word) : State :=
  if !bt (canCfg (s.rxOverflow p).force p) 11 then s.rxOverflow p
  else match (s.cn p).unread.find? fun j => !(s.cn p).locks.any (·.1 = j) with
    | some j => ((s.rxOverflow p).rxPut p j ws).event (pgCan p) 16
    | none => s.rxOverflow p

theorem rxWindow_full (eq : i = (s.cn p).nextSlot % max 1 (rxWin s.force p)) (taken : i ∈ (s.cn p).unread) : s.rxWindow p ws = s.rxFull p ws := by
  subst eq
  exact if_neg (by simpa using taken)

/-- A frame is lost for want of a slot (R346). -/
theorem rxOverflow_lost (ok : MapOk s.regs) (port : p < 2) : Reads (pgCan p) CAN.RX_OVERFLOW (countUp (s.lv (pgCan p) CAN.RX_OVERFLOW)) (s.rxOverflow p) ∧
    Up (s.rxOverflow p) (s.rxOverflow p) ∧ Flagged (s.rxOverflow p) (pgCan p) 6 := by
  have counted := reads_inc16 (p := pgCan p) (o := CAN.RX_OVERFLOW) ok
  obtain ⟨up, flagged⟩ := event_flags (p := pgCan p) (bits := 64) (i := 6) counted.1 (by decide)
  exact ⟨counted.event (canCount_calm port).2.1, up, flagged⟩

theorem rxFull_leaves (whole : Whole s) (port : p < 2) (len : ws.length = 20) :
    Reads (pgCan p) CAN.RX_OVERFLOW (countUp (s.lv (pgCan p) CAN.RX_OVERFLOW)) (s.rxFull p ws) ∧ Up (s.rxFull p ws) (s.rxFull p ws) ∧
      Flagged (s.rxFull p ws) (pgCan p) 6 ∧
      (bt (canCfg s.force p) 11 = false → (s.rxFull p ws).mem = s.mem ∧ ((s.rxFull p ws).cn p).unread = (s.cn p).unread) ∧
      ∀ j, bt (canCfg s.force p) 11 = true → ((s.cn p).unread.find? fun j => !(s.cn p).locks.any (·.1 = j)) = some j →
        (s.rxFull p ws).wordsAt (rxAddr p j) 20 = ws ∧ ((s.rxFull p ws).cn p).unread = (s.cn p).unread.filter (· ≠ j) ++ [j] := by
  obtain ⟨lost, up, flagged⟩ := rxOverflow_lost whole.regs port
  have over_ : Only [.regs, .trace] s (s.rxOverflow p) := rxOverflow_only
  have wholeO : Whole (s.rxOverflow p) := (State.rxOverflow_kept (Kept.refl s)).whole whole
  have cfg : canCfg (s.rxOverflow p).force p = canCfg s.force p := canCfg_of_cfg (over_ .cfg (by decide))
  have port_ : (s.rxOverflow p).cn p = s.cn p := cn_only over_ (by decide)
  have mem : (s.rxOverflow p).mem = s.mem := over_ .mem (by decide)
  unfold State.rxFull
  rw [cfg]
  generalize s.rxOverflow p = u at *
  cases on : bt (canCfg s.force p) 11 with
  | false =>
    rw [if_pos (show (!false) = true from rfl)]
    exact ⟨lost, up, flagged, fun _ => ⟨mem, by rw [port_]⟩, nofun⟩
  | true =>
    rw [if_neg (by decide)]
    split
    · next j found =>
      obtain ⟨words, unread⟩ := rxPut_leaves (i := j) wholeO port len
      have regs : (u.rxPut p j ws).regs = u.regs := rxPut_regs
      have lost : Reads (pgCan p) CAN.RX_OVERFLOW _ (u.rxPut p j ws) := lost.of_regs regs
      have flagged : Flagged (u.rxPut p j ws) (pgCan p) 6 := flagged_of_regs flagged regs
      rw [port_] at unread
      generalize u.rxPut p j ws = x at *
      have last : Only [.regs, .trace] x (x.event (pgCan p) 16) := State.event_only (Only.refl _ _) rfl
      have upX : Up x (x.event (pgCan p) 16) := (Up.refl lost.1).event
      refine ⟨lost.event (canCount_calm port).2.1, Up.refl upX.ok, upX.bits _ _ flagged, nofun, fun k _ e => ?_⟩
      obtain rfl : j = k := Option.some.inj (found.symm.trans e)
      exact ⟨(wordsAt_of_mem (last .mem (by decide))).trans words, (congrArg CanSt.unread (cn_only last (by decide))).trans unread⟩
    · next none_ => exact ⟨lost, up, flagged, nofun, fun k _ e => absurd (none_.symm.trans e) nofun⟩

/-! A DMA channel's line. -/

/-- The line of the channel is free. -/
theorem rxDma_free (whole : Whole s) (eq : ch = fld (canCfg s.force p) 21 16) (free : (s.dm ch).record = none) :
    ((s.rxDma p only_ ws).dm ch).record = some ws ∧ Flagged (s.rxDma p only_ ws) (pgCan p) 4 := by
  have low : ch < 64 := by
    rw [eq]
    exact Nat.mod_lt _ (by decide)
  have put : (s.onDm ch fun d => { d with record := some ws }).dm ch = { s.dm ch with record := some ws } :=
    dm_onDm_same ((present whole).dma.symm ▸ low)
  have run : s.rxDma p only_ ws = (s.onDm ch fun d => { d with record := some ws }).event (pgCan p) 16 := by
    subst eq
    exact if_neg (by rw [free]; decide)
  have ok : MapOk (s.onDm ch fun d => { d with record := some ws }).regs := whole.regs
  rw [run]
  generalize s.onDm ch (fun d => { d with record := some ws }) = u at *
  refine ⟨?_, (event_flags ok (by decide)).2⟩
  rw [dm_only (State.event_only (Only.refl [.regs, .trace] u) rfl) (by decide), put]

/-- The line holds a record already: the frame is lost. -/
theorem rxDma_full (eq : ch = fld (canCfg s.force p) 21 16) (full : (s.dm ch).record.isSome = true) : s.rxDma p true ws = s.rxOverflow p := by
  subst eq
  exact if_pos full

/-! A frame as it is delivered. -/

theorem routed_window (route : fld (canCfg s.force p) 10 9 = 0 ∨ fld (canCfg s.force p) 10 9 = 2) :
    s.routed p ws = s.rxWindow p ws ∨ s.routed p ws = (s.rxWindow p ws).rxDma p false ws := by
  unfold State.routed
  rcases route with e | e
  · rw [e]
    exact .inl rfl
  · rw [e]
    exact .inr rfl

theorem routed_dma (route : fld (canCfg s.force p) 10 9 = 1) : s.routed p ws = s.rxDma p true ws := by
  unfold State.routed
  rw [route]
  rfl

theorem rxDma_second : s.rxDma p false ws = s ∨ ∃ ch, s.rxDma p false ws = (s.onDm ch fun d => { d with record := some ws }).event (pgCan p) 16 := by
  unfold State.rxDma
  dsimp only
  split
  · exact .inl rfl
  · exact .inr ⟨_, rfl⟩

/-- What reaches the window stays as it is where a DMA channel takes the frame too. -/
theorem routed_stays (route : fld (canCfg s.force p) 10 9 = 0 ∨ fld (canCfg s.force p) 10 9 = 2) {R : State → Prop} (h : R (s.rxWindow p ws))
    (event : ∀ t, R t → ∀ ch, R ((t.onDm ch fun d => { d with record := some ws }).event (pgCan p) 16)) : R (s.routed p ws) := by
  rcases routed_window (ws := ws) route with e | e
  · rw [e]
    exact h
  · rw [e]
    rcases rxDma_second (s := s.rxWindow p ws) (p := p) (ws := ws) with e | ⟨ch, e⟩
    · rw [e]
      exact h
    · rw [e]
      exact event _ h ch

theorem dmaNoted_only {t : State} : Only [.dma, .regs, .trace] t ((t.onDm ch fun d => { d with record := some ws }).event (pgCan p) 16) :=
  State.event_only (State.onDm_only (Only.refl _ _) rfl) rfl

theorem dmaNoted_up {v t : State} (h : Up v t) : Up v ((t.onDm ch fun d => { d with record := some ws }).event (pgCan p) 16) := Up.event (h.same rfl)

theorem dmaNoted_reads {w : Word} {t : State} (port : p < 2) (h : Reads (pgCan p) CAN.RX_OVERFLOW w t) :
    Reads (pgCan p) CAN.RX_OVERFLOW w ((t.onDm ch fun d => { d with record := some ws }).event (pgCan p) 16) :=
  (h.of_regs (u := t.onDm ch _) rfl).event (canCount_calm port).2.1

/-- A record that reaches a free slot of the window (R345, R346). -/
theorem routed_free (whole : Whole s) (port : p < 2) (len : ws.length = 20) (route : fld (canCfg s.force p) 10 9 = 0 ∨ fld (canCfg s.force p) 10 9 = 2)
    (eq : i = (s.cn p).nextSlot % max 1 (rxWin s.force p)) (free : i ∉ (s.cn p).unread) :
    (s.routed p ws).wordsAt (rxAddr p i) 20 = ws ∧ ((s.routed p ws).cn p).unread = (s.cn p).unread ++ [i] ∧ Flagged (s.routed p ws) (pgCan p) 4 := by
  obtain ⟨words, unread, up, flagged⟩ := rxWindow_free whole port len eq free
  have kept := routed_stays (R := fun t => t.wordsAt (rxAddr p i) 20 = ws ∧ (t.cn p).unread = (s.cn p).unread ++ [i] ∧ Up (s.rxWindow p ws) t) route
    ⟨words, unread, up⟩ fun t ⟨words, unread, up⟩ ch =>
      ⟨(wordsAt_of_mem (dmaNoted_only .mem (by decide))).trans words, (congrArg CanSt.unread (cn_only dmaNoted_only (by decide))).trans unread, dmaNoted_up up⟩
  exact ⟨kept.1, kept.2.1, kept.2.2.bits _ _ flagged⟩

/-- A record that finds its slot unread (R346). -/
theorem routed_full (whole : Whole s) (port : p < 2) (len : ws.length = 20) (route : fld (canCfg s.force p) 10 9 = 0 ∨ fld (canCfg s.force p) 10 9 = 2)
    (eq : i = (s.cn p).nextSlot % max 1 (rxWin s.force p)) (taken : i ∈ (s.cn p).unread) :
    (s.routed p ws).lv (pgCan p) CAN.RX_OVERFLOW = countUp (s.lv (pgCan p) CAN.RX_OVERFLOW) ∧ Flagged (s.routed p ws) (pgCan p) 6 ∧
      (bt (canCfg s.force p) 11 = false → (s.routed p ws).mem = s.mem ∧ ((s.routed p ws).cn p).unread = (s.cn p).unread) ∧
      ∀ j, bt (canCfg s.force p) 11 = true → ((s.cn p).unread.find? fun j => !(s.cn p).locks.any (·.1 = j)) = some j →
        (s.routed p ws).wordsAt (rxAddr p j) 20 = ws ∧ ((s.routed p ws).cn p).unread = (s.cn p).unread.filter (· ≠ j) ++ [j] := by
  obtain ⟨lost, up, flagged, keeps, over_⟩ := rxFull_leaves whole port len
  rw [← rxWindow_full eq taken] at lost up flagged keeps over_
  have kept := routed_stays (R := fun t => Reads (pgCan p) CAN.RX_OVERFLOW (countUp (s.lv (pgCan p) CAN.RX_OVERFLOW)) t ∧ Up (s.rxWindow p ws) t ∧
      t.mem = (s.rxWindow p ws).mem ∧ t.cn p = (s.rxWindow p ws).cn p) route ⟨lost, up, rfl, rfl⟩ fun t ⟨lost, up, mem, cn⟩ ch =>
      ⟨dmaNoted_reads port lost, dmaNoted_up up, (dmaNoted_only .mem (by decide)).trans mem, (cn_only dmaNoted_only (by decide)).trans cn⟩
  obtain ⟨lost, up, mem, cn⟩ := kept
  refine ⟨lost.2, up.bits _ _ flagged, fun off => ?_, fun j on found => ?_⟩
  · rw [mem, cn]
    exact keeps off
  · rw [wordsAt_of_mem mem, cn]
    exact over_ j on found

/-! A frame as the port hears it. -/

/-- A frame of the bus is counted. -/
def State.canCounted (s : State) (p : Nat) : State :=
  (s.onCn p fun x => { x with integrating := false }).onLv (pgCan p) CAN.FRAME_COUNT countLow

/-- A frame of the bus is heard. -/
def State.canHeard (s : State) (p : Nat) (f : CanFrame) : State := (s.canCounted p).traceCan p f

theorem canReceive_eq : s.canReceive p f =
    if bilvaEn s.force p && bt f.word0 29 && f.fdf then (s.canHeard p f).bilvaTake p f else (s.canHeard p f).deliver p f false := rfl

theorem canHeard_only : Only [.cans, .regs, .trace] s (s.canHeard p f) :=
  State.traceCan_only (State.onLv_only (State.onCn_only (Only.refl _ _) rfl) rfl) rfl

theorem canHeard_whole (whole : Whole s) : Whole (s.canHeard p f) := (State.traceCan_kept (State.onLv_kept (State.onCn_kept (Kept.refl s)))).whole whole

theorem canHeard_cn (whole : Whole s) (port : p < 2) : (s.canHeard p f).cn p = { s.cn p with integrating := false } := by
  have noted : (s.onCn p fun x => { x with integrating := false }).cn p = { s.cn p with integrating := false } :=
    cn_onCn_same ((present whole).cans.symm ▸ port)
  rw [← noted]
  exact cn_only (State.traceCan_only (State.onLv_only (Only.refl [.regs, .trace] _) rfl) rfl) (by decide)

theorem canHeard_other (other : p ≠ q) : (s.canHeard p f).cn q = s.cn q := by
  have noted : (s.onCn p fun x => { x with integrating := false }).cn q = s.cn q := getD_modify_ne other
  rw [← noted]
  exact cn_only (State.traceCan_only (State.onLv_only (Only.refl [.regs, .trace] _) rfl) rfl) (by decide)

theorem traceCan_keeps (out : OutlivesEvents P) (h : P s) : P (s.traceCan p f) := out.traceKind h

theorem canCounted_reads (ok : MapOk s.regs) : Reads (pgCan p) CAN.FRAME_COUNT (countLow (s.lv (pgCan p) CAN.FRAME_COUNT)) (s.canCounted p) :=
  reads_setLv (s := s.onCn p fun x => { x with integrating := false }) ok

theorem canCounted_beside {r o : Nat} (ok : MapOk s.regs) (beside : regAddr r o ≠ regAddr (pgCan p) CAN.FRAME_COUNT) :
    Reads r o (s.lv r o) (s.canCounted p) := by
  have before : Reads r o (s.lv r o) (s.onCn p fun x => { x with integrating := false }) := ⟨ok, rfl⟩
  exact before.setLv_ne beside

/-- The frames received, counted once more. -/
theorem canHeard_counts (ok : MapOk s.regs) (port : p < 2) : Reads (pgCan p) CAN.FRAME_COUNT (countLow (s.lv (pgCan p) CAN.FRAME_COUNT)) (s.canHeard p f) :=
  traceCan_keeps (reads_outlivesEvents (canCount_calm port).1.1) (canCounted_reads ok)

/-- Another register is as it was. -/
theorem canHeard_reads {r o : Nat} (ok : MapOk s.regs) (aside : Aside r o) (beside : regAddr r o ≠ regAddr (pgCan p) CAN.FRAME_COUNT) :
    (s.canHeard p f).lv r o = s.lv r o := (traceCan_keeps (reads_outlivesEvents aside) (canCounted_beside ok beside)).2

/-! Bilva frames. -/

theorem nodeConflict_leaves (ok : MapOk s.regs) : s.nodeConflict.srcOn srcNodeConf 16 = true ∧ Flagged s.nodeConflict pgBilva 0 ∧ s.nodeConflict.mem = s.mem := by
  obtain ⟨up, flagged⟩ := event_flags (p := pgBilva) (bits := 1) (i := 0) ok (by decide)
  refine ⟨raise_on, (rising_up.raise (rising_up.fault up)).bits _ _ flagged, ?_⟩
  exact State.nodeConflict_only (Only.refl [.regs, .axes, .safety, .trace, .log] s) rfl .mem (by decide)

theorem bilvaTake_conflict (own : bNode f.word0 = nodeNo s.force) : s.bilvaTake p f = s.nodeConflict := if_pos own

theorem bilvaTake_badLength (own : bNode f.word0 ≠ nodeNo s.force) (bad : bLenOk (bType f.word0) f.data.length = false) :
    s.bilvaTake p f = (s.inc16 pgBilva BILVA.BAD_COUNT).event pgBilva 2 := (if_neg own).trans (if_pos (by simp [bad]))

/-- A bridge forwards the frame where its type says so. -/
def State.bridged (s : State) (p : Nat) (f : CanFrame) : State :=
  if bridgeEn s.force && bForwards s.force (bType f.word0) then s.toForward (1 - p) f else s

theorem bilvaTake_good (own : bNode f.word0 ≠ nodeNo s.force) (good : bLenOk (bType f.word0) f.data.length = true) :
    s.bilvaTake p f = if bt (s.force pgBilva BILVA.CFG) 9 then (s.bridged p f).deliver p f true else s.bridged p f :=
  (if_neg own).trans (if_neg (by simp [good]))

/-- The forwarding queue of a port with one frame more: of 64 the oldest goes (R355). -/
def fwdMore (q : List CanFrame) (f : CanFrame) : List CanFrame := (if 64 ≤ q.length then q.drop 1 else q) ++ [f]

theorem toForward_cn (whole : Whole s) (port : p < 2) : ((s.toForward p f).cn p).fwdQ = fwdMore (s.cn p).fwdQ f := by
  unfold State.toForward
  extract_lets full queued
  have queued_ : queued.cn p = _ := cn_onCn_same ((present whole).cans.symm ▸ port)
  have same : State.cn (if full then (queued.inc16 pgBilva BILVA.FWD_DROP).event pgBilva 4 else queued) p = queued.cn p :=
    cn_only (only_ite (State.event_only (State.inc16_only (Only.refl [.regs, .trace] queued) rfl) rfl) (Only.refl _ _)) (by decide)
  rw [same, queued_]
  simp only [fwdMore, full, decide_eq_true_eq]

theorem toForward_ne (other : q ≠ p) : (s.toForward q f).cn p = s.cn p := by
  unfold State.toForward
  extract_lets full queued
  have queued_ : queued.cn p = s.cn p := getD_modify_ne other
  rw [← queued_]
  exact cn_only (only_ite (State.event_only (State.inc16_only (Only.refl [.regs, .trace] queued) rfl) rfl) (Only.refl _ _)) (by decide)

theorem bridged_ne (port : p < 2) : (s.bridged p f).cn p = s.cn p := by
  unfold State.bridged
  split
  · exact toForward_ne (by omega)
  · rfl

theorem toForward_rises (rise : Rising P) (drop : ∀ t, P t → P (t.inc16 pgBilva BILVA.FWD_DROP)) (h : P s) : P (s.toForward q f) := by
  unfold State.toForward
  extract_lets full queued
  have queued_ : P queued := rise.same h rfl
  split
  · exact rise.event (drop _ queued_)
  · exact queued_

/-- What a Bilva frame leaves of the port that took it, whatever the frame is. -/
theorem bilvaTake_cn (port : p < 2) (out : OutlivesSlots Q) (sq : ∀ x, Q x → Q { x with sqNo := x.sqNo + 1 }) (h : Q (s.cn p)) :
    Q ((s.bilvaTake p f).cn p) := by
  by_cases own : bNode f.word0 = nodeNo s.force
  · rw [bilvaTake_conflict own, cn_only (State.nodeConflict_only (Only.refl [.regs, .axes, .safety, .trace, .log] s) rfl) (by decide)]
    exact h
  · cases good : bLenOk (bType f.word0) f.data.length with
    | false =>
      rw [bilvaTake_badLength own good, cn_only (State.event_only (State.inc16_only (Only.refl [.regs, .trace] s) rfl) rfl) (by decide)]
      exact h
    | true =>
      have bridged : Q ((s.bridged p f).cn p) := by
        rw [bridged_ne port]
        exact h
      rw [bilvaTake_good own good]
      split
      · exact deliver_cn (fun _ => out) (fun _ => sq) bridged
      · exact bridged

/-- What a Bilva frame leaves of the live registers, whatever the frame is. -/
theorem bilvaTake_rises (out : OutlivesRx p P) (drop : ∀ t, P t → P (t.inc16 pgBilva BILVA.FWD_DROP)) (bad : ∀ t, P t → P (t.inc16 pgBilva BILVA.BAD_COUNT))
    (h : P s) : P (s.bilvaTake p f) := by
  by_cases own : bNode f.word0 = nodeNo s.force
  · rw [bilvaTake_conflict own]
    exact out.rise.raise (out.rise.fault (out.rise.event h))
  · cases good : bLenOk (bType f.word0) f.data.length with
    | false =>
      rw [bilvaTake_badLength own good]
      exact out.rise.event (bad _ h)
    | true =>
      have bridged : P (s.bridged p f) := by
        unfold State.bridged
        split
        · exact toForward_rises out.rise drop h
        · exact h
      rw [bilvaTake_good own good]
      split
      · exact deliver_rises out bridged
      · exact bridged

/-- A frame that a bridge forwards (R355). -/
theorem bilvaTake_forwards (whole : Whole s) (port : p < 2) (own : bNode f.word0 ≠ nodeNo s.force) (good : bLenOk (bType f.word0) f.data.length = true)
    (bridge : bridgeEn s.force = true) (type : bForwards s.force (bType f.word0) = true) :
    ((s.bilvaTake p f).cn (1 - p)).fwdQ = fwdMore (s.cn (1 - p)).fwdQ f := by
  have forwarded : s.bridged p f = s.toForward (1 - p) f := if_pos (by rw [bridge, type]; rfl)
  have queue := toForward_cn (f := f) whole (show 1 - p < 2 by omega)
  rw [bilvaTake_good own good, forwarded]
  split
  · exact deliver_cn (Q := fun x => x.fwdQ = fwdMore (s.cn (1 - p)).fwdQ f) (fun _ _ _ _ k => k) (fun _ _ k => k) queue
  · exact queue

end

end Sys2Proof.Machine
end


section

/-! PROOF. What a frame received leaves, and the locks of the receive slots (R345, R346). -/

namespace Sys2Proof.Machine

open Sys2Proof.Safety Sys2Proof.Claims

section

variable {s t : State} {p i : Nat} {f : CanFrame}

/-- A frame that is not Bilva's is delivered. -/
def State.canDelivered (s : State) (p : Nat) (f : CanFrame) : State := ((s.canHeard p f).sqMoved p).routed p ((s.canHeard p f).rxRecord p f false)

theorem canReceive_plain (plain : ¬ (bilvaEn s.force p = true ∧ bt f.word0 29 = true ∧ f.fdf = true)) : s.canReceive p f = s.canDelivered p f := by
  rw [canReceive_eq, if_neg]
  · exact deliver_eq
  · simpa only [Bool.and_eq_true, and_assoc] using plain

theorem canReceive_bilva (bilva : bilvaEn s.force p = true ∧ bt f.word0 29 = true ∧ f.fdf = true) : s.canReceive p f = (s.canHeard p f).bilvaTake p f := by
  rw [canReceive_eq, if_pos]
  simpa only [Bool.and_eq_true, and_assoc] using bilva

/-- What the delivery of a frame works on: the port with its sequence number moved on. -/
structure Heard (s : State) (p : Nat) (u : State) : Prop where
  whole : Whole u
  only : Only [.cans, .regs, .trace] s u
  cn : u.cn p = { s.cn p with integrating := false, sqNo := (s.cn p).sqNo + 1 }
  lost : u.lv (pgCan p) CAN.RX_OVERFLOW = s.lv (pgCan p) CAN.RX_OVERFLOW

theorem canHeard_moved (whole : Whole s) (port : p < 2) : Heard s p ((s.canHeard p f).sqMoved p) where
  whole := (State.onCn_kept (Kept.refl _)).whole (canHeard_whole whole)
  only := State.onCn_only canHeard_only rfl
  cn := by
    rw [State.sqMoved, cn_onCn_same ((present (canHeard_whole whole)).cans.symm ▸ port), canHeard_cn whole port]
  lost := canHeard_reads whole.regs (canCount_calm port).2.1 (canCount_beside (p := p)).symm

theorem canHeard_record (whole : Whole s) (port : p < 2) : (s.canHeard p f).rxRecord p f false = recordOf f (s.cn p).sqNo.toNat s.now false := by
  rw [State.rxRecord, canHeard_cn whole port, now_only canHeard_only (by decide)]

/-- A frame that a free slot takes. -/
theorem canDelivered_free (whole : Whole s) (port : p < 2) (route : fld (canCfg s.force p) 10 9 = 0 ∨ fld (canCfg s.force p) 10 9 = 2)
    (free : (s.cn p).nextSlot % max 1 (rxWin s.force p) ∉ (s.cn p).unread) :
    (s.canDelivered p f).wordsAt (rxAddr p ((s.cn p).nextSlot % max 1 (rxWin s.force p))) 20 = recordOf f (s.cn p).sqNo.toNat s.now false ∧
      ((s.canDelivered p f).cn p).unread = (s.cn p).unread ++ [(s.cn p).nextSlot % max 1 (rxWin s.force p)] ∧ Flagged (s.canDelivered p f) (pgCan p) 4 := by
  have heard : Heard s p ((s.canHeard p f).sqMoved p) := canHeard_moved whole port
  have cfg : canCfg ((s.canHeard p f).sqMoved p).force p = canCfg s.force p := canCfg_of_cfg (heard.only .cfg (by decide))
  have win : rxWin ((s.canHeard p f).sqMoved p).force p = rxWin s.force p := rxWin_of_cfg (heard.only .cfg (by decide))
  unfold State.canDelivered
  rw [canHeard_record whole port]
  generalize (s.canHeard p f).sqMoved p = u at *
  have slot : (s.cn p).nextSlot % max 1 (rxWin s.force p) = (u.cn p).nextSlot % max 1 (rxWin u.force p) := by rw [win, heard.cn]
  have unread : (u.cn p).unread = (s.cn p).unread := by rw [heard.cn]
  obtain ⟨words, unreadT, flagged⟩ := routed_free (ws := recordOf f (s.cn p).sqNo.toNat s.now false) heard.whole port recordOf_length
    (by rw [cfg]; exact route) slot (by rw [unread]; exact free)
  rw [unread] at unreadT
  exact ⟨words, unreadT, flagged⟩

/-- A frame that finds its slot unread. -/
theorem canDelivered_full (whole : Whole s) (port : p < 2) (route : fld (canCfg s.force p) 10 9 = 0 ∨ fld (canCfg s.force p) 10 9 = 2)
    (taken : (s.cn p).nextSlot % max 1 (rxWin s.force p) ∈ (s.cn p).unread) :
    (s.canDelivered p f).lv (pgCan p) CAN.RX_OVERFLOW = countUp (s.lv (pgCan p) CAN.RX_OVERFLOW) ∧ Flagged (s.canDelivered p f) (pgCan p) 6 ∧
      (bt (canCfg s.force p) 11 = false → (s.canDelivered p f).mem = s.mem ∧ ((s.canDelivered p f).cn p).unread = (s.cn p).unread) ∧
      ∀ j, bt (canCfg s.force p) 11 = true → ((s.cn p).unread.find? fun j => !(s.cn p).locks.any (·.1 = j)) = some j →
        (s.canDelivered p f).wordsAt (rxAddr p j) 20 = recordOf f (s.cn p).sqNo.toNat s.now false ∧
          ((s.canDelivered p f).cn p).unread = (s.cn p).unread.filter (· ≠ j) ++ [j] := by
  have heard : Heard s p ((s.canHeard p f).sqMoved p) := canHeard_moved whole port
  have cfg : canCfg ((s.canHeard p f).sqMoved p).force p = canCfg s.force p := canCfg_of_cfg (heard.only .cfg (by decide))
  have win : rxWin ((s.canHeard p f).sqMoved p).force p = rxWin s.force p := rxWin_of_cfg (heard.only .cfg (by decide))
  unfold State.canDelivered
  rw [canHeard_record whole port]
  generalize (s.canHeard p f).sqMoved p = u at *
  have slot : (s.cn p).nextSlot % max 1 (rxWin s.force p) = (u.cn p).nextSlot % max 1 (rxWin u.force p) := by rw [win, heard.cn]
  have unread : (u.cn p).unread = (s.cn p).unread := by rw [heard.cn]
  have locks : (u.cn p).locks = (s.cn p).locks := by rw [heard.cn]
  have mem : u.mem = s.mem := heard.only .mem (by decide)
  obtain ⟨lost, flagged, keeps, over_⟩ := routed_full (ws := recordOf f (s.cn p).sqNo.toNat s.now false) heard.whole port recordOf_length
    (by rw [cfg]; exact route) slot (by rw [unread]; exact taken)
  rw [heard.lost] at lost
  rw [cfg, unread, mem] at keeps
  rw [cfg, unread, locks] at over_
  exact ⟨lost, flagged, keeps, over_⟩

/-- A frame for a DMA channel (R382). -/
theorem canDelivered_dma (whole : Whole s) (port : p < 2) (route : fld (canCfg s.force p) 10 9 = 1) :
    let ch := fld (canCfg s.force p) 21 16
    (s.canDelivered p f).mem = s.mem ∧
      ((s.dm ch).record = none → ((s.canDelivered p f).dm ch).record = some (recordOf f (s.cn p).sqNo.toNat s.now false) ∧
        Flagged (s.canDelivered p f) (pgCan p) 4) ∧
      ((s.dm ch).record.isSome → ((s.canDelivered p f).dm ch).record = (s.dm ch).record ∧
        (s.canDelivered p f).lv (pgCan p) CAN.RX_OVERFLOW = countUp (s.lv (pgCan p) CAN.RX_OVERFLOW) ∧ Flagged (s.canDelivered p f) (pgCan p) 6) := by
  intro ch
  have heard : Heard s p ((s.canHeard p f).sqMoved p) := canHeard_moved whole port
  have cfg : canCfg ((s.canHeard p f).sqMoved p).force p = canCfg s.force p := canCfg_of_cfg (heard.only .cfg (by decide))
  unfold State.canDelivered
  rw [canHeard_record whole port]
  generalize (s.canHeard p f).sqMoved p = u at *
  have line : u.dm ch = s.dm ch := dm_only heard.only (by decide)
  have mem : u.mem = s.mem := heard.only .mem (by decide)
  have which : ch = fld (canCfg u.force p) 21 16 := by rw [cfg]
  rw [routed_dma (by rw [cfg]; exact route)]
  refine ⟨(rxDma_only .mem (by decide)).trans mem, fun free => rxDma_free heard.whole which (by rw [line]; exact free), fun full => ?_⟩
  rw [rxDma_full which (by rw [line]; exact full)]
  obtain ⟨lost, -, flagged⟩ := rxOverflow_lost heard.whole.regs port
  rw [heard.lost] at lost
  exact ⟨by rw [dm_only rxOverflow_only (by decide), line], lost.2, flagged⟩

/-- What every frame leaves: it is counted, and the port integrates no more (R342, R350). -/
theorem canReceive_counts (whole : Whole s) (port : p < 2) :
    fld ((s.canReceive p f).lv (pgCan p) CAN.FRAME_COUNT) 15 0 = (fld (s.lv (pgCan p) CAN.FRAME_COUNT) 15 0 + 1) % 65536 ∧
      ((s.canReceive p f).cn p).integrating = false := by
  have counts := canHeard_counts (f := f) whole.regs port
  have cn := canHeard_cn (f := f) whole port
  have beside (o : Nat) (h : o < 4096) : regAddr (pgCan p) CAN.FRAME_COUNT ≠ regAddr pgBilva o := fun e => by
    have page := ((regAddr_inj h (by decide)).mp e).1
    simp only [pgCan, pgBilva] at page
    omega
  have out : OutlivesRx p (Reads (pgCan p) CAN.FRAME_COUNT (countLow (s.lv (pgCan p) CAN.FRAME_COUNT))) := outlivesRx_frames port
  rw [canReceive_eq]
  generalize s.canHeard p f = u at *
  have calm : (u.cn p).integrating = false := by rw [cn]
  split
  · have taken := bilvaTake_rises (f := f) out (fun _ h => h.setLv_ne (beside _ (by decide))) (fun _ h => h.setLv_ne (beside _ (by decide))) counts
    rw [taken.2]
    exact ⟨fld_countLow, bilvaTake_cn (Q := fun x => x.integrating = false) port (fun _ _ _ k => k) (fun _ k => k) calm⟩
  · have delivered := deliver_rises (f := f) (bilva := false) out counts
    rw [delivered.2]
    exact ⟨fld_countLow, deliver_cn (Q := fun x => x.integrating = false) (fun _ _ _ _ k => k) (fun _ _ k => k) calm⟩

theorem canDelivered_sq (whole : Whole s) (port : p < 2) : ((s.canDelivered p f).cn p).sqNo = (s.cn p).sqNo + 1 := by
  have heard : Heard s p ((s.canHeard p f).sqMoved p) := canHeard_moved whole port
  exact routed_cn (Q := fun x => x.sqNo = (s.cn p).sqNo + 1) (fun _ _ _ _ k => k) (by rw [heard.cn])

/-! Locks. -/

/-- The locks of a reader that turns to slot i: one on another slot ends. -/
def keptLocks (x : CanSt) (i : Nat) (r : Reader) : List (Nat × Reader) :=
  match x.locks.find? fun l => l.2 = r with
  | some l => if l.1 = i then x.locks else x.locks.filter fun l => l.2 ≠ r
  | none => x.locks

/-- A reader turns to slot i. -/
def State.lockTurned (s : State) (p i : Nat) (r : Reader) : State :=
  match (s.cn p).locks.find? fun l => l.2 = r with
  | some l => if l.1 = i then s else s.onCn p fun x => { x with locks := x.locks.filter fun l => l.2 ≠ r }
  | none => s

theorem rxLock_eq {r : Reader} : s.rxLock p i r =
    if ((s.lockTurned p i r).cn p).unread.contains i && !((s.lockTurned p i r).cn p).locks.any (·.1 = i)
    then (s.lockTurned p i r).onCn p fun x => { x with locks := x.locks ++ [(i, r)] } else s.lockTurned p i r := rfl

theorem lockTurned_cn {r : Reader} (here : p < s.cans.length) : (s.lockTurned p i r).cn p = { s.cn p with locks := keptLocks (s.cn p) i r } ∧
    p < (s.lockTurned p i r).cans.length := by
  unfold State.lockTurned keptLocks
  cases held : (s.cn p).locks.find? fun l => l.2 = r with
  | none => exact ⟨rfl, here⟩
  | some l =>
    by_cases same : l.1 = i
    · simp only [if_pos same]
      exact ⟨trivial, here⟩
    · simp only [if_neg same]
      exact ⟨cn_onCn_same here, here.trans_eq (List.length_modify ..).symm⟩

theorem rxLock_cn {r : Reader} (here : p < s.cans.length) : (s.rxLock p i r).cn p = { s.cn p with
    locks := if i ∈ (s.cn p).unread ∧ ¬ (keptLocks (s.cn p) i r).any (·.1 = i) then keptLocks (s.cn p) i r ++ [(i, r)] else keptLocks (s.cn p) i r } := by
  obtain ⟨cn, here'⟩ := lockTurned_cn (i := i) (r := r) here
  rw [rxLock_eq]
  generalize s.lockTurned p i r = u at *
  rw [cn]
  simp only [Bool.and_eq_true, Bool.not_eq_true', Bool.not_eq_true, List.contains_iff_mem]
  split
  · rw [cn_onCn_same here', cn]
  · exact cn

end

/-- Settles O48. -/
theorem canReception : Obligations.CanReception := by
  unfold Obligations.CanReception
  intro port s whole p c x
  have low : p < 2 := port.isLt
  have here : p < s.cans.length := (present whole).cans.symm ▸ low
  refine ⟨fun f => ?frames, fun slot r up inWin => ?locks, fun slot r up held => ?release, fun slot r free => ?idle⟩
  case frames =>
    extract_lets heard bilva route i record
    refine ⟨fun no => if_pos ?_, fun yes => ?_⟩
    · by_contra all
      simp only [Bool.or_eq_true, Bool.not_eq_true', Bool.and_eq_true, not_or, not_and, Bool.not_eq_false] at all
      exact no all
    · have run : exec (.canFrameReceived port f) s = .next (s.canReceive p f) := by
        refine if_neg ?_
        simp only [Bool.or_eq_true, Bool.not_eq_true', Bool.and_eq_true, not_or, not_and, Bool.not_eq_false]
        exact yes
      obtain ⟨counts, calm⟩ := canReceive_counts (f := f) whole low
      refine ⟨_, run, ⟨counts, calm, fun plain => ?_, fun plain way free => ?_, fun plain way taken => ?_, fun plain way => ?_, fun ours own => ?_,
        fun ours own bad => ?_, fun ours own good bridge type => ?_⟩, State.canReceive_only (Only.refl _ _) rfl⟩
      · rw [canReceive_plain plain]
        exact canDelivered_sq whole low
      · rw [canReceive_plain plain]
        exact canDelivered_free whole low way free
      · rw [canReceive_plain plain]
        exact canDelivered_full whole low way taken
      · rw [canReceive_plain plain]
        exact canDelivered_dma whole low way
      · have heardF : Only [.cans, .regs, .trace] s (s.canHeard p f) := canHeard_only
        have node : nodeNo (s.canHeard p f).force = nodeNo s.force := congrArg (fld · 25 16) (force_staged (heardF .cfg (by decide)) (by decide))
        obtain ⟨on, flagged, mem⟩ := nodeConflict_leaves (canHeard_whole (p := p) (f := f) whole).regs
        rw [canReceive_bilva ours, bilvaTake_conflict (by rw [node]; exact own)]
        exact ⟨on, flagged, mem.trans (heardF .mem (by decide))⟩
      · have heardF : Only [.cans, .regs, .trace] s (s.canHeard p f) := canHeard_only
        have node : nodeNo (s.canHeard p f).force = nodeNo s.force := congrArg (fld · 25 16) (force_staged (heardF .cfg (by decide)) (by decide))
        have count : (s.canHeard p f).lv pgBilva BILVA.BAD_COUNT = s.lv pgBilva BILVA.BAD_COUNT :=
          canHeard_reads whole.regs (by decide) fun e => absurd ((regAddr_inj (by decide) (by decide)).mp e).2 (by decide)
        have ok := (canHeard_whole (p := p) (f := f) whole).regs
        rw [canReceive_bilva ours, bilvaTake_badLength (by rw [node]; exact own) bad]
        generalize s.canHeard p f = u at *
        have counted := reads_inc16 (p := pgBilva) (o := BILVA.BAD_COUNT) ok
        rw [count] at counted
        exact ⟨(counted.event (by decide)).2, (event_flags counted.1 (by decide)).2,
          (State.event_only (State.inc16_only (Only.refl [.regs, .trace] u) rfl) rfl .mem (by decide)).trans (heardF .mem (by decide))⟩
      · have heardF : Only [.cans, .regs, .trace] s (s.canHeard p f) := canHeard_only
        have cfg : (s.canHeard p f).cfg = s.cfg := heardF .cfg (by decide)
        have word : (s.canHeard p f).force pgBilva BILVA.CFG = s.force pgBilva BILVA.CFG := force_staged cfg (by decide)
        have other : (s.canHeard p f).cn (1 - p) = s.cn (1 - p) := canHeard_other (by omega)
        have forwarded := bilvaTake_forwards (f := f) (canHeard_whole (p := p) (f := f) whole) low (by rw [nodeNo, word]; exact own) good
          (by rw [bridgeEn, word]; exact bridge) (by rw [bForwards, word]; exact type)
        rw [other] at forwarded
        rw [canReceive_bilva ours]
        exact forwarded
  case locks =>
    have run : exec (.rxSlotLock port slot r) s = .next (s.rxLock p slot.val r) := if_pos (by rw [up, decide_eq_true inWin]; rfl)
    exact ⟨_, run, rxLock_cn here, State.rxLock_only (Only.refl _ _) rfl⟩
  case release =>
    have run : exec (.rxSlotRelease port slot r) s = .next (s.rxRelease p slot.val r) := if_pos up
    have taken : s.rxRelease p slot.val r = s.onCn p fun x => { x with
        locks := x.locks.filter (· ≠ (slot.val, r)), unread := x.unread.filter (· ≠ slot.val) } := if_pos (List.contains_iff_mem.mpr held)
    rw [taken] at run
    exact ⟨_, run, cn_onCn_same here, State.onCn_only (Only.refl _ _) rfl⟩
  case idle =>
    have none_ : s.rxRelease p slot.val r = s := if_neg fun h => free (List.contains_iff_mem.mp h)
    show (if s.up then Host.Outcome.next (s.rxRelease p slot.val r) else .next s) = _
    rw [none_, ite_self]

end Sys2Proof.Machine
end


section

/-! PROOF. DMA channels: descriptors written back and loaded, triggers, and the halt (R375, R379 to R381, R387 to R389). -/

namespace Sys2Proof.Machine

open Sys2Proof.Safety Sys2Proof.Claims

section

variable {s t u : State} {ch k n elements result addr info : Nat} {d : List Word} {write : Bool}

theorem force_same (regs : t.regs = s.regs) (cfg : t.cfg = s.cfg) : t.force = s.force := by
  funext p o
  simp only [State.force, State.lv, State.cf, regs, cfg]

/-! Write-back. -/

/-- Words 5 to 7 of the descriptor as they are written back, and the registers that show it. -/
def State.descShown (s : State) (ch : Nat) (d : List Word) (elements result : Nat) : State :=
  ((s.putWords (descAddr s.force ch (s.dm ch).cur + 20) [putBt (dW d 5) 0 false, nw (elements * 65536 + result * 256 + 1), nw s.now]).inc32
    (dmaPage ch) (dmaLive ch (DMACH.DONE_COUNT 0))).setLv (dmaPage ch) (dmaLive ch (DMACH.LAST_TICK 0)) (nw s.now)

/-- A channel without its descriptor. -/
def DmaSt.ended (x : DmaSt) (d : List Word) : DmaSt := { x with desc := none, beats := 0, under := false, granted := false, next := dNext d }

theorem descShown_only : Only [.regs, .mem, .eccBad] s (s.descShown ch d elements result) :=
  State.setLv_only (State.inc32_only (State.putWords_only (Only.refl _ _) rfl) rfl) rfl

theorem dmaWriteBack_parts : Only [.regs, .trace] ((s.descShown ch d elements result).onDm ch (·.ended d)) (s.dmaWriteBack ch d elements result) :=
  only_ite (State.event_only (Only.refl _ _) rfl) (Only.refl _ _)

theorem dmaWriteBack_dm (here : ch < s.dma.length) : (s.dmaWriteBack ch d elements result).dm ch = (s.dm ch).ended d := by
  have dma : (s.descShown ch d elements result).dma = s.dma := descShown_only .dma (by decide)
  rw [dm_only dmaWriteBack_parts (by decide), dm_onDm_same (by rw [dma]; exact here), dm_only descShown_only (by decide)]

theorem dmaWriteBack_length : (s.dmaWriteBack ch d elements result).dma.length = s.dma.length := by
  have dma : (s.descShown ch d elements result).dma = s.dma := descShown_only .dma (by decide)
  have modified : (s.dmaWriteBack ch d elements result).dma = (s.descShown ch d elements result).dma.modify ch (·.ended d) :=
    dmaWriteBack_parts .dma (by decide)
  rw [modified, List.length_modify, dma]

/-- Word 6 says how the descriptor ended. -/
theorem dmaWriteBack_result (ok : MemoryOk s) : (s.dmaWriteBack ch d elements result).wordAt (descAddr s.force ch (s.dm ch).cur + 24) =
    nw (elements * 65536 + result * 256 + 1) := by
  rw [wordAt_of_mem (dmaWriteBack_parts .mem (by decide))]
  exact wordAt_putWords_at (a := descAddr s.force ch (s.dm ch).cur + 20) (i := 1) ok (Nat.lt_of_sub_eq_succ rfl)

/-! Errors. -/

theorem dmaError_parts : Only [.regs, .trace] (s.onDm ch fun x => { x with state := .error, granted := false }) (s.dmaError ch) :=
  State.pfault_only (State.event_only (Only.refl _ _) rfl) rfl

theorem dmaError_dm (here : ch < s.dma.length) : (s.dmaError ch).dm ch = { s.dm ch with state := .error, granted := false } := by
  rw [dm_only dmaError_parts (by decide), dm_onDm_same here]

theorem dmaError_only : Only [.regs, .dma, .trace] s (s.dmaError ch) := State.dmaError_only (Only.refl _ _) rfl

/-- A channel that ran halts with the engine. -/
def DmaSt.frozen (x : DmaSt) : DmaSt := if x.state = .run then { x with state := .halted } else x

/-- Every channel that ran halts. -/
def State.dmaFrozen (s : State) : State := { s with dmaHalted := true, dma := s.dma.map DmaSt.frozen }

/-- The first bus error is shown. -/
def State.busErrShown (s : State) (ch addr info : Nat) (write : Bool) : State :=
  ((s.onLv pgDma DMA.STATUS fun w => putFld w 21 16 ch).setLv pgDma DMA.ERR_ADDR (nw (bitAt 31 write + addr))).setLv pgDma DMA.ERR_INFO (nw info)

/-- The halt is counted and told. -/
def State.haltTold (s : State) : State := (((s.inc16 pgDma DMA.HALT_COUNT).event pgDma 1).pfault pgDma 1).raisePulse srcDmaBus 16

theorem dmaHalt_again (h : s.dmaHalted = true) : s.dmaHalt ch addr info write = s.dmaError ch :=
  if_pos ((dmaError_only .dmaHalted (by decide)).trans h)

theorem haltTold_only : Only [.regs, .axes, .safety, .trace, .log] s s.haltTold :=
  State.raisePulse_only (State.pfault_only (State.event_only (State.inc16_only (Only.refl _ _) rfl) rfl) rfl) rfl

theorem dmaHalt_first (h : s.dmaHalted = false) :
    Only [.timers] (((s.dmaError ch).dmaFrozen.busErrShown ch addr info write).haltTold) (s.dmaHalt ch addr info write) := by
  have on : (s.dmaError ch).dmaHalted = false := (dmaError_only .dmaHalted (by decide)).trans h
  unfold State.dmaHalt
  dsimp only
  rw [if_neg (by rw [on]; decide)]
  exact only_ite (Only.refl _ _) (State.startT_only (Only.refl _ _) rfl)

theorem busErrShown_only : Only [.regs] s (s.busErrShown ch addr info write) :=
  State.setLv_only (State.setLv_only (State.onLv_only (Only.refl _ _) rfl) rfl) rfl

theorem dm_dmaFrozen : s.dmaFrozen.dm ch = (s.dm ch).frozen := by
  simp only [State.dm, State.dmaFrozen, List.getD_eq_getElem?_getD, List.getElem?_map]
  cases s.dma[ch]? with
  | none => rfl
  | some x => rfl

theorem dmaHalt_first_dm (h : s.dmaHalted = false) : (s.dmaHalt ch addr info write).dm k = ((s.dmaError ch).dm k).frozen := by
  rw [dm_only (dmaHalt_first h) (by decide), dm_only haltTold_only (by decide), dm_only busErrShown_only (by decide), dm_dmaFrozen]

theorem dmaHalt_dm (here : ch < s.dma.length) : (s.dmaHalt ch addr info write).dm ch = { s.dm ch with state := .error, granted := false } := by
  cases h : s.dmaHalted with
  | true => rw [dmaHalt_again h, dmaError_dm here]
  | false =>
    rw [dmaHalt_first_dm h, dmaError_dm here]
    rfl

theorem dmaHalt_halts : (s.dmaHalt ch addr info write).dmaHalted = true := by
  cases h : s.dmaHalted with
  | true =>
    rw [dmaHalt_again h]
    exact (dmaError_only .dmaHalted (by decide)).trans h
  | false => exact ((dmaHalt_first h) .dmaHalted (by decide)).trans ((haltTold_only .dmaHalted (by decide)).trans (busErrShown_only .dmaHalted (by decide)))

theorem dmaHalt_mem : (s.dmaHalt ch addr info write).mem = s.mem :=
  State.dmaHalt_only (Only.refl [.regs, .axes, .dma, .dmaHalted, .safety, .trace, .log, .timers] s) rfl .mem (by decide)

/-- The first bus error is recorded (R388). -/
theorem dmaHalt_records (whole : Whole s) (h : s.dmaHalted = false) : let t := s.dmaHalt ch addr info write
    t.lv pgDma DMA.ERR_ADDR = nw (bitAt 31 write + addr) ∧ t.lv pgDma DMA.ERR_INFO = nw info ∧ Flagged t pgDma 0 := by
  have ok : MapOk (s.dmaError ch).dmaFrozen.regs := ((State.dmaError_kept (ch := ch) (Kept.refl s)).whole whole).regs
  have regs : (s.dmaHalt ch addr info write).regs = (((s.dmaError ch).dmaFrozen.busErrShown ch addr info write).haltTold).regs :=
    dmaHalt_first h .regs (by decide)
  generalize s.dmaHalt ch addr info write = t at *
  generalize (s.dmaError ch).dmaFrozen = u at *
  have shown : Reads pgDma DMA.ERR_ADDR (nw (bitAt 31 write + addr)) (u.busErrShown ch addr info write) :=
    (reads_setLv (MapOk.set ok)).setLv_ne (by decide)
  have told : Reads pgDma DMA.ERR_INFO (nw info) (u.busErrShown ch addr info write) := reads_setLv (MapOk.set (MapOk.set ok))
  generalize u.busErrShown ch addr info write = v at *
  have keeps {o : Nat} {w : Word} (calm : Calm pgDma o) (other : regAddr pgDma o ≠ regAddr pgDma DMA.HALT_COUNT) (k : Reads pgDma o w v) :
      Reads pgDma o w v.haltTold :=
    (rising_reads calm).raisePulse ((rising_reads calm).fault ((rising_reads calm).event (k.setLv_ne other)))
  refine ⟨?_, ?_, ?_⟩
  · rw [lv_of_regs regs]
    exact (keeps (by decide) (by decide) shown).2
  · rw [lv_of_regs regs]
    exact (keeps (by decide) (by decide) told).2
  · have set := event_flags (s := v.inc16 pgDma DMA.HALT_COUNT) (p := pgDma) (bits := 1) (i := 0) (MapOk.set shown.1) (by decide)
    exact flagged_of_regs ((rising_up.raisePulse (rising_up.fault set.1)).bits _ _ set.2) regs

/-! Loading a descriptor. -/

/-- The channel stands at the descriptor that NEXT names. -/
def State.dmaAt (s : State) (ch : Nat) : State := s.onDm ch fun x => { x with cur := (s.dm ch).next }

/-- A descriptor that is not admissible is written back, and told. -/
def State.descRefused (s : State) (ch : Nat) (d : List Word) : State :=
  ((((s.dmaWriteBack ch d 0 dmaDescErr).dmaError ch).event pgDma 2).pfault pgDma 2).raisePulse srcDmaDesc 16

/-- The descriptor that NEXT names. -/
def State.descNext (s : State) (ch : Nat) : List Word := s.wordsAt (descAddr s.force ch (s.dm ch).next) 8

theorem dmaStart_bad (h : (List.range 8).find? (fun k => s.eccBad.contains (descAddr s.force ch (s.dm ch).next + 4 * k)) = some k) :
    s.dmaStart ch = (s.dmaAt ch).dmaHalt ch (descAddr s.force ch (s.dm ch).next + 4 * k) 3 false := by
  have h' : (List.range 8).find? (fun k => (s.dmaAt ch).eccBad.contains (descAddr s.force ch (s.dm ch).next + 4 * k)) = some k := h
  unfold State.dmaStart
  dsimp only
  split
  · next j e =>
    have same : some j = some k := e.symm.trans h'
    injection same with same
    subst same
    rfl
  · next e => exact absurd (e.symm.trans h') (by simp)

theorem dmaStart_clean (h : (List.range 8).find? (fun k => s.eccBad.contains (descAddr s.force ch (s.dm ch).next + 4 * k)) = none) :
    s.dmaStart ch = if !dValid (s.descNext ch) then (s.dmaAt ch).onDm ch fun x => { x with state := .wait, granted := false }
      else if !descValid s.force ch (s.descNext ch) then (s.dmaAt ch).descRefused ch (s.descNext ch)
      else (s.dmaAt ch).onDm ch fun x =>
        { x with state := (if s.dmaHalted then .halted else .run), granted := true, desc := some (s.descNext ch), beats := 0, under := false } := by
  have h' : (List.range 8).find? (fun k => (s.dmaAt ch).eccBad.contains (descAddr s.force ch (s.dm ch).next + 4 * k)) = none := h
  unfold State.dmaStart
  dsimp only
  split
  · next j e => exact absurd (e.symm.trans h') (by simp)
  · rfl

theorem descRefused_parts : Only [.regs, .axes, .safety, .trace, .log] ((s.dmaWriteBack ch d 0 dmaDescErr).dmaError ch) (s.descRefused ch d) :=
  State.raisePulse_only (State.pfault_only (State.event_only (Only.refl _ _) rfl) rfl) rfl

theorem descRefused_dm (here : ch < s.dma.length) : (s.descRefused ch d).dm ch = { (s.dm ch).ended d with state := .error, granted := false } := by
  rw [dm_only descRefused_parts (by decide), dmaError_dm (dmaWriteBack_length.symm ▸ here), dmaWriteBack_dm here]

theorem descRefused_result (ok : MemoryOk s) : (s.descRefused ch d).wordAt (descAddr s.force ch (s.dm ch).cur + 24) = nw (2 * 256 + 1) := by
  rw [wordAt_of_mem (descRefused_parts .mem (by decide)), wordAt_of_mem (dmaError_only .mem (by decide))]
  exact dmaWriteBack_result ok

theorem descRefused_tells (whole : Whole s) : Flagged (s.descRefused ch d) pgDma 1 ∧ bt ((s.descRefused ch d).lv pgDma pageFault) 1 = true := by
  have ok : MapOk ((s.dmaWriteBack ch d 0 dmaDescErr).dmaError ch).regs :=
    ((State.dmaError_kept (State.dmaWriteBack_kept (Kept.refl s))).whole whole).regs
  unfold State.descRefused
  generalize (s.dmaWriteBack ch d 0 dmaDescErr).dmaError ch = u at *
  have set := event_flags (p := pgDma) (bits := 2) (i := 1) ok (by decide)
  exact ⟨(rising_up.raisePulse (rising_up.fault set.1)).bits _ _ set.2, (rising_faulted.raisePulse (pfault_sets set.1.ok (by decide))).2⟩

theorem dm_dmaAt (here : ch < s.dma.length) : (s.dmaAt ch).dm ch = { s.dm ch with cur := (s.dm ch).next } := dm_onDm_same here

theorem dmaAt_whole (whole : Whole s) : Whole (s.dmaAt ch) := (State.onDm_kept (Kept.refl s)).whole whole

theorem dmaAt_length : (s.dmaAt ch).dma.length = s.dma.length := List.length_modify ..

theorem dmaStart_loads (whole : Whole s) (low : ch < 64) : DmaLoads s ch (s.dmaStart ch) := by
  have here : ch < s.dma.length := (present whole).dma.symm ▸ low
  have here' : ch < (s.dmaAt ch).dma.length := dmaAt_length.symm ▸ here
  have at_ := dm_dmaAt here
  have whole' : Whole (s.dmaAt ch) := dmaAt_whole whole
  unfold DmaLoads
  extract_lets a d clean
  cases found : (List.range 8).find? fun k => s.eccBad.contains (descAddr s.force ch (s.dm ch).next + 4 * k) with
  | some k =>
    have dirty : ¬ clean := fun all => by
      have mem : k ∈ List.range 8 := List.mem_of_find?_eq_some found
      have bad := List.find?_some found
      rw [all k (List.mem_range.mp mem)] at bad
      exact Bool.noConfusion bad
    rw [dmaStart_bad found, dmaHalt_dm here', at_]
    exact ⟨rfl, fun _ => ⟨rfl, dmaHalt_halts⟩, fun c => absurd c dirty, fun c => absurd c dirty, fun c => absurd c dirty⟩
  | none =>
    have tidy : clean := fun k low => by
      have none_ := List.find?_eq_none.mp found k (List.mem_range.mpr low)
      simpa using none_
    rw [dmaStart_clean found]
    cases valid : dValid (s.descNext ch) with
    | false =>
      rw [if_pos (by rfl), dm_onDm_same here', at_]
      exact ⟨rfl, fun c => absurd tidy c, fun _ _ => ⟨rfl, rfl⟩, fun _ v => absurd (v.symm.trans valid) (by decide),
        fun _ v => absurd (v.symm.trans valid) (by decide)⟩
    | true =>
      rw [if_neg (by decide)]
      cases good : descValid s.force ch (s.descNext ch) with
      | false =>
        rw [if_pos (by rfl), descRefused_dm here', at_]
        have result := descRefused_result (ch := ch) (d := s.descNext ch) whole'.mem
        rw [at_] at result
        obtain ⟨flagged, faulted⟩ := descRefused_tells (ch := ch) (d := s.descNext ch) whole'
        exact ⟨rfl, fun c => absurd tidy c, fun _ v => absurd (v.symm.trans valid) (by decide), fun _ _ _ => ⟨rfl, flagged, faulted, result⟩,
          fun _ _ g => absurd (g.symm.trans good) (by decide)⟩
      | true =>
        rw [if_neg (by decide), dm_onDm_same here', at_]
        exact ⟨rfl, fun c => absurd tidy c, fun _ v => absurd (v.symm.trans valid) (by decide),
          fun _ _ g => absurd (g.symm.trans good) (by decide), fun _ _ _ => ⟨rfl, rfl, rfl, rfl⟩⟩

/-- A load is the same where nothing it reads has changed. -/
theorem DmaLoads.congr (h : DmaLoads s ch t) (next : (u.dm ch).next = (s.dm ch).next) (force : u.force = s.force) (mem : u.mem = s.mem)
    (ecc : u.eccBad = s.eccBad) (halted : u.dmaHalted = s.dmaHalted) : DmaLoads u ch t := by
  simp only [DmaLoads, next, force, wordsAt_of_mem mem, ecc, halted] at *
  exact h

/-! Triggers. -/

theorem dmaPend_dm (here : ch < s.dma.length) (few : (s.dm ch).pend < 255) : (s.dmaPend ch).dm ch = { s.dm ch with pend := (s.dm ch).pend + 1 } := by
  unfold State.dmaPend
  rw [if_pos few, dm_onDm_same here]

theorem dmaPend_missed (many : 255 ≤ (s.dm ch).pend) : s.dmaPend ch = s.incHalf (dmaPage ch) (dmaLive ch (DMACH.ZERO_BEATS 0)) true :=
  if_neg (by omega)

theorem dmaTrigger_error (h : (s.dm ch).state = .error) : s.dmaTrigger ch = s := by
  unfold State.dmaTrigger
  rw [h]
  exact ite_self _

theorem dmaTrigger_runs (en : dmaEn s.force ch = true) (h : (s.dm ch).state ≠ .error) :
    s.dmaTrigger ch = if s.dmaHalted || (s.dm ch).granted then s.dmaPend ch else s.dmaStart ch := by
  unfold State.dmaTrigger
  rw [en]
  cases e : (s.dm ch).state with
  | error => exact absurd e h
  | _ => rfl

theorem dmaTrigger_triggers (whole : Whole s) (low : ch < 64) (en : dmaEn s.force ch = true) : DmaTriggered s ch (s.dmaTrigger ch) := by
  have here : ch < s.dma.length := (present whole).dma.symm ▸ low
  unfold DmaTriggered
  extract_lets x busy
  by_cases error : x.state = .error
  · rw [dmaTrigger_error error]
    exact ⟨fun _ => ⟨error, rfl⟩, fun n => absurd error n, fun n => absurd error n, fun n => absurd error n⟩
  · refine ⟨fun e => absurd e error, fun _ => ?_, fun _ => ?_, fun _ => ?_⟩
    · intro held few
      rw [dmaTrigger_runs en error, if_pos (by simpa using held), dmaPend_dm here few]
      exact ⟨rfl, rfl⟩
    · intro held many
      rw [dmaTrigger_runs en error, if_pos (by simpa using held), dmaPend_missed many]
      exact ⟨rfl, (reads_incHalf_upper whole.regs).2⟩
    · intro free
      rw [dmaTrigger_runs en error, if_neg (by simpa [busy, x] using free)]
      exact dmaStart_loads whole low

/-- A trigger is the same where nothing it reads has changed. -/
theorem DmaTriggered.congr (h : DmaTriggered s ch t) (state : (u.dm ch).state = (s.dm ch).state) (pend : (u.dm ch).pend = (s.dm ch).pend)
    (granted : (u.dm ch).granted = (s.dm ch).granted) (next : (u.dm ch).next = (s.dm ch).next) (regs : u.regs = s.regs) (cfg : u.cfg = s.cfg)
    (mem : u.mem = s.mem) (ecc : u.eccBad = s.eccBad) (halted : u.dmaHalted = s.dmaHalted) : DmaTriggered u ch t := by
  simp only [DmaTriggered, state, pend, granted, lv_of_regs regs, halted] at h ⊢
  obtain ⟨error, few, many, loads⟩ := h
  exact ⟨error, few, many, fun runs free => DmaLoads.congr (s := s) (loads runs free) next (force_same regs cfg) mem ecc halted⟩

/-! What no trigger of a channel changes: the record that its line holds, and the tick of its period. -/

/-- The record that the line holds, and the tick of the last period trigger. -/
def DmaSt.held (x : DmaSt) : Option (List Word) × Nat := (x.record, x.lastTrig)

theorem held_onDm {f : DmaSt → DmaSt} (h : ∀ x, (f x).held = x.held) : ((s.onDm ch f).dm k).held = (s.dm k).held :=
  getD_modify_keeps (P := fun x => x.held = (s.dm k).held) (fun x e => (h x).trans e) rfl

theorem held_only {fs : List Part} (h : Only fs s t) (out : .dma ∉ fs) : (t.dm k).held = (s.dm k).held := congrArg DmaSt.held (dm_only h out)

theorem dmaWriteBack_held : ((s.dmaWriteBack ch d elements result).dm k).held = (s.dm k).held :=
  (held_only dmaWriteBack_parts (by decide)).trans ((held_onDm (f := (·.ended d)) fun _ => rfl).trans (held_only descShown_only (by decide)))

theorem dmaError_held : ((s.dmaError ch).dm k).held = (s.dm k).held := (held_only dmaError_parts (by decide)).trans (held_onDm fun _ => rfl)

theorem dmaHalt_held : ((s.dmaHalt ch addr info write).dm k).held = (s.dm k).held := by
  cases h : s.dmaHalted with
  | true =>
    rw [dmaHalt_again h]
    exact dmaError_held
  | false =>
    rw [dmaHalt_first_dm h, ← dmaError_held (ch := ch)]
    unfold DmaSt.frozen
    split <;> rfl

theorem dmaStart_held : ((s.dmaStart ch).dm k).held = (s.dm k).held := by
  have at_ : ((s.dmaAt ch).dm k).held = (s.dm k).held := held_onDm fun _ => rfl
  cases found : (List.range 8).find? fun k => s.eccBad.contains (descAddr s.force ch (s.dm ch).next + 4 * k) with
  | some k =>
    rw [dmaStart_bad found]
    exact dmaHalt_held.trans at_
  | none =>
    rw [dmaStart_clean found]
    split
    · exact Eq.trans (held_onDm fun _ => by rfl) at_
    · split
      · exact (held_only descRefused_parts (by decide)).trans (dmaError_held.trans (dmaWriteBack_held.trans at_))
      · exact Eq.trans (held_onDm fun _ => by rfl) at_

theorem dmaTrigger_held : ((s.dmaTrigger ch).dm k).held = (s.dm k).held := by
  unfold State.dmaTrigger
  split
  · rfl
  · split
    · rfl
    · split
      · unfold State.dmaPend
        split
        · exact held_onDm fun _ => rfl
        · exact held_only (State.incHalf_only (Only.refl [.regs] s) rfl) (by decide)
      · exact dmaStart_held

end

end Sys2Proof.Machine
end


section

/-! PROOF. Commands of the DMA engine, its triggers, and the end of its halt (R380, R381, R388 to R390). -/

namespace Sys2Proof.Machine

open Sys2Proof.Safety Sys2Proof.Claims

section

variable {s t u : State} {ch k d : Nat} {x : List Word}

/-! Commands. -/

theorem dmaStop_loaded (whole : Whole s) (low : ch < 64) (loaded : (s.dm ch).desc = some x) (runs : (s.dm ch).state ≠ .error) :
    (s.dmaStop ch).dm ch = { (s.dm ch).ended x with state := .idle, pend := 0 } ∧
      (s.dmaStop ch).wordAt (descAddr s.force ch (s.dm ch).cur + 24) = nw ((s.dm ch).beats * 65536 + 4 * 256 + 1) := by
  have here : ch < s.dma.length := (present whole).dma.symm ▸ low
  have back := dmaWriteBack_dm (d := x) (elements := (s.dm ch).beats) (result := dmaStopped) here
  have result := dmaWriteBack_result (ch := ch) (d := x) (elements := (s.dm ch).beats) (result := dmaStopped) whole.mem
  have here' : ch < (s.dmaWriteBack ch x (s.dm ch).beats dmaStopped).dma.length := dmaWriteBack_length.symm ▸ here
  unfold State.dmaStop
  rw [loaded]
  dsimp only
  rw [if_neg (by rw [back]; exact runs), dm_onDm_same here', back]
  exact ⟨rfl, result⟩

theorem dmaStop_empty (none_ : (s.dm ch).desc = none) (runs : (s.dm ch).state ≠ .error) :
    s.dmaStop ch = s.onDm ch fun x => { x with state := .idle, granted := false, pend := 0 } := by
  unfold State.dmaStop
  rw [none_]
  exact if_neg runs

theorem dmaKick_waits (waits : (s.dm ch).state = .wait) (en : dmaEn s.force ch = true) : s.dmaKick ch = s.dmaStart ch := if_pos ⟨waits, en⟩

theorem dmaGo_soft (en : dmaEn s.force ch = true) (soft : dmaTrig s.force ch = 0) (runs : (s.dm ch).state ≠ .error) : s.dmaGo ch = s.dmaTrigger ch := by
  unfold State.dmaGo
  dsimp only
  rw [if_neg (by simp [en]), if_neg runs, if_pos soft]

/-- A channel that takes triggers again. -/
def State.dmaReadied (s : State) (ch : Nat) : State := s.onDm ch fun x => { x with state := if s.dmaHalted then .halted else .run }

theorem dmaTakePending_none (none_ : (s.dm ch).pend = 0) : s.dmaTakePending ch = s := by
  unfold State.dmaTakePending
  dsimp only
  rw [if_neg (by simp [none_])]

/-- A channel in ERROR is idle again. -/
def State.dmaAwake (s : State) (ch : Nat) : State := if (s.dm ch).state = .error then s.onDm ch fun x => { x with state := .idle } else s

theorem dmaAwake_only : Only [.dma] s (s.dmaAwake ch) := only_ite (State.onDm_only (Only.refl _ _) rfl) (Only.refl _ _)

theorem dmaAwake_dm (here : ch < s.dma.length) (rests : (s.dm ch).state = .idle ∨ (s.dm ch).state = .error) :
    (s.dmaAwake ch).dm ch = { s.dm ch with state := .idle } ∧ ch < (s.dmaAwake ch).dma.length := by
  unfold State.dmaAwake
  split
  · exact ⟨dm_onDm_same here, here.trans_eq (List.length_modify ..).symm⟩
  · next runs =>
    have idle : (s.dm ch).state = .idle := rests.resolve_right runs
    refine ⟨?_, here⟩
    rw [← idle]

theorem dmaGo_ready (here : ch < s.dma.length) (en : dmaEn s.force ch = true) (other : dmaTrig s.force ch ≠ 0)
    (rests : (s.dm ch).state = .idle ∨ (s.dm ch).state = .error) (none_ : (s.dm ch).pend = 0) :
    (s.dmaGo ch).dm ch = { s.dm ch with state := if s.dmaHalted then .halted else .run } ∧ Only [.dma] s (s.dmaGo ch) := by
  obtain ⟨awake, here'⟩ := dmaAwake_dm here rests
  have halted : (s.dmaAwake ch).dmaHalted = s.dmaHalted := dmaAwake_only .dmaHalted (by decide)
  have readied : ((s.dmaAwake ch).dmaReadied ch).dm ch = _ := dm_onDm_same here'
  have go : s.dmaGo ch = (s.dmaAwake ch).dmaReadied ch := by
    have runs : s.dmaGo ch = if ((s.dmaAwake ch).dm ch).state = .idle then ((s.dmaAwake ch).dmaReadied ch).dmaTakePending ch else s.dmaAwake ch :=
      (if_neg (by simp [en])).trans (if_neg other)
    rw [runs, if_pos (by rw [awake]), dmaTakePending_none (by rw [readied, awake]; exact none_)]
  rw [go, readied, awake, halted]
  exact ⟨rfl, State.onDm_only dmaAwake_only rfl⟩

theorem dmaGo_off (off : dmaEn s.force ch = false) : s.dmaGo ch = s := if_pos (by simp [off])

/-! The end of the halt. -/

/-- A channel that goes on after the halt. -/
def DmaSt.resumed (x : DmaSt) : DmaSt := if x.state = .halted then { x with state := .run } else x

/-- The engine runs again. -/
def State.dmaReleased (s : State) : State := { s with dmaHalted := false, dma := s.dma.map DmaSt.resumed }

/-- The engine runs again, and tells it. -/
def State.dmaResumed (s : State) : State := (s.dmaReleased.stopT .dmaResume).event pgDma 4

/-- Channel k takes a trigger that has waited for the end of the halt. -/
def State.dmaCatchUp (s : State) (k : Nat) : State :=
  if (s.dm k).granted || (s.dm k).pend == 0 || (s.dm k).state == .error then s
  else (s.onDm k fun x => { x with pend := x.pend - 1 }).dmaStart k

theorem dmaResumeNow_eq : s.dmaResumeNow = forN 64 (fun k s => s.dmaCatchUp k) s.dmaResumed := rfl

theorem dmaResumed_parts : Only [.regs, .trace, .timers] s.dmaReleased s.dmaResumed :=
  State.event_only (State.stopT_only (Only.refl _ _) rfl) rfl

theorem dmaResumed_dm : s.dmaResumed.dm ch = (s.dm ch).resumed := by
  rw [dm_only dmaResumed_parts (by decide)]
  simp only [State.dm, State.dmaReleased, List.getD_eq_getElem?_getD, List.getElem?_map]
  cases s.dma[ch]? with
  | none => rfl
  | some x => rfl

/-- No channel has a trigger to catch up with. -/
def Quiet (s : State) : Prop := ∀ ch < 64, (s.dm ch).granted = true ∨ (s.dm ch).pend = 0 ∨ (s.dm ch).state = .error

theorem dmaCatchUp_quiet (h : (s.dm k).granted = true ∨ (s.dm k).pend = 0 ∨ (s.dm k).state = .error) : s.dmaCatchUp k = s :=
  if_pos (by rcases h with h | h | h <;> simp [h])

theorem Quiet.resumed (h : Quiet s) : Quiet s.dmaResumed := by
  intro k low
  rw [dmaResumed_dm]
  unfold DmaSt.resumed
  split
  · next halted =>
    rcases h k low with granted | none_ | error
    · exact .inl granted
    · exact .inr (.inl none_)
    · exact absurd (halted.symm.trans error) (by decide)
  · exact h k low

theorem dmaResumeNow_quiet (h : Quiet s) : s.dmaResumeNow = s.dmaResumed := by
  rw [dmaResumeNow_eq]
  refine forL_ind_mem (P := fun t => t = s.dmaResumed) _ (fun k mem t e => ?_) rfl
  subst e
  exact dmaCatchUp_quiet (h.resumed k (List.mem_range.mp mem))

/-- The engine runs again: the event is told, the deadline is gone, and each channel that was halted runs. -/
theorem dmaResumeNow_goes (whole : Whole s) (h : Quiet s) : s.dmaResumeNow.dmaHalted = false ∧ Flagged s.dmaResumeNow pgDma 2 ∧
    s.dmaResumeNow.due .dmaResume = none ∧
    ∀ ch < 64, s.dmaResumeNow.dm ch = if (s.dm ch).state = .halted then { s.dm ch with state := .run } else s.dm ch := by
  rw [dmaResumeNow_quiet h]
  refine ⟨dmaResumed_parts .dmaHalted (by decide), (event_flags (s := s.dmaReleased.stopT .dmaResume) whole.regs (by decide)).2, ?_, fun ch _ => dmaResumed_dm⟩
  have event : Only [.regs, .trace] (s.dmaReleased.stopT .dmaResume) s.dmaResumed := State.event_only (Only.refl _ _) rfl
  exact (due_only event (by decide)).trans State.due_stopT_same

/-! Request lines. -/

/-- A request line that is asserted, for channel ch. -/
def State.lineAsked (s : State) (line : Byte) (ch : Nat) : State :=
  if dmaEn s.force ch && dmaTrig s.force ch == 1 && dmaReq s.force ch == line.toNat && (s.dm ch).record.isSome then s.dmaTrigger ch else s

/-! Period triggers. -/

/-- The tick of a period trigger is noted. -/
def State.periodNoted (s : State) (ch T : Nat) : State := (s.reach T).onDm ch fun x => { x with lastTrig := T }

theorem periodNoted_only {fs : List Part} (sub : In [.time, .dma] fs) : Only fs s (s.periodNoted ch d) :=
  State.onDm_only (State.reach_only (Only.refl _ _) (inT rfl sub)) (inT rfl sub)

end

/-- Settles O53. -/
theorem dmaCommands : Obligations.DmaCommands := by
  unfold Obligations.DmaCommands
  intro s whole c
  have length : s.dma.length = 64 := (present whole).dma
  refine ⟨fun k up => ?channel, fun line up => ?request, ?resume⟩
  case channel =>
    extract_lets ch x T
    have low : ch < 64 := k.isLt
    have here : ch < s.dma.length := length.symm ▸ low
    have whole' : Whole (s.touch .host) := (State.touch_kept (Kept.refl s)).whole whole
    have go : exec (.dmaGo k) s = .next ((s.touch .host).dmaGo ch) := if_pos up
    have stop : exec (.dmaStop k) s = .next ((s.touch .host).dmaStop ch) := if_pos up
    have kick : exec (.dmaKick k) s = .next ((s.touch .host).dmaKick ch) := if_pos up
    have touched {fs : List Part} (sub : In [.host] fs) : Only fs s (s.touch .host) := touchHost_only (Only.refl _ _) sub
    refine ⟨fun en soft runs => ?_, fun en other rests none_ => ?_, fun off => ?_, fun d loaded runs => ?_, fun empty runs => ?_, fun waits en => ?_,
      fun busy => ?_, fun en period => ?_, fun other => ?_⟩
    · rw [dmaGo_soft (s := s.touch .host) en soft runs] at go
      exact ⟨_, go, DmaTriggered.congr (s := s.touch .host) (dmaTrigger_triggers whole' low en) rfl rfl rfl rfl rfl rfl rfl rfl rfl, State.dmaTrigger_only (touched rfl) rfl⟩
    · obtain ⟨ready, only⟩ := dmaGo_ready (s := s.touch .host) here en other rests none_
      exact ⟨_, go, ready, Only.upd (touched rfl) rfl only⟩
    · rw [dmaGo_off (s := s.touch .host) off] at go
      exact ⟨_, go, trivial, touched rfl⟩
    · obtain ⟨ended, result⟩ := dmaStop_loaded (s := s.touch .host) whole' low loaded runs
      refine ⟨_, stop, ?_, State.dmaStop_only (touched rfl) rfl⟩
      exact ⟨congrArg DmaSt.state ended, congrArg DmaSt.granted ended, congrArg DmaSt.pend ended, congrArg DmaSt.desc ended,
        congrArg DmaSt.next ended, result⟩
    · rw [dmaStop_empty (s := s.touch .host) empty runs] at stop
      exact ⟨_, stop, dm_onDm_same here, State.onDm_only (touched rfl) rfl⟩
    · rw [dmaKick_waits (s := s.touch .host) waits en] at kick
      exact ⟨_, kick, DmaLoads.congr (s := s.touch .host) (dmaStart_loads whole' low) rfl rfl rfl rfl rfl, State.dmaStart_only (touched rfl) rfl⟩
    · have still : (s.touch .host).dmaKick ch = s.touch .host := if_neg fun h => busy h.1
      rw [still] at kick
      exact ⟨_, kick, trivial, touched rfl⟩
    · have run : exec (.dmaPeriodTrigger k) s = .next ((s.periodNoted ch T).dmaTrigger ch) := if_pos (by
        simp only [Bool.and_eq_true, beq_iff_eq]
        exact ⟨⟨up, en⟩, period⟩)
      have noted : (s.periodNoted ch T).dm ch = { s.dm ch with lastTrig := T } := dm_onDm_same here
      have whole_ : Whole (s.periodNoted ch T) := (State.onDm_kept (State.reach_kept (Kept.refl s))).whole whole
      have lasting : (((s.periodNoted ch T).dmaTrigger ch).dm ch).held = ((s.periodNoted ch T).dm ch).held := dmaTrigger_held
      have only : Only [.regs, .mem, .eccBad, .axes, .dma, .dmaHalted, .safety, .trace, .log, .timers] (s.periodNoted ch T)
        ((s.periodNoted ch T).dmaTrigger ch) := State.dmaTrigger_only (Only.refl _ _) rfl
      have triggered := dmaTrigger_triggers whole_ low (ch := ch) en
      refine ⟨_, run, ⟨(only .time (by decide)).trans rfl, ?_, DmaTriggered.congr triggered ?_ ?_ ?_ ?_ rfl rfl rfl rfl rfl⟩,
        State.dmaTrigger_only (periodNoted_only rfl) rfl⟩
      · rw [noted] at lasting
        exact congrArg Prod.snd lasting
      all_goals rw [noted]
    · refine if_neg fun h => other ?_
      simp only [Bool.and_eq_true, beq_iff_eq] at h
      exact h.2
  case request =>
    intro asks
    have turn (t : State) (j : Nat) (cfg : t.cfg = s.cfg) (held : (t.dm j).held = (s.dm j).held) :
        (dmaEn t.force j && dmaTrig t.force j == 1 && dmaReq t.force j == line.toNat && (t.dm j).record.isSome) = true ↔ asks j := by
      have word : dmaCfg t.force j = dmaCfg s.force j := force_staged cfg (by simp only [DMACH.CH_CFG]; omega)
      have record : (t.dm j).record = (s.dm j).record := congrArg Prod.fst held
      simp only [dmaEn, dmaTrig, dmaReq, word, record, Bool.and_eq_true, beq_iff_eq, and_assoc]
      exact Iff.rfl
    have outside (j : Nat) (high : ¬ j < 64) : ¬ asks j := fun h => by
      have gone : s.dm j = {} := by
        rw [State.dm, List.getD_eq_getElem?_getD, List.getElem?_eq_none (by omega)]
        rfl
      have record := h.2.2.2
      rw [gone] at record
      exact absurd record (by decide)
    have passes (t : State) (j : Nat) (cfg : t.cfg = s.cfg) (held : (t.dm j).held = (s.dm j).held) (silent : ¬ asks j) : t.lineAsked line j = t :=
      if_neg fun h => silent ((turn t j cfg held).mp h)
    have run : exec (.dmaRequest line) s = .next (forN 64 (fun j t => t.lineAsked line j) s) := if_neg (by rw [up]; decide)
    refine ⟨fun ch low only => ?_, fun none_ => ?_⟩
    · have silent (j : Nat) (other : j ≠ ch) : ¬ asks j := fun h => by
        by_cases low : j < 64
        · exact other ((only j low).mp h)
        · exact outside j low h
      have asked : asks ch := (only ch low).mpr rfl
      have triggered : s.lineAsked line ch = s.dmaTrigger ch := if_pos ((turn s ch rfl rfl).mpr asked)
      have result := forN_once (f := fun j t => t.lineAsked line j) (I := fun t => t = s)
        (P := fun t => DmaTriggered s ch t ∧ t.cfg = s.cfg ∧ ∀ j, (t.dm j).held = (s.dm j).held) low
        (fun j t other same => by
          subst same
          exact passes t j rfl rfl (silent j other))
        (fun t same => by
          subst same
          rw [triggered]
          have frame : Only [.regs, .mem, .eccBad, .axes, .dma, .dmaHalted, .safety, .trace, .log, .timers] t (t.dmaTrigger ch) :=
            State.dmaTrigger_only (Only.refl _ _) rfl
          exact ⟨dmaTrigger_triggers whole low asked.1, frame .cfg (by decide), fun j => dmaTrigger_held⟩)
        (fun j t other after => by
          obtain ⟨done, cfg, held⟩ := after
          rw [passes t j cfg (held j) (silent j other)]
          exact ⟨done, cfg, held⟩)
        rfl
      exact ⟨_, run, result.1, forN_only (fun _ _ h => only_ite (State.dmaTrigger_only h rfl) h) (Only.refl _ _)⟩
    · rw [run]
      refine congrArg _ (forL_ind_mem (P := fun t => t = s) _ (fun j mem t same => ?_) rfl)
      subst same
      exact passes t j rfl rfl (none_ j (List.mem_range.mp mem))
  case resume =>
    refine ⟨fun up halted quiet => ?_, fun up runs => ?_, fun d due quiet => ?_⟩
    · have run : exec .dmaResume s = .next (s.touch .host).dmaResumeNow := (if_pos up).trans (congrArg _ ((if_neg (by decide)).trans (if_pos halted)))
      exact ⟨_, run, dmaResumeNow_goes (s := s.touch .host) ((State.touch_kept (Kept.refl s)).whole whole) quiet,
        State.dmaResumeNow_only (touchHost_only (Only.refl _ _) rfl) rfl⟩
    · have run : exec .dmaResume s = .next ((s.touch .host).refuseBy .host eState 0 (regAddr pgDma DMA.CMD)) :=
        (if_pos up).trans (congrArg _ ((if_neg (by decide)).trans (if_neg fun on => Bool.noConfusion (runs.symm.trans on))))
      exact refuses_touched whole.regs run (State.refuseBy_only (Only.refl [.regs, .host, .mgr, .trace, .log] _) rfl .dma (by decide))
    · have run : exec .dmaAutoResume s = .next ((s.reach d).stopT .dmaResume).dmaResumeNow := by
        show execDmaAutoResume s = _
        rw [execDmaAutoResume, State.expire_due due]
      have only : Only [.regs, .mem, .eccBad, .axes, .dma, .dmaHalted, .safety, .trace, .log, .timers] ((s.reach d).stopT .dmaResume)
        ((s.reach d).stopT .dmaResume).dmaResumeNow := State.dmaResumeNow_only (Only.refl _ _) rfl
      exact ⟨_, run, ⟨dmaResumeNow_goes (s := (s.reach d).stopT .dmaResume) (expired_whole whole) quiet, (only .time (by decide)).trans rfl⟩,
        State.dmaResumeNow_only (State.stopT_only (State.reach_only (Only.refl _ _) rfl) rfl) rfl⟩

end Sys2Proof.Machine
end


section

/-! PROOF. DMA bursts: what the granted channel moves, how its descriptor ends, and the bus error (R382 to R388). -/

namespace Sys2Proof.Machine

open Sys2Proof.Safety Sys2Proof.Claims

section

variable {s t u : State} {ch k i n j : Nat} {d : List Word} {b : DmaBeats}

/-! A property of the block that outlives what a beat reads and writes outlives a burst. -/

/-- P outlives a word that a beat reads, an element that no record has, and bytes that a beat writes. -/
structure OutlivesBeats (P : State → Prop) : Prop where
  read : ∀ {t ch a}, P t → P (t.dmaReadWord ch a).1
  zero : ∀ {t ch}, P t → P (t.incHalf (dmaPage ch) (dmaLive ch (DMACH.ZERO_BEATS 0)) false)
  write : ∀ {t a bs}, P t → P (t.dmaWriteBytes a bs)

section

variable {P : State → Prop} (outlives : OutlivesBeats P)
include outlives

theorem OutlivesBeats.element (h : P b.s) : P (b.element ch d i).1.s := by
  unfold DmaBeats.element
  dsimp only
  split
  · split
    · exact h
    · exact outlives.zero h
  · split <;> exact outlives.read h

theorem OutlivesBeats.put {a : Nat} {bs : List Byte} (h : P b.s) : P (b.put a bs).1.s := by
  unfold DmaBeats.put
  split
  · exact h
  · exact outlives.write h

theorem OutlivesBeats.move (h : P b.s) : P (b.move ch d i).s := outlives.put (outlives.element h)

theorem OutlivesBeats.pack (h : P b.s) : P (b.pack ch d n j).s := by
  have joined : ∀ (l : List Nat) (x : DmaBeats × List Byte × Nat), P x.1.s →
      P (l.foldl (fun (x : DmaBeats × List Byte × Nat) i =>
        let (b, bs, r) := x.1.element ch d i
        (b, x.2.1 ++ bs, x.2.2 + r.toNat)) x).1.s := by
    intro l
    induction l with
    | nil => exact fun _ h => h
    | cons i l ih => exact fun x h => ih _ (outlives.element h)
  exact outlives.put (joined _ (b, [], 0) h)

omit outlives in
theorem foldl_beats {β : Type} {f : DmaBeats → β → DmaBeats} (step : ∀ b x, P b.s → P (f b x).s) : ∀ (l : List β) {b : DmaBeats}, P b.s → P (l.foldl f b).s
  | [], _, h => h
  | x :: l, _, h => foldl_beats step l (step _ x h)

theorem OutlivesBeats.unpack (h : P b.s) : P (b.unpack ch d n j).s := by
  unfold DmaBeats.unpack
  dsimp only
  refine foldl_beats (fun b x hb => ?_) _ ?_
  · split
    · exact hb
    · exact outlives.put hb
  · split <;> exact outlives.read h

theorem OutlivesBeats.burst (h : P s) : P (s.dmaBeats ch d).1.s := by
  unfold State.dmaBeats
  dsimp only
  split
  · refine foldl_beats (fun b x hb => ?_) _ h
    split
    · exact outlives.unpack hb
    · exact outlives.pack hb
  · exact foldl_beats (fun b x hb => outlives.move hb) _ h

end

theorem outlivesBeats_last : OutlivesBeats fun t => t.dmaLast = k where
  read {t ch a} h := ((State.dmaReadWord_only (a := a) (ch := ch) (Only.refl [.cans] t) rfl) .dmaLast (by decide)).trans h
  zero h := h
  write {t a bs} h := ((State.dmaWriteBytes_only (a := a) (bs := bs) (Only.refl [.regs, .stg, .mem, .eccBad, .power, .time, .stage, .host, .mgr, .axes,
    .drives, .ctxs, .fbs, .mots, .cmps, .latches, .groups, .legs, .lanes, .shares, .rescue, .chop, .dma, .dmaHalted, .cans, .dos, .sins, .safety, .trace,
    .log, .chans, .timers, .sched, .precheck] t) rfl) .dmaLast (by decide)).trans h

/-! The grant. -/

theorem dmaGrant_low (h : s.dmaGrant = some ch) : ch < 64 := by
  have ready (l : List Nat) (sub : ∀ k ∈ l, k < 64) : ((l.find? fun k => decide (s.dmaLast < k)).orElse fun _ => l.head?) = some ch → ch < 64 := by
    intro e
    cases found : l.find? fun k => decide (s.dmaLast < k) with
    | some k =>
      rw [found] at e
      injection e with e
      exact e ▸ sub k (List.mem_of_find?_eq_some found)
    | none =>
      rw [found] at e
      exact sub ch (List.mem_of_head? e)
  refine ready _ (fun k mem => ?_) h
  exact List.mem_range.mp (List.mem_of_mem_filter (List.mem_of_mem_filter mem))

/-! What follows a burst. -/

/-- The burst has been noted of the channel. -/
def DmaBeats.noted (b : DmaBeats) (ch : Nat) : State := b.s.onDm ch fun x => { x with under := x.under || b.zero }

theorem noted_dm (here : ch < b.s.dma.length) : (b.noted ch).dm ch = { b.s.dm ch with under := (b.s.dm ch).under || b.zero } := dm_onDm_same here

theorem noted_length : (b.noted ch).dma.length = b.s.dma.length := List.length_modify ..

theorem dmaBurstEnd_goesOn {passed : Nat} (fine : b.err = none) (more : ¬ n ≤ (s.dm ch).beats + passed) :
    s.dmaBurstEnd ch d b passed n = (b.noted ch).onDm ch fun x => { x with beats := (s.dm ch).beats + passed } := by
  unfold State.dmaBurstEnd
  rw [fine]
  exact if_neg more

theorem dmaBurstEnd_error {passed a info : Nat} {write : Bool} (bad : b.err = some (a, info, write)) :
    s.dmaBurstEnd ch d b passed n = ((b.noted ch).dmaWriteBack ch d ((s.dm ch).beats + b.good) dmaBusErr).dmaHalt ch a info write := by
  unfold State.dmaBurstEnd
  rw [bad]
  rfl

/-- The record of a request line is taken with the last beat. -/
def DmaBeats.taken (b : DmaBeats) (c : Cfg) (ch : Nat) : State :=
  if dmaTrig c ch = 1 then (b.noted ch).onDm ch fun x => { x with record := none } else b.noted ch

theorem dmaBurstEnd_ends {passed : Nat} (fine : b.err = none) (last : n ≤ (s.dm ch).beats + passed) :
    s.dmaBurstEnd ch d b passed n = (b.taken s.force ch).dmaEnd ch n (if ((b.noted ch).dm ch).under then dmaUnder else dmaOk) := by
  unfold State.dmaBurstEnd
  rw [fine]
  exact if_pos last

theorem taken_dm {c : Cfg} (here : ch < b.s.dma.length) : (b.taken c ch).dm ch = { b.s.dm ch with
    under := (b.s.dm ch).under || b.zero, record := if dmaTrig c ch = 1 then none else (b.s.dm ch).record } := by
  unfold DmaBeats.taken
  split
  · rw [dm_onDm_same (noted_length.symm ▸ here), noted_dm here]
  · exact noted_dm here

theorem taken_only {c : Cfg} : Only [.dma] b.s (b.taken c ch) :=
  only_ite (State.onDm_only (State.onDm_only (Only.refl _ _) rfl) rfl) (State.onDm_only (Only.refl _ _) rfl)

theorem taken_whole {c : Cfg} (whole : Whole b.s) : Whole (b.taken c ch) :=
  (kept_ite (State.onDm_kept (State.onDm_kept (Kept.refl _))) (State.onDm_kept (Kept.refl _))).whole whole

theorem dmaReg_of_cfg {o : Nat} (cfg : t.cfg = s.cfg) (staged : ¬ o < 0x100) : dmaReg t.force ch o = dmaReg s.force ch o :=
  force_staged cfg (by omega)

theorem descAddr_of_cfg (cfg : t.cfg = s.cfg) : descAddr t.force ch i = descAddr s.force ch i := by
  rw [descAddr, ringBase, dmaReg_of_cfg cfg (by decide)]
  rfl

/-- A descriptor that ends with STOP, and that no channel is chained to. -/
theorem dmaEnd_stops {elements result : Nat} (loaded : (s.dm ch).desc = some d) (stop : bt (dW d 5) 2 = true)
    (alone : ∀ k < 64, dmaTrig s.force k = 4 → dmaChain s.force k ≠ ch) :
    s.dmaEnd ch elements result = (s.dmaWriteBack ch d elements result).onDm ch fun x => { x with state := .idle } := by
  have chained (t : State) : forN 64 (fun k t => if dmaEn s.force k && dmaTrig s.force k == 4 && dmaChain s.force k == ch then t.dmaTrigger k else t) t = t := by
    refine forL_ind_mem (P := fun u => u = t) _ (fun k mem u same => ?_) rfl
    refine (if_neg fun h => ?_).trans same
    simp only [Bool.and_eq_true, beq_iff_eq] at h
    exact alone k (List.mem_range.mp mem) h.1.2 h.2
  unfold State.dmaEnd
  rw [loaded]
  dsimp only
  rw [if_pos stop, chained, ite_self]

/-- The channel goes on after a burst that is not its last. -/
theorem burst_goesOn {passed : Nat} (here : ch < b.s.dma.length) (fine : b.err = none) (more : ¬ n ≤ (s.dm ch).beats + passed) :
    (s.dmaBurstEnd ch d b passed n).dmaLast = b.s.dmaLast ∧ ((s.dmaBurstEnd ch d b passed n).dm ch).beats = (s.dm ch).beats + passed ∧
      (s.dmaBurstEnd ch d b passed n).mem = b.s.mem := by
  rw [dmaBurstEnd_goesOn fine more]
  exact ⟨rfl, congrArg DmaSt.beats (dm_onDm_same (noted_length.symm ▸ here)), rfl⟩

/-- RESULT of a descriptor whose last beat is done. -/
def DmaBeats.result (b : DmaBeats) (ch : Nat) : Nat := if (b.s.dm ch).under = true ∨ b.zero = true then dmaUnder else dmaOk

/-- The descriptor ends with its last beat, and STOP makes the channel idle. -/
theorem burst_ends {passed : Nat} (whole : Whole b.s) (low : ch < 64) (cfg : b.s.cfg = s.cfg) (fine : b.err = none)
    (last : n ≤ (s.dm ch).beats + passed) (still : (b.s.dm ch).desc = some d) (stop : bt (dW d 5) 2 = true)
    (alone : ∀ k < 64, dmaTrig s.force k = 4 → dmaChain s.force k ≠ ch) :
    (s.dmaBurstEnd ch d b passed n).dmaLast = b.s.dmaLast ∧
      (s.dmaBurstEnd ch d b passed n).dm ch = { ((b.taken s.force ch).dm ch).ended d with state := .idle } ∧
      (s.dmaBurstEnd ch d b passed n).wordAt (descAddr s.force ch (b.s.dm ch).cur + 24) = nw (n * 65536 + b.result ch * 256 + 1) := by
  have here : ch < b.s.dma.length := (present whole).dma.symm ▸ low
  have whole' : Whole (b.taken s.force ch) := taken_whole whole
  have here' : ch < (b.taken s.force ch).dma.length := (present whole').dma.symm ▸ low
  have taken := taken_dm (c := s.force) here
  have cfg' : (b.taken s.force ch).cfg = s.cfg := Eq.trans (taken_only .cfg (by decide)) cfg
  have loaded : ((b.taken s.force ch).dm ch).desc = some d := (congrArg DmaSt.desc taken).trans still
  have cur : ((b.taken s.force ch).dm ch).cur = (b.s.dm ch).cur := by rw [taken]
  have granted : (b.taken s.force ch).dmaLast = b.s.dmaLast := taken_only .dmaLast (by decide)
  have alone' (k : Nat) (low : k < 64) : dmaTrig (b.taken s.force ch).force k = 4 → dmaChain (b.taken s.force ch).force k ≠ ch := by
    have word : dmaCfg (b.taken s.force ch).force k = dmaCfg s.force k := dmaReg_of_cfg cfg' (by decide)
    simp only [dmaTrig, dmaChain, word]
    exact alone k low
  have code : (if ((b.noted ch).dm ch).under then dmaUnder else dmaOk) = b.result ch := by
    rw [noted_dm here]
    simp only [Bool.or_eq_true]
    rfl
  rw [dmaBurstEnd_ends fine last, code, dmaEnd_stops loaded stop alone']
  generalize b.taken s.force ch = t at *
  have result := dmaWriteBack_result (ch := ch) (d := d) (elements := n) (result := b.result ch) whole'.mem
  rw [descAddr_of_cfg cfg', cur] at result
  have frame : Only [.regs, .mem, .eccBad, .dma, .trace] t (t.dmaWriteBack ch d n (b.result ch)) := State.dmaWriteBack_only (Only.refl _ _) rfl
  refine ⟨(frame .dmaLast (by decide)).trans granted, ?_, result⟩
  rw [dm_onDm_same (dmaWriteBack_length.symm ▸ here'), dmaWriteBack_dm here']

/-- A bus error halts the engine, and the descriptor says where. -/
theorem burst_fails {passed a info : Nat} {write : Bool} (whole : Whole b.s) (low : ch < 64) (cfg : b.s.cfg = s.cfg) (bad : b.err = some (a, info, write)) :
    let t := s.dmaBurstEnd ch d b passed n
    t.dmaHalted = true ∧ (t.dm ch).state = .error ∧
      t.wordAt (descAddr s.force ch (b.s.dm ch).cur + 24) = nw (((s.dm ch).beats + b.good) * 65536 + 3 * 256 + 1) ∧
      (b.s.dmaHalted = false → t.lv pgDma DMA.ERR_ADDR = nw (bitAt 31 write + a) ∧ t.lv pgDma DMA.ERR_INFO = nw info ∧ Flagged t pgDma 0) := by
  have here : ch < b.s.dma.length := (present whole).dma.symm ▸ low
  have whole' : Whole (b.noted ch) := (State.onDm_kept (Kept.refl _)).whole whole
  have here' : ch < (b.noted ch).dma.length := noted_length.symm ▸ here
  have cfg' : (b.noted ch).cfg = s.cfg := cfg
  have cur : ((b.noted ch).dm ch).cur = (b.s.dm ch).cur := by rw [noted_dm here]
  have halted : (b.noted ch).dmaHalted = b.s.dmaHalted := rfl
  rw [dmaBurstEnd_error bad]
  generalize b.noted ch = u at *
  have result := dmaWriteBack_result (ch := ch) (d := d) (elements := (s.dm ch).beats + b.good) (result := dmaBusErr) whole'.mem
  rw [descAddr_of_cfg cfg', cur] at result
  have back : Whole (u.dmaWriteBack ch d ((s.dm ch).beats + b.good) dmaBusErr) := (State.dmaWriteBack_kept (Kept.refl _)).whole whole'
  have frame : Only [.regs, .mem, .eccBad, .dma, .trace] u (u.dmaWriteBack ch d ((s.dm ch).beats + b.good) dmaBusErr) :=
    State.dmaWriteBack_only (Only.refl _ _) rfl
  refine ⟨dmaHalt_halts, congrArg DmaSt.state (dmaHalt_dm (dmaWriteBack_length.symm ▸ here')), (wordAt_of_mem dmaHalt_mem).trans result, fun runs => ?_⟩
  exact dmaHalt_records back ((frame .dmaHalted (by decide)).trans (halted.trans runs))

/-! A burst of one element between memories. -/

theorem codeHeld_only {fs : List Part} {a : Nat} (h : Only fs s t) (regs : .regs ∉ fs) (cfg : .cfg ∉ fs) (stg : .stg ∉ fs) (stage : .stage ∉ fs) :
    t.codeHeld a = s.codeHeld a := by
  have stages : t.stage = s.stage := h .stage stage
  have words : t.stg = s.stg := h .stg stg
  have force : t.force = s.force := force_same (h .regs regs) (h .cfg cfg)
  have cand : t.cand = s.cand := by
    funext p o
    simp only [State.cand, State.cd, lv_only h regs, cf_only h cfg, words, stages]
  simp only [State.codeHeld, State.inCode, State.rangesOf, force, cand, stages]

theorem dmaWriteBad_only {fs : List Part} {a : Nat} (h : Only fs s t) (regs : .regs ∉ fs) (cfg : .cfg ∉ fs) (stg : .stg ∉ fs) (stage : .stage ∉ fs) :
    t.dmaWriteBad a = s.dmaWriteBad a := by
  rw [State.dmaWriteBad, codeHeld_only h regs cfg stg stage]
  rfl

theorem dmaBeats_one (plain : dmaService s.force = false) (one : dBurst d = 1) (more : (s.dm ch).beats + 1 < s.dmaTotal ch d) :
    s.dmaBeats ch d = (({ s := s } : DmaBeats).move ch d (s.dm ch).beats, 1) := by
  have m : min (dBurst d) (s.dmaTotal ch d - (s.dm ch).beats) = 1 := by omega
  unfold State.dmaBeats
  dsimp only
  rw [plain, if_neg (by decide), m]
  rfl

/-- An element of four bytes that lies in a memory, as it is read. -/
theorem element_word {a : Nat} (source : stepAddr (dSrc d) (dSrcStep d) i = a) (own : dmaTrig s.force ch ≠ 1) (size : dSize d = 4) (high : 0x100000 ≤ a)
    (aligned : a % 4 = 0) (mapped : isMapped a = true) (shared : isBilvaArea a = false) (clean : s.eccBad.contains a = false) :
    ({ s := s } : DmaBeats).element ch d i = ({ s := s.msgRead a (.dma (Fin.ofNat 64 ch)) }, wordBytes (s.wordAt a), true) := by
  have read : s.dmaReadWord ch a = (s.msgRead a (.dma (Fin.ofNat 64 ch)), s.wordAt a, none) := by
    unfold State.dmaReadWord
    rw [if_neg (by simp [mapped, shared]), if_neg (by rw [clean]; decide), if_neg (by omega)]
  unfold DmaBeats.element
  dsimp only
  rw [if_neg own, source, aligned, Nat.sub_zero, read, size]
  rfl

theorem put_word {a : Nat} {w : Word} (high : 0x100000 ≤ a) (aligned : a % 4 = 0) (good : s.dmaWriteBad a = none) :
    ({ s := s } : DmaBeats).put a (wordBytes w) = ({ s := s.putWord a w }, true) := by
  have written : s.dmaWriteBytes a (wordBytes w) = s.putWord a w := by
    unfold State.dmaWriteBytes
    rw [if_neg (by omega), if_pos (by rfl), bytesWord_wordBytes]
  unfold DmaBeats.put
  rw [aligned, Nat.sub_zero, good]
  dsimp only
  rw [written]

/-- The whole burst: the word is read, and written. -/
theorem dmaBeats_word {a c : Nat} (source : stepAddr (dSrc d) (dSrcStep d) (s.dm ch).beats = a) (target : stepAddr (dDst d) (dDstStep d) (s.dm ch).beats = c)
    (plain : dmaService s.force = false) (own : dmaTrig s.force ch ≠ 1) (size : dSize d = 4) (one : dBurst d = 1)
    (more : (s.dm ch).beats + 1 < s.dmaTotal ch d) (high : 0x100000 ≤ a) (aligned : a % 4 = 0) (mapped : isMapped a = true)
    (shared : isBilvaArea a = false) (clean : s.eccBad.contains a = false) (high' : 0x100000 ≤ c) (aligned' : c % 4 = 0) (good : s.dmaWriteBad c = none) :
    s.dmaBeats ch d = ({ s := (s.msgRead a (.dma (Fin.ofNat 64 ch))).putWord c (s.wordAt a), good := 1 }, 1) := by
  have cans : Only [.cans] s (s.msgRead a (.dma (Fin.ofNat 64 ch))) := State.msgRead_only (Only.refl _ _) rfl
  have good' : (s.msgRead a (.dma (Fin.ofNat 64 ch))).dmaWriteBad c = none :=
    (dmaWriteBad_only cans (by decide) (by decide) (by decide) (by decide)).trans good
  rw [dmaBeats_one plain one more]
  unfold DmaBeats.move
  rw [element_word source own size high aligned mapped shared clean, target]
  dsimp only
  rw [put_word high' aligned' good']
  rfl

end

/-- Settles O54. -/
theorem dmaBursts : Obligations.DmaBursts := by
  unfold Obligations.DmaBursts
  intro s ch d whole up
  refine ⟨fun idle => ?idle, fun runs grant loaded => ?burst⟩
  case idle =>
    show execDmaBurst s = _
    unfold execDmaBurst
    rcases idle with halted | none_
    · rw [if_pos (by simp [halted])]
    · rw [none_, ite_self]
  case burst =>
    extract_lets +onlyGivenNames c r u n from_ last result written
    have low : ch < 64 := dmaGrant_low grant
    have run : exec .dmaBurst s = .next (({ s with dmaLast := ch } : State).dmaBurstEnd ch d r.1 r.2 n) := by
      show execDmaBurst s = _
      unfold execDmaBurst
      rw [if_neg (by simp [up, runs]), grant]
      dsimp only
      rw [loaded]
      rfl
    have only : Only burstParts s (({ s with dmaLast := ch } : State).dmaBurstEnd ch d r.1 r.2 n) :=
      onlyN_get (execDmaBurst_only (fs := burstParts) rfl (Only.refl _ _)) run
    have turned : Whole ({ s with dmaLast := ch } : State) := ⟨whole.mem, whole.regs, whole.cfg, whole.stg, whole.chans, whole.units⟩
    have whole_ : Whole u := (State.dmaBeats_kept (Kept.refl _)).whole turned
    have granted : u.dmaLast = ch := outlivesBeats_last.burst rfl
    have cfg : u.cfg = s.cfg := (State.dmaBeats_only (fs := burstParts) rfl (Only.refl _ _) : Only burstParts ({ s with dmaLast := ch } : State) u) .cfg (by decide)
    have here : ch < r.1.s.dma.length := (present whole_).dma.symm ▸ low
    refine ⟨fun fine more => ?_, fun fine ends still stop alone => ?_, fun a info write bad => ?_, ?_⟩
    · obtain ⟨last, beats, _⟩ := burst_goesOn (s := { s with dmaLast := ch }) (d := d) here fine more
      exact ⟨_, run, ⟨last.trans granted, beats⟩, only⟩
    · obtain ⟨last, ended, word⟩ := burst_ends (s := { s with dmaLast := ch }) whole_ low cfg fine ends still stop alone
      refine ⟨_, run, ⟨last.trans granted, congrArg DmaSt.state ended, congrArg DmaSt.desc ended, congrArg DmaSt.granted ended, congrArg DmaSt.next ended,
        fun line => ?_, word⟩, only⟩
      exact (congrArg DmaSt.record ended).trans ((congrArg DmaSt.record (taken_dm (c := s.force) here)).trans (if_pos line))
    · obtain ⟨halted, error, word, records⟩ := burst_fails (s := { s with dmaLast := ch }) (d := d) (passed := r.2) (n := n) whole_ low cfg bad
      exact ⟨_, run, ⟨halted, error, word, records⟩, only⟩
    · intro a b plain own size one more high aligned mapped shared clean high' aligned' good
      have word : r = _ := dmaBeats_word (s := { s with dmaLast := ch }) (ch := ch) (d := d) rfl rfl plain own size one more high aligned mapped shared clean
        high' aligned' good
      obtain ⟨_, _, mem⟩ := burst_goesOn (s := { s with dmaLast := ch }) (d := d) (n := n) (passed := r.2) here (by rw [word])
        (by rw [word]; exact Nat.not_le.mpr more)
      have source : (({ s with dmaLast := ch } : State).msgRead a (.dma (Fin.ofNat 64 ch))).mem = s.mem :=
        State.msgRead_only (Only.refl [.cans] _) rfl .mem (by decide)
      have written : r.1.s.mem = ((({ s with dmaLast := ch } : State).msgRead a (.dma (Fin.ofNat 64 ch))).putWord b (s.wordAt a)).mem := by
        rw [word]
        rfl
      have ok : MemoryOk (({ s with dmaLast := ch } : State).msgRead a (.dma (Fin.ofNat 64 ch))) := by
        unfold MemoryOk
        rw [source]
        exact whole.mem
      refine ⟨_, run, ⟨?_, fun x beside => ?_⟩, only⟩
      · rw [wordAt_of_mem (mem.trans written)]
        exact wordAt_putWord_same ok
      · rw [byteAt_of_mem (mem.trans written), State.byteAt_putWord_ne ok beside]
        exact byteAt_of_mem source

end Sys2Proof.Machine
end


section

/-! PROOF. The tracing unit: what triggers change, what probes read, how a sample is stored and a segment closed (R394, R397, R398, R401 to R405). -/

namespace Sys2Proof.Machine

open Sys2Proof.Safety Sys2Proof.Claims

section

variable {s t : State} {p q o bits line i m tick u sel : Nat} {w v : Word} {ws : List Word} {P : State → Prop} {b : Bool}

/-! What no trigger changes: the segment, its next slot, and the tick of the last sample. -/

/-- Where the unit stores, and when it sampled last. -/
def TraceSt.place (x : TraceSt) : Nat × Nat × Nat := (x.seg, x.slot, x.lastSample)

theorem place_only {fs : List Part} (h : Only fs s t) (out : .trace ∉ fs) : t.trace.place = s.trace.place := congrArg TraceSt.place (h .trace out)

theorem eventRaw_place : (s.eventRaw p bits).trace.place = s.trace.place :=
  place_only (State.eventRaw_only (Only.refl [.regs] s) rfl) (by decide)

theorem traceTrigger_place : (s.traceTrigger u tick).trace.place = s.trace.place := by
  unfold State.traceTrigger
  split
  · split
    · rw [eventRaw_place]
      rfl
    · exact place_only (State.inc16_only (Only.refl [.regs] s) rfl) (by decide)
  · split
    · split <;> rfl
    · rfl

theorem traceFire_place : (s.traceFire u tick).trace.place = s.trace.place := by
  unfold State.traceFire
  dsimp only
  split
  · exact traceTrigger_place
  · split
    · rfl
    · split
      · split
        · exact traceTrigger_place
        · rfl
      · rfl

theorem traceKind_place {kind : Nat} {hit : Nat → Word → Bool} : (s.traceKind kind tick hit).trace.place = s.trace.place := by
  unfold State.traceKind
  split
  · refine forN_ind (P := fun t => t.trace.place = s.trace.place) (fun u t k => ?_) rfl
    dsimp only
    split
    · exact traceFire_place.trans k
    · exact k
  · rfl

theorem event_place : (s.event p bits).trace.place = s.trace.place :=
  traceKind_place.trans eventRaw_place

theorem logAdd_place {kind cls code : Nat} : (s.logAdd kind cls m code v).trace.place = s.trace.place := by
  unfold State.logAdd
  extract_lets e
  split
  · rfl
  · split
    · rfl
    · exact event_place.trans (place_only (State.inc16_only (State.onLog_only (Only.refl [.regs, .log] s) rfl) rfl) (by decide))

theorem raisePulse_place {src a : Nat} : (s.raisePulse src a).trace.place = s.trace.place := by
  show (s.raise src a).trace.place = _
  unfold State.raise
  split
  · rfl
  · refine forL_ind (P := fun t => t.trace.place = s.trace.place) (fun b t k => ?_) _ (event_place.trans logAdd_place)
    split
    · exact k
    · exact k

theorem traceTimes_place : (s.traceTimes tick).trace.place = s.trace.place := by
  unfold State.traceTimes
  extract_lets fires
  split
  · exact forL_ind (P := fun t => t.trace.place = s.trace.place) (fun _ _ k => traceFire_place.trans k) _ rfl
  · rfl

theorem traceProbes_place : (s.traceProbes tick).trace.place = s.trace.place := by
  unfold State.traceProbes
  exact traceKind_place

/-! What probes read does not change with triggers. -/

theorem axSpeed_only {fs : List Part} {a : Nat} (h : Only fs s t) (axes : .axes ∉ fs) (cfg : .cfg ∉ fs) (fbs : .fbs ∉ fs) (mots : .mots ∉ fs)
    (drives : .drives ∉ fs) : t.axSpeed a = s.axSpeed a := by
  have axCfg_ : axCfg t.force a = axCfg s.force a := force_staged (h .cfg cfg) (by decide)
  have angle : axAngle t.force a = axAngle s.force a := by
    rw [axAngle, axCfg_]
    rfl
  have speed (n : Nat) : t.fbSpeedOf a n = s.fbSpeedOf a n := by
    rw [State.fbSpeedOf, fb_only h fbs, cf_only h cfg, cf_only h cfg]
    rfl
  rw [State.axSpeed, angle, axFb_of_cfg (h .cfg cfg)]
  simp only [ax_only h axes, mt_only h mots, dr_only h drives, speed]
  rfl

theorem traceValue_triggered (h : Only [.regs, .trace] s t) (lv : ∀ k i, i < 16 → t.lv (pgLoop k) (LOOP.SP_LIVE i) = s.lv (pgLoop k) (LOOP.SP_LIVE i)) :
    t.traceValue sel = s.traceValue sel := by
  have quantity {a q : Nat} : t.axQuantity a q = s.axQuantity a q := by
    unfold State.axQuantity
    rw [axPos_only h (by decide) (by decide) (by decide) (by decide), axSpeed_only h (by decide) (by decide) (by decide) (by decide) (by decide),
      dr_only h (by decide), mt_only h (by decide)]
  have ctxs : t.ctxs = s.ctxs := h .ctxs (by decide)
  have samples : t.samples = s.samples := h .samples (by decide)
  have signal : t.signal sel = s.signal sel := by
    unfold State.signal State.cx
    dsimp only
    rw [lv _ _ (Nat.mod_lt _ (by decide)), quantity, wordAt_of_mem (h .mem (by decide)), ctxs, samples]
  have lines {i : Nat} : t.traceLines i = s.traceLines i := by
    unfold State.traceLines
    have fo {n : Nat} : t.fo n = s.fo n := by
      rw [State.fo, h .dos (by decide)]
      rfl
    simp only [fo, di_only h (by decide), lg_only h (by decide), fb_only h (by decide)]
  rw [State.traceValue, lines, signal, samples]
  rfl

theorem traceWordsOf_triggered (h : Only [.regs, .trace] s t) (lv : ∀ k i, i < 16 → t.lv (pgLoop k) (LOOP.SP_LIVE i) = s.lv (pgLoop k) (LOOP.SP_LIVE i)) :
    t.traceWordsOf sel = s.traceWordsOf sel := by
  rw [State.traceWordsOf, traceValue_triggered h lv]
  rfl

theorem aside_setPoint {k : Nat} (low : i < 16) : Aside (pgLoop k) (LOOP.SP_LIVE i) := by
  have page : 0x40 ≤ pgLoop k := Nat.le_add_right _ _
  have low' : LOOP.SP_LIVE i < 4096 := by
    simp only [LOOP.SP_LIVE]
    omega
  refine ⟨?_, fun e => ?_, fun e => ?_⟩
  · rw [regAddr_mod low']
    simp only [LOOP.SP_LIVE, pageEvent]
    omega
  · have same : pgLoop k = pgTrace := ((regAddr_inj (r := TRACE.TRIG_IGNORED) low' (by decide)).mp e.symm).1.symm
    exact absurd same (Nat.ne_of_gt (Nat.lt_of_lt_of_le (by decide) page))
  · have same : pgLoop k = pgNvlog := ((regAddr_inj (r := NVLOG.LOST) low' (by decide)).mp e.symm).1.symm
    exact absurd same (Nat.ne_of_gt (Nat.lt_of_lt_of_le (by decide) page))

/-! A sample. -/

/-- The triggers before a sample: those of TIME units, and those of PROBE units on it. -/
def State.traceFired (s : State) (tick : Nat) : State := (s.traceTimes tick).traceProbes tick

theorem traceFired_only : Only [.regs, .trace] s (s.traceFired tick) :=
  State.traceProbes_only (State.traceTimes_only (Only.refl _ _) rfl) rfl

theorem traceFired_place : (s.traceFired tick).trace.place = s.trace.place := traceProbes_place.trans traceTimes_place

theorem OutlivesEvents.traceFired (out : OutlivesEvents P) (h : P s) : P (s.traceFired tick) := by
  unfold State.traceFired State.traceProbes
  refine out.traceKind ?_
  unfold State.traceTimes
  extract_lets fires
  split
  · exact forL_ind (fun _ _ k => out.traceFire k) _ h
  · exact h

theorem traceFired_words (ok : MapOk s.regs) : (s.traceFired tick).traceWordsOf sel = s.traceWordsOf sel :=
  traceWordsOf_triggered traceFired_only fun _ _ low => ((reads_outlivesEvents (aside_setPoint low)).traceFired ⟨ok, rfl⟩).2

theorem segAddr_of_cfg (cfg : t.cfg = s.cfg) : segAddr t.force i = segAddr s.force i := by
  rw [segAddr, segWords, force_staged cfg (by decide)]
  rfl

theorem traceWords_of_cfg (cfg : t.cfg = s.cfg) : traceWords t.force = traceWords s.force := by
  refine congrArg List.sum (List.map_congr_left fun p _ => ?_)
  dsimp only
  rw [force_staged cfg (by simp only [TRACE.PROBE_CFG]; omega), force_staged cfg (by decide)]

/-! Records for DMA, and the closing of a segment. -/

/-- P outlives the count of records that no channel could take. -/
theorem traceRecord_rises (rise : Rising P) (drop : ∀ t, P t → P (t.inc16 pgTrace TRACE.STREAM_DROP)) (h : P s) : P (s.traceRecord line ws) := by
  unfold State.traceRecord
  refine forN_ind (fun ch t k => ?_) h
  dsimp only
  split
  · split
    · exact rise.event (drop _ k)
    · exact rise.same k rfl
  · exact k

theorem traceRecord_place : (s.traceRecord line ws).trace.place = s.trace.place := by
  unfold State.traceRecord
  refine forN_ind (P := fun t => t.trace.place = s.trace.place) (fun ch t k => ?_) rfl
  dsimp only
  split
  · split
    · exact event_place.trans ((place_only (State.inc16_only (Only.refl [.regs] t) rfl) (by decide)).trans k)
    · exact k
  · exact k

/-- The header of a segment is written, and shown. -/
def State.headerShown (s : State) (b : Bool) : State :=
  (s.putWords (segAddr s.force s.trace.seg) (s.traceHeader b)).onLv pgTrace TRACE.SEG_VALID fun w => w ||| nw (2 ^ s.trace.seg)

/-- A segment more is closed. -/
def State.segmentCounted (s : State) : State := s.onTrace fun t => { t with segSeq := t.segSeq + 1, closed := t.closed + 1, pendTrig := none }

theorem segmentCounted_only : Only [.trace] s s.segmentCounted := State.onTrace_only (Only.refl _ _) rfl

/-- The segment is delivered. -/
def State.segmentTold (s : State) (b : Bool) : State :=
  (((s.headerShown b).event pgTrace 2).traceRecord 0x10 (s.traceHeader b)).segmentCounted

theorem traceClose_stopped : s.traceClose true = (s.segmentTold true).onTrace fun t => { t with state := .idle } := rfl

theorem headerShown_only : Only [.regs, .mem, .eccBad] s (s.headerShown b) := State.onLv_only (State.putWords_only (Only.refl _ _) rfl) rfl

theorem segmentTold_parts : Only [.regs, .dma, .trace] (s.headerShown b) (s.segmentTold b) :=
  State.onTrace_only (State.traceRecord_only (State.event_only (Only.refl _ _) rfl) rfl) rfl

theorem segmentTold_rises (rise : Rising P) (drop : ∀ t, P t → P (t.inc16 pgTrace TRACE.STREAM_DROP)) (h : P ((s.headerShown b).event pgTrace 2)) :
    P (s.segmentTold b) :=
  rise.only segmentCounted_only (by decide) (traceRecord_rises rise drop h)

theorem segmentTold_lastSample : (s.segmentTold b).trace.lastSample = s.trace.lastSample := by
  have place : (((s.headerShown b).event pgTrace 2).traceRecord 0x10 (s.traceHeader b)).trace.place = s.trace.place :=
    traceRecord_place.trans (event_place.trans (place_only headerShown_only (by decide)))
  exact congrArg (fun x => x.2.2) place

end

end Sys2Proof.Machine
end


section

/-! PROOF. Commands of the tracing unit, and its samples (R395, R397 to R399, R401). -/

namespace Sys2Proof.Machine

open Sys2Proof.Safety Sys2Proof.Claims

section

variable {s t : State} {p i m n tick : Nat} {w v : Word} {ws : List Word} {P : State → Prop} {b : Bool}

/-! A stored sample. -/

/-- P outlives what a stored sample raises, and the registers that it and the closing of a segment write. -/
structure OutlivesSamples (P : State → Prop) : Prop where
  rise : Rising P
  drop : ∀ t, P t → P (t.inc16 pgTrace TRACE.STREAM_DROP)
  valid : ∀ t v, P t → P (t.setLv pgTrace TRACE.SEG_VALID v)

theorem traceMask_rises (rise : Rising P) (h : P s) : P (s.traceMask m i ws) := by
  unfold State.traceMask
  extract_lets c slot lo hi a failed first
  have failed_ : P failed := rise.same h rfl
  have first_ : P first := rise.same failed_ rfl
  split
  · exact h
  · split
    · exact h
    · split
      · exact failed_
      · exact rise.raisePulse (rise.fault (rise.event first_))

theorem traceMask_place : (s.traceMask m i ws).trace.place = s.trace.place := by
  unfold State.traceMask
  extract_lets c slot lo hi a failed first
  have first_ : first.trace.place = s.trace.place := rfl
  split
  · rfl
  · split
    · rfl
    · split
      · rfl
      · refine raisePulse_place.trans ((place_only (State.pfault_only (Only.refl [.regs] _) rfl) (by decide)).trans (event_place.trans first_))

theorem headerShown_rises (out : OutlivesSamples P) (h : P s) : P (s.headerShown b) :=
  out.valid _ _ (out.rise.only (State.putWords_only (Only.refl [.mem, .eccBad] s) rfl) (by decide) h)

theorem segmentTold_outlives (out : OutlivesSamples P) (h : P s) : P (s.segmentTold b) :=
  segmentTold_rises out.rise out.drop (out.rise.event (headerShown_rises out h))

/-- The capture goes to the next segment, or ends, after segment x.seg. -/
def State.segmentNext (s : State) (c : Cfg) (x : TraceSt) : State :=
  if bt (c pgTrace TRACE.CFG) 13 && x.maskIdx.isSome then (s.onTrace fun t => { t with state := .done }).event pgTrace 4
  else if x.seg + 1 < segCount c then s.onTrace fun t => t.segStart (x.seg + 1)
  else if bt (c pgTrace TRACE.CFG) 12 then s.onTrace fun t => t.segStart 0
  else (s.onTrace fun t => { t with state := .done }).event pgTrace 4

theorem traceClose_goesOn : s.traceClose false = (s.segmentTold false).segmentNext s.force s.trace := rfl

theorem segmentNext_only {c : Cfg} {x : TraceSt} : Only [.regs, .trace] s (s.segmentNext c x) := by
  have trace {f : TraceSt → TraceSt} : Only [.regs, .trace] s (s.onTrace f) := State.onTrace_only (Only.refl _ _) rfl
  exact only_ite (State.event_only trace rfl) (only_ite trace (only_ite trace (State.event_only trace rfl)))

theorem segmentNext_rises {c : Cfg} {x : TraceSt} (rise : Rising P) (h : P s) : P (s.segmentNext c x) := by
  have trace {f : TraceSt → TraceSt} : P (s.onTrace f) := rise.same h rfl
  unfold State.segmentNext
  split
  · exact rise.event trace
  · split
    · exact trace
    · split
      · exact trace
      · exact rise.event trace

theorem segmentNext_lastSample {c : Cfg} {x : TraceSt} : (s.segmentNext c x).trace.lastSample = s.trace.lastSample := by
  have done : ((s.onTrace fun t => { t with state := .done }).event pgTrace 4).trace.lastSample = s.trace.lastSample := congrArg (fun x => x.2.2) event_place
  unfold State.segmentNext
  split
  · exact done
  · split
    · rfl
    · split
      · rfl
      · exact done

theorem traceClose_outlives (out : OutlivesSamples P) (h : P s) : P (s.traceClose false) := by
  rw [traceClose_goesOn]
  exact segmentNext_rises out.rise (segmentTold_outlives out h)

theorem traceClose_lastSample : (s.traceClose false).trace.lastSample = s.trace.lastSample := by
  rw [traceClose_goesOn]
  exact segmentNext_lastSample.trans segmentTold_lastSample

/-- Memory after a segment has closed holds its header, and is as before elsewhere. -/
theorem traceClose_mem : (s.traceClose false).mem = (s.putWords (segAddr s.force s.trace.seg) (s.traceHeader false)).mem := by
  rw [traceClose_goesOn]
  exact Eq.trans (segmentNext_only .mem (by decide)) (segmentTold_parts .mem (by decide))

/-- The words of a sample in its slot, and the sample counted. -/
def State.sampleShown (s : State) (ws : List Word) : State :=
  (s.putWords (segAddr s.force s.trace.seg + 4 * (16 + s.trace.slot * traceWords s.force)) ws).inc32 pgTrace TRACE.SAMPLE_COUNT

/-- The sample is delivered where it is streamed. -/
def State.sampleTold (s : State) (ws : List Word) : State :=
  if bt (s.force pgTrace TRACE.CFG) 10 then (s.sampleShown ws).traceRecord 0x11 ws else s.sampleShown ws

/-- A stored sample more. -/
def State.sampleCounted (s : State) (cap : Nat) : State :=
  s.onTrace fun t => { t with stored := t.stored + 1, slot := if cap = 0 then 0 else (t.slot + 1) % cap, under := 0, acc := [] }

/-- The mask units on a sample that stands i after the trigger sample, and its number. -/
def State.samplesMasked (s : State) (i : Nat) (ws : List Word) : State :=
  (forN 4 (fun m s => s.traceMask m i ws) s).onTrace fun t => { t with after := i }

theorem traceStore_eq : s.traceStore ws = match s.trace.trigSample with
    | none => (s.sampleTold ws).sampleCounted (segCap s.force)
    | some k =>
      if tracePost s.force ≤ s.trace.stored - k then
        (((s.sampleTold ws).sampleCounted (segCap s.force)).samplesMasked (s.trace.stored - k) ws).traceClose false
      else ((s.sampleTold ws).sampleCounted (segCap s.force)).samplesMasked (s.trace.stored - k) ws := rfl

theorem sampleShown_counts (h : Reads pgTrace TRACE.SAMPLE_COUNT w s) : Reads pgTrace TRACE.SAMPLE_COUNT (w + 1) (s.sampleShown ws) := by
  unfold State.sampleShown
  have put : Reads pgTrace TRACE.SAMPLE_COUNT w (s.putWords (segAddr s.force s.trace.seg + 4 * (16 + s.trace.slot * traceWords s.force)) ws) :=
    h.of_regs (State.putWords_only (Only.refl [.mem, .eccBad] s) rfl .regs (by decide))
  generalize s.putWords _ ws = u at *
  refine ⟨MapOk.set put.1, ?_⟩
  unfold State.inc32 State.onLv
  rw [State.lv_setLv_same put.1, put.2]

theorem sampleTold_parts : Only [.regs, .dma, .trace] (s.sampleShown ws) (s.sampleTold ws) :=
  only_ite (State.traceRecord_only (Only.refl _ _) rfl) (Only.refl _ _)

theorem sampleCounted_only {cap : Nat} : Only [.trace] s (s.sampleCounted cap) := State.onTrace_only (Only.refl _ _) rfl

theorem samplesMasked_only : Only [.regs, .axes, .safety, .trace, .log] s (s.samplesMasked i ws) :=
  State.onTrace_only (forN_only (fun _ _ h => State.traceMask_only h rfl) (Only.refl _ _)) rfl

theorem samplesMasked_place : (s.samplesMasked i ws).trace.place = s.trace.place :=
  forN_ind (P := fun t => t.trace.place = s.trace.place) (fun _ _ k => traceMask_place.trans k) rfl

theorem samplesMasked_stays : (s.samplesMasked i ws).trace.seg = s.trace.seg ∧ (s.samplesMasked i ws).trace.lastSample = s.trace.lastSample :=
  ⟨congrArg Prod.fst samplesMasked_place, congrArg (fun x => x.2.2) samplesMasked_place⟩

/-- The state that a sample leaves before a segment closes on it. -/
def State.sampled (s : State) (ws : List Word) : State :=
  match s.trace.trigSample with
  | none => (s.sampleTold ws).sampleCounted (segCap s.force)
  | some k => ((s.sampleTold ws).sampleCounted (segCap s.force)).samplesMasked (s.trace.stored - k) ws

theorem sampled_outlives (out : OutlivesSamples P) (h : P (s.sampleShown ws)) : P (s.sampled ws) := by
  have told : P (s.sampleTold ws) := by
    unfold State.sampleTold
    split
    · exact traceRecord_rises out.rise out.drop h
    · exact h
  have counted : P ((s.sampleTold ws).sampleCounted (segCap s.force)) := out.rise.only sampleCounted_only (by decide) told
  unfold State.sampled
  split
  · exact counted
  · exact out.rise.only (State.onTrace_only (Only.refl [.trace] _) rfl) (by decide) (forN_ind (fun _ _ k => traceMask_rises out.rise k) counted)

theorem sampled_mem : (s.sampled ws).mem =
    (s.putWords (segAddr s.force s.trace.seg + 4 * (16 + s.trace.slot * traceWords s.force)) ws).mem := by
  have counted : ((s.sampleTold ws).sampleCounted (segCap s.force)).mem = (s.sampleShown ws).mem :=
    Eq.trans (sampleCounted_only .mem (by decide)) (sampleTold_parts .mem (by decide))
  unfold State.sampled
  split
  · exact counted
  · exact Eq.trans (samplesMasked_only .mem (by decide)) counted

/-- Segment and last sample are as they were. -/
theorem sampled_stays : (s.sampled ws).trace.seg = s.trace.seg ∧ (s.sampled ws).trace.lastSample = s.trace.lastSample := by
  have told : (s.sampleTold ws).trace.place = s.trace.place := by
    have shown : (s.sampleShown ws).trace.place = s.trace.place :=
      place_only (State.inc32_only (State.putWords_only (Only.refl [.regs, .mem, .eccBad] s) rfl) rfl) (by decide)
    unfold State.sampleTold
    split
    · exact traceRecord_place.trans shown
    · exact shown
  have counted : ((s.sampleTold ws).sampleCounted (segCap s.force)).trace.seg = s.trace.seg ∧
      ((s.sampleTold ws).sampleCounted (segCap s.force)).trace.lastSample = s.trace.lastSample :=
    ⟨congrArg Prod.fst told, congrArg (fun x => x.2.2) told⟩
  unfold State.sampled
  split
  · exact counted
  · obtain ⟨seg, last⟩ := samplesMasked_stays
    exact ⟨seg.trans counted.1, last.trans counted.2⟩

theorem traceStore_sampled : s.traceStore ws = s.sampled ws ∨ s.traceStore ws = (s.sampled ws).traceClose false := by
  rw [traceStore_eq]
  unfold State.sampled
  split
  · exact .inl rfl
  · split
    · exact .inr rfl
    · exact .inl rfl

theorem traceStore_outlives (out : OutlivesSamples P) (h : P (s.sampleShown ws)) : P (s.traceStore ws) := by
  rcases traceStore_sampled (s := s) (ws := ws) with e | e
  · rw [e]
    exact sampled_outlives out h
  · rw [e]
    exact traceClose_outlives out (sampled_outlives out h)

theorem traceStore_lastSample : (s.traceStore ws).trace.lastSample = s.trace.lastSample := by
  rcases traceStore_sampled (s := s) (ws := ws) with e | e
  · rw [e]
    exact sampled_stays.2
  · rw [e]
    exact traceClose_lastSample.trans sampled_stays.2

theorem sampled_cfg : (s.sampled ws).cfg = s.cfg := by
  have shown : Only [.regs, .mem, .eccBad] s (s.sampleShown ws) := State.inc32_only (State.putWords_only (Only.refl _ _) rfl) rfl
  have counted : ((s.sampleTold ws).sampleCounted (segCap s.force)).cfg = s.cfg :=
    Eq.trans (sampleCounted_only .cfg (by decide)) (Eq.trans (sampleTold_parts .cfg (by decide)) (shown .cfg (by decide)))
  unfold State.sampled
  split
  · exact counted
  · exact Eq.trans (samplesMasked_only .cfg (by decide)) counted

theorem length_traceHeader : (s.traceHeader b).length = 16 := rfl

/-- A sample stands in its slot, whether or not its segment closes. -/
theorem traceStore_words (ok : MemoryOk s) :
    (s.traceStore ws).wordsAt (segAddr s.force s.trace.seg + 4 * (16 + s.trace.slot * traceWords s.force)) ws.length = ws := by
  have stored : (s.sampled ws).wordsAt (segAddr s.force s.trace.seg + 4 * (16 + s.trace.slot * traceWords s.force)) ws.length = ws := by
    rw [wordsAt_of_mem sampled_mem]
    exact wordsAt_putWords ok rfl
  have ok' : MemoryOk (s.sampled ws) := by
    unfold MemoryOk
    rw [sampled_mem]
    exact putWords_memoryOk ok
  rcases traceStore_sampled (s := s) (ws := ws) with e | e
  · rw [e]
    exact stored
  · rw [e, wordsAt_of_mem traceClose_mem, segAddr_of_cfg sampled_cfg, sampled_stays.1]
    refine Eq.trans (List.map_congr_left fun i _ => ?_) stored
    exact wordAt_putWords_ne ok' (.inr (by rw [length_traceHeader]; omega))

/-! One underlying sample. -/

/-- Without reduction the words of the probes are stored; with it a reduced sample may be. -/
theorem traceTake_stores : ∃ u, u.trace.seg = s.trace.seg ∧ u.trace.slot = s.trace.slot ∧ u.trace.lastSample = tick ∧ Only [.trace] (s.traceFired tick) u ∧
    (traceStipple s.force = false → s.traceTake tick = u.traceStore ((probes s.force).map fun p => u.traceWordsOf (probeSel s.force p)).flatten) ∧
    (traceStipple s.force = true → (s.traceTake tick).trace.lastSample = tick) := by
  have place : (s.traceFired tick).trace.place = s.trace.place := traceFired_place
  unfold State.traceTake
  extract_lets c fired x first accTick isTrig cap newBad vals noted acc
  refine ⟨noted, congrArg Prod.fst place, congrArg (fun x => x.2.1) place, rfl, State.onTrace_only (Only.refl _ _) rfl, fun plain => ?_, fun reduced => ?_⟩
  · exact if_neg (by rw [plain]; decide)
  · rw [if_pos reduced]
    split
    · rfl
    · exact traceStore_lastSample

/-! Commands. -/

/-- VALID is cleared in every header. -/
def State.validCleared (s : State) (c : Cfg) : State :=
  forN (segCount c) (fun i s => s.putWord (segAddr c i) (putBt (s.wordAt (segAddr c i)) 31 false)) s

theorem validCleared_only {c : Cfg} : Only [.mem, .eccBad] s (s.validCleared c) := forN_only (fun _ _ h => State.putWord_only h rfl) (Only.refl _ _)

theorem validCleared_clear {c : Cfg} (ok : MemoryOk s) (low : i < segCount c) : bt ((s.validCleared c).wordAt (segAddr c i)) 31 = false := by
  have reached := forL_reaches (f := fun i s => s.putWord (segAddr c i) (putBt (s.wordAt (segAddr c i)) 31 false)) (I := MemoryOk)
    (P := fun t => MemoryOk t ∧ bt (t.wordAt (segAddr c i)) 31 = false) (List.mem_range.mpr low)
    (fun j t k => putWord_memoryOk k)
    (fun t k => by
      refine ⟨putWord_memoryOk k, ?_⟩
      rw [wordAt_putWord_same k, bt_putBt (by decide) (by decide), if_pos rfl])
    (fun j t clear => by
      refine ⟨putWord_memoryOk clear.1, ?_⟩
      by_cases same : segAddr c j = segAddr c i
      · rw [same, wordAt_putWord_same clear.1, bt_putBt (by decide) (by decide), if_pos rfl]
      · have apart : segAddr c i + 4 ≤ segAddr c j ∨ segAddr c j + 4 ≤ segAddr c i := by
          simp only [segAddr] at *
          omega
        rw [wordAt_putWord_ne clear.1 apart]
        exact clear.2)
    ok
  exact reached.2

/-- The segments are empty, and the counts begin. -/
def State.traceEmptied (s : State) : State := ((s.validCleared s.force).setLv pgTrace TRACE.SEG_VALID 0).setLv pgTrace TRACE.SAMPLE_COUNT 0

theorem traceArm_eq : s.traceArm = s.traceEmptied.onTrace fun t => { t.segStart 0 with
    segSeq := 0, closed := 0, maskSeen := false, seqOpen := none, last := [], armGen := s.traceEmptied.lv pgSys SYS.STRIKE_GEN,
    lastSample := s.traceEmptied.now } := rfl

theorem traceEmptied_now : s.traceEmptied.now = s.now :=
  now_only (State.setLv_only (State.setLv_only (Only.upd (Only.refl _ _) rfl validCleared_only) rfl) rfl : Only [.regs, .mem, .eccBad] s s.traceEmptied) (by decide)

theorem traceArm_registers (ok : MapOk s.regs) : s.traceArm.lv pgTrace TRACE.SEG_VALID = 0 ∧ s.traceArm.lv pgTrace TRACE.SAMPLE_COUNT = 0 := by
  have ok' : MapOk (s.validCleared s.force).regs := (validCleared_only (s := s) .regs (by decide)).symm ▸ ok
  have valid : Reads pgTrace TRACE.SEG_VALID 0 s.traceEmptied := (reads_setLv ok').setLv_ne (by decide)
  have ok'' : MapOk ((s.validCleared s.force).setLv pgTrace TRACE.SEG_VALID 0).regs := (reads_setLv (p := pgTrace) (o := TRACE.SEG_VALID) (v := 0) ok').1
  have count : Reads pgTrace TRACE.SAMPLE_COUNT 0 s.traceEmptied := reads_setLv ok''
  rw [traceArm_eq]
  exact ⟨(valid.of_regs rfl).2, (count.of_regs rfl).2⟩

theorem traceArm_clears (ok : MemoryOk s) (low : i < segCount s.force) : bt (s.traceArm.wordAt (segAddr s.force i)) 31 = false := by
  rw [traceArm_eq]
  exact validCleared_clear ok low

/-- A command of the unit that its state does not take. -/
def State.cmdRefused (s : State) (m : Master) : State := s.refuseBy m eState 0 (regAddr pgTrace TRACE.CMD)

/-- ARM. -/
def State.cmdArm (s : State) (m : Master) : State := if s.armFails then s.cmdRefused m else s.traceArm
/-- STOP. -/
def State.cmdStop (s : State) (m : Master) : State := if s.trace.state == .pre || s.trace.state == .post then s.traceStop else s.cmdRefused m
/-- FORCE. -/
def State.cmdForce (s : State) (m : Master) : State :=
  if s.trace.state == .pre || s.trace.state == .post then s.traceTrigger 4 s.now else s.cmdRefused m
/-- CLEAR. -/
def State.cmdClear (s : State) (m : Master) : State :=
  if s.trace.state == .done then s.onTrace fun t => { t with state := .idle } else s.cmdRefused m

/-- A command under its bit. -/
def State.under (s : State) (b : Bool) (f : State → State) : State := if b then f s else s

theorem traceCmd_eq {m : Master} : s.traceCmd m v =
    (((s.under (bt v 0) (·.cmdArm m)).under (bt v 1) (·.cmdStop m)).under (bt v 2) (·.cmdForce m)).under (bt v 3) (·.cmdClear m) := rfl

theorem traceCmd_arm {m : Master} : s.traceCmd m 1 = s.cmdArm m := traceCmd_eq

theorem traceCmd_stop {m : Master} : s.traceCmd m 2 = s.cmdStop m := traceCmd_eq

theorem traceCmd_force {m : Master} : s.traceCmd m 4 = s.cmdForce m := traceCmd_eq

theorem traceCmd_clear {m : Master} : s.traceCmd m 8 = s.cmdClear m := traceCmd_eq

/-- STOP writes the header of the segment, shows it, and ends the capture. -/
theorem traceClose_stops (whole : Whole s) (seg : s.trace.seg < 32) : (s.traceClose true).trace.state = .idle ∧
    (s.traceClose true).wordsAt (segAddr s.force s.trace.seg) 16 = s.traceHeader true ∧
    bt ((s.traceClose true).lv pgTrace TRACE.SEG_VALID) s.trace.seg = true ∧ Flagged (s.traceClose true) pgTrace 1 := by
  have mem : (s.segmentTold true).mem = (s.putWords (segAddr s.force s.trace.seg) (s.traceHeader true)).mem := segmentTold_parts .mem (by decide)
  have ok : MapOk (s.headerShown true).regs := MapOk.set ((State.putWords_only (Only.refl [.mem, .eccBad] s) rfl .regs (by decide)).symm ▸ whole.regs)
  have shown : bt ((s.headerShown true).lv pgTrace TRACE.SEG_VALID) s.trace.seg = true := by
    have same : (s.headerShown true).lv pgTrace TRACE.SEG_VALID = _ ||| nw (2 ^ s.trace.seg) :=
      State.lv_setLv_same ((State.putWords_only (Only.refl [.mem, .eccBad] s) rfl .regs (by decide)).symm ▸ whole.regs)
    have bit : bt (nw (2 ^ s.trace.seg)) s.trace.seg = true := nw_twoPow seg
    rw [same, bt_or, bit, Bool.or_true]
  have valid : Reads pgTrace TRACE.SEG_VALID ((s.headerShown true).lv pgTrace TRACE.SEG_VALID) (s.segmentTold true) :=
    segmentTold_rises (rising_reads (by decide)) (fun t k => k.setLv_ne (by decide)) ((rising_reads (by decide)).event ⟨ok, rfl⟩)
  have told := event_flags (s := s.headerShown true) (p := pgTrace) (bits := 2) (i := 1) ok (by decide)
  have flagged := (segmentTold_rises (b := true) (s := s) rising_up (fun t k => k.setLv (by decide)) told.1).bits _ _ told.2
  rw [traceClose_stopped]
  refine ⟨rfl, ?_, ?_, flagged_of_regs flagged rfl⟩
  · exact (wordsAt_of_mem mem).trans (wordsAt_putWords whole.mem length_traceHeader)
  · exact (congrArg (bt · s.trace.seg) valid.2).trans shown

/-- A trigger of FORCE in PRE. -/
theorem traceTrigger_forced (pre : s.trace.state = .pre) : s.traceTrigger 4 tick =
    ({ s with trace := { s.trace with state := .post, pendTrig := some (4, tick), trigUnit := 4, trigTick := tick, rate := s.time.rho } }).eventRaw pgTrace 1 :=
  (if_pos pre).trans (if_pos (.inl rfl))

theorem eventRaw_flags {bits : Nat} (ok : MapOk s.regs) (bit : (nw bits).toNat.testBit i = true) : Flagged (s.eventRaw p bits) p i := by
  unfold Flagged State.eventRaw State.onLv
  have set : bt (nw bits) i = true := bit
  rw [State.lv_setLv_same ok, bt_or, set, Bool.or_true]

theorem hostTrace_up (up : s.up = true) : s.hostTrace v = (s.touch .host).traceCmd .host v := if_pos up

/-- A command that the unit's state does not take. -/
theorem trace_refuses {c : Instr} (ok : MapOk s.regs) (run : exec c s = .next ((s.touch .host).cmdRefused .host)) :
    Refuses c .host s fun t => t.mem = s.mem :=
  refuses_touched ok run (State.refuseBy_only (Only.refl [.regs, .host, .mgr, .trace, .log] _) rfl .mem (by decide))

theorem outlivesSamples_count : OutlivesSamples (Reads pgTrace TRACE.SAMPLE_COUNT w) where
  rise := rising_reads (by decide)
  drop _ k := k.setLv_ne (by decide)
  valid _ _ k := k.setLv_ne (by decide)

end

/-- Settles O55. -/
theorem tracing : Obligations.Tracing := by
  unfold Obligations.Tracing
  intro s whole c x live
  refine ⟨fun up => ?commands, fun t0 => ?window, fun closed => ?idle⟩
  case commands =>
    have touched {fs : List Part} (sub : In [.host] fs) : Only fs s (s.touch .host) := touchHost_only (Only.refl _ _) sub
    have whole' : Whole (s.touch .host) := (State.touch_kept (Kept.refl s)).whole whole
    have arm : exec .traceArm s = .next ((s.touch .host).cmdArm .host) := congrArg _ ((hostTrace_up up).trans traceCmd_arm)
    have stop : exec .traceStop s = .next ((s.touch .host).cmdStop .host) := congrArg _ ((hostTrace_up up).trans traceCmd_stop)
    have force : exec .traceForce s = .next ((s.touch .host).cmdForce .host) := congrArg _ ((hostTrace_up up).trans traceCmd_force)
    have clear : exec .traceClear s = .next ((s.touch .host).cmdClear .host) := congrArg _ ((hostTrace_up up).trans traceCmd_clear)
    have living : (x.state == .pre || x.state == .post) = true ↔ live := by simp [live]
    refine ⟨fun good => ?_, fun fails => ?_, fun pre => ?_, fun post seg => ?_, fun dead => ?_, fun pre => ?_, fun dead => ?_, fun done => ?_, fun busy => ?_,
      fun t0 on next => ?_, fun dead => ?_⟩
    · have armed : (s.touch .host).cmdArm .host = (s.touch .host).traceArm := if_neg fun h => Bool.noConfusion (good.symm.trans h)
      rw [armed] at arm
      obtain ⟨valid, count⟩ := traceArm_registers whole'.regs
      exact ⟨_, arm, ⟨rfl, rfl, rfl, rfl, rfl, rfl, traceEmptied_now, valid, count, fun i low => traceArm_clears whole'.mem low⟩, State.traceArm_only (touched rfl) rfl⟩
    · have refused : (s.touch .host).cmdArm .host = (s.touch .host).cmdRefused .host := if_pos fails
      rw [refused] at arm
      exact trace_refuses whole.regs arm
    · have stopped : (s.touch .host).cmdStop .host = _ := (if_pos (living.mpr (.inl pre))).trans (if_pos pre)
      rw [stopped] at stop
      exact ⟨_, stop, rfl, State.onTrace_only (touched rfl) rfl⟩
    · have stopped : (s.touch .host).cmdStop .host = (s.touch .host).traceClose true :=
        (if_pos (living.mpr (.inr post))).trans (if_neg fun pre => absurd (pre.symm.trans post) (by decide))
      rw [stopped] at stop
      exact ⟨_, stop, traceClose_stops whole' seg, State.traceClose_only (touched rfl) rfl⟩
    · have refused : (s.touch .host).cmdStop .host = (s.touch .host).cmdRefused .host := if_neg fun h => dead (living.mp h)
      rw [refused] at stop
      exact trace_refuses whole.regs stop
    · have forced : (s.touch .host).cmdForce .host = (s.touch .host).traceTrigger 4 (s.touch .host).now := if_pos (living.mpr (.inl pre))
      rw [forced] at force
      refine ⟨_, force, ?_, State.traceTrigger_only (touched rfl) rfl⟩
      rw [traceTrigger_forced (s := s.touch .host) pre]
      exact ⟨eventRaw_flags whole.regs (by decide), rfl⟩
    · have refused : (s.touch .host).cmdForce .host = (s.touch .host).cmdRefused .host := if_neg fun h => dead (living.mp h)
      rw [refused] at force
      exact trace_refuses whole.regs force
    · have cleared : (s.touch .host).cmdClear .host = _ := if_pos (beq_iff_eq.mpr done)
      rw [cleared] at clear
      exact ⟨_, clear, rfl, State.onTrace_only (touched rfl) rfl⟩
    · have refused : (s.touch .host).cmdClear .host = (s.touch .host).cmdRefused .host := if_neg fun h => busy (beq_iff_eq.mp h)
      rw [refused] at clear
      exact trace_refuses whole.regs clear
    · have run : exec .traceSample s = .next ((s.reach t0).traceTake t0) := by
        show execTraceSample s = _
        unfold execTraceSample
        rw [if_pos (by rw [up, living.mpr on]; rfl), next]
      have ok : MapOk (s.reach t0).regs := whole.regs
      obtain ⟨u, seg, slot, last, trace, plain, reduced⟩ := traceTake_stores (s := s.reach t0) (tick := t0)
      have taken : (s.reach t0).force = s.force := rfl
      have frame : Only [.regs, .trace] (s.reach t0) u := Only.upd traceFired_only rfl trace
      have mem : u.mem = s.mem := frame .mem (by decide)
      have okMem : MemoryOk u := by
        unfold MemoryOk
        rw [mem]
        exact whole.mem
      have cfg : u.cfg = s.cfg := frame .cfg (by decide)
      have take : Only [.regs, .mem, .eccBad, .axes, .dma, .safety, .trace, .log] (s.reach t0) ((s.reach t0).traceTake t0) :=
        State.traceTake_only (Only.refl _ _) rfl
      refine ⟨_, run, ?_, State.traceTake_only (State.reach_only (Only.refl _ _) rfl) rfl⟩
      beta_reduce
      intro words
      refine ⟨(take .time (by decide)).trans rfl, ?_, fun straight => ?_⟩
      · cases way : traceStipple s.force with
        | true => exact reduced way
        | false =>
          rw [plain way]
          exact traceStore_lastSample.trans last
      · have same : ((probes s.force).map fun p => u.traceWordsOf (probeSel s.force p)).flatten = words := by
          refine congrArg List.flatten (List.map_congr_left fun p _ => ?_)
          rw [traceWordsOf_triggered (Only.upd (Only.refl _ _) rfl trace) fun _ _ _ => lv_only trace (by decide)]
          exact traceFired_words ok
        have shown : Reads pgTrace TRACE.SAMPLE_COUNT (s.lv pgTrace TRACE.SAMPLE_COUNT + 1) (u.sampleShown words) := by
          have fired : Reads pgTrace TRACE.SAMPLE_COUNT (s.lv pgTrace TRACE.SAMPLE_COUNT) ((s.reach t0).traceFired t0) :=
            (reads_outlivesEvents (by decide)).traceFired ⟨ok, rfl⟩
          exact sampleShown_counts (fired.of_regs (trace .regs (by decide)))
        have words_ := traceStore_words (ws := words) okMem
        rw [segAddr_of_cfg cfg, traceWords_of_cfg cfg, seg, slot] at words_
        rw [plain straight, taken, same]
        exact ⟨(traceStore_outlives outlivesSamples_count shown).2, words_⟩
    · refine if_neg fun h => dead (living.mp ?_)
      rw [Bool.and_eq_true] at h
      exact h.2
  case window =>
    intro win opened limited
    have run : exec .traceSeqWindowExpiry s = .next ((s.reach (t0 + win)).onTrace fun x => { x with seqOpen := none }) := by
      show execTraceSeqWindowExpiry s = _
      unfold execTraceSeqWindowExpiry
      dsimp only
      rw [opened]
      exact if_neg limited
    exact ⟨_, run, ⟨rfl, rfl⟩, State.onTrace_only (State.reach_only (Only.refl _ _) rfl) rfl⟩
  case idle =>
    show execTraceSeqWindowExpiry s = _
    unfold execTraceSeqWindowExpiry
    dsimp only
    rw [closed]

end Sys2Proof.Machine
end


section

/-! PROOF. Registers under a master's write: rows, pairs and the registers whose write is an action (R6 to R10). -/

namespace Sys2Proof.Machine

open Sys2Proof.Safety Sys2Proof.Claims

section

variable {s t : State} {m : Master} {p p0 p1 o q a l : Nat} {v w : Word} {r : RegRow} {rows : List RegRow}

/-! Rows. -/

theorem pageRows_of_rowAt (h : rowAt p o = some (p0, r)) : ∃ rows, pageRows p = some (p0, rows) := by
  unfold rowAt at h
  split at h
  · cases h
  · next p1 rows found =>
    split at h
    · cases h
    · split at h
      · cases h
      · injection h with h
        injection h with h _
        exact ⟨rows, h ▸ found⟩

/-- The first page of a page's type. -/
def firstPage (p : Nat) : Nat :=
  if p < 0x0C then p else if p < 0x0E then 0x0C else if p < 0x10 then p else if p < 0x18 then 0x10 else if p < 0x20 then 0x18 else if p < 0x30 then 0x20
  else if p < 0x34 then p else if p < 0x38 then 0x34 else if p < 0x40 then 0x38 else if p < 0x48 then 0x40 else if p < 0x50 then 0x48 else 0x50

theorem firstPage_low : ∀ p < 0x58, (pageRows p).map (·.1) = none ∨ (pageRows p).map (·.1) = some (firstPage p) := by decide

theorem pageRows_high (high : 0x58 ≤ p) : pageRows p = none := by
  unfold pageRows
  iterate 25 rw [if_neg (by omega)]

theorem firstPage_of_rows (h : pageRows p = some (p0, rows)) : p0 = firstPage p := by
  by_cases low : p < 0x58
  · rcases firstPage_low p low with e | e
    · rw [h] at e
      cases e
    · rw [h] at e
      exact Option.some.inj e
  · rw [pageRows_high (by omega)] at h
    cases h

/-! Pairs. -/

theorem pairLow_row (h : isPairLow p o = true) : ∃ r, rowAt p o = some (firstPage p, r) ∧ o ∈ pairLows (firstPage p) := by
  unfold isPairLow at h
  split at h
  · next p0 r row =>
    obtain ⟨rows, found⟩ := pageRows_of_rowAt row
    have same := firstPage_of_rows found
    subst same
    exact ⟨r, row, List.contains_iff_mem.mp h⟩
  · cases h

/-- No low word stands where the high word of another pair does. -/
theorem pairLows_apart : ∀ q < 0x58, (pairLows q).all (fun o => decide (4 ≤ o) && !(pairLows q).contains (o - 4)) = true := by decide

theorem firstPage_mapped : ∀ p < 0x58, firstPage p < 0x58 := by decide

theorem pairLow_page (h : isPairLow p o = true) : p < 0x58 := by
  obtain ⟨r, row, _⟩ := pairLow_row h
  obtain ⟨rows, found⟩ := pageRows_of_rowAt row
  by_contra high
  rw [pageRows_high (by omega)] at found
  cases found

theorem pairLow_notHigh (h : isPairLow p o = true) : isPairHigh p o = false := by
  obtain ⟨r, row, mem⟩ := pairLow_row h
  have apart := List.all_eq_true.mp (pairLows_apart (firstPage p) (firstPage_mapped p (pairLow_page h))) o mem
  rw [Bool.and_eq_true, Bool.not_eq_true'] at apart
  unfold isPairHigh
  cases low : isPairLow p (o - 4) with
  | false => rw [Bool.and_false]
  | true =>
    obtain ⟨r', row', mem'⟩ := pairLow_row low
    rw [List.contains_iff_mem.mpr mem'] at apart
    exact absurd apart.2 (by decide)

/-! Registers whose write is an action. -/

theorem ite_isSome {c : Prop} [Decidable c] {x y : Option State} {b d : Bool} (h : x.isSome = b) (k : y.isSome = d) :
    (if c then x else y).isSome = if c then b else d := by
  split
  · exact h
  · exact k

theorem ite_some {c : Prop} [Decidable c] {x : State} {y : Option State} {d : Bool} (k : y.isSome = d) :
    (if c then some x else y).isSome = if c then true else d := ite_isSome rfl k

/-- An offset of a page below AXIS0 whose write is an action. -/
def actsLow (p o : Nat) : Bool :=
  if (p = pgSys ∧ o = SYS.CMD) ∨ (p = pgMgmt ∧ o = MGMT.CMD) then true
  else if p = pgTime ∧ o = TIME.NT_CMD then true
  else if p = pgSched ∧ o = SCHED.POWER_REQ then true
  else if p = pgSafe ∧ o = SAFE.AXIS_CMD then true
  else if p = pgSafe ∧ o = SAFE.SEL_HOST then true
  else if p = pgDma ∧ o = DMA.CMD then true
  else if p = pgTrace ∧ o = TRACE.CMD then true
  else if p = pgCan 0 ∨ p = pgCan 1 then
    if o = CAN.CMD then true else if o = CAN.TX_REQ then true else if o = CAN.TX_ABORT then true else false
  else if p = pgBilva ∧ o = BILVA.NETSTRIKE_CMD then true
  else false

theorem actLow_isSome : (s.actLow m p o v).isSome = actsLow p o := by
  unfold State.actLow actsLow
  exact ite_some (ite_some (ite_some (ite_some (ite_some (ite_some (ite_some (ite_isSome (ite_some (ite_some (ite_some rfl)))
    (ite_some rfl))))))))

/-- An offset of a page from AXIS0 up whose write is an action. -/
def actsHigh (p o : Nat) : Bool :=
  if 0x18 ≤ p ∧ p < 0x20 then if o = FB.LOAD_CMD then true else false
  else if 0x20 ≤ p ∧ p < 0x30 then
    if o = MOT.CMD then true else if o = MOT.CMP_CTRL 0 then true else if o = MOT.CMP_CTRL 1 then true else if o = MOT.LATCH_CTRL 0 then true
    else if o = MOT.LATCH_CTRL 1 then true else false
  else if p = pgGroup then ((List.range 4).find? fun g => o == GROUP.PUSH g).isSome
  else if p = pgHoist then if o = HOIST.RESCUE_CMD then true else false
  else if 0x34 ≤ p ∧ p < 0x38 then ((List.range 8).find? fun j => decide (PWM.DUTY j ≤ o ∧ o ≤ PWM.CTRL j)).isSome
  else if 0x48 ≤ p ∧ p < 0x50 then ((List.range 8).find? fun j => o == DMACH.CH_CMD j).isSome
  else false

theorem actHigh_isSome : (s.actHigh m p o v).isSome = actsHigh p o := by
  unfold State.actHigh actsHigh
  refine ite_isSome (ite_some rfl) (ite_isSome (ite_some (ite_some (ite_some (ite_some (ite_some rfl))))) (ite_isSome ?_ (ite_isSome (ite_some rfl)
    (ite_isSome ?_ (ite_isSome ?_ rfl)))))
  · split
    · next found =>
      rw [found]
      rfl
    · next found =>
      rw [found]
      rfl
  · split
    · next found =>
      rw [found]
      split_ifs <;> rfl
    · next found =>
      rw [found]
      rfl
  · split
    · next found =>
      rw [found]
      rfl
    · next found =>
      rw [found]
      rfl

/-- An offset of a page whose write is an action. -/
def acts (p o : Nat) : Bool := if p < 0x10 then actsLow p o else actsHigh p o

/-- What the write of a register does where it is an action. -/
def State.act (s : State) (m : Master) (p o : Nat) (v : Word) : Option State := if p < 0x10 then s.actLow m p o v else s.actHigh m p o v

theorem act_none : s.act m p o v = none ↔ acts p o = false := by
  have isSome : (s.act m p o v).isSome = acts p o := ite_isSome actLow_isSome actHigh_isSome
  rw [← isSome]
  cases s.act m p o v <;> simp

/-- What a register takes of a word under its access code (R7): its masked bits, none of the bits written 1, or nothing. -/
def State.regTaken (s : State) (p o : Nat) (r : RegRow) (v : Word) : State :=
  match r.acc with
  | .rw => s.setLv p o (v &&& r.mask)
  | .w1c => s.onLv p o fun w => w &&& ~~~v
  | _ => s

theorem regTaken_rw (acc : r.acc = .rw) : s.regTaken p o r v = s.setLv p o (v &&& r.mask) := by
  unfold State.regTaken
  rw [acc]

theorem regTaken_w1c (acc : r.acc = .w1c) : s.regTaken p o r v = s.onLv p o fun w => w &&& ~~~v := by
  unfold State.regTaken
  rw [acc]

theorem regTaken_ro (acc : r.acc = .ro) : s.regTaken p o r v = s := by
  unfold State.regTaken
  rw [acc]

theorem liveWrite_plain (row : rowAt p o = some (p0, r)) (plain : acts p o = false) : s.liveWrite m p o v = s.regTaken p o r v := by
  have none_ : (if p < 0x10 then s.actLow m p o v else s.actHigh m p o v) = none := act_none.mpr plain
  unfold State.liveWrite
  rw [row]
  dsimp only
  rw [none_]
  rfl

theorem liveWrite_hole (hole : rowAt p o = none) : s.liveWrite m p o v = s := by
  unfold State.liveWrite
  rw [hole]

theorem pairs_plain : ∀ p < 0x58, (pairLows (firstPage p)).all (fun o => !acts p o && !acts p (o + 4) && decide (o + 4 < 4096)) = true := by decide

/-- The words of a pair are no actions. -/
theorem pair_plain (h : isPairLow p o = true) : acts p o = false ∧ acts p (o + 4) = false ∧ o + 4 < 4096 := by
  obtain ⟨r, row, mem⟩ := pairLow_row h
  have plain := List.all_eq_true.mp (pairs_plain p (pairLow_page h)) o mem
  simpa only [Bool.and_eq_true, Bool.not_eq_true', decide_eq_true_eq, and_assoc] using plain

end

end Sys2Proof.Machine
end


section

/-! PROOF. Writes of the masters to registers and memory words, and register pairs (R6 to R10, R45, R46, R339, R346, R418, R435). -/

namespace Sys2Proof.Machine

open Sys2Proof.Safety Sys2Proof.Claims

section

variable {s t : State} {m : Master} {p p0 p1 o a : Nat} {v w : Word} {r r0 : RegRow} {x : Acc} {addr : Addr}

theorem offOf_low : offOf a < 4096 := Nat.mod_lt _ (by decide)

theorem accAt_of_row (row : rowAt (pageOf a) (offOf a) = some (p0, r)) : accAt a = some r.acc := by
  rw [accAt, row]
  rfl

/-- A write of a register that this master may write. -/
theorem busWrite_register (up : s.up = true) (low : a < 0x100000) (live : accAt a ≠ some .st) (mine : pageOf a = pgMgmt ↔ m = .manager) :
    s.busWrite m a v = s.pairWrite m a v := by
  have own : ((pageOf a == pgMgmt) != (m == .manager)) = false := by
    cases m with
    | host =>
      have off : (pageOf a == pgMgmt) = false := beq_eq_false_iff_ne.mpr fun h => absurd (mine.mp h) (by decide)
      rw [off]
      rfl
    | manager =>
      have on : (pageOf a == pgMgmt) = true := beq_iff_eq.mpr (mine.mpr rfl)
      rw [on]
      rfl
  unfold State.busWrite
  rw [if_neg (by rw [up]; decide), if_pos low, if_neg live, if_neg (by rw [own]; decide)]

/-- A write that is no half of a pair. -/
theorem pairWrite_single (free : s.motRefused (pageOf a) (offOf a) = false) (notLow : isPairLow (pageOf a) (offOf a) = false)
    (notHigh : isPairHigh (pageOf a) (offOf a) = false) : s.pairWrite m a v = (s.touch m).liveWrite m (pageOf a) (offOf a) v := by
  unfold State.pairWrite
  dsimp only
  rw [if_neg (by rw [free]; decide), notLow, notHigh, Bool.and_false, if_neg (by decide)]
  rfl

/-- A register that a plain write reaches. -/
theorem plain_write (plain : Plain s m a x r) (live : x ≠ .st) (up : s.up = true) (aligned : addr.toNat = a) :
    exec (.registerWrite m addr v) s = .next ((s.touch m).regTaken (pageOf a) (offOf a) r v) := by
  obtain ⟨low, whole, ⟨p0, row⟩, acc, mine, notLow, notHigh, free, none_⟩ := plain
  have silent : acts (pageOf a) (offOf a) = false := act_none.mp (none_ v)
  have stage : accAt a ≠ some .st := by
    rw [accAt_of_row row, acc]
    exact fun h => live (Option.some.inj h)
  have run : exec (.registerWrite m addr v) s = .next (s.busWrite m a v) := by
    show execRegisterWrite m addr v s = _
    rw [execRegisterWrite, aligned, if_pos whole]
  rw [run, busWrite_register up low stage mine, pairWrite_single free notLow notHigh, liveWrite_plain row silent]

/-! Refused writes, and memory. -/

theorem exec_registerWrite (aligned : addr.toNat % 4 = 0) : exec (.registerWrite m addr v) s = .next (s.busWrite m addr.toNat v) := by
  show execRegisterWrite m addr v s = _
  rw [execRegisterWrite, if_pos aligned]

theorem exec_laneCodeWrite (aligned : addr.toNat % 4 = 0) (code : isLaneCode addr.toNat = true) :
    exec (.laneCodeWrite m addr v) s = .next (s.busWrite m addr.toNat v) := by
  show execLaneCodeWrite m addr v s = _
  rw [execLaneCodeWrite, if_pos ⟨aligned, code⟩]

theorem busWrite_hostMgmt (up : s.up = true) (low : a < 0x100000) (live : accAt a ≠ some .st) (page : pageOf a = pgMgmt) :
    s.busWrite .host a v = s.refuseBy .host eRange 0 a := by
  unfold State.busWrite
  rw [if_neg (by rw [up]; decide), if_pos low, if_neg live, page, if_pos (by decide), if_pos (by decide)]

theorem busWrite_managerElsewhere (up : s.up = true) (low : a < 0x100000) (live : accAt a ≠ some .st) (page : pageOf a ≠ pgMgmt) :
    s.busWrite .manager a v = s.refuseBy .manager eRange 0 a := by
  have off : (pageOf a == pgMgmt) = false := beq_eq_false_iff_ne.mpr page
  unfold State.busWrite
  rw [if_neg (by rw [up]; decide), if_pos low, if_neg live, off, if_pos (by decide), if_pos (by rw [Bool.or_eq_true]; exact .inr rfl)]

theorem busWrite_managerMemory (up : s.up = true) (high : 0x100000 ≤ a) : s.busWrite .manager a v = s.refuseBy .manager eRange 0 a := by
  unfold State.busWrite
  rw [if_neg (by rw [up]; decide), if_neg (by omega), if_pos rfl]

theorem busWrite_hostMemory (up : s.up = true) (high : 0x100000 ≤ a) : s.busWrite .host a v = s.memWrite .host a v := by
  unfold State.busWrite
  rw [if_neg (by rw [up]; decide), if_neg (by omega), if_neg (by decide)]

theorem memWrite_stores (free : Writable s a) : s.memWrite m a v = (s.touch m).putWord a v := by
  obtain ⟨_, mem, log, shared, code⟩ := free
  have held : (isLaneCode a && s.codeHeld a) = false := by
    cases lane : isLaneCode a with
    | false => rfl
    | true => exact code lane
  unfold State.memWrite
  dsimp only
  rw [if_neg (by rw [log]; decide), if_neg (by rw [held]; decide), if_pos (by rw [mem, shared]; rfl)]

theorem isLaneCode_high (h : isLaneCode a = true) : 0x100000 ≤ a := by
  simp only [isLaneCode, isLaneStore, Bool.and_eq_true, decide_eq_true_eq] at h
  omega

theorem isLaneCode_beside (h : isLaneCode a = true) : isLogWin a = false := by
  simp only [isLaneCode, isLaneStore, isLogWin, Bool.and_eq_true, decide_eq_true_eq, decide_eq_false_iff_not] at *
  omega

theorem memWrite_log (log : isLogWin a = true) : s.memWrite m a v = s.refuseBy m eRange 0 a := if_pos log

theorem memWrite_held (code : isLaneCode a = true) (held : s.codeHeld a = true) : s.memWrite m a v = s.refuseBy m eState 0 a := by
  unfold State.memWrite
  rw [if_neg (by rw [isLaneCode_beside code]; decide), if_pos (by rw [code, held]; rfl)]

theorem busWrite_staged (up : s.up = true) (low : a < 0x100000) (staged : accAt a = some .st) : s.busWrite m a v = s.stagedWrite m a v := by
  unfold State.busWrite
  rw [if_neg (by rw [up]; decide), if_pos low, if_pos staged]

theorem accAt_of_hole (hole : rowAt (pageOf a) (offOf a) = none) : accAt a = none := by
  rw [accAt, hole]
  rfl

theorem pairWrite_hole (free : s.motRefused (pageOf a) (offOf a) = false) (hole : rowAt (pageOf a) (offOf a) = none) : s.pairWrite m a v = s.touch m := by
  unfold State.pairWrite
  dsimp only
  rw [if_neg (by rw [free]; decide), accAt_of_hole hole, if_neg (by simp), if_neg (by simp)]
  exact liveWrite_hole hole

theorem mstr_touch : (s.touch m).mstr m = { s.mstr m with lastAccess := s.now } := State.mstr_onMstr_same

/-- A word that is stored alone (R339, R346). -/
theorem stores_word {c : Instr} (whole : Whole s) (run : exec c s = .next ((s.touch .host).putWord a v)) :
    Does c s [.mem, .eccBad, .host] fun t => t.wordAt a = v ∧ t.eccBad.contains a = false ∧ ∀ x, x < a ∨ a + 4 ≤ x → t.byteAt x = s.byteAt x :=
  ⟨_, run, ⟨wordAt_putWord_same (s := s.touch .host) whole.mem, eccBad_putWord_same, fun _ beside => State.byteAt_putWord_ne (s := s.touch .host) whole.mem beside⟩,
    State.putWord_only (touchHost_only (Only.refl _ _) rfl) rfl⟩

/-! Pairs. -/

theorem busRead_low (low : a < 0x100000) (pair : isPairLow (pageOf a) (offOf a) = true) : s.busRead m a =
    ((s.touch m).onMstr m fun x => { x with rHold := (a, (s.touch m).regRead (pageOf a) (offOf a + 4)) :: x.rHold.filter fun y => y.1 ≠ a },
      (s.touch m).regRead (pageOf a) (offOf a)) := by
  unfold State.busRead
  dsimp only
  rw [if_pos low, pairLow_notHigh pair, if_neg (by decide)]
  dsimp only
  rw [if_pos pair]

theorem pairWrite_low (free : s.motRefused (pageOf a) (offOf a) = false) (acc : accAt a = some .rw) (pair : isPairLow (pageOf a) (offOf a) = true) :
    s.pairWrite m a v = (s.touch m).onMstr m fun x => { x with wHold := (a, v) :: x.wHold.filter fun y => y.1 ≠ a } := by
  unfold State.pairWrite
  dsimp only
  rw [if_neg (by rw [free]; decide), acc, if_pos (by rw [pair]; rfl)]

/-- The word that a master holds for a pair's low register. -/
def State.heldLow (s : State) (m : Master) (a : Nat) : Option (Nat × Word) := (s.mstr m).wHold.find? fun x => x.1 == a - 4

theorem heldLow_touch : (s.touch m).heldLow m a = s.heldLow m a := by
  rw [State.heldLow, State.touch, State.mstr_onMstr_same]
  rfl

/-- A held word is taken. -/
def State.heldTaken (s : State) (m : Master) (k : Nat) : State := s.onMstr m fun x => { x with wHold := x.wHold.filter fun y => y.1 ≠ k }

theorem pairWrite_high (free : s.motRefused (pageOf a) (offOf a) = false) (acc : accAt a = some .rw) (pair : isPairHigh (pageOf a) (offOf a) = true) :
    s.pairWrite m a v = match s.heldLow m a with
      | some (k, w) => (((s.touch m).heldTaken m k).liveWrite m (pageOf a) (offOf a - 4) w).liveWrite m (pageOf a) (offOf a) v
      | none => (s.touch m).liveWrite m (pageOf a) (offOf a) v := by
  have notLow : isPairLow (pageOf a) (offOf a) = false := by
    cases low : isPairLow (pageOf a) (offOf a) with
    | false => rfl
    | true => exact absurd (pair.symm.trans (pairLow_notHigh low)) (by decide)
  rw [← heldLow_touch]
  unfold State.pairWrite
  dsimp only
  rw [if_neg (by rw [free]; decide), acc, notLow, if_neg (by decide), if_pos (by rw [pair]; rfl)]
  rfl

end

section

variable {s : State} {m : Master} {a p : Nat} {v : Word} {r r0 : RegRow} {addr : Addr}

/-- The two words of a pair as its high write leaves them (R6). -/
theorem pairHigh_leaves {p0 p1 : Nat} (whole : Whole s) (free : s.motRefused (pageOf a) (offOf a) = false) (pair : isPairHigh (pageOf a) (offOf a) = true)
    (row : rowAt (pageOf a) (offOf a) = some (p0, r)) (acc : r.acc = .rw) (row0 : rowAt (pageOf a) (offOf a - 4) = some (p1, r0)) (acc0 : r0.acc = .rw) :
    let t := s.pairWrite m a v
    Only [.regs, .host, .mgr] s t ∧ t.lv (pageOf a) (offOf a) = v &&& r.mask ∧
      (∀ k w, s.heldLow m a = some (k, w) → t.lv (pageOf a) (offOf a - 4) = w &&& r0.mask ∧ (t.mstr m).wHold = (s.mstr m).wHold.filter fun y => y.1 ≠ k) ∧
      (s.heldLow m a = none → t.lv (pageOf a) (offOf a - 4) = s.lv (pageOf a) (offOf a - 4)) ∧
      ∀ q n, n < 4096 → q ≠ pageOf a ∨ (n ≠ offOf a ∧ n ≠ offOf a - 4) → t.lv q n = s.lv q n := by
  have word : accAt a = some .rw := (accAt_of_row row).trans (congrArg some acc)
  obtain ⟨wide, pairLow⟩ : 4 ≤ offOf a ∧ isPairLow (pageOf a) (offOf a - 4) = true := by
    simpa only [isPairHigh, Bool.and_eq_true, decide_eq_true_eq] using pair
  obtain ⟨silent0, silent, _⟩ := pair_plain pairLow
  rw [Nat.sub_add_cancel wide] at silent
  have low := offOf_low (a := a)
  have regs : (s.touch m).regs = s.regs := touch_regs
  have ok : MapOk (s.touch m).regs := regs.symm ▸ whole.regs
  have write {u : State} {w : Word} : u.liveWrite m (pageOf a) (offOf a) w = u.setLv (pageOf a) (offOf a) (w &&& r.mask) := by
    rw [liveWrite_plain row silent, regTaken_rw acc]
  have write0 {u : State} {w : Word} : u.liveWrite m (pageOf a) (offOf a - 4) w = u.setLv (pageOf a) (offOf a - 4) (w &&& r0.mask) := by
    rw [liveWrite_plain row0 silent0, regTaken_rw acc0]
  have apart : regAddr (pageOf a) (offOf a - 4) ≠ regAddr (pageOf a) (offOf a) := fun e => by
    have same := ((regAddr_inj low (by omega)).mp e).2
    omega
  have beside {q n : Nat} (hn : n < 4096) (other : q ≠ pageOf a ∨ (n ≠ offOf a ∧ n ≠ offOf a - 4)) :
      regAddr q n ≠ regAddr (pageOf a) (offOf a) ∧ regAddr q n ≠ regAddr (pageOf a) (offOf a - 4) := by
    refine ⟨fun e => ?_, fun e => ?_⟩
    · obtain ⟨page, off⟩ := (regAddr_inj low hn).mp e
      rcases other with h | ⟨h, _⟩
      · exact h page
      · exact h off
    · obtain ⟨page, off⟩ := (regAddr_inj (by omega) hn).mp e
      rcases other with h | ⟨_, h⟩
      · exact h page
      · exact h off
  rw [pairWrite_high free word pair]
  cases held : s.heldLow m a with
  | none =>
    dsimp only
    rw [write]
    refine ⟨State.setLv_only (Only.upd (Only.refl _ _) rfl touch_frame) rfl, State.lv_setLv_same ok, nofun, fun _ => ?_, fun q n hn other => ?_⟩
    · rw [State.lv_setLv_ne ok apart, lv_of_regs regs]
    · rw [State.lv_setLv_ne ok (beside hn other).1, lv_of_regs regs]
  | some x =>
    obtain ⟨k, w⟩ := x
    dsimp only
    have regs' : ((s.touch m).heldTaken m k).regs = s.regs := State.onMstr_regs.trans regs
    have ok' : MapOk ((s.touch m).heldTaken m k).regs := regs'.symm ▸ whole.regs
    have hold : (((s.touch m).heldTaken m k).mstr m).wHold = (s.mstr m).wHold.filter fun y => y.1 ≠ k := by
      rw [State.heldTaken, State.mstr_onMstr_same, State.touch, State.mstr_onMstr_same]
    have frame : Only [.regs, .host, .mgr] s ((s.touch m).heldTaken m k) := State.onMstr_only (Only.upd (Only.refl _ _) rfl touch_frame) rfl
    generalize (s.touch m).heldTaken m k = u at *
    rw [write0, write]
    have ok'' : MapOk (u.setLv (pageOf a) (offOf a - 4) (w &&& r0.mask)).regs := (reads_setLv ok').1
    refine ⟨State.setLv_only (State.setLv_only frame rfl) rfl, State.lv_setLv_same ok'', fun k' w' same => ?_, nofun, fun q n hn other => ?_⟩
    · injection same with same
      injection same with key word
      subst key word
      refine ⟨?_, hold⟩
      rw [State.lv_setLv_ne ok'' apart, State.lv_setLv_same ok']
    · rw [State.lv_setLv_ne ok'' (beside hn other).1, State.lv_setLv_ne ok' (beside hn other).2, lv_of_regs regs']

end

/-- Settles O56. -/
theorem registerAccess : Obligations.RegisterAccess := by
  unfold Obligations.RegisterAccess
  refine ⟨fun m addr v s whole up => ?writes, fun m addr v s whole up => ?pairs⟩
  case writes =>
    extract_lets +onlyGivenNames a p o stores
    have touched {fs : List Part} (sub : In [.host, .mgr] fs) : Only fs s (s.touch m) := Only.upd (Only.refl _ _) sub touch_frame
    have regs : (s.touch m).regs = s.regs := touch_regs
    have ok : MapOk (s.touch m).regs := regs.symm ▸ whole.regs
    have refused {c : Instr} {n : Master} {P : State → Prop} (run : exec c s = .next (s.refuseBy n eRange 0 a))
        (leaves : P (s.refuseBy n eRange 0 a)) : Refuses c n s P := refuses_silently whole.regs run leaves
    have frame {n : Master} {e : Nat} : Only [.regs, .host, .mgr, .trace, .log] s (s.refuseBy n e 0 a) := State.refuseBy_only (Only.refl _ _) rfl
    refine ⟨fun odd => ?_, fun r plain => ?_, fun r plain => ?_, fun r plain => ?_, fun aligned low hole mine free => ?_, fun aligned low staged => ?_,
      fun aligned low live host page => ?_, fun aligned low live manager page => ?_, fun aligned high manager => ?_, fun aligned host log => ?_,
      fun aligned host free => ?_, fun aligned host code free => ?_, fun aligned host code held => ?_, fun off => ?_⟩
    · show execRegisterWrite m addr v s = _
      rw [execRegisterWrite, if_neg odd]
    · have run := plain_write (v := v) plain (by decide) up rfl
      rw [regTaken_rw plain.2.2.2.1] at run
      exact ⟨_, run, OneReg.of_regs (oneReg_setLv ok offOf_low) regs.symm, State.setLv_only (touched rfl) rfl⟩
    · have run := plain_write (v := v) plain (by decide) up rfl
      rw [regTaken_w1c plain.2.2.2.1] at run
      exact ⟨_, run, OneReg.of_regs (oneReg_onLv ok offOf_low) regs.symm, State.onLv_only (touched rfl) rfl⟩
    · have run := plain_write (v := v) plain (by decide) up rfl
      rw [regTaken_ro plain.2.2.2.1] at run
      exact ⟨_, run, trivial, touched rfl⟩
    · have live : accAt a ≠ some .st := by
        rw [accAt_of_hole hole]
        exact nofun
      have run : exec (.registerWrite m addr v) s = .next (s.touch m) := by
        rw [exec_registerWrite aligned, busWrite_register up low live mine, pairWrite_hole free hole]
      exact ⟨_, run, trivial, touched rfl⟩
    · rw [exec_registerWrite aligned, busWrite_staged up low staged]
      exact (if_pos ⟨low, staged⟩).symm
    · subst host
      exact refused (by rw [exec_registerWrite aligned, busWrite_hostMgmt up low live page]) (frame .cfg (by decide))
    · subst manager
      exact refused (by rw [exec_registerWrite aligned, busWrite_managerElsewhere up low live page]) (frame .cfg (by decide))
    · subst manager
      exact refused (by rw [exec_registerWrite aligned, busWrite_managerMemory up high]) (frame .mem (by decide))
    · subst host
      have high : 0x100000 ≤ a := by
        have win := of_decide_eq_true log
        omega
      exact refused (by rw [exec_registerWrite aligned, busWrite_hostMemory up high, memWrite_log log]) (frame .mem (by decide))
    · subst host
      exact stores_word whole (by rw [exec_registerWrite aligned, busWrite_hostMemory up free.1, memWrite_stores free])
    · subst host
      exact stores_word whole (by rw [exec_laneCodeWrite aligned code, busWrite_hostMemory up free.1, memWrite_stores free])
    · subst host
      exact refuses_silently whole.regs (by rw [exec_laneCodeWrite aligned code, busWrite_hostMemory up (isLaneCode_high code), memWrite_held code held])
        (frame .mem (by decide))
    · show execLaneCodeWrite m addr v s = _
      rw [execLaneCodeWrite, if_neg fun h => off.elim (fun odd => odd h.1) fun other => Bool.noConfusion (other.symm.trans h.2)]
  case pairs =>
    extract_lets +onlyGivenNames a p o mine
    have touched {fs : List Part} (sub : In [.host, .mgr] fs) : Only fs s (s.touch m) := Only.upd (Only.refl _ _) sub touch_frame
    have live {x : Acc} (acc : accAt a = some x) (ne : x ≠ .st) : accAt a ≠ some .st := fun h => ne (Option.some.inj (acc.symm.trans h))
    refine ⟨fun low pair => ?_, fun single => ?_, fun own pair acc => ?_, fun single => ?_, fun p0 p1 r r0 own pair row acc row0 acc0 => ?_, fun single => ?_⟩
    · have run : exec (.pairLowRead m addr) s = .next ((s.busRead m a).1.onMstr m fun x => { x with outData := [(s.busRead m a).2] }) :=
        if_pos (by rw [up, pair, decide_eq_true low]; rfl)
      rw [busRead_low low pair] at run
      refine ⟨_, run, ?_, State.onMstr_only (State.onMstr_only (touched rfl) rfl) rfl⟩
      beta_reduce
      rw [State.mstr_onMstr_same, State.mstr_onMstr_same, mstr_touch]
      exact ⟨rfl, rfl⟩
    · refine if_neg fun h => ?_
      rw [Bool.and_eq_true] at h
      exact Bool.noConfusion (single.symm.trans h.2)
    · have run : exec (.pairLowWrite m addr v) s = .next (s.busWrite m a v) := congrArg _ (if_pos ⟨own.1, pair⟩)
      rw [busWrite_register up own.1 (live acc (by decide)) own.2.1, pairWrite_low own.2.2 acc pair] at run
      refine ⟨_, run, ?_, State.onMstr_only (touched rfl) rfl⟩
      beta_reduce
      rw [State.mstr_onMstr_same, mstr_touch]
    · exact congrArg _ (if_neg fun h => Bool.noConfusion (single.symm.trans h.2))
    · have run : exec (.pairHighWrite m addr v) s = .next (s.busWrite m a v) := congrArg _ (if_pos ⟨own.1, pair⟩)
      have word : accAt a = some r.acc := accAt_of_row row
      rw [busWrite_register up own.1 (live word (by rw [acc]; decide)) own.2.1] at run
      obtain ⟨frame, high, held, none_, rest⟩ := pairHigh_leaves (m := m) (v := v) whole own.2.2 pair row acc row0 acc0
      exact ⟨_, run, ⟨high, held, none_, fun q n hn other => rest q n hn other⟩, frame⟩
    · exact congrArg _ (if_neg fun h => Bool.noConfusion (single.symm.trans h.2))

end Sys2Proof.Machine
end


section

/-! PROOF. Housekeeping rounds, trims and telemetry (R425 to R428, R431, R440). -/

namespace Sys2Proof.Machine

open Sys2Proof.Safety Sys2Proof.Claims

section

variable {s t : State} {ch : List Int} {l i src y z : Nat} {on : Bool} {r : HkRound}

/-! Levels. -/

theorem levelLimits_of_cfg (cfg : t.cfg = s.cfg) : levelLimits t.force l = levelLimits s.force l := by
  rw [levelLimits, force_staged cfg (by decide), force_staged cfg (by decide)]
  rfl

theorem levelHolds_of_cfg (cfg : t.cfg = s.cfg) : levelHolds t.force ch l = levelHolds s.force ch l := by
  rw [levelHolds, levelLimits_of_cfg cfg]
  rfl

theorem levelCalm_of_cfg (cfg : t.cfg = s.cfg) : levelCalm t.force ch l = levelCalm s.force ch l := by
  rw [levelCalm, levelLimits_of_cfg cfg, levelHolds_of_cfg cfg]
  rfl

theorem levelEntered_of_cfg (cfg : t.cfg = s.cfg) : levelEntered t.force ch = levelEntered s.force ch := by
  rw [levelEntered, levelHolds_of_cfg cfg, levelHolds_of_cfg cfg, levelHolds_of_cfg cfg]
  rfl

/-- The count of rounds, and how they are timed. -/
def HkSt.timing (h : HkSt) : Nat × Bool := (h.rounds, h.rcTimed)

theorem setLevel_timing {l : Level} : (s.setLevel l).hk.timing = s.hk.timing := by
  unfold State.setLevel
  dsimp only
  split
  · rfl
  · exact Eq.trans (congrArg HkSt.timing (State.logAdd_only (fs := [.regs, .trace, .log]) (s0 := s.onHk fun h => { h with level := l, calm := 0 })
      (State.event_only (Only.refl _ _) rfl) rfl .hk (by decide))) rfl

theorem levelStep_timing : (s.levelStep ch).hk.timing = s.hk.timing := by
  unfold State.levelStep
  dsimp only
  split
  · exact setLevel_timing
  · split
    · rfl
    · split
      · split
        · exact setLevel_timing
        · rfl
      · rfl

theorem levelStep_rises (h : s.hk.level.code < levelEntered s.force ch) : (s.levelStep ch).hk.level = levelOf (levelEntered s.force ch) := by
  unfold State.levelStep
  dsimp only
  rw [if_pos h]
  exact setLevel_level _

theorem levelStep_normal (h : s.hk.level.code = 0) (cool : levelEntered s.force ch = 0) : s.levelStep ch = s := by
  unfold State.levelStep
  dsimp only
  rw [if_neg (by omega), if_pos h]

theorem levelStep_falls (h : levelEntered s.force ch ≤ s.hk.level.code) (warm : 0 < s.hk.level.code) (calm : levelCalm s.force ch s.hk.level.code = true)
    (leaves : fld (s.force pgHk HK.THROTTLE_CFG) 31 16 ≤ s.hk.calm + 1) : (s.levelStep ch).hk.level = levelOf (levelEntered s.force ch) := by
  unfold State.levelStep
  dsimp only
  rw [if_neg (by omega), if_neg (by omega), if_pos calm, if_pos leaves]
  exact setLevel_level _

theorem levelStep_waits (h : levelEntered s.force ch ≤ s.hk.level.code) (warm : 0 < s.hk.level.code) (calm : levelCalm s.force ch s.hk.level.code = true)
    (stays : ¬ fld (s.force pgHk HK.THROTTLE_CFG) 31 16 ≤ s.hk.calm + 1) : s.levelStep ch = s.onHk fun h => { h with calm := s.hk.calm + 1 } := by
  unfold State.levelStep
  dsimp only
  rw [if_neg (by omega), if_neg (by omega), if_pos calm, if_neg stays]

theorem levelStep_stays (h : levelEntered s.force ch ≤ s.hk.level.code) (warm : 0 < s.hk.level.code) (hot : levelCalm s.force ch s.hk.level.code = false) :
    s.levelStep ch = s.onHk fun h => { h with calm := 0 } := by
  unfold State.levelStep
  dsimp only
  rw [if_neg (by omega), if_neg (by omega), if_neg (by rw [hot]; decide)]

/-! Sources that follow a condition. -/

theorem follow_on : (s.follow src on).srcOn src 16 = on := by
  unfold State.follow
  cases on with
  | true => exact raise_on
  | false => exact clearSrc_off

theorem follow_other (n : (y, z) ≠ (src, 16)) : (s.follow src on).srcOn y z = s.srcOn y z := by
  unfold State.follow
  split
  · exact raise_other n
  · exact clearSrc_ne n

theorem follow_only' : Only [.regs, .axes, .safety, .trace, .log] s (s.follow src on) := State.follow_only (Only.refl _ _) rfl

/-- Level, count, rounds and timing, which no sensor changes. -/
def HkSt.level_ (h : HkSt) : Level × Nat × Nat × Bool := (h.level, h.calm, h.rounds, h.rcTimed)

theorem sensorTest_level : (s.sensorTest ch i).hk.level_ = s.hk.level_ := by
  unfold State.sensorTest
  extract_lets off d g was counted
  split
  · exact Eq.trans (congrArg HkSt.level_ (State.pfault_only (fs := [.regs, .trace])
      (s0 := counted.onHk fun h => { h with excluded := h.excluded ||| BitVec.ofNat 4 (2 ^ i) }) (State.event_only (Only.refl _ _) rfl) rfl .hk
      (by decide))) rfl
  · split
    · rfl
    · rfl

theorem sensorCheck_level : (s.sensorCheck ch).hk.level_ = s.hk.level_ := by
  unfold State.sensorCheck
  split
  · rfl
  · exact (congrArg HkSt.level_ (follow_only' .hk (by decide))).trans
      (forN_ind (P := fun t => t.hk.level_ = s.hk.level_) (fun _ _ k => sensorTest_level.trans k) rfl)

/-- The sources of the levels and of the temperature. -/
def State.levelsFollowed (s : State) (ch : List Int) : State :=
  let hot := decide (2000 ≤ ch.getD 0 0)
  let t := (s.follow srcTempWarn (decide (1 ≤ s.hk.level.code))).follow srcTempThr (decide (2 ≤ s.hk.level.code))
  (if hot then t.pfault pgHk 1 else t).follow srcTjOver hot

theorem hkSources_eq : s.hkSources ch = if !s.up then s else
    (((s.levelsFollowed ch).supplyCheck ch).sensorCheck ch).setLv pgMgmt MGMT.SNAP_STATUS
      (((s.levelsFollowed ch).supplyCheck ch).sensorCheck ch).globalStatus := rfl

theorem levelsFollowed_only : Only [.regs, .axes, .safety, .trace, .log] s (s.levelsFollowed ch) := by
  have two {a b : Bool} : Only [.regs, .axes, .safety, .trace, .log] s ((s.follow srcTempWarn a).follow srcTempThr b) :=
    State.follow_only (State.follow_only (Only.refl _ _) rfl) rfl
  exact State.follow_only (only_ite (State.pfault_only two rfl) two) rfl

theorem hkSources_level : (s.hkSources ch).hk.level_ = s.hk.level_ := by
  rw [hkSources_eq]
  split
  · rfl
  · have supply : Only [.regs, .axes, .safety, .trace, .log] s ((s.levelsFollowed ch).supplyCheck ch) :=
      State.supplyCheck_only levelsFollowed_only rfl
    exact sensorCheck_level.trans (congrArg HkSt.level_ (supply .hk (by decide)))

/-- No supply or sensor touches the source y of the device. -/
theorem checks_other (supply : y ≠ srcSupply) (sensor : y ≠ srcHkSensor) : ((s.supplyCheck ch).sensorCheck ch).srcOn y 16 = s.srcOn y 16 := by
  have first : (s.supplyCheck ch).srcOn y 16 = s.srcOn y 16 := by
    unfold State.supplyCheck
    extract_lets bad noted
    rw [follow_other fun e => supply (congrArg Prod.fst e)]
    exact srcOn_only (only_ite (State.pfault_only (State.event_only (Only.refl [.regs, .trace] s) rfl) rfl) (Only.refl _ _)) (by decide)
  generalize s.supplyCheck ch = u at *
  refine Eq.trans ?_ first
  unfold State.sensorCheck
  split
  · rfl
  · rw [follow_other fun e => sensor (congrArg Prod.fst e)]
    refine forN_ind (P := fun t => t.srcOn y 16 = u.srcOn y 16) (fun i t k => ?_) rfl
    have test : Only [.regs, .trace, .hk] t (t.sensorTest ch i) := State.sensorTest_only (Only.refl _ _) rfl
    exact (srcOn_only test (by decide)).trans k

end

end Sys2Proof.Machine
end


section

/-! PROOF. The round of housekeeping as a whole (R425 to R428, R431). -/

namespace Sys2Proof.Machine

open Sys2Proof.Safety Sys2Proof.Claims

section

variable {s t : State} {ch : List Int} {r : HkRound}

/-- The state in which a round has ended and its channels are published. -/
def State.roundPublished (s : State) (r : HkRound) : State := s.roundEnd.hkPublish (s.hkChannels r)

/-- The state that a round below SHUTDOWN leaves. -/
def State.roundDone (s : State) (ch : List Int) : State := ((s.levelStep ch).hkSources ch).persRound

theorem roundEnd_free (rc : s.hk.rcTimed = true) : s.roundEnd = s.onHk fun h => { h with lastEnd := s.now, rcTimed := !s.time.pllLock } := by
  unfold State.roundEnd
  rw [rc]
  rfl

theorem roundEnd_timed (timed : s.hk.rcTimed = false) : s.roundEnd = (s.reach ((ceilDiv s.hk.lastEnd 256000 + 1) * 256000)).onHk fun h =>
    { h with lastEnd := (ceilDiv s.hk.lastEnd 256000 + 1) * 256000, rcTimed := !s.time.pllLock } := by
  unfold State.roundEnd
  rw [timed]
  rfl

theorem ended_leaves {x : Nat} {y : Bool} : let t := s.onHk fun h => { h with lastEnd := x, rcTimed := y }
    t.hk.rounds = s.hk.rounds ∧ t.hk.rcTimed = y ∧ t.hk.level = s.hk.level ∧ t.hk.calm = s.hk.calm ∧ t.time = s.time :=
  ⟨rfl, rfl, rfl, rfl, rfl⟩

theorem reached_leaves {d : Nat} : (s.reach d).hk = s.hk ∧ (s.reach d).time.tick = max s.time.tick d := ⟨rfl, rfl⟩

/-- The end of a round keeps what its channels are made from. -/
theorem channels_ended {x : Nat} {y : Bool} : (s.onHk fun h => { h with lastEnd := x, rcTimed := y }).hkChannels r = s.hkChannels r := rfl

theorem channels_reached {d : Nat} : (s.reach d).hkChannels r = s.hkChannels r := rfl

theorem roundEnd_channels : s.roundEnd.hkChannels r = s.hkChannels r := by
  cases rc : s.hk.rcTimed with
  | true => rw [roundEnd_free rc, channels_ended]
  | false => rw [roundEnd_timed rc, channels_ended, channels_reached]

theorem roundEnd_leaves : s.roundEnd.hk.rounds = s.hk.rounds ∧ s.roundEnd.hk.rcTimed = (!s.time.pllLock) ∧ s.roundEnd.hk.level = s.hk.level ∧
    s.roundEnd.hk.calm = s.hk.calm ∧
    (s.hk.rcTimed = false → s.roundEnd.time.tick = max s.time.tick ((ceilDiv s.hk.lastEnd 256000 + 1) * 256000)) := by
  cases rc : s.hk.rcTimed with
  | true =>
    rw [roundEnd_free rc]
    obtain ⟨rounds, timed, level, calm, -⟩ := ended_leaves (s := s) (x := s.now) (y := !s.time.pllLock)
    exact ⟨rounds, timed, level, calm, fun free => nomatch free⟩
  | false =>
    rw [roundEnd_timed rc]
    generalize (ceilDiv s.hk.lastEnd 256000 + 1) * 256000 = due
    obtain ⟨hk, tick⟩ := reached_leaves (s := s) (d := due)
    obtain ⟨rounds, timed, level, calm, time⟩ := ended_leaves (s := s.reach due) (x := due) (y := !s.time.pllLock)
    rw [hk] at rounds level calm
    exact ⟨rounds, timed, level, calm, fun _ => (congrArg TimeSt.tick time).trans tick⟩

/-- What is published beside the channels stays. -/
theorem hkPublish_leaves : (s.hkPublish ch).samples.hk = ch ∧ (s.hkPublish ch).hk.rounds = s.hk.rounds + 1 ∧
    (s.hkPublish ch).hk.rcTimed = s.hk.rcTimed ∧ (s.hkPublish ch).hk.level = s.hk.level ∧ (s.hkPublish ch).hk.calm = s.hk.calm ∧
    (s.hkPublish ch).time = s.time := ⟨rfl, rfl, rfl, rfl, rfl, rfl⟩

theorem exec_hkRoundEnd (on : s.power.phase ≠ .off) : exec (.hkRoundEnd r) s =
    if levelHolds (s.roundPublished r).force (s.hkChannels r) 3 then .next (s.roundPublished r).thermalShutdown
    else if (s.roundPublished r).power.thermLatch then .next (s.roundPublished r)
    else .next ((s.roundPublished r).roundDone (s.hkChannels r)) := by
  have awake : ¬ (!s.alwaysOn) = true := by simp [alwaysOn_of on]
  show execHkRoundEnd r s = _
  rw [execHkRoundEnd, if_neg awake]
  dsimp only
  rw [roundEnd_channels]
  unfold State.roundPublished State.roundDone
  rfl

theorem roundPublished_only : Only [.regs, .time, .hk, .samples] s (s.roundPublished r) :=
  State.hkPublish_only (State.roundEnd_only (Only.refl _ _) rfl) rfl

/-- What a round publishes, and how the next one is timed. -/
theorem roundPublished_leaves : (s.roundPublished r).samples.hk = s.hkChannels r ∧ (s.roundPublished r).hk.rounds = s.hk.rounds + 1 ∧
    (s.roundPublished r).hk.rcTimed = (!s.time.pllLock) ∧ (s.roundPublished r).hk.level = s.hk.level ∧ (s.roundPublished r).hk.calm = s.hk.calm ∧
    (s.hk.rcTimed = false → (s.roundPublished r).time.tick = max s.time.tick ((ceilDiv s.hk.lastEnd 256000 + 1) * 256000)) := by
  obtain ⟨channels, rounds, timed, level, calm, time⟩ := hkPublish_leaves (s := s.roundEnd) (ch := s.hkChannels r)
  obtain ⟨rounds', timed', level', calm', tick'⟩ := roundEnd_leaves (s := s)
  exact ⟨channels, rounds.trans (congrArg (· + 1) rounds'), timed.trans timed', level.trans level', calm.trans calm',
    fun free => (congrArg TimeSt.tick time).trans (tick' free)⟩

theorem latched_leaves : let t := s.onPower fun p => { p with thermLatch := true }
    t.power.thermLatch = true ∧ t.power.phase = s.power.phase ∧ t.power.removal = s.power.removal := ⟨rfl, rfl, rfl⟩

theorem thermalShutdown_leaves (on : s.power.phase ≠ .off) (cool : s.power.thermLatch = false) : let t := s.thermalShutdown
    t.power.thermLatch = true ∧ t.power.phase = .latched ∧ t.power.removal = true := by
  dsimp only
  rw [thermalShutdown_eq on cool]
  obtain ⟨phase, -, removal, -⟩ := coreReset_leaves (s := s.thermalEnded) (source := s.thermalEnded.power.source) (phase := .latched) (by decide)
  obtain ⟨latched, phaseStays, removalStays⟩ := latched_leaves (s := s.thermalEnded.coreReset s.thermalEnded.power.source .latched)
  exact ⟨latched, phaseStays.trans phase, removalStays.trans removal⟩

theorem roundDone_only : Only [.regs, .power, .axes, .drives, .mots, .timers, .safety, .trace, .hk, .log] s (s.roundDone ch) :=
  State.persRound_only (State.hkSources_only (State.levelStep_only (Only.refl _ _) rfl) rfl) rfl

theorem persRound_only' : Only [.regs, .power, .axes, .drives, .mots, .timers] s s.persRound := State.persRound_only (Only.refl _ _) rfl

/-- Level and counts stay from the level's step on. -/
theorem roundDone_level : (s.roundDone ch).hk.level_ = (s.levelStep ch).hk.level_ :=
  (congrArg HkSt.level_ (persRound_only' .hk (by decide))).trans hkSources_level

theorem roundDone_timing : (s.roundDone ch).hk.timing = s.hk.timing :=
  Eq.trans (congrArg (fun x => (x.2.2.1, x.2.2.2)) roundDone_level) levelStep_timing

/-- The sources of the levels and of the temperature follow the level and the hottest sensor. -/
theorem levelsFollowed_sources : (s.levelsFollowed ch).srcOn srcTempWarn 16 = decide (1 ≤ s.hk.level.code) ∧
    (s.levelsFollowed ch).srcOn srcTempThr 16 = decide (2 ≤ s.hk.level.code) ∧
    (s.levelsFollowed ch).srcOn srcTjOver 16 = decide (2000 ≤ ch.getD 0 0) := by
  have faulted (u : State) (y : Nat) : (if decide (2000 ≤ ch.getD 0 0) then u.pfault pgHk 1 else u).srcOn y 16 = u.srcOn y 16 :=
    srcOn_only (only_ite (State.pfault_only (Only.refl [.regs] u) rfl) (Only.refl _ _)) (by decide)
  unfold State.levelsFollowed
  dsimp only
  refine ⟨?_, ?_, follow_on⟩
  · rw [follow_other (by decide), faulted, follow_other (by decide), follow_on]
  · rw [follow_other (by decide), faulted, follow_on]

theorem roundDone_sources (up : s.up = true) (pers : s.power.persOn = false) : let t := s.roundDone ch
    (t.srcOn srcTempWarn 16 = true ↔ 1 ≤ t.hk.level.code) ∧ (t.srcOn srcTempThr 16 = true ↔ 2 ≤ t.hk.level.code) ∧
      (t.srcOn srcTjOver 16 = true ↔ 2000 ≤ ch.getD 0 0) := by
  intro t
  have level : t.hk.level = (s.levelStep ch).hk.level := congrArg Prod.fst (roundDone_level (s := s) (ch := ch))
  have stepped : Only [.regs, .trace, .hk, .log] s (s.levelStep ch) := State.levelStep_only (Only.refl _ _) rfl
  have power : (s.levelStep ch).power = s.power := stepped .power (by decide)
  have upStill : (s.levelStep ch).up = true := by rw [State.up, power]; exact up
  have sourcesOnly : Only [.regs, .axes, .safety, .trace, .hk, .log] (s.levelStep ch) ((s.levelStep ch).hkSources ch) :=
    State.hkSources_only (Only.refl _ _) rfl
  have power' : ((s.levelStep ch).hkSources ch).power = s.power := (sourcesOnly .power (by decide)).trans power
  have noRound : t = (s.levelStep ch).hkSources ch := by
    show State.persRound _ = _
    rw [State.persRound, power', pers]
    simp
  have followed {y : Nat} (supply : y ≠ srcSupply) (sensor : y ≠ srcHkSensor) : t.srcOn y 16 = ((s.levelStep ch).levelsFollowed ch).srcOn y 16 := by
    rw [noRound, hkSources_eq, if_neg (by rw [upStill]; decide)]
    exact (srcOn_only (State.setLv_only (Only.refl [.regs] _) rfl) (by decide)).trans (checks_other supply sensor)
  obtain ⟨warn, throttle, hot⟩ := levelsFollowed_sources (s := s.levelStep ch) (ch := ch)
  rw [followed (by decide) (by decide), followed (by decide) (by decide), followed (by decide) (by decide), warn, throttle, hot, level]
  simp only [decide_eq_true_eq, and_self]

/-- The level after a round below SHUTDOWN. -/
theorem roundDone_levels : let t := s.roundDone ch
    let old := s.hk.level.code
    let entered := levelEntered s.force ch
    let leaves := fld (s.cf pgHk HK.THROTTLE_CFG) 31 16 ≤ s.hk.calm + 1
    (old < entered → t.hk.level = levelOf entered) ∧ (old = 0 → entered = 0 → t.hk.level = .normal) ∧
      (entered ≤ old → 0 < old → levelCalm s.force ch old = true → leaves → t.hk.level = levelOf entered) ∧
      (entered ≤ old → 0 < old → levelCalm s.force ch old = true → ¬ leaves → t.hk.level = s.hk.level ∧ t.hk.calm = s.hk.calm + 1) ∧
      (entered ≤ old → 0 < old → levelCalm s.force ch old = false → t.hk.level = s.hk.level ∧ t.hk.calm = 0) := by
  intro t old entered leaves
  have level : t.hk.level = (s.levelStep ch).hk.level := congrArg Prod.fst (roundDone_level (s := s) (ch := ch))
  have calm : t.hk.calm = (s.levelStep ch).hk.calm := congrArg (fun x => x.2.1) (roundDone_level (s := s) (ch := ch))
  have force : s.force pgHk HK.THROTTLE_CFG = s.cf pgHk HK.THROTTLE_CFG := force_staged rfl (by decide)
  rw [level, calm]
  refine ⟨levelStep_rises, fun normal cool => ?_, fun le warm quiet l => ?_, fun le warm quiet l => ?_, fun le warm hot => ?_⟩
  · rw [levelStep_normal normal cool]
    revert normal
    simp only [old]
    cases s.hk.level <;> simp [Level.code]
  · exact levelStep_falls le warm quiet (by rw [force]; exact l)
  · rw [levelStep_waits le warm quiet (by rw [force]; exact l)]
    exact ⟨rfl, rfl⟩
  · rw [levelStep_stays le warm hot]
    exact ⟨rfl, rfl⟩

/-- R425 to R428, R431: the end of a round. -/
theorem hkRoundEnd_row (on : s.power.phase ≠ .off) :
    let ch := s.hkChannels r
    let old := s.hk.level.code
    let entered := levelEntered s.force ch
    let calm := levelCalm s.force ch old
    let leaves := fld (s.cf pgHk HK.THROTTLE_CFG) 31 16 ≤ s.hk.calm + 1
    (levelHolds s.force ch 3 = true → s.power.thermLatch = false → Answers (.hkRoundEnd r) s fun t =>
      t.power.thermLatch = true ∧ t.power.phase = .latched ∧ t.power.removal = true) ∧
    (levelHolds s.force ch 3 = false → s.power.thermLatch = false → Answers (.hkRoundEnd r) s fun t =>
      t.samples.hk = ch ∧ t.hk.rounds = s.hk.rounds + 1 ∧ t.hk.rcTimed = !s.time.pllLock ∧
        (s.hk.rcTimed = false → t.time.tick = max s.time.tick ((ceilDiv s.hk.lastEnd 256000 + 1) * 256000)) ∧
        (old < entered → t.hk.level = levelOf entered) ∧
        (old = 0 → entered = 0 → t.hk.level = .normal) ∧
        (entered ≤ old → 0 < old → calm = true → leaves → t.hk.level = levelOf entered) ∧
        (entered ≤ old → 0 < old → calm = true → ¬ leaves → t.hk.level = s.hk.level ∧ t.hk.calm = s.hk.calm + 1) ∧
        (entered ≤ old → 0 < old → calm = false → t.hk.level = s.hk.level ∧ t.hk.calm = 0) ∧
        (s.up = true → s.power.persOn = false →
          (t.srcOn srcTempWarn 16 = true ↔ 1 ≤ t.hk.level.code) ∧ (t.srcOn srcTempThr 16 = true ↔ 2 ≤ t.hk.level.code) ∧
            (t.srcOn srcTjOver 16 = true ↔ 2000 ≤ ch.getD 0 0))) := by
  intro ch old entered calm leaves
  have changed := roundPublished_only (s := s) (r := r)
  have cfg : (s.roundPublished r).cfg = s.cfg := changed .cfg (by decide)
  have power : (s.roundPublished r).power = s.power := changed .power (by decide)
  have run := exec_hkRoundEnd (r := r) on
  rw [levelHolds_of_cfg cfg, power] at run
  obtain ⟨channels, rounds, timed, level, calm_, tick⟩ := roundPublished_leaves (s := s) (r := r)
  constructor
  · intro hot cool
    rw [if_pos hot] at run
    exact ⟨_, run, thermalShutdown_leaves (by rw [power]; exact on) (by rw [power]; exact cool)⟩
  · intro cold cool
    rw [if_neg (by rw [cold]; decide), if_neg (by rw [cool]; decide)] at run
    have after := roundDone_only (s := s.roundPublished r) (ch := ch)
    have timing := roundDone_timing (s := s.roundPublished r) (ch := ch)
    have samples : ((s.roundPublished r).roundDone ch).samples = (s.roundPublished r).samples := after .samples (by decide)
    have time : ((s.roundPublished r).roundDone ch).time = (s.roundPublished r).time := after .time (by decide)
    have levels := roundDone_levels (s := s.roundPublished r) (ch := ch)
    have sources := roundDone_sources (s := s.roundPublished r) (ch := ch)
    have cf : (s.roundPublished r).cf pgHk HK.THROTTLE_CFG = s.cf pgHk HK.THROTTLE_CFG := by rw [State.cf, State.cf, cfg]
    dsimp only at levels sources
    rw [level, calm_, levelEntered_of_cfg cfg, levelCalm_of_cfg cfg, cf] at levels
    rw [State.up, power] at sources
    obtain ⟨rises, normal, falls, waits, stays⟩ := levels
    exact ⟨_, run, (congrArg (·.hk) samples).trans channels, (congrArg Prod.fst timing).trans rounds, (congrArg Prod.snd timing).trans timed,
      fun rc => (congrArg TimeSt.tick time).trans (tick rc), rises, normal, falls, waits, stays, sources⟩

end

end Sys2Proof.Machine
end


section

/-! PROOF. Trims, telemetry and the scraper (R432 to R434, R440). -/

namespace Sys2Proof.Machine

open Sys2Proof.Safety Sys2Proof.Claims

section

variable {s t : State} {I : State → Prop}

/-! Loops of which at most one turn acts. -/

theorem forL_idle {α : Type} {f : α → State → State} {l : List α} (idle : ∀ j ∈ l, ∀ t, I t → f j t = t) (start : I s) : forL l f s = s :=
  (forL_ind_mem (P := fun t => t = s) l (fun j mem t e => (idle j mem t (e ▸ start)).trans e) rfl)

theorem forL_alone {α : Type} {f : α → State → State} {i : α} {l : List α} (nodup : l.Nodup) (mem : i ∈ l)
    (idle : ∀ j ∈ l, j ≠ i → ∀ t, I t → f j t = t) (start : I s) (turn : I (f i s)) : forL l f s = f i s := by
  obtain ⟨first, rest, rfl⟩ := List.append_of_mem mem
  have split : forL (first ++ i :: rest) f s = forL rest f (f i (forL first f s)) := by simp [forL, List.foldl_append]
  have apart := (List.nodup_cons.mp (List.nodup_middle.mp nodup)).1
  have other (j : α) (hj : j ∈ first ++ rest) : ∀ t, I t → f j t = t :=
    idle j (List.mem_append.mpr ((List.mem_append.mp hj).imp_right (List.mem_cons_of_mem i))) fun e => apart (e ▸ hj)
  rw [split, forL_idle (fun j hj => other j (List.mem_append_left _ hj)) start, forL_idle (fun j hj => other j (List.mem_append_right _ hj)) turn]

theorem forN_idle {f : Nat → State → State} {n : Nat} (idle : ∀ j < n, ∀ t, I t → f j t = t) (start : I s) : forN n f s = s :=
  forL_idle (f := f) (fun j mem => idle j (List.mem_range.mp mem)) start

theorem forN_alone {f : Nat → State → State} {n i : Nat} (low : i < n) (idle : ∀ j < n, j ≠ i → ∀ t, I t → f j t = t) (start : I s)
    (turn : I (f i s)) : forN n f s = f i s :=
  forL_alone (f := f) List.nodup_range (List.mem_range.mpr low) (fun j mem => idle j (List.mem_range.mp mem)) start turn

end

section

variable {s t : State} {n d : Nat} {w : Word}

/-! Telemetry. -/

/-- Record n of a telemetry turn. -/
def State.teleTurn (s : State) (w : Word) (n : Nat) : State :=
  if !bt w n then s
  else if s.bgOn 5 then s.bilvaSend (fld w 8 8) 6 0x30 n (s.teleData n) none
  else s.inc16 pgHk HK.TELE_SKIPPED

/-- The next turn of telemetry is set. -/
def State.teleNext (s : State) (d : Nat) : State :=
  ((s.reach d).stopT .telemetry).startT .telemetry (d + msT (fld (s.cf pgHk HK.TELE_CFG) 31 16))

theorem exec_telemetrySend (due : s.due .telemetry = some d) :
    exec .telemetrySend s = .next (forN 4 (fun n t => t.teleTurn (s.cf pgHk HK.TELE_CFG) n) (s.teleNext d)) := by
  show execTelemetrySend s = _
  unfold execTelemetrySend
  rw [due]
  dsimp only
  rw [State.expire_due due]
  rfl

theorem teleTurn_only : Only [.regs, .cans] s (s.teleTurn w n) :=
  only_ite (Only.refl _ _) (only_ite (State.bilvaSend_only (Only.refl _ _) rfl) (State.inc16_only (Only.refl _ _) rfl))

theorem teleTurn_idle (off : bt w n = false) : s.teleTurn w n = s := by
  rw [State.teleTurn, if_pos (by rw [off]; decide)]

theorem teleTurn_sends (on : bt w n = true) (free : s.bgOn 5 = true) : s.teleTurn w n = s.bilvaSend (fld w 8 8) 6 0x30 n (s.teleData n) none := by
  rw [State.teleTurn, if_neg (by rw [on]; decide), if_pos free]

theorem teleTurn_skips (on : bt w n = true) (held : s.bgOn 5 = false) : s.teleTurn w n = s.inc16 pgHk HK.TELE_SKIPPED := by
  rw [State.teleTurn, if_neg (by rw [on]; decide), if_neg (by rw [held]; decide)]

theorem teleNext_only : Only [.time, .timers] s (s.teleNext d) := State.startT_only expired_only rfl

theorem teleNext_whole (whole : Whole s) : Whole (s.teleNext d) := (State.startT_kept (Kept.refl _)).whole (expired_whole whole)

theorem viewPage_safe {o : Nat} : s.viewPage pgSafe o = s.viewSafe o := by
  rw [State.viewPage, if_neg (by decide), if_neg (by decide), if_neg (by decide), if_neg (by decide), if_pos rfl]

/-- A rendered register reads as its page shows it. -/
theorem regRead_shown {p o p0 : Nat} {r : RegRow} {v : Word} (row : rowAt p o = some (p0, r)) (acc : r.acc = .ro)
    (plain : o < 0x900 ∧ o ≠ pageId ∧ o ≠ pageStage) (shown : s.viewPage p o = some v) : s.regRead p o = v := by
  obtain ⟨low, id, stage⟩ := plain
  rw [State.regRead, if_neg (by omega), row]
  dsimp only
  rw [if_neg id, if_neg stage, acc]
  dsimp only
  rw [shown]
  rfl

theorem regRead_src0 : s.regRead pgSafe SAFE.SRC_ACTIVE0 = s.srcWord 0 := by
  obtain ⟨p0, r, row, acc⟩ : ∃ p0 r, rowAt pgSafe SAFE.SRC_ACTIVE0 = some (p0, r) ∧ r.acc = .ro := ⟨_, _, rfl, rfl⟩
  exact regRead_shown row acc (by decide) viewPage_safe

theorem regRead_src1 : s.regRead pgSafe SAFE.SRC_ACTIVE1 = s.srcWord 1 := by
  obtain ⟨p0, r, row, acc⟩ : ∃ p0 r, rowAt pgSafe SAFE.SRC_ACTIVE1 = some (p0, r) ∧ r.acc = .ro := ⟨_, _, rfl, rfl⟩
  exact regRead_shown row acc (by decide) viewPage_safe

/-- No deadline is part of a telemetry record. -/
theorem teleData_timers {x : List (Timer × Nat)} : ({ s with timers := x } : State).teleData n = s.teleData n := by
  have status : ({ s with timers := x } : State).globalStatus = s.globalStatus := rfl
  have sources (k : Nat) : ({ s with timers := x } : State).srcWord k = s.srcWord k := rfl
  have words (a k : Nat) : ({ s with timers := x } : State).wordsAt a k = s.wordsAt a k := rfl
  have channel : ({ s with timers := x } : State).teleCh = s.teleCh := rfl
  unfold State.teleData
  rw [regRead_src0, regRead_src1, regRead_src0, regRead_src1, status, sources, sources, channel, words]
  rfl

theorem teleNext_data : (s.teleNext d).teleData n = (s.reach d).teleData n := by
  have only : s.teleNext d = { s.reach d with timers := (s.teleNext d).timers } := rfl
  exact (congrArg (State.teleData · n) only).trans teleData_timers

theorem telemetrySend_row (whole : Whole s) (due : s.due .telemetry = some d) :
    let w := s.cf pgHk HK.TELE_CFG
    Does .telemetrySend s [.regs, .time, .cans, .timers] fun t =>
      t.time = { s.time with tick := max s.time.tick d } ∧ t.due .telemetry = some (d + msT (fld w 31 16)) ∧
        ((∀ n < 4, bt w n = false) → t.regs = s.regs ∧ t.cans = s.cans) ∧
        (∀ n < 4, (∀ k < 4, bt w k = true ↔ k = n) → s.bgOn 5 = true → Queues s (fld w 8 8) 0x30 n ((s.reach d).teleData n) t) ∧
        (∀ n < 4, (∀ k < 4, bt w k = true ↔ k = n) → s.bgOn 5 = false → OneReg s pgHk HK.TELE_SKIPPED countUp t) := by
  intro w
  have turns : Only [.regs, .cans] (s.teleNext d) (forN 4 (fun n t => t.teleTurn w n) (s.teleNext d)) :=
    forN_only (fun _ _ k => Only.upd k rfl teleTurn_only) (Only.refl _ _)
  have next := teleNext_only (s := s) (d := d)
  have regs : (s.teleNext d).regs = s.regs := next .regs (by decide)
  have cans : (s.teleNext d).cans = s.cans := next .cans (by decide)
  have time : (forN 4 (fun n t => t.teleTurn w n) (s.teleNext d)).time = (s.teleNext d).time := turns .time (by decide)
  have free : (s.teleNext d).bgOn 5 = s.bgOn 5 := bgOn_only next (by decide) (by decide) (by decide) (lv_of_regs regs)
  have single {n : Nat} (low : n < 4) (only : ∀ k < 4, bt w k = true ↔ k = n) :
      forN 4 (fun n t => t.teleTurn w n) (s.teleNext d) = (s.teleNext d).teleTurn w n :=
    forN_alone (I := fun _ => True) low (fun j hj ne t _ => teleTurn_idle (Bool.eq_false_iff.mpr fun on => ne ((only j hj).mp on))) trivial trivial
  refine ⟨_, exec_telemetrySend due, ⟨time, ?_, fun none => ?_, fun n low only on => ?_, fun n low only held => ?_⟩,
    Only.upd (Only.upd (Only.refl _ _) rfl next) rfl turns⟩
  · exact (due_only turns (by decide)).trans State.due_startT_same
  · rw [forN_idle (I := fun _ => True) (fun j hj t _ => teleTurn_idle (none j hj)) trivial]
    exact ⟨regs, cans⟩
  · rw [single low only, teleTurn_sends ((only n low).mpr rfl) (free.trans on), teleNext_data]
    have sent : Queues (s.teleNext d) (fld w 8 8) 0x30 n ((s.reach d).teleData n)
        ((s.teleNext d).bilvaSend (fld w 8 8) 6 0x30 n ((s.reach d).teleData n) none) :=
      bilvaSend_queues (teleNext_whole whole) (Nat.mod_lt _ (by decide)) (by decide) (by omega)
    exact Queues.congr sent (cn_only next (by decide)).symm (next .cfg (by decide)).symm rfl
  · rw [single low only, teleTurn_skips ((only n low).mpr rfl) (free.trans held)]
    exact OneReg.of_regs (oneReg_inc16 (s := s.teleNext d) (teleNext_whole whole).regs (by decide)) regs.symm

/-! Trims. -/

theorem ainTrimUpdate_row {conv : Fin 2} {offset gain : Int} :
    (s.up = true → s.bgOn 2 = true → Does (.ainTrimUpdate conv offset gain) s [.hk] fun t => t.hk = { s.hk with
      ainNew := s.hk.ainNew.set conv.val (some
        (clampI (s.hk.ainOfs.getD conv.val 0 - 2) (s.hk.ainOfs.getD conv.val 0 + 2) offset,
         clampI (s.hk.ainGain.getD conv.val 0 - 2) (s.hk.ainGain.getD conv.val 0 + 2) gain)) }) ∧
    (s.up = false ∨ s.bgOn 2 = false → exec (.ainTrimUpdate conv offset gain) s = .next s) := by
  constructor
  · intro up on
    have run : exec (.ainTrimUpdate conv offset gain) s = _ := if_neg (by simp [up, on])
    exact ⟨_, run, rfl, State.onHk_only (Only.refl _ _) rfl⟩
  · intro held
    have still : (!s.up || !s.bgOn 2) = true := by simpa using held
    exact if_pos still

end

end Sys2Proof.Machine
end


section

/-! PROOF. The scraper (R432, R433). -/

namespace Sys2Proof.Machine

open Sys2Proof.Safety Sys2Proof.Claims

section

variable {s t : State} {a b x i j step region : Nat} {ce ue : BitVec 16}

/-- Words of a pass are aligned; those of plate memory and the lane stores lie below the trace buffer. -/
theorem scrubWord_place : (scrubWord i).1 % 4 = 0 ∧ (scrubWord i).2 < 4 ∧ ((scrubWord i).2 < 2 → (scrubWord i).1 < 0x200000) ∧
    (2 ≤ (scrubWord i).2 → 0x200000 ≤ (scrubWord i).1) := by
  unfold scrubWord
  split_ifs <;> dsimp only <;> omega

/-! An uncorrectable word. -/

/-- An uncorrectable word is counted, shown and logged. -/
def State.eccNoted (s : State) (a region : Nat) : State :=
  (((s.eccCount HK.ECC_UE region).setLv pgHk HK.ECC_LAST (nw (2 ^ 31 + a))).event pgHk 8).logAdd 13
    (if region = 0 then clsDevice else clsWarn) 0 region (nw (2 ^ 31 + a))

/-- A word stays marked. -/
def State.eccMarked (s : State) (a : Nat) : State := { s with eccBad := if s.eccBad.contains a then s.eccBad else a :: s.eccBad }

theorem eccBroken_eq : s.eccBroken a region =
    if region = 0 then (((s.eccNoted a region).eccMarked a).pfault pgHk 2).raisePulse srcEcc 16
    else if region = 1 then ((s.eccNoted a region).eccMarked a).laneFault ((a - 0x180000) / 0x8000) 8 none
    else (s.eccNoted a region).putWord a 0 := rfl

theorem eccNoted_only : Only [.regs, .trace, .log] s (s.eccNoted a region) :=
  State.logAdd_only (State.event_only (State.setLv_only (State.eccCount_only (Only.refl _ _) rfl) rfl) rfl) rfl

theorem eccMarked_contains : (s.eccMarked a).eccBad.contains a = true ∧
    (s.eccBad.contains x = true → (s.eccMarked a).eccBad.contains x = true) := by
  unfold State.eccMarked
  dsimp only
  split
  case isTrue already => exact ⟨already, id⟩
  case isFalse => exact ⟨by simp, fun h => by simp at h ⊢; exact .inr h⟩

/-- In plate memory and in a lane store the word stays marked, and no memory changes. -/
theorem eccBroken_low (low : region < 2) : (s.eccBroken a region).mem = s.mem ∧ (s.eccBroken a region).eccBad = (s.eccMarked a).eccBad := by
  have noted := eccNoted_only (s := s) (a := a) (region := region)
  have mem : (s.eccNoted a region).mem = s.mem := noted .mem (by decide)
  have bad : (s.eccNoted a region).eccBad = s.eccBad := noted .eccBad (by decide)
  have marked : ((s.eccNoted a region).eccMarked a).eccBad = (s.eccMarked a).eccBad := by rw [State.eccMarked, State.eccMarked, bad]
  have told : Only [.regs, .stage, .axes, .fbs, .mots, .legs, .lanes, .cans, .dos, .safety, .trace, .log, .chans, .timers]
      ((s.eccNoted a region).eccMarked a) (s.eccBroken a region) := by
    rw [eccBroken_eq]
    obtain rfl | rfl : region = 0 ∨ region = 1 := by omega
    · rw [if_pos rfl]
      exact State.raisePulse_only (State.pfault_only (Only.refl _ _) rfl) rfl
    · rw [if_neg (by decide), if_pos rfl]
      exact State.laneFault_only (Only.refl _ _) rfl
  exact ⟨(told .mem (by decide)).trans mem, (told .eccBad (by decide)).trans marked⟩

/-- In the trace buffer and in message memory the word is written as 0. -/
theorem eccBroken_high (high : 2 ≤ region) : s.eccBroken a region = (s.eccNoted a region).putWord a 0 := by
  rw [eccBroken_eq, if_neg (by omega), if_neg (by omega)]

theorem putWord_contains {w : Word} (n : x ≠ a) (h : s.eccBad.contains x = true) : (s.putWord a w).eccBad.contains x = true := by
  have mem := List.contains_iff_mem.mp h
  exact List.contains_iff_mem.mpr (List.mem_filter.mpr ⟨mem, by simpa using n⟩)

/-- A marked word below the trace buffer stays marked. -/
theorem eccBroken_contains (place : region < 2 ∨ x < a) (h : s.eccBad.contains x = true) : (s.eccBroken a region).eccBad.contains x = true := by
  by_cases low : region < 2
  · rw [(eccBroken_low low).2]
    exact eccMarked_contains.2 h
  · rw [eccBroken_high (by omega)]
    have bad : (s.eccNoted a region).eccBad = s.eccBad := eccNoted_only .eccBad (by decide)
    exact putWord_contains (by omega) (by rw [bad]; exact h)

/-- A word that reads 0 still does when another aligned word is broken. -/
theorem eccBroken_zero (ok : MemoryOk s) (aligned : a % 4 = 0) (aligned' : x % 4 = 0) (h : s.wordAt x = 0) :
    (s.eccBroken a region).wordAt x = 0 := by
  by_cases low : region < 2
  · rw [wordAt_of_mem (eccBroken_low low).1, h]
  · rw [eccBroken_high (by omega)]
    have mem : (s.eccNoted a region).mem = s.mem := eccNoted_only .mem (by decide)
    have ok' : MemoryOk (s.eccNoted a region) := by rw [MemoryOk, mem]; exact ok
    by_cases same : x = a
    · rw [same, wordAt_putWord_same ok']
    · rw [wordAt_putWord_ne ok' (by omega), wordAt_of_mem mem, h]

/-! A turn. -/

theorem scrubOne_eq : s.scrubOne step ce ue i =
    if ue.getLsbD i || s.eccBad.contains (scrubWord (16 * step + i)).1 then
      s.eccBroken (scrubWord (16 * step + i)).1 (scrubWord (16 * step + i)).2
    else if ce.getLsbD i then s.eccFixed (scrubWord (16 * step + i)).1 (scrubWord (16 * step + i)).2
    else s := rfl

theorem scrubOne_broken (bad : ue.getLsbD i = true) :
    s.scrubOne step ce ue i = s.eccBroken (scrubWord (16 * step + i)).1 (scrubWord (16 * step + i)).2 := by
  rw [scrubOne_eq, if_pos (by rw [bad]; rfl)]

theorem scrubOne_fixed (ce1 : ce.getLsbD i = true) (good : s.eccBad.contains (scrubWord (16 * step + i)).1 = false) :
    s.scrubOne step ce 0 i = s.eccFixed (scrubWord (16 * step + i)).1 (scrubWord (16 * step + i)).2 := by
  rw [scrubOne_eq, if_neg (by rw [good]; simp), if_pos ce1]

theorem scrubOne_idle (ce0 : ce.getLsbD i = false) (good : s.eccBad.contains (scrubWord (16 * step + i)).1 = false) :
    s.scrubOne step ce 0 i = s := by
  rw [scrubOne_eq, if_neg (by rw [good]; simp), if_neg (by rw [ce0]; decide)]

theorem eccFixed_only' : Only [.regs, .trace] s (s.eccFixed a region) := State.eccFixed_only (Only.refl _ _) rfl

theorem scrubOne_contains (low : x < 0x200000) (h : s.eccBad.contains x = true) : (s.scrubOne step ce ue i).eccBad.contains x = true := by
  obtain ⟨-, -, -, high⟩ := scrubWord_place (i := 16 * step + i)
  have fixed : (s.eccFixed (scrubWord (16 * step + i)).1 (scrubWord (16 * step + i)).2).eccBad = s.eccBad := eccFixed_only' .eccBad (by decide)
  rw [scrubOne_eq]
  split
  · refine eccBroken_contains ?_ h
    by_cases region : (scrubWord (16 * step + i)).2 < 2
    · exact .inl region
    · exact .inr (by have := high (by omega); omega)
  · split
    · rw [fixed]
      exact h
    · exact h

theorem scrubOne_zero (ok : MemoryOk s) (aligned : x % 4 = 0) (h : s.wordAt x = 0) : (s.scrubOne step ce ue i).wordAt x = 0 := by
  have fixed : (s.eccFixed (scrubWord (16 * step + i)).1 (scrubWord (16 * step + i)).2).mem = s.mem := eccFixed_only' .mem (by decide)
  rw [scrubOne_eq]
  split
  · exact eccBroken_zero ok scrubWord_place.1 aligned h
  · split
    · rw [wordAt_of_mem fixed, h]
    · exact h

theorem scrubOne_whole (whole : Whole s) : Whole (s.scrubOne step ce ue i) := (State.scrubOne_kept (Kept.refl _)).whole whole

/-! A step. -/

/-- The sixteen words of a step. -/
def State.scrubbed (s : State) (step : Nat) (ce ue : BitVec 16) : State := forN 16 (fun i s => s.scrubOne step ce ue i) s

theorem scrubbed_whole (whole : Whole s) : Whole (s.scrubbed step ce ue) := forN_ind (fun _ _ => scrubOne_whole) whole

theorem scrubbed_marks (low : i < 16) (bad : ue.getLsbD i = true) (region : (scrubWord (16 * step + i)).2 < 2) :
    (s.scrubbed step ce ue).eccBad.contains (scrubWord (16 * step + i)).1 = true := by
  obtain ⟨-, -, below, -⟩ := scrubWord_place (i := 16 * step + i)
  refine forN_once (I := fun _ => True) (P := fun t => t.eccBad.contains (scrubWord (16 * step + i)).1 = true) low (fun _ _ _ _ => trivial)
    (fun t _ => ?_) (fun _ _ _ => scrubOne_contains (below region)) trivial
  rw [scrubOne_broken bad, (eccBroken_low region).2]
  exact (eccMarked_contains (x := 0)).1

theorem scrubbed_zeroes (whole : Whole s) (low : i < 16) (bad : ue.getLsbD i = true) (region : 2 ≤ (scrubWord (16 * step + i)).2) :
    (s.scrubbed step ce ue).wordAt (scrubWord (16 * step + i)).1 = 0 := by
  have result : Whole (s.scrubbed step ce ue) ∧ (s.scrubbed step ce ue).wordAt (scrubWord (16 * step + i)).1 = 0 := by
    refine forN_once (I := Whole) (P := fun t => Whole t ∧ t.wordAt (scrubWord (16 * step + i)).1 = 0) low (fun _ _ _ => scrubOne_whole)
      (fun t k => ⟨scrubOne_whole k, ?_⟩) (fun _ _ _ k => ⟨scrubOne_whole k.1, scrubOne_zero k.1.mem scrubWord_place.1 k.2⟩) whole
    have mem : (t.eccNoted (scrubWord (16 * step + i)).1 (scrubWord (16 * step + i)).2).mem = t.mem := eccNoted_only .mem (by decide)
    rw [scrubOne_broken bad, eccBroken_high region, wordAt_putWord_same (by rw [MemoryOk, mem]; exact k.mem)]
  exact result.2

theorem scrubbed_idle (good : ∀ j < 16, s.eccBad.contains (scrubWord (16 * step + j)).1 = false) : s.scrubbed step 0 0 = s :=
  forN_idle (I := fun t => t.eccBad = s.eccBad) (fun j hj t k => scrubOne_idle (by simp) (by rw [k]; exact good j hj)) rfl

theorem scrubbed_single (low : i < 16) (good : ∀ j < 16, s.eccBad.contains (scrubWord (16 * step + j)).1 = false) :
    s.scrubbed step (BitVec.ofNat 16 (2 ^ i)) 0 = s.eccFixed (scrubWord (16 * step + i)).1 (scrubWord (16 * step + i)).2 := by
  have bit (j : Nat) (hj : j < 16) : (BitVec.ofNat 16 (2 ^ i)).getLsbD j = decide (i = j) := by
    rw [BitVec.getLsbD_ofNat, Nat.testBit_two_pow]
    simp [hj]
  have turn : s.scrubOne step (BitVec.ofNat 16 (2 ^ i)) 0 i = s.eccFixed (scrubWord (16 * step + i)).1 (scrubWord (16 * step + i)).2 :=
    scrubOne_fixed (by rw [bit i low]; simp) (good i low)
  refine (forN_alone (I := fun t => t.eccBad = s.eccBad) low (fun j hj ne t k => scrubOne_idle ?_ (by rw [k]; exact good j hj)) rfl ?_).trans turn
  · rw [bit j hj]
    simpa using Ne.symm ne
  · rw [turn]
    exact eccFixed_only' .eccBad (by decide)

/-- The step after w. -/
def scrubNext (w : Word) : Word :=
  if fld w 15 0 = 24063 then nw ((fld w 31 16 + 1) % 65536 * 65536) else nw (fld w 31 16 * 65536 + fld w 15 0 + 1)

theorem exec_scrubStep (up : s.up = true) : exec (.scrubStep ce ue) s =
    .next ((s.scrubbed (fld (s.lv pgHk HK.SCRUB_STATUS) 15 0) ce ue).setLv pgHk HK.SCRUB_STATUS (scrubNext (s.lv pgHk HK.SCRUB_STATUS))) := by
  have run : exec (.scrubStep ce ue) s = _ := if_neg (by simp [up])
  exact run

/-- A corrected word is counted and shown. -/
theorem eccFixed_leaves (ok : MapOk s.regs) (small : region < 4) : let t := s.eccFixed a region
    fld (t.lv pgHk HK.ECC_CE) (8 * region + 7) (8 * region) = min (fld (s.lv pgHk HK.ECC_CE) (8 * region + 7) (8 * region) + 1) 0xFF ∧
      t.lv pgHk HK.ECC_LAST = nw a ∧ Flagged t pgHk 2 ∧ MapOk t.regs := by
  intro t
  have counted : Reads pgHk HK.ECC_CE (putFld (s.lv pgHk HK.ECC_CE) (8 * region + 7) (8 * region)
      (min (fld (s.lv pgHk HK.ECC_CE) (8 * region + 7) (8 * region) + 1) 0xFF)) (s.eccCount HK.ECC_CE region) := reads_setLv ok
  have shown : Reads pgHk HK.ECC_LAST (nw a) t := (reads_setLv counted.1).event (by decide)
  have count : Reads pgHk HK.ECC_CE _ t := (counted.setLv_ne (by decide)).event (by decide)
  obtain ⟨-, flagged⟩ := event_flags (s := (s.eccCount HK.ECC_CE region).setLv pgHk HK.ECC_LAST (nw a)) (p := pgHk) (bits := 4) (i := 2)
    (MapOk.set counted.1) (by decide)
  refine ⟨?_, shown.2, flagged, shown.1⟩
  rw [count.2]
  refine fld_putFld_same (by omega) (by omega) ?_
  rw [show 8 * region + 7 + 1 - 8 * region = 8 by omega]
  omega

/-- R432, R433: a step of the scraper. -/
theorem scrubStep_row (whole : Whole s) (up : s.up = true) :
    let w := s.lv pgHk HK.SCRUB_STATUS
    let step := fld w 15 0
    let at_ := fun i : Nat => scrubWord (16 * step + i)
    let next := if step = 24063 then nw ((fld w 31 16 + 1) % 65536 * 65536) else nw (fld w 31 16 * 65536 + step + 1)
    let known := ∃ i < 16, s.eccBad.contains (at_ i).1 = true
    (Does (.scrubStep ce ue) s [.regs, .mem, .eccBad, .stage, .axes, .fbs, .mots, .legs, .lanes, .cans, .dos, .safety, .trace, .log,
        .chans, .timers] fun t => t.lv pgHk HK.SCRUB_STATUS = next ∧
      (∀ i < 16, ue.getLsbD i = true → (at_ i).2 < 2 → t.eccBad.contains (at_ i).1 = true) ∧
      (∀ i < 16, ue.getLsbD i = true → 2 ≤ (at_ i).2 → t.wordAt (at_ i).1 = 0)) ∧
    (ce = 0 → ue = 0 → ¬ known → Does (.scrubStep ce ue) s [.regs] (OneReg s pgHk HK.SCRUB_STATUS fun _ => next)) ∧
    (∀ i < 16, ce = BitVec.ofNat 16 (2 ^ i) → ue = 0 → ¬ known → Does (.scrubStep ce ue) s [.regs, .trace] fun t =>
      let h := 8 * (at_ i).2
      fld (t.lv pgHk HK.ECC_CE) (h + 7) h = min (fld (s.lv pgHk HK.ECC_CE) (h + 7) h + 1) 0xFF ∧
        t.lv pgHk HK.ECC_LAST = nw (at_ i).1 ∧ Flagged t pgHk 2) := by
  intro w step at_ next known
  have run := exec_scrubStep (ce := ce) (ue := ue) up
  have good (unknown : ¬ known) (j : Nat) (hj : j < 16) : s.eccBad.contains (scrubWord (16 * step + j)).1 = false :=
    Bool.eq_false_iff.mpr fun bad => unknown ⟨j, hj, bad⟩
  refine ⟨⟨_, run, ⟨State.lv_setLv_same (scrubbed_whole whole).regs, fun i low bad region => ?_, fun i low bad region => ?_⟩, ?_⟩,
    fun hce hue unknown => ?_, fun i low hce hue unknown => ?_⟩
  · exact scrubbed_marks low bad region
  · exact (wordAt_of_mem rfl).trans (scrubbed_zeroes whole low bad region)
  · exact State.setLv_only (forN_only (fun _ _ k => State.scrubOne_only k rfl) (Only.refl _ _)) rfl
  · subst hce hue
    rw [scrubbed_idle (good unknown)] at run
    exact ⟨_, run, oneReg_setLv whole.regs (by decide), State.setLv_only (Only.refl _ _) rfl⟩
  · subst hce hue
    rw [scrubbed_single low (good unknown)] at run
    obtain ⟨count, shown, flagged, ok⟩ := eccFixed_leaves (a := (at_ i).1) whole.regs (scrubWord_place (i := 16 * step + i)).2.1
    have stays {p o : Nat} (n : regAddr p o ≠ regAddr pgHk HK.SCRUB_STATUS) :
        ((s.eccFixed (at_ i).1 (at_ i).2).setLv pgHk HK.SCRUB_STATUS (scrubNext w)).lv p o = (s.eccFixed (at_ i).1 (at_ i).2).lv p o :=
      State.lv_setLv_ne ok n
    refine ⟨_, run, ⟨?_, ?_, ?_⟩, State.setLv_only eccFixed_only' rfl⟩
    · exact (congrArg (fld · _ _) (stays (by decide))).trans count
    · exact (stays (by decide)).trans shown
    · exact (congrArg (bt · 2) (stays (by decide))).trans flagged

end

/-- Settles O59: what a round publishes and how its level moves, a trim, the turns of telemetry, and a step of the scraper. -/
theorem housekeepingAndScraper : Obligations.HousekeepingAndScraper :=
  ⟨⟨fun _ _ _ on => hkRoundEnd_row on, fun _ _ _ _ _ => ainTrimUpdate_row, fun _ _ whole due => telemetrySend_row whole due⟩,
    fun _ _ _ whole up => scrubStep_row whole up⟩

end Sys2Proof.Machine
end


section

/-! PROOF. Entries of the impression log (R435 to R437, R441). -/

namespace Sys2Proof.Machine

open Sys2Proof.Safety Sys2Proof.Claims

section

variable {s t u : State} {a j k n src type part w : Nat} {ok : Bool}

/-! What is told leaves the log's place, and joins the end of its queue. -/

/-- The log beside its queue and the count of lost entries. -/
def LogSt.place (g : LogSt) : Nat × Nat × Bool × List Nat × List (List Word) × Nat := (g.head, g.slot, g.opened, g.image, g.saving, g.boot)

/-- From s to t entries have joined the queue, and nothing else of the log has changed but the count of lost ones. -/
def Grew (s t : State) : Prop := t.log.place = s.log.place ∧ ∃ more, t.log.queue = s.log.queue ++ more

theorem Grew.refl : Grew s s := ⟨rfl, [], (List.append_nil _).symm⟩

theorem Grew.trans (h : Grew s t) (k : Grew t u) : Grew s u := by
  obtain ⟨place, more, queue⟩ := h
  obtain ⟨place', more', queue'⟩ := k
  exact ⟨place'.trans place, more ++ more', by rw [queue', queue, List.append_assoc]⟩

theorem Grew.only {fs : List Part} (h : Only fs s t) (out : .log ∉ fs) : Grew s t := by
  have log : t.log = s.log := h .log out
  exact ⟨congrArg LogSt.place log, [], by rw [log, List.append_nil]⟩

theorem grew_logAdd {kind cls m code : Nat} {d : Word} (plain : kind ≠ 8) : Grew s (s.logAdd kind cls m code d) := by
  unfold State.logAdd
  extract_lets e
  rw [if_neg plain]
  split
  · exact ⟨rfl, [e], rfl⟩
  · have lost : Grew s (s.onLog fun g => { g with lostSince := g.lostSince + 1 }) := ⟨rfl, [], (List.append_nil _).symm⟩
    exact lost.trans (Grew.only (State.event_only (State.inc16_only (Only.refl [.regs, .trace] _) rfl) rfl) (by decide))

theorem grew_raise : Grew s (s.raise src a) := by
  have noted : Grew s (s.noteSrc src a 0) :=
    ((Grew.only (State.onSafe_only (Only.refl [.safety] s) rfl) (by decide)).trans (grew_logAdd (by decide))).trans
      (Grew.only (State.event_only (Only.refl [.regs, .trace] _) rfl) (by decide))
  unfold State.raise
  split
  · exact Grew.refl
  · refine forL_ind (P := Grew s) (fun b t k => ?_) _ noted
    split
    · exact k
    · exact k.trans (Grew.only (State.pushReact_only (Only.refl [.axes] _) rfl) (by decide))

theorem grew_logFail : Grew s s.logFail :=
  ((Grew.only (State.pfault_only (Only.refl [.regs] s) rfl) (by decide)).trans grew_raise).trans
    (Grew.only (State.clearSrc_only (Only.refl [.safety] _) rfl) (by decide))

theorem grew_reportLost : Grew s s.reportLost := by
  unfold State.reportLost
  split
  · exact Grew.refl
  · have cleared : Grew s (s.onLog fun g => { g with lostSince := 0 }) := ⟨rfl, [], (List.append_nil _).symm⟩
    exact cleared.trans (grew_logAdd (by decide))

theorem reportLost_none (none : s.log.lostSince = 0) : s.reportLost = s := if_pos none

theorem logFail_only' : Only [.regs, .axes, .safety, .trace, .log] s s.logFail := State.logFail_only (Only.refl _ _) rfl

theorem reportLost_only' : Only [.regs, .trace, .log] s s.reportLost := State.reportLost_only (Only.refl _ _) rfl

theorem Rising.reportLost {P : State → Prop} (rise : Rising P) (h : P s) : P s.reportLost := by
  unfold State.reportLost
  split
  · exact h
  · exact rise.logAdd (rise.same h rfl)

/-- A write that fails its verification shows on the page. -/
theorem logFail_faulted (ok : MapOk s.regs) : Faulted pgNvlog 0 s.logFail := rising_faulted.raisePulse (pfault_sets ok (by decide))

/-! Sectors. -/

theorem secAddr_word : secAddr k w = secAddr k 0 + 4 * w := by
  unfold secAddr
  omega

theorem secType_of_mem (h : t.mem = s.mem) : t.secType k = s.secType k := by rw [State.secType, State.secW, wordAt_of_mem h]; rfl

/-- The words of a sector written as a whole. -/
theorem secW_putWords {ws : List Word} (ok : MemoryOk s) (low : w < ws.length) : (s.putWords (secAddr k 0) ws).wordAt (secAddr k w) = ws.getD w 0 := by
  rw [secAddr_word (w := w)]
  exact wordAt_putWords_at ok low

/-- Another sector stays. -/
theorem secW_other {ws : List Word} (ok : MemoryOk s) (len : ws.length = 64) (n : j ≠ k) (low : w < 64) :
    (s.putWords (secAddr k 0) ws).wordAt (secAddr j w) = s.wordAt (secAddr j w) := by
  refine wordAt_putWords_ne ok ?_
  rw [len]
  unfold secAddr
  omega

theorem freeSector_free (ok : MemoryOk s) : (s.freeSector k).secType k = 0xFF := by
  rw [State.secType, State.secW, State.freeSector, secW_putWords ok (by simp)]
  show fld 0xFF000000 31 24 = 0xFF
  decide

theorem freeSector_other (ok : MemoryOk s) (n : j ≠ k) (low : w < 64) : (s.freeSector k).wordAt (secAddr j w) = s.wordAt (secAddr j w) :=
  secW_other ok (by simp) n low

/-- Words 4 to 63 of a sector, and its TYPE, as they were written. -/
theorem openSector_words {body : List Word} (ok : MemoryOk s) (len : body.length = 60) :
    (s.openSector k type part body).wordsAt (secAddr k 4) 60 = body := by
  refine List.ext_getElem (by simp [State.wordsAt, len]) fun i h _ => ?_
  have low : i < 60 := by simpa [State.wordsAt] using h
  have place : secAddr k 4 + 4 * i = secAddr k (4 + i) := by unfold secAddr; omega
  simp only [State.wordsAt, List.getElem_map, List.getElem_range]
  rw [place, State.openSector, secW_putWords ok (by simp; omega), List.getD_append_right _ _ _ _ (by simp)]
  simp [low, len]

theorem openSector_type {body : List Word} (ok : MemoryOk s) (small : type * 2 ^ 24 + part * 2 ^ 16 < 2 ^ 32) (low : part < 256) :
    (s.openSector k type part body).secType k = type := by
  rw [State.secType, State.secW, State.openSector, secW_putWords ok (by simp)]
  simp only [List.cons_append, List.getD_cons_zero, fld, nw, BitVec.toNat_ofNat, Nat.mod_eq_of_lt small, Nat.shiftRight_eq_div_pow]
  omega

/-! The next event sector. -/

/-- Sector k is the head. -/
def State.headAt (s : State) (k : Nat) : State :=
  (s.onLog fun g => { g with head := k, slot := 0, opened := true }).setLv pgNvlog NVLOG.SEQ (s.secW k 1)

theorem openHead_opened (opened : s.log.opened = true) :
    s.openHead = (s.openSector (s.nextSector s.log.head) 1 0 []).headAt (s.nextSector s.log.head) := by
  unfold State.openHead
  rw [opened]
  rfl

theorem headAt_only : Only [.regs] (s.onLog fun g => { g with head := k, slot := 0, opened := true }) (s.headAt k) :=
  State.setLv_only (Only.refl _ _) rfl

theorem headAt_log : (s.headAt k).log = { s.log with head := k, slot := 0, opened := true } := headAt_only .log (by decide)

theorem headAt_type : (s.headAt k).secType j = s.secType j := secType_of_mem (headAt_only .mem (by decide))

theorem openHead_log (opened : s.log.opened = true) :
    s.openHead.log = { s.log with head := s.nextSector s.log.head, slot := 0, opened := true } := by
  have log : (s.openSector (s.nextSector s.log.head) 1 0 []).log = s.log := State.openSector_only (Only.refl [.mem, .eccBad] s) rfl .log (by decide)
  rw [openHead_opened opened, headAt_log, log]

theorem openHead_type (mem : MemoryOk s) (opened : s.log.opened = true) : s.openHead.secType (s.nextSector s.log.head) = 1 := by
  rw [openHead_opened opened, headAt_type]
  exact openSector_type mem (by decide) (by decide)

end

end Sys2Proof.Machine
end


section

/-! PROOF. An entry of the impression log is committed (R437, R441). -/

namespace Sys2Proof.Machine

open Sys2Proof.Safety Sys2Proof.Claims

section

variable {s t : State} {e : LogEntry} {rest : List LogEntry} {ok : Bool} {a slot : Nat}

/-- The entry has left the queue. -/
def State.entryGone (s : State) (rest : List LogEntry) : State := s.onLog fun g => { g with queue := rest }

/-- The entry's words stand in its slot, or free values where the write fails its verification. -/
def State.entryPut (s : State) (e : LogEntry) (ok : Bool) (a : Nat) : State :=
  if ok then s.putWords a (e.words s.log.boot)
  else { s with free := s.free + 4 }.putWords a ((List.range 4).map fun i => Config.freeWord (s.free + i))

/-- The entry is written and told of. -/
def State.entryWritten (s : State) (e : LogEntry) (ok : Bool) (a : Nat) : State :=
  if ok then ((s.entryPut e ok a).inc32 pgNvlog NVLOG.ENTRY_COUNT).event pgNvlog 1 else (s.entryPut e ok a).logFail

/-- The log moves on by a slot, or to the next sector. -/
def State.slotMoved (s : State) (slot : Nat) : State := if slot = 14 then s.openHead else s.onLog fun g => { g with slot := slot + 1 }

theorem exec_logEntryCommit (queue : s.log.queue = e :: rest) (opened : s.log.opened = true) : exec (.logEntryCommit ok) s =
    .next (((s.entryGone rest).entryWritten e ok (secAddr s.log.head (4 + 4 * s.log.slot))).slotMoved s.log.slot).reportLost := by
  have place : (s.entryGone rest).log.head = s.log.head ∧ (s.entryGone rest).log.slot = s.log.slot := ⟨rfl, rfl⟩
  rw [← place.1, ← place.2]
  show execLogEntryCommit ok s = _
  unfold execLogEntryCommit
  rw [queue]
  dsimp only
  rw [if_pos opened]
  unfold State.slotMoved State.entryWritten State.entryPut State.entryGone
  cases ok with
  | true => simp only [if_true]
  | false => simp only [Bool.false_eq_true, if_false]

theorem entryPut_length : (e.words slot).length = 4 := rfl

/-- What an entry's slot holds, and that no other byte changes. -/
theorem entryPut_leaves (mem : MemoryOk s) : MemoryOk (s.entryPut e ok a) ∧
    (∀ x, x < a ∨ a + 16 ≤ x → (s.entryPut e ok a).byteAt x = s.byteAt x) ∧ (s.entryPut e ok a).log = s.log ∧ (s.entryPut e ok a).regs = s.regs ∧
    (ok = true → (s.entryPut e ok a).wordsAt a 4 = e.words s.log.boot) ∧
    (ok = false → (s.entryPut e ok a).free = s.free + 4 ∧
      (s.entryPut e ok a).wordsAt a 4 = (List.range 4).map fun i => Config.freeWord (s.free + i)) := by
  have put (u : State) (ws : List Word) : Only [.mem, .eccBad] u (u.putWords a ws) := State.putWords_only (Only.refl _ _) rfl
  unfold State.entryPut
  cases ok with
  | true =>
    exact ⟨putWords_memoryOk mem, fun x n => byteAt_putWords_ne mem n, put s _ .log (by decide), put s _ .regs (by decide),
      fun _ => wordsAt_putWords mem entryPut_length, nofun⟩
  | false =>
    have mem' : MemoryOk { s with free := s.free + 4 } := mem
    exact ⟨putWords_memoryOk mem', fun x n => byteAt_putWords_ne mem' (by simpa using n), put _ _ .log (by decide), put _ _ .regs (by decide),
      nofun, fun _ => ⟨put _ _ .free (by decide), wordsAt_putWords mem' (by simp)⟩⟩

theorem entryPut_only : Only [.mem, .eccBad, .free] s (s.entryPut e ok a) := by
  have counted : Only [.mem, .eccBad, .free] s { s with free := s.free + 4 } := fun f out => by
    cases f with
    | free => simp at out
    | _ => rfl
  exact only_ite (State.putWords_only (Only.refl _ _) rfl) (State.putWords_only counted rfl)

/-- What is told of an entry changes no memory. -/
theorem entryWritten_after : Only [.regs, .axes, .safety, .trace, .log] (s.entryPut e ok a) (s.entryWritten e ok a) :=
  only_ite (State.event_only (State.inc32_only (Only.refl _ _) rfl) rfl) logFail_only'

theorem entryWritten_true : Only [.regs, .trace] (s.entryPut e true a) (s.entryWritten e true a) :=
  State.event_only (State.inc32_only (Only.refl _ _) rfl) rfl

theorem entryWritten_grew : Grew s (s.entryWritten e ok a) := by
  have put : Grew s (s.entryPut e ok a) := Grew.only entryPut_only (by decide)
  cases ok with
  | true => exact put.trans (Grew.only entryWritten_true (by decide))
  | false => exact put.trans grew_logFail

theorem entryWritten_counts (whole : Whole s) : Flagged (s.entryWritten e true a) pgNvlog 0 ∧
    (s.entryWritten e true a).lv pgNvlog NVLOG.ENTRY_COUNT = s.lv pgNvlog NVLOG.ENTRY_COUNT + 1 := by
  obtain ⟨-, -, -, regs, -⟩ := entryPut_leaves (e := e) (ok := true) (a := a) whole.mem
  have start : MapOk (s.entryPut e true a).regs := by rw [regs]; exact whole.regs
  have counted : Reads pgNvlog NVLOG.ENTRY_COUNT (s.lv pgNvlog NVLOG.ENTRY_COUNT + 1) ((s.entryPut e true a).inc32 pgNvlog NVLOG.ENTRY_COUNT) := by
    have before : (s.entryPut e true a).lv pgNvlog NVLOG.ENTRY_COUNT = s.lv pgNvlog NVLOG.ENTRY_COUNT := lv_of_regs regs
    rw [← before]
    exact reads_setLv start
  exact ⟨(event_flags (s := (s.entryPut e true a).inc32 pgNvlog NVLOG.ENTRY_COUNT) (p := pgNvlog) (bits := 1) (i := 0) counted.1 (by decide)).2,
    (counted.event (by decide)).2⟩

theorem entryWritten_faulted (whole : Whole s) : Faulted pgNvlog 0 (s.entryWritten e false a) := by
  obtain ⟨-, -, -, regs, -⟩ := entryPut_leaves (e := e) (ok := false) (a := a) whole.mem
  exact logFail_faulted (by rw [regs]; exact whole.regs)

/-! The slots. -/

theorem slotMoved_next (n : slot ≠ 14) : s.slotMoved slot = s.onLog fun g => { g with slot := slot + 1 } := if_neg n

theorem slotMoved_sector : s.slotMoved 14 = s.openHead := rfl

theorem slotMoved_queue (opened : s.log.opened = true) : (s.slotMoved slot).log.queue = s.log.queue ∧ (s.slotMoved slot).log.lostSince = s.log.lostSince := by
  by_cases last : slot = 14
  · rw [last, slotMoved_sector, openHead_log opened]
    exact ⟨rfl, rfl⟩
  · rw [slotMoved_next last]
    exact ⟨rfl, rfl⟩

theorem nextSector_of_image {k : Nat} (h : t.log.image = s.log.image) : t.nextSector k = s.nextSector k := by
  unfold State.nextSector
  rw [h]

/-- R437, R441: the first entry of the queue is committed. -/
theorem logEntryCommit_row (whole : Whole s) (queue : s.log.queue = e :: rest) (opened : s.log.opened = true) (none : s.log.lostSince = 0) :
    let head := s.log.head
    let a := secAddr head (4 + 4 * s.log.slot)
    Does (.logEntryCommit ok) s [.regs, .mem, .eccBad, .axes, .safety, .trace, .log, .free] fun t =>
      (ok = true → t.log.queue = rest) ∧ (∃ more, t.log.queue = rest ++ more) ∧
      (s.log.slot < 14 → t.log.head = head ∧ t.log.slot = s.log.slot + 1 ∧ ∀ x, x < a ∨ a + 16 ≤ x → t.byteAt x = s.byteAt x) ∧
      (s.log.slot = 14 → t.log.slot = 0 ∧ t.log.head = s.nextSector head ∧ t.secType (s.nextSector head) = 1) ∧
      (ok = true → s.log.slot < 14 → t.wordsAt a 4 = e.words s.log.boot ∧ Flagged t pgNvlog 0 ∧
        t.lv pgNvlog NVLOG.ENTRY_COUNT = s.lv pgNvlog NVLOG.ENTRY_COUNT + 1) ∧
      (ok = false → s.log.slot < 14 → bt (t.lv pgNvlog pageFault) 0 = true ∧ t.free = s.free + 4 ∧
        t.wordsAt a 4 = (List.range 4).map fun i => Config.freeWord (s.free + i)) := by
  intro head a
  have gone : Only [.log] s (s.entryGone rest) := State.onLog_only (Only.refl _ _) rfl
  have whole' : Whole (s.entryGone rest) := (State.onLog_kept (Kept.refl _)).whole whole
  obtain ⟨mem, beside, log, -, stored, free⟩ := entryPut_leaves (s := s.entryGone rest) (e := e) (ok := ok) (a := a) whole'.mem
  have after := entryWritten_after (s := s.entryGone rest) (e := e) (ok := ok) (a := a)
  obtain ⟨place, more, grown⟩ := entryWritten_grew (s := s.entryGone rest) (e := e) (ok := ok) (a := a)
  have counts := entryWritten_counts (e := e) (a := a) whole'
  have faulted := entryWritten_faulted (e := e) (a := a) whole'
  have run := exec_logEntryCommit (ok := ok) queue opened
  have exact_ (yes : ok = true) : ((s.entryGone rest).entryWritten e ok a).log = (s.entryGone rest).log := by
    subst yes
    exact (entryWritten_true .log (by decide)).trans log
  have only : Only [.regs, .mem, .eccBad, .axes, .safety, .trace, .log, .free] s ((s.entryGone rest).entryWritten e ok a) :=
    Only.upd (Only.upd (Only.upd (Only.refl _ _) rfl gone) rfl entryPut_only) rfl after
  have memW : ((s.entryGone rest).entryWritten e ok a).mem = ((s.entryGone rest).entryPut e ok a).mem := after .mem (by decide)
  have freeW : ((s.entryGone rest).entryWritten e ok a).free = ((s.entryGone rest).entryPut e ok a).free := after .free (by decide)
  generalize hW : (s.entryGone rest).entryWritten e ok a = W at *
  have opened' : W.log.opened = true := (congrArg (fun p => p.2.2.1) place).trans opened
  obtain ⟨queueS, lostS⟩ := slotMoved_queue (slot := s.log.slot) opened'
  obtain ⟨placeT, more', queueT⟩ := grew_reportLost (s := W.slotMoved s.log.slot)
  have told := reportLost_only' (s := W.slotMoved s.log.slot)
  have silent (yes : ok = true) : (W.slotMoved s.log.slot).reportLost = W.slotMoved s.log.slot :=
    reportLost_none (lostS.trans ((congrArg LogSt.lostSince (exact_ yes)).trans none))
  have next (low : s.log.slot < 14) : W.slotMoved s.log.slot = W.onLog fun g => { g with slot := s.log.slot + 1 } := slotMoved_next (by omega)
  have moved (low : s.log.slot < 14) : Only [.log] W (W.slotMoved s.log.slot) := by rw [next low]; exact State.onLog_only (Only.refl _ _) rfl
  have memT (low : s.log.slot < 14) : (W.slotMoved s.log.slot).reportLost.mem = ((s.entryGone rest).entryPut e ok a).mem :=
    ((told .mem (by decide)).trans (moved low .mem (by decide))).trans memW
  refine ⟨_, run, ⟨fun yes => ?_, ⟨more ++ more', ?_⟩, fun low => ⟨?_, ?_, fun x n => ?_⟩, fun last => ?_, fun yes low => ⟨?_, ?_⟩,
    fun no low => ⟨?_, ?_, ?_⟩⟩, ?_⟩
  · rw [silent yes, queueS, exact_ yes]
    rfl
  · rw [queueT, queueS, grown, List.append_assoc]
    rfl
  · have headS : (W.slotMoved s.log.slot).log.head = W.log.head := by rw [next low]; rfl
    exact ((congrArg Prod.fst placeT).trans headS).trans (congrArg Prod.fst place)
  · have slotS : (W.slotMoved s.log.slot).log.slot = s.log.slot + 1 := by rw [next low]; rfl
    exact (congrArg (fun p => p.2.1) placeT).trans slotS
  · exact (byteAt_of_mem (memT low)).trans (beside x n)
  · have image : W.log.image = s.log.image := congrArg (fun p => p.2.2.2.1) place
    have headW : W.log.head = head := congrArg Prod.fst place
    have logS : (W.slotMoved s.log.slot).log = { W.log with head := s.nextSector head, slot := 0, opened := true } := by
      rw [last, slotMoved_sector, openHead_log opened', nextSector_of_image image, headW]
    have typeS : (W.slotMoved s.log.slot).secType (s.nextSector head) = 1 := by
      rw [last, slotMoved_sector, ← nextSector_of_image image, ← headW]
      exact openHead_type (by rw [MemoryOk, memW]; exact mem) opened'
    exact ⟨(congrArg (fun p => p.2.1) placeT).trans (congrArg LogSt.slot logS), (congrArg Prod.fst placeT).trans (congrArg LogSt.head logS),
      (secType_of_mem (told .mem (by decide))).trans typeS⟩
  · exact (wordsAt_of_mem (memT low)).trans (stored yes)
  · subst yes hW
    rw [silent rfl, next low]
    exact ⟨flagged_of_regs counts.1 rfl, (lv_of_regs rfl).trans counts.2⟩
  · subst no hW
    have faultedS : Faulted pgNvlog 0 (((s.entryGone rest).entryWritten e false a).slotMoved s.log.slot) :=
      rising_faulted.only (moved low) (by decide) faulted
    exact (rising_faulted.reportLost faultedS).2
  · exact ((told .free (by decide)).trans ((moved low .free (by decide)).trans freeW)).trans (free no).1
  · exact (wordsAt_of_mem (memT low)).trans (free no).2
  · exact State.reportLost_only (only_ite (State.openHead_only only rfl) (State.onLog_only only rfl)) rfl

end

end Sys2Proof.Machine
end


section

/-! PROOF. The stored image: copied forward, and saved (R438, R439, R441). -/

namespace Sys2Proof.Machine

open Sys2Proof.Safety Sys2Proof.Claims

section

variable {s t u : State} {ok : Bool} {j k : Nat} {parts : List (List Word)} {old : List Nat}

/-! Sectors freed. -/

theorem freeSector_ok (mem : MemoryOk s) : MemoryOk (s.freeSector k) := putWords_memoryOk mem

theorem freeSector_keeps (mem : MemoryOk s) (free : s.secType k = 0xFF) : (s.freeSector j).secType k = 0xFF := by
  by_cases same : k = j
  · rw [same]
    exact freeSector_free mem
  · rw [State.secType, State.secW, freeSector_other mem same (by decide)]
    exact free

/-- The sectors of the old image are free. -/
def State.freed (s : State) (old : List Nat) : State := forL old (fun k s => s.freeSector k) s

theorem freed_free (mem : MemoryOk s) (old_ : k ∈ old) : (s.freed old).secType k = 0xFF := by
  have result : MemoryOk (s.freed old) ∧ (s.freed old).secType k = 0xFF :=
    forL_reaches (I := MemoryOk) (P := fun t => MemoryOk t ∧ t.secType k = 0xFF) old_ (fun _ _ => freeSector_ok)
      (fun _ m => ⟨freeSector_ok m, freeSector_free m⟩) (fun _ _ h => ⟨freeSector_ok h.1, freeSector_keeps h.1 h.2⟩) mem
  exact result.2

theorem freed_only : Only [.mem, .eccBad] s (s.freed old) := forL_only (fun _ _ h => State.freeSector_only h rfl) (Only.refl _ _)

theorem freeSector_words (mem : MemoryOk s) (n : j ≠ k) : (s.freeSector k).wordsAt (secAddr j 4) 60 = s.wordsAt (secAddr j 4) 60 := by
  refine List.map_congr_left fun i hi => ?_
  have low : i < 60 := List.mem_range.mp hi
  have place : secAddr j 4 + 4 * i = secAddr j (4 + i) := by unfold secAddr; omega
  rw [place]
  exact freeSector_other mem n (by omega)

/-! Parts placed. -/

/-- The sector that the next part takes. -/
def partSector (old : List Nat) (x : State × List Nat) : Option Nat :=
  ((List.range 256).map fun i => ((x.2.getLast?).getD x.1.log.head + 1 + i) % 256).find? fun j => !old.contains j && j != x.1.log.head

/-- A part is placed. -/
def placePart (old : List Nat) (x : State × List Nat) (part : List Word × Nat) : State × List Nat :=
  match partSector old x with
  | none => x
  | some k => (x.1.openSector k 2 part.2 part.1, x.2 ++ [k])

/-- Every part is placed: the state, and the sectors taken. -/
def State.placed (s : State) (parts : List (List Word)) : State × List Nat := parts.zipIdx.foldl (placePart s.log.image) (s, [])

theorem placeImage_eq : s.placeImage parts =
    (((s.placed parts).1.freed s.log.image).onLog fun g => { g with image := (s.placed parts).2 }).imageRegs := rfl

theorem partSector_apart {x : State × List Nat} (h : partSector old x = some k) : k ∉ old ∧ k ≠ x.1.log.head := by
  have found := List.find?_some h
  simpa using found

/-- What holds of the parts placed so far: nothing but memory has changed, and no sector taken was in use. -/
structure PlacedSoFar (s : State) (old : List Nat) (x : State × List Nat) : Prop where
  only : Only [.mem, .eccBad] s x.1
  mem : MemoryOk x.1
  apart : ∀ k ∈ x.2, k ∉ old ∧ k ≠ s.log.head

theorem placePart_soFar {x : State × List Nat} {part : List Word × Nat} (h : PlacedSoFar s old x) : PlacedSoFar s old (placePart old x part) := by
  obtain ⟨only, mem, apart⟩ := h
  unfold placePart
  split
  case h_1 => exact ⟨only, mem, apart⟩
  case h_2 k found =>
    have log : x.1.log = s.log := only .log (by decide)
    have free := partSector_apart found
    rw [log] at free
    refine ⟨State.openSector_only only rfl, putWords_memoryOk mem, fun j taken => ?_⟩
    rcases List.mem_append.mp taken with before | now
    · exact apart j before
    · rw [List.mem_singleton.mp now]
      exact free

theorem placed_soFar (mem : MemoryOk s) : PlacedSoFar s s.log.image (s.placed parts) := by
  have start : PlacedSoFar s s.log.image (s, []) := ⟨Only.refl _ _, mem, nofun⟩
  exact List.foldlRecOn (motive := PlacedSoFar s s.log.image) _ _ start fun _ h _ _ => placePart_soFar h

/-- One part takes a sector beside the old one and the head. -/
theorem partSector_one : ∃ j, partSector [k] (s, []) = some j ∧ j ≠ k := by
  have some_ : (partSector [k] (s, [])).isSome = true := by
    rw [partSector, List.find?_isSome]
    by_cases first : (s.log.head + 1 + 0) % 256 = k
    · exact ⟨(s.log.head + 1 + 1) % 256, List.mem_map.mpr ⟨1, by decide, rfl⟩, by simp; omega⟩
    · exact ⟨(s.log.head + 1 + 0) % 256, List.mem_map.mpr ⟨0, by decide, rfl⟩, by simp; omega⟩
  obtain ⟨j, found⟩ := Option.isSome_iff_exists.mp some_
  exact ⟨j, found, fun same => (partSector_apart found).1 (same ▸ List.mem_singleton.mpr rfl)⟩

theorem placed_one {body : List Word} (image : s.log.image = [k]) (found : partSector [k] (s, []) = some j) :
    s.placed [body] = (s.openSector j 2 0 body, [j]) := by
  show placePart s.log.image (s, []) (body, 0) = _
  rw [image, placePart, found]
  rfl

theorem imageRegs_only' : Only [.regs] s s.imageRegs := State.imageRegs_only (Only.refl _ _) rfl

/-- What placing an image leaves: the old sectors free, and the sectors taken beside them. -/
theorem placeImage_leaves (whole : Whole s) : (s.placeImage parts).log = { s.log with image := (s.placed parts).2 } ∧
    (s.placeImage parts).mem = ((s.placed parts).1.freed s.log.image).mem ∧ (∀ k ∈ s.log.image, (s.placeImage parts).secType k = 0xFF) ∧
    (∀ k ∈ (s.placed parts).2, k ∉ s.log.image ∧ k ≠ s.log.head) := by
  obtain ⟨only, mem, apart⟩ := placed_soFar (parts := parts) whole.mem
  have log : ((s.placed parts).1.freed s.log.image).log = s.log := (freed_only .log (by decide)).trans (only .log (by decide))
  have regs := imageRegs_only' (s := ((s.placed parts).1.freed s.log.image).onLog fun g => { g with image := (s.placed parts).2 })
  have logT : (s.placeImage parts).log = { ((s.placed parts).1.freed s.log.image).log with image := (s.placed parts).2 } := by
    rw [placeImage_eq]
    exact regs .log (by decide)
  have memT : (s.placeImage parts).mem = ((s.placed parts).1.freed s.log.image).mem := by
    rw [placeImage_eq]
    exact regs .mem (by decide)
  refine ⟨by rw [logT, log], memT, fun k old_ => ?_, apart⟩
  rw [secType_of_mem memT]
  exact freed_free mem old_

theorem placeImage_only' : Only [.regs, .mem, .eccBad, .log] s (s.placeImage parts) := State.placeImage_only (Only.refl _ _) rfl

/-- R438: the stored image is copied forward. -/
theorem logWearCopy_row (whole : Whole s) :
    (s.log.image = [] ∨ s.log.opened = false → exec (.logWearCopy ok) s = .next s) ∧
    (s.log.image ≠ [] → s.log.opened = true → Does (.logWearCopy ok) s [.regs, .mem, .eccBad, .axes, .safety, .trace, .log] fun t =>
      (ok = false → t.mem = s.mem ∧ t.log.image = s.log.image ∧ bt (t.lv pgNvlog pageFault) 0 = true) ∧
        (ok = true → (∀ k ∈ s.log.image, t.secType k = 0xFF) ∧ (∀ k ∈ t.log.image, k ∉ s.log.image ∧ k ≠ s.log.head) ∧
          ∀ k, s.log.image = [k] → k < 256 → ∃ j, t.log.image = [j] ∧ t.secType j = 2 ∧
            t.wordsAt (secAddr j 4) 60 = s.wordsAt (secAddr k 4) 60)) := by
  constructor
  · intro nothing
    have still : s.log.image.isEmpty = true ∨ (!s.log.opened) = true := by simpa using nothing
    exact if_pos still
  · intro some_ opened
    have acts : ¬ (s.log.image.isEmpty = true ∨ (!s.log.opened) = true) := by simp [some_, opened]
    cases ok with
    | false =>
      have run : exec (.logWearCopy false) s = .next s.logFail := (if_neg acts).trans (if_pos rfl)
      exact ⟨_, run, ⟨fun _ => ⟨logFail_only' .mem (by decide), congrArg (fun p => p.2.2.2.1) grew_logFail.1, (logFail_faulted whole.regs).2⟩, nofun⟩,
        State.logFail_only (Only.refl _ _) rfl⟩
    | true =>
      have run : exec (.logWearCopy true) s = .next (s.placeImage (s.log.image.map fun k => s.wordsAt (secAddr k 4) 60)) :=
        (if_neg acts).trans (if_neg (by decide))
      obtain ⟨log, mem, free, apart⟩ := placeImage_leaves (parts := s.log.image.map fun k => s.wordsAt (secAddr k 4) 60) whole
      have image : (s.placeImage (s.log.image.map fun k => s.wordsAt (secAddr k 4) 60)).log.image =
          (s.placed (s.log.image.map fun k => s.wordsAt (secAddr k 4) 60)).2 := congrArg LogSt.image log
      refine ⟨_, run, ⟨nofun, fun _ => ⟨free, fun k taken => apart k (image ▸ taken), fun k single _ => ?_⟩⟩, State.placeImage_only (Only.refl _ _) rfl⟩
      obtain ⟨j, found, ne⟩ := partSector_one (s := s) (k := k)
      have placed : s.placed (s.log.image.map fun k => s.wordsAt (secAddr k 4) 60) =
          (s.openSector j 2 0 (s.wordsAt (secAddr k 4) 60), [j]) := by
        rw [single]
        exact placed_one single found
      have stored : MemoryOk (s.openSector j 2 0 (s.wordsAt (secAddr k 4) 60)) := putWords_memoryOk whole.mem
      have memT : (s.placeImage (s.log.image.map fun k => s.wordsAt (secAddr k 4) 60)).mem =
          ((s.openSector j 2 0 (s.wordsAt (secAddr k 4) 60)).freeSector k).mem := by
        rw [mem, placed, single]
        rfl
      refine ⟨j, image.trans (congrArg Prod.snd placed), ?_, ?_⟩
      · rw [secType_of_mem memT, State.secType, State.secW, freeSector_other stored ne (by decide)]
        exact openSector_type whole.mem (by decide) (by decide)
      · rw [wordsAt_of_mem memT, freeSector_words stored ne]
        exact openSector_words whole.mem (by simp [State.wordsAt])

/-! The end of a save. -/

/-- The save is over. -/
def State.saveOver (s : State) : State := (s.onStage fun g => { g with save := none }).onLog fun g => { g with saving := [] }

theorem saveOver_leaves : s.saveOver.stage = { s.stage with save := none } ∧ s.saveOver.log = { s.log with saving := [] } ∧
    s.saveOver.host = s.host ∧ s.saveOver.mem = s.mem ∧ s.saveOver.regs = s.regs := ⟨rfl, rfl, rfl, rfl, rfl⟩

theorem saveOver_only : Only [.stage, .log] s s.saveOver := State.onLog_only (State.onStage_only (Only.refl _ _) rfl) rfl

theorem saveOver_whole (whole : Whole s) : Whole s.saveOver := (State.onLog_kept (State.onStage_kept (Kept.refl _))).whole whole

/-- The image is saved and told of. -/
def State.imageSaved (s : State) (parts : List (List Word)) : State :=
  ((s.placeImage parts).event pgNvlog 4).logAdd 10 clsInfo (masterCode .host) 0 0

theorem exec_imageSaveDone (save : s.stage.save = some true) : exec (.imageSaveDone ok) s =
    if s.log.saving.isEmpty then .next ((s.saveOver.event pgNvlog 8).complete .host eRange)
    else if !ok then .next ((s.saveOver.event pgNvlog 8).logFail.complete .host eCrc)
    else .next ((s.saveOver.imageSaved s.log.saving).complete .host eNone) := by
  show execImageSaveDone ok s = _
  unfold execImageSaveDone
  rw [save]
  rfl

/-- The host's command in progress ends with a result. -/
theorem complete_ends {code : BitVec 8} {res : Nat} (ok : MapOk s.regs) (busy : s.host.busy = some code) :
    Reports .host s.host.busySeq code.toNat true true res (s.complete .host res) ∧ (s.complete .host res).host.busy = none := by
  have ended : s.complete .host res =
      (s.onMstr .host fun x => { x with busy := none }).setResult .host s.host.busySeq.toNat code.toNat true true res := by
    unfold State.complete
    have busy' : (s.mstr .host).busy = some code := busy
    rw [busy']
    rfl
  rw [ended]
  refine ⟨(reads_setResult (by rw [State.onMstr_regs]; exact ok)).2, ?_⟩
  have still : (((s.onMstr .host fun x => { x with busy := none }).setResult .host s.host.busySeq.toNat code.toNat true true res).mstr .host).busy =
      ((s.onMstr .host fun x => { x with busy := none }).mstr .host).busy := congrArg MasterSt.busy setResult_mstr
  exact still

/-- The end of the host's command leaves every fault bit. -/
theorem Faulted.completeHost {p i res : Nat} (h : Faulted p i s) : Faulted p i (s.complete .host res) := by
  unfold State.complete
  split
  · exact h
  · unfold State.setResult
    rw [if_neg (by decide)]
    exact (h.of_regs State.onMstr_regs).setLv_ne (result_beside (by decide) fun e => absurd e.2 (by decide))

/-- What the end of the host's command adds to what is told before it. -/
theorem saveDone_ends {fs : List Part} {code : BitVec 8} {res i : Nat} (told : Only fs s.saveOver t) (stage : .stage ∉ fs) (host : .host ∉ fs)
    (place : t.log.saving = []) (busy : s.host.busy = some code) (ok : MapOk t.regs) (flagged : Flagged t pgNvlog i) :
    let u := t.complete .host res
    u.stage = { s.stage with save := none } ∧ u.host.busy = none ∧ u.log.saving = [] ∧ Reports .host s.host.busySeq code.toNat true true res u ∧
      Flagged u pgNvlog i ∧ u.mem = t.mem := by
  intro u
  obtain ⟨stage_, -, host_, -, -⟩ := saveOver_leaves (s := s)
  have ended := complete_only' (s := t) (m := .host) (res := res)
  have hostT : t.host = s.host := (told .host host).trans host_
  obtain ⟨reports, idle⟩ := complete_ends (res := res) ok (by rw [hostT]; exact busy)
  rw [hostT] at reports
  exact ⟨((ended .stage (by decide)).trans (told .stage stage)).trans stage_, idle, (congrArg LogSt.saving (ended .log (by decide))).trans place,
    reports, (Up.complete (Up.refl ok)).bits _ _ flagged, ended .mem (by decide)⟩

theorem imageSaved_leaves (whole : Whole s) : Only [.regs, .mem, .eccBad, .trace, .log] s (s.imageSaved parts) ∧
    (s.imageSaved parts).log.saving = s.log.saving ∧ MapOk (s.imageSaved parts).regs ∧ Flagged (s.imageSaved parts) pgNvlog 2 ∧
    ∀ k ∈ s.log.image, (s.imageSaved parts).secType k = 0xFF := by
  obtain ⟨log, -, free, -⟩ := placeImage_leaves (parts := parts) whole
  have placed : Whole (s.placeImage parts) := (State.placeImage_kept (Kept.refl _)).whole whole
  obtain ⟨up, flagged⟩ := event_flags (s := s.placeImage parts) (p := pgNvlog) (bits := 4) (i := 2) placed.regs (by decide)
  have told : Only [.regs, .trace, .log] (s.placeImage parts) (s.imageSaved parts) := State.logAdd_only (State.event_only (Only.refl _ _) rfl) rfl
  have grew : Grew (s.placeImage parts) (s.imageSaved parts) :=
    (Grew.only (State.event_only (Only.refl [.regs, .trace] _) rfl) (by decide)).trans (grew_logAdd (by decide))
  exact ⟨Only.upd (Only.upd (Only.refl _ _) rfl placeImage_only') rfl told,
    (congrArg (fun p => p.2.2.2.2.1) grew.1).trans (congrArg LogSt.saving log), up.logAdd.ok, up.logAdd.bits _ _ flagged,
    fun k old_ => (secType_of_mem (told .mem (by decide))).trans (free k old_)⟩

/-- R439: an image save ends. -/
theorem imageSaveDone_row {code : BitVec 8} (whole : Whole s) (save : s.stage.save = some true) (busy : s.host.busy = some code) :
    Does (.imageSaveDone ok) s [.regs, .mem, .eccBad, .stage, .host, .mgr, .axes, .safety, .trace, .log] fun t =>
      let ends := Reports .host s.host.busySeq code.toNat true true
      t.stage = { s.stage with save := none } ∧ t.host.busy = none ∧ t.log.saving = [] ∧
        (s.log.saving = [] → ends eRange t ∧ Flagged t pgNvlog 3 ∧ t.mem = s.mem) ∧
        (s.log.saving ≠ [] → ok = false → ends eCrc t ∧ Flagged t pgNvlog 3 ∧ t.mem = s.mem ∧ bt (t.lv pgNvlog pageFault) 0 = true) ∧
        (s.log.saving ≠ [] → ok = true → ends eNone t ∧ Flagged t pgNvlog 2 ∧ ∀ k ∈ s.log.image, t.secType k = 0xFF) := by
  have ended := saveOver_whole whole
  have run := exec_imageSaveDone (ok := ok) save
  have begun : Only [.regs, .mem, .eccBad, .stage, .host, .mgr, .axes, .safety, .trace, .log] s s.saveOver :=
    Only.upd (Only.refl _ _) rfl saveOver_only
  obtain ⟨up, flagged⟩ := event_flags (s := s.saveOver) (p := pgNvlog) (bits := 8) (i := 3) ended.regs (by decide)
  have noted : Only [.regs, .trace] s.saveOver (s.saveOver.event pgNvlog 8) := State.event_only (Only.refl _ _) rfl
  have noSaving : s.saveOver.log.saving = [] := rfl
  have noteSaving : (s.saveOver.event pgNvlog 8).log.saving = [] := (congrArg LogSt.saving (noted .log (by decide))).trans noSaving
  by_cases empty : s.log.saving = []
  · rw [if_pos (by simp [empty])] at run
    obtain ⟨stage, idle, saving, reports, flag, mem⟩ := saveDone_ends (res := eRange) noted (by decide) (by decide) noteSaving busy up.ok flagged
    exact ⟨_, run, ⟨stage, idle, saving, fun _ => ⟨reports, flag, mem.trans (noted .mem (by decide))⟩, fun some_ => absurd empty some_,
      fun some_ => absurd empty some_⟩, State.complete_only (State.event_only begun rfl) rfl⟩
  · rw [if_neg (by simp [empty])] at run
    cases ok with
    | false =>
      rw [if_pos (by decide)] at run
      have failed : Only [.regs, .axes, .safety, .trace, .log] s.saveOver (s.saveOver.event pgNvlog 8).logFail :=
        State.logFail_only (State.event_only (Only.refl _ _) rfl) rfl
      have failSaving : (s.saveOver.event pgNvlog 8).logFail.log.saving = [] :=
        (congrArg (fun p => p.2.2.2.2.1) (grew_logFail (s := s.saveOver.event pgNvlog 8)).1).trans noteSaving
      have faulted := logFail_faulted (s := s.saveOver.event pgNvlog 8) up.ok
      have upFail : Up (s.saveOver.event pgNvlog 8) (s.saveOver.event pgNvlog 8).logFail :=
        rising_up.raisePulse (Up.pfault (Up.refl up.ok))
      obtain ⟨stage, idle, saving, reports, flag, mem⟩ := saveDone_ends (res := eCrc) failed (by decide) (by decide) failSaving busy faulted.1
        (upFail.bits _ _ flagged)
      exact ⟨_, run, ⟨stage, idle, saving, fun none => absurd none empty,
        fun _ _ => ⟨reports, flag, mem.trans (failed .mem (by decide)), faulted.completeHost.2⟩, nofun⟩,
        State.complete_only (State.logFail_only (State.event_only begun rfl) rfl) rfl⟩
    | true =>
      rw [if_neg (by decide)] at run
      obtain ⟨told, savingT, okT, flagT, free⟩ := imageSaved_leaves (parts := s.log.saving) ended
      obtain ⟨stage, idle, saving, reports, flag, mem⟩ := saveDone_ends (res := eNone) told (by decide) (by decide) (savingT.trans noSaving) busy okT flagT
      exact ⟨_, run, ⟨stage, idle, saving, fun none => absurd none empty, nofun,
        fun _ _ => ⟨reports, flag, fun k old_ => (secType_of_mem mem).trans (free k old_)⟩⟩,
        State.complete_only (Only.upd begun rfl told) rfl⟩

end

/-- Settles O60: an entry is committed, the image is copied forward, and a save ends. -/
theorem impressionLog : Obligations.ImpressionLog := by
  intro ok s whole
  refine ⟨fun empty => ?_, fun e rest queue opened none => logEntryCommit_row whole queue opened none, (logWearCopy_row whole).1, (logWearCopy_row whole).2,
    fun unsaved => ?_, fun code save busy => imageSaveDone_row whole save busy⟩
  · show execLogEntryCommit ok s = _
    unfold execLogEntryCommit
    rw [empty]
  · show execImageSaveDone ok s = _
    unfold execImageSaveDone
    split
    · next save => exact absurd save unsaved
    · rfl

end Sys2Proof.Machine
end
